-- ==== Sys2Proof/Word.lean ====
section
/-! DEFINITION. The word types of the VRZ6400 and the plainest operations on fixed-length tables.
Registers, packet words and counters are bit vectors because software reads and writes them as words. -/

namespace Sys2Proof

/-- A host register, packet word or SFOH word: 32 bits (R6, R337, R44). -/
abbrev Word := BitVec 32
/-- A byte of bulk memory. -/
abbrev Byte := BitVec 8
/-- A path superframe number: 48 bits (R52). -/
abbrev Psfn := BitVec 48
/-- A line port, LP0 to LP3 (R1). -/
abbrev LPort := Fin 4
/-- A host lane, H00 to H31 (R259). -/
abbrev HLane := Fin 32
/-- A converter lane of a port: 0 XI, 1 XQ, 2 YI, 3 YQ (R177). -/
abbrev CLane := Fin 4
/-- A decoder engine, 0 to 63 (R203). -/
abbrev Engine := Fin 64
/-- A Dial reference code: 0 to 3 RX(LP0..3), 4 to 7 TX(LP0..3) (R291). -/
abbrev RefCode := Fin 8

/-- The containers of the sixteen slots of one superframe (R276): the cells of each, its control cell first. Cells
beyond those listed are zero. -/
abbrev Payload := Vector (List (BitVec 257)) 16

/-- Replace entry `i` of a fixed-length table. -/
def vset {α : Type} {n : Nat} (v : Vector α n) (i : Fin n) (x : α) : Vector α n :=
  v.set i.val x i.isLt

/-- Apply `f` to entry `i` of a fixed-length table. -/
def vmod {α : Type} {n : Nat} (v : Vector α n) (i : Fin n) (f : α → α) : Vector α n :=
  vset v i (f v[i])

end Sys2Proof
end

