-- ==== Sys2Proof/Syntax.lean ====
section
/-! DEFINITION. The commands of the block: one constructor of `Instr` for every row of the opcode
table, with the operands the outside world supplies (what the host writes, what a pin or the plant
does, what a far end sent). -/

namespace Sys2Proof

/-- A port through which the host (or a tester) reaches the registers (R370 classes 0, 1, 4). -/
inductive HostPort where
  | twi | mspi | test
deriving DecidableEq, Repr

/-- A host or Joryx channel; channel codes 0 to 7 and 8 to 11 (R346). -/
inductive Chan where
  | m (n : Fin 8)
  | j (n : Fin 4)
deriving DecidableEq, Repr

/-- The sender stamp of a message (R370): class, identity, generation. -/
structure Stamp where
  cls   : BitVec 3
  ident : BitVec 11
  gen   : BitVec 4
deriving DecidableEq, Repr

/-- Where a command that a core executes came from: a channel (R25), a Dial event (R294), the blob
of a configuration (R362, R490). -/
inductive Src where
  | chan (c : Chan)
  | dial (idx : Nat)
  | blob
deriving DecidableEq, Repr

/-- A command as the executing core has it: source, tag, sender stamp and parameter words (R337). -/
structure Req where
  src    : Src
  tag    : BitVec 8
  stamp  : Stamp
  params : List Word
deriving DecidableEq, Repr

/-- The control cores of R24. -/
inductive Core where
  | sup | pc (n : LPort) | hc | jg
deriving DecidableEq, Repr

/-- The power domains of R14. -/
inductive Dom where
  | aon | ctl | mon | map
  | cv (n : LPort) | ld (n : LPort) | fq (q : Fin 4) | ho (q : Fin 4)
deriving DecidableEq, Repr

/-- The parties asked before a domain sleeps, with the refuser codes of R415. -/
inductive Party where
  | sup | pc (n : LPort) | hc | jg | dial | balance
deriving DecidableEq, Repr

/-- The fault units of R459. -/
inductive FUnit where
  | aon | mon | map | fq (q : Fin 4) | cv (n : LPort) | ld (n : LPort) | ho (q : Fin 4) | core (c : Core)
deriving DecidableEq, Repr

/-- An alarm domain and instance of R457. -/
inductive AlarmKey where
  | line (n : LPort) | conv (n : LPort) | host (k : HLane) | pool | jrx (n : LPort)
deriving DecidableEq, Repr

/-- What a receiver measures over one superframe, in the units of R130: the SNRs, DGD, PDL, rotation rate and clock offset;
the residual CD that the equaliser taps show beside the stage-4 setting, in ps/nm; the residual carrier offset that stage
7 tracks beside the rotator, in MHz (R113); the 63 taps of XX, XY, YX and YY as R132 lays them out; the levels of R77, and
counts of the superframe. `llrs` are those of the superframe that ends at the demapper output, in the order in which its
coded bits were sent and before the scale and the clip of R125; a bit beyond the list has the LLR 0. -/
structure RxObs where
  llrs     : List Int
  snrX     : BitVec 16
  snrY     : BitVec 16
  snrNli   : BitVec 16
  cdRes    : Int
  dgd      : BitVec 16
  pdl      : BitVec 8
  sop      : BitVec 16
  foRes    : Int
  clk      : BitVec 16
  taps     : List Word
  levels   : Vector (BitVec 16) 4
  clips    : Vector Nat 4
  slips    : Nat
  nlcGain  : BitVec 16
  idleIns  : Vector Nat 32
  idleDel  : Vector Nat 32
deriving DecidableEq, Repr

/-- What the host side and the DAC lanes show at one transmit boundary: the 257-bit blocks that the client starting at
each lane gave the superframe that ends (R267, R277), the measured rms of the DAC lanes and their codes before
clipping, of which those in range may be left out (R172), and the host receivers' counts (R267, R272). -/
structure TxObs where
  blocks   : Vector (List (BitVec 257)) 32
  rms      : Vector Byte 4
  codes    : Vector (List Int) 4
  levels   : Vector (BitVec 16) 4
  adcClips : Vector Nat 4
  corrBits : Vector Nat 32
  rxBits   : Vector Nat 32
  cwTotal  : Vector Nat 32
  cwCorr   : Vector Nat 32
  cwUncorr : Vector Nat 32
deriving DecidableEq, Repr

/-- A decoded superframe: the 64 words of its SFOH, how many superframes ago it began, and the containers of its
payload (R276), and the lengths of the error bursts in the words of the decoded buffer that it was read from (R214). -/
structure SfohObs where
  words   : Vector Word 64
  lag     : Nat
  payload : Payload
  bursts  : List Nat
deriving DecidableEq, Repr

/-- What an engine's decode came to (R192, R193, R212): the iterations it ran and whether every check was satisfied; the
posteriors of the codeword's own bits, and per check the extrinsic values for its bits of codewords j − 64 and j − 128;
what the outer decoder then came to; and the error bursts in the words read: those of the engine's own memory, and those of
the codeword buffer with the places of their LLRs in sending order (R214). -/
structure DecodeObs where
  iters      : Nat
  satisfied  : Bool
  post       : List Int
  ext        : List (Int × Int)
  outerCorr  : Nat
  outerUncorr : Nat
  bursts     : List (Option (List Nat) × Nat)
deriving DecidableEq, Repr

/-- A word of a protected memory other than a retainable bank (R214, R215). One of soft LLRs belongs to an open superframe of a port and holds the LLRs at
the given places in sending order. -/
inductive BadMem where
  | softLlr (p : LPort) (sf : Nat) (llrs : List Nat)
  | decoded
  | engine (e : Engine)
  | sram (u : FUnit) (memory : BitVec 16)
deriving DecidableEq, Repr

/-- A request of the training partner on a host lane (R264). -/
inductive TrainReq where
  | none
  | preset (k : Nat)
  | inc (tap : Fin 6)
  | dec (tap : Fin 6)
  | precode (on : Bool)
  | outside
deriving DecidableEq, Repr

/-- What the partner's training frame answers to the own request (R264). -/
inductive TrainAns where
  | none
  | updated
  | atLimit
  | refused
deriving DecidableEq, Repr

/-- A full set of calibration items of a port (R315). -/
structure CalVals where
  timing : List Int
  gain   : List Int
  offset : List Int
  skew   : List Int
  duty   : List Int
  adcXq  : Int
  adcYi  : Int
  adcYq  : Int
  pol    : Int
  iqX    : Int
  iqY    : Int
deriving DecidableEq, Repr

/-- How a transfer of the peripheral TWI ended by itself (R403, R404). -/
inductive PtwiEnd where
  | ok | addrNack | dataNack | arbLost | busStuck
deriving DecidableEq, Repr

/-- The commands: one constructor for each row of spec/opcode_table.json, in its order. A row that is
a Crown command carries the request its core executes; a host access carries the port and what it
reads or writes; an event carries what the outside world supplies (DEDUCED, notes/assumptions 8), and its row
asserts that the event happened (DESIGN CHOICE, notes/assumptions 7). -/
inductive Instr where
  -- Crown commands (R356)
  | sysIdent (rq : Req)
  | sysStatus (rq : Req)
  | sysReset (rq : Req)
  | configLoad (rq : Req)
  | configCommit (rq : Req)
  | outputsStart (rq : Req)
  | outputsStop (rq : Req)
  | idAttest (rq : Req)
  | permSet (rq : Req)
  | permGet (rq : Req)
  | pwrProfileSet (rq : Req)
  | pwrDomainSet (rq : Req)
  | pwrRetainSet (rq : Req)
  | pwrStatus (rq : Req)
  | pwrRefusalsRead (rq : Req)
  | pwrWakeReport (rq : Req)
  | lineModeSet (rq : Req)
  | lineModeGet (rq : Req)
  | lineRxConfig (rq : Req)
  | lineTxConfig (rq : Req)
  | lineStatus (rq : Req)
  | linePmRead (rq : Req)
  | lineNlcSet (rq : Req)
  | lineMute (rq : Req)
  | trainStart (rq : Req)
  | trainStatus (rq : Req)
  | trainPolicySet (rq : Req)
  | pathCommit (rq : Req)
  | hostLaneConfig (rq : Req)
  | hostTrain (rq : Req)
  | hostStatus (rq : Req)
  | hostPmRead (rq : Req)
  | fecModeSet (rq : Req)
  | fecPoolPolicy (rq : Req)
  | fecStatus (rq : Req)
  | fecPmRead (rq : Req)
  | mapClientAdd (rq : Req)
  | mapClientRemove (rq : Req)
  | mapRegenPair (rq : Req)
  | mapStatus (rq : Req)
  | dialSchedule (rq : Req)
  | dialCancel (rq : Req)
  | dialList (rq : Req)
  | dialConfig (rq : Req)
  | dialTime (rq : Req)
  | calRun (rq : Req)
  | calPolicySet (rq : Req)
  | calTableRead (rq : Req)
  | calTableWrite (rq : Req)
  | calStatus (rq : Req)
  | monConfig (rq : Req)
  | monCoefLoad (rq : Req)
  | monRead (rq : Req)
  | monUrgent (rq : Req)
  | biasLoopSet (rq : Req)
  | jrxConfig (rq : Req)
  | jrxSend (rq : Req)
  | jrxPeers (rq : Req)
  | jrxStatus (rq : Req)
  | faultLogRead (rq : Req)
  | alarmMaskSet (rq : Req)
  | alarmStatus (rq : Req)
  | faultClear (rq : Req)
  | loupeSet (rq : Req)
  | loopbackSet (rq : Req)
  | prbsSet (rq : Req)
  -- host accesses
  | mbxPost (who : HostPort) (n : Fin 8) (w : Word)
  | mbxTake (who : HostPort) (n : Fin 8)
  | mbxCtrlReset (who : HostPort) (n : Fin 8) (w : Word)
  | lpsStatusRead (who : HostPort) (p : LPort)
  | monResLoRead (who : HostPort) (c : Fin 24)
  | counterLowRead (who : HostPort) (addr : BitVec 16) (value : BitVec 64)
  | registerWrite (who : HostPort) (addr : BitVec 16) (w : Word)
  | dlStart (who : HostPort)
  | dlChunk (who : HostPort) (len : BitVec 18)
  | dlLast (who : HostPort) (len : BitVec 18)
  | dlPartCopied
  | ptwiWrite (who : HostPort) (w : Word)
  | ptwiRead (who : HostPort) (w : Word)
  | ptwiWriteRead (who : HostPort) (w : Word)
  | ptwiRecover (who : HostPort) (w : Word)
  | ptwiDone (how : PtwiEnd) (done : BitVec 6) (data : List Byte)
  | ptwiBusBusy
  | ptwiStretchTo (done : BitVec 6)
  | bspiFlashToBulk (who : HostPort) (w : Word)
  | bspiBulkToFlash (who : HostPort) (w : Word)
  | bspiDone (data : List Byte)
  | twiAbort (insideWord : Bool)
  | twiStretchTo
  | twiSdaTo
  | twiDeepNack
  | twiDeepWindowEnd
  | mspiBadCmd
  | mspiFrameAbort
  | mspiDeepIgnore
  | mspiDeepWindowEnd
  | accessWakeComplete (d : Dom)
  -- reset and boot
  | powerOnReset (assert : Bool)
  | resetN (lowNs : Nat) (midActs : Bool)
  | resetRelease (boot : BitVec 2) (addr : BitVec 3)
  | flashSlotReadDone (header : Vector Word 64) (bodyWords : Nat)
  | imageVerifyDone (keyOk sigOk : Bool) (digest : Vector Word 8)
  | bootBlobDone (flash : List Word)
  | sysResetDelayExpiry
  | coreRestartDone (c : Core)
  -- Crown and mailbox events
  | crownPacketTake (c : Chan)
  | crownWordTimeout (c : Chan)
  | crownReplyTimeout (c : Chan)
  | queueSpacePost (c : Chan)
  | hostQueueDrop (n : Fin 8)
  | internalQueueDrop (i : Fin 16)
  -- muting and superframes
  | muteNFall (lowNs : Nat) (midActs : Bool)
  | muteNHighTimer
  | txSuperframeBoundary (p : LPort) (o : TxObs)
  | rxSuperframeBoundary (p : LPort) (o : RxObs)
  | sfohReceive (p : LPort) (o : SfohObs)
  | formatMismatch (p : LPort)
  | sfAlignment (p : LPort)
  | sfAlignLoss (p : LPort)
  | psfnLock (p : LPort)
  | psfnLockLoss (p : LPort)
  | psfnJump (p : LPort)
  | dialStage (idx : Nat) (complete : Bool)
  | dialRelease (ref : RefCode)
  | forwardingStart (m : LPort) (extraNs : Nat)
  -- acquisition and receive DSP
  | lightDetectAssert (p : LPort)
  | lightDetectDeassert (p : LPort)
  | acquisitionStart (p : LPort)
  | acqFrequencyDone (p : LPort) (offsetMHz : Int)
  | acqCdDone (p : LPort) (found : Option Int)
  | acqBlindDone (p : LPort)
  | frameAlignment (p : LPort) (swapped conj : Bool)
  | frameAlignmentLoss (p : LPort)
  | acqTimeout (p : LPort)
  | carrierLockLoss (p : LPort)
  | eqReconverge (p : LPort) (erased : Nat)
  | reconvergeFail (p : LPort) (erased : Nat)
  | eqSpan (p : LPort)
  | eqSpanClear (p : LPort)
  | adcLevelLow (p : LPort) (lane : CLane) (raised : Bool)
  | adcLevelHigh (p : LPort) (lane : CLane) (raised : Bool)
  | synthLock (p : LPort)
  | synthUnlock (p : LPort)
  | synthRange (p : LPort)
  | synthFail (p : LPort)
  | drvEnFall (p : LPort)
  | tDrvExpiry (p : LPort)
  -- Complication and TUNE
  | nlcAlignDone (p : LPort) (member : LPort) (samples : Int)
  | nlcMemberFadeIn (p : LPort) (member : LPort)
  | nlcFadeDone (p : LPort) (transmit : Bool)
  | tuneDwellEnd (p : LPort) (meanSnr : BitVec 16)
  -- decoder pool
  | balanceCycle
  | fecStarved
  | fecStarvedClear
  | codewordDispatch
  | engineComplete (e : Engine) (o : DecodeObs)
  | decodeDeadline (p : LPort) (unsatisfied : Nat)
  | engineThrottle (e : Engine)
  | engineSpeedRestore (e : Engine)
  | watchdog (e : Engine)
  | katRun (e : Engine) (passed : Bool)
  | scrubPass (found : List (BadMem × Nat)) (banks : List (Fin 32 × Nat))
  -- training
  | trainAcquireDone (p : LPort)
  | probeDone (p : LPort)
  | trainPhaseTimeout (p : LPort)
  | retryHoldExpiry (p : LPort)
  | farRestart (p : LPort)
  | commitConfirmCheck (p : LPort)
  | commitPassCheck (p : LPort)
  | commitRetry (p : LPort)
  | verifyDone (p : LPort) (margin : BitVec 16)
  | trackReportTimer (p : LPort)
  | qMarginRefresh (p : LPort)
  | degradeTimer (p : LPort)
  | spanAlarmClear (p : LPort)
  | holdTimeExpiry (p : LPort)
  | holdoverFormatAlternate (p : LPort)
  | autoRetune (p : LPort)
  | pathCommitTimeout (p : LPort)
  -- Joryx
  | jrxRequestPost (j : Fin 4)
  | jrxMbxDrop (j : Fin 4)
  | jrxSendTimeout (dest : BitVec 11) (ch : Fin 4)
  | helloTimer (p : LPort)
  | routeTimer
  | routeChangeSend
  | routeExpiry (node : BitVec 11)
  -- host lanes
  | hostLos (k : HLane)
  | hostLosClear (k : HLane)
  | hostCdr (k : HLane)
  | hostCdrClear (k : HLane)
  | hostAlign (k : HLane) (aligned : Bool)
  | hostTrainingFrame (k : HLane) (frame : TrainReq × TrainAns) (partnerReady : Bool)
  | hostReceiverReady (k : HLane)
  | hostTrainFail (k : HLane)
  | hostTrainRetry (k : HLane)
  | hostFecDeg (k : HLane) (raised : Bool)
  | egressBufferStart (k : HLane)
  | egressSlip (k : HLane)
  | hostWakePattern (k : HLane)
  -- power
  | lightWake (p : LPort)
  | keepAliveKeying (p : LPort)
  | keepAliveDetect (p : LPort)
  | bankCheckDone (failed : BitVec 32)
  | domainWakeComplete (d : Dom)
  | wakeDone
  | powerAnswersReceived
  | noAnswer (who : Party)
  | powerTransitionComplete
  -- monitor converter
  | monSlotEnd (c : Fin 24) (code : BitVec 24) (ovr : Bool)
  | monUrgentDone (code : BitVec 24) (ovr : Bool)
  | refColdEnd
  | biasGraceExpiry (k : Fin 24)
  -- Regulator
  | calTargetUpdate (p : LPort) (readings : Vector Int 4)
  | calRunEnd (p : LPort) (foreground : Bool) (first second : CalVals)
  | calRetry (p : LPort)
  -- faults
  | coreWatchdog (c : Core)
  | flowStall (u : FUnit) (index : BitVec 7)
  | tempCrit (sensor : BitVec 16)
  | supply (channel : BitVec 16)
  | faultHandle
  | faultOverflowTakeup
  | recoveryActionDone (u : FUnit)
  | recoveryQuietExpiry (u : FUnit)
  | alarmDefaultClear (key : AlarmKey) (bit : Fin 32)
  -- test access
  | extest
  | clamp
  | highz
  | extestPulse
  | extestTrain
  | bypass
  | idcode
  | samplePreload (drvEn : BitVec 4) (cells : List Bool)
  | testLogicReset
  | testMbxPost (w : Word)
  | testMbxTake
  | testMbxReset
  -- further events
  | muteNRise
  | sampleClockChangeIntervalEnd (p : LPort)
  | knownAnswerTestDone (e : Engine) (passed : Bool)
  | prbsLock (k : HLane) (locked : Bool)
  | pilotModeEnd (p : LPort) (erased : Nat)
  | registerRead (who : HostPort) (addr : BitVec 16)
deriving DecidableEq, Repr

end Sys2Proof
end

