-- ==== Sys2Proof/Machine/Catalogue.lean ====
section
/-! DEFINITION. The opcode catalogue (R356): executing core, kind, parameter words and scheduling of every
opcode. -/

namespace Sys2Proof.Machine

/-- The core that executes an opcode (R24); PCn is that of the port the command names. -/
inductive CoreKind where
  | sup | pc | hc | jg
deriving DecidableEq, Repr

/-- Scheduling of R356: not at all, PROMPT only, or EXACT too. -/
inductive Sched where
  | no | prompt | exact
deriving DecidableEq, Repr

/-- One row of the catalogue. -/
structure CatRow where
  opcode : Nat
  core   : CoreKind
  write  : Bool
  lo     : Nat
  hi     : Nat
  sched  : Sched
deriving DecidableEq, Repr

/-- Catalogue rows of class 0x00 (R356). -/
def catalogue00 : List CatRow :=
  [
   -- SYS_IDENT
   ⟨0x0001, .sup, false, 0, 0, .prompt⟩,
   -- SYS_STATUS
   ⟨0x0002, .sup, false, 0, 0, .prompt⟩,
   -- SYS_RESET
   ⟨0x0003, .sup, true, 1, 1, .no⟩,
   -- CONFIG_LOAD
   ⟨0x0004, .sup, true, 2, 2, .no⟩,
   -- CONFIG_COMMIT
   ⟨0x0005, .sup, true, 1, 1, .no⟩,
   -- OUTPUTS_START
   ⟨0x0006, .sup, true, 0, 0, .prompt⟩,
   -- OUTPUTS_STOP
   ⟨0x0007, .sup, true, 0, 0, .prompt⟩,
   -- ID_ATTEST
   ⟨0x0008, .sup, false, 5, 5, .no⟩,
   -- PERM_SET
   ⟨0x0009, .sup, true, 2, 2, .prompt⟩,
   -- PERM_GET
   ⟨0x000A, .sup, false, 1, 1, .prompt⟩]

/-- Catalogue rows of class 0x10 (R356). -/
def catalogue10 : List CatRow :=
  [
   -- PWR_PROFILE_SET
   ⟨0x1001, .sup, true, 1, 1, .prompt⟩,
   -- PWR_DOMAIN_SET
   ⟨0x1002, .sup, true, 1, 1, .prompt⟩,
   -- PWR_RETAIN_SET
   ⟨0x1003, .sup, true, 1, 1, .prompt⟩,
   -- PWR_STATUS
   ⟨0x1004, .sup, false, 0, 0, .prompt⟩,
   -- PWR_REFUSALS_READ
   ⟨0x1005, .sup, false, 1, 1, .prompt⟩,
   -- PWR_WAKE_REPORT
   ⟨0x1006, .sup, false, 0, 0, .prompt⟩]

/-- Catalogue rows of class 0x20 (R356). -/
def catalogue20 : List CatRow :=
  [
   -- LINE_MODE_SET
   ⟨0x2001, .pc, true, 1, 1, .prompt⟩,
   -- LINE_MODE_GET
   ⟨0x2002, .pc, false, 1, 1, .prompt⟩,
   -- LINE_RX_CONFIG
   ⟨0x2003, .pc, true, 9, 9, .exact⟩,
   -- LINE_TX_CONFIG
   ⟨0x2004, .pc, true, 8, 8, .exact⟩,
   -- LINE_STATUS
   ⟨0x2005, .pc, false, 1, 1, .prompt⟩,
   -- LINE_PM_READ
   ⟨0x2006, .pc, false, 1, 1, .prompt⟩,
   -- LINE_NLC_SET
   ⟨0x2007, .pc, true, 1, 4, .exact⟩,
   -- LINE_MUTE
   ⟨0x2008, .pc, true, 1, 1, .prompt⟩]

/-- Catalogue rows of class 0x28 (R356). -/
def catalogue28 : List CatRow :=
  [
   -- TRAIN_START
   ⟨0x2801, .pc, true, 1, 1, .prompt⟩,
   -- TRAIN_STATUS
   ⟨0x2802, .pc, false, 1, 1, .prompt⟩,
   -- TRAIN_POLICY_SET
   ⟨0x2803, .pc, true, 5, 5, .prompt⟩,
   -- PATH_COMMIT
   ⟨0x2804, .pc, true, 3, 3, .prompt⟩]

/-- Catalogue rows of class 0x30 (R356). -/
def catalogue30 : List CatRow :=
  [
   -- HOST_LANE_CONFIG
   ⟨0x3001, .hc, true, 4, 4, .prompt⟩,
   -- HOST_TRAIN
   ⟨0x3002, .hc, true, 2, 2, .prompt⟩,
   -- HOST_STATUS
   ⟨0x3003, .hc, false, 1, 1, .prompt⟩,
   -- HOST_PM_READ
   ⟨0x3004, .hc, false, 1, 1, .prompt⟩]

/-- Catalogue rows of class 0x40 (R356). -/
def catalogue40 : List CatRow :=
  [
   -- FEC_MODE_SET
   ⟨0x4001, .sup, true, 1, 1, .prompt⟩,
   -- FEC_POOL_POLICY
   ⟨0x4002, .sup, true, 2, 2, .prompt⟩,
   -- FEC_STATUS
   ⟨0x4003, .sup, false, 1, 1, .prompt⟩,
   -- FEC_PM_READ
   ⟨0x4004, .sup, false, 1, 1, .prompt⟩]

/-- Catalogue rows of class 0x50 (R356). -/
def catalogue50 : List CatRow :=
  [
   -- MAP_CLIENT_ADD
   ⟨0x5001, .hc, true, 1, 1, .exact⟩,
   -- MAP_CLIENT_REMOVE
   ⟨0x5002, .hc, true, 1, 1, .exact⟩,
   -- MAP_REGEN_PAIR
   ⟨0x5003, .hc, true, 2, 2, .exact⟩,
   -- MAP_STATUS
   ⟨0x5004, .hc, false, 1, 1, .prompt⟩]

/-- Catalogue rows of class 0x60 (R356). -/
def catalogue60 : List CatRow :=
  [
   -- DIAL_SCHEDULE
   ⟨0x6001, .sup, true, 5, 14, .no⟩,
   -- DIAL_CANCEL
   ⟨0x6002, .sup, true, 2, 2, .no⟩,
   -- DIAL_LIST
   ⟨0x6003, .sup, false, 2, 2, .no⟩,
   -- DIAL_CONFIG
   ⟨0x6004, .sup, true, 1, 1, .no⟩,
   -- DIAL_TIME
   ⟨0x6005, .sup, false, 1, 1, .no⟩]

/-- Catalogue rows of class 0x70 (R356). -/
def catalogue70 : List CatRow :=
  [
   -- CAL_RUN
   ⟨0x7001, .pc, true, 1, 1, .prompt⟩,
   -- CAL_POLICY_SET
   ⟨0x7002, .pc, true, 3, 3, .prompt⟩,
   -- CAL_TABLE_READ
   ⟨0x7003, .pc, false, 1, 1, .prompt⟩,
   -- CAL_TABLE_WRITE
   ⟨0x7004, .pc, true, 2, 2, .exact⟩,
   -- CAL_STATUS
   ⟨0x7005, .pc, false, 1, 1, .prompt⟩]

/-- Catalogue rows of class 0x80 (R356). -/
def catalogue80 : List CatRow :=
  [
   -- MON_CONFIG
   ⟨0x8001, .sup, true, 4, 4, .prompt⟩,
   -- MON_COEF_LOAD
   ⟨0x8002, .sup, true, 2, 2, .prompt⟩,
   -- MON_READ
   ⟨0x8003, .sup, false, 1, 1, .prompt⟩,
   -- MON_URGENT
   ⟨0x8004, .sup, true, 1, 1, .prompt⟩,
   -- BIAS_LOOP_SET
   ⟨0x8005, .sup, true, 6, 6, .prompt⟩]

/-- Catalogue rows of class 0x90 (R356). -/
def catalogue90 : List CatRow :=
  [
   -- JRX_CONFIG
   ⟨0x9001, .jg, true, 1, 1, .prompt⟩,
   -- JRX_SEND
   ⟨0x9002, .jg, true, 3, 14, .prompt⟩,
   -- JRX_PEERS
   ⟨0x9003, .jg, false, 1, 1, .prompt⟩,
   -- JRX_STATUS
   ⟨0x9004, .jg, false, 1, 1, .prompt⟩]

/-- Catalogue rows of class 0xA0 (R356). -/
def catalogueA0 : List CatRow :=
  [
   -- FAULT_LOG_READ
   ⟨0xA001, .sup, false, 2, 2, .prompt⟩,
   -- ALARM_MASK_SET
   ⟨0xA002, .sup, true, 2, 2, .prompt⟩,
   -- ALARM_STATUS
   ⟨0xA003, .sup, false, 1, 1, .prompt⟩,
   -- FAULT_CLEAR
   ⟨0xA004, .sup, true, 1, 1, .prompt⟩]

/-- Catalogue rows of class 0xF0 (R356). -/
def catalogueF0 : List CatRow :=
  [
   -- LOUPE_SET
   ⟨0xF001, .sup, true, 1, 1, .prompt⟩,
   -- LOOPBACK_SET
   ⟨0xF002, .sup, true, 2, 2, .prompt⟩,
   -- PRBS_SET
   ⟨0xF003, .sup, true, 2, 2, .prompt⟩]

/-- The opcode catalogue (R356). -/
def catalogue : List CatRow :=
  catalogue00 ++ catalogue10 ++ catalogue20 ++ catalogue28 ++ catalogue30 ++ catalogue40 ++ catalogue50 ++ catalogue60 ++ catalogue70 ++ catalogue80 ++ catalogue90 ++ catalogueA0 ++ catalogueF0

/-- The catalogue row of an opcode. -/
def catRow (opcode : Nat) : Option CatRow := catalogue.find? (·.opcode == opcode)

/-- A number of parameter words fits an opcode (step 4 of R341). -/
def wordsFit (opcode n : Nat) : Bool :=
  match catRow opcode with
  | some r => decide (r.lo ≤ n) && decide (n ≤ r.hi)
  | none => false

end Sys2Proof.Machine
end

