-- ==== Sys2Proof/WellFormed.lean ====
section
/-! DEFINITION. Well-formed commands: a Crown command carries as many parameter words as the catalogue
gives its opcode (R356), and the lists an event carries fit the part. -/

namespace Sys2Proof

/-- The opcode and request of a Crown command. -/
def Instr.crown? : Instr → Option (Nat × Req)
  | .sysIdent rq => some (0x0001, rq)
  | .sysStatus rq => some (0x0002, rq)
  | .sysReset rq => some (0x0003, rq)
  | .configLoad rq => some (0x0004, rq)
  | .configCommit rq => some (0x0005, rq)
  | .outputsStart rq => some (0x0006, rq)
  | .outputsStop rq => some (0x0007, rq)
  | .idAttest rq => some (0x0008, rq)
  | .permSet rq => some (0x0009, rq)
  | .permGet rq => some (0x000A, rq)
  | .pwrProfileSet rq => some (0x1001, rq)
  | .pwrDomainSet rq => some (0x1002, rq)
  | .pwrRetainSet rq => some (0x1003, rq)
  | .pwrStatus rq => some (0x1004, rq)
  | .pwrRefusalsRead rq => some (0x1005, rq)
  | .pwrWakeReport rq => some (0x1006, rq)
  | .lineModeSet rq => some (0x2001, rq)
  | .lineModeGet rq => some (0x2002, rq)
  | .lineRxConfig rq => some (0x2003, rq)
  | .lineTxConfig rq => some (0x2004, rq)
  | .lineStatus rq => some (0x2005, rq)
  | .linePmRead rq => some (0x2006, rq)
  | .lineNlcSet rq => some (0x2007, rq)
  | .lineMute rq => some (0x2008, rq)
  | .trainStart rq => some (0x2801, rq)
  | .trainStatus rq => some (0x2802, rq)
  | .trainPolicySet rq => some (0x2803, rq)
  | .pathCommit rq => some (0x2804, rq)
  | .hostLaneConfig rq => some (0x3001, rq)
  | .hostTrain rq => some (0x3002, rq)
  | .hostStatus rq => some (0x3003, rq)
  | .hostPmRead rq => some (0x3004, rq)
  | .fecModeSet rq => some (0x4001, rq)
  | .fecPoolPolicy rq => some (0x4002, rq)
  | .fecStatus rq => some (0x4003, rq)
  | .fecPmRead rq => some (0x4004, rq)
  | .mapClientAdd rq => some (0x5001, rq)
  | .mapClientRemove rq => some (0x5002, rq)
  | .mapRegenPair rq => some (0x5003, rq)
  | .mapStatus rq => some (0x5004, rq)
  | .dialSchedule rq => some (0x6001, rq)
  | .dialCancel rq => some (0x6002, rq)
  | .dialList rq => some (0x6003, rq)
  | .dialConfig rq => some (0x6004, rq)
  | .dialTime rq => some (0x6005, rq)
  | .calRun rq => some (0x7001, rq)
  | .calPolicySet rq => some (0x7002, rq)
  | .calTableRead rq => some (0x7003, rq)
  | .calTableWrite rq => some (0x7004, rq)
  | .calStatus rq => some (0x7005, rq)
  | .monConfig rq => some (0x8001, rq)
  | .monCoefLoad rq => some (0x8002, rq)
  | .monRead rq => some (0x8003, rq)
  | .monUrgent rq => some (0x8004, rq)
  | .biasLoopSet rq => some (0x8005, rq)
  | .jrxConfig rq => some (0x9001, rq)
  | .jrxSend rq => some (0x9002, rq)
  | .jrxPeers rq => some (0x9003, rq)
  | .jrxStatus rq => some (0x9004, rq)
  | .faultLogRead rq => some (0xA001, rq)
  | .alarmMaskSet rq => some (0xA002, rq)
  | .alarmStatus rq => some (0xA003, rq)
  | .faultClear rq => some (0xA004, rq)
  | .loupeSet rq => some (0xF001, rq)
  | .loopbackSet rq => some (0xF002, rq)
  | .prbsSet rq => some (0xF003, rq)
  | _ => none

/-- A command is well formed. -/
def Instr.wf (i : Instr) : Bool :=
  match i.crown? with
  | some (op, rq) => Machine.wordsFit op rq.params.length
  | none =>
    match i with
    | .ptwiDone _ done data => decide (data.length ≤ 32) && decide (done.toNat ≤ 32)
    | .bspiDone data => decide (data.length ≤ 4096)
    | .flashSlotReadDone _ n => decide (n ≤ 327680)
    | .calRunEnd _ _ a b => a.timing.length == 520 && b.timing.length == 520
    | .rxSuperframeBoundary _ o => o.taps.length == 252
    | .forwardingStart _ extraNs => decide (extraNs ≤ 8000)
    | .registerWrite _ a _ => decide (a.toNat < 0x1000) || decide (0x8000 ≤ a.toNat)
    | _ => true

end Sys2Proof
end

