-- ==== Sys2Proof/Decode.lean ====
section
/-! DEFINITION. The decoder over the rows of the command table that have bits. The table gives no row any
bits, so no word spells a command: commands reach the block through the queue alone. -/

namespace Sys2Proof

/-- The command that a word of `nbits` bits spells by the table's bits: none of the rows has any (DESIGN CHOICE,
notes/assumptions 6). -/
def decodeTableWord (_nbits _w : Nat) : Option Instr := none

end Sys2Proof
end

