-- ==== Sys2Proof/Config.lean ====
section
/-! DEFINITION. What one part holds in its fuses and what the manual leaves open: constants without a
body, so that no proof can see their value (DESIGN CHOICE, notes/assumptions 2 and 3). -/

namespace Sys2Proof.Config

/-- The fused 128-bit unique ID (R473). -/
opaque uniqueId : BitVec 128
/-- The fused P-256 public key, X then Y (R473, R365). -/
opaque publicKey : Nat → Word
/-- The factory trim of the converters in the fuses: the working value of calibration item
`item` of port `p` after reset (R322). -/
opaque factoryTrim : Nat → Nat → Int
/-- A fresh free value, applied to the state's counter of free values and an index. -/
opaque freeWord : Nat → Nat → Word
/-- A fresh free natural number, applied to the state's counter of free values. -/
opaque freeNat : Nat → Nat
/-- The tap values that preset `k` of the host training standard loads (R264 names the standard, not
the values): tap index 0 to 5 for c(-4) to c(1). -/
opaque presetTap : Nat → Nat → Int
/-- The step by which one training request moves a tap (R264 leaves it to the standard). -/
opaque tapStep : Nat → Int
/-- LLR_SCALE that a port sets itself, from the sum of its SNRs of X and Y in 0.01 dB (R125 gives no rule). -/
opaque autoScale : Nat → Nat
/-- Tap `t` of phase `n` of the resampler (R105 gives no values). -/
opaque resampleTap : Nat → Nat → Rat
/-- Decision of a bit of a codeword that an engine still ran at the decode deadline (R197). -/
opaque lastDecision : Nat → Nat → Bool
/-- The fixed pipeline difference of two ports in 0.1 ns, the second relative to the first (R141 gives no value). -/
opaque pipelineDiff : Nat → Nat → Int

end Sys2Proof.Config
end

