-- ==== Sys2Proof/Machine/State.lean ====
section
/-! DEFINITION. The state of the VRZ6400, as plain data: every register, queue, buffer, counter, mode
and pin the manual gives the part, the queue of waiting commands, and the state after reset. -/

namespace Sys2Proof.Machine

/-- Why a step stops with a fault. The manual gives every command of the table an effect, so no
meaning of this model raises one; the one constructor is for the interface alone (DESIGN CHOICE,
notes/assumptions 9). -/
inductive Fault where
  /-- Never raised: the manual names no condition that stops the block (safe). -/
  | stopped
deriving DecidableEq, Repr

/-- Why a step is refused. -/
inductive Refusal where
  /-- Raised by an arm of exec whose command has no meaning yet (safe: no claim about it holds). -/
  | notModelled (mnemonic : String)
deriving DecidableEq, Repr

/-! ### Power (15) -/

/-- A domain state of R406; the code is the order. -/
inductive PState where
  | on | idle | nap | off
deriving DecidableEq, Repr

/-- A profile of R408. -/
inductive Profile where
  | run | standby | dark | deep
deriving DecidableEq, Repr

/-- One entry of the refusal log (R415, R432). -/
structure RefusalEntry where
  refuser : BitVec 8
  reason  : BitVec 8
  abort   : Bool
  target  : BitVec 2
  domains : BitVec 19
  uptime  : Word
deriving DecidableEq, Repr

/-- A power request or transition in progress (R410, R414, R419). -/
structure Trans where
  /-- the command to answer; none for a wake started by a wake source -/
  rq       : Option Req
  /-- true until the answers are in -/
  asking   : Bool
  /-- every domain the request changes, with its state before and its target -/
  moves    : List (Dom × PState × PState)
  /-- domains of `moves` that have reached their target -/
  reached  : List Dom
  /-- profile that the transition reaches when it completes -/
  profile  : Option Profile
  /-- the transition is a profile wake (R419) -/
  isWake   : Bool
  /-- the bank checks of a wake are done -/
  checked  : Bool
  startUsec : Nat
deriving DecidableEq, Repr

/-- The report of the last profile wake (R433). -/
structure WakeReport where
  source  : BitVec 4 := 0
  arg     : BitVec 6 := 0
  fromP   : Profile := .run
  also    : BitVec 7 := 0
  lost    : Word := 0
  cause   : Vector (BitVec 2) 32 := Vector.replicate 32 0
  latency : Word := 0
  configLost : Bool := false
  fwReloaded : Bool := false
  uptime  : Word := 0
  startUsec : Nat := 0
deriving DecidableEq, Repr

/-- The power manager (R406 to R435). -/
structure Power where
  ctl : PState := .on
  mon : PState := .on
  map : PState := .on
  cv  : Vector PState 4 := Vector.replicate 4 .on
  ld  : Vector PState 4 := Vector.replicate 4 .on
  fq  : Vector PState 4 := Vector.replicate 4 .on
  ho  : Vector PState 4 := Vector.replicate 4 .on
  profile   : Profile := .run
  wakeTo    : Profile := .run
  wakeLight : BitVec 4 := 0
  wakeJrx   : BitVec 4 := 0
  retain    : Word := 0x0003FFFF
  lost      : Word := 0
  wakeSeq   : BitVec 16 := 0
  /-- bank k holds its content (a bank of a domain in ON or IDLE, or kept across NAP) -/
  kept      : Word := 0xFFFFFFFF
  /-- why bank k lost its content: 1 not retained, 2 domain OFF, 3 signature failed -/
  cause     : Vector (BitVec 2) 32 := Vector.replicate 32 0
  counters  : Vector Word 10 := Vector.replicate 10 0
  log       : List RefusalEntry := []
  trans     : Option Trans := none
  report    : WakeReport := {}
  /-- wake sources held until a running entry completes (R412): code and argument -/
  heldWakes : List (BitVec 4 × BitVec 6) := []
  /-- lost-bank mute of R424 by BANK08+n and by BANK12+n -/
  muteLd    : BitVec 4 := 0
  muteCv    : BitVec 4 := 0
  /-- domains waking by an access (R421) -/
  accessWakes : List Dom := []
  /-- light detector has deasserted since the profile was entered (R417) -/
  lightArmed : BitVec 4 := 0
deriving DecidableEq, Repr

/-! ### Mailboxes (13) -/

/-- A word in a queue; the first word of a message carries its stamp (R370, R385). -/
structure QWord where
  w       : Word
  start   : Bool
  stamp   : Stamp
  /-- class and generation of the command that the message answers; none for an event -/
  reqOf   : Option (BitVec 3 × BitVec 4)
  hwAbort : Bool
  /-- the message became stale when its sender restarted (R379) -/
  stale   : Bool
  /-- when the word entered an inbound queue, counted in words and requests taken (R344) -/
  arrived : Nat := 0
deriving DecidableEq, Repr

/-- A message waiting, in whole or in part, for space in a return queue (R375). -/
structure OutMsg where
  rest      : List QWord
  /-- words of this message already in the queue -/
  posted    : Nat
  /-- the reply ends the command in progress on its channel (R343) -/
  endsCmd   : Bool
  /-- a Dial completion (R308) -/
  isDial    : Bool
deriving DecidableEq, Repr

/-- One of M0 to M7 (R367, R383). -/
structure MChan where
  inQ     : List QWord := []
  /-- class of the message being posted and how many of its words are still to come (R368, R374) -/
  inPart  : Option (BitVec 3 × Nat) := none
  outQ    : List QWord := []
  outWait : List OutMsg := []
  underrun : Bool := false
  overrun  : Bool := false
  conflict : Bool := false
  drop     : Bool := false
  genTwi  : BitVec 4 := 0
  genMspi : BitVec 4 := 0
  genTest : BitVec 4 := 0
  /-- MBX.STAMP_n as latched by each front end (R385, R389): TWI, MSPI, test -/
  stampTwi  : Word := 0
  stampMspi : Word := 0
  stampTest : Word := 0
  /-- a command of the channel is in progress (R343) -/
  busy    : Bool := false
deriving DecidableEq, Repr

/-- One of the Joryx channels J0 to J3 (R367): its inbound packets and the command in progress. -/
structure JChan where
  inQ    : List QWord := []
  /-- requests that wait for space (R70): the port on which each came in, its source and its words -/
  waitQ  : List (LPort × BitVec 11 × List Word) := []
  busy   : Bool := false
deriving DecidableEq, Repr

/-- A command forwarded on an internal channel, or an internal message (R26, R378). -/
structure IcMsg where
  opcode : BitVec 16
  rq     : Req
  words  : Nat
deriving DecidableEq, Repr

/-- One of the internal channels IC00 to IC15 (R26): request queue, requests waiting for space,
return queue. -/
structure IcChan where
  req     : List IcMsg := []
  reqWait : List IcMsg := []
  ret     : List QWord := []
  retWait : List OutMsg := []
deriving DecidableEq, Repr

/-- A command that SUP forwarded to a core and has not seen answered (R378). -/
structure Forward where
  core   : Core
  opcode : BitVec 16
  rq     : Req
  taken  : Bool
deriving DecidableEq, Repr

/-- The MBX block (R381 to R383) and the internal channels. -/
structure Mbx where
  m        : Vector MChan 8 := Vector.replicate 8 {}
  j        : Vector JChan 4 := Vector.replicate 4 {}
  ic       : Vector IcChan 16 := Vector.replicate 16 {}
  dbHost   : Word := 0
  dbMask   : Word := 0x0000FF00
  outDrop  : Word := 0
  cntAbort : Word := 0
  cntStale : Word := 0
  cntPartial : Word := 0
  /-- generations of SUP, PC0 to PC3, HC, JG (R371) -/
  coreGen  : Vector (BitVec 4) 7 := Vector.replicate 7 0
  /-- generation and last SEQ of each remote node heard (R371) -/
  nodeGen  : List (BitVec 11 × BitVec 4 × BitVec 16) := []
  forwards : List Forward := []
  /-- channel-aborted doorbell bits of each core, one per inbound channel, and the masks of its 32 bits (R381) -/
  coreAborted : Vector (BitVec 16) 7 := Vector.replicate 7 0
  coreMask : Vector Word 7 := Vector.replicate 7 0
  /-- words and Joryx requests that have entered inbound queues since reset (R344) -/
  arrivals : Nat := 0
deriving DecidableEq, Repr

/-! ### Crown and configuration (12, 18) -/

/-- A configuration blob (R488), with the channel that loaded it. -/
structure Blob where
  configId : Word
  packets  : List (List Word)
  channel  : BitVec 4
deriving DecidableEq, Repr

/-- The Crown counters of SYS_STATUS (R359). -/
structure CrownCnt where
  rx : Word := 0
  badLength : Word := 0
  badCrc : Word := 0
  badOpcode : Word := 0
  notPermitted : Word := 0
  replyDrop : Word := 0
  timeout : Word := 0
deriving DecidableEq, Repr

/-- The permission masks of R352: channels M0 to M7 for classes 0 and 1, M7 for class 4, J0 to J3 for
class 2. M4 and M5 have none. -/
structure Perms where
  twi  : Vector Word 8
  mspi : Vector Word 8
  test : Word
  jrx  : Vector Word 4
deriving DecidableEq, Repr

/-- Device states of R491. -/
inductive DevState where
  | boot | hold | ready | active | degraded | fault
deriving DecidableEq, Repr

/-- A blob's execution (R362, R490): its packets, how many were begun and how many have ended well, the failing
status and index, its identifier, the CONFIG_COMMIT to answer, and whether it is the blob of a boot. -/
structure BlobRun where
  packets : List (List Word)
  begun  : Nat := 0
  index  : Nat := 0
  failed : Option (BitVec 8 × Nat) := none
  configId : Word
  rq     : Option Req := none
  boot   : Bool := false
deriving DecidableEq, Repr

/-- The boundary whose snapshot a report takes (R13): that of a port, a transmit boundary of a port (R179), or that of a
device-wide report. -/
inductive ReportAt where
  | port (p : LPort) | tx (p : LPort) | device
deriving DecidableEq, Repr

/-- A report that its core has begun and that waits for its boundary (R349). -/
structure ReportWait where
  at_    : ReportAt
  opcode : Nat
  rq     : Req
deriving DecidableEq, Repr

/-- The system block: device state, boot ROM, configuration, bulk page (12, 18). -/
structure Sys where
  /-- the part is held in reset (R480) -/
  inReset  : Bool := false
  porActive : Bool := false
  dev      : DevState := .boot
  started  : Bool := false
  holdReason : BitVec 4 := 0
  bootSrc  : BitVec 2 := 0
  addr     : BitVec 3 := 0
  phase    : BitVec 3 := 0
  err      : BitVec 3 := 0
  slot     : BitVec 2 := 0
  dlReady  : Bool := false
  fallbackDl : Bool := false
  dlReject : Bool := false
  /-- header and body words of the image being read or downloaded, and how many words arrived -/
  image    : List Word := []
  imageLen : Nat := 0
  /-- part being copied by the ROM: its length and whether it is the last (R487) -/
  copying  : Option (Nat × Bool) := none
  fwVer    : Word := 0
  digest   : Vector Word 8 := Vector.replicate 8 0
  bulkPage : BitVec 4 := 0
  configId : Word := 0
  pending  : Option Blob := none
  blobRun  : Option BlobRun := none
  cnt      : CrownCnt := {}
  perms    : Perms
  /-- a SYS_RESET DEVICE reply has been posted; the reset follows (R360) -/
  resetDue : Bool := false
  /-- cores restarting, with the command to answer (R360) -/
  restarts : List (Core × Option Req) := []
  /-- reports that wait for their boundary (R349) -/
  reports  : List ReportWait := []
  /-- microseconds since reset (R467) -/
  usec     : Nat := 0
  /-- SUP runs its firmware -/
  supRuns  : Bool := false
  /-- a wake reloads the firmware: the state to which the device returns (R491) -/
  resume   : Option DevState := none
  /-- that wake also lost BANK06 (R424) -/
  configLost : Bool := false
deriving DecidableEq, Repr

/-! ### Management ports (14) -/

/-- A host access waiting for a domain (R390, R393): the domain, the address and the word to write. -/
structure Stall where
  dom  : Dom
  addr : BitVec 16
  w    : Option Word
deriving DecidableEq, Repr

/-- One front end: its pointer, the shadows its reads latched, the word it last answered (R386 to
R390). -/
structure FrontEnd where
  ptr     : BitVec 16 := 0
  /-- upper halves latched by lower-half reads, by the address they are read at (R11) -/
  shadows : List (BitVec 16 × Word) := []
  /-- MON.RES_HI of the channels as latched (R445) -/
  monHi   : Vector Word 24 := Vector.replicate 24 0
  /-- the latch has not met a newer result yet -/
  monFresh : Vector Bool 24 := Vector.replicate 24 false
  /-- LPS registers of the ports as copied (R131, R389) -/
  lps     : Vector (Vector Word 16) 4 := Vector.replicate 4 (Vector.replicate 16 0)
  /-- the word that the last read answered -/
  rdata   : Word := 0
  /-- the last access was carried out (acknowledged, no miss) -/
  done    : Bool := true
  stall   : Option Stall := none
  /-- DEEP: the port only listens (R394, R400) -/
  listening : Bool := false
  /-- the 1 ms window after the waking access runs -/
  window  : Bool := false
deriving DecidableEq, Repr

/-- The TWI block (R401 to R405). -/
structure Twi where
  twi  : FrontEnd := {}
  mspi : FrontEnd := {}
  test : FrontEnd := {}
  twiEvents  : BitVec 5 := 0
  twiAbort   : Word := 0
  twiTimeout : Word := 0
  twiNack    : Word := 0
  mspiEvents : BitVec 4 := 0
  mspiAbort  : Word := 0
  mspiMiss   : Word := 0
  lastMiss   : Bool := false
  lastAbort  : Bool := false
  ptwiCfg    : Word := 0
  ptwiStatus : Word := 0
  ptwiData   : Vector Word 8 := Vector.replicate 8 0
  /-- the PTWI.CMD word being carried out -/
  ptwiCmd    : Option Word := none
  bspiCfg    : Word := 0x40000000
  bspiAddr   : Word := 0
  bspiBulk   : Word := 0
  bspiStatus : Word := 0
  /-- the BSPI.CMD word being carried out, and whether it still waits for CTL -/
  bspiCmd    : Option (Word × Bool) := none
  /-- bytes last sent to the flash -/
  bspiSent   : List Byte := []
deriving DecidableEq, Repr

/-! ### Line port: front end and receive DSP (03, 04) -/

/-- Port states of R217; the codes are those of R131. -/
inductive PortState where
  | down | acquire | train | traffic | holdover | muted
deriving DecidableEq, Repr

/-- The front end of one port (R72 to R103). -/
structure Front where
  locked    : Bool := true
  /-- a lock attempt runs (R85) -/
  attempt   : Bool := false
  /-- the interval of a commanded sample-clock change runs (R84) -/
  changing  : Bool := false
  /-- sample clock in use, coded as SCLK of R127 -/
  sclk      : BitVec 12 := 560
  /-- a commanded sample clock that takes effect at the next boundary (R84) -/
  nextSclk  : Option (BitVec 12) := none
  /-- holdover of R30, and when its slew last moved the steering (µs) -/
  holdover  : Bool := false
  slewAt    : Nat := 0
  /-- steering, signed, 0.1 ppm (R83) -/
  steer     : BitVec 16 := 0
  light     : Bool := false
  /-- LINE_MUTE source and its driver-off request (R175) -/
  lmute     : Bool := false
  ldrvOff   : Bool := false
  drvEn     : Bool := false
  /-- a condition of R94 failed: DRV_EN_n is about to fall (R95) -/
  drvFalling : Bool := false
  /-- t_DRV runs: its length in 10 µs and when it started -/
  tDrv      : Option (Nat × Nat) := none
  /-- the DAC lanes are muted -/
  muted     : Bool := true
  /-- mute of a fault's safe action, and its DRV_EN_n low (R460) -/
  faultMute : Bool := false
  faultDrv  : Bool := false
  /-- keep-alive keying runs: when it began, and whether it mutes now (R418) -/
  keyStart  : Option Nat := none
  keying    : Bool := false
  /-- rms level of each ADC lane, signed 0.1 dB (R77) -/
  level     : Vector (BitVec 16) 4 := Vector.replicate 4 0
  /-- lanes beyond each threshold (R77) -/
  lowLanes  : BitVec 4 := 0
  highLanes : BitVec 4 := 0
  adcClip   : Vector (BitVec 64) 4 := Vector.replicate 4 0
  synthUnlock : Word := 0
deriving DecidableEq, Repr

/-- Equaliser adaptation modes of R115. -/
inductive EqMode where
  | off | blind | pilot | tracking
deriving DecidableEq, Repr

/-- The receive estimates of R130 as last refreshed. -/
structure Estimates where
  /-- SNRs of the last superframe, for Balance and stage 9 -/
  sfX  : BitVec 16 := 0
  sfY  : BitVec 16 := 0
  snrX : BitVec 16 := 0
  snrY : BitVec 16 := 0
  snrNli : BitVec 16 := 0
  cd   : BitVec 32 := 0
  dgd  : BitVec 16 := 0
  pdl  : BitVec 8 := 0
  sop  : BitVec 16 := 0
  fo   : BitVec 16 := 0
  clk  : BitVec 16 := 0
  preBer : Word := 0
  berBound : Bool := false
deriving DecidableEq, Repr

/-- The sums from which the averaged estimates of R130 come: those over 256 superframes, that of SNR_NLI over 4,096, and
the FEC counters at the start of the 1,024 superframes of the pre-FEC BER. -/
structure RxAcc where
  n    : Nat := 0
  snrX : Int := 0
  snrY : Int := 0
  cd   : Int := 0
  dgd  : Int := 0
  pdl  : Int := 0
  sop  : Int := 0
  fo   : Int := 0
  clk  : Int := 0
  nliN : Nat := 0
  nli  : Int := 0
  berN : Nat := 0
  coded  : BitVec 64 := 0
  corr   : BitVec 64 := 0
  uncorr : BitVec 64 := 0
deriving DecidableEq, Repr

/-- The receive DSP of one port (R104 to R135). -/
structure Rx where
  /-- words 1 to 8 of LINE_RX_CONFIG in force (R127) -/
  cfg     : Vector Word 8
  /-- words stored for the next acquisition (R128) -/
  next    : Vector (Option Word) 8 := Vector.replicate 8 none
  /-- ACQ_STEP (R131) -/
  step    : BitVec 3 := 0
  /-- an acquisition attempt runs -/
  running : Bool := false
  /-- the attempt stopped at the frequency step with FO_RANGE and repeats after ACQ_TIMEOUT (R112) -/
  foStop  : Bool := false
  /-- the next attempt is the first after a loss: HINT around the last CD and offset (R124) -/
  hint    : Bool := false
  /-- a CD has been tracked (R111); the last one, and the last offset (R124) -/
  tracked : Bool := false
  lastCd  : Int := 0
  lastFo  : Int := 0
  /-- k of R107 -/
  overlap : BitVec 4 := 0
  /-- roll-off in hundredths with which the overlap was chosen (R107) -/
  beta    : Nat := 10
  /-- CD that stage 4 compensates, ps/nm -/
  cdSet   : Int := 0
  /-- carrier offset removed by the rotator, MHz -/
  rotator : Int := 0
  frameAligned : Bool := false
  swapped : Bool := false
  conj    : Bool := false
  eq      : EqMode := .off
  /-- reconvergence of R118 runs: the demapper passes erasures -/
  erasing : Bool := false
  est     : Estimates := {}
  acc     : RxAcc := {}
  /-- the equaliser taps: 63 of XX, XY, YX and YY (R114, R132), and those of the last 16 healthy superframes, newest
  first (R118) -/
  taps    : List Word := []
  tapHist : List (List Word) := []
  /-- DGD of the last superframe, in 0.1 ps, and superframes in a row below the span (R117) -/
  dgdNow  : BitVec 16 := 0
  dgdRun  : Nat := 0
  snapSeq : BitVec 16 := 0
  /-- the port's internal snapshot, LPS offsets 0x00 to 0x0F (R131) -/
  snap    : Vector Word 16 := Vector.replicate 16 0
  acqStart : Word := 0
  acqFail  : Word := 0
  los      : Word := 0
  eqReconverge : Word := 0
  eqErased : BitVec 64 := 0
  phaseSlip : Word := 0
  foRangeEvt : Word := 0
  cdCoverEvt : Word := 0
deriving DecidableEq, Repr

/-! ### Superframes and counts (02) -/

/-- A decoded superframe: the label of its flywheel (R57), the words of its SFOH when that was good, and its payload. -/
structure Arrived where
  label   : Psfn
  words   : Option (Vector Word 64)
  payload : Payload
deriving DecidableEq, Repr

/-- Alignment, PSFN lock and counts of one port (R43 to R60). -/
structure Sf where
  aligned  : Bool := false
  lock     : Bool := false
  /-- the flywheel: the label of the present received superframe (R57) -/
  fly      : Psfn := 0
  /-- consecutive good SFOHs rising by one, and the last of them (R58) -/
  goodRun  : Nat := 0
  lastGood : Psfn := 0
  /-- how many superframes ago the last good SFOH's superframe began -/
  lastLag  : Nat := 0
  /-- consecutive superframes without a good SFOH (R58) -/
  badRun   : Nat := 0
  /-- consecutive good SFOHs that differ from their labels but rise by one (R59) -/
  misRun   : Nat := 0
  misLast  : Psfn := 0
  /-- superframes between the last mismatching SFOH's superframe and the present one -/
  misLag   : Nat := 0
  /-- consecutive format mismatches (R51) -/
  fmtRun   : Nat := 0
  fmtMismatch : Bool := false
  /-- the last announcement disagreed with the scheduled receive change (R51) -/
  commitMismatch : Bool := false
  /-- the last 64 decoded superframes, newest first -/
  recent   : List Arrived := []
  /-- the framer has sent a superframe since reset or a return from NAP or OFF (R52) -/
  framing  : Bool := false
  /-- the local count (R52) and the transmitted count (R53, R54) -/
  local_   : Psfn := 0
  tx       : Psfn := 0
  /-- forwarding with this K_REGEN (R54, R55); none when not forwarding -/
  kRegen   : Option (BitVec 8) := none
  /-- forwarding has started since the pair took its role (R245) -/
  everFwd  : Bool := false
  /-- the superframe just sent was a maintenance superframe (R247) -/
  maint    : Bool := false
  /-- held counts of RX and TX while invalid (R293) -/
  heldRx   : Option Psfn := none
  heldTx   : Option Psfn := none
  /-- TX became valid again after NAP or OFF: its first value restarts at 0 (R293) -/
  txRestart : Bool := false
  /-- words of the SFOH just sent (R44) -/
  sent     : Vector Word 64 := Vector.replicate 64 0
  /-- payload and BIPs of the superframe that ended last (R47, R279) -/
  sentPay  : Payload := Vector.replicate 16 []
  sentSpanBip : Word := 0
  sentPathBip : Word := 0
  /-- XOR of the payload words that grooming replaced in it (R48) -/
  pathFix  : Word := 0
  /-- what the superframe being sent carries in the slots without a client of this device, and the XOR of the received
  payload words that are not in it (R48, R246, R247) -/
  pay      : Payload := Vector.replicate 16 []
  payFix   : Word := 0
  /-- BIPs computed over the last received superframe, and whether it carried PMAINT -/
  rxBips   : Option (Word × Word) := none
  rxPmaint : Bool := false
  /-- error indications to send (R47) -/
  spanRei  : BitVec 6 := 0
  pathRei  : BitVec 6 := 0
  /-- last good received path fields: path word, SLOT_EQ word, SLOT_TYPE, SLOT_LEAD (R247, R271) -/
  pathWord : Word := 0
  eqWord   : Word := 0
  types    : Vector Word 2 := Vector.replicate 2 0
  leads    : Vector Word 2 := Vector.replicate 2 0
  ledger   : Vector Word 16 := Vector.replicate 16 0
  farSrdi  : Bool := false
  /-- FMT_ACTIVE of the last good SFOH (R238) -/
  lastFmt  : Word := 0
  alignLoss : Word := 0
  sfohBad  : Word := 0
  psfnMismatch : Word := 0
  psfnJump : Word := 0
  formatMismatch : Word := 0
  spanBipErr : BitVec 64 := 0
  pathBipErr : BitVec 64 := 0
deriving DecidableEq, Repr

/-! ### Complication (05) -/

/-- A coefficient set: its words as laid out in R145. -/
structure CoefSet where
  words : List Word
deriving DecidableEq, Repr

/-- What one side of a port applies (R146, R148): set, scale g and share α in 1/64. -/
structure NlcUse where
  on    : Bool := false
  set   : BitVec 3 := 0
  g     : BitVec 8 := 64
  share : BitVec 8 := 32
deriving DecidableEq, Repr

/-- A member of a group as port n sees it (R141, R142). -/
structure NlcMember where
  aligned  : Bool := false
  /-- the correlation's refinement in samples, and the total delay in 0.1 ns (R141) -/
  refine   : Int := 0
  delay    : Int := 0
  /-- consecutive superframes for which the member has tracked -/
  tracked  : Nat := 0
  active   : Bool := false
  /-- fade-in of the member's terms: superframes done (R146) -/
  fade     : Option Nat := none
deriving DecidableEq, Repr

/-- Complication of one port (R136 to R158). -/
structure Nlc where
  group   : BitVec 2 := 0
  cf      : BitVec 12 := 0
  slotM   : BitVec 8 := 1
  rxSets  : Vector (Option CoefSet) 8 := Vector.replicate 8 none
  txSets  : Vector (Option CoefSet) 8 := Vector.replicate 8 none
  rx      : NlcUse := {}
  tx      : NlcUse := {}
  /-- the transmit side as last selected with LINE_NLC_SET, which TUNE searches (R235) -/
  txSel   : BitVec 3 := 0
  txSelOn : Bool := false
  /-- PEER_CHECK as last declared for the group by any member (R152) -/
  peerCheck : Bool := true
  /-- a running fade: what it leaves and the superframes done (R146) -/
  rxFade  : Option (NlcUse × Nat) := none
  txFade  : Option (NlcUse × Nat) := none
  /-- switches that take effect at the next boundary -/
  rxNext  : Option NlcUse := none
  txNext  : Option NlcUse := none
  members : Vector NlcMember 4 := Vector.replicate 4 {}
  /-- ports whose cross terms the pre-distortion uses (R143) -/
  txMask  : BitVec 4 := 0
  gTrained : BitVec 8 := 0
  aTrained : BitVec 8 := 0
  tuneGain : BitVec 16 := 0
  gainRx  : BitVec 16 := 0
  /-- the gains of the present 256 superframes and their sum (R157) -/
  gainN   : Nat := 0
  gainSum : Int := 0
  drop    : Word := 0
  switches : Word := 0
  fadeCut : Word := 0
deriving DecidableEq, Repr

/-! ### Transmit DSP (06) -/

/-- The transmit DSP of one port (R159 to R180). -/
structure Tx where
  /-- words 1 to 7 of LINE_TX_CONFIG in force (R176) -/
  cfg     : Vector Word 7
  /-- words 1, 3, 4, 5 that wait for the next TX boundary (R178) -/
  next    : Vector (Option Word) 7 := Vector.replicate 7 none
  /-- 60 linearisation coefficients and 132 pre-emphasis taps (R170, R171, R177) -/
  lin     : List (BitVec 16)
  pre     : List (BitVec 16)
  /-- host skew applied to each lane, in 25 fs, while it ramps (R173) -/
  skew    : Vector Int 4 := Vector.replicate 4 0
  /-- total applied skew of each lane (R173) -/
  applied : Vector Int 4 := Vector.replicate 4 0
  skewClamp : Word := 0
  rms     : Vector Byte 4 := Vector.replicate 4 0
  /-- digital gain, signed, 0.01 dB (R172) -/
  gain    : Vector Int 4 := Vector.replicate 4 0
  dacClip : Vector (BitVec 64) 4 := Vector.replicate 4 0
deriving DecidableEq, Repr

/-! ### Span training and formats (08) -/

/-- Training phases of R220. -/
inductive Phase where
  | none | acquire | capability | probe | select | tune | commit | track
deriving DecidableEq, Repr

/-- A training message: type and body words (R223, R224). -/
structure TMsg where
  type : BitVec 4
  body : List Word
deriving DecidableEq, Repr

/-- A commit of one direction (R230, R231). -/
structure Commit where
  n     : Psfn
  desc  : Word
  g     : BitVec 8
  a     : BitVec 8
  kind  : BitVec 2
  /-- the switch has been scheduled in the Dial -/
  scheduled : Bool := false
  /-- good SFOHs that announced exactly this change in the window, and the last one (R231) -/
  seen  : Nat := 0
  lastSeen : Bool := false
  /-- the switch has taken effect -/
  switched : Bool := false
  /-- a good SFOH after the switch named another format (R231) -/
  failed : Bool := false
deriving DecidableEq, Repr

/-- A TUNE search in progress (R150, R235). -/
structure Tune where
  set    : BitVec 3
  start  : Psfn
  /-- candidates of the present plan, (g, α) in 1/64 -/
  cands  : List (BitVec 8 × BitVec 8)
  /-- mean SNRs measured or reported so far -/
  snrs   : List (BitVec 16)
  /-- the best value and its SNR so far (transmitting end), and the SNR with both sides off -/
  best   : BitVec 8 × BitVec 8 × BitVec 16
  snr0   : BitVec 16
  /-- 0: first plan, 1: second plan, 2: ended -/
  stage  : Nat
  /-- the receiving end has acknowledged the plan -/
  acked  : Bool
  /-- candidate now applied -/
  index  : Nat
deriving DecidableEq, Repr

/-- A pending path-wide rate change at one device (R241 to R243). -/
structure RateChange where
  rate   : BitVec 10
  nFwd   : Psfn
  nRev   : Psfn
  origin : BitVec 11
  /-- port on which PATH arrived; none at terminal A -/
  from_  : Option LPort
  /-- the PATH_COMMIT to answer (R258) -/
  rq     : Option Req
  /-- number of switches of this change not yet taken -/
  left   : Nat
  /-- PATH OP CANCEL has been sent and its answer is awaited -/
  cancel : Bool := false
deriving DecidableEq, Repr

/-- Training of one port (R217 to R258). -/
structure Train where
  state   : PortState := .down
  enable  : Bool := false
  /-- RATE of LINE_MODE_SET (R252) -/
  rate    : BitVec 10 := 760
  phase   : Phase := .none
  lastFail : BitVec 4 := 0
  fails   : Nat := 0
  /-- RETRY_HOLD runs (R221) -/
  retryHold : Bool := false
  /-- ACQUIRE waits for a foreground calibration run (R319) -/
  waitCal : Bool := false
  /-- training policy words 0 to 4 (R256), and the words that the last CAP or choice put in force -/
  policy  : Vector Word 5
  polUse  : Vector Word 5
  /-- working formats (R516) and the format each direction carries now -/
  txFmt   : Word := 0xBE104000
  rxFmt   : Word := 0xBE104000
  txNow   : Word := 0xBE2F0000
  rxNow   : Word := 0xBE2F0000
  /-- announced change (R50) -/
  announce : Option (Word × Psfn) := none
  /-- message queue, SEQ of its head, acceptance of the far end's messages (R224) -/
  queue   : List TMsg := []
  seq     : BitVec 4 := 0
  farSeq  : Option (BitVec 4) := none
  /-- the head message has been sent at least once -/
  sentHead : Bool := false
  capAcked : Bool := false
  probeAcked : Bool := false
  /-- RX_SETS of the last CAP sent (R224) -/
  capSets : Byte := 0
  /-- far CAP words w0 to w2 of the present exchange, and the last ROLLOFF announced (R107) -/
  farCap  : Option (Word × Word × Word) := none
  farRoll : Option (BitVec 4) := none
  /-- when the first CAP was sent (µs) and the round trip in 0.1 ms (R225) -/
  capSent : Option Nat := none
  rtt     : BitVec 16 := 0
  farProbe : Bool := false
  probed  : Bool := false
  /-- SNR_X + SNR_Y of the own PROBE_REPORT, in 0.01 dB (R227) -/
  probeSnr : Nat := 0
  /-- commits pending on the transmitted and the received direction -/
  txCommit : Option Commit := none
  rxCommit : Option Commit := none
  /-- a proposal waits 100 ms after NAK BUSY or STATE (R231) -/
  retryCommit : Option Commit := none
  /-- a far choice that waits for the pending commit (R230) -/
  waitChoice : Option (Word × BitVec 2) := none
  tuneTx  : Option Tune := none
  tuneRx  : Option Tune := none
  tuneTxDone : Bool := false
  tuneRxDone : Bool := false
  fmtTxDone : Bool := false
  fmtRxDone : Bool := false
  finTxDone : Bool := false
  finRxDone : Bool := false
  /-- superframes sent since the transmitter's format commit of SELECT switched (R220) -/
  fmtAge  : Nat := 0
  /-- the far end has shown that it skips TUNE on the received direction (R220, R235) -/
  rxSkipped : Bool := false
  /-- snr of the next FINAL choice in 0.005 dB: the best TUNE value of the received direction, lowered by
  failed verifications (R227, R236); none for the 256-superframe SNR -/
  finalSnr : Option Int := none
  /-- RETUNE in TRAFFIC runs on the transmitted direction (R255) -/
  retune  : Bool := false
  /-- RETUNE waits for the end of the pending transmit commit (R230, R255) -/
  retuneDue : Bool := false
  verifyRuns : Nat := 0
  verified : Bool := false
  farVerified : Bool := false
  qMargin : BitVec 16 := 0
  farQMargin : BitVec 16 := 0
  farReqSlots : BitVec 5 := 0
  strainRun : Nat := 0
  srdiRun : Nat := 0
  srdiZero : Nat := 0
  sawStrain0 : Bool := false
deriving DecidableEq, Repr

/-- The rest of a port's training state: what it remembers of switches, its traces and counters. -/
structure Train2 where
  /-- the receive format before the last switch, and the count at that switch (R233) -/
  prevFmt : Word := 0xBE104000
  switchAt : Option Psfn := none
  /-- the count at the last receive switch that was cancelled under the N − 512 rule, and its announced format (R233) -/
  cancelAt : Option Psfn := none
  cancelFmt : Word := 0xBE104000
  /-- HOLDOVER alternates between two receive formats (R233): the two and which is tried -/
  alternate : Option (Word × Word × Bool) := none
  /-- the alternation began with a switch cancelled under the N − 512 rule -/
  altCancelled : Bool := false
  /-- the path-wide rate change that this port's PATH_COMMIT or a received PATH began (R241) -/
  rate_ : Option RateChange := none
  lightAt : Option Nat := none
  trainTime : Word := 0
  trainFail : Word := 0
  commitLate : Byte := 0
  commitUnconf : Byte := 0
  commitAbort : Byte := 0
  commitRevert : Byte := 0
  holdoverEvt : Word := 0
  /-- traces: sent span, expected span, sent path, expected path (R250, R252) -/
  sentSpan : List Byte := List.replicate 64 0
  expSpan  : List Byte := List.replicate 64 0
  sentPath : List Byte := List.replicate 64 0
  expPath  : List Byte := List.replicate 64 0
  /-- sent traces that start at the next PSFN mod 64 = 0 -/
  nextSpan : Option (List Byte) := none
  nextPath : Option (List Byte) := none
  /-- received traces: cycle being collected, last whole cycle, accepted trace -/
  rxSpan   : List (Option Byte) := List.replicate 64 none
  rxPath   : List (Option Byte) := List.replicate 64 none
  lastSpan : Option (List Byte) := none
  lastPath : Option (List Byte) := none
  accSpan  : Option (List Byte) := none
  accPath  : Option (List Byte) := none
  /-- own status of the last PATH received, for its PATH_ACK (R242) -/
  pathStatus : BitVec 4 := 0
  /-- a rate change has happened and RETUNE has not run since (R243) -/
  afterRate : Bool := false
  groomBlocked : Word := 0
deriving DecidableEq, Repr

/-! ### Regulator (11) -/

/-- One calibration point (R322, R334). -/
structure CalPoint where
  temp  : Int
  valid : Bool
  tRun  : Int
  vals  : CalVals
deriving DecidableEq, Repr

/-- Kinds and results of runs (R336). -/
inductive CalRunKind where
  | none | background | foreground
deriving DecidableEq, Repr

/-- The Regulator of one port (R315 to R336). -/
structure Cal where
  points  : Vector CalPoint 8
  working : CalVals
  target  : CalVals
  /-- last accepted values, targets without a valid point (R324) -/
  accepted : CalVals
  /-- residuals D in 1/calUnit of a step (R324, R325) -/
  resid   : CalVals
  run     : CalRunKind := .none
  items   : BitVec 6 := 0
  /-- a rejected run waits for its retry (R321): its kind -/
  retry   : Option CalRunKind := none
  last    : BitVec 2 := 0
  rejects : Nat := 0
  rejectItems : BitVec 6 := 0
  trigger : BitVec 3 := 0
  /-- exchanges of spare rotation done in the present run (R318) -/
  rotated : Nat := 0
  /-- physical sub-ADC in each place of the sequence and the two spares, per lane (R318) -/
  order   : Vector (List Nat) 4
  /-- which item each sub-ADC steps next: 0 timing, 1 gain, 2 offset (R330) -/
  turn    : List Nat
  /-- which item each sub-DAC steps next: 0 skew, 1 duty -/
  dturn   : List Nat
  /-- the last readings of each sensor in 0.1 °C, newest first, at most 16 (R323) -/
  readings : Vector (List Int) 4 := Vector.replicate 4 []
  /-- the averages of those readings in 0.1 °C (R323) -/
  sensors : Vector Int 4 := Vector.replicate 4 0
  /-- the sum of the four sensors: T in 1/40 °C (R323) -/
  temp    : Int := 0
  tLast   : Int := 0
  refs    : Vector Int 4 := Vector.replicate 4 0
  /-- the references of the temperature trigger have been taken (R327) -/
  hasRef  : Bool := false
  auto    : Bool := true
  deltaT  : BitVec 8 := 30
  startUsec : Nat := 0
  /-- the sum of T in 1/40 °C over the evaluations of the present run, and their number: T_RUN is the mean (R325) -/
  runT    : Int := 0
  runN    : Nat := 0
  runTime : BitVec 16 := 0
  everAccepted : Bool := false
  accept  : Word := 0
  reject  : Word := 0
  abort   : Word := 0
  unstable : Word := 0
  range   : Word := 0
deriving DecidableEq, Repr

/-- One line port. -/
structure PortSt where
  front : Front
  rx    : Rx
  sf    : Sf
  nlc   : Nlc
  tx    : Tx
  tr    : Train
  tr2   : Train2
  cal   : Cal
deriving DecidableEq, Repr

/-! ### Decoder pool (07) -/

/-- A codeword given to an engine (R192, R203). -/
structure Job where
  port : LPort
  sf   : Nat
  cw   : Nat
  ceil : Nat
deriving DecidableEq, Repr

/-- One engine (R192, R203 to R206). -/
structure EngineSt where
  /-- speed in quarters, 1 to 4 -/
  speed   : Nat := 4
  fenced  : Bool := false
  /-- the known-answer test of R206 must pass before it receives work -/
  testing : Bool := false
  running : Option Job := none
  staged  : Option Job := none
  cw      : Word := 0
deriving DecidableEq, Repr

/-- An open superframe of a port (R191, R196, R197). -/
structure OpenSf where
  id       : Nat
  count    : Nat
  fmt      : Word
  /-- every bit is written: its codewords are ready (R191) -/
  ready    : Bool
  /-- codewords that have completed their own decode -/
  complete : List Nat
  /-- codewords closed -/
  closed   : List Nat
  /-- codewords handed to an engine and not complete -/
  out      : List Nat
  /-- codewords to dispatch again (R205) -/
  again    : List Nat
  /-- decode deadline in 0.1 µs (R197) -/
  deadline : Nat
  /-- results of the codewords that have completed and are not closed: index, ceiling, result (R193) -/
  results  : List (Nat × Nat × DecodeObs) := []
  /-- of each closed codeword, the index at which it enters q_p, 25 when its checks were not satisfied (R200), and the
  iterations that it ran (R211) -/
  iters    : List (Nat × Nat) := []
  /-- the 5-bit channel LLRs in the slots, in the order in which their bits were sent (R191) -/
  llr      : List Int := []
  /-- posteriors that engines have written: codeword, its own bits (R193) -/
  soft     : List (Nat × List Int) := []
  /-- hard decisions of the closed codewords (R193) -/
  hard     : List (Nat × List Bool) := []
deriving DecidableEq, Repr

/-- The pool's share of one port (R194 to R202, R210 to R212). -/
structure PoolPort where
  floor   : BitVec 5 := 8
  ceilMax : BitVec 5 := 24
  /-- C_LAT latched (R195) -/
  cLat    : BitVec 5 := 24
  ceil    : BitVec 5 := 24
  inPool  : Bool := false
  /-- superframes of caution left (R200) -/
  cautious : Nat := 0
  /-- the codewords closed in each of the last 16 superframes, as `OpenSf.iters` has them -/
  hist    : List (List (Nat × Nat)) := []
  /-- the decoded buffer: hard decisions of the superframe closed last (R193) -/
  decoded : List (Nat × List Bool) := []
  /-- mean SNRs of the last 16 superframes, twice the mean of X and Y -/
  snrs    : List Nat := []
  /-- consecutive short cycles as a pool port (R202) -/
  shortRun : Nat := 0
  /-- last report to Balance: codewords per superframe and the symbol rate code (R35, R199) -/
  report  : Option (Nat × BitVec 10) := none
  openSfs : List OpenSf := []
  nextSf  : Nat := 0
  lastClosedFmt : Word := 0
  lastClosedCount : Nat := 0
  cwTotal : BitVec 64 := 0
  codedBits : BitVec 64 := 0
  corr0to1 : BitVec 64 := 0
  corr1to0 : BitVec 64 := 0
  uncorr  : BitVec 64 := 0
  ceilHit : BitVec 64 := 0
  outerCw : BitVec 64 := 0
  outerCorr : BitVec 64 := 0
  outerUncorr : BitVec 64 := 0
  deadlineMiss : Word := 0
  slotClose : Word := 0
  starved : Word := 0
  discard : Word := 0
  iterHist : Vector Word 23 := Vector.replicate 23 0
deriving DecidableEq, Repr

/-- The decoder pool (R199 to R213). -/
structure Pool where
  ports   : Vector PoolPort 4 := Vector.replicate 4 {}
  engines : Vector EngineSt 64 := Vector.replicate 64 {}
  reserve : BitVec 4 := 5
  /-- quads that Balance has agreed to let sleep: no dispatch (R207) -/
  draining : BitVec 4 := 0
  short   : Bool := false
  shortRun : Nat := 0
  clearRun : Nat := 0
  capacity : Nat := 0
  need    : Nat := 0
  fenceEvt : Word := 0
  redispatch : Word := 0
  katFail : Word := 0
  watchdog : Word := 0
  engEcc  : Word := 0
  throttle : Word := 0
  eccCorr : BitVec 64 := 0
  eccDetect : Word := 0
  scrubs  : Word := 0
deriving DecidableEq, Repr

/-! ### Host lanes and mapping (09) -/

/-- One host lane (R259 to R265, R282 to R287). -/
structure Lane where
  /-- words 1, 2, 3 of HOST_LANE_CONFIG (R284) -/
  w1      : Word := 0x02140032
  w2      : Word := 0
  w3      : Word := 0x40000000
  los     : Bool := false
  cdr     : Bool := false
  /-- TRAIN_STATE of R286 -/
  train   : BitVec 3 := 0
  ownReady : Bool := false
  partnerReady : Bool := false
  /-- transmit taps in use, c(-4) to c(1), in 1/64 -/
  taps    : Vector Int 6 := #v[0, 0, 0, 0, 64, 0]
  precodeTx : Bool := false
  precodeRx : Bool := false
  /-- what the own training frames ask of the partner, and answer to its last request (R264) -/
  reqOut  : TrainReq := .none
  ansOut  : TrainAns := .none
  /-- precoding has been requested in this training; taps that the partner reports at their maximum and minimum -/
  precodeAsked : Bool := false
  atMax   : BitVec 6 := 0
  atMin   : BitVec 6 := 0
  trainStart : Nat := 0
  trainTime : BitVec 16 := 0
  preFec  : Word := 0
  prbsGen : BitVec 2 := 0
  prbsChk : BitVec 2 := 0
  prbsLock : Bool := false
  near    : Bool := false
  far     : Bool := false
  corrBits : BitVec 64 := 0
  rxBits  : BitVec 64 := 0
  losEvt  : Word := 0
  cdrLoss : Word := 0
  trainFail : Word := 0
  trainDone : Word := 0
  prbsErr : BitVec 64 := 0
  prbsBits : BitVec 64 := 0
deriving DecidableEq, Repr

/-- The counters of a client (R287). -/
structure ClientCnt where
  cwTotal : BitVec 64 := 0
  cwCorr  : BitVec 64 := 0
  cwUncorr : BitVec 64 := 0
  blocksIn : BitVec 64 := 0
  blocksOut : BitVec 64 := 0
  idleIns : Word := 0
  idleDel : Word := 0
  ingressFail : Word := 0
  egressFail : Word := 0
  countErr : Word := 0
  egressSlip : Word := 0
  mismatch : Word := 0
deriving DecidableEq, Repr

/-- A client of the crossbar (R266 to R281, R288). -/
structure Client where
  type    : BitVec 3
  first   : HLane
  port    : LPort
  slots   : BitVec 16
  /-- the transmit side is in force -/
  txOn    : Bool
  /-- the receive side is in force -/
  rxOn    : Bool
  aligned : Bool := false
  /-- egress buffer delivering (R268) -/
  egress  : Bool := false
  /-- the egress buffer has restarted in the present superframe (R268, R270) -/
  slipped : Bool := false
  /-- consecutive good SFOHs that disagree or agree with the client (R270) -/
  misRun  : Nat := 0
  agreeRun : Nat := 0
  rxFail  : Bool := true
  cnt     : ClientCnt := {}
deriving DecidableEq, Repr

/-- The crossbar and pair roles (R19, R254, R273). -/
structure MapSt where
  /-- role of the pairs: true when regenerating -/
  regen   : Vector Bool 2 := Vector.replicate 2 false
  dropLo  : Vector (BitVec 16) 2 := Vector.replicate 2 0
  dropHi  : Vector (BitVec 16) 2 := Vector.replicate 2 0
  clients : List Client := []
  /-- port loopbacks of R514 -/
  loopDigital : BitVec 4 := 0
  loopPayload : BitVec 4 := 0
  /-- logic stopped by a held failure or a safe action (R460) -/
  stopped : Bool := false
deriving DecidableEq, Repr

/-! ### The Dial (10) -/

/-- State of an event (R294). -/
inductive DialPhase where
  | pending | held | staged | released
deriving DecidableEq, Repr

/-- What an event does when its time comes: run its stored packet, or one of the switches that a port
controller enters itself (R231, R235, R241). -/
inductive DialKind where
  | stored
  | fmtTx (p : LPort) (desc : Word) (g a : BitVec 8) (kind : BitVec 2)
  | fmtRx (p : LPort) (desc : Word) (g a : BitVec 8) (kind : BitVec 2)
  | tuneTx (p : LPort) (set : BitVec 3) (g a : BitVec 8)
  | tuneRx (p : LPort) (set : BitVec 3) (g a : BitVec 8)
  | rateTx (p : LPort) (rate : BitVec 10)
  | rateRx (p : LPort) (rate : BitVec 10)
deriving DecidableEq, Repr

/-- Where an event's completion goes (R308). -/
inductive Compl where
  | none | origin | m4 | m5
deriving DecidableEq, Repr

/-- One event of the pool (R294). -/
structure DialEv where
  /-- pool entry index and its use count: EVENT_ID -/
  idx     : Nat
  use     : BitVec 16
  target  : Psfn
  ref     : RefCode
  exact   : Bool
  /-- LOSS is FALLBACK -/
  fallback : Bool
  compl   : Compl
  opcode  : BitVec 16
  pktTag  : BitVec 8
  params  : List Word
  /-- words of bulk memory that the stored command read when it was staged -/
  data    : List Word := []
  kind    : DialKind := .stored
  /-- channel on which the event was entered -/
  src     : Src
  stamp   : Stamp
  /-- tag of the DIAL_SCHEDULE -/
  tag     : BitVec 8
  /-- the command whose reply is the completion of an implicit schedule (R300) -/
  implicit : Option Req := none
  /-- entered by a core of the part itself (class 3) -/
  internal : Bool := false
  phase   : DialPhase := .pending
  /-- the shadow writes of a staged event are complete (R300, R515) -/
  stagingDone : Bool := false
  /-- the event was held after its staging (R303) -/
  wasStaged : Bool := false
  fellBack : Bool := false
  late    : Bool := false
  deferred : Bool := false
  /-- order of entry (R301) -/
  seq     : Nat
  /-- count and reference at release (R307) -/
  atCount : Psfn := 0
  atRef   : RefCode := 0
deriving DecidableEq, Repr

/-- The Dial and the Escapement (R291 to R314). -/
structure Dial where
  evs     : List DialEv := []
  /-- use counts of pool entries that have been used (R294) -/
  uses    : List (Nat × BitVec 16) := []
  strideLog2 : Nat := 6
  remoteMax : Nat := 4096
  /-- the last offset at which both counts of a reference and its paired reference were valid (R304) -/
  offset  : Vector (Option (BitVec 48)) 8 := Vector.replicate 8 Option.none
  /-- DIAL_ENTERED, RELEASED, LATE, DEFERRED, ABORT_JUMP, CANCELLED, FALLBACK, FULL, COMPL_DROP, HELD -/
  counters : Vector Word 10 := Vector.replicate 10 0
  nextSeq : Nat := 0
deriving DecidableEq, Repr

/-! ### Monitor converter and bias loops (16) -/

/-- Loop modes of R447. -/
inductive LoopMode where
  | off | fixed | setpoint | dither
deriving DecidableEq, Repr

/-- Loop states of MON.BIAS_k. -/
inductive LoopState where
  | off | fixed | settling | settled | drift | unsettled
deriving DecidableEq, Repr

/-- One bias loop (R447 to R450, R455). -/
structure BiasLoop where
  mode    : LoopMode := .off
  chan    : BitVec 5 := 0
  sign    : Bool := false
  ki      : Nat := 1024
  codeMin : Nat := 0
  codeMax : Nat := 65535
  /-- CODE of the last BIAS_LOOP_SET -/
  start   : Nat := 32768
  target  : Nat := 0
  tol     : Nat := 16
  d       : Nat := 64
  half    : Nat := 2
  grace   : Nat := 200
  stepMax : Nat := 256
  /-- the code that the updates move, and the code now driven on the output -/
  code    : Nat := 0
  drive   : Nat := 0
  /-- the code of the next dither edge, until the edge is applied (R448) -/
  edge    : Option Nat := none
  /-- the dither's present sign is + (R448) -/
  plus    : Bool := true
  st      : LoopState := .off
  highZ   : Bool := true
  /-- consecutive updates within TOL, and beyond twice TOL -/
  okRun   : Nat := 0
  badRun  : Nat := 0
  /-- results of the present half period and of the half with +D, and the sums of the two halves -/
  n       : Nat := 0
  nPlus   : Nat := 0
  sumPlus : Nat := 0
  sumMinus : Nat := 0
deriving DecidableEq, Repr

/-- A result register pair (R444). -/
structure MonRes where
  seq     : BitVec 8 := 0
  invalid : Bool := false
  refCold : Bool := false
  ovr     : Bool := false
  filtered : Bool := false
  data    : BitVec 24 := 0
deriving DecidableEq, Repr

/-- Post-filter state of one channel (R441, R442): its history, newest first, and outputs of the fade. -/
structure MonFilt where
  history : List (BitVec 24) := []
  fade    : Option Nat := none
deriving DecidableEq, Repr

/-- The monitor converter (R437 to R455). -/
structure Mon where
  preset  : BitVec 3 := 1
  hostMask : BitVec 24 := 0
  postMask : BitVec 24 := 0
  gains   : Word := 0
  /-- scan in force -/
  scan    : BitVec 24 := 0
  /-- changes that wait for the next round boundary: preset and gains; the scan is recomputed there -/
  nextPreset : Option (BitVec 3) := none
  nextGains : Option Word := none
  /-- index of the slot that ended last in the present round; none before the first round after a start -/
  slot    : Option Nat := none
  refOn   : Bool := false
  refCold : Bool := false
  /-- the buffer was on when MON left ON (R440) -/
  refWasOn : Bool := false
  round   : Word := 0
  /-- INVALID outputs still to come of each channel (R439) -/
  invalid : Vector Nat 24 := Vector.replicate 24 0
  taps    : List Int
  oldTaps : List Int
  filt    : Vector MonFilt 24 := Vector.replicate 24 {}
  res     : Vector MonRes 24 := Vector.replicate 24 {}
  cntInvalid : Word := 0
  cntUrgent  : Word := 0
  cntTorn    : Word := 0
  cntUnsettle : Word := 0
  /-- MON_URGENT waiting or running, with its channel (R443) -/
  urgent  : Option (Req × BitVec 5) := none
  loops   : Vector BiasLoop 24 := Vector.replicate 24 {}
  /-- MUTE_ON_DRIFT of each port (R450, R455) -/
  muteOnDrift : Vector Bool 4 := Vector.replicate 4 true
  /-- the converter is stopped by a safe action or a held failure (R460) -/
  stopped : Bool := false
deriving DecidableEq, Repr

/-! ### Alarms and faults (17) -/

/-- The three words of one alarm instance (R458). -/
structure Alarm where
  active  : Word := 0
  latched : Word := 0
  mask    : Word := 0
deriving DecidableEq, Repr

/-- All alarms (R457). -/
structure Alarms where
  line : Vector Alarm 4 := Vector.replicate 4 {}
  conv : Vector Alarm 4 := Vector.replicate 4 {}
  host : Vector Alarm 32 := Vector.replicate 32 {}
  pool : Alarm := {}
  jrx  : Vector Alarm 4 := Vector.replicate 4 {}
deriving DecidableEq, Repr

/-- One entry of the fault log (R466). -/
structure LogEntry where
  seq       : BitVec 16
  unit      : FUnit
  code      : BitVec 8
  level     : BitVec 2
  action    : BitVec 3
  outcome   : BitVec 3
  secondary : Bool
  index     : BitVec 7
  detail    : BitVec 16
  psfn      : Psfn
  psfnRef   : RefCode
  psfnValid : Bool
  usec      : BitVec 64
deriving DecidableEq, Repr

/-- A fault detected and not yet handled (R461). -/
structure FaultRec where
  unit   : FUnit
  code   : BitVec 8
  index  : BitVec 7
  detail : BitVec 16
  psfn   : Psfn
  psfnRef : RefCode
  psfnValid : Bool
  usec   : BitVec 64
  secondary : Bool
deriving DecidableEq, Repr

/-- Recovery of one fault unit (R462, R463). -/
structure UnitSt where
  /-- recovery runs: 0 none, 1 the action runs, 2 the quiet second runs -/
  recovering : Nat := 0
  level   : Nat := 0
  held    : Bool := false
  /-- OVERFLOW flag and the number of overflowed detections (R461, R466) -/
  overflow : Nat := 0
  /-- one of them took the unit's safe action -/
  ovDown  : Bool := false
  lastSeq : Option (BitVec 16) := none
deriving DecidableEq, Repr

/-- The fault handler (R459 to R471). -/
structure Faults where
  units   : Vector UnitSt 26 := Vector.replicate 26 {}
  primary : Option FaultRec := none
  second  : Option FaultRec := none
  /-- newest first, at most 256 entries -/
  log     : List LogEntry := []
  total   : Word := 0
  overflow : Word := 0
  nextSeq : BitVec 16 := 0
deriving DecidableEq, Repr

/-! ### Joryx (02, 17) -/

/-- A Joryx frame (R65). -/
structure Frame where
  dest : BitVec 11
  src  : BitVec 11
  hops : BitVec 5
  chan : BitVec 2
  type : BitVec 3
  seq  : BitVec 16
  entries : BitVec 6
  body : List Word
deriving DecidableEq, Repr

/-- A route (R67): the age runs from a time in microseconds. -/
structure Route where
  node : BitVec 11
  hops : Nat
  port : LPort
  atUsec : Nat
deriving DecidableEq, Repr

/-- A neighbour record (R66, R474). -/
structure Neighbour where
  valid  : Bool := false
  nidValid : Bool := false
  node   : BitVec 11 := 0
  farPort : BitVec 2 := 0
  changed : Bool := false
  uid    : BitVec 128 := 0
  lastUsec : Nat := 0
deriving DecidableEq, Repr

/-- A JRX_SEND that waits for its reply (R476). -/
structure JrxWait where
  rq    : Req
  dest  : BitVec 11
  chan  : BitVec 2
  opcode : BitVec 16
  tag   : BitVec 8
  h0    : Word
  h1    : Word
deriving DecidableEq, Repr

/-- Joryx on one port. -/
structure JrxPort where
  /-- frame words of a partly assembled frame (R64) -/
  partial_ : Option (List Word) := none
  egress  : List Frame := []
  /-- words of the frame being sent that have not been sent yet (R63) -/
  sending : List Word := []
  neigh   : Neighbour := {}
  /-- CELL_DISCARD, FRAME_BAD, NO_ROUTE, HOP_EXPIRED, QUEUE_DROP, MBX_DROP (R71) -/
  counters : Vector Word 6 := Vector.replicate 6 0
deriving DecidableEq, Repr

/-- The Joryx function (R61 to R71, R473 to R479). -/
structure Joryx where
  nodeId   : BitVec 11 := 0
  nidValid : Bool := false
  seq      : BitVec 16 := 0
  routes   : List Route := []
  routesChanged : Bool := false
  waits    : List JrxWait := []
  /-- port on which the last REQUEST of each channel came in, for JRX_MBX_DROP -/
  fromPort : Vector LPort 4 := Vector.replicate 4 0
  ports    : Vector JrxPort 4 := Vector.replicate 4 {}
deriving DecidableEq, Repr

/-! ### Test access (19) and pins (19, 03) -/

/-- The TAP instructions of R509. -/
inductive TapIr where
  | bypass | idcode | samplePreload | extest | clamp | highz | extestPulse | extestTrain | testMbx
deriving DecidableEq, Repr

/-- Test access, Loupe and the pins that hold state. -/
structure TestAcc where
  ir      : TapIr := .idcode
  /-- the boundary cells of DRV_EN_0 to 3, and of the other balls -/
  drvCells : BitVec 4 := 0
  cells   : List Bool := []
  /-- a test instruction holds the part in reset and the cells have the balls (R510) -/
  held    : Bool := false
  /-- what the last operation of TEST_MBX left for the next Capture-DR (R511): a taken word, and bits [33:32] -/
  drWord  : Option Word := none
  drStat  : BitVec 2 := 0
  loupe   : Word := 0
deriving DecidableEq, Repr

/-- The MUTE_N input (R93) and its counter. -/
structure Pins where
  muteHigh  : Bool := true
  /-- MUTE_N counts as high (R93) -/
  muteClear : Bool := true
  muteTimer : Bool := false
  muteEvents : Word := 0
deriving DecidableEq, Repr

/-- The state of the VRZ6400. -/
structure State where
  /-- system block, boot ROM, configuration (12, 18) -/
  sys   : Sys
  /-- power manager (15) -/
  power : Power
  /-- mailboxes and doorbells (13) -/
  mbx   : Mbx
  /-- management ports and masters (14) -/
  twi   : Twi
  /-- line ports LP0 to LP3 (02 to 06, 08, 11) -/
  ports : Vector PortSt 4
  /-- decoder pool (07) -/
  pool  : Pool
  /-- host lanes H00 to H31 (09) -/
  lanes : Vector Lane 32
  /-- crossbar and mapping (09) -/
  map   : MapSt
  /-- the Dial (10) -/
  dial  : Dial
  /-- monitor converter and bias loops (16) -/
  mon   : Mon
  /-- alarms (17) -/
  alarms : Alarms
  /-- fault handler (17) -/
  faults : Faults
  /-- Joryx (02, 17) -/
  jrx   : Joryx
  /-- test access and Loupe (19) -/
  test  : TestAcc
  /-- input pins that hold state -/
  pins  : Pins
  /-- bulk memory: byte 4·w + i holds bits [31 − 8i : 24 − 8i] of word w -/
  bulk  : List Host.Cell
  /-- number of free values taken so far (the model's own) -/
  free  : Nat
  /-- commands that wait, first in, first out (the model's own) -/
  pending : List Instr
deriving DecidableEq, Repr


/-- A full set of calibration values, the same in every place. -/
def CalVals.const (v : Int) : CalVals :=
  { timing := List.replicate 520 v, gain := List.replicate 520 v, offset := List.replicate 520 v,
    skew := List.replicate 256 v, duty := List.replicate 256 v,
    adcXq := v, adcYi := v, adcYq := v, pol := v, iqX := v, iqY := v }

/-- The factory trim of port `p` (R322): items 0 to 519 timing, then gain and offset, skew, duty and
the six lane values. -/
def CalVals.trim (p : Nat) : CalVals :=
  let f := fun b n => (List.range n).map fun i => Config.factoryTrim p (b + i)
  { timing := f 0 520, gain := f 520 520, offset := f 1040 520, skew := f 1560 256, duty := f 1816 256,
    adcXq := Config.factoryTrim p 2072, adcYi := Config.factoryTrim p 2073,
    adcYq := Config.factoryTrim p 2074, pol := Config.factoryTrim p 2075,
    iqX := Config.factoryTrim p 2076, iqY := Config.factoryTrim p 2077 }

/-- Default calibration points (R322), in 0.1 °C. -/
def calTemps : Vector Int 8 := #v[100, 250, 400, 550, 700, 850, 1000, 1100]

/-- The Regulator of port `p` after reset (R322, R324, R333). -/
def Cal.reset (p : Nat) : Cal :=
  { points := calTemps.map fun t => { temp := t, valid := false, tRun := 0, vals := CalVals.const 0 }
    working := CalVals.trim p, target := CalVals.trim p, accepted := CalVals.trim p
    resid := CalVals.const 0
    order := Vector.replicate 4 (List.range 130)
    turn := List.replicate 520 0, dturn := List.replicate 256 0 }

/-- LINE_RX_CONFIG words 1 to 8 after reset: the defaults of R127. -/
def rxCfgReset : Vector Word 8 :=
  #v[0x23010000, 0, 0, 0x04000000, 0xFD1C0000, 0x48E00000, 0x20000000, 0x28600000]

/-- LINE_TX_CONFIG words 1 to 7 after reset: the defaults of R176. -/
def txCfgReset : Vector Word 7 :=
  #v[0x01400000, 0x18C80000, 0x78F1E3C0, 0, 0, 0, 0]

/-- Linearisation coefficients of identity (R170): c1,0 of each lane is 1.0 with 12 fractional bits. -/
def linIdentity : List (BitVec 16) :=
  (List.replicate 4 ((0x1000 : BitVec 16) :: List.replicate 14 0)).flatten

/-- Pre-emphasis taps of identity (R171): the centre tap of each lane is 1.0 with 14 fractional bits. -/
def preIdentity : List (BitVec 16) :=
  (List.replicate 4 (List.replicate 16 (0 : BitVec 16) ++ 0x4000 :: List.replicate 16 0)).flatten

/-- Training policy words 0 to 4 after reset: the defaults of R256. -/
def policyReset : Vector Word 5 :=
  #v[0x39C20000, 0x00E00000, 0x00320014, 0x1F43E814, 0x0A032000]

/-- Line port `p` after reset. -/
def PortSt.reset (p : Nat) : PortSt :=
  { front := {}, rx := { cfg := rxCfgReset }, sf := {}, nlc := {}
    tx := { cfg := txCfgReset, lin := linIdentity, pre := preIdentity }
    tr := { policy := policyReset, polUse := policyReset }, tr2 := {}, cal := Cal.reset p }

/-- Permission masks after reset (R352). -/
def Perms.reset : Perms :=
  { twi  := #v[0x03FFFFFF, 0x03FFFFFF, 0x03FFFFFF, 0x03FFFFFF, 0, 0, 0x03FFFFFF, 0x03D55555]
    mspi := #v[0x03FFFFFF, 0x03FFFFFF, 0x03FFFFFF, 0x03FFFFFF, 0, 0, 0x03FFFFFF, 0x03D55555]
    test := 0x07FFFFFF
    jrx  := Vector.replicate 4 0x05555555 }

/-- Post-filter taps that pass outputs unchanged (R441). -/
def monTapsReset : List Int := 4194304 :: List.replicate 63 0

/-- The part right after reset: every field at the value the manual states, and where it states none,
at the value of DESIGN CHOICE, notes/assumptions 1. -/
def State.reset : State :=
  { sys := { perms := Perms.reset }, power := {}, mbx := {}, twi := {}
    ports := #v[PortSt.reset 0, PortSt.reset 1, PortSt.reset 2, PortSt.reset 3]
    pool := {}, lanes := Vector.replicate 32 {}, map := {}, dial := {}
    mon := { taps := monTapsReset, oldTaps := monTapsReset }
    alarms := {}, faults := {}, jrx := {}, test := {}, pins := {}
    bulk := [], free := 0, pending := [] }

end Sys2Proof.Machine
end

