-- ==== Sys2Proof/Machine/Bits.lean ====
section
/-! DEFINITION. Bit fields, signed codes, the CRC-32C of R338, PSFN comparison (R56) and bulk memory
(R350). -/

namespace Sys2Proof.Machine

/-- Field [hi:lo] of a word, as a number. -/
def fld (w : Word) (hi lo : Nat) : Nat := w.toNat / 2 ^ lo % 2 ^ (hi + 1 - lo)

/-- Bit `i` of a word. -/
def bit (w : Word) (i : Nat) : Bool := w.toNat / 2 ^ i % 2 == 1

/-- A word from fields (hi, lo, value); each value is taken modulo the width of its field. -/
def word (fs : List (Nat × Nat × Nat)) : Word :=
  BitVec.ofNat 32 (fs.foldl (fun a f => a + f.2.2 % 2 ^ (f.1 + 1 - f.2.1) * 2 ^ f.2.1) 0)

/-- A flag as a number. -/
def b2n (b : Bool) : Nat := if b then 1 else 0

/-- A number as a word, modulo 2^32. -/
def wd (n : Nat) : Word := BitVec.ofNat 32 n

/-- Two's complement reading of a field of `k` bits. -/
def sgn (k n : Nat) : Int := if n % 2 ^ k < 2 ^ (k - 1) then (n % 2 ^ k : Nat) else (n % 2 ^ k : Nat) - (2 ^ k : Nat)

/-- Two's complement code of `v` in `k` bits. -/
def unsgn (k : Nat) (v : Int) : Nat := (v % (2 ^ k : Nat)).toNat

/-- Clamp to a range. -/
def clampI (lo hi v : Int) : Int := if v < lo then lo else if hi < v then hi else v

/-- Lower and upper word of a 64-bit count, in the order of R357. -/
def two (c : BitVec 64) : List Word := [wd c.toNat, wd (c.toNat / 2 ^ 32)]

/-- Upper and lower word of a 64-bit count, in the order of R466. -/
def twoHi (c : BitVec 64) : List Word := [wd (c.toNat / 2 ^ 32), wd c.toNat]

/-- PSFN[47:16]. -/
def psHi (n : Psfn) : Nat := n.toNat / 65536
/-- PSFN[15:0]. -/
def psLo (n : Psfn) : Nat := n.toNat % 65536

/-- psfn_diff(a, b) of R56: the signed distance from b to a, modulo 2^48. -/
def psfnDiff (a b : Psfn) : Int := sgn 48 (a - b).toNat

/-- A PSFN moved by a signed distance. -/
def psfnAdd (a : Psfn) (d : Int) : Psfn := a + BitVec.ofInt 48 d

/-- Rounded quotient of integers; a half is rounded away from zero. -/
def rdiv (a b : Int) : Int := if a < 0 then -((-2 * a + b) / (2 * b)) else (2 * a + b) / (2 * b)

/-! ### CRC-32C -/

/-- Eight steps of the reflected CRC-32C register (R338). -/
def crcBits : Nat → Nat → Nat
  | 0, c => c
  | k + 1, c => crcBits k (if c % 2 = 1 then (c / 2) ^^^ 0x82F63B78 else c / 2)

/-- One byte into the register. -/
def crcByte (c b : Nat) : Nat := crcBits 8 (c ^^^ b)

/-- One word into the register, bits [31:24] first. -/
def crcWord (c : Nat) (w : Word) : Nat :=
  let n := w.toNat
  crcByte (crcByte (crcByte (crcByte c (n / 16777216)) (n / 65536 % 256)) (n / 256 % 256)) (n % 256)

/-- CRC-32C over words in sending order (R338). -/
def crc32c (ws : List Word) : Word := wd (ws.foldl crcWord 0xFFFFFFFF ^^^ 0xFFFFFFFF)

/-- CRC-32C over bytes. -/
def crcBytes (bs : List Nat) : Word := wd (bs.foldl crcByte 0xFFFFFFFF ^^^ 0xFFFFFFFF)

/-! ### Bulk memory -/

/-- Words of bulk memory (R350). -/
def bulkWords : Nat := 131072

/-- What bulk memory holds where nothing is listed: zero (R424; DESIGN CHOICE, notes/assumptions 4). -/
def memGet : List Host.Cell → Nat → Byte
  | [], _ => 0
  | (a, b) :: m, x => if a = x then b else if x < a then 0 else memGet m x

/-- Store one byte; a zero removes the entry. -/
def memPut : List Host.Cell → Nat → Byte → List Host.Cell
  | [], x, v => if v = 0 then [] else [(x, v)]
  | (a, b) :: m, x, v =>
    if a = x then (if v = 0 then m else (x, v) :: m)
    else if x < a then (if v = 0 then (a, b) :: m else (x, v) :: (a, b) :: m)
    else (a, b) :: memPut m x v

/-- Canonical form: addresses rise strictly and no entry is zero. -/
def Memory.wf : List Host.Cell → Bool
  | [] => true
  | [(_, b)] => b != 0
  | (a, b) :: (c, d) :: m => b != 0 && decide (a < c) && Memory.wf ((c, d) :: m)

/-- Word `w` of bulk memory. -/
def bulkGet (m : List Host.Cell) (w : Nat) : Word :=
  (memGet m (4 * w) ++ memGet m (4 * w + 1) ++ memGet m (4 * w + 2) ++ memGet m (4 * w + 3)).setWidth 32

/-- Store word `w` of bulk memory. -/
def bulkPut (m : List Host.Cell) (w : Nat) (v : Word) : List Host.Cell :=
  memPut (memPut (memPut (memPut m (4 * w) (v.extractLsb' 24 8)) (4 * w + 1) (v.extractLsb' 16 8))
    (4 * w + 2) (v.extractLsb' 8 8)) (4 * w + 3) (v.extractLsb' 0 8)

/-- `n` words from word `w` on. -/
def bulkRead (m : List Host.Cell) (w n : Nat) : List Word := (List.range n).map fun i => bulkGet m (w + i)

/-- Store words from word `w` on. -/
def bulkWrite : List Host.Cell → Nat → List Word → List Host.Cell
  | m, _, [] => m
  | m, w, v :: vs => bulkWrite (bulkPut m w v) (w + 1) vs

/-! ### Lists -/

/-- Change entry `i` of a list. -/
def lset {α : Type} : List α → Nat → α → List α
  | [], _, _ => []
  | _ :: xs, 0, y => y :: xs
  | x :: xs, i + 1, y => x :: lset xs i y

/-- The four line ports. -/
def allPorts : List LPort := [0, 1, 2, 3]

/-- Parameter word `i` of a request. -/
def par (rq : Req) (i : Nat) : Word := rq.params.getD i 0

/-- Field [hi:lo] of parameter word `i` of a request. -/
def pf (rq : Req) (i hi lo : Nat) : Nat := fld (par rq i) hi lo

/-- PORT in bits [31:30] of parameter word `i`. -/
def pport (rq : Req) (i : Nat) : LPort := Fin.ofNat 4 (pf rq i 31 30)

/-- Octet of a lane (R259). -/
def octet (k : HLane) : Fin 4 := Fin.ofNat 4 (k.val / 8)

/-- The other port of a pair (R1). -/
def mate (p : LPort) : LPort := Fin.ofNat 4 (if p.val % 2 = 0 then p.val + 1 else p.val - 1)

/-- The pair of a port (R1). -/
def pairOf (p : LPort) : Fin 2 := Fin.ofNat 2 (p.val / 2)

end Sys2Proof.Machine
end

