-- ==== Sys2Proof/Machine/Ops.lean ====
section
/-! DEFINITION. The named operations over the state that every command shares: parts of the state,
references and stamps, messages and replies, Dial completions, Joryx frames, alarms, device states and
power words. -/

namespace Sys2Proof.Machine

/-- What executing one command comes to. -/
abbrev Outcome := Host.Outcome State Fault Refusal

/-! ### Parts of the state -/

/-- Change port `p`. -/
def modPort (p : LPort) (f : PortSt → PortSt) (s : State) : State := { s with ports := vmod s.ports p f }
/-- Change the front end of port `p`. -/
def modFront (p : LPort) (f : Front → Front) (s : State) : State :=
  modPort p (fun x => { x with front := f x.front }) s
/-- Change the receive DSP of port `p`. -/
def modRx (p : LPort) (f : Rx → Rx) (s : State) : State := modPort p (fun x => { x with rx := f x.rx }) s
/-- Change the superframe state of port `p`. -/
def modSf (p : LPort) (f : Sf → Sf) (s : State) : State := modPort p (fun x => { x with sf := f x.sf }) s
/-- Change the Complication state of port `p`. -/
def modNlc (p : LPort) (f : Nlc → Nlc) (s : State) : State := modPort p (fun x => { x with nlc := f x.nlc }) s
/-- Change the transmit DSP of port `p`. -/
def modTx (p : LPort) (f : Tx → Tx) (s : State) : State := modPort p (fun x => { x with tx := f x.tx }) s
/-- Change the training state of port `p`. -/
def modTr (p : LPort) (f : Train → Train) (s : State) : State := modPort p (fun x => { x with tr := f x.tr }) s
/-- Change the second part of the training state of port `p`. -/
def modTr2 (p : LPort) (f : Train2 → Train2) (s : State) : State :=
  modPort p (fun x => { x with tr2 := f x.tr2 }) s
/-- Change the Regulator of port `p`. -/
def modCal (p : LPort) (f : Cal → Cal) (s : State) : State := modPort p (fun x => { x with cal := f x.cal }) s
/-- Change the system block. -/
def modSys (f : Sys → Sys) (s : State) : State := { s with sys := f s.sys }
/-- Change the mailboxes. -/
def modMbx (f : Mbx → Mbx) (s : State) : State := { s with mbx := f s.mbx }
/-- Change host channel `n`. -/
def modM (n : Fin 8) (f : MChan → MChan) (s : State) : State :=
  modMbx (fun x => { x with m := vmod x.m n f }) s
/-- Change Joryx channel `n`. -/
def modJ (n : Fin 4) (f : JChan → JChan) (s : State) : State :=
  modMbx (fun x => { x with j := vmod x.j n f }) s
/-- Change the power manager. -/
def modPower (f : Power → Power) (s : State) : State := { s with power := f s.power }
/-- Change host lane `k`. -/
def modLane (k : HLane) (f : Lane → Lane) (s : State) : State := { s with lanes := vmod s.lanes k f }
/-- Change the crossbar. -/
def modMap (f : MapSt → MapSt) (s : State) : State := { s with map := f s.map }
/-- Change the decoder pool. -/
def modPool (f : Pool → Pool) (s : State) : State := { s with pool := f s.pool }
/-- Change the pool's share of port `p`. -/
def modPp (p : LPort) (f : PoolPort → PoolPort) (s : State) : State :=
  modPool (fun x => { x with ports := vmod x.ports p f }) s
/-- Change engine `e`. -/
def modEng (e : Engine) (f : EngineSt → EngineSt) (s : State) : State :=
  modPool (fun x => { x with engines := vmod x.engines e f }) s
/-- Change the Dial. -/
def modDial (f : Dial → Dial) (s : State) : State := { s with dial := f s.dial }
/-- Change the monitor converter. -/
def modMon (f : Mon → Mon) (s : State) : State := { s with mon := f s.mon }
/-- Change the fault handler. -/
def modFaults (f : Faults → Faults) (s : State) : State := { s with faults := f s.faults }
/-- Change Joryx. -/
def modJrx (f : Joryx → Joryx) (s : State) : State := { s with jrx := f s.jrx }
/-- Change Joryx on port `p`. -/
def modJp (p : LPort) (f : JrxPort → JrxPort) (s : State) : State :=
  modJrx (fun x => { x with ports := vmod x.ports p f }) s
/-- Change the management ports. -/
def modTwi (f : Twi → Twi) (s : State) : State := { s with twi := f s.twi }
/-- Change the test access block. -/
def modTest (f : TestAcc → TestAcc) (s : State) : State := { s with test := f s.test }
/-- Change the pins. -/
def modPins (f : Pins → Pins) (s : State) : State := { s with pins := f s.pins }

/-- Apply an operation to every port in turn. -/
def eachPort (f : LPort → State → State) (s : State) : State := f 3 (f 2 (f 1 (f 0 s)))

/-- Apply an operation for every entry of a list in turn. -/
def eachOf {α : Type} (l : List α) (f : α → State → State) (s : State) : State := l.foldl (fun s x => f x s) s

/-- Apply an operation when a condition holds. -/
def doIf (c : Bool) (f : State → State) (s : State) : State := if c then f s else s

/-- Write words to bulk memory (R351). -/
def putBulk (off : Nat) (ws : List Word) (s : State) : State := { s with bulk := bulkWrite s.bulk off ws }

/-- The next free value, and the state with the counter advanced. -/
def freeWordAt (s : State) (i : Nat) : Word := Config.freeWord s.free i

/-- One free value has been taken. -/
def tookFree (s : State) : State := { s with free := s.free + 1 }

/-! ### Domains (R406 to R409, R435) -/

/-- State of a domain; AON is always ON (R407). -/
def domSt (s : State) : Dom → PState
  | .aon => .on | .ctl => s.power.ctl | .mon => s.power.mon | .map => s.power.map
  | .cv n => s.power.cv[n] | .ld n => s.power.ld[n] | .fq q => s.power.fq[q] | .ho q => s.power.ho[q]

/-- Set the state of a domain. -/
def setDom (d : Dom) (x : PState) (s : State) : State :=
  match d with
  | .aon => s
  | .ctl => modPower (fun p => { p with ctl := x }) s
  | .mon => modPower (fun p => { p with mon := x }) s
  | .map => modPower (fun p => { p with map := x }) s
  | .cv n => modPower (fun p => { p with cv := vset p.cv n x }) s
  | .ld n => modPower (fun p => { p with ld := vset p.ld n x }) s
  | .fq q => modPower (fun p => { p with fq := vset p.fq q x }) s
  | .ho q => modPower (fun p => { p with ho := vset p.ho q x }) s

/-- A domain is ON. -/
def isOn (s : State) (d : Dom) : Bool := domSt s d == .on

/-- Codes of R406. -/
def PState.code : PState → Nat
  | .on => 0 | .idle => 1 | .nap => 2 | .off => 3

/-- State of a code. -/
def PState.ofCode : Nat → PState
  | 0 => .on | 1 => .idle | 2 => .nap | _ => .off

/-- Codes of R428. -/
def Profile.code : Profile → Nat
  | .run => 0 | .standby => 1 | .dark => 2 | .deep => 3

/-- Profile of a code. -/
def Profile.ofCode : Nat → Profile
  | 0 => .run | 1 => .standby | 2 => .dark | _ => .deep

/-- Domain codes of R347. -/
def domCode : Dom → Nat
  | .aon => 0 | .ctl => 1 | .mon => 2 | .map => 3
  | .cv n => 0x10 + n.val | .ld n => 0x14 + n.val | .fq q => 0x18 + q.val | .ho q => 0x1C + q.val

/-- Bit of a domain in the DOMAIN_MASK of R429; AON has none. -/
def domBit : Dom → Nat
  | .cv n => n.val | .ld n => 4 + n.val | .fq q => 8 + q.val | .ho q => 12 + q.val
  | .map => 16 | .mon => 17 | .ctl => 18 | .aon => 19

/-- The nineteen domains that a request can move, in the order of DOMAIN_MASK. -/
def movable : List Dom :=
  [.cv 0, .cv 1, .cv 2, .cv 3, .ld 0, .ld 1, .ld 2, .ld 3, .fq 0, .fq 1, .fq 2, .fq 3,
   .ho 0, .ho 1, .ho 2, .ho 3, .map, .mon, .ctl]

/-- Domain states by profile (R408). -/
def Profile.state : Profile → Dom → PState
  | _, .aon => .on
  | .run, _ => .on
  | .standby, .fq _ => .nap | .standby, .ctl => .nap | .standby, _ => .idle
  | .dark, .cv _ => .off | .dark, .fq _ => .off | .dark, _ => .nap
  | .deep, .cv _ => .nap | .deep, .ld _ => .nap | .deep, .ctl => .nap | .deep, _ => .off

/-- DEVIATE of R409. -/
def deviate (s : State) : Bool := movable.any fun d => domSt s d != s.power.profile.state d

/-- PWR.STATE_A (R435). -/
def stateA (s : State) : Word :=
  wd ((movable.take 16).foldl (fun a d => a + (domSt s d).code * 4 ^ domBit d) 0)

/-- PWR.STATE_B (R435). -/
def stateB (s : State) : Word :=
  word [(31, 30, s.power.profile.code), (29, 28, s.power.wakeTo.code), (27, 27, b2n s.power.trans.isSome),
      (26, 26, b2n (deviate s)), (7, 6, s.power.map.code), (5, 4, s.power.mon.code), (3, 2, s.power.ctl.code)]

/-! ### References of the Dial (R291 to R293) and report stamps (R13, R467) -/

/-- The port of a reference. -/
def refPort (r : RefCode) : LPort := Fin.ofNat 4 r.val
/-- RX(LPn). -/
def rxRef (p : LPort) : RefCode := Fin.ofNat 8 p.val
/-- TX(LPn). -/
def txRef (p : LPort) : RefCode := Fin.ofNat 8 (4 + p.val)
/-- The reference is an RX reference. -/
def isRx (r : RefCode) : Bool := r.val < 4

/-- Validity of a reference (R293): RX while the port has PSFN lock, TX while LDn is ON. -/
def refValid (s : State) (r : RefCode) : Bool :=
  if isRx r then s.ports[refPort r].sf.lock else isOn s (.ld (refPort r))

/-- Present value of a reference, or its held count (R293). -/
def refCount (s : State) (r : RefCode) : Psfn :=
  let f := s.ports[refPort r].sf
  if isRx r then (if f.lock then f.fly else f.heldRx.getD f.fly)
  else (if isOn s (.ld (refPort r)) then f.tx else f.heldTx.getD f.tx)

/-- The reference is invalid and has no held count (step 7 of R310): it has never been valid. -/
def refUnheld (s : State) (r : RefCode) : Bool :=
  !refValid s r &&
    (if isRx r then s.ports[refPort r].sf.heldRx.isNone else s.ports[refPort r].sf.heldTx.isNone)

/-- The role of a port's pair is regenerating (R19). -/
def regen (s : State) (p : LPort) : Bool := s.map.regen[pairOf p]

/-- The paired reference of R292. -/
def paired (s : State) (r : RefCode) : RefCode :=
  let q := if regen s (refPort r) then mate (refPort r) else refPort r
  if isRx r then txRef q else rxRef q

/-- The boundary whose snapshot a report about a port takes, which also stamps it (R13). -/
def portRef (s : State) (p : LPort) : RefCode := if s.ports[p].sf.lock then rxRef p else txRef p

/-- The boundary whose snapshot a device-wide report takes, which also stamps it (R13). -/
def deviceRef (s : State) : RefCode :=
  match allPorts.find? (fun p => s.ports[p].tr.state == .traffic) with
  | some p => portRef s p
  | none => txRef 0

/-- The boundary at which a report qualifies (R13, R179, R349). -/
def reportRef (s : State) : ReportAt → RefCode
  | .port p => portRef s p | .tx p => txRef p | .device => deviceRef s

/-- Words 2 and 3 of a fault log entry (R466): a PSFN, its reference and validity. -/
def stampWords (n : Psfn) (r : RefCode) (v : Bool) : List Word :=
  [wd (psHi n), word [(31, 16, psLo n), (15, 13, r.val), (12, 12, b2n v)]]

/-- The microsecond count (R467). -/
def usec64 (s : State) : BitVec 64 := BitVec.ofNat 64 s.sys.usec

/-- ms since reset. -/
def uptimeMs (s : State) : Word := wd (s.sys.usec / 1000)

/-! ### Status codes and replies (R339, R346) -/

/-- Status codes of R346. -/
inductive Status where
  | ok | accepted | busy | waking | badOpcode | badParam | badLength | badCrc | badState
  | notPermitted | locked | refused | aborted | timeout | late | internal | resource
deriving DecidableEq, Repr

/-- Code of a status (R346). -/
def Status.code : Status → Nat
  | .ok => 0 | .accepted => 1 | .busy => 2 | .waking => 3 | .badOpcode => 0x10 | .badParam => 0x11
  | .badLength => 0x12 | .badCrc => 0x13 | .badState => 0x14 | .notPermitted => 0x20 | .locked => 0x21
  | .refused => 0x30 | .aborted => 0x31 | .timeout => 0x32 | .late => 0x33 | .internal => 0x40
  | .resource => 0x41

/-- The answer to a command: status, DETAIL and payload. -/
structure Answer where
  st      : Status
  detail  : Nat := 0
  payload : List Word := []
deriving DecidableEq, Repr

/-- OK with a payload. -/
def okay (payload : List Word) : Answer := { st := .ok, payload := payload }
/-- OK with DETAIL flags. -/
def okFlags (d : Nat) : Answer := { st := .ok, detail := d }
/-- BAD_PARAM naming a parameter word. -/
def badParam (i : Nat) : Answer := { st := .badParam, detail := i * 65536 }
/-- BAD_STATE for a reason that is neither a domain nor the device state. -/
def badState (d : Nat := 0) : Answer := { st := .badState, detail := 0xFF0000 + d }
/-- BUSY. -/
def busy (d : Nat := 0) : Answer := { st := .busy, detail := d }

/-- Codes of the device states (R359). -/
def DevState.code : DevState → Nat
  | .boot => 0 | .hold => 1 | .ready => 2 | .active => 3 | .degraded => 4 | .fault => 5

/-- BAD_STATE for the device state (R346). -/
def badDevState (s : State) : Answer := { st := .badState, detail := 0xFE0000 + s.sys.dev.code }

/-- Word 1 of a reply (R339). -/
def Answer.word1 (a : Answer) : Word := word [(31, 24, a.st.code), (23, 0, a.detail)]

/-- The words of a reply or event (R339, R340). -/
def answerWords (opcode tag : Nat) (a : Answer) : List Word :=
  let ws := word [(31, 16, opcode), (15, 8, tag), (7, 0, a.payload.length)] :: a.word1 :: a.payload
  ws ++ [crc32c ws]

/-- The first failing check of a list, each a condition and what it answers. -/
def firstFail : List (Bool × Answer) → Option Answer
  | [] => none
  | (c, a) :: cs => if c then some a else firstFail cs

/-- Parameter checks: each a failing condition and the index of its word; the lowest index is named. -/
def badAt (cs : List (Bool × Nat)) : Bool × Answer :=
  match (cs.filter (·.1)).map (·.2) with
  | [] => (false, badParam 0)
  | i :: is => (true, badParam (is.foldl min i))

/-! ### Queues and messages (13) -/

/-- Stamp of a message that a core posts (R370). -/
def coreStamp (s : State) (c : Fin 7) : Stamp :=
  { cls := 3, ident := BitVec.ofNat 11 c.val, gen := s.mbx.coreGen[c] }

/-- A message as queue words: word 0 carries the start mark. -/
def toQ (stamp : Stamp) (reqOf : Option (BitVec 3 × BitVec 4)) (hw : Bool) (ws : List Word) : List QWord :=
  ws.zipIdx.map fun x =>
    { w := x.1, start := x.2 == 0, stamp := stamp, reqOf := reqOf, hwAbort := hw, stale := false }

/-- Move words of the first waiting message into the queue of 16 words (R367, R368); a reply whose last
word has entered ends the command of its channel (R343). -/
def MChan.pour (c : MChan) : MChan :=
  match c.outWait with
  | [] => c
  | m :: rest =>
    let room := 16 - c.outQ.length
    let q := c.outQ ++ m.rest.take room
    if m.rest.length ≤ room then
      { c with outQ := q, outWait := rest, busy := c.busy && !m.endsCmd }
    else { c with outQ := q, outWait := { m with rest := m.rest.drop room, posted := m.posted + room } :: rest }

/-- READY bits that hold now (R381). -/
def readyBits (x : Mbx) : Nat :=
  (List.finRange 8).foldl (fun a n => if x.m[n].outQ.any (·.start) then a + 2 ^ n.val else a) 0

/-- Set doorbell bits (R381). -/
def ringBits (v : Nat) (s : State) : State := modMbx (fun x => { x with dbHost := x.dbHost ||| wd v }) s

/-- Set doorbell bit `b`. -/
def ring (b : Nat) (s : State) : State := ringBits (2 ^ b) s

/-- Post what fits of channel `n`'s waiting message; a Dial completion that begins sets DIAL_DONE (R308). -/
def pourM (n : Fin 8) (s : State) : State :=
  let c := s.mbx.m[n]
  let began := c.outQ.length < 16 && (c.outWait.head?.any fun m => m.isDial && m.posted == 0)
  let s := modM n MChan.pour s
  ringBits (readyBits s.mbx + (if began then 2 ^ 28 else 0)) s

/-- Post a message on the return queue of channel `n`; it waits behind messages that wait (R343, R375). -/
def postM (n : Fin 8) (m : OutMsg) (s : State) : State :=
  let idle := s.mbx.m[n].outWait.isEmpty
  let s := modM n (fun c => { c with outWait := c.outWait ++ [m] }) s
  if idle then pourM n s else s

/-- Post an event on M4 or M5 (R340). -/
def postEvent (n : Fin 8) (code tag : Nat) (a : Answer) (isDial : Bool) (s : State) : State :=
  postM n { rest := toQ (coreStamp s 0) none false (answerWords code tag a), posted := 0,
            endsCmd := false, isDial := isDial } s

/-! ### Joryx frames (R65, R67, R69) -/

/-- Header words of a frame (R65). -/
def Frame.h0 (f : Frame) : Word :=
  word [(31, 21, f.dest.toNat), (20, 10, f.src.toNat), (9, 5, f.hops.toNat), (4, 3, f.chan.toNat), (2, 0, f.type.toNat)]
/-- Second header word. -/
def Frame.h1 (f : Frame) : Word := word [(31, 16, f.seq.toNat), (10, 5, f.entries.toNat), (4, 0, f.body.length)]

/-- Count one of the Joryx counters of a port (R71). -/
def jrxCount (p : LPort) (i : Fin 6) (s : State) : State :=
  modJp p (fun x => { x with counters := vmod x.counters i (· + 1) }) s

/-- Queue a frame on a port's egress queue of 64 frames (R69). -/
def egress (p : LPort) (f : Frame) (s : State) : State :=
  if s.jrx.ports[p].egress.length < 64 then modJp p (fun x => { x with egress := x.egress ++ [f] }) s
  else jrxCount p 4 s

/-- Sequence number after `n` (R65): 0 comes only first. -/
def nextSeq (n : BitVec 16) : BitVec 16 := if n = 0xFFFF then 1 else n + 1

/-- A frame that the device originates, with its sequence number. -/
def newFrame (s : State) (dest : BitVec 11) (chan : BitVec 2) (type : BitVec 3) (entries : Nat) (hops : Nat)
    (body : List Word) : Frame :=
  { dest := dest, src := s.jrx.nodeId, hops := BitVec.ofNat 5 hops, chan := chan, type := type,
    seq := s.jrx.seq, entries := BitVec.ofNat 6 entries, body := body }

/-- The route to a node (R67). -/
def routeTo (s : State) (node : BitVec 11) : Option Route := s.jrx.routes.find? (·.node == node)

/-- Originate a domain frame towards a node. A device without an identifier sends none (R62). Without a route the frame
is discarded and counted on port `back`. (DESIGN CHOICE, notes/assumptions 132) -/
def sendFrame (dest : BitVec 11) (chan : BitVec 2) (type : BitVec 3) (body : List Word) (back : LPort)
    (s : State) : State :=
  if !s.jrx.nidValid then s
  else
    match routeTo s dest with
    | none => jrxCount back 2 s
    | some r =>
      let f := newFrame s dest chan type 0 30 body
      egress r.port f (modJrx (fun x => { x with seq := nextSeq x.seq }) s)

/-! ### Replies -/

/-- Words in an internal request queue. -/
def icWords (l : List IcMsg) : Nat := (l.map (·.words)).foldl (· + ·) 0

/-- Waiting requests enter an internal queue of 16 words while they fit (R367, R376). -/
def IcChan.fill (c : IcChan) : IcChan :=
  let r := c.reqWait.foldl (fun (acc : List IcMsg × List IcMsg) m =>
    if acc.2.isEmpty && icWords acc.1 + m.words ≤ 16 then (acc.1 ++ [m], []) else (acc.1, acc.2 ++ [m])) (c.req, [])
  { c with req := r.1, reqWait := r.2 }

/-- A command leaves the internal channel on which it was forwarded. -/
def icLeave (rq : Req) (ic : Vector IcChan 16) : Vector IcChan 16 :=
  let other := fun (m : IcMsg) => m.rq.src != rq.src
  ic.map fun c => IcChan.fill { c with req := c.req.filter other, reqWait := c.reqWait.filter other }

/-- A command that reached its core leaves SUP's record and the internal channel (R378). -/
def unforward (rq : Req) (s : State) : State :=
  modMbx (fun x => { x with
    forwards := x.forwards.filter fun f => f.rq.src != rq.src
    ic := icLeave rq x.ic }) s

/-- A command that its core has taken and answers later: SUP's record marks it (R378). -/
def taken (rq : Req) (s : State) : State :=
  modMbx (fun x => { x with
    forwards := x.forwards.map fun f => if f.rq.src == rq.src then { f with taken := true } else f
    ic := icLeave rq x.ic }) s

/-- The reply on the channel on which the command arrived (R25, R339, R348, R370). -/
def replyChan (c : Chan) (opcode : Nat) (rq : Req) (a : Answer) (hw : Bool) (s : State) : State :=
  let reqOf := some (rq.stamp.cls, rq.stamp.gen)
  match c with
  | .m n =>
    let ws := answerWords opcode rq.tag.toNat a
    postM n { rest := toQ (coreStamp s 0) reqOf hw ws, posted := 0, endsCmd := true, isDial := false } s
  | .j n =>
    let n' := a.payload.length + 3
    let a := if n' > 16 then { st := .resource, detail := n' } else a
    let s := modJ n (fun x => { x with busy := false }) s
    sendFrame rq.stamp.ident (BitVec.ofNat 2 n.val) 2 (answerWords opcode rq.tag.toNat a) s.jrx.fromPort[n] s

/-- EVENT_ID of R294. -/
def DialEv.id (e : DialEv) : Word := word [(31, 16, e.use.toNat), (15, 0, e.idx)]

/-- Change the events of the Dial. -/
def modEvs (f : DialEv → DialEv) (s : State) : State := modDial (fun d => { d with evs := d.evs.map f }) s

/-- Count one of the Dial's counters (R313). -/
def dialCount (i : Fin 10) (s : State) : State :=
  modDial (fun d => { d with counters := vmod d.counters i (· + 1) }) s

/-- The completion packet of R307 and R308, with the given status code, reason and CMD_STATUS; the
entry returns to the pool. -/
def completeWith (e : DialEv) (st : Status) (reason : Nat) (cmdStatus : Word) (s : State) : State :=
  let a : Answer :=
    { st := st, detail := reason * 65536
      payload := [e.id, wd (psHi e.atCount),
        word [(31, 16, psLo e.atCount), (15, 13, e.atRef.val), (12, 12, b2n e.late), (11, 11, b2n e.deferred),
            (10, 10, b2n e.fellBack)], cmdStatus] }
  let s := modDial (fun d => { d with evs := d.evs.filter fun x => x.idx != e.idx }) s
  match e.compl with
  | .none => s
  | .m5 => postEvent 5 0x6001 e.tag.toNat a true s
  | .m4 => postEvent 4 0x6001 e.tag.toNat a true s
  | .origin =>
    match e.stamp.cls, e.src with
    | 2, .chan (.j n) =>
      sendFrame e.stamp.ident (BitVec.ofNat 2 n.val) 3 (answerWords 0x6001 e.tag.toNat a) s.jrx.fromPort[n] s
    | 3, _ => s
    | _, _ => postEvent 4 0x6001 e.tag.toNat a true s

/-- Completion of an event whose stored command answered `a` (R307). -/
def completeEvent (e : DialEv) (a : Answer) (s : State) : State :=
  let good := a.st == .ok || a.st == .accepted
  let st := if good then (if e.late then .late else .ok) else a.st
  completeWith e st 0 a.word1 s

/-- The record of a blob's execution (R362): the first packet that is neither OK nor ACCEPTED stops it. -/
def blobResult (a : Answer) (s : State) : State :=
  modSys (fun y => { y with blobRun := y.blobRun.map fun r =>
    if r.failed.isSome then r
    else if a.st == .ok || a.st == .accepted then { r with index := r.index + 1 }
    else { r with failed := some (BitVec.ofNat 8 a.st.code, r.index) } }) s

/-- Answer a command where it came from: its channel (R25), its Dial event (R307) or the blob (R362). -/
def reply (opcode : Nat) (rq : Req) (a : Answer) (s : State) : State :=
  let s := unforward rq s
  match rq.src with
  | .chan c => replyChan c opcode rq a false s
  | .blob => blobResult a s
  | .dial i =>
    match s.dial.evs.find? (·.idx == i) with
    | some e => completeEvent e a s
    | none => s

/-- Completion of an EXACT event: an implicit schedule answers the command it came from, with DETAIL
bit 2 (R32, R300); any other event posts its completion. -/
def completeExact (e : DialEv) (a : Answer) (s : State) : State :=
  match e.implicit with
  | none => completeEvent e a s
  | some rq =>
    let s := modDial (fun d => { d with evs := d.evs.filter fun x => x.idx != e.idx }) s
    let good := a.st == .ok
    reply e.opcode.toNat rq (if good then { a with detail := a.detail ||| 4 } else a) s

/-- An aborted event completes with ABORTED and a reason (R307). The answer to an implicitly scheduled
command is ABORTED (DEDUCED, notes/assumptions 10). -/
def abortEvent (e : DialEv) (reason : Nat) (s : State) : State :=
  let e := { e with atCount := refCount s e.ref, atRef := e.ref }
  match e.implicit with
  | none => completeWith e .aborted reason 0 s
  | some rq =>
    reply e.opcode.toNat rq { st := .aborted, detail := reason }
      (modDial (fun d => { d with evs := d.evs.filter fun x => x.idx != e.idx }) s)

/-! ### Alarms (R456 to R458, R472) -/

/-- The words of an alarm instance. -/
def getAlarm (s : State) : AlarmKey → Alarm
  | .line n => s.alarms.line[n] | .conv n => s.alarms.conv[n] | .host k => s.alarms.host[k]
  | .pool => s.alarms.pool | .jrx n => s.alarms.jrx[n]

/-- Change the words of an alarm instance. -/
def modAlarm (key : AlarmKey) (f : Alarm → Alarm) (s : State) : State :=
  match key with
  | .line n => { s with alarms := { s.alarms with line := vmod s.alarms.line n f } }
  | .conv n => { s with alarms := { s.alarms with conv := vmod s.alarms.conv n f } }
  | .host k => { s with alarms := { s.alarms with host := vmod s.alarms.host k f } }
  | .pool => { s with alarms := { s.alarms with pool := f s.alarms.pool } }
  | .jrx n => { s with alarms := { s.alarms with jrx := vmod s.alarms.jrx n f } }

/-- Domain code and INDEX of an alarm instance (R457). -/
def alarmCode : AlarmKey → Nat × Nat
  | .line n => (0x14 + n.val, 0) | .conv n => (0x10 + n.val, 0)
  | .host k => (0x1C + k.val / 8, k.val % 8) | .pool => (4, 0) | .jrx n => (5, n.val)

/-- The reference that stamps an alarm: that of a line port's own domains (R467), else R13. -/
def alarmRef (s : State) : AlarmKey → RefCode
  | .line n => portRef s n | .conv n => portRef s n | _ => deviceRef s

/-- ALARM_EVT (R472) for a change of bit `b`. -/
def alarmEvent (key : AlarmKey) (b : Nat) (raised : Bool) (s : State) : State :=
  let r := alarmRef s key
  let c := alarmCode key
  let a : Answer := okay (word [(31, 24, c.1), (23, 16, c.2), (15, 11, b), (10, 10, b2n raised)]
    :: stampWords (refCount s r) r (refValid s r) ++ twoHi (usec64 s))
  ring 25 (postEvent 5 0xE001 0 a false s)

/-- Raise or clear alarm bit `b` (R458). Nothing happens when it already is so. -/
def setAlarm (key : AlarmKey) (b : Nat) (on : Bool) (s : State) : State :=
  let al := getAlarm s key
  if bit al.active b == on then s
  else
    let m := wd (2 ^ b)
    let s' := modAlarm key (fun x =>
      if on then { x with active := x.active ||| m, latched := x.latched ||| m }
      else { x with active := x.active &&& ~~~m }) s
    if bit al.mask b then s' else alarmEvent key b on s'

/-- Raise alarm bit `b` when its condition holds. An alarm whose chapter gives no clearing rule is cleared by
ALARM_DEFAULT_CLEAR alone (R456). -/
def raiseAlarm (key : AlarmKey) (b : Nat) (cond : Bool) (s : State) : State :=
  if cond then setAlarm key b true s else s

/-- The alarm is active. -/
def alarmOn (s : State) (key : AlarmKey) (b : Nat) : Bool := bit (getAlarm s key).active b

/-! ### Device states (R491, R492) and power events (R434) -/

/-- STATE_EVT for a move between device states. -/
def stateEvent (old : DevState) (s : State) : State :=
  let a := okay (word [(31, 29, s.sys.dev.code), (28, 26, old.code), (25, 22, s.sys.holdReason.toNat)]
    :: s.sys.configId :: twoHi (usec64 s))
  ring 31 (postEvent 5 0xE003 0 a false s)

/-- Move to a device state; HOLD_REASON is 0 outside HOLD (R492, R493). STARTED is set in ACTIVE and
DEGRADED (DEDUCED, notes/assumptions 11). -/
def moveDev (new : DevState) (reason : Nat) (s : State) : State :=
  let old := s.sys.dev
  let s := modSys (fun y => { y with
    dev := new, holdReason := if new == .hold then BitVec.ofNat 4 reason else 0
    started := new == .active || new == .degraded }) s
  stateEvent old s

/-- PWR_EVT with an OUTCOME (R434). -/
def pwrEvent (outcome : Nat) (s : State) : State :=
  ring 27 (postEvent 5 0xE004 0 (okay [stateA s, stateB s, word [(31, 30, outcome)]]) false s)

end Sys2Proof.Machine
end

