-- ==== Sys2Proof/Machine/Flags.lean ====
section
/-! DEFINITION. Conditions the part derives from its state: mute sources and the DRV_EN outputs (R89 to
R96), INT_N and FAULT_N (R382, R464). -/

namespace Sys2Proof.Machine

/-- Outputs are started: the device is ACTIVE or DEGRADED (R493). -/
def outputsOn (s : State) : Bool := (s.sys.dev == .active || s.sys.dev == .degraded) && s.sys.started

/-- A loop counts as settled for R36 and R94 (R447, R449). -/
def BiasLoop.isSettled (l : BiasLoop) : Bool :=
  match l.st with
  | .off => true | .fixed => true | .settled => true | .drift => true
  | .settling => false | .unsettled => false

/-- Loop `i` of port `p` (R36, R73). -/
def loopOf (s : State) (p : LPort) (i : Nat) : BiasLoop := s.mon.loops[Fin.ofNat 24 (6 * p.val + i)]

/-- All six bias loops of a port are settled (R36). -/
def biasSettled (s : State) (p : LPort) : Bool := (List.range 6).all fun i => (loopOf s p i).isSettled

/-- A loop of the port is in DRIFT and the port mutes on drift (R450). -/
def driftMute (s : State) (p : LPort) : Bool :=
  s.mon.muteOnDrift[p] && (List.range 6).any fun i => (loopOf s p i).st == .drift

/-- The lost-bank mute of R424. -/
def lostMute (s : State) (p : LPort) : Bool := s.power.muteLd.getLsbD p.val || s.power.muteCv.getLsbD p.val

/-- A LINE_DIGITAL loopback runs on the port (R514). -/
def loopDigital (s : State) (p : LPort) : Bool := s.map.loopDigital.getLsbD p.val

/-- The conditions of R94. -/
def drvCond (s : State) (p : LPort) : Bool :=
  let f := s.ports[p].front
  outputsOn s && isOn s (.cv p) && (f.locked || f.changing) && biasSettled s p && !f.ldrvOff && !f.faultDrv

/-- The mute sources of port `p`, one for each row of the table of R90 (R517); a running t_DRV counts
with DRV_EN_n (R95). -/
def muteSrc (s : State) (p : LPort) : List Bool :=
  let f := s.ports[p].front
  let st := s.ports[p].tr.state
  [!s.pins.muteClear, f.lmute, !f.drvEn || f.drvFalling || f.tDrv.isSome, !f.locked || f.changing,
   !isOn s (.cv p), !outputsOn s, lostMute s p,
   st == .down || st == .muted || driftMute s p || f.keying || loopDigital s p || f.faultMute]

/-- Some mute source is active (R90). -/
def anyMute (s : State) (p : LPort) : Bool := (muteSrc s p).any id

/-- Settling time t_DRV in 10 µs (R95, R176). -/
def tDrvOf (s : State) (p : LPort) : Nat := fld s.ports[p].tx.cfg[1] 31 22 + 1

/-- Bring the outputs of port `p` in line with their conditions: a source that is active mutes at once
(R90); a failed condition of R94 mutes and makes DRV_EN_n about to fall (R95); conditions that hold make it
rise at once and start t_DRV (R95, R96). A mute is never ended here (R92). -/
def refreshPort (p : LPort) (s : State) : State :=
  let c := drvCond s p
  let s := modFront p (fun f =>
    if c then
      (if f.drvEn then f else { f with drvEn := true, drvFalling := false, tDrv := some (tDrvOf s p, s.sys.usec) })
    else if f.drvEn then { f with drvFalling := true, muted := true, tDrv := none }
    else { f with tDrv := none }) s
  let m := anyMute s p
  modFront p (fun f => { f with muted := f.muted || m }) s

/-- Bring the outputs of every port in line with their conditions. -/
def refresh (s : State) : State := eachPort refreshPort s

/-- A mute ends at a TX(LPn) boundary when no source is active (R92). -/
def endMute (p : LPort) (s : State) : State :=
  let m := anyMute s p
  modFront p (fun f => { f with muted := m }) s

/-- INT_N is driven low (R382). -/
def intLow (s : State) : Bool := (s.mbx.dbHost &&& ~~~s.mbx.dbMask) != 0

/-- FAULT_N is driven low: some unit is held failed (R464). -/
def faultLow (s : State) : Bool := s.faults.units.toList.any (·.held)

end Sys2Proof.Machine
end

