-- ==== Sys2Proof/Machine/Span.lean ====
section
/-! DEFINITION. Format descriptors (R49), the training message queue (R224), commit proposals (R230,
R231) and what a port forgets when training is cancelled (R234). -/

namespace Sys2Proof.Machine

/-! ### Descriptors (R49) -/

/-- RATE of a descriptor. -/
def dRate (d : Word) : Nat := fld d 31 22
/-- FEC of a descriptor. -/
def dFec (d : Word) : Nat := fld d 21 20
/-- MOD of a descriptor. -/
def dMod (d : Word) : Nat := fld d 19 16
/-- ENTROPY of a descriptor. -/
def dEnt (d : Word) : Nat := fld d 15 8
/-- NLC_SET of a descriptor. -/
def dSet (d : Word) : Nat := fld d 7 5
/-- NLC_ON of a descriptor. -/
def dOn (d : Word) : Bool := bit d 4
/-- GEN of a descriptor. -/
def dGen (d : Word) : Nat := fld d 3 0

/-- The fields that decide how a superframe is demapped agree (R51). -/
def sameFmt (a b : Word) : Bool := a.toNat / 256 == b.toNat / 256

/-- A descriptor with other Complication fields and GEN (R148). -/
def withNlc (d : Word) (set : Nat) (on : Bool) (gen : Nat) : Word :=
  word [(31, 8, d.toNat / 256), (7, 5, set), (4, 4, b2n on), (3, 0, gen)]

/-- A descriptor with another RATE (R516). -/
def withRate (d : Word) (rate : Nat) : Word := word [(31, 22, rate), (21, 0, d.toNat)]

/-- A descriptor with another FEC field (R209). -/
def withFec (d : Word) (fec : Nat) : Word := word [(31, 22, dRate d), (21, 20, fec), (19, 0, d.toNat)]

/-- The acquisition format at a rate, with the GEN of the last commit (R165, R230). -/
def acqDesc (rate gen : Nat) : Word := word [(31, 22, rate), (21, 20, 2), (19, 16, 15), (3, 0, gen)]

/-- The working format after reset at a rate (R516). -/
def resetDesc (rate : Nat) : Word := word [(31, 22, rate), (21, 20, 1), (15, 8, 64)]

/-- Superframe period in units of 1/(240 + RATE) ps: 1,048,576 symbols at (240 + RATE)/4 GBd. -/
def sfPs4 : Nat := 1048576 * 4000

/-- Superframe period in ps, rounded down (R314). -/
def sfPs (rate : Nat) : Nat := sfPs4 / (240 + rate)

/-! ### Training messages (R223, R224) -/

/-- Queue a training message; unused body words are zero. -/
def sendMsg (p : LPort) (type : BitVec 4) (body : List Word) (s : State) : State :=
  modTr p (fun t => { t with queue := t.queue ++ [{ type := type, body := body }] }) s

/-- Superframes in a round trip, rounded up (R231). -/
def rttSfs (t : Train) : Nat := (t.rtt.toNat * 100000000 * (240 + t.rate.toNat) + sfPs4 - 1) / sfPs4

/-- Body of COMMIT_ACK, COMMIT_NAK and COMMIT_CANCEL: N[15:0], GEN and a reason (R224). -/
def ackBody (n : Psfn) (gen reason : Nat) : List Word := [word [(31, 16, psLo n), (15, 12, gen), (11, 8, reason)]]

/-- LEAD of R231. -/
def lead (t : Train) : Nat := max 4096 (rttSfs t + 2048)

/-- The transmitting end proposes a commit (R231). N lies at least LEAD ahead of TX; how much further is a
free value. GEN is one more than that of the last commit (R230). (DESIGN CHOICE, notes/assumptions 89) -/
def propose (p : LPort) (desc : Word) (g a : BitVec 8) (kind : BitVec 2) (s : State) : State :=
  let t := s.ports[p].tr
  let n := psfnAdd s.ports[p].sf.tx (lead t + Config.freeNat s.free % 2 ^ 46 : Nat)
  let d := withNlc desc (dSet desc) (dOn desc) ((dGen t.txFmt + 1) % 16)
  let s := modTr p (fun t => { t with txCommit := some { n := n, desc := d, g := g, a := a, kind := kind } }) s
  tookFree (sendMsg p 4 [d, wd (psHi n), word [(31, 16, psLo n), (15, 8, g.toNat), (7, 0, a.toNat)],
    word [(31, 30, kind.toNat)]] s)

/-- Propose a commit of a known N: that of a primed commit (R243). -/
def proposeAt (p : LPort) (n : Psfn) (desc : Word) (kind : BitVec 2) (s : State) : State :=
  let t := s.ports[p].tr
  let d := withNlc desc 0 false ((dGen t.txFmt + 1) % 16)
  let s := modTr p (fun t => { t with txCommit := some { n := n, desc := d, g := 0, a := 32, kind := kind } }) s
  sendMsg p 4 [d, wd (psHi n), word [(31, 16, psLo n), (7, 0, 32)], word [(31, 30, kind.toNat)]] s

/-- The values that a commit of a kind carries for the transmitted direction of port `p`: descriptor, g
and α (R148, R149, R230, R237, R243). -/
def commitOf (s : State) (p : LPort) (desc : Word) (kind : BitVec 2) : Word × BitVec 8 × BitVec 8 :=
  let x := s.ports[p]
  let off := (withNlc desc 0 false 0, (0 : BitVec 8), (32 : BitVec 8))
  if kind = 3 then
    (withNlc desc x.nlc.tx.set.toNat x.nlc.tx.on 0, x.nlc.tx.g, x.nlc.tx.share)
  else if kind = 1 then
    match x.tr.tuneTx with
    | some t => if t.best.1 = 0 then off else (withNlc desc t.set.toNat true 0, t.best.1, t.best.2.1)
    | none => off
  else off

/-- Repeat the pending transmit commit with a new N (R231, R234). A primed commit has the N of its rate change and
is not repeated (R243). -/
def repropose (p : LPort) (s : State) : State :=
  match s.ports[p].tr.txCommit with
  | some c =>
    let s := modTr p (fun t => { t with txCommit := none, announce := none }) s
    if c.kind = 2 then s else propose p c.desc c.g c.a c.kind s
  | none => s

/-- TUNE_PLAN of a search (R224). -/
def planBody (t : Tune) : List Word :=
  let pair := fun (i : Nat) => match t.cands[i]? with
    | some c => c.1.toNat * 256 + c.2.toNat
    | none => 0
  [word [(31, 29, t.set.toNat), (28, 26, t.cands.length)], wd (psHi t.start), word [(31, 16, psLo t.start)]] ++
    [0, 2, 4].map fun i => word [(31, 16, pair i), (15, 0, pair (i + 1))]

/-- Send the present plan with a new START, at least LEAD ahead (R231, R235). -/
def sendPlan (p : LPort) (t : Tune) (s : State) : State :=
  let start := psfnAdd s.ports[p].sf.tx (lead s.ports[p].tr + Config.freeNat s.free % 2 ^ 46 : Nat)
  let t := { t with start := start, acked := false, index := 0 }
  tookFree (sendMsg p 8 (planBody t) (modTr p (fun x => { x with tuneTx := some t }) s))

/-- The event is a switch that port `p`'s training entered: a commit or TUNE switch. -/
def DialKind.trains (k : DialKind) (p : LPort) : Bool :=
  match k with
  | .fmtTx q _ _ _ _ => q == p | .fmtRx q _ _ _ _ => q == p
  | .tuneTx q _ _ _ => q == p | .tuneRx q _ _ _ => q == p
  | _ => false

/-- The event switches the symbol rate of port `p`. -/
def DialKind.rates (k : DialKind) (p : LPort) : Bool :=
  match k with
  | .rateTx q _ => q == p | .rateRx q _ => q == p
  | _ => false

/-- An owner withdraws its own events (R307 reason 4); they have no completion channel. -/
def dropEvs (f : DialEv → Bool) (s : State) : State :=
  modDial (fun d => { d with evs := d.evs.filter fun e => !f e }) s

/-- The event belongs to a primed commit (R243). -/
def DialKind.isPrimed (k : DialKind) : Bool :=
  match k with
  | .fmtTx _ _ _ _ k => k == 2 | .fmtRx _ _ _ _ k => k == 2
  | _ => false

/-- A port cancels its pending switches and plans (R221, R234), those of primed commits not when `primed`. -/
def cancelSwitches (primed : Bool) (p : LPort) (s : State) : State :=
  let keep := fun (c : Option Commit) => c.filter fun c => primed && c.kind == 2
  modTr p (fun t => { t with txCommit := keep t.txCommit, rxCommit := keep t.rxCommit, retryCommit := keep t.retryCommit
                             waitChoice := t.waitChoice.filter fun w => primed && w.2 == 2
                             announce := if (keep t.txCommit).isSome then t.announce else none
                             tuneTx := none, tuneRx := none, retune := false, retuneDue := false })
    (dropEvs (fun e => e.kind.trains p && !(primed && e.kind.isPrimed)) s)

/-- The rate change pending at a port: its own record, or that of the pair's other port (R241). The flag tells
whether PATH arrived on the other port. -/
def rateChange (s : State) (p : LPort) : Option (RateChange × Bool) :=
  match s.ports[p].tr2.rate_ with
  | some r => some (r, false)
  | none => if regen s p then s.ports[mate p].tr2.rate_.map fun r => (r, true) else none

/-- `k` switches of the change that concerns port `p` have been taken or cancelled. -/
def rateTaken (p : LPort) (k : Nat) (s : State) : State :=
  match rateChange s p with
  | some (r, other) =>
    modTr2 (if other then mate p else p) (fun t => { t with
      rate_ := if r.left ≤ k && r.rq.isNone then none else some { r with left := r.left - k } }) s
  | none => s

/-- The event is a rate switch of port `p` that waits. -/
def ratesWaiting (p : LPort) (e : DialEv) : Bool := e.kind.rates p && e.phase != .released

/-- A port that enters DOWN, MUTED or ACQUIRE cancels its rate switches (R234). -/
def dropRates (p : LPort) (s : State) : State :=
  let k := s.dial.evs.countP (ratesWaiting p)
  if k = 0 then s else rateTaken p k (dropEvs (ratesWaiting p) s)

/-- A port that enters DOWN, MUTED or ACQUIRE cancels all its pending switches and plans, and what R233 remembers of past
switches goes with the formats that it leaves. -/
def cancelTrain (p : LPort) (s : State) : State :=
  modTr2 p (fun t => { t with alternate := none, altCancelled := false, switchAt := none, cancelAt := none })
    (dropRates p (cancelSwitches false p s))

/-- Drop the scheduled candidate switches of one side. -/
def dropPlan (p : LPort) (tx : Bool) (s : State) : State :=
  dropEvs (fun e => match e.kind with
    | .tuneTx q _ _ _ => tx && q == p
    | .tuneRx q _ _ _ => !tx && q == p
    | _ => false) s

/-- The receiving end drops a plan: the first one with its search, the second one without its results (R234, R235). -/
def dropRxPlan (p : LPort) (s : State) : State :=
  modTr p (fun t => { t with tuneRx := t.tuneRx.bind fun x => if x.stage = 0 then none else some { x with cands := [] } })
    (dropPlan p false s)

/-- A switch aborted by the Dial counts COMMIT_ABORT (R234). -/
def countAbort (p : LPort) (s : State) : State := modTr2 p (fun t => { t with commitAbort := t.commitAbort + 1 }) s

/-- A switch was aborted by the Dial: its end sends COMMIT_CANCEL and counts COMMIT_ABORT; the
transmitting end repeats the commit, or the plan with all its candidates (R234, R235). The other candidates of a plan go
with the first one aborted. A rate switch is not repeated. (DEDUCED, notes/assumptions 142) -/
def switchAborted (k : DialKind) (s : State) : State :=
  match k with
  | .fmtTx p _ _ _ _ =>
    match s.ports[p].tr.txCommit with
    | some c => repropose p (sendMsg p 7 (ackBody c.n (dGen c.desc) 0) (countAbort p s))
    | none => s
  | .fmtRx p _ _ _ _ =>
    match s.ports[p].tr.rxCommit with
    | some c => modTr p (fun t => { t with rxCommit := none }) (sendMsg p 7 (ackBody c.n (dGen c.desc) 0) (countAbort p s))
    | none => s
  | .tuneTx p _ _ _ =>
    match s.ports[p].tr.tuneTx.filter fun x => x.acked && decide (x.stage < 2) with
    | some x => sendPlan p x (dropPlan p true (sendMsg p 7 (ackBody x.start (dGen s.ports[p].tr.txNow) 0) (countAbort p s)))
    | none => countAbort p s
  | .tuneRx p _ _ _ =>
    match s.ports[p].tr.tuneRx.filter fun x => !x.cands.isEmpty with
    | some x => dropRxPlan p (sendMsg p 7 (ackBody x.start (dGen s.ports[p].tr.rxNow) 0) (countAbort p s))
    | none => countAbort p s
  | .rateTx p _ => rateTaken p 1 s
  | .rateRx p _ => rateTaken p 1 s
  | .stored => s

end Sys2Proof.Machine
end

