-- ==== Sys2Proof/Machine/Escapement.lean ====
section
/-! DEFINITION. The Dial's pool and what happens to its events when references are lost, return or jump
(R293 to R306). -/

namespace Sys2Proof.Machine

/-- First pool entry at or after `k` that is not in use; at most `fuel` are tried (R295). (DESIGN CHOICE, notes/assumptions 50) -/
def freeEntry (evs : List DialEv) : Nat → Nat → Nat
  | 0, k => k
  | fuel + 1, k =>
    if evs.any (·.idx == k % 65536) then freeEntry evs fuel (k % 65536 + 1) else k % 65536

/-- Use count of a pool entry's next use (R294): one more than its last. (DESIGN CHOICE, notes/assumptions 14) -/
def useOf (d : Dial) (i : Nat) : BitVec 16 :=
  match d.uses.find? (·.1 == i) with
  | some u => u.2 + 1
  | none => 1

/-- Enter an event. The manual does not say which free pool entry is taken: a free value chooses. -/
def enterEvent (e : DialEv) (s : State) : State :=
  let i := freeEntry s.dial.evs (s.dial.evs.length + 1) (Config.freeNat s.free)
  let u := useOf s.dial i
  let e := { e with idx := i, use := u, seq := s.dial.nextSeq }
  tookFree (modDial (fun d => { d with
    evs := d.evs ++ [e], nextSeq := d.nextSeq + 1
    uses := (i, u) :: d.uses.filter (·.1 != i) }) s)

/-- An internal event of a port controller: EXACT and HOLD, without a completion (R297). -/
def internalEvent (s : State) (k : DialKind) (r : RefCode) (n : Psfn) (p : LPort) : DialEv :=
  { idx := 0, use := 0, target := n, ref := r, exact := true, fallback := false, compl := .none,
    opcode := 0, pktTag := 0, params := [], kind := k, src := .blob,
    stamp := coreStamp s (Fin.ofNat 7 (1 + p.val)), tag := 0, internal := true, seq := 0,
    phase := .staged, stagingDone := true }

/-- Mark an event HELD (R303). -/
def DialEv.hold (e : DialEv) : DialEv := { e with phase := .held, wasStaged := e.phase == .staged || e.wasStaged }

/-- The event waits: pending, held or staged. -/
def DialEv.waits (e : DialEv) : Bool := e.phase != .released

/-- What the loss of reference `r` does to the events that `pick` selects (R303, R304): a FALLBACK event moves to
the paired reference when that is valid and the offset is known; every other event that waits is HELD and counts
DIAL_HELD. -/
def loseEvs (pick : DialEv → Bool) (r : RefCode) (s : State) : State :=
  let q := paired s r
  let ok := refValid s q
  let d := s.dial.offset[r]
  let moves := fun e : DialEv => pick e && e.ref == r && e.waits && e.fallback && !e.fellBack && ok && d.isSome
  let holds := fun e : DialEv => pick e && e.ref == r && e.phase != .released && e.phase != .held && !moves e
  let nm := s.dial.evs.countP moves
  let nh := s.dial.evs.countP holds
  modDial (fun x => { x with
    evs := x.evs.map fun e =>
      if moves e then { e with ref := q, target := e.target + d.getD 0, fellBack := true, phase := .pending }
      else if holds e then e.hold else e
    counters := vmod (vmod x.counters 6 (· + wd nm)) 9 (· + wd nh) }) s

/-- A reference has become invalid. -/
def refLost (r : RefCode) (s : State) : State := loseEvs (fun _ => true) r s

/-- The reference is valid again without a jump beyond 64: held events wait for their targets (R303). -/
def unhold (r : RefCode) (s : State) : State :=
  modEvs (fun e => if e.ref == r && e.phase == .held then
    { e with phase := if e.wasStaged then .staged else .pending } else e) s

/-- Abort one event that waits, with a reason, and count (R306). -/
def jumpAbort (reason : Nat) (e : DialEv) (s : State) : State :=
  let s := dialCount 4 s
  if e.internal && e.kind != .stored then
    switchAborted e.kind (dropEvs (fun x => x.idx == e.idx) s)
  else abortEvent e reason s

/-- A jump of a reference from `e` to `new` (R305, R306); `restart` is a TX that restarts at 0 (R293). -/
def refJump (r : RefCode) (new old : Psfn) (restart : Bool) (s : State) : State :=
  let j := psfnDiff new old
  if restart || 64 < j || j < -64 then
    let es := s.dial.evs.filter fun e => e.ref == r && e.waits
    eachOf es (jumpAbort (if restart then 3 else 2)) s
  else unhold r s

/-- Remember the offset of a reference and its paired reference at a boundary where both are valid
(R304). -/
def keepOffset (r : RefCode) (s : State) : State :=
  let q := paired s r
  if refValid s r && refValid s q then
    let d := refCount s q - refCount s r
    modDial (fun x => { x with offset := vset (vset x.offset r (some d)) q (some (-d)) }) s
  else s

end Sys2Proof.Machine
end

