-- ==== Sys2Proof/Machine/Groups.lean ====
section
/-! DEFINITION. What a port's states share with Complication and the transmit DSP: groups and their conditions (R137 to
R140), the digital gain's target and the skews of the DAC lanes (R172, R173). -/

namespace Sys2Proof.Machine

/-! ### Groups (R137 to R140) -/

/-- Ports declared in the group of port `p`; none when `p` is in no group. -/
def groupOf (s : State) (p : LPort) : List LPort :=
  allPorts.filter fun q => s.ports[p].nlc.group != 0 && s.ports[q].nlc.group == s.ports[p].nlc.group

/-- Signed centre of a port, in 6.25 GHz from 193.1 THz. -/
def centre (n : Nlc) : Int := sgn 12 n.cf.toNat

/-- Insert a port by its centre. -/
def insertByCf (s : State) (p : LPort) : List LPort → List LPort
  | [] => [p]
  | q :: l => if centre s.ports[p].nlc ≤ centre s.ports[q].nlc then p :: q :: l else q :: insertByCf s p l

/-- Adjacent slots meet edge to edge; a slot of width SLOT_M × 12.5 GHz reaches SLOT_M steps to each side. -/
def edgesMeet (s : State) : List LPort → Bool
  | p :: q :: l =>
    centre s.ports[p].nlc + (s.ports[p].nlc.slotM.toNat : Int) ==
      centre s.ports[q].nlc - (s.ports[q].nlc.slotM.toNat : Int) && edgesMeet s (q :: l)
  | _ => true

/-- ROLLOFF in use on the transmit side. -/
def rolloff (t : Tx) : Nat := fld t.cfg[0] 25 22

/-- The grid conditions of R139 for the group of port `p`. -/
def gridOk (s : State) (p : LPort) : Bool :=
  let l := (groupOf s p).foldl (fun l q => insertByCf s q l) []
  let lo : Int := match l.head? with
    | some q => centre s.ports[q].nlc - (s.ports[q].nlc.slotM.toNat : Int)
    | none => 0
  let hi : Int := match l.getLast? with
    | some q => centre s.ports[q].nlc + (s.ports[q].nlc.slotM.toNat : Int)
    | none => 0
  edgesMeet s l && decide (hi - lo ≤ 192) &&
    l.all fun q => decide ((240 + s.ports[q].tr.rate.toNat) * (100 + rolloff s.ports[q].tx) ≤ 5000 * s.ports[q].nlc.slotM.toNat)

/-- All members heard one unique ID (R140). -/
def peerOk (s : State) (p : LPort) : Bool :=
  let ns := (groupOf s p).map fun q => s.jrx.ports[q].neigh
  ns.all fun n => n.valid && ns.all fun m => m.uid == n.uid

/-- Cross terms are allowed in the group of port `p`. -/
def crossOk (s : State) (p : LPort) : Bool :=
  gridOk s p && (!s.ports[p].nlc.peerCheck || peerOk s p)

/-- NLC_GRID and NLC_PEER of one port (R139, R140). -/
def nlcEvalPort (p : LPort) (s : State) : State :=
  let n := s.ports[p].nlc
  let has := n.group != 0
  raiseAlarm (.line p) 5 (has && n.peerCheck && !peerOk s p) (setAlarm (.line p) 4 (has && !gridOk s p) s)

/-- The conditions of R139 and R140 are evaluated for every port: a declaration, a rate, a roll-off or a
neighbour has changed. -/
def nlcEval (s : State) : State := eachPort nlcEvalPort s

/-! ### Gain and skew (R172, R173) -/

/-- DIG_RMS in 0.1 dB below 0 dBFS (R172, R176). -/
def digRms (t : Tx) : Int := 80 + 5 * (fld t.cfg[1] 21 16 : Int)

/-- In DOWN the digital gain is set to its target at once (R172). -/
def gainSnap (t : Tx) : Tx :=
  { t with gain := Vector.ofFn fun i => t.gain[i] + 10 * ((t.rms[i].toNat : Int) - digRms t)
           rms := Vector.replicate 4 (BitVec.ofInt 8 (digRms t)) }

/-- Host SKEW of lane `i`, in 25 fs. -/
def skewOf (t : Tx) (i : Fin 4) : Int :=
  sgn 16 (if i.val < 2 then fld t.cfg[3] (31 - 16 * (i.val % 2)) (16 - 16 * (i.val % 2))
    else fld t.cfg[4] (31 - 16 * (i.val % 2)) (16 - 16 * (i.val % 2)))

/-- The Regulator's share of lane `i`: polarisation skew of Y, I/Q skew of Q (R173, R315). -/
def skewShare (c : Cal) (i : Fin 4) : Int :=
  (if 2 ≤ i.val then c.working.pol else 0) + (if i.val = 1 then c.working.iqX else if i.val = 3 then c.working.iqY else 0)

/-- Host and Regulator skew of lane `i` together (R173). -/
def skewSum (x : PortSt) (i : Fin 4) : Int := x.tx.skew[i] + skewShare x.cal i

/-- The applied skews: the sums, clamped to ±20 ps (R173). -/
def appliedOf (x : PortSt) : Vector Int 4 := Vector.ofFn fun i => clampI (-800) 800 (skewSum x i)

/-- What the transmitter does on entry to DOWN: the digital gain is set to its target (R172), and a running skew ramp ends
at its target (R178). -/
def txDown (p : LPort) (s : State) : State :=
  let s := modTx p (fun t => { gainSnap t with skew := Vector.ofFn (skewOf t) }) s
  modPort p (fun x => { x with tx := { x.tx with applied := appliedOf x } }) s

end Sys2Proof.Machine
end

