-- ==== Sys2Proof/Machine/Ports.lean ====
section
/-! DEFINITION. How a line port moves between the states of R217, what loss of lock and of signal do
(R58, R124), and how acquisition attempts start (R134). -/

namespace Sys2Proof.Machine

/-- Codes of the port states (R131). -/
def PortState.code : PortState → Nat
  | .down => 0 | .acquire => 1 | .train => 2 | .traffic => 3 | .holdover => 4 | .muted => 5

/-! ### Clients of a port -/

/-- Host lanes of a client type at a rate code (R266): none when the table has no column. -/
def lanesOf (type rate : Nat) : Option Nat :=
  match type, rate with
  | 0, 1 => some 1 | 0, 2 => some 2
  | 1, 0 => some 1 | 1, 1 => some 2 | 1, 2 => some 4
  | 2, 0 => some 2 | 2, 1 => some 4 | 2, 2 => some 8
  | 3, 0 => some 4 | 3, 1 => some 8
  | 4, 0 => some 8
  | _, _ => none

/-- Number of 100G slots of a client type (R266). -/
def slotsOf (type : Nat) : Nat := 2 ^ type

/-- Change the clients that a test picks. -/
def modClients (t : Client → Bool) (f : Client → Client) (s : State) : State :=
  modMap (fun m => { m with clients := m.clients.map fun c => if t c then f c else c }) s

/-- A client's egress fails or recovers (R270); CLIENT_RX_FAIL is raised when it fails. -/
def setRxFail (first : HLane) (on : Bool) (s : State) : State :=
  raiseAlarm (.host first) 8 on
    (modClients (·.first == first) (fun c => { c with rxFail := on, egress := c.egress && !on }) s)

/-- Every client received on the port fails (R270). -/
def failClients (p : LPort) (s : State) : State :=
  eachOf (s.map.clients.filter fun c => c.port == p && c.rxOn) (fun c => setRxFail c.first true) s

/-! ### The decoder pool's share of a port (R195, R198, R200, R202) -/

/-- A port joins the pool in ACQUIRE: C_LAT is latched and the port is cautious (R195, R200). -/
def poolEnter (p : LPort) (s : State) : State :=
  modPp p (fun x => { x with
    inPool := true, cautious := 16, shortRun := if x.inPool then x.shortRun else 0
    cLat := if regen s p then 24 else x.ceilMax }) s

/-- Withdraw the codewords that `out` picks from the engines, whose credits return; a codeword staged behind one of them
starts (R197, R198, R203). -/
def withdraw (out : Job → Bool) (s : State) : State :=
  modPool (fun x => { x with engines := x.engines.map fun e =>
    let keep := fun (j : Option Job) => j.filter fun j => !out j
    let r := keep e.running
    let t := keep e.staged
    if r.isSome then { e with staged := t } else { e with running := t, staged := none } }) s

/-- Codewords of an open superframe that are not closed. -/
def OpenSf.openCount (o : OpenSf) : Nat := o.count - o.closed.length

/-- Discard the open codewords of a port and count them (R198). -/
def discardOpen (p : LPort) (s : State) : State :=
  modPp p (fun x => { x with
    discard := x.discard + wd ((x.openSfs.map OpenSf.openCount).foldl (· + ·) 0)
    openSfs := [] }) (withdraw (fun j => j.port == p) s)

/-- A port is cautious for its next 16 superframes (R200). -/
def beCautious (p : LPort) (s : State) : State := modPp p (fun x => { x with cautious := 16 }) s

/-- A port leaves the pool (R198, R202). -/
def poolLeave (p : LPort) (s : State) : State :=
  setAlarm (.line p) 9 false (modPp p (fun x => { x with inPool := false, report := none, shortRun := 0 })
    (discardOpen p s))

/-! ### States (R217) -/

/-- Move a port to a state. A port that leaves TRAFFIC ends LINE_PAYLOAD (R514), and the clients
received on it fail (R270). -/
def setPort (p : LPort) (st : PortState) (s : State) : State :=
  let was := s.ports[p].tr.state
  let s := modTr p (fun t => { t with state := st }) s
  if was == .traffic && st != .traffic then
    failClients p (modMap (fun m =>
      { m with loopPayload := m.loopPayload &&& ~~~(BitVec.ofNat 4 (2 ^ p.val)) }) s)
  else s

/-- What a receiver forgets with its acquisition: alignment, the equaliser, and what its estimates had averaged (DESIGN
CHOICE, notes/assumptions 136). -/
def Rx.drop (r : Rx) : Rx :=
  { r with
    running := false, foStop := false, frameAligned := false, eq := .off, erasing := false
    acc := { berN := r.acc.berN, coded := r.acc.coded, corr := r.acc.corr, uncorr := r.acc.uncorr }
    tapHist := [], dgdRun := 0 }

/-- Superframe alignment is lost (R43, R58, R71). -/
def unalign (p : LPort) (s : State) : State :=
  modSf p (fun f => { f with
    alignLoss := if f.aligned then f.alignLoss + 1 else f.alignLoss, aligned := false, goodRun := 0, misRun := 0, badRun := 0, fmtRun := 0, rxBips := none }) s

/-- PSFN lock ends: RX(LPn) becomes invalid (R58, R293), a forwarding stops (R60) and the other port's
clock holds (R30). -/
def dropLock (p : LPort) (s : State) : State :=
  if s.ports[p].sf.lock then
    let s := modSf p (fun f => { f with lock := false, heldRx := some f.fly, goodRun := 0, misRun := 0 }) s
    let s := if regen s p then
        modFront (mate p) (fun f => { f with holdover := true, slewAt := s.sys.usec })
          (modSf (mate p) (fun f => { f with kRegen := none }) s)
      else s
    refLost (rxRef p) s
  else s

/-- The receiver has a signal at its input: light at the converters, or the port's own transmit samples in a LINE_DIGITAL
loopback, which ignores the ADC input (R134, R514). -/
def lit (s : State) (p : LPort) : Bool := s.ports[p].front.light || loopDigital s p

/-- The conditions of R134; no signal is seen during a foreground calibration run (R319). -/
def canAcquire (s : State) (p : LPort) : Bool :=
  let f := s.ports[p].front
  s.ports[p].tr.state != .down && isOn s (.cv p) && isOn s (.ld p) && f.locked && !f.changing && lit s p &&
    s.ports[p].cal.run != .foreground

/-- Start an acquisition attempt when the conditions of R134 hold: stored words take effect (R128)
and CD_COVER clears (R111). ACQ_STEP is that of the running attempt: the step that a failed one reached stays only until
the next starts (DEDUCED, notes/assumptions 137). -/
def startAttempt (p : LPort) (s : State) : State :=
  if canAcquire s p then
    let s := modRx p (fun r => { r.drop with
      cfg := Vector.ofFn fun i => (r.next[i]).getD r.cfg[i], next := Vector.replicate 8 none
      running := true, step := 1, acqStart := r.acqStart + 1 }) s
    setAlarm (.line p) 1 false s
  else s

/-- The conditions of R134 have come to hold: an attempt starts unless one runs, lock is held, or the port seeks lock
again in the alignment that it keeps (R124). -/
def maybeAcquire (p : LPort) (s : State) : State :=
  let x := s.ports[p]
  if x.rx.running || x.sf.lock || (x.rx.frameAligned && x.sf.aligned) then s else startAttempt p s

/-- The receiver stops: the port is DOWN or its domain sleeps. -/
def rxIdle (p : LPort) (s : State) : State :=
  modRx p (fun r => { r.drop with step := 0 }) (unalign p (dropLock p s))

/-- Training messages start anew (R224): the queue is cleared and the next message starts a new exchange
with ACK_VALID 0. SEQ runs on, so that the far end does not take it for a repeat (DEDUCED, notes/assumptions 29). -/
def Train.newExchange (t : Train) : Train :=
  { t with
    queue := [], seq := if t.sentHead then t.seq + 1 else t.seq, farSeq := none, sentHead := false, capAcked := false, probeAcked := false,
    farCap := none, capSent := none, farProbe := false, probed := false,
    tuneTxDone := false, tuneRxDone := false, fmtTxDone := false, fmtRxDone := false,
    finTxDone := false, finRxDone := false, finalSnr := none, retune := false,
    retuneDue := false, fmtAge := 0, rxSkipped := false
    verifyRuns := 0, verified := false, farVerified := false, farReqSlots := 0,
    strainRun := 0, srdiRun := 0, srdiZero := 0 }

/-- The receive side of Complication is off, without a fade: no member's terms are applied and its gain is 0 (R149, R156,
R157). -/
def Nlc.rxOff (n : Nlc) : Nlc :=
  { n with
    rx := { n.rx with on := false }, rxFade := none, rxNext := none, gainRx := 0, gainN := 0, gainSum := 0
    members := n.members.map fun m => { m with active := false, fade := none } }

/-- The transmit side of Complication is off, without a fade (R149). -/
def Nlc.txOff (n : Nlc) : Nlc := { n with tx := { n.tx with on := false }, txFade := none, txNext := none }

/-- The acquisition format on both directions (R134, R165, R230). -/
def acqDescs (p : LPort) (s : State) : State :=
  modTr p (fun t => { t with
    txNow := acqDesc t.rate.toNat (dGen t.txFmt), rxNow := acqDesc t.rate.toNat (dGen t.rxFmt) }) s

/-- The acquisition format on both directions, with Complication bypassed on both sides (R134, R149, R165, R230). -/
def acqFormats (p : LPort) (s : State) : State := modNlc p (fun n => n.rxOff.txOff) (acqDescs p s)

/-- Enter DOWN (R217, R172, R178): the transmitter is muted and the receiver idle. -/
def enterDown (p : LPort) (s : State) : State :=
  let s := setPort p .down (cancelTrain p s)
  let s := modTr p (fun t => { t.newExchange with phase := .none, retryHold := false, waitCal := false }) s
  let s := modTr2 p (fun t => { t with lightAt := none }) s
  refresh (txDown p (acqFormats p (rxIdle p (poolLeave p s))))

/-- Enter MUTED (R217): the transmitter is muted; the receiver acquires outside the pool (R219). A set that was selected
in DOWN stays selected (R155); from any other state Complication goes off with the format that used it. -/
def enterMuted (p : LPort) (s : State) : State :=
  let was := s.ports[p].tr.state
  let s := setPort p .muted (cancelTrain p s)
  let s := modTr p (fun t => { t.newExchange with phase := .none, retryHold := false, waitCal := false }) s
  let s := modTr2 p (fun t => { t with lightAt := none }) s
  let s := poolLeave p s
  maybeAcquire p (refresh (if was == .down then acqDescs p s else acqFormats p s))

/-- Enter ACQUIRE (R217, R220, R224, R195): the acquisition format with STRAIN 1. -/
def enterAcquire (p : LPort) (s : State) : State :=
  let s := setPort p .acquire (cancelTrain p s)
  let s := modTr p (fun t => { t.newExchange with phase := .acquire }) s
  let now := if lit s p then some s.sys.usec else none
  let s := modTr2 p (fun t => { t with lightAt := now }) s
  maybeAcquire p (refresh (poolEnter p (acqFormats p s)))

/-- A foreground calibration run of the port is running or waits for its retry (R319). -/
def calForeground (s : State) (p : LPort) : Bool :=
  s.ports[p].cal.run == .foreground || s.ports[p].cal.retry == some .foreground

/-- START: ACQUIRE waits for a foreground run of the Regulator (R319). -/
def startAcquire (p : LPort) (s : State) : State :=
  if calForeground s p then modTr p (fun t => { t with waitCal := true }) s else enterAcquire p s

/-- HOLDOVER begins within 4,096 superframes after the count `at_` (R233). -/
def recently (s : State) (p : LPort) (at_ : Option Psfn) : Bool :=
  at_.any fun n => decide (psfnDiff (refCount s (rxRef p)) n < 4096)

/-- The two formats between which a HOLDOVER that begins now alternates, the one tried first ahead, and whether they
come from a cancelled switch (R233). The later of the two causes decides. -/
def alternation (s : State) (p : LPort) : Option (Word × Word) × Bool :=
  let t := s.ports[p].tr
  let t2 := s.ports[p].tr2
  if recently s p t2.cancelAt then (some (t2.cancelFmt, t.rxNow), true)
  else if recently s p t2.switchAt then (some (t.rxNow, t2.prevFmt), false)
  else (none, false)

/-- Enter HOLDOVER (R217, R233, R234, R238). `primed` keeps the commits of a rate change (R243;
DEDUCED, notes/assumptions 30). When the alternation of R233 applies, the first format tried is the new one. -/
def enterHoldover (primed : Bool) (p : LPort) (s : State) : State :=
  let alt := alternation s p
  let s := setPort p .holdover (cancelSwitches primed p s)
  let s := modTr p (fun t => { t with rxNow := match alt.1 with
    | some a => a.1
    | none => t.rxNow }) s
  modTr2 p (fun x => { x with
    holdoverEvt := x.holdoverEvt + 1, altCancelled := alt.2
    alternate := alt.1.map fun a => (a.1, a.2, true) }) s

/-- Enter TRAFFIC from TRAIN (R220, R221, R257). -/
def enterTraffic (p : LPort) (s : State) : State :=
  let s := setPort p .traffic s
  let s := modTr p (fun t => { t with phase := .track, fails := 0, sawStrain0 := false, strainRun := 0 }) s
  modTr2 p (fun t => { t with
    trainTime := match t.lightAt with
      | some u => wd ((s.sys.usec - u) / 1000)
      | none => t.trainTime }) s

/-! ### Failures of training (R221) -/

/-- RETRIES of the policy (R256). -/
def retriesOf (t : Train) : Nat := fld t.policy[4] 23 20

/-- Training fails with a reason of LAST_FAIL (R221). `sendAbort` is false for FAR_ABORT and FAR_RESTART;
`counts` is false for RESTART (R255). -/
def trainFail (p : LPort) (reason : Nat) (sendAbort counts : Bool) (s : State) : State :=
  let s := modTr2 p (fun t => { t with trainFail := t.trainFail + 1 }) s
  let s := modTr p (fun t => { t with
    lastFail := BitVec.ofNat 4 reason, fails := if counts then t.fails + 1 else t.fails }) s
  let t := s.ports[p].tr
  let limit := counts && retriesOf t != 0 && decide (retriesOf t ≤ t.fails)
  if reason = 2 || limit then enterMuted p s
  else
    let s := modTr p (fun t => { t with retryHold := true }) (enterAcquire p s)
    if sendAbort then sendMsg p 13 [word [(31, 28, reason)]] s else s

/-- A port in TRAIN, TRAFFIC or HOLDOVER fails; a port in any other state is left as it is. -/
def failIfTraining (p : LPort) (reason : Nat) (sendAbort : Bool) (s : State) : State :=
  match s.ports[p].tr.state with
  | .train => trainFail p reason sendAbort true s
  | .traffic => trainFail p reason sendAbort true s
  | .holdover => trainFail p reason sendAbort true s
  | .down => s
  | .acquire => s
  | .muted => s

/-! ### Loss of lock and of signal -/

/-- PSFN lock is lost (R58): TRAFFIC becomes HOLDOVER; TRAIN fails, with reason COMMIT after a receive
switch that has not passed (R232). -/
def lockLoss (p : LPort) (s : State) : State :=
  if s.ports[p].sf.lock then
    let s := dropLock p s
    match s.ports[p].tr.state with
    | .traffic => enterHoldover false p s
    | .train =>
      let swi : Bool := s.ports[p].tr.rxCommit.any (·.switched)
      trainFail p (if swi then 7 else 10) true true s
    | .down => s | .acquire => s | .holdover => s | .muted => s
  else s

/-- Loss of signal (R124): LOS counts, lock drops and a new attempt starts at once, in HINT mode around
the last tracked CD and offset; before any CD has been tracked, in the configured mode (DEDUCED, notes/assumptions 138). -/
def lossOfSignal (p : LPort) (s : State) : State :=
  let s := modRx p (fun r => { r.drop with los := r.los + 1, hint := r.tracked }) s
  maybeAcquire p (lockLoss p (unalign p s))

end Sys2Proof.Machine
end

