-- ==== Sys2Proof/Machine/CalOps.lean ====
section
/-! DEFINITION. The Regulator's operations: items, interpolation, targets, runs and tap steps (R315 to
R331). -/

namespace Sys2Proof.Machine

/-! ### Items (R315) -/

/-- Kinds of item: 0 timing, 1 gain, 2 offset, 3 ADC lane skew, 4 DAC skew, 5 duty, 6 polarisation skew,
7 transmit I/Q skew. One tap step, in the unit in which a measurement is given: fs, 0.001 % or 1/320 LSB. -/
def calStep : Nat → Int
  | 1 => 5 | 2 => 10 | _ => 25

/-- Range of an item in steps. -/
def calLimit : Nat → Int
  | 0 => 120 | 1 => 600 | 2 => 128 | 3 => 1200 | 4 => 120 | 5 => 80 | _ => 800

/-- Tolerance between the two measurements, in the measurement's unit. -/
def calTol : Nat → Int
  | 1 => 50 | 2 => 96 | _ => 60

/-- Bit of an item kind in ITEMS, counted from the field's lowest bit. -/
def calBit : Nat → Nat
  | 0 => 5 | 1 => 4 | 2 => 4 | 3 => 3 | 4 => 2 | 5 => 2 | 6 => 1 | _ => 0

/-- Combine two sets instance by instance; the result has the shape of the first. -/
def calMap2 (f : Nat → Int → Int → Int) (a b : CalVals) : CalVals :=
  let g := fun k (x y : List Int) => x.zipIdx.map fun e => f k e.1 (y.getD e.2 0)
  { timing := g 0 a.timing b.timing, gain := g 1 a.gain b.gain, offset := g 2 a.offset b.offset
    adcXq := f 3 a.adcXq b.adcXq, adcYi := f 3 a.adcYi b.adcYi, adcYq := f 3 a.adcYq b.adcYq
    skew := g 4 a.skew b.skew, duty := g 5 a.duty b.duty, pol := f 6 a.pol b.pol
    iqX := f 7 a.iqX b.iqX, iqY := f 7 a.iqY b.iqY }

/-- Map a set instance by instance. -/
def calMap1 (f : Nat → Int → Int) (a : CalVals) : CalVals := calMap2 (fun k x _ => f k x) a a

/-- All instances with their kinds. -/
def calEntries (a : CalVals) : List (Nat × Int) :=
  a.timing.map (0, ·) ++ a.gain.map (1, ·) ++ a.offset.map (2, ·) ++
  [(3, a.adcXq), (3, a.adcYi), (3, a.adcYq)] ++ a.skew.map (4, ·) ++ a.duty.map (5, ·) ++
  [(6, a.pol), (7, a.iqX), (7, a.iqY)]

/-- Item kind `k` is covered by an ITEMS mask. -/
def calCovers (items : BitVec 6) (k : Nat) : Bool := items.getLsbD (calBit k)

/-- The covered instances of `b`, the others of `a`. -/
def calMerge (items : BitVec 6) (a b : CalVals) : CalVals :=
  calMap2 (fun k x y => if calCovers items k then y else x) a b

/-! ### Interpolation and targets (R323, R324) -/

/-- Fine unit of residuals and interpolated values: every quotient of R323 is a whole number of
1/calUnit (ten times the least common multiple of the distances of two points in °C). -/
def calUnit : Int := 525738428779425652732431071040954194588144594017680000

/-- The nearest valid points around a temperature of `t`/40 °C: below or at, and above. -/
def calAround (c : Cal) (t : Int) : Option CalPoint × Option CalPoint :=
  let ps := c.points.toList.filter (·.valid)
  ((ps.filter fun x => 4 * x.temp ≤ t).getLast?, (ps.filter fun x => t < 4 * x.temp).head?)

/-- I(T) at `t`/40 °C, in 1/(4·calUnit) of a step; none without a valid point (R323). -/
def calInterp (c : Cal) (t : Int) : Option CalVals :=
  let scale := calMap1 (fun _ x => 4 * calUnit * x)
  match calAround c t with
  | (none, none) => none
  | (some a, none) => some (scale a.vals)
  | (none, some b) => some (scale b.vals)
  | (some a, some b) =>
    some (calMap2 (fun _ x y =>
      4 * calUnit * x + (y - x) * (t - 4 * a.temp) * (calUnit / (b.temp - a.temp))) a.vals b.vals)

/-- Targets (R324): I(T) + D rounded to the nearest step; the last accepted values without a valid
point. -/
def calTargets (c : Cal) : CalVals :=
  match calInterp c c.temp with
  | none => c.accepted
  | some i => calMap2 (fun _ x d => rdiv (x + 4 * d) (4 * calUnit)) i c.resid

/-- Evaluate the targets again; the working values of a port whose LDn is not ON follow at once (R330). -/
def calRetarget (p : LPort) (s : State) : State :=
  let ld := isOn s (.ld p)
  modCal p (fun c => let t := calTargets c; { c with target := t, working := if ld then c.working else t }) s

/-- The working values are set to the targets at once (R329). -/
def calSnap (p : LPort) (s : State) : State :=
  modCal p (fun c => let t := calTargets c; { c with target := t, working := t }) s

/-! ### Runs (R317 to R321, R327, R328) -/

/-- A run is running, or a rejected run waits for its retry (DEDUCED, notes/assumptions 20). -/
def calBusy (s : State) (p : LPort) : Bool := s.ports[p].cal.run != .none || s.ports[p].cal.retry.isSome

/-- All items. -/
def calAll : BitVec 6 := 63

/-- A run begins. In a foreground run the receiver sees no signal (R319). -/
def calBegin (p : LPort) (kind : CalRunKind) (items : BitVec 6) (trigger : BitVec 3) (s : State) : State :=
  let now := s.sys.usec
  let s := modCal p (fun c => { c with
    run := kind, items := items, trigger := trigger, retry := none, rotated := 0, startUsec := now, runT := 0, runN := 0 }) s
  if kind == .foreground then modRx p Rx.drop (unalign p (lockLoss p s)) else s

/-- A trigger starts a run unless one is running (R327). -/
def calStart (p : LPort) (kind : CalRunKind) (items : BitVec 6) (trigger : BitVec 3) (s : State) : State :=
  if calBusy s p then s
  else calBegin p kind items trigger (modCal p (fun c => { c with rejects := 0 }) s)

/-- The interval of a sample-clock change ends when the synthesizer has locked and no foreground run goes on
(R84). -/
def endChange (p : LPort) (s : State) : State :=
  if s.ports[p].front.changing && s.ports[p].front.locked && s.ports[p].cal.run != .foreground then
    maybeAcquire p (refresh (modFront p (fun f => { f with changing := false }) s))
  else s

/-- A change of port state that waited for a foreground run takes place (R319). -/
def calWaited (p : LPort) (s : State) : State :=
  let s := endChange p s
  if s.ports[p].tr.waitCal && s.ports[p].tr.state == .muted then
    enterAcquire p (modTr p (fun t => { t with waitCal := false }) s)
  else maybeAcquire p (modTr p (fun t => { t with waitCal := false }) s)

/-- A run is aborted or abandoned (R328): nothing is applied, CAL_ABORT counts, CAL_DONE is set. -/
def calAbort (p : LPort) (s : State) : State :=
  if calBusy s p then
    let now := s.sys.usec
    calWaited p (ring 29 (modCal p (fun c => { c with
      run := .none, retry := none, last := 3, abort := c.abort + 1
      runTime := BitVec.ofNat 16 ((now - c.startUsec) / 100) }) s))
  else s

/-- Change of symbol rate or sample clock (R34, R327): pending steps are discarded, a running run is
abandoned and a new one starts. `clock` is true for a sample-clock change. -/
def calClock (p : LPort) (clock : Bool) (s : State) : State :=
  let s := calAbort p s
  let c := s.ports[p].cal
  let s := modCal p (fun c => { c with target := c.working }) s
  let s := if clock then calSnap p s else s
  if clock && !(c.points.toList.any (·.valid)) && !c.everAccepted then calStart p .foreground calAll 3 s
  else calStart p .background calAll 3 s

/-- The two results of one instance disagree (R320). -/
def calBad (k : Nat) (a b : Int) : Bool := decide (calTol k < a - b) || decide (calTol k < b - a)

/-- Clamp a measured value to its item's range (R315). -/
def calClamp (k : Nat) (v : Int) : Int := clampI (-(calLimit k * calStep k)) (calLimit k * calStep k) v

/-- The accepted value in steps: the mean, rounded to the nearest step (R320). -/
def calValue (k : Nat) (a b : Int) : Int := rdiv (calClamp k a + calClamp k b) (2 * calStep k)

/-- Items that disagree in a run's results, as an ITEMS mask. -/
def calRejects (items : BitVec 6) (a b : CalVals) : BitVec 6 :=
  (((calEntries a).zip (calEntries b)).filter fun e => calCovers items e.1.1 && calBad e.1.1 e.1.2 e.2.2).foldl
    (fun m e => m ||| BitVec.ofNat 6 (2 ^ calBit e.1.1)) 0

/-- Some covered value lies outside its range. -/
def calClamped (items : BitVec 6) (a b : CalVals) : Bool :=
  (calEntries a ++ calEntries b).any fun e => calCovers items e.1 && calClamp e.1 e.2 != e.2

/-- The point that an accepted run writes (R325): the nearest within ±3.0 °C, the lower number on a tie. -/
def calNearest (c : Cal) (tRun : Int) : Option (Fin 8) :=
  let d := fun (i : Fin 8) => (c.points[i].temp - tRun).natAbs
  ((List.finRange 8).filter fun i => d i ≤ 30).foldl
    (fun best i => match best with
      | none => some i
      | some j => if d i < d j then some i else some j) none

/-- What an accepted run with values `v` (steps) writes into the table, or D (R325). -/
def calStore (c : Cal) (v : CalVals) (tRun : Int) : Cal :=
  let old := calInterp c (4 * tRun)
  match calNearest c tRun with
  | some i =>
    let x := c.points[i]
    let moved := match old, calInterp c (4 * x.temp) with
      | some r, some o => calMap2 (fun _ a d => rdiv (4 * calUnit * a + d) (4 * calUnit)) v
          (calMap2 (fun _ a b => a - b) o r)
      | _, _ => v
    let base := if x.valid then x.vals else c.working
    { c with points := vset c.points i
               { x with valid := true, tRun := tRun, vals := calMerge c.items base moved }
             resid := calMap1 (fun _ _ => 0) c.resid }
  | none =>
    match old with
    | none => c
    | some r => { c with resid := calMerge c.items c.resid
                           (calMap2 (fun _ a i => a * calUnit - i / 4) v r) }

/-- T_RUN in 0.1 °C: the mean of T over the evaluations made during the run; the T at hand in a run that saw none
(R325; DEDUCED, notes/assumptions 103). -/
def calRunT (c : Cal) : Int := if c.runN = 0 then rdiv c.temp 4 else rdiv c.runT (4 * c.runN)

/-- An accepted run (R320, R325, R330): a foreground run's values apply in one step. (DEDUCED, notes/assumptions 13) -/
def calAccepted (p : LPort) (first second : CalVals) (s : State) : State :=
  let now := s.sys.usec
  let c := s.ports[p].cal
  let tRun := calRunT c
  let v := calMap2 calValue first second
  let clamped := calClamped c.items first second
  let fore := c.run == .foreground
  let c' := calStore c v tRun
  let s := modCal p (fun _ => { c' with
    accepted := calMerge c.items c.accepted v
    working := if fore then calMerge c.items c.working v else c.working
    run := .none, last := 1, rejects := 0, tLast := tRun, refs := c.sensors, hasRef := true
    runTime := BitVec.ofNat 16 ((now - c.startUsec) / 100), everAccepted := true
    accept := c.accept + 1, range := if clamped then c.range + 1 else c.range }) s
  let s := setAlarm (.conv p) 5 clamped (setAlarm (.conv p) 4 false (calRetarget p s))
  let s := if fore then
      modPower (fun x => { x with muteCv := x.muteCv &&& ~~~(BitVec.ofNat 4 (2 ^ p.val)) }) s
    else s
  calWaited p (refresh (ring 29 s))

/-- A rejected run (R320, R321): retried after 10 ms, given up after the third rejection in a row. -/
def calRejected (p : LPort) (bad : BitVec 6) (s : State) : State :=
  let now := s.sys.usec
  let s := modCal p (fun c => { c with
    retry := if c.rejects + 1 < 3 then some c.run else none, run := .none, last := 2
    rejects := c.rejects + 1, rejectItems := bad, reject := c.reject + 1
    runTime := BitVec.ofNat 16 ((now - c.startUsec) / 100) }) s
  if s.ports[p].cal.retry.isSome then endChange p s
  else
    let s := modCal p (fun c => { c with refs := c.sensors, hasRef := true, unstable := c.unstable + 1 }) s
    calWaited p (ring 29 (setAlarm (.conv p) 4 true s))

/-! ### Pacing (R318, R330) -/

/-- One tap step from a working value towards its target. -/
def tap (w t : Int) : Int := if w < t then w + 1 else if t < w then w - 1 else w

/-- One instance with several items takes at most one step, of the next item in turn that has one
pending (R330). Returns the new values and the next turn. -/
def turnStep (n turn : Nat) (w t : List Int) : List Int × Nat :=
  match ((List.range n).map fun i => (turn + i) % n).find? fun i => w.getD i 0 != t.getD i 0 with
  | none => (w, turn)
  | some i => (lset w i (tap (w.getD i 0) (t.getD i 0)), (i + 1) % n)

/-- The tap steps of one pacing boundary (R330). -/
def calPace (c : Cal) : Cal :=
  let w := c.working
  let t := c.target
  let adc := (List.range 520).map fun i => turnStep 3 (c.turn.getD i 0)
    [w.timing.getD i 0, w.gain.getD i 0, w.offset.getD i 0]
    [t.timing.getD i 0, t.gain.getD i 0, t.offset.getD i 0]
  let dac := (List.range 256).map fun i => turnStep 2 (c.dturn.getD i 0)
    [w.skew.getD i 0, w.duty.getD i 0] [t.skew.getD i 0, t.duty.getD i 0]
  { c with
    working := { timing := adc.map (·.1.getD 0 0), gain := adc.map (·.1.getD 1 0), offset := adc.map (·.1.getD 2 0)
                 skew := dac.map (·.1.getD 0 0), duty := dac.map (·.1.getD 1 0)
                 adcXq := tap w.adcXq t.adcXq, adcYi := tap w.adcYi t.adcYi, adcYq := tap w.adcYq t.adcYq
                 pol := tap w.pol t.pol, iqX := tap w.iqX t.iqX, iqY := tap w.iqY t.iqY }
    turn := adc.map (·.2), dturn := dac.map (·.2) }

/-- A tap step is pending on some instance. -/
def Cal.stepping (c : Cal) : Bool := c.working != c.target

/-- The largest number of steps still pending on any instance (R336). -/
def Cal.pendingSteps (c : Cal) : Nat :=
  ((calEntries (calMap2 (fun _ a b => a - b) c.working c.target)).map (·.2.natAbs)).foldl max 0

/-- Exchange `k` of spare rotation on one lane (R318): the two spares take positions 2k and 2k + 1, and the
two freed sub-ADCs become the spares. -/
def exchange (k : Nat) (l : List Nat) : List Nat :=
  let a := l.getD (2 * k) 0
  let b := l.getD (2 * k + 1) 0
  lset (lset (lset (lset l (2 * k) (l.getD 128 0)) (2 * k + 1) (l.getD 129 0)) 128 a) 129 b

/-- Spare rotation at one pacing boundary (R318; DEDUCED, notes/assumptions 21). -/
def calRotate (c : Cal) : Cal :=
  if c.run == .background && (calCovers c.items 0 || calCovers c.items 1) && c.rotated < 64 then
    { c with order := c.order.map (exchange c.rotated), rotated := c.rotated + 1 }
  else c

/-- The Regulator's work at a pacing boundary of port `p` (R33, R330, R331). -/
def calBoundary (p : LPort) (s : State) : State :=
  modCal p (fun c => calRotate (if c.stepping then calPace c else c)) s

end Sys2Proof.Machine
end

