-- ==== Sys2Proof/Machine/FaultOps.lean ====
section
/-! DEFINITION. Detection of faults: units, safe actions and the handler's slots (R459 to R463), and the
decoder engines that a fault takes out of service (R205). -/

namespace Sys2Proof.Machine

/-- Code of a core (R370). -/
def coreCode : Core → Nat
  | .sup => 0 | .pc n => 1 + n.val | .hc => 5 | .jg => 6

/-- Index of a core's generation. -/
def coreIx (c : Core) : Fin 7 := Fin.ofNat 7 (coreCode c)

/-- Place of a fault unit in the handler's table, in domain-code order but for the cores, which are last. -/
def unitIx : FUnit → Fin 26
  | .aon => 0 | .mon => 1 | .map => 2 | .fq q => Fin.ofNat 26 (3 + q.val) | .cv n => Fin.ofNat 26 (7 + n.val)
  | .ld n => Fin.ofNat 26 (11 + n.val) | .ho q => Fin.ofNat 26 (15 + q.val)
  | .core c => Fin.ofNat 26 (19 + coreCode c)

/-- Domain code of a unit (R459). -/
def unitDom : FUnit → Nat
  | .aon => 0 | .mon => 2 | .map => 3 | .fq q => 0x18 + q.val | .cv n => 0x10 + n.val
  | .ld n => 0x14 + n.val | .ho q => 0x1C + q.val | .core _ => 1

/-- The unit to which a domain belongs; CTL's faults are those of its cores. -/
def domUnit : Dom → FUnit
  | .aon => .aon | .ctl => .core .sup | .mon => .mon | .map => .map
  | .cv n => .cv n | .ld n => .ld n | .fq q => .fq q | .ho q => .ho q

/-- Units in domain-code order, cores by their code. -/
def unitOrder : List FUnit :=
  [.aon, .core .sup, .core (.pc 0), .core (.pc 1), .core (.pc 2), .core (.pc 3), .core .hc, .core .jg, .mon, .map,
   .cv 0, .cv 1, .cv 2, .cv 3, .ld 0, .ld 1, .ld 2, .ld 3, .fq 0, .fq 1, .fq 2, .fq 3, .ho 0, .ho 1, .ho 2, .ho 3]

/-- Recovery state of a unit. -/
def unitSt (s : State) (u : FUnit) : UnitSt := s.faults.units[unitIx u]

/-- Change the recovery state of a unit. -/
def modUnit (u : FUnit) (f : UnitSt → UnitSt) (s : State) : State :=
  modFaults (fun x => { x with units := vmod x.units (unitIx u) f }) s

/-- The unit is held failed. -/
def unitHeld (s : State) (u : FUnit) : Bool := (unitSt s u).held

/-- A fault code starts a recovery: SUPPLY and BANK_LOST do not (R462). -/
def codeActs (code : BitVec 8) : Bool := code != 3 && code != 9

/-- A detected fault of the unit waits for the handler. -/
def unitDetected (s : State) (u : FUnit) : Bool :=
  [s.faults.primary, s.faults.second].any fun r => r.any fun x => x.unit == u && codeActs x.code

/-- The unit is out of service: its safe action or its recovery action stands (R460). -/
def unitDown (s : State) (u : FUnit) : Bool :=
  unitDetected s u || (unitSt s u).recovering == 1 || unitHeld s u || (unitSt s u).ovDown

/-! ### Engines -/

/-- Quad of an engine (R203). -/
def quadOf (e : Engine) : Fin 4 := Fin.ofNat 4 (e.val / 16)

/-- An engine can receive work: its quad is ON and in service, and it is neither fenced nor untested. -/
def engineUp (s : State) (e : Engine) : Bool :=
  isOn s (.fq (quadOf e)) && !s.pool.draining.getLsbD (quadOf e).val && !unitDown s (.fq (quadOf e)) &&
    !s.pool.engines[e].fenced && !s.pool.engines[e].testing

/-- A codeword goes back to be dispatched elsewhere, unless its superframe has closed it: as a repeated dispatch ahead of
others of equal deadline when `again` (R205), as any other ready codeword when not (R207). -/
def putBack (again : Bool) (j : Option Job) (s : State) : State :=
  match j with
  | none => s
  | some j =>
    modPp j.port (fun x => { x with openSfs := x.openSfs.map fun o =>
      if o.id == j.sf && !o.closed.contains j.cw then
        { o with out := o.out.erase j.cw, again := if again then o.again ++ [j.cw] else o.again }
      else o }) s

/-- Take both codewords of an engine back (R205). -/
def takeBack (e : Engine) (s : State) : State :=
  let x := s.pool.engines[e]
  modEng e (fun x => { x with running := none, staged := none }) (putBack true x.staged (putBack true x.running s))

/-- Engines of a quad. -/
def enginesOf (q : Fin 4) : List Engine := (List.finRange 64).filter fun e => quadOf e == q

/-- The engines of a held-failed quad count as fenced (R460). -/
def engineFenced (s : State) (e : Engine) : Bool := s.pool.engines[e].fenced || unitHeld s (.fq (quadOf e))

/-- All engines of some quad are fenced (R206). -/
def quadFailed (s : State) : Bool := (List.finRange 4).any fun q => (enginesOf q).all fun e => engineFenced s e

/-- FEC_ENGINE_FENCED follows the engines, and FEC_QUAD_FAILED is raised by a quad without engines (R205, R206). -/
def fenceAlarms (s : State) : State :=
  let any := (List.finRange 64).any fun e => engineFenced s e
  raiseAlarm .pool 1 (quadFailed s) (setAlarm .pool 0 any s)

/-- Fence an engine, once (R205). -/
def fence (e : Engine) (s : State) : State :=
  if s.pool.engines[e].fenced then s else
  let s := takeBack e s
  let s := modEng e (fun x => { x with fenced := true }) s
  fenceAlarms (modPool (fun x => { x with fenceEvt := x.fenceEvt + 1 }) s)

/-! ### Host lanes -/

/-- The lane belongs to a client. -/
def laneClient (s : State) (k : HLane) : Option Client :=
  s.map.clients.find? fun c =>
    match lanesOf c.type.toNat (fld s.lanes[c.first].w1 31 30) with
    | some n => decide (c.first.val ≤ k.val) && decide (k.val < c.first.val + n)
    | none => c.first == k

/-- TX_EN of a lane (R284). -/
def txEn (l : Lane) : Bool := bit l.w1 29

/-- TRAIN_EN of a lane (R284). -/
def trainEn (l : Lane) : Bool := bit l.w1 25

/-- A loopback runs on the lane (R514). -/
def laneLooped (s : State) (k : HLane) : Bool := s.lanes[k].near || s.lanes[k].far

/-- A fault of AON (TEMP_CRIT) stands: outputs are as after OUTPUTS_STOP (R460). -/
def aonDown (s : State) : Bool := unitDown s .aon

/-- A lane transmitter drives a signal (R260, R282, R514). -/
def laneDrives (s : State) (k : HLane) : Bool :=
  let l := s.lanes[k]
  txEn l && isOn s (.ho (octet k)) && outputsOn s && !unitDown s (.ho (octet k)) && !aonDown s && !l.near &&
    ((laneClient s k).any (·.rxOn) || l.prbsGen != 0 || l.far)

/-! ### Reset (R465, R480, R482) -/

/-- The part enters reset (R480, R482): everything returns to its reset value. What the board drives (MUTE_N,
RESET_N), the test access port, the model's counter and the waiting commands stay. An engine that was fenced has its
known-answer test to pass before it receives work (R206). -/
def enterReset (s : State) : State :=
  let r := State.reset
  { r with
    sys := { r.sys with inReset := true, porActive := s.sys.porActive }
    pins := { s.pins with muteEvents := 0 }
    test := { s.test with loupe := 0 }
    pool := { r.pool with engines := s.pool.engines.map fun e => { testing := e.fenced || e.testing } }
    free := s.free, pending := s.pending }

/-- A reset by a fault of SUP keeps BANK07: the fault log and the latched alarms (R465). (DEDUCED, notes/assumptions 17) -/
def enterResetKeepLog (s : State) : State :=
  let keep := fun (a b : Alarm) => { b with latched := a.latched }
  let r := enterReset s
  { r with
    faults := { r.faults with log := s.faults.log, nextSeq := s.faults.nextSeq }
    alarms := { line := Vector.ofFn fun i => keep s.alarms.line[i] r.alarms.line[i]
                conv := Vector.ofFn fun i => keep s.alarms.conv[i] r.alarms.conv[i]
                host := Vector.ofFn fun i => keep s.alarms.host[i] r.alarms.host[i]
                pool := keep s.alarms.pool r.alarms.pool
                jrx := Vector.ofFn fun i => keep s.alarms.jrx[i] r.alarms.jrx[i] } }

/-! ### Detection (R460, R461) -/

/-- The port of a converter or line unit is muted by its fault (R460). -/
def faultMutePort (p : LPort) (drv : Bool) (s : State) : State :=
  modFront p (fun f => { f with faultMute := true, faultDrv := f.faultDrv || drv }) s

/-- The safe action of a unit (R460). -/
def safeAction (u : FUnit) (s : State) : State :=
  match u with
  | .cv n => refresh (faultMutePort n true s)
  | .ld n => refresh (faultMutePort n false s)
  | .fq q => eachOf (enginesOf q) takeBack s
  | .map =>
    let s := modMap (fun m => { m with stopped := true }) (eachPort discardOpen s)
    eachOf (s.map.clients.filter (·.rxOn)) (fun c => setRxFail c.first true) s
  | .mon => modMon (fun m => { m with stopped := true }) s
  | .aon => refresh (eachPort (fun p => faultMutePort p true) s)
  | .ho _ => s
  | .core _ => s

/-- The stamp of a fault (R467). -/
def faultRef (s : State) : FUnit → RefCode
  | .cv n => portRef s n | .ld n => portRef s n | _ => deviceRef s

/-! ### The log (R466) -/

/-- Code of a level of recovery, an action and an outcome of an entry. -/
structure LogFate where
  level   : Nat
  action  : Nat
  outcome : Nat
deriving DecidableEq, Repr

/-- The six words of a log entry (R466). -/
def entryWords (e : LogEntry) : List Word :=
  [word [(31, 16, e.seq.toNat), (15, 8, unitDom e.unit), (7, 0, e.code.toNat)],
   word [(31, 30, e.level.toNat), (29, 27, e.action.toNat), (26, 24, e.outcome.toNat), (23, 23, b2n e.secondary),
     (22, 16, e.index.toNat), (15, 0, e.detail.toNat)]] ++ stampWords e.psfn e.psfnRef e.psfnValid ++ twoHi e.usec

/-- Write the entry of a fault (R466): the oldest of 256 entries is overwritten. -/
def writeEntry (r : FaultRec) (x : LogFate) (s : State) : State :=
  modFaults (fun f =>
    let e : LogEntry :=
      { seq := f.nextSeq, unit := r.unit, code := r.code, level := BitVec.ofNat 2 x.level
        action := BitVec.ofNat 3 x.action, outcome := BitVec.ofNat 3 x.outcome, secondary := r.secondary
        index := r.index, detail := r.detail, psfn := r.psfn, psfnRef := r.psfnRef, psfnValid := r.psfnValid
        usec := r.usec }
    { f with log := (e :: f.log).take 256, nextSeq := f.nextSeq + 1, total := f.total + 1 }) s

/-- The record of a fault, stamped at its detection (R467). -/
def faultRec (s : State) (u : FUnit) (code : BitVec 8) (index : BitVec 7) (detail : BitVec 16) : FaultRec :=
  let r := faultRef s u
  { unit := u, code := code, index := index, detail := detail, psfn := refCount s r, psfnRef := r,
    psfnValid := refValid s r, usec := usec64 s, secondary := false }

/-- A fault is detected: a fault of SUP writes its entry and resets the device (R465); any other unit takes its
safe action, unless it is held failed already (R463), and the fault goes to the handler, to the secondary slot,
or is lost as an overflow (R461). -/
def detect (u : FUnit) (code : BitVec 8) (index : BitVec 7) (detail : BitVec 16) (s : State) : State :=
  let rec_ := faultRec s u code index detail
  let acts := codeActs code
  if acts && u == .core .sup then enterResetKeepLog (writeEntry rec_ ⟨1, 4, 5⟩ s)
  else
    let s := if acts && !unitHeld s u then safeAction u s else s
    match s.faults.primary, s.faults.second with
    | none, _ => modFaults (fun f => { f with primary := some rec_ }) s
    | some _, none => modFaults (fun f => { f with second := some { rec_ with secondary := true } }) s
    | some _, some _ =>
      modUnit u (fun x => { x with overflow := x.overflow + 1, ovDown := x.ovDown || (acts && !x.held) })
        (modFaults (fun f => { f with overflow := f.overflow + 1 }) s)

/-- A fault of a core (R459): INDEX is its core code. -/
def detectCore (c : Core) (code : BitVec 8) (s : State) : State :=
  detect (.core c) code (BitVec.ofNat 7 (coreCode c)) 0 s

end Sys2Proof.Machine
end

