-- ==== Sys2Proof/Machine/PowerOps.lean ====
section
/-! DEFINITION. What a domain's moves do: leaving ON, entering NAP or OFF, banks kept and lost, and the
return to ON (R52, R98, R206, R293, R328, R329, R406, R413, R424 to R426, R440). -/

namespace Sys2Proof.Machine

/-! ### Banks (R424 to R426) -/

/-- Bank `k` belongs to the domain (R424). -/
def bankIn (d : Dom) (k : Fin 32) : Bool :=
  match d with
  | .ctl => k.val < 8 || 16 ≤ k.val
  | .ld n => k.val == 8 + n.val
  | .cv n => k.val == 12 + n.val
  | .aon => false | .mon => false | .map => false | .fq _ => false | .ho _ => false

/-- Banks of a domain. -/
def banksOf (d : Dom) : List (Fin 32) := (List.finRange 32).filter fun k => bankIn d k

/-- Set or clear bit `k` of a word. -/
def putBit (w : Word) (k : Nat) (on : Bool) : Word := if on then w ||| wd (2 ^ k) else w &&& ~~~(wd (2 ^ k))

/-- Banks at an entry to NAP or OFF (R425): in NAP a bank is kept when its bit is set, or when a recovery
keeps it; in OFF it is lost. -/
def bankLeave (d : Dom) (target : PState) (force : Bool) (s : State) : State :=
  modPower (fun p => (banksOf d).foldl (fun p k =>
    if target == .off then { p with kept := putBit p.kept k.val false, cause := vset p.cause k 2 }
    else if bit p.retain k.val || force then p
    else { p with kept := putBit p.kept k.val false, cause := vset p.cause k 1 }) p) s

/-- Settings of port `n` return to their reset values, and its outputs stay muted until LINE_MODE_SET with
ENABLE 1 (R424, R516). Its group loses a member, its rate and its roll-off (R139). -/
def lostLine (n : LPort) (s : State) : State :=
  let s := modPort n (fun x => { x with
    front := { x.front with sclk := 560, nextSclk := none }
    rx := { x.rx with cfg := rxCfgReset, next := Vector.replicate 8 none }
    tx := { x.tx with cfg := txCfgReset, next := Vector.replicate 7 none, lin := linIdentity, pre := preIdentity }
    nlc := { drop := x.nlc.drop, switches := x.nlc.switches, fadeCut := x.nlc.fadeCut }
    tr := { x.tr with enable := false, rate := 760, policy := policyReset, polUse := policyReset,
                      txFmt := resetDesc 760, rxFmt := resetDesc 760, txNow := acqDesc 760 0, rxNow := acqDesc 760 0 }
    tr2 := { x.tr2 with sentSpan := List.replicate 64 0, expSpan := List.replicate 64 0,
                        sentPath := List.replicate 64 0, expPath := List.replicate 64 0,
                        nextSpan := none, nextPath := none, prevFmt := resetDesc 760, switchAt := none, cancelAt := none } }) s
  nlcEval (refresh (modPower (fun p => { p with muteLd := p.muteLd ||| BitVec.ofNat 4 (2 ^ n.val) }) s))

/-- The calibration table of port `n` is lost: its points are invalid, and the outputs stay muted until the
foreground run is accepted (R424). -/
def lostCal (n : LPort) (s : State) : State :=
  let s := modCal n (fun c =>
    let r := Cal.reset n.val
    { c with points := r.points, working := r.working, target := r.target, accepted := r.accepted, resid := r.resid }) s
  refresh (modPower (fun p => { p with muteCv := p.muteCv ||| BitVec.ofNat 4 (2 ^ n.val) }) s)

/-- The configuration in force is lost (R424): what BANK06 holds returns to reset values and the device
enters HOLD from BOOT with HOLD_REASON 6 (R491). (DEDUCED, notes/assumptions 12) -/
def lostConfig (s : State) : State :=
  let s := { s with
    lanes := s.lanes.map fun l => { l with w1 := 0x02140032, w2 := 0, w3 := 0x40000000 }
    map := { loopDigital := s.map.loopDigital, loopPayload := s.map.loopPayload, stopped := s.map.stopped }
    alarms := { line := s.alarms.line.map fun a => { a with mask := 0 }
                conv := s.alarms.conv.map fun a => { a with mask := 0 }
                host := s.alarms.host.map fun a => { a with mask := 0 }
                pool := { s.alarms.pool with mask := 0 }
                jrx := s.alarms.jrx.map fun a => { a with mask := 0 } } }
  let s := modPool (fun p => { p with
    reserve := 5, ports := p.ports.map fun x => { x with floor := 8, ceilMax := 24 } }) s
  let s := modDial (fun d => { d with strideLog2 := 6, remoteMax := 4096 }) s
  let s := modJrx (fun j => { j with
    nodeId := 0, nidValid := false, routes := []
    ports := j.ports.map fun p => { p with neigh := {} } }) s
  modSys (fun y => { y with configId := 0, configLost := true }) s

/-- Firmware must be reloaded before the cores run (R420, R424): the device passes through BOOT (R491). -/
def reloadFirmware (s : State) : State :=
  modSys (fun y => { y with
    resume := some y.dev, dev := .boot, supRuns := false, image := [], imageLen := 0
    phase := if y.bootSrc == 0 then 1 else 2, slot := if y.bootSrc == 0 then 0 else 2, dlReady := false, copying := none }) s

/-- The device enters HOLD after a wake that lost BANK06, once SUP runs (R491). -/
def holdLost (s : State) : State :=
  if s.sys.configLost && s.sys.supRuns then
    moveDev .hold 6 (modSys (fun y => { y with configLost := false, resume := none, dev := .boot }) s)
  else s

/-- The alarm states of BANK07 are lost with the fault log. -/
def lostLog (s : State) : State :=
  let z := fun (a : Alarm) => { a with active := 0, latched := 0 }
  { s with
    faults := { s.faults with log := [] }
    alarms := { line := s.alarms.line.map z, conv := s.alarms.conv.map z, host := s.alarms.host.map z
                pool := z s.alarms.pool, jrx := s.alarms.jrx.map z } }

/-- Bulk memory of a lost bank reads as zero (R424): BANK16 holds the lower half of the words and BANK17
the upper half (DEDUCED, notes/assumptions 22). -/
def lostBulk (upper : Bool) (s : State) : State :=
  { s with bulk := s.bulk.filter fun c => if upper then c.1 < 262144 else 262144 ≤ c.1 }

/-- Owner of a bank as a fault unit; CTL's are named under SUP. (DEDUCED, notes/assumptions 121) -/
def bankUnit (k : Fin 32) : FUnit :=
  if 8 ≤ k.val && k.val < 12 then .ld (Fin.ofNat 4 (k.val - 8))
  else if 12 ≤ k.val && k.val < 16 then .cv (Fin.ofNat 4 (k.val - 12)) else .core .sup

/-- What the loss of bank `k` means (R424). -/
def lostBank (k : Fin 32) (s : State) : State :=
  if k.val < 6 then (if s.sys.resume.isSome then s else reloadFirmware s)
  else if k.val = 6 then lostConfig s
  else if k.val = 7 then lostLog s
  else if k.val < 12 then lostLine (Fin.ofNat 4 (k.val - 8)) s
  else if k.val < 16 then lostCal (Fin.ofNat 4 (k.val - 12)) s
  else if k.val = 16 then lostBulk false s
  else if k.val = 17 then lostBulk true s
  else s

/-- The banks of a domain that leaves NAP or OFF (R426): a bank that holds its content is in use again; every
other is lost. A bank whose signature failed, and BANK07 for any cause, is logged as a fault (R459). -/
def bankReturn (d : Dom) (s : State) : State :=
  holdLost (eachOf (banksOf d) (fun k s =>
    let have_ := bit s.power.kept k.val
    let cause := s.power.cause[k]
    let s := modPower (fun p => { p with
      lost := putBit p.lost k.val (!have_), kept := putBit p.kept k.val true
      cause := if have_ then vset p.cause k 0 else p.cause }) s
    if have_ then s
    else
      let s := lostBank k s
      if cause == 3 || k.val == 7 then detect (bankUnit k) 3 0 (BitVec.ofNat 16 k.val) s else s) s)

/-! ### Leaving ON -/

/-- The checker of a lane counts the bits checked since the last count and their errors, which the received pattern decides:
free values, taken at a read and when the lock or the pattern ends (R282; DESIGN CHOICE, notes/assumptions 146). -/
def prbsCount (k : HLane) (s : State) : State :=
  if s.lanes[k].prbsChk != 0 && s.lanes[k].prbsLock then
    let n := Config.freeNat s.free
    let e := Config.freeNat (s.free + 1) % (n + 1)
    tookFree (tookFree (modLane k (fun l => { l with
      prbsErr := l.prbsErr + BitVec.ofNat 64 e, prbsBits := l.prbsBits + BitVec.ofNat 64 n }) s))
  else s

/-- What leaving ON does in the domain's own blocks (R328, R330, R413, R52, R440, R269). -/
def leaveOn (d : Dom) (s : State) : State :=
  match d with
  | .cv n => calAbort n (enterDown n s)
  | .ld n => modCal n (fun c => { c with working := c.target })
      (modSf n (fun f => { f with heldTx := some f.tx, kRegen := none }) (enterDown n s))
  | .ho q =>
    eachOf ((List.finRange 32).filter fun k => octet k == q) (fun k s =>
      modClients (fun c => c.first == k) (fun c => { c with aligned := false })
        (modLane k (fun l => { l with
          train := 0, ownReady := false, partnerReady := false, prbsLock := false, reqOut := .none, ansOut := .none }) (prbsCount k s))) s
  | .fq q => eachOf (enginesOf q) (fun e s =>
      let x := s.pool.engines[e]
      modEng e (fun x => { x with running := none, staged := none })
        (putBack false x.staged (putBack false x.running s))) s
  | .aon => s | .ctl => s | .mon => s | .map => s

/-- An urgent conversion that MON cannot finish, because it leaves ON, is answered as a dropped request of R443
(DEDUCED, notes/assumptions 107). -/
def dropUrgent (s : State) : State :=
  match s.mon.urgent with
  | none => s
  | some (rq, _) => reply 0x8004 rq (busy 1) (modMon (fun m => { m with urgent := none, cntUrgent := m.cntUrgent + 1 }) s)

/-- What entering NAP or OFF loses beside the banks: a synthesizer its lock (R85), MON its reference buffer
(R440). -/
def powerDown (d : Dom) (s : State) : State :=
  match d with
  | .cv n => modFront n (fun f => { f with locked := false, attempt := false, changing := false }) s
  | .mon => modMon (fun m => { m with refWasOn := m.refOn || m.refWasOn, refOn := false, refCold := false }) (dropUrgent s)
  | .aon => s | .ctl => s | .map => s | .ld _ => s | .fq _ => s | .ho _ => s

/-- A domain is asleep with its logic gone. -/
def PState.dark : PState → Bool
  | .nap => true | .off => true | .on => false | .idle => false

/-- Move a domain to a lower state. `force` keeps its bank whatever the mask (R425). -/
def domDown (d : Dom) (target : PState) (force : Bool) (s : State) : State :=
  let old := domSt s d
  let s := if old == .on then leaveOn d s else s
  let s := if target.dark then (if old.dark then s else powerDown d s) else s
  let s := if target.dark then bankLeave d target force s else s
  let s := setDom d target s
  let s := match d with
    | .ld n => if old == .on then refLost (txRef n) s else s
    | .aon => s | .ctl => s | .mon => s | .map => s | .cv _ => s | .fq _ => s | .ho _ => s
  refresh s

/-! ### The return to ON -/

/-- What a return from NAP or OFF does (R52, R206, R426). -/
def powerUp (d : Dom) (s : State) : State :=
  let s := bankReturn d s
  match d with
  | .ld n => modSf n (fun f => { f with tx := 0, local_ := 0, framing := false, txRestart := true, everFwd := false, kRegen := none }) s
  | .cv n => modFront n (fun f => { f with attempt := !f.locked }) s
  | .fq q => fenceAlarms (eachOf (enginesOf q) (fun e =>
      modEng e (fun x => { x with testing := true, speed := 4 })) s)
  | .mon => modMon (fun m => { m with slot := none }) s
  | .aon => s | .ctl => s | .map => s | .ho _ => s

/-- The wake of a CVn from NAP or OFF begins a lock attempt of its synthesizer (R85); in IDLE the synthesizer stays
locked (R406). -/
def wakeAttempts (ms : List (Dom × PState × PState)) (s : State) : State :=
  eachOf ms (fun m s =>
    match m.1 with
    | .cv n => if m.2.1.dark && !m.2.2.dark then modFront n (fun f => { f with attempt := true }) s else s
    | .aon => s | .ctl => s | .mon => s | .map => s | .ld _ => s | .fq _ => s | .ho _ => s) s

/-- A wake of a CVn that is given up leaves its synthesizer as it is in NAP and OFF. -/
def dropAttempts (ms : List (Dom × PState × PState)) (s : State) : State :=
  eachOf ms (fun m s =>
    match m.1 with
    | .cv n => if m.2.1.dark then modFront n (fun f => { f with locked := false, attempt := false }) s else s
    | .aon => s | .ctl => s | .mon => s | .map => s | .ld _ => s | .fq _ => s | .ho _ => s) s

/-- Training begins on a lane from its start: INIT_PRESET is the first request, none when it is 0 (R264). -/
def beginTrain (k : HLane) (s : State) : State :=
  modLane k (fun l => { l with
    train := 1, ownReady := false, partnerReady := false, precodeRx := false, trainStart := s.sys.usec, ansOut := .none
    precodeAsked := false, atMax := 0, atMin := 0
    reqOut := if fld l.w1 15 8 = 0 then .none else .preset (fld l.w1 15 8) }) s

/-- A lane trains by itself when its octet is back (R265). -/
def trainLane (k : HLane) (s : State) : State :=
  let l := s.lanes[k]
  if trainEn l && txEn l && fld l.w1 31 30 == 0 then beginTrain k s else s

/-- Count of the next superframe sent on a port: the received count less K_REGEN while forwarding, the holdover
count after it, the local count otherwise (R52 to R54, R60; DEDUCED, notes/assumptions 35). The first superframe that the
framer produces after reset, NAP or OFF carries 0. -/
def nextTx (s : State) (p : LPort) : Psfn :=
  let f := s.ports[p].sf
  let own := if f.framing then f.local_ + 1 else f.local_
  if regen s p then
    match f.kRegen with
    | some k => psfnAdd s.ports[mate p].sf.fly (-(k.toNat : Int))
    | none => if f.everFwd then f.tx + 1 else own
  else own

/-- What a domain does when it reaches ON (R206, R293, R305, R306, R329, R440, R265). After an IDLE the first count of a
transmit reference is compared with the one that follows its last value. The wake of a CVn includes the lock of its
synthesizer (R422). -/
def goOn (d : Dom) (s : State) : State :=
  match d with
  | .ld n =>
    let f := s.ports[n].sf
    if f.txRestart then
      refJump (txRef n) 0 0 true (modSf n (fun f => { f with txRestart := false, heldTx := none }) s)
    else refJump (txRef n) (nextTx s n) (f.tx + 1) false (modSf n (fun f => { f with heldTx := none }) s)
  | .cv n =>
    let s := modFront n (fun f => { f with locked := true, attempt := false }) s
    if s.power.muteCv.getLsbD n.val then calStart n .foreground calAll 2 s else calSnap n s
  | .mon => modMon (fun m => if m.refWasOn then { m with refOn := true, refCold := true, refWasOn := false } else m) s
  | .ho q => eachOf ((List.finRange 32).filter fun k => octet k == q) trainLane s
  | .fq q => fenceAlarms (eachOf (enginesOf q) (fun e =>
      modEng e (fun x => { x with fenced := x.fenced && !x.testing })) s)
  | .aon => s | .ctl => s | .map => s

/-- The domain stays OFF while its unit is held failed (R421, R460). -/
def heldOff (s : State) (d : Dom) : Bool :=
  match d with
  | .cv _ => unitHeld s (domUnit d) | .ld _ => unitHeld s (domUnit d) | .fq _ => unitHeld s (domUnit d)
  | .ho _ => unitHeld s (domUnit d)
  | .aon => false | .ctl => false | .mon => false | .map => false

/-- Move a domain to a higher state. -/
def domUp (d : Dom) (target : PState) (s : State) : State :=
  if heldOff s d then s else
  let old := domSt s d
  let s := if old.dark && !target.dark then powerUp d s else s
  let s := setDom d target s
  let s := if target == .on && old != .on then goOn d s else s
  eachPort maybeAcquire (refresh s)

/-- Move a domain to a state. -/
def domMove (d : Dom) (target : PState) (s : State) : State :=
  if (domSt s d).code < target.code then domDown d target false s
  else if target.code < (domSt s d).code then domUp d target s else s

/-- A first access wakes a digital domain (R421): PWR_EVT with OUTCOME 2. -/
def accessWake (d : Dom) (s : State) : State :=
  if isOn s d then s
  else pwrEvent 2 (domUp d .on (modPower (fun p => { p with accessWakes := p.accessWakes.filter (· != d) }) s))

end Sys2Proof.Machine
end

