-- ==== Sys2Proof/Machine/Operands.lean ====
section
/-! DEFINITION. How a Crown command reaches its effect: packets (R337), bulk areas (R351), permissions
(R352 to R354), the domains a command needs (R309, R412, R421, R422), and the order of its checks (R341). -/

namespace Sys2Proof.Machine

/-! ### Packets (R337) -/

/-- OPCODE of a packet. -/
def pktOp (ws : List Word) : Nat := fld (ws.getD 0 0) 31 16
/-- TAG of a packet. -/
def pktTag (ws : List Word) : Nat := fld (ws.getD 0 0) 15 8
/-- COUNT of a packet. -/
def pktCount (ws : List Word) : Nat := fld (ws.getD 0 0) 7 0
/-- Parameter words of a packet. -/
def pktParams (ws : List Word) : List Word := (ws.drop 1).take (pktCount ws)
/-- The CRC of a packet holds (R338). -/
def pktCrc (ws : List Word) : Bool := crc32c (ws.take (pktCount ws + 1)) == ws.getD (pktCount ws + 1) 0

/-! ### Bulk areas (R351) -/

/-- A bulk area of `n` words from `off` on extends beyond the last word. -/
def bulkBad (off n : Nat) : Bool := decide (bulkWords < off + n)

/-- The last word of a block is the CRC-32C of those before it. -/
def blockCrc (ws : List Word) : Bool := crc32c (ws.take (ws.length - 1)) == ws.getD (ws.length - 1) 0

/-- LINE_NLC_SET with OP STATUS is a read (R354). -/
def isWrite (opcode : Nat) (ps : List Word) : Bool :=
  if opcode = 0x2007 then fld (ps.getD 0 0) 29 27 != 4
  else match catRow opcode with
    | some r => r.write
    | none => false

/-! ### Domains a command needs -/

/-- Octets of the lanes in a mask. -/
def octetsOf (mask : Word) : List Dom :=
  ([0, 1, 2, 3] : List (Fin 4)).filterMap fun q => if fld mask (8 * q.val + 7) (8 * q.val) != 0 then some (.ho q) else none

/-- Domains that a command needs (R309, R412, R421, R422; DEDUCED, notes/assumptions 23).
The lanes of a client lie in one octet, because FIRST_LANE is a multiple of their number. -/
def needsOf (opcode : Nat) (ps : List Word) : List Dom :=
  let w := ps.getD 0 0
  let w1 := ps.getD 1 0
  let n : LPort := Fin.ofNat 4 (fld w 31 30)
  match opcode with
  | 0x2001 => if fld w 29 28 == 0 && bit w 27 then [.ld n, .cv n] else []
  | 0x2003 => [.ld n]
  | 0x2004 => [.ld n]
  | 0x2007 => if fld w 29 27 == 4 then [] else [.ld n]
  | 0x2801 => if fld w 29 27 == 1 then [] else [.cv n, .ld n]
  | 0x3001 => octetsOf w
  | 0x3002 => octetsOf w
  | 0x3003 => octetsOf (wd (2 ^ fld w 31 27))
  | 0x3004 => octetsOf (wd (2 ^ fld w 31 27))
  | 0x4001 => [.ld n]
  | 0x4002 => [.map]
  | 0x5001 => [.map, .ho (octet (Fin.ofNat 32 (fld w 28 24)))]
  | 0x5002 => [.map, .ho (octet (Fin.ofNat 32 (fld w 31 27)))]
  | 0x5003 => [.map]
  | 0x5004 => [.map]
  | 0x7001 => [.cv n]
  | 0x7003 => [.cv n]
  | 0x7004 => [.cv n]
  | 0x8001 => [.mon]
  | 0x8002 => [.mon]
  | 0x8004 => [.mon]
  | 0x8005 => [.mon]
  | 0xF003 => octetsOf w1
  | _ => []

/-- Domains of the blocks that a stored packet changes or reads (R14, R309), beside those that it needs: the line logic of its
port, the converters for a sample clock, a threshold, a swing, a mute or a front-end report, MAP for the pool, MON for a reading,
and what a loopback joins. (DEDUCED, notes/assumptions 23) -/
def blocksOf (opcode : Nat) (ps : List Word) : List Dom :=
  let w := ps.getD 0 0
  let n : LPort := Fin.ofNat 4 (fld w 31 30)
  match opcode with
  | 0x2001 => [.ld n, .cv n]
  | 0x2003 => .ld n :: (if bit w 0 then [.cv n] else [])
  | 0x2004 => .ld n :: (if bit w 2 then [.cv n] else [])
  | 0x2005 => if fld w 29 24 == 3 then [.ld n, .cv n] else [.ld n]
  | 0x2006 => [.ld n]
  | 0x2008 => [.ld n, .cv n]
  | 0x4003 => [.map]
  | 0x4004 => [.map]
  | 0x7005 => [.cv n]
  | 0x7002 => [.cv n]
  | 0x8003 => [.mon]
  | 0xF002 =>
    let p : LPort := Fin.ofNat 4 (fld w 27 26)
    match fld w 31 29 with
    | 1 => [.ld p]
    | 2 => [.ld p, .map]
    | _ => octetsOf (ps.getD 1 0)
  | _ => if opcode / 256 == 0x28 then [.ld n] else []

/-- Domains that a stored packet addresses (R309). -/
def addressed (opcode : Nat) (ps : List Word) : List Dom := needsOf opcode ps ++ blocksOf opcode ps

/-- Domains that an event needs (R309). -/
def eventNeeds (s : State) (e : DialEv) : List Dom :=
  .ctl :: .ld (refPort e.ref) :: (if e.fallback then [.ld (refPort (paired s e.ref))] else []) ++
    (if e.kind == .stored then addressed e.opcode.toNat e.params else [])

/-- CVn, HOq and MON are analog (R407). -/
def isAnalog : Dom → Bool
  | .cv _ => true | .ho _ => true | .mon => true
  | .aon => false | .ctl => false | .map => false | .ld _ => false | .fq _ => false

/-- A running transition moves the domain to a lower state (R412). -/
def inDown (s : State) (d : Dom) : Bool :=
  s.power.trans.any fun t => t.moves.any fun m => m.1 == d && decide (m.2.1.code < m.2.2.code)

/-- The domain is on its way to ON. -/
def rising (s : State) (d : Dom) : Bool :=
  s.power.accessWakes.contains d || (unitSt s (domUnit d)).recovering == 1 ||
    s.power.trans.any fun t => !t.asking && !t.reached.contains d &&
      t.moves.any fun m => m.1 == d && decide (m.2.2.code < m.2.1.code)

/-- What keeps a command that needs domain `d` from executing (R412, R421, R422). -/
def domFail (s : State) (d : Dom) : Option Answer :=
  let away : Answer := { st := .badState, detail := domCode d * 65536 }
  if inDown s d then some busy
  else if isOn s d then none
  else if isAnalog d then
    if rising s d then some { st := .waking, detail := domCode d * 65536 + Config.freeNat s.free % 65535 }
    else if domSt s d == .off then some away
    else some { st := .waking, detail := domCode d * 65536 + 65535 }
  else if unitHeld s (domUnit d) then some away
  else none

/-- Digital domains that the command needs wake by its access (R421). -/
def wakeNeeds (ds : List Dom) (s : State) : State := eachOf ds accessWake s

/-! ### The order of a command's checks -/

/-- A command at its core: its parameter checks, then its domains, then its state checks; the first failure
is its reply and nothing changes. Otherwise `body` acts and answers. -/
def command (opcode : Nat) (rq : Req) (checks : List (Bool × Answer)) (states : State → List (Bool × Answer))
    (body : State → State) (s : State) : State :=
  match firstFail checks with
  | some a => reply opcode rq a s
  | none =>
    let ds := needsOf opcode rq.params
    match ds.findSome? (domFail s) with
    | some a => reply opcode rq a (tookFree s)
    | none =>
      let s := wakeNeeds ds s
      match firstFail (states s) with
      | some a => reply opcode rq a s
      | none => body s

/-- A command that changes the state and replies OK. -/
def commandOk (opcode : Nat) (rq : Req) (checks : List (Bool × Answer)) (states : State → List (Bool × Answer))
    (body : State → State) (s : State) : State :=
  command opcode rq checks states (fun s => reply opcode rq (okay []) (body s)) s

/-- A report whose core has begun it (R349): its snapshot is taken and answered at the first qualifying boundary. Where
LDn of that boundary's port is not ON, so that its framer gives none, it is answered at once (DESIGN CHOICE,
notes/assumptions 130). -/
def awaitReport (at_ : ReportAt) (opcode : Nat) (rq : Req) (answer : State → State) (s : State) : State :=
  if isOn s (.ld (refPort (reportRef s at_))) then
    taken rq (modSys (fun y => { y with reports := y.reports ++ [{ at_ := at_, opcode := opcode, rq := rq }] }) s)
  else answer s

/-- A command that reports: its checks, then its snapshot (R13). -/
def report (at_ : ReportAt) (opcode : Nat) (rq : Req) (checks : List (Bool × Answer)) (answer : State → State)
    (s : State) : State :=
  command opcode rq checks (fun _ => []) (awaitReport at_ opcode rq answer) s

/-- The answer of a report in its reply. -/
def answerReply (opcode : Nat) (rq : Req) (words : State → List Word) (s : State) : State :=
  reply opcode rq (okay (words s)) s

/-- The answer of a report written to bulk memory at `off`, which returns the word count (R351). -/
def answerBulk (opcode : Nat) (rq : Req) (off : Nat) (words : State → List Word) (s : State) : State :=
  let ws := words s
  reply opcode rq (okay [wd ws.length]) (putBulk off ws s)

/-! ### Permissions (R352 to R354) -/

/-- Class index of an opcode in a permission mask. -/
def permClass (opcode : Nat) : Nat :=
  match opcode / 256 with
  | 0x00 => 0 | 0x10 => 1 | 0x20 => 2 | 0x28 => 3 | 0x30 => 4 | 0x40 => 5 | 0x50 => 6 | 0x60 => 7
  | 0x70 => 8 | 0x80 => 9 | 0x90 => 10 | 0xA0 => 11 | _ => 12

/-- The mask of a channel and a sender class; none for a combination that the table of R352 does not
list. -/
def permMask (p : Perms) (c : Chan) (cls : Nat) : Option Word :=
  match c, cls with
  | .m n, 0 => if n.val == 4 || n.val == 5 then none else some p.twi[n]
  | .m n, 1 => if n.val == 4 || n.val == 5 then none else some p.mspi[n]
  | .m n, 4 => if n.val == 7 then some p.test else none
  | .j n, 2 => some p.jrx[n]
  | _, _ => none

/-- A mask grants a command (R352). -/
def maskGrants (m : Word) (opcode : Nat) (ps : List Word) : Bool :=
  let k := permClass opcode
  (if isWrite opcode ps then bit m (2 * k + 1) else bit m (2 * k)) ||
    (bit m 26 && (opcode == 0x6001 || (opcode == 0x6002 && fld (ps.getD 0 0) 31 30 ≤ 1)))

/-- A stored packet within the parameters of a DIAL_SCHEDULE. -/
def storedPkt (ps : List Word) : List Word := ps.drop 3

/-- The command itself reads or writes bulk memory. -/
def touchesBulk (opcode : Nat) (ps : List Word) : Bool :=
  let w := ps.getD 0 0
  match opcode with
  | 0x0004 => true | 0x0008 => true | 0x1005 => true
  | 0x2001 => fld w 29 28 == 1
  | 0x2004 => (bit w 5 && bit (ps.getD 6 0) 31) || (bit w 6 && bit (ps.getD 7 0) 31)
  | 0x2005 => fld w 29 24 == 1
  | 0x2006 => true
  | 0x2007 => fld w 29 27 == 1
  | 0x3004 => true | 0x4004 => true | 0x6003 => true | 0x7003 => true
  | 0x7004 => !bit w 26
  | 0x8002 => true
  | 0x9002 => bit w 14
  | 0x9003 => bit w 28
  | 0xA001 => true
  | _ => false

/-- A fixed restriction of R353 that the command breaks: its reason. A blob may use PERM_SET. A DIAL_SCHEDULE is held to
the restrictions of its stored packet at step 6 of R310. -/
def restricted (opcode : Nat) (ps : List Word) (c : Option Chan) (cls : Nat) : Option Nat :=
  if opcode == 0x0009 then
    match c with
    | none => if cls == 3 then none else some 1
    | some (.m n) => if (cls == 0 || cls == 1 || cls == 4) && (n.val < 4 || n.val == 7) then none else some 1
    | some (.j _) => some 1
  else if opcode == 0xF001 && !(cls == 1 || cls == 4) then some 1
  else if cls == 2 && (opcode == 3 || opcode == 4 || opcode == 5 || opcode == 6) then some 1
  else if cls == 2 && touchesBulk opcode ps then some 2
  else none

/-- NOT_PERMITTED with its class and reason (R346). -/
def notPermitted (cls reason : Nat) : Answer := { st := .notPermitted, detail := cls * 65536 + reason * 256 }

/-- The permission check of R352 and R353 for a packet that arrived on a channel. Internal senders are not
checked against a mask. -/
def permission (s : State) (opcode : Nat) (ps : List Word) (c : Option Chan) (st : Stamp) : Option Answer :=
  let cls := st.cls.toNat
  match restricted opcode ps c cls with
  | some r => some (notPermitted cls r)
  | none =>
    if cls == 3 then none
    else match c with
      | none => none
      | some ch =>
        match permMask s.sys.perms ch cls with
        | some m => if maskGrants m opcode ps then none else some (notPermitted cls 0)
        | none => some (notPermitted cls 0)

/-- What the device state lets SUP execute (R355). -/
def stateAllows (d : DevState) (opcode : Nat) (ps : List Word) : Bool :=
  let w := isWrite opcode ps
  let c := opcode / 256
  match d with
  | .boot => false
  | .hold => !w || c == 0x00 || c == 0x10 || c == 0xA0 || c == 0xF0
  | .fault => !w || opcode == 3 || c == 0xA0 || c == 0xF0
  | .ready => true | .active => true | .degraded => true

/-- A pending configuration locks the command (R364). -/
def locked (s : State) (opcode : Nat) (ps : List Word) : Option Answer :=
  match s.sys.pending with
  | some b => if isWrite opcode ps && opcode / 256 != 0 then some { st := .locked, detail := b.channel.toNat * 65536 } else none
  | none => none

end Sys2Proof.Machine
end

