-- ==== Sys2Proof/Machine/Cores.lean ====
section
/-! DEFINITION. The control cores: which core executes a command (R24), and what a restart of a core does to
its channels, its commands and the Dial events handed to it (R360, R377 to R379, R515). -/

namespace Sys2Proof.Machine

/-- A command of one port acts on both ports of a regenerating pair (R24, R252): LINE_MODE_SET with OP MODE, whose RATE
applies to both. (DEDUCED, notes/assumptions 134) -/
def pathAffecting (opcode : Nat) (ps : List Word) : Bool := opcode == 0x2001 && fld (ps.getD 0 0) 29 28 == 0

/-- The port whose controller executes a command of a port: the lower-numbered one of a regenerating pair for a command
that affects the path (R24). -/
def controlPort (s : State) (opcode : Nat) (ps : List Word) : LPort :=
  let p : LPort := Fin.ofNat 4 (fld (ps.getD 0 0) 31 30)
  if pathAffecting opcode ps && regen s p then min p (mate p) else p

/-- The core that executes a command (R24, R356). -/
def coreFor (s : State) (opcode : Nat) (ps : List Word) : Core :=
  match catRow opcode with
  | some r =>
    match r.core with
    | .sup => .sup | .hc => .hc | .jg => .jg
    | .pc => .pc (controlPort s opcode ps)
  | none => .sup

/-- Requester and responder of each internal channel (R26). -/
def icEnds : Vector (Core × Core) 16 :=
  #v[(.sup, .pc 0), (.sup, .pc 1), (.sup, .pc 2), (.sup, .pc 3), (.sup, .hc), (.sup, .jg),
     (.pc 0, .hc), (.pc 1, .hc), (.pc 2, .hc), (.pc 3, .hc), (.pc 0, .jg), (.pc 1, .jg), (.pc 2, .jg), (.pc 3, .jg),
     (.pc 0, .pc 1), (.pc 2, .pc 3)]

/-- The channel on which one core requests of another (R26); requests flow from requester to responder only. -/
def icBetween (a b : Core) : Option (Fin 16) := (List.finRange 16).find? fun i => icEnds[i] == (a, b)

/-- The internal channel from SUP to a core (R26). -/
def supIc (c : Core) : Option (Fin 16) := icBetween .sup c

/-- The doorbell number of an internal channel at one of its ends: SUP's inbound channels M0 to M3, M6, M7 and J0 to J3 come
first, then a core's internal channels in their order (R381; DESIGN CHOICE, notes/assumptions 153). -/
def doorOf (c : Core) (i : Fin 16) : Nat :=
  (if c == .sup then 10 else 0) +
    (((List.finRange 16).filter fun k => icEnds[k].1 == c || icEnds[k].2 == c).idxOf? i).getD 0

/-- Ready bits of a core (R381): its inbound queues that hold the first word of a message it has not taken. -/
def coreReady (s : State) (c : Core) : Nat :=
  let ics := (List.finRange 16).filter fun i =>
    (icEnds[i].2 == c && !s.mbx.ic[i].req.isEmpty) || (icEnds[i].1 == c && s.mbx.ic[i].ret.any (·.start))
  let ext := if c == .sup then
      ([0, 1, 2, 3, 6, 7].zipIdx.filter fun e => s.mbx.m[(Fin.ofNat 8 e.1 : Fin 8)].inQ.any (·.start)).map (·.2) ++
        (((List.finRange 4).filter fun j => s.mbx.j[j].inQ.any (·.start)).map fun j => 6 + j.val)
    else []
  ((ext ++ ics.map (doorOf c)).map (2 ^ ·)).foldl (· + ·) 0

/-- Set or clear the channel-aborted doorbell bit that a core has for an internal channel (R377, R381). -/
def setAborted (c : Core) (i : Fin 16) (on : Bool) (s : State) : State :=
  let m : BitVec 16 := BitVec.ofNat 16 (2 ^ doorOf c i)
  modMbx (fun x => { x with coreAborted := vmod x.coreAborted (coreIx c) fun w => if on then w ||| m else w &&& ~~~m }) s

/-- The core is restarting (R360). -/
def restarting (s : State) (c : Core) : Bool := s.sys.restarts.any (·.1 == c)

/-- The core that an event is handed to. -/
def coreOfEv (s : State) (e : DialEv) : Core :=
  match e.kind with
  | .stored => coreFor s e.opcode.toNat e.params
  | .fmtTx p _ _ _ _ => .pc p | .fmtRx p _ _ _ _ => .pc p
  | .tuneTx p _ _ _ => .pc p | .tuneRx p _ _ _ => .pc p
  | .rateTx p _ => .pc p | .rateRx p _ => .pc p

/-- Answer a forwarded command whose core restarts (R377, R378): DETAIL 1 when the core had not taken it, 2
when it had. The aborted bit of its host channel is set. -/
def answerAborted (f : Forward) (s : State) : State :=
  let s := doIf (!f.taken) (fun s =>
    let s := modMbx (fun x => { x with cntAbort := x.cntAbort + 1 }) s
    match supIc f.core with
    | some i => setAborted .sup i true s
    | none => s) s
  let s := match f.rq.src with
    | .chan (.m n) => ring (16 + n.val) s
    | .chan (.j _) => s
    | .dial _ => s
    | .blob => s
  reply f.opcode.toNat f.rq { st := .aborted, detail := if f.taken then 2 else 1 } s

/-- Commands that the core was to answer later are forgotten by it: SUP answers them (R378). -/
def forgetLater (srcs : List Src) (s : State) : State :=
  let gone := fun (r : Req) => srcs.contains r.src
  let s := modJrx (fun j => { j with waits := j.waits.filter fun w => !gone w.rq }) s
  let s := modSys (fun y => { y with reports := y.reports.filter fun w => !gone w.rq }) s
  let s := eachPort (fun p => modTr2 p (fun t => { t with
    rate_ := t.rate_.map fun r => { r with rq := r.rq.filter fun q => !gone q } })) s
  modEvs (fun e => if e.implicit.any gone then { e with implicit := none, compl := .none } else e) s

/-- An event was handed to the core and not finished by it: a staging that is not complete, held or not, or a release
that is not executed (R515). -/
def atCore (s : State) (c : Core) (e : DialEv) : Bool :=
  coreOfEv s e == c &&
    ((e.exact && (e.phase == .staged || (e.phase == .held && e.wasStaged)) && !e.stagingDone) ||
      (!e.exact && e.phase == .released))

/-- Dial events handed to a core that restarts are aborted with reason 5; the core forgets what they waited for (R515). -/
def dialRestart (c : Core) (s : State) : State :=
  let es := s.dial.evs.filter (atCore s c)
  eachOf es (abortEvent · 5) (forgetLater (es.map fun e => .dial e.idx) s)

/-- A core restarts (R360, R371, R377 to R379, R515); `rq` is the SYS_RESET to answer when it runs again. (DEDUCED, notes/assumptions 56) -/
def restartCore (c : Core) (rq : Option Req) (s : State) : State :=
  let fw := s.mbx.forwards.filter (·.core == c)
  let s := modMbx (fun x => { x with coreGen := vmod x.coreGen (coreIx c) (· + 1) }) s
  let s := modSys (fun y => { y with restarts := y.restarts ++ [(c, rq)] }) s
  dialRestart c (eachOf fw answerAborted (forgetLater (fw.map (·.rq.src)) s))

/-- The core runs again (R360): the SYS_RESET that restarted it is answered. -/
def coreRuns (c : Core) (s : State) : State :=
  let done := s.sys.restarts.filter (·.1 == c)
  let s := modSys (fun y => { y with restarts := y.restarts.filter (·.1 != c) }) s
  eachOf (done.filterMap (·.2)) (fun rq => reply 0x0003 rq (okay [])) s

end Sys2Proof.Machine
end

