-- ==== Sys2Proof/Machine/HostPorts.lean ====
section
/-! DEFINITION. The front ends through which the host reaches the registers: their pointers, what a word
access leaves in them, and the stamps of their messages (R370, R386 to R389). -/

namespace Sys2Proof.Machine

/-- The front end of a port. -/
def feOf (s : State) : HostPort → FrontEnd
  | .twi => s.twi.twi | .mspi => s.twi.mspi | .test => s.twi.test

/-- Change the front end of a port. -/
def modFe (who : HostPort) (f : FrontEnd → FrontEnd) (s : State) : State :=
  match who with
  | .twi => modTwi (fun x => { x with twi := f x.twi }) s
  | .mspi => modTwi (fun x => { x with mspi := f x.mspi }) s
  | .test => modTwi (fun x => { x with test := f x.test }) s

/-- Sender class of a port (R370). -/
def classOf : HostPort → Nat
  | .twi => 0 | .mspi => 1 | .test => 4

/-- The pointer after a word at an address (R386). -/
def nextPtr (addr : BitVec 16) : BitVec 16 :=
  let a := addr.toNat
  if 0x8000 ≤ a then (if 0xFFFC ≤ a then 0x8000 else addr + 4)
  else if a == 0x7FFF then addr
  else if (0x0100 ≤ a && a < 0x0110) then addr
  else addr + 1

/-- The port can carry out an access: the part is out of reset, and the port is not listening for DEEP nor
held in a stall. -/
def feServes (s : State) (who : HostPort) : Bool :=
  let f := feOf s who
  !s.sys.inReset && !f.listening && f.stall.isNone

/-- A word access of a port at an address has completed (R386, R387, R388) and answered `data`; on MSPI the
frame neither missed nor was cut (R397). -/
def feDone (who : HostPort) (addr : BitVec 16) (data : Word) (s : State) : State :=
  let s := modFe who (fun f => { f with ptr := nextPtr addr, rdata := data, done := true }) s
  if who == .mspi then modTwi (fun x => { x with lastMiss := false, lastAbort := false }) s else s

/-- The port does not carry out an access. -/
def feRefuse (who : HostPort) (s : State) : State := modFe who (fun f => { f with done := false }) s

/-- A word access that the port serves; otherwise it is not carried out. -/
def access (who : HostPort) (f : State → State) (s : State) : State :=
  if feServes s who then f s else feRefuse who s

/-- Generation of a host class on channel `n` (R371). -/
def hostGen (c : MChan) : HostPort → BitVec 4
  | .twi => c.genTwi | .mspi => c.genMspi | .test => c.genTest

/-- Stamp of a message that a port posts on channel `n` (R370): class 0 carries the target address used. -/
def hostStamp (s : State) (who : HostPort) (n : Fin 8) : Stamp :=
  { cls := BitVec.ofNat 3 (classOf who)
    ident := if who == .twi then BitVec.ofNat 11 (0x58 + s.sys.addr.toNat) else 0
    gen := hostGen s.mbx.m[n] who }

/-- Generation of a host class by its number. -/
def classGen (c : MChan) (cls : Nat) : BitVec 4 :=
  match cls with
  | 0 => c.genTwi | 1 => c.genMspi | _ => c.genTest

end Sys2Proof.Machine
end

