-- ==== Sys2Proof/Machine/Monitor.lean ====
section
/-! DEFINITION. The monitor converter and the bias loops (R437 to R455): slots and rounds, the post-filter, urgent
conversions, loop updates and the monitor commands. -/

namespace Sys2Proof.Machine

/-! ### Presets, scan and slots (R438, R439) -/

/-- Slots of a round. -/
def presetSlots (p : BitVec 3) : Nat := if p = 3 then 4 else 32

/-- Invalid outputs after a change. -/
def presetInvalid (p : BitVec 3) : Nat :=
  match p.toNat with
  | 0 => 3 | 1 => 3 | 2 => 4 | 3 => 5 | _ => 0

/-- The loop is in SETPOINT or DITHER. -/
def BiasLoop.runs (l : BiasLoop) : Bool := l.mode == .setpoint || l.mode == .dither

/-- The union of a mask and the channels of every loop in SETPOINT or DITHER (R438). -/
def scanUnion (loops : Vector BiasLoop 24) (mask : Nat) : Nat :=
  loops.toList.foldl (fun a l => if l.runs then a ||| 2 ^ l.chan.toNat else a) mask

/-- The scan that will be in force at the next round boundary. -/
def scanNext (m : Mon) : BitVec 24 := BitVec.ofNat 24 (scanUnion m.loops m.hostMask.toNat)

/-- Number of channels in a mask. -/
def chanCount (mask : Nat) : Nat := ((List.range 24).filter fun c => mask.testBit c).length

/-- Slot of a channel: its own number, or in TRACK its place among the enabled channels. -/
def slotIx (p : BitVec 3) (scan : BitVec 24) (c : Nat) : Option Nat :=
  if p = 3 then
    if scan.getLsbD c then some ((List.range c).filter fun i => scan.getLsbD i).length else none
  else some c

/-- Preset and gains that will be in force. -/
def presetNext (m : Mon) : BitVec 3 := m.nextPreset.getD m.preset
/-- Gains that will be in force. -/
def gainsNext (m : Mon) : Word := m.nextGains.getD m.gains

/-- Gain code of a channel. -/
def gainOf (g : Word) (c : Nat) : Nat := if c < 16 then fld g (2 * c + 1) (2 * c) else 0

/-- A round begins: changes take effect (R438), channels that a change touches start with INVALID outputs (R439),
and histories that a change of preset or gain ends are cleared (R441). After a start of the converter every
channel enters the scan. -/
def roundStart (m : Mon) : Mon :=
  let preset := presetNext m
  let every := preset != m.preset
  let gains := gainsNext m
  let scan := scanNext m
  let regain := fun c => gainOf m.gains c != gainOf gains c
  { m with
    preset := preset, gains := gains, scan := scan, nextPreset := none, nextGains := none
    round := if every then 0 else if m.slot.isNone then m.round else m.round + 1
    invalid := Vector.ofFn fun c =>
      if scan.getLsbD c.val && (every || m.slot.isNone || !m.scan.getLsbD c.val || regain c.val)
      then presetInvalid preset else m.invalid[c]
    filt := Vector.ofFn fun c => if every || regain c.val then { m.filt[c] with history := [] } else m.filt[c] }

/-- The slot of channel `c` that ends belongs to a new round: the converter has just started, or a slot of the same
or a higher index has ended in the present one. (DEDUCED, notes/assumptions 104) -/
def newRound (m : Mon) (c : Nat) : Bool :=
  match m.slot, slotIx m.preset m.scan c with
  | none, _ => true
  | some l, some i => decide (i ≤ l)
  | some _, none => (scanNext m).getLsbD c

/-! ### Post-filter (R441, R442) -/

/-- Sum of taps times history, in 1/2^22. -/
def firSum (taps : List Int) (h : List (BitVec 24)) : Int :=
  (List.zipWith (fun t (x : BitVec 24) => t * (x.toNat : Int)) taps h).foldl (· + ·) 0

/-- The filter's output as a code. How a fraction is rounded and what a sum outside the codes gives is not stated: a
free value (DESIGN CHOICE, notes/assumptions 37). -/
def firCode (num den : Int) (free : Nat) : BitVec 24 :=
  let q := num / den
  if 0 ≤ num && decide (num % den = 0) && decide (q < 16777216) then BitVec.ofInt 24 q
  else if 0 ≤ num && decide (q + 1 < 16777216) then BitVec.ofInt 24 (q + (Config.freeNat free % 2 : Nat))
  else BitVec.ofNat 24 (Config.freeNat free)

/-- A valid output enters the history; a cleared history is filled with it. -/
def pushHistory (f : MonFilt) (x : BitVec 24) : MonFilt :=
  { f with history := if f.history.isEmpty then List.replicate 64 x else (x :: f.history).take 64 }

/-- One output of a filtered channel and the state after it. -/
def filterOut (m : Mon) (f : MonFilt) (free : Nat) : BitVec 24 × MonFilt :=
  match f.fade with
  | some i =>
    (firCode (firSum m.oldTaps f.history * (31 - i) + firSum m.taps f.history * (i + 1)) (32 * 4194304) free,
     { f with fade := if 31 ≤ i then none else some (i + 1) })
  | none => (firCode (firSum m.taps f.history) 4194304 free, f)

/-! ### Loop updates (R448, R449) -/

/-- The loop leaves a state: its runs of updates start anew. -/
def BiasLoop.enter (st : LoopState) (l : BiasLoop) : BiasLoop := { l with st := st, okRun := 0, badRun := 0 }

/-- State of a loop after an update. -/
def BiasLoop.judge (limited : Bool) (l : BiasLoop) : BiasLoop :=
  match l.st with
  | .settled => if 4 ≤ l.badRun || limited then l.enter .drift else l
  | .settling => if 8 ≤ l.okRun then l.enter .settled else l
  | .drift => if 8 ≤ l.okRun then l.enter .settled else l
  | .unsettled => if 8 ≤ l.okRun then l.enter .settled else l
  | .off => l
  | .fixed => l

/-- One update with the error num / den. (DEDUCED, notes/assumptions 109) -/
def BiasLoop.update (num den : Int) (l : BiasLoop) : BiasLoop :=
  let step := clampI (-(l.stepMax : Int)) l.stepMax (rdiv (num * l.ki) (65536 * den))
  let raw : Int := if l.sign then l.code + step else l.code - step
  let code := clampI l.codeMin l.codeMax raw
  let tol : Int := 16 * l.tol * den
  BiasLoop.judge (code != raw)
    { l with
      code := code.toNat
      okRun := if (num.natAbs : Int) ≤ tol then l.okRun + 1 else 0
      badRun := if 2 * tol < (num.natAbs : Int) then l.badRun + 1 else 0 }

/-- The code of a dither edge; outside the 16 bits of the bias DAC the manual states none: a free value
(DESIGN CHOICE, notes/assumptions 38). -/
def ditherCode (x : Int) (free : Nat) : Nat :=
  if 0 ≤ x && decide (x ≤ 65535) then x.toNat else Config.freeNat free % 65536

/-- A result reaches a loop (R448). -/
def BiasLoop.feed (v free : Nat) (l : BiasLoop) : BiasLoop :=
  match l.mode with
  | .off => l
  | .fixed => l
  | .setpoint =>
    let l := l.update ((v : Int) - l.target) 1
    { l with drive := l.code }
  | .dither =>
    let n := l.n + 1
    let sum := (if l.plus then l.sumPlus else l.sumMinus) + v
    if n < l.half then (if l.plus then { l with n := n, sumPlus := sum } else { l with n := n, sumMinus := sum })
    else if l.plus then
      { l with n := 0, nPlus := n, sumPlus := sum, plus := false, edge := some (ditherCode ((l.code : Int) - l.d) free) }
    else
      let num : Int := (l.sumPlus : Int) * n - (sum : Int) * l.nPlus
      let den : Int := (l.nPlus : Int) * n
      let l := l.update num den
      { l with n := 0, nPlus := 0, sumPlus := 0, sumMinus := 0, plus := true,
               edge := some (ditherCode ((l.code : Int) + l.d) free) }

/-- The dither edges due at the end of slot `j`: one slot before the slot of the loop's channel, that is at the end of
the slot two before it, or at a later slot end when that one was not shown. (DEDUCED, notes/assumptions 108) -/
def applyEdges (m : Mon) (j : Nat) : Mon :=
  let n := presetSlots m.preset
  { m with loops := m.loops.map fun l =>
      match l.edge, slotIx m.preset m.scan l.chan.toNat with
      | some e, some i => if (i + n - j % n) % n ≤ 2 then { l with drive := e, edge := none } else l
      | _, _ => l }

/-- BIAS_DRIFT and BIAS_UNSETTLED of a port follow its loops, and so do its outputs (R449, R450). (DEDUCED, notes/assumptions 110) -/
def biasPort (p : LPort) (s : State) : State :=
  let has := fun (st : LoopState) => (List.range 6).any fun i => (loopOf s p i).st == st
  refreshPort p (setAlarm (.line p) 19 (has .unsettled) (setAlarm (.line p) 18 (has .drift) s))

/-- A loop becomes UNSETTLED (R449). -/
def unsettle (k : Fin 24) (s : State) : State :=
  modMon (fun m => { m with loops := vmod m.loops k (BiasLoop.enter .unsettled), cntUnsettle := m.cntUnsettle + 1 }) s

/-- Every loop in SETPOINT or DITHER becomes UNSETTLED: MON is held failed (R460). -/
def unsettleAll (s : State) : State :=
  eachPort biasPort (eachOf ((List.finRange 24).filter fun k =>
    s.mon.loops[k].runs && s.mon.loops[k].st != .unsettled) unsettle s)

/-! ### A slot ends (R438, R439, R445) -/

/-- The converter runs (R448, R460). -/
def monRuns (s : State) : Bool := isOn s .mon && !s.mon.stopped

/-- TORN of the shadows that hold an older result (R445): counted once for each latch. -/
def tearShadows (c : Fin 24) (s : State) : State :=
  let torn := fun (f : FrontEnd) =>
    if f.monFresh[c] then { f with monHi := vmod f.monHi c (· ||| 0x00800000), monFresh := vset f.monFresh c false } else f
  let n := b2n s.twi.twi.monFresh[c] + b2n s.twi.mspi.monFresh[c] + b2n s.twi.test.monFresh[c]
  modMon (fun m => { m with cntTorn := m.cntTorn + wd n })
    (modTwi (fun t => { t with twi := torn t.twi, mspi := torn t.mspi, test := torn t.test }) s)

/-- A result of channel `c` is written (R439, R441, R444). (DEDUCED, notes/assumptions 105) -/
def writeResult (c : Fin 24) (code : BitVec 24) (ovr : Bool) (free : Nat) (m : Mon) : Mon :=
  let inv := m.invalid[c] != 0
  let r := m.res[c]
  let seq := r.seq + 1
  if inv then
    { m with
      invalid := vmod m.invalid c (· - 1), cntInvalid := m.cntInvalid + 1
      res := vset m.res c { seq := seq, invalid := true, refCold := m.refCold, ovr := ovr, filtered := false, data := code } }
  else
    let f := pushHistory m.filt[c] code
    let on := m.postMask.getLsbD c.val && m.preset != 4
    let o := if on then filterOut m f free else (code, f)
    { m with
      filt := vset m.filt c o.2
      res := vset m.res c { seq := seq, invalid := false, refCold := m.refCold, ovr := ovr, filtered := on, data := o.1 } }

/-- The loops on channel `c` take a result that is neither INVALID nor REF_COLD. -/
def feedLoops (c : Fin 24) (code : BitVec 24) (s : State) : State :=
  let hit := (List.finRange 24).filter fun k => s.mon.loops[k].runs && s.mon.loops[k].chan.toNat == c.val
  eachOf hit (fun k s =>
    let free := s.free
    biasPort (Fin.ofNat 4 (k.val / 6))
      (tookFree (modMon (fun m => { m with loops := vmod m.loops k (BiasLoop.feed code.toNat free) }) s))) s

/-- MON_SLOT_END: the slot of channel `c` ends with a code. A slot outside the scan is idle. -/
def monSlotEnd (c : Fin 24) (code : BitVec 24) (ovr : Bool) (s : State) : State :=
  if monRuns s then
    let s := modMon (fun m =>
      let m := if newRound m c.val then roundStart m else m
      match slotIx m.preset m.scan c.val with
      | some i => applyEdges { m with slot := some i } i
      | none => { m with slot := some (m.slot.getD 0) }) s
    if s.mon.scan.getLsbD c.val then
      let good := s.mon.invalid[c] == 0 && !s.mon.refCold
      let free := s.free
      let s := tookFree (modMon (writeResult c code ovr free) (tearShadows c s))
      if good then feedLoops c code s else s
    else s
  else s

/-- MON_SLOT_END. -/
def execMonSlotEnd (c : Fin 24) (code : BitVec 24) (ovr : Bool) (s : State) : Outcome :=
  .next (monSlotEnd c code ovr s)

/-- REF_COLD_END: 50 ms after the buffer was switched on (R440). -/
def refColdEnd (s : State) : State := modMon (fun m => { m with refCold := false }) s

/-- REF_COLD_END. -/
def execRefColdEnd (s : State) : Outcome := .next (refColdEnd s)

/-- BIAS_GRACE_EXPIRY: a loop in DRIFT becomes UNSETTLED (R449). While MON is not ON a loop holds its state. -/
def biasGraceExpiry (k : Fin 24) (s : State) : State :=
  if monRuns s && s.mon.loops[k].st == .drift then biasPort (Fin.ofNat 4 (k.val / 6)) (unsettle k s) else s

/-- BIAS_GRACE_EXPIRY. -/
def execBiasGraceExpiry (k : Fin 24) (s : State) : Outcome := .next (biasGraceExpiry k s)

/-! ### MON_CONFIG (R451) -/

/-- Preset, mask, gains and buffer that a MON_CONFIG asks for. -/
structure MonWant where
  preset : BitVec 3
  mask   : BitVec 24
  gains  : Word
  ref    : Bool
deriving DecidableEq, Repr

/-- What a MON_CONFIG comes to in a state. -/
def monWant (rq : Req) (m : Mon) : MonWant :=
  let w := par rq 0
  { preset := if bit w 28 then BitVec.ofNat 3 (fld w 31 29) else presetNext m
    mask := if bit w 25 then BitVec.ofNat 24 (pf rq 1 23 0) else m.hostMask
    gains := if bit w 24 then par rq 2 else gainsNext m
    ref := if bit w 26 then bit w 27 else m.refOn }

/-- SCAN_MASK that a MON_CONFIG leaves. -/
def monScan (rq : Req) (m : Mon) : Nat := scanUnion m.loops (monWant rq m).mask.toNat

/-- Parameter checks of MON_CONFIG. -/
def monChecks (rq : Req) (s : State) : List (Bool × Answer) :=
  let w := par rq 0
  [badAt [(fld w 22 0 != 0 || (bit w 28 && decide (4 < fld w 31 29)), 0), (pf rq 1 31 24 != 0, 1), (pf rq 3 31 24 != 0, 3)],
   ((monWant rq s.mon).preset == 3 && decide (4 < chanCount (monScan rq s.mon)), badParam 0xFF)]

/-- Some DRV_EN output is active. -/
def someDrv (s : State) : Bool := allPorts.any fun p => s.ports[p].front.drvEn

/-- State checks of MON_CONFIG (R440, R451). -/
def monStates (rq : Req) (s : State) : List (Bool × Answer) :=
  let m := s.mon
  let x := monWant rq m
  let used := scanUnion m.loops 0
  [(!x.ref && (monScan rq m != 0 || m.scan != 0), badState),
   (someDrv s && (x.preset != presetNext m ||
      (List.range 16).any fun c => used.testBit c && gainOf x.gains c != gainOf (gainsNext m) c), badState)]

/-- MON_CONFIG takes effect: buffer and post-filter mask at once, the rest at the next round boundary. (DEDUCED, notes/assumptions 73) -/
def monApply (rq : Req) (m : Mon) : Mon :=
  let x := monWant rq m
  { m with
    refOn := x.ref, refCold := x.ref && (m.refCold || !m.refOn)
    hostMask := x.mask
    nextPreset := if x.preset = m.preset then none else some x.preset
    nextGains := if x.gains = m.gains then none else some x.gains
    postMask := if bit (par rq 0) 23 then BitVec.ofNat 24 (pf rq 3 23 0) else m.postMask
    filt := if bit (par rq 0) 23 then
        Vector.ofFn fun c => if bit (par rq 3) c.val then m.filt[c] else { m.filt[c] with fade := none }
      else m.filt }

/-- MON_CONFIG. -/
def monConfig (rq : Req) (s : State) : State :=
  command 0x8001 rq (monChecks rq s) (monStates rq)
    (fun s => reply 0x8001 rq (okay [wd (monScan rq s.mon)]) (modMon (monApply rq) s)) s

/-- MON_CONFIG. -/
def execMonConfig (rq : Req) (s : State) : Outcome := .next (monConfig rq s)

/-! ### MON_COEF_LOAD, MON_READ (R452, R453) -/

/-- The block that a MON_COEF_LOAD names. -/
def coefBlock (rq : Req) (s : State) : List Word := bulkRead s.bulk (pf rq 0 23 0) 65

/-- Checks of MON_COEF_LOAD. -/
def coefLoadChecks (rq : Req) (s : State) : List (Bool × Answer) :=
  let ws := coefBlock rq s
  [badAt [(pf rq 0 31 24 != 0 || bulkBad (pf rq 0 23 0) 65, 0), ((par rq 1).toNat != 65, 1)],
   (!blockCrc ws || (ws.take 64).any (fun w => fld w 7 0 != 0), badParam 0xFF)]

/-- MON_COEF_LOAD: the fade starts with each filtered channel's next output; a running fade ends at its target. -/
def monCoefLoad (rq : Req) (s : State) : State :=
  commandOk 0x8002 rq (coefLoadChecks rq s) (fun _ => [])
    (fun s => modMon (fun m => { m with
      oldTaps := m.taps, taps := ((coefBlock rq s).take 64).map fun w => sgn 24 (fld w 31 8)
      filt := Vector.ofFn fun c => { m.filt[c] with fade := if m.postMask.getLsbD c.val then some 0 else none } }) s) s

/-- MON_COEF_LOAD. -/
def execMonCoefLoad (rq : Req) (s : State) : Outcome := .next (monCoefLoad rq s)

/-- A channel word of MON_READ (R453). -/
def chanWord (r : MonRes) : Word :=
  word [(31, 8, r.data.toNat), (7, 7, b2n r.invalid), (6, 6, b2n r.refCold), (5, 5, b2n r.ovr),
    (4, 4, b2n r.filtered), (3, 0, r.seq.toNat)]

/-- The words of MON_READ for the channels of a mask (R453). -/
def monReadWords (mask : Word) (s : State) : List Word :=
  word [(31, 16, s.mon.round.toNat), (15, 13, s.mon.preset.toNat), (12, 12, b2n s.mon.refOn), (11, 11, b2n s.mon.refCold)] ::
    ((List.finRange 24).filter fun c => bit mask c.val).map fun c => chanWord s.mon.res[c]

/-- What MON_READ answers. -/
def monReadAnswer (rq : Req) : State → State := answerReply 0x8003 rq (monReadWords (par rq 0))

/-- MON_READ (R453): a device-wide report. -/
def monRead (rq : Req) (s : State) : State :=
  report .device 0x8003 rq [badAt [(pf rq 0 31 24 != 0, 0)]] (monReadAnswer rq) s

/-- MON_READ. -/
def execMonRead (rq : Req) (s : State) : Outcome := .next (monRead rq s)

/-! ### MON_URGENT (R443, R454) -/

/-- Slot `i`, counted on from the present round's first slot, is idle in this round or the next. -/
def idleSlot (m : Mon) (i : Nat) : Bool :=
  let n := presetSlots m.preset
  !(if i < n then m.scan else scanNext m).getLsbD (i % n)

/-- Slots that the 78.125 µs of an urgent conversion overlap. -/
def urgentSlots (p : BitVec 3) : Nat := if p = 2 || p = 3 then 4 else 1

/-- Slots that may be running now: those after the last one that ended, up to the first of the scan. -/
def runningSlots (m : Mon) : List Nat :=
  let n := presetSlots m.preset
  match m.slot with
  | none => List.range n
  | some j =>
    let l := (List.range n).map (j + 1 + ·)
    let k := (l.takeWhile fun i => idleSlot m i).length
    l.take (k + 1)

/-- Whether an urgent conversion that starts at the next slot boundary is served: all slots that it overlaps must be
idle. Where the present slot decides and the ends of slots shown so far do not tell it, the answer is free
(DESIGN CHOICE, notes/assumptions 39). -/
def urgentServed (m : Mon) (free : Nat) : Bool :=
  if m.scan = 0 && scanNext m = 0 then true
  else if m.preset = 3 then false
  else
    let good := fun r => (List.range (urgentSlots m.preset)).all fun i => idleSlot m (r + 1 + i)
    let l := runningSlots m
    if l.all good then true else if l.any good then Config.freeNat free % 2 == 1 else false

/-- MON_URGENT: the answer follows the conversion. -/
def monUrgent (rq : Req) (s : State) : State :=
  command 0x8004 rq [badAt [(decide (23 < pf rq 0 31 27) || pf rq 0 26 0 != 0, 0)]]
    (fun s => [(!s.mon.refOn, badState)])
    (fun s =>
      if s.mon.urgent.isNone && urgentServed s.mon s.free then
        taken rq (tookFree (modMon (fun m => { m with urgent := some (rq, BitVec.ofNat 5 (pf rq 0 31 27)) }) s))
      else reply 0x8004 rq (busy 1) (tookFree (modMon (fun m => { m with cntUrgent := m.cntUrgent + 1 }) s))) s

/-- MON_URGENT. -/
def execMonUrgent (rq : Req) (s : State) : Outcome := .next (monUrgent rq s)

/-- MON_URGENT_DONE: the result is returned in the reply only. The low bits of SEQ are free: the conversion has no
sequence number of its own (DESIGN CHOICE, notes/assumptions 40). -/
def monUrgentDone (code : BitVec 24) (ovr : Bool) (s : State) : State :=
  match s.mon.urgent with
  | none => s
  | some (rq, _) =>
    if monRuns s then
      let r : MonRes := { seq := BitVec.ofNat 8 (Config.freeNat s.free), refCold := s.mon.refCold, ovr := ovr, data := code }
      reply 0x8004 rq (okay [chanWord r]) (tookFree (modMon (fun m => { m with urgent := none }) s))
    else s

/-- MON_URGENT_DONE. -/
def execMonUrgentDone (code : BitVec 24) (ovr : Bool) (s : State) : Outcome := .next (monUrgentDone code ovr s)

/-! ### BIAS_LOOP_SET (R455) -/

/-- Mode of a code. -/
def LoopMode.ofCode : Nat → LoopMode
  | 0 => .off | 1 => .fixed | 2 => .setpoint | _ => .dither

/-- Parameter checks of BIAS_LOOP_SET. -/
def loopChecks (rq : Req) : List (Bool × Answer) :=
  let code := pf rq 1 31 16
  let lo := pf rq 2 31 16
  let hi := pf rq 2 15 0
  [badAt [(decide (23 < pf rq 0 31 27) || decide (15 < pf rq 0 24 20) || pf rq 0 17 0 != 0, 0),
    (pf rq 1 15 0 == 0, 1), (decide (hi < lo), 2), (pf rq 3 7 0 != 0, 3),
    (pf rq 4 31 16 == 0 || pf rq 4 15 6 == 0 || decide (512 < pf rq 4 15 6) || pf rq 4 5 2 == 0 || pf rq 4 1 0 != 0, 4),
    (decide (1000 < pf rq 5 31 20) || pf rq 5 19 8 == 0 || pf rq 5 7 0 != 0, 5)],
   (decide (code < lo) || decide (hi < code), badParam 0xFF)]

/-- The loop that a BIAS_LOOP_SET names. -/
def loopIx (rq : Req) : Fin 24 := Fin.ofNat 24 (pf rq 0 31 27)

/-- State checks of BIAS_LOOP_SET (R440, R447, R455). -/
def loopStates (rq : Req) (s : State) : List (Bool × Answer) :=
  let m := s.mon
  let k := loopIx rq
  let l := m.loops[k]
  let mode := LoopMode.ofCode (pf rq 0 26 25)
  let run := mode == .setpoint || mode == .dither
  let chan := pf rq 0 24 20
  let others := (List.finRange 24).filter fun j => j != k && m.loops[j].runs
  let with_ := others.foldl (fun a j => a ||| 2 ^ (m.loops[j]).chan.toNat) (m.hostMask.toNat ||| 2 ^ chan)
  [(run && !m.refOn, badState),
   (run && others.any (fun j => (m.loops[j]).chan.toNat == chan), badState),
   (run && (m.preset == 3 || presetNext m == 3) && decide (4 < chanCount with_), badState),
   (s.ports[(Fin.ofNat 4 (k.val / 6) : Fin 4)].front.drvEn &&
      (mode != l.mode || chan != l.chan.toNat || bit (par rq 0) 19 != l.sign || pf rq 1 31 16 != l.start ||
        pf rq 2 31 16 != l.codeMin || pf rq 2 15 0 != l.codeMax), badState)]

/-- The fields of a BIAS_LOOP_SET other than its mode. -/
def loopFields (rq : Req) (l : BiasLoop) : BiasLoop :=
  { l with
    chan := BitVec.ofNat 5 (pf rq 0 24 20), sign := bit (par rq 0) 19, start := pf rq 1 31 16, ki := pf rq 1 15 0
    codeMin := pf rq 2 31 16, codeMax := pf rq 2 15 0, target := pf rq 3 31 8, tol := pf rq 4 31 16
    d := pf rq 4 15 6, half := pf rq 4 5 2, grace := pf rq 5 31 20, stepMax := pf rq 5 19 8 }

/-- A change of MODE restarts the loop at CODE; FIXED drives CODE. -/
def loopApply (rq : Req) (free : Nat) (l : BiasLoop) : BiasLoop :=
  let mode := LoopMode.ofCode (pf rq 0 26 25)
  let l' := loopFields rq l
  let code := l'.start
  if mode != l.mode then
    let st : LoopState := match mode with
      | .off => .off | .fixed => .fixed | .setpoint => .settling | .dither => .settling
    { (l'.enter st) with
      mode := mode, code := code, drive := code, highZ := mode == .off, plus := true
      n := 0, nPlus := 0, sumPlus := 0, sumMinus := 0
      edge := if mode == .dither then some (ditherCode ((code : Int) + l'.d) free) else none }
  else if mode == .fixed then { l' with code := code, drive := code }
  else l'

/-- BIAS_LOOP_SET. -/
def biasLoopSet (rq : Req) (s : State) : State :=
  let k := loopIx rq
  let p : LPort := Fin.ofNat 4 (k.val / 6)
  commandOk 0x8005 rq (loopChecks rq) (loopStates rq)
    (fun s =>
      let free := s.free
      biasPort p (tookFree (modMon (fun m => { m with
        loops := vmod m.loops k (loopApply rq free)
        muteOnDrift := vset m.muteOnDrift p (bit (par rq 0) 18) }) s))) s

/-- BIAS_LOOP_SET. -/
def execBiasLoopSet (rq : Req) (s : State) : Outcome := .next (biasLoopSet rq s)

end Sys2Proof.Machine
end

