-- ==== Sys2Proof/Machine/Recovery.lean ====
section
/-! DEFINITION. Recovery of fault units (R460, R462 to R464): what each level does, how a unit comes back and what
a held-failed unit is. -/

namespace Sys2Proof.Machine

/-! ### Device state (R464, R491) -/

/-- A unit other than AON is held failed. -/
def otherHeld (s : State) : Bool := (List.finRange 26).any fun i => i.val != 0 && (s.faults.units[i]).held

/-- The device state follows the units that are held failed (R464). -/
def heldChanged (s : State) : State :=
  if s.sys.dev == .boot then s
  else if unitHeld s .aon then (if s.sys.dev == .fault then s else refresh (moveDev .fault 0 s))
  else if s.sys.dev == .active && otherHeld s then moveDev .degraded 0 s
  else if s.sys.dev == .degraded && !otherHeld s then moveDev .active 0 s
  else s

/-! ### Domains of a unit -/

/-- The domain that a unit is. -/
def recDom : FUnit → Option Dom
  | .mon => some .mon | .map => some .map | .fq q => some (.fq q) | .cv n => some (.cv n) | .ld n => some (.ld n)
  | .ho q => some (.ho q) | .aon => none | .core _ => none

/-- PWR_EVT with OUTCOME 3 for a state change that PWR.STATE_A shows (R434). -/
def recEvent (d : Dom) (s : State) : State := if domBit d < 16 then pwrEvent 3 s else s

/-- A recovery takes a domain to a lower state; the bank of a port is kept in NAP (R425, R460). -/
def recDown (d : Dom) (target : PState) (s : State) : State :=
  if (domSt s d).code < target.code then recEvent d (domDown d target true s) else s

/-- A port whose domains are back returns to MUTED, and goes on to ACQUIRE with AUTO_START (R460). (DEDUCED, notes/assumptions 120) -/
def portBack (p : LPort) (s : State) : State :=
  let t := s.ports[p].tr
  if t.state == .down && t.enable && isOn s (.cv p) && isOn s (.ld p) then
    let s := enterMuted p s
    if bit t.policy[0] 29 then startAcquire p s else s
  else s

/-- The port of a unit comes back. -/
def unitBack (u : FUnit) (s : State) : State :=
  match u with
  | .cv n => portBack n s
  | .ld n => portBack n s
  | .aon => s | .mon => s | .map => s | .fq _ => s | .ho _ => s | .core _ => s

/-- The domain of a recovering unit returns to ON. A level-2 recovery of CVn then makes a foreground run, unless the
loss of its bank has started one (R327, R460). -/
def recWake (u : FUnit) (s : State) : State :=
  match recDom u with
  | none => s
  | some d =>
    if isOn s d then s
    else
      let s := recEvent d (domUp d .on s)
      let s := match u with
        | .cv n => if (unitSt s u).level == 2 && !s.power.muteCv.getLsbD n.val then calStart n .foreground calAll 2 s else s
        | .aon => s | .mon => s | .map => s | .fq _ => s | .ld _ => s | .ho _ => s | .core _ => s
      unitBack u s

/-- The unit's recovery action has its domain off ON. -/
def recAsleep (s : State) (d : Dom) : Bool :=
  (unitSt s (domUnit d)).recovering == 1 && recDom (domUnit d) == some d && !isOn s d

/-- A bank that a recovery kept fails its check: it is lost at the return (R426, R460). -/
def recBankFail (k : Fin 32) (s : State) : State :=
  let u := bankUnit k
  match recDom u with
  | some d =>
    if recAsleep s d && bit s.power.kept k.val then
      modPower (fun p => { p with kept := putBit p.kept k.val false, cause := vset p.cause k 3 }) s
    else s
  | none => s

/-! ### Actions (R460) -/

/-- Lanes of an octet. -/
def octetLanes (q : Fin 4) : List HLane := (List.finRange 32).filter fun k => octet k == q

/-- The logic of LDn is reset: the receiver loses its lock and acquires anew; the settings come from BANK08 + n. -/
def resetLine (n : LPort) (s : State) : State :=
  if s.ports[n].tr.state == .down then s
  else maybeAcquire n (lockLoss n (unalign n (modRx n Rx.drop s)))

/-- The synthesizer of CVn is relocked and the working values are set to their targets (R329). -/
def relock (n : LPort) (s : State) : State :=
  if isOn s (.cv n) then refresh (calSnap n (modFront n (fun f => { f with locked := false, attempt := true }) s)) else s

/-- The action of a level starts. (DEDUCED, notes/assumptions 119) -/
def startAction (u : FUnit) (level : Nat) (s : State) : State :=
  match u with
  | .cv n =>
    if level = 1 then relock n s
    else wakeAttempts [(.cv n, .nap, .on)] (recDown (.cv n) .nap s)
  | .ld n => if level = 1 then resetLine n s else recDown (.ld n) .nap s
  | .fq q => if level = 1 then recDown (.fq q) .nap s else recDown (.fq q) .off s
  | .map => if level = 1 then s else recDown .map .off s
  | .ho q => if level = 1 then leaveOn (.ho q) s else recDown (.ho q) .off s
  | .core c => restartCore c none s
  | .mon => s
  | .aon => s

/-- The mutes of a port by faults follow its units and AON (R460). -/
def faultMutes (p : LPort) (s : State) : State :=
  let cv := unitDown s (.cv p) || aonDown s
  let any := cv || unitDown s (.ld p)
  modFront p (fun f => { f with faultMute := any, faultDrv := cv }) s

/-- The converter starts again: the buffer, when it is on, is cold (R440); at level 2 the post-filter passes its
input through. (DEDUCED, notes/assumptions 106) -/
def restartMon (level : Nat) (m : Mon) : Mon :=
  let m := { m with stopped := false, slot := none, refCold := m.refOn }
  if level = 2 then { m with taps := monTapsReset, oldTaps := monTapsReset, filt := Vector.replicate 24 {} } else m

/-- What the end of the action of a level does in the unit. -/
def finishAction (u : FUnit) (level : Nat) (s : State) : State :=
  match u with
  | .cv n =>
    let s := if level = 1 && isOn s (.cv n) then modFront n (fun f => { f with locked := true, attempt := false }) s else s
    maybeAcquire n (refresh (doIf (level == 2) (portBack n) (faultMutes n s)))
  | .ld n => maybeAcquire n (refresh (doIf (level == 2) (portBack n) (faultMutes n s)))
  | .fq _ => fenceAlarms s
  | .map => modMap (fun m => { m with stopped := false }) s
  | .ho q => if level = 1 then eachOf (octetLanes q) trainLane s else s
  | .core c => coreRuns c s
  | .mon => modMon (restartMon level) s
  | .aon => refresh (eachPort faultMutes s)

/-- Commands at a core that stops are answered INTERNAL (R460). -/
def stopCore (c : Core) (code : BitVec 8) (s : State) : State :=
  let fw := s.mbx.forwards.filter (·.core == c)
  let done := (s.sys.restarts.filter (·.1 == c)).filterMap (·.2)
  let a : Answer := { st := .internal, detail := code.toNat }
  let s := modSys (fun y => { y with restarts := y.restarts.filter (·.1 != c) }) s
  let s := eachOf fw (fun f => reply f.opcode.toNat f.rq a) (forgetLater (fw.map (·.rq.src)) s)
  eachOf done (fun rq => reply 0x0003 rq a) s

/-- A unit is held failed (R460, R463). -/
def holdUnit (u : FUnit) (code : BitVec 8) (s : State) : State :=
  let s := modUnit u (fun x => { x with recovering := 0, level := 0, held := true, lastSeq := none }) s
  let s := match u with
    | .cv n => recDown (.cv n) .off s
    | .ld n => recDown (.ld n) .off s
    | .fq q => fenceAlarms (recDown (.fq q) .off s)
    | .ho q => recDown (.ho q) .off s
    | .mon => unsettleAll (modMon (fun m => { m with stopped := true }) s)
    | .map => modMap (fun m => { m with stopped := true }) s
    | .core c => stopCore c code s
    | .aon => s
  heldChanged s

end Sys2Proof.Machine
end

