-- ==== Sys2Proof/Machine/Crown.lean ====
section
/-! DEFINITION. Crown (R337 to R366): taking packets from their channels and forwarding them, timeouts, and
the commands of class 0x00 but for CONFIG_COMMIT; LINE_PM_READ. -/

namespace Sys2Proof.Machine

/-! ### Taking a packet (R341 to R346, R355, R364) -/

/-- Channel codes of R346. -/
def chanCode : Chan → Nat
  | .m n => n.val | .j n => 8 + n.val

/-- Inbound queue of a channel. -/
def inQueue (s : State) : Chan → List QWord
  | .m n => s.mbx.m[n].inQ | .j n => s.mbx.j[n].inQ

/-- A command of the channel is in progress. -/
def chanBusy (s : State) : Chan → Bool
  | .m n => s.mbx.m[n].busy | .j n => s.mbx.j[n].busy

/-- SUP runs and can take packets (R355, R369). -/
def supTakes (s : State) : Bool := s.sys.supRuns && isOn s .ctl && !s.sys.inReset && !s.test.held

/-- Take `k` words from a channel: SPACE is set when IN_FREE rises to 8 or more (R381), and the channel is in
use until its reply is posted (R343). -/
def takeWords (c : Chan) (k : Nat) (s : State) : State :=
  match c with
  | .m n =>
    let before := s.mbx.m[n].inQ.length
    let s := modM n (fun x => { x with inQ := x.inQ.drop k, busy := true }) s
    doIf (decide (8 < before) && decide (before - k ≤ 8)) (ring (8 + n.val)) s
  | .j n => modJ n (fun x => { x with inQ := x.inQ.drop k, busy := true }) s

/-- A partial message of the channel ends. -/
def endPart (c : Chan) (s : State) : State :=
  match c with
  | .m n => modM n (fun x => { x with inPart := none }) s
  | .j _ => s

/-- Count one of the Crown counters. -/
def crownCount (f : CrownCnt → CrownCnt) (s : State) : State := modSys (fun y => { y with cnt := f y.cnt }) s

/-- Parameter words that the catalogue expects: 0xFF for a range, 0 for an opcode that does not exist. (DEDUCED, notes/assumptions 18) -/
def wordsExpected (opcode : Nat) : Nat :=
  match catRow opcode with
  | some r => if r.lo == r.hi then r.lo else 0xFF
  | none => 0

/-- BAD_LENGTH with the parameter words received (R342, R346). -/
def badLength (opcode received : Nat) : Answer :=
  { st := .badLength, detail := min received 255 * 65536 + wordsExpected opcode * 256 }

/-- Steps 2 to 4 of R341 for a whole packet, with the counter of the first that fails. -/
def packetCheck (ws : List Word) : Option (Answer × (CrownCnt → CrownCnt)) :=
  let op := pktOp ws
  if !pktCrc ws then some ({ st := .badCrc }, fun x => { x with badCrc := x.badCrc + 1 })
  else if (catRow op).isNone then some ({ st := .badOpcode }, fun x => { x with badOpcode := x.badOpcode + 1 })
  else if !wordsFit op (pktCount ws) then
    some (badLength op (pktCount ws), fun x => { x with badLength := x.badLength + 1 })
  else none

/-- Error code of the latest log entry of a unit (R346, R466). -/
def lastCode (s : State) (u : FUnit) : Nat := ((s.faults.log.find? (·.unit == u)).map (·.code.toNat)).getD 0

/-- What SUP answers for a core that cannot take a command: BUSY while it restarts or recovers, INTERNAL when
it is held failed (R360, R460). -/
def coreAnswer (s : State) (c : Core) : Option Answer :=
  if c == .sup then none
  else if unitHeld s (.core c) then some { st := .internal, detail := lastCode s (.core c) }
  else if restarting s c || unitDown s (.core c) then some busy
  else none

/-- Steps 5 to 7 of R341, then the core. -/
def policyCheck (s : State) (op : Nat) (ps : List Word) (c : Chan) (st : Stamp) :
    Option (Answer × (CrownCnt → CrownCnt)) :=
  match permission s op ps (some c) st with
  | some a => some (a, fun x => { x with notPermitted := x.notPermitted + 1 })
  | none =>
    if !stateAllows s.sys.dev op ps then some (badDevState s, id)
    else match locked s op ps with
      | some a => some (a, id)
      | none => (coreAnswer s (coreFor s op ps)).map fun a => (a, id)

/-- Forward a command to its core (R25, R378): SUP's record, and the internal channel of the core. -/
def forward (op : Nat) (rq : Req) (words : Nat) (s : State) : State :=
  let c := coreFor s op rq.params
  let m : IcMsg := { opcode := BitVec.ofNat 16 op, rq := rq, words := words }
  let f : Forward := { core := c, opcode := BitVec.ofNat 16 op, rq := rq, taken := c == .sup }
  let s := modMbx (fun x => { x with forwards := x.forwards ++ [f] }) s
  match supIc c with
  | none => s
  | some i =>
    let s := setAborted .sup i false s
    let put := fun (k : IcChan) => IcChan.fill { k with reqWait := k.reqWait ++ [m] }
    modMbx (fun x => { x with ic := vmod x.ic i put }) s

/-- A host message is stale when its class restarted since it was posted (R372). -/
def inStale (s : State) (c : Chan) (st : Stamp) : Bool :=
  match c with
  | .m n => classGen s.mbx.m[n] st.cls.toNat != st.gen
  | .j _ => ((s.mbx.nodeGen.find? (·.1 == st.ident)).map (·.2.1)).getD 0 != st.gen

/-- Answer a packet that failed a check. -/
def refusePacket (op : Nat) (rq : Req) (c : Chan) (r : Answer × (CrownCnt → CrownCnt)) (s : State) : State :=
  replyChan c op rq r.1 false (crownCount r.2 s)

/-- The channels that bring packets, in the order in which ties are broken (R344). -/
def cmdChans : List Chan := (List.finRange 8).map Chan.m ++ (List.finRange 4).map Chan.j

/-- When the last word arrived of the packet that waits on a channel; of a packet whose COUNT exceeds 14, its word 0 (R344). -/
def packetArrival (s : State) (c : Chan) : Option Nat :=
  if chanBusy s c then none
  else match inQueue s c with
    | [] => none
    | q :: rest => if 14 < fld q.w 7 0 then some q.arrived else ((q :: rest)[fld q.w 7 0 + 1]?).map (·.arrived)

/-- No packet on another channel comes before the one on `c`: SUP takes waiting packets in the order in which their last
words arrived, ties in channel order (R344); other rows come in the order of execution (DEDUCED, notes/assumptions 152). -/
def supTurn (s : State) (c : Chan) : Bool :=
  match packetArrival s c with
  | none => true
  | some a => cmdChans.all fun d =>
    (packetArrival s d).all fun b => decide (a < b) || (a == b && decide (chanCode c ≤ chanCode d))

/-- CROWN_PACKET_TAKE: SUP takes the next packet of a channel when it is its turn, checks it (R341) and executes or forwards it. -/
def crownPacketTake (c : Chan) (s : State) : State :=
  match inQueue s c with
  | [] => s
  | q :: rest =>
    if !supTakes s || chanBusy s c || !supTurn s c then s
    else
      let ws := q.w :: rest.map (·.w)
      let op := pktOp ws
      let n := pktCount ws
      let rq : Req := { src := .chan c, tag := BitVec.ofNat 8 (pktTag ws), stamp := q.stamp, params := pktParams ws }
      let s0 := modMbx (fun x => { x with cntStale := if inStale s c q.stamp then x.cntStale + 1 else x.cntStale })
        (crownCount (fun x => { x with rx := x.rx + 1 }) s)
      if 14 < n then
        refusePacket op rq c (badLength op (min rest.length n), fun x => { x with badLength := x.badLength + 1 })
          (endPart c (takeWords c ws.length s0))
      else if ws.length < n + 2 then s
      else
        let s1 := takeWords c (n + 2) s0
        match packetCheck (ws.take (n + 2)) with
        | some r => refusePacket op rq c r s1
        | none =>
          match policyCheck s1 op rq.params c q.stamp with
          | some r => refusePacket op rq c r s1
          | none => forward op rq (n + 2) s1

/-- CROWN_PACKET_TAKE. -/
def execCrownPacketTake (c : Chan) (s : State) : Outcome := .next (crownPacketTake c s)

/-- CROWN_WORD_TIMEOUT: the words of a packet whose word 0 SUP has taken have not arrived within 10 ms (R341,
R342). -/
def crownWordTimeout (c : Chan) (s : State) : State :=
  match inQueue s c with
  | [] => s
  | q :: rest =>
    let n := fld q.w 7 0
    if !supTakes s || chanBusy s c || 14 < n || n + 2 ≤ rest.length + 1 then s
    else
      let op := fld q.w 31 16
      let rq : Req := { src := .chan c, tag := BitVec.ofNat 8 (fld q.w 15 8), stamp := q.stamp, params := [] }
      refusePacket op rq c (badLength op (min rest.length n), fun x =>
          { x with rx := x.rx + 1, badLength := x.badLength + 1 })
        (endPart c (takeWords c (rest.length + 1) s))

/-- CROWN_WORD_TIMEOUT. -/
def execCrownWordTimeout (c : Chan) (s : State) : Outcome := .next (crownWordTimeout c s)

/-- Whatever was to answer a command later no longer does. -/
def disown (src : Src) (s : State) : State :=
  let keep := fun (r : Req) => r.src != src
  let s := forgetLater [src] s
  let s := modPower (fun p => { p with trans := p.trans.map fun t => { t with rq := t.rq.filter keep } }) s
  let s := modSys (fun y => { y with
    restarts := y.restarts.map fun r => (r.1, r.2.filter keep)
    blobRun := y.blobRun.map fun r => { r with rq := r.rq.filter keep } }) s
  modMon (fun m => { m with urgent := m.urgent.filter fun u => keep u.1 }) s

/-- The command waits for its change in the Dial: it is not executed at once, and no time limit ends it (R32, R345). -/
def inDial (s : State) (src : Src) : Bool := s.dial.evs.any fun e => e.implicit.any fun r => r.src == src

/-- CROWN_REPLY_TIMEOUT: a core has not replied in time to a command executed at once; SUP replies TIMEOUT and logs a fault
of the executing core (R345, R459). -/
def crownReplyTimeout (c : Chan) (s : State) : State :=
  match s.mbx.forwards.find? (fun f => f.rq.src == .chan c && !inDial s f.rq.src) with
  | none => s
  | some f =>
    let s := crownCount (fun x => { x with timeout := x.timeout + 1 }) (disown f.rq.src s)
    detectCore f.core 5 (reply f.opcode.toNat f.rq { st := .timeout } s)

/-- CROWN_REPLY_TIMEOUT. -/
def execCrownReplyTimeout (c : Chan) (s : State) : Outcome := .next (crownReplyTimeout c s)

/-- CORE_RESTART_DONE: a core that SYS_RESET CORE restarted runs again (R360, R515). -/
def coreRestartDone (c : Core) (s : State) : State :=
  if unitDown s (.core c) then s else coreRuns c s

/-- CORE_RESTART_DONE. -/
def execCoreRestartDone (c : Core) (s : State) : Outcome := .next (coreRestartDone c s)

/-! ### SYS_IDENT, SYS_STATUS (R358, R359) -/

/-- SYS.ID (R4). -/
def sysId : Word := 0x6400B010

/-- The unique ID, most significant word first. -/
def uidWords : List Word := [3, 2, 1, 0].map fun i => Config.uniqueId.extractLsb' (32 * i) 32

/-- The eight words of SYS_IDENT (R358). -/
def identWords (s : State) : List Word :=
  sysId :: uidWords ++ [s.sys.fwVer, word [(31, 30, s.sys.bootSrc.toNat)],
    word [(31, 21, s.jrx.nodeId.toNat), (20, 20, b2n s.jrx.nidValid)]]

/-- What SYS_IDENT answers. -/
def sysIdentAnswer (rq : Req) : State → State := answerReply 0x0001 rq identWords

/-- SYS_IDENT (R358): a device-wide report. -/
def sysIdent (rq : Req) (s : State) : State := report .device 0x0001 rq [] (sysIdentAnswer rq) s

/-- SYS_IDENT. -/
def execSysIdent (rq : Req) (s : State) : Outcome := .next (sysIdent rq s)

/-- The eleven words of SYS_STATUS (R359). -/
def statusWords (s : State) : List Word :=
  let y := s.sys
  let st := fun (p : LPort) => (s.ports[p].tr.state).code
  [word [(31, 29, y.dev.code), (28, 27, s.power.profile.code), (26, 26, b2n y.started), (25, 25, b2n y.pending.isSome),
      (24, 21, (y.pending.map (·.channel.toNat)).getD 0), (20, 17, y.holdReason.toNat)],
   y.configId,
   word [(31, 29, st 0), (28, 26, st 1), (25, 23, st 2), (22, 20, st 3), (19, 19, b2n s.map.regen[0]), (18, 18, b2n s.map.regen[1])],
   uptimeMs s, y.cnt.rx, y.cnt.badLength, y.cnt.badCrc, y.cnt.badOpcode, y.cnt.notPermitted, y.cnt.replyDrop, y.cnt.timeout]

/-- What SYS_STATUS answers. -/
def sysStatusAnswer (rq : Req) : State → State := answerReply 0x0002 rq statusWords

/-- SYS_STATUS (R359): a device-wide report. -/
def sysStatus (rq : Req) (s : State) : State := report .device 0x0002 rq [] (sysStatusAnswer rq) s

/-- SYS_STATUS. -/
def execSysStatus (rq : Req) (s : State) : Outcome := .next (sysStatus rq s)

/-! ### SYS_RESET (R360) -/

/-- The core that SYS_RESET names. -/
def resetCore (code : Nat) : Core := if code < 4 then .pc (Fin.ofNat 4 code) else if code = 4 then .hc else .jg

/-- SYS_RESET (R360). -/
def sysReset (rq : Req) (s : State) : State :=
  let w := par rq 0
  let kind := fld w 31 30
  let c := resetCore (fld w 29 27)
  command 0x0003 rq [badAt [(1 < kind || (kind == 1 && 5 < fld w 29 27) || fld w 26 16 != 0 || fld w 15 0 != 0x6400, 0)]]
    (fun s => [(kind == 1 && unitHeld s (.core c), badState (coreCode c)),
               (kind == 1 && (restarting s c || unitDown s (.core c)), busy)])
    (fun s => if kind = 0 then modSys (fun y => { y with resetDue := true }) (reply 0x0003 rq (okay []) s)
      else restartCore c (some rq) (taken rq s)) s

/-- SYS_RESET. -/
def execSysReset (rq : Req) (s : State) : Outcome := .next (sysReset rq s)

/-! ### Configuration blobs (R361, R488, R489) -/

/-- Cut a list of words into packets; none when the last one is short. -/
def splitPackets : Nat → List Word → Option (List (List Word))
  | _, [] => some []
  | 0, _ => none
  | fuel + 1, ws =>
    let n := pktCount ws + 2
    if ws.length < n then none else (splitPackets fuel (ws.drop n)).map (ws.take n :: ·)

/-- Opcodes that a blob may hold (R489). -/
def blobAllows (op : Nat) : Bool :=
  op == 0x0009 || op == 0x1003 || op == 0x6004 ||
    [0x20, 0x28, 0x30, 0x40, 0x50, 0x70, 0x80, 0x90, 0xA0].contains (op / 256)

/-- Check a blob (R489): its packets, or the HOLD_REASON of the first check that fails. `len` is the LENGTH of
CONFIG_LOAD; none for the blob of the flash. -/
def blobCheck (ws : List Word) (len : Option Nat) : Except Nat (List (List Word)) :=
  let w := fun i => ws.getD i 0
  let n := (w 2).toNat
  let k := fld (w 3) 31 16
  if len.isNone && w 0 == 0xFFFFFFFF then .error 8
  else if w 0 != 0x56434601 || w 1 == 0 || n < 7 || 65536 < n || k == 0 || (len.any (· != n)) then .error 4
  else if w (n - 1) != 0x434F4D54 then .error 3
  else if crc32c (ws.take (n - 2)) != w (n - 2) then .error 2
  else
    match splitPackets n ((ws.take (n - 2)).drop 4) with
    | none => .error 4
    | some ps =>
      if ps.length != k then .error 4
      else if ps.any (fun x => (packetCheck x).isSome || !blobAllows (pktOp x)) then .error 5
      else .ok ps

/-- DETAIL of CONFIG_LOAD for a HOLD_REASON (R489). -/
def loadDetail : Nat → Nat
  | 2 => 1 | 3 => 2 | 5 => 4 | _ => 3

/-- Channel code of a command's source. -/
def srcChan : Src → Nat
  | .chan c => chanCode c | .dial _ => 0 | .blob => 0

/-- CONFIG_LOAD (R361). -/
def configLoad (rq : Req) (s : State) : State :=
  let off := pf rq 0 23 0
  let len := (par rq 1).toNat
  command 0x0004 rq [badAt [(pf rq 0 31 24 != 0 || (len != 0 && bulkBad off len), 0)]]
    (fun s => [(s.sys.dev != .hold && s.sys.dev != .ready, badDevState s), (s.sys.blobRun.isSome, busy)])
    (fun s =>
      if len = 0 then reply 0x0004 rq (okay []) (modSys (fun y => { y with pending := none }) s)
      else
        let ws := bulkRead s.bulk off len
        match blobCheck ws (some len) with
        | .error r => reply 0x0004 rq { st := .badParam, detail := 0xFF0000 + loadDetail r } s
        | .ok ps =>
          let b : Blob := { configId := ws.getD 1 0, packets := ps, channel := BitVec.ofNat 4 (srcChan rq.src) }
          reply 0x0004 rq (okay []) (modSys (fun y => { y with pending := some b }) s)) s

/-- CONFIG_LOAD. -/
def execConfigLoad (rq : Req) (s : State) : Outcome := .next (configLoad rq s)

/-! ### OUTPUTS_START, OUTPUTS_STOP (R363, R491) -/

/-- OUTPUTS_START (R363). -/
def outputsStart (rq : Req) (s : State) : State :=
  let d := s.sys.dev
  command 0x0006 rq [] (fun s => [(d != .ready && d != .active && d != .degraded, badDevState s)])
    (fun s =>
      if d == .ready then
        reply 0x0006 rq (okay []) (refresh (moveDev (if otherHeld s then .degraded else .active) 0 s))
      else reply 0x0006 rq (okFlags 1) s) s

/-- OUTPUTS_START. -/
def execOutputsStart (rq : Req) (s : State) : Outcome := .next (outputsStart rq s)

/-- Every DRV_EN output falls, after its mute (R95). -/
def allDrvLow (s : State) : State :=
  eachPort (fun p => modFront p fun f => { f with drvEn := false, drvFalling := false, tDrv := none, muted := true }) s

/-- OUTPUTS_STOP (R363): the reply follows the mutes and the falls of DRV_EN. -/
def outputsStop (rq : Req) (s : State) : State :=
  command 0x0007 rq [] (fun _ => [])
    (fun s =>
      if s.sys.dev == .active || s.sys.dev == .degraded then
        reply 0x0007 rq (okay []) (refresh (allDrvLow (moveDev .ready 0 s)))
      else reply 0x0007 rq (okFlags 1) s) s

/-- OUTPUTS_STOP. -/
def execOutputsStop (rq : Req) (s : State) : Outcome := .next (outputsStop rq s)

/-! ### ID_ATTEST, PERM_SET, PERM_GET (R365, R366) -/

/-- The 50 words of ID_ATTEST (R365). The signature depends on the private key and fresh randomness: its words
are free values. -/
def attestWords (rq : Req) (s : State) : List Word :=
  let ws := sysId :: (List.range 4).map (fun i => par rq (1 + i)) ++ uidWords ++ s.sys.digest.toList ++
    (List.range 16).map (freeWordAt s) ++ (List.range 16).map Config.publicKey
  ws ++ [crc32c ws]

/-- ID_ATTEST (R365). -/
def idAttest (rq : Req) (s : State) : State :=
  let off := pf rq 0 23 0
  command 0x0008 rq [badAt [(pf rq 0 31 24 != 0 || bulkBad off 50, 0)]] (fun _ => [])
    (fun s => reply 0x0008 rq (okay [50]) (putBulk off (attestWords rq s) (tookFree s))) s

/-- ID_ATTEST. -/
def execIdAttest (rq : Req) (s : State) : Outcome := .next (idAttest rq s)

/-- Channel of a code (R346). -/
def chanOf (code : Nat) : Option Chan :=
  if code < 8 then some (.m (Fin.ofNat 8 code)) else if code < 12 then some (.j (Fin.ofNat 4 (code - 8))) else none

/-- The mask that a word 0 of PERM_SET names. -/
def permNamed (s : State) (w : Word) : Option Word :=
  match chanOf (fld w 31 28) with
  | some c => permMask s.sys.perms c (fld w 27 25)
  | none => none

/-- Store a permission mask (R366). -/
def setPerm (w m : Word) (p : Perms) : Perms :=
  match chanOf (fld w 31 28), fld w 27 25 with
  | some (.m n), 0 => { p with twi := vset p.twi n m }
  | some (.m n), 1 => { p with mspi := vset p.mspi n m }
  | some (.m _), 4 => { p with test := m }
  | some (.j n), 2 => { p with jrx := vset p.jrx n m }
  | _, _ => p

/-- PERM_SET (R366). -/
def permSet (rq : Req) (s : State) : State :=
  let w := par rq 0
  let m := par rq 1
  commandOk 0x0009 rq [badAt [(fld w 24 0 != 0 || (permNamed s w).isNone, 0), (fld m 31 27 != 0, 1)]] (fun _ => [])
    (modSys fun y => { y with perms := setPerm w m y.perms }) s

/-- PERM_SET. -/
def execPermSet (rq : Req) (s : State) : Outcome := .next (permSet rq s)

/-- PERM_GET (R366): its one word is no multi-word payload (R349), and it is answered at once. -/
def permGet (rq : Req) (s : State) : State :=
  let w := par rq 0
  command 0x000A rq [badAt [(fld w 24 0 != 0 || (permNamed s w).isNone, 0)]] (fun _ => [])
    (fun s => reply 0x000A rq (okay [(permNamed s w).getD 0]) s) s

/-- PERM_GET. -/
def execPermGet (rq : Req) (s : State) : Outcome := .next (permGet rq s)

/-! ### LINE_PM_READ (R357) -/

/-- The 37 words of LINE_PM_READ (R357). -/
def pmWords (s : State) (p : LPort) : List Word :=
  let x := s.ports[p]
  [x.sf.alignLoss, x.sf.sfohBad, x.sf.psfnMismatch, x.sf.psfnJump, x.sf.formatMismatch] ++
  two x.sf.spanBipErr ++ two x.sf.pathBipErr ++ [x.rx.acqStart, x.rx.acqFail, x.rx.los, x.rx.eqReconverge] ++
  two x.rx.eqErased ++ [x.rx.phaseSlip, x.rx.foRangeEvt, x.rx.cdCoverEvt] ++ x.front.adcClip.toList.flatMap two ++
  [x.front.synthUnlock, s.pins.muteEvents] ++ x.tx.dacClip.toList.flatMap two ++ [x.tx.skewClamp]

/-- What LINE_PM_READ answers: 37 words in bulk memory. -/
def linePmAnswer (rq : Req) : State → State := answerBulk 0x2006 rq (pf rq 0 23 0) (pmWords · (pport rq 0))

/-- LINE_PM_READ (R357): a report about the port. -/
def linePmRead (rq : Req) (s : State) : State :=
  report (.port (pport rq 0)) 0x2006 rq [badAt [(pf rq 0 29 24 != 0 || bulkBad (pf rq 0 23 0) 37, 0)]] (linePmAnswer rq) s

/-- LINE_PM_READ. -/
def execLinePmRead (rq : Req) (s : State) : Outcome := .next (linePmRead rq s)

end Sys2Proof.Machine
end

