-- ==== Sys2Proof/Machine/LineCode.lean ====
section
/-! DEFINITION. The line's codes as pure functions: pilots and alignment word (R40, R42), BIP-32 (R47),
symbol mapping and shaping (R161 to R164), net rate (R168), codeword counts and the inner code (R184 to
R188). -/

namespace Sys2Proof.Machine

/-! ### Pilots and the alignment word (R39 to R43) -/

/-- One step of the pilot register x^11 + x^9 + 1 (R40). -/
def pilotStep (s : Nat) : Nat := s * 2 % 2048 + (s / 1024 + s / 256) % 2

/-- Output bit `n` of the pilot register of a polarisation within a frame. -/
def pilotBit (y : Bool) (n : Nat) : Bool :=
  Nat.rec (if y then 0x2A5 else 0x7FF) (fun _ s => pilotStep s) n / 1024 % 2 == 1

/-- Signs of pilot `b` of a frame: the real and imaginary parts are negative where true. -/
def pilot (y : Bool) (b : Nat) : Bool × Bool := (pilotBit y (2 * b), pilotBit y (2 * b + 1))

/-- One step of the alignment-word register (R42). -/
def alignStep (y : Bool) (s : Nat) : Nat := s * 2 % 32 + (s / 16 + s / (if y then 2 else 4)) % 2

/-- Bit of the alignment word at symbol 1 + `n`, for n from 0 to 30. -/
def alignBit (y : Bool) (n : Nat) : Bool := Nat.rec 31 (fun _ s => alignStep y s) n / 16 % 2 == 1

/-- Data symbols of a superframe per polarisation (R42). -/
def dataSymbols : Nat := 256 * 4032 - 31

/-- A match of the alignment word (R43): at least 27 of 31 symbols right on each polarisation. -/
def alignMatch (x y : List Bool) : Bool :=
  let good := fun (pol : Bool) (l : List Bool) => ((l.zipIdx).filter fun e => e.1 == alignBit pol e.2).length
  decide (27 ≤ good false x) && decide (27 ≤ good true y)

/-! ### BIP-32 (R47) -/

/-- The XOR of the words covered. -/
def bip32 (ws : List Word) : Word := ws.foldl (· ^^^ ·) 0

/-- Bits in which two BIPs disagree, 0 to 32. -/
def bipDiff (a b : Word) : Nat := ((List.range 32).filter fun i => bit (a ^^^ b) i).length

/-! ### Uniform formats (R161) -/

/-- Bits per symbol and polarisation of a uniform MOD; the acquisition format is DP-QPSK (R165). -/
def uniformBits (mod_ : Nat) : Option Nat :=
  match mod_ with
  | 1 => some 2 | 2 => some 3 | 3 => some 4 | 4 => some 5 | 15 => some 2 | _ => none

/-- Level of a sign bit. -/
def level2 (b : Bool) : Int := if b then 1 else -1

/-- Level of two label bits. -/
def level4 (hi lo : Bool) : Int :=
  match hi, lo with
  | false, false => -3 | false, true => -1 | true, true => 1 | true, false => 3

/-- DP-32QAM magnitudes (I, Q) of b2 b1 b0. -/
def cross32 (b : Nat) : Int × Int :=
  match b with
  | 0 => (3, 3) | 1 => (5, 1) | 2 => (1, 3) | 3 => (1, 1) | 4 => (3, 5) | 5 => (3, 1) | 6 => (1, 5) | _ => (5, 3)

/-- The point of a label of m bits, first bit most significant, before scaling. -/
def uniformPoint (mod_ label : Nat) : Int × Int :=
  let b := fun i => label / 2 ^ i % 2 == 1
  match mod_ with
  | 2 => (level4 (b 2) (b 1), level2 (b 0))
  | 3 => (level4 (b 3) (b 2), level4 (b 1) (b 0))
  | 4 => let m := cross32 (label % 8); (level2 (b 4) * m.1, level2 (b 3) * m.2)
  | _ => (level2 (b 1), level2 (b 0))

/-! ### Probabilistic shaping (R162 to R164) -/

/-- Number of amplitude sequences of a composition (n1, n3, n5, n7). -/
def sequences (n : Nat × Nat × Nat × Nat) : Nat :=
  Nat.choose (n.1 + n.2.1 + n.2.2.1 + n.2.2.2) n.1 *
    (Nat.choose (n.2.1 + n.2.2.1 + n.2.2.2) n.2.1 * Nat.choose (n.2.2.1 + n.2.2.2) n.2.2.1)

/-- Energy of a composition. -/
def compEnergy (n : Nat × Nat × Nat × Nat) : Nat := n.1 + 9 * n.2.1 + 25 * n.2.2.1 + 49 * n.2.2.2

/-- `a` comes before `b` among compositions: less energy, then larger n1, n3, n5. -/
def compBefore (a b : Nat × Nat × Nat × Nat) : Bool :=
  compEnergy a < compEnergy b || (compEnergy a == compEnergy b &&
    (b.1 < a.1 || (a.1 == b.1 && (b.2.1 < a.2.1 || (a.2.1 == b.2.1 && b.2.2.1 < a.2.2.1)))))

/-- The composition of code `e` (R163). -/
def IsComposition (e : Nat) (n : Nat × Nat × Nat × Nat) : Prop :=
  n.1 + n.2.1 + n.2.2.1 + n.2.2.2 = 512 ∧ 2 ^ (4 * e) ≤ sequences n ∧
    ∀ m : Nat × Nat × Nat × Nat, m.1 + m.2.1 + m.2.2.1 + m.2.2.2 = 512 → 2 ^ (4 * e) ≤ sequences m →
      m = n ∨ compBefore n m = true

/-- The v-th sequence of a composition in lexicographic order; the first argument is its length. -/
def matchSeq : Nat → Nat × Nat × Nat × Nat → Nat → List Nat
  | 0, _, _ => []
  | k + 1, (a, b, c, d), v =>
    let ta := if a = 0 then 0 else sequences (a - 1, b, c, d)
    let tb := if b = 0 then 0 else sequences (a, b - 1, c, d)
    let tc := if c = 0 then 0 else sequences (a, b, c - 1, d)
    if v < ta then 1 :: matchSeq k (a - 1, b, c, d) v
    else if v < ta + tb then 3 :: matchSeq k (a, b - 1, c, d) (v - ta)
    else if v < ta + tb + tc then 5 :: matchSeq k (a, b, c - 1, d) (v - ta - tb)
    else 7 :: matchSeq k (a, b, c, d - 1) (v - ta - tb - tc)

/-! ### Rates and counts (R168, R184, R185) -/

/-- 64 times the entropy H of a descriptor (R162), or 64 m. -/
def entropy64 (d : Word) : Nat :=
  match uniformBits (dMod d) with
  | some m => 64 * m
  | none => 128 + dEnt d

/-- 100 times one plus the nominal overhead of a FEC code (R181). -/
def overhead100 (fec : Nat) : Nat := match fec with | 0 => 115 | 1 => 120 | _ => 127

/-- Slots that a format carries (R168); the acquisition format carries none. -/
def slotsCarried (d : Word) : Nat :=
  if dMod d = 15 then 0
  else min 16 ((240 + dRate d) * (206432200 * entropy64 d - 131072 * overhead100 (dFec d)) /
    (408 * 67108864 * overhead100 (dFec d)))

/-- Coded bits of a superframe (R163, R164, R184). -/
def codedBits (d : Word) : Nat :=
  match uniformBits (dMod d) with
  | some m => 2 * m * dataSymbols
  | none => 8063 * (512 + 4 * dEnt d) + 97 * 4

/-- Inner information bits k of a mode (R181). -/
def innerK (fec : Nat) : Nat := match fec with | 0 => 3562 | 1 => 3456 | _ => 3296

/-- Outer length and 16 t of a mode; IQ-15 has no outer code. -/
def outerCode (fec : Nat) : Option (Nat × Nat) := match fec with | 0 => none | 1 => some (10368, 128) | _ => some (10464, 224)

/-- Component codewords of a superframe, the partial one included (R184). -/
def codewords (d : Word) : Nat := (codedBits d + 4095) / 4096

/-- Inner information bits of a superframe. -/
def innerInfo (d : Word) : Nat :=
  codedBits d / 4096 * innerK (dFec d) + codedBits d % 4096 * innerK (dFec d) / 4096

/-- Information bits of a superframe, SFOH included (R185). -/
def infoBits (d : Word) : Nat :=
  match outerCode (dFec d) with
  | none => innerInfo d
  | some (n, par) =>
    let m := (innerInfo d + n - 1) / n
    let last := innerInfo d - (m - 1) * n
    (m - 1) * 10240 + (last - par)

/-- Payload bits of a superframe (R185). -/
def payloadBits (d : Word) : Nat := infoBits d - 2048

/-- Outer codewords of a superframe (R185). -/
def outerCodewords (d : Word) : Nat :=
  match outerCode (dFec d) with
  | none => 0
  | some (n, _) => (innerInfo d + n - 1) / n

/-! ### The inner code and the stream order (R186, R188) -/

/-- The pairs (a, b) of a mode. -/
def innerPairs (fec : Nat) : List (Nat × Nat) := [(7, 0), (11, 1), (13, 2)] ++ if fec = 0 then [(17, 3)] else []

/-- First free check index at or after `i`, modulo r. -/
def freeCheck (used : List Nat) (r : Nat) : Nat → Nat → Nat
  | 0, i => i % r
  | fuel + 1, i => if used.contains (i % r) then freeCheck used r fuel (i + 1) else i % r

/-- The checks that contain information bit `x` of a codeword. -/
def infoChecks (fec x : Nat) : List Nat :=
  let r := 4096 - innerK fec
  (innerPairs fec).foldl (fun l ab => l ++ [freeCheck l r 4 ((ab.1 * x + ab.2) % r)]) []

/-- The bits of codewords j − 64 and j − 128 that check `i` contains. -/
def coupledBits (fec i : Nat) : Nat × Nat := ((17 * i + 7) % innerK fec, (19 * i + 3) % innerK fec)

/-- Syndrome s_i of a codeword: `u` gives its information bits, `u1` and `u2` those of codewords j − 64 and
j − 128, false below index 0. -/
def checkSum (fec : Nat) (u u1 u2 : Nat → Bool) (i : Nat) : Bool :=
  ((List.range (innerK fec)).filter fun x => (infoChecks fec x).contains i && u x).length % 2 == 1
    ^^ u1 (coupledBits fec i).1 ^^ u2 (coupledBits fec i).2

/-- Parity bits of a codeword: p_i = p_(i−1) XOR s_i. -/
def innerParity (fec : Nat) (u u1 u2 : Nat → Bool) : Nat → Bool
  | 0 => checkSum fec u u1 u2 0
  | i + 1 => innerParity fec u u1 u2 i ^^ checkSum fec u u1 u2 (i + 1)

/-- Information bits of the partial codeword, k_part (R184). -/
def partialInfo (d : Word) : Nat := codedBits d % 4096 * innerK (dFec d) / 4096

/-- Bit `x` of codeword `j` is shortened: it is 0 and not sent (R184). -/
def isShortened (d : Word) (j x : Nat) : Bool :=
  decide (codedBits d / 4096 ≤ j) && decide (x < innerK (dFec d) - partialInfo d)

/-- Stream offset of bit `x` of codeword `j`: none for a bit that is not sent, shortened or punctured (R184, R188). -/
def bitOffset (d : Word) (j x : Nat) : Option Nat :=
  let k := innerK (dFec d)
  let n := codedBits d / 4096
  let ki := partialInfo d
  if j < n then some (4096 * j + x)
  else if x < k - ki then none
  else if x < k then some (4096 * n + (x - (k - ki)))
  else if x - k < codedBits d % 4096 - ki then some (4096 * n + ki + (x - k))
  else none

/-- The coded stream of a superframe whose codewords are `cw`: the sent bits of each in bit order (R188). -/
def codedStream (d : Word) (cw : Nat → Nat → Bool) : List Bool :=
  (List.range (codewords d)).flatMap fun j => ((List.range 4096).filter fun x => (bitOffset d j x).isSome).map (cw j)

/-- The stream offsets of `c` coded bits in sending order: 64 rows (R188). -/
def sendOrder (c : Nat) : List Nat := (List.range 64).flatMap fun r => (List.range c).filter fun o => o % 64 == r

/-- Coded bits in the order in which they go to the mapper (R188). -/
def sentBits (stream : List Bool) : List Bool := (sendOrder stream.length).map fun o => stream.getD o false

/-- Place of stream offset `o` in the sending order of `c` coded bits: the deinterleaver's inverse of the rows (R188). -/
def sendIndex (c o : Nat) : Nat := ((List.range (o % 64)).map fun r => (c + 63 - r) / 64).foldl (· + ·) 0 + o / 64

/-- The coded stream back from the order in which it was sent (R188). -/
def deinterleave {α : Type} (dflt : α) (l : List α) : List α :=
  (List.range l.length).map fun o => l.getD (sendIndex l.length o) dflt

/-- An LLR is clipped to 5 bits, two's complement (R125; DEDUCED, notes/assumptions 147). -/
def clip5 (v : Int) : Int := clampI (-16) 15 v

/-- The channel LLR of bit `x` of codeword `j` in its slot, positive for 0: of the LLRs in sending order for a sent bit, the
largest for 0 for a shortened one, 0 for a punctured one (R191). -/
def chanLlr (d : Word) (llr : List Int) (j x : Nat) : Int :=
  match bitOffset d j x with
  | some o => llr.getD (sendIndex (codedBits d) o) 0
  | none => if isShortened d j x then 15 else 0

end Sys2Proof.Machine
end

