-- ==== Sys2Proof/Machine/FrontEnd.lean ====
section
/-! DEFINITION. The line front end (R72 to R103): MUTE_N, LINE_MUTE, DRV_EN and t_DRV, the sample-clock
synthesizer, the light detector and the ADC level alarms. -/

namespace Sys2Proof.Machine

/-! ### Muting (R89 to R93, R175) -/

/-- MUTE_N_FALL (R91): a pulse of 200 ns or longer mutes, one shorter than 50 ns never does, and between the
two the outside world says (`midActs`). -/
def muteNFall (lowNs : Nat) (midActs : Bool) (s : State) : State :=
  let acts : Bool := decide (200 ≤ lowNs) || (decide (50 ≤ lowNs) && midActs)
  if acts && s.pins.muteHigh then
    refresh (modPins (fun x => { x with
      muteHigh := false, muteClear := false, muteTimer := false, muteEvents := x.muteEvents + 1 }) s)
  else s

/-- MUTE_N_FALL. -/
def execMuteNFall (lowNs : Nat) (midActs : Bool) (s : State) : Outcome := .next (muteNFall lowNs midActs s)

/-- MUTE_N_RISE (R92): the 10 µs of high time begin. -/
def muteNRise (s : State) : State :=
  if s.pins.muteHigh then s else modPins (fun x => { x with muteHigh := true, muteTimer := true }) s

/-- MUTE_N_RISE. -/
def execMuteNRise (s : State) : Outcome := .next (muteNRise s)

/-- MUTE_N_HIGH_TIMER (R92): the source has ended; the mute itself ends at the next boundary. -/
def muteNHighTimer (s : State) : State :=
  if s.pins.muteTimer then modPins (fun x => { x with muteTimer := false, muteClear := true }) s else s

/-- MUTE_N_HIGH_TIMER. -/
def execMuteNHighTimer (s : State) : Outcome := .next (muteNHighTimer s)

/-- LINE_MUTE (R175). -/
def lineMute (rq : Req) (s : State) : State :=
  let p := pport rq 0
  let mute := bit (par rq 0) 29
  let off := bit (par rq 0) 28
  commandOk 0x2008 rq [badAt [((off && !mute) || pf rq 0 27 0 != 0, 0)]] (fun _ => [])
    (fun s => refreshPort p (modFront p (fun f => { f with lmute := mute, ldrvOff := off }) s)) s

/-- LINE_MUTE. -/
def execLineMute (rq : Req) (s : State) : Outcome := .next (lineMute rq s)

/-! ### DRV_EN_n (R94 to R96) -/

/-- DRV_EN_FALL (R95): a DRV_EN_n that is about to fall falls. When the conditions of R94 hold again it rises
again at once. -/
def drvEnFall (p : LPort) (s : State) : State :=
  if s.ports[p].front.drvFalling then
    refreshPort p (modFront p (fun f => { f with drvEn := false, drvFalling := false }) s)
  else s

/-- DRV_EN_FALL. -/
def execDrvEnFall (p : LPort) (s : State) : Outcome := .next (drvEnFall p s)

/-- T_DRV_EXPIRY (R95, R96). -/
def tDrvExpiry (p : LPort) (s : State) : State := modFront p (fun f => { f with tDrv := none }) s

/-- T_DRV_EXPIRY. -/
def execTDrvExpiry (p : LPort) (s : State) : Outcome := .next (tDrvExpiry p s)

/-! ### Synthesizer (R81 to R85) -/

/-- A commanded sample-clock change takes effect (R84, R34, R327): the port mutes, the receiver sees a loss of signal, a
lock attempt begins and the Regulator takes the new clock. A synthesizer that is not ON takes the new clock
when it wakes. -/
def clockApply (p : LPort) (sclk : BitVec 12) (s : State) : State :=
  if s.ports[p].front.sclk = sclk then s
  else if !isOn s (.cv p) then modFront p (fun f => { f with sclk := sclk }) s
  else
    let s := modFront p (fun f => { f with sclk := sclk, locked := false, attempt := true, changing := true }) s
    let s := if s.ports[p].tr.state == .down then s else lossOfSignal p s
    refreshPort p (calClock p true s)

/-- A commanded sample-clock change (R84): it takes effect at the port's next TX boundary (DESIGN CHOICE,
notes/assumptions 133), and at once while LDn is not ON and gives none. -/
def clockChange (p : LPort) (sclk : BitVec 12) (s : State) : State :=
  if isOn s (.ld p) then modFront p (fun f => { f with nextSclk := some sclk }) s else clockApply p sclk s

/-- The boundary at which a commanded sample clock takes effect (R84). -/
def clockDue (p : LPort) (s : State) : State :=
  match s.ports[p].front.nextSclk with
  | none => s
  | some c => clockApply p c (modFront p (fun f => { f with nextSclk := none }) s)

/-- A lock attempt succeeds (R83 to R85). -/
def synthLock (p : LPort) (s : State) : State :=
  if s.ports[p].front.attempt then
    maybeAcquire p (endChange p (refreshPort p (modFront p (fun f => { f with locked := true, attempt := false }) s)))
  else s

/-- SYNTH_LOCK. -/
def execSynthLock (p : LPort) (s : State) : Outcome := .next (synthLock p s)

/-- The synthesizer counts as unlocked (R85): SYNTH_UNLOCK is raised and counted, the port mutes and
DRV_EN_n falls. -/
def unlock (p : LPort) (s : State) : State :=
  setAlarm (.conv p) 2 true (refreshPort p (modFront p (fun f => { f with
    locked := false, attempt := true, changing := false, synthUnlock := f.synthUnlock + 1 }) s))

/-- SYNTH_UNLOCK (R85). -/
def synthUnlock (p : LPort) (s : State) : State := if s.ports[p].front.locked then unlock p s else s

/-- SYNTH_UNLOCK. -/
def execSynthUnlock (p : LPort) (s : State) : Outcome := .next (synthUnlock p s)

/-- SAMPLE_CLOCK_CHANGE_INTERVAL_END (R84, R94): a synthesizer that has not locked by the end of the interval
counts as unlocked from that moment. -/
def sampleClockChangeIntervalEnd (p : LPort) (s : State) : State :=
  if s.ports[p].front.changing && !s.ports[p].front.locked then unlock p s else s

/-- SAMPLE_CLOCK_CHANGE_INTERVAL_END. -/
def execSampleClockChangeIntervalEnd (p : LPort) (s : State) : Outcome := .next (sampleClockChangeIntervalEnd p s)

/-- SYNTH_RANGE (R83): the port of a regenerating pair goes into the holdover of R30. (DEDUCED, notes/assumptions 69) -/
def synthRange (p : LPort) (s : State) : State :=
  if regen s p then setAlarm (.conv p) 3 true (modFront p (fun f => { f with holdover := true, slewAt := s.sys.usec }) s) else s

/-- SYNTH_RANGE. -/
def execSynthRange (p : LPort) (s : State) : Outcome := .next (synthRange p s)

/-- SYNTH_FAIL (R85, R459): a lock attempt that still runs after 10 ms is a fault of CVn. -/
def synthFail (p : LPort) (s : State) : State :=
  if s.ports[p].front.attempt then detect (.cv p) 7 0 0 s else s

/-- SYNTH_FAIL. -/
def execSynthFail (p : LPort) (s : State) : Outcome := .next (synthFail p s)

/-! ### Light detector and ADC levels (R77, R86, R124) -/

/-- LIGHT_DETECT_ASSERT (R86, R134). TRAIN_TIME runs from here when the port is in ACQUIRE. -/
def lightDetectAssert (p : LPort) (s : State) : State :=
  if s.ports[p].front.light then s
  else
    let now := s.sys.usec
    let s := modFront p (fun f => { f with light := true }) s
    let s := if s.ports[p].tr.state == .acquire then modTr2 p (fun t => { t with lightAt := some now }) s else s
    maybeAcquire p s

/-- LIGHT_DETECT_ASSERT. -/
def execLightDetectAssert (p : LPort) (s : State) : Outcome := .next (lightDetectAssert p s)

/-- LIGHT_DETECT_DEASSERT (R86, R124): a loss of signal for a port that is not DOWN, unless a LINE_DIGITAL loopback has its
receiver ignore the ADC input (R514). The wake source of R417 is armed. -/
def lightDetectDeassert (p : LPort) (s : State) : State :=
  if s.ports[p].front.light then
    let s := modFront p (fun f => { f with light := false }) s
    let s := modPower (fun x => { x with lightArmed := x.lightArmed ||| BitVec.ofNat 4 (2 ^ p.val) }) s
    if s.ports[p].tr.state == .down || loopDigital s p then s else lossOfSignal p s
  else s

/-- LIGHT_DETECT_DEASSERT. -/
def execLightDetectDeassert (p : LPort) (s : State) : Outcome := .next (lightDetectDeassert p s)

/-- Lanes of a level alarm with lane `lane` set or cleared. -/
def laneBits (b : BitVec 4) (lane : CLane) (on : Bool) : BitVec 4 :=
  if on then b ||| BitVec.ofNat 4 (2 ^ lane.val) else b &&& ~~~(BitVec.ofNat 4 (2 ^ lane.val))

/-- ADC_LEVEL_LOW (R77): the alarm is active while some lane is beyond the threshold. -/
def adcLevelLow (p : LPort) (lane : CLane) (raised : Bool) (s : State) : State :=
  if isOn s (.cv p) then
    let b := laneBits s.ports[p].front.lowLanes lane raised
    setAlarm (.conv p) 0 (b != 0) (modFront p (fun f => { f with lowLanes := b }) s)
  else s

/-- ADC_LEVEL_LOW. -/
def execAdcLevelLow (p : LPort) (lane : CLane) (raised : Bool) (s : State) : Outcome :=
  .next (adcLevelLow p lane raised s)

/-- ADC_LEVEL_HIGH (R77). -/
def adcLevelHigh (p : LPort) (lane : CLane) (raised : Bool) (s : State) : State :=
  if isOn s (.cv p) then
    let b := laneBits s.ports[p].front.highLanes lane raised
    setAlarm (.conv p) 1 (b != 0) (modFront p (fun f => { f with highLanes := b }) s)
  else s

/-- ADC_LEVEL_HIGH. -/
def execAdcLevelHigh (p : LPort) (lane : CLane) (raised : Bool) (s : State) : Outcome :=
  .next (adcLevelHigh p lane raised s)

end Sys2Proof.Machine
end

