-- ==== Sys2Proof/Machine/Implicit.lean ====
section
/-! DEFINITION. The implicit schedule of R32: a command that changes an EXACT-capable setting of a port in
TRAFFIC enters an EXACT, HOLD event 64 superframes ahead, staged at execution (R177, R300). -/

namespace Sys2Proof.Machine

/-- Entries of the event pool (R295). -/
def poolSize : Nat := 65536

/-- The event of an implicit schedule (R300): its completion is the reply. -/
def implicitEvent (s : State) (opcode : Nat) (rq : Req) (params data : List Word) (r : RefCode) : DialEv :=
  { idx := 0, use := 0, target := refCount s r + 64, ref := r, exact := true, fallback := false, compl := .none,
    opcode := BitVec.ofNat 16 opcode, pktTag := rq.tag, params := params, data := data, src := rq.src
    stamp := coreStamp s (coreIx (coreFor s opcode params)), tag := rq.tag, internal := true, seq := 0
    implicit := if rq.src == .blob then none else some rq, phase := .staged, stagingDone := true }

/-- Entries of the event pool are all in use (R295). -/
def poolFull (s : State) : Bool := decide (poolSize ≤ s.dial.evs.length)

/-- Enter the implicit schedule of a command. The commands of a blob do not wait for it (R362). R295 gives RESOURCE
as the answer of DIAL_SCHEDULE to a full pool; an implicit entry that finds it full is answered the same (DESIGN CHOICE,
notes/assumptions 92). -/
def enterImplicit (opcode : Nat) (rq : Req) (params data : List Word) (r : RefCode) (s : State) : State :=
  if poolFull s then reply opcode rq { st := .resource } s
  else
    let s := enterEvent (implicitEvent s opcode rq params data r) s
    if rq.src == .blob then reply opcode rq (okFlags 4) s else taken rq s

end Sys2Proof.Machine
end

