-- ==== Sys2Proof/Machine/RxDsp.lean ====
section
/-! DEFINITION. The receive DSP (R104 to R135): LINE_RX_CONFIG, the port's snapshot, the steps of an
acquisition, the equaliser's reconvergence and the carrier limits. -/

namespace Sys2Proof.Machine

/-! ### Limits (R28, R107 to R109, R117) -/

/-- CD limit in ps/nm at a rate code (R109). -/
def cdLimit (rate : Nat) : Int := if rate ≤ 320 then 150000 else 150000 - 125 * ((rate : Int) - 320)

/-- A sample clock is at least 1.125 times the symbol rate (R28). -/
def clockFits (sclk rate : Nat) : Bool := decide (9 * (240 + rate) ≤ 8 * (720 + sclk))

/-- Samples of overlap that cover 1.2 τ, rounded up (R107): |CD| in ps/nm, roll-off in hundredths. -/
def overlapNeed (cd : Int) (rate beta : Nat) : Nat :=
  -- 1.2 × |CD| × 0.00802 × B(1 + β) ps × 1.125 × B / 1000 samples/ps, with B = (240 + rate)/4
  (12 * 802 * 1125 * cd.natAbs * (240 + rate) * (240 + rate) * (100 + beta) + 1599999999999999) / 1600000000000000

/-- The overlap k of R107: the smallest of 1 to 10 that covers, 10 when none does. -/
def overlapOf (cd : Int) (rate beta : Nat) : Nat := max 1 (min 10 ((overlapNeed cd rate beta + 8191) / 8192))

/-- Roll-off that the far end announced, in hundredths; 10 before its first CAP (R107). -/
def farRolloff (s : State) (p : LPort) : Nat :=
  match s.ports[p].tr.farRoll with
  | some r => r.toNat
  | none => 10

/-- Largest |CD| in ps/nm that overlap `k` covers (R107, R111). -/
def overlapMax (k rate beta : Nat) : Int :=
  ((8192 * k * 1600000000000000 / (12 * 802 * 1125 * (240 + rate) * (240 + rate) * (100 + beta)) : Nat) : Int)

/-- Overlap `k` covers a CD (R107, R111). -/
def overlapCovers (k rate beta : Nat) (cd : Int) : Bool := decide (cd.natAbs ≤ overlapMax k rate beta)

/-- Delay of stage 4 in ns, rounded down (R108). (DEDUCED, notes/assumptions 70) -/
def tCdc (k rate : Nat) : Nat := (131072 + 4096 * k) * 32 / (9 * (240 + rate)) + 40

/-- EQ_TAPS in use. -/
def eqTaps (r : Rx) : Nat := fld r.cfg[4] 31 26

/-! ### LINE_RX_CONFIG (R127, R128) -/

/-- A selected word of LINE_RX_CONFIG is out of range; `rate` is the port's symbol rate. -/
def rxWordBad (rate i : Nat) (w : Word) : Bool :=
  let lim := cdLimit rate
  let c := fun hi lo => 10 * sgn 16 (fld w hi lo)
  let even := fun (n : Nat) => n % 2 == 0
  match i with
  | 1 => decide (560 < fld w 31 20) || decide (36 < fld w 19 14) || fld w 13 0 != 0 || !clockFits (fld w 31 20) rate
  | 2 => fld w 31 8 != 0 || fld w 3 2 != 0
  | 3 => decide (c 15 0 < c 31 16) || decide (c 31 16 < -lim) || decide (lim < c 15 0)
  | 4 => fld w 31 30 == 3 || decide (19 < fld w 29 24) || fld w 23 16 != 0 || decide (lim < c 15 0) || decide (c 15 0 < -lim)
  | 5 => decide (fld w 31 26 < 7) || even (fld w 31 26) || fld w 17 0 != 0
  | 6 => fld w 31 27 == 0 || even (fld w 31 27) || decide (31 < fld w 26 21) || fld w 20 0 != 0
  | 7 => fld w 30 24 == 0 || fld w 23 0 != 0
  | _ => decide (fld w 31 24 < 20) || decide (6 < fld w 23 20) || fld w 19 0 != 0

/-- Word `i` (1 to 8) is selected by MASK. -/
def maskSel (ps : List Word) (i : Nat) : Bool := bit (ps.getD 0 0) (i - 1)

/-- Parameter checks of LINE_RX_CONFIG. -/
def rxChecks (ps : List Word) (s : State) : List (Bool × Answer) :=
  let rate := s.ports[(Fin.ofNat 4 (fld (ps.getD 0 0) 31 30) : LPort)].tr.rate.toNat
  [badAt ((fld (ps.getD 0 0) 29 8 != 0, 0) ::
    ([1, 2, 3, 4, 5, 6, 7, 8].map fun i => (maskSel ps i && rxWordBad rate i (ps.getD i 0), i)))]

/-- The port is in TRAIN, TRAFFIC or HOLDOVER. -/
def inService (s : State) (p : LPort) : Bool :=
  match s.ports[p].tr.state with
  | .train => true | .traffic => true | .holdover => true | .down => false | .acquire => false | .muted => false

/-- Word `i` of LINE_RX_CONFIG takes effect at once. -/
def rxSet (p : LPort) (i : Fin 8) (w : Word) (s : State) : State :=
  modRx p (fun r => { r with cfg := vset r.cfg i w, next := vset r.next i none }) s

/-- Set the selected words among a list of indices. -/
def rxSetSel (p : LPort) (ps : List Word) (is : List (Fin 8)) (s : State) : State :=
  eachOf (is.filter fun i => maskSel ps (i.val + 1)) (fun i => rxSet p i (ps.getD (i.val + 1) 0)) s

/-- Store the selected words for the next acquisition. -/
def rxStoreSel (p : LPort) (ps : List Word) (is : List (Fin 8)) (s : State) : State :=
  eachOf (is.filter fun i => maskSel ps (i.val + 1)) (fun i =>
    modRx p (fun r => { r with next := vset r.next i (some (ps.getD (i.val + 1) 0)) })) s

/-- The effect of an EXACT LINE_RX_CONFIG: the selected ones of words 5 to 7 apply (R128, R297). -/
def rxExact (ps : List Word) (s : State) : State := rxSetSel (Fin.ofNat 4 (fld (ps.getD 0 0) 31 30)) ps [4, 5, 6] s

/-- The acquisition restarts: lock and alignment go, and an attempt with the configured CD_MODE begins (R128). -/
def restartAcq (p : LPort) (s : State) : State :=
  let s := modRx p (fun r => { r.drop with hint := false }) (unalign p (dropLock p s))
  startAttempt p s

/-- LINE_RX_CONFIG (R127, R128). (DEDUCED, notes/assumptions 68) (DEDUCED, notes/assumptions 71) -/
def lineRxConfig (rq : Req) (s : State) : State :=
  let p := pport rq 0
  let ps := rq.params
  let sel := maskSel ps
  let st := s.ports[p].tr.state
  let serv := inService s p
  command 0x2003 rq (rxChecks ps s) (fun _ => [(sel 2 && serv, badState)])
    (fun s =>
      let sclk := BitVec.ofNat 12 (pf rq 1 31 20)
      let clk : Bool := sel 1 && sclk != s.ports[p].front.nextSclk.getD s.ports[p].front.sclk
      let later : Bool := sel 3 || sel 4 || sel 8
      let restart : Bool := (later || sel 2) && st == .acquire
      let sched : Bool := st == .traffic && (sel 5 || sel 6 || sel 7)
      let full : Bool := sched && poolFull s
      let det := b2n (later && serv) + 2 * b2n (restart || (clk && st != .down))
      let s := if sched then enterImplicit 0x2003 rq ps [wd det] (rxRef p) s else rxSetSel p ps [4, 5, 6] s
      if full then s else
      let s := rxSetSel p ps [0, 1] s
      let s := if serv then rxStoreSel p ps [2, 3, 7] s else rxSetSel p ps [2, 3, 7] s
      let s := if clk then clockChange p sclk s else if restart then restartAcq p s else s
      if sched then s else reply 0x2003 rq (okFlags det) s) s

/-- LINE_RX_CONFIG. -/
def execLineRxConfig (rq : Req) (s : State) : Outcome := .next (lineRxConfig rq s)

/-! ### The port's snapshot (R131) -/

/-- K_REGEN of the direction received on a port, 0 when it is not forwarded. -/
def kRegenOf (s : State) (p : LPort) : Nat :=
  match s.ports[mate p].sf.kRegen with
  | some k => if regen s p then k.toNat else 0
  | none => 0

/-- LPS offsets 0x00 to 0x09 of a port with a snapshot sequence number. While LDn is not ON all are zero. (DEDUCED, notes/assumptions 66) (DEDUCED, notes/assumptions 67) -/
def lpsWords (s : State) (p : LPort) (seq : BitVec 16) : List Word :=
  let x := s.ports[p]
  let e := x.rx.est
  let al := fun b => b2n (alarmOn s (.line p) b)
  let n := refCount s (rxRef p)
  if isOn s (.ld p) then
    [word [(31, 29, x.tr.state.code), (28, 28, b2n x.front.light), (27, 27, b2n x.sf.aligned),
        (26, 26, b2n x.sf.lock), (25, 25, b2n (x.rx.eq == .tracking)), (24, 24, b2n e.berBound),
        (23, 20, x.rx.step.toNat), (19, 19, al 0), (18, 18, al 1), (17, 17, al 2), (16, 16, al 3), (15, 0, seq.toNat)],
     word [(31, 16, e.snrX.toNat), (15, 0, e.snrY.toNat)], e.cd,
     word [(31, 16, e.dgd.toNat), (15, 8, e.pdl.toNat)],
     word [(31, 16, e.sop.toNat), (15, 0, e.snrNli.toNat)],
     word [(31, 16, e.fo.toNat), (15, 0, e.clk.toNat)], e.preBer,
     word [(31, 24, kRegenOf s p), (23, 18, eqTaps x.rx), (17, 14, x.rx.overlap.toNat),
         (13, 0, tCdc x.rx.overlap.toNat x.tr.rate.toNat)],
     wd (psHi n), word [(31, 16, psLo n)]]
  else List.replicate 10 0

/-- Take a snapshot of the port (R131). -/
def snapshot (p : LPort) (s : State) : State :=
  let q := s.ports[p].rx.snapSeq + 1
  let ws := lpsWords s p q
  modRx p (fun r => { r with snapSeq := q, snap := Vector.ofFn fun i => ws.getD i.val 0 }) s

/-! ### Acquisition (R110 to R115, R122, R134) -/

/-- ACQUISITION_START (R134). -/
def execAcquisitionStart (p : LPort) (s : State) : Outcome := .next (maybeAcquire p s)

/-- Raise FO_RANGE; a rise counts (R133). -/
def raiseFo (p : LPort) (s : State) : State :=
  let s := if alarmOn s (.line p) 0 then s else modRx p (fun r => { r with foRangeEvt := r.foRangeEvt + 1 }) s
  setAlarm (.line p) 0 true s

/-- The offset lies within the capture range of the attempt (R112, R124). -/
def foInside (r : Rx) (offset : Int) : Bool :=
  if r.hint then decide ((offset - r.lastFo).natAbs ≤ 500)
  else decide (offset.natAbs ≤ 500 * (fld r.cfg[7] 23 20 + 1))

/-- ACQ_FREQUENCY_DONE (R112): the rotator takes the offset, or the attempt stops with FO_RANGE, counts
ACQ_FAIL and reports the offset. -/
def acqFrequencyDone (p : LPort) (offset : Int) (s : State) : State :=
  let r := s.ports[p].rx
  if r.running && r.step == 1 && !r.foStop then
    if foInside r offset then modRx p (fun r => { r with
      rotator := offset, step := 2, est := { r.est with fo := BitVec.ofInt 16 offset } }) s
    else raiseFo p (modRx p (fun r => { r with
      foStop := true, acqFail := r.acqFail + 1, est := { r.est with fo := BitVec.ofInt 16 offset } }) s)
  else s

/-- ACQ_FREQUENCY_DONE. -/
def execAcqFrequencyDone (p : LPort) (offset : Int) (s : State) : Outcome := .next (acqFrequencyDone p offset s)

/-- A candidate lies in the search range of the port (R109, R110, R127). -/
def cdInside (s : State) (p : LPort) (c : Int) : Bool :=
  let r := s.ports[p].rx
  let lim := cdLimit s.ports[p].tr.rate.toNat
  let lo := 10 * sgn 16 (fld r.cfg[2] 31 16)
  let hi := 10 * sgn 16 (fld r.cfg[2] 15 0)
  let all := lo == 0 && hi == 0
  let centre := if r.hint then r.lastCd else 10 * sgn 16 (fld r.cfg[3] 15 0)
  let near := decide ((c - centre).natAbs ≤ 2000) && decide (c.natAbs ≤ lim.toNat)
  ((r.hint || fld r.cfg[3] 31 30 == 2) && near) ||
    (if all then decide (c.natAbs ≤ lim.toNat) else decide (lo ≤ c) && decide (c ≤ hi))

/-- ACQ_CD_DONE (R107, R110): the search's candidate, or CD_FIXED without a search in FIXED mode; the overlap
is chosen. With no candidate the attempt stays at this step until ACQ_TIMEOUT (R135). (DEDUCED, notes/assumptions 72) -/
def acqCdDone (p : LPort) (found : Option Int) (s : State) : State :=
  let r := s.ports[p].rx
  let fixed : Bool := !r.hint && fld r.cfg[3] 31 30 == 1
  let c := if fixed then some (10 * sgn 16 (fld r.cfg[3] 15 0)) else found.filter (cdInside s p)
  match c with
  | some c =>
    if r.running && r.step == 2 then
      let beta := farRolloff s p
      let k := overlapOf c s.ports[p].tr.rate.toNat beta
      modRx p (fun r => { r with
        cdSet := c, overlap := BitVec.ofNat 4 k, beta := beta, step := 3, eq := .blind
        est := { r.est with cd := BitVec.ofInt 32 (10 * rdiv c 10) } }) s
    else s
  | none => s

/-- ACQ_CD_DONE. -/
def execAcqCdDone (p : LPort) (found : Option Int) (s : State) : Outcome := .next (acqCdDone p found s)

/-- ACQ_BLIND_DONE (R115). -/
def acqBlindDone (p : LPort) (s : State) : State :=
  let r := s.ports[p].rx
  if r.running && r.step == 3 then modRx p (fun r => { r with step := 4 }) s else s

/-- ACQ_BLIND_DONE. -/
def execAcqBlindDone (p : LPort) (s : State) : Outcome := .next (acqBlindDone p s)

/-- FRAME_ALIGNMENT (R115, R122, R123): pilot mode begins; a peak on the conjugate raises LANEMAP_SUSPECT. -/
def frameAlignment (p : LPort) (swapped conj : Bool) (s : State) : State :=
  let r := s.ports[p].rx
  if r.running && r.step == 4 then
    setAlarm (.line p) 3 conj (modRx p (fun r => { r with
      frameAligned := true, swapped := swapped, conj := conj, eq := .pilot, step := 5 }) s)
  else s

/-- FRAME_ALIGNMENT. -/
def execFrameAlignment (p : LPort) (swapped conj : Bool) (s : State) : Outcome :=
  .next (frameAlignment p swapped conj s)

/-- FRAME_ALIGNMENT_LOSS (R122, R124). -/
def frameAlignmentLoss (p : LPort) (s : State) : State :=
  if s.ports[p].rx.frameAligned then lossOfSignal p s else s

/-- FRAME_ALIGNMENT_LOSS. -/
def execFrameAlignmentLoss (p : LPort) (s : State) : Outcome := .next (frameAlignmentLoss p s)

/-- ACQ_TIMEOUT (R112, R134): an attempt that FO_RANGE has not ended counts ACQ_FAIL; the next begins at once
with the configured CD_MODE. -/
def acqTimeout (p : LPort) (s : State) : State :=
  if s.ports[p].rx.running then
    let s := modRx p (fun r => { r with
      acqFail := if r.foStop then r.acqFail else r.acqFail + 1, hint := false, running := false }) s
    startAttempt p (unalign p s)
  else s

/-- ACQ_TIMEOUT. -/
def execAcqTimeout (p : LPort) (s : State) : Outcome := .next (acqTimeout p s)

/-- CARRIER_LOCK_LOSS (R113, R124). -/
def carrierLockLoss (p : LPort) (s : State) : State :=
  if s.ports[p].rx.frameAligned then lossOfSignal p (raiseFo p s) else s

/-- CARRIER_LOCK_LOSS. -/
def execCarrierLockLoss (p : LPort) (s : State) : Outcome := .next (carrierLockLoss p s)

/-! ### Equaliser (R115, R117, R118) -/

/-- Data symbols passed as erasures are counted. -/
def addErased (n : Nat) (r : Rx) : Rx := { r with eqErased := r.eqErased + BitVec.ofNat 64 n }

/-- EQ_RECONVERGE (R118): the filters are reloaded from the snapshot of 16 superframes ago and pilot mode begins, with
erasures. Before there are 16 healthy superframes the oldest taps that are kept serve (DESIGN CHOICE, notes/assumptions
139). -/
def eqReconverge (p : LPort) (erased : Nat) (s : State) : State :=
  if s.ports[p].rx.frameAligned then
    modRx p (fun r => addErased erased { r with
      eqReconverge := r.eqReconverge + 1, eq := .pilot, erasing := true, taps := r.tapHist.getLast?.getD r.taps }) s
  else s

/-- EQ_RECONVERGE. -/
def execEqReconverge (p : LPort) (erased : Nat) (s : State) : Outcome := .next (eqReconverge p erased s)

/-- PILOT_MODE_END (R115, R118): tracking mode; the erasures of a reconvergence end. -/
def pilotModeEnd (p : LPort) (erased : Nat) (s : State) : State :=
  let r := s.ports[p].rx
  if r.eq == .pilot then
    modRx p (fun r => addErased (if r.erasing then erased else 0) { r with eq := .tracking, erasing := false }) s
  else s

/-- PILOT_MODE_END. -/
def execPilotModeEnd (p : LPort) (erased : Nat) (s : State) : Outcome := .next (pilotModeEnd p erased s)

/-- RECONVERGE_FAIL (R118, R124). -/
def reconvergeFail (p : LPort) (erased : Nat) (s : State) : State :=
  if s.ports[p].rx.erasing then lossOfSignal p (modRx p (addErased erased) s) else s

/-- RECONVERGE_FAIL. -/
def execReconvergeFail (p : LPort) (erased : Nat) (s : State) : Outcome := .next (reconvergeFail p erased s)

/-- The DGD against the span of the equaliser (R117), (EQ_TAPS − 8) / (1.125 B) ns, both multiplied by 9 (240 + RATE):
the DGD is in 0.1 ps, and B is (240 + RATE) / 4 GBd. -/
def dgdScaled (x : PortSt) : Int := x.rx.dgdNow.toNat * (9 * (240 + x.tr.rate.toNat))
/-- The span of the equaliser in the units of `dgdScaled`. -/
def spanScaled (x : PortSt) : Int := ((eqTaps x.rx : Int) - 8) * 320000

/-- EQ_SPAN (R117): the DGD exceeds the span. -/
def eqSpan (p : LPort) (s : State) : State :=
  let x := s.ports[p]
  if x.rx.frameAligned && decide (spanScaled x < dgdScaled x) then setAlarm (.line p) 2 true s else s

/-- EQ_SPAN. -/
def execEqSpan (p : LPort) (s : State) : Outcome := .next (eqSpan p s)

/-- EQ_SPAN_CLEAR (R117): the DGD has stayed below the span for 256 superframes. -/
def eqSpanClear (p : LPort) (s : State) : State :=
  if 256 ≤ s.ports[p].rx.dgdRun then setAlarm (.line p) 2 false s else s

/-- EQ_SPAN_CLEAR. -/
def execEqSpanClear (p : LPort) (s : State) : Outcome := .next (eqSpanClear p s)

/-- The DGD of a superframe (R117): the superframes below the span are counted, and EQ_SPAN follows. -/
def takeDgd (p : LPort) (dgd : BitVec 16) (s : State) : State :=
  let s := modRx p (fun r => { r with dgdNow := dgd }) s
  let x := s.ports[p]
  let below := decide (dgdScaled x < spanScaled x)
  eqSpanClear p (eqSpan p (modRx p (fun r => { r with dgdRun := if below then r.dgdRun + 1 else 0 }) s))

/-- The taps after a superframe's adaptation (R114, R118): those of a healthy equaliser, in tracking mode, are kept for 16
superframes. -/
def takeTaps (p : LPort) (taps : List Word) (s : State) : State :=
  modRx p (fun r =>
    if r.eq == .off then r
    else { r with taps := taps, tapHist := if r.eq == .tracking then (taps :: r.tapHist).take 16 else r.tapHist }) s

/-! ### Work at a receive boundary (R77, R111, R130, R133) -/

/-- The CD filter follows the tracked CD, which is its setting and the residual of the equaliser taps (R130), by at most
20 ps/nm, up to the edge of the range that the overlap covers; CD_COVER follows (R111). The range is worked out with the
roll-off with which the overlap was chosen (DEDUCED, notes/assumptions 135). -/
def trackCd (p : LPort) (residual : Int) (s : State) : State :=
  let x := s.ports[p]
  if inService s p then
    let cd := x.rx.cdSet + residual
    let edge := overlapMax x.rx.overlap.toNat x.tr.rate.toNat x.rx.beta
    let inside := overlapCovers x.rx.overlap.toNat x.tr.rate.toNat x.rx.beta cd
    let rises := !inside && !alarmOn s (.line p) 1
    setAlarm (.line p) 1 (!inside) (modRx p (fun r => { r with
      tracked := true, lastCd := cd, lastFo := r.rotator
      cdSet := r.cdSet + clampI (-20) 20 (clampI (-edge) edge cd - r.cdSet)
      cdCoverEvt := if rises then r.cdCoverEvt + 1 else r.cdCoverEvt }) s)
  else s

/-- The levels and clips of the ADC lanes as measured at a pacing boundary, or every 4 µs while LDn is not ON (R77). -/
def adcMeasure (p : LPort) (levels : Vector (BitVec 16) 4) (clips : Vector Nat 4) (s : State) : State :=
  if isOn s (.cv p) then
    modFront p (fun f => { f with
      level := levels, adcClip := Vector.ofFn fun i => f.adcClip[i] + BitVec.ofNat 64 clips[i] }) s
  else s

/-- The rotator takes the residual offset that stage 7 feeds back (R113). -/
def feedBack (foRes : Int) (r : Rx) : Rx := { r with rotator := r.rotator + foRes }

/-- The values of a superframe join their averages (R130): the CD is the stage-4 setting and the residual, the offset the
rotator with stage 7's residual. -/
def RxAcc.add (a : RxAcc) (cd fo : Int) (o : RxObs) : RxAcc :=
  { a with
    n := a.n + 1, snrX := a.snrX + o.snrX.toNat, snrY := a.snrY + o.snrY.toNat, cd := a.cd + cd
    dgd := a.dgd + o.dgd.toNat, pdl := a.pdl + o.pdl.toNat, sop := a.sop + o.sop.toNat, fo := a.fo + fo
    clk := a.clk + o.clk.toInt, nliN := a.nliN + 1, nli := a.nli + o.snrNli.toNat }

/-- Every 256 superframes the averaged estimates are refreshed, with CD as a multiple of 10 ps/nm (R130, R131; DESIGN
CHOICE, notes/assumptions 136). -/
def meanEstimates (r : Rx) : Rx :=
  let a := r.acc
  if a.n < 256 then r
  else
    { r with
      acc := { a with n := 0, snrX := 0, snrY := 0, cd := 0, dgd := 0, pdl := 0, sop := 0, fo := 0, clk := 0 }
      est := { r.est with
        snrX := BitVec.ofInt 16 (rdiv a.snrX 256), snrY := BitVec.ofInt 16 (rdiv a.snrY 256)
        cd := BitVec.ofInt 32 (10 * rdiv a.cd 2560), dgd := BitVec.ofInt 16 (rdiv a.dgd 256)
        pdl := BitVec.ofInt 8 (rdiv a.pdl 256), sop := BitVec.ofInt 16 (rdiv a.sop 256)
        fo := BitVec.ofInt 16 (rdiv a.fo 256), clk := BitVec.ofInt 16 (rdiv a.clk 256) } }

/-- Every 4,096 superframes SNR_NLI is refreshed (R130). -/
def meanNli (r : Rx) : Rx :=
  if r.acc.nliN < 4096 then r
  else { r with acc := { r.acc with nliN := 0, nli := 0 }, est := { r.est with snrNli := BitVec.ofInt 16 (rdiv r.acc.nli 4096) } }

/-- Corrected bits of a port's decoded codewords (R212, R213). -/
def corrected (x : PoolPort) : BitVec 64 := x.corr0to1 + x.corr1to0

/-- Every 1,024 superframes the pre-FEC BER is refreshed from the port's own FEC counters (R130, R213): corrected bits over
coded bits, times 2^32 and saturating; a lower bound when a codeword of the window was not corrected. -/
def meanBer (x : PoolPort) (r : Rx) : Rx :=
  let a := r.acc
  if a.berN + 1 < 1024 then { r with acc := { a with berN := a.berN + 1 } }
  else
    let coded := (x.codedBits - a.coded).toNat
    { r with
      acc := { a with berN := 0, coded := x.codedBits, corr := corrected x, uncorr := x.uncorr }
      est := { r.est with
        preBer := wd (min 0xFFFFFFFF ((corrected x - a.corr).toNat * 4294967296 / coded))
        berBound := x.uncorr != a.uncorr } }

/-- The estimates of a superframe (R113, R130). -/
def takeEstimates (p : LPort) (o : RxObs) (s : State) : State :=
  modRx p (fun r =>
    let r := feedBack o.foRes { r with
      phaseSlip := r.phaseSlip + wd o.slips, est := { r.est with sfX := o.snrX, sfY := o.snrY } }
    meanBer s.pool.ports[p] (meanNli (meanEstimates { r with acc := r.acc.add (r.cdSet + o.cdRes) r.rotator o }))) s

end Sys2Proof.Machine
end

