-- ==== Sys2Proof/Machine/TxDsp.lean ====
section
/-! DEFINITION. The transmit DSP (R159 to R180): LINE_TX_CONFIG, the digital gain and the skew ramps at a
transmit boundary, and LINE_STATUS with its four sections (R132, R179, R517). -/

namespace Sys2Proof.Machine

/-! ### LINE_TX_CONFIG (R176 to R178) -/

/-- A selected word of LINE_TX_CONFIG is out of range. -/
def txWordBad (i : Nat) (w : Word) : Bool :=
  let skewBad := fun hi lo => decide (800 < (sgn 16 (fld w hi lo)).natAbs)
  match i with
  | 1 => fld w 25 22 == 0 || decide (10 < fld w 25 22) || fld w 21 0 != 0
  | 2 => decide (999 < fld w 31 22) || decide (16 < fld w 21 16) || fld w 15 0 != 0
  | 3 => decide (120 < fld w 31 25) || decide (120 < fld w 24 18) || decide (120 < fld w 17 11) ||
      decide (120 < fld w 10 4) || fld w 3 0 != 0
  | 4 => skewBad 31 16 || skewBad 15 0
  | 5 => skewBad 31 16 || skewBad 15 0
  | 6 => fld w 30 24 != 0 || (bit w 31 && bulkBad (fld w 23 0) 61)
  | _ => fld w 30 24 != 0 || (bit w 31 && bulkBad (fld w 23 0) 133)

/-- Words of the bulk block that word 6 reads. -/
def linLen (ps : List Word) : Nat := if maskSel ps 6 && bit (ps.getD 6 0) 31 then 61 else 0

/-- Words of the bulk block that word 7 reads. -/
def preLen (ps : List Word) : Nat := if maskSel ps 7 && bit (ps.getD 7 0) 31 then 133 else 0

/-- The bulk data that a LINE_TX_CONFIG reads: its linearisation block, then its pre-emphasis block (R177). -/
def txData (ps : List Word) (s : State) : List Word :=
  bulkRead s.bulk (fld (ps.getD 6 0) 23 0) (linLen ps) ++ bulkRead s.bulk (fld (ps.getD 7 0) 23 0) (preLen ps)

/-- A block of R177 fails its CRC or holds a reserved bit. -/
def coefBad (ws : List Word) : Bool := !ws.isEmpty && (!blockCrc ws || (ws.dropLast).any fun w => fld w 15 0 != 0)

/-- Parameter checks of LINE_TX_CONFIG with the bulk data it reads (R178). -/
def txChecks (ps ws : List Word) : List (Bool × Answer) :=
  let w := ps.getD 0 0
  [badAt ((fld w 29 8 != 0 || bit w 7, 0) ::
    ([1, 2, 3, 4, 5, 6, 7].map fun i => (maskSel ps i && txWordBad i (ps.getD i 0), i))),
   (coefBad (ws.take (linLen ps)) || coefBad (ws.drop (linLen ps)), badParam 0xFF)]

/-- Coefficients of a block: bits [31:16] of each word but the CRC. -/
def coefs (ws : List Word) : List (BitVec 16) := ws.dropLast.map fun w => BitVec.ofNat 16 (fld w 31 16)

/-- Words 6 and 7 take effect: copied coefficients, or the identity (R170, R171). -/
def txFilters (p : LPort) (ps ws : List Word) (s : State) : State :=
  let s := if maskSel ps 6 then modTx p (fun t => { t with
      cfg := vset t.cfg 5 (ps.getD 6 0), lin := if linLen ps = 0 then linIdentity else coefs (ws.take (linLen ps)) }) s else s
  if maskSel ps 7 then modTx p (fun t => { t with
      cfg := vset t.cfg 6 (ps.getD 7 0), pre := if preLen ps = 0 then preIdentity else coefs (ws.drop (linLen ps)) }) s else s

/-- The effect of an EXACT LINE_TX_CONFIG: the selected ones of words 3, 6 and 7 apply (R178, R297). -/
def txExact (ps ws : List Word) (s : State) : State :=
  let p : LPort := Fin.ofNat 4 (fld (ps.getD 0 0) 31 30)
  let s := if maskSel ps 3 then modTx p (fun t => { t with cfg := vset t.cfg 2 (ps.getD 3 0), next := vset t.next 2 none }) s else s
  txFilters p ps ws s

/-- Selected words wait for the next TX(LPn) boundary. -/
def txStore (p : LPort) (ps : List Word) (is : List (Fin 7)) (s : State) : State :=
  eachOf (is.filter fun i => maskSel ps (i.val + 1)) (fun i =>
    modTx p (fun t => { t with next := vset t.next i (some (ps.getD (i.val + 1) 0)) })) s

/-- LINE_TX_CONFIG (R176 to R178). In TRAFFIC words 6 and 7 are scheduled under R32. -/
def lineTxConfig (rq : Req) (s : State) : State :=
  let p := pport rq 0
  let ps := rq.params
  let ws := txData ps s
  let st := s.ports[p].tr.state
  command 0x2004 rq (txChecks ps ws) (fun s => [(maskSel ps 1 && inService s p, badState)])
    (fun s =>
      let sched : Bool := st == .traffic && (maskSel ps 6 || maskSel ps 7)
      let full : Bool := sched && poolFull s
      if full then enterImplicit 0x2004 rq ps ws (txRef p) s else
      let s := txStore p ps [0, 2, 3, 4] s
      let s := if maskSel ps 2 then modTx p (fun t =>
          let t := { t with cfg := vset t.cfg 1 (ps.getD 2 0) }
          if st == .down then gainSnap t else t) s else s
      if sched then
        enterImplicit 0x2004 rq (wd (fld (ps.getD 0 0) 31 30 * 2 ^ 30 + fld (ps.getD 0 0) 6 5 * 32) :: ps.drop 1) ws
          (txRef p) s
      else reply 0x2004 rq (okay []) (txFilters p ps ws s)) s

/-- LINE_TX_CONFIG. -/
def execLineTxConfig (rq : Req) (s : State) : Outcome := .next (lineTxConfig rq s)

/-! ### Work at a transmit boundary (R80, R172, R173, R178) -/

/-- Words that waited for the boundary take effect. -/
def txApply (t : Tx) : Tx :=
  { t with cfg := Vector.ofFn fun i => (t.next[i]).getD t.cfg[i], next := Vector.replicate 7 none }

/-- A skew ramp is running (R173). -/
def skewRamp (t : Tx) : Bool := (List.finRange 4).any fun i => t.skew[i] != skewOf t i

/-- The host skew moves by at most 100 fs, or at once in DOWN and MUTED (R173, R178). -/
def skewStep (once : Bool) (t : Tx) : Tx :=
  { t with skew := Vector.ofFn fun i => if once then skewOf t i else t.skew[i] + clampI (-4) 4 (skewOf t i - t.skew[i]) }

/-- The sum of host and Regulator skew is clamped to ±20 ps; a clamped superframe counts and TX_SKEW_RANGE
follows (R173, R180). -/
def skewApply (p : LPort) (s : State) : State :=
  let x := s.ports[p]
  let over_ := (List.finRange 4).any fun i => decide (800 < (skewSum x i).natAbs)
  setAlarm (.line p) 8 over_ (modTx p (fun t => { t with
    applied := appliedOf x
    skewClamp := if over_ then t.skewClamp + 1 else t.skewClamp }) s)

/-- A DAC code: codes beyond the range are clipped to 0 or 255 (R172). -/
def dacCode (v : Int) : Nat := (clampI 0 255 v).toNat

/-- Codes of a lane that clipping changes, which DAC_CLIP counts (R172, R180). -/
def clippedCodes (l : List Int) : Nat := (l.filter fun v => (dacCode v : Int) != v).length

/-- The digital gain moves by at most 0.01 dB towards the target, from the measured rms (R172). -/
def gainStep (down : Bool) (rms : Vector Byte 4) (codes : Vector (List Int) 4) (t : Tx) : Tx :=
  let t := { t with rms := rms, dacClip := Vector.ofFn fun i => t.dacClip[i] + BitVec.ofNat 64 (clippedCodes codes[i]) }
  if down then gainSnap t
  else { t with gain := Vector.ofFn fun i => t.gain[i] + clampI (-1) 1 ((rms[i].toNat : Int) - digRms t) }

/-- The transmit stages' work at a boundary; a new roll-off has R139 checked again. -/
def txStages (p : LPort) (o : TxObs) (s : State) : State :=
  let roll := (txApply s.ports[p].tx).cfg[0] != s.ports[p].tx.cfg[0]
  let st := s.ports[p].tr.state
  let still : Bool := st == .down || st == .muted
  doIf roll nlcEval (skewApply p (modTx p (fun t => skewStep still (gainStep (st == .down) o.rms o.codes (txApply t))) s))

/-! ### LINE_STATUS (R132, R179, R517) -/

/-- A word of four bytes from signed values in 0.01 dB, as 0.1 dB. -/
def gainWord (g : Vector Int 4) : Word :=
  let b := fun (v : Int) => unsgn 8 (rdiv v 10)
  word [(31, 24, b g[0]), (23, 16, b g[1]), (15, 8, b g[2]), (7, 0, b g[3])]

/-- SECTION 2 (R179). -/
def txReport (s : State) (p : LPort) : List Word :=
  let x := s.ports[p]
  let n := refCount s (txRef p)
  let settled := (List.range 6).foldl (fun a i => a + b2n (loopOf s p i).isSettled * 2 ^ (5 - i)) 0
  let a := fun (i : Fin 4) => unsgn 16 x.tx.applied[i]
  [x.sf.sent[5], x.sf.sent[6], x.sf.sent[7], wd (psHi n), word [(31, 16, psLo n), (15, 11, slotsCarried x.sf.sent[5])],
   word [(31, 31, b2n x.front.drvEn), (30, 30, b2n (outputsOn s)), (29, 29, b2n (isOn s (.cv p))),
       (28, 28, b2n x.front.locked), (27, 22, settled), (21, 21, b2n x.front.lmute), (20, 20, b2n x.front.ldrvOff),
       (19, 19, b2n (alarmOn s (.line p) 8)), (18, 18, b2n (skewRamp x.tx))],
   word [(31, 28, fld x.tx.cfg[0] 25 22), (27, 27, b2n (bit x.tx.cfg[5] 31)), (26, 26, b2n (bit x.tx.cfg[6] 31))],
   word [(31, 24, x.tx.rms[0].toNat), (23, 16, x.tx.rms[1].toNat), (15, 8, x.tx.rms[2].toNat), (7, 0, x.tx.rms[3].toNat)],
   gainWord x.tx.gain, word [(31, 16, a 0), (15, 0, a 1)], word [(31, 16, a 2), (15, 0, a 3)], 0]

/-- t_DRV remaining in 10 µs (R517). -/
def tDrvLeft (s : State) (p : LPort) : Nat :=
  match s.ports[p].front.tDrv with
  | some (len, t0) => len - (s.sys.usec - t0) / 10
  | none => 0

/-- SECTION 3 (R517). -/
def frontReport (s : State) (p : LPort) : List Word :=
  let f := s.ports[p].front
  let l := fun (i : Fin 4) => f.level[i].toNat
  let src := (muteSrc s p).zipIdx.foldl (fun a e => a + b2n e.1 * 2 ^ (7 - e.2)) 0
  [word [(31, 16, l 0), (15, 0, l 1)], word [(31, 16, l 2), (15, 0, l 3)], word [(31, 20, f.sclk.toNat)],
   word [(31, 16, if regen s p then f.steer.toNat else 0), (15, 15, b2n f.locked), (14, 14, b2n f.holdover),
       (13, 13, b2n (alarmOn s (.conv p) 3)), (12, 12, b2n f.light), (11, 11, b2n f.drvEn)],
   word [(31, 24, src)], wd (tDrvLeft s p)]

/-- SECTION 0 (R132): the ten words of the snapshot that the port took at this boundary (R131); with LDn not ON they are
those of R131 for a port without one. -/
def lpsReport (s : State) (p : LPort) : List Word :=
  if isOn s (.ld p) then s.ports[p].rx.snap.toList.take 10 else lpsWords s p 0

/-- SECTION 1 (R132): 63 taps of each of the four filters; taps outside EQ_TAPS, centred on tap 31, are zero. -/
def tapWords (s : State) (p : LPort) : List Word :=
  let half := eqTaps s.ports[p].rx / 2
  (List.range 252).map fun i =>
    let t := i % 63
    if t + half < 31 || 31 + half < t then 0 else s.ports[p].rx.taps.getD i 0

/-- What LINE_STATUS answers, by SECTION. -/
def lineStatusAnswer (rq : Req) (s : State) : State :=
  let p := pport rq 0
  match pf rq 0 29 24 with
  | 0 => answerReply 0x2005 rq (lpsReport · p) s
  | 1 => answerBulk 0x2005 rq (pf rq 0 23 0) (tapWords · p) s
  | 2 => answerReply 0x2005 rq (txReport · p) s
  | _ => answerReply 0x2005 rq (frontReport · p) s

/-- LINE_STATUS (R132): a report about the port; SECTION 2 is taken at a TX(LPn) boundary (R179). -/
def lineStatus (rq : Req) (s : State) : State :=
  let p := pport rq 0
  let sec := pf rq 0 29 24
  report (if sec == 2 then .tx p else .port p) 0x2005 rq
    [badAt [(decide (3 < sec) || (sec == 1 && bulkBad (pf rq 0 23 0) 252), 0)]] (lineStatusAnswer rq) s

/-- LINE_STATUS. -/
def execLineStatus (rq : Req) (s : State) : Outcome := .next (lineStatus rq s)

end Sys2Proof.Machine
end

