-- ==== Sys2Proof/Machine/Nlc.lean ====
section
/-! DEFINITION. Complication (R136 to R158): groups and their conditions, coefficient sets, fades, members,
LINE_NLC_SET and its events. -/

namespace Sys2Proof.Machine

/-! ### Coefficient sets (R144, R145, R153) -/

/-- Word `i` of a set. -/
def CoefSet.w (c : CoefSet) (i : Nat) : Word := c.words.getD i 0

/-- The set holds port `p`. -/
def CoefSet.holds (c : CoefSet) (p : LPort) : Bool := bit (c.w 0) (20 + p.val)

/-- Rate and centre in the header for port `p` equal its present values. -/
def CoefSet.matches (c : CoefSet) (s : State) (p : LPort) : Bool :=
  fld (c.w (1 + p.val)) 31 22 == s.ports[p].tr.rate.toNat &&
    fld (c.w (1 + p.val)) 21 10 == s.ports[p].nlc.cf.toNat

/-- Members in a MEMBER_MASK. -/
def maskMembers (w0 : Word) : Nat := (allPorts.filter fun p => bit w0 (20 + p.val)).length

/-- Length of a set from its header (R145). -/
def setLength (w0 : Word) : Nat :=
  let m := maskMembers w0
  9 + 2 * fld w0 15 8 * m + fld w0 7 0 * m * (m - 1)

/-- A block that LOAD refuses for port `p` (R145, R153). -/
def setBad (p : LPort) (ws : List Word) : Bool :=
  let w := fun i => ws.getD i 0
  let ct := fld (w 0) 7 0
  let selfs := 2 * fld (w 0) 15 8 * maskMembers (w 0)
  fld (w 0) 31 24 != 1 || !blockCrc ws || ws.length != setLength (w 0) || !bit (w 0) (20 + p.val) ||
    (ct != 0 && ct % 2 == 0) || decide (127 < ct) || fld (w 0) 19 16 != 0 ||
    (List.range 4).any (fun i => fld (w (1 + i)) 9 0 != 0 || decide (880 < fld (w (1 + i)) 31 22)) ||
    fld (w 5) 15 0 != 0 || fld (w 6) 15 0 != 0 || w 7 != 0 ||
    (List.range (selfs / 2)).any fun i =>
      let a := w (8 + 2 * i)
      fld a 15 0 != 0 || decide (100 < (sgn 8 (fld a 31 24)).natAbs) || decide (100 < (sgn 8 (fld a 23 16)).natAbs)

/-- The receive sets or the transmit sets. -/
def Nlc.sets (n : Nlc) (tx : Bool) : Vector (Option CoefSet) 8 := if tx then n.txSets else n.rxSets

/-- The set is in use or fading in on a side, or in use still by the fade that leaves it (R146, R153). -/
def setBusy (n : Nlc) (tx : Bool) (i : Fin 8) : Bool :=
  let uses := fun (u : NlcUse) => u.on && u.set.toNat == i.val
  uses (if tx then n.tx else n.rx) || (if tx then n.txFade else n.rxFade).any fun f => uses f.1

/-- Store a set. -/
def putSet (p : LPort) (tx : Bool) (i : Fin 8) (c : CoefSet) (s : State) : State :=
  modNlc p (fun n => if tx then { n with txSets := vset n.txSets i (some c) } else { n with rxSets := vset n.rxSets i (some c) }) s

/-! ### Switches and fades (R146, R147) -/

/-- Every member of the port's group has the rate and centre of the set in use. -/
def staleClears (s : State) (p : LPort) : Bool :=
  let n := s.ports[p].nlc
  match n.rxSets[(Fin.ofNat 8 n.rx.set.toNat : Fin 8)] with
  | some c => (groupOf s p).all fun j => c.matches s j
  | none => false

/-- A receive switch takes effect at a boundary: a running fade is cut, and a new one starts from its target.
A selected set with matching values clears NLC_STALE (R142). -/
def rxSwitch (p : LPort) (u : NlcUse) (s : State) : State :=
  let n := s.ports[p].nlc
  let s := modNlc p (fun n => { n with
    rx := u, rxNext := none, fadeCut := if n.rxFade.isSome then n.fadeCut + 1 else n.fadeCut
    rxFade := if n.rx.on || u.on then some (n.rx, 0) else none }) s
  if u.on && staleClears s p then setAlarm (.line p) 6 false s else s

/-- A transmit switch takes effect at a boundary. -/
def txSwitch (p : LPort) (u : NlcUse) (s : State) : State :=
  modNlc p (fun n => { n with
    tx := u, txNext := none, fadeCut := if n.txFade.isSome then n.fadeCut + 1 else n.fadeCut
    txFade := if n.tx.on || u.on then some (n.tx, 0) else none }) s

/-- A running fade advances by one superframe: after superframe N + 15, which applies the new set alone, it is complete
(R146). -/
def fadeStep (f : Option (NlcUse × Nat)) : Option (NlcUse × Nat) :=
  match f with
  | none => none
  | some (u, i) => if 15 ≤ i then none else some (u, i + 1)

/-- The fade has run its 16 superframes. -/
def fadeEnds (f : Option (NlcUse × Nat)) : Bool := f.any fun x => decide (15 ≤ x.2)

/-- The transmit side's fade at a boundary; a completed one counts NLC_SWITCH (R146). -/
def Nlc.txStep (n : Nlc) : Nlc :=
  { n with txFade := fadeStep n.txFade, switches := if fadeEnds n.txFade then n.switches + 1 else n.switches }

/-- The receive side's fade at a boundary. -/
def Nlc.rxStep (n : Nlc) : Nlc :=
  { n with rxFade := fadeStep n.rxFade, switches := if fadeEnds n.rxFade then n.switches + 1 else n.switches }

/-- A delay lies outside ±1.6 µs, in 0.1 ns (R141). -/
def delayFar (d : Int) : Bool := decide (16000 < d.natAbs)

/-- The transmit side at a TX(LPn) boundary: a waiting switch, the running fade, and the members whose light is
on the fibre and whose delay is in range (R141, R143, R146). -/
def nlcTxBoundary (p : LPort) (s : State) : State :=
  let mask := (groupOf s p).foldl (fun a j =>
    if j != p && crossOk s p && s.ports[j].front.drvEn && !s.ports[j].front.muted &&
      !delayFar s.ports[p].nlc.members[j].delay then a + 2 ^ j.val else a) 0
  let s := modNlc p (fun n => { n.txStep with txMask := BitVec.ofNat 4 mask }) s
  match s.ports[p].nlc.txNext with
  | some u => txSwitch p u s
  | none => s

/-! ### Members on the receive side (R141, R142) -/

/-- Member j tracks: LDj is ON, port j has PSFN lock and its equaliser is in tracking mode (R142). -/
def memberHeard (s : State) (j : LPort) : Bool :=
  isOn s (.ld j) && s.ports[j].sf.lock && s.ports[j].rx.eq == .tracking

/-- The conditions of R142 but for the last, and the range of R141: j tracks and its alignment has completed. -/
def memberRuns (s : State) (p j : LPort) : Bool :=
  let m := s.ports[p].nlc.members[j]
  memberHeard s j && m.aligned && !delayFar m.delay

/-- The delay of member j relative to port p in 0.1 ns (R141): the walk-off CD × 0.00802 × (f_j − f_p) with the tracked CD
and the declared centres in 6.25 GHz, the fixed pipeline difference, and the refinement in samples of 1.125 B. Each share
is rounded to the nearest 0.1 ns (DESIGN CHOICE, notes/assumptions 140). -/
def memberDelay (s : State) (p j : LPort) (samples : Int) : Int :=
  let x := s.ports[p]
  rdiv (x.rx.lastCd * (centre s.ports[j].nlc - centre x.nlc) * 401) 800000 + Config.pipelineDiff p.val j.val +
    rdiv (samples * 320) (9 * (240 + x.tr.rate.toNat))

/-- The last condition of R142: the set in use on port `p` holds j's rate and centre. -/
def memberMatches (s : State) (p j : LPort) : Bool :=
  let n := s.ports[p].nlc
  match n.rxSets[(Fin.ofNat 8 n.rx.set.toNat : Fin 8)] with
  | some c => c.holds j && c.matches s j
  | none => false

/-- A member's part of an RX(LPn) boundary (R142, R146). (DEDUCED, notes/assumptions 79) -/
def memberStep (p : LPort) (j : LPort) (s : State) : State :=
  if j == p then s
  else
    let n := s.ports[p].nlc
    let m := n.members[j]
    let inGroup := (groupOf s p).contains j && crossOk s p && n.rx.on
    let delay := if m.aligned then memberDelay s p j m.refine else m.delay
    let far := m.aligned && delayFar delay
    let heard := memberHeard s j
    let runs := heard && m.aligned && !far
    let fits := memberMatches s p j
    let ok := inGroup && runs && fits
    let dropped := m.active && inGroup && !ok
    let done := m.active && ok && m.fade == some 15
    let m' : NlcMember := { m with
      aligned := m.aligned && heard, delay := delay
      active := m.active && ok, tracked := if heard then m.tracked + 1 else 0
      fade := if m.active && ok && !done then m.fade.map (· + 1) else none }
    let s := modNlc p (fun n => { n with
      members := vset n.members j m', drop := if dropped then n.drop + 1 else n.drop
      switches := if done then n.switches + 1 else n.switches }) s
    let s := raiseAlarm (.line p) 7 (inGroup && far) s
    if dropped && runs && !fits then setAlarm (.line p) 6 true s else s

/-- NLC_GAIN_RX (R157): the mean of 256 superframes, and 0 while the receive side is off. -/
def Nlc.takeGain (gain : BitVec 16) (n : Nlc) : Nlc :=
  if !n.rx.on then { n with gainRx := 0, gainN := 0, gainSum := 0 }
  else if n.gainN + 1 < 256 then { n with gainN := n.gainN + 1, gainSum := n.gainSum + gain.toInt }
  else { n with gainRx := BitVec.ofInt 16 (rdiv (n.gainSum + gain.toInt) 256), gainN := 0, gainSum := 0 }

/-- A receive switch that waits for the port's boundary takes effect. -/
def rxWaiting (p : LPort) (s : State) : State :=
  match s.ports[p].nlc.rxNext with
  | some u => rxSwitch p u s
  | none => s

/-- The receive side at an RX(LPn) boundary. -/
def nlcRxBoundary (p : LPort) (gain : BitVec 16) (s : State) : State :=
  rxWaiting p (modNlc p (fun n => n.rxStep.takeGain gain) (eachPort (memberStep p) s))

/-- NLC_ALIGN_DONE (R141): the correlation over ±16 ns has found the refinement, in samples. A total delay beyond ±1.6 µs
raises NLC_SKEW and the member's terms are not applied. (DEDUCED, notes/assumptions 80) -/
def nlcAlignDone (p j : LPort) (samples : Int) (s : State) : State :=
  let inWindow := decide (samples.natAbs * 320 ≤ 160 * (9 * (240 + s.ports[p].tr.rate.toNat)))
  if j != p && (groupOf s p).contains j && inWindow then
    let delay := memberDelay s p j samples
    let s := modNlc p (fun n => { n with members := vmod n.members j fun m =>
      { m with aligned := true, refine := samples, delay := delay } }) s
    raiseAlarm (.line p) 7 (delayFar delay) s
  else s

/-- NLC_ALIGN_DONE. -/
def execNlcAlignDone (p j : LPort) (samples : Int) (s : State) : Outcome := .next (nlcAlignDone p j samples s)

/-- NLC_MEMBER_FADE_IN (R142): all conditions hold and the member has tracked for 256 superframes. -/
def nlcMemberFadeIn (p j : LPort) (s : State) : State :=
  let n := s.ports[p].nlc
  let m := n.members[j]
  if !m.active && 256 ≤ m.tracked && (groupOf s p).contains j && j != p && crossOk s p && n.rx.on &&
      memberRuns s p j && memberMatches s p j then
    modNlc p (fun n => { n with members := vmod n.members j fun m => { m with active := true, fade := some 0 } }) s
  else s

/-- NLC_MEMBER_FADE_IN. -/
def execNlcMemberFadeIn (p j : LPort) (s : State) : Outcome := .next (nlcMemberFadeIn p j s)

/-- NLC_FADE_DONE (R146): a fade that has reached superframe N + 15 is complete, and NLC_SWITCH counts. (DEDUCED,
notes/assumptions 78) -/
def nlcFadeDone (p : LPort) (transmit : Bool) (s : State) : State :=
  modNlc p (fun n =>
    if transmit then (if fadeEnds n.txFade then n.txStep else n) else (if fadeEnds n.rxFade then n.rxStep else n)) s

/-- NLC_FADE_DONE. -/
def execNlcFadeDone (p : LPort) (transmit : Bool) (s : State) : Outcome := .next (nlcFadeDone p transmit s)

/-! ### LINE_NLC_SET (R151 to R156) -/

/-- GROUP would put both ports of a regenerating pair in one group. -/
def pairClash (s : State) (p : LPort) (g : Nat) : Bool :=
  g != 0 && regen s p && s.ports[mate p].nlc.group.toNat == g

/-- Parameter checks by operation (R151 to R156); `ws` is the block of a LOAD. -/
def nlcChecks (ps ws : List Word) (s : State) : List (Bool × Answer) :=
  let w := fun i => ps.getD i 0
  let p : LPort := Fin.ofNat 4 (fld (w 0) 31 30)
  let n := ps.length
  match fld (w 0) 29 27 with
  | 0 => [badAt [(n != 2 || fld (w 0) 26 25 == 3 || fld (w 0) 23 0 != 0 || pairClash s p (fld (w 0) 26 25), 0),
      (fld (w 1) 19 12 == 0 || decide (96 < fld (w 1) 19 12) || fld (w 1) 11 0 != 0, 1)]]
  | 1 => [badAt [(n != 3 || fld (w 0) 22 0 != 0, 0), (fld (w 1) 31 24 != 0 || bulkBad (fld (w 1) 23 0) (w 2).toNat, 1),
      (decide (3573 < (w 2).toNat), 2)], (setBad p ws, badParam 0xFF)]
  | 2 => [badAt [(n != 4 || fld (w 0) 22 0 != 0, 0),
      (fld (w 1) 31 24 == 0 || decide (64 < fld (w 1) 31 24) || decide (fld (w 1) 23 12 < 10) ||
        decide (2000 < fld (w 1) 23 12) || fld (w 1) 11 0 != 0, 1),
      (decide (fld (w 2) 31 16 < 100) || decide (3000 < fld (w 2) 31 16) || decide (fld (w 2) 15 8 < 100) ||
        decide (fld (w 2) 7 0 < 40), 2),
      (decide (100 < (sgn 8 (fld (w 3) 31 24)).natAbs) || fld (w 3) 23 0 != 0, 3)]]
  | 3 => [badAt [(n != 1 || fld (w 0) 21 0 != 0, 0)]]
  | 4 => [badAt [(n != 1 || fld (w 0) 26 0 != 0, 0)]]
  | _ => [badAt [(true, 0)]]

/-- SELECT is refused (R155). -/
def selectBad (s : State) (p : LPort) (tx on : Bool) (i : Fin 8) : Bool :=
  (tx && inService s p) ||
    (on && match (s.ports[p].nlc.sets tx)[i] with
      | some c => !c.holds p || !c.matches s p
      | none => true)

/-- State checks by operation. -/
def nlcStates (ps : List Word) (s : State) : List (Bool × Answer) :=
  let w0 := ps.getD 0 0
  let p : LPort := Fin.ofNat 4 (fld w0 31 30)
  let i : Fin 8 := Fin.ofNat 8 (fld w0 25 23)
  let st := s.ports[p].tr.state
  match fld w0 29 27 with
  | 0 => [(st != .down && st != .muted, badState)]
  | 1 => [(setBusy s.ports[p].nlc (bit w0 26) i, badState)]
  | 2 => [(setBusy s.ports[p].nlc (bit w0 26) i, badState)]
  | 3 => [(selectBad s p (bit w0 26) (bit w0 22) i, badState)]
  | _ => []

/-- GROUP (R152). -/
def nlcGroup (p : LPort) (rq : Req) (s : State) : State :=
  let pc := bit (par rq 0) 24
  let s := modNlc p (fun n => { n with
    group := BitVec.ofNat 2 (pf rq 0 26 25), cf := BitVec.ofNat 12 (pf rq 1 31 20), slotM := BitVec.ofNat 8 (pf rq 1 19 12)
    peerCheck := pc, members := Vector.replicate 4 {} }) s
  let s := eachOf (groupOf s p) (fun q => modNlc q fun n => { n with peerCheck := pc }) s
  nlcEval s

/-- CD_REF of BUILD in 10 ps/nm, rounded down, before saturation (R154; DESIGN CHOICE, notes/assumptions 76). -/
def buildCd (rq : Req) : Nat := pf rq 1 31 24 * pf rq 1 23 12 * pf rq 2 31 16 / 10000

/-- A term word of BUILD from a free value: the first word of a self term holds two delays within ±100 samples
(R145). -/
def buildTerm (selfs i : Nat) (v : Word) : Word :=
  let d := fun (n : Nat) => unsgn 8 ((n % 201 : Nat) - 100)
  if i < selfs && i % 2 == 0 then word [(31, 24, d (fld v 31 16)), (23, 16, d (fld v 15 0))] else v

/-- The set that BUILD computes (R154): its header from the declarations; its terms are free values. -/
def builtSet (s : State) (p : LPort) (rq : Req) : CoefSet :=
  let ms := if s.ports[p].nlc.group == 0 then [p] else groupOf s p
  let head := word [(31, 24, 1), (23, 20, ms.foldl (fun a q => a + 2 ^ q.val) 0), (15, 8, 255), (7, 0, 127)]
  let row := fun (q : LPort) =>
    if ms.contains q then word [(31, 22, s.ports[q].tr.rate.toNat), (21, 10, s.ports[q].nlc.cf.toNat)] else 0
  let ws := [head, row 0, row 1, row 2, row 3, word [(31, 16, 0x1000)], word [(31, 16, min 0x7FFF (buildCd rq))], 0] ++
    (List.range (setLength head - 9)).map fun i => buildTerm (2 * fld head 15 8 * maskMembers head) i (freeWordAt s i)
  { words := ws ++ [crc32c ws] }

/-- The use that SELECT makes of a side: the set, with the g and α in force. (DEDUCED, notes/assumptions 77) -/
def selected (u : NlcUse) (on : Bool) (i : Nat) : NlcUse :=
  if on then { u with on := true, set := BitVec.ofNat 3 i } else { u with on := false }

/-- The eight words of STATUS (R156). -/
def nlcStatus (s : State) (p : LPort) : List Word :=
  let n := s.ports[p].nlc
  let al := fun b => b2n (alarmOn s (.line p) b)
  let act := allPorts.foldl (fun a j => a + b2n n.members[j].active * 2 ^ j.val) 0
  let dec := (groupOf s p).foldl (fun a j => a + 2 ^ j.val) 0
  let loaded := fun (v : Vector (Option CoefSet) 8) => (List.finRange 8).foldl (fun a i => a + b2n v[i].isSome * 2 ^ i.val) 0
  let d := fun (j : LPort) => if j != p && (groupOf s p).contains j then unsgn 16 (clampI (-32768) 32767 n.members[j].delay) else 0
  [word [(31, 30, n.group.toNat), (29, 26, act), (25, 22, dec), (21, 21, b2n n.rx.on), (20, 18, n.rx.set.toNat),
      (17, 17, b2n n.tx.on), (16, 14, n.tx.set.toNat), (13, 13, b2n n.rxFade.isSome), (12, 12, b2n n.txFade.isSome),
      (11, 11, al 4), (10, 10, al 5), (9, 9, al 6), (8, 8, al 7), (7, 0, loaded n.rxSets)],
   word [(31, 24, loaded n.txSets), (23, 16, n.gTrained.toNat), (15, 8, n.aTrained.toNat)],
   word [(31, 16, n.gainRx.toNat), (15, 0, n.tuneGain.toNat)],
   word [(31, 16, d 0), (15, 0, d 1)], word [(31, 16, d 2), (15, 0, d 3)], n.drop, n.switches, n.fadeCut]

/-- SELECT (R155): in TRAFFIC the receive side is scheduled under R32; otherwise both sides wait for the port's
next boundary. -/
def nlcSelect (p : LPort) (rq : Req) (s : State) : State :=
  let tx := bit (par rq 0) 26
  let on := bit (par rq 0) 22
  let i := pf rq 0 25 23
  if tx then
    reply 0x2007 rq (okay []) (modNlc p (fun n => { n with
      txNext := some (selected n.tx on i), txSelOn := on, txSel := if on then BitVec.ofNat 3 i else n.txSel }) s)
  else if s.ports[p].tr.state == .traffic then enterImplicit 0x2007 rq rq.params [] (rxRef p) s
  else reply 0x2007 rq (okay []) (modNlc p (fun n => { n with rxNext := some (selected n.rx on i) }) s)

/-- The effect of an EXACT receive SELECT at its boundary (R146, R297). -/
def nlcExact (ps : List Word) (s : State) : State :=
  let w := ps.getD 0 0
  let p : LPort := Fin.ofNat 4 (fld w 31 30)
  rxSwitch p (selected s.ports[p].nlc.rx (bit w 22) (fld w 25 23)) s

/-- The block that LOAD reads. -/
def nlcData (ps : List Word) (s : State) : List Word :=
  if fld (ps.getD 0 0) 29 27 = 1 && (ps.getD 2 0).toNat ≤ 3573 then
    bulkRead s.bulk (fld (ps.getD 1 0) 23 0) (ps.getD 2 0).toNat
  else []

/-- What LINE_NLC_SET with OP STATUS answers (R156). -/
def nlcStatusAnswer (rq : Req) : State → State := answerReply 0x2007 rq (nlcStatus · (pport rq 0))

/-- LINE_NLC_SET (R151); STATUS is a report about the port (R13, R156). -/
def lineNlcSet (rq : Req) (s : State) : State :=
  let p := pport rq 0
  let ws := nlcData rq.params s
  let i : Fin 8 := Fin.ofNat 8 (pf rq 0 25 23)
  let tx := bit (par rq 0) 26
  command 0x2007 rq (nlcChecks rq.params ws s) (nlcStates rq.params)
    (fun s =>
      match pf rq 0 29 27 with
      | 0 => reply 0x2007 rq (okay []) (nlcGroup p rq s)
      | 1 => reply 0x2007 rq (okay []) (putSet p tx i { words := ws } s)
      | 2 => reply 0x2007 rq (okFlags (b2n (decide (0x7FFF < buildCd rq)))) (tookFree (putSet p tx i (builtSet s p rq) s))
      | 3 => nlcSelect p rq s
      | _ => awaitReport (.port p) 0x2007 rq (nlcStatusAnswer rq) s) s

/-- LINE_NLC_SET. -/
def execLineNlcSet (rq : Req) (s : State) : Outcome := .next (lineNlcSet rq s)

end Sys2Proof.Machine
end

