-- ==== Sys2Proof/Machine/Payload.lean ====
section
/-! DEFINITION. The payload of a superframe (R47, R276 to R279): containers and their control cells, how a client's blocks
lie in its slots, what a BIP covers, and the payload scrambler. -/

namespace Sys2Proof.Machine

/-! ### Containers and control cells (R276) -/

/-- N_CELL at a rate code: ceil(1.001 × 409,600 / B) + 1 with B = (240 + rate)/4. -/
def nCell (rate : Nat) : Nat := (16400384 + 10 * (240 + rate) - 1) / (10 * (240 + rate)) + 1

/-- Majority of three bits. -/
def majority (a b c : Nat) (i : Nat) : Nat := if 2 ≤ a / 2 ^ i % 2 + b / 2 ^ i % 2 + c / 2 ^ i % 2 then 1 else 0

/-- Majority of three copies of `k` bits, bit by bit. -/
def vote (k a b c : Nat) : Nat := (List.range k).foldl (fun v i => v + majority a b c i * 2 ^ i) 0

/-- Field [hi:lo] of a cell. -/
def cellFld (x : BitVec 257) (hi lo : Nat) : Nat := x.toNat / 2 ^ lo % 2 ^ (hi + 1 - lo)

/-- COUNT of a control cell. -/
def cellCount (x : BitVec 257) : Nat := vote 13 (cellFld x 256 244) (cellFld x 243 231) (cellFld x 230 218)

/-- A copy of COUNT disagrees with the vote in every bit position. -/
def voteBroken (x : BitVec 257) : Bool :=
  let v := cellCount x
  [cellFld x 256 244, cellFld x 243 231, cellFld x 230 218].any fun a =>
    a + v == 8191 && (List.range 13).all fun i => a / 2 ^ i % 2 != v / 2 ^ i % 2

/-- CSTAT of a control cell is other than OK; a reserved code counts as 1. -/
def cellFail (x : BitVec 257) : Bool := vote 2 (cellFld x 217 216) (cellFld x 215 214) (cellFld x 213 212) != 0

/-- A control cell as sent. -/
def controlCell (count cstat : Nat) : BitVec 257 :=
  BitVec.ofNat 257 (count * 2 ^ 244 + count * 2 ^ 231 + count * 2 ^ 218 + cstat * 2 ^ 216 + cstat * 2 ^ 214 + cstat * 2 ^ 212)

/-- Cell `j` of a container: a container's list ends with its last cell that is not zero. -/
def cellAt (cells : List (BitVec 257)) (j : Nat) : BitVec 257 := cells.getD j 0

/-- The control cell of a slot. -/
def slotControl (pl : Payload) (i : Fin 16) : BitVec 257 := cellAt pl[i] 0

/-! ### Host slots and line slots (R273) -/

/-- Line slots of a client in ascending order. -/
def slotsIn (c : Client) : List (Fin 16) := (List.finRange 16).filter fun i => c.slots.getLsbD i.val

/-- Host slots of a client of N slots whose first lane is `first`, in ascending order. -/
def hostSlots (first n : Nat) : List Nat := (List.range n).map (2 * first + ·)

/-- The crossbar's connections of a client: the i-th host slot to the i-th line slot. -/
def crossbar (c : Client) : List (Nat × Fin 16) := (hostSlots c.first.val (slotsIn c).length).zip (slotsIn c)

/-! ### A client's blocks in its slots (R277) -/

/-- Least COUNT: not more than 2 below 409,600 / B. -/
def countLo (rate : Nat) : Nat := (1638400 + (240 + rate) - 1) / (240 + rate) - 2
/-- Greatest COUNT: not more than 2 above 409,600 / B. -/
def countHi (rate : Nat) : Nat := 1638400 / (240 + rate) + 2

/-- COUNT of every slot of a client of `n` slots that the superframe finds `blocks` blocks for: the nearest value that
R277 allows. Which one keeps the ingress buffer centred is the outside world's. (DESIGN CHOICE, notes/assumptions 144) -/
def sentCount (rate n blocks : Nat) : Nat := min (countHi rate) (max (countLo rate) (blocks / n))

/-- Every `n`-th element of a list, the first one `k` elements on: the blocks that slot `k` of `n` takes in turn. -/
def stride {α : Type} (n : Nat) : Nat → List α → List α
  | _, [] => []
  | 0, x :: l => x :: stride n (n - 1) l
  | k + 1, _ :: l => stride n k l

/-- The container of slot `k` of a client of `n` slots: COUNT blocks, or CSTAT 1 and COUNT 0 when its ingress fails
(R269, R276, R277). -/
def clientCells (fail : Bool) (count n k : Nat) (blocks : List (BitVec 257)) : List (BitVec 257) :=
  if fail then [controlCell 0 1] else controlCell count 0 :: (stride n k blocks).take count

/-- The maintenance container (R247, R277): every bit is 1. -/
def maintCells (rate : Nat) : List (BitVec 257) := List.replicate (nCell rate) (BitVec.allOnes 257)

/-- The first `n` rounds of one cell from each slot in turn. -/
def gather : Nat → List (List (BitVec 257)) → List (BitVec 257)
  | 0, _ => []
  | n + 1, ls => ls.map (·.headD 0) ++ gather n (ls.map List.tail)

/-- The blocks of a client in a received payload, in order, when each of its slots carries `count` of them. -/
def clientBlocks (pl : Payload) (c : Client) (count : Nat) : List (BitVec 257) :=
  gather count ((slotsIn c).map fun i => pl[i].tail)

/-! ### What the BIPs cover (R47, R278, R279) -/

/-- XOR of the `k` low 32-bit words of a number. -/
def foldWords : Nat → Nat → Word
  | 0, _ => 0
  | k + 1, v => BitVec.ofNat 32 v ^^^ foldWords k (v / 2 ^ 32)

/-- What a cell that begins at payload bit `at_` adds to a BIP: its 257 bits stand in nine words. -/
def cellBip (at_ : Nat) (c : BitVec 257) : Word := foldWords 9 (c.toNat * 2 ^ (31 - at_ % 32))

/-- What consecutive cells from payload bit `at_` add to a BIP. -/
def cellsBip : Nat → List (BitVec 257) → Word
  | _, [] => 0
  | at_, c :: l => cellBip at_ c ^^^ cellsBip (at_ + 257) l

/-- What the container of slot `i` adds to a BIP at a rate (R276). -/
def slotBip (rate i : Nat) (cells : List (BitVec 257)) : Word :=
  cellsBip (i * 257 * nCell rate) (cells.take (nCell rate))

/-- PATH_BIP of a payload: the 16 containers in slot order, before scrambling (R279). -/
def payloadBip (rate : Nat) (pl : Payload) : Word :=
  (List.finRange 16).foldl (fun a i => a ^^^ slotBip rate i.val pl[i]) 0

/-- Bits of the words of a SFOH, XORed. -/
def sfohBip (w : Vector Word 64) : Word := bip32 w.toList

/-- SPAN_BIP of a superframe: its SFOH and its payload, before scrambling; span fill is zero (R47, R278; DEDUCED,
notes/assumptions 143). -/
def spanBip (rate : Nat) (w : Vector Word 64) (pl : Payload) : Word := sfohBip w ^^^ payloadBip rate pl

/-! ### The payload scrambler (R278) -/

/-- One step of the payload scrambler x^31 + x^28 + 1. -/
def scrambleStep (r : Nat) : Nat := r * 2 % 2 ^ 31 + (r / 2 ^ 30 + r / 2 ^ 27) % 2

/-- The bit that the scrambler adds to payload bit `n` of a superframe. -/
def scrambleBit (n : Nat) : Bool := Nat.rec (2 ^ 31 - 1) (fun _ r => scrambleStep r) n / 2 ^ 30 % 2 == 1

/-- Bits scrambled from a register value on. -/
def scrambleFrom : Nat → List Bool → List Bool
  | _, [] => []
  | r, b :: l => (b ^^ (r / 2 ^ 30 % 2 == 1)) :: scrambleFrom (scrambleStep r) l

/-- Payload bits of a superframe after the framer's scrambler; the deframer does the same. -/
def scramble (bits : List Bool) : List Bool := scrambleFrom (2 ^ 31 - 1) bits

end Sys2Proof.Machine
end

