-- ==== Sys2Proof/Machine/Margin.lean ====
section
/-! DEFINITION. The decibels of training in fixed-point integers: SNR_req (R226), the choice of a format
(R227), the Q margin (R228) and the search rule of TUNE (R150). -/

namespace Sys2Proof.Machine

/-! ### Fixed-point functions -/

/-- Fraction bits of the fixed-point functions. -/
def fx : Nat := 96

/-- Integer square root by bits: `k` bits are still to be tried, `r` is the root so far. -/
def rootBits (n : Nat) : Nat → Nat → Nat
  | 0, r => r
  | k + 1, r => let t := r + 2 ^ k; if t * t ≤ n then rootBits n k t else rootBits n k r

/-- 2 to the power of a fraction of `k` bits: `s` is the present root of 2, `r` the product so far. -/
def powBits : Nat → Nat → Nat → Nat → Nat
  | 0, _, _, r => r
  | k + 1, f, s, r =>
    let s := rootBits (s * 2 ^ fx) (fx + 1) 0
    powBits k (f % 2 ^ k) s (if f / 2 ^ k % 2 = 1 then r * s / 2 ^ fx else r)

/-- 2^(a/b) with `fx` fraction bits; the exponent is taken to 64 bits. -/
def pow2 (a b : Nat) : Nat := powBits 64 (a % b * 2 ^ 64 / b) (2 ^ (fx + 1)) (2 ^ fx) * 2 ^ (a / b)

/-- Fraction bits of log2 of a mantissa `m` in [2^fx, 2^(fx+1)): `k` bits are still to come. -/
def logBits : Nat → Nat → Nat → Nat
  | 0, _, acc => acc
  | k + 1, m, acc =>
    let m := m * m / 2 ^ fx
    if 2 ^ (fx + 1) ≤ m then logBits k (m / 2) (2 * acc + 1) else logBits k m (2 * acc)

/-- log2 of a positive integer, times 2^48, rounded down. -/
def log2Fix (n : Nat) : Nat :=
  let e := Nat.log2 n
  e * 2 ^ 48 + logBits 48 (n * 2 ^ fx / 2 ^ e) 0

/-- 10 log10(2) times 100 times 2^40. -/
def dbPerOctave : Int := 330985980541906

/-- 10 log10(n / 2^fx) in 0.01 dB times 2^40. (DEDUCED, notes/assumptions 88) -/
def dbFix (n : Nat) : Int := ((log2Fix n : Int) - fx * 2 ^ 48) * dbPerOctave / 2 ^ 48

/-! ### SNR_req and the choice (R225 to R227) -/

/-- A candidate: MOD, ENTROPY code and FEC. -/
structure Cand where
  mod_ : Nat
  ent  : Nat
  fec  : Nat
deriving DecidableEq, Repr

/-- The descriptor of a candidate at a rate, with NLC_SET, NLC_ON and GEN zero. -/
def Cand.desc (c : Cand) (rate : Nat) : Word := word [(31, 22, rate), (21, 20, c.fec), (19, 16, c.mod_), (15, 8, c.ent)]

/-- Required SNR in 0.01 dB times 2^40 (R226). -/
def snrReq (c : Cand) : Int :=
  let h := entropy64 (c.desc 0)
  let g : Int := match c.fec with | 0 => 450 | 1 => 425 | _ => 440
  let u : Int := if c.mod_ = 0 then 0 else 80
  dbFix (pow2 (25 * h) (16 * overhead100 c.fec) - 2 ^ fx) + (g + u) * 2 ^ 40

/-- What a policy or a CAP admits: FEC mask, MOD mask (bit 0 PCS-64QAM), entropy range. -/
structure Allow where
  fec : Nat
  mods : Nat
  lo  : Nat
  hi  : Nat
deriving DecidableEq, Repr

/-- The intersection of two ends (R225). -/
def Allow.both (a b : Allow) : Allow := ⟨a.fec &&& b.fec, a.mods &&& b.mods, max a.lo b.lo, min a.hi b.hi⟩

/-- Every candidate that is admitted. -/
def Allow.cands (a : Allow) : List Cand :=
  ([0, 1, 2].filter fun f => a.fec / 2 ^ f % 2 == 1).flatMap fun f =>
    (if a.mods % 2 = 1 then ((List.range 225).filter fun e => decide (a.lo ≤ e) && decide (e ≤ a.hi)).map fun e => ⟨0, e, f⟩ else []) ++
      ([1, 2, 3, 4].filter fun m => a.mods / 2 ^ m % 2 == 1).map fun m => ⟨m, 0, f⟩

/-- The last of the best: `better x y` says that x ranks above y. -/
def argBest {α : Type} (better : α → α → Bool) : List α → Option α
  | [] => none
  | x :: l => some (l.foldl (fun b y => if better y b then y else b) x)

/-- Lexicographic order of three numbers. -/
def above3 (a b : Int × Int × Int) : Bool :=
  decide (b.1 < a.1) || (a.1 == b.1 && (decide (b.2.1 < a.2.1) || (a.2.1 == b.2.1 && decide (b.2.2 < a.2.2))))

/-- A choice: the candidate with its margin (times 2^40) and slots, or the reason of LAST_FAIL. -/
inductive Chosen where
  | take (c : Cand) (margin : Int) (slots : Nat)
  | fail (reason : Nat)
deriving DecidableEq, Repr

/-- The choice of R227. `snr` in 0.01 dB times 2^40, `target` in 0.01 dB; `kind` as in R224. -/
def chooseFormat (a : Allow) (rate : Nat) (snr : Int) (kind req : Nat) (target : Int) (preferMargin : Bool) : Chosen :=
  let c := a.cands.map fun x => (x, snr - snrReq x, slotsCarried (x.desc rate))
  let good := c.filter fun x => decide (target * 2 ^ 40 ≤ x.2.1)
  let ok := if kind = 0 then good else good.filter fun x => decide (req ≤ x.2.2)
  let oh := fun (x : Cand) => -(overhead100 x.fec : Int)
  let key := fun (x : Cand × Int × Nat) =>
    if preferMargin then (x.2.1, (x.2.2 : Int), oh x.1) else ((x.2.2 : Int), x.2.1, oh x.1)
  let take := fun (x : Option (Cand × Int × Nat)) => match x with
    | some y => Chosen.take y.1 y.2.1 y.2.2
    | none => Chosen.fail 9
  if c.isEmpty then .fail (if kind < 2 then 2 else 9)
  else if ok.isEmpty then
    if kind = 0 then take (argBest (fun x y => decide (y.2.1 < x.2.1)) c)
    else if good.isEmpty then .fail 8 else .fail 9
  else take (argBest (fun x y => above3 (key x) (key y)) ok)

/-! ### Q margin (R228) -/

/-- Fraction bits of the normal integral. -/
def qx : Nat := 160

/-- The sum of (−1)^k q^(2k+1) / (2^k k! (2k+1)): `t` is the present term without 1/(2k+1). -/
def tailSum (q2 : Int) : Nat → Nat → Int → Int → Int
  | 0, _, _, acc => acc
  | fuel + 1, k, t, acc =>
    tailSum q2 fuel (k + 1) (-(t * q2 / 2 ^ qx) / (2 * (k + 1))) (acc + t / (2 * k + 1))

/-- 1/√(2π) with `qx` fraction bits. -/
def invRootTwoPi : Int := 583054796007218040734191730443699882195345907504

/-- The upper tail of the normal distribution at `q`, both with `qx` fraction bits. -/
def normalTail (q : Nat) : Int :=
  2 ^ (qx - 1) - tailSum ((q : Int) * q / 2 ^ qx) 160 0 q 0 * invRootTwoPi / 2 ^ qx

/-- The largest q below 8, in steps of 2^-48, whose tail is at least `b`. -/
def qSearch (b : Int) : Nat → Nat → Nat
  | 0, q => q
  | k + 1, q => let t := q + 2 ^ (qx - 48 + k); if b ≤ normalTail t then qSearch b k t else qSearch b k q

/-- Q(b) in 0.01 dB times 2^40, for a bit error rate with `qx` fraction bits. -/
def qFix (b : Int) : Int := 2 * dbFix (qSearch b 51 0 / 2 ^ (qx - fx))

/-- Threshold of a mode in 0.001 (R181). -/
def berThreshold (fec : Nat) : Int := match fec with | 0 => 20 | 1 => 29 | _ => 41

/-- Q margin in 0.01 dB of a pre-FEC BER given as in R131, clamped to 1e−9 and 0.4 (R228). -/
def qMarginOf (preBer : Word) (fec : Nat) : Int :=
  let b := clampI (2 ^ qx / 10 ^ 9) (2 ^ qx * 2 / 5) ((preBer.toNat : Int) * 2 ^ (qx - 32))
  rdiv (qFix b - qFix (berThreshold fec * 2 ^ qx / 1000)) (2 ^ 40)

/-! ### The search of TUNE (R150) -/

/-- One measured value of the search: better by more than 0.02 dB replaces the best. -/
def tuneBetter (best : BitVec 8 × BitVec 8 × BitVec 16) (c : BitVec 8 × BitVec 8) (snr : BitVec 16) :
    BitVec 8 × BitVec 8 × BitVec 16 :=
  if best.2.2.toNat + 2 < snr.toNat then (c.1, c.2, snr) else best

/-- The six candidates of the first plan. -/
def tuneFirst : List (BitVec 8 × BitVec 8) := [(0, 32), (16, 32), (32, 32), (48, 32), (64, 32), (80, 32)]

/-- The two candidates of the second plan. -/
def tuneSecond (best : BitVec 8 × BitVec 8 × BitVec 16) : List (BitVec 8 × BitVec 8) := [(best.1, 16), (best.1, 48)]

/-- A gain below 0.10 dB, or a best g of 0, commits off. -/
def tuneEnd (best : BitVec 8 × BitVec 8 × BitVec 16) (snr0 : BitVec 16) : BitVec 8 × BitVec 8 × BitVec 16 :=
  if best.1 = 0 || best.2.2.toNat < snr0.toNat + 10 then (0, 32, best.2.2) else best

end Sys2Proof.Machine
end

