-- ==== Sys2Proof/Machine/Training.lean ====
section
/-! DEFINITION. Span training (R220 to R239): the phases, the messages of the training channel, choices,
commits, TUNE, verification and tracking. -/

namespace Sys2Proof.Machine

/-! ### What a port announces and needs (R224, R229) -/

/-- Highest set bit plus one of a mask, 0 when none. -/
def topSlot (m : Nat) : Nat := if m = 0 then 0 else Nat.log2 m + 1

/-- Drop mask of the slots received on a port (R251). -/
def dropMask (s : State) (p : LPort) : Nat :=
  if p.val % 2 = 0 then s.map.dropLo[pairOf p].toNat else s.map.dropHi[pairOf p].toNat

/-- Slots of the clients that the port sends: connected slots, or added slots (R229). -/
def sentClients (s : State) (p : LPort) : Nat :=
  s.map.clients.foldl (fun a c => if c.txOn && c.port == p then a ||| c.slots.toNat else a) 0

/-- Slots that the transmit direction of a port must carry (R229). -/
def mustCarry (s : State) (p : LPort) : Nat :=
  if regen s p then
    let eq := fld s.ports[mate p].sf.eqWord 15 0
    sentClients s p ||| (eq &&& (65535 - dropMask s (mate p)))
  else sentClients s p

/-- REQ_SLOTS of a port (R229). -/
def reqSlots (s : State) (p : LPort) : Nat := max (fld s.ports[p].tr.polUse[1] 15 11) (topSlot (mustCarry s p))

/-- Receive set `i` is usable at the current rate. -/
def rxUsable (s : State) (p : LPort) (i : Fin 8) : Bool :=
  s.ports[p].nlc.rxSets[i].any fun c => c.holds p && c.matches s p

/-- RX_SETS of a port (R224). -/
def rxSetsOf (s : State) (p : LPort) : Nat := (List.finRange 8).foldl (fun a i => a + b2n (rxUsable s p i) * 2 ^ i.val) 0

/-- The policy comes into force: a CAP is sent or a choice is made (R256). -/
def takePolicy (p : LPort) (s : State) : State := modTr p (fun t => { t with polUse := t.policy }) s

/-- CAP of a port, from the policy that it puts in force (R224, R256). -/
def capBody (s : State) (p : LPort) : List Word :=
  let x := s.ports[p]
  [word [(31, 16, 0x6400), (15, 8, 0xB0), (7, 4, 1), (3, 3, b2n (regen s p))],
   word [(31, 22, x.tr.rate.toNat), (21, 18, rolloff x.tx), (17, 15, fld x.tr.polUse[0] 24 22), (14, 10, fld x.tr.polUse[0] 21 17)],
   word [(31, 24, fld x.tr.polUse[1] 31 24), (23, 16, fld x.tr.polUse[1] 23 16), (15, 8, x.tr.capSets.toNat)],
   word [(31, 27, reqSlots s p)]]

/-- Queue the own CAP: the policy of this moment comes into force and RX_SETS are those usable now (R224, R256). -/
def sendCap (p : LPort) (s : State) : State :=
  let s := modTr p (fun t => { t with capSets := BitVec.ofNat 8 (rxSetsOf s p) }) (takePolicy p s)
  sendMsg p 1 (capBody s p) s

/-- What the own policy in force admits on receive (R256). -/
def policyAllow (t : Train) : Allow :=
  { fec := fld t.polUse[0] 24 22, mods := fld t.polUse[0] 21 17, lo := fld t.polUse[1] 31 24, hi := fld t.polUse[1] 23 16 }

/-- What a far CAP admits. -/
def capAllow (c : Word × Word × Word) : Allow :=
  { fec := fld c.2.1 17 15, mods := fld c.2.1 14 10, lo := fld c.2.2 31 24, hi := fld c.2.2 23 16 }

/-- What both ends admit (R225). -/
def bothAllow (t : Train) : Allow :=
  match t.farCap with
  | some c => (policyAllow t).both (capAllow c)
  | none => policyAllow t

/-- A far CAP is compatible with the own one (R220). -/
def compatible (t : Train) (c : Word × Word × Word) : Bool :=
  let a := (policyAllow t).both (capAllow c)
  fld c.1 7 4 == 1 && fld c.2.1 31 22 == t.rate.toNat && a.fec % 8 != 0 && a.mods % 32 != 0 &&
    (a.mods % 32 != 1 || decide (a.lo ≤ a.hi))

/-! ### Choices (R227, R230) -/

/-- Twice the mean of the 256-superframe SNR of X and Y, in 0.01 dB (R130). -/
def snrTwice (s : State) (p : LPort) : Int := (s.ports[p].rx.est.snrX.toNat + s.ports[p].rx.est.snrY.toNat : Nat)

/-- Twice the snr of a kind of choice, times 2^39, in 0.01 dB (R227). `rate` is that of the choice. -/
def choiceSnr (s : State) (p : LPort) (kind rate : Nat) : Int :=
  let x := s.ports[p]
  match kind with
  | 0 => (x.tr.probeSnr : Int) * 2 ^ 39
  | 1 => x.tr.finalSnr.getD (snrTwice s p) * 2 ^ 39
  | 2 => snrTwice s p * 2 ^ 39 - (dbFix ((240 + rate) * 2 ^ fx) - dbFix ((240 + dRate x.tr.rxNow) * 2 ^ fx)) - 50 * 2 ^ 40
  | _ => snrTwice s p * 2 ^ 39

/-- MARGIN_TARGET in 0.01 dB. -/
def marginTarget (t : Train) : Int := sgn 16 (fld t.polUse[2] 31 16)
/-- MARGIN_MIN in 0.01 dB. -/
def marginMin (t : Train) : Int := sgn 16 (fld t.polUse[2] 15 0)

/-- The choice of the receiving end (R227). -/
def choiceOf (s : State) (p : LPort) (kind rate : Nat) : Chosen :=
  let t := s.ports[p].tr
  chooseFormat (bothAllow t) rate (choiceSnr s p kind rate) kind t.farReqSlots.toNat (marginTarget t) (bit t.polUse[0] 25)

/-- FORMAT_CHOICE of a choice (R224). -/
def choiceBody (rate kind : Nat) (c : Cand) (margin : Int) (slots : Nat) : List Word :=
  [c.desc rate, word [(31, 16, unsgn 16 (clampI (-32768) 32767 (rdiv margin (2 ^ 40)))), (15, 11, slots), (10, 9, kind)]]

/-- A failed choice (R227, R237, R243): an empty set fails a FORMAT or FINAL choice with CAP_MISMATCH; a FINAL or
ADAPT choice raises SPAN_CAPACITY or SPAN_MARGIN, and in TRAIN the phase fails. -/
def choiceFailed (p : LPort) (kind reason : Nat) (s : State) : State :=
  if kind < 2 && reason == 2 then trainFail p 2 true true s
  else
    let s := if kind == 1 || kind == 3 then setAlarm (.line p) (if reason = 9 then 10 else 11) true s else s
    if kind == 1 && s.ports[p].tr.state == .train then trainFail p reason true true s else s

/-- The receiving end chooses, by the policy of this moment (R256), and sends its FORMAT_CHOICE. An ADAPT choice equal to
the format in force starts nothing (R237). -/
def sendChoice (p : LPort) (kind rate : Nat) (s : State) : State :=
  let s := takePolicy p s
  match choiceOf s p kind rate with
  | .fail reason => choiceFailed p kind reason s
  | .take c margin slots =>
    if kind == 3 && sameFmt (c.desc rate) s.ports[p].tr.rxFmt then s
    else sendMsg p 3 (choiceBody rate kind c margin slots) s

/-- The count at which a port's transmit direction changes its rate (R241). -/
def rateTxAt (s : State) (p : LPort) : Option Psfn :=
  (rateChange s p).map fun r => if r.2 || r.1.from_.isNone then r.1.nFwd else r.1.nRev

/-- The phase in which a choice of a kind is acted on (R230). -/
def choiceFits (t : Train) (kind : BitVec 2) : Bool :=
  let tuning : Bool := t.tuneTx.any (·.stage < 2)
  if kind == 0 then t.state == .train && t.phase == .select
  else if kind == 1 then !tuning && ((t.state == .train && t.phase == .commit) || t.state == .traffic)
  else t.state == .traffic

/-- The transmitting end acts on a FORMAT_CHOICE, or keeps it while a commit is pending (R230) or its phase has not
come (DEDUCED, notes/assumptions 31). A primed choice takes the N of the rate change (R243). -/
def actChoice (p : LPort) (desc : Word) (kind : BitVec 2) (s : State) : State :=
  let t := s.ports[p].tr
  let wait := modTr p (fun t => { t with waitChoice := some (desc, kind) }) s
  if t.txCommit.isSome || !choiceFits t kind then wait
  else if kind = 2 then
    match rateTxAt s p with
    | some n => proposeAt p n desc 2 s
    | none => wait
  else
    let c := commitOf s p desc kind
    propose p c.1 c.2.1 c.2.2 kind s

/-! ### TUNE (R150, R235) -/

/-- TUNE is skipped for the transmitted direction (R235). -/
def tuneSkipped (s : State) (p : LPort) : Bool :=
  let x := s.ports[p]
  let i : Fin 8 := Fin.ofNat 8 x.nlc.txSel.toNat
  let far : Bool := match x.tr.farCap with
    | some c => bit c.2.2 (8 + i.val)
    | none => false
  !x.nlc.txSelOn || !far || x.nlc.group == 0 || !(x.nlc.txSets[i].any fun c => c.holds p && c.matches s p)

/-- Begin the search on the transmitted direction. -/
def startTune (p : LPort) (s : State) : State :=
  sendPlan p { set := s.ports[p].nlc.txSel, start := 0, cands := tuneFirst, snrs := [], best := (0, 32, 0), snr0 := 0,
               stage := 0, acked := false, index := 0 } s

/-- A waiting choice that differs from the format in force is proposed (R230). -/
def takeWaiting (p : LPort) (s : State) : State :=
  match s.ports[p].tr.waitChoice with
  | some (d, k) =>
    let s := modTr p (fun t => { t with waitChoice := none }) s
    if sameFmt d s.ports[p].tr.txNow then s else actChoice p d k s
  | none => s

/-- A commit of the transmitted direction is pending, or will be proposed again (R230, R231). -/
def txBusy (t : Train) : Bool := t.txCommit.isSome || t.retryCommit.isSome

/-- A RETUNE that waited for the pending commit begins (R230, R255). (DEDUCED, notes/assumptions 84) -/
def dueRetune (p : LPort) (s : State) : State :=
  let t := s.ports[p].tr
  if t.retuneDue && t.state == .traffic && !txBusy t && !(t.tuneTx.any (·.stage < 2)) then
    let s := modTr p (fun t => { t with retuneDue := false }) s
    if tuneSkipped s p then s else startTune p (modTr p (fun t => { t with retune := true }) s)
  else s

/-- The pending commit has passed or been cancelled: a waiting choice comes first, then a RETUNE that waits. -/
def nextChoice (p : LPort) (s : State) : State := dueRetune p (takeWaiting p s)

/-- A choice that waited for the phase is acted on. -/
def phaseChoice (p : LPort) (s : State) : State :=
  match s.ports[p].tr.waitChoice with
  | some (d, k) => actChoice p d k (modTr p (fun t => { t with waitChoice := none }) s)
  | none => s

/-- Best value of measured candidates, the first of a first plan being both sides off (R150). -/
def tuneFold (best : BitVec 8 × BitVec 8 × BitVec 16) (cs : List (BitVec 8 × BitVec 8)) (vs : List (BitVec 16)) :
    BitVec 8 × BitVec 8 × BitVec 16 :=
  (cs.zip vs).foldl (fun b x => tuneBetter b x.1 x.2) best

/-- The best value after a plan's measurements. -/
def tuneAfter (t : Tune) (vs : List (BitVec 16)) : Tune :=
  if t.stage = 0 then
    let v0 := vs.headD 0
    { t with snrs := vs, snr0 := v0, best := tuneFold (0, 32, v0) (t.cands.drop 1) (vs.drop 1), stage := 1 }
  else { t with snrs := vs, best := tuneFold t.best t.cands vs, stage := 2 }

/-! ### Phases (R220) -/

/-- Enter a phase. -/
def setPhase (p : LPort) (ph : Phase) (s : State) : State := modTr p (fun t => { t with phase := ph }) s

/-- The training phase of a port in TRAIN. -/
def inPhase (s : State) (p : LPort) (ph : Phase) : Bool := s.ports[p].tr.state == .train && s.ports[p].tr.phase == ph

/-- CAPABILITY ends when the own CAP is acknowledged and the far CAP is compatible; an incompatible one fails. -/
def leaveCapability (p : LPort) (s : State) : State :=
  let t := s.ports[p].tr
  match t.farCap with
  | some c =>
    if inPhase s p .capability then
      (if compatible t c then (if t.capAcked then setPhase p .probe s else s) else trainFail p 2 true true s)
    else s
  | none => s

/-- PROBE ends when both reports are through; the FORMAT choice is made (R227). -/
def leaveProbe (p : LPort) (s : State) : State :=
  let t := s.ports[p].tr
  if inPhase s p .probe && t.probed && t.probeAcked && t.farProbe then
    let s := phaseChoice p (setPhase p .select s)
    sendChoice p 0 t.rate.toNat s
  else s

/-- SELECT ends when both format commits are through; TUNE begins or is skipped. -/
def leaveSelect (p : LPort) (s : State) : State :=
  let t := s.ports[p].tr
  if inPhase s p .select && t.fmtTxDone && t.fmtRxDone then
    let s := setPhase p .tune s
    if tuneSkipped s p then modTr p (fun t => { t with tuneTxDone := true }) s else startTune p s
  else s

/-- The received direction is tuned, or skipped: the far end cannot search without a receive set that the own CAP
named, or has shown that it skips (R235). (DEDUCED, notes/assumptions 83) -/
def rxTuned (t : Train) : Bool :=
  match t.tuneRx with
  | some _ => t.tuneRxDone
  | none => t.capSets == 0 || t.rxSkipped

/-- TUNE ends when both directions are tuned or skipped (R220); the FINAL choice is made. -/
def leaveTune (p : LPort) (s : State) : State :=
  let t := s.ports[p].tr
  if inPhase s p .tune && t.tuneTxDone && rxTuned t then
    let s := phaseChoice p (setPhase p .commit s)
    sendChoice p 1 t.rate.toNat s
  else s

/-- The far end shows that it is past the point at which it would have sent a plan: it is in COMMIT, since it sends a
TRACK_REPORT or a FINAL choice; or its queue is empty in TUNE although a round trip has passed since it saw the own
transmitter's format commit pass its check (R220, R224, R232). (DEDUCED, notes/assumptions 83) -/
def farPast (s : State) (p : LPort) (type kind : Nat) : Bool :=
  let t := s.ports[p].tr
  type == 10 || (type == 3 && kind == 1) || (type == 0 && inPhase s p .tune && decide (64 + rttSfs t + 2 ≤ t.fmtAge))

/-- What an accepted cell says of the far end's part in TUNE. -/
def farTune (p : LPort) (type kind : Nat) (s : State) : State :=
  if s.ports[p].tr.state == .train && farPast s p type kind then modTr p (fun t => { t with rxSkipped := true }) s else s

/-- COMMIT ends when both final commits are through and both ends are verified. -/
def leaveCommit (p : LPort) (s : State) : State :=
  let t := s.ports[p].tr
  if inPhase s p .commit && t.finTxDone && t.finRxDone && t.verified && t.farVerified then enterTraffic p s else s

/-- Training moves on as far as its conditions allow. -/
def advance (p : LPort) (s : State) : State :=
  leaveCommit p (leaveTune p (leaveSelect p (leaveProbe p (leaveCapability p s))))

/-- TRAIN_ACQUIRE_DONE (R220, R221): lock has held with SRDI 0, and RETRY_HOLD is over. An ABORT still queued is
discarded; the own CAP is queued. -/
def trainAcquireDone (p : LPort) (s : State) : State :=
  let t := s.ports[p].tr
  if t.state == .acquire && s.ports[p].sf.lock && 16 ≤ t.srdiZero && !t.retryHold then
    let s := setPort p .train s
    let s := modTr p (fun t => { t with
      phase := .capability, queue := [], seq := if t.sentHead then t.seq + 1 else t.seq, sentHead := false, srdiRun := 0 }) s
    advance p (refresh (sendCap p s))
  else s

/-- TRAIN_ACQUIRE_DONE. -/
def execTrainAcquireDone (p : LPort) (s : State) : Outcome := .next (trainAcquireDone p s)

/-- PROBE_REPORT of a port (R224). -/
def probeBody (e : Estimates) : List Word :=
  [word [(31, 16, e.snrX.toNat), (15, 0, e.snrY.toNat)], word [(31, 16, e.snrNli.toNat)], e.cd,
   word [(31, 16, e.dgd.toNat), (15, 8, e.pdl.toNat)], e.preBer]

/-- PROBE_DONE (R220): the report carries the estimates in force (DEDUCED, notes/assumptions 32). -/
def probeDone (p : LPort) (s : State) : State :=
  let e := s.ports[p].rx.est
  if inPhase s p .probe && !s.ports[p].tr.probed then
    advance p (sendMsg p 2 (probeBody e) (modTr p (fun t => { t with
      probed := true, probeSnr := e.snrX.toNat + e.snrY.toNat }) s))
  else s

/-- PROBE_DONE. -/
def execProbeDone (p : LPort) (s : State) : Outcome := .next (probeDone p s)

/-- Reason of a phase's timer (R257); none for a phase without one. -/
def timerReason (ph : Phase) : Option Nat :=
  match ph with
  | .capability => some 1 | .probe => some 3 | .select => some 4 | .tune => some 5 | .commit => some 6
  | .none => none | .acquire => none | .track => none

/-- TRAIN_PHASE_TIMEOUT (R220, R221). -/
def trainPhaseTimeout (p : LPort) (s : State) : State :=
  match timerReason s.ports[p].tr.phase with
  | some r => if s.ports[p].tr.state == .train then trainFail p r true true s else s
  | none => s

/-- TRAIN_PHASE_TIMEOUT. -/
def execTrainPhaseTimeout (p : LPort) (s : State) : Outcome := .next (trainPhaseTimeout p s)

/-- RETRY_HOLD_EXPIRY (R221). -/
def execRetryHoldExpiry (p : LPort) (s : State) : Outcome := .next (modTr p (fun t => { t with retryHold := false }) s)

/-- FAR_RESTART (R221). -/
def farRestart (p : LPort) (s : State) : State :=
  let t := s.ports[p].tr
  match t.state with
  | .train => if 16 ≤ t.srdiRun then trainFail p 12 false true s else s
  | .traffic => if 16 ≤ t.strainRun then trainFail p 12 false true s else s
  | .holdover => if 16 ≤ t.strainRun then trainFail p 12 false true s else s
  | .down => s | .acquire => s | .muted => s

/-- FAR_RESTART. -/
def execFarRestart (p : LPort) (s : State) : Outcome := .next (farRestart p s)

/-! ### Commits: the receiving end (R231) -/

/-- A port controller enters a switch (R231, R297). -/
def enterSwitch (p : LPort) (k : DialKind) (r : RefCode) (n : Psfn) (s : State) : State :=
  if poolFull s then s else enterEvent (internalEvent s k r n p) s

/-- The label of the superframe that delivered a SFOH `lag` superframes ago (R57). -/
def labelOf (s : State) (p : LPort) (lag : Nat) : Psfn := psfnAdd s.ports[p].sf.fly (-(lag : Int))

/-- A descriptor is within the capability of a receiving end (R231): its policy, the rate, and the receive set. -/
def capable (s : State) (p : LPort) (rate : Nat) (d : Word) : Bool :=
  let a := policyAllow s.ports[p].tr
  dRate d == rate && decide (dFec d ≤ 2) && a.fec / 2 ^ dFec d % 2 == 1 &&
    decide (dMod d ≤ 4) && a.mods / 2 ^ dMod d % 2 == 1 &&
    (if dMod d = 0 then decide (a.lo ≤ dEnt d) && decide (dEnt d ≤ a.hi) else dEnt d == 0) &&
    (!dOn d || rxUsable s p (Fin.ofNat 8 (dSet d)))

/-- The state and phase allow a commit of a kind at the receiving end (R230). -/
def reqFits (s : State) (p : LPort) (kind : Nat) : Bool :=
  let t := s.ports[p].tr
  match kind with
  | 0 => inPhase s p .select
  | 1 => inPhase s p .commit || t.state == .traffic
  | 2 => t.state == .traffic && (rateChange s p).isSome
  | _ => t.state == .traffic

/-- Rate that a commit of a kind must have. -/
def reqRate (s : State) (p : LPort) (kind : Nat) : Nat :=
  match rateChange s p with
  | some r => if kind = 2 then r.1.rate.toNat else s.ports[p].tr.rate.toNat
  | none => s.ports[p].tr.rate.toNat

/-- Why a commit request is refused; 0 when it is not (R230, R231). -/
def reqRefusal (s : State) (p : LPort) (kind : Nat) (n label : Psfn) (d : Word) : Nat :=
  if s.ports[p].tr.rxCommit.isSome || poolFull s then 3
  else if !reqFits s p kind then 4
  else if psfnDiff n label < 1536 then 1
  else if !capable s p (reqRate s p kind) d then 2
  else 0

/-- A PSFN from a word with bits [47:16] and a word with bits [15:0] in its upper half. -/
def psfnOf (hi lo : Word) : Psfn := BitVec.ofNat 48 (hi.toNat * 65536 + fld lo 31 16)

/-- COMMIT_REQ (R231). (DEDUCED, notes/assumptions 85) -/
def commitReq (p : LPort) (label : Psfn) (b : List Word) (s : State) : State :=
  let w := fun i => b.getD i 0
  let n := psfnOf (w 1) (w 2)
  let kind := fld (w 3) 31 30
  let g := BitVec.ofNat 8 (fld (w 2) 15 8)
  let a := BitVec.ofNat 8 (fld (w 2) 7 0)
  let why := reqRefusal s p kind n label (w 0)
  if why = 0 then
    let c : Commit := { n := n, desc := w 0, g := g, a := a, kind := BitVec.ofNat 2 kind, scheduled := true }
    let s := enterSwitch p (.fmtRx p (w 0) g a (BitVec.ofNat 2 kind)) (rxRef p) n (modTr p (fun t => { t with rxCommit := some c }) s)
    sendMsg p 5 (ackBody n (dGen (w 0)) 0) s
  else sendMsg p 6 (ackBody n (dGen (w 0)) why) s

/-- Drop the scheduled receive switch of a port. -/
def dropRxSwitch (p : LPort) (s : State) : State :=
  modTr p (fun t => { t with rxCommit := none })
    (dropEvs (fun e => match e.kind with
      | .fmtRx q _ _ _ _ => q == p
      | _ => false) s)

/-- COMMIT_CONFIRM_CHECK (R231, R233): at N − 512 the switch is kept only when the announcements confirmed it. -/
def commitConfirmCheck (p : LPort) (s : State) : State :=
  match s.ports[p].tr.rxCommit with
  | some c =>
    if !c.switched && psfnDiff c.n (refCount s (rxRef p)) ≤ 512 && !(decide (4 ≤ c.seen) && c.lastSeen) then
      let now := refCount s (rxRef p)
      let s := dropRxSwitch p s
      let s := modTr2 p (fun t => { t with
        commitUnconf := t.commitUnconf + 1, cancelAt := some now, cancelFmt := c.desc }) s
      sendMsg p 7 (ackBody c.n (dGen c.desc) 0) s
    else s
  | none => s

/-- COMMIT_CONFIRM_CHECK. -/
def execCommitConfirmCheck (p : LPort) (s : State) : Outcome := .next (commitConfirmCheck p s)

/-- A receive commit of a kind has passed (R220, R231, R237). -/
def rxPassed (p : LPort) (kind : BitVec 2) (s : State) : State :=
  let s := modTr p (fun t => { t with
    rxCommit := none, fmtRxDone := t.fmtRxDone || kind == 0, finRxDone := t.finRxDone || kind == 1 }) s
  advance p (setAlarm (.line p) 11 false (setAlarm (.line p) 10 false s))

/-- COMMIT_PASS_CHECK (R231, R232): lock holds and every good SFOH since N carried the new format. -/
def commitPassCheck (p : LPort) (s : State) : State :=
  match s.ports[p].tr.rxCommit with
  | some c =>
    if c.switched && 63 ≤ psfnDiff (refCount s (rxRef p)) c.n then
      if s.ports[p].sf.lock && !c.failed then rxPassed p c.kind s
      else if s.ports[p].tr.state == .train then trainFail p 7 true true s
      else modTr p (fun t => { t with rxCommit := none }) s
    else s
  | none => s

/-- COMMIT_PASS_CHECK. -/
def execCommitPassCheck (p : LPort) (s : State) : Outcome := .next (commitPassCheck p s)

/-! ### Commits: the transmitting end (R231) -/

/-- A message names a commit: N[15:0] and GEN (R224). -/
def names (w : Word) (n : Psfn) (gen : Nat) : Bool := fld w 31 16 == psLo n && fld w 15 12 == gen

/-- The message names the pending transmit commit. -/
def namesTx (w : Word) (t : Train) : Option Commit := t.txCommit.filter fun c => names w c.n (dGen c.desc)

/-- The message names the plan that waits for its acknowledgement, or runs: START[15:0] and the GEN in force. -/
def namesPlan (w : Word) (t : Train) : Option Tune := t.tuneTx.filter fun x => x.stage < 2 && names w x.start (dGen t.txNow)

/-- Too late: cancel, count, and propose again with a new N (R231). -/
def commitLate (p : LPort) (c : Commit) (s : State) : State :=
  repropose p (sendMsg p 7 (ackBody c.n (dGen c.desc) 0) (modTr2 p (fun t => { t with commitLate := t.commitLate + 1 }) s))

/-- A plan that came too late is repeated with a new START. -/
def planLate (p : LPort) (x : Tune) (s : State) : State :=
  let s := modTr2 p (fun t => { t with commitLate := t.commitLate + 1 }) s
  sendPlan p x (sendMsg p 7 (ackBody x.start (dGen s.ports[p].tr.txNow) 0) s)

/-- Enter the candidate switches of a plan on one side: candidate i at START + 528 i (R235). -/
def enterPlan (p : LPort) (tx : Bool) (x : Tune) (s : State) : State :=
  eachOf x.cands.zipIdx (fun c s =>
    enterSwitch p (if tx then .tuneTx p x.set c.1.1 c.1.2 else .tuneRx p x.set c.1.1 c.1.2)
      (if tx then txRef p else rxRef p) (psfnAdd x.start (528 * c.2 : Nat)) s) s

/-- COMMIT_ACK (R231). -/
def commitAck (p : LPort) (b : List Word) (s : State) : State :=
  let w := b.getD 0 0
  let t := s.ports[p].tr
  let tx := refCount s (txRef p)
  match namesTx w t with
  | some c =>
    if c.scheduled then s
    else if psfnDiff c.n tx < 1024 || poolFull s then commitLate p c s
    else enterSwitch p (.fmtTx p c.desc c.g c.a c.kind) (txRef p) c.n
      (modTr p (fun t => { t with txCommit := some { c with scheduled := true }, announce := some (c.desc, c.n) }) s)
  | none =>
    match namesPlan w t with
    | some x =>
      if x.acked then s
      else if psfnDiff x.start tx < 1024 || poolFull s then planLate p x s
      else enterPlan p true x (modTr p (fun t => { t with tuneTx := some { x with acked := true } }) s)
    | none => s

/-- Drop the scheduled transmit switch and its announcement. -/
def dropTxSwitch (p : LPort) (s : State) : State :=
  modTr p (fun t => { t with txCommit := none, announce := none })
    (dropEvs (fun e => match e.kind with
      | .fmtTx q _ _ _ _ => q == p
      | _ => false) s)

/-- COMMIT_NAK of the pending commit. -/
def nakCommit (p : LPort) (why : Nat) (c : Commit) (s : State) : State :=
  if why = 5 then nextChoice p (dropTxSwitch p s)
  else if c.scheduled then s
  else match why with
    | 1 => commitLate p c s
    | 2 =>
      let s := dropTxSwitch p s
      if s.ports[p].tr.state == .train then trainFail p 7 true true s else nextChoice p s
    | 3 => modTr p (fun t => { t with txCommit := none, retryCommit := some c }) s
    | 4 => modTr p (fun t => { t with txCommit := none, retryCommit := some c }) s
    | _ => s

/-- COMMIT_NAK of a plan: the rules of R231 (R235). -/
def nakPlan (p : LPort) (why : Nat) (x : Tune) (s : State) : State :=
  if x.acked then s
  else match why with
    | 1 => planLate p x s
    | 2 => if s.ports[p].tr.state == .train then trainFail p 7 true true s
        else dueRetune p (modTr p (fun t => { t with tuneTx := none, retune := false }) s)
    | _ => s

/-- COMMIT_NAK (R231, R233). -/
def commitNak (p : LPort) (b : List Word) (s : State) : State :=
  let w := b.getD 0 0
  match namesTx w s.ports[p].tr with
  | some c => nakCommit p (fld w 11 8) c s
  | none =>
    match namesPlan w s.ports[p].tr with
    | some x => nakPlan p (fld w 11 8) x s
    | none => s

/-- COMMIT_RETRY (R231): 100 ms after NAK BUSY or STATE, while the phase allows. A plan not acknowledged is sent
again in the same way. -/
def commitRetry (p : LPort) (s : State) : State :=
  let t := s.ports[p].tr
  match t.retryCommit with
  | some c =>
    let s := modTr p (fun t => { t with retryCommit := none }) s
    if t.txCommit.isNone && choiceFits t c.kind then
      (if c.kind = 2 then proposeAt p c.n c.desc 2 s else propose p c.desc c.g c.a c.kind s)
    else dueRetune p s
  | none =>
    match t.tuneTx with
    | some x => if x.stage < 2 && !x.acked then sendPlan p x s else s
    | none => s

/-- COMMIT_RETRY. -/
def execCommitRetry (p : LPort) (s : State) : Outcome := .next (commitRetry p s)

/-- COMMIT_CANCEL (R231, R234): a receiving end cancels its switch or plan; a transmitting end that has not
switched repeats the commit. -/
def commitCancel (p : LPort) (b : List Word) (s : State) : State :=
  let w := b.getD 0 0
  let t := s.ports[p].tr
  if (t.rxCommit.any fun c => !c.switched && names w c.n (dGen c.desc)) then dropRxSwitch p s
  else if (namesTx w t).isSome then
    repropose p (dropEvs (fun e => match e.kind with
      | .fmtTx q _ _ _ _ => q == p
      | _ => false) s)
  else if (t.tuneRx.any fun x => names w x.start (dGen t.rxNow)) then
    dropRxPlan p s
  else match namesPlan w t with
    | some x => sendPlan p x (dropPlan p true s)
    | none => s

/-! ### TUNE messages (R224, R235) -/

/-- Candidates of a TUNE_PLAN. -/
def planCands (b : List Word) : List (BitVec 8 × BitVec 8) :=
  let all := [3, 4, 5].flatMap fun i =>
    let w := b.getD i 0
    [(BitVec.ofNat 8 (fld w 31 24), BitVec.ofNat 8 (fld w 23 16)), (BitVec.ofNat 8 (fld w 15 8), BitVec.ofNat 8 (fld w 7 0))]
  all.take (fld (b.getD 0 0) 28 26)

/-- A plan fits the state: TUNE has begun at the far end, or RETUNE runs in TRAFFIC. -/
def planFits (t : Train) : Bool :=
  t.state == .traffic || (t.state == .train && t.fmtRxDone && (t.phase == .select || t.phase == .tune || t.phase == .commit))

/-- TUNE_PLAN at the receiving end. (DEDUCED, notes/assumptions 82) -/
def tunePlan (p : LPort) (label : Psfn) (b : List Word) (s : State) : State :=
  let w := fun i => b.getD i 0
  let t := s.ports[p].tr
  let start := psfnOf (w 1) (w 2)
  let set := BitVec.ofNat 3 (fld (w 0) 31 29)
  let cands := planCands b
  let gen := dGen t.rxNow
  let why := if t.rxCommit.isSome || poolFull s then 3 else if !planFits t then 4
    else if psfnDiff start label < 1536 then 1
    else if !rxUsable s p (Fin.ofNat 8 set.toNat) || cands.isEmpty then 2 else 0
  if why = 0 then
    let x : Tune := match t.tuneRx with
      | some x => if x.stage = 1 then { x with set := set, start := start, cands := cands, snrs := [], acked := true, index := 0 }
          else { set := set, start := start, cands := cands, snrs := [], best := (0, 32, 0), snr0 := 0, stage := 0, acked := true, index := 0 }
      | none => { set := set, start := start, cands := cands, snrs := [], best := (0, 32, 0), snr0 := 0, stage := 0, acked := true, index := 0 }
    sendMsg p 5 (ackBody start gen 0) (enterPlan p false x (modTr p (fun t => { t with tuneRx := some x, tuneRxDone := false }) (dropPlan p false s)))
  else sendMsg p 6 (ackBody start gen why) s

/-- TUNE_REPORT of measured candidates. -/
def reportBody (x : Tune) (vs : List (BitVec 16)) : List Word :=
  let v := fun i => (vs.getD i 0).toNat
  word [(31, 29, x.set.toNat), (28, 26, x.cands.length), (15, 0, psLo x.start)] ::
    [0, 2, 4].map fun i => word [(31, 16, v i), (15, 0, v (i + 1))]

/-- TUNE_DWELL_END (R150, R235): the mean SNR of the dwell; the last one sends the report, and after the second
plan the FINAL choice follows. -/
def tuneDwellEnd (p : LPort) (mean : BitVec 16) (s : State) : State :=
  match s.ports[p].tr.tuneRx with
  | some x =>
    let vs := x.snrs ++ [mean]
    if x.cands.length ≤ x.snrs.length || x.stage = 2 then s
    else if vs.length < x.cands.length then modTr p (fun t => { t with tuneRx := some { x with snrs := vs } }) s
    else
      let y := tuneAfter x vs
      let s := sendMsg p 9 (reportBody x vs) (modTr p (fun t => { t with tuneRx := some y }) s)
      if y.stage = 2 then
        let s := modTr p (fun t => { t with tuneRxDone := true, finalSnr := some (2 * ((tuneEnd y.best y.snr0).2.2.toNat : Int)) }) s
        if inPhase s p .commit || s.ports[p].tr.state == .traffic then sendChoice p 1 s.ports[p].tr.rate.toNat s
        else advance p s
      else s
  | none => s

/-- TUNE_DWELL_END. -/
def execTuneDwellEnd (p : LPort) (mean : BitVec 16) (s : State) : Outcome := .next (tuneDwellEnd p mean s)

/-- TUNE_REPORT at the transmitting end: the second plan, or the end of the search (R150). (DEDUCED, notes/assumptions 84) -/
def tuneReport (p : LPort) (b : List Word) (s : State) : State :=
  let w := fun i => b.getD i 0
  match s.ports[p].tr.tuneTx with
  | some x =>
    if x.stage < 2 && x.acked && fld (w 0) 31 29 == x.set.toNat && fld (w 0) 28 26 == x.cands.length && fld (w 0) 15 0 == psLo x.start then
      let vs := ([1, 2, 3].flatMap fun i => [BitVec.ofNat 16 (fld (w i) 31 16), BitVec.ofNat 16 (fld (w i) 15 0)]).take x.cands.length
      let y := tuneAfter x vs
      if y.stage = 1 then sendPlan p { y with cands := tuneSecond y.best } s
      else
        let best := tuneEnd y.best y.snr0
        let s := modTr p (fun t => { t with tuneTx := some { y with best := best }, tuneTxDone := true }) s
        let s := modNlc p (fun n => { n with tuneGain := BitVec.ofInt 16 ((best.2.2.toNat : Int) - y.snr0.toNat) }) s
        advance p (if s.ports[p].tr.state == .traffic then phaseChoice p s else s)
    else s
  | none => s

/-- RETUNE (R243, R255): TUNE on the direction that the port transmits, unless it is skipped; at once, or once the pending
commit of that direction has ended (R230). A search that runs already is the one asked for. (DEDUCED, notes/assumptions
84) -/
def retune (p : LPort) (s : State) : State :=
  if s.ports[p].tr.tuneTx.any (·.stage < 2) then s
  else dueRetune p (modTr p (fun t => { t with retuneDue := true }) s)

/-- AUTO_RETUNE (R243). -/
def autoRetune (p : LPort) (s : State) : State :=
  let x := s.ports[p]
  if x.tr.state == .traffic && x.tr2.afterRate && bit x.tr.policy[0] 27 then
    retune p (modTr2 p (fun t => { t with afterRate := false }) s)
  else s

/-- AUTO_RETUNE. -/
def execAutoRetune (p : LPort) (s : State) : Outcome := .next (autoRetune p s)

/-! ### Verification and tracking (R228, R236, R237) -/

/-- VERIFY_DONE (R220, R236): the averaged Q margin passes, or the FINAL choice is repeated with a lower snr; after
the second repeat the phase fails. (DEDUCED, notes/assumptions 86) -/
def verifyDone (p : LPort) (margin : BitVec 16) (s : State) : State :=
  let t := s.ports[p].tr
  let short := marginMin t - margin.toInt
  if inPhase s p .commit && t.finRxDone && !t.verified then
    if short ≤ 0 then advance p (modTr p (fun t => { t with verified := true }) s)
    else if 2 ≤ t.verifyRuns then trainFail p 8 true true s
    else
      let snr := t.finalSnr.getD (snrTwice s p) - 2 * (short + 10)
      sendChoice p 1 t.rate.toNat (modTr p (fun t => { t with
        verifyRuns := t.verifyRuns + 1, finRxDone := false, finalSnr := some snr }) s)
  else s

/-- VERIFY_DONE. -/
def execVerifyDone (p : LPort) (margin : BitVec 16) (s : State) : Outcome := .next (verifyDone p margin s)

/-- TRACK_REPORT of a port (R224). (DEDUCED, notes/assumptions 87) -/
def trackBody (s : State) (p : LPort) : List Word :=
  let x := s.ports[p]
  [word [(31, 16, x.tr.qMargin.toNat), (15, 0, (x.rx.est.snrX.toNat + x.rx.est.snrY.toNat) / 2)], x.rx.est.preBer,
   word [(31, 27, reqSlots s p), (26, 26, b2n x.tr.verified)]]

/-- TRACK_REPORT_TIMER (R236). -/
def trackReportTimer (p : LPort) (s : State) : State :=
  if inPhase s p .commit || s.ports[p].tr.phase == .track then sendMsg p 10 (trackBody s p) s else s

/-- TRACK_REPORT_TIMER. -/
def execTrackReportTimer (p : LPort) (s : State) : Outcome := .next (trackReportTimer p s)

/-- Q_MARGIN_REFRESH (R228): the margin of the received direction. -/
def qMarginRefresh (p : LPort) (s : State) : State :=
  modTr p (fun t => { t with qMargin := BitVec.ofInt 16 (qMarginOf s.ports[p].rx.est.preBer (dFec t.rxNow)) }) s

/-- Q_MARGIN_REFRESH. -/
def execQMarginRefresh (p : LPort) (s : State) : Outcome := .next (qMarginRefresh p s)

/-- The far end needs more slots than the format carries. -/
def shortOfSlots (t : Train) : Bool := decide (slotsCarried t.rxFmt < t.farReqSlots.toNat)

/-- The conditions of R237. -/
def degraded (t : Train) : Bool := decide (t.qMargin.toInt < marginMin t) || shortOfSlots t

/-- DEGRADE_TIMER (R237). -/
def degradeTimer (p : LPort) (s : State) : State :=
  let t := s.ports[p].tr
  if t.state == .traffic && bit t.policy[0] 28 && degraded t then sendChoice p 3 t.rate.toNat s else s

/-- DEGRADE_TIMER. -/
def execDegradeTimer (p : LPort) (s : State) : Outcome := .next (degradeTimer p s)

/-- SPAN_ALARM_CLEAR (R237): the condition has been gone for 10 s. -/
def spanAlarmClear (p : LPort) (s : State) : State :=
  if degraded s.ports[p].tr then s else setAlarm (.line p) 11 false (setAlarm (.line p) 10 false s)

/-- SPAN_ALARM_CLEAR. -/
def execSpanAlarmClear (p : LPort) (s : State) : Outcome := .next (spanAlarmClear p s)

/-- TRACK_REPORT from the far end; a change of its REQ_SLOTS brings a new choice at once (R229, R237). -/
def trackIn (p : LPort) (b : List Word) (s : State) : State :=
  let w := fun i => b.getD i 0
  let old := s.ports[p].tr.farReqSlots
  let req := BitVec.ofNat 5 (fld (w 2) 31 27)
  let s := modTr p (fun t => { t with
    farQMargin := BitVec.ofNat 16 (fld (w 0) 31 16), farReqSlots := req, farVerified := t.farVerified || bit (w 2) 26 }) s
  if req == old then s else degradeTimer p s

/-! ### HOLDOVER (R233, R238) -/

/-- HOLD_TIME_EXPIRY (R238). -/
def holdTimeExpiry (p : LPort) (s : State) : State :=
  if s.ports[p].tr.state == .holdover then trainFail p 13 true true s else s

/-- HOLD_TIME_EXPIRY. -/
def execHoldTimeExpiry (p : LPort) (s : State) : Outcome := .next (holdTimeExpiry p s)

/-- HOLDOVER_FORMAT_ALTERNATE (R233): the other format is tried. -/
def holdoverAlternate (p : LPort) (s : State) : State :=
  let x := s.ports[p]
  match x.tr2.alternate with
  | some (a, b, first) =>
    if x.tr.state == .holdover && !x.sf.lock then
      modTr2 p (fun t => { t with alternate := some (a, b, !first) })
        (modTr p (fun t => { t with rxNow := if first then b else a }) (beCautious p s))
    else s
  | none => s

/-- HOLDOVER_FORMAT_ALTERNATE. -/
def execHoldoverFormatAlternate (p : LPort) (s : State) : Outcome := .next (holdoverAlternate p s)

/-- What a lock in one of the two formats of R233 settles. The format kept counts from now on as the receive format;
a second HOLDOVER within the same 4,096 superframes alternates again unless the switch was undone or the announced
format taken. -/
def settleAlternate (p : LPort) (s : State) : State :=
  let x := s.ports[p]
  match x.tr2.alternate with
  | some (a, b, first) =>
    let s := modTr2 p (fun t => { t with alternate := none, altCancelled := false }) s
    if x.tr2.altCancelled then
      (if first then modTr p (fun t => { t with rxFmt := a }) (modTr2 p (fun t => { t with cancelAt := none }) s) else s)
    else if first then s
    else sendMsg p 6 (ackBody (x.tr2.switchAt.getD 0) (dGen a) 5)
      (modTr2 p (fun t => { t with commitRevert := t.commitRevert + 1, switchAt := none }) (modTr p (fun t => { t with rxFmt := b }) s))
  | none => s

/-- A port in HOLDOVER that has lock returns to TRAFFIC when FMT_ACTIVE equals its receive format (R238). -/
def holdoverLocked (p : LPort) (s : State) : State :=
  let x := s.ports[p]
  if x.tr.state == .holdover && x.sf.lock && sameFmt x.sf.lastFmt x.tr.rxNow then
    setPort p .traffic (settleAlternate p s)
  else s

end Sys2Proof.Machine
end

