-- ==== Sys2Proof/Machine/Paths.lean ====
section
/-! DEFINITION. Path-wide rate changes (R241 to R243), the switches that port controllers enter in the Dial, and
the training messages received (R223, R224). -/

namespace Sys2Proof.Machine

/-! ### Rate changes (R241 to R243) -/

/-- Ports that a rate change seen on port `p` concerns. -/
def rateConcerns (s : State) (p : LPort) : List LPort := if regen s p then [p, mate p] else [p]

/-- The switches of a rate change (R241): port, whether it transmits, count. -/
def rateSwitches (s : State) (p : LPort) (r : RateChange) : List (LPort × Bool × Psfn) :=
  if r.from_.isNone then [(p, true, r.nFwd), (p, false, r.nRev)]
  else if regen s p then [(p, false, r.nFwd), (mate p, true, r.nFwd), (mate p, false, r.nRev), (p, true, r.nRev)]
  else [(p, false, r.nFwd), (p, true, r.nRev)]

/-- Schedule a rate change and make the PRIMED choice of every received direction (R243). -/
def scheduleRate (p : LPort) (r : RateChange) (s : State) : State :=
  let l := rateSwitches s p r
  let s := modTr2 p (fun t => { t with rate_ := some { r with left := l.length } }) s
  let s := eachOf l (fun x s =>
    enterSwitch x.1 (if x.2.1 then .rateTx x.1 r.rate else .rateRx x.1 r.rate) (if x.2.1 then txRef x.1 else rxRef x.1) x.2.2 s) s
  eachOf (rateConcerns s p) (fun q => fun s => sendChoice q 2 r.rate.toNat (phaseChoice q s)) s

/-- Cancel every switch and primed commit of the change recorded on port `p` (R242). -/
def cancelRate (p : LPort) (s : State) : State :=
  let s := eachOf (rateConcerns s p) (fun q s =>
    let t := s.ports[q].tr
    let s := if t.txCommit.any (·.kind == 2) then dropTxSwitch q s else s
    let s := if t.rxCommit.any (·.kind == 2) then dropRxSwitch q s else s
    modTr q (fun t => { t with waitChoice := t.waitChoice.filter fun w => w.2 != 2
                               retryCommit := t.retryCommit.filter fun c => c.kind != 2 })
      (dropEvs (fun e => e.kind.rates q) s)) s
  modTr2 p (fun t => { t with rate_ := none }) s

/-- PATH (R224). -/
def pathBody (op : Nat) (r : RateChange) (hops : Nat) : List Word :=
  [word [(31, 28, op), (27, 18, r.rate.toNat), (17, 7, r.origin.toNat), (6, 2, hops)], wd (psHi r.nFwd),
   word [(31, 16, psLo r.nFwd)], wd (psHi r.nRev), word [(31, 16, psLo r.nRev)]]

/-- PATH_ACK (R224). -/
def pathAckBody (op status node : Nat) (n : Psfn) : List Word :=
  [word [(31, 28, op), (27, 24, status), (23, 13, node)], wd (psHi n), word [(31, 16, psLo n)]]

/-- A device's checks of PATH OP RATE (R242). -/
def pathStatusOf (s : State) (p : LPort) (rate : Nat) (n label : Psfn) : Nat :=
  let l := rateConcerns s p
  if l.any (fun q => !clockFits s.ports[q].front.sclk.toNat rate) then 1
  else if l.any (fun q => s.ports[q].tr.state != .traffic) then 2
  else if l.any (fun q => (rateChange s q).isSome) then 3
  else if psfnDiff n label < 65536 then 4
  else 0

/-- PATH received on port `p` (R242): a regenerator relays it, a terminal answers it. -/
def pathIn (p : LPort) (label : Psfn) (b : List Word) (s : State) : State :=
  let w := fun i => b.getD i 0
  let n := psfnOf (w 1) (w 2)
  let op := fld (w 0) 31 28
  let r : RateChange :=
    { rate := BitVec.ofNat 10 (fld (w 0) 27 18), nFwd := n, nRev := psfnOf (w 3) (w 4),
      origin := BitVec.ofNat 11 (fld (w 0) 17 7), from_ := some p, rq := none, left := 0 }
  let relay := fun (s : State) => sendMsg (mate p) 11 (pathBody op r (fld (w 0) 6 2 + 1)) s
  let answer := fun (st : Nat) (s : State) => sendMsg p 12 (pathAckBody op st s.jrx.nodeId.toNat n) s
  if op = 0 then
    let st := pathStatusOf s p r.rate.toNat n label
    let s := modTr2 p (fun t => { t with pathStatus := BitVec.ofNat 4 st }) s
    let s := if regen s p then relay s else answer st s
    if st = 0 then scheduleRate p r s else s
  else if op = 1 then
    let s := if s.ports[p].tr2.rate_.any (fun x => x.nFwd == n && x.from_.isSome) then cancelRate p s else s
    let s := modTr2 p (fun t => { t with pathStatus := 5 }) s
    if regen s p then relay s else answer 5 s
  else s

/-- PATH OP CANCEL from the originating terminal. -/
def sendCancel (p : LPort) (r : RateChange) (s : State) : State := sendMsg p 11 (pathBody 1 r 0) s

/-- Answer the PATH_COMMIT that waits on port `p`. (DEDUCED, notes/assumptions 90) -/
def answerPath (r : RateChange) (a : Answer) (s : State) : State :=
  match r.rq with
  | some rq => reply 0x2804 rq a s
  | none => s

/-- REFUSED with the node and its status (R258). -/
def pathRefused (node status : Nat) : Answer := { st := .refused, detail := node * 8192 + status }

/-- PATH_ACK at the originating terminal (R258). -/
def pathAckEnd (p : LPort) (op status node : Nat) (r : RateChange) (s : State) : State :=
  if r.cancel then
    (if op = 1 then answerPath r { st := .accepted } (modTr2 p (fun t => { t with rate_ := none }) s) else s)
  else if op = 0 then
    (if status = 0 then
      answerPath r { st := .accepted } (modTr2 p (fun t => { t with
        rate_ := if r.left = 0 then none else some { r with rq := none } }) s)
    else sendCancel p r (answerPath r (pathRefused node status) (cancelRate p s)))
  else s

/-- PATH_ACK received on port `p` (R242): a regenerator relays it on the other port and keeps the first status
that is not OK. -/
def pathAckIn (p : LPort) (b : List Word) (s : State) : State :=
  let w := fun i => b.getD i 0
  let n := psfnOf (w 1) (w 2)
  let op := fld (w 0) 31 28
  let st := fld (w 0) 27 24
  let node := fld (w 0) 23 13
  if regen s p then
    let own := s.ports[mate p].tr2.pathStatus.toNat
    if st = 0 && own != 0 then sendMsg (mate p) 12 (pathAckBody op own s.jrx.nodeId.toNat n) s
    else sendMsg (mate p) 12 (pathAckBody op st node n) s
  else match s.ports[p].tr2.rate_ with
    | some r => if r.from_.isNone && r.nFwd == n && r.rq.isSome then pathAckEnd p op st node r s else s
    | none => s

/-- PATH_COMMIT_TIMEOUT (R258): TIMEOUT, and the terminal sends the cancel by itself. -/
def pathCommitTimeout (p : LPort) (s : State) : State :=
  match s.ports[p].tr2.rate_ with
  | some r =>
    if r.rq.isSome then
      sendCancel p r (answerPath r { st := .timeout } (cancelRate p s))
    else s
  | none => s

/-- PATH_COMMIT_TIMEOUT. -/
def execPathCommitTimeout (p : LPort) (s : State) : Outcome := .next (pathCommitTimeout p s)

/-- Checks of PATH_COMMIT (R258). -/
def pathChecks (ps : List Word) (s : State) : List (Bool × Answer) :=
  let w := fun i => ps.getD i 0
  let p : LPort := Fin.ofNat 4 (fld (w 0) 31 30)
  let rate := fld (w 0) 27 18
  let d := psfnDiff (psfnOf (w 1) (w 2)) (refCount s (txRef p))
  let isRate := fld (w 0) 29 28 == 0
  [badAt [(decide (1 < fld (w 0) 29 28) || fld (w 0) 17 0 != 0 || (isRate && (decide (880 < rate) ||
      rate == s.ports[p].tr.rate.toNat || !clockFits s.ports[p].front.sclk.toNat rate)), 0),
    (isRate && (decide (d < 262144) || decide (16777216 < d)), 1), (fld (w 2) 15 0 != 0, 2)]]

/-- State checks of PATH_COMMIT; a change or a cancel that is pending answers BUSY (DEDUCED, notes/assumptions 33). -/
def pathStates (ps : List Word) (s : State) : List (Bool × Answer) :=
  let p : LPort := Fin.ofNat 4 (fld (ps.getD 0 0) 31 30)
  [(regen s p || s.ports[p].tr.state != .traffic, badState),
   (if fld (ps.getD 0 0) 29 28 = 0 then (rateChange s p).isSome else s.ports[p].tr2.rate_.any (·.cancel), busy)]

/-- PATH_COMMIT (R241, R258): the reply waits for PATH_ACK. N' is taken at sending. -/
def pathCommit (rq : Req) (s : State) : State :=
  let p := pport rq 0
  command 0x2804 rq (pathChecks rq.params s) (pathStates rq.params)
    (fun s =>
      let n := psfnOf (par rq 1) (par rq 2)
      let r : RateChange :=
        { rate := BitVec.ofNat 10 (pf rq 0 27 18), nFwd := n,
          nRev := psfnAdd (refCount s (rxRef p)) (psfnDiff n (refCount s (txRef p))),
          origin := s.jrx.nodeId, from_ := none, rq := some rq, left := 0, cancel := pf rq 0 29 28 == 1 }
      if r.cancel then
        let s := match s.ports[p].tr2.rate_ with
          | some old => answerPath old (pathRefused s.jrx.nodeId.toNat 5) (cancelRate p s)
          | none => s
        taken rq (sendCancel p r (modTr2 p (fun t => { t with rate_ := some r }) s))
      else taken rq (scheduleRate p r (sendMsg p 11 (pathBody 0 r 0) s))) s

/-- PATH_COMMIT. -/
def execPathCommit (rq : Req) (s : State) : Outcome := .next (pathCommit rq s)

/-! ### Switches at their boundary (R129, R148, R149, R167, R231, R235, R241, R243) -/

/-- The transmit side applies another use of Complication. -/
def txUse (p : LPort) (u : NlcUse) (s : State) : State := if s.ports[p].nlc.tx = u then s else txSwitch p u s
/-- The receive side applies another use of Complication. -/
def rxUse (p : LPort) (u : NlcUse) (s : State) : State := if s.ports[p].nlc.rx = u then s else rxSwitch p u s

/-- Complication in a commit: FINAL takes the values it carries, ADAPT keeps those in use, the others are off. -/
def commitUse (u : NlcUse) (d : Word) (g a : BitVec 8) (kind : BitVec 2) : NlcUse :=
  if kind = 1 then { on := dOn d, set := BitVec.ofNat 3 (dSet d), g := g, share := a }
  else if kind = 3 then u
  else { u with on := false }

/-- A candidate of TUNE on a side. -/
def tuneUse (set : BitVec 3) (g a : BitVec 8) : NlcUse := { on := g != 0, set := set, g := g, share := a }

/-- A transmit format switch takes effect. -/
def switchTx (p : LPort) (d : Word) (g a : BitVec 8) (kind : BitVec 2) (s : State) : State :=
  let s := modTr p (fun t => { t with
    txFmt := d, txNow := d, announce := none, txCommit := none, retune := t.retune && kind != 1
    fmtTxDone := t.fmtTxDone || kind == 0, finTxDone := t.finTxDone || kind == 1 }) s
  let s := txUse p (commitUse s.ports[p].nlc.tx d g a kind) s
  let s := if kind = 1 then modNlc p (fun n => { n with gTrained := g, aTrained := a }) s else s
  advance p (nextChoice p s)

/-- A receive format switch takes effect at superframe `n`. In the HOLDOVER of a rate change that began at the same
superframe the attempts alternate between the primed format and the one before it (R233, R243). -/
def switchRx (p : LPort) (n : Psfn) (d : Word) (g a : BitVec 8) (kind : BitVec 2) (s : State) : State :=
  let old := s.ports[p].tr.rxNow
  let s := modTr2 p (fun t => { t with
    prevFmt := old, switchAt := some n, cancelAt := none, altCancelled := false
    alternate := if s.ports[p].tr.state == .holdover then some (d, old, true) else none }) s
  let s := modTr p (fun t => { t with
    rxFmt := d, rxNow := d, rxCommit := t.rxCommit.map fun c => { c with switched := true } }) (beCautious p s)
  rxUse p (commitUse s.ports[p].nlc.rx d g a kind) s

/-- FMT_ACTIVE of a transmitter whose Complication goes off (R148). -/
def nlcOffDesc (d : Word) : Word := withNlc d (dSet d) false (dGen d)

/-- A rate switch of the transmitter: its sets become unusable (R149), so its side is off and NLC_ON is 0 (R148); its DAC
items are retrimmed. -/
def switchRateTx (p : LPort) (rate : BitVec 10) (s : State) : State :=
  let s := modTr p (fun t => { t with
    txFmt := withRate t.txFmt rate.toNat, txNow := nlcOffDesc (withRate t.txNow rate.toNat) }) s
  let s := modNlc p Nlc.txOff s
  rateTaken p 1 (modTr2 p (fun t => { t with afterRate := true }) (calClock p false s))

/-- A rate switch of the receiver: it enters HOLDOVER and re-acquires in HINT mode (R129, R243). The steps of the
Regulator, which its boundaries pace, begin again at the new rate (R34). -/
def switchRateRx (p : LPort) (rate : BitVec 10) (s : State) : State :=
  let s := modTr p (fun t => { t with
    rate := rate, rxFmt := withRate t.rxFmt rate.toNat, rxNow := withRate t.rxNow rate.toNat }) (beCautious p s)
  let s := calClock p false (modNlc p Nlc.rxOff s)
  let s := modRx p (fun r => { r.drop with hint := r.tracked }) s
  let s := modTr2 p (fun t => { t with
    afterRate := true, prevFmt := withRate t.prevFmt rate.toNat, cancelFmt := withRate t.cancelFmt rate.toNat }) (unalign p (dropLock p s))
  let s := if s.ports[p].tr.state == .traffic then enterHoldover true p s else s
  nlcEval (rateTaken p 1 (startAttempt p s))

/-- What a switch that a port controller entered does at its boundary (R297). -/
def runSwitch (k : DialKind) (n : Psfn) (s : State) : State :=
  match k with
  | .stored => s
  | .fmtTx p d g a kind => switchTx p d g a kind s
  | .fmtRx p d g a kind => switchRx p n d g a kind s
  | .tuneTx p set g a => txUse p (tuneUse set g a) s
  | .tuneRx p set g a => rxUse p (tuneUse set g a) s
  | .rateTx p rate => switchRateTx p rate s
  | .rateRx p rate => switchRateRx p rate s

/-! ### Messages received (R223, R224) -/

/-- The head message is acknowledged (R224): the next one follows with SEQ + 1. The round trip of CAP is rounded up
to 0.1 ms (R225). -/
def headAcked (p : LPort) (s : State) : State :=
  modTr p (fun t =>
    match t.queue with
    | m :: rest =>
      { t with
        queue := rest, seq := t.seq + 1, sentHead := false
        capAcked := t.capAcked || m.type == 1, probeAcked := t.probeAcked || m.type == 2
        rtt := match t.capSent with
          | some u => if m.type = 1 then BitVec.ofNat 16 ((s.sys.usec - u + 99) / 100) else t.rtt
          | none => t.rtt }
    | [] => t) s

/-- A message has a reserved field that is not zero (R224). -/
def msgReserved (head : Word) (type : Nat) (b : List Word) : Bool :=
  let z := fun i hi lo => fld (b.getD i 0) hi lo != 0
  fld head 18 0 != 0 ||
    match type with
    | 1 => z 0 2 0 || z 1 9 0 || z 2 7 0 || z 3 26 0
    | 2 => z 1 15 0 || z 3 7 0
    | 3 => z 1 8 0
    | 4 => z 3 29 0
    | 5 => z 0 11 0
    | 6 => z 0 7 0
    | 7 => z 0 11 0
    | 8 => z 0 25 0 || z 2 15 0
    | 9 => z 0 25 16
    | 10 => z 2 25 0
    | 11 => z 0 1 0 || z 2 15 0 || z 4 15 0
    | 12 => z 0 12 0 || z 2 15 0
    | 13 => z 0 27 0
    | _ => false

/-- CAP (R225). -/
def capIn (p : LPort) (b : List Word) (s : State) : State :=
  let w := fun i => b.getD i 0
  modTr p (fun t => { t with
    farCap := some (w 0, w 1, w 2), farRoll := some (BitVec.ofNat 4 (fld (w 1) 21 18))
    farReqSlots := BitVec.ofNat 5 (fld (w 3) 31 27) }) s

/-- An accepted message takes effect. `label` is that of the superframe that delivered it. -/
def message (p : LPort) (label : Psfn) (type : Nat) (b : List Word) (s : State) : State :=
  match type with
  | 1 => capIn p b s
  | 2 => modTr p (fun t => { t with farProbe := true }) s
  | 3 => actChoice p (b.getD 0 0) (BitVec.ofNat 2 (fld (b.getD 1 0) 10 9)) s
  | 4 => commitReq p label b s
  | 5 => commitAck p b s
  | 6 => commitNak p b s
  | 7 => commitCancel p b s
  | 8 => tunePlan p label b s
  | 9 => tuneReport p b s
  | 10 => trackIn p b s
  | 11 => pathIn p label b s
  | 12 => pathAckIn p b s
  | 13 => failIfTraining p 11 false s
  | _ => s

/-- A training cell from a good SFOH received with lock (R224). TYPE 0 carries an acknowledgement only; a repeat is
ignored. (DEDUCED, notes/assumptions 81) -/
def trainIn (p : LPort) (cell : List Word) (label : Psfn) (s : State) : State :=
  let h := cell.getD 0 0
  let b := cell.drop 1
  let t := s.ports[p].tr
  let s := if bit h 19 && t.sentHead && fld h 23 20 == t.seq.toNat then headAcked p s else s
  let type := fld h 31 28
  let seq := BitVec.ofNat 4 (fld h 27 24)
  let s := farTune p type (fld (b.getD 1 0) 10 9) s
  if type = 0 || s.ports[p].tr.farSeq == some seq then advance p s
  else
    let s := modTr p (fun t => { t with farSeq := some seq }) s
    advance p (if msgReserved h type b then s else message p label type b s)

/-- The training cell that a port sends (R223, R224). The SEQ of TYPE 0 is not stated: a free value. -/
def trainCell (s : State) (p : LPort) : List Word :=
  let t := s.ports[p].tr
  let ack := fun (type seq : Nat) => word [(31, 28, type), (27, 24, seq),
    (23, 20, match t.farSeq with
      | some q => q.toNat
      | none => 0), (19, 19, b2n t.farSeq.isSome)]
  match t.queue with
  | m :: _ => ack m.type.toNat t.seq.toNat :: (List.range 7).map fun i => m.body.getD i 0
  | [] => ack 0 (freeWordAt s 0).toNat :: List.replicate 7 0

/-- The head message is sent: the first CAP of an exchange starts the round-trip time (R225). -/
def cellSent (p : LPort) (s : State) : State :=
  let s := if s.ports[p].tr.queue.isEmpty then tookFree s else s
  modTr p (fun t =>
    match t.queue with
    | m :: _ => { t with sentHead := true, capSent := if m.type = 1 && t.capSent.isNone then some s.sys.usec else t.capSent }
    | [] => t) s

end Sys2Proof.Machine
end

