-- ==== Sys2Proof/Machine/TrainCmds.lean ====
section
/-! DEFINITION. LINE_MODE_SET, LINE_MODE_GET, TRAIN_START, TRAIN_STATUS, TRAIN_POLICY_SET (R252 to R257), the traces
(R250) and the margin ledger (R249). -/

namespace Sys2Proof.Machine

/-! ### Traces (R250) -/

/-- Bytes of trace words, bits [31:24] first. -/
def traceBytes (ws : List Word) : List Byte :=
  ws.flatMap fun w => [BitVec.ofNat 8 (fld w 31 24), BitVec.ofNat 8 (fld w 23 16), BitVec.ofNat 8 (fld w 15 8), BitVec.ofNat 8 (fld w 7 0)]

/-- An accepted trace differs from a non-zero expected one (R250). -/
def traceBad (acc : Option (List Byte)) (expected : List Byte) : Bool :=
  acc.any fun a => expected.any (· != 0) && a != expected

/-- SPAN_TIM and PATH_TIM follow the accepted and the expected traces. (DEDUCED, notes/assumptions 94) -/
def evalTraces (p : LPort) (s : State) : State :=
  let t := s.ports[p].tr2
  setAlarm (.line p) 13 (traceBad t.accPath t.expPath) (setAlarm (.line p) 12 (traceBad t.accSpan t.expSpan) s)

/-- Received path content counts as failed: TIM_ACTION with SPAN_TIM or PATH_TIM (R250). -/
def timFailed (s : State) (p : LPort) : Bool :=
  bit s.ports[p].tr.policy[0] 26 && (alarmOn s (.line p) 12 || alarmOn s (.line p) 13)

/-! ### The margin ledger (R249) -/

/-- VALID of ledger entry `e`. -/
def ledgerValid (l : Vector Word 16) (e : Fin 16) : Bool := bit l[e] 31

/-- Number of valid entries. -/
def ledgerCount (l : Vector Word 16) : Nat := ((List.finRange 16).filter fun e => ledgerValid l e).length

/-- The first entry with VALID 0. -/
def ledgerFree (l : Vector Word 16) : Option (Fin 16) := (List.finRange 16).find? fun e => !ledgerValid l e

/-- Q_MARGIN of the own entry of a port in 15 bits; 0x4000 outside TRAFFIC. -/
def ledgerMargin (s : State) (p : LPort) : Nat :=
  if s.ports[p].tr.state == .traffic then unsgn 15 (clampI (-16383) 16383 s.ports[p].tr.qMargin.toInt) else 0x4000

/-- The entry that this device writes for the span received on a port, as entry `e`. -/
def ownEntry (s : State) (margin e : Nat) : Word :=
  word [(31, 31, 1), (30, 20, if s.jrx.nidValid then s.jrx.nodeId.toNat else 0), (19, 16, e), (15, 15, b2n s.jrx.nidValid), (14, 0, margin)]

/-! ### LINE_MODE_SET (R252) and LINE_MODE_GET (R253) -/

/-- Ports to which RATE applies (R252). -/
def rateApplies (s : State) (p : LPort) : List LPort := if regen s p then [p, mate p] else [p]

/-- Traces that a TRACE selects. -/
def traceCount (w : Word) : Nat := b2n (bit w 27) + b2n (bit w 26) + b2n (bit w 25) + b2n (bit w 24)

/-- The block that a TRACE reads. -/
def traceData (ps : List Word) (s : State) : List Word :=
  let w := ps.getD 0 0
  if fld w 29 28 = 1 then bulkRead s.bulk (fld w 23 0) (16 * traceCount w + 1) else []

/-- Checks of LINE_MODE_SET. -/
def modeChecks (ps : List Word) (s : State) : List (Bool × Answer) :=
  let w := ps.getD 0 0
  let p : LPort := Fin.ofNat 4 (fld w 31 30)
  match fld w 29 28 with
  | 0 =>
    let rate := fld w 26 17
    [badAt [(fld w 16 0 != 0 || decide (880 < rate) ||
      (rateApplies s p).any (fun q => !clockFits s.ports[q].front.sclk.toNat rate), 0)]]
  | 1 => [badAt [(bulkBad (fld w 23 0) (16 * traceCount w + 1), 0)], (!blockCrc (traceData ps s), badParam 0xFF)]
  | _ => [badAt [(true, 0)]]

/-- State checks of LINE_MODE_SET: a change of RATE needs DOWN or MUTED. -/
def modeStates (ps : List Word) (s : State) : List (Bool × Answer) :=
  let w := ps.getD 0 0
  let p : LPort := Fin.ofNat 4 (fld w 31 30)
  let still := fun q => s.ports[q].tr.state == .down || s.ports[q].tr.state == .muted
  let l := rateApplies s p
  [(fld w 29 28 == 0 && l.any (fun q => s.ports[q].tr.rate.toNat != fld w 26 17) && !l.all still, badState)]

/-- A symbol-rate change makes every set of the old rate unusable: a side whose set it is goes off (R149). -/
def unusableOff (p : LPort) (s : State) : State :=
  let n := s.ports[p].nlc
  let bad := fun (sets : Vector (Option CoefSet) 8) (u : NlcUse) =>
    u.on && !(sets[(Fin.ofNat 8 u.set.toNat : Fin 8)].any fun c => c.holds p && c.matches s p)
  let s := if bad n.rxSets n.rx || n.rxNext.any (bad n.rxSets) then modNlc p Nlc.rxOff s else s
  if bad n.txSets n.tx || n.txNext.any (bad n.txSets) then modNlc p Nlc.txOff s else s

/-- The slots that the port must send do not fit the working format at its rate (R21, R168). -/
def rateShort (s : State) (p : LPort) : Bool :=
  decide (slotsCarried s.ports[p].tr.txFmt < topSlot (mustCarry s p))

/-- LINE_MODE_SET tests whether the working format carries every equipped slot at the new rate (R168); R252 names no refusal,
so that the span is reported as unable to carry the path (R21; DEDUCED, notes/assumptions 141). -/
def reportShort (p : LPort) (s : State) : State := raiseAlarm (.line p) 10 (alarmOn s (.line p) 10 || rateShort s p) s

/-- A port takes a new symbol rate: the working formats, the acquisition format, Complication, the Regulator and a running
acquisition follow (R149, R165, R326, R516). -/
def setRate (p : LPort) (rate : Nat) (s : State) : State :=
  if s.ports[p].tr.rate.toNat = rate then s
  else
    let s := modTr p (fun t => { t with
      rate := BitVec.ofNat 10 rate, txFmt := withRate t.txFmt rate, rxFmt := withRate t.rxFmt rate
      txNow := withRate t.txNow rate, rxNow := withRate t.rxNow rate }) s
    let s := unusableOff p (reportShort p s)
    let s := if isOn s (.cv p) then calClock p false s else s
    if s.ports[p].tr.state == .muted then restartAcq p s else s

/-- ENABLE of LINE_MODE_SET (R217, R424). -/
def setEnable (p : LPort) (on : Bool) (s : State) : State :=
  let was := s.ports[p].tr.state
  let s := modTr p (fun t => { t with enable := on }) s
  if on then
    let s := modPower (fun x => { x with muteLd := x.muteLd &&& ~~~(BitVec.ofNat 4 (2 ^ p.val)) }) s
    if was == .down then
      let s := enterMuted p s
      if bit s.ports[p].tr.policy[0] 29 then startAcquire p s else s
    else refresh s
  else enterDown p s

/-- The four traces take their bytes in SEL order. -/
def setTraces (p : LPort) (w : Word) (bs : List Byte) (s : State) : State :=
  let take := fun (b : Nat) => ((bs.drop (64 * (traceCount (w &&& wd (2 ^ 28 - 2 ^ (b + 1)))))).take 64)
  let s := modTr2 p (fun t => { t with
    nextSpan := if bit w 27 then some (take 27) else t.nextSpan
    expSpan := if bit w 26 then take 26 else t.expSpan
    nextPath := if bit w 25 then some (take 25) else t.nextPath
    expPath := if bit w 24 then take 24 else t.expPath }) s
  evalTraces p s

/-- LINE_MODE_SET. -/
def lineModeSet (rq : Req) (s : State) : State :=
  let p := pport rq 0
  let w := par rq 0
  let bs := traceBytes (traceData rq.params s).dropLast
  commandOk 0x2001 rq (modeChecks rq.params s) (modeStates rq.params)
    (fun s =>
      if fld w 29 28 = 1 then setTraces p w bs s
      else nlcEval (setEnable p (bit w 27) (eachOf (rateApplies s p) (fun q => setRate q (fld w 26 17)) s))) s

/-- LINE_MODE_SET. -/
def execLineModeSet (rq : Req) (s : State) : Outcome := .next (lineModeSet rq s)

/-- The words of LINE_MODE_GET (R253). -/
def modeWords (s : State) (p : LPort) : List Word :=
  let t := s.ports[p].tr
  [word [(31, 29, t.state.code), (28, 28, b2n t.enable), (27, 18, t.rate.toNat), (17, 17, b2n (regen s p))],
   word [(31, 16, dropMask s p)]]

/-- What LINE_MODE_GET answers. -/
def lineModeAnswer (rq : Req) : State → State := answerReply 0x2002 rq (modeWords · (pport rq 0))

/-- LINE_MODE_GET (R13, R253). -/
def lineModeGet (rq : Req) (s : State) : State :=
  report (.port (pport rq 0)) 0x2002 rq [badAt [(pf rq 0 29 0 != 0, 0)]] (lineModeAnswer rq) s

/-- LINE_MODE_GET. -/
def execLineModeGet (rq : Req) (s : State) : Outcome := .next (lineModeGet rq s)

/-! ### TRAIN_START (R255) -/

/-- The states in which an operation of TRAIN_START is accepted. -/
def startAccepted (op : Nat) (st : PortState) : Bool :=
  match op with
  | 0 => st == .muted
  | 1 => st != .down
  | 2 => st != .down && st != .muted
  | _ => st == .traffic

/-- TRAIN_START. -/
def trainStart (rq : Req) (s : State) : State :=
  let p := pport rq 0
  let op := pf rq 0 29 27
  commandOk 0x2801 rq [badAt [(decide (3 < op) || pf rq 0 26 0 != 0, 0)]]
    (fun s => [(!startAccepted op s.ports[p].tr.state, badState)])
    (fun s =>
      match op with
      | 0 => startAcquire p s
      | 1 => enterMuted p (modTr p (fun t => { t with lastFail := 14 }) s)
      | 2 => trainFail p 14 true false s
      | _ => retune p s) s

/-- TRAIN_START. -/
def execTrainStart (rq : Req) (s : State) : Outcome := .next (trainStart rq s)

/-! ### TRAIN_POLICY_SET (R256) -/

/-- Checks of TRAIN_POLICY_SET. -/
def policyChecks (rq : Req) : List (Bool × Answer) :=
  let f := pf rq
  let tgt := sgn 16 (f 2 31 16)
  let low := sgn 16 (f 2 15 0)
  let out := fun (v : Int) => decide (v < -200) || decide (500 < v)
  [badAt [(f 0 24 22 == 0 || f 0 21 17 == 0 || f 0 16 0 != 0, 0),
    (decide (224 < f 1 31 24) || decide (224 < f 1 23 16) || decide (f 1 23 16 < f 1 31 24) || decide (16 < f 1 15 11) || f 1 10 0 != 0, 1),
    (out tgt || out low || decide (tgt < low), 2),
    (decide (f 3 31 20 < 100) || decide (4000 < f 3 31 20) || decide (f 3 19 8 < 100) || decide (4000 < f 3 19 8) ||
      f 3 7 0 == 0 || decide (200 < f 3 7 0), 3),
    (f 4 19 12 == 0 || f 4 11 0 != 0, 4)]]

/-- TRAIN_POLICY_SET. -/
def trainPolicySet (rq : Req) (s : State) : State :=
  let p := pport rq 0
  let q := Vector.ofFn fun (i : Fin 5) => if i.val = 0 then wd (pf rq 0 29 0) else par rq i.val
  commandOk 0x2803 rq (policyChecks rq) (fun _ => []) (fun s => modTr p (fun t => { t with policy := q }) s) s

/-- TRAIN_POLICY_SET. -/
def execTrainPolicySet (rq : Req) (s : State) : Outcome := .next (trainPolicySet rq s)

/-! ### TRAIN_STATUS (R257) -/

/-- The pending commit whose N is reported: that of the transmitted direction first. -/
def pendingCommit (t : Train) : Option Commit :=
  match t.txCommit with
  | some c => some c
  | none => t.rxCommit

/-- Codes of the phases (R257). -/
def Phase.code : Phase → Nat
  | .none => 0 | .acquire => 1 | .capability => 2 | .probe => 3 | .select => 4 | .tune => 5 | .commit => 6 | .track => 7

/-- SECTION 0. -/
def trainSection0 (s : State) (p : LPort) : List Word :=
  let x := s.ports[p]
  let t := x.tr
  let al := fun b => b2n (alarmOn s (.line p) b)
  let n := match pendingCommit t with
    | some c => c.n
    | none => 0
  [word [(31, 29, t.state.code), (28, 26, t.phase.code), (25, 22, t.lastFail.toNat), (21, 18, dGen t.txNow), (17, 14, dGen t.rxNow),
      (13, 13, al 10), (12, 12, al 11), (11, 11, al 12), (10, 10, al 13), (9, 9, al 14), (8, 8, al 15),
      (7, 7, b2n x.sf.farSrdi), (6, 6, b2n (pendingCommit t).isSome), (5, 5, al 16), (4, 4, al 17)],
   t.txFmt, t.rxFmt, word [(31, 16, t.qMargin.toNat), (15, 0, t.farQMargin.toNat)],
   word [(31, 16, t.rtt.toNat), (15, 11, reqSlots s p), (10, 6, t.farReqSlots.toNat)], x.tr2.trainTime,
   wd (psHi n), word [(31, 16, psLo n)], x.tr2.trainFail,
   word [(31, 24, x.tr2.commitLate.toNat), (23, 16, x.tr2.commitUnconf.toNat), (15, 8, x.tr2.commitAbort.toNat), (7, 0, x.tr2.commitRevert.toNat)],
   x.tr2.holdoverEvt]

/-- SECTION 1. -/
def trainSection1 (s : State) (p : LPort) : List Word :=
  let l := s.ports[p].sf.ledger
  let own := ownEntry s (ledgerMargin s p) (ledgerCount l)
  let all := own :: (l.toList.filter fun w => bit w 31)
  let ms := (all.map fun w => fld w 14 0).filter (· != 0x4000)
  let least := match ms.map (sgn 15) with
    | [] => 0xC000
    | m :: rest => unsgn 16 (rest.foldl min m)
  word [(31, 16, least), (4, 0, ledgerCount l + 1)] :: l.toList ++ [own]

/-- What TRAIN_STATUS answers. -/
def trainStatusAnswer (rq : Req) : State → State :=
  answerReply 0x2802 rq fun s => if pf rq 0 29 24 = 0 then trainSection0 s (pport rq 0) else trainSection1 s (pport rq 0)

/-- TRAIN_STATUS (R13, R257). -/
def trainStatus (rq : Req) (s : State) : State :=
  report (.port (pport rq 0)) 0x2802 rq [badAt [(decide (1 < pf rq 0 29 24) || pf rq 0 23 0 != 0, 0)]] (trainStatusAnswer rq) s

/-- TRAIN_STATUS. -/
def execTrainStatus (rq : Req) (s : State) : Outcome := .next (trainStatus rq s)

end Sys2Proof.Machine
end

