-- ==== Sys2Proof/Machine/Mapping.lean ====
section
/-! DEFINITION. Client mapping: the crossbar (R273 to R275), what a port sends into its slots, MAP_CLIENT_ADD, MAP_CLIENT_REMOVE, MAP_REGEN_PAIR and MAP_STATUS. -/

namespace Sys2Proof.Machine

/-! ### The crossbar (R266, R273, R274) -/

/-- Slots in a mask. -/
def slotCount (m : BitVec 16) : Nat := ((List.range 16).filter fun i => m.getLsbD i).length

/-- Lowest slot of a mask, 0 when it is empty. -/
def lowestSlot (m : BitVec 16) : Nat := ((List.range 16).find? fun i => m.getLsbD i).getD 0

/-- Lanes of a client (R266). -/
def clientLanes (s : State) (c : Client) : List HLane :=
  match lanesOf c.type.toNat (fld s.lanes[c.first].w1 31 30) with
  | some n => (List.finRange 32).filter fun k => decide (c.first.val ≤ k.val) && decide (k.val < c.first.val + n)
  | none => [c.first]

/-- The client that starts at a lane, unless its removal has begun. -/
def clientAt (s : State) (k : HLane) : Option Client := s.map.clients.find? fun c => c.first == k && c.rxOn

/-- Ingress of a client fails (R269). -/
def ingressFail (s : State) (c : Client) : Bool :=
  !c.aligned || !isOn s (.ho (octet c.first)) || unitDown s (.ho (octet c.first)) || (clientLanes s c).any fun k => s.lanes[k].los || s.lanes[k].cdr || s.lanes[k].train == 1

/-- Superframes until the target of an event. -/
def untilTarget (s : State) (e : DialEv) : Int := psfnDiff e.target (refCount s e.ref)

/-- The drop mask of a port, counting changes that the Dial holds for a boundary at most `ahead` superframes ahead
(R281). -/
def dropAhead (s : State) (p : LPort) (ahead : Int) : Nat :=
  s.dial.evs.foldl (fun m e =>
    if e.waits && e.exact && e.opcode == 0x5003 && e.ref == rxRef p && untilTarget s e ≤ ahead then
      (if p.val % 2 = 0 then fld (e.params.getD 1 0) 31 16 else fld (e.params.getD 1 0) 15 0)
    else m) (dropMask s p)

/-- The slots of a client may be connected (R274). -/
def slotsAllowed (s : State) (p : LPort) (slots : BitVec 16) (ahead : Int) : Bool :=
  !regen s p ||
    (let own := dropAhead s p ahead
     let other := dropAhead s (mate p) ahead
     let eq := fld s.ports[mate p].sf.eqWord 15 0
     (List.range 16).all fun i => !slots.getLsbD i || (own / 2 ^ i % 2 == 1 && (other / 2 ^ i % 2 == 1 || eq / 2 ^ i % 2 == 0)))

/-! ### What a port sends into its slots (R222, R275, R281) -/

/-- Clients enter the slots of a port: its transmitter carries on in the working format (R222, R238). -/
def inPayload (s : State) (p : LPort) : Bool :=
  (s.ports[p].tr.state == .traffic || s.ports[p].tr.state == .holdover) && dMod s.ports[p].tr.txNow != 15

/-- The client that is connected to slot `i` as sent by a port. -/
def slotClient (s : State) (p : LPort) (i : Nat) : Option Client :=
  if inPayload s p then s.map.clients.find? fun c => c.txOn && c.port == p && c.slots.getLsbD i else none

/-- The format in use carries the client (R281). -/
def clientCarried (s : State) (c : Client) : Bool :=
  c.txOn && inPayload s c.port && decide (topSlot c.slots.toNat ≤ slotsCarried s.ports[c.port].tr.txNow)

/-! ### GROOM_SPLIT (R251) -/

/-- Four-bit entry `i` of two words (R44). -/
def nibble (v : Vector Word 2) (i : Nat) : Nat := fld (if i < 8 then v[0] else v[1]) (31 - 4 * (i % 8)) (28 - 4 * (i % 8))

/-- SLOT_TYPE or SLOT_LEAD of a slot differs from the configured client's (R270). (DEDUCED, notes/assumptions 60) -/
def clientDiffers (s : State) (c : Client) : Bool :=
  let f := s.ports[c.port].sf
  (slotsIn c).any fun i => nibble f.types i.val != c.type.toNat + 1 || nibble f.leads i.val != lowestSlot c.slots

/-- The slots received on a port that its drop mask takes only in part from some client. -/
def groomSplit (s : State) (p : LPort) : Bool :=
  let f := s.ports[p].sf
  let drop := dropMask s p
  let on := fun (i : Nat) => fld f.eqWord 15 0 / 2 ^ i % 2 == 1
  let dropped := fun (i : Nat) => drop / 2 ^ i % 2 == 1
  regen s p && (List.range 16).any fun i => (List.range 16).any fun j =>
    on i && on j && nibble f.leads i == nibble f.leads j && dropped i && !dropped j

/-- GROOM_SPLIT is raised (R251). -/
def evalGroom (p : LPort) (s : State) : State := raiseAlarm (.line p) 17 (groomSplit s p) s

/-- CLIENT_PENDING of a client follows the format in use (R281). -/
def evalPending (c : Client) (s : State) : State :=
  setAlarm (.host c.first) 10 (c.txOn && decide (slotsCarried s.ports[c.port].tr.txNow < topSlot c.slots.toNat)) s

/-! ### MAP_CLIENT_ADD (R280, R281, R288) -/

/-- FIRST_LANE of a MAP_CLIENT_ADD. -/
def addLane (ps : List Word) : HLane := Fin.ofNat 32 (fld (ps.getD 0 0) 28 24)
/-- PORT of a MAP_CLIENT_ADD. -/
def addPort (ps : List Word) : LPort := Fin.ofNat 4 (fld (ps.getD 0 0) 23 22)
/-- LINE_SLOTS of a MAP_CLIENT_ADD. -/
def addSlots (ps : List Word) : BitVec 16 := BitVec.ofNat 16 (fld (ps.getD 0 0) 15 0)
/-- TYPE of a MAP_CLIENT_ADD. -/
def addType (ps : List Word) : Nat := fld (ps.getD 0 0) 31 29

/-- Parameter checks of MAP_CLIENT_ADD. -/
def mapAddChecks (ps : List Word) : List (Bool × Answer) :=
  [badAt [(decide (4 < addType ps) || fld (ps.getD 0 0) 21 16 != 0 || slotCount (addSlots ps) != slotsOf (addType ps), 0)]]

/-- The lanes that the client would use. -/
def addLanes (s : State) (ps : List Word) : Option (List HLane) :=
  let f := addLane ps
  let rate := fld s.lanes[f].w1 31 30
  match lanesOf (addType ps) rate with
  | none => none
  | some n =>
    let l := (List.finRange 32).filter fun k => decide (f.val ≤ k.val) && decide (k.val < f.val + n)
    if f.val % n = 0 && l.length == n && l.all (fun k => fld s.lanes[k].w1 31 30 == rate) then some l else none

/-- State checks of MAP_CLIENT_ADD for a boundary `ahead` superframes ahead. -/
def mapAddStates (ps : List Word) (ahead : Int) (s : State) : List (Bool × Answer) :=
  match addLanes s ps with
  | none => [(true, badState)]
  | some l =>
    let used := s.map.clients.any fun c =>
      (clientLanes s c).any (l.contains ·) || (c.port == addPort ps && c.slots &&& addSlots ps != 0)
    let looped := l.any (laneLooped s) || loopDigital s (addPort ps) || s.map.loopPayload.getLsbD (addPort ps).val
    [(looped || used || !slotsAllowed s (addPort ps) (addSlots ps) ahead, badState)]

/-- The receiving port delivers nothing to a client now, by the state and the last good path fields (R270). -/
def egressBlocked (s : State) (c : Client) : Bool :=
  let x := s.ports[c.port]
  s.map.stopped || x.tr.state != .traffic || bit x.sf.pathWord 7 || timFailed s c.port ||
    (List.range 16).any fun i => c.slots.getLsbD i &&
      (let t := nibble x.sf.types i
       t == 0 || decide (5 < t) || decide (slotsCarried x.tr.rxNow ≤ i))

/-- The client enters the crossbar; its transmit side is in force when `tx`. (DEDUCED, notes/assumptions 97) -/
def addClient (ps : List Word) (tx : Bool) (s : State) : State :=
  let c : Client := { type := BitVec.ofNat 3 (addType ps), first := addLane ps, port := addPort ps, slots := addSlots ps,
                      txOn := tx, rxOn := true }
  let s := modMap (fun m => { m with clients := m.clients ++ [c] }) s
  evalPending c (eachOf (clientLanes s c) (fun k => setAlarm (.host k) 2 true) (setRxFail c.first (egressBlocked s c) s))

/-- The transmit side of a client takes effect (R280): an EXACT event of the host adds the client whole. -/
def mapAddExact (ps : List Word) (s : State) : State :=
  let k := addLane ps
  if (clientAt s k).isSome then
    let s := modClients (·.first == k) (fun c => { c with txOn := true }) s
    match clientAt s k with
    | some c => evalPending c s
    | none => s
  else addClient ps true s

/-- MAP_CLIENT_ADD. -/
def mapClientAdd (rq : Req) (s : State) : State :=
  let ps := rq.params
  let p := addPort ps
  let live : Bool := s.ports[p].tr.state == .traffic
  command 0x5001 rq (mapAddChecks ps) (mapAddStates ps (if live then 64 else 0))
    (fun s =>
      if live then enterImplicit 0x5001 rq ps [] (txRef p) (if poolFull s then s else addClient ps false s)
      else reply 0x5001 rq (okay []) (addClient ps true s)) s

/-- MAP_CLIENT_ADD. -/
def execMapClientAdd (rq : Req) (s : State) : Outcome := .next (mapClientAdd rq s)

/-! ### MAP_CLIENT_REMOVE (R280, R281, R289) -/

/-- FIRST_LANE of a MAP_CLIENT_REMOVE. -/
def removeLane (ps : List Word) : HLane := Fin.ofNat 32 (fld (ps.getD 0 0) 31 27)

/-- An add of a client at a lane waits in the Dial. -/
def addWaits (k : HLane) (e : DialEv) : Bool := e.waits && e.opcode == 0x5001 && addLane e.params == k

/-- State checks of MAP_CLIENT_REMOVE. -/
def mapRemoveStates (ps : List Word) (s : State) : List (Bool × Answer) :=
  let k := removeLane ps
  [((clientAt s k).isNone && !s.dial.evs.any (addWaits k), badState)]

/-- The client leaves the crossbar, and its alarms end with it; HOST_ALIGN stands on each of its lanes (R457). -/
def dropClient (k : HLane) (s : State) : State :=
  let lanes := (s.map.clients.filter (·.first == k)).flatMap (clientLanes s)
  let s := modMap (fun m => { m with clients := m.clients.filter fun c => c.first != k }) s
  eachOf lanes (fun k => setAlarm (.host k) 2 false) (eachOf [8, 9, 10] (fun b => setAlarm (.host k) b false) s)

/-- The receive side of a client stops (R289). -/
def stopClient (k : HLane) (s : State) : State :=
  eachOf [8, 9] (fun b => setAlarm (.host k) b false)
    (modClients (·.first == k) (fun c => { c with rxOn := false, egress := false, slipped := false }) s)

/-- Adds of a client that wait in the Dial are cancelled (R281). (DEDUCED, notes/assumptions 93) -/
def cancelAdds (k : HLane) (s : State) : State := eachOf (s.dial.evs.filter (addWaits k)) (abortEvent · 4) s

/-- MAP_CLIENT_REMOVE. -/
def mapClientRemove (rq : Req) (s : State) : State :=
  let ps := rq.params
  let k := removeLane ps
  command 0x5002 rq [badAt [(fld (ps.getD 0 0) 26 0 != 0, 0)]] (mapRemoveStates ps)
    (fun s =>
      match clientAt s k with
      | none => reply 0x5002 rq (okay []) (cancelAdds k s)
      | some c =>
        if !c.txOn then reply 0x5002 rq (okay []) (dropClient k (cancelAdds k s))
        else if s.ports[c.port].tr.state == .traffic then
          enterImplicit 0x5002 rq ps [] (txRef c.port) (if poolFull s then s else stopClient k s)
        else reply 0x5002 rq (okay []) (dropClient k s)) s

/-- MAP_CLIENT_REMOVE. -/
def execMapClientRemove (rq : Req) (s : State) : Outcome := .next (mapClientRemove rq s)

/-! ### MAP_REGEN_PAIR (R19, R138, R251, R254) -/

/-- PAIR of a MAP_REGEN_PAIR: its lower-numbered port. -/
def pairLow (ps : List Word) : LPort := if bit (ps.getD 0 0) 31 then 2 else 0

/-- Parameter checks of MAP_REGEN_PAIR. -/
def regenChecks (ps : List Word) : List (Bool × Answer) :=
  [badAt [(fld (ps.getD 0 0) 29 0 != 0, 0), (!bit (ps.getD 0 0) 30 && ps.getD 1 0 != 0, 1)]]

/-- State checks: a change of ROLE needs both ports in DOWN or MUTED. -/
def regenStates (ps : List Word) (s : State) : List (Bool × Answer) :=
  let p := pairLow ps
  let still := fun q => s.ports[q].tr.state == .down || s.ports[q].tr.state == .muted
  [(regen s p != bit (ps.getD 0 0) 30 && !(still p && still (mate p)), badState)]

/-- Clients of a port whose slots are no longer its add and drop slots are disconnected (R22, R23). (DEDUCED,
notes/assumptions 91) -/
def pruneClients (p : LPort) (s : State) : State :=
  let out := fun (c : Client) => c.port == p && regen s p && (slotsIn c).any fun i => dropMask s p / 2 ^ i.val % 2 == 0
  eachOf (s.map.clients.filter out) (fun c => dropClient c.first) s

/-- The drop mask of a port takes its value (R251). -/
def setDrop (p : LPort) (m : Nat) (s : State) : State :=
  let i := pairOf p
  pruneClients p <| evalGroom p (modMap (fun x =>
    if p.val % 2 = 0 then { x with dropLo := vset x.dropLo i (BitVec.ofNat 16 m) }
    else { x with dropHi := vset x.dropHi i (BitVec.ofNat 16 m) }) s)

/-- The mask that a MAP_REGEN_PAIR gives a port of its pair. -/
def newDrop (ps : List Word) (p : LPort) : Nat := if p.val % 2 = 0 then fld (ps.getD 1 0) 31 16 else fld (ps.getD 1 0) 15 0

/-- The effect of an EXACT MAP_REGEN_PAIR: the drop mask of the port that its reference names (R297). -/
def regenExact (ps : List Word) (r : RefCode) (s : State) : State := setDrop (refPort r) (newDrop ps (refPort r)) s

/-- What a pair that becomes regenerating takes besides its role: one symbol rate, the smaller of its ports' (R21), C_LAT
24 (R195), and no client outside its drop masks (R22, R23). Which of two rates it takes the manual does not say. (DESIGN
CHOICE, notes/assumptions 145) -/
def joinPair (p : LPort) (s : State) : State :=
  let rate := min s.ports[p].tr.rate.toNat s.ports[mate p].tr.rate.toNat
  eachOf [p, mate p] (fun q s =>
    pruneClients q (modPp q (fun x => { x with cLat := 24 }) (setRate q rate s))) s

/-- The pair takes a role. When both ports are declared in one group, the higher one leaves it (R138). (DEDUCED, notes/assumptions 91) -/
def setRole (p : LPort) (on : Bool) (s : State) : State :=
  if regen s p == on then s
  else
    let s := modMap (fun m => { m with regen := vset m.regen (pairOf p) on }) s
    let s := eachOf [p, mate p] (fun q s =>
      modFront q (fun f => { f with steer := 0, holdover := false })
        (modSf q (fun f => { f with kRegen := none, everFwd := false }) s)) s
    let s := eachOf [p, mate p] (fun q s =>
      modDial (fun d => { d with offset := vset (vset d.offset (rxRef q) none) (txRef q) none }) s) s
    let both : Bool := s.ports[p].nlc.group != 0 && s.ports[mate p].nlc.group == s.ports[p].nlc.group
    let s := if on then joinPair p s else s
    nlcEval (if on && both then modNlc (mate p) (fun n => { n with group := 0 }) s else s)

/-- Drop masks that a MAP_REGEN_PAIR must schedule: those of ports in TRAFFIC. -/
def dropsScheduled (rq : Req) (s : State) : List LPort :=
  [pairLow rq.params, mate (pairLow rq.params)].filter fun q =>
    newDrop rq.params q != dropMask s q && s.ports[q].tr.state == .traffic

/-- A drop mask changes: at once, or by an EXACT event when its port is in TRAFFIC. (DESIGN CHOICE, notes/assumptions 92) -/
def changeDrop (rq : Req) (p : LPort) (s : State) : State :=
  if newDrop rq.params p = dropMask s p then s
  else if s.ports[p].tr.state == .traffic then
    enterEvent { implicitEvent s 0x5003 rq rq.params [] (rxRef p) with implicit := none } s
  else setDrop p (newDrop rq.params p) s

/-- MAP_REGEN_PAIR. The reply is ACCEPTED when a change of a mask is scheduled. With no room in the event pool for what must
be scheduled it answers RESOURCE and changes nothing. (DESIGN CHOICE, notes/assumptions 92) -/
def mapRegenPair (rq : Req) (s : State) : State :=
  let p := pairLow rq.params
  command 0x5003 rq (regenChecks rq.params) (regenStates rq.params)
    (fun s =>
      let sched := dropsScheduled rq s
      if !sched.isEmpty && decide (poolSize < s.dial.evs.length + sched.length) then reply 0x5003 rq { st := .resource } s
      else
        let s := changeDrop rq (mate p) (changeDrop rq p (setRole p (bit (par rq 0) 30) s))
        reply 0x5003 rq { st := if sched.isEmpty then .ok else .accepted } s) s

/-- MAP_REGEN_PAIR. -/
def execMapRegenPair (rq : Req) (s : State) : Outcome := .next (mapRegenPair rq s)

/-! ### MAP_STATUS (R290) -/

/-- A transmit mapping event of a client waits in the Dial. -/
def mapWaits (k : HLane) (e : DialEv) : Bool :=
  e.waits && e.exact && ((e.opcode == 0x5001 && addLane e.params == k) || (e.opcode == 0x5002 && removeLane e.params == k))

/-- The slot entry of a client. -/
def slotEntry (s : State) (c : Client) : Nat :=
  let carried := c.txOn && decide (topSlot c.slots.toNat ≤ slotsCarried s.ports[c.port].tr.txNow)
  let mism := alarmOn s (.host c.first) 9
  let sendsFail := clientCarried s c && !s.map.loopPayload.getLsbD c.port.val && ingressFail s c
  32768 + c.first.val * 1024 + c.type.toNat * 128 + b2n carried * 64 + b2n (c.rxOn && c.egress && !c.rxFail && !clientDiffers s c) * 32 +
    b2n sendsFail * 16 + b2n (alarmOn s (.host c.first) 8) * 8 + b2n mism * 4 +
    b2n (s.dial.evs.any (mapWaits c.first)) * 2

/-- The entry of slot `i` of a port. -/
def slotWord (s : State) (p : LPort) (i : Nat) : Nat :=
  match s.map.clients.find? (fun c => c.port == p && c.slots.getLsbD i) with
  | some c => slotEntry s c
  | none => 0

/-- The ten words of MAP_STATUS. -/
def mapWords (s : State) (p : LPort) : List Word :=
  ((List.range 8).map fun i => word [(31, 16, slotWord s p (2 * i)), (15, 0, slotWord s p (2 * i + 1))]) ++
    [word [(31, 27, slotsCarried s.ports[p].tr.txNow)], s.ports[p].tr2.groomBlocked]

/-- What MAP_STATUS answers. -/
def mapStatusAnswer (rq : Req) : State → State := answerReply 0x5004 rq (mapWords · (pport rq 0))

/-- MAP_STATUS (R13, R290). -/
def mapStatus (rq : Req) (s : State) : State :=
  report (.port (pport rq 0)) 0x5004 rq [badAt [(pf rq 0 29 0 != 0, 0)]] (mapStatusAnswer rq) s

/-- MAP_STATUS. -/
def execMapStatus (rq : Req) (s : State) : Outcome := .next (mapStatus rq s)

end Sys2Proof.Machine
end

