-- ==== Sys2Proof/Machine/Regulator.lean ====
section
/-! DEFINITION. The commands and events of the Regulator (R317 to R336): CAL_RUN, CAL_POLICY_SET,
CAL_TABLE_READ, CAL_TABLE_WRITE, CAL_STATUS, the 1 ms evaluation, the end of a run and its retry. -/

namespace Sys2Proof.Machine

/-- A signed field of 16 bits. -/
def s16 (v : Int) : Nat := unsgn 16 v

/-- Port temperature in 0.1 °C: the mean of the four sensors (R323). (DEDUCED, notes/assumptions 103) -/
def calTemp (c : Cal) : Int := rdiv c.temp 4

/-! ### CAL_RUN (R332) -/

/-- The states of R319 in which a foreground run may start. -/
def foregroundOk (s : State) (p : LPort) : Bool :=
  s.ports[p].tr.state == .down || s.ports[p].tr.state == .muted || s.ports[p].front.changing

/-- CAL_RUN (R332). -/
def calRun (rq : Req) (s : State) : State :=
  let p := pport rq 0
  let op := pf rq 0 29 28
  let items := pf rq 0 27 22
  commandOk 0x7001 rq
    [badAt [(op == 3 || pf rq 0 21 0 != 0 || (op < 2 && items == 0) || (op == 2 && items != 0), 0)]]
    (fun s => [(op < 2 && calBusy s p, busy), (op == 1 && !foregroundOk s p, badState),
               (op == 2 && !calBusy s p, badState)])
    (fun s => if op = 2 then calAbort p s
      else calStart p (if op = 0 then .background else .foreground) (BitVec.ofNat 6 items) 5 s) s

/-- CAL_RUN. -/
def execCalRun (rq : Req) (s : State) : Outcome := .next (calRun rq s)

/-! ### CAL_POLICY_SET (R333) -/

/-- Point temperature `i` of CAL_POLICY_SET in °C. -/
def calPointArg (rq : Req) (i : Nat) : Nat :=
  pf rq (1 + i / 4) (31 - 8 * (i % 4)) (24 - 8 * (i % 4))

/-- Point `i` breaks the range or the strict rise. -/
def calPointBad (rq : Req) (i : Nat) : Bool :=
  decide (125 < calPointArg rq i) || (i != 0 && decide (calPointArg rq i ≤ calPointArg rq (i - 1)))

/-- New point temperatures: every point becomes invalid and D stays (R326); temperatures equal to those in
force change nothing. -/
def setPoints (ts : Vector Int 8) (c : Cal) : Cal :=
  if (c.points.map (·.temp)) == ts then c
  else { c with points := Vector.ofFn fun i => { c.points[i] with temp := ts[i], valid := false } }

/-- CAL_POLICY_SET (R333). -/
def calPolicySet (rq : Req) (s : State) : State :=
  let p := pport rq 0
  let set := bit (par rq 0) 28
  let dt := pf rq 0 27 20
  commandOk 0x7002 rq
    [badAt [(dt < 5 || 100 < dt || pf rq 0 19 0 != 0, 0),
            (set && (List.range 4).any (calPointBad rq), 1),
            (set && ((List.range 4).map (· + 4)).any (calPointBad rq), 2)]]
    (fun s => [(set && calBusy s p, busy)])
    (modCal p fun c =>
      let c := { c with auto := bit (par rq 0) 29, deltaT := BitVec.ofNat 8 dt }
      if set then setPoints (Vector.ofFn fun i => 10 * (calPointArg rq i.val : Int)) c else c) s

/-- CAL_POLICY_SET. -/
def execCalPolicySet (rq : Req) (s : State) : Outcome := .next (calPolicySet rq s)

/-! ### Calibration blocks (R334, R335) -/

/-- Words 2 to 781 of a calibration block. -/
def calBody (v : CalVals) : List Word :=
  ((List.range 520).map fun i => word [(31, 23, unsgn 9 (v.timing.getD i 0)), (22, 12, unsgn 11 (v.gain.getD i 0)),
      (11, 3, unsgn 9 (v.offset.getD i 0))]) ++
  ((List.range 256).map fun i => word [(31, 23, unsgn 9 (v.skew.getD i 0)), (22, 14, unsgn 9 (v.duty.getD i 0))]) ++
  [word [(31, 16, s16 v.adcXq), (15, 0, s16 v.adcYi)], word [(31, 16, s16 v.adcYq)],
   word [(31, 16, s16 v.pol)], word [(31, 16, s16 v.iqX), (15, 0, s16 v.iqY)]]

/-- The block of CAL_TABLE_READ (R334). -/
def calBlock (c : Cal) (working : Bool) (point : Fin 8) : List Word :=
  let x := c.points[point]
  let ws :=
    if working then
      word [(31, 24, 1), (20, 20, 1), (19, 19, 1)] :: word [(31, 16, s16 (calTemp c))] :: calBody c.working
    else
      word [(31, 24, 1), (23, 21, point.val), (20, 20, b2n x.valid)] ::
        word [(31, 16, s16 x.temp), (15, 0, s16 x.tRun)] :: calBody x.vals
  ws ++ [crc32c ws]

/-- What CAL_TABLE_READ answers. -/
def calReadAnswer (rq : Req) : State → State :=
  answerBulk 0x7003 rq (pf rq 0 23 0) fun s =>
    calBlock s.ports[pport rq 0].cal (bit (par rq 0) 26) (Fin.ofNat 8 (pf rq 0 29 27))

/-- CAL_TABLE_READ (R13, R334). -/
def calTableRead (rq : Req) (s : State) : State :=
  report (.port (pport rq 0)) 0x7003 rq [badAt [(pf rq 0 25 24 != 0 || bulkBad (pf rq 0 23 0) 783, 0)]] (calReadAnswer rq) s

/-- CAL_TABLE_READ. -/
def execCalTableRead (rq : Req) (s : State) : Outcome := .next (calTableRead rq s)

/-- Values of a calibration block. -/
def calParse (ws : List Word) : CalVals :=
  let w := fun i => ws.getD i 0
  let h := fun i => sgn 16 (fld (w i) 31 16)
  let l := fun i => sgn 16 (fld (w i) 15 0)
  { timing := (List.range 520).map fun i => sgn 9 (fld (w (2 + i)) 31 23)
    gain := (List.range 520).map fun i => sgn 11 (fld (w (2 + i)) 22 12)
    offset := (List.range 520).map fun i => sgn 9 (fld (w (2 + i)) 11 3)
    skew := (List.range 256).map fun i => sgn 9 (fld (w (522 + i)) 31 23)
    duty := (List.range 256).map fun i => sgn 9 (fld (w (522 + i)) 22 14)
    adcXq := h 778, adcYi := l 778, adcYq := h 779, pol := h 780, iqX := h 781, iqY := l 781 }

/-- A value lies outside its range in R315. -/
def calOutside (v : CalVals) : Bool :=
  (calEntries v).any fun e => decide (e.2 < -(calLimit e.1)) || decide (calLimit e.1 < e.2)

/-- Parameter checks of CAL_TABLE_WRITE against the block `ws` (R335). -/
def calWriteChecks (ps ws : List Word) : List (Bool × Answer) :=
  let w := ps.getD 0 0
  let inv := bit w 26
  [badAt [(fld w 25 24 != 0 || (!inv && bulkBad (fld w 23 0) 783), 0), (ps.getD 1 0 != 783, 1)],
   (!inv && (fld (ws.getD 0 0) 31 24 != 1 || !blockCrc ws || !bit (ws.getD 0 0) 20 || bit (ws.getD 0 0) 19 ||
     calOutside (calParse ws)), badParam 0xFF)]

/-- State check of CAL_TABLE_WRITE (R335). -/
def calWriteStates (ps ws : List Word) (s : State) : List (Bool × Answer) :=
  let w := ps.getD 0 0
  let x := s.ports[(Fin.ofNat 4 (fld w 31 30) : LPort)].cal.points[(Fin.ofNat 8 (fld w 29 27) : Fin 8)]
  [(!bit w 26 && sgn 16 (fld (ws.getD 1 0) 31 16) != x.temp, badState)]

/-- The effect of CAL_TABLE_WRITE (R326, R335): the point, D 0 and new targets. -/
def calWriteApply (ps ws : List Word) (s : State) : State :=
  let w := ps.getD 0 0
  let p : LPort := Fin.ofNat 4 (fld w 31 30)
  let i : Fin 8 := Fin.ofNat 8 (fld w 29 27)
  calRetarget p (modCal p (fun c =>
    let x := c.points[i]
    let x := if bit w 26 then { x with valid := false }
             else { x with valid := true, tRun := 0, vals := calParse ws }
    { c with points := vset c.points i x, resid := calMap1 (fun _ _ => 0) c.resid }) s)

/-- An EXACT write: its first tap steps are applied at the target boundary, unless steps were pending there
already (R335). (DEDUCED, notes/assumptions 102) -/
def calWriteExact (ps ws : List Word) (s : State) : State :=
  let p : LPort := Fin.ofNat 4 (fld (ps.getD 0 0) 31 30)
  let was := s.ports[p].cal.stepping
  let s := calWriteApply ps ws s
  if was then s else modCal p (fun c => if c.stepping then calPace c else c) s

/-- The block that CAL_TABLE_WRITE reads. -/
def calWriteData (ps : List Word) (s : State) : List Word :=
  if bit (ps.getD 0 0) 26 then [] else bulkRead s.bulk (fld (ps.getD 0 0) 23 0) 783

/-- The reference that paces the tap steps of a port (R33). -/
def calRef (s : State) (p : LPort) : RefCode := if s.ports[p].sf.lock then rxRef p else txRef p

/-- CAL_TABLE_WRITE (R335): on a port in TRAFFIC it is scheduled by R32. -/
def calTableWrite (rq : Req) (s : State) : State :=
  let ws := calWriteData rq.params s
  let p := pport rq 0
  command 0x7004 rq (calWriteChecks rq.params ws) (calWriteStates rq.params ws)
    (fun s =>
      if s.ports[p].tr.state == .traffic then enterImplicit 0x7004 rq rq.params ws (calRef s p) s
      else reply 0x7004 rq (okay []) (calWriteApply rq.params ws s)) s

/-- CAL_TABLE_WRITE. -/
def execCalTableWrite (rq : Req) (s : State) : Outcome := .next (calTableWrite rq s)

/-! ### CAL_STATUS (R336) -/

/-- Code of a run's method. -/
def CalRunKind.code : CalRunKind → Nat
  | .none => 0 | .background => 1 | .foreground => 2

/-- The 12 words of CAL_STATUS (R336). -/
def calReport (s : State) (p : LPort) : List Word :=
  let c := s.ports[p].cal
  let pair := fun (a b : Int) => word [(31, 16, s16 a), (15, 0, s16 b)]
  let valid := (List.finRange 8).foldl (fun a i => a + b2n c.points[i].valid * 2 ^ i.val) 0
  [word [(31, 30, c.run.code), (29, 28, c.last.toNat), (27, 26, c.rejects),
      (25, 25, b2n (alarmOn s (.conv p) 4)), (24, 24, b2n (alarmOn s (.conv p) 5)), (23, 23, b2n c.auto),
      (22, 22, b2n c.stepping), (21, 14, valid), (13, 11, c.trigger.toNat), (10, 5, c.rejectItems.toNat)],
   pair (calTemp c) c.tLast, pair c.sensors[0] c.sensors[1], pair c.sensors[2] c.sensors[3],
   pair c.refs[0] c.refs[1], pair c.refs[2] c.refs[3],
   word [(31, 16, c.pendingSteps), (15, 0, c.runTime.toNat)],
   c.accept, c.reject, c.abort, c.unstable, c.range]

/-- What CAL_STATUS answers. -/
def calStatusAnswer (rq : Req) : State → State := answerReply 0x7005 rq (calReport · (pport rq 0))

/-- CAL_STATUS (R13, R336). -/
def calStatus (rq : Req) (s : State) : State :=
  report (.port (pport rq 0)) 0x7005 rq [badAt [(pf rq 0 29 0 != 0, 0)]] (calStatusAnswer rq) s

/-- CAL_STATUS. -/
def execCalStatus (rq : Req) (s : State) : Outcome := .next (calStatus rq s)

/-! ### Events -/

/-- Some sensor has moved by more than ΔT from its reference (R327). -/
def calMoved (c : Cal) : Bool :=
  c.hasRef && (List.finRange 4).any fun i => decide (c.deltaT.toNat < (c.sensors[i] - c.refs[i]).natAbs)

/-- One more reading of a sensor; its last 16 are kept (R323). -/
def newReadings (readings : Vector Int 4) (c : Cal) : Vector (List Int) 4 :=
  Vector.ofFn fun i => (readings[i] :: c.readings[i]).take 16

/-- The average of a sensor's readings, rounded to 0.1 °C; before the sixteenth, of those taken so far (R323; DEDUCED,
notes/assumptions 103). -/
def sensorMean (l : List Int) : Int := rdiv (l.foldl (· + ·) 0) l.length

/-- The Regulator's temperatures after one more reading of each sensor; a run keeps the T of each evaluation (R323, R325). -/
def calSense (readings : Vector Int 4) (c : Cal) : Cal :=
  let l := newReadings readings c
  let m := l.map sensorMean
  let t := m[0] + m[1] + m[2] + m[3]
  { c with readings := l, sensors := m, temp := t
           runT := if c.run == .none then c.runT else c.runT + t
           runN := if c.run == .none then c.runN else c.runN + 1 }

/-- CAL_TARGET_UPDATE: each sensor is read in 0.1 °C, then the targets, and the temperature trigger (R323, R324,
R327). The converters must be ON for a run. -/
def calTargetUpdate (p : LPort) (readings : Vector Int 4) (s : State) : State :=
  let s := calRetarget p (modCal p (calSense readings) s)
  let c := s.ports[p].cal
  if c.auto && calMoved c && isOn s (.cv p) then calStart p .background calAll 4 s else s

/-- CAL_TARGET_UPDATE. -/
def execCalTargetUpdate (p : LPort) (readings : Vector Int 4) (s : State) : Outcome :=
  .next (calTargetUpdate p readings s)

/-- CAL_RUN_END: the double measurement of the run of the named kind decides (R320). -/
def calRunEnd (p : LPort) (foreground : Bool) (first second : CalVals) (s : State) : State :=
  let c := s.ports[p].cal
  if c.run == (if foreground then .foreground else .background) then
    let bad := calRejects c.items first second
    if bad = 0 then calAccepted p first second s else calRejected p bad s
  else s

/-- CAL_RUN_END. -/
def execCalRunEnd (p : LPort) (foreground : Bool) (first second : CalVals) (s : State) : Outcome :=
  .next (calRunEnd p foreground first second s)

/-- CAL_RETRY: a rejected run starts again with the same items (R321). -/
def calRetryRun (p : LPort) (s : State) : State :=
  let c := s.ports[p].cal
  match c.retry with
  | some k => if c.run == .none then calBegin p k c.items c.trigger s else s
  | none => s

/-- CAL_RETRY. -/
def execCalRetry (p : LPort) (s : State) : Outcome := .next (calRetryRun p s)

end Sys2Proof.Machine
end

