-- ==== Sys2Proof/Machine/Exchange.lean ====
section
/-! DEFINITION. What the boundary of a reference does for the EXACT events that are due there: the working and shadow
copies are exchanged at the first symbol (R31, R300 to R302). -/

namespace Sys2Proof.Machine

/-- Change one event. -/
def modEv (idx : Nat) (f : DialEv → DialEv) (s : State) : State := modEvs (fun e => if e.idx == idx then f e else e) s

/-- The core of an event runs or is held failed; while it restarts, the event waits (R515). -/
def coreTakes (e : DialEv) (s : State) : Bool := coreAnswer s (coreOfEv s e) != some busy

/-- The event can be released at this boundary of its reference: its target is reached or passed, an EXACT event's
staging is complete, and a PROMPT event's core runs (R300, R305, R515). -/
def isDue (s : State) (e : DialEv) : Bool :=
  e.waits && e.phase != .held && decide (psfnDiff e.target (refCount s e.ref) ≤ 0) &&
    (if e.exact then e.phase == .staged && e.stagingDone else coreTakes e s)

/-- Rank of R301. -/
def releaseRank (s : State) (e : DialEv) : Nat :=
  if e.late || e.deferred || decide (psfnDiff e.target (refCount s e.ref) < 0) then 0 else if e.exact then 1 else 2

/-- `a` is released before `b` (R301). -/
def releasesFirst (s : State) (a b : DialEv) : Bool :=
  let ra := releaseRank s a
  let rb := releaseRank s b
  if ra != rb then decide (ra < rb)
  else
    let d := if ra = 0 then psfnDiff a.target b.target else 0
    if d = 0 then decide (a.seq < b.seq) else decide (d < 0)

/-- Insert an event in the order of release. -/
def insertRelease (s : State) (e : DialEv) : List DialEv → List DialEv
  | [] => [e]
  | x :: l => if releasesFirst s e x then e :: x :: l else x :: insertRelease s e l

/-- The due events of a reference in the order of release. -/
def dueEvents (r : RefCode) (s : State) : List DialEv :=
  (s.dial.evs.filter fun e => e.ref == r && isDue s e).foldr (insertRelease s) []

/-- The effect of an EXACT event at its boundary (R31, R297). -/
def exactEffect (e : DialEv) (s : State) : State :=
  match e.opcode.toNat with
  | 0x2003 => rxExact e.params s
  | 0x2004 => txExact e.params e.data s
  | 0x2007 => nlcExact e.params s
  | 0x5001 => mapAddExact e.params s
  | 0x5002 => dropClient (removeLane e.params) s
  | 0x5003 => regenExact e.params e.ref s
  | 0x7004 => calWriteExact e.params e.data s
  | _ => s

/-- EXACT events of a reference whose copies are exchanged and that are not released yet. -/
def exchanged (r : RefCode) (s : State) : List DialEv :=
  s.dial.evs.filter fun e => e.ref == r && e.exact && e.phase == .released

/-- An EXACT event is exchanged at count `n` of its reference, LATE when its target is passed (R300, R301). -/
def markExchanged (r : RefCode) (n : Psfn) (e : DialEv) (s : State) : State :=
  modEv e.idx (fun x => { x with
    phase := .released, late := e.late || decide (psfnDiff e.target n < 0), atCount := n, atRef := r }) s

/-- The exchange of one event's copies (R31); a switch that a port controller entered takes effect (R297). -/
def exchangeEvent (n : Psfn) (e : DialEv) (s : State) : State :=
  if e.kind != .stored then runSwitch e.kind n s else exactEffect e s

/-- The EXACT events among the first 64 due at a boundary of a valid reference (R301). -/
def dueExact (r : RefCode) (s : State) : List DialEv :=
  if refValid s r then ((dueEvents r s).take 64).filter (·.exact) else []

/-- The boundary of a reference exchanges the copies of its due EXACT events, in order of release (R31, R302). The
events complete at DIAL_RELEASE. (DEDUCED, notes/assumptions 129) -/
def exchangeDue (r : RefCode) (s : State) : State :=
  let n := refCount s r
  let es := dueExact r s
  eachOf es (exchangeEvent n) (eachOf es (markExchanged r n) s)

end Sys2Proof.Machine
end

