-- ==== Sys2Proof/Machine/Balance.lean ====
section
/-! DEFINITION. The sums of Balance (R199, R200, R207): usable capacity, demand and ceilings, in exact
integers. -/

namespace Sys2Proof.Machine

/-- Ports of the pool (R199). -/
def poolPorts (s : State) : List LPort := allPorts.filter fun p => s.pool.ports[p].inPool

/-- An engine counts in the usable capacity: it is not fenced, and its quad is ON and not agreed for sleep
(R199, R208). An engine whose known-answer test has yet to pass has not joined (R206, R208). -/
def engineCounts (s : State) (e : Engine) : Bool := engineUp s e

/-- 100 times the usable capacity in clocks per µs over the engines that `f` admits (R199). -/
def capacity100 (s : State) (f : Engine → Bool) : Nat :=
  (100 - s.pool.reserve.toNat) * 350 *
    ((((List.finRange 64).filter fun e => engineCounts s e && f e).map fun e => s.pool.engines[e].speed).foldl (· + ·) 0)

/-- Codewords counted in q_p, at least 1 (R200). -/
def histTotal (x : PoolPort) : Nat := max 1 (x.hist.foldl (fun a l => a + l.length) 0)

/-- u(p, c) times `histTotal` (R200). With no codeword closed yet, u is c (DEDUCED, notes/assumptions 25). -/
def iterSum (x : PoolPort) (c : Nat) : Nat :=
  if x.cautious != 0 || x.hist.all (·.isEmpty) then c * histTotal x
  else x.hist.foldl (fun a l => a + (l.map fun i => min i.1 c).foldl (· + ·) 0) 0

/-- Common denominator of the ports' shares. -/
def histDen (s : State) : Nat := (allPorts.map fun p => histTotal s.pool.ports[p]).foldl (· * ·) 1

/-- n_p (8 + 4 u(p, c)) times 2^20 times `histDen` (R199, R200): n_p is codewords × (240 + RATE) × 250 / 2^20
per µs. -/
def needOf (s : State) (p : LPort) (c : Nat) : Nat :=
  let x := s.pool.ports[p]
  match x.report with
  | none => 0
  | some (cw, rate) =>
    cw * (240 + rate.toNat) * 250 * (8 * histTotal x + 4 * iterSum x c) * (histDen s / histTotal x)

/-- The need of the pool at given ceilings, scaled as `needOf`. -/
def needSum (s : State) (c : LPort → Nat) : Nat := ((poolPorts s).map fun p => needOf s p (c p)).foldl (· + ·) 0

/-- A scaled need is within a capacity in hundredths. -/
def fits (s : State) (need cap100 : Nat) : Bool := decide (need * 100 ≤ cap100 * 1048576 * histDen s)

/-- The loop of R200: every reducible port loses one step until the need fits. -/
def ceilLoop (s : State) (cap100 : Nat) : Nat → Vector Nat 4 → Vector Nat 4
  | 0, v => v
  | fuel + 1, v =>
    if fits s (needSum s fun p => v[p]) cap100 then v
    else
      let low := fun (p : LPort) => s.pool.ports[p].inPool && decide (s.pool.ports[p].floor.toNat < v[p])
      if allPorts.any low then ceilLoop s cap100 fuel (Vector.ofFn fun p => if low p then v[p] - 1 else v[p]) else v

/-- Every port at its limit min(CEIL_MAX, C_LAT). -/
def ceilStart (s : State) : Vector Nat 4 :=
  Vector.ofFn fun p => min s.pool.ports[p].ceilMax.toNat s.pool.ports[p].cLat.toNat

/-- BALANCE's answer for the quads that are to leave ON (R207): 0 agrees, 4 POOL_NEED, 5 POOL_CAUTIOUS. -/
def balanceAnswer (s : State) (quads : List (Fin 4)) : Nat :=
  let live := quads.filter fun q => !(enginesOf q).all fun e => s.pool.engines[e].fenced
  if live.isEmpty then 0
  else if !fits s (needSum s fun p => s.pool.ports[p].floor.toNat)
      (capacity100 s fun e => !quads.contains (quadOf e)) then 4
  else if (poolPorts s).any fun p => s.pool.ports[p].cautious != 0 then 5
  else 0

end Sys2Proof.Machine
end

