-- ==== Sys2Proof/Machine/Power.lean ====
section
/-! DEFINITION. Power requests, refusals, transitions and wakes (R410 to R434): the commands of class 0x10
and the events of the power manager. -/

namespace Sys2Proof.Machine

/-- A move of a domain from one state to another. -/
abbrev Move := Dom × PState × PState

/-- The move goes to a lower state. -/
def goesDown (m : Move) : Bool := decide (m.2.1.code < m.2.2.code)
/-- The move goes to a higher state. -/
def goesUp (m : Move) : Bool := decide (m.2.2.code < m.2.1.code)

/-- Wake order of R410. -/
def wakeOrder : List Dom :=
  [.ctl, .mon, .map, .ld 0, .ld 1, .ld 2, .ld 3, .cv 0, .cv 1, .cv 2, .cv 3,
   .fq 0, .fq 1, .fq 2, .fq 3, .ho 0, .ho 1, .ho 2, .ho 3]

/-- Entry order of R410. -/
def entryOrder : List Dom :=
  [.fq 0, .fq 1, .fq 2, .fq 3, .ho 0, .ho 1, .ho 2, .ho 3, .cv 0, .cv 1, .cv 2, .cv 3,
   .ld 0, .ld 1, .ld 2, .ld 3, .map, .mon, .ctl]

/-- Moves of a list in an order of domains. -/
def inOrder (order : List Dom) (ms : List Move) : List Move := order.filterMap fun d => ms.find? (·.1 == d)

/-- Moves from the present states to those that `target` names; a domain already there does not move. -/
def movesTo (s : State) (target : Dom → Option PState) : List Move :=
  movable.filterMap fun d =>
    match target d with
    | some x => if domSt s d == x then none else some (d, domSt s d, x)
    | none => none

/-! ### Wake sources (R416, R419) -/

/-- A wake source fires (R412, R416, R419): in RUN nothing; during a wake it is recorded; during an entry it
is held; otherwise a profile wake to WAKE_TO starts. -/
def profileWake (code : BitVec 4) (arg : BitVec 6) (s : State) : State :=
  match s.power.trans with
  | some t =>
    if t.isWake then
      modPower (fun p => { p with report := { p.report with
        also := p.report.also ||| BitVec.ofNat 7 (2 ^ (code.toNat - 1)) } }) s
    else modPower (fun p => { p with heldWakes := p.heldWakes ++ [(code, arg)] }) s
  | none =>
    if s.power.profile == .run then s
    else
      let ms := (movesTo s fun d => some (s.power.wakeTo.state d)).filter goesUp
      wakeAttempts ms <| modPower (fun p => { p with
        lost := 0, cause := Vector.ofFn fun k => if bit p.kept k.val then 0 else p.cause[k]
        report := { source := code, arg := arg, fromP := p.profile, uptime := uptimeMs s, startUsec := s.sys.usec }
        trans := some { rq := none, asking := false, moves := ms, reached := [], profile := some p.wakeTo
                        isWake := true, checked := false, startUsec := s.sys.usec } }) s

/-- Wake sources that were held start now (R412). -/
def startHeld (s : State) : State :=
  let hs := s.power.heldWakes
  eachOf hs (fun h => profileWake h.1 h.2) (modPower (fun p => { p with heldWakes := [] }) s)

/-! ### Refusals (R411, R415) -/

/-- Refuser code of a party. -/
def partyCode : Party → Nat
  | .sup => 0 | .pc n => 1 + n.val | .hc => 5 | .jg => 6 | .dial => 7 | .balance => 8

/-- The first reason of a list whose condition holds. -/
def firstReason : List (Bool × Nat) → Option Nat
  | [] => none
  | (c, r) :: cs => if c then some r else firstReason cs

/-- A port is in DOWN or MUTED. -/
def portQuiet (s : State) (p : LPort) : Bool := s.ports[p].tr.state == .down || s.ports[p].tr.state == .muted

/-- Some DRV_EN output is active. -/
def anyDrv (s : State) : Bool := allPorts.any fun p => s.ports[p].front.drvEn

/-- What a party answers on the present state when the moves `ms` go to lower states: its reason to refuse,
in the order of the table of R411. A party refuses a request once, with the first reason that holds
(DEDUCED, notes/assumptions 26). -/
def refuses (s : State) (ms : List Move) (who : Party) : Option Nat :=
  let has := fun d => ms.any (·.1 == d)
  let portIn := fun (p : LPort) => has (.cv p) || has (.ld p)
  match who with
  | .pc n => firstReason
      [(portIn n && !portQuiet s n, 1), (has (.cv n) && s.ports[n].cal.run == .foreground, 2)]
  | .dial => firstReason
      [(s.dial.evs.any fun e => e.waits && (eventNeeds s e).any has, 3)]
  | .balance =>
    let quads := ([0, 1, 2, 3] : List (Fin 4)).filter fun q => has (.fq q)
    let a := balanceAnswer s quads
    firstReason [(a == 4, 4), (a == 5, 5), (has .map && !(poolPorts s).isEmpty, 6)]
  | .hc => firstReason
      [((List.finRange 32).any fun k => has (.ho (octet k)) && laneDrives s k, 7),
       (has .map && s.map.clients.any fun c => !portQuiet s c.port, 8)]
  | .jg => firstReason
      [(allPorts.any fun p => portIn p && s.jrx.routes.any (·.port == p), 9),
       ((allPorts.any fun p => (portIn p || has .ctl) && !s.jrx.ports[p].egress.isEmpty) ||
          (has .ctl && (List.finRange 4).any fun j => !s.mbx.j[j].inQ.isEmpty || !s.mbx.j[j].waitQ.isEmpty), 10)]
  | .sup => firstReason
      [(ms.any (fun m => m.1 == .mon && m.2.2.dark) && (anyDrv s || !allPorts.all (portQuiet s)), 11),
       (has .ctl && anyDrv s, 11),
       (has .ctl && (List.finRange 8).any fun n => !s.mbx.m[n].inQ.isEmpty, 12)]

/-- The parties in the order of their refuser codes. -/
def parties : List Party := [.sup, .pc 0, .pc 1, .pc 2, .pc 3, .hc, .jg, .dial, .balance]

/-- Parties asked before a domain sleeps (R14); DIAL answers for every domain that a pending event needs (R411). -/
def askedFor : Dom → List Party
  | .cv n => [.pc n, .dial, .jg] | .ld n => [.pc n, .dial, .jg] | .fq _ => [.balance, .dial]
  | .ho _ => [.hc, .dial] | .map => [.hc, .balance, .dial] | .mon => [.sup, .dial] | .ctl => [.sup, .jg, .dial]
  | .aon => []

/-- A party is asked about a domain (R14): DIAL only when a pending event needs the domain, JG about a port's domains only
when the port carries a Joryx route or a frame for one waits there (R411). -/
def isAsked (s : State) (d : Dom) (who : Party) : Bool :=
  (askedFor d).contains who &&
    match who with
    | .dial => s.dial.evs.any fun e => e.waits && (eventNeeds s e).contains d
    | .jg => d == .ctl || allPorts.any fun p => (d == .cv p || d == .ld p) &&
        (s.jrx.routes.any (·.port == p) || !s.jrx.ports[p].egress.isEmpty)
    | .sup => true | .pc _ => true | .hc => true | .balance => true

/-- Every refusal of a request, with refuser codes, in code order. -/
def refusals (s : State) (ms : List Move) : List (Nat × Nat) :=
  parties.filterMap fun w => (refuses s ms w).map fun r => (partyCode w, r)

/-- TARGET of a log entry: the lowest state that the request named. (DEDUCED, notes/assumptions 19) -/
def lowestTarget (ms : List Move) : Nat := (ms.map (·.2.2.code)).foldl max 0

/-- DOMAIN_MASK of a log entry: the domains that the request moved. -/
def moveMask (ms : List Move) : Nat := (ms.map fun m => 2 ^ domBit m.1).foldl (· + ·) 0

/-- Count and log one refusal or abort (R415). -/
def logRefusal (ms : List Move) (refuser reason : Nat) (abort : Bool) (s : State) : State :=
  let e : RefusalEntry :=
    { refuser := BitVec.ofNat 8 refuser, reason := BitVec.ofNat 8 reason, abort := abort,
      target := BitVec.ofNat 2 (lowestTarget ms), domains := BitVec.ofNat 19 (moveMask ms), uptime := uptimeMs s }
  modPower (fun p => { p with
    counters := vmod p.counters (Fin.ofNat 10 refuser) (· + 1), log := (e :: p.log).take 16 }) s

/-- Answer the command that a transition belongs to. -/
def answerTrans (t : Trans) (a : Answer) (s : State) : State :=
  match t.rq with
  | some rq => reply (if t.profile.isSome then 0x1001 else 0x1002) rq a s
  | none => s

/-- A request is refused (R410, R415): every refusal is counted and logged, and nothing changes. -/
def refuseRequest (rs : List (Nat × Nat)) (s : State) : State :=
  match s.power.trans with
  | none => s
  | some t =>
    let s := eachOf rs (fun r => logRefusal t.moves r.1 r.2 false) s
    let first := rs.headD (0, 0)
    let s := answerTrans t { st := .refused, detail := first.1 * 256 + first.2 } s
    startHeld (modPower (fun p => { p with trans := none }) s)

/-- A wake report begins for a PWR_PROFILE_SET upward that came at `start`: SOURCE 7 (R428). -/
def upwardReport (start : Nat) (s : State) : State :=
  modPower (fun p => { p with
    lost := 0, cause := Vector.ofFn fun k => if bit p.kept k.val then 0 else p.cause[k]
    report := { source := 7, fromP := p.profile, uptime := wd (start / 1000), startUsec := start } }) s

/-- The answers allow the request: its transition begins, and with it the report of an upward profile. Quads that Balance agreed to let sleep receive no
dispatch, and their staged codewords go back (R207). -/
def beginTrans (s : State) : State :=
  match s.power.trans with
  | none => s
  | some t =>
    let quads := ([0, 1, 2, 3] : List (Fin 4)).filter fun q => t.moves.any fun m => m.1 == .fq q && goesDown m && m.2.1 == .on
    let s := doIf t.isWake (upwardReport t.startUsec) s
    let s := wakeAttempts t.moves (modPower (fun p => { p with trans := some { t with asking := false } }) s)
    eachOf quads (fun q s =>
      let s := modPool (fun x => { x with draining := x.draining ||| BitVec.ofNat 4 (2 ^ q.val) }) s
      eachOf (enginesOf q) (fun e s =>
        let j := s.pool.engines[e].staged
        modEng e (fun x => { x with staged := none }) (putBack false j s)) s) s

/-! ### Requests (R410, R414, R428, R429) -/

/-- A request reverses the running transition (R414): it names the earlier state of every domain that the
transition changes and changes no other. -/
def reverses (s : State) (t : Trans) (target : Dom → Option PState) : Bool :=
  movable.all fun d =>
    match t.moves.find? (·.1 == d) with
    | some m => target d == some m.2.1
    | none =>
      match target d with
      | some x => x == domSt s d
      | none => true

/-- Start a transition for a request. -/
def startTrans (rq : Req) (ms : List Move) (profile : Option Profile) (isWake : Bool) (s : State) : State :=
  let new : Trans :=
    { rq := some rq, asking := ms.any goesDown, moves := ms, reached := [], profile := profile, isWake := isWake,
      checked := false, startUsec := s.sys.usec }
  let s := if new.asking then s else wakeAttempts ms s
  taken rq (modPower (fun p => { p with trans := some new }) s)

/-- A reversing request (R414): the running transition is aborted and logged, its domains go back, and the
reversing request is answered when they have. Where a domain that the aborted transition had raised goes to a lower
state, its parties are asked first (R38; DESIGN CHOICE, notes/assumptions 131). -/
def reverseTrans (rq : Req) (t : Trans) (profile : Option Profile) (s : State) : State :=
  let s := answerTrans t { st := .aborted } (logRefusal t.moves 9 14 true s)
  let back := (t.moves.filter fun m => t.reached.contains m.1).map fun m => (m.1, m.2.2, m.2.1)
  let s := modPool (fun x => { x with draining := 0 }) s
  let s := pwrEvent 1 s
  let new : Trans :=
    { rq := some rq, asking := back.any goesDown, moves := back, reached := [], profile := profile, isWake := false,
      checked := false, startUsec := s.sys.usec }
  let s := dropAttempts (t.moves.filter fun m => !t.reached.contains m.1) s
  let s := if new.asking then s else wakeAttempts back s
  taken rq (modPower (fun p => { p with trans := some new }) s)

/-- WAKE_TO and the wake enables of a PWR_PROFILE_SET (R428). A detector that is asserted when the profile is
entered must deassert first (R417). -/
def setWakes (w : Word) (s : State) : State :=
  let armed := allPorts.foldl (fun a p => a + b2n (!s.ports[p].front.light) * 2 ^ p.val) 0
  modPower (fun p => { p with
    wakeTo := Profile.ofCode (fld w 29 28), wakeLight := BitVec.ofNat 4 (fld w 27 24)
    wakeJrx := BitVec.ofNat 4 (fld w 23 20), lightArmed := BitVec.ofNat 4 armed }) s

/-- PWR_PROFILE_SET (R428). -/
def pwrProfileSet (rq : Req) (s : State) : State :=
  let w := par rq 0
  let prof := fld w 31 30
  let wt := fld w 29 28
  let p := Profile.ofCode prof
  let target := fun d => some (p.state d)
  command 0x1001 rq [badAt [(fld w 19 0 != 0 || (prof == 0 && wt != 0) || (prof != 0 && prof ≤ wt), 0)]]
    (fun _ => [])
    (fun s =>
      match s.power.trans with
      | some t =>
        if reverses s t target then reverseTrans rq t (some p) s else reply 0x1001 rq busy s
      | none =>
        if p == s.power.profile && !deviate s then reply 0x1001 rq (okFlags 1) (setWakes w s)
        else
          let ms := movesTo s target
          let up : Bool := decide (prof < s.power.profile.code)
          startTrans rq ms (some p) up (doIf (up && !ms.any goesDown) (upwardReport s.sys.usec) s)) s

/-- PWR_PROFILE_SET. -/
def execPwrProfileSet (rq : Req) (s : State) : Outcome := .next (pwrProfileSet rq s)

/-- PWR_DOMAIN_SET (R429). -/
def pwrDomainSet (rq : Req) (s : State) : State :=
  let w := par rq 0
  let st := PState.ofCode (fld w 31 30)
  let mask := fld w 18 0
  let target := fun d => if bit w (domBit d) then some st else none
  command 0x1002 rq [badAt [(fld w 29 19 != 0 || mask == 0 || (st == .off && bit w 18), 0)]]
    (fun _ => [])
    (fun s =>
      match s.power.trans with
      | some t =>
        if reverses s t target then reverseTrans rq t none s else reply 0x1002 rq busy s
      | none =>
        let ms := movesTo s target
        if ms.isEmpty then reply 0x1002 rq (okay []) s else startTrans rq ms none false s) s

/-- PWR_DOMAIN_SET. -/
def execPwrDomainSet (rq : Req) (s : State) : Outcome := .next (pwrDomainSet rq s)

/-! ### The manager's events -/

/-- POWER_ANSWERS_RECEIVED: the parties answer on the present state (R411). -/
def powerAnswersReceived (s : State) : State :=
  match s.power.trans with
  | none => s
  | some t =>
    if t.asking then
      let rs := refusals s (t.moves.filter goesDown)
      if rs.isEmpty then beginTrans s else refuseRequest rs s
    else s

/-- POWER_ANSWERS_RECEIVED. -/
def execPowerAnswersReceived (s : State) : Outcome := .next (powerAnswersReceived s)

/-- NO_ANSWER: the silence of a party that was asked is a refusal with reason 13; the others answer on the
present state. -/
def noAnswer (who : Party) (s : State) : State :=
  match s.power.trans with
  | none => s
  | some t =>
    let downs := t.moves.filter goesDown
    if t.asking && downs.any (fun m => isAsked s m.1 who) then
      refuseRequest (parties.filterMap fun w =>
        if w == who then some (partyCode w, 13) else (refuses s downs w).map fun r => (partyCode w, r)) s
    else s

/-- NO_ANSWER. -/
def execNoAnswer (who : Party) (s : State) : Outcome := .next (noAnswer who s)

/-- Carry out the moves of a list that have not been carried out. -/
def carryMoves (t : Trans) (ms : List Move) (s : State) : State :=
  eachOf (ms.filter fun m => !t.reached.contains m.1) (fun m => domMove m.1 m.2.2) s

/-- The management ports listen from an entry to DEEP on, and no longer in another profile (R394, R400). -/
def listenFor (profile : Option Profile) (s : State) : State :=
  match profile with
  | none => s
  | some p =>
    let set := fun (f : FrontEnd) => { f with listening := p == .deep, window := false }
    modTwi (fun x => { x with twi := set x.twi, mspi := set x.mspi }) s

/-- The end of a transition: the profile and the wake settings of its command are in force (R409, R428). -/
def endTrans (t : Trans) (s : State) : State :=
  let s := listenFor t.profile (modPool (fun x => { x with draining := 0 }) s)
  let s := modPower (fun p => { p with trans := none, profile := t.profile.getD p.profile }) s
  match t.rq, t.profile with
  | some rq, some _ => setWakes (par rq 0) s
  | _, _ => s

/-- A quad that is to leave ON still runs a codeword: the transition waits for it (R207). -/
def quadsDrain (t : Trans) (s : State) : Bool :=
  (List.finRange 64).any fun e => s.pool.engines[e].running.isSome &&
    t.moves.any fun m => m.1 == .fq (quadOf e) && m.2.1 == .on && goesDown m

/-- POWER_TRANSITION_COMPLETE: the domains rise in wake order and enter in entry order; OK is posted before CTL
leaves ON (R410). A profile wake completes with WAKE_DONE instead. -/
def powerTransitionComplete (s : State) : State :=
  match s.power.trans with
  | none => s
  | some t =>
    if t.asking || t.isWake || quadsDrain t s then s
    else
      let s := carryMoves t (inOrder wakeOrder (t.moves.filter goesUp)) s
      let downs := inOrder entryOrder (t.moves.filter goesDown)
      let s := carryMoves t (downs.filter (·.1 != .ctl)) s
      let s := answerTrans t (okay []) s
      let s := carryMoves t (downs.filter (·.1 == .ctl)) s
      startHeld (pwrEvent 0 (endTrans t s))

/-- POWER_TRANSITION_COMPLETE. -/
def execPowerTransitionComplete (s : State) : Outcome := .next (powerTransitionComplete s)

/-- DOMAIN_WAKE_COMPLETE: a waking domain reaches its state (R420). In a profile wake CTL is first, and the
others follow the bank checks and the cores (R419). The domain of a recovering unit returns to ON (R460). -/
def domainWakeComplete (d : Dom) (s : State) : State :=
  if recAsleep s d then recWake (domUnit d) s else
  match s.power.trans with
  | none => s
  | some t =>
    if t.asking || t.reached.contains d || (t.isWake && d != .ctl && !(t.checked && s.sys.supRuns)) then s
    else
      match t.moves.find? fun m => m.1 == d && goesUp m with
      | none => s
      | some m =>
        domMove d m.2.2 (modPower (fun p => { p with trans := some { t with reached := t.reached ++ [d] } }) s)

/-- DOMAIN_WAKE_COMPLETE. -/
def execDomainWakeComplete (d : Dom) (s : State) : Outcome := .next (domainWakeComplete d s)

/-- Banks whose domain this wake takes out of NAP or OFF. -/
def wakingBanks (t : Trans) : List (Fin 32) :=
  (t.moves.filter fun m => goesUp m && m.2.1.dark).flatMap fun m => banksOf m.1

/-- A kept bank whose signature failed is lost with cause 3 (R426). A bank of CTL that is in use again already
is lost at once. -/
def failBank (t : Trans) (k : Fin 32) (s : State) : State :=
  if !bit s.power.kept k.val then s
  else if bankIn .ctl k && t.reached.contains .ctl then
    let s := modPower (fun p => { p with lost := putBit p.lost k.val true, cause := vset p.cause k 3 }) s
    detect (bankUnit k) 3 0 (BitVec.ofNat 16 k.val) (lostBank k s)
  else modPower (fun p => { p with kept := putBit p.kept k.val false, cause := vset p.cause k 3 }) s

/-- BANK_CHECK_DONE: the checks of a recovery's bank (R460) or of a wake are done with `failed` the banks whose signature failed; every lost
bank of a waking domain is named in PWR.LOST, and CTL is up (R419, R426). -/
def bankCheckDone (failed : BitVec 32) (s : State) : State :=
  let s := eachOf ((List.finRange 32).filter fun k => failed.getLsbD k.val) recBankFail s
  match s.power.trans with
  | none => s
  | some t =>
    if !t.isWake || t.asking || t.checked then s
    else
      let ks := wakingBanks t
      let s := eachOf (ks.filter fun k => failed.getLsbD k.val) (failBank t) s
      let s := modPower (fun p => { p with
        lost := ks.foldl (fun l k => if bit p.kept k.val then l else putBit l k.val true) p.lost }) s
      let s := modPower (fun p => { p with trans := some { t with checked := true, reached := t.reached ++ [.ctl] } }) s
      match t.moves.find? (·.1 == .ctl) with
      | some m => if t.reached.contains .ctl then holdLost s else domMove .ctl m.2.2 s
      | none => s

/-- BANK_CHECK_DONE. -/
def execBankCheckDone (failed : BitVec 32) (s : State) : Outcome := .next (bankCheckDone failed s)

/-- The words of PWR_WAKE_REPORT (R433). -/
def wakeWords (s : State) : List Word :=
  let r := s.power.report
  let cause := fun (b : Nat) => wd ((List.range 16).foldl (fun a i =>
    a + (r.cause[(Fin.ofNat 32 (b + i))]).toNat * 4 ^ (15 - i)) 0)
  [word [(31, 28, r.source.toNat), (27, 22, r.arg.toNat), (21, 20, r.fromP.code), (15, 0, s.power.wakeSeq.toNat)],
   word [(31, 25, r.also.toNat)], r.lost, cause 0, cause 16, r.latency,
   word [(31, 28, (s.power.muteLd ||| s.power.muteCv).toNat), (27, 27, b2n r.configLost), (26, 26, b2n r.fwReloaded)],
   r.uptime]

/-- Words 0, 2 and 6 of the report (R434). -/
def wakeEvent (s : State) : State :=
  let w := wakeWords s
  postEvent 5 0xE005 0 (okay [w.getD 0 0, w.getD 2 0, w.getD 6 0]) false s

/-- WAKE_DONE: every domain has risen (R419). WAKE_SEQ advances with the report, before WAKE_EVT carries it
(DEDUCED, notes/assumptions 24). -/
def wakeDone (s : State) : State :=
  match s.power.trans with
  | none => s
  | some t =>
    if t.isWake && !t.asking && t.checked && s.sys.supRuns then
      let s := carryMoves t (inOrder wakeOrder (t.moves.filter goesUp)) s
      let s := carryMoves t (inOrder entryOrder (t.moves.filter goesDown)) s
      let s := modPower (fun p => { p with
        wakeSeq := p.wakeSeq + 1
        report := { p.report with
          lost := p.lost, cause := Vector.ofFn fun k => if bit p.lost k.val then p.cause[k] else 0
          latency := wd (s.sys.usec - p.report.startUsec)
          configLost := bit p.lost 6, fwReloaded := fld p.lost 5 0 != 0 } }) s
      startHeld (answerTrans t (okay []) (pwrEvent 0 (wakeEvent (ring 26 (endTrans t s)))))
    else s

/-- WAKE_DONE. -/
def execWakeDone (s : State) : Outcome := .next (wakeDone s)

/-- LIGHT_WAKE (R417). -/
def lightWake (p : LPort) (s : State) : State :=
  if s.power.wakeLight.getLsbD p.val && s.power.lightArmed.getLsbD p.val && s.ports[p].front.light then
    profileWake 1 (BitVec.ofNat 6 p.val) s
  else s

/-- LIGHT_WAKE. -/
def execLightWake (p : LPort) (s : State) : Outcome := .next (lightWake p s)

/-- The conditions of R418 for keying: the transmitter runs, a domain frame for the recorded neighbour waits
on the port, and there is no lock; the event itself says that there has been none for a second. -/
def keysLight (s : State) (p : LPort) : Bool :=
  let n := s.jrx.ports[p].neigh
  s.ports[p].front.drvEn && n.valid && !s.ports[p].sf.lock &&
    s.jrx.ports[p].egress.any fun f =>
      f.dest == n.node && (f.type == 1 || f.type == 2 || f.type == 3 || f.type == 6)

/-- KEEP_ALIVE_KEYING: eight periods of light and dark begin (R418). -/
def keepAliveKeying (p : LPort) (s : State) : State :=
  if keysLight s p then modFront p (fun f => { f with keyStart := some s.sys.usec, keying := false }) s else s

/-- KEEP_ALIVE_KEYING. -/
def execKeepAliveKeying (p : LPort) (s : State) : Outcome := .next (keepAliveKeying p s)

/-- KEEP_ALIVE_DETECT (R416, R418): a wake source in DARK. -/
def keepAliveDetect (p : LPort) (s : State) : State :=
  if s.power.profile == .dark && s.power.wakeJrx.getLsbD p.val then profileWake 6 (BitVec.ofNat 6 p.val) s else s

/-- KEEP_ALIVE_DETECT. -/
def execKeepAliveDetect (p : LPort) (s : State) : Outcome := .next (keepAliveDetect p s)

/-- HOST_WAKE_PATTERN: the detectors of H00, H08, H16 and H24, enabled by WAKE_PAT (R283, R416). -/
def hostWakePattern (k : HLane) (s : State) : State :=
  if k.val % 8 == 0 && bit s.lanes[k].w1 22 then profileWake 3 (BitVec.ofNat 6 k.val) s else s

/-- HOST_WAKE_PATTERN. -/
def execHostWakePattern (k : HLane) (s : State) : Outcome := .next (hostWakePattern k s)

/-! ### Reports -/

/-- PWR_RETAIN_SET (R425, R430): clearing the bit of a bank whose domain is in NAP discards it at once. -/
def pwrRetainSet (rq : Req) (s : State) : State :=
  let m := par rq 0
  commandOk 0x1003 rq [] (fun _ => []) (fun s =>
    let gone := movable.flatMap fun d => if domSt s d == .nap then (banksOf d).filter fun k => !bit m k.val else []
    modPower (fun p => gone.foldl (fun p k =>
      if bit p.kept k.val then { p with kept := putBit p.kept k.val false, cause := vset p.cause k 1 } else p)
      { p with retain := m }) s) s

/-- PWR_RETAIN_SET. -/
def execPwrRetainSet (rq : Req) (s : State) : Outcome := .next (pwrRetainSet rq s)

/-- The five words of PWR_STATUS. -/
def powerWords (s : State) : List Word :=
  let ms := match s.power.trans with
    | some t => (s.sys.usec - t.startUsec) / 1000
    | none => 0
  [stateA s, stateB s, s.power.retain, s.power.lost, word [(31, 16, ms)]]

/-- What PWR_STATUS answers. -/
def pwrStatusAnswer (rq : Req) : State → State := answerReply 0x1004 rq powerWords

/-- PWR_STATUS (R13, R431). -/
def pwrStatus (rq : Req) (s : State) : State := report .device 0x1004 rq [] (pwrStatusAnswer rq) s

/-- PWR_STATUS. -/
def execPwrStatus (rq : Req) (s : State) : Outcome := .next (pwrStatus rq s)

/-- The 58 words of PWR_REFUSALS_READ (R432). -/
def refusalWords (p : Power) : List Word :=
  p.counters.toList ++ (List.range 16).flatMap fun i =>
    match p.log[i]? with
    | none => [0, 0, 0]
    | some e => [word [(31, 24, e.refuser.toNat), (23, 16, e.reason.toNat), (15, 15, b2n e.abort), (14, 13, e.target.toNat)],
                 word [(31, 13, e.domains.toNat)], e.uptime]

/-- What PWR_REFUSALS_READ answers; CLEAR clears what was read. -/
def pwrRefusalsAnswer (rq : Req) (s : State) : State :=
  let ws := refusalWords s.power
  let s := putBulk (pf rq 0 23 0) ws s
  let s := doIf (bit (par rq 0) 31) (modPower fun p => { p with counters := Vector.replicate 10 0, log := [] }) s
  reply 0x1005 rq (okay [wd ws.length]) s

/-- PWR_REFUSALS_READ (R13, R432). -/
def pwrRefusalsRead (rq : Req) (s : State) : State :=
  report .device 0x1005 rq [badAt [(pf rq 0 30 24 != 0 || bulkBad (pf rq 0 23 0) 58, 0)]] (pwrRefusalsAnswer rq) s

/-- PWR_REFUSALS_READ. -/
def execPwrRefusalsRead (rq : Req) (s : State) : Outcome := .next (pwrRefusalsRead rq s)

/-- What PWR_WAKE_REPORT answers. -/
def pwrWakeAnswer (rq : Req) : State → State := answerReply 0x1006 rq wakeWords

/-- PWR_WAKE_REPORT (R13, R433). -/
def pwrWakeReport (rq : Req) (s : State) : State := report .device 0x1006 rq [] (pwrWakeAnswer rq) s

/-- PWR_WAKE_REPORT. -/
def execPwrWakeReport (rq : Req) (s : State) : Outcome := .next (pwrWakeReport rq s)

end Sys2Proof.Machine
end

