-- ==== Sys2Proof/Machine/HostLanes.lean ====
section
/-! DEFINITION. Host lanes (R259 to R272, R282 to R287): HOST_LANE_CONFIG, HOST_TRAIN, HOST_STATUS, HOST_PM_READ,
PRBS_SET and the events of the lanes and their clients. -/

namespace Sys2Proof.Machine

/-- Lanes of a mask. -/
def lanesIn (mask : Word) : List HLane := (List.finRange 32).filter fun k => bit mask k.val

/-! ### HOST_LANE_CONFIG (R284) -/

/-- The six static taps of words 2 and 3, c(-4) to c(1). -/
def staticTaps (w2 w3 : Word) : Vector Int 6 :=
  #v[sgn 8 (fld w2 31 24), sgn 8 (fld w2 23 16), sgn 8 (fld w2 15 8), sgn 8 (fld w2 7 0), sgn 8 (fld w3 31 24), sgn 8 (fld w3 23 16)]

/-- Sum of the magnitudes of six taps (R263). -/
def tapSum (t : Vector Int 6) : Nat := t.toList.foldl (fun a x => a + x.natAbs) 0

/-- Parameter checks of HOST_LANE_CONFIG. -/
def laneChecks (rq : Req) : List (Bool × Answer) :=
  let w1 := par rq 1
  let t := staticTaps (par rq 2) (par rq 3)
  let wakes := (lanesIn (par rq 0)).any fun k => k.val % 8 != 0
  [badAt [(par rq 0 == 0, 0),
    (fld w1 31 30 == 3 || ((bit w1 26 || bit w1 25 || bit w1 24) && fld w1 31 30 != 0) || (bit w1 22 && wakes) ||
      decide (40 < fld w1 21 16) || fld w1 7 0 == 0, 1),
    ((List.finRange 4).any (fun i => decide (64 < t[i].natAbs)) || decide (64 < tapSum t), 2),
    (decide (t[4] < 0) || decide (64 < t[4]) || decide (64 < t[5].natAbs) || fld (par rq 3) 15 0 != 0, 3)]]

/-- State checks: RATE of a lane of a client may not change, and no loopback runs on a lane (R514). -/
def laneStates (rq : Req) (s : State) : List (Bool × Answer) :=
  [((lanesIn (par rq 0)).any (fun k =>
      laneLooped s k || ((laneClient s k).isSome && fld s.lanes[k].w1 31 30 != pf rq 1 31 30)), badState)]

/-- Raise or clear HOST_CDR of a lane; a rise counts (R261, R287). -/
def setCdr (k : HLane) (on : Bool) (s : State) : State :=
  let rises := on && !s.lanes[k].cdr
  setAlarm (.host k) 1 on (modLane k (fun l => { l with cdr := on, cdrLoss := if rises then l.cdrLoss + 1 else l.cdrLoss }) s)

/-- A lane takes its configuration. A change of RATE, MLSD or RX_INV restarts its adaptation (R262); static taps
apply at once (R263). -/
def configLane (w1 w2 w3 : Word) (k : HLane) (s : State) : State :=
  let old := s.lanes[k].w1
  let adapt := fld old 31 30 != fld w1 31 30 || bit old 26 != bit w1 26 || bit old 28 != bit w1 28
  let s := modLane k (fun l => { l with
    w1 := w1, w2 := w2, w3 := w3
    taps := if bit w1 25 then l.taps else staticTaps w2 w3
    train := if bit w1 25 then l.train else 0 }) s
  if adapt then setCdr k true s else s

/-- HOST_LANE_CONFIG. -/
def hostLaneConfig (rq : Req) (s : State) : State :=
  commandOk 0x3001 rq (laneChecks rq) (laneStates rq)
    (fun s => eachOf (lanesIn (par rq 0)) (configLane (par rq 1) (par rq 2) (par rq 3)) s) s

/-- HOST_LANE_CONFIG. -/
def execHostLaneConfig (rq : Req) (s : State) : Outcome := .next (hostLaneConfig rq s)

/-! ### Training (R264, R265, R285) -/

/-- A lane may train: RATE 0 with TRAIN_EN 1 and TX_EN 1. -/
def mayTrain (l : Lane) : Bool := fld l.w1 31 30 == 0 && trainEn l && txEn l

/-- HOST_TRAIN (R285). -/
def hostTrain (rq : Req) (s : State) : State :=
  let op := pf rq 1 31 30
  let l := lanesIn (par rq 0)
  commandOk 0x3002 rq [badAt [(op == 3 || pf rq 1 29 0 != 0, 1)]]
    (fun s => [(op != 1 && l.any (fun k => !mayTrain s.lanes[k]), badState)])
    (fun s => eachOf l (fun k s =>
      match op with
      | 0 => if s.lanes[k].train == 1 then s else beginTrain k s
      | 1 => modLane k (fun x => if x.train == 1 || x.train == 3 then { x with train := 4 } else x) s
      | _ => beginTrain k s) s) s

/-- HOST_TRAIN. -/
def execHostTrain (rq : Req) (s : State) : Outcome := .next (hostTrain rq s)

/-- Training ends when both sides have declared receiver ready (R265). -/
def trainEnds (k : HLane) (s : State) : State :=
  let l := s.lanes[k]
  if l.train == 1 && l.ownReady && l.partnerReady then
    setAlarm (.host k) 4 false (modLane k (fun l => { l with
      train := 2, trainDone := l.trainDone + 1, precodeRx := bit l.w1 24
      trainTime := BitVec.ofNat 16 ((s.sys.usec - l.trainStart) / 1000) }) s)
  else s

/-- Taps that keep the limits of R263 are taken; others leave the present ones, and the answer is that the tap is at its
limit (R264). -/
def tryTaps (l : Lane) (t : Vector Int 6) : Lane :=
  if tapSum t ≤ 64 && decide (0 ≤ t[4]) then { l with taps := t, ansOut := .updated } else { l with ansOut := .atLimit }

/-- The trained side answers a request of the partner (R264); one outside the subset changes nothing. (DESIGN CHOICE,
notes/assumptions 96) -/
def trainRequest (r : TrainReq) (l : Lane) : Lane :=
  match r with
  | .none => { l with ansOut := .none }
  | .preset k => { l with taps := Vector.ofFn fun i => Config.presetTap k i.val, ansOut := .updated }
  | .inc i => tryTaps l (vset l.taps i (l.taps[i] + Config.tapStep i.val))
  | .dec i => tryTaps l (vset l.taps i (l.taps[i] - Config.tapStep i.val))
  | .precode on => { l with precodeTx := on, ansOut := .updated }
  | .outside => { l with ansOut := .refused }

/-- The training side hears that a tap which it asked to move is at its limit (R264). -/
def noteLimit (ans : TrainAns) (l : Lane) : Lane :=
  if ans == .atLimit then
    match l.reqOut with
    | .inc i => { l with atMax := l.atMax ||| BitVec.ofNat 6 (2 ^ i.val) }
    | .dec i => { l with atMin := l.atMin ||| BitVec.ofNat 6 (2 ^ i.val) }
    | .none => l | .preset _ => l | .precode _ => l | .outside => l
  else l

/-- What the training side would like of the partner's taps: one tap up or down, or nothing, whichever raises the SNR; a
tap at its limit is not asked for again (R264). `choice` is free. -/
def tapWish (choice : Nat) (l : Lane) : TrainReq :=
  let i : Fin 6 := Fin.ofNat 6 (choice / 3)
  match choice % 3 with
  | 0 => .none
  | 1 => if l.atMax.getLsbD i.val then .none else .inc i
  | _ => if l.atMin.getLsbD i.val then .none else .dec i

/-- The next request of the training side once the present one is answered: precoding when PRECODE_REQ asks for it, then
the taps, one at a time; none after receiver ready (R264). (DESIGN CHOICE, notes/assumptions 96) -/
def nextRequest (ans : TrainAns) (choice : Nat) (l : Lane) : Lane :=
  let l := noteLimit ans l
  if l.reqOut != .none && ans == .none then l
  else if l.ownReady then { l with reqOut := .none }
  else if bit l.w1 24 && !l.precodeAsked then { l with reqOut := .precode true, precodeAsked := true }
  else { l with reqOut := tapWish choice l }

/-- HOST_TRAINING_FRAME: the partner's request is answered, and its answer to the own one taken. -/
def hostTrainingFrame (k : HLane) (r : TrainReq) (ans : TrainAns) (ready : Bool) (s : State) : State :=
  if s.lanes[k].train == 1 then
    tookFree (trainEnds k (modLane k (fun l =>
      nextRequest ans (Config.freeNat s.free) { trainRequest r l with partnerReady := l.partnerReady || ready }) s))
  else s

/-- HOST_TRAINING_FRAME. -/
def execHostTrainingFrame (k : HLane) (frame : TrainReq × TrainAns) (ready : Bool) (s : State) : Outcome :=
  .next (hostTrainingFrame k frame.1 frame.2 ready s)

/-- HOST_RECEIVER_READY (R264): no further request follows. -/
def hostReceiverReady (k : HLane) (s : State) : State :=
  if s.lanes[k].train == 1 then trainEnds k (modLane k (fun l => { l with ownReady := true, reqOut := .none }) s) else s

/-- HOST_RECEIVER_READY. -/
def execHostReceiverReady (k : HLane) (s : State) : Outcome := .next (hostReceiverReady k s)

/-- HOST_TRAIN_FAIL (R265): TRAIN_TIMEOUT has passed. -/
def hostTrainFail (k : HLane) (s : State) : State :=
  if s.lanes[k].train == 1 then
    setAlarm (.host k) 4 true (modLane k (fun l => { l with train := 3, trainFail := l.trainFail + 1 }) s)
  else s

/-- HOST_TRAIN_FAIL. -/
def execHostTrainFail (k : HLane) (s : State) : Outcome := .next (hostTrainFail k s)

/-- HOST_TRAIN_RETRY (R265): 100 ms later training starts again. -/
def hostTrainRetry (k : HLane) (s : State) : State := if s.lanes[k].train == 3 then beginTrain k s else s

/-- HOST_TRAIN_RETRY. -/
def execHostTrainRetry (k : HLane) (s : State) : Outcome := .next (hostTrainRetry k s)

/-! ### Lane and client events (R261, R268, R269, R272, R283) -/

/-- HOST_LOS (R261). -/
def hostLos (k : HLane) (s : State) : State :=
  let rises := !s.lanes[k].los
  setAlarm (.host k) 0 true (modLane k (fun l => { l with los := true, losEvt := if rises then l.losEvt + 1 else l.losEvt }) s)

/-- HOST_LOS. -/
def execHostLos (k : HLane) (s : State) : Outcome := .next (hostLos k s)

/-- HOST_LOS_CLEAR: the signal detector is a wake source (R283, R416), and a lane with TRAIN_EN 1 trains (R265). -/
def hostLosClear (k : HLane) (s : State) : State :=
  let s := setAlarm (.host k) 0 false (modLane k (fun l => { l with los := false }) s)
  let s := if isOn s (.ho (octet k)) then trainLane k s else s
  if bit s.lanes[k].w1 23 then profileWake 2 (BitVec.ofNat 6 k.val) s else s

/-- HOST_LOS_CLEAR. -/
def execHostLosClear (k : HLane) (s : State) : Outcome := .next (hostLosClear k s)

/-- HOST_CDR. -/
def execHostCdr (k : HLane) (s : State) : Outcome := .next (setCdr k true s)

/-- HOST_CDR_CLEAR. -/
def execHostCdrClear (k : HLane) (s : State) : Outcome := .next (setCdr k false s)

/-- HOST_ALIGN: alignment-marker lock and deskew of the client that starts at the lane; the alarm stands on each of its
lanes (R457). -/
def hostAlign (k : HLane) (aligned : Bool) (s : State) : State :=
  match clientAt s k with
  | some c =>
    eachOf (clientLanes s c) (fun i => raiseAlarm (.host i) 2 (!aligned))
      (modClients (·.first == k) (fun c => { c with aligned := aligned }) s)
  | none => s

/-- HOST_ALIGN. -/
def execHostAlign (k : HLane) (aligned : Bool) (s : State) : Outcome := .next (hostAlign k aligned s)

/-- HOST_FEC_DEG (R272). -/
def execHostFecDeg (k : HLane) (raised : Bool) (s : State) : Outcome := .next (setAlarm (.host k) 3 raised s)

/-- EGRESS_BUFFER_START (R268, R270): the buffer delivers while no condition is active. -/
def egressBufferStart (k : HLane) (s : State) : State :=
  modClients (fun c => c.first == k && c.rxOn && !c.rxFail && !clientDiffers s c) (fun c => { c with egress := true }) s

/-- EGRESS_BUFFER_START. -/
def execEgressBufferStart (k : HLane) (s : State) : Outcome := .next (egressBufferStart k s)

/-- EGRESS_SLIP (R268): the buffer restarts, and the superframe counts as failed (R270). -/
def egressSlip (k : HLane) (s : State) : State :=
  modClients (fun c => c.first == k && c.egress)
    (fun c => { c with egress := false, slipped := true, cnt := { c.cnt with egressSlip := c.cnt.egressSlip + 1 } }) s

/-- EGRESS_SLIP. -/
def execEgressSlip (k : HLane) (s : State) : Outcome := .next (egressSlip k s)

/-! ### Test patterns (R282) -/

/-- PRBS_SET. -/
def prbsSet (rq : Req) (s : State) : State :=
  let gen := pf rq 0 31 30
  let chk := pf rq 0 29 28
  let l := lanesIn (par rq 1)
  commandOk 0xF003 rq [badAt [(gen == 3 || chk == 3 || pf rq 0 27 0 != 0, 0)]]
    (fun s => [(l.any (fun k => laneLooped s k || (gen != 0 && (laneClient s k).isSome)), badState)])
    (fun s => eachOf l (fun k s => modLane k (fun x => { x with
      prbsGen := BitVec.ofNat 2 gen, prbsChk := BitVec.ofNat 2 chk
      prbsLock := x.prbsLock && x.prbsChk.toNat == chk && chk != 0 }) (prbsCount k s)) s) s

/-- PRBS_SET. -/
def execPrbsSet (rq : Req) (s : State) : Outcome := .next (prbsSet rq s)

/-- PRBS_LOCK: the checker locks to the received pattern, or loses it. -/
def prbsLock (k : HLane) (locked : Bool) (s : State) : State :=
  modLane k (fun l => { l with prbsLock := locked && l.prbsChk != 0 }) (prbsCount k s)

/-- PRBS_LOCK. -/
def execPrbsLock (k : HLane) (locked : Bool) (s : State) : Outcome := .next (prbsLock k locked s)

/-! ### HOST_STATUS and HOST_PM_READ (R286, R287) -/

/-- HOST_STATUS payload. RX_SNR, CTLE and DFE are measured by the receiver: free values. (DESIGN CHOICE, notes/assumptions 95) -/
def hostWords (s : State) (k : HLane) : List Word :=
  let l := s.lanes[k]
  let al := fun b => b2n (alarmOn s (.host k) b)
  let c := laneClient s k
  let first : Nat := match c with
    | some x => x.first.val
    | none => 0
  let m := freeWordAt s 0
  let t := fun (i : Fin 6) => unsgn 8 l.taps[i]
  [word [(31, 30, fld l.w1 31 30), (29, 29, b2n !l.los), (28, 28, b2n !l.cdr), (27, 27, b2n (c.any (·.aligned))),
      (26, 24, l.train.toNat), (23, 23, b2n (bit l.w1 26)), (22, 22, b2n l.precodeTx), (21, 21, b2n l.precodeRx),
      (20, 20, al 0), (19, 19, al 1), (18, 18, al 2), (17, 17, al 3), (16, 16, al 4), (15, 11, first),
      (10, 10, b2n c.isSome), (9, 9, b2n l.prbsLock)],
   word [(31, 16, fld m 31 16), (15, 0, l.trainTime.toNat)], l.preFec,
   word [(31, 24, t 0), (23, 16, t 1), (15, 8, t 2), (7, 0, t 3)], word [(31, 24, t 4), (23, 16, t 5)],
   word [(31, 24, fld m 15 8), (23, 16, fld m 7 0)]]

/-- Lane of a report about one. -/
def laneOf (rq : Req) : HLane := Fin.ofNat 32 (pf rq 0 31 27)

/-- What HOST_STATUS answers. -/
def hostStatusAnswer (rq : Req) (s : State) : State := tookFree (answerReply 0x3003 rq (hostWords · (laneOf rq)) s)

/-- HOST_STATUS (R13, R286). -/
def hostStatus (rq : Req) (s : State) : State :=
  report .device 0x3003 rq [badAt [(pf rq 0 26 0 != 0, 0)]] (hostStatusAnswer rq) s

/-- HOST_STATUS. -/
def execHostStatus (rq : Req) (s : State) : Outcome := .next (hostStatus rq s)

/-- The 30 words of HOST_PM_READ. -/
def hostCounters (s : State) (k : HLane) : List Word :=
  let l := s.lanes[k]
  let client : List Word := match laneClient s k with
    | some c =>
      let n := c.cnt
      two n.cwTotal ++ two n.cwCorr ++ two n.cwUncorr ++ two n.blocksIn ++ two n.blocksOut ++
        [n.idleIns, n.idleDel, n.ingressFail, n.egressFail, n.countErr, n.egressSlip, n.mismatch, 0]
    | none => List.replicate 18 0
  two l.corrBits ++ two l.rxBits ++ [l.losEvt, l.cdrLoss, l.trainFail, l.trainDone] ++ two l.prbsErr ++ two l.prbsBits ++ client

/-- What HOST_PM_READ answers. -/
def hostPmAnswer (rq : Req) (s : State) : State :=
  answerBulk 0x3004 rq (pf rq 0 23 0) (hostCounters · (laneOf rq)) (prbsCount (laneOf rq) s)

/-- HOST_PM_READ (R13, R287). -/
def hostPmRead (rq : Req) (s : State) : State :=
  report .device 0x3004 rq [badAt [(pf rq 0 26 24 != 0 || bulkBad (pf rq 0 23 0) 30, 0)]] (hostPmAnswer rq) s

/-- HOST_PM_READ. -/
def execHostPmRead (rq : Req) (s : State) : Outcome := .next (hostPmRead rq s)

end Sys2Proof.Machine
end

