-- ==== Sys2Proof/Machine/Fec.lean ====
section
/-! DEFINITION. The decoder pool (R191 to R216): superframes in the codeword buffers, dispatch, completions and
deadlines, Balance's cycle, the engines' health, the scrubber, and the FEC commands. -/

namespace Sys2Proof.Machine

/-! ### Protected memories (R214 to R216, R205) -/

/-- Data and check bits of a protected word (R214). -/
def eccData : Nat := 256
/-- Check bits of a protected word (R214). -/
def eccCheck : Nat := 40

/-- What the memory code makes of a word. -/
inductive EccRead where
  | clean | corrected | detected
deriving DecidableEq, Repr

/-- A read of a word with a burst of `n` bits (R214): up to 16 are corrected and up to 24 detected; what becomes of a longer
one the rule leaves open, a free choice (DESIGN CHOICE, notes/assumptions 148). -/
def eccRead (s : State) (n : Nat) : EccRead :=
  if n = 0 then .clean
  else if n ≤ 16 then .corrected
  else if n ≤ 24 then .detected
  else match Config.freeNat s.free % 3 with
    | 0 => .clean | 1 => .corrected | _ => .detected

/-- The bursts that an upset of `cells` adjacent cells of a row gives its two interleaved words (R214). -/
def rowBursts (cells : Nat) : List Nat := [(cells + 1) / 2, cells / 2]

/-- A read counts in ECC_CORR when it corrects a word and in ECC_DETECT when it cannot (R215). -/
def eccCount (r : EccRead) (s : State) : State :=
  tookFree (match r with
    | .clean => s
    | .corrected => modPool (fun x => { x with eccCorr := x.eccCorr + 1 }) s
    | .detected => modPool (fun x => { x with eccDetect := x.eccDetect + 1 }) s)

/-- Change one open superframe of a port. -/
def modOpen (p : LPort) (id : Nat) (f : OpenSf → OpenSf) (s : State) : State :=
  modPp p (fun x => { x with openSfs := x.openSfs.map fun o => if o.id == id then f o else o }) s

/-- A read of a word with a burst of `n` bits, of engine `e`'s memory or of the decoded buffer. An uncorrectable one fences the
engine; decoded bits pass as read (R215). (DEDUCED, notes/assumptions 101) -/
def poolWord (e : Option (Fin 64)) (n : Nat) (s : State) : State :=
  let r := eccRead s n
  let s := eccCount r s
  match e with
  | some e => if r == .detected then fence e (modPool (fun x => { x with engEcc := x.engEcc + 1 }) s) else s
  | none => s

/-- The LLRs of a superframe with those at the places `l` taken as 0. -/
def eraseLlrs (l : List Nat) (o : OpenSf) : OpenSf := { o with llr := o.llr.mapIdx fun i v => if l.contains i then 0 else v }

/-- A read of a word of the codeword buffer with a burst of `n` bits: an uncorrectable one is an erasure of its LLRs (R215). -/
def softWord (p : LPort) (sf : Nat) (l : List Nat) (n : Nat) (s : State) : State :=
  let r := eccRead s n
  let s := eccCount r s
  if r == .detected then modOpen p sf (eraseLlrs l) s else s

/-- A read of a word with a burst of `n` bits in any other memory: an uncorrectable one is a fault of its owner (R215, R459). -/
def unitWord (u : FUnit) (code : BitVec 8) (detail : BitVec 16) (n : Nat) (s : State) : State :=
  let r := eccRead s n
  let s := eccCount r s
  if r == .detected then detect u code 0 detail s else s

/-- A read of a word of a retainable bank with a burst of `n` bits (R215). -/
def bankWord (k : Fin 32) (n : Nat) (s : State) : State := unitWord (bankUnit k) 2 (BitVec.ofNat 16 k.val) n s

/-- A read of a protected word with a burst of `n` bits has the outcome of its memory (R215). -/
def readWord (m : BadMem) (n : Nat) (s : State) : State :=
  match m with
  | .softLlr p sf l => softWord p sf l n s
  | .decoded => poolWord none n s
  | .engine e => poolWord (some e) n s
  | .sram u memory => unitWord u 1 memory n s

/-- The domain of a fault unit. -/
def unitDomain : FUnit → Dom
  | .aon => .aon | .mon => .mon | .map => .map | .fq q => .fq q | .cv n => .cv n | .ld n => .ld n | .ho q => .ho q
  | .core _ => .ctl

/-- The domain of a protected memory. -/
def memDomain : BadMem → Dom
  | .softLlr _ _ _ => .map | .decoded => .map | .engine e => .fq (quadOf e) | .sram u _ => unitDomain u

/-- The scrubber reads the memories of a domain that is ON or IDLE (R216). -/
def scrubbed (s : State) (d : Dom) : Bool := domSt s d == .on || domSt s d == .idle

/-- An upset row that a pass meets: both its words are read (R214, R216). -/
def scrubRow (f : BadMem × Nat) (s : State) : State :=
  if scrubbed s (memDomain f.1) then eachOf (rowBursts f.2) (readWord f.1) s else s

/-- An upset row of a retainable bank. -/
def scrubBank (f : Fin 32 × Nat) (s : State) : State :=
  if scrubbed s (unitDomain (bankUnit f.1)) then eachOf (rowBursts f.2) (bankWord f.1) s else s

/-- SCRUB_PASS (R215, R216): the upset rows of a pass, each with its memory or bank and the number of adjacent cells; none runs
in reset. -/
def scrubPass (found : List (BadMem × Nat)) (banks : List (Fin 32 × Nat)) (s : State) : State :=
  if s.sys.inReset then s
  else eachOf banks scrubBank (eachOf found scrubRow (modPool (fun x => { x with scrubs := x.scrubs + 1 }) s))

/-- SCRUB_PASS. -/
def execScrubPass (found : List (BadMem × Nat)) (banks : List (Fin 32 × Nat)) (s : State) : Outcome :=
  .next (scrubPass found banks s)

/-! ### Closing codewords (R193, R197, R200, R212) -/

/-- The iterations that a completed codeword ran (R192): to the first at which its checks were satisfied, at least one, or to
its ceiling. -/
def ranIters (o : DecodeObs) (ceil : Nat) : Nat := if o.satisfied then max 1 (min o.iters ceil) else ceil

/-- The index at which a closed codeword enters q_p (R200), and the iterations that it ran. -/
def qEntry (o : DecodeObs) (ceil : Nat) : Nat × Nat :=
  (if o.satisfied then ranIters o ceil else 25, ranIters o ceil)

/-- The sent bits of codeword `j` with a channel LLR not 0 (R212). -/
def informedBits (o : OpenSf) (j : Nat) : List Nat :=
  (List.range 4096).filter fun x => (bitOffset o.fmt j x).isSome && chanLlr o.fmt o.llr j x != 0

/-- Of the informed bits of codeword `j`, those whose channel decision is `was` and whose final decision is the other. -/
def changedBits (o : OpenSf) (j : Nat) (hard : List Bool) (was : Bool) : Nat :=
  ((informedBits o j).filter fun x => decide (chanLlr o.fmt o.llr j x < 0) == was && hard.getD x false != was).length

/-- The counters of a port after codeword `j` has closed with a result (R192, R212); the outer decoder counts where the mode
has one (R182). (DEDUCED, notes/assumptions 98) -/
def countClosed (o : OpenSf) (j ceil : Nat) (hard : List Bool) (r : DecodeObs) (x : PoolPort) : PoolPort :=
  let n := ranIters r ceil
  let changed := fun was => if r.satisfied then BitVec.ofNat 64 (changedBits o j hard was) else 0
  let outer := fun k => if (outerCode (dFec o.fmt)).isSome then BitVec.ofNat 64 k else 0
  { x with
    cwTotal := x.cwTotal + 1
    codedBits := x.codedBits + BitVec.ofNat 64 (informedBits o j).length
    corr0to1 := x.corr0to1 + changed false
    corr1to0 := x.corr1to0 + changed true
    uncorr := if r.satisfied then x.uncorr else x.uncorr + 1
    ceilHit := if n == ceil then x.ceilHit + 1 else x.ceilHit
    outerCorr := x.outerCorr + outer r.outerCorr
    outerUncorr := x.outerUncorr + outer r.outerUncorr
    iterHist := if r.satisfied && n < 24 then vmod x.iterHist (Fin.ofNat 23 (n - 1)) (· + 1) else x.iterHist }

/-- Codeword `k` can close (R193): it has completed, and so have those of k + 64 and k + 128 that exist. -/
def canClose (o : OpenSf) (k : Nat) : Bool :=
  let doneOr := fun j => decide (o.count ≤ j) || o.complete.contains j
  o.complete.contains k && !o.closed.contains k && doneOr (k + 64) && doneOr (k + 128)

/-- Posteriors of codeword `j` in the buffer. -/
def softOf (o : OpenSf) (j : Nat) : List Int := ((o.soft.find? (·.1 == j)).map (·.2)).getD []

/-- Hard decisions of posteriors that are positive for 0. -/
def decide0 (l : List Int) : List Bool := l.map fun v => decide (v < 0)

/-- A completed codeword closes (R193): its hard decisions go to the decoded buffer and its slot is free. `r` is its index,
ceiling and result. -/
def settleCw (p : LPort) (id : Nat) (r : Nat × Nat × DecodeObs) (s : State) : State :=
  match s.pool.ports[p].openSfs.find? (·.id == id) with
  | none => s
  | some o =>
    let hard := decide0 (softOf o r.1)
    modPp p (countClosed o r.1 r.2.1 hard r.2.2) (modOpen p id (fun o => { o with
      closed := r.1 :: o.closed, results := o.results.filter (·.1 != r.1), soft := o.soft.filter (·.1 != r.1)
      hard := (r.1, hard) :: o.hard, iters := qEntry r.2.2 r.2.1 :: o.iters }) s)

/-- Close codeword `k` of a superframe when it can close. -/
def closeCw (p : LPort) (id k : Nat) (s : State) : State :=
  match s.pool.ports[p].openSfs.find? (·.id == id) with
  | none => s
  | some o =>
    match canClose o k, o.results.find? (·.1 == k) with
    | true, some r => settleCw p id r s
    | _, _ => s

/-- A superframe whose codewords have all closed leaves the buffer; its counts enter the history of the last
16 superframes (R200), and its outer codewords count (R212). -/
def finishSf (p : LPort) (id : Nat) (s : State) : State :=
  match s.pool.ports[p].openSfs.find? (·.id == id) with
  | none => s
  | some o => modPp p (fun x => { x with
      openSfs := x.openSfs.filter (·.id != id), hist := (o.iters :: x.hist).take 16, decoded := o.hard
      lastClosedFmt := o.fmt, lastClosedCount := o.count
      outerCw := x.outerCw + BitVec.ofNat 64 (outerCodewords o.fmt) }) s

/-- The codewords of a superframe that engines run. -/
def runningCws (s : State) (p : LPort) (id : Nat) : List Nat :=
  (List.finRange 64).filterMap fun e => (s.pool.engines[e].running.filter fun j => j.port == p && j.sf == id).map (·.cw)

/-- Decisions of a codeword that is closed before it has completed (R197): those of the last complete iteration when an engine
runs it, which the received signal decides, a free value; else the signs of its channel LLRs. -/
def lostBits (s : State) (o : OpenSf) (running : List Nat) (j : Nat) : List Bool :=
  (List.range 4096).map fun x =>
    if running.contains j then Config.lastDecision s.free (4096 * j + x) else decide (chanLlr o.fmt o.llr j x < 0)

/-- The counters of a port after the deadline has closed the codewords `lost` of superframe `o`, `unsat` of them with a check
not satisfied (R197, R212). The outer decoder's counts are free values (DESIGN CHOICE, notes/assumptions 34). -/
def countLost (s : State) (o : OpenSf) (lost : List Nat) (unsat : Nat) (x : PoolPort) : PoolPort :=
  let free := fun i n => BitVec.ofNat 64 ((freeWordAt s i).toNat % (n + 1))
  { x with
    cwTotal := x.cwTotal + BitVec.ofNat 64 lost.length
    deadlineMiss := x.deadlineMiss + wd lost.length
    uncorr := x.uncorr + BitVec.ofNat 64 unsat
    codedBits := x.codedBits + BitVec.ofNat 64 ((lost.map fun j => (informedBits o j).length).foldl (· + ·) 0)
    outerCorr := x.outerCorr + free 1 (14 * outerCodewords o.fmt)
    outerUncorr := x.outerUncorr + free 2 (outerCodewords o.fmt) }

/-- How the codewords lost at the deadline enter the history: `unsat` of them with a check not satisfied; how far the `running`
engines had come is free, and the others ran no iteration (DESIGN CHOICE, notes/assumptions 99). -/
def lostEntries (s : State) (lost unsat running : Nat) : List (Nat × Nat) :=
  let part := min unsat running
  List.replicate part (25, Config.freeNat (s.free + 1) % 25) ++ List.replicate (unsat - part) (25, 0) ++
    List.replicate (lost - unsat) (0, 0)

/-- The oldest open superframe of a port is closed at its deadline (R196, R197): completed codewords close with
their results and every other one counts DEADLINE_MISS. -/
def closeSf (p : LPort) (id unsatisfied : Nat) (s : State) : State :=
  match s.pool.ports[p].openSfs.find? (·.id == id) with
  | none => s
  | some o =>
    let running := runningCws s p id
    let lost := (List.range o.count).filter fun j => !o.complete.contains j
    let unsat := min unsatisfied lost.length
    let bits := lost.map fun j => (j, lostBits s o running j)
    let s := modPp p (countLost s o lost unsat) (withdraw (fun j => j.port == p && j.sf == id) s)
    let s := modOpen p id (fun o => { o with
      hard := bits ++ o.hard, iters := lostEntries s lost.length unsat running.length ++ o.iters }) s
    tookFree (tookFree (finishSf p id (eachOf o.results (settleCw p id) s)))

/-! ### Receive boundary (R35, R191, R196, R200) -/

/-- Codeword slots in use (R196). -/
def slotsUsed (x : PoolPort) : Nat := (x.openSfs.map OpenSf.openCount).foldl (· + ·) 0

/-- Close the oldest superframes until `need` slots are free (R196); how many of their codewords have
unsatisfied checks is a free value. (DESIGN CHOICE, notes/assumptions 99) -/
def freeSlots (p : LPort) (need : Nat) : Nat → State → State
  | 0, s => s
  | fuel + 1, s =>
    let x := s.pool.ports[p]
    if slotsUsed x + need ≤ 10240 then s
    else match x.openSfs.head? with
      | none => s
      | some o => freeSlots p need fuel
          (modPp p (fun x => { x with slotClose := x.slotClose + 1 }) (closeSf p o.id (Config.freeNat s.free) (tookFree s)))

/-- Length of the latency window of the decode in 0.1 µs (R194). -/
def windowOf (x : PoolPort) : Nat := 250 + 7 * (x.cLat.toNat - 4)

/-- LLR_SCALE of a port (R107, R125): the configured one, or the port's own from the SNR of the superframe. -/
def llrScale (s : State) (p : LPort) (o : RxObs) : Nat :=
  let w := s.ports[p].rx.cfg[6]
  if bit w 31 then fld w 30 24 else Config.autoScale (o.snrX.toNat + o.snrY.toNat)

/-- The LLRs of a superframe as they enter the slots: scaled by LLR_SCALE / 32 and clipped to 5 bits (R125). The fraction is
dropped (DESIGN CHOICE, notes/assumptions 158). -/
def slotLlrs (scale : Nat) (llrs : List Int) : List Int := llrs.map fun v => clip5 (v * scale / 32)

/-- A superframe begins at the demapper output: the one before it is ready with the LLRs of its bits and its deadline runs,
and the new one takes its slots (R191, R194, R196). -/
def openSf (p : LPort) (obs : RxObs) (s : State) : State :=
  let now := 10 * s.sys.usec
  let llrs := slotLlrs (llrScale s p obs) obs.llrs
  let s := modPp p (fun x => { x with openSfs := x.openSfs.map fun o =>
    if o.ready then o else { o with ready := true, deadline := now + windowOf x, llr := llrs } }) s
  let fmt := s.ports[p].tr.rxNow
  if s.ports[p].sf.aligned && isOn s .map && !s.map.stopped then
    let n := codewords fmt
    let s := freeSlots p n s.pool.ports[p].openSfs.length s
    modPp p (fun x => { x with
      openSfs := x.openSfs ++ [{ id := x.nextSf, count := n, fmt := fmt, ready := false, complete := [], closed := [],
                                 out := [], again := [], deadline := 0 }]
      nextSf := x.nextSf + 1 }) s
  else s

/-- The SNR has fallen by 0.5 dB or more below the mean of the previous 16 superframes (R200); SNRs are sums of X
and Y in 0.01 dB. (DEDUCED, notes/assumptions 100) -/
def snrFell (olds : List Nat) (snr : Nat) : Bool := olds.length == 16 && decide (16 * (snr + 100) ≤ olds.foldl (· + ·) 0)

/-- What a port in the pool does at its receive boundary: the superframe's slots, its report to Balance (R35) and
its caution (R200). -/
def poolBoundary (p : LPort) (o : RxObs) (s : State) : State :=
  if s.pool.ports[p].inPool then
    let fmt := s.ports[p].tr.rxNow
    let snr := o.snrX.toNat + o.snrY.toNat
    modPp p (fun x => { x with
      report := some (codewords fmt, BitVec.ofNat 10 (dRate fmt))
      cautious := if snrFell x.snrs snr then 16 else x.cautious - 1
      snrs := (snr :: x.snrs).take 16 }) (openSf p o s)
  else s

/-- A receive format that took effect at the first symbol of the present superframe decides its codewords (R196, R201,
R231). -/
def refitSf (p : LPort) (s : State) : State :=
  let fmt := s.ports[p].tr.rxNow
  match s.pool.ports[p].openSfs.getLast? with
  | none => s
  | some o =>
    if o.ready || o.fmt == fmt then s
    else
      let n := codewords fmt
      let s := freeSlots p (n - o.count) s.pool.ports[p].openSfs.length s
      modPp p (fun x => { x with
        openSfs := x.openSfs.map fun y => if y.id == o.id then { y with fmt := fmt, count := n } else y
        report := some (n, BitVec.ofNat 10 (dRate fmt)) }) s

/-! ### Dispatch and completion (R191 to R193, R201, R203) -/

/-- A codeword that may be dispatched, with the order in which the dispatcher takes it. -/
structure Ready where
  deadline : Nat
  again    : Bool
  port     : LPort
  sf       : Nat
  cw       : Nat
deriving DecidableEq, Repr

/-- Codeword `j` of an open superframe may be dispatched (R191). -/
def readyCw (o : OpenSf) (j : Nat) : Bool :=
  o.ready && !o.complete.contains j && !o.out.contains j && (decide (j < 64) || o.complete.contains (j - 64))

/-- All codewords that may be dispatched. -/
def readyList (s : State) : List Ready :=
  allPorts.flatMap fun p => s.pool.ports[p].openSfs.flatMap fun o =>
    ((List.range o.count).filter (readyCw o)).map fun j =>
      { deadline := o.deadline, again := o.again.contains j, port := p, sf := o.id, cw := j }

/-- Order of dispatch (R203, R205): earliest deadline, codewords that are dispatched again, lower port, older
superframe, lower index. -/
def readyBefore (a b : Ready) : Bool :=
  if a.deadline != b.deadline then decide (a.deadline < b.deadline)
  else if a.again != b.again then a.again
  else if a.port != b.port then decide (a.port.val < b.port.val)
  else if a.sf != b.sf then decide (a.sf < b.sf)
  else decide (a.cw < b.cw)

/-- First codeword in the order of dispatch. -/
def firstReady (l : List Ready) : Option Ready :=
  l.foldl (fun best a => match best with
    | none => some a
    | some b => if readyBefore a b then some a else some b) none

/-- The engine with credit and the highest speed, the lowest number on a tie (R203). -/
def pickEngine (s : State) : Option Engine :=
  ((List.finRange 64).filter fun e => engineUp s e && (s.pool.engines[e].running.isNone || s.pool.engines[e].staged.isNone)).foldl
    (fun best e => match best with
      | none => some e
      | some b => if s.pool.engines[b].speed < s.pool.engines[e].speed then some e else some b) none

/-- CODEWORD_DISPATCH (R203): at most one dispatch, at the ceiling of the last cycle (R201) but never above C_LAT (R195); a
repeated one counts REDISPATCH (R205). -/
def codewordDispatch (s : State) : State :=
  if isOn s .map && !s.map.stopped then
    match firstReady (readyList s), pickEngine s with
    | some r, some e =>
      let x := s.pool.ports[r.port]
      let job : Job := { port := r.port, sf := r.sf, cw := r.cw, ceil := min x.ceil.toNat x.cLat.toNat }
      let s := if r.again then modPool (fun x => { x with redispatch := x.redispatch + 1 }) s else s
      let s := modOpen r.port r.sf (fun o => { o with out := r.cw :: o.out, again := o.again.erase r.cw }) s
      modEng e (fun x => if x.running.isNone then { x with running := some job } else { x with staged := some job }) s
    | _, _ => s
  else s

/-- CODEWORD_DISPATCH. -/
def execCodewordDispatch (s : State) : Outcome := .next (codewordDispatch s)

/-- Add `v` to entry `i` of a list that reads 0 beyond its end. -/
def addAt (l : List Int) (i : Nat) (v : Int) : List Int :=
  if i < l.length then l.modify i (· + v) else l ++ List.replicate (i - l.length) 0 ++ [v]

/-- Add the extrinsic values of a codeword's coupled bits, one for each check, to a codeword's posteriors (R186, R193). -/
def addExt (place : Nat → Nat) (ext : List Int) (l : List Int) : List Int :=
  ext.zipIdx.foldl (fun l e => addAt l (place e.2) e.1) l

/-- What an engine writes at completion (R193): the posteriors of the codeword's own bits, and its extrinsic values added to
the coupled bits of codewords j − 64 and j − 128. -/
def writeSoft (j : Nat) (o : DecodeObs) (x : OpenSf) : OpenSf :=
  let fec := dFec x.fmt
  let near := o.ext.map (·.1)
  let far := o.ext.map (·.2)
  { x with soft := (j, o.post) :: x.soft.map fun c =>
      if c.1 + 64 == j then (c.1, addExt (fun i => (coupledBits fec i).1) near c.2)
      else if c.1 + 128 == j then (c.1, addExt (fun i => (coupledBits fec i).2) far c.2)
      else c }

/-- One word that engine `e` has read with a burst while it ran `j`: of its own memory, or of the codeword buffer. -/
def engineReads (e : Engine) (j : Job) (b : Option (List Nat) × Nat) (s : State) : State :=
  match b.1 with
  | none => poolWord (some e) b.2 s
  | some l => softWord j.port j.sf l b.2 s

/-- ENGINE_COMPLETE (R192, R193): the engine has read its memory and the codeword buffer (R214, R215), and an uncorrectable word
of its own memory fences it; else the credit returns, the staged codeword starts, and the codeword and those that waited for
it close. -/
def engineComplete (e : Engine) (o : DecodeObs) (s : State) : State :=
  match s.pool.engines[e].running with
  | none => s
  | some j =>
    let s := eachOf o.bursts (engineReads e j) s
    if s.pool.engines[e].fenced then s
    else
      let s := modEng e (fun x => { x with running := x.staged, staged := none, cw := x.cw + 1 }) s
      let s := modOpen j.port j.sf (fun x => writeSoft j.cw o { x with
        complete := j.cw :: x.complete, out := x.out.erase j.cw, results := (j.cw, j.ceil, o) :: x.results }) s
      let s := closeCw j.port j.sf j.cw s
      let s := if 64 ≤ j.cw then closeCw j.port j.sf (j.cw - 64) s else s
      let s := if 128 ≤ j.cw then closeCw j.port j.sf (j.cw - 128) s else s
      match s.pool.ports[j.port].openSfs.find? (·.id == j.sf) with
      | some x => if x.closed.length == x.count then finishSf j.port j.sf s else s
      | none => s

/-- ENGINE_COMPLETE. -/
def execEngineComplete (e : Engine) (o : DecodeObs) (s : State) : Outcome := .next (engineComplete e o s)

/-- DECODE_DEADLINE (R197): the oldest superframe that is ready closes. -/
def decodeDeadline (p : LPort) (unsatisfied : Nat) (s : State) : State :=
  match s.pool.ports[p].openSfs.find? (·.ready) with
  | some o => closeSf p o.id unsatisfied s
  | none => s

/-- DECODE_DEADLINE. -/
def execDecodeDeadline (p : LPort) (unsatisfied : Nat) (s : State) : Outcome := .next (decodeDeadline p unsatisfied s)

/-! ### Balance (R199, R200, R202) -/

/-- A scaled need in clocks per µs, rounded down. -/
def clocks (s : State) (need : Nat) : Nat := need / (1048576 * histDen s)

/-- BALANCE_CYCLE (R199, R200, R202). -/
def balanceCycle (s : State) : State :=
  if isOn s .map && !s.map.stopped then
    let cap := capacity100 s fun _ => true
    let cs := ceilLoop s cap 24 (ceilStart s)
    let need := needSum s fun p => cs[p]
    let short := !fits s need cap
    let now := clocks s need
    modPool (fun x => { x with
      short := short, shortRun := if short then x.shortRun + 1 else 0, clearRun := if short then 0 else x.clearRun + 1
      capacity := cap / 100, need := now
      ports := Vector.ofFn fun p =>
        let y := x.ports[p]
        if y.inPool then { y with
          ceil := BitVec.ofNat 5 cs[p], shortRun := if short then y.shortRun + 1 else 0
          starved := if short then y.starved + 1 else y.starved }
        else y }) s
  else s

/-- BALANCE_CYCLE. -/
def execBalanceCycle (s : State) : Outcome := .next (balanceCycle s)

/-- FEC_STARVED (R202): short has held for 4 consecutive cycles; while the alarm stands on other ports, a port that has joined
counts the cycles since. -/
def fecStarved (s : State) : State :=
  if 4 ≤ s.pool.shortRun then
    let stands := allPorts.any fun p => alarmOn s (.line p) 9
    eachOf ((poolPorts s).filter fun p => !stands || decide (4 ≤ s.pool.ports[p].shortRun)) (fun p => setAlarm (.line p) 9 true) s
  else s

/-- FEC_STARVED. -/
def execFecStarved (s : State) : Outcome := .next (fecStarved s)

/-- FEC_STARVED_CLEAR (R202): short has been false for 16 consecutive cycles. -/
def fecStarvedClear (s : State) : State :=
  if 16 ≤ s.pool.clearRun then eachPort (fun p => setAlarm (.line p) 9 false) s else s

/-- FEC_STARVED_CLEAR. -/
def execFecStarvedClear (s : State) : Outcome := .next (fecStarvedClear s)

/-! ### Engines (R204 to R206) -/

/-- ENGINE_THROTTLE (R204). -/
def engineThrottle (e : Engine) (s : State) : State :=
  if isOn s (.fq (quadOf e)) && decide (1 < s.pool.engines[e].speed) then
    modPool (fun x => { x with throttle := x.throttle + 1 }) (modEng e (fun x => { x with speed := x.speed - 1 }) s)
  else s

/-- ENGINE_THROTTLE. -/
def execEngineThrottle (e : Engine) (s : State) : Outcome := .next (engineThrottle e s)

/-- ENGINE_SPEED_RESTORE (R204). -/
def engineSpeedRestore (e : Engine) (s : State) : State :=
  if isOn s (.fq (quadOf e)) && decide (s.pool.engines[e].speed < 4) then modEng e (fun x => { x with speed := x.speed + 1 }) s
  else s

/-- ENGINE_SPEED_RESTORE. -/
def execEngineSpeedRestore (e : Engine) (s : State) : Outcome := .next (engineSpeedRestore e s)

/-- WATCHDOG (R205): an engine that runs a codeword has not completed it in time. -/
def watchdog (e : Engine) (s : State) : State :=
  if s.pool.engines[e].running.isSome then fence e (modPool (fun x => { x with watchdog := x.watchdog + 1 }) s) else s

/-- WATCHDOG. -/
def execWatchdog (e : Engine) (s : State) : Outcome := .next (watchdog e s)

/-- A known-answer test has failed (R205, R206). -/
def katFailed (e : Engine) (s : State) : State := fence e (modPool (fun x => { x with katFail := x.katFail + 1 }) s)

/-- KAT_RUN (R205): an engine in service decodes its stored codeword. -/
def katRun (e : Engine) (passed : Bool) (s : State) : State := if engineUp s e && !passed then katFailed e s else s

/-- KAT_RUN. -/
def execKatRun (e : Engine) (passed : Bool) (s : State) : Outcome := .next (katRun e passed s)

/-- KNOWN_ANSWER_TEST_DONE (R206): the engine of a quad that has returned rejoins the pool if the test passed. -/
def knownAnswerTestDone (e : Engine) (passed : Bool) (s : State) : State :=
  if s.pool.engines[e].testing && isOn s (.fq (quadOf e)) then
    let s := modEng e (fun x => { x with testing := false }) s
    if passed then s else katFailed e s
  else s

/-- KNOWN_ANSWER_TEST_DONE. -/
def execKnownAnswerTestDone (e : Engine) (passed : Bool) (s : State) : Outcome := .next (knownAnswerTestDone e passed s)

/-! ### Commands (R209 to R213) -/

/-- The transmit format that a FEC_MODE_SET would leave carries too few slots (R209). -/
def fecSlotsBad (rq : Req) (s : State) : Bool :=
  let p := pport rq 0
  2 ≤ pf rq 0 29 28 && decide (slotsCarried (withFec s.ports[p].tr.txFmt (pf rq 0 27 26)) < topSlot (mustCarry s p))

/-- FEC_MODE_SET (R209). -/
def fecModeSet (rq : Req) (s : State) : State :=
  let p := pport rq 0
  let m := pf rq 0 27 26
  let d := pf rq 0 29 28
  commandOk 0x4001 rq
    [badAt [(d == 0 || m == 3 || pf rq 0 25 0 != 0, 0)], (fecSlotsBad rq s, { st := .badParam, detail := 1 })]
    (fun s => [(inService s p, badState)])
    (modTr p fun t => { t with
      rxFmt := if d % 2 == 1 then withFec t.rxFmt m else t.rxFmt
      txFmt := if 2 ≤ d then withFec t.txFmt m else t.txFmt }) s

/-- FEC_MODE_SET. -/
def execFecModeSet (rq : Req) (s : State) : Outcome := .next (fecModeSet rq s)

/-- FEC_POOL_POLICY (R210). -/
def fecPoolPolicy (rq : Req) (s : State) : State :=
  let lo := pf rq 1 31 27
  let hi := pf rq 1 26 22
  let out := fun n => decide (n < 4) || decide (24 < n)
  let sel := fun (p : LPort) => bit (par rq 0) (28 + p.val)
  command 0x4002 rq
    [badAt [(pf rq 0 22 0 != 0 || (pf rq 0 31 28 == 0 && pf rq 0 27 27 == 0), 0),
            (out lo || out hi || decide (hi < lo) || pf rq 1 21 0 != 0, 1)]]
    (fun _ => [])
    (fun s =>
      let s := modPool (fun x => { x with
        reserve := if bit (par rq 0) 27 then BitVec.ofNat 4 (pf rq 0 26 23) else x.reserve
        ports := Vector.ofFn fun p =>
          if sel p then { x.ports[p] with floor := BitVec.ofNat 5 lo, ceilMax := BitVec.ofNat 5 hi } else x.ports[p] }) s
      reply 0x4002 rq (okFlags (b2n (allPorts.any fun p => sel p && decide (s.pool.ports[p].cLat.toNat < hi)))) s) s

/-- FEC_POOL_POLICY. -/
def execFecPoolPolicy (rq : Req) (s : State) : Outcome := .next (fecPoolPolicy rq s)

/-- MEAN_ITER of a port in 0.01, rounded down (DESIGN CHOICE, notes/assumptions 99). -/
def meanIter (x : PoolPort) : Nat :=
  100 * (x.hist.foldl (fun a l => a + (l.map (·.2)).foldl (· + ·) 0) 0) / histTotal x

/-- Port words of FEC_STATUS (R211). -/
def fecPortWords (s : State) (p : LPort) : List Word :=
  let x := s.pool.ports[p]
  [word [(31, 30, dFec x.lastClosedFmt), (29, 28, dFec s.ports[p].sf.sent[5]), (27, 23, x.ceil.toNat), (22, 18, x.floor.toNat),
      (17, 13, x.ceilMax.toNat), (12, 8, x.cLat.toNat), (7, 7, b2n x.inPool), (6, 6, b2n (alarmOn s (.line p) 9)),
      (5, 5, b2n (x.inPool && x.cautious != 0))],
   word [(31, 16, 280 + 7 * (x.cLat.toNat - 4)), (15, 0, x.lastClosedCount)],
   word [(31, 16, meanIter x), (15, 0, slotsUsed x)],
   wd (clocks s (needOf s p x.ceil.toNat)),
   wd (if x.lastClosedCount = 0 then 0 else payloadBits x.lastClosedFmt)]

/-- ENG_STATE of an engine (R211). -/
def engCode (s : State) (e : Engine) : Nat :=
  let st := if !isOn s (.fq (quadOf e)) then 2 else if engineFenced s e then 1 else 0
  4 * st + (4 - s.pool.engines[e].speed)

/-- Pool words of FEC_STATUS (R211). -/
def fecPoolWords (s : State) : List Word :=
  let n := fun f => ((List.finRange 64).filter fun e => f (engCode s e)).length
  [word [(31, 24, n (· == 0)), (23, 16, n fun c => 0 < c && c < 4), (15, 8, n fun c => 4 ≤ c && c < 8), (7, 0, n (8 ≤ ·))],
   word [(31, 28, ([0, 1, 2, 3] : List (Fin 4)).foldl (fun a q => a + b2n (isOn s (.fq q)) * 2 ^ q.val) 0),
       (27, 24, s.pool.reserve.toNat), (23, 23, b2n s.pool.short)],
   wd s.pool.capacity, wd s.pool.need] ++
  (List.range 8).map fun k => word ((List.range 8).map fun i => (31 - 4 * i, 28 - 4 * i, engCode s (Fin.ofNat 64 (8 * k + i))))

/-- Where the snapshot of an FEC report is taken: POOL makes it device-wide (R13, R211, R212). -/
def fecAt (rq : Req) : ReportAt := if bit (par rq 0) 29 then .device else .port (pport rq 0)

/-- What FEC_STATUS answers. -/
def fecStatusAnswer (rq : Req) : State → State :=
  answerReply 0x4003 rq fun s => if bit (par rq 0) 29 then fecPoolWords s else fecPortWords s (pport rq 0)

/-- FEC_STATUS (R13, R211). -/
def fecStatus (rq : Req) (s : State) : State :=
  report (fecAt rq) 0x4003 rq [badAt [(pf rq 0 28 0 != 0, 0)]] (fecStatusAnswer rq) s

/-- FEC_STATUS. -/
def execFecStatus (rq : Req) (s : State) : Outcome := .next (fecStatus rq s)

/-- Port counters of FEC_PM_READ (R212). -/
def fecPortCounters (x : PoolPort) : List Word :=
  [x.cwTotal, x.codedBits, x.corr0to1, x.corr1to0, x.uncorr, x.ceilHit, x.outerCw, x.outerCorr, x.outerUncorr].flatMap two ++
    [x.deadlineMiss, x.slotClose, x.starved, x.discard] ++ x.iterHist.toList

/-- Pool counters of FEC_PM_READ (R212). -/
def fecPoolCounters (x : Pool) : List Word :=
  x.engines.toList.map (·.cw) ++ [x.fenceEvt, x.redispatch, x.katFail, x.watchdog, x.engEcc, x.throttle] ++
    two x.eccCorr ++ [x.eccDetect, x.scrubs]

/-- What FEC_PM_READ answers. -/
def fecPmAnswer (rq : Req) : State → State :=
  answerBulk 0x4004 rq (pf rq 0 23 0) fun s =>
    if bit (par rq 0) 29 then fecPoolCounters s.pool else fecPortCounters s.pool.ports[pport rq 0]

/-- FEC_PM_READ (R13, R212). -/
def fecPmRead (rq : Req) (s : State) : State :=
  report (fecAt rq) 0x4004 rq
    [badAt [(pf rq 0 28 24 != 0 || bulkBad (pf rq 0 23 0) (if bit (par rq 0) 29 then 74 else 45), 0)]] (fecPmAnswer rq) s

/-- FEC_PM_READ. -/
def execFecPmRead (rq : Req) (s : State) : Outcome := .next (fecPmRead rq s)

end Sys2Proof.Machine
end

