-- ==== Sys2Proof/Machine/Mailbox.lean ====
section
/-! DEFINITION. The mailboxes (R367 to R385): posting, taking and resetting a host channel, and what happens
to messages that wait for space. -/

namespace Sys2Proof.Machine

/-! ### Posting (R374, R383) -/

/-- M4 and M5 carry no commands (R367). -/
def noInbound (n : Fin 8) : Bool := n.val == 4 || n.val == 5

/-- A posted word wakes CTL when it is not ON (R369); during a transition that takes CTL down, once that has completed
(R412). -/
def wakeCtl (s : State) : State :=
  if (isOn s .ctl && !inDown s .ctl) || s.power.accessWakes.contains .ctl then s
  else modPower (fun p => { p with accessWakes := p.accessWakes ++ [.ctl] }) s

/-- Append a word to the inbound queue of channel `n` from a sender (R368, R370, R374, R383): words of
another class are discarded while a message is partly in, and a word without space is discarded. -/
def postWord (n : Fin 8) (st : Stamp) (w : Word) (s : State) : State :=
  let c := s.mbx.m[n]
  let clash := match c.inPart with
    | some (k, _) => k != st.cls
    | none => false
  if clash then modM n (fun c => { c with conflict := true }) s
  else if noInbound n || 16 ≤ c.inQ.length then modM n (fun c => { c with overrun := true }) s
  else
    let q : QWord := { w := w, start := c.inPart.isNone, stamp := st, reqOf := none, hwAbort := false, stale := false, arrived := s.mbx.arrivals }
    let left := match c.inPart with
      | some (_, k) => k - 1
      | none => fld w 7 0 + 1
    wakeCtl (modM n (fun c => { c with
      inQ := c.inQ ++ [q], inPart := if left = 0 then none else some (st.cls, left) })
      (modMbx (fun x => { x with arrivals := x.arrivals + 1 }) s))

/-- MBX_POST. -/
def mbxPost (who : HostPort) (n : Fin 8) (w : Word) (s : State) : State :=
  access who (fun s => feDone who (BitVec.ofNat 16 (0x0100 + n.val)) 0 (postWord n (hostStamp s who n) w s)) s

/-- MBX_POST. -/
def execMbxPost (who : HostPort) (n : Fin 8) (w : Word) (s : State) : Outcome := .next (mbxPost who n w s)

/-! ### Taking (R383, R385) -/

/-- A message taken now is stale: its sender restarted since it was posted (R372). -/
def outStale (s : State) (q : QWord) : Bool :=
  q.stale || (q.stamp.cls == 3 && s.mbx.coreGen[(Fin.ofNat 7 q.stamp.ident.toNat : Fin 7)] != q.stamp.gen)

/-- MBX.STAMP_n for the first word of a message (R383, R385). -/
def stampWord (s : State) (n : Fin 8) (q : QWord) : Word :=
  let old := match q.reqOf with
    | some (cls, g) => classGen s.mbx.m[n] cls.toNat != g
    | none => false
  word [(31, 29, q.stamp.cls.toNat), (28, 18, q.stamp.ident.toNat), (17, 14, q.stamp.gen.toNat),
    (13, 13, b2n (outStale s q)), (12, 12, b2n old), (11, 11, b2n q.hwAbort),
    (10, 8, (q.reqOf.map (·.1.toNat)).getD 0)]

/-- Latch MBX.STAMP_n for a port (R385, R389). -/
def latchStamp (who : HostPort) (w : Word) (c : MChan) : MChan :=
  match who with
  | .twi => { c with stampTwi := w } | .mspi => { c with stampMspi := w } | .test => { c with stampTest := w }

/-- A message partly in the queue flows on as words are taken (R368). -/
def flowOn (n : Fin 8) (s : State) : State :=
  if s.mbx.m[n].outWait.head?.any (fun m => m.posted != 0) then pourM n s else s

/-- Take the head word of the outbound queue of channel `n` (R383): the word, and the state after. -/
def takeWord (who : HostPort) (n : Fin 8) (s : State) : Word × State :=
  match s.mbx.m[n].outQ with
  | [] => (0, modM n (fun c => { c with underrun := true }) s)
  | q :: rest =>
    let s' := modM n (fun c => { c with outQ := rest }) s
    let s' := if q.start then
        modMbx (fun x => { x with cntStale := if outStale s q then x.cntStale + 1 else x.cntStale })
          (modM n (latchStamp who (stampWord s n q)) s')
      else s'
    (q.w, flowOn n s')

/-- MBX_TAKE. -/
def mbxTake (who : HostPort) (n : Fin 8) (s : State) : State :=
  access who (fun s =>
    let r := takeWord who n s
    feDone who (BitVec.ofNat 16 (0x0108 + n.val)) r.1 r.2) s

/-- MBX_TAKE. -/
def execMbxTake (who : HostPort) (n : Fin 8) (s : State) : Outcome := .next (mbxTake who n s)

/-! ### Reset of a channel (R380) -/

/-- Words of a queue before its last message start. -/
def beforeLast (l : List QWord) : List QWord := ((l.reverse.dropWhile (!·.start)).drop 1).reverse

/-- One more generation of a class. -/
def bumpGen (who : HostPort) (c : MChan) : MChan :=
  match who with
  | .twi => { c with genTwi := c.genTwi + 1 } | .mspi => { c with genMspi := c.genMspi + 1 }
  | .test => { c with genTest := c.genTest + 1 }

/-- The W1C bits of MBX.CTRL_n (R383). -/
def ctrlClear (w : Word) (c : MChan) : MChan :=
  { c with underrun := c.underrun && !bit w 15, overrun := c.overrun && !bit w 14,
           conflict := c.conflict && !bit w 13, drop := c.drop && !bit w 12 }

/-- A class restarts its use of channel `n` (R379, R380). -/
def resetChan (who : HostPort) (n : Fin 8) (s : State) : State :=
  let c := s.mbx.m[n]
  let mine := match c.inPart with
    | some (k, _) => k.toNat == classOf who
    | none => false
  let partly := c.outWait.head?.any fun m => m.posted != 0
  let s := modM n (fun c => bumpGen who { c with
    outQ := [], outWait := if partly then c.outWait.drop 1 else c.outWait
    busy := c.busy && !(partly && c.outWait.head?.any (·.endsCmd))
    inQ := if mine then beforeLast c.inQ else c.inQ
    inPart := if mine then none else c.inPart }) s
  let s := doIf (decide (8 < c.inQ.length) && decide (s.mbx.m[n].inQ.length ≤ 8)) (ring (8 + n.val)) s
  if mine then modMbx (fun x => { x with cntPartial := x.cntPartial + 1 }) s else s

/-- A write to MBX.CTRL_n (R380, R383). -/
def ctrlWrite (who : HostPort) (n : Fin 8) (w : Word) (s : State) : State :=
  doIf (bit w 31) (resetChan who n) (modM n (ctrlClear w) s)

/-- MBX_CTRL_RESET. -/
def mbxCtrlReset (who : HostPort) (n : Fin 8) (w : Word) (s : State) : State :=
  access who (fun s => feDone who (BitVec.ofNat 16 (0x0118 + n.val)) 0 (ctrlWrite who n w s)) s

/-- MBX_CTRL_RESET. -/
def execMbxCtrlReset (who : HostPort) (n : Fin 8) (w : Word) (s : State) : Outcome :=
  .next (mbxCtrlReset who n w s)

/-! ### Waiting for space (R70, R375, R376) -/

/-- Requests that wait for an inbound Joryx queue enter it in order while they fit (R70). -/
def pourJ (n : Fin 4) (s : State) : State :=
  modJ n (fun c =>
    let r := c.waitQ.foldl (fun (acc : List QWord × List (LPort × BitVec 11 × List Word)) m =>
      let st : Stamp := { cls := 2, ident := m.2.1, gen := ((s.mbx.nodeGen.find? (·.1 == m.2.1)).map (·.2.1)).getD 0 }
      if acc.2.isEmpty && acc.1.length + m.2.2.length ≤ 16 then
        (acc.1 ++ (toQ st none false m.2.2).map (fun q => { q with arrived := s.mbx.arrivals }), [])
      else (acc.1, acc.2 ++ [m])) (c.inQ, [])
    { c with inQ := r.1, waitQ := r.2 }) (modMbx (fun x => { x with arrivals := x.arrivals + 1 }) s)

/-- QUEUE_SPACE_POST: waiting messages enter the queue while it has space. -/
def queueSpacePost (c : Chan) (s : State) : State :=
  match c with
  | .m n => eachOf (List.range s.mbx.m[n].outWait.length) (fun _ s => pourM n s) s
  | .j n => pourJ n s

/-- QUEUE_SPACE_POST. -/
def execQueueSpacePost (c : Chan) (s : State) : Outcome := .next (queueSpacePost c s)

/-- HOST_QUEUE_DROP: the first waiting message of channel `n` has found no space within 100 ms and is dropped
whole, with its words already in the queue (R375). -/
def hostQueueDrop (n : Fin 8) (s : State) : State :=
  match s.mbx.m[n].outWait with
  | [] => s
  | m :: rest =>
    let s := modM n (fun c => { c with
      outQ := c.outQ.take (c.outQ.length - m.posted), outWait := rest, drop := true
      busy := c.busy && !m.endsCmd }) s
    let s := ring (16 + n.val) (modMbx (fun x => { x with outDrop := x.outDrop + 1 }) s)
    let s := doIf m.endsCmd (modSys fun y => { y with cnt := { y.cnt with replyDrop := y.cnt.replyDrop + 1 } }) s
    doIf m.isDial (dialCount 8) s

/-- HOST_QUEUE_DROP. -/
def execHostQueueDrop (n : Fin 8) (s : State) : Outcome := .next (hostQueueDrop n s)

/-- INTERNAL_QUEUE_DROP: a request that found no space for 100 ms is not posted, and its command is answered
BUSY; a reply or event is dropped and counted (R376). (DEDUCED, notes/assumptions 55) -/
def internalQueueDrop (i : Fin 16) (s : State) : State :=
  let c := s.mbx.ic[i]
  match c.reqWait, c.retWait with
  | m :: _, _ => reply m.opcode.toNat m.rq busy s
  | [], _ :: rest =>
    modMbx (fun x => { x with outDrop := x.outDrop + 1, ic := vmod x.ic i fun c => { c with retWait := rest } }) s
  | [], [] => s

/-- INTERNAL_QUEUE_DROP. -/
def execInternalQueueDrop (i : Fin 16) (s : State) : Outcome := .next (internalQueueDrop i s)

end Sys2Proof.Machine
end

