-- ==== Sys2Proof/Machine/Joryx.lean ====
section
/-! DEFINITION. Joryx (R61 to R71, R473 to R479): cells, frames, neighbours, routes and its commands. -/

namespace Sys2Proof.Machine

/-! ### Cells (R63, R64) -/

/-- The next cell of a port: eight words, and the port's Joryx state after it. -/
def jrxCell (x : JrxPort) : List Word × JrxPort :=
  let start := x.sending.isEmpty
  let frame : List Word := match x.egress with
    | f :: _ => f.h0 :: f.h1 :: f.body
    | [] => []
  let ws := if start then frame else x.sending
  let x := if start then { x with egress := x.egress.drop 1 } else x
  if ws.isEmpty then (List.replicate 8 0, x)
  else
    let n := min 7 ws.length
    (word [(31, 31, 1), (30, 30, b2n start), (29, 29, b2n (decide (ws.length ≤ 7))), (28, 26, n)] ::
        (ws.take 7 ++ List.replicate (7 - n) 0),
      { x with sending := ws.drop 7 })

/-! ### Events to the host (R477) -/

/-- JRX_EVT. -/
def jrxEvent (kind : Nat) (src : BitVec 11) (chan : BitVec 2) (p : LPort) (ws : List Word) (s : State) : State :=
  ring 30 (postEvent 5 0xE006 0 (okay (word [(31, 28, kind), (27, 17, src.toNat), (16, 15, chan.toNat),
    (14, 13, p.val)] :: ws)) false s)

/-! ### Neighbours (R66, R474) -/

/-- The 128-bit unique ID as four words, most significant first. -/
def uidList (u : BitVec 128) : List Word := [3, 2, 1, 0].map fun i => u.extractLsb' (32 * i) 32

/-- Port `p` shares its neighbour's identifier with another port's neighbour of another unique ID. -/
def idConflict (s : State) (p : LPort) : Bool :=
  let n := s.jrx.ports[p].neigh
  n.valid && n.nidValid && allPorts.any fun q =>
    let m := s.jrx.ports[q].neigh
    m.valid && m.nidValid && m.node == n.node && m.uid != n.uid

/-- NODE_ID_CONFLICT of a port; a rise posts JRX_EVT. (DEDUCED, notes/assumptions 114) -/
def conflictEval (p : LPort) (s : State) : State :=
  let c := idConflict s p
  let rises := c && !alarmOn s (.jrx p) 0
  let s := setAlarm (.jrx p) 0 c s
  if rises then jrxEvent 4 s.jrx.ports[p].neigh.node 0 p [] s else s

/-- A HELLO updates the record of its port (R66, R474). -/
def helloIn (p : LPort) (src : BitVec 11) (body : List Word) (s : State) : State :=
  let w := fun i => body.getD i 0
  let old := s.jrx.ports[p].neigh
  let uid : BitVec 128 := (w 0 ++ w 1 ++ w 2 ++ w 3).setWidth 128
  let changed : Bool := old.valid && old.uid != uid
  let renamed : Bool := old.valid && old.uid == uid && (old.node != src || old.nidValid != bit (w 4) 31)
  let new : Neighbour :=
    { valid := true, nidValid := bit (w 4) 31, node := src, farPort := BitVec.ofNat 2 (fld (w 4) 30 29),
      changed := old.changed || changed, uid := uid, lastUsec := s.sys.usec }
  let s := modJp p (fun x => { x with neigh := new }) s
  let s := if changed then jrxEvent 3 src 0 p (uidList old.uid ++ uidList uid) (setAlarm (.jrx p) 1 true s) else s
  let s := if renamed then jrxEvent 5 src 0 p [word [(31, 21, old.node.toNat), (20, 10, src.toNat)]] s else s
  nlcEval (eachPort conflictEval s)

/-! ### Routes (R67) -/

/-- One route entry received on a port. -/
def routeEntry (p : LPort) (node : BitVec 11) (h : Nat) (s : State) : State :=
  if s.jrx.nidValid && node == s.jrx.nodeId then s
  else
    let c := min (h + 1) 31
    let old := routeTo s node
    let new : Route := { node := node, hops := c, port := p, atUsec := s.sys.usec }
    let rest := s.jrx.routes.filter (·.node != node)
    let take := match old with
      | some r => r.port == p || (c < 31 && (c < r.hops || (c == r.hops && p < r.port)))
      | none => decide (c < 31)
    if take then
      let same := match old with
        | some r => r.port == p && r.hops == c
        | none => false
      modJrx (fun j => { j with
        routes := if c = 31 then rest else new :: rest, routesChanged := j.routesChanged || !same }) s
    else s

/-- The entries of a ROUTE body, in order. -/
def routeEntries (body : List Word) (n : Nat) : List (BitVec 11 × Nat) :=
  (body.flatMap fun w => [(BitVec.ofNat 11 (fld w 31 21), fld w 20 16), (BitVec.ofNat 11 (fld w 15 5), fld w 4 0)]).take n

/-- Body words of up to 32 entries. -/
def routeBody : List (BitVec 11 × Nat) → List Word
  | [] => []
  | [a] => [word [(31, 21, a.1.toNat), (20, 16, a.2)]]
  | a :: b :: l => word [(31, 21, a.1.toNat), (20, 16, a.2), (15, 5, b.1.toNat), (4, 0, b.2)] :: routeBody l

/-- Cut a list into pieces of at most 32; `fuel` bounds their number. -/
def pieces {α : Type} : Nat → List α → List (List α)
  | 0, _ => []
  | fuel + 1, l => if l.isEmpty then [] else l.take 32 :: pieces fuel (l.drop 32)

/-- The route table as advertised on a port. -/
def advert (s : State) (p : LPort) : List (BitVec 11 × Nat) :=
  (s.jrx.nodeId, 0) :: s.jrx.routes.map fun r => (r.node, if r.port == p then 31 else r.hops)

/-- Queue a neighbour-scope frame on a port. (DEDUCED, notes/assumptions 27) -/
def neighbourFrame (p : LPort) (type : BitVec 3) (entries : Nat) (body : List Word) (s : State) : State :=
  let f := newFrame s 0 0 type entries 0 body
  egress p f (modJrx (fun x => { x with seq := nextSeq x.seq }) s)

/-- Send the whole table on one port. -/
def sendRoutes (p : LPort) (s : State) : State :=
  let es := advert s p
  eachOf (pieces es.length es) (fun l => neighbourFrame p 5 l.length (routeBody l)) s

/-- JG runs: its domain is ON and it is not restarting. -/
def jgRuns (s : State) : Bool := s.sys.supRuns && isOn s .ctl && !restarting s .jg

/-- A port's transmitter runs. (DEDUCED, notes/assumptions 116) -/
def txRuns (s : State) (p : LPort) : Bool := isOn s (.ld p)

/-- Send the table on every port whose transmitter runs. -/
def sendAllRoutes (s : State) : State := eachPort (fun p s => if txRuns s p then sendRoutes p s else s) s

/-- ROUTE_TIMER (R67): once per second. -/
def routeTimer (s : State) : State := if jgRuns s && s.jrx.nidValid then sendAllRoutes s else s

/-- ROUTE_TIMER. -/
def execRouteTimer (s : State) : Outcome := .next (routeTimer s)

/-- ROUTE_CHANGE_SEND (R67): within 10 ms of a change. -/
def routeChangeSend (s : State) : State :=
  if jgRuns s && s.jrx.nidValid && s.jrx.routesChanged then
    sendAllRoutes (modJrx (fun j => { j with routesChanged := false }) s)
  else s

/-- ROUTE_CHANGE_SEND. -/
def execRouteChangeSend (s : State) : Outcome := .next (routeChangeSend s)

/-- ROUTE_EXPIRY (R67): a route not refreshed for 3.5 s. -/
def routeExpiry (node : BitVec 11) (s : State) : State :=
  if (routeTo s node).isSome then
    modJrx (fun j => { j with routes := j.routes.filter (·.node != node), routesChanged := true }) s
  else s

/-- ROUTE_EXPIRY. -/
def execRouteExpiry (node : BitVec 11) (s : State) : Outcome := .next (routeExpiry node s)

/-- HELLO_TIMER (R66). -/
def helloTimer (p : LPort) (s : State) : State :=
  if jgRuns s && txRuns s p then
    neighbourFrame p 4 0 (uidWords ++ [word [(31, 31, b2n s.jrx.nidValid), (30, 29, p.val)]]) s
  else s

/-- HELLO_TIMER. -/
def execHelloTimer (p : LPort) (s : State) : Outcome := .next (helloTimer p s)

/-! ### Frames received (R65, R68, R70) -/

/-- Generation of a source (R371): a SEQ of 0 after any other SEQ is a restart. -/
def nodeSeen (src : BitVec 11) (seq : BitVec 16) (s : State) : State :=
  modMbx (fun x =>
    let old := x.nodeGen.find? (·.1 == src)
    let g : BitVec 4 := match old with
      | some (_, g, q) => if seq == 0 && q != 0 then g + 1 else g
      | none => 0
    { x with nodeGen := (src, g, seq) :: x.nodeGen.filter (·.1 != src) }) s

/-- The wait that a reply ends (R476). -/
def matchReply (s : State) (f : Frame) : Option JrxWait :=
  s.jrx.waits.find? fun w => w.dest == f.src && w.chan == f.chan && pktOp f.body == w.opcode.toNat && pktTag f.body == w.tag.toNat

/-- H0 without HOPS_LEFT, which relays change. -/
def h0Key (w : Word) : Nat × Nat := (fld w 31 10, fld w 4 0)

/-- The wait that an UNREACHABLE names. (DEDUCED, notes/assumptions 112) -/
def matchUnreach (s : State) (body : List Word) : Option JrxWait :=
  s.jrx.waits.find? fun w => h0Key w.h0 == h0Key (body.getD 0 0) && w.h1 == body.getD 1 0

/-- End a JRX_SEND with an answer. -/
def endWait (w : JrxWait) (a : Answer) (s : State) : State :=
  reply 0x9002 w.rq a (modJrx (fun j => { j with waits := j.waits.filter fun v => !(v.dest == w.dest && v.chan == w.chan) }) s)

/-- A frame for the own identifier (R70, R476, R477). -/
def frameOwn (p : LPort) (f : Frame) (s : State) : State :=
  match f.type.toNat with
  | 1 =>
    let j : Fin 4 := Fin.ofNat 4 f.chan.toNat
    let s := modJrx (fun x => { x with fromPort := vset x.fromPort j p }) s
    pourJ j (modJ j (fun c => { c with waitQ := c.waitQ ++ [(p, f.src, f.body)] }) s)
  | 2 =>
    match matchReply s f with
    | some w => endWait w (okay f.body) s
    | none => jrxEvent 0 f.src f.chan p f.body s
  | 3 => jrxEvent 1 f.src f.chan p f.body s
  | _ =>
    match matchUnreach s f.body with
    | some w => endWait w { st := .refused, detail := 1 } s
    | none => jrxEvent 2 f.src f.chan p f.body s

/-- A frame for another node: relayed, or discarded and counted (R68). (DEDUCED, notes/assumptions 113) -/
def frameRelay (p : LPort) (f : Frame) (s : State) : State :=
  match (routeTo s f.dest).filter (·.port != p) with
  | some r =>
    if f.hops != 0 then egress r.port { f with hops := f.hops - 1 } s
    else frameLost p f (jrxCount p 3 s)
  | none => frameLost p f (jrxCount p 2 s)
where
  /-- UNREACHABLE goes to the source of a frame of types 1 to 3, with the CHAN of that frame (DESIGN CHOICE,
  notes/assumptions 132). -/
  frameLost (p : LPort) (f : Frame) (s : State) : State :=
    if f.type == 6 then s else sendFrame f.src f.chan 6 [f.h0, f.h1] p s

/-- The frame of `ws`, received on port `p`; a malformed one is discarded and counted. Domain frames that a device
without an identifier does not accept are dropped uncounted (DESIGN CHOICE, notes/assumptions 132). (DEDUCED,
notes/assumptions 111) -/
def frameIn (p : LPort) (ws : List Word) (s : State) : State :=
  let h0 := ws.getD 0 0
  let h1 := ws.getD 1 0
  let len := fld h1 4 0
  let ty := fld h0 2 0
  let f : Frame :=
    { dest := BitVec.ofNat 11 (fld h0 31 21), src := BitVec.ofNat 11 (fld h0 20 10), hops := BitVec.ofNat 5 (fld h0 9 5)
      chan := BitVec.ofNat 2 (fld h0 4 3), type := BitVec.ofNat 3 ty, seq := BitVec.ofNat 16 (fld h1 31 16)
      entries := BitVec.ofNat 6 (fld h1 10 5), body := (ws.drop 2).take len }
  let bad : Bool := decide (ws.length < 2) || decide (16 < len) || decide (ws.length - 2 < len) || ty == 0 || ty == 7 ||
    (ty == 5 && decide (2 * len < fld h1 10 5))
  if bad then jrxCount p 1 s
  else if ty == 4 then
    helloIn p f.src f.body (if bit (f.body.getD 4 0) 31 then nodeSeen f.src f.seq s else s)
  else if ty == 5 then
    eachOf (routeEntries f.body (fld h1 10 5)) (fun e => routeEntry p e.1 e.2) (nodeSeen f.src f.seq s)
  else if !s.jrx.nidValid then s
  else
    let s := nodeSeen f.src f.seq s
    if f.dest == s.jrx.nodeId then frameOwn p f s else frameRelay p f s

/-- A cell received in a good SFOH with PSFN lock (R61, R64). -/
def cellIn (p : LPort) (cell : List Word) (s : State) : State :=
  let h := cell.getD 0 0
  let ws := (cell.drop 1).take (fld h 28 26)
  if !bit h 31 then s
  else
    let part := s.jrx.ports[p].partial_
    let s := if bit h 30 && part.isSome then jrxCount p 0 s else s
    let have_ : Option (List Word) := if bit h 30 then some ws else part.map (· ++ ws)
    match have_ with
    | none => jrxCount p 0 s
    | some l =>
      if bit h 29 then frameIn p l (modJp p (fun x => { x with partial_ := none }) s)
      else modJp p (fun x => { x with partial_ := some l }) s

/-- A superframe without a good SFOH discards a partial frame (R64). -/
def cellLost (p : LPort) (s : State) : State :=
  if s.jrx.ports[p].partial_.isSome then jrxCount p 0 (modJp p (fun x => { x with partial_ := none }) s) else s

/-- JRX_REQUEST_POST (R70). -/
def execJrxRequestPost (j : Fin 4) (s : State) : Outcome := .next (pourJ j s)

/-- JRX_MBX_DROP (R70): the oldest waiting REQUEST has waited 100 ms. -/
def jrxMbxDrop (j : Fin 4) (s : State) : State :=
  match s.mbx.j[j].waitQ with
  | [] => s
  | m :: rest => jrxCount m.1 5 (modJ j (fun c => { c with waitQ := rest }) s)

/-- JRX_MBX_DROP. -/
def execJrxMbxDrop (j : Fin 4) (s : State) : Outcome := .next (jrxMbxDrop j s)

/-! ### Commands (R475, R476, R478, R479) -/

/-- JRX_CONFIG (R62, R475). -/
def jrxConfig (rq : Req) (s : State) : State :=
  let w := par rq 0
  commandOk 0x9001 rq [badAt [(fld w 14 0 != 0, 0)]] (fun _ => [])
    (fun s =>
      let id := BitVec.ofNat 11 (fld w 31 21)
      let v := bit w 20
      let s := if bit w 19 && (s.jrx.nodeId != id || s.jrx.nidValid != v) then
          modJrx (fun j => { j with nodeId := id, nidValid := v, routes := [], routesChanged := true }) s
        else s
      eachPort (fun p s => if bit w (15 + p.val) then
        setAlarm (.jrx p) 1 false (modJp p (fun x => { x with neigh := { x.neigh with changed := false } }) s) else s) s) s

/-- JRX_CONFIG. -/
def execJrxConfig (rq : Req) (s : State) : Outcome := .next (jrxConfig rq s)

/-- The packet of a JRX_SEND. -/
def jrxPacket (rq : Req) (s : State) : List Word :=
  if bit (par rq 0) 14 then bulkRead s.bulk (pf rq 1 23 0) (min 16 (par rq 2).toNat) else rq.params.drop 1

/-- BAD_LENGTH with the parameter words received and a range expected. -/
def badLen (rq : Req) : Answer := { st := .badLength, detail := rq.params.length * 65536 + 0xFF00 }

/-- JRX_SEND (R476). (DEDUCED, notes/assumptions 115) -/
def jrxSend (rq : Req) (s : State) : State :=
  let dest := BitVec.ofNat 11 (pf rq 0 31 21)
  let chan := BitVec.ofNat 2 (pf rq 0 20 19)
  let bulk := bit (par rq 0) 14
  let len := (par rq 2).toNat
  let pkt := jrxPacket rq s
  let route := routeTo s dest
  command 0x9002 rq
    [(bulk && rq.params.length != 3, badLen rq),
     badAt [(pf rq 0 18 15 == 0 || pf rq 0 13 0 != 0 || (s.jrx.nidValid && dest == s.jrx.nodeId), 0),
            (bulk && (pf rq 1 31 24 != 0 || bulkBad (pf rq 1 23 0) (min 16 len)), 1),
            (bulk && (decide (len < 2) || decide (16 < len)), 2)],
     (pktCount pkt + 2 != pkt.length, badLen rq)]
    (fun s =>
      [(!s.jrx.nidValid, badState), (s.jrx.waits.any (fun w => w.dest == dest && w.chan == chan), busy),
       (route.isNone, { st := .refused, detail := 2 }),
       (route.any (fun r => decide (64 ≤ s.jrx.ports[r.port].egress.length)), { st := .resource })])
    (fun s =>
      let f := newFrame s dest chan 1 0 30 pkt
      let wait : JrxWait := { rq := rq, dest := dest, chan := chan, opcode := BitVec.ofNat 16 (pktOp pkt),
                              tag := BitVec.ofNat 8 (pktTag pkt), h0 := f.h0, h1 := f.h1 }
      taken rq (modJrx (fun j => { j with waits := j.waits ++ [wait] }) (sendFrame dest chan 1 pkt 0 s))) s

/-- JRX_SEND. -/
def execJrxSend (rq : Req) (s : State) : Outcome := .next (jrxSend rq s)

/-- JRX_SEND_TIMEOUT (R476). -/
def jrxSendTimeout (dest : BitVec 11) (ch : Fin 4) (s : State) : State :=
  match s.jrx.waits.find? fun w => w.dest == dest && w.chan == BitVec.ofNat 2 ch.val with
  | some w => endWait w { st := .timeout } s
  | none => s

/-- JRX_SEND_TIMEOUT. -/
def execJrxSendTimeout (dest : BitVec 11) (ch : Fin 4) (s : State) : Outcome := .next (jrxSendTimeout dest ch s)

/-- The neighbour record of a port as six words (R478). (DEDUCED, notes/assumptions 125) -/
def peerWords (s : State) (p : LPort) : List Word :=
  let n := s.jrx.ports[p].neigh
  let ms := if n.valid then min 0xFFFFFFFF ((s.sys.usec - n.lastUsec) / 1000) else 0
  word [(31, 31, b2n n.valid), (30, 30, b2n n.nidValid), (29, 19, n.node.toNat), (18, 17, n.farPort.toNat),
      (16, 16, b2n n.changed)] :: uidList n.uid ++ [wd ms]

/-- Word `d` of the route table (R478). -/
def routeWord (s : State) (d : Nat) : Word :=
  match routeTo s (BitVec.ofNat 11 d) with
  | some r => word [(31, 31, 1), (30, 26, r.hops), (25, 24, r.port.val), (23, 12, min 4095 ((s.sys.usec - r.atUsec) / 10000))]
  | none => 0

/-- What JRX_PEERS answers (R478). -/
def jrxPeersAnswer (rq : Req) (s : State) : State :=
  let w := par rq 0
  if bit w 28 then
    reply 0x9003 rq (okay [wd s.jrx.routes.length]) (putBulk (fld w 23 0) ((List.range 2048).map (routeWord s)) s)
  else reply 0x9003 rq (okay (if bit w 29 then allPorts.flatMap (peerWords s) else peerWords s (pport rq 0))) s

/-- JRX_PEERS (R13, R478): the record of one port is a report about it, the others are device-wide. -/
def jrxPeers (rq : Req) (s : State) : State :=
  let w := par rq 0
  report (if bit w 28 || bit w 29 then .device else .port (pport rq 0)) 0x9003 rq
    [badAt [(fld w 27 24 != 0 || (bit w 28 && bulkBad (fld w 23 0) 2048), 0)]] (jrxPeersAnswer rq) s

/-- JRX_PEERS. -/
def execJrxPeers (rq : Req) (s : State) : Outcome := .next (jrxPeers rq s)

/-- What JRX_STATUS answers (R479). -/
def jrxStatusAnswer (rq : Req) : State → State := answerReply 0x9004 rq fun s =>
  let x := s.jrx.ports[pport rq 0]
  word [(31, 21, s.jrx.nodeId.toNat), (20, 20, b2n s.jrx.nidValid), (19, 13, x.egress.length), (11, 0, s.jrx.routes.length)] ::
    x.counters.toList

/-- JRX_STATUS (R13, R479). -/
def jrxStatus (rq : Req) (s : State) : State :=
  report (.port (pport rq 0)) 0x9004 rq [badAt [(pf rq 0 29 0 != 0, 0)]] (jrxStatusAnswer rq) s

/-- JRX_STATUS. -/
def execJrxStatus (rq : Req) (s : State) : Outcome := .next (jrxStatus rq s)

end Sys2Proof.Machine
end

