-- ==== Sys2Proof/Machine/Reports.lean ====
section
/-! DEFINITION. The reports that wait for their boundary (R13, R349): what each command of the Dial, of Joryx and of the faults
reports, and the boundary that takes the snapshots of all. -/

namespace Sys2Proof.Machine

/-! ### The Dial (R312 to R314) -/

/-- Events that wait (R313). -/
def dialPending (s : State) : Nat := s.dial.evs.countP (·.waits)

/-- What DIAL_CONFIG returns (R313). -/
def dialConfigWords (s : State) : List Word :=
  word [(31, 28, s.dial.strideLog2), (27, 13, s.dial.remoteMax)] :: wd (dialPending s) :: s.dial.counters.toList

/-- What DIAL_CONFIG answers. -/
def dialConfigAnswer (rq : Req) : State → State := answerReply 0x6004 rq dialConfigWords

/-- Insert an event in order of its pool entry. -/
def insertEv (e : DialEv) : List DialEv → List DialEv
  | [] => [e]
  | x :: l => if e.idx ≤ x.idx then e :: x :: l else x :: insertEv e l

/-- STATE of R312. -/
def DialPhase.code : DialPhase → Nat
  | .pending => 0 | .held => 1 | .staged => 2 | .released => 3

/-- Code of a COMPL. -/
def Compl.code : Compl → Nat
  | .none => 0 | .origin => 1 | .m4 => 2 | .m5 => 3

/-- The five words of an event (R312). -/
def eventWords (e : DialEv) : List Word :=
  [e.id,
   word [(31, 29, e.ref.val), (28, 28, b2n e.exact), (27, 27, b2n e.fallback), (26, 24, e.compl.code),
     (23, 21, e.phase.code), (20, 20, b2n e.fellBack), (19, 17, e.stamp.cls.toNat), (16, 6, e.stamp.ident.toNat),
     (5, 2, e.stamp.gen.toNat)],
   wd (psHi e.target), word [(31, 16, psLo e.target), (15, 0, e.opcode.toNat)], word [(31, 24, e.pktTag.toNat)]]

/-- What DIAL_LIST answers (R312). (DEDUCED, notes/assumptions 47) -/
def dialListAnswer (rq : Req) (s : State) : State :=
  let es := (s.dial.evs.filter (·.waits)).foldr insertEv []
  let out := (es.drop (pf rq 1 31 16)).take (pf rq 1 15 0)
  reply 0x6003 rq (okay [wd out.length, wd es.length]) (putBulk (pf rq 0 23 0) (out.flatMap eventWords) s)

/-- The five words of DIAL_TIME (R314). (DEDUCED, notes/assumptions 46) -/
def dialTimeWords (p : LPort) (s : State) : List Word :=
  let x := s.ports[p]
  let rx := refCount s (rxRef p)
  let tx := refCount s (txRef p)
  [wd (psHi rx), word [(31, 16, psLo rx), (15, 15, b2n x.sf.lock), (14, 14, b2n (!x.sf.lock && x.sf.heldRx.isSome))],
   wd (psHi tx),
   word [(31, 16, psLo tx), (15, 15, b2n (refValid s (txRef p))), (14, 14, b2n x.sf.kRegen.isSome),
     (7, 0, (x.sf.kRegen.map (·.toNat)).getD 0)],
   wd (sfPs x.tr.rate.toNat)]

/-- What DIAL_TIME answers. -/
def dialTimeAnswer (rq : Req) : State → State := answerReply 0x6005 rq (dialTimeWords (pport rq 0))

/-! ### Faults and alarms (R468, R470) -/

/-- The alarm instance of a DOMAIN and an INDEX (R457). -/
def alarmOf (d i : Nat) : Option AlarmKey :=
  if 0x14 ≤ d && d < 0x18 && i == 0 then some (.line (Fin.ofNat 4 d))
  else if 0x10 ≤ d && d < 0x14 && i == 0 then some (.conv (Fin.ofNat 4 d))
  else if 0x1C ≤ d && d < 0x20 && i < 8 then some (.host (Fin.ofNat 32 (8 * (d - 0x1C) + i)))
  else if d == 4 && i == 0 then some .pool
  else if d == 5 && i < 4 then some (.jrx (Fin.ofNat 4 i))
  else none

/-- Every alarm instance. -/
def alarmKeys : List AlarmKey :=
  allPorts.map .line ++ allPorts.map .conv ++ (List.finRange 32).map .host ++ [.pool] ++ allPorts.map .jrx

/-- A word with bit d for each domain code d of a list. -/
def codeMask (l : List Nat) : Word := l.foldl (fun a d => a ||| wd (2 ^ d)) 0

/-- The three summary words of R470. -/
def alarmSummary (s : State) : List Word :=
  [codeMask ((alarmKeys.filter fun k => let a := getAlarm s k; a.active &&& ~~~a.mask != 0).map fun k => (alarmCode k).1),
   codeMask ((unitOrder.filter fun u => unitHeld s u).map unitDom),
   codeMask ((unitOrder.filter fun u => (unitSt s u).recovering != 0).map unitDom)]

/-- The alarm instance that an ALARM_STATUS names. -/
def alarmKeyOf (rq : Req) : Option AlarmKey := alarmOf (pf rq 0 31 24) (pf rq 0 23 16)

/-- Where the snapshot of ALARM_STATUS is taken: an instance of a port is about that port. (DEDUCED, notes/assumptions 157) -/
def alarmAt (rq : Req) : ReportAt :=
  match alarmKeyOf rq with
  | some (.line p) => .port p
  | some (.conv p) => .port p
  | some (.jrx p) => .port p
  | some (.host _) => .device
  | some .pool => .device
  | none => .device

/-- What ALARM_STATUS answers (R470). -/
def alarmStatusAnswer (rq : Req) (s : State) : State :=
  match alarmKeyOf rq with
  | some k =>
    let a := getAlarm s k
    let s := doIf (bit (par rq 0) 15) (modAlarm k fun a => { a with latched := 0 }) s
    reply 0xA003 rq (okay [a.active, a.latched, a.mask]) s
  | none => reply 0xA003 rq (okay (alarmSummary s)) s

/-- What FAULT_LOG_READ answers (R468). -/
def faultLogAnswer (rq : Req) (s : State) : State :=
  let es := (s.faults.log.drop (pf rq 1 31 16)).take (pf rq 1 15 0)
  reply 0xA001 rq (okay [wd es.length, s.faults.total, s.faults.overflow]) (putBulk (pf rq 0 23 0) (es.flatMap entryWords) s)

/-! ### Taking the snapshots (R349) -/

/-- The answer of a report that has waited. Only these opcodes report. -/
def takeReport (r : ReportWait) (s : State) : State :=
  match r.opcode with
  | 0x0001 => sysIdentAnswer r.rq s
  | 0x0002 => sysStatusAnswer r.rq s
  | 0x1004 => pwrStatusAnswer r.rq s
  | 0x1005 => pwrRefusalsAnswer r.rq s
  | 0x1006 => pwrWakeAnswer r.rq s
  | 0x2002 => lineModeAnswer r.rq s
  | 0x2005 => lineStatusAnswer r.rq s
  | 0x2006 => linePmAnswer r.rq s
  | 0x2007 => nlcStatusAnswer r.rq s
  | 0x2802 => trainStatusAnswer r.rq s
  | 0x3003 => hostStatusAnswer r.rq s
  | 0x3004 => hostPmAnswer r.rq s
  | 0x4003 => fecStatusAnswer r.rq s
  | 0x4004 => fecPmAnswer r.rq s
  | 0x5004 => mapStatusAnswer r.rq s
  | 0x6003 => dialListAnswer r.rq s
  | 0x6004 => dialConfigAnswer r.rq s
  | 0x6005 => dialTimeAnswer r.rq s
  | 0x7003 => calReadAnswer r.rq s
  | 0x7005 => calStatusAnswer r.rq s
  | 0x8003 => monReadAnswer r.rq s
  | 0x9003 => jrxPeersAnswer r.rq s
  | 0x9004 => jrxStatusAnswer r.rq s
  | 0xA001 => faultLogAnswer r.rq s
  | 0xA003 => alarmStatusAnswer r.rq s
  | _ => s

/-- A report waits for the boundary of reference `ref`, or for one that a framer which is not ON no longer gives (DESIGN
CHOICE, notes/assumptions 130). -/
def reportDue (ref : RefCode) (s : State) (r : ReportWait) : Bool :=
  let x := reportRef s r.at_
  x == ref || !isOn s (.ld (refPort x))

/-- A boundary takes the snapshots that wait for it and answers them, in the order in which they began. -/
def takeReports (ref : RefCode) (s : State) : State :=
  let due := s.sys.reports.filter (reportDue ref s)
  eachOf due takeReport (modSys (fun y => { y with reports := y.reports.filter fun r => !due.contains r }) s)

end Sys2Proof.Machine
end

