-- ==== Sys2Proof/Machine/Superframe.lean ====
section
/-! DEFINITION. Superframe boundaries and the overhead (R30, R33, R43 to R60, R245 to R251, R268 to R275): what a port
sends at a transmit boundary, what its receive boundary does, and what a decoded SFOH brings. -/

namespace Sys2Proof.Machine

/-! ### The transmitted count (R52 to R55, R60, R245) -/

/-- The switches and plans of a port's transmit direction that wait in the Dial (R245). -/
def txSwitchWaits (s : State) (p : LPort) : Bool :=
  s.dial.evs.any fun e => e.waits && (match e.kind with
    | .fmtTx q _ _ _ _ => q == p
    | .tuneTx q _ _ _ => q == p
    | .rateTx q _ => q == p
    | _ => false)

/-- The superframe received with a label. -/
def receivedAt (s : State) (n : LPort) (q : Psfn) : Option Arrived := s.ports[n].sf.recent.find? (·.label == q)

/-- Port `m` sends the content received on the other port of its pair (R245, R250): the superframe with the count being
sent has been received (R60); in the holdover of R30 its clock must first be back. (DEDUCED, notes/assumptions 63) -/
def carries (s : State) (m : LPort) : Bool :=
  regen s m && s.ports[m].sf.kRegen.isSome && s.ports[m].tr.state == .traffic && s.ports[mate m].tr.state == .traffic &&
    !timFailed s (mate m) && !s.ports[m].front.holdover && !s.map.stopped && (receivedAt s (mate m) s.ports[m].sf.tx).isSome

/-! ### Slot fields (R44, R47, R165, R222, R246, R247, R275) -/

/-- Two words of sixteen four-bit entries. -/
def nibbles (f : Nat → Nat) : List Word :=
  [0, 1].map fun k => word ((List.range 8).map fun i => (31 - 4 * i, 28 - 4 * i, f (8 * k + i)))

/-- SLOT_TYPE of slot `i`: that of its client, else `other`. -/
def typeOr (s : State) (p : LPort) (other : Nat → Nat) (i : Nat) : Nat :=
  match slotClient s p i with
  | some c => c.type.toNat + 1
  | none => other i

/-- SLOT_LEAD of slot `i`: the lowest slot of its client, else `other`. -/
def leadOr (s : State) (p : LPort) (other : Nat → Nat) (i : Nat) : Nat :=
  match slotClient s p i with
  | some c => lowestSlot c.slots
  | none => other i

/-- Slots with a client, as a mask. -/
def slotEq (s : State) (p : LPort) : Nat :=
  (List.range 16).foldl (fun a i => a + b2n (slotClient s p i).isSome * 2 ^ i) 0

/-- Slot `i` as received on a port is dropped (R251). -/
def dropped (s : State) (n : LPort) (i : Nat) : Bool := dropMask s n / 2 ^ i % 2 == 1

/-! ### Path fields (R44, R48, R246 to R250) -/

/-- Path word with its trace byte and flags. -/
def pathWordOf (origin : Nat) (valid : Bool) (trace : Byte) (maint rdi : Bool) : Word :=
  word [(31, 21, origin), (15, 8, trace.toNat), (7, 7, b2n maint), (6, 6, b2n rdi), (5, 5, b2n valid)]

/-- Byte (PSFN mod 64) of a trace. -/
def traceByte (t : List Byte) (n : Psfn) : Byte := t.getD (n.toNat % 64) 0

/-- A terminal's received path has failed towards the far end: no lock, PMAINT, or a trace (R248, R250). -/
def pathRdi (s : State) (p : LPort) : Bool := !s.ports[p].sf.lock || bit s.ports[p].sf.pathWord 7 || timFailed s p

/-- Words 12 to 18 and 44 to 59 of a superframe that a terminal originates. -/
def ownPath (s : State) (p : LPort) (bip : Word) : List Word :=
  let n := s.ports[p].sf.tx
  [pathWordOf (if s.jrx.nidValid then s.jrx.nodeId.toNat else 0) s.jrx.nidValid (traceByte s.ports[p].tr2.sentPath n) false (pathRdi s p),
   bip, word [(31, 26, s.ports[p].sf.pathRei.toNat), (15, 0, slotEq s p)]] ++
  nibbles (typeOr s p fun _ => 0) ++ nibbles (leadOr s p id) ++ List.replicate 16 0

/-- Words 12 to 18 and 44 to 59 of a maintenance superframe that port `m` sends (R247). -/
def maintPath (s : State) (m : LPort) (bip : Word) : List Word :=
  let n := mate m
  let f := s.ports[n].sf
  let acq : Bool := dMod s.ports[m].tr.txNow == 15
  let eq := if acq then 0 else fld f.eqWord 15 0
  let tr := match s.ports[n].tr2.accPath with
    | some t => traceByte t s.ports[m].sf.tx
    | none => 0
  [pathWordOf (fld f.pathWord 31 21) (bit f.pathWord 5) tr true false, bip, word [(15, 0, eq)]] ++
  nibbles (typeOr s m fun i => if eq / 2 ^ i % 2 == 1 && !dropped s n i then 15 else 0) ++ nibbles (leadOr s m id) ++
  ownEntry s 0x4000 0 :: List.replicate 15 0

/-- Entries of a ledger with the own entry written at the first free one (R249). -/
def ledgerWith (s : State) (n : LPort) (l : Vector Word 16) : List Word :=
  match ledgerFree l with
  | some e => (vset l e (ownEntry s (ledgerMargin s n) e.val)).toList
  | none => l.toList

/-- PATH_BIP passed on: as received, corrected by what grooming replaced in the superframe sent before (R48). -/
def passedBip (s : State) (m : LPort) (received : Word) : Word := received ^^^ s.ports[m].sf.pathFix

/-- The words of a decoded superframe whose SFOH was good. -/
def goodWords (x : Option Arrived) : Option (Vector Word 64) := x.bind (·.words)

/-- Words 12 to 18 and 44 to 59 that port `m` passes on from the superframe received with the same PSFN (R246). A
superframe whose SFOH was not good passes the last good fields (R271) with the free PATH_BIP `open_`. (DEDUCED, notes/assumptions 62) -/
def passedPath (s : State) (m : LPort) (open_ : Word) : List Word :=
  let n := mate m
  let f := s.ports[n].sf
  let at_ := goodWords (receivedAt s n s.ports[m].sf.tx)
  let w := fun (i : Fin 64) (other : Word) => match at_ with
    | some x => x[i]
    | none => other
  let types : Vector Word 2 := #v[w 15 f.types[0], w 16 f.types[1]]
  let leads : Vector Word 2 := #v[w 17 f.leads[0], w 18 f.leads[1]]
  let ledger : Vector Word 16 := Vector.ofFn fun i => w (Fin.ofNat 64 (44 + i.val)) f.ledger[i]
  [w 12 f.pathWord, passedBip s m (w 13 open_), w 14 f.eqWord] ++
  nibbles (typeOr s m fun i => if dropped s n i then 0 else nibble types i) ++
  nibbles (leadOr s m fun i => if dropped s n i then i else nibble leads i) ++ ledgerWith s n ledger

/-- A LINE_PAYLOAD loopback sends the received path fields back (R514). -/
def loopedPath (s : State) (p : LPort) (open_ : Word) : List Word :=
  let f := s.ports[p].sf
  [f.pathWord, match goodWords f.recent.head? with
    | some x => x[(13 : Fin 64)]
    | none => open_, f.eqWord] ++ f.types.toList ++ f.leads.toList ++ f.ledger.toList

/-- LINE_PAYLOAD is active on a port. -/
def loopPayload (s : State) (p : LPort) : Bool := s.map.loopPayload.getLsbD p.val

/-- The path fields of the superframe being sent. -/
def pathOut (s : State) (p : LPort) (bip open_ : Word) : List Word :=
  if regen s p then (if carries s p then passedPath s p open_ else maintPath s p bip)
  else if loopPayload s p then loopedPath s p open_ else ownPath s p bip

/-! ### The SFOH sent (R44 to R47, R50, R246) -/

/-- Span word of a port (R44, R239). -/
def spanWord (s : State) (p : LPort) : Word :=
  let x := s.ports[p]
  word [(31, 21, if s.jrx.nidValid then s.jrx.nodeId.toNat else 0), (15, 8, (traceByte x.tr2.sentSpan x.sf.tx).toNat),
    (7, 7, b2n (!x.sf.lock)), (6, 6, b2n (x.tr.state == .acquire || x.tr.state == .train)), (5, 5, b2n (regen s p)),
    (4, 4, b2n s.jrx.nidValid)]

/-- FMT_NEXT and NEXT_PSFN (R49, R50). -/
def announceWords (t : Train) : List Word :=
  match t.announce with
  | some (d, n) => [d, wd n.toNat]
  | none => [t.txNow, 0]

/-- Words 0 to 62 of the SFOH of the superframe that begins, given its two cells and the PATH_BIP that is free where
the manual leaves it open. -/
def sfohBody (s : State) (p : LPort) (cells : List Word) (open_ : Word) : List Word :=
  let x := s.ports[p]
  let path := pathOut s p x.sf.sentPathBip open_
  [wd (psHi x.sf.tx), word [(31, 16, psLo x.sf.tx), (15, 12, 1)], spanWord s p, x.sf.sentSpanBip,
   word [(31, 26, x.sf.spanRei.toNat)], x.tr.txNow] ++ announceWords x.tr ++ List.replicate 4 0 ++ path.take 7 ++
  List.replicate 9 0 ++ cells ++ path.drop 7 ++ List.replicate 3 0

/-- Slot `i` of a payload as the other port of the pair received it. -/
def receivedSlot (s : State) (m : LPort) (i : Nat) : List (BitVec 257) :=
  match receivedAt s (mate m) s.ports[m].sf.tx with
  | some x => x.payload[(Fin.ofNat 16 i : Fin 16)]
  | none => []

/-- A slot that a superframe of port `m` does not pass on as received: it is dropped, it has a client, or the format does not
carry it (R246, R279). -/
def notPassed (s : State) (m : LPort) (i : Nat) : Bool :=
  dropped s (mate m) i || (slotClient s m i).isSome || decide (slotsCarried s.ports[m].tr.txNow ≤ i)

/-- What slot `i` of the superframe that begins carries without a client (R165, R246, R247, R514): the received container that
passes, the maintenance pattern, the payload looped back, or zeros. -/
def plainSlot (s : State) (p : LPort) (i : Nat) : List (BitVec 257) :=
  let t := s.ports[p].tr.txNow
  if slotsCarried t ≤ i then []
  else if regen s p then
    if carries s p then (if notPassed s p i then [] else receivedSlot s p i)
    else if fld s.ports[mate p].sf.eqWord 15 0 / 2 ^ i % 2 == 1 && !dropped s (mate p) i && (slotClient s p i).isNone then
      maintCells (dRate t)
    else []
  else if loopPayload s p then
    (match s.ports[p].sf.recent.head? with
      | some x => x.payload[(Fin.ofNat 16 i : Fin 16)]
      | none => [])
  else []

/-- XOR of the received payload words that a superframe passed on leaves out (R48). -/
def leftOut (s : State) (p : LPort) : Word :=
  if carries s p then
    (List.range 16).foldl (fun a i =>
      if notPassed s p i then a ^^^ slotBip (dRate s.ports[p].tr.txNow) i (receivedSlot s p i) else a) 0
  else 0

/-- Send a SFOH, its CRC in word 63 (R44, R338), and settle what the payload after it carries. -/
def putSfoh (p : LPort) (cells : List Word) (open_ : Word) (s : State) : State :=
  let ws := sfohBody s p cells open_
  let crc := crc32c ws
  let m := regen s p && !carries s p
  let fix := leftOut s p
  modSf p (fun f => { f with
    sent := Vector.ofFn fun i => if i.val = 63 then crc else ws.getD i.val 0
    maint := m, pay := Vector.ofFn fun i => plainSlot s p i.val, payFix := fix }) s

/-- The superframe begins: its cells leave their queues and its SFOH is sent. -/
def sendSfoh (p : LPort) (s : State) : State :=
  let c := jrxCell s.jrx.ports[p]
  let s := modJp p (fun _ => c.2) s
  tookFree (cellSent p (putSfoh p (trainCell s p ++ c.1) (freeWordAt s 1) s))

/-- The SFOH of the present superframe follows a count that took effect at its first symbol (R245). -/
def refreshSfoh (p : LPort) (s : State) : State :=
  let x := s.ports[p].sf.sent
  putSfoh p ((x.toList.drop 28).take 16) x[(13 : Fin 64)] s

/-- 9 (240 + rate) times the worst-case delay of a direction in ns (R55): the last symbol of the superframe (R194) and the whole
superframe that the encoder gathers and its 1.0 µs (R190), L_FEC at ceiling 24 (R194, R195), the delay of stage 4 (R108), and
what the other stages add, which the manual does not give (DEDUCED, notes/assumptions 149). -/
def regenDelay (rate overlap extraNs : Nat) : Nat :=
  2 * (9 * 2 ^ 22) + (42000 + 1000 + 40 + extraNs) * (9 * (240 + rate)) + (131072 + 4096 * overlap) * 32

/-- K_REGEN (R55): the least whole number of superframes that covers a delay. -/
def kRegenFor (rate overlap extraNs : Nat) : Nat := (regenDelay rate overlap extraNs + (9 * 2 ^ 22 - 1)) / (9 * 2 ^ 22)

/-- FORWARDING_START (R55, R245): K_REGEN is fixed, and the superframe that begins carries the received count. -/
def forwardingStart (m : LPort) (extraNs : Nat) (s : State) : State :=
  if regen s m && isOn s (.ld m) && s.ports[m].sf.kRegen.isNone && s.ports[mate m].sf.lock && !txSwitchWaits s m then
    let n := s.ports[mate m]
    let k := kRegenFor n.tr.rate.toNat n.rx.overlap.toNat extraNs
    refreshSfoh m (modSf m (fun f => { f with
      kRegen := some (BitVec.ofNat 8 k), everFwd := true, tx := psfnAdd n.sf.fly (-(k : Int)) }) s)
  else s

/-- FORWARDING_START. -/
def execForwardingStart (m : LPort) (extraNs : Nat) (s : State) : Outcome := .next (forwardingStart m extraNs s)

/-! ### Clients as sent (R269, R274, R277, R281) -/

/-- The ingress of a client fails in a superframe, or is discarded (R269, R514). -/
def sendFails (s : State) (c : Client) : Bool := ingressFail s c || loopPayload s c.port || s.map.stopped

/-- COUNT that a client sends in each of its slots (R277). -/
def clientSends (s : State) (c : Client) (o : TxObs) : Nat :=
  sentCount (dRate s.ports[c.port].tr.txNow) (slotsIn c).length o.blocks[c.first].length

/-- A carried client's part of the superframe that ends: its blocks count, or its ingress has failed (R269, R514). -/
def txClient (p : LPort) (o : TxObs) (c : Client) (s : State) : State :=
  if clientCarried s c && c.port == p then
    let fail := sendFails s c
    let n := (slotsIn c).length * clientSends s c o
    modClients (·.first == c.first) (fun x => { x with cnt :=
      if fail then { x.cnt with ingressFail := x.cnt.ingressFail + 1 }
      else { x.cnt with blocksIn := x.cnt.blocksIn + BitVec.ofNat 64 n } }) s
  else s

/-- Place of a line slot among those of its client. -/
def slotRank (c : Client) (i : Nat) : Nat := ((slotsIn c).takeWhile fun j => decide (j.val < i)).length

/-- What slot `i` of the superframe that ends carried: a client's container, or what it carries without one. A looped payload
keeps its slots (R276, R277, R514). -/
def sentSlot (s : State) (p : LPort) (o : TxObs) (i : Fin 16) : List (BitVec 257) :=
  match (slotClient s p i.val).filter fun c => clientCarried s c && !loopPayload s p with
  | some c => clientCells (sendFails s c) (clientSends s c o) (slotsIn c).length (slotRank c i.val) o.blocks[c.first]
  | none => s.ports[p].sf.pay[i]

/-- The payload of the superframe that ends. -/
def sentPayload (s : State) (p : LPort) (o : TxObs) : Payload := Vector.ofFn fun i => sentSlot s p o i

/-- XOR of the payload words that a superframe replaced (R48): those that it left out, and those of added clients. -/
def replaced (s : State) (p : LPort) (pl : Payload) : Word :=
  let rate := dRate s.ports[p].tr.txNow
  if regen s p && !s.ports[p].sf.maint then
    (List.finRange 16).foldl (fun a i => if (slotClient s p i.val).isSome then a ^^^ slotBip rate i.val pl[i] else a)
      s.ports[p].sf.payFix
  else 0

/-- The BIPs of the superframe that ends (R47, R48, R279). -/
def closeSent (p : LPort) (o : TxObs) (s : State) : State :=
  let rate := dRate s.ports[p].tr.txNow
  let pl := sentPayload s p o
  let fix := replaced s p pl
  modSf p (fun f => { f with
    sentPay := pl, sentSpanBip := spanBip rate f.sent pl, sentPathBip := payloadBip rate pl, pathFix := fix }) s

/-- Slots received on the other port that an added client displaces (R274). -/
def groomCount (s : State) (p : LPort) : Nat :=
  if carries s p then
    ((List.range 16).filter fun i => (slotClient s p i).isSome && fld s.ports[mate p].sf.eqWord 15 0 / 2 ^ i % 2 == 1 &&
      !dropped s (mate p) i).length
  else 0

/-- What the host receivers counted (R267, R272, R287); PRE_FEC_BER is that of the counts just taken
(DEDUCED, notes/assumptions 36). -/
def hostCounts (o : TxObs) (s : State) : State :=
  let s := { s with lanes := Vector.ofFn fun k =>
    let l := s.lanes[k]
    let r := o.rxBits[k]
    { l with
      corrBits := l.corrBits + BitVec.ofNat 64 o.corrBits[k], rxBits := l.rxBits + BitVec.ofNat 64 r
      preFec := if r = 0 then l.preFec else wd (min 0xFFFFFFFF (o.corrBits[k] * 2 ^ 32 / r)) } }
  modMap (fun m => { m with clients := m.clients.map fun c => { c with cnt := { c.cnt with
    cwTotal := c.cnt.cwTotal + BitVec.ofNat 64 o.cwTotal[c.first], cwCorr := c.cnt.cwCorr + BitVec.ofNat 64 o.cwCorr[c.first]
    cwUncorr := c.cnt.cwUncorr + BitVec.ofNat 64 o.cwUncorr[c.first] } } }) s

/-- Clients received on a port that decodes no superframe, without alignment or outside the pool, fail in every superframe
(R219, R270). (DEDUCED, notes/assumptions 61) -/
def deafClients (p : LPort) (s : State) : State :=
  if s.ports[p].sf.aligned && s.pool.ports[p].inPool then s
  else modClients (fun c => c.port == p && c.rxOn) (fun c => { c with
    egress := false, cnt := { c.cnt with egressFail := c.cnt.egressFail + 1 } }) s

/-! ### The transmit boundary (R13, R30, R33, R52, R92, R293, R418) -/

/-- Keep-alive keying at a boundary (R418): eight periods of 2 ms with light and 2 ms without. (DEDUCED, notes/assumptions 124) -/
def keyStep (p : LPort) (s : State) : State :=
  match s.ports[p].front.keyStart with
  | none => s
  | some t =>
    let e := s.sys.usec - t
    modFront p (fun f => if 32000 ≤ e then { f with keyStart := none, keying := false } else { f with keying := e / 2000 % 2 == 1 }) s

/-- One step of 0.1 ppm of the slew of R30, at most one in 100 ms. (DEDUCED, notes/assumptions 64) -/
def slew (now : Nat) (target : Int) (f : Front) : Front :=
  if f.slewAt + 100000 ≤ now then
    { f with slewAt := now, steer := BitVec.ofInt 16 (f.steer.toInt + clampI (-1) 1 (target - f.steer.toInt)) }
  else f

/-- In the holdover of R30 without a received signal, the clock slews to the reference input. -/
def slewToRef (p : LPort) (s : State) : State :=
  if regen s p && s.ports[p].front.holdover && !s.ports[mate p].sf.lock then modFront p (slew s.sys.usec 0) s else s

/-- Traces set by the host start at PSFN mod 64 = 0 (R250, R252). -/
def startTraces (p : LPort) (s : State) : State :=
  if s.ports[p].sf.tx.toNat % 64 = 0 then
    modTr2 p (fun t => { t with
      sentSpan := t.nextSpan.getD t.sentSpan, nextSpan := none, sentPath := t.nextPath.getD t.sentPath, nextPath := none }) s
  else s

/-- Held counts of a port rise by one per superframe (R293). -/
def heldStep (p : LPort) (s : State) : State :=
  let tx := isOn s (.ld p)
  modSf p (fun f => { f with
    heldRx := if f.lock then f.heldRx else f.heldRx.map (· + 1), heldTx := if tx then f.heldTx else f.heldTx.map (· + 1) }) s

/-- What the superframe that ends on a port carried (R47, R269, R274, R277, R287); before its first superframe the framer has
sent none. -/
def txEnd (p : LPort) (o : TxObs) (s : State) : State :=
  let s := if s.ports[p].sf.framing then closeSent p o (eachOf (s.map.clients.filter (·.port == p)) (txClient p o) s) else s
  let s := modTr2 p (fun t => { t with groomBlocked := t.groomBlocked + wd (groomCount s p) }) s
  deafClients p (hostCounts o s)

/-- The count of the superframe that begins on a port (R52 to R54), and the age of its FORMAT switch (R228). -/
def txCount (p : LPort) (s : State) : State :=
  let n := nextTx s p
  let own := if s.ports[p].sf.framing then s.ports[p].sf.local_ + 1 else s.ports[p].sf.local_
  modTr p (fun t => { t with fmtAge := if t.fmtTxDone then t.fmtAge + 1 else t.fmtAge })
    (modSf p (fun f => { f with local_ := own, tx := n, framing := true }) s)

/-- Work that runs at transmit boundaries while the port has no lock (R33, R77, R155): the converter levels, the Regulator's
steps and a receive set that waits. -/
def txUnlocked (p : LPort) (o : TxObs) (s : State) : State :=
  if s.ports[p].sf.lock then s
  else
    let s := rxWaiting p (adcMeasure p o.levels o.adcClips s)
    if isOn s (.cv p) then calBoundary p s else s

/-- What the superframe that begins on a port brings: the EXACT events that are due and a new sample clock take effect at its
first symbol (R31, R84), the transmit stages do their work, and its SFOH shows all of it (R50, R280). -/
def txBegin (p : LPort) (o : TxObs) (s : State) : State :=
  let s := txUnlocked p o (exchangeDue (txRef p) (clockDue p (txCount p s)))
  let s := startTraces p (slewToRef p s)
  let s := nlcTxBoundary p (txStages p o s)
  let s := sendSfoh p (endMute p (keyStep p s))
  keepOffset (txRef p) (eachOf (s.map.clients.filter (·.port == p)) evalPending s)

/-- The snapshots of a transmit boundary (R13): the LPS block while the port has no lock, and the reports that wait. -/
def txSnapshots (p : LPort) (s : State) : State :=
  takeReports (txRef p) (if s.ports[p].sf.lock then s else snapshot p s)

/-- TX_SUPERFRAME_BOUNDARY. While LDn is not ON the framer stands: the held counts go on, and the converter levels are
measured (R77, R293). (DEDUCED, notes/assumptions 65) -/
def txSuperframeBoundary (p : LPort) (o : TxObs) (s : State) : State :=
  let s := heldStep p s
  if isOn s (.ld p) then txSnapshots p (txBegin p o (txEnd p o s))
  else takeReports (txRef p) (adcMeasure p o.levels o.adcClips s)

/-- TX_SUPERFRAME_BOUNDARY. -/
def execTxSuperframeBoundary (p : LPort) (o : TxObs) (s : State) : Outcome := .next (txSuperframeBoundary p o s)

/-! ### The receive boundary (R13, R29, R33, R57) -/

/-- The synthesizer of the other port of a regenerating pair follows the recovered clock (R29, R83), or slews back to
it after a holdover (R30); beyond ±200 ppm it slews to the reference input. -/
def steerMate (p : LPort) (clk : BitVec 16) (s : State) : State :=
  if regen s p && s.ports[p].sf.lock then
    let want := s.ports[p].front.steer.toInt + clk.toInt
    let t := clampI (-2000) 2000 want
    modFront (mate p) (fun f =>
      if f.holdover then
        let f := slew s.sys.usec (if t = want then want else 0) f
        { f with holdover := f.steer.toInt != want || t != want }
      else { f with steer := BitVec.ofInt 16 t }) s
  else s

/-- Idle blocks that the egress inserted and deleted (R268). -/
def idleCounts (p : LPort) (o : RxObs) (s : State) : State :=
  modClients (fun c => c.port == p && c.rxOn) (fun c => { c with cnt := { c.cnt with
    idleIns := c.cnt.idleIns + wd o.idleIns[c.first], idleDel := c.cnt.idleDel + wd o.idleDel[c.first] } }) s

/-- EXACT events due on the receive reference take effect at the first symbol of the superframe that begins; a format
decides its codewords (R31, R196, R201, R231). -/
def rxExchange (p : LPort) (s : State) : State :=
  if (dueExact (rxRef p) s).isEmpty then s else refitSf p (exchangeDue (rxRef p) s)

/-- RX_SUPERFRAME_BOUNDARY: the flywheel labels the superframe and per-superframe work runs. -/
def rxSuperframeBoundary (p : LPort) (o : RxObs) (s : State) : State :=
  if isOn s (.ld p) && s.ports[p].tr.state != .down then
    let s := modSf p (fun f => { f with fly := f.fly + 1, lastLag := f.lastLag + 1, misLag := f.misLag + 1 }) s
    let s := takeTaps p o.taps (takeDgd p o.dgd (trackCd p o.cdRes (takeEstimates p o s)))
    let s := nlcRxBoundary p o.nlcGain s
    let s := poolBoundary p o s
    let s := idleCounts p o (steerMate p o.clk s)
    if s.ports[p].sf.lock then
      let s := adcMeasure p o.levels o.clips s
      let s := rxExchange p (keepOffset (rxRef p) (if isOn s (.cv p) then calBoundary p s else s))
      takeReports (rxRef p) (snapshot p s)
    else s
  else s

/-- RX_SUPERFRAME_BOUNDARY. -/
def execRxSuperframeBoundary (p : LPort) (o : RxObs) (s : State) : Outcome := .next (rxSuperframeBoundary p o s)

/-! ### A received SFOH (R46, R47, R51, R57 to R59) -/

/-- A SFOH is good (R46). -/
def sfohGood (w : Vector Word 64) : Bool := crc32c (w.toList.take 63) == w[63] && fld w[1] 15 12 == 1

/-- PSFN of a SFOH. -/
def sfohPsfn (w : Vector Word 64) : Psfn := psfnOf w[0] w[1]

/-- Good SFOHs in a row without lock (R58); differing SFOHs in a row with lock (R59). -/
def countRuns (p : LPort) (n label : Psfn) (lag : Nat) (s : State) : State :=
  modSf p (fun f =>
    let f := if f.lock then
        (if n = label then { f with misRun := 0 }
         else { f with psfnMismatch := f.psfnMismatch + 1, misRun := if 0 < f.misRun && n = f.misLast + 1 then f.misRun + 1 else 1
                       misLast := n, misLag := lag })
      else { f with goodRun := if 0 < f.goodRun && n = f.lastGood + 1 then f.goodRun + 1 else 1 }
    { f with badRun := 0, lastGood := n, lastLag := lag }) s

/-- The receive format of the superframe with a label (R51): the one before the last switch until that switch. -/
def fmtAt (s : State) (p : LPort) (label : Psfn) : Word :=
  match s.ports[p].tr2.switchAt with
  | some n => if s.ports[p].sf.lock && psfnDiff label n < 0 then s.ports[p].tr2.prevFmt else s.ports[p].tr.rxNow
  | none => s.ports[p].tr.rxNow

/-- FMT_ACTIVE against the receive format (R51). (DEDUCED, notes/assumptions 58) -/
def checkFormat (p : LPort) (active fmt : Word) (s : State) : State :=
  let bad := !sameFmt active fmt
  modSf p (fun f => { f with
    lastFmt := active, formatMismatch := if bad then f.formatMismatch + 1 else f.formatMismatch
    fmtRun := if bad then f.fmtRun + 1 else 0, fmtMismatch := f.fmtMismatch && bad }) s

/-- FORMAT_MISMATCH (R51): three mismatches in a row. -/
def formatMismatch (p : LPort) (s : State) : State :=
  if 3 ≤ s.ports[p].sf.fmtRun then modSf p (fun f => { f with fmtMismatch := true }) s else s

/-- FORMAT_MISMATCH. -/
def execFormatMismatch (p : LPort) (s : State) : Outcome := .next (formatMismatch p s)

/-- The PSFN nearest `cur` whose low 32 bits are `lo` (R56). -/
def psfnNear (cur : Psfn) (lo : Word) : Psfn := psfnAdd cur (lo - wd cur.toNat).toInt

/-- What a good SFOH says of the scheduled receive change: announcements in the window of R231, COMMIT_MISMATCH of
R51, and the check of the 64 superframes after the switch. -/
def watchCommit (p : LPort) (w : Vector Word 64) (label : Psfn) (s : State) : State :=
  match s.ports[p].tr.rxCommit.filter fun _ => s.ports[p].sf.lock with
  | none => modSf p (fun f => { f with commitMismatch := false }) s
  | some c =>
    let said := dGen w[6] != dGen w[5]
    let exact_ := said && w[6] == c.desc && psfnNear label w[7] == c.n
    let d := psfnDiff c.n label
    let window : Bool := decide (513 ≤ d) && decide (d ≤ 1023)
    let after : Bool := c.switched && decide (d ≤ 0) && decide (-63 ≤ d)
    modTr p (fun t => { t with rxCommit := some { c with
        seen := if window && exact_ then c.seen + 1 else c.seen
        lastSeen := if window then exact_ else c.lastSeen
        failed := c.failed || (after && !sameFmt w[5] c.desc) } })
      (modSf p (fun f => { f with commitMismatch := if said && !c.switched then !exact_ else f.commitMismatch && !c.switched }) s)

/-- BIP errors (R47, R248): the SFOH's BIPs against those of the superframe before it. -/
def checkBips (p : LPort) (w : Vector Word 64) (s : State) : State :=
  let f := s.ports[p].sf
  match f.rxBips with
  | none => modSf p (fun f => { f with spanRei := 0, pathRei := 0, rxPmaint := bit w[12] 7 }) s
  | some (sb, pb) =>
    let a := bipDiff w[3] sb
    let b := bipDiff w[13] pb
    let maint := f.rxPmaint || bit w[12] 7
    modSf p (fun f => { f with
      spanBipErr := f.spanBipErr + BitVec.ofNat 64 a, spanRei := BitVec.ofNat 6 a, pathRei := BitVec.ofNat 6 b
      pathBipErr := if maint then f.pathBipErr else f.pathBipErr + BitVec.ofNat 64 b, rxPmaint := bit w[12] 7 }) s

/-- One byte of a received trace (R250): the cycle being collected, the last whole cycle and the accepted trace after
the byte of PSFN `n`; `fresh` when it begins another cycle than the byte before. -/
def traceIn (n : Psfn) (fresh : Bool) (b : Byte) (x : List (Option Byte) × Option (List Byte) × Option (List Byte)) :
    List (Option Byte) × Option (List Byte) × Option (List Byte) :=
  let partial_ : Bool := x.1.any (·.isSome)
  let last := if fresh && partial_ then none else x.2.1
  let col := lset (if fresh then List.replicate 64 none else x.1) (n.toNat % 64) (some b)
  if col.all (·.isSome) then
    let whole := col.filterMap id
    (List.replicate 64 none, some whole, if last == some whole then some whole else x.2.2)
  else (col, last, x.2.2)

/-- Both traces take their byte; SPAN_TIM and PATH_TIM follow. `old` is the PSFN of the good SFOH before. -/
def takeTraces (p : LPort) (w : Vector Word 64) (old : Psfn) (s : State) : State :=
  let n := sfohPsfn w
  let fresh := n.toNat / 64 != old.toNat / 64
  let skipped := n.toNat / 64 != (old.toNat / 64 + 1) % 2 ^ 42 && fresh
  let t := s.ports[p].tr2
  let a := traceIn n fresh (BitVec.ofNat 8 (fld w[2] 15 8)) (t.rxSpan, if skipped then none else t.lastSpan, t.accSpan)
  let b := traceIn n fresh (BitVec.ofNat 8 (fld w[12] 15 8)) (t.rxPath, if skipped then none else t.lastPath, t.accPath)
  evalTraces p (modTr2 p (fun t => { t with
    rxSpan := a.1, lastSpan := a.2.1, accSpan := a.2.2, rxPath := b.1, lastPath := b.2.1, accPath := b.2.2 }) s)

/-- STRAIN and SRDI of the far end (R220, R221, R239). -/
def takeStatus (p : LPort) (w2 : Word) (s : State) : State :=
  let srdi := bit w2 7
  let strain := bit w2 6
  modTr p (fun t =>
    let saw := t.sawStrain0 || !strain
    { t with
      srdiRun := if srdi then t.srdiRun + 1 else 0, srdiZero := if srdi then 0 else t.srdiZero + 1
      sawStrain0 := saw, strainRun := if strain && t.sawStrain0 then t.strainRun + 1 else 0 })
    (modSf p (fun f => { f with farSrdi := srdi }) s)

/-- Path fields of a good SFOH and the alarms that follow them (R248, R249, R251). -/
def takePath (p : LPort) (w : Vector Word 64) (s : State) : State :=
  let s := modSf p (fun f => { f with
    pathWord := w[12], eqWord := w[14], types := #v[w[15], w[16]], leads := #v[w[17], w[18]]
    ledger := Vector.ofFn fun i => w[(Fin.ofNat 64 (44 + i.val) : Fin 64)] }) s
  let term := !regen s p
  let s := raiseAlarm (.line p) 14 (term && bit w[12] 7) s
  let s := raiseAlarm (.line p) 15 (term && bit w[12] 6) s
  evalGroom p (raiseAlarm (.line p) 16 (!term && (ledgerFree s.ports[p].sf.ledger).isNone) s)

/-! ### Clients as received (R270, R271, R276, R277, R281) -/

/-- CSTAT 1 in a slot of a client (R270). -/
def clientCstat (c : Client) (pl : Payload) : Bool := (slotsIn c).any fun i => cellFail (slotControl pl i)

/-- A COUNT that fails R276 or R277. -/
def clientCount (rate : Nat) (c : Client) (pl : Payload) : Bool :=
  let l := (slotsIn c).map (slotControl pl)
  l.any (fun x => decide (nCell rate ≤ cellCount x) || voteBroken x) || l.any fun x => l.any fun y => cellCount x != cellCount y

/-- CLIENT_MISMATCH after three good SFOHs that disagree, cleared after three that agree (R270). -/
def mismatchStep (c : Client) (s : State) : State :=
  let bad := clientDiffers s c
  let mis := if bad then c.misRun + 1 else 0
  let agree := if bad then 0 else c.agreeRun + 1
  let on := alarmOn s (.host c.first) 9
  let s := modClients (·.first == c.first) (fun x => { x with misRun := mis, agreeRun := agree
                                                              cnt := if !on && 3 ≤ mis then { x.cnt with mismatch := x.cnt.mismatch + 1 } else x.cnt }) s
  if !on && 3 ≤ mis then setAlarm (.host c.first) 9 true s
  else if on && 3 ≤ agree then setAlarm (.host c.first) 9 false s else s

/-- COUNT that a client's lowest slot carries. -/
def clientGets (c : Client) (pl : Payload) : Nat := ((slotsIn c).head?.map fun i => cellCount (slotControl pl i)).getD 0

/-- One client in a received superframe (R270); a buffer restart fails the superframe in which it fell (R268). -/
def rxClient (good : Bool) (pl : Payload) (c : Client) (s : State) : State :=
  let s := if good then mismatchStep c s else s
  let fail8 := egressBlocked s c || clientCstat c pl
  let badCount := clientCount (dRate s.ports[c.port].tr.rxNow) c pl
  let fail := fail8 || badCount || clientDiffers s c || c.slipped
  let n := (clientBlocks pl c (clientGets c pl)).length
  let s := if c.rxFail == fail8 then s else setRxFail c.first fail8 s
  modClients (·.first == c.first) (fun x => { x with
    egress := x.egress && !fail, slipped := false
    cnt := { x.cnt with
      countErr := if badCount then x.cnt.countErr + 1 else x.cnt.countErr
      egressFail := if fail then x.cnt.egressFail + 1 else x.cnt.egressFail
      blocksOut := if x.egress && !fail then x.cnt.blocksOut + BitVec.ofNat 64 n else x.cnt.blocksOut } }) s

/-- The slots of a client go to the host: its port is a terminal, or they are dropped (R23, R251). -/
def slotsToHost (s : State) (c : Client) : Bool := !regen s c.port || (slotsIn c).all fun i => dropped s c.port i.val

/-- The clients received on a port. -/
def rxClients (p : LPort) (good : Bool) (pl : Payload) (s : State) : State :=
  eachOf (s.map.clients.filter fun c => c.port == p && c.rxOn && slotsToHost s c) (rxClient good pl) s

/-! ### SFOH_RECEIVE -/

/-- A decoded superframe is kept with the label that its flywheel gave it (R57), and its BIPs for the next one (R46, R47). -/
def keepArrived (p : LPort) (o : SfohObs) (good : Bool) (s : State) : State :=
  let label := labelOf s p o.lag
  let rate := dRate (fmtAt s p label)
  modSf p (fun f => { f with
    rxBips := some (spanBip rate o.words o.payload, payloadBip rate o.payload)
    recent := ({ label := label, words := if good then some o.words else none, payload := o.payload } :: f.recent).take 64 }) s

/-- The received SFOH was not good: no field is taken (R46, R64). (DEDUCED, notes/assumptions 59) -/
def sfohBad (p : LPort) (o : SfohObs) (s : State) : State :=
  let s := modSf p (fun f => { f with
    sfohBad := f.sfohBad + 1, badRun := f.badRun + 1, goodRun := 0, misRun := 0, spanRei := 0, pathRei := 0 }) s
  rxClients p false o.payload (cellLost p (keepArrived p o false s))

/-- Joryx cell and training cell of a good SFOH, taken with PSFN lock only (R61, R224). -/
def takeCells (p : LPort) (w : Vector Word 64) (label : Psfn) (s : State) : State :=
  if s.ports[p].sf.lock then
    trainIn p ((w.toList.drop 28).take 8) label (cellIn p ((w.toList.drop 36).take 8) s)
  else s

/-- A good SFOH (R44 to R51, R57 to R59). -/
def sfohTaken (p : LPort) (o : SfohObs) (s : State) : State :=
  let w := o.words
  let n := sfohPsfn w
  let label := labelOf s p o.lag
  let old := s.ports[p].sf.lastGood
  let s := countRuns p n label o.lag s
  let fmt := fmtAt s p label
  let s := checkFormat p w[5] fmt s
  let s := watchCommit p w label (checkBips p w s)
  let s := keepArrived p o true s
  let s := takePath p w (takeTraces p w old (takeStatus p w[2] s))
  let s := rxClients p true o.payload s
  takeCells p w label (holdoverLocked p s)

/-- SFOH_RECEIVE (R46): a port of the pool with superframe alignment. The decoded buffer is read through the memory code,
whose uncorrectable words pass as read (R215). -/
def sfohReceive (p : LPort) (o : SfohObs) (s : State) : State :=
  if isOn s (.ld p) && s.ports[p].sf.aligned && s.pool.ports[p].inPool then
    let s := eachOf o.bursts (poolWord none) s
    (if sfohGood o.words then sfohTaken p o s else sfohBad p o s)
  else s

/-- SFOH_RECEIVE. -/
def execSfohReceive (p : LPort) (o : SfohObs) (s : State) : Outcome := .next (sfohReceive p o s)

/-! ### Alignment and lock (R43, R58, R59, R124, R134) -/

/-- SF_ALIGNMENT (R43): the alignment word has matched in two superframes. A port outside the pool stays at ACQ_STEP 5
(R219). -/
def sfAlignment (p : LPort) (s : State) : State :=
  if s.ports[p].rx.frameAligned && !s.ports[p].sf.aligned then
    modRx p (fun r => { r with step := if s.pool.ports[p].inPool then 6 else r.step }) (modSf p (fun f => { f with aligned := true }) s)
  else s

/-- SF_ALIGNMENT. -/
def execSfAlignment (p : LPort) (s : State) : Outcome := .next (sfAlignment p s)

/-- SF_ALIGN_LOSS (R43, R124): a loss of signal. -/
def sfAlignLoss (p : LPort) (s : State) : State :=
  if s.ports[p].sf.aligned then lossOfSignal p s else s

/-- SF_ALIGN_LOSS. -/
def execSfAlignLoss (p : LPort) (s : State) : Outcome := .next (sfAlignLoss p s)

/-- The labels that a port keeps, moved by a jump of its count: those of the superframes that have arrived, and of its last
switch and cancel. -/
def moveLabels (p : LPort) (d : Int) (s : State) : State :=
  modTr2 p (fun t => { t with switchAt := t.switchAt.map (psfnAdd · d), cancelAt := t.cancelAt.map (psfnAdd · d) })
    (modSf p (fun f => { f with recent := f.recent.map fun x => { x with label := psfnAdd x.label d } }) s)

/-- PSFN_LOCK (R58, R293): the flywheel takes the decoded values; the first valid count is compared with the held
one. -/
def psfnLock (p : LPort) (s : State) : State :=
  let f := s.ports[p].sf
  if isOn s (.ld p) && f.aligned && !f.lock && decide (3 ≤ f.goodRun) then
    let n := psfnAdd f.lastGood f.lastLag
    let s := modSf p (fun f => { f with lock := true, fly := n, heldRx := none, goodRun := 0, misRun := 0 })
      (moveLabels p (psfnDiff n f.fly) s)
    let s := modRx p (fun r => { r with running := false, foStop := false, step := 7, hint := false }) s
    let s := match f.heldRx with
      | some h => refJump (rxRef p) n h false s
      | none => s
    holdoverLocked p s
  else s

/-- PSFN_LOCK. -/
def execPsfnLock (p : LPort) (s : State) : Outcome := .next (psfnLock p s)

/-- PSFN_LOCK_LOSS (R58): 16 superframes without a good SFOH; a port outside the pool decodes none (R219). Alignment
holds: it is no loss of signal (R124). (DEDUCED, notes/assumptions 67) -/
def psfnLockLoss (p : LPort) (s : State) : State :=
  let decodes := s.pool.ports[p].inPool
  if s.ports[p].sf.lock && (16 ≤ s.ports[p].sf.badRun || !decodes) then
    lockLoss p (modRx p (fun r => { r with step := if decodes then 6 else 5 }) s)
  else s

/-- PSFN_LOCK_LOSS. -/
def execPsfnLockLoss (p : LPort) (s : State) : Outcome := .next (psfnLockLoss p s)

/-- PSFN_JUMP (R59, R305): the flywheel takes the new count. -/
def psfnJump (p : LPort) (s : State) : State :=
  let f := s.ports[p].sf
  if f.lock && 3 ≤ f.misRun then
    let n := psfnAdd f.misLast f.misLag
    refJump (rxRef p) n f.fly false
      (modSf p (fun f => { f with fly := n, misRun := 0, psfnJump := f.psfnJump + 1 }) (moveLabels p (psfnDiff n f.fly) s))
  else s

/-- PSFN_JUMP. -/
def execPsfnJump (p : LPort) (s : State) : Outcome := .next (psfnJump p s)

end Sys2Proof.Machine
end

