-- ==== Sys2Proof/Machine/Faults.lean ====
section
/-! DEFINITION. Faults and alarms (R456 to R472): detection events, the handler, recoveries, the fault log and
the commands of class 0xA0. -/

namespace Sys2Proof.Machine

/-! ### The log (R466, R472) -/

/-- FAULT_EVT with the words of an entry. -/
def postFault (e : LogEntry) (s : State) : State := ring 24 (postEvent 5 0xE002 0 (okay (entryWords e)) false s)

/-- FAULT_EVT for the newest entry. -/
def postNewest (s : State) : State :=
  match s.faults.log with
  | [] => s
  | e :: _ => postFault e s

/-- An entry takes an OUTCOME in place, and is posted. -/
def setOutcome (seq : BitVec 16) (outcome : Nat) (s : State) : State :=
  match s.faults.log.find? (·.seq == seq) with
  | none => s
  | some e =>
    let e' := { e with outcome := BitVec.ofNat 3 outcome }
    postFault e' (modFaults (fun f => { f with log := f.log.map fun x => if x.seq == seq then e' else x }) s)

/-- The entry of a unit's recovery takes an OUTCOME. -/
def endEntry (u : FUnit) (outcome : Nat) (s : State) : State :=
  match (unitSt s u).lastSeq with
  | none => s
  | some q => setOutcome q outcome s

/-! ### Detection events (R459) -/

/-- SUP runs and sees to its cores. -/
def supWatches (s : State) : Bool := s.sys.supRuns && isOn s .ctl && !s.sys.inReset

/-- CORE_WATCHDOG. A held-failed core is stopped and is not watched. -/
def coreWatchdog (c : Core) (s : State) : State :=
  if supWatches s && !unitHeld s (.core c) then detectCore c 4 s else s

/-- CORE_WATCHDOG. -/
def execCoreWatchdog (c : Core) (s : State) : Outcome := .next (coreWatchdog c s)

/-- INDEX of a stall: the lane in its octet for HOq. -/
def stallIndex (u : FUnit) (index : BitVec 7) : Option (BitVec 7) :=
  match u with
  | .ho _ => if index.toNat < 8 then some index else none
  | .ld _ => some 0 | .map => some 0
  | .aon => none | .mon => none | .fq _ => none | .cv _ => none | .core _ => none

/-- FLOW_STALL of LDn, MAP or HOq, in a domain that is ON and not under recovery. -/
def flowStall (u : FUnit) (index : BitVec 7) (s : State) : State :=
  match stallIndex u index, recDom u with
  | some i, some d => if isOn s d && (unitSt s u).recovering != 1 && !s.sys.inReset then detect u 6 i 0 s else s
  | _, _ => s

/-- FLOW_STALL. -/
def execFlowStall (u : FUnit) (index : BitVec 7) (s : State) : Outcome := .next (flowStall u index s)

/-- TEMP_CRIT: AON is held failed at once (R463). (DEDUCED, notes/assumptions 117) -/
def tempCrit (sensor : BitVec 16) (s : State) : State :=
  if s.sys.inReset then s
  else heldChanged (modUnit .aon (fun x => { x with held := true }) (detect .aon 8 0 sensor s))

/-- TEMP_CRIT. -/
def execTempCrit (sensor : BitVec 16) (s : State) : Outcome := .next (tempCrit sensor s)

/-- SUPPLY of one of the channels 16 to 22, while MON is ON. -/
def supply (channel : BitVec 16) (s : State) : State :=
  if isOn s .mon && !s.sys.inReset && 16 ≤ channel.toNat && channel.toNat ≤ 22 then detect .aon 9 0 channel s else s

/-- SUPPLY. -/
def execSupply (channel : BitVec 16) (s : State) : Outcome := .next (supply channel s)

/-! ### The handler (R461 to R463) -/

/-- ACTION of a unit at a level (R460, R466). -/
def actionCode (u : FUnit) (level : Nat) : Nat :=
  match u with
  | .core _ => 3 | .mon => 1 | .fq _ => 2
  | .map => level | .cv _ => level | .ld _ => level | .ho _ => level | .aon => 0

/-- A recovery of the unit starts at a level; `seq` is its log entry. -/
def startRecovery (u : FUnit) (level : Nat) (seq : Option (BitVec 16)) (s : State) : State :=
  startAction u level (modUnit u (fun x => { x with recovering := 1, level := level, lastSeq := seq }) s)

/-- A fault leaves the handler: its entry is written and posted and its action starts (R460 to R463). -/
def actOn (r : FaultRec) (s : State) : State :=
  let u := r.unit
  let x := unitSt s u
  let write := fun (level action outcome : Nat) (s : State) => postNewest (writeEntry r ⟨level, action, outcome⟩ s)
  if u == .aon && r.code == 8 && !(x.held && x.level == 3) then
    write 3 5 3 (modUnit .aon (fun x => { x with level := 3 }) s)
  else if x.held then write 3 0 6 s
  else if !codeActs r.code || u == .aon then write 1 0 1 s
  else if u == .core .sup then enterResetKeepLog (writeEntry r ⟨1, 4, 5⟩ s)
  else
    let level := if x.recovering = 0 then 1 else x.level + 1
    if 3 ≤ level then holdUnit u r.code (endEntry u 2 (write 3 5 3 s))
    else
      let seq := s.faults.nextSeq
      startRecovery u level (some seq) (endEntry u 2 (write level (actionCode u level) 0 s))

/-- FAULT_HANDLE: the handling of the fault ends, and the fault in the secondary slot is next. -/
def faultHandle (s : State) : State :=
  match s.faults.primary with
  | none => s
  | some r =>
    if supWatches s then actOn r (modFaults (fun f => { f with primary := f.second, second := none }) s) else s

/-- FAULT_HANDLE. -/
def execFaultHandle (s : State) : Outcome := .next (faultHandle s)

/-- INDEX of a unit in its log entries. -/
def unitIndex : FUnit → Nat
  | .core c => coreCode c
  | .aon => 0 | .mon => 0 | .map => 0 | .fq _ => 0 | .cv _ => 0 | .ld _ => 0 | .ho _ => 0

/-- FAULT_OVERFLOW_TAKEUP: the free handler takes up the first flagged unit as a fault OVERFLOWED, with the count of
its overflowed faults (R461). (DEDUCED, notes/assumptions 118) -/
def faultOverflowTakeup (s : State) : State :=
  if s.faults.primary.isSome || s.faults.second.isSome || !supWatches s then s
  else
    match unitOrder.find? fun u => (unitSt s u).overflow != 0 with
    | none => s
    | some u =>
      let r := faultRec s u 0xFE (BitVec.ofNat 7 (unitIndex u)) (BitVec.ofNat 16 (unitSt s u).overflow)
      modUnit u (fun x => { x with overflow := 0, ovDown := false }) (modFaults (fun f => { f with primary := some r }) s)

/-- FAULT_OVERFLOW_TAKEUP. -/
def execFaultOverflowTakeup (s : State) : Outcome := .next (faultOverflowTakeup s)

/-- RECOVERY_ACTION_DONE: the unit is back in service and its quiet second starts (R462). -/
def recoveryActionDone (u : FUnit) (s : State) : State :=
  let x := unitSt s u
  if x.recovering = 1 then
    let s := recWake u s
    finishAction u x.level (modUnit u (fun y => { y with recovering := 2 }) s)
  else s

/-- RECOVERY_ACTION_DONE. -/
def execRecoveryActionDone (u : FUnit) (s : State) : Outcome := .next (recoveryActionDone u s)

/-- RECOVERY_QUIET_EXPIRY: the recovery completes and the unit's level returns to 1 (R462). -/
def recoveryQuietExpiry (u : FUnit) (s : State) : State :=
  if (unitSt s u).recovering = 2 then
    modUnit u (fun x => { x with recovering := 0, level := 0, lastSeq := none }) (endEntry u 1 s)
  else s

/-- RECOVERY_QUIET_EXPIRY. -/
def execRecoveryQuietExpiry (u : FUnit) (s : State) : Outcome := .next (recoveryQuietExpiry u s)

/-! ### Alarms (R456 to R458) -/

/-- The condition of an alarm whose chapter gives no clearing rule; none for every other alarm and bit. -/
def alarmCond (s : State) (key : AlarmKey) (b : Nat) : Option Bool :=
  match key with
  | .line p =>
    let x := s.ports[p]
    let term := !regen s p
    match b with
    | 0 => some x.rx.foStop
    | 5 => some (x.nlc.group != 0 && x.nlc.peerCheck && !peerOk s p)
    | 7 => some ((groupOf s p).any fun j => j != p && delayFar x.nlc.members[j].delay)
    | 14 => some (term && x.sf.lock && bit x.sf.pathWord 7)
    | 15 => some (term && x.sf.lock && bit x.sf.pathWord 6)
    | 16 => some (!term && x.sf.lock && (ledgerFree x.sf.ledger).isNone)
    | 17 => some (groomSplit s p)
    | _ => none
  | .conv p =>
    match b with
    | 2 => some (!s.ports[p].front.locked)
    | 3 => some (regen s p && s.ports[p].front.holdover)
    | _ => none
  | .host k =>
    match b with
    | 2 => some ((laneClient s k).any fun c => !c.aligned)
    | 8 => some (s.map.clients.any fun c => c.first == k && c.rxOn && c.rxFail)
    | _ => none
  | .pool => if b = 1 then some (quadFailed s) else none
  | .jrx _ => none

/-- ALARM_DEFAULT_CLEAR: the condition has been absent for 10 ms. -/
def alarmDefaultClear (key : AlarmKey) (b : Fin 32) (s : State) : State :=
  if alarmCond s key b.val == some false then setAlarm key b.val false s else s

/-- ALARM_DEFAULT_CLEAR. -/
def execAlarmDefaultClear (key : AlarmKey) (b : Fin 32) (s : State) : Outcome := .next (alarmDefaultClear key b s)

/-- Bits that are alarms in an instance (R457). -/
def alarmBits : AlarmKey → Word
  | .line _ => 0x000FFFFF | .conv _ => 0x3F | .host _ => 0x71F | .pool => 3 | .jrx _ => 3

/-- ALARM_MASK_SET (R469). -/
def alarmMaskSet (rq : Req) (s : State) : State :=
  let key := alarmKeyOf rq
  let m := par rq 1
  commandOk 0xA002 rq
    [badAt [(key.isNone || pf rq 0 15 0 != 0, 0), (key.any fun k => m &&& ~~~(alarmBits k) != 0, 1)]]
    (fun _ => [])
    (fun s => match key with
      | some k => modAlarm k (fun a => { a with mask := m }) s
      | none => s) s

/-- ALARM_MASK_SET. -/
def execAlarmMaskSet (rq : Req) (s : State) : Outcome := .next (alarmMaskSet rq s)

/-- ALARM_STATUS (R13, R470). -/
def alarmStatus (rq : Req) (s : State) : State :=
  let all := pf rq 0 31 24 == 0xFF && pf rq 0 23 16 == 0
  report (alarmAt rq) 0xA003 rq [badAt [((!all && (alarmKeyOf rq).isNone) || pf rq 0 14 0 != 0, 0)]] (alarmStatusAnswer rq) s

/-- ALARM_STATUS. -/
def execAlarmStatus (rq : Req) (s : State) : Outcome := .next (alarmStatus rq s)

/-! ### FAULT_LOG_READ, FAULT_CLEAR (R468, R471) -/

/-- FAULT_LOG_READ (R13, R468). -/
def faultLogRead (rq : Req) (s : State) : State :=
  let n := pf rq 1 15 0
  report .device 0xA001 rq
    [badAt [(pf rq 0 31 24 != 0 || bulkBad (pf rq 0 23 0) (6 * n), 0), (n == 0 || decide (256 < n), 1)]] (faultLogAnswer rq) s

/-- FAULT_LOG_READ. -/
def execFaultLogRead (rq : Req) (s : State) : Outcome := .next (faultLogRead rq s)

/-- The unit of a DOMAIN and an INDEX; a lane of an octet names the octet. (DEDUCED, notes/assumptions 122) -/
def unitOf (d i : Nat) : Option FUnit :=
  unitOrder.find? fun u => unitDom u == d && (match u with
    | .ho _ => decide (i < 8)
    | .core _ => unitIndex u == i | .aon => i == 0 | .mon => i == 0 | .map => i == 0 | .fq _ => i == 0
    | .cv _ => i == 0 | .ld _ => i == 0)

/-- Every die sensor reads below 105 °C (R463); readings are in 0.1 °C. -/
def sensorsCool (s : State) : Bool := allPorts.all fun p => s.ports[p].cal.sensors.toList.all fun t => decide (t < 1050)

/-- A held-failed unit is released (R471, R464). -/
def releaseUnit (u : FUnit) (s : State) : State :=
  let s := match s.faults.log.find? (·.unit == u) with
    | some e => setOutcome e.seq 4 s
    | none => s
  let s := modUnit u (fun x => { x with held := false, level := 0 }) s
  if u == .aon then
    let s := finishAction .aon 1 s
    if s.sys.dev == .fault then refresh (moveDev (if s.sys.configId != 0 then .ready else .hold) 7 s) else s
  else heldChanged (startRecovery u 1 none s)

/-- The log is emptied. -/
def emptyLog (s : State) : State := modFaults (fun f => { f with log := [] }) s

/-- FAULT_CLEAR (R471). -/
def faultClear (rq : Req) (s : State) : State :=
  let d := pf rq 0 31 24
  let i := pf rq 0 23 16
  let all := d == 0xFF
  let empty := bit (par rq 0) 15
  let u := unitOf d i
  commandOk 0xA004 rq [badAt [((!all && u.isNone) || pf rq 0 14 0 != 0, 0)]]
    (fun s => match u with
      | some u => [(!unitHeld s u || (u == .aon && !sensorsCool s), badState)]
      | none => [])
    (fun s => doIf empty emptyLog (match u with
      | some u => releaseUnit u s
      | none => s)) s

/-- FAULT_CLEAR. -/
def execFaultClear (rq : Req) (s : State) : Outcome := .next (faultClear rq s)

end Sys2Proof.Machine
end

