-- ==== Sys2Proof/Machine/Startup.lean ====
section
/-! DEFINITION. Reset and boot (R480 to R487, R490, R491): resets, the release of reset, the boot ROM, the
download and the start of the firmware. -/

namespace Sys2Proof.Machine

/-! ### Reset -/

/-- POWER_ON_RESET: the supplies leave or reach their ranges (R480). -/
def powerOnReset (assert_ : Bool) (s : State) : State :=
  if assert_ then
    let s := enterReset s
    modSys (fun y => { y with porActive := true }) s
  else modSys (fun y => { y with porActive := false }) s

/-- POWER_ON_RESET. -/
def execPowerOnReset (assert_ : Bool) (s : State) : Outcome := .next (powerOnReset assert_ s)

/-- RESET_N: a low pulse of `lowNs`; between 1 µs and 10 µs it may or may not act (R480). -/
def resetNPulse (lowNs : Nat) (midActs : Bool) (s : State) : State :=
  if 10000 ≤ lowNs || (1000 ≤ lowNs && midActs) then enterReset s else s

/-- RESET_N. -/
def execResetN (lowNs : Nat) (midActs : Bool) (s : State) : Outcome := .next (resetNPulse lowNs midActs s)

/-- SYS_RESET_DELAY_EXPIRY: 10 ms after the reply to SYS_RESET DEVICE (R360). -/
def sysResetDelayExpiry (s : State) : State := if s.sys.resetDue then enterReset s else s

/-- SYS_RESET_DELAY_EXPIRY. -/
def execSysResetDelayExpiry (s : State) : Outcome := .next (sysResetDelayExpiry s)

/-- RESET_RELEASE: the straps are sampled and the boot ROM starts (R481, R483), unless a test instruction holds
the part in reset (R510). -/
def resetRelease (boot : BitVec 2) (addr : BitVec 3) (s : State) : State :=
  if s.sys.porActive || s.test.held || s.sys.phase != 0 || s.sys.err != 0 then s
  else
    modSys (fun y => { y with
      inReset := false, bootSrc := boot, addr := addr
      phase := if boot = 0 then 1 else if boot = 3 then 0 else 2
      err := if boot = 3 then 7 else 0 }) s

/-- RESET_RELEASE. -/
def execResetRelease (boot : BitVec 2) (addr : BitVec 3) (s : State) : Outcome := .next (resetRelease boot addr s)

/-! ### The image (R484 to R486) -/

/-- FLASH_SLOT_READ_DONE: the ROM has read an image from the slot in SLOT. -/
def flashSlotReadDone (header : Vector Word 64) (bodyWords : Nat) (s : State) : State :=
  if s.sys.phase = 1 then
    modSys (fun y => { y with image := header.toList, imageLen := 64 + bodyWords, phase := 3 }) s
  else s

/-- FLASH_SLOT_READ_DONE. -/
def execFlashSlotReadDone (header : Vector Word 64) (bodyWords : Nat) (s : State) : Outcome :=
  .next (flashSlotReadDone header bodyWords s)

/-- The first check of R485 that an image fails, as ERR; 0 when it is accepted. -/
def imageCheck (h : List Word) (keyOk sigOk : Bool) : Nat :=
  let w := fun i => h.getD i 0
  if w 0 != 0x435A5449 then 1
  else if w 3 != 0x6400B000 || ((h.drop 36).take 28).any (· != 0) then 2
  else if (w 2).toNat == 0 || 327680 < (w 2).toNat then 3
  else if !keyOk then 4
  else if !sigOk then 5
  else 0

/-- The firmware starts (R490, R491): after a wake the device returns to its state, or to HOLD without its
configuration; after a reset the Regulator's first runs start (R327), and a downloaded image brings HOLD. -/
def startFirmware (s : State) : State :=
  let s := modSys (fun y => { y with phase := 4, supRuns := true }) s
  match s.sys.resume with
  | some d =>
    if s.sys.configLost then holdLost s
    else modSys (fun y => { y with dev := d, resume := none }) s
  | none =>
    let s := eachPort (fun p s => if isOn s (.cv p) then calStart p .foreground calAll 1 s else s) s
    if s.sys.slot = 2 then moveDev .hold 1 s else s

/-- An image failed (R486, R487): slot B follows slot A, a download follows both, and a failed download is
awaited again. (DEDUCED, notes/assumptions 15) -/
def imageFailed (e : Nat) (s : State) : State :=
  modSys (fun y =>
    let y := { y with err := BitVec.ofNat 3 e, image := [], imageLen := 0, dlReady := false }
    if y.slot = 0 then { y with slot := 1, phase := 1 }
    else if y.slot = 1 then { y with phase := 2, fallbackDl := true }
    else { y with phase := 2 }) s

/-- IMAGE_VERIFY_DONE: the checks of R485; `keyOk` and `sigOk` are the results of the hash and the signature, and
`digest` is D. -/
def imageVerifyDone (keyOk sigOk : Bool) (digest : Vector Word 8) (s : State) : State :=
  if s.sys.phase = 3 then
    match imageCheck s.sys.image keyOk sigOk with
    | 0 => heldChanged <| startFirmware (modSys (fun y => { y with fwVer := y.image.getD 1 0, digest := digest }) s)
    | e => imageFailed e s
  else s

/-- IMAGE_VERIFY_DONE. -/
def execImageVerifyDone (keyOk sigOk : Bool) (digest : Vector Word 8) (s : State) : Outcome :=
  .next (imageVerifyDone keyOk sigOk digest s)

/-! ### Download (R487) -/

/-- Ports from which R483 accepts a download. -/
def dlAllowed (s : State) (who : HostPort) : Bool :=
  match who with
  | .twi => s.sys.bootSrc == 2 || (s.sys.bootSrc == 0 && s.sys.fallbackDl)
  | .mspi => s.sys.bootSrc == 1 || (s.sys.bootSrc == 0 && s.sys.fallbackDl)
  | .test => false

/-- A write to SYS.DL_CTRL with an OP and a LENGTH (R487). (DEDUCED, notes/assumptions 16) -/
def dlWrite (who : HostPort) (op len : Nat) (s : State) : State :=
  if op = 0 then s
  else if s.sys.phase != 2 || !dlAllowed s who || (op != 1 && (!s.sys.dlReady || len == 0 || 131072 < len)) then
    modSys (fun y => { y with dlReject := true }) s
  else if op = 1 then modSys (fun y => { y with image := [], imageLen := 0, copying := none, dlReady := true, slot := 2 }) s
  else if 64 + 327680 < s.sys.imageLen + len then
    modSys (fun y => { y with err := 6, image := [], imageLen := 0, copying := none, dlReady := false }) s
  else modSys (fun y => { y with copying := some (len, op == 3), dlReady := false }) s

/-- A write to SYS.DL_CTRL from a port. -/
def dlAccess (who : HostPort) (op len : Nat) (s : State) : State :=
  access who (fun s => feDone who 0x0003 0 (dlWrite who op len s)) s

/-- DL_START. -/
def execDlStart (who : HostPort) (s : State) : Outcome := .next (dlAccess who 1 0 s)
/-- DL_CHUNK. -/
def execDlChunk (who : HostPort) (len : BitVec 18) (s : State) : Outcome := .next (dlAccess who 2 len.toNat s)
/-- DL_LAST. -/
def execDlLast (who : HostPort) (len : BitVec 18) (s : State) : Outcome := .next (dlAccess who 3 len.toNat s)

/-- DL_PART_COPIED: the ROM has copied a part from bulk memory; after the last one it checks the image. -/
def dlPartCopied (s : State) : State :=
  match s.sys.copying with
  | none => s
  | some (len, last) =>
    let part := bulkRead s.bulk 0 (min len 64)
    modSys (fun y => { y with
      image := (y.image ++ part).take 64, imageLen := y.imageLen + len, copying := none
      dlReady := !last, phase := if last then 3 else y.phase }) s

/-- DL_PART_COPIED. -/
def execDlPartCopied (s : State) : Outcome := .next (dlPartCopied s)

end Sys2Proof.Machine
end

