-- ==== Sys2Proof/Machine/Registers.lean ====
section
/-! DEFINITION. The host registers (R4 to R11, R131, R350, R381 to R384, R401 to R405, R435, R444, R445):
reads with their latches, writes, accesses to a sleeping CTL, and the peripheral masters. -/

namespace Sys2Proof.Machine

/-! ### Register values -/

/-- SYS.STATE (R493). -/
def regState (s : State) : Word :=
  word [(31, 29, s.sys.dev.code), (28, 28, b2n s.sys.started), (27, 24, s.sys.holdReason.toNat)]

/-- SYS.BOOT (R487). -/
def regBoot (s : State) : Word :=
  let y := s.sys
  word [(31, 30, y.bootSrc.toNat), (29, 27, y.phase.toNat), (26, 24, y.err.toNat), (23, 22, y.slot.toNat),
    (21, 21, b2n y.dlReady), (20, 20, b2n y.fallbackDl), (19, 19, b2n y.dlReject)]

/-- MBX.LEVEL_n (R383). -/
def regLevel (c : MChan) (n : Fin 8) : Word :=
  word [(31, 27, if noInbound n then 0 else 16 - c.inQ.length), (26, 22, c.outQ.length),
    (21, 17, c.outQ.countP (·.start)), (16, 16, b2n (c.outQ.head?.any (·.start)))]

/-- MBX.CTRL_n (R383). -/
def regCtrl (c : MChan) : Word :=
  word [(15, 15, b2n c.underrun), (14, 14, b2n c.overrun), (13, 13, b2n c.conflict), (12, 12, b2n c.drop),
    (11, 8, c.genTwi.toNat), (7, 4, c.genMspi.toNat), (3, 0, c.genTest.toNat)]

/-- MBX.STAMP_n of a port (R385, R389). -/
def regStamp (c : MChan) : HostPort → Word
  | .twi => c.stampTwi | .mspi => c.stampMspi | .test => c.stampTest

/-- Codes of the loop states (R445). -/
def LoopState.code : LoopState → Nat
  | .off => 0 | .fixed => 1 | .settling => 2 | .settled => 3 | .drift => 4 | .unsettled => 5

/-- A bias output is high impedance: SUP has not written it, or MON is in NAP or OFF (R98). -/
def biasHighZ (s : State) (k : Fin 24) : Bool := s.mon.loops[k].highZ || s.power.mon.dark

/-- MON.BIAS_k (R445). -/
def regBias (s : State) (k : Fin 24) : Word :=
  let l := s.mon.loops[k]
  word [(31, 16, l.drive), (15, 13, l.st.code), (12, 12, b2n (biasHighZ s k))]

/-- MON.STATUS (R445). -/
def regMonStatus (s : State) : Word :=
  let m := s.mon
  word [(31, 29, m.preset.toNat), (28, 28, b2n m.refOn), (27, 27, b2n m.refCold),
    (26, 26, b2n (m.filt.toList.any fun f => f.fade.any (0 < ·))), (25, 25, b2n m.urgent.isSome), (23, 0, m.scan.toNat)]

/-- MON.RES_LO of a channel (R444). -/
def regResLo (r : MonRes) : Word :=
  word [(31, 24, r.seq.toNat), (23, 23, b2n r.invalid), (22, 22, b2n r.refCold), (21, 21, b2n r.ovr),
    (20, 20, b2n r.filtered), (11, 0, r.data.toNat)]

/-- MON.RES_HI as latched with a result (R444, R445). -/
def resHi (r : MonRes) : Word := word [(31, 24, r.seq.toNat), (11, 0, r.data.toNat / 4096)]

/-- Word of bulk memory at a host address (R350). -/
def bulkIndex (s : State) (addr : Nat) : Nat := s.sys.bulkPage.toNat * 8192 + (addr - 0x8000) / 4

/-- Registers of SYS. -/
def readSys (s : State) (a : Nat) : Word :=
  match a with
  | 0x00 => sysId | 0x01 => regState s | 0x02 => regBoot s
  | 0x04 => uidWords.getD 0 0 | 0x05 => uidWords.getD 1 0 | 0x06 => uidWords.getD 2 0 | 0x07 => uidWords.getD 3 0
  | 0x08 => word [(3, 0, s.sys.bulkPage.toNat)]
  | _ => 0

/-- Registers of MBX whose reads have no side effect. -/
def readMbx (s : State) (who : HostPort) (a : Nat) : Word :=
  let n : Fin 8 := Fin.ofNat 8 a
  if 0x110 ≤ a && a < 0x118 then regLevel s.mbx.m[n] n
  else if 0x118 ≤ a && a < 0x120 then regCtrl s.mbx.m[n]
  else if 0x120 ≤ a && a < 0x128 then regStamp s.mbx.m[n] who
  else match a with
    | 0x180 => s.mbx.dbHost | 0x181 => s.mbx.dbMask | 0x190 => s.mbx.outDrop | 0x191 => s.mbx.cntAbort
    | 0x192 => s.mbx.cntStale | 0x193 => s.mbx.cntPartial
    | _ => 0

/-- Registers of PWR (R435). -/
def readPwr (s : State) (a : Nat) : Word :=
  match a with
  | 0x200 => stateA s | 0x201 => stateB s | 0x202 => s.power.retain | 0x203 => s.power.lost
  | 0x204 => word [(15, 0, s.power.wakeSeq.toNat)]
  | _ => 0

/-- Registers of the TWI block (R401 to R405). -/
def readTwi (s : State) (a : Nat) : Word :=
  let t := s.twi
  if 0x328 ≤ a && a < 0x330 then t.ptwiData[(Fin.ofNat 8 a : Fin 8)]
  else match a with
    | 0x300 => word [(31, 25, 0x58 + s.sys.addr.toNat), (24, 22, s.sys.addr.toNat)]
    | 0x301 => word [(4, 0, t.twiEvents.toNat)]
    | 0x302 => t.twiAbort | 0x303 => t.twiTimeout | 0x304 => t.twiNack
    | 0x310 => word [(3, 0, t.mspiEvents.toNat)]
    | 0x311 => t.mspiAbort | 0x312 => t.mspiMiss
    | 0x320 => t.ptwiCfg | 0x322 => t.ptwiStatus
    | 0x330 => t.bspiCfg | 0x331 => t.bspiAddr | 0x333 => t.bspiBulk | 0x334 => t.bspiStatus
    | _ => 0

/-- Registers of MON whose reads have no side effect; the halves of results are read from the port's shadows. -/
def readMon (s : State) (who : HostPort) (a : Nat) : Word :=
  if 0x400 ≤ a && a < 0x430 then
    (if a % 2 = 1 then (feOf s who).monHi[(Fin.ofNat 24 ((a - 0x400) / 2) : Fin 24)] else 0)
  else if 0x490 ≤ a && a < 0x4A8 then regBias s (Fin.ofNat 24 (a - 0x490))
  else match a with
    | 0x480 => regMonStatus s | 0x481 => s.mon.round | 0x482 => s.mon.cntInvalid | 0x483 => s.mon.cntUrgent
    | 0x484 => s.mon.cntTorn | 0x485 => s.mon.cntUnsettle
    | _ => 0

/-- LPS registers as the port copied them (R131). -/
def readLps (s : State) (who : HostPort) (a : Nat) : Word :=
  let o := a - 0x500
  if o < 0x100 && o % 0x40 < 16 then
    ((feOf s who).lps[(Fin.ofNat 4 (o / 0x40) : Fin 4)])[(Fin.ofNat 16 (o % 0x40) : Fin 16)]
  else 0

/-- The manual defines a register at the address (R4, R131, R383, R401, R435, R444, R487), or bulk memory. R6 gives
the block TST 0x0F00 to 0x0FFF the content "test access" and no register: every address there is treated as reserved,
which reads as zero and ignores writes (R7; DESIGN CHOICE, notes/assumptions 155). -/
def regDefined (a : Nat) : Bool :=
  a < 0x09 || (0x100 ≤ a && a < 0x128) || a == 0x180 || a == 0x181 || (0x190 ≤ a && a < 0x194) ||
    (0x200 ≤ a && a < 0x205) || (0x300 ≤ a && a < 0x305) || (0x310 ≤ a && a < 0x313) ||
    (0x320 ≤ a && a < 0x323) || (0x328 ≤ a && a < 0x335) || (0x400 ≤ a && a < 0x430) ||
    (0x480 ≤ a && a < 0x486) || (0x490 ≤ a && a < 0x4A8) || (0x500 ≤ a && a < 0x600) || 0x8000 ≤ a

/-- What a read without side effects answers (R7, R8). A reserved address reads as zero, but for the upper half
of a counter that the port has latched (R11). -/
def readReg (s : State) (who : HostPort) (addr : BitVec 16) : Word :=
  let a := addr.toNat
  if !regDefined a then (((feOf s who).shadows.find? (·.1 == addr)).map (·.2)).getD 0
  else if a < 0x100 then readSys s a
  else if a < 0x200 then readMbx s who a
  else if a < 0x300 then readPwr s a
  else if a < 0x400 then readTwi s a
  else if a < 0x500 then readMon s who a
  else if a < 0x600 then readLps s who a
  else if a % 4 == 0 then bulkGet s.bulk (bulkIndex s a) else 0

/-! ### Reads with latches -/

/-- Copy of the port's snapshot for the host (R131): DOWN and zero while LDn is not ON. -/
def lpsCopy (s : State) (p : LPort) : Vector Word 16 :=
  if isOn s (.ld p) then s.ports[p].rx.snap else Vector.replicate 16 0

/-- A read of LPS.STATUS_n copies the snapshot (R131, R389). -/
def readLpsStatus (who : HostPort) (p : LPort) (s : State) : Word × State :=
  let v := lpsCopy s p
  (v[0], modFe who (fun f => { f with lps := vset f.lps p v }) s)

/-- A read of MON.RES_LO_cc latches the upper half and clears TORN (R445). -/
def readResLo (who : HostPort) (c : Fin 24) (s : State) : Word × State :=
  let r := s.mon.res[c]
  (regResLo r, modFe who (fun f => { f with monHi := vset f.monHi c (resHi r), monFresh := vset f.monFresh c true }) s)

/-- A read of a register: the word and the state after its side effects (R388). -/
def regRead (who : HostPort) (addr : BitVec 16) (s : State) : Word × State :=
  let a := addr.toNat
  if 0x108 ≤ a && a < 0x110 then takeWord who (Fin.ofNat 8 a) s
  else if 0x500 ≤ a && a < 0x600 && a % 0x40 == 0 then readLpsStatus who (Fin.ofNat 4 ((a - 0x500) / 0x40)) s
  else if 0x400 ≤ a && a < 0x430 && a % 2 == 0 then readResLo who (Fin.ofNat 24 ((a - 0x400) / 2)) s
  else (readReg s who addr, s)

/-! ### The peripheral TWI controller (R402 to R404) -/

/-- Set RESULT, DONE and BYTES_DONE of a transfer that has ended. -/
def ptwiEnd (result done : Nat) (s : State) : State :=
  modTwi (fun t => { t with
    ptwiCmd := none
    ptwiStatus := word [(31, 29, result), (27, 27, 1), (26, 26, b2n (bit t.ptwiStatus 26)), (25, 20, done)] }) s

/-- A write to PTWI.CMD (R404). -/
def ptwiCommand (w : Word) (s : State) : State :=
  if s.twi.ptwiCmd.isSome || 32 < fld w 22 17 || 32 < fld w 16 11 then
    modTwi (fun t => { t with ptwiStatus := t.ptwiStatus ||| wd (2 ^ 26) }) s
  else if !bit s.twi.ptwiCfg 29 then ptwiEnd 6 0 s
  else modTwi (fun t => { t with ptwiCmd := some w, ptwiStatus := t.ptwiStatus ||| wd (2 ^ 28) }) s

/-- Received bytes, four to a word, in the data registers from byte 0 on (R402). -/
def storeBytes (bs : List Byte) (v : Vector Word 8) : Vector Word 8 :=
  Vector.ofFn fun i =>
    let old := fun (k : Nat) => fld v[i] (31 - 8 * k) (24 - 8 * k)
    let b := fun (k : Nat) => match bs[4 * i.val + k]? with
      | some x => x.toNat
      | none => old k
    word [(31, 24, b 0), (23, 16, b 1), (15, 8, b 2), (7, 0, b 3)]

/-- RESULT of an end that the transfer came to by itself. -/
def ptwiCode : PtwiEnd → Nat
  | .ok => 0 | .addrNack => 1 | .dataNack => 2 | .arbLost => 3 | .busStuck => 5

/-- PTWI_DONE (R403, R404): a read stores the bytes received. -/
def ptwiDone (how : PtwiEnd) (done : BitVec 6) (data : List Byte) (s : State) : State :=
  match s.twi.ptwiCmd with
  | none => s
  | some w =>
    let op := fld w 31 30
    let s := if op = 1 || op = 2 then
        modTwi (fun t => { t with ptwiData := storeBytes (data.take (fld w 16 11)) t.ptwiData }) s
      else s
    ptwiEnd (ptwiCode how) done.toNat s

/-- PTWI_DONE. -/
def execPtwiDone (how : PtwiEnd) (done : BitVec 6) (data : List Byte) (s : State) : Outcome :=
  .next (ptwiDone how done data s)

/-- PTWI_BUS_BUSY: the bus was busy for 25 ms (R403). -/
def execPtwiBusBusy (s : State) : Outcome := .next (if s.twi.ptwiCmd.isSome then ptwiEnd 6 0 s else s)

/-- PTWI_STRETCH_TO: a target held SCL low for 25 ms (R403). -/
def execPtwiStretchTo (done : BitVec 6) (s : State) : Outcome :=
  .next (if s.twi.ptwiCmd.isSome then ptwiEnd 4 done.toNat s else s)

/-! ### The boot SPI controller (R405) -/

/-- The bytes that a transaction sends to the flash. -/
def bspiBytes (s : State) (w : Word) : List Byte :=
  (List.range (fld w 18 10)).map fun i => memGet s.bulk (4 * fld s.twi.bspiBulk 16 0 + i)

/-- A transaction starts: bytes for the flash are read from bulk memory. -/
def bspiStart (w : Word) (s : State) : State :=
  let bs := if bit w 19 then bspiBytes s w else []
  modTwi (fun t => { t with bspiCmd := some (w, false), bspiSent := if bit w 19 then bs else t.bspiSent }) s

/-- A write to BSPI.CMD (R405). Reserved values of ADDR_BYTES and LENGTH are ignored with ERR (DESIGN CHOICE, notes/assumptions
28). -/
def bspiCommand (w : Word) (s : State) : State :=
  let len := fld w 18 10
  let bad := s.sys.dev == .boot || s.twi.bspiCmd.isSome || 256 < len || fld w 23 22 == 3 ||
    bulkBad (fld s.twi.bspiBulk 16 0) ((len + 3) / 4)
  if bad then modTwi (fun t => { t with bspiStatus := t.bspiStatus ||| wd (2 ^ 29) }) s
  else if bit s.twi.bspiCfg 31 then s
  else
    let s := modTwi (fun t => { t with bspiStatus := t.bspiStatus ||| wd (2 ^ 31) }) s
    if isOn s .ctl then bspiStart w s
    else wakeCtl (modTwi (fun t => { t with bspiCmd := some (w, true) }) s)

/-- Store bytes in bulk memory. -/
def putBytes : List Host.Cell → Nat → List Byte → List Host.Cell
  | m, _, [] => m
  | m, a, b :: bs => putBytes (memPut m a b) (a + 1) bs

/-- The BSPI lines are high impedance: in reset, or with RELEASE set (R405, R495). -/
def bspiHighZ (s : State) : Bool := s.sys.inReset || s.sys.porActive || bit s.twi.bspiCfg 31

/-- BSPI_DONE: the transaction has ended; `data` are the bytes of the flash. -/
def bspiDone (data : List Byte) (s : State) : State :=
  match s.twi.bspiCmd with
  | some (w, false) =>
    let s := if bit w 19 then s
      else { s with bulk := putBytes s.bulk (4 * fld s.twi.bspiBulk 16 0) (data.take (fld w 18 10)) }
    modTwi (fun t => { t with bspiCmd := none, bspiStatus := word [(30, 30, 1), (29, 29, b2n (bit t.bspiStatus 29))] }) s
  | _ => s

/-- BSPI_DONE. -/
def execBspiDone (data : List Byte) (s : State) : Outcome := .next (bspiDone data s)

/-! ### Writes -/

/-- Writes to the TWI block. -/
def writeTwi (a : Nat) (w : Word) (s : State) : State :=
  if 0x328 ≤ a && a < 0x330 then modTwi (fun t => { t with ptwiData := vset t.ptwiData (Fin.ofNat 8 a) w }) s
  else match a with
    | 0x301 => modTwi (fun t => { t with twiEvents := t.twiEvents &&& ~~~(w.setWidth 5) }) s
    | 0x310 => modTwi (fun t => { t with mspiEvents := t.mspiEvents &&& ~~~(w.setWidth 4) }) s
    | 0x320 => modTwi (fun t => { t with ptwiCfg := w &&& 0xE0000000 }) s
    | 0x321 => ptwiCommand w s
    | 0x322 => modTwi (fun t => { t with ptwiStatus := t.ptwiStatus &&& ~~~(w &&& 0x0C000000) }) s
    | 0x330 => modTwi (fun t => { t with bspiCfg := w &&& 0xE0000000 }) s
    | 0x331 => modTwi (fun t => { t with bspiAddr := w }) s
    | 0x332 => bspiCommand w s
    | 0x333 => modTwi (fun t => { t with bspiBulk := w &&& 0x1FFFF }) s
    | 0x334 => modTwi (fun t => { t with bspiStatus := t.bspiStatus &&& ~~~(w &&& 0x60000000) }) s
    | _ => s

/-- Writes to MBX (R381 to R384): a READY bit is set again while its condition holds. -/
def writeMbx (who : HostPort) (a : Nat) (w : Word) (s : State) : State :=
  let n : Fin 8 := Fin.ofNat 8 a
  if 0x100 ≤ a && a < 0x108 then postWord n (hostStamp s who n) w s
  else if 0x118 ≤ a && a < 0x120 then ctrlWrite who n w s
  else match a with
    | 0x180 => modMbx (fun x => { x with dbHost := (x.dbHost &&& ~~~w) ||| wd (readyBits x) }) s
    | 0x181 => modMbx (fun x => { x with dbMask := w }) s
    | _ => s

/-- The effect of a complete written word (R7, R8, R387). -/
def regWrite (who : HostPort) (addr : BitVec 16) (w : Word) (s : State) : State :=
  let a := addr.toNat
  if 0x8000 ≤ a then
    (if a % 4 == 0 then { s with bulk := bulkPut s.bulk (bulkIndex s a) w } else s)
  else if a < 0x100 then
    match a with
    | 0x02 => modSys (fun y => { y with dlReject := y.dlReject && !bit w 19 }) s
    | 0x03 => dlWrite who (fld w 31 30) (fld w 17 0) s
    | 0x08 => modSys (fun y => { y with bulkPage := w.setWidth 4 }) s
    | _ => s
  else if a < 0x200 then writeMbx who a w s
  else if 0x300 ≤ a && a < 0x400 then writeTwi a w s
  else s

/-! ### Accesses to a sleeping CTL (R390, R393, R399, R421) -/

/-- The wake of CTL cannot end within 20 ms: a transition takes CTL down, or the firmware must be reloaded. -/
def longWake (s : State) : Bool := inDown s .ctl || fld s.power.kept 5 0 != 63 || s.sys.resume.isSome

/-- An access that needs CTL while it is not ON: TWI stretches, or refuses a long wake with WAKE_NACK; on MSPI
the frame misses. The wake begins in each case. -/
def sleepAccess (who : HostPort) (addr : BitVec 16) (w : Option Word) (s : State) : State :=
  let s := wakeCtl s
  match who with
  | .twi =>
    if longWake s then
      feRefuse .twi (modTwi (fun t => { t with twiEvents := t.twiEvents ||| 1, twiNack := t.twiNack + 1 }) s)
    else
      let st : Stall := { dom := .ctl, addr := addr, w := w }
      modFe .twi (fun f => { f with stall := some st, done := false }) s
  | .mspi =>
    let s := modTwi (fun t => { t with
      mspiEvents := t.mspiEvents ||| 2, mspiMiss := t.mspiMiss + 1, lastMiss := true, lastAbort := false }) s
    modFe .mspi (fun f => { f with rdata := 0, done := false }) s
  | .test => feRefuse .test s

/-- The address lies in a domain that sleeps, or that a running transition moves to a lower state (R412): the bulk window
is in CTL (R350). -/
def sleepsAt (s : State) (addr : BitVec 16) : Bool :=
  decide (0x8000 ≤ addr.toNat) && (!isOn s .ctl || inDown s .ctl)

/-- REGISTER_READ. -/
def registerRead (who : HostPort) (addr : BitVec 16) (s : State) : State :=
  access who (fun s =>
    if sleepsAt s addr then sleepAccess who addr none s
    else
      let r := regRead who addr s
      feDone who addr r.1 r.2) s

/-- REGISTER_READ. -/
def execRegisterRead (who : HostPort) (addr : BitVec 16) (s : State) : Outcome := .next (registerRead who addr s)

/-- REGISTER_WRITE. -/
def registerWrite (who : HostPort) (addr : BitVec 16) (w : Word) (s : State) : State :=
  access who (fun s =>
    if sleepsAt s addr then sleepAccess who addr (some w) s
    else feDone who addr 0 (regWrite who addr w s)) s

/-- REGISTER_WRITE. -/
def execRegisterWrite (who : HostPort) (addr : BitVec 16) (w : Word) (s : State) : Outcome :=
  .next (registerWrite who addr w s)

/-- LPS_STATUS_READ (R131). -/
def execLpsStatusRead (who : HostPort) (p : LPort) (s : State) : Outcome :=
  .next (registerRead who (BitVec.ofNat 16 (0x500 + 0x40 * p.val)) s)

/-- MON_RES_LO_READ (R445). -/
def execMonResLoRead (who : HostPort) (c : Fin 24) (s : State) : Outcome :=
  .next (registerRead who (BitVec.ofNat 16 (0x400 + 2 * c.val)) s)

/-- COUNTER_LOW_READ: the lower half of a 64-bit counter whose present value is `value` is read, and its upper
half is latched for the port (R11, R389). The register map of R6 names no such counter, so the row may name any
address and any value, and REGISTER_READ, which reads the registers that are named, latches no upper half (DESIGN
CHOICE, notes/assumptions 156). -/
def counterLowRead (who : HostPort) (addr : BitVec 16) (value : BitVec 64) (s : State) : State :=
  access who (fun s =>
    let up := addr + 1
    feDone who addr (value.setWidth 32) (modFe who (fun f => { f with
      shadows := (up, value.extractLsb' 32 32) :: f.shadows.filter (·.1 != up) }) s)) s

/-- COUNTER_LOW_READ. -/
def execCounterLowRead (who : HostPort) (addr : BitVec 16) (value : BitVec 64) (s : State) : Outcome :=
  .next (counterLowRead who addr value s)

/-- A write to PTWI.CMD with an OP. -/
def ptwiAccess (who : HostPort) (op : Nat) (w : Word) (s : State) : State :=
  registerWrite who 0x0321 (word [(31, 30, op), (29, 0, w.toNat)]) s

/-- PTWI_WRITE. -/
def execPtwiWrite (who : HostPort) (w : Word) (s : State) : Outcome := .next (ptwiAccess who 0 w s)
/-- PTWI_READ. -/
def execPtwiRead (who : HostPort) (w : Word) (s : State) : Outcome := .next (ptwiAccess who 1 w s)
/-- PTWI_WRITE_READ. -/
def execPtwiWriteRead (who : HostPort) (w : Word) (s : State) : Outcome := .next (ptwiAccess who 2 w s)
/-- PTWI_RECOVER. -/
def execPtwiRecover (who : HostPort) (w : Word) (s : State) : Outcome := .next (ptwiAccess who 3 w s)

/-- A write to BSPI.CMD with a DIR. -/
def bspiAccess (who : HostPort) (dir : Nat) (w : Word) (s : State) : State :=
  registerWrite who 0x0332 (word [(31, 20, w.toNat / 2 ^ 20), (19, 19, dir), (18, 0, w.toNat)]) s

/-- BSPI_FLASH_TO_BULK. -/
def execBspiFlashToBulk (who : HostPort) (w : Word) (s : State) : Outcome := .next (bspiAccess who 0 w s)
/-- BSPI_BULK_TO_FLASH. -/
def execBspiBulkToFlash (who : HostPort) (w : Word) (s : State) : Outcome := .next (bspiAccess who 1 w s)

/-! ### Happenings on the ports (R392 to R400) -/

/-- A stalled TWI access goes on (R393). -/
def unstall (d : Dom) (s : State) : State :=
  match s.twi.twi.stall with
  | none => s
  | some st =>
    if st.dom != d then s
    else
      let s := modFe .twi (fun f => { f with stall := none }) s
      match st.w with
      | none =>
        let r := regRead .twi st.addr s
        feDone .twi st.addr r.1 r.2
      | some w => feDone .twi st.addr 0 (regWrite .twi st.addr w s)

/-- A BSPI command that waited for CTL starts (R405). -/
def bspiGo (s : State) : State :=
  match s.twi.bspiCmd with
  | some (w, true) => bspiStart w s
  | _ => s

/-- ACCESS_WAKE_COMPLETE: a digital domain woken by an access reaches ON and the stalled access proceeds
(R421). A transition that takes the domain down goes first (R412). -/
def accessWakeComplete (d : Dom) (s : State) : State :=
  if !s.power.accessWakes.contains d || inDown s d || isAnalog d || (unitHeld s (domUnit d) && d != .ctl) then s
  else
    let s := accessWake d s
    let s := modPower (fun p => { p with accessWakes := p.accessWakes.filter (· != d) }) s
    let s := unstall d s
    if d == .ctl then bspiGo s else s

/-- ACCESS_WAKE_COMPLETE. -/
def execAccessWakeComplete (d : Dom) (s : State) : Outcome := .next (accessWakeComplete d s)

/-- TWI_ABORT: a START or STOP inside a transfer (R392). (DEDUCED, notes/assumptions 57) -/
def twiAbort (insideWord : Bool) (s : State) : State :=
  if insideWord then
    feRefuse .twi (modTwi (fun t => { t with twiEvents := t.twiEvents ||| 4, twiAbort := t.twiAbort + 1 }) s)
  else s

/-- TWI_ABORT. -/
def execTwiAbort (insideWord : Bool) (s : State) : Outcome := .next (twiAbort insideWord s)

/-- The TWI port resets itself and discards the word (R393, R395). -/
def twiReset (event : BitVec 5) (s : State) : State :=
  modFe .twi (fun f => { f with stall := none, done := false })
    (modTwi (fun t => { t with twiEvents := t.twiEvents ||| event, twiTimeout := t.twiTimeout + 1 }) s)

/-- TWI_STRETCH_TO (R393). -/
def execTwiStretchTo (s : State) : Outcome := .next (if s.twi.twi.stall.isSome then twiReset 16 s else s)

/-- TWI_SDA_TO (R395). -/
def execTwiSdaTo (s : State) : Outcome := .next (twiReset 8 s)

/-- TWI_DEEP_NACK: a transaction addressed to the listening port is refused; the first starts a wake (R394). -/
def twiDeepNack (s : State) : State :=
  if s.twi.twi.listening then
    let first := !s.twi.twi.window
    let s := modTwi (fun t => { t with twiEvents := t.twiEvents ||| 2, twiNack := t.twiNack + 1 }) s
    let s := modFe .twi (fun f => { f with window := true, done := false }) s
    doIf first (profileWake 4 0) s
  else s

/-- TWI_DEEP_NACK. -/
def execTwiDeepNack (s : State) : Outcome := .next (twiDeepNack s)

/-- The window after a refused access ends, and the port serves from then on (R394, R400). -/
def windowEnd (who : HostPort) (s : State) : State :=
  if (feOf s who).window then modFe who (fun f => { f with window := false, listening := false }) s else s

/-- TWI_DEEP_WINDOW_END. -/
def execTwiDeepWindowEnd (s : State) : Outcome := .next (windowEnd .twi s)

/-- MSPI_BAD_CMD (R398): nothing is accessed. -/
def mspiBadCmd (s : State) : State :=
  if s.twi.mspi.listening then s
  else feRefuse .mspi (modTwi (fun t => { t with
    mspiEvents := t.mspiEvents ||| 8, lastMiss := false, lastAbort := false }) s)

/-- MSPI_BAD_CMD. -/
def execMspiBadCmd (s : State) : Outcome := .next (mspiBadCmd s)

/-- MSPI_FRAME_ABORT: a frame ends inside a word (R398). -/
def mspiFrameAbort (s : State) : State :=
  if s.twi.mspi.listening then s
  else feRefuse .mspi (modTwi (fun t => { t with
    mspiEvents := t.mspiEvents ||| 4, mspiAbort := t.mspiAbort + 1, lastMiss := false, lastAbort := true }) s)

/-- MSPI_FRAME_ABORT. -/
def execMspiFrameAbort (s : State) : Outcome := .next (mspiFrameAbort s)

/-- MSPI_DEEP_IGNORE (R400). -/
def mspiDeepIgnore (s : State) : State :=
  if s.twi.mspi.listening then
    let first := !s.twi.mspi.window
    let s := modTwi (fun t => { t with mspiEvents := t.mspiEvents ||| 1 }) s
    let s := modFe .mspi (fun f => { f with window := true, done := false }) s
    doIf first (profileWake 5 0) s
  else s

/-- MSPI_DEEP_IGNORE. -/
def execMspiDeepIgnore (s : State) : Outcome := .next (mspiDeepIgnore s)

/-- MSPI_DEEP_WINDOW_END. -/
def execMspiDeepWindowEnd (s : State) : Outcome := .next (windowEnd .mspi s)

/-- MSPI status word of R397, as the next frame reports it. -/
def mspiStatus (s : State) : BitVec 16 :=
  BitVec.ofNat 16 (b2n (isOn s .ctl) * 2 ^ 15 + b2n s.twi.lastMiss * 2 ^ 14 + b2n s.twi.lastAbort * 2 ^ 13 +
    s.sys.dev.code * 2 ^ 10)

end Sys2Proof.Machine
end

