-- ==== Sys2Proof/Machine/TestAccess.lean ====
section
/-! DEFINITION. Test access (R509 to R511), the Loupe (R512, R513) and the loopbacks (R514). -/

namespace Sys2Proof.Machine

/-! ### TAP instructions (R509, R510) -/

/-- IDCODE (R509). -/
def idcodeWord : Word := 0xB64009A7

/-- The instruction gives the balls to the boundary cells. -/
def TapIr.drives : TapIr → Bool
  | .extest => true | .clamp => true | .extestPulse => true | .extestTrain => true
  | .highz => false | .bypass => false | .idcode => false | .samplePreload => false | .testMbx => false

/-- The DRV_EN_n ball (R94, R510): its cell while a test instruction drives it; none, not driven, in reset and while
HIGHZ floats it; else DRV_EN_n. -/
def drvPin (s : State) (p : LPort) : Option Bool :=
  if s.test.held then (if s.test.ir.drives then some (s.test.drvCells.getLsbD p.val) else none)
  else if s.sys.inReset || s.sys.porActive then none
  else some s.ports[p].front.drvEn

/-- A test instruction resets the part and holds it (R482, R510). (DEDUCED, notes/assumptions 123) -/
def testHold (ir : TapIr) (s : State) : State :=
  let s := enterReset s
  modTest (fun t => { t with ir := ir, held := true }) s

/-- EXTEST. -/
def execExtest (s : State) : Outcome := .next (testHold .extest s)
/-- CLAMP. -/
def execClamp (s : State) : Outcome := .next (testHold .clamp s)
/-- HIGHZ. -/
def execHighz (s : State) : Outcome := .next (testHold .highz s)
/-- EXTEST_PULSE. -/
def execExtestPulse (s : State) : Outcome := .next (testHold .extestPulse s)
/-- EXTEST_TRAIN. -/
def execExtestTrain (s : State) : Outcome := .next (testHold .extestTrain s)

/-- An instruction that does not disturb operation. A part that a test instruction holds stays in reset. -/
def tapSelect (ir : TapIr) (s : State) : State := modTest (fun t => { t with ir := ir }) s

/-- BYPASS. -/
def execBypass (s : State) : Outcome := .next (tapSelect .bypass s)
/-- IDCODE. -/
def execIdcode (s : State) : Outcome := .next (tapSelect .idcode s)

/-- SAMPLE/PRELOAD: the boundary cells take the values shifted in. -/
def samplePreload (drvEn : BitVec 4) (cells : List Bool) (s : State) : State :=
  modTest (fun t => { t with ir := .samplePreload, drvCells := drvEn, cells := cells }) s

/-- SAMPLE/PRELOAD. -/
def execSamplePreload (drvEn : BitVec 4) (cells : List Bool) (s : State) : Outcome := .next (samplePreload drvEn cells s)

/-- TEST_LOGIC_RESET: IDCODE is selected, and a held part is released; its boot goes on with RESET_RELEASE, which
samples the straps (R481, R510). -/
def testLogicReset (s : State) : State := modTest (fun t => { t with ir := .idcode, held := false }) s

/-- TEST_LOGIC_RESET. -/
def execTestLogicReset (s : State) : Outcome := .next (testLogicReset s)

/-! ### TEST_MBX (R511) -/

/-- M7. -/
def testChan : Fin 8 := 7

/-- An operation of TEST_MBX on M7: bits [33:32] of the next Capture-DR are 2 in reset, where nothing is done, 1 when
the operation set UNDERRUN or OVERRUN, and 0 otherwise. -/
def testMbx (op : State → Option Word × State) (s : State) : State :=
  if s.sys.inReset then modTest (fun t => { t with ir := .testMbx, drWord := none, drStat := 2 }) s
  else
    let old := s.mbx.m[testChan]
    let r := op (modM testChan (fun c => { c with underrun := false, overrun := false }) s)
    let new := r.2.mbx.m[testChan]
    let bad := new.underrun || new.overrun
    let s := modM testChan (fun c => { c with
      underrun := c.underrun || old.underrun, overrun := c.overrun || old.overrun }) r.2
    modTest (fun t => { t with ir := .testMbx, drWord := r.1, drStat := if bad then 1 else 0 }) s

/-- What a Capture-DR of TEST_MBX loads: the word taken by the last operation, or MBX.LEVEL_7. -/
def testCapture (s : State) : BitVec 34 :=
  let w := match s.test.drWord with
    | some w => w
    | none => regLevel s.mbx.m[testChan] testChan
  BitVec.ofNat 34 (s.test.drStat.toNat * 2 ^ 32 + w.toNat)

/-- TEST_MBX_POST: operation 1. -/
def testMbxPost (w : Word) (s : State) : State :=
  testMbx (fun s => (none, postWord testChan (hostStamp s .test testChan) w s)) s

/-- TEST_MBX_POST. -/
def execTestMbxPost (w : Word) (s : State) : Outcome := .next (testMbxPost w s)

/-- TEST_MBX_TAKE: operation 2. -/
def testMbxTake (s : State) : State :=
  testMbx (fun s => let r := takeWord .test testChan s; (some r.1, r.2)) s

/-- TEST_MBX_TAKE. -/
def execTestMbxTake (s : State) : Outcome := .next (testMbxTake s)

/-- TEST_MBX_RESET: operation 3. -/
def testMbxReset (s : State) : State := testMbx (fun s => (none, resetChan .test testChan s)) s

/-- TEST_MBX_RESET. -/
def execTestMbxReset (s : State) : Outcome := .next (testMbxReset s)

/-! ### LOUPE_SET (R512, R513) -/

/-- LOUPE_SET: a reserved index with its enable set is refused. -/
def loupeSet (rq : Req) (s : State) : State :=
  let w := par rq 0
  let badA := fun en hi lo => bit w en && decide (44 < fld w hi lo)
  let badD := fun en hi lo => bit w en && decide (65 < fld w hi lo)
  commandOk 0xF001 rq [badAt [(badA 31 30 25 || badA 24 23 18 || badD 17 16 9 || badD 8 7 0, 0)]] (fun _ => [])
    (modTest fun t => { t with loupe := w }) s

/-- LOUPE_SET. -/
def execLoupeSet (rq : Req) (s : State) : Outcome := .next (loupeSet rq s)

/-- What a pin of the Loupe brings out: an off pin is high impedance; a digital level; a strobe at boundaries of a reference,
at every one or at those whose count is a multiple of 64; a strobe at releases of the Escapement; a recovered clock divided by
512; an analog node (R512). -/
inductive LoupeOut where
  | highZ
  | level (on : Bool)
  | boundary (ref : RefCode) (cycle : Bool)
  | release
  | clock (k : HLane)
  | node (i : Nat)
deriving DecidableEq, Repr

/-- The domain of a digital signal of the Loupe (R512; DEDUCED, notes/assumptions 154). -/
def loupeDom (i : Nat) : Dom :=
  if i < 8 || (58 ≤ i && i < 66) then .ld (Fin.ofNat 4 (i + if i < 8 then 0 else 2))
  else if 12 ≤ i && i < 16 then .cv (Fin.ofNat 4 i)
  else if 20 ≤ i && i < 52 then .ho (octet (Fin.ofNat 32 (i - 20)))
  else if i = 52 then .ctl
  else if i = 53 then .map
  else .aon

/-- The digital signal of an index (R512): low while its domain is not ON. -/
def loupeSignal (s : State) (i : Nat) : LoupeOut :=
  let p : LPort := Fin.ofNat 4 i
  if !isOn s (loupeDom i) then .level false
  else if i < 8 then .boundary (Fin.ofNat 8 i) false
  else if i < 12 then .level s.ports[p].front.light
  else if i < 16 then .level s.ports[p].front.locked
  else if i < 20 then .level (anyMute s p)
  else if i < 52 then .clock (Fin.ofNat 32 (i - 20))
  else if i = 52 then .release
  else if i = 53 then .level s.pool.short
  else if i < 58 then .level s.ports[(Fin.ofNat 4 (i - 54) : LPort)].front.drvEn
  else .boundary (Fin.ofNat 8 (i - 58)) true

/-- What TPD0 (false) or TPD1 (true) brings out (R512, R513). -/
def tpdPin (s : State) (second : Bool) : LoupeOut :=
  let w := s.test.loupe
  if second then (if bit w 8 then loupeSignal s (fld w 7 0) else .highZ)
  else if bit w 17 then loupeSignal s (fld w 16 9) else .highZ

/-- What TPA0 (false) or TPA1 (true) brings out (R512, R513). -/
def tpaPin (s : State) (second : Bool) : LoupeOut :=
  let w := s.test.loupe
  if second then (if bit w 24 then .node (fld w 23 18) else .highZ)
  else if bit w 31 then .node (fld w 30 25) else .highZ

/-! ### LOOPBACK_SET (R514) -/

/-- Lanes of a mask run at one rate. -/
def oneRate (s : State) (l : List HLane) : Bool :=
  l.all fun a => l.all fun b => fld (s.lanes[a]).w1 31 30 == fld (s.lanes[b]).w1 31 30

/-- Set or clear the bit of a port. -/
def portBit (v : BitVec 4) (p : LPort) (on : Bool) : BitVec 4 :=
  if on then v ||| BitVec.ofNat 4 (2 ^ p.val) else v &&& ~~~(BitVec.ofNat 4 (2 ^ p.val))

/-- State checks of LOOPBACK_SET when setting. -/
def loopbackStates (kind : Nat) (p : LPort) (l : List HLane) (s : State) : List (Bool × Answer) :=
  let st := s.ports[p].tr.state
  let good := match kind with
    | 1 => (st == .down || st == .muted) && s.ports[p].nlc.group == 0
    | 2 => !regen s p && st == .traffic
    | 3 => oneRate s l && l.all fun k => txEn s.lanes[k]
    | _ => oneRate s l
  [(!good, badState)]

/-- A loopback is set or cleared. A port whose LINE_DIGITAL loopback ends returns to ACQUIRE from above it, and without light
its signal is gone; one whose loopback begins has a signal to acquire. (DEDUCED, notes/assumptions 74) (DEDUCED, notes/assumptions 75) -/
def setLoop (kind : Nat) (on : Bool) (p : LPort) (l : List HLane) (s : State) : State :=
  match kind with
  | 1 =>
    let was := loopDigital s p
    let st := s.ports[p].tr.state
    let s := modMap (fun m => { m with loopDigital := portBit m.loopDigital p on }) s
    let s := if was && !on && (st == .train || st == .traffic || st == .holdover) then enterAcquire p s else s
    if was && !on && !lit s p && st != .down then lockLoss p (unalign p (modRx p Rx.drop s)) else maybeAcquire p s
  | 2 => modMap (fun m => { m with loopPayload := portBit m.loopPayload p on }) s
  | 3 => eachOf l (fun k => modLane k fun x => { x with near := on }) s
  | _ => eachOf l (fun k => modLane k fun x => { x with far := on }) s

/-- LOOPBACK_SET. -/
def loopbackSet (rq : Req) (s : State) : State :=
  let kind := pf rq 0 31 29
  let on := bit (par rq 0) 28
  let p : LPort := Fin.ofNat 4 (pf rq 0 27 26)
  let l := lanesIn (par rq 1)
  commandOk 0xF002 rq
    [badAt [(kind == 0 || decide (4 < kind) || pf rq 0 25 0 != 0, 0), (kind < 3 && par rq 1 != 0, 1)]]
    (fun s => if on then loopbackStates kind p l s else [])
    (fun s => refresh (setLoop kind on p l s)) s

/-- LOOPBACK_SET. -/
def execLoopbackSet (rq : Req) (s : State) : Outcome := .next (loopbackSet rq s)

end Sys2Proof.Machine
end

