-- ==== Sys2Proof/Machine/RunCmd.lean ====
section
/-! DEFINITION. Running a stored packet at its core: every command that the Dial (R298) or a blob (R489) may
hold; and DIAL_CONFIG, the one command of class 0x60 among them. -/

namespace Sys2Proof.Machine

/-- DIAL_CONFIG (R13, R313): its values apply, and what it reports waits for its boundary. -/
def dialConfig (rq : Req) (s : State) : State :=
  let w := par rq 0
  let log2 := fld w 30 27
  let max_ := fld w 25 11
  command 0x6004 rq [badAt [(decide (12 < log2) || decide (16384 < max_) || fld w 10 0 != 0, 0)]]
    (fun s => [(bit w 31 && log2 != s.dial.strideLog2 && dialPending s != 0, busy)])
    (fun s =>
      let s := modDial (fun d => { d with
        strideLog2 := if bit w 31 then log2 else d.strideLog2
        remoteMax := if bit w 26 then max_ else d.remoteMax }) s
      awaitReport .device 0x6004 rq (dialConfigAnswer rq) s) s

/-- DIAL_CONFIG. -/
def execDialConfig (rq : Req) (s : State) : Outcome := .next (dialConfig rq s)

/-- Run the command of an opcode at its core. The Dial and blobs hold no other opcodes. -/
def runOpcode (opcode : Nat) (rq : Req) (s : State) : State :=
  match opcode with
  | 0x0001 => sysIdent rq s
  | 0x0002 => sysStatus rq s
  | 0x0006 => outputsStart rq s
  | 0x0007 => outputsStop rq s
  | 0x0009 => permSet rq s
  | 0x000A => permGet rq s
  | 0x1001 => pwrProfileSet rq s
  | 0x1002 => pwrDomainSet rq s
  | 0x1003 => pwrRetainSet rq s
  | 0x1004 => pwrStatus rq s
  | 0x1005 => pwrRefusalsRead rq s
  | 0x1006 => pwrWakeReport rq s
  | 0x2001 => lineModeSet rq s
  | 0x2002 => lineModeGet rq s
  | 0x2003 => lineRxConfig rq s
  | 0x2004 => lineTxConfig rq s
  | 0x2005 => lineStatus rq s
  | 0x2006 => linePmRead rq s
  | 0x2007 => lineNlcSet rq s
  | 0x2008 => lineMute rq s
  | 0x2801 => trainStart rq s
  | 0x2802 => trainStatus rq s
  | 0x2803 => trainPolicySet rq s
  | 0x2804 => pathCommit rq s
  | 0x3001 => hostLaneConfig rq s
  | 0x3002 => hostTrain rq s
  | 0x3003 => hostStatus rq s
  | 0x3004 => hostPmRead rq s
  | 0x4001 => fecModeSet rq s
  | 0x4002 => fecPoolPolicy rq s
  | 0x4003 => fecStatus rq s
  | 0x4004 => fecPmRead rq s
  | 0x5001 => mapClientAdd rq s
  | 0x5002 => mapClientRemove rq s
  | 0x5003 => mapRegenPair rq s
  | 0x5004 => mapStatus rq s
  | 0x6004 => dialConfig rq s
  | 0x7001 => calRun rq s
  | 0x7002 => calPolicySet rq s
  | 0x7003 => calTableRead rq s
  | 0x7004 => calTableWrite rq s
  | 0x7005 => calStatus rq s
  | 0x8001 => monConfig rq s
  | 0x8002 => monCoefLoad rq s
  | 0x8003 => monRead rq s
  | 0x8004 => monUrgent rq s
  | 0x8005 => biasLoopSet rq s
  | 0x9001 => jrxConfig rq s
  | 0x9002 => jrxSend rq s
  | 0x9003 => jrxPeers rq s
  | 0x9004 => jrxStatus rq s
  | 0xA001 => faultLogRead rq s
  | 0xA002 => alarmMaskSet rq s
  | 0xA003 => alarmStatus rq s
  | 0xA004 => faultClear rq s
  | 0xF001 => loupeSet rq s
  | 0xF002 => loopbackSet rq s
  | 0xF003 => prbsSet rq s
  | _ => reply opcode rq { st := .badOpcode } s

end Sys2Proof.Machine
end

