-- ==== Sys2Proof/Machine/DialCmds.lean ====
section
/-! DEFINITION. The Dial's commands (R310 to R314), the staging of EXACT events (R300) and the release of due
events at a boundary (R301, R302). -/

namespace Sys2Proof.Machine

/-! ### DIAL_SCHEDULE (R295 to R299, R310) -/

/-- Host senders: the TWI, the MSPI and the test access (R370). (DEDUCED, notes/assumptions 49) -/
def isHost (st : Stamp) : Bool := st.cls != 2 && st.cls != 3

/-- A DIAL_SCHEDULE's parameter words 1 and 2 as a number. -/
def schedNum (ps : List Word) : Psfn := BitVec.ofNat 48 ((ps.getD 1 0).toNat * 65536 + fld (ps.getD 2 0) 31 16)

/-- Reference that a DIAL_SCHEDULE names. -/
def schedRef (ps : List Word) : RefCode := Fin.ofNat 8 (fld (ps.getD 0 0) 31 29)

/-- TARGET of a DIAL_SCHEDULE; with REL it counts from the reference's current value (R310). -/
def schedTarget (ps : List Word) (s : State) : Psfn :=
  if bit (ps.getD 0 0) 23 then refCount s (schedRef ps) + BitVec.ofNat 48 (ps.getD 1 0).toNat else schedNum ps

/-- The horizon H (R296). -/
def horizon (s : State) : Int := (262144 * 2 ^ s.dial.strideLog2 : Nat)

/-- Port of a client that an EXACT MAP_CLIENT_REMOVE names: in force, or else of the add with the latest target
before its own (R297). -/
def removePort (k : HLane) (target : Psfn) (s : State) : Option LPort :=
  match clientAt s k with
  | some c => some c.port
  | none =>
    let l := s.dial.evs.filter fun e => addWaits k e && decide (psfnDiff e.target target < 0)
    (l.foldl (fun (b : Option DialEv) e => match b with
      | none => some e
      | some x => if psfnDiff x.target e.target ≤ 0 then some e else b) none).map fun e => addPort e.params

/-- A MAP_REGEN_PAIR changes only the drop mask of the port of reference `r` (R297). -/
def regenOnly (ps : List Word) (r : RefCode) (s : State) : Bool :=
  let p := refPort r
  let now := fun (q : LPort) => if q.val % 2 = 0 then s.map.dropLo[pairOf q].toNat else s.map.dropHi[pairOf q].toNat
  isRx r && pairOf p == pairOf (pairLow ps) && regen s p == bit (ps.getD 0 0) 30 && newDrop ps (mate p) == now (mate p)

/-- The words of a line configuration that MASK selects lie among `is` (R297). -/
def maskWithin (ps : List Word) (is : List Nat) : Bool :=
  (List.range 8).all fun i => !bit (ps.getD 0 0) i || is.contains (i + 1)

/-- What R297 and R335 allow as an EXACT event. -/
def exactOk (op : Nat) (ps : List Word) (r : RefCode) (target : Psfn) (s : State) : Bool :=
  let w := ps.getD 0 0
  let n : LPort := Fin.ofNat 4 (fld w 31 30)
  match op with
  | 0x2003 => maskWithin ps [5, 6, 7] && r == rxRef n
  | 0x2004 => maskWithin ps [3, 6, 7] && r == txRef n
  | 0x2007 => fld w 29 27 == 3 && !bit w 26 && r == rxRef n
  | 0x5001 => r == txRef (addPort ps)
  | 0x5002 => !isRx r && removePort (removeLane ps) target s == some (refPort r)
  | 0x5003 => regenOnly ps r s
  | 0x7004 => refPort r == n
  | _ => false

/-- Scheduling of an opcode. -/
def schedOf (op : Nat) : Sched := ((catRow op).map (·.sched)).getD .no

/-- COMPL of a code. -/
def Compl.ofCode : Nat → Compl
  | 0 => .none | 1 => .origin | 2 => .m4 | _ => .m5

/-- The event that a DIAL_SCHEDULE enters. -/
def schedEvent (rq : Req) (s : State) : DialEv :=
  let w := par rq 0
  let pk := storedPkt rq.params
  { idx := 0, use := 0, target := schedTarget rq.params s, ref := schedRef rq.params, exact := bit w 28
    fallback := bit w 27, compl := Compl.ofCode (fld w 26 24), opcode := BitVec.ofNat 16 (pktOp pk)
    pktTag := BitVec.ofNat 8 (pktTag pk), params := pktParams pk, src := rq.src, stamp := rq.stamp, tag := rq.tag
    seq := 0 }

/-- The pool has no room for an event of a sender (R295). -/
def poolRefuses (st : Stamp) (s : State) : Bool :=
  let es := s.dial.evs
  poolFull s || (st.cls != 3 && decide (poolSize - 256 ≤ es.countP fun e => !e.internal)) ||
    (st.cls == 2 && decide (s.dial.remoteMax ≤ es.countP fun e => e.stamp.cls == 2))

/-- Channel on which a command arrived. -/
def srcOn : Src → Option Chan
  | .chan c => some c | .dial _ => none | .blob => none

/-- Step 1 of R310. -/
def schedFields (ps : List Word) : Bool × Answer :=
  let w := ps.getD 0 0
  let w2 := ps.getD 2 0
  badAt [(decide (3 < fld w 26 24) || fld w 22 0 != 0, 0), (fld w2 15 0 != 0 || (bit w 23 && fld w2 31 16 != 0), 2)]

/-- Step 5 of R310. -/
def schedClass (rq : Req) (s : State) : List (Bool × Answer) :=
  let e := schedEvent rq s
  let op := e.opcode.toNat
  [(schedOf op == .no, badParam 3),
   (e.exact && (e.fallback || schedOf op != .exact || !exactOk op e.params e.ref e.target s), badParam 0xFF),
   ((e.compl == .m4 || e.compl == .m5) && !isHost rq.stamp, badParam 0)]

/-- Steps 1 to 9 of R310. (DEDUCED, notes/assumptions 42) -/
def schedChecks (rq : Req) (s : State) : List (Bool × Answer) :=
  let ps := rq.params
  let pk := storedPkt ps
  let e := schedEvent rq s
  let op := e.opcode.toNat
  let d := psfnDiff e.target (refCount s e.ref)
  let perm := permission s op e.params (srcOn rq.src) rq.stamp
  [schedFields ps,
   (pk.length != pktCount pk + 2, { st := .badLength, detail := ps.length * 65536 + 0xFF00 }),
   (!pktCrc pk, { st := .badCrc }),
   ((catRow op).isNone, { st := .badOpcode })] ++ schedClass rq s ++
  [(perm.isSome, perm.getD busy),
   (refUnheld s e.ref, badState),
   (decide (d < if e.exact then 64 else 1), { st := .late }),
   (decide (horizon s < d), badParam 1)]

/-- The event that was entered last. -/
def lastEv (s : State) : Option DialEv := s.dial.evs.getLast?

/-- An event entered against an invalid reference is held, or falls back, as at the loss of its reference (R301,
R303, R304). (DEDUCED, notes/assumptions 41) -/
def enterSched (e : DialEv) (s : State) : State :=
  let s := dialCount 0 (enterEvent e s)
  if refValid s e.ref then s else loseEvs (fun x => (lastEv s).any fun y => y.idx == x.idx) e.ref s

/-- DIAL_SCHEDULE (R310). (DEDUCED, notes/assumptions 43) -/
def dialSchedule (rq : Req) (s : State) : State :=
  let e := schedEvent rq s
  match firstFail (schedChecks rq s ++ [((eventNeeds s e).any (inDown s), busy)]) with
  | some a => reply 0x6001 rq a s
  | none =>
    if poolRefuses rq.stamp s then reply 0x6001 rq { st := .resource } (dialCount 7 s)
    else
      let s := enterSched e s
      let id := ((lastEv s).map (·.id)).getD 0
      reply 0x6001 rq { st := .accepted, payload := [id, wd (psHi e.target), wd (psLo e.target * 65536)] } s

/-- DIAL_SCHEDULE. -/
def execDialSchedule (rq : Req) (s : State) : Outcome := .next (dialSchedule rq s)

/-! ### DIAL_CANCEL, DIAL_LIST, DIAL_TIME (R311, R312, R314) -/

/-- Cancel one event with reason CANCELLED; its staged shadow writes go with it (R311). -/
def cancelEvent (e : DialEv) (s : State) : State :=
  let s := dialCount 5 s
  if e.internal && e.kind != .stored then switchAborted e.kind (dropEvs (fun x => x.idx == e.idx) s)
  else abortEvent e 1 s

/-- Class and identity of two stamps agree (R311). -/
def sameSender (a b : Stamp) : Bool := a.cls == b.cls && a.ident == b.ident

/-- The events that a DIAL_CANCEL names. -/
def cancelSet (rq : Req) (s : State) : List DialEv :=
  let w := par rq 0
  s.dial.evs.filter fun e => e.waits && (match fld w 31 30 with
    | 0 => e.id == par rq 1
    | 1 => sameSender e.stamp rq.stamp
    | _ => e.ref.val == fld w 29 27)

/-- DIAL_CANCEL (R311). (DEDUCED, notes/assumptions 48) -/
def dialCancel (rq : Req) (s : State) : State :=
  let w := par rq 0
  let mode := fld w 31 30
  command 0x6002 rq [badAt [(mode == 3 || fld w 26 0 != 0, 0), (mode != 0 && par rq 1 != 0, 1)]]
    (fun s => [(mode == 0 && (cancelSet rq s).isEmpty, badState),
      ((mode == 2 || (mode == 0 && (cancelSet rq s).any fun e => !sameSender e.stamp rq.stamp)) && !isHost rq.stamp,
        notPermitted rq.stamp.cls.toNat 1)])
    (fun s =>
      let es := cancelSet rq s
      reply 0x6002 rq (okay [wd es.length]) (eachOf es cancelEvent s)) s

/-- DIAL_CANCEL. -/
def execDialCancel (rq : Req) (s : State) : Outcome := .next (dialCancel rq s)

/-- DIAL_LIST (R13, R312). -/
def dialList (rq : Req) (s : State) : State :=
  let max_ := pf rq 1 15 0
  report .device 0x6003 rq
    [badAt [(pf rq 0 31 24 != 0 || bulkBad (pf rq 0 23 0) (5 * max_), 0), (max_ == 0 || decide (4096 < max_), 1)]]
    (dialListAnswer rq) s

/-- DIAL_LIST. -/
def execDialList (rq : Req) (s : State) : Outcome := .next (dialList rq s)

/-- DIAL_TIME (R13, R314). -/
def dialTime (rq : Req) (s : State) : State :=
  report (.port (pport rq 0)) 0x6005 rq [badAt [(pf rq 0 29 0 != 0, 0)]] (dialTimeAnswer rq) s

/-- DIAL_TIME. -/
def execDialTime (rq : Req) (s : State) : Outcome := .next (dialTime rq s)

/-! ### Staging (R299, R300, R515) -/

/-- Words of bulk memory that a stored EXACT command reads when it is staged. -/
def stageData (e : DialEv) (s : State) : List Word :=
  match e.opcode.toNat with
  | 0x2004 => txData e.params s
  | 0x7004 => calWriteData e.params s
  | _ => []

/-- Parameter checks of a stored EXACT command. -/
def stageChecks (e : DialEv) (ws : List Word) (s : State) : List (Bool × Answer) :=
  let ps := e.params
  match e.opcode.toNat with
  | 0x2003 => rxChecks ps s
  | 0x2004 => txChecks ps ws
  | 0x2007 => nlcChecks ps ws s
  | 0x5001 => mapAddChecks ps
  | 0x5002 => [badAt [(fld (ps.getD 0 0) 26 0 != 0, 0)]]
  | 0x5003 => regenChecks ps
  | 0x7004 => calWriteChecks ps ws
  | _ => []

/-- State checks of a stored EXACT command. -/
def stageStates (e : DialEv) (ws : List Word) (s : State) : List (Bool × Answer) :=
  let ps := e.params
  match e.opcode.toNat with
  | 0x2007 => nlcStates ps s
  | 0x5001 => mapAddStates ps (psfnDiff e.target (refCount s e.ref)) s
  | 0x5002 => mapRemoveStates ps s
  | 0x5003 => regenStates ps s
  | 0x7004 => calWriteStates ps ws s
  | _ => []

/-- The checks that a stored packet meets before its parameters: its length, the device state and the lock (R341,
R355, R364), and its core. (DEDUCED, notes/assumptions 44) (DEDUCED, notes/assumptions 45) -/
def storedGate (e : DialEv) (s : State) : Option Answer :=
  let op := e.opcode.toNat
  if !wordsFit op e.params.length then some (badLength op e.params.length)
  else if !stateAllows s.sys.dev op e.params then some (badDevState s)
  else match locked s op e.params with
    | some a => some a
    | none => coreAnswer s (coreFor s op e.params)

/-- The second permission check of R299. -/
def storedRefused (e : DialEv) (s : State) : Bool :=
  (permission s e.opcode.toNat e.params (srcOn e.src) e.stamp).isSome

/-- A stored packet that is refused at its second check (R299): it does not execute. -/
def completeRefused (e : DialEv) (s : State) : State :=
  match permission s e.opcode.toNat e.params (srcOn e.src) e.stamp with
  | some a => completeWith e a.st 0 0 s
  | none => s

/-- Hand an EXACT event to its core (R300); `complete`: the core's staging is complete. -/
def stageEvent (e : DialEv) (complete : Bool) (s : State) : State :=
  let e := { e with atCount := refCount s e.ref, atRef := e.ref }
  if storedRefused e s then completeRefused e s
  else
    match storedGate e s with
    | some a => completeEvent e a s
    | none =>
      let ws := stageData e s
      match firstFail (stageChecks e ws s) with
      | some a => completeEvent e a s
      | none =>
        let ds := needsOf e.opcode.toNat e.params
        match ds.findSome? (domFail s) with
        | some a => completeEvent e a (tookFree s)
        | none =>
          let s := wakeNeeds ds s
          match firstFail (stageStates e ws s) with
          | some a => completeEvent e a s
          | none => modEv e.idx (fun x => { x with phase := .staged, stagingDone := complete, data := ws }) s

/-- DIAL_STAGE: an EXACT event within 64 superframes of its target is handed to its core; a second time, its
staging completes. -/
def dialStage (idx : Nat) (complete : Bool) (s : State) : State :=
  match s.dial.evs.find? (·.idx == idx) with
  | none => s
  | some e =>
    if !e.exact || e.kind != .stored || !coreTakes e s then s
    else if e.phase == .staged || (e.phase == .held && e.wasStaged) then
      modEv idx (fun x => { x with stagingDone := x.stagingDone || complete }) s
    else if e.phase == .pending && refValid s e.ref && decide (psfnDiff e.target (refCount s e.ref) ≤ 64) then
      stageEvent e complete s
    else s

/-- DIAL_STAGE. -/
def execDialStage (idx : Nat) (complete : Bool) (s : State) : Outcome := .next (dialStage idx complete s)

/-! ### Release (R299, R301, R302) -/

/-- An event that this boundary releases: it counts, and is marked LATE when its target is passed. -/
def markReleased (r : RefCode) (e : DialEv) (s : State) : State :=
  let n := refCount s r
  let late := e.late || (e.phase != .released && decide (psfnDiff e.target n < 0))
  let s := doIf (late && !e.deferred) (dialCount 2) (dialCount 1 s)
  if e.phase == .released then s
  else modEv e.idx (fun x => { x with phase := .released, late := late, atCount := n, atRef := r }) s

/-- An event beyond the 64th waits for the next boundary, DEFERRED and LATE. -/
def markDeferred (e : DialEv) (s : State) : State :=
  let s := doIf (!e.late) (dialCount 2) (dialCount 3 s)
  modEv e.idx (fun x => { x with deferred := true, late := true }) s

/-- A PROMPT event at its core (R298, R299). -/
def runPrompt (e : DialEv) (s : State) : State :=
  if storedRefused e s then completeRefused e s
  else
    match storedGate e s with
    | some a => completeEvent e a s
    | none =>
      runOpcode e.opcode.toNat { src := .dial e.idx, tag := e.pktTag, stamp := e.stamp, params := e.params } s

/-- What the release of an event does: an EXACT event, whose copies the boundary has exchanged, completes; a PROMPT event
goes to its core. -/
def releaseEvent (idx : Nat) (s : State) : State :=
  match s.dial.evs.find? (·.idx == idx) with
  | none => s
  | some e =>
    if e.kind != .stored then dropEvs (fun x => x.idx == idx) s
    else if e.exact then completeExact e (okFlags (if e.opcode == 0x2003 then (e.data.getD 0 0).toNat else 0)) s
    else runPrompt e s

/-- Events of a reference that wait for more releases at the present boundary than it has left (R301). -/
def beyondRoom (r : RefCode) (s : State) : List DialEv :=
  if refValid s r then (dueEvents r s).drop (64 - (exchanged r s).length) else []

/-- The events that DIAL_RELEASE releases, in order: those that the boundary has exchanged, and PROMPT events due at a
valid reference, 64 in all at most (R301). -/
def released (r : RefCode) (s : State) : List DialEv :=
  let ps := if refValid s r then ((dueEvents r s).take (64 - (exchanged r s).length)).filter (!·.exact) else []
  (exchanged r s ++ ps).foldr (insertRelease s) []

/-- DIAL_RELEASE: the events of a reference that are due at its boundary are released, 64 at most (R301). (DEDUCED, notes/assumptions 129) -/
def dialRelease (r : RefCode) (s : State) : State :=
  let es := released r s
  let s := eachOf (beyondRoom r s) markDeferred s
  eachOf (es.map (·.idx)) releaseEvent (eachOf es (markReleased r) s)

/-- DIAL_RELEASE. -/
def execDialRelease (r : RefCode) (s : State) : Outcome := .next (dialRelease r s)

end Sys2Proof.Machine
end

