-- ==== Sys2Proof/Machine/Blob.lean ====
section
/-! DEFINITION. Execution of configuration blobs (R362, R364, R490), and what passes when no command waits. -/

namespace Sys2Proof.Machine

/-- A blob's execution ends (R362, R490): READY, or HOLD after a packet that failed. (DEDUCED, notes/assumptions 54) -/
def endBlob (r : BlobRun) (s : State) : State :=
  let id := if r.failed.isSome then 0 else r.configId
  let s := modSys (fun y => { y with blobRun := none, configId := id, pending := if r.boot then y.pending else none }) s
  let stays : Bool := s.sys.dev == .fault
  let s := if stays then s
    else match r.failed with
      | none => moveDev .ready 0 s
      | some _ => moveDev .hold 5 s
  let s := doIf r.boot heldChanged s
  match r.rq, r.failed with
  | some rq, none => reply 0x0005 rq (okay []) s
  | some rq, some f => reply 0x0005 rq { st := .aborted, detail := f.1.toNat * 65536 + f.2 % 65536 } s
  | none, _ => s

/-- Execute one packet of a blob with sender class 3; steps 5 to 7 of R341 are skipped (R362). (DEDUCED, notes/assumptions 52) -/
def runPacket (ws : List Word) (s : State) : State :=
  let op := pktOp ws
  let rq : Req := { src := .blob, tag := BitVec.ofNat 8 (pktTag ws), stamp := coreStamp s 0, params := pktParams ws }
  let s := modSys (fun y => { y with blobRun := y.blobRun.map fun r => { r with begun := r.begun + 1 } }) s
  match coreAnswer s (coreFor s op rq.params) with
  | some a => reply op rq a s
  | none => runOpcode op rq s

/-- Execute the packets in order, each to completion: a packet that its core answers later suspends the blob. (DEDUCED, notes/assumptions 53) -/
def runBlob : Nat → State → State
  | 0, s => s
  | fuel + 1, s =>
    match s.sys.blobRun with
    | none => s
    | some r =>
      if r.failed.isSome then endBlob r s
      else if r.begun != r.index then s
      else
        match r.packets.drop r.index with
        | [] => endBlob r s
        | ws :: _ => runBlob fuel (runPacket ws s)

/-- Begin the execution of a blob. -/
def startBlob (r : BlobRun) (s : State) : State :=
  runBlob (r.packets.length + 1) (modSys (fun y => { y with blobRun := some r }) s)

/-- CONFIG_COMMIT (R362). (DEDUCED, notes/assumptions 51) -/
def configCommit (rq : Req) (s : State) : State :=
  command 0x0005 rq []
    (fun s => [(s.sys.dev != .hold && s.sys.dev != .ready, badDevState s), (s.sys.pending.isNone, badState),
      (s.sys.pending.any (·.configId != par rq 0), badParam 0), (s.sys.blobRun.isSome, busy)])
    (fun s =>
      match s.sys.pending with
      | none => s
      | some b => startBlob { packets := b.packets, configId := b.configId, rq := some rq } s) s

/-- CONFIG_COMMIT. -/
def execConfigCommit (rq : Req) (s : State) : Outcome := .next (configCommit rq s)

/-- BOOT_BLOB_DONE: SUP applies the blob of the flash (R488 to R490). -/
def bootBlobDone (flash : List Word) (s : State) : State :=
  let y := s.sys
  if y.dev != .boot || y.phase != 4 || y.resume.isSome || y.slot == 2 || y.blobRun.isSome then s
  else
    match blobCheck flash none with
    | .error e => heldChanged (moveDev .hold e (modSys (fun y => { y with configId := 0 }) s))
    | .ok ps => startBlob { packets := ps, configId := flash.getD 1 0, boot := true } s

/-- BOOT_BLOB_DONE. -/
def execBootBlobDone (flash : List Word) (s : State) : Outcome := .next (bootBlobDone flash s)

/-- With no command waiting a microsecond passes, and a blob that waited for a reply goes on (DESIGN CHOICE, notes/assumptions
5). -/
def tick (s : State) : State :=
  let s := modSys (fun y => { y with usec := y.usec + 1 }) s
  match s.sys.blobRun with
  | none => s
  | some r => runBlob (r.packets.length + 1) s

end Sys2Proof.Machine
end

