-- ==== Sys2Proof/Machine/Dispatch.lean ====
section
/-! DEFINITION. What each command does: one arm per command, each one direct call of its meaning. -/

namespace Sys2Proof.Machine

/-- The effect of a command on everything but the queue. -/
def exec (i : Instr) (s : State) : Host.Outcome State Fault Refusal :=
  match i with
  | .sysIdent rq => Sys2Proof.Machine.execSysIdent rq s
  | .sysStatus rq => Sys2Proof.Machine.execSysStatus rq s
  | .sysReset rq => Sys2Proof.Machine.execSysReset rq s
  | .configLoad rq => Sys2Proof.Machine.execConfigLoad rq s
  | .configCommit rq => Sys2Proof.Machine.execConfigCommit rq s
  | .outputsStart rq => Sys2Proof.Machine.execOutputsStart rq s
  | .outputsStop rq => Sys2Proof.Machine.execOutputsStop rq s
  | .idAttest rq => Sys2Proof.Machine.execIdAttest rq s
  | .permSet rq => Sys2Proof.Machine.execPermSet rq s
  | .permGet rq => Sys2Proof.Machine.execPermGet rq s
  | .pwrProfileSet rq => Sys2Proof.Machine.execPwrProfileSet rq s
  | .pwrDomainSet rq => Sys2Proof.Machine.execPwrDomainSet rq s
  | .pwrRetainSet rq => Sys2Proof.Machine.execPwrRetainSet rq s
  | .pwrStatus rq => Sys2Proof.Machine.execPwrStatus rq s
  | .pwrRefusalsRead rq => Sys2Proof.Machine.execPwrRefusalsRead rq s
  | .pwrWakeReport rq => Sys2Proof.Machine.execPwrWakeReport rq s
  | .lineModeSet rq => Sys2Proof.Machine.execLineModeSet rq s
  | .lineModeGet rq => Sys2Proof.Machine.execLineModeGet rq s
  | .lineRxConfig rq => Sys2Proof.Machine.execLineRxConfig rq s
  | .lineTxConfig rq => Sys2Proof.Machine.execLineTxConfig rq s
  | .lineStatus rq => Sys2Proof.Machine.execLineStatus rq s
  | .linePmRead rq => Sys2Proof.Machine.execLinePmRead rq s
  | .lineNlcSet rq => Sys2Proof.Machine.execLineNlcSet rq s
  | .lineMute rq => Sys2Proof.Machine.execLineMute rq s
  | .trainStart rq => Sys2Proof.Machine.execTrainStart rq s
  | .trainStatus rq => Sys2Proof.Machine.execTrainStatus rq s
  | .trainPolicySet rq => Sys2Proof.Machine.execTrainPolicySet rq s
  | .pathCommit rq => Sys2Proof.Machine.execPathCommit rq s
  | .hostLaneConfig rq => Sys2Proof.Machine.execHostLaneConfig rq s
  | .hostTrain rq => Sys2Proof.Machine.execHostTrain rq s
  | .hostStatus rq => Sys2Proof.Machine.execHostStatus rq s
  | .hostPmRead rq => Sys2Proof.Machine.execHostPmRead rq s
  | .fecModeSet rq => Sys2Proof.Machine.execFecModeSet rq s
  | .fecPoolPolicy rq => Sys2Proof.Machine.execFecPoolPolicy rq s
  | .fecStatus rq => Sys2Proof.Machine.execFecStatus rq s
  | .fecPmRead rq => Sys2Proof.Machine.execFecPmRead rq s
  | .mapClientAdd rq => Sys2Proof.Machine.execMapClientAdd rq s
  | .mapClientRemove rq => Sys2Proof.Machine.execMapClientRemove rq s
  | .mapRegenPair rq => Sys2Proof.Machine.execMapRegenPair rq s
  | .mapStatus rq => Sys2Proof.Machine.execMapStatus rq s
  | .dialSchedule rq => Sys2Proof.Machine.execDialSchedule rq s
  | .dialCancel rq => Sys2Proof.Machine.execDialCancel rq s
  | .dialList rq => Sys2Proof.Machine.execDialList rq s
  | .dialConfig rq => Sys2Proof.Machine.execDialConfig rq s
  | .dialTime rq => Sys2Proof.Machine.execDialTime rq s
  | .calRun rq => Sys2Proof.Machine.execCalRun rq s
  | .calPolicySet rq => Sys2Proof.Machine.execCalPolicySet rq s
  | .calTableRead rq => Sys2Proof.Machine.execCalTableRead rq s
  | .calTableWrite rq => Sys2Proof.Machine.execCalTableWrite rq s
  | .calStatus rq => Sys2Proof.Machine.execCalStatus rq s
  | .monConfig rq => Sys2Proof.Machine.execMonConfig rq s
  | .monCoefLoad rq => Sys2Proof.Machine.execMonCoefLoad rq s
  | .monRead rq => Sys2Proof.Machine.execMonRead rq s
  | .monUrgent rq => Sys2Proof.Machine.execMonUrgent rq s
  | .biasLoopSet rq => Sys2Proof.Machine.execBiasLoopSet rq s
  | .jrxConfig rq => Sys2Proof.Machine.execJrxConfig rq s
  | .jrxSend rq => Sys2Proof.Machine.execJrxSend rq s
  | .jrxPeers rq => Sys2Proof.Machine.execJrxPeers rq s
  | .jrxStatus rq => Sys2Proof.Machine.execJrxStatus rq s
  | .faultLogRead rq => Sys2Proof.Machine.execFaultLogRead rq s
  | .alarmMaskSet rq => Sys2Proof.Machine.execAlarmMaskSet rq s
  | .alarmStatus rq => Sys2Proof.Machine.execAlarmStatus rq s
  | .faultClear rq => Sys2Proof.Machine.execFaultClear rq s
  | .loupeSet rq => Sys2Proof.Machine.execLoupeSet rq s
  | .loopbackSet rq => Sys2Proof.Machine.execLoopbackSet rq s
  | .prbsSet rq => Sys2Proof.Machine.execPrbsSet rq s
  | .mbxPost who n w => Sys2Proof.Machine.execMbxPost who n w s
  | .mbxTake who n => Sys2Proof.Machine.execMbxTake who n s
  | .mbxCtrlReset who n w => Sys2Proof.Machine.execMbxCtrlReset who n w s
  | .lpsStatusRead who p => Sys2Proof.Machine.execLpsStatusRead who p s
  | .monResLoRead who c => Sys2Proof.Machine.execMonResLoRead who c s
  | .counterLowRead who addr value => Sys2Proof.Machine.execCounterLowRead who addr value s
  | .registerWrite who addr w => Sys2Proof.Machine.execRegisterWrite who addr w s
  | .dlStart who => Sys2Proof.Machine.execDlStart who s
  | .dlChunk who len => Sys2Proof.Machine.execDlChunk who len s
  | .dlLast who len => Sys2Proof.Machine.execDlLast who len s
  | .dlPartCopied => Sys2Proof.Machine.execDlPartCopied s
  | .ptwiWrite who w => Sys2Proof.Machine.execPtwiWrite who w s
  | .ptwiRead who w => Sys2Proof.Machine.execPtwiRead who w s
  | .ptwiWriteRead who w => Sys2Proof.Machine.execPtwiWriteRead who w s
  | .ptwiRecover who w => Sys2Proof.Machine.execPtwiRecover who w s
  | .ptwiDone how done data => Sys2Proof.Machine.execPtwiDone how done data s
  | .ptwiBusBusy => Sys2Proof.Machine.execPtwiBusBusy s
  | .ptwiStretchTo done => Sys2Proof.Machine.execPtwiStretchTo done s
  | .bspiFlashToBulk who w => Sys2Proof.Machine.execBspiFlashToBulk who w s
  | .bspiBulkToFlash who w => Sys2Proof.Machine.execBspiBulkToFlash who w s
  | .bspiDone data => Sys2Proof.Machine.execBspiDone data s
  | .twiAbort insideWord => Sys2Proof.Machine.execTwiAbort insideWord s
  | .twiStretchTo => Sys2Proof.Machine.execTwiStretchTo s
  | .twiSdaTo => Sys2Proof.Machine.execTwiSdaTo s
  | .twiDeepNack => Sys2Proof.Machine.execTwiDeepNack s
  | .twiDeepWindowEnd => Sys2Proof.Machine.execTwiDeepWindowEnd s
  | .mspiBadCmd => Sys2Proof.Machine.execMspiBadCmd s
  | .mspiFrameAbort => Sys2Proof.Machine.execMspiFrameAbort s
  | .mspiDeepIgnore => Sys2Proof.Machine.execMspiDeepIgnore s
  | .mspiDeepWindowEnd => Sys2Proof.Machine.execMspiDeepWindowEnd s
  | .accessWakeComplete d => Sys2Proof.Machine.execAccessWakeComplete d s
  | .powerOnReset assert => Sys2Proof.Machine.execPowerOnReset assert s
  | .resetN lowNs midActs => Sys2Proof.Machine.execResetN lowNs midActs s
  | .resetRelease boot addr => Sys2Proof.Machine.execResetRelease boot addr s
  | .flashSlotReadDone header bodyWords => Sys2Proof.Machine.execFlashSlotReadDone header bodyWords s
  | .imageVerifyDone keyOk sigOk digest => Sys2Proof.Machine.execImageVerifyDone keyOk sigOk digest s
  | .bootBlobDone flash => Sys2Proof.Machine.execBootBlobDone flash s
  | .sysResetDelayExpiry => Sys2Proof.Machine.execSysResetDelayExpiry s
  | .coreRestartDone c => Sys2Proof.Machine.execCoreRestartDone c s
  | .crownPacketTake c => Sys2Proof.Machine.execCrownPacketTake c s
  | .crownWordTimeout c => Sys2Proof.Machine.execCrownWordTimeout c s
  | .crownReplyTimeout c => Sys2Proof.Machine.execCrownReplyTimeout c s
  | .queueSpacePost c => Sys2Proof.Machine.execQueueSpacePost c s
  | .hostQueueDrop n => Sys2Proof.Machine.execHostQueueDrop n s
  | .internalQueueDrop ix => Sys2Proof.Machine.execInternalQueueDrop ix s
  | .muteNFall lowNs midActs => Sys2Proof.Machine.execMuteNFall lowNs midActs s
  | .muteNHighTimer => Sys2Proof.Machine.execMuteNHighTimer s
  | .txSuperframeBoundary p o => Sys2Proof.Machine.execTxSuperframeBoundary p o s
  | .rxSuperframeBoundary p o => Sys2Proof.Machine.execRxSuperframeBoundary p o s
  | .sfohReceive p o => Sys2Proof.Machine.execSfohReceive p o s
  | .formatMismatch p => Sys2Proof.Machine.execFormatMismatch p s
  | .sfAlignment p => Sys2Proof.Machine.execSfAlignment p s
  | .sfAlignLoss p => Sys2Proof.Machine.execSfAlignLoss p s
  | .psfnLock p => Sys2Proof.Machine.execPsfnLock p s
  | .psfnLockLoss p => Sys2Proof.Machine.execPsfnLockLoss p s
  | .psfnJump p => Sys2Proof.Machine.execPsfnJump p s
  | .dialStage idx complete => Sys2Proof.Machine.execDialStage idx complete s
  | .dialRelease ref => Sys2Proof.Machine.execDialRelease ref s
  | .forwardingStart m k => Sys2Proof.Machine.execForwardingStart m k s
  | .lightDetectAssert p => Sys2Proof.Machine.execLightDetectAssert p s
  | .lightDetectDeassert p => Sys2Proof.Machine.execLightDetectDeassert p s
  | .acquisitionStart p => Sys2Proof.Machine.execAcquisitionStart p s
  | .acqFrequencyDone p offsetMHz => Sys2Proof.Machine.execAcqFrequencyDone p offsetMHz s
  | .acqCdDone p found => Sys2Proof.Machine.execAcqCdDone p found s
  | .acqBlindDone p => Sys2Proof.Machine.execAcqBlindDone p s
  | .frameAlignment p swapped conj => Sys2Proof.Machine.execFrameAlignment p swapped conj s
  | .frameAlignmentLoss p => Sys2Proof.Machine.execFrameAlignmentLoss p s
  | .acqTimeout p => Sys2Proof.Machine.execAcqTimeout p s
  | .carrierLockLoss p => Sys2Proof.Machine.execCarrierLockLoss p s
  | .eqReconverge p erased => Sys2Proof.Machine.execEqReconverge p erased s
  | .reconvergeFail p erased => Sys2Proof.Machine.execReconvergeFail p erased s
  | .eqSpan p => Sys2Proof.Machine.execEqSpan p s
  | .eqSpanClear p => Sys2Proof.Machine.execEqSpanClear p s
  | .adcLevelLow p lane raised => Sys2Proof.Machine.execAdcLevelLow p lane raised s
  | .adcLevelHigh p lane raised => Sys2Proof.Machine.execAdcLevelHigh p lane raised s
  | .synthLock p => Sys2Proof.Machine.execSynthLock p s
  | .synthUnlock p => Sys2Proof.Machine.execSynthUnlock p s
  | .synthRange p => Sys2Proof.Machine.execSynthRange p s
  | .synthFail p => Sys2Proof.Machine.execSynthFail p s
  | .drvEnFall p => Sys2Proof.Machine.execDrvEnFall p s
  | .tDrvExpiry p => Sys2Proof.Machine.execTDrvExpiry p s
  | .nlcAlignDone p member delay => Sys2Proof.Machine.execNlcAlignDone p member delay s
  | .nlcMemberFadeIn p member => Sys2Proof.Machine.execNlcMemberFadeIn p member s
  | .nlcFadeDone p transmit => Sys2Proof.Machine.execNlcFadeDone p transmit s
  | .tuneDwellEnd p meanSnr => Sys2Proof.Machine.execTuneDwellEnd p meanSnr s
  | .balanceCycle => Sys2Proof.Machine.execBalanceCycle s
  | .fecStarved => Sys2Proof.Machine.execFecStarved s
  | .fecStarvedClear => Sys2Proof.Machine.execFecStarvedClear s
  | .codewordDispatch => Sys2Proof.Machine.execCodewordDispatch s
  | .engineComplete e o => Sys2Proof.Machine.execEngineComplete e o s
  | .decodeDeadline p unsatisfied => Sys2Proof.Machine.execDecodeDeadline p unsatisfied s
  | .engineThrottle e => Sys2Proof.Machine.execEngineThrottle e s
  | .engineSpeedRestore e => Sys2Proof.Machine.execEngineSpeedRestore e s
  | .watchdog e => Sys2Proof.Machine.execWatchdog e s
  | .katRun e passed => Sys2Proof.Machine.execKatRun e passed s
  | .scrubPass found banks => Sys2Proof.Machine.execScrubPass found banks s
  | .trainAcquireDone p => Sys2Proof.Machine.execTrainAcquireDone p s
  | .probeDone p => Sys2Proof.Machine.execProbeDone p s
  | .trainPhaseTimeout p => Sys2Proof.Machine.execTrainPhaseTimeout p s
  | .retryHoldExpiry p => Sys2Proof.Machine.execRetryHoldExpiry p s
  | .farRestart p => Sys2Proof.Machine.execFarRestart p s
  | .commitConfirmCheck p => Sys2Proof.Machine.execCommitConfirmCheck p s
  | .commitPassCheck p => Sys2Proof.Machine.execCommitPassCheck p s
  | .commitRetry p => Sys2Proof.Machine.execCommitRetry p s
  | .verifyDone p margin => Sys2Proof.Machine.execVerifyDone p margin s
  | .trackReportTimer p => Sys2Proof.Machine.execTrackReportTimer p s
  | .qMarginRefresh p => Sys2Proof.Machine.execQMarginRefresh p s
  | .degradeTimer p => Sys2Proof.Machine.execDegradeTimer p s
  | .spanAlarmClear p => Sys2Proof.Machine.execSpanAlarmClear p s
  | .holdTimeExpiry p => Sys2Proof.Machine.execHoldTimeExpiry p s
  | .holdoverFormatAlternate p => Sys2Proof.Machine.execHoldoverFormatAlternate p s
  | .autoRetune p => Sys2Proof.Machine.execAutoRetune p s
  | .pathCommitTimeout p => Sys2Proof.Machine.execPathCommitTimeout p s
  | .jrxRequestPost j => Sys2Proof.Machine.execJrxRequestPost j s
  | .jrxMbxDrop j => Sys2Proof.Machine.execJrxMbxDrop j s
  | .jrxSendTimeout dest ch => Sys2Proof.Machine.execJrxSendTimeout dest ch s
  | .helloTimer p => Sys2Proof.Machine.execHelloTimer p s
  | .routeTimer => Sys2Proof.Machine.execRouteTimer s
  | .routeChangeSend => Sys2Proof.Machine.execRouteChangeSend s
  | .routeExpiry node => Sys2Proof.Machine.execRouteExpiry node s
  | .hostLos k => Sys2Proof.Machine.execHostLos k s
  | .hostLosClear k => Sys2Proof.Machine.execHostLosClear k s
  | .hostCdr k => Sys2Proof.Machine.execHostCdr k s
  | .hostCdrClear k => Sys2Proof.Machine.execHostCdrClear k s
  | .hostAlign k aligned => Sys2Proof.Machine.execHostAlign k aligned s
  | .hostTrainingFrame k frame partnerReady => Sys2Proof.Machine.execHostTrainingFrame k frame partnerReady s
  | .hostReceiverReady k => Sys2Proof.Machine.execHostReceiverReady k s
  | .hostTrainFail k => Sys2Proof.Machine.execHostTrainFail k s
  | .hostTrainRetry k => Sys2Proof.Machine.execHostTrainRetry k s
  | .hostFecDeg k raised => Sys2Proof.Machine.execHostFecDeg k raised s
  | .egressBufferStart k => Sys2Proof.Machine.execEgressBufferStart k s
  | .egressSlip k => Sys2Proof.Machine.execEgressSlip k s
  | .hostWakePattern k => Sys2Proof.Machine.execHostWakePattern k s
  | .lightWake p => Sys2Proof.Machine.execLightWake p s
  | .keepAliveKeying p => Sys2Proof.Machine.execKeepAliveKeying p s
  | .keepAliveDetect p => Sys2Proof.Machine.execKeepAliveDetect p s
  | .bankCheckDone failed => Sys2Proof.Machine.execBankCheckDone failed s
  | .domainWakeComplete d => Sys2Proof.Machine.execDomainWakeComplete d s
  | .wakeDone => Sys2Proof.Machine.execWakeDone s
  | .powerAnswersReceived => Sys2Proof.Machine.execPowerAnswersReceived s
  | .noAnswer who => Sys2Proof.Machine.execNoAnswer who s
  | .powerTransitionComplete => Sys2Proof.Machine.execPowerTransitionComplete s
  | .monSlotEnd c code ovr => Sys2Proof.Machine.execMonSlotEnd c code ovr s
  | .monUrgentDone code ovr => Sys2Proof.Machine.execMonUrgentDone code ovr s
  | .refColdEnd => Sys2Proof.Machine.execRefColdEnd s
  | .biasGraceExpiry k => Sys2Proof.Machine.execBiasGraceExpiry k s
  | .calTargetUpdate p readings => Sys2Proof.Machine.execCalTargetUpdate p readings s
  | .calRunEnd p foreground first second => Sys2Proof.Machine.execCalRunEnd p foreground first second s
  | .calRetry p => Sys2Proof.Machine.execCalRetry p s
  | .coreWatchdog c => Sys2Proof.Machine.execCoreWatchdog c s
  | .flowStall u index => Sys2Proof.Machine.execFlowStall u index s
  | .tempCrit sensor => Sys2Proof.Machine.execTempCrit sensor s
  | .supply channel => Sys2Proof.Machine.execSupply channel s
  | .faultHandle => Sys2Proof.Machine.execFaultHandle s
  | .faultOverflowTakeup => Sys2Proof.Machine.execFaultOverflowTakeup s
  | .recoveryActionDone u => Sys2Proof.Machine.execRecoveryActionDone u s
  | .recoveryQuietExpiry u => Sys2Proof.Machine.execRecoveryQuietExpiry u s
  | .alarmDefaultClear key bit => Sys2Proof.Machine.execAlarmDefaultClear key bit s
  | .extest => Sys2Proof.Machine.execExtest s
  | .clamp => Sys2Proof.Machine.execClamp s
  | .highz => Sys2Proof.Machine.execHighz s
  | .extestPulse => Sys2Proof.Machine.execExtestPulse s
  | .extestTrain => Sys2Proof.Machine.execExtestTrain s
  | .bypass => Sys2Proof.Machine.execBypass s
  | .idcode => Sys2Proof.Machine.execIdcode s
  | .samplePreload drvEn cells => Sys2Proof.Machine.execSamplePreload drvEn cells s
  | .testLogicReset => Sys2Proof.Machine.execTestLogicReset s
  | .testMbxPost w => Sys2Proof.Machine.execTestMbxPost w s
  | .testMbxTake => Sys2Proof.Machine.execTestMbxTake s
  | .testMbxReset => Sys2Proof.Machine.execTestMbxReset s
  | .muteNRise => Sys2Proof.Machine.execMuteNRise s
  | .sampleClockChangeIntervalEnd p => Sys2Proof.Machine.execSampleClockChangeIntervalEnd p s
  | .knownAnswerTestDone e passed => Sys2Proof.Machine.execKnownAnswerTestDone e passed s
  | .prbsLock k locked => Sys2Proof.Machine.execPrbsLock k locked s
  | .pilotModeEnd p erased => Sys2Proof.Machine.execPilotModeEnd p erased s
  | .registerRead who addr => Sys2Proof.Machine.execRegisterRead who addr s

end Sys2Proof.Machine
end

