-- ==== Sys2Proof/Machine/Step.lean ====
section
/-! DEFINITION. One step: the command at the front of the queue is carried out; with none waiting, a
microsecond passes (DESIGN CHOICE, notes/assumptions 5). -/

namespace Sys2Proof

/-- One step of the block. -/
def Machine.step (s : Machine.State) :
    Host.Outcome Machine.State Machine.Fault Machine.Refusal :=
  match s.pending with
  | [] => .next (Machine.tick s)
  | i :: rest => Machine.exec i { s with pending := rest }

/-- `s` with the command that a table word spells put at the front of its queue. The table gives no
command any bits, so no word spells one. -/
def Machine.State.withFetchWord (s : Machine.State) (nbits w : Nat) : Machine.State :=
  match decodeTableWord nbits w with
  | some i => { s with pending := i :: s.pending }
  | none => s

end Sys2Proof
end

