-- ==== Sys2Proof/Safety.lean ====
section
/-! DEFINITION. What every reachable state of the block keeps. -/

namespace Sys2Proof.Machine

/-- Bulk memory is in its canonical form, so that equal contents are equal lists. -/
def Safe (s : State) : Prop := Memory.wf s.bulk = true

end Sys2Proof.Machine
end

