-- ==== Sys2Proof/Certificates/Slice0/Obligations.lean ====
section
/-! DEFINITION. The statements to be proved about the model. `Runs c s t` says that the command completes with the
next state `t`; the words before each statement name the rules of the specification that it rests on. -/

open Sys2Proof Sys2Proof.Machine

/-- The command `c` completes in state `s` with next state `t`. -/
def Claims.Runs (c : Instr) (s t : State) : Prop := exec c s = .next t

/-- Every domain that a Crown command needs is ON, and none is on its way to a lower state (R421, R422). -/
abbrev Claims.Awake (opcode : Nat) (rq : Req) (s : State) : Prop :=
  ∀ d ∈ needsOf opcode rq.params, isOn s d = true ∧ inDown s d = false

/-- The parts of the state. -/
inductive Claims.Part where
  | sys | power | mbx | twi | ports | pool | lanes | map | dial | mon | alarms | faults | jrx | test | pins | bulk
  | free | pending
deriving DecidableEq, Repr

/-- A part holds the same value in two states. -/
def Claims.Same (x : Claims.Part) (s t : State) : Prop :=
  match x with
  | .sys => t.sys = s.sys | .power => t.power = s.power | .mbx => t.mbx = s.mbx | .twi => t.twi = s.twi
  | .ports => t.ports = s.ports | .pool => t.pool = s.pool | .lanes => t.lanes = s.lanes | .map => t.map = s.map
  | .dial => t.dial = s.dial | .mon => t.mon = s.mon | .alarms => t.alarms = s.alarms | .faults => t.faults = s.faults
  | .jrx => t.jrx = s.jrx | .test => t.test = s.test | .pins => t.pins = s.pins | .bulk => t.bulk = s.bulk
  | .free => t.free = s.free | .pending => t.pending = s.pending

/-- Nothing but the listed parts differs. -/
def Claims.Only (xs : List Claims.Part) (s t : State) : Prop := ∀ x, x ∉ xs → Claims.Same x s t

/-- What a report does whose checks have passed (R13, R349): its snapshot is taken at the first boundary of the port that
it names, of that port's transmitter, or of the port that serves the device, and it waits for that boundary. Where LDn of
that port is not ON, so that no boundary comes, it answers at once, which is the model's choice (log entry 130): the next
state is then `answer`. -/
def Claims.Reports (c : Instr) (place : ReportAt) (opcode : Nat) (rq : Req) (answer s : State) : Prop :=
  (isOn s (.ld (refPort (reportRef s place))) = false → Claims.Runs c s answer) ∧
  (isOn s (.ld (refPort (reportRef s place))) = true → Claims.Runs c s (taken rq (modSys (fun y => { y with
    reports := y.reports ++ [{ at_ := place, opcode := opcode, rq := rq }] }) s)))

/-- A step takes the command at the front of the queue and carries it out on the state with the queue's rest. -/
def Obligations.StepRunsFront : Prop :=
  ∀ (c : Instr) (rest : List Instr) (s : State),
    step { s with pending := c :: rest } = exec c { s with pending := rest } ∧
    (s.pending = [] → step { s with pending := [c] } = exec c s)

/-- With no command waiting a microsecond passes, and a blob whose packet has been answered goes on; the queue stays empty.
The meaning of a step without a command is the model's choice (notes/assumptions 5). -/
def Obligations.StepOnEmptyQueue : Prop :=
  ∀ (s : State), s.pending = [] →
    (s.sys.blobRun = none → step s = .next { s with sys := { s.sys with usec := s.sys.usec + 1 } }) ∧
    ∃ t, step s = .next t ∧ t.pending = []

/-- Every command of the table completes in every state, whatever its operands, and none changes the queue of waiting
commands: nothing faults and nothing is refused (R341, R346: what a command may not do is answered by a status). -/
def Obligations.EveryCommandAnswers : Prop := ∀ (c : Instr) (s : State), ∃ t, exec c s = .next t ∧ t.pending = s.pending

/-- The parts of the state that a command may change. -/
def Claims.touches : Instr → List Claims.Part
  | .sysIdent _ | .sysStatus _ | .sysReset _ | .configLoad _ | .outputsStart _ | .outputsStop _ | .permSet _
  | .permGet _ | .pwrProfileSet _ | .pwrDomainSet _ | .pwrRetainSet _ | .pwrStatus _ | .pwrWakeReport _
  | .lineModeSet _ | .lineModeGet _ | .lineRxConfig _ | .lineTxConfig _ | .lineNlcSet _ | .lineMute _
  | .trainStart _ | .trainStatus _ | .trainPolicySet _ | .pathCommit _ | .hostLaneConfig _ | .hostTrain _
  | .hostStatus _ | .fecModeSet _ | .fecPoolPolicy _ | .fecStatus _ | .mapClientAdd _ | .mapClientRemove _
  | .mapRegenPair _ | .mapStatus _ | .dialCancel _ | .dialConfig _ | .dialTime _ | .calRun _ | .calPolicySet _
  | .calTableWrite _ | .calStatus _ | .monConfig _ | .monCoefLoad _ | .monRead _ | .monUrgent _
  | .biasLoopSet _ | .jrxConfig _ | .jrxSend _ | .jrxStatus _ | .alarmMaskSet _ | .alarmStatus _
  | .faultClear _ | .loopbackSet _ | .prbsSet _ =>
    [.sys, .power, .mbx, .ports, .pool, .lanes, .map, .dial, .mon, .alarms, .faults, .jrx, .free]
  | .configCommit _ | .bootBlobDone _ | .dialRelease _ =>
    [.sys, .power, .mbx, .ports, .pool, .lanes, .map, .dial, .mon, .alarms, .faults, .jrx, .test, .bulk, .free]
  | .idAttest _ | .pwrRefusalsRead _ | .lineStatus _ | .linePmRead _ | .hostPmRead _ | .fecPmRead _
  | .dialList _ | .calTableRead _ | .jrxPeers _ | .faultLogRead _ | .dialStage _ _ | .domainWakeComplete _
  | .recoveryActionDone _ =>
    [.sys, .power, .mbx, .ports, .pool, .lanes, .map, .dial, .mon, .alarms, .faults, .jrx, .bulk, .free]
  | .dialSchedule _ =>
    [.sys, .mbx, .dial, .jrx, .free]
  | .loupeSet _ =>
    [.sys, .power, .mbx, .ports, .pool, .lanes, .map, .dial, .mon, .alarms, .faults, .jrx, .test, .free]
  | .mbxPost _ _ _ | .lpsStatusRead _ _ | .monResLoRead _ _ | .registerRead _ _ =>
    [.power, .mbx, .twi]
  | .mbxTake _ _ | .mbxCtrlReset _ _ _ =>
    [.mbx, .twi]
  | .counterLowRead _ _ _ | .ptwiDone _ _ _ | .ptwiBusBusy | .ptwiStretchTo _ | .twiAbort _ | .twiStretchTo
  | .twiSdaTo | .twiDeepWindowEnd | .mspiBadCmd | .mspiFrameAbort | .mspiDeepWindowEnd =>
    [.twi]
  | .registerWrite _ _ _ | .ptwiWrite _ _ | .ptwiRead _ _ | .ptwiWriteRead _ _ | .ptwiRecover _ _
  | .bspiFlashToBulk _ _ | .bspiBulkToFlash _ _ =>
    [.sys, .power, .mbx, .twi, .bulk]
  | .dlStart _ | .dlChunk _ _ | .dlLast _ _ =>
    [.sys, .twi]
  | .dlPartCopied | .resetRelease _ _ | .flashSlotReadDone _ _ =>
    [.sys]
  | .bspiDone _ =>
    [.twi, .bulk]
  | .twiDeepNack | .mspiDeepIgnore =>
    [.power, .twi, .ports]
  | .accessWakeComplete _ | .wakeDone | .powerTransitionComplete =>
    [.sys, .power, .mbx, .twi, .ports, .pool, .lanes, .map, .dial, .mon, .alarms, .faults, .jrx, .bulk, .free]
  | .powerOnReset _ | .resetN _ _ | .sysResetDelayExpiry | .crownReplyTimeout _ | .synthFail _
  | .coreWatchdog _ | .flowStall _ _ | .tempCrit _ | .supply _ | .extest | .clamp | .highz | .extestPulse
  | .extestTrain =>
    [.sys, .power, .mbx, .twi, .ports, .pool, .lanes, .map, .dial, .mon, .alarms, .faults, .jrx, .test, .pins, .bulk]
  | .imageVerifyDone _ _ _ =>
    [.sys, .mbx, .ports, .pool, .map, .dial, .alarms, .jrx]
  | .coreRestartDone _ | .internalQueueDrop _ | .jrxSendTimeout _ _ =>
    [.sys, .mbx, .dial, .jrx]
  | .crownPacketTake _ | .crownWordTimeout _ =>
    [.sys, .mbx, .jrx]
  | .queueSpacePost _ | .jrxRequestPost _ =>
    [.mbx]
  | .hostQueueDrop _ =>
    [.sys, .mbx, .dial]
  | .muteNFall _ _ =>
    [.ports, .pins]
  | .muteNHighTimer | .muteNRise =>
    [.pins]
  | .txSuperframeBoundary _ _ | .rxSuperframeBoundary _ _ =>
    [.sys, .power, .mbx, .ports, .pool, .lanes, .map, .dial, .alarms, .jrx, .bulk, .free]
  | .sfohReceive _ _ | .psfnLock _ =>
    [.sys, .mbx, .ports, .pool, .map, .dial, .alarms, .jrx, .free]
  | .formatMismatch _ | .sfAlignment _ | .forwardingStart _ _ | .acqCdDone _ _ | .acqBlindDone _
  | .eqReconverge _ _ | .drvEnFall _ | .tDrvExpiry _ | .nlcMemberFadeIn _ _ | .nlcFadeDone _ _
  | .retryHoldExpiry _ | .trackReportTimer _ | .qMarginRefresh _ | .keepAliveKeying _ | .pilotModeEnd _ _ =>
    [.ports]
  | .sfAlignLoss _ | .psfnLockLoss _ | .frameAlignmentLoss _ | .carrierLockLoss _ | .reconvergeFail _ _
  | .trainPhaseTimeout _ | .farRestart _ | .degradeTimer _ | .holdTimeExpiry _ | .calTargetUpdate _ _
  | .calRetry _ =>
    [.mbx, .ports, .pool, .map, .dial, .alarms, .jrx]
  | .psfnJump _ =>
    [.sys, .mbx, .ports, .dial, .jrx, .free]
  | .lightDetectAssert _ | .acquisitionStart _ | .acqFrequencyDone _ _ | .frameAlignment _ _ _ | .acqTimeout _
  | .adcLevelLow _ _ _ | .adcLevelHigh _ _ _ | .synthLock _ | .synthUnlock _ | .synthRange _
  | .nlcAlignDone _ _ _ | .sampleClockChangeIntervalEnd _ =>
    [.mbx, .ports, .pool, .alarms, .jrx]
  | .lightDetectDeassert _ | .calRunEnd _ _ _ _ =>
    [.power, .mbx, .ports, .pool, .map, .dial, .alarms, .jrx]
  | .eqSpan _ | .eqSpanClear _ | .fecStarved | .fecStarvedClear | .watchdog _ | .katRun _ _ | .spanAlarmClear _
  | .hostFecDeg _ _ | .alarmDefaultClear _ _ | .knownAnswerTestDone _ _ =>
    [.mbx, .pool, .alarms, .jrx]
  | .tuneDwellEnd _ _ | .trainAcquireDone _ | .probeDone _ | .commitPassCheck _ | .verifyDone _ _ =>
    [.mbx, .ports, .pool, .map, .dial, .alarms, .jrx, .free]
  | .balanceCycle | .codewordDispatch | .engineThrottle _ | .engineSpeedRestore _ =>
    [.pool]
  | .engineComplete _ _ =>
    [.mbx, .pool, .alarms, .jrx, .free]
  | .decodeDeadline _ _ =>
    [.pool, .free]
  | .scrubPass _ _ | .bankCheckDone _ | .faultHandle =>
    [.sys, .power, .mbx, .twi, .ports, .pool, .lanes, .map, .dial, .mon, .alarms, .faults, .jrx, .test, .pins, .bulk, .free]
  | .commitConfirmCheck _ =>
    [.ports, .dial]
  | .commitRetry _ | .autoRetune _ =>
    [.ports, .free]
  | .holdoverFormatAlternate _ =>
    [.ports, .pool]
  | .pathCommitTimeout _ =>
    [.sys, .mbx, .ports, .dial, .jrx]
  | .jrxMbxDrop _ =>
    [.mbx, .jrx]
  | .helloTimer _ | .routeTimer | .routeChangeSend | .routeExpiry _ =>
    [.jrx]
  | .hostLos _ | .hostCdr _ | .hostCdrClear _ | .hostReceiverReady _ | .hostTrainFail _ =>
    [.mbx, .pool, .lanes, .alarms, .jrx]
  | .hostLosClear _ =>
    [.power, .mbx, .ports, .pool, .lanes, .alarms, .jrx]
  | .hostAlign _ _ =>
    [.mbx, .pool, .map, .alarms, .jrx]
  | .hostTrainingFrame _ _ _ =>
    [.mbx, .pool, .lanes, .alarms, .jrx, .free]
  | .hostTrainRetry _ =>
    [.lanes]
  | .egressBufferStart _ | .egressSlip _ =>
    [.map]
  | .hostWakePattern _ | .lightWake _ | .keepAliveDetect _ =>
    [.power, .ports]
  | .powerAnswersReceived =>
    [.sys, .power, .mbx, .ports, .pool, .dial, .jrx]
  | .noAnswer _ =>
    [.sys, .power, .mbx, .ports, .dial, .jrx]
  | .monSlotEnd _ _ _ =>
    [.mbx, .twi, .ports, .pool, .mon, .alarms, .jrx, .free]
  | .monUrgentDone _ _ =>
    [.sys, .mbx, .dial, .mon, .jrx, .free]
  | .refColdEnd =>
    [.mon]
  | .biasGraceExpiry _ =>
    [.mbx, .ports, .pool, .mon, .alarms, .jrx]
  | .faultOverflowTakeup =>
    [.faults]
  | .recoveryQuietExpiry _ =>
    [.mbx, .faults]
  | .bypass | .idcode | .samplePreload _ _ | .testLogicReset =>
    [.test]
  | .testMbxPost _ =>
    [.power, .mbx, .test]
  | .testMbxTake | .testMbxReset =>
    [.mbx, .test]
  | .prbsLock _ _ =>
    [.lanes, .free]

/-- The frame of every command: a command leaves every part of the state alone but those of `Claims.touches`. -/
def Obligations.CommandFrames : Prop :=
  ∀ (c : Instr) (s t : State), exec c s = .next t → Claims.Only (Claims.touches c) s t

/-- What the manual says of the state after reset (R19, R90, R352, R371, R382): bulk memory lists nothing, no command
waits, both pairs are in terminal role, every port is muted, generations are 0, MBX.DB_MASK is 0x0000FF00 and the permission
masks have their reset values. -/
def Obligations.ResetState : Prop :=
  State.reset.bulk = [] ∧ State.reset.pending = [] ∧ (∀ p : LPort, regen State.reset p = false) ∧
  (∀ p : LPort, State.reset.ports[p].front.muted = true ∧ State.reset.ports[p].front.drvEn = false ∧
    refUnheld State.reset (rxRef p) = true) ∧
  (∀ k : Fin 7, State.reset.mbx.coreGen[k] = 0) ∧ State.reset.mbx.dbMask = 0x0000FF00 ∧ intLow State.reset = false ∧
  (∀ n : Fin 8, State.reset.sys.perms.twi[n] =
    if n.val = 4 ∨ n.val = 5 then 0 else if n.val = 7 then 0x03D55555 else 0x03FFFFFF) ∧
  (∀ n : Fin 4, State.reset.sys.perms.jrx[n] = 0x05555555) ∧ State.reset.sys.perms.test = 0x07FFFFFF

/-- The queues and logs are within the lengths of R69, R367, R415 and R466. -/
def Claims.Bounded (s : State) : Prop :=
  (∀ n : Fin 8, s.mbx.m[n].inQ.length ≤ 16 ∧ s.mbx.m[n].outQ.length ≤ 16) ∧
  (∀ n : Fin 4, s.mbx.j[n].inQ.length ≤ 16) ∧ (∀ p : LPort, s.jrx.ports[p].egress.length ≤ 64) ∧
  s.faults.log.length ≤ 256 ∧ s.power.log.length ≤ 16

/-- The invariants hold after reset. -/
def Obligations.InvariantsAtReset : Prop := Safe State.reset ∧ Claims.Bounded State.reset

/-- Bulk memory keeps its canonical form: strictly rising addresses and no byte that an unlisted address would read as. -/
def Obligations.BulkMemoryKept : Prop := ∀ (s t : State), step s = .next t → Safe s → Safe t

/-- Every step keeps the queues of the mailboxes within 16 words, the Joryx egress queues within 64 frames, the fault log
within 256 entries and the log of refusals within 16 (R69, R367, R415, R466). -/
def Obligations.QueuesKept : Prop := ∀ (s t : State), step s = .next t → Claims.Bounded s → Claims.Bounded t

/-- A mute ends only at a TX(LPn) superframe boundary of its own port (R92), and then no source of R90 is active. -/
def Obligations.MuteEndsOnlyAtBoundary : Prop :=
  ∀ (s t : State) (p : LPort), step s = .next t → s.ports[p].front.muted = true → t.ports[p].front.muted = false →
    ∃ o rest, s.pending = .txSuperframeBoundary p o :: rest

/-- MUTE_N acts without any core (R37): whatever the state, and whatever commands wait, a low pulse of 200 ns at the
ball mutes all four ports. -/
def Obligations.MuteNeedsNoCore : Prop :=
  ∀ (s : State) (ns : Nat) (mid : Bool) (rest : List Instr), s.pins.muteHigh = true → 200 ≤ ns →
    ∃ t, step { s with pending := .muteNFall ns mid :: rest } = .next t ∧ (∀ p : LPort, t.ports[p].front.muted = true) ∧
      t.pins.muteHigh = false ∧ t.pending = rest

/-- The eight references and the counts that they follow (R291): codes 0 to 3 the flywheel label of RX(LP0) to RX(LP3), codes 4
to 7 the transmitted count of TX(LP0) to TX(LP3), while they are valid. -/
def Obligations.ReferenceCodes : Prop :=
  ∀ (s : State) (p : LPort),
    (rxRef p).val = p.val ∧ (txRef p).val = 4 + p.val ∧ (∀ r : RefCode, r = rxRef (refPort r) ∨ r = txRef (refPort r)) ∧
    (s.ports[p].sf.lock = true → refValid s (rxRef p) = true ∧ refCount s (rxRef p) = s.ports[p].sf.fly) ∧
    (isOn s (.ld p) = true → refValid s (txRef p) = true ∧ refCount s (txRef p) = s.ports[p].sf.tx)

/-- Paired references (R292): a reference pairs with the other reference of its own port in terminal role, and with that of
the pair's other port in regenerating role. The pairing is read from the role in the state in which it is used, and
is its own inverse. -/
def Obligations.PairedReferences : Prop :=
  ∀ (s : State) (p m : LPort), pairOf m = pairOf p → m ≠ p →
    (regen s p = false → paired s (rxRef p) = txRef p ∧ paired s (txRef p) = rxRef p) ∧
    (regen s p = true → paired s (rxRef p) = txRef m ∧ paired s (txRef p) = rxRef m) ∧
    ∀ r : RefCode, paired s (paired s r) = r

/-- Whole messages on a channel that host classes share (R374): word 0 opens its class's message of COUNT + 2 words, whose
words then enter in turn; a word of another class inside it is discarded with CONFLICT, and the message continues unharmed;
with its last word the channel is free for every class. -/
def Obligations.SharedChannel : Prop :=
  ∀ (who : HostPort) (n : Fin 8) (w : Word) (s : State), feServes s who = true →
    let c := s.mbx.m[n]
    (c.inPart = none → noInbound n = false → c.inQ.length < 16 → ∃ t, Claims.Runs (.mbxPost who n w) s t ∧
      t.mbx.m[n].inPart = some (BitVec.ofNat 3 (classOf who), fld w 7 0 + 1) ∧ t.mbx.m[n].conflict = c.conflict) ∧
    (∀ k left, c.inPart = some (k, left) → k ≠ BitVec.ofNat 3 (classOf who) → ∃ t, Claims.Runs (.mbxPost who n w) s t ∧
      t.mbx.m[n] = { c with conflict := true }) ∧
    (∀ left, c.inPart = some (BitVec.ofNat 3 (classOf who), left + 1) → noInbound n = false → c.inQ.length < 16 →
      ∃ t q, Claims.Runs (.mbxPost who n w) s t ∧ t.mbx.m[n].inQ = c.inQ ++ [q] ∧ q.w = w ∧ q.start = false ∧
        t.mbx.m[n].inPart = if left = 0 then none else some (BitVec.ofNat 3 (classOf who), left))

/-- INT_N (R382): low exactly while some bit of MBX.DB_HOST is 1 whose bit of MBX.DB_MASK is 0. A write of the mask
changes no bit of MBX.DB_HOST. -/
def Obligations.InterruptPin : Prop :=
  ∀ (s : State) (who : HostPort) (w : Word),
    (intLow s = true ↔ ∃ k : Fin 32, s.mbx.dbHost.getLsbD k.val = true ∧ s.mbx.dbMask.getLsbD k.val = false) ∧
    (feServes s who = true → ∃ t, Claims.Runs (.registerWrite who 0x0181 w) s t ∧ t.mbx.dbHost = s.mbx.dbHost ∧
      t.mbx.dbMask = w)

/-- SYS_IDENT, SYS_STATUS, PERM_GET and ID_ATTEST complete (R358, R359, R365, R366): SYS_IDENT reports SYS.ID, the
unique ID, the firmware version, the boot source and the node identity; SYS_STATUS reports the device state, the profile,
the state of every port, the uptime and the counters of packets; both are device-wide reports. PERM_GET replies the mask it
names; ID_ATTEST writes its 50 words to bulk memory: SYS.ID, the challenge, the unique ID, the digest of the firmware, 16
words of signature, which are free, the public key and the CRC-32C of those. -/
def Claims.SysReportsComplete : Prop :=
  ∀ (rq : Req) (s : State),
    Claims.Reports (.sysIdent rq) .device 0x0001 rq (reply 0x0001 rq (okay (0x6400B010 :: uidWords ++ [s.sys.fwVer,
      word [(31, 30, s.sys.bootSrc.toNat)], word [(31, 21, s.jrx.nodeId.toNat), (20, 20, b2n s.jrx.nidValid)]])) s) s ∧
    Claims.Reports (.sysStatus rq) .device 0x0002 rq (reply 0x0002 rq (okay [
      word [(31, 29, s.sys.dev.code), (28, 27, s.power.profile.code), (26, 26, b2n s.sys.started),
        (25, 25, b2n s.sys.pending.isSome), (24, 21, (s.sys.pending.map (·.channel.toNat)).getD 0),
        (20, 17, s.sys.holdReason.toNat)],
      s.sys.configId,
      word [(31, 29, s.ports[0].tr.state.code), (28, 26, s.ports[1].tr.state.code), (25, 23, s.ports[2].tr.state.code),
        (22, 20, s.ports[3].tr.state.code), (19, 19, b2n s.map.regen[0]), (18, 18, b2n s.map.regen[1])],
      BitVec.ofNat 32 (s.sys.usec / 1000), s.sys.cnt.rx, s.sys.cnt.badLength, s.sys.cnt.badCrc, s.sys.cnt.badOpcode,
      s.sys.cnt.notPermitted, s.sys.cnt.replyDrop, s.sys.cnt.timeout]) s) s ∧
    (∀ m, fld (par rq 0) 24 0 = 0 → permNamed s (par rq 0) = some m →
      Claims.Runs (.permGet rq) s (reply 0x000A rq (okay [m]) s)) ∧
    (pf rq 0 31 24 = 0 → pf rq 0 23 0 + 50 ≤ bulkWords →
      ∃ ws, ws.length = 50 ∧ ws.take 5 = [0x6400B010, par rq 1, par rq 2, par rq 3, par rq 4] ∧
        (ws.drop 5).take 12 = uidWords ++ s.sys.digest.toList ∧
        (ws.drop 33).take 16 = (List.range 16).map Config.publicKey ∧ ws.drop 49 = [crc32c (ws.take 49)] ∧
        Claims.Runs (.idAttest rq) s (reply 0x0008 rq (okay [50]) (putBulk (pf rq 0 23 0) ws (tookFree s))))

/-- PERM_SET stores the mask that it names and changes nothing else (R366), and PERM_GET would then read it. -/
def Claims.PermSetCompletes : Prop :=
  ∀ (rq : Req) (s : State), fld (par rq 0) 24 0 = 0 → (permNamed s (par rq 0)).isSome → fld (par rq 1) 31 27 = 0 →
    ∃ y : Sys, Claims.Runs (.permSet rq) s (reply 0x0009 rq (okay []) { s with sys := y }) ∧
      permNamed { s with sys := y } (par rq 0) = some (par rq 1) ∧ { y with perms := s.sys.perms } = s.sys

/-- System reports and permission masks: `Claims.SysReportsComplete` and `Claims.PermSetCompletes`. -/
def Obligations.SystemReportsComplete : Prop := Claims.SysReportsComplete ∧ Claims.PermSetCompletes

/-- SYS_RESET DEVICE answers OK and makes the reset due, and nothing else changes; SYS_RESET CORE of a core that is in
service begins its restart, which is answered when the core runs again, and its generation advances (R360, R371). -/
def Claims.SysResetCompletes : Prop :=
  ∀ (rq : Req) (s : State),
    (par rq 0 = 0x00006400 →
      Claims.Runs (.sysReset rq) s (modSys (fun y => { y with resetDue := true }) (reply 0x0003 rq (okay []) s))) ∧
    (∀ c : Fin 6, par rq 0 = word [(31, 30, 1), (29, 27, c.val), (15, 0, 0x6400)] →
      unitHeld s (.core (resetCore c.val)) = false → restarting s (resetCore c.val) = false →
      unitDown s (.core (resetCore c.val)) = false →
      ∃ t, Claims.Runs (.sysReset rq) s t ∧ t.mbx.coreGen[coreIx (resetCore c.val)] = s.mbx.coreGen[coreIx (resetCore c.val)] + 1 ∧
        restarting t (resetCore c.val) = true)

/-- OUTPUTS_START moves the device from READY to ACTIVE, or to DEGRADED while a unit other than AON is held failed; in
ACTIVE and DEGRADED it answers OK with DETAIL bit 0. OUTPUTS_STOP moves it back to READY and every DRV_EN output is low
(R363, R491). -/
def Claims.OutputsComplete : Prop :=
  ∀ (rq : Req) (s : State),
    (s.sys.dev = .ready → ∃ t, Claims.Runs (.outputsStart rq) s t ∧
      t.sys.dev = (if otherHeld s then .degraded else .active) ∧ t.sys.started = true) ∧
    (s.sys.dev = .active ∨ s.sys.dev = .degraded →
      Claims.Runs (.outputsStart rq) s (reply 0x0006 rq { st := .ok, detail := 1 } s) ∧
      ∃ t, Claims.Runs (.outputsStop rq) s t ∧ t.sys.dev = .ready ∧ t.sys.started = false ∧
        ∀ p : LPort, t.ports[p].front.drvEn = false) ∧
    (s.sys.dev ≠ .active → s.sys.dev ≠ .degraded →
      Claims.Runs (.outputsStop rq) s (reply 0x0007 rq { st := .ok, detail := 1 } s))

/-- SYS_RESET, OUTPUTS_START and OUTPUTS_STOP: `Claims.SysResetCompletes` and `Claims.OutputsComplete`. -/
def Obligations.SystemStateComplete : Prop := Claims.SysResetCompletes ∧ Claims.OutputsComplete

/-- CONFIG_LOAD with LENGTH 0 discards the pending configuration; with a blob that passes the checks of R489 the blob
becomes the pending configuration; a blob that fails them is refused and the earlier one is kept (R361). -/
def Claims.ConfigLoadCompletes : Prop :=
  ∀ (rq : Req) (s : State), pf rq 0 31 24 = 0 → (s.sys.dev = .hold ∨ s.sys.dev = .ready) → s.sys.blobRun = none →
    (par rq 1 = 0 → Claims.Runs (.configLoad rq) s
      (reply 0x0004 rq (okay []) (modSys (fun y => { y with pending := none }) s))) ∧
    (∀ ws ps, (par rq 1).toNat ≠ 0 → pf rq 0 23 0 + (par rq 1).toNat ≤ bulkWords →
      ws = bulkRead s.bulk (pf rq 0 23 0) (par rq 1).toNat → blobCheck ws (some (par rq 1).toNat) = .ok ps →
      Claims.Runs (.configLoad rq) s (reply 0x0004 rq (okay []) (modSys (fun y => { y with
        pending := some { configId := ws.getD 1 0, packets := ps, channel := BitVec.ofNat 4 (srcChan rq.src) } }) s))) ∧
    (∀ ws r, (par rq 1).toNat ≠ 0 → pf rq 0 23 0 + (par rq 1).toNat ≤ bulkWords →
      ws = bulkRead s.bulk (pf rq 0 23 0) (par rq 1).toNat → blobCheck ws (some (par rq 1).toNat) = .error r →
      Claims.Runs (.configLoad rq) s (reply 0x0004 rq { st := .badParam, detail := 0xFF0000 + loadDetail r } s))

/-- CONFIG_COMMIT of a pending blob that holds one PERM_SET executes it with steps 5 to 7 of R341 skipped, enters
READY, puts its identifier in force and consumes the pending configuration (R362). BOOT_BLOB_DONE does the same with the
blob of the flash, and HOLD with the reason of R489 follows a blob that fails its checks (R490). -/
def Claims.BlobExecutionCompletes : Prop :=
  (∀ (rq : Req) (s : State) (b : Blob) (ws : List Word) (w m old : Word),
    (s.sys.dev = .hold ∨ s.sys.dev = .ready) → s.sys.pending = some b → b.configId = par rq 0 → s.sys.blobRun = none →
    b.packets = [ws] → pktOp ws = 0x0009 → pktParams ws = [w, m] → fld w 24 0 = 0 → permNamed s w = some old →
    fld m 31 27 = 0 →
    ∃ t, Claims.Runs (.configCommit rq) s t ∧ t.sys.pending = none ∧ t.sys.dev = .ready ∧
      t.sys.configId = par rq 0 ∧ permNamed t w = some m) ∧
  (∀ (flash : List Word) (s : State), s.sys.dev = .boot → s.sys.phase = 4 → s.sys.resume = none → s.sys.slot ≠ 2 →
    s.sys.blobRun = none →
    (∀ r, blobCheck flash none = .error r → unitHeld s .aon = false →
      ∃ t, Claims.Runs (.bootBlobDone flash) s t ∧ t.sys.dev = .hold ∧ t.sys.holdReason = BitVec.ofNat 4 r ∧
        t.sys.configId = 0) ∧
    (∀ (ws : List Word) (w m old : Word), blobCheck flash none = .ok [ws] → pktOp ws = 0x0009 → pktParams ws = [w, m] →
      fld w 24 0 = 0 → permNamed s w = some old → fld m 31 27 = 0 → unitHeld s .aon = false →
      ∃ t, Claims.Runs (.bootBlobDone flash) s t ∧ t.sys.dev = .ready ∧ t.sys.configId = flash.getD 1 0 ∧
        permNamed t w = some m))

/-- CONFIG_LOAD, CONFIG_COMMIT and BOOT_BLOB_DONE: `Claims.ConfigLoadCompletes` and `Claims.BlobExecutionCompletes`. -/
def Obligations.ConfigurationsComplete : Prop := Claims.ConfigLoadCompletes ∧ Claims.BlobExecutionCompletes

/-- The power commands complete (R428 to R433). PWR_PROFILE_SET and PWR_DOMAIN_SET with no transition running begin one
that holds their moves; a profile already in force, and domains already there, are answered at once. PWR_RETAIN_SET sets
the mask. The three reports reply their words. -/
def Obligations.PowerCommandsComplete : Prop :=
  ∀ (rq : Req) (s : State),
    (∀ p : Profile, p.code = fld (par rq 0) 31 30 → fld (par rq 0) 19 0 = 0 →
      (p = .run → fld (par rq 0) 29 28 = 0) → (p ≠ .run → fld (par rq 0) 29 28 < p.code) → s.power.trans = none →
      (p = s.power.profile → deviate s = false → ∃ pw : Power,
        Claims.Runs (.pwrProfileSet rq) s (reply 0x1001 rq { st := .ok, detail := 1 } { s with power := pw }) ∧
        pw.wakeTo = Profile.ofCode (fld (par rq 0) 29 28) ∧ pw.wakeLight = BitVec.ofNat 4 (fld (par rq 0) 27 24) ∧
        pw.wakeJrx = BitVec.ofNat 4 (fld (par rq 0) 23 20)) ∧
      (p ≠ s.power.profile ∨ deviate s = true → ∃ t x, Claims.Runs (.pwrProfileSet rq) s t ∧
        t.power.trans = some x ∧ x.rq = some rq ∧ x.profile = some p ∧ x.moves = movesTo s (fun d => some (p.state d)) ∧
        t.power.profile = s.power.profile)) ∧
    (∀ st : PState, st.code = fld (par rq 0) 31 30 → fld (par rq 0) 29 19 = 0 → fld (par rq 0) 18 0 ≠ 0 →
      ¬ (st = .off ∧ bit (par rq 0) 18 = true) → s.power.trans = none →
      let ms := movesTo s (fun d => if bit (par rq 0) (domBit d) then some st else none)
      (ms = [] → Claims.Runs (.pwrDomainSet rq) s (reply 0x1002 rq (okay []) s)) ∧
      (ms ≠ [] → ∃ t x, Claims.Runs (.pwrDomainSet rq) s t ∧ t.power.trans = some x ∧ x.rq = some rq ∧
        x.profile = none ∧ x.moves = ms)) ∧
    (∃ t, Claims.Runs (.pwrRetainSet rq) s (reply 0x1003 rq (okay []) t) ∧ t.power.retain = par rq 0 ∧
      Claims.Only [.power] s t) ∧
    (∃ ws, Claims.Reports (.pwrStatus rq) .device 0x1004 rq (reply 0x1004 rq (okay ws) s) s ∧
      ws.take 4 = [stateA s, stateB s, s.power.retain, s.power.lost] ∧ ws.length = 5 ∧
      (s.power.trans = none → ws[4]? = some 0)) ∧
    (fld (par rq 0) 30 24 = 0 → fld (par rq 0) 23 0 + 58 ≤ bulkWords →
      ∃ ws t, Claims.Reports (.pwrRefusalsRead rq) .device 0x1005 rq (reply 0x1005 rq (okay [58]) t) s ∧ ws.length = 58 ∧
        ws.take 10 = s.power.counters.toList ∧ t.bulk = bulkWrite s.bulk (fld (par rq 0) 23 0) ws ∧
        (bit (par rq 0) 31 = true → t.power.log = [] ∧ t.power.counters = Vector.replicate 10 0) ∧
        (bit (par rq 0) 31 = false → t.power = s.power) ∧ Claims.Only [.power, .bulk] s t) ∧
    (∃ ws, Claims.Reports (.pwrWakeReport rq) .device 0x1006 rq (reply 0x1006 rq (okay ws) s) s ∧ ws.length = 8 ∧
      ws[0]? = some (word [(31, 28, s.power.report.source.toNat), (27, 22, s.power.report.arg.toNat),
        (21, 20, s.power.report.fromP.code), (15, 0, s.power.wakeSeq.toNat)]) ∧
      ws[2]? = some s.power.report.lost ∧ ws[5]? = some s.power.report.latency ∧ ws[7]? = some s.power.report.uptime)

/-- LINE_MODE_SET and LINE_MODE_GET complete (R252, R253). With OP 0 and a RATE that the sample clocks carry, which
is the rate in force or finds the ports DOWN or MUTED, the rate applies to the port (to both of a regenerating pair)
and then ENABLE does: without it the port is DOWN. With OP 1 the selected traces take their 64 bytes from the bulk
block, in the order of SEL. LINE_MODE_GET reports state, ENABLE, RATE and role, then the drop mask. -/
def Claims.LineModeCompletes : Prop :=
  ∀ (rq : Req) (s : State), Claims.Awake 0x2001 rq s →
    let p := pport rq 0
    let w := par rq 0
    let rate := fld w 26 17
    (fld w 29 28 = 0 → fld w 16 0 = 0 → rate ≤ 880 →
      (∀ q ∈ rateApplies s p, clockFits s.ports[q].front.sclk.toNat rate = true) →
      ((∀ q ∈ rateApplies s p, s.ports[q].tr.rate.toNat = rate) ∨
        (∀ q ∈ rateApplies s p, s.ports[q].tr.state = .down ∨ s.ports[q].tr.state = .muted)) →
      Claims.Runs (.lineModeSet rq) s (reply 0x2001 rq (okay [])
        (nlcEval (setEnable p (bit w 27) (eachOf (rateApplies s p) (fun q => setRate q rate) s)))) ∧
      (bit w 27 = false → ∀ u, (setEnable p false u).ports[p].tr.enable = false ∧
        (setEnable p false u).ports[p].tr.state = .down)) ∧
    (∀ ws, fld w 29 28 = 1 → fld w 23 0 + (16 * traceCount w + 1) ≤ bulkWords →
      ws = bulkRead s.bulk (fld w 23 0) (16 * traceCount w + 1) → blockCrc ws = true →
      let bs := traceBytes ws.dropLast
      let t := s.ports[p].tr2
      let take := fun (k : Nat) => (bs.drop (64 * k)).take 64
      let i := fun (b : Nat) => b2n (bit w b)
      Claims.Runs (.lineModeSet rq) s (reply 0x2001 rq (okay []) (evalTraces p (modTr2 p (fun _ => { t with
        nextSpan := if bit w 27 then some (take 0) else t.nextSpan
        expSpan := if bit w 26 then take (i 27) else t.expSpan
        nextPath := if bit w 25 then some (take (i 27 + i 26)) else t.nextPath
        expPath := if bit w 24 then take (i 27 + i 26 + i 25) else t.expPath }) s)))) ∧
    (fld w 29 0 = 0 → Claims.Reports (.lineModeGet rq) (.port p) 0x2002 rq (reply 0x2002 rq (okay
      [word [(31, 29, s.ports[p].tr.state.code), (28, 28, b2n s.ports[p].tr.enable), (27, 18, s.ports[p].tr.rate.toNat),
        (17, 17, b2n (regen s p))], word [(31, 16, dropMask s p)]]) s) s)

/-- LINE_MUTE completes (R175): the port's mute source follows the command, the port mutes at once when it is set, and
DRV_EN_n is about to fall when the driver is to be off. No other port changes. -/
def Claims.LineMuteCompletes : Prop :=
  ∀ (rq : Req) (s : State), (bit (par rq 0) 28 = true → bit (par rq 0) 29 = true) → pf rq 0 27 0 = 0 →
    let p := pport rq 0
    ∃ u, Claims.Runs (.lineMute rq) s (reply 0x2008 rq (okay []) u) ∧ Claims.Only [.ports] s u ∧
      (∀ q, q ≠ p → u.ports[q] = s.ports[q]) ∧ u.ports[p].front.lmute = bit (par rq 0) 29 ∧
      u.ports[p].front.ldrvOff = bit (par rq 0) 28 ∧
      (bit (par rq 0) 29 = true → u.ports[p].front.muted = true) ∧
      (bit (par rq 0) 28 = true → s.ports[p].front.drvEn = true → u.ports[p].front.drvFalling = true) ∧
      { u.ports[p] with front := s.ports[p].front } = s.ports[p]

/-- LINE_MODE_SET, LINE_MODE_GET and LINE_MUTE: `Claims.LineModeCompletes` and `Claims.LineMuteCompletes`. -/
def Obligations.LineModesComplete : Prop := Claims.LineModeCompletes ∧ Claims.LineMuteCompletes

/-- LINE_RX_CONFIG completes (R127, R128). In DOWN or MUTED with the sample clock in force, every selected word is in
force at once and nothing else of the configuration changes. A new sample clock waits for the next TX(LPn) boundary while
LDn is ON (R84; that it is this boundary is the model's choice, log entry 133). In TRAFFIC a selection of words 5 to 7 alone enters an
EXACT event 64 superframes ahead of RX(LPn), and the configuration stays as it is until then. -/
def Claims.LineRxConfigCompletes : Prop :=
  ∀ (rq : Req) (s : State), firstFail (rxChecks rq.params s) = none → Claims.Awake 0x2003 rq s →
    let p := pport rq 0
    (s.ports[p].tr.state = .down ∨ s.ports[p].tr.state = .muted →
      (bit (par rq 0) 0 = true → pf rq 1 31 20 = (s.ports[p].front.nextSclk.getD s.ports[p].front.sclk).toNat) →
      ∃ u, Claims.Runs (.lineRxConfig rq) s (reply 0x2003 rq (okay []) u) ∧
        (∀ i : Fin 8, u.ports[p].rx.cfg[i] = if bit (par rq 0) i.val then par rq (i.val + 1) else s.ports[p].rx.cfg[i]) ∧
        Claims.Only [.ports] s u ∧ ∀ q, q ≠ p → u.ports[q] = s.ports[q]) ∧
    (s.ports[p].tr.state = .down → par rq 0 = word [(31, 30, p.val), (0, 0, 1)] → isOn s (.ld p) = true →
      pf rq 1 31 20 ≠ (s.ports[p].front.nextSclk.getD s.ports[p].front.sclk).toNat →
      ∃ u, Claims.Runs (.lineRxConfig rq) s (reply 0x2003 rq (okay []) u) ∧ Claims.Only [.ports] s u ∧
        u.ports[p].rx.cfg[(0 : Fin 8)] = par rq 1 ∧
        u.ports[p].front = { s.ports[p].front with nextSclk := some (BitVec.ofNat 12 (pf rq 1 31 20)) }) ∧
    (s.ports[p].tr.state = .traffic → pf rq 0 3 0 = 0 → bit (par rq 0) 7 = false → pf rq 0 6 4 ≠ 0 →
      poolFull s = false → rq.src ≠ .blob →
      ∃ e : DialEv, e.exact = true ∧ e.fallback = false ∧ e.ref = rxRef p ∧ e.target = refCount s (rxRef p) + 64 ∧
        e.opcode = 0x2003 ∧ e.params = rq.params ∧ e.implicit = some rq ∧ e.phase = .staged ∧
        ∃ u, Claims.Runs (.lineRxConfig rq) s (taken rq u) ∧ u.dial.evs = s.dial.evs ++ [e] ∧ u.ports = s.ports ∧
          Claims.Only [.dial, .free] s u)

/-- LINE_TX_CONFIG completes outside TRAFFIC (R176 to R178): words 1, 3, 4 and 5 wait for the next TX(LPn) boundary,
word 2 is in force, and words 6 and 7 take their coefficients, or the identity. In TRAFFIC a selection of word 6 or 7
enters an EXACT event 64 superframes ahead of TX(LPn). -/
def Claims.LineTxConfigCompletes : Prop :=
  ∀ (rq : Req) (s : State), firstFail (txChecks rq.params (txData rq.params s)) = none → Claims.Awake 0x2004 rq s →
    let p := pport rq 0
    (bit (par rq 0) 0 = true → inService s p = false) →
    (s.ports[p].tr.state ≠ .traffic ∨ (bit (par rq 0) 5 = false ∧ bit (par rq 0) 6 = false) →
      ∃ u, Claims.Runs (.lineTxConfig rq) s (reply 0x2004 rq (okay []) u) ∧ Claims.Only [.ports] s u ∧
        (∀ q, q ≠ p → u.ports[q] = s.ports[q]) ∧
        (∀ i : Fin 7, i ∈ [(0 : Fin 7), 2, 3, 4] → u.ports[p].tx.cfg[i] = s.ports[p].tx.cfg[i] ∧
          u.ports[p].tx.next[i] = if bit (par rq 0) i.val then some (par rq (i.val + 1)) else s.ports[p].tx.next[i]) ∧
        (∀ i : Fin 7, i ∈ [(1 : Fin 7), 5, 6] →
          u.ports[p].tx.cfg[i] = if bit (par rq 0) i.val then par rq (i.val + 1) else s.ports[p].tx.cfg[i]) ∧
        (bit (par rq 0) 5 = true → bit (par rq 6) 31 = false → u.ports[p].tx.lin = linIdentity) ∧
        (bit (par rq 0) 6 = true → bit (par rq 7) 31 = false → u.ports[p].tx.pre = preIdentity) ∧
        (bit (par rq 0) 5 = true → bit (par rq 6) 31 = true →
          u.ports[p].tx.lin = coefs (bulkRead s.bulk (pf rq 6 23 0) 61))) ∧
    (s.ports[p].tr.state = .traffic → bit (par rq 0) 5 = true → poolFull s = false → rq.src ≠ .blob →
      ∃ e : DialEv, e.exact = true ∧ e.ref = txRef p ∧ e.target = refCount s (txRef p) + 64 ∧ e.opcode = 0x2004 ∧
        e.data = txData rq.params s ∧ e.implicit = some rq ∧
        ∃ u, Claims.Runs (.lineTxConfig rq) s (taken rq u) ∧ u.dial.evs = s.dial.evs ++ [e])

/-- LINE_RX_CONFIG and LINE_TX_CONFIG: `Claims.LineRxConfigCompletes` and `Claims.LineTxConfigCompletes`. -/
def Obligations.LineConfigsComplete : Prop := Claims.LineRxConfigCompletes ∧ Claims.LineTxConfigCompletes

/-- LINE_STATUS completes for each section (R13, R132, R179, R517): section 0 reports the ten words of the port's last
snapshot, or zeros while LDn is not ON; section 1 writes the 252 tap words to bulk memory, those outside EQ_TAPS as zeros;
section 2, which is taken at a TX(LPn) boundary, reports twelve words, the first of them the descriptors that the last
superframe carried; section 3 reports the front end in six. -/
def Claims.LineStatusCompletes : Prop :=
  ∀ (rq : Req) (s : State),
    let p := pport rq 0
    (pf rq 0 29 24 = 0 → ∃ ws, Claims.Reports (.lineStatus rq) (.port p) 0x2005 rq (reply 0x2005 rq (okay ws) s) s ∧
      (isOn s (.ld p) = true → ws = s.ports[p].rx.snap.toList.take 10) ∧
      (isOn s (.ld p) = false → ws = List.replicate 10 0)) ∧
    (pf rq 0 29 24 = 1 → pf rq 0 23 0 + 252 ≤ bulkWords → ∃ ws, ws.length = 252 ∧
      (∀ f k, f < 4 → k < 63 → ws[63 * f + k]? = some (
        if k + fld s.ports[p].rx.cfg[4] 31 26 / 2 < 31 ∨ 31 + fld s.ports[p].rx.cfg[4] 31 26 / 2 < k then 0
        else s.ports[p].rx.taps.getD (63 * f + k) 0)) ∧
      Claims.Reports (.lineStatus rq) (.port p) 0x2005 rq
        (reply 0x2005 rq (okay [252]) (putBulk (pf rq 0 23 0) ws s)) s) ∧
    (pf rq 0 29 24 = 2 → ∃ ws, ws.length = 12 ∧ ws.take 3 = [s.ports[p].sf.sent[5], s.ports[p].sf.sent[6], s.ports[p].sf.sent[7]] ∧
      ws[3]? = some (wd (psHi (refCount s (txRef p)))) ∧
      Claims.Reports (.lineStatus rq) (.tx p) 0x2005 rq (reply 0x2005 rq (okay ws) s) s) ∧
    (pf rq 0 29 24 = 3 → ∃ ws, ws.length = 6 ∧ ws[2]? = some (word [(31, 20, s.ports[p].front.sclk.toNat)]) ∧
      ws[0]? = some (word [(31, 16, s.ports[p].front.level[0].toNat), (15, 0, s.ports[p].front.level[1].toNat)]) ∧
      Claims.Reports (.lineStatus rq) (.port p) 0x2005 rq (reply 0x2005 rq (okay ws) s) s)

/-- LINE_PM_READ completes (R357): its 37 words are written to bulk memory, the alignment counters first, and the
reply says how many they are. Nothing is cleared. -/
def Claims.LinePmReadCompletes : Prop :=
  ∀ (rq : Req) (s : State), pf rq 0 29 24 = 0 → pf rq 0 23 0 + 37 ≤ bulkWords →
    let x := s.ports[pport rq 0]
    ∃ ws, ws.length = 37 ∧ ws.take 5 = [x.sf.alignLoss, x.sf.sfohBad, x.sf.psfnMismatch, x.sf.psfnJump, x.sf.formatMismatch] ∧
      (ws.drop 9).take 4 = [x.rx.acqStart, x.rx.acqFail, x.rx.los, x.rx.eqReconverge] ∧
      Claims.Reports (.linePmRead rq) (.port (pport rq 0)) 0x2006 rq
        (reply 0x2006 rq (okay [37]) (putBulk (pf rq 0 23 0) ws s)) s

/-- LINE_STATUS and LINE_PM_READ: `Claims.LineStatusCompletes` and `Claims.LinePmReadCompletes`. -/
def Obligations.LineReportsComplete : Prop := Claims.LineStatusCompletes ∧ Claims.LinePmReadCompletes

/-- LINE_NLC_SET completes for each operation (R152 to R156): GROUP declares group, centre and slot width of the port
and clears its members; LOAD stores the block of bulk memory as the named set; BUILD stores a set of the declared
members; SELECT OFF of a receive side outside TRAFFIC, and SELECT of a transmit side, wait for the next boundary;
STATUS reports eight words. -/
def Obligations.LineNlcCompletes : Prop :=
  ∀ (rq : Req) (s : State), firstFail (nlcChecks rq.params (nlcData rq.params s) s) = none → Claims.Awake 0x2007 rq s →
    firstFail (nlcStates rq.params s) = none →
    let p := pport rq 0
    let i : Fin 8 := Fin.ofNat 8 (pf rq 0 25 23)
    let tx := bit (par rq 0) 26
    (pf rq 0 29 27 = 0 → ∃ u, Claims.Runs (.lineNlcSet rq) s (reply 0x2007 rq (okay []) u) ∧
      u.ports[p].nlc.group = BitVec.ofNat 2 (pf rq 0 26 25) ∧ u.ports[p].nlc.cf = BitVec.ofNat 12 (pf rq 1 31 20) ∧
      u.ports[p].nlc.slotM = BitVec.ofNat 8 (pf rq 1 19 12) ∧ u.ports[p].nlc.members = Vector.replicate 4 {} ∧
      Claims.Only [.ports, .alarms, .mbx] s u) ∧
    (pf rq 0 29 27 = 1 → Claims.Runs (.lineNlcSet rq) s (reply 0x2007 rq (okay []) (modNlc p (fun n =>
      if tx then { n with txSets := vset n.txSets i (some ⟨bulkRead s.bulk (pf rq 1 23 0) (par rq 2).toNat⟩) }
      else { n with rxSets := vset n.rxSets i (some ⟨bulkRead s.bulk (pf rq 1 23 0) (par rq 2).toNat⟩) }) s))) ∧
    (pf rq 0 29 27 = 2 → ∃ (c : CoefSet) (a : Answer), a.st = .ok ∧ blockCrc c.words = true ∧
      c.words.length = setLength (c.w 0) ∧ c.holds p = true ∧ c.matches s p = true ∧
      Claims.Runs (.lineNlcSet rq) s (reply 0x2007 rq a (tookFree (modNlc p (fun n =>
        if tx then { n with txSets := vset n.txSets i (some c) } else { n with rxSets := vset n.rxSets i (some c) }) s)))) ∧
    (pf rq 0 29 27 = 3 → tx = false → s.ports[p].tr.state ≠ .traffic →
      Claims.Runs (.lineNlcSet rq) s (reply 0x2007 rq (okay []) (modNlc p (fun n => { n with
        rxNext := some (selected n.rx (bit (par rq 0) 22) (pf rq 0 25 23)) }) s))) ∧
    (pf rq 0 29 27 = 3 → tx = true →
      Claims.Runs (.lineNlcSet rq) s (reply 0x2007 rq (okay []) (modNlc p (fun n => { n with
        txNext := some (selected n.tx (bit (par rq 0) 22) (pf rq 0 25 23)), txSelOn := bit (par rq 0) 22
        txSel := if bit (par rq 0) 22 then BitVec.ofNat 3 (pf rq 0 25 23) else n.txSel }) s))) ∧
    (pf rq 0 29 27 = 4 → ∃ ws, ws.length = 8 ∧
      (ws.drop 5) = [s.ports[p].nlc.drop, s.ports[p].nlc.switches, s.ports[p].nlc.fadeCut] ∧
      Claims.Reports (.lineNlcSet rq) (.port p) 0x2007 rq (reply 0x2007 rq (okay ws) s) s)

/-- The steps of an acquisition complete (R107, R110, R112, R115, R122, R134). ACQUISITION_START begins an attempt when
the conditions of R134 hold, unless the port seeks lock again in the alignment that it keeps (R124): the stored words are in
force and ACQ_START counts. Each later step moves ACQ_STEP on; an
offset outside the capture range stops the attempt with FO_RANGE and counts ACQ_FAIL. -/
def Obligations.AcquisitionStepsComplete : Prop :=
  ∀ (p : LPort) (s : State),
    let r := s.ports[p].rx
    (canAcquire s p = true → r.running = false → s.ports[p].sf.lock = false →
      (r.frameAligned = false ∨ s.ports[p].sf.aligned = false) →
      ∃ t, Claims.Runs (.acquisitionStart p) s t ∧ t.ports[p].rx.running = true ∧ t.ports[p].rx.step = 1 ∧
        t.ports[p].rx.acqStart = r.acqStart + 1 ∧ t.ports[p].rx.frameAligned = false ∧
        (∀ i : Fin 8, t.ports[p].rx.cfg[i] = (r.next[i]).getD r.cfg[i] ∧ t.ports[p].rx.next[i] = none) ∧
        alarmOn t (.line p) 1 = false ∧ Claims.Only [.ports, .alarms, .mbx] s t ∧ ∀ q, q ≠ p → t.ports[q] = s.ports[q]) ∧
    (∀ o : Int, r.running = true → r.step = 1 → r.foStop = false →
      (foInside r o = true → Claims.Runs (.acqFrequencyDone p o) s (modRx p (fun r => { r with
        rotator := o, step := 2, est := { r.est with fo := BitVec.ofInt 16 o } }) s)) ∧
      (foInside r o = false → ∃ t, Claims.Runs (.acqFrequencyDone p o) s t ∧ t.ports[p].rx.foStop = true ∧
        t.ports[p].rx.step = 1 ∧ t.ports[p].rx.acqFail = r.acqFail + 1 ∧ t.ports[p].rx.est.fo = BitVec.ofInt 16 o ∧
        alarmOn t (.line p) 0 = true)) ∧
    (∀ (c : Int) (found : Option Int), r.running = true → r.step = 2 →
      (if !r.hint && fld r.cfg[3] 31 30 == 1 then c = 10 * sgn 16 (fld r.cfg[3] 15 0)
        else found = some c ∧ cdInside s p c = true) →
      Claims.Runs (.acqCdDone p found) s (modRx p (fun r => { r with
        cdSet := c, overlap := BitVec.ofNat 4 (overlapOf c s.ports[p].tr.rate.toNat (farRolloff s p))
        beta := farRolloff s p, step := 3, eq := .blind, est := { r.est with cd := BitVec.ofInt 32 (10 * rdiv c 10) } }) s)) ∧
    (r.running = true → r.step = 3 → Claims.Runs (.acqBlindDone p) s (modRx p (fun r => { r with step := 4 }) s)) ∧
    (∀ swapped conj : Bool, r.running = true → r.step = 4 →
      ∃ t, Claims.Runs (.frameAlignment p swapped conj) s t ∧ t.ports = (modRx p (fun r => { r with
        frameAligned := true, swapped := swapped, conj := conj, eq := .pilot, step := 5 }) s).ports ∧
        alarmOn t (.line p) 3 = conj ∧ Claims.Only [.ports, .alarms, .mbx] s t) ∧
    (r.running = true → ∃ t, Claims.Runs (.acqTimeout p) s t ∧
      t.ports[p].rx.acqFail = (if r.foStop then r.acqFail else r.acqFail + 1) ∧ t.ports[p].rx.running = canAcquire s p ∧
      t.ports[p].rx.acqStart = (if canAcquire s p then r.acqStart + 1 else r.acqStart) ∧ t.ports[p].rx.hint = false ∧
      t.ports[p].sf.aligned = false)

/-- A loss of signal (R113, R118, R122, R124): LOS counts, the port has neither frame nor superframe alignment nor PSFN
lock, and the equaliser is off. Loss of the carrier also raises FO_RANGE, and a failed reconvergence counts the
erased symbols. A port whose input is its own LINE_DIGITAL loopback loses nothing with the light (R514). -/
def Claims.SignalLossesComplete : Prop :=
  ∀ (p : LPort) (s : State),
    let lost := fun (t : State) => t.ports[p].rx.los = s.ports[p].rx.los + 1 ∧ t.ports[p].rx.frameAligned = false ∧
      t.ports[p].rx.erasing = false ∧ t.ports[p].rx.eq = .off ∧ t.ports[p].sf.aligned = false ∧ t.ports[p].sf.lock = false
    (s.ports[p].rx.frameAligned = true → ∃ t, Claims.Runs (.frameAlignmentLoss p) s t ∧ lost t) ∧
    (s.ports[p].rx.frameAligned = true → ∃ t, Claims.Runs (.carrierLockLoss p) s t ∧ lost t ∧
      alarmOn t (.line p) 0 = true) ∧
    (∀ n : Nat, s.ports[p].rx.erasing = true → ∃ t, Claims.Runs (.reconvergeFail p n) s t ∧ lost t ∧
      t.ports[p].rx.eqErased = s.ports[p].rx.eqErased + BitVec.ofNat 64 n) ∧
    (s.ports[p].front.light = true → s.ports[p].tr.state ≠ .down → loopDigital s p = false →
      ∃ t, Claims.Runs (.lightDetectDeassert p) s t ∧ lost t ∧ t.ports[p].front.light = false ∧
        t.power.lightArmed.getLsbD p.val = true) ∧
    (s.ports[p].front.light = true → loopDigital s p = true →
      ∃ t, Claims.Runs (.lightDetectDeassert p) s t ∧ t.ports[p] = { s.ports[p] with front := { s.ports[p].front with
        light := false } } ∧ t.power.lightArmed.getLsbD p.val = true ∧ Claims.Only [.ports, .power] s t)

/-- The equaliser's events complete (R115, R117, R118): EQ_RECONVERGE reloads the oldest taps that are kept, those of 16
superframes ago once there are so many (before that it is the model's choice, log entry 139), enters pilot mode with
erasures and counts; the end of pilot mode enters tracking. EQ_SPAN is raised while frame aligned when the DGD, in 0.1 ps,
exceeds (EQ_TAPS - 8) / (1.125 B), and cleared after 256 superframes below it. -/
def Claims.EqualiserEventsComplete : Prop :=
  ∀ (p : LPort) (n : Nat) (s : State),
    let over_ := ((fld s.ports[p].rx.cfg[4] 31 26 : Int) - 8) * 320000 <
      s.ports[p].rx.dgdNow.toNat * (9 * (240 + s.ports[p].tr.rate.toNat))
    (s.ports[p].rx.frameAligned = true → Claims.Runs (.eqReconverge p n) s (modRx p (fun r => { r with
      eqReconverge := r.eqReconverge + 1, eq := .pilot, erasing := true, taps := r.tapHist.getLast?.getD r.taps
      eqErased := r.eqErased + BitVec.ofNat 64 n }) s)) ∧
    (s.ports[p].rx.eq = .pilot → Claims.Runs (.pilotModeEnd p n) s (modRx p (fun r => { r with
      eq := .tracking, erasing := false
      eqErased := r.eqErased + BitVec.ofNat 64 (if r.erasing then n else 0) }) s)) ∧
    (s.ports[p].rx.frameAligned = true ∧ over_ → Claims.Runs (.eqSpan p) s (setAlarm (.line p) 2 true s)) ∧
    (¬ (s.ports[p].rx.frameAligned = true ∧ over_) → Claims.Runs (.eqSpan p) s s) ∧
    (256 ≤ s.ports[p].rx.dgdRun → Claims.Runs (.eqSpanClear p) s (setAlarm (.line p) 2 false s)) ∧
    (s.ports[p].rx.dgdRun < 256 → Claims.Runs (.eqSpanClear p) s s)

/-- Losses of signal and the events of the equaliser: `Claims.SignalLossesComplete` and `Claims.EqualiserEventsComplete`. -/
def Obligations.SignalEventsComplete : Prop := Claims.SignalLossesComplete ∧ Claims.EqualiserEventsComplete

/-- The light detector, the synthesizer and the level alarms (R77, R83 to R86). -/
def Claims.FrontEndEventsComplete : Prop :=
  ∀ (p : LPort) (s : State),
    let f := s.ports[p].front
    (f.light = false → ∃ t, Claims.Runs (.lightDetectAssert p) s t ∧ t.ports[p].front = { f with light := true } ∧
      (s.ports[p].tr.state = .acquire → t.ports[p].tr2.lightAt = some s.sys.usec)) ∧
    (f.attempt = true → ∃ t, Claims.Runs (.synthLock p) s t ∧ t.ports[p].front.locked = true ∧
      t.ports[p].front.attempt = false ∧ (s.ports[p].cal.run ≠ .foreground → t.ports[p].front.changing = false)) ∧
    (f.locked = true → ∃ t, Claims.Runs (.synthUnlock p) s t ∧ t.ports[p].front.locked = false ∧
      t.ports[p].front.attempt = true ∧ t.ports[p].front.synthUnlock = f.synthUnlock + 1 ∧ t.ports[p].front.muted = true ∧
      alarmOn t (.conv p) 2 = true) ∧
    (f.changing = true → f.locked = false → ∃ t, Claims.Runs (.sampleClockChangeIntervalEnd p) s t ∧
      t.ports[p].front.changing = false ∧ t.ports[p].front.attempt = true ∧
      t.ports[p].front.synthUnlock = f.synthUnlock + 1 ∧ alarmOn t (.conv p) 2 = true) ∧
    (regen s p = true → ∃ t, Claims.Runs (.synthRange p) s t ∧ t.ports[p].front.holdover = true ∧
      t.ports[p].front.slewAt = s.sys.usec ∧ alarmOn t (.conv p) 3 = true) ∧
    (f.attempt = true → Claims.Runs (.synthFail p) s (detect (.cv p) 7 0 0 s)) ∧
    (∀ (lane : CLane) (raised : Bool), isOn s (.cv p) = true →
      (∃ t, Claims.Runs (.adcLevelLow p lane raised) s t ∧ (∀ i : CLane, t.ports[p].front.lowLanes.getLsbD i.val =
          (if i = lane then raised else f.lowLanes.getLsbD i.val)) ∧
        alarmOn t (.conv p) 0 = (t.ports[p].front.lowLanes != 0)) ∧
      (∃ t, Claims.Runs (.adcLevelHigh p lane raised) s t ∧ (∀ i : CLane, t.ports[p].front.highLanes.getLsbD i.val =
          (if i = lane then raised else f.highLanes.getLsbD i.val)) ∧
        alarmOn t (.conv p) 1 = (t.ports[p].front.highLanes != 0)))

/-- MUTE_N and DRV_EN_n (R91, R92, R95, R96). A pulse of 200 ns mutes every port at once and counts; one shorter than
50 ns does nothing. The rise starts the high timer, whose end clears the source without ending a mute. A DRV_EN_n that
is about to fall falls, and the port stays muted, while a condition of R94 fails. -/
def Claims.MutePinsComplete : Prop :=
  ∀ (s : State),
    (∀ (ns : Nat) (mid : Bool), s.pins.muteHigh = true → 200 ≤ ns ∨ (50 ≤ ns ∧ mid = true) →
      ∃ t, Claims.Runs (.muteNFall ns mid) s t ∧ t.pins = { s.pins with
        muteHigh := false, muteClear := false, muteTimer := false, muteEvents := s.pins.muteEvents + 1 } ∧
        (∀ p : LPort, t.ports[p].front.muted = true) ∧ Claims.Only [.ports, .pins] s t) ∧
    (∀ (ns : Nat) (mid : Bool), ns < 50 → Claims.Runs (.muteNFall ns mid) s s) ∧
    (s.pins.muteHigh = false → Claims.Runs .muteNRise s { s with pins := { s.pins with muteHigh := true, muteTimer := true } }) ∧
    (s.pins.muteTimer = true →
      Claims.Runs .muteNHighTimer s { s with pins := { s.pins with muteTimer := false, muteClear := true } }) ∧
    (∀ p : LPort, s.ports[p].front.drvFalling = true → drvCond s p = false →
      ∃ t, Claims.Runs (.drvEnFall p) s t ∧ t.ports[p].front.drvEn = false ∧ t.ports[p].front.drvFalling = false ∧
        t.ports[p].front.muted = true ∧ Claims.Only [.ports] s t) ∧
    (∀ p : LPort, Claims.Runs (.tDrvExpiry p) s (modFront p (fun f => { f with tDrv := none }) s))

/-- Light, synthesizer, ADC levels, MUTE_N and DRV_EN_n: `Claims.FrontEndEventsComplete` and `Claims.MutePinsComplete`. -/
def Obligations.FrontEndEventsComplete : Prop := Claims.FrontEndEventsComplete ∧ Claims.MutePinsComplete

/-- TRAIN_START completes for each operation in the states that accept it (R255): START enters ACQUIRE, or waits for a
foreground calibration run (R319); STOP enters MUTED with LAST_FAIL 14; RESTART fails training with LAST_FAIL 14, which does
not count towards RETRIES, and enters ACQUIRE with RETRY_HOLD (R221); RETUNE plans a search on the transmitted direction,
unless TUNE is skipped there. While a commit of that direction is pending, or will be proposed again, RETUNE waits for its
end, and a search that runs already is the one asked for (the model's reading of R230, log entry 84). TRAIN_POLICY_SET
stores its five words (R256), and TRAIN_STATUS reports eleven words or eighteen (R257). -/
def Claims.TrainCommandsComplete : Prop :=
  ∀ (rq : Req) (s : State),
    let p := pport rq 0
    (Claims.Awake 0x2801 rq s → pf rq 0 26 0 = 0 →
      (pf rq 0 29 27 = 0 → s.ports[p].tr.state = .muted →
        (calForeground s p = false → ∃ u, Claims.Runs (.trainStart rq) s (reply 0x2801 rq (okay []) u) ∧
          u.ports[p].tr.state = .acquire ∧ u.ports[p].tr.phase = .acquire ∧ u.pool.ports[p].inPool = true) ∧
        (calForeground s p = true → Claims.Runs (.trainStart rq) s
          (reply 0x2801 rq (okay []) (modTr p (fun t => { t with waitCal := true }) s)))) ∧
      (pf rq 0 29 27 = 1 → s.ports[p].tr.state ≠ .down →
        ∃ u, Claims.Runs (.trainStart rq) s (reply 0x2801 rq (okay []) u) ∧ u.ports[p].tr.state = .muted ∧
          u.ports[p].tr.phase = .none ∧ u.ports[p].tr.lastFail = 14 ∧ u.pool.ports[p].inPool = false) ∧
      (pf rq 0 29 27 = 2 → s.ports[p].tr.state ≠ .down → s.ports[p].tr.state ≠ .muted →
        ∃ u, Claims.Runs (.trainStart rq) s (reply 0x2801 rq (okay []) u) ∧ u.ports[p].tr.state = .acquire ∧
          u.ports[p].tr.lastFail = 14 ∧ u.ports[p].tr.retryHold = true ∧
          u.ports[p].tr2.trainFail = s.ports[p].tr2.trainFail + 1 ∧ u.ports[p].tr.fails = s.ports[p].tr.fails) ∧
      (pf rq 0 29 27 = 3 → s.ports[p].tr.state = .traffic →
        (s.ports[p].tr.tuneTx.any (·.stage < 2) = true →
          Claims.Runs (.trainStart rq) s (reply 0x2801 rq (okay []) s)) ∧
        (s.ports[p].tr.tuneTx.any (·.stage < 2) = false →
          (s.ports[p].tr.txCommit.isSome = true ∨ s.ports[p].tr.retryCommit.isSome = true →
            Claims.Runs (.trainStart rq) s (reply 0x2801 rq (okay []) (modTr p (fun t => { t with retuneDue := true }) s))) ∧
          (s.ports[p].tr.txCommit = none → s.ports[p].tr.retryCommit = none → tuneSkipped s p = true →
            Claims.Runs (.trainStart rq) s (reply 0x2801 rq (okay []) (modTr p (fun t => { t with retuneDue := false }) s))) ∧
          (s.ports[p].tr.txCommit = none → s.ports[p].tr.retryCommit = none → tuneSkipped s p = false →
            ∃ u x, Claims.Runs (.trainStart rq) s (reply 0x2801 rq (okay []) u) ∧ u.ports[p].tr.retune = true ∧
              u.ports[p].tr.tuneTx = some x ∧ x.stage = 0 ∧ x.cands = tuneFirst ∧ x.set = s.ports[p].nlc.txSel ∧
              x.acked = false ∧ u.ports[p].tr.queue = s.ports[p].tr.queue ++ [{ type := 8, body := planBody x }])))) ∧
    (firstFail (policyChecks rq) = none → Claims.Runs (.trainPolicySet rq) s (reply 0x2803 rq (okay [])
      (modTr p (fun t => { t with policy := #v[wd (pf rq 0 29 0), par rq 1, par rq 2, par rq 3, par rq 4] }) s))) ∧
    (pf rq 0 23 0 = 0 → pf rq 0 29 24 = 0 → ∃ ws,
      Claims.Reports (.trainStatus rq) (.port p) 0x2802 rq (reply 0x2802 rq (okay ws) s) s ∧
      ws.length = 11 ∧ ws[1]? = some s.ports[p].tr.txFmt ∧ ws[2]? = some s.ports[p].tr.rxFmt ∧
      ws[5]? = some s.ports[p].tr2.trainTime ∧ ws[8]? = some s.ports[p].tr2.trainFail) ∧
    (pf rq 0 23 0 = 0 → pf rq 0 29 24 = 1 → ∃ ws,
      Claims.Reports (.trainStatus rq) (.port p) 0x2802 rq (reply 0x2802 rq (okay ws) s) s ∧
      ws.length = 18 ∧ (ws.drop 1).take 16 = s.ports[p].sf.ledger.toList)

/-- PATH_COMMIT OP RATE completes at a terminal in TRAFFIC with no change pending (R241, R258): the change is recorded
with N for the forward direction and N' as far from RX as N is from TX, the command waits for its answer, and PATH is
queued for the far end. OP CANCEL records its own wait and queues the cancel; a RATE request that waited is answered
REFUSED with status 5 and its change is dropped (log entry 90). -/
def Claims.PathCommitCompletes : Prop :=
  ∀ (rq : Req) (s : State), firstFail (pathChecks rq.params s) = none → firstFail (pathStates rq.params s) = none →
    let p := pport rq 0
    let n := psfnOf (par rq 1) (par rq 2)
    (pf rq 0 29 28 = 0 → s.ports[p].tr2.rate_ = none →
      ∃ r u, Claims.Runs (.pathCommit rq) s (taken rq u) ∧ u.ports[p].tr2.rate_ = some r ∧
        r.rate.toNat = pf rq 0 27 18 ∧ r.nFwd = n ∧
        r.nRev = psfnAdd (refCount s (rxRef p)) (psfnDiff n (refCount s (txRef p))) ∧ r.rq = some rq ∧ r.from_ = none ∧
        r.cancel = false ∧ ∃ m ∈ u.ports[p].tr.queue, m.type = 11 ∧ m.body = pathBody 0 r 0) ∧
    (pf rq 0 29 28 = 1 → s.ports[p].tr2.rate_ = none →
      ∃ r u, Claims.Runs (.pathCommit rq) s (taken rq u) ∧ u.ports[p].tr2.rate_ = some r ∧ r.cancel = true ∧
        r.nFwd = n ∧ r.rq = some rq ∧ u.ports[p].tr.queue = s.ports[p].tr.queue ++ [{ type := 11, body := pathBody 1 r 0 }]) ∧
    (∀ (old : RateChange) (rq₀ : Req), pf rq 0 29 28 = 1 → s.ports[p].tr2.rate_ = some old → old.rq = some rq₀ →
      ∃ r v, Claims.Runs (.pathCommit rq) s (taken rq (sendMsg p 11 (pathBody 1 r 0)
          (modTr2 p (fun t => { t with rate_ := some r })
            (reply 0x2804 rq₀ { st := .refused, detail := s.jrx.nodeId.toNat * 8192 + 5 } v)))) ∧
        r.cancel = true ∧ r.nFwd = n ∧ r.rq = some rq ∧ v.ports[p].tr2.rate_ = none)

/-- PATH_COMMIT_TIMEOUT answers the waiting PATH_COMMIT, RATE or CANCEL, with TIMEOUT and sends the cancel (R258). -/
def Claims.PathTimeoutCompletes : Prop :=
  ∀ (p : LPort) (s : State) (r : RateChange) (rq : Req), s.ports[p].tr2.rate_ = some r → r.rq = some rq →
    ∃ u v, Claims.Runs (.pathCommitTimeout p) s (sendMsg p 11 (pathBody 1 r 0) u) ∧
      u = reply 0x2804 rq { st := .timeout } v ∧ v.ports[p].tr2.rate_ = none

/-- TRAIN_START, TRAIN_STATUS, TRAIN_POLICY_SET, PATH_COMMIT and its timer: `Claims.TrainCommandsComplete` and `Claims.PathCommitCompletes` and `Claims.PathTimeoutCompletes`. -/
def Obligations.TrainCommandsComplete : Prop := Claims.TrainCommandsComplete ∧ Claims.PathCommitCompletes ∧ Claims.PathTimeoutCompletes

/-- The timers and verdicts of span training (R220, R221, R228, R236 to R238, R243): each one's effect in the state that
it belongs to. A phase that times out fails training with its own reason: the failure counts, LAST_FAIL names it, and
the port returns to ACQUIRE with RETRY_HOLD while the policy's limit is not reached. -/
def Claims.TrainingTimersComplete : Prop :=
  ∀ (p : LPort) (s : State),
    let t := s.ports[p].tr
    let more := retriesOf t = 0 ∨ t.fails + 1 < retriesOf t
    let failed := fun (reason : Nat) (u : State) => u.ports[p].tr.lastFail = BitVec.ofNat 4 reason ∧
      u.ports[p].tr2.trainFail = s.ports[p].tr2.trainFail + 1 ∧
      (more → u.ports[p].tr.state = .acquire ∧ u.ports[p].tr.retryHold = true ∧ u.ports[p].tr.fails = t.fails + 1) ∧
      (¬ more → u.ports[p].tr.state = .muted)
    (∀ r, t.state = .train → timerReason t.phase = some r →
      ∃ u, Claims.Runs (.trainPhaseTimeout p) s u ∧ failed r u) ∧
    ((t.state = .train ∧ 16 ≤ t.srdiRun) ∨ ((t.state = .traffic ∨ t.state = .holdover) ∧ 16 ≤ t.strainRun) →
      ∃ u, Claims.Runs (.farRestart p) s u ∧ failed 12 u) ∧
    (t.state = .holdover → ∃ u, Claims.Runs (.holdTimeExpiry p) s u ∧ failed 13 u) ∧
    Claims.Runs (.retryHoldExpiry p) s (modTr p (fun t => { t with retryHold := false }) s) ∧
    Claims.Runs (.qMarginRefresh p) s (modTr p (fun t => { t with
      qMargin := BitVec.ofInt 16 (qMarginOf s.ports[p].rx.est.preBer (dFec t.rxNow)) }) s) ∧
    (t.phase = .track ∨ (t.state = .train ∧ t.phase = .commit) →
      Claims.Runs (.trackReportTimer p) s (sendMsg p 10 (trackBody s p) s)) ∧
    (t.state = .traffic → bit t.policy[0] 28 = true → degraded t = true →
      Claims.Runs (.degradeTimer p) s (sendChoice p 3 t.rate.toNat s)) ∧
    (degraded t = false → ∃ u, Claims.Runs (.spanAlarmClear p) s u ∧ alarmOn u (.line p) 10 = false ∧
      alarmOn u (.line p) 11 = false ∧ Claims.Only [.alarms, .mbx] s u) ∧
    (∀ a b : Word, ∀ first : Bool, t.state = .holdover → s.ports[p].sf.lock = false →
      s.ports[p].tr2.alternate = some (a, b, first) →
      ∃ u, Claims.Runs (.holdoverFormatAlternate p) s u ∧ u.ports[p].tr.rxNow = (if first then b else a) ∧
        u.ports[p].tr2.alternate = some (a, b, !first) ∧ u.pool.ports[p].cautious = 16 ∧
        Claims.Only [.ports, .pool] s u) ∧
    (t.state = .traffic → s.ports[p].tr2.afterRate = true → bit t.policy[0] 27 = true → tuneSkipped s p = false →
      t.txCommit = none → t.retryCommit = none → t.tuneTx = none →
      ∃ u x, Claims.Runs (.autoRetune p) s u ∧ u.ports[p].tr2.afterRate = false ∧ u.ports[p].tr.retune = true ∧
        u.ports[p].tr.tuneTx = some x ∧ x.cands = tuneFirst) ∧
    (t.state = .traffic → s.ports[p].tr2.afterRate = true → bit t.policy[0] 27 = true → t.txCommit.isSome = true →
      t.tuneTx = none →
      ∃ u, Claims.Runs (.autoRetune p) s u ∧ u.ports[p].tr2.afterRate = false ∧ u.ports[p].tr.retuneDue = true)

/-- The phases of span training (R220, R224, R236). A port that has lock with SRDI 0 for 16 superframes and no
RETRY_HOLD enters TRAIN in CAPABILITY and queues its CAP alone, and the policy of that moment comes into force (R256). The end of probing queues PROBE_REPORT with the
estimates in force. A Q margin at or above MARGIN_MIN verifies the format; one below it, after the second repeat, fails
with reason 8. -/
def Claims.TrainingPhasesComplete : Prop :=
  ∀ (p : LPort) (s : State),
    let t := s.ports[p].tr
    (t.state = .acquire → s.ports[p].sf.lock = true → 16 ≤ t.srdiZero → t.retryHold = false → t.farCap = none →
      ∃ u, Claims.Runs (.trainAcquireDone p) s u ∧ u.ports[p].tr.state = .train ∧ u.ports[p].tr.phase = .capability ∧
        u.ports[p].tr.queue = [{ type := 1, body := capBody u p }] ∧ u.ports[p].tr.sentHead = false ∧
        u.ports[p].tr.polUse = t.policy ∧ u.ports[p].tr.capSets = BitVec.ofNat 8 (rxSetsOf s p)) ∧
    (t.state = .train → t.phase = .probe → t.probed = false → t.probeAcked = false →
      ∃ u, Claims.Runs (.probeDone p) s u ∧ u.ports[p].tr.probed = true ∧ u.ports[p].tr.phase = .probe ∧
        u.ports[p].tr.probeSnr = s.ports[p].rx.est.snrX.toNat + s.ports[p].rx.est.snrY.toNat ∧
        u.ports[p].tr.queue = t.queue ++ [{ type := 2, body := probeBody s.ports[p].rx.est }]) ∧
    (∀ m : BitVec 16, t.state = .train → t.phase = .commit → t.finRxDone = true → t.verified = false →
      (marginMin t ≤ m.toInt → t.farVerified = false →
        ∃ u, Claims.Runs (.verifyDone p m) s u ∧ u.ports[p].tr.verified = true ∧ u.ports[p].tr.state = .train) ∧
      (marginMin t ≤ m.toInt → t.farVerified = true → t.finTxDone = true →
        ∃ u, Claims.Runs (.verifyDone p m) s u ∧ u.ports[p].tr.state = .traffic ∧ u.ports[p].tr.phase = .track ∧
          u.ports[p].tr.fails = 0) ∧
      (m.toInt < marginMin t → 2 ≤ t.verifyRuns →
        ∃ u, Claims.Runs (.verifyDone p m) s u ∧ u.ports[p].tr.lastFail = 8 ∧
          u.ports[p].tr2.trainFail = s.ports[p].tr2.trainFail + 1)) ∧
    (∀ (x : Tune) (m : BitVec 16), t.tuneRx = some x → x.snrs.length + 1 < x.cands.length → x.stage ≠ 2 →
      Claims.Runs (.tuneDwellEnd p m) s (modTr p (fun t => { t with tuneRx := some { x with snrs := x.snrs ++ [m] } }) s))

/-- The timers and the phases of training: `Claims.TrainingTimersComplete` and `Claims.TrainingPhasesComplete`. -/
def Obligations.TrainingComplete : Prop := Claims.TrainingTimersComplete ∧ Claims.TrainingPhasesComplete

/-- The checks of a commit (R231, R232). At N − 512 a receive switch that the announcements did not confirm is dropped,
counts, and is cancelled at the far end, and the format that was dropped is kept for the alternation of R233. 63 superframes after the switch it has passed when lock holds and no good SFOH
named another format. A proposal kept after NAK is proposed again with a later N. -/
def Obligations.CommitEventsComplete : Prop :=
  ∀ (p : LPort) (s : State) (c : Commit),
    let t := s.ports[p].tr
    (t.rxCommit = some c → c.switched = false → psfnDiff c.n (refCount s (rxRef p)) ≤ 512 →
      ¬ (4 ≤ c.seen ∧ c.lastSeen = true) →
      ∃ u, Claims.Runs (.commitConfirmCheck p) s u ∧ u.ports[p].tr.rxCommit = none ∧
        u.ports[p].tr2.commitUnconf = s.ports[p].tr2.commitUnconf + 1 ∧
        u.ports[p].tr2.cancelAt = some (refCount s (rxRef p)) ∧ u.ports[p].tr2.cancelFmt = c.desc ∧
        u.ports[p].tr.queue = t.queue ++ [{ type := 7, body := ackBody c.n (dGen c.desc) 0 }] ∧
        (∀ e ∈ u.dial.evs, ∀ d g a k, e.kind ≠ .fmtRx p d g a k)) ∧
    (t.rxCommit = some c → c.switched = true → 63 ≤ psfnDiff (refCount s (rxRef p)) c.n → s.ports[p].sf.lock = true →
      c.failed = false → t.state = .traffic →
      ∃ u, Claims.Runs (.commitPassCheck p) s u ∧ u.ports[p].tr.rxCommit = none ∧ u.ports[p].tr.state = .traffic ∧
        alarmOn u (.line p) 10 = false ∧ alarmOn u (.line p) 11 = false) ∧
    (t.rxCommit = some c → c.switched = true → 63 ≤ psfnDiff (refCount s (rxRef p)) c.n →
      (s.ports[p].sf.lock = false ∨ c.failed = true) → t.state = .train →
      ∃ u, Claims.Runs (.commitPassCheck p) s u ∧ u.ports[p].tr.lastFail = 7) ∧
    (t.retryCommit = some c → t.txCommit = none → choiceFits t c.kind = true → c.kind ≠ 2 →
      ∃ u c', Claims.Runs (.commitRetry p) s u ∧ u.ports[p].tr.retryCommit = none ∧ u.ports[p].tr.txCommit = some c' ∧
        c'.kind = c.kind ∧ sameFmt c'.desc c.desc = true ∧ dGen c'.desc = (dGen t.txFmt + 1) % 16 ∧ c'.scheduled = false)

/-- HOST_LANE_CONFIG completes (R262, R263, R284): every addressed lane takes words 1 to 3; without TRAIN_EN it takes the
static taps and its training state is 0; a change of RATE, MLSD or RX_INV restarts its adaptation. No other lane
changes. -/
def Claims.HostLaneConfigCompletes : Prop :=
  ∀ (rq : Req) (s : State), firstFail (laneChecks rq) = none → firstFail (laneStates rq s) = none →
    Claims.Awake 0x3001 rq s →
    ∃ u, Claims.Runs (.hostLaneConfig rq) s (reply 0x3001 rq (okay []) u) ∧ Claims.Only [.lanes, .alarms, .mbx] s u ∧
      ∀ k : HLane,
        (bit (par rq 0) k.val = true → u.lanes[k].w1 = par rq 1 ∧ u.lanes[k].w2 = par rq 2 ∧ u.lanes[k].w3 = par rq 3 ∧
          u.lanes[k].taps = (if bit (par rq 1) 25 then s.lanes[k].taps else staticTaps (par rq 2) (par rq 3)) ∧
          u.lanes[k].train = (if bit (par rq 1) 25 then s.lanes[k].train else 0) ∧
          (fld s.lanes[k].w1 31 30 ≠ pf rq 1 31 30 ∨ bit s.lanes[k].w1 26 ≠ bit (par rq 1) 26 ∨
            bit s.lanes[k].w1 28 ≠ bit (par rq 1) 28 → u.lanes[k].cdr = true ∧ alarmOn u (.host k) 1 = true)) ∧
        (bit (par rq 0) k.val = false → u.lanes[k] = s.lanes[k])

/-- HOST_TRAIN completes (R285): START and RESTART begin training on every addressed lane, START but not on one that is
training already; STOP ends a training and keeps the taps. A training that begins asks for the preset INIT_PRESET first (R264). PRBS_SET sets generator and checker of every addressed lane
(R282). -/
def Claims.HostTrainCompletes : Prop :=
  ∀ (rq : Req) (s : State),
    (Claims.Awake 0x3002 rq s → pf rq 1 29 0 = 0 → ∀ op, op = pf rq 1 31 30 → op ≤ 2 →
      (op ≠ 1 → ∀ k : HLane, bit (par rq 0) k.val = true → fld s.lanes[k].w1 31 30 = 0 ∧ bit s.lanes[k].w1 25 = true ∧
        bit s.lanes[k].w1 29 = true) →
      ∃ u, Claims.Runs (.hostTrain rq) s (reply 0x3002 rq (okay []) u) ∧ Claims.Only [.lanes] s u ∧
        ∀ k : HLane, u.lanes[k] =
          if bit (par rq 0) k.val = false then s.lanes[k]
          else if op = 1 then
            (if s.lanes[k].train = 1 ∨ s.lanes[k].train = 3 then { s.lanes[k] with train := 4 } else s.lanes[k])
          else if op = 0 ∧ s.lanes[k].train = 1 then s.lanes[k]
          else { s.lanes[k] with
            train := 1, ownReady := false, partnerReady := false, precodeRx := false, trainStart := s.sys.usec
            ansOut := .none, precodeAsked := false, atMax := 0, atMin := 0
            reqOut := if fld s.lanes[k].w1 15 8 = 0 then .none else .preset (fld s.lanes[k].w1 15 8) }) ∧
    (Claims.Awake 0xF003 rq s → pf rq 0 27 0 = 0 → pf rq 0 31 30 ≤ 2 → pf rq 0 29 28 ≤ 2 →
      (∀ k : HLane, bit (par rq 1) k.val = true → laneLooped s k = false ∧
        (pf rq 0 31 30 = 0 ∨ laneClient s k = none)) →
      ∃ u, Claims.Runs (.prbsSet rq) s (reply 0xF003 rq (okay []) u) ∧ Claims.Only [.lanes, .free] s u ∧
        ∀ k : HLane, (bit (par rq 1) k.val = false → u.lanes[k] = s.lanes[k]) ∧
          (bit (par rq 1) k.val = true → u.lanes[k].prbsGen.toNat = pf rq 0 31 30 ∧
            u.lanes[k].prbsChk.toNat = pf rq 0 29 28 ∧ u.lanes[k].w1 = s.lanes[k].w1 ∧
            (s.lanes[k].prbsChk.toNat ≠ pf rq 0 29 28 → u.lanes[k].prbsLock = false)))

/-- HOST_STATUS reports six words and HOST_PM_READ writes thirty (R13, R286, R287); both are device-wide reports. What only
the receiver measures is free: HOST_STATUS takes a free value, HOST_PM_READ two for the counts of a locked checker, of which
the errors do not exceed the bits (R282). -/
def Claims.HostReportsComplete : Prop :=
  ∀ (rq : Req) (s : State),
    let k : HLane := Fin.ofNat 32 (pf rq 0 31 27)
    (Claims.Awake 0x3003 rq s → pf rq 0 26 0 = 0 → ∃ ws, ws.length = 6 ∧ ws[2]? = some s.lanes[k].preFec ∧
      fld (ws.getD 0 0) 31 30 = fld s.lanes[k].w1 31 30 ∧ fld (ws.getD 0 0) 26 24 = s.lanes[k].train.toNat ∧
      bit (ws.getD 0 0) 29 = !s.lanes[k].los ∧ bit (ws.getD 0 0) 28 = !s.lanes[k].cdr ∧
      Claims.Reports (.hostStatus rq) .device 0x3003 rq (tookFree (reply 0x3003 rq (okay ws) s)) s) ∧
    (Claims.Awake 0x3004 rq s → pf rq 0 26 24 = 0 → pf rq 0 23 0 + 30 ≤ bulkWords →
      ∃ ws u, ws.length = 30 ∧ (ws.drop 4).take 4 = [s.lanes[k].losEvt, s.lanes[k].cdrLoss, s.lanes[k].trainFail, s.lanes[k].trainDone] ∧
        Claims.Reports (.hostPmRead rq) .device 0x3004 rq (reply 0x3004 rq (okay [30]) (putBulk (pf rq 0 23 0) ws u)) s ∧
        (s.lanes[k].prbsChk = 0 ∨ s.lanes[k].prbsLock = false → u = s) ∧
        (s.lanes[k].prbsChk ≠ 0 → s.lanes[k].prbsLock = true → ∃ n e : Nat, e ≤ n ∧
          u = tookFree (tookFree (modLane k (fun l => { l with
            prbsErr := l.prbsErr + BitVec.ofNat 64 e, prbsBits := l.prbsBits + BitVec.ofNat 64 n }) s))))

/-- The host lane commands and reports: `Claims.HostLaneConfigCompletes` and `Claims.HostTrainCompletes` and `Claims.HostReportsComplete`. -/
def Obligations.HostCommandsComplete : Prop := Claims.HostLaneConfigCompletes ∧ Claims.HostTrainCompletes ∧ Claims.HostReportsComplete

/-- The events of a host lane (R261, R264, R265, R272, R282). A training frame has the partner's request answered and the next
own request chosen (`trainRequest`, `nextRequest`): a request for nothing is answered with nothing, one for precoding is
carried out and answered as updated, and a tap that would break its limits stays and is answered as at its limit. -/
def Claims.LaneEventsComplete : Prop :=
  ∀ (k : HLane) (s : State),
    let l := s.lanes[k]
    (∃ t, Claims.Runs (.hostLos k) s t ∧ t.lanes[k].los = true ∧ alarmOn t (.host k) 0 = true ∧
      t.lanes[k].losEvt = (if l.los then l.losEvt else l.losEvt + 1) ∧ Claims.Only [.lanes, .alarms, .mbx] s t) ∧
    (bit l.w1 23 = false → ∃ t, Claims.Runs (.hostLosClear k) s t ∧ t.lanes[k].los = false ∧
      alarmOn t (.host k) 0 = false ∧ Claims.Only [.lanes, .alarms, .mbx] s t) ∧
    (∃ t, Claims.Runs (.hostCdr k) s t ∧ t.lanes[k].cdr = true ∧ alarmOn t (.host k) 1 = true ∧
      t.lanes[k].cdrLoss = (if l.cdr then l.cdrLoss else l.cdrLoss + 1) ∧ Claims.Only [.lanes, .alarms, .mbx] s t) ∧
    (∃ t, Claims.Runs (.hostCdrClear k) s t ∧ t.lanes[k].cdr = false ∧ alarmOn t (.host k) 1 = false ∧
      t.lanes[k].cdrLoss = l.cdrLoss ∧ Claims.Only [.lanes, .alarms, .mbx] s t) ∧
    (∀ raised, Claims.Runs (.hostFecDeg k raised) s (setAlarm (.host k) 3 raised s)) ∧
    (∀ locked, ∃ t, Claims.Runs (.prbsLock k locked) s t ∧ t.lanes[k].prbsLock = (locked && l.prbsChk != 0) ∧
      t.lanes[k].prbsGen = l.prbsGen ∧ t.lanes[k].prbsChk = l.prbsChk ∧ Claims.Only [.lanes, .free] s t ∧
      (l.prbsChk = 0 ∨ l.prbsLock = false → t.lanes[k].prbsErr = l.prbsErr ∧ t.lanes[k].prbsBits = l.prbsBits)) ∧
    (∀ (r : TrainReq) (ans : TrainAns) (ready : Bool), l.train = 1 →
      (l.ownReady = false ∨ (l.partnerReady = false ∧ ready = false)) →
      Claims.Runs (.hostTrainingFrame k (r, ans) ready) s (tookFree (modLane k (fun l =>
        nextRequest ans (Config.freeNat s.free) { trainRequest r l with partnerReady := l.partnerReady || ready }) s))) ∧
    (∀ (i : Fin 6) (on : Bool), trainRequest .none l = { l with ansOut := .none } ∧
      trainRequest (.precode on) l = { l with precodeTx := on, ansOut := .updated } ∧
      (64 < tapSum (vset l.taps i (l.taps[i] + Config.tapStep i.val)) → trainRequest (.inc i) l = { l with ansOut := .atLimit })) ∧
    (l.train = 1 → l.partnerReady = false →
      Claims.Runs (.hostReceiverReady k) s (modLane k (fun l => { l with ownReady := true, reqOut := .none }) s)) ∧
    (l.train = 1 → l.partnerReady = true → ∃ t, Claims.Runs (.hostReceiverReady k) s t ∧ t.lanes[k].train = 2 ∧
      t.lanes[k].trainDone = l.trainDone + 1 ∧ alarmOn t (.host k) 4 = false) ∧
    (l.train = 1 → ∃ t, Claims.Runs (.hostTrainFail k) s t ∧ t.lanes[k].train = 3 ∧
      t.lanes[k].trainFail = l.trainFail + 1 ∧ alarmOn t (.host k) 4 = true) ∧
    (l.train = 3 → Claims.Runs (.hostTrainRetry k) s (modLane k (fun l => { l with
      train := 1, ownReady := false, partnerReady := false, precodeRx := false, trainStart := s.sys.usec
      ansOut := .none, precodeAsked := false, atMax := 0, atMin := 0
      reqOut := if fld l.w1 15 8 = 0 then .none else .preset (fld l.w1 15 8) }) s))

/-- The events of a client (R267 to R270): alignment follows the lanes and its loss raises HOST_ALIGN on each of them (R457);
the egress buffer starts for a client whose receive side is in force, has not failed and sees the type and the lead that it
is configured with; a slip restarts it and counts. -/
def Claims.ClientEventsComplete : Prop :=
  ∀ (k : HLane) (s : State),
    (∀ aligned c, clientAt s k = some c → ∃ t, Claims.Runs (.hostAlign k aligned) s t ∧
      t.map.clients = s.map.clients.map (fun c => if c.first == k then { c with aligned := aligned } else c) ∧
      (∀ i ∈ clientLanes s c, aligned = false → alarmOn t (.host i) 2 = true) ∧ Claims.Only [.map, .alarms, .mbx] s t) ∧
    (∃ t, Claims.Runs (.egressBufferStart k) s t ∧
      t.map.clients = s.map.clients.map (fun c =>
        if c.first == k && c.rxOn && !c.rxFail && !clientDiffers s c then { c with egress := true } else c) ∧
      Claims.Only [.map] s t) ∧
    (∃ t, Claims.Runs (.egressSlip k) s t ∧ t.map.clients = s.map.clients.map (fun c =>
      if c.first == k && c.egress then
        { c with egress := false, slipped := true, cnt := { c.cnt with egressSlip := c.cnt.egressSlip + 1 } }
      else c) ∧ Claims.Only [.map] s t)

/-- The events of host lanes and clients: `Claims.LaneEventsComplete` and `Claims.ClientEventsComplete`. -/
def Obligations.HostEventsComplete : Prop := Claims.LaneEventsComplete ∧ Claims.ClientEventsComplete

/-- MAP_CLIENT_ADD and MAP_CLIENT_REMOVE complete (R280, R281, R288, R289). Off TRAFFIC a client enters whole, or leaves
whole. In TRAFFIC the receive side acts at once and the transmit side is an EXACT event 64 superframes ahead of
TX(LPn). -/
def Claims.MapCommandsComplete : Prop :=
  ∀ (rq : Req) (s : State),
    (∀ p, p = addPort rq.params → Claims.Awake 0x5001 rq s → firstFail (mapAddChecks rq.params) = none →
      let c : Client := { type := BitVec.ofNat 3 (pf rq 0 31 29), first := addLane rq.params, port := p
                          slots := BitVec.ofNat 16 (pf rq 0 15 0), txOn := true, rxOn := true }
      (s.ports[p].tr.state ≠ .traffic → firstFail (mapAddStates rq.params 0 s) = none →
        ∃ u x, Claims.Runs (.mapClientAdd rq) s (reply 0x5001 rq (okay []) u) ∧ u.map.clients = s.map.clients ++ [x] ∧
          { x with rxFail := c.rxFail, egress := c.egress } = c ∧ (∀ i ∈ clientLanes s c, alarmOn u (.host i) 2 = true) ∧
          Claims.Only [.map, .alarms, .mbx] s u) ∧
      (s.ports[p].tr.state = .traffic → firstFail (mapAddStates rq.params 64 s) = none → poolFull s = false →
        rq.src ≠ .blob →
        ∃ u x e, Claims.Runs (.mapClientAdd rq) s (taken rq u) ∧ u.map.clients = s.map.clients ++ [x] ∧ x.first = c.first ∧
          x.txOn = false ∧ x.rxOn = true ∧ u.dial.evs = s.dial.evs ++ [e] ∧ e.ref = txRef p ∧ e.exact = true ∧
          e.target = refCount s (txRef p) + 64 ∧ e.implicit = some rq)) ∧
    (∀ c, Claims.Awake 0x5002 rq s → pf rq 0 26 0 = 0 → clientAt s (removeLane rq.params) = some c → c.txOn = true →
      (s.ports[c.port].tr.state ≠ .traffic →
        ∃ u, Claims.Runs (.mapClientRemove rq) s (reply 0x5002 rq (okay []) u) ∧
          u.map.clients = s.map.clients.filter (fun x => x.first != removeLane rq.params) ∧
          Claims.Only [.map, .alarms, .mbx] s u) ∧
      (s.ports[c.port].tr.state = .traffic → poolFull s = false → rq.src ≠ .blob →
        ∃ u e, Claims.Runs (.mapClientRemove rq) s (taken rq u) ∧ clientAt u (removeLane rq.params) = none ∧
          u.dial.evs = s.dial.evs ++ [e] ∧ e.ref = txRef c.port ∧ e.exact = true ∧ e.opcode = 0x5002 ∧
          e.implicit = some rq)) ∧
    (Claims.Awake 0x5004 rq s → pf rq 0 29 0 = 0 → ∃ ws, ws.length = 10 ∧
      ws[9]? = some s.ports[pport rq 0].tr2.groomBlocked ∧
      (∀ i : Fin 16, (if i.val % 2 = 0 then fld (ws.getD (i.val / 2) 0) 31 16 else fld (ws.getD (i.val / 2) 0) 15 0) / 32768 =
        b2n (s.map.clients.any fun c => c.port == pport rq 0 && c.slots.getLsbD i.val)) ∧
      Claims.Reports (.mapStatus rq) (.port (pport rq 0)) 0x5004 rq (reply 0x5004 rq (okay ws) s) s)

/-- MAP_REGEN_PAIR completes (R19, R138, R254): with both ports in DOWN or MUTED the pair takes its role and both ports
their drop masks; a pair that becomes regenerating with both ports in one group loses the higher port's declaration, has
C_LAT 24 on both (R195), one symbol rate (R21; that it is the smaller is the model's choice, log entry 145) and no client
outside its drop masks (R22, R23). A mask of a port in TRAFFIC that changes is scheduled and the reply is ACCEPTED; with no
room for it the reply is RESOURCE and nothing changes, which is the model's choice (log entry 92). -/
def Claims.MapRegenCompletes : Prop :=
  ∀ (rq : Req) (s : State), Claims.Awake 0x5003 rq s → pf rq 0 29 0 = 0 → (bit (par rq 0) 30 = true ∨ par rq 1 = 0) →
    let p := pairLow rq.params
    let still := fun (q : LPort) => s.ports[q].tr.state = .down ∨ s.ports[q].tr.state = .muted
    (still p → still (mate p) →
      ∃ u, Claims.Runs (.mapRegenPair rq) s (reply 0x5003 rq (okay []) u) ∧ regen u p = bit (par rq 0) 30 ∧
        dropMask u p = pf rq 1 31 16 ∧ dropMask u (mate p) = pf rq 1 15 0 ∧
        (regen s p = false → bit (par rq 0) 30 = true → s.ports[p].nlc.group ≠ 0 →
          s.ports[mate p].nlc.group = s.ports[p].nlc.group → u.ports[mate p].nlc.group = 0) ∧
        (regen s p = false → bit (par rq 0) 30 = true → ∀ q, q = p ∨ q = mate p →
          u.ports[q].tr.rate.toNat = min s.ports[p].tr.rate.toNat s.ports[mate p].tr.rate.toNat ∧
          u.pool.ports[q].cLat = 24 ∧
          ∀ c ∈ u.map.clients, c.port = q → ∀ i : Fin 16, c.slots.getLsbD i.val = true → dropMask u q / 2 ^ i.val % 2 = 1)) ∧
    (regen s p = bit (par rq 0) 30 → s.ports[p].tr.state = .traffic → pf rq 1 31 16 ≠ dropMask s p →
      pf rq 1 15 0 = dropMask s (mate p) → poolFull s = true →
      Claims.Runs (.mapRegenPair rq) s (reply 0x5003 rq { st := .resource } s)) ∧
    (regen s p = bit (par rq 0) 30 → s.ports[p].tr.state = .traffic → pf rq 1 31 16 ≠ dropMask s p →
      pf rq 1 15 0 = dropMask s (mate p) → poolFull s = false →
      ∃ u e, Claims.Runs (.mapRegenPair rq) s (reply 0x5003 rq { st := .accepted } u) ∧ u.dial.evs = s.dial.evs ++ [e] ∧
        e.ref = rxRef p ∧ e.exact = true ∧ e.opcode = 0x5003 ∧ e.target = refCount s (rxRef p) + 64 ∧
        dropMask u p = dropMask s p)

/-- The mapping commands: `Claims.MapCommandsComplete` and `Claims.MapRegenCompletes`. -/
def Obligations.MapCommandsComplete : Prop := Claims.MapCommandsComplete ∧ Claims.MapRegenCompletes

/-- The FEC commands complete (R209 to R212): FEC_MODE_SET sets the FEC of the working formats of the selected directions
outside TRAIN, TRAFFIC and HOLDOVER; FEC_POOL_POLICY sets floors, ceilings and reserve, and tells when a ceiling lies
above what a port latched; FEC_STATUS reports five words of a port or twelve of the pool; FEC_PM_READ writes 45 or 74
words; with POOL a report is device-wide (R13). -/
def Obligations.FecCommandsComplete : Prop :=
  ∀ (rq : Req) (s : State),
    let p := pport rq 0
    (Claims.Awake 0x4001 rq s → pf rq 0 25 0 = 0 → pf rq 0 27 26 ≠ 3 → pf rq 0 29 28 ≠ 0 → inService s p = false →
      (2 ≤ pf rq 0 29 28 → topSlot (mustCarry s p) ≤ slotsCarried (withFec s.ports[p].tr.txFmt (pf rq 0 27 26))) →
      Claims.Runs (.fecModeSet rq) s (reply 0x4001 rq (okay []) (modTr p (fun t => { t with
        rxFmt := if bit (par rq 0) 28 then withFec t.rxFmt (pf rq 0 27 26) else t.rxFmt
        txFmt := if bit (par rq 0) 29 then withFec t.txFmt (pf rq 0 27 26) else t.txFmt }) s))) ∧
    (∀ lo hi, Claims.Awake 0x4002 rq s → lo = pf rq 1 31 27 → hi = pf rq 1 26 22 → 4 ≤ lo → lo ≤ hi → hi ≤ 24 →
      pf rq 0 22 0 = 0 → pf rq 1 21 0 = 0 → pf rq 0 31 27 ≠ 0 →
      ∃ u b, Claims.Runs (.fecPoolPolicy rq) s (reply 0x4002 rq (okFlags (b2n b)) u) ∧ Claims.Only [.pool] s u ∧
        (b = true ↔ ∃ q : LPort, bit (par rq 0) (28 + q.val) = true ∧ s.pool.ports[q].cLat.toNat < hi) ∧
        u.pool.reserve.toNat = (if bit (par rq 0) 27 then pf rq 0 26 23 else s.pool.reserve.toNat) ∧
        ∀ q : LPort, u.pool.ports[q] = if bit (par rq 0) (28 + q.val)
          then { s.pool.ports[q] with floor := BitVec.ofNat 5 lo, ceilMax := BitVec.ofNat 5 hi } else s.pool.ports[q]) ∧
    (pf rq 0 28 0 = 0 → bit (par rq 0) 29 = false → ∃ ws, ws.length = 5 ∧
      fld (ws.getD 0 0) 27 23 = s.pool.ports[p].ceil.toNat ∧ fld (ws.getD 0 0) 12 8 = s.pool.ports[p].cLat.toNat ∧
      bit (ws.getD 0 0) 7 = s.pool.ports[p].inPool ∧
      Claims.Reports (.fecStatus rq) (.port p) 0x4003 rq (reply 0x4003 rq (okay ws) s) s) ∧
    (pf rq 0 28 0 = 0 → bit (par rq 0) 29 = true → ∃ ws, ws.length = 12 ∧ ws[2]? = some (wd s.pool.capacity) ∧
      ws[3]? = some (wd s.pool.need) ∧ Claims.Reports (.fecStatus rq) .device 0x4003 rq (reply 0x4003 rq (okay ws) s) s) ∧
    (pf rq 0 28 24 = 0 → bit (par rq 0) 29 = false → pf rq 0 23 0 + 45 ≤ bulkWords → ∃ ws, ws.length = 45 ∧
      ws.take 2 = two s.pool.ports[p].cwTotal ∧ Claims.Reports (.fecPmRead rq) (.port p) 0x4004 rq
        (reply 0x4004 rq (okay [45]) (putBulk (pf rq 0 23 0) ws s)) s) ∧
    (pf rq 0 28 24 = 0 → bit (par rq 0) 29 = true → pf rq 0 23 0 + 74 ≤ bulkWords → ∃ ws, ws.length = 74 ∧
      (ws.drop 64).take 6 = [s.pool.fenceEvt, s.pool.redispatch, s.pool.katFail, s.pool.watchdog, s.pool.engEcc, s.pool.throttle] ∧
      Claims.Reports (.fecPmRead rq) .device 0x4004 rq (reply 0x4004 rq (okay [74]) (putBulk (pf rq 0 23 0) ws s)) s)

/-- BALANCE_CYCLE and its alarms (R199, R200, R202): while MAP is ON the cycle computes capacity and need, every pool
port's ceiling lies between its floor, as far as its limit allows, and its limit, and counts short cycles; after 4
consecutive short cycles FEC_STARVED is raised for the pool's ports (while it stands already, for those that have been short
for 4 cycles themselves) and after 16 clear ones it ends on every port. -/
def Claims.BalanceEventsComplete : Prop :=
  ∀ (s : State),
    (isOn s .map = true → s.map.stopped = false → ∃ t, Claims.Runs .balanceCycle s t ∧ Claims.Only [.pool] s t ∧
      t.pool.shortRun = (if t.pool.short then s.pool.shortRun + 1 else 0) ∧
      t.pool.clearRun = (if t.pool.short then 0 else s.pool.clearRun + 1) ∧
      t.pool.capacity = capacity100 s (fun _ => true) / 100 ∧ t.pool.engines = s.pool.engines ∧
      ∀ p : LPort,
        (s.pool.ports[p].inPool = true →
          t.pool.ports[p].ceil.toNat ≤ min s.pool.ports[p].ceilMax.toNat s.pool.ports[p].cLat.toNat ∧
          min s.pool.ports[p].floor.toNat (min s.pool.ports[p].ceilMax.toNat s.pool.ports[p].cLat.toNat) ≤ t.pool.ports[p].ceil.toNat ∧
          t.pool.ports[p].starved = (if t.pool.short then s.pool.ports[p].starved + 1 else s.pool.ports[p].starved)) ∧
        (s.pool.ports[p].inPool = false → t.pool.ports[p] = s.pool.ports[p])) ∧
    (4 ≤ s.pool.shortRun → ∃ t, Claims.Runs .fecStarved s t ∧ Claims.Only [.alarms, .mbx] s t ∧
      ∀ p : LPort, s.pool.ports[p].inPool = true →
        4 ≤ s.pool.ports[p].shortRun ∨ (∀ q : LPort, alarmOn s (.line q) 9 = false) → alarmOn t (.line p) 9 = true) ∧
    (16 ≤ s.pool.clearRun → ∃ t, Claims.Runs .fecStarvedClear s t ∧ Claims.Only [.alarms, .mbx] s t ∧
      ∀ p : LPort, alarmOn t (.line p) 9 = false)

/-- The engines' health and the scrubber (R204 to R206, R215): throttling lowers the speed by a quarter and restoring
raises it; a watchdog, a failed known-answer test and an uncorrectable word fence the engine and count. A scrub pass reads
the two interleaved words of a row: up to 32 adjacent cells are corrected in both, and 34 to 48 are found uncorrectable in
both (R214, R216); LLRs of a buffer word that is uncorrectable become erasures (R215). In reset no pass runs. -/
def Claims.EngineEventsComplete : Prop :=
  ∀ (e : Engine) (s : State),
    (isOn s (.fq (quadOf e)) = true → 1 < s.pool.engines[e].speed → ∃ t, Claims.Runs (.engineThrottle e) s t ∧
      t.pool.engines[e] = { s.pool.engines[e] with speed := s.pool.engines[e].speed - 1 } ∧
      t.pool.throttle = s.pool.throttle + 1 ∧ Claims.Only [.pool] s t) ∧
    (isOn s (.fq (quadOf e)) = true → s.pool.engines[e].speed < 4 →
      Claims.Runs (.engineSpeedRestore e) s (modEng e (fun x => { x with speed := x.speed + 1 }) s)) ∧
    (s.pool.engines[e].running.isSome = true → s.pool.engines[e].fenced = false →
      ∃ t, Claims.Runs (.watchdog e) s t ∧ t.pool.engines[e].fenced = true ∧
      t.pool.engines[e].running = none ∧ t.pool.engines[e].staged = none ∧ t.pool.watchdog = s.pool.watchdog + 1 ∧
      t.pool.fenceEvt = s.pool.fenceEvt + 1 ∧ alarmOn t .pool 0 = true) ∧
    (engineUp s e = true → (∃ t, Claims.Runs (.katRun e false) s t ∧ t.pool.engines[e].fenced = true ∧
      t.pool.katFail = s.pool.katFail + 1) ∧ Claims.Runs (.katRun e true) s s) ∧
    (isOn s (.fq (quadOf e)) = true → s.pool.engines[e].testing = true →
      Claims.Runs (.knownAnswerTestDone e true) s (modEng e (fun x => { x with testing := false }) s) ∧
      ∃ t, Claims.Runs (.knownAnswerTestDone e false) s t ∧ t.pool.engines[e].fenced = true ∧
        t.pool.engines[e].testing = false ∧ t.pool.katFail = s.pool.katFail + 1) ∧
    (s.sys.inReset = true → ∀ l b, Claims.Runs (.scrubPass l b) s s) ∧
    (s.sys.inReset = false → Claims.Runs (.scrubPass [] []) s (modPool (fun x => { x with scrubs := x.scrubs + 1 }) s)) ∧
    (∀ n : Nat, s.sys.inReset = false → isOn s (.fq (quadOf e)) = true → 2 ≤ n → n ≤ 32 →
      ∃ t, Claims.Runs (.scrubPass [(.engine e, n)] []) s t ∧ t.pool.eccCorr = s.pool.eccCorr + 2 ∧
        t.pool.scrubs = s.pool.scrubs + 1 ∧ t.pool.engines = s.pool.engines ∧ Claims.Only [.pool, .free] s t) ∧
    (∀ n : Nat, s.sys.inReset = false → isOn s (.fq (quadOf e)) = true → 34 ≤ n → n ≤ 48 →
      ∃ t, Claims.Runs (.scrubPass [(.engine e, n)] []) s t ∧ t.pool.engines[e].fenced = true ∧
        t.pool.eccDetect = s.pool.eccDetect + 2 ∧ t.pool.engEcc = s.pool.engEcc + 2 ∧ t.pool.scrubs = s.pool.scrubs + 1) ∧
    (∀ (p : LPort) (id : Nat) (l : List Nat) (n : Nat), s.sys.inReset = false → isOn s .map = true → 34 ≤ n → n ≤ 48 →
      ∃ t, Claims.Runs (.scrubPass [(.softLlr p id l, n)] []) s t ∧ t.pool.eccDetect = s.pool.eccDetect + 2 ∧
        Claims.Only [.pool, .free] s t ∧ ∀ o ∈ t.pool.ports[p].openSfs, o.id = id → ∀ i ∈ l, o.llr.getD i 0 = 0)

/-- BALANCE and the decoder engines: `Claims.BalanceEventsComplete` and `Claims.EngineEventsComplete`. -/
def Obligations.PoolEventsComplete : Prop := Claims.BalanceEventsComplete ∧ Claims.EngineEventsComplete

/-- Dispatch and decoding (R191 to R193, R197, R203, R215). A dispatch hands the first ready codeword to the chosen engine at
the port's ceiling, never above C_LAT (R195), and changes nothing else in that engine's queue; a repeated one counts
REDISPATCH (R205). An engine that completes starts its staged codeword and counts; a word of its own memory that its read
corrects counts, and one that it cannot correct fences it instead. At its deadline the oldest ready superframe of a port
leaves the buffer, and its incomplete codewords count as missed. -/
def Obligations.DecodeEventsComplete : Prop :=
  ∀ (s : State),
    (∀ r e, isOn s .map = true → s.map.stopped = false → firstReady (readyList s) = some r → pickEngine s = some e →
      ∃ t job, Claims.Runs .codewordDispatch s t ∧ Claims.Only [.pool] s t ∧ job.port = r.port ∧ job.sf = r.sf ∧
        job.cw = r.cw ∧ job.ceil = min s.pool.ports[r.port].ceil.toNat s.pool.ports[r.port].cLat.toNat ∧
        t.pool.redispatch = (if r.again then s.pool.redispatch + 1 else s.pool.redispatch) ∧
        (s.pool.engines[e].running = none → t.pool.engines[e] = { s.pool.engines[e] with running := some job }) ∧
        (s.pool.engines[e].running ≠ none → t.pool.engines[e] = { s.pool.engines[e] with staged := some job }) ∧
        ∀ e', e' ≠ e → t.pool.engines[e'] = s.pool.engines[e']) ∧
    (∀ e j o, s.pool.engines[e].running = some j → s.pool.engines[e].fenced = false → o.bursts = [] →
      ∃ t, Claims.Runs (.engineComplete e o) s t ∧
      Claims.Only [.pool] s t ∧ t.pool.engines[e] = { s.pool.engines[e] with
        running := s.pool.engines[e].staged, staged := none, cw := s.pool.engines[e].cw + 1 }) ∧
    (∀ e j o b n, s.pool.engines[e].running = some j → s.pool.engines[e].fenced = false → o.bursts = [(b, n)] → 1 ≤ n →
      n ≤ 16 → ∃ t, Claims.Runs (.engineComplete e o) s t ∧ Claims.Only [.pool, .free] s t ∧
        t.pool.eccCorr = s.pool.eccCorr + 1 ∧ t.pool.engines[e] = { s.pool.engines[e] with
          running := s.pool.engines[e].staged, staged := none, cw := s.pool.engines[e].cw + 1 }) ∧
    (∀ e j o n, s.pool.engines[e].running = some j → s.pool.engines[e].fenced = false → o.bursts = [(none, n)] → 16 < n →
      n ≤ 24 → ∃ t, Claims.Runs (.engineComplete e o) s t ∧ t.pool.engines[e].fenced = true ∧
        t.pool.engines[e].running = none ∧ t.pool.engEcc = s.pool.engEcc + 1 ∧
        t.pool.eccDetect = s.pool.eccDetect + 1 ∧ t.pool.fenceEvt = s.pool.fenceEvt + 1) ∧
    (∀ (p : LPort) (n : Nat) o, s.pool.ports[p].openSfs.find? (·.ready) = some o →
      (∀ a ∈ s.pool.ports[p].openSfs, ∀ b ∈ s.pool.ports[p].openSfs, a.id = b.id → a = b) →
      ∃ t, Claims.Runs (.decodeDeadline p n) s t ∧ Claims.Only [.pool, .free] s t ∧
        (∀ x ∈ t.pool.ports[p].openSfs, x.id ≠ o.id) ∧
        t.pool.ports[p].deadlineMiss = s.pool.ports[p].deadlineMiss +
          wd ((List.range o.count).filter fun j => !o.complete.contains j).length ∧
        t.pool.ports[p].lastClosedFmt = o.fmt)

/-- DIAL_SCHEDULE completes when every check of R310 passes, no domain that the event needs is on its way down and the
pool has room: the event is entered pending (held when its reference is invalid and it cannot fall back) with a pool
entry that was not in use, DIAL_ENTERED counts, and the reply is ACCEPTED with the EVENT_ID and the target. Without room
it answers RESOURCE and DIAL_FULL counts (R294, R295, R301, R303, R310). -/
def Claims.DialScheduleCompletes : Prop :=
  ∀ (rq : Req) (s : State), firstFail (schedChecks rq s) = none →
    let e := schedEvent rq s
    (∀ d ∈ eventNeeds s e, inDown s d = false) →
    (poolRefuses rq.stamp s = true → ∃ u, Claims.Runs (.dialSchedule rq) s (reply 0x6001 rq { st := .resource } u) ∧
      u.dial = { s.dial with counters := vmod s.dial.counters 7 (· + 1) } ∧ Claims.Only [.dial] s u) ∧
    (poolRefuses rq.stamp s = false → (refValid s e.ref = true ∨ e.fallback = false) →
      ∃ u x, Claims.Runs (.dialSchedule rq) s
          (reply 0x6001 rq { st := .accepted, payload := [x.id, wd (psHi e.target), wd (psLo e.target * 65536)] } u) ∧
        u.dial.evs = s.dial.evs ++ [x] ∧ { x with idx := 0, use := 0, seq := 0, phase := .pending } = e ∧
        x.phase = (if refValid s e.ref then .pending else .held) ∧ (∀ y ∈ s.dial.evs, y.idx ≠ x.idx) ∧
        x.idx < 65536 ∧ u.dial.counters[0] = s.dial.counters[0] + 1 ∧ u.free = s.free + 1 ∧ Claims.Only [.dial, .free] s u)

/-- DIAL_CANCEL removes the events that it names, counts each as DIAL_CANCELLED and replies their number; DIAL_LIST writes
five words for each listed event and DIAL_TIME reports five words; DIAL_CONFIG sets what it selects at once and reports
the settings, the number of events that wait and the ten counters (R311 to R314). The reports of the list and of DIAL_CONFIG
are device-wide and that of DIAL_TIME is about its port (R13). -/
def Claims.DialCommandsComplete : Prop :=
  ∀ (rq : Req) (s : State),
    (pf rq 0 31 30 ≠ 3 → pf rq 0 26 0 = 0 → (pf rq 0 31 30 = 0 ∨ par rq 1 = 0) →
      (pf rq 0 31 30 = 0 → cancelSet rq s ≠ []) → isHost rq.stamp = true →
      ∃ u, Claims.Runs (.dialCancel rq) s (reply 0x6002 rq (okay [wd (cancelSet rq s).length]) u) ∧
        (∀ e ∈ cancelSet rq s, ∀ x ∈ u.dial.evs, x.idx ≠ e.idx) ∧
        u.dial.counters[5] = s.dial.counters[5] + wd (cancelSet rq s).length) ∧
    (pf rq 0 31 24 = 0 → 0 < pf rq 1 15 0 → pf rq 1 15 0 ≤ 4096 → pf rq 0 23 0 + 5 * pf rq 1 15 0 ≤ bulkWords →
      ∃ out : List DialEv, (∀ e ∈ out, e ∈ s.dial.evs ∧ e.waits = true) ∧ out.Pairwise (fun a b => a.idx ≤ b.idx) ∧
        out.length = min (pf rq 1 15 0) (s.dial.evs.countP (·.waits) - pf rq 1 31 16) ∧
        Claims.Reports (.dialList rq) .device 0x6003 rq (reply 0x6003 rq
          (okay [wd out.length, wd (s.dial.evs.countP (·.waits))])
          (putBulk (pf rq 0 23 0) (out.flatMap eventWords) s)) s) ∧
    (pf rq 0 30 27 ≤ 12 → pf rq 0 25 11 ≤ 16384 → pf rq 0 10 0 = 0 →
      (bit (par rq 0) 31 = true → pf rq 0 30 27 = s.dial.strideLog2 ∨ s.dial.evs.countP (·.waits) = 0) →
      let d := { s.dial with strideLog2 := if bit (par rq 0) 31 then pf rq 0 30 27 else s.dial.strideLog2
                             remoteMax := if bit (par rq 0) 26 then pf rq 0 25 11 else s.dial.remoteMax }
      let u := { s with dial := d }
      (isOn s (.ld (refPort (deviceRef s))) = false → Claims.Runs (.dialConfig rq) s
        (reply 0x6004 rq (okay (word [(31, 28, d.strideLog2), (27, 13, d.remoteMax)] ::
          wd (s.dial.evs.countP (·.waits)) :: s.dial.counters.toList)) u)) ∧
      (isOn s (.ld (refPort (deviceRef s))) = true → Claims.Runs (.dialConfig rq) s (taken rq (modSys (fun y => { y with
        reports := y.reports ++ [{ at_ := .device, opcode := 0x6004, rq := rq }] }) u)))) ∧
    (pf rq 0 29 0 = 0 → ∃ ws, ws.length = 5 ∧ ws.take 1 = [wd (psHi (refCount s (rxRef (pport rq 0))))] ∧
      bit (ws.getD 1 0) 15 = s.ports[pport rq 0].sf.lock ∧ ws[4]? = some (wd (sfPs s.ports[pport rq 0].tr.rate.toNat)) ∧
      Claims.Reports (.dialTime rq) (.port (pport rq 0)) 0x6005 rq (reply 0x6005 rq (okay ws) s) s)

/-- The Dial commands: `Claims.DialScheduleCompletes` and `Claims.DialCommandsComplete`. -/
def Obligations.DialCommandsComplete : Prop := Claims.DialScheduleCompletes ∧ Claims.DialCommandsComplete

/-- DIAL_STAGE hands a pending EXACT event of a valid reference, at most 64 superframes before its target, to its core
(R299, R300): when every check passes the event is staged with the bulk data it read, and nothing else changes; when
its parameters fail, the event leaves the pool and nothing of the ports changes. -/
def Claims.DialStageCompletes : Prop :=
  ∀ (i : Nat) (done : Bool) (s : State) (e : DialEv), s.dial.evs.find? (·.idx == i) = some e → e.exact = true →
    e.kind = .stored → coreTakes e s = true → e.phase = .pending → refValid s e.ref = true →
    psfnDiff e.target (refCount s e.ref) ≤ 64 → storedRefused e s = false → storedGate e s = none →
    (firstFail (stageChecks e (stageData e s) s) = none →
      (∀ d ∈ needsOf e.opcode.toNat e.params, isOn s d = true ∧ inDown s d = false) →
      firstFail (stageStates e (stageData e s) s) = none →
      ∃ t, Claims.Runs (.dialStage i done) s t ∧ t.dial.evs = s.dial.evs.map (fun x =>
        if x.idx == i then { x with phase := .staged, stagingDone := done, data := stageData e s } else x) ∧
        Claims.Only [.dial] s t) ∧
    (firstFail (stageChecks e (stageData e s) s) ≠ none →
      ∃ t, Claims.Runs (.dialStage i done) s t ∧ (∀ x ∈ t.dial.evs, x.idx ≠ i) ∧ t.ports = s.ports)

/-- DIAL_RELEASE at a boundary of an invalid reference, with nothing exchanged, does nothing (R293). An EXACT event that
the boundary has exchanged completes: without a completion channel it leaves the pool, DIAL_RELEASED counts and DIAL_LATE
when it is LATE and was not deferred, and nothing of the ports changes (R301, R307). A due PROMPT event of a valid
reference whose sender has lost the permission leaves the pool unexecuted (R299). -/
def Claims.DialReleaseCompletes : Prop :=
  ∀ (r : RefCode) (s : State),
    (refValid s r = false → exchanged r s = [] → Claims.Runs (.dialRelease r) s s) ∧
    (∀ e : DialEv, exchanged r s = [e] → (refValid s r = true → dueEvents r s = []) →
      (∀ a ∈ s.dial.evs, a.idx = e.idx → a = e) → e.kind = .stored → e.implicit = none → e.compl = .none →
      ∃ t, Claims.Runs (.dialRelease r) s t ∧ (∀ x ∈ t.dial.evs, x.idx ≠ e.idx) ∧ t.ports = s.ports ∧
        t.dial.counters[1] = s.dial.counters[1] + 1 ∧
        t.dial.counters[2] = s.dial.counters[2] + if e.late = true ∧ e.deferred = false then 1 else 0) ∧
    (∀ e : DialEv, exchanged r s = [] → refValid s r = true → dueEvents r s = [e] →
      (∀ a ∈ s.dial.evs, a.idx = e.idx → a = e) → e.kind = .stored → e.exact = false → storedRefused e s = true →
      ∃ t, Claims.Runs (.dialRelease r) s t ∧ (∀ x ∈ t.dial.evs, x.idx ≠ e.idx) ∧ t.ports = s.ports ∧
        t.dial.counters[1] = s.dial.counters[1] + 1)

/-- Staging and release of Dial events: `Claims.DialStageCompletes` and `Claims.DialReleaseCompletes`. -/
def Obligations.DialEventsComplete : Prop := Claims.DialStageCompletes ∧ Claims.DialReleaseCompletes

/-- CAL_RUN completes (R317, R327, R328, R332): OP BACKGROUND starts a run of the named items with trigger COMMAND and
changes nothing else; OP FOREGROUND does so where the port may take one and its receiver then sees no signal (R319); OP
ABORT ends the run. -/
def Claims.CalRunCompletes : Prop :=
  ∀ (rq : Req) (s : State) (p : LPort), p = pport rq 0 → Claims.Awake 0x7001 rq s → pf rq 0 21 0 = 0 →
    (pf rq 0 29 28 = 0 → pf rq 0 27 22 ≠ 0 → calBusy s p = false →
      Claims.Runs (.calRun rq) s (reply 0x7001 rq (okay []) (modCal p (fun c => { c with
        run := .background, items := BitVec.ofNat 6 (pf rq 0 27 22), trigger := 5, retry := none, rotated := 0
        rejects := 0, startUsec := s.sys.usec, runT := 0, runN := 0 }) s))) ∧
    (pf rq 0 29 28 = 1 → pf rq 0 27 22 ≠ 0 → calBusy s p = false → foregroundOk s p = true →
      ∃ u, Claims.Runs (.calRun rq) s (reply 0x7001 rq (okay []) u) ∧ u.ports[p].cal.run = .foreground ∧
        u.ports[p].cal.items.toNat = pf rq 0 27 22 ∧ u.ports[p].cal.trigger = 5 ∧ u.ports[p].sf.aligned = false ∧
        u.ports[p].sf.lock = false ∧ u.ports[p].rx.running = false ∧ u.ports[p].rx.eq = .off ∧
        Claims.Only [.ports, .alarms, .mbx, .dial, .map, .pool, .jrx] s u) ∧
    (pf rq 0 29 28 = 2 → pf rq 0 27 22 = 0 → calBusy s p = true →
      ∃ u, Claims.Runs (.calRun rq) s (reply 0x7001 rq (okay []) u) ∧ u.ports[p].cal.run = .none ∧
        u.ports[p].cal.retry = none ∧ u.ports[p].cal.last = 3 ∧ u.ports[p].cal.abort = s.ports[p].cal.abort + 1 ∧
        u.ports[p].cal.working = s.ports[p].cal.working ∧ u.ports[p].cal.points = s.ports[p].cal.points ∧
        Claims.Only [.ports, .alarms, .mbx, .dial, .map, .pool, .jrx] s u)

/-- CAL_POLICY_SET completes (R326, R333): AUTO and ΔT are set; with SET_POINTS and other temperatures than those in force
every point takes its temperature and becomes invalid. D stays, and nothing but the port's Regulator changes. -/
def Claims.CalPolicyCompletes : Prop :=
  ∀ (rq : Req) (s : State) (p : LPort), p = pport rq 0 → 5 ≤ pf rq 0 27 20 → pf rq 0 27 20 ≤ 100 → pf rq 0 19 0 = 0 →
    (bit (par rq 0) 28 = true → calBusy s p = false ∧ (∀ i, i < 8 → calPointArg rq i ≤ 125) ∧
      ∀ i, i < 7 → calPointArg rq i < calPointArg rq (i + 1)) →
    ∃ u, Claims.Runs (.calPolicySet rq) s (reply 0x7002 rq (okay []) u) ∧ Claims.Only [.ports] s u ∧
      (∀ q, q ≠ p → u.ports[q] = s.ports[q]) ∧
      u.ports[p].cal.auto = bit (par rq 0) 29 ∧ u.ports[p].cal.deltaT.toNat = pf rq 0 27 20 ∧
      u.ports[p].cal.resid = s.ports[p].cal.resid ∧
      (bit (par rq 0) 28 = false ∨ (∀ i : Fin 8, s.ports[p].cal.points[i].temp = 10 * (calPointArg rq i.val : Int)) →
        u.ports[p].cal.points = s.ports[p].cal.points) ∧
      (bit (par rq 0) 28 = true → ∀ i : Fin 8, u.ports[p].cal.points[i].temp = 10 * (calPointArg rq i.val : Int) ∧
        ∀ j : Fin 8, s.ports[p].cal.points[j].temp ≠ 10 * (calPointArg rq j.val : Int) → u.ports[p].cal.points[i].valid = false)

/-- CAL_RUN and CAL_POLICY_SET: `Claims.CalRunCompletes` and `Claims.CalPolicyCompletes`. -/
def Obligations.CalSettingsComplete : Prop := Claims.CalRunCompletes ∧ Claims.CalPolicyCompletes

/-- CAL_TABLE_READ writes a block of 783 words that ends in its CRC-32C; CAL_STATUS reports twelve words, the last five of
them the counters (R13, R334, R336). -/
def Claims.CalReportsComplete : Prop :=
  ∀ (rq : Req) (s : State),
    (Claims.Awake 0x7003 rq s → pf rq 0 25 24 = 0 → pf rq 0 23 0 + 783 ≤ bulkWords →
      ∃ ws, ws.length = 783 ∧ ws[782]? = some (crc32c (ws.take 782)) ∧ fld (ws.getD 0 0) 31 24 = 1 ∧
        bit (ws.getD 0 0) 19 = bit (par rq 0) 26 ∧
        Claims.Reports (.calTableRead rq) (.port (pport rq 0)) 0x7003 rq
          (reply 0x7003 rq (okay [783]) (putBulk (pf rq 0 23 0) ws s)) s) ∧
    (pf rq 0 29 0 = 0 → let c := s.ports[pport rq 0].cal
      ∃ ws, ws.length = 12 ∧ ws.drop 7 = [c.accept, c.reject, c.abort, c.unstable, c.range] ∧
        fld (ws.getD 0 0) 31 30 = c.run.code ∧ fld (ws.getD 0 0) 29 28 = c.last.toNat ∧ bit (ws.getD 0 0) 23 = c.auto ∧
        bit (ws.getD 0 0) 25 = alarmOn s (.conv (pport rq 0)) 4 ∧
        Claims.Reports (.calStatus rq) (.port (pport rq 0)) 0x7005 rq (reply 0x7005 rq (okay ws) s) s)

/-- CAL_TABLE_WRITE completes (R326, R335). On a port that is not in TRAFFIC, INVALIDATE makes the point invalid, any other
write makes it the values of the block, valid, with T_RUN 0; D becomes 0 and the targets are evaluated again. The other
points and, while LDn is ON, the working values stay. On a port in TRAFFIC the write enters the Dial as an EXACT event 64
superframes ahead of RX(LPn) while the port has PSFN lock, else of TX(LPn), with the block as it reads now (R32). -/
def Claims.CalTableWriteCompletes : Prop :=
  ∀ (rq : Req) (s : State) (p : LPort) (i : Fin 8), p = pport rq 0 → i = Fin.ofNat 8 (pf rq 0 29 27) →
    Claims.Awake 0x7004 rq s → firstFail (calWriteChecks rq.params (calWriteData rq.params s)) = none →
    firstFail (calWriteStates rq.params (calWriteData rq.params s) s) = none →
    (s.ports[p].tr.state ≠ .traffic →
      ∃ u, Claims.Runs (.calTableWrite rq) s (reply 0x7004 rq (okay []) u) ∧ Claims.Only [.ports] s u ∧
        (bit (par rq 0) 26 = true → u.ports[p].cal.points[i] = { s.ports[p].cal.points[i] with valid := false }) ∧
        (bit (par rq 0) 26 = false → u.ports[p].cal.points[i] = { s.ports[p].cal.points[i] with
          valid := true, tRun := 0, vals := calParse (bulkRead s.bulk (pf rq 0 23 0) 783) }) ∧
        (∀ j, j ≠ i → u.ports[p].cal.points[j] = s.ports[p].cal.points[j]) ∧
        (∀ e ∈ calEntries u.ports[p].cal.resid, e.2 = 0) ∧ u.ports[p].cal.target = calTargets u.ports[p].cal ∧
        u.ports[p].cal.working = (if isOn s (.ld p) then s.ports[p].cal.working else u.ports[p].cal.target)) ∧
    (s.ports[p].tr.state = .traffic → poolFull s = false → rq.src ≠ .blob →
      ∃ e : DialEv, e.exact = true ∧ e.ref = (if s.ports[p].sf.lock then rxRef p else txRef p) ∧
        e.target = refCount s e.ref + 64 ∧ e.opcode = 0x7004 ∧ e.params = rq.params ∧
        e.data = (if bit (par rq 0) 26 then [] else bulkRead s.bulk (pf rq 0 23 0) 783) ∧ e.implicit = some rq ∧
        ∃ u, Claims.Runs (.calTableWrite rq) s (taken rq u) ∧ u.dial.evs = s.dial.evs ++ [e] ∧ u.ports = s.ports ∧
          Claims.Only [.dial, .free] s u)

/-- CAL_STATUS, CAL_TABLE_READ and CAL_TABLE_WRITE: `Claims.CalReportsComplete` and `Claims.CalTableWriteCompletes`. -/
def Obligations.CalTablesComplete : Prop := Claims.CalReportsComplete ∧ Claims.CalTableWriteCompletes

/-- The end of a run (R320, R321, R325, R330): with no item beyond its tolerance the run is accepted, the means are the
accepted values, T_LAST is the mean T over the run's evaluations in °C (of the last T where there was none, which is the
model's choice, log entry 103), CAL_UNSTABLE clears and CAL_RANGE follows; a background run leaves the working values of a
port whose LDn is ON, a foreground run applies in one step. Otherwise it is rejected, and after the third time in a row given
up. A rejected run starts again with the same items. -/
def Claims.CalRunsEnd : Prop :=
  ∀ (p : LPort) (a b : CalVals) (s : State), s.ports[p].cal.run ≠ .none →
    let c := s.ports[p].cal
    (calRejects c.items a b = 0 → ∃ t, Claims.Runs (.calRunEnd p (c.run == .foreground) a b) s t ∧
      t.ports[p].cal.run = .none ∧ t.ports[p].cal.last = 1 ∧ t.ports[p].cal.rejects = 0 ∧
      t.ports[p].cal.accept = c.accept + 1 ∧
      t.ports[p].cal.tLast = (if c.runN = 0 then rdiv c.temp 4 else rdiv c.runT (4 * c.runN)) ∧
      t.ports[p].cal.accepted = calMerge c.items c.accepted (calMap2 calValue a b) ∧
      (isOn s (.ld p) = true → t.ports[p].cal.working =
        if c.run = .foreground then calMerge c.items c.working (calMap2 calValue a b) else c.working) ∧
      alarmOn t (.conv p) 4 = false ∧ alarmOn t (.conv p) 5 = calClamped c.items a b ∧ bit t.mbx.dbHost 29 = true) ∧
    (calRejects c.items a b ≠ 0 → ∃ t, Claims.Runs (.calRunEnd p (c.run == .foreground) a b) s t ∧
      t.ports[p].cal.run = .none ∧ t.ports[p].cal.last = 2 ∧ t.ports[p].cal.reject = c.reject + 1 ∧
      t.ports[p].cal.rejects = c.rejects + 1 ∧ t.ports[p].cal.working = c.working ∧ t.ports[p].cal.points = c.points ∧
      t.ports[p].cal.retry = (if c.rejects < 2 then some c.run else none) ∧
      t.ports[p].cal.unstable = (if c.rejects < 2 then c.unstable else c.unstable + 1) ∧
      (2 ≤ c.rejects → alarmOn t (.conv p) 4 = true ∧ bit t.mbx.dbHost 29 = true))

/-- The 1 ms evaluation takes one more reading of each sensor, keeps the last 16 of it and their rounded average (before the
sixteenth, of those taken so far, the model's choice, log entry 103), adds T to a run that goes on and evaluates the
targets; it starts a background run of all items when AUTO is set, CVn is ON, no run goes on and a sensor has moved by more
than ΔT from its reference; the retry of a rejected run (R321, R323, R324, R325, R327). -/
def Claims.CalTimersComplete : Prop :=
  ∀ (p : LPort) (r : Vector Int 4) (s : State),
    let c := s.ports[p].cal
    let x : Fin 4 → Int := fun i =>
      rdiv (((r[i] :: c.readings[i]).take 16).foldl (· + ·) 0) ((r[i] :: c.readings[i]).take 16).length
    let moved : Prop := c.hasRef = true ∧ ∃ i : Fin 4, c.deltaT.toNat < (x i - c.refs[i]).natAbs
    let now : Prop := c.auto = true ∧ moved ∧ isOn s (.cv p) = true ∧ calBusy s p = false
    (∃ t, Claims.Runs (.calTargetUpdate p r) s t ∧ Claims.Only [.ports] s t ∧ (∀ q, q ≠ p → t.ports[q] = s.ports[q]) ∧
      (∀ i : Fin 4, t.ports[p].cal.readings[i] = (r[i] :: c.readings[i]).take 16 ∧ t.ports[p].cal.sensors[i] = x i) ∧
      t.ports[p].cal.temp = x 0 + x 1 + x 2 + x 3 ∧
      (c.run ≠ .none → t.ports[p].cal.runT = c.runT + t.ports[p].cal.temp ∧ t.ports[p].cal.runN = c.runN + 1) ∧
      t.ports[p].cal.target = calTargets t.ports[p].cal ∧
      (isOn s (.ld p) = true → t.ports[p].cal.working = c.working) ∧
      (now → t.ports[p].cal.run = .background ∧ t.ports[p].cal.trigger = 4 ∧ t.ports[p].cal.items = 63) ∧
      (¬ now → t.ports[p].cal.run = c.run)) ∧
    (∀ k, c.retry = some k → c.run = .none → ∃ t, Claims.Runs (.calRetry p) s t ∧ t.ports[p].cal.run = k ∧
      t.ports[p].cal.items = c.items ∧ t.ports[p].cal.trigger = c.trigger ∧ t.ports[p].cal.retry = none)

/-- The ends of calibration runs and the calibration timers: `Claims.CalRunsEnd` and `Claims.CalTimersComplete`. -/
def Obligations.CalEventsComplete : Prop := Claims.CalRunsEnd ∧ Claims.CalTimersComplete

/-- MON_CONFIG completes (R438, R440, R451): buffer, host mask and post-filter mask take effect at once, preset and gains
wait for the next round; the reply is the SCAN_MASK. MON_COEF_LOAD loads 64 taps and starts the fades (R442, R452). Results
and loops stay. -/
def Claims.MonSettingsComplete : Prop :=
  ∀ (rq : Req) (s : State),
    (firstFail (monChecks rq s) = none → Claims.Awake 0x8001 rq s → firstFail (monStates rq s) = none →
      ∃ u, Claims.Runs (.monConfig rq) s (reply 0x8001 rq (okay [wd (monScan rq s.mon)]) u) ∧ Claims.Only [.mon] s u ∧
        u.mon.refOn = (if bit (par rq 0) 26 then bit (par rq 0) 27 else s.mon.refOn) ∧
        u.mon.hostMask.toNat = (if bit (par rq 0) 25 then pf rq 1 23 0 else s.mon.hostMask.toNat) ∧
        u.mon.postMask.toNat = (if bit (par rq 0) 23 then pf rq 3 23 0 else s.mon.postMask.toNat) ∧
        u.mon.preset = s.mon.preset ∧ u.mon.gains = s.mon.gains ∧ u.mon.scan = s.mon.scan ∧
        (presetNext u.mon).toNat = (if bit (par rq 0) 28 then pf rq 0 31 29 else (presetNext s.mon).toNat) ∧
        gainsNext u.mon = (if bit (par rq 0) 24 then par rq 2 else gainsNext s.mon) ∧
        u.mon.res = s.mon.res ∧ u.mon.loops = s.mon.loops) ∧
    (firstFail (coefLoadChecks rq s) = none → Claims.Awake 0x8002 rq s →
      ∃ u, Claims.Runs (.monCoefLoad rq) s (reply 0x8002 rq (okay []) u) ∧ Claims.Only [.mon] s u ∧
        u.mon.taps = (bulkRead s.bulk (pf rq 0 23 0) 64).map (fun w => sgn 24 (fld w 31 8)) ∧
        u.mon.oldTaps = s.mon.taps ∧ u.mon.res = s.mon.res ∧ u.mon.loops = s.mon.loops)

/-- BIAS_LOOP_SET completes (R447, R455): the loop takes every field; a change of MODE restarts it at CODE, OFF and FIXED
in their states and SETPOINT and DITHER in SETTLING; an unchanged FIXED drives CODE; any other unchanged MODE keeps code and
state. No other loop changes. -/
def Claims.BiasLoopSetCompletes : Prop :=
  ∀ (rq : Req) (s : State) (k : Fin 24) (p : LPort), k = loopIx rq → p.val = k.val / 6 →
    firstFail (loopChecks rq) = none → Claims.Awake 0x8005 rq s → firstFail (loopStates rq s) = none →
    let l := s.mon.loops[k]
    let mode := LoopMode.ofCode (pf rq 0 26 25)
    ∃ u, Claims.Runs (.biasLoopSet rq) s (reply 0x8005 rq (okay []) u) ∧
      Claims.Only [.mon, .free, .alarms, .mbx, .ports] s u ∧ (∀ j, j ≠ k → u.mon.loops[j] = s.mon.loops[j]) ∧
      u.mon.muteOnDrift[p] = bit (par rq 0) 18 ∧
      u.mon.loops[k].mode = mode ∧ u.mon.loops[k].chan.toNat = pf rq 0 24 20 ∧ u.mon.loops[k].sign = bit (par rq 0) 19 ∧
      u.mon.loops[k].start = pf rq 1 31 16 ∧ u.mon.loops[k].ki = pf rq 1 15 0 ∧ u.mon.loops[k].codeMin = pf rq 2 31 16 ∧
      u.mon.loops[k].codeMax = pf rq 2 15 0 ∧ u.mon.loops[k].target = pf rq 3 31 8 ∧ u.mon.loops[k].tol = pf rq 4 31 16 ∧
      u.mon.loops[k].d = pf rq 4 15 6 ∧ u.mon.loops[k].half = pf rq 4 5 2 ∧ u.mon.loops[k].grace = pf rq 5 31 20 ∧
      u.mon.loops[k].stepMax = pf rq 5 19 8 ∧
      (mode ≠ l.mode → u.mon.loops[k].code = pf rq 1 31 16 ∧ u.mon.loops[k].drive = pf rq 1 31 16 ∧
        u.mon.loops[k].highZ = (mode == .off) ∧
        u.mon.loops[k].st = (match mode with | .off => .off | .fixed => .fixed | .setpoint => .settling | .dither => .settling)) ∧
      (mode = l.mode → u.mon.loops[k].st = l.st ∧
        u.mon.loops[k].code = (if mode = .fixed then pf rq 1 31 16 else l.code))

/-- MON_READ, a device-wide report, returns the round, the preset, the buffer's state and one word for each selected channel, the lowest first;
MON_URGENT is accepted when no channel is scanned and answered after its conversion, and BUSY with MON_URGENT_BUSY counted
while another one waits or when preset TRACK leaves no idle slot; the reply after the conversion carries the result, which
reaches no register (R443, R453, R454). -/
def Claims.MonReadsComplete : Prop :=
  ∀ (rq : Req) (s : State),
    (pf rq 0 31 24 = 0 →
      let sel := (List.finRange 24).filter fun c => bit (par rq 0) c.val
      ∃ w, fld w 31 16 = s.mon.round.toNat % 65536 ∧ fld w 15 13 = s.mon.preset.toNat ∧ bit w 12 = s.mon.refOn ∧
        bit w 11 = s.mon.refCold ∧
        Claims.Reports (.monRead rq) .device 0x8003 rq
          (reply 0x8003 rq (okay (w :: sel.map fun c => chanWord s.mon.res[c])) s) s) ∧
    (Claims.Awake 0x8004 rq s → pf rq 0 31 27 ≤ 23 → pf rq 0 26 0 = 0 → s.mon.refOn = true →
      (s.mon.urgent = none → s.mon.scan = 0 → scanNext s.mon = 0 → Claims.Runs (.monUrgent rq) s
        (taken rq (tookFree (modMon (fun m => { m with urgent := some (rq, BitVec.ofNat 5 (pf rq 0 31 27)) }) s)))) ∧
      (s.mon.urgent ≠ none ∨ (s.mon.preset = 3 ∧ s.mon.scan ≠ 0) → Claims.Runs (.monUrgent rq) s
        (reply 0x8004 rq { st := .busy, detail := 1 }
          (tookFree (modMon (fun m => { m with cntUrgent := m.cntUrgent + 1 }) s))))) ∧
    (∀ (c : BitVec 5) (code : BitVec 24) (ovr : Bool), s.mon.urgent = some (rq, c) → monRuns s = true →
      ∃ w, fld w 31 8 = code.toNat ∧ bit w 7 = false ∧ bit w 6 = s.mon.refCold ∧ bit w 5 = ovr ∧ bit w 4 = false ∧
        Claims.Runs (.monUrgentDone code ovr) s
          (reply 0x8004 rq (okay [w]) (tookFree (modMon (fun m => { m with urgent := none }) s))))

/-- The monitor commands and BIAS_LOOP_SET: `Claims.MonSettingsComplete` and `Claims.BiasLoopSetCompletes` and `Claims.MonReadsComplete`. -/
def Obligations.MonCommandsComplete : Prop := Claims.MonSettingsComplete ∧ Claims.BiasLoopSetCompletes ∧ Claims.MonReadsComplete

/-- A slot of the monitor converter ends within a round (R439, R441, R444, R448): while MON does not run nothing happens;
an INVALID output is counted and reaches no loop; any other output without the post-filter is the code itself, SEQ
advances, and a loop in SETPOINT takes one step, limited by STEP_MAX and by its code range. -/
def Claims.MonSlotsComplete : Prop :=
  ∀ (c : Fin 24) (code : BitVec 24) (ovr : Bool) (s : State),
    (monRuns s = false → Claims.Runs (.monSlotEnd c code ovr) s s) ∧
    (monRuns s = true → newRound s.mon c.val = false → s.mon.scan.getLsbD c.val = true →
      (s.mon.invalid[c] ≠ 0 → ∃ t, Claims.Runs (.monSlotEnd c code ovr) s t ∧ Claims.Only [.mon, .free, .twi] s t ∧
        t.mon.res[c] = { seq := s.mon.res[c].seq + 1, invalid := true, refCold := s.mon.refCold, ovr := ovr
                         filtered := false, data := code } ∧
        t.mon.invalid[c] = s.mon.invalid[c] - 1 ∧ t.mon.cntInvalid = s.mon.cntInvalid + 1 ∧
        (∀ d, d ≠ c → t.mon.res[d] = s.mon.res[d])) ∧
      (s.mon.invalid[c] = 0 → s.mon.refCold = false → s.mon.postMask.getLsbD c.val = false →
        (∀ k : Fin 24, s.mon.loops[k].runs = true → s.mon.loops[k].chan.toNat ≠ c.val) →
        ∃ t, Claims.Runs (.monSlotEnd c code ovr) s t ∧ Claims.Only [.mon, .free, .twi] s t ∧
          t.mon.res[c] = { seq := s.mon.res[c].seq + 1, invalid := false, refCold := false, ovr := ovr
                           filtered := false, data := code } ∧
          (∀ d, d ≠ c → t.mon.res[d] = s.mon.res[d])) ∧
      (∀ k : Fin 24, s.mon.invalid[c] = 0 → s.mon.refCold = false → s.mon.loops[k].mode = .setpoint →
        s.mon.loops[k].edge = none → s.mon.loops[k].chan.toNat = c.val →
        (∀ j : Fin 24, j ≠ k → s.mon.loops[j].runs = true → s.mon.loops[j].chan.toNat ≠ c.val) →
        let l := s.mon.loops[k]
        let step := clampI (-(l.stepMax : Int)) l.stepMax (rdiv (((code.toNat : Int) - l.target) * l.ki) 65536)
        let new := (clampI l.codeMin l.codeMax (if l.sign then l.code + step else l.code - step)).toNat
        ∃ t, Claims.Runs (.monSlotEnd c code ovr) s t ∧ t.mon.loops[k].code = new ∧ t.mon.loops[k].drive = new))

/-- The converter's timers (R440, R449): REF_COLD ends; the grace time of a loop in DRIFT makes it UNSETTLED, which
counts and raises BIAS_UNSETTLED, and of a loop in any other state does nothing. -/
def Claims.MonTimersComplete : Prop :=
  ∀ (s : State), Claims.Runs .refColdEnd s (modMon (fun m => { m with refCold := false }) s) ∧
    ∀ (k : Fin 24) (p : LPort), p.val = k.val / 6 →
      (monRuns s = true → s.mon.loops[k].st = .drift → ∃ t, Claims.Runs (.biasGraceExpiry k) s t ∧
        t.mon.loops[k].st = .unsettled ∧ t.mon.loops[k].code = s.mon.loops[k].code ∧
        t.mon.cntUnsettle = s.mon.cntUnsettle + 1 ∧ alarmOn t (.line p) 19 = true ∧
        Claims.Only [.mon, .alarms, .mbx, .ports] s t) ∧
      (s.mon.loops[k].st ≠ .drift → Claims.Runs (.biasGraceExpiry k) s s)

/-- The slots and timers of the monitor: `Claims.MonSlotsComplete` and `Claims.MonTimersComplete`. -/
def Obligations.MonEventsComplete : Prop := Claims.MonSlotsComplete ∧ Claims.MonTimersComplete

/-- JRX_CONFIG completes (R62, R475): SET gives the node identifier, and a change of it empties the routes; each CLEAR bit
clears the CHANGED flag and NEIGHBOUR_CHANGED of its port. JRX_STATUS reports seven words, the last six the port's counters
(R71, R479); JRX_PEERS six words for one port or twenty-four for all, and with ROUTES writes 2048 words (R478). JRX_PEERS
of one port is a report about that port, of all or of the routes a device-wide one (R13). -/
def Claims.JoryxReportsComplete : Prop :=
  ∀ (rq : Req) (s : State),
    (pf rq 0 14 0 = 0 → let set := bit (par rq 0) 19
      let new := set = true ∧ (s.jrx.nodeId.toNat ≠ pf rq 0 31 21 ∨ s.jrx.nidValid ≠ bit (par rq 0) 20)
      ∃ u, Claims.Runs (.jrxConfig rq) s (reply 0x9001 rq (okay []) u) ∧ Claims.Only [.jrx, .alarms, .mbx] s u ∧
        u.jrx.nodeId.toNat = (if set then pf rq 0 31 21 else s.jrx.nodeId.toNat) ∧
        u.jrx.nidValid = (if set then bit (par rq 0) 20 else s.jrx.nidValid) ∧
        (new → u.jrx.routes = [] ∧ u.jrx.routesChanged = true) ∧ (¬ new → u.jrx.routes = s.jrx.routes) ∧
        ∀ p : LPort, u.jrx.ports[p].egress = s.jrx.ports[p].egress ∧
          (bit (par rq 0) (15 + p.val) = true → u.jrx.ports[p].neigh.changed = false ∧ alarmOn u (.jrx p) 1 = false) ∧
          (bit (par rq 0) (15 + p.val) = false → u.jrx.ports[p] = s.jrx.ports[p])) ∧
    (pf rq 0 29 0 = 0 → let x := s.jrx.ports[pport rq 0]
      ∃ w, fld w 31 21 = s.jrx.nodeId.toNat ∧ bit w 20 = s.jrx.nidValid ∧ fld w 19 13 = x.egress.length % 128 ∧
        Claims.Reports (.jrxStatus rq) (.port (pport rq 0)) 0x9004 rq (reply 0x9004 rq (okay (w :: x.counters.toList)) s) s) ∧
    (pf rq 0 27 24 = 0 → bit (par rq 0) 28 = false → ∃ ws, ws.length = (if bit (par rq 0) 29 then 24 else 6) ∧
      (bit (par rq 0) 29 = false → let n := s.jrx.ports[pport rq 0].neigh
        bit (ws.getD 0 0) 31 = n.valid ∧ fld (ws.getD 0 0) 29 19 = n.node.toNat ∧ bit (ws.getD 0 0) 16 = n.changed) ∧
      Claims.Reports (.jrxPeers rq) (if bit (par rq 0) 29 then .device else .port (pport rq 0)) 0x9003 rq
        (reply 0x9003 rq (okay ws) s) s) ∧
    (pf rq 0 27 24 = 0 → bit (par rq 0) 28 = true → pf rq 0 23 0 + 2048 ≤ bulkWords → ∃ ws, ws.length = 2048 ∧
      (∀ d, d < 2048 → bit (ws.getD d 0) 31 = (routeTo s (BitVec.ofNat 11 d)).isSome) ∧
      Claims.Reports (.jrxPeers rq) .device 0x9003 rq
        (reply 0x9003 rq (okay [wd s.jrx.routes.length]) (putBulk (pf rq 0 23 0) ws s)) s)

/-- JRX_SEND completes (R65, R69, R476): with an identifier, a route, space and no request in progress to the same node and
channel, a REQUEST frame with 30 hops and the packet leaves on the route's port, and the command waits for its reply. -/
def Claims.JoryxSendCompletes : Prop :=
  ∀ (rq : Req) (s : State) (r : Route), pf rq 0 18 15 ≠ 0 → pf rq 0 13 0 = 0 → s.jrx.nidValid = true →
    s.jrx.nodeId.toNat ≠ pf rq 0 31 21 →
    (bit (par rq 0) 14 = true → rq.params.length = 3 ∧ pf rq 1 31 24 = 0 ∧ 2 ≤ (par rq 2).toNat ∧ (par rq 2).toNat ≤ 16 ∧
      pf rq 1 23 0 + (par rq 2).toNat ≤ bulkWords) →
    pktCount (jrxPacket rq s) + 2 = (jrxPacket rq s).length →
    (∀ w ∈ s.jrx.waits, w.dest.toNat = pf rq 0 31 21 → w.chan.toNat ≠ pf rq 0 20 19) →
    routeTo s (BitVec.ofNat 11 (pf rq 0 31 21)) = some r → s.jrx.ports[r.port].egress.length < 64 →
    ∃ u f w, Claims.Runs (.jrxSend rq) s (taken rq u) ∧ Claims.Only [.jrx] s u ∧
      (∀ p : LPort, u.jrx.ports[p].egress = s.jrx.ports[p].egress ++ (if p = r.port then [f] else [])) ∧
      f.dest.toNat = pf rq 0 31 21 ∧ f.src = s.jrx.nodeId ∧ f.hops = 30 ∧ f.type = 1 ∧ f.chan.toNat = pf rq 0 20 19 ∧
      f.seq = s.jrx.seq ∧ f.body = jrxPacket rq s ∧ u.jrx.seq = nextSeq s.jrx.seq ∧
      u.jrx.waits = s.jrx.waits ++ [w] ∧ w.rq = rq ∧ w.dest = f.dest ∧ w.chan = f.chan

/-- The Joryx commands: `Claims.JoryxReportsComplete` and `Claims.JoryxSendCompletes`. -/
def Obligations.JoryxCommandsComplete : Prop := Claims.JoryxReportsComplete ∧ Claims.JoryxSendCompletes

/-- The events of Joryx (R66, R67, R70, R476): a waiting request enters its queue when it fits; one that waited 100 ms is
discarded and counted at the port that it came in on; a JRX_SEND without an answer ends with TIMEOUT; HELLO goes out with the unique ID; a small route table
goes out in one ROUTE frame on every port whose line logic is ON, and a change no longer waits then; an expired route is
removed. -/
def Obligations.JoryxEventsComplete : Prop :=
  ∀ (s : State),
    (∀ (j : Fin 4) (m : LPort × BitVec 11 × List Word) (rest : List (LPort × BitVec 11 × List Word)),
      s.mbx.j[j].waitQ = m :: rest →
      (s.mbx.j[j].inQ.length + m.2.2.length ≤ 16 → ∃ t more, Claims.Runs (.jrxRequestPost j) s t ∧ Claims.Only [.mbx] s t ∧
        t.mbx.j[j].inQ.map (·.w) = s.mbx.j[j].inQ.map (·.w) ++ m.2.2 ++ more ∧ t.mbx.j[j].inQ.length ≤ 16) ∧
      (16 < s.mbx.j[j].inQ.length + m.2.2.length → ∃ t, Claims.Runs (.jrxRequestPost j) s t ∧
        t.mbx.j[j].inQ = s.mbx.j[j].inQ ∧ t.mbx.j[j].waitQ = s.mbx.j[j].waitQ) ∧
      Claims.Runs (.jrxMbxDrop j) s (jrxCount m.1 5 (modJ j (fun c => { c with waitQ := rest }) s))) ∧
    (∀ (d : BitVec 11) (ch : Fin 4) (w : JrxWait),
      s.jrx.waits.find? (fun w => w.dest == d && w.chan == BitVec.ofNat 2 ch.val) = some w →
      ∃ u, Claims.Runs (.jrxSendTimeout d ch) s (reply 0x9002 w.rq { st := .timeout } u) ∧ Claims.Only [.jrx] s u ∧
        ∀ v ∈ u.jrx.waits, ¬ (v.dest = w.dest ∧ v.chan = w.chan)) ∧
    (∀ p : LPort, jgRuns s = true → isOn s (.ld p) = true → s.jrx.ports[p].egress.length < 64 →
      ∃ t f, Claims.Runs (.helloTimer p) s t ∧ Claims.Only [.jrx] s t ∧
        t.jrx.ports[p].egress = s.jrx.ports[p].egress ++ [f] ∧ f.type = 4 ∧ f.dest = 0 ∧ f.hops = 0 ∧
        f.body.take 4 = uidWords ∧ f.body.length = 5 ∧ t.jrx.seq = nextSeq s.jrx.seq) ∧
    (jgRuns s = true → s.jrx.nidValid = true → s.jrx.routes.length ≤ 31 →
      (∀ p : LPort, s.jrx.ports[p].egress.length < 64) →
      (∃ t, Claims.Runs .routeTimer s t ∧ Claims.Only [.jrx] s t ∧ t.jrx.routes = s.jrx.routes ∧ ∀ p : LPort,
        (isOn s (.ld p) = false → t.jrx.ports[p] = s.jrx.ports[p]) ∧
        (isOn s (.ld p) = true → ∃ f, t.jrx.ports[p].egress = s.jrx.ports[p].egress ++ [f] ∧ f.type = 5 ∧ f.dest = 0 ∧
          f.hops = 0 ∧ f.entries.toNat = s.jrx.routes.length + 1 ∧ f.body = routeBody (advert s p))) ∧
      (s.jrx.routesChanged = true → ∃ t, Claims.Runs .routeChangeSend s t ∧ Claims.Only [.jrx] s t ∧
        t.jrx.routesChanged = false ∧ ∀ p : LPort, isOn s (.ld p) = true → ∃ f,
          t.jrx.ports[p].egress = s.jrx.ports[p].egress ++ [f] ∧ f.type = 5 ∧ f.body = routeBody (advert s p))) ∧
    (∀ n : BitVec 11, (routeTo s n).isSome = true → Claims.Runs (.routeExpiry n) s
      (modJrx (fun j => { j with routes := j.routes.filter (·.node != n), routesChanged := true }) s))

/-- FAULT_LOG_READ, ALARM_MASK_SET, ALARM_STATUS and FAULT_CLEAR complete (R458, R468 to R471). The two reports wait for their
boundary (R13); that ALARM_STATUS of an instance of a line port is a report about that port is the model's choice (log
entry 130). -/
def Obligations.FaultCommandsComplete : Prop :=
  ∀ (rq : Req) (s : State),
    (pf rq 0 31 24 = 0 → 0 < pf rq 1 15 0 → pf rq 1 15 0 ≤ 256 → pf rq 0 23 0 + 6 * pf rq 1 15 0 ≤ bulkWords →
      let es := (s.faults.log.drop (pf rq 1 31 16)).take (pf rq 1 15 0)
      Claims.Reports (.faultLogRead rq) .device 0xA001 rq
        (reply 0xA001 rq (okay [wd es.length, s.faults.total, s.faults.overflow])
          (putBulk (pf rq 0 23 0) (es.flatMap entryWords) s)) s) ∧
    (∀ key, alarmOf (pf rq 0 31 24) (pf rq 0 23 16) = some key →
      (pf rq 0 15 0 = 0 → par rq 1 &&& ~~~(alarmBits key) = 0 → Claims.Runs (.alarmMaskSet rq) s
        (reply 0xA002 rq (okay []) (modAlarm key (fun a => { a with mask := par rq 1 }) s))) ∧
      (pf rq 0 14 0 = 0 → let a := getAlarm s key
        Claims.Reports (.alarmStatus rq) (alarmAt rq) 0xA003 rq (reply 0xA003 rq (okay [a.active, a.latched, a.mask])
          (if bit (par rq 0) 15 then modAlarm key (fun a => { a with latched := 0 }) s else s)) s)) ∧
    (pf rq 0 31 24 = 255 → pf rq 0 23 16 = 0 → pf rq 0 14 0 = 0 → ∃ ws, ws.length = 3 ∧
      (∀ d, d < 32 → (bit (ws.getD 1 0) d = true ↔ ∃ u ∈ unitOrder, unitHeld s u = true ∧ unitDom u = d)) ∧
      Claims.Reports (.alarmStatus rq) .device 0xA003 rq (reply 0xA003 rq (okay ws) s) s) ∧
    (pf rq 0 31 24 = 255 → pf rq 0 14 0 = 0 →
      Claims.Runs (.faultClear rq) s (reply 0xA004 rq (okay [])
        (if bit (par rq 0) 15 then modFaults (fun f => { f with log := [] }) s else s))) ∧
    (∀ u, unitOf (pf rq 0 31 24) (pf rq 0 23 16) = some u → pf rq 0 14 0 = 0 → unitHeld s u = true →
      (u = .aon → sensorsCool s = true) →
      ∃ t, Claims.Runs (.faultClear rq) s (reply 0xA004 rq (okay []) t) ∧ unitHeld t u = false ∧
        (bit (par rq 0) 15 = true → t.faults.log = []) ∧
        (u ≠ .aon → (unitSt t u).recovering = 1 ∧ (unitSt t u).level = 1) ∧
        (u = .aon → s.sys.dev = .fault → t.sys.dev = if s.sys.configId = 0 then .hold else .ready))

/-- Detection with a free handler (R459 to R461, R463, R465): the fault waits in the primary slot with its code, index and
detail. A watchdog of SUP writes its entry and resets the part instead; TEMP_CRIT holds AON failed at once and takes the
device to FAULT with every driver about to be switched off. -/
def Obligations.DetectionsComplete : Prop :=
  ∀ (s : State),
    (supWatches s = true → unitHeld s (.core .sup) = false → ∃ t e, Claims.Runs (.coreWatchdog .sup) s t ∧
      t.sys.inReset = true ∧ t.faults.log = (e :: s.faults.log).take 256 ∧ e.unit = .core .sup ∧ e.code = 4) ∧
    (∀ c : Core, c ≠ .sup → supWatches s = true → unitHeld s (.core c) = false → s.faults.primary = none →
      ∃ r, Claims.Runs (.coreWatchdog c) s (modFaults (fun f => { f with primary := some r }) s) ∧ r.unit = .core c ∧
        r.code = 4 ∧ r.index.toNat = coreCode c ∧ r.secondary = false) ∧
    (∀ (u : FUnit) (i j : BitVec 7) (d : Dom), stallIndex u i = some j → recDom u = some d → isOn s d = true →
      (unitSt s u).recovering ≠ 1 → s.sys.inReset = false → s.faults.primary = none →
      ∃ t r, Claims.Runs (.flowStall u i) s t ∧ t.faults = { s.faults with primary := some r } ∧ r.unit = u ∧ r.code = 6 ∧
        r.index = j ∧ (u = .map → unitHeld s .map = false → t.map.stopped = true) ∧
        (∀ p, u = .ld p → unitHeld s u = false → t.ports[p].front.faultMute = true ∧ t.ports[p].front.muted = true)) ∧
    (∀ x : BitVec 16, s.sys.inReset = false → s.faults.primary = none → ∃ t r, Claims.Runs (.tempCrit x) s t ∧
      t.faults.primary = some r ∧ r.unit = .aon ∧ r.code = 8 ∧ r.detail = x ∧ unitHeld t .aon = true ∧
      (s.sys.dev ≠ .boot → t.sys.dev = .fault) ∧
      (unitHeld s .aon = false → ∀ p : LPort, t.ports[p].front.muted = true ∧
        (t.ports[p].front.drvEn = true → t.ports[p].front.drvFalling = true))) ∧
    (∀ x : BitVec 16, isOn s .mon = true → s.sys.inReset = false → 16 ≤ x.toNat → x.toNat ≤ 22 → s.faults.primary = none →
      ∃ r, Claims.Runs (.supply x) s (modFaults (fun f => { f with primary := some r }) s) ∧ r.unit = .aon ∧ r.code = 9 ∧
        r.detail = x)

/-- The handler (R461 to R464, R466): a fault that starts no recovery is logged with OUTCOME 1; a first fault of a unit
starts its level 1; a fault while level 2 stands holds the unit failed; the fault in the secondary slot is next. A free
handler takes up the first overflowed unit. -/
def Claims.HandlerCompletes : Prop :=
  ∀ (s : State),
    (∀ r, s.faults.primary = some r → supWatches s = true →
      (unitHeld s r.unit = false → codeActs r.code = false → ∃ t e, Claims.Runs .faultHandle s t ∧
        Claims.Only [.faults, .mbx] s t ∧ t.faults.primary = s.faults.second ∧ t.faults.second = none ∧
        t.faults.log = (e :: s.faults.log).take 256 ∧ e.unit = r.unit ∧ e.code = r.code ∧ e.outcome = 1 ∧
        e.seq = s.faults.nextSeq ∧ t.faults.total = s.faults.total + 1) ∧
      (r.unit ≠ .aon → r.unit ≠ .core .sup → codeActs r.code = true → unitHeld s r.unit = false →
        (unitSt s r.unit).recovering = 0 → (unitSt s r.unit).lastSeq = none →
        ∃ t e, Claims.Runs .faultHandle s t ∧ t.faults.primary = s.faults.second ∧ t.faults.second = none ∧
          t.faults.log = (e :: s.faults.log).take 256 ∧ e.unit = r.unit ∧ e.code = r.code ∧ e.level = 1 ∧ e.outcome = 0 ∧
          e.action.toNat = actionCode r.unit 1 ∧ (unitSt t r.unit).recovering = 1 ∧ (unitSt t r.unit).level = 1) ∧
      (r.unit ≠ .aon → r.unit ≠ .core .sup → codeActs r.code = true → unitHeld s r.unit = false →
        (unitSt s r.unit).recovering ≠ 0 → (unitSt s r.unit).level = 2 →
        ∃ t, Claims.Runs .faultHandle s t ∧ unitHeld t r.unit = true ∧ t.faults.primary = s.faults.second)) ∧
    (∀ u, s.faults.primary = none → s.faults.second = none → supWatches s = true →
      unitOrder.find? (fun v => (unitSt s v).overflow != 0) = some u →
      ∃ t r, Claims.Runs .faultOverflowTakeup s t ∧ Claims.Only [.faults] s t ∧ t.faults.primary = some r ∧ r.unit = u ∧
        r.code = 0xFE ∧ r.detail = BitVec.ofNat 16 (unitSt s u).overflow ∧ (unitSt t u).overflow = 0 ∧
        t.faults.log = s.faults.log)

/-- The end of a recovery's action brings its domain back to ON and starts the quiet second; the end of that second ends
the recovery and its entry takes OUTCOME 1 (R460, R462). An alarm without a clearing rule clears when its condition is gone,
its latched bit stays (R456, R458). -/
def Claims.RecoveriesComplete : Prop :=
  ∀ (s : State),
    (∀ u, (unitSt s u).recovering = 1 → unitHeld s u = false → ∃ t, Claims.Runs (.recoveryActionDone u) s t ∧
      (unitSt t u).recovering = 2 ∧ (unitSt t u).level = (unitSt s u).level ∧
      (∀ d, recDom u = some d → isOn t d = true)) ∧
    (∀ u, (unitSt s u).recovering = 2 → ∃ t, Claims.Runs (.recoveryQuietExpiry u) s t ∧ Claims.Only [.faults, .mbx] s t ∧
      (unitSt t u).recovering = 0 ∧ (unitSt t u).level = 0 ∧ t.faults.log.length = s.faults.log.length ∧
      ∀ q, (unitSt s u).lastSeq = some q → ∀ e ∈ t.faults.log, e.seq = q → e.outcome = 1) ∧
    (∀ (key : AlarmKey) (b : Fin 32), alarmCond s key b.val = some false →
      ∃ t, Claims.Runs (.alarmDefaultClear key b) s t ∧ Claims.Only [.alarms, .mbx] s t ∧ alarmOn t key b.val = false ∧
        (getAlarm t key).latched = (getAlarm s key).latched ∧
        ∀ c : Fin 32, c ≠ b → alarmOn t key c.val = alarmOn s key c.val)

/-- The fault handler and its recoveries: `Claims.HandlerCompletes` and `Claims.RecoveriesComplete`. -/
def Obligations.RecoveriesComplete : Prop := Claims.HandlerCompletes ∧ Claims.RecoveriesComplete

/-- The mailbox accesses of a port that serves (R368, R370, R374, R380, R383, R384): a posted word enters the queue with its
sender's stamp, is discarded with OVERRUN when the queue is full or M4 or M5, or with CONFLICT inside another class's
message; a take answers the head word, latches its message's stamp, and answers zero with UNDERRUN on an empty queue; a write
to MBX.CTRL_n clears the flags it names and with RESET restarts the class's use of the channel. -/
def Obligations.MailboxAccessesComplete : Prop :=
  ∀ (who : HostPort) (n : Fin 8) (w : Word) (s : State), feServes s who = true →
    let c := s.mbx.m[n]
    let mine : Prop := ∃ k, c.inPart = some (BitVec.ofNat 3 (classOf who), k)
    (c.inPart = none ∨ mine → noInbound n = false → c.inQ.length < 16 →
      ∃ t q, Claims.Runs (.mbxPost who n w) s t ∧ Claims.Only [.mbx, .twi, .power] s t ∧ t.mbx.m[n].inQ = c.inQ ++ [q] ∧
        q.w = w ∧ q.start = c.inPart.isNone ∧ q.stamp.cls.toNat = classOf who ∧ q.stamp.gen = hostGen c who ∧
        t.mbx.m[n].outQ = c.outQ ∧ (feOf t who).done = true) ∧
    (c.inPart = none ∨ mine → noInbound n = true ∨ 16 ≤ c.inQ.length →
      ∃ t, Claims.Runs (.mbxPost who n w) s t ∧ Claims.Only [.mbx, .twi] s t ∧ t.mbx.m[n] = { c with overrun := true }) ∧
    (¬ (c.inPart = none ∨ mine) →
      ∃ t, Claims.Runs (.mbxPost who n w) s t ∧ Claims.Only [.mbx, .twi] s t ∧ t.mbx.m[n] = { c with conflict := true }) ∧
    (∀ q rest, c.outQ = q :: rest → c.outWait = [] → ∃ t, Claims.Runs (.mbxTake who n) s t ∧ Claims.Only [.mbx, .twi] s t ∧
      (feOf t who).rdata = q.w ∧ t.mbx.m[n].outQ = rest ∧ t.mbx.m[n].inQ = c.inQ ∧
      regStamp t.mbx.m[n] who = (if q.start then stampWord s n q else regStamp c who)) ∧
    (c.outQ = [] → ∃ t, Claims.Runs (.mbxTake who n) s t ∧ Claims.Only [.mbx, .twi] s t ∧ (feOf t who).rdata = 0 ∧
      t.mbx.m[n] = { c with underrun := true }) ∧
    (∃ t, Claims.Runs (.mbxCtrlReset who n w) s t ∧ Claims.Only [.mbx, .twi] s t ∧
      t.mbx.m[n].underrun = (c.underrun && !bit w 15) ∧ t.mbx.m[n].overrun = (c.overrun && !bit w 14) ∧
      t.mbx.m[n].conflict = (c.conflict && !bit w 13) ∧ t.mbx.m[n].drop = (c.drop && !bit w 12) ∧
      (bit w 31 = false → t.mbx.m[n].inQ = c.inQ ∧ t.mbx.m[n].outQ = c.outQ ∧ hostGen t.mbx.m[n] who = hostGen c who) ∧
      (bit w 31 = true → t.mbx.m[n].outQ = [] ∧ hostGen t.mbx.m[n] who = hostGen c who + 1 ∧
        (mine → t.mbx.m[n].inQ = beforeLast c.inQ ∧ t.mbx.m[n].inPart = none ∧ t.mbx.cntPartial = s.mbx.cntPartial + 1) ∧
        (¬ mine → t.mbx.m[n].inQ = c.inQ ∧ t.mbx.m[n].inPart = c.inPart ∧ t.mbx.cntPartial = s.mbx.cntPartial)))

/-- The register accesses (R7, R11, R131, R350, R386 to R388, R390, R393, R399, R445): a port in reset, listening or
stalled carries out nothing; otherwise a read answers the register and changes the port alone, the reads with latches latch,
and a write of a register takes effect; the bulk window of a sleeping CTL stalls a TWI access and misses an MSPI one, and CTL
wakes. -/
def Obligations.RegisterAccessesComplete : Prop :=
  ∀ (who : HostPort) (addr : BitVec 16) (w : Word) (s : State),
    (feServes s who = false → ∀ c ∈ [Instr.registerRead who addr, .registerWrite who addr w, .mbxPost who 0 w, .mbxTake who 0,
      .mbxCtrlReset who 0 w, .lpsStatusRead who 0, .monResLoRead who 0, .counterLowRead who addr 0, .dlStart who],
      Claims.Runs c s (feRefuse who s)) ∧
    (feServes s who = true →
      (sleepsAt s addr = false → ¬ (0x108 ≤ addr.toNat ∧ addr.toNat < 0x110) →
        ¬ (0x400 ≤ addr.toNat ∧ addr.toNat < 0x600 ∧ (addr.toNat < 0x430 ∧ addr.toNat % 2 = 0 ∨
          0x500 ≤ addr.toNat ∧ addr.toNat % 64 = 0)) →
        ∃ t, Claims.Runs (.registerRead who addr) s t ∧ Claims.Only [.twi] s t ∧ (feOf t who).rdata = readReg s who addr ∧
          (feOf t who).ptr = nextPtr addr ∧ (feOf t who).done = true) ∧
      (sleepsAt s addr = false → ∃ t, Claims.Runs (.registerWrite who addr w) s t ∧ (feOf t who).done = true ∧
        (feOf t who).ptr = nextPtr addr ∧
        (0x8000 ≤ addr.toNat → addr.toNat % 4 = 0 → Claims.Only [.twi, .bulk] s t ∧
          t.bulk = bulkPut s.bulk (bulkIndex s addr.toNat) w) ∧
        (addr = 0x0008 → Claims.Only [.twi, .sys] s t ∧ t.sys = { s.sys with bulkPage := w.setWidth 4 }) ∧
        (addr = 0x0180 → Claims.Only [.twi, .mbx] s t ∧
          t.mbx.dbHost = ((s.mbx.dbHost &&& ~~~w) ||| wd (readyBits s.mbx))) ∧
        (addr = 0x0181 → Claims.Only [.twi, .mbx] s t ∧ t.mbx = { s.mbx with dbMask := w }) ∧
        ((0x200 ≤ addr.toNat ∧ addr.toNat < 0x300) ∨ (0x400 ≤ addr.toNat ∧ addr.toNat < 0x8000) → Claims.Only [.twi] s t)) ∧
      (∀ p : LPort, ∃ t, Claims.Runs (.lpsStatusRead who p) s t ∧ Claims.Only [.twi] s t ∧
        (feOf t who).rdata = (lpsCopy s p)[0] ∧ (feOf t who).lps[p] = lpsCopy s p) ∧
      (∀ c : Fin 24, ∃ t, Claims.Runs (.monResLoRead who c) s t ∧ Claims.Only [.twi] s t ∧
        (feOf t who).rdata = regResLo s.mon.res[c] ∧ (feOf t who).monHi[c] = resHi s.mon.res[c]) ∧
      (∀ v : BitVec 64, ∃ t, Claims.Runs (.counterLowRead who addr v) s t ∧ Claims.Only [.twi] s t ∧
        (feOf t who).rdata = v.setWidth 32 ∧
        (regDefined (addr + 1).toNat = false → readReg t who (addr + 1) = v.extractLsb' 32 32)) ∧
      (sleepsAt s addr = true → who = .twi → longWake s = false → ∃ t, Claims.Runs (.registerRead who addr) s t ∧
        Claims.Only [.twi, .power] s t ∧ t.twi.twi.stall = some { dom := .ctl, addr := addr, w := none } ∧
        t.power.accessWakes.contains .ctl = true) ∧
      (sleepsAt s addr = true → who = .mspi → ∃ t, Claims.Runs (.registerWrite who addr w) s t ∧
        Claims.Only [.twi, .power] s t ∧ t.twi.mspiMiss = s.twi.mspiMiss + 1 ∧ t.twi.lastMiss = true ∧
        t.twi.mspi.done = false ∧ t.power.accessWakes.contains .ctl = true))

/-- What happens on the management ports (R392 to R395, R398, R400, R421). -/
def Claims.PortEventsComplete : Prop :=
  ∀ (s : State),
    (∃ t, Claims.Runs (.twiAbort true) s t ∧ Claims.Only [.twi] s t ∧ t.twi.twiEvents = s.twi.twiEvents ||| 4 ∧
      t.twi.twiAbort = s.twi.twiAbort + 1 ∧ t.twi.twi.done = false) ∧
    Claims.Runs (.twiAbort false) s s ∧
    (s.twi.twi.stall ≠ none → ∃ t, Claims.Runs .twiStretchTo s t ∧ Claims.Only [.twi] s t ∧ t.twi.twi.stall = none ∧
      t.twi.twiEvents = s.twi.twiEvents ||| 16 ∧ t.twi.twiTimeout = s.twi.twiTimeout + 1) ∧
    (∃ t, Claims.Runs .twiSdaTo s t ∧ Claims.Only [.twi] s t ∧ t.twi.twi.stall = none ∧
      t.twi.twiEvents = s.twi.twiEvents ||| 8 ∧ t.twi.twiTimeout = s.twi.twiTimeout + 1) ∧
    (s.twi.twi.listening = true → ∃ t, Claims.Runs .twiDeepNack s t ∧ Claims.Only [.twi, .power, .ports] s t ∧
      t.twi.twi.window = true ∧ t.twi.twiNack = s.twi.twiNack + 1 ∧ t.twi.twiEvents = s.twi.twiEvents ||| 2 ∧
      t.power = if s.twi.twi.window then s.power else (profileWake 4 0 s).power) ∧
    (s.twi.twi.window = true → ∃ t, Claims.Runs .twiDeepWindowEnd s t ∧ Claims.Only [.twi] s t ∧
      t.twi.twi = { s.twi.twi with window := false, listening := false }) ∧
    (s.twi.mspi.listening = false → (∃ t, Claims.Runs .mspiBadCmd s t ∧ Claims.Only [.twi] s t ∧
        t.twi.mspiEvents = s.twi.mspiEvents ||| 8 ∧ t.twi.lastAbort = false ∧ t.twi.mspi.done = false) ∧
      ∃ t, Claims.Runs .mspiFrameAbort s t ∧ Claims.Only [.twi] s t ∧ t.twi.mspiEvents = s.twi.mspiEvents ||| 4 ∧
        t.twi.mspiAbort = s.twi.mspiAbort + 1 ∧ t.twi.lastAbort = true ∧ t.twi.mspi.done = false) ∧
    (s.twi.mspi.listening = true → ∃ t, Claims.Runs .mspiDeepIgnore s t ∧ Claims.Only [.twi, .power, .ports] s t ∧
      t.twi.mspi.window = true ∧ t.twi.mspiEvents = s.twi.mspiEvents ||| 1 ∧
      t.power = if s.twi.mspi.window then s.power else (profileWake 5 0 s).power) ∧
    (s.twi.mspi.window = true → ∃ t, Claims.Runs .mspiDeepWindowEnd s t ∧ Claims.Only [.twi] s t ∧
      t.twi.mspi = { s.twi.mspi with window := false, listening := false }) ∧
    (∀ d : Dom, s.power.accessWakes.contains d = true → inDown s d = false → isAnalog d = false →
      (unitHeld s (domUnit d) = false ∨ d = .ctl) → ∃ t, Claims.Runs (.accessWakeComplete d) s t ∧ isOn t d = true ∧
        t.power.accessWakes.contains d = false)

/-- A download (R487): START opens it, CHUNK and LAST hand a part to the boot ROM, which copies it and checks the image
after the last; out of the download's phase a command is rejected. -/
def Claims.DownloadsComplete : Prop :=
  ∀ (who : HostPort) (n : BitVec 18) (s : State),
    (feServes s who = true → s.sys.phase = 2 → dlAllowed s who = true →
      (∃ t, Claims.Runs (.dlStart who) s t ∧ Claims.Only [.sys, .twi] s t ∧
        t.sys = { s.sys with image := [], imageLen := 0, copying := none, dlReady := true, slot := 2 }) ∧
      (s.sys.dlReady = true → 0 < n.toNat → n.toNat ≤ 131072 → s.sys.imageLen + n.toNat ≤ 327744 →
        (∃ t, Claims.Runs (.dlChunk who n) s t ∧ Claims.Only [.sys, .twi] s t ∧
          t.sys = { s.sys with copying := some (n.toNat, false), dlReady := false }) ∧
        ∃ t, Claims.Runs (.dlLast who n) s t ∧ Claims.Only [.sys, .twi] s t ∧
          t.sys = { s.sys with copying := some (n.toNat, true), dlReady := false })) ∧
    (feServes s who = true → s.sys.phase ≠ 2 → ∀ c ∈ [Instr.dlStart who, .dlChunk who n, .dlLast who n],
      ∃ t, Claims.Runs c s t ∧ Claims.Only [.sys, .twi] s t ∧ t.sys = { s.sys with dlReject := true }) ∧
    (∀ (len : Nat) (last : Bool), s.sys.copying = some (len, last) → ∃ t, Claims.Runs .dlPartCopied s t ∧
      Claims.Only [.sys] s t ∧ t.sys.imageLen = s.sys.imageLen + len ∧ t.sys.copying = none ∧ t.sys.dlReady = !last ∧
      t.sys.phase = if last then 3 else s.sys.phase)

/-- Events of the management ports, and downloads: `Claims.PortEventsComplete` and `Claims.DownloadsComplete`. -/
def Obligations.ManagementPortsComplete : Prop := Claims.PortEventsComplete ∧ Claims.DownloadsComplete

/-- The peripheral TWI and the boot SPI controllers (R402 to R405): an idle enabled controller takes the command with its
operation; a busy one ignores it with REJECTED or ERR; the end of a transfer sets its result. -/
def Obligations.PeripheralMastersComplete : Prop :=
  ∀ (who : HostPort) (w : Word) (s : State),
    (feServes s who = true → ∀ (op : Nat) (c : Instr),
      (op, c) ∈ [(0, Instr.ptwiWrite who w), (1, .ptwiRead who w), (2, .ptwiWriteRead who w), (3, .ptwiRecover who w)] →
      (s.twi.ptwiCmd = none → fld w 22 17 ≤ 32 → fld w 16 11 ≤ 32 → bit s.twi.ptwiCfg 29 = true →
        ∃ t v, Claims.Runs c s t ∧ Claims.Only [.twi] s t ∧ t.twi.ptwiCmd = some v ∧ fld v 31 30 = op ∧
          fld v 29 0 = fld w 29 0 ∧ bit t.twi.ptwiStatus 28 = true) ∧
      (s.twi.ptwiCmd ≠ none → ∃ t, Claims.Runs c s t ∧ Claims.Only [.twi] s t ∧ t.twi.ptwiCmd = s.twi.ptwiCmd ∧
        bit t.twi.ptwiStatus 26 = true)) ∧
    (feServes s who = true → ∀ (dir : Nat) (c : Instr),
      (dir, c) ∈ [(0, Instr.bspiFlashToBulk who w), (1, .bspiBulkToFlash who w)] →
      (s.sys.dev ≠ .boot → s.twi.bspiCmd = none → fld w 18 10 ≤ 256 → fld w 23 22 ≠ 3 →
        fld s.twi.bspiBulk 16 0 + (fld w 18 10 + 3) / 4 ≤ bulkWords → bit s.twi.bspiCfg 31 = false → isOn s .ctl = true →
        ∃ t v, Claims.Runs c s t ∧ Claims.Only [.twi] s t ∧ t.twi.bspiCmd = some (v, false) ∧ bit v 19 = (dir == 1) ∧
          bit t.twi.bspiStatus 31 = true ∧ (dir = 1 → t.twi.bspiSent = bspiBytes s w)) ∧
      (s.twi.bspiCmd ≠ none → ∃ t, Claims.Runs c s t ∧ Claims.Only [.twi] s t ∧ t.twi.bspiCmd = s.twi.bspiCmd ∧
        bit t.twi.bspiStatus 29 = true)) ∧
    (∀ (how : PtwiEnd) (done : BitVec 6) (data : List Byte), s.twi.ptwiCmd = some w →
      (∃ t, Claims.Runs (.ptwiDone how done data) s t ∧ Claims.Only [.twi] s t ∧ t.twi.ptwiCmd = none ∧
        fld t.twi.ptwiStatus 31 29 = ptwiCode how ∧ bit t.twi.ptwiStatus 28 = false ∧ bit t.twi.ptwiStatus 27 = true ∧
        fld t.twi.ptwiStatus 25 20 = done.toNat ∧
        t.twi.ptwiData = if fld w 31 30 = 1 ∨ fld w 31 30 = 2 then storeBytes (data.take (fld w 16 11)) s.twi.ptwiData
          else s.twi.ptwiData) ∧
      (∃ t, Claims.Runs .ptwiBusBusy s t ∧ Claims.Only [.twi] s t ∧ t.twi.ptwiCmd = none ∧ fld t.twi.ptwiStatus 31 29 = 6 ∧
        bit t.twi.ptwiStatus 27 = true) ∧
      ∃ t, Claims.Runs (.ptwiStretchTo done) s t ∧ Claims.Only [.twi] s t ∧ t.twi.ptwiCmd = none ∧
        fld t.twi.ptwiStatus 31 29 = 4 ∧ fld t.twi.ptwiStatus 25 20 = done.toNat) ∧
    (∀ data : List Byte, s.twi.bspiCmd = some (w, false) → ∃ t, Claims.Runs (.bspiDone data) s t ∧
      Claims.Only [.twi, .bulk] s t ∧ t.twi.bspiCmd = none ∧ bit t.twi.bspiStatus 31 = false ∧
      bit t.twi.bspiStatus 30 = true ∧
      t.bulk = if bit w 19 then s.bulk else putBytes s.bulk (4 * fld s.twi.bspiBulk 16 0) (data.take (fld w 18 10)))

/-- Resets and boot (R480 to R487, R490, R491): entering reset leaves every driver off and muted, and the waiting commands;
a pulse on RESET_N acts from 10 µs on and not below 1 µs; the release samples the straps; an image that fails its checks is
followed by the next source, one that passes starts the firmware. -/
def Obligations.ResetsComplete : Prop :=
  ∀ (s : State),
    (∃ t, Claims.Runs (.powerOnReset true) s t ∧ t.sys.inReset = true ∧ t.sys.porActive = true ∧ t.sys.dev = .boot ∧
      t.pending = s.pending ∧ t.free = s.free ∧
      ∀ p : LPort, t.ports[p].front.drvEn = false ∧ t.ports[p].front.muted = true ∧ t.ports[p].tr.state = .down) ∧
    Claims.Runs (.powerOnReset false) s (modSys (fun y => { y with porActive := false }) s) ∧
    (∀ (ns : Nat) (mid : Bool), Claims.Runs (.resetN ns mid) s
      (if 10000 ≤ ns then enterReset s else if ns < 1000 then s else if mid then enterReset s else s)) ∧
    (s.sys.resetDue = true → Claims.Runs .sysResetDelayExpiry s (enterReset s)) ∧
    (∀ (b : BitVec 2) (a : BitVec 3), s.sys.porActive = false → s.test.held = false → s.sys.phase = 0 → s.sys.err = 0 →
      ∃ t, Claims.Runs (.resetRelease b a) s t ∧ Claims.Only [.sys] s t ∧ t.sys.inReset = false ∧ t.sys.bootSrc = b ∧
        t.sys.addr = a ∧ t.sys.err = (if b = 3 then 7 else 0) ∧
        t.sys.phase = (if b = 3 then 0 else if b = 0 then 1 else 2)) ∧
    (∀ (h : Vector Word 64) (n : Nat), s.sys.phase = 1 → Claims.Runs (.flashSlotReadDone h n) s
      (modSys (fun y => { y with image := h.toList, imageLen := 64 + n, phase := 3 }) s)) ∧
    (∀ (key sig : Bool) (d : Vector Word 8), s.sys.phase = 3 →
      (imageCheck s.sys.image key sig = 0 → ∃ t, Claims.Runs (.imageVerifyDone key sig d) s t ∧ t.sys.phase = 4 ∧
        t.sys.supRuns = true ∧ t.sys.digest = d ∧ t.sys.fwVer = s.sys.image.getD 1 0) ∧
      (imageCheck s.sys.image key sig ≠ 0 → ∃ t, Claims.Runs (.imageVerifyDone key sig d) s t ∧ Claims.Only [.sys] s t ∧
        t.sys.err.toNat = imageCheck s.sys.image key sig ∧ t.sys.supRuns = s.sys.supRuns ∧
        t.sys.phase = (if s.sys.slot = 0 then 1 else 2) ∧ (s.sys.slot = 0 → t.sys.slot = 1) ∧
        (s.sys.slot = 1 → t.sys.fallbackDl = true))) ∧
    (∀ (c : Core) (rq : Req), unitDown s (.core c) = false → s.sys.restarts = [(c, some rq)] →
      Claims.Runs (.coreRestartDone c) s (reply 0x0003 rq (okay []) (modSys (fun y => { y with restarts := [] }) s)))

/-- SUP and a packet (R341 to R346, R378): a whole packet whose turn it is (waiting packets are taken in the order in which
their last words came, ties in the order of the channels) and that passes every check is taken and forwarded to its core,
with the channel in use; a packet whose CRC fails is answered BAD_CRC and counted, one with a COUNT above 14 or whose words did not
come BAD_LENGTH; a command that does not wait in the Dial and is without a reply in time is answered TIMEOUT and is a fault
of its core. -/
def Claims.CrownEventsComplete : Prop :=
  ∀ (c : Chan) (s : State) (q : QWord) (rest : List QWord), inQueue s c = q :: rest → supTakes s = true →
    chanBusy s c = false →
    let ws := q.w :: rest.map (·.w)
    let n := pktCount ws
    let rq : Req := { src := .chan c, tag := BitVec.ofNat 8 (pktTag ws), stamp := q.stamp, params := pktParams ws }
    let turn : Prop := ∀ d ∈ cmdChans, ∀ a b, packetArrival s c = some a → packetArrival s d = some b →
      a < b ∨ (a = b ∧ chanCode c ≤ chanCode d)
    (turn → n ≤ 14 → n + 2 ≤ ws.length → packetCheck (ws.take (n + 2)) = none → policyCheck s (pktOp ws) rq.params c q.stamp = none →
      ∃ t f, Claims.Runs (.crownPacketTake c) s t ∧ Claims.Only [.sys, .mbx] s t ∧ inQueue t c = (q :: rest).drop (n + 2) ∧
        chanBusy t c = true ∧ t.sys.cnt.rx = s.sys.cnt.rx + 1 ∧ t.mbx.forwards = s.mbx.forwards ++ [f] ∧
        f.core = coreFor s (pktOp ws) rq.params ∧ f.rq = rq ∧ f.opcode.toNat = pktOp ws) ∧
    (turn → n ≤ 14 → n + 2 ≤ ws.length → pktCrc (ws.take (n + 2)) = false →
      ∃ u, Claims.Runs (.crownPacketTake c) s (replyChan c (pktOp ws) rq { st := .badCrc } false u) ∧
        inQueue u c = (q :: rest).drop (n + 2) ∧ u.sys.cnt.rx = s.sys.cnt.rx + 1 ∧
        u.sys.cnt.badCrc = s.sys.cnt.badCrc + 1 ∧ Claims.Only [.sys, .mbx] s u) ∧
    (n ≤ 14 → ws.length < n + 2 → Claims.Runs (.crownPacketTake c) s s ∧
      ∃ u a, a.st = .badLength ∧ Claims.Runs (.crownWordTimeout c) s (replyChan c (pktOp ws) { rq with params := [] } a false u) ∧
        inQueue u c = [] ∧ u.sys.cnt.badLength = s.sys.cnt.badLength + 1 ∧ Claims.Only [.sys, .mbx] s u) ∧
    (turn → 14 < n → ∃ u a, a.st = .badLength ∧ Claims.Runs (.crownPacketTake c) s (replyChan c (pktOp ws) rq a false u) ∧
      inQueue u c = [] ∧ u.sys.cnt.badLength = s.sys.cnt.badLength + 1 ∧ Claims.Only [.sys, .mbx] s u) ∧
    (∀ f, s.mbx.forwards.find? (fun f => f.rq.src == .chan c && !inDial s f.rq.src) = some f → ∃ u,
      Claims.Runs (.crownReplyTimeout c) s (detectCore f.core 5 (reply f.opcode.toNat f.rq { st := .timeout } u)) ∧
        u.sys.cnt.timeout = s.sys.cnt.timeout + 1 ∧ u.mbx.forwards = s.mbx.forwards)

/-- Messages that wait for space (R70, R375, R376): one that fits enters its queue whole and ends its command; one that
found no space within 100 ms is dropped with its words, flagged and counted; an internal request is then answered BUSY. -/
def Claims.WaitingMessagesComplete : Prop :=
  ∀ (s : State),
    (∀ (n : Fin 8) (m : OutMsg), s.mbx.m[n].outWait = [m] → s.mbx.m[n].outQ.length + m.rest.length ≤ 16 →
      ∃ t, Claims.Runs (.queueSpacePost (.m n)) s t ∧ Claims.Only [.mbx] s t ∧
        t.mbx.m[n].outQ = s.mbx.m[n].outQ ++ m.rest ∧ t.mbx.m[n].outWait = [] ∧
        t.mbx.m[n].busy = (s.mbx.m[n].busy && !m.endsCmd)) ∧
    (∀ j : Fin 4, Claims.Runs (.queueSpacePost (.j j)) s (pourJ j s)) ∧
    (∀ (n : Fin 8) (m : OutMsg) (rest : List OutMsg), s.mbx.m[n].outWait = m :: rest →
      ∃ t, Claims.Runs (.hostQueueDrop n) s t ∧ Claims.Only [.mbx, .sys, .dial] s t ∧ t.mbx.m[n].outWait = rest ∧
        t.mbx.m[n].outQ = s.mbx.m[n].outQ.take (s.mbx.m[n].outQ.length - m.posted) ∧ t.mbx.m[n].drop = true ∧
        t.mbx.outDrop = s.mbx.outDrop + 1 ∧ bit t.mbx.dbHost (16 + n.val) = true ∧
        t.sys.cnt.replyDrop = (if m.endsCmd then s.sys.cnt.replyDrop + 1 else s.sys.cnt.replyDrop) ∧
        t.dial.counters[8] = (if m.isDial then s.dial.counters[8] + 1 else s.dial.counters[8])) ∧
    (∀ (i : Fin 16) (m : IcMsg) (rest : List IcMsg), s.mbx.ic[i].reqWait = m :: rest →
      Claims.Runs (.internalQueueDrop i) s (reply m.opcode.toNat m.rq { st := .busy } s)) ∧
    (∀ (i : Fin 16) (m : OutMsg) (rest : List OutMsg), s.mbx.ic[i].reqWait = [] → s.mbx.ic[i].retWait = m :: rest →
      ∃ t, Claims.Runs (.internalQueueDrop i) s t ∧ Claims.Only [.mbx] s t ∧ t.mbx.ic[i].retWait = rest ∧
        t.mbx.outDrop = s.mbx.outDrop + 1)

/-- Taking Crown packets and waiting for queue space: `Claims.CrownEventsComplete` and `Claims.WaitingMessagesComplete`. -/
def Obligations.CrownEventsComplete : Prop := Claims.CrownEventsComplete ∧ Claims.WaitingMessagesComplete

/-- Wake sources (R412, R416 to R419): an enabled source starts a profile wake to WAKE_TO from any profile but RUN, is
recorded by a running wake, and is held by a running entry; of the ports such a wake changes no more than that a synthesizer
attempts its lock (R85). -/
def Obligations.WakeSourcesComplete : Prop :=
  ∀ (s : State),
    (∀ p : LPort, s.power.wakeLight.getLsbD p.val = true → s.power.lightArmed.getLsbD p.val = true →
      s.ports[p].front.light = true → Claims.Runs (.lightWake p) s (profileWake 1 (BitVec.ofNat 6 p.val) s)) ∧
    (∀ p : LPort, s.power.profile = .dark → s.power.wakeJrx.getLsbD p.val = true →
      Claims.Runs (.keepAliveDetect p) s (profileWake 6 (BitVec.ofNat 6 p.val) s)) ∧
    (∀ k : HLane, k.val % 8 = 0 → bit s.lanes[k].w1 22 = true →
      Claims.Runs (.hostWakePattern k) s (profileWake 3 (BitVec.ofNat 6 k.val) s)) ∧
    (∀ p : LPort, keysLight s p = true → ∃ t, Claims.Runs (.keepAliveKeying p) s t ∧ Claims.Only [.ports] s t ∧
      t.ports[p].front.keyStart = some s.sys.usec) ∧
    (∀ (code : BitVec 4) (arg : BitVec 6),
      (s.power.trans = none → s.power.profile = .run → profileWake code arg s = s) ∧
      (s.power.trans = none → s.power.profile ≠ .run → ∃ tr, (profileWake code arg s).power.trans = some tr ∧
        tr.isWake = true ∧ tr.asking = false ∧ tr.profile = some s.power.wakeTo ∧ tr.reached = [] ∧
        (profileWake code arg s).power.report.source = code ∧ (profileWake code arg s).power.report.arg = arg ∧
        (profileWake code arg s).power.lost = 0 ∧ Claims.Only [.power, .ports] s (profileWake code arg s)) ∧
      (∀ tr, s.power.trans = some tr → tr.isWake = false → profileWake code arg s =
        modPower (fun p => { p with heldWakes := p.heldWakes ++ [(code, arg)] }) s))

/-- The answers to a power request (R14, R410, R411, R415, R428): with none refusing, the transition begins, and with an upward
profile its wake report; otherwise nothing changes its state, every refusal is logged and the request ends. DIAL is asked
about a domain only when an event that waits needs it, JG about a port only when a Joryx route or a frame uses the port. -/
def Claims.PowerAnswersComplete : Prop :=
  ∀ (s : State) (t : Trans), s.power.trans = some t → t.asking = true →
    let downs := t.moves.filter goesDown
    (refusals s downs = [] → ∃ u, Claims.Runs .powerAnswersReceived s u ∧ Claims.Only [.power, .pool, .ports] s u ∧
      u.power.trans = some { t with asking := false } ∧ (∀ d, domSt u d = domSt s d) ∧
      (t.isWake = true → u.power.report.source = 7 ∧ u.power.report.fromP = s.power.profile ∧ u.power.lost = 0)) ∧
    (refusals s downs ≠ [] → s.power.heldWakes = [] → ∃ u, Claims.Runs .powerAnswersReceived s u ∧ u.power.trans = none ∧
      (∀ d, domSt u d = domSt s d) ∧ ∀ r ∈ refusals s downs, ∃ e ∈ u.power.log, e.refuser.toNat = r.1 ∧ e.reason.toNat = r.2) ∧
    (∀ (d : Dom) (q : LPort), (isAsked s d .dial = true → ∃ e ∈ s.dial.evs, e.waits = true ∧ (eventNeeds s e).contains d = true) ∧
      (isAsked s (.ld q) .jg = true → (∃ r ∈ s.jrx.routes, r.port = q) ∨ s.jrx.ports[q].egress ≠ [])) ∧
    (∀ who : Party, (∃ m ∈ downs, isAsked s m.1 who = true) → s.power.heldWakes = [] → ∃ u, Claims.Runs (.noAnswer who) s u ∧
      u.power.trans = none ∧ (∀ d, domSt u d = domSt s d) ∧
      ∃ e ∈ u.power.log, e.refuser.toNat = partyCode who ∧ e.reason = 13)

/-- The ends of transitions (R207, R409, R410, R419, R420, R426): a transition of one domain takes it to its state and no other
(of a quad, when its engines have finished their codewords, and not before);
a waking domain reaches its state; after the bank checks CTL is up; a profile wake ends with WAKE_SEQ one higher, its profile
in force and WAKE set. -/
def Claims.PowerTransitionsComplete : Prop :=
  ∀ (s : State) (t : Trans), s.power.trans = some t → t.asking = false →
    (∀ (d : Dom) (a b : PState), t.isWake = false → t.moves = [(d, a, b)] → t.reached = [] → d ≠ .aon → a ≠ b →
      domSt s d = a → unitHeld s (domUnit d) = false → s.power.heldWakes = [] → t.rq = none →
      (∀ k : Fin 64, d = .fq (quadOf k) → s.pool.engines[k].running = none) →
      ∃ u, Claims.Runs .powerTransitionComplete s u ∧ domSt u d = b ∧ (∀ e, e ≠ d → domSt u e = domSt s e) ∧
        u.power.trans = none ∧ u.power.profile = t.profile.getD s.power.profile) ∧
    (∀ (k : Fin 64) (b : PState), t.moves = [(.fq (quadOf k), .on, b)] → b ≠ .on → s.pool.engines[k].running ≠ none →
      Claims.Runs .powerTransitionComplete s s) ∧
    (∀ (d : Dom) (m : Dom × PState × PState), t.isWake = false → d ≠ .aon → t.reached.contains d = false →
      recAsleep s d = false → t.moves.find? (fun m => m.1 == d && goesUp m) = some m → unitHeld s (domUnit d) = false →
      ∃ u, Claims.Runs (.domainWakeComplete d) s u ∧ domSt u d = m.2.2 ∧ (∀ e, e ≠ d → domSt u e = domSt s e) ∧
        u.power.trans = some { t with reached := t.reached ++ [d] }) ∧
    (∀ m, t.isWake = true → t.checked = false → t.reached.contains .ctl = false → t.moves.find? (·.1 == .ctl) = some m →
      ∃ u, Claims.Runs (.bankCheckDone 0) s u ∧ domSt u .ctl = m.2.2 ∧
        u.power.trans = some { t with checked := true, reached := t.reached ++ [.ctl] }) ∧
    (t.isWake = true → t.checked = true → s.sys.supRuns = true → s.power.heldWakes = [] → t.moves = [] → t.rq = none →
      ∃ u, Claims.Runs .wakeDone s u ∧ u.power.wakeSeq = s.power.wakeSeq + 1 ∧ u.power.trans = none ∧
        u.power.profile = t.profile.getD s.power.profile ∧ bit u.mbx.dbHost 26 = true)

/-- Answers, transitions and wakes of power: `Claims.PowerAnswersComplete` and `Claims.PowerTransitionsComplete`. -/
def Obligations.PowerTransitionsComplete : Prop := Claims.PowerAnswersComplete ∧ Claims.PowerTransitionsComplete

/-- The test access port (R482, R509 to R511): the driving instructions and HIGHZ hold the part in reset, its DRV_EN balls
follow their cells or are not driven; the others only select; TEST_LOGIC_RESET releases the part; TEST_MBX posts, takes and resets
on M7 and does nothing but report 2 while the part is in reset. -/
def Obligations.TestAccessCompletes : Prop :=
  ∀ (s : State),
    (∀ (c : Instr) (ir : TapIr), (c, ir) ∈ [(Instr.extest, TapIr.extest), (.clamp, .clamp), (.highz, .highz),
        (.extestPulse, .extestPulse), (.extestTrain, .extestTrain)] →
      ∃ t, Claims.Runs c s t ∧ t.test.ir = ir ∧ t.test.held = true ∧ t.sys.inReset = true ∧ t.sys.supRuns = false ∧
        ∀ p : LPort, drvPin t p = (if ir.drives then some (s.test.drvCells.getLsbD p.val) else none)) ∧
    Claims.Runs .bypass s (modTest (fun t => { t with ir := .bypass }) s) ∧
    Claims.Runs .idcode s (modTest (fun t => { t with ir := .idcode }) s) ∧
    (∀ (d : BitVec 4) (cs : List Bool), Claims.Runs (.samplePreload d cs) s
      (modTest (fun t => { t with ir := .samplePreload, drvCells := d, cells := cs }) s)) ∧
    Claims.Runs .testLogicReset s (modTest (fun t => { t with ir := .idcode, held := false }) s) ∧
    (∀ w : Word, ∀ c ∈ [Instr.testMbxPost w, .testMbxTake, .testMbxReset], s.sys.inReset = true →
      Claims.Runs c s (modTest (fun t => { t with ir := .testMbx, drWord := none, drStat := 2 }) s)) ∧
    (s.sys.inReset = false → let m := s.mbx.m[(7 : Fin 8)]
      (∀ w : Word, m.inQ.length < 16 → m.inPart = none → ∃ t q, Claims.Runs (.testMbxPost w) s t ∧
        Claims.Only [.mbx, .test, .power] s t ∧ t.mbx.m[(7 : Fin 8)].inQ = m.inQ ++ [q] ∧ q.w = w ∧ q.start = true ∧
        q.stamp.cls = 4 ∧ t.test.drStat = 0) ∧
      (∀ q rest, m.outQ = q :: rest → m.outWait = [] → ∃ t, Claims.Runs .testMbxTake s t ∧ Claims.Only [.mbx, .test] s t ∧
        t.mbx.m[(7 : Fin 8)].outQ = rest ∧ t.test.drWord = some q.w ∧ t.test.drStat = 0) ∧
      (m.outQ = [] → ∃ t, Claims.Runs .testMbxTake s t ∧ t.test.drStat = 1 ∧ t.mbx.m[(7 : Fin 8)].underrun = true) ∧
      ∃ t, Claims.Runs .testMbxReset s t ∧ Claims.Only [.mbx, .test] s t ∧ t.mbx.m[(7 : Fin 8)].outQ = [] ∧
        t.mbx.m[(7 : Fin 8)].genTest = m.genTest + 1 ∧ t.test.drStat = 0)

/-- LOUPE_SET and LOOPBACK_SET complete (R512 to R514): a loopback's flag follows SET on its port or its lanes. -/
def Obligations.TestCommandsComplete : Prop :=
  ∀ (rq : Req) (s : State),
    ((bit (par rq 0) 31 = true → pf rq 0 30 25 ≤ 44) → (bit (par rq 0) 24 = true → pf rq 0 23 18 ≤ 44) →
      (bit (par rq 0) 17 = true → pf rq 0 16 9 ≤ 65) → (bit (par rq 0) 8 = true → pf rq 0 7 0 ≤ 65) →
      Claims.Runs (.loupeSet rq) s (reply 0xF001 rq (okay []) (modTest (fun t => { t with loupe := par rq 0 }) s))) ∧
    (∀ (kind : Nat) (on : Bool) (p : LPort), kind = pf rq 0 31 29 → on = bit (par rq 0) 28 → p.val = pf rq 0 27 26 →
      1 ≤ kind → kind ≤ 4 → pf rq 0 25 0 = 0 → (kind < 3 → par rq 1 = 0) →
      (on = true → firstFail (loopbackStates kind p (lanesIn (par rq 1)) s) = none) →
      ∃ u, Claims.Runs (.loopbackSet rq) s (reply 0xF002 rq (okay []) u) ∧
        (∀ q : LPort, u.map.loopDigital.getLsbD q.val =
          if kind = 1 ∧ q = p then on else s.map.loopDigital.getLsbD q.val) ∧
        (∀ q : LPort, kind ≠ 1 → u.map.loopPayload.getLsbD q.val =
          if kind = 2 ∧ q = p then on else s.map.loopPayload.getLsbD q.val) ∧
        ∀ k : HLane, u.lanes[k].near = (if kind = 3 ∧ bit (par rq 1) k.val = true then on else s.lanes[k].near) ∧
          u.lanes[k].far = (if kind = 4 ∧ bit (par rq 1) k.val = true then on else s.lanes[k].far))

/-- A transmit boundary (R44, R46, R47, R52, R77, R92, R293): while LDn is ON, on a terminal port, the count rises by one, from
0 for the first superframe after reset, NAP or OFF, and the superframe that begins carries it, the format in use, the SPAN_BIP
of the SFOH and payload before it, and its own CRC; a slot without a client carried what the framer had settled for it. With no
event on TX(LPn) in the Dial and no new sample clock the format stays and a mute ends when no source is active. While LDn is
not ON only the held counts go on, and the converter levels while CVn is ON. -/
def Claims.TransmitBoundaryCompletes : Prop :=
  ∀ (p : LPort) (o : TxObs) (s : State),
    (isOn s (.ld p) = false → ∃ t, Claims.Runs (.txSuperframeBoundary p o) s t ∧
      t.ports[p].sf.tx = s.ports[p].sf.tx ∧ t.ports[p].sf.heldTx = s.ports[p].sf.heldTx.map (· + 1) ∧
      t.ports[p].front.level = (if isOn s (.cv p) then o.levels else s.ports[p].front.level) ∧
      t.ports[p].front.muted = s.ports[p].front.muted ∧ t.ports[p].front.drvEn = s.ports[p].front.drvEn ∧
      (∀ q, q ≠ p → t.ports[q] = s.ports[q]) ∧ (s.sys.reports = [] → Claims.Only [.ports, .sys] s t ∧ t.sys = s.sys)) ∧
    (isOn s (.ld p) = true → regen s p = false → ∃ t, Claims.Runs (.txSuperframeBoundary p o) s t ∧
      let f := t.ports[p].sf
      let g := s.ports[p].sf
      f.tx = (if g.framing then g.local_ + 1 else g.local_) ∧ f.local_ = f.tx ∧ f.framing = true ∧
      f.sent[0].toNat = psHi f.tx ∧ fld f.sent[1] 31 16 = psLo f.tx ∧ fld f.sent[1] 15 12 = 1 ∧
      f.sent[5] = t.ports[p].tr.txNow ∧ f.sent[63] = crc32c (f.sent.toList.take 63) ∧
      (g.framing = true → f.sent[3] = spanBip (dRate s.ports[p].tr.txNow) g.sent f.sentPay ∧
        ∀ i : Fin 16, slotClient s p i.val = none → f.sentPay[i] = g.pay[i]) ∧
      ((∀ e ∈ s.dial.evs, e.ref ≠ txRef p) → s.ports[p].front.nextSclk = none →
        t.ports[p].tr.txNow = s.ports[p].tr.txNow ∧
        t.ports[p].front.muted = anyMute t p ∧ t.ports[p].front.drvEn = s.ports[p].front.drvEn))

/-- A receive boundary (R57, R113, R130): with no event on RX(LPn) in the Dial, the flywheel counts on, the values of the
superframe are reported and join the averages, which a 256th superframe makes the estimates, and the rotator takes the
residual that stage 7 feeds back; with LDn not ON, or in DOWN, nothing happens. Blocks of 256 superframes are the model's
choice (log entry 136). -/
def Claims.ReceiveBoundaryCompletes : Prop :=
  ∀ (p : LPort) (o : RxObs) (s : State),
    (isOn s (.ld p) = false ∨ s.ports[p].tr.state = .down → Claims.Runs (.rxSuperframeBoundary p o) s s) ∧
    (isOn s (.ld p) = true → s.ports[p].tr.state ≠ .down → (∀ e ∈ s.dial.evs, e.ref ≠ rxRef p) →
      ∃ t, Claims.Runs (.rxSuperframeBoundary p o) s t ∧ t.ports[p].sf.fly = s.ports[p].sf.fly + 1 ∧
      t.ports[p].sf.lock = s.ports[p].sf.lock ∧ t.ports[p].tr.state = s.ports[p].tr.state ∧
      let a := s.ports[p].rx.acc
      let r := t.ports[p].rx
      r.est.sfX = o.snrX ∧ r.est.sfY = o.snrY ∧ r.rotator = s.ports[p].rx.rotator + o.foRes ∧
      (a.n < 255 → r.acc.n = a.n + 1 ∧ r.acc.snrX = a.snrX + o.snrX.toNat ∧ r.est.snrX = s.ports[p].rx.est.snrX) ∧
      (a.n = 255 → r.acc.n = 0 ∧ r.est.snrX = BitVec.ofInt 16 (rdiv (a.snrX + o.snrX.toNat) 256) ∧
        r.est.snrY = BitVec.ofInt 16 (rdiv (a.snrY + o.snrY.toNat) 256)))

/-- The boundary of its target exchanges the copies of a staged EXACT event (R31, R128, R178, R297, R300): a
LINE_RX_CONFIG on RX(LPn) puts the selected ones of words 5 to 7 in force, a LINE_TX_CONFIG on TX(LPn) a selected word
3, and the event is RELEASED. -/
def Claims.BoundaryExchanges : Prop :=
  ∀ (p : LPort) (s : State) (e : DialEv), isOn s (.ld p) = true → e.exact = true → e.kind = .stored →
    e.phase = .staged → e.stagingDone = true → pport { src := e.src, tag := 0, stamp := e.stamp, params := e.params } 0 = p →
    (∀ a ∈ s.dial.evs, a.idx = e.idx → a = e) →
    (∀ o : RxObs, s.dial.evs.filter (·.ref == rxRef p) = [e] → e.opcode = 0x2003 → s.ports[p].tr.state ≠ .down →
      s.ports[p].sf.lock = true → e.target = s.ports[p].sf.fly + 1 →
      ∃ t, Claims.Runs (.rxSuperframeBoundary p o) s t ∧ (∀ x ∈ t.dial.evs, x.idx = e.idx → x.phase = .released) ∧
        ∀ k : Fin 8, k.val ∈ [4, 5, 6] → bit (e.params.getD 0 0) k.val = true →
          t.ports[p].rx.cfg[k] = e.params.getD (k.val + 1) 0) ∧
    (∀ o : TxObs, s.dial.evs.filter (·.ref == txRef p) = [e] → e.opcode = 0x2004 → regen s p = false →
      s.ports[p].front.nextSclk = none → e.target = (if s.ports[p].sf.framing then s.ports[p].sf.local_ + 1
        else s.ports[p].sf.local_) → bit (e.params.getD 0 0) 2 = true →
      ∃ t, Claims.Runs (.txSuperframeBoundary p o) s t ∧ (∀ x ∈ t.dial.evs, x.idx = e.idx → x.phase = .released) ∧
        t.ports[p].tx.cfg[2] = e.params.getD 3 0)

/-- Superframe boundaries: `Claims.TransmitBoundaryCompletes` and `Claims.ReceiveBoundaryCompletes` and `Claims.BoundaryExchanges`. -/
def Obligations.SuperframeBoundariesComplete : Prop := Claims.TransmitBoundaryCompletes ∧ Claims.ReceiveBoundaryCompletes ∧ Claims.BoundaryExchanges

/-- The boundary that a report waits for takes its snapshot and answers it, once (R13, R349): the answers come in the order in
which the reports began, each reads the state that the one before it left, every report of another boundary goes on waiting,
and a boundary that no report waits for changes nothing. A report whose framer is no longer ON is answered at the next boundary
that any port gives, which is the model's choice (log entry 130). -/
def Obligations.WaitingReportsAnswered : Prop :=
  ∀ (ref : RefCode) (s : State),
    let due := s.sys.reports.filter fun r => reportRef s r.at_ == ref || !isOn s (.ld (refPort (reportRef s r.at_)))
    let left := s.sys.reports.filter fun r => !due.contains r
    let u := modSys (fun y => { y with reports := left }) s
    (due = [] → takeReports ref s = s) ∧
    takeReports ref s = due.foldl (fun t r => takeReport r t) u ∧
    (∀ (r : ReportWait) (t : State), r.opcode = 0x0002 → takeReport r t = reply 0x0002 r.rq (okay (statusWords t)) t) ∧
    (∀ (r : ReportWait) (t : State) (p : LPort), r.opcode = 0x2005 → p = pport r.rq 0 → pf r.rq 0 29 24 = 0 →
      isOn t (.ld p) = true → takeReport r t = reply 0x2005 r.rq (okay (t.ports[p].rx.snap.toList.take 10)) t) ∧
    (∀ (r : ReportWait) (t : State), r.opcode = 0x6005 →
      takeReport r t = reply 0x6005 r.rq (okay (dialTimeWords (pport r.rq 0) t)) t) ∧
    ∀ (p : LPort), (∀ o : TxObs, (isOn s (.ld p) = false ∨ (s.dial.evs = [] ∧ s.ports[p].front.nextSclk = none)) →
        ∃ t, Claims.Runs (.txSuperframeBoundary p o) s (takeReports (txRef p) t) ∧ t.sys.reports = s.sys.reports) ∧
      ∀ o : RxObs, isOn s (.ld p) = true → s.ports[p].tr.state ≠ .down → s.ports[p].sf.lock = true →
        (∀ e ∈ s.dial.evs, e.ref ≠ rxRef p) →
        ∃ t, Claims.Runs (.rxSuperframeBoundary p o) s (takeReports (rxRef p) (snapshot p t)) ∧ t.sys.reports = s.sys.reports

/-- A received SFOH (R46, R51, R57 to R59): one that is not good counts and gives no field; a good one without lock counts
towards the lock; a good one with lock counts as a mismatch when its PSFN is not the label. -/
def Claims.SfohReceiveCompletes : Prop :=
  ∀ (p : LPort) (o : SfohObs) (s : State), isOn s (.ld p) = true → s.ports[p].sf.aligned = true →
    s.pool.ports[p].inPool = true →
    let f := s.ports[p].sf
    (sfohGood o.words = false → ∃ t, Claims.Runs (.sfohReceive p o) s t ∧ t.ports[p].sf.sfohBad = f.sfohBad + 1 ∧
      t.ports[p].sf.badRun = f.badRun + 1 ∧ t.ports[p].sf.goodRun = 0 ∧ t.ports[p].sf.pathWord = f.pathWord ∧
      t.ports[p].sf.lock = f.lock) ∧
    (sfohGood o.words = true → f.lock = false → ∃ t, Claims.Runs (.sfohReceive p o) s t ∧ t.ports[p].sf.badRun = 0 ∧
      t.ports[p].sf.lastGood = sfohPsfn o.words ∧ t.ports[p].sf.pathWord = o.words[12] ∧ t.ports[p].sf.lastFmt = o.words[5] ∧
      t.ports[p].sf.goodRun = (if 0 < f.goodRun ∧ sfohPsfn o.words = f.lastGood + 1 then f.goodRun + 1 else 1)) ∧
    (sfohGood o.words = true → f.lock = true → ∃ t, Claims.Runs (.sfohReceive p o) s t ∧
      t.ports[p].sf.sfohBad = f.sfohBad ∧
      t.ports[p].sf.psfnMismatch = if sfohPsfn o.words = labelOf s p o.lag then f.psfnMismatch else f.psfnMismatch + 1)

/-- Alignment, lock and jumps (R43, R51, R55, R58, R59, R124, R245). K_REGEN is the least whole number of superframes that covers
the worst-case delay of the direction, part of which the manual leaves open (log entry 149). -/
def Claims.LockEventsComplete : Prop :=
  ∀ (p : LPort) (s : State),
    let f := s.ports[p].sf
    (3 ≤ f.fmtRun → Claims.Runs (.formatMismatch p) s (modSf p (fun f => { f with fmtMismatch := true }) s)) ∧
    (s.ports[p].rx.frameAligned = true → f.aligned = false → ∃ t, Claims.Runs (.sfAlignment p) s t ∧
      Claims.Only [.ports] s t ∧ t.ports[p].sf.aligned = true ∧
      t.ports[p].rx.step = (if s.pool.ports[p].inPool then 6 else s.ports[p].rx.step)) ∧
    (f.aligned = true → ∃ t, Claims.Runs (.sfAlignLoss p) s t ∧ t.ports[p].sf.aligned = false ∧
      t.ports[p].sf.lock = false ∧ t.ports[p].sf.alignLoss = f.alignLoss + 1 ∧ t.ports[p].rx.los = s.ports[p].rx.los + 1) ∧
    (isOn s (.ld p) = true → f.aligned = true → f.lock = false → 3 ≤ f.goodRun → ∃ t, Claims.Runs (.psfnLock p) s t ∧
      t.ports[p].sf.lock = true ∧ t.ports[p].sf.fly = psfnAdd f.lastGood f.lastLag ∧ t.ports[p].sf.heldRx = none ∧
      t.ports[p].rx.step = 7 ∧ t.ports[p].rx.running = false) ∧
    (f.lock = true → 16 ≤ f.badRun → ∃ t, Claims.Runs (.psfnLockLoss p) s t ∧ t.ports[p].sf.lock = false ∧
      (s.ports[p].tr.state = .traffic → t.ports[p].tr.state = .holdover)) ∧
    (f.lock = true → 3 ≤ f.misRun → ∃ t, Claims.Runs (.psfnJump p) s t ∧ t.ports[p].sf.lock = true ∧
      t.ports[p].sf.fly = psfnAdd f.misLast f.misLag ∧ t.ports[p].sf.misRun = 0 ∧
      t.ports[p].sf.psfnJump = f.psfnJump + 1) ∧
    (∀ ns : Nat, regen s p = true → isOn s (.ld p) = true → f.kRegen = none → s.ports[mate p].sf.lock = true →
      txSwitchWaits s p = false → ∃ t k, Claims.Runs (.forwardingStart p ns) s t ∧ t.ports[p].sf.kRegen = some (BitVec.ofNat 8 k) ∧
        (let n := s.ports[mate p]
        (∀ j : Nat, k ≤ j ↔ regenDelay n.tr.rate.toNat n.rx.overlap.toNat ns ≤ j * (9 * 2 ^ 22)) ∧
          t.ports[p].sf.tx = psfnAdd n.sf.fly (-(k : Int))) ∧
        t.ports[p].sf.everFwd = true ∧ Claims.Only [.ports] s t)

/-- Received overhead and superframe lock: `Claims.SfohReceiveCompletes` and `Claims.LockEventsComplete`. -/
def Obligations.OverheadEventsComplete : Prop := Claims.SfohReceiveCompletes ∧ Claims.LockEventsComplete

/-- The events of Complication (R141, R142, R146): an alignment whose correlation peak lies within ±16 ns makes its member ready,
with the delay of the walk-off, the pipeline and the peak, each rounded to 0.1 ns (log entry 140); one beyond ±1.6 µs raises
NLC_SKEW, and a peak outside the window does nothing. A member of the group that has tracked for 256 superframes fades in. A
fade is done after its sixteenth superframe, not before, and counts. -/
def Obligations.NlcEventsComplete : Prop :=
  ∀ (p j : LPort) (s : State),
    (∀ d : Int, j ≠ p → j ∈ groupOf s p → let x := s.ports[p]
      let delay := rdiv (x.rx.lastCd * (centre s.ports[j].nlc - centre x.nlc) * 401) 800000 +
        Config.pipelineDiff p.val j.val + rdiv (d * 320) (9 * (240 + x.tr.rate.toNat))
      (d.natAbs * 320 ≤ 160 * (9 * (240 + x.tr.rate.toNat)) → ∃ t, Claims.Runs (.nlcAlignDone p j d) s t ∧
        Claims.Only [.ports, .alarms, .mbx] s t ∧ t.ports[p].nlc.members[j].aligned = true ∧
        t.ports[p].nlc.members[j].delay = delay ∧
        (16000 < delay.natAbs → alarmOn t (.line p) 7 = true) ∧ (delay.natAbs ≤ 16000 → t.alarms = s.alarms)) ∧
      (160 * (9 * (240 + x.tr.rate.toNat)) < d.natAbs * 320 → Claims.Runs (.nlcAlignDone p j d) s s)) ∧
    (s.ports[p].nlc.members[j].active = false → 256 ≤ s.ports[p].nlc.members[j].tracked → j ≠ p → j ∈ groupOf s p →
      crossOk s p = true → s.ports[p].nlc.rx.on = true → memberRuns s p j = true → memberMatches s p j = true →
      ∃ t, Claims.Runs (.nlcMemberFadeIn p j) s t ∧ Claims.Only [.ports] s t ∧
        t.ports[p].nlc.members[j].active = true ∧ t.ports[p].nlc.members[j].fade = some 0) ∧
    (∀ (u : NlcUse) (i : Nat), s.ports[p].nlc.rxFade = some (u, i) →
      (15 ≤ i → Claims.Runs (.nlcFadeDone p false) s
        (modNlc p (fun n => { n with rxFade := none, switches := n.switches + 1 }) s)) ∧
      (i < 15 → Claims.Runs (.nlcFadeDone p false) s s)) ∧
    (∀ (u : NlcUse) (i : Nat), s.ports[p].nlc.txFade = some (u, i) →
      (15 ≤ i → Claims.Runs (.nlcFadeDone p true) s
        (modNlc p (fun n => { n with txFade := none, switches := n.switches + 1 }) s)) ∧
      (i < 15 → Claims.Runs (.nlcFadeDone p true) s s))
end

