-- ==== Sys2Proof/Laws/State.lean ====
section
/-! SUPPORT. One lemma for each field of the state and each update of one part, so that no proof unfolds a record
update; and reading a table after an update of one entry. -/

namespace Sys2Proof

@[simp] theorem vset_same {α : Type} {n : Nat} (v : Vector α n) (i : Fin n) (x : α) : (vset v i x)[i] = x := by
  simp [vset]

@[simp] theorem vset_other {α : Type} {n : Nat} (v : Vector α n) (i j : Fin n) (x : α) (h : j ≠ i) :
    (vset v i x)[j] = v[j] := by
  have : i.val ≠ j.val := fun e => h (Fin.ext e.symm)
  simp [vset, Vector.getElem_set_ne, this]

@[simp] theorem vmod_same {α : Type} {n : Nat} (v : Vector α n) (i : Fin n) (f : α → α) : (vmod v i f)[i] = f v[i] :=
  vset_same v i _

@[simp] theorem vmod_other {α : Type} {n : Nat} (v : Vector α n) (i j : Fin n) (f : α → α) (h : j ≠ i) :
    (vmod v i f)[j] = v[j] :=
  vset_other v i j _ h

@[simp] theorem vset_same_val {α : Type} {n : Nat} (v : Vector α n) (i : Fin n) (x : α) (h : i.val < n) :
    (vset v i x)[i.val]'h = x := by
  simp [vset]

@[simp] theorem vset_other_val {α : Type} {n : Nat} (v : Vector α n) (i j : Fin n) (x : α) (h : j ≠ i) (hj : j.val < n) :
    (vset v i x)[j.val]'hj = v[j.val]'hj := vset_other v i j x h

@[simp] theorem vmod_same_val {α : Type} {n : Nat} (v : Vector α n) (i : Fin n) (f : α → α) (h : i.val < n) :
    (vmod v i f)[i.val]'h = f (v[i.val]'h) := vmod_same v i f

@[simp] theorem vmod_other_val {α : Type} {n : Nat} (v : Vector α n) (i j : Fin n) (f : α → α) (h : j ≠ i) (hj : j.val < n) :
    (vmod v i f)[j.val]'hj = v[j.val]'hj := vmod_other v i j f h


end Sys2Proof

namespace Sys2Proof.Machine

@[simp] theorem modPort_sys (p : LPort) (f : PortSt → PortSt) (s : State) : (modPort p f s).sys = s.sys := rfl
@[simp] theorem modPort_power (p : LPort) (f : PortSt → PortSt) (s : State) : (modPort p f s).power = s.power := rfl
@[simp] theorem modPort_mbx (p : LPort) (f : PortSt → PortSt) (s : State) : (modPort p f s).mbx = s.mbx := rfl
@[simp] theorem modPort_twi (p : LPort) (f : PortSt → PortSt) (s : State) : (modPort p f s).twi = s.twi := rfl
@[simp] theorem modPort_ports (p : LPort) (f : PortSt → PortSt) (s : State) : (modPort p f s).ports = vmod s.ports p f := rfl
@[simp] theorem modPort_pool (p : LPort) (f : PortSt → PortSt) (s : State) : (modPort p f s).pool = s.pool := rfl
@[simp] theorem modPort_lanes (p : LPort) (f : PortSt → PortSt) (s : State) : (modPort p f s).lanes = s.lanes := rfl
@[simp] theorem modPort_map (p : LPort) (f : PortSt → PortSt) (s : State) : (modPort p f s).map = s.map := rfl
@[simp] theorem modPort_dial (p : LPort) (f : PortSt → PortSt) (s : State) : (modPort p f s).dial = s.dial := rfl
@[simp] theorem modPort_mon (p : LPort) (f : PortSt → PortSt) (s : State) : (modPort p f s).mon = s.mon := rfl
@[simp] theorem modPort_alarms (p : LPort) (f : PortSt → PortSt) (s : State) : (modPort p f s).alarms = s.alarms := rfl
@[simp] theorem modPort_faults (p : LPort) (f : PortSt → PortSt) (s : State) : (modPort p f s).faults = s.faults := rfl
@[simp] theorem modPort_jrx (p : LPort) (f : PortSt → PortSt) (s : State) : (modPort p f s).jrx = s.jrx := rfl
@[simp] theorem modPort_test (p : LPort) (f : PortSt → PortSt) (s : State) : (modPort p f s).test = s.test := rfl
@[simp] theorem modPort_pins (p : LPort) (f : PortSt → PortSt) (s : State) : (modPort p f s).pins = s.pins := rfl
@[simp] theorem modPort_bulk (p : LPort) (f : PortSt → PortSt) (s : State) : (modPort p f s).bulk = s.bulk := rfl
@[simp] theorem modPort_free (p : LPort) (f : PortSt → PortSt) (s : State) : (modPort p f s).free = s.free := rfl
@[simp] theorem modPort_pending (p : LPort) (f : PortSt → PortSt) (s : State) : (modPort p f s).pending = s.pending := rfl

@[simp] theorem modFront_sys (p : LPort) (f : Front → Front) (s : State) : (modFront p f s).sys = s.sys := rfl
@[simp] theorem modFront_power (p : LPort) (f : Front → Front) (s : State) : (modFront p f s).power = s.power := rfl
@[simp] theorem modFront_mbx (p : LPort) (f : Front → Front) (s : State) : (modFront p f s).mbx = s.mbx := rfl
@[simp] theorem modFront_twi (p : LPort) (f : Front → Front) (s : State) : (modFront p f s).twi = s.twi := rfl
@[simp] theorem modFront_ports (p : LPort) (f : Front → Front) (s : State) : (modFront p f s).ports = vmod s.ports p fun x => { x with front := f x.front } := rfl
@[simp] theorem modFront_pool (p : LPort) (f : Front → Front) (s : State) : (modFront p f s).pool = s.pool := rfl
@[simp] theorem modFront_lanes (p : LPort) (f : Front → Front) (s : State) : (modFront p f s).lanes = s.lanes := rfl
@[simp] theorem modFront_map (p : LPort) (f : Front → Front) (s : State) : (modFront p f s).map = s.map := rfl
@[simp] theorem modFront_dial (p : LPort) (f : Front → Front) (s : State) : (modFront p f s).dial = s.dial := rfl
@[simp] theorem modFront_mon (p : LPort) (f : Front → Front) (s : State) : (modFront p f s).mon = s.mon := rfl
@[simp] theorem modFront_alarms (p : LPort) (f : Front → Front) (s : State) : (modFront p f s).alarms = s.alarms := rfl
@[simp] theorem modFront_faults (p : LPort) (f : Front → Front) (s : State) : (modFront p f s).faults = s.faults := rfl
@[simp] theorem modFront_jrx (p : LPort) (f : Front → Front) (s : State) : (modFront p f s).jrx = s.jrx := rfl
@[simp] theorem modFront_test (p : LPort) (f : Front → Front) (s : State) : (modFront p f s).test = s.test := rfl
@[simp] theorem modFront_pins (p : LPort) (f : Front → Front) (s : State) : (modFront p f s).pins = s.pins := rfl
@[simp] theorem modFront_bulk (p : LPort) (f : Front → Front) (s : State) : (modFront p f s).bulk = s.bulk := rfl
@[simp] theorem modFront_free (p : LPort) (f : Front → Front) (s : State) : (modFront p f s).free = s.free := rfl
@[simp] theorem modFront_pending (p : LPort) (f : Front → Front) (s : State) : (modFront p f s).pending = s.pending := rfl

@[simp] theorem modRx_sys (p : LPort) (f : Rx → Rx) (s : State) : (modRx p f s).sys = s.sys := rfl
@[simp] theorem modRx_power (p : LPort) (f : Rx → Rx) (s : State) : (modRx p f s).power = s.power := rfl
@[simp] theorem modRx_mbx (p : LPort) (f : Rx → Rx) (s : State) : (modRx p f s).mbx = s.mbx := rfl
@[simp] theorem modRx_twi (p : LPort) (f : Rx → Rx) (s : State) : (modRx p f s).twi = s.twi := rfl
@[simp] theorem modRx_ports (p : LPort) (f : Rx → Rx) (s : State) : (modRx p f s).ports = vmod s.ports p fun x => { x with rx := f x.rx } := rfl
@[simp] theorem modRx_pool (p : LPort) (f : Rx → Rx) (s : State) : (modRx p f s).pool = s.pool := rfl
@[simp] theorem modRx_lanes (p : LPort) (f : Rx → Rx) (s : State) : (modRx p f s).lanes = s.lanes := rfl
@[simp] theorem modRx_map (p : LPort) (f : Rx → Rx) (s : State) : (modRx p f s).map = s.map := rfl
@[simp] theorem modRx_dial (p : LPort) (f : Rx → Rx) (s : State) : (modRx p f s).dial = s.dial := rfl
@[simp] theorem modRx_mon (p : LPort) (f : Rx → Rx) (s : State) : (modRx p f s).mon = s.mon := rfl
@[simp] theorem modRx_alarms (p : LPort) (f : Rx → Rx) (s : State) : (modRx p f s).alarms = s.alarms := rfl
@[simp] theorem modRx_faults (p : LPort) (f : Rx → Rx) (s : State) : (modRx p f s).faults = s.faults := rfl
@[simp] theorem modRx_jrx (p : LPort) (f : Rx → Rx) (s : State) : (modRx p f s).jrx = s.jrx := rfl
@[simp] theorem modRx_test (p : LPort) (f : Rx → Rx) (s : State) : (modRx p f s).test = s.test := rfl
@[simp] theorem modRx_pins (p : LPort) (f : Rx → Rx) (s : State) : (modRx p f s).pins = s.pins := rfl
@[simp] theorem modRx_bulk (p : LPort) (f : Rx → Rx) (s : State) : (modRx p f s).bulk = s.bulk := rfl
@[simp] theorem modRx_free (p : LPort) (f : Rx → Rx) (s : State) : (modRx p f s).free = s.free := rfl
@[simp] theorem modRx_pending (p : LPort) (f : Rx → Rx) (s : State) : (modRx p f s).pending = s.pending := rfl

@[simp] theorem modSf_sys (p : LPort) (f : Sf → Sf) (s : State) : (modSf p f s).sys = s.sys := rfl
@[simp] theorem modSf_power (p : LPort) (f : Sf → Sf) (s : State) : (modSf p f s).power = s.power := rfl
@[simp] theorem modSf_mbx (p : LPort) (f : Sf → Sf) (s : State) : (modSf p f s).mbx = s.mbx := rfl
@[simp] theorem modSf_twi (p : LPort) (f : Sf → Sf) (s : State) : (modSf p f s).twi = s.twi := rfl
@[simp] theorem modSf_ports (p : LPort) (f : Sf → Sf) (s : State) : (modSf p f s).ports = vmod s.ports p fun x => { x with sf := f x.sf } := rfl
@[simp] theorem modSf_pool (p : LPort) (f : Sf → Sf) (s : State) : (modSf p f s).pool = s.pool := rfl
@[simp] theorem modSf_lanes (p : LPort) (f : Sf → Sf) (s : State) : (modSf p f s).lanes = s.lanes := rfl
@[simp] theorem modSf_map (p : LPort) (f : Sf → Sf) (s : State) : (modSf p f s).map = s.map := rfl
@[simp] theorem modSf_dial (p : LPort) (f : Sf → Sf) (s : State) : (modSf p f s).dial = s.dial := rfl
@[simp] theorem modSf_mon (p : LPort) (f : Sf → Sf) (s : State) : (modSf p f s).mon = s.mon := rfl
@[simp] theorem modSf_alarms (p : LPort) (f : Sf → Sf) (s : State) : (modSf p f s).alarms = s.alarms := rfl
@[simp] theorem modSf_faults (p : LPort) (f : Sf → Sf) (s : State) : (modSf p f s).faults = s.faults := rfl
@[simp] theorem modSf_jrx (p : LPort) (f : Sf → Sf) (s : State) : (modSf p f s).jrx = s.jrx := rfl
@[simp] theorem modSf_test (p : LPort) (f : Sf → Sf) (s : State) : (modSf p f s).test = s.test := rfl
@[simp] theorem modSf_pins (p : LPort) (f : Sf → Sf) (s : State) : (modSf p f s).pins = s.pins := rfl
@[simp] theorem modSf_bulk (p : LPort) (f : Sf → Sf) (s : State) : (modSf p f s).bulk = s.bulk := rfl
@[simp] theorem modSf_free (p : LPort) (f : Sf → Sf) (s : State) : (modSf p f s).free = s.free := rfl
@[simp] theorem modSf_pending (p : LPort) (f : Sf → Sf) (s : State) : (modSf p f s).pending = s.pending := rfl

@[simp] theorem modNlc_sys (p : LPort) (f : Nlc → Nlc) (s : State) : (modNlc p f s).sys = s.sys := rfl
@[simp] theorem modNlc_power (p : LPort) (f : Nlc → Nlc) (s : State) : (modNlc p f s).power = s.power := rfl
@[simp] theorem modNlc_mbx (p : LPort) (f : Nlc → Nlc) (s : State) : (modNlc p f s).mbx = s.mbx := rfl
@[simp] theorem modNlc_twi (p : LPort) (f : Nlc → Nlc) (s : State) : (modNlc p f s).twi = s.twi := rfl
@[simp] theorem modNlc_ports (p : LPort) (f : Nlc → Nlc) (s : State) : (modNlc p f s).ports = vmod s.ports p fun x => { x with nlc := f x.nlc } := rfl
@[simp] theorem modNlc_pool (p : LPort) (f : Nlc → Nlc) (s : State) : (modNlc p f s).pool = s.pool := rfl
@[simp] theorem modNlc_lanes (p : LPort) (f : Nlc → Nlc) (s : State) : (modNlc p f s).lanes = s.lanes := rfl
@[simp] theorem modNlc_map (p : LPort) (f : Nlc → Nlc) (s : State) : (modNlc p f s).map = s.map := rfl
@[simp] theorem modNlc_dial (p : LPort) (f : Nlc → Nlc) (s : State) : (modNlc p f s).dial = s.dial := rfl
@[simp] theorem modNlc_mon (p : LPort) (f : Nlc → Nlc) (s : State) : (modNlc p f s).mon = s.mon := rfl
@[simp] theorem modNlc_alarms (p : LPort) (f : Nlc → Nlc) (s : State) : (modNlc p f s).alarms = s.alarms := rfl
@[simp] theorem modNlc_faults (p : LPort) (f : Nlc → Nlc) (s : State) : (modNlc p f s).faults = s.faults := rfl
@[simp] theorem modNlc_jrx (p : LPort) (f : Nlc → Nlc) (s : State) : (modNlc p f s).jrx = s.jrx := rfl
@[simp] theorem modNlc_test (p : LPort) (f : Nlc → Nlc) (s : State) : (modNlc p f s).test = s.test := rfl
@[simp] theorem modNlc_pins (p : LPort) (f : Nlc → Nlc) (s : State) : (modNlc p f s).pins = s.pins := rfl
@[simp] theorem modNlc_bulk (p : LPort) (f : Nlc → Nlc) (s : State) : (modNlc p f s).bulk = s.bulk := rfl
@[simp] theorem modNlc_free (p : LPort) (f : Nlc → Nlc) (s : State) : (modNlc p f s).free = s.free := rfl
@[simp] theorem modNlc_pending (p : LPort) (f : Nlc → Nlc) (s : State) : (modNlc p f s).pending = s.pending := rfl

@[simp] theorem modTx_sys (p : LPort) (f : Tx → Tx) (s : State) : (modTx p f s).sys = s.sys := rfl
@[simp] theorem modTx_power (p : LPort) (f : Tx → Tx) (s : State) : (modTx p f s).power = s.power := rfl
@[simp] theorem modTx_mbx (p : LPort) (f : Tx → Tx) (s : State) : (modTx p f s).mbx = s.mbx := rfl
@[simp] theorem modTx_twi (p : LPort) (f : Tx → Tx) (s : State) : (modTx p f s).twi = s.twi := rfl
@[simp] theorem modTx_ports (p : LPort) (f : Tx → Tx) (s : State) : (modTx p f s).ports = vmod s.ports p fun x => { x with tx := f x.tx } := rfl
@[simp] theorem modTx_pool (p : LPort) (f : Tx → Tx) (s : State) : (modTx p f s).pool = s.pool := rfl
@[simp] theorem modTx_lanes (p : LPort) (f : Tx → Tx) (s : State) : (modTx p f s).lanes = s.lanes := rfl
@[simp] theorem modTx_map (p : LPort) (f : Tx → Tx) (s : State) : (modTx p f s).map = s.map := rfl
@[simp] theorem modTx_dial (p : LPort) (f : Tx → Tx) (s : State) : (modTx p f s).dial = s.dial := rfl
@[simp] theorem modTx_mon (p : LPort) (f : Tx → Tx) (s : State) : (modTx p f s).mon = s.mon := rfl
@[simp] theorem modTx_alarms (p : LPort) (f : Tx → Tx) (s : State) : (modTx p f s).alarms = s.alarms := rfl
@[simp] theorem modTx_faults (p : LPort) (f : Tx → Tx) (s : State) : (modTx p f s).faults = s.faults := rfl
@[simp] theorem modTx_jrx (p : LPort) (f : Tx → Tx) (s : State) : (modTx p f s).jrx = s.jrx := rfl
@[simp] theorem modTx_test (p : LPort) (f : Tx → Tx) (s : State) : (modTx p f s).test = s.test := rfl
@[simp] theorem modTx_pins (p : LPort) (f : Tx → Tx) (s : State) : (modTx p f s).pins = s.pins := rfl
@[simp] theorem modTx_bulk (p : LPort) (f : Tx → Tx) (s : State) : (modTx p f s).bulk = s.bulk := rfl
@[simp] theorem modTx_free (p : LPort) (f : Tx → Tx) (s : State) : (modTx p f s).free = s.free := rfl
@[simp] theorem modTx_pending (p : LPort) (f : Tx → Tx) (s : State) : (modTx p f s).pending = s.pending := rfl

@[simp] theorem modTr_sys (p : LPort) (f : Train → Train) (s : State) : (modTr p f s).sys = s.sys := rfl
@[simp] theorem modTr_power (p : LPort) (f : Train → Train) (s : State) : (modTr p f s).power = s.power := rfl
@[simp] theorem modTr_mbx (p : LPort) (f : Train → Train) (s : State) : (modTr p f s).mbx = s.mbx := rfl
@[simp] theorem modTr_twi (p : LPort) (f : Train → Train) (s : State) : (modTr p f s).twi = s.twi := rfl
@[simp] theorem modTr_ports (p : LPort) (f : Train → Train) (s : State) : (modTr p f s).ports = vmod s.ports p fun x => { x with tr := f x.tr } := rfl
@[simp] theorem modTr_pool (p : LPort) (f : Train → Train) (s : State) : (modTr p f s).pool = s.pool := rfl
@[simp] theorem modTr_lanes (p : LPort) (f : Train → Train) (s : State) : (modTr p f s).lanes = s.lanes := rfl
@[simp] theorem modTr_map (p : LPort) (f : Train → Train) (s : State) : (modTr p f s).map = s.map := rfl
@[simp] theorem modTr_dial (p : LPort) (f : Train → Train) (s : State) : (modTr p f s).dial = s.dial := rfl
@[simp] theorem modTr_mon (p : LPort) (f : Train → Train) (s : State) : (modTr p f s).mon = s.mon := rfl
@[simp] theorem modTr_alarms (p : LPort) (f : Train → Train) (s : State) : (modTr p f s).alarms = s.alarms := rfl
@[simp] theorem modTr_faults (p : LPort) (f : Train → Train) (s : State) : (modTr p f s).faults = s.faults := rfl
@[simp] theorem modTr_jrx (p : LPort) (f : Train → Train) (s : State) : (modTr p f s).jrx = s.jrx := rfl
@[simp] theorem modTr_test (p : LPort) (f : Train → Train) (s : State) : (modTr p f s).test = s.test := rfl
@[simp] theorem modTr_pins (p : LPort) (f : Train → Train) (s : State) : (modTr p f s).pins = s.pins := rfl
@[simp] theorem modTr_bulk (p : LPort) (f : Train → Train) (s : State) : (modTr p f s).bulk = s.bulk := rfl
@[simp] theorem modTr_free (p : LPort) (f : Train → Train) (s : State) : (modTr p f s).free = s.free := rfl
@[simp] theorem modTr_pending (p : LPort) (f : Train → Train) (s : State) : (modTr p f s).pending = s.pending := rfl

@[simp] theorem modTr2_sys (p : LPort) (f : Train2 → Train2) (s : State) : (modTr2 p f s).sys = s.sys := rfl
@[simp] theorem modTr2_power (p : LPort) (f : Train2 → Train2) (s : State) : (modTr2 p f s).power = s.power := rfl
@[simp] theorem modTr2_mbx (p : LPort) (f : Train2 → Train2) (s : State) : (modTr2 p f s).mbx = s.mbx := rfl
@[simp] theorem modTr2_twi (p : LPort) (f : Train2 → Train2) (s : State) : (modTr2 p f s).twi = s.twi := rfl
@[simp] theorem modTr2_ports (p : LPort) (f : Train2 → Train2) (s : State) : (modTr2 p f s).ports = vmod s.ports p fun x => { x with tr2 := f x.tr2 } := rfl
@[simp] theorem modTr2_pool (p : LPort) (f : Train2 → Train2) (s : State) : (modTr2 p f s).pool = s.pool := rfl
@[simp] theorem modTr2_lanes (p : LPort) (f : Train2 → Train2) (s : State) : (modTr2 p f s).lanes = s.lanes := rfl
@[simp] theorem modTr2_map (p : LPort) (f : Train2 → Train2) (s : State) : (modTr2 p f s).map = s.map := rfl
@[simp] theorem modTr2_dial (p : LPort) (f : Train2 → Train2) (s : State) : (modTr2 p f s).dial = s.dial := rfl
@[simp] theorem modTr2_mon (p : LPort) (f : Train2 → Train2) (s : State) : (modTr2 p f s).mon = s.mon := rfl
@[simp] theorem modTr2_alarms (p : LPort) (f : Train2 → Train2) (s : State) : (modTr2 p f s).alarms = s.alarms := rfl
@[simp] theorem modTr2_faults (p : LPort) (f : Train2 → Train2) (s : State) : (modTr2 p f s).faults = s.faults := rfl
@[simp] theorem modTr2_jrx (p : LPort) (f : Train2 → Train2) (s : State) : (modTr2 p f s).jrx = s.jrx := rfl
@[simp] theorem modTr2_test (p : LPort) (f : Train2 → Train2) (s : State) : (modTr2 p f s).test = s.test := rfl
@[simp] theorem modTr2_pins (p : LPort) (f : Train2 → Train2) (s : State) : (modTr2 p f s).pins = s.pins := rfl
@[simp] theorem modTr2_bulk (p : LPort) (f : Train2 → Train2) (s : State) : (modTr2 p f s).bulk = s.bulk := rfl
@[simp] theorem modTr2_free (p : LPort) (f : Train2 → Train2) (s : State) : (modTr2 p f s).free = s.free := rfl
@[simp] theorem modTr2_pending (p : LPort) (f : Train2 → Train2) (s : State) : (modTr2 p f s).pending = s.pending := rfl

@[simp] theorem modCal_sys (p : LPort) (f : Cal → Cal) (s : State) : (modCal p f s).sys = s.sys := rfl
@[simp] theorem modCal_power (p : LPort) (f : Cal → Cal) (s : State) : (modCal p f s).power = s.power := rfl
@[simp] theorem modCal_mbx (p : LPort) (f : Cal → Cal) (s : State) : (modCal p f s).mbx = s.mbx := rfl
@[simp] theorem modCal_twi (p : LPort) (f : Cal → Cal) (s : State) : (modCal p f s).twi = s.twi := rfl
@[simp] theorem modCal_ports (p : LPort) (f : Cal → Cal) (s : State) : (modCal p f s).ports = vmod s.ports p fun x => { x with cal := f x.cal } := rfl
@[simp] theorem modCal_pool (p : LPort) (f : Cal → Cal) (s : State) : (modCal p f s).pool = s.pool := rfl
@[simp] theorem modCal_lanes (p : LPort) (f : Cal → Cal) (s : State) : (modCal p f s).lanes = s.lanes := rfl
@[simp] theorem modCal_map (p : LPort) (f : Cal → Cal) (s : State) : (modCal p f s).map = s.map := rfl
@[simp] theorem modCal_dial (p : LPort) (f : Cal → Cal) (s : State) : (modCal p f s).dial = s.dial := rfl
@[simp] theorem modCal_mon (p : LPort) (f : Cal → Cal) (s : State) : (modCal p f s).mon = s.mon := rfl
@[simp] theorem modCal_alarms (p : LPort) (f : Cal → Cal) (s : State) : (modCal p f s).alarms = s.alarms := rfl
@[simp] theorem modCal_faults (p : LPort) (f : Cal → Cal) (s : State) : (modCal p f s).faults = s.faults := rfl
@[simp] theorem modCal_jrx (p : LPort) (f : Cal → Cal) (s : State) : (modCal p f s).jrx = s.jrx := rfl
@[simp] theorem modCal_test (p : LPort) (f : Cal → Cal) (s : State) : (modCal p f s).test = s.test := rfl
@[simp] theorem modCal_pins (p : LPort) (f : Cal → Cal) (s : State) : (modCal p f s).pins = s.pins := rfl
@[simp] theorem modCal_bulk (p : LPort) (f : Cal → Cal) (s : State) : (modCal p f s).bulk = s.bulk := rfl
@[simp] theorem modCal_free (p : LPort) (f : Cal → Cal) (s : State) : (modCal p f s).free = s.free := rfl
@[simp] theorem modCal_pending (p : LPort) (f : Cal → Cal) (s : State) : (modCal p f s).pending = s.pending := rfl

@[simp] theorem modSys_sys (f : Sys → Sys) (s : State) : (modSys f s).sys = f s.sys := rfl
@[simp] theorem modSys_power (f : Sys → Sys) (s : State) : (modSys f s).power = s.power := rfl
@[simp] theorem modSys_mbx (f : Sys → Sys) (s : State) : (modSys f s).mbx = s.mbx := rfl
@[simp] theorem modSys_twi (f : Sys → Sys) (s : State) : (modSys f s).twi = s.twi := rfl
@[simp] theorem modSys_ports (f : Sys → Sys) (s : State) : (modSys f s).ports = s.ports := rfl
@[simp] theorem modSys_pool (f : Sys → Sys) (s : State) : (modSys f s).pool = s.pool := rfl
@[simp] theorem modSys_lanes (f : Sys → Sys) (s : State) : (modSys f s).lanes = s.lanes := rfl
@[simp] theorem modSys_map (f : Sys → Sys) (s : State) : (modSys f s).map = s.map := rfl
@[simp] theorem modSys_dial (f : Sys → Sys) (s : State) : (modSys f s).dial = s.dial := rfl
@[simp] theorem modSys_mon (f : Sys → Sys) (s : State) : (modSys f s).mon = s.mon := rfl
@[simp] theorem modSys_alarms (f : Sys → Sys) (s : State) : (modSys f s).alarms = s.alarms := rfl
@[simp] theorem modSys_faults (f : Sys → Sys) (s : State) : (modSys f s).faults = s.faults := rfl
@[simp] theorem modSys_jrx (f : Sys → Sys) (s : State) : (modSys f s).jrx = s.jrx := rfl
@[simp] theorem modSys_test (f : Sys → Sys) (s : State) : (modSys f s).test = s.test := rfl
@[simp] theorem modSys_pins (f : Sys → Sys) (s : State) : (modSys f s).pins = s.pins := rfl
@[simp] theorem modSys_bulk (f : Sys → Sys) (s : State) : (modSys f s).bulk = s.bulk := rfl
@[simp] theorem modSys_free (f : Sys → Sys) (s : State) : (modSys f s).free = s.free := rfl
@[simp] theorem modSys_pending (f : Sys → Sys) (s : State) : (modSys f s).pending = s.pending := rfl

@[simp] theorem modMbx_sys (f : Mbx → Mbx) (s : State) : (modMbx f s).sys = s.sys := rfl
@[simp] theorem modMbx_power (f : Mbx → Mbx) (s : State) : (modMbx f s).power = s.power := rfl
@[simp] theorem modMbx_mbx (f : Mbx → Mbx) (s : State) : (modMbx f s).mbx = f s.mbx := rfl
@[simp] theorem modMbx_twi (f : Mbx → Mbx) (s : State) : (modMbx f s).twi = s.twi := rfl
@[simp] theorem modMbx_ports (f : Mbx → Mbx) (s : State) : (modMbx f s).ports = s.ports := rfl
@[simp] theorem modMbx_pool (f : Mbx → Mbx) (s : State) : (modMbx f s).pool = s.pool := rfl
@[simp] theorem modMbx_lanes (f : Mbx → Mbx) (s : State) : (modMbx f s).lanes = s.lanes := rfl
@[simp] theorem modMbx_map (f : Mbx → Mbx) (s : State) : (modMbx f s).map = s.map := rfl
@[simp] theorem modMbx_dial (f : Mbx → Mbx) (s : State) : (modMbx f s).dial = s.dial := rfl
@[simp] theorem modMbx_mon (f : Mbx → Mbx) (s : State) : (modMbx f s).mon = s.mon := rfl
@[simp] theorem modMbx_alarms (f : Mbx → Mbx) (s : State) : (modMbx f s).alarms = s.alarms := rfl
@[simp] theorem modMbx_faults (f : Mbx → Mbx) (s : State) : (modMbx f s).faults = s.faults := rfl
@[simp] theorem modMbx_jrx (f : Mbx → Mbx) (s : State) : (modMbx f s).jrx = s.jrx := rfl
@[simp] theorem modMbx_test (f : Mbx → Mbx) (s : State) : (modMbx f s).test = s.test := rfl
@[simp] theorem modMbx_pins (f : Mbx → Mbx) (s : State) : (modMbx f s).pins = s.pins := rfl
@[simp] theorem modMbx_bulk (f : Mbx → Mbx) (s : State) : (modMbx f s).bulk = s.bulk := rfl
@[simp] theorem modMbx_free (f : Mbx → Mbx) (s : State) : (modMbx f s).free = s.free := rfl
@[simp] theorem modMbx_pending (f : Mbx → Mbx) (s : State) : (modMbx f s).pending = s.pending := rfl

@[simp] theorem modM_sys (n : Fin 8) (f : MChan → MChan) (s : State) : (modM n f s).sys = s.sys := rfl
@[simp] theorem modM_power (n : Fin 8) (f : MChan → MChan) (s : State) : (modM n f s).power = s.power := rfl
@[simp] theorem modM_mbx (n : Fin 8) (f : MChan → MChan) (s : State) : (modM n f s).mbx = { s.mbx with m := vmod s.mbx.m n f } := rfl
@[simp] theorem modM_twi (n : Fin 8) (f : MChan → MChan) (s : State) : (modM n f s).twi = s.twi := rfl
@[simp] theorem modM_ports (n : Fin 8) (f : MChan → MChan) (s : State) : (modM n f s).ports = s.ports := rfl
@[simp] theorem modM_pool (n : Fin 8) (f : MChan → MChan) (s : State) : (modM n f s).pool = s.pool := rfl
@[simp] theorem modM_lanes (n : Fin 8) (f : MChan → MChan) (s : State) : (modM n f s).lanes = s.lanes := rfl
@[simp] theorem modM_map (n : Fin 8) (f : MChan → MChan) (s : State) : (modM n f s).map = s.map := rfl
@[simp] theorem modM_dial (n : Fin 8) (f : MChan → MChan) (s : State) : (modM n f s).dial = s.dial := rfl
@[simp] theorem modM_mon (n : Fin 8) (f : MChan → MChan) (s : State) : (modM n f s).mon = s.mon := rfl
@[simp] theorem modM_alarms (n : Fin 8) (f : MChan → MChan) (s : State) : (modM n f s).alarms = s.alarms := rfl
@[simp] theorem modM_faults (n : Fin 8) (f : MChan → MChan) (s : State) : (modM n f s).faults = s.faults := rfl
@[simp] theorem modM_jrx (n : Fin 8) (f : MChan → MChan) (s : State) : (modM n f s).jrx = s.jrx := rfl
@[simp] theorem modM_test (n : Fin 8) (f : MChan → MChan) (s : State) : (modM n f s).test = s.test := rfl
@[simp] theorem modM_pins (n : Fin 8) (f : MChan → MChan) (s : State) : (modM n f s).pins = s.pins := rfl
@[simp] theorem modM_bulk (n : Fin 8) (f : MChan → MChan) (s : State) : (modM n f s).bulk = s.bulk := rfl
@[simp] theorem modM_free (n : Fin 8) (f : MChan → MChan) (s : State) : (modM n f s).free = s.free := rfl
@[simp] theorem modM_pending (n : Fin 8) (f : MChan → MChan) (s : State) : (modM n f s).pending = s.pending := rfl

@[simp] theorem modJ_sys (n : Fin 4) (f : JChan → JChan) (s : State) : (modJ n f s).sys = s.sys := rfl
@[simp] theorem modJ_power (n : Fin 4) (f : JChan → JChan) (s : State) : (modJ n f s).power = s.power := rfl
@[simp] theorem modJ_mbx (n : Fin 4) (f : JChan → JChan) (s : State) : (modJ n f s).mbx = { s.mbx with j := vmod s.mbx.j n f } := rfl
@[simp] theorem modJ_twi (n : Fin 4) (f : JChan → JChan) (s : State) : (modJ n f s).twi = s.twi := rfl
@[simp] theorem modJ_ports (n : Fin 4) (f : JChan → JChan) (s : State) : (modJ n f s).ports = s.ports := rfl
@[simp] theorem modJ_pool (n : Fin 4) (f : JChan → JChan) (s : State) : (modJ n f s).pool = s.pool := rfl
@[simp] theorem modJ_lanes (n : Fin 4) (f : JChan → JChan) (s : State) : (modJ n f s).lanes = s.lanes := rfl
@[simp] theorem modJ_map (n : Fin 4) (f : JChan → JChan) (s : State) : (modJ n f s).map = s.map := rfl
@[simp] theorem modJ_dial (n : Fin 4) (f : JChan → JChan) (s : State) : (modJ n f s).dial = s.dial := rfl
@[simp] theorem modJ_mon (n : Fin 4) (f : JChan → JChan) (s : State) : (modJ n f s).mon = s.mon := rfl
@[simp] theorem modJ_alarms (n : Fin 4) (f : JChan → JChan) (s : State) : (modJ n f s).alarms = s.alarms := rfl
@[simp] theorem modJ_faults (n : Fin 4) (f : JChan → JChan) (s : State) : (modJ n f s).faults = s.faults := rfl
@[simp] theorem modJ_jrx (n : Fin 4) (f : JChan → JChan) (s : State) : (modJ n f s).jrx = s.jrx := rfl
@[simp] theorem modJ_test (n : Fin 4) (f : JChan → JChan) (s : State) : (modJ n f s).test = s.test := rfl
@[simp] theorem modJ_pins (n : Fin 4) (f : JChan → JChan) (s : State) : (modJ n f s).pins = s.pins := rfl
@[simp] theorem modJ_bulk (n : Fin 4) (f : JChan → JChan) (s : State) : (modJ n f s).bulk = s.bulk := rfl
@[simp] theorem modJ_free (n : Fin 4) (f : JChan → JChan) (s : State) : (modJ n f s).free = s.free := rfl
@[simp] theorem modJ_pending (n : Fin 4) (f : JChan → JChan) (s : State) : (modJ n f s).pending = s.pending := rfl

@[simp] theorem modPower_sys (f : Power → Power) (s : State) : (modPower f s).sys = s.sys := rfl
@[simp] theorem modPower_power (f : Power → Power) (s : State) : (modPower f s).power = f s.power := rfl
@[simp] theorem modPower_mbx (f : Power → Power) (s : State) : (modPower f s).mbx = s.mbx := rfl
@[simp] theorem modPower_twi (f : Power → Power) (s : State) : (modPower f s).twi = s.twi := rfl
@[simp] theorem modPower_ports (f : Power → Power) (s : State) : (modPower f s).ports = s.ports := rfl
@[simp] theorem modPower_pool (f : Power → Power) (s : State) : (modPower f s).pool = s.pool := rfl
@[simp] theorem modPower_lanes (f : Power → Power) (s : State) : (modPower f s).lanes = s.lanes := rfl
@[simp] theorem modPower_map (f : Power → Power) (s : State) : (modPower f s).map = s.map := rfl
@[simp] theorem modPower_dial (f : Power → Power) (s : State) : (modPower f s).dial = s.dial := rfl
@[simp] theorem modPower_mon (f : Power → Power) (s : State) : (modPower f s).mon = s.mon := rfl
@[simp] theorem modPower_alarms (f : Power → Power) (s : State) : (modPower f s).alarms = s.alarms := rfl
@[simp] theorem modPower_faults (f : Power → Power) (s : State) : (modPower f s).faults = s.faults := rfl
@[simp] theorem modPower_jrx (f : Power → Power) (s : State) : (modPower f s).jrx = s.jrx := rfl
@[simp] theorem modPower_test (f : Power → Power) (s : State) : (modPower f s).test = s.test := rfl
@[simp] theorem modPower_pins (f : Power → Power) (s : State) : (modPower f s).pins = s.pins := rfl
@[simp] theorem modPower_bulk (f : Power → Power) (s : State) : (modPower f s).bulk = s.bulk := rfl
@[simp] theorem modPower_free (f : Power → Power) (s : State) : (modPower f s).free = s.free := rfl
@[simp] theorem modPower_pending (f : Power → Power) (s : State) : (modPower f s).pending = s.pending := rfl

@[simp] theorem modLane_sys (k : HLane) (f : Lane → Lane) (s : State) : (modLane k f s).sys = s.sys := rfl
@[simp] theorem modLane_power (k : HLane) (f : Lane → Lane) (s : State) : (modLane k f s).power = s.power := rfl
@[simp] theorem modLane_mbx (k : HLane) (f : Lane → Lane) (s : State) : (modLane k f s).mbx = s.mbx := rfl
@[simp] theorem modLane_twi (k : HLane) (f : Lane → Lane) (s : State) : (modLane k f s).twi = s.twi := rfl
@[simp] theorem modLane_ports (k : HLane) (f : Lane → Lane) (s : State) : (modLane k f s).ports = s.ports := rfl
@[simp] theorem modLane_pool (k : HLane) (f : Lane → Lane) (s : State) : (modLane k f s).pool = s.pool := rfl
@[simp] theorem modLane_lanes (k : HLane) (f : Lane → Lane) (s : State) : (modLane k f s).lanes = vmod s.lanes k f := rfl
@[simp] theorem modLane_map (k : HLane) (f : Lane → Lane) (s : State) : (modLane k f s).map = s.map := rfl
@[simp] theorem modLane_dial (k : HLane) (f : Lane → Lane) (s : State) : (modLane k f s).dial = s.dial := rfl
@[simp] theorem modLane_mon (k : HLane) (f : Lane → Lane) (s : State) : (modLane k f s).mon = s.mon := rfl
@[simp] theorem modLane_alarms (k : HLane) (f : Lane → Lane) (s : State) : (modLane k f s).alarms = s.alarms := rfl
@[simp] theorem modLane_faults (k : HLane) (f : Lane → Lane) (s : State) : (modLane k f s).faults = s.faults := rfl
@[simp] theorem modLane_jrx (k : HLane) (f : Lane → Lane) (s : State) : (modLane k f s).jrx = s.jrx := rfl
@[simp] theorem modLane_test (k : HLane) (f : Lane → Lane) (s : State) : (modLane k f s).test = s.test := rfl
@[simp] theorem modLane_pins (k : HLane) (f : Lane → Lane) (s : State) : (modLane k f s).pins = s.pins := rfl
@[simp] theorem modLane_bulk (k : HLane) (f : Lane → Lane) (s : State) : (modLane k f s).bulk = s.bulk := rfl
@[simp] theorem modLane_free (k : HLane) (f : Lane → Lane) (s : State) : (modLane k f s).free = s.free := rfl
@[simp] theorem modLane_pending (k : HLane) (f : Lane → Lane) (s : State) : (modLane k f s).pending = s.pending := rfl

@[simp] theorem modMap_sys (f : MapSt → MapSt) (s : State) : (modMap f s).sys = s.sys := rfl
@[simp] theorem modMap_power (f : MapSt → MapSt) (s : State) : (modMap f s).power = s.power := rfl
@[simp] theorem modMap_mbx (f : MapSt → MapSt) (s : State) : (modMap f s).mbx = s.mbx := rfl
@[simp] theorem modMap_twi (f : MapSt → MapSt) (s : State) : (modMap f s).twi = s.twi := rfl
@[simp] theorem modMap_ports (f : MapSt → MapSt) (s : State) : (modMap f s).ports = s.ports := rfl
@[simp] theorem modMap_pool (f : MapSt → MapSt) (s : State) : (modMap f s).pool = s.pool := rfl
@[simp] theorem modMap_lanes (f : MapSt → MapSt) (s : State) : (modMap f s).lanes = s.lanes := rfl
@[simp] theorem modMap_map (f : MapSt → MapSt) (s : State) : (modMap f s).map = f s.map := rfl
@[simp] theorem modMap_dial (f : MapSt → MapSt) (s : State) : (modMap f s).dial = s.dial := rfl
@[simp] theorem modMap_mon (f : MapSt → MapSt) (s : State) : (modMap f s).mon = s.mon := rfl
@[simp] theorem modMap_alarms (f : MapSt → MapSt) (s : State) : (modMap f s).alarms = s.alarms := rfl
@[simp] theorem modMap_faults (f : MapSt → MapSt) (s : State) : (modMap f s).faults = s.faults := rfl
@[simp] theorem modMap_jrx (f : MapSt → MapSt) (s : State) : (modMap f s).jrx = s.jrx := rfl
@[simp] theorem modMap_test (f : MapSt → MapSt) (s : State) : (modMap f s).test = s.test := rfl
@[simp] theorem modMap_pins (f : MapSt → MapSt) (s : State) : (modMap f s).pins = s.pins := rfl
@[simp] theorem modMap_bulk (f : MapSt → MapSt) (s : State) : (modMap f s).bulk = s.bulk := rfl
@[simp] theorem modMap_free (f : MapSt → MapSt) (s : State) : (modMap f s).free = s.free := rfl
@[simp] theorem modMap_pending (f : MapSt → MapSt) (s : State) : (modMap f s).pending = s.pending := rfl

@[simp] theorem modPool_sys (f : Pool → Pool) (s : State) : (modPool f s).sys = s.sys := rfl
@[simp] theorem modPool_power (f : Pool → Pool) (s : State) : (modPool f s).power = s.power := rfl
@[simp] theorem modPool_mbx (f : Pool → Pool) (s : State) : (modPool f s).mbx = s.mbx := rfl
@[simp] theorem modPool_twi (f : Pool → Pool) (s : State) : (modPool f s).twi = s.twi := rfl
@[simp] theorem modPool_ports (f : Pool → Pool) (s : State) : (modPool f s).ports = s.ports := rfl
@[simp] theorem modPool_pool (f : Pool → Pool) (s : State) : (modPool f s).pool = f s.pool := rfl
@[simp] theorem modPool_lanes (f : Pool → Pool) (s : State) : (modPool f s).lanes = s.lanes := rfl
@[simp] theorem modPool_map (f : Pool → Pool) (s : State) : (modPool f s).map = s.map := rfl
@[simp] theorem modPool_dial (f : Pool → Pool) (s : State) : (modPool f s).dial = s.dial := rfl
@[simp] theorem modPool_mon (f : Pool → Pool) (s : State) : (modPool f s).mon = s.mon := rfl
@[simp] theorem modPool_alarms (f : Pool → Pool) (s : State) : (modPool f s).alarms = s.alarms := rfl
@[simp] theorem modPool_faults (f : Pool → Pool) (s : State) : (modPool f s).faults = s.faults := rfl
@[simp] theorem modPool_jrx (f : Pool → Pool) (s : State) : (modPool f s).jrx = s.jrx := rfl
@[simp] theorem modPool_test (f : Pool → Pool) (s : State) : (modPool f s).test = s.test := rfl
@[simp] theorem modPool_pins (f : Pool → Pool) (s : State) : (modPool f s).pins = s.pins := rfl
@[simp] theorem modPool_bulk (f : Pool → Pool) (s : State) : (modPool f s).bulk = s.bulk := rfl
@[simp] theorem modPool_free (f : Pool → Pool) (s : State) : (modPool f s).free = s.free := rfl
@[simp] theorem modPool_pending (f : Pool → Pool) (s : State) : (modPool f s).pending = s.pending := rfl

@[simp] theorem modPp_sys (p : LPort) (f : PoolPort → PoolPort) (s : State) : (modPp p f s).sys = s.sys := rfl
@[simp] theorem modPp_power (p : LPort) (f : PoolPort → PoolPort) (s : State) : (modPp p f s).power = s.power := rfl
@[simp] theorem modPp_mbx (p : LPort) (f : PoolPort → PoolPort) (s : State) : (modPp p f s).mbx = s.mbx := rfl
@[simp] theorem modPp_twi (p : LPort) (f : PoolPort → PoolPort) (s : State) : (modPp p f s).twi = s.twi := rfl
@[simp] theorem modPp_ports (p : LPort) (f : PoolPort → PoolPort) (s : State) : (modPp p f s).ports = s.ports := rfl
@[simp] theorem modPp_pool (p : LPort) (f : PoolPort → PoolPort) (s : State) : (modPp p f s).pool = { s.pool with ports := vmod s.pool.ports p f } := rfl
@[simp] theorem modPp_lanes (p : LPort) (f : PoolPort → PoolPort) (s : State) : (modPp p f s).lanes = s.lanes := rfl
@[simp] theorem modPp_map (p : LPort) (f : PoolPort → PoolPort) (s : State) : (modPp p f s).map = s.map := rfl
@[simp] theorem modPp_dial (p : LPort) (f : PoolPort → PoolPort) (s : State) : (modPp p f s).dial = s.dial := rfl
@[simp] theorem modPp_mon (p : LPort) (f : PoolPort → PoolPort) (s : State) : (modPp p f s).mon = s.mon := rfl
@[simp] theorem modPp_alarms (p : LPort) (f : PoolPort → PoolPort) (s : State) : (modPp p f s).alarms = s.alarms := rfl
@[simp] theorem modPp_faults (p : LPort) (f : PoolPort → PoolPort) (s : State) : (modPp p f s).faults = s.faults := rfl
@[simp] theorem modPp_jrx (p : LPort) (f : PoolPort → PoolPort) (s : State) : (modPp p f s).jrx = s.jrx := rfl
@[simp] theorem modPp_test (p : LPort) (f : PoolPort → PoolPort) (s : State) : (modPp p f s).test = s.test := rfl
@[simp] theorem modPp_pins (p : LPort) (f : PoolPort → PoolPort) (s : State) : (modPp p f s).pins = s.pins := rfl
@[simp] theorem modPp_bulk (p : LPort) (f : PoolPort → PoolPort) (s : State) : (modPp p f s).bulk = s.bulk := rfl
@[simp] theorem modPp_free (p : LPort) (f : PoolPort → PoolPort) (s : State) : (modPp p f s).free = s.free := rfl
@[simp] theorem modPp_pending (p : LPort) (f : PoolPort → PoolPort) (s : State) : (modPp p f s).pending = s.pending := rfl

@[simp] theorem modEng_sys (e : Engine) (f : EngineSt → EngineSt) (s : State) : (modEng e f s).sys = s.sys := rfl
@[simp] theorem modEng_power (e : Engine) (f : EngineSt → EngineSt) (s : State) : (modEng e f s).power = s.power := rfl
@[simp] theorem modEng_mbx (e : Engine) (f : EngineSt → EngineSt) (s : State) : (modEng e f s).mbx = s.mbx := rfl
@[simp] theorem modEng_twi (e : Engine) (f : EngineSt → EngineSt) (s : State) : (modEng e f s).twi = s.twi := rfl
@[simp] theorem modEng_ports (e : Engine) (f : EngineSt → EngineSt) (s : State) : (modEng e f s).ports = s.ports := rfl
@[simp] theorem modEng_pool (e : Engine) (f : EngineSt → EngineSt) (s : State) : (modEng e f s).pool = { s.pool with engines := vmod s.pool.engines e f } := rfl
@[simp] theorem modEng_lanes (e : Engine) (f : EngineSt → EngineSt) (s : State) : (modEng e f s).lanes = s.lanes := rfl
@[simp] theorem modEng_map (e : Engine) (f : EngineSt → EngineSt) (s : State) : (modEng e f s).map = s.map := rfl
@[simp] theorem modEng_dial (e : Engine) (f : EngineSt → EngineSt) (s : State) : (modEng e f s).dial = s.dial := rfl
@[simp] theorem modEng_mon (e : Engine) (f : EngineSt → EngineSt) (s : State) : (modEng e f s).mon = s.mon := rfl
@[simp] theorem modEng_alarms (e : Engine) (f : EngineSt → EngineSt) (s : State) : (modEng e f s).alarms = s.alarms := rfl
@[simp] theorem modEng_faults (e : Engine) (f : EngineSt → EngineSt) (s : State) : (modEng e f s).faults = s.faults := rfl
@[simp] theorem modEng_jrx (e : Engine) (f : EngineSt → EngineSt) (s : State) : (modEng e f s).jrx = s.jrx := rfl
@[simp] theorem modEng_test (e : Engine) (f : EngineSt → EngineSt) (s : State) : (modEng e f s).test = s.test := rfl
@[simp] theorem modEng_pins (e : Engine) (f : EngineSt → EngineSt) (s : State) : (modEng e f s).pins = s.pins := rfl
@[simp] theorem modEng_bulk (e : Engine) (f : EngineSt → EngineSt) (s : State) : (modEng e f s).bulk = s.bulk := rfl
@[simp] theorem modEng_free (e : Engine) (f : EngineSt → EngineSt) (s : State) : (modEng e f s).free = s.free := rfl
@[simp] theorem modEng_pending (e : Engine) (f : EngineSt → EngineSt) (s : State) : (modEng e f s).pending = s.pending := rfl

@[simp] theorem modDial_sys (f : Dial → Dial) (s : State) : (modDial f s).sys = s.sys := rfl
@[simp] theorem modDial_power (f : Dial → Dial) (s : State) : (modDial f s).power = s.power := rfl
@[simp] theorem modDial_mbx (f : Dial → Dial) (s : State) : (modDial f s).mbx = s.mbx := rfl
@[simp] theorem modDial_twi (f : Dial → Dial) (s : State) : (modDial f s).twi = s.twi := rfl
@[simp] theorem modDial_ports (f : Dial → Dial) (s : State) : (modDial f s).ports = s.ports := rfl
@[simp] theorem modDial_pool (f : Dial → Dial) (s : State) : (modDial f s).pool = s.pool := rfl
@[simp] theorem modDial_lanes (f : Dial → Dial) (s : State) : (modDial f s).lanes = s.lanes := rfl
@[simp] theorem modDial_map (f : Dial → Dial) (s : State) : (modDial f s).map = s.map := rfl
@[simp] theorem modDial_dial (f : Dial → Dial) (s : State) : (modDial f s).dial = f s.dial := rfl
@[simp] theorem modDial_mon (f : Dial → Dial) (s : State) : (modDial f s).mon = s.mon := rfl
@[simp] theorem modDial_alarms (f : Dial → Dial) (s : State) : (modDial f s).alarms = s.alarms := rfl
@[simp] theorem modDial_faults (f : Dial → Dial) (s : State) : (modDial f s).faults = s.faults := rfl
@[simp] theorem modDial_jrx (f : Dial → Dial) (s : State) : (modDial f s).jrx = s.jrx := rfl
@[simp] theorem modDial_test (f : Dial → Dial) (s : State) : (modDial f s).test = s.test := rfl
@[simp] theorem modDial_pins (f : Dial → Dial) (s : State) : (modDial f s).pins = s.pins := rfl
@[simp] theorem modDial_bulk (f : Dial → Dial) (s : State) : (modDial f s).bulk = s.bulk := rfl
@[simp] theorem modDial_free (f : Dial → Dial) (s : State) : (modDial f s).free = s.free := rfl
@[simp] theorem modDial_pending (f : Dial → Dial) (s : State) : (modDial f s).pending = s.pending := rfl

@[simp] theorem modMon_sys (f : Mon → Mon) (s : State) : (modMon f s).sys = s.sys := rfl
@[simp] theorem modMon_power (f : Mon → Mon) (s : State) : (modMon f s).power = s.power := rfl
@[simp] theorem modMon_mbx (f : Mon → Mon) (s : State) : (modMon f s).mbx = s.mbx := rfl
@[simp] theorem modMon_twi (f : Mon → Mon) (s : State) : (modMon f s).twi = s.twi := rfl
@[simp] theorem modMon_ports (f : Mon → Mon) (s : State) : (modMon f s).ports = s.ports := rfl
@[simp] theorem modMon_pool (f : Mon → Mon) (s : State) : (modMon f s).pool = s.pool := rfl
@[simp] theorem modMon_lanes (f : Mon → Mon) (s : State) : (modMon f s).lanes = s.lanes := rfl
@[simp] theorem modMon_map (f : Mon → Mon) (s : State) : (modMon f s).map = s.map := rfl
@[simp] theorem modMon_dial (f : Mon → Mon) (s : State) : (modMon f s).dial = s.dial := rfl
@[simp] theorem modMon_mon (f : Mon → Mon) (s : State) : (modMon f s).mon = f s.mon := rfl
@[simp] theorem modMon_alarms (f : Mon → Mon) (s : State) : (modMon f s).alarms = s.alarms := rfl
@[simp] theorem modMon_faults (f : Mon → Mon) (s : State) : (modMon f s).faults = s.faults := rfl
@[simp] theorem modMon_jrx (f : Mon → Mon) (s : State) : (modMon f s).jrx = s.jrx := rfl
@[simp] theorem modMon_test (f : Mon → Mon) (s : State) : (modMon f s).test = s.test := rfl
@[simp] theorem modMon_pins (f : Mon → Mon) (s : State) : (modMon f s).pins = s.pins := rfl
@[simp] theorem modMon_bulk (f : Mon → Mon) (s : State) : (modMon f s).bulk = s.bulk := rfl
@[simp] theorem modMon_free (f : Mon → Mon) (s : State) : (modMon f s).free = s.free := rfl
@[simp] theorem modMon_pending (f : Mon → Mon) (s : State) : (modMon f s).pending = s.pending := rfl

@[simp] theorem modFaults_sys (f : Faults → Faults) (s : State) : (modFaults f s).sys = s.sys := rfl
@[simp] theorem modFaults_power (f : Faults → Faults) (s : State) : (modFaults f s).power = s.power := rfl
@[simp] theorem modFaults_mbx (f : Faults → Faults) (s : State) : (modFaults f s).mbx = s.mbx := rfl
@[simp] theorem modFaults_twi (f : Faults → Faults) (s : State) : (modFaults f s).twi = s.twi := rfl
@[simp] theorem modFaults_ports (f : Faults → Faults) (s : State) : (modFaults f s).ports = s.ports := rfl
@[simp] theorem modFaults_pool (f : Faults → Faults) (s : State) : (modFaults f s).pool = s.pool := rfl
@[simp] theorem modFaults_lanes (f : Faults → Faults) (s : State) : (modFaults f s).lanes = s.lanes := rfl
@[simp] theorem modFaults_map (f : Faults → Faults) (s : State) : (modFaults f s).map = s.map := rfl
@[simp] theorem modFaults_dial (f : Faults → Faults) (s : State) : (modFaults f s).dial = s.dial := rfl
@[simp] theorem modFaults_mon (f : Faults → Faults) (s : State) : (modFaults f s).mon = s.mon := rfl
@[simp] theorem modFaults_alarms (f : Faults → Faults) (s : State) : (modFaults f s).alarms = s.alarms := rfl
@[simp] theorem modFaults_faults (f : Faults → Faults) (s : State) : (modFaults f s).faults = f s.faults := rfl
@[simp] theorem modFaults_jrx (f : Faults → Faults) (s : State) : (modFaults f s).jrx = s.jrx := rfl
@[simp] theorem modFaults_test (f : Faults → Faults) (s : State) : (modFaults f s).test = s.test := rfl
@[simp] theorem modFaults_pins (f : Faults → Faults) (s : State) : (modFaults f s).pins = s.pins := rfl
@[simp] theorem modFaults_bulk (f : Faults → Faults) (s : State) : (modFaults f s).bulk = s.bulk := rfl
@[simp] theorem modFaults_free (f : Faults → Faults) (s : State) : (modFaults f s).free = s.free := rfl
@[simp] theorem modFaults_pending (f : Faults → Faults) (s : State) : (modFaults f s).pending = s.pending := rfl

@[simp] theorem modJrx_sys (f : Joryx → Joryx) (s : State) : (modJrx f s).sys = s.sys := rfl
@[simp] theorem modJrx_power (f : Joryx → Joryx) (s : State) : (modJrx f s).power = s.power := rfl
@[simp] theorem modJrx_mbx (f : Joryx → Joryx) (s : State) : (modJrx f s).mbx = s.mbx := rfl
@[simp] theorem modJrx_twi (f : Joryx → Joryx) (s : State) : (modJrx f s).twi = s.twi := rfl
@[simp] theorem modJrx_ports (f : Joryx → Joryx) (s : State) : (modJrx f s).ports = s.ports := rfl
@[simp] theorem modJrx_pool (f : Joryx → Joryx) (s : State) : (modJrx f s).pool = s.pool := rfl
@[simp] theorem modJrx_lanes (f : Joryx → Joryx) (s : State) : (modJrx f s).lanes = s.lanes := rfl
@[simp] theorem modJrx_map (f : Joryx → Joryx) (s : State) : (modJrx f s).map = s.map := rfl
@[simp] theorem modJrx_dial (f : Joryx → Joryx) (s : State) : (modJrx f s).dial = s.dial := rfl
@[simp] theorem modJrx_mon (f : Joryx → Joryx) (s : State) : (modJrx f s).mon = s.mon := rfl
@[simp] theorem modJrx_alarms (f : Joryx → Joryx) (s : State) : (modJrx f s).alarms = s.alarms := rfl
@[simp] theorem modJrx_faults (f : Joryx → Joryx) (s : State) : (modJrx f s).faults = s.faults := rfl
@[simp] theorem modJrx_jrx (f : Joryx → Joryx) (s : State) : (modJrx f s).jrx = f s.jrx := rfl
@[simp] theorem modJrx_test (f : Joryx → Joryx) (s : State) : (modJrx f s).test = s.test := rfl
@[simp] theorem modJrx_pins (f : Joryx → Joryx) (s : State) : (modJrx f s).pins = s.pins := rfl
@[simp] theorem modJrx_bulk (f : Joryx → Joryx) (s : State) : (modJrx f s).bulk = s.bulk := rfl
@[simp] theorem modJrx_free (f : Joryx → Joryx) (s : State) : (modJrx f s).free = s.free := rfl
@[simp] theorem modJrx_pending (f : Joryx → Joryx) (s : State) : (modJrx f s).pending = s.pending := rfl

@[simp] theorem modJp_sys (p : LPort) (f : JrxPort → JrxPort) (s : State) : (modJp p f s).sys = s.sys := rfl
@[simp] theorem modJp_power (p : LPort) (f : JrxPort → JrxPort) (s : State) : (modJp p f s).power = s.power := rfl
@[simp] theorem modJp_mbx (p : LPort) (f : JrxPort → JrxPort) (s : State) : (modJp p f s).mbx = s.mbx := rfl
@[simp] theorem modJp_twi (p : LPort) (f : JrxPort → JrxPort) (s : State) : (modJp p f s).twi = s.twi := rfl
@[simp] theorem modJp_ports (p : LPort) (f : JrxPort → JrxPort) (s : State) : (modJp p f s).ports = s.ports := rfl
@[simp] theorem modJp_pool (p : LPort) (f : JrxPort → JrxPort) (s : State) : (modJp p f s).pool = s.pool := rfl
@[simp] theorem modJp_lanes (p : LPort) (f : JrxPort → JrxPort) (s : State) : (modJp p f s).lanes = s.lanes := rfl
@[simp] theorem modJp_map (p : LPort) (f : JrxPort → JrxPort) (s : State) : (modJp p f s).map = s.map := rfl
@[simp] theorem modJp_dial (p : LPort) (f : JrxPort → JrxPort) (s : State) : (modJp p f s).dial = s.dial := rfl
@[simp] theorem modJp_mon (p : LPort) (f : JrxPort → JrxPort) (s : State) : (modJp p f s).mon = s.mon := rfl
@[simp] theorem modJp_alarms (p : LPort) (f : JrxPort → JrxPort) (s : State) : (modJp p f s).alarms = s.alarms := rfl
@[simp] theorem modJp_faults (p : LPort) (f : JrxPort → JrxPort) (s : State) : (modJp p f s).faults = s.faults := rfl
@[simp] theorem modJp_jrx (p : LPort) (f : JrxPort → JrxPort) (s : State) : (modJp p f s).jrx = { s.jrx with ports := vmod s.jrx.ports p f } := rfl
@[simp] theorem modJp_test (p : LPort) (f : JrxPort → JrxPort) (s : State) : (modJp p f s).test = s.test := rfl
@[simp] theorem modJp_pins (p : LPort) (f : JrxPort → JrxPort) (s : State) : (modJp p f s).pins = s.pins := rfl
@[simp] theorem modJp_bulk (p : LPort) (f : JrxPort → JrxPort) (s : State) : (modJp p f s).bulk = s.bulk := rfl
@[simp] theorem modJp_free (p : LPort) (f : JrxPort → JrxPort) (s : State) : (modJp p f s).free = s.free := rfl
@[simp] theorem modJp_pending (p : LPort) (f : JrxPort → JrxPort) (s : State) : (modJp p f s).pending = s.pending := rfl

@[simp] theorem modTwi_sys (f : Twi → Twi) (s : State) : (modTwi f s).sys = s.sys := rfl
@[simp] theorem modTwi_power (f : Twi → Twi) (s : State) : (modTwi f s).power = s.power := rfl
@[simp] theorem modTwi_mbx (f : Twi → Twi) (s : State) : (modTwi f s).mbx = s.mbx := rfl
@[simp] theorem modTwi_twi (f : Twi → Twi) (s : State) : (modTwi f s).twi = f s.twi := rfl
@[simp] theorem modTwi_ports (f : Twi → Twi) (s : State) : (modTwi f s).ports = s.ports := rfl
@[simp] theorem modTwi_pool (f : Twi → Twi) (s : State) : (modTwi f s).pool = s.pool := rfl
@[simp] theorem modTwi_lanes (f : Twi → Twi) (s : State) : (modTwi f s).lanes = s.lanes := rfl
@[simp] theorem modTwi_map (f : Twi → Twi) (s : State) : (modTwi f s).map = s.map := rfl
@[simp] theorem modTwi_dial (f : Twi → Twi) (s : State) : (modTwi f s).dial = s.dial := rfl
@[simp] theorem modTwi_mon (f : Twi → Twi) (s : State) : (modTwi f s).mon = s.mon := rfl
@[simp] theorem modTwi_alarms (f : Twi → Twi) (s : State) : (modTwi f s).alarms = s.alarms := rfl
@[simp] theorem modTwi_faults (f : Twi → Twi) (s : State) : (modTwi f s).faults = s.faults := rfl
@[simp] theorem modTwi_jrx (f : Twi → Twi) (s : State) : (modTwi f s).jrx = s.jrx := rfl
@[simp] theorem modTwi_test (f : Twi → Twi) (s : State) : (modTwi f s).test = s.test := rfl
@[simp] theorem modTwi_pins (f : Twi → Twi) (s : State) : (modTwi f s).pins = s.pins := rfl
@[simp] theorem modTwi_bulk (f : Twi → Twi) (s : State) : (modTwi f s).bulk = s.bulk := rfl
@[simp] theorem modTwi_free (f : Twi → Twi) (s : State) : (modTwi f s).free = s.free := rfl
@[simp] theorem modTwi_pending (f : Twi → Twi) (s : State) : (modTwi f s).pending = s.pending := rfl

@[simp] theorem modTest_sys (f : TestAcc → TestAcc) (s : State) : (modTest f s).sys = s.sys := rfl
@[simp] theorem modTest_power (f : TestAcc → TestAcc) (s : State) : (modTest f s).power = s.power := rfl
@[simp] theorem modTest_mbx (f : TestAcc → TestAcc) (s : State) : (modTest f s).mbx = s.mbx := rfl
@[simp] theorem modTest_twi (f : TestAcc → TestAcc) (s : State) : (modTest f s).twi = s.twi := rfl
@[simp] theorem modTest_ports (f : TestAcc → TestAcc) (s : State) : (modTest f s).ports = s.ports := rfl
@[simp] theorem modTest_pool (f : TestAcc → TestAcc) (s : State) : (modTest f s).pool = s.pool := rfl
@[simp] theorem modTest_lanes (f : TestAcc → TestAcc) (s : State) : (modTest f s).lanes = s.lanes := rfl
@[simp] theorem modTest_map (f : TestAcc → TestAcc) (s : State) : (modTest f s).map = s.map := rfl
@[simp] theorem modTest_dial (f : TestAcc → TestAcc) (s : State) : (modTest f s).dial = s.dial := rfl
@[simp] theorem modTest_mon (f : TestAcc → TestAcc) (s : State) : (modTest f s).mon = s.mon := rfl
@[simp] theorem modTest_alarms (f : TestAcc → TestAcc) (s : State) : (modTest f s).alarms = s.alarms := rfl
@[simp] theorem modTest_faults (f : TestAcc → TestAcc) (s : State) : (modTest f s).faults = s.faults := rfl
@[simp] theorem modTest_jrx (f : TestAcc → TestAcc) (s : State) : (modTest f s).jrx = s.jrx := rfl
@[simp] theorem modTest_test (f : TestAcc → TestAcc) (s : State) : (modTest f s).test = f s.test := rfl
@[simp] theorem modTest_pins (f : TestAcc → TestAcc) (s : State) : (modTest f s).pins = s.pins := rfl
@[simp] theorem modTest_bulk (f : TestAcc → TestAcc) (s : State) : (modTest f s).bulk = s.bulk := rfl
@[simp] theorem modTest_free (f : TestAcc → TestAcc) (s : State) : (modTest f s).free = s.free := rfl
@[simp] theorem modTest_pending (f : TestAcc → TestAcc) (s : State) : (modTest f s).pending = s.pending := rfl

@[simp] theorem modPins_sys (f : Pins → Pins) (s : State) : (modPins f s).sys = s.sys := rfl
@[simp] theorem modPins_power (f : Pins → Pins) (s : State) : (modPins f s).power = s.power := rfl
@[simp] theorem modPins_mbx (f : Pins → Pins) (s : State) : (modPins f s).mbx = s.mbx := rfl
@[simp] theorem modPins_twi (f : Pins → Pins) (s : State) : (modPins f s).twi = s.twi := rfl
@[simp] theorem modPins_ports (f : Pins → Pins) (s : State) : (modPins f s).ports = s.ports := rfl
@[simp] theorem modPins_pool (f : Pins → Pins) (s : State) : (modPins f s).pool = s.pool := rfl
@[simp] theorem modPins_lanes (f : Pins → Pins) (s : State) : (modPins f s).lanes = s.lanes := rfl
@[simp] theorem modPins_map (f : Pins → Pins) (s : State) : (modPins f s).map = s.map := rfl
@[simp] theorem modPins_dial (f : Pins → Pins) (s : State) : (modPins f s).dial = s.dial := rfl
@[simp] theorem modPins_mon (f : Pins → Pins) (s : State) : (modPins f s).mon = s.mon := rfl
@[simp] theorem modPins_alarms (f : Pins → Pins) (s : State) : (modPins f s).alarms = s.alarms := rfl
@[simp] theorem modPins_faults (f : Pins → Pins) (s : State) : (modPins f s).faults = s.faults := rfl
@[simp] theorem modPins_jrx (f : Pins → Pins) (s : State) : (modPins f s).jrx = s.jrx := rfl
@[simp] theorem modPins_test (f : Pins → Pins) (s : State) : (modPins f s).test = s.test := rfl
@[simp] theorem modPins_pins (f : Pins → Pins) (s : State) : (modPins f s).pins = f s.pins := rfl
@[simp] theorem modPins_bulk (f : Pins → Pins) (s : State) : (modPins f s).bulk = s.bulk := rfl
@[simp] theorem modPins_free (f : Pins → Pins) (s : State) : (modPins f s).free = s.free := rfl
@[simp] theorem modPins_pending (f : Pins → Pins) (s : State) : (modPins f s).pending = s.pending := rfl

@[simp] theorem putBulk_sys (off : Nat) (ws : List Word) (s : State) : (putBulk off ws s).sys = s.sys := rfl
@[simp] theorem putBulk_power (off : Nat) (ws : List Word) (s : State) : (putBulk off ws s).power = s.power := rfl
@[simp] theorem putBulk_mbx (off : Nat) (ws : List Word) (s : State) : (putBulk off ws s).mbx = s.mbx := rfl
@[simp] theorem putBulk_twi (off : Nat) (ws : List Word) (s : State) : (putBulk off ws s).twi = s.twi := rfl
@[simp] theorem putBulk_ports (off : Nat) (ws : List Word) (s : State) : (putBulk off ws s).ports = s.ports := rfl
@[simp] theorem putBulk_pool (off : Nat) (ws : List Word) (s : State) : (putBulk off ws s).pool = s.pool := rfl
@[simp] theorem putBulk_lanes (off : Nat) (ws : List Word) (s : State) : (putBulk off ws s).lanes = s.lanes := rfl
@[simp] theorem putBulk_map (off : Nat) (ws : List Word) (s : State) : (putBulk off ws s).map = s.map := rfl
@[simp] theorem putBulk_dial (off : Nat) (ws : List Word) (s : State) : (putBulk off ws s).dial = s.dial := rfl
@[simp] theorem putBulk_mon (off : Nat) (ws : List Word) (s : State) : (putBulk off ws s).mon = s.mon := rfl
@[simp] theorem putBulk_alarms (off : Nat) (ws : List Word) (s : State) : (putBulk off ws s).alarms = s.alarms := rfl
@[simp] theorem putBulk_faults (off : Nat) (ws : List Word) (s : State) : (putBulk off ws s).faults = s.faults := rfl
@[simp] theorem putBulk_jrx (off : Nat) (ws : List Word) (s : State) : (putBulk off ws s).jrx = s.jrx := rfl
@[simp] theorem putBulk_test (off : Nat) (ws : List Word) (s : State) : (putBulk off ws s).test = s.test := rfl
@[simp] theorem putBulk_pins (off : Nat) (ws : List Word) (s : State) : (putBulk off ws s).pins = s.pins := rfl
@[simp] theorem putBulk_bulk (off : Nat) (ws : List Word) (s : State) : (putBulk off ws s).bulk = bulkWrite s.bulk off ws := rfl
@[simp] theorem putBulk_free (off : Nat) (ws : List Word) (s : State) : (putBulk off ws s).free = s.free := rfl
@[simp] theorem putBulk_pending (off : Nat) (ws : List Word) (s : State) : (putBulk off ws s).pending = s.pending := rfl

@[simp] theorem tookFree_sys (s : State) : (tookFree s).sys = s.sys := rfl
@[simp] theorem tookFree_power (s : State) : (tookFree s).power = s.power := rfl
@[simp] theorem tookFree_mbx (s : State) : (tookFree s).mbx = s.mbx := rfl
@[simp] theorem tookFree_twi (s : State) : (tookFree s).twi = s.twi := rfl
@[simp] theorem tookFree_ports (s : State) : (tookFree s).ports = s.ports := rfl
@[simp] theorem tookFree_pool (s : State) : (tookFree s).pool = s.pool := rfl
@[simp] theorem tookFree_lanes (s : State) : (tookFree s).lanes = s.lanes := rfl
@[simp] theorem tookFree_map (s : State) : (tookFree s).map = s.map := rfl
@[simp] theorem tookFree_dial (s : State) : (tookFree s).dial = s.dial := rfl
@[simp] theorem tookFree_mon (s : State) : (tookFree s).mon = s.mon := rfl
@[simp] theorem tookFree_alarms (s : State) : (tookFree s).alarms = s.alarms := rfl
@[simp] theorem tookFree_faults (s : State) : (tookFree s).faults = s.faults := rfl
@[simp] theorem tookFree_jrx (s : State) : (tookFree s).jrx = s.jrx := rfl
@[simp] theorem tookFree_test (s : State) : (tookFree s).test = s.test := rfl
@[simp] theorem tookFree_pins (s : State) : (tookFree s).pins = s.pins := rfl
@[simp] theorem tookFree_bulk (s : State) : (tookFree s).bulk = s.bulk := rfl
@[simp] theorem tookFree_free (s : State) : (tookFree s).free = s.free + 1 := rfl
@[simp] theorem tookFree_pending (s : State) : (tookFree s).pending = s.pending := rfl

end Sys2Proof.Machine
end

