-- ==== Sys2Proof/Laws/FrameOps.lean ====
section
/-! SUPPORT. What the shared operations, recovery and hand-over leave alone, operation by operation. -/

namespace Sys2Proof.Machine

@[simp] theorem eachOf_sys {α : Type} (l : List α) (f : α → State → State) (s : State)
    (h : ∀ x s, (f x s).sys = s.sys) : (eachOf l f s).sys = s.sys := by
  induction l generalizing s with
  | nil => rfl
  | cons x l ih => exact (ih (f x s)).trans (h x s)
@[simp] theorem eachOf_power {α : Type} (l : List α) (f : α → State → State) (s : State)
    (h : ∀ x s, (f x s).power = s.power) : (eachOf l f s).power = s.power := by
  induction l generalizing s with
  | nil => rfl
  | cons x l ih => exact (ih (f x s)).trans (h x s)
@[simp] theorem eachOf_mbx {α : Type} (l : List α) (f : α → State → State) (s : State)
    (h : ∀ x s, (f x s).mbx = s.mbx) : (eachOf l f s).mbx = s.mbx := by
  induction l generalizing s with
  | nil => rfl
  | cons x l ih => exact (ih (f x s)).trans (h x s)
@[simp] theorem eachOf_twi {α : Type} (l : List α) (f : α → State → State) (s : State)
    (h : ∀ x s, (f x s).twi = s.twi) : (eachOf l f s).twi = s.twi := by
  induction l generalizing s with
  | nil => rfl
  | cons x l ih => exact (ih (f x s)).trans (h x s)
@[simp] theorem eachOf_ports {α : Type} (l : List α) (f : α → State → State) (s : State)
    (h : ∀ x s, (f x s).ports = s.ports) : (eachOf l f s).ports = s.ports := by
  induction l generalizing s with
  | nil => rfl
  | cons x l ih => exact (ih (f x s)).trans (h x s)
@[simp] theorem eachOf_pool {α : Type} (l : List α) (f : α → State → State) (s : State)
    (h : ∀ x s, (f x s).pool = s.pool) : (eachOf l f s).pool = s.pool := by
  induction l generalizing s with
  | nil => rfl
  | cons x l ih => exact (ih (f x s)).trans (h x s)
@[simp] theorem eachOf_lanes {α : Type} (l : List α) (f : α → State → State) (s : State)
    (h : ∀ x s, (f x s).lanes = s.lanes) : (eachOf l f s).lanes = s.lanes := by
  induction l generalizing s with
  | nil => rfl
  | cons x l ih => exact (ih (f x s)).trans (h x s)
@[simp] theorem eachOf_map {α : Type} (l : List α) (f : α → State → State) (s : State)
    (h : ∀ x s, (f x s).map = s.map) : (eachOf l f s).map = s.map := by
  induction l generalizing s with
  | nil => rfl
  | cons x l ih => exact (ih (f x s)).trans (h x s)
@[simp] theorem eachOf_dial {α : Type} (l : List α) (f : α → State → State) (s : State)
    (h : ∀ x s, (f x s).dial = s.dial) : (eachOf l f s).dial = s.dial := by
  induction l generalizing s with
  | nil => rfl
  | cons x l ih => exact (ih (f x s)).trans (h x s)
@[simp] theorem eachOf_mon {α : Type} (l : List α) (f : α → State → State) (s : State)
    (h : ∀ x s, (f x s).mon = s.mon) : (eachOf l f s).mon = s.mon := by
  induction l generalizing s with
  | nil => rfl
  | cons x l ih => exact (ih (f x s)).trans (h x s)
@[simp] theorem eachOf_alarms {α : Type} (l : List α) (f : α → State → State) (s : State)
    (h : ∀ x s, (f x s).alarms = s.alarms) : (eachOf l f s).alarms = s.alarms := by
  induction l generalizing s with
  | nil => rfl
  | cons x l ih => exact (ih (f x s)).trans (h x s)
@[simp] theorem eachOf_faults {α : Type} (l : List α) (f : α → State → State) (s : State)
    (h : ∀ x s, (f x s).faults = s.faults) : (eachOf l f s).faults = s.faults := by
  induction l generalizing s with
  | nil => rfl
  | cons x l ih => exact (ih (f x s)).trans (h x s)
@[simp] theorem eachOf_jrx {α : Type} (l : List α) (f : α → State → State) (s : State)
    (h : ∀ x s, (f x s).jrx = s.jrx) : (eachOf l f s).jrx = s.jrx := by
  induction l generalizing s with
  | nil => rfl
  | cons x l ih => exact (ih (f x s)).trans (h x s)
@[simp] theorem eachOf_test {α : Type} (l : List α) (f : α → State → State) (s : State)
    (h : ∀ x s, (f x s).test = s.test) : (eachOf l f s).test = s.test := by
  induction l generalizing s with
  | nil => rfl
  | cons x l ih => exact (ih (f x s)).trans (h x s)
@[simp] theorem eachOf_pins {α : Type} (l : List α) (f : α → State → State) (s : State)
    (h : ∀ x s, (f x s).pins = s.pins) : (eachOf l f s).pins = s.pins := by
  induction l generalizing s with
  | nil => rfl
  | cons x l ih => exact (ih (f x s)).trans (h x s)
@[simp] theorem eachOf_bulk {α : Type} (l : List α) (f : α → State → State) (s : State)
    (h : ∀ x s, (f x s).bulk = s.bulk) : (eachOf l f s).bulk = s.bulk := by
  induction l generalizing s with
  | nil => rfl
  | cons x l ih => exact (ih (f x s)).trans (h x s)
@[simp] theorem eachOf_free {α : Type} (l : List α) (f : α → State → State) (s : State)
    (h : ∀ x s, (f x s).free = s.free) : (eachOf l f s).free = s.free := by
  induction l generalizing s with
  | nil => rfl
  | cons x l ih => exact (ih (f x s)).trans (h x s)
@[simp] theorem eachOf_pending {α : Type} (l : List α) (f : α → State → State) (s : State)
    (h : ∀ x s, (f x s).pending = s.pending) : (eachOf l f s).pending = s.pending := by
  induction l generalizing s with
  | nil => rfl
  | cons x l ih => exact (ih (f x s)).trans (h x s)
@[simp] theorem eachPort_sys (f : LPort → State → State) (s : State)
    (h : ∀ x s, (f x s).sys = s.sys) : (eachPort f s).sys = s.sys := by
  simp [eachPort, h]
@[simp] theorem eachPort_power (f : LPort → State → State) (s : State)
    (h : ∀ x s, (f x s).power = s.power) : (eachPort f s).power = s.power := by
  simp [eachPort, h]
@[simp] theorem eachPort_mbx (f : LPort → State → State) (s : State)
    (h : ∀ x s, (f x s).mbx = s.mbx) : (eachPort f s).mbx = s.mbx := by
  simp [eachPort, h]
@[simp] theorem eachPort_twi (f : LPort → State → State) (s : State)
    (h : ∀ x s, (f x s).twi = s.twi) : (eachPort f s).twi = s.twi := by
  simp [eachPort, h]
@[simp] theorem eachPort_ports (f : LPort → State → State) (s : State)
    (h : ∀ x s, (f x s).ports = s.ports) : (eachPort f s).ports = s.ports := by
  simp [eachPort, h]
@[simp] theorem eachPort_pool (f : LPort → State → State) (s : State)
    (h : ∀ x s, (f x s).pool = s.pool) : (eachPort f s).pool = s.pool := by
  simp [eachPort, h]
@[simp] theorem eachPort_lanes (f : LPort → State → State) (s : State)
    (h : ∀ x s, (f x s).lanes = s.lanes) : (eachPort f s).lanes = s.lanes := by
  simp [eachPort, h]
@[simp] theorem eachPort_map (f : LPort → State → State) (s : State)
    (h : ∀ x s, (f x s).map = s.map) : (eachPort f s).map = s.map := by
  simp [eachPort, h]
@[simp] theorem eachPort_dial (f : LPort → State → State) (s : State)
    (h : ∀ x s, (f x s).dial = s.dial) : (eachPort f s).dial = s.dial := by
  simp [eachPort, h]
@[simp] theorem eachPort_mon (f : LPort → State → State) (s : State)
    (h : ∀ x s, (f x s).mon = s.mon) : (eachPort f s).mon = s.mon := by
  simp [eachPort, h]
@[simp] theorem eachPort_alarms (f : LPort → State → State) (s : State)
    (h : ∀ x s, (f x s).alarms = s.alarms) : (eachPort f s).alarms = s.alarms := by
  simp [eachPort, h]
@[simp] theorem eachPort_faults (f : LPort → State → State) (s : State)
    (h : ∀ x s, (f x s).faults = s.faults) : (eachPort f s).faults = s.faults := by
  simp [eachPort, h]
@[simp] theorem eachPort_jrx (f : LPort → State → State) (s : State)
    (h : ∀ x s, (f x s).jrx = s.jrx) : (eachPort f s).jrx = s.jrx := by
  simp [eachPort, h]
@[simp] theorem eachPort_test (f : LPort → State → State) (s : State)
    (h : ∀ x s, (f x s).test = s.test) : (eachPort f s).test = s.test := by
  simp [eachPort, h]
@[simp] theorem eachPort_pins (f : LPort → State → State) (s : State)
    (h : ∀ x s, (f x s).pins = s.pins) : (eachPort f s).pins = s.pins := by
  simp [eachPort, h]
@[simp] theorem eachPort_bulk (f : LPort → State → State) (s : State)
    (h : ∀ x s, (f x s).bulk = s.bulk) : (eachPort f s).bulk = s.bulk := by
  simp [eachPort, h]
@[simp] theorem eachPort_free (f : LPort → State → State) (s : State)
    (h : ∀ x s, (f x s).free = s.free) : (eachPort f s).free = s.free := by
  simp [eachPort, h]
@[simp] theorem eachPort_pending (f : LPort → State → State) (s : State)
    (h : ∀ x s, (f x s).pending = s.pending) : (eachPort f s).pending = s.pending := by
  simp [eachPort, h]
@[simp] theorem doIf_sys (c : Bool) (f : State → State) (s : State)
    (h : ∀ s, (f s).sys = s.sys) : (doIf c f s).sys = s.sys := by
  cases c <;> simp [doIf, h]
@[simp] theorem doIf_power (c : Bool) (f : State → State) (s : State)
    (h : ∀ s, (f s).power = s.power) : (doIf c f s).power = s.power := by
  cases c <;> simp [doIf, h]
@[simp] theorem doIf_mbx (c : Bool) (f : State → State) (s : State)
    (h : ∀ s, (f s).mbx = s.mbx) : (doIf c f s).mbx = s.mbx := by
  cases c <;> simp [doIf, h]
@[simp] theorem doIf_twi (c : Bool) (f : State → State) (s : State)
    (h : ∀ s, (f s).twi = s.twi) : (doIf c f s).twi = s.twi := by
  cases c <;> simp [doIf, h]
@[simp] theorem doIf_ports (c : Bool) (f : State → State) (s : State)
    (h : ∀ s, (f s).ports = s.ports) : (doIf c f s).ports = s.ports := by
  cases c <;> simp [doIf, h]
@[simp] theorem doIf_pool (c : Bool) (f : State → State) (s : State)
    (h : ∀ s, (f s).pool = s.pool) : (doIf c f s).pool = s.pool := by
  cases c <;> simp [doIf, h]
@[simp] theorem doIf_lanes (c : Bool) (f : State → State) (s : State)
    (h : ∀ s, (f s).lanes = s.lanes) : (doIf c f s).lanes = s.lanes := by
  cases c <;> simp [doIf, h]
@[simp] theorem doIf_map (c : Bool) (f : State → State) (s : State)
    (h : ∀ s, (f s).map = s.map) : (doIf c f s).map = s.map := by
  cases c <;> simp [doIf, h]
@[simp] theorem doIf_dial (c : Bool) (f : State → State) (s : State)
    (h : ∀ s, (f s).dial = s.dial) : (doIf c f s).dial = s.dial := by
  cases c <;> simp [doIf, h]
@[simp] theorem doIf_mon (c : Bool) (f : State → State) (s : State)
    (h : ∀ s, (f s).mon = s.mon) : (doIf c f s).mon = s.mon := by
  cases c <;> simp [doIf, h]
@[simp] theorem doIf_alarms (c : Bool) (f : State → State) (s : State)
    (h : ∀ s, (f s).alarms = s.alarms) : (doIf c f s).alarms = s.alarms := by
  cases c <;> simp [doIf, h]
@[simp] theorem doIf_faults (c : Bool) (f : State → State) (s : State)
    (h : ∀ s, (f s).faults = s.faults) : (doIf c f s).faults = s.faults := by
  cases c <;> simp [doIf, h]
@[simp] theorem doIf_jrx (c : Bool) (f : State → State) (s : State)
    (h : ∀ s, (f s).jrx = s.jrx) : (doIf c f s).jrx = s.jrx := by
  cases c <;> simp [doIf, h]
@[simp] theorem doIf_test (c : Bool) (f : State → State) (s : State)
    (h : ∀ s, (f s).test = s.test) : (doIf c f s).test = s.test := by
  cases c <;> simp [doIf, h]
@[simp] theorem doIf_pins (c : Bool) (f : State → State) (s : State)
    (h : ∀ s, (f s).pins = s.pins) : (doIf c f s).pins = s.pins := by
  cases c <;> simp [doIf, h]
@[simp] theorem doIf_bulk (c : Bool) (f : State → State) (s : State)
    (h : ∀ s, (f s).bulk = s.bulk) : (doIf c f s).bulk = s.bulk := by
  cases c <;> simp [doIf, h]
@[simp] theorem doIf_free (c : Bool) (f : State → State) (s : State)
    (h : ∀ s, (f s).free = s.free) : (doIf c f s).free = s.free := by
  cases c <;> simp [doIf, h]
@[simp] theorem doIf_pending (c : Bool) (f : State → State) (s : State)
    (h : ∀ s, (f s).pending = s.pending) : (doIf c f s).pending = s.pending := by
  cases c <;> simp [doIf, h]

@[simp] theorem setDom_keeps (d : Dom) (x : PState) (s : State) :
    (setDom d x s).sys = s.sys ∧ (setDom d x s).mbx = s.mbx ∧ (setDom d x s).twi = s.twi ∧ (setDom d x s).ports = s.ports ∧ (setDom d x s).pool = s.pool ∧ (setDom d x s).lanes = s.lanes ∧ (setDom d x s).map = s.map ∧ (setDom d x s).dial = s.dial ∧ (setDom d x s).mon = s.mon ∧ (setDom d x s).alarms = s.alarms ∧ (setDom d x s).faults = s.faults ∧ (setDom d x s).jrx = s.jrx ∧ (setDom d x s).test = s.test ∧ (setDom d x s).pins = s.pins ∧ (setDom d x s).bulk = s.bulk ∧ (setDom d x s).free = s.free ∧ (setDom d x s).pending = s.pending := by
  simp only [setDom]; (repeat' split) <;> simp
@[simp] theorem ringBits_keeps (v : Nat) (s : State) :
    (ringBits v s).sys = s.sys ∧ (ringBits v s).power = s.power ∧ (ringBits v s).twi = s.twi ∧ (ringBits v s).ports = s.ports ∧ (ringBits v s).pool = s.pool ∧ (ringBits v s).lanes = s.lanes ∧ (ringBits v s).map = s.map ∧ (ringBits v s).dial = s.dial ∧ (ringBits v s).mon = s.mon ∧ (ringBits v s).alarms = s.alarms ∧ (ringBits v s).faults = s.faults ∧ (ringBits v s).jrx = s.jrx ∧ (ringBits v s).test = s.test ∧ (ringBits v s).pins = s.pins ∧ (ringBits v s).bulk = s.bulk ∧ (ringBits v s).free = s.free ∧ (ringBits v s).pending = s.pending := by
  simp only [ringBits]; (repeat' split) <;> simp
@[simp] theorem ring_keeps (b : Nat) (s : State) :
    (ring b s).sys = s.sys ∧ (ring b s).power = s.power ∧ (ring b s).twi = s.twi ∧ (ring b s).ports = s.ports ∧ (ring b s).pool = s.pool ∧ (ring b s).lanes = s.lanes ∧ (ring b s).map = s.map ∧ (ring b s).dial = s.dial ∧ (ring b s).mon = s.mon ∧ (ring b s).alarms = s.alarms ∧ (ring b s).faults = s.faults ∧ (ring b s).jrx = s.jrx ∧ (ring b s).test = s.test ∧ (ring b s).pins = s.pins ∧ (ring b s).bulk = s.bulk ∧ (ring b s).free = s.free ∧ (ring b s).pending = s.pending := by
  simp only [ring]; (repeat' split) <;> simp
@[simp] theorem pourM_keeps (n : Fin 8) (s : State) :
    (pourM n s).sys = s.sys ∧ (pourM n s).power = s.power ∧ (pourM n s).twi = s.twi ∧ (pourM n s).ports = s.ports ∧ (pourM n s).pool = s.pool ∧ (pourM n s).lanes = s.lanes ∧ (pourM n s).map = s.map ∧ (pourM n s).dial = s.dial ∧ (pourM n s).mon = s.mon ∧ (pourM n s).alarms = s.alarms ∧ (pourM n s).faults = s.faults ∧ (pourM n s).jrx = s.jrx ∧ (pourM n s).test = s.test ∧ (pourM n s).pins = s.pins ∧ (pourM n s).bulk = s.bulk ∧ (pourM n s).free = s.free ∧ (pourM n s).pending = s.pending := by
  simp only [pourM]; (repeat' split) <;> simp
@[simp] theorem postM_keeps (n : Fin 8) (m : OutMsg) (s : State) :
    (postM n m s).sys = s.sys ∧ (postM n m s).power = s.power ∧ (postM n m s).twi = s.twi ∧ (postM n m s).ports = s.ports ∧ (postM n m s).pool = s.pool ∧ (postM n m s).lanes = s.lanes ∧ (postM n m s).map = s.map ∧ (postM n m s).dial = s.dial ∧ (postM n m s).mon = s.mon ∧ (postM n m s).alarms = s.alarms ∧ (postM n m s).faults = s.faults ∧ (postM n m s).jrx = s.jrx ∧ (postM n m s).test = s.test ∧ (postM n m s).pins = s.pins ∧ (postM n m s).bulk = s.bulk ∧ (postM n m s).free = s.free ∧ (postM n m s).pending = s.pending := by
  simp only [postM]; (repeat' split) <;> simp
@[simp] theorem postEvent_keeps (n : Fin 8) (code tag : Nat) (a : Answer) (isDial : Bool) (s : State) :
    (postEvent n code tag a isDial s).sys = s.sys ∧ (postEvent n code tag a isDial s).power = s.power ∧ (postEvent n code tag a isDial s).twi = s.twi ∧ (postEvent n code tag a isDial s).ports = s.ports ∧ (postEvent n code tag a isDial s).pool = s.pool ∧ (postEvent n code tag a isDial s).lanes = s.lanes ∧ (postEvent n code tag a isDial s).map = s.map ∧ (postEvent n code tag a isDial s).dial = s.dial ∧ (postEvent n code tag a isDial s).mon = s.mon ∧ (postEvent n code tag a isDial s).alarms = s.alarms ∧ (postEvent n code tag a isDial s).faults = s.faults ∧ (postEvent n code tag a isDial s).jrx = s.jrx ∧ (postEvent n code tag a isDial s).test = s.test ∧ (postEvent n code tag a isDial s).pins = s.pins ∧ (postEvent n code tag a isDial s).bulk = s.bulk ∧ (postEvent n code tag a isDial s).free = s.free ∧ (postEvent n code tag a isDial s).pending = s.pending := by
  simp only [postEvent]; (repeat' split) <;> simp
@[simp] theorem jrxCount_keeps (p : LPort) (i : Fin 6) (s : State) :
    (jrxCount p i s).sys = s.sys ∧ (jrxCount p i s).power = s.power ∧ (jrxCount p i s).mbx = s.mbx ∧ (jrxCount p i s).twi = s.twi ∧ (jrxCount p i s).ports = s.ports ∧ (jrxCount p i s).pool = s.pool ∧ (jrxCount p i s).lanes = s.lanes ∧ (jrxCount p i s).map = s.map ∧ (jrxCount p i s).dial = s.dial ∧ (jrxCount p i s).mon = s.mon ∧ (jrxCount p i s).alarms = s.alarms ∧ (jrxCount p i s).faults = s.faults ∧ (jrxCount p i s).test = s.test ∧ (jrxCount p i s).pins = s.pins ∧ (jrxCount p i s).bulk = s.bulk ∧ (jrxCount p i s).free = s.free ∧ (jrxCount p i s).pending = s.pending := by
  simp only [jrxCount]; (repeat' split) <;> simp
@[simp] theorem egress_keeps (p : LPort) (f : Frame) (s : State) :
    (egress p f s).sys = s.sys ∧ (egress p f s).power = s.power ∧ (egress p f s).mbx = s.mbx ∧ (egress p f s).twi = s.twi ∧ (egress p f s).ports = s.ports ∧ (egress p f s).pool = s.pool ∧ (egress p f s).lanes = s.lanes ∧ (egress p f s).map = s.map ∧ (egress p f s).dial = s.dial ∧ (egress p f s).mon = s.mon ∧ (egress p f s).alarms = s.alarms ∧ (egress p f s).faults = s.faults ∧ (egress p f s).test = s.test ∧ (egress p f s).pins = s.pins ∧ (egress p f s).bulk = s.bulk ∧ (egress p f s).free = s.free ∧ (egress p f s).pending = s.pending := by
  simp only [egress]; (repeat' split) <;> simp
@[simp] theorem sendFrame_keeps (dest : BitVec 11) (chan : BitVec 2) (type : BitVec 3) (body : List Word) (back : LPort) (s : State) :
    (sendFrame dest chan type body back s).sys = s.sys ∧ (sendFrame dest chan type body back s).power = s.power ∧ (sendFrame dest chan type body back s).mbx = s.mbx ∧ (sendFrame dest chan type body back s).twi = s.twi ∧ (sendFrame dest chan type body back s).ports = s.ports ∧ (sendFrame dest chan type body back s).pool = s.pool ∧ (sendFrame dest chan type body back s).lanes = s.lanes ∧ (sendFrame dest chan type body back s).map = s.map ∧ (sendFrame dest chan type body back s).dial = s.dial ∧ (sendFrame dest chan type body back s).mon = s.mon ∧ (sendFrame dest chan type body back s).alarms = s.alarms ∧ (sendFrame dest chan type body back s).faults = s.faults ∧ (sendFrame dest chan type body back s).test = s.test ∧ (sendFrame dest chan type body back s).pins = s.pins ∧ (sendFrame dest chan type body back s).bulk = s.bulk ∧ (sendFrame dest chan type body back s).free = s.free ∧ (sendFrame dest chan type body back s).pending = s.pending := by
  simp only [sendFrame]; (repeat' split) <;> simp
@[simp] theorem unforward_keeps (rq : Req) (s : State) :
    (unforward rq s).sys = s.sys ∧ (unforward rq s).power = s.power ∧ (unforward rq s).twi = s.twi ∧ (unforward rq s).ports = s.ports ∧ (unforward rq s).pool = s.pool ∧ (unforward rq s).lanes = s.lanes ∧ (unforward rq s).map = s.map ∧ (unforward rq s).dial = s.dial ∧ (unforward rq s).mon = s.mon ∧ (unforward rq s).alarms = s.alarms ∧ (unforward rq s).faults = s.faults ∧ (unforward rq s).jrx = s.jrx ∧ (unforward rq s).test = s.test ∧ (unforward rq s).pins = s.pins ∧ (unforward rq s).bulk = s.bulk ∧ (unforward rq s).free = s.free ∧ (unforward rq s).pending = s.pending := by
  simp only [unforward]; (repeat' split) <;> simp
@[simp] theorem taken_keeps (rq : Req) (s : State) :
    (taken rq s).sys = s.sys ∧ (taken rq s).power = s.power ∧ (taken rq s).twi = s.twi ∧ (taken rq s).ports = s.ports ∧ (taken rq s).pool = s.pool ∧ (taken rq s).lanes = s.lanes ∧ (taken rq s).map = s.map ∧ (taken rq s).dial = s.dial ∧ (taken rq s).mon = s.mon ∧ (taken rq s).alarms = s.alarms ∧ (taken rq s).faults = s.faults ∧ (taken rq s).jrx = s.jrx ∧ (taken rq s).test = s.test ∧ (taken rq s).pins = s.pins ∧ (taken rq s).bulk = s.bulk ∧ (taken rq s).free = s.free ∧ (taken rq s).pending = s.pending := by
  simp only [taken]; (repeat' split) <;> simp
@[simp] theorem replyChan_keeps (c : Chan) (opcode : Nat) (rq : Req) (a : Answer) (hw : Bool) (s : State) :
    (replyChan c opcode rq a hw s).sys = s.sys ∧ (replyChan c opcode rq a hw s).power = s.power ∧ (replyChan c opcode rq a hw s).twi = s.twi ∧ (replyChan c opcode rq a hw s).ports = s.ports ∧ (replyChan c opcode rq a hw s).pool = s.pool ∧ (replyChan c opcode rq a hw s).lanes = s.lanes ∧ (replyChan c opcode rq a hw s).map = s.map ∧ (replyChan c opcode rq a hw s).dial = s.dial ∧ (replyChan c opcode rq a hw s).mon = s.mon ∧ (replyChan c opcode rq a hw s).alarms = s.alarms ∧ (replyChan c opcode rq a hw s).faults = s.faults ∧ (replyChan c opcode rq a hw s).test = s.test ∧ (replyChan c opcode rq a hw s).pins = s.pins ∧ (replyChan c opcode rq a hw s).bulk = s.bulk ∧ (replyChan c opcode rq a hw s).free = s.free ∧ (replyChan c opcode rq a hw s).pending = s.pending := by
  simp only [replyChan]; (repeat' split) <;> simp
@[simp] theorem modEvs_keeps (f : DialEv → DialEv) (s : State) :
    (modEvs f s).sys = s.sys ∧ (modEvs f s).power = s.power ∧ (modEvs f s).mbx = s.mbx ∧ (modEvs f s).twi = s.twi ∧ (modEvs f s).ports = s.ports ∧ (modEvs f s).pool = s.pool ∧ (modEvs f s).lanes = s.lanes ∧ (modEvs f s).map = s.map ∧ (modEvs f s).mon = s.mon ∧ (modEvs f s).alarms = s.alarms ∧ (modEvs f s).faults = s.faults ∧ (modEvs f s).jrx = s.jrx ∧ (modEvs f s).test = s.test ∧ (modEvs f s).pins = s.pins ∧ (modEvs f s).bulk = s.bulk ∧ (modEvs f s).free = s.free ∧ (modEvs f s).pending = s.pending := by
  simp only [modEvs]; (repeat' split) <;> simp
@[simp] theorem dialCount_keeps (i : Fin 10) (s : State) :
    (dialCount i s).sys = s.sys ∧ (dialCount i s).power = s.power ∧ (dialCount i s).mbx = s.mbx ∧ (dialCount i s).twi = s.twi ∧ (dialCount i s).ports = s.ports ∧ (dialCount i s).pool = s.pool ∧ (dialCount i s).lanes = s.lanes ∧ (dialCount i s).map = s.map ∧ (dialCount i s).mon = s.mon ∧ (dialCount i s).alarms = s.alarms ∧ (dialCount i s).faults = s.faults ∧ (dialCount i s).jrx = s.jrx ∧ (dialCount i s).test = s.test ∧ (dialCount i s).pins = s.pins ∧ (dialCount i s).bulk = s.bulk ∧ (dialCount i s).free = s.free ∧ (dialCount i s).pending = s.pending := by
  simp only [dialCount]; (repeat' split) <;> simp
@[simp] theorem completeWith_keeps (e : DialEv) (st : Status) (reason : Nat) (cmdStatus : Word) (s : State) :
    (completeWith e st reason cmdStatus s).sys = s.sys ∧ (completeWith e st reason cmdStatus s).power = s.power ∧ (completeWith e st reason cmdStatus s).twi = s.twi ∧ (completeWith e st reason cmdStatus s).ports = s.ports ∧ (completeWith e st reason cmdStatus s).pool = s.pool ∧ (completeWith e st reason cmdStatus s).lanes = s.lanes ∧ (completeWith e st reason cmdStatus s).map = s.map ∧ (completeWith e st reason cmdStatus s).mon = s.mon ∧ (completeWith e st reason cmdStatus s).alarms = s.alarms ∧ (completeWith e st reason cmdStatus s).faults = s.faults ∧ (completeWith e st reason cmdStatus s).test = s.test ∧ (completeWith e st reason cmdStatus s).pins = s.pins ∧ (completeWith e st reason cmdStatus s).bulk = s.bulk ∧ (completeWith e st reason cmdStatus s).free = s.free ∧ (completeWith e st reason cmdStatus s).pending = s.pending := by
  simp only [completeWith]; (repeat' split) <;> simp
@[simp] theorem completeEvent_keeps (e : DialEv) (a : Answer) (s : State) :
    (completeEvent e a s).sys = s.sys ∧ (completeEvent e a s).power = s.power ∧ (completeEvent e a s).twi = s.twi ∧ (completeEvent e a s).ports = s.ports ∧ (completeEvent e a s).pool = s.pool ∧ (completeEvent e a s).lanes = s.lanes ∧ (completeEvent e a s).map = s.map ∧ (completeEvent e a s).mon = s.mon ∧ (completeEvent e a s).alarms = s.alarms ∧ (completeEvent e a s).faults = s.faults ∧ (completeEvent e a s).test = s.test ∧ (completeEvent e a s).pins = s.pins ∧ (completeEvent e a s).bulk = s.bulk ∧ (completeEvent e a s).free = s.free ∧ (completeEvent e a s).pending = s.pending := by
  simp only [completeEvent]; (repeat' split) <;> simp
@[simp] theorem blobResult_keeps (a : Answer) (s : State) :
    (blobResult a s).power = s.power ∧ (blobResult a s).mbx = s.mbx ∧ (blobResult a s).twi = s.twi ∧ (blobResult a s).ports = s.ports ∧ (blobResult a s).pool = s.pool ∧ (blobResult a s).lanes = s.lanes ∧ (blobResult a s).map = s.map ∧ (blobResult a s).dial = s.dial ∧ (blobResult a s).mon = s.mon ∧ (blobResult a s).alarms = s.alarms ∧ (blobResult a s).faults = s.faults ∧ (blobResult a s).jrx = s.jrx ∧ (blobResult a s).test = s.test ∧ (blobResult a s).pins = s.pins ∧ (blobResult a s).bulk = s.bulk ∧ (blobResult a s).free = s.free ∧ (blobResult a s).pending = s.pending := by
  simp only [blobResult]; (repeat' split) <;> simp
@[simp] theorem reply_keeps (opcode : Nat) (rq : Req) (a : Answer) (s : State) :
    (reply opcode rq a s).power = s.power ∧ (reply opcode rq a s).twi = s.twi ∧ (reply opcode rq a s).ports = s.ports ∧ (reply opcode rq a s).pool = s.pool ∧ (reply opcode rq a s).lanes = s.lanes ∧ (reply opcode rq a s).map = s.map ∧ (reply opcode rq a s).mon = s.mon ∧ (reply opcode rq a s).alarms = s.alarms ∧ (reply opcode rq a s).faults = s.faults ∧ (reply opcode rq a s).test = s.test ∧ (reply opcode rq a s).pins = s.pins ∧ (reply opcode rq a s).bulk = s.bulk ∧ (reply opcode rq a s).free = s.free ∧ (reply opcode rq a s).pending = s.pending := by
  simp only [reply]; (repeat' split) <;> simp
@[simp] theorem completeExact_keeps (e : DialEv) (a : Answer) (s : State) :
    (completeExact e a s).power = s.power ∧ (completeExact e a s).twi = s.twi ∧ (completeExact e a s).ports = s.ports ∧ (completeExact e a s).pool = s.pool ∧ (completeExact e a s).lanes = s.lanes ∧ (completeExact e a s).map = s.map ∧ (completeExact e a s).mon = s.mon ∧ (completeExact e a s).alarms = s.alarms ∧ (completeExact e a s).faults = s.faults ∧ (completeExact e a s).test = s.test ∧ (completeExact e a s).pins = s.pins ∧ (completeExact e a s).bulk = s.bulk ∧ (completeExact e a s).free = s.free ∧ (completeExact e a s).pending = s.pending := by
  simp only [completeExact]; (repeat' split) <;> simp
@[simp] theorem abortEvent_keeps (e : DialEv) (reason : Nat) (s : State) :
    (abortEvent e reason s).power = s.power ∧ (abortEvent e reason s).twi = s.twi ∧ (abortEvent e reason s).ports = s.ports ∧ (abortEvent e reason s).pool = s.pool ∧ (abortEvent e reason s).lanes = s.lanes ∧ (abortEvent e reason s).map = s.map ∧ (abortEvent e reason s).mon = s.mon ∧ (abortEvent e reason s).alarms = s.alarms ∧ (abortEvent e reason s).faults = s.faults ∧ (abortEvent e reason s).test = s.test ∧ (abortEvent e reason s).pins = s.pins ∧ (abortEvent e reason s).bulk = s.bulk ∧ (abortEvent e reason s).free = s.free ∧ (abortEvent e reason s).pending = s.pending := by
  simp only [abortEvent]; (repeat' split) <;> simp
@[simp] theorem modAlarm_keeps (key : AlarmKey) (f : Alarm → Alarm) (s : State) :
    (modAlarm key f s).sys = s.sys ∧ (modAlarm key f s).power = s.power ∧ (modAlarm key f s).mbx = s.mbx ∧ (modAlarm key f s).twi = s.twi ∧ (modAlarm key f s).ports = s.ports ∧ (modAlarm key f s).lanes = s.lanes ∧ (modAlarm key f s).map = s.map ∧ (modAlarm key f s).dial = s.dial ∧ (modAlarm key f s).mon = s.mon ∧ (modAlarm key f s).faults = s.faults ∧ (modAlarm key f s).test = s.test ∧ (modAlarm key f s).pins = s.pins ∧ (modAlarm key f s).bulk = s.bulk ∧ (modAlarm key f s).free = s.free ∧ (modAlarm key f s).pending = s.pending := by
  simp only [modAlarm]; (repeat' split) <;> simp
@[simp] theorem alarmEvent_keeps (key : AlarmKey) (b : Nat) (raised : Bool) (s : State) :
    (alarmEvent key b raised s).sys = s.sys ∧ (alarmEvent key b raised s).power = s.power ∧ (alarmEvent key b raised s).twi = s.twi ∧ (alarmEvent key b raised s).ports = s.ports ∧ (alarmEvent key b raised s).pool = s.pool ∧ (alarmEvent key b raised s).lanes = s.lanes ∧ (alarmEvent key b raised s).map = s.map ∧ (alarmEvent key b raised s).dial = s.dial ∧ (alarmEvent key b raised s).mon = s.mon ∧ (alarmEvent key b raised s).alarms = s.alarms ∧ (alarmEvent key b raised s).faults = s.faults ∧ (alarmEvent key b raised s).jrx = s.jrx ∧ (alarmEvent key b raised s).test = s.test ∧ (alarmEvent key b raised s).pins = s.pins ∧ (alarmEvent key b raised s).bulk = s.bulk ∧ (alarmEvent key b raised s).free = s.free ∧ (alarmEvent key b raised s).pending = s.pending := by
  simp only [alarmEvent]; (repeat' split) <;> simp
@[simp] theorem setAlarm_keeps (key : AlarmKey) (b : Nat) (on : Bool) (s : State) :
    (setAlarm key b on s).sys = s.sys ∧ (setAlarm key b on s).power = s.power ∧ (setAlarm key b on s).twi = s.twi ∧ (setAlarm key b on s).ports = s.ports ∧ (setAlarm key b on s).lanes = s.lanes ∧ (setAlarm key b on s).map = s.map ∧ (setAlarm key b on s).dial = s.dial ∧ (setAlarm key b on s).mon = s.mon ∧ (setAlarm key b on s).faults = s.faults ∧ (setAlarm key b on s).test = s.test ∧ (setAlarm key b on s).pins = s.pins ∧ (setAlarm key b on s).bulk = s.bulk ∧ (setAlarm key b on s).free = s.free ∧ (setAlarm key b on s).pending = s.pending := by
  simp only [setAlarm]; (repeat' split) <;> simp
@[simp] theorem raiseAlarm_keeps (key : AlarmKey) (b : Nat) (cond : Bool) (s : State) :
    (raiseAlarm key b cond s).sys = s.sys ∧ (raiseAlarm key b cond s).power = s.power ∧ (raiseAlarm key b cond s).twi = s.twi ∧ (raiseAlarm key b cond s).ports = s.ports ∧ (raiseAlarm key b cond s).lanes = s.lanes ∧ (raiseAlarm key b cond s).map = s.map ∧ (raiseAlarm key b cond s).dial = s.dial ∧ (raiseAlarm key b cond s).mon = s.mon ∧ (raiseAlarm key b cond s).faults = s.faults ∧ (raiseAlarm key b cond s).test = s.test ∧ (raiseAlarm key b cond s).pins = s.pins ∧ (raiseAlarm key b cond s).bulk = s.bulk ∧ (raiseAlarm key b cond s).free = s.free ∧ (raiseAlarm key b cond s).pending = s.pending := by
  simp only [raiseAlarm]; (repeat' split) <;> simp
@[simp] theorem stateEvent_keeps (old : DevState) (s : State) :
    (stateEvent old s).sys = s.sys ∧ (stateEvent old s).power = s.power ∧ (stateEvent old s).twi = s.twi ∧ (stateEvent old s).ports = s.ports ∧ (stateEvent old s).pool = s.pool ∧ (stateEvent old s).lanes = s.lanes ∧ (stateEvent old s).map = s.map ∧ (stateEvent old s).dial = s.dial ∧ (stateEvent old s).mon = s.mon ∧ (stateEvent old s).alarms = s.alarms ∧ (stateEvent old s).faults = s.faults ∧ (stateEvent old s).jrx = s.jrx ∧ (stateEvent old s).test = s.test ∧ (stateEvent old s).pins = s.pins ∧ (stateEvent old s).bulk = s.bulk ∧ (stateEvent old s).free = s.free ∧ (stateEvent old s).pending = s.pending := by
  simp only [stateEvent]; (repeat' split) <;> simp
@[simp] theorem moveDev_keeps (new : DevState) (reason : Nat) (s : State) :
    (moveDev new reason s).power = s.power ∧ (moveDev new reason s).twi = s.twi ∧ (moveDev new reason s).ports = s.ports ∧ (moveDev new reason s).pool = s.pool ∧ (moveDev new reason s).lanes = s.lanes ∧ (moveDev new reason s).map = s.map ∧ (moveDev new reason s).dial = s.dial ∧ (moveDev new reason s).mon = s.mon ∧ (moveDev new reason s).alarms = s.alarms ∧ (moveDev new reason s).faults = s.faults ∧ (moveDev new reason s).jrx = s.jrx ∧ (moveDev new reason s).test = s.test ∧ (moveDev new reason s).pins = s.pins ∧ (moveDev new reason s).bulk = s.bulk ∧ (moveDev new reason s).free = s.free ∧ (moveDev new reason s).pending = s.pending := by
  simp only [moveDev]; (repeat' split) <;> simp
@[simp] theorem pwrEvent_keeps (outcome : Nat) (s : State) :
    (pwrEvent outcome s).sys = s.sys ∧ (pwrEvent outcome s).power = s.power ∧ (pwrEvent outcome s).twi = s.twi ∧ (pwrEvent outcome s).ports = s.ports ∧ (pwrEvent outcome s).pool = s.pool ∧ (pwrEvent outcome s).lanes = s.lanes ∧ (pwrEvent outcome s).map = s.map ∧ (pwrEvent outcome s).dial = s.dial ∧ (pwrEvent outcome s).mon = s.mon ∧ (pwrEvent outcome s).alarms = s.alarms ∧ (pwrEvent outcome s).faults = s.faults ∧ (pwrEvent outcome s).jrx = s.jrx ∧ (pwrEvent outcome s).test = s.test ∧ (pwrEvent outcome s).pins = s.pins ∧ (pwrEvent outcome s).bulk = s.bulk ∧ (pwrEvent outcome s).free = s.free ∧ (pwrEvent outcome s).pending = s.pending := by
  simp only [pwrEvent]; (repeat' split) <;> simp

@[simp] theorem refreshPort_keeps (p : LPort) (s : State) :
    (refreshPort p s).sys = s.sys ∧ (refreshPort p s).power = s.power ∧ (refreshPort p s).mbx = s.mbx ∧ (refreshPort p s).twi = s.twi ∧ (refreshPort p s).pool = s.pool ∧ (refreshPort p s).lanes = s.lanes ∧ (refreshPort p s).map = s.map ∧ (refreshPort p s).dial = s.dial ∧ (refreshPort p s).mon = s.mon ∧ (refreshPort p s).alarms = s.alarms ∧ (refreshPort p s).faults = s.faults ∧ (refreshPort p s).jrx = s.jrx ∧ (refreshPort p s).test = s.test ∧ (refreshPort p s).pins = s.pins ∧ (refreshPort p s).bulk = s.bulk ∧ (refreshPort p s).free = s.free ∧ (refreshPort p s).pending = s.pending := by
  simp only [refreshPort]; (repeat' split) <;> simp
@[simp] theorem refresh_keeps (s : State) :
    (refresh s).sys = s.sys ∧ (refresh s).power = s.power ∧ (refresh s).mbx = s.mbx ∧ (refresh s).twi = s.twi ∧ (refresh s).pool = s.pool ∧ (refresh s).lanes = s.lanes ∧ (refresh s).map = s.map ∧ (refresh s).dial = s.dial ∧ (refresh s).mon = s.mon ∧ (refresh s).alarms = s.alarms ∧ (refresh s).faults = s.faults ∧ (refresh s).jrx = s.jrx ∧ (refresh s).test = s.test ∧ (refresh s).pins = s.pins ∧ (refresh s).bulk = s.bulk ∧ (refresh s).free = s.free ∧ (refresh s).pending = s.pending := by
  simp only [refresh]; (repeat' split) <;> simp
@[simp] theorem endMute_keeps (p : LPort) (s : State) :
    (endMute p s).sys = s.sys ∧ (endMute p s).power = s.power ∧ (endMute p s).mbx = s.mbx ∧ (endMute p s).twi = s.twi ∧ (endMute p s).pool = s.pool ∧ (endMute p s).lanes = s.lanes ∧ (endMute p s).map = s.map ∧ (endMute p s).dial = s.dial ∧ (endMute p s).mon = s.mon ∧ (endMute p s).alarms = s.alarms ∧ (endMute p s).faults = s.faults ∧ (endMute p s).jrx = s.jrx ∧ (endMute p s).test = s.test ∧ (endMute p s).pins = s.pins ∧ (endMute p s).bulk = s.bulk ∧ (endMute p s).free = s.free ∧ (endMute p s).pending = s.pending := by
  simp only [endMute]; (repeat' split) <;> simp

@[simp] theorem sendMsg_keeps (p : LPort) (type : BitVec 4) (body : List Word) (s : State) :
    (sendMsg p type body s).sys = s.sys ∧ (sendMsg p type body s).power = s.power ∧ (sendMsg p type body s).mbx = s.mbx ∧ (sendMsg p type body s).twi = s.twi ∧ (sendMsg p type body s).pool = s.pool ∧ (sendMsg p type body s).lanes = s.lanes ∧ (sendMsg p type body s).map = s.map ∧ (sendMsg p type body s).dial = s.dial ∧ (sendMsg p type body s).mon = s.mon ∧ (sendMsg p type body s).alarms = s.alarms ∧ (sendMsg p type body s).faults = s.faults ∧ (sendMsg p type body s).jrx = s.jrx ∧ (sendMsg p type body s).test = s.test ∧ (sendMsg p type body s).pins = s.pins ∧ (sendMsg p type body s).bulk = s.bulk ∧ (sendMsg p type body s).free = s.free ∧ (sendMsg p type body s).pending = s.pending := by
  simp only [sendMsg]; (repeat' split) <;> simp
@[simp] theorem propose_keeps (p : LPort) (desc : Word) (g a : BitVec 8) (kind : BitVec 2) (s : State) :
    (propose p desc g a kind s).sys = s.sys ∧ (propose p desc g a kind s).power = s.power ∧ (propose p desc g a kind s).mbx = s.mbx ∧ (propose p desc g a kind s).twi = s.twi ∧ (propose p desc g a kind s).pool = s.pool ∧ (propose p desc g a kind s).lanes = s.lanes ∧ (propose p desc g a kind s).map = s.map ∧ (propose p desc g a kind s).dial = s.dial ∧ (propose p desc g a kind s).mon = s.mon ∧ (propose p desc g a kind s).alarms = s.alarms ∧ (propose p desc g a kind s).faults = s.faults ∧ (propose p desc g a kind s).jrx = s.jrx ∧ (propose p desc g a kind s).test = s.test ∧ (propose p desc g a kind s).pins = s.pins ∧ (propose p desc g a kind s).bulk = s.bulk ∧ (propose p desc g a kind s).pending = s.pending := by
  exact ⟨rfl, rfl, rfl, rfl, rfl, rfl, rfl, rfl, rfl, rfl, rfl, rfl, rfl, rfl, rfl, rfl⟩
@[simp] theorem proposeAt_keeps (p : LPort) (n : Psfn) (desc : Word) (kind : BitVec 2) (s : State) :
    (proposeAt p n desc kind s).sys = s.sys ∧ (proposeAt p n desc kind s).power = s.power ∧ (proposeAt p n desc kind s).mbx = s.mbx ∧ (proposeAt p n desc kind s).twi = s.twi ∧ (proposeAt p n desc kind s).pool = s.pool ∧ (proposeAt p n desc kind s).lanes = s.lanes ∧ (proposeAt p n desc kind s).map = s.map ∧ (proposeAt p n desc kind s).dial = s.dial ∧ (proposeAt p n desc kind s).mon = s.mon ∧ (proposeAt p n desc kind s).alarms = s.alarms ∧ (proposeAt p n desc kind s).faults = s.faults ∧ (proposeAt p n desc kind s).jrx = s.jrx ∧ (proposeAt p n desc kind s).test = s.test ∧ (proposeAt p n desc kind s).pins = s.pins ∧ (proposeAt p n desc kind s).bulk = s.bulk ∧ (proposeAt p n desc kind s).free = s.free ∧ (proposeAt p n desc kind s).pending = s.pending := by
  simp only [proposeAt]; (repeat' split) <;> simp
@[simp] theorem repropose_keeps (p : LPort) (s : State) :
    (repropose p s).sys = s.sys ∧ (repropose p s).power = s.power ∧ (repropose p s).mbx = s.mbx ∧ (repropose p s).twi = s.twi ∧ (repropose p s).pool = s.pool ∧ (repropose p s).lanes = s.lanes ∧ (repropose p s).map = s.map ∧ (repropose p s).dial = s.dial ∧ (repropose p s).mon = s.mon ∧ (repropose p s).alarms = s.alarms ∧ (repropose p s).faults = s.faults ∧ (repropose p s).jrx = s.jrx ∧ (repropose p s).test = s.test ∧ (repropose p s).pins = s.pins ∧ (repropose p s).bulk = s.bulk ∧ (repropose p s).pending = s.pending := by
  simp only [repropose]; (repeat' split) <;> simp
@[simp] theorem sendPlan_sys (p : LPort) (t : Tune) (s : State) : (sendPlan p t s).sys = s.sys :=
  (tookFree_sys _).trans ((sendMsg_keeps _ _ _ _).1.trans (modTr_sys _ _ _))
@[simp] theorem sendPlan_power (p : LPort) (t : Tune) (s : State) : (sendPlan p t s).power = s.power :=
  (tookFree_power _).trans ((sendMsg_keeps _ _ _ _).2.1.trans (modTr_power _ _ _))
@[simp] theorem sendPlan_mbx (p : LPort) (t : Tune) (s : State) : (sendPlan p t s).mbx = s.mbx :=
  (tookFree_mbx _).trans ((sendMsg_keeps _ _ _ _).2.2.1.trans (modTr_mbx _ _ _))
@[simp] theorem sendPlan_twi (p : LPort) (t : Tune) (s : State) : (sendPlan p t s).twi = s.twi :=
  (tookFree_twi _).trans ((sendMsg_keeps _ _ _ _).2.2.2.1.trans (modTr_twi _ _ _))
@[simp] theorem sendPlan_pool (p : LPort) (t : Tune) (s : State) : (sendPlan p t s).pool = s.pool :=
  (tookFree_pool _).trans ((sendMsg_keeps _ _ _ _).2.2.2.2.1.trans (modTr_pool _ _ _))
@[simp] theorem sendPlan_lanes (p : LPort) (t : Tune) (s : State) : (sendPlan p t s).lanes = s.lanes :=
  (tookFree_lanes _).trans ((sendMsg_keeps _ _ _ _).2.2.2.2.2.1.trans (modTr_lanes _ _ _))
@[simp] theorem sendPlan_map (p : LPort) (t : Tune) (s : State) : (sendPlan p t s).map = s.map :=
  (tookFree_map _).trans ((sendMsg_keeps _ _ _ _).2.2.2.2.2.2.1.trans (modTr_map _ _ _))
@[simp] theorem sendPlan_dial (p : LPort) (t : Tune) (s : State) : (sendPlan p t s).dial = s.dial :=
  (tookFree_dial _).trans ((sendMsg_keeps _ _ _ _).2.2.2.2.2.2.2.1.trans (modTr_dial _ _ _))
@[simp] theorem sendPlan_mon (p : LPort) (t : Tune) (s : State) : (sendPlan p t s).mon = s.mon :=
  (tookFree_mon _).trans ((sendMsg_keeps _ _ _ _).2.2.2.2.2.2.2.2.1.trans (modTr_mon _ _ _))
@[simp] theorem sendPlan_alarms (p : LPort) (t : Tune) (s : State) : (sendPlan p t s).alarms = s.alarms :=
  (tookFree_alarms _).trans ((sendMsg_keeps _ _ _ _).2.2.2.2.2.2.2.2.2.1.trans (modTr_alarms _ _ _))
@[simp] theorem sendPlan_faults (p : LPort) (t : Tune) (s : State) : (sendPlan p t s).faults = s.faults :=
  (tookFree_faults _).trans ((sendMsg_keeps _ _ _ _).2.2.2.2.2.2.2.2.2.2.1.trans (modTr_faults _ _ _))
@[simp] theorem sendPlan_jrx (p : LPort) (t : Tune) (s : State) : (sendPlan p t s).jrx = s.jrx :=
  (tookFree_jrx _).trans ((sendMsg_keeps _ _ _ _).2.2.2.2.2.2.2.2.2.2.2.1.trans (modTr_jrx _ _ _))
@[simp] theorem sendPlan_test (p : LPort) (t : Tune) (s : State) : (sendPlan p t s).test = s.test :=
  (tookFree_test _).trans ((sendMsg_keeps _ _ _ _).2.2.2.2.2.2.2.2.2.2.2.2.1.trans (modTr_test _ _ _))
@[simp] theorem sendPlan_pins (p : LPort) (t : Tune) (s : State) : (sendPlan p t s).pins = s.pins :=
  (tookFree_pins _).trans ((sendMsg_keeps _ _ _ _).2.2.2.2.2.2.2.2.2.2.2.2.2.1.trans (modTr_pins _ _ _))
@[simp] theorem sendPlan_bulk (p : LPort) (t : Tune) (s : State) : (sendPlan p t s).bulk = s.bulk :=
  (tookFree_bulk _).trans ((sendMsg_keeps _ _ _ _).2.2.2.2.2.2.2.2.2.2.2.2.2.2.1.trans (modTr_bulk _ _ _))
@[simp] theorem sendPlan_pending (p : LPort) (t : Tune) (s : State) : (sendPlan p t s).pending = s.pending :=
  (tookFree_pending _).trans ((sendMsg_keeps _ _ _ _).2.2.2.2.2.2.2.2.2.2.2.2.2.2.2.2.trans (modTr_pending _ _ _))
@[simp] theorem dropEvs_keeps (f : DialEv → Bool) (s : State) :
    (dropEvs f s).sys = s.sys ∧ (dropEvs f s).power = s.power ∧ (dropEvs f s).mbx = s.mbx ∧ (dropEvs f s).twi = s.twi ∧ (dropEvs f s).ports = s.ports ∧ (dropEvs f s).pool = s.pool ∧ (dropEvs f s).lanes = s.lanes ∧ (dropEvs f s).map = s.map ∧ (dropEvs f s).mon = s.mon ∧ (dropEvs f s).alarms = s.alarms ∧ (dropEvs f s).faults = s.faults ∧ (dropEvs f s).jrx = s.jrx ∧ (dropEvs f s).test = s.test ∧ (dropEvs f s).pins = s.pins ∧ (dropEvs f s).bulk = s.bulk ∧ (dropEvs f s).free = s.free ∧ (dropEvs f s).pending = s.pending := by
  simp only [dropEvs]; (repeat' split) <;> simp
@[simp] theorem cancelSwitches_keeps (primed : Bool) (p : LPort) (s : State) :
    (cancelSwitches primed p s).sys = s.sys ∧ (cancelSwitches primed p s).power = s.power ∧ (cancelSwitches primed p s).mbx = s.mbx ∧ (cancelSwitches primed p s).twi = s.twi ∧ (cancelSwitches primed p s).pool = s.pool ∧ (cancelSwitches primed p s).lanes = s.lanes ∧ (cancelSwitches primed p s).map = s.map ∧ (cancelSwitches primed p s).mon = s.mon ∧ (cancelSwitches primed p s).alarms = s.alarms ∧ (cancelSwitches primed p s).faults = s.faults ∧ (cancelSwitches primed p s).jrx = s.jrx ∧ (cancelSwitches primed p s).test = s.test ∧ (cancelSwitches primed p s).pins = s.pins ∧ (cancelSwitches primed p s).bulk = s.bulk ∧ (cancelSwitches primed p s).free = s.free ∧ (cancelSwitches primed p s).pending = s.pending := by
  simp only [cancelSwitches]; (repeat' split) <;> simp
@[simp] theorem rateTaken_keeps (p : LPort) (k : Nat) (s : State) :
    (rateTaken p k s).sys = s.sys ∧ (rateTaken p k s).power = s.power ∧ (rateTaken p k s).mbx = s.mbx ∧ (rateTaken p k s).twi = s.twi ∧ (rateTaken p k s).pool = s.pool ∧ (rateTaken p k s).lanes = s.lanes ∧ (rateTaken p k s).map = s.map ∧ (rateTaken p k s).dial = s.dial ∧ (rateTaken p k s).mon = s.mon ∧ (rateTaken p k s).alarms = s.alarms ∧ (rateTaken p k s).faults = s.faults ∧ (rateTaken p k s).jrx = s.jrx ∧ (rateTaken p k s).test = s.test ∧ (rateTaken p k s).pins = s.pins ∧ (rateTaken p k s).bulk = s.bulk ∧ (rateTaken p k s).free = s.free ∧ (rateTaken p k s).pending = s.pending := by
  simp only [rateTaken]; (repeat' split) <;> simp
@[simp] theorem dropRates_keeps (p : LPort) (s : State) :
    (dropRates p s).sys = s.sys ∧ (dropRates p s).power = s.power ∧ (dropRates p s).mbx = s.mbx ∧ (dropRates p s).twi = s.twi ∧ (dropRates p s).pool = s.pool ∧ (dropRates p s).lanes = s.lanes ∧ (dropRates p s).map = s.map ∧ (dropRates p s).mon = s.mon ∧ (dropRates p s).alarms = s.alarms ∧ (dropRates p s).faults = s.faults ∧ (dropRates p s).jrx = s.jrx ∧ (dropRates p s).test = s.test ∧ (dropRates p s).pins = s.pins ∧ (dropRates p s).bulk = s.bulk ∧ (dropRates p s).free = s.free ∧ (dropRates p s).pending = s.pending := by
  simp only [dropRates]; (repeat' split) <;> simp
@[simp] theorem cancelTrain_keeps (p : LPort) (s : State) :
    (cancelTrain p s).sys = s.sys ∧ (cancelTrain p s).power = s.power ∧ (cancelTrain p s).mbx = s.mbx ∧ (cancelTrain p s).twi = s.twi ∧ (cancelTrain p s).pool = s.pool ∧ (cancelTrain p s).lanes = s.lanes ∧ (cancelTrain p s).map = s.map ∧ (cancelTrain p s).mon = s.mon ∧ (cancelTrain p s).alarms = s.alarms ∧ (cancelTrain p s).faults = s.faults ∧ (cancelTrain p s).jrx = s.jrx ∧ (cancelTrain p s).test = s.test ∧ (cancelTrain p s).pins = s.pins ∧ (cancelTrain p s).bulk = s.bulk ∧ (cancelTrain p s).free = s.free ∧ (cancelTrain p s).pending = s.pending := by
  simp only [cancelTrain]; (repeat' split) <;> simp
@[simp] theorem dropPlan_keeps (p : LPort) (tx : Bool) (s : State) :
    (dropPlan p tx s).sys = s.sys ∧ (dropPlan p tx s).power = s.power ∧ (dropPlan p tx s).mbx = s.mbx ∧ (dropPlan p tx s).twi = s.twi ∧ (dropPlan p tx s).ports = s.ports ∧ (dropPlan p tx s).pool = s.pool ∧ (dropPlan p tx s).lanes = s.lanes ∧ (dropPlan p tx s).map = s.map ∧ (dropPlan p tx s).mon = s.mon ∧ (dropPlan p tx s).alarms = s.alarms ∧ (dropPlan p tx s).faults = s.faults ∧ (dropPlan p tx s).jrx = s.jrx ∧ (dropPlan p tx s).test = s.test ∧ (dropPlan p tx s).pins = s.pins ∧ (dropPlan p tx s).bulk = s.bulk ∧ (dropPlan p tx s).free = s.free ∧ (dropPlan p tx s).pending = s.pending := by
  simp only [dropPlan]; (repeat' split) <;> simp
@[simp] theorem dropRxPlan_keeps (p : LPort) (s : State) :
    (dropRxPlan p s).sys = s.sys ∧ (dropRxPlan p s).power = s.power ∧ (dropRxPlan p s).mbx = s.mbx ∧ (dropRxPlan p s).twi = s.twi ∧ (dropRxPlan p s).pool = s.pool ∧ (dropRxPlan p s).lanes = s.lanes ∧ (dropRxPlan p s).map = s.map ∧ (dropRxPlan p s).mon = s.mon ∧ (dropRxPlan p s).alarms = s.alarms ∧ (dropRxPlan p s).faults = s.faults ∧ (dropRxPlan p s).jrx = s.jrx ∧ (dropRxPlan p s).test = s.test ∧ (dropRxPlan p s).pins = s.pins ∧ (dropRxPlan p s).bulk = s.bulk ∧ (dropRxPlan p s).free = s.free ∧ (dropRxPlan p s).pending = s.pending := by
  simp only [dropRxPlan]; (repeat' split) <;> simp
@[simp] theorem countAbort_keeps (p : LPort) (s : State) :
    (countAbort p s).sys = s.sys ∧ (countAbort p s).power = s.power ∧ (countAbort p s).mbx = s.mbx ∧ (countAbort p s).twi = s.twi ∧ (countAbort p s).pool = s.pool ∧ (countAbort p s).lanes = s.lanes ∧ (countAbort p s).map = s.map ∧ (countAbort p s).dial = s.dial ∧ (countAbort p s).mon = s.mon ∧ (countAbort p s).alarms = s.alarms ∧ (countAbort p s).faults = s.faults ∧ (countAbort p s).jrx = s.jrx ∧ (countAbort p s).test = s.test ∧ (countAbort p s).pins = s.pins ∧ (countAbort p s).bulk = s.bulk ∧ (countAbort p s).free = s.free ∧ (countAbort p s).pending = s.pending := by
  simp only [countAbort]; (repeat' split) <;> simp
@[simp] theorem switchAborted_keeps (k : DialKind) (s : State) :
    (switchAborted k s).sys = s.sys ∧ (switchAborted k s).power = s.power ∧ (switchAborted k s).mbx = s.mbx ∧ (switchAborted k s).twi = s.twi ∧ (switchAborted k s).pool = s.pool ∧ (switchAborted k s).lanes = s.lanes ∧ (switchAborted k s).map = s.map ∧ (switchAborted k s).mon = s.mon ∧ (switchAborted k s).alarms = s.alarms ∧ (switchAborted k s).faults = s.faults ∧ (switchAborted k s).jrx = s.jrx ∧ (switchAborted k s).test = s.test ∧ (switchAborted k s).pins = s.pins ∧ (switchAborted k s).bulk = s.bulk ∧ (switchAborted k s).pending = s.pending := by
  simp only [switchAborted]; (repeat' split) <;> simp

@[simp] theorem enterEvent_keeps (e : DialEv) (s : State) :
    (enterEvent e s).sys = s.sys ∧ (enterEvent e s).power = s.power ∧ (enterEvent e s).mbx = s.mbx ∧ (enterEvent e s).twi = s.twi ∧ (enterEvent e s).ports = s.ports ∧ (enterEvent e s).pool = s.pool ∧ (enterEvent e s).lanes = s.lanes ∧ (enterEvent e s).map = s.map ∧ (enterEvent e s).mon = s.mon ∧ (enterEvent e s).alarms = s.alarms ∧ (enterEvent e s).faults = s.faults ∧ (enterEvent e s).jrx = s.jrx ∧ (enterEvent e s).test = s.test ∧ (enterEvent e s).pins = s.pins ∧ (enterEvent e s).bulk = s.bulk ∧ (enterEvent e s).pending = s.pending := by
  simp only [enterEvent]; (repeat' split) <;> simp
@[simp] theorem loseEvs_keeps (pick : DialEv → Bool) (r : RefCode) (s : State) :
    (loseEvs pick r s).sys = s.sys ∧ (loseEvs pick r s).power = s.power ∧ (loseEvs pick r s).mbx = s.mbx ∧ (loseEvs pick r s).twi = s.twi ∧ (loseEvs pick r s).ports = s.ports ∧ (loseEvs pick r s).pool = s.pool ∧ (loseEvs pick r s).lanes = s.lanes ∧ (loseEvs pick r s).map = s.map ∧ (loseEvs pick r s).mon = s.mon ∧ (loseEvs pick r s).alarms = s.alarms ∧ (loseEvs pick r s).faults = s.faults ∧ (loseEvs pick r s).jrx = s.jrx ∧ (loseEvs pick r s).test = s.test ∧ (loseEvs pick r s).pins = s.pins ∧ (loseEvs pick r s).bulk = s.bulk ∧ (loseEvs pick r s).free = s.free ∧ (loseEvs pick r s).pending = s.pending := by
  simp only [loseEvs]; (repeat' split) <;> simp
@[simp] theorem refLost_keeps (r : RefCode) (s : State) :
    (refLost r s).sys = s.sys ∧ (refLost r s).power = s.power ∧ (refLost r s).mbx = s.mbx ∧ (refLost r s).twi = s.twi ∧ (refLost r s).ports = s.ports ∧ (refLost r s).pool = s.pool ∧ (refLost r s).lanes = s.lanes ∧ (refLost r s).map = s.map ∧ (refLost r s).mon = s.mon ∧ (refLost r s).alarms = s.alarms ∧ (refLost r s).faults = s.faults ∧ (refLost r s).jrx = s.jrx ∧ (refLost r s).test = s.test ∧ (refLost r s).pins = s.pins ∧ (refLost r s).bulk = s.bulk ∧ (refLost r s).free = s.free ∧ (refLost r s).pending = s.pending := by
  simp only [refLost]; (repeat' split) <;> simp
@[simp] theorem unhold_keeps (r : RefCode) (s : State) :
    (unhold r s).sys = s.sys ∧ (unhold r s).power = s.power ∧ (unhold r s).mbx = s.mbx ∧ (unhold r s).twi = s.twi ∧ (unhold r s).ports = s.ports ∧ (unhold r s).pool = s.pool ∧ (unhold r s).lanes = s.lanes ∧ (unhold r s).map = s.map ∧ (unhold r s).mon = s.mon ∧ (unhold r s).alarms = s.alarms ∧ (unhold r s).faults = s.faults ∧ (unhold r s).jrx = s.jrx ∧ (unhold r s).test = s.test ∧ (unhold r s).pins = s.pins ∧ (unhold r s).bulk = s.bulk ∧ (unhold r s).free = s.free ∧ (unhold r s).pending = s.pending := by
  simp only [unhold]; (repeat' split) <;> simp
@[simp] theorem jumpAbort_keeps (reason : Nat) (e : DialEv) (s : State) :
    (jumpAbort reason e s).power = s.power ∧ (jumpAbort reason e s).twi = s.twi ∧ (jumpAbort reason e s).pool = s.pool ∧ (jumpAbort reason e s).lanes = s.lanes ∧ (jumpAbort reason e s).map = s.map ∧ (jumpAbort reason e s).mon = s.mon ∧ (jumpAbort reason e s).alarms = s.alarms ∧ (jumpAbort reason e s).faults = s.faults ∧ (jumpAbort reason e s).test = s.test ∧ (jumpAbort reason e s).pins = s.pins ∧ (jumpAbort reason e s).bulk = s.bulk ∧ (jumpAbort reason e s).pending = s.pending := by
  simp only [jumpAbort]; (repeat' split) <;> simp
@[simp] theorem refJump_keeps (r : RefCode) (new old : Psfn) (restart : Bool) (s : State) :
    (refJump r new old restart s).power = s.power ∧ (refJump r new old restart s).twi = s.twi ∧ (refJump r new old restart s).pool = s.pool ∧ (refJump r new old restart s).lanes = s.lanes ∧ (refJump r new old restart s).map = s.map ∧ (refJump r new old restart s).mon = s.mon ∧ (refJump r new old restart s).alarms = s.alarms ∧ (refJump r new old restart s).faults = s.faults ∧ (refJump r new old restart s).test = s.test ∧ (refJump r new old restart s).pins = s.pins ∧ (refJump r new old restart s).bulk = s.bulk ∧ (refJump r new old restart s).pending = s.pending := by
  simp only [refJump]; (repeat' split) <;> simp
@[simp] theorem keepOffset_keeps (r : RefCode) (s : State) :
    (keepOffset r s).sys = s.sys ∧ (keepOffset r s).power = s.power ∧ (keepOffset r s).mbx = s.mbx ∧ (keepOffset r s).twi = s.twi ∧ (keepOffset r s).ports = s.ports ∧ (keepOffset r s).pool = s.pool ∧ (keepOffset r s).lanes = s.lanes ∧ (keepOffset r s).map = s.map ∧ (keepOffset r s).mon = s.mon ∧ (keepOffset r s).alarms = s.alarms ∧ (keepOffset r s).faults = s.faults ∧ (keepOffset r s).jrx = s.jrx ∧ (keepOffset r s).test = s.test ∧ (keepOffset r s).pins = s.pins ∧ (keepOffset r s).bulk = s.bulk ∧ (keepOffset r s).free = s.free ∧ (keepOffset r s).pending = s.pending := by
  simp only [keepOffset]; (repeat' split) <;> simp

@[simp] theorem nlcEvalPort_keeps (p : LPort) (s : State) :
    (nlcEvalPort p s).sys = s.sys ∧ (nlcEvalPort p s).power = s.power ∧ (nlcEvalPort p s).twi = s.twi ∧ (nlcEvalPort p s).ports = s.ports ∧ (nlcEvalPort p s).lanes = s.lanes ∧ (nlcEvalPort p s).map = s.map ∧ (nlcEvalPort p s).dial = s.dial ∧ (nlcEvalPort p s).mon = s.mon ∧ (nlcEvalPort p s).faults = s.faults ∧ (nlcEvalPort p s).test = s.test ∧ (nlcEvalPort p s).pins = s.pins ∧ (nlcEvalPort p s).bulk = s.bulk ∧ (nlcEvalPort p s).free = s.free ∧ (nlcEvalPort p s).pending = s.pending := by
  simp only [nlcEvalPort]; (repeat' split) <;> simp
@[simp] theorem nlcEval_keeps (s : State) :
    (nlcEval s).sys = s.sys ∧ (nlcEval s).power = s.power ∧ (nlcEval s).twi = s.twi ∧ (nlcEval s).ports = s.ports ∧ (nlcEval s).lanes = s.lanes ∧ (nlcEval s).map = s.map ∧ (nlcEval s).dial = s.dial ∧ (nlcEval s).mon = s.mon ∧ (nlcEval s).faults = s.faults ∧ (nlcEval s).test = s.test ∧ (nlcEval s).pins = s.pins ∧ (nlcEval s).bulk = s.bulk ∧ (nlcEval s).free = s.free ∧ (nlcEval s).pending = s.pending := by
  simp only [nlcEval]; (repeat' split) <;> simp
@[simp] theorem txDown_keeps (p : LPort) (s : State) :
    (txDown p s).sys = s.sys ∧ (txDown p s).power = s.power ∧ (txDown p s).mbx = s.mbx ∧ (txDown p s).twi = s.twi ∧ (txDown p s).pool = s.pool ∧ (txDown p s).lanes = s.lanes ∧ (txDown p s).map = s.map ∧ (txDown p s).dial = s.dial ∧ (txDown p s).mon = s.mon ∧ (txDown p s).alarms = s.alarms ∧ (txDown p s).faults = s.faults ∧ (txDown p s).jrx = s.jrx ∧ (txDown p s).test = s.test ∧ (txDown p s).pins = s.pins ∧ (txDown p s).bulk = s.bulk ∧ (txDown p s).free = s.free ∧ (txDown p s).pending = s.pending := by
  simp only [txDown]; (repeat' split) <;> simp

@[simp] theorem modClients_keeps (t : Client → Bool) (f : Client → Client) (s : State) :
    (modClients t f s).sys = s.sys ∧ (modClients t f s).power = s.power ∧ (modClients t f s).mbx = s.mbx ∧ (modClients t f s).twi = s.twi ∧ (modClients t f s).ports = s.ports ∧ (modClients t f s).pool = s.pool ∧ (modClients t f s).lanes = s.lanes ∧ (modClients t f s).dial = s.dial ∧ (modClients t f s).mon = s.mon ∧ (modClients t f s).alarms = s.alarms ∧ (modClients t f s).faults = s.faults ∧ (modClients t f s).jrx = s.jrx ∧ (modClients t f s).test = s.test ∧ (modClients t f s).pins = s.pins ∧ (modClients t f s).bulk = s.bulk ∧ (modClients t f s).free = s.free ∧ (modClients t f s).pending = s.pending := by
  simp only [modClients]; (repeat' split) <;> simp
@[simp] theorem setRxFail_keeps (first : HLane) (on : Bool) (s : State) :
    (setRxFail first on s).sys = s.sys ∧ (setRxFail first on s).power = s.power ∧ (setRxFail first on s).twi = s.twi ∧ (setRxFail first on s).ports = s.ports ∧ (setRxFail first on s).lanes = s.lanes ∧ (setRxFail first on s).dial = s.dial ∧ (setRxFail first on s).mon = s.mon ∧ (setRxFail first on s).faults = s.faults ∧ (setRxFail first on s).test = s.test ∧ (setRxFail first on s).pins = s.pins ∧ (setRxFail first on s).bulk = s.bulk ∧ (setRxFail first on s).free = s.free ∧ (setRxFail first on s).pending = s.pending := by
  simp only [setRxFail]; (repeat' split) <;> simp
@[simp] theorem failClients_keeps (p : LPort) (s : State) :
    (failClients p s).sys = s.sys ∧ (failClients p s).power = s.power ∧ (failClients p s).twi = s.twi ∧ (failClients p s).ports = s.ports ∧ (failClients p s).lanes = s.lanes ∧ (failClients p s).dial = s.dial ∧ (failClients p s).mon = s.mon ∧ (failClients p s).faults = s.faults ∧ (failClients p s).test = s.test ∧ (failClients p s).pins = s.pins ∧ (failClients p s).bulk = s.bulk ∧ (failClients p s).free = s.free ∧ (failClients p s).pending = s.pending := by
  simp only [failClients]; (repeat' split) <;> simp
@[simp] theorem poolEnter_keeps (p : LPort) (s : State) :
    (poolEnter p s).sys = s.sys ∧ (poolEnter p s).power = s.power ∧ (poolEnter p s).mbx = s.mbx ∧ (poolEnter p s).twi = s.twi ∧ (poolEnter p s).ports = s.ports ∧ (poolEnter p s).lanes = s.lanes ∧ (poolEnter p s).map = s.map ∧ (poolEnter p s).dial = s.dial ∧ (poolEnter p s).mon = s.mon ∧ (poolEnter p s).alarms = s.alarms ∧ (poolEnter p s).faults = s.faults ∧ (poolEnter p s).jrx = s.jrx ∧ (poolEnter p s).test = s.test ∧ (poolEnter p s).pins = s.pins ∧ (poolEnter p s).bulk = s.bulk ∧ (poolEnter p s).free = s.free ∧ (poolEnter p s).pending = s.pending := by
  simp only [poolEnter]; (repeat' split) <;> simp
@[simp] theorem withdraw_keeps (out : Job → Bool) (s : State) :
    (withdraw out s).sys = s.sys ∧ (withdraw out s).power = s.power ∧ (withdraw out s).mbx = s.mbx ∧ (withdraw out s).twi = s.twi ∧ (withdraw out s).ports = s.ports ∧ (withdraw out s).lanes = s.lanes ∧ (withdraw out s).map = s.map ∧ (withdraw out s).dial = s.dial ∧ (withdraw out s).mon = s.mon ∧ (withdraw out s).alarms = s.alarms ∧ (withdraw out s).faults = s.faults ∧ (withdraw out s).jrx = s.jrx ∧ (withdraw out s).test = s.test ∧ (withdraw out s).pins = s.pins ∧ (withdraw out s).bulk = s.bulk ∧ (withdraw out s).free = s.free ∧ (withdraw out s).pending = s.pending := by
  simp only [withdraw]; (repeat' split) <;> simp
@[simp] theorem discardOpen_keeps (p : LPort) (s : State) :
    (discardOpen p s).sys = s.sys ∧ (discardOpen p s).power = s.power ∧ (discardOpen p s).mbx = s.mbx ∧ (discardOpen p s).twi = s.twi ∧ (discardOpen p s).ports = s.ports ∧ (discardOpen p s).lanes = s.lanes ∧ (discardOpen p s).map = s.map ∧ (discardOpen p s).dial = s.dial ∧ (discardOpen p s).mon = s.mon ∧ (discardOpen p s).alarms = s.alarms ∧ (discardOpen p s).faults = s.faults ∧ (discardOpen p s).jrx = s.jrx ∧ (discardOpen p s).test = s.test ∧ (discardOpen p s).pins = s.pins ∧ (discardOpen p s).bulk = s.bulk ∧ (discardOpen p s).free = s.free ∧ (discardOpen p s).pending = s.pending := by
  simp only [discardOpen]; (repeat' split) <;> simp
@[simp] theorem beCautious_keeps (p : LPort) (s : State) :
    (beCautious p s).sys = s.sys ∧ (beCautious p s).power = s.power ∧ (beCautious p s).mbx = s.mbx ∧ (beCautious p s).twi = s.twi ∧ (beCautious p s).ports = s.ports ∧ (beCautious p s).lanes = s.lanes ∧ (beCautious p s).map = s.map ∧ (beCautious p s).dial = s.dial ∧ (beCautious p s).mon = s.mon ∧ (beCautious p s).alarms = s.alarms ∧ (beCautious p s).faults = s.faults ∧ (beCautious p s).jrx = s.jrx ∧ (beCautious p s).test = s.test ∧ (beCautious p s).pins = s.pins ∧ (beCautious p s).bulk = s.bulk ∧ (beCautious p s).free = s.free ∧ (beCautious p s).pending = s.pending := by
  simp only [beCautious]; (repeat' split) <;> simp
@[simp] theorem poolLeave_keeps (p : LPort) (s : State) :
    (poolLeave p s).sys = s.sys ∧ (poolLeave p s).power = s.power ∧ (poolLeave p s).twi = s.twi ∧ (poolLeave p s).ports = s.ports ∧ (poolLeave p s).lanes = s.lanes ∧ (poolLeave p s).map = s.map ∧ (poolLeave p s).dial = s.dial ∧ (poolLeave p s).mon = s.mon ∧ (poolLeave p s).faults = s.faults ∧ (poolLeave p s).test = s.test ∧ (poolLeave p s).pins = s.pins ∧ (poolLeave p s).bulk = s.bulk ∧ (poolLeave p s).free = s.free ∧ (poolLeave p s).pending = s.pending := by
  simp only [poolLeave]; (repeat' split) <;> simp
@[simp] theorem setPort_keeps (p : LPort) (st : PortState) (s : State) :
    (setPort p st s).sys = s.sys ∧ (setPort p st s).power = s.power ∧ (setPort p st s).twi = s.twi ∧ (setPort p st s).lanes = s.lanes ∧ (setPort p st s).dial = s.dial ∧ (setPort p st s).mon = s.mon ∧ (setPort p st s).faults = s.faults ∧ (setPort p st s).test = s.test ∧ (setPort p st s).pins = s.pins ∧ (setPort p st s).bulk = s.bulk ∧ (setPort p st s).free = s.free ∧ (setPort p st s).pending = s.pending := by
  simp only [setPort]; (repeat' split) <;> simp
@[simp] theorem unalign_keeps (p : LPort) (s : State) :
    (unalign p s).sys = s.sys ∧ (unalign p s).power = s.power ∧ (unalign p s).mbx = s.mbx ∧ (unalign p s).twi = s.twi ∧ (unalign p s).pool = s.pool ∧ (unalign p s).lanes = s.lanes ∧ (unalign p s).map = s.map ∧ (unalign p s).dial = s.dial ∧ (unalign p s).mon = s.mon ∧ (unalign p s).alarms = s.alarms ∧ (unalign p s).faults = s.faults ∧ (unalign p s).jrx = s.jrx ∧ (unalign p s).test = s.test ∧ (unalign p s).pins = s.pins ∧ (unalign p s).bulk = s.bulk ∧ (unalign p s).free = s.free ∧ (unalign p s).pending = s.pending := by
  simp only [unalign]; (repeat' split) <;> simp
@[simp] theorem dropLock_keeps (p : LPort) (s : State) :
    (dropLock p s).sys = s.sys ∧ (dropLock p s).power = s.power ∧ (dropLock p s).mbx = s.mbx ∧ (dropLock p s).twi = s.twi ∧ (dropLock p s).pool = s.pool ∧ (dropLock p s).lanes = s.lanes ∧ (dropLock p s).map = s.map ∧ (dropLock p s).mon = s.mon ∧ (dropLock p s).alarms = s.alarms ∧ (dropLock p s).faults = s.faults ∧ (dropLock p s).jrx = s.jrx ∧ (dropLock p s).test = s.test ∧ (dropLock p s).pins = s.pins ∧ (dropLock p s).bulk = s.bulk ∧ (dropLock p s).free = s.free ∧ (dropLock p s).pending = s.pending := by
  simp only [dropLock]; (repeat' split) <;> simp
@[simp] theorem startAttempt_keeps (p : LPort) (s : State) :
    (startAttempt p s).sys = s.sys ∧ (startAttempt p s).power = s.power ∧ (startAttempt p s).twi = s.twi ∧ (startAttempt p s).lanes = s.lanes ∧ (startAttempt p s).map = s.map ∧ (startAttempt p s).dial = s.dial ∧ (startAttempt p s).mon = s.mon ∧ (startAttempt p s).faults = s.faults ∧ (startAttempt p s).test = s.test ∧ (startAttempt p s).pins = s.pins ∧ (startAttempt p s).bulk = s.bulk ∧ (startAttempt p s).free = s.free ∧ (startAttempt p s).pending = s.pending := by
  simp only [startAttempt]; (repeat' split) <;> simp
@[simp] theorem maybeAcquire_keeps (p : LPort) (s : State) :
    (maybeAcquire p s).sys = s.sys ∧ (maybeAcquire p s).power = s.power ∧ (maybeAcquire p s).twi = s.twi ∧ (maybeAcquire p s).lanes = s.lanes ∧ (maybeAcquire p s).map = s.map ∧ (maybeAcquire p s).dial = s.dial ∧ (maybeAcquire p s).mon = s.mon ∧ (maybeAcquire p s).faults = s.faults ∧ (maybeAcquire p s).test = s.test ∧ (maybeAcquire p s).pins = s.pins ∧ (maybeAcquire p s).bulk = s.bulk ∧ (maybeAcquire p s).free = s.free ∧ (maybeAcquire p s).pending = s.pending := by
  simp only [maybeAcquire]; (repeat' split) <;> simp
@[simp] theorem rxIdle_keeps (p : LPort) (s : State) :
    (rxIdle p s).sys = s.sys ∧ (rxIdle p s).power = s.power ∧ (rxIdle p s).mbx = s.mbx ∧ (rxIdle p s).twi = s.twi ∧ (rxIdle p s).pool = s.pool ∧ (rxIdle p s).lanes = s.lanes ∧ (rxIdle p s).map = s.map ∧ (rxIdle p s).mon = s.mon ∧ (rxIdle p s).alarms = s.alarms ∧ (rxIdle p s).faults = s.faults ∧ (rxIdle p s).jrx = s.jrx ∧ (rxIdle p s).test = s.test ∧ (rxIdle p s).pins = s.pins ∧ (rxIdle p s).bulk = s.bulk ∧ (rxIdle p s).free = s.free ∧ (rxIdle p s).pending = s.pending := by
  simp only [rxIdle]; (repeat' split) <;> simp
@[simp] theorem acqDescs_keeps (p : LPort) (s : State) :
    (acqDescs p s).sys = s.sys ∧ (acqDescs p s).power = s.power ∧ (acqDescs p s).mbx = s.mbx ∧ (acqDescs p s).twi = s.twi ∧ (acqDescs p s).pool = s.pool ∧ (acqDescs p s).lanes = s.lanes ∧ (acqDescs p s).map = s.map ∧ (acqDescs p s).dial = s.dial ∧ (acqDescs p s).mon = s.mon ∧ (acqDescs p s).alarms = s.alarms ∧ (acqDescs p s).faults = s.faults ∧ (acqDescs p s).jrx = s.jrx ∧ (acqDescs p s).test = s.test ∧ (acqDescs p s).pins = s.pins ∧ (acqDescs p s).bulk = s.bulk ∧ (acqDescs p s).free = s.free ∧ (acqDescs p s).pending = s.pending := by
  simp only [acqDescs]; (repeat' split) <;> simp
@[simp] theorem acqFormats_keeps (p : LPort) (s : State) :
    (acqFormats p s).sys = s.sys ∧ (acqFormats p s).power = s.power ∧ (acqFormats p s).mbx = s.mbx ∧ (acqFormats p s).twi = s.twi ∧ (acqFormats p s).pool = s.pool ∧ (acqFormats p s).lanes = s.lanes ∧ (acqFormats p s).map = s.map ∧ (acqFormats p s).dial = s.dial ∧ (acqFormats p s).mon = s.mon ∧ (acqFormats p s).alarms = s.alarms ∧ (acqFormats p s).faults = s.faults ∧ (acqFormats p s).jrx = s.jrx ∧ (acqFormats p s).test = s.test ∧ (acqFormats p s).pins = s.pins ∧ (acqFormats p s).bulk = s.bulk ∧ (acqFormats p s).free = s.free ∧ (acqFormats p s).pending = s.pending := by
  simp only [acqFormats]; (repeat' split) <;> simp
@[simp] theorem enterDown_keeps (p : LPort) (s : State) :
    (enterDown p s).sys = s.sys ∧ (enterDown p s).power = s.power ∧ (enterDown p s).twi = s.twi ∧ (enterDown p s).lanes = s.lanes ∧ (enterDown p s).mon = s.mon ∧ (enterDown p s).faults = s.faults ∧ (enterDown p s).test = s.test ∧ (enterDown p s).pins = s.pins ∧ (enterDown p s).bulk = s.bulk ∧ (enterDown p s).free = s.free ∧ (enterDown p s).pending = s.pending := by
  simp only [enterDown]; (repeat' split) <;> simp
@[simp] theorem enterMuted_keeps (p : LPort) (s : State) :
    (enterMuted p s).sys = s.sys ∧ (enterMuted p s).power = s.power ∧ (enterMuted p s).twi = s.twi ∧ (enterMuted p s).lanes = s.lanes ∧ (enterMuted p s).mon = s.mon ∧ (enterMuted p s).faults = s.faults ∧ (enterMuted p s).test = s.test ∧ (enterMuted p s).pins = s.pins ∧ (enterMuted p s).bulk = s.bulk ∧ (enterMuted p s).free = s.free ∧ (enterMuted p s).pending = s.pending := by
  simp only [enterMuted]; (repeat' split) <;> simp
@[simp] theorem enterAcquire_keeps (p : LPort) (s : State) :
    (enterAcquire p s).sys = s.sys ∧ (enterAcquire p s).power = s.power ∧ (enterAcquire p s).twi = s.twi ∧ (enterAcquire p s).lanes = s.lanes ∧ (enterAcquire p s).mon = s.mon ∧ (enterAcquire p s).faults = s.faults ∧ (enterAcquire p s).test = s.test ∧ (enterAcquire p s).pins = s.pins ∧ (enterAcquire p s).bulk = s.bulk ∧ (enterAcquire p s).free = s.free ∧ (enterAcquire p s).pending = s.pending := by
  simp only [enterAcquire]; (repeat' split) <;> simp
@[simp] theorem startAcquire_keeps (p : LPort) (s : State) :
    (startAcquire p s).sys = s.sys ∧ (startAcquire p s).power = s.power ∧ (startAcquire p s).twi = s.twi ∧ (startAcquire p s).lanes = s.lanes ∧ (startAcquire p s).mon = s.mon ∧ (startAcquire p s).faults = s.faults ∧ (startAcquire p s).test = s.test ∧ (startAcquire p s).pins = s.pins ∧ (startAcquire p s).bulk = s.bulk ∧ (startAcquire p s).free = s.free ∧ (startAcquire p s).pending = s.pending := by
  simp only [startAcquire]; (repeat' split) <;> simp
@[simp] theorem enterHoldover_keeps (primed : Bool) (p : LPort) (s : State) :
    (enterHoldover primed p s).sys = s.sys ∧ (enterHoldover primed p s).power = s.power ∧ (enterHoldover primed p s).twi = s.twi ∧ (enterHoldover primed p s).lanes = s.lanes ∧ (enterHoldover primed p s).mon = s.mon ∧ (enterHoldover primed p s).faults = s.faults ∧ (enterHoldover primed p s).test = s.test ∧ (enterHoldover primed p s).pins = s.pins ∧ (enterHoldover primed p s).bulk = s.bulk ∧ (enterHoldover primed p s).free = s.free ∧ (enterHoldover primed p s).pending = s.pending := by
  simp only [enterHoldover]; (repeat' split) <;> simp
@[simp] theorem enterTraffic_keeps (p : LPort) (s : State) :
    (enterTraffic p s).sys = s.sys ∧ (enterTraffic p s).power = s.power ∧ (enterTraffic p s).twi = s.twi ∧ (enterTraffic p s).lanes = s.lanes ∧ (enterTraffic p s).dial = s.dial ∧ (enterTraffic p s).mon = s.mon ∧ (enterTraffic p s).faults = s.faults ∧ (enterTraffic p s).test = s.test ∧ (enterTraffic p s).pins = s.pins ∧ (enterTraffic p s).bulk = s.bulk ∧ (enterTraffic p s).free = s.free ∧ (enterTraffic p s).pending = s.pending := by
  simp only [enterTraffic]; (repeat' split) <;> simp
@[simp] theorem trainFail_keeps (p : LPort) (reason : Nat) (sendAbort counts : Bool) (s : State) :
    (trainFail p reason sendAbort counts s).sys = s.sys ∧ (trainFail p reason sendAbort counts s).power = s.power ∧ (trainFail p reason sendAbort counts s).twi = s.twi ∧ (trainFail p reason sendAbort counts s).lanes = s.lanes ∧ (trainFail p reason sendAbort counts s).mon = s.mon ∧ (trainFail p reason sendAbort counts s).faults = s.faults ∧ (trainFail p reason sendAbort counts s).test = s.test ∧ (trainFail p reason sendAbort counts s).pins = s.pins ∧ (trainFail p reason sendAbort counts s).bulk = s.bulk ∧ (trainFail p reason sendAbort counts s).free = s.free ∧ (trainFail p reason sendAbort counts s).pending = s.pending := by
  simp only [trainFail]; (repeat' split) <;> simp
@[simp] theorem failIfTraining_keeps (p : LPort) (reason : Nat) (sendAbort : Bool) (s : State) :
    (failIfTraining p reason sendAbort s).sys = s.sys ∧ (failIfTraining p reason sendAbort s).power = s.power ∧ (failIfTraining p reason sendAbort s).twi = s.twi ∧ (failIfTraining p reason sendAbort s).lanes = s.lanes ∧ (failIfTraining p reason sendAbort s).mon = s.mon ∧ (failIfTraining p reason sendAbort s).faults = s.faults ∧ (failIfTraining p reason sendAbort s).test = s.test ∧ (failIfTraining p reason sendAbort s).pins = s.pins ∧ (failIfTraining p reason sendAbort s).bulk = s.bulk ∧ (failIfTraining p reason sendAbort s).free = s.free ∧ (failIfTraining p reason sendAbort s).pending = s.pending := by
  simp only [failIfTraining]; (repeat' split) <;> simp
@[simp] theorem lockLoss_keeps (p : LPort) (s : State) :
    (lockLoss p s).sys = s.sys ∧ (lockLoss p s).power = s.power ∧ (lockLoss p s).twi = s.twi ∧ (lockLoss p s).lanes = s.lanes ∧ (lockLoss p s).mon = s.mon ∧ (lockLoss p s).faults = s.faults ∧ (lockLoss p s).test = s.test ∧ (lockLoss p s).pins = s.pins ∧ (lockLoss p s).bulk = s.bulk ∧ (lockLoss p s).free = s.free ∧ (lockLoss p s).pending = s.pending := by
  simp only [lockLoss]; (repeat' split) <;> simp
@[simp] theorem lossOfSignal_keeps (p : LPort) (s : State) :
    (lossOfSignal p s).sys = s.sys ∧ (lossOfSignal p s).power = s.power ∧ (lossOfSignal p s).twi = s.twi ∧ (lossOfSignal p s).lanes = s.lanes ∧ (lossOfSignal p s).mon = s.mon ∧ (lossOfSignal p s).faults = s.faults ∧ (lossOfSignal p s).test = s.test ∧ (lossOfSignal p s).pins = s.pins ∧ (lossOfSignal p s).bulk = s.bulk ∧ (lossOfSignal p s).free = s.free ∧ (lossOfSignal p s).pending = s.pending := by
  simp only [lossOfSignal]; (repeat' split) <;> simp

@[simp] theorem calRetarget_keeps (p : LPort) (s : State) :
    (calRetarget p s).sys = s.sys ∧ (calRetarget p s).power = s.power ∧ (calRetarget p s).mbx = s.mbx ∧ (calRetarget p s).twi = s.twi ∧ (calRetarget p s).pool = s.pool ∧ (calRetarget p s).lanes = s.lanes ∧ (calRetarget p s).map = s.map ∧ (calRetarget p s).dial = s.dial ∧ (calRetarget p s).mon = s.mon ∧ (calRetarget p s).alarms = s.alarms ∧ (calRetarget p s).faults = s.faults ∧ (calRetarget p s).jrx = s.jrx ∧ (calRetarget p s).test = s.test ∧ (calRetarget p s).pins = s.pins ∧ (calRetarget p s).bulk = s.bulk ∧ (calRetarget p s).free = s.free ∧ (calRetarget p s).pending = s.pending := by
  simp only [calRetarget]; (repeat' split) <;> simp
@[simp] theorem calSnap_keeps (p : LPort) (s : State) :
    (calSnap p s).sys = s.sys ∧ (calSnap p s).power = s.power ∧ (calSnap p s).mbx = s.mbx ∧ (calSnap p s).twi = s.twi ∧ (calSnap p s).pool = s.pool ∧ (calSnap p s).lanes = s.lanes ∧ (calSnap p s).map = s.map ∧ (calSnap p s).dial = s.dial ∧ (calSnap p s).mon = s.mon ∧ (calSnap p s).alarms = s.alarms ∧ (calSnap p s).faults = s.faults ∧ (calSnap p s).jrx = s.jrx ∧ (calSnap p s).test = s.test ∧ (calSnap p s).pins = s.pins ∧ (calSnap p s).bulk = s.bulk ∧ (calSnap p s).free = s.free ∧ (calSnap p s).pending = s.pending := by
  simp only [calSnap]; (repeat' split) <;> simp
@[simp] theorem calBegin_keeps (p : LPort) (kind : CalRunKind) (items : BitVec 6) (trigger : BitVec 3) (s : State) :
    (calBegin p kind items trigger s).sys = s.sys ∧ (calBegin p kind items trigger s).power = s.power ∧ (calBegin p kind items trigger s).twi = s.twi ∧ (calBegin p kind items trigger s).lanes = s.lanes ∧ (calBegin p kind items trigger s).mon = s.mon ∧ (calBegin p kind items trigger s).faults = s.faults ∧ (calBegin p kind items trigger s).test = s.test ∧ (calBegin p kind items trigger s).pins = s.pins ∧ (calBegin p kind items trigger s).bulk = s.bulk ∧ (calBegin p kind items trigger s).free = s.free ∧ (calBegin p kind items trigger s).pending = s.pending := by
  simp only [calBegin]; (repeat' split) <;> simp
@[simp] theorem calStart_keeps (p : LPort) (kind : CalRunKind) (items : BitVec 6) (trigger : BitVec 3) (s : State) :
    (calStart p kind items trigger s).sys = s.sys ∧ (calStart p kind items trigger s).power = s.power ∧ (calStart p kind items trigger s).twi = s.twi ∧ (calStart p kind items trigger s).lanes = s.lanes ∧ (calStart p kind items trigger s).mon = s.mon ∧ (calStart p kind items trigger s).faults = s.faults ∧ (calStart p kind items trigger s).test = s.test ∧ (calStart p kind items trigger s).pins = s.pins ∧ (calStart p kind items trigger s).bulk = s.bulk ∧ (calStart p kind items trigger s).free = s.free ∧ (calStart p kind items trigger s).pending = s.pending := by
  simp only [calStart]; (repeat' split) <;> simp
@[simp] theorem endChange_keeps (p : LPort) (s : State) :
    (endChange p s).sys = s.sys ∧ (endChange p s).power = s.power ∧ (endChange p s).twi = s.twi ∧ (endChange p s).lanes = s.lanes ∧ (endChange p s).map = s.map ∧ (endChange p s).dial = s.dial ∧ (endChange p s).mon = s.mon ∧ (endChange p s).faults = s.faults ∧ (endChange p s).test = s.test ∧ (endChange p s).pins = s.pins ∧ (endChange p s).bulk = s.bulk ∧ (endChange p s).free = s.free ∧ (endChange p s).pending = s.pending := by
  simp only [endChange]; (repeat' split) <;> simp
@[simp] theorem calWaited_keeps (p : LPort) (s : State) :
    (calWaited p s).sys = s.sys ∧ (calWaited p s).power = s.power ∧ (calWaited p s).twi = s.twi ∧ (calWaited p s).lanes = s.lanes ∧ (calWaited p s).mon = s.mon ∧ (calWaited p s).faults = s.faults ∧ (calWaited p s).test = s.test ∧ (calWaited p s).pins = s.pins ∧ (calWaited p s).bulk = s.bulk ∧ (calWaited p s).free = s.free ∧ (calWaited p s).pending = s.pending := by
  simp only [calWaited]; (repeat' split) <;> simp
@[simp] theorem calAbort_keeps (p : LPort) (s : State) :
    (calAbort p s).sys = s.sys ∧ (calAbort p s).power = s.power ∧ (calAbort p s).twi = s.twi ∧ (calAbort p s).lanes = s.lanes ∧ (calAbort p s).mon = s.mon ∧ (calAbort p s).faults = s.faults ∧ (calAbort p s).test = s.test ∧ (calAbort p s).pins = s.pins ∧ (calAbort p s).bulk = s.bulk ∧ (calAbort p s).free = s.free ∧ (calAbort p s).pending = s.pending := by
  simp only [calAbort]; (repeat' split) <;> simp
@[simp] theorem calClock_keeps (p : LPort) (clock : Bool) (s : State) :
    (calClock p clock s).sys = s.sys ∧ (calClock p clock s).power = s.power ∧ (calClock p clock s).twi = s.twi ∧ (calClock p clock s).lanes = s.lanes ∧ (calClock p clock s).mon = s.mon ∧ (calClock p clock s).faults = s.faults ∧ (calClock p clock s).test = s.test ∧ (calClock p clock s).pins = s.pins ∧ (calClock p clock s).bulk = s.bulk ∧ (calClock p clock s).free = s.free ∧ (calClock p clock s).pending = s.pending := by
  simp only [calClock]; (repeat' split) <;> simp
@[simp] theorem calAccepted_keeps (p : LPort) (first second : CalVals) (s : State) :
    (calAccepted p first second s).sys = s.sys ∧ (calAccepted p first second s).twi = s.twi ∧ (calAccepted p first second s).lanes = s.lanes ∧ (calAccepted p first second s).mon = s.mon ∧ (calAccepted p first second s).faults = s.faults ∧ (calAccepted p first second s).test = s.test ∧ (calAccepted p first second s).pins = s.pins ∧ (calAccepted p first second s).bulk = s.bulk ∧ (calAccepted p first second s).free = s.free ∧ (calAccepted p first second s).pending = s.pending := by
  simp only [calAccepted]; (repeat' split) <;> simp
@[simp] theorem calRejected_keeps (p : LPort) (bad : BitVec 6) (s : State) :
    (calRejected p bad s).sys = s.sys ∧ (calRejected p bad s).power = s.power ∧ (calRejected p bad s).twi = s.twi ∧ (calRejected p bad s).lanes = s.lanes ∧ (calRejected p bad s).mon = s.mon ∧ (calRejected p bad s).faults = s.faults ∧ (calRejected p bad s).test = s.test ∧ (calRejected p bad s).pins = s.pins ∧ (calRejected p bad s).bulk = s.bulk ∧ (calRejected p bad s).free = s.free ∧ (calRejected p bad s).pending = s.pending := by
  simp only [calRejected]; (repeat' split) <;> simp
@[simp] theorem calBoundary_keeps (p : LPort) (s : State) :
    (calBoundary p s).sys = s.sys ∧ (calBoundary p s).power = s.power ∧ (calBoundary p s).mbx = s.mbx ∧ (calBoundary p s).twi = s.twi ∧ (calBoundary p s).pool = s.pool ∧ (calBoundary p s).lanes = s.lanes ∧ (calBoundary p s).map = s.map ∧ (calBoundary p s).dial = s.dial ∧ (calBoundary p s).mon = s.mon ∧ (calBoundary p s).alarms = s.alarms ∧ (calBoundary p s).faults = s.faults ∧ (calBoundary p s).jrx = s.jrx ∧ (calBoundary p s).test = s.test ∧ (calBoundary p s).pins = s.pins ∧ (calBoundary p s).bulk = s.bulk ∧ (calBoundary p s).free = s.free ∧ (calBoundary p s).pending = s.pending := by
  simp only [calBoundary]; (repeat' split) <;> simp

@[simp] theorem modUnit_keeps (u : FUnit) (f : UnitSt → UnitSt) (s : State) :
    (modUnit u f s).sys = s.sys ∧ (modUnit u f s).power = s.power ∧ (modUnit u f s).mbx = s.mbx ∧ (modUnit u f s).twi = s.twi ∧ (modUnit u f s).ports = s.ports ∧ (modUnit u f s).pool = s.pool ∧ (modUnit u f s).lanes = s.lanes ∧ (modUnit u f s).map = s.map ∧ (modUnit u f s).dial = s.dial ∧ (modUnit u f s).mon = s.mon ∧ (modUnit u f s).alarms = s.alarms ∧ (modUnit u f s).jrx = s.jrx ∧ (modUnit u f s).test = s.test ∧ (modUnit u f s).pins = s.pins ∧ (modUnit u f s).bulk = s.bulk ∧ (modUnit u f s).free = s.free ∧ (modUnit u f s).pending = s.pending := by
  simp only [modUnit]; (repeat' split) <;> simp
@[simp] theorem putBack_keeps (again : Bool) (j : Option Job) (s : State) :
    (putBack again j s).sys = s.sys ∧ (putBack again j s).power = s.power ∧ (putBack again j s).mbx = s.mbx ∧ (putBack again j s).twi = s.twi ∧ (putBack again j s).ports = s.ports ∧ (putBack again j s).lanes = s.lanes ∧ (putBack again j s).map = s.map ∧ (putBack again j s).dial = s.dial ∧ (putBack again j s).mon = s.mon ∧ (putBack again j s).alarms = s.alarms ∧ (putBack again j s).faults = s.faults ∧ (putBack again j s).jrx = s.jrx ∧ (putBack again j s).test = s.test ∧ (putBack again j s).pins = s.pins ∧ (putBack again j s).bulk = s.bulk ∧ (putBack again j s).free = s.free ∧ (putBack again j s).pending = s.pending := by
  simp only [putBack]; (repeat' split) <;> simp
@[simp] theorem takeBack_keeps (e : Engine) (s : State) :
    (takeBack e s).sys = s.sys ∧ (takeBack e s).power = s.power ∧ (takeBack e s).mbx = s.mbx ∧ (takeBack e s).twi = s.twi ∧ (takeBack e s).ports = s.ports ∧ (takeBack e s).lanes = s.lanes ∧ (takeBack e s).map = s.map ∧ (takeBack e s).dial = s.dial ∧ (takeBack e s).mon = s.mon ∧ (takeBack e s).alarms = s.alarms ∧ (takeBack e s).faults = s.faults ∧ (takeBack e s).jrx = s.jrx ∧ (takeBack e s).test = s.test ∧ (takeBack e s).pins = s.pins ∧ (takeBack e s).bulk = s.bulk ∧ (takeBack e s).free = s.free ∧ (takeBack e s).pending = s.pending := by
  simp only [takeBack]; (repeat' split) <;> simp
@[simp] theorem fenceAlarms_keeps (s : State) :
    (fenceAlarms s).sys = s.sys ∧ (fenceAlarms s).power = s.power ∧ (fenceAlarms s).twi = s.twi ∧ (fenceAlarms s).ports = s.ports ∧ (fenceAlarms s).lanes = s.lanes ∧ (fenceAlarms s).map = s.map ∧ (fenceAlarms s).dial = s.dial ∧ (fenceAlarms s).mon = s.mon ∧ (fenceAlarms s).faults = s.faults ∧ (fenceAlarms s).test = s.test ∧ (fenceAlarms s).pins = s.pins ∧ (fenceAlarms s).bulk = s.bulk ∧ (fenceAlarms s).free = s.free ∧ (fenceAlarms s).pending = s.pending := by
  simp only [fenceAlarms]; (repeat' split) <;> simp
@[simp] theorem fence_keeps (e : Engine) (s : State) :
    (fence e s).sys = s.sys ∧ (fence e s).power = s.power ∧ (fence e s).twi = s.twi ∧ (fence e s).ports = s.ports ∧ (fence e s).lanes = s.lanes ∧ (fence e s).map = s.map ∧ (fence e s).dial = s.dial ∧ (fence e s).mon = s.mon ∧ (fence e s).faults = s.faults ∧ (fence e s).test = s.test ∧ (fence e s).pins = s.pins ∧ (fence e s).bulk = s.bulk ∧ (fence e s).free = s.free ∧ (fence e s).pending = s.pending := by
  simp only [fence]; (repeat' split) <;> simp
@[simp] theorem enterReset_keeps (s : State) :
    (enterReset s).free = s.free ∧ (enterReset s).pending = s.pending := by
  exact ⟨rfl, rfl⟩
@[simp] theorem enterResetKeepLog_keeps (s : State) :
    (enterResetKeepLog s).free = s.free ∧ (enterResetKeepLog s).pending = s.pending := by
  simp only [enterResetKeepLog]; (repeat' split) <;> simp
@[simp] theorem faultMutePort_keeps (p : LPort) (drv : Bool) (s : State) :
    (faultMutePort p drv s).sys = s.sys ∧ (faultMutePort p drv s).power = s.power ∧ (faultMutePort p drv s).mbx = s.mbx ∧ (faultMutePort p drv s).twi = s.twi ∧ (faultMutePort p drv s).pool = s.pool ∧ (faultMutePort p drv s).lanes = s.lanes ∧ (faultMutePort p drv s).map = s.map ∧ (faultMutePort p drv s).dial = s.dial ∧ (faultMutePort p drv s).mon = s.mon ∧ (faultMutePort p drv s).alarms = s.alarms ∧ (faultMutePort p drv s).faults = s.faults ∧ (faultMutePort p drv s).jrx = s.jrx ∧ (faultMutePort p drv s).test = s.test ∧ (faultMutePort p drv s).pins = s.pins ∧ (faultMutePort p drv s).bulk = s.bulk ∧ (faultMutePort p drv s).free = s.free ∧ (faultMutePort p drv s).pending = s.pending := by
  simp only [faultMutePort]; (repeat' split) <;> simp
@[simp] theorem safeAction_keeps (u : FUnit) (s : State) :
    (safeAction u s).sys = s.sys ∧ (safeAction u s).power = s.power ∧ (safeAction u s).twi = s.twi ∧ (safeAction u s).lanes = s.lanes ∧ (safeAction u s).dial = s.dial ∧ (safeAction u s).faults = s.faults ∧ (safeAction u s).test = s.test ∧ (safeAction u s).pins = s.pins ∧ (safeAction u s).bulk = s.bulk ∧ (safeAction u s).free = s.free ∧ (safeAction u s).pending = s.pending := by
  simp only [safeAction]; (repeat' split) <;> simp
@[simp] theorem writeEntry_keeps (r : FaultRec) (x : LogFate) (s : State) :
    (writeEntry r x s).sys = s.sys ∧ (writeEntry r x s).power = s.power ∧ (writeEntry r x s).mbx = s.mbx ∧ (writeEntry r x s).twi = s.twi ∧ (writeEntry r x s).ports = s.ports ∧ (writeEntry r x s).pool = s.pool ∧ (writeEntry r x s).lanes = s.lanes ∧ (writeEntry r x s).map = s.map ∧ (writeEntry r x s).dial = s.dial ∧ (writeEntry r x s).mon = s.mon ∧ (writeEntry r x s).alarms = s.alarms ∧ (writeEntry r x s).jrx = s.jrx ∧ (writeEntry r x s).test = s.test ∧ (writeEntry r x s).pins = s.pins ∧ (writeEntry r x s).bulk = s.bulk ∧ (writeEntry r x s).free = s.free ∧ (writeEntry r x s).pending = s.pending := by
  simp only [writeEntry]; (repeat' split) <;> simp
@[simp] theorem detect_keeps (u : FUnit) (code : BitVec 8) (index : BitVec 7) (detail : BitVec 16) (s : State) :
    (detect u code index detail s).free = s.free ∧ (detect u code index detail s).pending = s.pending := by
  simp only [detect]; (repeat' split) <;> simp
@[simp] theorem detectCore_keeps (c : Core) (code : BitVec 8) (s : State) :
    (detectCore c code s).free = s.free ∧ (detectCore c code s).pending = s.pending := by
  simp only [detectCore]; (repeat' split) <;> simp
@[simp] theorem detect3_keeps (u : FUnit) (i : BitVec 7) (x : BitVec 16) (s : State) :
    (detect u 3#8 i x s).sys = s.sys ∧ (detect u 3#8 i x s).power = s.power ∧ (detect u 3#8 i x s).mbx = s.mbx ∧ (detect u 3#8 i x s).twi = s.twi ∧ (detect u 3#8 i x s).ports = s.ports ∧ (detect u 3#8 i x s).pool = s.pool ∧ (detect u 3#8 i x s).lanes = s.lanes ∧ (detect u 3#8 i x s).map = s.map ∧ (detect u 3#8 i x s).dial = s.dial ∧ (detect u 3#8 i x s).mon = s.mon ∧ (detect u 3#8 i x s).alarms = s.alarms ∧ (detect u 3#8 i x s).jrx = s.jrx ∧ (detect u 3#8 i x s).test = s.test ∧ (detect u 3#8 i x s).pins = s.pins ∧ (detect u 3#8 i x s).bulk = s.bulk ∧ (detect u 3#8 i x s).free = s.free ∧ (detect u 3#8 i x s).pending = s.pending := by
  simp only [detect]; (repeat' split) <;> simp_all [codeActs]

@[simp] theorem bankLeave_keeps (d : Dom) (target : PState) (force : Bool) (s : State) :
    (bankLeave d target force s).sys = s.sys ∧ (bankLeave d target force s).mbx = s.mbx ∧ (bankLeave d target force s).twi = s.twi ∧ (bankLeave d target force s).ports = s.ports ∧ (bankLeave d target force s).pool = s.pool ∧ (bankLeave d target force s).lanes = s.lanes ∧ (bankLeave d target force s).map = s.map ∧ (bankLeave d target force s).dial = s.dial ∧ (bankLeave d target force s).mon = s.mon ∧ (bankLeave d target force s).alarms = s.alarms ∧ (bankLeave d target force s).faults = s.faults ∧ (bankLeave d target force s).jrx = s.jrx ∧ (bankLeave d target force s).test = s.test ∧ (bankLeave d target force s).pins = s.pins ∧ (bankLeave d target force s).bulk = s.bulk ∧ (bankLeave d target force s).free = s.free ∧ (bankLeave d target force s).pending = s.pending := by
  simp only [bankLeave]; (repeat' split) <;> simp
@[simp] theorem lostLine_keeps (n : LPort) (s : State) :
    (lostLine n s).sys = s.sys ∧ (lostLine n s).twi = s.twi ∧ (lostLine n s).lanes = s.lanes ∧ (lostLine n s).map = s.map ∧ (lostLine n s).dial = s.dial ∧ (lostLine n s).mon = s.mon ∧ (lostLine n s).faults = s.faults ∧ (lostLine n s).test = s.test ∧ (lostLine n s).pins = s.pins ∧ (lostLine n s).bulk = s.bulk ∧ (lostLine n s).free = s.free ∧ (lostLine n s).pending = s.pending := by
  simp only [lostLine]; (repeat' split) <;> simp
@[simp] theorem lostCal_keeps (n : LPort) (s : State) :
    (lostCal n s).sys = s.sys ∧ (lostCal n s).mbx = s.mbx ∧ (lostCal n s).twi = s.twi ∧ (lostCal n s).pool = s.pool ∧ (lostCal n s).lanes = s.lanes ∧ (lostCal n s).map = s.map ∧ (lostCal n s).dial = s.dial ∧ (lostCal n s).mon = s.mon ∧ (lostCal n s).alarms = s.alarms ∧ (lostCal n s).faults = s.faults ∧ (lostCal n s).jrx = s.jrx ∧ (lostCal n s).test = s.test ∧ (lostCal n s).pins = s.pins ∧ (lostCal n s).bulk = s.bulk ∧ (lostCal n s).free = s.free ∧ (lostCal n s).pending = s.pending := by
  simp only [lostCal]; (repeat' split) <;> simp
@[simp] theorem lostConfig_keeps (s : State) :
    (lostConfig s).power = s.power ∧ (lostConfig s).mbx = s.mbx ∧ (lostConfig s).twi = s.twi ∧ (lostConfig s).ports = s.ports ∧ (lostConfig s).mon = s.mon ∧ (lostConfig s).faults = s.faults ∧ (lostConfig s).test = s.test ∧ (lostConfig s).pins = s.pins ∧ (lostConfig s).bulk = s.bulk ∧ (lostConfig s).free = s.free ∧ (lostConfig s).pending = s.pending := by
  simp only [lostConfig]; (repeat' split) <;> simp
@[simp] theorem reloadFirmware_keeps (s : State) :
    (reloadFirmware s).power = s.power ∧ (reloadFirmware s).mbx = s.mbx ∧ (reloadFirmware s).twi = s.twi ∧ (reloadFirmware s).ports = s.ports ∧ (reloadFirmware s).pool = s.pool ∧ (reloadFirmware s).lanes = s.lanes ∧ (reloadFirmware s).map = s.map ∧ (reloadFirmware s).dial = s.dial ∧ (reloadFirmware s).mon = s.mon ∧ (reloadFirmware s).alarms = s.alarms ∧ (reloadFirmware s).faults = s.faults ∧ (reloadFirmware s).jrx = s.jrx ∧ (reloadFirmware s).test = s.test ∧ (reloadFirmware s).pins = s.pins ∧ (reloadFirmware s).bulk = s.bulk ∧ (reloadFirmware s).free = s.free ∧ (reloadFirmware s).pending = s.pending := by
  simp only [reloadFirmware]; (repeat' split) <;> simp
@[simp] theorem holdLost_keeps (s : State) :
    (holdLost s).power = s.power ∧ (holdLost s).twi = s.twi ∧ (holdLost s).ports = s.ports ∧ (holdLost s).pool = s.pool ∧ (holdLost s).lanes = s.lanes ∧ (holdLost s).map = s.map ∧ (holdLost s).dial = s.dial ∧ (holdLost s).mon = s.mon ∧ (holdLost s).alarms = s.alarms ∧ (holdLost s).faults = s.faults ∧ (holdLost s).jrx = s.jrx ∧ (holdLost s).test = s.test ∧ (holdLost s).pins = s.pins ∧ (holdLost s).bulk = s.bulk ∧ (holdLost s).free = s.free ∧ (holdLost s).pending = s.pending := by
  simp only [holdLost]; (repeat' split) <;> simp
@[simp] theorem lostLog_keeps (s : State) :
    (lostLog s).sys = s.sys ∧ (lostLog s).power = s.power ∧ (lostLog s).mbx = s.mbx ∧ (lostLog s).twi = s.twi ∧ (lostLog s).ports = s.ports ∧ (lostLog s).pool = s.pool ∧ (lostLog s).lanes = s.lanes ∧ (lostLog s).map = s.map ∧ (lostLog s).dial = s.dial ∧ (lostLog s).mon = s.mon ∧ (lostLog s).jrx = s.jrx ∧ (lostLog s).test = s.test ∧ (lostLog s).pins = s.pins ∧ (lostLog s).bulk = s.bulk ∧ (lostLog s).free = s.free ∧ (lostLog s).pending = s.pending := by
  simp only [lostLog]; (repeat' split) <;> simp
@[simp] theorem lostBulk_keeps (upper : Bool) (s : State) :
    (lostBulk upper s).sys = s.sys ∧ (lostBulk upper s).power = s.power ∧ (lostBulk upper s).mbx = s.mbx ∧ (lostBulk upper s).twi = s.twi ∧ (lostBulk upper s).ports = s.ports ∧ (lostBulk upper s).pool = s.pool ∧ (lostBulk upper s).lanes = s.lanes ∧ (lostBulk upper s).map = s.map ∧ (lostBulk upper s).dial = s.dial ∧ (lostBulk upper s).mon = s.mon ∧ (lostBulk upper s).alarms = s.alarms ∧ (lostBulk upper s).faults = s.faults ∧ (lostBulk upper s).jrx = s.jrx ∧ (lostBulk upper s).test = s.test ∧ (lostBulk upper s).pins = s.pins ∧ (lostBulk upper s).free = s.free ∧ (lostBulk upper s).pending = s.pending := by
  simp only [lostBulk]; (repeat' split) <;> simp
@[simp] theorem lostBank_keeps (k : Fin 32) (s : State) :
    (lostBank k s).twi = s.twi ∧ (lostBank k s).mon = s.mon ∧ (lostBank k s).test = s.test ∧ (lostBank k s).pins = s.pins ∧ (lostBank k s).free = s.free ∧ (lostBank k s).pending = s.pending := by
  simp only [lostBank]; (repeat' split) <;> simp
@[simp] theorem bankReturn_keeps (d : Dom) (s : State) :
    (bankReturn d s).twi = s.twi ∧ (bankReturn d s).mon = s.mon ∧ (bankReturn d s).test = s.test ∧ (bankReturn d s).pins = s.pins ∧ (bankReturn d s).free = s.free ∧ (bankReturn d s).pending = s.pending := by
  refine ⟨?_, ?_, ?_, ?_, ?_, ?_⟩ <;> (simp only [bankReturn, holdLost_keeps]) <;> (first | apply eachOf_twi | apply eachOf_mon | apply eachOf_test | apply eachOf_pins | apply eachOf_free | apply eachOf_pending) <;> intro x s <;> (repeat' split) <;> simp
@[simp] theorem prbsCount_keeps (k : HLane) (s : State) :
    (prbsCount k s).sys = s.sys ∧ (prbsCount k s).power = s.power ∧ (prbsCount k s).mbx = s.mbx ∧ (prbsCount k s).twi = s.twi ∧ (prbsCount k s).ports = s.ports ∧ (prbsCount k s).pool = s.pool ∧ (prbsCount k s).map = s.map ∧ (prbsCount k s).dial = s.dial ∧ (prbsCount k s).mon = s.mon ∧ (prbsCount k s).alarms = s.alarms ∧ (prbsCount k s).faults = s.faults ∧ (prbsCount k s).jrx = s.jrx ∧ (prbsCount k s).test = s.test ∧ (prbsCount k s).pins = s.pins ∧ (prbsCount k s).bulk = s.bulk ∧ (prbsCount k s).pending = s.pending := by
  simp only [prbsCount]; (repeat' split) <;> simp
@[simp] theorem leaveOn_keeps (d : Dom) (s : State) :
    (leaveOn d s).sys = s.sys ∧ (leaveOn d s).power = s.power ∧ (leaveOn d s).twi = s.twi ∧ (leaveOn d s).mon = s.mon ∧ (leaveOn d s).faults = s.faults ∧ (leaveOn d s).test = s.test ∧ (leaveOn d s).pins = s.pins ∧ (leaveOn d s).bulk = s.bulk ∧ (leaveOn d s).pending = s.pending := by
  simp only [leaveOn]; (repeat' split) <;> simp
@[simp] theorem dropUrgent_keeps (s : State) :
    (dropUrgent s).power = s.power ∧ (dropUrgent s).twi = s.twi ∧ (dropUrgent s).ports = s.ports ∧ (dropUrgent s).pool = s.pool ∧ (dropUrgent s).lanes = s.lanes ∧ (dropUrgent s).map = s.map ∧ (dropUrgent s).alarms = s.alarms ∧ (dropUrgent s).faults = s.faults ∧ (dropUrgent s).test = s.test ∧ (dropUrgent s).pins = s.pins ∧ (dropUrgent s).bulk = s.bulk ∧ (dropUrgent s).free = s.free ∧ (dropUrgent s).pending = s.pending := by
  simp only [dropUrgent]; (repeat' split) <;> simp
@[simp] theorem powerDown_keeps (d : Dom) (s : State) :
    (powerDown d s).power = s.power ∧ (powerDown d s).twi = s.twi ∧ (powerDown d s).pool = s.pool ∧ (powerDown d s).lanes = s.lanes ∧ (powerDown d s).map = s.map ∧ (powerDown d s).alarms = s.alarms ∧ (powerDown d s).faults = s.faults ∧ (powerDown d s).test = s.test ∧ (powerDown d s).pins = s.pins ∧ (powerDown d s).bulk = s.bulk ∧ (powerDown d s).free = s.free ∧ (powerDown d s).pending = s.pending := by
  simp only [powerDown]; (repeat' split) <;> simp
@[simp] theorem domDown_keeps (d : Dom) (target : PState) (force : Bool) (s : State) :
    (domDown d target force s).twi = s.twi ∧ (domDown d target force s).faults = s.faults ∧ (domDown d target force s).test = s.test ∧ (domDown d target force s).pins = s.pins ∧ (domDown d target force s).bulk = s.bulk ∧ (domDown d target force s).pending = s.pending := by
  simp only [domDown]; (repeat' split) <;> simp
@[simp] theorem powerUp_keeps (d : Dom) (s : State) :
    (powerUp d s).twi = s.twi ∧ (powerUp d s).test = s.test ∧ (powerUp d s).pins = s.pins ∧ (powerUp d s).free = s.free ∧ (powerUp d s).pending = s.pending := by
  refine ⟨?_, ?_, ?_, ?_, ?_⟩ <;> cases d <;> simp [powerUp] <;> (first | rw [eachOf_twi] | rw [eachOf_test] | rw [eachOf_pins] | rw [eachOf_free] | rw [eachOf_pending]) <;> simp
@[simp] theorem wakeAttempts_keeps (ms : List (Dom × PState × PState)) (s : State) :
    (wakeAttempts ms s).sys = s.sys ∧ (wakeAttempts ms s).power = s.power ∧ (wakeAttempts ms s).mbx = s.mbx ∧ (wakeAttempts ms s).twi = s.twi ∧ (wakeAttempts ms s).pool = s.pool ∧ (wakeAttempts ms s).lanes = s.lanes ∧ (wakeAttempts ms s).map = s.map ∧ (wakeAttempts ms s).dial = s.dial ∧ (wakeAttempts ms s).mon = s.mon ∧ (wakeAttempts ms s).alarms = s.alarms ∧ (wakeAttempts ms s).faults = s.faults ∧ (wakeAttempts ms s).jrx = s.jrx ∧ (wakeAttempts ms s).test = s.test ∧ (wakeAttempts ms s).pins = s.pins ∧ (wakeAttempts ms s).bulk = s.bulk ∧ (wakeAttempts ms s).free = s.free ∧ (wakeAttempts ms s).pending = s.pending := by
  refine ⟨?_, ?_, ?_, ?_, ?_, ?_, ?_, ?_, ?_, ?_, ?_, ?_, ?_, ?_, ?_, ?_, ?_⟩ <;> (simp only [wakeAttempts]; repeat' first | with_reducible rfl | (simp; done) | with_reducible refine (eachOf_sys _ _ _ ?_).trans ?_ | with_reducible refine (eachOf_power _ _ _ ?_).trans ?_ | with_reducible refine (eachOf_mbx _ _ _ ?_).trans ?_ | with_reducible refine (eachOf_twi _ _ _ ?_).trans ?_ | with_reducible refine (eachOf_pool _ _ _ ?_).trans ?_ | with_reducible refine (eachOf_lanes _ _ _ ?_).trans ?_ | with_reducible refine (eachOf_map _ _ _ ?_).trans ?_ | with_reducible refine (eachOf_dial _ _ _ ?_).trans ?_ | with_reducible refine (eachOf_mon _ _ _ ?_).trans ?_ | with_reducible refine (eachOf_alarms _ _ _ ?_).trans ?_ | with_reducible refine (eachOf_faults _ _ _ ?_).trans ?_ | with_reducible refine (eachOf_jrx _ _ _ ?_).trans ?_ | with_reducible refine (eachOf_test _ _ _ ?_).trans ?_ | with_reducible refine (eachOf_pins _ _ _ ?_).trans ?_ | with_reducible refine (eachOf_bulk _ _ _ ?_).trans ?_ | with_reducible refine (eachOf_free _ _ _ ?_).trans ?_ | with_reducible refine (eachOf_pending _ _ _ ?_).trans ?_ | with_reducible refine (eachPort_sys _ _ ?_).trans ?_ | with_reducible refine (eachPort_power _ _ ?_).trans ?_ | with_reducible refine (eachPort_mbx _ _ ?_).trans ?_ | with_reducible refine (eachPort_twi _ _ ?_).trans ?_ | with_reducible refine (eachPort_pool _ _ ?_).trans ?_ | with_reducible refine (eachPort_lanes _ _ ?_).trans ?_ | with_reducible refine (eachPort_map _ _ ?_).trans ?_ | with_reducible refine (eachPort_dial _ _ ?_).trans ?_ | with_reducible refine (eachPort_mon _ _ ?_).trans ?_ | with_reducible refine (eachPort_alarms _ _ ?_).trans ?_ | with_reducible refine (eachPort_faults _ _ ?_).trans ?_ | with_reducible refine (eachPort_jrx _ _ ?_).trans ?_ | with_reducible refine (eachPort_test _ _ ?_).trans ?_ | with_reducible refine (eachPort_pins _ _ ?_).trans ?_ | with_reducible refine (eachPort_bulk _ _ ?_).trans ?_ | with_reducible refine (eachPort_free _ _ ?_).trans ?_ | with_reducible refine (eachPort_pending _ _ ?_).trans ?_ | with_reducible refine (doIf_sys _ _ _ ?_).trans ?_ | with_reducible refine (doIf_power _ _ _ ?_).trans ?_ | with_reducible refine (doIf_mbx _ _ _ ?_).trans ?_ | with_reducible refine (doIf_twi _ _ _ ?_).trans ?_ | with_reducible refine (doIf_pool _ _ _ ?_).trans ?_ | with_reducible refine (doIf_lanes _ _ _ ?_).trans ?_ | with_reducible refine (doIf_map _ _ _ ?_).trans ?_ | with_reducible refine (doIf_dial _ _ _ ?_).trans ?_ | with_reducible refine (doIf_mon _ _ _ ?_).trans ?_ | with_reducible refine (doIf_alarms _ _ _ ?_).trans ?_ | with_reducible refine (doIf_faults _ _ _ ?_).trans ?_ | with_reducible refine (doIf_jrx _ _ _ ?_).trans ?_ | with_reducible refine (doIf_test _ _ _ ?_).trans ?_ | with_reducible refine (doIf_pins _ _ _ ?_).trans ?_ | with_reducible refine (doIf_bulk _ _ _ ?_).trans ?_ | with_reducible refine (doIf_free _ _ _ ?_).trans ?_ | with_reducible refine (doIf_pending _ _ _ ?_).trans ?_ | with_reducible refine (command_twi _ _ _ _ _ _ ?_).trans ?_ | with_reducible refine (command_test _ _ _ _ _ _ ?_).trans ?_ | with_reducible refine (command_pins _ _ _ _ _ _ ?_).trans ?_ | with_reducible refine (command_bulk _ _ _ _ _ _ ?_).trans ?_ | with_reducible refine (command_pending _ _ _ _ _ _ ?_).trans ?_ | with_reducible refine (commandOk_twi _ _ _ _ _ _ ?_).trans ?_ | with_reducible refine (commandOk_test _ _ _ _ _ _ ?_).trans ?_ | with_reducible refine (commandOk_pins _ _ _ _ _ _ ?_).trans ?_ | with_reducible refine (commandOk_bulk _ _ _ _ _ _ ?_).trans ?_ | with_reducible refine (commandOk_pending _ _ _ _ _ _ ?_).trans ?_ | with_reducible refine (awaitReport_power _ _ _ _ _ ?_).trans ?_ | with_reducible refine (awaitReport_twi _ _ _ _ _ ?_).trans ?_ | with_reducible refine (awaitReport_pool _ _ _ _ _ ?_).trans ?_ | with_reducible refine (awaitReport_lanes _ _ _ _ _ ?_).trans ?_ | with_reducible refine (awaitReport_map _ _ _ _ _ ?_).trans ?_ | with_reducible refine (awaitReport_dial _ _ _ _ _ ?_).trans ?_ | with_reducible refine (awaitReport_mon _ _ _ _ _ ?_).trans ?_ | with_reducible refine (awaitReport_alarms _ _ _ _ _ ?_).trans ?_ | with_reducible refine (awaitReport_faults _ _ _ _ _ ?_).trans ?_ | with_reducible refine (awaitReport_jrx _ _ _ _ _ ?_).trans ?_ | with_reducible refine (awaitReport_test _ _ _ _ _ ?_).trans ?_ | with_reducible refine (awaitReport_pins _ _ _ _ _ ?_).trans ?_ | with_reducible refine (awaitReport_bulk _ _ _ _ _ ?_).trans ?_ | with_reducible refine (awaitReport_free _ _ _ _ _ ?_).trans ?_ | with_reducible refine (awaitReport_pending _ _ _ _ _ ?_).trans ?_ | with_reducible refine (report_twi _ _ _ _ _ _ ?_).trans ?_ | with_reducible refine (report_test _ _ _ _ _ _ ?_).trans ?_ | with_reducible refine (report_pins _ _ _ _ _ _ ?_).trans ?_ | with_reducible refine (report_bulk _ _ _ _ _ _ ?_).trans ?_ | with_reducible refine (report_pending _ _ _ _ _ _ ?_).trans ?_ | intro _ | split | simp)
@[simp] theorem dropAttempts_keeps (ms : List (Dom × PState × PState)) (s : State) :
    (dropAttempts ms s).sys = s.sys ∧ (dropAttempts ms s).power = s.power ∧ (dropAttempts ms s).mbx = s.mbx ∧ (dropAttempts ms s).twi = s.twi ∧ (dropAttempts ms s).pool = s.pool ∧ (dropAttempts ms s).lanes = s.lanes ∧ (dropAttempts ms s).map = s.map ∧ (dropAttempts ms s).dial = s.dial ∧ (dropAttempts ms s).mon = s.mon ∧ (dropAttempts ms s).alarms = s.alarms ∧ (dropAttempts ms s).faults = s.faults ∧ (dropAttempts ms s).jrx = s.jrx ∧ (dropAttempts ms s).test = s.test ∧ (dropAttempts ms s).pins = s.pins ∧ (dropAttempts ms s).bulk = s.bulk ∧ (dropAttempts ms s).free = s.free ∧ (dropAttempts ms s).pending = s.pending := by
  refine ⟨?_, ?_, ?_, ?_, ?_, ?_, ?_, ?_, ?_, ?_, ?_, ?_, ?_, ?_, ?_, ?_, ?_⟩ <;> (simp only [dropAttempts]; repeat' first | with_reducible rfl | (simp; done) | with_reducible refine (eachOf_sys _ _ _ ?_).trans ?_ | with_reducible refine (eachOf_power _ _ _ ?_).trans ?_ | with_reducible refine (eachOf_mbx _ _ _ ?_).trans ?_ | with_reducible refine (eachOf_twi _ _ _ ?_).trans ?_ | with_reducible refine (eachOf_pool _ _ _ ?_).trans ?_ | with_reducible refine (eachOf_lanes _ _ _ ?_).trans ?_ | with_reducible refine (eachOf_map _ _ _ ?_).trans ?_ | with_reducible refine (eachOf_dial _ _ _ ?_).trans ?_ | with_reducible refine (eachOf_mon _ _ _ ?_).trans ?_ | with_reducible refine (eachOf_alarms _ _ _ ?_).trans ?_ | with_reducible refine (eachOf_faults _ _ _ ?_).trans ?_ | with_reducible refine (eachOf_jrx _ _ _ ?_).trans ?_ | with_reducible refine (eachOf_test _ _ _ ?_).trans ?_ | with_reducible refine (eachOf_pins _ _ _ ?_).trans ?_ | with_reducible refine (eachOf_bulk _ _ _ ?_).trans ?_ | with_reducible refine (eachOf_free _ _ _ ?_).trans ?_ | with_reducible refine (eachOf_pending _ _ _ ?_).trans ?_ | with_reducible refine (eachPort_sys _ _ ?_).trans ?_ | with_reducible refine (eachPort_power _ _ ?_).trans ?_ | with_reducible refine (eachPort_mbx _ _ ?_).trans ?_ | with_reducible refine (eachPort_twi _ _ ?_).trans ?_ | with_reducible refine (eachPort_pool _ _ ?_).trans ?_ | with_reducible refine (eachPort_lanes _ _ ?_).trans ?_ | with_reducible refine (eachPort_map _ _ ?_).trans ?_ | with_reducible refine (eachPort_dial _ _ ?_).trans ?_ | with_reducible refine (eachPort_mon _ _ ?_).trans ?_ | with_reducible refine (eachPort_alarms _ _ ?_).trans ?_ | with_reducible refine (eachPort_faults _ _ ?_).trans ?_ | with_reducible refine (eachPort_jrx _ _ ?_).trans ?_ | with_reducible refine (eachPort_test _ _ ?_).trans ?_ | with_reducible refine (eachPort_pins _ _ ?_).trans ?_ | with_reducible refine (eachPort_bulk _ _ ?_).trans ?_ | with_reducible refine (eachPort_free _ _ ?_).trans ?_ | with_reducible refine (eachPort_pending _ _ ?_).trans ?_ | with_reducible refine (doIf_sys _ _ _ ?_).trans ?_ | with_reducible refine (doIf_power _ _ _ ?_).trans ?_ | with_reducible refine (doIf_mbx _ _ _ ?_).trans ?_ | with_reducible refine (doIf_twi _ _ _ ?_).trans ?_ | with_reducible refine (doIf_pool _ _ _ ?_).trans ?_ | with_reducible refine (doIf_lanes _ _ _ ?_).trans ?_ | with_reducible refine (doIf_map _ _ _ ?_).trans ?_ | with_reducible refine (doIf_dial _ _ _ ?_).trans ?_ | with_reducible refine (doIf_mon _ _ _ ?_).trans ?_ | with_reducible refine (doIf_alarms _ _ _ ?_).trans ?_ | with_reducible refine (doIf_faults _ _ _ ?_).trans ?_ | with_reducible refine (doIf_jrx _ _ _ ?_).trans ?_ | with_reducible refine (doIf_test _ _ _ ?_).trans ?_ | with_reducible refine (doIf_pins _ _ _ ?_).trans ?_ | with_reducible refine (doIf_bulk _ _ _ ?_).trans ?_ | with_reducible refine (doIf_free _ _ _ ?_).trans ?_ | with_reducible refine (doIf_pending _ _ _ ?_).trans ?_ | with_reducible refine (command_twi _ _ _ _ _ _ ?_).trans ?_ | with_reducible refine (command_test _ _ _ _ _ _ ?_).trans ?_ | with_reducible refine (command_pins _ _ _ _ _ _ ?_).trans ?_ | with_reducible refine (command_bulk _ _ _ _ _ _ ?_).trans ?_ | with_reducible refine (command_pending _ _ _ _ _ _ ?_).trans ?_ | with_reducible refine (commandOk_twi _ _ _ _ _ _ ?_).trans ?_ | with_reducible refine (commandOk_test _ _ _ _ _ _ ?_).trans ?_ | with_reducible refine (commandOk_pins _ _ _ _ _ _ ?_).trans ?_ | with_reducible refine (commandOk_bulk _ _ _ _ _ _ ?_).trans ?_ | with_reducible refine (commandOk_pending _ _ _ _ _ _ ?_).trans ?_ | with_reducible refine (awaitReport_power _ _ _ _ _ ?_).trans ?_ | with_reducible refine (awaitReport_twi _ _ _ _ _ ?_).trans ?_ | with_reducible refine (awaitReport_pool _ _ _ _ _ ?_).trans ?_ | with_reducible refine (awaitReport_lanes _ _ _ _ _ ?_).trans ?_ | with_reducible refine (awaitReport_map _ _ _ _ _ ?_).trans ?_ | with_reducible refine (awaitReport_dial _ _ _ _ _ ?_).trans ?_ | with_reducible refine (awaitReport_mon _ _ _ _ _ ?_).trans ?_ | with_reducible refine (awaitReport_alarms _ _ _ _ _ ?_).trans ?_ | with_reducible refine (awaitReport_faults _ _ _ _ _ ?_).trans ?_ | with_reducible refine (awaitReport_jrx _ _ _ _ _ ?_).trans ?_ | with_reducible refine (awaitReport_test _ _ _ _ _ ?_).trans ?_ | with_reducible refine (awaitReport_pins _ _ _ _ _ ?_).trans ?_ | with_reducible refine (awaitReport_bulk _ _ _ _ _ ?_).trans ?_ | with_reducible refine (awaitReport_free _ _ _ _ _ ?_).trans ?_ | with_reducible refine (awaitReport_pending _ _ _ _ _ ?_).trans ?_ | with_reducible refine (report_twi _ _ _ _ _ _ ?_).trans ?_ | with_reducible refine (report_test _ _ _ _ _ _ ?_).trans ?_ | with_reducible refine (report_pins _ _ _ _ _ _ ?_).trans ?_ | with_reducible refine (report_bulk _ _ _ _ _ _ ?_).trans ?_ | with_reducible refine (report_pending _ _ _ _ _ _ ?_).trans ?_ | intro _ | split | simp)
@[simp] theorem beginTrain_keeps (k : HLane) (s : State) :
    (beginTrain k s).sys = s.sys ∧ (beginTrain k s).power = s.power ∧ (beginTrain k s).mbx = s.mbx ∧ (beginTrain k s).twi = s.twi ∧ (beginTrain k s).ports = s.ports ∧ (beginTrain k s).pool = s.pool ∧ (beginTrain k s).map = s.map ∧ (beginTrain k s).dial = s.dial ∧ (beginTrain k s).mon = s.mon ∧ (beginTrain k s).alarms = s.alarms ∧ (beginTrain k s).faults = s.faults ∧ (beginTrain k s).jrx = s.jrx ∧ (beginTrain k s).test = s.test ∧ (beginTrain k s).pins = s.pins ∧ (beginTrain k s).bulk = s.bulk ∧ (beginTrain k s).free = s.free ∧ (beginTrain k s).pending = s.pending := by
  simp only [beginTrain]; (repeat' split) <;> simp
@[simp] theorem trainLane_keeps (k : HLane) (s : State) :
    (trainLane k s).sys = s.sys ∧ (trainLane k s).power = s.power ∧ (trainLane k s).mbx = s.mbx ∧ (trainLane k s).twi = s.twi ∧ (trainLane k s).ports = s.ports ∧ (trainLane k s).pool = s.pool ∧ (trainLane k s).map = s.map ∧ (trainLane k s).dial = s.dial ∧ (trainLane k s).mon = s.mon ∧ (trainLane k s).alarms = s.alarms ∧ (trainLane k s).faults = s.faults ∧ (trainLane k s).jrx = s.jrx ∧ (trainLane k s).test = s.test ∧ (trainLane k s).pins = s.pins ∧ (trainLane k s).bulk = s.bulk ∧ (trainLane k s).free = s.free ∧ (trainLane k s).pending = s.pending := by
  simp only [trainLane]; (repeat' split) <;> simp
@[simp] theorem goOn_keeps (d : Dom) (s : State) :
    (goOn d s).power = s.power ∧ (goOn d s).twi = s.twi ∧ (goOn d s).faults = s.faults ∧ (goOn d s).test = s.test ∧ (goOn d s).pins = s.pins ∧ (goOn d s).bulk = s.bulk ∧ (goOn d s).pending = s.pending := by
  refine ⟨?_, ?_, ?_, ?_, ?_, ?_, ?_⟩ <;> (simp only [goOn]; repeat' first | with_reducible rfl | (simp; done) | with_reducible refine (eachOf_power _ _ _ ?_).trans ?_ | with_reducible refine (eachOf_twi _ _ _ ?_).trans ?_ | with_reducible refine (eachOf_faults _ _ _ ?_).trans ?_ | with_reducible refine (eachOf_test _ _ _ ?_).trans ?_ | with_reducible refine (eachOf_pins _ _ _ ?_).trans ?_ | with_reducible refine (eachOf_bulk _ _ _ ?_).trans ?_ | with_reducible refine (eachOf_pending _ _ _ ?_).trans ?_ | with_reducible refine (eachPort_power _ _ ?_).trans ?_ | with_reducible refine (eachPort_twi _ _ ?_).trans ?_ | with_reducible refine (eachPort_faults _ _ ?_).trans ?_ | with_reducible refine (eachPort_test _ _ ?_).trans ?_ | with_reducible refine (eachPort_pins _ _ ?_).trans ?_ | with_reducible refine (eachPort_bulk _ _ ?_).trans ?_ | with_reducible refine (eachPort_pending _ _ ?_).trans ?_ | with_reducible refine (doIf_power _ _ _ ?_).trans ?_ | with_reducible refine (doIf_twi _ _ _ ?_).trans ?_ | with_reducible refine (doIf_faults _ _ _ ?_).trans ?_ | with_reducible refine (doIf_test _ _ _ ?_).trans ?_ | with_reducible refine (doIf_pins _ _ _ ?_).trans ?_ | with_reducible refine (doIf_bulk _ _ _ ?_).trans ?_ | with_reducible refine (doIf_pending _ _ _ ?_).trans ?_ | with_reducible refine (command_twi _ _ _ _ _ _ ?_).trans ?_ | with_reducible refine (command_test _ _ _ _ _ _ ?_).trans ?_ | with_reducible refine (command_pins _ _ _ _ _ _ ?_).trans ?_ | with_reducible refine (command_bulk _ _ _ _ _ _ ?_).trans ?_ | with_reducible refine (command_pending _ _ _ _ _ _ ?_).trans ?_ | with_reducible refine (commandOk_twi _ _ _ _ _ _ ?_).trans ?_ | with_reducible refine (commandOk_test _ _ _ _ _ _ ?_).trans ?_ | with_reducible refine (commandOk_pins _ _ _ _ _ _ ?_).trans ?_ | with_reducible refine (commandOk_bulk _ _ _ _ _ _ ?_).trans ?_ | with_reducible refine (commandOk_pending _ _ _ _ _ _ ?_).trans ?_ | with_reducible refine (awaitReport_power _ _ _ _ _ ?_).trans ?_ | with_reducible refine (awaitReport_twi _ _ _ _ _ ?_).trans ?_ | with_reducible refine (awaitReport_faults _ _ _ _ _ ?_).trans ?_ | with_reducible refine (awaitReport_test _ _ _ _ _ ?_).trans ?_ | with_reducible refine (awaitReport_pins _ _ _ _ _ ?_).trans ?_ | with_reducible refine (awaitReport_bulk _ _ _ _ _ ?_).trans ?_ | with_reducible refine (awaitReport_pending _ _ _ _ _ ?_).trans ?_ | with_reducible refine (report_twi _ _ _ _ _ _ ?_).trans ?_ | with_reducible refine (report_test _ _ _ _ _ _ ?_).trans ?_ | with_reducible refine (report_pins _ _ _ _ _ _ ?_).trans ?_ | with_reducible refine (report_bulk _ _ _ _ _ _ ?_).trans ?_ | with_reducible refine (report_pending _ _ _ _ _ _ ?_).trans ?_ | intro _ | split | simp)
@[simp] theorem domUp_keeps (d : Dom) (target : PState) (s : State) :
    (domUp d target s).twi = s.twi ∧ (domUp d target s).test = s.test ∧ (domUp d target s).pins = s.pins ∧ (domUp d target s).pending = s.pending := by
  simp only [domUp]; (repeat' split) <;> simp
@[simp] theorem domMove_keeps (d : Dom) (target : PState) (s : State) :
    (domMove d target s).twi = s.twi ∧ (domMove d target s).test = s.test ∧ (domMove d target s).pins = s.pins ∧ (domMove d target s).pending = s.pending := by
  simp only [domMove]; (repeat' split) <;> simp
@[simp] theorem accessWake_keeps (d : Dom) (s : State) :
    (accessWake d s).twi = s.twi ∧ (accessWake d s).test = s.test ∧ (accessWake d s).pins = s.pins ∧ (accessWake d s).pending = s.pending := by
  simp only [accessWake]; (repeat' split) <;> simp
theorem eachOf_mem_bulk {α : Type} (l : List α) (f : α → State → State) (s : State)
    (h : ∀ x ∈ l, ∀ s, (f x s).bulk = s.bulk) : (eachOf l f s).bulk = s.bulk := by
  induction l generalizing s with
  | nil => rfl
  | cons x l ih =>
    exact (ih (f x s) fun y hy => h y (List.mem_cons_of_mem _ hy)).trans (h x List.mem_cons_self s)
theorem bankIn_low (d : Dom) (hd : d ≠ .ctl) (k : Fin 32) (h : bankIn d k = true) : k.val ≠ 16 ∧ k.val ≠ 17 := by
  cases d <;> simp_all [bankIn] <;> omega
theorem lostBank_bulk (k : Fin 32) (s : State) (h : k.val ≠ 16 ∧ k.val ≠ 17) : (lostBank k s).bulk = s.bulk := by
  simp only [lostBank]; (repeat' split) <;> simp_all
theorem bankReturn_bulk (d : Dom) (hd : d ≠ .ctl) (s : State) : (bankReturn d s).bulk = s.bulk := by
  simp only [bankReturn, holdLost_keeps]
  apply eachOf_mem_bulk
  intro k hk s
  have hk' := bankIn_low d hd k (by simpa [banksOf] using hk)
  (repeat' split) <;> simp [lostBank_bulk k _ hk']
theorem powerUp_bulk (d : Dom) (hd : d ≠ .ctl) (s : State) : (powerUp d s).bulk = s.bulk := by
  cases d <;> simp [powerUp, bankReturn_bulk] <;>
    first | exact bankReturn_bulk _ hd s | exact (eachOf_bulk _ _ _ fun _ _ => by simp).trans (bankReturn_bulk _ hd s)
theorem domUp_bulk (d : Dom) (hd : d ≠ .ctl) (x : PState) (s : State) : (domUp d x s).bulk = s.bulk := by
  simp only [domUp]; (repeat' split) <;> simp [powerUp_bulk d hd]
theorem accessWake_bulk (d : Dom) (hd : d ≠ .ctl) (s : State) : (accessWake d s).bulk = s.bulk := by
  simp only [accessWake]; split <;> simp [domUp_bulk d hd]

theorem needsOf_no_ctl (op : Nat) (ps : List Word) : Dom.ctl ∉ needsOf op ps := by
  unfold needsOf octetsOf
  split <;> (try split) <;> simp <;> intros <;> split <;> simp
@[simp] theorem wakeNeeds_keeps (ds : List Dom) (s : State) :
    (wakeNeeds ds s).twi = s.twi ∧ (wakeNeeds ds s).test = s.test ∧ (wakeNeeds ds s).pins = s.pins ∧ (wakeNeeds ds s).pending = s.pending := by
  simp only [wakeNeeds]; (repeat' split) <;> simp
theorem wakeNeeds_bulk (ds : List Dom) (h : Dom.ctl ∉ ds) (s : State) : (wakeNeeds ds s).bulk = s.bulk :=
  eachOf_mem_bulk ds _ s fun d hd s => accessWake_bulk d (fun e => h (e ▸ hd)) s
@[simp] theorem command_twi (op : Nat) (rq : Req) (cs : List (Bool × Answer))
    (sts : State → List (Bool × Answer)) (body : State → State) (s : State)
    (h : ∀ s, (body s).twi = s.twi) : (command op rq cs sts body s).twi = s.twi := by
  simp only [command]; (repeat' split) <;> simp [h]
@[simp] theorem command_test (op : Nat) (rq : Req) (cs : List (Bool × Answer))
    (sts : State → List (Bool × Answer)) (body : State → State) (s : State)
    (h : ∀ s, (body s).test = s.test) : (command op rq cs sts body s).test = s.test := by
  simp only [command]; (repeat' split) <;> simp [h]
@[simp] theorem command_pins (op : Nat) (rq : Req) (cs : List (Bool × Answer))
    (sts : State → List (Bool × Answer)) (body : State → State) (s : State)
    (h : ∀ s, (body s).pins = s.pins) : (command op rq cs sts body s).pins = s.pins := by
  simp only [command]; (repeat' split) <;> simp [h]
@[simp] theorem command_bulk (op : Nat) (rq : Req) (cs : List (Bool × Answer))
    (sts : State → List (Bool × Answer)) (body : State → State) (s : State)
    (h : ∀ s, (body s).bulk = s.bulk) : (command op rq cs sts body s).bulk = s.bulk := by
  simp only [command]; (repeat' split) <;> simp [h, wakeNeeds_bulk _ (needsOf_no_ctl _ _)]
@[simp] theorem command_pending (op : Nat) (rq : Req) (cs : List (Bool × Answer))
    (sts : State → List (Bool × Answer)) (body : State → State) (s : State)
    (h : ∀ s, (body s).pending = s.pending) : (command op rq cs sts body s).pending = s.pending := by
  simp only [command]; (repeat' split) <;> simp [h]
@[simp] theorem commandOk_twi (op : Nat) (rq : Req) (cs : List (Bool × Answer))
    (sts : State → List (Bool × Answer)) (body : State → State) (s : State)
    (h : ∀ s, (body s).twi = s.twi) : (commandOk op rq cs sts body s).twi = s.twi := by
  simp [commandOk, h]
@[simp] theorem commandOk_test (op : Nat) (rq : Req) (cs : List (Bool × Answer))
    (sts : State → List (Bool × Answer)) (body : State → State) (s : State)
    (h : ∀ s, (body s).test = s.test) : (commandOk op rq cs sts body s).test = s.test := by
  simp [commandOk, h]
@[simp] theorem commandOk_pins (op : Nat) (rq : Req) (cs : List (Bool × Answer))
    (sts : State → List (Bool × Answer)) (body : State → State) (s : State)
    (h : ∀ s, (body s).pins = s.pins) : (commandOk op rq cs sts body s).pins = s.pins := by
  simp [commandOk, h]
@[simp] theorem commandOk_bulk (op : Nat) (rq : Req) (cs : List (Bool × Answer))
    (sts : State → List (Bool × Answer)) (body : State → State) (s : State)
    (h : ∀ s, (body s).bulk = s.bulk) : (commandOk op rq cs sts body s).bulk = s.bulk := by
  simp [commandOk, h]
@[simp] theorem commandOk_pending (op : Nat) (rq : Req) (cs : List (Bool × Answer))
    (sts : State → List (Bool × Answer)) (body : State → State) (s : State)
    (h : ∀ s, (body s).pending = s.pending) : (commandOk op rq cs sts body s).pending = s.pending := by
  simp [commandOk, h]
@[simp] theorem awaitReport_power (a : ReportAt) (op : Nat) (rq : Req) (answer : State → State) (s : State)
    (h : ∀ s, (answer s).power = s.power) : (awaitReport a op rq answer s).power = s.power := by
  simp only [awaitReport]; split <;> simp [h]
@[simp] theorem awaitReport_twi (a : ReportAt) (op : Nat) (rq : Req) (answer : State → State) (s : State)
    (h : ∀ s, (answer s).twi = s.twi) : (awaitReport a op rq answer s).twi = s.twi := by
  simp only [awaitReport]; split <;> simp [h]
@[simp] theorem awaitReport_ports (a : ReportAt) (op : Nat) (rq : Req) (answer : State → State) (s : State)
    (h : ∀ s, (answer s).ports = s.ports) : (awaitReport a op rq answer s).ports = s.ports := by
  simp only [awaitReport]; split <;> simp [h]
@[simp] theorem awaitReport_pool (a : ReportAt) (op : Nat) (rq : Req) (answer : State → State) (s : State)
    (h : ∀ s, (answer s).pool = s.pool) : (awaitReport a op rq answer s).pool = s.pool := by
  simp only [awaitReport]; split <;> simp [h]
@[simp] theorem awaitReport_lanes (a : ReportAt) (op : Nat) (rq : Req) (answer : State → State) (s : State)
    (h : ∀ s, (answer s).lanes = s.lanes) : (awaitReport a op rq answer s).lanes = s.lanes := by
  simp only [awaitReport]; split <;> simp [h]
@[simp] theorem awaitReport_map (a : ReportAt) (op : Nat) (rq : Req) (answer : State → State) (s : State)
    (h : ∀ s, (answer s).map = s.map) : (awaitReport a op rq answer s).map = s.map := by
  simp only [awaitReport]; split <;> simp [h]
@[simp] theorem awaitReport_dial (a : ReportAt) (op : Nat) (rq : Req) (answer : State → State) (s : State)
    (h : ∀ s, (answer s).dial = s.dial) : (awaitReport a op rq answer s).dial = s.dial := by
  simp only [awaitReport]; split <;> simp [h]
@[simp] theorem awaitReport_mon (a : ReportAt) (op : Nat) (rq : Req) (answer : State → State) (s : State)
    (h : ∀ s, (answer s).mon = s.mon) : (awaitReport a op rq answer s).mon = s.mon := by
  simp only [awaitReport]; split <;> simp [h]
@[simp] theorem awaitReport_alarms (a : ReportAt) (op : Nat) (rq : Req) (answer : State → State) (s : State)
    (h : ∀ s, (answer s).alarms = s.alarms) : (awaitReport a op rq answer s).alarms = s.alarms := by
  simp only [awaitReport]; split <;> simp [h]
@[simp] theorem awaitReport_faults (a : ReportAt) (op : Nat) (rq : Req) (answer : State → State) (s : State)
    (h : ∀ s, (answer s).faults = s.faults) : (awaitReport a op rq answer s).faults = s.faults := by
  simp only [awaitReport]; split <;> simp [h]
@[simp] theorem awaitReport_jrx (a : ReportAt) (op : Nat) (rq : Req) (answer : State → State) (s : State)
    (h : ∀ s, (answer s).jrx = s.jrx) : (awaitReport a op rq answer s).jrx = s.jrx := by
  simp only [awaitReport]; split <;> simp [h]
@[simp] theorem awaitReport_test (a : ReportAt) (op : Nat) (rq : Req) (answer : State → State) (s : State)
    (h : ∀ s, (answer s).test = s.test) : (awaitReport a op rq answer s).test = s.test := by
  simp only [awaitReport]; split <;> simp [h]
@[simp] theorem awaitReport_pins (a : ReportAt) (op : Nat) (rq : Req) (answer : State → State) (s : State)
    (h : ∀ s, (answer s).pins = s.pins) : (awaitReport a op rq answer s).pins = s.pins := by
  simp only [awaitReport]; split <;> simp [h]
@[simp] theorem awaitReport_bulk (a : ReportAt) (op : Nat) (rq : Req) (answer : State → State) (s : State)
    (h : ∀ s, (answer s).bulk = s.bulk) : (awaitReport a op rq answer s).bulk = s.bulk := by
  simp only [awaitReport]; split <;> simp [h]
@[simp] theorem awaitReport_free (a : ReportAt) (op : Nat) (rq : Req) (answer : State → State) (s : State)
    (h : ∀ s, (answer s).free = s.free) : (awaitReport a op rq answer s).free = s.free := by
  simp only [awaitReport]; split <;> simp [h]
@[simp] theorem awaitReport_pending (a : ReportAt) (op : Nat) (rq : Req) (answer : State → State) (s : State)
    (h : ∀ s, (answer s).pending = s.pending) : (awaitReport a op rq answer s).pending = s.pending := by
  simp only [awaitReport]; split <;> simp [h]
@[simp] theorem report_twi (a : ReportAt) (op : Nat) (rq : Req) (cs : List (Bool × Answer)) (answer : State → State)
    (s : State) (h : ∀ s, (answer s).twi = s.twi) : (report a op rq cs answer s).twi = s.twi :=
  command_twi _ _ _ _ _ _ fun _ => awaitReport_twi _ _ _ _ _ h
@[simp] theorem report_test (a : ReportAt) (op : Nat) (rq : Req) (cs : List (Bool × Answer)) (answer : State → State)
    (s : State) (h : ∀ s, (answer s).test = s.test) : (report a op rq cs answer s).test = s.test :=
  command_test _ _ _ _ _ _ fun _ => awaitReport_test _ _ _ _ _ h
@[simp] theorem report_pins (a : ReportAt) (op : Nat) (rq : Req) (cs : List (Bool × Answer)) (answer : State → State)
    (s : State) (h : ∀ s, (answer s).pins = s.pins) : (report a op rq cs answer s).pins = s.pins :=
  command_pins _ _ _ _ _ _ fun _ => awaitReport_pins _ _ _ _ _ h
@[simp] theorem report_bulk (a : ReportAt) (op : Nat) (rq : Req) (cs : List (Bool × Answer)) (answer : State → State)
    (s : State) (h : ∀ s, (answer s).bulk = s.bulk) : (report a op rq cs answer s).bulk = s.bulk :=
  command_bulk _ _ _ _ _ _ fun _ => awaitReport_bulk _ _ _ _ _ h
@[simp] theorem report_pending (a : ReportAt) (op : Nat) (rq : Req) (cs : List (Bool × Answer)) (answer : State → State)
    (s : State) (h : ∀ s, (answer s).pending = s.pending) : (report a op rq cs answer s).pending = s.pending :=
  command_pending _ _ _ _ _ _ fun _ => awaitReport_pending _ _ _ _ _ h
@[simp] theorem answerReply_keeps (opcode : Nat) (rq : Req) (words : State → List Word) (s : State) :
    (answerReply opcode rq words s).power = s.power ∧ (answerReply opcode rq words s).twi = s.twi ∧ (answerReply opcode rq words s).ports = s.ports ∧ (answerReply opcode rq words s).pool = s.pool ∧ (answerReply opcode rq words s).lanes = s.lanes ∧ (answerReply opcode rq words s).map = s.map ∧ (answerReply opcode rq words s).mon = s.mon ∧ (answerReply opcode rq words s).alarms = s.alarms ∧ (answerReply opcode rq words s).faults = s.faults ∧ (answerReply opcode rq words s).test = s.test ∧ (answerReply opcode rq words s).pins = s.pins ∧ (answerReply opcode rq words s).bulk = s.bulk ∧ (answerReply opcode rq words s).free = s.free ∧ (answerReply opcode rq words s).pending = s.pending := by
  simp only [answerReply]; (repeat' split) <;> simp
@[simp] theorem answerBulk_keeps (opcode : Nat) (rq : Req) (off : Nat) (words : State → List Word) (s : State) :
    (answerBulk opcode rq off words s).power = s.power ∧ (answerBulk opcode rq off words s).twi = s.twi ∧ (answerBulk opcode rq off words s).ports = s.ports ∧ (answerBulk opcode rq off words s).pool = s.pool ∧ (answerBulk opcode rq off words s).lanes = s.lanes ∧ (answerBulk opcode rq off words s).map = s.map ∧ (answerBulk opcode rq off words s).mon = s.mon ∧ (answerBulk opcode rq off words s).alarms = s.alarms ∧ (answerBulk opcode rq off words s).faults = s.faults ∧ (answerBulk opcode rq off words s).test = s.test ∧ (answerBulk opcode rq off words s).pins = s.pins ∧ (answerBulk opcode rq off words s).free = s.free ∧ (answerBulk opcode rq off words s).pending = s.pending := by
  simp only [answerBulk]; (repeat' split) <;> simp

@[simp] theorem setAborted_keeps (c : Core) (i : Fin 16) (on : Bool) (s : State) :
    (setAborted c i on s).sys = s.sys ∧ (setAborted c i on s).power = s.power ∧ (setAborted c i on s).twi = s.twi ∧ (setAborted c i on s).ports = s.ports ∧ (setAborted c i on s).pool = s.pool ∧ (setAborted c i on s).lanes = s.lanes ∧ (setAborted c i on s).map = s.map ∧ (setAborted c i on s).dial = s.dial ∧ (setAborted c i on s).mon = s.mon ∧ (setAborted c i on s).alarms = s.alarms ∧ (setAborted c i on s).faults = s.faults ∧ (setAborted c i on s).jrx = s.jrx ∧ (setAborted c i on s).test = s.test ∧ (setAborted c i on s).pins = s.pins ∧ (setAborted c i on s).bulk = s.bulk ∧ (setAborted c i on s).free = s.free ∧ (setAborted c i on s).pending = s.pending := by
  simp only [setAborted]; (repeat' split) <;> simp
@[simp] theorem answerAborted_keeps (f : Forward) (s : State) :
    (answerAborted f s).power = s.power ∧ (answerAborted f s).twi = s.twi ∧ (answerAborted f s).ports = s.ports ∧ (answerAborted f s).pool = s.pool ∧ (answerAborted f s).lanes = s.lanes ∧ (answerAborted f s).map = s.map ∧ (answerAborted f s).mon = s.mon ∧ (answerAborted f s).alarms = s.alarms ∧ (answerAborted f s).faults = s.faults ∧ (answerAborted f s).test = s.test ∧ (answerAborted f s).pins = s.pins ∧ (answerAborted f s).bulk = s.bulk ∧ (answerAborted f s).free = s.free ∧ (answerAborted f s).pending = s.pending := by
  refine ⟨?_, ?_, ?_, ?_, ?_, ?_, ?_, ?_, ?_, ?_, ?_, ?_, ?_, ?_⟩ <;> (simp only [answerAborted]; repeat' first | with_reducible rfl | (simp; done) | with_reducible refine (eachOf_power _ _ _ ?_).trans ?_ | with_reducible refine (eachOf_twi _ _ _ ?_).trans ?_ | with_reducible refine (eachOf_ports _ _ _ ?_).trans ?_ | with_reducible refine (eachOf_pool _ _ _ ?_).trans ?_ | with_reducible refine (eachOf_lanes _ _ _ ?_).trans ?_ | with_reducible refine (eachOf_map _ _ _ ?_).trans ?_ | with_reducible refine (eachOf_mon _ _ _ ?_).trans ?_ | with_reducible refine (eachOf_alarms _ _ _ ?_).trans ?_ | with_reducible refine (eachOf_faults _ _ _ ?_).trans ?_ | with_reducible refine (eachOf_test _ _ _ ?_).trans ?_ | with_reducible refine (eachOf_pins _ _ _ ?_).trans ?_ | with_reducible refine (eachOf_bulk _ _ _ ?_).trans ?_ | with_reducible refine (eachOf_free _ _ _ ?_).trans ?_ | with_reducible refine (eachOf_pending _ _ _ ?_).trans ?_ | with_reducible refine (eachPort_power _ _ ?_).trans ?_ | with_reducible refine (eachPort_twi _ _ ?_).trans ?_ | with_reducible refine (eachPort_ports _ _ ?_).trans ?_ | with_reducible refine (eachPort_pool _ _ ?_).trans ?_ | with_reducible refine (eachPort_lanes _ _ ?_).trans ?_ | with_reducible refine (eachPort_map _ _ ?_).trans ?_ | with_reducible refine (eachPort_mon _ _ ?_).trans ?_ | with_reducible refine (eachPort_alarms _ _ ?_).trans ?_ | with_reducible refine (eachPort_faults _ _ ?_).trans ?_ | with_reducible refine (eachPort_test _ _ ?_).trans ?_ | with_reducible refine (eachPort_pins _ _ ?_).trans ?_ | with_reducible refine (eachPort_bulk _ _ ?_).trans ?_ | with_reducible refine (eachPort_free _ _ ?_).trans ?_ | with_reducible refine (eachPort_pending _ _ ?_).trans ?_ | with_reducible refine (doIf_power _ _ _ ?_).trans ?_ | with_reducible refine (doIf_twi _ _ _ ?_).trans ?_ | with_reducible refine (doIf_ports _ _ _ ?_).trans ?_ | with_reducible refine (doIf_pool _ _ _ ?_).trans ?_ | with_reducible refine (doIf_lanes _ _ _ ?_).trans ?_ | with_reducible refine (doIf_map _ _ _ ?_).trans ?_ | with_reducible refine (doIf_mon _ _ _ ?_).trans ?_ | with_reducible refine (doIf_alarms _ _ _ ?_).trans ?_ | with_reducible refine (doIf_faults _ _ _ ?_).trans ?_ | with_reducible refine (doIf_test _ _ _ ?_).trans ?_ | with_reducible refine (doIf_pins _ _ _ ?_).trans ?_ | with_reducible refine (doIf_bulk _ _ _ ?_).trans ?_ | with_reducible refine (doIf_free _ _ _ ?_).trans ?_ | with_reducible refine (doIf_pending _ _ _ ?_).trans ?_ | with_reducible refine (command_twi _ _ _ _ _ _ ?_).trans ?_ | with_reducible refine (command_test _ _ _ _ _ _ ?_).trans ?_ | with_reducible refine (command_pins _ _ _ _ _ _ ?_).trans ?_ | with_reducible refine (command_bulk _ _ _ _ _ _ ?_).trans ?_ | with_reducible refine (command_pending _ _ _ _ _ _ ?_).trans ?_ | with_reducible refine (commandOk_twi _ _ _ _ _ _ ?_).trans ?_ | with_reducible refine (commandOk_test _ _ _ _ _ _ ?_).trans ?_ | with_reducible refine (commandOk_pins _ _ _ _ _ _ ?_).trans ?_ | with_reducible refine (commandOk_bulk _ _ _ _ _ _ ?_).trans ?_ | with_reducible refine (commandOk_pending _ _ _ _ _ _ ?_).trans ?_ | with_reducible refine (awaitReport_power _ _ _ _ _ ?_).trans ?_ | with_reducible refine (awaitReport_twi _ _ _ _ _ ?_).trans ?_ | with_reducible refine (awaitReport_ports _ _ _ _ _ ?_).trans ?_ | with_reducible refine (awaitReport_pool _ _ _ _ _ ?_).trans ?_ | with_reducible refine (awaitReport_lanes _ _ _ _ _ ?_).trans ?_ | with_reducible refine (awaitReport_map _ _ _ _ _ ?_).trans ?_ | with_reducible refine (awaitReport_mon _ _ _ _ _ ?_).trans ?_ | with_reducible refine (awaitReport_alarms _ _ _ _ _ ?_).trans ?_ | with_reducible refine (awaitReport_faults _ _ _ _ _ ?_).trans ?_ | with_reducible refine (awaitReport_test _ _ _ _ _ ?_).trans ?_ | with_reducible refine (awaitReport_pins _ _ _ _ _ ?_).trans ?_ | with_reducible refine (awaitReport_bulk _ _ _ _ _ ?_).trans ?_ | with_reducible refine (awaitReport_free _ _ _ _ _ ?_).trans ?_ | with_reducible refine (awaitReport_pending _ _ _ _ _ ?_).trans ?_ | with_reducible refine (report_twi _ _ _ _ _ _ ?_).trans ?_ | with_reducible refine (report_test _ _ _ _ _ _ ?_).trans ?_ | with_reducible refine (report_pins _ _ _ _ _ _ ?_).trans ?_ | with_reducible refine (report_bulk _ _ _ _ _ _ ?_).trans ?_ | with_reducible refine (report_pending _ _ _ _ _ _ ?_).trans ?_ | intro _ | split | simp)
@[simp] theorem forgetLater_keeps (srcs : List Src) (s : State) :
    (forgetLater srcs s).power = s.power ∧ (forgetLater srcs s).mbx = s.mbx ∧ (forgetLater srcs s).twi = s.twi ∧ (forgetLater srcs s).pool = s.pool ∧ (forgetLater srcs s).lanes = s.lanes ∧ (forgetLater srcs s).map = s.map ∧ (forgetLater srcs s).mon = s.mon ∧ (forgetLater srcs s).alarms = s.alarms ∧ (forgetLater srcs s).faults = s.faults ∧ (forgetLater srcs s).test = s.test ∧ (forgetLater srcs s).pins = s.pins ∧ (forgetLater srcs s).bulk = s.bulk ∧ (forgetLater srcs s).free = s.free ∧ (forgetLater srcs s).pending = s.pending := by
  refine ⟨?_, ?_, ?_, ?_, ?_, ?_, ?_, ?_, ?_, ?_, ?_, ?_, ?_, ?_⟩ <;> (simp only [forgetLater]; repeat' first | with_reducible rfl | (simp; done) | with_reducible refine (eachOf_power _ _ _ ?_).trans ?_ | with_reducible refine (eachOf_mbx _ _ _ ?_).trans ?_ | with_reducible refine (eachOf_twi _ _ _ ?_).trans ?_ | with_reducible refine (eachOf_pool _ _ _ ?_).trans ?_ | with_reducible refine (eachOf_lanes _ _ _ ?_).trans ?_ | with_reducible refine (eachOf_map _ _ _ ?_).trans ?_ | with_reducible refine (eachOf_mon _ _ _ ?_).trans ?_ | with_reducible refine (eachOf_alarms _ _ _ ?_).trans ?_ | with_reducible refine (eachOf_faults _ _ _ ?_).trans ?_ | with_reducible refine (eachOf_test _ _ _ ?_).trans ?_ | with_reducible refine (eachOf_pins _ _ _ ?_).trans ?_ | with_reducible refine (eachOf_bulk _ _ _ ?_).trans ?_ | with_reducible refine (eachOf_free _ _ _ ?_).trans ?_ | with_reducible refine (eachOf_pending _ _ _ ?_).trans ?_ | with_reducible refine (eachPort_power _ _ ?_).trans ?_ | with_reducible refine (eachPort_mbx _ _ ?_).trans ?_ | with_reducible refine (eachPort_twi _ _ ?_).trans ?_ | with_reducible refine (eachPort_pool _ _ ?_).trans ?_ | with_reducible refine (eachPort_lanes _ _ ?_).trans ?_ | with_reducible refine (eachPort_map _ _ ?_).trans ?_ | with_reducible refine (eachPort_mon _ _ ?_).trans ?_ | with_reducible refine (eachPort_alarms _ _ ?_).trans ?_ | with_reducible refine (eachPort_faults _ _ ?_).trans ?_ | with_reducible refine (eachPort_test _ _ ?_).trans ?_ | with_reducible refine (eachPort_pins _ _ ?_).trans ?_ | with_reducible refine (eachPort_bulk _ _ ?_).trans ?_ | with_reducible refine (eachPort_free _ _ ?_).trans ?_ | with_reducible refine (eachPort_pending _ _ ?_).trans ?_ | with_reducible refine (doIf_power _ _ _ ?_).trans ?_ | with_reducible refine (doIf_mbx _ _ _ ?_).trans ?_ | with_reducible refine (doIf_twi _ _ _ ?_).trans ?_ | with_reducible refine (doIf_pool _ _ _ ?_).trans ?_ | with_reducible refine (doIf_lanes _ _ _ ?_).trans ?_ | with_reducible refine (doIf_map _ _ _ ?_).trans ?_ | with_reducible refine (doIf_mon _ _ _ ?_).trans ?_ | with_reducible refine (doIf_alarms _ _ _ ?_).trans ?_ | with_reducible refine (doIf_faults _ _ _ ?_).trans ?_ | with_reducible refine (doIf_test _ _ _ ?_).trans ?_ | with_reducible refine (doIf_pins _ _ _ ?_).trans ?_ | with_reducible refine (doIf_bulk _ _ _ ?_).trans ?_ | with_reducible refine (doIf_free _ _ _ ?_).trans ?_ | with_reducible refine (doIf_pending _ _ _ ?_).trans ?_ | with_reducible refine (command_twi _ _ _ _ _ _ ?_).trans ?_ | with_reducible refine (command_test _ _ _ _ _ _ ?_).trans ?_ | with_reducible refine (command_pins _ _ _ _ _ _ ?_).trans ?_ | with_reducible refine (command_bulk _ _ _ _ _ _ ?_).trans ?_ | with_reducible refine (command_pending _ _ _ _ _ _ ?_).trans ?_ | with_reducible refine (commandOk_twi _ _ _ _ _ _ ?_).trans ?_ | with_reducible refine (commandOk_test _ _ _ _ _ _ ?_).trans ?_ | with_reducible refine (commandOk_pins _ _ _ _ _ _ ?_).trans ?_ | with_reducible refine (commandOk_bulk _ _ _ _ _ _ ?_).trans ?_ | with_reducible refine (commandOk_pending _ _ _ _ _ _ ?_).trans ?_ | with_reducible refine (awaitReport_power _ _ _ _ _ ?_).trans ?_ | with_reducible refine (awaitReport_twi _ _ _ _ _ ?_).trans ?_ | with_reducible refine (awaitReport_pool _ _ _ _ _ ?_).trans ?_ | with_reducible refine (awaitReport_lanes _ _ _ _ _ ?_).trans ?_ | with_reducible refine (awaitReport_map _ _ _ _ _ ?_).trans ?_ | with_reducible refine (awaitReport_mon _ _ _ _ _ ?_).trans ?_ | with_reducible refine (awaitReport_alarms _ _ _ _ _ ?_).trans ?_ | with_reducible refine (awaitReport_faults _ _ _ _ _ ?_).trans ?_ | with_reducible refine (awaitReport_test _ _ _ _ _ ?_).trans ?_ | with_reducible refine (awaitReport_pins _ _ _ _ _ ?_).trans ?_ | with_reducible refine (awaitReport_bulk _ _ _ _ _ ?_).trans ?_ | with_reducible refine (awaitReport_free _ _ _ _ _ ?_).trans ?_ | with_reducible refine (awaitReport_pending _ _ _ _ _ ?_).trans ?_ | with_reducible refine (report_twi _ _ _ _ _ _ ?_).trans ?_ | with_reducible refine (report_test _ _ _ _ _ _ ?_).trans ?_ | with_reducible refine (report_pins _ _ _ _ _ _ ?_).trans ?_ | with_reducible refine (report_bulk _ _ _ _ _ _ ?_).trans ?_ | with_reducible refine (report_pending _ _ _ _ _ _ ?_).trans ?_ | intro _ | split | simp)
@[simp] theorem dialRestart_keeps (c : Core) (s : State) :
    (dialRestart c s).power = s.power ∧ (dialRestart c s).twi = s.twi ∧ (dialRestart c s).pool = s.pool ∧ (dialRestart c s).lanes = s.lanes ∧ (dialRestart c s).map = s.map ∧ (dialRestart c s).mon = s.mon ∧ (dialRestart c s).alarms = s.alarms ∧ (dialRestart c s).faults = s.faults ∧ (dialRestart c s).test = s.test ∧ (dialRestart c s).pins = s.pins ∧ (dialRestart c s).bulk = s.bulk ∧ (dialRestart c s).free = s.free ∧ (dialRestart c s).pending = s.pending := by
  simp only [dialRestart]; (repeat' split) <;> simp
@[simp] theorem restartCore_keeps (c : Core) (rq : Option Req) (s : State) :
    (restartCore c rq s).power = s.power ∧ (restartCore c rq s).twi = s.twi ∧ (restartCore c rq s).pool = s.pool ∧ (restartCore c rq s).lanes = s.lanes ∧ (restartCore c rq s).map = s.map ∧ (restartCore c rq s).mon = s.mon ∧ (restartCore c rq s).alarms = s.alarms ∧ (restartCore c rq s).faults = s.faults ∧ (restartCore c rq s).test = s.test ∧ (restartCore c rq s).pins = s.pins ∧ (restartCore c rq s).bulk = s.bulk ∧ (restartCore c rq s).free = s.free ∧ (restartCore c rq s).pending = s.pending := by
  simp only [restartCore]; (repeat' split) <;> simp
@[simp] theorem coreRuns_keeps (c : Core) (s : State) :
    (coreRuns c s).power = s.power ∧ (coreRuns c s).twi = s.twi ∧ (coreRuns c s).ports = s.ports ∧ (coreRuns c s).pool = s.pool ∧ (coreRuns c s).lanes = s.lanes ∧ (coreRuns c s).map = s.map ∧ (coreRuns c s).mon = s.mon ∧ (coreRuns c s).alarms = s.alarms ∧ (coreRuns c s).faults = s.faults ∧ (coreRuns c s).test = s.test ∧ (coreRuns c s).pins = s.pins ∧ (coreRuns c s).bulk = s.bulk ∧ (coreRuns c s).free = s.free ∧ (coreRuns c s).pending = s.pending := by
  simp only [coreRuns]; (repeat' split) <;> simp

@[simp] theorem modFe_keeps (who : HostPort) (f : FrontEnd → FrontEnd) (s : State) :
    (modFe who f s).sys = s.sys ∧ (modFe who f s).power = s.power ∧ (modFe who f s).mbx = s.mbx ∧ (modFe who f s).ports = s.ports ∧ (modFe who f s).pool = s.pool ∧ (modFe who f s).lanes = s.lanes ∧ (modFe who f s).map = s.map ∧ (modFe who f s).dial = s.dial ∧ (modFe who f s).mon = s.mon ∧ (modFe who f s).alarms = s.alarms ∧ (modFe who f s).faults = s.faults ∧ (modFe who f s).jrx = s.jrx ∧ (modFe who f s).test = s.test ∧ (modFe who f s).pins = s.pins ∧ (modFe who f s).bulk = s.bulk ∧ (modFe who f s).free = s.free ∧ (modFe who f s).pending = s.pending := by
  simp only [modFe]; (repeat' split) <;> simp
@[simp] theorem feDone_keeps (who : HostPort) (addr : BitVec 16) (data : Word) (s : State) :
    (feDone who addr data s).sys = s.sys ∧ (feDone who addr data s).power = s.power ∧ (feDone who addr data s).mbx = s.mbx ∧ (feDone who addr data s).ports = s.ports ∧ (feDone who addr data s).pool = s.pool ∧ (feDone who addr data s).lanes = s.lanes ∧ (feDone who addr data s).map = s.map ∧ (feDone who addr data s).dial = s.dial ∧ (feDone who addr data s).mon = s.mon ∧ (feDone who addr data s).alarms = s.alarms ∧ (feDone who addr data s).faults = s.faults ∧ (feDone who addr data s).jrx = s.jrx ∧ (feDone who addr data s).test = s.test ∧ (feDone who addr data s).pins = s.pins ∧ (feDone who addr data s).bulk = s.bulk ∧ (feDone who addr data s).free = s.free ∧ (feDone who addr data s).pending = s.pending := by
  simp only [feDone]; (repeat' split) <;> simp
@[simp] theorem feRefuse_keeps (who : HostPort) (s : State) :
    (feRefuse who s).sys = s.sys ∧ (feRefuse who s).power = s.power ∧ (feRefuse who s).mbx = s.mbx ∧ (feRefuse who s).ports = s.ports ∧ (feRefuse who s).pool = s.pool ∧ (feRefuse who s).lanes = s.lanes ∧ (feRefuse who s).map = s.map ∧ (feRefuse who s).dial = s.dial ∧ (feRefuse who s).mon = s.mon ∧ (feRefuse who s).alarms = s.alarms ∧ (feRefuse who s).faults = s.faults ∧ (feRefuse who s).jrx = s.jrx ∧ (feRefuse who s).test = s.test ∧ (feRefuse who s).pins = s.pins ∧ (feRefuse who s).bulk = s.bulk ∧ (feRefuse who s).free = s.free ∧ (feRefuse who s).pending = s.pending := by
  simp only [feRefuse]; (repeat' split) <;> simp
@[simp] theorem access_sys (who : HostPort) (f : State → State) (s : State)
    (h : ∀ s, (f s).sys = s.sys) : (access who f s).sys = s.sys := by
  simp only [access]; split <;> simp [h]
@[simp] theorem access_power (who : HostPort) (f : State → State) (s : State)
    (h : ∀ s, (f s).power = s.power) : (access who f s).power = s.power := by
  simp only [access]; split <;> simp [h]
@[simp] theorem access_mbx (who : HostPort) (f : State → State) (s : State)
    (h : ∀ s, (f s).mbx = s.mbx) : (access who f s).mbx = s.mbx := by
  simp only [access]; split <;> simp [h]
@[simp] theorem access_ports (who : HostPort) (f : State → State) (s : State)
    (h : ∀ s, (f s).ports = s.ports) : (access who f s).ports = s.ports := by
  simp only [access]; split <;> simp [h]
@[simp] theorem access_pool (who : HostPort) (f : State → State) (s : State)
    (h : ∀ s, (f s).pool = s.pool) : (access who f s).pool = s.pool := by
  simp only [access]; split <;> simp [h]
@[simp] theorem access_lanes (who : HostPort) (f : State → State) (s : State)
    (h : ∀ s, (f s).lanes = s.lanes) : (access who f s).lanes = s.lanes := by
  simp only [access]; split <;> simp [h]
@[simp] theorem access_map (who : HostPort) (f : State → State) (s : State)
    (h : ∀ s, (f s).map = s.map) : (access who f s).map = s.map := by
  simp only [access]; split <;> simp [h]
@[simp] theorem access_dial (who : HostPort) (f : State → State) (s : State)
    (h : ∀ s, (f s).dial = s.dial) : (access who f s).dial = s.dial := by
  simp only [access]; split <;> simp [h]
@[simp] theorem access_mon (who : HostPort) (f : State → State) (s : State)
    (h : ∀ s, (f s).mon = s.mon) : (access who f s).mon = s.mon := by
  simp only [access]; split <;> simp [h]
@[simp] theorem access_alarms (who : HostPort) (f : State → State) (s : State)
    (h : ∀ s, (f s).alarms = s.alarms) : (access who f s).alarms = s.alarms := by
  simp only [access]; split <;> simp [h]
@[simp] theorem access_faults (who : HostPort) (f : State → State) (s : State)
    (h : ∀ s, (f s).faults = s.faults) : (access who f s).faults = s.faults := by
  simp only [access]; split <;> simp [h]
@[simp] theorem access_jrx (who : HostPort) (f : State → State) (s : State)
    (h : ∀ s, (f s).jrx = s.jrx) : (access who f s).jrx = s.jrx := by
  simp only [access]; split <;> simp [h]
@[simp] theorem access_test (who : HostPort) (f : State → State) (s : State)
    (h : ∀ s, (f s).test = s.test) : (access who f s).test = s.test := by
  simp only [access]; split <;> simp [h]
@[simp] theorem access_pins (who : HostPort) (f : State → State) (s : State)
    (h : ∀ s, (f s).pins = s.pins) : (access who f s).pins = s.pins := by
  simp only [access]; split <;> simp [h]
@[simp] theorem access_bulk (who : HostPort) (f : State → State) (s : State)
    (h : ∀ s, (f s).bulk = s.bulk) : (access who f s).bulk = s.bulk := by
  simp only [access]; split <;> simp [h]
@[simp] theorem access_free (who : HostPort) (f : State → State) (s : State)
    (h : ∀ s, (f s).free = s.free) : (access who f s).free = s.free := by
  simp only [access]; split <;> simp [h]
@[simp] theorem access_pending (who : HostPort) (f : State → State) (s : State)
    (h : ∀ s, (f s).pending = s.pending) : (access who f s).pending = s.pending := by
  simp only [access]; split <;> simp [h]

@[simp] theorem biasPort_keeps (p : LPort) (s : State) :
    (biasPort p s).sys = s.sys ∧ (biasPort p s).power = s.power ∧ (biasPort p s).twi = s.twi ∧ (biasPort p s).lanes = s.lanes ∧ (biasPort p s).map = s.map ∧ (biasPort p s).dial = s.dial ∧ (biasPort p s).mon = s.mon ∧ (biasPort p s).faults = s.faults ∧ (biasPort p s).test = s.test ∧ (biasPort p s).pins = s.pins ∧ (biasPort p s).bulk = s.bulk ∧ (biasPort p s).free = s.free ∧ (biasPort p s).pending = s.pending := by
  simp only [biasPort]; (repeat' split) <;> simp
@[simp] theorem unsettle_keeps (k : Fin 24) (s : State) :
    (unsettle k s).sys = s.sys ∧ (unsettle k s).power = s.power ∧ (unsettle k s).mbx = s.mbx ∧ (unsettle k s).twi = s.twi ∧ (unsettle k s).ports = s.ports ∧ (unsettle k s).pool = s.pool ∧ (unsettle k s).lanes = s.lanes ∧ (unsettle k s).map = s.map ∧ (unsettle k s).dial = s.dial ∧ (unsettle k s).alarms = s.alarms ∧ (unsettle k s).faults = s.faults ∧ (unsettle k s).jrx = s.jrx ∧ (unsettle k s).test = s.test ∧ (unsettle k s).pins = s.pins ∧ (unsettle k s).bulk = s.bulk ∧ (unsettle k s).free = s.free ∧ (unsettle k s).pending = s.pending := by
  simp only [unsettle]; (repeat' split) <;> simp
@[simp] theorem unsettleAll_keeps (s : State) :
    (unsettleAll s).sys = s.sys ∧ (unsettleAll s).power = s.power ∧ (unsettleAll s).twi = s.twi ∧ (unsettleAll s).lanes = s.lanes ∧ (unsettleAll s).map = s.map ∧ (unsettleAll s).dial = s.dial ∧ (unsettleAll s).faults = s.faults ∧ (unsettleAll s).test = s.test ∧ (unsettleAll s).pins = s.pins ∧ (unsettleAll s).bulk = s.bulk ∧ (unsettleAll s).free = s.free ∧ (unsettleAll s).pending = s.pending := by
  simp only [unsettleAll]; (repeat' split) <;> simp
@[simp] theorem tearShadows_keeps (c : Fin 24) (s : State) :
    (tearShadows c s).sys = s.sys ∧ (tearShadows c s).power = s.power ∧ (tearShadows c s).mbx = s.mbx ∧ (tearShadows c s).ports = s.ports ∧ (tearShadows c s).pool = s.pool ∧ (tearShadows c s).lanes = s.lanes ∧ (tearShadows c s).map = s.map ∧ (tearShadows c s).dial = s.dial ∧ (tearShadows c s).alarms = s.alarms ∧ (tearShadows c s).faults = s.faults ∧ (tearShadows c s).jrx = s.jrx ∧ (tearShadows c s).test = s.test ∧ (tearShadows c s).pins = s.pins ∧ (tearShadows c s).bulk = s.bulk ∧ (tearShadows c s).free = s.free ∧ (tearShadows c s).pending = s.pending := by
  simp only [tearShadows]; (repeat' split) <;> simp
@[simp] theorem feedLoops_keeps (c : Fin 24) (code : BitVec 24) (s : State) :
    (feedLoops c code s).sys = s.sys ∧ (feedLoops c code s).power = s.power ∧ (feedLoops c code s).twi = s.twi ∧ (feedLoops c code s).lanes = s.lanes ∧ (feedLoops c code s).map = s.map ∧ (feedLoops c code s).dial = s.dial ∧ (feedLoops c code s).faults = s.faults ∧ (feedLoops c code s).test = s.test ∧ (feedLoops c code s).pins = s.pins ∧ (feedLoops c code s).bulk = s.bulk ∧ (feedLoops c code s).pending = s.pending := by
  simp only [feedLoops]; (repeat' split) <;> simp
@[simp] theorem monSlotEnd_keeps (c : Fin 24) (code : BitVec 24) (ovr : Bool) (s : State) :
    (monSlotEnd c code ovr s).sys = s.sys ∧ (monSlotEnd c code ovr s).power = s.power ∧ (monSlotEnd c code ovr s).lanes = s.lanes ∧ (monSlotEnd c code ovr s).map = s.map ∧ (monSlotEnd c code ovr s).dial = s.dial ∧ (monSlotEnd c code ovr s).faults = s.faults ∧ (monSlotEnd c code ovr s).test = s.test ∧ (monSlotEnd c code ovr s).pins = s.pins ∧ (monSlotEnd c code ovr s).bulk = s.bulk ∧ (monSlotEnd c code ovr s).pending = s.pending := by
  simp only [monSlotEnd]; (repeat' split) <;> simp
@[simp] theorem refColdEnd_keeps (s : State) :
    (refColdEnd s).sys = s.sys ∧ (refColdEnd s).power = s.power ∧ (refColdEnd s).mbx = s.mbx ∧ (refColdEnd s).twi = s.twi ∧ (refColdEnd s).ports = s.ports ∧ (refColdEnd s).pool = s.pool ∧ (refColdEnd s).lanes = s.lanes ∧ (refColdEnd s).map = s.map ∧ (refColdEnd s).dial = s.dial ∧ (refColdEnd s).alarms = s.alarms ∧ (refColdEnd s).faults = s.faults ∧ (refColdEnd s).jrx = s.jrx ∧ (refColdEnd s).test = s.test ∧ (refColdEnd s).pins = s.pins ∧ (refColdEnd s).bulk = s.bulk ∧ (refColdEnd s).free = s.free ∧ (refColdEnd s).pending = s.pending := by
  simp only [refColdEnd]; (repeat' split) <;> simp
@[simp] theorem biasGraceExpiry_keeps (k : Fin 24) (s : State) :
    (biasGraceExpiry k s).sys = s.sys ∧ (biasGraceExpiry k s).power = s.power ∧ (biasGraceExpiry k s).twi = s.twi ∧ (biasGraceExpiry k s).lanes = s.lanes ∧ (biasGraceExpiry k s).map = s.map ∧ (biasGraceExpiry k s).dial = s.dial ∧ (biasGraceExpiry k s).faults = s.faults ∧ (biasGraceExpiry k s).test = s.test ∧ (biasGraceExpiry k s).pins = s.pins ∧ (biasGraceExpiry k s).bulk = s.bulk ∧ (biasGraceExpiry k s).free = s.free ∧ (biasGraceExpiry k s).pending = s.pending := by
  simp only [biasGraceExpiry]; (repeat' split) <;> simp
@[simp] theorem monConfig_keeps (rq : Req) (s : State) :
    (monConfig rq s).twi = s.twi ∧ (monConfig rq s).test = s.test ∧ (monConfig rq s).pins = s.pins ∧ (monConfig rq s).bulk = s.bulk ∧ (monConfig rq s).pending = s.pending := by
  simp only [monConfig]; (repeat' split) <;> simp
@[simp] theorem monCoefLoad_keeps (rq : Req) (s : State) :
    (monCoefLoad rq s).twi = s.twi ∧ (monCoefLoad rq s).test = s.test ∧ (monCoefLoad rq s).pins = s.pins ∧ (monCoefLoad rq s).bulk = s.bulk ∧ (monCoefLoad rq s).pending = s.pending := by
  refine ⟨?_, ?_, ?_, ?_, ?_⟩ <;> (simp only [monCoefLoad]; repeat' first | with_reducible rfl | (simp; done) | with_reducible refine (eachOf_twi _ _ _ ?_).trans ?_ | with_reducible refine (eachOf_test _ _ _ ?_).trans ?_ | with_reducible refine (eachOf_pins _ _ _ ?_).trans ?_ | with_reducible refine (eachOf_bulk _ _ _ ?_).trans ?_ | with_reducible refine (eachOf_pending _ _ _ ?_).trans ?_ | with_reducible refine (eachPort_twi _ _ ?_).trans ?_ | with_reducible refine (eachPort_test _ _ ?_).trans ?_ | with_reducible refine (eachPort_pins _ _ ?_).trans ?_ | with_reducible refine (eachPort_bulk _ _ ?_).trans ?_ | with_reducible refine (eachPort_pending _ _ ?_).trans ?_ | with_reducible refine (doIf_twi _ _ _ ?_).trans ?_ | with_reducible refine (doIf_test _ _ _ ?_).trans ?_ | with_reducible refine (doIf_pins _ _ _ ?_).trans ?_ | with_reducible refine (doIf_bulk _ _ _ ?_).trans ?_ | with_reducible refine (doIf_pending _ _ _ ?_).trans ?_ | with_reducible refine (command_twi _ _ _ _ _ _ ?_).trans ?_ | with_reducible refine (command_test _ _ _ _ _ _ ?_).trans ?_ | with_reducible refine (command_pins _ _ _ _ _ _ ?_).trans ?_ | with_reducible refine (command_bulk _ _ _ _ _ _ ?_).trans ?_ | with_reducible refine (command_pending _ _ _ _ _ _ ?_).trans ?_ | with_reducible refine (commandOk_twi _ _ _ _ _ _ ?_).trans ?_ | with_reducible refine (commandOk_test _ _ _ _ _ _ ?_).trans ?_ | with_reducible refine (commandOk_pins _ _ _ _ _ _ ?_).trans ?_ | with_reducible refine (commandOk_bulk _ _ _ _ _ _ ?_).trans ?_ | with_reducible refine (commandOk_pending _ _ _ _ _ _ ?_).trans ?_ | with_reducible refine (awaitReport_twi _ _ _ _ _ ?_).trans ?_ | with_reducible refine (awaitReport_test _ _ _ _ _ ?_).trans ?_ | with_reducible refine (awaitReport_pins _ _ _ _ _ ?_).trans ?_ | with_reducible refine (awaitReport_bulk _ _ _ _ _ ?_).trans ?_ | with_reducible refine (awaitReport_pending _ _ _ _ _ ?_).trans ?_ | with_reducible refine (report_twi _ _ _ _ _ _ ?_).trans ?_ | with_reducible refine (report_test _ _ _ _ _ _ ?_).trans ?_ | with_reducible refine (report_pins _ _ _ _ _ _ ?_).trans ?_ | with_reducible refine (report_bulk _ _ _ _ _ _ ?_).trans ?_ | with_reducible refine (report_pending _ _ _ _ _ _ ?_).trans ?_ | intro _ | split | simp)
@[simp] theorem monReadAnswer_keeps (rq : Req) (s : State) :
    (monReadAnswer rq s).power = s.power ∧ (monReadAnswer rq s).twi = s.twi ∧ (monReadAnswer rq s).ports = s.ports ∧ (monReadAnswer rq s).pool = s.pool ∧ (monReadAnswer rq s).lanes = s.lanes ∧ (monReadAnswer rq s).map = s.map ∧ (monReadAnswer rq s).mon = s.mon ∧ (monReadAnswer rq s).alarms = s.alarms ∧ (monReadAnswer rq s).faults = s.faults ∧ (monReadAnswer rq s).test = s.test ∧ (monReadAnswer rq s).pins = s.pins ∧ (monReadAnswer rq s).bulk = s.bulk ∧ (monReadAnswer rq s).free = s.free ∧ (monReadAnswer rq s).pending = s.pending := by
  simp only [monReadAnswer]; (repeat' split) <;> simp
@[simp] theorem monRead_keeps (rq : Req) (s : State) :
    (monRead rq s).twi = s.twi ∧ (monRead rq s).test = s.test ∧ (monRead rq s).pins = s.pins ∧ (monRead rq s).bulk = s.bulk ∧ (monRead rq s).pending = s.pending := by
  simp only [monRead]; (repeat' split) <;> simp
@[simp] theorem monUrgent_keeps (rq : Req) (s : State) :
    (monUrgent rq s).twi = s.twi ∧ (monUrgent rq s).test = s.test ∧ (monUrgent rq s).pins = s.pins ∧ (monUrgent rq s).bulk = s.bulk ∧ (monUrgent rq s).pending = s.pending := by
  refine ⟨?_, ?_, ?_, ?_, ?_⟩ <;> (simp only [monUrgent]; repeat' first | with_reducible rfl | (simp; done) | with_reducible refine (eachOf_twi _ _ _ ?_).trans ?_ | with_reducible refine (eachOf_test _ _ _ ?_).trans ?_ | with_reducible refine (eachOf_pins _ _ _ ?_).trans ?_ | with_reducible refine (eachOf_bulk _ _ _ ?_).trans ?_ | with_reducible refine (eachOf_pending _ _ _ ?_).trans ?_ | with_reducible refine (eachPort_twi _ _ ?_).trans ?_ | with_reducible refine (eachPort_test _ _ ?_).trans ?_ | with_reducible refine (eachPort_pins _ _ ?_).trans ?_ | with_reducible refine (eachPort_bulk _ _ ?_).trans ?_ | with_reducible refine (eachPort_pending _ _ ?_).trans ?_ | with_reducible refine (doIf_twi _ _ _ ?_).trans ?_ | with_reducible refine (doIf_test _ _ _ ?_).trans ?_ | with_reducible refine (doIf_pins _ _ _ ?_).trans ?_ | with_reducible refine (doIf_bulk _ _ _ ?_).trans ?_ | with_reducible refine (doIf_pending _ _ _ ?_).trans ?_ | with_reducible refine (command_twi _ _ _ _ _ _ ?_).trans ?_ | with_reducible refine (command_test _ _ _ _ _ _ ?_).trans ?_ | with_reducible refine (command_pins _ _ _ _ _ _ ?_).trans ?_ | with_reducible refine (command_bulk _ _ _ _ _ _ ?_).trans ?_ | with_reducible refine (command_pending _ _ _ _ _ _ ?_).trans ?_ | with_reducible refine (commandOk_twi _ _ _ _ _ _ ?_).trans ?_ | with_reducible refine (commandOk_test _ _ _ _ _ _ ?_).trans ?_ | with_reducible refine (commandOk_pins _ _ _ _ _ _ ?_).trans ?_ | with_reducible refine (commandOk_bulk _ _ _ _ _ _ ?_).trans ?_ | with_reducible refine (commandOk_pending _ _ _ _ _ _ ?_).trans ?_ | with_reducible refine (awaitReport_twi _ _ _ _ _ ?_).trans ?_ | with_reducible refine (awaitReport_test _ _ _ _ _ ?_).trans ?_ | with_reducible refine (awaitReport_pins _ _ _ _ _ ?_).trans ?_ | with_reducible refine (awaitReport_bulk _ _ _ _ _ ?_).trans ?_ | with_reducible refine (awaitReport_pending _ _ _ _ _ ?_).trans ?_ | with_reducible refine (report_twi _ _ _ _ _ _ ?_).trans ?_ | with_reducible refine (report_test _ _ _ _ _ _ ?_).trans ?_ | with_reducible refine (report_pins _ _ _ _ _ _ ?_).trans ?_ | with_reducible refine (report_bulk _ _ _ _ _ _ ?_).trans ?_ | with_reducible refine (report_pending _ _ _ _ _ _ ?_).trans ?_ | intro _ | split | simp)
@[simp] theorem monUrgentDone_keeps (code : BitVec 24) (ovr : Bool) (s : State) :
    (monUrgentDone code ovr s).power = s.power ∧ (monUrgentDone code ovr s).twi = s.twi ∧ (monUrgentDone code ovr s).ports = s.ports ∧ (monUrgentDone code ovr s).pool = s.pool ∧ (monUrgentDone code ovr s).lanes = s.lanes ∧ (monUrgentDone code ovr s).map = s.map ∧ (monUrgentDone code ovr s).alarms = s.alarms ∧ (monUrgentDone code ovr s).faults = s.faults ∧ (monUrgentDone code ovr s).test = s.test ∧ (monUrgentDone code ovr s).pins = s.pins ∧ (monUrgentDone code ovr s).bulk = s.bulk ∧ (monUrgentDone code ovr s).pending = s.pending := by
  simp only [monUrgentDone]; (repeat' split) <;> simp
@[simp] theorem biasLoopSet_keeps (rq : Req) (s : State) :
    (biasLoopSet rq s).twi = s.twi ∧ (biasLoopSet rq s).test = s.test ∧ (biasLoopSet rq s).pins = s.pins ∧ (biasLoopSet rq s).bulk = s.bulk ∧ (biasLoopSet rq s).pending = s.pending := by
  simp only [biasLoopSet]; (repeat' split) <;> simp

@[simp] theorem heldChanged_keeps (s : State) :
    (heldChanged s).power = s.power ∧ (heldChanged s).twi = s.twi ∧ (heldChanged s).pool = s.pool ∧ (heldChanged s).lanes = s.lanes ∧ (heldChanged s).map = s.map ∧ (heldChanged s).dial = s.dial ∧ (heldChanged s).mon = s.mon ∧ (heldChanged s).alarms = s.alarms ∧ (heldChanged s).faults = s.faults ∧ (heldChanged s).jrx = s.jrx ∧ (heldChanged s).test = s.test ∧ (heldChanged s).pins = s.pins ∧ (heldChanged s).bulk = s.bulk ∧ (heldChanged s).free = s.free ∧ (heldChanged s).pending = s.pending := by
  simp only [heldChanged]; (repeat' split) <;> simp
@[simp] theorem recEvent_keeps (d : Dom) (s : State) :
    (recEvent d s).sys = s.sys ∧ (recEvent d s).power = s.power ∧ (recEvent d s).twi = s.twi ∧ (recEvent d s).ports = s.ports ∧ (recEvent d s).pool = s.pool ∧ (recEvent d s).lanes = s.lanes ∧ (recEvent d s).map = s.map ∧ (recEvent d s).dial = s.dial ∧ (recEvent d s).mon = s.mon ∧ (recEvent d s).alarms = s.alarms ∧ (recEvent d s).faults = s.faults ∧ (recEvent d s).jrx = s.jrx ∧ (recEvent d s).test = s.test ∧ (recEvent d s).pins = s.pins ∧ (recEvent d s).bulk = s.bulk ∧ (recEvent d s).free = s.free ∧ (recEvent d s).pending = s.pending := by
  simp only [recEvent]; (repeat' split) <;> simp
@[simp] theorem recDown_keeps (d : Dom) (target : PState) (s : State) :
    (recDown d target s).twi = s.twi ∧ (recDown d target s).faults = s.faults ∧ (recDown d target s).test = s.test ∧ (recDown d target s).pins = s.pins ∧ (recDown d target s).bulk = s.bulk ∧ (recDown d target s).pending = s.pending := by
  simp only [recDown]; (repeat' split) <;> simp
@[simp] theorem portBack_keeps (p : LPort) (s : State) :
    (portBack p s).sys = s.sys ∧ (portBack p s).power = s.power ∧ (portBack p s).twi = s.twi ∧ (portBack p s).lanes = s.lanes ∧ (portBack p s).mon = s.mon ∧ (portBack p s).faults = s.faults ∧ (portBack p s).test = s.test ∧ (portBack p s).pins = s.pins ∧ (portBack p s).bulk = s.bulk ∧ (portBack p s).free = s.free ∧ (portBack p s).pending = s.pending := by
  simp only [portBack]; (repeat' split) <;> simp
@[simp] theorem unitBack_keeps (u : FUnit) (s : State) :
    (unitBack u s).sys = s.sys ∧ (unitBack u s).power = s.power ∧ (unitBack u s).twi = s.twi ∧ (unitBack u s).lanes = s.lanes ∧ (unitBack u s).mon = s.mon ∧ (unitBack u s).faults = s.faults ∧ (unitBack u s).test = s.test ∧ (unitBack u s).pins = s.pins ∧ (unitBack u s).bulk = s.bulk ∧ (unitBack u s).free = s.free ∧ (unitBack u s).pending = s.pending := by
  simp only [unitBack]; (repeat' split) <;> simp
@[simp] theorem recWake_keeps (u : FUnit) (s : State) :
    (recWake u s).twi = s.twi ∧ (recWake u s).test = s.test ∧ (recWake u s).pins = s.pins ∧ (recWake u s).pending = s.pending := by
  simp only [recWake]; (repeat' split) <;> simp
@[simp] theorem recBankFail_keeps (k : Fin 32) (s : State) :
    (recBankFail k s).sys = s.sys ∧ (recBankFail k s).mbx = s.mbx ∧ (recBankFail k s).twi = s.twi ∧ (recBankFail k s).ports = s.ports ∧ (recBankFail k s).pool = s.pool ∧ (recBankFail k s).lanes = s.lanes ∧ (recBankFail k s).map = s.map ∧ (recBankFail k s).dial = s.dial ∧ (recBankFail k s).mon = s.mon ∧ (recBankFail k s).alarms = s.alarms ∧ (recBankFail k s).faults = s.faults ∧ (recBankFail k s).jrx = s.jrx ∧ (recBankFail k s).test = s.test ∧ (recBankFail k s).pins = s.pins ∧ (recBankFail k s).bulk = s.bulk ∧ (recBankFail k s).free = s.free ∧ (recBankFail k s).pending = s.pending := by
  simp only [recBankFail]; (repeat' split) <;> simp
@[simp] theorem resetLine_keeps (n : LPort) (s : State) :
    (resetLine n s).sys = s.sys ∧ (resetLine n s).power = s.power ∧ (resetLine n s).twi = s.twi ∧ (resetLine n s).lanes = s.lanes ∧ (resetLine n s).mon = s.mon ∧ (resetLine n s).faults = s.faults ∧ (resetLine n s).test = s.test ∧ (resetLine n s).pins = s.pins ∧ (resetLine n s).bulk = s.bulk ∧ (resetLine n s).free = s.free ∧ (resetLine n s).pending = s.pending := by
  simp only [resetLine]; (repeat' split) <;> simp
@[simp] theorem relock_keeps (n : LPort) (s : State) :
    (relock n s).sys = s.sys ∧ (relock n s).power = s.power ∧ (relock n s).mbx = s.mbx ∧ (relock n s).twi = s.twi ∧ (relock n s).pool = s.pool ∧ (relock n s).lanes = s.lanes ∧ (relock n s).map = s.map ∧ (relock n s).dial = s.dial ∧ (relock n s).mon = s.mon ∧ (relock n s).alarms = s.alarms ∧ (relock n s).faults = s.faults ∧ (relock n s).jrx = s.jrx ∧ (relock n s).test = s.test ∧ (relock n s).pins = s.pins ∧ (relock n s).bulk = s.bulk ∧ (relock n s).free = s.free ∧ (relock n s).pending = s.pending := by
  simp only [relock]; (repeat' split) <;> simp
@[simp] theorem startAction_keeps (u : FUnit) (level : Nat) (s : State) :
    (startAction u level s).twi = s.twi ∧ (startAction u level s).faults = s.faults ∧ (startAction u level s).test = s.test ∧ (startAction u level s).pins = s.pins ∧ (startAction u level s).bulk = s.bulk ∧ (startAction u level s).pending = s.pending := by
  simp only [startAction]; (repeat' split) <;> simp
@[simp] theorem faultMutes_keeps (p : LPort) (s : State) :
    (faultMutes p s).sys = s.sys ∧ (faultMutes p s).power = s.power ∧ (faultMutes p s).mbx = s.mbx ∧ (faultMutes p s).twi = s.twi ∧ (faultMutes p s).pool = s.pool ∧ (faultMutes p s).lanes = s.lanes ∧ (faultMutes p s).map = s.map ∧ (faultMutes p s).dial = s.dial ∧ (faultMutes p s).mon = s.mon ∧ (faultMutes p s).alarms = s.alarms ∧ (faultMutes p s).faults = s.faults ∧ (faultMutes p s).jrx = s.jrx ∧ (faultMutes p s).test = s.test ∧ (faultMutes p s).pins = s.pins ∧ (faultMutes p s).bulk = s.bulk ∧ (faultMutes p s).free = s.free ∧ (faultMutes p s).pending = s.pending := by
  simp only [faultMutes]; (repeat' split) <;> simp
@[simp] theorem finishAction_keeps (u : FUnit) (level : Nat) (s : State) :
    (finishAction u level s).power = s.power ∧ (finishAction u level s).twi = s.twi ∧ (finishAction u level s).faults = s.faults ∧ (finishAction u level s).test = s.test ∧ (finishAction u level s).pins = s.pins ∧ (finishAction u level s).bulk = s.bulk ∧ (finishAction u level s).free = s.free ∧ (finishAction u level s).pending = s.pending := by
  simp only [finishAction]; (repeat' split) <;> simp
@[simp] theorem stopCore_keeps (c : Core) (code : BitVec 8) (s : State) :
    (stopCore c code s).power = s.power ∧ (stopCore c code s).twi = s.twi ∧ (stopCore c code s).pool = s.pool ∧ (stopCore c code s).lanes = s.lanes ∧ (stopCore c code s).map = s.map ∧ (stopCore c code s).mon = s.mon ∧ (stopCore c code s).alarms = s.alarms ∧ (stopCore c code s).faults = s.faults ∧ (stopCore c code s).test = s.test ∧ (stopCore c code s).pins = s.pins ∧ (stopCore c code s).bulk = s.bulk ∧ (stopCore c code s).free = s.free ∧ (stopCore c code s).pending = s.pending := by
  simp only [stopCore]; (repeat' split) <;> simp
@[simp] theorem holdUnit_keeps (u : FUnit) (code : BitVec 8) (s : State) :
    (holdUnit u code s).twi = s.twi ∧ (holdUnit u code s).test = s.test ∧ (holdUnit u code s).pins = s.pins ∧ (holdUnit u code s).bulk = s.bulk ∧ (holdUnit u code s).pending = s.pending := by
  simp only [holdUnit]; (repeat' split) <;> simp

@[simp] theorem takeWords_keeps (c : Chan) (k : Nat) (s : State) :
    (takeWords c k s).sys = s.sys ∧ (takeWords c k s).power = s.power ∧ (takeWords c k s).twi = s.twi ∧ (takeWords c k s).ports = s.ports ∧ (takeWords c k s).pool = s.pool ∧ (takeWords c k s).lanes = s.lanes ∧ (takeWords c k s).map = s.map ∧ (takeWords c k s).dial = s.dial ∧ (takeWords c k s).mon = s.mon ∧ (takeWords c k s).alarms = s.alarms ∧ (takeWords c k s).faults = s.faults ∧ (takeWords c k s).jrx = s.jrx ∧ (takeWords c k s).test = s.test ∧ (takeWords c k s).pins = s.pins ∧ (takeWords c k s).bulk = s.bulk ∧ (takeWords c k s).free = s.free ∧ (takeWords c k s).pending = s.pending := by
  simp only [takeWords]; (repeat' split) <;> simp
@[simp] theorem endPart_keeps (c : Chan) (s : State) :
    (endPart c s).sys = s.sys ∧ (endPart c s).power = s.power ∧ (endPart c s).twi = s.twi ∧ (endPart c s).ports = s.ports ∧ (endPart c s).pool = s.pool ∧ (endPart c s).lanes = s.lanes ∧ (endPart c s).map = s.map ∧ (endPart c s).dial = s.dial ∧ (endPart c s).mon = s.mon ∧ (endPart c s).alarms = s.alarms ∧ (endPart c s).faults = s.faults ∧ (endPart c s).jrx = s.jrx ∧ (endPart c s).test = s.test ∧ (endPart c s).pins = s.pins ∧ (endPart c s).bulk = s.bulk ∧ (endPart c s).free = s.free ∧ (endPart c s).pending = s.pending := by
  simp only [endPart]; (repeat' split) <;> simp
@[simp] theorem crownCount_keeps (f : CrownCnt → CrownCnt) (s : State) :
    (crownCount f s).power = s.power ∧ (crownCount f s).mbx = s.mbx ∧ (crownCount f s).twi = s.twi ∧ (crownCount f s).ports = s.ports ∧ (crownCount f s).pool = s.pool ∧ (crownCount f s).lanes = s.lanes ∧ (crownCount f s).map = s.map ∧ (crownCount f s).dial = s.dial ∧ (crownCount f s).mon = s.mon ∧ (crownCount f s).alarms = s.alarms ∧ (crownCount f s).faults = s.faults ∧ (crownCount f s).jrx = s.jrx ∧ (crownCount f s).test = s.test ∧ (crownCount f s).pins = s.pins ∧ (crownCount f s).bulk = s.bulk ∧ (crownCount f s).free = s.free ∧ (crownCount f s).pending = s.pending := by
  simp only [crownCount]; (repeat' split) <;> simp
@[simp] theorem forward_keeps (op : Nat) (rq : Req) (words : Nat) (s : State) :
    (forward op rq words s).sys = s.sys ∧ (forward op rq words s).power = s.power ∧ (forward op rq words s).twi = s.twi ∧ (forward op rq words s).ports = s.ports ∧ (forward op rq words s).pool = s.pool ∧ (forward op rq words s).lanes = s.lanes ∧ (forward op rq words s).map = s.map ∧ (forward op rq words s).dial = s.dial ∧ (forward op rq words s).mon = s.mon ∧ (forward op rq words s).alarms = s.alarms ∧ (forward op rq words s).faults = s.faults ∧ (forward op rq words s).jrx = s.jrx ∧ (forward op rq words s).test = s.test ∧ (forward op rq words s).pins = s.pins ∧ (forward op rq words s).bulk = s.bulk ∧ (forward op rq words s).free = s.free ∧ (forward op rq words s).pending = s.pending := by
  simp only [forward]; (repeat' split) <;> simp
@[simp] theorem refusePacket_keeps (op : Nat) (rq : Req) (c : Chan) (r : Answer × (CrownCnt → CrownCnt)) (s : State) :
    (refusePacket op rq c r s).power = s.power ∧ (refusePacket op rq c r s).twi = s.twi ∧ (refusePacket op rq c r s).ports = s.ports ∧ (refusePacket op rq c r s).pool = s.pool ∧ (refusePacket op rq c r s).lanes = s.lanes ∧ (refusePacket op rq c r s).map = s.map ∧ (refusePacket op rq c r s).dial = s.dial ∧ (refusePacket op rq c r s).mon = s.mon ∧ (refusePacket op rq c r s).alarms = s.alarms ∧ (refusePacket op rq c r s).faults = s.faults ∧ (refusePacket op rq c r s).test = s.test ∧ (refusePacket op rq c r s).pins = s.pins ∧ (refusePacket op rq c r s).bulk = s.bulk ∧ (refusePacket op rq c r s).free = s.free ∧ (refusePacket op rq c r s).pending = s.pending := by
  simp only [refusePacket]; (repeat' split) <;> simp
@[simp] theorem crownPacketTake_keeps (c : Chan) (s : State) :
    (crownPacketTake c s).power = s.power ∧ (crownPacketTake c s).twi = s.twi ∧ (crownPacketTake c s).ports = s.ports ∧ (crownPacketTake c s).pool = s.pool ∧ (crownPacketTake c s).lanes = s.lanes ∧ (crownPacketTake c s).map = s.map ∧ (crownPacketTake c s).dial = s.dial ∧ (crownPacketTake c s).mon = s.mon ∧ (crownPacketTake c s).alarms = s.alarms ∧ (crownPacketTake c s).faults = s.faults ∧ (crownPacketTake c s).test = s.test ∧ (crownPacketTake c s).pins = s.pins ∧ (crownPacketTake c s).bulk = s.bulk ∧ (crownPacketTake c s).free = s.free ∧ (crownPacketTake c s).pending = s.pending := by
  simp only [crownPacketTake]; (repeat' split) <;> simp
@[simp] theorem crownWordTimeout_keeps (c : Chan) (s : State) :
    (crownWordTimeout c s).power = s.power ∧ (crownWordTimeout c s).twi = s.twi ∧ (crownWordTimeout c s).ports = s.ports ∧ (crownWordTimeout c s).pool = s.pool ∧ (crownWordTimeout c s).lanes = s.lanes ∧ (crownWordTimeout c s).map = s.map ∧ (crownWordTimeout c s).dial = s.dial ∧ (crownWordTimeout c s).mon = s.mon ∧ (crownWordTimeout c s).alarms = s.alarms ∧ (crownWordTimeout c s).faults = s.faults ∧ (crownWordTimeout c s).test = s.test ∧ (crownWordTimeout c s).pins = s.pins ∧ (crownWordTimeout c s).bulk = s.bulk ∧ (crownWordTimeout c s).free = s.free ∧ (crownWordTimeout c s).pending = s.pending := by
  simp only [crownWordTimeout]; (repeat' split) <;> simp
@[simp] theorem disown_keeps (src : Src) (s : State) :
    (disown src s).mbx = s.mbx ∧ (disown src s).twi = s.twi ∧ (disown src s).pool = s.pool ∧ (disown src s).lanes = s.lanes ∧ (disown src s).map = s.map ∧ (disown src s).alarms = s.alarms ∧ (disown src s).faults = s.faults ∧ (disown src s).test = s.test ∧ (disown src s).pins = s.pins ∧ (disown src s).bulk = s.bulk ∧ (disown src s).free = s.free ∧ (disown src s).pending = s.pending := by
  simp only [disown]; (repeat' split) <;> simp
@[simp] theorem crownReplyTimeout_keeps (c : Chan) (s : State) :
    (crownReplyTimeout c s).free = s.free ∧ (crownReplyTimeout c s).pending = s.pending := by
  simp only [crownReplyTimeout]; (repeat' split) <;> simp
@[simp] theorem coreRestartDone_keeps (c : Core) (s : State) :
    (coreRestartDone c s).power = s.power ∧ (coreRestartDone c s).twi = s.twi ∧ (coreRestartDone c s).ports = s.ports ∧ (coreRestartDone c s).pool = s.pool ∧ (coreRestartDone c s).lanes = s.lanes ∧ (coreRestartDone c s).map = s.map ∧ (coreRestartDone c s).mon = s.mon ∧ (coreRestartDone c s).alarms = s.alarms ∧ (coreRestartDone c s).faults = s.faults ∧ (coreRestartDone c s).test = s.test ∧ (coreRestartDone c s).pins = s.pins ∧ (coreRestartDone c s).bulk = s.bulk ∧ (coreRestartDone c s).free = s.free ∧ (coreRestartDone c s).pending = s.pending := by
  simp only [coreRestartDone]; (repeat' split) <;> simp
@[simp] theorem sysIdentAnswer_keeps (rq : Req) (s : State) :
    (sysIdentAnswer rq s).power = s.power ∧ (sysIdentAnswer rq s).twi = s.twi ∧ (sysIdentAnswer rq s).ports = s.ports ∧ (sysIdentAnswer rq s).pool = s.pool ∧ (sysIdentAnswer rq s).lanes = s.lanes ∧ (sysIdentAnswer rq s).map = s.map ∧ (sysIdentAnswer rq s).mon = s.mon ∧ (sysIdentAnswer rq s).alarms = s.alarms ∧ (sysIdentAnswer rq s).faults = s.faults ∧ (sysIdentAnswer rq s).test = s.test ∧ (sysIdentAnswer rq s).pins = s.pins ∧ (sysIdentAnswer rq s).bulk = s.bulk ∧ (sysIdentAnswer rq s).free = s.free ∧ (sysIdentAnswer rq s).pending = s.pending := by
  simp only [sysIdentAnswer]; (repeat' split) <;> simp
@[simp] theorem sysIdent_keeps (rq : Req) (s : State) :
    (sysIdent rq s).twi = s.twi ∧ (sysIdent rq s).test = s.test ∧ (sysIdent rq s).pins = s.pins ∧ (sysIdent rq s).bulk = s.bulk ∧ (sysIdent rq s).pending = s.pending := by
  simp only [sysIdent]; (repeat' split) <;> simp
@[simp] theorem sysStatusAnswer_keeps (rq : Req) (s : State) :
    (sysStatusAnswer rq s).power = s.power ∧ (sysStatusAnswer rq s).twi = s.twi ∧ (sysStatusAnswer rq s).ports = s.ports ∧ (sysStatusAnswer rq s).pool = s.pool ∧ (sysStatusAnswer rq s).lanes = s.lanes ∧ (sysStatusAnswer rq s).map = s.map ∧ (sysStatusAnswer rq s).mon = s.mon ∧ (sysStatusAnswer rq s).alarms = s.alarms ∧ (sysStatusAnswer rq s).faults = s.faults ∧ (sysStatusAnswer rq s).test = s.test ∧ (sysStatusAnswer rq s).pins = s.pins ∧ (sysStatusAnswer rq s).bulk = s.bulk ∧ (sysStatusAnswer rq s).free = s.free ∧ (sysStatusAnswer rq s).pending = s.pending := by
  simp only [sysStatusAnswer]; (repeat' split) <;> simp
@[simp] theorem sysStatus_keeps (rq : Req) (s : State) :
    (sysStatus rq s).twi = s.twi ∧ (sysStatus rq s).test = s.test ∧ (sysStatus rq s).pins = s.pins ∧ (sysStatus rq s).bulk = s.bulk ∧ (sysStatus rq s).pending = s.pending := by
  simp only [sysStatus]; (repeat' split) <;> simp
@[simp] theorem sysReset_keeps (rq : Req) (s : State) :
    (sysReset rq s).twi = s.twi ∧ (sysReset rq s).test = s.test ∧ (sysReset rq s).pins = s.pins ∧ (sysReset rq s).bulk = s.bulk ∧ (sysReset rq s).pending = s.pending := by
  simp only [sysReset]; (repeat' split) <;> simp
@[simp] theorem configLoad_keeps (rq : Req) (s : State) :
    (configLoad rq s).twi = s.twi ∧ (configLoad rq s).test = s.test ∧ (configLoad rq s).pins = s.pins ∧ (configLoad rq s).bulk = s.bulk ∧ (configLoad rq s).pending = s.pending := by
  refine ⟨?_, ?_, ?_, ?_, ?_⟩ <;> (simp only [configLoad]; repeat' first | with_reducible rfl | (simp; done) | with_reducible refine (eachOf_twi _ _ _ ?_).trans ?_ | with_reducible refine (eachOf_test _ _ _ ?_).trans ?_ | with_reducible refine (eachOf_pins _ _ _ ?_).trans ?_ | with_reducible refine (eachOf_bulk _ _ _ ?_).trans ?_ | with_reducible refine (eachOf_pending _ _ _ ?_).trans ?_ | with_reducible refine (eachPort_twi _ _ ?_).trans ?_ | with_reducible refine (eachPort_test _ _ ?_).trans ?_ | with_reducible refine (eachPort_pins _ _ ?_).trans ?_ | with_reducible refine (eachPort_bulk _ _ ?_).trans ?_ | with_reducible refine (eachPort_pending _ _ ?_).trans ?_ | with_reducible refine (doIf_twi _ _ _ ?_).trans ?_ | with_reducible refine (doIf_test _ _ _ ?_).trans ?_ | with_reducible refine (doIf_pins _ _ _ ?_).trans ?_ | with_reducible refine (doIf_bulk _ _ _ ?_).trans ?_ | with_reducible refine (doIf_pending _ _ _ ?_).trans ?_ | with_reducible refine (command_twi _ _ _ _ _ _ ?_).trans ?_ | with_reducible refine (command_test _ _ _ _ _ _ ?_).trans ?_ | with_reducible refine (command_pins _ _ _ _ _ _ ?_).trans ?_ | with_reducible refine (command_bulk _ _ _ _ _ _ ?_).trans ?_ | with_reducible refine (command_pending _ _ _ _ _ _ ?_).trans ?_ | with_reducible refine (commandOk_twi _ _ _ _ _ _ ?_).trans ?_ | with_reducible refine (commandOk_test _ _ _ _ _ _ ?_).trans ?_ | with_reducible refine (commandOk_pins _ _ _ _ _ _ ?_).trans ?_ | with_reducible refine (commandOk_bulk _ _ _ _ _ _ ?_).trans ?_ | with_reducible refine (commandOk_pending _ _ _ _ _ _ ?_).trans ?_ | with_reducible refine (awaitReport_twi _ _ _ _ _ ?_).trans ?_ | with_reducible refine (awaitReport_test _ _ _ _ _ ?_).trans ?_ | with_reducible refine (awaitReport_pins _ _ _ _ _ ?_).trans ?_ | with_reducible refine (awaitReport_bulk _ _ _ _ _ ?_).trans ?_ | with_reducible refine (awaitReport_pending _ _ _ _ _ ?_).trans ?_ | with_reducible refine (report_twi _ _ _ _ _ _ ?_).trans ?_ | with_reducible refine (report_test _ _ _ _ _ _ ?_).trans ?_ | with_reducible refine (report_pins _ _ _ _ _ _ ?_).trans ?_ | with_reducible refine (report_bulk _ _ _ _ _ _ ?_).trans ?_ | with_reducible refine (report_pending _ _ _ _ _ _ ?_).trans ?_ | intro _ | split | simp)
@[simp] theorem outputsStart_keeps (rq : Req) (s : State) :
    (outputsStart rq s).twi = s.twi ∧ (outputsStart rq s).test = s.test ∧ (outputsStart rq s).pins = s.pins ∧ (outputsStart rq s).bulk = s.bulk ∧ (outputsStart rq s).pending = s.pending := by
  simp only [outputsStart]; (repeat' split) <;> simp
@[simp] theorem allDrvLow_keeps (s : State) :
    (allDrvLow s).sys = s.sys ∧ (allDrvLow s).power = s.power ∧ (allDrvLow s).mbx = s.mbx ∧ (allDrvLow s).twi = s.twi ∧ (allDrvLow s).pool = s.pool ∧ (allDrvLow s).lanes = s.lanes ∧ (allDrvLow s).map = s.map ∧ (allDrvLow s).dial = s.dial ∧ (allDrvLow s).mon = s.mon ∧ (allDrvLow s).alarms = s.alarms ∧ (allDrvLow s).faults = s.faults ∧ (allDrvLow s).jrx = s.jrx ∧ (allDrvLow s).test = s.test ∧ (allDrvLow s).pins = s.pins ∧ (allDrvLow s).bulk = s.bulk ∧ (allDrvLow s).free = s.free ∧ (allDrvLow s).pending = s.pending := by
  refine ⟨?_, ?_, ?_, ?_, ?_, ?_, ?_, ?_, ?_, ?_, ?_, ?_, ?_, ?_, ?_, ?_, ?_⟩ <;> (simp only [allDrvLow]; repeat' first | with_reducible rfl | (simp; done) | with_reducible refine (eachOf_sys _ _ _ ?_).trans ?_ | with_reducible refine (eachOf_power _ _ _ ?_).trans ?_ | with_reducible refine (eachOf_mbx _ _ _ ?_).trans ?_ | with_reducible refine (eachOf_twi _ _ _ ?_).trans ?_ | with_reducible refine (eachOf_pool _ _ _ ?_).trans ?_ | with_reducible refine (eachOf_lanes _ _ _ ?_).trans ?_ | with_reducible refine (eachOf_map _ _ _ ?_).trans ?_ | with_reducible refine (eachOf_dial _ _ _ ?_).trans ?_ | with_reducible refine (eachOf_mon _ _ _ ?_).trans ?_ | with_reducible refine (eachOf_alarms _ _ _ ?_).trans ?_ | with_reducible refine (eachOf_faults _ _ _ ?_).trans ?_ | with_reducible refine (eachOf_jrx _ _ _ ?_).trans ?_ | with_reducible refine (eachOf_test _ _ _ ?_).trans ?_ | with_reducible refine (eachOf_pins _ _ _ ?_).trans ?_ | with_reducible refine (eachOf_bulk _ _ _ ?_).trans ?_ | with_reducible refine (eachOf_free _ _ _ ?_).trans ?_ | with_reducible refine (eachOf_pending _ _ _ ?_).trans ?_ | with_reducible refine (eachPort_sys _ _ ?_).trans ?_ | with_reducible refine (eachPort_power _ _ ?_).trans ?_ | with_reducible refine (eachPort_mbx _ _ ?_).trans ?_ | with_reducible refine (eachPort_twi _ _ ?_).trans ?_ | with_reducible refine (eachPort_pool _ _ ?_).trans ?_ | with_reducible refine (eachPort_lanes _ _ ?_).trans ?_ | with_reducible refine (eachPort_map _ _ ?_).trans ?_ | with_reducible refine (eachPort_dial _ _ ?_).trans ?_ | with_reducible refine (eachPort_mon _ _ ?_).trans ?_ | with_reducible refine (eachPort_alarms _ _ ?_).trans ?_ | with_reducible refine (eachPort_faults _ _ ?_).trans ?_ | with_reducible refine (eachPort_jrx _ _ ?_).trans ?_ | with_reducible refine (eachPort_test _ _ ?_).trans ?_ | with_reducible refine (eachPort_pins _ _ ?_).trans ?_ | with_reducible refine (eachPort_bulk _ _ ?_).trans ?_ | with_reducible refine (eachPort_free _ _ ?_).trans ?_ | with_reducible refine (eachPort_pending _ _ ?_).trans ?_ | with_reducible refine (doIf_sys _ _ _ ?_).trans ?_ | with_reducible refine (doIf_power _ _ _ ?_).trans ?_ | with_reducible refine (doIf_mbx _ _ _ ?_).trans ?_ | with_reducible refine (doIf_twi _ _ _ ?_).trans ?_ | with_reducible refine (doIf_pool _ _ _ ?_).trans ?_ | with_reducible refine (doIf_lanes _ _ _ ?_).trans ?_ | with_reducible refine (doIf_map _ _ _ ?_).trans ?_ | with_reducible refine (doIf_dial _ _ _ ?_).trans ?_ | with_reducible refine (doIf_mon _ _ _ ?_).trans ?_ | with_reducible refine (doIf_alarms _ _ _ ?_).trans ?_ | with_reducible refine (doIf_faults _ _ _ ?_).trans ?_ | with_reducible refine (doIf_jrx _ _ _ ?_).trans ?_ | with_reducible refine (doIf_test _ _ _ ?_).trans ?_ | with_reducible refine (doIf_pins _ _ _ ?_).trans ?_ | with_reducible refine (doIf_bulk _ _ _ ?_).trans ?_ | with_reducible refine (doIf_free _ _ _ ?_).trans ?_ | with_reducible refine (doIf_pending _ _ _ ?_).trans ?_ | with_reducible refine (command_twi _ _ _ _ _ _ ?_).trans ?_ | with_reducible refine (command_test _ _ _ _ _ _ ?_).trans ?_ | with_reducible refine (command_pins _ _ _ _ _ _ ?_).trans ?_ | with_reducible refine (command_bulk _ _ _ _ _ _ ?_).trans ?_ | with_reducible refine (command_pending _ _ _ _ _ _ ?_).trans ?_ | with_reducible refine (commandOk_twi _ _ _ _ _ _ ?_).trans ?_ | with_reducible refine (commandOk_test _ _ _ _ _ _ ?_).trans ?_ | with_reducible refine (commandOk_pins _ _ _ _ _ _ ?_).trans ?_ | with_reducible refine (commandOk_bulk _ _ _ _ _ _ ?_).trans ?_ | with_reducible refine (commandOk_pending _ _ _ _ _ _ ?_).trans ?_ | with_reducible refine (awaitReport_power _ _ _ _ _ ?_).trans ?_ | with_reducible refine (awaitReport_twi _ _ _ _ _ ?_).trans ?_ | with_reducible refine (awaitReport_pool _ _ _ _ _ ?_).trans ?_ | with_reducible refine (awaitReport_lanes _ _ _ _ _ ?_).trans ?_ | with_reducible refine (awaitReport_map _ _ _ _ _ ?_).trans ?_ | with_reducible refine (awaitReport_dial _ _ _ _ _ ?_).trans ?_ | with_reducible refine (awaitReport_mon _ _ _ _ _ ?_).trans ?_ | with_reducible refine (awaitReport_alarms _ _ _ _ _ ?_).trans ?_ | with_reducible refine (awaitReport_faults _ _ _ _ _ ?_).trans ?_ | with_reducible refine (awaitReport_jrx _ _ _ _ _ ?_).trans ?_ | with_reducible refine (awaitReport_test _ _ _ _ _ ?_).trans ?_ | with_reducible refine (awaitReport_pins _ _ _ _ _ ?_).trans ?_ | with_reducible refine (awaitReport_bulk _ _ _ _ _ ?_).trans ?_ | with_reducible refine (awaitReport_free _ _ _ _ _ ?_).trans ?_ | with_reducible refine (awaitReport_pending _ _ _ _ _ ?_).trans ?_ | with_reducible refine (report_twi _ _ _ _ _ _ ?_).trans ?_ | with_reducible refine (report_test _ _ _ _ _ _ ?_).trans ?_ | with_reducible refine (report_pins _ _ _ _ _ _ ?_).trans ?_ | with_reducible refine (report_bulk _ _ _ _ _ _ ?_).trans ?_ | with_reducible refine (report_pending _ _ _ _ _ _ ?_).trans ?_ | intro _ | split | simp)
@[simp] theorem outputsStop_keeps (rq : Req) (s : State) :
    (outputsStop rq s).twi = s.twi ∧ (outputsStop rq s).test = s.test ∧ (outputsStop rq s).pins = s.pins ∧ (outputsStop rq s).bulk = s.bulk ∧ (outputsStop rq s).pending = s.pending := by
  refine ⟨?_, ?_, ?_, ?_, ?_⟩ <;> (simp only [outputsStop]; repeat' first | with_reducible rfl | (simp; done) | with_reducible refine (eachOf_twi _ _ _ ?_).trans ?_ | with_reducible refine (eachOf_test _ _ _ ?_).trans ?_ | with_reducible refine (eachOf_pins _ _ _ ?_).trans ?_ | with_reducible refine (eachOf_bulk _ _ _ ?_).trans ?_ | with_reducible refine (eachOf_pending _ _ _ ?_).trans ?_ | with_reducible refine (eachPort_twi _ _ ?_).trans ?_ | with_reducible refine (eachPort_test _ _ ?_).trans ?_ | with_reducible refine (eachPort_pins _ _ ?_).trans ?_ | with_reducible refine (eachPort_bulk _ _ ?_).trans ?_ | with_reducible refine (eachPort_pending _ _ ?_).trans ?_ | with_reducible refine (doIf_twi _ _ _ ?_).trans ?_ | with_reducible refine (doIf_test _ _ _ ?_).trans ?_ | with_reducible refine (doIf_pins _ _ _ ?_).trans ?_ | with_reducible refine (doIf_bulk _ _ _ ?_).trans ?_ | with_reducible refine (doIf_pending _ _ _ ?_).trans ?_ | with_reducible refine (command_twi _ _ _ _ _ _ ?_).trans ?_ | with_reducible refine (command_test _ _ _ _ _ _ ?_).trans ?_ | with_reducible refine (command_pins _ _ _ _ _ _ ?_).trans ?_ | with_reducible refine (command_bulk _ _ _ _ _ _ ?_).trans ?_ | with_reducible refine (command_pending _ _ _ _ _ _ ?_).trans ?_ | with_reducible refine (commandOk_twi _ _ _ _ _ _ ?_).trans ?_ | with_reducible refine (commandOk_test _ _ _ _ _ _ ?_).trans ?_ | with_reducible refine (commandOk_pins _ _ _ _ _ _ ?_).trans ?_ | with_reducible refine (commandOk_bulk _ _ _ _ _ _ ?_).trans ?_ | with_reducible refine (commandOk_pending _ _ _ _ _ _ ?_).trans ?_ | with_reducible refine (awaitReport_twi _ _ _ _ _ ?_).trans ?_ | with_reducible refine (awaitReport_test _ _ _ _ _ ?_).trans ?_ | with_reducible refine (awaitReport_pins _ _ _ _ _ ?_).trans ?_ | with_reducible refine (awaitReport_bulk _ _ _ _ _ ?_).trans ?_ | with_reducible refine (awaitReport_pending _ _ _ _ _ ?_).trans ?_ | with_reducible refine (report_twi _ _ _ _ _ _ ?_).trans ?_ | with_reducible refine (report_test _ _ _ _ _ _ ?_).trans ?_ | with_reducible refine (report_pins _ _ _ _ _ _ ?_).trans ?_ | with_reducible refine (report_bulk _ _ _ _ _ _ ?_).trans ?_ | with_reducible refine (report_pending _ _ _ _ _ _ ?_).trans ?_ | intro _ | split | simp)
@[simp] theorem idAttest_keeps (rq : Req) (s : State) :
    (idAttest rq s).twi = s.twi ∧ (idAttest rq s).test = s.test ∧ (idAttest rq s).pins = s.pins ∧ (idAttest rq s).pending = s.pending := by
  simp only [idAttest]; (repeat' split) <;> simp
@[simp] theorem permSet_keeps (rq : Req) (s : State) :
    (permSet rq s).twi = s.twi ∧ (permSet rq s).test = s.test ∧ (permSet rq s).pins = s.pins ∧ (permSet rq s).bulk = s.bulk ∧ (permSet rq s).pending = s.pending := by
  refine ⟨?_, ?_, ?_, ?_, ?_⟩ <;> (simp only [permSet]; repeat' first | with_reducible rfl | (simp; done) | with_reducible refine (eachOf_twi _ _ _ ?_).trans ?_ | with_reducible refine (eachOf_test _ _ _ ?_).trans ?_ | with_reducible refine (eachOf_pins _ _ _ ?_).trans ?_ | with_reducible refine (eachOf_bulk _ _ _ ?_).trans ?_ | with_reducible refine (eachOf_pending _ _ _ ?_).trans ?_ | with_reducible refine (eachPort_twi _ _ ?_).trans ?_ | with_reducible refine (eachPort_test _ _ ?_).trans ?_ | with_reducible refine (eachPort_pins _ _ ?_).trans ?_ | with_reducible refine (eachPort_bulk _ _ ?_).trans ?_ | with_reducible refine (eachPort_pending _ _ ?_).trans ?_ | with_reducible refine (doIf_twi _ _ _ ?_).trans ?_ | with_reducible refine (doIf_test _ _ _ ?_).trans ?_ | with_reducible refine (doIf_pins _ _ _ ?_).trans ?_ | with_reducible refine (doIf_bulk _ _ _ ?_).trans ?_ | with_reducible refine (doIf_pending _ _ _ ?_).trans ?_ | with_reducible refine (command_twi _ _ _ _ _ _ ?_).trans ?_ | with_reducible refine (command_test _ _ _ _ _ _ ?_).trans ?_ | with_reducible refine (command_pins _ _ _ _ _ _ ?_).trans ?_ | with_reducible refine (command_bulk _ _ _ _ _ _ ?_).trans ?_ | with_reducible refine (command_pending _ _ _ _ _ _ ?_).trans ?_ | with_reducible refine (commandOk_twi _ _ _ _ _ _ ?_).trans ?_ | with_reducible refine (commandOk_test _ _ _ _ _ _ ?_).trans ?_ | with_reducible refine (commandOk_pins _ _ _ _ _ _ ?_).trans ?_ | with_reducible refine (commandOk_bulk _ _ _ _ _ _ ?_).trans ?_ | with_reducible refine (commandOk_pending _ _ _ _ _ _ ?_).trans ?_ | with_reducible refine (awaitReport_twi _ _ _ _ _ ?_).trans ?_ | with_reducible refine (awaitReport_test _ _ _ _ _ ?_).trans ?_ | with_reducible refine (awaitReport_pins _ _ _ _ _ ?_).trans ?_ | with_reducible refine (awaitReport_bulk _ _ _ _ _ ?_).trans ?_ | with_reducible refine (awaitReport_pending _ _ _ _ _ ?_).trans ?_ | with_reducible refine (report_twi _ _ _ _ _ _ ?_).trans ?_ | with_reducible refine (report_test _ _ _ _ _ _ ?_).trans ?_ | with_reducible refine (report_pins _ _ _ _ _ _ ?_).trans ?_ | with_reducible refine (report_bulk _ _ _ _ _ _ ?_).trans ?_ | with_reducible refine (report_pending _ _ _ _ _ _ ?_).trans ?_ | intro _ | split | simp)
@[simp] theorem permGet_keeps (rq : Req) (s : State) :
    (permGet rq s).twi = s.twi ∧ (permGet rq s).test = s.test ∧ (permGet rq s).pins = s.pins ∧ (permGet rq s).bulk = s.bulk ∧ (permGet rq s).pending = s.pending := by
  simp only [permGet]; (repeat' split) <;> simp
@[simp] theorem linePmAnswer_keeps (rq : Req) (s : State) :
    (linePmAnswer rq s).power = s.power ∧ (linePmAnswer rq s).twi = s.twi ∧ (linePmAnswer rq s).ports = s.ports ∧ (linePmAnswer rq s).pool = s.pool ∧ (linePmAnswer rq s).lanes = s.lanes ∧ (linePmAnswer rq s).map = s.map ∧ (linePmAnswer rq s).mon = s.mon ∧ (linePmAnswer rq s).alarms = s.alarms ∧ (linePmAnswer rq s).faults = s.faults ∧ (linePmAnswer rq s).test = s.test ∧ (linePmAnswer rq s).pins = s.pins ∧ (linePmAnswer rq s).free = s.free ∧ (linePmAnswer rq s).pending = s.pending := by
  simp only [linePmAnswer]; (repeat' split) <;> simp
@[simp] theorem linePmRead_keeps (rq : Req) (s : State) :
    (linePmRead rq s).twi = s.twi ∧ (linePmRead rq s).test = s.test ∧ (linePmRead rq s).pins = s.pins ∧ (linePmRead rq s).pending = s.pending := by
  simp only [linePmRead]; (repeat' split) <;> simp

end Sys2Proof.Machine
end

