-- ==== Sys2Proof/Laws/Commands.lean ====
section
/-! SUPPORT. How a Crown command runs once nothing stands in its way: its checks pass, the domains it needs are ON, and
its state checks pass. -/

namespace Sys2Proof.Machine

theorem firstFail_nil : firstFail [] = none := rfl

theorem firstFail_cons (c : Bool) (a : Answer) (cs : List (Bool × Answer)) :
    firstFail ((c, a) :: cs) = if c then some a else firstFail cs := rfl

/-- Parameter checks fail when one of their conditions holds. -/
theorem badAt_fst (cs : List (Bool × Nat)) : (badAt cs).1 = cs.any (·.1) := by
  simp only [badAt]
  induction cs with
  | nil => rfl
  | cons c cs ih =>
    obtain ⟨b, i⟩ := c
    cases b
    · simpa using ih
    · simp

theorem firstFail_badAt (bs : List (Bool × Nat)) (cs : List (Bool × Answer)) (h : bs.any (·.1) = false) :
    firstFail (badAt bs :: cs) = firstFail cs := by
  have : (badAt bs).1 = false := (badAt_fst bs).trans h
  rcases hb : badAt bs with ⟨b, a⟩
  rw [hb] at this
  simp only at this
  simp [firstFail, this]

/-- A first access to a domain that is ON changes nothing. -/
theorem accessWake_on (d : Dom) (s : State) (h : isOn s d = true) : accessWake d s = s := by
  simp [accessWake, h]

theorem wakeNeeds_on (ds : List Dom) (s : State) (h : ∀ d ∈ ds, isOn s d = true) : wakeNeeds ds s = s := by
  unfold wakeNeeds eachOf
  induction ds with
  | nil => rfl
  | cons d ds ih =>
    rw [List.foldl_cons, accessWake_on d s (h d List.mem_cons_self)]
    exact ih fun x hx => h x (List.mem_cons_of_mem _ hx)

theorem domFail_on (s : State) (d : Dom) (h : isOn s d = true) (h' : inDown s d = false) : domFail s d = none := by
  simp [domFail, h, h']

theorem needs_on (ds : List Dom) (s : State) (h : ∀ d ∈ ds, isOn s d = true ∧ inDown s d = false) :
    ds.findSome? (domFail s) = none := by
  rw [List.findSome?_eq_none_iff]
  exact fun d hd => domFail_on s d (h d hd).1 (h d hd).2

/-- A command whose checks pass and whose domains are ON acts by its body alone. -/
theorem command_runs (op : Nat) (rq : Req) (cs : List (Bool × Answer)) (sts : State → List (Bool × Answer))
    (body : State → State) (s : State) (hc : firstFail cs = none)
    (hd : ∀ d ∈ needsOf op rq.params, isOn s d = true ∧ inDown s d = false) (hs : firstFail (sts s) = none) :
    command op rq cs sts body s = body s := by
  unfold command
  rw [hc]
  simp only [needs_on _ s hd, wakeNeeds_on _ s fun d h => (hd d h).1, hs]

theorem commandOk_runs (op : Nat) (rq : Req) (cs : List (Bool × Answer)) (sts : State → List (Bool × Answer))
    (body : State → State) (s : State) (hc : firstFail cs = none)
    (hd : ∀ d ∈ needsOf op rq.params, isOn s d = true ∧ inDown s d = false) (hs : firstFail (sts s) = none) :
    commandOk op rq cs sts body s = reply op rq (okay []) (body s) :=
  command_runs op rq cs sts _ s hc hd hs

/-- A report whose checks pass and whose domains are ON waits for its boundary or answers at once. -/
theorem report_runs (a : ReportAt) (op : Nat) (rq : Req) (cs : List (Bool × Answer)) (answer : State → State)
    (s : State) (hc : firstFail cs = none) (hd : ∀ d ∈ needsOf op rq.params, isOn s d = true ∧ inDown s d = false) :
    report a op rq cs answer s = awaitReport a op rq answer s :=
  command_runs op rq cs _ _ s hc hd rfl

/-- Where LDn of its boundary's port is ON, a report is put at the end of those that wait. -/
theorem awaitReport_waits (a : ReportAt) (op : Nat) (rq : Req) (answer : State → State) (s : State)
    (h : isOn s (.ld (refPort (reportRef s a))) = true) :
    awaitReport a op rq answer s =
      taken rq (modSys (fun y => { y with reports := y.reports ++ [{ at_ := a, opcode := op, rq := rq }] }) s) := by
  simp [awaitReport, h]

/-- Where that domain is not ON, a report answers at once. -/
theorem awaitReport_now (a : ReportAt) (op : Nat) (rq : Req) (answer : State → State) (s : State)
    (h : isOn s (.ld (refPort (reportRef s a))) = false) : awaitReport a op rq answer s = answer s := by
  simp [awaitReport, h]

end Sys2Proof.Machine
end

