-- ==== Sys2Proof/Laws/FrameLine.lean ====
section
/-! SUPPORT. What the line side and training leave alone, operation by operation. -/

namespace Sys2Proof.Machine

@[simp] theorem muteNFall_keeps (lowNs : Nat) (midActs : Bool) (s : State) :
    (muteNFall lowNs midActs s).sys = s.sys ∧ (muteNFall lowNs midActs s).power = s.power ∧ (muteNFall lowNs midActs s).mbx = s.mbx ∧ (muteNFall lowNs midActs s).twi = s.twi ∧ (muteNFall lowNs midActs s).pool = s.pool ∧ (muteNFall lowNs midActs s).lanes = s.lanes ∧ (muteNFall lowNs midActs s).map = s.map ∧ (muteNFall lowNs midActs s).dial = s.dial ∧ (muteNFall lowNs midActs s).mon = s.mon ∧ (muteNFall lowNs midActs s).alarms = s.alarms ∧ (muteNFall lowNs midActs s).faults = s.faults ∧ (muteNFall lowNs midActs s).jrx = s.jrx ∧ (muteNFall lowNs midActs s).test = s.test ∧ (muteNFall lowNs midActs s).bulk = s.bulk ∧ (muteNFall lowNs midActs s).free = s.free ∧ (muteNFall lowNs midActs s).pending = s.pending := by
  simp only [muteNFall]; (repeat' split) <;> simp
@[simp] theorem muteNRise_keeps (s : State) :
    (muteNRise s).sys = s.sys ∧ (muteNRise s).power = s.power ∧ (muteNRise s).mbx = s.mbx ∧ (muteNRise s).twi = s.twi ∧ (muteNRise s).ports = s.ports ∧ (muteNRise s).pool = s.pool ∧ (muteNRise s).lanes = s.lanes ∧ (muteNRise s).map = s.map ∧ (muteNRise s).dial = s.dial ∧ (muteNRise s).mon = s.mon ∧ (muteNRise s).alarms = s.alarms ∧ (muteNRise s).faults = s.faults ∧ (muteNRise s).jrx = s.jrx ∧ (muteNRise s).test = s.test ∧ (muteNRise s).bulk = s.bulk ∧ (muteNRise s).free = s.free ∧ (muteNRise s).pending = s.pending := by
  simp only [muteNRise]; (repeat' split) <;> simp
@[simp] theorem muteNHighTimer_keeps (s : State) :
    (muteNHighTimer s).sys = s.sys ∧ (muteNHighTimer s).power = s.power ∧ (muteNHighTimer s).mbx = s.mbx ∧ (muteNHighTimer s).twi = s.twi ∧ (muteNHighTimer s).ports = s.ports ∧ (muteNHighTimer s).pool = s.pool ∧ (muteNHighTimer s).lanes = s.lanes ∧ (muteNHighTimer s).map = s.map ∧ (muteNHighTimer s).dial = s.dial ∧ (muteNHighTimer s).mon = s.mon ∧ (muteNHighTimer s).alarms = s.alarms ∧ (muteNHighTimer s).faults = s.faults ∧ (muteNHighTimer s).jrx = s.jrx ∧ (muteNHighTimer s).test = s.test ∧ (muteNHighTimer s).bulk = s.bulk ∧ (muteNHighTimer s).free = s.free ∧ (muteNHighTimer s).pending = s.pending := by
  simp only [muteNHighTimer]; (repeat' split) <;> simp
@[simp] theorem lineMute_keeps (rq : Req) (s : State) :
    (lineMute rq s).twi = s.twi ∧ (lineMute rq s).test = s.test ∧ (lineMute rq s).pins = s.pins ∧ (lineMute rq s).bulk = s.bulk ∧ (lineMute rq s).pending = s.pending := by
  simp only [lineMute]; (repeat' split) <;> simp
@[simp] theorem drvEnFall_keeps (p : LPort) (s : State) :
    (drvEnFall p s).sys = s.sys ∧ (drvEnFall p s).power = s.power ∧ (drvEnFall p s).mbx = s.mbx ∧ (drvEnFall p s).twi = s.twi ∧ (drvEnFall p s).pool = s.pool ∧ (drvEnFall p s).lanes = s.lanes ∧ (drvEnFall p s).map = s.map ∧ (drvEnFall p s).dial = s.dial ∧ (drvEnFall p s).mon = s.mon ∧ (drvEnFall p s).alarms = s.alarms ∧ (drvEnFall p s).faults = s.faults ∧ (drvEnFall p s).jrx = s.jrx ∧ (drvEnFall p s).test = s.test ∧ (drvEnFall p s).pins = s.pins ∧ (drvEnFall p s).bulk = s.bulk ∧ (drvEnFall p s).free = s.free ∧ (drvEnFall p s).pending = s.pending := by
  simp only [drvEnFall]; (repeat' split) <;> simp
@[simp] theorem tDrvExpiry_keeps (p : LPort) (s : State) :
    (tDrvExpiry p s).sys = s.sys ∧ (tDrvExpiry p s).power = s.power ∧ (tDrvExpiry p s).mbx = s.mbx ∧ (tDrvExpiry p s).twi = s.twi ∧ (tDrvExpiry p s).pool = s.pool ∧ (tDrvExpiry p s).lanes = s.lanes ∧ (tDrvExpiry p s).map = s.map ∧ (tDrvExpiry p s).dial = s.dial ∧ (tDrvExpiry p s).mon = s.mon ∧ (tDrvExpiry p s).alarms = s.alarms ∧ (tDrvExpiry p s).faults = s.faults ∧ (tDrvExpiry p s).jrx = s.jrx ∧ (tDrvExpiry p s).test = s.test ∧ (tDrvExpiry p s).pins = s.pins ∧ (tDrvExpiry p s).bulk = s.bulk ∧ (tDrvExpiry p s).free = s.free ∧ (tDrvExpiry p s).pending = s.pending := by
  simp only [tDrvExpiry]; (repeat' split) <;> simp
@[simp] theorem clockApply_keeps (p : LPort) (sclk : BitVec 12) (s : State) :
    (clockApply p sclk s).sys = s.sys ∧ (clockApply p sclk s).power = s.power ∧ (clockApply p sclk s).twi = s.twi ∧ (clockApply p sclk s).lanes = s.lanes ∧ (clockApply p sclk s).mon = s.mon ∧ (clockApply p sclk s).faults = s.faults ∧ (clockApply p sclk s).test = s.test ∧ (clockApply p sclk s).pins = s.pins ∧ (clockApply p sclk s).bulk = s.bulk ∧ (clockApply p sclk s).free = s.free ∧ (clockApply p sclk s).pending = s.pending := by
  simp only [clockApply]; (repeat' split) <;> simp
@[simp] theorem clockChange_keeps (p : LPort) (sclk : BitVec 12) (s : State) :
    (clockChange p sclk s).sys = s.sys ∧ (clockChange p sclk s).power = s.power ∧ (clockChange p sclk s).twi = s.twi ∧ (clockChange p sclk s).lanes = s.lanes ∧ (clockChange p sclk s).mon = s.mon ∧ (clockChange p sclk s).faults = s.faults ∧ (clockChange p sclk s).test = s.test ∧ (clockChange p sclk s).pins = s.pins ∧ (clockChange p sclk s).bulk = s.bulk ∧ (clockChange p sclk s).free = s.free ∧ (clockChange p sclk s).pending = s.pending := by
  simp only [clockChange]; (repeat' split) <;> simp
@[simp] theorem clockDue_keeps (p : LPort) (s : State) :
    (clockDue p s).sys = s.sys ∧ (clockDue p s).power = s.power ∧ (clockDue p s).twi = s.twi ∧ (clockDue p s).lanes = s.lanes ∧ (clockDue p s).mon = s.mon ∧ (clockDue p s).faults = s.faults ∧ (clockDue p s).test = s.test ∧ (clockDue p s).pins = s.pins ∧ (clockDue p s).bulk = s.bulk ∧ (clockDue p s).free = s.free ∧ (clockDue p s).pending = s.pending := by
  simp only [clockDue]; (repeat' split) <;> simp
@[simp] theorem synthLock_keeps (p : LPort) (s : State) :
    (synthLock p s).sys = s.sys ∧ (synthLock p s).power = s.power ∧ (synthLock p s).twi = s.twi ∧ (synthLock p s).lanes = s.lanes ∧ (synthLock p s).map = s.map ∧ (synthLock p s).dial = s.dial ∧ (synthLock p s).mon = s.mon ∧ (synthLock p s).faults = s.faults ∧ (synthLock p s).test = s.test ∧ (synthLock p s).pins = s.pins ∧ (synthLock p s).bulk = s.bulk ∧ (synthLock p s).free = s.free ∧ (synthLock p s).pending = s.pending := by
  simp only [synthLock]; (repeat' split) <;> simp
@[simp] theorem unlock_keeps (p : LPort) (s : State) :
    (unlock p s).sys = s.sys ∧ (unlock p s).power = s.power ∧ (unlock p s).twi = s.twi ∧ (unlock p s).lanes = s.lanes ∧ (unlock p s).map = s.map ∧ (unlock p s).dial = s.dial ∧ (unlock p s).mon = s.mon ∧ (unlock p s).faults = s.faults ∧ (unlock p s).test = s.test ∧ (unlock p s).pins = s.pins ∧ (unlock p s).bulk = s.bulk ∧ (unlock p s).free = s.free ∧ (unlock p s).pending = s.pending := by
  simp only [unlock]; (repeat' split) <;> simp
@[simp] theorem synthUnlock_keeps (p : LPort) (s : State) :
    (synthUnlock p s).sys = s.sys ∧ (synthUnlock p s).power = s.power ∧ (synthUnlock p s).twi = s.twi ∧ (synthUnlock p s).lanes = s.lanes ∧ (synthUnlock p s).map = s.map ∧ (synthUnlock p s).dial = s.dial ∧ (synthUnlock p s).mon = s.mon ∧ (synthUnlock p s).faults = s.faults ∧ (synthUnlock p s).test = s.test ∧ (synthUnlock p s).pins = s.pins ∧ (synthUnlock p s).bulk = s.bulk ∧ (synthUnlock p s).free = s.free ∧ (synthUnlock p s).pending = s.pending := by
  simp only [synthUnlock]; (repeat' split) <;> simp
@[simp] theorem sampleClockChangeIntervalEnd_keeps (p : LPort) (s : State) :
    (sampleClockChangeIntervalEnd p s).sys = s.sys ∧ (sampleClockChangeIntervalEnd p s).power = s.power ∧ (sampleClockChangeIntervalEnd p s).twi = s.twi ∧ (sampleClockChangeIntervalEnd p s).lanes = s.lanes ∧ (sampleClockChangeIntervalEnd p s).map = s.map ∧ (sampleClockChangeIntervalEnd p s).dial = s.dial ∧ (sampleClockChangeIntervalEnd p s).mon = s.mon ∧ (sampleClockChangeIntervalEnd p s).faults = s.faults ∧ (sampleClockChangeIntervalEnd p s).test = s.test ∧ (sampleClockChangeIntervalEnd p s).pins = s.pins ∧ (sampleClockChangeIntervalEnd p s).bulk = s.bulk ∧ (sampleClockChangeIntervalEnd p s).free = s.free ∧ (sampleClockChangeIntervalEnd p s).pending = s.pending := by
  simp only [sampleClockChangeIntervalEnd]; (repeat' split) <;> simp
@[simp] theorem synthRange_keeps (p : LPort) (s : State) :
    (synthRange p s).sys = s.sys ∧ (synthRange p s).power = s.power ∧ (synthRange p s).twi = s.twi ∧ (synthRange p s).lanes = s.lanes ∧ (synthRange p s).map = s.map ∧ (synthRange p s).dial = s.dial ∧ (synthRange p s).mon = s.mon ∧ (synthRange p s).faults = s.faults ∧ (synthRange p s).test = s.test ∧ (synthRange p s).pins = s.pins ∧ (synthRange p s).bulk = s.bulk ∧ (synthRange p s).free = s.free ∧ (synthRange p s).pending = s.pending := by
  simp only [synthRange]; (repeat' split) <;> simp
@[simp] theorem synthFail_keeps (p : LPort) (s : State) :
    (synthFail p s).free = s.free ∧ (synthFail p s).pending = s.pending := by
  simp only [synthFail]; (repeat' split) <;> simp
@[simp] theorem lightDetectAssert_keeps (p : LPort) (s : State) :
    (lightDetectAssert p s).sys = s.sys ∧ (lightDetectAssert p s).power = s.power ∧ (lightDetectAssert p s).twi = s.twi ∧ (lightDetectAssert p s).lanes = s.lanes ∧ (lightDetectAssert p s).map = s.map ∧ (lightDetectAssert p s).dial = s.dial ∧ (lightDetectAssert p s).mon = s.mon ∧ (lightDetectAssert p s).faults = s.faults ∧ (lightDetectAssert p s).test = s.test ∧ (lightDetectAssert p s).pins = s.pins ∧ (lightDetectAssert p s).bulk = s.bulk ∧ (lightDetectAssert p s).free = s.free ∧ (lightDetectAssert p s).pending = s.pending := by
  simp only [lightDetectAssert]; (repeat' split) <;> simp
@[simp] theorem lightDetectDeassert_keeps (p : LPort) (s : State) :
    (lightDetectDeassert p s).sys = s.sys ∧ (lightDetectDeassert p s).twi = s.twi ∧ (lightDetectDeassert p s).lanes = s.lanes ∧ (lightDetectDeassert p s).mon = s.mon ∧ (lightDetectDeassert p s).faults = s.faults ∧ (lightDetectDeassert p s).test = s.test ∧ (lightDetectDeassert p s).pins = s.pins ∧ (lightDetectDeassert p s).bulk = s.bulk ∧ (lightDetectDeassert p s).free = s.free ∧ (lightDetectDeassert p s).pending = s.pending := by
  simp only [lightDetectDeassert]; (repeat' split) <;> simp
@[simp] theorem adcLevelLow_keeps (p : LPort) (lane : CLane) (raised : Bool) (s : State) :
    (adcLevelLow p lane raised s).sys = s.sys ∧ (adcLevelLow p lane raised s).power = s.power ∧ (adcLevelLow p lane raised s).twi = s.twi ∧ (adcLevelLow p lane raised s).lanes = s.lanes ∧ (adcLevelLow p lane raised s).map = s.map ∧ (adcLevelLow p lane raised s).dial = s.dial ∧ (adcLevelLow p lane raised s).mon = s.mon ∧ (adcLevelLow p lane raised s).faults = s.faults ∧ (adcLevelLow p lane raised s).test = s.test ∧ (adcLevelLow p lane raised s).pins = s.pins ∧ (adcLevelLow p lane raised s).bulk = s.bulk ∧ (adcLevelLow p lane raised s).free = s.free ∧ (adcLevelLow p lane raised s).pending = s.pending := by
  simp only [adcLevelLow]; (repeat' split) <;> simp
@[simp] theorem adcLevelHigh_keeps (p : LPort) (lane : CLane) (raised : Bool) (s : State) :
    (adcLevelHigh p lane raised s).sys = s.sys ∧ (adcLevelHigh p lane raised s).power = s.power ∧ (adcLevelHigh p lane raised s).twi = s.twi ∧ (adcLevelHigh p lane raised s).lanes = s.lanes ∧ (adcLevelHigh p lane raised s).map = s.map ∧ (adcLevelHigh p lane raised s).dial = s.dial ∧ (adcLevelHigh p lane raised s).mon = s.mon ∧ (adcLevelHigh p lane raised s).faults = s.faults ∧ (adcLevelHigh p lane raised s).test = s.test ∧ (adcLevelHigh p lane raised s).pins = s.pins ∧ (adcLevelHigh p lane raised s).bulk = s.bulk ∧ (adcLevelHigh p lane raised s).free = s.free ∧ (adcLevelHigh p lane raised s).pending = s.pending := by
  simp only [adcLevelHigh]; (repeat' split) <;> simp

@[simp] theorem enterImplicit_keeps (opcode : Nat) (rq : Req) (params data : List Word) (r : RefCode) (s : State) :
    (enterImplicit opcode rq params data r s).power = s.power ∧ (enterImplicit opcode rq params data r s).twi = s.twi ∧ (enterImplicit opcode rq params data r s).ports = s.ports ∧ (enterImplicit opcode rq params data r s).pool = s.pool ∧ (enterImplicit opcode rq params data r s).lanes = s.lanes ∧ (enterImplicit opcode rq params data r s).map = s.map ∧ (enterImplicit opcode rq params data r s).mon = s.mon ∧ (enterImplicit opcode rq params data r s).alarms = s.alarms ∧ (enterImplicit opcode rq params data r s).faults = s.faults ∧ (enterImplicit opcode rq params data r s).test = s.test ∧ (enterImplicit opcode rq params data r s).pins = s.pins ∧ (enterImplicit opcode rq params data r s).bulk = s.bulk ∧ (enterImplicit opcode rq params data r s).pending = s.pending := by
  simp only [enterImplicit]; (repeat' split) <;> simp

@[simp] theorem rxSet_keeps (p : LPort) (i : Fin 8) (w : Word) (s : State) :
    (rxSet p i w s).sys = s.sys ∧ (rxSet p i w s).power = s.power ∧ (rxSet p i w s).mbx = s.mbx ∧ (rxSet p i w s).twi = s.twi ∧ (rxSet p i w s).pool = s.pool ∧ (rxSet p i w s).lanes = s.lanes ∧ (rxSet p i w s).map = s.map ∧ (rxSet p i w s).dial = s.dial ∧ (rxSet p i w s).mon = s.mon ∧ (rxSet p i w s).alarms = s.alarms ∧ (rxSet p i w s).faults = s.faults ∧ (rxSet p i w s).jrx = s.jrx ∧ (rxSet p i w s).test = s.test ∧ (rxSet p i w s).pins = s.pins ∧ (rxSet p i w s).bulk = s.bulk ∧ (rxSet p i w s).free = s.free ∧ (rxSet p i w s).pending = s.pending := by
  simp only [rxSet]; (repeat' split) <;> simp
@[simp] theorem rxSetSel_keeps (p : LPort) (ps : List Word) (is : List (Fin 8)) (s : State) :
    (rxSetSel p ps is s).sys = s.sys ∧ (rxSetSel p ps is s).power = s.power ∧ (rxSetSel p ps is s).mbx = s.mbx ∧ (rxSetSel p ps is s).twi = s.twi ∧ (rxSetSel p ps is s).pool = s.pool ∧ (rxSetSel p ps is s).lanes = s.lanes ∧ (rxSetSel p ps is s).map = s.map ∧ (rxSetSel p ps is s).dial = s.dial ∧ (rxSetSel p ps is s).mon = s.mon ∧ (rxSetSel p ps is s).alarms = s.alarms ∧ (rxSetSel p ps is s).faults = s.faults ∧ (rxSetSel p ps is s).jrx = s.jrx ∧ (rxSetSel p ps is s).test = s.test ∧ (rxSetSel p ps is s).pins = s.pins ∧ (rxSetSel p ps is s).bulk = s.bulk ∧ (rxSetSel p ps is s).free = s.free ∧ (rxSetSel p ps is s).pending = s.pending := by
  simp only [rxSetSel]; (repeat' split) <;> simp
@[simp] theorem rxStoreSel_keeps (p : LPort) (ps : List Word) (is : List (Fin 8)) (s : State) :
    (rxStoreSel p ps is s).sys = s.sys ∧ (rxStoreSel p ps is s).power = s.power ∧ (rxStoreSel p ps is s).mbx = s.mbx ∧ (rxStoreSel p ps is s).twi = s.twi ∧ (rxStoreSel p ps is s).pool = s.pool ∧ (rxStoreSel p ps is s).lanes = s.lanes ∧ (rxStoreSel p ps is s).map = s.map ∧ (rxStoreSel p ps is s).dial = s.dial ∧ (rxStoreSel p ps is s).mon = s.mon ∧ (rxStoreSel p ps is s).alarms = s.alarms ∧ (rxStoreSel p ps is s).faults = s.faults ∧ (rxStoreSel p ps is s).jrx = s.jrx ∧ (rxStoreSel p ps is s).test = s.test ∧ (rxStoreSel p ps is s).pins = s.pins ∧ (rxStoreSel p ps is s).bulk = s.bulk ∧ (rxStoreSel p ps is s).free = s.free ∧ (rxStoreSel p ps is s).pending = s.pending := by
  refine ⟨?_, ?_, ?_, ?_, ?_, ?_, ?_, ?_, ?_, ?_, ?_, ?_, ?_, ?_, ?_, ?_, ?_⟩ <;> (simp only [rxStoreSel]; repeat' first | with_reducible rfl | (simp; done) | with_reducible refine (eachOf_sys _ _ _ ?_).trans ?_ | with_reducible refine (eachOf_power _ _ _ ?_).trans ?_ | with_reducible refine (eachOf_mbx _ _ _ ?_).trans ?_ | with_reducible refine (eachOf_twi _ _ _ ?_).trans ?_ | with_reducible refine (eachOf_pool _ _ _ ?_).trans ?_ | with_reducible refine (eachOf_lanes _ _ _ ?_).trans ?_ | with_reducible refine (eachOf_map _ _ _ ?_).trans ?_ | with_reducible refine (eachOf_dial _ _ _ ?_).trans ?_ | with_reducible refine (eachOf_mon _ _ _ ?_).trans ?_ | with_reducible refine (eachOf_alarms _ _ _ ?_).trans ?_ | with_reducible refine (eachOf_faults _ _ _ ?_).trans ?_ | with_reducible refine (eachOf_jrx _ _ _ ?_).trans ?_ | with_reducible refine (eachOf_test _ _ _ ?_).trans ?_ | with_reducible refine (eachOf_pins _ _ _ ?_).trans ?_ | with_reducible refine (eachOf_bulk _ _ _ ?_).trans ?_ | with_reducible refine (eachOf_free _ _ _ ?_).trans ?_ | with_reducible refine (eachOf_pending _ _ _ ?_).trans ?_ | with_reducible refine (eachPort_sys _ _ ?_).trans ?_ | with_reducible refine (eachPort_power _ _ ?_).trans ?_ | with_reducible refine (eachPort_mbx _ _ ?_).trans ?_ | with_reducible refine (eachPort_twi _ _ ?_).trans ?_ | with_reducible refine (eachPort_pool _ _ ?_).trans ?_ | with_reducible refine (eachPort_lanes _ _ ?_).trans ?_ | with_reducible refine (eachPort_map _ _ ?_).trans ?_ | with_reducible refine (eachPort_dial _ _ ?_).trans ?_ | with_reducible refine (eachPort_mon _ _ ?_).trans ?_ | with_reducible refine (eachPort_alarms _ _ ?_).trans ?_ | with_reducible refine (eachPort_faults _ _ ?_).trans ?_ | with_reducible refine (eachPort_jrx _ _ ?_).trans ?_ | with_reducible refine (eachPort_test _ _ ?_).trans ?_ | with_reducible refine (eachPort_pins _ _ ?_).trans ?_ | with_reducible refine (eachPort_bulk _ _ ?_).trans ?_ | with_reducible refine (eachPort_free _ _ ?_).trans ?_ | with_reducible refine (eachPort_pending _ _ ?_).trans ?_ | with_reducible refine (doIf_sys _ _ _ ?_).trans ?_ | with_reducible refine (doIf_power _ _ _ ?_).trans ?_ | with_reducible refine (doIf_mbx _ _ _ ?_).trans ?_ | with_reducible refine (doIf_twi _ _ _ ?_).trans ?_ | with_reducible refine (doIf_pool _ _ _ ?_).trans ?_ | with_reducible refine (doIf_lanes _ _ _ ?_).trans ?_ | with_reducible refine (doIf_map _ _ _ ?_).trans ?_ | with_reducible refine (doIf_dial _ _ _ ?_).trans ?_ | with_reducible refine (doIf_mon _ _ _ ?_).trans ?_ | with_reducible refine (doIf_alarms _ _ _ ?_).trans ?_ | with_reducible refine (doIf_faults _ _ _ ?_).trans ?_ | with_reducible refine (doIf_jrx _ _ _ ?_).trans ?_ | with_reducible refine (doIf_test _ _ _ ?_).trans ?_ | with_reducible refine (doIf_pins _ _ _ ?_).trans ?_ | with_reducible refine (doIf_bulk _ _ _ ?_).trans ?_ | with_reducible refine (doIf_free _ _ _ ?_).trans ?_ | with_reducible refine (doIf_pending _ _ _ ?_).trans ?_ | with_reducible refine (command_twi _ _ _ _ _ _ ?_).trans ?_ | with_reducible refine (command_test _ _ _ _ _ _ ?_).trans ?_ | with_reducible refine (command_pins _ _ _ _ _ _ ?_).trans ?_ | with_reducible refine (command_bulk _ _ _ _ _ _ ?_).trans ?_ | with_reducible refine (command_pending _ _ _ _ _ _ ?_).trans ?_ | with_reducible refine (commandOk_twi _ _ _ _ _ _ ?_).trans ?_ | with_reducible refine (commandOk_test _ _ _ _ _ _ ?_).trans ?_ | with_reducible refine (commandOk_pins _ _ _ _ _ _ ?_).trans ?_ | with_reducible refine (commandOk_bulk _ _ _ _ _ _ ?_).trans ?_ | with_reducible refine (commandOk_pending _ _ _ _ _ _ ?_).trans ?_ | with_reducible refine (awaitReport_power _ _ _ _ _ ?_).trans ?_ | with_reducible refine (awaitReport_twi _ _ _ _ _ ?_).trans ?_ | with_reducible refine (awaitReport_pool _ _ _ _ _ ?_).trans ?_ | with_reducible refine (awaitReport_lanes _ _ _ _ _ ?_).trans ?_ | with_reducible refine (awaitReport_map _ _ _ _ _ ?_).trans ?_ | with_reducible refine (awaitReport_dial _ _ _ _ _ ?_).trans ?_ | with_reducible refine (awaitReport_mon _ _ _ _ _ ?_).trans ?_ | with_reducible refine (awaitReport_alarms _ _ _ _ _ ?_).trans ?_ | with_reducible refine (awaitReport_faults _ _ _ _ _ ?_).trans ?_ | with_reducible refine (awaitReport_jrx _ _ _ _ _ ?_).trans ?_ | with_reducible refine (awaitReport_test _ _ _ _ _ ?_).trans ?_ | with_reducible refine (awaitReport_pins _ _ _ _ _ ?_).trans ?_ | with_reducible refine (awaitReport_bulk _ _ _ _ _ ?_).trans ?_ | with_reducible refine (awaitReport_free _ _ _ _ _ ?_).trans ?_ | with_reducible refine (awaitReport_pending _ _ _ _ _ ?_).trans ?_ | with_reducible refine (report_twi _ _ _ _ _ _ ?_).trans ?_ | with_reducible refine (report_test _ _ _ _ _ _ ?_).trans ?_ | with_reducible refine (report_pins _ _ _ _ _ _ ?_).trans ?_ | with_reducible refine (report_bulk _ _ _ _ _ _ ?_).trans ?_ | with_reducible refine (report_pending _ _ _ _ _ _ ?_).trans ?_ | intro _ | split | simp)
@[simp] theorem rxExact_keeps (ps : List Word) (s : State) :
    (rxExact ps s).sys = s.sys ∧ (rxExact ps s).power = s.power ∧ (rxExact ps s).mbx = s.mbx ∧ (rxExact ps s).twi = s.twi ∧ (rxExact ps s).pool = s.pool ∧ (rxExact ps s).lanes = s.lanes ∧ (rxExact ps s).map = s.map ∧ (rxExact ps s).dial = s.dial ∧ (rxExact ps s).mon = s.mon ∧ (rxExact ps s).alarms = s.alarms ∧ (rxExact ps s).faults = s.faults ∧ (rxExact ps s).jrx = s.jrx ∧ (rxExact ps s).test = s.test ∧ (rxExact ps s).pins = s.pins ∧ (rxExact ps s).bulk = s.bulk ∧ (rxExact ps s).free = s.free ∧ (rxExact ps s).pending = s.pending := by
  simp only [rxExact]; (repeat' split) <;> simp
@[simp] theorem restartAcq_keeps (p : LPort) (s : State) :
    (restartAcq p s).sys = s.sys ∧ (restartAcq p s).power = s.power ∧ (restartAcq p s).twi = s.twi ∧ (restartAcq p s).lanes = s.lanes ∧ (restartAcq p s).map = s.map ∧ (restartAcq p s).mon = s.mon ∧ (restartAcq p s).faults = s.faults ∧ (restartAcq p s).test = s.test ∧ (restartAcq p s).pins = s.pins ∧ (restartAcq p s).bulk = s.bulk ∧ (restartAcq p s).free = s.free ∧ (restartAcq p s).pending = s.pending := by
  simp only [restartAcq]; (repeat' split) <;> simp
@[simp] theorem lineRxConfig_keeps (rq : Req) (s : State) :
    (lineRxConfig rq s).twi = s.twi ∧ (lineRxConfig rq s).test = s.test ∧ (lineRxConfig rq s).pins = s.pins ∧ (lineRxConfig rq s).bulk = s.bulk ∧ (lineRxConfig rq s).pending = s.pending := by
  refine ⟨?_, ?_, ?_, ?_, ?_⟩ <;> (simp only [lineRxConfig]; repeat' first | with_reducible rfl | (simp; done) | with_reducible refine (eachOf_twi _ _ _ ?_).trans ?_ | with_reducible refine (eachOf_test _ _ _ ?_).trans ?_ | with_reducible refine (eachOf_pins _ _ _ ?_).trans ?_ | with_reducible refine (eachOf_bulk _ _ _ ?_).trans ?_ | with_reducible refine (eachOf_pending _ _ _ ?_).trans ?_ | with_reducible refine (eachPort_twi _ _ ?_).trans ?_ | with_reducible refine (eachPort_test _ _ ?_).trans ?_ | with_reducible refine (eachPort_pins _ _ ?_).trans ?_ | with_reducible refine (eachPort_bulk _ _ ?_).trans ?_ | with_reducible refine (eachPort_pending _ _ ?_).trans ?_ | with_reducible refine (doIf_twi _ _ _ ?_).trans ?_ | with_reducible refine (doIf_test _ _ _ ?_).trans ?_ | with_reducible refine (doIf_pins _ _ _ ?_).trans ?_ | with_reducible refine (doIf_bulk _ _ _ ?_).trans ?_ | with_reducible refine (doIf_pending _ _ _ ?_).trans ?_ | with_reducible refine (command_twi _ _ _ _ _ _ ?_).trans ?_ | with_reducible refine (command_test _ _ _ _ _ _ ?_).trans ?_ | with_reducible refine (command_pins _ _ _ _ _ _ ?_).trans ?_ | with_reducible refine (command_bulk _ _ _ _ _ _ ?_).trans ?_ | with_reducible refine (command_pending _ _ _ _ _ _ ?_).trans ?_ | with_reducible refine (commandOk_twi _ _ _ _ _ _ ?_).trans ?_ | with_reducible refine (commandOk_test _ _ _ _ _ _ ?_).trans ?_ | with_reducible refine (commandOk_pins _ _ _ _ _ _ ?_).trans ?_ | with_reducible refine (commandOk_bulk _ _ _ _ _ _ ?_).trans ?_ | with_reducible refine (commandOk_pending _ _ _ _ _ _ ?_).trans ?_ | with_reducible refine (awaitReport_twi _ _ _ _ _ ?_).trans ?_ | with_reducible refine (awaitReport_test _ _ _ _ _ ?_).trans ?_ | with_reducible refine (awaitReport_pins _ _ _ _ _ ?_).trans ?_ | with_reducible refine (awaitReport_bulk _ _ _ _ _ ?_).trans ?_ | with_reducible refine (awaitReport_pending _ _ _ _ _ ?_).trans ?_ | with_reducible refine (report_twi _ _ _ _ _ _ ?_).trans ?_ | with_reducible refine (report_test _ _ _ _ _ _ ?_).trans ?_ | with_reducible refine (report_pins _ _ _ _ _ _ ?_).trans ?_ | with_reducible refine (report_bulk _ _ _ _ _ _ ?_).trans ?_ | with_reducible refine (report_pending _ _ _ _ _ _ ?_).trans ?_ | intro _ | split | simp)
@[simp] theorem snapshot_keeps (p : LPort) (s : State) :
    (snapshot p s).sys = s.sys ∧ (snapshot p s).power = s.power ∧ (snapshot p s).mbx = s.mbx ∧ (snapshot p s).twi = s.twi ∧ (snapshot p s).pool = s.pool ∧ (snapshot p s).lanes = s.lanes ∧ (snapshot p s).map = s.map ∧ (snapshot p s).dial = s.dial ∧ (snapshot p s).mon = s.mon ∧ (snapshot p s).alarms = s.alarms ∧ (snapshot p s).faults = s.faults ∧ (snapshot p s).jrx = s.jrx ∧ (snapshot p s).test = s.test ∧ (snapshot p s).pins = s.pins ∧ (snapshot p s).bulk = s.bulk ∧ (snapshot p s).free = s.free ∧ (snapshot p s).pending = s.pending := by
  simp only [snapshot]; (repeat' split) <;> simp
@[simp] theorem raiseFo_keeps (p : LPort) (s : State) :
    (raiseFo p s).sys = s.sys ∧ (raiseFo p s).power = s.power ∧ (raiseFo p s).twi = s.twi ∧ (raiseFo p s).lanes = s.lanes ∧ (raiseFo p s).map = s.map ∧ (raiseFo p s).dial = s.dial ∧ (raiseFo p s).mon = s.mon ∧ (raiseFo p s).faults = s.faults ∧ (raiseFo p s).test = s.test ∧ (raiseFo p s).pins = s.pins ∧ (raiseFo p s).bulk = s.bulk ∧ (raiseFo p s).free = s.free ∧ (raiseFo p s).pending = s.pending := by
  simp only [raiseFo]; (repeat' split) <;> simp
@[simp] theorem acqFrequencyDone_keeps (p : LPort) (offset : Int) (s : State) :
    (acqFrequencyDone p offset s).sys = s.sys ∧ (acqFrequencyDone p offset s).power = s.power ∧ (acqFrequencyDone p offset s).twi = s.twi ∧ (acqFrequencyDone p offset s).lanes = s.lanes ∧ (acqFrequencyDone p offset s).map = s.map ∧ (acqFrequencyDone p offset s).dial = s.dial ∧ (acqFrequencyDone p offset s).mon = s.mon ∧ (acqFrequencyDone p offset s).faults = s.faults ∧ (acqFrequencyDone p offset s).test = s.test ∧ (acqFrequencyDone p offset s).pins = s.pins ∧ (acqFrequencyDone p offset s).bulk = s.bulk ∧ (acqFrequencyDone p offset s).free = s.free ∧ (acqFrequencyDone p offset s).pending = s.pending := by
  simp only [acqFrequencyDone]; (repeat' split) <;> simp
@[simp] theorem acqCdDone_keeps (p : LPort) (found : Option Int) (s : State) :
    (acqCdDone p found s).sys = s.sys ∧ (acqCdDone p found s).power = s.power ∧ (acqCdDone p found s).mbx = s.mbx ∧ (acqCdDone p found s).twi = s.twi ∧ (acqCdDone p found s).pool = s.pool ∧ (acqCdDone p found s).lanes = s.lanes ∧ (acqCdDone p found s).map = s.map ∧ (acqCdDone p found s).dial = s.dial ∧ (acqCdDone p found s).mon = s.mon ∧ (acqCdDone p found s).alarms = s.alarms ∧ (acqCdDone p found s).faults = s.faults ∧ (acqCdDone p found s).jrx = s.jrx ∧ (acqCdDone p found s).test = s.test ∧ (acqCdDone p found s).pins = s.pins ∧ (acqCdDone p found s).bulk = s.bulk ∧ (acqCdDone p found s).free = s.free ∧ (acqCdDone p found s).pending = s.pending := by
  simp only [acqCdDone]; (repeat' split) <;> simp
@[simp] theorem acqBlindDone_keeps (p : LPort) (s : State) :
    (acqBlindDone p s).sys = s.sys ∧ (acqBlindDone p s).power = s.power ∧ (acqBlindDone p s).mbx = s.mbx ∧ (acqBlindDone p s).twi = s.twi ∧ (acqBlindDone p s).pool = s.pool ∧ (acqBlindDone p s).lanes = s.lanes ∧ (acqBlindDone p s).map = s.map ∧ (acqBlindDone p s).dial = s.dial ∧ (acqBlindDone p s).mon = s.mon ∧ (acqBlindDone p s).alarms = s.alarms ∧ (acqBlindDone p s).faults = s.faults ∧ (acqBlindDone p s).jrx = s.jrx ∧ (acqBlindDone p s).test = s.test ∧ (acqBlindDone p s).pins = s.pins ∧ (acqBlindDone p s).bulk = s.bulk ∧ (acqBlindDone p s).free = s.free ∧ (acqBlindDone p s).pending = s.pending := by
  simp only [acqBlindDone]; (repeat' split) <;> simp
@[simp] theorem frameAlignment_keeps (p : LPort) (swapped conj : Bool) (s : State) :
    (frameAlignment p swapped conj s).sys = s.sys ∧ (frameAlignment p swapped conj s).power = s.power ∧ (frameAlignment p swapped conj s).twi = s.twi ∧ (frameAlignment p swapped conj s).lanes = s.lanes ∧ (frameAlignment p swapped conj s).map = s.map ∧ (frameAlignment p swapped conj s).dial = s.dial ∧ (frameAlignment p swapped conj s).mon = s.mon ∧ (frameAlignment p swapped conj s).faults = s.faults ∧ (frameAlignment p swapped conj s).test = s.test ∧ (frameAlignment p swapped conj s).pins = s.pins ∧ (frameAlignment p swapped conj s).bulk = s.bulk ∧ (frameAlignment p swapped conj s).free = s.free ∧ (frameAlignment p swapped conj s).pending = s.pending := by
  simp only [frameAlignment]; (repeat' split) <;> simp
@[simp] theorem frameAlignmentLoss_keeps (p : LPort) (s : State) :
    (frameAlignmentLoss p s).sys = s.sys ∧ (frameAlignmentLoss p s).power = s.power ∧ (frameAlignmentLoss p s).twi = s.twi ∧ (frameAlignmentLoss p s).lanes = s.lanes ∧ (frameAlignmentLoss p s).mon = s.mon ∧ (frameAlignmentLoss p s).faults = s.faults ∧ (frameAlignmentLoss p s).test = s.test ∧ (frameAlignmentLoss p s).pins = s.pins ∧ (frameAlignmentLoss p s).bulk = s.bulk ∧ (frameAlignmentLoss p s).free = s.free ∧ (frameAlignmentLoss p s).pending = s.pending := by
  simp only [frameAlignmentLoss]; (repeat' split) <;> simp
@[simp] theorem acqTimeout_keeps (p : LPort) (s : State) :
    (acqTimeout p s).sys = s.sys ∧ (acqTimeout p s).power = s.power ∧ (acqTimeout p s).twi = s.twi ∧ (acqTimeout p s).lanes = s.lanes ∧ (acqTimeout p s).map = s.map ∧ (acqTimeout p s).dial = s.dial ∧ (acqTimeout p s).mon = s.mon ∧ (acqTimeout p s).faults = s.faults ∧ (acqTimeout p s).test = s.test ∧ (acqTimeout p s).pins = s.pins ∧ (acqTimeout p s).bulk = s.bulk ∧ (acqTimeout p s).free = s.free ∧ (acqTimeout p s).pending = s.pending := by
  simp only [acqTimeout]; (repeat' split) <;> simp
@[simp] theorem carrierLockLoss_keeps (p : LPort) (s : State) :
    (carrierLockLoss p s).sys = s.sys ∧ (carrierLockLoss p s).power = s.power ∧ (carrierLockLoss p s).twi = s.twi ∧ (carrierLockLoss p s).lanes = s.lanes ∧ (carrierLockLoss p s).mon = s.mon ∧ (carrierLockLoss p s).faults = s.faults ∧ (carrierLockLoss p s).test = s.test ∧ (carrierLockLoss p s).pins = s.pins ∧ (carrierLockLoss p s).bulk = s.bulk ∧ (carrierLockLoss p s).free = s.free ∧ (carrierLockLoss p s).pending = s.pending := by
  simp only [carrierLockLoss]; (repeat' split) <;> simp
@[simp] theorem eqReconverge_keeps (p : LPort) (erased : Nat) (s : State) :
    (eqReconverge p erased s).sys = s.sys ∧ (eqReconverge p erased s).power = s.power ∧ (eqReconverge p erased s).mbx = s.mbx ∧ (eqReconverge p erased s).twi = s.twi ∧ (eqReconverge p erased s).pool = s.pool ∧ (eqReconverge p erased s).lanes = s.lanes ∧ (eqReconverge p erased s).map = s.map ∧ (eqReconverge p erased s).dial = s.dial ∧ (eqReconverge p erased s).mon = s.mon ∧ (eqReconverge p erased s).alarms = s.alarms ∧ (eqReconverge p erased s).faults = s.faults ∧ (eqReconverge p erased s).jrx = s.jrx ∧ (eqReconverge p erased s).test = s.test ∧ (eqReconverge p erased s).pins = s.pins ∧ (eqReconverge p erased s).bulk = s.bulk ∧ (eqReconverge p erased s).free = s.free ∧ (eqReconverge p erased s).pending = s.pending := by
  simp only [eqReconverge]; (repeat' split) <;> simp
@[simp] theorem pilotModeEnd_keeps (p : LPort) (erased : Nat) (s : State) :
    (pilotModeEnd p erased s).sys = s.sys ∧ (pilotModeEnd p erased s).power = s.power ∧ (pilotModeEnd p erased s).mbx = s.mbx ∧ (pilotModeEnd p erased s).twi = s.twi ∧ (pilotModeEnd p erased s).pool = s.pool ∧ (pilotModeEnd p erased s).lanes = s.lanes ∧ (pilotModeEnd p erased s).map = s.map ∧ (pilotModeEnd p erased s).dial = s.dial ∧ (pilotModeEnd p erased s).mon = s.mon ∧ (pilotModeEnd p erased s).alarms = s.alarms ∧ (pilotModeEnd p erased s).faults = s.faults ∧ (pilotModeEnd p erased s).jrx = s.jrx ∧ (pilotModeEnd p erased s).test = s.test ∧ (pilotModeEnd p erased s).pins = s.pins ∧ (pilotModeEnd p erased s).bulk = s.bulk ∧ (pilotModeEnd p erased s).free = s.free ∧ (pilotModeEnd p erased s).pending = s.pending := by
  simp only [pilotModeEnd]; (repeat' split) <;> simp
@[simp] theorem reconvergeFail_keeps (p : LPort) (erased : Nat) (s : State) :
    (reconvergeFail p erased s).sys = s.sys ∧ (reconvergeFail p erased s).power = s.power ∧ (reconvergeFail p erased s).twi = s.twi ∧ (reconvergeFail p erased s).lanes = s.lanes ∧ (reconvergeFail p erased s).mon = s.mon ∧ (reconvergeFail p erased s).faults = s.faults ∧ (reconvergeFail p erased s).test = s.test ∧ (reconvergeFail p erased s).pins = s.pins ∧ (reconvergeFail p erased s).bulk = s.bulk ∧ (reconvergeFail p erased s).free = s.free ∧ (reconvergeFail p erased s).pending = s.pending := by
  simp only [reconvergeFail]; (repeat' split) <;> simp
@[simp] theorem eqSpan_keeps (p : LPort) (s : State) :
    (eqSpan p s).sys = s.sys ∧ (eqSpan p s).power = s.power ∧ (eqSpan p s).twi = s.twi ∧ (eqSpan p s).ports = s.ports ∧ (eqSpan p s).lanes = s.lanes ∧ (eqSpan p s).map = s.map ∧ (eqSpan p s).dial = s.dial ∧ (eqSpan p s).mon = s.mon ∧ (eqSpan p s).faults = s.faults ∧ (eqSpan p s).test = s.test ∧ (eqSpan p s).pins = s.pins ∧ (eqSpan p s).bulk = s.bulk ∧ (eqSpan p s).free = s.free ∧ (eqSpan p s).pending = s.pending := by
  simp only [eqSpan]; (repeat' split) <;> simp
@[simp] theorem eqSpanClear_keeps (p : LPort) (s : State) :
    (eqSpanClear p s).sys = s.sys ∧ (eqSpanClear p s).power = s.power ∧ (eqSpanClear p s).twi = s.twi ∧ (eqSpanClear p s).ports = s.ports ∧ (eqSpanClear p s).lanes = s.lanes ∧ (eqSpanClear p s).map = s.map ∧ (eqSpanClear p s).dial = s.dial ∧ (eqSpanClear p s).mon = s.mon ∧ (eqSpanClear p s).faults = s.faults ∧ (eqSpanClear p s).test = s.test ∧ (eqSpanClear p s).pins = s.pins ∧ (eqSpanClear p s).bulk = s.bulk ∧ (eqSpanClear p s).free = s.free ∧ (eqSpanClear p s).pending = s.pending := by
  simp only [eqSpanClear]; (repeat' split) <;> simp
@[simp] theorem takeDgd_keeps (p : LPort) (dgd : BitVec 16) (s : State) :
    (takeDgd p dgd s).sys = s.sys ∧ (takeDgd p dgd s).power = s.power ∧ (takeDgd p dgd s).twi = s.twi ∧ (takeDgd p dgd s).lanes = s.lanes ∧ (takeDgd p dgd s).map = s.map ∧ (takeDgd p dgd s).dial = s.dial ∧ (takeDgd p dgd s).mon = s.mon ∧ (takeDgd p dgd s).faults = s.faults ∧ (takeDgd p dgd s).test = s.test ∧ (takeDgd p dgd s).pins = s.pins ∧ (takeDgd p dgd s).bulk = s.bulk ∧ (takeDgd p dgd s).free = s.free ∧ (takeDgd p dgd s).pending = s.pending := by
  simp only [takeDgd]; (repeat' split) <;> simp
@[simp] theorem takeTaps_keeps (p : LPort) (taps : List Word) (s : State) :
    (takeTaps p taps s).sys = s.sys ∧ (takeTaps p taps s).power = s.power ∧ (takeTaps p taps s).mbx = s.mbx ∧ (takeTaps p taps s).twi = s.twi ∧ (takeTaps p taps s).pool = s.pool ∧ (takeTaps p taps s).lanes = s.lanes ∧ (takeTaps p taps s).map = s.map ∧ (takeTaps p taps s).dial = s.dial ∧ (takeTaps p taps s).mon = s.mon ∧ (takeTaps p taps s).alarms = s.alarms ∧ (takeTaps p taps s).faults = s.faults ∧ (takeTaps p taps s).jrx = s.jrx ∧ (takeTaps p taps s).test = s.test ∧ (takeTaps p taps s).pins = s.pins ∧ (takeTaps p taps s).bulk = s.bulk ∧ (takeTaps p taps s).free = s.free ∧ (takeTaps p taps s).pending = s.pending := by
  simp only [takeTaps]; (repeat' split) <;> simp
@[simp] theorem trackCd_keeps (p : LPort) (residual : Int) (s : State) :
    (trackCd p residual s).sys = s.sys ∧ (trackCd p residual s).power = s.power ∧ (trackCd p residual s).twi = s.twi ∧ (trackCd p residual s).lanes = s.lanes ∧ (trackCd p residual s).map = s.map ∧ (trackCd p residual s).dial = s.dial ∧ (trackCd p residual s).mon = s.mon ∧ (trackCd p residual s).faults = s.faults ∧ (trackCd p residual s).test = s.test ∧ (trackCd p residual s).pins = s.pins ∧ (trackCd p residual s).bulk = s.bulk ∧ (trackCd p residual s).free = s.free ∧ (trackCd p residual s).pending = s.pending := by
  simp only [trackCd]; (repeat' split) <;> simp
@[simp] theorem adcMeasure_keeps (p : LPort) (levels : Vector (BitVec 16) 4) (clips : Vector Nat 4) (s : State) :
    (adcMeasure p levels clips s).sys = s.sys ∧ (adcMeasure p levels clips s).power = s.power ∧ (adcMeasure p levels clips s).mbx = s.mbx ∧ (adcMeasure p levels clips s).twi = s.twi ∧ (adcMeasure p levels clips s).pool = s.pool ∧ (adcMeasure p levels clips s).lanes = s.lanes ∧ (adcMeasure p levels clips s).map = s.map ∧ (adcMeasure p levels clips s).dial = s.dial ∧ (adcMeasure p levels clips s).mon = s.mon ∧ (adcMeasure p levels clips s).alarms = s.alarms ∧ (adcMeasure p levels clips s).faults = s.faults ∧ (adcMeasure p levels clips s).jrx = s.jrx ∧ (adcMeasure p levels clips s).test = s.test ∧ (adcMeasure p levels clips s).pins = s.pins ∧ (adcMeasure p levels clips s).bulk = s.bulk ∧ (adcMeasure p levels clips s).free = s.free ∧ (adcMeasure p levels clips s).pending = s.pending := by
  simp only [adcMeasure]; (repeat' split) <;> simp
@[simp] theorem takeEstimates_keeps (p : LPort) (o : RxObs) (s : State) :
    (takeEstimates p o s).sys = s.sys ∧ (takeEstimates p o s).power = s.power ∧ (takeEstimates p o s).mbx = s.mbx ∧ (takeEstimates p o s).twi = s.twi ∧ (takeEstimates p o s).pool = s.pool ∧ (takeEstimates p o s).lanes = s.lanes ∧ (takeEstimates p o s).map = s.map ∧ (takeEstimates p o s).dial = s.dial ∧ (takeEstimates p o s).mon = s.mon ∧ (takeEstimates p o s).alarms = s.alarms ∧ (takeEstimates p o s).faults = s.faults ∧ (takeEstimates p o s).jrx = s.jrx ∧ (takeEstimates p o s).test = s.test ∧ (takeEstimates p o s).pins = s.pins ∧ (takeEstimates p o s).bulk = s.bulk ∧ (takeEstimates p o s).free = s.free ∧ (takeEstimates p o s).pending = s.pending := by
  simp only [takeEstimates]; (repeat' split) <;> simp

@[simp] theorem txFilters_keeps (p : LPort) (ps ws : List Word) (s : State) :
    (txFilters p ps ws s).sys = s.sys ∧ (txFilters p ps ws s).power = s.power ∧ (txFilters p ps ws s).mbx = s.mbx ∧ (txFilters p ps ws s).twi = s.twi ∧ (txFilters p ps ws s).pool = s.pool ∧ (txFilters p ps ws s).lanes = s.lanes ∧ (txFilters p ps ws s).map = s.map ∧ (txFilters p ps ws s).dial = s.dial ∧ (txFilters p ps ws s).mon = s.mon ∧ (txFilters p ps ws s).alarms = s.alarms ∧ (txFilters p ps ws s).faults = s.faults ∧ (txFilters p ps ws s).jrx = s.jrx ∧ (txFilters p ps ws s).test = s.test ∧ (txFilters p ps ws s).pins = s.pins ∧ (txFilters p ps ws s).bulk = s.bulk ∧ (txFilters p ps ws s).free = s.free ∧ (txFilters p ps ws s).pending = s.pending := by
  simp only [txFilters]; (repeat' split) <;> simp
@[simp] theorem txExact_keeps (ps ws : List Word) (s : State) :
    (txExact ps ws s).sys = s.sys ∧ (txExact ps ws s).power = s.power ∧ (txExact ps ws s).mbx = s.mbx ∧ (txExact ps ws s).twi = s.twi ∧ (txExact ps ws s).pool = s.pool ∧ (txExact ps ws s).lanes = s.lanes ∧ (txExact ps ws s).map = s.map ∧ (txExact ps ws s).dial = s.dial ∧ (txExact ps ws s).mon = s.mon ∧ (txExact ps ws s).alarms = s.alarms ∧ (txExact ps ws s).faults = s.faults ∧ (txExact ps ws s).jrx = s.jrx ∧ (txExact ps ws s).test = s.test ∧ (txExact ps ws s).pins = s.pins ∧ (txExact ps ws s).bulk = s.bulk ∧ (txExact ps ws s).free = s.free ∧ (txExact ps ws s).pending = s.pending := by
  simp only [txExact]; (repeat' split) <;> simp
@[simp] theorem txStore_keeps (p : LPort) (ps : List Word) (is : List (Fin 7)) (s : State) :
    (txStore p ps is s).sys = s.sys ∧ (txStore p ps is s).power = s.power ∧ (txStore p ps is s).mbx = s.mbx ∧ (txStore p ps is s).twi = s.twi ∧ (txStore p ps is s).pool = s.pool ∧ (txStore p ps is s).lanes = s.lanes ∧ (txStore p ps is s).map = s.map ∧ (txStore p ps is s).dial = s.dial ∧ (txStore p ps is s).mon = s.mon ∧ (txStore p ps is s).alarms = s.alarms ∧ (txStore p ps is s).faults = s.faults ∧ (txStore p ps is s).jrx = s.jrx ∧ (txStore p ps is s).test = s.test ∧ (txStore p ps is s).pins = s.pins ∧ (txStore p ps is s).bulk = s.bulk ∧ (txStore p ps is s).free = s.free ∧ (txStore p ps is s).pending = s.pending := by
  refine ⟨?_, ?_, ?_, ?_, ?_, ?_, ?_, ?_, ?_, ?_, ?_, ?_, ?_, ?_, ?_, ?_, ?_⟩ <;> (simp only [txStore]; repeat' first | with_reducible rfl | (simp; done) | with_reducible refine (eachOf_sys _ _ _ ?_).trans ?_ | with_reducible refine (eachOf_power _ _ _ ?_).trans ?_ | with_reducible refine (eachOf_mbx _ _ _ ?_).trans ?_ | with_reducible refine (eachOf_twi _ _ _ ?_).trans ?_ | with_reducible refine (eachOf_pool _ _ _ ?_).trans ?_ | with_reducible refine (eachOf_lanes _ _ _ ?_).trans ?_ | with_reducible refine (eachOf_map _ _ _ ?_).trans ?_ | with_reducible refine (eachOf_dial _ _ _ ?_).trans ?_ | with_reducible refine (eachOf_mon _ _ _ ?_).trans ?_ | with_reducible refine (eachOf_alarms _ _ _ ?_).trans ?_ | with_reducible refine (eachOf_faults _ _ _ ?_).trans ?_ | with_reducible refine (eachOf_jrx _ _ _ ?_).trans ?_ | with_reducible refine (eachOf_test _ _ _ ?_).trans ?_ | with_reducible refine (eachOf_pins _ _ _ ?_).trans ?_ | with_reducible refine (eachOf_bulk _ _ _ ?_).trans ?_ | with_reducible refine (eachOf_free _ _ _ ?_).trans ?_ | with_reducible refine (eachOf_pending _ _ _ ?_).trans ?_ | with_reducible refine (eachPort_sys _ _ ?_).trans ?_ | with_reducible refine (eachPort_power _ _ ?_).trans ?_ | with_reducible refine (eachPort_mbx _ _ ?_).trans ?_ | with_reducible refine (eachPort_twi _ _ ?_).trans ?_ | with_reducible refine (eachPort_pool _ _ ?_).trans ?_ | with_reducible refine (eachPort_lanes _ _ ?_).trans ?_ | with_reducible refine (eachPort_map _ _ ?_).trans ?_ | with_reducible refine (eachPort_dial _ _ ?_).trans ?_ | with_reducible refine (eachPort_mon _ _ ?_).trans ?_ | with_reducible refine (eachPort_alarms _ _ ?_).trans ?_ | with_reducible refine (eachPort_faults _ _ ?_).trans ?_ | with_reducible refine (eachPort_jrx _ _ ?_).trans ?_ | with_reducible refine (eachPort_test _ _ ?_).trans ?_ | with_reducible refine (eachPort_pins _ _ ?_).trans ?_ | with_reducible refine (eachPort_bulk _ _ ?_).trans ?_ | with_reducible refine (eachPort_free _ _ ?_).trans ?_ | with_reducible refine (eachPort_pending _ _ ?_).trans ?_ | with_reducible refine (doIf_sys _ _ _ ?_).trans ?_ | with_reducible refine (doIf_power _ _ _ ?_).trans ?_ | with_reducible refine (doIf_mbx _ _ _ ?_).trans ?_ | with_reducible refine (doIf_twi _ _ _ ?_).trans ?_ | with_reducible refine (doIf_pool _ _ _ ?_).trans ?_ | with_reducible refine (doIf_lanes _ _ _ ?_).trans ?_ | with_reducible refine (doIf_map _ _ _ ?_).trans ?_ | with_reducible refine (doIf_dial _ _ _ ?_).trans ?_ | with_reducible refine (doIf_mon _ _ _ ?_).trans ?_ | with_reducible refine (doIf_alarms _ _ _ ?_).trans ?_ | with_reducible refine (doIf_faults _ _ _ ?_).trans ?_ | with_reducible refine (doIf_jrx _ _ _ ?_).trans ?_ | with_reducible refine (doIf_test _ _ _ ?_).trans ?_ | with_reducible refine (doIf_pins _ _ _ ?_).trans ?_ | with_reducible refine (doIf_bulk _ _ _ ?_).trans ?_ | with_reducible refine (doIf_free _ _ _ ?_).trans ?_ | with_reducible refine (doIf_pending _ _ _ ?_).trans ?_ | with_reducible refine (command_twi _ _ _ _ _ _ ?_).trans ?_ | with_reducible refine (command_test _ _ _ _ _ _ ?_).trans ?_ | with_reducible refine (command_pins _ _ _ _ _ _ ?_).trans ?_ | with_reducible refine (command_bulk _ _ _ _ _ _ ?_).trans ?_ | with_reducible refine (command_pending _ _ _ _ _ _ ?_).trans ?_ | with_reducible refine (commandOk_twi _ _ _ _ _ _ ?_).trans ?_ | with_reducible refine (commandOk_test _ _ _ _ _ _ ?_).trans ?_ | with_reducible refine (commandOk_pins _ _ _ _ _ _ ?_).trans ?_ | with_reducible refine (commandOk_bulk _ _ _ _ _ _ ?_).trans ?_ | with_reducible refine (commandOk_pending _ _ _ _ _ _ ?_).trans ?_ | with_reducible refine (awaitReport_power _ _ _ _ _ ?_).trans ?_ | with_reducible refine (awaitReport_twi _ _ _ _ _ ?_).trans ?_ | with_reducible refine (awaitReport_pool _ _ _ _ _ ?_).trans ?_ | with_reducible refine (awaitReport_lanes _ _ _ _ _ ?_).trans ?_ | with_reducible refine (awaitReport_map _ _ _ _ _ ?_).trans ?_ | with_reducible refine (awaitReport_dial _ _ _ _ _ ?_).trans ?_ | with_reducible refine (awaitReport_mon _ _ _ _ _ ?_).trans ?_ | with_reducible refine (awaitReport_alarms _ _ _ _ _ ?_).trans ?_ | with_reducible refine (awaitReport_faults _ _ _ _ _ ?_).trans ?_ | with_reducible refine (awaitReport_jrx _ _ _ _ _ ?_).trans ?_ | with_reducible refine (awaitReport_test _ _ _ _ _ ?_).trans ?_ | with_reducible refine (awaitReport_pins _ _ _ _ _ ?_).trans ?_ | with_reducible refine (awaitReport_bulk _ _ _ _ _ ?_).trans ?_ | with_reducible refine (awaitReport_free _ _ _ _ _ ?_).trans ?_ | with_reducible refine (awaitReport_pending _ _ _ _ _ ?_).trans ?_ | with_reducible refine (report_twi _ _ _ _ _ _ ?_).trans ?_ | with_reducible refine (report_test _ _ _ _ _ _ ?_).trans ?_ | with_reducible refine (report_pins _ _ _ _ _ _ ?_).trans ?_ | with_reducible refine (report_bulk _ _ _ _ _ _ ?_).trans ?_ | with_reducible refine (report_pending _ _ _ _ _ _ ?_).trans ?_ | intro _ | split | simp)
@[simp] theorem lineTxConfig_keeps (rq : Req) (s : State) :
    (lineTxConfig rq s).twi = s.twi ∧ (lineTxConfig rq s).test = s.test ∧ (lineTxConfig rq s).pins = s.pins ∧ (lineTxConfig rq s).bulk = s.bulk ∧ (lineTxConfig rq s).pending = s.pending := by
  refine ⟨?_, ?_, ?_, ?_, ?_⟩ <;> (simp only [lineTxConfig]; repeat' first | with_reducible rfl | (simp; done) | with_reducible refine (eachOf_twi _ _ _ ?_).trans ?_ | with_reducible refine (eachOf_test _ _ _ ?_).trans ?_ | with_reducible refine (eachOf_pins _ _ _ ?_).trans ?_ | with_reducible refine (eachOf_bulk _ _ _ ?_).trans ?_ | with_reducible refine (eachOf_pending _ _ _ ?_).trans ?_ | with_reducible refine (eachPort_twi _ _ ?_).trans ?_ | with_reducible refine (eachPort_test _ _ ?_).trans ?_ | with_reducible refine (eachPort_pins _ _ ?_).trans ?_ | with_reducible refine (eachPort_bulk _ _ ?_).trans ?_ | with_reducible refine (eachPort_pending _ _ ?_).trans ?_ | with_reducible refine (doIf_twi _ _ _ ?_).trans ?_ | with_reducible refine (doIf_test _ _ _ ?_).trans ?_ | with_reducible refine (doIf_pins _ _ _ ?_).trans ?_ | with_reducible refine (doIf_bulk _ _ _ ?_).trans ?_ | with_reducible refine (doIf_pending _ _ _ ?_).trans ?_ | with_reducible refine (command_twi _ _ _ _ _ _ ?_).trans ?_ | with_reducible refine (command_test _ _ _ _ _ _ ?_).trans ?_ | with_reducible refine (command_pins _ _ _ _ _ _ ?_).trans ?_ | with_reducible refine (command_bulk _ _ _ _ _ _ ?_).trans ?_ | with_reducible refine (command_pending _ _ _ _ _ _ ?_).trans ?_ | with_reducible refine (commandOk_twi _ _ _ _ _ _ ?_).trans ?_ | with_reducible refine (commandOk_test _ _ _ _ _ _ ?_).trans ?_ | with_reducible refine (commandOk_pins _ _ _ _ _ _ ?_).trans ?_ | with_reducible refine (commandOk_bulk _ _ _ _ _ _ ?_).trans ?_ | with_reducible refine (commandOk_pending _ _ _ _ _ _ ?_).trans ?_ | with_reducible refine (awaitReport_twi _ _ _ _ _ ?_).trans ?_ | with_reducible refine (awaitReport_test _ _ _ _ _ ?_).trans ?_ | with_reducible refine (awaitReport_pins _ _ _ _ _ ?_).trans ?_ | with_reducible refine (awaitReport_bulk _ _ _ _ _ ?_).trans ?_ | with_reducible refine (awaitReport_pending _ _ _ _ _ ?_).trans ?_ | with_reducible refine (report_twi _ _ _ _ _ _ ?_).trans ?_ | with_reducible refine (report_test _ _ _ _ _ _ ?_).trans ?_ | with_reducible refine (report_pins _ _ _ _ _ _ ?_).trans ?_ | with_reducible refine (report_bulk _ _ _ _ _ _ ?_).trans ?_ | with_reducible refine (report_pending _ _ _ _ _ _ ?_).trans ?_ | intro _ | split | simp)
@[simp] theorem skewApply_keeps (p : LPort) (s : State) :
    (skewApply p s).sys = s.sys ∧ (skewApply p s).power = s.power ∧ (skewApply p s).twi = s.twi ∧ (skewApply p s).lanes = s.lanes ∧ (skewApply p s).map = s.map ∧ (skewApply p s).dial = s.dial ∧ (skewApply p s).mon = s.mon ∧ (skewApply p s).faults = s.faults ∧ (skewApply p s).test = s.test ∧ (skewApply p s).pins = s.pins ∧ (skewApply p s).bulk = s.bulk ∧ (skewApply p s).free = s.free ∧ (skewApply p s).pending = s.pending := by
  simp only [skewApply]; (repeat' split) <;> simp
@[simp] theorem txStages_keeps (p : LPort) (o : TxObs) (s : State) :
    (txStages p o s).sys = s.sys ∧ (txStages p o s).power = s.power ∧ (txStages p o s).twi = s.twi ∧ (txStages p o s).lanes = s.lanes ∧ (txStages p o s).map = s.map ∧ (txStages p o s).dial = s.dial ∧ (txStages p o s).mon = s.mon ∧ (txStages p o s).faults = s.faults ∧ (txStages p o s).test = s.test ∧ (txStages p o s).pins = s.pins ∧ (txStages p o s).bulk = s.bulk ∧ (txStages p o s).free = s.free ∧ (txStages p o s).pending = s.pending := by
  simp only [txStages]; (repeat' split) <;> simp
@[simp] theorem lineStatusAnswer_keeps (rq : Req) (s : State) :
    (lineStatusAnswer rq s).power = s.power ∧ (lineStatusAnswer rq s).twi = s.twi ∧ (lineStatusAnswer rq s).ports = s.ports ∧ (lineStatusAnswer rq s).pool = s.pool ∧ (lineStatusAnswer rq s).lanes = s.lanes ∧ (lineStatusAnswer rq s).map = s.map ∧ (lineStatusAnswer rq s).mon = s.mon ∧ (lineStatusAnswer rq s).alarms = s.alarms ∧ (lineStatusAnswer rq s).faults = s.faults ∧ (lineStatusAnswer rq s).test = s.test ∧ (lineStatusAnswer rq s).pins = s.pins ∧ (lineStatusAnswer rq s).free = s.free ∧ (lineStatusAnswer rq s).pending = s.pending := by
  simp only [lineStatusAnswer]; (repeat' split) <;> simp
@[simp] theorem lineStatus_keeps (rq : Req) (s : State) :
    (lineStatus rq s).twi = s.twi ∧ (lineStatus rq s).test = s.test ∧ (lineStatus rq s).pins = s.pins ∧ (lineStatus rq s).pending = s.pending := by
  simp only [lineStatus]; (repeat' split) <;> simp

@[simp] theorem putSet_keeps (p : LPort) (tx : Bool) (i : Fin 8) (c : CoefSet) (s : State) :
    (putSet p tx i c s).sys = s.sys ∧ (putSet p tx i c s).power = s.power ∧ (putSet p tx i c s).mbx = s.mbx ∧ (putSet p tx i c s).twi = s.twi ∧ (putSet p tx i c s).pool = s.pool ∧ (putSet p tx i c s).lanes = s.lanes ∧ (putSet p tx i c s).map = s.map ∧ (putSet p tx i c s).dial = s.dial ∧ (putSet p tx i c s).mon = s.mon ∧ (putSet p tx i c s).alarms = s.alarms ∧ (putSet p tx i c s).faults = s.faults ∧ (putSet p tx i c s).jrx = s.jrx ∧ (putSet p tx i c s).test = s.test ∧ (putSet p tx i c s).pins = s.pins ∧ (putSet p tx i c s).bulk = s.bulk ∧ (putSet p tx i c s).free = s.free ∧ (putSet p tx i c s).pending = s.pending := by
  simp only [putSet]; (repeat' split) <;> simp
@[simp] theorem rxSwitch_keeps (p : LPort) (u : NlcUse) (s : State) :
    (rxSwitch p u s).sys = s.sys ∧ (rxSwitch p u s).power = s.power ∧ (rxSwitch p u s).twi = s.twi ∧ (rxSwitch p u s).lanes = s.lanes ∧ (rxSwitch p u s).map = s.map ∧ (rxSwitch p u s).dial = s.dial ∧ (rxSwitch p u s).mon = s.mon ∧ (rxSwitch p u s).faults = s.faults ∧ (rxSwitch p u s).test = s.test ∧ (rxSwitch p u s).pins = s.pins ∧ (rxSwitch p u s).bulk = s.bulk ∧ (rxSwitch p u s).free = s.free ∧ (rxSwitch p u s).pending = s.pending := by
  simp only [rxSwitch]; (repeat' split) <;> simp
@[simp] theorem txSwitch_keeps (p : LPort) (u : NlcUse) (s : State) :
    (txSwitch p u s).sys = s.sys ∧ (txSwitch p u s).power = s.power ∧ (txSwitch p u s).mbx = s.mbx ∧ (txSwitch p u s).twi = s.twi ∧ (txSwitch p u s).pool = s.pool ∧ (txSwitch p u s).lanes = s.lanes ∧ (txSwitch p u s).map = s.map ∧ (txSwitch p u s).dial = s.dial ∧ (txSwitch p u s).mon = s.mon ∧ (txSwitch p u s).alarms = s.alarms ∧ (txSwitch p u s).faults = s.faults ∧ (txSwitch p u s).jrx = s.jrx ∧ (txSwitch p u s).test = s.test ∧ (txSwitch p u s).pins = s.pins ∧ (txSwitch p u s).bulk = s.bulk ∧ (txSwitch p u s).free = s.free ∧ (txSwitch p u s).pending = s.pending := by
  simp only [txSwitch]; (repeat' split) <;> simp
@[simp] theorem nlcTxBoundary_keeps (p : LPort) (s : State) :
    (nlcTxBoundary p s).sys = s.sys ∧ (nlcTxBoundary p s).power = s.power ∧ (nlcTxBoundary p s).mbx = s.mbx ∧ (nlcTxBoundary p s).twi = s.twi ∧ (nlcTxBoundary p s).pool = s.pool ∧ (nlcTxBoundary p s).lanes = s.lanes ∧ (nlcTxBoundary p s).map = s.map ∧ (nlcTxBoundary p s).dial = s.dial ∧ (nlcTxBoundary p s).mon = s.mon ∧ (nlcTxBoundary p s).alarms = s.alarms ∧ (nlcTxBoundary p s).faults = s.faults ∧ (nlcTxBoundary p s).jrx = s.jrx ∧ (nlcTxBoundary p s).test = s.test ∧ (nlcTxBoundary p s).pins = s.pins ∧ (nlcTxBoundary p s).bulk = s.bulk ∧ (nlcTxBoundary p s).free = s.free ∧ (nlcTxBoundary p s).pending = s.pending := by
  simp only [nlcTxBoundary]; (repeat' split) <;> simp
@[simp] theorem memberStep_keeps (p : LPort) (j : LPort) (s : State) :
    (memberStep p j s).sys = s.sys ∧ (memberStep p j s).power = s.power ∧ (memberStep p j s).twi = s.twi ∧ (memberStep p j s).lanes = s.lanes ∧ (memberStep p j s).map = s.map ∧ (memberStep p j s).dial = s.dial ∧ (memberStep p j s).mon = s.mon ∧ (memberStep p j s).faults = s.faults ∧ (memberStep p j s).test = s.test ∧ (memberStep p j s).pins = s.pins ∧ (memberStep p j s).bulk = s.bulk ∧ (memberStep p j s).free = s.free ∧ (memberStep p j s).pending = s.pending := by
  simp only [memberStep]; (repeat' split) <;> simp
@[simp] theorem rxWaiting_keeps (p : LPort) (s : State) :
    (rxWaiting p s).sys = s.sys ∧ (rxWaiting p s).power = s.power ∧ (rxWaiting p s).twi = s.twi ∧ (rxWaiting p s).lanes = s.lanes ∧ (rxWaiting p s).map = s.map ∧ (rxWaiting p s).dial = s.dial ∧ (rxWaiting p s).mon = s.mon ∧ (rxWaiting p s).faults = s.faults ∧ (rxWaiting p s).test = s.test ∧ (rxWaiting p s).pins = s.pins ∧ (rxWaiting p s).bulk = s.bulk ∧ (rxWaiting p s).free = s.free ∧ (rxWaiting p s).pending = s.pending := by
  simp only [rxWaiting]; (repeat' split) <;> simp
@[simp] theorem nlcRxBoundary_keeps (p : LPort) (gain : BitVec 16) (s : State) :
    (nlcRxBoundary p gain s).sys = s.sys ∧ (nlcRxBoundary p gain s).power = s.power ∧ (nlcRxBoundary p gain s).twi = s.twi ∧ (nlcRxBoundary p gain s).lanes = s.lanes ∧ (nlcRxBoundary p gain s).map = s.map ∧ (nlcRxBoundary p gain s).dial = s.dial ∧ (nlcRxBoundary p gain s).mon = s.mon ∧ (nlcRxBoundary p gain s).faults = s.faults ∧ (nlcRxBoundary p gain s).test = s.test ∧ (nlcRxBoundary p gain s).pins = s.pins ∧ (nlcRxBoundary p gain s).bulk = s.bulk ∧ (nlcRxBoundary p gain s).free = s.free ∧ (nlcRxBoundary p gain s).pending = s.pending := by
  simp only [nlcRxBoundary]; (repeat' split) <;> simp
@[simp] theorem nlcAlignDone_keeps (p j : LPort) (samples : Int) (s : State) :
    (nlcAlignDone p j samples s).sys = s.sys ∧ (nlcAlignDone p j samples s).power = s.power ∧ (nlcAlignDone p j samples s).twi = s.twi ∧ (nlcAlignDone p j samples s).lanes = s.lanes ∧ (nlcAlignDone p j samples s).map = s.map ∧ (nlcAlignDone p j samples s).dial = s.dial ∧ (nlcAlignDone p j samples s).mon = s.mon ∧ (nlcAlignDone p j samples s).faults = s.faults ∧ (nlcAlignDone p j samples s).test = s.test ∧ (nlcAlignDone p j samples s).pins = s.pins ∧ (nlcAlignDone p j samples s).bulk = s.bulk ∧ (nlcAlignDone p j samples s).free = s.free ∧ (nlcAlignDone p j samples s).pending = s.pending := by
  simp only [nlcAlignDone]; (repeat' split) <;> simp
@[simp] theorem nlcMemberFadeIn_keeps (p j : LPort) (s : State) :
    (nlcMemberFadeIn p j s).sys = s.sys ∧ (nlcMemberFadeIn p j s).power = s.power ∧ (nlcMemberFadeIn p j s).mbx = s.mbx ∧ (nlcMemberFadeIn p j s).twi = s.twi ∧ (nlcMemberFadeIn p j s).pool = s.pool ∧ (nlcMemberFadeIn p j s).lanes = s.lanes ∧ (nlcMemberFadeIn p j s).map = s.map ∧ (nlcMemberFadeIn p j s).dial = s.dial ∧ (nlcMemberFadeIn p j s).mon = s.mon ∧ (nlcMemberFadeIn p j s).alarms = s.alarms ∧ (nlcMemberFadeIn p j s).faults = s.faults ∧ (nlcMemberFadeIn p j s).jrx = s.jrx ∧ (nlcMemberFadeIn p j s).test = s.test ∧ (nlcMemberFadeIn p j s).pins = s.pins ∧ (nlcMemberFadeIn p j s).bulk = s.bulk ∧ (nlcMemberFadeIn p j s).free = s.free ∧ (nlcMemberFadeIn p j s).pending = s.pending := by
  simp only [nlcMemberFadeIn]; (repeat' split) <;> simp
@[simp] theorem nlcFadeDone_keeps (p : LPort) (transmit : Bool) (s : State) :
    (nlcFadeDone p transmit s).sys = s.sys ∧ (nlcFadeDone p transmit s).power = s.power ∧ (nlcFadeDone p transmit s).mbx = s.mbx ∧ (nlcFadeDone p transmit s).twi = s.twi ∧ (nlcFadeDone p transmit s).pool = s.pool ∧ (nlcFadeDone p transmit s).lanes = s.lanes ∧ (nlcFadeDone p transmit s).map = s.map ∧ (nlcFadeDone p transmit s).dial = s.dial ∧ (nlcFadeDone p transmit s).mon = s.mon ∧ (nlcFadeDone p transmit s).alarms = s.alarms ∧ (nlcFadeDone p transmit s).faults = s.faults ∧ (nlcFadeDone p transmit s).jrx = s.jrx ∧ (nlcFadeDone p transmit s).test = s.test ∧ (nlcFadeDone p transmit s).pins = s.pins ∧ (nlcFadeDone p transmit s).bulk = s.bulk ∧ (nlcFadeDone p transmit s).free = s.free ∧ (nlcFadeDone p transmit s).pending = s.pending := by
  simp only [nlcFadeDone]; (repeat' split) <;> simp
@[simp] theorem nlcGroup_keeps (p : LPort) (rq : Req) (s : State) :
    (nlcGroup p rq s).sys = s.sys ∧ (nlcGroup p rq s).power = s.power ∧ (nlcGroup p rq s).twi = s.twi ∧ (nlcGroup p rq s).lanes = s.lanes ∧ (nlcGroup p rq s).map = s.map ∧ (nlcGroup p rq s).dial = s.dial ∧ (nlcGroup p rq s).mon = s.mon ∧ (nlcGroup p rq s).faults = s.faults ∧ (nlcGroup p rq s).test = s.test ∧ (nlcGroup p rq s).pins = s.pins ∧ (nlcGroup p rq s).bulk = s.bulk ∧ (nlcGroup p rq s).free = s.free ∧ (nlcGroup p rq s).pending = s.pending := by
  refine ⟨?_, ?_, ?_, ?_, ?_, ?_, ?_, ?_, ?_, ?_, ?_, ?_, ?_⟩ <;> (simp only [nlcGroup]; repeat' first | with_reducible rfl | (simp; done) | with_reducible refine (eachOf_sys _ _ _ ?_).trans ?_ | with_reducible refine (eachOf_power _ _ _ ?_).trans ?_ | with_reducible refine (eachOf_twi _ _ _ ?_).trans ?_ | with_reducible refine (eachOf_lanes _ _ _ ?_).trans ?_ | with_reducible refine (eachOf_map _ _ _ ?_).trans ?_ | with_reducible refine (eachOf_dial _ _ _ ?_).trans ?_ | with_reducible refine (eachOf_mon _ _ _ ?_).trans ?_ | with_reducible refine (eachOf_faults _ _ _ ?_).trans ?_ | with_reducible refine (eachOf_test _ _ _ ?_).trans ?_ | with_reducible refine (eachOf_pins _ _ _ ?_).trans ?_ | with_reducible refine (eachOf_bulk _ _ _ ?_).trans ?_ | with_reducible refine (eachOf_free _ _ _ ?_).trans ?_ | with_reducible refine (eachOf_pending _ _ _ ?_).trans ?_ | with_reducible refine (eachPort_sys _ _ ?_).trans ?_ | with_reducible refine (eachPort_power _ _ ?_).trans ?_ | with_reducible refine (eachPort_twi _ _ ?_).trans ?_ | with_reducible refine (eachPort_lanes _ _ ?_).trans ?_ | with_reducible refine (eachPort_map _ _ ?_).trans ?_ | with_reducible refine (eachPort_dial _ _ ?_).trans ?_ | with_reducible refine (eachPort_mon _ _ ?_).trans ?_ | with_reducible refine (eachPort_faults _ _ ?_).trans ?_ | with_reducible refine (eachPort_test _ _ ?_).trans ?_ | with_reducible refine (eachPort_pins _ _ ?_).trans ?_ | with_reducible refine (eachPort_bulk _ _ ?_).trans ?_ | with_reducible refine (eachPort_free _ _ ?_).trans ?_ | with_reducible refine (eachPort_pending _ _ ?_).trans ?_ | with_reducible refine (doIf_sys _ _ _ ?_).trans ?_ | with_reducible refine (doIf_power _ _ _ ?_).trans ?_ | with_reducible refine (doIf_twi _ _ _ ?_).trans ?_ | with_reducible refine (doIf_lanes _ _ _ ?_).trans ?_ | with_reducible refine (doIf_map _ _ _ ?_).trans ?_ | with_reducible refine (doIf_dial _ _ _ ?_).trans ?_ | with_reducible refine (doIf_mon _ _ _ ?_).trans ?_ | with_reducible refine (doIf_faults _ _ _ ?_).trans ?_ | with_reducible refine (doIf_test _ _ _ ?_).trans ?_ | with_reducible refine (doIf_pins _ _ _ ?_).trans ?_ | with_reducible refine (doIf_bulk _ _ _ ?_).trans ?_ | with_reducible refine (doIf_free _ _ _ ?_).trans ?_ | with_reducible refine (doIf_pending _ _ _ ?_).trans ?_ | with_reducible refine (command_twi _ _ _ _ _ _ ?_).trans ?_ | with_reducible refine (command_test _ _ _ _ _ _ ?_).trans ?_ | with_reducible refine (command_pins _ _ _ _ _ _ ?_).trans ?_ | with_reducible refine (command_bulk _ _ _ _ _ _ ?_).trans ?_ | with_reducible refine (command_pending _ _ _ _ _ _ ?_).trans ?_ | with_reducible refine (commandOk_twi _ _ _ _ _ _ ?_).trans ?_ | with_reducible refine (commandOk_test _ _ _ _ _ _ ?_).trans ?_ | with_reducible refine (commandOk_pins _ _ _ _ _ _ ?_).trans ?_ | with_reducible refine (commandOk_bulk _ _ _ _ _ _ ?_).trans ?_ | with_reducible refine (commandOk_pending _ _ _ _ _ _ ?_).trans ?_ | with_reducible refine (awaitReport_power _ _ _ _ _ ?_).trans ?_ | with_reducible refine (awaitReport_twi _ _ _ _ _ ?_).trans ?_ | with_reducible refine (awaitReport_lanes _ _ _ _ _ ?_).trans ?_ | with_reducible refine (awaitReport_map _ _ _ _ _ ?_).trans ?_ | with_reducible refine (awaitReport_dial _ _ _ _ _ ?_).trans ?_ | with_reducible refine (awaitReport_mon _ _ _ _ _ ?_).trans ?_ | with_reducible refine (awaitReport_faults _ _ _ _ _ ?_).trans ?_ | with_reducible refine (awaitReport_test _ _ _ _ _ ?_).trans ?_ | with_reducible refine (awaitReport_pins _ _ _ _ _ ?_).trans ?_ | with_reducible refine (awaitReport_bulk _ _ _ _ _ ?_).trans ?_ | with_reducible refine (awaitReport_free _ _ _ _ _ ?_).trans ?_ | with_reducible refine (awaitReport_pending _ _ _ _ _ ?_).trans ?_ | with_reducible refine (report_twi _ _ _ _ _ _ ?_).trans ?_ | with_reducible refine (report_test _ _ _ _ _ _ ?_).trans ?_ | with_reducible refine (report_pins _ _ _ _ _ _ ?_).trans ?_ | with_reducible refine (report_bulk _ _ _ _ _ _ ?_).trans ?_ | with_reducible refine (report_pending _ _ _ _ _ _ ?_).trans ?_ | intro _ | split | simp)
@[simp] theorem nlcSelect_keeps (p : LPort) (rq : Req) (s : State) :
    (nlcSelect p rq s).power = s.power ∧ (nlcSelect p rq s).twi = s.twi ∧ (nlcSelect p rq s).pool = s.pool ∧ (nlcSelect p rq s).lanes = s.lanes ∧ (nlcSelect p rq s).map = s.map ∧ (nlcSelect p rq s).mon = s.mon ∧ (nlcSelect p rq s).alarms = s.alarms ∧ (nlcSelect p rq s).faults = s.faults ∧ (nlcSelect p rq s).test = s.test ∧ (nlcSelect p rq s).pins = s.pins ∧ (nlcSelect p rq s).bulk = s.bulk ∧ (nlcSelect p rq s).pending = s.pending := by
  simp only [nlcSelect]; (repeat' split) <;> simp
@[simp] theorem nlcExact_keeps (ps : List Word) (s : State) :
    (nlcExact ps s).sys = s.sys ∧ (nlcExact ps s).power = s.power ∧ (nlcExact ps s).twi = s.twi ∧ (nlcExact ps s).lanes = s.lanes ∧ (nlcExact ps s).map = s.map ∧ (nlcExact ps s).dial = s.dial ∧ (nlcExact ps s).mon = s.mon ∧ (nlcExact ps s).faults = s.faults ∧ (nlcExact ps s).test = s.test ∧ (nlcExact ps s).pins = s.pins ∧ (nlcExact ps s).bulk = s.bulk ∧ (nlcExact ps s).free = s.free ∧ (nlcExact ps s).pending = s.pending := by
  simp only [nlcExact]; (repeat' split) <;> simp
@[simp] theorem nlcStatusAnswer_keeps (rq : Req) (s : State) :
    (nlcStatusAnswer rq s).power = s.power ∧ (nlcStatusAnswer rq s).twi = s.twi ∧ (nlcStatusAnswer rq s).ports = s.ports ∧ (nlcStatusAnswer rq s).pool = s.pool ∧ (nlcStatusAnswer rq s).lanes = s.lanes ∧ (nlcStatusAnswer rq s).map = s.map ∧ (nlcStatusAnswer rq s).mon = s.mon ∧ (nlcStatusAnswer rq s).alarms = s.alarms ∧ (nlcStatusAnswer rq s).faults = s.faults ∧ (nlcStatusAnswer rq s).test = s.test ∧ (nlcStatusAnswer rq s).pins = s.pins ∧ (nlcStatusAnswer rq s).bulk = s.bulk ∧ (nlcStatusAnswer rq s).free = s.free ∧ (nlcStatusAnswer rq s).pending = s.pending := by
  simp only [nlcStatusAnswer]; (repeat' split) <;> simp
@[simp] theorem lineNlcSet_keeps (rq : Req) (s : State) :
    (lineNlcSet rq s).twi = s.twi ∧ (lineNlcSet rq s).test = s.test ∧ (lineNlcSet rq s).pins = s.pins ∧ (lineNlcSet rq s).bulk = s.bulk ∧ (lineNlcSet rq s).pending = s.pending := by
  simp only [lineNlcSet]; (repeat' split) <;> simp

@[simp] theorem takePolicy_keeps (p : LPort) (s : State) :
    (takePolicy p s).sys = s.sys ∧ (takePolicy p s).power = s.power ∧ (takePolicy p s).mbx = s.mbx ∧ (takePolicy p s).twi = s.twi ∧ (takePolicy p s).pool = s.pool ∧ (takePolicy p s).lanes = s.lanes ∧ (takePolicy p s).map = s.map ∧ (takePolicy p s).dial = s.dial ∧ (takePolicy p s).mon = s.mon ∧ (takePolicy p s).alarms = s.alarms ∧ (takePolicy p s).faults = s.faults ∧ (takePolicy p s).jrx = s.jrx ∧ (takePolicy p s).test = s.test ∧ (takePolicy p s).pins = s.pins ∧ (takePolicy p s).bulk = s.bulk ∧ (takePolicy p s).free = s.free ∧ (takePolicy p s).pending = s.pending := by
  simp only [takePolicy]; (repeat' split) <;> simp
@[simp] theorem sendCap_keeps (p : LPort) (s : State) :
    (sendCap p s).sys = s.sys ∧ (sendCap p s).power = s.power ∧ (sendCap p s).mbx = s.mbx ∧ (sendCap p s).twi = s.twi ∧ (sendCap p s).pool = s.pool ∧ (sendCap p s).lanes = s.lanes ∧ (sendCap p s).map = s.map ∧ (sendCap p s).dial = s.dial ∧ (sendCap p s).mon = s.mon ∧ (sendCap p s).alarms = s.alarms ∧ (sendCap p s).faults = s.faults ∧ (sendCap p s).jrx = s.jrx ∧ (sendCap p s).test = s.test ∧ (sendCap p s).pins = s.pins ∧ (sendCap p s).bulk = s.bulk ∧ (sendCap p s).free = s.free ∧ (sendCap p s).pending = s.pending := by
  simp only [sendCap]; (repeat' split) <;> simp
@[simp] theorem choiceFailed_keeps (p : LPort) (kind reason : Nat) (s : State) :
    (choiceFailed p kind reason s).sys = s.sys ∧ (choiceFailed p kind reason s).power = s.power ∧ (choiceFailed p kind reason s).twi = s.twi ∧ (choiceFailed p kind reason s).lanes = s.lanes ∧ (choiceFailed p kind reason s).mon = s.mon ∧ (choiceFailed p kind reason s).faults = s.faults ∧ (choiceFailed p kind reason s).test = s.test ∧ (choiceFailed p kind reason s).pins = s.pins ∧ (choiceFailed p kind reason s).bulk = s.bulk ∧ (choiceFailed p kind reason s).free = s.free ∧ (choiceFailed p kind reason s).pending = s.pending := by
  simp only [choiceFailed]; (repeat' split) <;> simp
@[simp] theorem sendChoice_keeps (p : LPort) (kind rate : Nat) (s : State) :
    (sendChoice p kind rate s).sys = s.sys ∧ (sendChoice p kind rate s).power = s.power ∧ (sendChoice p kind rate s).twi = s.twi ∧ (sendChoice p kind rate s).lanes = s.lanes ∧ (sendChoice p kind rate s).mon = s.mon ∧ (sendChoice p kind rate s).faults = s.faults ∧ (sendChoice p kind rate s).test = s.test ∧ (sendChoice p kind rate s).pins = s.pins ∧ (sendChoice p kind rate s).bulk = s.bulk ∧ (sendChoice p kind rate s).free = s.free ∧ (sendChoice p kind rate s).pending = s.pending := by
  simp only [sendChoice]; (repeat' split) <;> simp
@[simp] theorem actChoice_keeps (p : LPort) (desc : Word) (kind : BitVec 2) (s : State) :
    (actChoice p desc kind s).sys = s.sys ∧ (actChoice p desc kind s).power = s.power ∧ (actChoice p desc kind s).mbx = s.mbx ∧ (actChoice p desc kind s).twi = s.twi ∧ (actChoice p desc kind s).pool = s.pool ∧ (actChoice p desc kind s).lanes = s.lanes ∧ (actChoice p desc kind s).map = s.map ∧ (actChoice p desc kind s).dial = s.dial ∧ (actChoice p desc kind s).mon = s.mon ∧ (actChoice p desc kind s).alarms = s.alarms ∧ (actChoice p desc kind s).faults = s.faults ∧ (actChoice p desc kind s).jrx = s.jrx ∧ (actChoice p desc kind s).test = s.test ∧ (actChoice p desc kind s).pins = s.pins ∧ (actChoice p desc kind s).bulk = s.bulk ∧ (actChoice p desc kind s).pending = s.pending := by
  simp only [actChoice]; (repeat' split) <;> simp
@[simp] theorem startTune_keeps (p : LPort) (s : State) :
    (startTune p s).sys = s.sys ∧ (startTune p s).power = s.power ∧ (startTune p s).mbx = s.mbx ∧ (startTune p s).twi = s.twi ∧ (startTune p s).pool = s.pool ∧ (startTune p s).lanes = s.lanes ∧ (startTune p s).map = s.map ∧ (startTune p s).dial = s.dial ∧ (startTune p s).mon = s.mon ∧ (startTune p s).alarms = s.alarms ∧ (startTune p s).faults = s.faults ∧ (startTune p s).jrx = s.jrx ∧ (startTune p s).test = s.test ∧ (startTune p s).pins = s.pins ∧ (startTune p s).bulk = s.bulk ∧ (startTune p s).pending = s.pending := by
  simp only [startTune]; (repeat' split) <;> simp
@[simp] theorem takeWaiting_keeps (p : LPort) (s : State) :
    (takeWaiting p s).sys = s.sys ∧ (takeWaiting p s).power = s.power ∧ (takeWaiting p s).mbx = s.mbx ∧ (takeWaiting p s).twi = s.twi ∧ (takeWaiting p s).pool = s.pool ∧ (takeWaiting p s).lanes = s.lanes ∧ (takeWaiting p s).map = s.map ∧ (takeWaiting p s).dial = s.dial ∧ (takeWaiting p s).mon = s.mon ∧ (takeWaiting p s).alarms = s.alarms ∧ (takeWaiting p s).faults = s.faults ∧ (takeWaiting p s).jrx = s.jrx ∧ (takeWaiting p s).test = s.test ∧ (takeWaiting p s).pins = s.pins ∧ (takeWaiting p s).bulk = s.bulk ∧ (takeWaiting p s).pending = s.pending := by
  simp only [takeWaiting]; (repeat' split) <;> simp
@[simp] theorem dueRetune_keeps (p : LPort) (s : State) :
    (dueRetune p s).sys = s.sys ∧ (dueRetune p s).power = s.power ∧ (dueRetune p s).mbx = s.mbx ∧ (dueRetune p s).twi = s.twi ∧ (dueRetune p s).pool = s.pool ∧ (dueRetune p s).lanes = s.lanes ∧ (dueRetune p s).map = s.map ∧ (dueRetune p s).dial = s.dial ∧ (dueRetune p s).mon = s.mon ∧ (dueRetune p s).alarms = s.alarms ∧ (dueRetune p s).faults = s.faults ∧ (dueRetune p s).jrx = s.jrx ∧ (dueRetune p s).test = s.test ∧ (dueRetune p s).pins = s.pins ∧ (dueRetune p s).bulk = s.bulk ∧ (dueRetune p s).pending = s.pending := by
  simp only [dueRetune]; (repeat' split) <;> simp
@[simp] theorem nextChoice_keeps (p : LPort) (s : State) :
    (nextChoice p s).sys = s.sys ∧ (nextChoice p s).power = s.power ∧ (nextChoice p s).mbx = s.mbx ∧ (nextChoice p s).twi = s.twi ∧ (nextChoice p s).pool = s.pool ∧ (nextChoice p s).lanes = s.lanes ∧ (nextChoice p s).map = s.map ∧ (nextChoice p s).dial = s.dial ∧ (nextChoice p s).mon = s.mon ∧ (nextChoice p s).alarms = s.alarms ∧ (nextChoice p s).faults = s.faults ∧ (nextChoice p s).jrx = s.jrx ∧ (nextChoice p s).test = s.test ∧ (nextChoice p s).pins = s.pins ∧ (nextChoice p s).bulk = s.bulk ∧ (nextChoice p s).pending = s.pending := by
  simp only [nextChoice]; (repeat' split) <;> simp
@[simp] theorem phaseChoice_keeps (p : LPort) (s : State) :
    (phaseChoice p s).sys = s.sys ∧ (phaseChoice p s).power = s.power ∧ (phaseChoice p s).mbx = s.mbx ∧ (phaseChoice p s).twi = s.twi ∧ (phaseChoice p s).pool = s.pool ∧ (phaseChoice p s).lanes = s.lanes ∧ (phaseChoice p s).map = s.map ∧ (phaseChoice p s).dial = s.dial ∧ (phaseChoice p s).mon = s.mon ∧ (phaseChoice p s).alarms = s.alarms ∧ (phaseChoice p s).faults = s.faults ∧ (phaseChoice p s).jrx = s.jrx ∧ (phaseChoice p s).test = s.test ∧ (phaseChoice p s).pins = s.pins ∧ (phaseChoice p s).bulk = s.bulk ∧ (phaseChoice p s).pending = s.pending := by
  simp only [phaseChoice]; (repeat' split) <;> simp
@[simp] theorem setPhase_keeps (p : LPort) (ph : Phase) (s : State) :
    (setPhase p ph s).sys = s.sys ∧ (setPhase p ph s).power = s.power ∧ (setPhase p ph s).mbx = s.mbx ∧ (setPhase p ph s).twi = s.twi ∧ (setPhase p ph s).pool = s.pool ∧ (setPhase p ph s).lanes = s.lanes ∧ (setPhase p ph s).map = s.map ∧ (setPhase p ph s).dial = s.dial ∧ (setPhase p ph s).mon = s.mon ∧ (setPhase p ph s).alarms = s.alarms ∧ (setPhase p ph s).faults = s.faults ∧ (setPhase p ph s).jrx = s.jrx ∧ (setPhase p ph s).test = s.test ∧ (setPhase p ph s).pins = s.pins ∧ (setPhase p ph s).bulk = s.bulk ∧ (setPhase p ph s).free = s.free ∧ (setPhase p ph s).pending = s.pending := by
  simp only [setPhase]; (repeat' split) <;> simp
@[simp] theorem leaveCapability_keeps (p : LPort) (s : State) :
    (leaveCapability p s).sys = s.sys ∧ (leaveCapability p s).power = s.power ∧ (leaveCapability p s).twi = s.twi ∧ (leaveCapability p s).lanes = s.lanes ∧ (leaveCapability p s).mon = s.mon ∧ (leaveCapability p s).faults = s.faults ∧ (leaveCapability p s).test = s.test ∧ (leaveCapability p s).pins = s.pins ∧ (leaveCapability p s).bulk = s.bulk ∧ (leaveCapability p s).free = s.free ∧ (leaveCapability p s).pending = s.pending := by
  simp only [leaveCapability]; (repeat' split) <;> simp
@[simp] theorem leaveProbe_keeps (p : LPort) (s : State) :
    (leaveProbe p s).sys = s.sys ∧ (leaveProbe p s).power = s.power ∧ (leaveProbe p s).twi = s.twi ∧ (leaveProbe p s).lanes = s.lanes ∧ (leaveProbe p s).mon = s.mon ∧ (leaveProbe p s).faults = s.faults ∧ (leaveProbe p s).test = s.test ∧ (leaveProbe p s).pins = s.pins ∧ (leaveProbe p s).bulk = s.bulk ∧ (leaveProbe p s).pending = s.pending := by
  simp only [leaveProbe]; (repeat' split) <;> simp
@[simp] theorem leaveSelect_keeps (p : LPort) (s : State) :
    (leaveSelect p s).sys = s.sys ∧ (leaveSelect p s).power = s.power ∧ (leaveSelect p s).mbx = s.mbx ∧ (leaveSelect p s).twi = s.twi ∧ (leaveSelect p s).pool = s.pool ∧ (leaveSelect p s).lanes = s.lanes ∧ (leaveSelect p s).map = s.map ∧ (leaveSelect p s).dial = s.dial ∧ (leaveSelect p s).mon = s.mon ∧ (leaveSelect p s).alarms = s.alarms ∧ (leaveSelect p s).faults = s.faults ∧ (leaveSelect p s).jrx = s.jrx ∧ (leaveSelect p s).test = s.test ∧ (leaveSelect p s).pins = s.pins ∧ (leaveSelect p s).bulk = s.bulk ∧ (leaveSelect p s).pending = s.pending := by
  simp only [leaveSelect]; (repeat' split) <;> simp
@[simp] theorem leaveTune_keeps (p : LPort) (s : State) :
    (leaveTune p s).sys = s.sys ∧ (leaveTune p s).power = s.power ∧ (leaveTune p s).twi = s.twi ∧ (leaveTune p s).lanes = s.lanes ∧ (leaveTune p s).mon = s.mon ∧ (leaveTune p s).faults = s.faults ∧ (leaveTune p s).test = s.test ∧ (leaveTune p s).pins = s.pins ∧ (leaveTune p s).bulk = s.bulk ∧ (leaveTune p s).pending = s.pending := by
  simp only [leaveTune]; (repeat' split) <;> simp
@[simp] theorem farTune_keeps (p : LPort) (type kind : Nat) (s : State) :
    (farTune p type kind s).sys = s.sys ∧ (farTune p type kind s).power = s.power ∧ (farTune p type kind s).mbx = s.mbx ∧ (farTune p type kind s).twi = s.twi ∧ (farTune p type kind s).pool = s.pool ∧ (farTune p type kind s).lanes = s.lanes ∧ (farTune p type kind s).map = s.map ∧ (farTune p type kind s).dial = s.dial ∧ (farTune p type kind s).mon = s.mon ∧ (farTune p type kind s).alarms = s.alarms ∧ (farTune p type kind s).faults = s.faults ∧ (farTune p type kind s).jrx = s.jrx ∧ (farTune p type kind s).test = s.test ∧ (farTune p type kind s).pins = s.pins ∧ (farTune p type kind s).bulk = s.bulk ∧ (farTune p type kind s).free = s.free ∧ (farTune p type kind s).pending = s.pending := by
  simp only [farTune]; (repeat' split) <;> simp
@[simp] theorem leaveCommit_keeps (p : LPort) (s : State) :
    (leaveCommit p s).sys = s.sys ∧ (leaveCommit p s).power = s.power ∧ (leaveCommit p s).twi = s.twi ∧ (leaveCommit p s).lanes = s.lanes ∧ (leaveCommit p s).dial = s.dial ∧ (leaveCommit p s).mon = s.mon ∧ (leaveCommit p s).faults = s.faults ∧ (leaveCommit p s).test = s.test ∧ (leaveCommit p s).pins = s.pins ∧ (leaveCommit p s).bulk = s.bulk ∧ (leaveCommit p s).free = s.free ∧ (leaveCommit p s).pending = s.pending := by
  simp only [leaveCommit]; (repeat' split) <;> simp
@[simp] theorem advance_keeps (p : LPort) (s : State) :
    (advance p s).sys = s.sys ∧ (advance p s).power = s.power ∧ (advance p s).twi = s.twi ∧ (advance p s).lanes = s.lanes ∧ (advance p s).mon = s.mon ∧ (advance p s).faults = s.faults ∧ (advance p s).test = s.test ∧ (advance p s).pins = s.pins ∧ (advance p s).bulk = s.bulk ∧ (advance p s).pending = s.pending := by
  simp only [advance]; (repeat' split) <;> simp
@[simp] theorem trainAcquireDone_keeps (p : LPort) (s : State) :
    (trainAcquireDone p s).sys = s.sys ∧ (trainAcquireDone p s).power = s.power ∧ (trainAcquireDone p s).twi = s.twi ∧ (trainAcquireDone p s).lanes = s.lanes ∧ (trainAcquireDone p s).mon = s.mon ∧ (trainAcquireDone p s).faults = s.faults ∧ (trainAcquireDone p s).test = s.test ∧ (trainAcquireDone p s).pins = s.pins ∧ (trainAcquireDone p s).bulk = s.bulk ∧ (trainAcquireDone p s).pending = s.pending := by
  simp only [trainAcquireDone]; (repeat' split) <;> simp
@[simp] theorem probeDone_keeps (p : LPort) (s : State) :
    (probeDone p s).sys = s.sys ∧ (probeDone p s).power = s.power ∧ (probeDone p s).twi = s.twi ∧ (probeDone p s).lanes = s.lanes ∧ (probeDone p s).mon = s.mon ∧ (probeDone p s).faults = s.faults ∧ (probeDone p s).test = s.test ∧ (probeDone p s).pins = s.pins ∧ (probeDone p s).bulk = s.bulk ∧ (probeDone p s).pending = s.pending := by
  simp only [probeDone]; (repeat' split) <;> simp
@[simp] theorem trainPhaseTimeout_keeps (p : LPort) (s : State) :
    (trainPhaseTimeout p s).sys = s.sys ∧ (trainPhaseTimeout p s).power = s.power ∧ (trainPhaseTimeout p s).twi = s.twi ∧ (trainPhaseTimeout p s).lanes = s.lanes ∧ (trainPhaseTimeout p s).mon = s.mon ∧ (trainPhaseTimeout p s).faults = s.faults ∧ (trainPhaseTimeout p s).test = s.test ∧ (trainPhaseTimeout p s).pins = s.pins ∧ (trainPhaseTimeout p s).bulk = s.bulk ∧ (trainPhaseTimeout p s).free = s.free ∧ (trainPhaseTimeout p s).pending = s.pending := by
  simp only [trainPhaseTimeout]; (repeat' split) <;> simp
@[simp] theorem farRestart_keeps (p : LPort) (s : State) :
    (farRestart p s).sys = s.sys ∧ (farRestart p s).power = s.power ∧ (farRestart p s).twi = s.twi ∧ (farRestart p s).lanes = s.lanes ∧ (farRestart p s).mon = s.mon ∧ (farRestart p s).faults = s.faults ∧ (farRestart p s).test = s.test ∧ (farRestart p s).pins = s.pins ∧ (farRestart p s).bulk = s.bulk ∧ (farRestart p s).free = s.free ∧ (farRestart p s).pending = s.pending := by
  simp only [farRestart]; (repeat' split) <;> simp
@[simp] theorem enterSwitch_keeps (p : LPort) (k : DialKind) (r : RefCode) (n : Psfn) (s : State) :
    (enterSwitch p k r n s).sys = s.sys ∧ (enterSwitch p k r n s).power = s.power ∧ (enterSwitch p k r n s).mbx = s.mbx ∧ (enterSwitch p k r n s).twi = s.twi ∧ (enterSwitch p k r n s).ports = s.ports ∧ (enterSwitch p k r n s).pool = s.pool ∧ (enterSwitch p k r n s).lanes = s.lanes ∧ (enterSwitch p k r n s).map = s.map ∧ (enterSwitch p k r n s).mon = s.mon ∧ (enterSwitch p k r n s).alarms = s.alarms ∧ (enterSwitch p k r n s).faults = s.faults ∧ (enterSwitch p k r n s).jrx = s.jrx ∧ (enterSwitch p k r n s).test = s.test ∧ (enterSwitch p k r n s).pins = s.pins ∧ (enterSwitch p k r n s).bulk = s.bulk ∧ (enterSwitch p k r n s).pending = s.pending := by
  simp only [enterSwitch]; (repeat' split) <;> simp
@[simp] theorem commitReq_keeps (p : LPort) (label : Psfn) (b : List Word) (s : State) :
    (commitReq p label b s).sys = s.sys ∧ (commitReq p label b s).power = s.power ∧ (commitReq p label b s).mbx = s.mbx ∧ (commitReq p label b s).twi = s.twi ∧ (commitReq p label b s).pool = s.pool ∧ (commitReq p label b s).lanes = s.lanes ∧ (commitReq p label b s).map = s.map ∧ (commitReq p label b s).mon = s.mon ∧ (commitReq p label b s).alarms = s.alarms ∧ (commitReq p label b s).faults = s.faults ∧ (commitReq p label b s).jrx = s.jrx ∧ (commitReq p label b s).test = s.test ∧ (commitReq p label b s).pins = s.pins ∧ (commitReq p label b s).bulk = s.bulk ∧ (commitReq p label b s).pending = s.pending := by
  simp only [commitReq]; (repeat' split) <;> simp
@[simp] theorem dropRxSwitch_keeps (p : LPort) (s : State) :
    (dropRxSwitch p s).sys = s.sys ∧ (dropRxSwitch p s).power = s.power ∧ (dropRxSwitch p s).mbx = s.mbx ∧ (dropRxSwitch p s).twi = s.twi ∧ (dropRxSwitch p s).pool = s.pool ∧ (dropRxSwitch p s).lanes = s.lanes ∧ (dropRxSwitch p s).map = s.map ∧ (dropRxSwitch p s).mon = s.mon ∧ (dropRxSwitch p s).alarms = s.alarms ∧ (dropRxSwitch p s).faults = s.faults ∧ (dropRxSwitch p s).jrx = s.jrx ∧ (dropRxSwitch p s).test = s.test ∧ (dropRxSwitch p s).pins = s.pins ∧ (dropRxSwitch p s).bulk = s.bulk ∧ (dropRxSwitch p s).free = s.free ∧ (dropRxSwitch p s).pending = s.pending := by
  simp only [dropRxSwitch]; (repeat' split) <;> simp
@[simp] theorem commitConfirmCheck_keeps (p : LPort) (s : State) :
    (commitConfirmCheck p s).sys = s.sys ∧ (commitConfirmCheck p s).power = s.power ∧ (commitConfirmCheck p s).mbx = s.mbx ∧ (commitConfirmCheck p s).twi = s.twi ∧ (commitConfirmCheck p s).pool = s.pool ∧ (commitConfirmCheck p s).lanes = s.lanes ∧ (commitConfirmCheck p s).map = s.map ∧ (commitConfirmCheck p s).mon = s.mon ∧ (commitConfirmCheck p s).alarms = s.alarms ∧ (commitConfirmCheck p s).faults = s.faults ∧ (commitConfirmCheck p s).jrx = s.jrx ∧ (commitConfirmCheck p s).test = s.test ∧ (commitConfirmCheck p s).pins = s.pins ∧ (commitConfirmCheck p s).bulk = s.bulk ∧ (commitConfirmCheck p s).free = s.free ∧ (commitConfirmCheck p s).pending = s.pending := by
  simp only [commitConfirmCheck]; (repeat' split) <;> simp
@[simp] theorem rxPassed_keeps (p : LPort) (kind : BitVec 2) (s : State) :
    (rxPassed p kind s).sys = s.sys ∧ (rxPassed p kind s).power = s.power ∧ (rxPassed p kind s).twi = s.twi ∧ (rxPassed p kind s).lanes = s.lanes ∧ (rxPassed p kind s).mon = s.mon ∧ (rxPassed p kind s).faults = s.faults ∧ (rxPassed p kind s).test = s.test ∧ (rxPassed p kind s).pins = s.pins ∧ (rxPassed p kind s).bulk = s.bulk ∧ (rxPassed p kind s).pending = s.pending := by
  simp only [rxPassed]; (repeat' split) <;> simp
@[simp] theorem commitPassCheck_keeps (p : LPort) (s : State) :
    (commitPassCheck p s).sys = s.sys ∧ (commitPassCheck p s).power = s.power ∧ (commitPassCheck p s).twi = s.twi ∧ (commitPassCheck p s).lanes = s.lanes ∧ (commitPassCheck p s).mon = s.mon ∧ (commitPassCheck p s).faults = s.faults ∧ (commitPassCheck p s).test = s.test ∧ (commitPassCheck p s).pins = s.pins ∧ (commitPassCheck p s).bulk = s.bulk ∧ (commitPassCheck p s).pending = s.pending := by
  simp only [commitPassCheck]; (repeat' split) <;> simp
@[simp] theorem commitLate_keeps (p : LPort) (c : Commit) (s : State) :
    (commitLate p c s).sys = s.sys ∧ (commitLate p c s).power = s.power ∧ (commitLate p c s).mbx = s.mbx ∧ (commitLate p c s).twi = s.twi ∧ (commitLate p c s).pool = s.pool ∧ (commitLate p c s).lanes = s.lanes ∧ (commitLate p c s).map = s.map ∧ (commitLate p c s).dial = s.dial ∧ (commitLate p c s).mon = s.mon ∧ (commitLate p c s).alarms = s.alarms ∧ (commitLate p c s).faults = s.faults ∧ (commitLate p c s).jrx = s.jrx ∧ (commitLate p c s).test = s.test ∧ (commitLate p c s).pins = s.pins ∧ (commitLate p c s).bulk = s.bulk ∧ (commitLate p c s).pending = s.pending := by
  simp only [commitLate]; (repeat' split) <;> simp
@[simp] theorem planLate_keeps (p : LPort) (x : Tune) (s : State) :
    (planLate p x s).sys = s.sys ∧ (planLate p x s).power = s.power ∧ (planLate p x s).mbx = s.mbx ∧ (planLate p x s).twi = s.twi ∧ (planLate p x s).pool = s.pool ∧ (planLate p x s).lanes = s.lanes ∧ (planLate p x s).map = s.map ∧ (planLate p x s).dial = s.dial ∧ (planLate p x s).mon = s.mon ∧ (planLate p x s).alarms = s.alarms ∧ (planLate p x s).faults = s.faults ∧ (planLate p x s).jrx = s.jrx ∧ (planLate p x s).test = s.test ∧ (planLate p x s).pins = s.pins ∧ (planLate p x s).bulk = s.bulk ∧ (planLate p x s).pending = s.pending := by
  simp only [planLate]; (repeat' split) <;> simp
@[simp] theorem enterPlan_keeps (p : LPort) (tx : Bool) (x : Tune) (s : State) :
    (enterPlan p tx x s).sys = s.sys ∧ (enterPlan p tx x s).power = s.power ∧ (enterPlan p tx x s).mbx = s.mbx ∧ (enterPlan p tx x s).twi = s.twi ∧ (enterPlan p tx x s).ports = s.ports ∧ (enterPlan p tx x s).pool = s.pool ∧ (enterPlan p tx x s).lanes = s.lanes ∧ (enterPlan p tx x s).map = s.map ∧ (enterPlan p tx x s).mon = s.mon ∧ (enterPlan p tx x s).alarms = s.alarms ∧ (enterPlan p tx x s).faults = s.faults ∧ (enterPlan p tx x s).jrx = s.jrx ∧ (enterPlan p tx x s).test = s.test ∧ (enterPlan p tx x s).pins = s.pins ∧ (enterPlan p tx x s).bulk = s.bulk ∧ (enterPlan p tx x s).pending = s.pending := by
  simp only [enterPlan]; (repeat' split) <;> simp
@[simp] theorem commitAck_keeps (p : LPort) (b : List Word) (s : State) :
    (commitAck p b s).sys = s.sys ∧ (commitAck p b s).power = s.power ∧ (commitAck p b s).mbx = s.mbx ∧ (commitAck p b s).twi = s.twi ∧ (commitAck p b s).pool = s.pool ∧ (commitAck p b s).lanes = s.lanes ∧ (commitAck p b s).map = s.map ∧ (commitAck p b s).mon = s.mon ∧ (commitAck p b s).alarms = s.alarms ∧ (commitAck p b s).faults = s.faults ∧ (commitAck p b s).jrx = s.jrx ∧ (commitAck p b s).test = s.test ∧ (commitAck p b s).pins = s.pins ∧ (commitAck p b s).bulk = s.bulk ∧ (commitAck p b s).pending = s.pending := by
  simp only [commitAck]; (repeat' split) <;> simp
@[simp] theorem dropTxSwitch_keeps (p : LPort) (s : State) :
    (dropTxSwitch p s).sys = s.sys ∧ (dropTxSwitch p s).power = s.power ∧ (dropTxSwitch p s).mbx = s.mbx ∧ (dropTxSwitch p s).twi = s.twi ∧ (dropTxSwitch p s).pool = s.pool ∧ (dropTxSwitch p s).lanes = s.lanes ∧ (dropTxSwitch p s).map = s.map ∧ (dropTxSwitch p s).mon = s.mon ∧ (dropTxSwitch p s).alarms = s.alarms ∧ (dropTxSwitch p s).faults = s.faults ∧ (dropTxSwitch p s).jrx = s.jrx ∧ (dropTxSwitch p s).test = s.test ∧ (dropTxSwitch p s).pins = s.pins ∧ (dropTxSwitch p s).bulk = s.bulk ∧ (dropTxSwitch p s).free = s.free ∧ (dropTxSwitch p s).pending = s.pending := by
  simp only [dropTxSwitch]; (repeat' split) <;> simp
@[simp] theorem nakCommit_keeps (p : LPort) (why : Nat) (c : Commit) (s : State) :
    (nakCommit p why c s).sys = s.sys ∧ (nakCommit p why c s).power = s.power ∧ (nakCommit p why c s).twi = s.twi ∧ (nakCommit p why c s).lanes = s.lanes ∧ (nakCommit p why c s).mon = s.mon ∧ (nakCommit p why c s).faults = s.faults ∧ (nakCommit p why c s).test = s.test ∧ (nakCommit p why c s).pins = s.pins ∧ (nakCommit p why c s).bulk = s.bulk ∧ (nakCommit p why c s).pending = s.pending := by
  simp only [nakCommit]; (repeat' split) <;> simp
@[simp] theorem nakPlan_keeps (p : LPort) (why : Nat) (x : Tune) (s : State) :
    (nakPlan p why x s).sys = s.sys ∧ (nakPlan p why x s).power = s.power ∧ (nakPlan p why x s).twi = s.twi ∧ (nakPlan p why x s).lanes = s.lanes ∧ (nakPlan p why x s).mon = s.mon ∧ (nakPlan p why x s).faults = s.faults ∧ (nakPlan p why x s).test = s.test ∧ (nakPlan p why x s).pins = s.pins ∧ (nakPlan p why x s).bulk = s.bulk ∧ (nakPlan p why x s).pending = s.pending := by
  simp only [nakPlan]; (repeat' split) <;> simp
@[simp] theorem commitNak_keeps (p : LPort) (b : List Word) (s : State) :
    (commitNak p b s).sys = s.sys ∧ (commitNak p b s).power = s.power ∧ (commitNak p b s).twi = s.twi ∧ (commitNak p b s).lanes = s.lanes ∧ (commitNak p b s).mon = s.mon ∧ (commitNak p b s).faults = s.faults ∧ (commitNak p b s).test = s.test ∧ (commitNak p b s).pins = s.pins ∧ (commitNak p b s).bulk = s.bulk ∧ (commitNak p b s).pending = s.pending := by
  simp only [commitNak]; (repeat' split) <;> simp
@[simp] theorem commitRetry_keeps (p : LPort) (s : State) :
    (commitRetry p s).sys = s.sys ∧ (commitRetry p s).power = s.power ∧ (commitRetry p s).mbx = s.mbx ∧ (commitRetry p s).twi = s.twi ∧ (commitRetry p s).pool = s.pool ∧ (commitRetry p s).lanes = s.lanes ∧ (commitRetry p s).map = s.map ∧ (commitRetry p s).dial = s.dial ∧ (commitRetry p s).mon = s.mon ∧ (commitRetry p s).alarms = s.alarms ∧ (commitRetry p s).faults = s.faults ∧ (commitRetry p s).jrx = s.jrx ∧ (commitRetry p s).test = s.test ∧ (commitRetry p s).pins = s.pins ∧ (commitRetry p s).bulk = s.bulk ∧ (commitRetry p s).pending = s.pending := by
  simp only [commitRetry]; (repeat' split) <;> simp
@[simp] theorem commitCancel_keeps (p : LPort) (b : List Word) (s : State) :
    (commitCancel p b s).sys = s.sys ∧ (commitCancel p b s).power = s.power ∧ (commitCancel p b s).mbx = s.mbx ∧ (commitCancel p b s).twi = s.twi ∧ (commitCancel p b s).pool = s.pool ∧ (commitCancel p b s).lanes = s.lanes ∧ (commitCancel p b s).map = s.map ∧ (commitCancel p b s).mon = s.mon ∧ (commitCancel p b s).alarms = s.alarms ∧ (commitCancel p b s).faults = s.faults ∧ (commitCancel p b s).jrx = s.jrx ∧ (commitCancel p b s).test = s.test ∧ (commitCancel p b s).pins = s.pins ∧ (commitCancel p b s).bulk = s.bulk ∧ (commitCancel p b s).pending = s.pending := by
  simp only [commitCancel]; (repeat' split) <;> simp
@[simp] theorem tunePlan_keeps (p : LPort) (label : Psfn) (b : List Word) (s : State) :
    (tunePlan p label b s).sys = s.sys ∧ (tunePlan p label b s).power = s.power ∧ (tunePlan p label b s).mbx = s.mbx ∧ (tunePlan p label b s).twi = s.twi ∧ (tunePlan p label b s).pool = s.pool ∧ (tunePlan p label b s).lanes = s.lanes ∧ (tunePlan p label b s).map = s.map ∧ (tunePlan p label b s).mon = s.mon ∧ (tunePlan p label b s).alarms = s.alarms ∧ (tunePlan p label b s).faults = s.faults ∧ (tunePlan p label b s).jrx = s.jrx ∧ (tunePlan p label b s).test = s.test ∧ (tunePlan p label b s).pins = s.pins ∧ (tunePlan p label b s).bulk = s.bulk ∧ (tunePlan p label b s).pending = s.pending := by
  simp only [tunePlan]; (repeat' split) <;> simp
@[simp] theorem tuneDwellEnd_keeps (p : LPort) (mean : BitVec 16) (s : State) :
    (tuneDwellEnd p mean s).sys = s.sys ∧ (tuneDwellEnd p mean s).power = s.power ∧ (tuneDwellEnd p mean s).twi = s.twi ∧ (tuneDwellEnd p mean s).lanes = s.lanes ∧ (tuneDwellEnd p mean s).mon = s.mon ∧ (tuneDwellEnd p mean s).faults = s.faults ∧ (tuneDwellEnd p mean s).test = s.test ∧ (tuneDwellEnd p mean s).pins = s.pins ∧ (tuneDwellEnd p mean s).bulk = s.bulk ∧ (tuneDwellEnd p mean s).pending = s.pending := by
  simp only [tuneDwellEnd]; (repeat' split) <;> simp
@[simp] theorem tuneReport_keeps (p : LPort) (b : List Word) (s : State) :
    (tuneReport p b s).sys = s.sys ∧ (tuneReport p b s).power = s.power ∧ (tuneReport p b s).twi = s.twi ∧ (tuneReport p b s).lanes = s.lanes ∧ (tuneReport p b s).mon = s.mon ∧ (tuneReport p b s).faults = s.faults ∧ (tuneReport p b s).test = s.test ∧ (tuneReport p b s).pins = s.pins ∧ (tuneReport p b s).bulk = s.bulk ∧ (tuneReport p b s).pending = s.pending := by
  simp only [tuneReport]; (repeat' split) <;> simp
@[simp] theorem retune_keeps (p : LPort) (s : State) :
    (retune p s).sys = s.sys ∧ (retune p s).power = s.power ∧ (retune p s).mbx = s.mbx ∧ (retune p s).twi = s.twi ∧ (retune p s).pool = s.pool ∧ (retune p s).lanes = s.lanes ∧ (retune p s).map = s.map ∧ (retune p s).dial = s.dial ∧ (retune p s).mon = s.mon ∧ (retune p s).alarms = s.alarms ∧ (retune p s).faults = s.faults ∧ (retune p s).jrx = s.jrx ∧ (retune p s).test = s.test ∧ (retune p s).pins = s.pins ∧ (retune p s).bulk = s.bulk ∧ (retune p s).pending = s.pending := by
  simp only [retune]; (repeat' split) <;> simp
@[simp] theorem autoRetune_keeps (p : LPort) (s : State) :
    (autoRetune p s).sys = s.sys ∧ (autoRetune p s).power = s.power ∧ (autoRetune p s).mbx = s.mbx ∧ (autoRetune p s).twi = s.twi ∧ (autoRetune p s).pool = s.pool ∧ (autoRetune p s).lanes = s.lanes ∧ (autoRetune p s).map = s.map ∧ (autoRetune p s).dial = s.dial ∧ (autoRetune p s).mon = s.mon ∧ (autoRetune p s).alarms = s.alarms ∧ (autoRetune p s).faults = s.faults ∧ (autoRetune p s).jrx = s.jrx ∧ (autoRetune p s).test = s.test ∧ (autoRetune p s).pins = s.pins ∧ (autoRetune p s).bulk = s.bulk ∧ (autoRetune p s).pending = s.pending := by
  simp only [autoRetune]; (repeat' split) <;> simp
@[simp] theorem verifyDone_keeps (p : LPort) (margin : BitVec 16) (s : State) :
    (verifyDone p margin s).sys = s.sys ∧ (verifyDone p margin s).power = s.power ∧ (verifyDone p margin s).twi = s.twi ∧ (verifyDone p margin s).lanes = s.lanes ∧ (verifyDone p margin s).mon = s.mon ∧ (verifyDone p margin s).faults = s.faults ∧ (verifyDone p margin s).test = s.test ∧ (verifyDone p margin s).pins = s.pins ∧ (verifyDone p margin s).bulk = s.bulk ∧ (verifyDone p margin s).pending = s.pending := by
  simp only [verifyDone]; (repeat' split) <;> simp
@[simp] theorem trackReportTimer_keeps (p : LPort) (s : State) :
    (trackReportTimer p s).sys = s.sys ∧ (trackReportTimer p s).power = s.power ∧ (trackReportTimer p s).mbx = s.mbx ∧ (trackReportTimer p s).twi = s.twi ∧ (trackReportTimer p s).pool = s.pool ∧ (trackReportTimer p s).lanes = s.lanes ∧ (trackReportTimer p s).map = s.map ∧ (trackReportTimer p s).dial = s.dial ∧ (trackReportTimer p s).mon = s.mon ∧ (trackReportTimer p s).alarms = s.alarms ∧ (trackReportTimer p s).faults = s.faults ∧ (trackReportTimer p s).jrx = s.jrx ∧ (trackReportTimer p s).test = s.test ∧ (trackReportTimer p s).pins = s.pins ∧ (trackReportTimer p s).bulk = s.bulk ∧ (trackReportTimer p s).free = s.free ∧ (trackReportTimer p s).pending = s.pending := by
  simp only [trackReportTimer]; (repeat' split) <;> simp
@[simp] theorem qMarginRefresh_keeps (p : LPort) (s : State) :
    (qMarginRefresh p s).sys = s.sys ∧ (qMarginRefresh p s).power = s.power ∧ (qMarginRefresh p s).mbx = s.mbx ∧ (qMarginRefresh p s).twi = s.twi ∧ (qMarginRefresh p s).pool = s.pool ∧ (qMarginRefresh p s).lanes = s.lanes ∧ (qMarginRefresh p s).map = s.map ∧ (qMarginRefresh p s).dial = s.dial ∧ (qMarginRefresh p s).mon = s.mon ∧ (qMarginRefresh p s).alarms = s.alarms ∧ (qMarginRefresh p s).faults = s.faults ∧ (qMarginRefresh p s).jrx = s.jrx ∧ (qMarginRefresh p s).test = s.test ∧ (qMarginRefresh p s).pins = s.pins ∧ (qMarginRefresh p s).bulk = s.bulk ∧ (qMarginRefresh p s).free = s.free ∧ (qMarginRefresh p s).pending = s.pending := by
  simp only [qMarginRefresh]; (repeat' split) <;> simp
@[simp] theorem degradeTimer_keeps (p : LPort) (s : State) :
    (degradeTimer p s).sys = s.sys ∧ (degradeTimer p s).power = s.power ∧ (degradeTimer p s).twi = s.twi ∧ (degradeTimer p s).lanes = s.lanes ∧ (degradeTimer p s).mon = s.mon ∧ (degradeTimer p s).faults = s.faults ∧ (degradeTimer p s).test = s.test ∧ (degradeTimer p s).pins = s.pins ∧ (degradeTimer p s).bulk = s.bulk ∧ (degradeTimer p s).free = s.free ∧ (degradeTimer p s).pending = s.pending := by
  simp only [degradeTimer]; (repeat' split) <;> simp
@[simp] theorem spanAlarmClear_keeps (p : LPort) (s : State) :
    (spanAlarmClear p s).sys = s.sys ∧ (spanAlarmClear p s).power = s.power ∧ (spanAlarmClear p s).twi = s.twi ∧ (spanAlarmClear p s).ports = s.ports ∧ (spanAlarmClear p s).lanes = s.lanes ∧ (spanAlarmClear p s).map = s.map ∧ (spanAlarmClear p s).dial = s.dial ∧ (spanAlarmClear p s).mon = s.mon ∧ (spanAlarmClear p s).faults = s.faults ∧ (spanAlarmClear p s).test = s.test ∧ (spanAlarmClear p s).pins = s.pins ∧ (spanAlarmClear p s).bulk = s.bulk ∧ (spanAlarmClear p s).free = s.free ∧ (spanAlarmClear p s).pending = s.pending := by
  simp only [spanAlarmClear]; (repeat' split) <;> simp
@[simp] theorem trackIn_keeps (p : LPort) (b : List Word) (s : State) :
    (trackIn p b s).sys = s.sys ∧ (trackIn p b s).power = s.power ∧ (trackIn p b s).twi = s.twi ∧ (trackIn p b s).lanes = s.lanes ∧ (trackIn p b s).mon = s.mon ∧ (trackIn p b s).faults = s.faults ∧ (trackIn p b s).test = s.test ∧ (trackIn p b s).pins = s.pins ∧ (trackIn p b s).bulk = s.bulk ∧ (trackIn p b s).free = s.free ∧ (trackIn p b s).pending = s.pending := by
  simp only [trackIn]; (repeat' split) <;> simp
@[simp] theorem holdTimeExpiry_keeps (p : LPort) (s : State) :
    (holdTimeExpiry p s).sys = s.sys ∧ (holdTimeExpiry p s).power = s.power ∧ (holdTimeExpiry p s).twi = s.twi ∧ (holdTimeExpiry p s).lanes = s.lanes ∧ (holdTimeExpiry p s).mon = s.mon ∧ (holdTimeExpiry p s).faults = s.faults ∧ (holdTimeExpiry p s).test = s.test ∧ (holdTimeExpiry p s).pins = s.pins ∧ (holdTimeExpiry p s).bulk = s.bulk ∧ (holdTimeExpiry p s).free = s.free ∧ (holdTimeExpiry p s).pending = s.pending := by
  simp only [holdTimeExpiry]; (repeat' split) <;> simp
@[simp] theorem holdoverAlternate_keeps (p : LPort) (s : State) :
    (holdoverAlternate p s).sys = s.sys ∧ (holdoverAlternate p s).power = s.power ∧ (holdoverAlternate p s).mbx = s.mbx ∧ (holdoverAlternate p s).twi = s.twi ∧ (holdoverAlternate p s).lanes = s.lanes ∧ (holdoverAlternate p s).map = s.map ∧ (holdoverAlternate p s).dial = s.dial ∧ (holdoverAlternate p s).mon = s.mon ∧ (holdoverAlternate p s).alarms = s.alarms ∧ (holdoverAlternate p s).faults = s.faults ∧ (holdoverAlternate p s).jrx = s.jrx ∧ (holdoverAlternate p s).test = s.test ∧ (holdoverAlternate p s).pins = s.pins ∧ (holdoverAlternate p s).bulk = s.bulk ∧ (holdoverAlternate p s).free = s.free ∧ (holdoverAlternate p s).pending = s.pending := by
  simp only [holdoverAlternate]; (repeat' split) <;> simp
@[simp] theorem settleAlternate_keeps (p : LPort) (s : State) :
    (settleAlternate p s).sys = s.sys ∧ (settleAlternate p s).power = s.power ∧ (settleAlternate p s).mbx = s.mbx ∧ (settleAlternate p s).twi = s.twi ∧ (settleAlternate p s).pool = s.pool ∧ (settleAlternate p s).lanes = s.lanes ∧ (settleAlternate p s).map = s.map ∧ (settleAlternate p s).dial = s.dial ∧ (settleAlternate p s).mon = s.mon ∧ (settleAlternate p s).alarms = s.alarms ∧ (settleAlternate p s).faults = s.faults ∧ (settleAlternate p s).jrx = s.jrx ∧ (settleAlternate p s).test = s.test ∧ (settleAlternate p s).pins = s.pins ∧ (settleAlternate p s).bulk = s.bulk ∧ (settleAlternate p s).free = s.free ∧ (settleAlternate p s).pending = s.pending := by
  simp only [settleAlternate]; (repeat' split) <;> simp
@[simp] theorem holdoverLocked_keeps (p : LPort) (s : State) :
    (holdoverLocked p s).sys = s.sys ∧ (holdoverLocked p s).power = s.power ∧ (holdoverLocked p s).twi = s.twi ∧ (holdoverLocked p s).lanes = s.lanes ∧ (holdoverLocked p s).dial = s.dial ∧ (holdoverLocked p s).mon = s.mon ∧ (holdoverLocked p s).faults = s.faults ∧ (holdoverLocked p s).test = s.test ∧ (holdoverLocked p s).pins = s.pins ∧ (holdoverLocked p s).bulk = s.bulk ∧ (holdoverLocked p s).free = s.free ∧ (holdoverLocked p s).pending = s.pending := by
  simp only [holdoverLocked]; (repeat' split) <;> simp

@[simp] theorem scheduleRate_keeps (p : LPort) (r : RateChange) (s : State) :
    (scheduleRate p r s).sys = s.sys ∧ (scheduleRate p r s).power = s.power ∧ (scheduleRate p r s).twi = s.twi ∧ (scheduleRate p r s).lanes = s.lanes ∧ (scheduleRate p r s).mon = s.mon ∧ (scheduleRate p r s).faults = s.faults ∧ (scheduleRate p r s).test = s.test ∧ (scheduleRate p r s).pins = s.pins ∧ (scheduleRate p r s).bulk = s.bulk ∧ (scheduleRate p r s).pending = s.pending := by
  simp only [scheduleRate]; (repeat' split) <;> simp
@[simp] theorem cancelRate_keeps (p : LPort) (s : State) :
    (cancelRate p s).sys = s.sys ∧ (cancelRate p s).power = s.power ∧ (cancelRate p s).mbx = s.mbx ∧ (cancelRate p s).twi = s.twi ∧ (cancelRate p s).pool = s.pool ∧ (cancelRate p s).lanes = s.lanes ∧ (cancelRate p s).map = s.map ∧ (cancelRate p s).mon = s.mon ∧ (cancelRate p s).alarms = s.alarms ∧ (cancelRate p s).faults = s.faults ∧ (cancelRate p s).jrx = s.jrx ∧ (cancelRate p s).test = s.test ∧ (cancelRate p s).pins = s.pins ∧ (cancelRate p s).bulk = s.bulk ∧ (cancelRate p s).free = s.free ∧ (cancelRate p s).pending = s.pending := by
  refine ⟨?_, ?_, ?_, ?_, ?_, ?_, ?_, ?_, ?_, ?_, ?_, ?_, ?_, ?_, ?_, ?_⟩ <;> (simp only [cancelRate]; repeat' first | with_reducible rfl | (simp; done) | with_reducible refine (eachOf_sys _ _ _ ?_).trans ?_ | with_reducible refine (eachOf_power _ _ _ ?_).trans ?_ | with_reducible refine (eachOf_mbx _ _ _ ?_).trans ?_ | with_reducible refine (eachOf_twi _ _ _ ?_).trans ?_ | with_reducible refine (eachOf_pool _ _ _ ?_).trans ?_ | with_reducible refine (eachOf_lanes _ _ _ ?_).trans ?_ | with_reducible refine (eachOf_map _ _ _ ?_).trans ?_ | with_reducible refine (eachOf_mon _ _ _ ?_).trans ?_ | with_reducible refine (eachOf_alarms _ _ _ ?_).trans ?_ | with_reducible refine (eachOf_faults _ _ _ ?_).trans ?_ | with_reducible refine (eachOf_jrx _ _ _ ?_).trans ?_ | with_reducible refine (eachOf_test _ _ _ ?_).trans ?_ | with_reducible refine (eachOf_pins _ _ _ ?_).trans ?_ | with_reducible refine (eachOf_bulk _ _ _ ?_).trans ?_ | with_reducible refine (eachOf_free _ _ _ ?_).trans ?_ | with_reducible refine (eachOf_pending _ _ _ ?_).trans ?_ | with_reducible refine (eachPort_sys _ _ ?_).trans ?_ | with_reducible refine (eachPort_power _ _ ?_).trans ?_ | with_reducible refine (eachPort_mbx _ _ ?_).trans ?_ | with_reducible refine (eachPort_twi _ _ ?_).trans ?_ | with_reducible refine (eachPort_pool _ _ ?_).trans ?_ | with_reducible refine (eachPort_lanes _ _ ?_).trans ?_ | with_reducible refine (eachPort_map _ _ ?_).trans ?_ | with_reducible refine (eachPort_mon _ _ ?_).trans ?_ | with_reducible refine (eachPort_alarms _ _ ?_).trans ?_ | with_reducible refine (eachPort_faults _ _ ?_).trans ?_ | with_reducible refine (eachPort_jrx _ _ ?_).trans ?_ | with_reducible refine (eachPort_test _ _ ?_).trans ?_ | with_reducible refine (eachPort_pins _ _ ?_).trans ?_ | with_reducible refine (eachPort_bulk _ _ ?_).trans ?_ | with_reducible refine (eachPort_free _ _ ?_).trans ?_ | with_reducible refine (eachPort_pending _ _ ?_).trans ?_ | with_reducible refine (doIf_sys _ _ _ ?_).trans ?_ | with_reducible refine (doIf_power _ _ _ ?_).trans ?_ | with_reducible refine (doIf_mbx _ _ _ ?_).trans ?_ | with_reducible refine (doIf_twi _ _ _ ?_).trans ?_ | with_reducible refine (doIf_pool _ _ _ ?_).trans ?_ | with_reducible refine (doIf_lanes _ _ _ ?_).trans ?_ | with_reducible refine (doIf_map _ _ _ ?_).trans ?_ | with_reducible refine (doIf_mon _ _ _ ?_).trans ?_ | with_reducible refine (doIf_alarms _ _ _ ?_).trans ?_ | with_reducible refine (doIf_faults _ _ _ ?_).trans ?_ | with_reducible refine (doIf_jrx _ _ _ ?_).trans ?_ | with_reducible refine (doIf_test _ _ _ ?_).trans ?_ | with_reducible refine (doIf_pins _ _ _ ?_).trans ?_ | with_reducible refine (doIf_bulk _ _ _ ?_).trans ?_ | with_reducible refine (doIf_free _ _ _ ?_).trans ?_ | with_reducible refine (doIf_pending _ _ _ ?_).trans ?_ | with_reducible refine (command_twi _ _ _ _ _ _ ?_).trans ?_ | with_reducible refine (command_test _ _ _ _ _ _ ?_).trans ?_ | with_reducible refine (command_pins _ _ _ _ _ _ ?_).trans ?_ | with_reducible refine (command_bulk _ _ _ _ _ _ ?_).trans ?_ | with_reducible refine (command_pending _ _ _ _ _ _ ?_).trans ?_ | with_reducible refine (commandOk_twi _ _ _ _ _ _ ?_).trans ?_ | with_reducible refine (commandOk_test _ _ _ _ _ _ ?_).trans ?_ | with_reducible refine (commandOk_pins _ _ _ _ _ _ ?_).trans ?_ | with_reducible refine (commandOk_bulk _ _ _ _ _ _ ?_).trans ?_ | with_reducible refine (commandOk_pending _ _ _ _ _ _ ?_).trans ?_ | with_reducible refine (awaitReport_power _ _ _ _ _ ?_).trans ?_ | with_reducible refine (awaitReport_twi _ _ _ _ _ ?_).trans ?_ | with_reducible refine (awaitReport_pool _ _ _ _ _ ?_).trans ?_ | with_reducible refine (awaitReport_lanes _ _ _ _ _ ?_).trans ?_ | with_reducible refine (awaitReport_map _ _ _ _ _ ?_).trans ?_ | with_reducible refine (awaitReport_mon _ _ _ _ _ ?_).trans ?_ | with_reducible refine (awaitReport_alarms _ _ _ _ _ ?_).trans ?_ | with_reducible refine (awaitReport_faults _ _ _ _ _ ?_).trans ?_ | with_reducible refine (awaitReport_jrx _ _ _ _ _ ?_).trans ?_ | with_reducible refine (awaitReport_test _ _ _ _ _ ?_).trans ?_ | with_reducible refine (awaitReport_pins _ _ _ _ _ ?_).trans ?_ | with_reducible refine (awaitReport_bulk _ _ _ _ _ ?_).trans ?_ | with_reducible refine (awaitReport_free _ _ _ _ _ ?_).trans ?_ | with_reducible refine (awaitReport_pending _ _ _ _ _ ?_).trans ?_ | with_reducible refine (report_twi _ _ _ _ _ _ ?_).trans ?_ | with_reducible refine (report_test _ _ _ _ _ _ ?_).trans ?_ | with_reducible refine (report_pins _ _ _ _ _ _ ?_).trans ?_ | with_reducible refine (report_bulk _ _ _ _ _ _ ?_).trans ?_ | with_reducible refine (report_pending _ _ _ _ _ _ ?_).trans ?_ | intro _ | split | simp)
@[simp] theorem pathIn_keeps (p : LPort) (label : Psfn) (b : List Word) (s : State) :
    (pathIn p label b s).sys = s.sys ∧ (pathIn p label b s).power = s.power ∧ (pathIn p label b s).twi = s.twi ∧ (pathIn p label b s).lanes = s.lanes ∧ (pathIn p label b s).mon = s.mon ∧ (pathIn p label b s).faults = s.faults ∧ (pathIn p label b s).test = s.test ∧ (pathIn p label b s).pins = s.pins ∧ (pathIn p label b s).bulk = s.bulk ∧ (pathIn p label b s).pending = s.pending := by
  simp only [pathIn]; (repeat' split) <;> simp
@[simp] theorem sendCancel_keeps (p : LPort) (r : RateChange) (s : State) :
    (sendCancel p r s).sys = s.sys ∧ (sendCancel p r s).power = s.power ∧ (sendCancel p r s).mbx = s.mbx ∧ (sendCancel p r s).twi = s.twi ∧ (sendCancel p r s).pool = s.pool ∧ (sendCancel p r s).lanes = s.lanes ∧ (sendCancel p r s).map = s.map ∧ (sendCancel p r s).dial = s.dial ∧ (sendCancel p r s).mon = s.mon ∧ (sendCancel p r s).alarms = s.alarms ∧ (sendCancel p r s).faults = s.faults ∧ (sendCancel p r s).jrx = s.jrx ∧ (sendCancel p r s).test = s.test ∧ (sendCancel p r s).pins = s.pins ∧ (sendCancel p r s).bulk = s.bulk ∧ (sendCancel p r s).free = s.free ∧ (sendCancel p r s).pending = s.pending := by
  simp only [sendCancel]; (repeat' split) <;> simp
@[simp] theorem answerPath_keeps (r : RateChange) (a : Answer) (s : State) :
    (answerPath r a s).power = s.power ∧ (answerPath r a s).twi = s.twi ∧ (answerPath r a s).ports = s.ports ∧ (answerPath r a s).pool = s.pool ∧ (answerPath r a s).lanes = s.lanes ∧ (answerPath r a s).map = s.map ∧ (answerPath r a s).mon = s.mon ∧ (answerPath r a s).alarms = s.alarms ∧ (answerPath r a s).faults = s.faults ∧ (answerPath r a s).test = s.test ∧ (answerPath r a s).pins = s.pins ∧ (answerPath r a s).bulk = s.bulk ∧ (answerPath r a s).free = s.free ∧ (answerPath r a s).pending = s.pending := by
  simp only [answerPath]; (repeat' split) <;> simp
@[simp] theorem pathAckEnd_keeps (p : LPort) (op status node : Nat) (r : RateChange) (s : State) :
    (pathAckEnd p op status node r s).power = s.power ∧ (pathAckEnd p op status node r s).twi = s.twi ∧ (pathAckEnd p op status node r s).pool = s.pool ∧ (pathAckEnd p op status node r s).lanes = s.lanes ∧ (pathAckEnd p op status node r s).map = s.map ∧ (pathAckEnd p op status node r s).mon = s.mon ∧ (pathAckEnd p op status node r s).alarms = s.alarms ∧ (pathAckEnd p op status node r s).faults = s.faults ∧ (pathAckEnd p op status node r s).test = s.test ∧ (pathAckEnd p op status node r s).pins = s.pins ∧ (pathAckEnd p op status node r s).bulk = s.bulk ∧ (pathAckEnd p op status node r s).free = s.free ∧ (pathAckEnd p op status node r s).pending = s.pending := by
  simp only [pathAckEnd]; (repeat' split) <;> simp
@[simp] theorem pathAckIn_keeps (p : LPort) (b : List Word) (s : State) :
    (pathAckIn p b s).power = s.power ∧ (pathAckIn p b s).twi = s.twi ∧ (pathAckIn p b s).pool = s.pool ∧ (pathAckIn p b s).lanes = s.lanes ∧ (pathAckIn p b s).map = s.map ∧ (pathAckIn p b s).mon = s.mon ∧ (pathAckIn p b s).alarms = s.alarms ∧ (pathAckIn p b s).faults = s.faults ∧ (pathAckIn p b s).test = s.test ∧ (pathAckIn p b s).pins = s.pins ∧ (pathAckIn p b s).bulk = s.bulk ∧ (pathAckIn p b s).free = s.free ∧ (pathAckIn p b s).pending = s.pending := by
  simp only [pathAckIn]; (repeat' split) <;> simp
@[simp] theorem pathCommitTimeout_keeps (p : LPort) (s : State) :
    (pathCommitTimeout p s).power = s.power ∧ (pathCommitTimeout p s).twi = s.twi ∧ (pathCommitTimeout p s).pool = s.pool ∧ (pathCommitTimeout p s).lanes = s.lanes ∧ (pathCommitTimeout p s).map = s.map ∧ (pathCommitTimeout p s).mon = s.mon ∧ (pathCommitTimeout p s).alarms = s.alarms ∧ (pathCommitTimeout p s).faults = s.faults ∧ (pathCommitTimeout p s).test = s.test ∧ (pathCommitTimeout p s).pins = s.pins ∧ (pathCommitTimeout p s).bulk = s.bulk ∧ (pathCommitTimeout p s).free = s.free ∧ (pathCommitTimeout p s).pending = s.pending := by
  simp only [pathCommitTimeout]; (repeat' split) <;> simp
@[simp] theorem pathCommit_keeps (rq : Req) (s : State) :
    (pathCommit rq s).twi = s.twi ∧ (pathCommit rq s).test = s.test ∧ (pathCommit rq s).pins = s.pins ∧ (pathCommit rq s).bulk = s.bulk ∧ (pathCommit rq s).pending = s.pending := by
  refine ⟨?_, ?_, ?_, ?_, ?_⟩ <;> (simp only [pathCommit]; repeat' first | with_reducible rfl | (simp; done) | with_reducible refine (eachOf_twi _ _ _ ?_).trans ?_ | with_reducible refine (eachOf_test _ _ _ ?_).trans ?_ | with_reducible refine (eachOf_pins _ _ _ ?_).trans ?_ | with_reducible refine (eachOf_bulk _ _ _ ?_).trans ?_ | with_reducible refine (eachOf_pending _ _ _ ?_).trans ?_ | with_reducible refine (eachPort_twi _ _ ?_).trans ?_ | with_reducible refine (eachPort_test _ _ ?_).trans ?_ | with_reducible refine (eachPort_pins _ _ ?_).trans ?_ | with_reducible refine (eachPort_bulk _ _ ?_).trans ?_ | with_reducible refine (eachPort_pending _ _ ?_).trans ?_ | with_reducible refine (doIf_twi _ _ _ ?_).trans ?_ | with_reducible refine (doIf_test _ _ _ ?_).trans ?_ | with_reducible refine (doIf_pins _ _ _ ?_).trans ?_ | with_reducible refine (doIf_bulk _ _ _ ?_).trans ?_ | with_reducible refine (doIf_pending _ _ _ ?_).trans ?_ | with_reducible refine (command_twi _ _ _ _ _ _ ?_).trans ?_ | with_reducible refine (command_test _ _ _ _ _ _ ?_).trans ?_ | with_reducible refine (command_pins _ _ _ _ _ _ ?_).trans ?_ | with_reducible refine (command_bulk _ _ _ _ _ _ ?_).trans ?_ | with_reducible refine (command_pending _ _ _ _ _ _ ?_).trans ?_ | with_reducible refine (commandOk_twi _ _ _ _ _ _ ?_).trans ?_ | with_reducible refine (commandOk_test _ _ _ _ _ _ ?_).trans ?_ | with_reducible refine (commandOk_pins _ _ _ _ _ _ ?_).trans ?_ | with_reducible refine (commandOk_bulk _ _ _ _ _ _ ?_).trans ?_ | with_reducible refine (commandOk_pending _ _ _ _ _ _ ?_).trans ?_ | with_reducible refine (awaitReport_twi _ _ _ _ _ ?_).trans ?_ | with_reducible refine (awaitReport_test _ _ _ _ _ ?_).trans ?_ | with_reducible refine (awaitReport_pins _ _ _ _ _ ?_).trans ?_ | with_reducible refine (awaitReport_bulk _ _ _ _ _ ?_).trans ?_ | with_reducible refine (awaitReport_pending _ _ _ _ _ ?_).trans ?_ | with_reducible refine (report_twi _ _ _ _ _ _ ?_).trans ?_ | with_reducible refine (report_test _ _ _ _ _ _ ?_).trans ?_ | with_reducible refine (report_pins _ _ _ _ _ _ ?_).trans ?_ | with_reducible refine (report_bulk _ _ _ _ _ _ ?_).trans ?_ | with_reducible refine (report_pending _ _ _ _ _ _ ?_).trans ?_ | intro _ | split | simp)
@[simp] theorem txUse_keeps (p : LPort) (u : NlcUse) (s : State) :
    (txUse p u s).sys = s.sys ∧ (txUse p u s).power = s.power ∧ (txUse p u s).mbx = s.mbx ∧ (txUse p u s).twi = s.twi ∧ (txUse p u s).pool = s.pool ∧ (txUse p u s).lanes = s.lanes ∧ (txUse p u s).map = s.map ∧ (txUse p u s).dial = s.dial ∧ (txUse p u s).mon = s.mon ∧ (txUse p u s).alarms = s.alarms ∧ (txUse p u s).faults = s.faults ∧ (txUse p u s).jrx = s.jrx ∧ (txUse p u s).test = s.test ∧ (txUse p u s).pins = s.pins ∧ (txUse p u s).bulk = s.bulk ∧ (txUse p u s).free = s.free ∧ (txUse p u s).pending = s.pending := by
  simp only [txUse]; (repeat' split) <;> simp
@[simp] theorem rxUse_keeps (p : LPort) (u : NlcUse) (s : State) :
    (rxUse p u s).sys = s.sys ∧ (rxUse p u s).power = s.power ∧ (rxUse p u s).twi = s.twi ∧ (rxUse p u s).lanes = s.lanes ∧ (rxUse p u s).map = s.map ∧ (rxUse p u s).dial = s.dial ∧ (rxUse p u s).mon = s.mon ∧ (rxUse p u s).faults = s.faults ∧ (rxUse p u s).test = s.test ∧ (rxUse p u s).pins = s.pins ∧ (rxUse p u s).bulk = s.bulk ∧ (rxUse p u s).free = s.free ∧ (rxUse p u s).pending = s.pending := by
  simp only [rxUse]; (repeat' split) <;> simp
@[simp] theorem switchTx_keeps (p : LPort) (d : Word) (g a : BitVec 8) (kind : BitVec 2) (s : State) :
    (switchTx p d g a kind s).sys = s.sys ∧ (switchTx p d g a kind s).power = s.power ∧ (switchTx p d g a kind s).twi = s.twi ∧ (switchTx p d g a kind s).lanes = s.lanes ∧ (switchTx p d g a kind s).mon = s.mon ∧ (switchTx p d g a kind s).faults = s.faults ∧ (switchTx p d g a kind s).test = s.test ∧ (switchTx p d g a kind s).pins = s.pins ∧ (switchTx p d g a kind s).bulk = s.bulk ∧ (switchTx p d g a kind s).pending = s.pending := by
  simp only [switchTx]; (repeat' split) <;> simp
@[simp] theorem switchRx_keeps (p : LPort) (n : Psfn) (d : Word) (g a : BitVec 8) (kind : BitVec 2) (s : State) :
    (switchRx p n d g a kind s).sys = s.sys ∧ (switchRx p n d g a kind s).power = s.power ∧ (switchRx p n d g a kind s).twi = s.twi ∧ (switchRx p n d g a kind s).lanes = s.lanes ∧ (switchRx p n d g a kind s).map = s.map ∧ (switchRx p n d g a kind s).dial = s.dial ∧ (switchRx p n d g a kind s).mon = s.mon ∧ (switchRx p n d g a kind s).faults = s.faults ∧ (switchRx p n d g a kind s).test = s.test ∧ (switchRx p n d g a kind s).pins = s.pins ∧ (switchRx p n d g a kind s).bulk = s.bulk ∧ (switchRx p n d g a kind s).free = s.free ∧ (switchRx p n d g a kind s).pending = s.pending := by
  simp only [switchRx]; (repeat' split) <;> simp
@[simp] theorem switchRateTx_keeps (p : LPort) (rate : BitVec 10) (s : State) :
    (switchRateTx p rate s).sys = s.sys ∧ (switchRateTx p rate s).power = s.power ∧ (switchRateTx p rate s).twi = s.twi ∧ (switchRateTx p rate s).lanes = s.lanes ∧ (switchRateTx p rate s).mon = s.mon ∧ (switchRateTx p rate s).faults = s.faults ∧ (switchRateTx p rate s).test = s.test ∧ (switchRateTx p rate s).pins = s.pins ∧ (switchRateTx p rate s).bulk = s.bulk ∧ (switchRateTx p rate s).free = s.free ∧ (switchRateTx p rate s).pending = s.pending := by
  simp only [switchRateTx]; (repeat' split) <;> simp
@[simp] theorem switchRateRx_keeps (p : LPort) (rate : BitVec 10) (s : State) :
    (switchRateRx p rate s).sys = s.sys ∧ (switchRateRx p rate s).power = s.power ∧ (switchRateRx p rate s).twi = s.twi ∧ (switchRateRx p rate s).lanes = s.lanes ∧ (switchRateRx p rate s).mon = s.mon ∧ (switchRateRx p rate s).faults = s.faults ∧ (switchRateRx p rate s).test = s.test ∧ (switchRateRx p rate s).pins = s.pins ∧ (switchRateRx p rate s).bulk = s.bulk ∧ (switchRateRx p rate s).free = s.free ∧ (switchRateRx p rate s).pending = s.pending := by
  simp only [switchRateRx]; (repeat' split) <;> simp
@[simp] theorem runSwitch_keeps (k : DialKind) (n : Psfn) (s : State) :
    (runSwitch k n s).sys = s.sys ∧ (runSwitch k n s).power = s.power ∧ (runSwitch k n s).twi = s.twi ∧ (runSwitch k n s).lanes = s.lanes ∧ (runSwitch k n s).mon = s.mon ∧ (runSwitch k n s).faults = s.faults ∧ (runSwitch k n s).test = s.test ∧ (runSwitch k n s).pins = s.pins ∧ (runSwitch k n s).bulk = s.bulk ∧ (runSwitch k n s).pending = s.pending := by
  simp only [runSwitch]; (repeat' split) <;> simp
@[simp] theorem headAcked_keeps (p : LPort) (s : State) :
    (headAcked p s).sys = s.sys ∧ (headAcked p s).power = s.power ∧ (headAcked p s).mbx = s.mbx ∧ (headAcked p s).twi = s.twi ∧ (headAcked p s).pool = s.pool ∧ (headAcked p s).lanes = s.lanes ∧ (headAcked p s).map = s.map ∧ (headAcked p s).dial = s.dial ∧ (headAcked p s).mon = s.mon ∧ (headAcked p s).alarms = s.alarms ∧ (headAcked p s).faults = s.faults ∧ (headAcked p s).jrx = s.jrx ∧ (headAcked p s).test = s.test ∧ (headAcked p s).pins = s.pins ∧ (headAcked p s).bulk = s.bulk ∧ (headAcked p s).free = s.free ∧ (headAcked p s).pending = s.pending := by
  simp only [headAcked]; (repeat' split) <;> simp
@[simp] theorem capIn_keeps (p : LPort) (b : List Word) (s : State) :
    (capIn p b s).sys = s.sys ∧ (capIn p b s).power = s.power ∧ (capIn p b s).mbx = s.mbx ∧ (capIn p b s).twi = s.twi ∧ (capIn p b s).pool = s.pool ∧ (capIn p b s).lanes = s.lanes ∧ (capIn p b s).map = s.map ∧ (capIn p b s).dial = s.dial ∧ (capIn p b s).mon = s.mon ∧ (capIn p b s).alarms = s.alarms ∧ (capIn p b s).faults = s.faults ∧ (capIn p b s).jrx = s.jrx ∧ (capIn p b s).test = s.test ∧ (capIn p b s).pins = s.pins ∧ (capIn p b s).bulk = s.bulk ∧ (capIn p b s).free = s.free ∧ (capIn p b s).pending = s.pending := by
  simp only [capIn]; (repeat' split) <;> simp
@[simp] theorem message_keeps (p : LPort) (label : Psfn) (type : Nat) (b : List Word) (s : State) :
    (message p label type b s).power = s.power ∧ (message p label type b s).twi = s.twi ∧ (message p label type b s).lanes = s.lanes ∧ (message p label type b s).mon = s.mon ∧ (message p label type b s).faults = s.faults ∧ (message p label type b s).test = s.test ∧ (message p label type b s).pins = s.pins ∧ (message p label type b s).bulk = s.bulk ∧ (message p label type b s).pending = s.pending := by
  simp only [message]; (repeat' split) <;> simp
@[simp] theorem trainIn_keeps (p : LPort) (cell : List Word) (label : Psfn) (s : State) :
    (trainIn p cell label s).power = s.power ∧ (trainIn p cell label s).twi = s.twi ∧ (trainIn p cell label s).lanes = s.lanes ∧ (trainIn p cell label s).mon = s.mon ∧ (trainIn p cell label s).faults = s.faults ∧ (trainIn p cell label s).test = s.test ∧ (trainIn p cell label s).pins = s.pins ∧ (trainIn p cell label s).bulk = s.bulk ∧ (trainIn p cell label s).pending = s.pending := by
  simp only [trainIn]; (repeat' split) <;> simp
@[simp] theorem cellSent_keeps (p : LPort) (s : State) :
    (cellSent p s).sys = s.sys ∧ (cellSent p s).power = s.power ∧ (cellSent p s).mbx = s.mbx ∧ (cellSent p s).twi = s.twi ∧ (cellSent p s).pool = s.pool ∧ (cellSent p s).lanes = s.lanes ∧ (cellSent p s).map = s.map ∧ (cellSent p s).dial = s.dial ∧ (cellSent p s).mon = s.mon ∧ (cellSent p s).alarms = s.alarms ∧ (cellSent p s).faults = s.faults ∧ (cellSent p s).jrx = s.jrx ∧ (cellSent p s).test = s.test ∧ (cellSent p s).pins = s.pins ∧ (cellSent p s).bulk = s.bulk ∧ (cellSent p s).pending = s.pending := by
  simp only [cellSent]; (repeat' split) <;> simp

@[simp] theorem evalTraces_keeps (p : LPort) (s : State) :
    (evalTraces p s).sys = s.sys ∧ (evalTraces p s).power = s.power ∧ (evalTraces p s).twi = s.twi ∧ (evalTraces p s).ports = s.ports ∧ (evalTraces p s).lanes = s.lanes ∧ (evalTraces p s).map = s.map ∧ (evalTraces p s).dial = s.dial ∧ (evalTraces p s).mon = s.mon ∧ (evalTraces p s).faults = s.faults ∧ (evalTraces p s).test = s.test ∧ (evalTraces p s).pins = s.pins ∧ (evalTraces p s).bulk = s.bulk ∧ (evalTraces p s).free = s.free ∧ (evalTraces p s).pending = s.pending := by
  simp only [evalTraces]; (repeat' split) <;> simp
@[simp] theorem unusableOff_keeps (p : LPort) (s : State) :
    (unusableOff p s).sys = s.sys ∧ (unusableOff p s).power = s.power ∧ (unusableOff p s).mbx = s.mbx ∧ (unusableOff p s).twi = s.twi ∧ (unusableOff p s).pool = s.pool ∧ (unusableOff p s).lanes = s.lanes ∧ (unusableOff p s).map = s.map ∧ (unusableOff p s).dial = s.dial ∧ (unusableOff p s).mon = s.mon ∧ (unusableOff p s).alarms = s.alarms ∧ (unusableOff p s).faults = s.faults ∧ (unusableOff p s).jrx = s.jrx ∧ (unusableOff p s).test = s.test ∧ (unusableOff p s).pins = s.pins ∧ (unusableOff p s).bulk = s.bulk ∧ (unusableOff p s).free = s.free ∧ (unusableOff p s).pending = s.pending := by
  simp only [unusableOff]; (repeat' split) <;> simp
@[simp] theorem reportShort_keeps (p : LPort) (s : State) :
    (reportShort p s).sys = s.sys ∧ (reportShort p s).power = s.power ∧ (reportShort p s).twi = s.twi ∧ (reportShort p s).ports = s.ports ∧ (reportShort p s).lanes = s.lanes ∧ (reportShort p s).map = s.map ∧ (reportShort p s).dial = s.dial ∧ (reportShort p s).mon = s.mon ∧ (reportShort p s).faults = s.faults ∧ (reportShort p s).test = s.test ∧ (reportShort p s).pins = s.pins ∧ (reportShort p s).bulk = s.bulk ∧ (reportShort p s).free = s.free ∧ (reportShort p s).pending = s.pending := by
  simp only [reportShort]; (repeat' split) <;> simp
@[simp] theorem setRate_keeps (p : LPort) (rate : Nat) (s : State) :
    (setRate p rate s).sys = s.sys ∧ (setRate p rate s).power = s.power ∧ (setRate p rate s).twi = s.twi ∧ (setRate p rate s).lanes = s.lanes ∧ (setRate p rate s).mon = s.mon ∧ (setRate p rate s).faults = s.faults ∧ (setRate p rate s).test = s.test ∧ (setRate p rate s).pins = s.pins ∧ (setRate p rate s).bulk = s.bulk ∧ (setRate p rate s).free = s.free ∧ (setRate p rate s).pending = s.pending := by
  simp only [setRate]; (repeat' split) <;> simp
@[simp] theorem setEnable_keeps (p : LPort) (on : Bool) (s : State) :
    (setEnable p on s).sys = s.sys ∧ (setEnable p on s).twi = s.twi ∧ (setEnable p on s).lanes = s.lanes ∧ (setEnable p on s).mon = s.mon ∧ (setEnable p on s).faults = s.faults ∧ (setEnable p on s).test = s.test ∧ (setEnable p on s).pins = s.pins ∧ (setEnable p on s).bulk = s.bulk ∧ (setEnable p on s).free = s.free ∧ (setEnable p on s).pending = s.pending := by
  simp only [setEnable]; (repeat' split) <;> simp
@[simp] theorem setTraces_keeps (p : LPort) (w : Word) (bs : List Byte) (s : State) :
    (setTraces p w bs s).sys = s.sys ∧ (setTraces p w bs s).power = s.power ∧ (setTraces p w bs s).twi = s.twi ∧ (setTraces p w bs s).lanes = s.lanes ∧ (setTraces p w bs s).map = s.map ∧ (setTraces p w bs s).dial = s.dial ∧ (setTraces p w bs s).mon = s.mon ∧ (setTraces p w bs s).faults = s.faults ∧ (setTraces p w bs s).test = s.test ∧ (setTraces p w bs s).pins = s.pins ∧ (setTraces p w bs s).bulk = s.bulk ∧ (setTraces p w bs s).free = s.free ∧ (setTraces p w bs s).pending = s.pending := by
  simp only [setTraces]; (repeat' split) <;> simp
@[simp] theorem lineModeSet_keeps (rq : Req) (s : State) :
    (lineModeSet rq s).twi = s.twi ∧ (lineModeSet rq s).test = s.test ∧ (lineModeSet rq s).pins = s.pins ∧ (lineModeSet rq s).bulk = s.bulk ∧ (lineModeSet rq s).pending = s.pending := by
  simp only [lineModeSet]; (repeat' split) <;> simp
@[simp] theorem lineModeAnswer_keeps (rq : Req) (s : State) :
    (lineModeAnswer rq s).power = s.power ∧ (lineModeAnswer rq s).twi = s.twi ∧ (lineModeAnswer rq s).ports = s.ports ∧ (lineModeAnswer rq s).pool = s.pool ∧ (lineModeAnswer rq s).lanes = s.lanes ∧ (lineModeAnswer rq s).map = s.map ∧ (lineModeAnswer rq s).mon = s.mon ∧ (lineModeAnswer rq s).alarms = s.alarms ∧ (lineModeAnswer rq s).faults = s.faults ∧ (lineModeAnswer rq s).test = s.test ∧ (lineModeAnswer rq s).pins = s.pins ∧ (lineModeAnswer rq s).bulk = s.bulk ∧ (lineModeAnswer rq s).free = s.free ∧ (lineModeAnswer rq s).pending = s.pending := by
  simp only [lineModeAnswer]; (repeat' split) <;> simp
@[simp] theorem lineModeGet_keeps (rq : Req) (s : State) :
    (lineModeGet rq s).twi = s.twi ∧ (lineModeGet rq s).test = s.test ∧ (lineModeGet rq s).pins = s.pins ∧ (lineModeGet rq s).bulk = s.bulk ∧ (lineModeGet rq s).pending = s.pending := by
  simp only [lineModeGet]; (repeat' split) <;> simp
@[simp] theorem trainStart_keeps (rq : Req) (s : State) :
    (trainStart rq s).twi = s.twi ∧ (trainStart rq s).test = s.test ∧ (trainStart rq s).pins = s.pins ∧ (trainStart rq s).bulk = s.bulk ∧ (trainStart rq s).pending = s.pending := by
  simp only [trainStart]; (repeat' split) <;> simp
@[simp] theorem trainPolicySet_keeps (rq : Req) (s : State) :
    (trainPolicySet rq s).twi = s.twi ∧ (trainPolicySet rq s).test = s.test ∧ (trainPolicySet rq s).pins = s.pins ∧ (trainPolicySet rq s).bulk = s.bulk ∧ (trainPolicySet rq s).pending = s.pending := by
  refine ⟨?_, ?_, ?_, ?_, ?_⟩ <;> (simp only [trainPolicySet]; repeat' first | with_reducible rfl | (simp; done) | with_reducible refine (eachOf_twi _ _ _ ?_).trans ?_ | with_reducible refine (eachOf_test _ _ _ ?_).trans ?_ | with_reducible refine (eachOf_pins _ _ _ ?_).trans ?_ | with_reducible refine (eachOf_bulk _ _ _ ?_).trans ?_ | with_reducible refine (eachOf_pending _ _ _ ?_).trans ?_ | with_reducible refine (eachPort_twi _ _ ?_).trans ?_ | with_reducible refine (eachPort_test _ _ ?_).trans ?_ | with_reducible refine (eachPort_pins _ _ ?_).trans ?_ | with_reducible refine (eachPort_bulk _ _ ?_).trans ?_ | with_reducible refine (eachPort_pending _ _ ?_).trans ?_ | with_reducible refine (doIf_twi _ _ _ ?_).trans ?_ | with_reducible refine (doIf_test _ _ _ ?_).trans ?_ | with_reducible refine (doIf_pins _ _ _ ?_).trans ?_ | with_reducible refine (doIf_bulk _ _ _ ?_).trans ?_ | with_reducible refine (doIf_pending _ _ _ ?_).trans ?_ | with_reducible refine (command_twi _ _ _ _ _ _ ?_).trans ?_ | with_reducible refine (command_test _ _ _ _ _ _ ?_).trans ?_ | with_reducible refine (command_pins _ _ _ _ _ _ ?_).trans ?_ | with_reducible refine (command_bulk _ _ _ _ _ _ ?_).trans ?_ | with_reducible refine (command_pending _ _ _ _ _ _ ?_).trans ?_ | with_reducible refine (commandOk_twi _ _ _ _ _ _ ?_).trans ?_ | with_reducible refine (commandOk_test _ _ _ _ _ _ ?_).trans ?_ | with_reducible refine (commandOk_pins _ _ _ _ _ _ ?_).trans ?_ | with_reducible refine (commandOk_bulk _ _ _ _ _ _ ?_).trans ?_ | with_reducible refine (commandOk_pending _ _ _ _ _ _ ?_).trans ?_ | with_reducible refine (awaitReport_twi _ _ _ _ _ ?_).trans ?_ | with_reducible refine (awaitReport_test _ _ _ _ _ ?_).trans ?_ | with_reducible refine (awaitReport_pins _ _ _ _ _ ?_).trans ?_ | with_reducible refine (awaitReport_bulk _ _ _ _ _ ?_).trans ?_ | with_reducible refine (awaitReport_pending _ _ _ _ _ ?_).trans ?_ | with_reducible refine (report_twi _ _ _ _ _ _ ?_).trans ?_ | with_reducible refine (report_test _ _ _ _ _ _ ?_).trans ?_ | with_reducible refine (report_pins _ _ _ _ _ _ ?_).trans ?_ | with_reducible refine (report_bulk _ _ _ _ _ _ ?_).trans ?_ | with_reducible refine (report_pending _ _ _ _ _ _ ?_).trans ?_ | intro _ | split | simp)
@[simp] theorem trainStatusAnswer_keeps (rq : Req) (s : State) :
    (trainStatusAnswer rq s).power = s.power ∧ (trainStatusAnswer rq s).twi = s.twi ∧ (trainStatusAnswer rq s).ports = s.ports ∧ (trainStatusAnswer rq s).pool = s.pool ∧ (trainStatusAnswer rq s).lanes = s.lanes ∧ (trainStatusAnswer rq s).map = s.map ∧ (trainStatusAnswer rq s).mon = s.mon ∧ (trainStatusAnswer rq s).alarms = s.alarms ∧ (trainStatusAnswer rq s).faults = s.faults ∧ (trainStatusAnswer rq s).test = s.test ∧ (trainStatusAnswer rq s).pins = s.pins ∧ (trainStatusAnswer rq s).bulk = s.bulk ∧ (trainStatusAnswer rq s).free = s.free ∧ (trainStatusAnswer rq s).pending = s.pending := by
  simp only [trainStatusAnswer]; (repeat' split) <;> simp
@[simp] theorem trainStatus_keeps (rq : Req) (s : State) :
    (trainStatus rq s).twi = s.twi ∧ (trainStatus rq s).test = s.test ∧ (trainStatus rq s).pins = s.pins ∧ (trainStatus rq s).bulk = s.bulk ∧ (trainStatus rq s).pending = s.pending := by
  simp only [trainStatus]; (repeat' split) <;> simp

end Sys2Proof.Machine
end

