-- ==== Sys2Proof/Laws/FrameSystem.lean ====
section
/-! SUPPORT. What the host side, calibration, power, the decoder pool, mailboxes and Joryx leave alone, operation by operation. -/

namespace Sys2Proof.Machine

@[simp] theorem evalGroom_keeps (p : LPort) (s : State) :
    (evalGroom p s).sys = s.sys ∧ (evalGroom p s).power = s.power ∧ (evalGroom p s).twi = s.twi ∧ (evalGroom p s).ports = s.ports ∧ (evalGroom p s).lanes = s.lanes ∧ (evalGroom p s).map = s.map ∧ (evalGroom p s).dial = s.dial ∧ (evalGroom p s).mon = s.mon ∧ (evalGroom p s).faults = s.faults ∧ (evalGroom p s).test = s.test ∧ (evalGroom p s).pins = s.pins ∧ (evalGroom p s).bulk = s.bulk ∧ (evalGroom p s).free = s.free ∧ (evalGroom p s).pending = s.pending := by
  simp only [evalGroom]; (repeat' split) <;> simp
@[simp] theorem evalPending_keeps (c : Client) (s : State) :
    (evalPending c s).sys = s.sys ∧ (evalPending c s).power = s.power ∧ (evalPending c s).twi = s.twi ∧ (evalPending c s).ports = s.ports ∧ (evalPending c s).lanes = s.lanes ∧ (evalPending c s).map = s.map ∧ (evalPending c s).dial = s.dial ∧ (evalPending c s).mon = s.mon ∧ (evalPending c s).faults = s.faults ∧ (evalPending c s).test = s.test ∧ (evalPending c s).pins = s.pins ∧ (evalPending c s).bulk = s.bulk ∧ (evalPending c s).free = s.free ∧ (evalPending c s).pending = s.pending := by
  simp only [evalPending]; (repeat' split) <;> simp
@[simp] theorem addClient_keeps (ps : List Word) (tx : Bool) (s : State) :
    (addClient ps tx s).sys = s.sys ∧ (addClient ps tx s).power = s.power ∧ (addClient ps tx s).twi = s.twi ∧ (addClient ps tx s).ports = s.ports ∧ (addClient ps tx s).lanes = s.lanes ∧ (addClient ps tx s).dial = s.dial ∧ (addClient ps tx s).mon = s.mon ∧ (addClient ps tx s).faults = s.faults ∧ (addClient ps tx s).test = s.test ∧ (addClient ps tx s).pins = s.pins ∧ (addClient ps tx s).bulk = s.bulk ∧ (addClient ps tx s).free = s.free ∧ (addClient ps tx s).pending = s.pending := by
  simp only [addClient]; (repeat' split) <;> simp
@[simp] theorem mapAddExact_keeps (ps : List Word) (s : State) :
    (mapAddExact ps s).sys = s.sys ∧ (mapAddExact ps s).power = s.power ∧ (mapAddExact ps s).twi = s.twi ∧ (mapAddExact ps s).ports = s.ports ∧ (mapAddExact ps s).lanes = s.lanes ∧ (mapAddExact ps s).dial = s.dial ∧ (mapAddExact ps s).mon = s.mon ∧ (mapAddExact ps s).faults = s.faults ∧ (mapAddExact ps s).test = s.test ∧ (mapAddExact ps s).pins = s.pins ∧ (mapAddExact ps s).bulk = s.bulk ∧ (mapAddExact ps s).free = s.free ∧ (mapAddExact ps s).pending = s.pending := by
  simp only [mapAddExact]; (repeat' split) <;> simp
@[simp] theorem mapClientAdd_keeps (rq : Req) (s : State) :
    (mapClientAdd rq s).twi = s.twi ∧ (mapClientAdd rq s).test = s.test ∧ (mapClientAdd rq s).pins = s.pins ∧ (mapClientAdd rq s).bulk = s.bulk ∧ (mapClientAdd rq s).pending = s.pending := by
  refine ⟨?_, ?_, ?_, ?_, ?_⟩ <;> (simp only [mapClientAdd]; repeat' first | with_reducible rfl | (simp; done) | with_reducible refine (eachOf_twi _ _ _ ?_).trans ?_ | with_reducible refine (eachOf_test _ _ _ ?_).trans ?_ | with_reducible refine (eachOf_pins _ _ _ ?_).trans ?_ | with_reducible refine (eachOf_bulk _ _ _ ?_).trans ?_ | with_reducible refine (eachOf_pending _ _ _ ?_).trans ?_ | with_reducible refine (eachPort_twi _ _ ?_).trans ?_ | with_reducible refine (eachPort_test _ _ ?_).trans ?_ | with_reducible refine (eachPort_pins _ _ ?_).trans ?_ | with_reducible refine (eachPort_bulk _ _ ?_).trans ?_ | with_reducible refine (eachPort_pending _ _ ?_).trans ?_ | with_reducible refine (doIf_twi _ _ _ ?_).trans ?_ | with_reducible refine (doIf_test _ _ _ ?_).trans ?_ | with_reducible refine (doIf_pins _ _ _ ?_).trans ?_ | with_reducible refine (doIf_bulk _ _ _ ?_).trans ?_ | with_reducible refine (doIf_pending _ _ _ ?_).trans ?_ | with_reducible refine (command_twi _ _ _ _ _ _ ?_).trans ?_ | with_reducible refine (command_test _ _ _ _ _ _ ?_).trans ?_ | with_reducible refine (command_pins _ _ _ _ _ _ ?_).trans ?_ | with_reducible refine (command_bulk _ _ _ _ _ _ ?_).trans ?_ | with_reducible refine (command_pending _ _ _ _ _ _ ?_).trans ?_ | with_reducible refine (commandOk_twi _ _ _ _ _ _ ?_).trans ?_ | with_reducible refine (commandOk_test _ _ _ _ _ _ ?_).trans ?_ | with_reducible refine (commandOk_pins _ _ _ _ _ _ ?_).trans ?_ | with_reducible refine (commandOk_bulk _ _ _ _ _ _ ?_).trans ?_ | with_reducible refine (commandOk_pending _ _ _ _ _ _ ?_).trans ?_ | with_reducible refine (awaitReport_twi _ _ _ _ _ ?_).trans ?_ | with_reducible refine (awaitReport_test _ _ _ _ _ ?_).trans ?_ | with_reducible refine (awaitReport_pins _ _ _ _ _ ?_).trans ?_ | with_reducible refine (awaitReport_bulk _ _ _ _ _ ?_).trans ?_ | with_reducible refine (awaitReport_pending _ _ _ _ _ ?_).trans ?_ | with_reducible refine (report_twi _ _ _ _ _ _ ?_).trans ?_ | with_reducible refine (report_test _ _ _ _ _ _ ?_).trans ?_ | with_reducible refine (report_pins _ _ _ _ _ _ ?_).trans ?_ | with_reducible refine (report_bulk _ _ _ _ _ _ ?_).trans ?_ | with_reducible refine (report_pending _ _ _ _ _ _ ?_).trans ?_ | intro _ | split | simp)
@[simp] theorem dropClient_keeps (k : HLane) (s : State) :
    (dropClient k s).sys = s.sys ∧ (dropClient k s).power = s.power ∧ (dropClient k s).twi = s.twi ∧ (dropClient k s).ports = s.ports ∧ (dropClient k s).lanes = s.lanes ∧ (dropClient k s).dial = s.dial ∧ (dropClient k s).mon = s.mon ∧ (dropClient k s).faults = s.faults ∧ (dropClient k s).test = s.test ∧ (dropClient k s).pins = s.pins ∧ (dropClient k s).bulk = s.bulk ∧ (dropClient k s).free = s.free ∧ (dropClient k s).pending = s.pending := by
  simp only [dropClient]; (repeat' split) <;> simp
@[simp] theorem stopClient_keeps (k : HLane) (s : State) :
    (stopClient k s).sys = s.sys ∧ (stopClient k s).power = s.power ∧ (stopClient k s).twi = s.twi ∧ (stopClient k s).ports = s.ports ∧ (stopClient k s).lanes = s.lanes ∧ (stopClient k s).dial = s.dial ∧ (stopClient k s).mon = s.mon ∧ (stopClient k s).faults = s.faults ∧ (stopClient k s).test = s.test ∧ (stopClient k s).pins = s.pins ∧ (stopClient k s).bulk = s.bulk ∧ (stopClient k s).free = s.free ∧ (stopClient k s).pending = s.pending := by
  simp only [stopClient]; (repeat' split) <;> simp
@[simp] theorem cancelAdds_keeps (k : HLane) (s : State) :
    (cancelAdds k s).power = s.power ∧ (cancelAdds k s).twi = s.twi ∧ (cancelAdds k s).ports = s.ports ∧ (cancelAdds k s).pool = s.pool ∧ (cancelAdds k s).lanes = s.lanes ∧ (cancelAdds k s).map = s.map ∧ (cancelAdds k s).mon = s.mon ∧ (cancelAdds k s).alarms = s.alarms ∧ (cancelAdds k s).faults = s.faults ∧ (cancelAdds k s).test = s.test ∧ (cancelAdds k s).pins = s.pins ∧ (cancelAdds k s).bulk = s.bulk ∧ (cancelAdds k s).free = s.free ∧ (cancelAdds k s).pending = s.pending := by
  simp only [cancelAdds]; (repeat' split) <;> simp
@[simp] theorem mapClientRemove_keeps (rq : Req) (s : State) :
    (mapClientRemove rq s).twi = s.twi ∧ (mapClientRemove rq s).test = s.test ∧ (mapClientRemove rq s).pins = s.pins ∧ (mapClientRemove rq s).bulk = s.bulk ∧ (mapClientRemove rq s).pending = s.pending := by
  refine ⟨?_, ?_, ?_, ?_, ?_⟩ <;> (simp only [mapClientRemove]; repeat' first | with_reducible rfl | (simp; done) | with_reducible refine (eachOf_twi _ _ _ ?_).trans ?_ | with_reducible refine (eachOf_test _ _ _ ?_).trans ?_ | with_reducible refine (eachOf_pins _ _ _ ?_).trans ?_ | with_reducible refine (eachOf_bulk _ _ _ ?_).trans ?_ | with_reducible refine (eachOf_pending _ _ _ ?_).trans ?_ | with_reducible refine (eachPort_twi _ _ ?_).trans ?_ | with_reducible refine (eachPort_test _ _ ?_).trans ?_ | with_reducible refine (eachPort_pins _ _ ?_).trans ?_ | with_reducible refine (eachPort_bulk _ _ ?_).trans ?_ | with_reducible refine (eachPort_pending _ _ ?_).trans ?_ | with_reducible refine (doIf_twi _ _ _ ?_).trans ?_ | with_reducible refine (doIf_test _ _ _ ?_).trans ?_ | with_reducible refine (doIf_pins _ _ _ ?_).trans ?_ | with_reducible refine (doIf_bulk _ _ _ ?_).trans ?_ | with_reducible refine (doIf_pending _ _ _ ?_).trans ?_ | with_reducible refine (command_twi _ _ _ _ _ _ ?_).trans ?_ | with_reducible refine (command_test _ _ _ _ _ _ ?_).trans ?_ | with_reducible refine (command_pins _ _ _ _ _ _ ?_).trans ?_ | with_reducible refine (command_bulk _ _ _ _ _ _ ?_).trans ?_ | with_reducible refine (command_pending _ _ _ _ _ _ ?_).trans ?_ | with_reducible refine (commandOk_twi _ _ _ _ _ _ ?_).trans ?_ | with_reducible refine (commandOk_test _ _ _ _ _ _ ?_).trans ?_ | with_reducible refine (commandOk_pins _ _ _ _ _ _ ?_).trans ?_ | with_reducible refine (commandOk_bulk _ _ _ _ _ _ ?_).trans ?_ | with_reducible refine (commandOk_pending _ _ _ _ _ _ ?_).trans ?_ | with_reducible refine (awaitReport_twi _ _ _ _ _ ?_).trans ?_ | with_reducible refine (awaitReport_test _ _ _ _ _ ?_).trans ?_ | with_reducible refine (awaitReport_pins _ _ _ _ _ ?_).trans ?_ | with_reducible refine (awaitReport_bulk _ _ _ _ _ ?_).trans ?_ | with_reducible refine (awaitReport_pending _ _ _ _ _ ?_).trans ?_ | with_reducible refine (report_twi _ _ _ _ _ _ ?_).trans ?_ | with_reducible refine (report_test _ _ _ _ _ _ ?_).trans ?_ | with_reducible refine (report_pins _ _ _ _ _ _ ?_).trans ?_ | with_reducible refine (report_bulk _ _ _ _ _ _ ?_).trans ?_ | with_reducible refine (report_pending _ _ _ _ _ _ ?_).trans ?_ | intro _ | split | simp)
@[simp] theorem pruneClients_keeps (p : LPort) (s : State) :
    (pruneClients p s).sys = s.sys ∧ (pruneClients p s).power = s.power ∧ (pruneClients p s).twi = s.twi ∧ (pruneClients p s).ports = s.ports ∧ (pruneClients p s).lanes = s.lanes ∧ (pruneClients p s).dial = s.dial ∧ (pruneClients p s).mon = s.mon ∧ (pruneClients p s).faults = s.faults ∧ (pruneClients p s).test = s.test ∧ (pruneClients p s).pins = s.pins ∧ (pruneClients p s).bulk = s.bulk ∧ (pruneClients p s).free = s.free ∧ (pruneClients p s).pending = s.pending := by
  simp only [pruneClients]; (repeat' split) <;> simp
@[simp] theorem setDrop_keeps (p : LPort) (m : Nat) (s : State) :
    (setDrop p m s).sys = s.sys ∧ (setDrop p m s).power = s.power ∧ (setDrop p m s).twi = s.twi ∧ (setDrop p m s).ports = s.ports ∧ (setDrop p m s).lanes = s.lanes ∧ (setDrop p m s).dial = s.dial ∧ (setDrop p m s).mon = s.mon ∧ (setDrop p m s).faults = s.faults ∧ (setDrop p m s).test = s.test ∧ (setDrop p m s).pins = s.pins ∧ (setDrop p m s).bulk = s.bulk ∧ (setDrop p m s).free = s.free ∧ (setDrop p m s).pending = s.pending := by
  simp only [setDrop]; (repeat' split) <;> simp
@[simp] theorem regenExact_keeps (ps : List Word) (r : RefCode) (s : State) :
    (regenExact ps r s).sys = s.sys ∧ (regenExact ps r s).power = s.power ∧ (regenExact ps r s).twi = s.twi ∧ (regenExact ps r s).ports = s.ports ∧ (regenExact ps r s).lanes = s.lanes ∧ (regenExact ps r s).dial = s.dial ∧ (regenExact ps r s).mon = s.mon ∧ (regenExact ps r s).faults = s.faults ∧ (regenExact ps r s).test = s.test ∧ (regenExact ps r s).pins = s.pins ∧ (regenExact ps r s).bulk = s.bulk ∧ (regenExact ps r s).free = s.free ∧ (regenExact ps r s).pending = s.pending := by
  simp only [regenExact]; (repeat' split) <;> simp
@[simp] theorem joinPair_keeps (p : LPort) (s : State) :
    (joinPair p s).sys = s.sys ∧ (joinPair p s).power = s.power ∧ (joinPair p s).twi = s.twi ∧ (joinPair p s).lanes = s.lanes ∧ (joinPair p s).mon = s.mon ∧ (joinPair p s).faults = s.faults ∧ (joinPair p s).test = s.test ∧ (joinPair p s).pins = s.pins ∧ (joinPair p s).bulk = s.bulk ∧ (joinPair p s).free = s.free ∧ (joinPair p s).pending = s.pending := by
  simp only [joinPair]; (repeat' split) <;> simp
@[simp] theorem setRole_keeps (p : LPort) (on : Bool) (s : State) :
    (setRole p on s).sys = s.sys ∧ (setRole p on s).power = s.power ∧ (setRole p on s).twi = s.twi ∧ (setRole p on s).lanes = s.lanes ∧ (setRole p on s).mon = s.mon ∧ (setRole p on s).faults = s.faults ∧ (setRole p on s).test = s.test ∧ (setRole p on s).pins = s.pins ∧ (setRole p on s).bulk = s.bulk ∧ (setRole p on s).free = s.free ∧ (setRole p on s).pending = s.pending := by
  refine ⟨?_, ?_, ?_, ?_, ?_, ?_, ?_, ?_, ?_, ?_, ?_⟩ <;> (simp only [setRole]; repeat' first | with_reducible rfl | (simp; done) | with_reducible refine (eachOf_sys _ _ _ ?_).trans ?_ | with_reducible refine (eachOf_power _ _ _ ?_).trans ?_ | with_reducible refine (eachOf_twi _ _ _ ?_).trans ?_ | with_reducible refine (eachOf_lanes _ _ _ ?_).trans ?_ | with_reducible refine (eachOf_mon _ _ _ ?_).trans ?_ | with_reducible refine (eachOf_faults _ _ _ ?_).trans ?_ | with_reducible refine (eachOf_test _ _ _ ?_).trans ?_ | with_reducible refine (eachOf_pins _ _ _ ?_).trans ?_ | with_reducible refine (eachOf_bulk _ _ _ ?_).trans ?_ | with_reducible refine (eachOf_free _ _ _ ?_).trans ?_ | with_reducible refine (eachOf_pending _ _ _ ?_).trans ?_ | with_reducible refine (eachPort_sys _ _ ?_).trans ?_ | with_reducible refine (eachPort_power _ _ ?_).trans ?_ | with_reducible refine (eachPort_twi _ _ ?_).trans ?_ | with_reducible refine (eachPort_lanes _ _ ?_).trans ?_ | with_reducible refine (eachPort_mon _ _ ?_).trans ?_ | with_reducible refine (eachPort_faults _ _ ?_).trans ?_ | with_reducible refine (eachPort_test _ _ ?_).trans ?_ | with_reducible refine (eachPort_pins _ _ ?_).trans ?_ | with_reducible refine (eachPort_bulk _ _ ?_).trans ?_ | with_reducible refine (eachPort_free _ _ ?_).trans ?_ | with_reducible refine (eachPort_pending _ _ ?_).trans ?_ | with_reducible refine (doIf_sys _ _ _ ?_).trans ?_ | with_reducible refine (doIf_power _ _ _ ?_).trans ?_ | with_reducible refine (doIf_twi _ _ _ ?_).trans ?_ | with_reducible refine (doIf_lanes _ _ _ ?_).trans ?_ | with_reducible refine (doIf_mon _ _ _ ?_).trans ?_ | with_reducible refine (doIf_faults _ _ _ ?_).trans ?_ | with_reducible refine (doIf_test _ _ _ ?_).trans ?_ | with_reducible refine (doIf_pins _ _ _ ?_).trans ?_ | with_reducible refine (doIf_bulk _ _ _ ?_).trans ?_ | with_reducible refine (doIf_free _ _ _ ?_).trans ?_ | with_reducible refine (doIf_pending _ _ _ ?_).trans ?_ | with_reducible refine (command_twi _ _ _ _ _ _ ?_).trans ?_ | with_reducible refine (command_test _ _ _ _ _ _ ?_).trans ?_ | with_reducible refine (command_pins _ _ _ _ _ _ ?_).trans ?_ | with_reducible refine (command_bulk _ _ _ _ _ _ ?_).trans ?_ | with_reducible refine (command_pending _ _ _ _ _ _ ?_).trans ?_ | with_reducible refine (commandOk_twi _ _ _ _ _ _ ?_).trans ?_ | with_reducible refine (commandOk_test _ _ _ _ _ _ ?_).trans ?_ | with_reducible refine (commandOk_pins _ _ _ _ _ _ ?_).trans ?_ | with_reducible refine (commandOk_bulk _ _ _ _ _ _ ?_).trans ?_ | with_reducible refine (commandOk_pending _ _ _ _ _ _ ?_).trans ?_ | with_reducible refine (awaitReport_power _ _ _ _ _ ?_).trans ?_ | with_reducible refine (awaitReport_twi _ _ _ _ _ ?_).trans ?_ | with_reducible refine (awaitReport_lanes _ _ _ _ _ ?_).trans ?_ | with_reducible refine (awaitReport_mon _ _ _ _ _ ?_).trans ?_ | with_reducible refine (awaitReport_faults _ _ _ _ _ ?_).trans ?_ | with_reducible refine (awaitReport_test _ _ _ _ _ ?_).trans ?_ | with_reducible refine (awaitReport_pins _ _ _ _ _ ?_).trans ?_ | with_reducible refine (awaitReport_bulk _ _ _ _ _ ?_).trans ?_ | with_reducible refine (awaitReport_free _ _ _ _ _ ?_).trans ?_ | with_reducible refine (awaitReport_pending _ _ _ _ _ ?_).trans ?_ | with_reducible refine (report_twi _ _ _ _ _ _ ?_).trans ?_ | with_reducible refine (report_test _ _ _ _ _ _ ?_).trans ?_ | with_reducible refine (report_pins _ _ _ _ _ _ ?_).trans ?_ | with_reducible refine (report_bulk _ _ _ _ _ _ ?_).trans ?_ | with_reducible refine (report_pending _ _ _ _ _ _ ?_).trans ?_ | intro _ | split | simp)
@[simp] theorem changeDrop_keeps (rq : Req) (p : LPort) (s : State) :
    (changeDrop rq p s).sys = s.sys ∧ (changeDrop rq p s).power = s.power ∧ (changeDrop rq p s).twi = s.twi ∧ (changeDrop rq p s).ports = s.ports ∧ (changeDrop rq p s).lanes = s.lanes ∧ (changeDrop rq p s).mon = s.mon ∧ (changeDrop rq p s).faults = s.faults ∧ (changeDrop rq p s).test = s.test ∧ (changeDrop rq p s).pins = s.pins ∧ (changeDrop rq p s).bulk = s.bulk ∧ (changeDrop rq p s).pending = s.pending := by
  simp only [changeDrop]; (repeat' split) <;> simp
@[simp] theorem mapRegenPair_keeps (rq : Req) (s : State) :
    (mapRegenPair rq s).twi = s.twi ∧ (mapRegenPair rq s).test = s.test ∧ (mapRegenPair rq s).pins = s.pins ∧ (mapRegenPair rq s).bulk = s.bulk ∧ (mapRegenPair rq s).pending = s.pending := by
  refine ⟨?_, ?_, ?_, ?_, ?_⟩ <;> (simp only [mapRegenPair]; repeat' first | with_reducible rfl | (simp; done) | with_reducible refine (eachOf_twi _ _ _ ?_).trans ?_ | with_reducible refine (eachOf_test _ _ _ ?_).trans ?_ | with_reducible refine (eachOf_pins _ _ _ ?_).trans ?_ | with_reducible refine (eachOf_bulk _ _ _ ?_).trans ?_ | with_reducible refine (eachOf_pending _ _ _ ?_).trans ?_ | with_reducible refine (eachPort_twi _ _ ?_).trans ?_ | with_reducible refine (eachPort_test _ _ ?_).trans ?_ | with_reducible refine (eachPort_pins _ _ ?_).trans ?_ | with_reducible refine (eachPort_bulk _ _ ?_).trans ?_ | with_reducible refine (eachPort_pending _ _ ?_).trans ?_ | with_reducible refine (doIf_twi _ _ _ ?_).trans ?_ | with_reducible refine (doIf_test _ _ _ ?_).trans ?_ | with_reducible refine (doIf_pins _ _ _ ?_).trans ?_ | with_reducible refine (doIf_bulk _ _ _ ?_).trans ?_ | with_reducible refine (doIf_pending _ _ _ ?_).trans ?_ | with_reducible refine (command_twi _ _ _ _ _ _ ?_).trans ?_ | with_reducible refine (command_test _ _ _ _ _ _ ?_).trans ?_ | with_reducible refine (command_pins _ _ _ _ _ _ ?_).trans ?_ | with_reducible refine (command_bulk _ _ _ _ _ _ ?_).trans ?_ | with_reducible refine (command_pending _ _ _ _ _ _ ?_).trans ?_ | with_reducible refine (commandOk_twi _ _ _ _ _ _ ?_).trans ?_ | with_reducible refine (commandOk_test _ _ _ _ _ _ ?_).trans ?_ | with_reducible refine (commandOk_pins _ _ _ _ _ _ ?_).trans ?_ | with_reducible refine (commandOk_bulk _ _ _ _ _ _ ?_).trans ?_ | with_reducible refine (commandOk_pending _ _ _ _ _ _ ?_).trans ?_ | with_reducible refine (awaitReport_twi _ _ _ _ _ ?_).trans ?_ | with_reducible refine (awaitReport_test _ _ _ _ _ ?_).trans ?_ | with_reducible refine (awaitReport_pins _ _ _ _ _ ?_).trans ?_ | with_reducible refine (awaitReport_bulk _ _ _ _ _ ?_).trans ?_ | with_reducible refine (awaitReport_pending _ _ _ _ _ ?_).trans ?_ | with_reducible refine (report_twi _ _ _ _ _ _ ?_).trans ?_ | with_reducible refine (report_test _ _ _ _ _ _ ?_).trans ?_ | with_reducible refine (report_pins _ _ _ _ _ _ ?_).trans ?_ | with_reducible refine (report_bulk _ _ _ _ _ _ ?_).trans ?_ | with_reducible refine (report_pending _ _ _ _ _ _ ?_).trans ?_ | intro _ | split | simp)
@[simp] theorem mapStatusAnswer_keeps (rq : Req) (s : State) :
    (mapStatusAnswer rq s).power = s.power ∧ (mapStatusAnswer rq s).twi = s.twi ∧ (mapStatusAnswer rq s).ports = s.ports ∧ (mapStatusAnswer rq s).pool = s.pool ∧ (mapStatusAnswer rq s).lanes = s.lanes ∧ (mapStatusAnswer rq s).map = s.map ∧ (mapStatusAnswer rq s).mon = s.mon ∧ (mapStatusAnswer rq s).alarms = s.alarms ∧ (mapStatusAnswer rq s).faults = s.faults ∧ (mapStatusAnswer rq s).test = s.test ∧ (mapStatusAnswer rq s).pins = s.pins ∧ (mapStatusAnswer rq s).bulk = s.bulk ∧ (mapStatusAnswer rq s).free = s.free ∧ (mapStatusAnswer rq s).pending = s.pending := by
  simp only [mapStatusAnswer]; (repeat' split) <;> simp
@[simp] theorem mapStatus_keeps (rq : Req) (s : State) :
    (mapStatus rq s).twi = s.twi ∧ (mapStatus rq s).test = s.test ∧ (mapStatus rq s).pins = s.pins ∧ (mapStatus rq s).bulk = s.bulk ∧ (mapStatus rq s).pending = s.pending := by
  simp only [mapStatus]; (repeat' split) <;> simp

@[simp] theorem calRun_keeps (rq : Req) (s : State) :
    (calRun rq s).twi = s.twi ∧ (calRun rq s).test = s.test ∧ (calRun rq s).pins = s.pins ∧ (calRun rq s).bulk = s.bulk ∧ (calRun rq s).pending = s.pending := by
  simp only [calRun]; (repeat' split) <;> simp
@[simp] theorem calPolicySet_keeps (rq : Req) (s : State) :
    (calPolicySet rq s).twi = s.twi ∧ (calPolicySet rq s).test = s.test ∧ (calPolicySet rq s).pins = s.pins ∧ (calPolicySet rq s).bulk = s.bulk ∧ (calPolicySet rq s).pending = s.pending := by
  refine ⟨?_, ?_, ?_, ?_, ?_⟩ <;> (simp only [calPolicySet]; repeat' first | with_reducible rfl | (simp; done) | with_reducible refine (eachOf_twi _ _ _ ?_).trans ?_ | with_reducible refine (eachOf_test _ _ _ ?_).trans ?_ | with_reducible refine (eachOf_pins _ _ _ ?_).trans ?_ | with_reducible refine (eachOf_bulk _ _ _ ?_).trans ?_ | with_reducible refine (eachOf_pending _ _ _ ?_).trans ?_ | with_reducible refine (eachPort_twi _ _ ?_).trans ?_ | with_reducible refine (eachPort_test _ _ ?_).trans ?_ | with_reducible refine (eachPort_pins _ _ ?_).trans ?_ | with_reducible refine (eachPort_bulk _ _ ?_).trans ?_ | with_reducible refine (eachPort_pending _ _ ?_).trans ?_ | with_reducible refine (doIf_twi _ _ _ ?_).trans ?_ | with_reducible refine (doIf_test _ _ _ ?_).trans ?_ | with_reducible refine (doIf_pins _ _ _ ?_).trans ?_ | with_reducible refine (doIf_bulk _ _ _ ?_).trans ?_ | with_reducible refine (doIf_pending _ _ _ ?_).trans ?_ | with_reducible refine (command_twi _ _ _ _ _ _ ?_).trans ?_ | with_reducible refine (command_test _ _ _ _ _ _ ?_).trans ?_ | with_reducible refine (command_pins _ _ _ _ _ _ ?_).trans ?_ | with_reducible refine (command_bulk _ _ _ _ _ _ ?_).trans ?_ | with_reducible refine (command_pending _ _ _ _ _ _ ?_).trans ?_ | with_reducible refine (commandOk_twi _ _ _ _ _ _ ?_).trans ?_ | with_reducible refine (commandOk_test _ _ _ _ _ _ ?_).trans ?_ | with_reducible refine (commandOk_pins _ _ _ _ _ _ ?_).trans ?_ | with_reducible refine (commandOk_bulk _ _ _ _ _ _ ?_).trans ?_ | with_reducible refine (commandOk_pending _ _ _ _ _ _ ?_).trans ?_ | with_reducible refine (awaitReport_twi _ _ _ _ _ ?_).trans ?_ | with_reducible refine (awaitReport_test _ _ _ _ _ ?_).trans ?_ | with_reducible refine (awaitReport_pins _ _ _ _ _ ?_).trans ?_ | with_reducible refine (awaitReport_bulk _ _ _ _ _ ?_).trans ?_ | with_reducible refine (awaitReport_pending _ _ _ _ _ ?_).trans ?_ | with_reducible refine (report_twi _ _ _ _ _ _ ?_).trans ?_ | with_reducible refine (report_test _ _ _ _ _ _ ?_).trans ?_ | with_reducible refine (report_pins _ _ _ _ _ _ ?_).trans ?_ | with_reducible refine (report_bulk _ _ _ _ _ _ ?_).trans ?_ | with_reducible refine (report_pending _ _ _ _ _ _ ?_).trans ?_ | intro _ | split | simp)
@[simp] theorem calReadAnswer_keeps (rq : Req) (s : State) :
    (calReadAnswer rq s).power = s.power ∧ (calReadAnswer rq s).twi = s.twi ∧ (calReadAnswer rq s).ports = s.ports ∧ (calReadAnswer rq s).pool = s.pool ∧ (calReadAnswer rq s).lanes = s.lanes ∧ (calReadAnswer rq s).map = s.map ∧ (calReadAnswer rq s).mon = s.mon ∧ (calReadAnswer rq s).alarms = s.alarms ∧ (calReadAnswer rq s).faults = s.faults ∧ (calReadAnswer rq s).test = s.test ∧ (calReadAnswer rq s).pins = s.pins ∧ (calReadAnswer rq s).free = s.free ∧ (calReadAnswer rq s).pending = s.pending := by
  simp only [calReadAnswer]; (repeat' split) <;> simp
@[simp] theorem calTableRead_keeps (rq : Req) (s : State) :
    (calTableRead rq s).twi = s.twi ∧ (calTableRead rq s).test = s.test ∧ (calTableRead rq s).pins = s.pins ∧ (calTableRead rq s).pending = s.pending := by
  simp only [calTableRead]; (repeat' split) <;> simp
@[simp] theorem calWriteApply_keeps (ps ws : List Word) (s : State) :
    (calWriteApply ps ws s).sys = s.sys ∧ (calWriteApply ps ws s).power = s.power ∧ (calWriteApply ps ws s).mbx = s.mbx ∧ (calWriteApply ps ws s).twi = s.twi ∧ (calWriteApply ps ws s).pool = s.pool ∧ (calWriteApply ps ws s).lanes = s.lanes ∧ (calWriteApply ps ws s).map = s.map ∧ (calWriteApply ps ws s).dial = s.dial ∧ (calWriteApply ps ws s).mon = s.mon ∧ (calWriteApply ps ws s).alarms = s.alarms ∧ (calWriteApply ps ws s).faults = s.faults ∧ (calWriteApply ps ws s).jrx = s.jrx ∧ (calWriteApply ps ws s).test = s.test ∧ (calWriteApply ps ws s).pins = s.pins ∧ (calWriteApply ps ws s).bulk = s.bulk ∧ (calWriteApply ps ws s).free = s.free ∧ (calWriteApply ps ws s).pending = s.pending := by
  simp only [calWriteApply]; (repeat' split) <;> simp
@[simp] theorem calWriteExact_keeps (ps ws : List Word) (s : State) :
    (calWriteExact ps ws s).sys = s.sys ∧ (calWriteExact ps ws s).power = s.power ∧ (calWriteExact ps ws s).mbx = s.mbx ∧ (calWriteExact ps ws s).twi = s.twi ∧ (calWriteExact ps ws s).pool = s.pool ∧ (calWriteExact ps ws s).lanes = s.lanes ∧ (calWriteExact ps ws s).map = s.map ∧ (calWriteExact ps ws s).dial = s.dial ∧ (calWriteExact ps ws s).mon = s.mon ∧ (calWriteExact ps ws s).alarms = s.alarms ∧ (calWriteExact ps ws s).faults = s.faults ∧ (calWriteExact ps ws s).jrx = s.jrx ∧ (calWriteExact ps ws s).test = s.test ∧ (calWriteExact ps ws s).pins = s.pins ∧ (calWriteExact ps ws s).bulk = s.bulk ∧ (calWriteExact ps ws s).free = s.free ∧ (calWriteExact ps ws s).pending = s.pending := by
  simp only [calWriteExact]; (repeat' split) <;> simp
@[simp] theorem calTableWrite_keeps (rq : Req) (s : State) :
    (calTableWrite rq s).twi = s.twi ∧ (calTableWrite rq s).test = s.test ∧ (calTableWrite rq s).pins = s.pins ∧ (calTableWrite rq s).bulk = s.bulk ∧ (calTableWrite rq s).pending = s.pending := by
  refine ⟨?_, ?_, ?_, ?_, ?_⟩ <;> (simp only [calTableWrite]; repeat' first | with_reducible rfl | (simp; done) | with_reducible refine (eachOf_twi _ _ _ ?_).trans ?_ | with_reducible refine (eachOf_test _ _ _ ?_).trans ?_ | with_reducible refine (eachOf_pins _ _ _ ?_).trans ?_ | with_reducible refine (eachOf_bulk _ _ _ ?_).trans ?_ | with_reducible refine (eachOf_pending _ _ _ ?_).trans ?_ | with_reducible refine (eachPort_twi _ _ ?_).trans ?_ | with_reducible refine (eachPort_test _ _ ?_).trans ?_ | with_reducible refine (eachPort_pins _ _ ?_).trans ?_ | with_reducible refine (eachPort_bulk _ _ ?_).trans ?_ | with_reducible refine (eachPort_pending _ _ ?_).trans ?_ | with_reducible refine (doIf_twi _ _ _ ?_).trans ?_ | with_reducible refine (doIf_test _ _ _ ?_).trans ?_ | with_reducible refine (doIf_pins _ _ _ ?_).trans ?_ | with_reducible refine (doIf_bulk _ _ _ ?_).trans ?_ | with_reducible refine (doIf_pending _ _ _ ?_).trans ?_ | with_reducible refine (command_twi _ _ _ _ _ _ ?_).trans ?_ | with_reducible refine (command_test _ _ _ _ _ _ ?_).trans ?_ | with_reducible refine (command_pins _ _ _ _ _ _ ?_).trans ?_ | with_reducible refine (command_bulk _ _ _ _ _ _ ?_).trans ?_ | with_reducible refine (command_pending _ _ _ _ _ _ ?_).trans ?_ | with_reducible refine (commandOk_twi _ _ _ _ _ _ ?_).trans ?_ | with_reducible refine (commandOk_test _ _ _ _ _ _ ?_).trans ?_ | with_reducible refine (commandOk_pins _ _ _ _ _ _ ?_).trans ?_ | with_reducible refine (commandOk_bulk _ _ _ _ _ _ ?_).trans ?_ | with_reducible refine (commandOk_pending _ _ _ _ _ _ ?_).trans ?_ | with_reducible refine (awaitReport_twi _ _ _ _ _ ?_).trans ?_ | with_reducible refine (awaitReport_test _ _ _ _ _ ?_).trans ?_ | with_reducible refine (awaitReport_pins _ _ _ _ _ ?_).trans ?_ | with_reducible refine (awaitReport_bulk _ _ _ _ _ ?_).trans ?_ | with_reducible refine (awaitReport_pending _ _ _ _ _ ?_).trans ?_ | with_reducible refine (report_twi _ _ _ _ _ _ ?_).trans ?_ | with_reducible refine (report_test _ _ _ _ _ _ ?_).trans ?_ | with_reducible refine (report_pins _ _ _ _ _ _ ?_).trans ?_ | with_reducible refine (report_bulk _ _ _ _ _ _ ?_).trans ?_ | with_reducible refine (report_pending _ _ _ _ _ _ ?_).trans ?_ | intro _ | split | simp)
@[simp] theorem calStatusAnswer_keeps (rq : Req) (s : State) :
    (calStatusAnswer rq s).power = s.power ∧ (calStatusAnswer rq s).twi = s.twi ∧ (calStatusAnswer rq s).ports = s.ports ∧ (calStatusAnswer rq s).pool = s.pool ∧ (calStatusAnswer rq s).lanes = s.lanes ∧ (calStatusAnswer rq s).map = s.map ∧ (calStatusAnswer rq s).mon = s.mon ∧ (calStatusAnswer rq s).alarms = s.alarms ∧ (calStatusAnswer rq s).faults = s.faults ∧ (calStatusAnswer rq s).test = s.test ∧ (calStatusAnswer rq s).pins = s.pins ∧ (calStatusAnswer rq s).bulk = s.bulk ∧ (calStatusAnswer rq s).free = s.free ∧ (calStatusAnswer rq s).pending = s.pending := by
  simp only [calStatusAnswer]; (repeat' split) <;> simp
@[simp] theorem calStatus_keeps (rq : Req) (s : State) :
    (calStatus rq s).twi = s.twi ∧ (calStatus rq s).test = s.test ∧ (calStatus rq s).pins = s.pins ∧ (calStatus rq s).bulk = s.bulk ∧ (calStatus rq s).pending = s.pending := by
  simp only [calStatus]; (repeat' split) <;> simp
@[simp] theorem calTargetUpdate_keeps (p : LPort) (readings : Vector Int 4) (s : State) :
    (calTargetUpdate p readings s).sys = s.sys ∧ (calTargetUpdate p readings s).power = s.power ∧ (calTargetUpdate p readings s).twi = s.twi ∧ (calTargetUpdate p readings s).lanes = s.lanes ∧ (calTargetUpdate p readings s).mon = s.mon ∧ (calTargetUpdate p readings s).faults = s.faults ∧ (calTargetUpdate p readings s).test = s.test ∧ (calTargetUpdate p readings s).pins = s.pins ∧ (calTargetUpdate p readings s).bulk = s.bulk ∧ (calTargetUpdate p readings s).free = s.free ∧ (calTargetUpdate p readings s).pending = s.pending := by
  simp only [calTargetUpdate]; (repeat' split) <;> simp
@[simp] theorem calRunEnd_keeps (p : LPort) (foreground : Bool) (first second : CalVals) (s : State) :
    (calRunEnd p foreground first second s).sys = s.sys ∧ (calRunEnd p foreground first second s).twi = s.twi ∧ (calRunEnd p foreground first second s).lanes = s.lanes ∧ (calRunEnd p foreground first second s).mon = s.mon ∧ (calRunEnd p foreground first second s).faults = s.faults ∧ (calRunEnd p foreground first second s).test = s.test ∧ (calRunEnd p foreground first second s).pins = s.pins ∧ (calRunEnd p foreground first second s).bulk = s.bulk ∧ (calRunEnd p foreground first second s).free = s.free ∧ (calRunEnd p foreground first second s).pending = s.pending := by
  simp only [calRunEnd]; (repeat' split) <;> simp
@[simp] theorem calRetryRun_keeps (p : LPort) (s : State) :
    (calRetryRun p s).sys = s.sys ∧ (calRetryRun p s).power = s.power ∧ (calRetryRun p s).twi = s.twi ∧ (calRetryRun p s).lanes = s.lanes ∧ (calRetryRun p s).mon = s.mon ∧ (calRetryRun p s).faults = s.faults ∧ (calRetryRun p s).test = s.test ∧ (calRetryRun p s).pins = s.pins ∧ (calRetryRun p s).bulk = s.bulk ∧ (calRetryRun p s).free = s.free ∧ (calRetryRun p s).pending = s.pending := by
  simp only [calRetryRun]; (repeat' split) <;> simp

@[simp] theorem modEv_keeps (idx : Nat) (f : DialEv → DialEv) (s : State) :
    (modEv idx f s).sys = s.sys ∧ (modEv idx f s).power = s.power ∧ (modEv idx f s).mbx = s.mbx ∧ (modEv idx f s).twi = s.twi ∧ (modEv idx f s).ports = s.ports ∧ (modEv idx f s).pool = s.pool ∧ (modEv idx f s).lanes = s.lanes ∧ (modEv idx f s).map = s.map ∧ (modEv idx f s).mon = s.mon ∧ (modEv idx f s).alarms = s.alarms ∧ (modEv idx f s).faults = s.faults ∧ (modEv idx f s).jrx = s.jrx ∧ (modEv idx f s).test = s.test ∧ (modEv idx f s).pins = s.pins ∧ (modEv idx f s).bulk = s.bulk ∧ (modEv idx f s).free = s.free ∧ (modEv idx f s).pending = s.pending := by
  simp only [modEv]; (repeat' split) <;> simp
@[simp] theorem exactEffect_keeps (e : DialEv) (s : State) :
    (exactEffect e s).sys = s.sys ∧ (exactEffect e s).power = s.power ∧ (exactEffect e s).twi = s.twi ∧ (exactEffect e s).lanes = s.lanes ∧ (exactEffect e s).dial = s.dial ∧ (exactEffect e s).mon = s.mon ∧ (exactEffect e s).faults = s.faults ∧ (exactEffect e s).test = s.test ∧ (exactEffect e s).pins = s.pins ∧ (exactEffect e s).bulk = s.bulk ∧ (exactEffect e s).free = s.free ∧ (exactEffect e s).pending = s.pending := by
  simp only [exactEffect]; (repeat' split) <;> simp
@[simp] theorem markExchanged_keeps (r : RefCode) (n : Psfn) (e : DialEv) (s : State) :
    (markExchanged r n e s).sys = s.sys ∧ (markExchanged r n e s).power = s.power ∧ (markExchanged r n e s).mbx = s.mbx ∧ (markExchanged r n e s).twi = s.twi ∧ (markExchanged r n e s).ports = s.ports ∧ (markExchanged r n e s).pool = s.pool ∧ (markExchanged r n e s).lanes = s.lanes ∧ (markExchanged r n e s).map = s.map ∧ (markExchanged r n e s).mon = s.mon ∧ (markExchanged r n e s).alarms = s.alarms ∧ (markExchanged r n e s).faults = s.faults ∧ (markExchanged r n e s).jrx = s.jrx ∧ (markExchanged r n e s).test = s.test ∧ (markExchanged r n e s).pins = s.pins ∧ (markExchanged r n e s).bulk = s.bulk ∧ (markExchanged r n e s).free = s.free ∧ (markExchanged r n e s).pending = s.pending := by
  simp only [markExchanged]; (repeat' split) <;> simp
@[simp] theorem exchangeEvent_keeps (n : Psfn) (e : DialEv) (s : State) :
    (exchangeEvent n e s).sys = s.sys ∧ (exchangeEvent n e s).power = s.power ∧ (exchangeEvent n e s).twi = s.twi ∧ (exchangeEvent n e s).lanes = s.lanes ∧ (exchangeEvent n e s).mon = s.mon ∧ (exchangeEvent n e s).faults = s.faults ∧ (exchangeEvent n e s).test = s.test ∧ (exchangeEvent n e s).pins = s.pins ∧ (exchangeEvent n e s).bulk = s.bulk ∧ (exchangeEvent n e s).pending = s.pending := by
  simp only [exchangeEvent]; (repeat' split) <;> simp
@[simp] theorem exchangeDue_keeps (r : RefCode) (s : State) :
    (exchangeDue r s).sys = s.sys ∧ (exchangeDue r s).power = s.power ∧ (exchangeDue r s).twi = s.twi ∧ (exchangeDue r s).lanes = s.lanes ∧ (exchangeDue r s).mon = s.mon ∧ (exchangeDue r s).faults = s.faults ∧ (exchangeDue r s).test = s.test ∧ (exchangeDue r s).pins = s.pins ∧ (exchangeDue r s).bulk = s.bulk ∧ (exchangeDue r s).pending = s.pending := by
  simp only [exchangeDue]; (repeat' split) <;> simp

@[simp] theorem profileWake_keeps (code : BitVec 4) (arg : BitVec 6) (s : State) :
    (profileWake code arg s).sys = s.sys ∧ (profileWake code arg s).mbx = s.mbx ∧ (profileWake code arg s).twi = s.twi ∧ (profileWake code arg s).pool = s.pool ∧ (profileWake code arg s).lanes = s.lanes ∧ (profileWake code arg s).map = s.map ∧ (profileWake code arg s).dial = s.dial ∧ (profileWake code arg s).mon = s.mon ∧ (profileWake code arg s).alarms = s.alarms ∧ (profileWake code arg s).faults = s.faults ∧ (profileWake code arg s).jrx = s.jrx ∧ (profileWake code arg s).test = s.test ∧ (profileWake code arg s).pins = s.pins ∧ (profileWake code arg s).bulk = s.bulk ∧ (profileWake code arg s).free = s.free ∧ (profileWake code arg s).pending = s.pending := by
  simp only [profileWake]; (repeat' split) <;> simp
@[simp] theorem startHeld_keeps (s : State) :
    (startHeld s).sys = s.sys ∧ (startHeld s).mbx = s.mbx ∧ (startHeld s).twi = s.twi ∧ (startHeld s).pool = s.pool ∧ (startHeld s).lanes = s.lanes ∧ (startHeld s).map = s.map ∧ (startHeld s).dial = s.dial ∧ (startHeld s).mon = s.mon ∧ (startHeld s).alarms = s.alarms ∧ (startHeld s).faults = s.faults ∧ (startHeld s).jrx = s.jrx ∧ (startHeld s).test = s.test ∧ (startHeld s).pins = s.pins ∧ (startHeld s).bulk = s.bulk ∧ (startHeld s).free = s.free ∧ (startHeld s).pending = s.pending := by
  simp only [startHeld]; (repeat' split) <;> simp
@[simp] theorem logRefusal_keeps (ms : List Move) (refuser reason : Nat) (abort : Bool) (s : State) :
    (logRefusal ms refuser reason abort s).sys = s.sys ∧ (logRefusal ms refuser reason abort s).mbx = s.mbx ∧ (logRefusal ms refuser reason abort s).twi = s.twi ∧ (logRefusal ms refuser reason abort s).ports = s.ports ∧ (logRefusal ms refuser reason abort s).pool = s.pool ∧ (logRefusal ms refuser reason abort s).lanes = s.lanes ∧ (logRefusal ms refuser reason abort s).map = s.map ∧ (logRefusal ms refuser reason abort s).dial = s.dial ∧ (logRefusal ms refuser reason abort s).mon = s.mon ∧ (logRefusal ms refuser reason abort s).alarms = s.alarms ∧ (logRefusal ms refuser reason abort s).faults = s.faults ∧ (logRefusal ms refuser reason abort s).jrx = s.jrx ∧ (logRefusal ms refuser reason abort s).test = s.test ∧ (logRefusal ms refuser reason abort s).pins = s.pins ∧ (logRefusal ms refuser reason abort s).bulk = s.bulk ∧ (logRefusal ms refuser reason abort s).free = s.free ∧ (logRefusal ms refuser reason abort s).pending = s.pending := by
  simp only [logRefusal]; (repeat' split) <;> simp
@[simp] theorem answerTrans_keeps (t : Trans) (a : Answer) (s : State) :
    (answerTrans t a s).power = s.power ∧ (answerTrans t a s).twi = s.twi ∧ (answerTrans t a s).ports = s.ports ∧ (answerTrans t a s).pool = s.pool ∧ (answerTrans t a s).lanes = s.lanes ∧ (answerTrans t a s).map = s.map ∧ (answerTrans t a s).mon = s.mon ∧ (answerTrans t a s).alarms = s.alarms ∧ (answerTrans t a s).faults = s.faults ∧ (answerTrans t a s).test = s.test ∧ (answerTrans t a s).pins = s.pins ∧ (answerTrans t a s).bulk = s.bulk ∧ (answerTrans t a s).free = s.free ∧ (answerTrans t a s).pending = s.pending := by
  simp only [answerTrans]; (repeat' split) <;> simp
@[simp] theorem refuseRequest_keeps (rs : List (Nat × Nat)) (s : State) :
    (refuseRequest rs s).twi = s.twi ∧ (refuseRequest rs s).pool = s.pool ∧ (refuseRequest rs s).lanes = s.lanes ∧ (refuseRequest rs s).map = s.map ∧ (refuseRequest rs s).mon = s.mon ∧ (refuseRequest rs s).alarms = s.alarms ∧ (refuseRequest rs s).faults = s.faults ∧ (refuseRequest rs s).test = s.test ∧ (refuseRequest rs s).pins = s.pins ∧ (refuseRequest rs s).bulk = s.bulk ∧ (refuseRequest rs s).free = s.free ∧ (refuseRequest rs s).pending = s.pending := by
  simp only [refuseRequest]; (repeat' split) <;> simp
@[simp] theorem upwardReport_keeps (start : Nat) (s : State) :
    (upwardReport start s).sys = s.sys ∧ (upwardReport start s).mbx = s.mbx ∧ (upwardReport start s).twi = s.twi ∧ (upwardReport start s).ports = s.ports ∧ (upwardReport start s).pool = s.pool ∧ (upwardReport start s).lanes = s.lanes ∧ (upwardReport start s).map = s.map ∧ (upwardReport start s).dial = s.dial ∧ (upwardReport start s).mon = s.mon ∧ (upwardReport start s).alarms = s.alarms ∧ (upwardReport start s).faults = s.faults ∧ (upwardReport start s).jrx = s.jrx ∧ (upwardReport start s).test = s.test ∧ (upwardReport start s).pins = s.pins ∧ (upwardReport start s).bulk = s.bulk ∧ (upwardReport start s).free = s.free ∧ (upwardReport start s).pending = s.pending := by
  simp only [upwardReport]; (repeat' split) <;> simp
@[simp] theorem beginTrans_keeps (s : State) :
    (beginTrans s).sys = s.sys ∧ (beginTrans s).mbx = s.mbx ∧ (beginTrans s).twi = s.twi ∧ (beginTrans s).lanes = s.lanes ∧ (beginTrans s).map = s.map ∧ (beginTrans s).dial = s.dial ∧ (beginTrans s).mon = s.mon ∧ (beginTrans s).alarms = s.alarms ∧ (beginTrans s).faults = s.faults ∧ (beginTrans s).jrx = s.jrx ∧ (beginTrans s).test = s.test ∧ (beginTrans s).pins = s.pins ∧ (beginTrans s).bulk = s.bulk ∧ (beginTrans s).free = s.free ∧ (beginTrans s).pending = s.pending := by
  simp only [beginTrans]; (repeat' split) <;> simp
@[simp] theorem startTrans_keeps (rq : Req) (ms : List Move) (profile : Option Profile) (isWake : Bool) (s : State) :
    (startTrans rq ms profile isWake s).sys = s.sys ∧ (startTrans rq ms profile isWake s).twi = s.twi ∧ (startTrans rq ms profile isWake s).pool = s.pool ∧ (startTrans rq ms profile isWake s).lanes = s.lanes ∧ (startTrans rq ms profile isWake s).map = s.map ∧ (startTrans rq ms profile isWake s).dial = s.dial ∧ (startTrans rq ms profile isWake s).mon = s.mon ∧ (startTrans rq ms profile isWake s).alarms = s.alarms ∧ (startTrans rq ms profile isWake s).faults = s.faults ∧ (startTrans rq ms profile isWake s).jrx = s.jrx ∧ (startTrans rq ms profile isWake s).test = s.test ∧ (startTrans rq ms profile isWake s).pins = s.pins ∧ (startTrans rq ms profile isWake s).bulk = s.bulk ∧ (startTrans rq ms profile isWake s).free = s.free ∧ (startTrans rq ms profile isWake s).pending = s.pending := by
  simp only [startTrans]; (repeat' split) <;> simp
@[simp] theorem reverseTrans_keeps (rq : Req) (t : Trans) (profile : Option Profile) (s : State) :
    (reverseTrans rq t profile s).twi = s.twi ∧ (reverseTrans rq t profile s).lanes = s.lanes ∧ (reverseTrans rq t profile s).map = s.map ∧ (reverseTrans rq t profile s).mon = s.mon ∧ (reverseTrans rq t profile s).alarms = s.alarms ∧ (reverseTrans rq t profile s).faults = s.faults ∧ (reverseTrans rq t profile s).test = s.test ∧ (reverseTrans rq t profile s).pins = s.pins ∧ (reverseTrans rq t profile s).bulk = s.bulk ∧ (reverseTrans rq t profile s).free = s.free ∧ (reverseTrans rq t profile s).pending = s.pending := by
  simp only [reverseTrans]; (repeat' split) <;> simp
@[simp] theorem setWakes_keeps (w : Word) (s : State) :
    (setWakes w s).sys = s.sys ∧ (setWakes w s).mbx = s.mbx ∧ (setWakes w s).twi = s.twi ∧ (setWakes w s).ports = s.ports ∧ (setWakes w s).pool = s.pool ∧ (setWakes w s).lanes = s.lanes ∧ (setWakes w s).map = s.map ∧ (setWakes w s).dial = s.dial ∧ (setWakes w s).mon = s.mon ∧ (setWakes w s).alarms = s.alarms ∧ (setWakes w s).faults = s.faults ∧ (setWakes w s).jrx = s.jrx ∧ (setWakes w s).test = s.test ∧ (setWakes w s).pins = s.pins ∧ (setWakes w s).bulk = s.bulk ∧ (setWakes w s).free = s.free ∧ (setWakes w s).pending = s.pending := by
  simp only [setWakes]; (repeat' split) <;> simp
@[simp] theorem pwrProfileSet_keeps (rq : Req) (s : State) :
    (pwrProfileSet rq s).twi = s.twi ∧ (pwrProfileSet rq s).test = s.test ∧ (pwrProfileSet rq s).pins = s.pins ∧ (pwrProfileSet rq s).bulk = s.bulk ∧ (pwrProfileSet rq s).pending = s.pending := by
  refine ⟨?_, ?_, ?_, ?_, ?_⟩ <;> (simp only [pwrProfileSet]; repeat' first | with_reducible rfl | (simp; done) | with_reducible refine (eachOf_twi _ _ _ ?_).trans ?_ | with_reducible refine (eachOf_test _ _ _ ?_).trans ?_ | with_reducible refine (eachOf_pins _ _ _ ?_).trans ?_ | with_reducible refine (eachOf_bulk _ _ _ ?_).trans ?_ | with_reducible refine (eachOf_pending _ _ _ ?_).trans ?_ | with_reducible refine (eachPort_twi _ _ ?_).trans ?_ | with_reducible refine (eachPort_test _ _ ?_).trans ?_ | with_reducible refine (eachPort_pins _ _ ?_).trans ?_ | with_reducible refine (eachPort_bulk _ _ ?_).trans ?_ | with_reducible refine (eachPort_pending _ _ ?_).trans ?_ | with_reducible refine (doIf_twi _ _ _ ?_).trans ?_ | with_reducible refine (doIf_test _ _ _ ?_).trans ?_ | with_reducible refine (doIf_pins _ _ _ ?_).trans ?_ | with_reducible refine (doIf_bulk _ _ _ ?_).trans ?_ | with_reducible refine (doIf_pending _ _ _ ?_).trans ?_ | with_reducible refine (command_twi _ _ _ _ _ _ ?_).trans ?_ | with_reducible refine (command_test _ _ _ _ _ _ ?_).trans ?_ | with_reducible refine (command_pins _ _ _ _ _ _ ?_).trans ?_ | with_reducible refine (command_bulk _ _ _ _ _ _ ?_).trans ?_ | with_reducible refine (command_pending _ _ _ _ _ _ ?_).trans ?_ | with_reducible refine (commandOk_twi _ _ _ _ _ _ ?_).trans ?_ | with_reducible refine (commandOk_test _ _ _ _ _ _ ?_).trans ?_ | with_reducible refine (commandOk_pins _ _ _ _ _ _ ?_).trans ?_ | with_reducible refine (commandOk_bulk _ _ _ _ _ _ ?_).trans ?_ | with_reducible refine (commandOk_pending _ _ _ _ _ _ ?_).trans ?_ | with_reducible refine (awaitReport_twi _ _ _ _ _ ?_).trans ?_ | with_reducible refine (awaitReport_test _ _ _ _ _ ?_).trans ?_ | with_reducible refine (awaitReport_pins _ _ _ _ _ ?_).trans ?_ | with_reducible refine (awaitReport_bulk _ _ _ _ _ ?_).trans ?_ | with_reducible refine (awaitReport_pending _ _ _ _ _ ?_).trans ?_ | with_reducible refine (report_twi _ _ _ _ _ _ ?_).trans ?_ | with_reducible refine (report_test _ _ _ _ _ _ ?_).trans ?_ | with_reducible refine (report_pins _ _ _ _ _ _ ?_).trans ?_ | with_reducible refine (report_bulk _ _ _ _ _ _ ?_).trans ?_ | with_reducible refine (report_pending _ _ _ _ _ _ ?_).trans ?_ | intro _ | split | simp)
@[simp] theorem pwrDomainSet_keeps (rq : Req) (s : State) :
    (pwrDomainSet rq s).twi = s.twi ∧ (pwrDomainSet rq s).test = s.test ∧ (pwrDomainSet rq s).pins = s.pins ∧ (pwrDomainSet rq s).bulk = s.bulk ∧ (pwrDomainSet rq s).pending = s.pending := by
  refine ⟨?_, ?_, ?_, ?_, ?_⟩ <;> (simp only [pwrDomainSet]; repeat' first | with_reducible rfl | (simp; done) | with_reducible refine (eachOf_twi _ _ _ ?_).trans ?_ | with_reducible refine (eachOf_test _ _ _ ?_).trans ?_ | with_reducible refine (eachOf_pins _ _ _ ?_).trans ?_ | with_reducible refine (eachOf_bulk _ _ _ ?_).trans ?_ | with_reducible refine (eachOf_pending _ _ _ ?_).trans ?_ | with_reducible refine (eachPort_twi _ _ ?_).trans ?_ | with_reducible refine (eachPort_test _ _ ?_).trans ?_ | with_reducible refine (eachPort_pins _ _ ?_).trans ?_ | with_reducible refine (eachPort_bulk _ _ ?_).trans ?_ | with_reducible refine (eachPort_pending _ _ ?_).trans ?_ | with_reducible refine (doIf_twi _ _ _ ?_).trans ?_ | with_reducible refine (doIf_test _ _ _ ?_).trans ?_ | with_reducible refine (doIf_pins _ _ _ ?_).trans ?_ | with_reducible refine (doIf_bulk _ _ _ ?_).trans ?_ | with_reducible refine (doIf_pending _ _ _ ?_).trans ?_ | with_reducible refine (command_twi _ _ _ _ _ _ ?_).trans ?_ | with_reducible refine (command_test _ _ _ _ _ _ ?_).trans ?_ | with_reducible refine (command_pins _ _ _ _ _ _ ?_).trans ?_ | with_reducible refine (command_bulk _ _ _ _ _ _ ?_).trans ?_ | with_reducible refine (command_pending _ _ _ _ _ _ ?_).trans ?_ | with_reducible refine (commandOk_twi _ _ _ _ _ _ ?_).trans ?_ | with_reducible refine (commandOk_test _ _ _ _ _ _ ?_).trans ?_ | with_reducible refine (commandOk_pins _ _ _ _ _ _ ?_).trans ?_ | with_reducible refine (commandOk_bulk _ _ _ _ _ _ ?_).trans ?_ | with_reducible refine (commandOk_pending _ _ _ _ _ _ ?_).trans ?_ | with_reducible refine (awaitReport_twi _ _ _ _ _ ?_).trans ?_ | with_reducible refine (awaitReport_test _ _ _ _ _ ?_).trans ?_ | with_reducible refine (awaitReport_pins _ _ _ _ _ ?_).trans ?_ | with_reducible refine (awaitReport_bulk _ _ _ _ _ ?_).trans ?_ | with_reducible refine (awaitReport_pending _ _ _ _ _ ?_).trans ?_ | with_reducible refine (report_twi _ _ _ _ _ _ ?_).trans ?_ | with_reducible refine (report_test _ _ _ _ _ _ ?_).trans ?_ | with_reducible refine (report_pins _ _ _ _ _ _ ?_).trans ?_ | with_reducible refine (report_bulk _ _ _ _ _ _ ?_).trans ?_ | with_reducible refine (report_pending _ _ _ _ _ _ ?_).trans ?_ | intro _ | split | simp)
@[simp] theorem powerAnswersReceived_keeps (s : State) :
    (powerAnswersReceived s).twi = s.twi ∧ (powerAnswersReceived s).lanes = s.lanes ∧ (powerAnswersReceived s).map = s.map ∧ (powerAnswersReceived s).mon = s.mon ∧ (powerAnswersReceived s).alarms = s.alarms ∧ (powerAnswersReceived s).faults = s.faults ∧ (powerAnswersReceived s).test = s.test ∧ (powerAnswersReceived s).pins = s.pins ∧ (powerAnswersReceived s).bulk = s.bulk ∧ (powerAnswersReceived s).free = s.free ∧ (powerAnswersReceived s).pending = s.pending := by
  simp only [powerAnswersReceived]; (repeat' split) <;> simp
@[simp] theorem noAnswer_keeps (who : Party) (s : State) :
    (noAnswer who s).twi = s.twi ∧ (noAnswer who s).pool = s.pool ∧ (noAnswer who s).lanes = s.lanes ∧ (noAnswer who s).map = s.map ∧ (noAnswer who s).mon = s.mon ∧ (noAnswer who s).alarms = s.alarms ∧ (noAnswer who s).faults = s.faults ∧ (noAnswer who s).test = s.test ∧ (noAnswer who s).pins = s.pins ∧ (noAnswer who s).bulk = s.bulk ∧ (noAnswer who s).free = s.free ∧ (noAnswer who s).pending = s.pending := by
  simp only [noAnswer]; (repeat' split) <;> simp
@[simp] theorem carryMoves_keeps (t : Trans) (ms : List Move) (s : State) :
    (carryMoves t ms s).twi = s.twi ∧ (carryMoves t ms s).test = s.test ∧ (carryMoves t ms s).pins = s.pins ∧ (carryMoves t ms s).pending = s.pending := by
  simp only [carryMoves]; (repeat' split) <;> simp
@[simp] theorem listenFor_keeps (profile : Option Profile) (s : State) :
    (listenFor profile s).sys = s.sys ∧ (listenFor profile s).power = s.power ∧ (listenFor profile s).mbx = s.mbx ∧ (listenFor profile s).ports = s.ports ∧ (listenFor profile s).pool = s.pool ∧ (listenFor profile s).lanes = s.lanes ∧ (listenFor profile s).map = s.map ∧ (listenFor profile s).dial = s.dial ∧ (listenFor profile s).mon = s.mon ∧ (listenFor profile s).alarms = s.alarms ∧ (listenFor profile s).faults = s.faults ∧ (listenFor profile s).jrx = s.jrx ∧ (listenFor profile s).test = s.test ∧ (listenFor profile s).pins = s.pins ∧ (listenFor profile s).bulk = s.bulk ∧ (listenFor profile s).free = s.free ∧ (listenFor profile s).pending = s.pending := by
  simp only [listenFor]; (repeat' split) <;> simp
@[simp] theorem endTrans_keeps (t : Trans) (s : State) :
    (endTrans t s).sys = s.sys ∧ (endTrans t s).mbx = s.mbx ∧ (endTrans t s).ports = s.ports ∧ (endTrans t s).lanes = s.lanes ∧ (endTrans t s).map = s.map ∧ (endTrans t s).dial = s.dial ∧ (endTrans t s).mon = s.mon ∧ (endTrans t s).alarms = s.alarms ∧ (endTrans t s).faults = s.faults ∧ (endTrans t s).jrx = s.jrx ∧ (endTrans t s).test = s.test ∧ (endTrans t s).pins = s.pins ∧ (endTrans t s).bulk = s.bulk ∧ (endTrans t s).free = s.free ∧ (endTrans t s).pending = s.pending := by
  simp only [endTrans]; (repeat' split) <;> simp
@[simp] theorem powerTransitionComplete_keeps (s : State) :
    (powerTransitionComplete s).test = s.test ∧ (powerTransitionComplete s).pins = s.pins ∧ (powerTransitionComplete s).pending = s.pending := by
  simp only [powerTransitionComplete]; (repeat' split) <;> simp
@[simp] theorem domainWakeComplete_keeps (d : Dom) (s : State) :
    (domainWakeComplete d s).twi = s.twi ∧ (domainWakeComplete d s).test = s.test ∧ (domainWakeComplete d s).pins = s.pins ∧ (domainWakeComplete d s).pending = s.pending := by
  simp only [domainWakeComplete]; (repeat' split) <;> simp
@[simp] theorem failBank_keeps (t : Trans) (k : Fin 32) (s : State) :
    (failBank t k s).free = s.free ∧ (failBank t k s).pending = s.pending := by
  simp only [failBank]; (repeat' split) <;> simp
@[simp] theorem bankCheckDone_keeps (failed : BitVec 32) (s : State) :
    (bankCheckDone failed s).pending = s.pending := by
  simp only [bankCheckDone]; (repeat' split) <;> simp
@[simp] theorem wakeEvent_keeps (s : State) :
    (wakeEvent s).sys = s.sys ∧ (wakeEvent s).power = s.power ∧ (wakeEvent s).twi = s.twi ∧ (wakeEvent s).ports = s.ports ∧ (wakeEvent s).pool = s.pool ∧ (wakeEvent s).lanes = s.lanes ∧ (wakeEvent s).map = s.map ∧ (wakeEvent s).dial = s.dial ∧ (wakeEvent s).mon = s.mon ∧ (wakeEvent s).alarms = s.alarms ∧ (wakeEvent s).faults = s.faults ∧ (wakeEvent s).jrx = s.jrx ∧ (wakeEvent s).test = s.test ∧ (wakeEvent s).pins = s.pins ∧ (wakeEvent s).bulk = s.bulk ∧ (wakeEvent s).free = s.free ∧ (wakeEvent s).pending = s.pending := by
  simp only [wakeEvent]; (repeat' split) <;> simp
@[simp] theorem wakeDone_keeps (s : State) :
    (wakeDone s).test = s.test ∧ (wakeDone s).pins = s.pins ∧ (wakeDone s).pending = s.pending := by
  simp only [wakeDone]; (repeat' split) <;> simp
@[simp] theorem lightWake_keeps (p : LPort) (s : State) :
    (lightWake p s).sys = s.sys ∧ (lightWake p s).mbx = s.mbx ∧ (lightWake p s).twi = s.twi ∧ (lightWake p s).pool = s.pool ∧ (lightWake p s).lanes = s.lanes ∧ (lightWake p s).map = s.map ∧ (lightWake p s).dial = s.dial ∧ (lightWake p s).mon = s.mon ∧ (lightWake p s).alarms = s.alarms ∧ (lightWake p s).faults = s.faults ∧ (lightWake p s).jrx = s.jrx ∧ (lightWake p s).test = s.test ∧ (lightWake p s).pins = s.pins ∧ (lightWake p s).bulk = s.bulk ∧ (lightWake p s).free = s.free ∧ (lightWake p s).pending = s.pending := by
  simp only [lightWake]; (repeat' split) <;> simp
@[simp] theorem keepAliveKeying_keeps (p : LPort) (s : State) :
    (keepAliveKeying p s).sys = s.sys ∧ (keepAliveKeying p s).power = s.power ∧ (keepAliveKeying p s).mbx = s.mbx ∧ (keepAliveKeying p s).twi = s.twi ∧ (keepAliveKeying p s).pool = s.pool ∧ (keepAliveKeying p s).lanes = s.lanes ∧ (keepAliveKeying p s).map = s.map ∧ (keepAliveKeying p s).dial = s.dial ∧ (keepAliveKeying p s).mon = s.mon ∧ (keepAliveKeying p s).alarms = s.alarms ∧ (keepAliveKeying p s).faults = s.faults ∧ (keepAliveKeying p s).jrx = s.jrx ∧ (keepAliveKeying p s).test = s.test ∧ (keepAliveKeying p s).pins = s.pins ∧ (keepAliveKeying p s).bulk = s.bulk ∧ (keepAliveKeying p s).free = s.free ∧ (keepAliveKeying p s).pending = s.pending := by
  simp only [keepAliveKeying]; (repeat' split) <;> simp
@[simp] theorem keepAliveDetect_keeps (p : LPort) (s : State) :
    (keepAliveDetect p s).sys = s.sys ∧ (keepAliveDetect p s).mbx = s.mbx ∧ (keepAliveDetect p s).twi = s.twi ∧ (keepAliveDetect p s).pool = s.pool ∧ (keepAliveDetect p s).lanes = s.lanes ∧ (keepAliveDetect p s).map = s.map ∧ (keepAliveDetect p s).dial = s.dial ∧ (keepAliveDetect p s).mon = s.mon ∧ (keepAliveDetect p s).alarms = s.alarms ∧ (keepAliveDetect p s).faults = s.faults ∧ (keepAliveDetect p s).jrx = s.jrx ∧ (keepAliveDetect p s).test = s.test ∧ (keepAliveDetect p s).pins = s.pins ∧ (keepAliveDetect p s).bulk = s.bulk ∧ (keepAliveDetect p s).free = s.free ∧ (keepAliveDetect p s).pending = s.pending := by
  simp only [keepAliveDetect]; (repeat' split) <;> simp
@[simp] theorem hostWakePattern_keeps (k : HLane) (s : State) :
    (hostWakePattern k s).sys = s.sys ∧ (hostWakePattern k s).mbx = s.mbx ∧ (hostWakePattern k s).twi = s.twi ∧ (hostWakePattern k s).pool = s.pool ∧ (hostWakePattern k s).lanes = s.lanes ∧ (hostWakePattern k s).map = s.map ∧ (hostWakePattern k s).dial = s.dial ∧ (hostWakePattern k s).mon = s.mon ∧ (hostWakePattern k s).alarms = s.alarms ∧ (hostWakePattern k s).faults = s.faults ∧ (hostWakePattern k s).jrx = s.jrx ∧ (hostWakePattern k s).test = s.test ∧ (hostWakePattern k s).pins = s.pins ∧ (hostWakePattern k s).bulk = s.bulk ∧ (hostWakePattern k s).free = s.free ∧ (hostWakePattern k s).pending = s.pending := by
  simp only [hostWakePattern]; (repeat' split) <;> simp
@[simp] theorem pwrRetainSet_keeps (rq : Req) (s : State) :
    (pwrRetainSet rq s).twi = s.twi ∧ (pwrRetainSet rq s).test = s.test ∧ (pwrRetainSet rq s).pins = s.pins ∧ (pwrRetainSet rq s).bulk = s.bulk ∧ (pwrRetainSet rq s).pending = s.pending := by
  refine ⟨?_, ?_, ?_, ?_, ?_⟩ <;> (simp only [pwrRetainSet]; repeat' first | with_reducible rfl | (simp; done) | with_reducible refine (eachOf_twi _ _ _ ?_).trans ?_ | with_reducible refine (eachOf_test _ _ _ ?_).trans ?_ | with_reducible refine (eachOf_pins _ _ _ ?_).trans ?_ | with_reducible refine (eachOf_bulk _ _ _ ?_).trans ?_ | with_reducible refine (eachOf_pending _ _ _ ?_).trans ?_ | with_reducible refine (eachPort_twi _ _ ?_).trans ?_ | with_reducible refine (eachPort_test _ _ ?_).trans ?_ | with_reducible refine (eachPort_pins _ _ ?_).trans ?_ | with_reducible refine (eachPort_bulk _ _ ?_).trans ?_ | with_reducible refine (eachPort_pending _ _ ?_).trans ?_ | with_reducible refine (doIf_twi _ _ _ ?_).trans ?_ | with_reducible refine (doIf_test _ _ _ ?_).trans ?_ | with_reducible refine (doIf_pins _ _ _ ?_).trans ?_ | with_reducible refine (doIf_bulk _ _ _ ?_).trans ?_ | with_reducible refine (doIf_pending _ _ _ ?_).trans ?_ | with_reducible refine (command_twi _ _ _ _ _ _ ?_).trans ?_ | with_reducible refine (command_test _ _ _ _ _ _ ?_).trans ?_ | with_reducible refine (command_pins _ _ _ _ _ _ ?_).trans ?_ | with_reducible refine (command_bulk _ _ _ _ _ _ ?_).trans ?_ | with_reducible refine (command_pending _ _ _ _ _ _ ?_).trans ?_ | with_reducible refine (commandOk_twi _ _ _ _ _ _ ?_).trans ?_ | with_reducible refine (commandOk_test _ _ _ _ _ _ ?_).trans ?_ | with_reducible refine (commandOk_pins _ _ _ _ _ _ ?_).trans ?_ | with_reducible refine (commandOk_bulk _ _ _ _ _ _ ?_).trans ?_ | with_reducible refine (commandOk_pending _ _ _ _ _ _ ?_).trans ?_ | with_reducible refine (awaitReport_twi _ _ _ _ _ ?_).trans ?_ | with_reducible refine (awaitReport_test _ _ _ _ _ ?_).trans ?_ | with_reducible refine (awaitReport_pins _ _ _ _ _ ?_).trans ?_ | with_reducible refine (awaitReport_bulk _ _ _ _ _ ?_).trans ?_ | with_reducible refine (awaitReport_pending _ _ _ _ _ ?_).trans ?_ | with_reducible refine (report_twi _ _ _ _ _ _ ?_).trans ?_ | with_reducible refine (report_test _ _ _ _ _ _ ?_).trans ?_ | with_reducible refine (report_pins _ _ _ _ _ _ ?_).trans ?_ | with_reducible refine (report_bulk _ _ _ _ _ _ ?_).trans ?_ | with_reducible refine (report_pending _ _ _ _ _ _ ?_).trans ?_ | intro _ | split | simp)
@[simp] theorem pwrStatusAnswer_keeps (rq : Req) (s : State) :
    (pwrStatusAnswer rq s).power = s.power ∧ (pwrStatusAnswer rq s).twi = s.twi ∧ (pwrStatusAnswer rq s).ports = s.ports ∧ (pwrStatusAnswer rq s).pool = s.pool ∧ (pwrStatusAnswer rq s).lanes = s.lanes ∧ (pwrStatusAnswer rq s).map = s.map ∧ (pwrStatusAnswer rq s).mon = s.mon ∧ (pwrStatusAnswer rq s).alarms = s.alarms ∧ (pwrStatusAnswer rq s).faults = s.faults ∧ (pwrStatusAnswer rq s).test = s.test ∧ (pwrStatusAnswer rq s).pins = s.pins ∧ (pwrStatusAnswer rq s).bulk = s.bulk ∧ (pwrStatusAnswer rq s).free = s.free ∧ (pwrStatusAnswer rq s).pending = s.pending := by
  simp only [pwrStatusAnswer]; (repeat' split) <;> simp
@[simp] theorem pwrStatus_keeps (rq : Req) (s : State) :
    (pwrStatus rq s).twi = s.twi ∧ (pwrStatus rq s).test = s.test ∧ (pwrStatus rq s).pins = s.pins ∧ (pwrStatus rq s).bulk = s.bulk ∧ (pwrStatus rq s).pending = s.pending := by
  simp only [pwrStatus]; (repeat' split) <;> simp
@[simp] theorem pwrRefusalsAnswer_keeps (rq : Req) (s : State) :
    (pwrRefusalsAnswer rq s).twi = s.twi ∧ (pwrRefusalsAnswer rq s).ports = s.ports ∧ (pwrRefusalsAnswer rq s).pool = s.pool ∧ (pwrRefusalsAnswer rq s).lanes = s.lanes ∧ (pwrRefusalsAnswer rq s).map = s.map ∧ (pwrRefusalsAnswer rq s).mon = s.mon ∧ (pwrRefusalsAnswer rq s).alarms = s.alarms ∧ (pwrRefusalsAnswer rq s).faults = s.faults ∧ (pwrRefusalsAnswer rq s).test = s.test ∧ (pwrRefusalsAnswer rq s).pins = s.pins ∧ (pwrRefusalsAnswer rq s).free = s.free ∧ (pwrRefusalsAnswer rq s).pending = s.pending := by
  refine ⟨?_, ?_, ?_, ?_, ?_, ?_, ?_, ?_, ?_, ?_, ?_, ?_⟩ <;> (simp only [pwrRefusalsAnswer]; repeat' first | with_reducible rfl | (simp; done) | with_reducible refine (eachOf_twi _ _ _ ?_).trans ?_ | with_reducible refine (eachOf_ports _ _ _ ?_).trans ?_ | with_reducible refine (eachOf_pool _ _ _ ?_).trans ?_ | with_reducible refine (eachOf_lanes _ _ _ ?_).trans ?_ | with_reducible refine (eachOf_map _ _ _ ?_).trans ?_ | with_reducible refine (eachOf_mon _ _ _ ?_).trans ?_ | with_reducible refine (eachOf_alarms _ _ _ ?_).trans ?_ | with_reducible refine (eachOf_faults _ _ _ ?_).trans ?_ | with_reducible refine (eachOf_test _ _ _ ?_).trans ?_ | with_reducible refine (eachOf_pins _ _ _ ?_).trans ?_ | with_reducible refine (eachOf_free _ _ _ ?_).trans ?_ | with_reducible refine (eachOf_pending _ _ _ ?_).trans ?_ | with_reducible refine (eachPort_twi _ _ ?_).trans ?_ | with_reducible refine (eachPort_ports _ _ ?_).trans ?_ | with_reducible refine (eachPort_pool _ _ ?_).trans ?_ | with_reducible refine (eachPort_lanes _ _ ?_).trans ?_ | with_reducible refine (eachPort_map _ _ ?_).trans ?_ | with_reducible refine (eachPort_mon _ _ ?_).trans ?_ | with_reducible refine (eachPort_alarms _ _ ?_).trans ?_ | with_reducible refine (eachPort_faults _ _ ?_).trans ?_ | with_reducible refine (eachPort_test _ _ ?_).trans ?_ | with_reducible refine (eachPort_pins _ _ ?_).trans ?_ | with_reducible refine (eachPort_free _ _ ?_).trans ?_ | with_reducible refine (eachPort_pending _ _ ?_).trans ?_ | with_reducible refine (doIf_twi _ _ _ ?_).trans ?_ | with_reducible refine (doIf_ports _ _ _ ?_).trans ?_ | with_reducible refine (doIf_pool _ _ _ ?_).trans ?_ | with_reducible refine (doIf_lanes _ _ _ ?_).trans ?_ | with_reducible refine (doIf_map _ _ _ ?_).trans ?_ | with_reducible refine (doIf_mon _ _ _ ?_).trans ?_ | with_reducible refine (doIf_alarms _ _ _ ?_).trans ?_ | with_reducible refine (doIf_faults _ _ _ ?_).trans ?_ | with_reducible refine (doIf_test _ _ _ ?_).trans ?_ | with_reducible refine (doIf_pins _ _ _ ?_).trans ?_ | with_reducible refine (doIf_free _ _ _ ?_).trans ?_ | with_reducible refine (doIf_pending _ _ _ ?_).trans ?_ | with_reducible refine (command_twi _ _ _ _ _ _ ?_).trans ?_ | with_reducible refine (command_test _ _ _ _ _ _ ?_).trans ?_ | with_reducible refine (command_pins _ _ _ _ _ _ ?_).trans ?_ | with_reducible refine (command_pending _ _ _ _ _ _ ?_).trans ?_ | with_reducible refine (commandOk_twi _ _ _ _ _ _ ?_).trans ?_ | with_reducible refine (commandOk_test _ _ _ _ _ _ ?_).trans ?_ | with_reducible refine (commandOk_pins _ _ _ _ _ _ ?_).trans ?_ | with_reducible refine (commandOk_pending _ _ _ _ _ _ ?_).trans ?_ | with_reducible refine (awaitReport_twi _ _ _ _ _ ?_).trans ?_ | with_reducible refine (awaitReport_ports _ _ _ _ _ ?_).trans ?_ | with_reducible refine (awaitReport_pool _ _ _ _ _ ?_).trans ?_ | with_reducible refine (awaitReport_lanes _ _ _ _ _ ?_).trans ?_ | with_reducible refine (awaitReport_map _ _ _ _ _ ?_).trans ?_ | with_reducible refine (awaitReport_mon _ _ _ _ _ ?_).trans ?_ | with_reducible refine (awaitReport_alarms _ _ _ _ _ ?_).trans ?_ | with_reducible refine (awaitReport_faults _ _ _ _ _ ?_).trans ?_ | with_reducible refine (awaitReport_test _ _ _ _ _ ?_).trans ?_ | with_reducible refine (awaitReport_pins _ _ _ _ _ ?_).trans ?_ | with_reducible refine (awaitReport_free _ _ _ _ _ ?_).trans ?_ | with_reducible refine (awaitReport_pending _ _ _ _ _ ?_).trans ?_ | with_reducible refine (report_twi _ _ _ _ _ _ ?_).trans ?_ | with_reducible refine (report_test _ _ _ _ _ _ ?_).trans ?_ | with_reducible refine (report_pins _ _ _ _ _ _ ?_).trans ?_ | with_reducible refine (report_pending _ _ _ _ _ _ ?_).trans ?_ | intro _ | split | simp)
@[simp] theorem pwrRefusalsRead_keeps (rq : Req) (s : State) :
    (pwrRefusalsRead rq s).twi = s.twi ∧ (pwrRefusalsRead rq s).test = s.test ∧ (pwrRefusalsRead rq s).pins = s.pins ∧ (pwrRefusalsRead rq s).pending = s.pending := by
  refine ⟨?_, ?_, ?_, ?_⟩ <;> (simp only [pwrRefusalsRead]; repeat' first | with_reducible rfl | (simp; done) | with_reducible refine (eachOf_twi _ _ _ ?_).trans ?_ | with_reducible refine (eachOf_test _ _ _ ?_).trans ?_ | with_reducible refine (eachOf_pins _ _ _ ?_).trans ?_ | with_reducible refine (eachOf_pending _ _ _ ?_).trans ?_ | with_reducible refine (eachPort_twi _ _ ?_).trans ?_ | with_reducible refine (eachPort_test _ _ ?_).trans ?_ | with_reducible refine (eachPort_pins _ _ ?_).trans ?_ | with_reducible refine (eachPort_pending _ _ ?_).trans ?_ | with_reducible refine (doIf_twi _ _ _ ?_).trans ?_ | with_reducible refine (doIf_test _ _ _ ?_).trans ?_ | with_reducible refine (doIf_pins _ _ _ ?_).trans ?_ | with_reducible refine (doIf_pending _ _ _ ?_).trans ?_ | with_reducible refine (command_twi _ _ _ _ _ _ ?_).trans ?_ | with_reducible refine (command_test _ _ _ _ _ _ ?_).trans ?_ | with_reducible refine (command_pins _ _ _ _ _ _ ?_).trans ?_ | with_reducible refine (command_pending _ _ _ _ _ _ ?_).trans ?_ | with_reducible refine (commandOk_twi _ _ _ _ _ _ ?_).trans ?_ | with_reducible refine (commandOk_test _ _ _ _ _ _ ?_).trans ?_ | with_reducible refine (commandOk_pins _ _ _ _ _ _ ?_).trans ?_ | with_reducible refine (commandOk_pending _ _ _ _ _ _ ?_).trans ?_ | with_reducible refine (awaitReport_twi _ _ _ _ _ ?_).trans ?_ | with_reducible refine (awaitReport_test _ _ _ _ _ ?_).trans ?_ | with_reducible refine (awaitReport_pins _ _ _ _ _ ?_).trans ?_ | with_reducible refine (awaitReport_pending _ _ _ _ _ ?_).trans ?_ | with_reducible refine (report_twi _ _ _ _ _ _ ?_).trans ?_ | with_reducible refine (report_test _ _ _ _ _ _ ?_).trans ?_ | with_reducible refine (report_pins _ _ _ _ _ _ ?_).trans ?_ | with_reducible refine (report_pending _ _ _ _ _ _ ?_).trans ?_ | intro _ | split | simp)
@[simp] theorem pwrWakeAnswer_keeps (rq : Req) (s : State) :
    (pwrWakeAnswer rq s).power = s.power ∧ (pwrWakeAnswer rq s).twi = s.twi ∧ (pwrWakeAnswer rq s).ports = s.ports ∧ (pwrWakeAnswer rq s).pool = s.pool ∧ (pwrWakeAnswer rq s).lanes = s.lanes ∧ (pwrWakeAnswer rq s).map = s.map ∧ (pwrWakeAnswer rq s).mon = s.mon ∧ (pwrWakeAnswer rq s).alarms = s.alarms ∧ (pwrWakeAnswer rq s).faults = s.faults ∧ (pwrWakeAnswer rq s).test = s.test ∧ (pwrWakeAnswer rq s).pins = s.pins ∧ (pwrWakeAnswer rq s).bulk = s.bulk ∧ (pwrWakeAnswer rq s).free = s.free ∧ (pwrWakeAnswer rq s).pending = s.pending := by
  simp only [pwrWakeAnswer]; (repeat' split) <;> simp
@[simp] theorem pwrWakeReport_keeps (rq : Req) (s : State) :
    (pwrWakeReport rq s).twi = s.twi ∧ (pwrWakeReport rq s).test = s.test ∧ (pwrWakeReport rq s).pins = s.pins ∧ (pwrWakeReport rq s).bulk = s.bulk ∧ (pwrWakeReport rq s).pending = s.pending := by
  simp only [pwrWakeReport]; (repeat' split) <;> simp

@[simp] theorem setCdr_keeps (k : HLane) (on : Bool) (s : State) :
    (setCdr k on s).sys = s.sys ∧ (setCdr k on s).power = s.power ∧ (setCdr k on s).twi = s.twi ∧ (setCdr k on s).ports = s.ports ∧ (setCdr k on s).map = s.map ∧ (setCdr k on s).dial = s.dial ∧ (setCdr k on s).mon = s.mon ∧ (setCdr k on s).faults = s.faults ∧ (setCdr k on s).test = s.test ∧ (setCdr k on s).pins = s.pins ∧ (setCdr k on s).bulk = s.bulk ∧ (setCdr k on s).free = s.free ∧ (setCdr k on s).pending = s.pending := by
  simp only [setCdr]; (repeat' split) <;> simp
@[simp] theorem configLane_keeps (w1 w2 w3 : Word) (k : HLane) (s : State) :
    (configLane w1 w2 w3 k s).sys = s.sys ∧ (configLane w1 w2 w3 k s).power = s.power ∧ (configLane w1 w2 w3 k s).twi = s.twi ∧ (configLane w1 w2 w3 k s).ports = s.ports ∧ (configLane w1 w2 w3 k s).map = s.map ∧ (configLane w1 w2 w3 k s).dial = s.dial ∧ (configLane w1 w2 w3 k s).mon = s.mon ∧ (configLane w1 w2 w3 k s).faults = s.faults ∧ (configLane w1 w2 w3 k s).test = s.test ∧ (configLane w1 w2 w3 k s).pins = s.pins ∧ (configLane w1 w2 w3 k s).bulk = s.bulk ∧ (configLane w1 w2 w3 k s).free = s.free ∧ (configLane w1 w2 w3 k s).pending = s.pending := by
  simp only [configLane]; (repeat' split) <;> simp
@[simp] theorem hostLaneConfig_keeps (rq : Req) (s : State) :
    (hostLaneConfig rq s).twi = s.twi ∧ (hostLaneConfig rq s).test = s.test ∧ (hostLaneConfig rq s).pins = s.pins ∧ (hostLaneConfig rq s).bulk = s.bulk ∧ (hostLaneConfig rq s).pending = s.pending := by
  simp only [hostLaneConfig]; (repeat' split) <;> simp
@[simp] theorem hostTrain_keeps (rq : Req) (s : State) :
    (hostTrain rq s).twi = s.twi ∧ (hostTrain rq s).test = s.test ∧ (hostTrain rq s).pins = s.pins ∧ (hostTrain rq s).bulk = s.bulk ∧ (hostTrain rq s).pending = s.pending := by
  refine ⟨?_, ?_, ?_, ?_, ?_⟩ <;> (simp only [hostTrain]; repeat' first | with_reducible rfl | (simp; done) | with_reducible refine (eachOf_twi _ _ _ ?_).trans ?_ | with_reducible refine (eachOf_test _ _ _ ?_).trans ?_ | with_reducible refine (eachOf_pins _ _ _ ?_).trans ?_ | with_reducible refine (eachOf_bulk _ _ _ ?_).trans ?_ | with_reducible refine (eachOf_pending _ _ _ ?_).trans ?_ | with_reducible refine (eachPort_twi _ _ ?_).trans ?_ | with_reducible refine (eachPort_test _ _ ?_).trans ?_ | with_reducible refine (eachPort_pins _ _ ?_).trans ?_ | with_reducible refine (eachPort_bulk _ _ ?_).trans ?_ | with_reducible refine (eachPort_pending _ _ ?_).trans ?_ | with_reducible refine (doIf_twi _ _ _ ?_).trans ?_ | with_reducible refine (doIf_test _ _ _ ?_).trans ?_ | with_reducible refine (doIf_pins _ _ _ ?_).trans ?_ | with_reducible refine (doIf_bulk _ _ _ ?_).trans ?_ | with_reducible refine (doIf_pending _ _ _ ?_).trans ?_ | with_reducible refine (command_twi _ _ _ _ _ _ ?_).trans ?_ | with_reducible refine (command_test _ _ _ _ _ _ ?_).trans ?_ | with_reducible refine (command_pins _ _ _ _ _ _ ?_).trans ?_ | with_reducible refine (command_bulk _ _ _ _ _ _ ?_).trans ?_ | with_reducible refine (command_pending _ _ _ _ _ _ ?_).trans ?_ | with_reducible refine (commandOk_twi _ _ _ _ _ _ ?_).trans ?_ | with_reducible refine (commandOk_test _ _ _ _ _ _ ?_).trans ?_ | with_reducible refine (commandOk_pins _ _ _ _ _ _ ?_).trans ?_ | with_reducible refine (commandOk_bulk _ _ _ _ _ _ ?_).trans ?_ | with_reducible refine (commandOk_pending _ _ _ _ _ _ ?_).trans ?_ | with_reducible refine (awaitReport_twi _ _ _ _ _ ?_).trans ?_ | with_reducible refine (awaitReport_test _ _ _ _ _ ?_).trans ?_ | with_reducible refine (awaitReport_pins _ _ _ _ _ ?_).trans ?_ | with_reducible refine (awaitReport_bulk _ _ _ _ _ ?_).trans ?_ | with_reducible refine (awaitReport_pending _ _ _ _ _ ?_).trans ?_ | with_reducible refine (report_twi _ _ _ _ _ _ ?_).trans ?_ | with_reducible refine (report_test _ _ _ _ _ _ ?_).trans ?_ | with_reducible refine (report_pins _ _ _ _ _ _ ?_).trans ?_ | with_reducible refine (report_bulk _ _ _ _ _ _ ?_).trans ?_ | with_reducible refine (report_pending _ _ _ _ _ _ ?_).trans ?_ | intro _ | split | simp)
@[simp] theorem trainEnds_keeps (k : HLane) (s : State) :
    (trainEnds k s).sys = s.sys ∧ (trainEnds k s).power = s.power ∧ (trainEnds k s).twi = s.twi ∧ (trainEnds k s).ports = s.ports ∧ (trainEnds k s).map = s.map ∧ (trainEnds k s).dial = s.dial ∧ (trainEnds k s).mon = s.mon ∧ (trainEnds k s).faults = s.faults ∧ (trainEnds k s).test = s.test ∧ (trainEnds k s).pins = s.pins ∧ (trainEnds k s).bulk = s.bulk ∧ (trainEnds k s).free = s.free ∧ (trainEnds k s).pending = s.pending := by
  simp only [trainEnds]; (repeat' split) <;> simp
@[simp] theorem hostTrainingFrame_keeps (k : HLane) (r : TrainReq) (ans : TrainAns) (ready : Bool) (s : State) :
    (hostTrainingFrame k r ans ready s).sys = s.sys ∧ (hostTrainingFrame k r ans ready s).power = s.power ∧ (hostTrainingFrame k r ans ready s).twi = s.twi ∧ (hostTrainingFrame k r ans ready s).ports = s.ports ∧ (hostTrainingFrame k r ans ready s).map = s.map ∧ (hostTrainingFrame k r ans ready s).dial = s.dial ∧ (hostTrainingFrame k r ans ready s).mon = s.mon ∧ (hostTrainingFrame k r ans ready s).faults = s.faults ∧ (hostTrainingFrame k r ans ready s).test = s.test ∧ (hostTrainingFrame k r ans ready s).pins = s.pins ∧ (hostTrainingFrame k r ans ready s).bulk = s.bulk ∧ (hostTrainingFrame k r ans ready s).pending = s.pending := by
  simp only [hostTrainingFrame]; (repeat' split) <;> simp
@[simp] theorem hostReceiverReady_keeps (k : HLane) (s : State) :
    (hostReceiverReady k s).sys = s.sys ∧ (hostReceiverReady k s).power = s.power ∧ (hostReceiverReady k s).twi = s.twi ∧ (hostReceiverReady k s).ports = s.ports ∧ (hostReceiverReady k s).map = s.map ∧ (hostReceiverReady k s).dial = s.dial ∧ (hostReceiverReady k s).mon = s.mon ∧ (hostReceiverReady k s).faults = s.faults ∧ (hostReceiverReady k s).test = s.test ∧ (hostReceiverReady k s).pins = s.pins ∧ (hostReceiverReady k s).bulk = s.bulk ∧ (hostReceiverReady k s).free = s.free ∧ (hostReceiverReady k s).pending = s.pending := by
  simp only [hostReceiverReady]; (repeat' split) <;> simp
@[simp] theorem hostTrainFail_keeps (k : HLane) (s : State) :
    (hostTrainFail k s).sys = s.sys ∧ (hostTrainFail k s).power = s.power ∧ (hostTrainFail k s).twi = s.twi ∧ (hostTrainFail k s).ports = s.ports ∧ (hostTrainFail k s).map = s.map ∧ (hostTrainFail k s).dial = s.dial ∧ (hostTrainFail k s).mon = s.mon ∧ (hostTrainFail k s).faults = s.faults ∧ (hostTrainFail k s).test = s.test ∧ (hostTrainFail k s).pins = s.pins ∧ (hostTrainFail k s).bulk = s.bulk ∧ (hostTrainFail k s).free = s.free ∧ (hostTrainFail k s).pending = s.pending := by
  simp only [hostTrainFail]; (repeat' split) <;> simp
@[simp] theorem hostTrainRetry_keeps (k : HLane) (s : State) :
    (hostTrainRetry k s).sys = s.sys ∧ (hostTrainRetry k s).power = s.power ∧ (hostTrainRetry k s).mbx = s.mbx ∧ (hostTrainRetry k s).twi = s.twi ∧ (hostTrainRetry k s).ports = s.ports ∧ (hostTrainRetry k s).pool = s.pool ∧ (hostTrainRetry k s).map = s.map ∧ (hostTrainRetry k s).dial = s.dial ∧ (hostTrainRetry k s).mon = s.mon ∧ (hostTrainRetry k s).alarms = s.alarms ∧ (hostTrainRetry k s).faults = s.faults ∧ (hostTrainRetry k s).jrx = s.jrx ∧ (hostTrainRetry k s).test = s.test ∧ (hostTrainRetry k s).pins = s.pins ∧ (hostTrainRetry k s).bulk = s.bulk ∧ (hostTrainRetry k s).free = s.free ∧ (hostTrainRetry k s).pending = s.pending := by
  simp only [hostTrainRetry]; (repeat' split) <;> simp
@[simp] theorem hostLos_keeps (k : HLane) (s : State) :
    (hostLos k s).sys = s.sys ∧ (hostLos k s).power = s.power ∧ (hostLos k s).twi = s.twi ∧ (hostLos k s).ports = s.ports ∧ (hostLos k s).map = s.map ∧ (hostLos k s).dial = s.dial ∧ (hostLos k s).mon = s.mon ∧ (hostLos k s).faults = s.faults ∧ (hostLos k s).test = s.test ∧ (hostLos k s).pins = s.pins ∧ (hostLos k s).bulk = s.bulk ∧ (hostLos k s).free = s.free ∧ (hostLos k s).pending = s.pending := by
  simp only [hostLos]; (repeat' split) <;> simp
@[simp] theorem hostLosClear_keeps (k : HLane) (s : State) :
    (hostLosClear k s).sys = s.sys ∧ (hostLosClear k s).twi = s.twi ∧ (hostLosClear k s).map = s.map ∧ (hostLosClear k s).dial = s.dial ∧ (hostLosClear k s).mon = s.mon ∧ (hostLosClear k s).faults = s.faults ∧ (hostLosClear k s).test = s.test ∧ (hostLosClear k s).pins = s.pins ∧ (hostLosClear k s).bulk = s.bulk ∧ (hostLosClear k s).free = s.free ∧ (hostLosClear k s).pending = s.pending := by
  simp only [hostLosClear]; (repeat' split) <;> simp
@[simp] theorem hostAlign_keeps (k : HLane) (aligned : Bool) (s : State) :
    (hostAlign k aligned s).sys = s.sys ∧ (hostAlign k aligned s).power = s.power ∧ (hostAlign k aligned s).twi = s.twi ∧ (hostAlign k aligned s).ports = s.ports ∧ (hostAlign k aligned s).lanes = s.lanes ∧ (hostAlign k aligned s).dial = s.dial ∧ (hostAlign k aligned s).mon = s.mon ∧ (hostAlign k aligned s).faults = s.faults ∧ (hostAlign k aligned s).test = s.test ∧ (hostAlign k aligned s).pins = s.pins ∧ (hostAlign k aligned s).bulk = s.bulk ∧ (hostAlign k aligned s).free = s.free ∧ (hostAlign k aligned s).pending = s.pending := by
  simp only [hostAlign]; (repeat' split) <;> simp
@[simp] theorem egressBufferStart_keeps (k : HLane) (s : State) :
    (egressBufferStart k s).sys = s.sys ∧ (egressBufferStart k s).power = s.power ∧ (egressBufferStart k s).mbx = s.mbx ∧ (egressBufferStart k s).twi = s.twi ∧ (egressBufferStart k s).ports = s.ports ∧ (egressBufferStart k s).pool = s.pool ∧ (egressBufferStart k s).lanes = s.lanes ∧ (egressBufferStart k s).dial = s.dial ∧ (egressBufferStart k s).mon = s.mon ∧ (egressBufferStart k s).alarms = s.alarms ∧ (egressBufferStart k s).faults = s.faults ∧ (egressBufferStart k s).jrx = s.jrx ∧ (egressBufferStart k s).test = s.test ∧ (egressBufferStart k s).pins = s.pins ∧ (egressBufferStart k s).bulk = s.bulk ∧ (egressBufferStart k s).free = s.free ∧ (egressBufferStart k s).pending = s.pending := by
  simp only [egressBufferStart]; (repeat' split) <;> simp
@[simp] theorem egressSlip_keeps (k : HLane) (s : State) :
    (egressSlip k s).sys = s.sys ∧ (egressSlip k s).power = s.power ∧ (egressSlip k s).mbx = s.mbx ∧ (egressSlip k s).twi = s.twi ∧ (egressSlip k s).ports = s.ports ∧ (egressSlip k s).pool = s.pool ∧ (egressSlip k s).lanes = s.lanes ∧ (egressSlip k s).dial = s.dial ∧ (egressSlip k s).mon = s.mon ∧ (egressSlip k s).alarms = s.alarms ∧ (egressSlip k s).faults = s.faults ∧ (egressSlip k s).jrx = s.jrx ∧ (egressSlip k s).test = s.test ∧ (egressSlip k s).pins = s.pins ∧ (egressSlip k s).bulk = s.bulk ∧ (egressSlip k s).free = s.free ∧ (egressSlip k s).pending = s.pending := by
  simp only [egressSlip]; (repeat' split) <;> simp
@[simp] theorem prbsSet_keeps (rq : Req) (s : State) :
    (prbsSet rq s).twi = s.twi ∧ (prbsSet rq s).test = s.test ∧ (prbsSet rq s).pins = s.pins ∧ (prbsSet rq s).bulk = s.bulk ∧ (prbsSet rq s).pending = s.pending := by
  refine ⟨?_, ?_, ?_, ?_, ?_⟩ <;> (simp only [prbsSet]; repeat' first | with_reducible rfl | (simp; done) | with_reducible refine (eachOf_twi _ _ _ ?_).trans ?_ | with_reducible refine (eachOf_test _ _ _ ?_).trans ?_ | with_reducible refine (eachOf_pins _ _ _ ?_).trans ?_ | with_reducible refine (eachOf_bulk _ _ _ ?_).trans ?_ | with_reducible refine (eachOf_pending _ _ _ ?_).trans ?_ | with_reducible refine (eachPort_twi _ _ ?_).trans ?_ | with_reducible refine (eachPort_test _ _ ?_).trans ?_ | with_reducible refine (eachPort_pins _ _ ?_).trans ?_ | with_reducible refine (eachPort_bulk _ _ ?_).trans ?_ | with_reducible refine (eachPort_pending _ _ ?_).trans ?_ | with_reducible refine (doIf_twi _ _ _ ?_).trans ?_ | with_reducible refine (doIf_test _ _ _ ?_).trans ?_ | with_reducible refine (doIf_pins _ _ _ ?_).trans ?_ | with_reducible refine (doIf_bulk _ _ _ ?_).trans ?_ | with_reducible refine (doIf_pending _ _ _ ?_).trans ?_ | with_reducible refine (command_twi _ _ _ _ _ _ ?_).trans ?_ | with_reducible refine (command_test _ _ _ _ _ _ ?_).trans ?_ | with_reducible refine (command_pins _ _ _ _ _ _ ?_).trans ?_ | with_reducible refine (command_bulk _ _ _ _ _ _ ?_).trans ?_ | with_reducible refine (command_pending _ _ _ _ _ _ ?_).trans ?_ | with_reducible refine (commandOk_twi _ _ _ _ _ _ ?_).trans ?_ | with_reducible refine (commandOk_test _ _ _ _ _ _ ?_).trans ?_ | with_reducible refine (commandOk_pins _ _ _ _ _ _ ?_).trans ?_ | with_reducible refine (commandOk_bulk _ _ _ _ _ _ ?_).trans ?_ | with_reducible refine (commandOk_pending _ _ _ _ _ _ ?_).trans ?_ | with_reducible refine (awaitReport_twi _ _ _ _ _ ?_).trans ?_ | with_reducible refine (awaitReport_test _ _ _ _ _ ?_).trans ?_ | with_reducible refine (awaitReport_pins _ _ _ _ _ ?_).trans ?_ | with_reducible refine (awaitReport_bulk _ _ _ _ _ ?_).trans ?_ | with_reducible refine (awaitReport_pending _ _ _ _ _ ?_).trans ?_ | with_reducible refine (report_twi _ _ _ _ _ _ ?_).trans ?_ | with_reducible refine (report_test _ _ _ _ _ _ ?_).trans ?_ | with_reducible refine (report_pins _ _ _ _ _ _ ?_).trans ?_ | with_reducible refine (report_bulk _ _ _ _ _ _ ?_).trans ?_ | with_reducible refine (report_pending _ _ _ _ _ _ ?_).trans ?_ | intro _ | split | simp)
@[simp] theorem prbsLock_keeps (k : HLane) (locked : Bool) (s : State) :
    (prbsLock k locked s).sys = s.sys ∧ (prbsLock k locked s).power = s.power ∧ (prbsLock k locked s).mbx = s.mbx ∧ (prbsLock k locked s).twi = s.twi ∧ (prbsLock k locked s).ports = s.ports ∧ (prbsLock k locked s).pool = s.pool ∧ (prbsLock k locked s).map = s.map ∧ (prbsLock k locked s).dial = s.dial ∧ (prbsLock k locked s).mon = s.mon ∧ (prbsLock k locked s).alarms = s.alarms ∧ (prbsLock k locked s).faults = s.faults ∧ (prbsLock k locked s).jrx = s.jrx ∧ (prbsLock k locked s).test = s.test ∧ (prbsLock k locked s).pins = s.pins ∧ (prbsLock k locked s).bulk = s.bulk ∧ (prbsLock k locked s).pending = s.pending := by
  simp only [prbsLock]; (repeat' split) <;> simp
@[simp] theorem hostStatusAnswer_keeps (rq : Req) (s : State) :
    (hostStatusAnswer rq s).power = s.power ∧ (hostStatusAnswer rq s).twi = s.twi ∧ (hostStatusAnswer rq s).ports = s.ports ∧ (hostStatusAnswer rq s).pool = s.pool ∧ (hostStatusAnswer rq s).lanes = s.lanes ∧ (hostStatusAnswer rq s).map = s.map ∧ (hostStatusAnswer rq s).mon = s.mon ∧ (hostStatusAnswer rq s).alarms = s.alarms ∧ (hostStatusAnswer rq s).faults = s.faults ∧ (hostStatusAnswer rq s).test = s.test ∧ (hostStatusAnswer rq s).pins = s.pins ∧ (hostStatusAnswer rq s).bulk = s.bulk ∧ (hostStatusAnswer rq s).pending = s.pending := by
  simp only [hostStatusAnswer]; (repeat' split) <;> simp
@[simp] theorem hostStatus_keeps (rq : Req) (s : State) :
    (hostStatus rq s).twi = s.twi ∧ (hostStatus rq s).test = s.test ∧ (hostStatus rq s).pins = s.pins ∧ (hostStatus rq s).bulk = s.bulk ∧ (hostStatus rq s).pending = s.pending := by
  simp only [hostStatus]; (repeat' split) <;> simp
@[simp] theorem hostPmAnswer_keeps (rq : Req) (s : State) :
    (hostPmAnswer rq s).power = s.power ∧ (hostPmAnswer rq s).twi = s.twi ∧ (hostPmAnswer rq s).ports = s.ports ∧ (hostPmAnswer rq s).pool = s.pool ∧ (hostPmAnswer rq s).map = s.map ∧ (hostPmAnswer rq s).mon = s.mon ∧ (hostPmAnswer rq s).alarms = s.alarms ∧ (hostPmAnswer rq s).faults = s.faults ∧ (hostPmAnswer rq s).test = s.test ∧ (hostPmAnswer rq s).pins = s.pins ∧ (hostPmAnswer rq s).pending = s.pending := by
  simp only [hostPmAnswer]; (repeat' split) <;> simp
@[simp] theorem hostPmRead_keeps (rq : Req) (s : State) :
    (hostPmRead rq s).twi = s.twi ∧ (hostPmRead rq s).test = s.test ∧ (hostPmRead rq s).pins = s.pins ∧ (hostPmRead rq s).pending = s.pending := by
  simp only [hostPmRead]; (repeat' split) <;> simp

@[simp] theorem eccCount_keeps (r : EccRead) (s : State) :
    (eccCount r s).sys = s.sys ∧ (eccCount r s).power = s.power ∧ (eccCount r s).mbx = s.mbx ∧ (eccCount r s).twi = s.twi ∧ (eccCount r s).ports = s.ports ∧ (eccCount r s).lanes = s.lanes ∧ (eccCount r s).map = s.map ∧ (eccCount r s).dial = s.dial ∧ (eccCount r s).mon = s.mon ∧ (eccCount r s).alarms = s.alarms ∧ (eccCount r s).faults = s.faults ∧ (eccCount r s).jrx = s.jrx ∧ (eccCount r s).test = s.test ∧ (eccCount r s).pins = s.pins ∧ (eccCount r s).bulk = s.bulk ∧ (eccCount r s).pending = s.pending := by
  simp only [eccCount]; (repeat' split) <;> simp
@[simp] theorem modOpen_keeps (p : LPort) (id : Nat) (f : OpenSf → OpenSf) (s : State) :
    (modOpen p id f s).sys = s.sys ∧ (modOpen p id f s).power = s.power ∧ (modOpen p id f s).mbx = s.mbx ∧ (modOpen p id f s).twi = s.twi ∧ (modOpen p id f s).ports = s.ports ∧ (modOpen p id f s).lanes = s.lanes ∧ (modOpen p id f s).map = s.map ∧ (modOpen p id f s).dial = s.dial ∧ (modOpen p id f s).mon = s.mon ∧ (modOpen p id f s).alarms = s.alarms ∧ (modOpen p id f s).faults = s.faults ∧ (modOpen p id f s).jrx = s.jrx ∧ (modOpen p id f s).test = s.test ∧ (modOpen p id f s).pins = s.pins ∧ (modOpen p id f s).bulk = s.bulk ∧ (modOpen p id f s).free = s.free ∧ (modOpen p id f s).pending = s.pending := by
  simp only [modOpen]; (repeat' split) <;> simp
@[simp] theorem poolWord_keeps (e : Option (Fin 64)) (n : Nat) (s : State) :
    (poolWord e n s).sys = s.sys ∧ (poolWord e n s).power = s.power ∧ (poolWord e n s).twi = s.twi ∧ (poolWord e n s).ports = s.ports ∧ (poolWord e n s).lanes = s.lanes ∧ (poolWord e n s).map = s.map ∧ (poolWord e n s).dial = s.dial ∧ (poolWord e n s).mon = s.mon ∧ (poolWord e n s).faults = s.faults ∧ (poolWord e n s).test = s.test ∧ (poolWord e n s).pins = s.pins ∧ (poolWord e n s).bulk = s.bulk ∧ (poolWord e n s).pending = s.pending := by
  simp only [poolWord]; (repeat' split) <;> simp
@[simp] theorem softWord_keeps (p : LPort) (sf : Nat) (l : List Nat) (n : Nat) (s : State) :
    (softWord p sf l n s).sys = s.sys ∧ (softWord p sf l n s).power = s.power ∧ (softWord p sf l n s).mbx = s.mbx ∧ (softWord p sf l n s).twi = s.twi ∧ (softWord p sf l n s).ports = s.ports ∧ (softWord p sf l n s).lanes = s.lanes ∧ (softWord p sf l n s).map = s.map ∧ (softWord p sf l n s).dial = s.dial ∧ (softWord p sf l n s).mon = s.mon ∧ (softWord p sf l n s).alarms = s.alarms ∧ (softWord p sf l n s).faults = s.faults ∧ (softWord p sf l n s).jrx = s.jrx ∧ (softWord p sf l n s).test = s.test ∧ (softWord p sf l n s).pins = s.pins ∧ (softWord p sf l n s).bulk = s.bulk ∧ (softWord p sf l n s).pending = s.pending := by
  simp only [softWord]; (repeat' split) <;> simp
@[simp] theorem unitWord_keeps (u : FUnit) (code : BitVec 8) (detail : BitVec 16) (n : Nat) (s : State) :
    (unitWord u code detail n s).pending = s.pending := by
  simp only [unitWord]; (repeat' split) <;> simp
@[simp] theorem bankWord_keeps (k : Fin 32) (n : Nat) (s : State) :
    (bankWord k n s).pending = s.pending := by
  simp only [bankWord]; (repeat' split) <;> simp
@[simp] theorem readWord_keeps (m : BadMem) (n : Nat) (s : State) :
    (readWord m n s).pending = s.pending := by
  simp only [readWord]; (repeat' split) <;> simp
@[simp] theorem scrubRow_keeps (f : BadMem × Nat) (s : State) :
    (scrubRow f s).pending = s.pending := by
  simp only [scrubRow]; (repeat' split) <;> simp
@[simp] theorem scrubBank_keeps (f : Fin 32 × Nat) (s : State) :
    (scrubBank f s).pending = s.pending := by
  simp only [scrubBank]; (repeat' split) <;> simp
@[simp] theorem scrubPass_keeps (found : List (BadMem × Nat)) (banks : List (Fin 32 × Nat)) (s : State) :
    (scrubPass found banks s).pending = s.pending := by
  simp only [scrubPass]; (repeat' split) <;> simp
@[simp] theorem settleCw_keeps (p : LPort) (id : Nat) (r : Nat × Nat × DecodeObs) (s : State) :
    (settleCw p id r s).sys = s.sys ∧ (settleCw p id r s).power = s.power ∧ (settleCw p id r s).mbx = s.mbx ∧ (settleCw p id r s).twi = s.twi ∧ (settleCw p id r s).ports = s.ports ∧ (settleCw p id r s).lanes = s.lanes ∧ (settleCw p id r s).map = s.map ∧ (settleCw p id r s).dial = s.dial ∧ (settleCw p id r s).mon = s.mon ∧ (settleCw p id r s).alarms = s.alarms ∧ (settleCw p id r s).faults = s.faults ∧ (settleCw p id r s).jrx = s.jrx ∧ (settleCw p id r s).test = s.test ∧ (settleCw p id r s).pins = s.pins ∧ (settleCw p id r s).bulk = s.bulk ∧ (settleCw p id r s).free = s.free ∧ (settleCw p id r s).pending = s.pending := by
  simp only [settleCw]; (repeat' split) <;> simp
@[simp] theorem closeCw_keeps (p : LPort) (id k : Nat) (s : State) :
    (closeCw p id k s).sys = s.sys ∧ (closeCw p id k s).power = s.power ∧ (closeCw p id k s).mbx = s.mbx ∧ (closeCw p id k s).twi = s.twi ∧ (closeCw p id k s).ports = s.ports ∧ (closeCw p id k s).lanes = s.lanes ∧ (closeCw p id k s).map = s.map ∧ (closeCw p id k s).dial = s.dial ∧ (closeCw p id k s).mon = s.mon ∧ (closeCw p id k s).alarms = s.alarms ∧ (closeCw p id k s).faults = s.faults ∧ (closeCw p id k s).jrx = s.jrx ∧ (closeCw p id k s).test = s.test ∧ (closeCw p id k s).pins = s.pins ∧ (closeCw p id k s).bulk = s.bulk ∧ (closeCw p id k s).free = s.free ∧ (closeCw p id k s).pending = s.pending := by
  simp only [closeCw]; (repeat' split) <;> simp
@[simp] theorem finishSf_keeps (p : LPort) (id : Nat) (s : State) :
    (finishSf p id s).sys = s.sys ∧ (finishSf p id s).power = s.power ∧ (finishSf p id s).mbx = s.mbx ∧ (finishSf p id s).twi = s.twi ∧ (finishSf p id s).ports = s.ports ∧ (finishSf p id s).lanes = s.lanes ∧ (finishSf p id s).map = s.map ∧ (finishSf p id s).dial = s.dial ∧ (finishSf p id s).mon = s.mon ∧ (finishSf p id s).alarms = s.alarms ∧ (finishSf p id s).faults = s.faults ∧ (finishSf p id s).jrx = s.jrx ∧ (finishSf p id s).test = s.test ∧ (finishSf p id s).pins = s.pins ∧ (finishSf p id s).bulk = s.bulk ∧ (finishSf p id s).free = s.free ∧ (finishSf p id s).pending = s.pending := by
  simp only [finishSf]; (repeat' split) <;> simp
@[simp] theorem closeSf_keeps (p : LPort) (id unsatisfied : Nat) (s : State) :
    (closeSf p id unsatisfied s).sys = s.sys ∧ (closeSf p id unsatisfied s).power = s.power ∧ (closeSf p id unsatisfied s).mbx = s.mbx ∧ (closeSf p id unsatisfied s).twi = s.twi ∧ (closeSf p id unsatisfied s).ports = s.ports ∧ (closeSf p id unsatisfied s).lanes = s.lanes ∧ (closeSf p id unsatisfied s).map = s.map ∧ (closeSf p id unsatisfied s).dial = s.dial ∧ (closeSf p id unsatisfied s).mon = s.mon ∧ (closeSf p id unsatisfied s).alarms = s.alarms ∧ (closeSf p id unsatisfied s).faults = s.faults ∧ (closeSf p id unsatisfied s).jrx = s.jrx ∧ (closeSf p id unsatisfied s).test = s.test ∧ (closeSf p id unsatisfied s).pins = s.pins ∧ (closeSf p id unsatisfied s).bulk = s.bulk ∧ (closeSf p id unsatisfied s).pending = s.pending := by
  refine ⟨?_, ?_, ?_, ?_, ?_, ?_, ?_, ?_, ?_, ?_, ?_, ?_, ?_, ?_, ?_, ?_⟩ <;> (simp only [closeSf]; repeat' first | with_reducible rfl | (simp; done) | with_reducible refine (eachOf_sys _ _ _ ?_).trans ?_ | with_reducible refine (eachOf_power _ _ _ ?_).trans ?_ | with_reducible refine (eachOf_mbx _ _ _ ?_).trans ?_ | with_reducible refine (eachOf_twi _ _ _ ?_).trans ?_ | with_reducible refine (eachOf_ports _ _ _ ?_).trans ?_ | with_reducible refine (eachOf_lanes _ _ _ ?_).trans ?_ | with_reducible refine (eachOf_map _ _ _ ?_).trans ?_ | with_reducible refine (eachOf_dial _ _ _ ?_).trans ?_ | with_reducible refine (eachOf_mon _ _ _ ?_).trans ?_ | with_reducible refine (eachOf_alarms _ _ _ ?_).trans ?_ | with_reducible refine (eachOf_faults _ _ _ ?_).trans ?_ | with_reducible refine (eachOf_jrx _ _ _ ?_).trans ?_ | with_reducible refine (eachOf_test _ _ _ ?_).trans ?_ | with_reducible refine (eachOf_pins _ _ _ ?_).trans ?_ | with_reducible refine (eachOf_bulk _ _ _ ?_).trans ?_ | with_reducible refine (eachOf_pending _ _ _ ?_).trans ?_ | with_reducible refine (eachPort_sys _ _ ?_).trans ?_ | with_reducible refine (eachPort_power _ _ ?_).trans ?_ | with_reducible refine (eachPort_mbx _ _ ?_).trans ?_ | with_reducible refine (eachPort_twi _ _ ?_).trans ?_ | with_reducible refine (eachPort_ports _ _ ?_).trans ?_ | with_reducible refine (eachPort_lanes _ _ ?_).trans ?_ | with_reducible refine (eachPort_map _ _ ?_).trans ?_ | with_reducible refine (eachPort_dial _ _ ?_).trans ?_ | with_reducible refine (eachPort_mon _ _ ?_).trans ?_ | with_reducible refine (eachPort_alarms _ _ ?_).trans ?_ | with_reducible refine (eachPort_faults _ _ ?_).trans ?_ | with_reducible refine (eachPort_jrx _ _ ?_).trans ?_ | with_reducible refine (eachPort_test _ _ ?_).trans ?_ | with_reducible refine (eachPort_pins _ _ ?_).trans ?_ | with_reducible refine (eachPort_bulk _ _ ?_).trans ?_ | with_reducible refine (eachPort_pending _ _ ?_).trans ?_ | with_reducible refine (doIf_sys _ _ _ ?_).trans ?_ | with_reducible refine (doIf_power _ _ _ ?_).trans ?_ | with_reducible refine (doIf_mbx _ _ _ ?_).trans ?_ | with_reducible refine (doIf_twi _ _ _ ?_).trans ?_ | with_reducible refine (doIf_ports _ _ _ ?_).trans ?_ | with_reducible refine (doIf_lanes _ _ _ ?_).trans ?_ | with_reducible refine (doIf_map _ _ _ ?_).trans ?_ | with_reducible refine (doIf_dial _ _ _ ?_).trans ?_ | with_reducible refine (doIf_mon _ _ _ ?_).trans ?_ | with_reducible refine (doIf_alarms _ _ _ ?_).trans ?_ | with_reducible refine (doIf_faults _ _ _ ?_).trans ?_ | with_reducible refine (doIf_jrx _ _ _ ?_).trans ?_ | with_reducible refine (doIf_test _ _ _ ?_).trans ?_ | with_reducible refine (doIf_pins _ _ _ ?_).trans ?_ | with_reducible refine (doIf_bulk _ _ _ ?_).trans ?_ | with_reducible refine (doIf_pending _ _ _ ?_).trans ?_ | with_reducible refine (command_twi _ _ _ _ _ _ ?_).trans ?_ | with_reducible refine (command_test _ _ _ _ _ _ ?_).trans ?_ | with_reducible refine (command_pins _ _ _ _ _ _ ?_).trans ?_ | with_reducible refine (command_bulk _ _ _ _ _ _ ?_).trans ?_ | with_reducible refine (command_pending _ _ _ _ _ _ ?_).trans ?_ | with_reducible refine (commandOk_twi _ _ _ _ _ _ ?_).trans ?_ | with_reducible refine (commandOk_test _ _ _ _ _ _ ?_).trans ?_ | with_reducible refine (commandOk_pins _ _ _ _ _ _ ?_).trans ?_ | with_reducible refine (commandOk_bulk _ _ _ _ _ _ ?_).trans ?_ | with_reducible refine (commandOk_pending _ _ _ _ _ _ ?_).trans ?_ | with_reducible refine (awaitReport_power _ _ _ _ _ ?_).trans ?_ | with_reducible refine (awaitReport_twi _ _ _ _ _ ?_).trans ?_ | with_reducible refine (awaitReport_ports _ _ _ _ _ ?_).trans ?_ | with_reducible refine (awaitReport_lanes _ _ _ _ _ ?_).trans ?_ | with_reducible refine (awaitReport_map _ _ _ _ _ ?_).trans ?_ | with_reducible refine (awaitReport_dial _ _ _ _ _ ?_).trans ?_ | with_reducible refine (awaitReport_mon _ _ _ _ _ ?_).trans ?_ | with_reducible refine (awaitReport_alarms _ _ _ _ _ ?_).trans ?_ | with_reducible refine (awaitReport_faults _ _ _ _ _ ?_).trans ?_ | with_reducible refine (awaitReport_jrx _ _ _ _ _ ?_).trans ?_ | with_reducible refine (awaitReport_test _ _ _ _ _ ?_).trans ?_ | with_reducible refine (awaitReport_pins _ _ _ _ _ ?_).trans ?_ | with_reducible refine (awaitReport_bulk _ _ _ _ _ ?_).trans ?_ | with_reducible refine (awaitReport_pending _ _ _ _ _ ?_).trans ?_ | with_reducible refine (report_twi _ _ _ _ _ _ ?_).trans ?_ | with_reducible refine (report_test _ _ _ _ _ _ ?_).trans ?_ | with_reducible refine (report_pins _ _ _ _ _ _ ?_).trans ?_ | with_reducible refine (report_bulk _ _ _ _ _ _ ?_).trans ?_ | with_reducible refine (report_pending _ _ _ _ _ _ ?_).trans ?_ | intro _ | split | simp)
@[simp] theorem freeSlots_sys (p : LPort) (need fuel : Nat) (s : State) :
    (freeSlots p need fuel s).sys = s.sys := by
  induction fuel generalizing s with
  | zero => rfl
  | succ n ih => simp only [freeSlots]; (repeat' split) <;> simp [ih]
@[simp] theorem freeSlots_power (p : LPort) (need fuel : Nat) (s : State) :
    (freeSlots p need fuel s).power = s.power := by
  induction fuel generalizing s with
  | zero => rfl
  | succ n ih => simp only [freeSlots]; (repeat' split) <;> simp [ih]
@[simp] theorem freeSlots_mbx (p : LPort) (need fuel : Nat) (s : State) :
    (freeSlots p need fuel s).mbx = s.mbx := by
  induction fuel generalizing s with
  | zero => rfl
  | succ n ih => simp only [freeSlots]; (repeat' split) <;> simp [ih]
@[simp] theorem freeSlots_twi (p : LPort) (need fuel : Nat) (s : State) :
    (freeSlots p need fuel s).twi = s.twi := by
  induction fuel generalizing s with
  | zero => rfl
  | succ n ih => simp only [freeSlots]; (repeat' split) <;> simp [ih]
@[simp] theorem freeSlots_ports (p : LPort) (need fuel : Nat) (s : State) :
    (freeSlots p need fuel s).ports = s.ports := by
  induction fuel generalizing s with
  | zero => rfl
  | succ n ih => simp only [freeSlots]; (repeat' split) <;> simp [ih]
@[simp] theorem freeSlots_lanes (p : LPort) (need fuel : Nat) (s : State) :
    (freeSlots p need fuel s).lanes = s.lanes := by
  induction fuel generalizing s with
  | zero => rfl
  | succ n ih => simp only [freeSlots]; (repeat' split) <;> simp [ih]
@[simp] theorem freeSlots_map (p : LPort) (need fuel : Nat) (s : State) :
    (freeSlots p need fuel s).map = s.map := by
  induction fuel generalizing s with
  | zero => rfl
  | succ n ih => simp only [freeSlots]; (repeat' split) <;> simp [ih]
@[simp] theorem freeSlots_dial (p : LPort) (need fuel : Nat) (s : State) :
    (freeSlots p need fuel s).dial = s.dial := by
  induction fuel generalizing s with
  | zero => rfl
  | succ n ih => simp only [freeSlots]; (repeat' split) <;> simp [ih]
@[simp] theorem freeSlots_mon (p : LPort) (need fuel : Nat) (s : State) :
    (freeSlots p need fuel s).mon = s.mon := by
  induction fuel generalizing s with
  | zero => rfl
  | succ n ih => simp only [freeSlots]; (repeat' split) <;> simp [ih]
@[simp] theorem freeSlots_alarms (p : LPort) (need fuel : Nat) (s : State) :
    (freeSlots p need fuel s).alarms = s.alarms := by
  induction fuel generalizing s with
  | zero => rfl
  | succ n ih => simp only [freeSlots]; (repeat' split) <;> simp [ih]
@[simp] theorem freeSlots_faults (p : LPort) (need fuel : Nat) (s : State) :
    (freeSlots p need fuel s).faults = s.faults := by
  induction fuel generalizing s with
  | zero => rfl
  | succ n ih => simp only [freeSlots]; (repeat' split) <;> simp [ih]
@[simp] theorem freeSlots_jrx (p : LPort) (need fuel : Nat) (s : State) :
    (freeSlots p need fuel s).jrx = s.jrx := by
  induction fuel generalizing s with
  | zero => rfl
  | succ n ih => simp only [freeSlots]; (repeat' split) <;> simp [ih]
@[simp] theorem freeSlots_test (p : LPort) (need fuel : Nat) (s : State) :
    (freeSlots p need fuel s).test = s.test := by
  induction fuel generalizing s with
  | zero => rfl
  | succ n ih => simp only [freeSlots]; (repeat' split) <;> simp [ih]
@[simp] theorem freeSlots_pins (p : LPort) (need fuel : Nat) (s : State) :
    (freeSlots p need fuel s).pins = s.pins := by
  induction fuel generalizing s with
  | zero => rfl
  | succ n ih => simp only [freeSlots]; (repeat' split) <;> simp [ih]
@[simp] theorem freeSlots_bulk (p : LPort) (need fuel : Nat) (s : State) :
    (freeSlots p need fuel s).bulk = s.bulk := by
  induction fuel generalizing s with
  | zero => rfl
  | succ n ih => simp only [freeSlots]; (repeat' split) <;> simp [ih]
@[simp] theorem freeSlots_pending (p : LPort) (need fuel : Nat) (s : State) :
    (freeSlots p need fuel s).pending = s.pending := by
  induction fuel generalizing s with
  | zero => rfl
  | succ n ih => simp only [freeSlots]; (repeat' split) <;> simp [ih]
@[simp] theorem openSf_keeps (p : LPort) (obs : RxObs) (s : State) :
    (openSf p obs s).sys = s.sys ∧ (openSf p obs s).power = s.power ∧ (openSf p obs s).mbx = s.mbx ∧ (openSf p obs s).twi = s.twi ∧ (openSf p obs s).ports = s.ports ∧ (openSf p obs s).lanes = s.lanes ∧ (openSf p obs s).map = s.map ∧ (openSf p obs s).dial = s.dial ∧ (openSf p obs s).mon = s.mon ∧ (openSf p obs s).alarms = s.alarms ∧ (openSf p obs s).faults = s.faults ∧ (openSf p obs s).jrx = s.jrx ∧ (openSf p obs s).test = s.test ∧ (openSf p obs s).pins = s.pins ∧ (openSf p obs s).bulk = s.bulk ∧ (openSf p obs s).pending = s.pending := by
  refine ⟨?_, ?_, ?_, ?_, ?_, ?_, ?_, ?_, ?_, ?_, ?_, ?_, ?_, ?_, ?_, ?_⟩ <;> (simp only [openSf]; repeat' first | with_reducible rfl | (simp; done) | with_reducible refine (eachOf_sys _ _ _ ?_).trans ?_ | with_reducible refine (eachOf_power _ _ _ ?_).trans ?_ | with_reducible refine (eachOf_mbx _ _ _ ?_).trans ?_ | with_reducible refine (eachOf_twi _ _ _ ?_).trans ?_ | with_reducible refine (eachOf_ports _ _ _ ?_).trans ?_ | with_reducible refine (eachOf_lanes _ _ _ ?_).trans ?_ | with_reducible refine (eachOf_map _ _ _ ?_).trans ?_ | with_reducible refine (eachOf_dial _ _ _ ?_).trans ?_ | with_reducible refine (eachOf_mon _ _ _ ?_).trans ?_ | with_reducible refine (eachOf_alarms _ _ _ ?_).trans ?_ | with_reducible refine (eachOf_faults _ _ _ ?_).trans ?_ | with_reducible refine (eachOf_jrx _ _ _ ?_).trans ?_ | with_reducible refine (eachOf_test _ _ _ ?_).trans ?_ | with_reducible refine (eachOf_pins _ _ _ ?_).trans ?_ | with_reducible refine (eachOf_bulk _ _ _ ?_).trans ?_ | with_reducible refine (eachOf_pending _ _ _ ?_).trans ?_ | with_reducible refine (eachPort_sys _ _ ?_).trans ?_ | with_reducible refine (eachPort_power _ _ ?_).trans ?_ | with_reducible refine (eachPort_mbx _ _ ?_).trans ?_ | with_reducible refine (eachPort_twi _ _ ?_).trans ?_ | with_reducible refine (eachPort_ports _ _ ?_).trans ?_ | with_reducible refine (eachPort_lanes _ _ ?_).trans ?_ | with_reducible refine (eachPort_map _ _ ?_).trans ?_ | with_reducible refine (eachPort_dial _ _ ?_).trans ?_ | with_reducible refine (eachPort_mon _ _ ?_).trans ?_ | with_reducible refine (eachPort_alarms _ _ ?_).trans ?_ | with_reducible refine (eachPort_faults _ _ ?_).trans ?_ | with_reducible refine (eachPort_jrx _ _ ?_).trans ?_ | with_reducible refine (eachPort_test _ _ ?_).trans ?_ | with_reducible refine (eachPort_pins _ _ ?_).trans ?_ | with_reducible refine (eachPort_bulk _ _ ?_).trans ?_ | with_reducible refine (eachPort_pending _ _ ?_).trans ?_ | with_reducible refine (doIf_sys _ _ _ ?_).trans ?_ | with_reducible refine (doIf_power _ _ _ ?_).trans ?_ | with_reducible refine (doIf_mbx _ _ _ ?_).trans ?_ | with_reducible refine (doIf_twi _ _ _ ?_).trans ?_ | with_reducible refine (doIf_ports _ _ _ ?_).trans ?_ | with_reducible refine (doIf_lanes _ _ _ ?_).trans ?_ | with_reducible refine (doIf_map _ _ _ ?_).trans ?_ | with_reducible refine (doIf_dial _ _ _ ?_).trans ?_ | with_reducible refine (doIf_mon _ _ _ ?_).trans ?_ | with_reducible refine (doIf_alarms _ _ _ ?_).trans ?_ | with_reducible refine (doIf_faults _ _ _ ?_).trans ?_ | with_reducible refine (doIf_jrx _ _ _ ?_).trans ?_ | with_reducible refine (doIf_test _ _ _ ?_).trans ?_ | with_reducible refine (doIf_pins _ _ _ ?_).trans ?_ | with_reducible refine (doIf_bulk _ _ _ ?_).trans ?_ | with_reducible refine (doIf_pending _ _ _ ?_).trans ?_ | with_reducible refine (command_twi _ _ _ _ _ _ ?_).trans ?_ | with_reducible refine (command_test _ _ _ _ _ _ ?_).trans ?_ | with_reducible refine (command_pins _ _ _ _ _ _ ?_).trans ?_ | with_reducible refine (command_bulk _ _ _ _ _ _ ?_).trans ?_ | with_reducible refine (command_pending _ _ _ _ _ _ ?_).trans ?_ | with_reducible refine (commandOk_twi _ _ _ _ _ _ ?_).trans ?_ | with_reducible refine (commandOk_test _ _ _ _ _ _ ?_).trans ?_ | with_reducible refine (commandOk_pins _ _ _ _ _ _ ?_).trans ?_ | with_reducible refine (commandOk_bulk _ _ _ _ _ _ ?_).trans ?_ | with_reducible refine (commandOk_pending _ _ _ _ _ _ ?_).trans ?_ | with_reducible refine (awaitReport_power _ _ _ _ _ ?_).trans ?_ | with_reducible refine (awaitReport_twi _ _ _ _ _ ?_).trans ?_ | with_reducible refine (awaitReport_ports _ _ _ _ _ ?_).trans ?_ | with_reducible refine (awaitReport_lanes _ _ _ _ _ ?_).trans ?_ | with_reducible refine (awaitReport_map _ _ _ _ _ ?_).trans ?_ | with_reducible refine (awaitReport_dial _ _ _ _ _ ?_).trans ?_ | with_reducible refine (awaitReport_mon _ _ _ _ _ ?_).trans ?_ | with_reducible refine (awaitReport_alarms _ _ _ _ _ ?_).trans ?_ | with_reducible refine (awaitReport_faults _ _ _ _ _ ?_).trans ?_ | with_reducible refine (awaitReport_jrx _ _ _ _ _ ?_).trans ?_ | with_reducible refine (awaitReport_test _ _ _ _ _ ?_).trans ?_ | with_reducible refine (awaitReport_pins _ _ _ _ _ ?_).trans ?_ | with_reducible refine (awaitReport_bulk _ _ _ _ _ ?_).trans ?_ | with_reducible refine (awaitReport_pending _ _ _ _ _ ?_).trans ?_ | with_reducible refine (report_twi _ _ _ _ _ _ ?_).trans ?_ | with_reducible refine (report_test _ _ _ _ _ _ ?_).trans ?_ | with_reducible refine (report_pins _ _ _ _ _ _ ?_).trans ?_ | with_reducible refine (report_bulk _ _ _ _ _ _ ?_).trans ?_ | with_reducible refine (report_pending _ _ _ _ _ _ ?_).trans ?_ | intro _ | split | simp)
@[simp] theorem poolBoundary_keeps (p : LPort) (o : RxObs) (s : State) :
    (poolBoundary p o s).sys = s.sys ∧ (poolBoundary p o s).power = s.power ∧ (poolBoundary p o s).mbx = s.mbx ∧ (poolBoundary p o s).twi = s.twi ∧ (poolBoundary p o s).ports = s.ports ∧ (poolBoundary p o s).lanes = s.lanes ∧ (poolBoundary p o s).map = s.map ∧ (poolBoundary p o s).dial = s.dial ∧ (poolBoundary p o s).mon = s.mon ∧ (poolBoundary p o s).alarms = s.alarms ∧ (poolBoundary p o s).faults = s.faults ∧ (poolBoundary p o s).jrx = s.jrx ∧ (poolBoundary p o s).test = s.test ∧ (poolBoundary p o s).pins = s.pins ∧ (poolBoundary p o s).bulk = s.bulk ∧ (poolBoundary p o s).pending = s.pending := by
  simp only [poolBoundary]; (repeat' split) <;> simp
@[simp] theorem refitSf_keeps (p : LPort) (s : State) :
    (refitSf p s).sys = s.sys ∧ (refitSf p s).power = s.power ∧ (refitSf p s).mbx = s.mbx ∧ (refitSf p s).twi = s.twi ∧ (refitSf p s).ports = s.ports ∧ (refitSf p s).lanes = s.lanes ∧ (refitSf p s).map = s.map ∧ (refitSf p s).dial = s.dial ∧ (refitSf p s).mon = s.mon ∧ (refitSf p s).alarms = s.alarms ∧ (refitSf p s).faults = s.faults ∧ (refitSf p s).jrx = s.jrx ∧ (refitSf p s).test = s.test ∧ (refitSf p s).pins = s.pins ∧ (refitSf p s).bulk = s.bulk ∧ (refitSf p s).pending = s.pending := by
  refine ⟨?_, ?_, ?_, ?_, ?_, ?_, ?_, ?_, ?_, ?_, ?_, ?_, ?_, ?_, ?_, ?_⟩ <;> (simp only [refitSf]; repeat' first | with_reducible rfl | (simp; done) | with_reducible refine (eachOf_sys _ _ _ ?_).trans ?_ | with_reducible refine (eachOf_power _ _ _ ?_).trans ?_ | with_reducible refine (eachOf_mbx _ _ _ ?_).trans ?_ | with_reducible refine (eachOf_twi _ _ _ ?_).trans ?_ | with_reducible refine (eachOf_ports _ _ _ ?_).trans ?_ | with_reducible refine (eachOf_lanes _ _ _ ?_).trans ?_ | with_reducible refine (eachOf_map _ _ _ ?_).trans ?_ | with_reducible refine (eachOf_dial _ _ _ ?_).trans ?_ | with_reducible refine (eachOf_mon _ _ _ ?_).trans ?_ | with_reducible refine (eachOf_alarms _ _ _ ?_).trans ?_ | with_reducible refine (eachOf_faults _ _ _ ?_).trans ?_ | with_reducible refine (eachOf_jrx _ _ _ ?_).trans ?_ | with_reducible refine (eachOf_test _ _ _ ?_).trans ?_ | with_reducible refine (eachOf_pins _ _ _ ?_).trans ?_ | with_reducible refine (eachOf_bulk _ _ _ ?_).trans ?_ | with_reducible refine (eachOf_pending _ _ _ ?_).trans ?_ | with_reducible refine (eachPort_sys _ _ ?_).trans ?_ | with_reducible refine (eachPort_power _ _ ?_).trans ?_ | with_reducible refine (eachPort_mbx _ _ ?_).trans ?_ | with_reducible refine (eachPort_twi _ _ ?_).trans ?_ | with_reducible refine (eachPort_ports _ _ ?_).trans ?_ | with_reducible refine (eachPort_lanes _ _ ?_).trans ?_ | with_reducible refine (eachPort_map _ _ ?_).trans ?_ | with_reducible refine (eachPort_dial _ _ ?_).trans ?_ | with_reducible refine (eachPort_mon _ _ ?_).trans ?_ | with_reducible refine (eachPort_alarms _ _ ?_).trans ?_ | with_reducible refine (eachPort_faults _ _ ?_).trans ?_ | with_reducible refine (eachPort_jrx _ _ ?_).trans ?_ | with_reducible refine (eachPort_test _ _ ?_).trans ?_ | with_reducible refine (eachPort_pins _ _ ?_).trans ?_ | with_reducible refine (eachPort_bulk _ _ ?_).trans ?_ | with_reducible refine (eachPort_pending _ _ ?_).trans ?_ | with_reducible refine (doIf_sys _ _ _ ?_).trans ?_ | with_reducible refine (doIf_power _ _ _ ?_).trans ?_ | with_reducible refine (doIf_mbx _ _ _ ?_).trans ?_ | with_reducible refine (doIf_twi _ _ _ ?_).trans ?_ | with_reducible refine (doIf_ports _ _ _ ?_).trans ?_ | with_reducible refine (doIf_lanes _ _ _ ?_).trans ?_ | with_reducible refine (doIf_map _ _ _ ?_).trans ?_ | with_reducible refine (doIf_dial _ _ _ ?_).trans ?_ | with_reducible refine (doIf_mon _ _ _ ?_).trans ?_ | with_reducible refine (doIf_alarms _ _ _ ?_).trans ?_ | with_reducible refine (doIf_faults _ _ _ ?_).trans ?_ | with_reducible refine (doIf_jrx _ _ _ ?_).trans ?_ | with_reducible refine (doIf_test _ _ _ ?_).trans ?_ | with_reducible refine (doIf_pins _ _ _ ?_).trans ?_ | with_reducible refine (doIf_bulk _ _ _ ?_).trans ?_ | with_reducible refine (doIf_pending _ _ _ ?_).trans ?_ | with_reducible refine (command_twi _ _ _ _ _ _ ?_).trans ?_ | with_reducible refine (command_test _ _ _ _ _ _ ?_).trans ?_ | with_reducible refine (command_pins _ _ _ _ _ _ ?_).trans ?_ | with_reducible refine (command_bulk _ _ _ _ _ _ ?_).trans ?_ | with_reducible refine (command_pending _ _ _ _ _ _ ?_).trans ?_ | with_reducible refine (commandOk_twi _ _ _ _ _ _ ?_).trans ?_ | with_reducible refine (commandOk_test _ _ _ _ _ _ ?_).trans ?_ | with_reducible refine (commandOk_pins _ _ _ _ _ _ ?_).trans ?_ | with_reducible refine (commandOk_bulk _ _ _ _ _ _ ?_).trans ?_ | with_reducible refine (commandOk_pending _ _ _ _ _ _ ?_).trans ?_ | with_reducible refine (awaitReport_power _ _ _ _ _ ?_).trans ?_ | with_reducible refine (awaitReport_twi _ _ _ _ _ ?_).trans ?_ | with_reducible refine (awaitReport_ports _ _ _ _ _ ?_).trans ?_ | with_reducible refine (awaitReport_lanes _ _ _ _ _ ?_).trans ?_ | with_reducible refine (awaitReport_map _ _ _ _ _ ?_).trans ?_ | with_reducible refine (awaitReport_dial _ _ _ _ _ ?_).trans ?_ | with_reducible refine (awaitReport_mon _ _ _ _ _ ?_).trans ?_ | with_reducible refine (awaitReport_alarms _ _ _ _ _ ?_).trans ?_ | with_reducible refine (awaitReport_faults _ _ _ _ _ ?_).trans ?_ | with_reducible refine (awaitReport_jrx _ _ _ _ _ ?_).trans ?_ | with_reducible refine (awaitReport_test _ _ _ _ _ ?_).trans ?_ | with_reducible refine (awaitReport_pins _ _ _ _ _ ?_).trans ?_ | with_reducible refine (awaitReport_bulk _ _ _ _ _ ?_).trans ?_ | with_reducible refine (awaitReport_pending _ _ _ _ _ ?_).trans ?_ | with_reducible refine (report_twi _ _ _ _ _ _ ?_).trans ?_ | with_reducible refine (report_test _ _ _ _ _ _ ?_).trans ?_ | with_reducible refine (report_pins _ _ _ _ _ _ ?_).trans ?_ | with_reducible refine (report_bulk _ _ _ _ _ _ ?_).trans ?_ | with_reducible refine (report_pending _ _ _ _ _ _ ?_).trans ?_ | intro _ | split | simp)
@[simp] theorem codewordDispatch_keeps (s : State) :
    (codewordDispatch s).sys = s.sys ∧ (codewordDispatch s).power = s.power ∧ (codewordDispatch s).mbx = s.mbx ∧ (codewordDispatch s).twi = s.twi ∧ (codewordDispatch s).ports = s.ports ∧ (codewordDispatch s).lanes = s.lanes ∧ (codewordDispatch s).map = s.map ∧ (codewordDispatch s).dial = s.dial ∧ (codewordDispatch s).mon = s.mon ∧ (codewordDispatch s).alarms = s.alarms ∧ (codewordDispatch s).faults = s.faults ∧ (codewordDispatch s).jrx = s.jrx ∧ (codewordDispatch s).test = s.test ∧ (codewordDispatch s).pins = s.pins ∧ (codewordDispatch s).bulk = s.bulk ∧ (codewordDispatch s).free = s.free ∧ (codewordDispatch s).pending = s.pending := by
  simp only [codewordDispatch]; (repeat' split) <;> simp
@[simp] theorem engineReads_keeps (e : Engine) (j : Job) (b : Option (List Nat) × Nat) (s : State) :
    (engineReads e j b s).sys = s.sys ∧ (engineReads e j b s).power = s.power ∧ (engineReads e j b s).twi = s.twi ∧ (engineReads e j b s).ports = s.ports ∧ (engineReads e j b s).lanes = s.lanes ∧ (engineReads e j b s).map = s.map ∧ (engineReads e j b s).dial = s.dial ∧ (engineReads e j b s).mon = s.mon ∧ (engineReads e j b s).faults = s.faults ∧ (engineReads e j b s).test = s.test ∧ (engineReads e j b s).pins = s.pins ∧ (engineReads e j b s).bulk = s.bulk ∧ (engineReads e j b s).pending = s.pending := by
  simp only [engineReads]; (repeat' split) <;> simp
@[simp] theorem engineComplete_keeps (e : Engine) (o : DecodeObs) (s : State) :
    (engineComplete e o s).sys = s.sys ∧ (engineComplete e o s).power = s.power ∧ (engineComplete e o s).twi = s.twi ∧ (engineComplete e o s).ports = s.ports ∧ (engineComplete e o s).lanes = s.lanes ∧ (engineComplete e o s).map = s.map ∧ (engineComplete e o s).dial = s.dial ∧ (engineComplete e o s).mon = s.mon ∧ (engineComplete e o s).faults = s.faults ∧ (engineComplete e o s).test = s.test ∧ (engineComplete e o s).pins = s.pins ∧ (engineComplete e o s).bulk = s.bulk ∧ (engineComplete e o s).pending = s.pending := by
  simp only [engineComplete]; (repeat' split) <;> simp
@[simp] theorem decodeDeadline_keeps (p : LPort) (unsatisfied : Nat) (s : State) :
    (decodeDeadline p unsatisfied s).sys = s.sys ∧ (decodeDeadline p unsatisfied s).power = s.power ∧ (decodeDeadline p unsatisfied s).mbx = s.mbx ∧ (decodeDeadline p unsatisfied s).twi = s.twi ∧ (decodeDeadline p unsatisfied s).ports = s.ports ∧ (decodeDeadline p unsatisfied s).lanes = s.lanes ∧ (decodeDeadline p unsatisfied s).map = s.map ∧ (decodeDeadline p unsatisfied s).dial = s.dial ∧ (decodeDeadline p unsatisfied s).mon = s.mon ∧ (decodeDeadline p unsatisfied s).alarms = s.alarms ∧ (decodeDeadline p unsatisfied s).faults = s.faults ∧ (decodeDeadline p unsatisfied s).jrx = s.jrx ∧ (decodeDeadline p unsatisfied s).test = s.test ∧ (decodeDeadline p unsatisfied s).pins = s.pins ∧ (decodeDeadline p unsatisfied s).bulk = s.bulk ∧ (decodeDeadline p unsatisfied s).pending = s.pending := by
  simp only [decodeDeadline]; (repeat' split) <;> simp
@[simp] theorem balanceCycle_keeps (s : State) :
    (balanceCycle s).sys = s.sys ∧ (balanceCycle s).power = s.power ∧ (balanceCycle s).mbx = s.mbx ∧ (balanceCycle s).twi = s.twi ∧ (balanceCycle s).ports = s.ports ∧ (balanceCycle s).lanes = s.lanes ∧ (balanceCycle s).map = s.map ∧ (balanceCycle s).dial = s.dial ∧ (balanceCycle s).mon = s.mon ∧ (balanceCycle s).alarms = s.alarms ∧ (balanceCycle s).faults = s.faults ∧ (balanceCycle s).jrx = s.jrx ∧ (balanceCycle s).test = s.test ∧ (balanceCycle s).pins = s.pins ∧ (balanceCycle s).bulk = s.bulk ∧ (balanceCycle s).free = s.free ∧ (balanceCycle s).pending = s.pending := by
  simp only [balanceCycle]; (repeat' split) <;> simp
@[simp] theorem fecStarved_keeps (s : State) :
    (fecStarved s).sys = s.sys ∧ (fecStarved s).power = s.power ∧ (fecStarved s).twi = s.twi ∧ (fecStarved s).ports = s.ports ∧ (fecStarved s).lanes = s.lanes ∧ (fecStarved s).map = s.map ∧ (fecStarved s).dial = s.dial ∧ (fecStarved s).mon = s.mon ∧ (fecStarved s).faults = s.faults ∧ (fecStarved s).test = s.test ∧ (fecStarved s).pins = s.pins ∧ (fecStarved s).bulk = s.bulk ∧ (fecStarved s).free = s.free ∧ (fecStarved s).pending = s.pending := by
  simp only [fecStarved]; (repeat' split) <;> simp
@[simp] theorem fecStarvedClear_keeps (s : State) :
    (fecStarvedClear s).sys = s.sys ∧ (fecStarvedClear s).power = s.power ∧ (fecStarvedClear s).twi = s.twi ∧ (fecStarvedClear s).ports = s.ports ∧ (fecStarvedClear s).lanes = s.lanes ∧ (fecStarvedClear s).map = s.map ∧ (fecStarvedClear s).dial = s.dial ∧ (fecStarvedClear s).mon = s.mon ∧ (fecStarvedClear s).faults = s.faults ∧ (fecStarvedClear s).test = s.test ∧ (fecStarvedClear s).pins = s.pins ∧ (fecStarvedClear s).bulk = s.bulk ∧ (fecStarvedClear s).free = s.free ∧ (fecStarvedClear s).pending = s.pending := by
  simp only [fecStarvedClear]; (repeat' split) <;> simp
@[simp] theorem engineThrottle_keeps (e : Engine) (s : State) :
    (engineThrottle e s).sys = s.sys ∧ (engineThrottle e s).power = s.power ∧ (engineThrottle e s).mbx = s.mbx ∧ (engineThrottle e s).twi = s.twi ∧ (engineThrottle e s).ports = s.ports ∧ (engineThrottle e s).lanes = s.lanes ∧ (engineThrottle e s).map = s.map ∧ (engineThrottle e s).dial = s.dial ∧ (engineThrottle e s).mon = s.mon ∧ (engineThrottle e s).alarms = s.alarms ∧ (engineThrottle e s).faults = s.faults ∧ (engineThrottle e s).jrx = s.jrx ∧ (engineThrottle e s).test = s.test ∧ (engineThrottle e s).pins = s.pins ∧ (engineThrottle e s).bulk = s.bulk ∧ (engineThrottle e s).free = s.free ∧ (engineThrottle e s).pending = s.pending := by
  simp only [engineThrottle]; (repeat' split) <;> simp
@[simp] theorem engineSpeedRestore_keeps (e : Engine) (s : State) :
    (engineSpeedRestore e s).sys = s.sys ∧ (engineSpeedRestore e s).power = s.power ∧ (engineSpeedRestore e s).mbx = s.mbx ∧ (engineSpeedRestore e s).twi = s.twi ∧ (engineSpeedRestore e s).ports = s.ports ∧ (engineSpeedRestore e s).lanes = s.lanes ∧ (engineSpeedRestore e s).map = s.map ∧ (engineSpeedRestore e s).dial = s.dial ∧ (engineSpeedRestore e s).mon = s.mon ∧ (engineSpeedRestore e s).alarms = s.alarms ∧ (engineSpeedRestore e s).faults = s.faults ∧ (engineSpeedRestore e s).jrx = s.jrx ∧ (engineSpeedRestore e s).test = s.test ∧ (engineSpeedRestore e s).pins = s.pins ∧ (engineSpeedRestore e s).bulk = s.bulk ∧ (engineSpeedRestore e s).free = s.free ∧ (engineSpeedRestore e s).pending = s.pending := by
  simp only [engineSpeedRestore]; (repeat' split) <;> simp
@[simp] theorem watchdog_keeps (e : Engine) (s : State) :
    (watchdog e s).sys = s.sys ∧ (watchdog e s).power = s.power ∧ (watchdog e s).twi = s.twi ∧ (watchdog e s).ports = s.ports ∧ (watchdog e s).lanes = s.lanes ∧ (watchdog e s).map = s.map ∧ (watchdog e s).dial = s.dial ∧ (watchdog e s).mon = s.mon ∧ (watchdog e s).faults = s.faults ∧ (watchdog e s).test = s.test ∧ (watchdog e s).pins = s.pins ∧ (watchdog e s).bulk = s.bulk ∧ (watchdog e s).free = s.free ∧ (watchdog e s).pending = s.pending := by
  simp only [watchdog]; (repeat' split) <;> simp
@[simp] theorem katFailed_keeps (e : Engine) (s : State) :
    (katFailed e s).sys = s.sys ∧ (katFailed e s).power = s.power ∧ (katFailed e s).twi = s.twi ∧ (katFailed e s).ports = s.ports ∧ (katFailed e s).lanes = s.lanes ∧ (katFailed e s).map = s.map ∧ (katFailed e s).dial = s.dial ∧ (katFailed e s).mon = s.mon ∧ (katFailed e s).faults = s.faults ∧ (katFailed e s).test = s.test ∧ (katFailed e s).pins = s.pins ∧ (katFailed e s).bulk = s.bulk ∧ (katFailed e s).free = s.free ∧ (katFailed e s).pending = s.pending := by
  simp only [katFailed]; (repeat' split) <;> simp
@[simp] theorem katRun_keeps (e : Engine) (passed : Bool) (s : State) :
    (katRun e passed s).sys = s.sys ∧ (katRun e passed s).power = s.power ∧ (katRun e passed s).twi = s.twi ∧ (katRun e passed s).ports = s.ports ∧ (katRun e passed s).lanes = s.lanes ∧ (katRun e passed s).map = s.map ∧ (katRun e passed s).dial = s.dial ∧ (katRun e passed s).mon = s.mon ∧ (katRun e passed s).faults = s.faults ∧ (katRun e passed s).test = s.test ∧ (katRun e passed s).pins = s.pins ∧ (katRun e passed s).bulk = s.bulk ∧ (katRun e passed s).free = s.free ∧ (katRun e passed s).pending = s.pending := by
  simp only [katRun]; (repeat' split) <;> simp
@[simp] theorem knownAnswerTestDone_keeps (e : Engine) (passed : Bool) (s : State) :
    (knownAnswerTestDone e passed s).sys = s.sys ∧ (knownAnswerTestDone e passed s).power = s.power ∧ (knownAnswerTestDone e passed s).twi = s.twi ∧ (knownAnswerTestDone e passed s).ports = s.ports ∧ (knownAnswerTestDone e passed s).lanes = s.lanes ∧ (knownAnswerTestDone e passed s).map = s.map ∧ (knownAnswerTestDone e passed s).dial = s.dial ∧ (knownAnswerTestDone e passed s).mon = s.mon ∧ (knownAnswerTestDone e passed s).faults = s.faults ∧ (knownAnswerTestDone e passed s).test = s.test ∧ (knownAnswerTestDone e passed s).pins = s.pins ∧ (knownAnswerTestDone e passed s).bulk = s.bulk ∧ (knownAnswerTestDone e passed s).free = s.free ∧ (knownAnswerTestDone e passed s).pending = s.pending := by
  simp only [knownAnswerTestDone]; (repeat' split) <;> simp
@[simp] theorem fecModeSet_keeps (rq : Req) (s : State) :
    (fecModeSet rq s).twi = s.twi ∧ (fecModeSet rq s).test = s.test ∧ (fecModeSet rq s).pins = s.pins ∧ (fecModeSet rq s).bulk = s.bulk ∧ (fecModeSet rq s).pending = s.pending := by
  refine ⟨?_, ?_, ?_, ?_, ?_⟩ <;> (simp only [fecModeSet]; repeat' first | with_reducible rfl | (simp; done) | with_reducible refine (eachOf_twi _ _ _ ?_).trans ?_ | with_reducible refine (eachOf_test _ _ _ ?_).trans ?_ | with_reducible refine (eachOf_pins _ _ _ ?_).trans ?_ | with_reducible refine (eachOf_bulk _ _ _ ?_).trans ?_ | with_reducible refine (eachOf_pending _ _ _ ?_).trans ?_ | with_reducible refine (eachPort_twi _ _ ?_).trans ?_ | with_reducible refine (eachPort_test _ _ ?_).trans ?_ | with_reducible refine (eachPort_pins _ _ ?_).trans ?_ | with_reducible refine (eachPort_bulk _ _ ?_).trans ?_ | with_reducible refine (eachPort_pending _ _ ?_).trans ?_ | with_reducible refine (doIf_twi _ _ _ ?_).trans ?_ | with_reducible refine (doIf_test _ _ _ ?_).trans ?_ | with_reducible refine (doIf_pins _ _ _ ?_).trans ?_ | with_reducible refine (doIf_bulk _ _ _ ?_).trans ?_ | with_reducible refine (doIf_pending _ _ _ ?_).trans ?_ | with_reducible refine (command_twi _ _ _ _ _ _ ?_).trans ?_ | with_reducible refine (command_test _ _ _ _ _ _ ?_).trans ?_ | with_reducible refine (command_pins _ _ _ _ _ _ ?_).trans ?_ | with_reducible refine (command_bulk _ _ _ _ _ _ ?_).trans ?_ | with_reducible refine (command_pending _ _ _ _ _ _ ?_).trans ?_ | with_reducible refine (commandOk_twi _ _ _ _ _ _ ?_).trans ?_ | with_reducible refine (commandOk_test _ _ _ _ _ _ ?_).trans ?_ | with_reducible refine (commandOk_pins _ _ _ _ _ _ ?_).trans ?_ | with_reducible refine (commandOk_bulk _ _ _ _ _ _ ?_).trans ?_ | with_reducible refine (commandOk_pending _ _ _ _ _ _ ?_).trans ?_ | with_reducible refine (awaitReport_twi _ _ _ _ _ ?_).trans ?_ | with_reducible refine (awaitReport_test _ _ _ _ _ ?_).trans ?_ | with_reducible refine (awaitReport_pins _ _ _ _ _ ?_).trans ?_ | with_reducible refine (awaitReport_bulk _ _ _ _ _ ?_).trans ?_ | with_reducible refine (awaitReport_pending _ _ _ _ _ ?_).trans ?_ | with_reducible refine (report_twi _ _ _ _ _ _ ?_).trans ?_ | with_reducible refine (report_test _ _ _ _ _ _ ?_).trans ?_ | with_reducible refine (report_pins _ _ _ _ _ _ ?_).trans ?_ | with_reducible refine (report_bulk _ _ _ _ _ _ ?_).trans ?_ | with_reducible refine (report_pending _ _ _ _ _ _ ?_).trans ?_ | intro _ | split | simp)
@[simp] theorem fecPoolPolicy_keeps (rq : Req) (s : State) :
    (fecPoolPolicy rq s).twi = s.twi ∧ (fecPoolPolicy rq s).test = s.test ∧ (fecPoolPolicy rq s).pins = s.pins ∧ (fecPoolPolicy rq s).bulk = s.bulk ∧ (fecPoolPolicy rq s).pending = s.pending := by
  simp only [fecPoolPolicy]; (repeat' split) <;> simp
@[simp] theorem fecStatusAnswer_keeps (rq : Req) (s : State) :
    (fecStatusAnswer rq s).power = s.power ∧ (fecStatusAnswer rq s).twi = s.twi ∧ (fecStatusAnswer rq s).ports = s.ports ∧ (fecStatusAnswer rq s).pool = s.pool ∧ (fecStatusAnswer rq s).lanes = s.lanes ∧ (fecStatusAnswer rq s).map = s.map ∧ (fecStatusAnswer rq s).mon = s.mon ∧ (fecStatusAnswer rq s).alarms = s.alarms ∧ (fecStatusAnswer rq s).faults = s.faults ∧ (fecStatusAnswer rq s).test = s.test ∧ (fecStatusAnswer rq s).pins = s.pins ∧ (fecStatusAnswer rq s).bulk = s.bulk ∧ (fecStatusAnswer rq s).free = s.free ∧ (fecStatusAnswer rq s).pending = s.pending := by
  simp only [fecStatusAnswer]; (repeat' split) <;> simp
@[simp] theorem fecStatus_keeps (rq : Req) (s : State) :
    (fecStatus rq s).twi = s.twi ∧ (fecStatus rq s).test = s.test ∧ (fecStatus rq s).pins = s.pins ∧ (fecStatus rq s).bulk = s.bulk ∧ (fecStatus rq s).pending = s.pending := by
  simp only [fecStatus]; (repeat' split) <;> simp
@[simp] theorem fecPmAnswer_keeps (rq : Req) (s : State) :
    (fecPmAnswer rq s).power = s.power ∧ (fecPmAnswer rq s).twi = s.twi ∧ (fecPmAnswer rq s).ports = s.ports ∧ (fecPmAnswer rq s).pool = s.pool ∧ (fecPmAnswer rq s).lanes = s.lanes ∧ (fecPmAnswer rq s).map = s.map ∧ (fecPmAnswer rq s).mon = s.mon ∧ (fecPmAnswer rq s).alarms = s.alarms ∧ (fecPmAnswer rq s).faults = s.faults ∧ (fecPmAnswer rq s).test = s.test ∧ (fecPmAnswer rq s).pins = s.pins ∧ (fecPmAnswer rq s).free = s.free ∧ (fecPmAnswer rq s).pending = s.pending := by
  simp only [fecPmAnswer]; (repeat' split) <;> simp
@[simp] theorem fecPmRead_keeps (rq : Req) (s : State) :
    (fecPmRead rq s).twi = s.twi ∧ (fecPmRead rq s).test = s.test ∧ (fecPmRead rq s).pins = s.pins ∧ (fecPmRead rq s).pending = s.pending := by
  simp only [fecPmRead]; (repeat' split) <;> simp

@[simp] theorem wakeCtl_keeps (s : State) :
    (wakeCtl s).sys = s.sys ∧ (wakeCtl s).mbx = s.mbx ∧ (wakeCtl s).twi = s.twi ∧ (wakeCtl s).ports = s.ports ∧ (wakeCtl s).pool = s.pool ∧ (wakeCtl s).lanes = s.lanes ∧ (wakeCtl s).map = s.map ∧ (wakeCtl s).dial = s.dial ∧ (wakeCtl s).mon = s.mon ∧ (wakeCtl s).alarms = s.alarms ∧ (wakeCtl s).faults = s.faults ∧ (wakeCtl s).jrx = s.jrx ∧ (wakeCtl s).test = s.test ∧ (wakeCtl s).pins = s.pins ∧ (wakeCtl s).bulk = s.bulk ∧ (wakeCtl s).free = s.free ∧ (wakeCtl s).pending = s.pending := by
  simp only [wakeCtl]; (repeat' split) <;> simp
@[simp] theorem postWord_keeps (n : Fin 8) (st : Stamp) (w : Word) (s : State) :
    (postWord n st w s).sys = s.sys ∧ (postWord n st w s).twi = s.twi ∧ (postWord n st w s).ports = s.ports ∧ (postWord n st w s).pool = s.pool ∧ (postWord n st w s).lanes = s.lanes ∧ (postWord n st w s).map = s.map ∧ (postWord n st w s).dial = s.dial ∧ (postWord n st w s).mon = s.mon ∧ (postWord n st w s).alarms = s.alarms ∧ (postWord n st w s).faults = s.faults ∧ (postWord n st w s).jrx = s.jrx ∧ (postWord n st w s).test = s.test ∧ (postWord n st w s).pins = s.pins ∧ (postWord n st w s).bulk = s.bulk ∧ (postWord n st w s).free = s.free ∧ (postWord n st w s).pending = s.pending := by
  simp only [postWord]; (repeat' split) <;> simp
@[simp] theorem mbxPost_keeps (who : HostPort) (n : Fin 8) (w : Word) (s : State) :
    (mbxPost who n w s).sys = s.sys ∧ (mbxPost who n w s).ports = s.ports ∧ (mbxPost who n w s).pool = s.pool ∧ (mbxPost who n w s).lanes = s.lanes ∧ (mbxPost who n w s).map = s.map ∧ (mbxPost who n w s).dial = s.dial ∧ (mbxPost who n w s).mon = s.mon ∧ (mbxPost who n w s).alarms = s.alarms ∧ (mbxPost who n w s).faults = s.faults ∧ (mbxPost who n w s).jrx = s.jrx ∧ (mbxPost who n w s).test = s.test ∧ (mbxPost who n w s).pins = s.pins ∧ (mbxPost who n w s).bulk = s.bulk ∧ (mbxPost who n w s).free = s.free ∧ (mbxPost who n w s).pending = s.pending := by
  simp only [mbxPost]; (repeat' split) <;> simp
@[simp] theorem flowOn_keeps (n : Fin 8) (s : State) :
    (flowOn n s).sys = s.sys ∧ (flowOn n s).power = s.power ∧ (flowOn n s).twi = s.twi ∧ (flowOn n s).ports = s.ports ∧ (flowOn n s).pool = s.pool ∧ (flowOn n s).lanes = s.lanes ∧ (flowOn n s).map = s.map ∧ (flowOn n s).dial = s.dial ∧ (flowOn n s).mon = s.mon ∧ (flowOn n s).alarms = s.alarms ∧ (flowOn n s).faults = s.faults ∧ (flowOn n s).jrx = s.jrx ∧ (flowOn n s).test = s.test ∧ (flowOn n s).pins = s.pins ∧ (flowOn n s).bulk = s.bulk ∧ (flowOn n s).free = s.free ∧ (flowOn n s).pending = s.pending := by
  simp only [flowOn]; (repeat' split) <;> simp
@[simp] theorem takeWord_snd_sys (who : HostPort) (n : Fin 8) (s : State) : (takeWord who n s).2.sys = s.sys := by
  simp only [takeWord]; repeat' first | with_reducible rfl | (simp; done) | split | simp
@[simp] theorem takeWord_snd_power (who : HostPort) (n : Fin 8) (s : State) : (takeWord who n s).2.power = s.power := by
  simp only [takeWord]; repeat' first | with_reducible rfl | (simp; done) | split | simp
@[simp] theorem takeWord_snd_twi (who : HostPort) (n : Fin 8) (s : State) : (takeWord who n s).2.twi = s.twi := by
  simp only [takeWord]; repeat' first | with_reducible rfl | (simp; done) | split | simp
@[simp] theorem takeWord_snd_ports (who : HostPort) (n : Fin 8) (s : State) : (takeWord who n s).2.ports = s.ports := by
  simp only [takeWord]; repeat' first | with_reducible rfl | (simp; done) | split | simp
@[simp] theorem takeWord_snd_pool (who : HostPort) (n : Fin 8) (s : State) : (takeWord who n s).2.pool = s.pool := by
  simp only [takeWord]; repeat' first | with_reducible rfl | (simp; done) | split | simp
@[simp] theorem takeWord_snd_lanes (who : HostPort) (n : Fin 8) (s : State) : (takeWord who n s).2.lanes = s.lanes := by
  simp only [takeWord]; repeat' first | with_reducible rfl | (simp; done) | split | simp
@[simp] theorem takeWord_snd_map (who : HostPort) (n : Fin 8) (s : State) : (takeWord who n s).2.map = s.map := by
  simp only [takeWord]; repeat' first | with_reducible rfl | (simp; done) | split | simp
@[simp] theorem takeWord_snd_dial (who : HostPort) (n : Fin 8) (s : State) : (takeWord who n s).2.dial = s.dial := by
  simp only [takeWord]; repeat' first | with_reducible rfl | (simp; done) | split | simp
@[simp] theorem takeWord_snd_mon (who : HostPort) (n : Fin 8) (s : State) : (takeWord who n s).2.mon = s.mon := by
  simp only [takeWord]; repeat' first | with_reducible rfl | (simp; done) | split | simp
@[simp] theorem takeWord_snd_alarms (who : HostPort) (n : Fin 8) (s : State) : (takeWord who n s).2.alarms = s.alarms := by
  simp only [takeWord]; repeat' first | with_reducible rfl | (simp; done) | split | simp
@[simp] theorem takeWord_snd_faults (who : HostPort) (n : Fin 8) (s : State) : (takeWord who n s).2.faults = s.faults := by
  simp only [takeWord]; repeat' first | with_reducible rfl | (simp; done) | split | simp
@[simp] theorem takeWord_snd_jrx (who : HostPort) (n : Fin 8) (s : State) : (takeWord who n s).2.jrx = s.jrx := by
  simp only [takeWord]; repeat' first | with_reducible rfl | (simp; done) | split | simp
@[simp] theorem takeWord_snd_test (who : HostPort) (n : Fin 8) (s : State) : (takeWord who n s).2.test = s.test := by
  simp only [takeWord]; repeat' first | with_reducible rfl | (simp; done) | split | simp
@[simp] theorem takeWord_snd_pins (who : HostPort) (n : Fin 8) (s : State) : (takeWord who n s).2.pins = s.pins := by
  simp only [takeWord]; repeat' first | with_reducible rfl | (simp; done) | split | simp
@[simp] theorem takeWord_snd_bulk (who : HostPort) (n : Fin 8) (s : State) : (takeWord who n s).2.bulk = s.bulk := by
  simp only [takeWord]; repeat' first | with_reducible rfl | (simp; done) | split | simp
@[simp] theorem takeWord_snd_free (who : HostPort) (n : Fin 8) (s : State) : (takeWord who n s).2.free = s.free := by
  simp only [takeWord]; repeat' first | with_reducible rfl | (simp; done) | split | simp
@[simp] theorem takeWord_snd_pending (who : HostPort) (n : Fin 8) (s : State) : (takeWord who n s).2.pending = s.pending := by
  simp only [takeWord]; repeat' first | with_reducible rfl | (simp; done) | split | simp
@[simp] theorem mbxTake_keeps (who : HostPort) (n : Fin 8) (s : State) :
    (mbxTake who n s).sys = s.sys ∧ (mbxTake who n s).power = s.power ∧ (mbxTake who n s).ports = s.ports ∧ (mbxTake who n s).pool = s.pool ∧ (mbxTake who n s).lanes = s.lanes ∧ (mbxTake who n s).map = s.map ∧ (mbxTake who n s).dial = s.dial ∧ (mbxTake who n s).mon = s.mon ∧ (mbxTake who n s).alarms = s.alarms ∧ (mbxTake who n s).faults = s.faults ∧ (mbxTake who n s).jrx = s.jrx ∧ (mbxTake who n s).test = s.test ∧ (mbxTake who n s).pins = s.pins ∧ (mbxTake who n s).bulk = s.bulk ∧ (mbxTake who n s).free = s.free ∧ (mbxTake who n s).pending = s.pending := by
  refine ⟨?_, ?_, ?_, ?_, ?_, ?_, ?_, ?_, ?_, ?_, ?_, ?_, ?_, ?_, ?_, ?_⟩ <;> (simp only [mbxTake]; repeat' first | with_reducible rfl | (simp; done) | with_reducible refine (eachOf_sys _ _ _ ?_).trans ?_ | with_reducible refine (eachOf_power _ _ _ ?_).trans ?_ | with_reducible refine (eachOf_ports _ _ _ ?_).trans ?_ | with_reducible refine (eachOf_pool _ _ _ ?_).trans ?_ | with_reducible refine (eachOf_lanes _ _ _ ?_).trans ?_ | with_reducible refine (eachOf_map _ _ _ ?_).trans ?_ | with_reducible refine (eachOf_dial _ _ _ ?_).trans ?_ | with_reducible refine (eachOf_mon _ _ _ ?_).trans ?_ | with_reducible refine (eachOf_alarms _ _ _ ?_).trans ?_ | with_reducible refine (eachOf_faults _ _ _ ?_).trans ?_ | with_reducible refine (eachOf_jrx _ _ _ ?_).trans ?_ | with_reducible refine (eachOf_test _ _ _ ?_).trans ?_ | with_reducible refine (eachOf_pins _ _ _ ?_).trans ?_ | with_reducible refine (eachOf_bulk _ _ _ ?_).trans ?_ | with_reducible refine (eachOf_free _ _ _ ?_).trans ?_ | with_reducible refine (eachOf_pending _ _ _ ?_).trans ?_ | with_reducible refine (eachPort_sys _ _ ?_).trans ?_ | with_reducible refine (eachPort_power _ _ ?_).trans ?_ | with_reducible refine (eachPort_ports _ _ ?_).trans ?_ | with_reducible refine (eachPort_pool _ _ ?_).trans ?_ | with_reducible refine (eachPort_lanes _ _ ?_).trans ?_ | with_reducible refine (eachPort_map _ _ ?_).trans ?_ | with_reducible refine (eachPort_dial _ _ ?_).trans ?_ | with_reducible refine (eachPort_mon _ _ ?_).trans ?_ | with_reducible refine (eachPort_alarms _ _ ?_).trans ?_ | with_reducible refine (eachPort_faults _ _ ?_).trans ?_ | with_reducible refine (eachPort_jrx _ _ ?_).trans ?_ | with_reducible refine (eachPort_test _ _ ?_).trans ?_ | with_reducible refine (eachPort_pins _ _ ?_).trans ?_ | with_reducible refine (eachPort_bulk _ _ ?_).trans ?_ | with_reducible refine (eachPort_free _ _ ?_).trans ?_ | with_reducible refine (eachPort_pending _ _ ?_).trans ?_ | with_reducible refine (doIf_sys _ _ _ ?_).trans ?_ | with_reducible refine (doIf_power _ _ _ ?_).trans ?_ | with_reducible refine (doIf_ports _ _ _ ?_).trans ?_ | with_reducible refine (doIf_pool _ _ _ ?_).trans ?_ | with_reducible refine (doIf_lanes _ _ _ ?_).trans ?_ | with_reducible refine (doIf_map _ _ _ ?_).trans ?_ | with_reducible refine (doIf_dial _ _ _ ?_).trans ?_ | with_reducible refine (doIf_mon _ _ _ ?_).trans ?_ | with_reducible refine (doIf_alarms _ _ _ ?_).trans ?_ | with_reducible refine (doIf_faults _ _ _ ?_).trans ?_ | with_reducible refine (doIf_jrx _ _ _ ?_).trans ?_ | with_reducible refine (doIf_test _ _ _ ?_).trans ?_ | with_reducible refine (doIf_pins _ _ _ ?_).trans ?_ | with_reducible refine (doIf_bulk _ _ _ ?_).trans ?_ | with_reducible refine (doIf_free _ _ _ ?_).trans ?_ | with_reducible refine (doIf_pending _ _ _ ?_).trans ?_ | with_reducible refine (command_test _ _ _ _ _ _ ?_).trans ?_ | with_reducible refine (command_pins _ _ _ _ _ _ ?_).trans ?_ | with_reducible refine (command_bulk _ _ _ _ _ _ ?_).trans ?_ | with_reducible refine (command_pending _ _ _ _ _ _ ?_).trans ?_ | with_reducible refine (commandOk_test _ _ _ _ _ _ ?_).trans ?_ | with_reducible refine (commandOk_pins _ _ _ _ _ _ ?_).trans ?_ | with_reducible refine (commandOk_bulk _ _ _ _ _ _ ?_).trans ?_ | with_reducible refine (commandOk_pending _ _ _ _ _ _ ?_).trans ?_ | with_reducible refine (awaitReport_power _ _ _ _ _ ?_).trans ?_ | with_reducible refine (awaitReport_ports _ _ _ _ _ ?_).trans ?_ | with_reducible refine (awaitReport_pool _ _ _ _ _ ?_).trans ?_ | with_reducible refine (awaitReport_lanes _ _ _ _ _ ?_).trans ?_ | with_reducible refine (awaitReport_map _ _ _ _ _ ?_).trans ?_ | with_reducible refine (awaitReport_dial _ _ _ _ _ ?_).trans ?_ | with_reducible refine (awaitReport_mon _ _ _ _ _ ?_).trans ?_ | with_reducible refine (awaitReport_alarms _ _ _ _ _ ?_).trans ?_ | with_reducible refine (awaitReport_faults _ _ _ _ _ ?_).trans ?_ | with_reducible refine (awaitReport_jrx _ _ _ _ _ ?_).trans ?_ | with_reducible refine (awaitReport_test _ _ _ _ _ ?_).trans ?_ | with_reducible refine (awaitReport_pins _ _ _ _ _ ?_).trans ?_ | with_reducible refine (awaitReport_bulk _ _ _ _ _ ?_).trans ?_ | with_reducible refine (awaitReport_free _ _ _ _ _ ?_).trans ?_ | with_reducible refine (awaitReport_pending _ _ _ _ _ ?_).trans ?_ | with_reducible refine (report_test _ _ _ _ _ _ ?_).trans ?_ | with_reducible refine (report_pins _ _ _ _ _ _ ?_).trans ?_ | with_reducible refine (report_bulk _ _ _ _ _ _ ?_).trans ?_ | with_reducible refine (report_pending _ _ _ _ _ _ ?_).trans ?_ | intro _ | split | simp)
@[simp] theorem resetChan_keeps (who : HostPort) (n : Fin 8) (s : State) :
    (resetChan who n s).sys = s.sys ∧ (resetChan who n s).power = s.power ∧ (resetChan who n s).twi = s.twi ∧ (resetChan who n s).ports = s.ports ∧ (resetChan who n s).pool = s.pool ∧ (resetChan who n s).lanes = s.lanes ∧ (resetChan who n s).map = s.map ∧ (resetChan who n s).dial = s.dial ∧ (resetChan who n s).mon = s.mon ∧ (resetChan who n s).alarms = s.alarms ∧ (resetChan who n s).faults = s.faults ∧ (resetChan who n s).jrx = s.jrx ∧ (resetChan who n s).test = s.test ∧ (resetChan who n s).pins = s.pins ∧ (resetChan who n s).bulk = s.bulk ∧ (resetChan who n s).free = s.free ∧ (resetChan who n s).pending = s.pending := by
  simp only [resetChan]; (repeat' split) <;> simp
@[simp] theorem ctrlWrite_keeps (who : HostPort) (n : Fin 8) (w : Word) (s : State) :
    (ctrlWrite who n w s).sys = s.sys ∧ (ctrlWrite who n w s).power = s.power ∧ (ctrlWrite who n w s).twi = s.twi ∧ (ctrlWrite who n w s).ports = s.ports ∧ (ctrlWrite who n w s).pool = s.pool ∧ (ctrlWrite who n w s).lanes = s.lanes ∧ (ctrlWrite who n w s).map = s.map ∧ (ctrlWrite who n w s).dial = s.dial ∧ (ctrlWrite who n w s).mon = s.mon ∧ (ctrlWrite who n w s).alarms = s.alarms ∧ (ctrlWrite who n w s).faults = s.faults ∧ (ctrlWrite who n w s).jrx = s.jrx ∧ (ctrlWrite who n w s).test = s.test ∧ (ctrlWrite who n w s).pins = s.pins ∧ (ctrlWrite who n w s).bulk = s.bulk ∧ (ctrlWrite who n w s).free = s.free ∧ (ctrlWrite who n w s).pending = s.pending := by
  simp only [ctrlWrite]; (repeat' split) <;> simp
@[simp] theorem mbxCtrlReset_keeps (who : HostPort) (n : Fin 8) (w : Word) (s : State) :
    (mbxCtrlReset who n w s).sys = s.sys ∧ (mbxCtrlReset who n w s).power = s.power ∧ (mbxCtrlReset who n w s).ports = s.ports ∧ (mbxCtrlReset who n w s).pool = s.pool ∧ (mbxCtrlReset who n w s).lanes = s.lanes ∧ (mbxCtrlReset who n w s).map = s.map ∧ (mbxCtrlReset who n w s).dial = s.dial ∧ (mbxCtrlReset who n w s).mon = s.mon ∧ (mbxCtrlReset who n w s).alarms = s.alarms ∧ (mbxCtrlReset who n w s).faults = s.faults ∧ (mbxCtrlReset who n w s).jrx = s.jrx ∧ (mbxCtrlReset who n w s).test = s.test ∧ (mbxCtrlReset who n w s).pins = s.pins ∧ (mbxCtrlReset who n w s).bulk = s.bulk ∧ (mbxCtrlReset who n w s).free = s.free ∧ (mbxCtrlReset who n w s).pending = s.pending := by
  simp only [mbxCtrlReset]; (repeat' split) <;> simp
@[simp] theorem pourJ_keeps (n : Fin 4) (s : State) :
    (pourJ n s).sys = s.sys ∧ (pourJ n s).power = s.power ∧ (pourJ n s).twi = s.twi ∧ (pourJ n s).ports = s.ports ∧ (pourJ n s).pool = s.pool ∧ (pourJ n s).lanes = s.lanes ∧ (pourJ n s).map = s.map ∧ (pourJ n s).dial = s.dial ∧ (pourJ n s).mon = s.mon ∧ (pourJ n s).alarms = s.alarms ∧ (pourJ n s).faults = s.faults ∧ (pourJ n s).jrx = s.jrx ∧ (pourJ n s).test = s.test ∧ (pourJ n s).pins = s.pins ∧ (pourJ n s).bulk = s.bulk ∧ (pourJ n s).free = s.free ∧ (pourJ n s).pending = s.pending := by
  simp only [pourJ]; (repeat' split) <;> simp
@[simp] theorem queueSpacePost_keeps (c : Chan) (s : State) :
    (queueSpacePost c s).sys = s.sys ∧ (queueSpacePost c s).power = s.power ∧ (queueSpacePost c s).twi = s.twi ∧ (queueSpacePost c s).ports = s.ports ∧ (queueSpacePost c s).pool = s.pool ∧ (queueSpacePost c s).lanes = s.lanes ∧ (queueSpacePost c s).map = s.map ∧ (queueSpacePost c s).dial = s.dial ∧ (queueSpacePost c s).mon = s.mon ∧ (queueSpacePost c s).alarms = s.alarms ∧ (queueSpacePost c s).faults = s.faults ∧ (queueSpacePost c s).jrx = s.jrx ∧ (queueSpacePost c s).test = s.test ∧ (queueSpacePost c s).pins = s.pins ∧ (queueSpacePost c s).bulk = s.bulk ∧ (queueSpacePost c s).free = s.free ∧ (queueSpacePost c s).pending = s.pending := by
  simp only [queueSpacePost]; (repeat' split) <;> simp
@[simp] theorem hostQueueDrop_keeps (n : Fin 8) (s : State) :
    (hostQueueDrop n s).power = s.power ∧ (hostQueueDrop n s).twi = s.twi ∧ (hostQueueDrop n s).ports = s.ports ∧ (hostQueueDrop n s).pool = s.pool ∧ (hostQueueDrop n s).lanes = s.lanes ∧ (hostQueueDrop n s).map = s.map ∧ (hostQueueDrop n s).mon = s.mon ∧ (hostQueueDrop n s).alarms = s.alarms ∧ (hostQueueDrop n s).faults = s.faults ∧ (hostQueueDrop n s).jrx = s.jrx ∧ (hostQueueDrop n s).test = s.test ∧ (hostQueueDrop n s).pins = s.pins ∧ (hostQueueDrop n s).bulk = s.bulk ∧ (hostQueueDrop n s).free = s.free ∧ (hostQueueDrop n s).pending = s.pending := by
  refine ⟨?_, ?_, ?_, ?_, ?_, ?_, ?_, ?_, ?_, ?_, ?_, ?_, ?_, ?_, ?_⟩ <;> (simp only [hostQueueDrop]; repeat' first | with_reducible rfl | (simp; done) | with_reducible refine (eachOf_power _ _ _ ?_).trans ?_ | with_reducible refine (eachOf_twi _ _ _ ?_).trans ?_ | with_reducible refine (eachOf_ports _ _ _ ?_).trans ?_ | with_reducible refine (eachOf_pool _ _ _ ?_).trans ?_ | with_reducible refine (eachOf_lanes _ _ _ ?_).trans ?_ | with_reducible refine (eachOf_map _ _ _ ?_).trans ?_ | with_reducible refine (eachOf_mon _ _ _ ?_).trans ?_ | with_reducible refine (eachOf_alarms _ _ _ ?_).trans ?_ | with_reducible refine (eachOf_faults _ _ _ ?_).trans ?_ | with_reducible refine (eachOf_jrx _ _ _ ?_).trans ?_ | with_reducible refine (eachOf_test _ _ _ ?_).trans ?_ | with_reducible refine (eachOf_pins _ _ _ ?_).trans ?_ | with_reducible refine (eachOf_bulk _ _ _ ?_).trans ?_ | with_reducible refine (eachOf_free _ _ _ ?_).trans ?_ | with_reducible refine (eachOf_pending _ _ _ ?_).trans ?_ | with_reducible refine (eachPort_power _ _ ?_).trans ?_ | with_reducible refine (eachPort_twi _ _ ?_).trans ?_ | with_reducible refine (eachPort_ports _ _ ?_).trans ?_ | with_reducible refine (eachPort_pool _ _ ?_).trans ?_ | with_reducible refine (eachPort_lanes _ _ ?_).trans ?_ | with_reducible refine (eachPort_map _ _ ?_).trans ?_ | with_reducible refine (eachPort_mon _ _ ?_).trans ?_ | with_reducible refine (eachPort_alarms _ _ ?_).trans ?_ | with_reducible refine (eachPort_faults _ _ ?_).trans ?_ | with_reducible refine (eachPort_jrx _ _ ?_).trans ?_ | with_reducible refine (eachPort_test _ _ ?_).trans ?_ | with_reducible refine (eachPort_pins _ _ ?_).trans ?_ | with_reducible refine (eachPort_bulk _ _ ?_).trans ?_ | with_reducible refine (eachPort_free _ _ ?_).trans ?_ | with_reducible refine (eachPort_pending _ _ ?_).trans ?_ | with_reducible refine (doIf_power _ _ _ ?_).trans ?_ | with_reducible refine (doIf_twi _ _ _ ?_).trans ?_ | with_reducible refine (doIf_ports _ _ _ ?_).trans ?_ | with_reducible refine (doIf_pool _ _ _ ?_).trans ?_ | with_reducible refine (doIf_lanes _ _ _ ?_).trans ?_ | with_reducible refine (doIf_map _ _ _ ?_).trans ?_ | with_reducible refine (doIf_mon _ _ _ ?_).trans ?_ | with_reducible refine (doIf_alarms _ _ _ ?_).trans ?_ | with_reducible refine (doIf_faults _ _ _ ?_).trans ?_ | with_reducible refine (doIf_jrx _ _ _ ?_).trans ?_ | with_reducible refine (doIf_test _ _ _ ?_).trans ?_ | with_reducible refine (doIf_pins _ _ _ ?_).trans ?_ | with_reducible refine (doIf_bulk _ _ _ ?_).trans ?_ | with_reducible refine (doIf_free _ _ _ ?_).trans ?_ | with_reducible refine (doIf_pending _ _ _ ?_).trans ?_ | with_reducible refine (command_twi _ _ _ _ _ _ ?_).trans ?_ | with_reducible refine (command_test _ _ _ _ _ _ ?_).trans ?_ | with_reducible refine (command_pins _ _ _ _ _ _ ?_).trans ?_ | with_reducible refine (command_bulk _ _ _ _ _ _ ?_).trans ?_ | with_reducible refine (command_pending _ _ _ _ _ _ ?_).trans ?_ | with_reducible refine (commandOk_twi _ _ _ _ _ _ ?_).trans ?_ | with_reducible refine (commandOk_test _ _ _ _ _ _ ?_).trans ?_ | with_reducible refine (commandOk_pins _ _ _ _ _ _ ?_).trans ?_ | with_reducible refine (commandOk_bulk _ _ _ _ _ _ ?_).trans ?_ | with_reducible refine (commandOk_pending _ _ _ _ _ _ ?_).trans ?_ | with_reducible refine (awaitReport_power _ _ _ _ _ ?_).trans ?_ | with_reducible refine (awaitReport_twi _ _ _ _ _ ?_).trans ?_ | with_reducible refine (awaitReport_ports _ _ _ _ _ ?_).trans ?_ | with_reducible refine (awaitReport_pool _ _ _ _ _ ?_).trans ?_ | with_reducible refine (awaitReport_lanes _ _ _ _ _ ?_).trans ?_ | with_reducible refine (awaitReport_map _ _ _ _ _ ?_).trans ?_ | with_reducible refine (awaitReport_mon _ _ _ _ _ ?_).trans ?_ | with_reducible refine (awaitReport_alarms _ _ _ _ _ ?_).trans ?_ | with_reducible refine (awaitReport_faults _ _ _ _ _ ?_).trans ?_ | with_reducible refine (awaitReport_jrx _ _ _ _ _ ?_).trans ?_ | with_reducible refine (awaitReport_test _ _ _ _ _ ?_).trans ?_ | with_reducible refine (awaitReport_pins _ _ _ _ _ ?_).trans ?_ | with_reducible refine (awaitReport_bulk _ _ _ _ _ ?_).trans ?_ | with_reducible refine (awaitReport_free _ _ _ _ _ ?_).trans ?_ | with_reducible refine (awaitReport_pending _ _ _ _ _ ?_).trans ?_ | with_reducible refine (report_twi _ _ _ _ _ _ ?_).trans ?_ | with_reducible refine (report_test _ _ _ _ _ _ ?_).trans ?_ | with_reducible refine (report_pins _ _ _ _ _ _ ?_).trans ?_ | with_reducible refine (report_bulk _ _ _ _ _ _ ?_).trans ?_ | with_reducible refine (report_pending _ _ _ _ _ _ ?_).trans ?_ | intro _ | split | simp)
@[simp] theorem internalQueueDrop_keeps (i : Fin 16) (s : State) :
    (internalQueueDrop i s).power = s.power ∧ (internalQueueDrop i s).twi = s.twi ∧ (internalQueueDrop i s).ports = s.ports ∧ (internalQueueDrop i s).pool = s.pool ∧ (internalQueueDrop i s).lanes = s.lanes ∧ (internalQueueDrop i s).map = s.map ∧ (internalQueueDrop i s).mon = s.mon ∧ (internalQueueDrop i s).alarms = s.alarms ∧ (internalQueueDrop i s).faults = s.faults ∧ (internalQueueDrop i s).test = s.test ∧ (internalQueueDrop i s).pins = s.pins ∧ (internalQueueDrop i s).bulk = s.bulk ∧ (internalQueueDrop i s).free = s.free ∧ (internalQueueDrop i s).pending = s.pending := by
  simp only [internalQueueDrop]; (repeat' split) <;> simp

@[simp] theorem jrxEvent_keeps (kind : Nat) (src : BitVec 11) (chan : BitVec 2) (p : LPort) (ws : List Word) (s : State) :
    (jrxEvent kind src chan p ws s).sys = s.sys ∧ (jrxEvent kind src chan p ws s).power = s.power ∧ (jrxEvent kind src chan p ws s).twi = s.twi ∧ (jrxEvent kind src chan p ws s).ports = s.ports ∧ (jrxEvent kind src chan p ws s).pool = s.pool ∧ (jrxEvent kind src chan p ws s).lanes = s.lanes ∧ (jrxEvent kind src chan p ws s).map = s.map ∧ (jrxEvent kind src chan p ws s).dial = s.dial ∧ (jrxEvent kind src chan p ws s).mon = s.mon ∧ (jrxEvent kind src chan p ws s).alarms = s.alarms ∧ (jrxEvent kind src chan p ws s).faults = s.faults ∧ (jrxEvent kind src chan p ws s).jrx = s.jrx ∧ (jrxEvent kind src chan p ws s).test = s.test ∧ (jrxEvent kind src chan p ws s).pins = s.pins ∧ (jrxEvent kind src chan p ws s).bulk = s.bulk ∧ (jrxEvent kind src chan p ws s).free = s.free ∧ (jrxEvent kind src chan p ws s).pending = s.pending := by
  simp only [jrxEvent]; (repeat' split) <;> simp
@[simp] theorem conflictEval_keeps (p : LPort) (s : State) :
    (conflictEval p s).sys = s.sys ∧ (conflictEval p s).power = s.power ∧ (conflictEval p s).twi = s.twi ∧ (conflictEval p s).ports = s.ports ∧ (conflictEval p s).lanes = s.lanes ∧ (conflictEval p s).map = s.map ∧ (conflictEval p s).dial = s.dial ∧ (conflictEval p s).mon = s.mon ∧ (conflictEval p s).faults = s.faults ∧ (conflictEval p s).test = s.test ∧ (conflictEval p s).pins = s.pins ∧ (conflictEval p s).bulk = s.bulk ∧ (conflictEval p s).free = s.free ∧ (conflictEval p s).pending = s.pending := by
  simp only [conflictEval]; (repeat' split) <;> simp
@[simp] theorem helloIn_keeps (p : LPort) (src : BitVec 11) (body : List Word) (s : State) :
    (helloIn p src body s).sys = s.sys ∧ (helloIn p src body s).power = s.power ∧ (helloIn p src body s).twi = s.twi ∧ (helloIn p src body s).ports = s.ports ∧ (helloIn p src body s).lanes = s.lanes ∧ (helloIn p src body s).map = s.map ∧ (helloIn p src body s).dial = s.dial ∧ (helloIn p src body s).mon = s.mon ∧ (helloIn p src body s).faults = s.faults ∧ (helloIn p src body s).test = s.test ∧ (helloIn p src body s).pins = s.pins ∧ (helloIn p src body s).bulk = s.bulk ∧ (helloIn p src body s).free = s.free ∧ (helloIn p src body s).pending = s.pending := by
  simp only [helloIn]; (repeat' split) <;> simp
@[simp] theorem routeEntry_keeps (p : LPort) (node : BitVec 11) (h : Nat) (s : State) :
    (routeEntry p node h s).sys = s.sys ∧ (routeEntry p node h s).power = s.power ∧ (routeEntry p node h s).mbx = s.mbx ∧ (routeEntry p node h s).twi = s.twi ∧ (routeEntry p node h s).ports = s.ports ∧ (routeEntry p node h s).pool = s.pool ∧ (routeEntry p node h s).lanes = s.lanes ∧ (routeEntry p node h s).map = s.map ∧ (routeEntry p node h s).dial = s.dial ∧ (routeEntry p node h s).mon = s.mon ∧ (routeEntry p node h s).alarms = s.alarms ∧ (routeEntry p node h s).faults = s.faults ∧ (routeEntry p node h s).test = s.test ∧ (routeEntry p node h s).pins = s.pins ∧ (routeEntry p node h s).bulk = s.bulk ∧ (routeEntry p node h s).free = s.free ∧ (routeEntry p node h s).pending = s.pending := by
  simp only [routeEntry]; (repeat' split) <;> simp
@[simp] theorem neighbourFrame_keeps (p : LPort) (type : BitVec 3) (entries : Nat) (body : List Word) (s : State) :
    (neighbourFrame p type entries body s).sys = s.sys ∧ (neighbourFrame p type entries body s).power = s.power ∧ (neighbourFrame p type entries body s).mbx = s.mbx ∧ (neighbourFrame p type entries body s).twi = s.twi ∧ (neighbourFrame p type entries body s).ports = s.ports ∧ (neighbourFrame p type entries body s).pool = s.pool ∧ (neighbourFrame p type entries body s).lanes = s.lanes ∧ (neighbourFrame p type entries body s).map = s.map ∧ (neighbourFrame p type entries body s).dial = s.dial ∧ (neighbourFrame p type entries body s).mon = s.mon ∧ (neighbourFrame p type entries body s).alarms = s.alarms ∧ (neighbourFrame p type entries body s).faults = s.faults ∧ (neighbourFrame p type entries body s).test = s.test ∧ (neighbourFrame p type entries body s).pins = s.pins ∧ (neighbourFrame p type entries body s).bulk = s.bulk ∧ (neighbourFrame p type entries body s).free = s.free ∧ (neighbourFrame p type entries body s).pending = s.pending := by
  simp only [neighbourFrame]; (repeat' split) <;> simp
@[simp] theorem sendRoutes_keeps (p : LPort) (s : State) :
    (sendRoutes p s).sys = s.sys ∧ (sendRoutes p s).power = s.power ∧ (sendRoutes p s).mbx = s.mbx ∧ (sendRoutes p s).twi = s.twi ∧ (sendRoutes p s).ports = s.ports ∧ (sendRoutes p s).pool = s.pool ∧ (sendRoutes p s).lanes = s.lanes ∧ (sendRoutes p s).map = s.map ∧ (sendRoutes p s).dial = s.dial ∧ (sendRoutes p s).mon = s.mon ∧ (sendRoutes p s).alarms = s.alarms ∧ (sendRoutes p s).faults = s.faults ∧ (sendRoutes p s).test = s.test ∧ (sendRoutes p s).pins = s.pins ∧ (sendRoutes p s).bulk = s.bulk ∧ (sendRoutes p s).free = s.free ∧ (sendRoutes p s).pending = s.pending := by
  simp only [sendRoutes]; (repeat' split) <;> simp
@[simp] theorem sendAllRoutes_sys (s : State) :
    (sendAllRoutes s).sys = s.sys := eachPort_sys _ _ fun p s => by split <;> simp
@[simp] theorem sendAllRoutes_power (s : State) :
    (sendAllRoutes s).power = s.power := eachPort_power _ _ fun p s => by split <;> simp
@[simp] theorem sendAllRoutes_mbx (s : State) :
    (sendAllRoutes s).mbx = s.mbx := eachPort_mbx _ _ fun p s => by split <;> simp
@[simp] theorem sendAllRoutes_twi (s : State) :
    (sendAllRoutes s).twi = s.twi := eachPort_twi _ _ fun p s => by split <;> simp
@[simp] theorem sendAllRoutes_ports (s : State) :
    (sendAllRoutes s).ports = s.ports := eachPort_ports _ _ fun p s => by split <;> simp
@[simp] theorem sendAllRoutes_pool (s : State) :
    (sendAllRoutes s).pool = s.pool := eachPort_pool _ _ fun p s => by split <;> simp
@[simp] theorem sendAllRoutes_lanes (s : State) :
    (sendAllRoutes s).lanes = s.lanes := eachPort_lanes _ _ fun p s => by split <;> simp
@[simp] theorem sendAllRoutes_map (s : State) :
    (sendAllRoutes s).map = s.map := eachPort_map _ _ fun p s => by split <;> simp
@[simp] theorem sendAllRoutes_dial (s : State) :
    (sendAllRoutes s).dial = s.dial := eachPort_dial _ _ fun p s => by split <;> simp
@[simp] theorem sendAllRoutes_mon (s : State) :
    (sendAllRoutes s).mon = s.mon := eachPort_mon _ _ fun p s => by split <;> simp
@[simp] theorem sendAllRoutes_alarms (s : State) :
    (sendAllRoutes s).alarms = s.alarms := eachPort_alarms _ _ fun p s => by split <;> simp
@[simp] theorem sendAllRoutes_faults (s : State) :
    (sendAllRoutes s).faults = s.faults := eachPort_faults _ _ fun p s => by split <;> simp
@[simp] theorem sendAllRoutes_test (s : State) :
    (sendAllRoutes s).test = s.test := eachPort_test _ _ fun p s => by split <;> simp
@[simp] theorem sendAllRoutes_pins (s : State) :
    (sendAllRoutes s).pins = s.pins := eachPort_pins _ _ fun p s => by split <;> simp
@[simp] theorem sendAllRoutes_bulk (s : State) :
    (sendAllRoutes s).bulk = s.bulk := eachPort_bulk _ _ fun p s => by split <;> simp
@[simp] theorem sendAllRoutes_free (s : State) :
    (sendAllRoutes s).free = s.free := eachPort_free _ _ fun p s => by split <;> simp
@[simp] theorem sendAllRoutes_pending (s : State) :
    (sendAllRoutes s).pending = s.pending := eachPort_pending _ _ fun p s => by split <;> simp
@[simp] theorem routeTimer_keeps (s : State) :
    (routeTimer s).sys = s.sys ∧ (routeTimer s).power = s.power ∧ (routeTimer s).mbx = s.mbx ∧ (routeTimer s).twi = s.twi ∧ (routeTimer s).ports = s.ports ∧ (routeTimer s).pool = s.pool ∧ (routeTimer s).lanes = s.lanes ∧ (routeTimer s).map = s.map ∧ (routeTimer s).dial = s.dial ∧ (routeTimer s).mon = s.mon ∧ (routeTimer s).alarms = s.alarms ∧ (routeTimer s).faults = s.faults ∧ (routeTimer s).test = s.test ∧ (routeTimer s).pins = s.pins ∧ (routeTimer s).bulk = s.bulk ∧ (routeTimer s).free = s.free ∧ (routeTimer s).pending = s.pending := by
  simp only [routeTimer]; (repeat' split) <;> simp
@[simp] theorem routeChangeSend_keeps (s : State) :
    (routeChangeSend s).sys = s.sys ∧ (routeChangeSend s).power = s.power ∧ (routeChangeSend s).mbx = s.mbx ∧ (routeChangeSend s).twi = s.twi ∧ (routeChangeSend s).ports = s.ports ∧ (routeChangeSend s).pool = s.pool ∧ (routeChangeSend s).lanes = s.lanes ∧ (routeChangeSend s).map = s.map ∧ (routeChangeSend s).dial = s.dial ∧ (routeChangeSend s).mon = s.mon ∧ (routeChangeSend s).alarms = s.alarms ∧ (routeChangeSend s).faults = s.faults ∧ (routeChangeSend s).test = s.test ∧ (routeChangeSend s).pins = s.pins ∧ (routeChangeSend s).bulk = s.bulk ∧ (routeChangeSend s).free = s.free ∧ (routeChangeSend s).pending = s.pending := by
  simp only [routeChangeSend]; (repeat' split) <;> simp
@[simp] theorem routeExpiry_keeps (node : BitVec 11) (s : State) :
    (routeExpiry node s).sys = s.sys ∧ (routeExpiry node s).power = s.power ∧ (routeExpiry node s).mbx = s.mbx ∧ (routeExpiry node s).twi = s.twi ∧ (routeExpiry node s).ports = s.ports ∧ (routeExpiry node s).pool = s.pool ∧ (routeExpiry node s).lanes = s.lanes ∧ (routeExpiry node s).map = s.map ∧ (routeExpiry node s).dial = s.dial ∧ (routeExpiry node s).mon = s.mon ∧ (routeExpiry node s).alarms = s.alarms ∧ (routeExpiry node s).faults = s.faults ∧ (routeExpiry node s).test = s.test ∧ (routeExpiry node s).pins = s.pins ∧ (routeExpiry node s).bulk = s.bulk ∧ (routeExpiry node s).free = s.free ∧ (routeExpiry node s).pending = s.pending := by
  simp only [routeExpiry]; (repeat' split) <;> simp
@[simp] theorem helloTimer_keeps (p : LPort) (s : State) :
    (helloTimer p s).sys = s.sys ∧ (helloTimer p s).power = s.power ∧ (helloTimer p s).mbx = s.mbx ∧ (helloTimer p s).twi = s.twi ∧ (helloTimer p s).ports = s.ports ∧ (helloTimer p s).pool = s.pool ∧ (helloTimer p s).lanes = s.lanes ∧ (helloTimer p s).map = s.map ∧ (helloTimer p s).dial = s.dial ∧ (helloTimer p s).mon = s.mon ∧ (helloTimer p s).alarms = s.alarms ∧ (helloTimer p s).faults = s.faults ∧ (helloTimer p s).test = s.test ∧ (helloTimer p s).pins = s.pins ∧ (helloTimer p s).bulk = s.bulk ∧ (helloTimer p s).free = s.free ∧ (helloTimer p s).pending = s.pending := by
  simp only [helloTimer]; (repeat' split) <;> simp
@[simp] theorem nodeSeen_keeps (src : BitVec 11) (seq : BitVec 16) (s : State) :
    (nodeSeen src seq s).sys = s.sys ∧ (nodeSeen src seq s).power = s.power ∧ (nodeSeen src seq s).twi = s.twi ∧ (nodeSeen src seq s).ports = s.ports ∧ (nodeSeen src seq s).pool = s.pool ∧ (nodeSeen src seq s).lanes = s.lanes ∧ (nodeSeen src seq s).map = s.map ∧ (nodeSeen src seq s).dial = s.dial ∧ (nodeSeen src seq s).mon = s.mon ∧ (nodeSeen src seq s).alarms = s.alarms ∧ (nodeSeen src seq s).faults = s.faults ∧ (nodeSeen src seq s).jrx = s.jrx ∧ (nodeSeen src seq s).test = s.test ∧ (nodeSeen src seq s).pins = s.pins ∧ (nodeSeen src seq s).bulk = s.bulk ∧ (nodeSeen src seq s).free = s.free ∧ (nodeSeen src seq s).pending = s.pending := by
  simp only [nodeSeen]; (repeat' split) <;> simp
@[simp] theorem endWait_keeps (w : JrxWait) (a : Answer) (s : State) :
    (endWait w a s).power = s.power ∧ (endWait w a s).twi = s.twi ∧ (endWait w a s).ports = s.ports ∧ (endWait w a s).pool = s.pool ∧ (endWait w a s).lanes = s.lanes ∧ (endWait w a s).map = s.map ∧ (endWait w a s).mon = s.mon ∧ (endWait w a s).alarms = s.alarms ∧ (endWait w a s).faults = s.faults ∧ (endWait w a s).test = s.test ∧ (endWait w a s).pins = s.pins ∧ (endWait w a s).bulk = s.bulk ∧ (endWait w a s).free = s.free ∧ (endWait w a s).pending = s.pending := by
  simp only [endWait]; (repeat' split) <;> simp
@[simp] theorem frameOwn_keeps (p : LPort) (f : Frame) (s : State) :
    (frameOwn p f s).power = s.power ∧ (frameOwn p f s).twi = s.twi ∧ (frameOwn p f s).ports = s.ports ∧ (frameOwn p f s).pool = s.pool ∧ (frameOwn p f s).lanes = s.lanes ∧ (frameOwn p f s).map = s.map ∧ (frameOwn p f s).mon = s.mon ∧ (frameOwn p f s).alarms = s.alarms ∧ (frameOwn p f s).faults = s.faults ∧ (frameOwn p f s).test = s.test ∧ (frameOwn p f s).pins = s.pins ∧ (frameOwn p f s).bulk = s.bulk ∧ (frameOwn p f s).free = s.free ∧ (frameOwn p f s).pending = s.pending := by
  simp only [frameOwn]; (repeat' split) <;> simp
@[simp] theorem frameLost_keeps (p : LPort) (f : Frame) (s : State) :
    (frameRelay.frameLost p f s).sys = s.sys ∧ (frameRelay.frameLost p f s).power = s.power ∧ (frameRelay.frameLost p f s).mbx = s.mbx ∧ (frameRelay.frameLost p f s).twi = s.twi ∧ (frameRelay.frameLost p f s).ports = s.ports ∧ (frameRelay.frameLost p f s).pool = s.pool ∧ (frameRelay.frameLost p f s).lanes = s.lanes ∧ (frameRelay.frameLost p f s).map = s.map ∧ (frameRelay.frameLost p f s).dial = s.dial ∧ (frameRelay.frameLost p f s).mon = s.mon ∧ (frameRelay.frameLost p f s).alarms = s.alarms ∧ (frameRelay.frameLost p f s).faults = s.faults ∧ (frameRelay.frameLost p f s).test = s.test ∧ (frameRelay.frameLost p f s).pins = s.pins ∧ (frameRelay.frameLost p f s).bulk = s.bulk ∧ (frameRelay.frameLost p f s).free = s.free ∧ (frameRelay.frameLost p f s).pending = s.pending := by
  simp only [frameRelay.frameLost]; split <;> simp
@[simp] theorem frameRelay_keeps (p : LPort) (f : Frame) (s : State) :
    (frameRelay p f s).sys = s.sys ∧ (frameRelay p f s).power = s.power ∧ (frameRelay p f s).mbx = s.mbx ∧ (frameRelay p f s).twi = s.twi ∧ (frameRelay p f s).ports = s.ports ∧ (frameRelay p f s).pool = s.pool ∧ (frameRelay p f s).lanes = s.lanes ∧ (frameRelay p f s).map = s.map ∧ (frameRelay p f s).dial = s.dial ∧ (frameRelay p f s).mon = s.mon ∧ (frameRelay p f s).alarms = s.alarms ∧ (frameRelay p f s).faults = s.faults ∧ (frameRelay p f s).test = s.test ∧ (frameRelay p f s).pins = s.pins ∧ (frameRelay p f s).bulk = s.bulk ∧ (frameRelay p f s).free = s.free ∧ (frameRelay p f s).pending = s.pending := by
  refine ⟨?_, ?_, ?_, ?_, ?_, ?_, ?_, ?_, ?_, ?_, ?_, ?_, ?_, ?_, ?_, ?_, ?_⟩ <;> (simp only [frameRelay]; repeat' first | with_reducible rfl | (simp; done) | with_reducible refine (eachOf_sys _ _ _ ?_).trans ?_ | with_reducible refine (eachOf_power _ _ _ ?_).trans ?_ | with_reducible refine (eachOf_mbx _ _ _ ?_).trans ?_ | with_reducible refine (eachOf_twi _ _ _ ?_).trans ?_ | with_reducible refine (eachOf_ports _ _ _ ?_).trans ?_ | with_reducible refine (eachOf_pool _ _ _ ?_).trans ?_ | with_reducible refine (eachOf_lanes _ _ _ ?_).trans ?_ | with_reducible refine (eachOf_map _ _ _ ?_).trans ?_ | with_reducible refine (eachOf_dial _ _ _ ?_).trans ?_ | with_reducible refine (eachOf_mon _ _ _ ?_).trans ?_ | with_reducible refine (eachOf_alarms _ _ _ ?_).trans ?_ | with_reducible refine (eachOf_faults _ _ _ ?_).trans ?_ | with_reducible refine (eachOf_test _ _ _ ?_).trans ?_ | with_reducible refine (eachOf_pins _ _ _ ?_).trans ?_ | with_reducible refine (eachOf_bulk _ _ _ ?_).trans ?_ | with_reducible refine (eachOf_free _ _ _ ?_).trans ?_ | with_reducible refine (eachOf_pending _ _ _ ?_).trans ?_ | with_reducible refine (eachPort_sys _ _ ?_).trans ?_ | with_reducible refine (eachPort_power _ _ ?_).trans ?_ | with_reducible refine (eachPort_mbx _ _ ?_).trans ?_ | with_reducible refine (eachPort_twi _ _ ?_).trans ?_ | with_reducible refine (eachPort_ports _ _ ?_).trans ?_ | with_reducible refine (eachPort_pool _ _ ?_).trans ?_ | with_reducible refine (eachPort_lanes _ _ ?_).trans ?_ | with_reducible refine (eachPort_map _ _ ?_).trans ?_ | with_reducible refine (eachPort_dial _ _ ?_).trans ?_ | with_reducible refine (eachPort_mon _ _ ?_).trans ?_ | with_reducible refine (eachPort_alarms _ _ ?_).trans ?_ | with_reducible refine (eachPort_faults _ _ ?_).trans ?_ | with_reducible refine (eachPort_test _ _ ?_).trans ?_ | with_reducible refine (eachPort_pins _ _ ?_).trans ?_ | with_reducible refine (eachPort_bulk _ _ ?_).trans ?_ | with_reducible refine (eachPort_free _ _ ?_).trans ?_ | with_reducible refine (eachPort_pending _ _ ?_).trans ?_ | with_reducible refine (doIf_sys _ _ _ ?_).trans ?_ | with_reducible refine (doIf_power _ _ _ ?_).trans ?_ | with_reducible refine (doIf_mbx _ _ _ ?_).trans ?_ | with_reducible refine (doIf_twi _ _ _ ?_).trans ?_ | with_reducible refine (doIf_ports _ _ _ ?_).trans ?_ | with_reducible refine (doIf_pool _ _ _ ?_).trans ?_ | with_reducible refine (doIf_lanes _ _ _ ?_).trans ?_ | with_reducible refine (doIf_map _ _ _ ?_).trans ?_ | with_reducible refine (doIf_dial _ _ _ ?_).trans ?_ | with_reducible refine (doIf_mon _ _ _ ?_).trans ?_ | with_reducible refine (doIf_alarms _ _ _ ?_).trans ?_ | with_reducible refine (doIf_faults _ _ _ ?_).trans ?_ | with_reducible refine (doIf_test _ _ _ ?_).trans ?_ | with_reducible refine (doIf_pins _ _ _ ?_).trans ?_ | with_reducible refine (doIf_bulk _ _ _ ?_).trans ?_ | with_reducible refine (doIf_free _ _ _ ?_).trans ?_ | with_reducible refine (doIf_pending _ _ _ ?_).trans ?_ | with_reducible refine (command_twi _ _ _ _ _ _ ?_).trans ?_ | with_reducible refine (command_test _ _ _ _ _ _ ?_).trans ?_ | with_reducible refine (command_pins _ _ _ _ _ _ ?_).trans ?_ | with_reducible refine (command_bulk _ _ _ _ _ _ ?_).trans ?_ | with_reducible refine (command_pending _ _ _ _ _ _ ?_).trans ?_ | with_reducible refine (commandOk_twi _ _ _ _ _ _ ?_).trans ?_ | with_reducible refine (commandOk_test _ _ _ _ _ _ ?_).trans ?_ | with_reducible refine (commandOk_pins _ _ _ _ _ _ ?_).trans ?_ | with_reducible refine (commandOk_bulk _ _ _ _ _ _ ?_).trans ?_ | with_reducible refine (commandOk_pending _ _ _ _ _ _ ?_).trans ?_ | with_reducible refine (awaitReport_power _ _ _ _ _ ?_).trans ?_ | with_reducible refine (awaitReport_twi _ _ _ _ _ ?_).trans ?_ | with_reducible refine (awaitReport_ports _ _ _ _ _ ?_).trans ?_ | with_reducible refine (awaitReport_pool _ _ _ _ _ ?_).trans ?_ | with_reducible refine (awaitReport_lanes _ _ _ _ _ ?_).trans ?_ | with_reducible refine (awaitReport_map _ _ _ _ _ ?_).trans ?_ | with_reducible refine (awaitReport_dial _ _ _ _ _ ?_).trans ?_ | with_reducible refine (awaitReport_mon _ _ _ _ _ ?_).trans ?_ | with_reducible refine (awaitReport_alarms _ _ _ _ _ ?_).trans ?_ | with_reducible refine (awaitReport_faults _ _ _ _ _ ?_).trans ?_ | with_reducible refine (awaitReport_test _ _ _ _ _ ?_).trans ?_ | with_reducible refine (awaitReport_pins _ _ _ _ _ ?_).trans ?_ | with_reducible refine (awaitReport_bulk _ _ _ _ _ ?_).trans ?_ | with_reducible refine (awaitReport_free _ _ _ _ _ ?_).trans ?_ | with_reducible refine (awaitReport_pending _ _ _ _ _ ?_).trans ?_ | with_reducible refine (report_twi _ _ _ _ _ _ ?_).trans ?_ | with_reducible refine (report_test _ _ _ _ _ _ ?_).trans ?_ | with_reducible refine (report_pins _ _ _ _ _ _ ?_).trans ?_ | with_reducible refine (report_bulk _ _ _ _ _ _ ?_).trans ?_ | with_reducible refine (report_pending _ _ _ _ _ _ ?_).trans ?_ | intro _ | split | simp)
@[simp] theorem frameIn_keeps (p : LPort) (ws : List Word) (s : State) :
    (frameIn p ws s).power = s.power ∧ (frameIn p ws s).twi = s.twi ∧ (frameIn p ws s).ports = s.ports ∧ (frameIn p ws s).lanes = s.lanes ∧ (frameIn p ws s).map = s.map ∧ (frameIn p ws s).mon = s.mon ∧ (frameIn p ws s).faults = s.faults ∧ (frameIn p ws s).test = s.test ∧ (frameIn p ws s).pins = s.pins ∧ (frameIn p ws s).bulk = s.bulk ∧ (frameIn p ws s).free = s.free ∧ (frameIn p ws s).pending = s.pending := by
  simp only [frameIn]; (repeat' split) <;> simp
@[simp] theorem cellIn_keeps (p : LPort) (cell : List Word) (s : State) :
    (cellIn p cell s).power = s.power ∧ (cellIn p cell s).twi = s.twi ∧ (cellIn p cell s).ports = s.ports ∧ (cellIn p cell s).lanes = s.lanes ∧ (cellIn p cell s).map = s.map ∧ (cellIn p cell s).mon = s.mon ∧ (cellIn p cell s).faults = s.faults ∧ (cellIn p cell s).test = s.test ∧ (cellIn p cell s).pins = s.pins ∧ (cellIn p cell s).bulk = s.bulk ∧ (cellIn p cell s).free = s.free ∧ (cellIn p cell s).pending = s.pending := by
  simp only [cellIn]; (repeat' split) <;> simp
@[simp] theorem cellLost_keeps (p : LPort) (s : State) :
    (cellLost p s).sys = s.sys ∧ (cellLost p s).power = s.power ∧ (cellLost p s).mbx = s.mbx ∧ (cellLost p s).twi = s.twi ∧ (cellLost p s).ports = s.ports ∧ (cellLost p s).pool = s.pool ∧ (cellLost p s).lanes = s.lanes ∧ (cellLost p s).map = s.map ∧ (cellLost p s).dial = s.dial ∧ (cellLost p s).mon = s.mon ∧ (cellLost p s).alarms = s.alarms ∧ (cellLost p s).faults = s.faults ∧ (cellLost p s).test = s.test ∧ (cellLost p s).pins = s.pins ∧ (cellLost p s).bulk = s.bulk ∧ (cellLost p s).free = s.free ∧ (cellLost p s).pending = s.pending := by
  simp only [cellLost]; (repeat' split) <;> simp
@[simp] theorem jrxMbxDrop_keeps (j : Fin 4) (s : State) :
    (jrxMbxDrop j s).sys = s.sys ∧ (jrxMbxDrop j s).power = s.power ∧ (jrxMbxDrop j s).twi = s.twi ∧ (jrxMbxDrop j s).ports = s.ports ∧ (jrxMbxDrop j s).pool = s.pool ∧ (jrxMbxDrop j s).lanes = s.lanes ∧ (jrxMbxDrop j s).map = s.map ∧ (jrxMbxDrop j s).dial = s.dial ∧ (jrxMbxDrop j s).mon = s.mon ∧ (jrxMbxDrop j s).alarms = s.alarms ∧ (jrxMbxDrop j s).faults = s.faults ∧ (jrxMbxDrop j s).test = s.test ∧ (jrxMbxDrop j s).pins = s.pins ∧ (jrxMbxDrop j s).bulk = s.bulk ∧ (jrxMbxDrop j s).free = s.free ∧ (jrxMbxDrop j s).pending = s.pending := by
  simp only [jrxMbxDrop]; (repeat' split) <;> simp
@[simp] theorem jrxConfig_keeps (rq : Req) (s : State) :
    (jrxConfig rq s).twi = s.twi ∧ (jrxConfig rq s).test = s.test ∧ (jrxConfig rq s).pins = s.pins ∧ (jrxConfig rq s).bulk = s.bulk ∧ (jrxConfig rq s).pending = s.pending := by
  refine ⟨?_, ?_, ?_, ?_, ?_⟩ <;> (simp only [jrxConfig]; repeat' first | with_reducible rfl | (simp; done) | with_reducible refine (eachOf_twi _ _ _ ?_).trans ?_ | with_reducible refine (eachOf_test _ _ _ ?_).trans ?_ | with_reducible refine (eachOf_pins _ _ _ ?_).trans ?_ | with_reducible refine (eachOf_bulk _ _ _ ?_).trans ?_ | with_reducible refine (eachOf_pending _ _ _ ?_).trans ?_ | with_reducible refine (eachPort_twi _ _ ?_).trans ?_ | with_reducible refine (eachPort_test _ _ ?_).trans ?_ | with_reducible refine (eachPort_pins _ _ ?_).trans ?_ | with_reducible refine (eachPort_bulk _ _ ?_).trans ?_ | with_reducible refine (eachPort_pending _ _ ?_).trans ?_ | with_reducible refine (doIf_twi _ _ _ ?_).trans ?_ | with_reducible refine (doIf_test _ _ _ ?_).trans ?_ | with_reducible refine (doIf_pins _ _ _ ?_).trans ?_ | with_reducible refine (doIf_bulk _ _ _ ?_).trans ?_ | with_reducible refine (doIf_pending _ _ _ ?_).trans ?_ | with_reducible refine (command_twi _ _ _ _ _ _ ?_).trans ?_ | with_reducible refine (command_test _ _ _ _ _ _ ?_).trans ?_ | with_reducible refine (command_pins _ _ _ _ _ _ ?_).trans ?_ | with_reducible refine (command_bulk _ _ _ _ _ _ ?_).trans ?_ | with_reducible refine (command_pending _ _ _ _ _ _ ?_).trans ?_ | with_reducible refine (commandOk_twi _ _ _ _ _ _ ?_).trans ?_ | with_reducible refine (commandOk_test _ _ _ _ _ _ ?_).trans ?_ | with_reducible refine (commandOk_pins _ _ _ _ _ _ ?_).trans ?_ | with_reducible refine (commandOk_bulk _ _ _ _ _ _ ?_).trans ?_ | with_reducible refine (commandOk_pending _ _ _ _ _ _ ?_).trans ?_ | with_reducible refine (awaitReport_twi _ _ _ _ _ ?_).trans ?_ | with_reducible refine (awaitReport_test _ _ _ _ _ ?_).trans ?_ | with_reducible refine (awaitReport_pins _ _ _ _ _ ?_).trans ?_ | with_reducible refine (awaitReport_bulk _ _ _ _ _ ?_).trans ?_ | with_reducible refine (awaitReport_pending _ _ _ _ _ ?_).trans ?_ | with_reducible refine (report_twi _ _ _ _ _ _ ?_).trans ?_ | with_reducible refine (report_test _ _ _ _ _ _ ?_).trans ?_ | with_reducible refine (report_pins _ _ _ _ _ _ ?_).trans ?_ | with_reducible refine (report_bulk _ _ _ _ _ _ ?_).trans ?_ | with_reducible refine (report_pending _ _ _ _ _ _ ?_).trans ?_ | intro _ | split | simp)
@[simp] theorem jrxSend_keeps (rq : Req) (s : State) :
    (jrxSend rq s).twi = s.twi ∧ (jrxSend rq s).test = s.test ∧ (jrxSend rq s).pins = s.pins ∧ (jrxSend rq s).bulk = s.bulk ∧ (jrxSend rq s).pending = s.pending := by
  simp only [jrxSend]; (repeat' split) <;> simp
@[simp] theorem jrxSendTimeout_keeps (dest : BitVec 11) (ch : Fin 4) (s : State) :
    (jrxSendTimeout dest ch s).power = s.power ∧ (jrxSendTimeout dest ch s).twi = s.twi ∧ (jrxSendTimeout dest ch s).ports = s.ports ∧ (jrxSendTimeout dest ch s).pool = s.pool ∧ (jrxSendTimeout dest ch s).lanes = s.lanes ∧ (jrxSendTimeout dest ch s).map = s.map ∧ (jrxSendTimeout dest ch s).mon = s.mon ∧ (jrxSendTimeout dest ch s).alarms = s.alarms ∧ (jrxSendTimeout dest ch s).faults = s.faults ∧ (jrxSendTimeout dest ch s).test = s.test ∧ (jrxSendTimeout dest ch s).pins = s.pins ∧ (jrxSendTimeout dest ch s).bulk = s.bulk ∧ (jrxSendTimeout dest ch s).free = s.free ∧ (jrxSendTimeout dest ch s).pending = s.pending := by
  simp only [jrxSendTimeout]; (repeat' split) <;> simp
@[simp] theorem jrxPeersAnswer_power (rq : Req) (s : State) : (jrxPeersAnswer rq s).power = s.power := by
  unfold jrxPeersAnswer
  dsimp only
  split
  · exact (reply_keeps _ _ _ _).1.trans (putBulk_power _ _ _)
  · exact (reply_keeps _ _ _ _).1
@[simp] theorem jrxPeersAnswer_twi (rq : Req) (s : State) : (jrxPeersAnswer rq s).twi = s.twi := by
  unfold jrxPeersAnswer
  dsimp only
  split
  · exact (reply_keeps _ _ _ _).2.1.trans (putBulk_twi _ _ _)
  · exact (reply_keeps _ _ _ _).2.1
@[simp] theorem jrxPeersAnswer_ports (rq : Req) (s : State) : (jrxPeersAnswer rq s).ports = s.ports := by
  unfold jrxPeersAnswer
  dsimp only
  split
  · exact (reply_keeps _ _ _ _).2.2.1.trans (putBulk_ports _ _ _)
  · exact (reply_keeps _ _ _ _).2.2.1
@[simp] theorem jrxPeersAnswer_pool (rq : Req) (s : State) : (jrxPeersAnswer rq s).pool = s.pool := by
  unfold jrxPeersAnswer
  dsimp only
  split
  · exact (reply_keeps _ _ _ _).2.2.2.1.trans (putBulk_pool _ _ _)
  · exact (reply_keeps _ _ _ _).2.2.2.1
@[simp] theorem jrxPeersAnswer_lanes (rq : Req) (s : State) : (jrxPeersAnswer rq s).lanes = s.lanes := by
  unfold jrxPeersAnswer
  dsimp only
  split
  · exact (reply_keeps _ _ _ _).2.2.2.2.1.trans (putBulk_lanes _ _ _)
  · exact (reply_keeps _ _ _ _).2.2.2.2.1
@[simp] theorem jrxPeersAnswer_map (rq : Req) (s : State) : (jrxPeersAnswer rq s).map = s.map := by
  unfold jrxPeersAnswer
  dsimp only
  split
  · exact (reply_keeps _ _ _ _).2.2.2.2.2.1.trans (putBulk_map _ _ _)
  · exact (reply_keeps _ _ _ _).2.2.2.2.2.1
@[simp] theorem jrxPeersAnswer_mon (rq : Req) (s : State) : (jrxPeersAnswer rq s).mon = s.mon := by
  unfold jrxPeersAnswer
  dsimp only
  split
  · exact (reply_keeps _ _ _ _).2.2.2.2.2.2.1.trans (putBulk_mon _ _ _)
  · exact (reply_keeps _ _ _ _).2.2.2.2.2.2.1
@[simp] theorem jrxPeersAnswer_alarms (rq : Req) (s : State) : (jrxPeersAnswer rq s).alarms = s.alarms := by
  unfold jrxPeersAnswer
  dsimp only
  split
  · exact (reply_keeps _ _ _ _).2.2.2.2.2.2.2.1.trans (putBulk_alarms _ _ _)
  · exact (reply_keeps _ _ _ _).2.2.2.2.2.2.2.1
@[simp] theorem jrxPeersAnswer_faults (rq : Req) (s : State) : (jrxPeersAnswer rq s).faults = s.faults := by
  unfold jrxPeersAnswer
  dsimp only
  split
  · exact (reply_keeps _ _ _ _).2.2.2.2.2.2.2.2.1.trans (putBulk_faults _ _ _)
  · exact (reply_keeps _ _ _ _).2.2.2.2.2.2.2.2.1
@[simp] theorem jrxPeersAnswer_test (rq : Req) (s : State) : (jrxPeersAnswer rq s).test = s.test := by
  unfold jrxPeersAnswer
  dsimp only
  split
  · exact (reply_keeps _ _ _ _).2.2.2.2.2.2.2.2.2.1.trans (putBulk_test _ _ _)
  · exact (reply_keeps _ _ _ _).2.2.2.2.2.2.2.2.2.1
@[simp] theorem jrxPeersAnswer_pins (rq : Req) (s : State) : (jrxPeersAnswer rq s).pins = s.pins := by
  unfold jrxPeersAnswer
  dsimp only
  split
  · exact (reply_keeps _ _ _ _).2.2.2.2.2.2.2.2.2.2.1.trans (putBulk_pins _ _ _)
  · exact (reply_keeps _ _ _ _).2.2.2.2.2.2.2.2.2.2.1
@[simp] theorem jrxPeersAnswer_free (rq : Req) (s : State) : (jrxPeersAnswer rq s).free = s.free := by
  unfold jrxPeersAnswer
  dsimp only
  split
  · exact (reply_keeps _ _ _ _).2.2.2.2.2.2.2.2.2.2.2.2.1.trans (putBulk_free _ _ _)
  · exact (reply_keeps _ _ _ _).2.2.2.2.2.2.2.2.2.2.2.2.1
@[simp] theorem jrxPeersAnswer_pending (rq : Req) (s : State) : (jrxPeersAnswer rq s).pending = s.pending := by
  unfold jrxPeersAnswer
  dsimp only
  split
  · exact (reply_keeps _ _ _ _).2.2.2.2.2.2.2.2.2.2.2.2.2.trans (putBulk_pending _ _ _)
  · exact (reply_keeps _ _ _ _).2.2.2.2.2.2.2.2.2.2.2.2.2
@[simp] theorem jrxPeers_keeps (rq : Req) (s : State) :
    (jrxPeers rq s).twi = s.twi ∧ (jrxPeers rq s).test = s.test ∧ (jrxPeers rq s).pins = s.pins ∧ (jrxPeers rq s).pending = s.pending := by
  simp only [jrxPeers]; (repeat' split) <;> simp
@[simp] theorem jrxStatusAnswer_keeps (rq : Req) (s : State) :
    (jrxStatusAnswer rq s).power = s.power ∧ (jrxStatusAnswer rq s).twi = s.twi ∧ (jrxStatusAnswer rq s).ports = s.ports ∧ (jrxStatusAnswer rq s).pool = s.pool ∧ (jrxStatusAnswer rq s).lanes = s.lanes ∧ (jrxStatusAnswer rq s).map = s.map ∧ (jrxStatusAnswer rq s).mon = s.mon ∧ (jrxStatusAnswer rq s).alarms = s.alarms ∧ (jrxStatusAnswer rq s).faults = s.faults ∧ (jrxStatusAnswer rq s).test = s.test ∧ (jrxStatusAnswer rq s).pins = s.pins ∧ (jrxStatusAnswer rq s).bulk = s.bulk ∧ (jrxStatusAnswer rq s).free = s.free ∧ (jrxStatusAnswer rq s).pending = s.pending := by
  simp only [jrxStatusAnswer]; (repeat' split) <;> simp
@[simp] theorem jrxStatus_keeps (rq : Req) (s : State) :
    (jrxStatus rq s).twi = s.twi ∧ (jrxStatus rq s).test = s.test ∧ (jrxStatus rq s).pins = s.pins ∧ (jrxStatus rq s).bulk = s.bulk ∧ (jrxStatus rq s).pending = s.pending := by
  simp only [jrxStatus]; (repeat' split) <;> simp

end Sys2Proof.Machine
end

