-- ==== Sys2Proof/Laws/FrameHost.lean ====
section
/-! SUPPORT. What reports, superframes, faults, boot, registers, the Dial and blobs leave alone, operation by operation. -/

namespace Sys2Proof.Machine

@[simp] theorem dialConfigAnswer_keeps (rq : Req) (s : State) :
    (dialConfigAnswer rq s).power = s.power ∧ (dialConfigAnswer rq s).twi = s.twi ∧ (dialConfigAnswer rq s).ports = s.ports ∧ (dialConfigAnswer rq s).pool = s.pool ∧ (dialConfigAnswer rq s).lanes = s.lanes ∧ (dialConfigAnswer rq s).map = s.map ∧ (dialConfigAnswer rq s).mon = s.mon ∧ (dialConfigAnswer rq s).alarms = s.alarms ∧ (dialConfigAnswer rq s).faults = s.faults ∧ (dialConfigAnswer rq s).test = s.test ∧ (dialConfigAnswer rq s).pins = s.pins ∧ (dialConfigAnswer rq s).bulk = s.bulk ∧ (dialConfigAnswer rq s).free = s.free ∧ (dialConfigAnswer rq s).pending = s.pending := by
  simp only [dialConfigAnswer]; (repeat' split) <;> simp
@[simp] theorem dialListAnswer_keeps (rq : Req) (s : State) :
    (dialListAnswer rq s).power = s.power ∧ (dialListAnswer rq s).twi = s.twi ∧ (dialListAnswer rq s).ports = s.ports ∧ (dialListAnswer rq s).pool = s.pool ∧ (dialListAnswer rq s).lanes = s.lanes ∧ (dialListAnswer rq s).map = s.map ∧ (dialListAnswer rq s).mon = s.mon ∧ (dialListAnswer rq s).alarms = s.alarms ∧ (dialListAnswer rq s).faults = s.faults ∧ (dialListAnswer rq s).test = s.test ∧ (dialListAnswer rq s).pins = s.pins ∧ (dialListAnswer rq s).free = s.free ∧ (dialListAnswer rq s).pending = s.pending := by
  simp only [dialListAnswer]; (repeat' split) <;> simp
@[simp] theorem dialTimeAnswer_keeps (rq : Req) (s : State) :
    (dialTimeAnswer rq s).power = s.power ∧ (dialTimeAnswer rq s).twi = s.twi ∧ (dialTimeAnswer rq s).ports = s.ports ∧ (dialTimeAnswer rq s).pool = s.pool ∧ (dialTimeAnswer rq s).lanes = s.lanes ∧ (dialTimeAnswer rq s).map = s.map ∧ (dialTimeAnswer rq s).mon = s.mon ∧ (dialTimeAnswer rq s).alarms = s.alarms ∧ (dialTimeAnswer rq s).faults = s.faults ∧ (dialTimeAnswer rq s).test = s.test ∧ (dialTimeAnswer rq s).pins = s.pins ∧ (dialTimeAnswer rq s).bulk = s.bulk ∧ (dialTimeAnswer rq s).free = s.free ∧ (dialTimeAnswer rq s).pending = s.pending := by
  simp only [dialTimeAnswer]; (repeat' split) <;> simp
@[simp] theorem alarmStatusAnswer_keeps (rq : Req) (s : State) :
    (alarmStatusAnswer rq s).power = s.power ∧ (alarmStatusAnswer rq s).twi = s.twi ∧ (alarmStatusAnswer rq s).ports = s.ports ∧ (alarmStatusAnswer rq s).lanes = s.lanes ∧ (alarmStatusAnswer rq s).map = s.map ∧ (alarmStatusAnswer rq s).mon = s.mon ∧ (alarmStatusAnswer rq s).faults = s.faults ∧ (alarmStatusAnswer rq s).test = s.test ∧ (alarmStatusAnswer rq s).pins = s.pins ∧ (alarmStatusAnswer rq s).bulk = s.bulk ∧ (alarmStatusAnswer rq s).free = s.free ∧ (alarmStatusAnswer rq s).pending = s.pending := by
  simp only [alarmStatusAnswer]; (repeat' split) <;> simp
@[simp] theorem faultLogAnswer_keeps (rq : Req) (s : State) :
    (faultLogAnswer rq s).power = s.power ∧ (faultLogAnswer rq s).twi = s.twi ∧ (faultLogAnswer rq s).ports = s.ports ∧ (faultLogAnswer rq s).pool = s.pool ∧ (faultLogAnswer rq s).lanes = s.lanes ∧ (faultLogAnswer rq s).map = s.map ∧ (faultLogAnswer rq s).mon = s.mon ∧ (faultLogAnswer rq s).alarms = s.alarms ∧ (faultLogAnswer rq s).faults = s.faults ∧ (faultLogAnswer rq s).test = s.test ∧ (faultLogAnswer rq s).pins = s.pins ∧ (faultLogAnswer rq s).free = s.free ∧ (faultLogAnswer rq s).pending = s.pending := by
  simp only [faultLogAnswer]; (repeat' split) <;> simp
@[simp] theorem takeReport_keeps (r : ReportWait) (s : State) :
    (takeReport r s).twi = s.twi ∧ (takeReport r s).ports = s.ports ∧ (takeReport r s).map = s.map ∧ (takeReport r s).mon = s.mon ∧ (takeReport r s).faults = s.faults ∧ (takeReport r s).test = s.test ∧ (takeReport r s).pins = s.pins ∧ (takeReport r s).pending = s.pending := by
  refine ⟨?_, ?_, ?_, ?_, ?_, ?_, ?_, ?_⟩ <;> (simp only [takeReport]; repeat' first | with_reducible rfl | (simp; done) | with_reducible refine (eachOf_twi _ _ _ ?_).trans ?_ | with_reducible refine (eachOf_ports _ _ _ ?_).trans ?_ | with_reducible refine (eachOf_map _ _ _ ?_).trans ?_ | with_reducible refine (eachOf_mon _ _ _ ?_).trans ?_ | with_reducible refine (eachOf_faults _ _ _ ?_).trans ?_ | with_reducible refine (eachOf_test _ _ _ ?_).trans ?_ | with_reducible refine (eachOf_pins _ _ _ ?_).trans ?_ | with_reducible refine (eachOf_pending _ _ _ ?_).trans ?_ | with_reducible refine (eachPort_twi _ _ ?_).trans ?_ | with_reducible refine (eachPort_ports _ _ ?_).trans ?_ | with_reducible refine (eachPort_map _ _ ?_).trans ?_ | with_reducible refine (eachPort_mon _ _ ?_).trans ?_ | with_reducible refine (eachPort_faults _ _ ?_).trans ?_ | with_reducible refine (eachPort_test _ _ ?_).trans ?_ | with_reducible refine (eachPort_pins _ _ ?_).trans ?_ | with_reducible refine (eachPort_pending _ _ ?_).trans ?_ | with_reducible refine (doIf_twi _ _ _ ?_).trans ?_ | with_reducible refine (doIf_ports _ _ _ ?_).trans ?_ | with_reducible refine (doIf_map _ _ _ ?_).trans ?_ | with_reducible refine (doIf_mon _ _ _ ?_).trans ?_ | with_reducible refine (doIf_faults _ _ _ ?_).trans ?_ | with_reducible refine (doIf_test _ _ _ ?_).trans ?_ | with_reducible refine (doIf_pins _ _ _ ?_).trans ?_ | with_reducible refine (doIf_pending _ _ _ ?_).trans ?_ | with_reducible refine (command_twi _ _ _ _ _ _ ?_).trans ?_ | with_reducible refine (command_test _ _ _ _ _ _ ?_).trans ?_ | with_reducible refine (command_pins _ _ _ _ _ _ ?_).trans ?_ | with_reducible refine (command_pending _ _ _ _ _ _ ?_).trans ?_ | with_reducible refine (commandOk_twi _ _ _ _ _ _ ?_).trans ?_ | with_reducible refine (commandOk_test _ _ _ _ _ _ ?_).trans ?_ | with_reducible refine (commandOk_pins _ _ _ _ _ _ ?_).trans ?_ | with_reducible refine (commandOk_pending _ _ _ _ _ _ ?_).trans ?_ | with_reducible refine (awaitReport_twi _ _ _ _ _ ?_).trans ?_ | with_reducible refine (awaitReport_ports _ _ _ _ _ ?_).trans ?_ | with_reducible refine (awaitReport_map _ _ _ _ _ ?_).trans ?_ | with_reducible refine (awaitReport_mon _ _ _ _ _ ?_).trans ?_ | with_reducible refine (awaitReport_faults _ _ _ _ _ ?_).trans ?_ | with_reducible refine (awaitReport_test _ _ _ _ _ ?_).trans ?_ | with_reducible refine (awaitReport_pins _ _ _ _ _ ?_).trans ?_ | with_reducible refine (awaitReport_pending _ _ _ _ _ ?_).trans ?_ | with_reducible refine (report_twi _ _ _ _ _ _ ?_).trans ?_ | with_reducible refine (report_test _ _ _ _ _ _ ?_).trans ?_ | with_reducible refine (report_pins _ _ _ _ _ _ ?_).trans ?_ | with_reducible refine (report_pending _ _ _ _ _ _ ?_).trans ?_ | intro _ | split | simp)
@[simp] theorem takeReports_keeps (ref : RefCode) (s : State) :
    (takeReports ref s).twi = s.twi ∧ (takeReports ref s).ports = s.ports ∧ (takeReports ref s).map = s.map ∧ (takeReports ref s).mon = s.mon ∧ (takeReports ref s).faults = s.faults ∧ (takeReports ref s).test = s.test ∧ (takeReports ref s).pins = s.pins ∧ (takeReports ref s).pending = s.pending := by
  simp only [takeReports]; (repeat' split) <;> simp

@[simp] theorem putSfoh_keeps (p : LPort) (cells : List Word) (open_ : Word) (s : State) :
    (putSfoh p cells open_ s).sys = s.sys ∧ (putSfoh p cells open_ s).power = s.power ∧ (putSfoh p cells open_ s).mbx = s.mbx ∧ (putSfoh p cells open_ s).twi = s.twi ∧ (putSfoh p cells open_ s).pool = s.pool ∧ (putSfoh p cells open_ s).lanes = s.lanes ∧ (putSfoh p cells open_ s).map = s.map ∧ (putSfoh p cells open_ s).dial = s.dial ∧ (putSfoh p cells open_ s).mon = s.mon ∧ (putSfoh p cells open_ s).alarms = s.alarms ∧ (putSfoh p cells open_ s).faults = s.faults ∧ (putSfoh p cells open_ s).jrx = s.jrx ∧ (putSfoh p cells open_ s).test = s.test ∧ (putSfoh p cells open_ s).pins = s.pins ∧ (putSfoh p cells open_ s).bulk = s.bulk ∧ (putSfoh p cells open_ s).free = s.free ∧ (putSfoh p cells open_ s).pending = s.pending := by
  simp only [putSfoh]; (repeat' split) <;> simp
@[simp] theorem sendSfoh_keeps (p : LPort) (s : State) :
    (sendSfoh p s).sys = s.sys ∧ (sendSfoh p s).power = s.power ∧ (sendSfoh p s).mbx = s.mbx ∧ (sendSfoh p s).twi = s.twi ∧ (sendSfoh p s).pool = s.pool ∧ (sendSfoh p s).lanes = s.lanes ∧ (sendSfoh p s).map = s.map ∧ (sendSfoh p s).dial = s.dial ∧ (sendSfoh p s).mon = s.mon ∧ (sendSfoh p s).alarms = s.alarms ∧ (sendSfoh p s).faults = s.faults ∧ (sendSfoh p s).test = s.test ∧ (sendSfoh p s).pins = s.pins ∧ (sendSfoh p s).bulk = s.bulk ∧ (sendSfoh p s).pending = s.pending := by
  refine ⟨?_, ?_, ?_, ?_, ?_, ?_, ?_, ?_, ?_, ?_, ?_, ?_, ?_, ?_, ?_⟩ <;> (simp only [sendSfoh]; repeat' first | with_reducible rfl | (simp; done) | with_reducible refine (eachOf_sys _ _ _ ?_).trans ?_ | with_reducible refine (eachOf_power _ _ _ ?_).trans ?_ | with_reducible refine (eachOf_mbx _ _ _ ?_).trans ?_ | with_reducible refine (eachOf_twi _ _ _ ?_).trans ?_ | with_reducible refine (eachOf_pool _ _ _ ?_).trans ?_ | with_reducible refine (eachOf_lanes _ _ _ ?_).trans ?_ | with_reducible refine (eachOf_map _ _ _ ?_).trans ?_ | with_reducible refine (eachOf_dial _ _ _ ?_).trans ?_ | with_reducible refine (eachOf_mon _ _ _ ?_).trans ?_ | with_reducible refine (eachOf_alarms _ _ _ ?_).trans ?_ | with_reducible refine (eachOf_faults _ _ _ ?_).trans ?_ | with_reducible refine (eachOf_test _ _ _ ?_).trans ?_ | with_reducible refine (eachOf_pins _ _ _ ?_).trans ?_ | with_reducible refine (eachOf_bulk _ _ _ ?_).trans ?_ | with_reducible refine (eachOf_pending _ _ _ ?_).trans ?_ | with_reducible refine (eachPort_sys _ _ ?_).trans ?_ | with_reducible refine (eachPort_power _ _ ?_).trans ?_ | with_reducible refine (eachPort_mbx _ _ ?_).trans ?_ | with_reducible refine (eachPort_twi _ _ ?_).trans ?_ | with_reducible refine (eachPort_pool _ _ ?_).trans ?_ | with_reducible refine (eachPort_lanes _ _ ?_).trans ?_ | with_reducible refine (eachPort_map _ _ ?_).trans ?_ | with_reducible refine (eachPort_dial _ _ ?_).trans ?_ | with_reducible refine (eachPort_mon _ _ ?_).trans ?_ | with_reducible refine (eachPort_alarms _ _ ?_).trans ?_ | with_reducible refine (eachPort_faults _ _ ?_).trans ?_ | with_reducible refine (eachPort_test _ _ ?_).trans ?_ | with_reducible refine (eachPort_pins _ _ ?_).trans ?_ | with_reducible refine (eachPort_bulk _ _ ?_).trans ?_ | with_reducible refine (eachPort_pending _ _ ?_).trans ?_ | with_reducible refine (doIf_sys _ _ _ ?_).trans ?_ | with_reducible refine (doIf_power _ _ _ ?_).trans ?_ | with_reducible refine (doIf_mbx _ _ _ ?_).trans ?_ | with_reducible refine (doIf_twi _ _ _ ?_).trans ?_ | with_reducible refine (doIf_pool _ _ _ ?_).trans ?_ | with_reducible refine (doIf_lanes _ _ _ ?_).trans ?_ | with_reducible refine (doIf_map _ _ _ ?_).trans ?_ | with_reducible refine (doIf_dial _ _ _ ?_).trans ?_ | with_reducible refine (doIf_mon _ _ _ ?_).trans ?_ | with_reducible refine (doIf_alarms _ _ _ ?_).trans ?_ | with_reducible refine (doIf_faults _ _ _ ?_).trans ?_ | with_reducible refine (doIf_test _ _ _ ?_).trans ?_ | with_reducible refine (doIf_pins _ _ _ ?_).trans ?_ | with_reducible refine (doIf_bulk _ _ _ ?_).trans ?_ | with_reducible refine (doIf_pending _ _ _ ?_).trans ?_ | with_reducible refine (command_twi _ _ _ _ _ _ ?_).trans ?_ | with_reducible refine (command_test _ _ _ _ _ _ ?_).trans ?_ | with_reducible refine (command_pins _ _ _ _ _ _ ?_).trans ?_ | with_reducible refine (command_bulk _ _ _ _ _ _ ?_).trans ?_ | with_reducible refine (command_pending _ _ _ _ _ _ ?_).trans ?_ | with_reducible refine (commandOk_twi _ _ _ _ _ _ ?_).trans ?_ | with_reducible refine (commandOk_test _ _ _ _ _ _ ?_).trans ?_ | with_reducible refine (commandOk_pins _ _ _ _ _ _ ?_).trans ?_ | with_reducible refine (commandOk_bulk _ _ _ _ _ _ ?_).trans ?_ | with_reducible refine (commandOk_pending _ _ _ _ _ _ ?_).trans ?_ | with_reducible refine (awaitReport_power _ _ _ _ _ ?_).trans ?_ | with_reducible refine (awaitReport_twi _ _ _ _ _ ?_).trans ?_ | with_reducible refine (awaitReport_pool _ _ _ _ _ ?_).trans ?_ | with_reducible refine (awaitReport_lanes _ _ _ _ _ ?_).trans ?_ | with_reducible refine (awaitReport_map _ _ _ _ _ ?_).trans ?_ | with_reducible refine (awaitReport_dial _ _ _ _ _ ?_).trans ?_ | with_reducible refine (awaitReport_mon _ _ _ _ _ ?_).trans ?_ | with_reducible refine (awaitReport_alarms _ _ _ _ _ ?_).trans ?_ | with_reducible refine (awaitReport_faults _ _ _ _ _ ?_).trans ?_ | with_reducible refine (awaitReport_test _ _ _ _ _ ?_).trans ?_ | with_reducible refine (awaitReport_pins _ _ _ _ _ ?_).trans ?_ | with_reducible refine (awaitReport_bulk _ _ _ _ _ ?_).trans ?_ | with_reducible refine (awaitReport_pending _ _ _ _ _ ?_).trans ?_ | with_reducible refine (report_twi _ _ _ _ _ _ ?_).trans ?_ | with_reducible refine (report_test _ _ _ _ _ _ ?_).trans ?_ | with_reducible refine (report_pins _ _ _ _ _ _ ?_).trans ?_ | with_reducible refine (report_bulk _ _ _ _ _ _ ?_).trans ?_ | with_reducible refine (report_pending _ _ _ _ _ _ ?_).trans ?_ | intro _ | split | simp)
@[simp] theorem refreshSfoh_keeps (p : LPort) (s : State) :
    (refreshSfoh p s).sys = s.sys ∧ (refreshSfoh p s).power = s.power ∧ (refreshSfoh p s).mbx = s.mbx ∧ (refreshSfoh p s).twi = s.twi ∧ (refreshSfoh p s).pool = s.pool ∧ (refreshSfoh p s).lanes = s.lanes ∧ (refreshSfoh p s).map = s.map ∧ (refreshSfoh p s).dial = s.dial ∧ (refreshSfoh p s).mon = s.mon ∧ (refreshSfoh p s).alarms = s.alarms ∧ (refreshSfoh p s).faults = s.faults ∧ (refreshSfoh p s).jrx = s.jrx ∧ (refreshSfoh p s).test = s.test ∧ (refreshSfoh p s).pins = s.pins ∧ (refreshSfoh p s).bulk = s.bulk ∧ (refreshSfoh p s).free = s.free ∧ (refreshSfoh p s).pending = s.pending := by
  simp only [refreshSfoh]; (repeat' split) <;> simp
@[simp] theorem forwardingStart_keeps (m : LPort) (extraNs : Nat) (s : State) :
    (forwardingStart m extraNs s).sys = s.sys ∧ (forwardingStart m extraNs s).power = s.power ∧ (forwardingStart m extraNs s).mbx = s.mbx ∧ (forwardingStart m extraNs s).twi = s.twi ∧ (forwardingStart m extraNs s).pool = s.pool ∧ (forwardingStart m extraNs s).lanes = s.lanes ∧ (forwardingStart m extraNs s).map = s.map ∧ (forwardingStart m extraNs s).dial = s.dial ∧ (forwardingStart m extraNs s).mon = s.mon ∧ (forwardingStart m extraNs s).alarms = s.alarms ∧ (forwardingStart m extraNs s).faults = s.faults ∧ (forwardingStart m extraNs s).jrx = s.jrx ∧ (forwardingStart m extraNs s).test = s.test ∧ (forwardingStart m extraNs s).pins = s.pins ∧ (forwardingStart m extraNs s).bulk = s.bulk ∧ (forwardingStart m extraNs s).free = s.free ∧ (forwardingStart m extraNs s).pending = s.pending := by
  simp only [forwardingStart]; (repeat' split) <;> simp
@[simp] theorem txClient_keeps (p : LPort) (o : TxObs) (c : Client) (s : State) :
    (txClient p o c s).sys = s.sys ∧ (txClient p o c s).power = s.power ∧ (txClient p o c s).mbx = s.mbx ∧ (txClient p o c s).twi = s.twi ∧ (txClient p o c s).ports = s.ports ∧ (txClient p o c s).pool = s.pool ∧ (txClient p o c s).lanes = s.lanes ∧ (txClient p o c s).dial = s.dial ∧ (txClient p o c s).mon = s.mon ∧ (txClient p o c s).alarms = s.alarms ∧ (txClient p o c s).faults = s.faults ∧ (txClient p o c s).jrx = s.jrx ∧ (txClient p o c s).test = s.test ∧ (txClient p o c s).pins = s.pins ∧ (txClient p o c s).bulk = s.bulk ∧ (txClient p o c s).free = s.free ∧ (txClient p o c s).pending = s.pending := by
  simp only [txClient]; (repeat' split) <;> simp
@[simp] theorem closeSent_keeps (p : LPort) (o : TxObs) (s : State) :
    (closeSent p o s).sys = s.sys ∧ (closeSent p o s).power = s.power ∧ (closeSent p o s).mbx = s.mbx ∧ (closeSent p o s).twi = s.twi ∧ (closeSent p o s).pool = s.pool ∧ (closeSent p o s).lanes = s.lanes ∧ (closeSent p o s).map = s.map ∧ (closeSent p o s).dial = s.dial ∧ (closeSent p o s).mon = s.mon ∧ (closeSent p o s).alarms = s.alarms ∧ (closeSent p o s).faults = s.faults ∧ (closeSent p o s).jrx = s.jrx ∧ (closeSent p o s).test = s.test ∧ (closeSent p o s).pins = s.pins ∧ (closeSent p o s).bulk = s.bulk ∧ (closeSent p o s).free = s.free ∧ (closeSent p o s).pending = s.pending := by
  simp only [closeSent]; (repeat' split) <;> simp
@[simp] theorem hostCounts_keeps (o : TxObs) (s : State) :
    (hostCounts o s).sys = s.sys ∧ (hostCounts o s).power = s.power ∧ (hostCounts o s).mbx = s.mbx ∧ (hostCounts o s).twi = s.twi ∧ (hostCounts o s).ports = s.ports ∧ (hostCounts o s).pool = s.pool ∧ (hostCounts o s).dial = s.dial ∧ (hostCounts o s).mon = s.mon ∧ (hostCounts o s).alarms = s.alarms ∧ (hostCounts o s).faults = s.faults ∧ (hostCounts o s).jrx = s.jrx ∧ (hostCounts o s).test = s.test ∧ (hostCounts o s).pins = s.pins ∧ (hostCounts o s).bulk = s.bulk ∧ (hostCounts o s).free = s.free ∧ (hostCounts o s).pending = s.pending := by
  simp only [hostCounts]; (repeat' split) <;> simp
@[simp] theorem deafClients_keeps (p : LPort) (s : State) :
    (deafClients p s).sys = s.sys ∧ (deafClients p s).power = s.power ∧ (deafClients p s).mbx = s.mbx ∧ (deafClients p s).twi = s.twi ∧ (deafClients p s).ports = s.ports ∧ (deafClients p s).pool = s.pool ∧ (deafClients p s).lanes = s.lanes ∧ (deafClients p s).dial = s.dial ∧ (deafClients p s).mon = s.mon ∧ (deafClients p s).alarms = s.alarms ∧ (deafClients p s).faults = s.faults ∧ (deafClients p s).jrx = s.jrx ∧ (deafClients p s).test = s.test ∧ (deafClients p s).pins = s.pins ∧ (deafClients p s).bulk = s.bulk ∧ (deafClients p s).free = s.free ∧ (deafClients p s).pending = s.pending := by
  simp only [deafClients]; (repeat' split) <;> simp
@[simp] theorem keyStep_keeps (p : LPort) (s : State) :
    (keyStep p s).sys = s.sys ∧ (keyStep p s).power = s.power ∧ (keyStep p s).mbx = s.mbx ∧ (keyStep p s).twi = s.twi ∧ (keyStep p s).pool = s.pool ∧ (keyStep p s).lanes = s.lanes ∧ (keyStep p s).map = s.map ∧ (keyStep p s).dial = s.dial ∧ (keyStep p s).mon = s.mon ∧ (keyStep p s).alarms = s.alarms ∧ (keyStep p s).faults = s.faults ∧ (keyStep p s).jrx = s.jrx ∧ (keyStep p s).test = s.test ∧ (keyStep p s).pins = s.pins ∧ (keyStep p s).bulk = s.bulk ∧ (keyStep p s).free = s.free ∧ (keyStep p s).pending = s.pending := by
  simp only [keyStep]; (repeat' split) <;> simp
@[simp] theorem slewToRef_keeps (p : LPort) (s : State) :
    (slewToRef p s).sys = s.sys ∧ (slewToRef p s).power = s.power ∧ (slewToRef p s).mbx = s.mbx ∧ (slewToRef p s).twi = s.twi ∧ (slewToRef p s).pool = s.pool ∧ (slewToRef p s).lanes = s.lanes ∧ (slewToRef p s).map = s.map ∧ (slewToRef p s).dial = s.dial ∧ (slewToRef p s).mon = s.mon ∧ (slewToRef p s).alarms = s.alarms ∧ (slewToRef p s).faults = s.faults ∧ (slewToRef p s).jrx = s.jrx ∧ (slewToRef p s).test = s.test ∧ (slewToRef p s).pins = s.pins ∧ (slewToRef p s).bulk = s.bulk ∧ (slewToRef p s).free = s.free ∧ (slewToRef p s).pending = s.pending := by
  simp only [slewToRef]; (repeat' split) <;> simp
@[simp] theorem startTraces_keeps (p : LPort) (s : State) :
    (startTraces p s).sys = s.sys ∧ (startTraces p s).power = s.power ∧ (startTraces p s).mbx = s.mbx ∧ (startTraces p s).twi = s.twi ∧ (startTraces p s).pool = s.pool ∧ (startTraces p s).lanes = s.lanes ∧ (startTraces p s).map = s.map ∧ (startTraces p s).dial = s.dial ∧ (startTraces p s).mon = s.mon ∧ (startTraces p s).alarms = s.alarms ∧ (startTraces p s).faults = s.faults ∧ (startTraces p s).jrx = s.jrx ∧ (startTraces p s).test = s.test ∧ (startTraces p s).pins = s.pins ∧ (startTraces p s).bulk = s.bulk ∧ (startTraces p s).free = s.free ∧ (startTraces p s).pending = s.pending := by
  simp only [startTraces]; (repeat' split) <;> simp
@[simp] theorem heldStep_keeps (p : LPort) (s : State) :
    (heldStep p s).sys = s.sys ∧ (heldStep p s).power = s.power ∧ (heldStep p s).mbx = s.mbx ∧ (heldStep p s).twi = s.twi ∧ (heldStep p s).pool = s.pool ∧ (heldStep p s).lanes = s.lanes ∧ (heldStep p s).map = s.map ∧ (heldStep p s).dial = s.dial ∧ (heldStep p s).mon = s.mon ∧ (heldStep p s).alarms = s.alarms ∧ (heldStep p s).faults = s.faults ∧ (heldStep p s).jrx = s.jrx ∧ (heldStep p s).test = s.test ∧ (heldStep p s).pins = s.pins ∧ (heldStep p s).bulk = s.bulk ∧ (heldStep p s).free = s.free ∧ (heldStep p s).pending = s.pending := by
  simp only [heldStep]; (repeat' split) <;> simp
@[simp] theorem txEnd_keeps (p : LPort) (o : TxObs) (s : State) :
    (txEnd p o s).sys = s.sys ∧ (txEnd p o s).power = s.power ∧ (txEnd p o s).mbx = s.mbx ∧ (txEnd p o s).twi = s.twi ∧ (txEnd p o s).pool = s.pool ∧ (txEnd p o s).dial = s.dial ∧ (txEnd p o s).mon = s.mon ∧ (txEnd p o s).alarms = s.alarms ∧ (txEnd p o s).faults = s.faults ∧ (txEnd p o s).jrx = s.jrx ∧ (txEnd p o s).test = s.test ∧ (txEnd p o s).pins = s.pins ∧ (txEnd p o s).bulk = s.bulk ∧ (txEnd p o s).free = s.free ∧ (txEnd p o s).pending = s.pending := by
  simp only [txEnd]; (repeat' split) <;> simp
@[simp] theorem txCount_keeps (p : LPort) (s : State) :
    (txCount p s).sys = s.sys ∧ (txCount p s).power = s.power ∧ (txCount p s).mbx = s.mbx ∧ (txCount p s).twi = s.twi ∧ (txCount p s).pool = s.pool ∧ (txCount p s).lanes = s.lanes ∧ (txCount p s).map = s.map ∧ (txCount p s).dial = s.dial ∧ (txCount p s).mon = s.mon ∧ (txCount p s).alarms = s.alarms ∧ (txCount p s).faults = s.faults ∧ (txCount p s).jrx = s.jrx ∧ (txCount p s).test = s.test ∧ (txCount p s).pins = s.pins ∧ (txCount p s).bulk = s.bulk ∧ (txCount p s).free = s.free ∧ (txCount p s).pending = s.pending := by
  simp only [txCount]; (repeat' split) <;> simp
@[simp] theorem txUnlocked_keeps (p : LPort) (o : TxObs) (s : State) :
    (txUnlocked p o s).sys = s.sys ∧ (txUnlocked p o s).power = s.power ∧ (txUnlocked p o s).twi = s.twi ∧ (txUnlocked p o s).lanes = s.lanes ∧ (txUnlocked p o s).map = s.map ∧ (txUnlocked p o s).dial = s.dial ∧ (txUnlocked p o s).mon = s.mon ∧ (txUnlocked p o s).faults = s.faults ∧ (txUnlocked p o s).test = s.test ∧ (txUnlocked p o s).pins = s.pins ∧ (txUnlocked p o s).bulk = s.bulk ∧ (txUnlocked p o s).free = s.free ∧ (txUnlocked p o s).pending = s.pending := by
  simp only [txUnlocked]; (repeat' split) <;> simp
@[simp] theorem txBegin_keeps (p : LPort) (o : TxObs) (s : State) :
    (txBegin p o s).sys = s.sys ∧ (txBegin p o s).power = s.power ∧ (txBegin p o s).twi = s.twi ∧ (txBegin p o s).lanes = s.lanes ∧ (txBegin p o s).mon = s.mon ∧ (txBegin p o s).faults = s.faults ∧ (txBegin p o s).test = s.test ∧ (txBegin p o s).pins = s.pins ∧ (txBegin p o s).bulk = s.bulk ∧ (txBegin p o s).pending = s.pending := by
  simp only [txBegin]; (repeat' split) <;> simp
@[simp] theorem txSnapshots_keeps (p : LPort) (s : State) :
    (txSnapshots p s).twi = s.twi ∧ (txSnapshots p s).map = s.map ∧ (txSnapshots p s).mon = s.mon ∧ (txSnapshots p s).faults = s.faults ∧ (txSnapshots p s).test = s.test ∧ (txSnapshots p s).pins = s.pins ∧ (txSnapshots p s).pending = s.pending := by
  simp only [txSnapshots]; (repeat' split) <;> simp
@[simp] theorem txSuperframeBoundary_keeps (p : LPort) (o : TxObs) (s : State) :
    (txSuperframeBoundary p o s).twi = s.twi ∧ (txSuperframeBoundary p o s).mon = s.mon ∧ (txSuperframeBoundary p o s).faults = s.faults ∧ (txSuperframeBoundary p o s).test = s.test ∧ (txSuperframeBoundary p o s).pins = s.pins ∧ (txSuperframeBoundary p o s).pending = s.pending := by
  simp only [txSuperframeBoundary]; (repeat' split) <;> simp
@[simp] theorem steerMate_keeps (p : LPort) (clk : BitVec 16) (s : State) :
    (steerMate p clk s).sys = s.sys ∧ (steerMate p clk s).power = s.power ∧ (steerMate p clk s).mbx = s.mbx ∧ (steerMate p clk s).twi = s.twi ∧ (steerMate p clk s).pool = s.pool ∧ (steerMate p clk s).lanes = s.lanes ∧ (steerMate p clk s).map = s.map ∧ (steerMate p clk s).dial = s.dial ∧ (steerMate p clk s).mon = s.mon ∧ (steerMate p clk s).alarms = s.alarms ∧ (steerMate p clk s).faults = s.faults ∧ (steerMate p clk s).jrx = s.jrx ∧ (steerMate p clk s).test = s.test ∧ (steerMate p clk s).pins = s.pins ∧ (steerMate p clk s).bulk = s.bulk ∧ (steerMate p clk s).free = s.free ∧ (steerMate p clk s).pending = s.pending := by
  simp only [steerMate]; (repeat' split) <;> simp
@[simp] theorem idleCounts_keeps (p : LPort) (o : RxObs) (s : State) :
    (idleCounts p o s).sys = s.sys ∧ (idleCounts p o s).power = s.power ∧ (idleCounts p o s).mbx = s.mbx ∧ (idleCounts p o s).twi = s.twi ∧ (idleCounts p o s).ports = s.ports ∧ (idleCounts p o s).pool = s.pool ∧ (idleCounts p o s).lanes = s.lanes ∧ (idleCounts p o s).dial = s.dial ∧ (idleCounts p o s).mon = s.mon ∧ (idleCounts p o s).alarms = s.alarms ∧ (idleCounts p o s).faults = s.faults ∧ (idleCounts p o s).jrx = s.jrx ∧ (idleCounts p o s).test = s.test ∧ (idleCounts p o s).pins = s.pins ∧ (idleCounts p o s).bulk = s.bulk ∧ (idleCounts p o s).free = s.free ∧ (idleCounts p o s).pending = s.pending := by
  simp only [idleCounts]; (repeat' split) <;> simp
@[simp] theorem rxExchange_keeps (p : LPort) (s : State) :
    (rxExchange p s).sys = s.sys ∧ (rxExchange p s).power = s.power ∧ (rxExchange p s).twi = s.twi ∧ (rxExchange p s).lanes = s.lanes ∧ (rxExchange p s).mon = s.mon ∧ (rxExchange p s).faults = s.faults ∧ (rxExchange p s).test = s.test ∧ (rxExchange p s).pins = s.pins ∧ (rxExchange p s).bulk = s.bulk ∧ (rxExchange p s).pending = s.pending := by
  refine ⟨?_, ?_, ?_, ?_, ?_, ?_, ?_, ?_, ?_, ?_⟩ <;> (simp only [rxExchange]; repeat' first | with_reducible rfl | (simp; done) | with_reducible refine (eachOf_sys _ _ _ ?_).trans ?_ | with_reducible refine (eachOf_power _ _ _ ?_).trans ?_ | with_reducible refine (eachOf_twi _ _ _ ?_).trans ?_ | with_reducible refine (eachOf_lanes _ _ _ ?_).trans ?_ | with_reducible refine (eachOf_mon _ _ _ ?_).trans ?_ | with_reducible refine (eachOf_faults _ _ _ ?_).trans ?_ | with_reducible refine (eachOf_test _ _ _ ?_).trans ?_ | with_reducible refine (eachOf_pins _ _ _ ?_).trans ?_ | with_reducible refine (eachOf_bulk _ _ _ ?_).trans ?_ | with_reducible refine (eachOf_pending _ _ _ ?_).trans ?_ | with_reducible refine (eachPort_sys _ _ ?_).trans ?_ | with_reducible refine (eachPort_power _ _ ?_).trans ?_ | with_reducible refine (eachPort_twi _ _ ?_).trans ?_ | with_reducible refine (eachPort_lanes _ _ ?_).trans ?_ | with_reducible refine (eachPort_mon _ _ ?_).trans ?_ | with_reducible refine (eachPort_faults _ _ ?_).trans ?_ | with_reducible refine (eachPort_test _ _ ?_).trans ?_ | with_reducible refine (eachPort_pins _ _ ?_).trans ?_ | with_reducible refine (eachPort_bulk _ _ ?_).trans ?_ | with_reducible refine (eachPort_pending _ _ ?_).trans ?_ | with_reducible refine (doIf_sys _ _ _ ?_).trans ?_ | with_reducible refine (doIf_power _ _ _ ?_).trans ?_ | with_reducible refine (doIf_twi _ _ _ ?_).trans ?_ | with_reducible refine (doIf_lanes _ _ _ ?_).trans ?_ | with_reducible refine (doIf_mon _ _ _ ?_).trans ?_ | with_reducible refine (doIf_faults _ _ _ ?_).trans ?_ | with_reducible refine (doIf_test _ _ _ ?_).trans ?_ | with_reducible refine (doIf_pins _ _ _ ?_).trans ?_ | with_reducible refine (doIf_bulk _ _ _ ?_).trans ?_ | with_reducible refine (doIf_pending _ _ _ ?_).trans ?_ | with_reducible refine (command_twi _ _ _ _ _ _ ?_).trans ?_ | with_reducible refine (command_test _ _ _ _ _ _ ?_).trans ?_ | with_reducible refine (command_pins _ _ _ _ _ _ ?_).trans ?_ | with_reducible refine (command_bulk _ _ _ _ _ _ ?_).trans ?_ | with_reducible refine (command_pending _ _ _ _ _ _ ?_).trans ?_ | with_reducible refine (commandOk_twi _ _ _ _ _ _ ?_).trans ?_ | with_reducible refine (commandOk_test _ _ _ _ _ _ ?_).trans ?_ | with_reducible refine (commandOk_pins _ _ _ _ _ _ ?_).trans ?_ | with_reducible refine (commandOk_bulk _ _ _ _ _ _ ?_).trans ?_ | with_reducible refine (commandOk_pending _ _ _ _ _ _ ?_).trans ?_ | with_reducible refine (awaitReport_power _ _ _ _ _ ?_).trans ?_ | with_reducible refine (awaitReport_twi _ _ _ _ _ ?_).trans ?_ | with_reducible refine (awaitReport_lanes _ _ _ _ _ ?_).trans ?_ | with_reducible refine (awaitReport_mon _ _ _ _ _ ?_).trans ?_ | with_reducible refine (awaitReport_faults _ _ _ _ _ ?_).trans ?_ | with_reducible refine (awaitReport_test _ _ _ _ _ ?_).trans ?_ | with_reducible refine (awaitReport_pins _ _ _ _ _ ?_).trans ?_ | with_reducible refine (awaitReport_bulk _ _ _ _ _ ?_).trans ?_ | with_reducible refine (awaitReport_pending _ _ _ _ _ ?_).trans ?_ | with_reducible refine (report_twi _ _ _ _ _ _ ?_).trans ?_ | with_reducible refine (report_test _ _ _ _ _ _ ?_).trans ?_ | with_reducible refine (report_pins _ _ _ _ _ _ ?_).trans ?_ | with_reducible refine (report_bulk _ _ _ _ _ _ ?_).trans ?_ | with_reducible refine (report_pending _ _ _ _ _ _ ?_).trans ?_ | intro _ | split | simp)
@[simp] theorem rxSuperframeBoundary_keeps (p : LPort) (o : RxObs) (s : State) :
    (rxSuperframeBoundary p o s).twi = s.twi ∧ (rxSuperframeBoundary p o s).mon = s.mon ∧ (rxSuperframeBoundary p o s).faults = s.faults ∧ (rxSuperframeBoundary p o s).test = s.test ∧ (rxSuperframeBoundary p o s).pins = s.pins ∧ (rxSuperframeBoundary p o s).pending = s.pending := by
  simp only [rxSuperframeBoundary]; (repeat' split) <;> simp
@[simp] theorem countRuns_keeps (p : LPort) (n label : Psfn) (lag : Nat) (s : State) :
    (countRuns p n label lag s).sys = s.sys ∧ (countRuns p n label lag s).power = s.power ∧ (countRuns p n label lag s).mbx = s.mbx ∧ (countRuns p n label lag s).twi = s.twi ∧ (countRuns p n label lag s).pool = s.pool ∧ (countRuns p n label lag s).lanes = s.lanes ∧ (countRuns p n label lag s).map = s.map ∧ (countRuns p n label lag s).dial = s.dial ∧ (countRuns p n label lag s).mon = s.mon ∧ (countRuns p n label lag s).alarms = s.alarms ∧ (countRuns p n label lag s).faults = s.faults ∧ (countRuns p n label lag s).jrx = s.jrx ∧ (countRuns p n label lag s).test = s.test ∧ (countRuns p n label lag s).pins = s.pins ∧ (countRuns p n label lag s).bulk = s.bulk ∧ (countRuns p n label lag s).free = s.free ∧ (countRuns p n label lag s).pending = s.pending := by
  simp only [countRuns]; (repeat' split) <;> simp
@[simp] theorem checkFormat_keeps (p : LPort) (active fmt : Word) (s : State) :
    (checkFormat p active fmt s).sys = s.sys ∧ (checkFormat p active fmt s).power = s.power ∧ (checkFormat p active fmt s).mbx = s.mbx ∧ (checkFormat p active fmt s).twi = s.twi ∧ (checkFormat p active fmt s).pool = s.pool ∧ (checkFormat p active fmt s).lanes = s.lanes ∧ (checkFormat p active fmt s).map = s.map ∧ (checkFormat p active fmt s).dial = s.dial ∧ (checkFormat p active fmt s).mon = s.mon ∧ (checkFormat p active fmt s).alarms = s.alarms ∧ (checkFormat p active fmt s).faults = s.faults ∧ (checkFormat p active fmt s).jrx = s.jrx ∧ (checkFormat p active fmt s).test = s.test ∧ (checkFormat p active fmt s).pins = s.pins ∧ (checkFormat p active fmt s).bulk = s.bulk ∧ (checkFormat p active fmt s).free = s.free ∧ (checkFormat p active fmt s).pending = s.pending := by
  simp only [checkFormat]; (repeat' split) <;> simp
@[simp] theorem formatMismatch_keeps (p : LPort) (s : State) :
    (formatMismatch p s).sys = s.sys ∧ (formatMismatch p s).power = s.power ∧ (formatMismatch p s).mbx = s.mbx ∧ (formatMismatch p s).twi = s.twi ∧ (formatMismatch p s).pool = s.pool ∧ (formatMismatch p s).lanes = s.lanes ∧ (formatMismatch p s).map = s.map ∧ (formatMismatch p s).dial = s.dial ∧ (formatMismatch p s).mon = s.mon ∧ (formatMismatch p s).alarms = s.alarms ∧ (formatMismatch p s).faults = s.faults ∧ (formatMismatch p s).jrx = s.jrx ∧ (formatMismatch p s).test = s.test ∧ (formatMismatch p s).pins = s.pins ∧ (formatMismatch p s).bulk = s.bulk ∧ (formatMismatch p s).free = s.free ∧ (formatMismatch p s).pending = s.pending := by
  simp only [formatMismatch]; (repeat' split) <;> simp
@[simp] theorem watchCommit_keeps (p : LPort) (w : Vector Word 64) (label : Psfn) (s : State) :
    (watchCommit p w label s).sys = s.sys ∧ (watchCommit p w label s).power = s.power ∧ (watchCommit p w label s).mbx = s.mbx ∧ (watchCommit p w label s).twi = s.twi ∧ (watchCommit p w label s).pool = s.pool ∧ (watchCommit p w label s).lanes = s.lanes ∧ (watchCommit p w label s).map = s.map ∧ (watchCommit p w label s).dial = s.dial ∧ (watchCommit p w label s).mon = s.mon ∧ (watchCommit p w label s).alarms = s.alarms ∧ (watchCommit p w label s).faults = s.faults ∧ (watchCommit p w label s).jrx = s.jrx ∧ (watchCommit p w label s).test = s.test ∧ (watchCommit p w label s).pins = s.pins ∧ (watchCommit p w label s).bulk = s.bulk ∧ (watchCommit p w label s).free = s.free ∧ (watchCommit p w label s).pending = s.pending := by
  simp only [watchCommit]; (repeat' split) <;> simp
@[simp] theorem checkBips_keeps (p : LPort) (w : Vector Word 64) (s : State) :
    (checkBips p w s).sys = s.sys ∧ (checkBips p w s).power = s.power ∧ (checkBips p w s).mbx = s.mbx ∧ (checkBips p w s).twi = s.twi ∧ (checkBips p w s).pool = s.pool ∧ (checkBips p w s).lanes = s.lanes ∧ (checkBips p w s).map = s.map ∧ (checkBips p w s).dial = s.dial ∧ (checkBips p w s).mon = s.mon ∧ (checkBips p w s).alarms = s.alarms ∧ (checkBips p w s).faults = s.faults ∧ (checkBips p w s).jrx = s.jrx ∧ (checkBips p w s).test = s.test ∧ (checkBips p w s).pins = s.pins ∧ (checkBips p w s).bulk = s.bulk ∧ (checkBips p w s).free = s.free ∧ (checkBips p w s).pending = s.pending := by
  simp only [checkBips]; (repeat' split) <;> simp
@[simp] theorem takeTraces_keeps (p : LPort) (w : Vector Word 64) (old : Psfn) (s : State) :
    (takeTraces p w old s).sys = s.sys ∧ (takeTraces p w old s).power = s.power ∧ (takeTraces p w old s).twi = s.twi ∧ (takeTraces p w old s).lanes = s.lanes ∧ (takeTraces p w old s).map = s.map ∧ (takeTraces p w old s).dial = s.dial ∧ (takeTraces p w old s).mon = s.mon ∧ (takeTraces p w old s).faults = s.faults ∧ (takeTraces p w old s).test = s.test ∧ (takeTraces p w old s).pins = s.pins ∧ (takeTraces p w old s).bulk = s.bulk ∧ (takeTraces p w old s).free = s.free ∧ (takeTraces p w old s).pending = s.pending := by
  refine ⟨?_, ?_, ?_, ?_, ?_, ?_, ?_, ?_, ?_, ?_, ?_, ?_, ?_⟩ <;> (simp only [takeTraces]; repeat' first | with_reducible rfl | (simp; done) | with_reducible refine (eachOf_sys _ _ _ ?_).trans ?_ | with_reducible refine (eachOf_power _ _ _ ?_).trans ?_ | with_reducible refine (eachOf_twi _ _ _ ?_).trans ?_ | with_reducible refine (eachOf_lanes _ _ _ ?_).trans ?_ | with_reducible refine (eachOf_map _ _ _ ?_).trans ?_ | with_reducible refine (eachOf_dial _ _ _ ?_).trans ?_ | with_reducible refine (eachOf_mon _ _ _ ?_).trans ?_ | with_reducible refine (eachOf_faults _ _ _ ?_).trans ?_ | with_reducible refine (eachOf_test _ _ _ ?_).trans ?_ | with_reducible refine (eachOf_pins _ _ _ ?_).trans ?_ | with_reducible refine (eachOf_bulk _ _ _ ?_).trans ?_ | with_reducible refine (eachOf_free _ _ _ ?_).trans ?_ | with_reducible refine (eachOf_pending _ _ _ ?_).trans ?_ | with_reducible refine (eachPort_sys _ _ ?_).trans ?_ | with_reducible refine (eachPort_power _ _ ?_).trans ?_ | with_reducible refine (eachPort_twi _ _ ?_).trans ?_ | with_reducible refine (eachPort_lanes _ _ ?_).trans ?_ | with_reducible refine (eachPort_map _ _ ?_).trans ?_ | with_reducible refine (eachPort_dial _ _ ?_).trans ?_ | with_reducible refine (eachPort_mon _ _ ?_).trans ?_ | with_reducible refine (eachPort_faults _ _ ?_).trans ?_ | with_reducible refine (eachPort_test _ _ ?_).trans ?_ | with_reducible refine (eachPort_pins _ _ ?_).trans ?_ | with_reducible refine (eachPort_bulk _ _ ?_).trans ?_ | with_reducible refine (eachPort_free _ _ ?_).trans ?_ | with_reducible refine (eachPort_pending _ _ ?_).trans ?_ | with_reducible refine (doIf_sys _ _ _ ?_).trans ?_ | with_reducible refine (doIf_power _ _ _ ?_).trans ?_ | with_reducible refine (doIf_twi _ _ _ ?_).trans ?_ | with_reducible refine (doIf_lanes _ _ _ ?_).trans ?_ | with_reducible refine (doIf_map _ _ _ ?_).trans ?_ | with_reducible refine (doIf_dial _ _ _ ?_).trans ?_ | with_reducible refine (doIf_mon _ _ _ ?_).trans ?_ | with_reducible refine (doIf_faults _ _ _ ?_).trans ?_ | with_reducible refine (doIf_test _ _ _ ?_).trans ?_ | with_reducible refine (doIf_pins _ _ _ ?_).trans ?_ | with_reducible refine (doIf_bulk _ _ _ ?_).trans ?_ | with_reducible refine (doIf_free _ _ _ ?_).trans ?_ | with_reducible refine (doIf_pending _ _ _ ?_).trans ?_ | with_reducible refine (command_twi _ _ _ _ _ _ ?_).trans ?_ | with_reducible refine (command_test _ _ _ _ _ _ ?_).trans ?_ | with_reducible refine (command_pins _ _ _ _ _ _ ?_).trans ?_ | with_reducible refine (command_bulk _ _ _ _ _ _ ?_).trans ?_ | with_reducible refine (command_pending _ _ _ _ _ _ ?_).trans ?_ | with_reducible refine (commandOk_twi _ _ _ _ _ _ ?_).trans ?_ | with_reducible refine (commandOk_test _ _ _ _ _ _ ?_).trans ?_ | with_reducible refine (commandOk_pins _ _ _ _ _ _ ?_).trans ?_ | with_reducible refine (commandOk_bulk _ _ _ _ _ _ ?_).trans ?_ | with_reducible refine (commandOk_pending _ _ _ _ _ _ ?_).trans ?_ | with_reducible refine (awaitReport_power _ _ _ _ _ ?_).trans ?_ | with_reducible refine (awaitReport_twi _ _ _ _ _ ?_).trans ?_ | with_reducible refine (awaitReport_lanes _ _ _ _ _ ?_).trans ?_ | with_reducible refine (awaitReport_map _ _ _ _ _ ?_).trans ?_ | with_reducible refine (awaitReport_dial _ _ _ _ _ ?_).trans ?_ | with_reducible refine (awaitReport_mon _ _ _ _ _ ?_).trans ?_ | with_reducible refine (awaitReport_faults _ _ _ _ _ ?_).trans ?_ | with_reducible refine (awaitReport_test _ _ _ _ _ ?_).trans ?_ | with_reducible refine (awaitReport_pins _ _ _ _ _ ?_).trans ?_ | with_reducible refine (awaitReport_bulk _ _ _ _ _ ?_).trans ?_ | with_reducible refine (awaitReport_free _ _ _ _ _ ?_).trans ?_ | with_reducible refine (awaitReport_pending _ _ _ _ _ ?_).trans ?_ | with_reducible refine (report_twi _ _ _ _ _ _ ?_).trans ?_ | with_reducible refine (report_test _ _ _ _ _ _ ?_).trans ?_ | with_reducible refine (report_pins _ _ _ _ _ _ ?_).trans ?_ | with_reducible refine (report_bulk _ _ _ _ _ _ ?_).trans ?_ | with_reducible refine (report_pending _ _ _ _ _ _ ?_).trans ?_ | intro _ | split | simp)
@[simp] theorem takeStatus_keeps (p : LPort) (w2 : Word) (s : State) :
    (takeStatus p w2 s).sys = s.sys ∧ (takeStatus p w2 s).power = s.power ∧ (takeStatus p w2 s).mbx = s.mbx ∧ (takeStatus p w2 s).twi = s.twi ∧ (takeStatus p w2 s).pool = s.pool ∧ (takeStatus p w2 s).lanes = s.lanes ∧ (takeStatus p w2 s).map = s.map ∧ (takeStatus p w2 s).dial = s.dial ∧ (takeStatus p w2 s).mon = s.mon ∧ (takeStatus p w2 s).alarms = s.alarms ∧ (takeStatus p w2 s).faults = s.faults ∧ (takeStatus p w2 s).jrx = s.jrx ∧ (takeStatus p w2 s).test = s.test ∧ (takeStatus p w2 s).pins = s.pins ∧ (takeStatus p w2 s).bulk = s.bulk ∧ (takeStatus p w2 s).free = s.free ∧ (takeStatus p w2 s).pending = s.pending := by
  simp only [takeStatus]; (repeat' split) <;> simp
@[simp] theorem takePath_keeps (p : LPort) (w : Vector Word 64) (s : State) :
    (takePath p w s).sys = s.sys ∧ (takePath p w s).power = s.power ∧ (takePath p w s).twi = s.twi ∧ (takePath p w s).lanes = s.lanes ∧ (takePath p w s).map = s.map ∧ (takePath p w s).dial = s.dial ∧ (takePath p w s).mon = s.mon ∧ (takePath p w s).faults = s.faults ∧ (takePath p w s).test = s.test ∧ (takePath p w s).pins = s.pins ∧ (takePath p w s).bulk = s.bulk ∧ (takePath p w s).free = s.free ∧ (takePath p w s).pending = s.pending := by
  refine ⟨?_, ?_, ?_, ?_, ?_, ?_, ?_, ?_, ?_, ?_, ?_, ?_, ?_⟩ <;> (simp only [takePath]; repeat' first | with_reducible rfl | (simp; done) | with_reducible refine (eachOf_sys _ _ _ ?_).trans ?_ | with_reducible refine (eachOf_power _ _ _ ?_).trans ?_ | with_reducible refine (eachOf_twi _ _ _ ?_).trans ?_ | with_reducible refine (eachOf_lanes _ _ _ ?_).trans ?_ | with_reducible refine (eachOf_map _ _ _ ?_).trans ?_ | with_reducible refine (eachOf_dial _ _ _ ?_).trans ?_ | with_reducible refine (eachOf_mon _ _ _ ?_).trans ?_ | with_reducible refine (eachOf_faults _ _ _ ?_).trans ?_ | with_reducible refine (eachOf_test _ _ _ ?_).trans ?_ | with_reducible refine (eachOf_pins _ _ _ ?_).trans ?_ | with_reducible refine (eachOf_bulk _ _ _ ?_).trans ?_ | with_reducible refine (eachOf_free _ _ _ ?_).trans ?_ | with_reducible refine (eachOf_pending _ _ _ ?_).trans ?_ | with_reducible refine (eachPort_sys _ _ ?_).trans ?_ | with_reducible refine (eachPort_power _ _ ?_).trans ?_ | with_reducible refine (eachPort_twi _ _ ?_).trans ?_ | with_reducible refine (eachPort_lanes _ _ ?_).trans ?_ | with_reducible refine (eachPort_map _ _ ?_).trans ?_ | with_reducible refine (eachPort_dial _ _ ?_).trans ?_ | with_reducible refine (eachPort_mon _ _ ?_).trans ?_ | with_reducible refine (eachPort_faults _ _ ?_).trans ?_ | with_reducible refine (eachPort_test _ _ ?_).trans ?_ | with_reducible refine (eachPort_pins _ _ ?_).trans ?_ | with_reducible refine (eachPort_bulk _ _ ?_).trans ?_ | with_reducible refine (eachPort_free _ _ ?_).trans ?_ | with_reducible refine (eachPort_pending _ _ ?_).trans ?_ | with_reducible refine (doIf_sys _ _ _ ?_).trans ?_ | with_reducible refine (doIf_power _ _ _ ?_).trans ?_ | with_reducible refine (doIf_twi _ _ _ ?_).trans ?_ | with_reducible refine (doIf_lanes _ _ _ ?_).trans ?_ | with_reducible refine (doIf_map _ _ _ ?_).trans ?_ | with_reducible refine (doIf_dial _ _ _ ?_).trans ?_ | with_reducible refine (doIf_mon _ _ _ ?_).trans ?_ | with_reducible refine (doIf_faults _ _ _ ?_).trans ?_ | with_reducible refine (doIf_test _ _ _ ?_).trans ?_ | with_reducible refine (doIf_pins _ _ _ ?_).trans ?_ | with_reducible refine (doIf_bulk _ _ _ ?_).trans ?_ | with_reducible refine (doIf_free _ _ _ ?_).trans ?_ | with_reducible refine (doIf_pending _ _ _ ?_).trans ?_ | with_reducible refine (command_twi _ _ _ _ _ _ ?_).trans ?_ | with_reducible refine (command_test _ _ _ _ _ _ ?_).trans ?_ | with_reducible refine (command_pins _ _ _ _ _ _ ?_).trans ?_ | with_reducible refine (command_bulk _ _ _ _ _ _ ?_).trans ?_ | with_reducible refine (command_pending _ _ _ _ _ _ ?_).trans ?_ | with_reducible refine (commandOk_twi _ _ _ _ _ _ ?_).trans ?_ | with_reducible refine (commandOk_test _ _ _ _ _ _ ?_).trans ?_ | with_reducible refine (commandOk_pins _ _ _ _ _ _ ?_).trans ?_ | with_reducible refine (commandOk_bulk _ _ _ _ _ _ ?_).trans ?_ | with_reducible refine (commandOk_pending _ _ _ _ _ _ ?_).trans ?_ | with_reducible refine (awaitReport_power _ _ _ _ _ ?_).trans ?_ | with_reducible refine (awaitReport_twi _ _ _ _ _ ?_).trans ?_ | with_reducible refine (awaitReport_lanes _ _ _ _ _ ?_).trans ?_ | with_reducible refine (awaitReport_map _ _ _ _ _ ?_).trans ?_ | with_reducible refine (awaitReport_dial _ _ _ _ _ ?_).trans ?_ | with_reducible refine (awaitReport_mon _ _ _ _ _ ?_).trans ?_ | with_reducible refine (awaitReport_faults _ _ _ _ _ ?_).trans ?_ | with_reducible refine (awaitReport_test _ _ _ _ _ ?_).trans ?_ | with_reducible refine (awaitReport_pins _ _ _ _ _ ?_).trans ?_ | with_reducible refine (awaitReport_bulk _ _ _ _ _ ?_).trans ?_ | with_reducible refine (awaitReport_free _ _ _ _ _ ?_).trans ?_ | with_reducible refine (awaitReport_pending _ _ _ _ _ ?_).trans ?_ | with_reducible refine (report_twi _ _ _ _ _ _ ?_).trans ?_ | with_reducible refine (report_test _ _ _ _ _ _ ?_).trans ?_ | with_reducible refine (report_pins _ _ _ _ _ _ ?_).trans ?_ | with_reducible refine (report_bulk _ _ _ _ _ _ ?_).trans ?_ | with_reducible refine (report_pending _ _ _ _ _ _ ?_).trans ?_ | intro _ | split | simp)
@[simp] theorem mismatchStep_keeps (c : Client) (s : State) :
    (mismatchStep c s).sys = s.sys ∧ (mismatchStep c s).power = s.power ∧ (mismatchStep c s).twi = s.twi ∧ (mismatchStep c s).ports = s.ports ∧ (mismatchStep c s).lanes = s.lanes ∧ (mismatchStep c s).dial = s.dial ∧ (mismatchStep c s).mon = s.mon ∧ (mismatchStep c s).faults = s.faults ∧ (mismatchStep c s).test = s.test ∧ (mismatchStep c s).pins = s.pins ∧ (mismatchStep c s).bulk = s.bulk ∧ (mismatchStep c s).free = s.free ∧ (mismatchStep c s).pending = s.pending := by
  simp only [mismatchStep]; (repeat' split) <;> simp
@[simp] theorem rxClient_keeps (good : Bool) (pl : Payload) (c : Client) (s : State) :
    (rxClient good pl c s).sys = s.sys ∧ (rxClient good pl c s).power = s.power ∧ (rxClient good pl c s).twi = s.twi ∧ (rxClient good pl c s).ports = s.ports ∧ (rxClient good pl c s).lanes = s.lanes ∧ (rxClient good pl c s).dial = s.dial ∧ (rxClient good pl c s).mon = s.mon ∧ (rxClient good pl c s).faults = s.faults ∧ (rxClient good pl c s).test = s.test ∧ (rxClient good pl c s).pins = s.pins ∧ (rxClient good pl c s).bulk = s.bulk ∧ (rxClient good pl c s).free = s.free ∧ (rxClient good pl c s).pending = s.pending := by
  simp only [rxClient]; (repeat' split) <;> simp
@[simp] theorem rxClients_keeps (p : LPort) (good : Bool) (pl : Payload) (s : State) :
    (rxClients p good pl s).sys = s.sys ∧ (rxClients p good pl s).power = s.power ∧ (rxClients p good pl s).twi = s.twi ∧ (rxClients p good pl s).ports = s.ports ∧ (rxClients p good pl s).lanes = s.lanes ∧ (rxClients p good pl s).dial = s.dial ∧ (rxClients p good pl s).mon = s.mon ∧ (rxClients p good pl s).faults = s.faults ∧ (rxClients p good pl s).test = s.test ∧ (rxClients p good pl s).pins = s.pins ∧ (rxClients p good pl s).bulk = s.bulk ∧ (rxClients p good pl s).free = s.free ∧ (rxClients p good pl s).pending = s.pending := by
  simp only [rxClients]; (repeat' split) <;> simp
@[simp] theorem keepArrived_keeps (p : LPort) (o : SfohObs) (good : Bool) (s : State) :
    (keepArrived p o good s).sys = s.sys ∧ (keepArrived p o good s).power = s.power ∧ (keepArrived p o good s).mbx = s.mbx ∧ (keepArrived p o good s).twi = s.twi ∧ (keepArrived p o good s).pool = s.pool ∧ (keepArrived p o good s).lanes = s.lanes ∧ (keepArrived p o good s).map = s.map ∧ (keepArrived p o good s).dial = s.dial ∧ (keepArrived p o good s).mon = s.mon ∧ (keepArrived p o good s).alarms = s.alarms ∧ (keepArrived p o good s).faults = s.faults ∧ (keepArrived p o good s).jrx = s.jrx ∧ (keepArrived p o good s).test = s.test ∧ (keepArrived p o good s).pins = s.pins ∧ (keepArrived p o good s).bulk = s.bulk ∧ (keepArrived p o good s).free = s.free ∧ (keepArrived p o good s).pending = s.pending := by
  simp only [keepArrived]; (repeat' split) <;> simp
@[simp] theorem sfohBad_keeps (p : LPort) (o : SfohObs) (s : State) :
    (sfohBad p o s).sys = s.sys ∧ (sfohBad p o s).power = s.power ∧ (sfohBad p o s).twi = s.twi ∧ (sfohBad p o s).lanes = s.lanes ∧ (sfohBad p o s).dial = s.dial ∧ (sfohBad p o s).mon = s.mon ∧ (sfohBad p o s).faults = s.faults ∧ (sfohBad p o s).test = s.test ∧ (sfohBad p o s).pins = s.pins ∧ (sfohBad p o s).bulk = s.bulk ∧ (sfohBad p o s).free = s.free ∧ (sfohBad p o s).pending = s.pending := by
  simp only [sfohBad]; (repeat' split) <;> simp
@[simp] theorem takeCells_keeps (p : LPort) (w : Vector Word 64) (label : Psfn) (s : State) :
    (takeCells p w label s).power = s.power ∧ (takeCells p w label s).twi = s.twi ∧ (takeCells p w label s).lanes = s.lanes ∧ (takeCells p w label s).mon = s.mon ∧ (takeCells p w label s).faults = s.faults ∧ (takeCells p w label s).test = s.test ∧ (takeCells p w label s).pins = s.pins ∧ (takeCells p w label s).bulk = s.bulk ∧ (takeCells p w label s).pending = s.pending := by
  refine ⟨?_, ?_, ?_, ?_, ?_, ?_, ?_, ?_, ?_⟩ <;> (simp only [takeCells]; repeat' first | with_reducible rfl | (simp; done) | with_reducible refine (eachOf_power _ _ _ ?_).trans ?_ | with_reducible refine (eachOf_twi _ _ _ ?_).trans ?_ | with_reducible refine (eachOf_lanes _ _ _ ?_).trans ?_ | with_reducible refine (eachOf_mon _ _ _ ?_).trans ?_ | with_reducible refine (eachOf_faults _ _ _ ?_).trans ?_ | with_reducible refine (eachOf_test _ _ _ ?_).trans ?_ | with_reducible refine (eachOf_pins _ _ _ ?_).trans ?_ | with_reducible refine (eachOf_bulk _ _ _ ?_).trans ?_ | with_reducible refine (eachOf_pending _ _ _ ?_).trans ?_ | with_reducible refine (eachPort_power _ _ ?_).trans ?_ | with_reducible refine (eachPort_twi _ _ ?_).trans ?_ | with_reducible refine (eachPort_lanes _ _ ?_).trans ?_ | with_reducible refine (eachPort_mon _ _ ?_).trans ?_ | with_reducible refine (eachPort_faults _ _ ?_).trans ?_ | with_reducible refine (eachPort_test _ _ ?_).trans ?_ | with_reducible refine (eachPort_pins _ _ ?_).trans ?_ | with_reducible refine (eachPort_bulk _ _ ?_).trans ?_ | with_reducible refine (eachPort_pending _ _ ?_).trans ?_ | with_reducible refine (doIf_power _ _ _ ?_).trans ?_ | with_reducible refine (doIf_twi _ _ _ ?_).trans ?_ | with_reducible refine (doIf_lanes _ _ _ ?_).trans ?_ | with_reducible refine (doIf_mon _ _ _ ?_).trans ?_ | with_reducible refine (doIf_faults _ _ _ ?_).trans ?_ | with_reducible refine (doIf_test _ _ _ ?_).trans ?_ | with_reducible refine (doIf_pins _ _ _ ?_).trans ?_ | with_reducible refine (doIf_bulk _ _ _ ?_).trans ?_ | with_reducible refine (doIf_pending _ _ _ ?_).trans ?_ | with_reducible refine (command_twi _ _ _ _ _ _ ?_).trans ?_ | with_reducible refine (command_test _ _ _ _ _ _ ?_).trans ?_ | with_reducible refine (command_pins _ _ _ _ _ _ ?_).trans ?_ | with_reducible refine (command_bulk _ _ _ _ _ _ ?_).trans ?_ | with_reducible refine (command_pending _ _ _ _ _ _ ?_).trans ?_ | with_reducible refine (commandOk_twi _ _ _ _ _ _ ?_).trans ?_ | with_reducible refine (commandOk_test _ _ _ _ _ _ ?_).trans ?_ | with_reducible refine (commandOk_pins _ _ _ _ _ _ ?_).trans ?_ | with_reducible refine (commandOk_bulk _ _ _ _ _ _ ?_).trans ?_ | with_reducible refine (commandOk_pending _ _ _ _ _ _ ?_).trans ?_ | with_reducible refine (awaitReport_power _ _ _ _ _ ?_).trans ?_ | with_reducible refine (awaitReport_twi _ _ _ _ _ ?_).trans ?_ | with_reducible refine (awaitReport_lanes _ _ _ _ _ ?_).trans ?_ | with_reducible refine (awaitReport_mon _ _ _ _ _ ?_).trans ?_ | with_reducible refine (awaitReport_faults _ _ _ _ _ ?_).trans ?_ | with_reducible refine (awaitReport_test _ _ _ _ _ ?_).trans ?_ | with_reducible refine (awaitReport_pins _ _ _ _ _ ?_).trans ?_ | with_reducible refine (awaitReport_bulk _ _ _ _ _ ?_).trans ?_ | with_reducible refine (awaitReport_pending _ _ _ _ _ ?_).trans ?_ | with_reducible refine (report_twi _ _ _ _ _ _ ?_).trans ?_ | with_reducible refine (report_test _ _ _ _ _ _ ?_).trans ?_ | with_reducible refine (report_pins _ _ _ _ _ _ ?_).trans ?_ | with_reducible refine (report_bulk _ _ _ _ _ _ ?_).trans ?_ | with_reducible refine (report_pending _ _ _ _ _ _ ?_).trans ?_ | intro _ | split | simp)
@[simp] theorem sfohTaken_keeps (p : LPort) (o : SfohObs) (s : State) :
    (sfohTaken p o s).power = s.power ∧ (sfohTaken p o s).twi = s.twi ∧ (sfohTaken p o s).lanes = s.lanes ∧ (sfohTaken p o s).mon = s.mon ∧ (sfohTaken p o s).faults = s.faults ∧ (sfohTaken p o s).test = s.test ∧ (sfohTaken p o s).pins = s.pins ∧ (sfohTaken p o s).bulk = s.bulk ∧ (sfohTaken p o s).pending = s.pending := by
  refine ⟨?_, ?_, ?_, ?_, ?_, ?_, ?_, ?_, ?_⟩ <;> (simp only [sfohTaken]; repeat' first | with_reducible rfl | (simp; done) | with_reducible refine (eachOf_power _ _ _ ?_).trans ?_ | with_reducible refine (eachOf_twi _ _ _ ?_).trans ?_ | with_reducible refine (eachOf_lanes _ _ _ ?_).trans ?_ | with_reducible refine (eachOf_mon _ _ _ ?_).trans ?_ | with_reducible refine (eachOf_faults _ _ _ ?_).trans ?_ | with_reducible refine (eachOf_test _ _ _ ?_).trans ?_ | with_reducible refine (eachOf_pins _ _ _ ?_).trans ?_ | with_reducible refine (eachOf_bulk _ _ _ ?_).trans ?_ | with_reducible refine (eachOf_pending _ _ _ ?_).trans ?_ | with_reducible refine (eachPort_power _ _ ?_).trans ?_ | with_reducible refine (eachPort_twi _ _ ?_).trans ?_ | with_reducible refine (eachPort_lanes _ _ ?_).trans ?_ | with_reducible refine (eachPort_mon _ _ ?_).trans ?_ | with_reducible refine (eachPort_faults _ _ ?_).trans ?_ | with_reducible refine (eachPort_test _ _ ?_).trans ?_ | with_reducible refine (eachPort_pins _ _ ?_).trans ?_ | with_reducible refine (eachPort_bulk _ _ ?_).trans ?_ | with_reducible refine (eachPort_pending _ _ ?_).trans ?_ | with_reducible refine (doIf_power _ _ _ ?_).trans ?_ | with_reducible refine (doIf_twi _ _ _ ?_).trans ?_ | with_reducible refine (doIf_lanes _ _ _ ?_).trans ?_ | with_reducible refine (doIf_mon _ _ _ ?_).trans ?_ | with_reducible refine (doIf_faults _ _ _ ?_).trans ?_ | with_reducible refine (doIf_test _ _ _ ?_).trans ?_ | with_reducible refine (doIf_pins _ _ _ ?_).trans ?_ | with_reducible refine (doIf_bulk _ _ _ ?_).trans ?_ | with_reducible refine (doIf_pending _ _ _ ?_).trans ?_ | with_reducible refine (command_twi _ _ _ _ _ _ ?_).trans ?_ | with_reducible refine (command_test _ _ _ _ _ _ ?_).trans ?_ | with_reducible refine (command_pins _ _ _ _ _ _ ?_).trans ?_ | with_reducible refine (command_bulk _ _ _ _ _ _ ?_).trans ?_ | with_reducible refine (command_pending _ _ _ _ _ _ ?_).trans ?_ | with_reducible refine (commandOk_twi _ _ _ _ _ _ ?_).trans ?_ | with_reducible refine (commandOk_test _ _ _ _ _ _ ?_).trans ?_ | with_reducible refine (commandOk_pins _ _ _ _ _ _ ?_).trans ?_ | with_reducible refine (commandOk_bulk _ _ _ _ _ _ ?_).trans ?_ | with_reducible refine (commandOk_pending _ _ _ _ _ _ ?_).trans ?_ | with_reducible refine (awaitReport_power _ _ _ _ _ ?_).trans ?_ | with_reducible refine (awaitReport_twi _ _ _ _ _ ?_).trans ?_ | with_reducible refine (awaitReport_lanes _ _ _ _ _ ?_).trans ?_ | with_reducible refine (awaitReport_mon _ _ _ _ _ ?_).trans ?_ | with_reducible refine (awaitReport_faults _ _ _ _ _ ?_).trans ?_ | with_reducible refine (awaitReport_test _ _ _ _ _ ?_).trans ?_ | with_reducible refine (awaitReport_pins _ _ _ _ _ ?_).trans ?_ | with_reducible refine (awaitReport_bulk _ _ _ _ _ ?_).trans ?_ | with_reducible refine (awaitReport_pending _ _ _ _ _ ?_).trans ?_ | with_reducible refine (report_twi _ _ _ _ _ _ ?_).trans ?_ | with_reducible refine (report_test _ _ _ _ _ _ ?_).trans ?_ | with_reducible refine (report_pins _ _ _ _ _ _ ?_).trans ?_ | with_reducible refine (report_bulk _ _ _ _ _ _ ?_).trans ?_ | with_reducible refine (report_pending _ _ _ _ _ _ ?_).trans ?_ | intro _ | split | simp)
@[simp] theorem sfohReceive_keeps (p : LPort) (o : SfohObs) (s : State) :
    (sfohReceive p o s).power = s.power ∧ (sfohReceive p o s).twi = s.twi ∧ (sfohReceive p o s).lanes = s.lanes ∧ (sfohReceive p o s).mon = s.mon ∧ (sfohReceive p o s).faults = s.faults ∧ (sfohReceive p o s).test = s.test ∧ (sfohReceive p o s).pins = s.pins ∧ (sfohReceive p o s).bulk = s.bulk ∧ (sfohReceive p o s).pending = s.pending := by
  refine ⟨?_, ?_, ?_, ?_, ?_, ?_, ?_, ?_, ?_⟩ <;> (simp only [sfohReceive]; repeat' first | with_reducible rfl | (simp; done) | with_reducible refine (eachOf_power _ _ _ ?_).trans ?_ | with_reducible refine (eachOf_twi _ _ _ ?_).trans ?_ | with_reducible refine (eachOf_lanes _ _ _ ?_).trans ?_ | with_reducible refine (eachOf_mon _ _ _ ?_).trans ?_ | with_reducible refine (eachOf_faults _ _ _ ?_).trans ?_ | with_reducible refine (eachOf_test _ _ _ ?_).trans ?_ | with_reducible refine (eachOf_pins _ _ _ ?_).trans ?_ | with_reducible refine (eachOf_bulk _ _ _ ?_).trans ?_ | with_reducible refine (eachOf_pending _ _ _ ?_).trans ?_ | with_reducible refine (eachPort_power _ _ ?_).trans ?_ | with_reducible refine (eachPort_twi _ _ ?_).trans ?_ | with_reducible refine (eachPort_lanes _ _ ?_).trans ?_ | with_reducible refine (eachPort_mon _ _ ?_).trans ?_ | with_reducible refine (eachPort_faults _ _ ?_).trans ?_ | with_reducible refine (eachPort_test _ _ ?_).trans ?_ | with_reducible refine (eachPort_pins _ _ ?_).trans ?_ | with_reducible refine (eachPort_bulk _ _ ?_).trans ?_ | with_reducible refine (eachPort_pending _ _ ?_).trans ?_ | with_reducible refine (doIf_power _ _ _ ?_).trans ?_ | with_reducible refine (doIf_twi _ _ _ ?_).trans ?_ | with_reducible refine (doIf_lanes _ _ _ ?_).trans ?_ | with_reducible refine (doIf_mon _ _ _ ?_).trans ?_ | with_reducible refine (doIf_faults _ _ _ ?_).trans ?_ | with_reducible refine (doIf_test _ _ _ ?_).trans ?_ | with_reducible refine (doIf_pins _ _ _ ?_).trans ?_ | with_reducible refine (doIf_bulk _ _ _ ?_).trans ?_ | with_reducible refine (doIf_pending _ _ _ ?_).trans ?_ | with_reducible refine (command_twi _ _ _ _ _ _ ?_).trans ?_ | with_reducible refine (command_test _ _ _ _ _ _ ?_).trans ?_ | with_reducible refine (command_pins _ _ _ _ _ _ ?_).trans ?_ | with_reducible refine (command_bulk _ _ _ _ _ _ ?_).trans ?_ | with_reducible refine (command_pending _ _ _ _ _ _ ?_).trans ?_ | with_reducible refine (commandOk_twi _ _ _ _ _ _ ?_).trans ?_ | with_reducible refine (commandOk_test _ _ _ _ _ _ ?_).trans ?_ | with_reducible refine (commandOk_pins _ _ _ _ _ _ ?_).trans ?_ | with_reducible refine (commandOk_bulk _ _ _ _ _ _ ?_).trans ?_ | with_reducible refine (commandOk_pending _ _ _ _ _ _ ?_).trans ?_ | with_reducible refine (awaitReport_power _ _ _ _ _ ?_).trans ?_ | with_reducible refine (awaitReport_twi _ _ _ _ _ ?_).trans ?_ | with_reducible refine (awaitReport_lanes _ _ _ _ _ ?_).trans ?_ | with_reducible refine (awaitReport_mon _ _ _ _ _ ?_).trans ?_ | with_reducible refine (awaitReport_faults _ _ _ _ _ ?_).trans ?_ | with_reducible refine (awaitReport_test _ _ _ _ _ ?_).trans ?_ | with_reducible refine (awaitReport_pins _ _ _ _ _ ?_).trans ?_ | with_reducible refine (awaitReport_bulk _ _ _ _ _ ?_).trans ?_ | with_reducible refine (awaitReport_pending _ _ _ _ _ ?_).trans ?_ | with_reducible refine (report_twi _ _ _ _ _ _ ?_).trans ?_ | with_reducible refine (report_test _ _ _ _ _ _ ?_).trans ?_ | with_reducible refine (report_pins _ _ _ _ _ _ ?_).trans ?_ | with_reducible refine (report_bulk _ _ _ _ _ _ ?_).trans ?_ | with_reducible refine (report_pending _ _ _ _ _ _ ?_).trans ?_ | intro _ | split | simp)
@[simp] theorem sfAlignment_keeps (p : LPort) (s : State) :
    (sfAlignment p s).sys = s.sys ∧ (sfAlignment p s).power = s.power ∧ (sfAlignment p s).mbx = s.mbx ∧ (sfAlignment p s).twi = s.twi ∧ (sfAlignment p s).pool = s.pool ∧ (sfAlignment p s).lanes = s.lanes ∧ (sfAlignment p s).map = s.map ∧ (sfAlignment p s).dial = s.dial ∧ (sfAlignment p s).mon = s.mon ∧ (sfAlignment p s).alarms = s.alarms ∧ (sfAlignment p s).faults = s.faults ∧ (sfAlignment p s).jrx = s.jrx ∧ (sfAlignment p s).test = s.test ∧ (sfAlignment p s).pins = s.pins ∧ (sfAlignment p s).bulk = s.bulk ∧ (sfAlignment p s).free = s.free ∧ (sfAlignment p s).pending = s.pending := by
  simp only [sfAlignment]; (repeat' split) <;> simp
@[simp] theorem sfAlignLoss_keeps (p : LPort) (s : State) :
    (sfAlignLoss p s).sys = s.sys ∧ (sfAlignLoss p s).power = s.power ∧ (sfAlignLoss p s).twi = s.twi ∧ (sfAlignLoss p s).lanes = s.lanes ∧ (sfAlignLoss p s).mon = s.mon ∧ (sfAlignLoss p s).faults = s.faults ∧ (sfAlignLoss p s).test = s.test ∧ (sfAlignLoss p s).pins = s.pins ∧ (sfAlignLoss p s).bulk = s.bulk ∧ (sfAlignLoss p s).free = s.free ∧ (sfAlignLoss p s).pending = s.pending := by
  simp only [sfAlignLoss]; (repeat' split) <;> simp
@[simp] theorem moveLabels_keeps (p : LPort) (d : Int) (s : State) :
    (moveLabels p d s).sys = s.sys ∧ (moveLabels p d s).power = s.power ∧ (moveLabels p d s).mbx = s.mbx ∧ (moveLabels p d s).twi = s.twi ∧ (moveLabels p d s).pool = s.pool ∧ (moveLabels p d s).lanes = s.lanes ∧ (moveLabels p d s).map = s.map ∧ (moveLabels p d s).dial = s.dial ∧ (moveLabels p d s).mon = s.mon ∧ (moveLabels p d s).alarms = s.alarms ∧ (moveLabels p d s).faults = s.faults ∧ (moveLabels p d s).jrx = s.jrx ∧ (moveLabels p d s).test = s.test ∧ (moveLabels p d s).pins = s.pins ∧ (moveLabels p d s).bulk = s.bulk ∧ (moveLabels p d s).free = s.free ∧ (moveLabels p d s).pending = s.pending := by
  simp only [moveLabels]; (repeat' split) <;> simp
@[simp] theorem psfnLock_keeps (p : LPort) (s : State) :
    (psfnLock p s).power = s.power ∧ (psfnLock p s).twi = s.twi ∧ (psfnLock p s).lanes = s.lanes ∧ (psfnLock p s).mon = s.mon ∧ (psfnLock p s).faults = s.faults ∧ (psfnLock p s).test = s.test ∧ (psfnLock p s).pins = s.pins ∧ (psfnLock p s).bulk = s.bulk ∧ (psfnLock p s).pending = s.pending := by
  refine ⟨?_, ?_, ?_, ?_, ?_, ?_, ?_, ?_, ?_⟩ <;> (simp only [psfnLock]; repeat' first | with_reducible rfl | (simp; done) | with_reducible refine (eachOf_power _ _ _ ?_).trans ?_ | with_reducible refine (eachOf_twi _ _ _ ?_).trans ?_ | with_reducible refine (eachOf_lanes _ _ _ ?_).trans ?_ | with_reducible refine (eachOf_mon _ _ _ ?_).trans ?_ | with_reducible refine (eachOf_faults _ _ _ ?_).trans ?_ | with_reducible refine (eachOf_test _ _ _ ?_).trans ?_ | with_reducible refine (eachOf_pins _ _ _ ?_).trans ?_ | with_reducible refine (eachOf_bulk _ _ _ ?_).trans ?_ | with_reducible refine (eachOf_pending _ _ _ ?_).trans ?_ | with_reducible refine (eachPort_power _ _ ?_).trans ?_ | with_reducible refine (eachPort_twi _ _ ?_).trans ?_ | with_reducible refine (eachPort_lanes _ _ ?_).trans ?_ | with_reducible refine (eachPort_mon _ _ ?_).trans ?_ | with_reducible refine (eachPort_faults _ _ ?_).trans ?_ | with_reducible refine (eachPort_test _ _ ?_).trans ?_ | with_reducible refine (eachPort_pins _ _ ?_).trans ?_ | with_reducible refine (eachPort_bulk _ _ ?_).trans ?_ | with_reducible refine (eachPort_pending _ _ ?_).trans ?_ | with_reducible refine (doIf_power _ _ _ ?_).trans ?_ | with_reducible refine (doIf_twi _ _ _ ?_).trans ?_ | with_reducible refine (doIf_lanes _ _ _ ?_).trans ?_ | with_reducible refine (doIf_mon _ _ _ ?_).trans ?_ | with_reducible refine (doIf_faults _ _ _ ?_).trans ?_ | with_reducible refine (doIf_test _ _ _ ?_).trans ?_ | with_reducible refine (doIf_pins _ _ _ ?_).trans ?_ | with_reducible refine (doIf_bulk _ _ _ ?_).trans ?_ | with_reducible refine (doIf_pending _ _ _ ?_).trans ?_ | with_reducible refine (command_twi _ _ _ _ _ _ ?_).trans ?_ | with_reducible refine (command_test _ _ _ _ _ _ ?_).trans ?_ | with_reducible refine (command_pins _ _ _ _ _ _ ?_).trans ?_ | with_reducible refine (command_bulk _ _ _ _ _ _ ?_).trans ?_ | with_reducible refine (command_pending _ _ _ _ _ _ ?_).trans ?_ | with_reducible refine (commandOk_twi _ _ _ _ _ _ ?_).trans ?_ | with_reducible refine (commandOk_test _ _ _ _ _ _ ?_).trans ?_ | with_reducible refine (commandOk_pins _ _ _ _ _ _ ?_).trans ?_ | with_reducible refine (commandOk_bulk _ _ _ _ _ _ ?_).trans ?_ | with_reducible refine (commandOk_pending _ _ _ _ _ _ ?_).trans ?_ | with_reducible refine (awaitReport_power _ _ _ _ _ ?_).trans ?_ | with_reducible refine (awaitReport_twi _ _ _ _ _ ?_).trans ?_ | with_reducible refine (awaitReport_lanes _ _ _ _ _ ?_).trans ?_ | with_reducible refine (awaitReport_mon _ _ _ _ _ ?_).trans ?_ | with_reducible refine (awaitReport_faults _ _ _ _ _ ?_).trans ?_ | with_reducible refine (awaitReport_test _ _ _ _ _ ?_).trans ?_ | with_reducible refine (awaitReport_pins _ _ _ _ _ ?_).trans ?_ | with_reducible refine (awaitReport_bulk _ _ _ _ _ ?_).trans ?_ | with_reducible refine (awaitReport_pending _ _ _ _ _ ?_).trans ?_ | with_reducible refine (report_twi _ _ _ _ _ _ ?_).trans ?_ | with_reducible refine (report_test _ _ _ _ _ _ ?_).trans ?_ | with_reducible refine (report_pins _ _ _ _ _ _ ?_).trans ?_ | with_reducible refine (report_bulk _ _ _ _ _ _ ?_).trans ?_ | with_reducible refine (report_pending _ _ _ _ _ _ ?_).trans ?_ | intro _ | split | simp)
@[simp] theorem psfnLockLoss_keeps (p : LPort) (s : State) :
    (psfnLockLoss p s).sys = s.sys ∧ (psfnLockLoss p s).power = s.power ∧ (psfnLockLoss p s).twi = s.twi ∧ (psfnLockLoss p s).lanes = s.lanes ∧ (psfnLockLoss p s).mon = s.mon ∧ (psfnLockLoss p s).faults = s.faults ∧ (psfnLockLoss p s).test = s.test ∧ (psfnLockLoss p s).pins = s.pins ∧ (psfnLockLoss p s).bulk = s.bulk ∧ (psfnLockLoss p s).free = s.free ∧ (psfnLockLoss p s).pending = s.pending := by
  simp only [psfnLockLoss]; (repeat' split) <;> simp
@[simp] theorem psfnJump_keeps (p : LPort) (s : State) :
    (psfnJump p s).power = s.power ∧ (psfnJump p s).twi = s.twi ∧ (psfnJump p s).pool = s.pool ∧ (psfnJump p s).lanes = s.lanes ∧ (psfnJump p s).map = s.map ∧ (psfnJump p s).mon = s.mon ∧ (psfnJump p s).alarms = s.alarms ∧ (psfnJump p s).faults = s.faults ∧ (psfnJump p s).test = s.test ∧ (psfnJump p s).pins = s.pins ∧ (psfnJump p s).bulk = s.bulk ∧ (psfnJump p s).pending = s.pending := by
  simp only [psfnJump]; (repeat' split) <;> simp

@[simp] theorem postFault_keeps (e : LogEntry) (s : State) :
    (postFault e s).sys = s.sys ∧ (postFault e s).power = s.power ∧ (postFault e s).twi = s.twi ∧ (postFault e s).ports = s.ports ∧ (postFault e s).pool = s.pool ∧ (postFault e s).lanes = s.lanes ∧ (postFault e s).map = s.map ∧ (postFault e s).dial = s.dial ∧ (postFault e s).mon = s.mon ∧ (postFault e s).alarms = s.alarms ∧ (postFault e s).faults = s.faults ∧ (postFault e s).jrx = s.jrx ∧ (postFault e s).test = s.test ∧ (postFault e s).pins = s.pins ∧ (postFault e s).bulk = s.bulk ∧ (postFault e s).free = s.free ∧ (postFault e s).pending = s.pending := by
  simp only [postFault]; (repeat' split) <;> simp
@[simp] theorem postNewest_keeps (s : State) :
    (postNewest s).sys = s.sys ∧ (postNewest s).power = s.power ∧ (postNewest s).twi = s.twi ∧ (postNewest s).ports = s.ports ∧ (postNewest s).pool = s.pool ∧ (postNewest s).lanes = s.lanes ∧ (postNewest s).map = s.map ∧ (postNewest s).dial = s.dial ∧ (postNewest s).mon = s.mon ∧ (postNewest s).alarms = s.alarms ∧ (postNewest s).faults = s.faults ∧ (postNewest s).jrx = s.jrx ∧ (postNewest s).test = s.test ∧ (postNewest s).pins = s.pins ∧ (postNewest s).bulk = s.bulk ∧ (postNewest s).free = s.free ∧ (postNewest s).pending = s.pending := by
  simp only [postNewest]; (repeat' split) <;> simp
@[simp] theorem setOutcome_keeps (seq : BitVec 16) (outcome : Nat) (s : State) :
    (setOutcome seq outcome s).sys = s.sys ∧ (setOutcome seq outcome s).power = s.power ∧ (setOutcome seq outcome s).twi = s.twi ∧ (setOutcome seq outcome s).ports = s.ports ∧ (setOutcome seq outcome s).pool = s.pool ∧ (setOutcome seq outcome s).lanes = s.lanes ∧ (setOutcome seq outcome s).map = s.map ∧ (setOutcome seq outcome s).dial = s.dial ∧ (setOutcome seq outcome s).mon = s.mon ∧ (setOutcome seq outcome s).alarms = s.alarms ∧ (setOutcome seq outcome s).jrx = s.jrx ∧ (setOutcome seq outcome s).test = s.test ∧ (setOutcome seq outcome s).pins = s.pins ∧ (setOutcome seq outcome s).bulk = s.bulk ∧ (setOutcome seq outcome s).free = s.free ∧ (setOutcome seq outcome s).pending = s.pending := by
  simp only [setOutcome]; (repeat' split) <;> simp
@[simp] theorem endEntry_keeps (u : FUnit) (outcome : Nat) (s : State) :
    (endEntry u outcome s).sys = s.sys ∧ (endEntry u outcome s).power = s.power ∧ (endEntry u outcome s).twi = s.twi ∧ (endEntry u outcome s).ports = s.ports ∧ (endEntry u outcome s).pool = s.pool ∧ (endEntry u outcome s).lanes = s.lanes ∧ (endEntry u outcome s).map = s.map ∧ (endEntry u outcome s).dial = s.dial ∧ (endEntry u outcome s).mon = s.mon ∧ (endEntry u outcome s).alarms = s.alarms ∧ (endEntry u outcome s).jrx = s.jrx ∧ (endEntry u outcome s).test = s.test ∧ (endEntry u outcome s).pins = s.pins ∧ (endEntry u outcome s).bulk = s.bulk ∧ (endEntry u outcome s).free = s.free ∧ (endEntry u outcome s).pending = s.pending := by
  simp only [endEntry]; (repeat' split) <;> simp
@[simp] theorem coreWatchdog_keeps (c : Core) (s : State) :
    (coreWatchdog c s).free = s.free ∧ (coreWatchdog c s).pending = s.pending := by
  simp only [coreWatchdog]; (repeat' split) <;> simp
@[simp] theorem flowStall_keeps (u : FUnit) (index : BitVec 7) (s : State) :
    (flowStall u index s).free = s.free ∧ (flowStall u index s).pending = s.pending := by
  simp only [flowStall]; (repeat' split) <;> simp
@[simp] theorem tempCrit_keeps (sensor : BitVec 16) (s : State) :
    (tempCrit sensor s).free = s.free ∧ (tempCrit sensor s).pending = s.pending := by
  simp only [tempCrit]; (repeat' split) <;> simp
@[simp] theorem supply_keeps (channel : BitVec 16) (s : State) :
    (supply channel s).free = s.free ∧ (supply channel s).pending = s.pending := by
  simp only [supply]; (repeat' split) <;> simp
@[simp] theorem startRecovery_keeps (u : FUnit) (level : Nat) (seq : Option (BitVec 16)) (s : State) :
    (startRecovery u level seq s).twi = s.twi ∧ (startRecovery u level seq s).test = s.test ∧ (startRecovery u level seq s).pins = s.pins ∧ (startRecovery u level seq s).bulk = s.bulk ∧ (startRecovery u level seq s).pending = s.pending := by
  simp only [startRecovery]; (repeat' split) <;> simp
@[simp] theorem actOn_keeps (r : FaultRec) (s : State) :
    (actOn r s).pending = s.pending := by
  simp only [actOn]; (repeat' split) <;> simp
@[simp] theorem faultHandle_keeps (s : State) :
    (faultHandle s).pending = s.pending := by
  simp only [faultHandle]; (repeat' split) <;> simp
@[simp] theorem faultOverflowTakeup_keeps (s : State) :
    (faultOverflowTakeup s).sys = s.sys ∧ (faultOverflowTakeup s).power = s.power ∧ (faultOverflowTakeup s).mbx = s.mbx ∧ (faultOverflowTakeup s).twi = s.twi ∧ (faultOverflowTakeup s).ports = s.ports ∧ (faultOverflowTakeup s).pool = s.pool ∧ (faultOverflowTakeup s).lanes = s.lanes ∧ (faultOverflowTakeup s).map = s.map ∧ (faultOverflowTakeup s).dial = s.dial ∧ (faultOverflowTakeup s).mon = s.mon ∧ (faultOverflowTakeup s).alarms = s.alarms ∧ (faultOverflowTakeup s).jrx = s.jrx ∧ (faultOverflowTakeup s).test = s.test ∧ (faultOverflowTakeup s).pins = s.pins ∧ (faultOverflowTakeup s).bulk = s.bulk ∧ (faultOverflowTakeup s).free = s.free ∧ (faultOverflowTakeup s).pending = s.pending := by
  simp only [faultOverflowTakeup]; (repeat' split) <;> simp
@[simp] theorem recoveryActionDone_keeps (u : FUnit) (s : State) :
    (recoveryActionDone u s).twi = s.twi ∧ (recoveryActionDone u s).test = s.test ∧ (recoveryActionDone u s).pins = s.pins ∧ (recoveryActionDone u s).pending = s.pending := by
  simp only [recoveryActionDone]; (repeat' split) <;> simp
@[simp] theorem recoveryQuietExpiry_keeps (u : FUnit) (s : State) :
    (recoveryQuietExpiry u s).sys = s.sys ∧ (recoveryQuietExpiry u s).power = s.power ∧ (recoveryQuietExpiry u s).twi = s.twi ∧ (recoveryQuietExpiry u s).ports = s.ports ∧ (recoveryQuietExpiry u s).pool = s.pool ∧ (recoveryQuietExpiry u s).lanes = s.lanes ∧ (recoveryQuietExpiry u s).map = s.map ∧ (recoveryQuietExpiry u s).dial = s.dial ∧ (recoveryQuietExpiry u s).mon = s.mon ∧ (recoveryQuietExpiry u s).alarms = s.alarms ∧ (recoveryQuietExpiry u s).jrx = s.jrx ∧ (recoveryQuietExpiry u s).test = s.test ∧ (recoveryQuietExpiry u s).pins = s.pins ∧ (recoveryQuietExpiry u s).bulk = s.bulk ∧ (recoveryQuietExpiry u s).free = s.free ∧ (recoveryQuietExpiry u s).pending = s.pending := by
  simp only [recoveryQuietExpiry]; (repeat' split) <;> simp
@[simp] theorem alarmDefaultClear_keeps (key : AlarmKey) (b : Fin 32) (s : State) :
    (alarmDefaultClear key b s).sys = s.sys ∧ (alarmDefaultClear key b s).power = s.power ∧ (alarmDefaultClear key b s).twi = s.twi ∧ (alarmDefaultClear key b s).ports = s.ports ∧ (alarmDefaultClear key b s).lanes = s.lanes ∧ (alarmDefaultClear key b s).map = s.map ∧ (alarmDefaultClear key b s).dial = s.dial ∧ (alarmDefaultClear key b s).mon = s.mon ∧ (alarmDefaultClear key b s).faults = s.faults ∧ (alarmDefaultClear key b s).test = s.test ∧ (alarmDefaultClear key b s).pins = s.pins ∧ (alarmDefaultClear key b s).bulk = s.bulk ∧ (alarmDefaultClear key b s).free = s.free ∧ (alarmDefaultClear key b s).pending = s.pending := by
  simp only [alarmDefaultClear]; (repeat' split) <;> simp
@[simp] theorem alarmMaskSet_keeps (rq : Req) (s : State) :
    (alarmMaskSet rq s).twi = s.twi ∧ (alarmMaskSet rq s).test = s.test ∧ (alarmMaskSet rq s).pins = s.pins ∧ (alarmMaskSet rq s).bulk = s.bulk ∧ (alarmMaskSet rq s).pending = s.pending := by
  simp only [alarmMaskSet]; (repeat' split) <;> simp
@[simp] theorem alarmStatus_keeps (rq : Req) (s : State) :
    (alarmStatus rq s).twi = s.twi ∧ (alarmStatus rq s).test = s.test ∧ (alarmStatus rq s).pins = s.pins ∧ (alarmStatus rq s).bulk = s.bulk ∧ (alarmStatus rq s).pending = s.pending := by
  simp only [alarmStatus]; (repeat' split) <;> simp
@[simp] theorem faultLogRead_keeps (rq : Req) (s : State) :
    (faultLogRead rq s).twi = s.twi ∧ (faultLogRead rq s).test = s.test ∧ (faultLogRead rq s).pins = s.pins ∧ (faultLogRead rq s).pending = s.pending := by
  simp only [faultLogRead]; (repeat' split) <;> simp
@[simp] theorem releaseUnit_keeps (u : FUnit) (s : State) :
    (releaseUnit u s).twi = s.twi ∧ (releaseUnit u s).test = s.test ∧ (releaseUnit u s).pins = s.pins ∧ (releaseUnit u s).bulk = s.bulk ∧ (releaseUnit u s).pending = s.pending := by
  simp only [releaseUnit]; (repeat' split) <;> simp
@[simp] theorem emptyLog_keeps (s : State) :
    (emptyLog s).sys = s.sys ∧ (emptyLog s).power = s.power ∧ (emptyLog s).mbx = s.mbx ∧ (emptyLog s).twi = s.twi ∧ (emptyLog s).ports = s.ports ∧ (emptyLog s).pool = s.pool ∧ (emptyLog s).lanes = s.lanes ∧ (emptyLog s).map = s.map ∧ (emptyLog s).dial = s.dial ∧ (emptyLog s).mon = s.mon ∧ (emptyLog s).alarms = s.alarms ∧ (emptyLog s).jrx = s.jrx ∧ (emptyLog s).test = s.test ∧ (emptyLog s).pins = s.pins ∧ (emptyLog s).bulk = s.bulk ∧ (emptyLog s).free = s.free ∧ (emptyLog s).pending = s.pending := by
  simp only [emptyLog]; (repeat' split) <;> simp
@[simp] theorem faultClear_keeps (rq : Req) (s : State) :
    (faultClear rq s).twi = s.twi ∧ (faultClear rq s).test = s.test ∧ (faultClear rq s).pins = s.pins ∧ (faultClear rq s).bulk = s.bulk ∧ (faultClear rq s).pending = s.pending := by
  simp only [faultClear]; (repeat' split) <;> simp

@[simp] theorem powerOnReset_keeps (assert_ : Bool) (s : State) :
    (powerOnReset assert_ s).free = s.free ∧ (powerOnReset assert_ s).pending = s.pending := by
  simp only [powerOnReset]; (repeat' split) <;> simp
@[simp] theorem resetNPulse_keeps (lowNs : Nat) (midActs : Bool) (s : State) :
    (resetNPulse lowNs midActs s).free = s.free ∧ (resetNPulse lowNs midActs s).pending = s.pending := by
  simp only [resetNPulse]; (repeat' split) <;> simp
@[simp] theorem sysResetDelayExpiry_keeps (s : State) :
    (sysResetDelayExpiry s).free = s.free ∧ (sysResetDelayExpiry s).pending = s.pending := by
  simp only [sysResetDelayExpiry]; (repeat' split) <;> simp
@[simp] theorem resetRelease_keeps (boot : BitVec 2) (addr : BitVec 3) (s : State) :
    (resetRelease boot addr s).power = s.power ∧ (resetRelease boot addr s).mbx = s.mbx ∧ (resetRelease boot addr s).twi = s.twi ∧ (resetRelease boot addr s).ports = s.ports ∧ (resetRelease boot addr s).pool = s.pool ∧ (resetRelease boot addr s).lanes = s.lanes ∧ (resetRelease boot addr s).map = s.map ∧ (resetRelease boot addr s).dial = s.dial ∧ (resetRelease boot addr s).mon = s.mon ∧ (resetRelease boot addr s).alarms = s.alarms ∧ (resetRelease boot addr s).faults = s.faults ∧ (resetRelease boot addr s).jrx = s.jrx ∧ (resetRelease boot addr s).test = s.test ∧ (resetRelease boot addr s).pins = s.pins ∧ (resetRelease boot addr s).bulk = s.bulk ∧ (resetRelease boot addr s).free = s.free ∧ (resetRelease boot addr s).pending = s.pending := by
  simp only [resetRelease]; (repeat' split) <;> simp
@[simp] theorem flashSlotReadDone_keeps (header : Vector Word 64) (bodyWords : Nat) (s : State) :
    (flashSlotReadDone header bodyWords s).power = s.power ∧ (flashSlotReadDone header bodyWords s).mbx = s.mbx ∧ (flashSlotReadDone header bodyWords s).twi = s.twi ∧ (flashSlotReadDone header bodyWords s).ports = s.ports ∧ (flashSlotReadDone header bodyWords s).pool = s.pool ∧ (flashSlotReadDone header bodyWords s).lanes = s.lanes ∧ (flashSlotReadDone header bodyWords s).map = s.map ∧ (flashSlotReadDone header bodyWords s).dial = s.dial ∧ (flashSlotReadDone header bodyWords s).mon = s.mon ∧ (flashSlotReadDone header bodyWords s).alarms = s.alarms ∧ (flashSlotReadDone header bodyWords s).faults = s.faults ∧ (flashSlotReadDone header bodyWords s).jrx = s.jrx ∧ (flashSlotReadDone header bodyWords s).test = s.test ∧ (flashSlotReadDone header bodyWords s).pins = s.pins ∧ (flashSlotReadDone header bodyWords s).bulk = s.bulk ∧ (flashSlotReadDone header bodyWords s).free = s.free ∧ (flashSlotReadDone header bodyWords s).pending = s.pending := by
  simp only [flashSlotReadDone]; (repeat' split) <;> simp
theorem startCals_sys (s : State) : (eachPort (fun p s =>
    if isOn s (.cv p) = true then calStart p .foreground calAll 1 s else s) s).sys = s.sys :=
  eachPort_sys _ _ fun _ _ => by split <;> simp
theorem startCals_power (s : State) : (eachPort (fun p s =>
    if isOn s (.cv p) = true then calStart p .foreground calAll 1 s else s) s).power = s.power :=
  eachPort_power _ _ fun _ _ => by split <;> simp
theorem startCals_twi (s : State) : (eachPort (fun p s =>
    if isOn s (.cv p) = true then calStart p .foreground calAll 1 s else s) s).twi = s.twi :=
  eachPort_twi _ _ fun _ _ => by split <;> simp
theorem startCals_lanes (s : State) : (eachPort (fun p s =>
    if isOn s (.cv p) = true then calStart p .foreground calAll 1 s else s) s).lanes = s.lanes :=
  eachPort_lanes _ _ fun _ _ => by split <;> simp
theorem startCals_mon (s : State) : (eachPort (fun p s =>
    if isOn s (.cv p) = true then calStart p .foreground calAll 1 s else s) s).mon = s.mon :=
  eachPort_mon _ _ fun _ _ => by split <;> simp
theorem startCals_faults (s : State) : (eachPort (fun p s =>
    if isOn s (.cv p) = true then calStart p .foreground calAll 1 s else s) s).faults = s.faults :=
  eachPort_faults _ _ fun _ _ => by split <;> simp
theorem startCals_test (s : State) : (eachPort (fun p s =>
    if isOn s (.cv p) = true then calStart p .foreground calAll 1 s else s) s).test = s.test :=
  eachPort_test _ _ fun _ _ => by split <;> simp
theorem startCals_pins (s : State) : (eachPort (fun p s =>
    if isOn s (.cv p) = true then calStart p .foreground calAll 1 s else s) s).pins = s.pins :=
  eachPort_pins _ _ fun _ _ => by split <;> simp
theorem startCals_bulk (s : State) : (eachPort (fun p s =>
    if isOn s (.cv p) = true then calStart p .foreground calAll 1 s else s) s).bulk = s.bulk :=
  eachPort_bulk _ _ fun _ _ => by split <;> simp
theorem startCals_free (s : State) : (eachPort (fun p s =>
    if isOn s (.cv p) = true then calStart p .foreground calAll 1 s else s) s).free = s.free :=
  eachPort_free _ _ fun _ _ => by split <;> simp
theorem startCals_pending (s : State) : (eachPort (fun p s =>
    if isOn s (.cv p) = true then calStart p .foreground calAll 1 s else s) s).pending = s.pending :=
  eachPort_pending _ _ fun _ _ => by split <;> simp
@[simp] theorem startFirmware_keeps (s : State) :
    (startFirmware s).power = s.power ∧ (startFirmware s).twi = s.twi ∧ (startFirmware s).lanes = s.lanes ∧ (startFirmware s).mon = s.mon ∧ (startFirmware s).faults = s.faults ∧ (startFirmware s).test = s.test ∧ (startFirmware s).pins = s.pins ∧ (startFirmware s).bulk = s.bulk ∧ (startFirmware s).free = s.free ∧ (startFirmware s).pending = s.pending := by
  unfold startFirmware
  dsimp only
  split
  · split <;> simp
  · refine ⟨?_, ?_, ?_, ?_, ?_, ?_, ?_, ?_, ?_, ?_⟩ <;> split <;> first
    | (rw [(moveDev_keeps _ _ _).1, startCals_power]; rfl) | (rw [startCals_power]; rfl)
    | (rw [(moveDev_keeps _ _ _).2.1, startCals_twi]; rfl) | (rw [startCals_twi]; rfl)
    | (rw [(moveDev_keeps _ _ _).2.2.2.2.1, startCals_lanes]; rfl) | (rw [startCals_lanes]; rfl)
    | (rw [(moveDev_keeps _ _ _).2.2.2.2.2.2.2.1, startCals_mon]; rfl) | (rw [startCals_mon]; rfl)
    | (rw [(moveDev_keeps _ _ _).2.2.2.2.2.2.2.2.2.1, startCals_faults]; rfl) | (rw [startCals_faults]; rfl)
    | (rw [(moveDev_keeps _ _ _).2.2.2.2.2.2.2.2.2.2.2.1, startCals_test]; rfl) | (rw [startCals_test]; rfl)
    | (rw [(moveDev_keeps _ _ _).2.2.2.2.2.2.2.2.2.2.2.2.1, startCals_pins]; rfl) | (rw [startCals_pins]; rfl)
    | (rw [(moveDev_keeps _ _ _).2.2.2.2.2.2.2.2.2.2.2.2.2.1, startCals_bulk]; rfl) | (rw [startCals_bulk]; rfl)
    | (rw [(moveDev_keeps _ _ _).2.2.2.2.2.2.2.2.2.2.2.2.2.2.1, startCals_free]; rfl) | (rw [startCals_free]; rfl)
    | (rw [(moveDev_keeps _ _ _).2.2.2.2.2.2.2.2.2.2.2.2.2.2.2, startCals_pending]; rfl) | (rw [startCals_pending]; rfl)
@[simp] theorem imageFailed_keeps (e : Nat) (s : State) :
    (imageFailed e s).power = s.power ∧ (imageFailed e s).mbx = s.mbx ∧ (imageFailed e s).twi = s.twi ∧ (imageFailed e s).ports = s.ports ∧ (imageFailed e s).pool = s.pool ∧ (imageFailed e s).lanes = s.lanes ∧ (imageFailed e s).map = s.map ∧ (imageFailed e s).dial = s.dial ∧ (imageFailed e s).mon = s.mon ∧ (imageFailed e s).alarms = s.alarms ∧ (imageFailed e s).faults = s.faults ∧ (imageFailed e s).jrx = s.jrx ∧ (imageFailed e s).test = s.test ∧ (imageFailed e s).pins = s.pins ∧ (imageFailed e s).bulk = s.bulk ∧ (imageFailed e s).free = s.free ∧ (imageFailed e s).pending = s.pending := by
  simp only [imageFailed]; (repeat' split) <;> simp
@[simp] theorem imageVerifyDone_keeps (keyOk sigOk : Bool) (digest : Vector Word 8) (s : State) :
    (imageVerifyDone keyOk sigOk digest s).power = s.power ∧ (imageVerifyDone keyOk sigOk digest s).twi = s.twi ∧ (imageVerifyDone keyOk sigOk digest s).lanes = s.lanes ∧ (imageVerifyDone keyOk sigOk digest s).mon = s.mon ∧ (imageVerifyDone keyOk sigOk digest s).faults = s.faults ∧ (imageVerifyDone keyOk sigOk digest s).test = s.test ∧ (imageVerifyDone keyOk sigOk digest s).pins = s.pins ∧ (imageVerifyDone keyOk sigOk digest s).bulk = s.bulk ∧ (imageVerifyDone keyOk sigOk digest s).free = s.free ∧ (imageVerifyDone keyOk sigOk digest s).pending = s.pending := by
  simp only [imageVerifyDone]; (repeat' split) <;> simp
@[simp] theorem dlWrite_keeps (who : HostPort) (op len : Nat) (s : State) :
    (dlWrite who op len s).power = s.power ∧ (dlWrite who op len s).mbx = s.mbx ∧ (dlWrite who op len s).twi = s.twi ∧ (dlWrite who op len s).ports = s.ports ∧ (dlWrite who op len s).pool = s.pool ∧ (dlWrite who op len s).lanes = s.lanes ∧ (dlWrite who op len s).map = s.map ∧ (dlWrite who op len s).dial = s.dial ∧ (dlWrite who op len s).mon = s.mon ∧ (dlWrite who op len s).alarms = s.alarms ∧ (dlWrite who op len s).faults = s.faults ∧ (dlWrite who op len s).jrx = s.jrx ∧ (dlWrite who op len s).test = s.test ∧ (dlWrite who op len s).pins = s.pins ∧ (dlWrite who op len s).bulk = s.bulk ∧ (dlWrite who op len s).free = s.free ∧ (dlWrite who op len s).pending = s.pending := by
  simp only [dlWrite]; (repeat' split) <;> simp
@[simp] theorem dlAccess_keeps (who : HostPort) (op len : Nat) (s : State) :
    (dlAccess who op len s).power = s.power ∧ (dlAccess who op len s).mbx = s.mbx ∧ (dlAccess who op len s).ports = s.ports ∧ (dlAccess who op len s).pool = s.pool ∧ (dlAccess who op len s).lanes = s.lanes ∧ (dlAccess who op len s).map = s.map ∧ (dlAccess who op len s).dial = s.dial ∧ (dlAccess who op len s).mon = s.mon ∧ (dlAccess who op len s).alarms = s.alarms ∧ (dlAccess who op len s).faults = s.faults ∧ (dlAccess who op len s).jrx = s.jrx ∧ (dlAccess who op len s).test = s.test ∧ (dlAccess who op len s).pins = s.pins ∧ (dlAccess who op len s).bulk = s.bulk ∧ (dlAccess who op len s).free = s.free ∧ (dlAccess who op len s).pending = s.pending := by
  simp only [dlAccess]; (repeat' split) <;> simp
@[simp] theorem dlPartCopied_keeps (s : State) :
    (dlPartCopied s).power = s.power ∧ (dlPartCopied s).mbx = s.mbx ∧ (dlPartCopied s).twi = s.twi ∧ (dlPartCopied s).ports = s.ports ∧ (dlPartCopied s).pool = s.pool ∧ (dlPartCopied s).lanes = s.lanes ∧ (dlPartCopied s).map = s.map ∧ (dlPartCopied s).dial = s.dial ∧ (dlPartCopied s).mon = s.mon ∧ (dlPartCopied s).alarms = s.alarms ∧ (dlPartCopied s).faults = s.faults ∧ (dlPartCopied s).jrx = s.jrx ∧ (dlPartCopied s).test = s.test ∧ (dlPartCopied s).pins = s.pins ∧ (dlPartCopied s).bulk = s.bulk ∧ (dlPartCopied s).free = s.free ∧ (dlPartCopied s).pending = s.pending := by
  simp only [dlPartCopied]; (repeat' split) <;> simp

@[simp] theorem ptwiEnd_sys (result done : Nat) (s : State) :
    (ptwiEnd result done s).sys = s.sys := modTwi_sys _ s
@[simp] theorem ptwiEnd_power (result done : Nat) (s : State) :
    (ptwiEnd result done s).power = s.power := modTwi_power _ s
@[simp] theorem ptwiEnd_mbx (result done : Nat) (s : State) :
    (ptwiEnd result done s).mbx = s.mbx := modTwi_mbx _ s
@[simp] theorem ptwiEnd_ports (result done : Nat) (s : State) :
    (ptwiEnd result done s).ports = s.ports := modTwi_ports _ s
@[simp] theorem ptwiEnd_pool (result done : Nat) (s : State) :
    (ptwiEnd result done s).pool = s.pool := modTwi_pool _ s
@[simp] theorem ptwiEnd_lanes (result done : Nat) (s : State) :
    (ptwiEnd result done s).lanes = s.lanes := modTwi_lanes _ s
@[simp] theorem ptwiEnd_map (result done : Nat) (s : State) :
    (ptwiEnd result done s).map = s.map := modTwi_map _ s
@[simp] theorem ptwiEnd_dial (result done : Nat) (s : State) :
    (ptwiEnd result done s).dial = s.dial := modTwi_dial _ s
@[simp] theorem ptwiEnd_mon (result done : Nat) (s : State) :
    (ptwiEnd result done s).mon = s.mon := modTwi_mon _ s
@[simp] theorem ptwiEnd_alarms (result done : Nat) (s : State) :
    (ptwiEnd result done s).alarms = s.alarms := modTwi_alarms _ s
@[simp] theorem ptwiEnd_faults (result done : Nat) (s : State) :
    (ptwiEnd result done s).faults = s.faults := modTwi_faults _ s
@[simp] theorem ptwiEnd_jrx (result done : Nat) (s : State) :
    (ptwiEnd result done s).jrx = s.jrx := modTwi_jrx _ s
@[simp] theorem ptwiEnd_test (result done : Nat) (s : State) :
    (ptwiEnd result done s).test = s.test := modTwi_test _ s
@[simp] theorem ptwiEnd_pins (result done : Nat) (s : State) :
    (ptwiEnd result done s).pins = s.pins := modTwi_pins _ s
@[simp] theorem ptwiEnd_bulk (result done : Nat) (s : State) :
    (ptwiEnd result done s).bulk = s.bulk := modTwi_bulk _ s
@[simp] theorem ptwiEnd_free (result done : Nat) (s : State) :
    (ptwiEnd result done s).free = s.free := modTwi_free _ s
@[simp] theorem ptwiEnd_pending (result done : Nat) (s : State) :
    (ptwiEnd result done s).pending = s.pending := modTwi_pending _ s
@[simp] theorem ptwiCommand_keeps (w : Word) (s : State) :
    (ptwiCommand w s).sys = s.sys ∧ (ptwiCommand w s).power = s.power ∧ (ptwiCommand w s).mbx = s.mbx ∧ (ptwiCommand w s).ports = s.ports ∧ (ptwiCommand w s).pool = s.pool ∧ (ptwiCommand w s).lanes = s.lanes ∧ (ptwiCommand w s).map = s.map ∧ (ptwiCommand w s).dial = s.dial ∧ (ptwiCommand w s).mon = s.mon ∧ (ptwiCommand w s).alarms = s.alarms ∧ (ptwiCommand w s).faults = s.faults ∧ (ptwiCommand w s).jrx = s.jrx ∧ (ptwiCommand w s).test = s.test ∧ (ptwiCommand w s).pins = s.pins ∧ (ptwiCommand w s).bulk = s.bulk ∧ (ptwiCommand w s).free = s.free ∧ (ptwiCommand w s).pending = s.pending := by
  simp only [ptwiCommand]; (repeat' split) <;> simp
@[simp] theorem ptwiDone_keeps (how : PtwiEnd) (done : BitVec 6) (data : List Byte) (s : State) :
    (ptwiDone how done data s).sys = s.sys ∧ (ptwiDone how done data s).power = s.power ∧ (ptwiDone how done data s).mbx = s.mbx ∧ (ptwiDone how done data s).ports = s.ports ∧ (ptwiDone how done data s).pool = s.pool ∧ (ptwiDone how done data s).lanes = s.lanes ∧ (ptwiDone how done data s).map = s.map ∧ (ptwiDone how done data s).dial = s.dial ∧ (ptwiDone how done data s).mon = s.mon ∧ (ptwiDone how done data s).alarms = s.alarms ∧ (ptwiDone how done data s).faults = s.faults ∧ (ptwiDone how done data s).jrx = s.jrx ∧ (ptwiDone how done data s).test = s.test ∧ (ptwiDone how done data s).pins = s.pins ∧ (ptwiDone how done data s).bulk = s.bulk ∧ (ptwiDone how done data s).free = s.free ∧ (ptwiDone how done data s).pending = s.pending := by
  simp only [ptwiDone]; (repeat' split) <;> simp
@[simp] theorem bspiStart_keeps (w : Word) (s : State) :
    (bspiStart w s).sys = s.sys ∧ (bspiStart w s).power = s.power ∧ (bspiStart w s).mbx = s.mbx ∧ (bspiStart w s).ports = s.ports ∧ (bspiStart w s).pool = s.pool ∧ (bspiStart w s).lanes = s.lanes ∧ (bspiStart w s).map = s.map ∧ (bspiStart w s).dial = s.dial ∧ (bspiStart w s).mon = s.mon ∧ (bspiStart w s).alarms = s.alarms ∧ (bspiStart w s).faults = s.faults ∧ (bspiStart w s).jrx = s.jrx ∧ (bspiStart w s).test = s.test ∧ (bspiStart w s).pins = s.pins ∧ (bspiStart w s).bulk = s.bulk ∧ (bspiStart w s).free = s.free ∧ (bspiStart w s).pending = s.pending := by
  simp only [bspiStart]; (repeat' split) <;> simp
@[simp] theorem bspiCommand_keeps (w : Word) (s : State) :
    (bspiCommand w s).sys = s.sys ∧ (bspiCommand w s).mbx = s.mbx ∧ (bspiCommand w s).ports = s.ports ∧ (bspiCommand w s).pool = s.pool ∧ (bspiCommand w s).lanes = s.lanes ∧ (bspiCommand w s).map = s.map ∧ (bspiCommand w s).dial = s.dial ∧ (bspiCommand w s).mon = s.mon ∧ (bspiCommand w s).alarms = s.alarms ∧ (bspiCommand w s).faults = s.faults ∧ (bspiCommand w s).jrx = s.jrx ∧ (bspiCommand w s).test = s.test ∧ (bspiCommand w s).pins = s.pins ∧ (bspiCommand w s).bulk = s.bulk ∧ (bspiCommand w s).free = s.free ∧ (bspiCommand w s).pending = s.pending := by
  refine ⟨?_, ?_, ?_, ?_, ?_, ?_, ?_, ?_, ?_, ?_, ?_, ?_, ?_, ?_, ?_, ?_⟩ <;> (simp only [bspiCommand]; repeat' first | with_reducible rfl | (simp; done) | with_reducible refine (eachOf_sys _ _ _ ?_).trans ?_ | with_reducible refine (eachOf_mbx _ _ _ ?_).trans ?_ | with_reducible refine (eachOf_ports _ _ _ ?_).trans ?_ | with_reducible refine (eachOf_pool _ _ _ ?_).trans ?_ | with_reducible refine (eachOf_lanes _ _ _ ?_).trans ?_ | with_reducible refine (eachOf_map _ _ _ ?_).trans ?_ | with_reducible refine (eachOf_dial _ _ _ ?_).trans ?_ | with_reducible refine (eachOf_mon _ _ _ ?_).trans ?_ | with_reducible refine (eachOf_alarms _ _ _ ?_).trans ?_ | with_reducible refine (eachOf_faults _ _ _ ?_).trans ?_ | with_reducible refine (eachOf_jrx _ _ _ ?_).trans ?_ | with_reducible refine (eachOf_test _ _ _ ?_).trans ?_ | with_reducible refine (eachOf_pins _ _ _ ?_).trans ?_ | with_reducible refine (eachOf_bulk _ _ _ ?_).trans ?_ | with_reducible refine (eachOf_free _ _ _ ?_).trans ?_ | with_reducible refine (eachOf_pending _ _ _ ?_).trans ?_ | with_reducible refine (eachPort_sys _ _ ?_).trans ?_ | with_reducible refine (eachPort_mbx _ _ ?_).trans ?_ | with_reducible refine (eachPort_ports _ _ ?_).trans ?_ | with_reducible refine (eachPort_pool _ _ ?_).trans ?_ | with_reducible refine (eachPort_lanes _ _ ?_).trans ?_ | with_reducible refine (eachPort_map _ _ ?_).trans ?_ | with_reducible refine (eachPort_dial _ _ ?_).trans ?_ | with_reducible refine (eachPort_mon _ _ ?_).trans ?_ | with_reducible refine (eachPort_alarms _ _ ?_).trans ?_ | with_reducible refine (eachPort_faults _ _ ?_).trans ?_ | with_reducible refine (eachPort_jrx _ _ ?_).trans ?_ | with_reducible refine (eachPort_test _ _ ?_).trans ?_ | with_reducible refine (eachPort_pins _ _ ?_).trans ?_ | with_reducible refine (eachPort_bulk _ _ ?_).trans ?_ | with_reducible refine (eachPort_free _ _ ?_).trans ?_ | with_reducible refine (eachPort_pending _ _ ?_).trans ?_ | with_reducible refine (doIf_sys _ _ _ ?_).trans ?_ | with_reducible refine (doIf_mbx _ _ _ ?_).trans ?_ | with_reducible refine (doIf_ports _ _ _ ?_).trans ?_ | with_reducible refine (doIf_pool _ _ _ ?_).trans ?_ | with_reducible refine (doIf_lanes _ _ _ ?_).trans ?_ | with_reducible refine (doIf_map _ _ _ ?_).trans ?_ | with_reducible refine (doIf_dial _ _ _ ?_).trans ?_ | with_reducible refine (doIf_mon _ _ _ ?_).trans ?_ | with_reducible refine (doIf_alarms _ _ _ ?_).trans ?_ | with_reducible refine (doIf_faults _ _ _ ?_).trans ?_ | with_reducible refine (doIf_jrx _ _ _ ?_).trans ?_ | with_reducible refine (doIf_test _ _ _ ?_).trans ?_ | with_reducible refine (doIf_pins _ _ _ ?_).trans ?_ | with_reducible refine (doIf_bulk _ _ _ ?_).trans ?_ | with_reducible refine (doIf_free _ _ _ ?_).trans ?_ | with_reducible refine (doIf_pending _ _ _ ?_).trans ?_ | with_reducible refine (command_test _ _ _ _ _ _ ?_).trans ?_ | with_reducible refine (command_pins _ _ _ _ _ _ ?_).trans ?_ | with_reducible refine (command_bulk _ _ _ _ _ _ ?_).trans ?_ | with_reducible refine (command_pending _ _ _ _ _ _ ?_).trans ?_ | with_reducible refine (commandOk_test _ _ _ _ _ _ ?_).trans ?_ | with_reducible refine (commandOk_pins _ _ _ _ _ _ ?_).trans ?_ | with_reducible refine (commandOk_bulk _ _ _ _ _ _ ?_).trans ?_ | with_reducible refine (commandOk_pending _ _ _ _ _ _ ?_).trans ?_ | with_reducible refine (awaitReport_ports _ _ _ _ _ ?_).trans ?_ | with_reducible refine (awaitReport_pool _ _ _ _ _ ?_).trans ?_ | with_reducible refine (awaitReport_lanes _ _ _ _ _ ?_).trans ?_ | with_reducible refine (awaitReport_map _ _ _ _ _ ?_).trans ?_ | with_reducible refine (awaitReport_dial _ _ _ _ _ ?_).trans ?_ | with_reducible refine (awaitReport_mon _ _ _ _ _ ?_).trans ?_ | with_reducible refine (awaitReport_alarms _ _ _ _ _ ?_).trans ?_ | with_reducible refine (awaitReport_faults _ _ _ _ _ ?_).trans ?_ | with_reducible refine (awaitReport_jrx _ _ _ _ _ ?_).trans ?_ | with_reducible refine (awaitReport_test _ _ _ _ _ ?_).trans ?_ | with_reducible refine (awaitReport_pins _ _ _ _ _ ?_).trans ?_ | with_reducible refine (awaitReport_bulk _ _ _ _ _ ?_).trans ?_ | with_reducible refine (awaitReport_free _ _ _ _ _ ?_).trans ?_ | with_reducible refine (awaitReport_pending _ _ _ _ _ ?_).trans ?_ | with_reducible refine (report_test _ _ _ _ _ _ ?_).trans ?_ | with_reducible refine (report_pins _ _ _ _ _ _ ?_).trans ?_ | with_reducible refine (report_bulk _ _ _ _ _ _ ?_).trans ?_ | with_reducible refine (report_pending _ _ _ _ _ _ ?_).trans ?_ | intro _ | split | simp)
@[simp] theorem bspiDone_keeps (data : List Byte) (s : State) :
    (bspiDone data s).sys = s.sys ∧ (bspiDone data s).power = s.power ∧ (bspiDone data s).mbx = s.mbx ∧ (bspiDone data s).ports = s.ports ∧ (bspiDone data s).pool = s.pool ∧ (bspiDone data s).lanes = s.lanes ∧ (bspiDone data s).map = s.map ∧ (bspiDone data s).dial = s.dial ∧ (bspiDone data s).mon = s.mon ∧ (bspiDone data s).alarms = s.alarms ∧ (bspiDone data s).faults = s.faults ∧ (bspiDone data s).jrx = s.jrx ∧ (bspiDone data s).test = s.test ∧ (bspiDone data s).pins = s.pins ∧ (bspiDone data s).free = s.free ∧ (bspiDone data s).pending = s.pending := by
  rw [bspiDone]
  split
  · split
    · exact ⟨modTwi_sys _ s, modTwi_power _ s, modTwi_mbx _ s, modTwi_ports _ s, modTwi_pool _ s, modTwi_lanes _ s, modTwi_map _ s, modTwi_dial _ s, modTwi_mon _ s, modTwi_alarms _ s, modTwi_faults _ s, modTwi_jrx _ s, modTwi_test _ s, modTwi_pins _ s, modTwi_free _ s, modTwi_pending _ s⟩
    · exact ⟨modTwi_sys _ _, modTwi_power _ _, modTwi_mbx _ _, modTwi_ports _ _, modTwi_pool _ _, modTwi_lanes _ _, modTwi_map _ _, modTwi_dial _ _, modTwi_mon _ _, modTwi_alarms _ _, modTwi_faults _ _, modTwi_jrx _ _, modTwi_test _ _, modTwi_pins _ _, modTwi_free _ _, modTwi_pending _ _⟩
  · exact ⟨rfl, rfl, rfl, rfl, rfl, rfl, rfl, rfl, rfl, rfl, rfl, rfl, rfl, rfl, rfl, rfl⟩
@[simp] theorem writeTwi_keeps (a : Nat) (w : Word) (s : State) :
    (writeTwi a w s).sys = s.sys ∧ (writeTwi a w s).mbx = s.mbx ∧ (writeTwi a w s).ports = s.ports ∧ (writeTwi a w s).pool = s.pool ∧ (writeTwi a w s).lanes = s.lanes ∧ (writeTwi a w s).map = s.map ∧ (writeTwi a w s).dial = s.dial ∧ (writeTwi a w s).mon = s.mon ∧ (writeTwi a w s).alarms = s.alarms ∧ (writeTwi a w s).faults = s.faults ∧ (writeTwi a w s).jrx = s.jrx ∧ (writeTwi a w s).test = s.test ∧ (writeTwi a w s).pins = s.pins ∧ (writeTwi a w s).bulk = s.bulk ∧ (writeTwi a w s).free = s.free ∧ (writeTwi a w s).pending = s.pending := by
  simp only [writeTwi]; (repeat' split) <;> simp
@[simp] theorem writeMbx_keeps (who : HostPort) (a : Nat) (w : Word) (s : State) :
    (writeMbx who a w s).sys = s.sys ∧ (writeMbx who a w s).twi = s.twi ∧ (writeMbx who a w s).ports = s.ports ∧ (writeMbx who a w s).pool = s.pool ∧ (writeMbx who a w s).lanes = s.lanes ∧ (writeMbx who a w s).map = s.map ∧ (writeMbx who a w s).dial = s.dial ∧ (writeMbx who a w s).mon = s.mon ∧ (writeMbx who a w s).alarms = s.alarms ∧ (writeMbx who a w s).faults = s.faults ∧ (writeMbx who a w s).jrx = s.jrx ∧ (writeMbx who a w s).test = s.test ∧ (writeMbx who a w s).pins = s.pins ∧ (writeMbx who a w s).bulk = s.bulk ∧ (writeMbx who a w s).free = s.free ∧ (writeMbx who a w s).pending = s.pending := by
  refine ⟨?_, ?_, ?_, ?_, ?_, ?_, ?_, ?_, ?_, ?_, ?_, ?_, ?_, ?_, ?_, ?_⟩ <;> (simp only [writeMbx]; repeat' first | with_reducible rfl | (simp; done) | with_reducible refine (eachOf_sys _ _ _ ?_).trans ?_ | with_reducible refine (eachOf_twi _ _ _ ?_).trans ?_ | with_reducible refine (eachOf_ports _ _ _ ?_).trans ?_ | with_reducible refine (eachOf_pool _ _ _ ?_).trans ?_ | with_reducible refine (eachOf_lanes _ _ _ ?_).trans ?_ | with_reducible refine (eachOf_map _ _ _ ?_).trans ?_ | with_reducible refine (eachOf_dial _ _ _ ?_).trans ?_ | with_reducible refine (eachOf_mon _ _ _ ?_).trans ?_ | with_reducible refine (eachOf_alarms _ _ _ ?_).trans ?_ | with_reducible refine (eachOf_faults _ _ _ ?_).trans ?_ | with_reducible refine (eachOf_jrx _ _ _ ?_).trans ?_ | with_reducible refine (eachOf_test _ _ _ ?_).trans ?_ | with_reducible refine (eachOf_pins _ _ _ ?_).trans ?_ | with_reducible refine (eachOf_bulk _ _ _ ?_).trans ?_ | with_reducible refine (eachOf_free _ _ _ ?_).trans ?_ | with_reducible refine (eachOf_pending _ _ _ ?_).trans ?_ | with_reducible refine (eachPort_sys _ _ ?_).trans ?_ | with_reducible refine (eachPort_twi _ _ ?_).trans ?_ | with_reducible refine (eachPort_ports _ _ ?_).trans ?_ | with_reducible refine (eachPort_pool _ _ ?_).trans ?_ | with_reducible refine (eachPort_lanes _ _ ?_).trans ?_ | with_reducible refine (eachPort_map _ _ ?_).trans ?_ | with_reducible refine (eachPort_dial _ _ ?_).trans ?_ | with_reducible refine (eachPort_mon _ _ ?_).trans ?_ | with_reducible refine (eachPort_alarms _ _ ?_).trans ?_ | with_reducible refine (eachPort_faults _ _ ?_).trans ?_ | with_reducible refine (eachPort_jrx _ _ ?_).trans ?_ | with_reducible refine (eachPort_test _ _ ?_).trans ?_ | with_reducible refine (eachPort_pins _ _ ?_).trans ?_ | with_reducible refine (eachPort_bulk _ _ ?_).trans ?_ | with_reducible refine (eachPort_free _ _ ?_).trans ?_ | with_reducible refine (eachPort_pending _ _ ?_).trans ?_ | with_reducible refine (doIf_sys _ _ _ ?_).trans ?_ | with_reducible refine (doIf_twi _ _ _ ?_).trans ?_ | with_reducible refine (doIf_ports _ _ _ ?_).trans ?_ | with_reducible refine (doIf_pool _ _ _ ?_).trans ?_ | with_reducible refine (doIf_lanes _ _ _ ?_).trans ?_ | with_reducible refine (doIf_map _ _ _ ?_).trans ?_ | with_reducible refine (doIf_dial _ _ _ ?_).trans ?_ | with_reducible refine (doIf_mon _ _ _ ?_).trans ?_ | with_reducible refine (doIf_alarms _ _ _ ?_).trans ?_ | with_reducible refine (doIf_faults _ _ _ ?_).trans ?_ | with_reducible refine (doIf_jrx _ _ _ ?_).trans ?_ | with_reducible refine (doIf_test _ _ _ ?_).trans ?_ | with_reducible refine (doIf_pins _ _ _ ?_).trans ?_ | with_reducible refine (doIf_bulk _ _ _ ?_).trans ?_ | with_reducible refine (doIf_free _ _ _ ?_).trans ?_ | with_reducible refine (doIf_pending _ _ _ ?_).trans ?_ | with_reducible refine (command_twi _ _ _ _ _ _ ?_).trans ?_ | with_reducible refine (command_test _ _ _ _ _ _ ?_).trans ?_ | with_reducible refine (command_pins _ _ _ _ _ _ ?_).trans ?_ | with_reducible refine (command_bulk _ _ _ _ _ _ ?_).trans ?_ | with_reducible refine (command_pending _ _ _ _ _ _ ?_).trans ?_ | with_reducible refine (commandOk_twi _ _ _ _ _ _ ?_).trans ?_ | with_reducible refine (commandOk_test _ _ _ _ _ _ ?_).trans ?_ | with_reducible refine (commandOk_pins _ _ _ _ _ _ ?_).trans ?_ | with_reducible refine (commandOk_bulk _ _ _ _ _ _ ?_).trans ?_ | with_reducible refine (commandOk_pending _ _ _ _ _ _ ?_).trans ?_ | with_reducible refine (awaitReport_twi _ _ _ _ _ ?_).trans ?_ | with_reducible refine (awaitReport_ports _ _ _ _ _ ?_).trans ?_ | with_reducible refine (awaitReport_pool _ _ _ _ _ ?_).trans ?_ | with_reducible refine (awaitReport_lanes _ _ _ _ _ ?_).trans ?_ | with_reducible refine (awaitReport_map _ _ _ _ _ ?_).trans ?_ | with_reducible refine (awaitReport_dial _ _ _ _ _ ?_).trans ?_ | with_reducible refine (awaitReport_mon _ _ _ _ _ ?_).trans ?_ | with_reducible refine (awaitReport_alarms _ _ _ _ _ ?_).trans ?_ | with_reducible refine (awaitReport_faults _ _ _ _ _ ?_).trans ?_ | with_reducible refine (awaitReport_jrx _ _ _ _ _ ?_).trans ?_ | with_reducible refine (awaitReport_test _ _ _ _ _ ?_).trans ?_ | with_reducible refine (awaitReport_pins _ _ _ _ _ ?_).trans ?_ | with_reducible refine (awaitReport_bulk _ _ _ _ _ ?_).trans ?_ | with_reducible refine (awaitReport_free _ _ _ _ _ ?_).trans ?_ | with_reducible refine (awaitReport_pending _ _ _ _ _ ?_).trans ?_ | with_reducible refine (report_twi _ _ _ _ _ _ ?_).trans ?_ | with_reducible refine (report_test _ _ _ _ _ _ ?_).trans ?_ | with_reducible refine (report_pins _ _ _ _ _ _ ?_).trans ?_ | with_reducible refine (report_bulk _ _ _ _ _ _ ?_).trans ?_ | with_reducible refine (report_pending _ _ _ _ _ _ ?_).trans ?_ | intro _ | split | simp)
@[simp] theorem regWrite_keeps (who : HostPort) (addr : BitVec 16) (w : Word) (s : State) :
    (regWrite who addr w s).ports = s.ports ∧ (regWrite who addr w s).pool = s.pool ∧ (regWrite who addr w s).lanes = s.lanes ∧ (regWrite who addr w s).map = s.map ∧ (regWrite who addr w s).dial = s.dial ∧ (regWrite who addr w s).mon = s.mon ∧ (regWrite who addr w s).alarms = s.alarms ∧ (regWrite who addr w s).faults = s.faults ∧ (regWrite who addr w s).jrx = s.jrx ∧ (regWrite who addr w s).test = s.test ∧ (regWrite who addr w s).pins = s.pins ∧ (regWrite who addr w s).free = s.free ∧ (regWrite who addr w s).pending = s.pending := by
  simp only [regWrite]; (repeat' split) <;> simp
@[simp] theorem sleepAccess_keeps (who : HostPort) (addr : BitVec 16) (w : Option Word) (s : State) :
    (sleepAccess who addr w s).sys = s.sys ∧ (sleepAccess who addr w s).mbx = s.mbx ∧ (sleepAccess who addr w s).ports = s.ports ∧ (sleepAccess who addr w s).pool = s.pool ∧ (sleepAccess who addr w s).lanes = s.lanes ∧ (sleepAccess who addr w s).map = s.map ∧ (sleepAccess who addr w s).dial = s.dial ∧ (sleepAccess who addr w s).mon = s.mon ∧ (sleepAccess who addr w s).alarms = s.alarms ∧ (sleepAccess who addr w s).faults = s.faults ∧ (sleepAccess who addr w s).jrx = s.jrx ∧ (sleepAccess who addr w s).test = s.test ∧ (sleepAccess who addr w s).pins = s.pins ∧ (sleepAccess who addr w s).bulk = s.bulk ∧ (sleepAccess who addr w s).free = s.free ∧ (sleepAccess who addr w s).pending = s.pending := by
  refine ⟨?_, ?_, ?_, ?_, ?_, ?_, ?_, ?_, ?_, ?_, ?_, ?_, ?_, ?_, ?_, ?_⟩ <;> (simp only [sleepAccess]; repeat' first | with_reducible rfl | (simp; done) | with_reducible refine (eachOf_sys _ _ _ ?_).trans ?_ | with_reducible refine (eachOf_mbx _ _ _ ?_).trans ?_ | with_reducible refine (eachOf_ports _ _ _ ?_).trans ?_ | with_reducible refine (eachOf_pool _ _ _ ?_).trans ?_ | with_reducible refine (eachOf_lanes _ _ _ ?_).trans ?_ | with_reducible refine (eachOf_map _ _ _ ?_).trans ?_ | with_reducible refine (eachOf_dial _ _ _ ?_).trans ?_ | with_reducible refine (eachOf_mon _ _ _ ?_).trans ?_ | with_reducible refine (eachOf_alarms _ _ _ ?_).trans ?_ | with_reducible refine (eachOf_faults _ _ _ ?_).trans ?_ | with_reducible refine (eachOf_jrx _ _ _ ?_).trans ?_ | with_reducible refine (eachOf_test _ _ _ ?_).trans ?_ | with_reducible refine (eachOf_pins _ _ _ ?_).trans ?_ | with_reducible refine (eachOf_bulk _ _ _ ?_).trans ?_ | with_reducible refine (eachOf_free _ _ _ ?_).trans ?_ | with_reducible refine (eachOf_pending _ _ _ ?_).trans ?_ | with_reducible refine (eachPort_sys _ _ ?_).trans ?_ | with_reducible refine (eachPort_mbx _ _ ?_).trans ?_ | with_reducible refine (eachPort_ports _ _ ?_).trans ?_ | with_reducible refine (eachPort_pool _ _ ?_).trans ?_ | with_reducible refine (eachPort_lanes _ _ ?_).trans ?_ | with_reducible refine (eachPort_map _ _ ?_).trans ?_ | with_reducible refine (eachPort_dial _ _ ?_).trans ?_ | with_reducible refine (eachPort_mon _ _ ?_).trans ?_ | with_reducible refine (eachPort_alarms _ _ ?_).trans ?_ | with_reducible refine (eachPort_faults _ _ ?_).trans ?_ | with_reducible refine (eachPort_jrx _ _ ?_).trans ?_ | with_reducible refine (eachPort_test _ _ ?_).trans ?_ | with_reducible refine (eachPort_pins _ _ ?_).trans ?_ | with_reducible refine (eachPort_bulk _ _ ?_).trans ?_ | with_reducible refine (eachPort_free _ _ ?_).trans ?_ | with_reducible refine (eachPort_pending _ _ ?_).trans ?_ | with_reducible refine (doIf_sys _ _ _ ?_).trans ?_ | with_reducible refine (doIf_mbx _ _ _ ?_).trans ?_ | with_reducible refine (doIf_ports _ _ _ ?_).trans ?_ | with_reducible refine (doIf_pool _ _ _ ?_).trans ?_ | with_reducible refine (doIf_lanes _ _ _ ?_).trans ?_ | with_reducible refine (doIf_map _ _ _ ?_).trans ?_ | with_reducible refine (doIf_dial _ _ _ ?_).trans ?_ | with_reducible refine (doIf_mon _ _ _ ?_).trans ?_ | with_reducible refine (doIf_alarms _ _ _ ?_).trans ?_ | with_reducible refine (doIf_faults _ _ _ ?_).trans ?_ | with_reducible refine (doIf_jrx _ _ _ ?_).trans ?_ | with_reducible refine (doIf_test _ _ _ ?_).trans ?_ | with_reducible refine (doIf_pins _ _ _ ?_).trans ?_ | with_reducible refine (doIf_bulk _ _ _ ?_).trans ?_ | with_reducible refine (doIf_free _ _ _ ?_).trans ?_ | with_reducible refine (doIf_pending _ _ _ ?_).trans ?_ | with_reducible refine (command_test _ _ _ _ _ _ ?_).trans ?_ | with_reducible refine (command_pins _ _ _ _ _ _ ?_).trans ?_ | with_reducible refine (command_bulk _ _ _ _ _ _ ?_).trans ?_ | with_reducible refine (command_pending _ _ _ _ _ _ ?_).trans ?_ | with_reducible refine (commandOk_test _ _ _ _ _ _ ?_).trans ?_ | with_reducible refine (commandOk_pins _ _ _ _ _ _ ?_).trans ?_ | with_reducible refine (commandOk_bulk _ _ _ _ _ _ ?_).trans ?_ | with_reducible refine (commandOk_pending _ _ _ _ _ _ ?_).trans ?_ | with_reducible refine (awaitReport_ports _ _ _ _ _ ?_).trans ?_ | with_reducible refine (awaitReport_pool _ _ _ _ _ ?_).trans ?_ | with_reducible refine (awaitReport_lanes _ _ _ _ _ ?_).trans ?_ | with_reducible refine (awaitReport_map _ _ _ _ _ ?_).trans ?_ | with_reducible refine (awaitReport_dial _ _ _ _ _ ?_).trans ?_ | with_reducible refine (awaitReport_mon _ _ _ _ _ ?_).trans ?_ | with_reducible refine (awaitReport_alarms _ _ _ _ _ ?_).trans ?_ | with_reducible refine (awaitReport_faults _ _ _ _ _ ?_).trans ?_ | with_reducible refine (awaitReport_jrx _ _ _ _ _ ?_).trans ?_ | with_reducible refine (awaitReport_test _ _ _ _ _ ?_).trans ?_ | with_reducible refine (awaitReport_pins _ _ _ _ _ ?_).trans ?_ | with_reducible refine (awaitReport_bulk _ _ _ _ _ ?_).trans ?_ | with_reducible refine (awaitReport_free _ _ _ _ _ ?_).trans ?_ | with_reducible refine (awaitReport_pending _ _ _ _ _ ?_).trans ?_ | with_reducible refine (report_test _ _ _ _ _ _ ?_).trans ?_ | with_reducible refine (report_pins _ _ _ _ _ _ ?_).trans ?_ | with_reducible refine (report_bulk _ _ _ _ _ _ ?_).trans ?_ | with_reducible refine (report_pending _ _ _ _ _ _ ?_).trans ?_ | intro _ | split | simp)
@[simp] theorem readLpsStatus_snd_sys (who : HostPort) (p : LPort) (s : State) : (readLpsStatus who p s).2.sys = s.sys := by
  simp only [readLpsStatus]; repeat' first | with_reducible rfl | (simp; done) | split | simp
@[simp] theorem readLpsStatus_snd_power (who : HostPort) (p : LPort) (s : State) : (readLpsStatus who p s).2.power = s.power := by
  simp only [readLpsStatus]; repeat' first | with_reducible rfl | (simp; done) | split | simp
@[simp] theorem readLpsStatus_snd_mbx (who : HostPort) (p : LPort) (s : State) : (readLpsStatus who p s).2.mbx = s.mbx := by
  simp only [readLpsStatus]; repeat' first | with_reducible rfl | (simp; done) | split | simp
@[simp] theorem readLpsStatus_snd_ports (who : HostPort) (p : LPort) (s : State) : (readLpsStatus who p s).2.ports = s.ports := by
  simp only [readLpsStatus]; repeat' first | with_reducible rfl | (simp; done) | split | simp
@[simp] theorem readLpsStatus_snd_pool (who : HostPort) (p : LPort) (s : State) : (readLpsStatus who p s).2.pool = s.pool := by
  simp only [readLpsStatus]; repeat' first | with_reducible rfl | (simp; done) | split | simp
@[simp] theorem readLpsStatus_snd_lanes (who : HostPort) (p : LPort) (s : State) : (readLpsStatus who p s).2.lanes = s.lanes := by
  simp only [readLpsStatus]; repeat' first | with_reducible rfl | (simp; done) | split | simp
@[simp] theorem readLpsStatus_snd_map (who : HostPort) (p : LPort) (s : State) : (readLpsStatus who p s).2.map = s.map := by
  simp only [readLpsStatus]; repeat' first | with_reducible rfl | (simp; done) | split | simp
@[simp] theorem readLpsStatus_snd_dial (who : HostPort) (p : LPort) (s : State) : (readLpsStatus who p s).2.dial = s.dial := by
  simp only [readLpsStatus]; repeat' first | with_reducible rfl | (simp; done) | split | simp
@[simp] theorem readLpsStatus_snd_mon (who : HostPort) (p : LPort) (s : State) : (readLpsStatus who p s).2.mon = s.mon := by
  simp only [readLpsStatus]; repeat' first | with_reducible rfl | (simp; done) | split | simp
@[simp] theorem readLpsStatus_snd_alarms (who : HostPort) (p : LPort) (s : State) : (readLpsStatus who p s).2.alarms = s.alarms := by
  simp only [readLpsStatus]; repeat' first | with_reducible rfl | (simp; done) | split | simp
@[simp] theorem readLpsStatus_snd_faults (who : HostPort) (p : LPort) (s : State) : (readLpsStatus who p s).2.faults = s.faults := by
  simp only [readLpsStatus]; repeat' first | with_reducible rfl | (simp; done) | split | simp
@[simp] theorem readLpsStatus_snd_jrx (who : HostPort) (p : LPort) (s : State) : (readLpsStatus who p s).2.jrx = s.jrx := by
  simp only [readLpsStatus]; repeat' first | with_reducible rfl | (simp; done) | split | simp
@[simp] theorem readLpsStatus_snd_test (who : HostPort) (p : LPort) (s : State) : (readLpsStatus who p s).2.test = s.test := by
  simp only [readLpsStatus]; repeat' first | with_reducible rfl | (simp; done) | split | simp
@[simp] theorem readLpsStatus_snd_pins (who : HostPort) (p : LPort) (s : State) : (readLpsStatus who p s).2.pins = s.pins := by
  simp only [readLpsStatus]; repeat' first | with_reducible rfl | (simp; done) | split | simp
@[simp] theorem readLpsStatus_snd_bulk (who : HostPort) (p : LPort) (s : State) : (readLpsStatus who p s).2.bulk = s.bulk := by
  simp only [readLpsStatus]; repeat' first | with_reducible rfl | (simp; done) | split | simp
@[simp] theorem readLpsStatus_snd_free (who : HostPort) (p : LPort) (s : State) : (readLpsStatus who p s).2.free = s.free := by
  simp only [readLpsStatus]; repeat' first | with_reducible rfl | (simp; done) | split | simp
@[simp] theorem readLpsStatus_snd_pending (who : HostPort) (p : LPort) (s : State) : (readLpsStatus who p s).2.pending = s.pending := by
  simp only [readLpsStatus]; repeat' first | with_reducible rfl | (simp; done) | split | simp
@[simp] theorem readResLo_snd_sys (who : HostPort) (c : Fin 24) (s : State) : (readResLo who c s).2.sys = s.sys := by
  simp only [readResLo]; repeat' first | with_reducible rfl | (simp; done) | split | simp
@[simp] theorem readResLo_snd_power (who : HostPort) (c : Fin 24) (s : State) : (readResLo who c s).2.power = s.power := by
  simp only [readResLo]; repeat' first | with_reducible rfl | (simp; done) | split | simp
@[simp] theorem readResLo_snd_mbx (who : HostPort) (c : Fin 24) (s : State) : (readResLo who c s).2.mbx = s.mbx := by
  simp only [readResLo]; repeat' first | with_reducible rfl | (simp; done) | split | simp
@[simp] theorem readResLo_snd_ports (who : HostPort) (c : Fin 24) (s : State) : (readResLo who c s).2.ports = s.ports := by
  simp only [readResLo]; repeat' first | with_reducible rfl | (simp; done) | split | simp
@[simp] theorem readResLo_snd_pool (who : HostPort) (c : Fin 24) (s : State) : (readResLo who c s).2.pool = s.pool := by
  simp only [readResLo]; repeat' first | with_reducible rfl | (simp; done) | split | simp
@[simp] theorem readResLo_snd_lanes (who : HostPort) (c : Fin 24) (s : State) : (readResLo who c s).2.lanes = s.lanes := by
  simp only [readResLo]; repeat' first | with_reducible rfl | (simp; done) | split | simp
@[simp] theorem readResLo_snd_map (who : HostPort) (c : Fin 24) (s : State) : (readResLo who c s).2.map = s.map := by
  simp only [readResLo]; repeat' first | with_reducible rfl | (simp; done) | split | simp
@[simp] theorem readResLo_snd_dial (who : HostPort) (c : Fin 24) (s : State) : (readResLo who c s).2.dial = s.dial := by
  simp only [readResLo]; repeat' first | with_reducible rfl | (simp; done) | split | simp
@[simp] theorem readResLo_snd_mon (who : HostPort) (c : Fin 24) (s : State) : (readResLo who c s).2.mon = s.mon := by
  simp only [readResLo]; repeat' first | with_reducible rfl | (simp; done) | split | simp
@[simp] theorem readResLo_snd_alarms (who : HostPort) (c : Fin 24) (s : State) : (readResLo who c s).2.alarms = s.alarms := by
  simp only [readResLo]; repeat' first | with_reducible rfl | (simp; done) | split | simp
@[simp] theorem readResLo_snd_faults (who : HostPort) (c : Fin 24) (s : State) : (readResLo who c s).2.faults = s.faults := by
  simp only [readResLo]; repeat' first | with_reducible rfl | (simp; done) | split | simp
@[simp] theorem readResLo_snd_jrx (who : HostPort) (c : Fin 24) (s : State) : (readResLo who c s).2.jrx = s.jrx := by
  simp only [readResLo]; repeat' first | with_reducible rfl | (simp; done) | split | simp
@[simp] theorem readResLo_snd_test (who : HostPort) (c : Fin 24) (s : State) : (readResLo who c s).2.test = s.test := by
  simp only [readResLo]; repeat' first | with_reducible rfl | (simp; done) | split | simp
@[simp] theorem readResLo_snd_pins (who : HostPort) (c : Fin 24) (s : State) : (readResLo who c s).2.pins = s.pins := by
  simp only [readResLo]; repeat' first | with_reducible rfl | (simp; done) | split | simp
@[simp] theorem readResLo_snd_bulk (who : HostPort) (c : Fin 24) (s : State) : (readResLo who c s).2.bulk = s.bulk := by
  simp only [readResLo]; repeat' first | with_reducible rfl | (simp; done) | split | simp
@[simp] theorem readResLo_snd_free (who : HostPort) (c : Fin 24) (s : State) : (readResLo who c s).2.free = s.free := by
  simp only [readResLo]; repeat' first | with_reducible rfl | (simp; done) | split | simp
@[simp] theorem readResLo_snd_pending (who : HostPort) (c : Fin 24) (s : State) : (readResLo who c s).2.pending = s.pending := by
  simp only [readResLo]; repeat' first | with_reducible rfl | (simp; done) | split | simp
@[simp] theorem regRead_snd_sys (who : HostPort) (addr : BitVec 16) (s : State) : (regRead who addr s).2.sys = s.sys := by
  simp only [regRead]; repeat' first | with_reducible rfl | (simp; done) | split | simp
@[simp] theorem regRead_snd_power (who : HostPort) (addr : BitVec 16) (s : State) : (regRead who addr s).2.power = s.power := by
  simp only [regRead]; repeat' first | with_reducible rfl | (simp; done) | split | simp
@[simp] theorem regRead_snd_ports (who : HostPort) (addr : BitVec 16) (s : State) : (regRead who addr s).2.ports = s.ports := by
  simp only [regRead]; repeat' first | with_reducible rfl | (simp; done) | split | simp
@[simp] theorem regRead_snd_pool (who : HostPort) (addr : BitVec 16) (s : State) : (regRead who addr s).2.pool = s.pool := by
  simp only [regRead]; repeat' first | with_reducible rfl | (simp; done) | split | simp
@[simp] theorem regRead_snd_lanes (who : HostPort) (addr : BitVec 16) (s : State) : (regRead who addr s).2.lanes = s.lanes := by
  simp only [regRead]; repeat' first | with_reducible rfl | (simp; done) | split | simp
@[simp] theorem regRead_snd_map (who : HostPort) (addr : BitVec 16) (s : State) : (regRead who addr s).2.map = s.map := by
  simp only [regRead]; repeat' first | with_reducible rfl | (simp; done) | split | simp
@[simp] theorem regRead_snd_dial (who : HostPort) (addr : BitVec 16) (s : State) : (regRead who addr s).2.dial = s.dial := by
  simp only [regRead]; repeat' first | with_reducible rfl | (simp; done) | split | simp
@[simp] theorem regRead_snd_mon (who : HostPort) (addr : BitVec 16) (s : State) : (regRead who addr s).2.mon = s.mon := by
  simp only [regRead]; repeat' first | with_reducible rfl | (simp; done) | split | simp
@[simp] theorem regRead_snd_alarms (who : HostPort) (addr : BitVec 16) (s : State) : (regRead who addr s).2.alarms = s.alarms := by
  simp only [regRead]; repeat' first | with_reducible rfl | (simp; done) | split | simp
@[simp] theorem regRead_snd_faults (who : HostPort) (addr : BitVec 16) (s : State) : (regRead who addr s).2.faults = s.faults := by
  simp only [regRead]; repeat' first | with_reducible rfl | (simp; done) | split | simp
@[simp] theorem regRead_snd_jrx (who : HostPort) (addr : BitVec 16) (s : State) : (regRead who addr s).2.jrx = s.jrx := by
  simp only [regRead]; repeat' first | with_reducible rfl | (simp; done) | split | simp
@[simp] theorem regRead_snd_test (who : HostPort) (addr : BitVec 16) (s : State) : (regRead who addr s).2.test = s.test := by
  simp only [regRead]; repeat' first | with_reducible rfl | (simp; done) | split | simp
@[simp] theorem regRead_snd_pins (who : HostPort) (addr : BitVec 16) (s : State) : (regRead who addr s).2.pins = s.pins := by
  simp only [regRead]; repeat' first | with_reducible rfl | (simp; done) | split | simp
@[simp] theorem regRead_snd_bulk (who : HostPort) (addr : BitVec 16) (s : State) : (regRead who addr s).2.bulk = s.bulk := by
  simp only [regRead]; repeat' first | with_reducible rfl | (simp; done) | split | simp
@[simp] theorem regRead_snd_free (who : HostPort) (addr : BitVec 16) (s : State) : (regRead who addr s).2.free = s.free := by
  simp only [regRead]; repeat' first | with_reducible rfl | (simp; done) | split | simp
@[simp] theorem regRead_snd_pending (who : HostPort) (addr : BitVec 16) (s : State) : (regRead who addr s).2.pending = s.pending := by
  simp only [regRead]; repeat' first | with_reducible rfl | (simp; done) | split | simp
@[simp] theorem registerRead_keeps (who : HostPort) (addr : BitVec 16) (s : State) :
    (registerRead who addr s).sys = s.sys ∧ (registerRead who addr s).ports = s.ports ∧ (registerRead who addr s).pool = s.pool ∧ (registerRead who addr s).lanes = s.lanes ∧ (registerRead who addr s).map = s.map ∧ (registerRead who addr s).dial = s.dial ∧ (registerRead who addr s).mon = s.mon ∧ (registerRead who addr s).alarms = s.alarms ∧ (registerRead who addr s).faults = s.faults ∧ (registerRead who addr s).jrx = s.jrx ∧ (registerRead who addr s).test = s.test ∧ (registerRead who addr s).pins = s.pins ∧ (registerRead who addr s).bulk = s.bulk ∧ (registerRead who addr s).free = s.free ∧ (registerRead who addr s).pending = s.pending := by
  refine ⟨access_sys _ _ _ fun s => by split <;> simp, access_ports _ _ _ fun s => by split <;> simp, access_pool _ _ _ fun s => by split <;> simp, access_lanes _ _ _ fun s => by split <;> simp, access_map _ _ _ fun s => by split <;> simp, access_dial _ _ _ fun s => by split <;> simp, access_mon _ _ _ fun s => by split <;> simp, access_alarms _ _ _ fun s => by split <;> simp, access_faults _ _ _ fun s => by split <;> simp, access_jrx _ _ _ fun s => by split <;> simp, access_test _ _ _ fun s => by split <;> simp, access_pins _ _ _ fun s => by split <;> simp, access_bulk _ _ _ fun s => by split <;> simp, access_free _ _ _ fun s => by split <;> simp, access_pending _ _ _ fun s => by split <;> simp⟩
@[simp] theorem registerWrite_keeps (who : HostPort) (addr : BitVec 16) (w : Word) (s : State) :
    (registerWrite who addr w s).ports = s.ports ∧ (registerWrite who addr w s).pool = s.pool ∧ (registerWrite who addr w s).lanes = s.lanes ∧ (registerWrite who addr w s).map = s.map ∧ (registerWrite who addr w s).dial = s.dial ∧ (registerWrite who addr w s).mon = s.mon ∧ (registerWrite who addr w s).alarms = s.alarms ∧ (registerWrite who addr w s).faults = s.faults ∧ (registerWrite who addr w s).jrx = s.jrx ∧ (registerWrite who addr w s).test = s.test ∧ (registerWrite who addr w s).pins = s.pins ∧ (registerWrite who addr w s).free = s.free ∧ (registerWrite who addr w s).pending = s.pending := by
  refine ⟨access_ports _ _ _ fun s => by split <;> simp, access_pool _ _ _ fun s => by split <;> simp, access_lanes _ _ _ fun s => by split <;> simp, access_map _ _ _ fun s => by split <;> simp, access_dial _ _ _ fun s => by split <;> simp, access_mon _ _ _ fun s => by split <;> simp, access_alarms _ _ _ fun s => by split <;> simp, access_faults _ _ _ fun s => by split <;> simp, access_jrx _ _ _ fun s => by split <;> simp, access_test _ _ _ fun s => by split <;> simp, access_pins _ _ _ fun s => by split <;> simp, access_free _ _ _ fun s => by split <;> simp, access_pending _ _ _ fun s => by split <;> simp⟩
@[simp] theorem counterLowRead_keeps (who : HostPort) (addr : BitVec 16) (value : BitVec 64) (s : State) :
    (counterLowRead who addr value s).sys = s.sys ∧ (counterLowRead who addr value s).power = s.power ∧ (counterLowRead who addr value s).mbx = s.mbx ∧ (counterLowRead who addr value s).ports = s.ports ∧ (counterLowRead who addr value s).pool = s.pool ∧ (counterLowRead who addr value s).lanes = s.lanes ∧ (counterLowRead who addr value s).map = s.map ∧ (counterLowRead who addr value s).dial = s.dial ∧ (counterLowRead who addr value s).mon = s.mon ∧ (counterLowRead who addr value s).alarms = s.alarms ∧ (counterLowRead who addr value s).faults = s.faults ∧ (counterLowRead who addr value s).jrx = s.jrx ∧ (counterLowRead who addr value s).test = s.test ∧ (counterLowRead who addr value s).pins = s.pins ∧ (counterLowRead who addr value s).bulk = s.bulk ∧ (counterLowRead who addr value s).free = s.free ∧ (counterLowRead who addr value s).pending = s.pending := by
  simp only [counterLowRead]; (repeat' split) <;> simp
@[simp] theorem ptwiAccess_keeps (who : HostPort) (op : Nat) (w : Word) (s : State) :
    (ptwiAccess who op w s).ports = s.ports ∧ (ptwiAccess who op w s).pool = s.pool ∧ (ptwiAccess who op w s).lanes = s.lanes ∧ (ptwiAccess who op w s).map = s.map ∧ (ptwiAccess who op w s).dial = s.dial ∧ (ptwiAccess who op w s).mon = s.mon ∧ (ptwiAccess who op w s).alarms = s.alarms ∧ (ptwiAccess who op w s).faults = s.faults ∧ (ptwiAccess who op w s).jrx = s.jrx ∧ (ptwiAccess who op w s).test = s.test ∧ (ptwiAccess who op w s).pins = s.pins ∧ (ptwiAccess who op w s).free = s.free ∧ (ptwiAccess who op w s).pending = s.pending := by
  simp only [ptwiAccess]; (repeat' split) <;> simp
@[simp] theorem bspiAccess_keeps (who : HostPort) (dir : Nat) (w : Word) (s : State) :
    (bspiAccess who dir w s).ports = s.ports ∧ (bspiAccess who dir w s).pool = s.pool ∧ (bspiAccess who dir w s).lanes = s.lanes ∧ (bspiAccess who dir w s).map = s.map ∧ (bspiAccess who dir w s).dial = s.dial ∧ (bspiAccess who dir w s).mon = s.mon ∧ (bspiAccess who dir w s).alarms = s.alarms ∧ (bspiAccess who dir w s).faults = s.faults ∧ (bspiAccess who dir w s).jrx = s.jrx ∧ (bspiAccess who dir w s).test = s.test ∧ (bspiAccess who dir w s).pins = s.pins ∧ (bspiAccess who dir w s).free = s.free ∧ (bspiAccess who dir w s).pending = s.pending := by
  simp only [bspiAccess]; (repeat' split) <;> simp
@[simp] theorem unstall_keeps (d : Dom) (s : State) :
    (unstall d s).ports = s.ports ∧ (unstall d s).pool = s.pool ∧ (unstall d s).lanes = s.lanes ∧ (unstall d s).map = s.map ∧ (unstall d s).dial = s.dial ∧ (unstall d s).mon = s.mon ∧ (unstall d s).alarms = s.alarms ∧ (unstall d s).faults = s.faults ∧ (unstall d s).jrx = s.jrx ∧ (unstall d s).test = s.test ∧ (unstall d s).pins = s.pins ∧ (unstall d s).free = s.free ∧ (unstall d s).pending = s.pending := by
  simp only [unstall]; (repeat' split) <;> simp
@[simp] theorem bspiGo_keeps (s : State) :
    (bspiGo s).sys = s.sys ∧ (bspiGo s).power = s.power ∧ (bspiGo s).mbx = s.mbx ∧ (bspiGo s).ports = s.ports ∧ (bspiGo s).pool = s.pool ∧ (bspiGo s).lanes = s.lanes ∧ (bspiGo s).map = s.map ∧ (bspiGo s).dial = s.dial ∧ (bspiGo s).mon = s.mon ∧ (bspiGo s).alarms = s.alarms ∧ (bspiGo s).faults = s.faults ∧ (bspiGo s).jrx = s.jrx ∧ (bspiGo s).test = s.test ∧ (bspiGo s).pins = s.pins ∧ (bspiGo s).bulk = s.bulk ∧ (bspiGo s).free = s.free ∧ (bspiGo s).pending = s.pending := by
  simp only [bspiGo]; (repeat' split) <;> simp
@[simp] theorem accessWakeComplete_keeps (d : Dom) (s : State) :
    (accessWakeComplete d s).test = s.test ∧ (accessWakeComplete d s).pins = s.pins ∧ (accessWakeComplete d s).pending = s.pending := by
  simp only [accessWakeComplete]; (repeat' split) <;> simp
@[simp] theorem twiAbort_keeps (insideWord : Bool) (s : State) :
    (twiAbort insideWord s).sys = s.sys ∧ (twiAbort insideWord s).power = s.power ∧ (twiAbort insideWord s).mbx = s.mbx ∧ (twiAbort insideWord s).ports = s.ports ∧ (twiAbort insideWord s).pool = s.pool ∧ (twiAbort insideWord s).lanes = s.lanes ∧ (twiAbort insideWord s).map = s.map ∧ (twiAbort insideWord s).dial = s.dial ∧ (twiAbort insideWord s).mon = s.mon ∧ (twiAbort insideWord s).alarms = s.alarms ∧ (twiAbort insideWord s).faults = s.faults ∧ (twiAbort insideWord s).jrx = s.jrx ∧ (twiAbort insideWord s).test = s.test ∧ (twiAbort insideWord s).pins = s.pins ∧ (twiAbort insideWord s).bulk = s.bulk ∧ (twiAbort insideWord s).free = s.free ∧ (twiAbort insideWord s).pending = s.pending := by
  simp only [twiAbort]; (repeat' split) <;> simp
@[simp] theorem twiReset_keeps (event : BitVec 5) (s : State) :
    (twiReset event s).sys = s.sys ∧ (twiReset event s).power = s.power ∧ (twiReset event s).mbx = s.mbx ∧ (twiReset event s).ports = s.ports ∧ (twiReset event s).pool = s.pool ∧ (twiReset event s).lanes = s.lanes ∧ (twiReset event s).map = s.map ∧ (twiReset event s).dial = s.dial ∧ (twiReset event s).mon = s.mon ∧ (twiReset event s).alarms = s.alarms ∧ (twiReset event s).faults = s.faults ∧ (twiReset event s).jrx = s.jrx ∧ (twiReset event s).test = s.test ∧ (twiReset event s).pins = s.pins ∧ (twiReset event s).bulk = s.bulk ∧ (twiReset event s).free = s.free ∧ (twiReset event s).pending = s.pending := by
  simp only [twiReset]; (repeat' split) <;> simp
@[simp] theorem twiDeepNack_keeps (s : State) :
    (twiDeepNack s).sys = s.sys ∧ (twiDeepNack s).mbx = s.mbx ∧ (twiDeepNack s).pool = s.pool ∧ (twiDeepNack s).lanes = s.lanes ∧ (twiDeepNack s).map = s.map ∧ (twiDeepNack s).dial = s.dial ∧ (twiDeepNack s).mon = s.mon ∧ (twiDeepNack s).alarms = s.alarms ∧ (twiDeepNack s).faults = s.faults ∧ (twiDeepNack s).jrx = s.jrx ∧ (twiDeepNack s).test = s.test ∧ (twiDeepNack s).pins = s.pins ∧ (twiDeepNack s).bulk = s.bulk ∧ (twiDeepNack s).free = s.free ∧ (twiDeepNack s).pending = s.pending := by
  refine ⟨?_, ?_, ?_, ?_, ?_, ?_, ?_, ?_, ?_, ?_, ?_, ?_, ?_, ?_, ?_⟩ <;> (simp only [twiDeepNack]; repeat' first | with_reducible rfl | (simp; done) | with_reducible refine (eachOf_sys _ _ _ ?_).trans ?_ | with_reducible refine (eachOf_mbx _ _ _ ?_).trans ?_ | with_reducible refine (eachOf_pool _ _ _ ?_).trans ?_ | with_reducible refine (eachOf_lanes _ _ _ ?_).trans ?_ | with_reducible refine (eachOf_map _ _ _ ?_).trans ?_ | with_reducible refine (eachOf_dial _ _ _ ?_).trans ?_ | with_reducible refine (eachOf_mon _ _ _ ?_).trans ?_ | with_reducible refine (eachOf_alarms _ _ _ ?_).trans ?_ | with_reducible refine (eachOf_faults _ _ _ ?_).trans ?_ | with_reducible refine (eachOf_jrx _ _ _ ?_).trans ?_ | with_reducible refine (eachOf_test _ _ _ ?_).trans ?_ | with_reducible refine (eachOf_pins _ _ _ ?_).trans ?_ | with_reducible refine (eachOf_bulk _ _ _ ?_).trans ?_ | with_reducible refine (eachOf_free _ _ _ ?_).trans ?_ | with_reducible refine (eachOf_pending _ _ _ ?_).trans ?_ | with_reducible refine (eachPort_sys _ _ ?_).trans ?_ | with_reducible refine (eachPort_mbx _ _ ?_).trans ?_ | with_reducible refine (eachPort_pool _ _ ?_).trans ?_ | with_reducible refine (eachPort_lanes _ _ ?_).trans ?_ | with_reducible refine (eachPort_map _ _ ?_).trans ?_ | with_reducible refine (eachPort_dial _ _ ?_).trans ?_ | with_reducible refine (eachPort_mon _ _ ?_).trans ?_ | with_reducible refine (eachPort_alarms _ _ ?_).trans ?_ | with_reducible refine (eachPort_faults _ _ ?_).trans ?_ | with_reducible refine (eachPort_jrx _ _ ?_).trans ?_ | with_reducible refine (eachPort_test _ _ ?_).trans ?_ | with_reducible refine (eachPort_pins _ _ ?_).trans ?_ | with_reducible refine (eachPort_bulk _ _ ?_).trans ?_ | with_reducible refine (eachPort_free _ _ ?_).trans ?_ | with_reducible refine (eachPort_pending _ _ ?_).trans ?_ | with_reducible refine (doIf_sys _ _ _ ?_).trans ?_ | with_reducible refine (doIf_mbx _ _ _ ?_).trans ?_ | with_reducible refine (doIf_pool _ _ _ ?_).trans ?_ | with_reducible refine (doIf_lanes _ _ _ ?_).trans ?_ | with_reducible refine (doIf_map _ _ _ ?_).trans ?_ | with_reducible refine (doIf_dial _ _ _ ?_).trans ?_ | with_reducible refine (doIf_mon _ _ _ ?_).trans ?_ | with_reducible refine (doIf_alarms _ _ _ ?_).trans ?_ | with_reducible refine (doIf_faults _ _ _ ?_).trans ?_ | with_reducible refine (doIf_jrx _ _ _ ?_).trans ?_ | with_reducible refine (doIf_test _ _ _ ?_).trans ?_ | with_reducible refine (doIf_pins _ _ _ ?_).trans ?_ | with_reducible refine (doIf_bulk _ _ _ ?_).trans ?_ | with_reducible refine (doIf_free _ _ _ ?_).trans ?_ | with_reducible refine (doIf_pending _ _ _ ?_).trans ?_ | with_reducible refine (command_test _ _ _ _ _ _ ?_).trans ?_ | with_reducible refine (command_pins _ _ _ _ _ _ ?_).trans ?_ | with_reducible refine (command_bulk _ _ _ _ _ _ ?_).trans ?_ | with_reducible refine (command_pending _ _ _ _ _ _ ?_).trans ?_ | with_reducible refine (commandOk_test _ _ _ _ _ _ ?_).trans ?_ | with_reducible refine (commandOk_pins _ _ _ _ _ _ ?_).trans ?_ | with_reducible refine (commandOk_bulk _ _ _ _ _ _ ?_).trans ?_ | with_reducible refine (commandOk_pending _ _ _ _ _ _ ?_).trans ?_ | with_reducible refine (awaitReport_pool _ _ _ _ _ ?_).trans ?_ | with_reducible refine (awaitReport_lanes _ _ _ _ _ ?_).trans ?_ | with_reducible refine (awaitReport_map _ _ _ _ _ ?_).trans ?_ | with_reducible refine (awaitReport_dial _ _ _ _ _ ?_).trans ?_ | with_reducible refine (awaitReport_mon _ _ _ _ _ ?_).trans ?_ | with_reducible refine (awaitReport_alarms _ _ _ _ _ ?_).trans ?_ | with_reducible refine (awaitReport_faults _ _ _ _ _ ?_).trans ?_ | with_reducible refine (awaitReport_jrx _ _ _ _ _ ?_).trans ?_ | with_reducible refine (awaitReport_test _ _ _ _ _ ?_).trans ?_ | with_reducible refine (awaitReport_pins _ _ _ _ _ ?_).trans ?_ | with_reducible refine (awaitReport_bulk _ _ _ _ _ ?_).trans ?_ | with_reducible refine (awaitReport_free _ _ _ _ _ ?_).trans ?_ | with_reducible refine (awaitReport_pending _ _ _ _ _ ?_).trans ?_ | with_reducible refine (report_test _ _ _ _ _ _ ?_).trans ?_ | with_reducible refine (report_pins _ _ _ _ _ _ ?_).trans ?_ | with_reducible refine (report_bulk _ _ _ _ _ _ ?_).trans ?_ | with_reducible refine (report_pending _ _ _ _ _ _ ?_).trans ?_ | intro _ | split | simp)
@[simp] theorem windowEnd_keeps (who : HostPort) (s : State) :
    (windowEnd who s).sys = s.sys ∧ (windowEnd who s).power = s.power ∧ (windowEnd who s).mbx = s.mbx ∧ (windowEnd who s).ports = s.ports ∧ (windowEnd who s).pool = s.pool ∧ (windowEnd who s).lanes = s.lanes ∧ (windowEnd who s).map = s.map ∧ (windowEnd who s).dial = s.dial ∧ (windowEnd who s).mon = s.mon ∧ (windowEnd who s).alarms = s.alarms ∧ (windowEnd who s).faults = s.faults ∧ (windowEnd who s).jrx = s.jrx ∧ (windowEnd who s).test = s.test ∧ (windowEnd who s).pins = s.pins ∧ (windowEnd who s).bulk = s.bulk ∧ (windowEnd who s).free = s.free ∧ (windowEnd who s).pending = s.pending := by
  simp only [windowEnd]; (repeat' split) <;> simp
@[simp] theorem mspiBadCmd_keeps (s : State) :
    (mspiBadCmd s).sys = s.sys ∧ (mspiBadCmd s).power = s.power ∧ (mspiBadCmd s).mbx = s.mbx ∧ (mspiBadCmd s).ports = s.ports ∧ (mspiBadCmd s).pool = s.pool ∧ (mspiBadCmd s).lanes = s.lanes ∧ (mspiBadCmd s).map = s.map ∧ (mspiBadCmd s).dial = s.dial ∧ (mspiBadCmd s).mon = s.mon ∧ (mspiBadCmd s).alarms = s.alarms ∧ (mspiBadCmd s).faults = s.faults ∧ (mspiBadCmd s).jrx = s.jrx ∧ (mspiBadCmd s).test = s.test ∧ (mspiBadCmd s).pins = s.pins ∧ (mspiBadCmd s).bulk = s.bulk ∧ (mspiBadCmd s).free = s.free ∧ (mspiBadCmd s).pending = s.pending := by
  simp only [mspiBadCmd]; (repeat' split) <;> simp
@[simp] theorem mspiFrameAbort_keeps (s : State) :
    (mspiFrameAbort s).sys = s.sys ∧ (mspiFrameAbort s).power = s.power ∧ (mspiFrameAbort s).mbx = s.mbx ∧ (mspiFrameAbort s).ports = s.ports ∧ (mspiFrameAbort s).pool = s.pool ∧ (mspiFrameAbort s).lanes = s.lanes ∧ (mspiFrameAbort s).map = s.map ∧ (mspiFrameAbort s).dial = s.dial ∧ (mspiFrameAbort s).mon = s.mon ∧ (mspiFrameAbort s).alarms = s.alarms ∧ (mspiFrameAbort s).faults = s.faults ∧ (mspiFrameAbort s).jrx = s.jrx ∧ (mspiFrameAbort s).test = s.test ∧ (mspiFrameAbort s).pins = s.pins ∧ (mspiFrameAbort s).bulk = s.bulk ∧ (mspiFrameAbort s).free = s.free ∧ (mspiFrameAbort s).pending = s.pending := by
  simp only [mspiFrameAbort]; (repeat' split) <;> simp
@[simp] theorem mspiDeepIgnore_keeps (s : State) :
    (mspiDeepIgnore s).sys = s.sys ∧ (mspiDeepIgnore s).mbx = s.mbx ∧ (mspiDeepIgnore s).pool = s.pool ∧ (mspiDeepIgnore s).lanes = s.lanes ∧ (mspiDeepIgnore s).map = s.map ∧ (mspiDeepIgnore s).dial = s.dial ∧ (mspiDeepIgnore s).mon = s.mon ∧ (mspiDeepIgnore s).alarms = s.alarms ∧ (mspiDeepIgnore s).faults = s.faults ∧ (mspiDeepIgnore s).jrx = s.jrx ∧ (mspiDeepIgnore s).test = s.test ∧ (mspiDeepIgnore s).pins = s.pins ∧ (mspiDeepIgnore s).bulk = s.bulk ∧ (mspiDeepIgnore s).free = s.free ∧ (mspiDeepIgnore s).pending = s.pending := by
  refine ⟨?_, ?_, ?_, ?_, ?_, ?_, ?_, ?_, ?_, ?_, ?_, ?_, ?_, ?_, ?_⟩ <;> (simp only [mspiDeepIgnore]; repeat' first | with_reducible rfl | (simp; done) | with_reducible refine (eachOf_sys _ _ _ ?_).trans ?_ | with_reducible refine (eachOf_mbx _ _ _ ?_).trans ?_ | with_reducible refine (eachOf_pool _ _ _ ?_).trans ?_ | with_reducible refine (eachOf_lanes _ _ _ ?_).trans ?_ | with_reducible refine (eachOf_map _ _ _ ?_).trans ?_ | with_reducible refine (eachOf_dial _ _ _ ?_).trans ?_ | with_reducible refine (eachOf_mon _ _ _ ?_).trans ?_ | with_reducible refine (eachOf_alarms _ _ _ ?_).trans ?_ | with_reducible refine (eachOf_faults _ _ _ ?_).trans ?_ | with_reducible refine (eachOf_jrx _ _ _ ?_).trans ?_ | with_reducible refine (eachOf_test _ _ _ ?_).trans ?_ | with_reducible refine (eachOf_pins _ _ _ ?_).trans ?_ | with_reducible refine (eachOf_bulk _ _ _ ?_).trans ?_ | with_reducible refine (eachOf_free _ _ _ ?_).trans ?_ | with_reducible refine (eachOf_pending _ _ _ ?_).trans ?_ | with_reducible refine (eachPort_sys _ _ ?_).trans ?_ | with_reducible refine (eachPort_mbx _ _ ?_).trans ?_ | with_reducible refine (eachPort_pool _ _ ?_).trans ?_ | with_reducible refine (eachPort_lanes _ _ ?_).trans ?_ | with_reducible refine (eachPort_map _ _ ?_).trans ?_ | with_reducible refine (eachPort_dial _ _ ?_).trans ?_ | with_reducible refine (eachPort_mon _ _ ?_).trans ?_ | with_reducible refine (eachPort_alarms _ _ ?_).trans ?_ | with_reducible refine (eachPort_faults _ _ ?_).trans ?_ | with_reducible refine (eachPort_jrx _ _ ?_).trans ?_ | with_reducible refine (eachPort_test _ _ ?_).trans ?_ | with_reducible refine (eachPort_pins _ _ ?_).trans ?_ | with_reducible refine (eachPort_bulk _ _ ?_).trans ?_ | with_reducible refine (eachPort_free _ _ ?_).trans ?_ | with_reducible refine (eachPort_pending _ _ ?_).trans ?_ | with_reducible refine (doIf_sys _ _ _ ?_).trans ?_ | with_reducible refine (doIf_mbx _ _ _ ?_).trans ?_ | with_reducible refine (doIf_pool _ _ _ ?_).trans ?_ | with_reducible refine (doIf_lanes _ _ _ ?_).trans ?_ | with_reducible refine (doIf_map _ _ _ ?_).trans ?_ | with_reducible refine (doIf_dial _ _ _ ?_).trans ?_ | with_reducible refine (doIf_mon _ _ _ ?_).trans ?_ | with_reducible refine (doIf_alarms _ _ _ ?_).trans ?_ | with_reducible refine (doIf_faults _ _ _ ?_).trans ?_ | with_reducible refine (doIf_jrx _ _ _ ?_).trans ?_ | with_reducible refine (doIf_test _ _ _ ?_).trans ?_ | with_reducible refine (doIf_pins _ _ _ ?_).trans ?_ | with_reducible refine (doIf_bulk _ _ _ ?_).trans ?_ | with_reducible refine (doIf_free _ _ _ ?_).trans ?_ | with_reducible refine (doIf_pending _ _ _ ?_).trans ?_ | with_reducible refine (command_test _ _ _ _ _ _ ?_).trans ?_ | with_reducible refine (command_pins _ _ _ _ _ _ ?_).trans ?_ | with_reducible refine (command_bulk _ _ _ _ _ _ ?_).trans ?_ | with_reducible refine (command_pending _ _ _ _ _ _ ?_).trans ?_ | with_reducible refine (commandOk_test _ _ _ _ _ _ ?_).trans ?_ | with_reducible refine (commandOk_pins _ _ _ _ _ _ ?_).trans ?_ | with_reducible refine (commandOk_bulk _ _ _ _ _ _ ?_).trans ?_ | with_reducible refine (commandOk_pending _ _ _ _ _ _ ?_).trans ?_ | with_reducible refine (awaitReport_pool _ _ _ _ _ ?_).trans ?_ | with_reducible refine (awaitReport_lanes _ _ _ _ _ ?_).trans ?_ | with_reducible refine (awaitReport_map _ _ _ _ _ ?_).trans ?_ | with_reducible refine (awaitReport_dial _ _ _ _ _ ?_).trans ?_ | with_reducible refine (awaitReport_mon _ _ _ _ _ ?_).trans ?_ | with_reducible refine (awaitReport_alarms _ _ _ _ _ ?_).trans ?_ | with_reducible refine (awaitReport_faults _ _ _ _ _ ?_).trans ?_ | with_reducible refine (awaitReport_jrx _ _ _ _ _ ?_).trans ?_ | with_reducible refine (awaitReport_test _ _ _ _ _ ?_).trans ?_ | with_reducible refine (awaitReport_pins _ _ _ _ _ ?_).trans ?_ | with_reducible refine (awaitReport_bulk _ _ _ _ _ ?_).trans ?_ | with_reducible refine (awaitReport_free _ _ _ _ _ ?_).trans ?_ | with_reducible refine (awaitReport_pending _ _ _ _ _ ?_).trans ?_ | with_reducible refine (report_test _ _ _ _ _ _ ?_).trans ?_ | with_reducible refine (report_pins _ _ _ _ _ _ ?_).trans ?_ | with_reducible refine (report_bulk _ _ _ _ _ _ ?_).trans ?_ | with_reducible refine (report_pending _ _ _ _ _ _ ?_).trans ?_ | intro _ | split | simp)

@[simp] theorem testHold_keeps (ir : TapIr) (s : State) :
    (testHold ir s).free = s.free ∧ (testHold ir s).pending = s.pending := by
  simp only [testHold]; (repeat' split) <;> simp
@[simp] theorem tapSelect_keeps (ir : TapIr) (s : State) :
    (tapSelect ir s).sys = s.sys ∧ (tapSelect ir s).power = s.power ∧ (tapSelect ir s).mbx = s.mbx ∧ (tapSelect ir s).twi = s.twi ∧ (tapSelect ir s).ports = s.ports ∧ (tapSelect ir s).pool = s.pool ∧ (tapSelect ir s).lanes = s.lanes ∧ (tapSelect ir s).map = s.map ∧ (tapSelect ir s).dial = s.dial ∧ (tapSelect ir s).mon = s.mon ∧ (tapSelect ir s).alarms = s.alarms ∧ (tapSelect ir s).faults = s.faults ∧ (tapSelect ir s).jrx = s.jrx ∧ (tapSelect ir s).pins = s.pins ∧ (tapSelect ir s).bulk = s.bulk ∧ (tapSelect ir s).free = s.free ∧ (tapSelect ir s).pending = s.pending := by
  simp only [tapSelect]; (repeat' split) <;> simp
@[simp] theorem samplePreload_keeps (drvEn : BitVec 4) (cells : List Bool) (s : State) :
    (samplePreload drvEn cells s).sys = s.sys ∧ (samplePreload drvEn cells s).power = s.power ∧ (samplePreload drvEn cells s).mbx = s.mbx ∧ (samplePreload drvEn cells s).twi = s.twi ∧ (samplePreload drvEn cells s).ports = s.ports ∧ (samplePreload drvEn cells s).pool = s.pool ∧ (samplePreload drvEn cells s).lanes = s.lanes ∧ (samplePreload drvEn cells s).map = s.map ∧ (samplePreload drvEn cells s).dial = s.dial ∧ (samplePreload drvEn cells s).mon = s.mon ∧ (samplePreload drvEn cells s).alarms = s.alarms ∧ (samplePreload drvEn cells s).faults = s.faults ∧ (samplePreload drvEn cells s).jrx = s.jrx ∧ (samplePreload drvEn cells s).pins = s.pins ∧ (samplePreload drvEn cells s).bulk = s.bulk ∧ (samplePreload drvEn cells s).free = s.free ∧ (samplePreload drvEn cells s).pending = s.pending := by
  simp only [samplePreload]; (repeat' split) <;> simp
@[simp] theorem testLogicReset_keeps (s : State) :
    (testLogicReset s).sys = s.sys ∧ (testLogicReset s).power = s.power ∧ (testLogicReset s).mbx = s.mbx ∧ (testLogicReset s).twi = s.twi ∧ (testLogicReset s).ports = s.ports ∧ (testLogicReset s).pool = s.pool ∧ (testLogicReset s).lanes = s.lanes ∧ (testLogicReset s).map = s.map ∧ (testLogicReset s).dial = s.dial ∧ (testLogicReset s).mon = s.mon ∧ (testLogicReset s).alarms = s.alarms ∧ (testLogicReset s).faults = s.faults ∧ (testLogicReset s).jrx = s.jrx ∧ (testLogicReset s).pins = s.pins ∧ (testLogicReset s).bulk = s.bulk ∧ (testLogicReset s).free = s.free ∧ (testLogicReset s).pending = s.pending := by
  simp only [testLogicReset]; (repeat' split) <;> simp
@[simp] theorem testMbx_sys (op : State → Option Word × State) (s : State)
    (h : ∀ s, (op s).2.sys = s.sys) : (testMbx op s).sys = s.sys := by
  simp only [testMbx]; split <;> simp [h]
@[simp] theorem testMbx_power (op : State → Option Word × State) (s : State)
    (h : ∀ s, (op s).2.power = s.power) : (testMbx op s).power = s.power := by
  simp only [testMbx]; split <;> simp [h]
@[simp] theorem testMbx_twi (op : State → Option Word × State) (s : State)
    (h : ∀ s, (op s).2.twi = s.twi) : (testMbx op s).twi = s.twi := by
  simp only [testMbx]; split <;> simp [h]
@[simp] theorem testMbx_ports (op : State → Option Word × State) (s : State)
    (h : ∀ s, (op s).2.ports = s.ports) : (testMbx op s).ports = s.ports := by
  simp only [testMbx]; split <;> simp [h]
@[simp] theorem testMbx_pool (op : State → Option Word × State) (s : State)
    (h : ∀ s, (op s).2.pool = s.pool) : (testMbx op s).pool = s.pool := by
  simp only [testMbx]; split <;> simp [h]
@[simp] theorem testMbx_lanes (op : State → Option Word × State) (s : State)
    (h : ∀ s, (op s).2.lanes = s.lanes) : (testMbx op s).lanes = s.lanes := by
  simp only [testMbx]; split <;> simp [h]
@[simp] theorem testMbx_map (op : State → Option Word × State) (s : State)
    (h : ∀ s, (op s).2.map = s.map) : (testMbx op s).map = s.map := by
  simp only [testMbx]; split <;> simp [h]
@[simp] theorem testMbx_dial (op : State → Option Word × State) (s : State)
    (h : ∀ s, (op s).2.dial = s.dial) : (testMbx op s).dial = s.dial := by
  simp only [testMbx]; split <;> simp [h]
@[simp] theorem testMbx_mon (op : State → Option Word × State) (s : State)
    (h : ∀ s, (op s).2.mon = s.mon) : (testMbx op s).mon = s.mon := by
  simp only [testMbx]; split <;> simp [h]
@[simp] theorem testMbx_alarms (op : State → Option Word × State) (s : State)
    (h : ∀ s, (op s).2.alarms = s.alarms) : (testMbx op s).alarms = s.alarms := by
  simp only [testMbx]; split <;> simp [h]
@[simp] theorem testMbx_faults (op : State → Option Word × State) (s : State)
    (h : ∀ s, (op s).2.faults = s.faults) : (testMbx op s).faults = s.faults := by
  simp only [testMbx]; split <;> simp [h]
@[simp] theorem testMbx_jrx (op : State → Option Word × State) (s : State)
    (h : ∀ s, (op s).2.jrx = s.jrx) : (testMbx op s).jrx = s.jrx := by
  simp only [testMbx]; split <;> simp [h]
@[simp] theorem testMbx_pins (op : State → Option Word × State) (s : State)
    (h : ∀ s, (op s).2.pins = s.pins) : (testMbx op s).pins = s.pins := by
  simp only [testMbx]; split <;> simp [h]
@[simp] theorem testMbx_bulk (op : State → Option Word × State) (s : State)
    (h : ∀ s, (op s).2.bulk = s.bulk) : (testMbx op s).bulk = s.bulk := by
  simp only [testMbx]; split <;> simp [h]
@[simp] theorem testMbx_free (op : State → Option Word × State) (s : State)
    (h : ∀ s, (op s).2.free = s.free) : (testMbx op s).free = s.free := by
  simp only [testMbx]; split <;> simp [h]
@[simp] theorem testMbx_pending (op : State → Option Word × State) (s : State)
    (h : ∀ s, (op s).2.pending = s.pending) : (testMbx op s).pending = s.pending := by
  simp only [testMbx]; split <;> simp [h]
@[simp] theorem testMbxPost_keeps (w : Word) (s : State) :
    (testMbxPost w s).sys = s.sys ∧ (testMbxPost w s).twi = s.twi ∧ (testMbxPost w s).ports = s.ports ∧ (testMbxPost w s).pool = s.pool ∧ (testMbxPost w s).lanes = s.lanes ∧ (testMbxPost w s).map = s.map ∧ (testMbxPost w s).dial = s.dial ∧ (testMbxPost w s).mon = s.mon ∧ (testMbxPost w s).alarms = s.alarms ∧ (testMbxPost w s).faults = s.faults ∧ (testMbxPost w s).jrx = s.jrx ∧ (testMbxPost w s).pins = s.pins ∧ (testMbxPost w s).bulk = s.bulk ∧ (testMbxPost w s).free = s.free ∧ (testMbxPost w s).pending = s.pending := by
  refine ⟨?_, ?_, ?_, ?_, ?_, ?_, ?_, ?_, ?_, ?_, ?_, ?_, ?_, ?_, ?_⟩ <;> (simp only [testMbxPost]; repeat' first | with_reducible rfl | (simp; done) | with_reducible refine (eachOf_sys _ _ _ ?_).trans ?_ | with_reducible refine (eachOf_twi _ _ _ ?_).trans ?_ | with_reducible refine (eachOf_ports _ _ _ ?_).trans ?_ | with_reducible refine (eachOf_pool _ _ _ ?_).trans ?_ | with_reducible refine (eachOf_lanes _ _ _ ?_).trans ?_ | with_reducible refine (eachOf_map _ _ _ ?_).trans ?_ | with_reducible refine (eachOf_dial _ _ _ ?_).trans ?_ | with_reducible refine (eachOf_mon _ _ _ ?_).trans ?_ | with_reducible refine (eachOf_alarms _ _ _ ?_).trans ?_ | with_reducible refine (eachOf_faults _ _ _ ?_).trans ?_ | with_reducible refine (eachOf_jrx _ _ _ ?_).trans ?_ | with_reducible refine (eachOf_pins _ _ _ ?_).trans ?_ | with_reducible refine (eachOf_bulk _ _ _ ?_).trans ?_ | with_reducible refine (eachOf_free _ _ _ ?_).trans ?_ | with_reducible refine (eachOf_pending _ _ _ ?_).trans ?_ | with_reducible refine (eachPort_sys _ _ ?_).trans ?_ | with_reducible refine (eachPort_twi _ _ ?_).trans ?_ | with_reducible refine (eachPort_ports _ _ ?_).trans ?_ | with_reducible refine (eachPort_pool _ _ ?_).trans ?_ | with_reducible refine (eachPort_lanes _ _ ?_).trans ?_ | with_reducible refine (eachPort_map _ _ ?_).trans ?_ | with_reducible refine (eachPort_dial _ _ ?_).trans ?_ | with_reducible refine (eachPort_mon _ _ ?_).trans ?_ | with_reducible refine (eachPort_alarms _ _ ?_).trans ?_ | with_reducible refine (eachPort_faults _ _ ?_).trans ?_ | with_reducible refine (eachPort_jrx _ _ ?_).trans ?_ | with_reducible refine (eachPort_pins _ _ ?_).trans ?_ | with_reducible refine (eachPort_bulk _ _ ?_).trans ?_ | with_reducible refine (eachPort_free _ _ ?_).trans ?_ | with_reducible refine (eachPort_pending _ _ ?_).trans ?_ | with_reducible refine (doIf_sys _ _ _ ?_).trans ?_ | with_reducible refine (doIf_twi _ _ _ ?_).trans ?_ | with_reducible refine (doIf_ports _ _ _ ?_).trans ?_ | with_reducible refine (doIf_pool _ _ _ ?_).trans ?_ | with_reducible refine (doIf_lanes _ _ _ ?_).trans ?_ | with_reducible refine (doIf_map _ _ _ ?_).trans ?_ | with_reducible refine (doIf_dial _ _ _ ?_).trans ?_ | with_reducible refine (doIf_mon _ _ _ ?_).trans ?_ | with_reducible refine (doIf_alarms _ _ _ ?_).trans ?_ | with_reducible refine (doIf_faults _ _ _ ?_).trans ?_ | with_reducible refine (doIf_jrx _ _ _ ?_).trans ?_ | with_reducible refine (doIf_pins _ _ _ ?_).trans ?_ | with_reducible refine (doIf_bulk _ _ _ ?_).trans ?_ | with_reducible refine (doIf_free _ _ _ ?_).trans ?_ | with_reducible refine (doIf_pending _ _ _ ?_).trans ?_ | with_reducible refine (command_twi _ _ _ _ _ _ ?_).trans ?_ | with_reducible refine (command_pins _ _ _ _ _ _ ?_).trans ?_ | with_reducible refine (command_bulk _ _ _ _ _ _ ?_).trans ?_ | with_reducible refine (command_pending _ _ _ _ _ _ ?_).trans ?_ | with_reducible refine (commandOk_twi _ _ _ _ _ _ ?_).trans ?_ | with_reducible refine (commandOk_pins _ _ _ _ _ _ ?_).trans ?_ | with_reducible refine (commandOk_bulk _ _ _ _ _ _ ?_).trans ?_ | with_reducible refine (commandOk_pending _ _ _ _ _ _ ?_).trans ?_ | with_reducible refine (awaitReport_twi _ _ _ _ _ ?_).trans ?_ | with_reducible refine (awaitReport_ports _ _ _ _ _ ?_).trans ?_ | with_reducible refine (awaitReport_pool _ _ _ _ _ ?_).trans ?_ | with_reducible refine (awaitReport_lanes _ _ _ _ _ ?_).trans ?_ | with_reducible refine (awaitReport_map _ _ _ _ _ ?_).trans ?_ | with_reducible refine (awaitReport_dial _ _ _ _ _ ?_).trans ?_ | with_reducible refine (awaitReport_mon _ _ _ _ _ ?_).trans ?_ | with_reducible refine (awaitReport_alarms _ _ _ _ _ ?_).trans ?_ | with_reducible refine (awaitReport_faults _ _ _ _ _ ?_).trans ?_ | with_reducible refine (awaitReport_jrx _ _ _ _ _ ?_).trans ?_ | with_reducible refine (awaitReport_pins _ _ _ _ _ ?_).trans ?_ | with_reducible refine (awaitReport_bulk _ _ _ _ _ ?_).trans ?_ | with_reducible refine (awaitReport_free _ _ _ _ _ ?_).trans ?_ | with_reducible refine (awaitReport_pending _ _ _ _ _ ?_).trans ?_ | with_reducible refine (report_twi _ _ _ _ _ _ ?_).trans ?_ | with_reducible refine (report_pins _ _ _ _ _ _ ?_).trans ?_ | with_reducible refine (report_bulk _ _ _ _ _ _ ?_).trans ?_ | with_reducible refine (report_pending _ _ _ _ _ _ ?_).trans ?_ | intro _ | split | simp)
@[simp] theorem testMbxTake_keeps (s : State) :
    (testMbxTake s).sys = s.sys ∧ (testMbxTake s).power = s.power ∧ (testMbxTake s).twi = s.twi ∧ (testMbxTake s).ports = s.ports ∧ (testMbxTake s).pool = s.pool ∧ (testMbxTake s).lanes = s.lanes ∧ (testMbxTake s).map = s.map ∧ (testMbxTake s).dial = s.dial ∧ (testMbxTake s).mon = s.mon ∧ (testMbxTake s).alarms = s.alarms ∧ (testMbxTake s).faults = s.faults ∧ (testMbxTake s).jrx = s.jrx ∧ (testMbxTake s).pins = s.pins ∧ (testMbxTake s).bulk = s.bulk ∧ (testMbxTake s).free = s.free ∧ (testMbxTake s).pending = s.pending := by
  refine ⟨?_, ?_, ?_, ?_, ?_, ?_, ?_, ?_, ?_, ?_, ?_, ?_, ?_, ?_, ?_, ?_⟩ <;> (simp only [testMbxTake]; repeat' first | with_reducible rfl | (simp; done) | with_reducible refine (eachOf_sys _ _ _ ?_).trans ?_ | with_reducible refine (eachOf_power _ _ _ ?_).trans ?_ | with_reducible refine (eachOf_twi _ _ _ ?_).trans ?_ | with_reducible refine (eachOf_ports _ _ _ ?_).trans ?_ | with_reducible refine (eachOf_pool _ _ _ ?_).trans ?_ | with_reducible refine (eachOf_lanes _ _ _ ?_).trans ?_ | with_reducible refine (eachOf_map _ _ _ ?_).trans ?_ | with_reducible refine (eachOf_dial _ _ _ ?_).trans ?_ | with_reducible refine (eachOf_mon _ _ _ ?_).trans ?_ | with_reducible refine (eachOf_alarms _ _ _ ?_).trans ?_ | with_reducible refine (eachOf_faults _ _ _ ?_).trans ?_ | with_reducible refine (eachOf_jrx _ _ _ ?_).trans ?_ | with_reducible refine (eachOf_pins _ _ _ ?_).trans ?_ | with_reducible refine (eachOf_bulk _ _ _ ?_).trans ?_ | with_reducible refine (eachOf_free _ _ _ ?_).trans ?_ | with_reducible refine (eachOf_pending _ _ _ ?_).trans ?_ | with_reducible refine (eachPort_sys _ _ ?_).trans ?_ | with_reducible refine (eachPort_power _ _ ?_).trans ?_ | with_reducible refine (eachPort_twi _ _ ?_).trans ?_ | with_reducible refine (eachPort_ports _ _ ?_).trans ?_ | with_reducible refine (eachPort_pool _ _ ?_).trans ?_ | with_reducible refine (eachPort_lanes _ _ ?_).trans ?_ | with_reducible refine (eachPort_map _ _ ?_).trans ?_ | with_reducible refine (eachPort_dial _ _ ?_).trans ?_ | with_reducible refine (eachPort_mon _ _ ?_).trans ?_ | with_reducible refine (eachPort_alarms _ _ ?_).trans ?_ | with_reducible refine (eachPort_faults _ _ ?_).trans ?_ | with_reducible refine (eachPort_jrx _ _ ?_).trans ?_ | with_reducible refine (eachPort_pins _ _ ?_).trans ?_ | with_reducible refine (eachPort_bulk _ _ ?_).trans ?_ | with_reducible refine (eachPort_free _ _ ?_).trans ?_ | with_reducible refine (eachPort_pending _ _ ?_).trans ?_ | with_reducible refine (doIf_sys _ _ _ ?_).trans ?_ | with_reducible refine (doIf_power _ _ _ ?_).trans ?_ | with_reducible refine (doIf_twi _ _ _ ?_).trans ?_ | with_reducible refine (doIf_ports _ _ _ ?_).trans ?_ | with_reducible refine (doIf_pool _ _ _ ?_).trans ?_ | with_reducible refine (doIf_lanes _ _ _ ?_).trans ?_ | with_reducible refine (doIf_map _ _ _ ?_).trans ?_ | with_reducible refine (doIf_dial _ _ _ ?_).trans ?_ | with_reducible refine (doIf_mon _ _ _ ?_).trans ?_ | with_reducible refine (doIf_alarms _ _ _ ?_).trans ?_ | with_reducible refine (doIf_faults _ _ _ ?_).trans ?_ | with_reducible refine (doIf_jrx _ _ _ ?_).trans ?_ | with_reducible refine (doIf_pins _ _ _ ?_).trans ?_ | with_reducible refine (doIf_bulk _ _ _ ?_).trans ?_ | with_reducible refine (doIf_free _ _ _ ?_).trans ?_ | with_reducible refine (doIf_pending _ _ _ ?_).trans ?_ | with_reducible refine (command_twi _ _ _ _ _ _ ?_).trans ?_ | with_reducible refine (command_pins _ _ _ _ _ _ ?_).trans ?_ | with_reducible refine (command_bulk _ _ _ _ _ _ ?_).trans ?_ | with_reducible refine (command_pending _ _ _ _ _ _ ?_).trans ?_ | with_reducible refine (commandOk_twi _ _ _ _ _ _ ?_).trans ?_ | with_reducible refine (commandOk_pins _ _ _ _ _ _ ?_).trans ?_ | with_reducible refine (commandOk_bulk _ _ _ _ _ _ ?_).trans ?_ | with_reducible refine (commandOk_pending _ _ _ _ _ _ ?_).trans ?_ | with_reducible refine (awaitReport_power _ _ _ _ _ ?_).trans ?_ | with_reducible refine (awaitReport_twi _ _ _ _ _ ?_).trans ?_ | with_reducible refine (awaitReport_ports _ _ _ _ _ ?_).trans ?_ | with_reducible refine (awaitReport_pool _ _ _ _ _ ?_).trans ?_ | with_reducible refine (awaitReport_lanes _ _ _ _ _ ?_).trans ?_ | with_reducible refine (awaitReport_map _ _ _ _ _ ?_).trans ?_ | with_reducible refine (awaitReport_dial _ _ _ _ _ ?_).trans ?_ | with_reducible refine (awaitReport_mon _ _ _ _ _ ?_).trans ?_ | with_reducible refine (awaitReport_alarms _ _ _ _ _ ?_).trans ?_ | with_reducible refine (awaitReport_faults _ _ _ _ _ ?_).trans ?_ | with_reducible refine (awaitReport_jrx _ _ _ _ _ ?_).trans ?_ | with_reducible refine (awaitReport_pins _ _ _ _ _ ?_).trans ?_ | with_reducible refine (awaitReport_bulk _ _ _ _ _ ?_).trans ?_ | with_reducible refine (awaitReport_free _ _ _ _ _ ?_).trans ?_ | with_reducible refine (awaitReport_pending _ _ _ _ _ ?_).trans ?_ | with_reducible refine (report_twi _ _ _ _ _ _ ?_).trans ?_ | with_reducible refine (report_pins _ _ _ _ _ _ ?_).trans ?_ | with_reducible refine (report_bulk _ _ _ _ _ _ ?_).trans ?_ | with_reducible refine (report_pending _ _ _ _ _ _ ?_).trans ?_ | intro _ | split | simp)
@[simp] theorem testMbxReset_keeps (s : State) :
    (testMbxReset s).sys = s.sys ∧ (testMbxReset s).power = s.power ∧ (testMbxReset s).twi = s.twi ∧ (testMbxReset s).ports = s.ports ∧ (testMbxReset s).pool = s.pool ∧ (testMbxReset s).lanes = s.lanes ∧ (testMbxReset s).map = s.map ∧ (testMbxReset s).dial = s.dial ∧ (testMbxReset s).mon = s.mon ∧ (testMbxReset s).alarms = s.alarms ∧ (testMbxReset s).faults = s.faults ∧ (testMbxReset s).jrx = s.jrx ∧ (testMbxReset s).pins = s.pins ∧ (testMbxReset s).bulk = s.bulk ∧ (testMbxReset s).free = s.free ∧ (testMbxReset s).pending = s.pending := by
  refine ⟨?_, ?_, ?_, ?_, ?_, ?_, ?_, ?_, ?_, ?_, ?_, ?_, ?_, ?_, ?_, ?_⟩ <;> (simp only [testMbxReset]; repeat' first | with_reducible rfl | (simp; done) | with_reducible refine (eachOf_sys _ _ _ ?_).trans ?_ | with_reducible refine (eachOf_power _ _ _ ?_).trans ?_ | with_reducible refine (eachOf_twi _ _ _ ?_).trans ?_ | with_reducible refine (eachOf_ports _ _ _ ?_).trans ?_ | with_reducible refine (eachOf_pool _ _ _ ?_).trans ?_ | with_reducible refine (eachOf_lanes _ _ _ ?_).trans ?_ | with_reducible refine (eachOf_map _ _ _ ?_).trans ?_ | with_reducible refine (eachOf_dial _ _ _ ?_).trans ?_ | with_reducible refine (eachOf_mon _ _ _ ?_).trans ?_ | with_reducible refine (eachOf_alarms _ _ _ ?_).trans ?_ | with_reducible refine (eachOf_faults _ _ _ ?_).trans ?_ | with_reducible refine (eachOf_jrx _ _ _ ?_).trans ?_ | with_reducible refine (eachOf_pins _ _ _ ?_).trans ?_ | with_reducible refine (eachOf_bulk _ _ _ ?_).trans ?_ | with_reducible refine (eachOf_free _ _ _ ?_).trans ?_ | with_reducible refine (eachOf_pending _ _ _ ?_).trans ?_ | with_reducible refine (eachPort_sys _ _ ?_).trans ?_ | with_reducible refine (eachPort_power _ _ ?_).trans ?_ | with_reducible refine (eachPort_twi _ _ ?_).trans ?_ | with_reducible refine (eachPort_ports _ _ ?_).trans ?_ | with_reducible refine (eachPort_pool _ _ ?_).trans ?_ | with_reducible refine (eachPort_lanes _ _ ?_).trans ?_ | with_reducible refine (eachPort_map _ _ ?_).trans ?_ | with_reducible refine (eachPort_dial _ _ ?_).trans ?_ | with_reducible refine (eachPort_mon _ _ ?_).trans ?_ | with_reducible refine (eachPort_alarms _ _ ?_).trans ?_ | with_reducible refine (eachPort_faults _ _ ?_).trans ?_ | with_reducible refine (eachPort_jrx _ _ ?_).trans ?_ | with_reducible refine (eachPort_pins _ _ ?_).trans ?_ | with_reducible refine (eachPort_bulk _ _ ?_).trans ?_ | with_reducible refine (eachPort_free _ _ ?_).trans ?_ | with_reducible refine (eachPort_pending _ _ ?_).trans ?_ | with_reducible refine (doIf_sys _ _ _ ?_).trans ?_ | with_reducible refine (doIf_power _ _ _ ?_).trans ?_ | with_reducible refine (doIf_twi _ _ _ ?_).trans ?_ | with_reducible refine (doIf_ports _ _ _ ?_).trans ?_ | with_reducible refine (doIf_pool _ _ _ ?_).trans ?_ | with_reducible refine (doIf_lanes _ _ _ ?_).trans ?_ | with_reducible refine (doIf_map _ _ _ ?_).trans ?_ | with_reducible refine (doIf_dial _ _ _ ?_).trans ?_ | with_reducible refine (doIf_mon _ _ _ ?_).trans ?_ | with_reducible refine (doIf_alarms _ _ _ ?_).trans ?_ | with_reducible refine (doIf_faults _ _ _ ?_).trans ?_ | with_reducible refine (doIf_jrx _ _ _ ?_).trans ?_ | with_reducible refine (doIf_pins _ _ _ ?_).trans ?_ | with_reducible refine (doIf_bulk _ _ _ ?_).trans ?_ | with_reducible refine (doIf_free _ _ _ ?_).trans ?_ | with_reducible refine (doIf_pending _ _ _ ?_).trans ?_ | with_reducible refine (command_twi _ _ _ _ _ _ ?_).trans ?_ | with_reducible refine (command_pins _ _ _ _ _ _ ?_).trans ?_ | with_reducible refine (command_bulk _ _ _ _ _ _ ?_).trans ?_ | with_reducible refine (command_pending _ _ _ _ _ _ ?_).trans ?_ | with_reducible refine (commandOk_twi _ _ _ _ _ _ ?_).trans ?_ | with_reducible refine (commandOk_pins _ _ _ _ _ _ ?_).trans ?_ | with_reducible refine (commandOk_bulk _ _ _ _ _ _ ?_).trans ?_ | with_reducible refine (commandOk_pending _ _ _ _ _ _ ?_).trans ?_ | with_reducible refine (awaitReport_power _ _ _ _ _ ?_).trans ?_ | with_reducible refine (awaitReport_twi _ _ _ _ _ ?_).trans ?_ | with_reducible refine (awaitReport_ports _ _ _ _ _ ?_).trans ?_ | with_reducible refine (awaitReport_pool _ _ _ _ _ ?_).trans ?_ | with_reducible refine (awaitReport_lanes _ _ _ _ _ ?_).trans ?_ | with_reducible refine (awaitReport_map _ _ _ _ _ ?_).trans ?_ | with_reducible refine (awaitReport_dial _ _ _ _ _ ?_).trans ?_ | with_reducible refine (awaitReport_mon _ _ _ _ _ ?_).trans ?_ | with_reducible refine (awaitReport_alarms _ _ _ _ _ ?_).trans ?_ | with_reducible refine (awaitReport_faults _ _ _ _ _ ?_).trans ?_ | with_reducible refine (awaitReport_jrx _ _ _ _ _ ?_).trans ?_ | with_reducible refine (awaitReport_pins _ _ _ _ _ ?_).trans ?_ | with_reducible refine (awaitReport_bulk _ _ _ _ _ ?_).trans ?_ | with_reducible refine (awaitReport_free _ _ _ _ _ ?_).trans ?_ | with_reducible refine (awaitReport_pending _ _ _ _ _ ?_).trans ?_ | with_reducible refine (report_twi _ _ _ _ _ _ ?_).trans ?_ | with_reducible refine (report_pins _ _ _ _ _ _ ?_).trans ?_ | with_reducible refine (report_bulk _ _ _ _ _ _ ?_).trans ?_ | with_reducible refine (report_pending _ _ _ _ _ _ ?_).trans ?_ | intro _ | split | simp)
@[simp] theorem loupeSet_keeps (rq : Req) (s : State) :
    (loupeSet rq s).twi = s.twi ∧ (loupeSet rq s).pins = s.pins ∧ (loupeSet rq s).bulk = s.bulk ∧ (loupeSet rq s).pending = s.pending := by
  refine ⟨?_, ?_, ?_, ?_⟩ <;> (simp only [loupeSet]; repeat' first | with_reducible rfl | (simp; done) | with_reducible refine (eachOf_twi _ _ _ ?_).trans ?_ | with_reducible refine (eachOf_pins _ _ _ ?_).trans ?_ | with_reducible refine (eachOf_bulk _ _ _ ?_).trans ?_ | with_reducible refine (eachOf_pending _ _ _ ?_).trans ?_ | with_reducible refine (eachPort_twi _ _ ?_).trans ?_ | with_reducible refine (eachPort_pins _ _ ?_).trans ?_ | with_reducible refine (eachPort_bulk _ _ ?_).trans ?_ | with_reducible refine (eachPort_pending _ _ ?_).trans ?_ | with_reducible refine (doIf_twi _ _ _ ?_).trans ?_ | with_reducible refine (doIf_pins _ _ _ ?_).trans ?_ | with_reducible refine (doIf_bulk _ _ _ ?_).trans ?_ | with_reducible refine (doIf_pending _ _ _ ?_).trans ?_ | with_reducible refine (command_twi _ _ _ _ _ _ ?_).trans ?_ | with_reducible refine (command_pins _ _ _ _ _ _ ?_).trans ?_ | with_reducible refine (command_bulk _ _ _ _ _ _ ?_).trans ?_ | with_reducible refine (command_pending _ _ _ _ _ _ ?_).trans ?_ | with_reducible refine (commandOk_twi _ _ _ _ _ _ ?_).trans ?_ | with_reducible refine (commandOk_pins _ _ _ _ _ _ ?_).trans ?_ | with_reducible refine (commandOk_bulk _ _ _ _ _ _ ?_).trans ?_ | with_reducible refine (commandOk_pending _ _ _ _ _ _ ?_).trans ?_ | with_reducible refine (awaitReport_twi _ _ _ _ _ ?_).trans ?_ | with_reducible refine (awaitReport_pins _ _ _ _ _ ?_).trans ?_ | with_reducible refine (awaitReport_bulk _ _ _ _ _ ?_).trans ?_ | with_reducible refine (awaitReport_pending _ _ _ _ _ ?_).trans ?_ | with_reducible refine (report_twi _ _ _ _ _ _ ?_).trans ?_ | with_reducible refine (report_pins _ _ _ _ _ _ ?_).trans ?_ | with_reducible refine (report_bulk _ _ _ _ _ _ ?_).trans ?_ | with_reducible refine (report_pending _ _ _ _ _ _ ?_).trans ?_ | intro _ | split | simp)
@[simp] theorem setLoop_keeps (kind : Nat) (on : Bool) (p : LPort) (l : List HLane) (s : State) :
    (setLoop kind on p l s).sys = s.sys ∧ (setLoop kind on p l s).power = s.power ∧ (setLoop kind on p l s).twi = s.twi ∧ (setLoop kind on p l s).mon = s.mon ∧ (setLoop kind on p l s).faults = s.faults ∧ (setLoop kind on p l s).test = s.test ∧ (setLoop kind on p l s).pins = s.pins ∧ (setLoop kind on p l s).bulk = s.bulk ∧ (setLoop kind on p l s).free = s.free ∧ (setLoop kind on p l s).pending = s.pending := by
  refine ⟨?_, ?_, ?_, ?_, ?_, ?_, ?_, ?_, ?_, ?_⟩ <;> (simp only [setLoop]; repeat' first | with_reducible rfl | (simp; done) | with_reducible refine (eachOf_sys _ _ _ ?_).trans ?_ | with_reducible refine (eachOf_power _ _ _ ?_).trans ?_ | with_reducible refine (eachOf_twi _ _ _ ?_).trans ?_ | with_reducible refine (eachOf_mon _ _ _ ?_).trans ?_ | with_reducible refine (eachOf_faults _ _ _ ?_).trans ?_ | with_reducible refine (eachOf_test _ _ _ ?_).trans ?_ | with_reducible refine (eachOf_pins _ _ _ ?_).trans ?_ | with_reducible refine (eachOf_bulk _ _ _ ?_).trans ?_ | with_reducible refine (eachOf_free _ _ _ ?_).trans ?_ | with_reducible refine (eachOf_pending _ _ _ ?_).trans ?_ | with_reducible refine (eachPort_sys _ _ ?_).trans ?_ | with_reducible refine (eachPort_power _ _ ?_).trans ?_ | with_reducible refine (eachPort_twi _ _ ?_).trans ?_ | with_reducible refine (eachPort_mon _ _ ?_).trans ?_ | with_reducible refine (eachPort_faults _ _ ?_).trans ?_ | with_reducible refine (eachPort_test _ _ ?_).trans ?_ | with_reducible refine (eachPort_pins _ _ ?_).trans ?_ | with_reducible refine (eachPort_bulk _ _ ?_).trans ?_ | with_reducible refine (eachPort_free _ _ ?_).trans ?_ | with_reducible refine (eachPort_pending _ _ ?_).trans ?_ | with_reducible refine (doIf_sys _ _ _ ?_).trans ?_ | with_reducible refine (doIf_power _ _ _ ?_).trans ?_ | with_reducible refine (doIf_twi _ _ _ ?_).trans ?_ | with_reducible refine (doIf_mon _ _ _ ?_).trans ?_ | with_reducible refine (doIf_faults _ _ _ ?_).trans ?_ | with_reducible refine (doIf_test _ _ _ ?_).trans ?_ | with_reducible refine (doIf_pins _ _ _ ?_).trans ?_ | with_reducible refine (doIf_bulk _ _ _ ?_).trans ?_ | with_reducible refine (doIf_free _ _ _ ?_).trans ?_ | with_reducible refine (doIf_pending _ _ _ ?_).trans ?_ | with_reducible refine (command_twi _ _ _ _ _ _ ?_).trans ?_ | with_reducible refine (command_test _ _ _ _ _ _ ?_).trans ?_ | with_reducible refine (command_pins _ _ _ _ _ _ ?_).trans ?_ | with_reducible refine (command_bulk _ _ _ _ _ _ ?_).trans ?_ | with_reducible refine (command_pending _ _ _ _ _ _ ?_).trans ?_ | with_reducible refine (commandOk_twi _ _ _ _ _ _ ?_).trans ?_ | with_reducible refine (commandOk_test _ _ _ _ _ _ ?_).trans ?_ | with_reducible refine (commandOk_pins _ _ _ _ _ _ ?_).trans ?_ | with_reducible refine (commandOk_bulk _ _ _ _ _ _ ?_).trans ?_ | with_reducible refine (commandOk_pending _ _ _ _ _ _ ?_).trans ?_ | with_reducible refine (awaitReport_power _ _ _ _ _ ?_).trans ?_ | with_reducible refine (awaitReport_twi _ _ _ _ _ ?_).trans ?_ | with_reducible refine (awaitReport_mon _ _ _ _ _ ?_).trans ?_ | with_reducible refine (awaitReport_faults _ _ _ _ _ ?_).trans ?_ | with_reducible refine (awaitReport_test _ _ _ _ _ ?_).trans ?_ | with_reducible refine (awaitReport_pins _ _ _ _ _ ?_).trans ?_ | with_reducible refine (awaitReport_bulk _ _ _ _ _ ?_).trans ?_ | with_reducible refine (awaitReport_free _ _ _ _ _ ?_).trans ?_ | with_reducible refine (awaitReport_pending _ _ _ _ _ ?_).trans ?_ | with_reducible refine (report_twi _ _ _ _ _ _ ?_).trans ?_ | with_reducible refine (report_test _ _ _ _ _ _ ?_).trans ?_ | with_reducible refine (report_pins _ _ _ _ _ _ ?_).trans ?_ | with_reducible refine (report_bulk _ _ _ _ _ _ ?_).trans ?_ | with_reducible refine (report_pending _ _ _ _ _ _ ?_).trans ?_ | intro _ | split | simp)
@[simp] theorem loopbackSet_keeps (rq : Req) (s : State) :
    (loopbackSet rq s).twi = s.twi ∧ (loopbackSet rq s).test = s.test ∧ (loopbackSet rq s).pins = s.pins ∧ (loopbackSet rq s).bulk = s.bulk ∧ (loopbackSet rq s).pending = s.pending := by
  simp only [loopbackSet]; (repeat' split) <;> simp

@[simp] theorem dialConfig_keeps (rq : Req) (s : State) :
    (dialConfig rq s).twi = s.twi ∧ (dialConfig rq s).test = s.test ∧ (dialConfig rq s).pins = s.pins ∧ (dialConfig rq s).bulk = s.bulk ∧ (dialConfig rq s).pending = s.pending := by
  simp only [dialConfig]; (repeat' split) <;> simp
@[simp] theorem runOpcode_keeps (opcode : Nat) (rq : Req) (s : State) :
    (runOpcode opcode rq s).twi = s.twi ∧ (runOpcode opcode rq s).pins = s.pins ∧ (runOpcode opcode rq s).pending = s.pending := by
  simp only [runOpcode]; (repeat' split) <;> simp

@[simp] theorem enterSched_keeps (e : DialEv) (s : State) :
    (enterSched e s).sys = s.sys ∧ (enterSched e s).power = s.power ∧ (enterSched e s).mbx = s.mbx ∧ (enterSched e s).twi = s.twi ∧ (enterSched e s).ports = s.ports ∧ (enterSched e s).pool = s.pool ∧ (enterSched e s).lanes = s.lanes ∧ (enterSched e s).map = s.map ∧ (enterSched e s).mon = s.mon ∧ (enterSched e s).alarms = s.alarms ∧ (enterSched e s).faults = s.faults ∧ (enterSched e s).jrx = s.jrx ∧ (enterSched e s).test = s.test ∧ (enterSched e s).pins = s.pins ∧ (enterSched e s).bulk = s.bulk ∧ (enterSched e s).pending = s.pending := by
  simp only [enterSched]; (repeat' split) <;> simp
@[simp] theorem dialSchedule_keeps (rq : Req) (s : State) :
    (dialSchedule rq s).power = s.power ∧ (dialSchedule rq s).twi = s.twi ∧ (dialSchedule rq s).ports = s.ports ∧ (dialSchedule rq s).pool = s.pool ∧ (dialSchedule rq s).lanes = s.lanes ∧ (dialSchedule rq s).map = s.map ∧ (dialSchedule rq s).mon = s.mon ∧ (dialSchedule rq s).alarms = s.alarms ∧ (dialSchedule rq s).faults = s.faults ∧ (dialSchedule rq s).test = s.test ∧ (dialSchedule rq s).pins = s.pins ∧ (dialSchedule rq s).bulk = s.bulk ∧ (dialSchedule rq s).pending = s.pending := by
  simp only [dialSchedule]; (repeat' split) <;> simp
@[simp] theorem cancelEvent_keeps (e : DialEv) (s : State) :
    (cancelEvent e s).power = s.power ∧ (cancelEvent e s).twi = s.twi ∧ (cancelEvent e s).pool = s.pool ∧ (cancelEvent e s).lanes = s.lanes ∧ (cancelEvent e s).map = s.map ∧ (cancelEvent e s).mon = s.mon ∧ (cancelEvent e s).alarms = s.alarms ∧ (cancelEvent e s).faults = s.faults ∧ (cancelEvent e s).test = s.test ∧ (cancelEvent e s).pins = s.pins ∧ (cancelEvent e s).bulk = s.bulk ∧ (cancelEvent e s).pending = s.pending := by
  simp only [cancelEvent]; (repeat' split) <;> simp
@[simp] theorem dialCancel_keeps (rq : Req) (s : State) :
    (dialCancel rq s).twi = s.twi ∧ (dialCancel rq s).test = s.test ∧ (dialCancel rq s).pins = s.pins ∧ (dialCancel rq s).bulk = s.bulk ∧ (dialCancel rq s).pending = s.pending := by
  simp only [dialCancel]; (repeat' split) <;> simp
@[simp] theorem dialList_keeps (rq : Req) (s : State) :
    (dialList rq s).twi = s.twi ∧ (dialList rq s).test = s.test ∧ (dialList rq s).pins = s.pins ∧ (dialList rq s).pending = s.pending := by
  simp only [dialList]; (repeat' split) <;> simp
@[simp] theorem dialTime_keeps (rq : Req) (s : State) :
    (dialTime rq s).twi = s.twi ∧ (dialTime rq s).test = s.test ∧ (dialTime rq s).pins = s.pins ∧ (dialTime rq s).bulk = s.bulk ∧ (dialTime rq s).pending = s.pending := by
  simp only [dialTime]; (repeat' split) <;> simp
@[simp] theorem completeRefused_keeps (e : DialEv) (s : State) :
    (completeRefused e s).sys = s.sys ∧ (completeRefused e s).power = s.power ∧ (completeRefused e s).twi = s.twi ∧ (completeRefused e s).ports = s.ports ∧ (completeRefused e s).pool = s.pool ∧ (completeRefused e s).lanes = s.lanes ∧ (completeRefused e s).map = s.map ∧ (completeRefused e s).mon = s.mon ∧ (completeRefused e s).alarms = s.alarms ∧ (completeRefused e s).faults = s.faults ∧ (completeRefused e s).test = s.test ∧ (completeRefused e s).pins = s.pins ∧ (completeRefused e s).bulk = s.bulk ∧ (completeRefused e s).free = s.free ∧ (completeRefused e s).pending = s.pending := by
  simp only [completeRefused]; (repeat' split) <;> simp
@[simp] theorem stageEvent_keeps (e : DialEv) (complete : Bool) (s : State) :
    (stageEvent e complete s).twi = s.twi ∧ (stageEvent e complete s).test = s.test ∧ (stageEvent e complete s).pins = s.pins ∧ (stageEvent e complete s).pending = s.pending := by
  refine ⟨?_, ?_, ?_, ?_⟩ <;> (simp only [stageEvent]; repeat' first | with_reducible rfl | (simp; done) | with_reducible refine (eachOf_twi _ _ _ ?_).trans ?_ | with_reducible refine (eachOf_test _ _ _ ?_).trans ?_ | with_reducible refine (eachOf_pins _ _ _ ?_).trans ?_ | with_reducible refine (eachOf_pending _ _ _ ?_).trans ?_ | with_reducible refine (eachPort_twi _ _ ?_).trans ?_ | with_reducible refine (eachPort_test _ _ ?_).trans ?_ | with_reducible refine (eachPort_pins _ _ ?_).trans ?_ | with_reducible refine (eachPort_pending _ _ ?_).trans ?_ | with_reducible refine (doIf_twi _ _ _ ?_).trans ?_ | with_reducible refine (doIf_test _ _ _ ?_).trans ?_ | with_reducible refine (doIf_pins _ _ _ ?_).trans ?_ | with_reducible refine (doIf_pending _ _ _ ?_).trans ?_ | with_reducible refine (command_twi _ _ _ _ _ _ ?_).trans ?_ | with_reducible refine (command_test _ _ _ _ _ _ ?_).trans ?_ | with_reducible refine (command_pins _ _ _ _ _ _ ?_).trans ?_ | with_reducible refine (command_pending _ _ _ _ _ _ ?_).trans ?_ | with_reducible refine (commandOk_twi _ _ _ _ _ _ ?_).trans ?_ | with_reducible refine (commandOk_test _ _ _ _ _ _ ?_).trans ?_ | with_reducible refine (commandOk_pins _ _ _ _ _ _ ?_).trans ?_ | with_reducible refine (commandOk_pending _ _ _ _ _ _ ?_).trans ?_ | with_reducible refine (awaitReport_twi _ _ _ _ _ ?_).trans ?_ | with_reducible refine (awaitReport_test _ _ _ _ _ ?_).trans ?_ | with_reducible refine (awaitReport_pins _ _ _ _ _ ?_).trans ?_ | with_reducible refine (awaitReport_pending _ _ _ _ _ ?_).trans ?_ | with_reducible refine (report_twi _ _ _ _ _ _ ?_).trans ?_ | with_reducible refine (report_test _ _ _ _ _ _ ?_).trans ?_ | with_reducible refine (report_pins _ _ _ _ _ _ ?_).trans ?_ | with_reducible refine (report_pending _ _ _ _ _ _ ?_).trans ?_ | intro _ | split | simp)
@[simp] theorem dialStage_keeps (idx : Nat) (complete : Bool) (s : State) :
    (dialStage idx complete s).twi = s.twi ∧ (dialStage idx complete s).test = s.test ∧ (dialStage idx complete s).pins = s.pins ∧ (dialStage idx complete s).pending = s.pending := by
  refine ⟨?_, ?_, ?_, ?_⟩ <;> (simp only [dialStage]; repeat' first | with_reducible rfl | (simp; done) | with_reducible refine (eachOf_twi _ _ _ ?_).trans ?_ | with_reducible refine (eachOf_test _ _ _ ?_).trans ?_ | with_reducible refine (eachOf_pins _ _ _ ?_).trans ?_ | with_reducible refine (eachOf_pending _ _ _ ?_).trans ?_ | with_reducible refine (eachPort_twi _ _ ?_).trans ?_ | with_reducible refine (eachPort_test _ _ ?_).trans ?_ | with_reducible refine (eachPort_pins _ _ ?_).trans ?_ | with_reducible refine (eachPort_pending _ _ ?_).trans ?_ | with_reducible refine (doIf_twi _ _ _ ?_).trans ?_ | with_reducible refine (doIf_test _ _ _ ?_).trans ?_ | with_reducible refine (doIf_pins _ _ _ ?_).trans ?_ | with_reducible refine (doIf_pending _ _ _ ?_).trans ?_ | with_reducible refine (command_twi _ _ _ _ _ _ ?_).trans ?_ | with_reducible refine (command_test _ _ _ _ _ _ ?_).trans ?_ | with_reducible refine (command_pins _ _ _ _ _ _ ?_).trans ?_ | with_reducible refine (command_pending _ _ _ _ _ _ ?_).trans ?_ | with_reducible refine (commandOk_twi _ _ _ _ _ _ ?_).trans ?_ | with_reducible refine (commandOk_test _ _ _ _ _ _ ?_).trans ?_ | with_reducible refine (commandOk_pins _ _ _ _ _ _ ?_).trans ?_ | with_reducible refine (commandOk_pending _ _ _ _ _ _ ?_).trans ?_ | with_reducible refine (awaitReport_twi _ _ _ _ _ ?_).trans ?_ | with_reducible refine (awaitReport_test _ _ _ _ _ ?_).trans ?_ | with_reducible refine (awaitReport_pins _ _ _ _ _ ?_).trans ?_ | with_reducible refine (awaitReport_pending _ _ _ _ _ ?_).trans ?_ | with_reducible refine (report_twi _ _ _ _ _ _ ?_).trans ?_ | with_reducible refine (report_test _ _ _ _ _ _ ?_).trans ?_ | with_reducible refine (report_pins _ _ _ _ _ _ ?_).trans ?_ | with_reducible refine (report_pending _ _ _ _ _ _ ?_).trans ?_ | intro _ | split | simp)
@[simp] theorem markReleased_keeps (r : RefCode) (e : DialEv) (s : State) :
    (markReleased r e s).sys = s.sys ∧ (markReleased r e s).power = s.power ∧ (markReleased r e s).mbx = s.mbx ∧ (markReleased r e s).twi = s.twi ∧ (markReleased r e s).ports = s.ports ∧ (markReleased r e s).pool = s.pool ∧ (markReleased r e s).lanes = s.lanes ∧ (markReleased r e s).map = s.map ∧ (markReleased r e s).mon = s.mon ∧ (markReleased r e s).alarms = s.alarms ∧ (markReleased r e s).faults = s.faults ∧ (markReleased r e s).jrx = s.jrx ∧ (markReleased r e s).test = s.test ∧ (markReleased r e s).pins = s.pins ∧ (markReleased r e s).bulk = s.bulk ∧ (markReleased r e s).free = s.free ∧ (markReleased r e s).pending = s.pending := by
  refine ⟨?_, ?_, ?_, ?_, ?_, ?_, ?_, ?_, ?_, ?_, ?_, ?_, ?_, ?_, ?_, ?_, ?_⟩ <;> (simp only [markReleased]; repeat' first | with_reducible rfl | (simp; done) | with_reducible refine (eachOf_sys _ _ _ ?_).trans ?_ | with_reducible refine (eachOf_power _ _ _ ?_).trans ?_ | with_reducible refine (eachOf_mbx _ _ _ ?_).trans ?_ | with_reducible refine (eachOf_twi _ _ _ ?_).trans ?_ | with_reducible refine (eachOf_ports _ _ _ ?_).trans ?_ | with_reducible refine (eachOf_pool _ _ _ ?_).trans ?_ | with_reducible refine (eachOf_lanes _ _ _ ?_).trans ?_ | with_reducible refine (eachOf_map _ _ _ ?_).trans ?_ | with_reducible refine (eachOf_mon _ _ _ ?_).trans ?_ | with_reducible refine (eachOf_alarms _ _ _ ?_).trans ?_ | with_reducible refine (eachOf_faults _ _ _ ?_).trans ?_ | with_reducible refine (eachOf_jrx _ _ _ ?_).trans ?_ | with_reducible refine (eachOf_test _ _ _ ?_).trans ?_ | with_reducible refine (eachOf_pins _ _ _ ?_).trans ?_ | with_reducible refine (eachOf_bulk _ _ _ ?_).trans ?_ | with_reducible refine (eachOf_free _ _ _ ?_).trans ?_ | with_reducible refine (eachOf_pending _ _ _ ?_).trans ?_ | with_reducible refine (eachPort_sys _ _ ?_).trans ?_ | with_reducible refine (eachPort_power _ _ ?_).trans ?_ | with_reducible refine (eachPort_mbx _ _ ?_).trans ?_ | with_reducible refine (eachPort_twi _ _ ?_).trans ?_ | with_reducible refine (eachPort_ports _ _ ?_).trans ?_ | with_reducible refine (eachPort_pool _ _ ?_).trans ?_ | with_reducible refine (eachPort_lanes _ _ ?_).trans ?_ | with_reducible refine (eachPort_map _ _ ?_).trans ?_ | with_reducible refine (eachPort_mon _ _ ?_).trans ?_ | with_reducible refine (eachPort_alarms _ _ ?_).trans ?_ | with_reducible refine (eachPort_faults _ _ ?_).trans ?_ | with_reducible refine (eachPort_jrx _ _ ?_).trans ?_ | with_reducible refine (eachPort_test _ _ ?_).trans ?_ | with_reducible refine (eachPort_pins _ _ ?_).trans ?_ | with_reducible refine (eachPort_bulk _ _ ?_).trans ?_ | with_reducible refine (eachPort_free _ _ ?_).trans ?_ | with_reducible refine (eachPort_pending _ _ ?_).trans ?_ | with_reducible refine (doIf_sys _ _ _ ?_).trans ?_ | with_reducible refine (doIf_power _ _ _ ?_).trans ?_ | with_reducible refine (doIf_mbx _ _ _ ?_).trans ?_ | with_reducible refine (doIf_twi _ _ _ ?_).trans ?_ | with_reducible refine (doIf_ports _ _ _ ?_).trans ?_ | with_reducible refine (doIf_pool _ _ _ ?_).trans ?_ | with_reducible refine (doIf_lanes _ _ _ ?_).trans ?_ | with_reducible refine (doIf_map _ _ _ ?_).trans ?_ | with_reducible refine (doIf_mon _ _ _ ?_).trans ?_ | with_reducible refine (doIf_alarms _ _ _ ?_).trans ?_ | with_reducible refine (doIf_faults _ _ _ ?_).trans ?_ | with_reducible refine (doIf_jrx _ _ _ ?_).trans ?_ | with_reducible refine (doIf_test _ _ _ ?_).trans ?_ | with_reducible refine (doIf_pins _ _ _ ?_).trans ?_ | with_reducible refine (doIf_bulk _ _ _ ?_).trans ?_ | with_reducible refine (doIf_free _ _ _ ?_).trans ?_ | with_reducible refine (doIf_pending _ _ _ ?_).trans ?_ | with_reducible refine (command_twi _ _ _ _ _ _ ?_).trans ?_ | with_reducible refine (command_test _ _ _ _ _ _ ?_).trans ?_ | with_reducible refine (command_pins _ _ _ _ _ _ ?_).trans ?_ | with_reducible refine (command_bulk _ _ _ _ _ _ ?_).trans ?_ | with_reducible refine (command_pending _ _ _ _ _ _ ?_).trans ?_ | with_reducible refine (commandOk_twi _ _ _ _ _ _ ?_).trans ?_ | with_reducible refine (commandOk_test _ _ _ _ _ _ ?_).trans ?_ | with_reducible refine (commandOk_pins _ _ _ _ _ _ ?_).trans ?_ | with_reducible refine (commandOk_bulk _ _ _ _ _ _ ?_).trans ?_ | with_reducible refine (commandOk_pending _ _ _ _ _ _ ?_).trans ?_ | with_reducible refine (awaitReport_power _ _ _ _ _ ?_).trans ?_ | with_reducible refine (awaitReport_twi _ _ _ _ _ ?_).trans ?_ | with_reducible refine (awaitReport_ports _ _ _ _ _ ?_).trans ?_ | with_reducible refine (awaitReport_pool _ _ _ _ _ ?_).trans ?_ | with_reducible refine (awaitReport_lanes _ _ _ _ _ ?_).trans ?_ | with_reducible refine (awaitReport_map _ _ _ _ _ ?_).trans ?_ | with_reducible refine (awaitReport_mon _ _ _ _ _ ?_).trans ?_ | with_reducible refine (awaitReport_alarms _ _ _ _ _ ?_).trans ?_ | with_reducible refine (awaitReport_faults _ _ _ _ _ ?_).trans ?_ | with_reducible refine (awaitReport_jrx _ _ _ _ _ ?_).trans ?_ | with_reducible refine (awaitReport_test _ _ _ _ _ ?_).trans ?_ | with_reducible refine (awaitReport_pins _ _ _ _ _ ?_).trans ?_ | with_reducible refine (awaitReport_bulk _ _ _ _ _ ?_).trans ?_ | with_reducible refine (awaitReport_free _ _ _ _ _ ?_).trans ?_ | with_reducible refine (awaitReport_pending _ _ _ _ _ ?_).trans ?_ | with_reducible refine (report_twi _ _ _ _ _ _ ?_).trans ?_ | with_reducible refine (report_test _ _ _ _ _ _ ?_).trans ?_ | with_reducible refine (report_pins _ _ _ _ _ _ ?_).trans ?_ | with_reducible refine (report_bulk _ _ _ _ _ _ ?_).trans ?_ | with_reducible refine (report_pending _ _ _ _ _ _ ?_).trans ?_ | intro _ | split | simp)
@[simp] theorem markDeferred_keeps (e : DialEv) (s : State) :
    (markDeferred e s).sys = s.sys ∧ (markDeferred e s).power = s.power ∧ (markDeferred e s).mbx = s.mbx ∧ (markDeferred e s).twi = s.twi ∧ (markDeferred e s).ports = s.ports ∧ (markDeferred e s).pool = s.pool ∧ (markDeferred e s).lanes = s.lanes ∧ (markDeferred e s).map = s.map ∧ (markDeferred e s).mon = s.mon ∧ (markDeferred e s).alarms = s.alarms ∧ (markDeferred e s).faults = s.faults ∧ (markDeferred e s).jrx = s.jrx ∧ (markDeferred e s).test = s.test ∧ (markDeferred e s).pins = s.pins ∧ (markDeferred e s).bulk = s.bulk ∧ (markDeferred e s).free = s.free ∧ (markDeferred e s).pending = s.pending := by
  refine ⟨?_, ?_, ?_, ?_, ?_, ?_, ?_, ?_, ?_, ?_, ?_, ?_, ?_, ?_, ?_, ?_, ?_⟩ <;> (simp only [markDeferred]; repeat' first | with_reducible rfl | (simp; done) | with_reducible refine (eachOf_sys _ _ _ ?_).trans ?_ | with_reducible refine (eachOf_power _ _ _ ?_).trans ?_ | with_reducible refine (eachOf_mbx _ _ _ ?_).trans ?_ | with_reducible refine (eachOf_twi _ _ _ ?_).trans ?_ | with_reducible refine (eachOf_ports _ _ _ ?_).trans ?_ | with_reducible refine (eachOf_pool _ _ _ ?_).trans ?_ | with_reducible refine (eachOf_lanes _ _ _ ?_).trans ?_ | with_reducible refine (eachOf_map _ _ _ ?_).trans ?_ | with_reducible refine (eachOf_mon _ _ _ ?_).trans ?_ | with_reducible refine (eachOf_alarms _ _ _ ?_).trans ?_ | with_reducible refine (eachOf_faults _ _ _ ?_).trans ?_ | with_reducible refine (eachOf_jrx _ _ _ ?_).trans ?_ | with_reducible refine (eachOf_test _ _ _ ?_).trans ?_ | with_reducible refine (eachOf_pins _ _ _ ?_).trans ?_ | with_reducible refine (eachOf_bulk _ _ _ ?_).trans ?_ | with_reducible refine (eachOf_free _ _ _ ?_).trans ?_ | with_reducible refine (eachOf_pending _ _ _ ?_).trans ?_ | with_reducible refine (eachPort_sys _ _ ?_).trans ?_ | with_reducible refine (eachPort_power _ _ ?_).trans ?_ | with_reducible refine (eachPort_mbx _ _ ?_).trans ?_ | with_reducible refine (eachPort_twi _ _ ?_).trans ?_ | with_reducible refine (eachPort_ports _ _ ?_).trans ?_ | with_reducible refine (eachPort_pool _ _ ?_).trans ?_ | with_reducible refine (eachPort_lanes _ _ ?_).trans ?_ | with_reducible refine (eachPort_map _ _ ?_).trans ?_ | with_reducible refine (eachPort_mon _ _ ?_).trans ?_ | with_reducible refine (eachPort_alarms _ _ ?_).trans ?_ | with_reducible refine (eachPort_faults _ _ ?_).trans ?_ | with_reducible refine (eachPort_jrx _ _ ?_).trans ?_ | with_reducible refine (eachPort_test _ _ ?_).trans ?_ | with_reducible refine (eachPort_pins _ _ ?_).trans ?_ | with_reducible refine (eachPort_bulk _ _ ?_).trans ?_ | with_reducible refine (eachPort_free _ _ ?_).trans ?_ | with_reducible refine (eachPort_pending _ _ ?_).trans ?_ | with_reducible refine (doIf_sys _ _ _ ?_).trans ?_ | with_reducible refine (doIf_power _ _ _ ?_).trans ?_ | with_reducible refine (doIf_mbx _ _ _ ?_).trans ?_ | with_reducible refine (doIf_twi _ _ _ ?_).trans ?_ | with_reducible refine (doIf_ports _ _ _ ?_).trans ?_ | with_reducible refine (doIf_pool _ _ _ ?_).trans ?_ | with_reducible refine (doIf_lanes _ _ _ ?_).trans ?_ | with_reducible refine (doIf_map _ _ _ ?_).trans ?_ | with_reducible refine (doIf_mon _ _ _ ?_).trans ?_ | with_reducible refine (doIf_alarms _ _ _ ?_).trans ?_ | with_reducible refine (doIf_faults _ _ _ ?_).trans ?_ | with_reducible refine (doIf_jrx _ _ _ ?_).trans ?_ | with_reducible refine (doIf_test _ _ _ ?_).trans ?_ | with_reducible refine (doIf_pins _ _ _ ?_).trans ?_ | with_reducible refine (doIf_bulk _ _ _ ?_).trans ?_ | with_reducible refine (doIf_free _ _ _ ?_).trans ?_ | with_reducible refine (doIf_pending _ _ _ ?_).trans ?_ | with_reducible refine (command_twi _ _ _ _ _ _ ?_).trans ?_ | with_reducible refine (command_test _ _ _ _ _ _ ?_).trans ?_ | with_reducible refine (command_pins _ _ _ _ _ _ ?_).trans ?_ | with_reducible refine (command_bulk _ _ _ _ _ _ ?_).trans ?_ | with_reducible refine (command_pending _ _ _ _ _ _ ?_).trans ?_ | with_reducible refine (commandOk_twi _ _ _ _ _ _ ?_).trans ?_ | with_reducible refine (commandOk_test _ _ _ _ _ _ ?_).trans ?_ | with_reducible refine (commandOk_pins _ _ _ _ _ _ ?_).trans ?_ | with_reducible refine (commandOk_bulk _ _ _ _ _ _ ?_).trans ?_ | with_reducible refine (commandOk_pending _ _ _ _ _ _ ?_).trans ?_ | with_reducible refine (awaitReport_power _ _ _ _ _ ?_).trans ?_ | with_reducible refine (awaitReport_twi _ _ _ _ _ ?_).trans ?_ | with_reducible refine (awaitReport_ports _ _ _ _ _ ?_).trans ?_ | with_reducible refine (awaitReport_pool _ _ _ _ _ ?_).trans ?_ | with_reducible refine (awaitReport_lanes _ _ _ _ _ ?_).trans ?_ | with_reducible refine (awaitReport_map _ _ _ _ _ ?_).trans ?_ | with_reducible refine (awaitReport_mon _ _ _ _ _ ?_).trans ?_ | with_reducible refine (awaitReport_alarms _ _ _ _ _ ?_).trans ?_ | with_reducible refine (awaitReport_faults _ _ _ _ _ ?_).trans ?_ | with_reducible refine (awaitReport_jrx _ _ _ _ _ ?_).trans ?_ | with_reducible refine (awaitReport_test _ _ _ _ _ ?_).trans ?_ | with_reducible refine (awaitReport_pins _ _ _ _ _ ?_).trans ?_ | with_reducible refine (awaitReport_bulk _ _ _ _ _ ?_).trans ?_ | with_reducible refine (awaitReport_free _ _ _ _ _ ?_).trans ?_ | with_reducible refine (awaitReport_pending _ _ _ _ _ ?_).trans ?_ | with_reducible refine (report_twi _ _ _ _ _ _ ?_).trans ?_ | with_reducible refine (report_test _ _ _ _ _ _ ?_).trans ?_ | with_reducible refine (report_pins _ _ _ _ _ _ ?_).trans ?_ | with_reducible refine (report_bulk _ _ _ _ _ _ ?_).trans ?_ | with_reducible refine (report_pending _ _ _ _ _ _ ?_).trans ?_ | intro _ | split | simp)
@[simp] theorem runPrompt_keeps (e : DialEv) (s : State) :
    (runPrompt e s).twi = s.twi ∧ (runPrompt e s).pins = s.pins ∧ (runPrompt e s).pending = s.pending := by
  simp only [runPrompt]; (repeat' split) <;> simp
@[simp] theorem releaseEvent_keeps (idx : Nat) (s : State) :
    (releaseEvent idx s).twi = s.twi ∧ (releaseEvent idx s).pins = s.pins ∧ (releaseEvent idx s).pending = s.pending := by
  simp only [releaseEvent]; (repeat' split) <;> simp
@[simp] theorem dialRelease_keeps (r : RefCode) (s : State) :
    (dialRelease r s).twi = s.twi ∧ (dialRelease r s).pins = s.pins ∧ (dialRelease r s).pending = s.pending := by
  simp only [dialRelease]; (repeat' split) <;> simp

@[simp] theorem endBlob_keeps (r : BlobRun) (s : State) :
    (endBlob r s).power = s.power ∧ (endBlob r s).twi = s.twi ∧ (endBlob r s).pool = s.pool ∧ (endBlob r s).lanes = s.lanes ∧ (endBlob r s).map = s.map ∧ (endBlob r s).mon = s.mon ∧ (endBlob r s).alarms = s.alarms ∧ (endBlob r s).faults = s.faults ∧ (endBlob r s).test = s.test ∧ (endBlob r s).pins = s.pins ∧ (endBlob r s).bulk = s.bulk ∧ (endBlob r s).free = s.free ∧ (endBlob r s).pending = s.pending := by
  simp only [endBlob]; (repeat' split) <;> simp
@[simp] theorem runPacket_keeps (ws : List Word) (s : State) :
    (runPacket ws s).twi = s.twi ∧ (runPacket ws s).pins = s.pins ∧ (runPacket ws s).pending = s.pending := by
  simp only [runPacket]; (repeat' split) <;> simp
@[simp] theorem runBlob_twi (fuel : Nat) (s : State) : (runBlob fuel s).twi = s.twi := by
  induction fuel generalizing s with
  | zero => rfl
  | succ n ih => simp only [runBlob]; (repeat' split) <;> simp [ih]
@[simp] theorem runBlob_pins (fuel : Nat) (s : State) : (runBlob fuel s).pins = s.pins := by
  induction fuel generalizing s with
  | zero => rfl
  | succ n ih => simp only [runBlob]; (repeat' split) <;> simp [ih]
@[simp] theorem runBlob_pending (fuel : Nat) (s : State) : (runBlob fuel s).pending = s.pending := by
  induction fuel generalizing s with
  | zero => rfl
  | succ n ih => simp only [runBlob]; (repeat' split) <;> simp [ih]
@[simp] theorem startBlob_keeps (r : BlobRun) (s : State) :
    (startBlob r s).twi = s.twi ∧ (startBlob r s).pins = s.pins ∧ (startBlob r s).pending = s.pending := by
  refine ⟨?_, ?_, ?_⟩ <;> (simp only [startBlob]; repeat' first | with_reducible rfl | (simp; done) | with_reducible refine (eachOf_twi _ _ _ ?_).trans ?_ | with_reducible refine (eachOf_pins _ _ _ ?_).trans ?_ | with_reducible refine (eachOf_pending _ _ _ ?_).trans ?_ | with_reducible refine (eachPort_twi _ _ ?_).trans ?_ | with_reducible refine (eachPort_pins _ _ ?_).trans ?_ | with_reducible refine (eachPort_pending _ _ ?_).trans ?_ | with_reducible refine (doIf_twi _ _ _ ?_).trans ?_ | with_reducible refine (doIf_pins _ _ _ ?_).trans ?_ | with_reducible refine (doIf_pending _ _ _ ?_).trans ?_ | with_reducible refine (command_twi _ _ _ _ _ _ ?_).trans ?_ | with_reducible refine (command_pins _ _ _ _ _ _ ?_).trans ?_ | with_reducible refine (command_pending _ _ _ _ _ _ ?_).trans ?_ | with_reducible refine (commandOk_twi _ _ _ _ _ _ ?_).trans ?_ | with_reducible refine (commandOk_pins _ _ _ _ _ _ ?_).trans ?_ | with_reducible refine (commandOk_pending _ _ _ _ _ _ ?_).trans ?_ | with_reducible refine (awaitReport_twi _ _ _ _ _ ?_).trans ?_ | with_reducible refine (awaitReport_pins _ _ _ _ _ ?_).trans ?_ | with_reducible refine (awaitReport_pending _ _ _ _ _ ?_).trans ?_ | with_reducible refine (report_twi _ _ _ _ _ _ ?_).trans ?_ | with_reducible refine (report_pins _ _ _ _ _ _ ?_).trans ?_ | with_reducible refine (report_pending _ _ _ _ _ _ ?_).trans ?_ | intro _ | split | simp)
@[simp] theorem configCommit_keeps (rq : Req) (s : State) :
    (configCommit rq s).twi = s.twi ∧ (configCommit rq s).pins = s.pins ∧ (configCommit rq s).pending = s.pending := by
  refine ⟨?_, ?_, ?_⟩ <;> (simp only [configCommit]; repeat' first | with_reducible rfl | (simp; done) | with_reducible refine (eachOf_twi _ _ _ ?_).trans ?_ | with_reducible refine (eachOf_pins _ _ _ ?_).trans ?_ | with_reducible refine (eachOf_pending _ _ _ ?_).trans ?_ | with_reducible refine (eachPort_twi _ _ ?_).trans ?_ | with_reducible refine (eachPort_pins _ _ ?_).trans ?_ | with_reducible refine (eachPort_pending _ _ ?_).trans ?_ | with_reducible refine (doIf_twi _ _ _ ?_).trans ?_ | with_reducible refine (doIf_pins _ _ _ ?_).trans ?_ | with_reducible refine (doIf_pending _ _ _ ?_).trans ?_ | with_reducible refine (command_twi _ _ _ _ _ _ ?_).trans ?_ | with_reducible refine (command_pins _ _ _ _ _ _ ?_).trans ?_ | with_reducible refine (command_pending _ _ _ _ _ _ ?_).trans ?_ | with_reducible refine (commandOk_twi _ _ _ _ _ _ ?_).trans ?_ | with_reducible refine (commandOk_pins _ _ _ _ _ _ ?_).trans ?_ | with_reducible refine (commandOk_pending _ _ _ _ _ _ ?_).trans ?_ | with_reducible refine (awaitReport_twi _ _ _ _ _ ?_).trans ?_ | with_reducible refine (awaitReport_pins _ _ _ _ _ ?_).trans ?_ | with_reducible refine (awaitReport_pending _ _ _ _ _ ?_).trans ?_ | with_reducible refine (report_twi _ _ _ _ _ _ ?_).trans ?_ | with_reducible refine (report_pins _ _ _ _ _ _ ?_).trans ?_ | with_reducible refine (report_pending _ _ _ _ _ _ ?_).trans ?_ | intro _ | split | simp)
@[simp] theorem bootBlobDone_keeps (flash : List Word) (s : State) :
    (bootBlobDone flash s).twi = s.twi ∧ (bootBlobDone flash s).pins = s.pins ∧ (bootBlobDone flash s).pending = s.pending := by
  simp only [bootBlobDone]; (repeat' split) <;> simp
@[simp] theorem tick_keeps (s : State) :
    (tick s).twi = s.twi ∧ (tick s).pins = s.pins ∧ (tick s).pending = s.pending := by
  refine ⟨?_, ?_, ?_⟩ <;> (simp only [tick]; repeat' first | with_reducible rfl | (simp; done) | with_reducible refine (eachOf_twi _ _ _ ?_).trans ?_ | with_reducible refine (eachOf_pins _ _ _ ?_).trans ?_ | with_reducible refine (eachOf_pending _ _ _ ?_).trans ?_ | with_reducible refine (eachPort_twi _ _ ?_).trans ?_ | with_reducible refine (eachPort_pins _ _ ?_).trans ?_ | with_reducible refine (eachPort_pending _ _ ?_).trans ?_ | with_reducible refine (doIf_twi _ _ _ ?_).trans ?_ | with_reducible refine (doIf_pins _ _ _ ?_).trans ?_ | with_reducible refine (doIf_pending _ _ _ ?_).trans ?_ | with_reducible refine (command_twi _ _ _ _ _ _ ?_).trans ?_ | with_reducible refine (command_pins _ _ _ _ _ _ ?_).trans ?_ | with_reducible refine (command_pending _ _ _ _ _ _ ?_).trans ?_ | with_reducible refine (commandOk_twi _ _ _ _ _ _ ?_).trans ?_ | with_reducible refine (commandOk_pins _ _ _ _ _ _ ?_).trans ?_ | with_reducible refine (commandOk_pending _ _ _ _ _ _ ?_).trans ?_ | with_reducible refine (awaitReport_twi _ _ _ _ _ ?_).trans ?_ | with_reducible refine (awaitReport_pins _ _ _ _ _ ?_).trans ?_ | with_reducible refine (awaitReport_pending _ _ _ _ _ ?_).trans ?_ | with_reducible refine (report_twi _ _ _ _ _ _ ?_).trans ?_ | with_reducible refine (report_pins _ _ _ _ _ _ ?_).trans ?_ | with_reducible refine (report_pending _ _ _ _ _ _ ?_).trans ?_ | intro _ | split | simp)

end Sys2Proof.Machine
end

