-- ==== Sys2Proof/Laws/Memory.lean ====
section
/-! SUPPORT. Bulk memory: every operation keeps the canonical form, a read after a write gives the value written, and a
write leaves every other byte alone. -/

namespace Sys2Proof.Machine

/-- The canonical form, entry by entry. -/
theorem Memory.wf_cons (a : Nat) (b : Byte) (m : List Host.Cell) :
    Memory.wf ((a, b) :: m) = true ↔ b ≠ 0 ∧ (∀ c ∈ m, a < c.1) ∧ Memory.wf m = true := by
  induction m generalizing a b with
  | nil => simp [Memory.wf]
  | cons c m ih =>
    obtain ⟨x, y⟩ := c
    have h : Memory.wf ((a, b) :: (x, y) :: m) = true ↔ (b ≠ 0 ∧ a < x) ∧ Memory.wf ((x, y) :: m) = true := by
      simp [Memory.wf]
    rw [h, ih]
    constructor
    · rintro ⟨⟨hb, hax⟩, hy, hm, hw⟩
      refine ⟨hb, ?_, hy, hm, hw⟩
      intro c hc
      rcases List.mem_cons.mp hc with rfl | hc
      · exact hax
      · exact Nat.lt_trans hax (hm c hc)
    · rintro ⟨hb, hm, hw⟩
      exact ⟨⟨hb, hm (x, y) List.mem_cons_self⟩, hw⟩

/-- A store's entries are the old ones and the stored one. -/
theorem mem_memPut (m : List Host.Cell) (x : Nat) (v : Byte) (c : Host.Cell) (h : c ∈ memPut m x v) :
    c ∈ m ∨ c.1 = x := by
  induction m with
  | nil => simp only [memPut] at h; split at h <;> simp_all
  | cons d m ih =>
    obtain ⟨a, b⟩ := d
    simp only [memPut] at h
    split at h
    · split at h
      · exact .inl (List.mem_cons_of_mem _ h)
      · rcases List.mem_cons.mp h with rfl | h
        · exact .inr rfl
        · exact .inl (List.mem_cons_of_mem _ h)
    · split at h
      · split at h
        · exact .inl h
        · rcases List.mem_cons.mp h with rfl | h
          · exact .inr rfl
          · exact .inl h
      · rcases List.mem_cons.mp h with rfl | h
        · exact .inl List.mem_cons_self
        · exact (ih h).imp (List.mem_cons_of_mem _) id

/-- A store of one byte keeps the canonical form. -/
theorem memPut_wf (m : List Host.Cell) (x : Nat) (v : Byte) (h : Memory.wf m = true) :
    Memory.wf (memPut m x v) = true := by
  induction m with
  | nil => simp only [memPut]; split <;> simp_all [Memory.wf]
  | cons d m ih =>
    obtain ⟨a, b⟩ := d
    obtain ⟨hb, hm, hw⟩ := (Memory.wf_cons a b m).mp h
    simp only [memPut]
    split
    · rename_i e
      split
      · exact hw
      · rename_i hv
        exact (Memory.wf_cons x v m).mpr ⟨hv, e ▸ hm, hw⟩
    · split
      · rename_i hx
        split
        · exact h
        · rename_i hv
          refine (Memory.wf_cons x v _).mpr ⟨hv, ?_, h⟩
          intro c hc
          rcases List.mem_cons.mp hc with rfl | hc
          · exact hx
          · exact Nat.lt_trans hx (hm c hc)
      · refine (Memory.wf_cons a b _).mpr ⟨hb, ?_, ih hw⟩
        intro c hc
        rcases mem_memPut m x v c hc with hc | hc
        · exact hm c hc
        · omega

/-- An address below every entry reads as zero. -/
theorem memGet_below (m : List Host.Cell) (x : Nat) (h : ∀ c ∈ m, x < c.1) : memGet m x = 0 := by
  cases m with
  | nil => rfl
  | cons d m =>
    have := h d List.mem_cons_self
    obtain ⟨a, b⟩ := d
    simp only [memGet]
    split
    · omega
    · rfl

/-- A word is made of its four bytes. -/
theorem bytes_word (v : Word) : (v.extractLsb' 24 8 ++ v.extractLsb' 16 8 ++ v.extractLsb' 8 8 ++
    v.extractLsb' 0 8).setWidth 32 = v := by
  apply BitVec.eq_of_getLsbD_eq
  intro i hi
  rw [BitVec.getLsbD_setWidth]
  simp only [BitVec.getLsbD_append, BitVec.getLsbD_extractLsb']
  interval_cases i <;> simp

/-- A read after a store. -/
theorem memGet_memPut (m : List Host.Cell) (x y : Nat) (v : Byte) (h : Memory.wf m = true) :
    memGet (memPut m x v) y = if y = x then v else memGet m y := by
  induction m with
  | nil =>
    simp only [memPut]
    split <;> simp only [memGet] <;> (repeat' split) <;> simp_all
  | cons d m ih =>
    obtain ⟨a, b⟩ := d
    obtain ⟨hb, hm, hw⟩ := (Memory.wf_cons a b m).mp h
    simp only [memPut]
    split
    · rename_i e
      subst e
      by_cases hv : v = 0
      · rw [if_pos hv]
        by_cases hy : y = a
        · subst hy; rw [if_pos rfl, memGet_below m y hm, hv]
        · rw [if_neg hy]
          simp only [memGet, if_neg (Ne.symm hy)]
          by_cases hl : y < a
          · rw [if_pos hl]; exact memGet_below m y fun c hc => Nat.lt_trans hl (hm c hc)
          · rw [if_neg hl]
      · rw [if_neg hv]; simp only [memGet]
        by_cases hy : y = a
        · subst hy; rw [if_pos rfl, if_pos rfl]
        · rw [if_neg (Ne.symm hy), if_neg (Ne.symm hy), if_neg hy]
    · rename_i hne
      split
      · rename_i hx
        by_cases hv : v = 0
        · rw [if_pos hv]
          by_cases hy : y = x
          · subst hy; simp only [memGet, if_neg hne, if_pos hx, if_true, hv]
          · rw [if_neg hy]
        · rw [if_neg hv]; simp only [memGet]
          by_cases hy : y = x
          · subst hy; rw [if_pos rfl, if_pos rfl]
          · rw [if_neg (Ne.symm hy), if_neg hy]
            by_cases hl : y < x
            · rw [if_pos hl, if_neg (by omega), if_pos (by omega)]
            · rw [if_neg hl]
      · simp only [memGet, ih hw]
        (repeat' split) <;> first | rfl | omega

/-- A store of one word keeps the canonical form. -/
theorem bulkPut_wf (m : List Host.Cell) (w : Nat) (v : Word) (h : Memory.wf m = true) :
    Memory.wf (bulkPut m w v) = true :=
  memPut_wf _ _ _ (memPut_wf _ _ _ (memPut_wf _ _ _ (memPut_wf _ _ _ h)))

/-- A word read back after its store. -/
theorem bulkGet_bulkPut (m : List Host.Cell) (w u : Nat) (v : Word) (h : Memory.wf m = true) :
    bulkGet (bulkPut m w v) u = if u = w then v else bulkGet m u := by
  have h1 := memPut_wf m (4 * w) (v.extractLsb' 24 8) h
  have h2 := memPut_wf _ (4 * w + 1) (v.extractLsb' 16 8) h1
  have h3 := memPut_wf _ (4 * w + 2) (v.extractLsb' 8 8) h2
  by_cases e : u = w
  · subst e
    simp only [bulkGet, bulkPut, memGet_memPut _ _ _ _ h3, memGet_memPut _ _ _ _ h2, memGet_memPut _ _ _ _ h1,
      memGet_memPut _ _ _ _ h, if_true]
    simp only [show 4 * u ≠ 4 * u + 3 by omega, show 4 * u ≠ 4 * u + 2 by omega, show 4 * u ≠ 4 * u + 1 by omega,
      show 4 * u + 1 ≠ 4 * u + 3 by omega, show 4 * u + 1 ≠ 4 * u + 2 by omega,
      show 4 * u + 2 ≠ 4 * u + 3 by omega, if_false]
    exact bytes_word v
  · simp only [bulkGet, bulkPut, memGet_memPut _ _ _ _ h3, memGet_memPut _ _ _ _ h2, memGet_memPut _ _ _ _ h1,
      memGet_memPut _ _ _ _ h, if_neg e]
    have hne : ∀ i j, i < 4 → j < 4 → 4 * u + i ≠ 4 * w + j := fun i j hi hj => by omega
    have h00 := hne 0 0; have h01 := hne 0 1; have h02 := hne 0 2; have h03 := hne 0 3
    have h10 := hne 1 0; have h11 := hne 1 1; have h12 := hne 1 2; have h13 := hne 1 3
    have h20 := hne 2 0; have h21 := hne 2 1; have h22 := hne 2 2; have h23 := hne 2 3
    have h30 := hne 3 0; have h31 := hne 3 1; have h32 := hne 3 2; have h33 := hne 3 3
    simp_all

/-- A store of words keeps the canonical form. -/
theorem bulkWrite_wf (m : List Host.Cell) (w : Nat) (vs : List Word) (h : Memory.wf m = true) :
    Memory.wf (bulkWrite m w vs) = true := by
  induction vs generalizing m w with
  | nil => exact h
  | cons v vs ih => exact ih _ _ (bulkPut_wf m w v h)

/-- A store of words leaves the words outside it alone. -/
theorem bulkGet_bulkWrite_other (m : List Host.Cell) (w u : Nat) (vs : List Word) (h : Memory.wf m = true)
    (hu : u < w ∨ w + vs.length ≤ u) : bulkGet (bulkWrite m w vs) u = bulkGet m u := by
  induction vs generalizing m w with
  | nil => rfl
  | cons v vs ih =>
    simp only [List.length_cons] at hu
    rw [bulkWrite, ih _ _ (bulkPut_wf m w v h) (by omega), bulkGet_bulkPut m w u v h, if_neg (by omega)]

/-- Words read back after their store. -/
theorem bulkRead_bulkWrite (m : List Host.Cell) (w : Nat) (vs : List Word) (h : Memory.wf m = true) :
    bulkRead (bulkWrite m w vs) w vs.length = vs := by
  induction vs generalizing m w with
  | nil => rfl
  | cons v vs ih =>
    have := ih (bulkPut m w v) (w + 1) (bulkPut_wf m w v h)
    simp only [bulkRead, List.length_cons, List.range_succ_eq_map, List.map_cons, List.map_map, bulkWrite] at this ⊢
    congr 1
    · rw [bulkGet_bulkWrite_other _ _ _ _ (bulkPut_wf m w v h) (by omega), Nat.add_zero, bulkGet_bulkPut m w w v h,
        if_pos rfl]
    · refine Eq.trans ?_ this
      apply List.map_congr_left
      intro i _
      simp only [Function.comp_apply, Nat.succ_eq_add_one]
      congr 1
      omega

/-- A store of bytes keeps the canonical form. -/
theorem putBytes_wf (m : List Host.Cell) (a : Nat) (bs : List Byte) (h : Memory.wf m = true) :
    Memory.wf (putBytes m a bs) = true := by
  induction bs generalizing m a with
  | nil => exact h
  | cons b bs ih => exact ih _ _ (memPut_wf m a b h)

/-- Leaving entries out keeps the canonical form. -/
theorem filter_wf (m : List Host.Cell) (f : Host.Cell → Bool) (h : Memory.wf m = true) :
    Memory.wf (m.filter f) = true := by
  induction m with
  | nil => rfl
  | cons d m ih =>
    obtain ⟨a, b⟩ := d
    obtain ⟨hb, hm, hw⟩ := (Memory.wf_cons a b m).mp h
    rw [List.filter_cons]
    split
    · exact (Memory.wf_cons a b _).mpr ⟨hb, fun c hc => hm c (List.mem_of_mem_filter hc), ih hw⟩
    · exact ih hw

/-- The reset memory is in the canonical form. -/
theorem reset_bulk_wf : Memory.wf State.reset.bulk = true := rfl

/-- Stores of the commands keep the canonical form. -/
theorem putBulk_wf (off : Nat) (ws : List Word) (s : State) (h : Memory.wf s.bulk = true) :
    Memory.wf (putBulk off ws s).bulk = true := bulkWrite_wf _ _ _ h

/-- The loss of bulk memory keeps the canonical form. -/
theorem lostBulk_wf (upper : Bool) (s : State) (h : Memory.wf s.bulk = true) :
    Memory.wf (lostBulk upper s).bulk = true := filter_wf _ _ h

end Sys2Proof.Machine
end

