-- ==== Sys2Proof/Machine/Encoder.lean ====
section
/-! DEFINITION. The transmit FEC encoder (R183 to R189): the information bits of a superframe, the outer BCH code, the inner code
with its coupling, and the coded bits as they go to the mapper. -/

namespace Sys2Proof.Machine

/-! ### GF(2^16) (R187) -/

/-- Product with α under x^16 + x^5 + x^3 + x^2 + 1. -/
def gfDouble (a : Nat) : Nat := if a < 32768 then 2 * a else (2 * a % 65536) ^^^ 0x2D

/-- Product of two field elements from `n` bits of the second. -/
def gfMulBits : Nat → Nat → Nat → Nat
  | 0, _, _ => 0
  | n + 1, a, b => (if b % 2 = 1 then a else 0) ^^^ gfMulBits n (gfDouble a) (b / 2)

/-- Product of two field elements. -/
def gfMul (a b : Nat) : Nat := gfMulBits 16 a b

/-- α to a power. -/
def gfPow : Nat → Nat
  | 0 => 1
  | n + 1 => gfDouble (gfPow n)

/-- The conjugates a, a^2, a^4 and so on of a field element, up to the first that is `stop`. -/
def conjugates (stop : Nat) : Nat → Nat → List Nat
  | 0, _ => []
  | n + 1, a =>
    let b := gfMul a a
    a :: (if b = stop then [] else conjugates stop n b)

/-- Product of a polynomial over the field, lowest coefficient first, with x + c. -/
def timesRoot (l : List Nat) (c : Nat) : List Nat :=
  List.zipWith (fun a b => a ^^^ b) (0 :: l) (l.map (gfMul c) ++ [0])

/-- A number whose bit i is coefficient i of a polynomial with coefficients 0 and 1. -/
def polyNat (l : List Nat) : Nat := l.foldr (fun c v => 2 * v + c) 0

/-- Minimal polynomial of α to the power `i`. -/
def minPoly (i : Nat) : Nat := polyNat ((conjugates (gfPow i) 16 (gfPow i)).foldl timesRoot [1])

/-- Product of polynomials over GF(2), from `n` coefficients of the second. -/
def polyMul : Nat → Nat → Nat → Nat
  | 0, _, _ => 0
  | n + 1, a, b => (if b % 2 = 1 then a else 0) ^^^ polyMul n (2 * a) (b / 2)

/-- The generator for `t` errors: the least common multiple of the minimal polynomials of α^1, α^3 to α^(2t−1), which is the
product of the distinct ones. -/
def bchGen (t : Nat) : Nat := (((List.range t).map fun i => minPoly (2 * i + 1)).eraseDups).foldl (polyMul 17) 1

/-! ### The outer code (R185, R187) -/

/-- Remainder of a polynomial after a generator of degree `deg`, its bits given from the most significant coefficient. -/
def polyRem (gen deg : Nat) (l : List Bool) : Nat :=
  l.foldl (fun r b =>
    let v := 2 * r + b2n b
    if v / 2 ^ deg % 2 = 1 then v ^^^ gen else v) 0

/-- The `n` low bits of a number, the most significant first. -/
def msbBits (n v : Nat) : List Bool := ((List.range n).map fun i => v.testBit i).reverse

/-- An outer codeword: the information bits, then 16t parity bits. -/
def outerWord (t : Nat) (info : List Bool) : List Bool :=
  info ++ msbBits (16 * t) (polyRem (bchGen t) (16 * t) (info ++ List.replicate (16 * t) false))

/-- A word, possibly shortened, belongs to the outer code. -/
def isOuterWord (t : Nat) (l : List Bool) : Bool := polyRem (bchGen t) (16 * t) l == 0

/-- What the outer decoder makes of a word that differs from a codeword in at most t bits: that codeword. -/
def IsOuterDecoded (t : Nat) (received decoded : List Bool) : Prop :=
  isOuterWord t decoded = true ∧ decoded.length = received.length ∧
    ((List.zip received decoded).filter fun x => x.1 != x.2).length ≤ t

/-- Outer codewords of 10,240 information bits each; the last one takes what remains. -/
def outerWords (t : Nat) : Nat → List Bool → List Bool
  | 0, _ => []
  | k + 1, l => outerWord t (l.take 10240) ++ outerWords t k (l.drop 10240)

/-- The inner information bits of a superframe from its information bits (R185); where 16t or fewer bits remain for the last
codeword they are zeros. -/
def outerStream (d : Word) (info : List Bool) : List Bool :=
  match outerCode (dFec d) with
  | none => info
  | some (_, par) => (outerWords (par / 16) (outerCodewords d) info).take (innerInfo d)

/-! ### The inner code (R184, R186) -/

/-- Information bit `x` of codeword `j`: the shortened bits of the partial codeword are 0. -/
def codeInfo (d : Word) (inner : List Bool) (j x : Nat) : Bool :=
  let k := innerK (dFec d)
  let n := codedBits d / 4096
  if j < n then inner.getD (k * j + x) false
  else if x < k - partialInfo d then false
  else inner.getD (k * n + (x - (k - partialInfo d))) false

/-- Information bits of the codeword `back` before `j`; all 0 below index 0. -/
def coupledInfo (d : Word) (inner : List Bool) (j back x : Nat) : Bool :=
  decide (back ≤ j) && codeInfo d inner (j - back) x

/-- Bit `x` of codeword `j`: information bits, then parity bits. -/
def codeBit (d : Word) (inner : List Bool) (j x : Nat) : Bool :=
  let k := innerK (dFec d)
  if x < k then codeInfo d inner j x
  else innerParity (dFec d) (codeInfo d inner j) (coupledInfo d inner j 64) (coupledInfo d inner j 128) (x - k)

/-! ### The information bits of a superframe (R44, R189, R276 to R278) -/

/-- The bits of a SFOH as sent. -/
def sfohBits (w : Vector Word 64) : List Bool := w.toList.flatMap fun x => msbBits 32 x.toNat

/-- The bits of a container. -/
def containerBits (rate : Nat) (cells : List (BitVec 257)) : List Bool :=
  (List.range (nCell rate)).flatMap fun j => msbBits 257 (cellAt cells j).toNat

/-- The payload bits of a superframe before scrambling: the containers of the slots that the format carries, then span fill. -/
def payloadOf (d : Word) (pl : Payload) : List Bool :=
  let l := ((List.finRange 16).filter fun i => decide (i.val < slotsCarried d)).flatMap fun i => containerBits (dRate d) pl[i]
  l ++ List.replicate (payloadBits d - l.length) false

/-- The information bits of a superframe: its SFOH, then its scrambled payload. -/
def superframeInfo (d : Word) (sfoh : Vector Word 64) (pl : Payload) : List Bool := sfohBits sfoh ++ scramble (payloadOf d pl)

/-- The coded bits of a superframe in the order in which they go to the mapper (R160, R188). -/
def encoded (d : Word) (sfoh : Vector Word 64) (pl : Payload) : List Bool :=
  sentBits (codedStream d (codeBit d (outerStream d (superframeInfo d sfoh pl))))

end Sys2Proof.Machine
end

