-- ==== Sys2Proof/Machine/Signal.lean ====
section
/-! DEFINITION. The signals of the line DSP as functions of what enters a stage (R159): the symbols of a superframe (R39 to R42,
R160 to R166), pulse shaping, linearisation, pre-emphasis and DAC codes (R169 to R172), the lane map and the resampler (R105),
the likelihoods (R125), and the terms of Complication (R136, R143 to R148). No register shows a sample, so none stands in
State (DESIGN CHOICE, notes/assumptions 126). -/

namespace Sys2Proof.Machine

/-! ### Complex samples -/

/-- A complex sample with exact parts. -/
structure Cx where
  re : Rat
  im : Rat
deriving DecidableEq, Repr

namespace Cx

/-- The zero sample. -/
def zero : Cx := ⟨0, 0⟩
/-- Sum. -/
def add (a b : Cx) : Cx := ⟨a.re + b.re, a.im + b.im⟩
/-- Difference. -/
def sub (a b : Cx) : Cx := ⟨a.re - b.re, a.im - b.im⟩
/-- Product. -/
def mul (a b : Cx) : Cx := ⟨a.re * b.re - a.im * b.im, a.re * b.im + a.im * b.re⟩
/-- Conjugate. -/
def conj (a : Cx) : Cx := ⟨a.re, -a.im⟩
/-- Product with a real number. -/
def scale (r : Rat) (a : Cx) : Cx := ⟨r * a.re, r * a.im⟩
/-- Squared magnitude. -/
def power (a : Cx) : Rat := a.re * a.re + a.im * a.im
/-- Sum of a list. -/
def sum (l : List Cx) : Cx := l.foldl add zero

end Cx

/-- Sum of a list of numbers. -/
def ratSum (l : List Rat) : Rat := l.foldl (· + ·) 0

/-! ### Pilots and the alignment word as symbols (R40, R42, R166) -/

/-- The pilot amplitude A_p in the units of R160. -/
def pilotAmp : Rat := 1122 / 1000

/-- 1 − 2b. -/
def bitSign (b : Bool) : Rat := if b then -1 else 1

/-- √2 times pilot `b` of a frame (R40). -/
def pilotSymbol (y : Bool) (b : Nat) : Cx :=
  ⟨bitSign (pilot y b).1 * pilotAmp, bitSign (pilot y b).2 * pilotAmp⟩

/-- √2 times symbol 1 + `n` of the alignment word (R42). -/
def alignSymbol (y : Bool) (n : Nat) : Cx := ⟨bitSign (alignBit y n) * pilotAmp, bitSign (alignBit y n) * pilotAmp⟩

/-- What a symbol of a superframe is. -/
inductive SymKind where
  | pilot (block : Nat)
  | align (n : Nat)
  | data (k : Nat)
deriving DecidableEq, Repr

/-- Symbol `i` of a superframe (R39 to R42): the pilot of its block, a symbol of the alignment word, or the k-th data symbol. -/
def symKind (i : Nat) : SymKind :=
  if i % 64 = 0 then .pilot (i % 4096 / 64)
  else if i < 32 then .align (i - 1)
  else .data (i - (i / 64 + 1) - 31)

/-! ### Data symbols (R160 to R164) -/

/-- A number from its bits, the first most significant. -/
def bitsNat (l : List Bool) : Nat := l.foldl (fun a b => 2 * a + b2n b) 0

/-- A data-symbol pair before scaling: (XI, XQ) and (YI, YQ). -/
abbrev SymPair := (Int × Int) × (Int × Int)

/-- The pairs of a uniform format (R160, R161): m bits for X, then m bits for Y. -/
def uniformPairs (mod_ m : Nat) : Nat → List Bool → List SymPair
  | 0, _ => []
  | n + 1, l =>
    (uniformPoint mod_ (bitsNat (l.take m)), uniformPoint mod_ (bitsNat ((l.drop m).take m))) ::
      uniformPairs mod_ m n (l.drop (2 * m))

/-- Levels from amplitudes and sign bits; 1 is positive (R162). -/
def signLevels (amps : List Nat) (signs : List Bool) : List Int :=
  List.zipWith (fun a b => level2 b * (a : Int)) amps signs

/-- The levels of a shaped block of code `e` with composition `n` (R163): the first 4e bits choose the amplitudes, and the next
512 are their signs. -/
def shapedBlock (e : Nat) (n : Nat × Nat × Nat × Nat) (bits : List Bool) : List Int :=
  signLevels (matchSeq 512 n (bitsNat (bits.take (4 * e)))) ((bits.drop (4 * e)).take 512)

/-- Four levels a pair, in the order XI, XQ, YI, YQ (R160). -/
def pairLevels : List Int → List SymPair
  | a :: b :: c :: d :: l => ((a, b), (c, d)) :: pairLevels l
  | _ => []

/-- The levels of the tail of a shaped superframe: 97 pairs of sign bits at amplitude 1 (R164). -/
def tailLevels (bits : List Bool) : List Int := signLevels (List.replicate 388 1) bits

/-- The levels of `blocks` shaped blocks and of the tail after them. -/
def shapedLevels (e : Nat) (n : Nat × Nat × Nat × Nat) : Nat → List Bool → List Int
  | 0, l => tailLevels (l.take 388)
  | k + 1, l => shapedBlock e n (l.take (512 + 4 * e)) ++ shapedLevels e n k (l.drop (512 + 4 * e))

/-- The data-symbol pairs of a superframe from its coded bits in the order in which the encoder delivers them; `n` is the
composition of the format's code, of which `IsComposition` says which one it is. -/
def dataPairs (d : Word) (n : Nat × Nat × Nat × Nat) (bits : List Bool) : List SymPair :=
  match uniformBits (dMod d) with
  | some m => uniformPairs (dMod d) m dataSymbols bits
  | none => pairLevels (shapedLevels (dEnt d) n 8063 bits)

/-- Mean power of the data symbols of a polarisation before scaling (R160): a symbol sent is its point over the square root of
this. -/
def meanPower (d : Word) (n : Nat × Nat × Nat × Nat) : Rat :=
  match dMod d with
  | 0 => ((8063 * 128 * 2 * compEnergy n : Nat) : Rat) / ((512 * dataSymbols : Nat) : Rat) + ((97 * 2 : Nat) : Rat) / (dataSymbols : Nat)
  | 2 => 6
  | 3 => 10
  | 4 => 20
  | _ => 2

/-- A symbol as sent: its point, and the mean power by whose square root it is divided. -/
structure SentSym where
  point : Cx
  power : Rat
deriving DecidableEq, Repr

/-- A point of two integer levels. -/
def pointOf (a : Int × Int) : Cx := ⟨a.1, a.2⟩

/-- Symbol `i` of a superframe on a polarisation (R39 to R42, R159): pilots and the alignment word at A_p, data symbols at unit
mean power. -/
def symbolAt (d : Word) (n : Nat × Nat × Nat × Nat) (pairs : List SymPair) (y : Bool) (i : Nat) : SentSym :=
  match symKind i with
  | .pilot b => ⟨pilotSymbol y b, 2⟩
  | .align k => ⟨alignSymbol y k, 2⟩
  | .data k =>
    let c := pairs.getD k ((0, 0), (0, 0))
    ⟨pointOf (if y then c.2 else c.1), meanPower d n⟩

/-- Symbol `i` of the superframe that a SFOH and a payload make in a format (R159, R183). -/
def superframeSymbol (d : Word) (n : Nat × Nat × Nat × Nat) (sfoh : Vector Word 64) (pl : Payload) (y : Bool) (i : Nat) : SentSym :=
  symbolAt d n (dataPairs d n (encoded d sfoh pl)) y i

/-! ### Pulse shaping (R169) -/

/-- The squared response of a root-raised-cosine filter of roll-off β at frequency `f` in units of the symbol rate. -/
def IsRootRaisedCosine (beta : ℝ) (sq : ℝ → ℝ) : Prop :=
  ∀ f : ℝ, sq f =
    if 2 * |f| ≤ 1 - beta then 1
    else if 2 * |f| ≤ 1 + beta then (1 + Real.cos (Real.pi / beta * (|f| - (1 - beta) / 2))) / 2
    else 0

/-- Squared response of a filter of taps at 2 samples per symbol, at frequency `f` in units of the symbol rate. -/
def HasPower (taps : List ℝ) (f pw : ℝ) : Prop :=
  pw = (taps.zipIdx.map fun t => t.1 * Real.cos (Real.pi * f * t.2)).sum ^ 2 +
    (taps.zipIdx.map fun t => t.1 * Real.sin (Real.pi * f * t.2)).sum ^ 2

/-- The pulse-shaping filter of a port at B GBd and roll-off β: 256 symbols of 2 samples, and at least 40 dB down beyond
B (1 + β) / 2 + 1 GHz from the centre. -/
def IsShapingFilter (B beta : ℝ) (taps : List ℝ) : Prop :=
  taps.length = 512 ∧
    ∀ f pass stop : ℝ, B * (1 + beta) / 2 + 1 < |f| → |f| ≤ B → HasPower taps 0 pass → HasPower taps (f / B) stop →
      stop * 10000 ≤ pass

/-- Sample `k` of a FIR filter over a real stream. -/
def firAt (taps : List Rat) (x : Int → Rat) (k : Int) : Rat := ratSum (taps.zipIdx.map fun t => t.1 * x (k - (t.2 : Int)))

/-- A stream of symbols at 2 samples per symbol: a symbol, then zero. -/
def upTwo (x : Int → Rat) (k : Int) : Rat := if k % 2 = 0 then x (k / 2) else 0

/-- The shaped stream of one dimension, at 2 samples per symbol. -/
def shaped (taps : List Rat) (x : Int → Rat) (k : Int) : Rat := firAt taps (upTwo x) k

/-- Output `k` of a polyphase interpolator that reads its input `num` samples for every `den` it gives: `phases` phases of taps
from `coef` (R105, R169). -/
def interpolate (coef : Nat → List Rat) (phases : Nat) (num den : Nat) (x : Int → Rat) (k : Int) : Rat :=
  let pos := k * (num * phases : Nat) / (den : Int)
  firAt (coef (pos % (phases : Int)).toNat) x (pos / (phases : Int))

/-! ### Linearisation, pre-emphasis and DAC codes (R170 to R172, R177) -/

/-- Coefficient c(2q+1),m of lane `l`: 12 fractional bits. -/
def linCoef (lin : List (BitVec 16)) (l q m : Nat) : Rat := ((lin.getD (15 * l + 5 * q + m) 0).toInt : Rat) / 4096

/-- The output of a lane's linearisation (R170). -/
def linearised (lin : List (BitVec 16)) (l : Nat) (x : Int → Rat) (k : Int) : Rat :=
  ratSum ((List.range 5).map fun (m : Nat) =>
    let v := x (k - (m : Int))
    linCoef lin l 0 m * v + linCoef lin l 1 m * v ^ 3 + linCoef lin l 2 m * v ^ 5)

/-- The 33 pre-emphasis taps of lane `l`: 14 fractional bits. -/
def preTaps (pre : List (BitVec 16)) (l : Nat) : List Rat :=
  (List.range 33).map fun t => ((pre.getD (33 * l + t) 0).toInt : Rat) / 16384

/-- The output of a lane's pre-emphasis, centred on tap 16 (R171). -/
def preEmphasised (pre : List (BitVec 16)) (l : Nat) (x : Int → Rat) (k : Int) : Rat := firAt (preTaps pre l) x (k + 16)

/-- The DAC code of a lane sample in full-scale units, with the digital gain as a factor (R172): code 128 stands for 0 and a
step is 1/128. (DEDUCED, notes/assumptions 151) -/
def laneCode (gain v : Rat) : Nat := dacCode (128 + (gain * v * 128).floor)

/-! ### Lane map and resampler (R74, R105) -/

/-- Lanes XI, XQ, YI, YQ. -/
abbrev Lanes := Vector Rat 4

/-- The lane map of LINE_RX_CONFIG word 2: marked lanes are inverted, then I and Q of a marked polarisation are exchanged. -/
def mapLanes (w : Word) (x : Lanes) : Lanes :=
  let v := fun (i : Fin 4) => if bit w (7 - i.val) then -x[i] else x[i]
  let sx := bit w 1
  let sy := bit w 0
  #v[if sx then v 1 else v 0, if sx then v 0 else v 1, if sy then v 3 else v 2, if sy then v 2 else v 3]

/-- Taps of a phase of the resampler: 32 of them (the manual gives no values). -/
def resampleTaps (phase : Nat) : List Rat := (List.range 32).map fun t => Config.resampleTap phase t

/-- Output sample of the resampler for one lane: the ADC sample at which it stands and the phase, of 1,024, come from the timing
recovery of stage 7. -/
def resampled (phase : Fin 1024) (x : Int → Rat) (at_ : Int) : Rat := firAt (resampleTaps phase.val) x at_

/-- One sample of the four lanes after stage 3 of a port. -/
def stage3 (s : State) (p : LPort) (phase : Fin 1024) (x : Int → Lanes) (at_ : Int) : Lanes :=
  Vector.ofFn fun i => resampled phase (fun k => (mapLanes s.ports[p].rx.cfg[1] (x k))[i]) at_

/-! ### Likelihoods (R125) -/

/-- `pr` is the prior of a level in a dimension of PCS-64QAM: Maxwell-Boltzmann over the eight levels, with half of the entropy
H = `e64` / 64 of the two dimensions. -/
def IsShapedPrior (e64 : Nat) (pr : Int → ℝ) : Prop :=
  let levels : List Int := [-7, -5, -3, -1, 1, 3, 5, 7]
  (∃ lam z : ℝ, 0 ≤ lam ∧ ∀ a ∈ levels, pr a = z * Real.exp (-lam * (a : ℝ) ^ 2)) ∧
    (levels.map pr).sum = 1 ∧
    -(levels.map fun a => pr a * Real.log (pr a)).sum = (e64 : ℝ) / 128 * Real.log 2

/-- `pr` is the prior of a point: uniform, or that of its two levels. -/
def IsPrior (d : Word) (pr : Int × Int → ℝ) : Prop :=
  if dMod d = 0 then ∃ f : Int → ℝ, IsShapedPrior (entropy64 d) f ∧ ∀ x, pr x = f x.1 * f x.2
  else ∀ x y, pr x = pr y

/-- Noise variance of a polarisation at unit signal power, from its SNR in 0.01 dB. -/
def IsNoise (snr : Nat) (v : ℝ) : Prop := 0 < v ∧ Real.log v = -(snr : ℝ) / 1000 * Real.log 10

/-- Weight of the points of a list given the received sample `y`: the mean power `scale2` brings points to unit power. -/
def HasWeight (pr : Int × Int → ℝ) (scale2 noise : ℝ) (y : ℝ × ℝ) (l : List (Int × Int)) (w : ℝ) : Prop :=
  w = (l.map fun x => pr x * Real.exp (-((y.1 - (x.1 : ℝ) / Real.sqrt scale2) ^ 2 + (y.2 - (x.2 : ℝ) / Real.sqrt scale2) ^ 2) / noise)).sum

/-- `llr` is the log-likelihood ratio of a bit, positive for 0: `zeros` and `ones` are the points where it is 0 and 1. -/
def IsLlr (pr : Int × Int → ℝ) (scale2 noise : ℝ) (y : ℝ × ℝ) (zeros ones : List (Int × Int)) (llr : ℝ) : Prop :=
  ∃ w0 w1 : ℝ, HasWeight pr scale2 noise y zeros w0 ∧ HasWeight pr scale2 noise y ones w1 ∧ llr = Real.log w0 - Real.log w1

/-- The points of a uniform format where label bit `b`, counted from the least significant, has a value. -/
def labelPoints (mod_ m b : Nat) (v : Bool) : List (Int × Int) :=
  ((List.range (2 ^ m)).filter fun l => (l / 2 ^ b % 2 == 1) == v).map (uniformPoint mod_)

/-! ### Complication (R136, R143 to R148) -/

/-- The field of a group: member, polarisation (true is Y) and sample; members already aligned under R141. -/
abbrev Field := LPort → Bool → Int → Cx

/-- A signed byte. -/
def sbyte (v : Nat) : Int := (BitVec.ofNat 8 v).toInt

/-- A coefficient word: real and imaginary parts with 15 fractional bits (R145). -/
def coefOf (w : Word) : Cx :=
  ⟨((BitVec.ofNat 16 (fld w 31 16)).toInt : Rat) / 32768, ((BitVec.ofNat 16 (fld w 15 0)).toInt : Rat) / 32768⟩

/-- Place of a port among the members of a set. -/
def memberRank (w0 : Word) (p : LPort) : Nat := (allPorts.filter fun q => bit w0 (20 + q.val) && decide (q.val < p.val)).length

/-- The self terms of port `p` in a set: M, P and C_self (R145). -/
def selfTerms (ws : List Word) (p : LPort) : List (Int × Int × Cx) :=
  let w := fun i => ws.getD i 0
  let n := fld (w 0) 15 8
  (List.range n).map fun i =>
    let a := w (8 + 2 * (n * memberRank (w 0) p + i))
    (sbyte (fld a 31 24), sbyte (fld a 23 16), coefOf (w (9 + 2 * (n * memberRank (w 0) p + i))))

/-- The cross terms of port `p` with member `j` in a set: d and C_cross (R145). -/
def crossTerms (ws : List Word) (p j : LPort) : List (Int × Cx) :=
  let w := fun i => ws.getD i 0
  let m := maskMembers (w 0)
  let n := fld (w 0) 7 0
  let pair := memberRank (w 0) p * (m - 1) + (memberRank (w 0) j - if p.val < j.val then 1 else 0)
  let first := 8 + 2 * fld (w 0) 15 8 * m + n * pair
  (List.range n).map fun (e : Nat) => ((e : Int) - ((n - 1) / 2 : Nat), coefOf (w (first + e)))

/-- The self terms on sample `k` of a polarisation of port `p` (R136): two samples of one polarisation and their conjugate
product, over both polarisations. (DEDUCED, notes/assumptions 150) -/
def selfSum (ws : List Word) (p : LPort) (a : Field) (y : Bool) (k : Int) : Cx :=
  Cx.sum ((selfTerms ws p).map fun t =>
    let pairs := Cx.sum ([false, true].map fun q => Cx.mul (a p q (k + t.2.1)) (Cx.conj (a p q (k + t.1 + t.2.1))))
    Cx.mul t.2.2 (Cx.mul (a p y (k + t.1)) pairs))

/-- The cross terms of member `j` on sample `k` of port `p` (R136): the intensity of `j` over both polarisations. -/
def crossSum (ws : List Word) (p j : LPort) (a : Field) (y : Bool) (k : Int) : Cx :=
  Cx.mul (Cx.sum ((crossTerms ws p j).map fun t => Cx.scale (Cx.power (a j false (k + t.1)) + Cx.power (a j true (k + t.1))) t.2))
    (a p y k)

/-- The part of g and α that a side applies (R148): g × α on the transmit side, g × (1 − α) on the receive side. -/
def sideShare (tx : Bool) (u : NlcUse) : Rat :=
  ((u.g.toNat : Nat) : Rat) / 64 * (if tx then ((u.share.toNat : Nat) : Rat) / 64 else 1 - ((u.share.toNat : Nat) : Rat) / 64)

/-- GAMMA_SCALE of a set (R145). -/
def gammaScale (ws : List Word) : Rat := ((fld (ws.getD 5 0) 31 16 : Nat) : Rat) / 4096

/-- Weight of a fade in superframe N + `i` (R146). -/
def fadeWeight (i : Nat) : Rat := ((i + 1 : Nat) : Rat) / 16

/-- Weight of member `j`'s terms for a side of port `p` (R142, R143, R146). -/
def memberWeight (s : State) (p j : LPort) (tx : Bool) : Rat :=
  let n := s.ports[p].nlc
  if j = p then 0
  else if tx then (if n.txMask.getLsbD j.val then 1 else 0)
  else if n.members[j].active then (match n.members[j].fade with
    | some i => fadeWeight i
    | none => 1)
  else 0

/-- The words of the set that a use of a side selects; none when the side is off or the slot is empty. -/
def setOf (s : State) (p : LPort) (tx : Bool) (u : NlcUse) : Option (List Word) :=
  if u.on then
    ((if tx then s.ports[p].nlc.txSets[u.set.toNat % 8]? else s.ports[p].nlc.rxSets[u.set.toNat % 8]?).bind id).map (·.words)
  else none

/-- What one use of a side subtracts from sample `k` of a polarisation (R136, R148). -/
def useTerms (s : State) (p : LPort) (tx : Bool) (a : Field) (y : Bool) (k : Int) (u : NlcUse) : Cx :=
  match setOf s p tx u with
  | none => Cx.zero
  | some ws => Cx.scale (gammaScale ws * sideShare tx u)
      (Cx.sum (selfSum ws p a y k :: allPorts.map fun j => Cx.scale (memberWeight s p j tx) (crossSum ws p j a y k)))

/-- The use in force of a side and its running fade (R146). -/
def sideOf (s : State) (p : LPort) (tx : Bool) : NlcUse × Option (NlcUse × Nat) :=
  let n := s.ports[p].nlc
  if tx then (n.tx, n.txFade) else (n.rx, n.rxFade)

/-- What a side subtracts: the use in force, cross-faded from the one before (R146). -/
def nlcTerms (s : State) (p : LPort) (tx : Bool) (a : Field) (y : Bool) (k : Int) : Cx :=
  let now := useTerms s p tx a y k (sideOf s p tx).1
  match (sideOf s p tx).2 with
  | none => now
  | some (old, i) => Cx.add (Cx.scale (1 - fadeWeight i) (useTerms s p tx a y k old)) (Cx.scale (fadeWeight i) now)

/-- A sample after receive stage 5 or after the pre-distortion of transmit stage 7: its terms are subtracted (R136). -/
def nlcOut (s : State) (p : LPort) (tx : Bool) (a : Field) (y : Bool) (k : Int) : Cx := Cx.sub (a p y k) (nlcTerms s p tx a y k)

end Sys2Proof.Machine
end

