-- ==== Sys2Proof/Tests/Slice0.lean ====
section
/-! SUPPORT. Small tests: results that the manual states, commands that are not well formed, and for every obligation
with hypotheses a state and operands that meet them. -/

section

-- one theorem after the other: each waiting proof would hold a thread of its own
set_option Elab.async false

open Sys2Proof Sys2Proof.Machine

namespace Slice

/-- The state after reset. -/
def r0 : State := State.reset

/-- A request on M0. -/
def rq (ps : List Word) : Req := { src := .chan (.m 0), tag := 1, stamp := { cls := 0, ident := 0x58, gen := 0 }, params := ps }

/-- The device in a state, with its firmware running. -/
def dev (d : DevState) : State := modSys (fun y => { y with dev := d, inReset := false, supRuns := true }) r0

/-- A port in a training state. -/
def inSt (p : LPort) (x : PortState) : State := modTr p (fun t => { t with state := x }) (dev .active)

/-- A packet with its CRC. -/
def packet (op : Nat) (ps : List Word) : List Word :=
  let ws := word [(31, 16, op), (15, 8, 1), (7, 0, ps.length)] :: ps
  ws ++ [crc32c ws]

/-- A configuration blob of packets. -/
def blob (ps : List (List Word)) : List Word :=
  let body := ps.flatten
  let ws := [0x56434601, 7, wd (body.length + 6), wd (ps.length * 65536)] ++ body
  ws ++ [crc32c ws, 0x434F4D54]

/-- A domain in a power state. -/
def pow (d : Dom) (x : PState) (s : State) : State := setDom d x s

end Slice

open Slice

/-! ### Hypotheses of the obligations are met -/

theorem met_reports : fld (0x94000000 : Word) 24 0 = 0 ∧ permNamed r0 0x94000000 = some 0x05555555 ∧
    pf (rq [0x0001FFCE]) 0 31 24 = 0 ∧ pf (rq [0x0001FFCE]) 0 23 0 + 50 = bulkWords := by decide +kernel

theorem met_permSet : fld (par (rq [0x94000000, 0x07FFFFFF]) 0) 24 0 = 0 ∧
    (permNamed r0 (par (rq [0x94000000, 0x07FFFFFF]) 0)).isSome ∧ fld (par (rq [0x94000000, 0x07FFFFFF]) 1) 31 27 = 0 := by
  decide +kernel

theorem met_sysReset : par (rq [0x00006400]) 0 = 0x00006400 ∧ ∀ c : Fin 6, unitHeld r0 (.core (resetCore c.val)) = false ∧
    restarting r0 (resetCore c.val) = false ∧ unitDown r0 (.core (resetCore c.val)) = false := by decide +kernel

/-- A blob with one PERM_SET, and its load from the last words of bulk memory. -/
def Slice.permBlob : List Word := blob [packet 9 [0x94000000, 0x05555575]]
def Slice.loaded : State := putBulk 131062 permBlob (dev .hold)

theorem met_configLoad : permBlob.length = 10 ∧ blobCheck (bulkRead loaded.bulk 131062 10) (some 10) =
      .ok [packet 9 [0x94000000, 0x05555575]] ∧ blobCheck (bulkRead (dev .ready).bulk 131062 10) (some 10) = .error 4 ∧
    loaded.sys.dev = .hold ∧ (dev .ready).sys.dev = .ready ∧ loaded.sys.blobRun = none ∧
    pf (rq [131062, 10]) 0 23 0 + (par (rq [131062, 10]) 1).toNat = bulkWords := by decide +kernel

/-- A pending configuration with one PERM_SET. -/
def Slice.readied : State := modSys (fun y => { y with
  pending := some { configId := 7, packets := [packet 9 [0x94000000, 0x05555575]], channel := 0 } }) (dev .hold)
/-- SUP at the point of the blob of the flash. -/
def Slice.booting : State := modSys (fun y => { y with phase := 4 }) (dev .boot)

theorem met_blobs : (readied.sys.pending.map (·.configId)) = some (par (rq [7]) 0) ∧
    pktOp (packet 9 [0x94000000, 0x05555575]) = 9 ∧
    pktParams (packet 9 [0x94000000, 0x05555575]) = [0x94000000, 0x05555575] ∧ permNamed readied 0x94000000 = some 0x05555555 ∧
    fld (0x05555575 : Word) 31 27 = 0 ∧ readied.sys.blobRun = none ∧ booting.sys.dev = .boot ∧ booting.sys.phase = 4 ∧
    booting.sys.resume = none ∧ booting.sys.slot ≠ 2 ∧ booting.sys.blobRun = none ∧ unitHeld booting .aon = false ∧
    blobCheck [0xFFFFFFFF] none = .error 8 ∧ blobCheck permBlob none = .ok [packet 9 [0x94000000, 0x05555575]] := by
  decide +kernel

theorem met_outputs : (dev .ready).sys.dev = .ready ∧ (dev .active).sys.dev = .active ∧
    (dev .degraded).sys.dev = .degraded ∧ (dev .hold).sys.dev ≠ .active ∧ (dev .hold).sys.dev ≠ .degraded := by decide +kernel

theorem met_power : Profile.deep.code = fld (par (rq [0xC0000000]) 0) 31 30 ∧ fld (par (rq [0xE0000000]) 0) 29 28 < Profile.deep.code ∧
    Profile.run.code = fld (par (rq [0]) 0) 31 30 ∧ r0.power.trans = none ∧ deviate r0 = false ∧
    deviate (pow (.ld 0) .idle r0) = true ∧ Profile.run = r0.power.profile ∧ Profile.deep ≠ r0.power.profile ∧
    PState.idle.code = fld (par (rq [0x40000001]) 0) 31 30 ∧ fld (par (rq [0x40000001]) 0) 18 0 ≠ 0 ∧
    movesTo r0 (fun d => if bit (0x40000010 : Word) (domBit d) then some .idle else none) ≠ [] ∧
    movesTo r0 (fun d => if bit (0x00000010 : Word) (domBit d) then some .on else none) = [] ∧
    fld (par (rq [0x8001FFC6]) 0) 30 24 = 0 ∧ fld (par (rq [0x0001FFC6]) 0) 23 0 + 58 = bulkWords ∧
    bit (par (rq [0x8001FFC6]) 0) 31 = true := by decide +kernel

/-- A block of zeros that ends in its CRC, at the end of bulk memory. -/
def Slice.zeros (n : Nat) : List Word := List.replicate n 0 ++ [crc32c (List.replicate n 0)]

set_option maxRecDepth 100000 in
theorem met_lineMode :
    let s := modPort 0 (fun x => { x with tr := { x.tr with state := .muted } }) (putBulk (131072 - 65) (zeros 64) r0)
    let m := rq [0x0EE00000]
    let t := rq [0x1F01FFBF]
    Claims.Awake 0x2001 m s ∧ pf m 0 29 28 = 0 ∧ pf m 0 16 0 = 0 ∧ pf m 0 26 17 = 880 ∧
    (∀ q ∈ rateApplies s 0, clockFits s.ports[q].front.sclk.toNat 880 = true) ∧
    (∀ q ∈ rateApplies s 0, s.ports[q].tr.state = .muted) ∧ bit (par m 0) 27 = true ∧ pf t 0 29 28 = 1 ∧
    pf t 0 23 0 + (16 * traceCount (par t 0) + 1) = bulkWords ∧ traceCount (par t 0) = 4 ∧
    blockCrc (bulkRead s.bulk (pf t 0 23 0) 65) = true ∧ pf (rq [0xC0000000]) 0 29 0 = 0 := by decide +kernel

theorem met_lineRx :
    let a := rq [0x000000FF, 0x23000000, 0, 0, 0, 0x1C000000, 0x08000000, 0x01000000, 0x14000000]
    let b := rq [0x00000070, 0, 0, 0, 0, 0x1C000000, 0x08000000, 0x01000000, 0]
    let s := inSt 0 .muted
    let t := inSt 0 .traffic
    firstFail (rxChecks a.params s) = none ∧ Claims.Awake 0x2003 a s ∧ pf a 1 31 20 = s.ports[(0 : LPort)].front.sclk.toNat ∧
    s.ports[pport a 0].tr.state = .muted ∧ firstFail (rxChecks b.params t) = none ∧ Claims.Awake 0x2003 b t ∧
    t.ports[pport b 0].tr.state = .traffic ∧ pf b 0 3 0 = 0 ∧ bit (par b 0) 7 = false ∧ pf b 0 6 4 ≠ 0 ∧
    poolFull t = false ∧ b.src ≠ .blob := by decide +kernel

/-- A LINE_RX_CONFIG in DOWN with a new sample clock alone. -/
theorem met_lineRxClock :
    let c := rq [0x00000001, 0x1E000000, 0, 0, 0, 0, 0, 0, 0]
    firstFail (rxChecks c.params r0) = none ∧ Claims.Awake 0x2003 c r0 ∧ r0.ports[pport c 0].tr.state = .down ∧
    par c 0 = word [(31, 30, (pport c 0).val), (0, 0, 1)] ∧ isOn r0 (.ld (pport c 0)) = true ∧
    pf c 1 31 20 ≠ (r0.ports[pport c 0].front.nextSclk.getD r0.ports[pport c 0].front.sclk).toNat := by decide +kernel

set_option maxRecDepth 100000 in
theorem met_lineTx :
    let a := rq [0x0000007F, 0x00400000, 0, 0, 0, 0, 0x8001FFC3, 0]
    let b := rq [0x00000060, 0, 0, 0, 0, 0, 0x8001FFC3, 0]
    let s := putBulk 131011 (zeros 60) (inSt 0 .muted)
    let t := putBulk 131011 (zeros 60) (inSt 0 .traffic)
    firstFail (txChecks a.params (txData a.params s)) = none ∧ Claims.Awake 0x2004 a s ∧ inService s (pport a 0) = false ∧
    s.ports[pport a 0].tr.state ≠ .traffic ∧ bit (par a 0) 5 = true ∧ bit (par a 6) 31 = true ∧ bit (par a 7) 31 = false ∧
    firstFail (txChecks b.params (txData b.params t)) = none ∧ Claims.Awake 0x2004 b t ∧ bit (par b 0) 0 = false ∧
    t.ports[pport b 0].tr.state = .traffic ∧ bit (par b 0) 5 = true ∧ poolFull t = false ∧ b.src ≠ .blob := by
  decide +kernel

theorem met_lineReports : pf (rq [0]) 0 29 24 = 0 ∧ isOn r0 (.ld 0) = true ∧ isOn (pow (.ld 0) .nap r0) (.ld 0) = false ∧
    pf (rq [0x0101FF04]) 0 29 24 = 1 ∧ pf (rq [0x0101FF04]) 0 23 0 + 252 = bulkWords ∧
    pf (rq [0x02000000]) 0 29 24 = 2 ∧ pf (rq [0xC3000000]) 0 29 24 = 3 ∧ pf (rq [0x0001FFDB]) 0 29 24 = 0 ∧
    pf (rq [0x0001FFDB]) 0 23 0 + 37 = bulkWords := by decide +kernel

/-- A set of one port with no terms: its head, the port's rate and centre, and the CRC. -/
def Slice.set0 : List Word :=
  let ws : List Word := [0x01100000, word [(31, 22, 760)], 0, 0, 0, 0, 0, 0]
  ws ++ [crc32c ws]

theorem met_lineNlc :
    let s := putBulk 131063 set0 (inSt 0 .muted)
    let t := modNlc 0 (fun n => { n with txSets := vset n.txSets 7 (some ⟨set0⟩), rxSets := vset n.rxSets 7 (some ⟨set0⟩) }) s
    let ok := fun (ps : List Word) (s : State) => firstFail (nlcChecks ps (nlcData ps s) s) = none ∧
      Claims.Awake 0x2007 (rq ps) s ∧ firstFail (nlcStates ps s) = none
    ok [0x02000000, 0x00060000] s ∧ fld (0x02000000 : Word) 29 27 = 0 ∧
    ok [0x0F800000, 131063, 9] s ∧ fld (0x0F800000 : Word) 29 27 = 1 ∧ bit (0x0F800000 : Word) 26 = true ∧
    ok [0x10000000, 0x40064000, 0x0064FF28, 0] s ∧ fld (0x10000000 : Word) 29 27 = 2 ∧
    ok [0x1BC00000] t ∧ fld (0x1BC00000 : Word) 29 27 = 3 ∧ bit (0x1BC00000 : Word) 26 = false ∧
    t.ports[(0 : LPort)].tr.state ≠ .traffic ∧ ok [0x1FC00000] t ∧ bit (0x1FC00000 : Word) 26 = true ∧
    ok [0x20000000] s ∧ fld (0x20000000 : Word) 29 27 = 4 := by decide +kernel

theorem met_lineMute : bit (par (rq [0xF0000000]) 0) 28 = true ∧ bit (par (rq [0xF0000000]) 0) 29 = true ∧
    pf (rq [0xF0000000]) 0 27 0 = 0 ∧ (modFront 3 (fun f => { f with drvEn := true }) r0).ports[pport (rq [0xF0000000]) 0].front.drvEn = true := by
  decide +kernel

/-- A receiver that acquires. -/
def Slice.acquiring (step : Nat) : State := modRx 1 (fun r => { r with running := true, step := BitVec.ofNat 3 step }) (inSt 1 .acquire)
def Slice.lit : State := modFront 1 (fun f => { f with light := true }) (inSt 1 .acquire)

theorem met_acquisition : canAcquire lit 1 = true ∧ lit.ports[(1 : LPort)].rx.running = false ∧ lit.ports[(1 : LPort)].sf.lock = false ∧
    lit.ports[(1 : LPort)].rx.frameAligned = false ∧ (acquiring 1).ports[(1 : LPort)].rx.running = true ∧ (acquiring 1).ports[(1 : LPort)].rx.step = 1 ∧
    (acquiring 1).ports[(1 : LPort)].rx.foStop = false ∧
    foInside (acquiring 1).ports[(1 : LPort)].rx (500 * (fld (acquiring 1).ports[(1 : LPort)].rx.cfg[7] 23 20 + 1)) = true ∧
    foInside (acquiring 1).ports[(1 : LPort)].rx (500 * (fld (acquiring 1).ports[(1 : LPort)].rx.cfg[7] 23 20 + 1) + 1) = false ∧
    (acquiring 2).ports[(1 : LPort)].rx.step = 2 ∧ (acquiring 3).ports[(1 : LPort)].rx.step = 3 ∧
    (acquiring 4).ports[(1 : LPort)].rx.step = 4 := by decide +kernel

/-- The dispersion step without a hint, with CD_MODE 0 (searched) and CD_MODE 1 (configured). -/
theorem met_acquisition_cd :
    let s := acquiring 2
    let t := modRx 1 (fun r => { r with cfg := vset r.cfg 3 0x40000064 }) s
    s.ports[(1 : LPort)].rx.hint = false ∧ (fld s.ports[(1 : LPort)].rx.cfg[3] 31 30 == 1) = false ∧ cdInside s 1 0 = true ∧
    (fld t.ports[(1 : LPort)].rx.cfg[3] 31 30 == 1) = true ∧ 10 * sgn 16 (fld t.ports[(1 : LPort)].rx.cfg[3] 15 0) = 1000 := by
  decide +kernel

theorem met_signal :
    let s := modRx 2 (fun r => { r with frameAligned := true, erasing := true, eq := .pilot }) (modFront 2 (fun f => { f with light := true }) (inSt 2 .train))
    s.ports[(2 : LPort)].rx.frameAligned = true ∧ s.ports[(2 : LPort)].rx.erasing = true ∧ s.ports[(2 : LPort)].rx.eq = .pilot ∧
    s.ports[(2 : LPort)].front.light = true ∧ s.ports[(2 : LPort)].tr.state ≠ .down ∧ loopDigital s 2 = false ∧
    loopDigital (modMap (fun m => { m with loopDigital := 4 }) s) 2 = true := by decide +kernel

/-- The equaliser: a DGD beyond the span of the taps, and one below it for 256 superframes (R117). -/
theorem met_equaliser :
    let s := fun (d : BitVec 16) (n : Nat) => modRx 2 (fun r => { r with frameAligned := true, dgdNow := d, dgdRun := n }) (inSt 2 .train)
    let over_ := fun (s : State) => ((fld s.ports[(2 : LPort)].rx.cfg[4] 31 26 : Int) - 8) * 320000 <
      s.ports[(2 : LPort)].rx.dgdNow.toNat * (9 * (240 + s.ports[(2 : LPort)].tr.rate.toNat))
    over_ (s 65535 0) ∧ ¬ over_ (s 0 256) ∧ (s 0 256).ports[(2 : LPort)].rx.dgdRun = 256 ∧
    (s 0 255).ports[(2 : LPort)].rx.dgdRun < 256 ∧ (s 0 0).ports[(2 : LPort)].rx.frameAligned = true := by decide +kernel

theorem met_frontEnd :
    let s := modFront 0 (fun f => { f with attempt := true, changing := true, locked := false }) (inSt 0 .acquire)
    let t := modMap (fun m => { m with regen := #v[true, false] }) r0
    r0.ports[(0 : LPort)].front.light = false ∧ s.ports[(0 : LPort)].front.attempt = true ∧ s.ports[(0 : LPort)].cal.run ≠ .foreground ∧
    s.ports[(0 : LPort)].tr.state = .acquire ∧ r0.ports[(0 : LPort)].front.locked = true ∧ s.ports[(0 : LPort)].front.changing = true ∧
    s.ports[(0 : LPort)].front.locked = false ∧ regen t 0 = true ∧ isOn r0 (.cv 0) = true := by decide +kernel

theorem met_mutePins :
    let s := modPins (fun x => { x with muteHigh := true }) r0
    let t := modPins (fun x => { x with muteHigh := false }) r0
    let u := modPins (fun x => { x with muteTimer := true }) (modFront 3 (fun f => { f with drvFalling := true, drvEn := true }) r0)
    s.pins.muteHigh = true ∧ t.pins.muteHigh = false ∧ u.pins.muteTimer = true ∧
    u.ports[(3 : LPort)].front.drvFalling = true ∧ drvCond u 3 = false := by decide +kernel

/-- The far end's capabilities with every NLC set offered, a declared group and a stored set: TUNE is not skipped. -/
def Slice.tunable (x : PortState) : State :=
  modNlc 0 (fun n => { n with txSelOn := true, txSel := 7, group := 1, txSets := vset n.txSets 7 (some ⟨set0⟩) })
    (modTr 0 (fun t => { t with farCap := some (0, 0, 0x0000FF00) }) (inSt 0 x))

theorem met_train :
    let a := fun (w : Word) (s : State) => Claims.Awake 0x2801 (rq [w]) s ∧ pf (rq [w]) 0 26 0 = 0
    let s := modCal 0 (fun c => { c with run := .foreground }) (inSt 0 .muted)
    a 0 (inSt 0 .muted) ∧ calForeground (inSt 0 .muted) 0 = false ∧ calForeground s 0 = true ∧ a 0 s ∧
    pf (rq [0x08000000]) 0 29 27 = 1 ∧ a 0x08000000 (inSt 0 .holdover) ∧ pf (rq [0x10000000]) 0 29 27 = 2 ∧
    a 0x10000000 (inSt 0 .traffic) ∧ pf (rq [0x18000000]) 0 29 27 = 3 ∧ a 0x18000000 (tunable .traffic) ∧
    (let c : Commit := { n := 0, desc := 0, g := 0, a := 0, kind := 1 };
      (modTr 0 (fun t => { t with txCommit := some c }) (inSt 0 .traffic)).ports[(0 : LPort)].tr.txCommit.isSome = true ∧
      (modTr 0 (fun t => { t with retryCommit := some c }) (inSt 0 .traffic)).ports[(0 : LPort)].tr.retryCommit.isSome = true) ∧
    (modTr 0 (fun t => { t with tuneTx := some { set := 0, start := 0, cands := [], snrs := [], best := (0, 0, 0), snr0 := 0, stage := 0, acked := false, index := 0 } })
      (inSt 0 .traffic)).ports[(0 : LPort)].tr.tuneTx.any (·.stage < 2) = true ∧ (tunable .traffic).ports[(0 : LPort)].tr.retryCommit = none ∧
    tuneSkipped (inSt 0 .traffic) 0 = true ∧ tuneSkipped (tunable .traffic) 0 = false ∧
    (tunable .traffic).ports[(0 : LPort)].tr.txCommit = none ∧ (tunable .traffic).ports[(0 : LPort)].tr.tuneTx = none ∧
    firstFail (policyChecks (rq [0x39C20000, 0x00E00000, 0x00320014, 0x1F43E814, 0x0A032000])) = none ∧
    pf (rq [0]) 0 23 0 = 0 ∧ pf (rq [0]) 0 29 24 = 0 ∧ pf (rq [0x01000000]) 0 29 24 = 1 := by decide +kernel

theorem met_pathCommit :
    let a := rq [0x06E00000, 0x00000004, 0x00000000]
    let b := rq [0x10000000, 0x00000100, 0x00000000]
    let s := inSt 0 .traffic
    firstFail (pathChecks a.params s) = none ∧ firstFail (pathStates a.params s) = none ∧ pf a 0 29 28 = 0 ∧
    psfnDiff (psfnOf (par a 1) (par a 2)) (refCount s (txRef 0)) = 262144 ∧ s.ports[(0 : LPort)].tr2.rate_ = none ∧
    firstFail (pathChecks b.params s) = none ∧ firstFail (pathStates b.params s) = none ∧ pf b 0 29 28 = 1 ∧
    (let r : RateChange := { rate := 0, nFwd := 0, nRev := 0, origin := 0, from_ := none, rq := some (rq []), left := 0 };
      firstFail (pathStates b.params (modTr2 0 (fun t => { t with rate_ := some r }) s)) = none) := by
  decide +kernel

theorem met_pathTimeout :
    let r : RateChange := { rate := 0, nFwd := 0, nRev := 0, origin := 0, from_ := none, rq := some (rq []), left := 0 }
    (modTr2 0 (fun t => { t with rate_ := some r }) r0).ports[(0 : LPort)].tr2.rate_ = some r ∧ r.rq = some (rq []) := by decide +kernel

theorem met_trainTimers :
    let trn := fun (x : PortState) (f : Train → Train) => modTr 0 f (inSt 0 x)
    timerReason .capability = some 1 ∧ timerReason .commit = some 6 ∧
    (trn .train fun t => { t with srdiRun := 16 }).ports[(0 : LPort)].tr.srdiRun = 16 ∧
    (trn .traffic fun t => { t with strainRun := 16 }).ports[(0 : LPort)].tr.strainRun = 16 ∧
    retriesOf r0.ports[(0 : LPort)].tr = 0 ∧
    (let t := (trn .holdover fun t => { t with policy := #v[0, 0, 0, 0, 0x00200000], fails := 1 }).ports[(0 : LPort)].tr;
      retriesOf t = 2 ∧ ¬ (t.fails + 1 < retriesOf t)) ∧
    (trn .traffic fun t => { t with phase := .track }).ports[(0 : LPort)].tr.phase = .track ∧
    (let t := (trn .traffic fun t => { t with policy := #v[0x18000000, 0, 0, 0, 0], polUse := #v[0x18000000, 0, 0, 0, 0], qMargin := 0xFFFF }).ports[(0 : LPort)].tr;
      bit t.policy[0] 28 = true ∧ bit t.policy[0] 27 = true ∧ degraded t = true) ∧
    degraded (trn .traffic fun t => { t with qMargin := 0x4000, farReqSlots := 0 }).ports[(0 : LPort)].tr = false ∧
    (inSt 0 .holdover).ports[(0 : LPort)].sf.lock = false ∧
    (modTr2 0 (fun t => { t with alternate := some (1, 2, true), afterRate := true }) (inSt 0 .holdover)).ports[(0 : LPort)].tr2.alternate =
      some (1, 2, true) ∧ tuneSkipped (tunable .traffic) 0 = false := by decide +kernel

theorem met_trainPhases :
    let trn := fun (x : PortState) (f : Train → Train) => modTr 0 f (inSt 0 x)
    let acq := modSf 0 (fun f => { f with lock := true }) (trn .acquire fun t => { t with srdiZero := 16 })
    let v : Train → Train := fun t => { t with phase := .commit, finRxDone := true, verifyRuns := 2, finTxDone := true }
    let far : Train → Train := fun t => { v t with farVerified := true }
    let x : Tune := { set := 0, start := 0, cands := tuneFirst, snrs := [], best := (0, 0, 0), snr0 := 0, stage := 0, acked := true, index := 0 }
    acq.ports[(0 : LPort)].sf.lock = true ∧ acq.ports[(0 : LPort)].tr.retryHold = false ∧ acq.ports[(0 : LPort)].tr.farCap = none ∧
    (inSt 0 .train).ports[(0 : LPort)].tr.probed = false ∧ (inSt 0 .train).ports[(0 : LPort)].tr.probeAcked = false ∧
    marginMin (trn .train v).ports[(0 : LPort)].tr = 20 ∧ (20 : BitVec 16).toInt = 20 ∧ (19 : BitVec 16).toInt < 20 ∧
    (trn .train v).ports[(0 : LPort)].tr.verified = false ∧ (trn .train v).ports[(0 : LPort)].tr.farVerified = false ∧
    (trn .train far).ports[(0 : LPort)].tr.farVerified = true ∧ x.snrs.length + 1 < x.cands.length ∧ x.stage ≠ 2 := by
  decide +kernel

theorem met_commits :
    let c : Commit := { n := 512, desc := 0xBE104000, g := 0, a := 0, kind := 1 }
    let d : Commit := { c with n := 0, switched := true }
    let s := modTr 0 (fun t => { t with rxCommit := some c }) (inSt 0 .traffic)
    let t := modSf 0 (fun f => { f with lock := true, fly := 63 }) (modTr 0 (fun t => { t with rxCommit := some d }) (inSt 0 .traffic))
    let u := modTr 0 (fun t => { t with retryCommit := some c }) (inSt 0 .traffic)
    c.switched = false ∧ psfnDiff c.n (refCount s (rxRef 0)) = 512 ∧ ¬ (4 ≤ c.seen ∧ c.lastSeen = true) ∧
    psfnDiff (refCount t (rxRef 0)) d.n = 63 ∧ t.ports[(0 : LPort)].sf.lock = true ∧ d.failed = false ∧
    u.ports[(0 : LPort)].tr.txCommit = none ∧ choiceFits u.ports[(0 : LPort)].tr c.kind = true ∧ c.kind ≠ 2 := by decide +kernel

theorem met_lanes :
    let a := rq [0x00000001, 0x02140032, 0, 0x40000000]
    let b := rq [0x80000000, 0x22140032, 0, 0x40000000]
    let t := modLane 31 (fun l => { l with w1 := 0x22140032 }) r0
    firstFail (laneChecks a) = none ∧ firstFail (laneStates a r0) = none ∧ Claims.Awake 0x3001 a r0 ∧
    bit (par a 0) (0 : HLane).val = true ∧
    Claims.Awake 0x3002 (rq [0x80000000, 0x80000000]) t ∧ pf (rq [0x80000000, 0x80000000]) 1 31 30 = 2 ∧
    pf b 1 31 30 = 0 ∧ (∀ k : HLane, bit (par b 0) k.val = true →
      fld t.lanes[k].w1 31 30 = 0 ∧ bit t.lanes[k].w1 25 = true ∧ bit t.lanes[k].w1 29 = true) ∧
    Claims.Awake 0xF003 (rq [0xA0000000, 0xFFFFFFFF]) r0 ∧ pf (rq [0xA0000000, 0xFFFFFFFF]) 0 31 30 = 2 ∧
    pf (rq [0xA0000000, 0xFFFFFFFF]) 0 29 28 = 2 ∧ (∀ k : HLane, laneLooped r0 k = false ∧ laneClient r0 k = none) := by
  decide +kernel

theorem met_hostReports : Claims.Awake 0x3003 (rq [0xF8000000]) r0 ∧ pf (rq [0xF8000000]) 0 26 0 = 0 ∧
    Claims.Awake 0x3004 (rq [0xF801FFE2]) r0 ∧ pf (rq [0xF801FFE2]) 0 26 24 = 0 ∧ pf (rq [0xF801FFE2]) 0 23 0 + 30 = bulkWords ∧
    r0.lanes[(31 : HLane)].prbsChk = 0 ∧
    (let s := modLane 31 (fun l => { l with prbsChk := 2, prbsLock := true }) r0; s.lanes[(31 : HLane)].prbsChk ≠ 0 ∧ s.lanes[(31 : HLane)].prbsLock = true) := by
  decide +kernel

/-- Taps of which the others already pass the sum of magnitudes that R263 allows. -/
theorem met_tapLimit : 64 < tapSum (vset #v[60, 5, 0, 0, 0, 0] 2 (0 + Config.tapStep 2)) := by
  simp [tapSum, vset]; omega

theorem met_laneEvents : bit (0x02140032 : Word) 23 = false ∧
    (let l := (modLane 5 (fun l => { l with train := 1 }) r0).lanes[(5 : HLane)]; l.train = 1 ∧ l.ownReady = false ∧ l.partnerReady = false) ∧
    (let l := (modLane 5 (fun l => { l with train := 1, partnerReady := true }) r0).lanes[(5 : HLane)]; l.train = 1 ∧ l.partnerReady = true) ∧
    (modLane 5 (fun l => { l with train := 3 }) r0).lanes[(5 : HLane)].train = 3 := by decide +kernel

/-- A client of type 4 on lanes 0 to 7 with all slots of port 0. -/
def Slice.mapped (x : PortState) : State :=
  modMap (fun m => { m with clients := [{ type := 4, first := 0, port := 0, slots := 0xFFFF, txOn := true, rxOn := true }] }) (inSt 0 x)

theorem met_clients : (clientAt (mapped .traffic) 0).isSome = true ∧ alarmOn (mapped .traffic) (.host 0) 9 = false := by
  decide +kernel

theorem met_map :
    let a := rq [0x8000FFFF]
    let b := rq [0x00000000]
    Claims.Awake 0x5001 a (inSt 0 .muted) ∧ firstFail (mapAddChecks a.params) = none ∧
    firstFail (mapAddStates a.params 0 (inSt 0 .muted)) = none ∧ firstFail (mapAddStates a.params 64 (inSt 0 .traffic)) = none ∧
    (inSt 0 .traffic).ports[addPort a.params].tr.state = .traffic ∧ poolFull (inSt 0 .traffic) = false ∧ a.src ≠ .blob ∧
    Claims.Awake 0x5002 b (mapped .muted) ∧ pf b 0 26 0 = 0 ∧ ((clientAt (mapped .muted) (removeLane b.params)).map (·.txOn)) = some true ∧
    (mapped .muted).ports[(0 : LPort)].tr.state ≠ .traffic ∧ (mapped .traffic).ports[(0 : LPort)].tr.state = .traffic ∧
    Claims.Awake 0x5004 (rq [0xC0000000]) r0 ∧ pf (rq [0xC0000000]) 0 29 0 = 0 := by decide +kernel

theorem met_mapRegen :
    let a := rq [0xC0000000, 0x0001FFFF]
    let b := rq [0x40000000, 0xFFFF0000]
    let g := fun (n : Nlc) => { n with group := 1 }
    let s := modNlc 2 g (modNlc 3 g r0)
    let t := modMap (fun m => { m with regen := #v[true, false] }) (inSt 0 .traffic)
    Claims.Awake 0x5003 a s ∧ pf a 0 29 0 = 0 ∧ bit (par a 0) 30 = true ∧ pairLow a.params = 2 ∧
    s.ports[(2 : LPort)].tr.state = .down ∧ s.ports[mate 2].tr.state = .down ∧ regen s 2 = false ∧
    s.ports[(2 : LPort)].nlc.group ≠ 0 ∧ s.ports[mate 2].nlc.group = s.ports[(2 : LPort)].nlc.group ∧
    par (rq [0, 0]) 1 = 0 ∧ Claims.Awake 0x5003 b t ∧ regen t 0 = bit (par b 0) 30 ∧ t.ports[(0 : LPort)].tr.state = .traffic ∧
    pf b 1 31 16 ≠ dropMask t 0 ∧ pf b 1 15 0 = dropMask t (mate 0) ∧ poolFull t = false := by decide +kernel

/-- An event pool with all 65,536 entries in use. -/
theorem met_poolFull (e : DialEv) : poolFull (modDial (fun d => { d with evs := List.replicate 65536 e }) r0) = true := by
  show decide (65536 ≤ (List.replicate 65536 e).length) = true
  rw [List.length_replicate]; rfl

/-- Port 1 in the pool with one ready superframe of two codewords, and engine 63 at work. -/
def Slice.decoding : State :=
  let o : OpenSf := { id := 0, count := 2, fmt := 0, ready := true, complete := [], closed := [], out := [], again := [], deadline := 0 }
  modEng 63 (fun e => { e with running := some { port := 1, sf := 9, cw := 0, ceil := 8 } })
    (modPp 1 (fun p => { p with inPool := true, openSfs := [o], shortRun := 4 })
      (modPool (fun x => { x with shortRun := 4, clearRun := 16 }) (dev .active)))

theorem met_fec :
    let a := rq [0x38000000]
    let b := rq [0xF8000000, 0x26000000]
    Claims.Awake 0x4001 a r0 ∧ pf a 0 25 0 = 0 ∧ pf a 0 27 26 = 2 ∧ pf a 0 29 28 = 3 ∧ inService r0 (pport a 0) = false ∧
    topSlot (mustCarry r0 0) ≤ slotsCarried (withFec r0.ports[(0 : LPort)].tr.txFmt 2) ∧
    Claims.Awake 0x4002 b r0 ∧ pf b 1 31 27 = 4 ∧ pf b 1 26 22 = 24 ∧ pf b 0 22 0 = 0 ∧ pf b 1 21 0 = 0 ∧ pf b 0 31 27 ≠ 0 ∧
    pf (rq [0]) 0 28 0 = 0 ∧ bit (par (rq [0x20000000]) 0) 29 = true ∧ pf (rq [0x20000000]) 0 28 0 = 0 ∧
    pf (rq [0x0001FFD3]) 0 23 0 + 45 = bulkWords ∧ pf (rq [0x2001FFB6]) 0 23 0 + 74 = bulkWords ∧
    pf (rq [0x2001FFB6]) 0 28 24 = 0 ∧ bit (par (rq [0x2001FFB6]) 0) 29 = true := by decide +kernel

theorem met_pool :
    isOn decoding .map = true ∧ decoding.map.stopped = false ∧ decoding.pool.ports[(1 : LPort)].inPool = true ∧
    decoding.pool.ports[(0 : LPort)].inPool = false ∧ decoding.pool.shortRun = 4 ∧ decoding.pool.clearRun = 16 ∧
    decoding.pool.ports[(1 : LPort)].shortRun = 4 ∧ ((firstReady (readyList decoding)).map (·.cw)) = some 0 ∧
    pickEngine decoding = some 0 ∧ decoding.pool.engines[(0 : Engine)].running = none ∧
    decoding.pool.engines[(63 : Engine)].running.isSome ∧ decoding.pool.engines[(63 : Engine)].fenced = false ∧
    ((decoding.pool.ports[(1 : LPort)].openSfs.find? (·.ready)).map (·.id)) = some 0 ∧
    (∀ a ∈ decoding.pool.ports[(1 : LPort)].openSfs, ∀ b ∈ decoding.pool.ports[(1 : LPort)].openSfs, a.id = b.id → a = b) := by
  decide +kernel

theorem met_engines :
    let s := modEng 63 (fun e => { e with speed := 2, testing := true }) r0
    isOn s (.fq (quadOf 63)) = true ∧ 1 < s.pool.engines[(63 : Engine)].speed ∧ s.pool.engines[(63 : Engine)].speed < 4 ∧
    s.pool.engines[(63 : Engine)].testing = true ∧ engineUp (dev .active) 63 = true ∧ (dev .active).sys.inReset = false ∧
    isOn (dev .active) (.fq (quadOf 63)) = true ∧ isOn (dev .active) .map = true ∧
    (modSys (fun y => { y with inReset := true }) r0).sys.inReset = true := by
  decide +kernel

/-- An uncorrectable word of the codeword buffer is an erasure of its LLRs (R215). -/
theorem test_erasure :
    let o : OpenSf := ⟨0, 1, 0, true, [], [], [], [], 0, [], [], [7, -3, 5], [], []⟩
    (eraseLlrs [1] o).llr = [7, 0, 5] := by decide +kernel

/-- A LINE_RX_CONFIG of words 5 to 7 of port 0. -/
def Slice.rxParams : List Word := [0x00000070, 0, 0, 0, 0, 0x1C000000, 0x08000000, 0x01000000, 0]
/-- A DIAL_SCHEDULE of it, EXACT, on RX(LP0) at 64 superframes ahead. -/
def Slice.schedule : Req :=
  rq ([0x10800000, 64, 0] ++ packet 0x2003 rxParams)
/-- The event that it enters, on port 0 with lock. -/
def Slice.ev : DialEv := { idx := 5, use := 1, target := 64, ref := 0, exact := true, fallback := false, compl := .none
                           opcode := 0x2003, pktTag := 1, params := rxParams, src := .chan (.m 0)
                           stamp := { cls := 0, ident := 0x58, gen := 0 }, tag := 1, seq := 0 }
def Slice.locked (n : Psfn) : State := modSf 0 (fun f => { f with lock := true, fly := n, heldRx := none }) (inSt 0 .traffic)
def Slice.dialled (n : Psfn) (e : DialEv) : State := modDial (fun d => { d with evs := [e] }) (locked n)

theorem met_dialSchedule :
    let remote : Req := { rq ([0x10800000, 64, 0] ++ packet 0x2003 rxParams) with stamp := { cls := 2, ident := 3, gen := 0 }, src := .chan (.j 0) }
    let full := modDial (fun d => { d with remoteMax := 0 }) (modSys (fun y => { y with perms := { y.perms with jrx := Vector.replicate 4 0x07FFFFFF } }) (locked 0))
    firstFail (schedChecks schedule (locked 0)) = none ∧
    (∀ d ∈ eventNeeds (locked 0) (schedEvent schedule (locked 0)), inDown (locked 0) d = false) ∧
    poolRefuses schedule.stamp (locked 0) = false ∧ refValid (locked 0) (schedEvent schedule (locked 0)).ref = true ∧
    firstFail (schedChecks remote full) = none ∧ poolRefuses remote.stamp full = true := by decide +kernel

theorem met_dialCommands :
    let s := dialled 0 ev
    let c := rq [0x00000000, ev.id]
    pf c 0 31 30 = 0 ∧ pf c 0 26 0 = 0 ∧ cancelSet c s ≠ [] ∧ isHost c.stamp = true ∧
    (let l := rq [0x0001B000, 0x00001000]; pf l 0 31 24 = 0 ∧ pf l 1 15 0 = 4096 ∧ pf l 0 23 0 + 5 * pf l 1 15 0 = bulkWords) ∧
    (let g := rq [0xE6000000]; pf g 0 30 27 = 12 ∧ pf g 0 25 11 = 16384 ∧ pf g 0 10 0 = 0 ∧ r0.dial.evs.countP (·.waits) = 0) ∧
    isOn r0 (.ld (refPort (deviceRef r0))) = true ∧ isOn (pow (.ld 0) .nap r0) (.ld (refPort (deviceRef (pow (.ld 0) .nap r0)))) = false ∧
    pf (rq [0xC0000000]) 0 29 0 = 0 := by decide +kernel

theorem met_dialStage :
    let s := dialled 0 ev
    let bad := dialled 0 { ev with params := [0x00000070, 0, 0, 0, 0, 0, 0, 0, 0] }
    s.dial.evs.find? (·.idx == 5) = some ev ∧ ev.kind = .stored ∧ coreTakes ev s = true ∧ ev.phase = .pending ∧
    refValid s ev.ref = true ∧ psfnDiff ev.target (refCount s ev.ref) = 64 ∧ storedRefused ev s = false ∧ storedGate ev s = none ∧
    firstFail (stageChecks ev (stageData ev s) s) = none ∧
    (∀ d ∈ needsOf ev.opcode.toNat ev.params, isOn s d = true ∧ inDown s d = false) ∧
    firstFail (stageStates ev (stageData ev s) s) = none ∧
    (∀ e ∈ bad.dial.evs, coreTakes e bad = true ∧ storedRefused e bad = false ∧ storedGate e bad = none ∧
      firstFail (stageChecks e (stageData e bad) bad) ≠ none) := by decide +kernel

/-- The event staged and exchanged, and a PROMPT event whose sender may not use its command. -/
def Slice.stagedEv : DialEv := { ev with phase := .staged, stagingDone := true }
def Slice.exchangedEv : DialEv := { ev with phase := .released, stagingDone := true }
def Slice.promptEv : DialEv := { ev with exact := false, opcode := 6, params := [], stamp := { cls := 2, ident := 3, gen := 0 }, src := .chan (.j 0) }

theorem met_dialRelease :
    refValid r0 0 = false ∧ exchanged 0 r0 = [] ∧ exchanged 0 (dialled 64 exchangedEv) = [exchangedEv] ∧
    dueEvents 0 (dialled 64 exchangedEv) = [] ∧ exchangedEv.implicit = none ∧ exchangedEv.compl = .none ∧ exchangedEv.kind = .stored ∧
    refValid (dialled 64 promptEv) 0 = true ∧ exchanged 0 (dialled 64 promptEv) = [] ∧
    dueEvents 0 (dialled 64 promptEv) = [promptEv] ∧ dueEvents 0 (dialled 63 promptEv) = [] ∧
    storedRefused promptEv (dialled 64 promptEv) = true ∧
    (∀ e ∈ [exchangedEv, promptEv], ∀ a ∈ (dialled 64 e).dial.evs, a.idx = e.idx → a = e) := by decide +kernel

/-- R300, R301: due at its target and not before; DIAL_RELEASE then empties the pool. -/
theorem test_release : dueExact 0 (dialled 63 stagedEv) = [] ∧ dueExact 0 (dialled 64 stagedEv) = [stagedEv] ∧
    (exchangeDue 0 (dialled 64 stagedEv)).ports[(0 : LPort)].rx.cfg[(4 : Fin 8)] = 0x1C000000 ∧
    (dialRelease 0 (exchangeDue 0 (dialled 64 stagedEv))).dial.evs = [] := by decide +kernel

theorem met_calRun :
    let bg := rq [0x0FC00000]
    let fg := rq [0x10400000]
    let ab := rq [0x20000000]
    let s := modCal 0 (fun c => { c with retry := some .background }) r0
    Claims.Awake 0x7001 bg r0 ∧ pf bg 0 21 0 = 0 ∧ pf bg 0 29 28 = 0 ∧ pf bg 0 27 22 = 63 ∧ calBusy r0 0 = false ∧
    pf fg 0 29 28 = 1 ∧ pf fg 0 27 22 = 1 ∧ foregroundOk r0 0 = true ∧ pf ab 0 29 28 = 2 ∧ pf ab 0 27 22 = 0 ∧ calBusy s 0 = true ∧
    Claims.Awake 0x7001 ab s := by decide +kernel

theorem met_calPolicy :
    let a := rq [0x30500000, 0x00010203, 0x0405067D]
    pf a 0 27 20 = 5 ∧ pf (rq [0x06400000, 0, 0]) 0 27 20 = 100 ∧ pf a 0 19 0 = 0 ∧ bit (par a 0) 28 = true ∧ calBusy r0 0 = false ∧
    (∀ i, i < 8 → calPointArg a i ≤ 125) ∧ (∀ i, i < 7 → calPointArg a i < calPointArg a (i + 1)) ∧ calPointArg a 7 = 125 := by
  decide +kernel

theorem met_calReports : Claims.Awake 0x7003 (rq [0xC401FCF1]) r0 ∧ pf (rq [0xC401FCF1]) 0 25 24 = 0 ∧
    pf (rq [0xC401FCF1]) 0 23 0 + 783 = bulkWords ∧ pf (rq [0xC0000000]) 0 29 0 = 0 := by decide +kernel

theorem met_calTableInvalidate :
    let a := rq [0xFC000000, 783]
    Claims.Awake 0x7004 a r0 ∧ firstFail (calWriteChecks a.params (calWriteData a.params r0)) = none ∧
    firstFail (calWriteStates a.params (calWriteData a.params r0) r0) = none ∧ bit (par a 0) 26 = true ∧ r0.ports[(3 : LPort)].tr.state ≠ .traffic ∧
    (let s := inSt 3 .traffic; Claims.Awake 0x7004 a s ∧ firstFail (calWriteStates a.params (calWriteData a.params s) s) = none ∧
      s.ports[pport a 0].tr.state = .traffic ∧ poolFull s = false ∧ a.src ≠ .blob) := by decide +kernel

/-- A block of a valid point at the temperature of point 0 with all values 0, without its CRC. -/
def Slice.zeroBody : List Word :=
  0x01100000 :: word [(31, 16, unsgn 16 (r0.ports[(0 : LPort)].cal.points[(0 : Fin 8)].temp))] :: List.replicate 780 0

/-- That block. -/
def Slice.zeroPoint : List Word := zeroBody ++ [crc32c zeroBody]

theorem Slice.zeroBody_length : zeroBody.length = 782 := by
  rw [zeroBody, List.length_cons, List.length_cons, List.length_replicate]

theorem Slice.getD_before (l : List Word) (c : Word) (i : Nat) (h : i < l.length) : (l ++ [c]).getD i 0 = l.getD i 0 := by
  simp [List.getD_eq_getElem?_getD, List.getElem?_append, h]

/-- The CRC of a block is no value of it. -/
theorem Slice.parse_before (l : List Word) (c : Word) (h : l.length = 782) : calParse (l ++ [c]) = calParse l := by
  have e : ∀ i, i < 782 → (l ++ [c]).getD i 0 = l.getD i 0 := fun i hi => getD_before l c i (h ▸ hi)
  simp only [calParse, e 778 (by decide), e 779 (by decide), e 780 (by decide), e 781 (by decide), CalVals.mk.injEq,
    and_true]
  refine ⟨?_, ?_, ?_, ?_, ?_⟩ <;>
    (apply List.map_congr_left; intro i hi; rw [e _ (by have := List.mem_range.1 hi; omega)])

theorem Slice.crc_right (l : List Word) : blockCrc (l ++ [crc32c l]) = true := by simp [blockCrc]

theorem Slice.zeroBody_zero (i : Nat) : zeroBody.getD (i + 2) 0 = 0 := by
  rw [zeroBody, List.getD_cons_succ, List.getD_cons_succ, List.getD_eq_getElem?_getD, List.getElem?_replicate]
  split <;> rfl

theorem Slice.zeroPoint_inside : calOutside (calParse zeroBody) = false := by
  have e : ∀ i, zeroBody.getD (2 + i) 0 = 0 := fun i => by rw [Nat.add_comm, zeroBody_zero]
  have e2 : ∀ i, zeroBody.getD (522 + i) 0 = 0 := fun i => by rw [show 522 + i = (520 + i) + 2 by omega, zeroBody_zero]
  have h : calParse zeroBody = ⟨(List.range 520).map fun _ => 0, (List.range 520).map fun _ => 0, (List.range 520).map fun _ => 0,
      (List.range 256).map fun _ => 0, (List.range 256).map fun _ => 0, 0, 0, 0, 0, 0, 0⟩ := by
    simp only [calParse, e, e2, zeroBody_zero 776, zeroBody_zero 777, zeroBody_zero 778, zeroBody_zero 779]
    rfl
  rw [h]
  decide +kernel

theorem Slice.data_of (l : List Word) (h : l.length = 783) : calWriteData [0x00000000, 783] (putBulk 0 l r0) = l := by
  have e := bulkRead_bulkWrite r0.bulk 0 l rfl
  rw [h] at e
  exact e

theorem Slice.zeroPoint_data : calWriteData [0x00000000, 783] (putBulk 0 zeroPoint r0) = zeroPoint :=
  data_of zeroPoint (by rw [zeroPoint, List.length_append, zeroBody_length]; rfl)

theorem met_calTableWrite :
    let a := rq [0x00000000, 783]
    let s := putBulk 0 zeroPoint r0
    Claims.Awake 0x7004 a s ∧ firstFail (calWriteChecks a.params (calWriteData a.params s)) = none ∧
    firstFail (calWriteStates a.params (calWriteData a.params s) s) = none ∧ bit (par a 0) 26 = false := by
  have e : calWriteData (rq [0x00000000, 783]).params (putBulk 0 zeroPoint r0) = zeroPoint := zeroPoint_data
  refine ⟨by decide +kernel, ?_, ?_, by decide +kernel⟩
  · rw [e, calWriteChecks, zeroPoint, parse_before _ _ zeroBody_length, crc_right, zeroPoint_inside,
      getD_before _ _ 0 (by rw [zeroBody_length]; decide)]
    decide +kernel
  · rw [e, calWriteStates, zeroPoint, getD_before _ _ 1 (by rw [zeroBody_length]; decide)]
    decide +kernel

theorem met_calRuns :
    let s := modCal 0 (fun c => { c with run := .foreground, items := 63, rejects := 2 }) r0
    let v := CalVals.const 0
    s.ports[(0 : LPort)].cal.run ≠ .none ∧ calRejects 63 v v = 0 ∧ calRejects 63 v { v with pol := v.pol + 1000 } ≠ 0 ∧
    2 ≤ s.ports[(0 : LPort)].cal.rejects ∧ r0.ports[(0 : LPort)].cal.rejects < 2 ∧ isOn s (.ld 0) = true := by decide +kernel

theorem met_calTimers :
    let s := modCal 0 (fun c => { c with auto := true, hasRef := true, deltaT := 5, retry := some .foreground }) r0
    let t := modCal 0 (fun c => { c with auto := true, hasRef := true, deltaT := 5 }) r0
    t.ports[(0 : LPort)].cal.hasRef = true ∧
    t.ports[(0 : LPort)].cal.deltaT.toNat < (t.ports[(0 : LPort)].cal.refs[(3 : Fin 4)] + 6 - t.ports[(0 : LPort)].cal.refs[(3 : Fin 4)]).natAbs ∧
    t.ports[(0 : LPort)].cal.auto = true ∧ isOn t (.cv 0) = true ∧ calBusy t 0 = false ∧
    s.ports[(0 : LPort)].cal.retry = some .foreground ∧ s.ports[(0 : LPort)].cal.run = .none := by decide +kernel

/-- The converter with its buffer on, channel 23 in the scan, and loop 0 in SETPOINT on channel 3. -/
def Slice.scanning (inv : Nat) : State :=
  modMon (fun m => { m with refOn := true, refCold := false, scan := 0x800008, hostMask := 0x800000, slot := some 2, postMask := 0,
                            invalid := vset m.invalid 3 inv }) (dev .active)
def Slice.looping : State :=
  modMon (fun m => { m with loops := vmod m.loops 0 (fun l => { l with mode := .setpoint, chan := 3, ki := 65535, stepMax := 4095, codeMax := 65535 }) }) (scanning 0)

theorem met_monSettings :
    let a := rq [0x9F800000, 0x00FFFFFF, 0, 0x00FFFFFF]
    let on := modMon (fun m => { m with refOn := true }) r0
    firstFail (monChecks a on) = none ∧ Claims.Awake 0x8001 a on ∧ firstFail (monStates a on) = none ∧ bit (par a 0) 25 = true ∧
    pf a 0 31 29 = 4 ∧ bit (par a 0) 28 = true := by decide +kernel

set_option maxRecDepth 100000 in
theorem met_monCoefs :
    let b := rq [0x0001FFBF, 65]
    let s := putBulk 131007 (zeros 64) r0
    firstFail (coefLoadChecks b s) = none ∧ Claims.Awake 0x8002 b s ∧ pf b 0 23 0 + 65 = bulkWords := by decide +kernel

theorem met_monReads :
    let u := rq [0xB8000000]
    let idle := modMon (fun m => { m with refOn := true, scan := 0 }) r0
    let busy := modMon (fun m => { m with urgent := some (u, 23) }) (dev .active)
    let track := modMon (fun m => { m with refOn := true, preset := 3, scan := 1 }) r0
    pf (rq [0x00FFFFFF]) 0 31 24 = 0 ∧ Claims.Awake 0x8004 u idle ∧ pf u 0 31 27 = 23 ∧ pf u 0 26 0 = 0 ∧ idle.mon.refOn = true ∧
    idle.mon.urgent = none ∧ idle.mon.scan = 0 ∧ scanNext idle.mon = 0 ∧ busy.mon.urgent = some (u, 23) ∧ monRuns busy = true ∧
    track.mon.preset = 3 ∧ track.mon.scan ≠ 0 ∧ Claims.Awake 0x8004 u track := by decide +kernel

theorem met_biasLoop :
    let a := fun (m : Nat) => rq [word [(31, 27, 23), (26, 25, m), (24, 20, 15), (19, 18, 3)], 0x80000001, 0x0000FFFF, 0x80000000,
      word [(31, 16, 1), (15, 6, 512), (5, 2, 1)], word [(31, 20, 1000), (19, 8, 1)]]
    let s := modMon (fun m => { m with refOn := true }) r0
    loopIx (a 2) = 23 ∧ (3 : LPort).val = (23 : Fin 24).val / 6 ∧ (∀ m, m < 4 → firstFail (loopChecks (a m)) = none ∧
      Claims.Awake 0x8005 (a m) s ∧ firstFail (loopStates (a m) s) = none) ∧
    LoopMode.ofCode (pf (a 3) 0 26 25) ≠ s.mon.loops[(23 : Fin 24)].mode ∧
    LoopMode.ofCode (pf (a 0) 0 26 25) = s.mon.loops[(23 : Fin 24)].mode := by decide +kernel

theorem met_monSlots :
    monRuns (pow .mon .idle r0) = false ∧ monRuns looping = true ∧ newRound (scanning 1).mon (3 : Fin 24).val = false ∧
    (scanning 1).mon.scan.getLsbD (3 : Fin 24).val = true ∧ (scanning 1).mon.invalid[(3 : Fin 24)] ≠ 0 ∧
    (scanning 0).mon.invalid[(3 : Fin 24)] = 0 ∧ (scanning 0).mon.refCold = false ∧
    (scanning 0).mon.postMask.getLsbD (3 : Fin 24).val = false ∧
    (∀ k : Fin 24, (scanning 0).mon.loops[k].runs = true → (scanning 0).mon.loops[k].chan.toNat ≠ (3 : Fin 24).val) ∧
    newRound looping.mon (3 : Fin 24).val = false ∧ looping.mon.loops[(0 : Fin 24)].mode = .setpoint ∧
    looping.mon.loops[(0 : Fin 24)].edge = none ∧ looping.mon.loops[(0 : Fin 24)].chan.toNat = (3 : Fin 24).val ∧
    (∀ j : Fin 24, j ≠ 0 → looping.mon.loops[j].runs = true → looping.mon.loops[j].chan.toNat ≠ (3 : Fin 24).val) := by decide +kernel

theorem met_monTimers :
    let s := modMon (fun m => { m with loops := vmod m.loops 23 (fun l => { l with st := .drift }) }) (dev .active)
    monRuns s = true ∧ s.mon.loops[(23 : Fin 24)].st = .drift ∧ s.mon.loops[(0 : Fin 24)].st ≠ .drift := by decide +kernel

/-- The node 7 with a route to node 9 through port 2. -/
def Slice.routed : State :=
  modJrx (fun j => { j with nodeId := 7, nidValid := true, routesChanged := true, routes := [{ node := 9, hops := 1, port := 2, atUsec := 0 }] }) (dev .active)

theorem met_jrxReports : pf (rq [0x00D80000]) 0 14 0 = 0 ∧ bit (par (rq [0x00D80000]) 0) 19 = true ∧
    (routed.jrx.nodeId.toNat ≠ pf (rq [0x00D80000]) 0 31 21 ∨ routed.jrx.nidValid ≠ bit (par (rq [0x00D80000]) 0) 20) ∧
    pf (rq [0xC0000000]) 0 29 0 = 0 ∧ pf (rq [0x20000000]) 0 27 24 = 0 ∧ bit (par (rq [0x20000000]) 0) 28 = false ∧
    bit (par (rq [0x20000000]) 0) 29 = true ∧ pf (rq [0x1001F800]) 0 27 24 = 0 ∧ bit (par (rq [0x1001F800]) 0) 28 = true ∧
    pf (rq [0x1001F800]) 0 23 0 + 2048 = bulkWords := by decide +kernel

set_option maxRecDepth 100000 in
theorem met_jrxSend :
    let a := rq ([0x01388000] ++ packet 0x0001 [])
    let b := rq [0x0138C000, 131056, 16]
    let s := putBulk 131056 (packet 0x2804 (List.replicate 14 0)) routed
    pf a 0 18 15 ≠ 0 ∧ pf a 0 13 0 = 0 ∧ routed.jrx.nidValid = true ∧ routed.jrx.nodeId.toNat ≠ pf a 0 31 21 ∧
    bit (par a 0) 14 = false ∧ pktCount (jrxPacket a routed) + 2 = (jrxPacket a routed).length ∧
    (∀ w ∈ routed.jrx.waits, w.dest.toNat = pf a 0 31 21 → w.chan.toNat ≠ pf a 0 20 19) ∧
    (routeTo routed (BitVec.ofNat 11 (pf a 0 31 21))).map (·.port) = some 2 ∧ routed.jrx.ports[(2 : LPort)].egress.length < 64 ∧
    bit (par b 0) 14 = true ∧ b.params.length = 3 ∧ pf b 1 31 24 = 0 ∧ (par b 2).toNat = 16 ∧
    pf b 1 23 0 + (par b 2).toNat = bulkWords ∧ pktCount (jrxPacket b s) + 2 = (jrxPacket b s).length := by decide +kernel

theorem met_jrxEvents :
    let m : LPort × BitVec 11 × List Word := (2, 9, List.replicate 16 0)
    let s := modJ 3 (fun c => { c with waitQ := [m] }) routed
    let t := modJ 3 (fun c => { c with waitQ := [m], inQ := toQ { cls := 2, ident := 9, gen := 0 } none false [0] }) routed
    let w : JrxWait := { rq := rq [], dest := 9, chan := 3, opcode := 1, tag := 1, h0 := 0, h1 := 0 }
    let u := modJrx (fun j => { j with waits := [w] }) routed
    s.mbx.j[(3 : Fin 4)].inQ.length + m.2.2.length = 16 ∧ t.mbx.j[(3 : Fin 4)].inQ.length + m.2.2.length = 17 ∧
    u.jrx.waits.find? (fun w => w.dest == 9 && w.chan == BitVec.ofNat 2 (3 : Fin 4).val) = some w ∧ jgRuns routed = true ∧
    (∀ p : LPort, isOn routed (.ld p) = true ∧ routed.jrx.ports[p].egress.length < 64) ∧ isOn (pow (.ld 1) .nap routed) (.ld 1) = false ∧
    routed.jrx.routes.length ≤ 31 ∧ routed.jrx.routesChanged = true ∧ (routeTo routed 9).isSome = true := by decide +kernel

/-- A fault waiting in the primary slot. -/
def Slice.fault (u : FUnit) (c : BitVec 8) : FaultRec :=
  { unit := u, code := c, index := 0, detail := 0, psfn := 0, psfnRef := 0, psfnValid := false, usec := 0, secondary := false }
def Slice.faulty (u : FUnit) (c : BitVec 8) (f : UnitSt → UnitSt) : State :=
  modUnit u f (modFaults (fun x => { x with primary := some (fault u c) }) (dev .active))

theorem met_faultCommands :
    (let l := rq [0x0001FA00, 256]; pf l 0 31 24 = 0 ∧ pf l 1 15 0 = 256 ∧ pf l 0 23 0 + 6 * pf l 1 15 0 = bulkWords) ∧
    alarmOf (pf (rq [0x17000000]) 0 31 24) (pf (rq [0x17000000]) 0 23 16) = some (.line 3) ∧
    alarmOf (pf (rq [0x1F070000]) 0 31 24) (pf (rq [0x1F070000]) 0 23 16) = some (.host 31) ∧
    pf (rq [0x17000000]) 0 15 0 = 0 ∧ (0x000FFFFF : Word) &&& ~~~(alarmBits (.line 3)) = 0 ∧ pf (rq [0x17008000]) 0 14 0 = 0 ∧
    pf (rq [0xFF008000]) 0 31 24 = 255 ∧ pf (rq [0xFF008000]) 0 23 16 = 0 ∧ pf (rq [0xFF008000]) 0 14 0 = 0 ∧
    (∀ u ∈ unitOrder, unitOf (unitDom u) (unitIndex u) = some u ∧ unitHeld (modUnit u (fun x => { x with held := true }) r0) u = true) ∧
    sensorsCool r0 = true ∧ (modUnit .aon (fun x => { x with held := true }) (dev .fault)).sys.dev = .fault := by decide +kernel

theorem met_detections :
    let s := dev .active
    supWatches s = true ∧ unitHeld s (.core .sup) = false ∧ unitHeld s (.core .hc) = false ∧ s.faults.primary = none ∧
    stallIndex (.ld 3) 0 = some 0 ∧ recDom (.ld 3) = some (.ld 3) ∧ isOn s (.ld 3) = true ∧ (unitSt s (.ld 3)).recovering ≠ 1 ∧
    stallIndex (.ho 3) 7 = some 7 ∧ stallIndex .map 0 = some 0 ∧ unitHeld s .map = false ∧ s.sys.inReset = false ∧ s.sys.dev ≠ .boot ∧
    unitHeld s .aon = false ∧ isOn s .mon = true ∧ 16 ≤ (16 : BitVec 16).toNat ∧ (22 : BitVec 16).toNat ≤ 22 := by decide +kernel

theorem met_handler :
    supWatches (faulty .mon 9 id) = true ∧ codeActs 9 = false ∧ codeActs 6 = true ∧ unitHeld (faulty (.ld 0) 6 id) (.ld 0) = false ∧
    (unitSt (faulty (.ld 0) 6 id) (.ld 0)).recovering = 0 ∧ (unitSt (faulty (.ld 0) 6 id) (.ld 0)).lastSeq = none ∧
    (let s := faulty (.ld 0) 6 (fun x => { x with recovering := 2, level := 2 });
      (unitSt s (.ld 0)).recovering ≠ 0 ∧ (unitSt s (.ld 0)).level = 2) ∧
    (let s := modUnit (.ho 3) (fun x => { x with overflow := 1 }) (dev .active);
      s.faults.primary = none ∧ s.faults.second = none ∧ unitOrder.find? (fun v => (unitSt s v).overflow != 0) = some (.ho 3)) := by
  decide +kernel

theorem met_recoveries :
    (unitSt (modUnit (.ld 0) (fun x => { x with recovering := 1 }) (dev .active)) (.ld 0)).recovering = 1 ∧
    (unitSt (modUnit (.ld 0) (fun x => { x with recovering := 2, lastSeq := some 0 }) (dev .active)) (.ld 0)).recovering = 2 ∧
    alarmCond r0 (.line 0) (0 : Fin 32).val = some false := by decide +kernel

theorem met_mailbox :
    let s := dev .active
    let cls : BitVec 3 := BitVec.ofNat 3 (classOf .mspi)
    let full := modM 7 (fun c => { c with inQ := toQ { cls := 1, ident := 0, gen := 0 } none false (List.replicate 16 0) }) s
    let mine := modM 7 (fun c => { c with inPart := some (cls, 1), inQ := toQ { cls := 1, ident := 0, gen := 0 } none false (List.replicate 15 0) }) s
    let out := modM 7 (fun c => { c with outQ := toQ { cls := 3, ident := 0, gen := 0 } none false [1, 2] }) s
    (∀ who : Fin 3, feServes s (if who = 0 then .twi else if who = 1 then .mspi else .test) = true) ∧
    s.mbx.m[(7 : Fin 8)].inPart = none ∧ noInbound 7 = false ∧ noInbound 5 = true ∧ s.mbx.m[(7 : Fin 8)].inQ.length < 16 ∧
    full.mbx.m[(7 : Fin 8)].inQ.length = 16 ∧ mine.mbx.m[(7 : Fin 8)].inPart = some (cls, 0 + 1) ∧
    mine.mbx.m[(7 : Fin 8)].inQ.length = 15 ∧ cls ≠ BitVec.ofNat 3 (classOf .twi) ∧
    (out.mbx.m[(7 : Fin 8)].outQ.map (·.w)) = [1, 2] ∧ out.mbx.m[(7 : Fin 8)].outWait = [] ∧ s.mbx.m[(7 : Fin 8)].outQ = [] := by
  decide +kernel

theorem met_registers :
    let s := dev .active
    let z := pow .ctl .nap s
    feServes (modSys (fun y => { y with inReset := true }) s) .twi = false ∧ feServes s .twi = true ∧ sleepsAt s 0xFFFC = false ∧ sleepsAt z 0x8000 = true ∧ sleepsAt z 0x7FFF = false ∧
    feServes z .mspi = true ∧ longWake z = false ∧ ¬ (0x108 ≤ (0x0181 : BitVec 16).toNat ∧ (0x0181 : BitVec 16).toNat < 0x110) := by
  decide +kernel

theorem met_ports :
    let st : Stall := { dom := .ctl, addr := 0x8000, w := none }
    let stalled := modTwi (fun t => { t with twi := { t.twi with stall := some st } }) (dev .active)
    let deep := modTwi (fun t => { t with twi := { t.twi with listening := true, window := true }, mspi := { t.mspi with listening := true, window := true } }) (dev .active)
    let wakes := modPower (fun p => { p with accessWakes := [.ctl] }) (dev .active)
    stalled.twi.twi.stall ≠ none ∧ deep.twi.twi.listening = true ∧ deep.twi.twi.window = true ∧ deep.twi.mspi.listening = true ∧
    deep.twi.mspi.window = true ∧ r0.twi.mspi.listening = false ∧ wakes.power.accessWakes.contains .ctl = true ∧ inDown wakes .ctl = false ∧
    isAnalog .ctl = false := by decide +kernel

theorem met_masters :
    let s := modTwi (fun t => { t with ptwiCfg := 0x20000000 }) (dev .active)
    let b := modTwi (fun t => { t with ptwiCmd := some 0x40000000, bspiCmd := some (0x00040000, false) }) s
    feServes s .twi = true ∧ s.twi.ptwiCmd = none ∧ fld (0x00410000 : Word) 22 17 = 32 ∧ fld (0x00010000 : Word) 16 11 = 32 ∧
    bit s.twi.ptwiCfg 29 = true ∧ b.twi.ptwiCmd = some 0x40000000 ∧ s.sys.dev ≠ .boot ∧ s.twi.bspiCmd = none ∧
    fld (0x00040000 : Word) 18 10 = 256 ∧ fld (0x00040000 : Word) 23 22 ≠ 3 ∧ fld s.twi.bspiBulk 16 0 + 64 ≤ bulkWords ∧
    bit s.twi.bspiCfg 31 = false ∧ isOn s .ctl = true ∧ b.twi.bspiCmd = some (0x00040000, false) := by decide +kernel

theorem met_downloads :
    let s := modSys (fun y => { y with phase := 2, bootSrc := 1, dlReady := true }) (dev .boot)
    let t := modSys (fun y => { y with copying := some (64, true) }) s
    feServes s .mspi = true ∧ s.sys.phase = 2 ∧ dlAllowed s .mspi = true ∧ s.sys.dlReady = true ∧ (131072 : BitVec 18).toNat = 131072 ∧
    s.sys.imageLen + (131072 : BitVec 18).toNat ≤ 327744 ∧ (dev .active).sys.phase ≠ 2 ∧ t.sys.copying = some (64, true) := by decide +kernel

/-- An image header that passes the checks. -/
def Slice.header : List Word := [0x435A5449, 1, 1, 0x6400B000] ++ List.replicate 60 0

theorem met_resets :
    let s := dev .boot
    let v := modSys (fun y => { y with phase := 3, image := header }) s
    let w := modSys (fun y => { y with restarts := [(.hc, some (rq []))] }) (dev .active)
    (modSys (fun y => { y with resetDue := true }) s).sys.resetDue = true ∧ s.sys.porActive = false ∧ s.test.held = false ∧
    s.sys.phase = 0 ∧ s.sys.err = 0 ∧ (modSys (fun y => { y with phase := 1 }) s).sys.phase = 1 ∧ v.sys.phase = 3 ∧
    imageCheck v.sys.image true true = 0 ∧ imageCheck v.sys.image true false = 5 ∧ imageCheck [] true true = 1 ∧ v.sys.slot = 0 ∧
    (modSys (fun y => { y with slot := 1 }) v).sys.slot = 1 ∧ unitDown w (.core .hc) = false ∧
    w.sys.restarts = [(.hc, some (rq []))] := by decide +kernel

/-- A packet waiting on M0. -/
def Slice.posted (ws : List Word) (d : DevState) : State :=
  modM 0 (fun c => { c with inQ := toQ { cls := 0, ident := 0x58, gen := 0 } none false ws }) (dev d)

theorem met_crown :
    let good := packet 0x0001 []
    let bad : List Word := [0x00010100, 0]
    let long : List Word := [0x0001010F]
    let short : List Word := [0x0001010E]
    let st : Stamp := { cls := 0, ident := 0x58, gen := 0 }
    let f : Forward := { core := .hc, opcode := 0x3003, rq := rq [], taken := true }
    (inQueue (posted good .active) (.m 0)).map (·.w) = good ∧ supTakes (posted good .active) = true ∧
    chanBusy (posted good .active) (.m 0) = false ∧ pktCount good + 2 = good.length ∧ packetCheck good = none ∧
    policyCheck (posted good .active) (pktOp good) (pktParams good) (.m 0) st = none ∧ pktCrc bad = false ∧
    pktCount bad + 2 = bad.length ∧ pktCount long = 15 ∧ pktCount short = 14 ∧ short.length < pktCount short + 2 ∧
    (modMbx (fun x => { x with forwards := [f] }) (posted good .active)).mbx.forwards.find? (fun f => f.rq.src == .chan (.m 0) && !inDial (posted good .active) f.rq.src) = some f ∧
    (∀ d ∈ cmdChans, supTurn (posted good .active) (.m 0) = true ∧ (packetArrival (posted good .active) d).isSome = (d == .m 0)) := by
  decide +kernel

theorem met_waiting :
    let m : OutMsg := { rest := toQ { cls := 3, ident := 0, gen := 0 } none false (List.replicate 14 0), posted := 0, endsCmd := true, isDial := false }
    let i : IcMsg := { opcode := 1, rq := rq [], words := 1 }
    let s := modM 0 (fun c => { c with outWait := [m], outQ := toQ { cls := 3, ident := 0, gen := 0 } none false [0, 0] }) (dev .active)
    let t := modMbx (fun x => { x with ic := vmod x.ic 15 (fun c => { c with reqWait := [i] }) }) (dev .active)
    let u := modMbx (fun x => { x with ic := vmod x.ic 15 (fun c => { c with retWait := [m] }) }) (dev .active)
    s.mbx.m[(0 : Fin 8)].outWait = [m] ∧ s.mbx.m[(0 : Fin 8)].outQ.length + m.rest.length = 16 ∧ t.mbx.ic[(15 : Fin 16)].reqWait = [i] ∧
    u.mbx.ic[(15 : Fin 16)].reqWait = [] ∧ u.mbx.ic[(15 : Fin 16)].retWait = [m] := by decide +kernel

/-- A transition with its moves. -/
def Slice.trans (asking wake : Bool) (ms : List (Dom × PState × PState)) : Trans :=
  { rq := none, asking := asking, moves := ms, reached := [], profile := none, isWake := wake, checked := false, startUsec := 0 }
def Slice.moving (t : Trans) : State := modPower (fun p => { p with trans := some t }) (dev .active)

theorem met_wakes :
    let s := modPower (fun p => { p with wakeLight := 8, lightArmed := 8, profile := .dark, wakeJrx := 1 }) (modFront 3 (fun f => { f with light := true }) (dev .active))
    let l := modLane 24 (fun l => { l with w1 := 0x00400000 }) (dev .active)
    let f : Frame := { dest := 9, src := 7, hops := 30, chan := 0, type := 1, seq := 1, entries := 0, body := [] }
    let k := modJp 0 (fun x => { x with egress := [f], neigh := { x.neigh with valid := true, node := 9 } }) (modFront 0 (fun f => { f with drvEn := true }) (dev .active))
    s.power.wakeLight.getLsbD (3 : LPort).val = true ∧ s.power.lightArmed.getLsbD (3 : LPort).val = true ∧
    s.ports[(3 : LPort)].front.light = true ∧ s.power.profile = .dark ∧ s.power.wakeJrx.getLsbD (0 : LPort).val = true ∧
    (24 : HLane).val % 8 = 0 ∧ bit l.lanes[(24 : HLane)].w1 22 = true ∧ keysLight k 0 = true ∧ (dev .active).power.trans = none ∧
    (dev .active).power.profile = .run ∧ s.power.profile ≠ .run ∧ (trans true false []).isWake = false := by decide +kernel

theorem met_answers :
    let t := trans true false [(.mon, .on, .idle)]
    let u := trans true false [(.ld 0, .on, .nap)]
    let s := modTr 0 (fun t => { t with state := .traffic }) (moving u)
    (moving t).power.trans = some t ∧ t.asking = true ∧ refusals (moving t) (t.moves.filter goesDown) = [] ∧
    refusals s (u.moves.filter goesDown) ≠ [] ∧ s.power.heldWakes = [] ∧
    (∃ m ∈ u.moves.filter goesDown, isAsked s m.1 (.pc 0) = true) ∧ (trans true true [(.mon, .idle, .on)]).isWake = true ∧
    refusals (moving (trans true true [(.mon, .idle, .on)])) [] = [] ∧
    isAsked (modDial (fun d => { d with evs := [ev] }) r0) (.ld 0) .dial = true ∧ isAsked routed (.ld 2) .jg = true := by decide +kernel

theorem met_transitions :
    let t := trans false false [(.mon, .on, .idle)]
    let u := trans false false [(.ld 0, .nap, .on)]
    let su := pow (.ld 0) .nap (moving u)
    let w := trans false true [(.ctl, .nap, .on)]
    let d := { trans false true [] with checked := true }
    t.asking = false ∧ t.isWake = false ∧ t.reached = [] ∧ (PState.on ≠ PState.idle) ∧ domSt (moving t) .mon = .on ∧
    unitHeld (moving t) (domUnit .mon) = false ∧ (moving t).power.heldWakes = [] ∧ t.rq = none ∧
    (∀ k : Fin 64, Dom.mon ≠ .fq (quadOf k)) ∧ (modEng 5 (fun e => { e with running := some { port := 0, sf := 0, cw := 0, ceil := 8 } }) r0).pool.engines[(5 : Engine)].running ≠ none ∧
    u.reached.contains (.ld 0) = false ∧ recAsleep su (.ld 0) = false ∧
    u.moves.find? (fun m => m.1 == .ld 0 && goesUp m) = some (.ld 0, .nap, .on) ∧ unitHeld su (domUnit (.ld 0)) = false ∧
    w.isWake = true ∧ w.checked = false ∧ w.reached.contains .ctl = false ∧ w.moves.find? (·.1 == .ctl) = some (.ctl, .nap, .on) ∧
    d.isWake = true ∧ d.checked = true ∧ d.moves = [] ∧ (moving d).sys.supRuns = true := by decide +kernel

theorem met_testAccess :
    let s := dev .active
    let h := modSys (fun y => { y with inReset := true }) s
    let o := modM 7 (fun c => { c with outQ := toQ { cls := 3, ident := 0, gen := 0 } none false [5] }) s
    h.sys.inReset = true ∧ s.sys.inReset = false ∧ s.mbx.m[(7 : Fin 8)].inQ.length < 16 ∧ s.mbx.m[(7 : Fin 8)].inPart = none ∧
    (o.mbx.m[(7 : Fin 8)].outQ.map (·.w)) = [5] ∧ o.mbx.m[(7 : Fin 8)].outWait = [] ∧ s.mbx.m[(7 : Fin 8)].outQ = [] := by
  decide +kernel

theorem met_boundaries :
    let s := inSt 0 .traffic
    isOn (pow (.ld 0) .nap s) (.ld 0) = false ∧ isOn s (.ld 0) = true ∧ regen s 0 = false ∧ s.ports[(0 : LPort)].tr.state ≠ .down ∧
    (dev .active).ports[(0 : LPort)].tr.state = .down ∧ s.ports[(0 : LPort)].front.nextSclk = none ∧ s.ports[(0 : LPort)].sf.framing = false ∧
    (modSf 0 (fun f => { f with framing := true }) s).ports[(0 : LPort)].sf.framing = true ∧ slotClient s 0 0 = none ∧
    isOn (pow (.cv 0) .nap s) (.cv 0) = false ∧ s.sys.reports = [] ∧ s.ports[(0 : LPort)].rx.acc.n < 255 ∧
    (modRx 0 (fun r => { r with acc := { r.acc with n := 255 } }) s).ports[(0 : LPort)].rx.acc.n = 255 := by decide +kernel

/-- Reports that wait: one of port 0 while it has no lock, one of port 3 whose framer is not ON. -/
theorem met_waitingReports :
    let w : List ReportWait := [{ at_ := .port 0, opcode := 0x2005, rq := rq [0] }, { at_ := .port 3, opcode := 0x6005, rq := rq [0xC0000000] },
      { at_ := .device, opcode := 0x0002, rq := rq [] }]
    let s := pow (.ld 3) .nap (modSys (fun y => { y with reports := w }) (locked 1))
    let due := fun (ref : RefCode) => s.sys.reports.filter fun r => reportRef s r.at_ == ref || !isOn s (.ld (refPort (reportRef s r.at_)))
    (due 0).map (·.opcode) = [0x2005, 0x6005, 0x0002] ∧ (due 4).map (·.opcode) = [0x6005] ∧ (locked 1).sys.reports = [] ∧
    pf (rq [0]) 0 29 24 = 0 ∧ isOn s (.ld 0) = true ∧ s.ports[(0 : LPort)].tr.state ≠ .down ∧ s.ports[(0 : LPort)].sf.lock = true ∧ s.dial.evs = [] := by
  decide +kernel

theorem met_exchange :
    let e : DialEv := { ev with phase := .staged, stagingDone := true }
    let x : DialEv := { e with opcode := 0x2004, ref := 4, target := 0, params := [0x00000004, 0, 0, 0x12, 0, 0, 0, 0] }
    (dialled 63 e).dial.evs.filter (·.ref == rxRef 0) = [e] ∧ isOn (dialled 63 e) (.ld 0) = true ∧
    (dialled 63 e).ports[(0 : LPort)].sf.fly + 1 = e.target ∧ (dialled 63 e).ports[(0 : LPort)].tr.state ≠ .down ∧
    (dialled 63 e).ports[(0 : LPort)].sf.lock = true ∧ bit (e.params.getD 0 0) 4 = true ∧
    pport { src := e.src, tag := 0, stamp := e.stamp, params := e.params } 0 = 0 ∧
    (dialled 63 x).dial.evs.filter (·.ref == txRef 0) = [x] ∧ regen (dialled 63 x) 0 = false ∧
    (dialled 63 x).ports[(0 : LPort)].sf.framing = false ∧ (dialled 63 x).ports[(0 : LPort)].sf.local_ = x.target ∧ (dialled 63 x).ports[(0 : LPort)].front.nextSclk = none ∧ bit (x.params.getD 0 0) 2 = true ∧
    pport { src := x.src, tag := 0, stamp := x.stamp, params := x.params } 0 = 0 := by decide +kernel

/-- Received overhead with a good CRC and version, and its PSFN 0. -/
def Slice.goodSfoh : Vector Word 64 :=
  let v : Vector Word 64 := vset (Vector.replicate 64 0) 1 0x00001000
  vset v 63 (crc32c (v.toList.take 63))
/-- Port 0 with superframe alignment in the pool. -/
def Slice.aligned (lock : Bool) (f : Sf → Sf) : State :=
  modSf 0 (fun x => f { x with aligned := true, lock := lock }) (modPp 0 (fun p => { p with inPool := true }) (inSt 0 .traffic))

set_option maxRecDepth 100000 in
theorem met_sfoh :
    sfohGood goodSfoh = true ∧ sfohGood (Vector.replicate 64 0) = false ∧ isOn (aligned true id) (.ld 0) = true ∧
    (aligned true id).ports[(0 : LPort)].sf.aligned = true ∧ (aligned false id).ports[(0 : LPort)].sf.lock = false ∧
    (aligned true id).ports[(0 : LPort)].sf.lock = true ∧ (aligned true id).pool.ports[(0 : LPort)].inPool = true := by decide +kernel

theorem met_locks :
    let r := modMap (fun m => { m with regen := #v[true, false] }) (modSf 1 (fun f => { f with lock := true }) (inSt 0 .traffic))
    (aligned true (fun f => { f with fmtRun := 3, badRun := 16, misRun := 3 })).ports[(0 : LPort)].sf.badRun = 16 ∧
    (modRx 0 (fun x => { x with frameAligned := true }) (inSt 0 .train)).ports[(0 : LPort)].rx.frameAligned = true ∧
    (inSt 0 .train).ports[(0 : LPort)].sf.aligned = false ∧ (aligned false (fun f => { f with goodRun := 3 })).ports[(0 : LPort)].sf.goodRun = 3 ∧
    regen r 0 = true ∧ isOn r (.ld 0) = true ∧ r.ports[(0 : LPort)].sf.kRegen = none ∧ r.ports[mate 0].sf.lock = true ∧
    txSwitchWaits r 0 = false := by decide +kernel

theorem met_nlc :
    let g := modNlc 1 (fun n => { n with group := 1, slotM := 22, cf := 0xFEA }) (modNlc 0 (fun n => { n with group := 1, slotM := 22, cf := 0xFBE, peerCheck := false }) (inSt 0 .traffic))
    let c : CoefSet := ⟨[0x01300000, word [(31, 22, 760), (21, 10, 0xFBE)], word [(31, 22, 760), (21, 10, 0xFEA)]]⟩
    let m := modNlc 0 (fun n => { n with rxSets := vset n.rxSets 0 (some c), members := vmod n.members 1 (fun x => { x with tracked := 256, aligned := true })
                                         rx := { n.rx with on := true }, rxFade := some (n.rx, 15), txFade := some (n.tx, 14) })
      (modSf 1 (fun f => { f with lock := true }) (modRx 1 (fun x => { x with eq := .tracking }) g))
    (1 : LPort) ∈ groupOf g 0 ∧ (1 : LPort) ∈ groupOf m 0 ∧ crossOk m 0 = true ∧ m.ports[(0 : LPort)].nlc.rx.on = true ∧
    (4500 : Int).natAbs * 320 = 160 * (9 * (240 + g.ports[(0 : LPort)].tr.rate.toNat)) ∧ m.ports[(0 : LPort)].nlc.members[(1 : LPort)].active = false ∧
    m.ports[(0 : LPort)].nlc.members[(1 : LPort)].tracked = 256 ∧ memberRuns m 0 1 = true ∧ memberMatches m 0 1 = true ∧
    (m.ports[(0 : LPort)].nlc.rxFade.map (·.2)) = some 15 ∧ (m.ports[(0 : LPort)].nlc.txFade.map (·.2)) = some 14 := by decide +kernel

theorem met_testCommands :
    let near := modLane 31 (fun l => { l with w1 := 0x22140032 }) r0
    (let l := rq [0xD8B20B41]; pf l 0 30 25 = 44 ∧ pf l 0 23 18 = 44 ∧ pf l 0 16 9 ≤ 65 ∧ pf l 0 7 0 = 65) ∧
    (let b := rq [0x30000000, 0]; pf b 0 31 29 = 1 ∧ bit (par b 0) 28 = true ∧ pf b 0 25 0 = 0 ∧ par b 1 = 0 ∧
      firstFail (loopbackStates 1 0 (lanesIn (par b 1)) (inSt 0 .muted)) = none) ∧
    (let b := rq [0x40000000, 0]; pf b 0 31 29 = 2 ∧ bit (par b 0) 28 = false ∧ par b 1 = 0) ∧
    (let b := rq [0x50000000, 0]; pf b 0 31 29 = 2 ∧ firstFail (loopbackStates 2 0 (lanesIn (par b 1)) (inSt 0 .traffic)) = none) ∧
    (let b := rq [0x70000000, 0x80000000]; pf b 0 31 29 = 3 ∧ firstFail (loopbackStates 3 0 (lanesIn (par b 1)) near) = none) ∧
    (let b := rq [0x90000000, 0xFFFFFFFF]; pf b 0 31 29 = 4 ∧ firstFail (loopbackStates 4 0 (lanesIn (par b 1)) r0) = none) := by
  decide +kernel

/-- Hypotheses of the statements about steps, queues, mutes, references and shared channels. -/
theorem met_block :
    let s := modPins (fun x => { x with muteHigh := true }) (dev .active)
    let u := modFront 0 (fun f => { f with muted := true }) (dev .active)
    let r := modMap (fun m => { m with regen := #v[true, false] }) r0
    r0.pending = [] ∧ r0.sys.blobRun = none ∧ Memory.wf (putBulk 131071 [0xFFFFFFFF] r0).bulk = true ∧ s.pins.muteHigh = true ∧
    u.ports[(0 : LPort)].front.muted = true ∧ (inSt 0 .traffic).ports[(0 : LPort)].sf.lock = false ∧ (locked 1).ports[(0 : LPort)].sf.lock = true ∧
    isOn r0 (.ld 0) = true ∧ pairOf 1 = pairOf 0 ∧ (1 : LPort) ≠ 0 ∧ regen r0 0 = false ∧ regen r 0 = true := by decide +kernel

/-! ### Results that the manual states -/

/-- R338: the check value of the CRC. -/
theorem test_crc : crcBytes [0x31, 0x32, 0x33, 0x34, 0x35, 0x36, 0x37, 0x38, 0x39] = 0xE3069283 := by decide +kernel

/-- The bulk window wraps inside itself; an address below it repeats (R386). -/
theorem test_next_ptr : nextPtr 0xFFFC = 0x8000 ∧ nextPtr 0x8000 = 0x8004 ∧ nextPtr 0x0100 = 0x0100 := by decide +kernel

/-- SEQ leaves out 0 (R65). -/
theorem test_next_seq : nextSeq 0xFFFF = 1 ∧ nextSeq 1 = 2 := by decide +kernel

/-- The word 1 of the exchanges in Crown: Command Packets: a refused bulk write of class 2, a bad parameter
word 5. -/
theorem test_status_words : (notPermitted 2 2).word1 = 0x20020200 ∧ (badParam 5).word1 = 0x11050000 := by decide +kernel

/-- The example descriptor of Line Frame, Superframe and Path Time. -/
theorem test_descriptor : dRate 0xBE104011 = 760 ∧ dFec 0xBE104011 = 1 ∧ dMod 0xBE104011 = 0 ∧ dEnt 0xBE104011 = 64 ∧
    fld 0xBE104011 7 5 = 0 ∧ bit 0xBE104011 4 = true ∧ dGen 0xBE104011 = 1 := by decide +kernel

/-- psfn_diff across the wrap (R56). -/
theorem test_psfn_diff : psfnDiff 0x000000000010 0xFFFFFFFFFFF0 = 32 := by decide +kernel

/-- The net-rate example of Transmit DSP and Shaping: slots at 250 and at 280 GBd. -/
theorem test_slots : slotsCarried 0xBE104000 = 12 ∧ slotsCarried 0xBE103F00 = 11 ∧
    slotsCarried (word [(31, 22, 880), (21, 20, 2), (15, 8, 113)]) = 16 ∧
    slotsCarried (word [(31, 22, 880), (21, 20, 2), (15, 8, 112)]) = 15 := by decide +kernel

/-- The codewords of one superframe (Iluesque FEC), and the containers of Host Lanes and Client Mapping. -/
theorem test_codewords : codedBits 0xBE104000 = 6192772 ∧ codewords 0xBE104000 = 1512 ∧ innerInfo 0xBE104000 = 5225151 ∧
    outerCodewords 0xBE104000 = 504 ∧ infoBits 0xBE104000 = 5160639 ∧ payloadBits 0xBE104000 = 5158591 ∧
    codedBits (word [(31, 22, 880), (21, 20, 2), (15, 8, 113)]) = 7773120 ∧
    codewords (word [(31, 22, 880), (21, 20, 2), (15, 8, 113)]) = 1898 ∧
    payloadBits (word [(31, 22, 880), (21, 20, 2), (15, 8, 113)]) = 6118932 ∧ nCell 760 = 1642 ∧ nCell 880 = 1466 := by
  decide +kernel

/-- The acquisition example: limit, overlap and delay at 250 GBd. -/
theorem test_dispersion : cdLimit 760 = 95000 ∧ overlapOf 63040 760 10 = 6 ∧ overlapOf 63040 760 5 = 6 ∧ tCdc 6 760 = 593 := by
  decide +kernel

/-- A choice with its margin in 0.01 dB. -/
def Slice.shown : Chosen → Option (Cand × Int × Nat)
  | .take c m n => some (c, rdiv m (2 ^ 40), n)
  | .fail _ => none

/-- The choices of the worked example of training, among entropy codes 46 to 66: 10.82 dB, then 11.82 dB with 12 slots asked for. -/
theorem test_choices :
    Slice.shown (chooseFormat ⟨7, 1, 46, 66⟩ 760 (1082 * 2 ^ 40) 0 12 50 false) = some (⟨0, 48, 1⟩, 66, 11) ∧
    Slice.shown (chooseFormat ⟨7, 1, 46, 66⟩ 760 (1182 * 2 ^ 40) 1 12 50 false) = some (⟨0, 64, 1⟩, 89, 12) := by decide +kernel

/-- The Q factors of VERIFY in the same example: 6.43 dB for 1.80e−2, and 5.55 dB for the threshold 2.9e−2. -/
theorem test_q_factor :
    (fun b : Int => (179 * 2 ^ 160 < 10000 * b && 10000 * b < 181 * 2 ^ 160)) (normalTail (2 ^ 160 * 20965 / 10000)) = true ∧
    (fun b : Int => (289 * 2 ^ 160 < 10000 * b && 10000 * b < 291 * 2 ^ 160)) (normalTail (2 ^ 160 * 18945 / 10000)) = true ∧
    berThreshold 1 = 29 := by decide +kernel

/-- The search of TUNE in the example of Complication: g 1.0 and α 0.5. -/
theorem test_tune :
    let a := (tuneFirst.zip [1082, 1116, 1145, 1167, 1182, 1179]).foldl (fun b x => tuneBetter b x.1 x.2) (0, 32, 1082)
    a = (64, 32, 1182) ∧
    ((tuneSecond a).zip [1174, 1171]).foldl (fun b x => tuneBetter b x.1 x.2) a = (64, 32, 1182) ∧ tuneEnd a 1082 = (64, 32, 1182) := by
  decide +kernel

/-- The lane words of the worked example of Host Lanes are accepted. -/
theorem test_lane_words :
    (laneChecks (rq [0x000000FF, 0x22140032, 0, 0x40000000])).find? (·.1) = none ∧
    (laneChecks (rq [0x00000F00, 0x60140032, 0x000000FC, 0x3C000000])).find? (·.1) = none ∧
    (laneChecks (rq [0x00000F00, 0x60140032, 0x000000FC, 0x3D000000])).find? (·.1) ≠ none ∧
    tapSum (staticTaps 0x000000FC 0x3C000000) = 64 := by decide +kernel

/-- The MON_CONFIG of the worked example answers SCAN_MASK 0x3F. -/
theorem test_mon_config : (monChecks (rq [0x3F000000, 0x3F, 0x555, 0]) (dev .active)).find? (·.1) = none ∧
    monScan (rq [0x3F000000, 0x3F, 0x555, 0]) r0.mon = 0x3F := by decide +kernel

/-- The temperature example of The Regulator, for one item at 42.6 °C and after the accepted run at 45.0 °C. -/
theorem test_calibration :
    let pt := fun (temp v : Int) => ({ temp := temp, valid := true, tRun := temp, vals := { r0.ports[(0 : LPort)].cal.working with pol := v } } : CalPoint)
    let c := { r0.ports[(0 : LPort)].cal with points := #v[pt 250 6, pt 400 12, pt 550 20, { pt 700 0 with valid := false }, { pt 850 0 with valid := false }, { pt 1000 0 with valid := false }, { pt 1050 0 with valid := false }, { pt 1100 0 with valid := false }], items := calAll }
    (calInterp c (4 * 426)).map (fun v => rdiv v.pol (4 * calUnit)) = some 13 ∧
    (let d := calStore c { c.working with pol := 15 } 426
     d.points[(1 : Fin 8)].vals.pol = 14 ∧ (calInterp d (4 * 426)).map (fun v => rdiv v.pol (4 * calUnit)) = some 15 ∧
     (calInterp d (4 * 450)).map (fun v => rdiv v.pol (4 * calUnit)) = some 16) := by decide +kernel

/-- The permission word of the example of the Dial grants class 2 the writes of class 0x20. -/
theorem test_grant : maskGrants 0x05555575 0x2003 [0] = true ∧ maskGrants 0x05555555 0x2003 [0] = false ∧
    maskGrants 0x05555555 0x6001 [0] = true := by decide +kernel

/-- Fields of Iluesque FEC: α^16 = α^5 + α^3 + α^2 + 1, and the minimal polynomial of α is the field polynomial (R187). -/
theorem test_field : gfDouble 32768 = 0x2D ∧ minPoly 1 = 0x1002D := by decide +kernel

/-- An outer codeword belongs to the code, and one with a wrong bit does not (R187). -/
theorem test_outer : isOuterWord 4 (outerWord 4 [true, false, true]) = true ∧
    isOuterWord 4 ((outerWord 4 [true, false, true]).set 1 true) = false := by decide +kernel

/-- What the symbols of a superframe are, and the pilot amplitude (R39 to R42, R166). -/
theorem test_pilots : pilotAmp * 1000 = 1122 ∧ symKind 0 = .pilot 0 ∧ symKind 1 = .align 0 ∧ symKind 31 = .align 30 ∧ symKind 32 = .data 0 ∧
    symKind 65 = .data 32 ∧ symKind 1048575 = .data (dataSymbols - 1) := by decide +kernel

/-- COUNT at 250 GBd is 1,637 to 1,640 (R277), and the copies of COUNT outvote one wrong copy (R276). -/
theorem test_counts : countLo 760 = 1637 ∧ countHi 760 = 1640 ∧ cellCount (controlCell 1638 0) = 1638 ∧
    cellFail (controlCell 1638 0) = false ∧ cellFail (controlCell 0 1) = true ∧
    cellCount (controlCell 1638 0 ^^^ BitVec.ofNat 257 (5 * 2 ^ 244)) = 1638 := by decide +kernel

/-- K_REGEN at 280 GBd, with nothing added and with 8 microseconds added to the path, lies between 13 and 16 (R55). -/
theorem test_k_regen : 13 ≤ kRegenFor 880 4 0 ∧ kRegenFor 880 6 8000 ≤ 16 := by decide +kernel

/-! ### Commands that are not well formed -/

theorem test_wf_words : (Instr.sysReset (rq [0x00006400])).wf = true ∧ (Instr.sysReset (rq [])).wf = false := by decide +kernel
theorem test_wf_ptwi : (Instr.ptwiDone .ok 2 [1, 2]).wf = true ∧ (Instr.ptwiDone .ok 33 [1, 2]).wf = false ∧
    (Instr.ptwiDone .ok 2 (List.replicate 33 0)).wf = false := by decide +kernel
theorem test_wf_bspi : (Instr.bspiDone [1, 2]).wf = true ∧ (Instr.bspiDone (List.replicate 4097 0)).wf = false := by decide +kernel
theorem test_wf_slot : (Instr.flashSlotReadDone (Vector.replicate 64 0) 327680).wf = true ∧
    (Instr.flashSlotReadDone (Vector.replicate 64 0) 327681).wf = false := by decide +kernel
theorem test_wf_window : (Instr.registerWrite .mspi 0x0FFF 0).wf = true ∧ (Instr.registerWrite .mspi 0x1000 0).wf = false ∧
    (Instr.registerWrite .mspi 0x7FFF 0).wf = false ∧ (Instr.registerWrite .mspi 0x8000 0).wf = true := by decide +kernel
/-- Values of a run with `n` sub-ADCs. -/
def Slice.vals (n : Nat) : CalVals := ⟨List.replicate n 0, [], [], [], [], 0, 0, 0, 0, 0, 0⟩
theorem test_wf_run : (Instr.calRunEnd 0 true (vals 520) (vals 520)).wf = true ∧ (Instr.calRunEnd 0 true (vals 520) (vals 519)).wf = false ∧
    (Instr.calRunEnd 0 true (vals 519) (vals 520)).wf = false := by decide +kernel

/-- No word spells a command. -/
theorem test_decode : decodeTableWord 32 0x20050000 = none := rfl

/-- A command at the front of the queue is carried out with the rest of the queue: MUTE_N falls for 200 ns and
counts once, and a pulse of 40 ns does nothing (R91). -/
theorem test_step : (match step { r0 with pending := [.muteNFall 200 false, .muteNRise] } with
    | .next t => decide (t.pending = [.muteNRise]) && !t.pins.muteHigh && t.pins.muteEvents == r0.pins.muteEvents + 1
    | _ => false) = true ∧
    (match step { r0 with pending := [.muteNFall 40 true] } with
    | .next t => t.pins.muteHigh
    | _ => false) = true := by decide +kernel

/-- The word that a queue presents as SYS.STATE, SYS.BOOT and SYS.ID in the example of Reset, Boot and Start of
Outputs: PHASE 1, then PHASE 4 with SLOT A, then HOLD with HOLD_REASON 3, then READY. -/
theorem test_sys_words :
    regBoot (modSys (fun y => { y with phase := 1 }) r0) = 0x08000000 ∧ regBoot (modSys (fun y => { y with phase := 4, slot := 0 }) r0) = 0x20000000 ∧
    regState (modSys (fun y => { y with dev := .hold, holdReason := 3 }) r0) = 0x23000000 ∧
    regState (dev .ready) = 0x40000000 ∧ sysId = 0x6400B010 ∧ idcodeWord = 0xB64009A7 := by decide +kernel

/-- The example of Mailboxes: MSPI posts LINE_STATUS on M2 as generation 3 and restarts; the reply of 13 words
shows in LEVEL_2, and its stamp reads REQ_STALE and REQ_CLASS 1. -/
def Slice.drv : State := modM 2 (fun c => { c with genMspi := 3 }) (dev .active)
/-- The state after the driver's restart, and with the reply. -/
def Slice.drvReset : State := ctrlWrite .mspi 2 0x80000000 drv
def Slice.drvReply : State :=
  modM 2 (fun c => { c with outQ := toQ { cls := 3, ident := 0, gen := 0 } (some (1, 3)) false (0x2005310A :: List.replicate 12 0) }) drvReset
theorem test_mailbox : drvReset.mbx.m[(2 : Fin 8)].genMspi = 4 ∧ regLevel drvReply.mbx.m[(2 : Fin 8)] 2 = 0x83430000 ∧
    (takeWord .mspi 2 drvReply).1 = 0x2005310A ∧
    regStamp (takeWord .mspi 2 drvReply).2.mbx.m[(2 : Fin 8)] .mspi = 0x60001100 := by decide +kernel

/-- Group A of the example of Complication: 275 GHz slots at 250 GBd and roll-off 0.05 meet edge to edge; with one
centre moved they do not. CD_REF of its coefficient sets is 63,000 ps/nm. -/
def Slice.grouped (cfs : Vector (BitVec 12) 4) : State :=
  eachPort (fun p s => modTr p (fun t => { t with rate := 760 }) (modTx p (fun t => { t with cfg := vset t.cfg 0 (word [(25, 22, 5)]) })
    (modNlc p (fun n => { n with group := 1, slotM := 22, cf := cfs[p] }) s))) (dev .active)
theorem test_grid : gridOk (grouped #v[0xFBE, 0xFEA, 0x016, 0x042]) 0 = true ∧
    gridOk (grouped #v[0xFBD, 0xFEA, 0x016, 0x042]) 0 = false ∧
    buildCd (rq [0x10000000, 0x1E3E8000, 0x0834AA50, 0x32000000]) = 6300 := by decide +kernel

/-- Invariants of the model hold at reset: the memory is in its form. -/
theorem test_reset_memory : Memory.wf r0.bulk = true ∧ r0.pending = [] := by decide +kernel

end
end

section
/-! PROOF. O58: the boundary that a report waits for takes its snapshot and answers it (R13, R349). -/

namespace Sys2Proof.Machine

/-! ### The superframe state of a port under changes of its other parts -/

/-- A change of a port that keeps its superframe state keeps that of every port. -/
theorem modPort_sf (p q : LPort) (f : PortSt → PortSt) (s : State) (h : ∀ x, (f x).sf = x.sf) :
    (modPort p f s).ports[q].sf = s.ports[q].sf := by
  by_cases hq : q = p
  · subst hq; simp [h]
  · simp [hq]

theorem modRx_sf (p q : LPort) (f : Rx → Rx) (s : State) : (modRx p f s).ports[q].sf = s.ports[q].sf :=
  modPort_sf p q _ s fun _ => rfl
theorem modNlc_sf (p q : LPort) (f : Nlc → Nlc) (s : State) : (modNlc p f s).ports[q].sf = s.ports[q].sf :=
  modPort_sf p q _ s fun _ => rfl
theorem modFront_sf (p q : LPort) (f : Front → Front) (s : State) :
    (modFront p f s).ports[q].sf = s.ports[q].sf :=
  modPort_sf p q _ s fun _ => rfl

theorem memberStep_sf (p j q : LPort) (s : State) : (memberStep p j s).ports[q].sf = s.ports[q].sf := by
  unfold memberStep
  split
  · rfl
  · simp only [apply_ite State.ports, setAlarm_keeps, raiseAlarm_keeps, ite_self, modNlc_sf]

theorem rxSwitch_sf (p q : LPort) (u : NlcUse) (s : State) : (rxSwitch p u s).ports[q].sf = s.ports[q].sf := by
  simp only [rxSwitch, apply_ite State.ports, setAlarm_keeps, ite_self, modNlc_sf]

theorem rxWaiting_sf (p q : LPort) (s : State) : (rxWaiting p s).ports[q].sf = s.ports[q].sf := by
  unfold rxWaiting
  split
  · exact rxSwitch_sf p q _ s
  · rfl

theorem nlcRxBoundary_sf (p q : LPort) (g : BitVec 16) (s : State) :
    (nlcRxBoundary p g s).ports[q].sf = s.ports[q].sf := by
  simp only [nlcRxBoundary, rxWaiting_sf, modNlc_sf, eachPort, memberStep_sf]

theorem takeEstimates_sf (p q : LPort) (o : RxObs) (s : State) : (takeEstimates p o s).ports[q].sf = s.ports[q].sf :=
  modRx_sf p q _ s

theorem trackCd_sf (p q : LPort) (residual : Int) (s : State) : (trackCd p residual s).ports[q].sf = s.ports[q].sf := by
  unfold trackCd
  split
  · simp only [setAlarm_keeps, modRx_sf]
  · rfl

theorem takeDgd_sf (p q : LPort) (d : BitVec 16) (s : State) : (takeDgd p d s).ports[q].sf = s.ports[q].sf := by
  simp only [takeDgd, eqSpanClear, eqSpan, apply_ite State.ports, setAlarm_keeps, ite_self, modRx_sf]

theorem takeTaps_sf (p q : LPort) (taps : List Word) (s : State) : (takeTaps p taps s).ports[q].sf = s.ports[q].sf :=
  modRx_sf p q _ s

theorem steerMate_sf (p q : LPort) (clk : BitVec 16) (s : State) : (steerMate p clk s).ports[q].sf = s.ports[q].sf := by
  unfold steerMate
  split
  · exact modFront_sf _ q _ s
  · rfl

/-! ### The work of a receive boundary -/

/-- What a receive boundary does before it looks at the lock: the flywheel counts on, and the estimates, the receive side of
Complication, the decoder pool, the idle counts and the clock of a regenerating mate take the superframe. -/
def rxWork (p : LPort) (o : RxObs) (s : State) : State :=
  let s := modSf p (fun f => { f with fly := f.fly + 1, lastLag := f.lastLag + 1, misLag := f.misLag + 1 }) s
  let s := takeTaps p o.taps (takeDgd p o.dgd (trackCd p o.cdRes (takeEstimates p o s)))
  idleCounts p o (steerMate p o.clk (poolBoundary p o (nlcRxBoundary p o.nlcGain s)))

/-- What a receive boundary with lock does before its snapshot. -/
def rxLockedWork (p : LPort) (o : RxObs) (s : State) : State :=
  let s := adcMeasure p o.levels o.clips s
  rxExchange p (keepOffset (rxRef p) (if isOn s (.cv p) then calBoundary p s else s))

theorem rxSuperframeBoundary_eq (p : LPort) (o : RxObs) (s : State) :
    rxSuperframeBoundary p o s =
      if isOn s (.ld p) && s.ports[p].tr.state != .down then
        if (rxWork p o s).ports[p].sf.lock then takeReports (rxRef p) (snapshot p (rxLockedWork p o (rxWork p o s)))
        else rxWork p o s
      else s := rfl

theorem rxWork_sys (p : LPort) (o : RxObs) (s : State) : (rxWork p o s).sys = s.sys := by
  simp [rxWork]

theorem rxWork_lock (p : LPort) (o : RxObs) (s : State) : (rxWork p o s).ports[p].sf.lock = s.ports[p].sf.lock := by
  simp only [rxWork, idleCounts_keeps, steerMate_sf, poolBoundary_keeps, nlcRxBoundary_sf, takeTaps_sf, takeDgd_sf,
    trackCd_sf, takeEstimates_sf, modSf_ports, vmod_same]

theorem rxLockedWork_sys (p : LPort) (o : RxObs) (s : State) : (rxLockedWork p o s).sys = s.sys := by
  simp only [rxLockedWork]
  split <;> simp

/-- The receive boundary of a port with lock ends with the snapshots, of a state with the reports that waited before. -/
theorem rxSuperframeBoundary_locked (p : LPort) (o : RxObs) (s : State) (hon : isOn s (.ld p) = true)
    (hst : s.ports[p].tr.state ≠ .down) (hlock : s.ports[p].sf.lock = true) :
    rxSuperframeBoundary p o s = takeReports (rxRef p) (snapshot p (rxLockedWork p o (rxWork p o s))) := by
  have hl : (rxWork p o s).ports[p].sf.lock = true := (rxWork_lock p o s).trans hlock
  rw [rxSuperframeBoundary_eq, if_pos (by simpa [hon] using hst), if_pos hl]

/-! ### The work of a transmit boundary -/

/-- What a transmit boundary does before the reports that wait for it are answered. -/
def txWork (p : LPort) (o : TxObs) (s : State) : State :=
  if isOn s (.ld p) then
    let s := txBegin p o (txEnd p o (heldStep p s))
    if s.ports[p].sf.lock then s else snapshot p s
  else adcMeasure p o.levels o.adcClips (heldStep p s)

/-- The held counts change nothing of the power states. -/
theorem heldStep_isOn (p : LPort) (s : State) (d : Dom) : isOn (heldStep p s) d = isOn s d := by
  cases d <;> simp [isOn, domSt]

theorem txSuperframeBoundary_eq (p : LPort) (o : TxObs) (s : State) :
    txSuperframeBoundary p o s = takeReports (txRef p) (txWork p o s) := by
  simp only [txSuperframeBoundary, heldStep_isOn, txWork, txSnapshots]
  split <;> rfl

theorem txWork_sys (p : LPort) (o : TxObs) (s : State) : (txWork p o s).sys = s.sys := by
  simp only [txWork]
  repeat' split
  all_goals simp

/-! ### Answering the reports that wait -/

/-- A boundary that no report waits for changes nothing. -/
theorem takeReports_none (ref : RefCode) (s : State) (h : s.sys.reports.filter (reportDue ref s) = []) :
    takeReports ref s = s := by
  simp [takeReports, h, eachOf, modSys]

end Sys2Proof.Machine

open Sys2Proof Sys2Proof.Machine

/-- Settles O58: a boundary ends in `takeReports`, which answers the due reports in order, and the work before it leaves the
list of waiting reports as it was. -/
theorem waitingReportsAnswered : Obligations.WaitingReportsAnswered := by
  intro ref s
  refine ⟨takeReports_none ref s, rfl, ?_, ?_, ?_, fun p => ⟨fun o _ => ?_, fun o hon hst hlock _ => ?_⟩⟩
  · intro r t h
    simp [takeReport, h, sysStatusAnswer, answerReply]
  · intro r t p h hp hsec hon
    subst hp
    simp [takeReport, h, lineStatusAnswer, hsec, answerReply, lpsReport, hon]
  · intro r t h
    simp [takeReport, h, dialTimeAnswer, answerReply]
  · exact ⟨txWork p o s, congrArg Host.Outcome.next (txSuperframeBoundary_eq p o s), congrArg _ (txWork_sys p o s)⟩
  · refine ⟨_, congrArg Host.Outcome.next (rxSuperframeBoundary_locked p o s hon hst hlock), ?_⟩
    rw [rxLockedWork_sys, rxWork_sys]
end

section
/-! PROOF. What differs between two states: transitivity, and the updates of one part. -/

namespace Sys2Proof.Machine

theorem only_trans {xs : List Claims.Part} {s t u : State} (h : Claims.Only xs s t) (h' : Claims.Only xs t u) :
    Claims.Only xs s u := by
  intro x hx
  have h1 := h x hx
  have h2 := h' x hx
  cases x <;> exact Eq.trans h2 h1

theorem only_mono {xs ys : List Claims.Part} {s t : State} (h : Claims.Only xs s t) (hsub : xs ⊆ ys) :
    Claims.Only ys s t :=
  fun x hx => h x fun hxs => hx (hsub hxs)

theorem modSys_only (f : Sys → Sys) (s : State) : Claims.Only [.sys] s (modSys f s) := by
  intro x hx
  cases x <;> simp_all [Claims.Same]

theorem modMbx_only (f : Mbx → Mbx) (s : State) : Claims.Only [.mbx] s (modMbx f s) := by
  intro x hx
  cases x <;> simp_all [Claims.Same]

theorem setBulk_only (m : List Host.Cell) (s : State) : Claims.Only [.bulk] s { s with bulk := m } := by
  intro x hx
  cases x <;> simp_all [Claims.Same]

end Sys2Proof.Machine
end

section
/-! PROOF. Reading back the fields of a word that `word` puts together. -/

namespace Sys2Proof.Machine

/-- What a field adds to a word. -/
def fieldValue (f : Nat × Nat × Nat) : Nat := f.2.2 % 2 ^ (f.1 + 1 - f.2.1) * 2 ^ f.2.1

/-- Fields that lie below bit `n`, from the top down, and do not overlap. -/
def fieldsBelow : Nat → List (Nat × Nat × Nat) → Bool
  | _, [] => true
  | n, f :: fs => decide (f.1 < n) && decide (f.2.1 ≤ f.1) && fieldsBelow f.2.1 fs

theorem fieldsBelow_cons (n hi lo v : Nat) (fs : List (Nat × Nat × Nat)) :
    fieldsBelow n ((hi, lo, v) :: fs) = true ↔ hi < n ∧ lo ≤ hi ∧ fieldsBelow lo fs = true := by
  simp [fieldsBelow, and_assoc]

/-- A word is the sum of its fields. -/
theorem word_eq_sum (fs : List (Nat × Nat × Nat)) : word fs = BitVec.ofNat 32 (fs.map fieldValue).sum := by
  have h : ∀ (l : List (Nat × Nat × Nat)) (a : Nat),
      l.foldl (fun a f => a + f.2.2 % 2 ^ (f.1 + 1 - f.2.1) * 2 ^ f.2.1) a = a + (l.map fieldValue).sum := by
    intro l
    induction l with
    | nil => simp
    | cons f l ih => intro a; simp [ih, fieldValue, Nat.add_assoc]
  simp [word, h]

theorem sum_fields_lt (n : Nat) (fs : List (Nat × Nat × Nat)) (h : fieldsBelow n fs = true) :
    (fs.map fieldValue).sum < 2 ^ n := by
  induction fs generalizing n with
  | nil => simp
  | cons f fs ih =>
    obtain ⟨hi, lo, v⟩ := f
    obtain ⟨hn, hlo, hfs⟩ := (fieldsBelow_cons n hi lo v fs).mp h
    have hrest := ih lo hfs
    have hfield : v % 2 ^ (hi + 1 - lo) + 1 ≤ 2 ^ (hi + 1 - lo) := Nat.mod_lt _ (by positivity)
    calc ((hi, lo, v) :: fs |>.map fieldValue).sum
        = v % 2 ^ (hi + 1 - lo) * 2 ^ lo + (fs.map fieldValue).sum := rfl
      _ < (v % 2 ^ (hi + 1 - lo) + 1) * 2 ^ lo := by rw [Nat.add_one_mul]; omega
      _ ≤ 2 ^ (hi + 1 - lo) * 2 ^ lo := Nat.mul_le_mul_right _ hfield
      _ = 2 ^ (hi + 1) := by rw [← Nat.pow_add]; congr 1; omega
      _ ≤ 2 ^ n := Nat.pow_le_pow_right (by decide) hn

theorem hi_lt_of_mem (n hi lo v : Nat) (fs : List (Nat × Nat × Nat)) (h : fieldsBelow n fs = true)
    (hmem : (hi, lo, v) ∈ fs) : hi < n ∧ lo ≤ hi := by
  induction fs generalizing n with
  | nil => simp at hmem
  | cons f fs ih =>
    obtain ⟨hi', lo', v'⟩ := f
    obtain ⟨hn, hlo, hfs⟩ := (fieldsBelow_cons n hi' lo' v' fs).mp h
    rcases List.mem_cons.mp hmem with heq | htail
    · cases heq
      exact ⟨hn, hlo⟩
    · have := ih lo' hfs htail
      omega

theorem sum_fields_field (n hi lo v : Nat) (fs : List (Nat × Nat × Nat)) (h : fieldsBelow n fs = true)
    (hmem : (hi, lo, v) ∈ fs) :
    (fs.map fieldValue).sum / 2 ^ lo % 2 ^ (hi + 1 - lo) = v % 2 ^ (hi + 1 - lo) := by
  induction fs generalizing n with
  | nil => simp at hmem
  | cons f fs ih =>
    obtain ⟨hi', lo', v'⟩ := f
    obtain ⟨hn, hlo, hfs⟩ := (fieldsBelow_cons n hi' lo' v' fs).mp h
    have hsum : (((hi', lo', v') :: fs).map fieldValue).sum =
        v' % 2 ^ (hi' + 1 - lo') * 2 ^ lo' + (fs.map fieldValue).sum := rfl
    rcases List.mem_cons.mp hmem with heq | htail
    · cases heq
      rw [hsum, Nat.add_comm, Nat.add_mul_div_right _ _ (by positivity),
        Nat.div_eq_of_lt (sum_fields_lt lo fs hfs), Nat.zero_add, Nat.mod_mod]
    · have hbelow := hi_lt_of_mem lo' hi lo v fs hfs htail
      have hpow : 2 ^ lo' = 2 ^ (lo' - (hi + 1)) * 2 ^ (hi + 1 - lo) * 2 ^ lo := by
        rw [← Nat.pow_add, ← Nat.pow_add]; congr 1; omega
      rw [hsum, Nat.add_comm, hpow, ← Nat.mul_assoc, Nat.add_mul_div_right _ _ (by positivity), ← Nat.mul_assoc,
        Nat.add_mul_mod_self_right, ih lo' hfs htail]

/-- A field of a word whose fields do not overlap reads back its value, modulo its width. -/
theorem fld_word (hi lo v : Nat) (fs : List (Nat × Nat × Nat)) (h : fieldsBelow 32 fs = true)
    (hmem : (hi, lo, v) ∈ fs) : fld (word fs) hi lo = v % 2 ^ (hi + 1 - lo) := by
  rw [fld, word_eq_sum, BitVec.toNat_ofNat, Nat.mod_eq_of_lt (sum_fields_lt 32 fs h)]
  exact sum_fields_field 32 hi lo v fs h hmem

/-- A field of zero adds nothing. -/
theorem word_append_zero (fs : List (Nat × Nat × Nat)) (hi lo : Nat) : word (fs ++ [(hi, lo, 0)]) = word fs := by
  simp [word_eq_sum, fieldValue]

/-- A flag of a word whose fields do not overlap reads back as it is. -/
theorem bit_word (i : Nat) (b : Bool) (fs : List (Nat × Nat × Nat)) (h : fieldsBelow 32 fs = true)
    (hmem : (i, i, b2n b) ∈ fs) : bit (word fs) i = b := by
  have hfld := fld_word i i (b2n b) fs h hmem
  have hbit : bit (word fs) i = (fld (word fs) i i == 1) := by simp [bit, fld]
  rw [hbit, hfld, Nat.add_sub_cancel_left]
  cases b <;> rfl

end Sys2Proof.Machine
end

section
/-! PROOF. How a report runs (R13, R349), and O21: LINE_STATUS and LINE_PM_READ. -/

namespace Sys2Proof.Machine

/-! ### Checks and reports -/

theorem bulkBad_eq_false (off n : Nat) (h : off + n ≤ bulkWords) : bulkBad off n = false :=
  decide_eq_false (Nat.not_lt.mpr h)

/-- One parameter check that passes. -/
theorem firstFail_badAt_one (b : Bool) (i : Nat) (h : b = false) : firstFail [badAt [(b, i)]] = none :=
  firstFail_badAt [(b, i)] [] (by simp [h])

/-- A command that is a report, whose check passes and whose domains are ON, does what a report does. -/
theorem reports_of_report (c : Instr) (place : ReportAt) (op : Nat) (rq : Req) (cs : List (Bool × Answer))
    (answer : State → State) (s : State) (hexec : exec c s = .next (report place op rq cs answer s))
    (hc : firstFail cs = none) (hd : Claims.Awake op rq s) : Claims.Reports c place op rq (answer s) s := by
  have hrun : exec c s = .next (awaitReport place op rq answer s) := by
    rw [hexec, report_runs place op rq cs answer s hc hd]
  constructor
  · intro hoff
    rw [Claims.Runs, hrun, awaitReport_now place op rq answer s hoff]
  · intro hon
    rw [Claims.Runs, hrun, awaitReport_waits place op rq answer s hon]

/-- An answer of `n` words in bulk memory returns their number (R351). -/
theorem answerBulk_eq (op : Nat) (rq : Req) (off : Nat) (words : State → List Word) (s : State) (n : Nat)
    (h : (words s).length = n) :
    answerBulk op rq off words s = reply op rq (okay [wd n]) (putBulk off (words s) s) := by
  subst h; rfl

/-! ### LINE_STATUS -/

/-- The ten words of a port whose line logic is not ON are zero (R131). -/
theorem lpsWords_off (s : State) (p : LPort) (seq : BitVec 16) (h : isOn s (.ld p) = false) :
    lpsWords s p seq = List.replicate 10 0 := by
  simp [lpsWords, h]

theorem tapWords_length (s : State) (p : LPort) : (tapWords s p).length = 252 := by
  simp [tapWords]

/-- Tap `k` of filter `f` is reported when EQ_TAPS, centred on tap 31, holds it (R132). -/
theorem tapWords_getElem? (s : State) (p : LPort) (f k : Nat) (hf : f < 4) (hk : k < 63) :
    (tapWords s p)[63 * f + k]? = some (
      if k + eqTaps s.ports[p].rx / 2 < 31 ∨ 31 + eqTaps s.ports[p].rx / 2 < k then 0
      else s.ports[p].rx.taps.getD (63 * f + k) 0) := by
  have hmod : (63 * f + k) % 63 = k := by omega
  have hlt : 63 * f + k < 252 := by omega
  simp [tapWords, List.getElem?_range hlt, hmod]

/-- A LINE_STATUS of a section that exists, with its area in bulk memory, waits for its boundary. -/
theorem lineStatus_reports (rq : Req) (s : State) (place : ReportAt)
    (hplace : place = if pf rq 0 29 24 == 2 then .tx (pport rq 0) else .port (pport rq 0)) (hsec : pf rq 0 29 24 ≤ 3)
    (hbulk : pf rq 0 29 24 = 1 → pf rq 0 23 0 + 252 ≤ bulkWords) :
    Claims.Reports (.lineStatus rq) place 0x2005 rq (lineStatusAnswer rq s) s := by
  subst hplace
  refine reports_of_report _ _ _ _ _ _ _ rfl (firstFail_badAt_one _ _ ?_) (fun d hd => nomatch hd)
  by_cases h1 : pf rq 0 29 24 = 1
  · simp [h1, bulkBad_eq_false _ _ (hbulk h1)]
  · simp [h1, hsec]

theorem lineStatusCompletes : Claims.LineStatusCompletes := by
  intro rq s p
  refine ⟨fun h => ⟨lpsReport s p, ?_, ?_, ?_⟩, fun h hb => ⟨tapWords s p, tapWords_length s p, ?_, ?_⟩,
    fun h => ⟨txReport s p, rfl, rfl, rfl, ?_⟩, fun h => ⟨frontReport s p, rfl, rfl, rfl, ?_⟩⟩
  · simpa [lineStatusAnswer, h, answerReply] using lineStatus_reports rq s (.port p) (by simp [h, p]) (by omega) (by omega)
  · intro hon
    simp [lpsReport, hon]
  · intro hoff
    simp [lpsReport, hoff, lpsWords_off]
  · exact fun f k hf hk => tapWords_getElem? s p f k hf hk
  · have hans : lineStatusAnswer rq s = reply 0x2005 rq (okay [252]) (putBulk (pf rq 0 23 0) (tapWords s p) s) := by
      rw [lineStatusAnswer, h]
      exact answerBulk_eq _ _ _ _ s 252 (tapWords_length s p)
    exact hans ▸ lineStatus_reports rq s (.port p) (by simp [h, p]) (by omega) (fun _ => hb)
  · simpa [lineStatusAnswer, h, answerReply] using lineStatus_reports rq s (.tx p) (by simp [h, p]) (by omega) (by omega)
  · simpa [lineStatusAnswer, h, answerReply] using lineStatus_reports rq s (.port p) (by simp [h, p]) (by omega) (by omega)

/-! ### LINE_PM_READ -/

theorem pmWords_length (s : State) (p : LPort) : (pmWords s p).length = 37 := by
  simp [pmWords, two, List.length_flatMap]

theorem linePmReadCompletes : Claims.LinePmReadCompletes := by
  intro rq s hzero hb x
  refine ⟨pmWords s (pport rq 0), pmWords_length s _, rfl, rfl, ?_⟩
  have hans : linePmAnswer rq s = reply 0x2006 rq (okay [37]) (putBulk (pf rq 0 23 0) (pmWords s (pport rq 0)) s) :=
    answerBulk_eq _ _ _ _ s 37 (pmWords_length s _)
  exact hans ▸ reports_of_report (.linePmRead rq) _ _ _ _ (linePmAnswer rq) s rfl
    (firstFail_badAt_one _ _ (by simp [hzero, bulkBad_eq_false _ _ hb])) (fun d hd => nomatch hd)

end Sys2Proof.Machine

open Sys2Proof Sys2Proof.Machine

/-- Settles O21: both commands are reports whose checks pass, so each waits for its boundary, and the words of each section
are those of the model's own reports. -/
theorem lineReportsComplete : Obligations.LineReportsComplete := ⟨lineStatusCompletes, linePmReadCompletes⟩
end

section
/-! PROOF. O38: CAL_STATUS, CAL_TABLE_READ and CAL_TABLE_WRITE (R326, R334 to R336). -/

namespace Sys2Proof.Machine

/-! ### CAL_TABLE_READ -/

theorem calBlock_working_head (c : Cal) (i : Fin 8) :
    (calBlock c true i).getD 0 0 = word [(31, 24, 1), (20, 20, 1), (19, 19, 1)] := by
  simp only [calBlock, if_true, List.cons_append, List.getD_cons_zero]

theorem calBlock_point_head (c : Cal) (i : Fin 8) :
    (calBlock c false i).getD 0 0 = word [(31, 24, 1), (23, 21, i.val), (20, 20, b2n c.points[i].valid)] := by
  simp only [calBlock, Bool.false_eq_true, if_false, List.cons_append, List.getD_cons_zero]

/-- The first word of a calibration block: its version, and bit 19 for the working values (R334). -/
theorem calBlock_head (c : Cal) (working : Bool) (i : Fin 8) :
    fld ((calBlock c working i).getD 0 0) 31 24 = 1 ∧ bit ((calBlock c working i).getD 0 0) 19 = working := by
  cases working
  · rw [calBlock_point_head]
    refine ⟨fld_word 31 24 1 _ rfl List.mem_cons_self, ?_⟩
    rw [← word_append_zero _ 19 19]
    exact bit_word 19 false _ rfl (by simp [b2n])
  · rw [calBlock_working_head]
    exact ⟨fld_word 31 24 1 _ rfl List.mem_cons_self, bit_word 19 true _ rfl (by simp [b2n])⟩

theorem calBody_length (v : CalVals) : (calBody v).length = 780 := by
  simp [calBody]

/-- A calibration block is 782 words and their CRC (R334). -/
theorem calBlock_crc (c : Cal) (working : Bool) (i : Fin 8) :
    ∃ ws, ws.length = 782 ∧ calBlock c working i = ws ++ [crc32c ws] := by
  cases working <;> exact ⟨_, by simp [calBody_length], rfl⟩

theorem calBlock_length (c : Cal) (working : Bool) (i : Fin 8) : (calBlock c working i).length = 783 := by
  obtain ⟨ws, hlen, heq⟩ := calBlock_crc c working i
  simp [heq, hlen]

theorem calBlock_last (c : Cal) (working : Bool) (i : Fin 8) :
    (calBlock c working i)[782]? = some (crc32c ((calBlock c working i).take 782)) := by
  obtain ⟨ws, hlen, heq⟩ := calBlock_crc c working i
  simp [heq, ← hlen]

/-! ### CAL_STATUS -/

theorem CalRunKind.code_lt (k : CalRunKind) : k.code < 4 := by cases k <;> decide

/-- The first word of CAL_STATUS (R336). -/
theorem calReport_head (s : State) (p : LPort) :
    let w := (calReport s p).getD 0 0
    fld w 31 30 = s.ports[p].cal.run.code ∧ fld w 29 28 = s.ports[p].cal.last.toNat ∧
      bit w 23 = s.ports[p].cal.auto ∧ bit w 25 = alarmOn s (.conv p) 4 := by
  refine ⟨?_, ?_, bit_word 23 _ _ rfl (by simp), bit_word 25 _ _ rfl (by simp)⟩
  · exact (fld_word 31 30 _ _ rfl List.mem_cons_self).trans (Nat.mod_eq_of_lt (CalRunKind.code_lt _))
  · exact (fld_word 29 28 s.ports[p].cal.last.toNat _ rfl (by simp)).trans (Nat.mod_eq_of_lt (BitVec.isLt _))

theorem calReportsComplete : Claims.CalReportsComplete := by
  intro rq s
  refine ⟨fun hd hzero hb => ?_, fun hzero => ?_⟩
  · have hans : calReadAnswer rq s = reply 0x7003 rq (okay [783]) (putBulk (pf rq 0 23 0)
        (calBlock s.ports[pport rq 0].cal (bit (par rq 0) 26) (Fin.ofNat 8 (pf rq 0 29 27))) s) :=
      answerBulk_eq _ _ _ _ s 783 (calBlock_length _ _ _)
    obtain ⟨hversion, hworking⟩ :=
      calBlock_head s.ports[pport rq 0].cal (bit (par rq 0) 26) (Fin.ofNat 8 (pf rq 0 29 27))
    exact ⟨_, calBlock_length _ _ _, calBlock_last _ _ _, hversion, hworking,
      hans ▸ reports_of_report (.calTableRead rq) _ _ _ _ (calReadAnswer rq) s rfl
        (firstFail_badAt_one _ _ (by simp [hzero, bulkBad_eq_false _ _ hb])) hd⟩
  · obtain ⟨hrun, hlast, hauto, halarm⟩ := calReport_head s (pport rq 0)
    exact ⟨calReport s (pport rq 0), rfl, rfl, hrun, hlast, hauto, halarm,
      reports_of_report (.calStatus rq) _ _ _ _ (calStatusAnswer rq) s rfl
        (firstFail_badAt_one _ _ (by simp [hzero])) (fun d hd => nomatch hd)⟩

/-! ### CAL_TABLE_WRITE -/

/-- Every value of a set that is mapped to zero is zero. -/
theorem calEntries_zero (v : CalVals) : ∀ e ∈ calEntries (calMap1 (fun _ _ => 0) v), e.2 = 0 := by
  have hlist : ∀ (k : Nat) (l : List Int), ∀ e ∈ (l.zipIdx.map fun _ => (0 : Int)).map (k, ·), e.2 = 0 := by
    intro k l e he
    obtain ⟨x, hx, rfl⟩ := List.mem_map.mp he
    obtain ⟨_, _, rfl⟩ := List.mem_map.mp hx
    rfl
  simp only [calEntries, List.forall_mem_append]
  exact ⟨⟨⟨⟨⟨⟨hlist 0 _, hlist 1 _⟩, hlist 2 _⟩, by simp [calMap1, calMap2]⟩, hlist 4 _⟩, hlist 5 _⟩,
    by simp [calMap1, calMap2]⟩

/-- A Regulator with its targets evaluated again; the working values follow unless the port's line logic is ON (R330). -/
def Cal.retargeted (ld : Bool) (c : Cal) : Cal :=
  { c with target := calTargets c, working := if ld then c.working else calTargets c }

theorem calRetarget_eq (p : LPort) (s : State) : calRetarget p s = modCal p (Cal.retargeted (isOn s (.ld p))) s := rfl

/-- The targets depend on neither the targets nor the working values in force. -/
theorem calTargets_retargeted (ld : Bool) (c : Cal) : calTargets (c.retargeted ld) = calTargets c := rfl

/-- The point that a CAL_TABLE_WRITE of the block `ws` leaves (R335). -/
def calWritten (ps ws : List Word) (x : CalPoint) : CalPoint :=
  if bit (ps.getD 0 0) 26 then { x with valid := false }
  else { x with valid := true, tRun := 0, vals := calParse ws }

/-- The Regulator that a CAL_TABLE_WRITE leaves, but for the targets and the working values. -/
def calWriteCal (ps ws : List Word) (c : Cal) : Cal :=
  let i : Fin 8 := Fin.ofNat 8 (fld (ps.getD 0 0) 29 27)
  { c with points := vset c.points i (calWritten ps ws c.points[i]), resid := calMap1 (fun _ _ => 0) c.resid }

/-- CAL_TABLE_WRITE changes the Regulator of its port and evaluates the targets again. -/
theorem calWriteApply_eq (rq : Req) (ws : List Word) (s : State) :
    calWriteApply rq.params ws s = calRetarget (pport rq 0) (modCal (pport rq 0) (calWriteCal rq.params ws) s) := rfl

/-- A change of a Regulator leaves the power states. -/
theorem modCal_isOn (p : LPort) (f : Cal → Cal) (s : State) (d : Dom) : isOn (modCal p f s) d = isOn s d := by
  cases d <;> rfl

/-- The Regulator of the port after a CAL_TABLE_WRITE. -/
theorem calWriteApply_cal (rq : Req) (ws : List Word) (s : State) :
    (calWriteApply rq.params ws s).ports[pport rq 0].cal =
      (calWriteCal rq.params ws s.ports[pport rq 0].cal).retargeted (isOn s (.ld (pport rq 0))) := by
  simp only [calWriteApply_eq, calRetarget_eq, modCal_isOn, modCal_ports, vmod_same]

/-- A CAL_TABLE_WRITE outside TRAFFIC changes nothing but the ports. -/
theorem calWriteApply_only (ps ws : List Word) (s : State) : Claims.Only [.ports] s (calWriteApply ps ws s) := by
  intro x hx
  cases x <;> simp_all [Claims.Same]

/-- CAL_TABLE_WRITE once its checks have passed. -/
theorem calTableWrite_ready (rq : Req) (s : State) (hd : Claims.Awake 0x7004 rq s)
    (hc : firstFail (calWriteChecks rq.params (calWriteData rq.params s)) = none)
    (hs : firstFail (calWriteStates rq.params (calWriteData rq.params s) s) = none) :
    calTableWrite rq s =
      if s.ports[pport rq 0].tr.state == .traffic then
        enterImplicit 0x7004 rq rq.params (calWriteData rq.params s) (calRef s (pport rq 0)) s
      else reply 0x7004 rq (okay []) (calWriteApply rq.params (calWriteData rq.params s) s) := by
  rw [calTableWrite, command_runs 0x7004 rq _ _ _ s hc hd hs]

/-- An entry into the Dial appends the event with its place in the pool, and changes nothing but the Dial. -/
theorem enterEvent_evs (e : DialEv) (s : State) : ∃ i u n, (enterEvent e s).dial.evs =
    s.dial.evs ++ [{ e with idx := i, use := u, seq := n }] := ⟨_, _, _, rfl⟩

theorem enterEvent_only (e : DialEv) (s : State) : Claims.Only [.dial, .free] s (enterEvent e s) := by
  intro x hx
  cases x <;> simp_all [Claims.Same]

/-- An implicit schedule with room in the pool enters its event, and the command is taken. -/
theorem enterImplicit_taken (op : Nat) (rq : Req) (ps data : List Word) (r : RefCode) (s : State)
    (hroom : poolFull s = false) (hsrc : rq.src ≠ .blob) :
    enterImplicit op rq ps data r s = taken rq (enterEvent (implicitEvent s op rq ps data r) s) := by
  simp [enterImplicit, hroom, hsrc]

/-- Outside TRAFFIC, CAL_TABLE_WRITE acts at once. -/
theorem calTableWrite_now (rq : Req) (s : State) (hd : Claims.Awake 0x7004 rq s)
    (hc : firstFail (calWriteChecks rq.params (calWriteData rq.params s)) = none)
    (hs : firstFail (calWriteStates rq.params (calWriteData rq.params s) s) = none)
    (hst : s.ports[pport rq 0].tr.state ≠ .traffic) :
    Claims.Runs (.calTableWrite rq) s (reply 0x7004 rq (okay []) (calWriteApply rq.params (calWriteData rq.params s) s)) :=
  congrArg Host.Outcome.next ((calTableWrite_ready rq s hd hc hs).trans (if_neg (by simpa using hst)))

/-- In TRAFFIC, CAL_TABLE_WRITE enters an event. -/
theorem calTableWrite_scheduled (rq : Req) (s : State) (hd : Claims.Awake 0x7004 rq s)
    (hc : firstFail (calWriteChecks rq.params (calWriteData rq.params s)) = none)
    (hs : firstFail (calWriteStates rq.params (calWriteData rq.params s) s) = none)
    (hst : s.ports[pport rq 0].tr.state = .traffic) (hroom : poolFull s = false) (hsrc : rq.src ≠ .blob) :
    Claims.Runs (.calTableWrite rq) s (taken rq (enterEvent
      (implicitEvent s 0x7004 rq rq.params (calWriteData rq.params s) (calRef s (pport rq 0))) s)) := by
  refine congrArg Host.Outcome.next ((calTableWrite_ready rq s hd hc hs).trans ?_)
  rw [if_pos (by simpa using hst), enterImplicit_taken _ _ _ _ _ _ hroom hsrc]

theorem calTableWriteCompletes : Claims.CalTableWriteCompletes := by
  intro rq s p i hp hi hd hc hs
  subst hp hi
  refine ⟨fun hst => ?_, fun hst hroom hsrc => ?_⟩
  · refine ⟨_, calTableWrite_now rq s hd hc hs hst, calWriteApply_only _ _ s, ?_⟩
    rw [calWriteApply_cal]
    refine ⟨fun hinv => ?_, fun hinv => ?_, fun j hj => vset_other _ _ _ _ hj, calEntries_zero _,
      (calTargets_retargeted _ _).symm, rfl⟩
    · refine (vset_same _ _ _).trans ?_
      exact if_pos hinv
    · refine (vset_same _ _ _).trans ?_
      rw [calWritten, if_neg (by simpa [par] using hinv), calWriteData, if_neg (by simpa [par] using hinv)]
      rfl
  · obtain ⟨idx, use, seq, hevs⟩ := enterEvent_evs
      (implicitEvent s 0x7004 rq rq.params (calWriteData rq.params s) (calRef s (pport rq 0))) s
    refine ⟨_, rfl, rfl, rfl, rfl, rfl, rfl, if_neg (by simpa using hsrc), _,
      calTableWrite_scheduled rq s hd hc hs hst hroom hsrc, hevs, by simp, enterEvent_only _ s⟩

end Sys2Proof.Machine

open Sys2Proof Sys2Proof.Machine

/-- Settles O38: the two reports wait for their boundary with the model's own words, and a write either changes the Regulator
at once or enters its event into the Dial. -/
theorem calTablesComplete : Obligations.CalTablesComplete := ⟨calReportsComplete, calTableWriteCompletes⟩
end

section
/-! PROOF. O48: the register accesses of a management port (R7, R11, R131, R350, R386 to R390, R393, R399, R445). -/

namespace Sys2Proof.Machine

/-! ### Front ends -/

theorem modFe_only (who : HostPort) (f : FrontEnd → FrontEnd) (s : State) : Claims.Only [.twi] s (modFe who f s) := by
  intro x hx
  cases x <;> simp_all [Claims.Same]

theorem feDone_only (who : HostPort) (addr : BitVec 16) (data : Word) (s : State) :
    Claims.Only [.twi] s (feDone who addr data s) := by
  intro x hx
  cases x <;> simp_all [Claims.Same]

theorem feOf_modFe (who : HostPort) (f : FrontEnd → FrontEnd) (s : State) :
    feOf (modFe who f s) who = f (feOf s who) := by
  cases who <;> rfl

/-- A port's front end after a word access that has completed (R386, R388). -/
theorem feOf_feDone (who : HostPort) (addr : BitVec 16) (data : Word) (s : State) :
    feOf (feDone who addr data s) who = { feOf s who with ptr := nextPtr addr, rdata := data, done := true } := by
  cases who <;> rfl

theorem access_serves (who : HostPort) (f : State → State) (s : State) (h : feServes s who = true) :
    access who f s = f s := if_pos h

theorem access_refuses (who : HostPort) (f : State → State) (s : State) (h : feServes s who = false) :
    access who f s = feRefuse who s := if_neg (by simp [h])

/-- A port that does not serve carries out no access. -/
theorem register_commands_refused (who : HostPort) (addr : BitVec 16) (w : Word) (s : State)
    (h : feServes s who = false) : ∀ c ∈ [Instr.registerRead who addr, .registerWrite who addr w, .mbxPost who 0 w,
      .mbxTake who 0, .mbxCtrlReset who 0 w, .lpsStatusRead who 0, .monResLoRead who 0, .counterLowRead who addr 0,
      .dlStart who], Claims.Runs c s (feRefuse who s) := by
  have hrun : ∀ f : State → State, Host.Outcome.next (access who f s) =
      (Host.Outcome.next (feRefuse who s) : Machine.Outcome) := fun f => by rw [access_refuses who f s h]
  simp only [List.forall_mem_cons]
  exact ⟨hrun _, hrun _, hrun _, hrun _, hrun _, hrun _, hrun _, hrun _, hrun _, fun _ h => nomatch h⟩

/-! ### Reads -/

/-- Every address below the bulk window is awake (R350). -/
theorem sleepsAt_register (s : State) (addr : BitVec 16) (h : addr.toNat < 0x8000) : sleepsAt s addr = false := by
  simp [sleepsAt, h]

theorem registerRead_awake (who : HostPort) (addr : BitVec 16) (s : State) (hserve : feServes s who = true)
    (hwake : sleepsAt s addr = false) :
    registerRead who addr s = feDone who addr (regRead who addr s).1 (regRead who addr s).2 := by
  simp [registerRead, access_serves, hserve, hwake]

/-- The addresses whose reads have side effects: the mailboxes' outbound words, MON.RES_LO and LPS.STATUS (R388). -/
theorem regRead_plain (who : HostPort) (addr : BitVec 16) (s : State)
    (hmbx : ¬ (0x108 ≤ addr.toNat ∧ addr.toNat < 0x110))
    (hlatch : ¬ (0x400 ≤ addr.toNat ∧ addr.toNat < 0x600 ∧ (addr.toNat < 0x430 ∧ addr.toNat % 2 = 0 ∨
      0x500 ≤ addr.toNat ∧ addr.toNat % 64 = 0))) : regRead who addr s = (readReg s who addr, s) := by
  have hlps : ¬ (0x500 ≤ addr.toNat ∧ addr.toNat < 0x600 ∧ addr.toNat % 0x40 = 0) := by omega
  have hres : ¬ (0x400 ≤ addr.toNat ∧ addr.toNat < 0x430 ∧ addr.toNat % 2 = 0) := by omega
  simp only [regRead]
  rw [if_neg (by simpa using hmbx), if_neg (by simpa [and_assoc] using hlps), if_neg (by simpa [and_assoc] using hres)]

theorem regRead_lps (who : HostPort) (p : LPort) (s : State) :
    regRead who (BitVec.ofNat 16 (0x500 + 0x40 * p.val)) s = readLpsStatus who p s := by
  have haddr : (BitVec.ofNat 16 (0x500 + 0x40 * p.val)).toNat = 0x500 + 0x40 * p.val := by
    rw [BitVec.toNat_ofNat]; omega
  have hp : Fin.ofNat 4 ((0x500 + 0x40 * p.val - 0x500) / 0x40) = p := Fin.ext (by simp [Fin.ofNat])
  simp only [regRead, haddr]
  rw [if_neg (by simp; omega), if_pos (by simp; omega), hp]

theorem regRead_resLo (who : HostPort) (c : Fin 24) (s : State) :
    regRead who (BitVec.ofNat 16 (0x400 + 2 * c.val)) s = readResLo who c s := by
  have haddr : (BitVec.ofNat 16 (0x400 + 2 * c.val)).toNat = 0x400 + 2 * c.val := by
    rw [BitVec.toNat_ofNat]; omega
  have hc : Fin.ofNat 24 ((0x400 + 2 * c.val - 0x400) / 2) = c := Fin.ext (by simp [Fin.ofNat])
  simp only [regRead, haddr]
  rw [if_neg (by simp; omega), if_neg (by simp; omega), if_pos (by simp; omega), hc]

/-- A read of a register without side effects changes the port alone (R388). -/
theorem registerRead_plain (who : HostPort) (addr : BitVec 16) (s : State) (hserve : feServes s who = true)
    (hwake : sleepsAt s addr = false) (hmbx : ¬ (0x108 ≤ addr.toNat ∧ addr.toNat < 0x110))
    (hlatch : ¬ (0x400 ≤ addr.toNat ∧ addr.toNat < 0x600 ∧ (addr.toNat < 0x430 ∧ addr.toNat % 2 = 0 ∨
      0x500 ≤ addr.toNat ∧ addr.toNat % 64 = 0))) :
    registerRead who addr s = feDone who addr (readReg s who addr) s := by
  rw [registerRead_awake who addr s hserve hwake, regRead_plain who addr s hmbx hlatch]

/-- A read of LPS.STATUS_n answers the first word of the port's copy and keeps the copy (R131). -/
theorem lpsStatusRead_latches (who : HostPort) (p : LPort) (s : State) (hserve : feServes s who = true) :
    ∃ t, Claims.Runs (.lpsStatusRead who p) s t ∧ Claims.Only [.twi] s t ∧
      (feOf t who).rdata = (lpsCopy s p)[0] ∧ (feOf t who).lps[p] = lpsCopy s p := by
  have hwake : sleepsAt s (BitVec.ofNat 16 (0x500 + 0x40 * p.val)) = false :=
    sleepsAt_register s _ (by rw [BitVec.toNat_ofNat]; omega)
  have hread := registerRead_awake who _ s hserve hwake
  rw [regRead_lps] at hread
  refine ⟨_, congrArg Host.Outcome.next hread, only_trans (modFe_only who _ s) (feDone_only who _ _ _), ?_, ?_⟩
  · rw [feOf_feDone]; rfl
  · rw [feOf_feDone, readLpsStatus, feOf_modFe]
    exact vset_same _ p _

/-- A read of MON.RES_LO_c answers it and latches the upper half (R445). -/
theorem monResLoRead_latches (who : HostPort) (c : Fin 24) (s : State) (hserve : feServes s who = true) :
    ∃ t, Claims.Runs (.monResLoRead who c) s t ∧ Claims.Only [.twi] s t ∧
      (feOf t who).rdata = regResLo s.mon.res[c] ∧ (feOf t who).monHi[c] = resHi s.mon.res[c] := by
  have hwake : sleepsAt s (BitVec.ofNat 16 (0x400 + 2 * c.val)) = false :=
    sleepsAt_register s _ (by rw [BitVec.toNat_ofNat]; omega)
  have hread := registerRead_awake who _ s hserve hwake
  rw [regRead_resLo] at hread
  refine ⟨_, congrArg Host.Outcome.next hread, only_trans (modFe_only who _ s) (feDone_only who _ _ _), ?_, ?_⟩
  · rw [feOf_feDone]; rfl
  · rw [feOf_feDone, readResLo, feOf_modFe]
    exact vset_same _ c _

/-- A read of a reserved address answers the upper half that the port has latched for it (R7, R11). -/
theorem readReg_latched (s : State) (who : HostPort) (addr : BitVec 16) (h : regDefined addr.toNat = false) :
    readReg s who addr = (((feOf s who).shadows.find? (·.1 == addr)).map (·.2)).getD 0 := by
  simp [readReg, h]

/-- A read of the lower half of a counter latches the upper half (R11); that it may name any address and any value is the
model's choice (log entry 156). -/
theorem counterLowRead_latches (who : HostPort) (addr : BitVec 16) (v : BitVec 64) (s : State)
    (hserve : feServes s who = true) :
    ∃ t, Claims.Runs (.counterLowRead who addr v) s t ∧ Claims.Only [.twi] s t ∧
      (feOf t who).rdata = v.setWidth 32 ∧
      (regDefined (addr + 1).toNat = false → readReg t who (addr + 1) = v.extractLsb' 32 32) := by
  refine ⟨_, congrArg Host.Outcome.next (access_serves who _ s hserve),
    only_trans (modFe_only who _ s) (feDone_only who _ _ _), ?_, fun hreserved => ?_⟩
  · rw [feOf_feDone]
  · rw [readReg_latched _ _ _ hreserved, feOf_feDone, feOf_modFe]
    simp

/-! ### Writes -/

theorem registerWrite_awake (who : HostPort) (addr : BitVec 16) (w : Word) (s : State) (hserve : feServes s who = true)
    (hwake : sleepsAt s addr = false) : registerWrite who addr w s = feDone who addr 0 (regWrite who addr w s) := by
  simp [registerWrite, access_serves, hserve, hwake]

/-- A word of the bulk window is stored (R350). -/
theorem regWrite_bulk (who : HostPort) (addr : BitVec 16) (w : Word) (s : State) (h : 0x8000 ≤ addr.toNat)
    (h4 : addr.toNat % 4 = 0) :
    regWrite who addr w s = { s with bulk := bulkPut s.bulk (bulkIndex s addr.toNat) w } := by
  simp [regWrite, h, h4]

/-- A write to an address without a register that writes reach changes nothing (R7). -/
theorem regWrite_ignored (who : HostPort) (addr : BitVec 16) (w : Word) (s : State)
    (h : (0x200 ≤ addr.toNat ∧ addr.toNat < 0x300) ∨ (0x400 ≤ addr.toNat ∧ addr.toNat < 0x8000)) :
    regWrite who addr w s = s := by
  simp only [regWrite]
  rw [if_neg (by omega), if_neg (by omega), if_neg (by omega), if_neg (by simp; omega)]

/-- A register write changes only what the write of its word changes, and the port. -/
theorem feDone_only_of (who : HostPort) (addr : BitVec 16) (data : Word) {x : Claims.Part} {s t : State}
    (h : Claims.Only [x] s t) : Claims.Only [.twi, x] s (feDone who addr data t) :=
  only_trans (only_mono h (by simp)) (only_mono (feDone_only who addr data t) (by simp))

/-- A write of a register takes effect, and nothing else changes but the port (R7, R8, R382, R384, R387). -/
theorem registerWrite_effect (who : HostPort) (addr : BitVec 16) (w : Word) (s : State) :
    let t := feDone who addr 0 (regWrite who addr w s)
    (0x8000 ≤ addr.toNat → addr.toNat % 4 = 0 → Claims.Only [.twi, .bulk] s t ∧
      t.bulk = bulkPut s.bulk (bulkIndex s addr.toNat) w) ∧
    (addr = 0x0008 → Claims.Only [.twi, .sys] s t ∧ t.sys = { s.sys with bulkPage := w.setWidth 4 }) ∧
    (addr = 0x0180 → Claims.Only [.twi, .mbx] s t ∧
      t.mbx.dbHost = ((s.mbx.dbHost &&& ~~~w) ||| wd (readyBits s.mbx))) ∧
    (addr = 0x0181 → Claims.Only [.twi, .mbx] s t ∧ t.mbx = { s.mbx with dbMask := w }) ∧
    ((0x200 ≤ addr.toNat ∧ addr.toNat < 0x300) ∨ (0x400 ≤ addr.toNat ∧ addr.toNat < 0x8000) → Claims.Only [.twi] s t) := by
  refine ⟨fun h h4 => ?_, fun h => ?_, fun h => ?_, fun h => ?_, fun h => ?_⟩
  · rw [regWrite_bulk who addr w s h h4]
    exact ⟨feDone_only_of who addr 0 (setBulk_only _ s), by simp⟩
  · subst h
    exact ⟨feDone_only_of who _ 0 (modSys_only _ s), by simp [regWrite]⟩
  · subst h
    exact ⟨feDone_only_of who _ 0 (modMbx_only _ s), by simp [regWrite, writeMbx]⟩
  · subst h
    exact ⟨feDone_only_of who _ 0 (modMbx_only _ s), by simp [regWrite, writeMbx]⟩
  · rw [regWrite_ignored who addr w s h]
    exact feDone_only who addr 0 s

/-! ### Accesses to a sleeping CTL -/

/-- The first access to a sleeping CTL begins its wake (R421). -/
theorem wakeCtl_wakes (s : State) (h : (isOn s .ctl && !inDown s .ctl) = false) :
    (wakeCtl s).power.accessWakes.contains .ctl = true := by
  unfold wakeCtl
  rw [h, Bool.false_or]
  split
  · assumption
  · simp

theorem sleepsAt_ctl (s : State) (addr : BitVec 16) (h : sleepsAt s addr = true) :
    (isOn s .ctl && !inDown s .ctl) = false := by
  simp only [sleepsAt, Bool.and_eq_true] at h
  cases hon : isOn s .ctl <;> simp_all

/-- The wake of CTL is no longer or shorter for having begun. -/
theorem longWake_wakeCtl (s : State) : longWake (wakeCtl s) = longWake s := by
  unfold wakeCtl
  split <;> rfl

theorem registerRead_asleep (who : HostPort) (addr : BitVec 16) (s : State) (hserve : feServes s who = true)
    (hsleep : sleepsAt s addr = true) : registerRead who addr s = sleepAccess who addr none s := by
  simp [registerRead, access_serves, hserve, hsleep]

theorem registerWrite_asleep (who : HostPort) (addr : BitVec 16) (w : Word) (s : State) (hserve : feServes s who = true)
    (hsleep : sleepsAt s addr = true) : registerWrite who addr w s = sleepAccess who addr (some w) s := by
  simp [registerWrite, access_serves, hserve, hsleep]

/-- What an access to a sleeping CTL changes. -/
theorem sleepAccess_only (who : HostPort) (addr : BitVec 16) (w : Option Word) (s : State) :
    Claims.Only [.twi, .power] s (sleepAccess who addr w s) := by
  intro x hx
  cases x <;> simp_all [Claims.Same]

/-- On TWI an access to a sleeping CTL stalls, unless its wake is long (R393). -/
theorem sleepAccess_twi (addr : BitVec 16) (w : Option Word) (s : State) (h : longWake s = false) :
    sleepAccess .twi addr w s =
      modFe .twi (fun f => { f with stall := some { dom := .ctl, addr := addr, w := w }, done := false }) (wakeCtl s) := by
  simp [sleepAccess, longWake_wakeCtl, h]

end Sys2Proof.Machine

open Sys2Proof Sys2Proof.Machine

/-- Settles O48: a port that does not serve refuses every access; the others go by the address, whether CTL sleeps there and
what the word does. -/
theorem registerAccessesComplete : Obligations.RegisterAccessesComplete := by
  intro who addr w s
  refine ⟨register_commands_refused who addr w s, fun hserve => ⟨fun hwake hmbx hlatch => ?_, fun hwake => ?_,
    fun p => lpsStatusRead_latches who p s hserve, fun c => monResLoRead_latches who c s hserve,
    fun v => counterLowRead_latches who addr v s hserve, fun hsleep htwi hshort => ?_, fun hsleep hmspi => ?_⟩⟩
  · refine ⟨_, congrArg Host.Outcome.next (registerRead_plain who addr s hserve hwake hmbx hlatch),
      feDone_only who addr _ s, ?_⟩
    simp [feOf_feDone]
  · refine ⟨_, congrArg Host.Outcome.next (registerWrite_awake who addr w s hserve hwake), ?_, ?_,
      registerWrite_effect who addr w s⟩ <;> rw [feOf_feDone]
  · subst htwi
    refine ⟨_, congrArg Host.Outcome.next (registerRead_asleep .twi addr s hserve hsleep), sleepAccess_only _ _ _ s, ?_⟩
    rw [sleepAccess_twi addr none s hshort]
    exact ⟨rfl, by simpa using wakeCtl_wakes s (sleepsAt_ctl s addr hsleep)⟩
  · subst hmspi
    refine ⟨_, congrArg Host.Outcome.next (registerWrite_asleep .mspi addr w s hserve hsleep), sleepAccess_only _ _ _ s, ?_⟩
    simpa [sleepAccess, modFe] using wakeCtl_wakes s (sleepsAt_ctl s addr hsleep)
end

section
/-! PROOF. O4: the frame of every command (R26, R341). Each arm of `exec` is one operation, and the law of that operation
under Laws/ says which parts it keeps. -/

namespace Sys2Proof.Machine

/-- The parts of the state, in its order of fields. -/
def allParts : List Claims.Part :=
  [.sys, .power, .mbx, .twi, .ports, .pool, .lanes, .map, .dial, .mon, .alarms, .faults, .jrx, .test, .pins, .bulk,
   .free, .pending]

theorem mem_allParts (x : Claims.Part) : x ∈ allParts := by
  cases x <;> decide

/-- The listed parts hold the same values in two states: the conjunction that an operation's law states. -/
def Kept : List Claims.Part → State → State → Prop
  | [], _, _ => True
  | [x], s, t => Claims.Same x s t
  | x :: y :: xs, s, t => Claims.Same x s t ∧ Kept (y :: xs) s t

theorem kept_iff (xs : List Claims.Part) (s t : State) : Kept xs s t ↔ ∀ x ∈ xs, Claims.Same x s t := by
  induction xs with
  | nil => simp [Kept]
  | cons x xs ih => cases xs <;> simp_all [Kept]

/-- Where every part but those of `xs` is kept, only those of `xs` differ. -/
theorem only_of_kept {xs : List Claims.Part} {s t : State} (h : Kept (allParts.diff xs) s t) : Claims.Only xs s t :=
  fun x hx => (kept_iff _ s t).mp h x (List.mem_diff_of_mem (mem_allParts x) hx)

theorem only_refl (xs : List Claims.Part) (s : State) : Claims.Only xs s s := by
  intro x _
  cases x <;> rfl

theorem only_ite {xs : List Claims.Part} {c : Prop} [Decidable c] {s t u : State} (ht : Claims.Only xs s t)
    (hu : Claims.Only xs s u) : Claims.Only xs s (if c then t else u) := by
  split
  · exact ht
  · exact hu

theorem modTr_only (p : LPort) (f : Train → Train) (s : State) : Claims.Only [.ports] s (modTr p f s) := by
  intro x hx
  cases x <;> simp_all [Claims.Same]

theorem modTwi_only (f : Twi → Twi) (s : State) : Claims.Only [.twi] s (modTwi f s) := by
  intro x hx
  cases x <;> simp_all [Claims.Same]

/-- A command that completes with an operation's state has that operation's frame. -/
theorem only_of_next {xs : List Claims.Part} {s t u : State} (h : (.next u : Outcome) = .next t)
    (hu : Claims.Only xs s u) : Claims.Only xs s t :=
  Host.Outcome.next.inj h ▸ hu

/-- A command whose operation keeps every part but those of `xs` changes only those of `xs`. -/
theorem only_of_keeps {xs : List Claims.Part} {s t u : State} (h : (.next u : Outcome) = .next t)
    (hu : Kept (allParts.diff xs) s u) : Claims.Only xs s t :=
  only_of_next h (only_of_kept hu)

end Sys2Proof.Machine

open Sys2Proof Sys2Proof.Machine

/-- Settles O4: by cases on the command, each arm by the law of the one operation that it runs. -/
theorem commandFrames : Obligations.CommandFrames := by
  intro c s t h
  cases c with
  -- Crown commands (12)
  | sysIdent => exact only_of_keeps h (sysIdent_keeps ..)
  | sysStatus => exact only_of_keeps h (sysStatus_keeps ..)
  | sysReset => exact only_of_keeps h (sysReset_keeps ..)
  | configLoad => exact only_of_keeps h (configLoad_keeps ..)
  | configCommit => exact only_of_keeps h (configCommit_keeps ..)
  | outputsStart => exact only_of_keeps h (outputsStart_keeps ..)
  | outputsStop => exact only_of_keeps h (outputsStop_keeps ..)
  | idAttest => exact only_of_keeps h (idAttest_keeps ..)
  | permSet => exact only_of_keeps h (permSet_keeps ..)
  | permGet => exact only_of_keeps h (permGet_keeps ..)
  | pwrProfileSet => exact only_of_keeps h (pwrProfileSet_keeps ..)
  | pwrDomainSet => exact only_of_keeps h (pwrDomainSet_keeps ..)
  | pwrRetainSet => exact only_of_keeps h (pwrRetainSet_keeps ..)
  | pwrStatus => exact only_of_keeps h (pwrStatus_keeps ..)
  | pwrRefusalsRead => exact only_of_keeps h (pwrRefusalsRead_keeps ..)
  | pwrWakeReport => exact only_of_keeps h (pwrWakeReport_keeps ..)
  | lineModeSet => exact only_of_keeps h (lineModeSet_keeps ..)
  | lineModeGet => exact only_of_keeps h (lineModeGet_keeps ..)
  | lineRxConfig => exact only_of_keeps h (lineRxConfig_keeps ..)
  | lineTxConfig => exact only_of_keeps h (lineTxConfig_keeps ..)
  | lineStatus => exact only_of_keeps h (lineStatus_keeps ..)
  | linePmRead => exact only_of_keeps h (linePmRead_keeps ..)
  | lineNlcSet => exact only_of_keeps h (lineNlcSet_keeps ..)
  | lineMute => exact only_of_keeps h (lineMute_keeps ..)
  | trainStart => exact only_of_keeps h (trainStart_keeps ..)
  | trainStatus => exact only_of_keeps h (trainStatus_keeps ..)
  | trainPolicySet => exact only_of_keeps h (trainPolicySet_keeps ..)
  | pathCommit => exact only_of_keeps h (pathCommit_keeps ..)
  | hostLaneConfig => exact only_of_keeps h (hostLaneConfig_keeps ..)
  | hostTrain => exact only_of_keeps h (hostTrain_keeps ..)
  | hostStatus => exact only_of_keeps h (hostStatus_keeps ..)
  | hostPmRead => exact only_of_keeps h (hostPmRead_keeps ..)
  | fecModeSet => exact only_of_keeps h (fecModeSet_keeps ..)
  | fecPoolPolicy => exact only_of_keeps h (fecPoolPolicy_keeps ..)
  | fecStatus => exact only_of_keeps h (fecStatus_keeps ..)
  | fecPmRead => exact only_of_keeps h (fecPmRead_keeps ..)
  | mapClientAdd => exact only_of_keeps h (mapClientAdd_keeps ..)
  | mapClientRemove => exact only_of_keeps h (mapClientRemove_keeps ..)
  | mapRegenPair => exact only_of_keeps h (mapRegenPair_keeps ..)
  | mapStatus => exact only_of_keeps h (mapStatus_keeps ..)
  | dialSchedule => exact only_of_keeps h (dialSchedule_keeps ..)
  | dialCancel => exact only_of_keeps h (dialCancel_keeps ..)
  | dialList => exact only_of_keeps h (dialList_keeps ..)
  | dialConfig => exact only_of_keeps h (dialConfig_keeps ..)
  | dialTime => exact only_of_keeps h (dialTime_keeps ..)
  | calRun => exact only_of_keeps h (calRun_keeps ..)
  | calPolicySet => exact only_of_keeps h (calPolicySet_keeps ..)
  | calTableRead => exact only_of_keeps h (calTableRead_keeps ..)
  | calTableWrite => exact only_of_keeps h (calTableWrite_keeps ..)
  | calStatus => exact only_of_keeps h (calStatus_keeps ..)
  | monConfig => exact only_of_keeps h (monConfig_keeps ..)
  | monCoefLoad => exact only_of_keeps h (monCoefLoad_keeps ..)
  | monRead => exact only_of_keeps h (monRead_keeps ..)
  | monUrgent => exact only_of_keeps h (monUrgent_keeps ..)
  | biasLoopSet => exact only_of_keeps h (biasLoopSet_keeps ..)
  | jrxConfig => exact only_of_keeps h (jrxConfig_keeps ..)
  | jrxSend => exact only_of_keeps h (jrxSend_keeps ..)
  | jrxPeers => exact only_of_keeps h (jrxPeers_keeps ..)
  | jrxStatus => exact only_of_keeps h (jrxStatus_keeps ..)
  | faultLogRead => exact only_of_keeps h (faultLogRead_keeps ..)
  | alarmMaskSet => exact only_of_keeps h (alarmMaskSet_keeps ..)
  | alarmStatus => exact only_of_keeps h (alarmStatus_keeps ..)
  | faultClear => exact only_of_keeps h (faultClear_keeps ..)
  | loupeSet => exact only_of_keeps h (loupeSet_keeps ..)
  | loopbackSet => exact only_of_keeps h (loopbackSet_keeps ..)
  | prbsSet => exact only_of_keeps h (prbsSet_keeps ..)
  -- registers, masters and downloads (13, 14)
  | mbxPost => exact only_of_keeps h (mbxPost_keeps ..)
  | mbxTake => exact only_of_keeps h (mbxTake_keeps ..)
  | mbxCtrlReset => exact only_of_keeps h (mbxCtrlReset_keeps ..)
  | lpsStatusRead | monResLoRead => exact only_of_keeps h (registerRead_keeps ..)
  | counterLowRead => exact only_of_keeps h (counterLowRead_keeps ..)
  | registerWrite => exact only_of_keeps h (registerWrite_keeps ..)
  | dlStart | dlChunk | dlLast => exact only_of_keeps h (dlAccess_keeps ..)
  | dlPartCopied => exact only_of_keeps h (dlPartCopied_keeps ..)
  | ptwiWrite | ptwiRead | ptwiWriteRead | ptwiRecover => exact only_of_keeps h (ptwiAccess_keeps ..)
  | ptwiDone => exact only_of_keeps h (ptwiDone_keeps ..)
  | ptwiBusBusy | ptwiStretchTo => exact only_of_next h (only_ite (modTwi_only _ s) (only_refl _ s))
  | bspiFlashToBulk | bspiBulkToFlash => exact only_of_keeps h (bspiAccess_keeps ..)
  | bspiDone => exact only_of_keeps h (bspiDone_keeps ..)
  | twiAbort => exact only_of_keeps h (twiAbort_keeps ..)
  | twiStretchTo => exact only_of_next h (only_ite (only_of_kept (twiReset_keeps ..)) (only_refl _ s))
  | twiSdaTo => exact only_of_keeps h (twiReset_keeps ..)
  | twiDeepNack => exact only_of_keeps h (twiDeepNack_keeps ..)
  | twiDeepWindowEnd => exact only_of_keeps h (windowEnd_keeps ..)
  | mspiBadCmd => exact only_of_keeps h (mspiBadCmd_keeps ..)
  | mspiFrameAbort => exact only_of_keeps h (mspiFrameAbort_keeps ..)
  | mspiDeepIgnore => exact only_of_keeps h (mspiDeepIgnore_keeps ..)
  | mspiDeepWindowEnd => exact only_of_keeps h (windowEnd_keeps ..)
  | accessWakeComplete => exact only_of_keeps h (accessWakeComplete_keeps ..)
  -- reset and boot (18)
  | powerOnReset => exact only_of_keeps h (powerOnReset_keeps ..)
  | resetN => exact only_of_keeps h (resetNPulse_keeps ..)
  | resetRelease => exact only_of_keeps h (resetRelease_keeps ..)
  | flashSlotReadDone => exact only_of_keeps h (flashSlotReadDone_keeps ..)
  | imageVerifyDone => exact only_of_keeps h (imageVerifyDone_keeps ..)
  | bootBlobDone => exact only_of_keeps h (bootBlobDone_keeps ..)
  | sysResetDelayExpiry => exact only_of_keeps h (sysResetDelayExpiry_keeps ..)
  | coreRestartDone => exact only_of_keeps h (coreRestartDone_keeps ..)
  -- packets and waiting messages (12, 13)
  | crownPacketTake => exact only_of_keeps h (crownPacketTake_keeps ..)
  | crownWordTimeout => exact only_of_keeps h (crownWordTimeout_keeps ..)
  | crownReplyTimeout => exact only_of_keeps h (crownReplyTimeout_keeps ..)
  | queueSpacePost => exact only_of_keeps h (queueSpacePost_keeps ..)
  | hostQueueDrop => exact only_of_keeps h (hostQueueDrop_keeps ..)
  | internalQueueDrop => exact only_of_keeps h (internalQueueDrop_keeps ..)
  -- line ports, superframes and the Dial (02 to 06, 10)
  | muteNFall => exact only_of_keeps h (muteNFall_keeps ..)
  | muteNHighTimer => exact only_of_keeps h (muteNHighTimer_keeps ..)
  | txSuperframeBoundary => exact only_of_keeps h (txSuperframeBoundary_keeps ..)
  | rxSuperframeBoundary => exact only_of_keeps h (rxSuperframeBoundary_keeps ..)
  | sfohReceive => exact only_of_keeps h (sfohReceive_keeps ..)
  | formatMismatch => exact only_of_keeps h (formatMismatch_keeps ..)
  | sfAlignment => exact only_of_keeps h (sfAlignment_keeps ..)
  | sfAlignLoss => exact only_of_keeps h (sfAlignLoss_keeps ..)
  | psfnLock => exact only_of_keeps h (psfnLock_keeps ..)
  | psfnLockLoss => exact only_of_keeps h (psfnLockLoss_keeps ..)
  | psfnJump => exact only_of_keeps h (psfnJump_keeps ..)
  | dialStage => exact only_of_keeps h (dialStage_keeps ..)
  | dialRelease => exact only_of_keeps h (dialRelease_keeps ..)
  | forwardingStart => exact only_of_keeps h (forwardingStart_keeps ..)
  | lightDetectAssert => exact only_of_keeps h (lightDetectAssert_keeps ..)
  | lightDetectDeassert => exact only_of_keeps h (lightDetectDeassert_keeps ..)
  | acquisitionStart => exact only_of_keeps h (maybeAcquire_keeps ..)
  | acqFrequencyDone => exact only_of_keeps h (acqFrequencyDone_keeps ..)
  | acqCdDone => exact only_of_keeps h (acqCdDone_keeps ..)
  | acqBlindDone => exact only_of_keeps h (acqBlindDone_keeps ..)
  | frameAlignment => exact only_of_keeps h (frameAlignment_keeps ..)
  | frameAlignmentLoss => exact only_of_keeps h (frameAlignmentLoss_keeps ..)
  | acqTimeout => exact only_of_keeps h (acqTimeout_keeps ..)
  | carrierLockLoss => exact only_of_keeps h (carrierLockLoss_keeps ..)
  | eqReconverge => exact only_of_keeps h (eqReconverge_keeps ..)
  | reconvergeFail => exact only_of_keeps h (reconvergeFail_keeps ..)
  | eqSpan => exact only_of_keeps h (eqSpan_keeps ..)
  | eqSpanClear => exact only_of_keeps h (eqSpanClear_keeps ..)
  | adcLevelLow => exact only_of_keeps h (adcLevelLow_keeps ..)
  | adcLevelHigh => exact only_of_keeps h (adcLevelHigh_keeps ..)
  | synthLock => exact only_of_keeps h (synthLock_keeps ..)
  | synthUnlock => exact only_of_keeps h (synthUnlock_keeps ..)
  | synthRange => exact only_of_keeps h (synthRange_keeps ..)
  | synthFail => exact only_of_keeps h (synthFail_keeps ..)
  | drvEnFall => exact only_of_keeps h (drvEnFall_keeps ..)
  | tDrvExpiry => exact only_of_keeps h (tDrvExpiry_keeps ..)
  | nlcAlignDone => exact only_of_keeps h (nlcAlignDone_keeps ..)
  | nlcMemberFadeIn => exact only_of_keeps h (nlcMemberFadeIn_keeps ..)
  | nlcFadeDone => exact only_of_keeps h (nlcFadeDone_keeps ..)
  | tuneDwellEnd => exact only_of_keeps h (tuneDwellEnd_keeps ..)
  -- the decoder pool (07)
  | balanceCycle => exact only_of_keeps h (balanceCycle_keeps ..)
  | fecStarved => exact only_of_keeps h (fecStarved_keeps ..)
  | fecStarvedClear => exact only_of_keeps h (fecStarvedClear_keeps ..)
  | codewordDispatch => exact only_of_keeps h (codewordDispatch_keeps ..)
  | engineComplete => exact only_of_keeps h (engineComplete_keeps ..)
  | decodeDeadline => exact only_of_keeps h (decodeDeadline_keeps ..)
  | engineThrottle => exact only_of_keeps h (engineThrottle_keeps ..)
  | engineSpeedRestore => exact only_of_keeps h (engineSpeedRestore_keeps ..)
  | watchdog => exact only_of_keeps h (watchdog_keeps ..)
  | katRun => exact only_of_keeps h (katRun_keeps ..)
  | scrubPass => exact only_of_keeps h (scrubPass_keeps ..)
  -- training and paths (08)
  | trainAcquireDone => exact only_of_keeps h (trainAcquireDone_keeps ..)
  | probeDone => exact only_of_keeps h (probeDone_keeps ..)
  | trainPhaseTimeout => exact only_of_keeps h (trainPhaseTimeout_keeps ..)
  | retryHoldExpiry => exact only_of_next h (modTr_only _ _ s)
  | farRestart => exact only_of_keeps h (farRestart_keeps ..)
  | commitConfirmCheck => exact only_of_keeps h (commitConfirmCheck_keeps ..)
  | commitPassCheck => exact only_of_keeps h (commitPassCheck_keeps ..)
  | commitRetry => exact only_of_keeps h (commitRetry_keeps ..)
  | verifyDone => exact only_of_keeps h (verifyDone_keeps ..)
  | trackReportTimer => exact only_of_keeps h (trackReportTimer_keeps ..)
  | qMarginRefresh => exact only_of_keeps h (qMarginRefresh_keeps ..)
  | degradeTimer => exact only_of_keeps h (degradeTimer_keeps ..)
  | spanAlarmClear => exact only_of_keeps h (spanAlarmClear_keeps ..)
  | holdTimeExpiry => exact only_of_keeps h (holdTimeExpiry_keeps ..)
  | holdoverFormatAlternate => exact only_of_keeps h (holdoverAlternate_keeps ..)
  | autoRetune => exact only_of_keeps h (autoRetune_keeps ..)
  | pathCommitTimeout => exact only_of_keeps h (pathCommitTimeout_keeps ..)
  -- Joryx (17)
  | jrxRequestPost => exact only_of_keeps h (pourJ_keeps ..)
  | jrxMbxDrop => exact only_of_keeps h (jrxMbxDrop_keeps ..)
  | jrxSendTimeout => exact only_of_keeps h (jrxSendTimeout_keeps ..)
  | helloTimer => exact only_of_keeps h (helloTimer_keeps ..)
  | routeTimer => exact only_of_keeps h (routeTimer_keeps ..)
  | routeChangeSend => exact only_of_keeps h (routeChangeSend_keeps ..)
  | routeExpiry => exact only_of_keeps h (routeExpiry_keeps ..)
  -- host lanes (09)
  | hostLos => exact only_of_keeps h (hostLos_keeps ..)
  | hostLosClear => exact only_of_keeps h (hostLosClear_keeps ..)
  | hostCdr | hostCdrClear => exact only_of_keeps h (setCdr_keeps ..)
  | hostAlign => exact only_of_keeps h (hostAlign_keeps ..)
  | hostTrainingFrame => exact only_of_keeps h (hostTrainingFrame_keeps ..)
  | hostReceiverReady => exact only_of_keeps h (hostReceiverReady_keeps ..)
  | hostTrainFail => exact only_of_keeps h (hostTrainFail_keeps ..)
  | hostTrainRetry => exact only_of_keeps h (hostTrainRetry_keeps ..)
  | hostFecDeg => exact only_of_keeps h (setAlarm_keeps ..)
  | egressBufferStart => exact only_of_keeps h (egressBufferStart_keeps ..)
  | egressSlip => exact only_of_keeps h (egressSlip_keeps ..)
  -- power (15)
  | hostWakePattern => exact only_of_keeps h (hostWakePattern_keeps ..)
  | lightWake => exact only_of_keeps h (lightWake_keeps ..)
  | keepAliveKeying => exact only_of_keeps h (keepAliveKeying_keeps ..)
  | keepAliveDetect => exact only_of_keeps h (keepAliveDetect_keeps ..)
  | bankCheckDone => exact only_of_keeps h (bankCheckDone_keeps ..)
  | domainWakeComplete => exact only_of_keeps h (domainWakeComplete_keeps ..)
  | wakeDone => exact only_of_keeps h (wakeDone_keeps ..)
  | powerAnswersReceived => exact only_of_keeps h (powerAnswersReceived_keeps ..)
  | noAnswer => exact only_of_keeps h (noAnswer_keeps ..)
  | powerTransitionComplete => exact only_of_keeps h (powerTransitionComplete_keeps ..)
  -- the monitor converter (16)
  | monSlotEnd => exact only_of_keeps h (monSlotEnd_keeps ..)
  | monUrgentDone => exact only_of_keeps h (monUrgentDone_keeps ..)
  | refColdEnd => exact only_of_keeps h (refColdEnd_keeps ..)
  | biasGraceExpiry => exact only_of_keeps h (biasGraceExpiry_keeps ..)
  -- the Regulator (11)
  | calTargetUpdate => exact only_of_keeps h (calTargetUpdate_keeps ..)
  | calRunEnd => exact only_of_keeps h (calRunEnd_keeps ..)
  | calRetry => exact only_of_keeps h (calRetryRun_keeps ..)
  -- faults and alarms (17)
  | coreWatchdog => exact only_of_keeps h (coreWatchdog_keeps ..)
  | flowStall => exact only_of_keeps h (flowStall_keeps ..)
  | tempCrit => exact only_of_keeps h (tempCrit_keeps ..)
  | supply => exact only_of_keeps h (supply_keeps ..)
  | faultHandle => exact only_of_keeps h (faultHandle_keeps ..)
  | faultOverflowTakeup => exact only_of_keeps h (faultOverflowTakeup_keeps ..)
  | recoveryActionDone => exact only_of_keeps h (recoveryActionDone_keeps ..)
  | recoveryQuietExpiry => exact only_of_keeps h (recoveryQuietExpiry_keeps ..)
  | alarmDefaultClear => exact only_of_keeps h (alarmDefaultClear_keeps ..)
  -- test access (19)
  | extest | clamp | highz | extestPulse | extestTrain => exact only_of_keeps h (testHold_keeps ..)
  | bypass | idcode => exact only_of_keeps h (tapSelect_keeps ..)
  | samplePreload => exact only_of_keeps h (samplePreload_keeps ..)
  | testLogicReset => exact only_of_keeps h (testLogicReset_keeps ..)
  | testMbxPost => exact only_of_keeps h (testMbxPost_keeps ..)
  | testMbxTake => exact only_of_keeps h (testMbxTake_keeps ..)
  | testMbxReset => exact only_of_keeps h (testMbxReset_keeps ..)
  -- further timers and accesses of these chapters
  | muteNRise => exact only_of_keeps h (muteNRise_keeps ..)
  | sampleClockChangeIntervalEnd => exact only_of_keeps h (sampleClockChangeIntervalEnd_keeps ..)
  | knownAnswerTestDone => exact only_of_keeps h (knownAnswerTestDone_keeps ..)
  | prbsLock => exact only_of_keeps h (prbsLock_keeps ..)
  | pilotModeEnd => exact only_of_keeps h (pilotModeEnd_keeps ..)
  | registerRead => exact only_of_keeps h (registerRead_keeps ..)
end

section
/-! PROOF. O5: the state after reset (R19, R90, R352, R371, R382). -/

open Sys2Proof Sys2Proof.Machine

/-- Settles O5, each clause by evaluation of the reset state; that bulk memory lists nothing and that no command waits are
the model's own choice of that state (notes/assumptions 1, 4 and 6). -/
theorem resetState : Obligations.ResetState := by
  refine ⟨rfl, rfl, ?_, ?_, ?_, rfl, ?_, ?_, ?_, rfl⟩ <;> decide
end

section
/-! PROOF. Muting by a source (R90, R92), and O10: MUTE_N mutes without any core (R37). -/

namespace Sys2Proof.Machine

/-- Bringing a port's outputs in line ends no mute of any port (R92). -/
theorem refreshPort_muted (p q : LPort) (s : State) (h : s.ports[q].front.muted = true) :
    (refreshPort p s).ports[q].front.muted = true := by
  by_cases hq : q = p
  · subst hq
    simp only [refreshPort, modFront_ports, vmod_same]
    refine (Bool.or_eq_true _ _).mpr (Or.inl ?_)
    split_ifs
    exacts [h, h, rfl, h]
  · simpa [refreshPort, hq] using h

/-- MUTE_N that does not count as high is a mute source of every port (R90). -/
theorem anyMute_of_muteN (s : State) (p : LPort) (h : s.pins.muteClear = false) : anyMute s p = true := by
  simp [anyMute, muteSrc, h]

/-- An active MUTE_N mutes a port as soon as its outputs are brought in line. -/
theorem refreshPort_muteN (p : LPort) (s : State) (h : s.pins.muteClear = false) :
    (refreshPort p s).ports[p].front.muted = true := by
  simp [refreshPort, anyMute_of_muteN, h]

/-- What an operation on port `p` brings about, and every port's operation keeps, holds once each port has had its turn. -/
theorem eachPort_brings {f : LPort → State → State} {Q P : State → Prop} (p : LPort) (hQ : ∀ q s, Q s → Q (f q s))
    (hp : ∀ s, Q s → P (f p s)) (hP : ∀ q s, P s → P (f q s)) {s : State} (h : Q s) : P (eachPort f s) :=
  match p with
  | 0 => hP 3 _ (hP 2 _ (hP 1 _ (hp _ h)))
  | 1 => hP 3 _ (hP 2 _ (hp _ (hQ 0 _ h)))
  | 2 => hP 3 _ (hp _ (hQ 1 _ (hQ 0 _ h)))
  | 3 => hp _ (hQ 2 _ (hQ 1 _ (hQ 0 _ h)))

/-- An active MUTE_N mutes all four ports (R90). -/
theorem refresh_muteN (s : State) (h : s.pins.muteClear = false) (p : LPort) :
    (refresh s).ports[p].front.muted = true :=
  eachPort_brings (Q := fun s => s.pins.muteClear = false) (P := fun s => s.ports[p].front.muted = true) p
    (fun q s h => by simpa using h) (refreshPort_muteN p) (fun q s => refreshPort_muted q p s) h

/-- The state in which a pulse at MUTE_N leaves the pins (R91, R93). -/
theorem muteNFall_acts (ns : Nat) (mid : Bool) (s : State) (hhigh : s.pins.muteHigh = true) (hns : 200 ≤ ns) :
    muteNFall ns mid s = refresh (modPins (fun x => { x with
      muteHigh := false, muteClear := false, muteTimer := false, muteEvents := x.muteEvents + 1 }) s) := by
  simp [muteNFall, hhigh, hns]

end Sys2Proof.Machine

open Sys2Proof Sys2Proof.Machine

/-- Settles O10: the fall clears MUTE_N's source, which mutes each port whatever else the state holds. -/
theorem muteNeedsNoCore : Obligations.MuteNeedsNoCore := by
  intro s ns mid rest hhigh hns
  refine ⟨_, congrArg Host.Outcome.next (muteNFall_acts ns mid { s with pending := rest } hhigh hns),
    refresh_muteN _ rfl, ?_, ?_⟩ <;> simp
end

section
/-! PROOF. What the power manager's moves change of its own record (R406, R410, R424 to R426). -/

namespace Sys2Proof.Machine

/-! ### The record apart from the banks -/

/-- The power manager's record apart from what it holds of the banks: the states of the domains, the transition, the
profiles and the logs. -/
def Power.apart (p : Power) : Power :=
  { p with lost := 0, kept := 0, cause := Vector.replicate 32 0, muteLd := 0, muteCv := 0 }

theorem domSt_of_power {s t : State} (h : s.power = t.power) (d : Dom) : domSt s d = domSt t d := by
  unfold domSt
  rw [h]

theorem domSt_of_apart {s t : State} (h : s.power.apart = t.power.apart) (d : Dom) : domSt s d = domSt t d :=
  domSt_of_power (s := { s with power := s.power.apart }) (t := { t with power := t.power.apart }) h d

theorem trans_of_apart {s t : State} (h : s.power.apart = t.power.apart) : s.power.trans = t.power.trans :=
  (congrArg Power.trans h :)

theorem profile_of_apart {s t : State} (h : s.power.apart = t.power.apart) : s.power.profile = t.power.profile :=
  (congrArg Power.profile h :)

theorem heldWakes_of_apart {s t : State} (h : s.power.apart = t.power.apart) : s.power.heldWakes = t.power.heldWakes :=
  (congrArg Power.heldWakes h :)

/-- What every step of a fold keeps, the fold keeps. -/
theorem foldl_keeps {σ α β : Type} (g : σ → β) (l : List α) (f : σ → α → σ) (s : σ) (h : ∀ s x, g (f s x) = g s) :
    g (l.foldl f s) = g s := by
  induction l generalizing s with
  | nil => rfl
  | cons x l ih => exact (ih (f s x)).trans (h s x)

theorem eachOf_keeps {α β : Type} (g : State → β) (l : List α) (f : α → State → State) (s : State)
    (h : ∀ x s, g (f x s) = g s) : g (eachOf l f s) = g s :=
  foldl_keeps g l _ s fun s x => h x s

/-! ### Banks -/

theorem bankLeave_apart (d : Dom) (x : PState) (force : Bool) (s : State) :
    (bankLeave d x force s).power.apart = s.power.apart := by
  refine foldl_keeps Power.apart _ _ _ fun p k => ?_
  split_ifs <;> rfl

theorem lostBank_apart (k : Fin 32) (s : State) : (lostBank k s).power.apart = s.power.apart := by
  simp only [lostBank]
  split_ifs <;> simp [lostLine, lostCal, Power.apart]

/-- The fault of a lost bank starts no recovery and leaves the power manager as it is (R462). -/
theorem bankFault_power (u : FUnit) (index : BitVec 7) (detail : BitVec 16) (s : State) :
    (detect u 3 index detail s).power = s.power := by
  simp

theorem bankReturn_apart (d : Dom) (s : State) : (bankReturn d s).power.apart = s.power.apart := by
  simp only [bankReturn, holdLost_keeps]
  refine eachOf_keeps (fun s => s.power.apart) _ _ _ fun k s => ?_
  split_ifs
  · rfl
  · exact (congrArg Power.apart (bankFault_power ..)).trans (lostBank_apart k _)
  · exact lostBank_apart k _

theorem powerUp_apart (d : Dom) (s : State) : (powerUp d s).power.apart = s.power.apart := by
  cases d
  case fq q =>
    simp only [powerUp, fenceAlarms_keeps]
    rw [eachOf_power _ _ _ fun _ _ => modEng_power .., bankReturn_apart]
  all_goals exact bankReturn_apart _ s

/-! ### The state of a domain -/

theorem setDom_apart (d : Dom) (x : PState) {s t : State} (h : s.power.apart = t.power.apart) :
    (setDom d x s).power.apart = (setDom d x t).power.apart := by
  have hset : ∀ u : State, (setDom d x u).power.apart = (setDom d x { u with power := u.power.apart }).power := fun u => by
    cases d <;> rfl
  have hpow : ∀ u v : State, u.power = v.power → (setDom d x u).power = (setDom d x v).power := fun u v huv => by
    cases d <;> simp [setDom, huv]
  rw [hset s, hset t]
  exact hpow _ _ h

theorem setDom_same (d : Dom) (s : State) : (setDom d (domSt s d) s).power = s.power := by
  cases d <;> simp [setDom, domSt, vset]

theorem domSt_setDom (d : Dom) (x : PState) (s : State) (h : d ≠ .aon) : domSt (setDom d x s) d = x := by
  cases d <;> simp_all [setDom, domSt]

theorem domSt_setDom_other (d e : Dom) (x : PState) (s : State) (h : e ≠ d) : domSt (setDom d x s) e = domSt s e := by
  cases d <;> cases e <;> simp_all [setDom, domSt]

theorem setDom_trans (d : Dom) (x : PState) (s : State) : (setDom d x s).power.trans = s.power.trans := by
  cases d <;> rfl

theorem setDom_profile (d : Dom) (x : PState) (s : State) : (setDom d x s).power.profile = s.power.profile := by
  cases d <;> rfl

theorem setDom_heldWakes (d : Dom) (x : PState) (s : State) : (setDom d x s).power.heldWakes = s.power.heldWakes := by
  cases d <;> rfl

/-! ### Moves -/

theorem PState.code_injective {a b : PState} (h : a.code = b.code) : a = b := by
  cases a <;> cases b <;> simp_all [PState.code]

/-- A move down changes of the record, apart from the banks, the domain's state alone. -/
theorem domDown_apart (d : Dom) (x : PState) (force : Bool) (s : State) :
    (domDown d x force s).power.apart = (setDom d x s).power.apart := by
  cases d <;>
  · simp only [domDown, refresh_keeps, apply_ite State.power, refLost_keeps, ite_self]
    refine setDom_apart _ _ ?_
    split_ifs <;> simp only [bankLeave_apart, powerDown_keeps, leaveOn_keeps]

/-- A move up of a domain that is not held OFF changes of the record, apart from the banks, the domain's state alone. -/
theorem domUp_apart (d : Dom) (x : PState) (s : State) (h : heldOff s d = false) :
    (domUp d x s).power.apart = (setDom d x s).power.apart := by
  simp only [domUp, h, Bool.false_eq_true, if_false]
  rw [eachPort_power _ _ fun p s => by simp]
  simp only [refresh_keeps, apply_ite State.power, goOn_keeps, ite_self]
  refine setDom_apart _ _ ?_
  split_ifs
  · exact powerUp_apart d s
  · rfl

/-- A move to another state changes of the record, apart from the banks, the domain's state alone. -/
theorem domMove_apart (d : Dom) (x : PState) (s : State) (h : heldOff s d = false) :
    (domMove d x s).power.apart = (setDom d x s).power.apart := by
  unfold domMove
  split_ifs with hdown hup
  · exact domDown_apart d x false s
  · exact domUp_apart d x s h
  · have hx : x = domSt s d := PState.code_injective (by omega)
    rw [hx, setDom_same]

theorem domMove_dom (d : Dom) (x : PState) (s : State) (hd : d ≠ .aon) (h : heldOff s d = false) :
    domSt (domMove d x s) d = x :=
  (domSt_of_apart (domMove_apart d x s h) d).trans (domSt_setDom d x s hd)

theorem domMove_dom_other (d e : Dom) (x : PState) (s : State) (he : e ≠ d) (h : heldOff s d = false) :
    domSt (domMove d x s) e = domSt s e :=
  (domSt_of_apart (domMove_apart d x s h) e).trans (domSt_setDom_other d e x s he)

theorem domMove_trans (d : Dom) (x : PState) (s : State) (h : heldOff s d = false) :
    (domMove d x s).power.trans = s.power.trans :=
  (trans_of_apart (domMove_apart d x s h)).trans (setDom_trans d x s)

theorem domMove_profile (d : Dom) (x : PState) (s : State) (h : heldOff s d = false) :
    (domMove d x s).power.profile = s.power.profile :=
  (profile_of_apart (domMove_apart d x s h)).trans (setDom_profile d x s)

theorem domMove_heldWakes (d : Dom) (x : PState) (s : State) (h : heldOff s d = false) :
    (domMove d x s).power.heldWakes = s.power.heldWakes :=
  (heldWakes_of_apart (domMove_apart d x s h)).trans (setDom_heldWakes d x s)

/-- A domain whose unit is not held failed is not held OFF. -/
theorem heldOff_of_unit (s : State) (d : Dom) (h : unitHeld s (domUnit d) = false) : heldOff s d = false := by
  cases d with
  | cv _ | ld _ | fq _ | ho _ => exact h
  | aon | ctl | mon | map => rfl

end Sys2Proof.Machine
end

section
/-! PROOF. O54: answers to power requests, the ends of transitions, and wakes (R14, R207, R409 to R411, R415, R419, R420,
R426, R428). -/

namespace Sys2Proof.Machine

/-! ### Refusals and their log (R411, R415) -/

theorem firstReason_mem {cs : List (Bool × Nat)} {r : Nat} (h : firstReason cs = some r) : ∃ c, (c, r) ∈ cs := by
  induction cs with
  | nil => cases h
  | cons x cs ih =>
    obtain ⟨c, r'⟩ := x
    simp only [firstReason] at h
    split_ifs at h
    · cases h
      exact ⟨c, List.mem_cons_self⟩
    · obtain ⟨c', hc'⟩ := ih h
      exact ⟨c', List.mem_cons_of_mem _ hc'⟩

theorem refuses_lt {s : State} {ms : List Move} {who : Party} {r : Nat} (h : refuses s ms who = some r) : r < 256 := by
  cases who <;>
  · obtain ⟨c, hc⟩ := firstReason_mem h
    simp only [List.mem_cons, Prod.mk.injEq, List.not_mem_nil, or_false] at hc
    omega

theorem partyCode_lt (who : Party) : partyCode who < 256 := by
  cases who <;> simp only [partyCode] <;> omega

theorem mem_parties (who : Party) : who ∈ parties := by
  cases who
  case pc n => revert n; decide
  all_goals decide

/-- The entry that R415 logs for a refusal, a refuser code and a reason. -/
def refusalEntry (ms : List Move) (s : State) (r : Nat × Nat) : RefusalEntry :=
  { refuser := BitVec.ofNat 8 r.1, reason := BitVec.ofNat 8 r.2, abort := false,
    target := BitVec.ofNat 2 (lowestTarget ms), domains := BitVec.ofNat 19 (moveMask ms), uptime := uptimeMs s }

/-- The refusals of a request are logged and counted one by one. -/
def logRefusals (ms : List Move) (rs : List (Nat × Nat)) (s : State) : State :=
  eachOf rs (fun r => logRefusal ms r.1 r.2 false) s

/-- What no single refusal changes, the refusals of a request leave alone. -/
theorem logRefusals_keeps {β : Type} (g : State → β) (ms : List Move) (rs : List (Nat × Nat)) (s : State)
    (h : ∀ (r : Nat × Nat) s, g (logRefusal ms r.1 r.2 false s) = g s) : g (logRefusals ms rs s) = g s :=
  eachOf_keeps g rs _ s h

/-- The log keeps the newest 16 of the entries, the last refusal first (R415). -/
theorem logRefusals_log (ms : List Move) (rs : List (Nat × Nat)) (s : State) :
    (logRefusals ms rs s).power.log.take 16 =
      ((rs.map (refusalEntry ms s)).reverse ++ s.power.log).take 16 := by
  induction rs generalizing s with
  | nil => rfl
  | cons r rs ih =>
    refine (ih (logRefusal ms r.1 r.2 false s)).trans ?_
    have hlog : (logRefusal ms r.1 r.2 false s).power.log = (refusalEntry ms s r :: s.power.log).take 16 := rfl
    have hentry : refusalEntry ms (logRefusal ms r.1 r.2 false s) = refusalEntry ms s := rfl
    simp only [hlog, hentry, List.map_cons, List.reverse_cons, List.append_assoc, List.singleton_append, List.take_append,
      List.take_take]
    congr 2
    omega

/-- Up to 16 refusals of one request are all found in the log. -/
theorem logRefusals_mem (ms : List Move) (rs : List (Nat × Nat)) (s : State) (hlen : rs.length ≤ 16) :
    ∀ r ∈ rs, refusalEntry ms s r ∈ (logRefusals ms rs s).power.log := by
  intro r hr
  refine List.mem_of_mem_take (i := 16) ?_
  rw [logRefusals_log, List.take_append]
  refine List.mem_append_left _ ?_
  rw [List.take_of_length_le (by simpa using hlen)]
  exact List.mem_reverse.mpr (List.mem_map_of_mem hr)

/-- Without held wake sources nothing starts. -/
theorem startHeld_power (s : State) (h : s.power.heldWakes = []) : (startHeld s).power = s.power := by
  have hheld : { s.power with heldWakes := [] } = s.power := by rw [← h]
  simpa [startHeld, h, eachOf] using hheld

theorem refuseRequest_eq (rs : List (Nat × Nat)) (s : State) (t : Trans) (ht : s.power.trans = some t) :
    refuseRequest rs s = startHeld (modPower (fun p => { p with trans := none }) (answerTrans t
      { st := .refused, detail := (rs.headD (0, 0)).1 * 256 + (rs.headD (0, 0)).2 } (logRefusals t.moves rs s))) := by
  unfold refuseRequest
  rw [ht]
  rfl

/-- What refusing a request leaves of the power manager: the refusals are logged and counted, and the request is gone. -/
theorem refuseRequest_power (rs : List (Nat × Nat)) (s : State) (t : Trans) (ht : s.power.trans = some t)
    (hheld : s.power.heldWakes = []) : (refuseRequest rs s).power =
      { (logRefusals t.moves rs s).power with trans := none } := by
  have hkept : (logRefusals t.moves rs s).power.heldWakes = [] :=
    (logRefusals_keeps (fun s => s.power.heldWakes) _ _ _ fun _ _ => rfl).trans hheld
  rw [refuseRequest_eq rs s t ht, startHeld_power _ (by simpa using hkept)]
  simp

/-- A refused request changes no domain's state, ends, and is logged refusal by refusal (R410, R415). -/
theorem refuseRequest_refuses (rs : List (Nat × Nat)) (s : State) (t : Trans) (ht : s.power.trans = some t)
    (hheld : s.power.heldWakes = []) (hlen : rs.length ≤ 16) :
    (refuseRequest rs s).power.trans = none ∧ (∀ d, domSt (refuseRequest rs s) d = domSt s d) ∧
      ∀ r ∈ rs, refusalEntry t.moves s r ∈ (refuseRequest rs s).power.log := by
  have hpow := refuseRequest_power rs s t ht hheld
  refine ⟨by rw [hpow], fun d => ?_, ?_⟩
  · calc domSt (refuseRequest rs s) d
        = domSt (modPower (fun p => { p with trans := none }) (logRefusals t.moves rs s)) d := domSt_of_power hpow d
      _ = domSt s d := logRefusals_keeps (domSt · d) _ _ _ fun _ _ => rfl
  · rw [hpow]
    exact logRefusals_mem t.moves rs s hlen

/-! ### Answers (R14, R410, R411, R428) -/

theorem powerAnswersReceived_asked (s : State) (t : Trans) (ht : s.power.trans = some t) (hask : t.asking = true) :
    powerAnswersReceived s = if refusals s (t.moves.filter goesDown) = [] then beginTrans s
      else refuseRequest (refusals s (t.moves.filter goesDown)) s := by
  simp [powerAnswersReceived, ht, hask]

/-- What the start of a transition changes of the power manager: the answers are in, and with an upward profile its wake
report begins (R428). -/
theorem beginTrans_power (s : State) (t : Trans) (ht : s.power.trans = some t) :
    (beginTrans s).power =
      { (doIf t.isWake (upwardReport t.startUsec) s).power with trans := some { t with asking := false } } := by
  simp only [beginTrans, ht]
  rw [eachOf_power _ _ _ fun q s => ?_]
  · simp
  · rw [eachOf_power _ _ _ fun e s => by simp]
    rfl

theorem beginTrans_dom (s : State) (t : Trans) (ht : s.power.trans = some t) (d : Dom) :
    domSt (beginTrans s) d = domSt s d :=
  calc domSt (beginTrans s) d
      = domSt (modPower (fun p => { p with trans := some { t with asking := false } })
          (doIf t.isWake (upwardReport t.startUsec) s)) d := domSt_of_power (beginTrans_power s t ht) d
    _ = domSt s d := by cases t.isWake <;> rfl

/-- The reasons of R411 fit the entries' fields, and one request has at most one refusal of each party. -/
theorem refusals_length (s : State) (ms : List Move) : (refusals s ms).length ≤ 16 :=
  (List.length_filterMap_le _ parties).trans (by decide)

theorem refusals_codes {s : State} {ms : List Move} {r : Nat × Nat} (h : r ∈ refusals s ms) :
    r.1 < 256 ∧ r.2 < 256 := by
  obtain ⟨who, -, hwho⟩ := List.mem_filterMap.mp h
  obtain ⟨reason, hreason, rfl⟩ := Option.map_eq_some_iff.mp hwho
  exact ⟨partyCode_lt who, refuses_lt hreason⟩

/-- The refusals of a request of which `who` has not answered: its silence is reason 13 (R411). -/
def silentRefusals (s : State) (ms : List Move) (who : Party) : List (Nat × Nat) :=
  parties.filterMap fun w =>
    if w == who then some (partyCode w, 13) else (refuses s ms w).map fun r => (partyCode w, r)

theorem silentRefusals_length (s : State) (ms : List Move) (who : Party) : (silentRefusals s ms who).length ≤ 16 :=
  (List.length_filterMap_le _ parties).trans (by decide)

theorem mem_silentRefusals (s : State) (ms : List Move) (who : Party) : (partyCode who, 13) ∈ silentRefusals s ms who :=
  List.mem_filterMap.mpr ⟨who, mem_parties who, by simp⟩

theorem noAnswer_asked (who : Party) (s : State) (t : Trans) (ht : s.power.trans = some t) (hask : t.asking = true)
    (hwho : ∃ m ∈ t.moves.filter goesDown, isAsked s m.1 who = true) :
    noAnswer who s = refuseRequest (silentRefusals s (t.moves.filter goesDown) who) s := by
  have hany : (t.moves.filter goesDown).any (fun m => isAsked s m.1 who) = true := List.any_eq_true.mpr hwho
  simp only [noAnswer, ht, hask, hany, Bool.and_self, if_true]
  rfl

/-- DIAL is asked about a domain only when an event that waits needs it (R14). -/
theorem isAsked_dial {s : State} {d : Dom} (h : isAsked s d .dial = true) :
    ∃ e ∈ s.dial.evs, e.waits = true ∧ (eventNeeds s e).contains d = true := by
  obtain ⟨-, hevs⟩ := (Bool.and_eq_true _ _).mp h
  simpa using hevs

/-- JG is asked about LDn only when a Joryx route or a frame uses the port (R14, R411). -/
theorem isAsked_jg {s : State} {q : LPort} (h : isAsked s (.ld q) .jg = true) :
    (∃ r ∈ s.jrx.routes, r.port = q) ∨ s.jrx.ports[q].egress ≠ [] := by
  obtain ⟨-, hports⟩ := (Bool.and_eq_true _ _).mp h
  obtain ⟨p, -, hp⟩ := List.any_eq_true.mp (hports :)
  obtain ⟨hq, huse⟩ := (Bool.and_eq_true _ _).mp hp
  obtain rfl : q = p := by simpa using hq
  simpa using huse

/-! ### The ends of transitions (R207, R409, R410, R420) -/

/-- Both orders of R410 name every domain but AON once. -/
theorem order_count (d : Dom) (h : d ≠ .aon) : wakeOrder.count d = 1 ∧ entryOrder.count d = 1 := by
  cases d
  case aon => exact absurd rfl h
  case cv n | ld n | fq n | ho n =>
    revert n
    decide
  all_goals decide

/-- A list with a single move, in an order of domains: the move as often as the order names its domain. -/
theorem inOrder_replicate (order : List Dom) (m : Move) : inOrder order [m] = List.replicate (order.count m.1) m := by
  induction order with
  | nil => rfl
  | cons d order ih =>
    by_cases h : m.1 = d
    · simpa [inOrder, h, List.replicate_succ] using ih
    · simpa [inOrder, h, List.count_cons, Ne.symm h] using ih

theorem inOrder_single (order : List Dom) (m : Move) (h : order.count m.1 = 1) : inOrder order [m] = [m] := by
  rw [inOrder_replicate, h, List.replicate_one]

theorem inOrder_nil (order : List Dom) : inOrder order [] = [] := by
  simp [inOrder]

theorem carryMoves_nil (t : Trans) (s : State) : carryMoves t [] s = s := rfl

theorem carryMoves_single (t : Trans) (m : Move) (s : State) (h : t.reached = []) :
    carryMoves t [m] s = domMove m.1 m.2.2 s := by
  simp [carryMoves, eachOf, h]

theorem quadsDrain_single (t : Trans) (d : Dom) (a b : PState) (s : State) (hm : t.moves = [(d, a, b)])
    (hquad : ∀ k : Fin 64, d = .fq (quadOf k) → s.pool.engines[k].running = none) : quadsDrain t s = false := by
  refine List.any_eq_false.mpr fun e _ => ?_
  by_cases h : d = .fq (quadOf e)
  · have hidle : s.pool.engines[e.val].running = none := hquad e h
    simp [hidle]
  · simp [hm, h]

/-- The end of a transition that no command waits for: its profile is in force (R409). -/
theorem endTrans_power (t : Trans) (s : State) (hrq : t.rq = none) :
    (endTrans t s).power = { s.power with trans := none, profile := t.profile.getD s.power.profile } := by
  simp [endTrans, hrq]

theorem answerTrans_none (t : Trans) (a : Answer) (s : State) (hrq : t.rq = none) : answerTrans t a s = s := by
  simp [answerTrans, hrq]

/-- A transition of one domain that no command waits for carries out its move, up or down, and ends (R410). -/
theorem powerTransitionComplete_single (s : State) (t : Trans) (d : Dom) (a b : PState) (ht : s.power.trans = some t)
    (hask : t.asking = false) (hwake : t.isWake = false) (hm : t.moves = [(d, a, b)]) (hr : t.reached = [])
    (hd : d ≠ .aon) (hab : a ≠ b) (hrq : t.rq = none) (hdrain : quadsDrain t s = false) :
    powerTransitionComplete s = startHeld (pwrEvent 0 (endTrans t (domMove d b s))) := by
  obtain ⟨hwake_once, hentry_once⟩ := order_count d hd
  have hwo := inOrder_single wakeOrder (d, a, b) hwake_once
  have heo := inOrder_single entryOrder (d, a, b) hentry_once
  simp only [powerTransitionComplete, ht, hask, hwake, hdrain, Bool.or_self, Bool.false_eq_true, if_false, hm,
    answerTrans_none _ _ _ hrq]
  rcases Nat.lt_or_gt_of_ne (fun h => hab (PState.code_injective h)) with hdown | hup
  · have hups : [(d, a, b)].filter goesUp = [] := by simp [goesUp, hdown.le]
    have hdowns : [(d, a, b)].filter goesDown = [(d, a, b)] := by simp [goesDown, hdown]
    rw [hups, hdowns, inOrder_nil, heo, carryMoves_nil]
    by_cases hctl : d = .ctl <;> simp [hctl, carryMoves_nil, carryMoves_single _ _ _ hr]
  · have hups : [(d, a, b)].filter goesUp = [(d, a, b)] := by simp [goesUp, hup]
    have hdowns : [(d, a, b)].filter goesDown = [] := by simp [goesDown, hup.le]
    rw [hups, hdowns, inOrder_nil, hwo, carryMoves_single _ _ _ hr]
    rfl

/-- A quad that is to leave ON while an engine runs a codeword holds its transition (R207). -/
theorem powerTransitionComplete_draining (s : State) (t : Trans) (k : Fin 64) (b : PState) (ht : s.power.trans = some t)
    (hm : t.moves = [(.fq (quadOf k), .on, b)]) (hb : b ≠ .on) (hrun : s.pool.engines[k].running ≠ none) :
    powerTransitionComplete s = s := by
  have hdown : PState.on.code < b.code := Nat.pos_of_ne_zero fun h => hb (PState.code_injective h)
  have hdrain : quadsDrain t s = true :=
    List.any_eq_true.mpr ⟨k, List.mem_finRange k, by simpa [hm, goesDown, hdown, Option.isSome_iff_ne_none] using hrun⟩
  simp [powerTransitionComplete, ht, hdrain]

/-- What the end of a transition or wake leaves of the power manager (R409, R412). -/
theorem startHeld_endTrans_power (t : Trans) (s : State) (hrq : t.rq = none) (hheld : s.power.heldWakes = []) :
    (startHeld (pwrEvent 0 (endTrans t s))).power =
      { s.power with trans := none, profile := t.profile.getD s.power.profile } := by
  rw [startHeld_power _ (by simp [endTrans_power t s hrq, hheld])]
  simp [endTrans_power t s hrq]

theorem startHeld_endTrans_dom (t : Trans) (s : State) (hrq : t.rq = none) (hheld : s.power.heldWakes = []) (d : Dom) :
    domSt (startHeld (pwrEvent 0 (endTrans t s))) d = domSt s d :=
  domSt_of_power (t := modPower (fun p => { p with trans := none, profile := t.profile.getD p.profile }) s)
    (startHeld_endTrans_power t s hrq hheld) d

/-! ### Domains that wake, and wakes (R419, R420, R426) -/

theorem domainWakeComplete_waking (s : State) (t : Trans) (d : Dom) (m : Move) (ht : s.power.trans = some t)
    (hask : t.asking = false) (hwake : t.isWake = false) (hreached : t.reached.contains d = false)
    (hrec : recAsleep s d = false) (hm : t.moves.find? (fun m => m.1 == d && goesUp m) = some m) :
    domainWakeComplete d s =
      domMove d m.2.2 (modPower (fun p => { p with trans := some { t with reached := t.reached ++ [d] } }) s) := by
  simp only [domainWakeComplete, hrec, ht, hask, hwake, hreached, hm, Bool.false_eq_true, if_false, Bool.or_self,
    Bool.false_and]

/-- When no bank fails its check and the wake has not had CTL up, CTL rises with the checks recorded (R419, R426). -/
theorem bankCheckDone_ctl (s : State) (t : Trans) (m : Move) (ht : s.power.trans = some t) (hask : t.asking = false)
    (hwake : t.isWake = true) (hchecked : t.checked = false) (hreached : t.reached.contains .ctl = false)
    (hm : t.moves.find? (·.1 == .ctl) = some m) : ∃ u, bankCheckDone 0 s = domMove .ctl m.2.2 u ∧
      u.power.trans = some { t with checked := true, reached := t.reached ++ [.ctl] } := by
  have hpass : ∀ l : List (Fin 32), l.filter (fun k => (0 : BitVec 32).getLsbD k.val) = [] := fun l => by simp
  refine ⟨modPower (fun p => { p with trans := some { t with checked := true, reached := t.reached ++ [.ctl] } })
    (modPower (fun p => { p with
      lost := (wakingBanks t).foldl (fun l k => if bit p.kept k.val then l else putBit l k.val true) p.lost }) s), ?_, rfl⟩
  simp only [bankCheckDone, hpass, eachOf, List.foldl_nil, ht, hwake, hask, hchecked, hreached, hm, Bool.not_true,
    Bool.or_self, Bool.false_eq_true, if_false]

/-- The wake report of a wake that is done, with WAKE_SEQ one higher (R419, R433). -/
def wakeReported (p : Power) (usec : Nat) : Power :=
  { p with
    wakeSeq := p.wakeSeq + 1
    report := { p.report with
      lost := p.lost, cause := Vector.ofFn fun k => if bit p.lost k.val then p.cause[k] else 0
      latency := wd (usec - p.report.startUsec)
      configLost := bit p.lost 6, fwReloaded := fld p.lost 5 0 != 0 } }

/-- A wake with no more moves ends with its report, WAKE and WAKE_EVT (R419). -/
theorem wakeDone_ready (s : State) (t : Trans) (ht : s.power.trans = some t) (hask : t.asking = false)
    (hwake : t.isWake = true) (hchecked : t.checked = true) (hsup : s.sys.supRuns = true) (hm : t.moves = [])
    (hrq : t.rq = none) : wakeDone s = startHeld (pwrEvent 0 (wakeEvent (ring 26 (endTrans t
      (modPower (wakeReported · s.sys.usec) s))))) := by
  simp only [wakeDone, ht, hask, hwake, hchecked, hsup, hm, List.filter_nil, inOrder_nil, carryMoves_nil,
    answerTrans_none _ _ _ hrq, Bool.not_false, Bool.and_self, if_true]
  rfl

/-! ### Doorbell bits (R381) -/

theorem bit_eq_getLsbD (w : Word) (i : Nat) : bit w i = w.getLsbD i := by
  simp [bit, BitVec.getLsbD, Nat.testBit_eq_decide_div_mod_eq, beq_eq_decide]

theorem bit_or (x y : Word) (i : Nat) : bit (x ||| y) i = (bit x i || bit y i) := by
  simp [bit_eq_getLsbD]

theorem ringBits_dbHost (v b : Nat) (s : State) (h : bit s.mbx.dbHost b = true) :
    bit (ringBits v s).mbx.dbHost b = true := by
  simp [ringBits, bit_or, h]

/-- Posting an event clears no doorbell bit. -/
theorem postEvent_dbHost (n : Fin 8) (code tag : Nat) (a : Answer) (isDial : Bool) (b : Nat) (s : State)
    (h : bit s.mbx.dbHost b = true) : bit (postEvent n code tag a isDial s).mbx.dbHost b = true := by
  simp only [postEvent, postM, pourM]
  split
  · exact ringBits_dbHost _ b _ h
  · exact h

theorem pwrEvent_dbHost (outcome b : Nat) (s : State) (h : bit s.mbx.dbHost b = true) :
    bit (pwrEvent outcome s).mbx.dbHost b = true :=
  ringBits_dbHost _ b _ (postEvent_dbHost _ _ _ _ _ b s h)

theorem ring_dbHost (s : State) : bit (ring 26 s).mbx.dbHost 26 = true := by
  have hwake : bit (wd (2 ^ 26)) 26 = true := by decide
  exact (bit_or _ _ 26).trans (by rw [hwake, Bool.or_true])

/-- The bells and events at the end of a wake leave WAKE set and, with no wake source held, the power manager alone. -/
theorem wakeEnd_effect (s : State) (h : s.power.heldWakes = []) :
    (startHeld (pwrEvent 0 (wakeEvent (ring 26 s)))).power = s.power ∧
      bit (startHeld (pwrEvent 0 (wakeEvent (ring 26 s)))).mbx.dbHost 26 = true := by
  constructor
  · rw [startHeld_power _ (by simp [h])]
    simp
  · simp only [startHeld_keeps]
    exact pwrEvent_dbHost 0 26 _ (postEvent_dbHost _ _ _ _ _ 26 _ (ring_dbHost s))

end Sys2Proof.Machine

open Sys2Proof Sys2Proof.Machine

/-- The answers to a power request: `refusals` decides between the start of the transition and a refused request. -/
theorem powerAnswersComplete : Claims.PowerAnswersComplete := by
  intro s t ht hask
  refine ⟨fun hnone => ?_, fun hsome hheld => ?_, fun d q => ⟨isAsked_dial, isAsked_jg⟩, fun who hwho hheld => ?_⟩
  · have hrun : powerAnswersReceived s = beginTrans s := by rw [powerAnswersReceived_asked s t ht hask, if_pos hnone]
    have hpow := beginTrans_power s t ht
    refine ⟨_, congrArg Host.Outcome.next hrun, only_of_kept (beginTrans_keeps s), by rw [hpow],
      beginTrans_dom s t ht, fun hwake => ?_⟩
    simp [hpow, hwake, doIf, upwardReport]
  · obtain ⟨htrans, hdom, hlog⟩ := refuseRequest_refuses _ s t ht hheld (refusals_length s (t.moves.filter goesDown))
    have hrun := powerAnswersReceived_asked s t ht hask
    rw [if_neg hsome] at hrun
    refine ⟨_, congrArg Host.Outcome.next hrun, htrans, hdom, fun r hr => ⟨_, hlog r hr, ?_⟩⟩
    obtain ⟨hcode, hreason⟩ := refusals_codes hr
    exact ⟨Nat.mod_eq_of_lt hcode, Nat.mod_eq_of_lt hreason⟩
  · obtain ⟨htrans, hdom, hlog⟩ :=
      refuseRequest_refuses _ s t ht hheld (silentRefusals_length s (t.moves.filter goesDown) who)
    exact ⟨_, congrArg Host.Outcome.next (noAnswer_asked who s t ht hask hwho), htrans, hdom, _,
      hlog _ (mem_silentRefusals s _ who), Nat.mod_eq_of_lt (partyCode_lt who), rfl⟩

/-- The ends of transitions and wakes, each by what its event runs and what a move changes of the record. -/
theorem powerEndsComplete : Claims.PowerTransitionsComplete := by
  intro s t ht hask
  refine ⟨fun d a b hwake hm hr hd hab _ hunit hheld hrq hquad => ?_, fun k b hm hb hrun => ?_,
    fun d m hwake hd hreached hrec hm hunit => ?_, fun m hwake hchecked hreached hm => ?_,
    fun hwake hchecked hsup hheld hm hrq => ?_⟩
  · have hoff := heldOff_of_unit s d hunit
    have hkept := (domMove_heldWakes d b s hoff).trans hheld
    have hpow := startHeld_endTrans_power t (domMove d b s) hrq hkept
    refine ⟨_, congrArg Host.Outcome.next (powerTransitionComplete_single s t d a b ht hask hwake hm hr hd hab hrq
      (quadsDrain_single t d a b s hm hquad)), ?_, fun e he => ?_, by rw [hpow], ?_⟩
    · rw [startHeld_endTrans_dom t _ hrq hkept, domMove_dom d b s hd hoff]
    · rw [startHeld_endTrans_dom t _ hrq hkept, domMove_dom_other d e b s he hoff]
    · rw [hpow, domMove_profile d b s hoff]
  · exact congrArg Host.Outcome.next (powerTransitionComplete_draining s t k b ht hm hb hrun)
  · have hrun := domainWakeComplete_waking s t d m ht hask hwake hreached hrec hm
    have hoff := heldOff_of_unit
      (modPower (fun p => { p with trans := some { t with reached := t.reached ++ [d] } }) s) d hunit
    exact ⟨_, congrArg Host.Outcome.next hrun, domMove_dom d m.2.2 _ hd hoff,
      fun e he => domMove_dom_other d e m.2.2 _ he hoff, domMove_trans d m.2.2 _ hoff⟩
  · obtain ⟨u, hrun, htrans⟩ := bankCheckDone_ctl s t m ht hask hwake hchecked hreached hm
    exact ⟨_, congrArg Host.Outcome.next hrun, domMove_dom .ctl m.2.2 u nofun rfl,
      (domMove_trans .ctl m.2.2 u rfl).trans htrans⟩
  · have hrun := wakeDone_ready s t ht hask hwake hchecked hsup hm hrq
    have hpow := endTrans_power t (modPower (wakeReported · s.sys.usec) s) hrq
    obtain ⟨hend, hbell⟩ := wakeEnd_effect (endTrans t (modPower (wakeReported · s.sys.usec) s))
      (by rw [hpow]; exact hheld)
    rw [hpow] at hend
    exact ⟨_, congrArg Host.Outcome.next hrun, congrArg Power.wakeSeq hend, congrArg Power.trans hend,
      congrArg Power.profile hend, hbell⟩

/-- Settles O54: a move changes, apart from the banks, its domain's state alone; the events carry out moves and end or refuse
the request. -/
theorem powerTransitionsComplete : Obligations.PowerTransitionsComplete := ⟨powerAnswersComplete, powerEndsComplete⟩
end

section
/-! PROOF. Queue bounds (R69, R367, R415, R466), one lemma for each operation: the shared operations, recovery and hand-over. A
lemma with `↔` is of an operation that leaves every queue and log alone; the others keep them within their lengths. -/

namespace Sys2Proof.Machine

variable {s : State}

theorem bounded_congr {s t : State} (h : t.mbx = s.mbx ∧ t.jrx = s.jrx ∧ t.faults = s.faults ∧ t.power = s.power) :
    Claims.Bounded t ↔ Claims.Bounded s := by
  obtain ⟨hm, hj, hf, hp⟩ := h
  simp only [Claims.Bounded, hm, hj, hf, hp]

@[simp] theorem modMbx_bounded {f : Mbx → Mbx} {s : State} (hm : ∀ x, (f x).m = x.m) (hj : ∀ x, (f x).j = x.j) :
    Claims.Bounded (modMbx f s) ↔ Claims.Bounded s := by
  simp only [Claims.Bounded, modMbx_mbx, modMbx_jrx, modMbx_faults, modMbx_power, hm, hj]

theorem modM_bounded {n : Fin 8} {f : MChan → MChan} {s : State} (h : Claims.Bounded s)
    (hf : s.mbx.m[n].inQ.length ≤ 16 → s.mbx.m[n].outQ.length ≤ 16 →
      (f s.mbx.m[n]).inQ.length ≤ 16 ∧ (f s.mbx.m[n]).outQ.length ≤ 16) : Claims.Bounded (modM n f s) := by
  obtain ⟨hm, hrest⟩ := h
  refine ⟨fun k => ?_, hrest⟩
  obtain rfl | hk := eq_or_ne k n
  · simpa [modM] using hf (hm k).1 (hm k).2
  · simpa [modM, hk] using hm k

theorem modJ_bounded {n : Fin 4} {f : JChan → JChan} {s : State} (h : Claims.Bounded s)
    (hf : s.mbx.j[n].inQ.length ≤ 16 → (f s.mbx.j[n]).inQ.length ≤ 16) : Claims.Bounded (modJ n f s) := by
  obtain ⟨hm, hj, hrest⟩ := h
  refine ⟨hm, fun k => ?_, hrest⟩
  obtain rfl | hk := eq_or_ne k n
  · simpa [modJ] using hf (hj k)
  · simpa [modJ, hk] using hj k

@[simp] theorem modJrx_bounded {f : Joryx → Joryx} {s : State} (h : ∀ x, (f x).ports = x.ports) :
    Claims.Bounded (modJrx f s) ↔ Claims.Bounded s := by
  simp only [Claims.Bounded, modJrx_mbx, modJrx_jrx, modJrx_faults, modJrx_power, h]

theorem modJp_bounded {p : LPort} {f : JrxPort → JrxPort} {s : State} (h : Claims.Bounded s)
    (hf : s.jrx.ports[p].egress.length ≤ 64 → (f s.jrx.ports[p]).egress.length ≤ 64) : Claims.Bounded (modJp p f s) := by
  obtain ⟨hm, hj, hjrx, hrest⟩ := h
  refine ⟨hm, hj, fun k => ?_, hrest⟩
  obtain rfl | hk := eq_or_ne k p
  · simpa using hf (hjrx k)
  · simpa [hk] using hjrx k

theorem modFaults_bounded {f : Faults → Faults} {s : State} (h : Claims.Bounded s)
    (hf : s.faults.log.length ≤ 256 → (f s.faults).log.length ≤ 256) : Claims.Bounded (modFaults f s) := by
  obtain ⟨hm, hj, hjrx, hlog, hpow⟩ := h
  exact ⟨hm, hj, hjrx, hf hlog, hpow⟩

theorem modPower_bounded {f : Power → Power} {s : State} (h : Claims.Bounded s)
    (hf : s.power.log.length ≤ 16 → (f s.power).log.length ≤ 16) : Claims.Bounded (modPower f s) := by
  obtain ⟨hm, hj, hjrx, hlog, hpow⟩ := h
  exact ⟨hm, hj, hjrx, hlog, hf hpow⟩

/-! Updates that leave the queues and logs alone. -/

@[simp] theorem modM_bounded_iff {n : Fin 8} {f : MChan → MChan} {s : State}
    (hi : ∀ c, (f c).inQ = c.inQ) (ho : ∀ c, (f c).outQ = c.outQ) :
    Claims.Bounded (modM n f s) ↔ Claims.Bounded s := by
  have hq : ∀ k : Fin 8, (modM n f s).mbx.m[k].inQ = s.mbx.m[k].inQ ∧ (modM n f s).mbx.m[k].outQ = s.mbx.m[k].outQ := by
    intro k
    obtain rfl | hk := eq_or_ne k n
    · simpa [modM] using ⟨hi _, ho _⟩
    · simp [modM, hk]
  simp only [Claims.Bounded, hq]
  rfl

@[simp] theorem modJ_bounded_iff {n : Fin 4} {f : JChan → JChan} {s : State}
    (hi : ∀ c, (f c).inQ = c.inQ) : Claims.Bounded (modJ n f s) ↔ Claims.Bounded s := by
  have hq : ∀ k : Fin 4, (modJ n f s).mbx.j[k].inQ = s.mbx.j[k].inQ := by
    intro k
    obtain rfl | hk := eq_or_ne k n
    · simpa [modJ] using hi _
    · simp [modJ, hk]
  simp only [Claims.Bounded, hq]
  rfl

@[simp] theorem modJp_bounded_iff {p : LPort} {f : JrxPort → JrxPort} {s : State}
    (he : ∀ x, (f x).egress = x.egress) : Claims.Bounded (modJp p f s) ↔ Claims.Bounded s := by
  have hq : ∀ k : LPort, (modJp p f s).jrx.ports[k].egress = s.jrx.ports[k].egress := by
    intro k
    obtain rfl | hk := eq_or_ne k p
    · simpa using he _
    · simp [hk]
  simp only [Claims.Bounded, hq]
  rfl

@[simp] theorem modFaults_bounded_iff {f : Faults → Faults} {s : State} (h : ∀ x, (f x).log = x.log) :
    Claims.Bounded (modFaults f s) ↔ Claims.Bounded s := by
  simp only [Claims.Bounded, modFaults_mbx, modFaults_jrx, modFaults_faults, modFaults_power, h]

@[simp] theorem modPower_bounded_iff {f : Power → Power} {s : State} (h : ∀ x, (f x).log = x.log) :
    Claims.Bounded (modPower f s) ↔ Claims.Bounded s := by
  simp only [Claims.Bounded, modPower_mbx, modPower_jrx, modPower_faults, modPower_power, h]

theorem eachOf_bounded {α : Type} {l : List α} {f : α → State → State} {s : State} (h : Claims.Bounded s)
    (hf : ∀ x s, Claims.Bounded s → Claims.Bounded (f x s)) : Claims.Bounded (eachOf l f s) := by
  induction l generalizing s with
  | nil => exact h
  | cons x l ih => exact ih (hf x s h)

theorem eachPort_bounded {f : LPort → State → State} {s : State} (h : Claims.Bounded s)
    (hf : ∀ x s, Claims.Bounded s → Claims.Bounded (f x s)) : Claims.Bounded (eachPort f s) :=
  hf _ _ (hf _ _ (hf _ _ (hf _ _ h)))

theorem doIf_bounded {c : Bool} {f : State → State} {s : State} (h : Claims.Bounded s)
    (hf : ∀ s, Claims.Bounded s → Claims.Bounded (f s)) : Claims.Bounded (doIf c f s) := by
  cases c
  · exact h
  · exact hf s h

theorem access_bounded {who : HostPort} {f : State → State} {s : State} (h : Claims.Bounded s)
    (hf : ∀ s, Claims.Bounded s → Claims.Bounded (f s)) : Claims.Bounded (access who f s) := by
  unfold access
  split
  · exact hf s h
  · refine (bounded_congr ?_).mpr h
    simp

theorem ite_bounded {c : Prop} [Decidable c] {a b : State} (ha : Claims.Bounded a) (hb : Claims.Bounded b) :
    Claims.Bounded (if c then a else b) := by
  split
  · exact ha
  · exact hb

@[simp] theorem bounded_ite {c : Prop} [Decidable c] {a b : State} :
    Claims.Bounded (if c then a else b) ↔ if c then Claims.Bounded a else Claims.Bounded b := by
  split <;> rfl

@[simp] theorem ringBits_bounded {v : Nat} {s : State} : Claims.Bounded (ringBits v s) ↔ Claims.Bounded s := by
  simp [ringBits]
@[simp] theorem ring_bounded {b : Nat} {s : State} : Claims.Bounded (ring b s) ↔ Claims.Bounded s :=
  ringBits_bounded

theorem MChan.pour_bounded (c : MChan) (ho : c.outQ.length ≤ 16) :
    c.pour.inQ = c.inQ ∧ c.pour.outQ.length ≤ 16 := by
  unfold MChan.pour
  split
  · exact ⟨rfl, ho⟩
  · simp only
    split <;> simp <;> omega

@[simp] theorem pourM_bounded {n : Fin 8} {s : State} (h : Claims.Bounded s) : Claims.Bounded (pourM n s) := by
  refine ringBits_bounded.mpr (modM_bounded h fun hi ho => ?_)
  obtain ⟨hin, hout⟩ := MChan.pour_bounded s.mbx.m[n] ho
  exact ⟨hin ▸ hi, hout⟩

@[simp] theorem postM_bounded {n : Fin 8} {m : OutMsg} {s : State} (h : Claims.Bounded s) :
    Claims.Bounded (postM n m s) := by
  simp only [postM]
  split
  all_goals simp [h]

/-- The queues and logs are empty after reset. -/
theorem reset_bounded : Claims.Bounded State.reset := by
  refine ⟨?_, ?_, ?_, ?_, ?_⟩ <;> decide

@[simp] theorem enterReset_bounded : Claims.Bounded (enterReset s) := reset_bounded

/-! ### Messages, replies, alarms and events -/

@[simp] theorem modPort_bounded {p : LPort} {f : PortSt → PortSt} :
    Claims.Bounded (modPort p f s) ↔ Claims.Bounded s := Iff.rfl

@[simp] theorem modFront_bounded {p : LPort} {f : Front → Front} :
    Claims.Bounded (modFront p f s) ↔ Claims.Bounded s := Iff.rfl

@[simp] theorem modRx_bounded {p : LPort} {f : Rx → Rx} : Claims.Bounded (modRx p f s) ↔ Claims.Bounded s :=
  Iff.rfl

@[simp] theorem modSf_bounded {p : LPort} {f : Sf → Sf} : Claims.Bounded (modSf p f s) ↔ Claims.Bounded s :=
  Iff.rfl

@[simp] theorem modNlc_bounded {p : LPort} {f : Nlc → Nlc} : Claims.Bounded (modNlc p f s) ↔ Claims.Bounded s :=
  Iff.rfl

@[simp] theorem modTx_bounded {p : LPort} {f : Tx → Tx} : Claims.Bounded (modTx p f s) ↔ Claims.Bounded s :=
  Iff.rfl

@[simp] theorem modTr_bounded {p : LPort} {f : Train → Train} : Claims.Bounded (modTr p f s) ↔ Claims.Bounded s :=
  Iff.rfl

@[simp] theorem modTr2_bounded {p : LPort} {f : Train2 → Train2} : Claims.Bounded (modTr2 p f s) ↔ Claims.Bounded s :=
  Iff.rfl

@[simp] theorem modCal_bounded {p : LPort} {f : Cal → Cal} : Claims.Bounded (modCal p f s) ↔ Claims.Bounded s :=
  Iff.rfl

@[simp] theorem modSys_bounded {f : Sys → Sys} : Claims.Bounded (modSys f s) ↔ Claims.Bounded s := Iff.rfl

@[simp] theorem modLane_bounded {k : HLane} {f : Lane → Lane} : Claims.Bounded (modLane k f s) ↔ Claims.Bounded s :=
  Iff.rfl

@[simp] theorem modMap_bounded {f : MapSt → MapSt} : Claims.Bounded (modMap f s) ↔ Claims.Bounded s := Iff.rfl

@[simp] theorem modPool_bounded {f : Pool → Pool} : Claims.Bounded (modPool f s) ↔ Claims.Bounded s := Iff.rfl

@[simp] theorem modPp_bounded {p : LPort} {f : PoolPort → PoolPort} :
    Claims.Bounded (modPp p f s) ↔ Claims.Bounded s := Iff.rfl

@[simp] theorem modEng_bounded {e : Engine} {f : EngineSt → EngineSt} :
    Claims.Bounded (modEng e f s) ↔ Claims.Bounded s := Iff.rfl

@[simp] theorem modDial_bounded {f : Dial → Dial} : Claims.Bounded (modDial f s) ↔ Claims.Bounded s := Iff.rfl

@[simp] theorem modMon_bounded {f : Mon → Mon} : Claims.Bounded (modMon f s) ↔ Claims.Bounded s := Iff.rfl

@[simp] theorem modTwi_bounded {f : Twi → Twi} : Claims.Bounded (modTwi f s) ↔ Claims.Bounded s := Iff.rfl

@[simp] theorem modTest_bounded {f : TestAcc → TestAcc} : Claims.Bounded (modTest f s) ↔ Claims.Bounded s :=
  Iff.rfl

@[simp] theorem putBulk_bounded {off : Nat} {ws : List Word} : Claims.Bounded (putBulk off ws s) ↔ Claims.Bounded s :=
  Iff.rfl

@[simp] theorem tookFree_bounded : Claims.Bounded (tookFree s) ↔ Claims.Bounded s := Iff.rfl

@[simp] theorem setDom_bounded {d : Dom} {x : PState} (h : Claims.Bounded s) : Claims.Bounded (setDom d x s) := by
  unfold setDom
  split <;> simp [h]

@[simp] theorem postEvent_bounded {n : Fin 8} {code : Nat} {tag : Nat} {a : Answer} {isDial : Bool}
    (h : Claims.Bounded s) :
    Claims.Bounded (postEvent n code tag a isDial s) := by
  simp [postEvent, h]

@[simp] theorem jrxCount_bounded {p : LPort} {i : Fin 6} (h : Claims.Bounded s) : Claims.Bounded (jrxCount p i s) := by
  simp [jrxCount, h]

@[simp] theorem egress_bounded {p : LPort} {f : Frame} (h : Claims.Bounded s) : Claims.Bounded (egress p f s) := by
  unfold egress
  split
  · next hroom => exact modJp_bounded h fun _ => by simpa using hroom
  · exact jrxCount_bounded h

@[simp] theorem sendFrame_bounded {dest : BitVec 11} {chan : BitVec 2} {type : BitVec 3} {body : List Word} {back : LPort}
    (h : Claims.Bounded s) :
    Claims.Bounded (sendFrame dest chan type body back s) := by
  unfold sendFrame
  (repeat' split) <;> simp [h]

@[simp] theorem unforward_bounded {rq : Req} (h : Claims.Bounded s) : Claims.Bounded (unforward rq s) := by
  simp [unforward, h]

@[simp] theorem taken_bounded {rq : Req} (h : Claims.Bounded s) : Claims.Bounded (taken rq s) := by
  simp [taken, h]

@[simp] theorem replyChan_bounded {c : Chan} {opcode : Nat} {rq : Req} {a : Answer} {hw : Bool} (h : Claims.Bounded s) :
    Claims.Bounded (replyChan c opcode rq a hw s) := by
  unfold replyChan
  split <;> simp [h]

@[simp] theorem modEvs_bounded {f : DialEv → DialEv} : Claims.Bounded (modEvs f s) ↔ Claims.Bounded s :=
  Iff.rfl

@[simp] theorem dialCount_bounded {i : Fin 10} : Claims.Bounded (dialCount i s) ↔ Claims.Bounded s := Iff.rfl

@[simp] theorem completeWith_bounded {e : DialEv} {st : Status} {reason : Nat} {cmdStatus : Word}
    (h : Claims.Bounded s) :
    Claims.Bounded (completeWith e st reason cmdStatus s) := by
  unfold completeWith
  (repeat' split) <;> simp [h]

@[simp] theorem completeEvent_bounded {e : DialEv} {a : Answer} (h : Claims.Bounded s) :
    Claims.Bounded (completeEvent e a s) := by
  simp [completeEvent, h]

@[simp] theorem blobResult_bounded {a : Answer} : Claims.Bounded (blobResult a s) ↔ Claims.Bounded s := Iff.rfl

@[simp] theorem reply_bounded {opcode : Nat} {rq : Req} {a : Answer} (h : Claims.Bounded s) :
    Claims.Bounded (reply opcode rq a s) := by
  simp only [reply]
  (repeat' split) <;> simp [h]

@[simp] theorem completeExact_bounded {e : DialEv} {a : Answer} (h : Claims.Bounded s) :
    Claims.Bounded (completeExact e a s) := by
  unfold completeExact
  split <;> simp [h]

@[simp] theorem abortEvent_bounded {e : DialEv} {reason : Nat} (h : Claims.Bounded s) :
    Claims.Bounded (abortEvent e reason s) := by
  simp only [abortEvent]
  (repeat' split) <;> simp [h]

@[simp] theorem modAlarm_bounded {key : AlarmKey} {f : Alarm → Alarm} :
    Claims.Bounded (modAlarm key f s) ↔ Claims.Bounded s := by
  cases key <;> exact Iff.rfl

@[simp] theorem alarmEvent_bounded {key : AlarmKey} {b : Nat} {raised : Bool} (h : Claims.Bounded s) :
    Claims.Bounded (alarmEvent key b raised s) := by
  simp [alarmEvent, h]

@[simp] theorem setAlarm_bounded {key : AlarmKey} {b : Nat} {on : Bool} (h : Claims.Bounded s) :
    Claims.Bounded (setAlarm key b on s) := by
  simp [setAlarm, h]

@[simp] theorem raiseAlarm_bounded {key : AlarmKey} {b : Nat} {cond : Bool} (h : Claims.Bounded s) :
    Claims.Bounded (raiseAlarm key b cond s) := by
  simp [raiseAlarm, h]

@[simp] theorem stateEvent_bounded {old : DevState} (h : Claims.Bounded s) : Claims.Bounded (stateEvent old s) := by
  simp [stateEvent, h]

@[simp] theorem moveDev_bounded {new : DevState} {reason : Nat} (h : Claims.Bounded s) :
    Claims.Bounded (moveDev new reason s) := by
  simp [moveDev, h]

@[simp] theorem pwrEvent_bounded {outcome : Nat} (h : Claims.Bounded s) : Claims.Bounded (pwrEvent outcome s) := by
  simp [pwrEvent, h]

/-! ### Outputs -/

@[simp] theorem refreshPort_bounded {p : LPort} : Claims.Bounded (refreshPort p s) ↔ Claims.Bounded s :=
  Iff.rfl

@[simp] theorem refresh_bounded : Claims.Bounded (refresh s) ↔ Claims.Bounded s := by
  simp [refresh, eachPort]

@[simp] theorem endMute_bounded {p : LPort} : Claims.Bounded (endMute p s) ↔ Claims.Bounded s := Iff.rfl

/-! ### Clients and the span -/

@[simp] theorem sendMsg_bounded {p : LPort} {type : BitVec 4} {body : List Word} :
    Claims.Bounded (sendMsg p type body s) ↔ Claims.Bounded s := Iff.rfl

@[simp] theorem sendPlan_bounded {p : LPort} {t : Tune} : Claims.Bounded (sendPlan p t s) ↔ Claims.Bounded s :=
  Iff.rfl

@[simp] theorem dropEvs_bounded {f : DialEv → Bool} : Claims.Bounded (dropEvs f s) ↔ Claims.Bounded s :=
  Iff.rfl

@[simp] theorem cancelSwitches_bounded {primed : Bool} {p : LPort} :
    Claims.Bounded (cancelSwitches primed p s) ↔ Claims.Bounded s := Iff.rfl

@[simp] theorem rateTaken_bounded {p : LPort} {k : Nat} : Claims.Bounded (rateTaken p k s) ↔ Claims.Bounded s :=
  bounded_congr (by simp)

@[simp] theorem cancelTrain_bounded {p : LPort} : Claims.Bounded (cancelTrain p s) ↔ Claims.Bounded s :=
  bounded_congr (by simp)

@[simp] theorem switchAborted_bounded {k : DialKind} : Claims.Bounded (switchAborted k s) ↔ Claims.Bounded s :=
  bounded_congr (by simp)

/-! ### References -/

@[simp] theorem enterEvent_bounded {e : DialEv} : Claims.Bounded (enterEvent e s) ↔ Claims.Bounded s := Iff.rfl

@[simp] theorem refLost_bounded {r : RefCode} : Claims.Bounded (refLost r s) ↔ Claims.Bounded s := Iff.rfl

@[simp] theorem unhold_bounded {r : RefCode} : Claims.Bounded (unhold r s) ↔ Claims.Bounded s := Iff.rfl

@[simp] theorem jumpAbort_bounded {reason : Nat} {e : DialEv} (h : Claims.Bounded s) :
    Claims.Bounded (jumpAbort reason e s) := by
  simp [jumpAbort, h]

@[simp] theorem refJump_bounded {r : RefCode} {new : Psfn} {old : Psfn} {restart : Bool} (h : Claims.Bounded s) :
    Claims.Bounded (refJump r new old restart s) := by
  unfold refJump
  simp only
  split
  · exact eachOf_bounded h fun _ _ h => jumpAbort_bounded h
  · exact unhold_bounded.mpr h

@[simp] theorem keepOffset_bounded {r : RefCode} : Claims.Bounded (keepOffset r s) ↔ Claims.Bounded s :=
  bounded_congr (by simp)

/-! ### Groups -/

@[simp] theorem nlcEvalPort_bounded {p : LPort} (h : Claims.Bounded s) : Claims.Bounded (nlcEvalPort p s) := by
  simp [nlcEvalPort, h]

@[simp] theorem nlcEval_bounded (h : Claims.Bounded s) : Claims.Bounded (nlcEval s) := by
  unfold nlcEval
  exact eachPort_bounded h fun _ _ h => by simp [h]

@[simp] theorem txDown_bounded {p : LPort} : Claims.Bounded (txDown p s) ↔ Claims.Bounded s := Iff.rfl

/-! ### Ports: acquisition and training -/

@[simp] theorem modClients_bounded {t : Client → Bool} {f : Client → Client} :
    Claims.Bounded (modClients t f s) ↔ Claims.Bounded s := Iff.rfl

@[simp] theorem setRxFail_bounded {first : HLane} {on : Bool} (h : Claims.Bounded s) :
    Claims.Bounded (setRxFail first on s) := by
  simp [setRxFail, h]

@[simp] theorem failClients_bounded {p : LPort} (h : Claims.Bounded s) : Claims.Bounded (failClients p s) := by
  unfold failClients
  exact eachOf_bounded h fun _ _ h => by simp [h]

@[simp] theorem poolEnter_bounded {p : LPort} : Claims.Bounded (poolEnter p s) ↔ Claims.Bounded s := Iff.rfl

@[simp] theorem discardOpen_bounded {p : LPort} : Claims.Bounded (discardOpen p s) ↔ Claims.Bounded s :=
  Iff.rfl

@[simp] theorem beCautious_bounded {p : LPort} : Claims.Bounded (beCautious p s) ↔ Claims.Bounded s := Iff.rfl

@[simp] theorem poolLeave_bounded {p : LPort} (h : Claims.Bounded s) : Claims.Bounded (poolLeave p s) := by
  simp [poolLeave, h]

@[simp] theorem setPort_bounded {p : LPort} {st : PortState} (h : Claims.Bounded s) :
    Claims.Bounded (setPort p st s) := by
  simp [setPort, h]

@[simp] theorem unalign_bounded {p : LPort} : Claims.Bounded (unalign p s) ↔ Claims.Bounded s := Iff.rfl

@[simp] theorem dropLock_bounded {p : LPort} : Claims.Bounded (dropLock p s) ↔ Claims.Bounded s :=
  bounded_congr (by simp)

@[simp] theorem startAttempt_bounded {p : LPort} (h : Claims.Bounded s) : Claims.Bounded (startAttempt p s) := by
  simp [startAttempt, h]

@[simp] theorem maybeAcquire_bounded {p : LPort} (h : Claims.Bounded s) : Claims.Bounded (maybeAcquire p s) := by
  simp [maybeAcquire, h]

@[simp] theorem rxIdle_bounded {p : LPort} : Claims.Bounded (rxIdle p s) ↔ Claims.Bounded s :=
  bounded_congr (by simp)

@[simp] theorem acqDescs_bounded {p : LPort} : Claims.Bounded (acqDescs p s) ↔ Claims.Bounded s := Iff.rfl

@[simp] theorem acqFormats_bounded {p : LPort} : Claims.Bounded (acqFormats p s) ↔ Claims.Bounded s := Iff.rfl

@[simp] theorem enterDown_bounded {p : LPort} (h : Claims.Bounded s) : Claims.Bounded (enterDown p s) := by
  simp [enterDown, h]

@[simp] theorem enterMuted_bounded {p : LPort} (h : Claims.Bounded s) : Claims.Bounded (enterMuted p s) := by
  unfold enterMuted
  exact maybeAcquire_bounded (by simp [h])

@[simp] theorem enterAcquire_bounded {p : LPort} (h : Claims.Bounded s) : Claims.Bounded (enterAcquire p s) := by
  simp [enterAcquire, h]

@[simp] theorem startAcquire_bounded {p : LPort} (h : Claims.Bounded s) : Claims.Bounded (startAcquire p s) := by
  simp [startAcquire, h]

@[simp] theorem enterHoldover_bounded {primed : Bool} {p : LPort} (h : Claims.Bounded s) :
    Claims.Bounded (enterHoldover primed p s) := by
  simp [enterHoldover, h]

@[simp] theorem enterTraffic_bounded {p : LPort} (h : Claims.Bounded s) : Claims.Bounded (enterTraffic p s) := by
  simp [enterTraffic, h]

@[simp] theorem trainFail_bounded {p : LPort} {reason : Nat} {sendAbort : Bool} {counts : Bool} (h : Claims.Bounded s) :
    Claims.Bounded (trainFail p reason sendAbort counts s) := by
  simp [trainFail, h]

@[simp] theorem failIfTraining_bounded {p : LPort} {reason : Nat} {sendAbort : Bool} (h : Claims.Bounded s) :
    Claims.Bounded (failIfTraining p reason sendAbort s) := by
  unfold failIfTraining
  split <;> simp [h]

@[simp] theorem lockLoss_bounded {p : LPort} (h : Claims.Bounded s) : Claims.Bounded (lockLoss p s) := by
  simp only [lockLoss]
  (repeat' split) <;> simp [h]

@[simp] theorem lossOfSignal_bounded {p : LPort} (h : Claims.Bounded s) : Claims.Bounded (lossOfSignal p s) := by
  simp [lossOfSignal, h]

/-! ### Calibration runs -/

@[simp] theorem calRetarget_bounded {p : LPort} : Claims.Bounded (calRetarget p s) ↔ Claims.Bounded s :=
  Iff.rfl

@[simp] theorem calSnap_bounded {p : LPort} : Claims.Bounded (calSnap p s) ↔ Claims.Bounded s := Iff.rfl

@[simp] theorem calBegin_bounded {p : LPort} {kind : CalRunKind} {items : BitVec 6} {trigger : BitVec 3}
    (h : Claims.Bounded s) :
    Claims.Bounded (calBegin p kind items trigger s) := by
  simp [calBegin, h]

@[simp] theorem calStart_bounded {p : LPort} {kind : CalRunKind} {items : BitVec 6} {trigger : BitVec 3}
    (h : Claims.Bounded s) :
    Claims.Bounded (calStart p kind items trigger s) := by
  simp [calStart, h]

@[simp] theorem endChange_bounded {p : LPort} (h : Claims.Bounded s) : Claims.Bounded (endChange p s) := by
  simp [endChange, h]

@[simp] theorem calWaited_bounded {p : LPort} (h : Claims.Bounded s) : Claims.Bounded (calWaited p s) := by
  simp [calWaited, h]

@[simp] theorem calAbort_bounded {p : LPort} (h : Claims.Bounded s) : Claims.Bounded (calAbort p s) := by
  simp [calAbort, h]

@[simp] theorem calClock_bounded {p : LPort} {clock : Bool} (h : Claims.Bounded s) :
    Claims.Bounded (calClock p clock s) := by
  simp [calClock, h]

@[simp] theorem calAccepted_bounded {p : LPort} {first : CalVals} {second : CalVals} (h : Claims.Bounded s) :
    Claims.Bounded (calAccepted p first second s) := by
  unfold calAccepted
  refine calWaited_bounded ?_
  simp [h]

@[simp] theorem calRejected_bounded {p : LPort} {bad : BitVec 6} (h : Claims.Bounded s) :
    Claims.Bounded (calRejected p bad s) := by
  simp [calRejected, h]

@[simp] theorem calBoundary_bounded {p : LPort} : Claims.Bounded (calBoundary p s) ↔ Claims.Bounded s :=
  Iff.rfl

/-! ### Reset, safe actions and the fault log -/

@[simp] theorem modUnit_bounded {u : FUnit} {f : UnitSt → UnitSt} (h : Claims.Bounded s) :
    Claims.Bounded (modUnit u f s) := by
  simp [modUnit, h]

@[simp] theorem putBack_bounded {again : Bool} {j : Option Job} :
    Claims.Bounded (putBack again j s) ↔ Claims.Bounded s :=
  bounded_congr (by simp)

@[simp] theorem takeBack_bounded {e : Engine} : Claims.Bounded (takeBack e s) ↔ Claims.Bounded s :=
  bounded_congr (by simp)

@[simp] theorem fenceAlarms_bounded (h : Claims.Bounded s) : Claims.Bounded (fenceAlarms s) := by
  simp [fenceAlarms, h]

@[simp] theorem fence_bounded {e : Engine} (h : Claims.Bounded s) : Claims.Bounded (fence e s) := by
  simp [fence, h]

@[simp] theorem enterResetKeepLog_bounded (h : Claims.Bounded s) : Claims.Bounded (enterResetKeepLog s) := by
  obtain ⟨-, -, -, hlog, -⟩ := h
  obtain ⟨hm, hj, hjrx, -, hpow⟩ := reset_bounded
  exact ⟨hm, hj, hjrx, hlog, hpow⟩

@[simp] theorem faultMutePort_bounded {p : LPort} {drv : Bool} :
    Claims.Bounded (faultMutePort p drv s) ↔ Claims.Bounded s := Iff.rfl

@[simp] theorem safeAction_bounded {u : FUnit} (h : Claims.Bounded s) : Claims.Bounded (safeAction u s) := by
  unfold safeAction
  split
  · simp [h]
  · simp [h]
  · exact eachOf_bounded h fun _ _ h => takeBack_bounded.mpr h
  · exact eachOf_bounded (modMap_bounded.mpr (eachPort_bounded h fun _ _ h => discardOpen_bounded.mpr h))
      fun _ _ h => setRxFail_bounded h
  · simp [h]
  · simp only [refresh_bounded]
    exact eachPort_bounded h fun _ _ h => faultMutePort_bounded.mpr h
  · exact h
  · exact h

@[simp] theorem writeEntry_bounded {r : FaultRec} {x : LogFate} (h : Claims.Bounded s) :
    Claims.Bounded (writeEntry r x s) :=
  modFaults_bounded h fun _ => by simp

@[simp] theorem detect_bounded {u : FUnit} {code : BitVec 8} {index : BitVec 7} {detail : BitVec 16}
    (h : Claims.Bounded s) :
    Claims.Bounded (detect u code index detail s) := by
  simp only [detect]
  (repeat' split) <;> simp [h]

@[simp] theorem detectCore_bounded {c : Core} {code : BitVec 8} (h : Claims.Bounded s) :
    Claims.Bounded (detectCore c code s) := by
  simp [detectCore, h]

/-! ### Banks and domains -/

@[simp] theorem bankLeave_bounded {d : Dom} {target : PState} {force : Bool} (h : Claims.Bounded s) :
    Claims.Bounded (bankLeave d target force s) := by
  refine modPower_bounded h fun hlog => ?_
  refine List.foldlRecOn (motive := fun p : Power => p.log.length ≤ 16) _ _ hlog fun p hp k _ => ?_
  split
  · exact hp
  · split <;> exact hp

@[simp] theorem lostLine_bounded {n : LPort} (h : Claims.Bounded s) : Claims.Bounded (lostLine n s) := by
  unfold lostLine
  refine nlcEval_bounded ?_
  simp only [refresh_bounded]
  exact (modPower_bounded_iff fun _ => rfl).mpr (modPort_bounded.mpr h)

@[simp] theorem lostCal_bounded {n : LPort} (h : Claims.Bounded s) : Claims.Bounded (lostCal n s) := by
  simp [lostCal, h]

@[simp] theorem lostConfig_bounded (h : Claims.Bounded s) : Claims.Bounded (lostConfig s) := by
  obtain ⟨hm, hj, hjrx, hlogs⟩ := h
  exact ⟨hm, hj, fun p => by simpa [lostConfig] using hjrx p, hlogs⟩

@[simp] theorem reloadFirmware_bounded : Claims.Bounded (reloadFirmware s) ↔ Claims.Bounded s := Iff.rfl

@[simp] theorem holdLost_bounded (h : Claims.Bounded s) : Claims.Bounded (holdLost s) := by
  simp [holdLost, h]

@[simp] theorem lostLog_bounded (h : Claims.Bounded s) : Claims.Bounded (lostLog s) := by
  obtain ⟨hm, hj, hjrx, -, hpow⟩ := h
  exact ⟨hm, hj, hjrx, Nat.zero_le _, hpow⟩

@[simp] theorem lostBulk_bounded {upper : Bool} (h : Claims.Bounded s) : Claims.Bounded (lostBulk upper s) :=
  h

@[simp] theorem lostBank_bounded {k : Fin 32} (h : Claims.Bounded s) : Claims.Bounded (lostBank k s) := by
  simp [lostBank, h]

@[simp] theorem bankReturn_bounded {d : Dom} (h : Claims.Bounded s) : Claims.Bounded (bankReturn d s) := by
  refine holdLost_bounded (eachOf_bounded h fun k s h => ?_)
  have hp : ∀ f : Power → Power, (∀ x, (f x).log = x.log) → Claims.Bounded (modPower f s) :=
    fun f hf => (modPower_bounded_iff hf).mpr h
  simp only
  split
  · exact hp _ fun _ => rfl
  · exact ite_bounded (detect_bounded (lostBank_bounded (hp _ fun _ => rfl))) (lostBank_bounded (hp _ fun _ => rfl))

@[simp] theorem prbsCount_bounded {k : HLane} : Claims.Bounded (prbsCount k s) ↔ Claims.Bounded s :=
  bounded_congr (by simp)

@[simp] theorem leaveOn_bounded {d : Dom} (h : Claims.Bounded s) : Claims.Bounded (leaveOn d s) := by
  unfold leaveOn
  split
  · exact calAbort_bounded (enterDown_bounded h)
  · simp [enterDown_bounded h]
  · exact eachOf_bounded h fun _ _ h => by simp [h]
  · exact eachOf_bounded h fun _ _ h => by simp [h]
  all_goals exact h

@[simp] theorem dropUrgent_bounded (h : Claims.Bounded s) : Claims.Bounded (dropUrgent s) := by
  unfold dropUrgent
  split <;> simp [h]

@[simp] theorem powerDown_bounded {d : Dom} (h : Claims.Bounded s) : Claims.Bounded (powerDown d s) := by
  unfold powerDown
  split <;> simp [h]

@[simp] theorem domDown_bounded {d : Dom} {target : PState} {force : Bool} (h : Claims.Bounded s) :
    Claims.Bounded (domDown d target force s) := by
  have hleave : Claims.Bounded (if domSt s d == .on then leaveOn d s else s) := ite_bounded (leaveOn_bounded h) h
  have hdark : ∀ {u : State}, Claims.Bounded u → Claims.Bounded (if target.dark then
      (if (domSt s d).dark then u else powerDown d u) else u) :=
    fun hu => ite_bounded (ite_bounded hu (powerDown_bounded hu)) hu
  have hset : ∀ {u : State}, Claims.Bounded u →
      Claims.Bounded (setDom d target (if target.dark then bankLeave d target force u else u)) :=
    fun hu => setDom_bounded (ite_bounded (bankLeave_bounded hu) hu)
  unfold domDown
  refine refresh_bounded.mpr ?_
  cases d
  case ld n => exact ite_bounded (refLost_bounded.mpr (hset (hdark hleave))) (hset (hdark hleave))
  all_goals exact hset (hdark hleave)

@[simp] theorem powerUp_bounded {d : Dom} (h : Claims.Bounded s) : Claims.Bounded (powerUp d s) := by
  have hr := bankReturn_bounded (d := d) h
  unfold powerUp
  cases d
  case fq q => exact fenceAlarms_bounded (eachOf_bounded hr fun _ _ h => modEng_bounded.mpr h)
  all_goals simp [hr]

@[simp] theorem wakeAttempts_bounded {ms : List (Dom × PState × PState)} :
    Claims.Bounded (wakeAttempts ms s) ↔ Claims.Bounded s :=
  bounded_congr (by simp)

@[simp] theorem dropAttempts_bounded {ms : List (Dom × PState × PState)} :
    Claims.Bounded (dropAttempts ms s) ↔ Claims.Bounded s :=
  bounded_congr (by simp)

@[simp] theorem beginTrain_bounded {k : HLane} : Claims.Bounded (beginTrain k s) ↔ Claims.Bounded s := Iff.rfl

@[simp] theorem trainLane_bounded {k : HLane} : Claims.Bounded (trainLane k s) ↔ Claims.Bounded s :=
  bounded_congr (by simp)

@[simp] theorem goOn_bounded {d : Dom} (h : Claims.Bounded s) : Claims.Bounded (goOn d s) := by
  unfold goOn
  split
  · simp only
    split <;> exact refJump_bounded (modSf_bounded.mpr h)
  · simp only
    exact ite_bounded (calStart_bounded (modFront_bounded.mpr h)) (calSnap_bounded.mpr (modFront_bounded.mpr h))
  · exact modMon_bounded.mpr h
  · exact eachOf_bounded h fun _ _ h => trainLane_bounded.mpr h
  · exact fenceAlarms_bounded (eachOf_bounded h fun _ _ h => modEng_bounded.mpr h)
  all_goals exact h

@[simp] theorem domUp_bounded {d : Dom} {target : PState}
    (h : Claims.Bounded s) : Claims.Bounded (domUp d target s) := by
  have hup : Claims.Bounded (if (domSt s d).dark && !target.dark then powerUp d s else s) :=
    ite_bounded (powerUp_bounded h) h
  unfold domUp
  split
  · exact h
  · refine eachPort_bounded ?_ fun _ _ h => maybeAcquire_bounded h
    simp only [refresh_bounded]
    exact ite_bounded (goOn_bounded (setDom_bounded hup)) (setDom_bounded hup)

@[simp] theorem domMove_bounded {d : Dom} {target : PState} (h : Claims.Bounded s) :
    Claims.Bounded (domMove d target s) := by
  simp [domMove, h]

@[simp] theorem accessWake_bounded {d : Dom} (h : Claims.Bounded s) : Claims.Bounded (accessWake d s) := by
  unfold accessWake
  split
  · exact h
  · exact pwrEvent_bounded (domUp_bounded ((modPower_bounded_iff fun _ => rfl).mpr h))

/-! ### The command skeleton -/

@[simp] theorem wakeNeeds_bounded {ds : List Dom} (h : Claims.Bounded s) : Claims.Bounded (wakeNeeds ds s) := by
  unfold wakeNeeds
  exact eachOf_bounded h fun _ _ h => by simp [h]

theorem command_bounded {op : Nat} {rq : Req} {cs : List (Bool × Answer)} {sts : State → List (Bool × Answer)}
    {body : State → State} (h : Claims.Bounded s) (hb : ∀ s, Claims.Bounded s → Claims.Bounded (body s)) :
    Claims.Bounded (command op rq cs sts body s) := by
  unfold command
  split
  · exact reply_bounded h
  · simp only
    split
    · exact reply_bounded (tookFree_bounded.mpr h)
    · have hw := wakeNeeds_bounded (ds := needsOf op rq.params) h
      split
      · exact reply_bounded hw
      · exact hb _ hw

theorem commandOk_bounded {op : Nat} {rq : Req} {cs : List (Bool × Answer)} {sts : State → List (Bool × Answer)}
    {body : State → State} (h : Claims.Bounded s) (hb : ∀ s, Claims.Bounded s → Claims.Bounded (body s)) :
    Claims.Bounded (commandOk op rq cs sts body s) :=
  command_bounded h fun s hs => reply_bounded (hb s hs)

theorem awaitReport_bounded {at_ : ReportAt} {op : Nat} {rq : Req} {answer : State → State}
    (h : Claims.Bounded s) (ha : ∀ s, Claims.Bounded s → Claims.Bounded (answer s)) :
    Claims.Bounded (awaitReport at_ op rq answer s) := by
  unfold awaitReport
  split
  · exact taken_bounded h
  · exact ha s h

theorem report_bounded {at_ : ReportAt} {op : Nat} {rq : Req} {cs : List (Bool × Answer)} {answer : State → State}
    (h : Claims.Bounded s) (ha : ∀ s, Claims.Bounded s → Claims.Bounded (answer s)) :
    Claims.Bounded (report at_ op rq cs answer s) :=
  command_bounded h fun _ hs => awaitReport_bounded hs ha

theorem answerReply_bounded {op : Nat} {rq : Req} {words : State → List Word} (h : Claims.Bounded s) :
    Claims.Bounded (answerReply op rq words s) := reply_bounded h

theorem answerBulk_bounded {op : Nat} {rq : Req} {off : Nat} {words : State → List Word}
    (h : Claims.Bounded s) : Claims.Bounded (answerBulk op rq off words s) :=
  reply_bounded h

/-! ### Cores -/

@[simp] theorem setAborted_bounded {c : Core} {i : Fin 16} {on : Bool} (h : Claims.Bounded s) :
    Claims.Bounded (setAborted c i on s) := by
  simp [setAborted, h]

@[simp] theorem answerAborted_bounded {f : Forward} (h : Claims.Bounded s) : Claims.Bounded (answerAborted f s) := by
  have hfirst : Claims.Bounded (doIf (!f.taken) (fun s =>
      let s := modMbx (fun x => { x with cntAbort := x.cntAbort + 1 }) s
      match supIc f.core with
      | some i => setAborted .sup i true s
      | none => s) s) := doIf_bounded h fun s h => by
    simp only
    split <;> simp [h]
  unfold answerAborted
  refine reply_bounded ?_
  split
  · exact ring_bounded.mpr hfirst
  all_goals exact hfirst

@[simp] theorem forgetLater_bounded {srcs : List Src} (h : Claims.Bounded s) : Claims.Bounded (forgetLater srcs s) := by
  unfold forgetLater
  refine modEvs_bounded.mpr (eachPort_bounded ?_ fun _ _ h => modTr2_bounded.mpr h)
  simp [h]

@[simp] theorem dialRestart_bounded {c : Core} (h : Claims.Bounded s) : Claims.Bounded (dialRestart c s) := by
  unfold dialRestart
  exact eachOf_bounded h fun _ _ h => by simp [h]

@[simp] theorem restartCore_bounded {c : Core} {rq : Option Req} (h : Claims.Bounded s) :
    Claims.Bounded (restartCore c rq s) := by
  unfold restartCore
  refine dialRestart_bounded (eachOf_bounded (forgetLater_bounded ?_) fun _ _ h => answerAborted_bounded h)
  simp [h]

@[simp] theorem coreRuns_bounded {c : Core} (h : Claims.Bounded s) : Claims.Bounded (coreRuns c s) := by
  unfold coreRuns
  exact eachOf_bounded h fun _ _ h => by simp [h]

/-! ### Front ends of the host -/

@[simp] theorem modFe_bounded {who : HostPort} {f : FrontEnd → FrontEnd} :
    Claims.Bounded (modFe who f s) ↔ Claims.Bounded s :=
  bounded_congr (by simp)

@[simp] theorem feDone_bounded {who : HostPort} {addr : BitVec 16} {data : Word} :
    Claims.Bounded (feDone who addr data s) ↔ Claims.Bounded s :=
  bounded_congr (by simp)

@[simp] theorem feRefuse_bounded {who : HostPort} : Claims.Bounded (feRefuse who s) ↔ Claims.Bounded s :=
  bounded_congr (by simp)

/-! ### The monitor -/

@[simp] theorem biasPort_bounded {p : LPort} (h : Claims.Bounded s) : Claims.Bounded (biasPort p s) := by
  simp [biasPort, h]

@[simp] theorem unsettle_bounded {k : Fin 24} : Claims.Bounded (unsettle k s) ↔ Claims.Bounded s := Iff.rfl

@[simp] theorem unsettleAll_bounded (h : Claims.Bounded s) : Claims.Bounded (unsettleAll s) := by
  unfold unsettleAll
  exact eachPort_bounded (eachOf_bounded h fun _ _ h => unsettle_bounded.mpr h) fun _ _ h => biasPort_bounded h

@[simp] theorem tearShadows_bounded {c : Fin 24} : Claims.Bounded (tearShadows c s) ↔ Claims.Bounded s :=
  Iff.rfl

@[simp] theorem feedLoops_bounded {c : Fin 24} {code : BitVec 24} (h : Claims.Bounded s) :
    Claims.Bounded (feedLoops c code s) := by
  unfold feedLoops
  exact eachOf_bounded h fun _ _ h => by simp [h]

@[simp] theorem monSlotEnd_bounded {c : Fin 24} {code : BitVec 24} {ovr : Bool} (h : Claims.Bounded s) :
    Claims.Bounded (monSlotEnd c code ovr s) := by
  simp [monSlotEnd, h]

@[simp] theorem biasGraceExpiry_bounded {k : Fin 24} (h : Claims.Bounded s) : Claims.Bounded (biasGraceExpiry k s) := by
  simp [biasGraceExpiry, h]

@[simp] theorem monConfig_bounded {rq : Req} (h : Claims.Bounded s) : Claims.Bounded (monConfig rq s) := by
  unfold monConfig
  exact command_bounded h fun _ h => by simp [h]

@[simp] theorem monCoefLoad_bounded {rq : Req} (h : Claims.Bounded s) : Claims.Bounded (monCoefLoad rq s) := by
  unfold monCoefLoad
  exact commandOk_bounded h fun _ h => by simp [h]

@[simp] theorem monReadAnswer_bounded {rq : Req} (h : Claims.Bounded s) : Claims.Bounded (monReadAnswer rq s) :=
  answerReply_bounded h

@[simp] theorem monRead_bounded {rq : Req} (h : Claims.Bounded s) : Claims.Bounded (monRead rq s) := by
  unfold monRead
  exact report_bounded h fun _ h => by simp [h]

@[simp] theorem monUrgent_bounded {rq : Req} (h : Claims.Bounded s) : Claims.Bounded (monUrgent rq s) := by
  unfold monUrgent
  exact command_bounded h fun _ h => by simp [h]

@[simp] theorem monUrgentDone_bounded {code : BitVec 24} {ovr : Bool} (h : Claims.Bounded s) :
    Claims.Bounded (monUrgentDone code ovr s) := by
  unfold monUrgentDone
  split <;> simp [h]

@[simp] theorem biasLoopSet_bounded {rq : Req} (h : Claims.Bounded s) : Claims.Bounded (biasLoopSet rq s) := by
  unfold biasLoopSet
  exact commandOk_bounded h fun _ h => by simp [h]

/-! ### Recovery -/

@[simp] theorem heldChanged_bounded (h : Claims.Bounded s) : Claims.Bounded (heldChanged s) := by
  simp [heldChanged, h]

@[simp] theorem recEvent_bounded {d : Dom} (h : Claims.Bounded s) : Claims.Bounded (recEvent d s) := by
  simp [recEvent, h]

@[simp] theorem recDown_bounded {d : Dom} {target : PState} (h : Claims.Bounded s) :
    Claims.Bounded (recDown d target s) := by
  simp [recDown, h]

@[simp] theorem portBack_bounded {p : LPort} (h : Claims.Bounded s) : Claims.Bounded (portBack p s) := by
  simp [portBack, h]

@[simp] theorem unitBack_bounded {u : FUnit} (h : Claims.Bounded s) : Claims.Bounded (unitBack u s) := by
  unfold unitBack
  split <;> simp [h]

@[simp] theorem recWake_bounded {u : FUnit} (h : Claims.Bounded s) : Claims.Bounded (recWake u s) := by
  unfold recWake
  split
  · exact h
  · split
    · exact h
    · have hup : ∀ d, Claims.Bounded (recEvent d (domUp d .on s)) := fun d => recEvent_bounded (domUp_bounded h)
      simp only
      refine unitBack_bounded ?_
      split
      · exact ite_bounded (calStart_bounded (hup _)) (hup _)
      all_goals exact hup _

@[simp] theorem recBankFail_bounded {k : Fin 32} (h : Claims.Bounded s) : Claims.Bounded (recBankFail k s) := by
  simp only [recBankFail]
  (repeat' split) <;> simp [h]

@[simp] theorem resetLine_bounded {n : LPort} (h : Claims.Bounded s) : Claims.Bounded (resetLine n s) := by
  simp [resetLine, h]

@[simp] theorem relock_bounded {n : LPort} : Claims.Bounded (relock n s) ↔ Claims.Bounded s :=
  bounded_congr (by simp)

@[simp] theorem startAction_bounded {u : FUnit} {level : Nat} (h : Claims.Bounded s) :
    Claims.Bounded (startAction u level s) := by
  unfold startAction
  split <;> simp [h]

@[simp] theorem faultMutes_bounded {p : LPort} : Claims.Bounded (faultMutes p s) ↔ Claims.Bounded s := Iff.rfl

@[simp] theorem finishAction_bounded {u : FUnit} {level : Nat} (h : Claims.Bounded s) :
    Claims.Bounded (finishAction u level s) := by
  unfold finishAction
  split
  · simp only
    refine maybeAcquire_bounded ?_
    simp only [refresh_bounded]
    exact doIf_bounded (by simp [h]) fun _ h => portBack_bounded h
  · refine maybeAcquire_bounded ?_
    simp only [refresh_bounded]
    exact doIf_bounded (by simp [h]) fun _ h => portBack_bounded h
  · exact fenceAlarms_bounded h
  · exact modMap_bounded.mpr h
  · exact ite_bounded (eachOf_bounded h fun _ _ h => trainLane_bounded.mpr h) h
  · exact coreRuns_bounded h
  · exact modMon_bounded.mpr h
  · simp only [refresh_bounded]
    exact eachPort_bounded h fun _ _ h => faultMutes_bounded.mpr h

@[simp] theorem stopCore_bounded {c : Core} {code : BitVec 8} (h : Claims.Bounded s) :
    Claims.Bounded (stopCore c code s) := by
  unfold stopCore
  refine eachOf_bounded (eachOf_bounded (forgetLater_bounded ?_) fun _ _ h => reply_bounded h) fun _ _ h => reply_bounded h
  simp [h]

@[simp] theorem holdUnit_bounded {u : FUnit} {code : BitVec 8} (h : Claims.Bounded s) :
    Claims.Bounded (holdUnit u code s) := by
  have hu : Claims.Bounded (modUnit u (fun x => { x with recovering := 0, level := 0, held := true, lastSeq := none }) s) := by
    simp [h]
  unfold holdUnit
  refine heldChanged_bounded ?_
  split
  · exact recDown_bounded hu
  · exact recDown_bounded hu
  · exact fenceAlarms_bounded (recDown_bounded hu)
  · exact recDown_bounded hu
  · exact unsettleAll_bounded (modMon_bounded.mpr hu)
  · exact modMap_bounded.mpr hu
  · exact stopCore_bounded hu
  · exact hu

end Sys2Proof.Machine
end

section
/-! PROOF. Queue bounds: Crown, the line ports, training and paths. -/

namespace Sys2Proof.Machine

variable {s : State}

/-! ### Crown -/

@[simp] theorem takeWords_bounded {c : Chan} {k : Nat} (h : Claims.Bounded s) : Claims.Bounded (takeWords c k s) := by
  unfold takeWords
  split
  · refine doIf_bounded (modM_bounded h fun hi ho => ⟨?_, ho⟩) fun _ h => ring_bounded.mpr h
    simp only [List.length_drop]
    omega
  · refine modJ_bounded h fun hi => ?_
    simp only [List.length_drop]
    omega

@[simp] theorem endPart_bounded {c : Chan} (h : Claims.Bounded s) : Claims.Bounded (endPart c s) := by
  unfold endPart
  split <;> simp [h]

@[simp] theorem crownCount_bounded {f : CrownCnt → CrownCnt} : Claims.Bounded (crownCount f s) ↔ Claims.Bounded s :=
  Iff.rfl

@[simp] theorem forward_bounded {op : Nat} {rq : Req} {words : Nat} (h : Claims.Bounded s) :
    Claims.Bounded (forward op rq words s) := by
  simp only [forward]
  (repeat' split) <;> simp [h]

@[simp] theorem refusePacket_bounded {op : Nat} {rq : Req} {c : Chan} {r : Answer × (CrownCnt → CrownCnt)}
    (h : Claims.Bounded s) :
    Claims.Bounded (refusePacket op rq c r s) := by
  simp [refusePacket, h]

@[simp] theorem crownPacketTake_bounded {c : Chan} (h : Claims.Bounded s) : Claims.Bounded (crownPacketTake c s) := by
  unfold crownPacketTake
  split
  · exact h
  · rename_i q rest _
    refine ite_bounded h ?_
    have hcount : Claims.Bounded
        (modMbx (fun x => { x with cntStale := if inStale s c q.stamp then x.cntStale + 1 else x.cntStale })
          (crownCount (fun x => { x with rx := x.rx + 1 }) s)) := by simp [h]
    refine ite_bounded (refusePacket_bounded (endPart_bounded (takeWords_bounded hcount))) (ite_bounded h ?_)
    simp only
    split
    · exact refusePacket_bounded (takeWords_bounded hcount)
    · split
      · exact refusePacket_bounded (takeWords_bounded hcount)
      · exact forward_bounded (takeWords_bounded hcount)

@[simp] theorem crownWordTimeout_bounded {c : Chan} (h : Claims.Bounded s) : Claims.Bounded (crownWordTimeout c s) := by
  unfold crownWordTimeout
  split
  · exact h
  · simp only
    split
    · exact h
    · exact refusePacket_bounded (endPart_bounded (takeWords_bounded h))

@[simp] theorem disown_bounded {src : Src} (h : Claims.Bounded s) : Claims.Bounded (disown src s) := by
  simp [disown, h]

@[simp] theorem crownReplyTimeout_bounded {c : Chan}
    (h : Claims.Bounded s) : Claims.Bounded (crownReplyTimeout c s) := by
  unfold crownReplyTimeout
  split
  · exact h
  · exact detectCore_bounded (reply_bounded (crownCount_bounded.mpr (disown_bounded h)))

@[simp] theorem coreRestartDone_bounded {c : Core} (h : Claims.Bounded s) : Claims.Bounded (coreRestartDone c s) := by
  simp [coreRestartDone, h]

@[simp] theorem sysIdentAnswer_bounded {rq : Req} (h : Claims.Bounded s) : Claims.Bounded (sysIdentAnswer rq s) :=
  answerReply_bounded h

@[simp] theorem sysIdent_bounded {rq : Req} (h : Claims.Bounded s) : Claims.Bounded (sysIdent rq s) := by
  unfold sysIdent
  exact report_bounded h fun _ h => by simp [h]

@[simp] theorem sysStatusAnswer_bounded {rq : Req} (h : Claims.Bounded s) : Claims.Bounded (sysStatusAnswer rq s) :=
  answerReply_bounded h

@[simp] theorem sysStatus_bounded {rq : Req} (h : Claims.Bounded s) : Claims.Bounded (sysStatus rq s) := by
  unfold sysStatus
  exact report_bounded h fun _ h => by simp [h]

@[simp] theorem sysReset_bounded {rq : Req} (h : Claims.Bounded s) : Claims.Bounded (sysReset rq s) := by
  unfold sysReset
  exact command_bounded h fun _ h => by simp [h]

@[simp] theorem configLoad_bounded {rq : Req} (h : Claims.Bounded s) : Claims.Bounded (configLoad rq s) := by
  unfold configLoad
  refine command_bounded h fun s h => ?_
  split
  · simp [h]
  · simp only
    split <;> simp [h]

@[simp] theorem outputsStart_bounded {rq : Req} (h : Claims.Bounded s) : Claims.Bounded (outputsStart rq s) := by
  unfold outputsStart
  exact command_bounded h fun _ h => by simp [h]

@[simp] theorem allDrvLow_bounded : Claims.Bounded (allDrvLow s) ↔ Claims.Bounded s := Iff.rfl

@[simp] theorem outputsStop_bounded {rq : Req} (h : Claims.Bounded s) : Claims.Bounded (outputsStop rq s) := by
  unfold outputsStop
  exact command_bounded h fun _ h => by simp [h]

@[simp] theorem idAttest_bounded {rq : Req} (h : Claims.Bounded s) : Claims.Bounded (idAttest rq s) := by
  unfold idAttest
  exact command_bounded h fun _ h => by simp [h]

@[simp] theorem permSet_bounded {rq : Req} (h : Claims.Bounded s) : Claims.Bounded (permSet rq s) := by
  unfold permSet
  exact commandOk_bounded h fun _ h => by simp [h]

@[simp] theorem permGet_bounded {rq : Req} (h : Claims.Bounded s) : Claims.Bounded (permGet rq s) := by
  unfold permGet
  exact command_bounded h fun _ h => by simp [h]

@[simp] theorem linePmAnswer_bounded {rq : Req} (h : Claims.Bounded s) : Claims.Bounded (linePmAnswer rq s) :=
  answerBulk_bounded h

@[simp] theorem linePmRead_bounded {rq : Req} (h : Claims.Bounded s) : Claims.Bounded (linePmRead rq s) := by
  unfold linePmRead
  exact report_bounded h fun _ h => by simp [h]

/-! ### The line front end -/

@[simp] theorem lineMute_bounded {rq : Req} (h : Claims.Bounded s) : Claims.Bounded (lineMute rq s) := by
  unfold lineMute
  exact commandOk_bounded h fun _ h => by simp [h]

@[simp] theorem clockApply_bounded {p : LPort} {sclk : BitVec 12} (h : Claims.Bounded s) :
    Claims.Bounded (clockApply p sclk s) := by
  simp [clockApply, h]

@[simp] theorem clockChange_bounded {p : LPort} {sclk : BitVec 12} (h : Claims.Bounded s) :
    Claims.Bounded (clockChange p sclk s) := by
  simp [clockChange, h]

@[simp] theorem clockDue_bounded {p : LPort} (h : Claims.Bounded s) : Claims.Bounded (clockDue p s) := by
  unfold clockDue
  split <;> simp [h]

@[simp] theorem synthLock_bounded {p : LPort} (h : Claims.Bounded s) : Claims.Bounded (synthLock p s) := by
  simp [synthLock, h]

@[simp] theorem unlock_bounded {p : LPort} (h : Claims.Bounded s) : Claims.Bounded (unlock p s) := by
  simp [unlock, h]

@[simp] theorem synthUnlock_bounded {p : LPort} (h : Claims.Bounded s) : Claims.Bounded (synthUnlock p s) := by
  simp [synthUnlock, h]

@[simp] theorem sampleClockChangeIntervalEnd_bounded {p : LPort} (h : Claims.Bounded s) :
    Claims.Bounded (sampleClockChangeIntervalEnd p s) := by
  simp [sampleClockChangeIntervalEnd, h]

@[simp] theorem synthRange_bounded {p : LPort} (h : Claims.Bounded s) : Claims.Bounded (synthRange p s) := by
  simp [synthRange, h]

@[simp] theorem synthFail_bounded {p : LPort} (h : Claims.Bounded s) : Claims.Bounded (synthFail p s) := by
  simp [synthFail, h]

@[simp] theorem lightDetectAssert_bounded {p : LPort} (h : Claims.Bounded s) :
    Claims.Bounded (lightDetectAssert p s) := by
  simp [lightDetectAssert, h]

@[simp] theorem lightDetectDeassert_bounded {p : LPort} (h : Claims.Bounded s) :
    Claims.Bounded (lightDetectDeassert p s) := by
  simp [lightDetectDeassert, h]

@[simp] theorem adcLevelLow_bounded {p : LPort} {lane : CLane} {raised : Bool} (h : Claims.Bounded s) :
    Claims.Bounded (adcLevelLow p lane raised s) := by
  simp [adcLevelLow, h]

@[simp] theorem adcLevelHigh_bounded {p : LPort} {lane : CLane} {raised : Bool} (h : Claims.Bounded s) :
    Claims.Bounded (adcLevelHigh p lane raised s) := by
  simp [adcLevelHigh, h]

/-! ### Implicit schedules -/

@[simp] theorem enterImplicit_bounded {opcode : Nat} {rq : Req} {params : List Word} {data : List Word} {r : RefCode}
    (h : Claims.Bounded s) :
    Claims.Bounded (enterImplicit opcode rq params data r s) := by
  simp [enterImplicit, h]

/-! ### Receive DSP -/

@[simp] theorem rxSetSel_bounded {p : LPort} {ps : List Word} {is : List (Fin 8)} :
    Claims.Bounded (rxSetSel p ps is s) ↔ Claims.Bounded s :=
  bounded_congr (by simp)

@[simp] theorem rxStoreSel_bounded {p : LPort} {ps : List Word} {is : List (Fin 8)} :
    Claims.Bounded (rxStoreSel p ps is s) ↔ Claims.Bounded s :=
  bounded_congr (by simp)

@[simp] theorem rxExact_bounded {ps : List Word} : Claims.Bounded (rxExact ps s) ↔ Claims.Bounded s :=
  bounded_congr (by simp)

@[simp] theorem restartAcq_bounded {p : LPort} (h : Claims.Bounded s) : Claims.Bounded (restartAcq p s) := by
  simp [restartAcq, h]

@[simp] theorem lineRxConfig_bounded {rq : Req} (h : Claims.Bounded s) : Claims.Bounded (lineRxConfig rq s) := by
  unfold lineRxConfig
  exact command_bounded h fun _ h => by simp [h]

@[simp] theorem snapshot_bounded {p : LPort} : Claims.Bounded (snapshot p s) ↔ Claims.Bounded s := Iff.rfl

@[simp] theorem raiseFo_bounded {p : LPort} (h : Claims.Bounded s) : Claims.Bounded (raiseFo p s) := by
  simp [raiseFo, h]

@[simp] theorem acqFrequencyDone_bounded {p : LPort} {offset : Int} (h : Claims.Bounded s) :
    Claims.Bounded (acqFrequencyDone p offset s) := by
  simp [acqFrequencyDone, h]

@[simp] theorem frameAlignment_bounded {p : LPort} {swapped : Bool} {conj : Bool} (h : Claims.Bounded s) :
    Claims.Bounded (frameAlignment p swapped conj s) := by
  simp [frameAlignment, h]

@[simp] theorem frameAlignmentLoss_bounded {p : LPort} (h : Claims.Bounded s) :
    Claims.Bounded (frameAlignmentLoss p s) := by
  simp [frameAlignmentLoss, h]

@[simp] theorem acqTimeout_bounded {p : LPort} (h : Claims.Bounded s) : Claims.Bounded (acqTimeout p s) := by
  simp [acqTimeout, h]

@[simp] theorem carrierLockLoss_bounded {p : LPort} (h : Claims.Bounded s) : Claims.Bounded (carrierLockLoss p s) := by
  simp [carrierLockLoss, h]

@[simp] theorem reconvergeFail_bounded {p : LPort} {erased : Nat} (h : Claims.Bounded s) :
    Claims.Bounded (reconvergeFail p erased s) := by
  simp [reconvergeFail, h]

@[simp] theorem eqSpan_bounded {p : LPort} (h : Claims.Bounded s) : Claims.Bounded (eqSpan p s) := by
  simp [eqSpan, h]

@[simp] theorem eqSpanClear_bounded {p : LPort} (h : Claims.Bounded s) : Claims.Bounded (eqSpanClear p s) := by
  simp [eqSpanClear, h]

@[simp] theorem takeDgd_bounded {p : LPort} {dgd : BitVec 16} (h : Claims.Bounded s) :
    Claims.Bounded (takeDgd p dgd s) := by
  simp [takeDgd, h]

@[simp] theorem takeTaps_bounded {p : LPort} {taps : List Word} :
    Claims.Bounded (takeTaps p taps s) ↔ Claims.Bounded s := Iff.rfl

@[simp] theorem trackCd_bounded {p : LPort} {residual : Int} (h : Claims.Bounded s) :
    Claims.Bounded (trackCd p residual s) := by
  simp [trackCd, h]

@[simp] theorem adcMeasure_bounded {p : LPort} {levels : Vector (BitVec 16) 4} {clips : Vector Nat 4} :
    Claims.Bounded (adcMeasure p levels clips s) ↔ Claims.Bounded s :=
  bounded_congr (by simp)

@[simp] theorem takeEstimates_bounded {p : LPort} {o : RxObs} :
    Claims.Bounded (takeEstimates p o s) ↔ Claims.Bounded s := Iff.rfl

/-! ### Transmit DSP -/

@[simp] theorem txFilters_bounded {p : LPort} {ps : List Word} {ws : List Word} :
    Claims.Bounded (txFilters p ps ws s) ↔ Claims.Bounded s :=
  bounded_congr (by simp)

@[simp] theorem txExact_bounded {ps : List Word} {ws : List Word} :
    Claims.Bounded (txExact ps ws s) ↔ Claims.Bounded s :=
  bounded_congr (by simp)

@[simp] theorem txStore_bounded {p : LPort} {ps : List Word} {is : List (Fin 7)} :
    Claims.Bounded (txStore p ps is s) ↔ Claims.Bounded s :=
  bounded_congr (by simp)

@[simp] theorem lineTxConfig_bounded {rq : Req} (h : Claims.Bounded s) : Claims.Bounded (lineTxConfig rq s) := by
  unfold lineTxConfig
  exact command_bounded h fun _ h => by simp [h]

@[simp] theorem skewApply_bounded {p : LPort} (h : Claims.Bounded s) : Claims.Bounded (skewApply p s) := by
  simp [skewApply, h]

@[simp] theorem txStages_bounded {p : LPort} {o : TxObs} (h : Claims.Bounded s) : Claims.Bounded (txStages p o s) := by
  unfold txStages
  exact doIf_bounded (skewApply_bounded (modTx_bounded.mpr h)) fun _ h => nlcEval_bounded h

@[simp] theorem lineStatusAnswer_bounded {rq : Req}
    (h : Claims.Bounded s) : Claims.Bounded (lineStatusAnswer rq s) := by
  unfold lineStatusAnswer
  simp only
  split
  · exact answerReply_bounded h
  · exact answerBulk_bounded h
  all_goals exact answerReply_bounded h

@[simp] theorem lineStatus_bounded {rq : Req} (h : Claims.Bounded s) : Claims.Bounded (lineStatus rq s) := by
  unfold lineStatus
  exact report_bounded h fun _ h => by simp [h]

/-! ### Complication -/

@[simp] theorem putSet_bounded {p : LPort} {tx : Bool} {i : Fin 8} {c : CoefSet} :
    Claims.Bounded (putSet p tx i c s) ↔ Claims.Bounded s := Iff.rfl

@[simp] theorem rxSwitch_bounded {p : LPort} {u : NlcUse} (h : Claims.Bounded s) : Claims.Bounded (rxSwitch p u s) := by
  simp [rxSwitch, h]

@[simp] theorem nlcTxBoundary_bounded {p : LPort} : Claims.Bounded (nlcTxBoundary p s) ↔ Claims.Bounded s :=
  bounded_congr (by simp)

@[simp] theorem memberStep_bounded {p : LPort} {j : LPort} (h : Claims.Bounded s) :
    Claims.Bounded (memberStep p j s) := by
  simp [memberStep, h]

@[simp] theorem rxWaiting_bounded {p : LPort} (h : Claims.Bounded s) : Claims.Bounded (rxWaiting p s) := by
  unfold rxWaiting
  split <;> simp [h]

@[simp] theorem nlcRxBoundary_bounded {p : LPort} {gain : BitVec 16} (h : Claims.Bounded s) :
    Claims.Bounded (nlcRxBoundary p gain s) := by
  unfold nlcRxBoundary
  exact rxWaiting_bounded (modNlc_bounded.mpr (eachPort_bounded h fun _ _ h => memberStep_bounded h))

@[simp] theorem nlcAlignDone_bounded {p : LPort} {j : LPort} {samples : Int} (h : Claims.Bounded s) :
    Claims.Bounded (nlcAlignDone p j samples s) := by
  simp [nlcAlignDone, h]

@[simp] theorem nlcGroup_bounded {p : LPort} {rq : Req} (h : Claims.Bounded s) : Claims.Bounded (nlcGroup p rq s) := by
  unfold nlcGroup
  exact nlcEval_bounded (eachOf_bounded (modNlc_bounded.mpr h) fun _ _ h => modNlc_bounded.mpr h)

@[simp] theorem nlcSelect_bounded {p : LPort} {rq : Req}
    (h : Claims.Bounded s) : Claims.Bounded (nlcSelect p rq s) := by
  simp [nlcSelect, h]

@[simp] theorem nlcExact_bounded {ps : List Word} (h : Claims.Bounded s) : Claims.Bounded (nlcExact ps s) := by
  simp [nlcExact, h]

@[simp] theorem nlcStatusAnswer_bounded {rq : Req} (h : Claims.Bounded s) : Claims.Bounded (nlcStatusAnswer rq s) :=
  answerReply_bounded h

@[simp] theorem lineNlcSet_bounded {rq : Req} (h : Claims.Bounded s) : Claims.Bounded (lineNlcSet rq s) := by
  unfold lineNlcSet
  refine command_bounded h fun s h => ?_
  split
  · exact reply_bounded (nlcGroup_bounded h)
  · simp [h]
  · simp [h]
  · exact nlcSelect_bounded h
  · exact awaitReport_bounded h fun _ h => nlcStatusAnswer_bounded h

/-! ### Training -/

@[simp] theorem takePolicy_bounded {p : LPort} : Claims.Bounded (takePolicy p s) ↔ Claims.Bounded s := Iff.rfl

@[simp] theorem sendCap_bounded {p : LPort} : Claims.Bounded (sendCap p s) ↔ Claims.Bounded s := Iff.rfl

@[simp] theorem choiceFailed_bounded {p : LPort} {kind : Nat} {reason : Nat} (h : Claims.Bounded s) :
    Claims.Bounded (choiceFailed p kind reason s) := by
  simp [choiceFailed, h]

@[simp] theorem sendChoice_bounded {p : LPort} {kind : Nat} {rate : Nat} (h : Claims.Bounded s) :
    Claims.Bounded (sendChoice p kind rate s) := by
  simp only [sendChoice]
  (repeat' split) <;> simp [h]

@[simp] theorem actChoice_bounded {p : LPort} {desc : Word} {kind : BitVec 2} :
    Claims.Bounded (actChoice p desc kind s) ↔ Claims.Bounded s :=
  bounded_congr (by simp)

@[simp] theorem dueRetune_bounded {p : LPort} : Claims.Bounded (dueRetune p s) ↔ Claims.Bounded s :=
  bounded_congr (by simp)

@[simp] theorem nextChoice_bounded {p : LPort} : Claims.Bounded (nextChoice p s) ↔ Claims.Bounded s :=
  bounded_congr (by simp)

@[simp] theorem phaseChoice_bounded {p : LPort} : Claims.Bounded (phaseChoice p s) ↔ Claims.Bounded s :=
  bounded_congr (by simp)

@[simp] theorem setPhase_bounded {p : LPort} {ph : Phase} : Claims.Bounded (setPhase p ph s) ↔ Claims.Bounded s :=
  Iff.rfl

@[simp] theorem leaveCapability_bounded {p : LPort} (h : Claims.Bounded s) : Claims.Bounded (leaveCapability p s) := by
  simp only [leaveCapability]
  (repeat' split) <;> simp [h]

@[simp] theorem leaveProbe_bounded {p : LPort} (h : Claims.Bounded s) : Claims.Bounded (leaveProbe p s) := by
  simp [leaveProbe, h]

@[simp] theorem leaveSelect_bounded {p : LPort} : Claims.Bounded (leaveSelect p s) ↔ Claims.Bounded s :=
  bounded_congr (by simp)

@[simp] theorem leaveTune_bounded {p : LPort} (h : Claims.Bounded s) : Claims.Bounded (leaveTune p s) := by
  simp [leaveTune, h]

@[simp] theorem farTune_bounded {p : LPort} {type : Nat} {kind : Nat} :
    Claims.Bounded (farTune p type kind s) ↔ Claims.Bounded s :=
  bounded_congr (by simp)

@[simp] theorem leaveCommit_bounded {p : LPort} (h : Claims.Bounded s) : Claims.Bounded (leaveCommit p s) := by
  simp [leaveCommit, h]

@[simp] theorem advance_bounded {p : LPort} (h : Claims.Bounded s) : Claims.Bounded (advance p s) := by
  unfold advance
  exact leaveCommit_bounded (leaveTune_bounded (by simp [h]))

@[simp] theorem trainAcquireDone_bounded {p : LPort}
    (h : Claims.Bounded s) : Claims.Bounded (trainAcquireDone p s) := by
  simp [trainAcquireDone, h]

@[simp] theorem probeDone_bounded {p : LPort} (h : Claims.Bounded s) : Claims.Bounded (probeDone p s) := by
  simp [probeDone, h]

@[simp] theorem trainPhaseTimeout_bounded {p : LPort} (h : Claims.Bounded s) :
    Claims.Bounded (trainPhaseTimeout p s) := by
  unfold trainPhaseTimeout
  split <;> simp [h]

@[simp] theorem farRestart_bounded {p : LPort} (h : Claims.Bounded s) : Claims.Bounded (farRestart p s) := by
  simp only [farRestart]
  (repeat' split) <;> simp [h]

@[simp] theorem enterSwitch_bounded {p : LPort} {k : DialKind} {r : RefCode} {n : Psfn} :
    Claims.Bounded (enterSwitch p k r n s) ↔ Claims.Bounded s :=
  bounded_congr (by simp)

@[simp] theorem commitReq_bounded {p : LPort} {label : Psfn} {b : List Word} :
    Claims.Bounded (commitReq p label b s) ↔ Claims.Bounded s :=
  bounded_congr (by simp)

@[simp] theorem rxPassed_bounded {p : LPort} {kind : BitVec 2} (h : Claims.Bounded s) :
    Claims.Bounded (rxPassed p kind s) := by
  unfold rxPassed
  exact advance_bounded (by simp [h])

@[simp] theorem commitPassCheck_bounded {p : LPort} (h : Claims.Bounded s) : Claims.Bounded (commitPassCheck p s) := by
  unfold commitPassCheck
  split <;> simp [h]

@[simp] theorem commitLate_bounded {p : LPort} {c : Commit} : Claims.Bounded (commitLate p c s) ↔ Claims.Bounded s :=
  bounded_congr (by simp)

@[simp] theorem planLate_bounded {p : LPort} {x : Tune} : Claims.Bounded (planLate p x s) ↔ Claims.Bounded s :=
  Iff.rfl

@[simp] theorem commitAck_bounded {p : LPort} {b : List Word} : Claims.Bounded (commitAck p b s) ↔ Claims.Bounded s :=
  bounded_congr (by simp)

@[simp] theorem dropTxSwitch_bounded {p : LPort} : Claims.Bounded (dropTxSwitch p s) ↔ Claims.Bounded s :=
  Iff.rfl

@[simp] theorem nakCommit_bounded {p : LPort} {why : Nat} {c : Commit} (h : Claims.Bounded s) :
    Claims.Bounded (nakCommit p why c s) := by
  unfold nakCommit
  (repeat' split) <;> simp [h]

@[simp] theorem nakPlan_bounded {p : LPort} {why : Nat} {x : Tune} (h : Claims.Bounded s) :
    Claims.Bounded (nakPlan p why x s) := by
  unfold nakPlan
  (repeat' split) <;> simp [h]

@[simp] theorem commitNak_bounded {p : LPort} {b : List Word} (h : Claims.Bounded s) :
    Claims.Bounded (commitNak p b s) := by
  simp only [commitNak]
  (repeat' split) <;> simp [h]

@[simp] theorem commitCancel_bounded {p : LPort} {b : List Word} :
    Claims.Bounded (commitCancel p b s) ↔ Claims.Bounded s :=
  bounded_congr (by simp)

@[simp] theorem tunePlan_bounded {p : LPort} {label : Psfn} {b : List Word} :
    Claims.Bounded (tunePlan p label b s) ↔ Claims.Bounded s :=
  bounded_congr (by simp)

@[simp] theorem tuneDwellEnd_bounded {p : LPort} {mean : BitVec 16} (h : Claims.Bounded s) :
    Claims.Bounded (tuneDwellEnd p mean s) := by
  unfold tuneDwellEnd
  split <;> simp [h]

@[simp] theorem tuneReport_bounded {p : LPort} {b : List Word} (h : Claims.Bounded s) :
    Claims.Bounded (tuneReport p b s) := by
  unfold tuneReport
  split <;> simp [h]

@[simp] theorem retune_bounded {p : LPort} : Claims.Bounded (retune p s) ↔ Claims.Bounded s :=
  bounded_congr (by simp)

@[simp] theorem verifyDone_bounded {p : LPort} {margin : BitVec 16} (h : Claims.Bounded s) :
    Claims.Bounded (verifyDone p margin s) := by
  simp [verifyDone, h]

@[simp] theorem degradeTimer_bounded {p : LPort} (h : Claims.Bounded s) : Claims.Bounded (degradeTimer p s) := by
  simp [degradeTimer, h]

@[simp] theorem spanAlarmClear_bounded {p : LPort} (h : Claims.Bounded s) : Claims.Bounded (spanAlarmClear p s) := by
  simp [spanAlarmClear, h]

@[simp] theorem trackIn_bounded {p : LPort} {b : List Word}
    (h : Claims.Bounded s) : Claims.Bounded (trackIn p b s) := by
  simp [trackIn, h]

@[simp] theorem holdTimeExpiry_bounded {p : LPort} (h : Claims.Bounded s) : Claims.Bounded (holdTimeExpiry p s) := by
  simp [holdTimeExpiry, h]

@[simp] theorem settleAlternate_bounded {p : LPort} : Claims.Bounded (settleAlternate p s) ↔ Claims.Bounded s :=
  bounded_congr (by simp)

@[simp] theorem holdoverLocked_bounded {p : LPort} (h : Claims.Bounded s) : Claims.Bounded (holdoverLocked p s) := by
  simp [holdoverLocked, h]

/-! ### Paths and switches -/

@[simp] theorem scheduleRate_bounded {p : LPort} {r : RateChange} (h : Claims.Bounded s) :
    Claims.Bounded (scheduleRate p r s) := by
  unfold scheduleRate
  exact eachOf_bounded (eachOf_bounded (modTr2_bounded.mpr h) fun _ _ h => enterSwitch_bounded.mpr h)
    fun _ _ h => sendChoice_bounded (by simp [h])

@[simp] theorem cancelRate_bounded {p : LPort} : Claims.Bounded (cancelRate p s) ↔ Claims.Bounded s :=
  bounded_congr (by simp)

@[simp] theorem pathIn_bounded {p : LPort} {label : Psfn} {b : List Word} (h : Claims.Bounded s) :
    Claims.Bounded (pathIn p label b s) := by
  simp [pathIn, h]

@[simp] theorem sendCancel_bounded {p : LPort} {r : RateChange} :
    Claims.Bounded (sendCancel p r s) ↔ Claims.Bounded s := Iff.rfl

@[simp] theorem answerPath_bounded {r : RateChange} {a : Answer} (h : Claims.Bounded s) :
    Claims.Bounded (answerPath r a s) := by
  unfold answerPath
  split <;> simp [h]

@[simp] theorem pathAckEnd_bounded {p : LPort} {op : Nat} {status : Nat} {node : Nat} {r : RateChange}
    (h : Claims.Bounded s) :
    Claims.Bounded (pathAckEnd p op status node r s) := by
  simp [pathAckEnd, h]

@[simp] theorem pathAckIn_bounded {p : LPort} {b : List Word} (h : Claims.Bounded s) :
    Claims.Bounded (pathAckIn p b s) := by
  unfold pathAckIn
  (repeat' split) <;> simp [h]

@[simp] theorem pathCommitTimeout_bounded {p : LPort} (h : Claims.Bounded s) :
    Claims.Bounded (pathCommitTimeout p s) := by
  unfold pathCommitTimeout
  split <;> simp [h]

@[simp] theorem pathCommit_bounded {rq : Req} (h : Claims.Bounded s) : Claims.Bounded (pathCommit rq s) := by
  unfold pathCommit
  refine command_bounded h fun s h => ?_
  simp only
  split
  · refine taken_bounded ?_
    split <;> simp [h]
  · exact taken_bounded (scheduleRate_bounded (sendMsg_bounded.mpr h))

@[simp] theorem txUse_bounded {p : LPort} {u : NlcUse} : Claims.Bounded (txUse p u s) ↔ Claims.Bounded s :=
  bounded_congr (by simp)

@[simp] theorem rxUse_bounded {p : LPort} {u : NlcUse} (h : Claims.Bounded s) : Claims.Bounded (rxUse p u s) := by
  simp [rxUse, h]

@[simp] theorem switchTx_bounded {p : LPort} {d : Word} {g : BitVec 8} {a : BitVec 8} {kind : BitVec 2}
    (h : Claims.Bounded s) :
    Claims.Bounded (switchTx p d g a kind s) := by
  simp [switchTx, h]

@[simp] theorem switchRx_bounded {p : LPort} {n : Psfn} {d : Word} {g : BitVec 8} {a : BitVec 8} {kind : BitVec 2}
    (h : Claims.Bounded s) :
    Claims.Bounded (switchRx p n d g a kind s) := by
  simp [switchRx, h]

@[simp] theorem switchRateTx_bounded {p : LPort} {rate : BitVec 10} (h : Claims.Bounded s) :
    Claims.Bounded (switchRateTx p rate s) := by
  simp [switchRateTx, h]

@[simp] theorem switchRateRx_bounded {p : LPort} {rate : BitVec 10} (h : Claims.Bounded s) :
    Claims.Bounded (switchRateRx p rate s) := by
  unfold switchRateRx
  refine nlcEval_bounded (rateTaken_bounded.mpr (startAttempt_bounded (ite_bounded (enterHoldover_bounded ?_) ?_))) <;>
    simp [h]

@[simp] theorem runSwitch_bounded {k : DialKind} {n : Psfn} (h : Claims.Bounded s) :
    Claims.Bounded (runSwitch k n s) := by
  unfold runSwitch
  split <;> simp [h]

@[simp] theorem headAcked_bounded {p : LPort} : Claims.Bounded (headAcked p s) ↔ Claims.Bounded s := Iff.rfl

@[simp] theorem capIn_bounded {p : LPort} {b : List Word} : Claims.Bounded (capIn p b s) ↔ Claims.Bounded s :=
  Iff.rfl

@[simp] theorem message_bounded {p : LPort} {label : Psfn} {type : Nat} {b : List Word} (h : Claims.Bounded s) :
    Claims.Bounded (message p label type b s) := by
  unfold message
  split <;> simp [h]

@[simp] theorem trainIn_bounded {p : LPort} {cell : List Word} {label : Psfn} (h : Claims.Bounded s) :
    Claims.Bounded (trainIn p cell label s) := by
  simp [trainIn, h]

@[simp] theorem cellSent_bounded {p : LPort} : Claims.Bounded (cellSent p s) ↔ Claims.Bounded s :=
  bounded_congr (by simp)

/-! ### Training commands -/

@[simp] theorem evalTraces_bounded {p : LPort} (h : Claims.Bounded s) : Claims.Bounded (evalTraces p s) := by
  simp [evalTraces, h]

@[simp] theorem unusableOff_bounded {p : LPort} : Claims.Bounded (unusableOff p s) ↔ Claims.Bounded s :=
  bounded_congr (by simp)

@[simp] theorem reportShort_bounded {p : LPort} (h : Claims.Bounded s) : Claims.Bounded (reportShort p s) := by
  simp [reportShort, h]

@[simp] theorem setRate_bounded {p : LPort} {rate : Nat}
    (h : Claims.Bounded s) : Claims.Bounded (setRate p rate s) := by
  have hrep : ∀ f, Claims.Bounded (unusableOff p (reportShort p (modTr p f s))) :=
    fun f => unusableOff_bounded.mpr (reportShort_bounded (modTr_bounded.mpr h))
  have hclk : ∀ f c, Claims.Bounded (if isOn (unusableOff p (reportShort p (modTr p f s))) (.cv p) then
      calClock p c (unusableOff p (reportShort p (modTr p f s))) else unusableOff p (reportShort p (modTr p f s))) :=
    fun f _ => ite_bounded (calClock_bounded (hrep f)) (hrep f)
  unfold setRate
  exact ite_bounded h (ite_bounded (restartAcq_bounded (hclk _ _)) (hclk _ _))

@[simp] theorem setEnable_bounded {p : LPort} {on : Bool}
    (h : Claims.Bounded s) : Claims.Bounded (setEnable p on s) := by
  have hmute : Claims.Bounded (modPower (fun x => { x with muteLd := x.muteLd &&& ~~~(BitVec.ofNat 4 (2 ^ p.val)) })
      (modTr p (fun t => { t with enable := on }) s)) := by simp [h]
  have hmuted := enterMuted_bounded (p := p) hmute
  unfold setEnable
  exact ite_bounded (ite_bounded (ite_bounded (startAcquire_bounded hmuted) hmuted) (refresh_bounded.mpr hmute))
    (enterDown_bounded (modTr_bounded.mpr h))

@[simp] theorem setTraces_bounded {p : LPort} {w : Word} {bs : List Byte} (h : Claims.Bounded s) :
    Claims.Bounded (setTraces p w bs s) := by
  simp [setTraces, h]

@[simp] theorem lineModeSet_bounded {rq : Req} (h : Claims.Bounded s) : Claims.Bounded (lineModeSet rq s) := by
  unfold lineModeSet
  refine commandOk_bounded h fun s h => ?_
  split
  · exact setTraces_bounded h
  · exact nlcEval_bounded (setEnable_bounded (eachOf_bounded h fun _ _ h => setRate_bounded h))

@[simp] theorem lineModeAnswer_bounded {rq : Req} (h : Claims.Bounded s) : Claims.Bounded (lineModeAnswer rq s) :=
  answerReply_bounded h

@[simp] theorem lineModeGet_bounded {rq : Req} (h : Claims.Bounded s) : Claims.Bounded (lineModeGet rq s) := by
  unfold lineModeGet
  exact report_bounded h fun _ h => by simp [h]

@[simp] theorem trainStart_bounded {rq : Req} (h : Claims.Bounded s) : Claims.Bounded (trainStart rq s) := by
  unfold trainStart
  refine commandOk_bounded h fun s h => ?_
  split
  · exact startAcquire_bounded h
  · exact enterMuted_bounded (modTr_bounded.mpr h)
  · exact trainFail_bounded h
  · exact retune_bounded.mpr h

@[simp] theorem trainPolicySet_bounded {rq : Req} (h : Claims.Bounded s) : Claims.Bounded (trainPolicySet rq s) := by
  unfold trainPolicySet
  exact commandOk_bounded h fun _ h => by simp [h]

@[simp] theorem trainStatusAnswer_bounded {rq : Req} (h : Claims.Bounded s) :
    Claims.Bounded (trainStatusAnswer rq s) :=
  answerReply_bounded h

@[simp] theorem trainStatus_bounded {rq : Req} (h : Claims.Bounded s) : Claims.Bounded (trainStatus rq s) := by
  unfold trainStatus
  exact report_bounded h fun _ h => by simp [h]

/-! ### Clients -/

@[simp] theorem evalGroom_bounded {p : LPort} (h : Claims.Bounded s) : Claims.Bounded (evalGroom p s) := by
  simp [evalGroom, h]

@[simp] theorem evalPending_bounded {c : Client} (h : Claims.Bounded s) : Claims.Bounded (evalPending c s) := by
  simp [evalPending, h]

@[simp] theorem addClient_bounded {ps : List Word} {tx : Bool} (h : Claims.Bounded s) :
    Claims.Bounded (addClient ps tx s) := by
  unfold addClient
  exact evalPending_bounded (eachOf_bounded (setRxFail_bounded (modMap_bounded.mpr h)) fun _ _ h => setAlarm_bounded h)

@[simp] theorem mapAddExact_bounded {ps : List Word} (h : Claims.Bounded s) : Claims.Bounded (mapAddExact ps s) := by
  simp only [mapAddExact]
  (repeat' split) <;> simp [h]

@[simp] theorem mapClientAdd_bounded {rq : Req} (h : Claims.Bounded s) : Claims.Bounded (mapClientAdd rq s) := by
  unfold mapClientAdd
  exact command_bounded h fun _ h => by simp [h]

@[simp] theorem dropClient_bounded {k : HLane} (h : Claims.Bounded s) : Claims.Bounded (dropClient k s) := by
  unfold dropClient
  exact eachOf_bounded (eachOf_bounded (modMap_bounded.mpr h) fun _ _ h => setAlarm_bounded h)
    fun _ _ h => setAlarm_bounded h

@[simp] theorem stopClient_bounded {k : HLane} (h : Claims.Bounded s) : Claims.Bounded (stopClient k s) := by
  unfold stopClient
  exact eachOf_bounded h fun _ _ h => by simp [h]

@[simp] theorem cancelAdds_bounded {k : HLane} (h : Claims.Bounded s) : Claims.Bounded (cancelAdds k s) := by
  unfold cancelAdds
  exact eachOf_bounded h fun _ _ h => by simp [h]

@[simp] theorem mapClientRemove_bounded {rq : Req} (h : Claims.Bounded s) : Claims.Bounded (mapClientRemove rq s) := by
  unfold mapClientRemove
  refine command_bounded h fun s h => ?_
  split
  · exact reply_bounded (cancelAdds_bounded h)
  · split
    · exact reply_bounded (dropClient_bounded (cancelAdds_bounded h))
    · split
      · exact enterImplicit_bounded (ite_bounded h (stopClient_bounded h))
      · exact reply_bounded (dropClient_bounded h)

@[simp] theorem pruneClients_bounded {p : LPort} (h : Claims.Bounded s) : Claims.Bounded (pruneClients p s) := by
  unfold pruneClients
  exact eachOf_bounded h fun _ _ h => by simp [h]

@[simp] theorem setDrop_bounded {p : LPort} {m : Nat} (h : Claims.Bounded s) : Claims.Bounded (setDrop p m s) := by
  simp [setDrop, h]

@[simp] theorem regenExact_bounded {ps : List Word} {r : RefCode} (h : Claims.Bounded s) :
    Claims.Bounded (regenExact ps r s) := by
  simp [regenExact, h]

@[simp] theorem joinPair_bounded {p : LPort} (h : Claims.Bounded s) : Claims.Bounded (joinPair p s) := by
  unfold joinPair
  exact eachOf_bounded h fun _ _ h => by simp [h]

@[simp] theorem setRole_bounded {p : LPort} {on : Bool} (h : Claims.Bounded s) : Claims.Bounded (setRole p on s) := by
  have hsides : Claims.Bounded (eachOf [p, mate p] (fun q s =>
      modDial (fun d => { d with offset := vset (vset d.offset (rxRef q) none) (txRef q) none }) s)
      (eachOf [p, mate p] (fun q s => modFront q (fun f => { f with steer := 0, holdover := false })
        (modSf q (fun f => { f with kRegen := none, everFwd := false }) s))
        (modMap (fun m => { m with regen := vset m.regen (pairOf p) on }) s))) :=
    eachOf_bounded (eachOf_bounded (modMap_bounded.mpr h) fun _ _ h => by simp [h]) fun _ _ h => modDial_bounded.mpr h
  have hjoin := ite_bounded (c := on) (joinPair_bounded (p := p) hsides) hsides
  unfold setRole
  exact ite_bounded h (nlcEval_bounded (ite_bounded (modNlc_bounded.mpr hjoin) hjoin))

@[simp] theorem changeDrop_bounded {rq : Req} {p : LPort} (h : Claims.Bounded s) :
    Claims.Bounded (changeDrop rq p s) := by
  simp [changeDrop, h]

@[simp] theorem mapRegenPair_bounded {rq : Req} (h : Claims.Bounded s) : Claims.Bounded (mapRegenPair rq s) := by
  unfold mapRegenPair
  refine command_bounded h fun s h => ?_
  simp only
  split
  · exact reply_bounded h
  · exact reply_bounded (changeDrop_bounded (changeDrop_bounded (setRole_bounded h)))

@[simp] theorem mapStatusAnswer_bounded {rq : Req} (h : Claims.Bounded s) : Claims.Bounded (mapStatusAnswer rq s) :=
  answerReply_bounded h

@[simp] theorem mapStatus_bounded {rq : Req} (h : Claims.Bounded s) : Claims.Bounded (mapStatus rq s) := by
  unfold mapStatus
  exact report_bounded h fun _ h => by simp [h]

/-! ### The Regulator -/

@[simp] theorem calRun_bounded {rq : Req} (h : Claims.Bounded s) : Claims.Bounded (calRun rq s) := by
  unfold calRun
  exact commandOk_bounded h fun _ h => by simp [h]

@[simp] theorem calPolicySet_bounded {rq : Req} (h : Claims.Bounded s) : Claims.Bounded (calPolicySet rq s) := by
  unfold calPolicySet
  exact commandOk_bounded h fun _ h => by simp [h]

@[simp] theorem calReadAnswer_bounded {rq : Req} (h : Claims.Bounded s) : Claims.Bounded (calReadAnswer rq s) :=
  answerBulk_bounded h

@[simp] theorem calTableRead_bounded {rq : Req} (h : Claims.Bounded s) : Claims.Bounded (calTableRead rq s) := by
  unfold calTableRead
  exact report_bounded h fun _ h => by simp [h]

@[simp] theorem calWriteApply_bounded {ps : List Word} {ws : List Word} :
    Claims.Bounded (calWriteApply ps ws s) ↔ Claims.Bounded s := Iff.rfl

@[simp] theorem calWriteExact_bounded {ps : List Word} {ws : List Word} :
    Claims.Bounded (calWriteExact ps ws s) ↔ Claims.Bounded s :=
  bounded_congr (by simp)

@[simp] theorem calTableWrite_bounded {rq : Req} (h : Claims.Bounded s) : Claims.Bounded (calTableWrite rq s) := by
  unfold calTableWrite
  exact command_bounded h fun _ h => by simp [h]

@[simp] theorem calStatusAnswer_bounded {rq : Req} (h : Claims.Bounded s) : Claims.Bounded (calStatusAnswer rq s) :=
  answerReply_bounded h

@[simp] theorem calStatus_bounded {rq : Req} (h : Claims.Bounded s) : Claims.Bounded (calStatus rq s) := by
  unfold calStatus
  exact report_bounded h fun _ h => by simp [h]

@[simp] theorem calTargetUpdate_bounded {p : LPort} {readings : Vector Int 4} (h : Claims.Bounded s) :
    Claims.Bounded (calTargetUpdate p readings s) := by
  simp [calTargetUpdate, h]

@[simp] theorem calRunEnd_bounded {p : LPort} {foreground : Bool} {first : CalVals} {second : CalVals}
    (h : Claims.Bounded s) :
    Claims.Bounded (calRunEnd p foreground first second s) := by
  simp [calRunEnd, h]

@[simp] theorem calRetryRun_bounded {p : LPort} (h : Claims.Bounded s) : Claims.Bounded (calRetryRun p s) := by
  simp only [calRetryRun]
  (repeat' split) <;> simp [h]

/-! ### Exchanges -/

@[simp] theorem modEv_bounded {idx : Nat} {f : DialEv → DialEv} : Claims.Bounded (modEv idx f s) ↔ Claims.Bounded s :=
  Iff.rfl

@[simp] theorem exactEffect_bounded {e : DialEv} (h : Claims.Bounded s) : Claims.Bounded (exactEffect e s) := by
  unfold exactEffect
  split <;> simp [h]

@[simp] theorem markExchanged_bounded {r : RefCode} {n : Psfn} {e : DialEv} :
    Claims.Bounded (markExchanged r n e s) ↔ Claims.Bounded s := Iff.rfl

@[simp] theorem exchangeEvent_bounded {n : Psfn} {e : DialEv} (h : Claims.Bounded s) :
    Claims.Bounded (exchangeEvent n e s) := by
  simp [exchangeEvent, h]

@[simp] theorem exchangeDue_bounded {r : RefCode} (h : Claims.Bounded s) : Claims.Bounded (exchangeDue r s) := by
  unfold exchangeDue
  exact eachOf_bounded (eachOf_bounded h fun _ _ h => markExchanged_bounded.mpr h) fun _ _ h => exchangeEvent_bounded h

end Sys2Proof.Machine
end

section
/-! PROOF. Queue bounds: power, host lanes, the decoder pool, mailboxes and Joryx. -/

namespace Sys2Proof.Machine

variable {s : State}

/-! ### Power -/

@[simp] theorem profileWake_bounded {code : BitVec 4} {arg : BitVec 6} (h : Claims.Bounded s) :
    Claims.Bounded (profileWake code arg s) := by
  unfold profileWake
  split <;> simp [h]

@[simp] theorem startHeld_bounded (h : Claims.Bounded s) : Claims.Bounded (startHeld s) := by
  unfold startHeld
  exact eachOf_bounded h fun _ _ h => by simp [h]

@[simp] theorem logRefusal_bounded {ms : List Move} {refuser : Nat} {reason : Nat} {abort : Bool}
    (h : Claims.Bounded s) :
    Claims.Bounded (logRefusal ms refuser reason abort s) :=
  modPower_bounded h fun _ => by simp

@[simp] theorem answerTrans_bounded {t : Machine.Trans} {a : Answer} (h : Claims.Bounded s) :
    Claims.Bounded (answerTrans t a s) := by
  unfold answerTrans
  split <;> simp [h]

@[simp] theorem refuseRequest_bounded {rs : List (Nat × Nat)} (h : Claims.Bounded s) :
    Claims.Bounded (refuseRequest rs s) := by
  unfold refuseRequest
  split
  · exact h
  · refine startHeld_bounded ((modPower_bounded_iff fun _ => rfl).mpr (answerTrans_bounded ?_))
    exact eachOf_bounded h fun _ _ h => logRefusal_bounded h

@[simp] theorem upwardReport_bounded {start : Nat} (h : Claims.Bounded s) : Claims.Bounded (upwardReport start s) := by
  simp [upwardReport, h]

@[simp] theorem beginTrans_bounded (h : Claims.Bounded s) : Claims.Bounded (beginTrans s) := by
  unfold beginTrans
  split
  · exact h
  · refine eachOf_bounded (wakeAttempts_bounded.mpr ((modPower_bounded_iff fun _ => rfl).mpr
      (doIf_bounded h fun _ h => upwardReport_bounded h))) fun _ _ h => ?_
    exact eachOf_bounded (modPool_bounded.mpr h) fun _ _ h => by simp [h]

@[simp] theorem startTrans_bounded {rq : Req} {ms : List Move} {profile : Option Profile} {isWake : Bool}
    (h : Claims.Bounded s) :
    Claims.Bounded (startTrans rq ms profile isWake s) := by
  simp [startTrans, h]

@[simp] theorem reverseTrans_bounded {rq : Req} {t : Machine.Trans} {profile : Option Profile} (h : Claims.Bounded s) :
    Claims.Bounded (reverseTrans rq t profile s) := by
  have hans : Claims.Bounded (answerTrans t { st := .aborted } (logRefusal t.moves 9 14 true s)) :=
    answerTrans_bounded (logRefusal_bounded h)
  have hev := pwrEvent_bounded (outcome := 1) ((modPool_bounded (f := fun x => { x with draining := 0 })).mpr hans)
  unfold reverseTrans
  refine taken_bounded ((modPower_bounded_iff fun _ => rfl).mpr ?_)
  exact ite_bounded (dropAttempts_bounded.mpr hev) (wakeAttempts_bounded.mpr (dropAttempts_bounded.mpr hev))

@[simp] theorem setWakes_bounded {w : Word} (h : Claims.Bounded s) : Claims.Bounded (setWakes w s) := by
  simp [setWakes, h]

@[simp] theorem pwrProfileSet_bounded {rq : Req} (h : Claims.Bounded s) : Claims.Bounded (pwrProfileSet rq s) := by
  unfold pwrProfileSet
  refine command_bounded h fun s h => ?_
  split
  · exact ite_bounded (reverseTrans_bounded h) (reply_bounded h)
  · refine ite_bounded (reply_bounded (setWakes_bounded h)) ?_
    exact startTrans_bounded (doIf_bounded h fun _ h => upwardReport_bounded h)

@[simp] theorem pwrDomainSet_bounded {rq : Req} (h : Claims.Bounded s) : Claims.Bounded (pwrDomainSet rq s) := by
  unfold pwrDomainSet
  refine command_bounded h fun s h => ?_
  split
  · exact ite_bounded (reverseTrans_bounded h) (reply_bounded h)
  · exact ite_bounded (reply_bounded h) (startTrans_bounded h)

@[simp] theorem powerAnswersReceived_bounded (h : Claims.Bounded s) : Claims.Bounded (powerAnswersReceived s) := by
  unfold powerAnswersReceived
  split <;> simp [h]

@[simp] theorem noAnswer_bounded {who : Party} (h : Claims.Bounded s) : Claims.Bounded (noAnswer who s) := by
  unfold noAnswer
  split <;> simp [h]

@[simp] theorem carryMoves_bounded {t : Machine.Trans} {ms : List Move} (h : Claims.Bounded s) :
    Claims.Bounded (carryMoves t ms s) := by
  unfold carryMoves
  exact eachOf_bounded h fun _ _ h => by simp [h]

@[simp] theorem listenFor_bounded {profile : Option Profile} :
    Claims.Bounded (listenFor profile s) ↔ Claims.Bounded s :=
  bounded_congr (by simp)

@[simp] theorem endTrans_bounded {t : Machine.Trans} (h : Claims.Bounded s) : Claims.Bounded (endTrans t s) := by
  unfold endTrans
  split <;> simp [h]

@[simp] theorem powerTransitionComplete_bounded
    (h : Claims.Bounded s) : Claims.Bounded (powerTransitionComplete s) := by
  unfold powerTransitionComplete
  split
  · exact h
  · split
    · exact h
    · refine startHeld_bounded (pwrEvent_bounded (endTrans_bounded ?_))
      exact carryMoves_bounded (answerTrans_bounded (carryMoves_bounded (carryMoves_bounded h)))

@[simp] theorem domainWakeComplete_bounded {d : Dom} (h : Claims.Bounded s) :
    Claims.Bounded (domainWakeComplete d s) := by
  unfold domainWakeComplete
  (repeat' split) <;> simp [h]

@[simp] theorem failBank_bounded {t : Machine.Trans} {k : Fin 32} (h : Claims.Bounded s) :
    Claims.Bounded (failBank t k s) := by
  unfold failBank
  split
  · exact h
  · split
    · exact detect_bounded (lostBank_bounded ((modPower_bounded_iff fun _ => rfl).mpr h))
    · exact (modPower_bounded_iff fun _ => rfl).mpr h

@[simp] theorem bankCheckDone_bounded {failed : BitVec 32} (h : Claims.Bounded s) :
    Claims.Bounded (bankCheckDone failed s) := by
  have hrec : Claims.Bounded
      (eachOf ((List.finRange 32).filter fun k => failed.getLsbD k.val) recBankFail s) :=
    eachOf_bounded h fun _ _ h => recBankFail_bounded h
  unfold bankCheckDone
  simp only
  split
  · exact hrec
  · rename_i t _
    refine ite_bounded hrec ?_
    have hdone : ∀ f g : Power → Power, (∀ x, (f x).log = x.log) → (∀ x, (g x).log = x.log) → ∀ ks, Claims.Bounded
        (modPower f (modPower g (eachOf ks (failBank t)
          (eachOf ((List.finRange 32).filter fun k => failed.getLsbD k.val) recBankFail s)))) := fun f g hf hg ks =>
      (modPower_bounded_iff hf).mpr ((modPower_bounded_iff hg).mpr (eachOf_bounded hrec fun _ _ h => failBank_bounded h))
    split
    · exact ite_bounded (holdLost_bounded (hdone _ _ (fun _ => rfl) (fun _ => rfl) _))
        (domMove_bounded (hdone _ _ (fun _ => rfl) (fun _ => rfl) _))
    · exact hdone _ _ (fun _ => rfl) (fun _ => rfl) _

@[simp] theorem wakeEvent_bounded (h : Claims.Bounded s) : Claims.Bounded (wakeEvent s) := by
  simp [wakeEvent, h]

@[simp] theorem wakeDone_bounded (h : Claims.Bounded s) : Claims.Bounded (wakeDone s) := by
  unfold wakeDone
  split
  · exact h
  · split
    · refine startHeld_bounded (answerTrans_bounded (pwrEvent_bounded (wakeEvent_bounded (ring_bounded.mpr
        (endTrans_bounded ((modPower_bounded_iff fun _ => rfl).mpr ?_))))))
      exact carryMoves_bounded (carryMoves_bounded h)
    · exact h

@[simp] theorem lightWake_bounded {p : LPort} (h : Claims.Bounded s) : Claims.Bounded (lightWake p s) := by
  simp [lightWake, h]

@[simp] theorem keepAliveDetect_bounded {p : LPort} (h : Claims.Bounded s) : Claims.Bounded (keepAliveDetect p s) := by
  simp [keepAliveDetect, h]

@[simp] theorem hostWakePattern_bounded {k : HLane} (h : Claims.Bounded s) : Claims.Bounded (hostWakePattern k s) := by
  simp [hostWakePattern, h]

@[simp] theorem pwrRetainSet_bounded {rq : Req} (h : Claims.Bounded s) : Claims.Bounded (pwrRetainSet rq s) := by
  unfold pwrRetainSet
  refine commandOk_bounded h fun s h => modPower_bounded h fun hlog => ?_
  refine List.foldlRecOn (motive := fun p : Power => p.log.length ≤ 16) _ _ hlog fun p hp k _ => ?_
  split <;> exact hp

@[simp] theorem pwrStatusAnswer_bounded {rq : Req} (h : Claims.Bounded s) : Claims.Bounded (pwrStatusAnswer rq s) :=
  answerReply_bounded h

@[simp] theorem pwrStatus_bounded {rq : Req} (h : Claims.Bounded s) : Claims.Bounded (pwrStatus rq s) := by
  unfold pwrStatus
  exact report_bounded h fun _ h => by simp [h]

@[simp] theorem pwrRefusalsAnswer_bounded {rq : Req} (h : Claims.Bounded s) :
    Claims.Bounded (pwrRefusalsAnswer rq s) := by
  unfold pwrRefusalsAnswer
  exact reply_bounded (doIf_bounded (putBulk_bounded.mpr h) fun _ h => modPower_bounded h fun _ => Nat.zero_le _)

@[simp] theorem pwrRefusalsRead_bounded {rq : Req} (h : Claims.Bounded s) : Claims.Bounded (pwrRefusalsRead rq s) := by
  unfold pwrRefusalsRead
  exact report_bounded h fun _ h => by simp [h]

@[simp] theorem pwrWakeAnswer_bounded {rq : Req} (h : Claims.Bounded s) : Claims.Bounded (pwrWakeAnswer rq s) :=
  answerReply_bounded h

@[simp] theorem pwrWakeReport_bounded {rq : Req} (h : Claims.Bounded s) : Claims.Bounded (pwrWakeReport rq s) := by
  unfold pwrWakeReport
  exact report_bounded h fun _ h => by simp [h]

/-! ### Host lanes -/

@[simp] theorem setCdr_bounded {k : HLane} {on : Bool} (h : Claims.Bounded s) : Claims.Bounded (setCdr k on s) := by
  simp [setCdr, h]

@[simp] theorem configLane_bounded {w1 : Word} {w2 : Word} {w3 : Word} {k : HLane} (h : Claims.Bounded s) :
    Claims.Bounded (configLane w1 w2 w3 k s) := by
  simp [configLane, h]

@[simp] theorem hostLaneConfig_bounded {rq : Req} (h : Claims.Bounded s) : Claims.Bounded (hostLaneConfig rq s) := by
  unfold hostLaneConfig
  exact commandOk_bounded h fun _ h => eachOf_bounded h fun _ _ h => configLane_bounded h

@[simp] theorem hostTrain_bounded {rq : Req} (h : Claims.Bounded s) : Claims.Bounded (hostTrain rq s) := by
  unfold hostTrain
  refine commandOk_bounded h fun _ h => eachOf_bounded h fun _ _ h => ?_
  split <;> simp [h]

@[simp] theorem trainEnds_bounded {k : HLane} (h : Claims.Bounded s) : Claims.Bounded (trainEnds k s) := by
  simp [trainEnds, h]

@[simp] theorem hostTrainingFrame_bounded {k : HLane} {r : TrainReq} {ans : TrainAns} {ready : Bool}
    (h : Claims.Bounded s) :
    Claims.Bounded (hostTrainingFrame k r ans ready s) := by
  simp [hostTrainingFrame, h]

@[simp] theorem hostReceiverReady_bounded {k : HLane} (h : Claims.Bounded s) :
    Claims.Bounded (hostReceiverReady k s) := by
  simp [hostReceiverReady, h]

@[simp] theorem hostTrainFail_bounded {k : HLane} (h : Claims.Bounded s) : Claims.Bounded (hostTrainFail k s) := by
  simp [hostTrainFail, h]

@[simp] theorem hostLos_bounded {k : HLane} (h : Claims.Bounded s) : Claims.Bounded (hostLos k s) := by
  simp [hostLos, h]

@[simp] theorem hostLosClear_bounded {k : HLane} (h : Claims.Bounded s) : Claims.Bounded (hostLosClear k s) := by
  simp [hostLosClear, h]

@[simp] theorem hostAlign_bounded {k : HLane} {aligned : Bool} (h : Claims.Bounded s) :
    Claims.Bounded (hostAlign k aligned s) := by
  unfold hostAlign
  split
  · exact eachOf_bounded (modClients_bounded.mpr h) fun _ _ h => raiseAlarm_bounded h
  · exact h

@[simp] theorem prbsSet_bounded {rq : Req} (h : Claims.Bounded s) : Claims.Bounded (prbsSet rq s) := by
  unfold prbsSet
  exact commandOk_bounded h fun _ h => eachOf_bounded h fun _ _ h => modLane_bounded.mpr (prbsCount_bounded.mpr h)

@[simp] theorem hostStatusAnswer_bounded {rq : Req}
    (h : Claims.Bounded s) : Claims.Bounded (hostStatusAnswer rq s) := by
  unfold hostStatusAnswer
  exact tookFree_bounded.mpr (answerReply_bounded h)

@[simp] theorem hostStatus_bounded {rq : Req} (h : Claims.Bounded s) : Claims.Bounded (hostStatus rq s) := by
  unfold hostStatus
  exact report_bounded h fun _ h => by simp [h]

@[simp] theorem hostPmAnswer_bounded {rq : Req} (h : Claims.Bounded s) : Claims.Bounded (hostPmAnswer rq s) := by
  unfold hostPmAnswer
  exact answerBulk_bounded (prbsCount_bounded.mpr h)

@[simp] theorem hostPmRead_bounded {rq : Req} (h : Claims.Bounded s) : Claims.Bounded (hostPmRead rq s) := by
  unfold hostPmRead
  exact report_bounded h fun _ h => by simp [h]

/-! ### The decoder pool -/

@[simp] theorem eccCount_bounded {r : EccRead} : Claims.Bounded (eccCount r s) ↔ Claims.Bounded s :=
  bounded_congr (by simp)

@[simp] theorem modOpen_bounded {p : LPort} {id : Nat} {f : OpenSf → OpenSf} :
    Claims.Bounded (modOpen p id f s) ↔ Claims.Bounded s := Iff.rfl

@[simp] theorem poolWord_bounded {e : Option (Fin 64)} {n : Nat} (h : Claims.Bounded s) :
    Claims.Bounded (poolWord e n s) := by
  unfold poolWord
  split <;> simp [h]

@[simp] theorem softWord_bounded {p : LPort} {sf : Nat} {l : List Nat} {n : Nat} :
    Claims.Bounded (softWord p sf l n s) ↔ Claims.Bounded s :=
  bounded_congr (by simp)

@[simp] theorem unitWord_bounded {u : FUnit} {code : BitVec 8} {detail : BitVec 16} {n : Nat} (h : Claims.Bounded s) :
    Claims.Bounded (unitWord u code detail n s) := by
  simp [unitWord, h]

@[simp] theorem bankWord_bounded {k : Fin 32} {n : Nat} (h : Claims.Bounded s) : Claims.Bounded (bankWord k n s) := by
  simp [bankWord, h]

@[simp] theorem readWord_bounded {m : BadMem} {n : Nat} (h : Claims.Bounded s) : Claims.Bounded (readWord m n s) := by
  unfold readWord
  split <;> simp [h]

@[simp] theorem scrubRow_bounded {f : BadMem × Nat} (h : Claims.Bounded s) : Claims.Bounded (scrubRow f s) := by
  unfold scrubRow
  exact ite_bounded (eachOf_bounded h fun _ _ h => readWord_bounded h) h

@[simp] theorem scrubBank_bounded {f : Fin 32 × Nat} (h : Claims.Bounded s) : Claims.Bounded (scrubBank f s) := by
  unfold scrubBank
  exact ite_bounded (eachOf_bounded h fun _ _ h => bankWord_bounded h) h

@[simp] theorem scrubPass_bounded {found : List (BadMem × Nat)} {banks : List (Fin 32 × Nat)} (h : Claims.Bounded s) :
    Claims.Bounded (scrubPass found banks s) := by
  unfold scrubPass
  refine ite_bounded h (eachOf_bounded (eachOf_bounded (modPool_bounded.mpr h) ?_) ?_)
  · exact fun _ _ h => scrubRow_bounded h
  · exact fun _ _ h => scrubBank_bounded h

@[simp] theorem closeCw_bounded {p : LPort} {id : Nat} {k : Nat} :
    Claims.Bounded (closeCw p id k s) ↔ Claims.Bounded s :=
  bounded_congr (by simp)

@[simp] theorem finishSf_bounded {p : LPort} {id : Nat} : Claims.Bounded (finishSf p id s) ↔ Claims.Bounded s :=
  bounded_congr (by simp)

@[simp] theorem poolBoundary_bounded {p : LPort} {o : RxObs} :
    Claims.Bounded (poolBoundary p o s) ↔ Claims.Bounded s :=
  bounded_congr (by simp)

@[simp] theorem refitSf_bounded {p : LPort} : Claims.Bounded (refitSf p s) ↔ Claims.Bounded s :=
  bounded_congr (by simp)

@[simp] theorem engineReads_bounded {e : Engine} {j : Job} {b : Option (List Nat) × Nat} (h : Claims.Bounded s) :
    Claims.Bounded (engineReads e j b s) := by
  unfold engineReads
  split <;> simp [h]

@[simp] theorem engineComplete_bounded {e : Engine} {o : DecodeObs} (h : Claims.Bounded s) :
    Claims.Bounded (engineComplete e o s) := by
  unfold engineComplete
  split
  · exact h
  · rename_i j _
    have hr := eachOf_bounded (l := o.bursts) (f := engineReads e j) h fun _ _ h => engineReads_bounded h
    simp only
    split
    · exact hr
    · split
      · split
        · refine finishSf_bounded.mpr ?_
          simp [hr]
        · simp [hr]
      · simp [hr]

@[simp] theorem fecStarved_bounded (h : Claims.Bounded s) : Claims.Bounded (fecStarved s) := by
  unfold fecStarved
  exact ite_bounded (eachOf_bounded h fun _ _ h => setAlarm_bounded h) h

@[simp] theorem fecStarvedClear_bounded (h : Claims.Bounded s) : Claims.Bounded (fecStarvedClear s) := by
  unfold fecStarvedClear
  exact ite_bounded (eachPort_bounded h fun _ _ h => setAlarm_bounded h) h

@[simp] theorem watchdog_bounded {e : Engine} (h : Claims.Bounded s) : Claims.Bounded (watchdog e s) := by
  simp [watchdog, h]

@[simp] theorem katFailed_bounded {e : Engine} (h : Claims.Bounded s) : Claims.Bounded (katFailed e s) := by
  simp [katFailed, h]

@[simp] theorem katRun_bounded {e : Engine} {passed : Bool} (h : Claims.Bounded s) :
    Claims.Bounded (katRun e passed s) := by
  simp [katRun, h]

@[simp] theorem knownAnswerTestDone_bounded {e : Engine} {passed : Bool} (h : Claims.Bounded s) :
    Claims.Bounded (knownAnswerTestDone e passed s) := by
  simp [knownAnswerTestDone, h]

@[simp] theorem fecModeSet_bounded {rq : Req} (h : Claims.Bounded s) : Claims.Bounded (fecModeSet rq s) := by
  unfold fecModeSet
  exact commandOk_bounded h fun _ h => by simp [h]

@[simp] theorem fecPoolPolicy_bounded {rq : Req} (h : Claims.Bounded s) : Claims.Bounded (fecPoolPolicy rq s) := by
  unfold fecPoolPolicy
  exact command_bounded h fun _ h => by simp [h]

@[simp] theorem fecStatusAnswer_bounded {rq : Req} (h : Claims.Bounded s) : Claims.Bounded (fecStatusAnswer rq s) :=
  answerReply_bounded h

@[simp] theorem fecStatus_bounded {rq : Req} (h : Claims.Bounded s) : Claims.Bounded (fecStatus rq s) := by
  unfold fecStatus
  exact report_bounded h fun _ h => by simp [h]

@[simp] theorem fecPmAnswer_bounded {rq : Req} (h : Claims.Bounded s) : Claims.Bounded (fecPmAnswer rq s) :=
  answerBulk_bounded h

@[simp] theorem fecPmRead_bounded {rq : Req} (h : Claims.Bounded s) : Claims.Bounded (fecPmRead rq s) := by
  unfold fecPmRead
  exact report_bounded h fun _ h => by simp [h]

/-! ### Mailboxes -/

@[simp] theorem wakeCtl_bounded (h : Claims.Bounded s) : Claims.Bounded (wakeCtl s) := by
  simp [wakeCtl, h]

@[simp] theorem postWord_bounded {n : Fin 8} {st : Stamp} {w : Word} (h : Claims.Bounded s) :
    Claims.Bounded (postWord n st w s) := by
  unfold postWord
  refine ite_bounded (by simp [h]) ?_
  split
  · simp [h]
  · rename_i hfull
    have hroom : s.mbx.m[n].inQ.length < 16 := by simp at hfull; exact hfull.2
    refine wakeCtl_bounded (modM_bounded ((modMbx_bounded (fun _ => rfl) fun _ => rfl).mpr h) fun _ ho => ⟨?_, ho⟩)
    simpa using hroom

@[simp] theorem mbxPost_bounded {who : HostPort} {n : Fin 8} {w : Word} (h : Claims.Bounded s) :
    Claims.Bounded (mbxPost who n w s) := by
  unfold mbxPost
  exact access_bounded h fun _ h => by simp [h]

@[simp] theorem flowOn_bounded {n : Fin 8} (h : Claims.Bounded s) : Claims.Bounded (flowOn n s) := by
  simp [flowOn, h]

theorem takeWord_bounded {who : HostPort} {n : Fin 8} (h : Claims.Bounded s) :
    Claims.Bounded (takeWord who n s).2 := by
  unfold takeWord
  split
  · simp [h]
  · rename_i q rest hq
    have hrest : Claims.Bounded (modM n (fun c => { c with outQ := rest }) s) :=
      modM_bounded h fun hi ho => ⟨hi, (Nat.le_succ rest.length).trans (by rw [hq] at ho; exact ho)⟩
    have hlatch : ∀ w, Claims.Bounded (modM n (latchStamp who w) (modM n (fun c => { c with outQ := rest }) s)) :=
      fun w => (modM_bounded_iff (by cases who <;> exact fun _ => rfl) (by cases who <;> exact fun _ => rfl)).mpr hrest
    exact flowOn_bounded (ite_bounded ((modMbx_bounded (fun _ => rfl) fun _ => rfl).mpr (hlatch _)) hrest)

@[simp] theorem mbxTake_bounded {who : HostPort} {n : Fin 8} (h : Claims.Bounded s) :
    Claims.Bounded (mbxTake who n s) := by
  unfold mbxTake
  exact access_bounded h fun _ h => feDone_bounded.mpr (takeWord_bounded h)

/-- What stands before a queue's last message is no longer than the queue. -/
theorem beforeLast_length (l : List QWord) : (beforeLast l).length ≤ l.length := by
  rw [beforeLast, List.length_reverse, List.length_drop]
  exact (Nat.sub_le _ _).trans ((List.dropWhile_suffix _).length_le.trans (List.length_reverse ..).le)

theorem kept_length {c : Prop} [Decidable c] (l : List QWord) : (if c then beforeLast l else l).length ≤ l.length := by
  split
  · exact beforeLast_length l
  · exact le_rfl

@[simp] theorem resetChan_bounded {who : HostPort} {n : Fin 8} (h : Claims.Bounded s) :
    Claims.Bounded (resetChan who n s) := by
  have hreset : ∀ g : MChan → MChan, (∀ c, (g c).outQ.length = 0 ∧ (g c).inQ.length ≤ c.inQ.length) →
      Claims.Bounded (modM n (fun c => bumpGen who (g c)) s) := fun g hg => by
    obtain ⟨ho, hin⟩ := hg s.mbx.m[n]
    refine modM_bounded h fun hi _ => ?_
    cases who <;> exact ⟨hin.trans hi, ho.le.trans (Nat.zero_le 16)⟩
  unfold resetChan
  refine ite_bounded ((modMbx_bounded (fun _ => rfl) fun _ => rfl).mpr
    (doIf_bounded (hreset _ ?_) fun _ h => ring_bounded.mpr h)) (doIf_bounded (hreset _ ?_) fun _ h => ring_bounded.mpr h)
  all_goals exact fun c => ⟨rfl, kept_length c.inQ⟩

@[simp] theorem ctrlWrite_bounded {who : HostPort} {n : Fin 8} {w : Word} (h : Claims.Bounded s) :
    Claims.Bounded (ctrlWrite who n w s) := by
  have hclear : Claims.Bounded (modM n (ctrlClear w) s) :=
    (modM_bounded_iff (f := ctrlClear w) (fun _ => rfl) fun _ => rfl).mpr h
  exact doIf_bounded hclear fun _ h => resetChan_bounded h

@[simp] theorem mbxCtrlReset_bounded {who : HostPort} {n : Fin 8} {w : Word} (h : Claims.Bounded s) :
    Claims.Bounded (mbxCtrlReset who n w s) := by
  unfold mbxCtrlReset
  exact access_bounded h fun _ h => by simp [h]

@[simp] theorem pourJ_bounded {n : Fin 4} (h : Claims.Bounded s) : Claims.Bounded (pourJ n s) := by
  unfold pourJ
  refine modJ_bounded (by simp [h]) fun hin => ?_
  refine List.foldlRecOn (motive := fun acc : List QWord × List (LPort × BitVec 11 × List Word) => acc.1.length ≤ 16)
    _ _ hin fun acc hacc m _ => ?_
  simp only
  split
  · rename_i hfits
    simp only [Bool.and_eq_true, decide_eq_true_eq] at hfits
    simpa [toQ] using hfits.2
  · exact hacc

@[simp] theorem queueSpacePost_bounded {c : Chan} (h : Claims.Bounded s) : Claims.Bounded (queueSpacePost c s) := by
  unfold queueSpacePost
  split
  · exact eachOf_bounded h fun _ _ h => pourM_bounded h
  · exact pourJ_bounded h

@[simp] theorem hostQueueDrop_bounded {n : Fin 8} (h : Claims.Bounded s) : Claims.Bounded (hostQueueDrop n s) := by
  unfold hostQueueDrop
  split
  · exact h
  · refine doIf_bounded (doIf_bounded (ring_bounded.mpr ?_) fun _ h => modSys_bounded.mpr h)
      fun _ h => dialCount_bounded.mpr h
    refine (modMbx_bounded (fun _ => rfl) fun _ => rfl).mpr (modM_bounded h fun hi ho => ⟨hi, ?_⟩)
    simp only [List.length_take]
    omega

@[simp] theorem internalQueueDrop_bounded {i : Fin 16} (h : Claims.Bounded s) :
    Claims.Bounded (internalQueueDrop i s) := by
  simp only [internalQueueDrop]
  (repeat' split) <;> simp [h]

/-! ### Joryx -/

@[simp] theorem jrxEvent_bounded {kind : Nat} {src : BitVec 11} {chan : BitVec 2} {p : LPort} {ws : List Word}
    (h : Claims.Bounded s) :
    Claims.Bounded (jrxEvent kind src chan p ws s) := by
  simp [jrxEvent, h]

@[simp] theorem conflictEval_bounded {p : LPort} (h : Claims.Bounded s) : Claims.Bounded (conflictEval p s) := by
  simp [conflictEval, h]

@[simp] theorem helloIn_bounded {p : LPort} {src : BitVec 11} {body : List Word} (h : Claims.Bounded s) :
    Claims.Bounded (helloIn p src body s) := by
  have hneigh : ∀ new, Claims.Bounded (modJp p (fun x => { x with neigh := new }) s) :=
    fun new => by simp [h]
  unfold helloIn
  refine nlcEval_bounded (eachPort_bounded ?_ fun _ _ h => conflictEval_bounded h)
  have hchg : ∀ (c : Bool) (b : BitVec 11) (ws : List Word) (new : Neighbour), Claims.Bounded (if c then
      jrxEvent 3 b 0 p ws (setAlarm (.jrx p) 1 true (modJp p (fun x => { x with neigh := new }) s))
      else modJp p (fun x => { x with neigh := new }) s) :=
    fun c b ws new => ite_bounded (jrxEvent_bounded (setAlarm_bounded (hneigh new))) (hneigh new)
  exact ite_bounded (jrxEvent_bounded (hchg _ _ _ _)) (hchg _ _ _ _)

@[simp] theorem routeEntry_bounded {p : LPort} {node : BitVec 11} {xh : Nat} (h : Claims.Bounded s) :
    Claims.Bounded (routeEntry p node xh s) := by
  simp [routeEntry, h]

@[simp] theorem neighbourFrame_bounded {p : LPort} {type : BitVec 3} {entries : Nat} {body : List Word}
    (h : Claims.Bounded s) :
    Claims.Bounded (neighbourFrame p type entries body s) := by
  simp [neighbourFrame, h]

@[simp] theorem sendRoutes_bounded {p : LPort} (h : Claims.Bounded s) : Claims.Bounded (sendRoutes p s) := by
  unfold sendRoutes
  exact eachOf_bounded h fun _ _ h => by simp [h]

@[simp] theorem sendAllRoutes_bounded (h : Claims.Bounded s) : Claims.Bounded (sendAllRoutes s) := by
  unfold sendAllRoutes
  exact eachPort_bounded h fun _ _ h => by simp [h]

@[simp] theorem routeTimer_bounded (h : Claims.Bounded s) : Claims.Bounded (routeTimer s) := by
  simp [routeTimer, h]

@[simp] theorem routeChangeSend_bounded (h : Claims.Bounded s) : Claims.Bounded (routeChangeSend s) := by
  simp [routeChangeSend, h]

@[simp] theorem routeExpiry_bounded {node : BitVec 11}
    (h : Claims.Bounded s) : Claims.Bounded (routeExpiry node s) := by
  simp [routeExpiry, h]

@[simp] theorem helloTimer_bounded {p : LPort} (h : Claims.Bounded s) : Claims.Bounded (helloTimer p s) := by
  simp [helloTimer, h]

@[simp] theorem nodeSeen_bounded {src : BitVec 11} {seq : BitVec 16} (h : Claims.Bounded s) :
    Claims.Bounded (nodeSeen src seq s) := by
  simp [nodeSeen, h]

@[simp] theorem endWait_bounded {w : JrxWait} {a : Answer} (h : Claims.Bounded s) : Claims.Bounded (endWait w a s) := by
  simp [endWait, h]

@[simp] theorem frameOwn_bounded {p : LPort} {f : Frame} (h : Claims.Bounded s) : Claims.Bounded (frameOwn p f s) := by
  unfold frameOwn
  (repeat' split) <;> simp [h]

@[simp] theorem frameRelay.frameLost_bounded {p : LPort} {f : Frame} (h : Claims.Bounded s) :
    Claims.Bounded (frameRelay.frameLost p f s) := by
  simp [frameRelay.frameLost, h]

@[simp] theorem frameRelay_bounded {p : LPort} {f : Frame} (h : Claims.Bounded s) :
    Claims.Bounded (frameRelay p f s) := by
  unfold frameRelay
  split <;> simp [h]

@[simp] theorem frameIn_bounded {p : LPort} {ws : List Word} (h : Claims.Bounded s) :
    Claims.Bounded (frameIn p ws s) := by
  have hseen : ∀ src seq, Claims.Bounded (nodeSeen src seq s) := fun _ _ => nodeSeen_bounded h
  unfold frameIn
  refine ite_bounded (jrxCount_bounded h) (ite_bounded (helloIn_bounded (ite_bounded (hseen _ _) h))
    (ite_bounded (eachOf_bounded (hseen _ _) fun _ _ h => routeEntry_bounded h) (ite_bounded h ?_)))
  exact ite_bounded (frameOwn_bounded (hseen _ _)) (frameRelay_bounded (hseen _ _))

@[simp] theorem cellIn_bounded {p : LPort} {cell : List Word} (h : Claims.Bounded s) :
    Claims.Bounded (cellIn p cell s) := by
  simp only [cellIn]
  (repeat' split) <;> simp [h]

@[simp] theorem cellLost_bounded {p : LPort} (h : Claims.Bounded s) : Claims.Bounded (cellLost p s) := by
  simp [cellLost, h]

@[simp] theorem jrxMbxDrop_bounded {j : Fin 4} (h : Claims.Bounded s) : Claims.Bounded (jrxMbxDrop j s) := by
  unfold jrxMbxDrop
  split <;> simp [h]

@[simp] theorem jrxConfig_bounded {rq : Req} (h : Claims.Bounded s) : Claims.Bounded (jrxConfig rq s) := by
  unfold jrxConfig
  refine commandOk_bounded h fun s h => eachPort_bounded ?_ fun _ _ h => ?_
  · simp [h]
  · simp [h]

@[simp] theorem jrxSend_bounded {rq : Req} (h : Claims.Bounded s) : Claims.Bounded (jrxSend rq s) := by
  unfold jrxSend
  exact command_bounded h fun _ h => by simp [h]

@[simp] theorem jrxSendTimeout_bounded {dest : BitVec 11} {ch : Fin 4} (h : Claims.Bounded s) :
    Claims.Bounded (jrxSendTimeout dest ch s) := by
  unfold jrxSendTimeout
  split <;> simp [h]

@[simp] theorem jrxPeersAnswer_bounded {rq : Req} (h : Claims.Bounded s) : Claims.Bounded (jrxPeersAnswer rq s) := by
  simp [jrxPeersAnswer, h]

@[simp] theorem jrxPeers_bounded {rq : Req} (h : Claims.Bounded s) : Claims.Bounded (jrxPeers rq s) := by
  unfold jrxPeers
  exact report_bounded h fun _ h => by simp [h]

@[simp] theorem jrxStatusAnswer_bounded {rq : Req} (h : Claims.Bounded s) : Claims.Bounded (jrxStatusAnswer rq s) :=
  answerReply_bounded h

@[simp] theorem jrxStatus_bounded {rq : Req} (h : Claims.Bounded s) : Claims.Bounded (jrxStatus rq s) := by
  unfold jrxStatus
  exact report_bounded h fun _ h => by simp [h]

end Sys2Proof.Machine
end

section
/-! PROOF. Queue bounds: reports, superframes, faults, startup, registers, test access, the Dial and blobs. -/

namespace Sys2Proof.Machine

variable {s : State}

/-! ### Reports -/

@[simp] theorem dialConfigAnswer_bounded {rq : Req} (h : Claims.Bounded s) : Claims.Bounded (dialConfigAnswer rq s) :=
  answerReply_bounded h

@[simp] theorem dialListAnswer_bounded {rq : Req} (h : Claims.Bounded s) : Claims.Bounded (dialListAnswer rq s) := by
  simp [dialListAnswer, h]

@[simp] theorem dialTimeAnswer_bounded {rq : Req} (h : Claims.Bounded s) : Claims.Bounded (dialTimeAnswer rq s) :=
  answerReply_bounded h

@[simp] theorem alarmStatusAnswer_bounded {rq : Req} (h : Claims.Bounded s) :
    Claims.Bounded (alarmStatusAnswer rq s) := by
  unfold alarmStatusAnswer
  split
  · exact reply_bounded (doIf_bounded h fun _ h => modAlarm_bounded.mpr h)
  · exact reply_bounded h

@[simp] theorem faultLogAnswer_bounded {rq : Req} (h : Claims.Bounded s) : Claims.Bounded (faultLogAnswer rq s) := by
  simp [faultLogAnswer, h]

@[simp] theorem takeReport_bounded {r : ReportWait} (h : Claims.Bounded s) : Claims.Bounded (takeReport r s) := by
  unfold takeReport
  split <;> simp [h]

@[simp] theorem takeReports_bounded {ref : RefCode} (h : Claims.Bounded s) : Claims.Bounded (takeReports ref s) := by
  unfold takeReports
  exact eachOf_bounded h fun _ _ h => by simp [h]

/-! ### Superframes -/

@[simp] theorem putSfoh_bounded {p : LPort} {cells : List Word} {open_ : Word} :
    Claims.Bounded (putSfoh p cells open_ s) ↔ Claims.Bounded s := Iff.rfl

/-- Sending a cell takes at most the first frame of the queue. -/
theorem jrxCell_egress (x : JrxPort) : (jrxCell x).2.egress.length ≤ x.egress.length := by
  unfold jrxCell
  simp only
  split_ifs <;> simp

@[simp] theorem sendSfoh_bounded {p : LPort} (h : Claims.Bounded s) : Claims.Bounded (sendSfoh p s) := by
  unfold sendSfoh
  refine tookFree_bounded.mpr (cellSent_bounded.mpr (putSfoh_bounded.mpr (modJp_bounded h fun hlen => ?_)))
  exact (jrxCell_egress s.jrx.ports[p]).trans hlen

@[simp] theorem keyStep_bounded {p : LPort} : Claims.Bounded (keyStep p s) ↔ Claims.Bounded s :=
  bounded_congr (by simp)

@[simp] theorem slewToRef_bounded {p : LPort} : Claims.Bounded (slewToRef p s) ↔ Claims.Bounded s :=
  bounded_congr (by simp)

@[simp] theorem startTraces_bounded {p : LPort} : Claims.Bounded (startTraces p s) ↔ Claims.Bounded s :=
  bounded_congr (by simp)

@[simp] theorem heldStep_bounded {p : LPort} : Claims.Bounded (heldStep p s) ↔ Claims.Bounded s := Iff.rfl

@[simp] theorem txEnd_bounded {p : LPort} {o : TxObs} : Claims.Bounded (txEnd p o s) ↔ Claims.Bounded s :=
  bounded_congr (by simp)

@[simp] theorem txCount_bounded {p : LPort} : Claims.Bounded (txCount p s) ↔ Claims.Bounded s := Iff.rfl

@[simp] theorem txUnlocked_bounded {p : LPort} {o : TxObs} (h : Claims.Bounded s) :
    Claims.Bounded (txUnlocked p o s) := by
  simp [txUnlocked, h]

@[simp] theorem txBegin_bounded {p : LPort} {o : TxObs} (h : Claims.Bounded s) : Claims.Bounded (txBegin p o s) := by
  unfold txBegin
  refine keepOffset_bounded.mpr (eachOf_bounded (sendSfoh_bounded ?_) fun _ _ h => evalPending_bounded h)
  simp only [endMute_bounded, keyStep_bounded, nlcTxBoundary_bounded]
  refine txStages_bounded ?_
  simp only [startTraces_bounded, slewToRef_bounded]
  exact txUnlocked_bounded (exchangeDue_bounded (clockDue_bounded (txCount_bounded.mpr h)))

@[simp] theorem txSnapshots_bounded {p : LPort} (h : Claims.Bounded s) : Claims.Bounded (txSnapshots p s) := by
  simp [txSnapshots, h]

@[simp] theorem txSuperframeBoundary_bounded {p : LPort} {o : TxObs} (h : Claims.Bounded s) :
    Claims.Bounded (txSuperframeBoundary p o s) := by
  simp [txSuperframeBoundary, h]

@[simp] theorem steerMate_bounded {p : LPort} {clk : BitVec 16} :
    Claims.Bounded (steerMate p clk s) ↔ Claims.Bounded s :=
  bounded_congr (by simp)

@[simp] theorem idleCounts_bounded {p : LPort} {o : RxObs} : Claims.Bounded (idleCounts p o s) ↔ Claims.Bounded s :=
  Iff.rfl

@[simp] theorem rxExchange_bounded {p : LPort} (h : Claims.Bounded s) : Claims.Bounded (rxExchange p s) := by
  simp [rxExchange, h]

@[simp] theorem rxSuperframeBoundary_bounded {p : LPort} {o : RxObs} (h : Claims.Bounded s) :
    Claims.Bounded (rxSuperframeBoundary p o s) := by
  have hwork : Claims.Bounded (rxWork p o s) := by
    unfold rxWork
    simp only [idleCounts_bounded, steerMate_bounded, poolBoundary_bounded]
    refine nlcRxBoundary_bounded ?_
    simp only [takeTaps_bounded]
    exact takeDgd_bounded (trackCd_bounded (by simp [h]))
  have hlocked : Claims.Bounded (rxLockedWork p o (rxWork p o s)) := by
    unfold rxLockedWork
    refine rxExchange_bounded (keepOffset_bounded.mpr ?_)
    simp [hwork]
  rw [rxSuperframeBoundary_eq]
  exact ite_bounded (ite_bounded (takeReports_bounded (snapshot_bounded.mpr hlocked)) hwork) h

@[simp] theorem countRuns_bounded {p : LPort} {n : Psfn} {label : Psfn} {lag : Nat} :
    Claims.Bounded (countRuns p n label lag s) ↔ Claims.Bounded s := Iff.rfl

@[simp] theorem checkFormat_bounded {p : LPort} {active : Word} {fmt : Word} :
    Claims.Bounded (checkFormat p active fmt s) ↔ Claims.Bounded s := Iff.rfl

@[simp] theorem watchCommit_bounded {p : LPort} {w : Vector Word 64} {label : Psfn} :
    Claims.Bounded (watchCommit p w label s) ↔ Claims.Bounded s :=
  bounded_congr (by simp)

@[simp] theorem checkBips_bounded {p : LPort} {w : Vector Word 64} :
    Claims.Bounded (checkBips p w s) ↔ Claims.Bounded s :=
  bounded_congr (by simp)

@[simp] theorem takeTraces_bounded {p : LPort} {w : Vector Word 64} {old : Psfn} (h : Claims.Bounded s) :
    Claims.Bounded (takeTraces p w old s) := by
  simp [takeTraces, h]

@[simp] theorem takeStatus_bounded {p : LPort} {w2 : Word} : Claims.Bounded (takeStatus p w2 s) ↔ Claims.Bounded s :=
  Iff.rfl

@[simp] theorem takePath_bounded {p : LPort} {w : Vector Word 64} (h : Claims.Bounded s) :
    Claims.Bounded (takePath p w s) := by
  unfold takePath
  exact evalGroom_bounded (raiseAlarm_bounded (raiseAlarm_bounded (raiseAlarm_bounded (modSf_bounded.mpr h))))

@[simp] theorem mismatchStep_bounded {c : Client} (h : Claims.Bounded s) : Claims.Bounded (mismatchStep c s) := by
  simp [mismatchStep, h]

@[simp] theorem rxClient_bounded {good : Bool} {pl : Payload} {c : Client} (h : Claims.Bounded s) :
    Claims.Bounded (rxClient good pl c s) := by
  simp [rxClient, h]

@[simp] theorem rxClients_bounded {p : LPort} {good : Bool} {pl : Payload} (h : Claims.Bounded s) :
    Claims.Bounded (rxClients p good pl s) := by
  unfold rxClients
  exact eachOf_bounded h fun _ _ h => by simp [h]

@[simp] theorem keepArrived_bounded {p : LPort} {o : SfohObs} {good : Bool} :
    Claims.Bounded (keepArrived p o good s) ↔ Claims.Bounded s := Iff.rfl

@[simp] theorem sfohBad_bounded {p : LPort} {o : SfohObs} (h : Claims.Bounded s) : Claims.Bounded (sfohBad p o s) := by
  simp [sfohBad, h]

@[simp] theorem takeCells_bounded {p : LPort} {w : Vector Word 64} {label : Psfn} (h : Claims.Bounded s) :
    Claims.Bounded (takeCells p w label s) := by
  simp [takeCells, h]

@[simp] theorem sfohTaken_bounded {p : LPort} {o : SfohObs} (h : Claims.Bounded s) :
    Claims.Bounded (sfohTaken p o s) := by
  unfold sfohTaken
  refine takeCells_bounded (holdoverLocked_bounded (rxClients_bounded (takePath_bounded (takeTraces_bounded ?_))))
  simp [h]

@[simp] theorem sfohReceive_bounded {p : LPort} {o : SfohObs} (h : Claims.Bounded s) :
    Claims.Bounded (sfohReceive p o s) := by
  unfold sfohReceive
  have hread := eachOf_bounded (l := o.bursts) (f := poolWord none) h fun _ _ h => poolWord_bounded h
  exact ite_bounded (ite_bounded (sfohTaken_bounded hread) (sfohBad_bounded hread)) h

@[simp] theorem sfAlignLoss_bounded {p : LPort} (h : Claims.Bounded s) : Claims.Bounded (sfAlignLoss p s) := by
  simp [sfAlignLoss, h]

@[simp] theorem moveLabels_bounded {p : LPort} {d : Int} : Claims.Bounded (moveLabels p d s) ↔ Claims.Bounded s :=
  Iff.rfl

@[simp] theorem psfnLock_bounded {p : LPort} (h : Claims.Bounded s) : Claims.Bounded (psfnLock p s) := by
  simp only [psfnLock]
  (repeat' split) <;> simp [h]

@[simp] theorem psfnLockLoss_bounded {p : LPort} (h : Claims.Bounded s) : Claims.Bounded (psfnLockLoss p s) := by
  simp [psfnLockLoss, h]

@[simp] theorem psfnJump_bounded {p : LPort} (h : Claims.Bounded s) : Claims.Bounded (psfnJump p s) := by
  simp [psfnJump, h]

/-! ### Faults -/

@[simp] theorem postFault_bounded {e : LogEntry} (h : Claims.Bounded s) : Claims.Bounded (postFault e s) := by
  simp [postFault, h]

@[simp] theorem postNewest_bounded (h : Claims.Bounded s) : Claims.Bounded (postNewest s) := by
  unfold postNewest
  split <;> simp [h]

@[simp] theorem setOutcome_bounded {seq : BitVec 16} {outcome : Nat} (h : Claims.Bounded s) :
    Claims.Bounded (setOutcome seq outcome s) := by
  unfold setOutcome
  split
  · exact h
  · exact postFault_bounded (modFaults_bounded h fun hlog => by simpa using hlog)

@[simp] theorem endEntry_bounded {u : FUnit} {outcome : Nat} (h : Claims.Bounded s) :
    Claims.Bounded (endEntry u outcome s) := by
  unfold endEntry
  split <;> simp [h]

@[simp] theorem coreWatchdog_bounded {c : Core} (h : Claims.Bounded s) : Claims.Bounded (coreWatchdog c s) := by
  simp [coreWatchdog, h]

@[simp] theorem flowStall_bounded {u : FUnit} {index : BitVec 7} (h : Claims.Bounded s) :
    Claims.Bounded (flowStall u index s) := by
  unfold flowStall
  split <;> simp [h]

@[simp] theorem tempCrit_bounded {sensor : BitVec 16} (h : Claims.Bounded s) : Claims.Bounded (tempCrit sensor s) := by
  unfold tempCrit
  exact ite_bounded h (heldChanged_bounded (by simp [detect_bounded h]))

@[simp] theorem supply_bounded {channel : BitVec 16} (h : Claims.Bounded s) : Claims.Bounded (supply channel s) := by
  simp [supply, h]

@[simp] theorem startRecovery_bounded {u : FUnit} {level : Nat} {seq : Option (BitVec 16)} (h : Claims.Bounded s) :
    Claims.Bounded (startRecovery u level seq s) := by
  simp [startRecovery, h]

@[simp] theorem actOn_bounded {r : FaultRec} (h : Claims.Bounded s) : Claims.Bounded (actOn r s) := by
  have hwrite : ∀ (x : LogFate) {s : State}, Claims.Bounded s → Claims.Bounded (postNewest (writeEntry r x s)) :=
    fun _ _ h => postNewest_bounded (writeEntry_bounded h)
  unfold actOn
  refine ite_bounded (hwrite _ (modUnit_bounded h)) (ite_bounded (hwrite _ h) (ite_bounded (hwrite _ h)
    (ite_bounded (enterResetKeepLog_bounded (writeEntry_bounded h)) ?_)))
  exact ite_bounded (holdUnit_bounded (endEntry_bounded (hwrite _ h)))
    (startRecovery_bounded (endEntry_bounded (hwrite _ h)))

@[simp] theorem faultHandle_bounded (h : Claims.Bounded s) : Claims.Bounded (faultHandle s) := by
  unfold faultHandle
  split <;> simp [h]

@[simp] theorem faultOverflowTakeup_bounded (h : Claims.Bounded s) : Claims.Bounded (faultOverflowTakeup s) := by
  unfold faultOverflowTakeup
  (repeat' split) <;> simp [h]

@[simp] theorem recoveryActionDone_bounded {u : FUnit} (h : Claims.Bounded s) :
    Claims.Bounded (recoveryActionDone u s) := by
  unfold recoveryActionDone
  refine ite_bounded (finishAction_bounded ?_) h
  simp [recWake_bounded h]

@[simp] theorem recoveryQuietExpiry_bounded {u : FUnit} (h : Claims.Bounded s) :
    Claims.Bounded (recoveryQuietExpiry u s) := by
  simp [recoveryQuietExpiry, h]

@[simp] theorem alarmDefaultClear_bounded {key : AlarmKey} {b : Fin 32} (h : Claims.Bounded s) :
    Claims.Bounded (alarmDefaultClear key b s) := by
  simp [alarmDefaultClear, h]

@[simp] theorem alarmMaskSet_bounded {rq : Req} (h : Claims.Bounded s) : Claims.Bounded (alarmMaskSet rq s) := by
  unfold alarmMaskSet
  refine commandOk_bounded h fun _ h => ?_
  split <;> simp [h]

@[simp] theorem alarmStatus_bounded {rq : Req} (h : Claims.Bounded s) : Claims.Bounded (alarmStatus rq s) := by
  unfold alarmStatus
  exact report_bounded h fun _ h => by simp [h]

@[simp] theorem faultLogRead_bounded {rq : Req} (h : Claims.Bounded s) : Claims.Bounded (faultLogRead rq s) := by
  unfold faultLogRead
  exact report_bounded h fun _ h => by simp [h]

@[simp] theorem releaseUnit_bounded {u : FUnit} (h : Claims.Bounded s) : Claims.Bounded (releaseUnit u s) := by
  have hout : Claims.Bounded (match s.faults.log.find? (·.unit == u) with
      | some e => setOutcome e.seq 4 s
      | none => s) := by
    split
    · exact setOutcome_bounded h
    · exact h
  have hunit : ∀ f, Claims.Bounded (modUnit u f (match s.faults.log.find? (·.unit == u) with
      | some e => setOutcome e.seq 4 s
      | none => s)) := fun f => modUnit_bounded hout
  unfold releaseUnit
  refine ite_bounded (ite_bounded (refresh_bounded.mpr (moveDev_bounded (finishAction_bounded (hunit _))))
    (finishAction_bounded (hunit _))) (heldChanged_bounded (startRecovery_bounded (hunit _)))

@[simp] theorem emptyLog_bounded (h : Claims.Bounded s) : Claims.Bounded (emptyLog s) :=
  modFaults_bounded h fun _ => Nat.zero_le _

@[simp] theorem faultClear_bounded {rq : Req} (h : Claims.Bounded s) : Claims.Bounded (faultClear rq s) := by
  unfold faultClear
  refine commandOk_bounded h fun s h => doIf_bounded ?_ fun _ h => emptyLog_bounded h
  split
  · exact releaseUnit_bounded h
  · exact h

/-! ### Reset and boot -/

@[simp] theorem powerOnReset_bounded {assert_ : Bool}
    (h : Claims.Bounded s) : Claims.Bounded (powerOnReset assert_ s) := by
  unfold powerOnReset
  exact ite_bounded (modSys_bounded.mpr enterReset_bounded) (modSys_bounded.mpr h)

@[simp] theorem resetNPulse_bounded {lowNs : Nat} {midActs : Bool} (h : Claims.Bounded s) :
    Claims.Bounded (resetNPulse lowNs midActs s) := by
  unfold resetNPulse
  exact ite_bounded enterReset_bounded h

@[simp] theorem sysResetDelayExpiry_bounded (h : Claims.Bounded s) : Claims.Bounded (sysResetDelayExpiry s) := by
  unfold sysResetDelayExpiry
  exact ite_bounded enterReset_bounded h

@[simp] theorem startFirmware_bounded (h : Claims.Bounded s) : Claims.Bounded (startFirmware s) := by
  unfold startFirmware
  simp only
  split
  · split <;> simp [h]
  · have hp : Claims.Bounded (eachPort (fun p s => if isOn s (.cv p) then calStart p .foreground calAll 1 s else s)
        (modSys (fun y => { y with phase := 4, supRuns := true }) s)) :=
      eachPort_bounded (modSys_bounded.mpr h) fun _ _ h => ite_bounded (calStart_bounded h) h
    exact ite_bounded (moveDev_bounded hp) hp

@[simp] theorem imageFailed_bounded {e : Nat} : Claims.Bounded (imageFailed e s) ↔ Claims.Bounded s := Iff.rfl

@[simp] theorem imageVerifyDone_bounded {keyOk : Bool} {sigOk : Bool} {digest : Vector Word 8} (h : Claims.Bounded s) :
    Claims.Bounded (imageVerifyDone keyOk sigOk digest s) := by
  unfold imageVerifyDone
  (repeat' split) <;> simp [h]

@[simp] theorem dlWrite_bounded {who : HostPort} {op : Nat} {len : Nat} :
    Claims.Bounded (dlWrite who op len s) ↔ Claims.Bounded s :=
  bounded_congr (by simp)

/-! ### Registers -/

theorem regRead_bounded {who : HostPort} {addr : BitVec 16} (h : Claims.Bounded s) :
    Claims.Bounded (regRead who addr s).2 := by
  unfold regRead
  simp only
  split
  · exact takeWord_bounded h
  · split
    · exact modFe_bounded.mpr h
    · split
      · exact modFe_bounded.mpr h
      · exact h

@[simp] theorem ptwiCommand_bounded {w : Word} : Claims.Bounded (ptwiCommand w s) ↔ Claims.Bounded s :=
  bounded_congr (by simp)

@[simp] theorem bspiStart_bounded {w : Word} : Claims.Bounded (bspiStart w s) ↔ Claims.Bounded s := Iff.rfl

@[simp] theorem bspiCommand_bounded {w : Word} (h : Claims.Bounded s) : Claims.Bounded (bspiCommand w s) := by
  simp [bspiCommand, h]

@[simp] theorem writeTwi_bounded {a : Nat} {w : Word} (h : Claims.Bounded s) : Claims.Bounded (writeTwi a w s) := by
  unfold writeTwi
  (repeat' split) <;> simp [h]

@[simp] theorem writeMbx_bounded {who : HostPort} {a : Nat} {w : Word} (h : Claims.Bounded s) :
    Claims.Bounded (writeMbx who a w s) := by
  unfold writeMbx
  (repeat' split) <;> simp [h]

@[simp] theorem regWrite_bounded {who : HostPort} {addr : BitVec 16} {w : Word} (h : Claims.Bounded s) :
    Claims.Bounded (regWrite who addr w s) := by
  unfold regWrite
  simp only
  split
  · exact ite_bounded h h
  · split
    · split <;> simp [h]
    · exact ite_bounded (writeMbx_bounded h) (ite_bounded (writeTwi_bounded h) h)

@[simp] theorem sleepAccess_bounded {who : HostPort} {addr : BitVec 16} {w : Option Word} (h : Claims.Bounded s) :
    Claims.Bounded (sleepAccess who addr w s) := by
  unfold sleepAccess
  split <;> simp [h]

@[simp] theorem registerRead_bounded {who : HostPort} {addr : BitVec 16} (h : Claims.Bounded s) :
    Claims.Bounded (registerRead who addr s) := by
  unfold registerRead
  exact access_bounded h fun _ h => ite_bounded (sleepAccess_bounded h) (feDone_bounded.mpr (regRead_bounded h))

@[simp] theorem registerWrite_bounded {who : HostPort} {addr : BitVec 16} {w : Word} (h : Claims.Bounded s) :
    Claims.Bounded (registerWrite who addr w s) := by
  unfold registerWrite
  exact access_bounded h fun _ h => by simp [h]

@[simp] theorem ptwiAccess_bounded {who : HostPort} {op : Nat} {w : Word} (h : Claims.Bounded s) :
    Claims.Bounded (ptwiAccess who op w s) := by
  simp [ptwiAccess, h]

@[simp] theorem bspiAccess_bounded {who : HostPort} {dir : Nat} {w : Word} (h : Claims.Bounded s) :
    Claims.Bounded (bspiAccess who dir w s) := by
  simp [bspiAccess, h]

@[simp] theorem unstall_bounded {d : Dom} (h : Claims.Bounded s) : Claims.Bounded (unstall d s) := by
  unfold unstall
  split
  · exact h
  · refine ite_bounded h ?_
    have hfe : ∀ f, Claims.Bounded (modFe .twi f s) := fun f => modFe_bounded.mpr h
    split
    · exact feDone_bounded.mpr (regRead_bounded (hfe _))
    · exact feDone_bounded.mpr (regWrite_bounded (hfe _))

@[simp] theorem bspiGo_bounded : Claims.Bounded (bspiGo s) ↔ Claims.Bounded s :=
  bounded_congr (by simp)

@[simp] theorem accessWakeComplete_bounded {d : Dom} (h : Claims.Bounded s) :
    Claims.Bounded (accessWakeComplete d s) := by
  simp [accessWakeComplete, h]

@[simp] theorem twiDeepNack_bounded (h : Claims.Bounded s) : Claims.Bounded (twiDeepNack s) := by
  unfold twiDeepNack
  exact ite_bounded (doIf_bounded (by simp [h]) fun _ h => profileWake_bounded h) h

@[simp] theorem mspiDeepIgnore_bounded (h : Claims.Bounded s) : Claims.Bounded (mspiDeepIgnore s) := by
  unfold mspiDeepIgnore
  exact ite_bounded (doIf_bounded (by simp [h]) fun _ h => profileWake_bounded h) h

/-! ### Test access -/

@[simp] theorem testHold_bounded {ir : TapIr} : Claims.Bounded (testHold ir s) :=
  modTest_bounded.mpr enterReset_bounded

theorem testMbx_bounded {op : State → Option Word × State} (h : Claims.Bounded s)
    (hop : ∀ s, Claims.Bounded s → Claims.Bounded (op s).2) : Claims.Bounded (testMbx op s) := by
  have hrun := hop (modM testChan (fun c => { c with underrun := false, overrun := false }) s) (by simp [h])
  unfold testMbx
  exact ite_bounded (modTest_bounded.mpr h) (modTest_bounded.mpr (by simp [hrun]))

@[simp] theorem testMbxPost_bounded {w : Word} (h : Claims.Bounded s) : Claims.Bounded (testMbxPost w s) :=
  testMbx_bounded h fun _ h => postWord_bounded h

@[simp] theorem testMbxTake_bounded (h : Claims.Bounded s) : Claims.Bounded (testMbxTake s) :=
  testMbx_bounded h fun _ h => takeWord_bounded h

@[simp] theorem testMbxReset_bounded (h : Claims.Bounded s) : Claims.Bounded (testMbxReset s) :=
  testMbx_bounded h fun _ h => resetChan_bounded h

@[simp] theorem loupeSet_bounded {rq : Req} (h : Claims.Bounded s) : Claims.Bounded (loupeSet rq s) := by
  unfold loupeSet
  exact commandOk_bounded h fun _ h => by simp [h]

@[simp] theorem setLoop_bounded {kind : Nat} {on : Bool} {p : LPort} {l : List HLane} (h : Claims.Bounded s) :
    Claims.Bounded (setLoop kind on p l s) := by
  have hmap : ∀ f, Claims.Bounded (modMap f s) := fun f => modMap_bounded.mpr h
  unfold setLoop
  split
  · have hacq : ∀ (c : Bool) f, Claims.Bounded (if c then enterAcquire p (modMap f s) else modMap f s) :=
      fun c f => ite_bounded (enterAcquire_bounded (hmap f)) (hmap f)
    exact ite_bounded (lockLoss_bounded (unalign_bounded.mpr (modRx_bounded.mpr (hacq _ _))))
      (maybeAcquire_bounded (hacq _ _))
  · exact hmap _
  all_goals exact eachOf_bounded h fun _ _ h => modLane_bounded.mpr h

@[simp] theorem loopbackSet_bounded {rq : Req} (h : Claims.Bounded s) : Claims.Bounded (loopbackSet rq s) := by
  unfold loopbackSet
  exact commandOk_bounded h fun _ h => by simp [h]

/-! ### Stored commands -/

@[simp] theorem dialConfig_bounded {rq : Req} (h : Claims.Bounded s) : Claims.Bounded (dialConfig rq s) := by
  unfold dialConfig
  exact command_bounded h fun _ h => awaitReport_bounded (modDial_bounded.mpr h) fun _ h => dialConfigAnswer_bounded h

@[simp] theorem runOpcode_bounded {opcode : Nat} {rq : Req} (h : Claims.Bounded s) :
    Claims.Bounded (runOpcode opcode rq s) := by
  unfold runOpcode
  split <;> simp [h]

/-! ### The Dial -/

@[simp] theorem enterSched_bounded {e : DialEv} : Claims.Bounded (enterSched e s) ↔ Claims.Bounded s :=
  bounded_congr (by simp)

@[simp] theorem dialSchedule_bounded {rq : Req} (h : Claims.Bounded s) : Claims.Bounded (dialSchedule rq s) := by
  simp only [dialSchedule]
  (repeat' split) <;> simp [h]

@[simp] theorem cancelEvent_bounded {e : DialEv} (h : Claims.Bounded s) : Claims.Bounded (cancelEvent e s) := by
  simp [cancelEvent, h]

@[simp] theorem dialCancel_bounded {rq : Req} (h : Claims.Bounded s) : Claims.Bounded (dialCancel rq s) := by
  unfold dialCancel
  exact command_bounded h fun _ h => reply_bounded (eachOf_bounded h fun _ _ h => cancelEvent_bounded h)

@[simp] theorem dialList_bounded {rq : Req} (h : Claims.Bounded s) : Claims.Bounded (dialList rq s) := by
  unfold dialList
  exact report_bounded h fun _ h => by simp [h]

@[simp] theorem dialTime_bounded {rq : Req} (h : Claims.Bounded s) : Claims.Bounded (dialTime rq s) := by
  unfold dialTime
  exact report_bounded h fun _ h => by simp [h]

@[simp] theorem completeRefused_bounded {e : DialEv} (h : Claims.Bounded s) : Claims.Bounded (completeRefused e s) := by
  unfold completeRefused
  split <;> simp [h]

@[simp] theorem stageEvent_bounded {e : DialEv} {complete : Bool} (h : Claims.Bounded s) :
    Claims.Bounded (stageEvent e complete s) := by
  simp only [stageEvent]
  (repeat' split) <;> simp [h]

@[simp] theorem dialStage_bounded {idx : Nat} {complete : Bool} (h : Claims.Bounded s) :
    Claims.Bounded (dialStage idx complete s) := by
  unfold dialStage
  split <;> simp [h]

@[simp] theorem markReleased_bounded {r : RefCode} {e : DialEv} :
    Claims.Bounded (markReleased r e s) ↔ Claims.Bounded s :=
  bounded_congr (by simp)

@[simp] theorem markDeferred_bounded {e : DialEv} : Claims.Bounded (markDeferred e s) ↔ Claims.Bounded s :=
  bounded_congr (by simp)

@[simp] theorem runPrompt_bounded {e : DialEv} (h : Claims.Bounded s) : Claims.Bounded (runPrompt e s) := by
  unfold runPrompt
  (repeat' split) <;> simp [h]

@[simp] theorem releaseEvent_bounded {idx : Nat} (h : Claims.Bounded s) : Claims.Bounded (releaseEvent idx s) := by
  unfold releaseEvent
  split <;> simp [h]

@[simp] theorem dialRelease_bounded {r : RefCode} (h : Claims.Bounded s) : Claims.Bounded (dialRelease r s) := by
  unfold dialRelease
  refine eachOf_bounded (eachOf_bounded (eachOf_bounded h ?_) ?_) fun _ _ h => releaseEvent_bounded h
  · exact fun _ _ h => markDeferred_bounded.mpr h
  · exact fun _ _ h => markReleased_bounded.mpr h

/-! ### Blobs -/

@[simp] theorem endBlob_bounded {r : BlobRun} (h : Claims.Bounded s) : Claims.Bounded (endBlob r s) := by
  have hend : ∀ f, Claims.Bounded (modSys f s) := fun f => modSys_bounded.mpr h
  have hmove : ∀ (c : Bool) f, Claims.Bounded (if c then modSys f s
      else match r.failed with
        | none => moveDev .ready 0 (modSys f s)
        | some _ => moveDev .hold 5 (modSys f s)) := by
    intro c f
    refine ite_bounded (hend f) ?_
    split <;> exact moveDev_bounded (hend f)
  have hboot : ∀ (c : Bool) f, Claims.Bounded (doIf r.boot heldChanged (if c then modSys f s
      else match r.failed with
        | none => moveDev .ready 0 (modSys f s)
        | some _ => moveDev .hold 5 (modSys f s))) :=
    fun c f => doIf_bounded (hmove c f) fun _ h => heldChanged_bounded h
  unfold endBlob
  simp only
  split
  · exact reply_bounded (hboot _ _)
  · exact reply_bounded (hboot _ _)
  · exact hboot _ _

@[simp] theorem runPacket_bounded {ws : List Word} (h : Claims.Bounded s) : Claims.Bounded (runPacket ws s) := by
  simp only [runPacket]
  (repeat' split) <;> simp [h]

theorem runBlob_bounded {fuel : Nat} {s : State} (h : Claims.Bounded s) : Claims.Bounded (runBlob fuel s) := by
  induction fuel generalizing s with
  | zero => exact h
  | succ fuel ih =>
    unfold runBlob
    split
    · exact h
    · refine ite_bounded (endBlob_bounded h) (ite_bounded h ?_)
      split
      · exact endBlob_bounded h
      · exact ih (runPacket_bounded h)

@[simp] theorem startBlob_bounded {r : BlobRun} (h : Claims.Bounded s) : Claims.Bounded (startBlob r s) :=
  runBlob_bounded (modSys_bounded.mpr h)

@[simp] theorem configCommit_bounded {rq : Req} (h : Claims.Bounded s) : Claims.Bounded (configCommit rq s) := by
  unfold configCommit
  refine command_bounded h fun _ h => ?_
  split <;> simp [h]

@[simp] theorem bootBlobDone_bounded {flash : List Word} (h : Claims.Bounded s) :
    Claims.Bounded (bootBlobDone flash s) := by
  unfold bootBlobDone
  split <;> simp [h]

@[simp] theorem tick_bounded (h : Claims.Bounded s) : Claims.Bounded (tick s) := by
  unfold tick
  simp only
  split
  · exact modSys_bounded.mpr h
  · exact runBlob_bounded (modSys_bounded.mpr h)

end Sys2Proof.Machine
end

section
/-! PROOF. O8 and O6: every step keeps the queues and logs within their lengths, and reset has them so (R69, R367, R415,
R466). -/

namespace Sys2Proof.Machine

/-- A command that completes with a bounded state. -/
theorem bounded_of_next {s t : State} (h : (.next s : Outcome) = .next t) (hs : Claims.Bounded s) : Claims.Bounded t :=
  Host.Outcome.next.inj h ▸ hs

/-- A command that leaves the parts with queues and logs alone, by its frame (`commandFrames`). -/
theorem bounded_of_frame {c : Instr} {s t : State} (h : exec c s = .next t) (hs : Claims.Bounded s)
    (hc : ∀ x ∈ [Claims.Part.mbx, .jrx, .faults, .power], x ∉ Claims.touches c) : Claims.Bounded t := by
  have hkept : ∀ x ∈ [Claims.Part.mbx, .jrx, .faults, .power], Claims.Same x s t :=
    fun x hx => commandFrames c s t h x (hc x hx)
  exact (bounded_congr ((kept_iff [.mbx, .jrx, .faults, .power] s t).mpr hkept)).mpr hs

/-- Every command keeps the queues and logs within their lengths: its one operation does, or its frame leaves them alone. -/
theorem exec_bounded {c : Instr} {s t : State} (h : exec c s = .next t) (hs : Claims.Bounded s) : Claims.Bounded t := by
  cases c with
  | counterLowRead | dlStart | dlChunk | dlLast | dlPartCopied | ptwiDone | ptwiBusBusy | ptwiStretchTo
  | bspiDone | twiAbort | twiStretchTo | twiSdaTo | twiDeepWindowEnd | mspiBadCmd | mspiFrameAbort
  | mspiDeepWindowEnd | resetRelease | flashSlotReadDone | muteNFall | muteNHighTimer | formatMismatch
  | sfAlignment | forwardingStart | acqCdDone | acqBlindDone | eqReconverge | drvEnFall | tDrvExpiry
  | nlcMemberFadeIn | nlcFadeDone | balanceCycle | codewordDispatch | decodeDeadline | engineThrottle
  | engineSpeedRestore | retryHoldExpiry | commitConfirmCheck | commitRetry | trackReportTimer
  | qMarginRefresh | holdoverFormatAlternate | autoRetune | hostTrainRetry | egressBufferStart | egressSlip
  | keepAliveKeying | refColdEnd | bypass | idcode | samplePreload | testLogicReset | muteNRise | prbsLock
  | pilotModeEnd =>
    exact bounded_of_frame h hs (by simp [Claims.touches])
  | sysIdent => exact bounded_of_next h (sysIdent_bounded hs)
  | sysStatus => exact bounded_of_next h (sysStatus_bounded hs)
  | sysReset => exact bounded_of_next h (sysReset_bounded hs)
  | configLoad => exact bounded_of_next h (configLoad_bounded hs)
  | configCommit => exact bounded_of_next h (configCommit_bounded hs)
  | outputsStart => exact bounded_of_next h (outputsStart_bounded hs)
  | outputsStop => exact bounded_of_next h (outputsStop_bounded hs)
  | idAttest => exact bounded_of_next h (idAttest_bounded hs)
  | permSet => exact bounded_of_next h (permSet_bounded hs)
  | permGet => exact bounded_of_next h (permGet_bounded hs)
  | pwrProfileSet => exact bounded_of_next h (pwrProfileSet_bounded hs)
  | pwrDomainSet => exact bounded_of_next h (pwrDomainSet_bounded hs)
  | pwrRetainSet => exact bounded_of_next h (pwrRetainSet_bounded hs)
  | pwrStatus => exact bounded_of_next h (pwrStatus_bounded hs)
  | pwrRefusalsRead => exact bounded_of_next h (pwrRefusalsRead_bounded hs)
  | pwrWakeReport => exact bounded_of_next h (pwrWakeReport_bounded hs)
  | lineModeSet => exact bounded_of_next h (lineModeSet_bounded hs)
  | lineModeGet => exact bounded_of_next h (lineModeGet_bounded hs)
  | lineRxConfig => exact bounded_of_next h (lineRxConfig_bounded hs)
  | lineTxConfig => exact bounded_of_next h (lineTxConfig_bounded hs)
  | lineStatus => exact bounded_of_next h (lineStatus_bounded hs)
  | linePmRead => exact bounded_of_next h (linePmRead_bounded hs)
  | lineNlcSet => exact bounded_of_next h (lineNlcSet_bounded hs)
  | lineMute => exact bounded_of_next h (lineMute_bounded hs)
  | trainStart => exact bounded_of_next h (trainStart_bounded hs)
  | trainStatus => exact bounded_of_next h (trainStatus_bounded hs)
  | trainPolicySet => exact bounded_of_next h (trainPolicySet_bounded hs)
  | pathCommit => exact bounded_of_next h (pathCommit_bounded hs)
  | hostLaneConfig => exact bounded_of_next h (hostLaneConfig_bounded hs)
  | hostTrain => exact bounded_of_next h (hostTrain_bounded hs)
  | hostStatus => exact bounded_of_next h (hostStatus_bounded hs)
  | hostPmRead => exact bounded_of_next h (hostPmRead_bounded hs)
  | fecModeSet => exact bounded_of_next h (fecModeSet_bounded hs)
  | fecPoolPolicy => exact bounded_of_next h (fecPoolPolicy_bounded hs)
  | fecStatus => exact bounded_of_next h (fecStatus_bounded hs)
  | fecPmRead => exact bounded_of_next h (fecPmRead_bounded hs)
  | mapClientAdd => exact bounded_of_next h (mapClientAdd_bounded hs)
  | mapClientRemove => exact bounded_of_next h (mapClientRemove_bounded hs)
  | mapRegenPair => exact bounded_of_next h (mapRegenPair_bounded hs)
  | mapStatus => exact bounded_of_next h (mapStatus_bounded hs)
  | dialSchedule => exact bounded_of_next h (dialSchedule_bounded hs)
  | dialCancel => exact bounded_of_next h (dialCancel_bounded hs)
  | dialList => exact bounded_of_next h (dialList_bounded hs)
  | dialConfig => exact bounded_of_next h (dialConfig_bounded hs)
  | dialTime => exact bounded_of_next h (dialTime_bounded hs)
  | calRun => exact bounded_of_next h (calRun_bounded hs)
  | calPolicySet => exact bounded_of_next h (calPolicySet_bounded hs)
  | calTableRead => exact bounded_of_next h (calTableRead_bounded hs)
  | calTableWrite => exact bounded_of_next h (calTableWrite_bounded hs)
  | calStatus => exact bounded_of_next h (calStatus_bounded hs)
  | monConfig => exact bounded_of_next h (monConfig_bounded hs)
  | monCoefLoad => exact bounded_of_next h (monCoefLoad_bounded hs)
  | monRead => exact bounded_of_next h (monRead_bounded hs)
  | monUrgent => exact bounded_of_next h (monUrgent_bounded hs)
  | biasLoopSet => exact bounded_of_next h (biasLoopSet_bounded hs)
  | jrxConfig => exact bounded_of_next h (jrxConfig_bounded hs)
  | jrxSend => exact bounded_of_next h (jrxSend_bounded hs)
  | jrxPeers => exact bounded_of_next h (jrxPeers_bounded hs)
  | jrxStatus => exact bounded_of_next h (jrxStatus_bounded hs)
  | faultLogRead => exact bounded_of_next h (faultLogRead_bounded hs)
  | alarmMaskSet => exact bounded_of_next h (alarmMaskSet_bounded hs)
  | alarmStatus => exact bounded_of_next h (alarmStatus_bounded hs)
  | faultClear => exact bounded_of_next h (faultClear_bounded hs)
  | loupeSet => exact bounded_of_next h (loupeSet_bounded hs)
  | loopbackSet => exact bounded_of_next h (loopbackSet_bounded hs)
  | prbsSet => exact bounded_of_next h (prbsSet_bounded hs)
  | mbxPost => exact bounded_of_next h (mbxPost_bounded hs)
  | mbxTake => exact bounded_of_next h (mbxTake_bounded hs)
  | mbxCtrlReset => exact bounded_of_next h (mbxCtrlReset_bounded hs)
  | lpsStatusRead | monResLoRead => exact bounded_of_next h (registerRead_bounded hs)
  | registerWrite => exact bounded_of_next h (registerWrite_bounded hs)
  | ptwiWrite | ptwiRead | ptwiWriteRead | ptwiRecover => exact bounded_of_next h (ptwiAccess_bounded hs)
  | bspiFlashToBulk | bspiBulkToFlash => exact bounded_of_next h (bspiAccess_bounded hs)
  | twiDeepNack => exact bounded_of_next h (twiDeepNack_bounded hs)
  | mspiDeepIgnore => exact bounded_of_next h (mspiDeepIgnore_bounded hs)
  | accessWakeComplete => exact bounded_of_next h (accessWakeComplete_bounded hs)
  | powerOnReset => exact bounded_of_next h (powerOnReset_bounded hs)
  | resetN => exact bounded_of_next h (resetNPulse_bounded hs)
  | imageVerifyDone => exact bounded_of_next h (imageVerifyDone_bounded hs)
  | bootBlobDone => exact bounded_of_next h (bootBlobDone_bounded hs)
  | sysResetDelayExpiry => exact bounded_of_next h (sysResetDelayExpiry_bounded hs)
  | coreRestartDone => exact bounded_of_next h (coreRestartDone_bounded hs)
  | crownPacketTake => exact bounded_of_next h (crownPacketTake_bounded hs)
  | crownWordTimeout => exact bounded_of_next h (crownWordTimeout_bounded hs)
  | crownReplyTimeout => exact bounded_of_next h (crownReplyTimeout_bounded hs)
  | queueSpacePost => exact bounded_of_next h (queueSpacePost_bounded hs)
  | hostQueueDrop => exact bounded_of_next h (hostQueueDrop_bounded hs)
  | internalQueueDrop => exact bounded_of_next h (internalQueueDrop_bounded hs)
  | txSuperframeBoundary => exact bounded_of_next h (txSuperframeBoundary_bounded hs)
  | rxSuperframeBoundary => exact bounded_of_next h (rxSuperframeBoundary_bounded hs)
  | sfohReceive => exact bounded_of_next h (sfohReceive_bounded hs)
  | sfAlignLoss => exact bounded_of_next h (sfAlignLoss_bounded hs)
  | psfnLock => exact bounded_of_next h (psfnLock_bounded hs)
  | psfnLockLoss => exact bounded_of_next h (psfnLockLoss_bounded hs)
  | psfnJump => exact bounded_of_next h (psfnJump_bounded hs)
  | dialStage => exact bounded_of_next h (dialStage_bounded hs)
  | dialRelease => exact bounded_of_next h (dialRelease_bounded hs)
  | lightDetectAssert => exact bounded_of_next h (lightDetectAssert_bounded hs)
  | lightDetectDeassert => exact bounded_of_next h (lightDetectDeassert_bounded hs)
  | acquisitionStart => exact bounded_of_next h (maybeAcquire_bounded hs)
  | acqFrequencyDone => exact bounded_of_next h (acqFrequencyDone_bounded hs)
  | frameAlignment => exact bounded_of_next h (frameAlignment_bounded hs)
  | frameAlignmentLoss => exact bounded_of_next h (frameAlignmentLoss_bounded hs)
  | acqTimeout => exact bounded_of_next h (acqTimeout_bounded hs)
  | carrierLockLoss => exact bounded_of_next h (carrierLockLoss_bounded hs)
  | reconvergeFail => exact bounded_of_next h (reconvergeFail_bounded hs)
  | eqSpan => exact bounded_of_next h (eqSpan_bounded hs)
  | eqSpanClear => exact bounded_of_next h (eqSpanClear_bounded hs)
  | adcLevelLow => exact bounded_of_next h (adcLevelLow_bounded hs)
  | adcLevelHigh => exact bounded_of_next h (adcLevelHigh_bounded hs)
  | synthLock => exact bounded_of_next h (synthLock_bounded hs)
  | synthUnlock => exact bounded_of_next h (synthUnlock_bounded hs)
  | synthRange => exact bounded_of_next h (synthRange_bounded hs)
  | synthFail => exact bounded_of_next h (synthFail_bounded hs)
  | nlcAlignDone => exact bounded_of_next h (nlcAlignDone_bounded hs)
  | tuneDwellEnd => exact bounded_of_next h (tuneDwellEnd_bounded hs)
  | fecStarved => exact bounded_of_next h (fecStarved_bounded hs)
  | fecStarvedClear => exact bounded_of_next h (fecStarvedClear_bounded hs)
  | engineComplete => exact bounded_of_next h (engineComplete_bounded hs)
  | watchdog => exact bounded_of_next h (watchdog_bounded hs)
  | katRun => exact bounded_of_next h (katRun_bounded hs)
  | scrubPass => exact bounded_of_next h (scrubPass_bounded hs)
  | trainAcquireDone => exact bounded_of_next h (trainAcquireDone_bounded hs)
  | probeDone => exact bounded_of_next h (probeDone_bounded hs)
  | trainPhaseTimeout => exact bounded_of_next h (trainPhaseTimeout_bounded hs)
  | farRestart => exact bounded_of_next h (farRestart_bounded hs)
  | commitPassCheck => exact bounded_of_next h (commitPassCheck_bounded hs)
  | verifyDone => exact bounded_of_next h (verifyDone_bounded hs)
  | degradeTimer => exact bounded_of_next h (degradeTimer_bounded hs)
  | spanAlarmClear => exact bounded_of_next h (spanAlarmClear_bounded hs)
  | holdTimeExpiry => exact bounded_of_next h (holdTimeExpiry_bounded hs)
  | pathCommitTimeout => exact bounded_of_next h (pathCommitTimeout_bounded hs)
  | jrxRequestPost => exact bounded_of_next h (pourJ_bounded hs)
  | jrxMbxDrop => exact bounded_of_next h (jrxMbxDrop_bounded hs)
  | jrxSendTimeout => exact bounded_of_next h (jrxSendTimeout_bounded hs)
  | helloTimer => exact bounded_of_next h (helloTimer_bounded hs)
  | routeTimer => exact bounded_of_next h (routeTimer_bounded hs)
  | routeChangeSend => exact bounded_of_next h (routeChangeSend_bounded hs)
  | routeExpiry => exact bounded_of_next h (routeExpiry_bounded hs)
  | hostLos => exact bounded_of_next h (hostLos_bounded hs)
  | hostLosClear => exact bounded_of_next h (hostLosClear_bounded hs)
  | hostCdr | hostCdrClear => exact bounded_of_next h (setCdr_bounded hs)
  | hostAlign => exact bounded_of_next h (hostAlign_bounded hs)
  | hostTrainingFrame => exact bounded_of_next h (hostTrainingFrame_bounded hs)
  | hostReceiverReady => exact bounded_of_next h (hostReceiverReady_bounded hs)
  | hostTrainFail => exact bounded_of_next h (hostTrainFail_bounded hs)
  | hostFecDeg => exact bounded_of_next h (setAlarm_bounded hs)
  | hostWakePattern => exact bounded_of_next h (hostWakePattern_bounded hs)
  | lightWake => exact bounded_of_next h (lightWake_bounded hs)
  | keepAliveDetect => exact bounded_of_next h (keepAliveDetect_bounded hs)
  | bankCheckDone => exact bounded_of_next h (bankCheckDone_bounded hs)
  | domainWakeComplete => exact bounded_of_next h (domainWakeComplete_bounded hs)
  | wakeDone => exact bounded_of_next h (wakeDone_bounded hs)
  | powerAnswersReceived => exact bounded_of_next h (powerAnswersReceived_bounded hs)
  | noAnswer => exact bounded_of_next h (noAnswer_bounded hs)
  | powerTransitionComplete => exact bounded_of_next h (powerTransitionComplete_bounded hs)
  | monSlotEnd => exact bounded_of_next h (monSlotEnd_bounded hs)
  | monUrgentDone => exact bounded_of_next h (monUrgentDone_bounded hs)
  | biasGraceExpiry => exact bounded_of_next h (biasGraceExpiry_bounded hs)
  | calTargetUpdate => exact bounded_of_next h (calTargetUpdate_bounded hs)
  | calRunEnd => exact bounded_of_next h (calRunEnd_bounded hs)
  | calRetry => exact bounded_of_next h (calRetryRun_bounded hs)
  | coreWatchdog => exact bounded_of_next h (coreWatchdog_bounded hs)
  | flowStall => exact bounded_of_next h (flowStall_bounded hs)
  | tempCrit => exact bounded_of_next h (tempCrit_bounded hs)
  | supply => exact bounded_of_next h (supply_bounded hs)
  | faultHandle => exact bounded_of_next h (faultHandle_bounded hs)
  | faultOverflowTakeup => exact bounded_of_next h (faultOverflowTakeup_bounded hs)
  | recoveryActionDone => exact bounded_of_next h (recoveryActionDone_bounded hs)
  | recoveryQuietExpiry => exact bounded_of_next h (recoveryQuietExpiry_bounded hs)
  | alarmDefaultClear => exact bounded_of_next h (alarmDefaultClear_bounded hs)
  | extest | clamp | highz | extestPulse | extestTrain => exact bounded_of_next h testHold_bounded
  | testMbxPost => exact bounded_of_next h (testMbxPost_bounded hs)
  | testMbxTake => exact bounded_of_next h (testMbxTake_bounded hs)
  | testMbxReset => exact bounded_of_next h (testMbxReset_bounded hs)
  | sampleClockChangeIntervalEnd => exact bounded_of_next h (sampleClockChangeIntervalEnd_bounded hs)
  | knownAnswerTestDone => exact bounded_of_next h (knownAnswerTestDone_bounded hs)
  | registerRead => exact bounded_of_next h (registerRead_bounded hs)

theorem step_bounded {s t : State} (h : step s = .next t) (hs : Claims.Bounded s) : Claims.Bounded t := by
  unfold step at h
  split at h
  · exact bounded_of_next h (tick_bounded hs)
  · exact exec_bounded h hs

end Sys2Proof.Machine

open Sys2Proof Sys2Proof.Machine

/-- Settles O8: by cases on the command that the step takes, each by the lemma of its operation. -/
theorem queuesKept : Obligations.QueuesKept := fun _ _ => step_bounded

/-- Settles O6. -/
theorem invariantsAtReset : Obligations.InvariantsAtReset := ⟨reset_bulk_wf, reset_bounded⟩
end

section
/-! PROOF. The words of alarms under `setAlarm` (R458), and the turns of the ports. -/

namespace Sys2Proof.Machine

theorem getAlarm_modAlarm_same (key : AlarmKey) (f : Alarm → Alarm) (s : State) :
    getAlarm (modAlarm key f s) key = f (getAlarm s key) := by
  cases key <;> simp [getAlarm, modAlarm]

theorem getAlarm_modAlarm_other (key key' : AlarmKey) (f : Alarm → Alarm) (s : State) (h : key' ≠ key) :
    getAlarm (modAlarm key f s) key' = getAlarm s key' := by
  cases key <;> cases key' <;> simp_all [getAlarm, modAlarm]

theorem getAlarm_congr {s t : State} (h : t.alarms = s.alarms) (key : AlarmKey) : getAlarm t key = getAlarm s key := by
  simp only [getAlarm, h]

/-- The words of an alarm whose bit `b` is raised or cleared. -/
def Alarm.put (b : Nat) (on : Bool) (x : Alarm) : Alarm :=
  if on then { x with active := x.active ||| wd (2 ^ b), latched := x.latched ||| wd (2 ^ b) }
  else { x with active := x.active &&& ~~~wd (2 ^ b) }

theorem setAlarm_eq (key : AlarmKey) (b : Nat) (on : Bool) (s : State) :
    setAlarm key b on s =
      if bit (getAlarm s key).active b == on then s
      else if bit (getAlarm s key).mask b then modAlarm key (Alarm.put b on) s
      else alarmEvent key b on (modAlarm key (Alarm.put b on) s) := rfl

theorem getAlarm_alarmEvent (key key' : AlarmKey) (b : Nat) (raised : Bool) (s : State) :
    getAlarm (alarmEvent key b raised s) key' = getAlarm s key' :=
  getAlarm_congr (by simp) key'

theorem getAlarm_setAlarm_other (key key' : AlarmKey) (b : Nat) (on : Bool) (s : State) (h : key' ≠ key) :
    getAlarm (setAlarm key b on s) key' = getAlarm s key' := by
  rw [setAlarm_eq]
  split_ifs
  · rfl
  · exact getAlarm_modAlarm_other _ _ _ _ h
  · exact (getAlarm_alarmEvent ..).trans (getAlarm_modAlarm_other _ _ _ _ h)

theorem bit_put (b : Nat) (on : Bool) (x : Alarm) (h : b < 32) : bit (x.put b on).active b = on := by
  have hbit : (wd (2 ^ b)).getLsbD b = true := by
    rw [wd, BitVec.getLsbD_ofNat, Nat.testBit_two_pow_self, decide_eq_true h, Bool.and_self]
  cases on <;> simp [Alarm.put, bit_eq_getLsbD, hbit]

/-- An alarm is active after it is raised, and not after it is cleared. -/
theorem alarmOn_setAlarm (key : AlarmKey) (b : Nat) (on : Bool) (s : State) (h : b < 32) :
    alarmOn (setAlarm key b on s) key b = on := by
  rw [alarmOn, setAlarm_eq]
  split_ifs with hsame
  · exact beq_iff_eq.mp hsame
  · rw [getAlarm_modAlarm_same, bit_put _ _ _ h]
  · rw [getAlarm_alarmEvent, getAlarm_modAlarm_same, bit_put _ _ _ h]

theorem alarmOn_setAlarm_other (key key' : AlarmKey) (b b' : Nat) (on : Bool) (s : State) (h : key' ≠ key) :
    alarmOn (setAlarm key b on s) key' b' = alarmOn s key' b' := by
  rw [alarmOn, getAlarm_setAlarm_other _ _ _ _ _ h, alarmOn]

theorem setAlarm_jrx (key : AlarmKey) (b : Nat) (on : Bool) (s : State) : (setAlarm key b on s).jrx = s.jrx := by
  have hmod : ∀ f : Alarm → Alarm, (modAlarm key f s).jrx = s.jrx := fun f => by cases key <;> rfl
  rw [setAlarm_eq]
  split_ifs <;> simp [hmod]

/-- What an operation on port `p` brings about, and the operations on the other ports keep, holds once each port has had its
turn. -/
theorem eachPort_turn {f : LPort → State → State} {Q P : State → Prop} (p : LPort)
    (hQ : ∀ q ≠ p, ∀ s, Q s → Q (f q s)) (hp : ∀ s, Q s → P (f p s)) (hP : ∀ q ≠ p, ∀ s, P s → P (f q s)) {s : State}
    (h : Q s) : P (eachPort f s) :=
  match p with
  | 0 => hP 3 (by decide) _ (hP 2 (by decide) _ (hP 1 (by decide) _ (hp _ h)))
  | 1 => hP 3 (by decide) _ (hP 2 (by decide) _ (hp _ (hQ 0 (by decide) _ h)))
  | 2 => hP 3 (by decide) _ (hp _ (hQ 1 (by decide) _ (hQ 0 (by decide) _ h)))
  | 3 => hp _ (hQ 2 (by decide) _ (hQ 1 (by decide) _ (hQ 0 (by decide) _ h)))

theorem eachPort_only {xs : List Claims.Part} {f : LPort → State → State} (hf : ∀ p s, Claims.Only xs s (f p s))
    (s : State) : Claims.Only xs s (eachPort f s) :=
  only_trans (hf 0 s) (only_trans (hf 1 _) (only_trans (hf 2 _) (hf 3 _)))

end Sys2Proof.Machine
end

section
/-! PROOF. O42: the Joryx commands (R62, R475, R476, R478, R479). -/

namespace Sys2Proof.Machine

/-! ### JRX_CONFIG -/

/-- Joryx under a new identifier: its routes are empty (R475). -/
def newNode (rq : Req) (j : Joryx) : Joryx :=
  { j with nodeId := BitVec.ofNat 11 (pf rq 0 31 21), nidValid := bit (par rq 0) 20, routes := [], routesChanged := true }

/-- What SET of JRX_CONFIG does. -/
def jrxSetNode (rq : Req) (s : State) : State :=
  if bit (par rq 0) 19 && (s.jrx.nodeId != BitVec.ofNat 11 (pf rq 0 31 21) || s.jrx.nidValid != bit (par rq 0) 20) then
    modJrx (newNode rq) s
  else s

/-- What a CLEAR bit of JRX_CONFIG does to its port. -/
def clearChanged (p : LPort) (s : State) : State :=
  setAlarm (.jrx p) 1 false (modJp p (fun x => { x with neigh := { x.neigh with changed := false } }) s)

/-- What JRX_CONFIG does besides its reply. -/
def jrxConfigured (rq : Req) (s : State) : State :=
  eachPort (fun p s => if bit (par rq 0) (15 + p.val) then clearChanged p s else s) (jrxSetNode rq s)

theorem jrxConfig_runs (rq : Req) (s : State) (h : pf rq 0 14 0 = 0) :
    Claims.Runs (.jrxConfig rq) s (reply 0x9001 rq (okay []) (jrxConfigured rq s)) :=
  congrArg Host.Outcome.next (commandOk_runs 0x9001 rq _ _ (jrxConfigured rq) s
    (firstFail_badAt_one _ 0 (by simpa [pf] using h)) (fun d hd => nomatch hd) rfl)

theorem modJrx_only (f : Joryx → Joryx) (s : State) : Claims.Only [.jrx] s (modJrx f s) := by
  intro x hx
  cases x <;> simp_all [Claims.Same]

theorem setAlarm_only (n : LPort) (b : Nat) (on : Bool) (s : State) :
    Claims.Only [.alarms, .mbx] s (setAlarm (.jrx n) b on s) := by
  have hpool : (setAlarm (.jrx n) b on s).pool = s.pool := by
    rw [setAlarm_eq]
    split_ifs <;> simp [modAlarm]
  intro x hx
  cases x <;> simp_all [Claims.Same, setAlarm_jrx]

theorem clearChanged_only (p : LPort) (s : State) : Claims.Only [.jrx, .alarms, .mbx] s (clearChanged p s) :=
  only_trans (only_mono (modJrx_only _ s) (by simp)) (only_mono (setAlarm_only p 1 false _) (by simp))

theorem jrxConfigured_only (rq : Req) (s : State) : Claims.Only [.jrx, .alarms, .mbx] s (jrxConfigured rq s) :=
  only_trans (only_ite (only_mono (modJrx_only _ s) (by simp)) (only_refl _ s))
    (eachPort_only (fun p s => only_ite (clearChanged_only p s) (only_refl _ s)) _)

theorem clearChanged_jrx (p : LPort) (s : State) : (clearChanged p s).jrx = { s.jrx with
    ports := vmod s.jrx.ports p fun x => { x with neigh := { x.neigh with changed := false } } } := by
  rw [clearChanged, setAlarm_jrx, modJp_jrx]

/-- The CLEAR bits change only the records of the ports: `g` reads anything else of Joryx. -/
theorem jrxConfigured_reads {β : Type} (g : Joryx → β) (hg : ∀ (j : Joryx) ps, g { j with ports := ps } = g j) (rq : Req)
    (s : State) : g (jrxConfigured rq s).jrx = g (jrxSetNode rq s).jrx := by
  have hport : ∀ (p : LPort) (t : State),
      g (if bit (par rq 0) (15 + p.val) then clearChanged p t else t).jrx = g t.jrx := by
    intro p t
    split_ifs
    · rw [clearChanged_jrx, hg]
    · rfl
  simp only [jrxConfigured, eachPort, hport]

/-- Port `p` after the CLEAR bits: its own bit alone has touched it. -/
theorem jrxConfigured_port (rq : Req) (s : State) (p : LPort) :
    (jrxConfigured rq s).jrx.ports[p].egress = s.jrx.ports[p].egress ∧
    (bit (par rq 0) (15 + p.val) = true → (jrxConfigured rq s).jrx.ports[p].neigh.changed = false ∧
      alarmOn (jrxConfigured rq s) (.jrx p) 1 = false) ∧
    (bit (par rq 0) (15 + p.val) = false → (jrxConfigured rq s).jrx.ports[p] = s.jrx.ports[p]) := by
  have hset : (jrxSetNode rq s).jrx.ports[p] = s.jrx.ports[p] := by
    simp only [jrxSetNode]
    split_ifs <;> rfl
  have hother : ∀ q ≠ p, ∀ t, (clearChanged q t).jrx.ports[p] = t.jrx.ports[p] := by
    intro q hq t
    simp [clearChanged_jrx, hq.symm]
  refine eachPort_turn (Q := fun t => t.jrx.ports[p] = s.jrx.ports[p])
    (P := fun t => t.jrx.ports[p].egress = s.jrx.ports[p].egress ∧
      (bit (par rq 0) (15 + p.val) = true → t.jrx.ports[p].neigh.changed = false ∧ alarmOn t (.jrx p) 1 = false) ∧
      (bit (par rq 0) (15 + p.val) = false → t.jrx.ports[p] = s.jrx.ports[p])) p ?_ ?_ ?_ hset
  · intro q hq t ht
    split_ifs
    · rw [hother q hq, ht]
    · exact ht
  · intro t ht
    split_ifs with hbit
    · have halarm : alarmOn (clearChanged p t) (.jrx p) 1 = false := alarmOn_setAlarm _ _ _ _ (by decide)
      have hegress := congrArg JrxPort.egress ht
      simpa [hbit, halarm, clearChanged_jrx] using hegress
    · simp [hbit, ht]
  · intro q hq t ht
    have halarm : alarmOn (clearChanged q t) (.jrx p) 1 = alarmOn t (.jrx p) 1 :=
      alarmOn_setAlarm_other _ _ _ _ _ _ (by simpa using hq.symm)
    split_ifs
    · rw [hother q hq, halarm]
      exact ht
    · exact ht

theorem pf_lt (rq : Req) (i hi lo : Nat) : pf rq i hi lo < 2 ^ (hi + 1 - lo) := Nat.mod_lt _ (by positivity)

/-- A field of a parameter, as a bit vector of the width of the field. -/
theorem ofNat_pf_toNat (rq : Req) (i hi lo w : Nat) (h : hi + 1 - lo = w) :
    (BitVec.ofNat w (pf rq i hi lo)).toNat = pf rq i hi lo := by
  subst h
  exact Nat.mod_eq_of_lt (pf_lt rq i hi lo)

theorem jrxConfigCompletes (rq : Req) (s : State) (h : pf rq 0 14 0 = 0) :
    let set := bit (par rq 0) 19
    let new := set = true ∧ (s.jrx.nodeId.toNat ≠ pf rq 0 31 21 ∨ s.jrx.nidValid ≠ bit (par rq 0) 20)
    ∃ u, Claims.Runs (.jrxConfig rq) s (reply 0x9001 rq (okay []) u) ∧ Claims.Only [.jrx, .alarms, .mbx] s u ∧
      u.jrx.nodeId.toNat = (if set then pf rq 0 31 21 else s.jrx.nodeId.toNat) ∧
      u.jrx.nidValid = (if set then bit (par rq 0) 20 else s.jrx.nidValid) ∧
      (new → u.jrx.routes = [] ∧ u.jrx.routesChanged = true) ∧ (¬ new → u.jrx.routes = s.jrx.routes) ∧
      ∀ p : LPort, u.jrx.ports[p].egress = s.jrx.ports[p].egress ∧
        (bit (par rq 0) (15 + p.val) = true → u.jrx.ports[p].neigh.changed = false ∧ alarmOn u (.jrx p) 1 = false) ∧
        (bit (par rq 0) (15 + p.val) = false → u.jrx.ports[p] = s.jrx.ports[p]) := by
  intro set new
  have hid := ofNat_pf_toNat rq 0 31 21 11 rfl
  have hnew : (bit (par rq 0) 19 && (s.jrx.nodeId != BitVec.ofNat 11 (pf rq 0 31 21) ||
      s.jrx.nidValid != bit (par rq 0) 20)) = true ↔ new := by
    simp [new, set, ← BitVec.toNat_inj, hid, -BitVec.toNat_ofNat]
  have hset : ¬ new → set = true → s.jrx.nodeId.toNat = pf rq 0 31 21 ∧ s.jrx.nidValid = bit (par rq 0) 20 := by
    intro hn hs
    by_contra hne
    exact hn ⟨hs, not_and_or.mp hne⟩
  have hnodeSet : jrxSetNode rq s = if new then modJrx (newNode rq) s else s := by
    simp only [jrxSetNode, hnew]
  refine ⟨jrxConfigured rq s, jrxConfig_runs rq s h, jrxConfigured_only rq s, ?_, ?_, ?_, ?_, jrxConfigured_port rq s⟩
  · rw [jrxConfigured_reads (·.nodeId.toNat) fun _ _ => rfl, hnodeSet]
    split_ifs with hn hs hs
    · exact hid
    · exact absurd hn.1 hs
    · exact (hset hn hs).1
    · rfl
  · rw [jrxConfigured_reads (·.nidValid) fun _ _ => rfl, hnodeSet]
    split_ifs with hn hs hs
    · rfl
    · exact absurd hn.1 hs
    · exact (hset hn hs).2
    · rfl
  · intro hn
    rw [jrxConfigured_reads (·.routes) fun _ _ => rfl, jrxConfigured_reads (·.routesChanged) fun _ _ => rfl, hnodeSet,
      if_pos hn]
    exact ⟨rfl, rfl⟩
  · intro hn
    rw [jrxConfigured_reads (·.routes) fun _ _ => rfl, hnodeSet, if_neg hn]

/-! ### JRX_STATUS and JRX_PEERS -/

theorem peerWords_length (s : State) (p : LPort) : (peerWords s p).length = 6 := rfl

/-- The first word of a neighbour's record (R478). -/
theorem peerWords_head (s : State) (p : LPort) :
    let n := s.jrx.ports[p].neigh
    bit ((peerWords s p).getD 0 0) 31 = n.valid ∧ fld ((peerWords s p).getD 0 0) 29 19 = n.node.toNat ∧
      bit ((peerWords s p).getD 0 0) 16 = n.changed := by
  refine ⟨bit_word 31 _ _ rfl (by simp), ?_, bit_word 16 _ _ rfl (by simp)⟩
  exact (fld_word 29 19 s.jrx.ports[p].neigh.node.toNat _ rfl (by simp)).trans (Nat.mod_eq_of_lt (BitVec.isLt _))

/-- Bit 31 of a word of the route table says whether there is a route (R478). -/
theorem routeWord_valid (s : State) (d : Nat) : bit (routeWord s d) 31 = (routeTo s (BitVec.ofNat 11 d)).isSome := by
  unfold routeWord
  split
  next r hr => exact (bit_word 31 true _ rfl (by simp [b2n])).trans (by simp [hr])
  next hr => simp [hr, bit]

theorem joryxReportsComplete : Claims.JoryxReportsComplete := by
  intro rq s
  refine ⟨jrxConfigCompletes rq s, fun hzero => ?_, fun hzero hroutes => ?_, fun hzero hroutes hbulk => ?_⟩
  · refine ⟨_, ?_, bit_word 20 s.jrx.nidValid _ rfl (by simp), ?_,
      reports_of_report (.jrxStatus rq) _ _ _ _ (jrxStatusAnswer rq) s rfl
        (firstFail_badAt_one _ _ (by simp [hzero])) (fun d hd => nomatch hd)⟩
    · exact (fld_word 31 21 s.jrx.nodeId.toNat _ rfl (by simp)).trans (Nat.mod_eq_of_lt (BitVec.isLt _))
    · exact fld_word 19 13 _ _ rfl (by simp)
  · have hrun := reports_of_report (.jrxPeers rq) _ 0x9003 rq _ (jrxPeersAnswer rq) s rfl
      (firstFail_badAt_one _ 0 (by simpa [hroutes, pf] using hzero)) (fun d hd => nomatch hd)
    simp only [jrxPeersAnswer, hroutes, Bool.false_or, Bool.false_eq_true, if_false] at hrun
    refine ⟨_, ?_, ?_, hrun⟩
    · split_ifs <;> rfl
    · intro hone
      simpa only [hone, Bool.false_eq_true, if_false] using peerWords_head s (pport rq 0)
  · have harea : bulkBad (fld (par rq 0) 23 0) 2048 = false := bulkBad_eq_false _ _ hbulk
    have hrun := reports_of_report (.jrxPeers rq) _ 0x9003 rq _ (jrxPeersAnswer rq) s rfl
      (firstFail_badAt_one _ 0 (by simpa [pf, harea] using hzero))
      (fun d hd => nomatch hd)
    simp only [jrxPeersAnswer, hroutes, Bool.true_or, if_true] at hrun
    refine ⟨_, by simp, fun d hd => ?_, hrun⟩
    simp [List.getD_eq_getElem?_getD, hd, routeWord_valid]

/-! ### JRX_SEND -/

/-- A port with space in its queue takes a frame at the end of it (R69). -/
theorem egress_room (p : LPort) (f : Frame) (s : State) (h : s.jrx.ports[p].egress.length < 64) :
    egress p f s = modJp p (fun x => { x with egress := x.egress ++ [f] }) s := if_pos h

/-- A frame towards a node with a route leaves on the route's port, with the next sequence number (R65, R69). -/
theorem sendFrame_route (dest : BitVec 11) (chan : BitVec 2) (type : BitVec 3) (body : List Word) (back : LPort)
    (r : Route) (s : State) (hid : s.jrx.nidValid = true) (hr : routeTo s dest = some r)
    (hroom : s.jrx.ports[r.port].egress.length < 64) :
    sendFrame dest chan type body back s =
      modJp r.port (fun x => { x with egress := x.egress ++ [newFrame s dest chan type 0 30 body] })
        (modJrx (fun x => { x with seq := nextSeq x.seq }) s) := by
  simp only [sendFrame, hid, hr]
  exact egress_room _ _ _ hroom

/-- The wait of a JRX_SEND for the reply to its packet. -/
def jrxWait (rq : Req) (pkt : List Word) (s : State) : JrxWait :=
  let dest := BitVec.ofNat 11 (pf rq 0 31 21)
  let chan := BitVec.ofNat 2 (pf rq 0 20 19)
  let f := newFrame s dest chan 1 0 30 pkt
  { rq := rq, dest := dest, chan := chan, opcode := BitVec.ofNat 16 (pktOp pkt), tag := BitVec.ofNat 8 (pktTag pkt),
    h0 := f.h0, h1 := f.h1 }

/-- What a JRX_SEND does whose checks pass: its packet leaves, and the command waits for the reply. -/
def jrxSent (rq : Req) (pkt : List Word) (s : State) : State :=
  modJrx (fun j => { j with waits := j.waits ++ [jrxWait rq pkt s] })
    (sendFrame (BitVec.ofNat 11 (pf rq 0 31 21)) (BitVec.ofNat 2 (pf rq 0 20 19)) 1 pkt 0 s)

theorem joryxSendCompletes : Claims.JoryxSendCompletes := by
  intro rq s r hop hzero hid hself hbulk hlen hwaits hroute hroom
  have hdest := ofNat_pf_toNat rq 0 31 21 11 rfl
  have hchan := ofNat_pf_toNat rq 0 20 19 2 rfl
  have hne : s.jrx.nodeId ≠ BitVec.ofNat 11 (pf rq 0 31 21) := fun h => hself (by rw [h, hdest])
  have hfree : s.jrx.waits.any (fun w => w.dest == BitVec.ofNat 11 (pf rq 0 31 21) &&
      w.chan == BitVec.ofNat 2 (pf rq 0 20 19)) = false := by
    rw [List.any_eq_false]
    intro w hw hsame
    obtain ⟨hd, hc⟩ := (Bool.and_eq_true _ _).mp hsame
    exact hwaits w hw (by rw [beq_iff_eq.mp hd, hdest]) (by rw [beq_iff_eq.mp hc, hchan])
  have hrun : Claims.Runs (.jrxSend rq) s (taken rq (jrxSent rq (jrxPacket rq s) s)) := by
    refine congrArg Host.Outcome.next ?_
    unfold jrxSend
    refine (command_runs 0x9002 rq _ _ _ s ?_ (fun d hd => nomatch hd) ?_).trans rfl
    · cases hb : bit (par rq 0) 14 with
      | false =>
        rw [firstFail_cons, if_neg (by simp), firstFail_badAt _ _ (by simp [hop, hzero, hne.symm]), firstFail_cons,
          if_neg (by simpa using hlen), firstFail_nil]
      | true =>
        obtain ⟨hp, hoff, hmin, hmax, harea⟩ := hbulk hb
        have hfits := bulkBad_eq_false _ _ harea
        have hlong : 1 < (par rq 2).toNat := hmin
        rw [firstFail_cons, if_neg (by simp [hp]),
          firstFail_badAt _ _ (by simp [hop, hzero, hne.symm, hoff, hfits, hlong, hmax]), firstFail_cons,
          if_neg (by simpa using hlen), firstFail_nil]
    · simpa [firstFail, hid, hfree, hroute] using hroom
  have hsent := sendFrame_route _ (BitVec.ofNat 2 (pf rq 0 20 19)) 1 (jrxPacket rq s) 0 r s hid hroute hroom
  refine ⟨jrxSent rq (jrxPacket rq s) s, newFrame s (BitVec.ofNat 11 (pf rq 0 31 21)) (BitVec.ofNat 2 (pf rq 0 20 19)) 1 0 30
    (jrxPacket rq s), jrxWait rq (jrxPacket rq s) s, hrun, ?_, ?_, hdest, rfl, rfl, rfl, hchan, rfl, rfl, ?_, ?_, rfl, rfl, rfl⟩
  · exact only_trans (only_of_kept (sendFrame_keeps ..)) (modJrx_only _ _)
  · intro p
    rw [jrxSent, hsent]
    by_cases hp : p = r.port
    · subst hp
      simp
    · simp [hp]
  · rw [jrxSent, hsent]
    rfl
  · rw [jrxSent, hsent]
    rfl

end Sys2Proof.Machine

open Sys2Proof Sys2Proof.Machine

/-- Settles O42: the checks pass, so JRX_CONFIG changes the identifier and clears each port in its turn, the reports wait for
their boundary, and the packet of JRX_SEND leaves on the route's port. -/
theorem joryxCommandsComplete : Obligations.JoryxCommandsComplete := ⟨joryxReportsComplete, joryxSendCompletes⟩
end

section
/-! PROOF. O43: the timers and events of Joryx (R66, R67, R70, R476). -/

namespace Sys2Proof.Machine

/-! ### Requests that wait for an inbound queue (R70) -/

/-- A waiting request enters the queue when nothing before it waits and it fits; else it goes on waiting. -/
def pourRequest (x : Mbx) (acc : List QWord × List (LPort × BitVec 11 × List Word)) (m : LPort × BitVec 11 × List Word) :
    List QWord × List (LPort × BitVec 11 × List Word) :=
  let st : Stamp := { cls := 2, ident := m.2.1, gen := ((x.nodeGen.find? (·.1 == m.2.1)).map (·.2.1)).getD 0 }
  if acc.2.isEmpty && acc.1.length + m.2.2.length ≤ 16 then
    (acc.1 ++ (toQ st none false m.2.2).map (fun q => { q with arrived := x.arrivals }), [])
  else (acc.1, acc.2 ++ [m])

theorem pourJ_eq (j : Fin 4) (s : State) :
    pourJ j s = modJ j (fun c =>
      { c with inQ := (c.waitQ.foldl (pourRequest s.mbx) (c.inQ, [])).1
               waitQ := (c.waitQ.foldl (pourRequest s.mbx) (c.inQ, [])).2 })
      (modMbx (fun x => { x with arrivals := x.arrivals + 1 }) s) := rfl

theorem toQ_words (st : Stamp) (rq : Option (BitVec 3 × BitVec 4)) (hw : Bool) (ws : List Word) (n : Nat) :
    ((toQ st rq hw ws).map (fun q => { q with arrived := n })).map (·.w) = ws := by
  simp [toQ, Function.comp_def]

/-- Once a request waits, those behind it wait too. -/
theorem pourRequest_blocked (x : Mbx) (l : List (LPort × BitVec 11 × List Word)) (q : List QWord)
    (w : List (LPort × BitVec 11 × List Word)) (h : w ≠ []) : l.foldl (pourRequest x) (q, w) = (q, w ++ l) := by
  induction l generalizing w with
  | nil => simp
  | cons m l ih =>
    have hstep : pourRequest x (q, w) m = (q, w ++ [m]) := by simp [pourRequest, h]
    rw [List.foldl_cons, hstep, ih _ (by simp), List.append_assoc, List.singleton_append]

/-- The words of a queue stay in front, and the queue stays within 16 words. -/
theorem pourRequest_inQ (x : Mbx) (l : List (LPort × BitVec 11 × List Word)) (q : List QWord) (hq : q.length ≤ 16) :
    ∃ more, (l.foldl (pourRequest x) (q, [])).1.map (·.w) = q.map (·.w) ++ more ∧
      (l.foldl (pourRequest x) (q, [])).1.length ≤ 16 := by
  induction l generalizing q with
  | nil => exact ⟨[], by simp, hq⟩
  | cons m l ih =>
    by_cases hfit : q.length + m.2.2.length ≤ 16
    · obtain ⟨more, hmore, hlen⟩ := ih (pourRequest x (q, []) m).1 (by simp [pourRequest, hfit, toQ])
      have hstep : pourRequest x (q, []) m = ((pourRequest x (q, []) m).1, []) := by simp [pourRequest, hfit]
      refine ⟨m.2.2 ++ more, ?_, ?_⟩
      · rw [List.foldl_cons, hstep, hmore]
        simp only [pourRequest, hfit, List.isEmpty_nil, decide_true, Bool.and_self, if_true, List.map_append, toQ_words,
          List.append_assoc]
      · rw [List.foldl_cons, hstep]
        exact hlen
    · have hstep : pourRequest x (q, []) m = (q, [m]) := by simp [pourRequest, hfit]
      rw [List.foldl_cons, hstep, pourRequest_blocked _ _ _ _ (by simp)]
      exact ⟨[], by simp, hq⟩

theorem pourJ_inQ (j : Fin 4) (s : State) :
    (pourJ j s).mbx.j[j].inQ = (s.mbx.j[j].waitQ.foldl (pourRequest s.mbx) (s.mbx.j[j].inQ, [])).1 := by
  simp [pourJ_eq, modJ]

theorem pourJ_waitQ (j : Fin 4) (s : State) :
    (pourJ j s).mbx.j[j].waitQ = (s.mbx.j[j].waitQ.foldl (pourRequest s.mbx) (s.mbx.j[j].inQ, [])).2 := by
  simp [pourJ_eq, modJ]

theorem pourJ_only (j : Fin 4) (s : State) : Claims.Only [.mbx] s (pourJ j s) := by
  rw [pourJ_eq]
  exact only_trans (modMbx_only _ s) (modMbx_only _ _)

/-- A request that fits enters its queue behind the words already there (R70). -/
theorem pourJ_fits (j : Fin 4) (m : LPort × BitVec 11 × List Word) (rest : List (LPort × BitVec 11 × List Word))
    (s : State) (hw : s.mbx.j[j].waitQ = m :: rest) (hfit : s.mbx.j[j].inQ.length + m.2.2.length ≤ 16) :
    ∃ more, (pourJ j s).mbx.j[j].inQ.map (·.w) = s.mbx.j[j].inQ.map (·.w) ++ m.2.2 ++ more ∧
      (pourJ j s).mbx.j[j].inQ.length ≤ 16 := by
  have hstep : pourRequest s.mbx (s.mbx.j[j].inQ, []) m = ((pourRequest s.mbx (s.mbx.j[j].inQ, []) m).1, []) := by
    simp only [pourRequest, hfit, List.isEmpty_nil, decide_true, Bool.and_self, if_true]
  have hwords : (pourRequest s.mbx (s.mbx.j[j].inQ, []) m).1.map (·.w) = s.mbx.j[j].inQ.map (·.w) ++ m.2.2 := by
    simp only [pourRequest, hfit, List.isEmpty_nil, decide_true, Bool.and_self, if_true, List.map_append, toQ_words]
  have hlen : (pourRequest s.mbx (s.mbx.j[j].inQ, []) m).1.length ≤ 16 := by
    have := congrArg List.length hwords
    simp only [List.length_map, List.length_append] at this
    omega
  obtain ⟨more, hmore, hmax⟩ := pourRequest_inQ s.mbx rest _ hlen
  rw [pourJ_inQ, hw, List.foldl_cons, hstep]
  exact ⟨more, by rw [hmore, hwords], hmax⟩

/-- A request that does not fit keeps every request waiting (R70). -/
theorem pourJ_full (j : Fin 4) (m : LPort × BitVec 11 × List Word) (rest : List (LPort × BitVec 11 × List Word))
    (s : State) (hw : s.mbx.j[j].waitQ = m :: rest) (hfull : 16 < s.mbx.j[j].inQ.length + m.2.2.length) :
    (pourJ j s).mbx.j[j].inQ = s.mbx.j[j].inQ ∧ (pourJ j s).mbx.j[j].waitQ = s.mbx.j[j].waitQ := by
  have hstep : pourRequest s.mbx (s.mbx.j[j].inQ, []) m = (s.mbx.j[j].inQ, [m]) := by
    simp only [pourRequest, hfull.not_ge, List.isEmpty_nil, decide_false, Bool.and_false, Bool.false_eq_true, if_false,
      List.nil_append]
  rw [pourJ_inQ, pourJ_waitQ, hw, List.foldl_cons, hstep, pourRequest_blocked _ _ _ _ (by simp)]
  exact ⟨rfl, rfl⟩

theorem jrxMbxDrop_cons (j : Fin 4) (m : LPort × BitVec 11 × List Word) (rest : List (LPort × BitVec 11 × List Word))
    (s : State) (hw : s.mbx.j[j].waitQ = m :: rest) :
    jrxMbxDrop j s = jrxCount m.1 5 (modJ j (fun c => { c with waitQ := rest }) s) := by
  unfold jrxMbxDrop
  split
  next h => exact nomatch hw.symm.trans h
  next h =>
    cases hw.symm.trans h
    rfl

/-! ### A JRX_SEND without an answer (R476) -/

theorem jrxSendTimeout_some (d : BitVec 11) (ch : Fin 4) (w : JrxWait) (s : State)
    (h : s.jrx.waits.find? (fun w => w.dest == d && w.chan == BitVec.ofNat 2 ch.val) = some w) :
    jrxSendTimeout d ch s = endWait w { st := .timeout } s := by
  simp only [jrxSendTimeout, h]

/-! ### Frames to the neighbours (R66, R67) -/

/-- The frame to the neighbour on a port, as it leaves. -/
theorem neighbourFrame_room (p : LPort) (type : BitVec 3) (entries : Nat) (body : List Word) (s : State)
    (h : s.jrx.ports[p].egress.length < 64) :
    neighbourFrame p type entries body s =
      modJp p (fun x => { x with egress := x.egress ++ [newFrame s 0 0 type entries 0 body] })
        (modJrx (fun x => { x with seq := nextSeq x.seq }) s) :=
  egress_room p _ (modJrx (fun x => { x with seq := nextSeq x.seq }) s) h

/-- A list of at most 32 entries is one piece. -/
theorem pieces_one {α : Type} (l : List α) (hne : l ≠ []) (hlen : l.length ≤ 32) : pieces l.length l = [l] := by
  have hnil : ∀ n, pieces n ([] : List α) = [] := fun n => by cases n <;> rfl
  cases l with
  | nil => exact absurd rfl hne
  | cons a l => simp [pieces, List.take_of_length_le hlen, List.drop_of_length_le hlen, hnil]

theorem advert_length (s : State) (p : LPort) : (advert s p).length = s.jrx.routes.length + 1 := by
  simp [advert]

/-- A small table goes out in one frame (R67). -/
theorem sendRoutes_small (p : LPort) (s : State) (h : s.jrx.routes.length ≤ 31) :
    sendRoutes p s = neighbourFrame p 5 (advert s p).length (routeBody (advert s p)) s := by
  have hlen := advert_length s p
  have hone := pieces_one (advert s p) (by simp [advert]) (by omega)
  simp only [sendRoutes, hone, eachOf, List.foldl_cons, List.foldl_nil]

/-- What a turn of another port leaves of Joryx for port `p`: its record, the routes, the identifier, and which domains are
ON. -/
def SameJoryx (p : LPort) (s t : State) : Prop :=
  t.jrx.ports[p] = s.jrx.ports[p] ∧ t.jrx.routes = s.jrx.routes ∧ t.jrx.nodeId = s.jrx.nodeId ∧ t.power = s.power

/-- The frame of the whole table that goes out on a port. -/
def routeFrame (p : LPort) (s : State) (f : Frame) : Prop :=
  f.type = 5 ∧ f.dest = 0 ∧ f.hops = 0 ∧ f.entries.toNat = s.jrx.routes.length + 1 ∧ f.body = routeBody (advert s p)

/-- A turn of the routes leaves the table, the identifier and the mark of a change alone. -/
theorem sendRoutes_reads {β : Type} (g : Joryx → β) (hports : ∀ (j : Joryx) ps, g { j with ports := ps } = g j)
    (hseq : ∀ (j : Joryx) n, g { j with seq := n } = g j) (p : LPort) (s : State) : g (sendRoutes p s).jrx = g s.jrx := by
  refine eachOf_keeps (fun s => g s.jrx) _ _ s fun l t => ?_
  simp only [neighbourFrame, egress]
  split_ifs
  · exact (hports _ _).trans (hseq _ _)
  · exact (hports _ _).trans (hseq _ _)

theorem sendRoutes_port_other (p q : LPort) (s : State) (h : p ≠ q) :
    (sendRoutes q s).jrx.ports[p] = s.jrx.ports[p] := by
  refine eachOf_keeps (fun s => s.jrx.ports[p]) _ _ s fun l t => ?_
  simp only [neighbourFrame, egress]
  split_ifs <;> simp [jrxCount, h]

theorem sendRoutes_same (p q : LPort) {s t : State} (h : p ≠ q) (ht : SameJoryx p s t) : SameJoryx p s (sendRoutes q t) := by
  obtain ⟨hport, hroutes, hid, hpower⟩ := ht
  refine ⟨(sendRoutes_port_other p q t h).trans hport, ?_, ?_, ?_⟩
  · exact (sendRoutes_reads (·.routes) (fun _ _ => rfl) (fun _ _ => rfl) q t).trans hroutes
  · exact (sendRoutes_reads (·.nodeId) (fun _ _ => rfl) (fun _ _ => rfl) q t).trans hid
  · simpa using hpower

/-- The turn of a port whose queue has space puts the frame of the table at its end. -/
theorem sendRoutes_port (p : LPort) {s t : State} (hsmall : s.jrx.routes.length ≤ 31)
    (hroom : s.jrx.ports[p].egress.length < 64) (ht : SameJoryx p s t) :
    ∃ f, (sendRoutes p t).jrx.ports[p].egress = s.jrx.ports[p].egress ++ [f] ∧ routeFrame p s f := by
  obtain ⟨hport, hroutes, hid, _⟩ := ht
  have hadvert : advert t p = advert s p := by simp only [advert, hid, hroutes]
  have hlen := advert_length s p
  rw [sendRoutes_small p t (by rw [hroutes]; exact hsmall), neighbourFrame_room _ _ _ _ _ (by rw [hport]; exact hroom),
    hadvert]
  refine ⟨newFrame t 0 0 5 (advert s p).length 0 (routeBody (advert s p)), ?_, rfl, rfl, rfl, ?_, rfl⟩
  · rw [← hport]
    simp
  · simp only [newFrame, BitVec.toNat_ofNat, hlen]
    omega

/-- The turn of a port when the table goes out. -/
def routeTurn (p : LPort) (s : State) : State := if txRuns s p then sendRoutes p s else s

theorem sendAllRoutes_eq (s : State) : sendAllRoutes s = eachPort routeTurn s := rfl

theorem sendAllRoutes_only (s : State) : Claims.Only [.jrx] s (sendAllRoutes s) :=
  eachPort_only (fun p t => only_ite (only_of_kept (xs := [.jrx]) (sendRoutes_keeps p t)) (only_refl _ t)) s

/-- What sending the table brings to each port: a frame where the line logic is ON, and nothing else (R67). -/
theorem sendAllRoutes_port (p : LPort) (s : State) (hsmall : s.jrx.routes.length ≤ 31)
    (hroom : s.jrx.ports[p].egress.length < 64) :
    (isOn s (.ld p) = false → (sendAllRoutes s).jrx.ports[p] = s.jrx.ports[p]) ∧
    (isOn s (.ld p) = true → ∃ f, (sendAllRoutes s).jrx.ports[p].egress = s.jrx.ports[p].egress ++ [f] ∧
      routeFrame p s f) := by
  rw [sendAllRoutes_eq]
  refine eachPort_turn (f := routeTurn) (Q := SameJoryx p s) (P := fun t => (isOn s (.ld p) = false → t.jrx.ports[p] = s.jrx.ports[p]) ∧
    (isOn s (.ld p) = true → ∃ f, t.jrx.ports[p].egress = s.jrx.ports[p].egress ++ [f] ∧ routeFrame p s f)) p
    (fun q hq t ht => ?_) (fun t ht => ?_) (fun q hq t ht => ?_) ⟨rfl, rfl, rfl, rfl⟩ <;>
    unfold routeTurn
  · split_ifs
    · exact sendRoutes_same p q hq.symm ht
    · exact ht
  · obtain ⟨hport, -, -, hpower⟩ := id ht
    have hon : txRuns t p = isOn s (.ld p) := by simp only [txRuns, isOn, domSt_of_power hpower]
    rw [hon]
    refine ⟨fun hoff => ?_, fun hon => ?_⟩
    · rw [if_neg (by simp [hoff])]
      exact hport
    · rw [if_pos hon]
      exact sendRoutes_port p hsmall hroom ht
  · split_ifs
    · rw [sendRoutes_port_other p q t hq.symm]
      exact ht
    · exact ht

theorem sendAllRoutes_reads {β : Type} (g : Joryx → β) (hports : ∀ (j : Joryx) ps, g { j with ports := ps } = g j)
    (hseq : ∀ (j : Joryx) n, g { j with seq := n } = g j) (s : State) : g (sendAllRoutes s).jrx = g s.jrx := by
  have hturn : ∀ (p : LPort) (t : State), g (routeTurn p t).jrx = g t.jrx := by
    intro p t
    unfold routeTurn
    split_ifs
    · exact sendRoutes_reads g hports hseq p t
    · rfl
  simp only [sendAllRoutes_eq, eachPort, hturn]

theorem routeTimer_acts (s : State) (hruns : jgRuns s = true) (hid : s.jrx.nidValid = true) :
    routeTimer s = sendAllRoutes s := by
  simp [routeTimer, hruns, hid]

theorem routeChangeSend_acts (s : State) (hruns : jgRuns s = true) (hid : s.jrx.nidValid = true)
    (hchanged : s.jrx.routesChanged = true) :
    routeChangeSend s = sendAllRoutes (modJrx (fun j => { j with routesChanged := false }) s) := by
  simp [routeChangeSend, hruns, hid, hchanged]

theorem helloTimer_acts (p : LPort) (s : State) (hruns : jgRuns s = true) (hon : isOn s (.ld p) = true) :
    helloTimer p s = neighbourFrame p 4 0 (uidWords ++ [word [(31, 31, b2n s.jrx.nidValid), (30, 29, p.val)]]) s := by
  simp [helloTimer, hruns, txRuns, hon]

end Sys2Proof.Machine

open Sys2Proof Sys2Proof.Machine

/-- Settles O43: the queue takes the requests in order while they fit, and each frame to a neighbour goes to the end of the
queue of its port, which has space. -/
theorem joryxEventsComplete : Obligations.JoryxEventsComplete := by
  intro s
  refine ⟨fun j m rest hw => ⟨fun hfit => ?_, fun hfull => ?_, ?_⟩, fun d ch w hfind => ?_, fun p hruns hon hroom => ?_,
    fun hruns hid hsmall hroom => ⟨?_, fun hchanged => ?_⟩, fun n hroute => ?_⟩
  · obtain ⟨more, hwords, hlen⟩ := pourJ_fits j m rest s hw hfit
    exact ⟨pourJ j s, more, rfl, pourJ_only j s, hwords, hlen⟩
  · exact ⟨pourJ j s, rfl, pourJ_full j m rest s hw hfull⟩
  · exact congrArg Host.Outcome.next (jrxMbxDrop_cons j m rest s hw)
  · refine ⟨_, congrArg Host.Outcome.next (jrxSendTimeout_some d ch w s hfind), modJrx_only _ s, ?_⟩
    intro v hv hsame
    simp [hsame.1, hsame.2] at hv
  · refine ⟨_, newFrame s 0 0 4 0 0 (uidWords ++ [word [(31, 31, b2n s.jrx.nidValid), (30, 29, p.val)]]),
      congrArg Host.Outcome.next (helloTimer_acts p s hruns hon), only_of_kept (neighbourFrame_keeps ..), ?_, rfl, rfl, rfl,
      rfl, rfl, ?_⟩
    · rw [neighbourFrame_room _ _ _ _ _ hroom]
      simp
    · rw [neighbourFrame_room _ _ _ _ _ hroom]
      rfl
  · exact ⟨_, congrArg Host.Outcome.next (routeTimer_acts s hruns hid), sendAllRoutes_only s,
      sendAllRoutes_reads (·.routes) (fun _ _ => rfl) (fun _ _ => rfl) s, fun p => sendAllRoutes_port p s hsmall (hroom p)⟩
  · have hrun := routeChangeSend_acts s hruns hid hchanged
    refine ⟨_, congrArg Host.Outcome.next hrun, only_trans (modJrx_only _ s) (sendAllRoutes_only _), ?_, fun p hon => ?_⟩
    · exact sendAllRoutes_reads (·.routesChanged) (fun _ _ => rfl) (fun _ _ => rfl) _
    · obtain ⟨f, hegress, htype, -, -, -, hbody⟩ := (sendAllRoutes_port p
        (modJrx (fun j => { j with routesChanged := false }) s) hsmall (hroom p)).2 hon
      exact ⟨f, hegress, htype, hbody⟩
  · exact congrArg Host.Outcome.next (if_pos hroute)
end

section
/-! PROOF. The superframe state of the ports, one lemma for each operation of training, of the Dial and of a transmit boundary
that leaves it alone. -/

namespace Sys2Proof.Machine

theorem eachOf_sf {α : Type} (l : List α) (f : α → State → State) (q : LPort) (s : State)
    (h : ∀ x s, (f x s).ports[q].sf = s.ports[q].sf) : (eachOf l f s).ports[q].sf = s.ports[q].sf :=
  eachOf_keeps (fun s => s.ports[q].sf) l f s h

theorem doIf_sf (c : Bool) (f : State → State) (q : LPort) (s : State)
    (h : ∀ s, (f s).ports[q].sf = s.ports[q].sf) : (doIf c f s).ports[q].sf = s.ports[q].sf := by
  unfold doIf
  split
  · exact h s
  · rfl

theorem ite_sf {c : Prop} [Decidable c] {q : LPort} {s t u : State} (ht : t.ports[q].sf = s.ports[q].sf)
    (hu : u.ports[q].sf = s.ports[q].sf) : (if c then t else u).ports[q].sf = s.ports[q].sf := by
  split
  · exact ht
  · exact hu

/-- The transmit side of Complication steps its fade and takes a switch that waits (R146). -/
theorem nlcTxBoundary_cases (p : LPort) (s : State) :
    ∃ f, nlcTxBoundary p s = modNlc p f s ∨ ∃ u, nlcTxBoundary p s = txSwitch p u (modNlc p f s) := by
  simp only [nlcTxBoundary]
  split
  · exact ⟨_, Or.inr ⟨_, rfl⟩⟩
  · exact ⟨_, Or.inl rfl⟩

theorem modTr_sf (p : LPort) (f : Train → Train) (q : LPort) (s : State) :
    (modTr p f s).ports[q].sf = s.ports[q].sf :=
  modPort_sf p q _ s fun _ => rfl

theorem acqDescs_sf (p : LPort) (q : LPort) (s : State) :
    (acqDescs p s).ports[q].sf = s.ports[q].sf := by
  simp only [acqDescs, modTr_sf]

theorem acqFormats_sf (p : LPort) (q : LPort) (s : State) :
    (acqFormats p s).ports[q].sf = s.ports[q].sf := by
  simp only [acqFormats, modNlc_sf, acqDescs_sf]

theorem sendMsg_sf (p : LPort) (type : BitVec 4) (body : List Word) (q : LPort) (s : State) :
    (sendMsg p type body s).ports[q].sf = s.ports[q].sf := by
  simp only [sendMsg, modTr_sf]

theorem proposeAt_sf (p : LPort) (n : Psfn) (desc : Word) (kind : BitVec 2) (q : LPort) (s : State) :
    (proposeAt p n desc kind s).ports[q].sf = s.ports[q].sf := by
  simp only [proposeAt, modTr_sf, sendMsg_sf]

theorem propose_sf (p : LPort) (desc : Word) (g a : BitVec 8) (kind : BitVec 2) (q : LPort) (s : State) :
    (propose p desc g a kind s).ports[q].sf = s.ports[q].sf := by
  simp only [propose, modTr_sf, tookFree_ports, sendMsg_sf]

theorem actChoice_sf (p : LPort) (desc : Word) (kind : BitVec 2) (q : LPort) (s : State) :
    (actChoice p desc kind s).ports[q].sf = s.ports[q].sf := by
  unfold actChoice
  refine ite_sf (modTr_sf ..) (ite_sf ?_ (propose_sf ..))
  cases rateTxAt s p with
  | none => exact modTr_sf ..
  | some n => exact proposeAt_sf ..

theorem adcMeasure_sf (p : LPort) (levels : Vector (BitVec 16) 4) (clips : Vector Nat 4) (q : LPort) (s : State) :
    (adcMeasure p levels clips s).ports[q].sf = s.ports[q].sf := by
  unfold adcMeasure
  split <;> simp only [modFront_sf]

theorem setPort_sf (p : LPort) (st : PortState) (q : LPort) (s : State) :
    (setPort p st s).ports[q].sf = s.ports[q].sf := by
  simp only [setPort]
  split <;> simp only [modTr_sf, failClients_keeps, modMap_ports]

theorem modTr2_sf (p : LPort) (f : Train2 → Train2) (q : LPort) (s : State) :
    (modTr2 p f s).ports[q].sf = s.ports[q].sf :=
  modPort_sf p q _ s fun _ => rfl

theorem enterTraffic_sf (p : LPort) (q : LPort) (s : State) :
    (enterTraffic p s).ports[q].sf = s.ports[q].sf := by
  simp only [enterTraffic, setPort_sf, modTr_sf, modTr2_sf]

theorem leaveCommit_sf (p : LPort) (q : LPort) (s : State) :
    (leaveCommit p s).ports[q].sf = s.ports[q].sf := by
  simp only [leaveCommit]
  split <;> simp only [enterTraffic_sf]

theorem phaseChoice_sf (p : LPort) (q : LPort) (s : State) :
    (phaseChoice p s).ports[q].sf = s.ports[q].sf := by
  unfold phaseChoice
  split <;> simp only [actChoice_sf, modTr_sf]

theorem setPhase_sf (p : LPort) (ph : Phase) (q : LPort) (s : State) :
    (setPhase p ph s).ports[q].sf = s.ports[q].sf := by
  simp only [setPhase, modTr_sf]

theorem takePolicy_sf (p : LPort) (q : LPort) (s : State) :
    (takePolicy p s).ports[q].sf = s.ports[q].sf := by
  simp only [takePolicy, modTr_sf]

theorem rateTaken_sf (p : LPort) (k : Nat) (q : LPort) (s : State) :
    (rateTaken p k s).ports[q].sf = s.ports[q].sf := by
  unfold rateTaken
  split <;> simp only [modTr2_sf]

theorem dropRates_sf (p : LPort) (q : LPort) (s : State) :
    (dropRates p s).ports[q].sf = s.ports[q].sf := by
  simp only [dropRates]
  split <;> simp only [rateTaken_sf, dropEvs_keeps]

theorem cancelSwitches_sf (primed : Bool) (p : LPort) (q : LPort) (s : State) :
    (cancelSwitches primed p s).ports[q].sf = s.ports[q].sf := by
  simp only [cancelSwitches, modTr_sf, dropEvs_keeps]

theorem cancelTrain_sf (p : LPort) (q : LPort) (s : State) :
    (cancelTrain p s).ports[q].sf = s.ports[q].sf := by
  simp only [cancelTrain, modTr2_sf, dropRates_sf, cancelSwitches_sf]

theorem startAttempt_sf (p : LPort) (q : LPort) (s : State) :
    (startAttempt p s).ports[q].sf = s.ports[q].sf := by
  unfold startAttempt
  split <;> simp only [modRx_sf, setAlarm_keeps]

theorem maybeAcquire_sf (p : LPort) (q : LPort) (s : State) :
    (maybeAcquire p s).ports[q].sf = s.ports[q].sf := by
  simp only [maybeAcquire]
  split <;> simp only [startAttempt_sf]

theorem refreshPort_sf (p : LPort) (q : LPort) (s : State) :
    (refreshPort p s).ports[q].sf = s.ports[q].sf := by
  simp only [refreshPort, modFront_sf]

theorem refresh_sf (q : LPort) (s : State) :
    (refresh s).ports[q].sf = s.ports[q].sf := by
  simp only [refresh, eachPort, refreshPort_sf]

theorem enterMuted_sf (p : LPort) (q : LPort) (s : State) :
    (enterMuted p s).ports[q].sf = s.ports[q].sf := by
  simp only [enterMuted]
  split <;> simp only [setPort_sf, cancelTrain_sf, modTr_sf, modTr2_sf, poolLeave_keeps, maybeAcquire_sf, refresh_sf, acqDescs_sf, acqFormats_sf]

theorem enterAcquire_sf (p : LPort) (q : LPort) (s : State) :
    (enterAcquire p s).ports[q].sf = s.ports[q].sf := by
  simp only [enterAcquire, setPort_sf, cancelTrain_sf, modTr_sf, modTr2_sf, maybeAcquire_sf, refresh_sf, poolEnter_keeps, acqFormats_sf]

theorem trainFail_sf (p : LPort) (reason : Nat) (sendAbort counts : Bool) (q : LPort) (s : State) :
    (trainFail p reason sendAbort counts s).ports[q].sf = s.ports[q].sf := by
  simp only [trainFail]
  (repeat' split) <;> simp only [modTr2_sf, modTr_sf, enterMuted_sf, enterAcquire_sf, sendMsg_sf]

theorem choiceFailed_sf (p : LPort) (kind reason : Nat) (q : LPort) (s : State) :
    (choiceFailed p kind reason s).ports[q].sf = s.ports[q].sf := by
  simp only [choiceFailed]
  (repeat' split) <;> simp only [trainFail_sf, setAlarm_keeps]

theorem sendChoice_sf (p : LPort) (kind rate : Nat) (q : LPort) (s : State) :
    (sendChoice p kind rate s).ports[q].sf = s.ports[q].sf := by
  refine Eq.trans ?_ (takePolicy_sf p q s)
  cases h : choiceOf (takePolicy p s) p kind rate with
  | fail reason => simp only [sendChoice, h, choiceFailed_sf]
  | take c margin slots =>
    simp only [sendChoice, h]
    exact ite_sf rfl (sendMsg_sf ..)

theorem leaveTune_sf (p : LPort) (q : LPort) (s : State) :
    (leaveTune p s).ports[q].sf = s.ports[q].sf := by
  simp only [leaveTune]
  split <;> simp only [phaseChoice_sf, setPhase_sf, sendChoice_sf]

theorem sendPlan_sf (p : LPort) (t : Tune) (q : LPort) (s : State) :
    (sendPlan p t s).ports[q].sf = s.ports[q].sf := by
  simp only [sendPlan, tookFree_ports, sendMsg_sf, modTr_sf]

theorem startTune_sf (p : LPort) (q : LPort) (s : State) :
    (startTune p s).ports[q].sf = s.ports[q].sf := by
  simp only [startTune, sendPlan_sf]

theorem leaveSelect_sf (p : LPort) (q : LPort) (s : State) :
    (leaveSelect p s).ports[q].sf = s.ports[q].sf := by
  simp only [leaveSelect]
  split_ifs <;> simp only [setPhase_sf, modTr_sf, startTune_sf]

theorem leaveProbe_sf (p : LPort) (q : LPort) (s : State) :
    (leaveProbe p s).ports[q].sf = s.ports[q].sf := by
  simp only [leaveProbe]
  split <;> simp only [phaseChoice_sf, setPhase_sf, sendChoice_sf]

theorem leaveCapability_sf (p : LPort) (q : LPort) (s : State) :
    (leaveCapability p s).ports[q].sf = s.ports[q].sf := by
  cases h : s.ports[p].tr.farCap with
  | none => simp only [leaveCapability, h]
  | some c =>
    simp only [leaveCapability, h]
    exact ite_sf (ite_sf (ite_sf (setPhase_sf ..) rfl) (trainFail_sf ..)) rfl

theorem advance_sf (p : LPort) (q : LPort) (s : State) :
    (advance p s).ports[q].sf = s.ports[q].sf := by
  simp only [advance, leaveCommit_sf, leaveTune_sf, leaveSelect_sf, leaveProbe_sf, leaveCapability_sf]

theorem endChange_sf (p : LPort) (q : LPort) (s : State) :
    (endChange p s).ports[q].sf = s.ports[q].sf := by
  unfold endChange
  split <;> simp only [maybeAcquire_sf, refresh_sf, modFront_sf]

theorem calWaited_sf (p : LPort) (q : LPort) (s : State) :
    (calWaited p s).ports[q].sf = s.ports[q].sf := by
  simp only [calWaited]
  split <;> simp only [endChange_sf, enterAcquire_sf, modTr_sf, maybeAcquire_sf]

theorem modCal_sf (p : LPort) (f : Cal → Cal) (q : LPort) (s : State) :
    (modCal p f s).ports[q].sf = s.ports[q].sf :=
  modPort_sf p q _ s fun _ => rfl

theorem calAbort_sf (p : LPort) (q : LPort) (s : State) :
    (calAbort p s).ports[q].sf = s.ports[q].sf := by
  unfold calAbort
  split <;> simp only [calWaited_sf, ring_keeps, modCal_sf]

theorem enterHoldover_sf (primed : Bool) (p : LPort) (q : LPort) (s : State) :
    (enterHoldover primed p s).ports[q].sf = s.ports[q].sf := by
  simp only [enterHoldover, setPort_sf, cancelSwitches_sf, modTr_sf, modTr2_sf]

theorem calBoundary_sf (p : LPort) (q : LPort) (s : State) :
    (calBoundary p s).ports[q].sf = s.ports[q].sf := by
  simp only [calBoundary, modCal_sf]

theorem calSnap_sf (p : LPort) (q : LPort) (s : State) :
    (calSnap p s).ports[q].sf = s.ports[q].sf := by
  simp only [calSnap, modCal_sf]

theorem calRetarget_sf (p : LPort) (q : LPort) (s : State) :
    (calRetarget p s).ports[q].sf = s.ports[q].sf := by
  simp only [calRetarget, modCal_sf]

theorem calWriteApply_sf (ps ws : List Word) (q : LPort) (s : State) :
    (calWriteApply ps ws s).ports[q].sf = s.ports[q].sf := by
  simp only [calWriteApply, calRetarget_sf, modCal_sf]

theorem calWriteExact_sf (ps ws : List Word) (q : LPort) (s : State) :
    (calWriteExact ps ws s).ports[q].sf = s.ports[q].sf := by
  simp only [calWriteExact]
  split <;> simp only [calWriteApply_sf, modCal_sf]

theorem dropTxSwitch_sf (p : LPort) (q : LPort) (s : State) :
    (dropTxSwitch p s).ports[q].sf = s.ports[q].sf := by
  simp only [dropTxSwitch, modTr_sf, dropEvs_keeps]

theorem dropRxSwitch_sf (p : LPort) (q : LPort) (s : State) :
    (dropRxSwitch p s).ports[q].sf = s.ports[q].sf := by
  simp only [dropRxSwitch, modTr_sf, dropEvs_keeps]

theorem cancelRate_sf (p : LPort) (q : LPort) (s : State) :
    (cancelRate p s).ports[q].sf = s.ports[q].sf := by
  unfold cancelRate
  refine (modTr2_sf ..).trans (eachOf_sf _ _ q s fun r t => ?_)
  simp only [modTr_sf, dropEvs_keeps]
  split_ifs <;> simp only [dropTxSwitch_sf, dropRxSwitch_sf]

theorem capIn_sf (p : LPort) (b : List Word) (q : LPort) (s : State) :
    (capIn p b s).ports[q].sf = s.ports[q].sf := by
  simp only [capIn, modTr_sf]

theorem cellSent_sf (p : LPort) (q : LPort) (s : State) :
    (cellSent p s).ports[q].sf = s.ports[q].sf := by
  unfold cellSent
  split <;> simp only [tookFree_ports, modTr_sf]

theorem repropose_sf (p : LPort) (q : LPort) (s : State) :
    (repropose p s).ports[q].sf = s.ports[q].sf := by
  unfold repropose
  (repeat' split) <;> simp only [modTr_sf, propose_sf]

theorem commitLate_sf (p : LPort) (c : Commit) (q : LPort) (s : State) :
    (commitLate p c s).ports[q].sf = s.ports[q].sf := by
  simp only [commitLate, repropose_sf, sendMsg_sf, modTr2_sf]

theorem planLate_sf (p : LPort) (x : Tune) (q : LPort) (s : State) :
    (planLate p x s).ports[q].sf = s.ports[q].sf := by
  simp only [planLate, modTr2_sf, sendPlan_sf, sendMsg_sf]

theorem commitAck_sf (p : LPort) (b : List Word) (q : LPort) (s : State) :
    (commitAck p b s).ports[q].sf = s.ports[q].sf := by
  cases h : namesTx (b.getD 0 0) s.ports[p].tr with
  | some c =>
    simp only [commitAck, h]
    exact ite_sf rfl (ite_sf (commitLate_sf ..) (by simp only [enterSwitch_keeps, modTr_sf]))
  | none =>
    cases h' : namesPlan (b.getD 0 0) s.ports[p].tr with
    | some x =>
      simp only [commitAck, h, h']
      exact ite_sf rfl (ite_sf (planLate_sf ..) (by simp only [enterPlan_keeps, modTr_sf]))
    | none => simp only [commitAck, h, h']

theorem dropRxPlan_sf (p : LPort) (q : LPort) (s : State) :
    (dropRxPlan p s).ports[q].sf = s.ports[q].sf := by
  simp only [dropRxPlan, modTr_sf, dropPlan_keeps]

theorem commitCancel_sf (p : LPort) (b : List Word) (q : LPort) (s : State) :
    (commitCancel p b s).ports[q].sf = s.ports[q].sf := by
  simp only [commitCancel]
  refine ite_sf (dropRxSwitch_sf ..) (ite_sf ?_ (ite_sf (dropRxPlan_sf ..) ?_))
  · simp only [repropose_sf, dropEvs_keeps]
  · cases namesPlan (b.getD 0 0) s.ports[p].tr with
    | some x => simp only [sendPlan_sf, dropPlan_keeps]
    | none => rfl

theorem dueRetune_sf (p : LPort) (q : LPort) (s : State) :
    (dueRetune p s).ports[q].sf = s.ports[q].sf := by
  simp only [dueRetune]
  split_ifs <;> simp only [modTr_sf, startTune_sf]

theorem takeWaiting_sf (p : LPort) (q : LPort) (s : State) :
    (takeWaiting p s).ports[q].sf = s.ports[q].sf := by
  unfold takeWaiting
  cases s.ports[p].tr.waitChoice with
  | none => rfl
  | some x => exact ite_sf (modTr_sf ..) ((actChoice_sf ..).trans (modTr_sf ..))

theorem nextChoice_sf (p : LPort) (q : LPort) (s : State) :
    (nextChoice p s).ports[q].sf = s.ports[q].sf := by
  simp only [nextChoice, dueRetune_sf, takeWaiting_sf]

theorem nakCommit_sf (p : LPort) (why : Nat) (c : Commit) (q : LPort) (s : State) :
    (nakCommit p why c s).ports[q].sf = s.ports[q].sf := by
  simp only [nakCommit]
  (repeat' split) <;> simp only [nextChoice_sf, dropTxSwitch_sf, commitLate_sf, trainFail_sf, modTr_sf]

theorem nakPlan_sf (p : LPort) (why : Nat) (x : Tune) (q : LPort) (s : State) :
    (nakPlan p why x s).ports[q].sf = s.ports[q].sf := by
  unfold nakPlan
  (repeat' split) <;> simp only [planLate_sf, trainFail_sf, dueRetune_sf, modTr_sf]

theorem commitNak_sf (p : LPort) (b : List Word) (q : LPort) (s : State) :
    (commitNak p b s).ports[q].sf = s.ports[q].sf := by
  cases h : namesTx (b.getD 0 0) s.ports[p].tr with
  | some c => simp only [commitNak, h, nakCommit_sf]
  | none =>
    cases h' : namesPlan (b.getD 0 0) s.ports[p].tr with
    | some x => simp only [commitNak, h, h', nakPlan_sf]
    | none => simp only [commitNak, h, h']

theorem commitReq_sf (p : LPort) (label : Psfn) (b : List Word) (q : LPort) (s : State) :
    (commitReq p label b s).ports[q].sf = s.ports[q].sf := by
  simp only [commitReq]
  split <;> simp only [enterSwitch_keeps, modTr_sf, sendMsg_sf]

theorem countAbort_sf (p : LPort) (q : LPort) (s : State) :
    (countAbort p s).ports[q].sf = s.ports[q].sf := by
  simp only [countAbort, modTr2_sf]

theorem degradeTimer_sf (p : LPort) (q : LPort) (s : State) :
    (degradeTimer p s).ports[q].sf = s.ports[q].sf := by
  simp only [degradeTimer]
  split <;> simp only [sendChoice_sf]

theorem endMute_sf (p : LPort) (q : LPort) (s : State) :
    (endMute p s).ports[q].sf = s.ports[q].sf := by
  simp only [endMute, modFront_sf]

theorem rxSet_sf (p : LPort) (i : Fin 8) (w : Word) (q : LPort) (s : State) :
    (rxSet p i w s).ports[q].sf = s.ports[q].sf := by
  simp only [rxSet, modRx_sf]

theorem rxSetSel_sf (p : LPort) (ps : List Word) (is : List (Fin 8)) (q : LPort) (s : State) :
    (rxSetSel p ps is s).ports[q].sf = s.ports[q].sf :=
  eachOf_sf _ _ q s fun i t => rxSet_sf ..

theorem rxExact_sf (ps : List Word) (q : LPort) (s : State) :
    (rxExact ps s).ports[q].sf = s.ports[q].sf := by
  simp only [rxExact, rxSetSel_sf]

theorem modTx_sf (p : LPort) (f : Tx → Tx) (q : LPort) (s : State) :
    (modTx p f s).ports[q].sf = s.ports[q].sf :=
  modPort_sf p q _ s fun _ => rfl

theorem txFilters_sf (p : LPort) (ps ws : List Word) (q : LPort) (s : State) :
    (txFilters p ps ws s).ports[q].sf = s.ports[q].sf := by
  unfold txFilters
  split_ifs <;> simp only [modTx_sf]

theorem txExact_sf (ps ws : List Word) (q : LPort) (s : State) :
    (txExact ps ws s).ports[q].sf = s.ports[q].sf := by
  unfold txExact
  split <;> simp only [modTx_sf, txFilters_sf]

theorem nlcExact_sf (ps : List Word) (q : LPort) (s : State) :
    (nlcExact ps s).ports[q].sf = s.ports[q].sf := by
  simp only [nlcExact, rxSwitch_sf]

theorem exactEffect_sf (e : DialEv) (q : LPort) (s : State) :
    (exactEffect e s).ports[q].sf = s.ports[q].sf := by
  unfold exactEffect
  split <;> simp only [rxExact_sf, txExact_sf, nlcExact_sf, mapAddExact_keeps, dropClient_keeps, regenExact_keeps, calWriteExact_sf]

theorem txSwitch_sf (p : LPort) (u : NlcUse) (q : LPort) (s : State) :
    (txSwitch p u s).ports[q].sf = s.ports[q].sf := by
  simp only [txSwitch, modNlc_sf]

theorem txUse_sf (p : LPort) (u : NlcUse) (q : LPort) (s : State) :
    (txUse p u s).ports[q].sf = s.ports[q].sf := by
  unfold txUse
  split <;> simp only [txSwitch_sf]

theorem switchTx_sf (p : LPort) (d : Word) (g a : BitVec 8) (kind : BitVec 2) (q : LPort) (s : State) :
    (switchTx p d g a kind s).ports[q].sf = s.ports[q].sf := by
  unfold switchTx
  split <;> simp only [modTr_sf, txUse_sf, modNlc_sf, advance_sf, nextChoice_sf]

theorem rxUse_sf (p : LPort) (u : NlcUse) (q : LPort) (s : State) :
    (rxUse p u s).ports[q].sf = s.ports[q].sf := by
  unfold rxUse
  split <;> simp only [rxSwitch_sf]

theorem switchRx_sf (p : LPort) (n : Psfn) (d : Word) (g a : BitVec 8) (kind : BitVec 2) (q : LPort) (s : State) :
    (switchRx p n d g a kind s).ports[q].sf = s.ports[q].sf := by
  simp only [switchRx, modTr2_sf, modTr_sf, beCautious_keeps, rxUse_sf]

theorem failIfTraining_sf (p : LPort) (reason : Nat) (sendAbort : Bool) (q : LPort) (s : State) :
    (failIfTraining p reason sendAbort s).ports[q].sf = s.ports[q].sf := by
  unfold failIfTraining
  split <;> simp only [trainFail_sf]

theorem farTune_sf (p : LPort) (type kind : Nat) (q : LPort) (s : State) :
    (farTune p type kind s).ports[q].sf = s.ports[q].sf := by
  unfold farTune
  split <;> simp only [modTr_sf]

theorem headAcked_sf (p : LPort) (q : LPort) (s : State) :
    (headAcked p s).ports[q].sf = s.ports[q].sf := by
  simp only [headAcked, modTr_sf]

theorem settleAlternate_sf (p : LPort) (q : LPort) (s : State) :
    (settleAlternate p s).ports[q].sf = s.ports[q].sf := by
  cases h : s.ports[p].tr2.alternate with
  | none => simp only [settleAlternate, h]
  | some x =>
    obtain ⟨a, b, first⟩ := x
    simp only [settleAlternate, h]
    refine ite_sf (ite_sf ?_ ?_) (ite_sf ?_ ?_) <;> simp only [sendMsg_sf, modTr_sf, modTr2_sf]

theorem holdoverLocked_sf (p : LPort) (q : LPort) (s : State) :
    (holdoverLocked p s).ports[q].sf = s.ports[q].sf := by
  simp only [holdoverLocked]
  split <;> simp only [setPort_sf, settleAlternate_sf]

theorem switchAborted_sf (k : DialKind) (q : LPort) (s : State) :
    (switchAborted k s).ports[q].sf = s.ports[q].sf := by
  unfold switchAborted
  (repeat' split) <;> simp only [repropose_sf, sendMsg_sf, countAbort_sf, modTr_sf, sendPlan_sf, dropPlan_keeps, dropRxPlan_sf, rateTaken_sf]

theorem jumpAbort_sf (reason : Nat) (e : DialEv) (q : LPort) (s : State) :
    (jumpAbort reason e s).ports[q].sf = s.ports[q].sf := by
  unfold jumpAbort
  split <;> simp only [dialCount_keeps, switchAborted_sf, dropEvs_keeps, abortEvent_keeps]

theorem keyStep_sf (p : LPort) (q : LPort) (s : State) :
    (keyStep p s).ports[q].sf = s.ports[q].sf := by
  unfold keyStep
  split <;> simp only [modFront_sf]

theorem tunePlan_sf (p : LPort) (label : Psfn) (b : List Word) (q : LPort) (s : State) :
    (tunePlan p label b s).ports[q].sf = s.ports[q].sf := by
  simp only [tunePlan]
  split_ifs <;> simp only [sendMsg_sf, enterPlan_keeps, modTr_sf, dropPlan_keeps]

theorem tuneReport_sf (p : LPort) (b : List Word) (q : LPort) (s : State) :
    (tuneReport p b s).ports[q].sf = s.ports[q].sf := by
  cases h : s.ports[p].tr.tuneTx with
  | none => simp only [tuneReport, h]
  | some x =>
    simp only [tuneReport, h]
    refine ite_sf (ite_sf (sendPlan_sf ..) ((advance_sf ..).trans ?_)) rfl
    split_ifs <;> simp only [phaseChoice_sf, modNlc_sf, modTr_sf]

theorem trackIn_sf (p : LPort) (b : List Word) (q : LPort) (s : State) :
    (trackIn p b s).ports[q].sf = s.ports[q].sf := by
  simp only [trackIn]
  split <;> simp only [modTr_sf, degradeTimer_sf]

theorem scheduleRate_sf (p : LPort) (r : RateChange) (q : LPort) (s : State) :
    (scheduleRate p r s).ports[q].sf = s.ports[q].sf := by
  simp only [scheduleRate]
  refine (eachOf_sf _ _ q _ fun r t => ?_).trans ((eachOf_sf _ _ q _ fun x t => ?_).trans (modTr2_sf ..))
  · simp only [sendChoice_sf, phaseChoice_sf]
  · simp only [enterSwitch_keeps]

theorem pathIn_sf (p : LPort) (label : Psfn) (b : List Word) (q : LPort) (s : State) :
    (pathIn p label b s).ports[q].sf = s.ports[q].sf := by
  simp only [pathIn]
  split_ifs <;> simp only [sendMsg_sf, modTr2_sf, scheduleRate_sf, cancelRate_sf]

theorem sendCancel_sf (p : LPort) (r : RateChange) (q : LPort) (s : State) :
    (sendCancel p r s).ports[q].sf = s.ports[q].sf := by
  simp only [sendCancel, sendMsg_sf]

theorem pathAckEnd_sf (p : LPort) (op status node : Nat) (r : RateChange) (q : LPort) (s : State) :
    (pathAckEnd p op status node r s).ports[q].sf = s.ports[q].sf := by
  unfold pathAckEnd
  split_ifs <;> simp only [answerPath_keeps, modTr2_sf, sendCancel_sf, cancelRate_sf]

theorem pathAckIn_sf (p : LPort) (b : List Word) (q : LPort) (s : State) :
    (pathAckIn p b s).ports[q].sf = s.ports[q].sf := by
  simp only [pathAckIn]
  refine ite_sf (ite_sf (sendMsg_sf ..) (sendMsg_sf ..)) ?_
  cases s.ports[p].tr2.rate_ with
  | none => rfl
  | some r => exact ite_sf (pathAckEnd_sf ..) rfl

theorem message_sf (p : LPort) (label : Psfn) (type : Nat) (b : List Word) (q : LPort) (s : State) :
    (message p label type b s).ports[q].sf = s.ports[q].sf := by
  unfold message
  split <;> simp only [capIn_sf, modTr_sf, actChoice_sf, commitReq_sf, commitAck_sf, commitNak_sf, commitCancel_sf, tunePlan_sf, tuneReport_sf, trackIn_sf, pathIn_sf, pathAckIn_sf, failIfTraining_sf]

theorem nlcTxBoundary_sf (p : LPort) (q : LPort) (s : State) :
    (nlcTxBoundary p s).ports[q].sf = s.ports[q].sf := by
  obtain ⟨f, h | ⟨u, h⟩⟩ := nlcTxBoundary_cases p s
  · rw [h, modNlc_sf]
  · rw [h, txSwitch_sf, modNlc_sf]

theorem refJump_sf (r : RefCode) (new old : Psfn) (restart : Bool) (q : LPort) (s : State) :
    (refJump r new old restart s).ports[q].sf = s.ports[q].sf := by
  unfold refJump
  exact ite_sf (eachOf_sf _ _ q s fun e t => jumpAbort_sf ..) (by simp only [unhold_keeps])

theorem skewApply_sf (p : LPort) (q : LPort) (s : State) :
    (skewApply p s).ports[q].sf = s.ports[q].sf := by
  simp only [skewApply, setAlarm_keeps, modTx_sf]

theorem slewToRef_sf (p : LPort) (q : LPort) (s : State) :
    (slewToRef p s).ports[q].sf = s.ports[q].sf := by
  unfold slewToRef
  split <;> simp only [modFront_sf]

theorem snapshot_sf (p : LPort) (q : LPort) (s : State) :
    (snapshot p s).ports[q].sf = s.ports[q].sf := by
  simp only [snapshot, modRx_sf]

theorem startTraces_sf (p : LPort) (q : LPort) (s : State) :
    (startTraces p s).ports[q].sf = s.ports[q].sf := by
  unfold startTraces
  split <;> simp only [modTr2_sf]

theorem takeTraces_sf (p : LPort) (w : Vector Word 64) (old : Psfn) (q : LPort) (s : State) :
    (takeTraces p w old s).ports[q].sf = s.ports[q].sf := by
  simp only [takeTraces, evalTraces_keeps, modTr2_sf]

theorem trainIn_sf (p : LPort) (cell : List Word) (label : Psfn) (q : LPort) (s : State) :
    (trainIn p cell label s).ports[q].sf = s.ports[q].sf := by
  simp only [trainIn]
  (repeat' split) <;> simp only [headAcked_sf, farTune_sf, advance_sf, modTr_sf, message_sf]

theorem txStages_sf (p : LPort) (o : TxObs) (q : LPort) (s : State) :
    (txStages p o s).ports[q].sf = s.ports[q].sf := by
  unfold txStages
  refine (doIf_sf _ _ q _ fun t => ?_).trans ((skewApply_sf ..).trans (modTx_sf ..))
  simp only [nlcEval_keeps]

theorem txUnlocked_sf (p : LPort) (o : TxObs) (q : LPort) (s : State) :
    (txUnlocked p o s).ports[q].sf = s.ports[q].sf := by
  simp only [txUnlocked]
  split_ifs <;> simp only [rxWaiting_sf, adcMeasure_sf, calBoundary_sf]

end Sys2Proof.Machine
end

section
/-! PROOF. The receiver of the ports, one lemma for each operation of a loss of lock and of a jump that leaves it alone. -/

namespace Sys2Proof.Machine

/-- A change of a port that keeps its receiver keeps that of every port. -/
theorem modPort_rx (p q : LPort) (f : PortSt → PortSt) (s : State) (h : ∀ x, (f x).rx = x.rx) :
    (modPort p f s).ports[q].rx = s.ports[q].rx := by
  by_cases hq : q = p
  · subst hq; simp [h]
  · simp [hq]

theorem eachOf_rx {α : Type} (l : List α) (f : α → State → State) (q : LPort) (s : State)
    (h : ∀ x s, (f x s).ports[q].rx = s.ports[q].rx) : (eachOf l f s).ports[q].rx = s.ports[q].rx :=
  eachOf_keeps (fun s => s.ports[q].rx) l f s h

theorem ite_rx {c : Prop} [Decidable c] {q : LPort} {s t u : State} (ht : t.ports[q].rx = s.ports[q].rx)
    (hu : u.ports[q].rx = s.ports[q].rx) : (if c then t else u).ports[q].rx = s.ports[q].rx := by
  split
  · exact ht
  · exact hu

theorem modTr_rx (p : LPort) (f : Train → Train) (q : LPort) (s : State) :
    (modTr p f s).ports[q].rx = s.ports[q].rx :=
  modPort_rx p q _ s fun _ => rfl

theorem acqDescs_rx (p : LPort) (q : LPort) (s : State) :
    (acqDescs p s).ports[q].rx = s.ports[q].rx := by
  simp only [acqDescs, modTr_rx]

theorem modNlc_rx (p : LPort) (f : Nlc → Nlc) (q : LPort) (s : State) :
    (modNlc p f s).ports[q].rx = s.ports[q].rx :=
  modPort_rx p q _ s fun _ => rfl

theorem acqFormats_rx (p : LPort) (q : LPort) (s : State) :
    (acqFormats p s).ports[q].rx = s.ports[q].rx := by
  simp only [acqFormats, modNlc_rx, acqDescs_rx]

theorem cancelSwitches_rx (primed : Bool) (p : LPort) (q : LPort) (s : State) :
    (cancelSwitches primed p s).ports[q].rx = s.ports[q].rx := by
  simp only [cancelSwitches, modTr_rx, dropEvs_keeps]

theorem modTr2_rx (p : LPort) (f : Train2 → Train2) (q : LPort) (s : State) :
    (modTr2 p f s).ports[q].rx = s.ports[q].rx :=
  modPort_rx p q _ s fun _ => rfl

theorem rateTaken_rx (p : LPort) (k : Nat) (q : LPort) (s : State) :
    (rateTaken p k s).ports[q].rx = s.ports[q].rx := by
  unfold rateTaken
  split <;> simp only [modTr2_rx]

theorem dropRates_rx (p : LPort) (q : LPort) (s : State) :
    (dropRates p s).ports[q].rx = s.ports[q].rx := by
  simp only [dropRates]
  split <;> simp only [rateTaken_rx, dropEvs_keeps]

theorem cancelTrain_rx (p : LPort) (q : LPort) (s : State) :
    (cancelTrain p s).ports[q].rx = s.ports[q].rx := by
  simp only [cancelTrain, modTr2_rx, dropRates_rx, cancelSwitches_rx]

theorem countAbort_rx (p : LPort) (q : LPort) (s : State) :
    (countAbort p s).ports[q].rx = s.ports[q].rx := by
  simp only [countAbort, modTr2_rx]

theorem modSf_rx (p : LPort) (f : Sf → Sf) (q : LPort) (s : State) :
    (modSf p f s).ports[q].rx = s.ports[q].rx :=
  modPort_rx p q _ s fun _ => rfl

theorem modFront_rx (p : LPort) (f : Front → Front) (q : LPort) (s : State) :
    (modFront p f s).ports[q].rx = s.ports[q].rx :=
  modPort_rx p q _ s fun _ => rfl

theorem dropLock_rx (p : LPort) (q : LPort) (s : State) :
    (dropLock p s).ports[q].rx = s.ports[q].rx := by
  simp only [dropLock]
  split_ifs <;> simp only [modSf_rx, modFront_rx, refLost_keeps]

theorem dropRxPlan_rx (p : LPort) (q : LPort) (s : State) :
    (dropRxPlan p s).ports[q].rx = s.ports[q].rx := by
  simp only [dropRxPlan, modTr_rx, dropPlan_keeps]

theorem setPort_rx (p : LPort) (st : PortState) (q : LPort) (s : State) :
    (setPort p st s).ports[q].rx = s.ports[q].rx := by
  simp only [setPort]
  split <;> simp only [modTr_rx, failClients_keeps, modMap_ports]

theorem refreshPort_rx (p : LPort) (q : LPort) (s : State) :
    (refreshPort p s).ports[q].rx = s.ports[q].rx := by
  simp only [refreshPort, modFront_rx]

theorem refresh_rx (q : LPort) (s : State) :
    (refresh s).ports[q].rx = s.ports[q].rx := by
  simp only [refresh, eachPort, refreshPort_rx]

theorem enterHoldover_rx (primed : Bool) (p : LPort) (q : LPort) (s : State) :
    (enterHoldover primed p s).ports[q].rx = s.ports[q].rx := by
  simp only [enterHoldover, setPort_rx, cancelSwitches_rx, modTr_rx, modTr2_rx]

theorem sendMsg_rx (p : LPort) (type : BitVec 4) (body : List Word) (q : LPort) (s : State) :
    (sendMsg p type body s).ports[q].rx = s.ports[q].rx := by
  simp only [sendMsg, modTr_rx]

theorem settleAlternate_rx (p : LPort) (q : LPort) (s : State) :
    (settleAlternate p s).ports[q].rx = s.ports[q].rx := by
  cases h : s.ports[p].tr2.alternate with
  | none => simp only [settleAlternate, h]
  | some x =>
    obtain ⟨a, b, first⟩ := x
    simp only [settleAlternate, h]
    refine ite_rx (ite_rx ?_ ?_) (ite_rx ?_ ?_) <;> simp only [sendMsg_rx, modTr_rx, modTr2_rx]

theorem holdoverLocked_rx (p : LPort) (q : LPort) (s : State) :
    (holdoverLocked p s).ports[q].rx = s.ports[q].rx := by
  simp only [holdoverLocked]
  split <;> simp only [setPort_rx, settleAlternate_rx]

theorem propose_rx (p : LPort) (desc : Word) (g a : BitVec 8) (kind : BitVec 2) (q : LPort) (s : State) :
    (propose p desc g a kind s).ports[q].rx = s.ports[q].rx := by
  simp only [propose, modTr_rx, tookFree_ports, sendMsg_rx]

theorem repropose_rx (p : LPort) (q : LPort) (s : State) :
    (repropose p s).ports[q].rx = s.ports[q].rx := by
  unfold repropose
  (repeat' split) <;> simp only [modTr_rx, propose_rx]

theorem sendPlan_rx (p : LPort) (t : Tune) (q : LPort) (s : State) :
    (sendPlan p t s).ports[q].rx = s.ports[q].rx := by
  simp only [sendPlan, tookFree_ports, sendMsg_rx, modTr_rx]

theorem switchAborted_rx (k : DialKind) (q : LPort) (s : State) :
    (switchAborted k s).ports[q].rx = s.ports[q].rx := by
  unfold switchAborted
  (repeat' split) <;> simp only [repropose_rx, sendMsg_rx, countAbort_rx, modTr_rx, sendPlan_rx, dropPlan_keeps, dropRxPlan_rx, rateTaken_rx]

theorem jumpAbort_rx (reason : Nat) (e : DialEv) (q : LPort) (s : State) :
    (jumpAbort reason e s).ports[q].rx = s.ports[q].rx := by
  unfold jumpAbort
  split <;> simp only [dialCount_keeps, switchAborted_rx, dropEvs_keeps, abortEvent_keeps]

theorem unalign_rx (p : LPort) (q : LPort) (s : State) :
    (unalign p s).ports[q].rx = s.ports[q].rx := by
  simp only [unalign, modSf_rx]

theorem refJump_rx (r : RefCode) (new old : Psfn) (restart : Bool) (q : LPort) (s : State) :
    (refJump r new old restart s).ports[q].rx = s.ports[q].rx := by
  unfold refJump
  exact ite_rx (eachOf_rx _ _ q s fun e t => jumpAbort_rx ..) (by simp only [unhold_keeps])

end Sys2Proof.Machine
end

section
/-! PROOF. O59: received overhead and superframe lock (R43, R46, R51, R55, R57 to R59, R124, R245). -/

namespace Sys2Proof.Machine

/-! ### Received overhead -/

theorem bursts_ports (l : List Nat) (s : State) : (eachOf l (poolWord none) s).ports = s.ports :=
  eachOf_keeps State.ports l _ s fun _ _ => by simp only [poolWord_keeps]

/-- What the checks of a good SFOH leave alone: the counts of good and bad superframes, the PSFN, the format and the lock. -/
def Sf.runs (f : Sf) : (Nat × Nat × Psfn) × Word × Word × Word × Bool :=
  ((f.badRun, f.goodRun, f.lastGood), f.lastFmt, f.sfohBad, f.psfnMismatch, f.lock)

/-- A change of a port's superframe state, as it is after it. -/
theorem modSf_sf_same (p : LPort) (f : Sf → Sf) (s : State) : (modSf p f s).ports[p].sf = f s.ports[p].sf := by
  simp only [modSf_ports, vmod_same]

theorem watchCommit_runs (p : LPort) (w : Vector Word 64) (label : Psfn) (s : State) :
    (watchCommit p w label s).ports[p].sf.runs = s.ports[p].sf.runs := by
  cases h : s.ports[p].tr.rxCommit.filter fun _ => s.ports[p].sf.lock with
  | none =>
    simp only [watchCommit, h, modSf_sf_same]
    rfl
  | some c =>
    simp only [watchCommit, h, modTr_sf, modSf_sf_same]
    rfl

theorem checkBips_runs (p : LPort) (w : Vector Word 64) (s : State) :
    (checkBips p w s).ports[p].sf.runs = s.ports[p].sf.runs := by
  cases h : s.ports[p].sf.rxBips with
  | none =>
    simp only [checkBips, h, modSf_sf_same]
    rfl
  | some x =>
    simp only [checkBips, h, modSf_sf_same]
    rfl

theorem keepArrived_runs (p : LPort) (o : SfohObs) (good : Bool) (s : State) :
    (keepArrived p o good s).ports[p].sf.runs = s.ports[p].sf.runs := by
  rw [keepArrived, modSf_sf_same]
  rfl

theorem takeStatus_runs (p : LPort) (w2 : Word) (s : State) :
    (takeStatus p w2 s).ports[p].sf.runs = s.ports[p].sf.runs := by
  simp only [takeStatus]
  rw [modTr_sf, modSf_sf_same]
  rfl

/-- The path fields of a good SFOH are taken as they are (R248). -/
theorem takePath_sf (p : LPort) (w : Vector Word 64) (s : State) :
    (takePath p w s).ports[p].sf = { s.ports[p].sf with
      pathWord := w[12], eqWord := w[14], types := #v[w[15], w[16]], leads := #v[w[17], w[18]]
      ledger := Vector.ofFn fun i => w[(Fin.ofNat 64 (44 + i.val) : Fin 64)] } := by
  simp only [takePath, evalGroom, raiseAlarm_keeps, modSf_sf_same]

theorem takeCells_sf (p : LPort) (w : Vector Word 64) (label : Psfn) (q : LPort) (s : State) :
    (takeCells p w label s).ports[q].sf = s.ports[q].sf := by
  unfold takeCells
  split
  · simp only [trainIn_sf, cellIn_keeps]
  · rfl

theorem takePath_runs (p : LPort) (w : Vector Word 64) (s : State) :
    (takePath p w s).ports[p].sf.runs = s.ports[p].sf.runs := by
  rw [takePath_sf]
  rfl

theorem takePath_pathWord (p : LPort) (w : Vector Word 64) (s : State) : (takePath p w s).ports[p].sf.pathWord = w[12] := by
  rw [takePath_sf]

/-- The superframe state of a port once a good SFOH has been counted and its format looked at. -/
def sfohCounted (p : LPort) (o : SfohObs) (s : State) : State :=
  let n := sfohPsfn o.words
  let label := labelOf s p o.lag
  let s := countRuns p n label o.lag s
  checkFormat p o.words[5] (fmtAt s p label) s

/-- What the rest of the work of a good SFOH leaves of the runs. -/
theorem sfohTaken_runs (p : LPort) (o : SfohObs) (s : State) :
    (sfohTaken p o s).ports[p].sf.runs = (sfohCounted p o s).ports[p].sf.runs := by
  simp only [sfohTaken, takeCells_sf, holdoverLocked_sf, rxClients_keeps, takePath_runs, takeTraces_sf, takeStatus_runs,
    keepArrived_runs, watchCommit_runs, checkBips_runs, sfohCounted]

theorem sfohTaken_pathWord (p : LPort) (o : SfohObs) (s : State) :
    (sfohTaken p o s).ports[p].sf.pathWord = o.words[12] := by
  simp only [sfohTaken, takeCells_sf, holdoverLocked_sf, rxClients_keeps, takePath_pathWord]

/-- The runs after a good SFOH: the bad ones end, and the port counts towards the lock, or a mismatch (R57 to R59). -/
theorem sfohCounted_runs (p : LPort) (o : SfohObs) (s : State) :
    let f := s.ports[p].sf
    let g := (sfohCounted p o s).ports[p].sf
    let n := sfohPsfn o.words
    g.badRun = 0 ∧ g.lastGood = n ∧ g.lastFmt = o.words[5] ∧ g.sfohBad = f.sfohBad ∧
      (f.lock = false → g.goodRun = if 0 < f.goodRun ∧ n = f.lastGood + 1 then f.goodRun + 1 else 1) ∧
      (f.lock = true → g.psfnMismatch =
        if n = labelOf s p o.lag then f.psfnMismatch else f.psfnMismatch + 1) := by
  simp only [sfohCounted, checkFormat, countRuns, modSf_sf_same]
  refine ⟨trivial, trivial, trivial, ?_, fun hlock => ?_, fun hlock => ?_⟩
  · split_ifs <;> rfl
  · simp only [hlock, Bool.false_eq_true, if_false, Bool.and_eq_true, decide_eq_true_eq]
  · simp only [hlock, if_true]
    split_ifs <;> rfl

/-- A SFOH that is not good counts, and no field of it is taken (R46). -/
theorem sfohBad_sf (p : LPort) (o : SfohObs) (s : State) :
    let f := s.ports[p].sf
    let g := (sfohBad p o s).ports[p].sf
    g.sfohBad = f.sfohBad + 1 ∧ g.badRun = f.badRun + 1 ∧ g.goodRun = 0 ∧ g.pathWord = f.pathWord ∧ g.lock = f.lock := by
  simp only [sfohBad, rxClients_keeps, cellLost_keeps, keepArrived, modSf_sf_same, and_self]

theorem sfohReceive_runs (p : LPort) (o : SfohObs) (s : State) (hon : isOn s (.ld p) = true)
    (hal : s.ports[p].sf.aligned = true) (hpool : s.pool.ports[p].inPool = true) :
    sfohReceive p o s = if sfohGood o.words then sfohTaken p o (eachOf o.bursts (poolWord none) s)
      else sfohBad p o (eachOf o.bursts (poolWord none) s) := by
  simp only [sfohReceive, hon, hal, hpool, Bool.and_self, if_true]

theorem sfohReceiveCompletes : Claims.SfohReceiveCompletes := by
  intro p o s hon hal hpool f
  have hrun := sfohReceive_runs p o s hon hal hpool
  have hports := bursts_ports o.bursts s
  generalize eachOf o.bursts (poolWord none) s = u at hrun hports
  have hlabel : labelOf u p o.lag = labelOf s p o.lag := by simp only [labelOf, hports]
  have hruns := sfohTaken_runs p o u
  simp only [Sf.runs, Prod.mk.injEq] at hruns
  obtain ⟨⟨hb, hg, hl⟩, hf, hc, hm, -⟩ := hruns
  obtain ⟨hbad, hlast, hfmt, hcount, hgood, hmis⟩ := sfohCounted_runs p o u
  rw [hlabel] at hmis
  rw [hports] at hgood hmis hcount
  refine ⟨fun hno => ?_, fun hyes hlock => ?_, fun hyes hlock => ?_⟩
  · obtain ⟨hsfohBad, hbadRun, hgoodRun, hpath, hlock⟩ := sfohBad_sf p o u
    rw [hports] at hsfohBad hbadRun hpath hlock
    rw [if_neg (by simp [hno])] at hrun
    exact ⟨sfohBad p o u, congrArg Host.Outcome.next hrun, hsfohBad, hbadRun, hgoodRun, hpath, hlock⟩
  · rw [if_pos hyes] at hrun
    refine ⟨sfohTaken p o u, congrArg Host.Outcome.next hrun, ?_, ?_, ?_, ?_, ?_⟩
    · rw [hb, hbad]
    · rw [hl, hlast]
    · rw [sfohTaken_pathWord]
    · rw [hf, hfmt]
    · rw [hg, hgood hlock]
  · rw [if_pos hyes] at hrun
    refine ⟨sfohTaken p o u, congrArg Host.Outcome.next hrun, ?_, ?_⟩
    · rw [hc, hcount]
    · rw [hm, hmis hlock]

/-! ### Loss of lock and of alignment -/

/-- What the loss of the lock leaves of a port's superframe state: what reads neither the lock nor what goes with it. -/
theorem dropLock_reads {β : Type} (g : Sf → β) (hlock : ∀ f : Sf, g { f with
      lock := false, heldRx := some f.fly, goodRun := 0, misRun := 0 } = g f)
    (hregen : ∀ f : Sf, g { f with kRegen := none } = g f) (p q : LPort) (s : State) :
    g (dropLock p s).ports[q].sf = g s.ports[q].sf := by
  have hmod : ∀ (r : LPort) (h : Sf → Sf) (t : State), (∀ f, g (h f) = g f) →
      g (modSf r h t).ports[q].sf = g t.ports[q].sf := by
    intro r h t hh
    by_cases hr : q = r
    · subst hr
      rw [modSf_sf_same, hh]
    · simp only [modSf_ports, vmod_other _ _ _ _ hr]
  simp only [dropLock]
  split_ifs
  · simp only [refLost_keeps, modFront_sf]
    rw [hmod _ _ _ hregen, hmod _ _ _ hlock]
  · simp only [refLost_keeps]
    rw [hmod _ _ _ hlock]
  · rfl

theorem mate_ne (p : LPort) : mate p ≠ p := by revert p; decide

theorem dropLock_lock (p : LPort) (s : State) : (dropLock p s).ports[p].sf.lock = false := by
  simp only [dropLock]
  split_ifs with hlock hregen
  · simp only [refLost_keeps, modFront_sf, modSf_ports, vmod_other _ _ _ _ (mate_ne p).symm, vmod_same]
  · simp only [refLost_keeps, modSf_ports, vmod_same]
  · simpa using hlock

theorem lockLoss_sf (p q : LPort) (s : State) : (lockLoss p s).ports[q].sf = (dropLock p s).ports[q].sf := by
  by_cases hlock : s.ports[p].sf.lock = true
  · cases h : (dropLock p s).ports[p].tr.state <;>
      simp only [lockLoss, hlock, if_true, h, enterHoldover_sf, trainFail_sf]
  · simp only [lockLoss, dropLock, hlock, Bool.false_eq_true, if_false]

theorem unalign_sf (p : LPort) (s : State) :
    let f := s.ports[p].sf
    let g := (unalign p s).ports[p].sf
    g.aligned = false ∧ g.alignLoss = (if f.aligned then f.alignLoss + 1 else f.alignLoss) := by
  simp only [unalign, modSf_sf_same, and_self]

theorem ite_reads {β : Type} (g : State → β) {c : Prop} [Decidable c] {t u : State} {b : β} (ht : g t = b) (hu : g u = b) :
    g (if c then t else u) = b := by
  split
  · exact ht
  · exact hu

/-- How often the receiver has lost its signal is not changed by an acquisition. -/
theorem startAttempt_los (p q : LPort) (s : State) : (startAttempt p s).ports[q].rx.los = s.ports[q].rx.los := by
  simp only [startAttempt]
  split_ifs
  · simp only [setAlarm_keeps, modRx_ports]
    by_cases hq : q = p
    · subst hq
      simp only [vmod_same, Rx.drop]
    · simp only [vmod_other _ _ _ _ hq]
  · rfl

theorem maybeAcquire_los (p q : LPort) (s : State) : (maybeAcquire p s).ports[q].rx.los = s.ports[q].rx.los := by
  simp only [maybeAcquire]
  split_ifs
  · rfl
  · exact startAttempt_los p q s

theorem enterMuted_los (p q : LPort) (s : State) : (enterMuted p s).ports[q].rx.los = s.ports[q].rx.los := by
  simp only [enterMuted, maybeAcquire_los, refresh_rx]
  split_ifs <;> simp only [acqDescs_rx, acqFormats_rx, poolLeave_keeps, modTr2_rx, modTr_rx, setPort_rx, cancelTrain_rx]

theorem enterAcquire_los (p q : LPort) (s : State) : (enterAcquire p s).ports[q].rx.los = s.ports[q].rx.los := by
  simp only [enterAcquire, maybeAcquire_los, refresh_rx, poolEnter_keeps, acqFormats_rx, modTr2_rx, modTr_rx, setPort_rx,
    cancelTrain_rx]

theorem trainFail_los (p : LPort) (reason : Nat) (sendAbort counts : Bool) (q : LPort) (s : State) :
    (trainFail p reason sendAbort counts s).ports[q].rx.los = s.ports[q].rx.los := by
  refine ite_reads (fun s => s.ports[q].rx.los) ?_ (ite_reads (fun s => s.ports[q].rx.los) ?_ ?_) <;>
    simp only [enterMuted_los, enterAcquire_los, sendMsg_rx, modTr_rx, modTr2_rx]

theorem lockLoss_los (p q : LPort) (s : State) : (lockLoss p s).ports[q].rx.los = s.ports[q].rx.los := by
  by_cases hlock : s.ports[p].sf.lock = true
  · cases h : (dropLock p s).ports[p].tr.state <;>
      simp only [lockLoss, hlock, if_true, h, enterHoldover_rx, trainFail_los, dropLock_rx]
  · simp only [lockLoss, hlock, Bool.false_eq_true, if_false]

/-- A loss of signal ends the alignment and the lock, and counts (R43, R124). -/
theorem lossOfSignal_port (p : LPort) (s : State) :
    let f := s.ports[p].sf
    let t := lossOfSignal p s
    t.ports[p].sf.aligned = false ∧ t.ports[p].sf.lock = false ∧
      t.ports[p].sf.alignLoss = (if f.aligned then f.alignLoss + 1 else f.alignLoss) ∧
      t.ports[p].rx.los = s.ports[p].rx.los + 1 := by
  have hacts : lossOfSignal p s = maybeAcquire p (lockLoss p (unalign p
      (modRx p (fun r => { r.drop with los := r.los + 1, hint := r.tracked }) s))) := rfl
  obtain ⟨haligned, hloss⟩ := unalign_sf p (modRx p (fun r => { r.drop with los := r.los + 1, hint := r.tracked }) s)
  have hlos : (modRx p (fun r => { r.drop with los := r.los + 1, hint := r.tracked }) s).ports[p].rx.los =
      s.ports[p].rx.los + 1 := by simp only [modRx_ports, vmod_same]
  rw [modRx_sf] at hloss
  rw [hacts]
  generalize modRx p (fun r => { r.drop with los := r.los + 1, hint := r.tracked }) s = u at haligned hloss hlos
  simp only [maybeAcquire_sf, maybeAcquire_los, lockLoss_sf, lockLoss_los, dropLock_lock, unalign_rx]
  refine ⟨?_, trivial, ?_, hlos⟩
  · rw [dropLock_reads (·.aligned) (fun _ => rfl) (fun _ => rfl), haligned]
  · rw [dropLock_reads (·.alignLoss) (fun _ => rfl) (fun _ => rfl), hloss]

/-- A change of a port that keeps its training keeps that of every port. -/
theorem modPort_tr (p q : LPort) (f : PortSt → PortSt) (s : State) (h : ∀ x, (f x).tr = x.tr) :
    (modPort p f s).ports[q].tr = s.ports[q].tr := by
  by_cases hq : q = p
  · subst hq
    simp only [modPort_ports, vmod_same, h]
  · simp only [modPort_ports, vmod_other _ _ _ _ hq]

theorem modSf_tr (p : LPort) (f : Sf → Sf) (q : LPort) (s : State) : (modSf p f s).ports[q].tr = s.ports[q].tr :=
  modPort_tr p q _ s fun _ => rfl
theorem modFront_tr (p : LPort) (f : Front → Front) (q : LPort) (s : State) :
    (modFront p f s).ports[q].tr = s.ports[q].tr :=
  modPort_tr p q _ s fun _ => rfl

theorem dropLock_tr (p q : LPort) (s : State) : (dropLock p s).ports[q].tr = s.ports[q].tr := by
  simp only [dropLock]
  split_ifs <;> simp only [refLost_keeps, modFront_tr, modSf_tr]

theorem setPort_state (p : LPort) (st : PortState) (s : State) : (setPort p st s).ports[p].tr.state = st := by
  simp only [setPort]
  split_ifs <;> simp only [failClients_keeps, modMap_ports, modTr_ports, vmod_same]

theorem enterHoldover_state (primed : Bool) (p : LPort) (s : State) :
    (enterHoldover primed p s).ports[p].tr.state = .holdover := by
  simp only [enterHoldover, modTr2_ports, modTr_ports, vmod_same, setPort_state]

/-- PSFN lock lost in TRAFFIC leads to HOLDOVER (R58). -/
theorem lockLoss_traffic (p : LPort) (s : State) (hlock : s.ports[p].sf.lock = true)
    (htraffic : s.ports[p].tr.state = .traffic) : (lockLoss p s).ports[p].tr.state = .holdover := by
  have h : (dropLock p s).ports[p].tr.state = .traffic := by rw [dropLock_tr, htraffic]
  simp only [lockLoss, hlock, if_true, h, enterHoldover_state]

/-! ### Lock and jumps -/

theorem moveLabels_sf (p : LPort) (d : Int) (s : State) : (moveLabels p d s).ports[p].sf =
    { s.ports[p].sf with recent := s.ports[p].sf.recent.map fun x => { x with label := psfnAdd x.label d } } := by
  simp only [moveLabels, modTr2_sf, modSf_sf_same]

/-- What PSFN_LOCK leaves once it is due: the lock, the decoded count and stage 7 (R58). -/
theorem psfnLock_port (p : LPort) (s : State) (hon : isOn s (.ld p) = true) (hal : s.ports[p].sf.aligned = true)
    (hlock : s.ports[p].sf.lock = false) (hrun : 3 ≤ s.ports[p].sf.goodRun) :
    let f := s.ports[p].sf
    let t := psfnLock p s
    t.ports[p].sf.lock = true ∧ t.ports[p].sf.fly = psfnAdd f.lastGood f.lastLag ∧ t.ports[p].sf.heldRx = none ∧
      t.ports[p].rx.step = 7 ∧ t.ports[p].rx.running = false := by
  cases h : s.ports[p].sf.heldRx <;>
    simp only [psfnLock, hon, hal, hlock, hrun, h, decide_true, Bool.and_self, Bool.not_false, if_true, holdoverLocked_sf,
      holdoverLocked_rx, refJump_sf, refJump_rx, modSf_sf_same, modRx_ports, vmod_same, and_self]

theorem psfnJump_port (p : LPort) (s : State) (hlock : s.ports[p].sf.lock = true) (hrun : 3 ≤ s.ports[p].sf.misRun) :
    let f := s.ports[p].sf
    let g := (psfnJump p s).ports[p].sf
    g.lock = true ∧ g.fly = psfnAdd f.misLast f.misLag ∧ g.misRun = 0 ∧ g.psfnJump = f.psfnJump + 1 := by
  simp only [psfnJump, hlock, hrun, decide_true, Bool.and_self, if_true, refJump_sf, modSf_sf_same, moveLabels_sf, and_self]

/-! ### Forwarding -/

/-- K_REGEN is the least number of superframes that covers the delay (R55). -/
theorem kRegenFor_le_iff (rate overlap extraNs j : Nat) :
    kRegenFor rate overlap extraNs ≤ j ↔ regenDelay rate overlap extraNs ≤ j * (9 * 2 ^ 22) := by
  simp only [kRegenFor]
  omega

/-- The sending state of a port apart from the superframe in the making. -/
theorem putSfoh_reads {β : Type} (g : Sf → β)
    (h : ∀ (f : Sf) sent maint pay payFix, g { f with sent := sent, maint := maint, pay := pay, payFix := payFix } = g f)
    (p : LPort) (cells : List Word) (open_ : Word) (s : State) :
    g (putSfoh p cells open_ s).ports[p].sf = g s.ports[p].sf := by
  simp only [putSfoh, modSf_sf_same, h]

theorem modSf_only (p : LPort) (f : Sf → Sf) (s : State) : Claims.Only [.ports] s (modSf p f s) := by
  intro x hx
  cases x <;> simp_all [Claims.Same]

/-- The state in which forwarding starts: K_REGEN and the received count (R55, R245). -/
def forwards (m : LPort) (extraNs : Nat) (s : State) : State :=
  let n := s.ports[mate m]
  modSf m (fun f => { f with
    kRegen := some (BitVec.ofNat 8 (kRegenFor n.tr.rate.toNat n.rx.overlap.toNat extraNs)), everFwd := true
    tx := psfnAdd n.sf.fly (-(kRegenFor n.tr.rate.toNat n.rx.overlap.toNat extraNs : Int)) }) s

theorem forwardingStart_acts (m : LPort) (extraNs : Nat) (s : State) (hregen : regen s m = true)
    (hon : isOn s (.ld m) = true) (hk : s.ports[m].sf.kRegen = none) (hlock : s.ports[mate m].sf.lock = true)
    (hw : txSwitchWaits s m = false) : forwardingStart m extraNs s = refreshSfoh m (forwards m extraNs s) := by
  simp only [forwardingStart, hregen, hon, hk, hlock, hw, Option.isNone_none, Bool.and_self, Bool.not_false, if_true]
  rfl

theorem lockEventsComplete : Claims.LockEventsComplete := by
  intro p s f
  refine ⟨fun hrun => ?_, fun hfa hal => ?_, fun hal => ?_, fun hon hal hlock hrun => ?_, fun hlock hrun => ?_,
    fun hlock hrun => ?_, fun ns hregen hon hk hlock hw => ?_⟩
  · exact congrArg Host.Outcome.next (if_pos hrun)
  · refine ⟨_, congrArg Host.Outcome.next (if_pos (by simp only [hfa, show s.ports[p].sf.aligned = false from hal, Bool.not_false, Bool.and_self])), ?_, ?_, ?_⟩
    · intro x hx
      cases x <;> simp_all [Claims.Same]
    · rw [modRx_sf, modSf_sf_same]
    · simp only [modRx_ports, vmod_same]
      rw [modSf_rx]
  · obtain ⟨haligned, hlock, hloss, hlos⟩ := lossOfSignal_port p s
    rw [if_pos hal] at hloss
    exact ⟨lossOfSignal p s, congrArg Host.Outcome.next (if_pos hal), haligned, hlock, hloss, hlos⟩
  · exact ⟨psfnLock p s, rfl, psfnLock_port p s hon hal hlock hrun⟩
  · have hruns : psfnLockLoss p s =
        lockLoss p (modRx p (fun r => { r with step := if s.pool.ports[p].inPool then 6 else 5 }) s) :=
      if_pos (by simp only [show s.ports[p].sf.lock = true from hlock, show 16 ≤ s.ports[p].sf.badRun from hrun,
        decide_true, Bool.true_or, Bool.and_self])
    refine ⟨_, congrArg Host.Outcome.next hruns, ?_, fun htraffic => ?_⟩
    · rw [lockLoss_sf, dropLock_lock]
    · refine lockLoss_traffic p _ (by rw [modRx_sf]; exact hlock) ?_
      simpa only [modRx_ports, vmod_same] using htraffic
  · exact ⟨psfnJump p s, rfl, psfnJump_port p s hlock hrun⟩
  · have hruns := forwardingStart_acts p ns s hregen hon hk hlock hw
    refine ⟨refreshSfoh p (forwards p ns s), _, congrArg Host.Outcome.next hruns, ?_, ⟨fun j => kRegenFor_le_iff _ _ _ j, ?_⟩,
      ?_, ?_⟩
    · rw [refreshSfoh, putSfoh_reads (·.kRegen) fun _ _ _ _ _ => rfl, forwards, modSf_sf_same]
    · rw [refreshSfoh, putSfoh_reads (·.tx) fun _ _ _ _ _ => rfl, forwards, modSf_sf_same]
    · rw [refreshSfoh, putSfoh_reads (·.everFwd) fun _ _ _ _ _ => rfl, forwards, modSf_sf_same]
    · exact only_trans (modSf_only p _ s) (modSf_only p _ _)

end Sys2Proof.Machine

open Sys2Proof Sys2Proof.Machine

/-- Settles O59: what follows the counting of a received SFOH leaves the counts alone, and the events of lock and alignment
set what they name last. -/
theorem overheadEventsComplete : Obligations.OverheadEventsComplete := ⟨sfohReceiveCompletes, lockEventsComplete⟩
end

section
/-! PROOF. The training state, front end, transmit DSP and receiver of a port, one lemma for each operation of a boundary that leaves
them alone. -/

namespace Sys2Proof.Machine

/-! ### The training -/

theorem doIf_tr (c : Bool) (f : State → State) (q : LPort) (s : State)
    (h : ∀ s, (f s).ports[q].tr = s.ports[q].tr) : (doIf c f s).ports[q].tr = s.ports[q].tr := by
  unfold doIf
  split
  · exact h s
  · rfl

theorem adcMeasure_tr (p : LPort) (levels : Vector (BitVec 16) 4) (clips : Vector Nat 4) (q : LPort) (s : State) :
    (adcMeasure p levels clips s).ports[q].tr = s.ports[q].tr := by
  unfold adcMeasure
  split <;> simp only [modFront_tr]

theorem modCal_tr (p : LPort) (f : Cal → Cal) (q : LPort) (s : State) :
    (modCal p f s).ports[q].tr = s.ports[q].tr :=
  modPort_tr p q _ s fun _ => rfl

theorem calBoundary_tr (p : LPort) (q : LPort) (s : State) :
    (calBoundary p s).ports[q].tr = s.ports[q].tr := by
  simp only [calBoundary, modCal_tr]

theorem endMute_tr (p : LPort) (q : LPort) (s : State) :
    (endMute p s).ports[q].tr = s.ports[q].tr := by
  simp only [endMute, modFront_tr]

theorem keyStep_tr (p : LPort) (q : LPort) (s : State) :
    (keyStep p s).ports[q].tr = s.ports[q].tr := by
  unfold keyStep
  split <;> simp only [modFront_tr]

theorem modNlc_tr (p : LPort) (f : Nlc → Nlc) (q : LPort) (s : State) :
    (modNlc p f s).ports[q].tr = s.ports[q].tr :=
  modPort_tr p q _ s fun _ => rfl

theorem memberStep_tr (p : LPort) (j : LPort) (q : LPort) (s : State) :
    (memberStep p j s).ports[q].tr = s.ports[q].tr := by
  simp only [memberStep]
  split_ifs <;> simp only [modNlc_tr, raiseAlarm_keeps, setAlarm_keeps]

theorem modRx_tr (p : LPort) (f : Rx → Rx) (q : LPort) (s : State) :
    (modRx p f s).ports[q].tr = s.ports[q].tr :=
  modPort_tr p q _ s fun _ => rfl

theorem modTr2_tr (p : LPort) (f : Train2 → Train2) (q : LPort) (s : State) :
    (modTr2 p f s).ports[q].tr = s.ports[q].tr :=
  modPort_tr p q _ s fun _ => rfl

theorem modTx_tr (p : LPort) (f : Tx → Tx) (q : LPort) (s : State) :
    (modTx p f s).ports[q].tr = s.ports[q].tr :=
  modPort_tr p q _ s fun _ => rfl

theorem rxSwitch_tr (p : LPort) (u : NlcUse) (q : LPort) (s : State) :
    (rxSwitch p u s).ports[q].tr = s.ports[q].tr := by
  simp only [rxSwitch]
  split <;> simp only [modNlc_tr, setAlarm_keeps]

theorem rxWaiting_tr (p : LPort) (q : LPort) (s : State) :
    (rxWaiting p s).ports[q].tr = s.ports[q].tr := by
  unfold rxWaiting
  split <;> simp only [rxSwitch_tr]

theorem nlcRxBoundary_tr (p : LPort) (gain : BitVec 16) (q : LPort) (s : State) :
    (nlcRxBoundary p gain s).ports[q].tr = s.ports[q].tr := by
  simp only [nlcRxBoundary, rxWaiting_tr, modNlc_tr, eachPort, memberStep_tr]

theorem txSwitch_tr (p : LPort) (u : NlcUse) (q : LPort) (s : State) :
    (txSwitch p u s).ports[q].tr = s.ports[q].tr := by
  simp only [txSwitch, modNlc_tr]

theorem nlcTxBoundary_tr (p : LPort) (q : LPort) (s : State) :
    (nlcTxBoundary p s).ports[q].tr = s.ports[q].tr := by
  obtain ⟨f, h | ⟨u, h⟩⟩ := nlcTxBoundary_cases p s
  · rw [h, modNlc_tr]
  · rw [h, txSwitch_tr, modNlc_tr]

theorem skewApply_tr (p : LPort) (q : LPort) (s : State) :
    (skewApply p s).ports[q].tr = s.ports[q].tr := by
  simp only [skewApply, setAlarm_keeps, modTx_tr]

theorem slewToRef_tr (p : LPort) (q : LPort) (s : State) :
    (slewToRef p s).ports[q].tr = s.ports[q].tr := by
  unfold slewToRef
  split <;> simp only [modFront_tr]

theorem snapshot_tr (p : LPort) (q : LPort) (s : State) :
    (snapshot p s).ports[q].tr = s.ports[q].tr := by
  simp only [snapshot, modRx_tr]

theorem startTraces_tr (p : LPort) (q : LPort) (s : State) :
    (startTraces p s).ports[q].tr = s.ports[q].tr := by
  unfold startTraces
  split <;> simp only [modTr2_tr]

theorem steerMate_tr (p : LPort) (clk : BitVec 16) (q : LPort) (s : State) :
    (steerMate p clk s).ports[q].tr = s.ports[q].tr := by
  unfold steerMate
  split <;> simp only [modFront_tr]

theorem takeDgd_tr (p : LPort) (dgd : BitVec 16) (q : LPort) (s : State) :
    (takeDgd p dgd s).ports[q].tr = s.ports[q].tr := by
  simp only [takeDgd, modRx_tr, eqSpanClear_keeps, eqSpan_keeps]

theorem takeEstimates_tr (p : LPort) (o : RxObs) (q : LPort) (s : State) :
    (takeEstimates p o s).ports[q].tr = s.ports[q].tr := by
  simp only [takeEstimates, modRx_tr]

theorem takeTaps_tr (p : LPort) (taps : List Word) (q : LPort) (s : State) :
    (takeTaps p taps s).ports[q].tr = s.ports[q].tr := by
  simp only [takeTaps, modRx_tr]

theorem trackCd_tr (p : LPort) (residual : Int) (q : LPort) (s : State) :
    (trackCd p residual s).ports[q].tr = s.ports[q].tr := by
  unfold trackCd
  split <;> simp only [setAlarm_keeps, modRx_tr]

theorem txStages_tr (p : LPort) (o : TxObs) (q : LPort) (s : State) :
    (txStages p o s).ports[q].tr = s.ports[q].tr := by
  unfold txStages
  refine (doIf_tr _ _ q _ fun t => ?_).trans ((skewApply_tr ..).trans (modTx_tr ..))
  simp only [nlcEval_keeps]

theorem txUnlocked_tr (p : LPort) (o : TxObs) (q : LPort) (s : State) :
    (txUnlocked p o s).ports[q].tr = s.ports[q].tr := by
  simp only [txUnlocked]
  split_ifs <;> simp only [rxWaiting_tr, adcMeasure_tr, calBoundary_tr]

/-! ### The front end -/

/-- A change of a port that keeps this part of it keeps that of every port. -/
theorem modPort_front (p q : LPort) (f : PortSt → PortSt) (s : State) (h : ∀ x, (f x).front = x.front) :
    (modPort p f s).ports[q].front = s.ports[q].front := by
  by_cases hq : q = p
  · subst hq
    simp only [modPort_ports, vmod_same, h]
  · simp only [modPort_ports, vmod_other _ _ _ _ hq]

theorem doIf_front (c : Bool) (f : State → State) (q : LPort) (s : State)
    (h : ∀ s, (f s).ports[q].front = s.ports[q].front) : (doIf c f s).ports[q].front = s.ports[q].front := by
  unfold doIf
  split
  · exact h s
  · rfl

theorem modCal_front (p : LPort) (f : Cal → Cal) (q : LPort) (s : State) :
    (modCal p f s).ports[q].front = s.ports[q].front :=
  modPort_front p q _ s fun _ => rfl

theorem calBoundary_front (p : LPort) (q : LPort) (s : State) :
    (calBoundary p s).ports[q].front = s.ports[q].front := by
  simp only [calBoundary, modCal_front]

theorem modTr_front (p : LPort) (f : Train → Train) (q : LPort) (s : State) :
    (modTr p f s).ports[q].front = s.ports[q].front :=
  modPort_front p q _ s fun _ => rfl

theorem cellSent_front (p : LPort) (q : LPort) (s : State) :
    (cellSent p s).ports[q].front = s.ports[q].front := by
  unfold cellSent
  split <;> simp only [tookFree_ports, modTr_front]

theorem modNlc_front (p : LPort) (f : Nlc → Nlc) (q : LPort) (s : State) :
    (modNlc p f s).ports[q].front = s.ports[q].front :=
  modPort_front p q _ s fun _ => rfl

theorem modRx_front (p : LPort) (f : Rx → Rx) (q : LPort) (s : State) :
    (modRx p f s).ports[q].front = s.ports[q].front :=
  modPort_front p q _ s fun _ => rfl

theorem modSf_front (p : LPort) (f : Sf → Sf) (q : LPort) (s : State) :
    (modSf p f s).ports[q].front = s.ports[q].front :=
  modPort_front p q _ s fun _ => rfl

theorem modTr2_front (p : LPort) (f : Train2 → Train2) (q : LPort) (s : State) :
    (modTr2 p f s).ports[q].front = s.ports[q].front :=
  modPort_front p q _ s fun _ => rfl

theorem modTx_front (p : LPort) (f : Tx → Tx) (q : LPort) (s : State) :
    (modTx p f s).ports[q].front = s.ports[q].front :=
  modPort_front p q _ s fun _ => rfl

theorem txSwitch_front (p : LPort) (u : NlcUse) (q : LPort) (s : State) :
    (txSwitch p u s).ports[q].front = s.ports[q].front := by
  simp only [txSwitch, modNlc_front]

theorem nlcTxBoundary_front (p : LPort) (q : LPort) (s : State) :
    (nlcTxBoundary p s).ports[q].front = s.ports[q].front := by
  obtain ⟨f, h | ⟨u, h⟩⟩ := nlcTxBoundary_cases p s
  · rw [h, modNlc_front]
  · rw [h, txSwitch_front, modNlc_front]

theorem rxSwitch_front (p : LPort) (u : NlcUse) (q : LPort) (s : State) :
    (rxSwitch p u s).ports[q].front = s.ports[q].front := by
  simp only [rxSwitch]
  split <;> simp only [modNlc_front, setAlarm_keeps]

theorem rxWaiting_front (p : LPort) (q : LPort) (s : State) :
    (rxWaiting p s).ports[q].front = s.ports[q].front := by
  unfold rxWaiting
  split <;> simp only [rxSwitch_front]

theorem skewApply_front (p : LPort) (q : LPort) (s : State) :
    (skewApply p s).ports[q].front = s.ports[q].front := by
  simp only [skewApply, setAlarm_keeps, modTx_front]

theorem snapshot_front (p : LPort) (q : LPort) (s : State) :
    (snapshot p s).ports[q].front = s.ports[q].front := by
  simp only [snapshot, modRx_front]

theorem startTraces_front (p : LPort) (q : LPort) (s : State) :
    (startTraces p s).ports[q].front = s.ports[q].front := by
  unfold startTraces
  split <;> simp only [modTr2_front]

theorem txStages_front (p : LPort) (o : TxObs) (q : LPort) (s : State) :
    (txStages p o s).ports[q].front = s.ports[q].front := by
  unfold txStages
  refine (doIf_front _ _ q _ fun t => ?_).trans ((skewApply_front ..).trans (modTx_front ..))
  simp only [nlcEval_keeps]

/-! ### The transmit DSP -/

/-- A change of a port that keeps this part of it keeps that of every port. -/
theorem modPort_tx (p q : LPort) (f : PortSt → PortSt) (s : State) (h : ∀ x, (f x).tx = x.tx) :
    (modPort p f s).ports[q].tx = s.ports[q].tx := by
  by_cases hq : q = p
  · subst hq
    simp only [modPort_ports, vmod_same, h]
  · simp only [modPort_ports, vmod_other _ _ _ _ hq]

theorem doIf_tx (c : Bool) (f : State → State) (q : LPort) (s : State)
    (h : ∀ s, (f s).ports[q].tx = s.ports[q].tx) : (doIf c f s).ports[q].tx = s.ports[q].tx := by
  unfold doIf
  split
  · exact h s
  · rfl

theorem modFront_tx (p : LPort) (f : Front → Front) (q : LPort) (s : State) :
    (modFront p f s).ports[q].tx = s.ports[q].tx :=
  modPort_tx p q _ s fun _ => rfl

theorem adcMeasure_tx (p : LPort) (levels : Vector (BitVec 16) 4) (clips : Vector Nat 4) (q : LPort) (s : State) :
    (adcMeasure p levels clips s).ports[q].tx = s.ports[q].tx := by
  unfold adcMeasure
  split <;> simp only [modFront_tx]

theorem modCal_tx (p : LPort) (f : Cal → Cal) (q : LPort) (s : State) :
    (modCal p f s).ports[q].tx = s.ports[q].tx :=
  modPort_tx p q _ s fun _ => rfl

theorem calBoundary_tx (p : LPort) (q : LPort) (s : State) :
    (calBoundary p s).ports[q].tx = s.ports[q].tx := by
  simp only [calBoundary, modCal_tx]

theorem modTr_tx (p : LPort) (f : Train → Train) (q : LPort) (s : State) :
    (modTr p f s).ports[q].tx = s.ports[q].tx :=
  modPort_tx p q _ s fun _ => rfl

theorem cellSent_tx (p : LPort) (q : LPort) (s : State) :
    (cellSent p s).ports[q].tx = s.ports[q].tx := by
  unfold cellSent
  split <;> simp only [tookFree_ports, modTr_tx]

theorem endMute_tx (p : LPort) (q : LPort) (s : State) :
    (endMute p s).ports[q].tx = s.ports[q].tx := by
  simp only [endMute, modFront_tx]

theorem keyStep_tx (p : LPort) (q : LPort) (s : State) :
    (keyStep p s).ports[q].tx = s.ports[q].tx := by
  unfold keyStep
  split <;> simp only [modFront_tx]

theorem modNlc_tx (p : LPort) (f : Nlc → Nlc) (q : LPort) (s : State) :
    (modNlc p f s).ports[q].tx = s.ports[q].tx :=
  modPort_tx p q _ s fun _ => rfl

theorem modRx_tx (p : LPort) (f : Rx → Rx) (q : LPort) (s : State) :
    (modRx p f s).ports[q].tx = s.ports[q].tx :=
  modPort_tx p q _ s fun _ => rfl

theorem modSf_tx (p : LPort) (f : Sf → Sf) (q : LPort) (s : State) :
    (modSf p f s).ports[q].tx = s.ports[q].tx :=
  modPort_tx p q _ s fun _ => rfl

theorem modTr2_tx (p : LPort) (f : Train2 → Train2) (q : LPort) (s : State) :
    (modTr2 p f s).ports[q].tx = s.ports[q].tx :=
  modPort_tx p q _ s fun _ => rfl

theorem txSwitch_tx (p : LPort) (u : NlcUse) (q : LPort) (s : State) :
    (txSwitch p u s).ports[q].tx = s.ports[q].tx := by
  simp only [txSwitch, modNlc_tx]

theorem nlcTxBoundary_tx (p : LPort) (q : LPort) (s : State) :
    (nlcTxBoundary p s).ports[q].tx = s.ports[q].tx := by
  obtain ⟨f, h | ⟨u, h⟩⟩ := nlcTxBoundary_cases p s
  · rw [h, modNlc_tx]
  · rw [h, txSwitch_tx, modNlc_tx]

theorem rxSwitch_tx (p : LPort) (u : NlcUse) (q : LPort) (s : State) :
    (rxSwitch p u s).ports[q].tx = s.ports[q].tx := by
  simp only [rxSwitch]
  split <;> simp only [modNlc_tx, setAlarm_keeps]

theorem rxWaiting_tx (p : LPort) (q : LPort) (s : State) :
    (rxWaiting p s).ports[q].tx = s.ports[q].tx := by
  unfold rxWaiting
  split <;> simp only [rxSwitch_tx]

theorem slewToRef_tx (p : LPort) (q : LPort) (s : State) :
    (slewToRef p s).ports[q].tx = s.ports[q].tx := by
  unfold slewToRef
  split <;> simp only [modFront_tx]

theorem snapshot_tx (p : LPort) (q : LPort) (s : State) :
    (snapshot p s).ports[q].tx = s.ports[q].tx := by
  simp only [snapshot, modRx_tx]

theorem startTraces_tx (p : LPort) (q : LPort) (s : State) :
    (startTraces p s).ports[q].tx = s.ports[q].tx := by
  unfold startTraces
  split <;> simp only [modTr2_tx]

theorem txUnlocked_tx (p : LPort) (o : TxObs) (q : LPort) (s : State) :
    (txUnlocked p o s).ports[q].tx = s.ports[q].tx := by
  simp only [txUnlocked]
  split_ifs <;> simp only [rxWaiting_tx, adcMeasure_tx, calBoundary_tx]

/-! ### The receiver at a boundary -/

theorem adcMeasure_rx (p : LPort) (levels : Vector (BitVec 16) 4) (clips : Vector Nat 4) (q : LPort) (s : State) :
    (adcMeasure p levels clips s).ports[q].rx = s.ports[q].rx := by
  unfold adcMeasure
  split <;> simp only [modFront_rx]

theorem modCal_rx (p : LPort) (f : Cal → Cal) (q : LPort) (s : State) :
    (modCal p f s).ports[q].rx = s.ports[q].rx :=
  modPort_rx p q _ s fun _ => rfl

theorem calBoundary_rx (p : LPort) (q : LPort) (s : State) :
    (calBoundary p s).ports[q].rx = s.ports[q].rx := by
  simp only [calBoundary, modCal_rx]

theorem memberStep_rx (p : LPort) (j : LPort) (q : LPort) (s : State) :
    (memberStep p j s).ports[q].rx = s.ports[q].rx := by
  simp only [memberStep]
  split_ifs <;> simp only [modNlc_rx, raiseAlarm_keeps, setAlarm_keeps]

theorem rxSwitch_rx (p : LPort) (u : NlcUse) (q : LPort) (s : State) :
    (rxSwitch p u s).ports[q].rx = s.ports[q].rx := by
  simp only [rxSwitch]
  split <;> simp only [modNlc_rx, setAlarm_keeps]

theorem rxWaiting_rx (p : LPort) (q : LPort) (s : State) :
    (rxWaiting p s).ports[q].rx = s.ports[q].rx := by
  unfold rxWaiting
  split <;> simp only [rxSwitch_rx]

theorem nlcRxBoundary_rx (p : LPort) (gain : BitVec 16) (q : LPort) (s : State) :
    (nlcRxBoundary p gain s).ports[q].rx = s.ports[q].rx := by
  simp only [nlcRxBoundary, rxWaiting_rx, modNlc_rx, eachPort, memberStep_rx]

theorem steerMate_rx (p : LPort) (clk : BitVec 16) (q : LPort) (s : State) :
    (steerMate p clk s).ports[q].rx = s.ports[q].rx := by
  unfold steerMate
  split <;> simp only [modFront_rx]

end Sys2Proof.Machine
end

section
/-! PROOF. What the answers of waiting reports leave alone, whatever the report. -/

namespace Sys2Proof.Machine

/-! ### What answering the waiting reports leaves alone -/

/-- The power manager's record apart from what PWR_REFUSALS_READ may clear. -/
def Power.uncleared (p : Power) : Power := { p with counters := Vector.replicate 10 0, log := [] }

/-- What the answer of a report leaves alone: the device state, the power states and, apart from those that complete, the
events of the Dial. -/
def Answered (s t : State) : Prop :=
  t.sys.dev = s.sys.dev ∧ t.sys.started = s.sys.started ∧ t.power.uncleared = s.power.uncleared ∧
    ∀ e ∈ t.dial.evs, e ∈ s.dial.evs

theorem answered_refl (s : State) : Answered s s := ⟨rfl, rfl, rfl, fun _ h => h⟩

theorem answered_trans {s t u : State} (h : Answered s t) (h' : Answered t u) : Answered s u := by
  obtain ⟨hdev, hstarted, hpower, hevs⟩ := h
  obtain ⟨hdev', hstarted', hpower', hevs'⟩ := h'
  exact ⟨hdev'.trans hdev, hstarted'.trans hstarted, hpower'.trans hpower, fun e he => hevs e (hevs' e he)⟩

/-- An operation that keeps these parts as they are. -/
theorem answered_of_keeps {s t : State} (hsys : t.sys = s.sys) (hpower : t.power = s.power) (hdial : t.dial = s.dial) :
    Answered s t := by
  rw [Answered, hsys, hpower, hdial]
  exact ⟨rfl, rfl, rfl, fun _ h => h⟩

theorem completeEvent_answered (e : DialEv) (a : Answer) (s : State) : Answered s (completeEvent e a s) := by
  have hdrop : Answered s (modDial (fun d => { d with evs := d.evs.filter fun x => x.idx != e.idx }) s) :=
    ⟨rfl, rfl, rfl, fun x hx => List.mem_of_mem_filter hx⟩
  unfold completeEvent completeWith
  dsimp only
  split
  · exact hdrop
  · exact answered_trans hdrop (answered_of_keeps (by simp) (by simp) (by simp))
  · exact answered_trans hdrop (answered_of_keeps (by simp) (by simp) (by simp))
  · split
    · exact answered_trans hdrop (answered_of_keeps (by simp) (by simp) (by simp))
    · exact hdrop
    · exact answered_trans hdrop (answered_of_keeps (by simp) (by simp) (by simp))

theorem reply_answered (op : Nat) (rq : Req) (a : Answer) {s t : State} (h : Answered s t) :
    Answered s (reply op rq a t) := by
  refine answered_trans h ?_
  have hun : Answered t (unforward rq t) := answered_of_keeps (by simp) (by simp) (by simp)
  unfold reply
  dsimp only
  split
  · exact answered_trans hun (answered_of_keeps (by simp) (by simp) (by simp))
  · exact answered_trans hun ⟨rfl, rfl, rfl, fun _ h => h⟩
  · split
    · exact answered_trans hun (completeEvent_answered _ a _)
    · exact hun

theorem putBulk_answered (off : Nat) (ws : List Word) (s : State) : Answered s (putBulk off ws s) :=
  ⟨rfl, rfl, rfl, fun _ h => h⟩

theorem answerReply_answered (op : Nat) (rq : Req) (words : State → List Word) (s : State) :
    Answered s (answerReply op rq words s) :=
  reply_answered op rq _ (answered_refl s)

theorem answerBulk_answered (op : Nat) (rq : Req) (off : Nat) (words : State → List Word) {s t : State}
    (h : Answered s t) : Answered s (answerBulk op rq off words t) :=
  reply_answered op rq _ (answered_trans h (putBulk_answered off _ t))

theorem pwrRefusalsAnswer_answered (rq : Req) (s : State) : Answered s (pwrRefusalsAnswer rq s) := by
  have hput := putBulk_answered (pf rq 0 23 0) (refusalWords s.power) s
  refine reply_answered _ rq _ ?_
  unfold doIf
  split
  · exact answered_trans hput ⟨rfl, rfl, rfl, fun _ h => h⟩
  · exact hput

theorem lineStatusAnswer_answered (rq : Req) (s : State) : Answered s (lineStatusAnswer rq s) := by
  unfold lineStatusAnswer
  dsimp only
  split
  · exact answerReply_answered ..
  · exact answerBulk_answered _ _ _ _ (answered_refl s)
  · exact answerReply_answered ..
  · exact answerReply_answered ..

theorem jrxPeersAnswer_answered (rq : Req) (s : State) : Answered s (jrxPeersAnswer rq s) := by
  unfold jrxPeersAnswer
  dsimp only
  split
  · exact reply_answered _ rq _ (putBulk_answered _ _ s)
  · exact reply_answered _ rq _ (answered_refl s)

theorem alarmStatusAnswer_answered (rq : Req) (s : State) : Answered s (alarmStatusAnswer rq s) := by
  unfold alarmStatusAnswer
  split
  · refine reply_answered _ rq _ ?_
    unfold doIf
    split
    · exact answered_of_keeps (by simp) (by simp) (by simp)
    · exact answered_refl s
  · exact reply_answered _ rq _ (answered_refl s)

theorem hostPmAnswer_answered (rq : Req) (s : State) : Answered s (hostPmAnswer rq s) := by
  have hcount : Answered s (prbsCount (laneOf rq) s) := answered_of_keeps (by simp) (by simp) (by simp)
  exact answerBulk_answered _ rq _ _ hcount

theorem hostStatusAnswer_answered (rq : Req) (s : State) : Answered s (hostStatusAnswer rq s) := by
  refine answered_trans (answerReply_answered 0x3003 rq (hostWords · (laneOf rq)) s) ?_
  unfold hostStatusAnswer
  exact answered_of_keeps (by simp) (by simp) (by simp)

/-- A report that has waited changes none of it, whatever its opcode. -/
theorem takeReport_answered (r : ReportWait) (s : State) : Answered s (takeReport r s) := by
  unfold takeReport
  split
  case h_3 => exact answerReply_answered ..
  case h_4 => exact pwrRefusalsAnswer_answered ..
  case h_7 => exact lineStatusAnswer_answered ..
  case h_8 | h_14 | h_19 => exact answerBulk_answered _ _ _ _ (answered_refl s)
  case h_11 => exact hostStatusAnswer_answered ..
  case h_12 => exact hostPmAnswer_answered ..
  case h_16 | h_24 => exact reply_answered _ _ _ (putBulk_answered _ _ s)
  case h_22 => exact jrxPeersAnswer_answered ..
  case h_25 => exact alarmStatusAnswer_answered ..
  case h_26 => exact answered_refl s
  all_goals exact answerReply_answered ..

theorem takeReports_answered (ref : RefCode) (s : State) : Answered s (takeReports ref s) := by
  have hall : ∀ (l : List ReportWait) (t : State), Answered s t → Answered s (eachOf l takeReport t) := by
    intro l
    induction l with
    | nil => exact fun t h => h
    | cons r l ih => exact fun t h => ih _ (answered_trans h (takeReport_answered r t))
  exact hall _ _ ⟨rfl, rfl, rfl, fun _ h => h⟩

/-- Power states are the same in records that differ in what PWR_REFUSALS_READ clears. -/
theorem isOn_of_uncleared {s t : State} (h : t.power.uncleared = s.power.uncleared) (d : Dom) : isOn t d = isOn s d := by
  have hdom : ∀ u : State, domSt u d = domSt { u with power := u.power.uncleared } d := by
    intro u
    cases d <;> rfl
  have hst : domSt t d = domSt s d := by
    rw [hdom t, hdom s]
    exact domSt_of_power (s := { t with power := t.power.uncleared }) (t := { s with power := s.power.uncleared }) h d
  simp only [isOn, hst]

end Sys2Proof.Machine
end

section
/-! PROOF. Receive boundaries (R57, R113, R130): the averages of the receiver, the flywheel, and the boundary as its port sees it. -/

namespace Sys2Proof.Machine

/-! ### Receive boundaries -/

/-- The values of a superframe, the rotator and the averages that are refreshed every 256 superframes. -/
def Rx.averages (r : Rx) : BitVec 16 × BitVec 16 × Int × Nat × Int × BitVec 16 × BitVec 16 :=
  (r.est.sfX, r.est.sfY, r.rotator, r.acc.n, r.acc.snrX, r.est.snrX, r.est.snrY)

theorem modRx_averages (p q : LPort) (f : Rx → Rx) (s : State) (h : ∀ r, (f r).averages = r.averages) :
    (modRx p f s).ports[q].rx.averages = s.ports[q].rx.averages := by
  by_cases hq : q = p
  · subst hq
    simp only [modRx_ports, vmod_same, h]
  · simp only [modRx_ports, vmod_other _ _ _ _ hq]

theorem trackCd_averages (p q : LPort) (residual : Int) (s : State) :
    (trackCd p residual s).ports[q].rx.averages = s.ports[q].rx.averages := by
  simp only [trackCd]
  split
  · simp only [setAlarm_keeps]
    exact modRx_averages p q _ s fun _ => rfl
  · rfl

theorem takeDgd_averages (p q : LPort) (dgd : BitVec 16) (s : State) :
    (takeDgd p dgd s).ports[q].rx.averages = s.ports[q].rx.averages := by
  simp only [takeDgd, eqSpanClear_keeps, eqSpan_keeps]
  refine (modRx_averages p q _ _ ?_).trans (modRx_averages p q _ s ?_) <;> exact fun _ => rfl

theorem takeTaps_averages (p q : LPort) (taps : List Word) (s : State) :
    (takeTaps p taps s).ports[q].rx.averages = s.ports[q].rx.averages := by
  refine modRx_averages p q _ s fun r => ?_
  split <;> rfl

theorem snapshot_averages (p q : LPort) (s : State) : (snapshot p s).ports[q].rx.averages = s.ports[q].rx.averages :=
  modRx_averages p q _ s fun _ => rfl

/-- A refreshed pre-FEC BER is none of the averages. -/
theorem averages_ber (r : Rx) (n : Nat) (coded corr uncorr : BitVec 64) (ber : Word) (bound : Bool) :
    ({ r with acc := { r.acc with berN := n, coded := coded, corr := corr, uncorr := uncorr }
              est := { r.est with preBer := ber, berBound := bound } } : Rx).averages = r.averages := rfl

theorem meanBer_averages (x : PoolPort) (r : Rx) : (meanBer x r).averages = r.averages := by
  unfold meanBer
  dsimp only
  split
  · rfl
  · exact averages_ber ..

theorem meanNli_averages (r : Rx) : (meanNli r).averages = r.averages := by
  unfold meanNli
  split <;> rfl

theorem meanEstimates_averages (r : Rx) : (meanEstimates r).averages =
    if r.acc.n < 256 then r.averages
    else (r.est.sfX, r.est.sfY, r.rotator, 0, 0, BitVec.ofInt 16 (rdiv r.acc.snrX 256),
      BitVec.ofInt 16 (rdiv r.acc.snrY 256)) := by
  unfold meanEstimates
  dsimp only
  split <;> rfl

/-- The averages after the values of a superframe have joined them. -/
theorem takeEstimates_averages (p : LPort) (o : RxObs) (s : State) :
    (takeEstimates p o s).ports[p].rx.averages =
      let r := s.ports[p].rx
      if r.acc.n + 1 < 256 then
        (o.snrX, o.snrY, r.rotator + o.foRes, r.acc.n + 1, r.acc.snrX + o.snrX.toNat, r.est.snrX, r.est.snrY)
      else (o.snrX, o.snrY, r.rotator + o.foRes, 0, 0, BitVec.ofInt 16 (rdiv (r.acc.snrX + o.snrX.toNat) 256),
        BitVec.ofInt 16 (rdiv (r.acc.snrY + o.snrY.toNat) 256)) := by
  rw [takeEstimates, modRx_ports, vmod_same]
  dsimp only
  rw [meanBer_averages, meanNli_averages, meanEstimates_averages]
  simp only [Rx.averages, RxAcc.add, feedBack]
  rfl

/-! ### What runs at a boundary without an event that is due -/

theorem dueExact_none {r : RefCode} {s : State} (h : ∀ e ∈ s.dial.evs, e.ref ≠ r) : dueExact r s = [] := by
  have hnone : s.dial.evs.filter (fun e => e.ref == r && isDue s e) = [] :=
    List.filter_eq_nil_iff.mpr fun e he => by simp [h e he]
  simp [dueExact, dueEvents, hnone]

theorem exchangeDue_none {r : RefCode} {s : State} (h : ∀ e ∈ s.dial.evs, e.ref ≠ r) : exchangeDue r s = s := by
  simp [exchangeDue, dueExact_none h, eachOf]

theorem rxExchange_none {p : LPort} {s : State} (h : ∀ e ∈ s.dial.evs, e.ref ≠ rxRef p) : rxExchange p s = s := by
  simp [rxExchange, dueExact_none h]

/-! ### The work of a receive boundary on its port -/

theorem rxWork_averages (p : LPort) (o : RxObs) (s : State) :
    (rxWork p o s).ports[p].rx.averages = (takeEstimates p o s).ports[p].rx.averages := by
  simp only [rxWork, idleCounts_keeps, steerMate_rx, poolBoundary_keeps, nlcRxBoundary_rx, takeTaps_averages,
    takeDgd_averages, trackCd_averages, takeEstimates_averages, modSf_rx]

theorem rxWork_sf (p : LPort) (o : RxObs) (s : State) : (rxWork p o s).ports[p].sf =
    { s.ports[p].sf with
      fly := s.ports[p].sf.fly + 1, lastLag := s.ports[p].sf.lastLag + 1, misLag := s.ports[p].sf.misLag + 1 } := by
  simp only [rxWork, idleCounts_keeps, steerMate_sf, poolBoundary_keeps, nlcRxBoundary_sf, takeTaps_sf, takeDgd_sf,
    trackCd_sf, takeEstimates_sf, modSf_sf_same]

theorem rxWork_tr (p : LPort) (o : RxObs) (s : State) : (rxWork p o s).ports[p].tr = s.ports[p].tr := by
  simp only [rxWork, idleCounts_keeps, steerMate_tr, poolBoundary_keeps, nlcRxBoundary_tr, takeTaps_tr, takeDgd_tr,
    trackCd_tr, takeEstimates_tr, modSf_tr]

theorem rxWork_dial (p : LPort) (o : RxObs) (s : State) : (rxWork p o s).dial = s.dial := by
  simp [rxWork]

/-- The work of a receive boundary with lock up to its exchange. -/
def rxBeforeExchange (p : LPort) (o : RxObs) (s : State) : State :=
  let s := adcMeasure p o.levels o.clips s
  keepOffset (rxRef p) (if isOn s (.cv p) then calBoundary p s else s)

theorem rxLockedWork_eq (p : LPort) (o : RxObs) (s : State) :
    rxLockedWork p o s = rxExchange p (rxBeforeExchange p o s) := rfl

theorem keepOffset_evs (r : RefCode) (s : State) : (keepOffset r s).dial.evs = s.dial.evs := by
  simp only [keepOffset]
  split <;> rfl

theorem rxBeforeExchange_evs (p : LPort) (o : RxObs) (s : State) : (rxBeforeExchange p o s).dial.evs = s.dial.evs := by
  simp only [rxBeforeExchange, keepOffset_evs]
  split <;> simp

theorem rxBeforeExchange_rx (p : LPort) (o : RxObs) (q : LPort) (s : State) :
    (rxBeforeExchange p o s).ports[q].rx = s.ports[q].rx := by
  simp only [rxBeforeExchange, keepOffset_keeps]
  exact ite_rx ((calBoundary_rx ..).trans (adcMeasure_rx ..)) (adcMeasure_rx ..)

theorem rxBeforeExchange_sf (p : LPort) (o : RxObs) (q : LPort) (s : State) :
    (rxBeforeExchange p o s).ports[q].sf = s.ports[q].sf := by
  simp only [rxBeforeExchange, keepOffset_keeps]
  exact ite_sf ((calBoundary_sf ..).trans (adcMeasure_sf ..)) (adcMeasure_sf ..)

theorem rxBeforeExchange_tr (p : LPort) (o : RxObs) (q : LPort) (s : State) :
    (rxBeforeExchange p o s).ports[q].tr = s.ports[q].tr := by
  simp only [rxBeforeExchange, keepOffset_keeps]
  exact ite_reads (fun t => t.ports[q].tr) ((calBoundary_tr ..).trans (adcMeasure_tr ..)) (adcMeasure_tr ..)

/-- A receive boundary without an event on its reference, as its port sees it. -/
theorem rxSuperframeBoundary_port (p : LPort) (o : RxObs) (s : State) (hon : isOn s (.ld p) = true)
    (hst : s.ports[p].tr.state ≠ .down) (hev : ∀ e ∈ s.dial.evs, e.ref ≠ rxRef p) :
    let t := rxSuperframeBoundary p o s
    t.ports[p].sf = (rxWork p o s).ports[p].sf ∧ t.ports[p].tr = s.ports[p].tr ∧
      t.ports[p].rx.averages = (takeEstimates p o s).ports[p].rx.averages := by
  intro t
  have ht : t = if (rxWork p o s).ports[p].sf.lock then takeReports (rxRef p) (snapshot p (rxLockedWork p o (rxWork p o s)))
      else rxWork p o s :=
    (rxSuperframeBoundary_eq p o s).trans (if_pos (by simpa [hon] using hst))
  rw [ht, ← rxWork_averages, ← rxWork_tr p o s]
  split
  · have hno : ∀ e ∈ (rxBeforeExchange p o (rxWork p o s)).dial.evs, e.ref ≠ rxRef p := by
      rwa [rxBeforeExchange_evs, rxWork_dial]
    simp only [rxLockedWork_eq, rxExchange_none hno, takeReports_keeps, snapshot_sf, snapshot_tr, snapshot_averages,
      rxBeforeExchange_sf, rxBeforeExchange_tr, rxBeforeExchange_rx, and_self]
  · exact ⟨rfl, rfl, rfl⟩

theorem receiveBoundaryCompletes : Claims.ReceiveBoundaryCompletes := by
  intro p o s
  refine ⟨fun hoff => congrArg Host.Outcome.next (?_ : rxSuperframeBoundary p o s = s), fun hon hst hev => ?_⟩
  · rw [rxSuperframeBoundary_eq, if_neg]
    rcases hoff with h | h
    · simp [h]
    · have hdown : s.ports[p].tr.state = .down := h
      simp only [hdown, bne_self_eq_false, Bool.and_false, Bool.false_eq_true, not_false_eq_true]
  obtain ⟨hsf, htr, havg⟩ := rxSuperframeBoundary_port p o s hon hst hev
  rw [rxWork_sf] at hsf
  rw [takeEstimates_averages] at havg
  refine ⟨rxSuperframeBoundary p o s, rfl, by rw [hsf], by rw [hsf], by rw [htr], ?_⟩
  simp only [Rx.averages] at havg
  split at havg <;> simp only [Prod.mk.injEq] at havg <;>
    obtain ⟨hsfX, hsfY, hrot, hn, hsum, hx, hy⟩ := havg
  · exact ⟨hsfX, hsfY, hrot, fun _ => ⟨hn, hsum, hx⟩, fun _ => by omega⟩
  · exact ⟨hsfX, hsfY, hrot, fun _ => by omega, fun h => ⟨hn, hx, hy⟩⟩

end Sys2Proof.Machine
end

section
/-! PROOF. Transmit boundaries (R44, R46, R47, R52, R92, R293): the framer from the superframe that ends to the SFOH of the next, and
the mute. -/

namespace Sys2Proof.Machine

/-! ### What the exchange of a transmit boundary leaves of the framer -/

/-- What a framer sends with: its counts, whether it has begun, and the payload and BIP of the superframe that ended. -/
def Sf.sending (f : Sf) : Psfn × Psfn × Bool × Payload × Word := (f.tx, f.local_, f.framing, f.sentPay, f.sentSpanBip)

theorem modSf_sending (p q : LPort) (f : Sf → Sf) (s : State) (h : ∀ x, (f x).sending = x.sending) :
    (modSf p f s).ports[q].sf.sending = s.ports[q].sf.sending := by
  by_cases hq : q = p
  · subst hq
    rw [modSf_sf_same, h]
  · simp only [modSf_ports, vmod_other _ _ _ _ hq]

theorem unalign_sending (p q : LPort) (s : State) : (unalign p s).ports[q].sf.sending = s.ports[q].sf.sending :=
  modSf_sending p q _ s fun _ => rfl

theorem dropLock_sending (p q : LPort) (s : State) : (dropLock p s).ports[q].sf.sending = s.ports[q].sf.sending :=
  dropLock_reads Sf.sending (fun _ => rfl) (fun _ => rfl) p q s

theorem lockLoss_sending (p q : LPort) (s : State) : (lockLoss p s).ports[q].sf.sending = s.ports[q].sf.sending := by
  rw [lockLoss_sf, dropLock_sending]

theorem lossOfSignal_sending (p q : LPort) (s : State) :
    (lossOfSignal p s).ports[q].sf.sending = s.ports[q].sf.sending := by
  simp only [lossOfSignal, maybeAcquire_sf, lockLoss_sending, unalign_sending, modRx_sf]

theorem calBegin_sending (p : LPort) (kind : CalRunKind) (items : BitVec 6) (trigger : BitVec 3) (q : LPort) (s : State) :
    (calBegin p kind items trigger s).ports[q].sf.sending = s.ports[q].sf.sending := by
  simp only [calBegin]
  split
  · simp only [modRx_sf, unalign_sending, lockLoss_sending, modCal_sf]
  · rw [modCal_sf]

theorem calStart_sending (p : LPort) (kind : CalRunKind) (items : BitVec 6) (trigger : BitVec 3) (q : LPort) (s : State) :
    (calStart p kind items trigger s).ports[q].sf.sending = s.ports[q].sf.sending := by
  unfold calStart
  split
  · rfl
  · rw [calBegin_sending, modCal_sf]

theorem calClock_sending (p : LPort) (clock : Bool) (q : LPort) (s : State) :
    (calClock p clock s).ports[q].sf.sending = s.ports[q].sf.sending := by
  simp only [calClock]
  split_ifs <;> simp only [calStart_sending, calSnap_sf, modCal_sf, calAbort_sf]

theorem clockApply_sending (p : LPort) (sclk : BitVec 12) (q : LPort) (s : State) :
    (clockApply p sclk s).ports[q].sf.sending = s.ports[q].sf.sending := by
  simp only [clockApply]
  split_ifs <;> simp only [refreshPort_sf, calClock_sending, lossOfSignal_sending, modFront_sf]

theorem clockDue_sending (p q : LPort) (s : State) : (clockDue p s).ports[q].sf.sending = s.ports[q].sf.sending := by
  unfold clockDue
  split
  · rfl
  · rw [clockApply_sending, modFront_sf]

theorem switchRateTx_sending (p : LPort) (rate : BitVec 10) (q : LPort) (s : State) :
    (switchRateTx p rate s).ports[q].sf.sending = s.ports[q].sf.sending := by
  simp only [switchRateTx, rateTaken_sf, modTr2_sf, calClock_sending, modNlc_sf, modTr_sf]

theorem switchRateRx_sending (p : LPort) (rate : BitVec 10) (q : LPort) (s : State) :
    (switchRateRx p rate s).ports[q].sf.sending = s.ports[q].sf.sending := by
  simp only [switchRateRx, nlcEval_keeps, rateTaken_sf, startAttempt_sf]
  split_ifs <;> simp only [enterHoldover_sf, modTr2_sf, unalign_sending, dropLock_sending, modRx_sf, calClock_sending,
    modNlc_sf, modTr_sf, beCautious_keeps]

theorem runSwitch_sending (k : DialKind) (n : Psfn) (q : LPort) (s : State) :
    (runSwitch k n s).ports[q].sf.sending = s.ports[q].sf.sending := by
  unfold runSwitch
  split
  · rfl
  · rw [switchTx_sf]
  · rw [switchRx_sf]
  · rw [txUse_sf]
  · rw [rxUse_sf]
  · exact switchRateTx_sending ..
  · exact switchRateRx_sending ..

theorem exchangeEvent_sending (n : Psfn) (e : DialEv) (q : LPort) (s : State) :
    (exchangeEvent n e s).ports[q].sf.sending = s.ports[q].sf.sending := by
  unfold exchangeEvent
  split
  · exact runSwitch_sending ..
  · rw [exactEffect_sf]

theorem exchangeDue_sending (r : RefCode) (q : LPort) (s : State) :
    (exchangeDue r s).ports[q].sf.sending = s.ports[q].sf.sending := by
  have hmark : (eachOf (dueExact r s) (markExchanged r (refCount s r)) s).ports = s.ports := by simp
  refine (eachOf_keeps (fun t => t.ports[q].sf.sending) _ _ _ (fun e t => exchangeEvent_sending _ e q t)).trans ?_
  rw [hmark]

/-! ### The SFOH of the superframe that begins -/

theorem nibbles_length (f : Nat → Nat) : (nibbles f).length = 2 := by simp [nibbles]

theorem ledgerWith_length (s : State) (n : LPort) (l : Vector Word 16) : (ledgerWith s n l).length = 16 := by
  unfold ledgerWith
  split <;> exact Vector.length_toList

theorem pathOut_length (s : State) (p : LPort) (bip open_ : Word) : (pathOut s p bip open_).length = 23 := by
  unfold pathOut
  split_ifs
  · simp [passedPath, nibbles_length, ledgerWith_length]
  · simp [maintPath, nibbles_length]
  · simp [loopedPath]
  · simp [ownPath, nibbles_length]

theorem announceWords_length (t : Train) : (announceWords t).length = 2 := by
  unfold announceWords
  split <;> rfl

theorem trainCell_length (s : State) (p : LPort) : (trainCell s p).length = 8 := by
  simp only [trainCell]
  split <;> simp

theorem jrxCell_length (x : JrxPort) : (jrxCell x).1.length = 8 := by
  simp only [jrxCell]
  generalize (if x.sending.isEmpty = true then _ else x.sending : List Word) = ws
  split
  · rfl
  · simp only [List.length_cons, List.length_append, List.length_take, List.length_replicate]
    omega

theorem sfohBody_length (s : State) (p : LPort) (cells : List Word) (open_ : Word) (h : cells.length = 16) :
    (sfohBody s p cells open_).length = 63 := by
  simp [sfohBody, pathOut_length, announceWords_length, h]

/-- The words of the SFOH that its fields stand in. -/
theorem sfohBody_eq (s : State) (p : LPort) (cells : List Word) (open_ : Word) :
    ∃ span rei rest, sfohBody s p cells open_ =
      wd (psHi s.ports[p].sf.tx) :: word [(31, 16, psLo s.ports[p].sf.tx), (15, 12, 1)] :: span ::
        s.ports[p].sf.sentSpanBip :: rei :: s.ports[p].tr.txNow :: rest := by
  simp only [sfohBody, List.cons_append, List.nil_append]
  exact ⟨_, _, _, rfl⟩

theorem psHi_wd (n : Psfn) : (wd (psHi n)).toNat = psHi n := by
  have hlt := n.isLt
  rw [wd, BitVec.toNat_ofNat]
  exact Nat.mod_eq_of_lt (by simp only [psHi]; omega)

/-- The first word of a SFOH and its second hold the count and the version. -/
theorem psLo_word (n : Psfn) :
    fld (word [(31, 16, psLo n), (15, 12, 1)]) 31 16 = psLo n ∧ fld (word [(31, 16, psLo n), (15, 12, 1)]) 15 12 = 1 := by
  have hfields : fieldsBelow 32 [(31, 16, psLo n), (15, 12, 1)] = true := by simp [fieldsBelow]
  rw [fld_word 31 16 (psLo n) _ hfields (by simp), fld_word 15 12 1 _ hfields (by simp)]
  exact ⟨Nat.mod_mod _ _, rfl⟩

/-- The words sent: a SFOH's body and, in word 63, the CRC over it. -/
def sfohWords (ws : List Word) : Vector Word 64 :=
  Vector.ofFn fun i => if i.val = 63 then crc32c ws else ws.getD i.val 0

theorem sfohWords_body (ws : List Word) (i : Nat) (h : i < 63) : (sfohWords ws)[i] = ws.getD i 0 := by
  have hne : i ≠ 63 := by omega
  simp [sfohWords, hne]

theorem sfohWords_crc (ws : List Word) (h : ws.length = 63) :
    (sfohWords ws)[63] = crc32c ((sfohWords ws).toList.take 63) := by
  have hbody : (sfohWords ws).toList.take 63 = ws := by
    refine List.ext_getElem (by simp [h]) fun i hi hi' => ?_
    have hne : i ≠ 63 := by omega
    simp [sfohWords, hne, hi']
  rw [hbody]
  simp [sfohWords]

/-- The SFOH that a framer sends shows its count, a format, the BIP of the superframe before it and its own CRC. -/
def Sf.Shows (f : Sf) (fmt : Word) : Prop :=
  f.sent[0].toNat = psHi f.tx ∧ fld f.sent[1] 31 16 = psLo f.tx ∧ fld f.sent[1] 15 12 = 1 ∧
    f.sent[3] = f.sentSpanBip ∧ f.sent[5] = fmt ∧ f.sent[63] = crc32c (f.sent.toList.take 63)

theorem putSfoh_sending (p : LPort) (cells : List Word) (open_ : Word) (q : LPort) (s : State) :
    (putSfoh p cells open_ s).ports[q].sf.sending = s.ports[q].sf.sending :=
  modSf_sending p q _ s fun _ => rfl

theorem putSfoh_shows (p : LPort) (cells : List Word) (open_ : Word) (s : State) (h : cells.length = 16) :
    (putSfoh p cells open_ s).ports[p].sf.Shows s.ports[p].tr.txNow := by
  have hlen := sfohBody_length s p cells open_ h
  obtain ⟨span, rei, rest, hbody⟩ := sfohBody_eq s p cells open_
  have hsent : (putSfoh p cells open_ s).ports[p].sf.sent = sfohWords (sfohBody s p cells open_) := by
    simp only [putSfoh, modSf_sf_same, sfohWords]
  obtain ⟨htx, -, -, -, hbip⟩ := by simpa only [Sf.sending, Prod.mk.injEq] using putSfoh_sending p cells open_ p s
  obtain ⟨hlo, hver⟩ := psLo_word s.ports[p].sf.tx
  have hcrc := sfohWords_crc _ hlen
  rw [hbody] at hsent hcrc
  rw [Sf.Shows, hsent, htx, hbip, sfohWords_body _ 0 (by decide), sfohWords_body _ 1 (by decide),
    sfohWords_body _ 3 (by decide), sfohWords_body _ 5 (by decide)]
  exact ⟨psHi_wd _, hlo, hver, rfl, rfl, hcrc⟩

/-! ### What a transmit boundary sends and leaves -/

/-- The state in which a transmit boundary sends its SFOH, given the one after its exchange. -/
def txReady (p : LPort) (o : TxObs) (s : State) : State :=
  let s := startTraces p (slewToRef p (txUnlocked p o s))
  keyStep p (nlcTxBoundary p (txStages p o s))

/-- The exchange of a transmit boundary. -/
def txExchanged (p : LPort) (s : State) : State := exchangeDue (txRef p) (clockDue p (txCount p s))

theorem txBegin_ports (p : LPort) (o : TxObs) (s : State) :
    (txBegin p o s).ports = (sendSfoh p (endMute p (txReady p o (txExchanged p s)))).ports := by
  simp only [txBegin, keepOffset_keeps]
  rw [eachOf_ports _ _ _ (fun c t => by simp)]
  rfl

theorem txReady_sf (p : LPort) (o : TxObs) (q : LPort) (s : State) : (txReady p o s).ports[q].sf = s.ports[q].sf := by
  simp only [txReady, keyStep_sf, nlcTxBoundary_sf, txStages_sf, startTraces_sf, slewToRef_sf, txUnlocked_sf]

theorem txReady_tr (p : LPort) (o : TxObs) (q : LPort) (s : State) : (txReady p o s).ports[q].tr = s.ports[q].tr := by
  simp only [txReady, keyStep_tr, nlcTxBoundary_tr, txStages_tr, startTraces_tr, slewToRef_tr, txUnlocked_tr]

/-- The cell that leaves changes only what it says of the head message. -/
theorem cellSent_txNow_state (p q : LPort) (s : State) :
    (cellSent p s).ports[q].tr.txNow = s.ports[q].tr.txNow ∧ (cellSent p s).ports[q].tr.state = s.ports[q].tr.state := by
  have htook : (if s.ports[p].tr.queue.isEmpty then tookFree s else s).ports = s.ports := by
    split <;> rfl
  simp only [cellSent]
  by_cases hq : q = p
  · subst hq
    simp only [modTr_ports, htook, vmod_same]
    split <;> exact ⟨rfl, rfl⟩
  · simp only [modTr_ports, htook, vmod_other _ _ _ _ hq, and_self]

theorem putSfoh_tr (p : LPort) (cells : List Word) (open_ : Word) (q : LPort) (s : State) :
    (putSfoh p cells open_ s).ports[q].tr = s.ports[q].tr :=
  modSf_tr p _ q s

theorem putSfoh_front (p : LPort) (cells : List Word) (open_ : Word) (q : LPort) (s : State) :
    (putSfoh p cells open_ s).ports[q].front = s.ports[q].front :=
  modSf_front p _ q s

theorem putSfoh_tx (p : LPort) (cells : List Word) (open_ : Word) (q : LPort) (s : State) :
    (putSfoh p cells open_ s).ports[q].tx = s.ports[q].tx :=
  modSf_tx p _ q s

theorem sendSfoh_acts (p : LPort) (s : State) : ∃ cells open_ u, cells.length = 16 ∧ u.ports = s.ports ∧
    sendSfoh p s = tookFree (cellSent p (putSfoh p cells open_ u)) :=
  ⟨_, _, modJp p (fun _ => (jrxCell s.jrx.ports[p]).2) s, by
    rw [List.length_append, trainCell_length, jrxCell_length], rfl, rfl⟩

theorem sendSfoh_txNow_state (p q : LPort) (s : State) :
    (sendSfoh p s).ports[q].tr.txNow = s.ports[q].tr.txNow ∧ (sendSfoh p s).ports[q].tr.state = s.ports[q].tr.state := by
  obtain ⟨cells, open_, u, -, hu, hacts⟩ := sendSfoh_acts p s
  obtain ⟨hnow, hst⟩ := cellSent_txNow_state p q (putSfoh p cells open_ u)
  rw [putSfoh_tr, hu] at hnow hst
  rw [hacts]
  exact ⟨hnow, hst⟩

theorem sendSfoh_front (p q : LPort) (s : State) : (sendSfoh p s).ports[q].front = s.ports[q].front := by
  obtain ⟨cells, open_, u, -, hu, hacts⟩ := sendSfoh_acts p s
  simp only [hacts, tookFree_ports, cellSent_front, putSfoh_front, hu]

theorem sendSfoh_tx (p q : LPort) (s : State) : (sendSfoh p s).ports[q].tx = s.ports[q].tx := by
  obtain ⟨cells, open_, u, -, hu, hacts⟩ := sendSfoh_acts p s
  simp only [hacts, tookFree_ports, cellSent_tx, putSfoh_tx, hu]

theorem sendSfoh_sending (p q : LPort) (s : State) : (sendSfoh p s).ports[q].sf.sending = s.ports[q].sf.sending := by
  obtain ⟨cells, open_, u, -, hu, hacts⟩ := sendSfoh_acts p s
  rw [hacts, tookFree_ports, cellSent_sf, putSfoh_sending, hu]

theorem sendSfoh_shows (p : LPort) (s : State) : (sendSfoh p s).ports[p].sf.Shows (sendSfoh p s).ports[p].tr.txNow := by
  obtain ⟨cells, open_, u, hlen, hu, hacts⟩ := sendSfoh_acts p s
  rw [(sendSfoh_txNow_state p p s).1, hacts, tookFree_ports, cellSent_sf, ← hu]
  exact putSfoh_shows p cells open_ u hlen

/-! ### The superframe that ends -/

theorem hostCounts_ports (o : TxObs) (s : State) : (hostCounts o s).ports = s.ports := by simp

theorem deafClients_regen (p q : LPort) (s : State) : regen (deafClients p s) q = regen s q := by
  unfold deafClients
  split <;> rfl

theorem txClient_regen (p : LPort) (o : TxObs) (c : Client) (q : LPort) (s : State) :
    regen (txClient p o c s) q = regen s q := by
  unfold txClient
  split <;> rfl

/-- A change of counters leaves open which client a slot belongs to, but not whether it has one. -/
theorem slotClient_modClients (t : Client → Bool) (f : Client → Client) (s : State) (p : LPort) (i : Nat)
    (h : ∀ c, (f c).txOn = c.txOn ∧ (f c).port = c.port ∧ (f c).slots = c.slots) :
    slotClient (modClients t f s) p i = none ↔ slotClient s p i = none := by
  have hin : inPayload (modClients t f s) p = inPayload s p := rfl
  have hkey : ∀ c, (let d := if t c then f c else c; d.txOn && d.port == p && d.slots.getLsbD i) =
      (c.txOn && c.port == p && c.slots.getLsbD i) := by
    intro c
    obtain ⟨hon, hport, hslots⟩ := h c
    dsimp only
    split
    · rw [hon, hport, hslots]
    · rfl
  unfold slotClient
  rw [hin]
  split
  · simp only [modClients, modMap, List.find?_map, Function.comp_def, Option.map_eq_none_iff]
    simp only [hkey]
  · rfl

theorem txClient_slotClient (p : LPort) (o : TxObs) (c : Client) (s : State) (q : LPort) (i : Nat) :
    slotClient (txClient p o c s) q i = none ↔ slotClient s q i = none := by
  unfold txClient
  split
  · exact slotClient_modClients _ _ _ _ _ fun _ => ⟨rfl, rfl, rfl⟩
  · exact Iff.rfl

/-- The clients of a port after their part of the superframe that ends. -/
def clientsSent (p : LPort) (o : TxObs) (s : State) : State :=
  eachOf (s.map.clients.filter (·.port == p)) (txClient p o) s

theorem clientsSent_ports (p : LPort) (o : TxObs) (s : State) : (clientsSent p o s).ports = s.ports := by
  simp [clientsSent]

theorem clientsSent_regen (p : LPort) (o : TxObs) (q : LPort) (s : State) : regen (clientsSent p o s) q = regen s q :=
  eachOf_keeps (fun t => regen t q) _ _ _ fun c t => txClient_regen p o c q t

theorem clientsSent_slotClient (p : LPort) (o : TxObs) (s : State) (q : LPort) (i : Nat) :
    slotClient (clientsSent p o s) q i = none ↔ slotClient s q i = none :=
  iff_of_eq (eachOf_keeps (fun t => slotClient t q i = none) _ _ _ fun c t => propext (txClient_slotClient p o c t q i))

theorem txEnd_eq (p : LPort) (o : TxObs) (s : State) : txEnd p o s =
    deafClients p (hostCounts o (
      let u := if s.ports[p].sf.framing then closeSent p o (clientsSent p o s) else s
      modTr2 p (fun t => { t with groomBlocked := t.groomBlocked + wd (groomCount u p) }) u)) := rfl

theorem txEnd_regen (p : LPort) (o : TxObs) (q : LPort) (s : State) : regen (txEnd p o s) q = regen s q := by
  rw [txEnd_eq, deafClients_regen]
  show regen (if s.ports[p].sf.framing then closeSent p o (clientsSent p o s) else s) q = regen s q
  split
  · exact clientsSent_regen p o q s
  · rfl

theorem txEnd_sf (p : LPort) (o : TxObs) (q : LPort) (s : State) : (txEnd p o s).ports[q].sf =
    (if s.ports[p].sf.framing then closeSent p o (clientsSent p o s) else s).ports[q].sf := by
  simp only [txEnd_eq, deafClients_keeps, hostCounts_ports, modTr2_sf]

theorem closeSent_tr (p : LPort) (o : TxObs) (q : LPort) (s : State) : (closeSent p o s).ports[q].tr = s.ports[q].tr :=
  modSf_tr p _ q s

theorem closeSent_front (p : LPort) (o : TxObs) (q : LPort) (s : State) :
    (closeSent p o s).ports[q].front = s.ports[q].front :=
  modSf_front p _ q s

theorem txEnd_tr (p : LPort) (o : TxObs) (q : LPort) (s : State) : (txEnd p o s).ports[q].tr = s.ports[q].tr := by
  simp only [txEnd_eq, deafClients_keeps, hostCounts_ports, modTr2_tr]
  refine ite_reads (fun t => t.ports[q].tr) ?_ rfl
  simp only [closeSent_tr, clientsSent_ports]

theorem txEnd_front (p : LPort) (o : TxObs) (q : LPort) (s : State) :
    (txEnd p o s).ports[q].front = s.ports[q].front := by
  simp only [txEnd_eq, deafClients_keeps, hostCounts_ports, modTr2_front]
  refine ite_reads (fun t => t.ports[q].front) ?_ rfl
  simp only [closeSent_front, clientsSent_ports]

/-- The payload of the superframe that ended and its BIP, and what is left as it was. -/
theorem txEnd_sent (p : LPort) (o : TxObs) (s : State) :
    let f := s.ports[p].sf
    let g := (txEnd p o s).ports[p].sf
    g.framing = f.framing ∧ g.local_ = f.local_ ∧ (f.framing = true →
      g.sentSpanBip = spanBip (dRate s.ports[p].tr.txNow) f.sent g.sentPay ∧
      ∀ i : Fin 16, slotClient s p i.val = none → g.sentPay[i] = f.pay[i]) := by
  intro f g
  have hg : g = (if f.framing then closeSent p o (clientsSent p o s) else s).ports[p].sf := txEnd_sf p o p s
  rw [hg]
  by_cases hframing : f.framing = true
  · rw [if_pos hframing]
    simp only [closeSent, modSf_sf_same, clientsSent_ports]
    refine ⟨rfl, rfl, fun _ => ⟨rfl, fun i hi => ?_⟩⟩
    have hnone : slotClient (clientsSent p o s) p i.val = none := (clientsSent_slotClient p o s p i.val).mpr hi
    simp only [sentPayload, Fin.getElem_fin, Vector.getElem_ofFn, sentSlot, hnone, Option.filter_none, clientsSent_ports]
    rfl
  · rw [if_neg hframing]
    exact ⟨rfl, rfl, fun h => absurd h hframing⟩

/-! ### The count of the superframe that begins -/

theorem txCount_txNow_state (p q : LPort) (s : State) :
    (txCount p s).ports[q].tr.txNow = s.ports[q].tr.txNow ∧ (txCount p s).ports[q].tr.state = s.ports[q].tr.state := by
  simp only [txCount, modTr_ports, modSf_ports]
  by_cases hq : q = p
  · subst hq
    simp only [vmod_same, and_self]
  · simp only [vmod_other _ _ _ _ hq, and_self]

theorem txCount_front (p q : LPort) (s : State) : (txCount p s).ports[q].front = s.ports[q].front := by
  simp only [txCount, modTr_front, modSf_front]

/-- A terminal port counts on by one, from 0 for its first superframe. -/
theorem txCount_sending (p : LPort) (s : State) (h : regen s p = false) :
    let f := s.ports[p].sf
    let n := if f.framing then f.local_ + 1 else f.local_
    (txCount p s).ports[p].sf.sending = (n, n, true, f.sentPay, f.sentSpanBip) := by
  simp only [txCount, modTr_sf, modSf_sf_same, nextTx, h, Bool.false_eq_true, if_false, Sf.sending]

theorem txExchanged_sending (p q : LPort) (s : State) :
    (txExchanged p s).ports[q].sf.sending = (txCount p s).ports[q].sf.sending := by
  rw [txExchanged, exchangeDue_sending, clockDue_sending]

/-! ### A transmit boundary of a terminal port -/

/-- The state in which a transmit boundary has sent its SFOH. -/
def txSent (p : LPort) (o : TxObs) (s : State) : State :=
  sendSfoh p (endMute p (txReady p o (txExchanged p (txEnd p o (heldStep p s)))))

/-- What follows the SFOH of a transmit boundary leaves alone whatever a snapshot leaves alone. -/
theorem txSuperframeBoundary_reads {β : Type} (g : PortSt → β) (p : LPort) (o : TxObs) (s : State)
    (hon : isOn s (.ld p) = true) (q : LPort) (hsnap : ∀ t, g (snapshot p t).ports[q] = g t.ports[q]) :
    g (txSuperframeBoundary p o s).ports[q] = g (txSent p o s).ports[q] := by
  have hbegin : g (txBegin p o (txEnd p o (heldStep p s))).ports[q] = g (txSent p o s).ports[q] := by
    rw [txBegin_ports]
    rfl
  rw [txSuperframeBoundary_eq, (takeReports_keeps (txRef p) (txWork p o s)).2.1, txWork, if_pos hon]
  exact ite_reads (fun t => g t.ports[q]) hbegin ((hsnap _).trans hbegin)

theorem heldStep_tr (p q : LPort) (s : State) : (heldStep p s).ports[q].tr = s.ports[q].tr := modSf_tr p _ q s

theorem heldStep_front (p q : LPort) (s : State) : (heldStep p s).ports[q].front = s.ports[q].front :=
  modSf_front p _ q s

/-- The held counts are no part of what the framer sends. -/
theorem heldStep_sf (p : LPort) (s : State) :
    let f := s.ports[p].sf
    let g := (heldStep p s).ports[p].sf
    g.framing = f.framing ∧ g.local_ = f.local_ ∧ g.sent = f.sent ∧ g.pay = f.pay := by
  simp only [heldStep, modSf_sf_same, and_self]

/-- Which slots have a client depends on the state of the port, its format and the clients. -/
theorem slotClient_congr {s t : State} (p : LPort) (i : Nat) (htr : t.ports[p].tr = s.ports[p].tr) (hmap : t.map = s.map) :
    slotClient t p i = slotClient s p i := by
  simp only [slotClient, inPayload, htr, hmap]
  rfl

/-- The superframe that ends, as its framer settled it. -/
theorem txEnd_heldStep (p : LPort) (o : TxObs) (s : State) :
    let f := s.ports[p].sf
    let g := (txEnd p o (heldStep p s)).ports[p].sf
    g.framing = f.framing ∧ g.local_ = f.local_ ∧ (f.framing = true →
      g.sentSpanBip = spanBip (dRate s.ports[p].tr.txNow) f.sent g.sentPay ∧
      ∀ i : Fin 16, slotClient s p i.val = none → g.sentPay[i] = f.pay[i]) := by
  obtain ⟨hframing, hlocal, hsent, hpay⟩ := heldStep_sf p s
  obtain ⟨hframing', hlocal', hended⟩ := txEnd_sent p o (heldStep p s)
  refine ⟨hframing'.trans hframing, hlocal'.trans hlocal, fun hf => ?_⟩
  obtain ⟨hspan, hslots⟩ := hended (hframing.trans hf)
  rw [heldStep_tr, hsent] at hspan
  refine ⟨hspan, fun i hi => ?_⟩
  rw [hslots i ((slotClient_congr p i.val (heldStep_tr p p s) rfl).trans hi), hpay]

/-- What the framer of a terminal port sends with. -/
theorem txSent_sending (p : LPort) (o : TxObs) (s : State) (hregen : regen s p = false) :
    let f := s.ports[p].sf
    let g := (txEnd p o (heldStep p s)).ports[p].sf
    let n := if f.framing then f.local_ + 1 else f.local_
    (txSent p o s).ports[p].sf.sending = (n, n, true, g.sentPay, g.sentSpanBip) := by
  obtain ⟨hframing, hlocal, -⟩ := txEnd_heldStep p o s
  have hterm : regen (txEnd p o (heldStep p s)) p = false := (txEnd_regen p o p _).trans hregen
  dsimp only
  rw [txSent, sendSfoh_sending, endMute_sf, txReady_sf, txExchanged_sending, txCount_sending p _ hterm, hframing, hlocal]

theorem txSent_shows (p : LPort) (o : TxObs) (s : State) :
    (txSent p o s).ports[p].sf.Shows (txSent p o s).ports[p].tr.txNow := by
  unfold txSent
  generalize endMute p (txReady p o (txExchanged p (txEnd p o (heldStep p s)))) = u
  exact sendSfoh_shows p u

/-- What the port of a terminal sends at a transmit boundary. -/
theorem txSent_port (p : LPort) (o : TxObs) (s : State) (hregen : regen s p = false) :
    let f := (txSent p o s).ports[p].sf
    let g := s.ports[p].sf
    f.tx = (if g.framing then g.local_ + 1 else g.local_) ∧ f.local_ = f.tx ∧ f.framing = true ∧
      f.sent[0].toNat = psHi f.tx ∧ fld f.sent[1] 31 16 = psLo f.tx ∧ fld f.sent[1] 15 12 = 1 ∧
      f.sent[5] = (txSent p o s).ports[p].tr.txNow ∧ f.sent[63] = crc32c (f.sent.toList.take 63) ∧
      (g.framing = true → f.sent[3] = spanBip (dRate s.ports[p].tr.txNow) g.sent f.sentPay ∧
        ∀ i : Fin 16, slotClient s p i.val = none → f.sentPay[i] = g.pay[i]) := by
  have hsending := txSent_sending p o s hregen
  simp only [Sf.sending, Prod.mk.injEq] at hsending
  obtain ⟨htx, hloc, hfr, hspay, hsbip⟩ := hsending
  obtain ⟨hhi, hlo, hver, hbip, hfmt, hcrc⟩ := txSent_shows p o s
  obtain ⟨-, -, hended⟩ := txEnd_heldStep p o s
  refine ⟨htx, hloc.trans htx.symm, hfr, hhi, hlo, hver, hfmt, hcrc, fun hg => ?_⟩
  rw [hbip, hsbip, hspay]
  exact hended hg

/-! ### The mute of a boundary without an event -/

/-- The mute sources are the same where all that they read is the same. -/
theorem anyMute_congr {s t : State} {p : LPort} {m : Bool} (hpins : t.pins = s.pins) (hmon : t.mon = s.mon)
    (hmap : t.map = s.map) (hpower : t.power.uncleared = s.power.uncleared)
    (hsys : t.sys.dev = s.sys.dev ∧ t.sys.started = s.sys.started) (hst : t.ports[p].tr.state = s.ports[p].tr.state)
    (hfront : t.ports[p].front = { s.ports[p].front with muted := m }) : anyMute t p = anyMute s p := by
  have hcv : isOn t (.cv p) = isOn s (.cv p) := isOn_of_uncleared hpower _
  have hout : outputsOn t = outputsOn s := by rw [outputsOn, outputsOn, hsys.1, hsys.2]
  have hlost : lostMute t p = lostMute s p := by
    have hld : t.power.muteLd = s.power.muteLd := by
      simpa only [Power.uncleared] using congrArg Power.muteLd hpower
    have hcv : t.power.muteCv = s.power.muteCv := by
      simpa only [Power.uncleared] using congrArg Power.muteCv hpower
    rw [lostMute, lostMute, hld, hcv]
  have hdrift : driftMute t p = driftMute s p := by simp only [driftMute, loopOf, hmon]
  have hloop : loopDigital t p = loopDigital s p := by rw [loopDigital, loopDigital, hmap]
  simp only [anyMute, muteSrc, hpins, hcv, hout, hlost, hdrift, hloop, hst, hfront]

/-- How a transmit boundary ends, from the state in which its SFOH is sent. -/
def txFinish (p : LPort) (s : State) : State :=
  let s := sendSfoh p (endMute p s)
  keepOffset (txRef p) (eachOf (s.map.clients.filter (·.port == p)) evalPending s)

theorem txBegin_eq (p : LPort) (o : TxObs) (s : State) : txBegin p o s = txFinish p (txReady p o (txExchanged p s)) := by
  simp only [txBegin, txFinish, txReady, txExchanged]

theorem txFinish_kept (p : LPort) (s : State) : (txFinish p s).pins = s.pins ∧ (txFinish p s).mon = s.mon ∧
    (txFinish p s).map = s.map ∧ (txFinish p s).power = s.power ∧ (txFinish p s).sys = s.sys ∧ (txFinish p s).dial.evs = s.dial.evs := by
  simp [txFinish, keepOffset_evs]

theorem txWork_kept (p : LPort) (o : TxObs) (s : State) (hon : isOn s (.ld p) = true) :
    let u := txReady p o (txExchanged p (txEnd p o (heldStep p s)))
    let v := txWork p o s
    v.pins = u.pins ∧ v.mon = u.mon ∧ v.map = u.map ∧ v.power = u.power ∧ v.sys = u.sys ∧ v.dial.evs = u.dial.evs := by
  dsimp only
  rw [txWork, if_pos hon, txBegin_eq]
  generalize txReady p o (txExchanged p (txEnd p o (heldStep p s))) = u
  dsimp only
  split
  · exact txFinish_kept p u
  · simp only [snapshot_keeps]
    exact txFinish_kept p u

theorem endMute_front (p : LPort) (s : State) :
    (endMute p s).ports[p].front = { s.ports[p].front with muted := anyMute s p } := by
  rw [endMute, modFront_ports, vmod_same]

/-- After a transmit boundary the port mutes when a source is active, and the rest of its front end is as it was when its SFOH
was sent. -/
theorem txSuperframeBoundary_front (p : LPort) (o : TxObs) (s : State) (hon : isOn s (.ld p) = true) :
    let u := txReady p o (txExchanged p (txEnd p o (heldStep p s)))
    let t := txSuperframeBoundary p o s
    t.ports[p].front = { u.ports[p].front with muted := anyMute t p } := by
  intro u t
  have hfront : t.ports[p].front = { u.ports[p].front with muted := anyMute u p } := by
    refine (txSuperframeBoundary_reads PortSt.front p o s hon p (snapshot_front p p)).trans ?_
    rw [txSent, sendSfoh_front, endMute_front]
  have hst : t.ports[p].tr.state = u.ports[p].tr.state := by
    refine (txSuperframeBoundary_reads (·.tr.state) p o s hon p fun v => by rw [snapshot_tr]).trans ?_
    rw [txSent, (sendSfoh_txNow_state p p _).2, endMute_tr]
  obtain ⟨hpins, hmon, hmap, hpower, hsys, -⟩ := txWork_kept p o s hon
  obtain ⟨hdev, hstarted, huncleared, -⟩ := takeReports_answered (txRef p) (txWork p o s)
  have ht : t = takeReports (txRef p) (txWork p o s) := txSuperframeBoundary_eq p o s
  have hsame : anyMute t p = anyMute u p := by
    refine anyMute_congr ?_ ?_ ?_ ?_ ⟨?_, ?_⟩ hst hfront
    · simpa only [ht, takeReports_keeps] using hpins
    · simpa only [ht, takeReports_keeps] using hmon
    · simpa only [ht, takeReports_keeps] using hmap
    · rw [ht, huncleared, hpower]
    · rw [ht, hdev, hsys]
    · rw [ht, hstarted, hsys]
  rw [hsame]
  exact hfront

theorem modFront_drvEn (p q : LPort) (f : Front → Front) (s : State) (h : ∀ x, (f x).drvEn = x.drvEn) :
    (modFront p f s).ports[q].front.drvEn = s.ports[q].front.drvEn := by
  by_cases hq : q = p
  · subst hq
    simp only [modFront_ports, vmod_same, h]
  · simp only [modFront_ports, vmod_other _ _ _ _ hq]

theorem keyStep_drvEn (p q : LPort) (s : State) : (keyStep p s).ports[q].front.drvEn = s.ports[q].front.drvEn := by
  unfold keyStep
  split
  · rfl
  · exact modFront_drvEn p q _ s fun x => by split <;> rfl

theorem slewToRef_drvEn (p q : LPort) (s : State) : (slewToRef p s).ports[q].front.drvEn = s.ports[q].front.drvEn := by
  unfold slewToRef
  split
  · exact modFront_drvEn p q _ s fun x => by unfold slew; split <;> rfl
  · rfl

theorem adcMeasure_drvEn (p : LPort) (levels : Vector (BitVec 16) 4) (clips : Vector Nat 4) (q : LPort) (s : State) :
    (adcMeasure p levels clips s).ports[q].front.drvEn = s.ports[q].front.drvEn := by
  unfold adcMeasure
  split
  · exact modFront_drvEn p q _ s fun _ => rfl
  · rfl

theorem txUnlocked_drvEn (p : LPort) (o : TxObs) (q : LPort) (s : State) :
    (txUnlocked p o s).ports[q].front.drvEn = s.ports[q].front.drvEn := by
  have hmeasured : (rxWaiting p (adcMeasure p o.levels o.adcClips s)).ports[q].front.drvEn = s.ports[q].front.drvEn := by
    rw [rxWaiting_front, adcMeasure_drvEn]
  unfold txUnlocked
  split
  · rfl
  · refine ite_reads (fun t => t.ports[q].front.drvEn) ?_ hmeasured
    rw [calBoundary_front, hmeasured]

theorem txReady_drvEn (p : LPort) (o : TxObs) (q : LPort) (s : State) :
    (txReady p o s).ports[q].front.drvEn = s.ports[q].front.drvEn := by
  simp only [txReady, keyStep_drvEn, nlcTxBoundary_front, txStages_front, startTraces_front, slewToRef_drvEn,
    txUnlocked_drvEn]

/-- Without an event on its reference and without a new sample clock, a transmit boundary only counts. -/
theorem txExchanged_none {p : LPort} {s : State} (hev : ∀ e ∈ s.dial.evs, e.ref ≠ txRef p)
    (hclk : s.ports[p].front.nextSclk = none) : txExchanged p s = txCount p s := by
  have hclk' : (txCount p s).ports[p].front.nextSclk = none := by rw [txCount_front, hclk]
  have hdue : clockDue p (txCount p s) = txCount p s := by
    unfold clockDue
    rw [hclk']
  rw [txExchanged, hdue]
  exact exchangeDue_none hev

theorem txEnd_dial (p : LPort) (o : TxObs) (s : State) : (txEnd p o s).dial = s.dial := by simp

/-! ### A transmit boundary while the line logic is not ON -/

theorem txSuperframeBoundary_off (p : LPort) (o : TxObs) (s : State) (hoff : isOn s (.ld p) = false) :
    txSuperframeBoundary p o s = takeReports (txRef p) (adcMeasure p o.levels o.adcClips (heldStep p s)) := by
  rw [txSuperframeBoundary_eq, txWork, if_neg (by simp [hoff])]

theorem heldStep_off (p : LPort) (s : State) (hoff : isOn s (.ld p) = false) :
    (heldStep p s).ports[p].sf.tx = s.ports[p].sf.tx ∧
      (heldStep p s).ports[p].sf.heldTx = s.ports[p].sf.heldTx.map (· + 1) := by
  simp only [heldStep, modSf_sf_same, hoff, Bool.false_eq_true, if_false, and_self]

/-- The converter levels are measured while CVn is ON. -/
theorem adcMeasure_front (p : LPort) (levels : Vector (BitVec 16) 4) (clips : Vector Nat 4) (s : State) :
    let f := s.ports[p].front
    let g := (adcMeasure p levels clips s).ports[p].front
    g.level = (if isOn s (.cv p) then levels else f.level) ∧ g.muted = f.muted ∧ g.drvEn = f.drvEn := by
  unfold adcMeasure
  split
  · simp only [modFront_ports, vmod_same, and_self]
  · exact ⟨rfl, rfl, rfl⟩

theorem adcMeasure_other (p q : LPort) (levels : Vector (BitVec 16) 4) (clips : Vector Nat 4) (s : State) (h : q ≠ p) :
    (adcMeasure p levels clips s).ports[q] = s.ports[q] := by
  unfold adcMeasure
  split
  · simp only [modFront_ports, vmod_other _ _ _ _ h]
  · rfl

theorem adcMeasure_heldStep_only (p : LPort) (levels : Vector (BitVec 16) 4) (clips : Vector Nat 4) (s : State) :
    Claims.Only [.ports] s (adcMeasure p levels clips (heldStep p s)) := by
  intro x hx
  cases x <;> simp_all [Claims.Same]

/-- Where no report waits for a boundary, its own work is all that it does. -/
theorem takeReports_empty (ref : RefCode) (s : State) (h : s.sys.reports = []) : takeReports ref s = s :=
  takeReports_none ref s (by rw [h]; rfl)

/-- A transmit boundary without an event on its reference and without a new sample clock. -/
theorem txSuperframeBoundary_quiet (p : LPort) (o : TxObs) (s : State) (hon : isOn s (.ld p) = true)
    (hev : ∀ e ∈ s.dial.evs, e.ref ≠ txRef p) (hclk : s.ports[p].front.nextSclk = none) :
    let t := txSuperframeBoundary p o s
    t.ports[p].tr.txNow = s.ports[p].tr.txNow ∧ t.ports[p].front.muted = anyMute t p ∧
      t.ports[p].front.drvEn = s.ports[p].front.drvEn := by
  have hfront := txSuperframeBoundary_front p o s hon
  have hex : txExchanged p (txEnd p o (heldStep p s)) = txCount p (txEnd p o (heldStep p s)) := by
    refine txExchanged_none ?_ ?_
    · rw [txEnd_dial]
      exact hev
    · rw [txEnd_front, heldStep_front, hclk]
  dsimp only at hfront ⊢
  rw [hfront]
  refine ⟨?_, rfl, ?_⟩
  · rw [txSuperframeBoundary_reads (·.tr.txNow) p o s hon p fun v => by rw [snapshot_tr], txSent, (sendSfoh_txNow_state p p _).1,
      endMute_tr, txReady_tr, hex, (txCount_txNow_state p p _).1, txEnd_tr, heldStep_tr]
  · dsimp only
    rw [txReady_drvEn, hex, txCount_front, txEnd_front, heldStep_front]

theorem transmitBoundaryCompletes : Claims.TransmitBoundaryCompletes := by
  intro p o s
  refine ⟨fun hoff => ?_, fun hon hregen => ?_⟩
  · have ht := txSuperframeBoundary_off p o s hoff
    obtain ⟨htx, hheld⟩ := heldStep_off p s hoff
    obtain ⟨hlevel, hmuted, hdrv⟩ := adcMeasure_front p o.levels o.adcClips (heldStep p s)
    rw [heldStep_isOn, heldStep_front] at hlevel
    rw [heldStep_front] at hmuted hdrv
    refine ⟨_, congrArg Host.Outcome.next ht, ?_⟩
    simp only [takeReports_keeps, adcMeasure_sf]
    refine ⟨htx, hheld, hlevel, hmuted, hdrv, fun q hq => ?_, fun hnone => ?_⟩
    · rw [adcMeasure_other p q _ _ _ hq]
      simp only [heldStep, modSf_ports, vmod_other _ _ _ _ hq]
    · have hsys : (adcMeasure p o.levels o.adcClips (heldStep p s)).sys = s.sys := by simp
      rw [takeReports_empty _ _ (by rw [hsys, hnone])]
      exact ⟨fun x hx => adcMeasure_heldStep_only p _ _ s x (by simp_all), hsys⟩
  · have hsf := txSuperframeBoundary_reads PortSt.sf p o s hon p (snapshot_sf p p)
    have htr := txSuperframeBoundary_reads PortSt.tr p o s hon p (snapshot_tr p p)
    refine ⟨_, rfl, ?_⟩
    dsimp only
    rw [hsf, htr]
    obtain ⟨htx, hloc, hfr, hhi, hlo, hver, hfmt, hcrc, hended⟩ := txSent_port p o s hregen
    refine ⟨htx, hloc, hfr, hhi, hlo, hver, hfmt, hcrc, hended, fun hev hclk => ?_⟩
    obtain ⟨hnow, hmuted, hdrv⟩ := txSuperframeBoundary_quiet p o s hon hev hclk
    rw [htr] at hnow
    exact ⟨hnow, hmuted, hdrv⟩

end Sys2Proof.Machine
end

section
/-! PROOF. The exchange of an EXACT event at the boundary of its target (R31, R128, R178, R297, R300), and superframe
boundaries as a whole. -/

namespace Sys2Proof.Machine

/-! ### One event that is due -/

theorem psfnDiff_self (n : Psfn) : psfnDiff n n = 0 := by
  rw [psfnDiff, BitVec.sub_self]
  rfl

/-- A staged EXACT event on its reference, alone there and at its target, is what the boundary exchanges. -/
theorem dueExact_one {r : RefCode} {s : State} {e : DialEv} (hone : s.dial.evs.filter (·.ref == r) = [e])
    (hvalid : refValid s r = true) (hexact : e.exact = true) (hphase : e.phase = .staged) (hdone : e.stagingDone = true)
    (hcount : e.target = refCount s r) : dueExact r s = [e] := by
  have href : e.ref = r := by
    have hmem : e ∈ s.dial.evs.filter (·.ref == r) := by rw [hone]; exact List.mem_singleton_self e
    simpa using (List.mem_filter.mp hmem).2
  have hdue : isDue s e = true := by
    have hreached : psfnDiff e.target (refCount s e.ref) = 0 := by rw [href, hcount, psfnDiff_self]
    simp [isDue, DialEv.waits, hphase, hdone, hexact, hreached]
  have hevs : dueEvents r s = [e] := by
    have hboth : s.dial.evs.filter (fun x => x.ref == r && isDue s x) = (s.dial.evs.filter (·.ref == r)).filter (isDue s) := by
      simp only [List.filter_filter, Bool.and_comm]
    rw [dueEvents, hboth, hone]
    simp [hdue, insertRelease]
  simp [dueExact, hvalid, hevs, hexact]

/-- After the mark of its exchange an event is released. -/
theorem markExchanged_released (r : RefCode) (n : Psfn) (e : DialEv) (s : State) :
    ∀ x ∈ (markExchanged r n e s).dial.evs, x.idx = e.idx → x.phase = .released := by
  intro x hx hidx
  obtain ⟨a, -, rfl⟩ := List.mem_map.mp hx
  by_cases ha : a.idx = e.idx
  · simp [ha]
  · rw [if_neg (by simpa using ha)] at hidx
    exact absurd hidx ha

theorem exchangeDue_one {r : RefCode} {s : State} {e : DialEv} (h : dueExact r s = [e]) (hkind : e.kind = .stored) :
    exchangeDue r s = exactEffect e (markExchanged r (refCount s r) e s) := by
  simp [exchangeDue, h, eachOf, exchangeEvent, hkind]

/-! ### A receive configuration takes effect at its boundary -/

theorem rxSet_cfg (p : LPort) (i : Fin 8) (w : Word) (s : State) :
    (rxSet p i w s).ports[p].rx.cfg = vset s.ports[p].rx.cfg i w := by
  simp only [rxSet, modRx_ports, vmod_same]

/-- Words set one after the other: a listed one is in force, another is as it was. -/
theorem eachOf_rxSet_cfg (p : LPort) (w : Fin 8 → Word) (is : List (Fin 8)) (s : State) (k : Fin 8) :
    (eachOf is (fun i => rxSet p i (w i)) s).ports[p].rx.cfg[k] = if k ∈ is then w k else s.ports[p].rx.cfg[k] := by
  induction is generalizing s with
  | nil => rfl
  | cons i is ih =>
    have hstep : eachOf (i :: is) (fun i => rxSet p i (w i)) s =
        eachOf is (fun i => rxSet p i (w i)) (rxSet p i (w i) s) := rfl
    rw [hstep, ih, rxSet_cfg]
    by_cases hk : k = i
    · subst hk
      simp
    · simp only [List.mem_cons, hk, false_or, vset_other _ _ _ _ hk]

theorem rxSetSel_cfg (p : LPort) (ps : List Word) (is : List (Fin 8)) (s : State) (k : Fin 8) (hk : k ∈ is)
    (hsel : maskSel ps (k.val + 1) = true) : (rxSetSel p ps is s).ports[p].rx.cfg[k] = ps.getD (k.val + 1) 0 := by
  rw [rxSetSel, eachOf_rxSet_cfg p (fun i => ps.getD (i.val + 1) 0)]
  exact if_pos (List.mem_filter.mpr ⟨hk, hsel⟩)

/-! ### A transmit configuration takes effect at its boundary -/

/-- The word of LINE_TX_CONFIG that an exchange sets, and what waits for it. -/
def Tx.word3 (t : Tx) : Word × Option Word := (t.cfg[(2 : Fin 7)], t.next[(2 : Fin 7)])

theorem txFilters_word3 (p : LPort) (ps ws : List Word) (s : State) :
    (txFilters p ps ws s).ports[p].tx.word3 = s.ports[p].tx.word3 := by
  simp only [txFilters]
  split_ifs <;> simp only [modTx_ports, vmod_same, Tx.word3, vset_other _ _ _ _ (by decide : (2 : Fin 7) ≠ 5),
    vset_other _ _ _ _ (by decide : (2 : Fin 7) ≠ 6)]

theorem txExact_word3 (ps ws : List Word) (s : State) (p : LPort) (hp : Fin.ofNat 4 (fld (ps.getD 0 0) 31 30) = p)
    (hsel : maskSel ps 3 = true) : (txExact ps ws s).ports[p].tx.word3 = (ps.getD 3 0, none) := by
  simp only [txExact, hp, hsel, if_true]
  rw [txFilters_word3]
  simp only [modTx_ports, vmod_same, Tx.word3, vset_same]

theorem txApply_word3 (t : Tx) : (txApply t).word3 = (t.word3.2.getD t.word3.1, none) := by
  simp [txApply, Tx.word3]

theorem gainStep_cfg (down : Bool) (rms : Vector Byte 4) (codes : Vector (List Int) 4) (t : Tx) :
    (gainStep down rms codes t).cfg = t.cfg := by
  unfold gainStep
  split <;> rfl

theorem skewApply_cfg (p : LPort) (s : State) : (skewApply p s).ports[p].tx.cfg = s.ports[p].tx.cfg := by
  simp only [skewApply, setAlarm_keeps, modTx_ports, vmod_same]

theorem nlcEval_ports (s : State) : (nlcEval s).ports = s.ports := by simp

/-- The transmit stages keep a word that nothing waits to replace. -/
theorem txStages_word3 (p : LPort) (o : TxObs) (s : State) (w : Word) (h : s.ports[p].tx.word3 = (w, none)) :
    (txStages p o s).ports[p].tx.word3.1 = w := by
  have hcfg : (txStages p o s).ports[p].tx.cfg = (txApply s.ports[p].tx).cfg := by
    refine (congrArg Tx.cfg (doIf_tx _ nlcEval p _ fun t => by rw [nlcEval_ports])).trans ?_
    rw [skewApply_cfg]
    simp only [modTx_ports, vmod_same, skewStep, gainStep_cfg]
  have happly : (txApply s.ports[p].tx).word3 = (w, none) := by
    rw [txApply_word3, h]
    rfl
  rw [Tx.word3, hcfg]
  exact congrArg Prod.fst happly

/-! ### The exchanges -/

theorem snapshot_cfg (p q : LPort) (s : State) : (snapshot p s).ports[q].rx.cfg = s.ports[q].rx.cfg := by
  by_cases hq : q = p
  · subst hq
    simp only [snapshot, modRx_ports, vmod_same]
  · simp only [snapshot, modRx_ports, vmod_other _ _ _ _ hq]

theorem refitSf_ports (p : LPort) (s : State) : (refitSf p s).ports = s.ports ∧ (refitSf p s).dial = s.dial := by
  simp

/-- A LINE_RX_CONFIG that is due is exchanged at a receive boundary (R31, R128). -/
theorem rxExchange_one {p : LPort} {s : State} {e : DialEv} (h : dueExact (rxRef p) s = [e]) (hkind : e.kind = .stored)
    (hop : e.opcode = 0x2003) (hp : Fin.ofNat 4 (fld (e.params.getD 0 0) 31 30) = p) :
    (∀ x ∈ (rxExchange p s).dial.evs, x.idx = e.idx → x.phase = .released) ∧
      ∀ k : Fin 8, k ∈ [(4 : Fin 8), 5, 6] → maskSel e.params (k.val + 1) = true →
        (rxExchange p s).ports[p].rx.cfg[k] = e.params.getD (k.val + 1) 0 := by
  have hex : rxExchange p s = refitSf p (rxExact e.params (markExchanged (rxRef p) (refCount s (rxRef p)) e s)) := by
    rw [rxExchange, h, exchangeDue_one h hkind, exactEffect, hop]
    rfl
  obtain ⟨hports, hdial⟩ := refitSf_ports p (rxExact e.params (markExchanged (rxRef p) (refCount s (rxRef p)) e s))
  rw [hex, hports, hdial, rxExact, hp]
  refine ⟨?_, fun k hk hsel => rxSetSel_cfg p _ _ _ k hk hsel⟩
  simpa using markExchanged_released (rxRef p) (refCount s (rxRef p)) e s

/-- A LINE_TX_CONFIG that is due is exchanged at a transmit boundary (R31, R178). -/
theorem exchangeDue_txExact {p : LPort} {s : State} {e : DialEv} (h : dueExact (txRef p) s = [e]) (hkind : e.kind = .stored)
    (hop : e.opcode = 0x2004) (hp : Fin.ofNat 4 (fld (e.params.getD 0 0) 31 30) = p) (hsel : maskSel e.params 3 = true) :
    (∀ x ∈ (exchangeDue (txRef p) s).dial.evs, x.idx = e.idx → x.phase = .released) ∧
      (exchangeDue (txRef p) s).ports[p].tx.word3 = (e.params.getD 3 0, none) := by
  have hex : exchangeDue (txRef p) s = txExact e.params e.data (markExchanged (txRef p) (refCount s (txRef p)) e s) := by
    rw [exchangeDue_one h hkind, exactEffect, hop]
    rfl
  rw [hex]
  refine ⟨?_, txExact_word3 _ _ _ p hp hsel⟩
  simpa using markExchanged_released (txRef p) (refCount s (txRef p)) e s

theorem rxRef_port_isRx (p : LPort) : refPort (rxRef p) = p ∧ isRx (rxRef p) = true := by revert p; decide

theorem txRef_port_isRx (p : LPort) : refPort (txRef p) = p ∧ isRx (txRef p) = false := by revert p; decide

theorem rxRef_valid {p : LPort} {s : State} (h : s.ports[p].sf.lock = true) :
    refValid s (rxRef p) = true ∧ refCount s (rxRef p) = s.ports[p].sf.fly := by
  obtain ⟨hport, hrx⟩ := rxRef_port_isRx p
  simp only [refValid, refCount, hport, hrx, h, if_true, and_self]

theorem txRef_valid {p : LPort} {s : State} (h : isOn s (.ld p) = true) :
    refValid s (txRef p) = true ∧ refCount s (txRef p) = s.ports[p].sf.tx := by
  obtain ⟨hport, hrx⟩ := txRef_port_isRx p
  simp only [refValid, refCount, hport, hrx, h, if_true, Bool.false_eq_true, if_false, and_self]

/-- The receive boundary of its target exchanges a LINE_RX_CONFIG. -/
theorem rxSuperframeBoundary_exchanges (p : LPort) (o : RxObs) (s : State) (e : DialEv) (hon : isOn s (.ld p) = true)
    (hexact : e.exact = true) (hkind : e.kind = .stored) (hphase : e.phase = .staged) (hdone : e.stagingDone = true)
    (hp : Fin.ofNat 4 (fld (e.params.getD 0 0) 31 30) = p) (hone : s.dial.evs.filter (·.ref == rxRef p) = [e])
    (hop : e.opcode = 0x2003) (hst : s.ports[p].tr.state ≠ .down) (hlock : s.ports[p].sf.lock = true)
    (htarget : e.target = s.ports[p].sf.fly + 1) :
    let t := rxSuperframeBoundary p o s
    (∀ x ∈ t.dial.evs, x.idx = e.idx → x.phase = .released) ∧
      ∀ k : Fin 8, k ∈ [(4 : Fin 8), 5, 6] → maskSel e.params (k.val + 1) = true →
        t.ports[p].rx.cfg[k] = e.params.getD (k.val + 1) 0 := by
  have hsf : (rxBeforeExchange p o (rxWork p o s)).ports[p].sf = (rxWork p o s).ports[p].sf := rxBeforeExchange_sf ..
  have hlock' : (rxBeforeExchange p o (rxWork p o s)).ports[p].sf.lock = true := by rw [hsf, rxWork_lock, hlock]
  have hfly : (rxBeforeExchange p o (rxWork p o s)).ports[p].sf.fly = s.ports[p].sf.fly + 1 := by rw [hsf, rxWork_sf]
  have hevs : (rxBeforeExchange p o (rxWork p o s)).dial.evs = s.dial.evs := by rw [rxBeforeExchange_evs, rxWork_dial]
  have ht := rxSuperframeBoundary_locked p o s hon hst hlock
  rw [rxLockedWork_eq] at ht
  generalize rxBeforeExchange p o (rxWork p o s) = v at hlock' hfly hevs ht
  obtain ⟨hvalid, hcount⟩ := rxRef_valid hlock'
  have hdue : dueExact (rxRef p) v = [e] :=
    dueExact_one (hevs ▸ hone) hvalid hexact hphase hdone (by rw [hcount, hfly, htarget])
  obtain ⟨hreleased, hcfg⟩ := rxExchange_one hdue hkind hop hp
  obtain ⟨-, -, -, hleft⟩ := takeReports_answered (rxRef p) (snapshot p (rxExchange p v))
  dsimp only
  rw [ht]
  refine ⟨fun x hx => hreleased x (by simpa using hleft x hx), fun k hk hsel => ?_⟩
  simp only [takeReports_keeps, snapshot_cfg]
  exact hcfg k hk hsel

/-- Without a new sample clock a transmit boundary exchanges right after the count. -/
theorem clockDue_none {p : LPort} {s : State} (h : s.ports[p].front.nextSclk = none) : clockDue p s = s := by
  unfold clockDue
  rw [h]

theorem txReady_dial (p : LPort) (o : TxObs) (s : State) : (txReady p o s).dial = s.dial := by
  simp [txReady]

theorem txCount_isOn (p : LPort) (s : State) (d : Dom) : isOn (txCount p s) d = isOn s d := by
  cases d <;> simp [isOn, domSt]

theorem txEnd_isOn (p : LPort) (o : TxObs) (s : State) (d : Dom) : isOn (txEnd p o s) d = isOn s d := by
  cases d <;> simp [isOn, domSt]

/-- What follows its exchange keeps the word that a transmit boundary has put in force. -/
theorem txReady_word3 (p : LPort) (o : TxObs) (s : State) (w : Word) (h : s.ports[p].tx.word3 = (w, none)) :
    (txReady p o s).ports[p].tx.word3.1 = w := by
  have hstart : (startTraces p (slewToRef p (txUnlocked p o s))).ports[p].tx.word3 = (w, none) := by
    rw [startTraces_tx, slewToRef_tx, txUnlocked_tx, h]
  simp only [txReady, keyStep_tx, nlcTxBoundary_tx]
  exact txStages_word3 p o _ w hstart

/-- A LINE_TX_CONFIG whose target the count reaches takes effect as the superframe begins. -/
theorem txExchanged_one {p : LPort} {s : State} {e : DialEv} (hon : isOn s (.ld p) = true)
    (hexact : e.exact = true) (hkind : e.kind = .stored) (hphase : e.phase = .staged) (hdone : e.stagingDone = true)
    (hp : Fin.ofNat 4 (fld (e.params.getD 0 0) 31 30) = p) (hone : s.dial.evs.filter (·.ref == txRef p) = [e])
    (hop : e.opcode = 0x2004) (hregen : regen s p = false) (hclk : s.ports[p].front.nextSclk = none)
    (htarget : e.target = if s.ports[p].sf.framing then s.ports[p].sf.local_ + 1 else s.ports[p].sf.local_)
    (hsel : maskSel e.params 3 = true) :
    (∀ x ∈ (txExchanged p s).dial.evs, x.idx = e.idx → x.phase = .released) ∧
      (txExchanged p s).ports[p].tx.word3 = (e.params.getD 3 0, none) := by
  have htx : (txCount p s).ports[p].sf.tx = e.target := by
    have hsending := txCount_sending p s hregen
    simp only [Sf.sending, Prod.mk.injEq] at hsending
    rw [htarget, hsending.1]
  have hevs : (txCount p s).dial.evs = s.dial.evs := by simp
  rw [txExchanged, clockDue_none (by rw [txCount_front, hclk])]
  obtain ⟨hvalid, hcount⟩ := txRef_valid ((txCount_isOn p s (.ld p)).trans hon)
  have hdue : dueExact (txRef p) (txCount p s) = [e] :=
    dueExact_one (hevs ▸ hone) hvalid hexact hphase hdone (by rw [hcount, htx])
  exact exchangeDue_txExact hdue hkind hop hp hsel

/-- The word that its exchange has put in force stands after a transmit boundary. -/
theorem txSuperframeBoundary_word3 (p : LPort) (o : TxObs) (s : State) (w : Word) (hon : isOn s (.ld p) = true)
    (h : (txExchanged p (txEnd p o (heldStep p s))).ports[p].tx.word3 = (w, none)) :
    (txSuperframeBoundary p o s).ports[p].tx.word3.1 = w := by
  have htx := txSuperframeBoundary_reads PortSt.tx p o s hon p (snapshot_tx p p)
  rw [txSent, sendSfoh_tx, endMute_tx] at htx
  generalize txExchanged p (txEnd p o (heldStep p s)) = u at h htx
  rw [htx]
  exact txReady_word3 p o u w h

/-- The events of the Dial after a transmit boundary are among those after its exchange. -/
theorem txSuperframeBoundary_evs (p : LPort) (o : TxObs) (s : State) (hon : isOn s (.ld p) = true) :
    ∀ x ∈ (txSuperframeBoundary p o s).dial.evs, x ∈ (txExchanged p (txEnd p o (heldStep p s))).dial.evs := by
  obtain ⟨-, -, -, -, -, hwork⟩ := txWork_kept p o s hon
  obtain ⟨-, -, -, hleft⟩ := takeReports_answered (txRef p) (txWork p o s)
  rw [txReady_dial] at hwork
  rw [txSuperframeBoundary_eq, ← hwork]
  exact hleft

theorem boundaryExchanges : Claims.BoundaryExchanges := by
  intro p s e hon hexact hkind hphase hdone hp _
  refine ⟨fun o hone hop hst hlock htarget => ?_, fun o hone hop hregen hclk htarget hbit => ?_⟩
  · obtain ⟨hreleased, hcfg⟩ :=
      rxSuperframeBoundary_exchanges p o s e hon hexact hkind hphase hdone hp hone hop hst hlock htarget
    have hmem : ∀ k : Fin 8, k.val ∈ [4, 5, 6] → k ∈ [(4 : Fin 8), 5, 6] := by decide
    exact ⟨_, rfl, hreleased, fun k hk hbit => hcfg k (hmem k hk) hbit⟩
  · obtain ⟨hframing, hlocal, -⟩ := txEnd_heldStep p o s
    obtain ⟨hreleased, hword⟩ := txExchanged_one (s := txEnd p o (heldStep p s))
      (by rw [txEnd_isOn, heldStep_isOn, hon]) hexact hkind hphase hdone hp (by rw [txEnd_dial]; exact hone) hop
      ((txEnd_regen p o p _).trans hregen) (by rw [txEnd_front, heldStep_front, hclk])
      (by rw [hframing, hlocal, htarget]) hbit
    exact ⟨_, rfl, fun x hx => hreleased x (txSuperframeBoundary_evs p o s hon x hx),
      txSuperframeBoundary_word3 p o s _ hon hword⟩

end Sys2Proof.Machine

open Sys2Proof Sys2Proof.Machine

/-- Settles O57: a transmit boundary is followed from the superframe that ends to the SFOH that begins the next, a receive
boundary through its measurements, and both through the exchange of the one event that is due. -/
theorem superframeBoundariesComplete : Obligations.SuperframeBoundariesComplete :=
  ⟨transmitBoundaryCompletes, receiveBoundaryCompletes, boundaryExchanges⟩

end

section
/-! PROOF. The front end of a port: its outputs as they are brought in line (R90, R94 to R96), and what a receiver's attempt
and the end of a sample-clock change leave alone (R84, R134). -/

namespace Sys2Proof.Machine

/-! ### The front end apart from its outputs -/

/-- The front end apart from its outputs: DRV_EN_n with its settling time, and the mute of the DAC lanes. -/
def Front.inner (f : Front) : Front := { f with drvEn := false, drvFalling := false, tDrv := none, muted := false }

/-- Bringing outputs in line changes nothing of a front end but its outputs (R90, R94). -/
theorem refreshPort_inner (p q : LPort) (s : State) :
    (refreshPort p s).ports[q].front.inner = s.ports[q].front.inner := by
  by_cases hq : q = p
  · subst hq
    simp only [refreshPort, modFront_ports, vmod_same]
    split_ifs <;> rfl
  · simp only [refreshPort, modFront_ports, vmod_other _ _ _ _ hq]

theorem refresh_inner (q : LPort) (s : State) : (refresh s).ports[q].front.inner = s.ports[q].front.inner := by
  simp only [refresh, eachPort, refreshPort_inner]

theorem setAlarm_port (key : AlarmKey) (b : Nat) (on : Bool) (q : LPort) (s : State) :
    (setAlarm key b on s).ports[q] = s.ports[q] := by
  simp only [setAlarm_keeps]

theorem modFront_front (p : LPort) (f : Front → Front) (s : State) :
    (modFront p f s).ports[p].front = f s.ports[p].front := by
  rw [modFront_ports, vmod_same]

/-- A change of a front end changes nothing else of any port. -/
theorem modFront_port (p q : LPort) (f : Front → Front) (s : State) :
    (modFront p f s).ports[q] = { s.ports[q] with front := (modFront p f s).ports[q].front } := by
  by_cases hq : q = p
  · subst hq
    simp only [modFront_ports, vmod_same]
  · simp only [modFront_ports, vmod_other _ _ _ _ hq]

theorem modFront_cal (p q : LPort) (f : Front → Front) (s : State) :
    (modFront p f s).ports[q].cal = s.ports[q].cal := by
  rw [modFront_port]

theorem refreshPort_cal (p q : LPort) (s : State) : (refreshPort p s).ports[q].cal = s.ports[q].cal := by
  simp only [refreshPort, modFront_cal]

/-! ### Mute sources -/

/-- A synthesizer that is not locked is a mute source (R90). -/
theorem anyMute_of_unlocked (s : State) (p : LPort) (h : s.ports[p].front.locked = false) : anyMute s p = true := by
  simp only [anyMute, muteSrc, h, List.any_cons, Bool.not_false, Bool.true_or, Bool.or_true, id]

/-- A low DRV_EN_n is a mute source (R90). -/
theorem anyMute_of_drvLow (s : State) (p : LPort) (h : s.ports[p].front.drvEn = false) : anyMute s p = true := by
  simp only [anyMute, muteSrc, h, List.any_cons, Bool.not_false, Bool.true_or, Bool.or_true, id]

/-- A port whose synthesizer is not locked is muted once its outputs are brought in line. -/
theorem refreshPort_unlocked (p : LPort) (s : State) (h : s.ports[p].front.locked = false) :
    (refreshPort p s).ports[p].front.muted = true := by
  simp only [refreshPort, modFront_front]
  refine (Bool.or_eq_true _ _).mpr (Or.inr (anyMute_of_unlocked _ p ?_))
  rw [modFront_front]
  split_ifs <;> exact h

/-- While a condition of R94 fails, a low DRV_EN_n stays low and mutes the port (R90, R95). -/
theorem refreshPort_drvLow (p : LPort) (s : State) (hcond : drvCond s p = false) (hlow : s.ports[p].front.drvEn = false) :
    (refreshPort p s).ports[p].front = { s.ports[p].front with tDrv := none, muted := true } := by
  have hmute : ∀ f : Front → Front, (f s.ports[p].front).drvEn = false → anyMute (modFront p f s) p = true :=
    fun f hf => anyMute_of_drvLow _ p (by rw [modFront_front, hf])
  simp only [refreshPort, hcond, modFront_front, Bool.false_eq_true, if_false]
  rw [hmute _ (by simp only [hlow, Bool.false_eq_true, if_false]), hlow, Bool.or_true]
  rfl

/-! ### A receiver's attempt and the end of a sample-clock change -/

/-- An attempt that starts changes nothing of any port but a receiver (R134). -/
theorem startAttempt_port (p q : LPort) (s : State) :
    (startAttempt p s).ports[q] = { s.ports[q] with rx := (startAttempt p s).ports[q].rx } := by
  simp only [startAttempt]
  split_ifs
  · by_cases hq : q = p
    · subst hq
      simp only [setAlarm_keeps, modRx_ports, vmod_same]
    · simp only [setAlarm_keeps, modRx_ports, vmod_other _ _ _ _ hq]
  · rfl

theorem maybeAcquire_port (p q : LPort) (s : State) :
    (maybeAcquire p s).ports[q] = { s.ports[q] with rx := (maybeAcquire p s).ports[q].rx } := by
  simp only [maybeAcquire]
  split_ifs
  · rfl
  · exact startAttempt_port p q s

theorem maybeAcquire_front (p q : LPort) (s : State) : (maybeAcquire p s).ports[q].front = s.ports[q].front := by
  rw [maybeAcquire_port]

theorem maybeAcquire_tr2 (p q : LPort) (s : State) : (maybeAcquire p s).ports[q].tr2 = s.ports[q].tr2 := by
  rw [maybeAcquire_port]

/-- The interval of a sample-clock change ends at a lock, unless a foreground run goes on (R84). -/
theorem endChange_inner (p : LPort) (s : State) :
    (endChange p s).ports[p].front.inner = { s.ports[p].front.inner with
      changing := s.ports[p].front.inner.changing &&
        !(s.ports[p].front.inner.locked && s.ports[p].cal.run != .foreground) } := by
  have hends : ∀ c l r : Bool, (c && l && r) = true → false = (c && !(l && r)) := by decide
  have hlasts : ∀ c l r : Bool, ¬ (c && l && r) = true → c = (c && !(l && r)) := by decide
  unfold endChange
  split_ifs with h
  · rw [maybeAcquire_front, refresh_inner, modFront_front]
    exact congrArg (fun c => { s.ports[p].front.inner with changing := c }) (hends _ _ _ h)
  · exact congrArg (fun c => { s.ports[p].front.inner with changing := c }) (hlasts _ _ _ h)

end Sys2Proof.Machine
end

section
/-! PROOF. O25: the light detector, the synthesizer, the ADC levels, MUTE_N and DRV_EN_n (R77, R83 to R86, R91, R92, R95,
R96). -/

namespace Sys2Proof.Machine

/-! ### The synthesizer -/

/-- What a lock changes of the front end, apart from its outputs (R84, R85). -/
theorem synthLock_inner (p : LPort) (s : State) (h : s.ports[p].front.attempt = true) :
    (synthLock p s).ports[p].front.inner = { s.ports[p].front.inner with
      locked := true, attempt := false
      changing := s.ports[p].front.changing && !(s.ports[p].cal.run != .foreground) } := by
  rw [synthLock, if_pos h, maybeAcquire_front, endChange_inner, refreshPort_inner, refreshPort_cal, modFront_cal,
    modFront_front]
  rfl

/-- A synthesizer that counts as unlocked makes another attempt, counts, and mutes its port (R85). -/
theorem unlock_acts (p : LPort) (s : State) :
    (unlock p s).ports[p].front.inner = { s.ports[p].front.inner with
        locked := false, attempt := true, changing := false, synthUnlock := s.ports[p].front.synthUnlock + 1 } ∧
      (unlock p s).ports[p].front.muted = true ∧ alarmOn (unlock p s) (.conv p) 2 = true := by
  refine ⟨?_, ?_, alarmOn_setAlarm _ _ _ _ (by decide)⟩
  · simp only [unlock, setAlarm_keeps, refreshPort_inner, modFront_front]
    rfl
  · simp only [unlock, setAlarm_keeps]
    exact refreshPort_unlocked p _ (by rw [modFront_front])

/-! ### Light and levels -/

/-- Light at the converters, and from when TRAIN_TIME runs in ACQUIRE (R86, R134). -/
theorem lightDetectAssert_acts (p : LPort) (s : State) (h : s.ports[p].front.light = false) :
    (lightDetectAssert p s).ports[p].front = { s.ports[p].front with light := true } ∧
      (s.ports[p].tr.state = .acquire → (lightDetectAssert p s).ports[p].tr2.lightAt = some s.sys.usec) := by
  simp only [lightDetectAssert, h, maybeAcquire_front, maybeAcquire_tr2, modFront_tr, Bool.false_eq_true, if_false]
  refine ⟨?_, fun hst => ?_⟩
  · split_ifs
    · rw [modTr2_front, modFront_front]
    · rw [modFront_front]
  · rw [hst, beq_self_eq_true, if_pos rfl, modTr2_ports, vmod_same]

/-- The lanes of a level alarm after lane `lane` is set or cleared (R77). -/
theorem getLsbD_laneBits (b : BitVec 4) (lane i : CLane) (on : Bool) :
    (laneBits b lane on).getLsbD i.val = if i = lane then on else b.getLsbD i.val := by
  have hone : (BitVec.ofNat 4 (2 ^ lane.val)).getLsbD i.val = decide (i = lane) := by
    rw [BitVec.getLsbD_ofNat, Nat.testBit_two_pow, decide_eq_true i.isLt, Bool.true_and]
    simp only [Fin.ext_iff, eq_comm]
  cases on
  · simp only [laneBits, Bool.false_eq_true, if_false, BitVec.getLsbD_and, BitVec.getLsbD_not, hone, decide_eq_true i.isLt]
    by_cases hi : i = lane <;> simp [hi]
  · simp only [laneBits, if_true, BitVec.getLsbD_or, hone]
    by_cases hi : i = lane <;> simp [hi]

theorem adcLevelLow_acts (p : LPort) (lane : CLane) (raised : Bool) (s : State) (hon : isOn s (.cv p) = true) :
    (adcLevelLow p lane raised s).ports[p].front.lowLanes = laneBits s.ports[p].front.lowLanes lane raised ∧
      alarmOn (adcLevelLow p lane raised s) (.conv p) 0 = (laneBits s.ports[p].front.lowLanes lane raised != 0) := by
  rw [adcLevelLow, if_pos hon]
  refine ⟨?_, alarmOn_setAlarm _ _ _ _ (by decide)⟩
  rw [setAlarm_port, modFront_front]

theorem adcLevelHigh_acts (p : LPort) (lane : CLane) (raised : Bool) (s : State) (hon : isOn s (.cv p) = true) :
    (adcLevelHigh p lane raised s).ports[p].front.highLanes = laneBits s.ports[p].front.highLanes lane raised ∧
      alarmOn (adcLevelHigh p lane raised s) (.conv p) 1 = (laneBits s.ports[p].front.highLanes lane raised != 0) := by
  rw [adcLevelHigh, if_pos hon]
  refine ⟨?_, alarmOn_setAlarm _ _ _ _ (by decide)⟩
  rw [setAlarm_port, modFront_front]

theorem frontEndEvents : Claims.FrontEndEventsComplete := by
  intro p s
  refine ⟨fun hdark => ?_, fun hattempt => ?_, fun hlocked => ?_, fun hchanging hlocked => ?_, fun hregen => ?_,
    fun hattempt => congrArg Host.Outcome.next (if_pos hattempt), fun lane raised hon => ⟨?_, ?_⟩⟩
  · exact ⟨_, rfl, lightDetectAssert_acts p s hdark⟩
  · have hinner := synthLock_inner p s hattempt
    refine ⟨_, rfl, congrArg Front.locked hinner, congrArg Front.attempt hinner, fun hrun => ?_⟩
    refine (congrArg Front.changing hinner).trans ?_
    simp only [bne_iff_ne.mpr hrun, Bool.not_true, Bool.and_false]
  · obtain ⟨hinner, hmuted, halarm⟩ := unlock_acts p s
    exact ⟨_, congrArg Host.Outcome.next (if_pos hlocked), congrArg Front.locked hinner, congrArg Front.attempt hinner,
      congrArg Front.synthUnlock hinner, hmuted, halarm⟩
  · obtain ⟨hinner, -, halarm⟩ := unlock_acts p s
    exact ⟨_, congrArg Host.Outcome.next (if_pos (by rw [hchanging, hlocked]; rfl)), congrArg Front.changing hinner,
      congrArg Front.attempt hinner, congrArg Front.synthUnlock hinner, halarm⟩
  · refine ⟨_, congrArg Host.Outcome.next (if_pos hregen), ?_, ?_, alarmOn_setAlarm _ _ _ _ (by decide)⟩ <;>
      simp only [setAlarm_keeps, modFront_front]
  · obtain ⟨hlanes, halarm⟩ := adcLevelLow_acts p lane raised s hon
    exact ⟨_, rfl, fun i => by rw [hlanes, getLsbD_laneBits], by rw [halarm, hlanes]⟩
  · obtain ⟨hlanes, halarm⟩ := adcLevelHigh_acts p lane raised s hon
    exact ⟨_, rfl, fun i => by rw [hlanes, getLsbD_laneBits], by rw [halarm, hlanes]⟩

/-! ### MUTE_N and DRV_EN_n -/

/-- The pins after a pulse at MUTE_N that acts (R91, R93). -/
def Pins.muted (x : Pins) : Pins :=
  { x with muteHigh := false, muteClear := false, muteTimer := false, muteEvents := x.muteEvents + 1 }

/-- A pulse of 200 ns acts, and so does one of 50 ns or longer that the outside world has act (R91). -/
theorem muteNFall_pulse (ns : Nat) (mid : Bool) (s : State) (hhigh : s.pins.muteHigh = true)
    (hns : 200 ≤ ns ∨ (50 ≤ ns ∧ mid = true)) : muteNFall ns mid s = refresh (modPins Pins.muted s) := by
  simp only [muteNFall, hhigh, Bool.and_true, Bool.or_eq_true, Bool.and_eq_true, decide_eq_true_eq, hns, if_true]
  rfl

/-- A pulse shorter than 50 ns does nothing (R91). -/
theorem muteNFall_short (ns : Nat) (mid : Bool) (s : State) (hns : ns < 50) : muteNFall ns mid s = s := by
  have hlong : ¬ 200 ≤ ns := by omega
  have hmid : ¬ 50 ≤ ns := by omega
  simp only [muteNFall, hlong, hmid, decide_false, Bool.false_and, Bool.or_false, Bool.false_eq_true, if_false]

/-- No condition of R94 asks for the level of DRV_EN_n. -/
theorem drvCond_drvEn (p : LPort) (en falling : Bool) (s : State) :
    drvCond (modFront p (fun f => { f with drvEn := en, drvFalling := falling }) s) p = drvCond s p := by
  simp only [drvCond, modFront_front]
  rfl

/-- A DRV_EN_n that falls stays low while a condition of R94 fails, and its port is muted (R90, R95). -/
theorem drvEnFall_front (p : LPort) (s : State) (hfalling : s.ports[p].front.drvFalling = true)
    (hcond : drvCond s p = false) :
    (drvEnFall p s).ports[p].front =
      { s.ports[p].front with drvEn := false, drvFalling := false, tDrv := none, muted := true } := by
  rw [drvEnFall, if_pos hfalling, refreshPort_drvLow p _ ((drvCond_drvEn ..).trans hcond) (by rw [modFront_front]),
    modFront_front]

theorem mutePins : Claims.MutePinsComplete := by
  intro s
  refine ⟨fun ns mid hhigh hns => ?_, fun ns mid hns => congrArg Host.Outcome.next (muteNFall_short ns mid s hns),
    fun hlow => ?_, fun htimer => congrArg Host.Outcome.next (if_pos htimer), fun p hfalling hcond => ?_, fun p => rfl⟩
  · have hrun : Claims.Runs (.muteNFall ns mid) s (refresh (modPins Pins.muted s)) :=
      congrArg Host.Outcome.next (muteNFall_pulse ns mid s hhigh hns)
    exact ⟨_, hrun, by simp only [refresh_keeps]; rfl, refresh_muteN _ rfl, commandFrames (.muteNFall ns mid) s _ hrun⟩
  · exact congrArg Host.Outcome.next (if_neg (by rw [hlow]; decide))
  · have hfront := drvEnFall_front p s hfalling hcond
    exact ⟨drvEnFall p s, rfl, congrArg Front.drvEn hfront, congrArg Front.drvFalling hfront, congrArg Front.muted hfront,
      commandFrames (.drvEnFall p) s _ rfl⟩

end Sys2Proof.Machine

open Sys2Proof Sys2Proof.Machine

/-- Settles O25: each event of the front end by what it does to the front end apart from its outputs, and the outputs by the
mute source that the event leaves active; that SYNTH_RANGE belongs to the port whose clock is steered is the model's choice
(log 69), which R83 does not say. -/
theorem frontEndEventsComplete : Obligations.FrontEndEventsComplete := ⟨frontEndEvents, mutePins⟩
end

section
/-! PROOF. What a loss of lock and of signal leaves of a port's receiver, its light detector and its FO_RANGE alarm (R58, R113,
R118, R124). -/

namespace Sys2Proof.Machine

/-! ### Alarm bits -/

/-- The other bits of an alarm word are as they were when one is raised or cleared. -/
theorem bit_put_other (b b' : Nat) (on : Bool) (x : Alarm) (h : b' ≠ b) (hb : b' < 32) :
    bit (x.put b on).active b' = bit x.active b' := by
  have hbit : (wd (2 ^ b)).getLsbD b' = false := by
    rw [wd, BitVec.getLsbD_ofNat, Nat.testBit_two_pow_of_ne h.symm, Bool.and_false]
  rw [bit_eq_getLsbD, bit_eq_getLsbD]
  cases on
  · simp only [Alarm.put, Bool.false_eq_true, if_false, BitVec.getLsbD_and, BitVec.getLsbD_not, hbit, hb, decide_true,
      Bool.not_false, Bool.and_true]
  · simp only [Alarm.put, if_true, BitVec.getLsbD_or, hbit, Bool.or_false]

theorem alarmOn_congr {s t : State} (h : t.alarms = s.alarms) (key : AlarmKey) (b : Nat) :
    alarmOn t key b = alarmOn s key b := by
  rw [alarmOn, getAlarm_congr h, alarmOn]

/-- An alarm is as it was when another bit of the same word is raised or cleared. -/
theorem alarmOn_setAlarm_otherBit (key : AlarmKey) (b b' : Nat) (on : Bool) (s : State) (h : b' ≠ b) (hb : b' < 32) :
    alarmOn (setAlarm key b on s) key b' = alarmOn s key b' := by
  rw [alarmOn, setAlarm_eq]
  split_ifs
  · rfl
  · rw [getAlarm_modAlarm_same, bit_put_other _ _ _ _ h hb, alarmOn]
  · rw [getAlarm_alarmEvent, getAlarm_modAlarm_same, bit_put_other _ _ _ _ h hb, alarmOn]

theorem setAlarm_pool (key : AlarmKey) (b : Nat) (on : Bool) (s : State) : (setAlarm key b on s).pool = s.pool := by
  have hmod : ∀ f : Alarm → Alarm, (modAlarm key f s).pool = s.pool := fun f => by cases key <;> rfl
  rw [setAlarm_eq]
  split_ifs <;> simp [hmod]

/-- An alarm that is raised or cleared changes the alarms, and the mailboxes by its event (R458, R472). -/
theorem setAlarm_only_alarms (key : AlarmKey) (b : Nat) (on : Bool) (s : State) :
    Claims.Only [.alarms, .mbx] s (setAlarm key b on s) := by
  intro x hx
  cases x <;> simp_all [Claims.Same, setAlarm_jrx, setAlarm_pool]

/-! ### The start of an attempt -/

theorem modRx_rx (p : LPort) (f : Rx → Rx) (s : State) : (modRx p f s).ports[p].rx = f s.ports[p].rx := by
  rw [modRx_ports, vmod_same]

/-- A receiver without frame alignment whose equaliser is off. -/
def Rx.Silent (r : Rx) : Prop := r.frameAligned = false ∧ r.erasing = false ∧ r.eq = .off

/-- The receiver as an acquisition attempt starts: the stored words are in force, and ACQ_START counts (R128, R134). -/
def Rx.attempt (r : Rx) : Rx :=
  { r.drop with
    cfg := Vector.ofFn fun i => (r.next[i]).getD r.cfg[i], next := Vector.replicate 8 none
    running := true, step := 1, acqStart := r.acqStart + 1 }

theorem startAttempt_eq (p : LPort) (s : State) :
    startAttempt p s = if canAcquire s p then setAlarm (.line p) 1 false (modRx p Rx.attempt s) else s := rfl

theorem startAttempt_rx (p : LPort) (s : State) : (startAttempt p s).ports[p].rx =
    if canAcquire s p then s.ports[p].rx.attempt else s.ports[p].rx := by
  rw [startAttempt_eq]
  split_ifs
  · rw [setAlarm_port, modRx_rx]
  · rfl

/-! ### What a loss at a port leaves -/

/-- What a loss at port `p` leaves: a silent receiver stays silent, EQ_ERASED, the light detector and FO_RANGE are as they
were. -/
structure LossFrame (p : LPort) (s t : State) : Prop where
  silent : s.ports[p].rx.Silent → t.ports[p].rx.Silent
  erased : t.ports[p].rx.eqErased = s.ports[p].rx.eqErased
  light : t.ports[p].front.light = s.ports[p].front.light
  foRange : alarmOn t (.line p) 0 = alarmOn s (.line p) 0

theorem LossFrame.refl (p : LPort) (s : State) : LossFrame p s s := ⟨id, rfl, rfl, rfl⟩

theorem LossFrame.trans {p : LPort} {s t u : State} (h : LossFrame p s t) (h' : LossFrame p t u) : LossFrame p s u :=
  ⟨h'.silent ∘ h.silent, h'.erased.trans h.erased, h'.light.trans h.light, h'.foRange.trans h.foRange⟩

theorem LossFrame.ite {c : Prop} [Decidable c] {p : LPort} {s t u : State} (ht : LossFrame p s t) (hu : LossFrame p s u) :
    LossFrame p s (if c then t else u) := by
  split
  · exact ht
  · exact hu

/-- An operation that leaves the receiver alone has only its front end and its alarms to account for. -/
theorem LossFrame.of_rx {p : LPort} {s t : State} (hrx : t.ports[p].rx = s.ports[p].rx)
    (hlight : t.ports[p].front.light = s.ports[p].front.light)
    (halarm : alarmOn t (.line p) 0 = alarmOn s (.line p) 0) : LossFrame p s t :=
  ⟨fun h => hrx ▸ h, congrArg Rx.eqErased hrx, hlight, halarm⟩

/-- An operation that leaves the receiver, the front end and the alarms alone. -/
theorem LossFrame.of_keeps {p : LPort} {s t : State} (hrx : t.ports[p].rx = s.ports[p].rx)
    (hfront : t.ports[p].front = s.ports[p].front) (halarms : t.alarms = s.alarms) : LossFrame p s t :=
  .of_rx hrx (congrArg Front.light hfront) (alarmOn_congr halarms _ _)

theorem modTr_lossFrame (p : LPort) (f : Train → Train) (s : State) : LossFrame p s (modTr p f s) :=
  .of_keeps (modTr_rx ..) (modTr_front ..) rfl

theorem modTr2_lossFrame (p : LPort) (f : Train2 → Train2) (s : State) : LossFrame p s (modTr2 p f s) :=
  .of_keeps (modTr2_rx ..) (modTr2_front ..) rfl

theorem modNlc_lossFrame (p : LPort) (f : Nlc → Nlc) (s : State) : LossFrame p s (modNlc p f s) :=
  .of_keeps (modNlc_rx ..) (modNlc_front ..) rfl

theorem modSf_lossFrame (p q : LPort) (f : Sf → Sf) (s : State) : LossFrame p s (modSf q f s) :=
  .of_keeps (modSf_rx ..) (modSf_front ..) rfl

theorem modFront_lossFrame (p q : LPort) (f : Front → Front) (s : State) (h : ∀ x, (f x).light = x.light) :
    LossFrame p s (modFront q f s) := by
  refine .of_rx (modFront_rx ..) ?_ rfl
  by_cases hp : p = q
  · subst hp
    rw [modFront_front, h]
  · rw [modFront_ports, vmod_other _ _ _ _ hp]

theorem refLost_lossFrame (p : LPort) (r : RefCode) (s : State) : LossFrame p s (refLost r s) :=
  .of_keeps (by simp only [refLost_keeps]) (by simp only [refLost_keeps]) (by simp only [refLost_keeps])

theorem dropLock_lossFrame (p : LPort) (s : State) : LossFrame p s (dropLock p s) := by
  refine .ite (.trans (.trans (modSf_lossFrame p p _ s) (.ite ?_ (.refl p _))) (refLost_lossFrame p _ _)) (.refl p s)
  exact (modSf_lossFrame p _ _ _).trans (modFront_lossFrame p _ _ _ fun _ => rfl)

/-! ### Entering MUTED, ACQUIRE and HOLDOVER -/

theorem cancelSwitches_front (primed : Bool) (p q : LPort) (s : State) :
    (cancelSwitches primed p s).ports[q].front = s.ports[q].front := by
  simp only [cancelSwitches, modTr_front, dropEvs_keeps]

theorem cancelTrain_front (p q : LPort) (s : State) : (cancelTrain p s).ports[q].front = s.ports[q].front := by
  have hrate : ∀ (k : Nat) (t : State), (rateTaken p k t).ports[q].front = t.ports[q].front := fun k t => by
    unfold rateTaken
    split <;> simp only [modTr2_front]
  simp only [cancelTrain, dropRates, modTr2_front]
  split_ifs <;> simp only [hrate, dropEvs_keeps, cancelSwitches_front]

theorem cancelSwitches_lossFrame (primed : Bool) (p : LPort) (s : State) : LossFrame p s (cancelSwitches primed p s) :=
  .of_keeps (cancelSwitches_rx ..) (cancelSwitches_front ..) (by simp only [cancelSwitches_keeps])

theorem cancelTrain_lossFrame (p : LPort) (s : State) : LossFrame p s (cancelTrain p s) :=
  .of_keeps (cancelTrain_rx ..) (cancelTrain_front ..) (by simp only [cancelTrain_keeps])

theorem refresh_lossFrame (p : LPort) (s : State) : LossFrame p s (refresh s) := by
  have hinner := congrArg Front.light (refresh_inner p s)
  exact .of_rx (refresh_rx ..) hinner (alarmOn_congr (by simp only [refresh_keeps]) _ _)

theorem acqDescs_lossFrame (p : LPort) (s : State) : LossFrame p s (acqDescs p s) := modTr_lossFrame p _ s

theorem acqFormats_lossFrame (p : LPort) (s : State) : LossFrame p s (acqFormats p s) :=
  (acqDescs_lossFrame p s).trans (modNlc_lossFrame p _ _)

theorem poolEnter_lossFrame (p : LPort) (s : State) : LossFrame p s (poolEnter p s) :=
  .of_keeps (by simp only [poolEnter_keeps]) (by simp only [poolEnter_keeps]) (by simp only [poolEnter_keeps])

/-- Another alarm that is raised or cleared leaves FO_RANGE alone. -/
theorem setAlarm_lossFrame (p : LPort) (b : Nat) (on : Bool) (s : State) (h : b ≠ 0) :
    LossFrame p s (setAlarm (.line p) b on s) :=
  .of_rx (by rw [setAlarm_port]) (by rw [setAlarm_port]) (alarmOn_setAlarm_otherBit _ _ _ _ _ h.symm (by decide))

theorem poolLeave_lossFrame (p : LPort) (s : State) : LossFrame p s (poolLeave p s) := by
  refine .trans (.of_keeps ?_ ?_ ?_) (setAlarm_lossFrame p 9 false _ (by decide)) <;>
    simp only [modPp_ports, modPp_alarms, discardOpen_keeps]

/-- Clients that fail raise alarms of the host side alone (R270). -/
theorem failClients_alarmOn (p n : LPort) (b : Nat) (s : State) :
    alarmOn (failClients p s) (.line n) b = alarmOn s (.line n) b :=
  eachOf_keeps (fun s => alarmOn s (.line n) b) _ _ s fun _ t =>
    alarmOn_setAlarm_other _ _ _ _ _ (modClients _ _ t) (by simp)

theorem setPort_lossFrame (p : LPort) (st : PortState) (s : State) : LossFrame p s (setPort p st s) := by
  have hmap : ∀ (f : MapSt → MapSt) (u : State), LossFrame p u (modMap f u) := fun _ _ => .of_keeps rfl rfl rfl
  have hfail : ∀ u, LossFrame p u (failClients p u) := fun u =>
    .of_rx (by simp only [failClients_keeps]) (by simp only [failClients_keeps]) (failClients_alarmOn ..)
  simp only [setPort]
  exact (modTr_lossFrame p _ s).trans (.ite ((hmap _ _).trans (hfail _)) (.refl p _))

theorem sendMsg_lossFrame (p : LPort) (type : BitVec 4) (body : List Word) (s : State) :
    LossFrame p s (sendMsg p type body s) := modTr_lossFrame p _ s

theorem startAttempt_lossFrame (p : LPort) (s : State) : LossFrame p s (startAttempt p s) := by
  have hrx : (modRx p Rx.attempt s).ports[p].rx = s.ports[p].rx.attempt := modRx_rx ..
  have hsilent : s.ports[p].rx.attempt.Silent := ⟨rfl, rfl, rfl⟩
  have herased := congrArg Rx.eqErased hrx
  have hmod : LossFrame p s (modRx p Rx.attempt s) :=
    ⟨fun _ => hrx ▸ hsilent, herased, congrArg Front.light (modRx_front ..), rfl⟩
  exact .ite (hmod.trans (setAlarm_lossFrame p 1 false _ (by decide))) (.refl p s)

theorem maybeAcquire_lossFrame (p : LPort) (s : State) : LossFrame p s (maybeAcquire p s) :=
  .ite (.refl p s) (startAttempt_lossFrame p s)

theorem enterMuted_lossFrame (p : LPort) (s : State) : LossFrame p s (enterMuted p s) := by
  simp only [enterMuted]
  exact (cancelTrain_lossFrame p s).trans <| (setPort_lossFrame p .muted _).trans <| (modTr_lossFrame p _ _).trans <|
    (modTr2_lossFrame p _ _).trans <| (poolLeave_lossFrame p _).trans <|
    (LossFrame.ite (acqDescs_lossFrame p _) (acqFormats_lossFrame p _)).trans <|
    (refresh_lossFrame p _).trans (maybeAcquire_lossFrame p _)

theorem enterAcquire_lossFrame (p : LPort) (s : State) : LossFrame p s (enterAcquire p s) := by
  simp only [enterAcquire]
  exact (cancelTrain_lossFrame p s).trans <| (setPort_lossFrame p .acquire _).trans <| (modTr_lossFrame p _ _).trans <|
    (modTr2_lossFrame p _ _).trans <| (acqFormats_lossFrame p _).trans <| (poolEnter_lossFrame p _).trans <|
    (refresh_lossFrame p _).trans (maybeAcquire_lossFrame p _)

theorem enterHoldover_lossFrame (primed : Bool) (p : LPort) (s : State) : LossFrame p s (enterHoldover primed p s) := by
  simp only [enterHoldover]
  exact (cancelSwitches_lossFrame primed p s).trans <| (setPort_lossFrame p .holdover _).trans <|
    (modTr_lossFrame p _ _).trans (modTr2_lossFrame p _ _)

theorem trainFail_lossFrame (p : LPort) (reason : Nat) (sendAbort counts : Bool) (s : State) :
    LossFrame p s (trainFail p reason sendAbort counts s) := by
  simp only [trainFail]
  refine (modTr2_lossFrame p _ s).trans ((modTr_lossFrame p _ _).trans (.ite (enterMuted_lossFrame p _) (.ite ?_ ?_)))
  · exact (enterAcquire_lossFrame p _).trans ((modTr_lossFrame p _ _).trans (sendMsg_lossFrame p _ _ _))
  · exact (enterAcquire_lossFrame p _).trans (modTr_lossFrame p _ _)

theorem lockLoss_lossFrame (p : LPort) (s : State) : LossFrame p s (lockLoss p s) := by
  simp only [lockLoss]
  refine .ite ((dropLock_lossFrame p s).trans ?_) (.refl p s)
  split
  · exact enterHoldover_lossFrame false p _
  · exact trainFail_lossFrame p _ true true _
  all_goals exact .refl p _

/-- After a loss of signal the receiver is silent; EQ_ERASED, the light detector and FO_RANGE are as they were (R124). -/
theorem lossOfSignal_acts (p : LPort) (s : State) :
    (lossOfSignal p s).ports[p].rx.Silent ∧
      (lossOfSignal p s).ports[p].rx.eqErased = s.ports[p].rx.eqErased ∧
      (lossOfSignal p s).ports[p].front.light = s.ports[p].front.light ∧
      alarmOn (lossOfSignal p s) (.line p) 0 = alarmOn s (.line p) 0 := by
  have hrx : (modRx p (fun r => { r.drop with los := r.los + 1, hint := r.tracked }) s).ports[p].rx =
      { s.ports[p].rx.drop with los := s.ports[p].rx.los + 1, hint := s.ports[p].rx.tracked } :=
    modRx_rx ..
  have hlate : LossFrame p (modRx p (fun r => { r.drop with los := r.los + 1, hint := r.tracked }) s) (lossOfSignal p s) :=
    (modSf_lossFrame p p _ _).trans ((lockLoss_lossFrame p _).trans (maybeAcquire_lossFrame p _))
  have herased := congrArg Rx.eqErased hrx
  refine ⟨hlate.silent ?_, hlate.erased.trans herased,
    hlate.light.trans (congrArg Front.light (modRx_front ..)), hlate.foRange⟩
  rw [hrx]
  exact ⟨rfl, rfl, rfl⟩

end Sys2Proof.Machine
end

section
/-! PROOF. O24: losses of signal and the events of the equaliser (R113, R115, R117, R118, R122, R124, R514). -/

namespace Sys2Proof.Machine

/-! ### Losses of signal -/

/-- What a loss of signal does to port `p` (R118, R122, R124): LOS counts, neither alignment nor lock nor an equaliser is
left. -/
def SignalLost (p : LPort) (s t : State) : Prop :=
  t.ports[p].rx.los = s.ports[p].rx.los + 1 ∧ t.ports[p].rx.frameAligned = false ∧ t.ports[p].rx.erasing = false ∧
    t.ports[p].rx.eq = .off ∧ t.ports[p].sf.aligned = false ∧ t.ports[p].sf.lock = false

/-- A loss of signal after a step that has not counted it. -/
theorem lossOfSignal_lost (p : LPort) {s u : State} (h : u.ports[p].rx.los = s.ports[p].rx.los) :
    SignalLost p s (lossOfSignal p u) := by
  obtain ⟨haligned, hlock, -, hlos⟩ := lossOfSignal_port p u
  obtain ⟨⟨hframe, herasing, heq⟩, -⟩ := lossOfSignal_acts p u
  exact ⟨by rw [hlos, h], hframe, herasing, heq, haligned, hlock⟩

theorem raiseFo_alarmOn (p : LPort) (s : State) : alarmOn (raiseFo p s) (.line p) 0 = true :=
  alarmOn_setAlarm _ _ _ _ (by decide)

/-- Apart from its count, FO_RANGE raised changes nothing of the receiver (R133). -/
theorem raiseFo_rx (p : LPort) (s : State) :
    ∃ n, (raiseFo p s).ports[p].rx = { s.ports[p].rx with foRangeEvt := n } := by
  simp only [raiseFo, setAlarm_port]
  split_ifs
  · exact ⟨_, rfl⟩
  · exact ⟨_, modRx_rx ..⟩

/-- The state in which LIGHT_DETECT_DEASSERT leaves a port before its loss of signal (R86, R417). -/
def lightGone (p : LPort) (s : State) : State :=
  modPower (fun x => { x with lightArmed := x.lightArmed ||| BitVec.ofNat 4 (2 ^ p.val) })
    (modFront p (fun f => { f with light := false }) s)

theorem lightDetectDeassert_eq (p : LPort) (s : State) :
    lightDetectDeassert p s =
      if s.ports[p].front.light then
        if (lightGone p s).ports[p].tr.state == .down || loopDigital s p then lightGone p s else lossOfSignal p (lightGone p s)
      else s := rfl

theorem lightGone_port (p : LPort) (s : State) :
    (lightGone p s).ports[p] = { s.ports[p] with front := { s.ports[p].front with light := false } } := by
  rw [lightGone, modPower_ports, modFront_ports, vmod_same]

theorem lightGone_armed (p : LPort) (s : State) : (lightGone p s).power.lightArmed.getLsbD p.val = true := by
  have hone : (BitVec.ofNat 4 (2 ^ p.val)).getLsbD p.val = true := by
    rw [BitVec.getLsbD_ofNat, Nat.testBit_two_pow_self, decide_eq_true p.isLt, Bool.and_self]
  have hor : (lightGone p s).power.lightArmed = s.power.lightArmed ||| BitVec.ofNat 4 (2 ^ p.val) := rfl
  rw [hor, BitVec.getLsbD_or, hone, Bool.or_true]

theorem lightGone_only (p : LPort) (s : State) : Claims.Only [.ports, .power] s (lightGone p s) := by
  intro x hx
  cases x <;> simp_all [Claims.Same, lightGone]

theorem signalLossesComplete : Claims.SignalLossesComplete := by
  intro p s
  refine ⟨fun hal => ?_, fun hal => ?_, fun n her => ?_, fun hlight hst hloop => ?_, fun hlight hloop => ?_⟩
  · exact ⟨_, congrArg Host.Outcome.next (if_pos hal), lossOfSignal_lost p rfl⟩
  · obtain ⟨-, -, -, hfo⟩ := lossOfSignal_acts p (raiseFo p s)
    obtain ⟨n, hrx⟩ := raiseFo_rx p s
    have hlos := congrArg Rx.los hrx
    exact ⟨_, congrArg Host.Outcome.next (if_pos hal), lossOfSignal_lost p hlos, by rw [hfo, raiseFo_alarmOn]⟩
  · obtain ⟨-, herased, -⟩ := lossOfSignal_acts p (modRx p (addErased n) s)
    have hrx : (modRx p (addErased n) s).ports[p].rx = addErased n s.ports[p].rx := modRx_rx ..
    have hlos := congrArg Rx.los hrx
    refine ⟨_, congrArg Host.Outcome.next (if_pos her), lossOfSignal_lost p hlos, ?_⟩
    rw [herased, hrx]
    rfl
  · have hrun : lightDetectDeassert p s = lossOfSignal p (lightGone p s) := by
      rw [lightDetectDeassert_eq, if_pos hlight, if_neg (by rw [lightGone_port, hloop, Bool.or_false]; simpa using hst)]
    obtain ⟨-, -, hdark, -⟩ := lossOfSignal_acts p (lightGone p s)
    have hlos := congrArg (fun x => x.rx.los) (lightGone_port p s)
    refine ⟨_, congrArg Host.Outcome.next hrun, lossOfSignal_lost p hlos, ?_, ?_⟩
    · rw [hdark, lightGone_port]
    · rw [(lossOfSignal_keeps p _).2.1, lightGone_armed]
  · have hrun : lightDetectDeassert p s = lightGone p s := by
      rw [lightDetectDeassert_eq, if_pos hlight, if_pos (by rw [hloop, Bool.or_true])]
    exact ⟨_, congrArg Host.Outcome.next hrun, lightGone_port p s, lightGone_armed p s, lightGone_only p s⟩

/-! ### The equaliser -/

/-- EQ_SPAN in the terms of R117: the equaliser is aligned, and the DGD exceeds its span. -/
theorem eqSpan_iff (x : PortSt) : (x.rx.frameAligned && decide (spanScaled x < dgdScaled x)) = true ↔
    x.rx.frameAligned = true ∧ ((fld x.rx.cfg[4] 31 26 : Int) - 8) * 320000 <
      x.rx.dgdNow.toNat * (9 * (240 + x.tr.rate.toNat)) := by
  rw [Bool.and_eq_true, decide_eq_true_eq]
  rfl

theorem equaliserEventsComplete : Claims.EqualiserEventsComplete := by
  intro p n s
  refine ⟨fun hal => congrArg Host.Outcome.next (if_pos hal), fun hpilot => ?_, fun hover => ?_, fun hunder => ?_,
    fun hrun => congrArg Host.Outcome.next (if_pos hrun), fun hrun => ?_⟩
  · exact congrArg Host.Outcome.next (if_pos (beq_iff_eq.mpr hpilot))
  · exact congrArg Host.Outcome.next (if_pos ((eqSpan_iff s.ports[p]).mpr hover))
  · exact congrArg Host.Outcome.next (if_neg fun h => hunder ((eqSpan_iff s.ports[p]).mp h))
  · exact congrArg Host.Outcome.next (if_neg (Nat.not_le.mpr hrun))

end Sys2Proof.Machine

open Sys2Proof Sys2Proof.Machine

/-- Settles O24: each loss ends in `lossOfSignal`, which leaves the receiver silent and the port without alignment and lock,
and each event of the equaliser by its condition. That a port in its own LINE_DIGITAL loopback loses nothing with the light
rests on the model's reading of R514 (log 74). -/
theorem signalEventsComplete : Obligations.SignalEventsComplete := ⟨signalLossesComplete, equaliserEventsComplete⟩
end

section
/-! PROOF. O23: the steps of an acquisition (R107, R110, R112, R115, R122, R124, R134). -/

namespace Sys2Proof.Machine

/-! ### The start of an attempt -/

theorem modRx_only (p : LPort) (f : Rx → Rx) (s : State) : Claims.Only [.ports] s (modRx p f s) := by
  intro x hx
  cases x <;> simp_all [Claims.Same]

theorem startAttempt_only (p : LPort) (s : State) : Claims.Only [.ports, .alarms, .mbx] s (startAttempt p s) :=
  only_ite (only_trans (only_mono (modRx_only p _ s) (by simp)) (only_mono (setAlarm_only_alarms _ _ _ _) (by simp)))
    (only_refl _ s)

theorem startAttempt_other (p q : LPort) (s : State) (h : q ≠ p) : (startAttempt p s).ports[q] = s.ports[q] := by
  rw [startAttempt_eq]
  split_ifs
  · rw [setAlarm_port, modRx_ports, vmod_other _ _ _ _ h]
  · rfl

/-- An attempt that starts clears CD_COVER (R111). -/
theorem startAttempt_cdCover (p : LPort) (s : State) (h : canAcquire s p = true) :
    alarmOn (startAttempt p s) (.line p) 1 = false := by
  rw [startAttempt_eq, if_pos h]
  exact alarmOn_setAlarm _ _ _ _ (by decide)

theorem Rx.attempt_cfg (r : Rx) (i : Fin 8) :
    r.attempt.cfg[i] = (r.next[i]).getD r.cfg[i] ∧ r.attempt.next[i] = none := by
  simp [Rx.attempt]

/-- A port that neither runs an attempt, nor holds lock, nor keeps its alignment starts an attempt (R124, R134). -/
theorem maybeAcquire_starts (p : LPort) (s : State) (hrun : s.ports[p].rx.running = false)
    (hlock : s.ports[p].sf.lock = false)
    (halign : s.ports[p].rx.frameAligned = false ∨ s.ports[p].sf.aligned = false) :
    maybeAcquire p s = startAttempt p s := by
  refine if_neg ?_
  rw [hrun, hlock, Bool.false_or, Bool.false_or, Bool.and_eq_true]
  rintro ⟨hframe, haligned⟩
  rcases halign with h | h
  · exact Bool.false_ne_true (h.symm.trans hframe)
  · exact Bool.false_ne_true (h.symm.trans haligned)

/-- What the conditions of R134 speak of. -/
theorem canAcquire_congr {s t : State} {p : LPort} (htr : t.ports[p].tr = s.ports[p].tr)
    (hfront : t.ports[p].front = s.ports[p].front) (hcal : t.ports[p].cal = s.ports[p].cal) (hpower : t.power = s.power)
    (hmap : t.map = s.map) : canAcquire t p = canAcquire s p := by
  simp only [canAcquire, lit, loopDigital, isOn, domSt, htr, hfront, hcal, hpower, hmap]

/-! ### The steps -/

/-- A frequency estimate outside the capture range: the attempt stops with FO_RANGE and counts ACQ_FAIL (R112). -/
theorem acqFrequencyDone_outside (p : LPort) (o : Int) (s : State) (hrun : s.ports[p].rx.running = true)
    (hstep : s.ports[p].rx.step = 1) (hstop : s.ports[p].rx.foStop = false) (hout : foInside s.ports[p].rx o = false) :
    acqFrequencyDone p o s = raiseFo p (modRx p (fun r => { r with
      foStop := true, acqFail := r.acqFail + 1, est := { r.est with fo := BitVec.ofInt 16 o } }) s) := by
  simp only [acqFrequencyDone, hrun, hstep, hstop, hout, beq_self_eq_true, Bool.not_false, Bool.and_true, if_true,
    Bool.false_eq_true, if_false]

/-- The CD that a step takes: CD_FIXED without a search in FIXED mode, and otherwise the search's candidate in its range
(R110). -/
def cdTaken (p : LPort) (found : Option Int) (s : State) : Option Int :=
  let r := s.ports[p].rx
  if !r.hint && fld r.cfg[3] 31 30 == 1 then some (10 * sgn 16 (fld r.cfg[3] 15 0)) else found.filter (cdInside s p)

/-- The receiver once a CD is taken: the overlap that covers it, and the blind equaliser (R107, R115). -/
def cdSetTo (p : LPort) (c : Int) (s : State) : State :=
  modRx p (fun r => { r with
    cdSet := c, overlap := BitVec.ofNat 4 (overlapOf c s.ports[p].tr.rate.toNat (farRolloff s p))
    beta := farRolloff s p, step := 3, eq := .blind, est := { r.est with cd := BitVec.ofInt 32 (10 * rdiv c 10) } }) s

theorem acqCdDone_some (p : LPort) (found : Option Int) (s : State) (c : Int) (h : cdTaken p found s = some c)
    (hrun : s.ports[p].rx.running = true) (hstep : s.ports[p].rx.step = 2) :
    acqCdDone p found s = cdSetTo p c s := by
  have hacts : acqCdDone p found s = match cdTaken p found s with
      | some c => if s.ports[p].rx.running && s.ports[p].rx.step == 2 then cdSetTo p c s else s
      | none => s := rfl
  rw [hacts, h]
  exact if_pos (by rw [hrun, hstep]; rfl)

theorem cdTaken_eq_some (p : LPort) (found : Option Int) (s : State) (c : Int)
    (h : if !s.ports[p].rx.hint && fld s.ports[p].rx.cfg[3] 31 30 == 1 then c = 10 * sgn 16 (fld s.ports[p].rx.cfg[3] 15 0)
      else found = some c ∧ cdInside s p c = true) : cdTaken p found s = some c := by
  rw [cdTaken]
  split_ifs at h ⊢ with hfixed
  · rw [h]
  · obtain ⟨hfound, hinside⟩ := h
    rw [hfound, Option.filter_some, if_pos hinside]

/-! ### The end of an attempt -/

/-- The receiver as ACQ_TIMEOUT ends its attempt (R112, R134). -/
def Rx.failed (r : Rx) : Rx :=
  { r with acqFail := if r.foStop then r.acqFail else r.acqFail + 1, hint := false, running := false }

theorem acqTimeout_eq (p : LPort) (s : State) : acqTimeout p s =
    if s.ports[p].rx.running then startAttempt p (unalign p (modRx p Rx.failed s)) else s := rfl

theorem acqTimeout_rx (p : LPort) (s : State) (hrun : s.ports[p].rx.running = true) :
    (acqTimeout p s).ports[p].rx =
      if canAcquire s p then s.ports[p].rx.failed.attempt else s.ports[p].rx.failed := by
  have hcan : canAcquire (unalign p (modRx p Rx.failed s)) p = canAcquire s p := by
    refine canAcquire_congr ?_ ?_ ?_ rfl rfl <;> simp only [unalign, modSf_ports, modRx_ports, vmod_same]
  rw [acqTimeout_eq, if_pos hrun, startAttempt_rx, hcan, unalign_rx, modRx_rx]

theorem acqTimeout_unaligned (p : LPort) (s : State) (hrun : s.ports[p].rx.running = true) :
    (acqTimeout p s).ports[p].sf.aligned = false := by
  rw [acqTimeout_eq, if_pos hrun, startAttempt_sf]
  exact (unalign_sf p _).1

end Sys2Proof.Machine

open Sys2Proof Sys2Proof.Machine

/-- Settles O23: each event of an acquisition by the receiver that its step leaves; a new attempt is `Rx.attempt`, which
`startAttempt` begins where the conditions of R134 hold. -/
theorem acquisitionStepsComplete : Obligations.AcquisitionStepsComplete := by
  intro p s
  refine ⟨fun hcan hrun hlock halign => ?_, fun o hrun hstep hstop => ⟨fun hin => ?_, fun hout => ?_⟩,
    fun c found hrun hstep hc => ?_, fun hrun hstep => ?_, fun swapped conj hrun hstep => ?_, fun hrun => ?_⟩
  · have hrx : (startAttempt p s).ports[p].rx = s.ports[p].rx.attempt := by rw [startAttempt_rx, if_pos hcan]
    refine ⟨startAttempt p s, congrArg Host.Outcome.next (maybeAcquire_starts p s hrun hlock halign), ?_, ?_, ?_, ?_,
      fun i => ?_, startAttempt_cdCover p s hcan, startAttempt_only p s, fun q hq => startAttempt_other p q s hq⟩ <;> rw [hrx]
    · rfl
    · rfl
    · rfl
    · rfl
    · exact s.ports[p].rx.attempt_cfg i
  · refine congrArg Host.Outcome.next ?_
    simp only [acqFrequencyDone, hrun, hstep, hstop, hin, beq_self_eq_true, Bool.not_false, Bool.and_true, if_true]
  · have hacts := acqFrequencyDone_outside p o s hrun hstep hstop hout
    obtain ⟨n, hrx⟩ := raiseFo_rx p (modRx p (fun r => { r with
      foStop := true, acqFail := r.acqFail + 1, est := { r.est with fo := BitVec.ofInt 16 o } }) s)
    rw [modRx_rx] at hrx
    exact ⟨_, congrArg Host.Outcome.next hacts, congrArg Rx.foStop hrx, (congrArg Rx.step hrx).trans hstep,
      congrArg Rx.acqFail hrx, congrArg (fun r => r.est.fo) hrx, raiseFo_alarmOn p _⟩
  · exact congrArg Host.Outcome.next (acqCdDone_some p found s c (cdTaken_eq_some p found s c hc) hrun hstep)
  · exact congrArg Host.Outcome.next (if_pos (by rw [hrun, hstep]; rfl))
  · refine ⟨_, congrArg Host.Outcome.next (if_pos (by rw [hrun, hstep]; rfl)), ?_, alarmOn_setAlarm _ _ _ _ (by decide),
      only_trans (only_mono (modRx_only p _ s) (by simp)) (only_mono (setAlarm_only_alarms _ _ _ _) (by simp))⟩
    simp only [setAlarm_keeps]
  · refine ⟨acqTimeout p s, rfl, ?_, ?_, ?_, ?_, acqTimeout_unaligned p s hrun⟩ <;> rw [acqTimeout_rx p s hrun] <;>
      cases canAcquire s p <;> rfl
end

section
/-! PROOF. LINE_RX_CONFIG (R84, R127, R128): the words that it sets, and the event that it enters in TRAFFIC. -/

namespace Sys2Proof.Machine

/-! ### Fields and the mask -/

theorem bit_eq_testBit (w : Word) (i : Nat) : bit w i = w.toNat.testBit i := bit_eq_getLsbD w i

/-- A field is zero where none of its bits is set. -/
theorem fld_eq_zero_iff (w : Word) (hi lo : Nat) : fld w hi lo = 0 ↔ ∀ i, lo ≤ i → i ≤ hi → bit w i = false := by
  have hfld : ∀ j, (fld w hi lo).testBit j = (decide (j < hi + 1 - lo) && bit w (lo + j)) := fun j => by
    rw [fld, Nat.testBit_mod_two_pow, Nat.testBit_div_two_pow, bit_eq_testBit, Nat.add_comm j lo]
  constructor
  · intro h i hlo hhi
    have hbit := hfld (i - lo)
    rw [h, Nat.zero_testBit, decide_eq_true (by omega), Bool.true_and, Nat.add_sub_cancel' hlo] at hbit
    exact hbit.symm
  · intro h
    refine Nat.eq_of_testBit_eq fun j => ?_
    rw [hfld, Nat.zero_testBit]
    by_cases hj : j < hi + 1 - lo
    · rw [h (lo + j) (by omega) (by omega), Bool.and_false]
    · rw [decide_eq_false hj, Bool.false_and]

/-! ### The words that a LINE_RX_CONFIG sets -/

/-- The words of a list of indices that the mask selects are in force, and the others as they were. -/
theorem rxSetSel_word (p : LPort) (ps : List Word) (is : List (Fin 8)) (s : State) (k : Fin 8) :
    (rxSetSel p ps is s).ports[p].rx.cfg[k] =
      if k ∈ is ∧ maskSel ps (k.val + 1) = true then ps.getD (k.val + 1) 0 else s.ports[p].rx.cfg[k] := by
  rw [rxSetSel, eachOf_rxSet_cfg p (fun i => ps.getD (i.val + 1) 0)]
  simp only [List.mem_filter]

theorem rxSetSel_only (p : LPort) (ps : List Word) (is : List (Fin 8)) (s : State) :
    Claims.Only [.ports] s (rxSetSel p ps is s) := by
  intro x hx
  cases x <;> simp_all [Claims.Same]

theorem rxSetSel_other (p q : LPort) (ps : List Word) (is : List (Fin 8)) (s : State) (h : q ≠ p) :
    (rxSetSel p ps is s).ports[q] = s.ports[q] :=
  eachOf_keeps (fun s => s.ports[q]) _ _ s fun _ _ => by rw [rxSet, modRx_ports, vmod_other _ _ _ _ h]

theorem rxSetSel_front (p q : LPort) (ps : List Word) (is : List (Fin 8)) (s : State) :
    (rxSetSel p ps is s).ports[q].front = s.ports[q].front :=
  eachOf_keeps (fun s => s.ports[q].front) _ _ s fun _ _ => modRx_front ..

theorem modFront_only (p : LPort) (f : Front → Front) (s : State) : Claims.Only [.ports] s (modFront p f s) := by
  intro x hx
  cases x <;> simp_all [Claims.Same]

/-- A list of indices of which the mask selects none. -/
theorem filter_maskSel_eq_nil {n : Nat} {ps : List Word} {is : List (Fin n)}
    (h : ∀ i ∈ is, maskSel ps (i.val + 1) = false) : (is.filter fun i => maskSel ps (i.val + 1)) = [] :=
  List.filter_eq_nil_iff.mpr fun i hi => by rw [h i hi]; exact Bool.false_ne_true

theorem rxSetSel_none (p : LPort) (ps : List Word) (is : List (Fin 8)) (s : State)
    (h : ∀ i ∈ is, maskSel ps (i.val + 1) = false) : rxSetSel p ps is s = s := by
  rw [rxSetSel, filter_maskSel_eq_nil h]
  rfl

theorem rxStoreSel_none (p : LPort) (ps : List Word) (is : List (Fin 8)) (s : State)
    (h : ∀ i ∈ is, maskSel ps (i.val + 1) = false) : rxStoreSel p ps is s = s := by
  rw [rxStoreSel, filter_maskSel_eq_nil h]
  rfl

/-- Every selected word takes effect. -/
def rxWords (p : LPort) (ps : List Word) (s : State) : State :=
  rxSetSel p ps [2, 3, 7] (rxSetSel p ps [0, 1] (rxSetSel p ps [4, 5, 6] s))

theorem rxWords_cfg (p : LPort) (ps : List Word) (s : State) (k : Fin 8) :
    (rxWords p ps s).ports[p].rx.cfg[k] =
      if maskSel ps (k.val + 1) then ps.getD (k.val + 1) 0 else s.ports[p].rx.cfg[k] := by
  have hk : k ∈ [2, 3, 7] ∨ k ∈ [0, 1] ∨ k ∈ [4, 5, 6] := by revert k; decide
  simp only [rxWords, rxSetSel_word]
  cases hsel : maskSel ps (k.val + 1)
  · simp only [Bool.false_eq_true, and_false, if_false]
  · simp only [and_true, if_true]
    rcases hk with h | h | h <;> simp only [h, if_true, ite_self]

theorem rxWords_only (p : LPort) (ps : List Word) (s : State) : Claims.Only [.ports] s (rxWords p ps s) :=
  only_trans (rxSetSel_only p ps _ s) (only_trans (rxSetSel_only p ps _ _) (rxSetSel_only p ps _ _))

theorem rxWords_other (p q : LPort) (ps : List Word) (s : State) (h : q ≠ p) :
    (rxWords p ps s).ports[q] = s.ports[q] := by
  simp only [rxWords, rxSetSel_other _ _ _ _ _ h]

theorem rxWords_front (p q : LPort) (ps : List Word) (s : State) :
    (rxWords p ps s).ports[q].front = s.ports[q].front := by
  simp only [rxWords, rxSetSel_front]

theorem rxWords_isOn (p : LPort) (ps : List Word) (s : State) (d : Dom) : isOn (rxWords p ps s) d = isOn s d := by
  have hpower : (rxWords p ps s).power = s.power := rxWords_only p ps s .power (by decide)
  rw [isOn, domSt_of_power hpower, isOn]

/-! ### How LINE_RX_CONFIG runs -/

/-- Word 1 is selected and names another sample clock than the one in force, or the one that waits (R84). -/
def rxNewClock (rq : Req) (s : State) : Bool :=
  maskSel rq.params 1 && BitVec.ofNat 12 (pf rq 1 31 20) !=
    s.ports[pport rq 0].front.nextSclk.getD s.ports[pport rq 0].front.sclk

theorem ofNat_pf_eq_iff (rq : Req) (c : BitVec 12) : BitVec.ofNat 12 (pf rq 1 31 20) = c ↔ pf rq 1 31 20 = c.toNat := by
  rw [← BitVec.toNat_inj, BitVec.toNat_ofNat, Nat.mod_eq_of_lt (pf_lt rq 1 31 20)]

/-- In DOWN and MUTED every selected word takes effect at once, and a new sample clock is commanded (R84, R128). -/
theorem lineRxConfig_still (rq : Req) (s : State) (hc : firstFail (rxChecks rq.params s) = none)
    (hd : Claims.Awake 0x2003 rq s)
    (hst : s.ports[pport rq 0].tr.state = .down ∨ s.ports[pport rq 0].tr.state = .muted) :
    lineRxConfig rq s =
      reply 0x2003 rq (okFlags (2 * b2n (rxNewClock rq s && s.ports[pport rq 0].tr.state != .down)))
        (if rxNewClock rq s then clockChange (pport rq 0) (BitVec.ofNat 12 (pf rq 1 31 20)) (rxWords (pport rq 0) rq.params s)
          else rxWords (pport rq 0) rq.params s) := by
  have hserv : inService s (pport rq 0) = false := by rcases hst with h | h <;> simp only [inService, h]
  have hacquire : (s.ports[pport rq 0].tr.state == .acquire) = false := by rcases hst with h | h <;> rw [h] <;> rfl
  have htraffic : (s.ports[pport rq 0].tr.state == .traffic) = false := by rcases hst with h | h <;> rw [h] <;> rfl
  have hstates : firstFail [(maskSel rq.params 2 && inService s (pport rq 0), badState)] = none := by
    rw [hserv, Bool.and_false]
    rfl
  have hclk : (maskSel rq.params 1 && BitVec.ofNat 12 (pf rq 1 31 20) !=
    s.ports[pport rq 0].front.nextSclk.getD s.ports[pport rq 0].front.sclk) = rxNewClock rq s := rfl
  rw [lineRxConfig, command_runs 0x2003 rq _ _ _ s hc hd hstates]
  simp only [hserv, hacquire, htraffic, hclk, Bool.and_false, Bool.false_and, Bool.false_or, Bool.false_eq_true, if_false, b2n,
    Nat.zero_add, rxWords]

/-- In TRAFFIC a selection among words 5 to 7 alone enters its event, and the command is taken (R32, R128). -/
theorem lineRxConfig_scheduled (rq : Req) (s : State) (hc : firstFail (rxChecks rq.params s) = none)
    (hd : Claims.Awake 0x2003 rq s) (hst : s.ports[pport rq 0].tr.state = .traffic)
    (hlow : pf rq 0 3 0 = 0) (hhigh : bit (par rq 0) 7 = false) (hsel : pf rq 0 6 4 ≠ 0) (hroom : poolFull s = false)
    (hsrc : rq.src ≠ .blob) :
    ∃ data, lineRxConfig rq s = taken rq (enterEvent
      (implicitEvent s 0x2003 rq rq.params data (rxRef (pport rq 0))) s) := by
  have hmask : ∀ i < 4, maskSel rq.params (i + 1) = false := fun i hi =>
    (fld_eq_zero_iff (par rq 0) 3 0).mp hlow i (Nat.zero_le i) (by omega)
  have h8 : maskSel rq.params 8 = false := hhigh
  have hany : (maskSel rq.params 5 || maskSel rq.params 6 || maskSel rq.params 7) = true := by
    by_contra hnone
    simp only [Bool.or_eq_true, not_or, Bool.not_eq_true] at hnone
    obtain ⟨⟨h5, h6⟩, h7⟩ := hnone
    refine hsel ((fld_eq_zero_iff (par rq 0) 6 4).mpr fun i hlo hhi => ?_)
    obtain rfl | rfl | rfl : i = 4 ∨ i = 5 ∨ i = 6 := by omega
    · exact h5
    · exact h6
    · exact h7
  have h1 : maskSel rq.params 1 = false := hmask 0 (by decide)
  have h2 : maskSel rq.params 2 = false := hmask 1 (by decide)
  have h3 : maskSel rq.params 3 = false := hmask 2 (by decide)
  have h4 : maskSel rq.params 4 = false := hmask 3 (by decide)
  have hstates : firstFail [(maskSel rq.params 2 && inService s (pport rq 0), badState)] = none := by
    rw [h2, Bool.false_and]
    rfl
  rw [lineRxConfig, command_runs 0x2003 rq _ _ _ s hc hd hstates]
  simp only [hst, hany, hroom, h1, h2, h3, h4, h8, inService, beq_self_eq_true, Bool.and_self, Bool.and_false, Bool.false_and,
    Bool.or_self, Bool.false_eq_true, if_true, if_false]
  rw [rxSetSel_none _ _ [0, 1] _ (by simpa using ⟨h1, h2⟩), rxStoreSel_none _ _ [2, 3, 7] _ (by simpa using ⟨h3, h4, h8⟩),
    enterImplicit_taken _ _ _ _ _ _ hroom hsrc]
  exact ⟨_, rfl⟩

theorem lineRxConfigCompletes : Claims.LineRxConfigCompletes := by
  intro rq s hc hd
  refine ⟨fun hst hclock => ?_, fun hst hpar hon hclock => ?_, fun hst hlow hhigh hsel hroom hsrc => ?_⟩
  · have hnew : rxNewClock rq s = false := by
      rw [rxNewClock, Bool.and_eq_false_imp]
      intro hbit
      rw [bne_eq_false_iff_eq]
      exact (ofNat_pf_eq_iff rq _).mpr (hclock hbit)
    have hrun := lineRxConfig_still rq s hc hd hst
    rw [hnew] at hrun
    exact ⟨_, congrArg Host.Outcome.next hrun, rxWords_cfg _ _ s, rxWords_only _ _ s, fun q hq => rxWords_other _ q _ s hq⟩
  · have hbit : maskSel rq.params 1 = true := by
      have hword := bit_word 0 true [(31, 30, (pport rq 0).val), (0, 0, 1)] rfl (by simp [b2n])
      rwa [← hpar] at hword
    have hnew : rxNewClock rq s = true := by
      rw [rxNewClock, hbit, Bool.true_and, bne_iff_ne]
      exact fun h => hclock ((ofNat_pf_eq_iff rq _).mp h)
    have hrun := lineRxConfig_still rq s hc hd (.inl hst)
    rw [hnew, hst, clockChange, if_pos rfl, rxWords_isOn, if_pos hon] at hrun
    refine ⟨_, congrArg Host.Outcome.next hrun, only_trans (rxWords_only _ _ s) (modFront_only _ _ _), ?_, ?_⟩
    · rw [modFront_rx, rxWords_cfg]
      exact if_pos hbit
    · rw [modFront_front, rxWords_front]
  · obtain ⟨data, hrun⟩ := lineRxConfig_scheduled rq s hc hd hst hlow hhigh hsel hroom hsrc
    obtain ⟨idx, use, seq, hevs⟩ := enterEvent_evs (implicitEvent s 0x2003 rq rq.params data (rxRef (pport rq 0))) s
    exact ⟨_, rfl, rfl, rfl, rfl, rfl, rfl, if_neg (by simpa using hsrc), rfl, _, congrArg Host.Outcome.next hrun, hevs,
      by simp only [enterEvent_keeps], enterEvent_only _ s⟩

end Sys2Proof.Machine
end

section
/-! PROOF. LINE_TX_CONFIG (R176 to R178): the words that it stores and sets, and the event that it enters in TRAFFIC. -/

namespace Sys2Proof.Machine

/-! ### Changes of a transmitter -/

theorem modTx_tx (p : LPort) (f : Tx → Tx) (s : State) : (modTx p f s).ports[p].tx = f s.ports[p].tx := by
  rw [modTx_ports, vmod_same]

/-- What differs where nothing but the transmitter of port `p` was touched: that port alone, and its superframe state and the
power states are as they were. -/
structure TxOnly (p : LPort) (s t : State) : Prop where
  only : Claims.Only [.ports] s t
  other : ∀ q, q ≠ p → t.ports[q] = s.ports[q]
  sf : ∀ q : LPort, t.ports[q].sf = s.ports[q].sf

theorem TxOnly.refl (p : LPort) (s : State) : TxOnly p s s := ⟨only_refl _ s, fun _ _ => rfl, fun _ => rfl⟩

theorem TxOnly.trans {p : LPort} {s t u : State} (h : TxOnly p s t) (h' : TxOnly p t u) : TxOnly p s u :=
  ⟨only_trans h.only h'.only, fun q hq => (h'.other q hq).trans (h.other q hq), fun q => (h'.sf q).trans (h.sf q)⟩

theorem TxOnly.ite {c : Prop} [Decidable c] {p : LPort} {s t u : State} (ht : TxOnly p s t) (hu : TxOnly p s u) :
    TxOnly p s (if c then t else u) := by
  split
  · exact ht
  · exact hu

theorem modTx_txOnly (p : LPort) (f : Tx → Tx) (s : State) : TxOnly p s (modTx p f s) := by
  refine ⟨fun x hx => ?_, fun q hq => ?_, fun q => modTx_sf p f q s⟩
  · cases x <;> simp_all [Claims.Same]
  · rw [modTx_ports, vmod_other _ _ _ _ hq]

theorem eachOf_txOnly {α : Type} (p : LPort) (is : List α) (f : α → Tx → Tx) (s : State) :
    TxOnly p s (eachOf is (fun i => modTx p (f i)) s) := by
  induction is generalizing s with
  | nil => exact .refl p s
  | cons i is ih => exact (modTx_txOnly p (f i) s).trans (ih (modTx p (f i) s))

/-! ### The words that wait -/

theorem txStore_txOnly (p : LPort) (ps : List Word) (is : List (Fin 7)) (s : State) : TxOnly p s (txStore p ps is s) :=
  eachOf_txOnly p _ (fun i t => { t with next := vset t.next i (some (ps.getD (i.val + 1) 0)) }) s

/-- Apart from the words that wait, a store changes nothing of the transmitter. -/
theorem txStore_reads {β : Type} (g : Tx → β) (hg : ∀ (t : Tx) n, g { t with next := n } = g t) (p : LPort)
    (ps : List Word) (is : List (Fin 7)) (s : State) : g (txStore p ps is s).ports[p].tx = g s.ports[p].tx :=
  eachOf_keeps (fun s => g s.ports[p].tx) _ _ s fun _ _ => by rw [modTx_tx, hg]

/-- Words stored one after the other: a listed one waits, another is as it was. -/
theorem eachOf_store_next (p : LPort) (w : Fin 7 → Word) (is : List (Fin 7)) (s : State) (k : Fin 7) :
    (eachOf is (fun i => modTx p (fun t => { t with next := vset t.next i (some (w i)) })) s).ports[p].tx.next[k] =
      if k ∈ is then some (w k) else s.ports[p].tx.next[k] := by
  induction is generalizing s with
  | nil => rfl
  | cons i is ih =>
    refine (ih _).trans ?_
    rw [modTx_tx]
    by_cases hk : k = i
    · subst hk
      simp
    · simp only [List.mem_cons, hk, false_or, vset_other _ _ _ _ hk]

theorem txStore_next (p : LPort) (ps : List Word) (is : List (Fin 7)) (s : State) (k : Fin 7) :
    (txStore p ps is s).ports[p].tx.next[k] =
      if k ∈ is ∧ maskSel ps (k.val + 1) = true then some (ps.getD (k.val + 1) 0) else s.ports[p].tx.next[k] := by
  rw [txStore, eachOf_store_next p (fun i => ps.getD (i.val + 1) 0)]
  simp only [List.mem_filter]

/-! ### The words that take effect -/

theorem modTx_ite (c : Bool) (p : LPort) (f : Tx → Tx) (s : State) :
    (if c then modTx p f s else s).ports[p].tx = if c then f s.ports[p].tx else s.ports[p].tx := by
  cases c
  · rfl
  · exact modTx_tx p f s

/-- A word that takes effect when it is selected. -/
theorem ite_setCfg (c : Bool) (t u : Tx) (i k : Fin 7) (w : Word) (h : u.cfg = vset t.cfg i w) :
    (if c then u else t).cfg[k] = if k = i ∧ c = true then w else t.cfg[k] := by
  cases c
  · simp only [Bool.false_eq_true, and_false, if_false]
  · by_cases hk : k = i
    · subst hk
      simp only [if_true, and_self, h, vset_same]
    · simp only [if_true, and_true, hk, if_false, h, vset_other _ _ _ _ hk]

/-- Word 2 takes effect; in DOWN the digital gain takes its new target at once (R172, R178). -/
def Tx.level (w : Word) (down : Bool) (t : Tx) : Tx :=
  if down then gainSnap { t with cfg := vset t.cfg 1 w } else { t with cfg := vset t.cfg 1 w }

theorem Tx.level_words (w : Word) (down : Bool) (t : Tx) :
    (t.level w down).cfg = vset t.cfg 1 w ∧ (t.level w down).next = t.next := by
  cases down <;> exact ⟨rfl, rfl⟩

/-- Word 6 takes effect with its coefficients, or the identity (R170). -/
def Tx.linearise (ps ws : List Word) (t : Tx) : Tx :=
  { t with cfg := vset t.cfg 5 (ps.getD 6 0), lin := if linLen ps = 0 then linIdentity else coefs (ws.take (linLen ps)) }

/-- Word 7 takes effect with its taps, or the identity (R171). -/
def Tx.emphasise (ps ws : List Word) (t : Tx) : Tx :=
  { t with cfg := vset t.cfg 6 (ps.getD 7 0), pre := if preLen ps = 0 then preIdentity else coefs (ws.drop (linLen ps)) }

/-- The transmitter once the selected ones of words 6 and 7 are in force. -/
def Tx.filters (ps ws : List Word) (t : Tx) : Tx :=
  let t := if maskSel ps 6 then t.linearise ps ws else t
  if maskSel ps 7 then t.emphasise ps ws else t

theorem txFilters_tx (p : LPort) (ps ws : List Word) (s : State) :
    (txFilters p ps ws s).ports[p].tx = s.ports[p].tx.filters ps ws := by
  simp only [txFilters, modTx_ite]
  rfl

theorem Tx.filters_cfg (ps ws : List Word) (t : Tx) (k : Fin 7) : (t.filters ps ws).cfg[k] =
    if k = 6 ∧ maskSel ps 7 = true then ps.getD 7 0
    else if k = 5 ∧ maskSel ps 6 = true then ps.getD 6 0 else t.cfg[k] := by
  simp only [Tx.filters]
  rw [ite_setCfg _ _ _ 6 k _ rfl, ite_setCfg _ _ _ 5 k _ rfl]

theorem Tx.filters_next (ps ws : List Word) (t : Tx) : (t.filters ps ws).next = t.next := by
  simp only [Tx.filters]
  cases maskSel ps 6 <;> cases maskSel ps 7 <;> rfl

theorem Tx.filters_lin (ps ws : List Word) (t : Tx) (h : maskSel ps 6 = true) :
    (t.filters ps ws).lin = if linLen ps = 0 then linIdentity else coefs (ws.take (linLen ps)) := by
  simp only [Tx.filters, h, if_true]
  cases maskSel ps 7 <;> rfl

theorem Tx.filters_pre (ps ws : List Word) (t : Tx) (h : maskSel ps 7 = true) :
    (t.filters ps ws).pre = if preLen ps = 0 then preIdentity else coefs (ws.drop (linLen ps)) := by
  simp only [Tx.filters, h, if_true]
  rfl

/-! ### What LINE_TX_CONFIG does besides its filters -/

/-- Words 1, 3, 4 and 5 wait for the boundary, and word 2 takes effect (R178). -/
def txWords (p : LPort) (ps : List Word) (down : Bool) (s : State) : State :=
  let s := txStore p ps [0, 2, 3, 4] s
  if maskSel ps 2 then modTx p (Tx.level (ps.getD 2 0) down) s else s

theorem txWords_txOnly (p : LPort) (ps : List Word) (down : Bool) (s : State) : TxOnly p s (txWords p ps down s) :=
  (txStore_txOnly p ps _ s).trans (.ite (modTx_txOnly ..) (.refl p _))

theorem txWords_next (p : LPort) (ps : List Word) (down : Bool) (s : State) (k : Fin 7) :
    (txWords p ps down s).ports[p].tx.next[k] =
      if k ∈ [(0 : Fin 7), 2, 3, 4] ∧ maskSel ps (k.val + 1) = true then some (ps.getD (k.val + 1) 0)
      else s.ports[p].tx.next[k] := by
  rw [← txStore_next]
  have hnext : (txWords p ps down s).ports[p].tx.next = (txStore p ps [0, 2, 3, 4] s).ports[p].tx.next := by
    simp only [txWords, modTx_ite]
    split_ifs
    · exact (Tx.level_words ..).2
    · rfl
  rw [hnext]

theorem txWords_cfg (p : LPort) (ps : List Word) (down : Bool) (s : State) (k : Fin 7) :
    (txWords p ps down s).ports[p].tx.cfg[k] =
      if k = 1 ∧ maskSel ps 2 = true then ps.getD 2 0 else s.ports[p].tx.cfg[k] := by
  simp only [txWords, modTx_ite]
  rw [ite_setCfg _ _ _ 1 k _ (Tx.level_words ..).1, txStore_reads Tx.cfg fun _ _ => rfl]

theorem txFilters_txOnly (p : LPort) (ps ws : List Word) (s : State) : TxOnly p s (txFilters p ps ws s) := by
  simp only [txFilters]
  exact .trans (.ite (modTx_txOnly ..) (.refl p s)) (.ite (modTx_txOnly ..) (.refl p _))

/-! ### How LINE_TX_CONFIG runs -/

/-- In TRAFFIC words 6 and 7 are scheduled (R32, R178). -/
def txScheduled (rq : Req) (s : State) : Bool :=
  s.ports[pport rq 0].tr.state == .traffic && (maskSel rq.params 6 || maskSel rq.params 7)

/-- The words of a LINE_TX_CONFIG stored and set, its filters excepted. -/
def txConfigured (rq : Req) (s : State) : State :=
  txWords (pport rq 0) rq.params (s.ports[pport rq 0].tr.state == .down) s

theorem txConfigured_txOnly (rq : Req) (s : State) : TxOnly (pport rq 0) s (txConfigured rq s) := txWords_txOnly ..

/-- LINE_TX_CONFIG once its checks have passed, with room in the pool for its event. -/
theorem lineTxConfig_runs (rq : Req) (s : State) (hc : firstFail (txChecks rq.params (txData rq.params s)) = none)
    (hd : Claims.Awake 0x2004 rq s) (hserv : bit (par rq 0) 0 = true → inService s (pport rq 0) = false)
    (hroom : (txScheduled rq s && poolFull s) = false) :
    ∃ ps, lineTxConfig rq s =
      if txScheduled rq s then
        enterImplicit 0x2004 rq ps (txData rq.params s) (txRef (pport rq 0)) (txConfigured rq s)
      else
        reply 0x2004 rq (okay []) (txFilters (pport rq 0) rq.params (txData rq.params s) (txConfigured rq s)) := by
  have hstates : firstFail [(maskSel rq.params 1 && inService s (pport rq 0), badState)] = none := by
    have h1 : (maskSel rq.params 1 && inService s (pport rq 0)) = false := Bool.and_eq_false_imp.mpr hserv
    rw [h1]
    rfl
  rw [lineTxConfig, command_runs 0x2004 rq _ _ _ s hc hd hstates]
  exact ⟨_, if_neg fun h => Bool.false_ne_true (hroom.symm.trans h)⟩

/-- The count of a reference reads the superframe state of its port and its domain. -/
theorem refCount_congr {s t : State} (r : RefCode) (hsf : t.ports[refPort r].sf = s.ports[refPort r].sf)
    (hpower : t.power = s.power) : refCount t r = refCount s r := by
  unfold refCount isOn
  rw [hsf, domSt_of_power hpower]

/-- In TRAFFIC with word 6 selected, LINE_TX_CONFIG enters its event, and the command is taken. -/
theorem lineTxConfig_scheduled (rq : Req) (s : State) (hc : firstFail (txChecks rq.params (txData rq.params s)) = none)
    (hd : Claims.Awake 0x2004 rq s) (hserv : bit (par rq 0) 0 = true → inService s (pport rq 0) = false)
    (hst : s.ports[pport rq 0].tr.state = .traffic) (h6 : maskSel rq.params 6 = true) (hroom : poolFull s = false)
    (hsrc : rq.src ≠ .blob) :
    ∃ ps, lineTxConfig rq s = taken rq (enterEvent (implicitEvent (txConfigured rq s) 0x2004 rq ps (txData rq.params s)
      (txRef (pport rq 0))) (txConfigured rq s)) := by
  have hsched : txScheduled rq s = true := by
    rw [txScheduled, beq_iff_eq.mpr hst, h6, Bool.true_or, Bool.and_self]
  have hdial : (txConfigured rq s).dial = s.dial := (txConfigured_txOnly rq s).only .dial (by decide)
  have hroom' : poolFull (txConfigured rq s) = false := by rw [poolFull, hdial, ← hroom, poolFull]
  obtain ⟨ps, hrun⟩ := lineTxConfig_runs rq s hc hd hserv (by rw [hroom, Bool.and_false])
  rw [if_pos hsched, enterImplicit_taken _ _ _ _ _ _ hroom' hsrc] at hrun
  exact ⟨ps, hrun⟩

/-! ### The transmitter afterwards -/

/-- The transmitter of the port after a LINE_TX_CONFIG that takes effect. -/
def txAfter (rq : Req) (s : State) : Tx := (txConfigured rq s).ports[pport rq 0].tx.filters rq.params (txData rq.params s)

theorem txAfter_stored (rq : Req) (s : State) (i : Fin 7) (hi : i ∈ [(0 : Fin 7), 2, 3, 4]) :
    (txAfter rq s).cfg[i] = s.ports[pport rq 0].tx.cfg[i] ∧
      (txAfter rq s).next[i] =
        if bit (par rq 0) i.val then some (par rq (i.val + 1)) else s.ports[pport rq 0].tx.next[i] := by
  have hne : i ≠ 6 ∧ i ≠ 5 ∧ i ≠ 1 := by revert i; decide
  obtain ⟨hn6, hn5, hn1⟩ := hne
  rw [txAfter, Tx.filters_cfg, Tx.filters_next, txConfigured, txWords_cfg, txWords_next]
  simp only [hn6, hn5, hn1, hi, false_and, true_and, if_false]
  rfl

theorem txAfter_set (rq : Req) (s : State) (i : Fin 7) (hi : i ∈ [(1 : Fin 7), 5, 6]) :
    (txAfter rq s).cfg[i] = if bit (par rq 0) i.val then par rq (i.val + 1) else s.ports[pport rq 0].tx.cfg[i] := by
  rw [txAfter, Tx.filters_cfg, txConfigured, txWords_cfg]
  obtain rfl | rfl | rfl : i = 1 ∨ i = 5 ∨ i = 6 := by simpa using hi
  all_goals
    simp only [Fin.reduceEq, false_and, true_and, if_false]
    rfl

theorem linLen_eq_zero (ps : List Word) (h : bit (ps.getD 6 0) 31 = false) : linLen ps = 0 :=
  if_neg fun hsel => Bool.false_ne_true (h.symm.trans (Bool.and_eq_true_iff.mp hsel).2)

theorem preLen_eq_zero (ps : List Word) (h : bit (ps.getD 7 0) 31 = false) : preLen ps = 0 :=
  if_neg fun hsel => Bool.false_ne_true (h.symm.trans (Bool.and_eq_true_iff.mp hsel).2)

theorem bulkRead_length (m : List Host.Cell) (w n : Nat) : (bulkRead m w n).length = n := by simp [bulkRead]

/-- The coefficients of word 6 are the first of the data that a LINE_TX_CONFIG reads (R177). -/
theorem txData_take_linLen (ps : List Word) (s : State) :
    (txData ps s).take (linLen ps) = bulkRead s.bulk (fld (ps.getD 6 0) 23 0) (linLen ps) := by
  rw [txData, List.take_left' (bulkRead_length ..)]

theorem txAfter_lin_of_block (rq : Req) (s : State) (h6 : maskSel rq.params 6 = true) (hblock : bit (par rq 6) 31 = true) :
    (txAfter rq s).lin = coefs (bulkRead s.bulk (pf rq 6 23 0) 61) := by
  have hlen : linLen rq.params = 61 := if_pos (Bool.and_eq_true_iff.mpr ⟨h6, hblock⟩)
  rw [txAfter, Tx.filters_lin _ _ _ h6, txData_take_linLen, hlen]
  rfl

theorem lineTxConfigCompletes : Claims.LineTxConfigCompletes := by
  intro rq s hc hd p hserv
  refine ⟨fun hst => ?_, fun hst h6 hroom hsrc => ?_⟩
  · have hsched : txScheduled rq s = false := by
      rcases hst with hst | ⟨h6, h7⟩
      · rw [txScheduled, beq_eq_false_iff_ne.mpr hst, Bool.false_and]
      · have hnone : (maskSel rq.params 6 || maskSel rq.params 7) = false := Bool.or_eq_false_iff.mpr ⟨h6, h7⟩
        rw [txScheduled, hnone, Bool.and_false]
    obtain ⟨ps, hrun⟩ := lineTxConfig_runs rq s hc hd hserv (by rw [hsched, Bool.false_and])
    rw [hsched] at hrun
    have honly := (txConfigured_txOnly rq s).trans (txFilters_txOnly p rq.params (txData rq.params s) _)
    have htx : (txFilters p rq.params (txData rq.params s) (txConfigured rq s)).ports[p].tx = txAfter rq s := txFilters_tx ..
    refine ⟨_, congrArg Host.Outcome.next hrun, honly.only, honly.other, fun i hi => ?_, fun i hi => ?_, fun h6 hid => ?_,
      fun h7 hid => ?_, fun h6 hblock => ?_⟩ <;> rw [htx]
    · exact txAfter_stored rq s i hi
    · exact txAfter_set rq s i hi
    · exact (Tx.filters_lin _ _ _ h6).trans (if_pos (linLen_eq_zero _ hid))
    · exact (Tx.filters_pre _ _ _ h7).trans (if_pos (preLen_eq_zero _ hid))
    · exact txAfter_lin_of_block rq s h6 hblock
  · obtain ⟨ps, hrun⟩ := lineTxConfig_scheduled rq s hc hd hserv hst h6 hroom hsrc
    have honly := txConfigured_txOnly rq s
    obtain ⟨idx, use, seq, hevs⟩ := enterEvent_evs (implicitEvent (txConfigured rq s) 0x2004 rq ps (txData rq.params s)
      (txRef p)) (txConfigured rq s)
    have hdial : (txConfigured rq s).dial = s.dial := honly.only .dial (by decide)
    have hcount : refCount (txConfigured rq s) (txRef p) = refCount s (txRef p) :=
      refCount_congr _ (honly.sf _) (honly.only .power (by decide))
    rw [hdial] at hevs
    exact ⟨_, rfl, rfl, congrArg (· + 64) hcount, rfl, rfl, if_neg (by simpa using hsrc), _, congrArg Host.Outcome.next hrun,
      hevs⟩

end Sys2Proof.Machine

open Sys2Proof Sys2Proof.Machine

/-- Settles O20: each command once its checks have passed. In DOWN and MUTED, and outside TRAFFIC, the selected words are set
or stored one by one; in TRAFFIC the words that are EXACT enter their event into the Dial. -/
theorem lineConfigsComplete : Obligations.LineConfigsComplete := ⟨lineRxConfigCompletes, lineTxConfigCompletes⟩
end

section
/-! PROOF. Complication (R136 to R156), what both of its statements rest on: one port's Complication state under a change of
it, the members of a group, and a running fade. -/

namespace Sys2Proof.Machine

/-! ### The Complication state of a port -/

theorem modNlc_nlc (p : LPort) (f : Nlc → Nlc) (s : State) : (modNlc p f s).ports[p].nlc = f s.ports[p].nlc := by
  rw [modNlc_ports, vmod_same]

/-- What a change of one port's Complication state does not change of any. -/
theorem modNlc_reads {β : Type} (g : Nlc → β) (p q : LPort) (f : Nlc → Nlc) (s : State) (h : ∀ n, g (f n) = g n) :
    g (modNlc p f s).ports[q].nlc = g s.ports[q].nlc := by
  rw [modNlc_ports]
  by_cases hq : q = p
  · rw [hq, vmod_same, h]
  · rw [vmod_other _ _ _ _ hq]

theorem modNlc_congr (p : LPort) {f g : Nlc → Nlc} (s : State) (h : f s.ports[p].nlc = g s.ports[p].nlc) :
    modNlc p f s = modNlc p g s := by
  simp only [modNlc, modPort, vmod, h]

theorem modNlc_fixed (p : LPort) {f : Nlc → Nlc} (s : State) (h : f s.ports[p].nlc = s.ports[p].nlc) :
    modNlc p f s = s := by
  have hports : vmod s.ports p id = s.ports := Vector.set_getElem_self p.isLt
  exact (modNlc_congr p (g := id) s h).trans (congrArg (fun ports => { s with ports := ports }) hports)

theorem modNlc_only (p : LPort) (f : Nlc → Nlc) (s : State) : Claims.Only [.ports] s (modNlc p f s) := by
  intro x hx
  cases x <;> simp_all [Claims.Same]

/-! ### Alarms and groups -/

theorem raiseAlarm_only (key : AlarmKey) (b : Nat) (cond : Bool) (s : State) :
    Claims.Only [.alarms, .mbx] s (raiseAlarm key b cond s) :=
  only_ite (setAlarm_only_alarms key b true s) (only_refl _ s)

theorem alarmOn_raiseAlarm (key : AlarmKey) (b : Nat) (s : State) (h : b < 32) :
    alarmOn (raiseAlarm key b true s) key b = true := by
  rw [raiseAlarm, if_pos rfl, alarmOn_setAlarm key b true s h]

theorem raiseAlarm_false (key : AlarmKey) (b : Nat) (s : State) : raiseAlarm key b false s = s := by
  rw [raiseAlarm, if_neg Bool.false_ne_true]

theorem nlcEval_only (s : State) : Claims.Only [.alarms, .mbx] s (nlcEval s) :=
  eachPort_only (fun p s => only_trans (setAlarm_only_alarms (.line p) 4 _ s) (raiseAlarm_only (.line p) 5 _ _)) s

/-! ### Fades (R146) -/

theorem fadeEnds_some (u : NlcUse) (i : Nat) : fadeEnds (some (u, i)) = decide (15 ≤ i) := rfl

theorem rxStep_of_ends {n : Nlc} {u : NlcUse} {i : Nat} (h : n.rxFade = some (u, i)) (hi : 15 ≤ i) :
    n.rxStep = { n with rxFade := none, switches := n.switches + 1 } := by
  simp only [Nlc.rxStep, h, fadeStep, fadeEnds_some, hi, decide_true, if_true]

theorem txStep_of_ends {n : Nlc} {u : NlcUse} {i : Nat} (h : n.txFade = some (u, i)) (hi : 15 ≤ i) :
    n.txStep = { n with txFade := none, switches := n.switches + 1 } := by
  simp only [Nlc.txStep, h, fadeStep, fadeEnds_some, hi, decide_true, if_true]

end Sys2Proof.Machine
end

section
/-! PROOF. O60: the events of Complication (R141, R142, R146). -/

namespace Sys2Proof.Machine

/-! ### NLC_ALIGN_DONE (R141) -/

/-- The member whose correlation has completed (R141). -/
def NlcMember.found (samples delay : Int) (m : NlcMember) : NlcMember :=
  { m with aligned := true, refine := samples, delay := delay }

/-- A peak inside the window aligns the member, and a delay out of range raises NLC_SKEW. -/
theorem nlcAlignDone_inside (p j : LPort) (d : Int) (s : State) (hne : j ≠ p) (hmem : j ∈ groupOf s p)
    (hwin : d.natAbs * 320 ≤ 160 * (9 * (240 + s.ports[p].tr.rate.toNat))) :
    nlcAlignDone p j d s = raiseAlarm (.line p) 7 (delayFar (memberDelay s p j d))
      (modNlc p (fun n => { n with members := vmod n.members j (NlcMember.found d (memberDelay s p j d)) }) s) := by
  have hcond : (j != p && (groupOf s p).contains j &&
      decide (d.natAbs * 320 ≤ 160 * (9 * (240 + s.ports[p].tr.rate.toNat)))) = true := by
    rw [bne_iff_ne.mpr hne, List.contains_iff_mem.mpr hmem, decide_eq_true hwin]
    rfl
  exact if_pos hcond

theorem nlcAlignDone_outside (p j : LPort) (d : Int) (s : State)
    (hwin : 160 * (9 * (240 + s.ports[p].tr.rate.toNat)) < d.natAbs * 320) : nlcAlignDone p j d s = s := by
  have hcond : (j != p && (groupOf s p).contains j &&
      decide (d.natAbs * 320 ≤ 160 * (9 * (240 + s.ports[p].tr.rate.toNat)))) = false := by
    rw [decide_eq_false (Nat.not_le.mpr hwin), Bool.and_false]
  exact if_neg (by rw [hcond]; exact Bool.false_ne_true)

theorem nlcAlignDone_only (p j : LPort) (d : Int) (s : State) :
    Claims.Only [.ports, .alarms, .mbx] s (nlcAlignDone p j d s) :=
  only_ite (only_trans (only_mono (modNlc_only p _ s) (by simp)) (only_mono (raiseAlarm_only (.line p) 7 _ _) (by simp)))
    (only_refl _ s)

theorem nlcAlignDone_member (p j : LPort) (d : Int) (s : State) (hne : j ≠ p) (hmem : j ∈ groupOf s p)
    (hwin : d.natAbs * 320 ≤ 160 * (9 * (240 + s.ports[p].tr.rate.toNat))) :
    (nlcAlignDone p j d s).ports[p].nlc.members[j] =
      s.ports[p].nlc.members[j].found d (memberDelay s p j d) := by
  simp only [nlcAlignDone_inside p j d s hne hmem hwin, raiseAlarm_keeps, modNlc_nlc, vmod_same]

/-- NLC_SKEW is active where the delay lies beyond ±1.6 µs, and no alarm changes otherwise. -/
theorem nlcAlignDone_skew (p j : LPort) (d : Int) (s : State) (hne : j ≠ p) (hmem : j ∈ groupOf s p)
    (hwin : d.natAbs * 320 ≤ 160 * (9 * (240 + s.ports[p].tr.rate.toNat))) :
    (16000 < (memberDelay s p j d).natAbs → alarmOn (nlcAlignDone p j d s) (.line p) 7 = true) ∧
      ((memberDelay s p j d).natAbs ≤ 16000 → (nlcAlignDone p j d s).alarms = s.alarms) := by
  rw [nlcAlignDone_inside p j d s hne hmem hwin]
  constructor
  · intro hfar
    rw [delayFar, decide_eq_true hfar, alarmOn_raiseAlarm _ _ _ (by decide)]
  · intro hnear
    rw [delayFar, decide_eq_false (Nat.not_lt.mpr hnear), raiseAlarm_false, modNlc_alarms]

/-! ### NLC_MEMBER_FADE_IN (R142) -/

/-- The member whose terms begin to fade in (R142, R146). -/
def NlcMember.fadingIn (m : NlcMember) : NlcMember := { m with active := true, fade := some 0 }

theorem nlcMemberFadeIn_ready (p j : LPort) (s : State) (hidle : s.ports[p].nlc.members[j].active = false)
    (htracked : 256 ≤ s.ports[p].nlc.members[j].tracked) (hne : j ≠ p) (hmem : j ∈ groupOf s p)
    (hcross : crossOk s p = true) (hon : s.ports[p].nlc.rx.on = true) (hruns : memberRuns s p j = true)
    (hfits : memberMatches s p j = true) :
    nlcMemberFadeIn p j s = modNlc p (fun n => { n with members := vmod n.members j NlcMember.fadingIn }) s := by
  have hcond : (!s.ports[p].nlc.members[j].active && decide (256 ≤ s.ports[p].nlc.members[j].tracked) &&
      (groupOf s p).contains j && j != p && crossOk s p && s.ports[p].nlc.rx.on && memberRuns s p j &&
      memberMatches s p j) = true := by
    rw [hidle, decide_eq_true htracked, List.contains_iff_mem.mpr hmem, bne_iff_ne.mpr hne, hcross, hon, hruns, hfits]
    rfl
  exact if_pos hcond

/-! ### NLC_FADE_DONE (R146) -/

theorem nlcFadeDone_rx_ends (p : LPort) (s : State) {u : NlcUse} {i : Nat} (h : s.ports[p].nlc.rxFade = some (u, i))
    (hi : 15 ≤ i) :
    nlcFadeDone p false s = modNlc p (fun n => { n with rxFade := none, switches := n.switches + 1 }) s := by
  refine modNlc_congr p s ?_
  rw [if_neg Bool.false_ne_true, h, fadeEnds_some, if_pos (decide_eq_true hi), rxStep_of_ends h hi]

theorem nlcFadeDone_tx_ends (p : LPort) (s : State) {u : NlcUse} {i : Nat} (h : s.ports[p].nlc.txFade = some (u, i))
    (hi : 15 ≤ i) :
    nlcFadeDone p true s = modNlc p (fun n => { n with txFade := none, switches := n.switches + 1 }) s := by
  refine modNlc_congr p s ?_
  rw [if_pos rfl, h, fadeEnds_some, if_pos (decide_eq_true hi), txStep_of_ends h hi]

/-- A side whose fade has not run its 16 superframes stays as it is. -/
theorem nlcFadeDone_early (p : LPort) (transmit : Bool) (s : State)
    (h : fadeEnds (if transmit then s.ports[p].nlc.txFade else s.ports[p].nlc.rxFade) = false) :
    nlcFadeDone p transmit s = s := by
  refine modNlc_fixed p s ?_
  cases transmit
  · exact if_neg (Bool.eq_false_iff.mp h)
  · exact if_neg (Bool.eq_false_iff.mp h)

end Sys2Proof.Machine

open Sys2Proof Sys2Proof.Machine

/-- Settles O60: an alignment by the member it leaves and the alarm it raises, a fade-in by its conditions together, and a
fade's end by the step of the side that has run its sixteen superframes. -/
theorem nlcEventsComplete : Obligations.NlcEventsComplete := by
  intro p j s
  refine ⟨fun d hne hmem => ⟨fun hwin => ?_, fun hwin => congrArg Host.Outcome.next (nlcAlignDone_outside p j d s hwin)⟩,
    fun hidle htracked hne hmem hcross hon hruns hfits => ?_,
    fun u i h => ⟨fun hi => congrArg Host.Outcome.next (nlcFadeDone_rx_ends p s h hi), fun hi => ?_⟩,
    fun u i h => ⟨fun hi => congrArg Host.Outcome.next (nlcFadeDone_tx_ends p s h hi), fun hi => ?_⟩⟩
  · have hmember := nlcAlignDone_member p j d s hne hmem hwin
    obtain ⟨hfar, hnear⟩ := nlcAlignDone_skew p j d s hne hmem hwin
    exact ⟨_, rfl, nlcAlignDone_only p j d s, congrArg NlcMember.aligned hmember, congrArg NlcMember.delay hmember, hfar,
      hnear⟩
  · have hrun := nlcMemberFadeIn_ready p j s hidle htracked hne hmem hcross hon hruns hfits
    refine ⟨_, congrArg Host.Outcome.next hrun, modNlc_only p _ s, ?_, ?_⟩ <;> rw [modNlc_nlc, vmod_same] <;> rfl
  · exact congrArg Host.Outcome.next (nlcFadeDone_early p false s
      (by rw [if_neg Bool.false_ne_true, h, fadeEnds_some, decide_eq_false (Nat.not_le.mpr hi)]))
  · exact congrArg Host.Outcome.next (nlcFadeDone_early p true s
      (by rw [if_pos rfl, h, fadeEnds_some, decide_eq_false (Nat.not_le.mpr hi)]))
end

section
/-! PROOF. O22: LINE_NLC_SET (R151 to R156). -/

namespace Sys2Proof.Machine

/-! ### How LINE_NLC_SET runs -/

/-- LOAD and BUILD store a set as the one that they name (R153, R154). -/
def nlcStore (rq : Req) (c : CoefSet) (s : State) : State :=
  putSet (pport rq 0) (bit (par rq 0) 26) (Fin.ofNat 8 (pf rq 0 25 23)) c s

/-- What LINE_NLC_SET does for each operation once its checks have passed (R151). -/
def nlcOp (rq : Req) (op : Nat) (s : State) : State :=
  match op with
  | 0 => reply 0x2007 rq (okay []) (nlcGroup (pport rq 0) rq s)
  | 1 => reply 0x2007 rq (okay []) (nlcStore rq { words := nlcData rq.params s } s)
  | 2 => reply 0x2007 rq (okFlags (b2n (decide (0x7FFF < buildCd rq)))) (tookFree
      (nlcStore rq (builtSet s (pport rq 0) rq) s))
  | 3 => nlcSelect (pport rq 0) rq s
  | _ => awaitReport (.port (pport rq 0)) 0x2007 rq (nlcStatusAnswer rq) s

theorem lineNlcSet_runs (rq : Req) (s : State) (hc : firstFail (nlcChecks rq.params (nlcData rq.params s) s) = none)
    (hd : Claims.Awake 0x2007 rq s) (hs : firstFail (nlcStates rq.params s) = none) :
    Claims.Runs (.lineNlcSet rq) s (nlcOp rq (pf rq 0 29 27) s) := by
  have hbody : lineNlcSet rq s = nlcOp rq (pf rq 0 29 27) s := by
    rw [lineNlcSet, command_runs 0x2007 rq _ _ _ s hc hd hs]
    generalize pf rq 0 29 27 = op
    match op with
    | 0 | 1 | 2 | 3 | _ + 4 => rfl
  exact congrArg Host.Outcome.next hbody

/-! ### GROUP (R152) -/

/-- PEER_CHECK as last declared by any member holds for the whole group (R152). -/
def peerDeclared (p : LPort) (pc : Bool) (s : State) : State :=
  eachOf (groupOf s p) (fun q => modNlc q fun n => { n with peerCheck := pc }) s

theorem peerDeclared_only (p : LPort) (pc : Bool) (s : State) : Claims.Only [.ports] s (peerDeclared p pc s) := by
  unfold peerDeclared
  generalize groupOf s p = l
  induction l generalizing s with
  | nil => exact only_refl _ s
  | cons q l ih => exact only_trans (modNlc_only q _ s) (ih _)

/-- The declaration of GROUP on its own port (R152). -/
def Nlc.declared (rq : Req) (n : Nlc) : Nlc :=
  { n with
    group := BitVec.ofNat 2 (pf rq 0 26 25), cf := BitVec.ofNat 12 (pf rq 1 31 20), slotM := BitVec.ofNat 8 (pf rq 1 19 12)
    peerCheck := bit (par rq 0) 24, members := Vector.replicate 4 {} }

theorem nlcGroup_eq (p : LPort) (rq : Req) (s : State) :
    nlcGroup p rq s = nlcEval (peerDeclared p (bit (par rq 0) 24) (modNlc p (Nlc.declared rq) s)) := rfl

theorem nlcGroup_only (p : LPort) (rq : Req) (s : State) : Claims.Only [.ports, .alarms, .mbx] s (nlcGroup p rq s) := by
  rw [nlcGroup_eq]
  exact only_trans (only_mono (only_trans (modNlc_only p _ s) (peerDeclared_only p _ _)) (by simp))
    (only_mono (nlcEval_only _) (by simp))

/-- Apart from PEER_CHECK, the port's Complication state after GROUP is the one declared. -/
theorem nlcGroup_reads {β : Type} (g : Nlc → β) (hg : ∀ (n : Nlc) pc, g { n with peerCheck := pc } = g n) (p : LPort)
    (rq : Req) (s : State) : g (nlcGroup p rq s).ports[p].nlc = g (s.ports[p].nlc.declared rq) := by
  rw [nlcGroup_eq, nlcEval_ports, ← modNlc_nlc p (Nlc.declared rq) s]
  exact eachOf_keeps (fun s => g s.ports[p].nlc) _ _ _ fun q _ => modNlc_reads g q p _ _ fun n => hg n _

theorem nlcGroup_declares (p : LPort) (rq : Req) (s : State) :
    (nlcGroup p rq s).ports[p].nlc.group = BitVec.ofNat 2 (pf rq 0 26 25) ∧
      (nlcGroup p rq s).ports[p].nlc.cf = BitVec.ofNat 12 (pf rq 1 31 20) ∧
      (nlcGroup p rq s).ports[p].nlc.slotM = BitVec.ofNat 8 (pf rq 1 19 12) ∧
      (nlcGroup p rq s).ports[p].nlc.members = Vector.replicate 4 {} :=
  ⟨nlcGroup_reads Nlc.group (fun _ _ => rfl) p rq s, nlcGroup_reads Nlc.cf (fun _ _ => rfl) p rq s,
    nlcGroup_reads Nlc.slotM (fun _ _ => rfl) p rq s, nlcGroup_reads Nlc.members (fun _ _ => rfl) p rq s⟩

/-! ### LOAD (R153) -/

/-- Parameter checks that pass: none of their conditions holds. -/
theorem any_eq_false_of_firstFail_badAt {bs : List (Bool × Nat)} {cs : List (Bool × Answer)}
    (h : firstFail (badAt bs :: cs) = none) : bs.any (·.1) = false := by
  rw [← badAt_fst, Bool.eq_false_iff]
  intro hfails
  rw [← Prod.mk.eta (p := badAt bs), firstFail_cons, if_pos hfails] at h
  exact Option.some_ne_none _ h

/-- The checks of a LOAD (R153): the last of a word is on the block's length. -/
theorem nlcChecks_load (rq : Req) (ws : List Word) (s : State) (hop : pf rq 0 29 27 = 1) :
    ∃ shape range, nlcChecks rq.params ws s =
      [badAt [(shape, 0), (range, 1), (decide (3573 < (par rq 2).toNat), 2)], (setBad (pport rq 0) ws, badParam 0xFF)] := by
  have hop' : fld (rq.params.getD 0 0) 29 27 = 1 := hop
  simp only [nlcChecks, hop']
  exact ⟨_, _, rfl⟩

/-- A LOAD whose checks pass names at most 3573 words. -/
theorem nlcChecks_load_length (rq : Req) (ws : List Word) (s : State) (hop : pf rq 0 29 27 = 1)
    (hc : firstFail (nlcChecks rq.params ws s) = none) : (par rq 2).toNat ≤ 3573 := by
  obtain ⟨shape, range, hchecks⟩ := nlcChecks_load rq ws s hop
  rw [hchecks] at hc
  have hpass := any_eq_false_of_firstFail_badAt hc
  simp only [List.any_cons, Bool.or_eq_false_iff, decide_eq_false_iff_not, Nat.not_lt] at hpass
  obtain ⟨-, -, hlen, -⟩ := hpass
  exact hlen

theorem nlcData_load (rq : Req) (s : State) (hop : pf rq 0 29 27 = 1) (hlen : (par rq 2).toNat ≤ 3573) :
    nlcData rq.params s = bulkRead s.bulk (pf rq 1 23 0) (par rq 2).toNat :=
  if_pos (by simpa using ⟨hop, hlen⟩)

/-! ### BUILD (R145, R154) -/

/-- A block that ends in the CRC of the words before it passes its check (R145). -/
theorem blockCrc_append_crc (ws : List Word) : blockCrc (ws ++ [crc32c ws]) = true := by
  simp [blockCrc]

/-- A port's bit of a MEMBER_MASK is set where the mask lists the port (R145). -/
theorem testBit_memberMask (f : LPort → Bool) (p : LPort) :
    ((allPorts.filter f).foldl (fun a (q : LPort) => a + 2 ^ q.val) 0).testBit p.val = f p := by
  revert f p
  decide

/-- The ports that BUILD gives a set: the group's, or the port alone (R154). -/
def buildMembers (s : State) (p : LPort) : List LPort :=
  if s.ports[p].nlc.group == 0 then [p] else groupOf s p

/-- The header of a set that BUILD computes (R145, R154). -/
def buildHead (s : State) (p : LPort) : Word :=
  word [(31, 24, 1), (23, 20, (buildMembers s p).foldl (fun a (q : LPort) => a + 2 ^ q.val) 0), (15, 8, 255), (7, 0, 127)]

/-- The word of port `q` in a set that BUILD computes: its rate and centre, if it is a member. -/
def buildRow (s : State) (p q : LPort) : Word :=
  if (buildMembers s p).contains q then word [(31, 22, s.ports[q].tr.rate.toNat), (21, 10, s.ports[q].nlc.cf.toNat)] else 0

/-- The words of a set that BUILD computes: the header, the four ports, and the rest up to the CRC (R145). -/
theorem builtSet_words (s : State) (p : LPort) (rq : Req) :
    ∃ shape cd terms, terms.length = setLength (buildHead s p) - 9 ∧
      (let ws := [buildHead s p, buildRow s p 0, buildRow s p 1, buildRow s p 2, buildRow s p 3, shape, cd, 0] ++ terms
      (builtSet s p rq).words = ws ++ [crc32c ws]) :=
  ⟨_, _, _, by rw [List.length_map, List.length_range]; rfl, rfl⟩

theorem builtSet_head (s : State) (p : LPort) (rq : Req) : (builtSet s p rq).w 0 = buildHead s p := rfl

theorem builtSet_row (s : State) (p : LPort) (rq : Req) (q : LPort) :
    (builtSet s p rq).w (1 + q.val) = buildRow s p q :=
  match q with
  | 0 | 1 | 2 | 3 => rfl

theorem builtSet_crc (s : State) (p : LPort) (rq : Req) : blockCrc (builtSet s p rq).words = true := by
  obtain ⟨shape, cd, terms, -, hwords⟩ := builtSet_words s p rq
  rw [hwords, blockCrc_append_crc]

theorem builtSet_length (s : State) (p : LPort) (rq : Req) :
    (builtSet s p rq).words.length = setLength ((builtSet s p rq).w 0) := by
  obtain ⟨shape, cd, terms, hlen, hwords⟩ := builtSet_words s p rq
  have hmin : 9 ≤ setLength (buildHead s p) := by
    rw [setLength, Nat.add_assoc]
    exact Nat.le_add_right ..
  rw [hwords, builtSet_head]
  simp only [List.length_append, List.length_cons, List.length_nil, hlen]
  omega

theorem allPorts_filter_eq (p : LPort) : (allPorts.filter fun q => q == p) = [p] := by
  revert p
  decide

/-- The ports of a built set are those of which a condition holds, and the port itself is one. -/
theorem buildMembers_eq_filter (s : State) (p : LPort) : ∃ f, buildMembers s p = allPorts.filter f ∧ f p = true := by
  unfold buildMembers
  split_ifs with hgroup
  · exact ⟨_, (allPorts_filter_eq p).symm, beq_self_eq_true p⟩
  · exact ⟨_, rfl, by simpa using hgroup⟩

theorem mem_allPorts (p : LPort) : p ∈ allPorts := by
  revert p
  decide

theorem mem_buildMembers (s : State) (p : LPort) : p ∈ buildMembers s p := by
  obtain ⟨f, hf, hp⟩ := buildMembers_eq_filter s p
  rw [hf]
  exact List.mem_filter.mpr ⟨mem_allPorts p, hp⟩

/-- A bit of a field is a bit of its word. -/
theorem testBit_fld (w : Word) (hi lo j : Nat) (h : lo + j ≤ hi) : (fld w hi lo).testBit j = bit w (lo + j) := by
  rw [fld, Nat.testBit_mod_two_pow, Nat.testBit_div_two_pow, bit_eq_testBit, Nat.add_comm j lo,
    decide_eq_true (by omega), Bool.true_and]

theorem buildHead_mask (s : State) (p : LPort) :
    fld (buildHead s p) 23 20 = (buildMembers s p).foldl (fun a (q : LPort) => a + 2 ^ q.val) 0 % 2 ^ 4 :=
  fld_word 23 20 _ _ rfl (by simp)

theorem builtSet_holds (s : State) (p : LPort) (rq : Req) : (builtSet s p rq).holds p = true := by
  obtain ⟨f, hf, hp⟩ := buildMembers_eq_filter s p
  have hport : 20 + p.val ≤ 23 := by omega
  rw [CoefSet.holds, builtSet_head, ← testBit_fld _ 23 20 _ hport, buildHead_mask, hf, Nat.testBit_mod_two_pow,
    testBit_memberMask, hp, decide_eq_true p.isLt, Bool.and_self]

theorem builtSet_matches (s : State) (p : LPort) (rq : Req) : (builtSet s p rq).matches s p = true := by
  have hrow : buildRow s p p = word [(31, 22, s.ports[p].tr.rate.toNat), (21, 10, s.ports[p].nlc.cf.toNat)] :=
    if_pos (List.contains_iff_mem.mpr (mem_buildMembers s p))
  rw [CoefSet.matches, builtSet_row, hrow, fld_word 31 22 s.ports[p].tr.rate.toNat _ rfl (by simp),
    fld_word 21 10 s.ports[p].nlc.cf.toNat _ rfl (by simp)]
  rw [Nat.mod_eq_of_lt (BitVec.isLt _), Nat.mod_eq_of_lt (BitVec.isLt _), beq_self_eq_true, beq_self_eq_true, Bool.and_self]

/-! ### SELECT (R155) and STATUS (R156) -/

theorem nlcSelect_rx (p : LPort) (rq : Req) (s : State) (hrx : bit (par rq 0) 26 = false)
    (hst : s.ports[p].tr.state ≠ .traffic) :
    nlcSelect p rq s = reply 0x2007 rq (okay []) (modNlc p (fun n => { n with
      rxNext := some (selected n.rx (bit (par rq 0) 22) (pf rq 0 25 23)) }) s) := by
  rw [nlcSelect, hrx, if_neg Bool.false_ne_true, if_neg (by simpa using hst)]

theorem nlcSelect_tx (p : LPort) (rq : Req) (s : State) (htx : bit (par rq 0) 26 = true) :
    nlcSelect p rq s = reply 0x2007 rq (okay []) (modNlc p (fun n => { n with
      txNext := some (selected n.tx (bit (par rq 0) 22) (pf rq 0 25 23)), txSelOn := bit (par rq 0) 22
      txSel := if bit (par rq 0) 22 then BitVec.ofNat 3 (pf rq 0 25 23) else n.txSel }) s) := by
  rw [nlcSelect, htx, if_pos rfl]

/-- A command that comes to wait for its boundary as a report, or to answer at once, does what a report does. -/
theorem reports_of_runs {c : Instr} {place : ReportAt} {op : Nat} {rq : Req} {answer : State → State} {s : State}
    (h : Claims.Runs c s (awaitReport place op rq answer s)) : Claims.Reports c place op rq (answer s) s :=
  ⟨fun hoff => awaitReport_now place op rq answer s hoff ▸ h, fun hon => awaitReport_waits place op rq answer s hon ▸ h⟩

end Sys2Proof.Machine

open Sys2Proof Sys2Proof.Machine

/-- Settles O22: the checks pass, so the command does what its operation does. GROUP's declaration stands
when PEER_CHECK is shared and the alarms are evaluated, and a set that BUILD computes has the length of its header, the
port's rate and centre, and its CRC. -/
theorem lineNlcCompletes : Obligations.LineNlcCompletes := by
  intro rq s hc hd hs
  have hrun := lineNlcSet_runs rq s hc hd hs
  refine ⟨fun hop => ?_, fun hop => ?_, fun hop => ?_, fun hop hrx hst => ?_, fun hop htx => ?_, fun hop => ?_⟩ <;>
    rw [hop] at hrun
  · obtain ⟨hgroup, hcf, hslot, hmembers⟩ := nlcGroup_declares (pport rq 0) rq s
    refine ⟨nlcGroup (pport rq 0) rq s, hrun, ?_⟩
    -- without unfolding `nlcGroup`: the two sides differ in the proof of the port index's bound alone
    with_reducible exact ⟨hgroup, hcf, hslot, hmembers, nlcGroup_only _ rq s⟩
  · rw [nlcOp, nlcData_load rq s hop (nlcChecks_load_length rq _ s hop hc)] at hrun
    exact hrun
  · exact ⟨builtSet s (pport rq 0) rq, okFlags (b2n (decide (0x7FFF < buildCd rq))), rfl, builtSet_crc s _ rq,
      builtSet_length s _ rq, builtSet_holds s _ rq, builtSet_matches s _ rq, hrun⟩
  · exact nlcSelect_rx _ rq s hrx hst ▸ hrun
  · exact nlcSelect_tx _ rq s htx ▸ hrun
  · exact ⟨nlcStatus s (pport rq 0), rfl, rfl, reports_of_runs (answer := nlcStatusAnswer rq) hrun⟩
end

section
/-! PROOF. The decoder pool under its operations: the ports' share (R193, R197, R205), an engine that is fenced (R205, R206), and
a read of a protected word (R214, R215). -/

namespace Sys2Proof.Machine

theorem modPool_only (f : Pool → Pool) (s : State) : Claims.Only [.pool] s (modPool f s) := by
  intro x hx
  cases x <;> simp_all [Claims.Same]

theorem modEng_only (e : Engine) (f : EngineSt → EngineSt) (s : State) : Claims.Only [.pool] s (modEng e f s) :=
  modPool_only _ s

theorem vmod_vmod {α : Type} {n : Nat} (v : Vector α n) (i : Fin n) (f g : α → α) :
    vmod (vmod v i f) i g = vmod v i (g ∘ f) := by
  simp [vmod, vset, Vector.set_set]

/-! ### The ports' share of the pool -/

/-- Two states that differ in the ports' share of the pool alone. -/
def ShareOnly (s t : State) : Prop := ∃ v, t = { s with pool := { s.pool with ports := v } }

theorem ShareOnly.trans {s t u : State} (h : ShareOnly s t) (h' : ShareOnly t u) : ShareOnly s u := by
  obtain ⟨_, rfl⟩ := h
  obtain ⟨v, rfl⟩ := h'
  exact ⟨v, rfl⟩

theorem ShareOnly.ite {c : Prop} [Decidable c] {s t u : State} (h : ShareOnly s t) (h' : ShareOnly s u) :
    ShareOnly s (if c then t else u) := by
  split
  · exact h
  · exact h'

theorem ShareOnly.refl (s : State) : ShareOnly s s := ⟨s.pool.ports, rfl⟩

theorem ShareOnly.pool {s t : State} (h : ShareOnly s t) : t.pool = { s.pool with ports := t.pool.ports } := by
  obtain ⟨_, rfl⟩ := h
  rfl

theorem ShareOnly.engines {s t : State} (h : ShareOnly s t) : t.pool.engines = s.pool.engines := by
  obtain ⟨_, rfl⟩ := h
  rfl

theorem ShareOnly.eccCorr {s t : State} (h : ShareOnly s t) : t.pool.eccCorr = s.pool.eccCorr := by
  obtain ⟨_, rfl⟩ := h
  rfl

theorem ShareOnly.only {s t : State} (h : ShareOnly s t) : Claims.Only [.pool] s t := by
  obtain ⟨v, rfl⟩ := h
  exact modPool_only (fun x => { x with ports := v }) s

theorem modPp_port (p : LPort) (f : PoolPort → PoolPort) (s : State) :
    (modPp p f s).pool.ports[p] = f s.pool.ports[p] := vmod_same s.pool.ports p f

theorem modPp_shareOnly (p : LPort) (f : PoolPort → PoolPort) (s : State) : ShareOnly s (modPp p f s) := ⟨_, rfl⟩

theorem modOpen_shareOnly (p : LPort) (id : Nat) (f : OpenSf → OpenSf) (s : State) : ShareOnly s (modOpen p id f s) :=
  modPp_shareOnly p _ s

theorem putBack_shareOnly (again : Bool) (j : Option Job) (s : State) : ShareOnly s (putBack again j s) := by
  cases j with
  | none => exact .refl s
  | some j => exact modPp_shareOnly j.port _ s

theorem settleCw_shareOnly (p : LPort) (id : Nat) (r : Nat × Nat × DecodeObs) (s : State) :
    ShareOnly s (settleCw p id r s) := by
  rw [settleCw]
  split
  · exact .refl s
  · exact (modOpen_shareOnly p id _ s).trans (modPp_shareOnly p _ _)

theorem closeCw_shareOnly (p : LPort) (id k : Nat) (s : State) : ShareOnly s (closeCw p id k s) := by
  rw [closeCw]
  split
  · exact .refl s
  · split
    · exact settleCw_shareOnly p id _ s
    · exact .refl s

theorem finishSf_shareOnly (p : LPort) (id : Nat) (s : State) : ShareOnly s (finishSf p id s) := by
  rw [finishSf]
  split
  · exact .refl s
  · exact modPp_shareOnly p _ s

/-! ### An engine that is fenced (R205, R206) -/

/-- An engine gives both its codewords back and nothing else of the engines changes. -/
theorem takeBack_pool (e : Engine) (s : State) :
    (takeBack e s).pool = { s.pool with
      ports := (takeBack e s).pool.ports
      engines := vmod s.pool.engines e fun x => { x with running := none, staged := none } } := by
  have h := ((putBack_shareOnly true s.pool.engines[e].running s).trans
    (putBack_shareOnly true s.pool.engines[e].staged _)).pool
  rw [takeBack, modEng_pool, h]

theorem fenceAlarms_pool (s : State) : (fenceAlarms s).pool = s.pool := by
  rw [fenceAlarms, raiseAlarm]
  split <;> simp [setAlarm_pool]

/-- What fencing makes of an engine's record. -/
def EngineSt.fence (x : EngineSt) : EngineSt := { x with running := none, staged := none, fenced := true }

/-- An engine in service is fenced, and that counts. -/
theorem fence_pool (e : Engine) (s : State) (h : s.pool.engines[e].fenced = false) :
    (fence e s).pool = { s.pool with
      ports := (takeBack e s).pool.ports
      engines := vmod s.pool.engines e EngineSt.fence
      fenceEvt := s.pool.fenceEvt + 1 } := by
  rw [fence, h, if_neg Bool.false_ne_true, fenceAlarms_pool, modPool_pool, modEng_pool, takeBack_pool, vmod_vmod]
  rfl

/-- An engine that is fenced already stays as it is. -/
theorem fence_of_fenced (e : Engine) (s : State) (h : s.pool.engines[e].fenced = true) : fence e s = s := by
  rw [fence, if_pos h]

theorem fence_engine (e : Engine) (s : State) (h : s.pool.engines[e].fenced = false) :
    (fence e s).pool.engines[e] = s.pool.engines[e].fence := by
  rw [fence_pool e s h, vmod_same]

theorem fence_fenceEvt (e : Engine) (s : State) (h : s.pool.engines[e].fenced = false) :
    (fence e s).pool.fenceEvt = s.pool.fenceEvt + 1 := by
  rw [fence_pool e s h]

theorem fence_fenced (e : Engine) (s : State) : (fence e s).pool.engines[e].fenced = true := by
  cases h : s.pool.engines[e].fenced with
  | false => rw [fence_engine e s h]; rfl
  | true => rw [fence_of_fenced e s h, h]

theorem fence_testing (e : Engine) (s : State) :
    (fence e s).pool.engines[e].testing = s.pool.engines[e].testing := by
  cases h : s.pool.engines[e].fenced with
  | false => rw [fence_engine e s h]; rfl
  | true => rw [fence_of_fenced e s h]

/-- Fencing changes none of the other counts of engines and of memories. -/
@[simp] theorem fence_counts (e : Engine) (s : State) :
    (fence e s).pool.katFail = s.pool.katFail ∧ (fence e s).pool.watchdog = s.pool.watchdog ∧
      (fence e s).pool.engEcc = s.pool.engEcc ∧ (fence e s).pool.eccDetect = s.pool.eccDetect ∧
      (fence e s).pool.scrubs = s.pool.scrubs := by
  cases h : s.pool.engines[e].fenced with
  | false => simp [fence_pool e s h]
  | true => simp [fence_of_fenced e s h]

theorem fenceAlarms_alarmOn (e : Engine) (s : State) (h : s.pool.engines[e].fenced = true) :
    alarmOn (fenceAlarms s) .pool 0 = true := by
  have hany : ((List.finRange 64).any fun e => engineFenced s e) = true :=
    List.any_eq_true.mpr ⟨e, List.mem_finRange e, by rw [engineFenced, h, Bool.true_or]⟩
  rw [fenceAlarms, hany]
  cases quadFailed s with
  | false => rw [raiseAlarm_false, alarmOn_setAlarm _ _ _ _ (by decide)]
  | true => rw [raiseAlarm, if_pos rfl, alarmOn_setAlarm_otherBit _ _ _ _ _ (by decide) (by decide),
      alarmOn_setAlarm _ _ _ _ (by decide)]

/-- FEC_ENGINE_FENCED stands once an engine has been fenced. -/
theorem fence_alarmOn (e : Engine) (s : State) (h : s.pool.engines[e].fenced = false) :
    alarmOn (fence e s) .pool 0 = true := by
  rw [fence, h, if_neg Bool.false_ne_true]
  exact fenceAlarms_alarmOn e _ (by rw [modPool_pool, modEng_pool, vmod_same])

/-! ### Reads of protected words (R214, R215) -/

theorem eccRead_corrected (s : State) {n : Nat} (h : 1 ≤ n) (h' : n ≤ 16) : eccRead s n = .corrected := by
  rw [eccRead, if_neg (by omega), if_pos h']

theorem eccRead_detected (s : State) {n : Nat} (h : 16 < n) (h' : n ≤ 24) : eccRead s n = .detected := by
  rw [eccRead, if_neg (by omega), if_neg (by omega), if_pos h']

/-- A read that corrects its word counts. -/
def countCorrected (s : State) : State := tookFree (modPool (fun x => { x with eccCorr := x.eccCorr + 1 }) s)

/-- A read that cannot correct its word counts. -/
def countDetected (s : State) : State := tookFree (modPool (fun x => { x with eccDetect := x.eccDetect + 1 }) s)

theorem countCorrected_only (s : State) : Claims.Only [.pool, .free] s (countCorrected s) := by
  intro x hx
  cases x <;> simp_all [Claims.Same, countCorrected]

theorem countDetected_only (s : State) : Claims.Only [.pool, .free] s (countDetected s) := by
  intro x hx
  cases x <;> simp_all [Claims.Same, countDetected]

/-- A corrected word of the pool's memories is no more than a count. -/
theorem poolWord_corrected (e : Option Engine) (s : State) {n : Nat} (h : 1 ≤ n) (h' : n ≤ 16) :
    poolWord e n s = countCorrected s := by
  cases e with
  | none => rw [poolWord, eccRead_corrected s h h']; rfl
  | some e => rw [poolWord, eccRead_corrected s h h']; rfl

theorem softWord_corrected (p : LPort) (sf : Nat) (l : List Nat) (s : State) {n : Nat} (h : 1 ≤ n) (h' : n ≤ 16) :
    softWord p sf l n s = countCorrected s := by
  rw [softWord, eccRead_corrected s h h']
  rfl

/-- A word of an engine's memory is lost: the engine is fenced. -/
def engineWordLost (e : Engine) (s : State) : State :=
  fence e (modPool (fun x => { x with engEcc := x.engEcc + 1 }) (countDetected s))

theorem engineWordLost_fenced (e : Engine) (s : State) : (engineWordLost e s).pool.engines[e].fenced = true :=
  fence_fenced e _

theorem engineWordLost_eccDetect (e : Engine) (s : State) :
    (engineWordLost e s).pool.eccDetect = s.pool.eccDetect + 1 := by
  simp [engineWordLost, countDetected]

theorem engineWordLost_engEcc (e : Engine) (s : State) : (engineWordLost e s).pool.engEcc = s.pool.engEcc + 1 := by
  simp [engineWordLost, countDetected]

theorem engineWordLost_scrubs (e : Engine) (s : State) : (engineWordLost e s).pool.scrubs = s.pool.scrubs := by
  simp [engineWordLost, countDetected]

theorem poolWord_detected (e : Engine) (s : State) {n : Nat} (h : 16 < n) (h' : n ≤ 24) :
    poolWord (some e) n s = engineWordLost e s := by
  rw [poolWord, eccRead_detected s h h']
  rfl

/-- A word of the codeword buffer is lost: its LLRs become erasures. -/
def softWordLost (p : LPort) (sf : Nat) (l : List Nat) (s : State) : State := modOpen p sf (eraseLlrs l) (countDetected s)

theorem softWordLost_only (p : LPort) (sf : Nat) (l : List Nat) (s : State) :
    Claims.Only [.pool, .free] s (softWordLost p sf l s) :=
  only_trans (countDetected_only s) (only_mono (modOpen_shareOnly p sf _ _).only (by simp))

/-- An erasure is an LLR of 0. -/
theorem eraseLlrs_getD (l : List Nat) (o : OpenSf) (i : Nat) (h : i ∈ l) : (eraseLlrs l o).llr.getD i 0 = 0 := by
  rw [eraseLlrs, List.getD_eq_getElem?_getD, List.getElem?_mapIdx]
  cases o.llr[i]? with
  | none => rfl
  | some v => simp [h]

theorem softWordLost_llr (p : LPort) (sf : Nat) (l : List Nat) (s : State) :
    ∀ o ∈ (softWordLost p sf l s).pool.ports[p].openSfs, o.id = sf → ∀ i ∈ l, o.llr.getD i 0 = 0 := by
  intro o ho hid i hi
  rw [softWordLost, modOpen, modPp_pool, vmod_same] at ho
  obtain ⟨o', -, rfl⟩ := List.mem_map.mp ho
  by_cases h : o'.id = sf
  · rw [if_pos (beq_iff_eq.mpr h)]
    exact eraseLlrs_getD l o' i hi
  · rw [if_neg (by simpa using h)] at hid
    exact absurd hid h

theorem softWord_detected (p : LPort) (sf : Nat) (l : List Nat) (s : State) {n : Nat} (h : 16 < n) (h' : n ≤ 24) :
    softWord p sf l n s = softWordLost p sf l s := by
  rw [softWord, eccRead_detected s h h']
  rfl

end Sys2Proof.Machine
end

section
/-! PROOF. O32: the FEC commands (R13, R209 to R212). -/

namespace Sys2Proof.Machine

/-! ### FEC_MODE_SET (R209) -/

/-- DIR of a FEC_MODE_SET selects the receive direction by its low bit. -/
theorem dir_low (w : Word) : (fld w 29 28 % 2 == 1) = bit w 28 := by
  have h : w.toNat / 2 ^ 28 % 2 ^ 2 % 2 = w.toNat / 2 ^ 28 % 2 := by omega
  rw [fld, bit, h]

/-- DIR of a FEC_MODE_SET selects the transmit direction by its high bit. -/
theorem dir_high (w : Word) : 2 ≤ fld w 29 28 ↔ bit w 29 = true := by
  simp only [fld, bit, beq_iff_eq]
  omega

theorem fecSlotsBad_eq_false (rq : Req) (s : State)
    (h : 2 ≤ pf rq 0 29 28 → topSlot (mustCarry s (pport rq 0)) ≤
      slotsCarried (withFec s.ports[pport rq 0].tr.txFmt (pf rq 0 27 26))) : fecSlotsBad rq s = false := by
  simpa [fecSlotsBad] using h

theorem fecModeSet_runs (rq : Req) (s : State) (hd : Claims.Awake 0x4001 rq s) (hzero : pf rq 0 25 0 = 0)
    (hmode : pf rq 0 27 26 ≠ 3) (hdir : pf rq 0 29 28 ≠ 0) (hst : inService s (pport rq 0) = false)
    (hslots : fecSlotsBad rq s = false) :
    fecModeSet rq s = reply 0x4001 rq (okay []) (modTr (pport rq 0) (fun t => { t with
      rxFmt := if bit (par rq 0) 28 then withFec t.rxFmt (pf rq 0 27 26) else t.rxFmt
      txFmt := if bit (par rq 0) 29 then withFec t.txFmt (pf rq 0 27 26) else t.txFmt }) s) := by
  have hlow : (pf rq 0 29 28 % 2 == 1) = bit (par rq 0) 28 := dir_low (par rq 0)
  have hhigh : 2 ≤ pf rq 0 29 28 ↔ bit (par rq 0) 29 = true := dir_high (par rq 0)
  rw [fecModeSet, commandOk_runs 0x4001 rq _ _ _ s ?_ hd ?_]
  · simp only [hlow, hhigh]
  · rw [firstFail_badAt _ _ (by simp [hdir, hmode, hzero]), hslots, firstFail_cons, if_neg Bool.false_ne_true, firstFail_nil]
  · simp only [hst, firstFail_cons, firstFail_nil, Bool.false_eq_true, if_false]

/-! ### FEC_POOL_POLICY (R210) -/

/-- The ports whose pool limits a FEC_POOL_POLICY sets. -/
def policyPort (rq : Req) (p : LPort) : Bool := bit (par rq 0) (28 + p.val)

/-- The pool with the reserve, floors and ceilings of a FEC_POOL_POLICY. -/
def policyPool (rq : Req) (x : Pool) : Pool := { x with
  reserve := if bit (par rq 0) 27 then BitVec.ofNat 4 (pf rq 0 26 23) else x.reserve
  ports := Vector.ofFn fun p =>
    if policyPort rq p then
      { x.ports[p] with floor := BitVec.ofNat 5 (pf rq 1 31 27), ceilMax := BitVec.ofNat 5 (pf rq 1 26 22) }
    else x.ports[p] }

theorem policyPool_port (rq : Req) (x : Pool) (p : LPort) :
    (policyPool rq x).ports[p] =
      if policyPort rq p then
        { x.ports[p] with floor := BitVec.ofNat 5 (pf rq 1 31 27), ceilMax := BitVec.ofNat 5 (pf rq 1 26 22) }
      else x.ports[p] :=
  Vector.getElem_ofFn p.isLt

theorem policyPool_cLat (rq : Req) (x : Pool) (p : LPort) : (policyPool rq x).ports[p].cLat = x.ports[p].cLat := by
  rw [policyPool_port]
  split <;> rfl

theorem policyPool_reserve (rq : Req) (x : Pool) :
    (policyPool rq x).reserve.toNat = if bit (par rq 0) 27 then pf rq 0 26 23 else x.reserve.toNat := by
  have hlt : pf rq 0 26 23 < 2 ^ 4 := pf_lt rq 0 26 23
  rw [policyPool]
  split
  · exact (BitVec.toNat_ofNat _ 4).trans (Nat.mod_eq_of_lt hlt)
  · rfl

/-- A ceiling that a FEC_POOL_POLICY sets lies above the C_LAT that its port latched. -/
def ceilingAbove (rq : Req) (s : State) : Bool :=
  allPorts.any fun p => policyPort rq p && decide (s.pool.ports[p].cLat.toNat < pf rq 1 26 22)

theorem ceilingAbove_iff (rq : Req) (s : State) :
    ceilingAbove rq s = true ↔ ∃ p : LPort, policyPort rq p = true ∧ s.pool.ports[p].cLat.toNat < pf rq 1 26 22 := by
  simp [ceilingAbove, mem_allPorts]

theorem ceilingAbove_policyPool (rq : Req) (s : State) : ceilingAbove rq (modPool (policyPool rq) s) = ceilingAbove rq s := by
  simp only [ceilingAbove, modPool_pool, policyPool_cLat]

theorem fecPoolPolicy_runs (rq : Req) (s : State) (hd : Claims.Awake 0x4002 rq s) (hlo : 4 ≤ pf rq 1 31 27)
    (hle : pf rq 1 31 27 ≤ pf rq 1 26 22) (hhi : pf rq 1 26 22 ≤ 24) (hzero : pf rq 0 22 0 = 0) (hzero' : pf rq 1 21 0 = 0)
    (hsel : pf rq 0 31 27 ≠ 0) :
    fecPoolPolicy rq s = reply 0x4002 rq (okFlags (b2n (ceilingAbove rq s))) (modPool (policyPool rq) s) := by
  have hany : ¬(pf rq 0 31 28 = 0 ∧ pf rq 0 27 27 = 0) := fun ⟨hports, hres⟩ => by
    simp only [pf, fld] at hsel hports hres
    omega
  rw [← ceilingAbove_policyPool, fecPoolPolicy]
  refine command_runs 0x4002 rq _ (fun _ => []) _ s (firstFail_badAt _ _ ?_) hd rfl
  simp [hzero, hzero']
  omega

/-! ### FEC_STATUS (R211) and FEC_PM_READ (R212) -/

theorem fecPortWords_head (s : State) (p : LPort) :
    let w := (fecPortWords s p).getD 0 0
    fld w 27 23 = s.pool.ports[p].ceil.toNat ∧ fld w 12 8 = s.pool.ports[p].cLat.toNat ∧ bit w 7 = s.pool.ports[p].inPool := by
  refine ⟨?_, ?_, bit_word 7 _ _ rfl (by simp)⟩
  · exact (fld_word 27 23 s.pool.ports[p].ceil.toNat _ rfl (by simp)).trans (Nat.mod_eq_of_lt (BitVec.isLt _))
  · exact (fld_word 12 8 s.pool.ports[p].cLat.toNat _ rfl (by simp)).trans (Nat.mod_eq_of_lt (BitVec.isLt _))

theorem fecPortCounters_length (x : PoolPort) : (fecPortCounters x).length = 45 := by
  simp [fecPortCounters, two]

theorem fecPoolCounters_length (x : Pool) : (fecPoolCounters x).length = 74 := by
  simp [fecPoolCounters, two]

/-- The pool's own counts stand behind those of its 64 engines. -/
theorem fecPoolCounters_pool (x : Pool) : ((fecPoolCounters x).drop 64).take 6 =
    [x.fenceEvt, x.redispatch, x.katFail, x.watchdog, x.engEcc, x.throttle] := by
  have hengines : (x.engines.toList.map (·.cw)).length = 64 := by simp
  rw [fecPoolCounters, List.append_assoc, List.append_assoc, List.drop_left' hengines]
  rfl

theorem fecAt_port {rq : Req} (h : bit (par rq 0) 29 = false) : fecAt rq = .port (pport rq 0) := by
  rw [fecAt, h, if_neg Bool.false_ne_true]

theorem fecAt_device {rq : Req} (h : bit (par rq 0) 29 = true) : fecAt rq = .device := by
  rw [fecAt, if_pos h]

theorem fecStatus_reports (rq : Req) (s : State) (hzero : pf rq 0 28 0 = 0) :
    Claims.Reports (.fecStatus rq) (fecAt rq) 0x4003 rq (fecStatusAnswer rq s) s :=
  reports_of_report _ _ _ _ _ _ s rfl (firstFail_badAt_one _ _ (by simp [hzero])) (fun d hd => nomatch hd)

theorem fecPmRead_reports (rq : Req) (s : State) (hzero : pf rq 0 28 24 = 0)
    (hb : pf rq 0 23 0 + (if bit (par rq 0) 29 then 74 else 45) ≤ bulkWords) :
    Claims.Reports (.fecPmRead rq) (fecAt rq) 0x4004 rq (fecPmAnswer rq s) s :=
  reports_of_report _ _ _ _ _ _ s rfl (firstFail_badAt_one _ _ (by simp [hzero, bulkBad_eq_false _ _ hb]))
    (fun d hd => nomatch hd)

end Sys2Proof.Machine

open Sys2Proof Sys2Proof.Machine

/-- Settles O32: the checks of each command pass, so FEC_MODE_SET and FEC_POOL_POLICY change what they select, and the
reports wait for the boundary of their port or of the device with the words that the model gives each. -/
theorem fecCommandsComplete : Obligations.FecCommandsComplete := by
  intro rq s p
  refine ⟨fun hd hzero hmode hdir hst hslots => ?_, ?_, fun hzero hport => ?_, fun hzero hpool => ?_,
    fun hzero hport hb => ?_, fun hzero hpool hb => ?_⟩
  · exact congrArg Host.Outcome.next
      (fecModeSet_runs rq s hd hzero hmode hdir hst (fecSlotsBad_eq_false rq s hslots))
  · rintro _ _ hd rfl rfl hlo hle hhi hzero hzero' hsel
    exact ⟨modPool (policyPool rq) s, ceilingAbove rq s,
      congrArg Host.Outcome.next (fecPoolPolicy_runs rq s hd hlo hle hhi hzero hzero' hsel), modPool_only _ s,
      ceilingAbove_iff rq s, policyPool_reserve rq s.pool, policyPool_port rq s.pool⟩
  · obtain ⟨hceil, hlat, hin⟩ := fecPortWords_head s p
    have hrep := fecStatus_reports rq s hzero
    rw [fecAt_port hport, fecStatusAnswer, answerReply, hport] at hrep
    exact ⟨fecPortWords s p, rfl, hceil, hlat, hin, hrep⟩
  · have hrep := fecStatus_reports rq s hzero
    rw [fecAt_device hpool, fecStatusAnswer, answerReply, hpool] at hrep
    exact ⟨fecPoolWords s, rfl, rfl, rfl, hrep⟩
  · have hrep := fecPmRead_reports rq s hzero (by rw [hport]; exact hb)
    have hlen : (if bit (par rq 0) 29 then fecPoolCounters s.pool else fecPortCounters s.pool.ports[p]).length = 45 := by
      rw [hport]
      exact fecPortCounters_length _
    rw [fecAt_port hport, fecPmAnswer, answerBulk_eq _ _ _ _ s 45 hlen, hport] at hrep
    exact ⟨_, fecPortCounters_length _, rfl, hrep⟩
  · have hrep := fecPmRead_reports rq s hzero (by rw [hpool]; exact hb)
    have hlen : (if bit (par rq 0) 29 then fecPoolCounters s.pool else fecPortCounters s.pool.ports[p]).length = 74 := by
      rw [hpool]
      exact fecPoolCounters_length _
    rw [fecAt_device hpool, fecPmAnswer, answerBulk_eq _ _ _ _ s 74 hlen, hpool] at hrep
    exact ⟨_, fecPoolCounters_length _, fecPoolCounters_pool _, hrep⟩
end

section
/-! PROOF. O33: Balance's cycle and its alarms (R199, R200, R202), the engines' health and the scrubber (R204 to R206, R214 to
R216). -/

namespace Sys2Proof.Machine

/-! ### The ceilings of a cycle (R200) -/

/-- Ceilings after a step of Balance's loop: every pool port above its floor loses one. -/
def lowered (s : State) (v : Vector Nat 4) : Vector Nat 4 :=
  Vector.ofFn fun p => if s.pool.ports[p].inPool && decide (s.pool.ports[p].floor.toNat < v[p]) then v[p] - 1 else v[p]

theorem lowered_port (s : State) (v : Vector Nat 4) (p : LPort) :
    (lowered s v)[p] =
      if s.pool.ports[p].inPool && decide (s.pool.ports[p].floor.toNat < v[p]) then v[p] - 1 else v[p] :=
  Vector.getElem_ofFn p.isLt

theorem lowered_bounds (s : State) (v : Vector Nat 4) (p : LPort) :
    (lowered s v)[p] ≤ v[p] ∧ min s.pool.ports[p].floor.toNat v[p] ≤ (lowered s v)[p] := by
  rw [lowered_port]
  split
  · next h =>
    have hfloor := of_decide_eq_true (Bool.and_eq_true_iff.mp h).2
    omega
  · omega

theorem ceilLoop_succ (s : State) (cap n : Nat) (v : Vector Nat 4) :
    ceilLoop s cap (n + 1) v =
      if fits s (needSum s fun p => v[p]) cap then v
      else if allPorts.any fun p => s.pool.ports[p].inPool && decide (s.pool.ports[p].floor.toNat < v[p]) then
        ceilLoop s cap n (lowered s v)
      else v := rfl

/-- The loop lowers no ceiling below its floor. -/
theorem ceilLoop_bounds (s : State) (cap n : Nat) (v : Vector Nat 4) (p : LPort) :
    (ceilLoop s cap n v)[p] ≤ v[p] ∧ min s.pool.ports[p].floor.toNat v[p] ≤ (ceilLoop s cap n v)[p] := by
  induction n generalizing v with
  | zero => exact ⟨le_rfl, min_le_right _ _⟩
  | succ n ih =>
    rw [ceilLoop_succ]
    split_ifs
    · exact ⟨le_rfl, min_le_right _ _⟩
    · have hstep := lowered_bounds s v p
      have hrest := ih (lowered s v)
      omega
    · exact ⟨le_rfl, min_le_right _ _⟩

theorem ceilStart_port (s : State) (p : LPort) :
    (ceilStart s)[p] = min s.pool.ports[p].ceilMax.toNat s.pool.ports[p].cLat.toNat :=
  Vector.getElem_ofFn p.isLt

/-- The ceilings that a cycle gives the ports. -/
def balanceCeils (s : State) : Vector Nat 4 := ceilLoop s (capacity100 s fun _ => true) 24 (ceilStart s)

theorem balanceCeils_bounds (s : State) (p : LPort) :
    let limit := min s.pool.ports[p].ceilMax.toNat s.pool.ports[p].cLat.toNat
    (balanceCeils s)[p] ≤ limit ∧ min s.pool.ports[p].floor.toNat limit ≤ (balanceCeils s)[p] := by
  have h := ceilLoop_bounds s (capacity100 s fun _ => true) 24 (ceilStart s) p
  rwa [ceilStart_port] at h

/-- A ceiling of a cycle fits its register. -/
theorem balanceCeils_toNat (s : State) (p : LPort) :
    (BitVec.ofNat 5 (balanceCeils s)[p]).toNat = (balanceCeils s)[p] := by
  have hle := (balanceCeils_bounds s p).1
  have hlt := s.pool.ports[p].cLat.isLt
  exact (BitVec.toNat_ofNat _ 5).trans (Nat.mod_eq_of_lt (by omega))

/-! ### BALANCE_CYCLE (R199, R202) -/

/-- What a cycle makes of a port's share of the pool. -/
def PoolPort.balanced (short : Bool) (ceil : Nat) (y : PoolPort) : PoolPort :=
  if y.inPool then { y with
    ceil := BitVec.ofNat 5 ceil, shortRun := if short then y.shortRun + 1 else 0
    starved := if short then y.starved + 1 else y.starved }
  else y

/-- What a cycle that finds the pool `short` or not makes of it. -/
def balanced (s : State) (short : Bool) (need : Nat) (x : Pool) : Pool := { x with
  short := short, shortRun := if short then x.shortRun + 1 else 0, clearRun := if short then 0 else x.clearRun + 1
  capacity := capacity100 s (fun _ => true) / 100, need := need
  ports := Vector.ofFn fun p => x.ports[p].balanced short (balanceCeils s)[p] }

theorem balanced_port (s : State) (short : Bool) (need : Nat) (x : Pool) (p : LPort) :
    (balanced s short need x).ports[p] = x.ports[p].balanced short (balanceCeils s)[p] :=
  Vector.getElem_ofFn p.isLt

theorem balanceCycle_acts (s : State) (hon : isOn s .map = true) (hruns : s.map.stopped = false) :
    ∃ short need, balanceCycle s = modPool (balanced s short need) s := by
  rw [balanceCycle, hon, hruns]
  exact ⟨_, _, rfl⟩

/-! ### FEC_STARVED (R202) -/

theorem eachOf_only {α : Type} {xs : List Claims.Part} {l : List α} {f : α → State → State}
    (hf : ∀ x s, Claims.Only xs s (f x s)) (s : State) : Claims.Only xs s (eachOf l f s) := by
  induction l generalizing s with
  | nil => exact only_refl xs s
  | cons x l ih => exact only_trans (hf x s) (ih (f x s))

/-- An alarm raised for each port of a list stands on those ports and where it stood. -/
theorem eachOf_raises (b : Nat) (hb : b < 32) (l : List LPort) (p : LPort) (s : State)
    (h : p ∈ l ∨ alarmOn s (.line p) b = true) :
    alarmOn (eachOf l (fun q => setAlarm (.line q) b true) s) (.line p) b = true := by
  induction l generalizing s with
  | nil => exact h.resolve_left List.not_mem_nil
  | cons q l ih =>
    refine ih (setAlarm (.line q) b true s) ?_
    by_cases hq : p = q
    · subst hq
      exact .inr (alarmOn_setAlarm _ _ _ _ hb)
    · rw [alarmOn_setAlarm_other _ _ _ _ _ _ fun heq => hq (AlarmKey.line.inj heq)]
      exact h.imp_left fun hmem => (List.mem_cons.mp hmem).resolve_left hq

/-- The ports for which FEC_STARVED is raised: all of the pool, or while it stands those that have been short for 4 cycles. -/
def starvedPorts (s : State) : List LPort :=
  (poolPorts s).filter fun p =>
    !(allPorts.any fun q => alarmOn s (.line q) 9) || decide (4 ≤ s.pool.ports[p].shortRun)

theorem fecStarved_acts (s : State) (h : 4 ≤ s.pool.shortRun) :
    fecStarved s = eachOf (starvedPorts s) (fun p => setAlarm (.line p) 9 true) s := if_pos h

theorem mem_starvedPorts (s : State) (p : LPort) (hin : s.pool.ports[p].inPool = true)
    (h : 4 ≤ s.pool.ports[p].shortRun ∨ ∀ q : LPort, alarmOn s (.line q) 9 = false) : p ∈ starvedPorts s := by
  refine List.mem_filter.mpr ⟨List.mem_filter.mpr ⟨mem_allPorts p, hin⟩, ?_⟩
  rcases h with hshort | hnone
  · exact Bool.or_eq_true_iff.mpr (.inr (decide_eq_true hshort))
  · exact Bool.or_eq_true_iff.mpr (.inl (by simp [hnone]))

theorem fecStarvedClear_acts (s : State) (h : 16 ≤ s.pool.clearRun) :
    fecStarvedClear s = eachPort (fun p => setAlarm (.line p) 9 false) s := if_pos h

theorem eachPort_clears (b : Nat) (hb : b < 32) (p : LPort) (s : State) :
    alarmOn (eachPort (fun q => setAlarm (.line q) b false) s) (.line p) b = false :=
  eachPort_turn p (Q := fun _ => True) (P := fun t => alarmOn t (.line p) b = false) (fun _ _ _ _ => trivial)
    (fun t _ => alarmOn_setAlarm _ _ _ t hb)
    (fun _ hq t ht => (alarmOn_setAlarm_other _ _ _ _ _ t fun heq => hq (AlarmKey.line.inj heq).symm).trans ht) trivial

theorem balanceEventsComplete : Claims.BalanceEventsComplete := by
  intro s
  refine ⟨fun hon hruns => ?_, fun hshort => ?_, fun hclear => ?_⟩
  · obtain ⟨short, need, hcycle⟩ := balanceCycle_acts s hon hruns
    refine ⟨modPool (balanced s short need) s, congrArg Host.Outcome.next hcycle, modPool_only _ s, rfl, rfl, rfl, rfl,
      fun p => ⟨fun hin => ?_, fun hout => ?_⟩⟩
    · obtain ⟨hle, hge⟩ := balanceCeils_bounds s p
      rw [modPool_pool, balanced_port, PoolPort.balanced, if_pos hin]
      exact ⟨(balanceCeils_toNat s p).le.trans hle, hge.trans (balanceCeils_toNat s p).ge, rfl⟩
    · rw [modPool_pool, balanced_port, PoolPort.balanced, hout, if_neg Bool.false_ne_true]
  · exact ⟨_, congrArg Host.Outcome.next (fecStarved_acts s hshort),
      eachOf_only (fun p => setAlarm_only_alarms (.line p) 9 true) s,
      fun p hin hp => eachOf_raises 9 (by decide) _ p s (.inl (mem_starvedPorts s p hin hp))⟩
  · exact ⟨_, congrArg Host.Outcome.next (fecStarvedClear_acts s hclear),
      eachPort_only (fun p => setAlarm_only_alarms (.line p) 9 false) s, fun p => eachPort_clears 9 (by decide) p s⟩

/-! ### The engines' health (R204 to R206) -/

theorem engineThrottle_acts (e : Engine) (s : State) (hon : isOn s (.fq (quadOf e)) = true)
    (hspeed : 1 < s.pool.engines[e].speed) :
    engineThrottle e s =
      modPool (fun x => { x with throttle := x.throttle + 1 }) (modEng e (fun x => { x with speed := x.speed - 1 }) s) := by
  rw [engineThrottle, hon, decide_eq_true hspeed]
  rfl

theorem engineSpeedRestore_acts (e : Engine) (s : State) (hon : isOn s (.fq (quadOf e)) = true)
    (hspeed : s.pool.engines[e].speed < 4) :
    engineSpeedRestore e s = modEng e (fun x => { x with speed := x.speed + 1 }) s := by
  rw [engineSpeedRestore, hon, decide_eq_true hspeed]
  rfl

theorem katRun_passed (e : Engine) (s : State) : katRun e true s = s := by
  rw [katRun, Bool.not_true, Bool.and_false, if_neg Bool.false_ne_true]

theorem katRun_failed (e : Engine) (s : State) (h : engineUp s e = true) : katRun e false s = katFailed e s := by
  rw [katRun, h]
  rfl

theorem knownAnswerTestDone_acts (e : Engine) (passed : Bool) (s : State) (hon : isOn s (.fq (quadOf e)) = true)
    (htest : s.pool.engines[e].testing = true) :
    knownAnswerTestDone e passed s =
      if passed then modEng e (fun x => { x with testing := false }) s
      else katFailed e (modEng e (fun x => { x with testing := false }) s) := by
  rw [knownAnswerTestDone, htest, hon]
  rfl

theorem katFailed_fenced (e : Engine) (s : State) : (katFailed e s).pool.engines[e].fenced = true := fence_fenced e _

theorem katFailed_testing (e : Engine) (s : State) :
    (katFailed e s).pool.engines[e].testing = s.pool.engines[e].testing := fence_testing e _

theorem katFailed_katFail (e : Engine) (s : State) : (katFailed e s).pool.katFail = s.pool.katFail + 1 :=
  (fence_counts e _).1

/-! ### The scrubber (R214 to R216) -/

theorem scrubPass_inReset (found : List (BadMem × Nat)) (banks : List (Fin 32 × Nat)) (s : State)
    (h : s.sys.inReset = true) : scrubPass found banks s = s := if_pos h

theorem scrubPass_clean (s : State) (h : s.sys.inReset = false) :
    scrubPass [] [] s = modPool (fun x => { x with scrubs := x.scrubs + 1 }) s := by
  rw [scrubPass, h]
  rfl

/-- A pass over one row of a memory whose domain is ON reads both its words. -/
theorem scrubPass_row (m : BadMem) (n : Nat) (s : State) (h : s.sys.inReset = false) (hon : isOn s (memDomain m) = true) :
    scrubPass [(m, n)] [] s =
      readWord m (n / 2) (readWord m ((n + 1) / 2) (modPool (fun x => { x with scrubs := x.scrubs + 1 }) s)) := by
  have hread : scrubbed (modPool (fun x => { x with scrubs := x.scrubs + 1 }) s) (memDomain m) = true :=
    Bool.or_eq_true_iff.mpr (.inl hon)
  have hrow : scrubPass [(m, n)] [] s = scrubRow (m, n) (modPool (fun x => { x with scrubs := x.scrubs + 1 }) s) := by
    rw [scrubPass, h]
    rfl
  rw [hrow, scrubRow, if_pos hread]
  rfl

/-- Both words of an engine's row are corrected. -/
theorem scrubPass_corrected (e : Engine) (n : Nat) (s : State) (h : s.sys.inReset = false)
    (hon : isOn s (.fq (quadOf e)) = true) (hlo : 2 ≤ n) (hhi : n ≤ 32) :
    scrubPass [(.engine e, n)] [] s =
      countCorrected (countCorrected (modPool (fun x => { x with scrubs := x.scrubs + 1 }) s)) := by
  rw [scrubPass_row (.engine e) n s h hon, readWord, readWord, poolWord_corrected _ _ (by omega) (by omega),
    poolWord_corrected _ _ (by omega) (by omega)]

/-- Neither word of an engine's row can be corrected. -/
theorem scrubPass_fences (e : Engine) (n : Nat) (s : State) (h : s.sys.inReset = false)
    (hon : isOn s (.fq (quadOf e)) = true) (hlo : 34 ≤ n) (hhi : n ≤ 48) :
    scrubPass [(.engine e, n)] [] s =
      engineWordLost e (engineWordLost e (modPool (fun x => { x with scrubs := x.scrubs + 1 }) s)) := by
  rw [scrubPass_row (.engine e) n s h hon, readWord, readWord, poolWord_detected _ _ (by omega) (by omega),
    poolWord_detected _ _ (by omega) (by omega)]

/-- Neither word of a row of the codeword buffer can be corrected. -/
theorem scrubPass_erases (p : LPort) (id : Nat) (l : List Nat) (n : Nat) (s : State) (h : s.sys.inReset = false)
    (hon : isOn s .map = true) (hlo : 34 ≤ n) (hhi : n ≤ 48) :
    scrubPass [(.softLlr p id l, n)] [] s = softWordLost p id l
      (softWordLost p id l (modPool (fun x => { x with scrubs := x.scrubs + 1 }) s)) := by
  rw [scrubPass_row (.softLlr p id l) n s h hon, readWord, readWord, softWord_detected _ _ _ _ (by omega) (by omega),
    softWord_detected _ _ _ _ (by omega) (by omega)]

theorem engineEventsComplete : Claims.EngineEventsComplete := by
  intro e s
  refine ⟨fun hon hspeed => ?_, fun hon hspeed => ?_, fun hrun hfenced => ?_, fun hup => ⟨?_, ?_⟩, fun hon htest => ⟨?_, ?_⟩,
    fun hreset l b => ?_, fun hreset => ?_, fun n hreset hon hlo hhi => ?_, fun n hreset hon hlo hhi => ?_,
    fun p id l n hreset hon hlo hhi => ?_⟩
  · exact ⟨_, congrArg Host.Outcome.next (engineThrottle_acts e s hon hspeed),
      vmod_same s.pool.engines e fun x => { x with speed := x.speed - 1 }, rfl,
      only_trans (modEng_only e _ s) (modPool_only _ _)⟩
  · exact congrArg Host.Outcome.next (engineSpeedRestore_acts e s hon hspeed)
  · have hengine := fence_engine e (modPool (fun x => { x with watchdog := x.watchdog + 1 }) s) hfenced
    refine ⟨_, congrArg Host.Outcome.next (if_pos hrun), fence_fenced e _, ?_, ?_, (fence_counts e _).2.1,
      fence_fenceEvt e _ hfenced, fence_alarmOn e _ hfenced⟩
    · rw [hengine]; rfl
    · rw [hengine]; rfl
  · exact ⟨_, congrArg Host.Outcome.next (katRun_failed e s hup), katFailed_fenced e s, katFailed_katFail e s⟩
  · exact congrArg Host.Outcome.next (katRun_passed e s)
  · exact congrArg Host.Outcome.next (knownAnswerTestDone_acts e true s hon htest)
  · refine ⟨_, congrArg Host.Outcome.next (knownAnswerTestDone_acts e false s hon htest), katFailed_fenced e _, ?_,
      katFailed_katFail e _⟩
    exact (katFailed_testing e _).trans (by rw [modEng_pool, vmod_same])
  · exact congrArg Host.Outcome.next (scrubPass_inReset l b s hreset)
  · exact congrArg Host.Outcome.next (scrubPass_clean s hreset)
  · exact ⟨_, congrArg Host.Outcome.next (scrubPass_corrected e n s hreset hon hlo hhi), BitVec.add_assoc _ 1 1, rfl, rfl,
      only_trans (only_mono (modPool_only _ s) (by simp)) (only_trans (countCorrected_only _) (countCorrected_only _))⟩
  · refine ⟨_, congrArg Host.Outcome.next (scrubPass_fences e n s hreset hon hlo hhi), engineWordLost_fenced e _, ?_, ?_, ?_⟩
    · rw [engineWordLost_eccDetect, engineWordLost_eccDetect]
      exact BitVec.add_assoc _ 1 1
    · rw [engineWordLost_engEcc, engineWordLost_engEcc]
      exact BitVec.add_assoc _ 1 1
    · rw [engineWordLost_scrubs, engineWordLost_scrubs]
      rfl
  · exact ⟨_, congrArg Host.Outcome.next (scrubPass_erases p id l n s hreset hon hlo hhi), BitVec.add_assoc _ 1 1,
      only_trans (only_mono (modPool_only _ s) (by simp)) (only_trans (softWordLost_only p id l _) (softWordLost_only p id l _)),
      fun o ho hid i hi => softWordLost_llr p id l _ o ho hid i hi⟩

end Sys2Proof.Machine

open Sys2Proof Sys2Proof.Machine

/-- Settles O33: Balance's loop keeps each ceiling between its floor and its limit, an engine that fails is fenced and counts,
and a scrub pass reads the two words of a row, which are both corrected or both lost. -/
theorem poolEventsComplete : Obligations.PoolEventsComplete := ⟨balanceEventsComplete, engineEventsComplete⟩
end

section
/-! PROOF. O34: dispatch, completion and the decode deadline (R191 to R193, R195, R197, R203, R205, R215). -/

namespace Sys2Proof.Machine

/-! ### CODEWORD_DISPATCH (R203, R205) -/

/-- The job of a ready codeword: at its port's ceiling of the last cycle, never above C_LAT (R195). -/
def dispatchJob (s : State) (r : Ready) : Job :=
  { port := r.port, sf := r.sf, cw := r.cw
    ceil := min s.pool.ports[r.port].ceil.toNat s.pool.ports[r.port].cLat.toNat }

/-- An engine takes a job: it starts it, or stages it behind the one that it runs. -/
def EngineSt.take (job : Job) (x : EngineSt) : EngineSt :=
  if x.running.isNone then { x with running := some job } else { x with staged := some job }

/-- A repeated dispatch counts. -/
def countAgain (r : Ready) (s : State) : State :=
  if r.again then modPool (fun x => { x with redispatch := x.redispatch + 1 }) s else s

theorem countAgain_only (r : Ready) (s : State) : Claims.Only [.pool] s (countAgain r s) :=
  only_ite (modPool_only _ s) (only_refl _ s)

theorem countAgain_engines (r : Ready) (s : State) : (countAgain r s).pool.engines = s.pool.engines := by
  rw [countAgain]
  split <;> rfl

theorem countAgain_redispatch (r : Ready) (s : State) :
    (countAgain r s).pool.redispatch = if r.again then s.pool.redispatch + 1 else s.pool.redispatch := by
  rw [countAgain]
  split <;> rfl

/-- A codeword that is handed out is out, and no longer to be dispatched again. -/
def OpenSf.handOut (cw : Nat) (o : OpenSf) : OpenSf := { o with out := cw :: o.out, again := o.again.erase cw }

theorem codewordDispatch_acts (s : State) (r : Ready) (e : Engine) (hon : isOn s .map = true)
    (hruns : s.map.stopped = false) (hr : firstReady (readyList s) = some r) (he : pickEngine s = some e) :
    codewordDispatch s =
      modEng e (EngineSt.take (dispatchJob s r)) (modOpen r.port r.sf (OpenSf.handOut r.cw) (countAgain r s)) := by
  rw [codewordDispatch, hon, hruns, hr, he]
  rfl

theorem dispatched_engines (e : Engine) (job : Job) (r : Ready) (s : State) :
    (modEng e (EngineSt.take job) (modOpen r.port r.sf (OpenSf.handOut r.cw) (countAgain r s))).pool.engines =
      vmod s.pool.engines e (EngineSt.take job) := by
  rw [modEng_pool, (modOpen_shareOnly r.port r.sf _ _).engines, countAgain_engines]

/-! ### ENGINE_COMPLETE (R192, R193, R215) -/

/-- An engine whose codeword has completed starts the staged one. -/
def EngineSt.advance (x : EngineSt) : EngineSt := { x with running := x.staged, staged := none, cw := x.cw + 1 }

/-- A codeword that has completed is out no more, and its result waits until it closes. -/
def OpenSf.completes (j : Job) (o : DecodeObs) (x : OpenSf) : OpenSf :=
  writeSoft j.cw o { x with
    complete := j.cw :: x.complete, out := x.out.erase j.cw, results := (j.cw, j.ceil, o) :: x.results }

/-- The codewords that may close once codeword `j` has completed: itself and those that waited for it (R193). -/
def closeWaiting (j : Job) (s : State) : State :=
  let s := closeCw j.port j.sf j.cw s
  let s := if 64 ≤ j.cw then closeCw j.port j.sf (j.cw - 64) s else s
  if 128 ≤ j.cw then closeCw j.port j.sf (j.cw - 128) s else s

/-- A superframe leaves the buffer when all its codewords have closed. -/
def finishIfClosed (j : Job) (s : State) : State :=
  match s.pool.ports[j.port].openSfs.find? (·.id == j.sf) with
  | some x => if x.closed.length == x.count then finishSf j.port j.sf s else s
  | none => s

theorem closeWaiting_shareOnly (j : Job) (s : State) : ShareOnly s (closeWaiting j s) := by
  have hwait : ∀ (k : Nat) (t : State), ShareOnly t (if k ≤ j.cw then closeCw j.port j.sf (j.cw - k) t else t) :=
    fun k t => .ite (closeCw_shareOnly _ _ _ t) (.refl t)
  exact (closeCw_shareOnly j.port j.sf j.cw s).trans ((hwait 64 _).trans (hwait 128 _))

theorem finishIfClosed_shareOnly (j : Job) (s : State) : ShareOnly s (finishIfClosed j s) := by
  rw [finishIfClosed]
  split
  · exact .ite (finishSf_shareOnly _ _ s) (.refl s)
  · exact .refl s

/-- What the completion of job `j` on engine `e` does once the engine has read its words. -/
def completeJob (e : Engine) (j : Job) (o : DecodeObs) (s : State) : State :=
  finishIfClosed j (closeWaiting j (modOpen j.port j.sf (OpenSf.completes j o) (modEng e EngineSt.advance s)))

theorem engineComplete_acts (e : Engine) (j : Job) (o : DecodeObs) (s : State) (hrun : s.pool.engines[e].running = some j) :
    engineComplete e o s =
      if (eachOf o.bursts (engineReads e j) s).pool.engines[e].fenced then eachOf o.bursts (engineReads e j) s
      else completeJob e j o (eachOf o.bursts (engineReads e j) s) := by
  rw [engineComplete, hrun]
  rfl

theorem completeJob_shareOnly (e : Engine) (j : Job) (o : DecodeObs) (s : State) :
    ShareOnly (modEng e EngineSt.advance s) (completeJob e j o s) :=
  ((modOpen_shareOnly j.port j.sf _ _).trans (closeWaiting_shareOnly j _)).trans (finishIfClosed_shareOnly j _)

theorem completeJob_only (e : Engine) (j : Job) (o : DecodeObs) (s : State) :
    Claims.Only [.pool] s (completeJob e j o s) :=
  only_trans (modEng_only e _ s) (completeJob_shareOnly e j o s).only

theorem completeJob_engine (e : Engine) (j : Job) (o : DecodeObs) (s : State) :
    (completeJob e j o s).pool.engines[e] = s.pool.engines[e].advance := by
  rw [(completeJob_shareOnly e j o s).engines, modEng_pool, vmod_same]

theorem completeJob_eccCorr (e : Engine) (j : Job) (o : DecodeObs) (s : State) :
    (completeJob e j o s).pool.eccCorr = s.pool.eccCorr :=
  (completeJob_shareOnly e j o s).eccCorr

theorem engineReads_corrected (e : Engine) (j : Job) (b : Option (List Nat)) (s : State) {n : Nat} (h : 1 ≤ n) (h' : n ≤ 16) :
    engineReads e j (b, n) s = countCorrected s := by
  cases b with
  | none => exact poolWord_corrected (some e) s h h'
  | some l => exact softWord_corrected _ _ l s h h'

/-- An engine that reads no word with a burst, or none that is lost, completes its job. -/
theorem engineComplete_completes (e : Engine) (j : Job) (o : DecodeObs) {s t : State}
    (hrun : s.pool.engines[e].running = some j) (hreads : eachOf o.bursts (engineReads e j) s = t)
    (hfenced : t.pool.engines[e].fenced = false) : engineComplete e o s = completeJob e j o t := by
  rw [engineComplete_acts e j o s hrun, hreads, hfenced, if_neg Bool.false_ne_true]

/-- An engine that loses a word of its own memory does not complete. -/
theorem engineComplete_lost (e : Engine) (j : Job) (o : DecodeObs) (n : Nat) (s : State)
    (hrun : s.pool.engines[e].running = some j) (hb : o.bursts = [(none, n)]) (hlo : 16 < n) (hhi : n ≤ 24) :
    engineComplete e o s = engineWordLost e s := by
  have hreads : eachOf o.bursts (engineReads e j) s = engineWordLost e s := by
    rw [hb]
    exact poolWord_detected e s hlo hhi
  rw [engineComplete_acts e j o s hrun, hreads, if_pos (engineWordLost_fenced e s)]

/-! ### DECODE_DEADLINE (R197) -/

/-- A port that closes a superframe: one open superframe at least has the number `id`, all with it have the format `fmt`, and
the port has counted `miss` codewords. -/
structure Closing (id : Nat) (fmt miss : Word) (x : PoolPort) : Prop where
  opens : ∃ o ∈ x.openSfs, o.id = id
  fmts : ∀ o ∈ x.openSfs, o.id = id → o.fmt = fmt
  misses : x.deadlineMiss = miss

/-- A change of the closing superframe, which keeps its number and format. -/
theorem Closing.modOpen {p : LPort} {id : Nat} {fmt miss : Word} {s : State} (h : Closing id fmt miss s.pool.ports[p])
    {f : OpenSf → OpenSf} (hid : ∀ o, (f o).id = o.id) (hfmt : ∀ o, (f o).fmt = o.fmt) :
    Closing id fmt miss (modOpen p id f s).pool.ports[p] := by
  have hkeeps : ∀ o : OpenSf, (if o.id == id then f o else o).id = o.id ∧ (if o.id == id then f o else o).fmt = o.fmt := by
    intro o
    split
    · exact ⟨hid o, hfmt o⟩
    · exact ⟨rfl, rfl⟩
  rw [Machine.modOpen, modPp_port]
  refine ⟨?_, ?_, h.misses⟩
  · obtain ⟨o, ho, hoid⟩ := h.opens
    exact ⟨_, List.mem_map_of_mem ho, (hkeeps o).1.trans hoid⟩
  · intro o' ho' hid'
    obtain ⟨o, ho, rfl⟩ := List.mem_map.mp ho'
    exact (hkeeps o).2.trans (h.fmts o ho ((hkeeps o).1.symm.trans hid'))

/-- A codeword of a superframe closes with the decisions `hard`. -/
def OpenSf.settle (r : Nat × Nat × DecodeObs) (hard : List Bool) (y : OpenSf) : OpenSf := { y with
  closed := r.1 :: y.closed, results := y.results.filter (·.1 != r.1), soft := y.soft.filter (·.1 != r.1)
  hard := (r.1, hard) :: y.hard, iters := qEntry r.2.2 r.2.1 :: y.iters }

theorem Closing.settleCw {p : LPort} {id : Nat} {fmt miss : Word} {s : State} (h : Closing id fmt miss s.pool.ports[p])
    (r : Nat × Nat × DecodeObs) : Closing id fmt miss (settleCw p id r s).pool.ports[p] := by
  cases hfind : s.pool.ports[p].openSfs.find? (·.id == id) with
  | none => rwa [Machine.settleCw, hfind]
  | some o =>
    have hset := h.modOpen (f := OpenSf.settle r (decide0 (softOf o r.1))) (fun _ => rfl) (fun _ => rfl)
    rw [Machine.settleCw, hfind, modPp_port]
    exact ⟨hset.opens, hset.fmts, hset.misses⟩

theorem Closing.settleAll {p : LPort} {id : Nat} {fmt miss : Word} (l : List (Nat × Nat × DecodeObs)) {s : State}
    (h : Closing id fmt miss s.pool.ports[p]) :
    Closing id fmt miss (eachOf l (Machine.settleCw p id) s).pool.ports[p] := by
  induction l generalizing s with
  | nil => exact h
  | cons r l ih => exact ih (h.settleCw r)

/-- A port from which superframe `id` of format `fmt` has gone, with `miss` codewords counted. -/
structure Closed (id : Nat) (fmt miss : Word) (x : PoolPort) : Prop where
  gone : ∀ o ∈ x.openSfs, o.id ≠ id
  misses : x.deadlineMiss = miss
  last : x.lastClosedFmt = fmt

theorem Closing.finishSf {p : LPort} {id : Nat} {fmt miss : Word} {s : State} (h : Closing id fmt miss s.pool.ports[p]) :
    Closed id fmt miss (finishSf p id s).pool.ports[p] := by
  obtain ⟨o, ho, hid⟩ := h.opens
  cases hfind : s.pool.ports[p].openSfs.find? (·.id == id) with
  | none => exact absurd (beq_iff_eq.mpr hid) (List.find?_eq_none.mp hfind o ho)
  | some o' =>
    have hid' : o'.id = id := by simpa using List.find?_some hfind
    rw [Machine.finishSf, hfind, modPp_port]
    exact ⟨fun x hx => by simpa using (List.mem_filter.mp hx).2, h.misses, h.fmts o' (List.mem_of_find?_eq_some hfind) hid'⟩

/-- The codewords of a superframe that have not completed. -/
def OpenSf.lost (o : OpenSf) : List Nat := (List.range o.count).filter fun j => !o.complete.contains j

/-- A superframe that is closed at its deadline leaves the buffer, and its incomplete codewords count. -/
theorem closeSf_closes (p : LPort) (o : OpenSf) (n : Nat) (s : State)
    (hfind : s.pool.ports[p].openSfs.find? (·.id == o.id) = some o)
    (hfmt : ∀ x ∈ s.pool.ports[p].openSfs, x.id = o.id → x.fmt = o.fmt) :
    Closed o.id o.fmt (s.pool.ports[p].deadlineMiss + wd o.lost.length) (closeSf p o.id n s).pool.ports[p] := by
  have hcounted : Closing o.id o.fmt (s.pool.ports[p].deadlineMiss + wd o.lost.length)
      (modPp p (countLost s o o.lost (min n o.lost.length))
        (withdraw (fun j => j.port == p && j.sf == o.id) s)).pool.ports[p] := by
    rw [modPp_port]
    exact ⟨⟨o, List.mem_of_find?_eq_some hfind, rfl⟩, hfmt, rfl⟩
  rw [closeSf, hfind]
  exact Closing.finishSf (Closing.settleAll o.results (Closing.modOpen hcounted (fun _ => rfl) (fun _ => rfl)))

theorem decodeDeadline_acts (p : LPort) (n : Nat) (s : State) {o : OpenSf}
    (h : s.pool.ports[p].openSfs.find? (·.ready) = some o) : decodeDeadline p n s = closeSf p o.id n s := by
  rw [decodeDeadline, h]

/-- Where the number names one superframe, it finds it. -/
theorem find?_id {l : List OpenSf} {o : OpenSf} (ho : o ∈ l) (h : ∀ a ∈ l, ∀ b ∈ l, a.id = b.id → a = b) :
    l.find? (·.id == o.id) = some o := by
  cases hfind : l.find? (·.id == o.id) with
  | none => exact absurd (beq_self_eq_true o.id) (List.find?_eq_none.mp hfind o ho)
  | some o' =>
    have hid : o'.id = o.id := by simpa using List.find?_some hfind
    rw [h o' (List.mem_of_find?_eq_some hfind) o ho hid]

end Sys2Proof.Machine

open Sys2Proof Sys2Proof.Machine

/-- Settles O34: a dispatch changes the chosen engine alone, what follows a completion changes the ports' share of the pool
alone, and the superframe that closes keeps its number and format until it leaves the buffer. -/
theorem decodeEventsComplete : Obligations.DecodeEventsComplete := by
  intro s
  refine ⟨fun r e hon hruns hr he => ?_, fun e j o hrun hfenced hb => ?_, fun e j o b n hrun hfenced hb hlo hhi => ?_,
    fun e j o n hrun hfenced hb hlo hhi => ?_, fun p n o hready huniq => ?_⟩
  · have hengines := dispatched_engines e (dispatchJob s r) r s
    refine ⟨_, dispatchJob s r, congrArg Host.Outcome.next (codewordDispatch_acts s r e hon hruns hr he),
      only_trans (countAgain_only r s) (only_trans (modOpen_shareOnly _ _ _ _).only (modEng_only e _ _)), rfl, rfl, rfl, rfl,
      countAgain_redispatch r s, fun hidle => ?_, fun hbusy => ?_, fun e' he' => ?_⟩ <;> rw [hengines]
    · rw [vmod_same, EngineSt.take, hidle]
      rfl
    · rw [vmod_same, EngineSt.take, if_neg (by simpa using hbusy)]
    · rw [vmod_other _ _ _ _ he']
  · have hreads : eachOf o.bursts (engineReads e j) s = s := by rw [hb]; rfl
    exact ⟨_, congrArg Host.Outcome.next (engineComplete_completes e j o hrun hreads hfenced), completeJob_only e j o s,
      completeJob_engine e j o s⟩
  · have hreads : eachOf o.bursts (engineReads e j) s = countCorrected s := by
      rw [hb]
      exact engineReads_corrected e j b s hlo hhi
    exact ⟨_, congrArg Host.Outcome.next (engineComplete_completes e j o hrun hreads hfenced),
      only_trans (countCorrected_only s) (only_mono (completeJob_only e j o _) (by simp)), completeJob_eccCorr e j o _,
      completeJob_engine e j o _⟩
  · have hengine : (engineWordLost e s).pool.engines[e] = s.pool.engines[e].fence := fence_engine e _ hfenced
    exact ⟨_, congrArg Host.Outcome.next (engineComplete_lost e j o n s hrun hb hlo hhi), engineWordLost_fenced e s,
      congrArg EngineSt.running hengine, engineWordLost_engEcc e s, engineWordLost_eccDetect e s, fence_fenceEvt e _ hfenced⟩
  · have ho : o ∈ s.pool.ports[p].openSfs := List.mem_of_find?_eq_some hready
    have hclosed := closeSf_closes p o n s (find?_id ho huniq)
      fun x hx hid => congrArg OpenSf.fmt (huniq x hx o ho hid)
    exact ⟨_, congrArg Host.Outcome.next (decodeDeadline_acts p n s hready), only_of_kept (closeSf_keeps ..), hclosed.gone,
      hclosed.misses, hclosed.last⟩
end

section
/-! PROOF. The training of a port under the operations that change it: a change of one part, the entry of ACQUIRE and of
MUTED (R217, R224), and a failure (R221). -/

namespace Sys2Proof.Machine

/-! ### Changes of one part -/

theorem modTr_tr (p : LPort) (f : Train → Train) (s : State) : (modTr p f s).ports[p].tr = f s.ports[p].tr := by
  rw [modTr_ports, vmod_same]

theorem modTr2_tr2 (p : LPort) (f : Train2 → Train2) (s : State) : (modTr2 p f s).ports[p].tr2 = f s.ports[p].tr2 := by
  rw [modTr2_ports, vmod_same]

/-- A change of a port that keeps this part of it keeps that of every port. -/
theorem modPort_tr2 (p q : LPort) (f : PortSt → PortSt) (s : State) (h : ∀ x, (f x).tr2 = x.tr2) :
    (modPort p f s).ports[q].tr2 = s.ports[q].tr2 := by
  by_cases hq : q = p
  · subst hq
    simp only [modPort_ports, vmod_same, h]
  · simp only [modPort_ports, vmod_other _ _ _ _ hq]

theorem modTr_tr2 (p : LPort) (f : Train → Train) (q : LPort) (s : State) :
    (modTr p f s).ports[q].tr2 = s.ports[q].tr2 :=
  modPort_tr2 p q _ s fun _ => rfl

theorem modNlc_tr2 (p : LPort) (f : Nlc → Nlc) (q : LPort) (s : State) :
    (modNlc p f s).ports[q].tr2 = s.ports[q].tr2 :=
  modPort_tr2 p q _ s fun _ => rfl

theorem modFront_tr2 (p : LPort) (f : Front → Front) (q : LPort) (s : State) :
    (modFront p f s).ports[q].tr2 = s.ports[q].tr2 :=
  modPort_tr2 p q _ s fun _ => rfl

theorem modTr_modTr (p : LPort) (f g : Train → Train) (s : State) :
    modTr p f (modTr p g s) = modTr p (f ∘ g) s := by
  simp only [modTr, modPort, vmod_vmod]
  rfl

theorem sendMsg_tr (p : LPort) (type : BitVec 4) (body : List Word) (s : State) :
    (sendMsg p type body s).ports[p].tr =
      { s.ports[p].tr with queue := s.ports[p].tr.queue ++ [{ type := type, body := body }] } :=
  modTr_tr ..

theorem sendMsg_tr2 (p : LPort) (type : BitVec 4) (body : List Word) (q : LPort) (s : State) :
    (sendMsg p type body s).ports[q].tr2 = s.ports[q].tr2 :=
  modTr_tr2 ..

theorem refresh_tr (q : LPort) (s : State) : (refresh s).ports[q].tr = s.ports[q].tr := by
  simp only [refresh, eachPort, refreshPort, modFront_tr]

theorem refresh_tr2 (q : LPort) (s : State) : (refresh s).ports[q].tr2 = s.ports[q].tr2 := by
  simp only [refresh, eachPort, refreshPort, modFront_tr2]

theorem refresh_tx (q : LPort) (s : State) : (refresh s).ports[q].tx = s.ports[q].tx := by
  simp only [refresh, eachPort, refreshPort, modFront_tx]

theorem maybeAcquire_tr (p q : LPort) (s : State) : (maybeAcquire p s).ports[q].tr = s.ports[q].tr := by
  rw [maybeAcquire_port]

theorem setPort_tr (p : LPort) (st : PortState) (s : State) :
    (setPort p st s).ports[p].tr = { s.ports[p].tr with state := st } := by
  simp only [setPort]
  split_ifs <;> simp only [failClients_keeps, modMap_ports, modTr_tr]

theorem setPort_tr2 (p : LPort) (st : PortState) (q : LPort) (s : State) :
    (setPort p st s).ports[q].tr2 = s.ports[q].tr2 := by
  simp only [setPort]
  split_ifs <;> simp only [failClients_keeps, modMap_ports, modTr_tr2]

/-! ### Pending switches and plans are cancelled (R221, R234) -/

/-- Training without the switches and plans that were pending. -/
def Train.withdrawn (t : Train) : Train :=
  { t with
    txCommit := none, rxCommit := none, retryCommit := none, waitChoice := none, announce := none, tuneTx := none
    tuneRx := none, retune := false, retuneDue := false }

theorem rateTaken_tr (p : LPort) (k : Nat) (q : LPort) (s : State) :
    (rateTaken p k s).ports[q].tr = s.ports[q].tr := by
  unfold rateTaken
  split <;> simp only [modTr2_tr]

theorem dropRates_tr (p q : LPort) (s : State) : (dropRates p s).ports[q].tr = s.ports[q].tr := by
  simp only [dropRates]
  split_ifs <;> simp only [rateTaken_tr, dropEvs_keeps]

theorem cancelTrain_tr (p : LPort) (s : State) : (cancelTrain p s).ports[p].tr = s.ports[p].tr.withdrawn := by
  have hnone : ∀ {α : Type} (o : Option α), o.filter (fun _ => false) = none := fun o => by cases o <;> rfl
  simp only [cancelTrain, modTr2_tr, dropRates_tr, cancelSwitches, modTr_tr, dropEvs_keeps, Bool.false_and, hnone]
  rfl

/-! ### TRAIN_FAIL counts failures alone (R257) -/

theorem modTr2_trainFail (p q : LPort) (f : Train2 → Train2) (s : State) (h : ∀ x, (f x).trainFail = x.trainFail) :
    (modTr2 p f s).ports[q].tr2.trainFail = s.ports[q].tr2.trainFail := by
  by_cases hq : q = p
  · subst hq
    rw [modTr2_tr2, h]
  · rw [modTr2_ports, vmod_other _ _ _ _ hq]

theorem rateTaken_trainFail (p : LPort) (k : Nat) (q : LPort) (s : State) :
    (rateTaken p k s).ports[q].tr2.trainFail = s.ports[q].tr2.trainFail := by
  unfold rateTaken
  split
  · exact modTr2_trainFail _ _ _ _ fun _ => rfl
  · rfl

theorem cancelTrain_trainFail (p q : LPort) (s : State) :
    (cancelTrain p s).ports[q].tr2.trainFail = s.ports[q].tr2.trainFail := by
  have hswitches : (cancelSwitches false p s).ports[q].tr2 = s.ports[q].tr2 := by
    simp only [cancelSwitches, modTr_tr2, dropEvs_keeps]
  have hrates : (dropRates p (cancelSwitches false p s)).ports[q].tr2.trainFail = s.ports[q].tr2.trainFail := by
    simp only [dropRates]
    split_ifs <;> simp only [rateTaken_trainFail, dropEvs_keeps, hswitches]
  rw [cancelTrain]
  exact (modTr2_trainFail p q (fun x => { x with
    alternate := none, altCancelled := false, switchAt := none, cancelAt := none }) _ fun _ => rfl).trans hrates

/-! ### ACQUIRE and MUTED (R217, R224) -/

/-- Training in the acquisition format on both directions (R165, R230). -/
def Train.inAcqFormat (t : Train) : Train :=
  { t with txNow := acqDesc t.rate.toNat (dGen t.txFmt), rxNow := acqDesc t.rate.toNat (dGen t.rxFmt) }

/-- Training as the port enters ACQUIRE. -/
def Train.acquiring (t : Train) : Train :=
  Train.inAcqFormat { ({ t.withdrawn with state := .acquire } : Train).newExchange with phase := .acquire }

/-- Training as the port enters MUTED. -/
def Train.muting (t : Train) : Train :=
  Train.inAcqFormat { ({ t.withdrawn with state := .muted } : Train).newExchange with
    phase := .none, retryHold := false, waitCal := false }

theorem acqDescs_tr (p : LPort) (s : State) : (acqDescs p s).ports[p].tr = s.ports[p].tr.inAcqFormat := modTr_tr ..

theorem acqFormats_tr (p : LPort) (s : State) : (acqFormats p s).ports[p].tr = s.ports[p].tr.inAcqFormat := by
  rw [acqFormats, modNlc_tr, acqDescs_tr]

theorem acqFormats_tr2 (p q : LPort) (s : State) : (acqFormats p s).ports[q].tr2 = s.ports[q].tr2 := by
  simp only [acqFormats, modNlc_tr2, acqDescs, modTr_tr2]

theorem enterAcquire_tr (p : LPort) (s : State) : (enterAcquire p s).ports[p].tr = s.ports[p].tr.acquiring := by
  simp only [enterAcquire, maybeAcquire_tr, refresh_tr, poolEnter_keeps, acqFormats_tr, modTr2_tr, modTr_tr, setPort_tr,
    cancelTrain_tr]
  rfl

theorem enterMuted_tr (p : LPort) (s : State) : (enterMuted p s).ports[p].tr = s.ports[p].tr.muting := by
  simp only [enterMuted, maybeAcquire_tr, refresh_tr]
  split_ifs <;>
    simp only [acqDescs_tr, acqFormats_tr, poolLeave_keeps, modTr2_tr, modTr_tr, setPort_tr, cancelTrain_tr] <;> rfl

theorem enterAcquire_trainFail (p : LPort) (s : State) :
    (enterAcquire p s).ports[p].tr2.trainFail = s.ports[p].tr2.trainFail := by
  simp only [enterAcquire, maybeAcquire_tr2, refresh_tr2, poolEnter_keeps, acqFormats_tr2, modTr2_tr2, modTr_tr2,
    setPort_tr2, cancelTrain_trainFail]

theorem enterMuted_trainFail (p : LPort) (s : State) :
    (enterMuted p s).ports[p].tr2.trainFail = s.ports[p].tr2.trainFail := by
  simp only [enterMuted, maybeAcquire_tr2, refresh_tr2]
  split_ifs <;>
    simp only [acqDescs, acqFormats_tr2, poolLeave_keeps, modTr2_tr2, modTr_tr2, setPort_tr2, cancelTrain_trainFail]

theorem maybeAcquire_pool (p : LPort) (s : State) : (maybeAcquire p s).pool = s.pool := by
  simp only [maybeAcquire, startAttempt]
  split_ifs <;> simp only [setAlarm_pool, modRx_pool]

/-- In ACQUIRE the port takes part in the decoder pool (R195). -/
theorem enterAcquire_inPool (p : LPort) (s : State) : (enterAcquire p s).pool.ports[p].inPool = true := by
  simp only [enterAcquire, maybeAcquire_pool, refresh_keeps, poolEnter, modPp_port]

theorem poolLeave_inPool (p : LPort) (s : State) : (poolLeave p s).pool.ports[p].inPool = false := by
  rw [poolLeave, setAlarm_pool, modPp_port]

/-- In MUTED it does not (R198). -/
theorem enterMuted_inPool (p : LPort) (s : State) : (enterMuted p s).pool.ports[p].inPool = false := by
  simp only [enterMuted, maybeAcquire_pool, refresh_keeps]
  split_ifs <;> exact poolLeave_inPool ..

/-! ### Failures (R221) -/

/-- A failure leaves a try within RETRIES. -/
abbrev MoreTries (t : Train) : Prop := retriesOf t = 0 ∨ t.fails + 1 < retriesOf t

/-- The state in which a failure is on record, before its port moves. -/
def failCounted (p : LPort) (reason : Nat) (counts : Bool) (s : State) : State :=
  modTr p (fun t => { t with lastFail := BitVec.ofNat 4 reason, fails := if counts then t.fails + 1 else t.fails })
    (modTr2 p (fun t => { t with trainFail := t.trainFail + 1 }) s)

theorem failCounted_tr (p : LPort) (reason : Nat) (counts : Bool) (s : State) :
    (failCounted p reason counts s).ports[p].tr = { s.ports[p].tr with
      lastFail := BitVec.ofNat 4 reason, fails := if counts then s.ports[p].tr.fails + 1 else s.ports[p].tr.fails } := by
  rw [failCounted, modTr_tr, modTr2_tr]

theorem failCounted_trainFail (p : LPort) (reason : Nat) (counts : Bool) (s : State) :
    (failCounted p reason counts s).ports[p].tr2.trainFail = s.ports[p].tr2.trainFail + 1 := by
  rw [failCounted, modTr_tr2, modTr2_tr2]

/-- A failed port that tries again: RETRY_HOLD runs. -/
def tryAgain (p : LPort) (reason : Nat) (sendAbort : Bool) (s : State) : State :=
  let s := modTr p (fun t => { t with retryHold := true }) (enterAcquire p s)
  if sendAbort then sendMsg p 13 [word [(31, 28, reason)]] s else s

theorem trainFail_eq (p : LPort) (reason : Nat) (sendAbort counts : Bool) (s : State) :
    trainFail p reason sendAbort counts s =
      if reason = 2 ∨ (counts = true ∧ ¬ MoreTries s.ports[p].tr) then enterMuted p (failCounted p reason counts s)
      else tryAgain p reason sendAbort (failCounted p reason counts s) := by
  have hlimit : (counts && retriesOf (failCounted p reason counts s).ports[p].tr != 0 && decide
      (retriesOf (failCounted p reason counts s).ports[p].tr ≤ (failCounted p reason counts s).ports[p].tr.fails)) = true ↔
      counts = true ∧ ¬ MoreTries s.ports[p].tr := by
    rw [failCounted_tr]
    cases counts
    · simp
    · simp [MoreTries, retriesOf]
  exact if_congr (Bool.or_eq_true_iff.trans (or_congr decide_eq_true_iff hlimit)) rfl rfl

theorem tryAgain_tr (p : LPort) (reason : Nat) (sendAbort : Bool) (s : State) :
    ∃ q, (tryAgain p reason sendAbort s).ports[p].tr = { s.ports[p].tr.acquiring with retryHold := true, queue := q } := by
  simp only [tryAgain]
  split_ifs
  · exact ⟨_, by rw [sendMsg_tr, modTr_tr, enterAcquire_tr]⟩
  · exact ⟨_, by rw [modTr_tr, enterAcquire_tr]⟩

theorem tryAgain_trainFail (p : LPort) (reason : Nat) (sendAbort : Bool) (s : State) :
    (tryAgain p reason sendAbort s).ports[p].tr2.trainFail = s.ports[p].tr2.trainFail := by
  simp only [tryAgain]
  split_ifs <;> simp only [sendMsg_tr2, modTr_tr2, enterAcquire_trainFail]

/-- What every failure leaves: LAST_FAIL names it, and it counts. -/
theorem trainFail_recorded (p : LPort) (reason : Nat) (sendAbort counts : Bool) (s : State) :
    (trainFail p reason sendAbort counts s).ports[p].tr.lastFail = BitVec.ofNat 4 reason ∧
      (trainFail p reason sendAbort counts s).ports[p].tr2.trainFail = s.ports[p].tr2.trainFail + 1 := by
  obtain ⟨q, htr⟩ := tryAgain_tr p reason sendAbort (failCounted p reason counts s)
  rw [trainFail_eq]
  split_ifs
  · rw [enterMuted_tr, enterMuted_trainFail, failCounted_tr, failCounted_trainFail]
    exact ⟨rfl, rfl⟩
  · rw [htr, tryAgain_trainFail, failCounted_tr, failCounted_trainFail]
    exact ⟨rfl, rfl⟩

/-- A failure after which the port tries again. -/
theorem trainFail_retries (p : LPort) (reason : Nat) (sendAbort counts : Bool) (s : State) (hreason : reason ≠ 2)
    (hmore : counts = true → MoreTries s.ports[p].tr) :
    (trainFail p reason sendAbort counts s).ports[p].tr.state = .acquire ∧
      (trainFail p reason sendAbort counts s).ports[p].tr.retryHold = true ∧
      (trainFail p reason sendAbort counts s).ports[p].tr.fails =
        if counts then s.ports[p].tr.fails + 1 else s.ports[p].tr.fails := by
  obtain ⟨q, htr⟩ := tryAgain_tr p reason sendAbort (failCounted p reason counts s)
  have hretry : ¬ (reason = 2 ∨ (counts = true ∧ ¬ MoreTries s.ports[p].tr)) :=
    not_or.mpr ⟨hreason, fun ⟨hc, hlimit⟩ => hlimit (hmore hc)⟩
  rw [trainFail_eq, if_neg hretry, htr, failCounted_tr]
  exact ⟨rfl, rfl, rfl⟩

/-- A failure at the limit of RETRIES. -/
theorem trainFail_mutes (p : LPort) (reason : Nat) (sendAbort : Bool) (s : State) (hmore : ¬ MoreTries s.ports[p].tr) :
    (trainFail p reason sendAbort true s).ports[p].tr.state = .muted := by
  rw [trainFail_eq, if_pos (Or.inr ⟨rfl, hmore⟩), enterMuted_tr]
  rfl

end Sys2Proof.Machine
end

section
/-! PROOF. RETUNE and the search on the transmitted direction (R150, R230, R235, R255). -/

namespace Sys2Proof.Machine

/-- A change of a port that keeps this part of it keeps that of every port. -/
theorem modPort_nlc (p q : LPort) (f : PortSt → PortSt) (s : State) (h : ∀ x, (f x).nlc = x.nlc) :
    (modPort p f s).ports[q].nlc = s.ports[q].nlc := by
  by_cases hq : q = p
  · subst hq
    simp only [modPort_ports, vmod_same, h]
  · simp only [modPort_ports, vmod_other _ _ _ _ hq]

theorem modTr_nlc (p : LPort) (f : Train → Train) (q : LPort) (s : State) :
    (modTr p f s).ports[q].nlc = s.ports[q].nlc :=
  modPort_nlc p q _ s fun _ => rfl

theorem modTr2_nlc (p : LPort) (f : Train2 → Train2) (q : LPort) (s : State) :
    (modTr2 p f s).ports[q].nlc = s.ports[q].nlc :=
  modPort_nlc p q _ s fun _ => rfl

/-- Whether TUNE is skipped rests on the sets of the port, on its rate and on the far CAP (R235). -/
theorem tuneSkipped_congr {s t : State} {p : LPort} (hnlc : t.ports[p].nlc = s.ports[p].nlc)
    (hcap : t.ports[p].tr.farCap = s.ports[p].tr.farCap) (hrate : t.ports[p].tr.rate = s.ports[p].tr.rate) :
    tuneSkipped t p = tuneSkipped s p := by
  simp only [tuneSkipped, CoefSet.matches, hnlc, hcap, hrate]

/-! ### A search begins -/

/-- A plan with START `n`, to be acknowledged (R235). -/
def Tune.planned (x : Tune) (n : Psfn) : Tune := { x with start := n, acked := false, index := 0 }

theorem sendPlan_tr (p : LPort) (x : Tune) (s : State) :
    ∃ n, (sendPlan p x s).ports[p].tr = { s.ports[p].tr with
      tuneTx := some (x.planned n), queue := s.ports[p].tr.queue ++ [{ type := 8, body := planBody (x.planned n) }] } :=
  ⟨_, by rw [sendPlan, tookFree_ports, sendMsg_tr, modTr_tr]; rfl⟩

theorem sendPlan_tr2 (p : LPort) (x : Tune) (q : LPort) (s : State) :
    (sendPlan p x s).ports[q].tr2 = s.ports[q].tr2 := by
  simp only [sendPlan, tookFree_ports, sendMsg_tr2, modTr_tr2]

/-- A search with set `i` that begins: its first plan waits for its acknowledgement. -/
def Tune.Begins (x : Tune) (i : BitVec 3) : Prop := x.stage = 0 ∧ x.cands = tuneFirst ∧ x.set = i ∧ x.acked = false

/-- Training as RETUNE begins the search `x`. -/
def Train.searching (t : Train) (x : Tune) : Train :=
  { t with retune := true, retuneDue := false, tuneTx := some x, queue := t.queue ++ [{ type := 8, body := planBody x }] }

theorem startTune_tr (p : LPort) (s : State) :
    ∃ x : Tune, x.Begins s.ports[p].nlc.txSel ∧ (startTune p s).ports[p].tr = { s.ports[p].tr with
      tuneTx := some x, queue := s.ports[p].tr.queue ++ [{ type := 8, body := planBody x }] } := by
  obtain ⟨n, htr⟩ := sendPlan_tr p
    { set := s.ports[p].nlc.txSel, start := 0, cands := tuneFirst, snrs := [], best := (0, 32, 0), snr0 := 0, stage := 0
      acked := false, index := 0 } s
  exact ⟨_, ⟨rfl, rfl, rfl, rfl⟩, htr⟩

/-! ### RETUNE -/

theorem retune_running (p : LPort) (s : State) (h : s.ports[p].tr.tuneTx.any (·.stage < 2) = true) : retune p s = s :=
  if_pos h

/-- RETUNE is due from now on, unless a search runs. -/
theorem retune_due (p : LPort) (s : State) (h : s.ports[p].tr.tuneTx.any (·.stage < 2) = false) :
    retune p s = dueRetune p (modTr p (fun t => { t with retuneDue := true }) s) :=
  if_neg (by rw [h]; exact Bool.false_ne_true)

/-- While a commit is pending, RETUNE waits for its end (R230). -/
theorem retune_waits (p : LPort) (s : State) (hidle : s.ports[p].tr.tuneTx.any (·.stage < 2) = false)
    (hbusy : txBusy s.ports[p].tr = true) : retune p s = modTr p (fun t => { t with retuneDue := true }) s := by
  have hwait : txBusy (modTr p (fun t => { t with retuneDue := true }) s).ports[p].tr = true := by rwa [modTr_tr]
  rw [retune_due p s hidle]
  simp only [dueRetune, hwait, Bool.not_true, Bool.and_false, Bool.false_and, Bool.false_eq_true, if_false]

theorem dueRetune_runs (p : LPort) (s : State) (hdue : s.ports[p].tr.retuneDue = true) (hst : s.ports[p].tr.state = .traffic)
    (hfree : txBusy s.ports[p].tr = false) (hidle : s.ports[p].tr.tuneTx.any (·.stage < 2) = false) :
    dueRetune p s = if tuneSkipped (modTr p (fun t => { t with retuneDue := false }) s) p
      then modTr p (fun t => { t with retuneDue := false }) s
      else startTune p (modTr p (fun t => { t with retune := true }) (modTr p (fun t => { t with retuneDue := false }) s)) :=
  if_pos (by rw [hdue, hst, hfree, hidle]; rfl)

/-- In TRAFFIC without a commit that is pending, RETUNE runs at once, or is skipped. -/
theorem retune_at_once (p : LPort) (s : State) (hst : s.ports[p].tr.state = .traffic)
    (hidle : s.ports[p].tr.tuneTx.any (·.stage < 2) = false) (hfree : txBusy s.ports[p].tr = false) :
    retune p s = if tuneSkipped s p then modTr p (fun t => { t with retuneDue := false }) s
      else startTune p (modTr p (fun t => { t with retuneDue := false, retune := true }) s) := by
  have hskip : tuneSkipped (modTr p (fun t => { t with retuneDue := false }) s) p = tuneSkipped s p :=
    tuneSkipped_congr (modTr_nlc ..) (by rw [modTr_tr]) (by rw [modTr_tr])
  have hfree' : txBusy (modTr p (fun t => { t with retuneDue := true }) s).ports[p].tr = false := by rwa [modTr_tr]
  rw [retune_due p s hidle, dueRetune_runs p _ (by rw [modTr_tr]) (by rw [modTr_tr, hst]) hfree' (by rw [modTr_tr, hidle])]
  simp only [modTr_modTr, Function.comp_def]
  rw [hskip]

theorem retune_skips (p : LPort) (s : State) (hst : s.ports[p].tr.state = .traffic)
    (hidle : s.ports[p].tr.tuneTx.any (·.stage < 2) = false) (hfree : txBusy s.ports[p].tr = false)
    (hskip : tuneSkipped s p = true) : retune p s = modTr p (fun t => { t with retuneDue := false }) s := by
  rw [retune_at_once p s hst hidle hfree, if_pos hskip]

theorem retune_searches (p : LPort) (s : State) (hst : s.ports[p].tr.state = .traffic)
    (hidle : s.ports[p].tr.tuneTx.any (·.stage < 2) = false) (hfree : txBusy s.ports[p].tr = false)
    (hskip : tuneSkipped s p = false) :
    ∃ x : Tune, x.Begins s.ports[p].nlc.txSel ∧ (retune p s).ports[p].tr = s.ports[p].tr.searching x := by
  obtain ⟨x, hx, htr⟩ := startTune_tr p (modTr p (fun t => { t with retuneDue := false, retune := true }) s)
  rw [modTr_nlc] at hx
  refine ⟨x, hx, ?_⟩
  rw [retune_at_once p s hst hidle hfree, if_neg (by rw [hskip]; exact Bool.false_ne_true), htr, modTr_tr]
  rfl

theorem dueRetune_tr2 (p q : LPort) (s : State) : (dueRetune p s).ports[q].tr2 = s.ports[q].tr2 := by
  simp only [dueRetune]
  split_ifs <;> simp only [startTune, sendPlan_tr2, modTr_tr2]

theorem retune_tr2 (p q : LPort) (s : State) : (retune p s).ports[q].tr2 = s.ports[q].tr2 := by
  unfold retune
  split_ifs <;> simp only [dueRetune_tr2, modTr_tr2]

theorem txBusy_eq_true {t : Train} (h : t.txCommit.isSome = true ∨ t.retryCommit.isSome = true) : txBusy t = true :=
  Bool.or_eq_true_iff.mpr h

theorem txBusy_eq_false {t : Train} (h : t.txCommit = none) (h' : t.retryCommit = none) : txBusy t = false := by
  rw [txBusy, h, h']; rfl

end Sys2Proof.Machine
end

section
/-! PROOF. O27: the timers and the phases of training (R220, R221, R224, R228, R236 to R238, R243, R256). -/

namespace Sys2Proof.Machine

/-! ### Phases that do not end -/

theorem inPhase_of_state {s : State} {p : LPort} (ph : Phase) (h : s.ports[p].tr.state ≠ .train) :
    inPhase s p ph = false := by
  rw [inPhase, beq_false_of_ne h, Bool.false_and]

theorem inPhase_of_phase {s : State} {p : LPort} {ph : Phase} (h : s.ports[p].tr.phase ≠ ph) : inPhase s p ph = false := by
  rw [inPhase, beq_false_of_ne h, Bool.and_false]

theorem inPhase_eq_true {s : State} {p : LPort} {ph : Phase} (h : s.ports[p].tr.state = .train)
    (h' : s.ports[p].tr.phase = ph) : inPhase s p ph = true := by
  rw [inPhase, h, h', beq_self_eq_true, beq_self_eq_true, Bool.and_self]

theorem leaveCapability_stays {s : State} {p : LPort} (h : inPhase s p .capability = false ∨ s.ports[p].tr.farCap = none) :
    leaveCapability p s = s := by
  cases hcap : s.ports[p].tr.farCap with
  | none => simp only [leaveCapability, hcap]
  | some c =>
    rw [hcap] at h
    simp only [leaveCapability, hcap, h.resolve_right (Option.some_ne_none c), Bool.false_eq_true, if_false]

theorem leaveProbe_stays {s : State} {p : LPort} (h : inPhase s p .probe = false ∨ s.ports[p].tr.probeAcked = false) :
    leaveProbe p s = s := by
  refine if_neg ?_
  rcases h with h | h <;> simp only [h, Bool.false_and, Bool.and_false, Bool.false_eq_true, not_false_eq_true]

theorem leaveSelect_stays {s : State} {p : LPort} (h : inPhase s p .select = false) : leaveSelect p s = s :=
  if_neg (by simp [h])

theorem leaveTune_stays {s : State} {p : LPort} (h : inPhase s p .tune = false) : leaveTune p s = s :=
  if_neg (by simp [h])

theorem leaveCommit_stays {s : State} {p : LPort} (h : inPhase s p .commit = false ∨ s.ports[p].tr.farVerified = false) :
    leaveCommit p s = s := by
  refine if_neg ?_
  rcases h with h | h <;> simp only [h, Bool.false_and, Bool.and_false, Bool.false_eq_true, not_false_eq_true]

/-- Outside TRAIN nothing moves on. -/
theorem advance_outside {s : State} {p : LPort} (h : s.ports[p].tr.state ≠ .train) : advance p s = s := by
  rw [advance, leaveCapability_stays (.inl (inPhase_of_state _ h)), leaveProbe_stays (.inl (inPhase_of_state _ h)),
    leaveSelect_stays (inPhase_of_state _ h), leaveTune_stays (inPhase_of_state _ h),
    leaveCommit_stays (.inl (inPhase_of_state _ h))]

/-- CAPABILITY waits for the far CAP. -/
theorem advance_capability {s : State} {p : LPort} (h : s.ports[p].tr.phase = .capability)
    (hcap : s.ports[p].tr.farCap = none) : advance p s = s := by
  have hother : ∀ ph, ph ≠ .capability → inPhase s p ph = false := fun ph hne => inPhase_of_phase (h ▸ hne.symm)
  rw [advance, leaveCapability_stays (.inr hcap), leaveProbe_stays (.inl (hother _ (by decide))),
    leaveSelect_stays (hother _ (by decide)), leaveTune_stays (hother _ (by decide)),
    leaveCommit_stays (.inl (hother _ (by decide)))]

/-- PROBE waits for the acknowledgement of the own report. -/
theorem advance_probe {s : State} {p : LPort} (h : s.ports[p].tr.phase = .probe)
    (hacked : s.ports[p].tr.probeAcked = false) : advance p s = s := by
  have hother : ∀ ph, ph ≠ .probe → inPhase s p ph = false := fun ph hne => inPhase_of_phase (h ▸ hne.symm)
  rw [advance, leaveCapability_stays (.inl (hother _ (by decide))), leaveProbe_stays (.inr hacked),
    leaveSelect_stays (hother _ (by decide)), leaveTune_stays (hother _ (by decide)),
    leaveCommit_stays (.inl (hother _ (by decide)))]

theorem advance_commit {s : State} {p : LPort} (h : s.ports[p].tr.phase = .commit) : advance p s = leaveCommit p s := by
  have hother : ∀ ph, ph ≠ .commit → inPhase s p ph = false := fun ph hne => inPhase_of_phase (h ▸ hne.symm)
  rw [advance, leaveCapability_stays (.inl (hother _ (by decide))), leaveProbe_stays (.inl (hother _ (by decide))),
    leaveSelect_stays (hother _ (by decide)), leaveTune_stays (hother _ (by decide))]

/-! ### Timers -/

/-- What a failure with `reason` does (R221). -/
def FailedWith (p : LPort) (reason : Nat) (s u : State) : Prop :=
  u.ports[p].tr.lastFail = BitVec.ofNat 4 reason ∧ u.ports[p].tr2.trainFail = s.ports[p].tr2.trainFail + 1 ∧
    (MoreTries s.ports[p].tr → u.ports[p].tr.state = .acquire ∧ u.ports[p].tr.retryHold = true ∧
      u.ports[p].tr.fails = s.ports[p].tr.fails + 1) ∧
    (¬ MoreTries s.ports[p].tr → u.ports[p].tr.state = .muted)

theorem trainFail_failed (p : LPort) (reason : Nat) (sendAbort : Bool) (s : State) (h : reason ≠ 2) :
    FailedWith p reason s (trainFail p reason sendAbort true s) := by
  obtain ⟨hlast, hcount⟩ := trainFail_recorded p reason sendAbort true s
  exact ⟨hlast, hcount, fun hmore => trainFail_retries p reason sendAbort true s h fun _ => hmore,
    trainFail_mutes p reason sendAbort s⟩

/-- No phase ends by its timer with CAP_MISMATCH. -/
theorem timerReason_ne {ph : Phase} {r : Nat} (h : timerReason ph = some r) : r ≠ 2 := by
  cases ph <;> simp only [timerReason, Option.some.injEq, reduceCtorEq] at h <;> omega

theorem trainPhaseTimeout_fails {p : LPort} {s : State} {r : Nat} (hst : s.ports[p].tr.state = .train)
    (hr : timerReason s.ports[p].tr.phase = some r) : trainPhaseTimeout p s = trainFail p r true true s := by
  simp only [trainPhaseTimeout, hr, hst, beq_self_eq_true, if_true]

theorem farRestart_fails {p : LPort} {s : State}
    (h : (s.ports[p].tr.state = .train ∧ 16 ≤ s.ports[p].tr.srdiRun) ∨
      ((s.ports[p].tr.state = .traffic ∨ s.ports[p].tr.state = .holdover) ∧ 16 ≤ s.ports[p].tr.strainRun)) :
    farRestart p s = trainFail p 12 false true s := by
  rcases h with ⟨hst, hrun⟩ | ⟨hst | hst, hrun⟩ <;> simp only [farRestart, hst, hrun, if_true]

theorem holdTimeExpiry_fails {p : LPort} {s : State} (h : s.ports[p].tr.state = .holdover) :
    holdTimeExpiry p s = trainFail p 13 true true s := by
  rw [holdTimeExpiry, h, if_pos (beq_self_eq_true _)]

theorem trackReportTimer_sends {p : LPort} {s : State}
    (h : s.ports[p].tr.phase = .track ∨ (s.ports[p].tr.state = .train ∧ s.ports[p].tr.phase = .commit)) :
    trackReportTimer p s = sendMsg p 10 (trackBody s p) s := by
  refine if_pos (Bool.or_eq_true_iff.mpr ?_)
  exact h.symm.imp (fun ⟨hst, hph⟩ => inPhase_eq_true hst hph) beq_iff_eq.mpr

/-- Both alarms of R237 are off. -/
theorem spanAlarms_off (p : LPort) (s : State) :
    alarmOn (setAlarm (.line p) 11 false (setAlarm (.line p) 10 false s)) (.line p) 10 = false ∧
      alarmOn (setAlarm (.line p) 11 false (setAlarm (.line p) 10 false s)) (.line p) 11 = false := by
  refine ⟨?_, alarmOn_setAlarm _ _ _ _ (by decide)⟩
  rw [alarmOn_setAlarm_otherBit _ _ _ _ _ (by decide) (by decide), alarmOn_setAlarm _ _ _ _ (by decide)]

theorem spanAlarmClear_clears {p : LPort} {s : State} (h : degraded s.ports[p].tr = false) :
    spanAlarmClear p s = setAlarm (.line p) 11 false (setAlarm (.line p) 10 false s) :=
  if_neg (by rw [h]; exact Bool.false_ne_true)

/-- The port of a HOLDOVER whose other format is tried (R233). -/
theorem holdoverAlternate_acts {p : LPort} {s : State} {a b : Word} {first : Bool} (hst : s.ports[p].tr.state = .holdover)
    (hlock : s.ports[p].sf.lock = false) (halt : s.ports[p].tr2.alternate = some (a, b, first)) :
    holdoverAlternate p s = modTr2 p (fun t => { t with alternate := some (a, b, !first) })
      (modTr p (fun t => { t with rxNow := if first then b else a }) (beCautious p s)) := by
  simp only [holdoverAlternate, halt, hst, hlock, beq_self_eq_true, Bool.not_false, Bool.and_self, if_true]

theorem autoRetune_acts {p : LPort} {s : State} (hst : s.ports[p].tr.state = .traffic)
    (hrate : s.ports[p].tr2.afterRate = true) (hbit : bit s.ports[p].tr.policy[0] 27 = true) :
    autoRetune p s = retune p (modTr2 p (fun t => { t with afterRate := false }) s) :=
  if_pos (by rw [hst, hrate, hbit]; rfl)

theorem autoRetune_afterRate {p : LPort} {s : State} (hst : s.ports[p].tr.state = .traffic)
    (hrate : s.ports[p].tr2.afterRate = true) (hbit : bit s.ports[p].tr.policy[0] 27 = true) :
    (autoRetune p s).ports[p].tr2.afterRate = false := by
  rw [autoRetune_acts hst hrate hbit, retune_tr2, modTr2_tr2]

theorem trainingTimers : Claims.TrainingTimersComplete := by
  intro p s
  refine ⟨fun r hst hr => ?_, fun hfar => ?_, fun hst => ?_, rfl, rfl, fun hph => ?_, fun hst hbit hdeg => ?_,
    fun hclear => ?_, fun a b first hst hlock halt => ?_, fun hst hrate hbit hskip htx hretry htune => ?_,
    fun hst hrate hbit htx htune => ?_⟩
  · exact ⟨_, congrArg Host.Outcome.next (trainPhaseTimeout_fails hst hr), trainFail_failed p r true s (timerReason_ne hr)⟩
  · exact ⟨_, congrArg Host.Outcome.next (farRestart_fails hfar), trainFail_failed p 12 false s (by decide)⟩
  · exact ⟨_, congrArg Host.Outcome.next (holdTimeExpiry_fails hst), trainFail_failed p 13 true s (by decide)⟩
  · exact congrArg Host.Outcome.next (trackReportTimer_sends hph)
  · exact congrArg Host.Outcome.next (if_pos (by rw [hst, hbit, hdeg]; rfl))
  · obtain ⟨hcap, hmargin⟩ := spanAlarms_off p s
    exact ⟨_, congrArg Host.Outcome.next (spanAlarmClear_clears hclear), hcap, hmargin,
      only_trans (setAlarm_only_alarms _ _ _ _) (setAlarm_only_alarms _ _ _ _)⟩
  · have hrun : Claims.Runs (.holdoverFormatAlternate p) s _ :=
      congrArg Host.Outcome.next (holdoverAlternate_acts hst hlock halt)
    refine ⟨_, hrun, ?_, ?_, ?_, commandFrames _ s _ hrun⟩
    · rw [modTr2_tr, modTr_tr]
    · rw [modTr2_tr2]
    · rw [modTr2_pool, modTr_pool, beCautious, modPp_port]
  · have hidle : s.ports[p].tr.tuneTx.any (·.stage < 2) = false := by rw [htune]; rfl
    have hacts := autoRetune_acts hst hrate hbit
    obtain ⟨x, ⟨-, hcands, -, -⟩, htr⟩ := retune_searches p (modTr2 p (fun t => { t with afterRate := false }) s)
      (by rw [modTr2_tr, hst]) (by rw [modTr2_tr, hidle]) (by rw [modTr2_tr, txBusy_eq_false htx hretry])
      ((tuneSkipped_congr (modTr2_nlc ..) (by rw [modTr2_tr]) (by rw [modTr2_tr])).trans hskip)
    rw [← hacts] at htr
    exact ⟨autoRetune p s, x, rfl, autoRetune_afterRate hst hrate hbit, congrArg Train.retune htr, congrArg Train.tuneTx htr,
      hcands⟩
  · have hidle : s.ports[p].tr.tuneTx.any (·.stage < 2) = false := by rw [htune]; rfl
    have hwaits := retune_waits p (modTr2 p (fun t => { t with afterRate := false }) s) (by rw [modTr2_tr, hidle])
      (by rw [modTr2_tr, txBusy_eq_true (.inl htx)])
    refine ⟨autoRetune p s, rfl, autoRetune_afterRate hst hrate hbit, ?_⟩
    rw [autoRetune_acts hst hrate hbit, hwaits, modTr_tr]

/-! ### CAPABILITY begins (R220, R224, R256) -/

theorem reqSlots_congr {s t : State} {p : LPort} (hmap : t.map = s.map) (hpol : t.ports[p].tr.polUse = s.ports[p].tr.polUse)
    (hsf : t.ports[mate p].sf = s.ports[mate p].sf) : reqSlots t p = reqSlots s p := by
  simp only [reqSlots, mustCarry, sentClients, dropMask, regen, hmap, hpol, hsf]
  rfl

theorem capBody_congr {s t : State} {p : LPort} (hmap : t.map = s.map) (hpol : t.ports[p].tr.polUse = s.ports[p].tr.polUse)
    (hsf : t.ports[mate p].sf = s.ports[mate p].sf) (hrate : t.ports[p].tr.rate = s.ports[p].tr.rate)
    (hsets : t.ports[p].tr.capSets = s.ports[p].tr.capSets) (htx : t.ports[p].tx = s.ports[p].tx) :
    capBody t p = capBody s p := by
  simp only [capBody, reqSlots_congr hmap hpol hsf, regen, hmap, hpol, hrate, hsets, htx]

theorem rxSetsOf_congr {s t : State} {p : LPort} (hnlc : t.ports[p].nlc = s.ports[p].nlc)
    (hrate : t.ports[p].tr.rate = s.ports[p].tr.rate) : rxSetsOf t p = rxSetsOf s p := by
  simp only [rxSetsOf, rxUsable, CoefSet.matches, hnlc, hrate]

/-- The state in which the own CAP is written: the policy of this moment is in force, and RX_SETS are those usable now. -/
def capReady (p : LPort) (s : State) : State :=
  modTr p (fun t => { t with polUse := t.policy, capSets := BitVec.ofNat 8 (rxSetsOf s p) }) s

theorem sendCap_eq (p : LPort) (s : State) : sendCap p s = sendMsg p 1 (capBody (capReady p s) p) (capReady p s) := by
  have hready : modTr p (fun t => { t with capSets := BitVec.ofNat 8 (rxSetsOf s p) }) (takePolicy p s) = capReady p s := by
    rw [takePolicy, modTr_modTr]
    rfl
  exact congrArg (fun u => sendMsg p 1 (capBody u p) u) hready

/-- The CAP that is queued is that of the port once its outputs are in line again. -/
theorem refresh_sendCap_body (p : LPort) (s : State) : capBody (refresh (sendCap p s)) p = capBody (capReady p s) p := by
  rw [sendCap_eq]
  refine capBody_congr ?_ ?_ ?_ ?_ ?_ ?_
  · simp only [refresh_keeps, sendMsg_keeps]
  · rw [refresh_tr, sendMsg_tr]
  · rw [refresh_sf, sendMsg_sf]
  · rw [refresh_tr, sendMsg_tr]
  · rw [refresh_tr, sendMsg_tr]
  · rw [refresh_tx, sendMsg, modTr_tx]

/-- A port that leaves ACQUIRE, before its CAP is queued; what was queued is discarded (R224). -/
def capBegun (p : LPort) (s : State) : State :=
  modTr p (fun t => { t with
    phase := .capability, queue := [], seq := if t.sentHead then t.seq + 1 else t.seq, sentHead := false, srdiRun := 0 })
    (setPort p .train s)

theorem capBegun_tr (p : LPort) (s : State) : (capBegun p s).ports[p].tr = { s.ports[p].tr with
    state := .train, phase := .capability, queue := []
    seq := if s.ports[p].tr.sentHead then s.ports[p].tr.seq + 1 else s.ports[p].tr.seq
    sentHead := false, srdiRun := 0 } := by
  rw [capBegun, modTr_tr, setPort_tr]

theorem setPort_nlc (p : LPort) (st : PortState) (q : LPort) (s : State) :
    (setPort p st s).ports[q].nlc = s.ports[q].nlc := by
  simp only [setPort]
  split_ifs <;> simp only [failClients_keeps, modMap_ports, modTr_nlc]

theorem capBegun_rxSets (p : LPort) (s : State) : rxSetsOf (capBegun p s) p = rxSetsOf s p :=
  rxSetsOf_congr ((modTr_nlc ..).trans (setPort_nlc ..)) (by rw [capBegun_tr])

theorem trainAcquireDone_acts {p : LPort} {s : State} (hst : s.ports[p].tr.state = .acquire)
    (hlock : s.ports[p].sf.lock = true) (hzero : 16 ≤ s.ports[p].tr.srdiZero) (hhold : s.ports[p].tr.retryHold = false) :
    trainAcquireDone p s = advance p (refresh (sendCap p (capBegun p s))) :=
  if_pos (by rw [hst, hlock, hhold, decide_eq_true hzero]; rfl)

/-- Training once the CAP is queued. -/
theorem capQueued_tr (p : LPort) (s : State) : (refresh (sendCap p (capBegun p s))).ports[p].tr =
    { (capBegun p s).ports[p].tr with
      polUse := s.ports[p].tr.policy, capSets := BitVec.ofNat 8 (rxSetsOf s p)
      queue := [{ type := 1, body := capBody (refresh (sendCap p (capBegun p s))) p }] } := by
  rw [refresh_sendCap_body, refresh_tr, sendCap_eq, sendMsg_tr, capReady, modTr_tr, capBegun_rxSets, capBegun_tr]
  rfl

/-! ### Verification (R228, R236) -/

theorem enterTraffic_tr (p : LPort) (s : State) : (enterTraffic p s).ports[p].tr = { s.ports[p].tr with
    state := .traffic, phase := .track, fails := 0, sawStrain0 := false, strainRun := 0 } := by
  simp only [enterTraffic, modTr2_tr, modTr_tr, setPort_tr]

/-- The conditions under which VERIFY_DONE acts. -/
theorem verifyDone_open {p : LPort} {s : State} (hst : s.ports[p].tr.state = .train) (hph : s.ports[p].tr.phase = .commit)
    (hfin : s.ports[p].tr.finRxDone = true) (hver : s.ports[p].tr.verified = false) :
    (inPhase s p .commit && s.ports[p].tr.finRxDone && !s.ports[p].tr.verified) = true := by
  rw [inPhase_eq_true hst hph, hfin, hver]; rfl

/-- A margin that suffices verifies the format, and COMMIT ends when nothing else is missing. -/
theorem verifyDone_passes {p : LPort} {s : State} {m : BitVec 16} (hst : s.ports[p].tr.state = .train)
    (hph : s.ports[p].tr.phase = .commit) (hfin : s.ports[p].tr.finRxDone = true) (hver : s.ports[p].tr.verified = false)
    (hm : marginMin s.ports[p].tr ≤ m.toInt) :
    verifyDone p m s = leaveCommit p (modTr p (fun t => { t with verified := true }) s) := by
  have hshort : marginMin s.ports[p].tr - m.toInt ≤ 0 := by omega
  rw [← advance_commit (by rw [modTr_tr, hph]), verifyDone, if_pos (verifyDone_open hst hph hfin hver), if_pos hshort]

/-- One that does not, after the second repeat, fails. -/
theorem verifyDone_fails {p : LPort} {s : State} {m : BitVec 16} (hst : s.ports[p].tr.state = .train)
    (hph : s.ports[p].tr.phase = .commit) (hfin : s.ports[p].tr.finRxDone = true) (hver : s.ports[p].tr.verified = false)
    (hm : m.toInt < marginMin s.ports[p].tr) (hruns : 2 ≤ s.ports[p].tr.verifyRuns) :
    verifyDone p m s = trainFail p 8 true true s := by
  have hshort : ¬ marginMin s.ports[p].tr - m.toInt ≤ 0 := by omega
  rw [verifyDone, if_pos (verifyDone_open hst hph hfin hver), if_neg hshort, if_pos hruns]

theorem leaveCommit_enters {p : LPort} {s : State} (hst : s.ports[p].tr.state = .train)
    (hph : s.ports[p].tr.phase = .commit) (htx : s.ports[p].tr.finTxDone = true) (hrx : s.ports[p].tr.finRxDone = true)
    (hver : s.ports[p].tr.verified = true) (hfar : s.ports[p].tr.farVerified = true) : leaveCommit p s = enterTraffic p s :=
  if_pos (by rw [inPhase_eq_true hst hph, htx, hrx, hver, hfar]; rfl)

theorem probeDone_acts {p : LPort} {s : State} (hst : s.ports[p].tr.state = .train) (hph : s.ports[p].tr.phase = .probe)
    (hprobed : s.ports[p].tr.probed = false) (hacked : s.ports[p].tr.probeAcked = false) :
    probeDone p s = sendMsg p 2 (probeBody s.ports[p].rx.est) (modTr p (fun t => { t with
      probed := true, probeSnr := s.ports[p].rx.est.snrX.toNat + s.ports[p].rx.est.snrY.toNat }) s) := by
  rw [probeDone, if_pos (by rw [inPhase_eq_true hst hph, hprobed]; rfl)]
  exact advance_probe (by rw [sendMsg_tr, modTr_tr, hph]) (by rw [sendMsg_tr, modTr_tr, hacked])

/-- A dwell that is not the last of its plan (R235). -/
theorem tuneDwellEnd_records {p : LPort} {s : State} {x : Tune} {m : BitVec 16} (hx : s.ports[p].tr.tuneRx = some x)
    (hmore : x.snrs.length + 1 < x.cands.length) (hstage : x.stage ≠ 2) :
    tuneDwellEnd p m s = modTr p (fun t => { t with tuneRx := some { x with snrs := x.snrs ++ [m] } }) s := by
  have hopen : ¬ (x.cands.length ≤ x.snrs.length ∨ x.stage = 2) := by omega
  have hlength : (x.snrs ++ [m]).length < x.cands.length := by simpa using hmore
  simp only [tuneDwellEnd, hx]
  rw [if_neg (by simpa using hopen), if_pos hlength]

theorem trainingPhases : Claims.TrainingPhasesComplete := by
  intro p s
  refine ⟨fun hst hlock hzero hhold hcap => ?_, fun hst hph hprobed hacked => ?_,
    fun m hst hph hfin hver => ⟨fun hm hfar => ?_, fun hm hfar htx => ?_, fun hm hruns => ?_⟩,
    fun x m hx hmore hstage => congrArg Host.Outcome.next (tuneDwellEnd_records hx hmore hstage)⟩
  · have htr := capQueued_tr p s
    rw [capBegun_tr] at htr
    have hstays : advance p (refresh (sendCap p (capBegun p s))) = refresh (sendCap p (capBegun p s)) :=
      advance_capability (by rw [htr]) (by rw [htr, hcap])
    refine ⟨_, congrArg Host.Outcome.next ((trainAcquireDone_acts hst hlock hzero hhold).trans hstays), ?_⟩
    rw [htr]
    exact ⟨rfl, rfl, rfl, rfl, rfl, rfl⟩
  · refine ⟨_, congrArg Host.Outcome.next (probeDone_acts hst hph hprobed hacked), ?_⟩
    rw [sendMsg_tr, modTr_tr]
    exact ⟨rfl, hph, rfl, rfl⟩
  · refine ⟨_, congrArg Host.Outcome.next (verifyDone_passes hst hph hfin hver hm), ?_⟩
    rw [leaveCommit_stays (.inr (by rw [modTr_tr, hfar])), modTr_tr]
    exact ⟨rfl, hst⟩
  · refine ⟨_, congrArg Host.Outcome.next (verifyDone_passes hst hph hfin hver hm), ?_⟩
    rw [leaveCommit_enters (by rw [modTr_tr, hst]) (by rw [modTr_tr, hph]) (by rw [modTr_tr, htx]) (by rw [modTr_tr, hfin])
      (by rw [modTr_tr]) (by rw [modTr_tr, hfar]), enterTraffic_tr]
    exact ⟨rfl, rfl, rfl⟩
  · exact ⟨_, congrArg Host.Outcome.next (verifyDone_fails hst hph hfin hver hm hruns), trainFail_recorded ..⟩

end Sys2Proof.Machine

open Sys2Proof Sys2Proof.Machine

/-- Settles O27: each timer that fails training by what a failure leaves, the others by the one change that they make; a
phase that has begun or reported waits for the far end, so nothing moves on, and the end of COMMIT enters TRAFFIC. That
PROBE_REPORT carries the estimates in force is the model's choice (log 32), where R220 says measured over PROBE_TIME. -/
theorem trainingComplete : Obligations.TrainingComplete := ⟨trainingTimers, trainingPhases⟩
end

section
/-! PROOF. O28: the events of a commit (R230 to R233). -/

namespace Sys2Proof.Machine

/-! ### Descriptors (R49, R148) -/

/-- The fields that decide how a superframe is demapped outlast a change of the Complication fields and of GEN. -/
theorem sameFmt_withNlc (d : Word) (set : Nat) (on : Bool) (gen : Nat) : sameFmt (withNlc d set on gen) d = true := by
  have hupper : fld (withNlc d set on gen) 31 8 = d.toNat / 256 % 2 ^ 24 := fld_word 31 8 _ _ rfl (by simp)
  have hlt := (withNlc d set on gen).isLt
  have hlt' := d.isLt
  rw [sameFmt, beq_iff_eq]
  simp only [fld] at hupper
  omega

theorem dGen_withNlc (d : Word) (set : Nat) (on : Bool) (gen : Nat) : dGen (withNlc d set on gen) = gen % 16 :=
  fld_word 3 0 gen _ rfl (by simp)

/-! ### Proposals (R230, R231) -/

/-- A proposal is pending with the next GEN, and COMMIT_REQ is queued. -/
theorem propose_txCommit (p : LPort) (desc : Word) (g a : BitVec 8) (kind : BitVec 2) (s : State) :
    ∃ n, (propose p desc g a kind s).ports[p].tr.txCommit = some {
      n := n, desc := withNlc desc (dSet desc) (dOn desc) ((dGen s.ports[p].tr.txFmt + 1) % 16)
      g := g, a := a, kind := kind } :=
  ⟨_, by rw [propose, tookFree_ports, sendMsg_tr, modTr_tr]⟩

theorem propose_retryCommit (p : LPort) (desc : Word) (g a : BitVec 8) (kind : BitVec 2) (s : State) :
    (propose p desc g a kind s).ports[p].tr.retryCommit = s.ports[p].tr.retryCommit := by
  rw [propose, tookFree_ports, sendMsg_tr, modTr_tr]

/-- A proposal kept after NAK is proposed again while its phase allows (R231). -/
theorem commitRetry_proposes {p : LPort} {s : State} {c : Commit} (hretry : s.ports[p].tr.retryCommit = some c)
    (htx : s.ports[p].tr.txCommit = none) (hfits : choiceFits s.ports[p].tr c.kind = true) (hkind : c.kind ≠ 2) :
    commitRetry p s = propose p c.desc c.g c.a c.kind (modTr p (fun t => { t with retryCommit := none }) s) := by
  simp only [commitRetry, hretry, htx, hfits, Option.isNone_none, Bool.and_self, if_true, if_neg hkind]

/-! ### The check at N − 512 (R231, R233) -/

theorem dropRxSwitch_tr (p : LPort) (s : State) :
    (dropRxSwitch p s).ports[p].tr = { s.ports[p].tr with rxCommit := none } :=
  modTr_tr ..

theorem dropRxSwitch_tr2 (p q : LPort) (s : State) : (dropRxSwitch p s).ports[q].tr2 = s.ports[q].tr2 :=
  modTr_tr2 ..

/-- No receive switch of the port is left in the Dial. -/
theorem dropRxSwitch_evs (p : LPort) (s : State) :
    ∀ e ∈ (dropRxSwitch p s).dial.evs, ∀ d g a k, e.kind ≠ .fmtRx p d g a k := by
  intro e he d g a k hkind
  have hkept := (List.mem_filter.mp he).2
  simp only [hkind, beq_self_eq_true, Bool.not_true, Bool.false_eq_true] at hkept

/-- The state in which an unconfirmed switch has been dropped and is counted. -/
def unconfirmed (p : LPort) (c : Commit) (s : State) : State :=
  modTr2 p (fun t => { t with
    commitUnconf := t.commitUnconf + 1, cancelAt := some (refCount s (rxRef p)), cancelFmt := c.desc }) (dropRxSwitch p s)

theorem commitConfirmCheck_drops {p : LPort} {s : State} {c : Commit} (hrx : s.ports[p].tr.rxCommit = some c)
    (hswitched : c.switched = false) (hnear : psfnDiff c.n (refCount s (rxRef p)) ≤ 512)
    (hunseen : ¬ (4 ≤ c.seen ∧ c.lastSeen = true)) :
    commitConfirmCheck p s = sendMsg p 7 (ackBody c.n (dGen c.desc) 0) (unconfirmed p c s) := by
  have hseen : (decide (4 ≤ c.seen) && c.lastSeen) = false := by simpa using hunseen
  simp only [commitConfirmCheck, hrx, hswitched, hseen, decide_eq_true hnear, Bool.not_false, Bool.and_self, if_true]
  rfl

/-! ### The check after the switch (R231, R232) -/

/-- The checks of a commit whose 63 superframes are over. -/
theorem commitPassCheck_eq {p : LPort} {s : State} {c : Commit} (hrx : s.ports[p].tr.rxCommit = some c)
    (hswitched : c.switched = true) (hover : 63 ≤ psfnDiff (refCount s (rxRef p)) c.n) :
    commitPassCheck p s =
      if s.ports[p].sf.lock && !c.failed then rxPassed p c.kind s
      else if s.ports[p].tr.state == .train then trainFail p 7 true true s
      else modTr p (fun t => { t with rxCommit := none }) s := by
  simp only [commitPassCheck, hrx, hswitched, decide_eq_true hover, Bool.and_self, if_true]

/-- The state in which a receive commit has passed, before training moves on. -/
def rxDone (p : LPort) (kind : BitVec 2) (s : State) : State :=
  setAlarm (.line p) 11 false (setAlarm (.line p) 10 false (modTr p (fun t => { t with
    rxCommit := none, fmtRxDone := t.fmtRxDone || kind == 0, finRxDone := t.finRxDone || kind == 1 }) s))

theorem rxDone_tr (p : LPort) (kind : BitVec 2) (s : State) : (rxDone p kind s).ports[p].tr = { s.ports[p].tr with
    rxCommit := none, fmtRxDone := s.ports[p].tr.fmtRxDone || kind == 0
    finRxDone := s.ports[p].tr.finRxDone || kind == 1 } := by
  rw [rxDone, setAlarm_port, setAlarm_port, modTr_tr]

/-- In TRAFFIC nothing moves on. -/
theorem rxPassed_traffic {p : LPort} {s : State} (kind : BitVec 2) (h : s.ports[p].tr.state = .traffic) :
    rxPassed p kind s = rxDone p kind s := by
  have hst : (rxDone p kind s).ports[p].tr.state ≠ .train := by
    rw [rxDone_tr, h]
    decide
  exact advance_outside hst

end Sys2Proof.Machine

open Sys2Proof Sys2Proof.Machine

/-- Settles O28: the check at N − 512 drops the switch and records its format, the check after the switch passes it or fails
training, and a proposal that is made again differs in its count and in GEN alone. -/
theorem commitEventsComplete : Obligations.CommitEventsComplete := by
  intro p s c
  refine ⟨fun hrx hswitched hnear hunseen => ?_, fun hrx hswitched hover hlock hgood hst => ?_,
    fun hrx hswitched hover hbad hst => ?_, fun hretry htx hfits hkind => ?_⟩
  · refine ⟨_, congrArg Host.Outcome.next (commitConfirmCheck_drops hrx hswitched hnear hunseen), ?_⟩
    rw [sendMsg_tr, sendMsg_tr2, unconfirmed, modTr2_tr, modTr2_tr2, dropRxSwitch_tr, dropRxSwitch_tr2]
    exact ⟨rfl, rfl, rfl, rfl, rfl, dropRxSwitch_evs p s⟩
  · have hpass : commitPassCheck p s = rxPassed p c.kind s := by
      rw [commitPassCheck_eq hrx hswitched hover, if_pos (by rw [hlock, hgood]; rfl)]
    refine ⟨_, congrArg Host.Outcome.next (hpass.trans (rxPassed_traffic c.kind hst)), ?_, ?_, spanAlarms_off p _⟩
    · rw [rxDone_tr]
    · rw [rxDone_tr, hst]
  · have hfails : commitPassCheck p s = trainFail p 7 true true s := by
      rw [commitPassCheck_eq hrx hswitched hover, if_neg (by rcases hbad with h | h <;> rw [h] <;> simp),
        if_pos (beq_iff_eq.mpr hst)]
    exact ⟨_, congrArg Host.Outcome.next hfails, (trainFail_recorded p 7 true true s).1⟩
  · obtain ⟨n, hcommit⟩ := propose_txCommit p c.desc c.g c.a c.kind (modTr p (fun t => { t with retryCommit := none }) s)
    rw [modTr_tr] at hcommit
    refine ⟨_, _, congrArg Host.Outcome.next (commitRetry_proposes hretry htx hfits hkind), ?_, hcommit, rfl,
      sameFmt_withNlc .., ?_, rfl⟩
    · rw [propose_retryCommit, modTr_tr]
    · rw [dGen_withNlc, Nat.mod_mod]
end

section
/-! PROOF. O26: TRAIN_START, TRAIN_POLICY_SET, TRAIN_STATUS and PATH_COMMIT (R241, R255 to R258). -/

namespace Sys2Proof.Machine

/-! ### TRAIN_START (R255) -/

/-- A claim about the state `t` from which a command answers. It is shown of any `u` that equals `t`, so that Lean does not
evaluate `t` to read a part of it. -/
theorem exists_answering {c : Instr} {s t : State} {answer : State → State} {P : State → Prop}
    (hrun : Claims.Runs c s (answer t)) (h : ∀ u, t = u → P u) : ∃ u, Claims.Runs c s (answer u) ∧ P u :=
  ⟨t, hrun, h t rfl⟩

/-- What an operation of TRAIN_START does. -/
def trainOperation (op : Nat) (p : LPort) (s : State) : State :=
  match op with
  | 0 => startAcquire p s
  | 1 => enterMuted p (modTr p (fun t => { t with lastFail := 14 }) s)
  | 2 => trainFail p 14 true false s
  | _ => retune p s

theorem trainOperation_retune (p : LPort) (s : State) : trainOperation 3 p s = retune p s := by simp only [trainOperation]

theorem trainStart_acts {rq : Req} {s : State} {op : Nat} (hop : pf rq 0 29 27 = op) (hd : Claims.Awake 0x2801 rq s)
    (hzero : pf rq 0 26 0 = 0) (hle : op ≤ 3) (hst : startAccepted op s.ports[pport rq 0].tr.state = true) :
    Claims.Runs (.trainStart rq) s (reply 0x2801 rq (okay []) (trainOperation op (pport rq 0) s)) := by
  subst hop
  refine congrArg Host.Outcome.next (commandOk_runs 0x2801 rq _ _ _ s (firstFail_badAt_one _ _ ?_) hd ?_)
  · rw [hzero, decide_eq_false (Nat.not_lt.mpr hle)]; rfl
  · rw [hst]; rfl

theorem trainStart_starts {rq : Req} {s : State} (hop : pf rq 0 29 27 = 0) (hd : Claims.Awake 0x2801 rq s)
    (hzero : pf rq 0 26 0 = 0) (hst : s.ports[pport rq 0].tr.state = .muted) :
    Claims.Runs (.trainStart rq) s (reply 0x2801 rq (okay []) (startAcquire (pport rq 0) s)) := by
  have hacts := trainStart_acts hop hd hzero (by decide) (beq_iff_eq.mpr hst)
  rwa [trainOperation] at hacts

theorem trainStart_stops {rq : Req} {s : State} (hop : pf rq 0 29 27 = 1) (hd : Claims.Awake 0x2801 rq s)
    (hzero : pf rq 0 26 0 = 0) (hst : s.ports[pport rq 0].tr.state ≠ .down) :
    Claims.Runs (.trainStart rq) s (reply 0x2801 rq (okay [])
      (enterMuted (pport rq 0) (modTr (pport rq 0) (fun t => { t with lastFail := 14 }) s))) := by
  have hacts := trainStart_acts hop hd hzero (by decide) (bne_iff_ne.mpr hst)
  rwa [trainOperation] at hacts

theorem trainStart_restarts {rq : Req} {s : State} (hop : pf rq 0 29 27 = 2) (hd : Claims.Awake 0x2801 rq s)
    (hzero : pf rq 0 26 0 = 0) (hdown : s.ports[pport rq 0].tr.state ≠ .down)
    (hmuted : s.ports[pport rq 0].tr.state ≠ .muted) :
    Claims.Runs (.trainStart rq) s (reply 0x2801 rq (okay []) (trainFail (pport rq 0) 14 true false s)) := by
  have hacts := trainStart_acts hop hd hzero (by decide)
    (Bool.and_eq_true_iff.mpr ⟨bne_iff_ne.mpr hdown, bne_iff_ne.mpr hmuted⟩)
  rwa [trainOperation] at hacts

theorem trainStart_retunes {rq : Req} {s : State} (hop : pf rq 0 29 27 = 3) (hd : Claims.Awake 0x2801 rq s)
    (hzero : pf rq 0 26 0 = 0) (hst : s.ports[pport rq 0].tr.state = .traffic) :
    Claims.Runs (.trainStart rq) s (reply 0x2801 rq (okay []) (retune (pport rq 0) s)) := by
  have hacts := trainStart_acts hop hd hzero (by decide) (beq_iff_eq.mpr hst)
  rwa [trainOperation_retune] at hacts

theorem started_acts {p : LPort} {s u : State} (h : enterAcquire p s = u) : u.ports[p].tr.state = .acquire ∧
    u.ports[p].tr.phase = .acquire ∧ u.pool.ports[p].inPool = true := by
  have htr := enterAcquire_tr p s
  have hpool := enterAcquire_inPool p s
  rw [h] at htr hpool
  rw [htr]
  exact ⟨rfl, rfl, hpool⟩

/-- STOP leaves LAST_FAIL 14 (R255). -/
theorem stopped_acts {p : LPort} {s u : State} (h : enterMuted p (modTr p (fun t => { t with lastFail := 14 }) s) = u) :
    u.ports[p].tr.state = .muted ∧ u.ports[p].tr.phase = .none ∧ u.ports[p].tr.lastFail = 14 ∧
      u.pool.ports[p].inPool = false := by
  have htr := enterMuted_tr p (modTr p (fun t => { t with lastFail := 14 }) s)
  have hpool := enterMuted_inPool p (modTr p (fun t => { t with lastFail := 14 }) s)
  rw [modTr_tr, h] at htr
  rw [h] at hpool
  rw [htr]
  exact ⟨rfl, rfl, rfl, hpool⟩

/-- RESTART fails with reason 14, which does not count towards RETRIES (R221, R255). -/
theorem restarted_acts {p : LPort} {s u : State} (h : trainFail p 14 true false s = u) :
    u.ports[p].tr.state = .acquire ∧ u.ports[p].tr.lastFail = 14 ∧ u.ports[p].tr.retryHold = true ∧
      u.ports[p].tr2.trainFail = s.ports[p].tr2.trainFail + 1 ∧ u.ports[p].tr.fails = s.ports[p].tr.fails := by
  have hrecorded := trainFail_recorded p 14 true false s
  have hretries := trainFail_retries p 14 true false s (by decide) (fun h => nomatch h)
  rw [h] at hrecorded hretries
  obtain ⟨hlast, hcount⟩ := hrecorded
  obtain ⟨hacquire, hhold, hfails⟩ := hretries
  exact ⟨hacquire, hlast, hhold, hcount, hfails⟩

theorem startAcquire_enters {p : LPort} {s : State} (h : calForeground s p = false) : startAcquire p s = enterAcquire p s :=
  if_neg (by rw [h]; exact Bool.false_ne_true)

theorem startAcquire_waits {p : LPort} {s : State} (h : calForeground s p = true) :
    startAcquire p s = modTr p (fun t => { t with waitCal := true }) s :=
  if_pos h

/-! ### TRAIN_POLICY_SET and TRAIN_STATUS (R256, R257) -/

/-- The policy that a TRAIN_POLICY_SET stores. -/
theorem policyWords_eq (rq : Req) :
    (Vector.ofFn fun (i : Fin 5) => if i.val = 0 then wd (pf rq 0 29 0) else par rq i.val) =
      #v[wd (pf rq 0 29 0), par rq 1, par rq 2, par rq 3, par rq 4] := rfl

theorem trainPolicySet_stores {rq : Req} {s : State} (h : firstFail (policyChecks rq) = none) :
    trainPolicySet rq s = reply 0x2803 rq (okay []) (modTr (pport rq 0)
      (fun t => { t with policy := #v[wd (pf rq 0 29 0), par rq 1, par rq 2, par rq 3, par rq 4] }) s) := by
  rw [← policyWords_eq]
  exact commandOk_runs 0x2803 rq _ (fun _ => []) _ s h (fun d hd => nomatch hd) rfl

theorem trainStatus_reports {rq : Req} (s : State) (hzero : pf rq 0 23 0 = 0) (hsection : pf rq 0 29 24 ≤ 1) :
    Claims.Reports (.trainStatus rq) (.port (pport rq 0)) 0x2802 rq (trainStatusAnswer rq s) s :=
  reports_of_report _ _ _ _ _ _ s rfl
    (firstFail_badAt_one _ _ (by rw [hzero, decide_eq_false (Nat.not_lt.mpr hsection)]; rfl)) (fun d hd => nomatch hd)

theorem trainStatusAnswer_section0 {rq : Req} (s : State) (h : pf rq 0 29 24 = 0) :
    trainStatusAnswer rq s = reply 0x2802 rq (okay (trainSection0 s (pport rq 0))) s := by
  rw [trainStatusAnswer, answerReply, if_pos h]

theorem trainStatusAnswer_section1 {rq : Req} (s : State) (h : pf rq 0 29 24 = 1) :
    trainStatusAnswer rq s = reply 0x2802 rq (okay (trainSection1 s (pport rq 0))) s := by
  rw [trainStatusAnswer, answerReply, if_neg (by rw [h]; decide)]

/-- SECTION 1 is a word, the sixteen entries of the margin ledger and the own entry. -/
theorem trainSection1_eq (s : State) (p : LPort) :
    ∃ w own, trainSection1 s p = w :: (s.ports[p].sf.ledger.toList ++ [own]) :=
  ⟨_, _, rfl⟩

theorem trainSection1_ledger (s : State) (p : LPort) :
    (trainSection1 s p).length = 18 ∧ ((trainSection1 s p).drop 1).take 16 = s.ports[p].sf.ledger.toList := by
  obtain ⟨w, own, hwords⟩ := trainSection1_eq s p
  have hledger : s.ports[p].sf.ledger.toList.length = 16 := Vector.length_toList
  rw [hwords]
  refine ⟨?_, List.take_left' hledger⟩
  rw [List.length_cons, List.length_append, hledger, List.length_singleton]

theorem trainSection0_words (s : State) (p : LPort) :
    (trainSection0 s p).length = 11 ∧ (trainSection0 s p)[1]? = some s.ports[p].tr.txFmt ∧
      (trainSection0 s p)[2]? = some s.ports[p].tr.rxFmt ∧ (trainSection0 s p)[5]? = some s.ports[p].tr2.trainTime ∧
      (trainSection0 s p)[8]? = some s.ports[p].tr2.trainFail :=
  ⟨rfl, rfl, rfl, rfl, rfl⟩

theorem trainCommands : Claims.TrainCommandsComplete := by
  intro rq s
  refine ⟨fun hd hzero => ⟨fun hop hst => ⟨fun hcal => ?_, fun hcal => ?_⟩, fun hop hst => ?_, fun hop hdown hmuted => ?_,
    fun hop hst => ⟨fun hsearch => ?_, fun hidle => ⟨fun hbusy => ?_, fun htx hretry hskip => ?_,
      fun htx hretry hskip => ?_⟩⟩⟩,
    fun hchecks => congrArg Host.Outcome.next (trainPolicySet_stores hchecks), fun hzero hsection => ?_,
    fun hzero hsection => ?_⟩
  · have hrun := trainStart_starts hop hd hzero hst
    rw [startAcquire_enters hcal] at hrun
    exact exists_answering hrun fun _ => started_acts
  · have hrun := trainStart_starts hop hd hzero hst
    rwa [startAcquire_waits hcal] at hrun
  · exact exists_answering (trainStart_stops hop hd hzero hst) fun _ => stopped_acts
  · exact exists_answering (trainStart_restarts hop hd hzero hdown hmuted) fun _ => restarted_acts
  · have hrun := trainStart_retunes hop hd hzero hst
    rwa [retune_running _ s hsearch] at hrun
  · have hrun := trainStart_retunes hop hd hzero hst
    rwa [retune_waits _ s hidle (txBusy_eq_true hbusy)] at hrun
  · have hrun := trainStart_retunes hop hd hzero hst
    rwa [retune_skips _ s hst hidle (txBusy_eq_false htx hretry) hskip] at hrun
  · obtain ⟨x, ⟨hstage, hcands, hset, hacked⟩, htr⟩ :=
      retune_searches _ s hst hidle (txBusy_eq_false htx hretry) hskip
    refine ⟨_, x, trainStart_retunes hop hd hzero hst, ?_⟩
    rw [htr]
    exact ⟨rfl, rfl, hstage, hcands, hset, hacked, rfl⟩
  · have hreports := trainStatus_reports s hzero (by omega)
    rw [trainStatusAnswer_section0 s hsection] at hreports
    exact ⟨_, hreports, trainSection0_words s (pport rq 0)⟩
  · have hreports := trainStatus_reports s hzero (by omega)
    rw [trainStatusAnswer_section1 s hsection] at hreports
    exact ⟨_, hreports, trainSection1_ledger s (pport rq 0)⟩

/-! ### Operations that queue messages alone -/

/-- Two states of port `p` between which training only queues messages: nothing that waited is lost, and the record of rate
changes is as it was. -/
structure Queues (p : LPort) (s t : State) : Prop where
  rest : t.ports[p].tr2 = s.ports[p].tr2
  kept : s.ports[p].tr.queue ⊆ t.ports[p].tr.queue

theorem Queues.refl (p : LPort) (s : State) : Queues p s s := ⟨rfl, List.Subset.refl _⟩

theorem Queues.trans {p : LPort} {s t u : State} (h : Queues p s t) (h' : Queues p t u) : Queues p s u :=
  ⟨h'.rest.trans h.rest, List.Subset.trans h.kept h'.kept⟩

theorem Queues.ite {p : LPort} {c : Prop} [Decidable c] {s t u : State} (h : Queues p s t) (h' : Queues p s u) :
    Queues p s (if c then t else u) := by
  split
  · exact h
  · exact h'

theorem Queues.of_ports {p : LPort} {s t : State} (h : t.ports = s.ports) : Queues p s t := by
  constructor <;> rw [h]
  exact List.Subset.refl _

theorem Queues.eachOf {α : Type} {p : LPort} (l : List α) {f : α → State → State} (h : ∀ x s, Queues p s (f x s))
    (s : State) : Queues p s (eachOf l f s) := by
  induction l generalizing s with
  | nil => exact .refl p s
  | cons x l ih => exact (h x s).trans (ih (f x s))

theorem modTr_queues (p q : LPort) (f : Train → Train) (s : State) (h : ∀ t : Train, t.queue ⊆ (f t).queue) :
    Queues p s (modTr q f s) := by
  refine ⟨modTr_tr2 .., ?_⟩
  by_cases hp : p = q
  · subst hp
    rw [modTr_tr]
    exact h _
  · rw [modTr_ports, vmod_other _ _ _ _ hp]
    exact List.Subset.refl _

theorem sendMsg_queues (p q : LPort) (type : BitVec 4) (body : List Word) (s : State) :
    Queues p s (sendMsg q type body s) :=
  modTr_queues p q _ s fun _ => List.subset_append_left ..

theorem propose_queues (p q : LPort) (desc : Word) (g a : BitVec 8) (kind : BitVec 2) (s : State) :
    Queues p s (propose q desc g a kind s) :=
  ((modTr_queues p q (fun t => { t with txCommit := some _ }) s fun _ => List.Subset.refl _).trans (sendMsg_queues ..)).trans
    (.of_ports (tookFree_ports _))

theorem proposeAt_queues (p q : LPort) (n : Psfn) (desc : Word) (kind : BitVec 2) (s : State) :
    Queues p s (proposeAt q n desc kind s) :=
  (modTr_queues p q (fun t => { t with txCommit := some _ }) s fun _ => List.Subset.refl _).trans (sendMsg_queues ..)

theorem actChoice_queues (p q : LPort) (desc : Word) (kind : BitVec 2) (s : State) :
    Queues p s (actChoice q desc kind s) := by
  have hwait : Queues p s (modTr q (fun t => { t with waitChoice := some (desc, kind) }) s) :=
    modTr_queues p q _ s fun _ => List.Subset.refl _
  refine .ite hwait (.ite ?_ (propose_queues ..))
  cases rateTxAt s q with
  | none => exact hwait
  | some n => exact proposeAt_queues ..

theorem phaseChoice_queues (p q : LPort) (s : State) : Queues p s (phaseChoice q s) := by
  unfold phaseChoice
  split
  · exact (modTr_queues p q (fun t => { t with waitChoice := none }) s fun _ => List.Subset.refl _).trans
      (actChoice_queues ..)
  · exact .refl p s

/-- A PRIMED choice that fails raises nothing and fails nothing (R243). -/
theorem choiceFailed_primed (p : LPort) (reason : Nat) (s : State) : choiceFailed p 2 reason s = s := rfl

theorem sendChoice_queues (p q : LPort) (rate : Nat) (s : State) : Queues p s (sendChoice q 2 rate s) := by
  refine .trans (modTr_queues p q (fun t => { t with polUse := t.policy }) s fun _ => List.Subset.refl _) ?_
  unfold sendChoice takePolicy
  dsimp only
  split
  · rw [choiceFailed_primed]
    exact .refl p _
  · exact .ite (.refl p _) (sendMsg_queues ..)

/-! ### PATH_COMMIT (R241, R258) -/

/-- The record of a rate change whose switches are entered. -/
def entered (p : LPort) (r : RateChange) (s : State) : RateChange := { r with left := (rateSwitches s p r).length }

/-- A rate change that is scheduled is on record, and nothing that waited to be sent is lost. -/
theorem scheduleRate_acts (p : LPort) (r : RateChange) (s : State) :
    (scheduleRate p r s).ports[p].tr2.rate_ = some (entered p r s) ∧
      s.ports[p].tr.queue ⊆ (scheduleRate p r s).ports[p].tr.queue := by
  have hqueues : Queues p (modTr2 p (fun t => { t with rate_ := some (entered p r s) }) s)
      (scheduleRate p r s) :=
    (Queues.eachOf _ (fun _ _ => .of_ports (by simp only [enterSwitch_keeps])) _).trans
      (.eachOf _ (fun q t => (phaseChoice_queues p q t).trans (sendChoice_queues ..)) _)
  obtain ⟨hrest, hkept⟩ := hqueues
  rw [modTr2_tr2] at hrest
  rw [modTr2_tr] at hkept
  exact ⟨congrArg Train2.rate_ hrest, hkept⟩

/-- The same once PATH has been queued, in a state `u` of its own name. -/
theorem scheduled_acts {p : LPort} {r : RateChange} {s u : State}
    (h : scheduleRate p r (sendMsg p 11 (pathBody 0 r 0) s) = u) :
    u.ports[p].tr2.rate_ = some (entered p r (sendMsg p 11 (pathBody 0 r 0) s)) ∧
      { type := 11, body := pathBody 0 r 0 } ∈ u.ports[p].tr.queue := by
  have hacts := scheduleRate_acts p r (sendMsg p 11 (pathBody 0 r 0) s)
  rw [h, sendMsg_tr] at hacts
  obtain ⟨hrecord, hkept⟩ := hacts
  exact ⟨hrecord, hkept (List.mem_append_right _ (List.mem_singleton_self _))⟩

theorem cancelRate_rate (p : LPort) (s : State) : (cancelRate p s).ports[p].tr2.rate_ = none := by
  rw [cancelRate, modTr2_tr2]

theorem answerPath_waiting {r : RateChange} {rq : Req} (a : Answer) (s : State) (h : r.rq = some rq) :
    answerPath r a s = reply 0x2804 rq a s := by
  rw [answerPath, h]

/-- The record of a PATH_COMMIT. -/
def pathChange (rq : Req) (s : State) : RateChange :=
  { rate := BitVec.ofNat 10 (pf rq 0 27 18), nFwd := psfnOf (par rq 1) (par rq 2)
    nRev := psfnAdd (refCount s (rxRef (pport rq 0)))
      (psfnDiff (psfnOf (par rq 1) (par rq 2)) (refCount s (txRef (pport rq 0))))
    origin := s.jrx.nodeId, from_ := none, rq := some rq, left := 0, cancel := pf rq 0 29 28 == 1 }

/-- The state in which a CANCEL has dropped the change that is pending, whose request is refused. -/
def pathDropped (p : LPort) (s : State) : State :=
  match s.ports[p].tr2.rate_ with
  | some old => answerPath old (pathRefused s.jrx.nodeId.toNat 5) (cancelRate p s)
  | none => s

theorem pathCommit_runs {rq : Req} {s : State} (hchecks : firstFail (pathChecks rq.params s) = none)
    (hstates : firstFail (pathStates rq.params s) = none) : pathCommit rq s =
      if (pathChange rq s).cancel
      then taken rq (sendCancel (pport rq 0) (pathChange rq s)
        (modTr2 (pport rq 0) (fun t => { t with rate_ := some (pathChange rq s) }) (pathDropped (pport rq 0) s)))
      else taken rq (scheduleRate (pport rq 0) (pathChange rq s)
        (sendMsg (pport rq 0) 11 (pathBody 0 (pathChange rq s) 0) s)) := by
  rw [pathCommit, command_runs 0x2804 rq _ _ _ s hchecks (fun d hd => nomatch hd) hstates]
  rfl

theorem pathCommits : Claims.PathCommitCompletes := by
  intro rq s hchecks hstates
  have hruns := pathCommit_runs hchecks hstates
  refine ⟨fun hop hrate => ?_, fun hop hrate => ?_, fun old rq₀ hop hold hrq => ?_⟩
  · have hrates : (pathChange rq s).cancel = false := by rw [pathChange, hop]; rfl
    rw [if_neg (by rw [hrates]; exact Bool.false_ne_true)] at hruns
    refine ⟨entered (pport rq 0) (pathChange rq s) (sendMsg (pport rq 0) 11 (pathBody 0 (pathChange rq s) 0) s),
      exists_answering (congrArg Host.Outcome.next hruns) fun u hu => ?_⟩
    obtain ⟨hrecord, hsent⟩ := scheduled_acts hu
    exact ⟨hrecord, ofNat_pf_toNat rq 0 27 18 10 rfl, rfl, rfl, rfl, rfl, hrates, _, hsent, rfl, rfl⟩
  all_goals
    have hcancels : (pathChange rq s).cancel = true := by rw [pathChange, hop]; rfl
    rw [if_pos hcancels] at hruns
  · have hnone : pathDropped (pport rq 0) s = s := by rw [pathDropped, hrate]
    rw [hnone] at hruns
    refine ⟨pathChange rq s, _, congrArg Host.Outcome.next hruns, ?_, hcancels, rfl, rfl, ?_⟩
    · rw [sendCancel, sendMsg_tr2, modTr2_tr2]
    · rw [sendCancel, sendMsg_tr, modTr2_tr]
  · have hdropped : pathDropped (pport rq 0) s =
        reply 0x2804 rq₀ (pathRefused s.jrx.nodeId.toNat 5) (cancelRate (pport rq 0) s) := by
      simp only [pathDropped, hold, answerPath_waiting _ _ hrq]
    rw [hdropped] at hruns
    exact ⟨pathChange rq s, cancelRate (pport rq 0) s, congrArg Host.Outcome.next hruns, hcancels, rfl, rfl,
      cancelRate_rate ..⟩

theorem pathCommitTimeout_answers {p : LPort} {s : State} {r : RateChange} {rq : Req} (hrate : s.ports[p].tr2.rate_ = some r)
    (hrq : r.rq = some rq) :
    pathCommitTimeout p s = sendCancel p r (reply 0x2804 rq { st := .timeout } (cancelRate p s)) := by
  simp only [pathCommitTimeout, hrate, hrq, Option.isSome_some, if_true, answerPath_waiting _ _ hrq]

theorem pathTimeouts : Claims.PathTimeoutCompletes := fun p s _ _ hrate hrq =>
  ⟨_, _, congrArg Host.Outcome.next (pathCommitTimeout_answers hrate hrq), rfl, cancelRate_rate p s⟩

end Sys2Proof.Machine

open Sys2Proof Sys2Proof.Machine

/-- Settles O26: each operation of TRAIN_START by what its checks let run, the reports by their words, and PATH_COMMIT by
the record that it leaves: RATE schedules the change, which loses nothing that waits to be sent, and CANCEL and the timer
drop it. That a RETUNE waits for a pending commit, and that a CANCEL refuses the request that waited, are the model's readings
(logs 84 and 90). -/
theorem trainCommandsComplete : Obligations.TrainCommandsComplete := ⟨trainCommands, pathCommits, pathTimeouts⟩
end

section
/-! PROOF. Host lanes under an operation on one of them, and operations that each lane of a list has in its turn (R259, R265,
R282). -/

namespace Sys2Proof.Machine

/-! ### Turns -/

/-- What each operation of a list keeps, the list keeps. -/
theorem eachOf_holds {α : Type} {P : State → Prop} {l : List α} {f : α → State → State}
    (hP : ∀ y ∈ l, ∀ s, P s → P (f y s)) {s : State} (h : P s) : P (eachOf l f s) := by
  induction l generalizing s with
  | nil => exact h
  | cons y l ih => exact ih (fun z hz => hP z (List.mem_cons_of_mem y hz)) (hP y List.mem_cons_self s h)

/-- What the operation of one entry brings about, and those of the others keep, holds once each entry of the list has had its
turn. -/
theorem eachOf_turn {α : Type} {Q P : State → Prop} {l : List α} {f : α → State → State} {x : α} (hx : x ∈ l)
    (hl : l.Nodup) (hQ : ∀ y ≠ x, ∀ s, Q s → Q (f y s)) (hp : ∀ s, Q s → P (f x s))
    (hP : ∀ y ≠ x, ∀ s, P s → P (f y s)) {s : State} (h : Q s) : P (eachOf l f s) := by
  induction l generalizing s with
  | nil => exact absurd hx List.not_mem_nil
  | cons y l ih =>
    obtain ⟨hy, hl⟩ := List.nodup_cons.mp hl
    rcases List.mem_cons.mp hx with rfl | hx
    · exact eachOf_holds (fun z hz => hP z (ne_of_mem_of_not_mem hz hy)) (hp s h)
    · exact ih hx hl (hQ y (ne_of_mem_of_not_mem hx hy).symm s h)

/-! ### The lanes of a mask -/

theorem mem_lanesIn (mask : Word) (k : HLane) : k ∈ lanesIn mask ↔ bit mask k.val = true := by
  simp [lanesIn]

theorem lanesIn_nodup (mask : Word) : (lanesIn mask).Nodup := (List.nodup_finRange 32).filter _

/-- A lane outside the mask is as it was. -/
theorem lanesIn_outside {f : HLane → State → State} {mask : Word} {k : HLane}
    (hf : ∀ y ≠ k, ∀ s, (f y s).lanes[k] = s.lanes[k]) (h : bit mask k.val = false) (s : State) :
    (eachOf (lanesIn mask) f s).lanes[k] = s.lanes[k] := by
  refine eachOf_holds (P := fun t => t.lanes[k] = s.lanes[k]) (fun y hy t ht => ?_) rfl
  have hne : y ≠ k := fun hyk => by
    rw [hyk, mem_lanesIn, h] at hy
    exact Bool.false_ne_true hy
  exact (hf y hne t).trans ht

/-! ### A lane changed -/

theorem modLane_same (k : HLane) (f : Lane → Lane) (s : State) : (modLane k f s).lanes[k] = f s.lanes[k] := by
  rw [modLane_lanes, vmod_same]

theorem modLane_other {j k : HLane} (f : Lane → Lane) (s : State) (h : j ≠ k) :
    (modLane j f s).lanes[k] = s.lanes[k] := by
  rw [modLane_lanes, vmod_other _ _ _ _ h.symm]

/-- Two changes that agree on the lane as it is. -/
theorem modLane_congr (k : HLane) {f g : Lane → Lane} (s : State) (h : f s.lanes[k] = g s.lanes[k]) :
    modLane k f s = modLane k g s := by
  simp only [modLane, vmod, h]

/-- A change that leaves the lane as it is changes nothing. -/
theorem modLane_fixed (k : HLane) {f : Lane → Lane} (s : State) (h : f s.lanes[k] = s.lanes[k]) : modLane k f s = s := by
  have hlanes : vmod s.lanes k id = s.lanes := Vector.set_getElem_self k.isLt
  exact (modLane_congr k (g := id) s h).trans (congrArg (fun lanes => { s with lanes := lanes }) hlanes)

theorem modLane_only (k : HLane) (f : Lane → Lane) (s : State) : Claims.Only [.lanes] s (modLane k f s) := by
  intro x hx
  cases x <;> simp_all [Claims.Same]

theorem setAlarm_lanes (key : AlarmKey) (b : Nat) (on : Bool) (s : State) : (setAlarm key b on s).lanes = s.lanes := by
  simp only [setAlarm_keeps]

theorem alarmOn_modLane (k : HLane) (f : Lane → Lane) (s : State) (key : AlarmKey) (b : Nat) :
    alarmOn (modLane k f s) key b = alarmOn s key b := alarmOn_congr rfl key b

/-- A change of a lane with an alarm. -/
theorem setAlarm_modLane_only (key : AlarmKey) (b : Nat) (on : Bool) (k : HLane) (f : Lane → Lane) (s : State) :
    Claims.Only [.lanes, .alarms, .mbx] s (setAlarm key b on (modLane k f s)) :=
  only_trans (only_mono (modLane_only k f s) (by simp)) (only_mono (setAlarm_only_alarms key b on _) (by simp))

/-! ### HOST_CDR (R261, R287) -/

/-- A lane whose HOST_CDR is raised or cleared; a rise counts. -/
def Lane.withCdr (on : Bool) (l : Lane) : Lane :=
  { l with cdr := on, cdrLoss := if on && !l.cdr then l.cdrLoss + 1 else l.cdrLoss }

theorem setCdr_eq (k : HLane) (on : Bool) (s : State) :
    setCdr k on s = setAlarm (.host k) 1 on (modLane k (Lane.withCdr on) s) := rfl

theorem setCdr_same (k : HLane) (on : Bool) (s : State) : (setCdr k on s).lanes[k] = s.lanes[k].withCdr on := by
  simp only [setCdr_eq, setAlarm_lanes, modLane_same]

theorem setCdr_other {j k : HLane} (on : Bool) (s : State) (h : j ≠ k) : (setCdr j on s).lanes[k] = s.lanes[k] := by
  simp only [setCdr_eq, setAlarm_lanes, modLane_other _ _ h]

theorem setCdr_alarmOn (k : HLane) (on : Bool) (s : State) : alarmOn (setCdr k on s) (.host k) 1 = on :=
  alarmOn_setAlarm _ _ _ _ (by decide)

theorem setCdr_alarmOn_other {j k : HLane} (on : Bool) (b : Nat) (s : State) (h : j ≠ k) :
    alarmOn (setCdr j on s) (.host k) b = alarmOn s (.host k) b := by
  rw [setCdr_eq, alarmOn_setAlarm_other _ _ _ _ _ _ fun heq => h (AlarmKey.host.inj heq).symm, alarmOn_modLane]

theorem setCdr_only (k : HLane) (on : Bool) (s : State) : Claims.Only [.lanes, .alarms, .mbx] s (setCdr k on s) :=
  setAlarm_modLane_only _ _ _ k _ s

/-! ### The start of a training (R264, R265) -/

/-- A lane whose training begins at a moment: INIT_PRESET is its first request. -/
def Lane.begun (now : Nat) (l : Lane) : Lane :=
  { l with
    train := 1, ownReady := false, partnerReady := false, precodeRx := false, trainStart := now, ansOut := .none
    precodeAsked := false, atMax := 0, atMin := 0
    reqOut := if fld l.w1 15 8 = 0 then .none else .preset (fld l.w1 15 8) }

theorem beginTrain_eq (k : HLane) (s : State) : beginTrain k s = modLane k (Lane.begun s.sys.usec) s := rfl

/-! ### The counts of a checker (R282) -/

/-- A checker that is off or not locked counts nothing. -/
theorem prbsCount_idle {k : HLane} {s : State} (h : s.lanes[k].prbsChk = 0 ∨ s.lanes[k].prbsLock = false) :
    prbsCount k s = s := by
  have hoff : (s.lanes[k].prbsChk != 0 && s.lanes[k].prbsLock) = false := by
    rcases h with h | h
    · rw [h, bne_self_eq_false, Bool.false_and]
    · rw [h, Bool.and_false]
  rw [prbsCount, hoff, if_neg Bool.false_ne_true]

/-- A lane whose checker has counted `e` errors in `n` bits. -/
def Lane.counted (e n : Nat) (l : Lane) : Lane :=
  { l with prbsErr := l.prbsErr + BitVec.ofNat 64 e, prbsBits := l.prbsBits + BitVec.ofNat 64 n }

/-- A locked checker counts free values, of which the errors do not exceed the bits. -/
theorem prbsCount_locked {k : HLane} {s : State} (hchk : s.lanes[k].prbsChk ≠ 0) (hlock : s.lanes[k].prbsLock = true) :
    ∃ n e : Nat, e ≤ n ∧ prbsCount k s = tookFree (tookFree (modLane k (Lane.counted e n) s)) := by
  refine ⟨Config.freeNat s.free, Config.freeNat (s.free + 1) % (Config.freeNat s.free + 1),
    Nat.le_of_lt_succ (Nat.mod_lt _ (Nat.succ_pos _)), ?_⟩
  rw [prbsCount, hlock, if_pos (by rw [Bool.and_true]; exact bne_iff_ne.mpr hchk)]
  rfl

/-- The counts of its checker aside, a count changes nothing of a lane, and nothing of the others. -/
theorem prbsCount_lanes (k : HLane) (s : State) :
    ∃ e n, (prbsCount k s).lanes = vmod s.lanes k (Lane.counted e n) := by
  by_cases h : s.lanes[k].prbsChk = 0 ∨ s.lanes[k].prbsLock = false
  · have hnone : Lane.counted 0 0 s.lanes[k] = s.lanes[k] := by simp [Lane.counted]
    refine ⟨0, 0, ?_⟩
    rw [prbsCount_idle h, vmod, hnone]
    exact (Vector.set_getElem_self k.isLt).symm
  · obtain ⟨hchk, hlock⟩ := not_or.mp h
    obtain ⟨n, e, -, heq⟩ := prbsCount_locked hchk (by simpa using hlock)
    exact ⟨e, n, congrArg State.lanes heq⟩

theorem prbsCount_same (k : HLane) (s : State) : ∃ e n, (prbsCount k s).lanes[k] = s.lanes[k].counted e n := by
  obtain ⟨e, n, h⟩ := prbsCount_lanes k s
  exact ⟨e, n, by rw [h, vmod_same]⟩

theorem prbsCount_other {j k : HLane} (s : State) (h : j ≠ k) : (prbsCount j s).lanes[k] = s.lanes[k] := by
  obtain ⟨e, n, heq⟩ := prbsCount_lanes j s
  rw [heq, vmod_other _ _ _ _ h.symm]

theorem prbsCount_only (k : HLane) (s : State) : Claims.Only [.lanes, .free] s (prbsCount k s) := by
  intro x hx
  cases x <;> simp_all [Claims.Same]

end Sys2Proof.Machine
end

section
/-! PROOF. O29: the host lane commands and reports (R13, R262 to R264, R282, R284 to R287). -/

namespace Sys2Proof.Machine

/-! ### HOST_LANE_CONFIG (R262, R263, R284) -/

/-- A lane with the words of a HOST_LANE_CONFIG, before its adaptation restarts. -/
def Lane.takes (w1 w2 w3 : Word) (l : Lane) : Lane :=
  { l with
    w1 := w1, w2 := w2, w3 := w3
    taps := if bit w1 25 then l.taps else staticTaps w2 w3
    train := if bit w1 25 then l.train else 0 }

/-- A change of RATE, MLSD or RX_INV (R262). -/
def readapts (old new : Word) : Bool :=
  fld old 31 30 != fld new 31 30 || bit old 26 != bit new 26 || bit old 28 != bit new 28

theorem readapts_eq_true (old new : Word) : readapts old new = true ↔
    fld old 31 30 ≠ fld new 31 30 ∨ bit old 26 ≠ bit new 26 ∨ bit old 28 ≠ bit new 28 := by
  simp only [readapts, Bool.or_eq_true, bne_iff_ne, ne_eq, or_assoc]

/-- A configured lane. -/
def Lane.configured (w1 w2 w3 : Word) (l : Lane) : Lane :=
  if readapts l.w1 w1 then (l.takes w1 w2 w3).withCdr true else l.takes w1 w2 w3

theorem configLane_eq (w1 w2 w3 : Word) (k : HLane) (s : State) : configLane w1 w2 w3 k s =
    if readapts s.lanes[k].w1 w1 then setCdr k true (modLane k (Lane.takes w1 w2 w3) s)
    else modLane k (Lane.takes w1 w2 w3) s := rfl

theorem configLane_same (w1 w2 w3 : Word) (k : HLane) (s : State) :
    (configLane w1 w2 w3 k s).lanes[k] = s.lanes[k].configured w1 w2 w3 := by
  rw [configLane_eq, Lane.configured]
  split_ifs
  · rw [setCdr_same, modLane_same]
  · rw [modLane_same]

theorem configLane_other (w1 w2 w3 : Word) {j k : HLane} (s : State) (h : j ≠ k) :
    (configLane w1 w2 w3 j s).lanes[k] = s.lanes[k] := by
  rw [configLane_eq]
  split_ifs
  · rw [setCdr_other _ _ h, modLane_other _ _ h]
  · rw [modLane_other _ _ h]

theorem configLane_alarmOn (w1 w2 w3 : Word) (k : HLane) (s : State) (h : readapts s.lanes[k].w1 w1 = true) :
    alarmOn (configLane w1 w2 w3 k s) (.host k) 1 = true := by
  rw [configLane_eq, if_pos h, setCdr_alarmOn]

theorem configLane_alarmOn_other (w1 w2 w3 : Word) {j k : HLane} (s : State) (h : j ≠ k) :
    alarmOn (configLane w1 w2 w3 j s) (.host k) 1 = alarmOn s (.host k) 1 := by
  rw [configLane_eq]
  split_ifs
  · rw [setCdr_alarmOn_other _ _ _ h, alarmOn_modLane]
  · rw [alarmOn_modLane]

theorem configLane_only (w1 w2 w3 : Word) (k : HLane) (s : State) :
    Claims.Only [.lanes, .alarms, .mbx] s (configLane w1 w2 w3 k s) := by
  have htakes : Claims.Only [.lanes, .alarms, .mbx] s (modLane k (Lane.takes w1 w2 w3) s) :=
    only_mono (modLane_only k _ s) (by simp)
  rw [configLane_eq]
  exact only_ite (only_trans htakes (setCdr_only k true _)) htakes

/-- What a HOST_LANE_CONFIG leaves of a lane of its mask. -/
theorem lanesConfigured (rq : Req) (s : State) (k : HLane) (h : bit (par rq 0) k.val = true) :
    let u := eachOf (lanesIn (par rq 0)) (configLane (par rq 1) (par rq 2) (par rq 3)) s
    u.lanes[k] = s.lanes[k].configured (par rq 1) (par rq 2) (par rq 3) ∧
      (readapts s.lanes[k].w1 (par rq 1) = true → alarmOn u (.host k) 1 = true) := by
  refine eachOf_turn (Q := fun t => t.lanes[k] = s.lanes[k])
    (P := fun t => t.lanes[k] = s.lanes[k].configured (par rq 1) (par rq 2) (par rq 3) ∧
      (readapts s.lanes[k].w1 (par rq 1) = true → alarmOn t (.host k) 1 = true))
    ((mem_lanesIn _ k).mpr h) (lanesIn_nodup _) (fun y hy t ht => ?_) (fun t ht => ⟨?_, fun hadapt => ?_⟩)
    (fun y hy t ht => ?_) rfl
  · rw [configLane_other _ _ _ t hy, ht]
  · rw [configLane_same, ht]
  · exact configLane_alarmOn _ _ _ k t (by rw [ht]; exact hadapt)
  · rw [configLane_other _ _ _ t hy, configLane_alarmOn_other _ _ _ t hy]
    exact ht

/-- The words, taps and training state of a configured lane. -/
theorem Lane.configured_words (w1 w2 w3 : Word) (l : Lane) :
    (l.configured w1 w2 w3).w1 = w1 ∧ (l.configured w1 w2 w3).w2 = w2 ∧ (l.configured w1 w2 w3).w3 = w3 ∧
    (l.configured w1 w2 w3).taps = (if bit w1 25 then l.taps else staticTaps w2 w3) ∧
    (l.configured w1 w2 w3).train = (if bit w1 25 then l.train else 0) ∧
    (readapts l.w1 w1 = true → (l.configured w1 w2 w3).cdr = true) := by
  by_cases hadapt : readapts l.w1 w1 = true
  · rw [Lane.configured, if_pos hadapt]
    exact ⟨rfl, rfl, rfl, rfl, rfl, fun _ => rfl⟩
  · rw [Lane.configured, if_neg hadapt]
    exact ⟨rfl, rfl, rfl, rfl, rfl, fun h => absurd h hadapt⟩

theorem hostLaneConfigCompletes : Claims.HostLaneConfigCompletes := by
  intro rq s hchecks hstates hd
  refine ⟨_, congrArg Host.Outcome.next (commandOk_runs 0x3001 rq _ _ _ s hchecks hd hstates),
    eachOf_only (configLane_only _ _ _) s, fun k => ⟨fun hk => ?_, fun hk => ?_⟩⟩
  · obtain ⟨hlane, halarm⟩ := lanesConfigured rq s k hk
    obtain ⟨hw1, hw2, hw3, htaps, htrain, hcdr⟩ := s.lanes[k].configured_words (par rq 1) (par rq 2) (par rq 3)
    rw [hlane]
    exact ⟨hw1, hw2, hw3, htaps, htrain, fun h =>
      have hadapt := (readapts_eq_true _ _).mpr h
      ⟨hcdr hadapt, halarm hadapt⟩⟩
  · exact lanesIn_outside (fun y hy t => configLane_other _ _ _ t hy) hk s

/-! ### HOST_TRAIN and PRBS_SET (R264, R282, R285) -/

/-- What an operation of HOST_TRAIN leaves of a lane at a moment. -/
def Lane.trained (op now : Nat) (l : Lane) : Lane :=
  if op = 1 then (if l.train = 1 ∨ l.train = 3 then { l with train := 4 } else l)
  else if op = 0 ∧ l.train = 1 then l else l.begun now

/-- What an operation of HOST_TRAIN does to a lane. -/
def trainStep (op : Nat) (k : HLane) (s : State) : State :=
  match op with
  | 0 => if s.lanes[k].train == 1 then s else beginTrain k s
  | 1 => modLane k (fun x => if x.train == 1 || x.train == 3 then { x with train := 4 } else x) s
  | _ => beginTrain k s

theorem trainStep_eq (op : Nat) (k : HLane) (s : State) :
    trainStep op k s = modLane k (Lane.trained op s.sys.usec) s := by
  match op with
  | 0 =>
    by_cases h : s.lanes[k].train = 1
    · have hstays : Lane.trained 0 s.sys.usec s.lanes[k] = s.lanes[k] := by
        rw [Lane.trained, if_neg (by decide), if_pos ⟨rfl, h⟩]
      rw [modLane_fixed k s hstays]
      exact if_pos (beq_iff_eq.mpr h)
    · have hbegins : Lane.trained 0 s.sys.usec s.lanes[k] = s.lanes[k].begun s.sys.usec := by
        rw [Lane.trained, if_neg (by decide), if_neg fun hb => h hb.2]
      rw [modLane_congr k s hbegins]
      exact if_neg fun hb => h (beq_iff_eq.mp hb)
  | 1 =>
    refine modLane_congr k s ?_
    simp only [Lane.trained, if_true, Bool.or_eq_true, beq_iff_eq]
  | n + 2 =>
    have hbegins : Lane.trained (n + 2) s.sys.usec s.lanes[k] = s.lanes[k].begun s.sys.usec := by
      rw [Lane.trained, if_neg (by simp), if_neg fun hb => absurd hb.1 (by simp)]
    exact (modLane_congr k s hbegins).symm

theorem hostTrain_runs {rq : Req} {s : State} (hd : Claims.Awake 0x3002 rq s) (hzero : pf rq 1 29 0 = 0)
    (hop : pf rq 1 31 30 ≤ 2) (hmay : pf rq 1 31 30 ≠ 1 → ∀ k : HLane, bit (par rq 0) k.val = true →
      fld s.lanes[k].w1 31 30 = 0 ∧ bit s.lanes[k].w1 25 = true ∧ bit s.lanes[k].w1 29 = true) :
    Claims.Runs (.hostTrain rq) s
      (reply 0x3002 rq (okay []) (eachOf (lanesIn (par rq 0)) (trainStep (pf rq 1 31 30)) s)) := by
  have hnone : (pf rq 1 31 30 != 1 && (lanesIn (par rq 0)).any fun k => !mayTrain s.lanes[k]) = false := by
    rw [Bool.and_eq_false_imp, bne_iff_ne]
    refine fun hne => List.any_eq_false.mpr fun k hk => ?_
    obtain ⟨hrate, htrainEn, htxEn⟩ := hmay hne k ((mem_lanesIn _ k).mp hk)
    rw [mayTrain, trainEn, txEn, hrate, htrainEn, htxEn]
    decide
  refine congrArg Host.Outcome.next (commandOk_runs 0x3002 rq _ _ _ s (firstFail_badAt_one _ _ ?_) hd ?_)
  · rw [hzero, beq_false_of_ne (by omega)]
    rfl
  · rw [firstFail_cons, hnone]
    rfl

/-- The lanes of the mask take the operation, all at one moment. -/
theorem lanesTrained (op : Nat) (mask : Word) (s : State) (k : HLane) (h : bit mask k.val = true) :
    (eachOf (lanesIn mask) (trainStep op) s).lanes[k] = s.lanes[k].trained op s.sys.usec := by
  refine (eachOf_turn (Q := fun t => t.lanes[k] = s.lanes[k] ∧ t.sys = s.sys)
    (P := fun t => t.lanes[k] = s.lanes[k].trained op s.sys.usec)
    ((mem_lanesIn _ k).mpr h) (lanesIn_nodup _) (fun y hy t ht => ?_) (fun t ht => ?_) (fun y hy t ht => ?_) ⟨rfl, rfl⟩)
  · rw [trainStep_eq, modLane_other _ _ hy, modLane_sys]
    exact ht
  · obtain ⟨hlane, hsys⟩ := ht
    rw [trainStep_eq, modLane_same, hlane, hsys]
  · rw [trainStep_eq, modLane_other _ _ hy, ht]

theorem hostTrains {rq : Req} {s : State} (hd : Claims.Awake 0x3002 rq s) (hzero : pf rq 1 29 0 = 0) (op : Nat)
    (hpf : op = pf rq 1 31 30) (hop : op ≤ 2)
    (hmay : op ≠ 1 → ∀ k : HLane, bit (par rq 0) k.val = true → fld s.lanes[k].w1 31 30 = 0 ∧
      bit s.lanes[k].w1 25 = true ∧ bit s.lanes[k].w1 29 = true) :
    ∃ u, Claims.Runs (.hostTrain rq) s (reply 0x3002 rq (okay []) u) ∧ Claims.Only [.lanes] s u ∧
      ∀ k : HLane, u.lanes[k] =
        if bit (par rq 0) k.val = false then s.lanes[k] else s.lanes[k].trained op s.sys.usec := by
  subst hpf
  refine ⟨_, hostTrain_runs hd hzero hop hmay,
    eachOf_only (fun k t => by rw [trainStep_eq]; exact modLane_only k _ t) s, fun k => ?_⟩
  split_ifs with hk
  · exact lanesIn_outside (fun y hy t => by rw [trainStep_eq, modLane_other _ _ hy]) hk s
  · exact lanesTrained _ _ s k (by simpa using hk)

/-- A lane whose generator and checker are set. -/
def Lane.prbs (gen chk : Nat) (l : Lane) : Lane :=
  { l with
    prbsGen := BitVec.ofNat 2 gen, prbsChk := BitVec.ofNat 2 chk
    prbsLock := l.prbsLock && l.prbsChk.toNat == chk && chk != 0 }

/-- What PRBS_SET does to a lane: the counts are taken before its checker changes (R282). -/
def prbsStep (gen chk : Nat) (k : HLane) (s : State) : State := modLane k (Lane.prbs gen chk) (prbsCount k s)

theorem prbsStep_same (gen chk : Nat) (k : HLane) (s : State) :
    ∃ e n, (prbsStep gen chk k s).lanes[k] = (s.lanes[k].counted e n).prbs gen chk := by
  obtain ⟨e, n, h⟩ := prbsCount_same k s
  exact ⟨e, n, by rw [prbsStep, modLane_same, h]⟩

theorem prbsStep_other (gen chk : Nat) {j k : HLane} (s : State) (h : j ≠ k) :
    (prbsStep gen chk j s).lanes[k] = s.lanes[k] := by
  rw [prbsStep, modLane_other _ _ h, prbsCount_other _ h]

theorem prbsStep_only (gen chk : Nat) (k : HLane) (s : State) : Claims.Only [.lanes, .free] s (prbsStep gen chk k s) :=
  only_trans (prbsCount_only k s) (only_mono (modLane_only k _ _) (by simp))

theorem prbsSet_runs {rq : Req} {s : State} (hd : Claims.Awake 0xF003 rq s) (hzero : pf rq 0 27 0 = 0)
    (hgen : pf rq 0 31 30 ≤ 2) (hchk : pf rq 0 29 28 ≤ 2) (hfree : ∀ k : HLane, bit (par rq 1) k.val = true →
      laneLooped s k = false ∧ (pf rq 0 31 30 = 0 ∨ laneClient s k = none)) :
    Claims.Runs (.prbsSet rq) s (reply 0xF003 rq (okay [])
      (eachOf (lanesIn (par rq 1)) (prbsStep (pf rq 0 31 30) (pf rq 0 29 28)) s)) := by
  have hnone : ((lanesIn (par rq 1)).any fun k =>
      laneLooped s k || (pf rq 0 31 30 != 0 && (laneClient s k).isSome)) = false := by
    refine List.any_eq_false.mpr fun k hk => ?_
    obtain ⟨hloop, hclient⟩ := hfree k ((mem_lanesIn _ k).mp hk)
    rcases hclient with h | h <;> simp [hloop, h]
  refine congrArg Host.Outcome.next (commandOk_runs 0xF003 rq _ _ _ s (firstFail_badAt_one _ _ ?_) hd ?_)
  · rw [hzero, beq_false_of_ne (by omega), beq_false_of_ne (by omega)]
    rfl
  · rw [firstFail_cons, hnone]
    rfl

theorem prbsSets {rq : Req} {s : State} (hd : Claims.Awake 0xF003 rq s) (hzero : pf rq 0 27 0 = 0)
    (hgen : pf rq 0 31 30 ≤ 2) (hchk : pf rq 0 29 28 ≤ 2) (hfree : ∀ k : HLane, bit (par rq 1) k.val = true →
      laneLooped s k = false ∧ (pf rq 0 31 30 = 0 ∨ laneClient s k = none)) :
    ∃ u, Claims.Runs (.prbsSet rq) s (reply 0xF003 rq (okay []) u) ∧ Claims.Only [.lanes, .free] s u ∧
      ∀ k : HLane, (bit (par rq 1) k.val = false → u.lanes[k] = s.lanes[k]) ∧
        (bit (par rq 1) k.val = true →
          ∃ e n, u.lanes[k] = (s.lanes[k].counted e n).prbs (pf rq 0 31 30) (pf rq 0 29 28)) := by
  refine ⟨_, prbsSet_runs hd hzero hgen hchk hfree, eachOf_only (prbsStep_only _ _) s, fun k =>
    ⟨fun hk => lanesIn_outside (fun y hy t => prbsStep_other _ _ t hy) hk s, fun hk => ?_⟩⟩
  refine eachOf_turn (Q := fun t => t.lanes[k] = s.lanes[k])
    (P := fun t => ∃ e n, t.lanes[k] = (s.lanes[k].counted e n).prbs (pf rq 0 31 30) (pf rq 0 29 28))
    ((mem_lanesIn _ k).mpr hk) (lanesIn_nodup _) (fun y hy t ht => ?_) (fun t ht => ?_) (fun y hy t ht => ?_) rfl
  · rw [prbsStep_other _ _ t hy, ht]
  · rw [← ht]
    exact prbsStep_same _ _ k t
  · rw [prbsStep_other _ _ t hy]
    exact ht

/-- A lane whose generator and checker are set; the lock outlasts only its own pattern. -/
theorem Lane.prbs_counted (rq : Req) (e n : Nat) (l : Lane) :
    let x := (l.counted e n).prbs (pf rq 0 31 30) (pf rq 0 29 28)
    x.prbsGen.toNat = pf rq 0 31 30 ∧ x.prbsChk.toNat = pf rq 0 29 28 ∧ x.w1 = l.w1 ∧
      (l.prbsChk.toNat ≠ pf rq 0 29 28 → x.prbsLock = false) := by
  refine ⟨ofNat_pf_toNat rq 0 31 30 2 rfl, ofNat_pf_toNat rq 0 29 28 2 rfl, rfl, fun h => ?_⟩
  show (l.prbsLock && l.prbsChk.toNat == pf rq 0 29 28 && pf rq 0 29 28 != 0) = false
  rw [beq_false_of_ne h, Bool.and_false, Bool.false_and]

theorem hostTrainCompletes : Claims.HostTrainCompletes := by
  intro rq s
  refine ⟨fun hd hzero op hpf hop hmay => ?_, fun hd hzero hgen hchk hfree => ?_⟩
  · obtain ⟨u, hrun, honly, hlanes⟩ := hostTrains hd hzero op hpf hop hmay
    exact ⟨u, hrun, honly, hlanes⟩
  · obtain ⟨u, hrun, honly, hlanes⟩ := prbsSets hd hzero hgen hchk hfree
    refine ⟨u, hrun, honly, fun k => ?_⟩
    obtain ⟨hother, hset⟩ := hlanes k
    refine ⟨hother, fun hk => ?_⟩
    obtain ⟨e, n, hlane⟩ := hset hk
    rw [hlane]
    exact Lane.prbs_counted rq e n s.lanes[k]

/-! ### HOST_STATUS and HOST_PM_READ (R286, R287) -/

theorem hostWords_lane (s : State) (k : HLane) :
    (hostWords s k).length = 6 ∧ (hostWords s k)[2]? = some s.lanes[k].preFec ∧
    fld ((hostWords s k).getD 0 0) 31 30 = fld s.lanes[k].w1 31 30 ∧
    fld ((hostWords s k).getD 0 0) 26 24 = s.lanes[k].train.toNat ∧
    bit ((hostWords s k).getD 0 0) 29 = !s.lanes[k].los ∧ bit ((hostWords s k).getD 0 0) 28 = !s.lanes[k].cdr := by
  refine ⟨rfl, rfl, ?_, ?_, ?_, ?_⟩
  · exact (fld_word 31 30 (fld s.lanes[k].w1 31 30) _ rfl (by simp)).trans (Nat.mod_mod _ _)
  · exact (fld_word 26 24 _ _ rfl (by simp)).trans (Nat.mod_eq_of_lt s.lanes[k].train.isLt)
  · exact bit_word 29 _ _ rfl (by simp)
  · exact bit_word 28 _ _ rfl (by simp)

theorem hostStatus_reports {rq : Req} {s : State} (hd : Claims.Awake 0x3003 rq s) (hzero : pf rq 0 26 0 = 0) :
    Claims.Reports (.hostStatus rq) .device 0x3003 rq
      (tookFree (reply 0x3003 rq (okay (hostWords s (laneOf rq))) s)) s :=
  reports_of_report _ _ _ _ _ (hostStatusAnswer rq) s rfl
    (firstFail_badAt_one (pf rq 0 26 0 != 0) 0 (by rw [hzero]; rfl)) hd

theorem hostCounters_length (s : State) (k : HLane) : (hostCounters s k).length = 30 := by
  unfold hostCounters
  cases laneClient s k <;> rfl

/-- Words 4 to 7 of HOST_PM_READ. -/
theorem hostCounters_events (s : State) (k : HLane) : ((hostCounters s k).drop 4).take 4 =
    [s.lanes[k].losEvt, s.lanes[k].cdrLoss, s.lanes[k].trainFail, s.lanes[k].trainDone] := rfl

theorem hostCounters_counted (s : State) (k : HLane) : ((hostCounters (prbsCount k s) k).drop 4).take 4 =
    [s.lanes[k].losEvt, s.lanes[k].cdrLoss, s.lanes[k].trainFail, s.lanes[k].trainDone] := by
  obtain ⟨e, n, h⟩ := prbsCount_same k s
  rw [hostCounters_events, h]
  rfl

theorem hostPmRead_reports {rq : Req} {s : State} (hd : Claims.Awake 0x3004 rq s) (hzero : pf rq 0 26 24 = 0)
    (hroom : pf rq 0 23 0 + 30 ≤ bulkWords) :
    Claims.Reports (.hostPmRead rq) .device 0x3004 rq (reply 0x3004 rq (okay [30])
      (putBulk (pf rq 0 23 0) (hostCounters (prbsCount (laneOf rq) s) (laneOf rq)) (prbsCount (laneOf rq) s))) s := by
  have hreports := reports_of_report (.hostPmRead rq) .device 0x3004 rq _ (hostPmAnswer rq) s rfl
    (firstFail_badAt_one _ 0 (by rw [hzero, bulkBad_eq_false _ _ hroom]; rfl)) hd
  rwa [hostPmAnswer, answerBulk_eq 0x3004 rq _ _ _ 30 (hostCounters_length _ _)] at hreports

theorem hostReportsComplete : Claims.HostReportsComplete := by
  intro rq s
  refine ⟨fun hd hzero => ?_, fun hd hzero hroom => ?_⟩
  · obtain ⟨hlen, hfec, hrate, htrain, hlos, hcdr⟩ := hostWords_lane s (laneOf rq)
    exact ⟨_, hlen, hfec, hrate, htrain, hlos, hcdr, hostStatus_reports hd hzero⟩
  · exact ⟨_, _, hostCounters_length _ _, hostCounters_counted s (laneOf rq), hostPmRead_reports hd hzero hroom,
      prbsCount_idle, prbsCount_locked⟩

end Sys2Proof.Machine

open Sys2Proof Sys2Proof.Machine

/-- Settles O29: each lane of a mask takes the operation once and the others keep it, and the reports wait for their boundary
with the model's own words. That START begins training on a failed lane that awaits its retry, and that the counts of a
checker are taken at the read of HOST_PM_READ, are the model's choices (logs 97 and 146). -/
theorem hostCommandsComplete : Obligations.HostCommandsComplete :=
  ⟨hostLaneConfigCompletes, hostTrainCompletes, hostReportsComplete⟩
end

section
/-! PROOF. O30: the events of host lanes and of clients (R261, R264, R265, R267 to R270, R272, R282, R457). -/

namespace Sys2Proof.Machine

/-! ### Signal and clock (R261, R265, R272) -/

/-- A lane that has lost its signal; a loss counts once. -/
def Lane.lost (l : Lane) : Lane := { l with los := true, losEvt := if l.los then l.losEvt else l.losEvt + 1 }

theorem hostLos_eq (k : HLane) (s : State) : hostLos k s = setAlarm (.host k) 0 true (modLane k Lane.lost s) := by
  refine congrArg (setAlarm (.host k) 0 true) (modLane_congr k s ?_)
  cases h : s.lanes[k].los <;> simp only [Lane.lost, h, Bool.not_false, Bool.not_true, Bool.false_eq_true, if_true, if_false]

theorem hostLos_acts (k : HLane) (s : State) :
    (hostLos k s).lanes[k] = s.lanes[k].lost ∧ alarmOn (hostLos k s) (.host k) 0 = true ∧
      Claims.Only [.lanes, .alarms, .mbx] s (hostLos k s) := by
  rw [hostLos_eq]
  exact ⟨by rw [setAlarm_lanes, modLane_same], alarmOn_setAlarm _ _ _ _ (by decide), setAlarm_modLane_only _ _ _ k _ s⟩

theorem trainLane_eq (k : HLane) (s : State) : trainLane k s =
    if mayTrain s.lanes[k] then modLane k (Lane.begun s.sys.usec) s else s := by
  have hmay : (trainEn s.lanes[k] && txEn s.lanes[k] && fld s.lanes[k].w1 31 30 == 0) = mayTrain s.lanes[k] := by
    rw [mayTrain, Bool.and_comm, Bool.and_assoc]
  rw [← hmay]
  rfl

/-- A training that begins by itself leaves the words and the signal of its lane. -/
theorem trainLane_same (k : HLane) (s : State) :
    (trainLane k s).lanes[k].w1 = s.lanes[k].w1 ∧ (trainLane k s).lanes[k].los = s.lanes[k].los := by
  rw [trainLane_eq]
  split_ifs
  · rw [modLane_same]
    exact ⟨rfl, rfl⟩
  · exact ⟨rfl, rfl⟩

theorem trainLane_only (k : HLane) (s : State) : Claims.Only [.lanes] s (trainLane k s) := by
  rw [trainLane_eq]
  exact only_ite (modLane_only k _ s) (only_refl _ s)

/-- The state in which HOST_LOS has cleared. -/
def signalBack (k : HLane) (s : State) : State := setAlarm (.host k) 0 false (modLane k (fun l => { l with los := false }) s)

theorem signalBack_same (k : HLane) (s : State) : (signalBack k s).lanes[k] = { s.lanes[k] with los := false } := by
  rw [signalBack, setAlarm_lanes, modLane_same]

theorem signalBack_alarmOn (k : HLane) (s : State) : alarmOn (signalBack k s) (.host k) 0 = false :=
  alarmOn_setAlarm _ _ _ _ (by decide)

theorem signalBack_only (k : HLane) (s : State) : Claims.Only [.lanes, .alarms, .mbx] s (signalBack k s) :=
  setAlarm_modLane_only _ _ _ k _ s

/-- The same with the training that a lane with TRAIN_EN begins. -/
def signalTaken (k : HLane) (s : State) : State :=
  if isOn (signalBack k s) (.ho (octet k)) then trainLane k (signalBack k s) else signalBack k s

theorem signalTaken_same (k : HLane) (s : State) :
    (signalTaken k s).lanes[k].w1 = s.lanes[k].w1 ∧ (signalTaken k s).lanes[k].los = false := by
  have htrain := trainLane_same k (signalBack k s)
  rw [signalBack_same] at htrain
  rw [signalTaken]
  split_ifs
  · exact htrain
  · rw [signalBack_same]
    exact ⟨rfl, rfl⟩

theorem signalTaken_alarmOn (k : HLane) (s : State) : alarmOn (signalTaken k s) (.host k) 0 = false := by
  rw [signalTaken]
  split_ifs
  · exact (alarmOn_congr (by simp only [trainLane_keeps]) _ _).trans (signalBack_alarmOn k s)
  · exact signalBack_alarmOn k s

theorem signalTaken_only (k : HLane) (s : State) : Claims.Only [.lanes, .alarms, .mbx] s (signalTaken k s) :=
  only_ite (only_trans (signalBack_only k s) (only_mono (trainLane_only k _) (by simp))) (signalBack_only k s)

/-- A lane that wakes nothing (R283). -/
theorem hostLosClear_quiet {k : HLane} {s : State} (h : bit s.lanes[k].w1 23 = false) :
    hostLosClear k s = signalTaken k s := by
  have hword : bit (signalTaken k s).lanes[k].w1 23 = false := by rw [(signalTaken_same k s).1, h]
  have hwakes : hostLosClear k s =
      if bit (signalTaken k s).lanes[k].w1 23 then profileWake 2 (BitVec.ofNat 6 k.val) (signalTaken k s)
      else signalTaken k s := rfl
  rw [hwakes, hword, if_neg Bool.false_ne_true]

/-! ### Test patterns (R282) -/

/-- A checker that has locked, or has lost its lock. -/
def Lane.locks (locked : Bool) (l : Lane) : Lane := { l with prbsLock := locked && l.prbsChk != 0 }

theorem prbsLock_eq (k : HLane) (locked : Bool) (s : State) :
    prbsLock k locked s = modLane k (Lane.locks locked) (prbsCount k s) := rfl

theorem prbsLock_acts (k : HLane) (locked : Bool) (s : State) :
    (∃ e n, (prbsLock k locked s).lanes[k] = (s.lanes[k].counted e n).locks locked) ∧
      Claims.Only [.lanes, .free] s (prbsLock k locked s) ∧
      (s.lanes[k].prbsChk = 0 ∨ s.lanes[k].prbsLock = false → (prbsLock k locked s).lanes[k] = s.lanes[k].locks locked) := by
  rw [prbsLock_eq, modLane_same]
  refine ⟨?_, only_trans (prbsCount_only k s) (only_mono (modLane_only k _ _) (by simp)), fun h => ?_⟩
  · obtain ⟨e, n, h⟩ := prbsCount_same k s
    exact ⟨e, n, by rw [h]⟩
  · rw [prbsCount_idle h]

/-! ### Training frames (R264, R265) -/

/-- The parts of a lane that decide whether its training ends. -/
def Lane.ends (l : Lane) : Bool := l.train == 1 && l.ownReady && l.partnerReady

theorem trainEnds_eq (k : HLane) (s : State) : trainEnds k s =
    if s.lanes[k].ends then setAlarm (.host k) 4 false (modLane k (fun l => { l with
      train := 2, trainDone := l.trainDone + 1, precodeRx := bit l.w1 24
      trainTime := BitVec.ofNat 16 ((s.sys.usec - l.trainStart) / 1000) }) s)
    else s := rfl

/-- While one side has not declared receiver ready the training goes on. -/
theorem trainEnds_waits {k : HLane} {s : State} (h : s.lanes[k].ownReady = false ∨ s.lanes[k].partnerReady = false) :
    trainEnds k s = s := by
  rw [trainEnds_eq, if_neg]
  rcases h with h | h <;> simp only [Lane.ends, h, Bool.and_false, Bool.false_and, Bool.false_eq_true, not_false_eq_true]

theorem trainEnds_acts {k : HLane} {s : State} (h : s.lanes[k].ends = true) :
    (trainEnds k s).lanes[k].train = 2 ∧ (trainEnds k s).lanes[k].trainDone = s.lanes[k].trainDone + 1 ∧
      alarmOn (trainEnds k s) (.host k) 4 = false := by
  rw [trainEnds_eq, if_pos h, setAlarm_lanes, modLane_same]
  exact ⟨rfl, rfl, alarmOn_setAlarm _ _ _ _ (by decide)⟩

/-- What an answered request may change: it leaves the declarations of receiver ready. -/
def Lane.ready (l : Lane) : Bool × Bool := (l.ownReady, l.partnerReady)

theorem tryTaps_ready (l : Lane) (t : Vector Int 6) : (tryTaps l t).ready = l.ready := by
  unfold tryTaps
  split <;> rfl

theorem trainRequest_ready (r : TrainReq) (l : Lane) : (trainRequest r l).ready = l.ready := by
  cases r with
  | inc i => exact tryTaps_ready ..
  | dec i => exact tryTaps_ready ..
  | none | preset k | precode on | outside => rfl

theorem noteLimit_ready (ans : TrainAns) (l : Lane) : (noteLimit ans l).ready = l.ready := by
  unfold noteLimit
  split
  · split <;> rfl
  · rfl

theorem nextRequest_ready (ans : TrainAns) (choice : Nat) (l : Lane) : (nextRequest ans choice l).ready = l.ready := by
  rw [← noteLimit_ready ans l, nextRequest]
  split_ifs <;> rfl

/-- A frame after which one side is not ready lets the training go on. -/
theorem hostTrainingFrame_waits {k : HLane} (r : TrainReq) (ans : TrainAns) {ready : Bool} {s : State}
    (htrain : s.lanes[k].train = 1)
    (hwait : s.lanes[k].ownReady = false ∨ (s.lanes[k].partnerReady = false ∧ ready = false)) :
    hostTrainingFrame k r ans ready s = tookFree (modLane k (fun l =>
      nextRequest ans (Config.freeNat s.free) { trainRequest r l with partnerReady := l.partnerReady || ready }) s) := by
  rw [hostTrainingFrame, if_pos (beq_iff_eq.mpr htrain)]
  refine congrArg tookFree (trainEnds_waits ?_)
  rw [modLane_same]
  have hnext := nextRequest_ready ans (Config.freeNat s.free)
    { trainRequest r s.lanes[k] with partnerReady := s.lanes[k].partnerReady || ready }
  have hown := congrArg Prod.fst (trainRequest_ready r s.lanes[k])
  rcases hwait with h | ⟨hpartner, hready⟩
  · exact .inl ((congrArg Prod.fst hnext).trans (hown.trans h))
  · refine .inr ((congrArg Prod.snd hnext).trans ?_)
    rw [Lane.ready, hpartner, hready]
    rfl

/-- A tap beyond the limits of R263 stays. -/
theorem tryTaps_limit {l : Lane} {t : Vector Int 6} (h : 64 < tapSum t) : tryTaps l t = { l with ansOut := .atLimit } := by
  rw [tryTaps, decide_eq_false (Nat.not_le.mpr h), Bool.false_and, if_neg Bool.false_ne_true]

theorem hostReceiverReady_eq {k : HLane} {s : State} (htrain : s.lanes[k].train = 1) :
    hostReceiverReady k s = trainEnds k (modLane k (fun l => { l with ownReady := true, reqOut := .none }) s) :=
  if_pos (beq_iff_eq.mpr htrain)

theorem hostReceiverReady_waits {k : HLane} {s : State} (htrain : s.lanes[k].train = 1)
    (hpartner : s.lanes[k].partnerReady = false) :
    hostReceiverReady k s = modLane k (fun l => { l with ownReady := true, reqOut := .none }) s := by
  rw [hostReceiverReady_eq htrain]
  refine trainEnds_waits (.inr ?_)
  rw [modLane_same]
  exact hpartner

theorem hostReceiverReady_ends {k : HLane} {s : State} (htrain : s.lanes[k].train = 1)
    (hpartner : s.lanes[k].partnerReady = true) :
    (hostReceiverReady k s).lanes[k].train = 2 ∧
      (hostReceiverReady k s).lanes[k].trainDone = s.lanes[k].trainDone + 1 ∧
      alarmOn (hostReceiverReady k s) (.host k) 4 = false := by
  have hends : (modLane k (fun l => { l with ownReady := true, reqOut := .none }) s).lanes[k].ends = true := by
    rw [modLane_same, Lane.ends, htrain, hpartner]
    rfl
  have hacts := trainEnds_acts hends
  rwa [modLane_same, ← hostReceiverReady_eq htrain] at hacts

theorem hostTrainFail_acts {k : HLane} {s : State} (htrain : s.lanes[k].train = 1) :
    (hostTrainFail k s).lanes[k] = { s.lanes[k] with train := 3, trainFail := s.lanes[k].trainFail + 1 } ∧
      alarmOn (hostTrainFail k s) (.host k) 4 = true := by
  rw [hostTrainFail, if_pos (beq_iff_eq.mpr htrain), setAlarm_lanes, modLane_same]
  exact ⟨rfl, alarmOn_setAlarm _ _ _ _ (by decide)⟩

theorem hostTrainRetry_begins {k : HLane} {s : State} (htrain : s.lanes[k].train = 3) :
    hostTrainRetry k s = modLane k (Lane.begun s.sys.usec) s :=
  if_pos (beq_iff_eq.mpr htrain)

theorem laneEventsComplete : Claims.LaneEventsComplete := by
  intro k s
  refine ⟨?_, fun hwake => ?_, ?_, ?_, fun _ => rfl, fun locked => ?_, fun r ans ready htrain hwait => ?_,
    fun i on => ⟨rfl, rfl, tryTaps_limit⟩, fun htrain hpartner => ?_, fun htrain hpartner => ?_, fun htrain => ?_,
    fun htrain => ?_⟩
  · obtain ⟨hlane, halarm, honly⟩ := hostLos_acts k s
    refine ⟨_, rfl, ?_, halarm, ?_, honly⟩ <;> rw [hlane] <;> rfl
  · exact ⟨_, congrArg Host.Outcome.next (hostLosClear_quiet hwake), (signalTaken_same k s).2, signalTaken_alarmOn k s,
      signalTaken_only k s⟩
  · refine ⟨_, rfl, ?_, setCdr_alarmOn k true s, ?_, setCdr_only k true s⟩ <;> rw [setCdr_same, Lane.withCdr]
    cases s.lanes[k].cdr <;> rfl
  · refine ⟨_, rfl, ?_, setCdr_alarmOn k false s, ?_, setCdr_only k false s⟩ <;> rw [setCdr_same] <;> rfl
  · obtain ⟨⟨e, n, hlane⟩, honly, hidle⟩ := prbsLock_acts k locked s
    refine ⟨_, rfl, by rw [hlane]; rfl, by rw [hlane]; rfl, by rw [hlane]; rfl, honly, fun h => ?_⟩
    rw [hidle h]
    exact ⟨rfl, rfl⟩
  · exact congrArg Host.Outcome.next (hostTrainingFrame_waits r ans htrain hwait)
  · exact congrArg Host.Outcome.next (hostReceiverReady_waits htrain hpartner)
  · exact ⟨_, rfl, hostReceiverReady_ends htrain hpartner⟩
  · obtain ⟨hlane, halarm⟩ := hostTrainFail_acts htrain
    refine ⟨_, rfl, ?_, ?_, halarm⟩ <;> rw [hlane]
  · exact congrArg Host.Outcome.next (hostTrainRetry_begins htrain)

/-! ### The events of a client (R267 to R270, R457) -/

theorem modMap_only (f : MapSt → MapSt) (s : State) : Claims.Only [.map] s (modMap f s) := by
  intro x hx
  cases x <;> simp_all [Claims.Same]

theorem raiseAlarm_map (key : AlarmKey) (b : Nat) (cond : Bool) (s : State) : (raiseAlarm key b cond s).map = s.map := by
  simp only [raiseAlarm_keeps]

/-- An alarm bit raised for each entry of a list stands for those entries and where it stood. -/
theorem eachOf_raised {α : Type} (key : α → AlarmKey) {b : Nat} (hb : b < 32) (l : List α) (x : α) (s : State)
    (h : x ∈ l ∨ alarmOn s (key x) b = true) :
    alarmOn (eachOf l (fun y => setAlarm (key y) b true) s) (key x) b = true := by
  induction l generalizing s with
  | nil => exact h.resolve_left List.not_mem_nil
  | cons y l ih =>
    refine ih (setAlarm (key y) b true s) ?_
    by_cases hkey : key x = key y
    · rw [hkey]
      exact .inr (alarmOn_setAlarm _ _ _ _ hb)
    · rw [alarmOn_setAlarm_other _ _ _ _ _ _ hkey]
      exact h.imp_left fun hmem => (List.mem_cons.mp hmem).resolve_left fun hxy => hkey (congrArg key hxy)

/-- HOST_ALIGN of a client that has not had its removal begun. -/
theorem hostAlign_eq {k : HLane} (aligned : Bool) {s : State} {c : Client} (h : clientAt s k = some c) :
    hostAlign k aligned s = eachOf (clientLanes s c) (fun i => raiseAlarm (.host i) 2 (!aligned))
      (modClients (·.first == k) (fun c => { c with aligned := aligned }) s) := by
  simp only [hostAlign, h]

theorem hostAlign_acts {k : HLane} (aligned : Bool) {s : State} {c : Client} (h : clientAt s k = some c) :
    (hostAlign k aligned s).map.clients =
        s.map.clients.map (fun c => if c.first == k then { c with aligned := aligned } else c) ∧
      (∀ i ∈ clientLanes s c, aligned = false → alarmOn (hostAlign k aligned s) (.host i) 2 = true) ∧
      Claims.Only [.map, .alarms, .mbx] s (hostAlign k aligned s) := by
  rw [hostAlign_eq aligned h]
  refine ⟨congrArg MapSt.clients (eachOf_map _ _ _ fun _ _ => raiseAlarm_map ..), fun i hi hlost => ?_,
    only_trans (only_mono (modMap_only _ s) (by simp))
      (eachOf_only (fun _ _ => only_mono (raiseAlarm_only _ _ _ _) (by simp)) _)⟩
  subst hlost
  exact eachOf_raised AlarmKey.host (by decide) _ i _ (.inl hi)

theorem clientEventsComplete : Claims.ClientEventsComplete :=
  fun _ s => ⟨fun aligned _ hclient => ⟨_, rfl, hostAlign_acts aligned hclient⟩, ⟨_, rfl, rfl, modMap_only _ s⟩,
    ⟨_, rfl, rfl, modMap_only _ s⟩⟩

end Sys2Proof.Machine

open Sys2Proof Sys2Proof.Machine

/-- Settles O30: each event of a lane by the lane that it leaves and the alarm that it sets, a training frame because a side
that is not ready keeps the training going, and the events of a client by its record and the alarm of each of its lanes. -/
theorem hostEventsComplete : Obligations.HostEventsComplete := ⟨laneEventsComplete, clientEventsComplete⟩
end

section
/-! PROOF. Clients of the crossbar (R266, R273, R280, R281, R288 to R290): one that enters, one that leaves, and the words of
MAP_STATUS. -/

namespace Sys2Proof.Machine

/-! ### The lanes of a client (R266) -/

theorem lanesOf_pos {type rate n : Nat} (h : lanesOf type rate = some n) : 0 < n := by
  unfold lanesOf at h
  split at h <;> cases h <;> decide

/-- A client has the lane at which it starts. -/
theorem first_mem_clientLanes (s : State) (c : Client) : c.first ∈ clientLanes s c := by
  unfold clientLanes
  split
  · next n hn =>
    have hpos := lanesOf_pos hn
    simpa using hpos
  · exact List.mem_singleton_self _

/-- The lanes that an add would use have the one at which it starts. -/
theorem addLane_mem {s : State} {ps : List Word} {l : List HLane} (h : addLanes s ps = some l) : addLane ps ∈ l := by
  simp only [addLanes] at h
  split at h
  · exact absurd h (by simp)
  · next n hn =>
    have hpos := lanesOf_pos hn
    split at h
    · obtain rfl := Option.some.inj h
      simpa using hpos
    · exact absurd h (by simp)

/-- Where the checks of an add pass, no client starts at its lane. -/
theorem mapAddStates_unused {ps : List Word} {ahead : Int} {s : State} (h : firstFail (mapAddStates ps ahead s) = none) :
    ∀ c ∈ s.map.clients, c.first ≠ addLane ps := by
  intro c hc hfirst
  cases hl : addLanes s ps with
  | none => simp [mapAddStates, hl, firstFail_cons] at h
  | some l =>
    have hused : (s.map.clients.any fun c => (clientLanes s c).any (l.contains ·) ||
        (c.port == addPort ps && c.slots &&& addSlots ps != 0)) = true := by
      refine List.any_eq_true.mpr ⟨c, hc, Bool.or_eq_true_iff.mpr (.inl (List.any_eq_true.mpr ⟨c.first,
        first_mem_clientLanes s c, ?_⟩))⟩
      rw [hfirst]
      exact List.contains_iff_mem.mpr (addLane_mem hl)
    simp only [mapAddStates, hl, hused, firstFail_cons, Bool.or_true, Bool.true_or, if_true, reduceCtorEq] at h

/-! ### A client that enters (R280, R288) -/

/-- The client of a MAP_CLIENT_ADD, with its transmit side in force when `tx`. -/
def newClient (ps : List Word) (tx : Bool) : Client :=
  { type := BitVec.ofNat 3 (addType ps), first := addLane ps, port := addPort ps, slots := addSlots ps, txOn := tx
    rxOn := true }

/-- The crossbar with the new client at the end of its list. -/
def listed (ps : List Word) (tx : Bool) (s : State) : State :=
  modMap (fun m => { m with clients := m.clients ++ [newClient ps tx] }) s

theorem addClient_eq (ps : List Word) (tx : Bool) (s : State) : addClient ps tx s =
    evalPending (newClient ps tx) (eachOf (clientLanes s (newClient ps tx)) (fun k => setAlarm (.host k) 2 true)
      (setRxFail (addLane ps) (egressBlocked (listed ps tx s) (newClient ps tx)) (listed ps tx s))) := rfl

theorem setRxFail_clients (k : HLane) (on : Bool) (s : State) : (setRxFail k on s).map.clients =
    s.map.clients.map fun c => if c.first == k then { c with rxFail := on, egress := c.egress && !on } else c := by
  rw [setRxFail, raiseAlarm_map]
  rfl

theorem setRxFail_only (k : HLane) (on : Bool) (s : State) : Claims.Only [.map, .alarms, .mbx] s (setRxFail k on s) :=
  only_trans (only_mono (modMap_only _ s) (by simp)) (only_mono (raiseAlarm_only _ 8 on _) (by simp))

/-- What the operations on a client may change. -/
theorem setAlarm_only_client (key : AlarmKey) (b : Nat) (on : Bool) (s : State) :
    Claims.Only [.map, .alarms, .mbx] s (setAlarm key b on s) :=
  only_mono (setAlarm_only_alarms key b on s) (by simp)

theorem setAlarm_map (key : AlarmKey) (b : Nat) (on : Bool) (s : State) : (setAlarm key b on s).map = s.map := by
  simp only [setAlarm_keeps]

/-- A client that starts at a lane of its own goes to the end of the list, and the others stay as they are. -/
theorem addClient_clients {ps : List Word} (tx : Bool) {s : State} (h : ∀ c ∈ s.map.clients, c.first ≠ addLane ps) :
    (addClient ps tx s).map.clients = s.map.clients ++
      [{ newClient ps tx with rxFail := egressBlocked (listed ps tx s) (newClient ps tx), egress := false }] := by
  have hold : s.map.clients.map (fun c => if c.first == addLane ps then
      { c with rxFail := egressBlocked (listed ps tx s) (newClient ps tx)
               egress := c.egress && !egressBlocked (listed ps tx s) (newClient ps tx) } else c) = s.map.clients := by
    refine (List.map_congr_left fun c hc => ?_).trans (List.map_id _)
    rw [if_neg (by simpa using h c hc), id]
  rw [addClient_eq, evalPending, setAlarm_map, eachOf_map _ _ _ fun _ _ => setAlarm_map .., setRxFail_clients, listed,
    modMap_map, List.map_append, ← listed, hold, List.map_singleton, if_pos (by exact beq_self_eq_true _)]
  rfl

/-- An alarm is as it was when another bit, of whatever word, is raised or cleared. -/
theorem alarmOn_setAlarm_bit (key key' : AlarmKey) {b b' : Nat} (on : Bool) (s : State) (h : b' ≠ b) (hb : b' < 32) :
    alarmOn (setAlarm key b on s) key' b' = alarmOn s key' b' := by
  by_cases hkey : key' = key
  · subst hkey
    exact alarmOn_setAlarm_otherBit _ _ _ _ _ h hb
  · exact alarmOn_setAlarm_other _ _ _ _ _ _ hkey

/-- HOST_ALIGN stands on each lane of a client that has entered (R457). -/
theorem addClient_unaligned (ps : List Word) (tx : Bool) (s : State) :
    ∀ i ∈ clientLanes s (newClient ps tx), alarmOn (addClient ps tx s) (.host i) 2 = true := by
  intro i hi
  rw [addClient_eq, evalPending, alarmOn_setAlarm_bit _ _ _ _ (by decide) (by decide)]
  exact eachOf_raised AlarmKey.host (by decide) _ i _ (.inl hi)

theorem addClient_only (ps : List Word) (tx : Bool) (s : State) :
    Claims.Only [.map, .alarms, .mbx] s (addClient ps tx s) := by
  rw [addClient_eq]
  exact only_trans (only_mono (modMap_only _ s) (by simp)) <| only_trans (setRxFail_only _ _ _) <|
    only_trans (eachOf_only (fun k t => setAlarm_only_client (.host k) 2 true t) _) (setAlarm_only_client _ 10 _ _)

/-! ### MAP_CLIENT_ADD (R280, R281, R288) -/

theorem poolFull_congr {s t : State} (h : t.dial = s.dial) : poolFull t = poolFull s := by
  rw [poolFull, poolFull, h]

/-- MAP_CLIENT_ADD once its checks have passed, for a port in TRAFFIC or not. -/
theorem mapClientAdd_ready {rq : Req} {s : State} (live : Bool)
    (hlive : (s.ports[addPort rq.params].tr.state == .traffic) = live) (hd : Claims.Awake 0x5001 rq s)
    (hchecks : firstFail (mapAddChecks rq.params) = none)
    (hstates : firstFail (mapAddStates rq.params (if live then 64 else 0) s) = none) :
    mapClientAdd rq s =
      if live then enterImplicit 0x5001 rq rq.params [] (txRef (addPort rq.params))
        (if poolFull s then s else addClient rq.params false s)
      else reply 0x5001 rq (okay []) (addClient rq.params true s) := by
  subst hlive
  rw [mapClientAdd, command_runs 0x5001 rq _ _ _ s hchecks hd hstates]

theorem mapClientAdd_now {rq : Req} {s : State} (hd : Claims.Awake 0x5001 rq s)
    (hchecks : firstFail (mapAddChecks rq.params) = none) (hst : s.ports[addPort rq.params].tr.state ≠ .traffic)
    (hstates : firstFail (mapAddStates rq.params 0 s) = none) :
    mapClientAdd rq s = reply 0x5001 rq (okay []) (addClient rq.params true s) :=
  mapClientAdd_ready false (beq_false_of_ne hst) hd hchecks hstates

theorem mapClientAdd_scheduled {rq : Req} {s : State} (hd : Claims.Awake 0x5001 rq s)
    (hchecks : firstFail (mapAddChecks rq.params) = none) (hst : s.ports[addPort rq.params].tr.state = .traffic)
    (hstates : firstFail (mapAddStates rq.params 64 s) = none) (hroom : poolFull s = false) (hsrc : rq.src ≠ .blob) :
    mapClientAdd rq s = taken rq (enterEvent
      (implicitEvent (addClient rq.params false s) 0x5001 rq rq.params [] (txRef (addPort rq.params)))
      (addClient rq.params false s)) := by
  have hdial : (addClient rq.params false s).dial = s.dial := by simp only [addClient_keeps]
  have hroom' : poolFull (addClient rq.params false s) = false := (poolFull_congr hdial).trans hroom
  rw [mapClientAdd_ready true (beq_iff_eq.mpr hst) hd hchecks hstates, if_pos rfl, hroom, if_neg Bool.false_ne_true,
    enterImplicit_taken _ _ _ _ _ _ hroom' hsrc]

/-- The event of an implicit schedule that a state `t` enters for a command of `rq`, seen from an earlier state `s` with the
same references and the same events. -/
theorem implicit_entered (op : Nat) {rq : Req} (ps data : List Word) (r : RefCode) {s t : State}
    (hports : t.ports = s.ports) (hpower : t.power = s.power) (hdial : t.dial = s.dial) (hsrc : rq.src ≠ .blob) :
    ∃ e, (enterEvent (implicitEvent t op rq ps data r) t).dial.evs = s.dial.evs ++ [e] ∧ e.ref = r ∧ e.exact = true ∧
      e.opcode = BitVec.ofNat 16 op ∧ e.target = refCount s r + 64 ∧ e.implicit = some rq := by
  obtain ⟨i, u, n, hevs⟩ := enterEvent_evs (implicitEvent t op rq ps data r) t
  rw [hdial] at hevs
  refine ⟨_, hevs, rfl, rfl, rfl, ?_, if_neg (by simpa using hsrc)⟩
  exact congrArg (· + 64) (refCount_congr r (by rw [hports]) hpower)

theorem mapClientAdds {rq : Req} {s : State} (hd : Claims.Awake 0x5001 rq s)
    (hchecks : firstFail (mapAddChecks rq.params) = none) (hst : s.ports[addPort rq.params].tr.state ≠ .traffic)
    (hstates : firstFail (mapAddStates rq.params 0 s) = none) :
    ∃ u x, Claims.Runs (.mapClientAdd rq) s (reply 0x5001 rq (okay []) u) ∧ u.map.clients = s.map.clients ++ [x] ∧
      { x with rxFail := (newClient rq.params true).rxFail, egress := (newClient rq.params true).egress } =
        newClient rq.params true ∧
      (∀ i ∈ clientLanes s (newClient rq.params true), alarmOn u (.host i) 2 = true) ∧
      Claims.Only [.map, .alarms, .mbx] s u :=
  ⟨_, _, congrArg Host.Outcome.next (mapClientAdd_now hd hchecks hst hstates),
    addClient_clients true (mapAddStates_unused hstates), rfl, addClient_unaligned rq.params true s,
    addClient_only rq.params true s⟩

theorem mapClientAdds_scheduled {rq : Req} {s : State} (hd : Claims.Awake 0x5001 rq s)
    (hchecks : firstFail (mapAddChecks rq.params) = none) (hst : s.ports[addPort rq.params].tr.state = .traffic)
    (hstates : firstFail (mapAddStates rq.params 64 s) = none) (hroom : poolFull s = false) (hsrc : rq.src ≠ .blob) :
    ∃ u x e, Claims.Runs (.mapClientAdd rq) s (taken rq u) ∧ u.map.clients = s.map.clients ++ [x] ∧
      x.first = addLane rq.params ∧ x.txOn = false ∧ x.rxOn = true ∧ u.dial.evs = s.dial.evs ++ [e] ∧
      e.ref = txRef (addPort rq.params) ∧ e.exact = true ∧
      e.target = refCount s (txRef (addPort rq.params)) + 64 ∧ e.implicit = some rq := by
  have hports : (addClient rq.params false s).ports = s.ports := by simp only [addClient_keeps]
  have hpower : (addClient rq.params false s).power = s.power := by simp only [addClient_keeps]
  have hdial : (addClient rq.params false s).dial = s.dial := by simp only [addClient_keeps]
  obtain ⟨e, hevs, href, hexact, -, htarget, himplicit⟩ :=
    implicit_entered 0x5001 rq.params [] (txRef (addPort rq.params)) hports hpower hdial hsrc
  exact ⟨_, _, e, congrArg Host.Outcome.next (mapClientAdd_scheduled hd hchecks hst hstates hroom hsrc),
    addClient_clients false (mapAddStates_unused hstates), rfl, rfl, rfl, hevs, href, hexact, htarget, himplicit⟩

/-! ### MAP_CLIENT_REMOVE (R280, R281, R289) -/

/-- MAP_CLIENT_REMOVE of a client whose two sides are in force. -/
theorem mapClientRemove_ready {rq : Req} {s : State} {c : Client} (hd : Claims.Awake 0x5002 rq s)
    (hzero : pf rq 0 26 0 = 0) (hclient : clientAt s (removeLane rq.params) = some c) (htx : c.txOn = true) :
    mapClientRemove rq s =
      if s.ports[c.port].tr.state == .traffic then
        enterImplicit 0x5002 rq rq.params [] (txRef c.port) (if poolFull s then s else stopClient (removeLane rq.params) s)
      else reply 0x5002 rq (okay []) (dropClient (removeLane rq.params) s) := by
  have hstates : firstFail (mapRemoveStates rq.params s) = none := by
    rw [mapRemoveStates, hclient]
    rfl
  have hchecks : firstFail [badAt [(fld (rq.params.getD 0 0) 26 0 != 0, 0)]] = none :=
    firstFail_badAt_one _ _ (by rw [← par, ← pf, hzero]; rfl)
  rw [mapClientRemove, command_runs 0x5002 rq _ _ _ s hchecks hd hstates]
  simp only [hclient, htx, Bool.not_true, Bool.false_eq_true, if_false]

theorem dropClient_only (k : HLane) (s : State) : Claims.Only [.map, .alarms, .mbx] s (dropClient k s) := by
  exact only_trans (only_mono (modMap_only _ s) (by simp))
    (only_trans (eachOf_only (fun b t => setAlarm_only_client (.host k) b false t) _)
      (eachOf_only (fun j t => setAlarm_only_client (.host j) 2 false t) _))

theorem dropClient_map (k : HLane) (s : State) :
    (dropClient k s).map = { s.map with clients := s.map.clients.filter fun c => c.first != k } := by
  rw [dropClient, eachOf_map _ _ _ fun _ _ => setAlarm_map .., eachOf_map _ _ _ fun _ _ => setAlarm_map ..]
  rfl

/-- Once its receive side has stopped, a client is on its way out (R289). -/
theorem clientAt_stopClient (k : HLane) (s : State) : clientAt (stopClient k s) k = none := by
  rw [clientAt, stopClient, eachOf_map _ _ _ fun _ _ => setAlarm_map .., List.find?_eq_none]
  intro c hc
  obtain ⟨x, -, hx⟩ := List.mem_map.mp hc
  subst hx
  split_ifs with hfirst
  · simp
  · simp [hfirst]

theorem mapClientRemoves {rq : Req} {s : State} {c : Client} (hd : Claims.Awake 0x5002 rq s)
    (hzero : pf rq 0 26 0 = 0) (hclient : clientAt s (removeLane rq.params) = some c) (htx : c.txOn = true)
    (hst : s.ports[c.port].tr.state ≠ .traffic) :
    mapClientRemove rq s = reply 0x5002 rq (okay []) (dropClient (removeLane rq.params) s) := by
  rw [mapClientRemove_ready hd hzero hclient htx, beq_false_of_ne hst, if_neg Bool.false_ne_true]

theorem mapClientRemoves_scheduled {rq : Req} {s : State} {c : Client} (hd : Claims.Awake 0x5002 rq s)
    (hzero : pf rq 0 26 0 = 0) (hclient : clientAt s (removeLane rq.params) = some c) (htx : c.txOn = true)
    (hst : s.ports[c.port].tr.state = .traffic) (hroom : poolFull s = false) (hsrc : rq.src ≠ .blob) :
    ∃ u e, Claims.Runs (.mapClientRemove rq) s (taken rq u) ∧ clientAt u (removeLane rq.params) = none ∧
      u.dial.evs = s.dial.evs ++ [e] ∧ e.ref = txRef c.port ∧ e.exact = true ∧ e.opcode = 0x5002 ∧
      e.implicit = some rq := by
  have hports : (stopClient (removeLane rq.params) s).ports = s.ports := by simp only [stopClient_keeps]
  have hpower : (stopClient (removeLane rq.params) s).power = s.power := by simp only [stopClient_keeps]
  have hdial : (stopClient (removeLane rq.params) s).dial = s.dial := by simp only [stopClient_keeps]
  have hroom' : poolFull (stopClient (removeLane rq.params) s) = false := (poolFull_congr hdial).trans hroom
  have hrun := mapClientRemove_ready hd hzero hclient htx
  rw [if_pos (beq_iff_eq.mpr hst), hroom, if_neg Bool.false_ne_true, enterImplicit_taken _ _ _ _ _ _ hroom' hsrc] at hrun
  obtain ⟨e, hevs, href, hexact, hop, -, himplicit⟩ :=
    implicit_entered 0x5002 rq.params [] (txRef c.port) hports hpower hdial hsrc
  exact ⟨_, e, congrArg Host.Outcome.next hrun, clientAt_stopClient _ s, hevs, href, hexact, hop, himplicit⟩

/-! ### MAP_STATUS (R290) -/

/-- Bit 15 of a slot entry is set, whatever the flags below it say. -/
theorem slotEntry_top (first : HLane) (type : BitVec 3) (a b c d e f : Bool) :
    (32768 + first.val * 1024 + type.toNat * 128 + b2n a * 64 + b2n b * 32 + b2n c * 16 + b2n d * 8 + b2n e * 4 +
      b2n f * 2) % 65536 / 32768 = 1 := by
  have hb : ∀ x, b2n x ≤ 1 := by decide
  have hfirst := first.isLt
  have htype := type.isLt
  have := hb a
  have := hb b
  have := hb c
  have := hb d
  have := hb e
  have := hb f
  omega

/-- The top bit of a slot's entry tells whether a client is connected to the slot. -/
theorem slotWord_top (s : State) (p : LPort) (i : Nat) : slotWord s p i % 65536 / 32768 =
    b2n (s.map.clients.any fun c => c.port == p && c.slots.getLsbD i) := by
  rw [slotWord]
  split
  · next c hc =>
    rw [List.any_eq_true.mpr ⟨c, List.mem_of_find?_eq_some hc, List.find?_some hc⟩]
    exact slotEntry_top ..
  · next hc =>
    rw [List.any_eq_false.mpr (List.find?_eq_none.mp hc)]
    rfl

/-- Word `j` of MAP_STATUS holds the entries of two slots. -/
theorem mapWords_entries (s : State) (p : LPort) {j : Nat} (hj : j < 8) : (mapWords s p).getD j 0 =
    word [(31, 16, slotWord s p (2 * j)), (15, 0, slotWord s p (2 * j + 1))] := by
  rw [mapWords, List.getD_append _ _ _ _ (by simpa using hj)]
  simp [List.getD_eq_getElem?_getD, List.getElem?_range hj]

theorem mapWords_connected (s : State) (p : LPort) (i : Fin 16) :
    (if i.val % 2 = 0 then fld ((mapWords s p).getD (i.val / 2) 0) 31 16
      else fld ((mapWords s p).getD (i.val / 2) 0) 15 0) / 32768 =
    b2n (s.map.clients.any fun c => c.port == p && c.slots.getLsbD i.val) := by
  rw [mapWords_entries s p (by omega), ← slotWord_top s p i.val]
  split_ifs with hi
  · rw [fld_word 31 16 _ _ rfl (List.mem_cons_self ..), show 2 * (i.val / 2) = i.val by omega]
    rfl
  · rw [fld_word 15 0 (slotWord s p (2 * (i.val / 2) + 1)) _ rfl (by simp), show 2 * (i.val / 2) + 1 = i.val by omega]
    rfl

theorem mapStatus_reports {rq : Req} {s : State} (hd : Claims.Awake 0x5004 rq s) (hzero : pf rq 0 29 0 = 0) :
    Claims.Reports (.mapStatus rq) (.port (pport rq 0)) 0x5004 rq
      (reply 0x5004 rq (okay (mapWords s (pport rq 0))) s) s :=
  reports_of_report _ _ _ _ _ (mapStatusAnswer rq) s rfl
    (firstFail_badAt_one (pf rq 0 29 0 != 0) 0 (by rw [hzero]; rfl)) hd

theorem mapCommands : Claims.MapCommandsComplete := by
  intro rq s
  refine ⟨fun p hp hd hchecks => ?_, fun c hd hzero hclient htx => ⟨fun hst => ?_, fun hst hroom hsrc => ?_⟩,
    fun hd hzero => ?_⟩
  · subst hp
    exact ⟨mapClientAdds hd hchecks, fun hst hstates hroom hsrc =>
      mapClientAdds_scheduled hd hchecks hst hstates hroom hsrc⟩
  · exact ⟨_, congrArg Host.Outcome.next (mapClientRemoves hd hzero hclient htx hst),
      congrArg MapSt.clients (dropClient_map _ s), dropClient_only _ s⟩
  · exact mapClientRemoves_scheduled hd hzero hclient htx hst hroom hsrc
  · exact ⟨_, rfl, rfl, mapWords_connected s (pport rq 0), mapStatus_reports hd hzero⟩

end Sys2Proof.Machine
end

section
/-! PROOF. A port that takes a new symbol rate outside TRAFFIC (R21, R149, R326, R516): its rate, and what it leaves of the
other ports, the crossbar and the pool. -/

namespace Sys2Proof.Machine

/-! ### What a new rate leaves -/

/-- The port is outside TRAFFIC. -/
def Quiet (s : State) (q : LPort) : Prop := s.ports[q].tr.state ≠ .traffic

theorem Quiet.of_tr {s t : State} {q : LPort} (htr : t.ports[q].tr = s.ports[q].tr) (h : Quiet s q) : Quiet t q := by
  rw [Quiet, htr]
  exact h

/-- Two states between which port `q` works on its own, outside TRAFFIC and at one rate: the training of the other ports,
their C_LAT and the crossbar are as they were. -/
structure OwnWork (q : LPort) (s t : State) : Prop where
  others : ∀ j ≠ q, t.ports[j].tr = s.ports[j].tr
  rate : t.ports[q].tr.rate = s.ports[q].tr.rate
  quiet : Quiet s q → Quiet t q
  map : t.map = s.map
  cLat : ∀ j ≠ q, t.pool.ports[j].cLat = s.pool.ports[j].cLat

theorem OwnWork.refl (q : LPort) (s : State) : OwnWork q s s := ⟨fun _ _ => rfl, rfl, id, rfl, fun _ _ => rfl⟩

theorem OwnWork.trans {q : LPort} {s t u : State} (h : OwnWork q s t) (h' : OwnWork q t u) : OwnWork q s u where
  others j hj := (h'.others j hj).trans (h.others j hj)
  rate := h'.rate.trans h.rate
  quiet := h'.quiet ∘ h.quiet
  map := h'.map.trans h.map
  cLat j hj := (h'.cLat j hj).trans (h.cLat j hj)

theorem OwnWork.ite {c : Prop} [Decidable c] {q : LPort} {s t u : State} (ht : c → OwnWork q s t)
    (hu : ¬ c → OwnWork q s u) : OwnWork q s (if c then t else u) := by
  split
  · exact ht ‹_›
  · exact hu ‹_›

/-- An operation that leaves the training of every port, the crossbar and the pool alone. -/
theorem OwnWork.of_keeps {q : LPort} {s t : State} (htr : ∀ j : LPort, t.ports[j].tr = s.ports[j].tr) (hmap : t.map = s.map)
    (hpool : t.pool = s.pool) : OwnWork q s t where
  others j _ := htr j
  rate := congrArg Train.rate (htr q)
  quiet := .of_tr (htr q)
  map := hmap
  cLat j _ := by rw [hpool]

/-- An operation that changes the training of the port alone, and keeps its rate and its state. -/
theorem modTr_ownWork (q : LPort) (f : Train → Train) (s : State) (hrate : ∀ t, (f t).rate = t.rate)
    (hstate : ∀ t, (f t).state = t.state) : OwnWork q s (modTr q f s) where
  others j hj := by rw [modTr_ports, vmod_other _ _ _ _ hj]
  rate := by rw [modTr_tr, hrate]
  quiet h := by rw [Quiet, modTr_tr, hstate]; exact h
  map := rfl
  cLat _ _ := rfl

theorem modNlc_ownWork (q : LPort) (f : Nlc → Nlc) (s : State) : OwnWork q s (modNlc q f s) :=
  .of_keeps (fun _ => modNlc_tr ..) rfl rfl

theorem modCal_ownWork (q : LPort) (f : Cal → Cal) (s : State) : OwnWork q s (modCal q f s) :=
  .of_keeps (fun _ => modCal_tr ..) rfl rfl

theorem modTr2_ownWork (q j : LPort) (f : Train2 → Train2) (s : State) : OwnWork q s (modTr2 j f s) :=
  .of_keeps (fun _ => modTr2_tr ..) rfl rfl

theorem maybeAcquire_ownWork (q : LPort) (s : State) : OwnWork q s (maybeAcquire q s) :=
  .of_keeps (fun _ => maybeAcquire_tr ..) (by simp only [maybeAcquire_keeps]) (maybeAcquire_pool q s)

theorem refresh_ownWork (q : LPort) (s : State) : OwnWork q s (refresh s) :=
  .of_keeps (fun _ => refresh_tr ..) (by simp only [refresh_keeps]) (by simp only [refresh_keeps])

/-! ### A calibration run that ends or starts (R319, R327, R328) -/

theorem cancelTrain_ownWork (q : LPort) (s : State) : OwnWork q s (cancelTrain q s) where
  others j hj := by
    simp only [cancelTrain, modTr2_tr, dropRates_tr, cancelSwitches, modTr_ports, vmod_other _ _ _ _ hj, dropEvs_keeps]
  rate := by rw [cancelTrain_tr, Train.withdrawn]
  quiet h := by rw [Quiet, cancelTrain_tr, Train.withdrawn]; exact h
  map := by simp only [cancelTrain_keeps]
  cLat _ _ := by simp only [cancelTrain_keeps]

/-- A port that moves between other states than TRAFFIC. -/
theorem setPort_ownWork {q : LPort} {st : PortState} {s : State} (h : Quiet s q) (hst : st ≠ .traffic) :
    OwnWork q s (setPort q st s) := by
  have hmoves : setPort q st s = modTr q (fun t => { t with state := st }) s := by
    simp only [setPort, beq_false_of_ne h, Bool.false_and, Bool.false_eq_true, if_false]
  rw [hmoves]
  exact ⟨fun j hj => by rw [modTr_ports, vmod_other _ _ _ _ hj], by rw [modTr_tr],
    fun _ => by rw [Quiet, modTr_tr]; exact hst, rfl, fun _ _ => rfl⟩

theorem poolEnter_ownWork (q : LPort) (s : State) : OwnWork q s (poolEnter q s) where
  others j _ := by simp only [poolEnter_keeps]
  rate := by simp only [poolEnter_keeps]
  quiet := .of_tr (by simp only [poolEnter_keeps])
  map := by simp only [poolEnter_keeps]
  cLat j hj := by rw [poolEnter, modPp_pool, vmod_other _ _ _ _ hj]

theorem enterAcquire_ownWork {q : LPort} {s : State} (h : Quiet s q) :
    OwnWork q s (enterAcquire q s) := by
  simp only [enterAcquire, acqFormats, acqDescs]
  refine .trans ?_ (maybeAcquire_ownWork q _)
  refine .trans ?_ (refresh_ownWork q _)
  refine .trans ?_ (poolEnter_ownWork q _)
  refine .trans ?_ (modNlc_ownWork q _ _)
  refine .trans ?_ (modTr_ownWork q _ _ (fun _ => rfl) fun _ => rfl)
  refine .trans ?_ (modTr2_ownWork q q _ _)
  refine .trans ?_ (modTr_ownWork q _ _ (fun _ => rfl) fun _ => rfl)
  exact .trans (cancelTrain_ownWork q s) (setPort_ownWork ((cancelTrain_ownWork q s).quiet h) (by decide))

theorem endChange_ownWork (q : LPort) (s : State) : OwnWork q s (endChange q s) :=
  .ite (fun _ => .trans (.of_keeps (fun _ => modFront_tr ..) rfl rfl)
    ((refresh_ownWork q _).trans (maybeAcquire_ownWork q _))) fun _ => .refl q s

theorem calWaited_ownWork (q : LPort) (s : State) : OwnWork q s (calWaited q s) := by
  have hclear : ∀ t, OwnWork q t (modTr q (fun x => { x with waitCal := false }) t) :=
    fun t => modTr_ownWork q _ t (fun _ => rfl) fun _ => rfl
  refine (endChange_ownWork q s).trans (.ite (fun h => ?_) fun _ => (hclear _).trans (maybeAcquire_ownWork q _))
  have hmuted : (endChange q s).ports[q].tr.state = .muted := beq_iff_eq.mp (Bool.and_eq_true_iff.mp h).2
  exact (hclear _).trans (enterAcquire_ownWork ((hclear _).quiet (by rw [Quiet, hmuted]; decide)))

theorem calAbort_ownWork (q : LPort) (s : State) : OwnWork q s (calAbort q s) := by
  simp only [calAbort]
  refine .ite (fun _ => ?_) fun _ => .refl q s
  refine .trans ?_ (calWaited_ownWork q _)
  exact .of_keeps (fun j => by simp only [ring_keeps, modCal_tr]) rfl rfl

theorem calStart_ownWork (q : LPort) (s : State) : OwnWork q s (calStart q .background calAll 3 s) := by
  simp only [calStart]
  refine .ite (fun _ => .refl q s) fun _ => ?_
  exact .of_keeps (fun j => by simp only [calBegin, reduceCtorEq, beq_iff_eq, if_false, modCal_tr]) rfl rfl

theorem calClock_ownWork (q : LPort) (s : State) : OwnWork q s (calClock q false s) := by
  simp only [calClock, Bool.false_and, Bool.false_eq_true, if_false]
  refine .trans ?_ (calStart_ownWork q _)
  exact .trans (calAbort_ownWork q s) (modCal_ownWork q _ _)

/-! ### A new rate (R149, R516) -/

theorem restartAcq_ownWork (q : LPort) (s : State) : OwnWork q s (restartAcq q s) := by
  have hdrop : OwnWork q s (dropLock q s) :=
    .of_keeps (fun _ => dropLock_tr ..) (by simp only [dropLock_keeps]) (by simp only [dropLock_keeps])
  have hrx : ∀ (f : Rx → Rx) (t : State), OwnWork q t (modRx q f t) :=
    fun f t => .of_keeps (fun _ => modRx_tr ..) rfl rfl
  have hset : ∀ t, OwnWork q t (setAlarm (.line q) 1 false t) :=
    fun t => .of_keeps (fun _ => by rw [setAlarm_port]) (setAlarm_map ..) (setAlarm_pool ..)
  exact hdrop.trans <| .trans (.of_keeps (fun _ => modSf_tr ..) rfl rfl) <| (hrx _ _).trans <|
    .ite (fun _ => (hrx _ _).trans (hset _)) fun _ => .refl q _

theorem reportShort_ownWork (q : LPort) (s : State) : OwnWork q s (reportShort q s) :=
  .ite (fun _ => .of_keeps (fun _ => by rw [setAlarm_port]) (setAlarm_map ..) (setAlarm_pool ..)) fun _ => .refl q s

theorem unusableOff_ownWork (q : LPort) (s : State) : OwnWork q s (unusableOff q s) :=
  .trans (.ite (fun _ => modNlc_ownWork q _ s) fun _ => .refl q s)
    (.ite (fun _ => modNlc_ownWork q _ _) fun _ => .refl q _)

/-- What follows a port's new rate. -/
def rateFollows (q : LPort) (s : State) : State :=
  let s := unusableOff q (reportShort q s)
  let s := if isOn s (.cv q) then calClock q false s else s
  if s.ports[q].tr.state == .muted then restartAcq q s else s

theorem rateFollows_ownWork (q : LPort) (s : State) : OwnWork q s (rateFollows q s) :=
  (reportShort_ownWork q s).trans <| (unusableOff_ownWork q _).trans <|
    .trans (.ite (fun _ => calClock_ownWork q _) fun _ => .refl q _)
      (.ite (fun _ => restartAcq_ownWork q _) fun _ => .refl q _)

/-- Training at another rate, which its formats follow. -/
def Train.atRate (rate : Nat) (t : Train) : Train :=
  { t with
    rate := BitVec.ofNat 10 rate, txFmt := withRate t.txFmt rate, rxFmt := withRate t.rxFmt rate
    txNow := withRate t.txNow rate, rxNow := withRate t.rxNow rate }

theorem Train.atRate_state (rate : Nat) (t : Train) : (t.atRate rate).state = t.state := rfl

theorem setRate_eq (q : LPort) (rate : Nat) (s : State) : setRate q rate s =
    if s.ports[q].tr.rate.toNat = rate then s else rateFollows q (modTr q (Train.atRate rate) s) := rfl

theorem setRate_rate (q : LPort) {rate : Nat} (hrate : rate < 1024) (s : State) :
    (setRate q rate s).ports[q].tr.rate.toNat = rate := by
  rw [setRate_eq]
  split_ifs with h
  · exact h
  · rw [(rateFollows_ownWork q _).rate, modTr_tr]
    exact Nat.mod_eq_of_lt hrate

theorem setRate_others {q j : LPort} (rate : Nat) (s : State) (h : j ≠ q) :
    (setRate q rate s).ports[j].tr = s.ports[j].tr := by
  rw [setRate_eq]
  split_ifs
  · rfl
  · rw [(rateFollows_ownWork q _).others j h, modTr_ports, vmod_other _ _ _ _ h]

theorem setRate_quiet {q : LPort} (rate : Nat) {s : State} (h : Quiet s q) : Quiet (setRate q rate s) q := by
  have hrated : Quiet (modTr q (Train.atRate rate) s) q := by
    rw [Quiet, modTr_tr, Train.atRate_state]
    exact h
  rw [setRate_eq]
  split_ifs
  · exact h
  · exact (rateFollows_ownWork q _).quiet hrated

theorem setRate_map (q : LPort) (rate : Nat) (s : State) : (setRate q rate s).map = s.map := by
  rw [setRate_eq]
  split_ifs
  · rfl
  · rw [(rateFollows_ownWork q _).map, modTr_map]

theorem setRate_cLat {q j : LPort} (rate : Nat) (s : State) (h : j ≠ q) :
    (setRate q rate s).pool.ports[j].cLat = s.pool.ports[j].cLat := by
  rw [setRate_eq]
  split_ifs
  · rfl
  · rw [(rateFollows_ownWork q _).cLat j h, modTr_pool]

end Sys2Proof.Machine
end

section
/-! PROOF. O31: the mapping commands (R19, R21 to R23, R138, R195, R251, R254, R280, R281, R288 to R290). -/

namespace Sys2Proof.Machine

/-! ### Ports of a pair (R1) -/

theorem pairOf_mate (p : LPort) : pairOf (mate p) = pairOf p := by revert p; decide

theorem pairLow_parity (ps : List Word) : (pairLow ps).val % 2 = 0 ∧ (mate (pairLow ps)).val % 2 = 1 := by
  unfold pairLow
  split <;> decide

theorem regen_mate (s : State) (p : LPort) : regen s (mate p) = regen s p := by
  simp only [regen, pairOf_mate]

theorem regen_congr {s t : State} (h : t.map.regen = s.map.regen) (p : LPort) : regen t p = regen s p := by
  rw [regen, h, regen]

theorem dropMask_congr {s t : State} (hlo : t.map.dropLo = s.map.dropLo) (hhi : t.map.dropHi = s.map.dropHi) (p : LPort) :
    dropMask t p = dropMask s p := by
  rw [dropMask, hlo, hhi, dropMask]

/-! ### Clients that are disconnected (R22, R23) -/

/-- Two states between which only clients leave the crossbar. -/
structure Thins (s t : State) : Prop where
  regen : t.map.regen = s.map.regen
  dropLo : t.map.dropLo = s.map.dropLo
  dropHi : t.map.dropHi = s.map.dropHi
  clients : t.map.clients ⊆ s.map.clients

/-- The clients of a port have their slots in its drop mask. -/
def Within (s : State) (q : LPort) : Prop :=
  ∀ c ∈ s.map.clients, c.port = q → ∀ i : Fin 16, c.slots.getLsbD i.val = true → dropMask s q / 2 ^ i.val % 2 = 1

theorem Thins.within {s t : State} {q : LPort} (h : Thins s t) (hs : Within s q) : Within t q := by
  intro c hc
  rw [dropMask_congr h.dropLo h.dropHi]
  exact hs c (h.clients hc)

theorem Thins.of_map {s t : State} (h : t.map = s.map) : Thins s t := by
  constructor <;> rw [h]
  exact List.Subset.refl _

theorem Thins.trans {s t u : State} (h : Thins s t) (h' : Thins t u) : Thins s u :=
  ⟨h'.regen.trans h.regen, h'.dropLo.trans h.dropLo, h'.dropHi.trans h.dropHi, List.Subset.trans h'.clients h.clients⟩

theorem dropClient_thins (k : HLane) (s : State) : Thins s (dropClient k s) := by
  constructor <;> rw [dropClient_map]
  exact List.filter_subset_self _

/-- The clients that a list of removals leaves. -/
theorem dropClients_clients (l : List Client) (s : State) :
    Thins s (eachOf l (fun c => dropClient c.first) s) ∧
      ∀ c ∈ l, c ∉ (eachOf l (fun c => dropClient c.first) s).map.clients := by
  induction l generalizing s with
  | nil => exact ⟨.of_map rfl, fun c hc => absurd hc List.not_mem_nil⟩
  | cons x l ih =>
    obtain ⟨hthins, hgone⟩ := ih (dropClient x.first s)
    refine ⟨(dropClient_thins x.first s).trans hthins, fun c hc => ?_⟩
    rcases List.mem_cons.mp hc with rfl | hc
    · intro hmem
      have hdropped := hthins.clients hmem
      rw [dropClient_map] at hdropped
      simpa using (List.mem_filter.mp hdropped).2
    · exact hgone c hc

/-- The clients of a regenerating port with a slot outside its drop mask. -/
def outside (s : State) (q : LPort) : List Client :=
  s.map.clients.filter fun c => c.port == q && regen s q && (slotsIn c).any fun i => dropMask s q / 2 ^ i.val % 2 == 0

theorem pruneClients_eq (q : LPort) (s : State) :
    pruneClients q s = eachOf (outside s q) (fun c => dropClient c.first) s := rfl

theorem pruneClients_thins (q : LPort) (s : State) : Thins s (pruneClients q s) := by
  rw [pruneClients_eq]
  exact (dropClients_clients (outside s q) s).1

/-- A regenerating port keeps only clients with their slots in its drop mask. -/
theorem pruneClients_within {q : LPort} {s : State} (h : regen s q = true) : Within (pruneClients q s) q := by
  obtain ⟨hthins, hgone⟩ := dropClients_clients (outside s q) s
  rw [← pruneClients_eq] at hthins hgone
  intro c hc hport i hslot
  rw [dropMask_congr hthins.dropLo hthins.dropHi]
  by_contra hout
  refine hgone c (List.mem_filter.mpr ⟨hthins.clients hc, ?_⟩) hc
  rw [hport, h, beq_self_eq_true, Bool.and_self, Bool.true_and]
  exact List.any_eq_true.mpr ⟨i, List.mem_filter.mpr ⟨List.mem_finRange i, hslot⟩, by simpa using hout⟩

theorem pruneClients_only (q : LPort) (s : State) : Claims.Only [.map, .alarms, .mbx] s (pruneClients q s) := by
  have hdrop : ∀ (c : Client) (t : State), Claims.Only [.map, .alarms, .mbx] t (dropClient c.first t) :=
    fun c => dropClient_only c.first
  rw [pruneClients_eq]
  exact eachOf_only hdrop s

theorem pruneClients_pool (q : LPort) (s : State) : (pruneClients q s).pool = s.pool :=
  pruneClients_only q s .pool (by decide)

/-! ### Drop masks (R251) -/

/-- The state in which the drop mask of a port has its value, before its clients are disconnected. -/
def dropSet (p : LPort) (m : Nat) (s : State) : State :=
  modMap (fun x =>
    if p.val % 2 = 0 then { x with dropLo := vset x.dropLo (pairOf p) (BitVec.ofNat 16 m) }
    else { x with dropHi := vset x.dropHi (pairOf p) (BitVec.ofNat 16 m) }) s

theorem setDrop_eq (p : LPort) (m : Nat) (s : State) : setDrop p m s = pruneClients p (evalGroom p (dropSet p m s)) := rfl

theorem dropSet_regen (p : LPort) (m : Nat) (s : State) : (dropSet p m s).map.regen = s.map.regen := by
  rw [dropSet, modMap_map]
  split <;> rfl

theorem dropSet_clients (p : LPort) (m : Nat) (s : State) : (dropSet p m s).map.clients = s.map.clients := by
  rw [dropSet, modMap_map]
  split <;> rfl

theorem dropSet_dropMask (p : LPort) (m : Nat) (s : State) : dropMask (dropSet p m s) p = m % 65536 := by
  rw [dropMask, dropSet, modMap_map]
  split_ifs
  · rw [vset_same]
    rfl
  · rw [vset_same]
    rfl

/-- The other port of the pair keeps its mask. -/
theorem dropSet_dropMask_mate (p : LPort) (m : Nat) (s : State) :
    dropMask (dropSet p m s) (mate p) = dropMask s (mate p) := by
  have hparity : (mate p).val % 2 ≠ p.val % 2 := by revert p; decide
  rw [dropMask, dropMask, dropSet, modMap_map]
  by_cases hp : p.val % 2 = 0
  · rw [if_pos hp, if_neg (hp ▸ hparity), if_neg (hp ▸ hparity)]
  · rw [if_neg hp, if_pos (by omega), if_pos (by omega)]

theorem setDrop_thins (p : LPort) (m : Nat) (s : State) : Thins (dropSet p m s) (setDrop p m s) := by
  rw [setDrop_eq]
  exact .trans (.of_map (by simp only [evalGroom_keeps])) (pruneClients_thins p _)

theorem setDrop_within {p : LPort} (m : Nat) {s : State} (h : regen s p = true) : Within (setDrop p m s) p := by
  rw [setDrop_eq]
  have hmap : (evalGroom p (dropSet p m s)).map = (dropSet p m s).map := by simp only [evalGroom_keeps]
  refine pruneClients_within ?_
  rw [regen_congr (congrArg MapSt.regen hmap), regen_congr (dropSet_regen p m s), h]

theorem setDrop_within_mate {p : LPort} (m : Nat) {s : State} (h : Within s (mate p)) : Within (setDrop p m s) (mate p) := by
  refine (setDrop_thins p m s).within fun c hc => ?_
  rw [dropSet_dropMask_mate]
  rw [dropSet_clients] at hc
  exact h c hc

theorem setDrop_pool (p : LPort) (m : Nat) (s : State) : (setDrop p m s).pool = s.pool := by
  rw [setDrop_eq, pruneClients_pool]
  exact raiseAlarm_only (.line p) 17 _ (dropSet p m s) .pool (by decide)

/-- A port's drop mask changes at once outside TRAFFIC. -/
theorem changeDrop_quiet {rq : Req} {p : LPort} {s : State} (h : Quiet s p) : changeDrop rq p s =
    if newDrop rq.params p = dropMask s p then s else setDrop p (newDrop rq.params p) s := by
  rw [changeDrop, beq_false_of_ne h]
  rfl

theorem newDrop_lt (ps : List Word) (p : LPort) : newDrop ps p < 65536 := by
  unfold newDrop
  split
  · exact Nat.mod_lt _ (by decide)
  · exact Nat.mod_lt _ (by decide)

/-- What a drop mask that changes at once leaves of its pair and of the pool. -/
structure MaskTaken (ps : List Word) (p : LPort) (s t : State) : Prop where
  ports : t.ports = s.ports
  pool : t.pool = s.pool
  role : t.map.regen = s.map.regen
  mask : dropMask t p = newDrop ps p
  maskMate : dropMask t (mate p) = dropMask s (mate p)
  within : Within s p → regen s p = true → Within t p
  withinMate : Within s (mate p) → Within t (mate p)

theorem changeDrop_taken {rq : Req} {p : LPort} {s : State} (h : Quiet s p) :
    MaskTaken rq.params p s (changeDrop rq p s) := by
  rw [changeDrop_quiet h]
  split_ifs with hsame
  · exact ⟨rfl, rfl, rfl, hsame.symm, rfl, fun hw _ => hw, id⟩
  · have hthins := setDrop_thins p (newDrop rq.params p) s
    have hmask : ∀ q, dropMask (setDrop p (newDrop rq.params p) s) q = dropMask (dropSet p (newDrop rq.params p) s) q :=
      dropMask_congr hthins.dropLo hthins.dropHi
    refine ⟨by simp only [setDrop_keeps], setDrop_pool p _ s, hthins.regen.trans (dropSet_regen p _ s), ?_, ?_,
      fun _ hregen => setDrop_within _ hregen, setDrop_within_mate _⟩
    · rw [hmask, dropSet_dropMask, Nat.mod_eq_of_lt (newDrop_lt ..)]
    · rw [hmask, dropSet_dropMask_mate]

/-! ### A pair that becomes regenerating (R21 to R23, R195) -/

/-- A port of the pair takes the rate of the pair and its C_LAT, and its clients outside its drop mask leave. -/
def joinPort (rate : Nat) (q : LPort) (s : State) : State :=
  pruneClients q (modPp q (fun x => { x with cLat := 24 }) (setRate q rate s))

/-- The symbol rate of a port. -/
def rateOf (s : State) (q : LPort) : Nat := s.ports[q].tr.rate.toNat

theorem rateOf_congr {s t : State} {q : LPort} (h : t.ports[q].tr = s.ports[q].tr) : rateOf t q = rateOf s q := by
  rw [rateOf, h, rateOf]

theorem rateOf_setRate (q : LPort) {rate : Nat} (h : rate < 1024) (s : State) : rateOf (setRate q rate s) q = rate :=
  setRate_rate q h s

/-- The smaller symbol rate of a pair. -/
def pairRate (s : State) (p : LPort) : Nat := min (rateOf s p) (rateOf s (mate p))

theorem pairRate_lt (s : State) (p : LPort) : pairRate s p < 1024 :=
  lt_of_le_of_lt (Nat.min_le_left (rateOf s p) (rateOf s (mate p))) s.ports[p].tr.rate.isLt

theorem joinPair_eq (p : LPort) (s : State) :
    joinPair p s = joinPort (pairRate s p) (mate p) (joinPort (pairRate s p) p s) := by
  simp only [joinPair, joinPort, pairRate, rateOf, eachOf, List.foldl_cons, List.foldl_nil]

/-- What a port that joins its pair takes, and what it leaves of the others. -/
structure Joins (rate : Nat) (q : LPort) (s t : State) : Prop where
  rate : rateOf t q = rate
  cLat : t.pool.ports[q].cLat = 24
  quiet : Quiet s q → Quiet t q
  others : ∀ j ≠ q, t.ports[j].tr = s.ports[j].tr
  othersCLat : ∀ j ≠ q, t.pool.ports[j].cLat = s.pool.ports[j].cLat
  thins : Thins s t
  within : regen s q = true → Within t q

theorem joinPort_joins {rate : Nat} (hrate : rate < 1024) (q : LPort) (s : State) : Joins rate q s (joinPort rate q s) := by
  have htr : ∀ j : LPort, (joinPort rate q s).ports[j].tr = (setRate q rate s).ports[j].tr := fun j => by
    simp only [joinPort, pruneClients_keeps, modPp_ports]
  have hpool : (joinPort rate q s).pool.ports =
      vmod (setRate q rate s).pool.ports q fun x => { x with cLat := 24 } := by
    rw [joinPort, pruneClients_pool, modPp_pool]
  have hmap : (modPp q (fun x => { x with cLat := 24 }) (setRate q rate s)).map = s.map := by
    rw [modPp_map, setRate_map]
  refine ⟨?_, ?_, fun h => .of_tr (htr q) (setRate_quiet rate h),
    fun j hj => ?_, fun j hj => ?_, ?_, fun h => ?_⟩
  · rw [rateOf_congr (htr q), rateOf_setRate q hrate]
  · rw [hpool, vmod_same]
  · rw [htr, setRate_others rate s hj]
  · rw [hpool, vmod_other _ _ _ _ hj, setRate_cLat rate s hj]
  · exact .trans (.of_map hmap) (pruneClients_thins q _)
  · exact pruneClients_within ((regen_congr (congrArg MapSt.regen hmap) q).trans h)

/-- What a pair that becomes regenerating takes on both its ports. -/
theorem joinPair_acts (p : LPort) (s : State) (hregen : regen s p = true) :
    Thins s (joinPair p s) ∧ ∀ q, q = p ∨ q = mate p →
      rateOf (joinPair p s) q = pairRate s p ∧ (joinPair p s).pool.ports[q].cLat = 24 ∧
      (Quiet s q → Quiet (joinPair p s) q) ∧ Within (joinPair p s) q := by
  have hlow := joinPort_joins (pairRate_lt s p) p s
  have hhigh := joinPort_joins (pairRate_lt s p) (mate p) (joinPort (pairRate s p) p s)
  have hne := mate_ne p
  rw [joinPair_eq]
  refine ⟨hlow.thins.trans hhigh.thins, fun q hq => ?_⟩
  rcases hq with rfl | rfl
  · rw [rateOf_congr (hhigh.others _ hne.symm), hhigh.othersCLat _ hne.symm]
    exact ⟨hlow.rate, hlow.cLat, fun h => .of_tr (hhigh.others _ hne.symm) (hlow.quiet h),
      hhigh.thins.within (hlow.within hregen)⟩
  · refine ⟨hhigh.rate, hhigh.cLat, fun h => hhigh.quiet (.of_tr (hlow.others _ hne) h), hhigh.within ?_⟩
    rw [regen_congr hlow.thins.regen, regen_mate, hregen]

/-! ### The role of a pair (R19, R138, R254) -/

/-- The pair has its new role, with steering and stored offsets reset. -/
def roleTaken (p : LPort) (on : Bool) (s : State) : State :=
  let s := modMap (fun m => { m with regen := vset m.regen (pairOf p) on }) s
  let s := eachOf [p, mate p] (fun q s =>
    modFront q (fun f => { f with steer := 0, holdover := false })
      (modSf q (fun f => { f with kRegen := none, everFwd := false }) s)) s
  eachOf [p, mate p] (fun q s =>
    modDial (fun d => { d with offset := vset (vset d.offset (rxRef q) none) (txRef q) none }) s) s

/-- Both ports of the pair are declared in one group. -/
def oneGroup (s : State) (p : LPort) : Bool :=
  s.ports[p].nlc.group != 0 && s.ports[mate p].nlc.group == s.ports[p].nlc.group

/-- What the role brings, in the state in which the pair has it. -/
def roleActs (p : LPort) (on : Bool) (s : State) : State :=
  nlcEval (if on && oneGroup s p then modNlc (mate p) (fun n => { n with group := 0 }) (if on then joinPair p s else s)
    else if on then joinPair p s else s)

theorem setRole_eq (p : LPort) (on : Bool) (s : State) :
    setRole p on s = if regen s p == on then s else roleActs p on (roleTaken p on s) := rfl

theorem roleTaken_map (p : LPort) (on : Bool) (s : State) :
    (roleTaken p on s).map = { s.map with regen := vset s.map.regen (pairOf p) on } := rfl

theorem roleTaken_regen (p : LPort) (on : Bool) (s : State) : regen (roleTaken p on s) p = on := by
  rw [regen, roleTaken_map, vset_same]

theorem roleTaken_dropMask (p : LPort) (on : Bool) (q : LPort) (s : State) :
    dropMask (roleTaken p on s) q = dropMask s q :=
  dropMask_congr (by rw [roleTaken_map]) (by rw [roleTaken_map]) q

theorem roleTaken_tr (p : LPort) (on : Bool) (q : LPort) (s : State) :
    (roleTaken p on s).ports[q].tr = s.ports[q].tr := by
  simp only [roleTaken, eachOf, List.foldl_cons, List.foldl_nil, modDial_ports, modFront_tr, modSf_tr, modMap_ports]

theorem modFront_nlc (p : LPort) (f : Front → Front) (q : LPort) (s : State) :
    (modFront p f s).ports[q].nlc = s.ports[q].nlc :=
  modPort_nlc p q _ s fun _ => rfl

theorem modSf_nlc (p : LPort) (f : Sf → Sf) (q : LPort) (s : State) :
    (modSf p f s).ports[q].nlc = s.ports[q].nlc :=
  modPort_nlc p q _ s fun _ => rfl

theorem roleTaken_nlc (p : LPort) (on : Bool) (q : LPort) (s : State) :
    (roleTaken p on s).ports[q].nlc = s.ports[q].nlc := by
  simp only [roleTaken, eachOf, List.foldl_cons, List.foldl_nil, modDial_ports, modFront_nlc, modSf_nlc, modMap_ports]

/-- What the role brings leaves training, the crossbar and the pool as the joining of the pair leaves them. -/
theorem roleActs_joined (p : LPort) (on : Bool) (s : State) :
    (∀ q : LPort, (roleActs p on s).ports[q].tr = (if on then joinPair p s else s).ports[q].tr) ∧
    (roleActs p on s).map = (if on then joinPair p s else s).map ∧
    (roleActs p on s).pool = (if on then joinPair p s else s).pool := by
  refine ⟨fun q => ?_, ?_, ?_⟩
  · rw [roleActs, nlcEval_ports, apply_ite (fun t : State => t.ports[q].tr), modNlc_tr, ite_self]
  · simp only [roleActs, nlcEval_keeps]
    rw [apply_ite State.map, modNlc_map, ite_self]
  · refine (nlcEval_only _ .pool (by decide)).trans ?_
    rw [apply_ite State.pool, modNlc_pool, ite_self]

/-- The higher port of a pair in one group loses its declaration (R138). -/
theorem roleActs_group {p : LPort} {s : State} (h : oneGroup s p = true) :
    (roleActs p true s).ports[mate p].nlc.group = 0 := by
  simp only [roleActs, nlcEval_ports, h, Bool.and_self, if_true, modNlc_ports, vmod_same]

/-- A role that the pair takes, with its ports outside TRAFFIC: the drop masks are as they were. -/
structure RoleSet (p : LPort) (on : Bool) (s t : State) : Prop where
  regen : regen t p = on
  mask : ∀ q, dropMask t q = dropMask s q
  quiet : ∀ q, q = p ∨ q = mate p → Quiet s q → Quiet t q

/-- A pair that becomes regenerating. -/
theorem setRole_joins {p : LPort} {s : State} (h : regen s p = false) :
    RoleSet p true s (setRole p true s) ∧ (oneGroup s p = true → (setRole p true s).ports[mate p].nlc.group = 0) ∧
      ∀ q, q = p ∨ q = mate p → rateOf (setRole p true s) q = pairRate s p ∧
        (setRole p true s).pool.ports[q].cLat = 24 ∧ Within (setRole p true s) q := by
  have hset : setRole p true s = roleActs p true (roleTaken p true s) := by
    rw [setRole_eq, if_neg (by rw [h]; decide)]
  obtain ⟨htr, hmap, hpool⟩ := roleActs_joined p true (roleTaken p true s)
  rw [← hset] at htr hmap hpool
  simp only [if_true] at htr hmap hpool
  obtain ⟨hthins, hjoins⟩ := joinPair_acts p (roleTaken p true s) (roleTaken_regen p true s)
  have hrate : pairRate (roleTaken p true s) p = pairRate s p := by
    rw [pairRate, rateOf_congr (roleTaken_tr ..), rateOf_congr (roleTaken_tr ..), pairRate]
  have hthins' : Thins (roleTaken p true s) (setRole p true s) := hthins.trans (.of_map hmap)
  refine ⟨⟨?_, fun q => ?_, fun q hq hst => ?_⟩, fun hgroup => ?_, fun q hq => ?_⟩
  · rw [regen_congr hthins'.regen, roleTaken_regen]
  · exact (dropMask_congr hthins'.dropLo hthins'.dropHi q).trans (roleTaken_dropMask p true q s)
  · obtain ⟨-, -, hquiet, -⟩ := hjoins q hq
    exact .of_tr (htr q) (hquiet (.of_tr (roleTaken_tr p true q s) hst))
  · rw [hset]
    refine roleActs_group ?_
    rw [oneGroup, roleTaken_nlc, roleTaken_nlc, ← oneGroup, hgroup]
  · obtain ⟨hport, hcLat, -, hwithin⟩ := hjoins q hq
    rw [rateOf_congr (htr q), hpool, ← hrate]
    exact ⟨hport, hcLat, Thins.within (.of_map hmap) hwithin⟩

/-- The pair takes its role, whatever it was. -/
theorem setRole_set (p : LPort) (on : Bool) (s : State) : RoleSet p on s (setRole p on s) := by
  by_cases hsame : regen s p = on
  · rw [setRole_eq, if_pos (beq_iff_eq.mpr hsame)]
    exact ⟨hsame, fun _ => rfl, fun _ _ h => h⟩
  · cases on with
    | true => exact (setRole_joins (by simpa using hsame)).1
    | false =>
      have hset : setRole p false s = roleActs p false (roleTaken p false s) := by
        rw [setRole_eq, if_neg fun h => hsame (beq_iff_eq.mp h)]
      obtain ⟨htr, hmap, -⟩ := roleActs_joined p false (roleTaken p false s)
      simp only [Bool.false_eq_true, if_false] at htr hmap
      rw [hset]
      refine ⟨?_, fun q => ?_, fun q _ hst => ?_⟩
      · rw [regen_congr (congrArg MapSt.regen hmap), roleTaken_regen]
      · have hmask := dropMask_congr (congrArg MapSt.dropLo hmap) (congrArg MapSt.dropHi hmap) q
        exact hmask.trans (roleTaken_dropMask p false q s)
      · exact .of_tr (htr q) (.of_tr (roleTaken_tr p false q s) hst)

/-! ### MAP_REGEN_PAIR (R254) -/

theorem mapRegenPair_ready {rq : Req} {s : State} (hd : Claims.Awake 0x5003 rq s) (hzero : pf rq 0 29 0 = 0)
    (hmasks : bit (par rq 0) 30 = true ∨ par rq 1 = 0) (hstates : firstFail (regenStates rq.params s) = none) :
    mapRegenPair rq s =
      if !(dropsScheduled rq s).isEmpty && decide (poolSize < s.dial.evs.length + (dropsScheduled rq s).length) then
        reply 0x5003 rq { st := .resource } s
      else reply 0x5003 rq { st := if (dropsScheduled rq s).isEmpty then .ok else .accepted }
        (changeDrop rq (mate (pairLow rq.params)) (changeDrop rq (pairLow rq.params)
          (setRole (pairLow rq.params) (bit (par rq 0) 30) s))) := by
  have hchecks : firstFail (regenChecks rq.params) = none := by
    refine firstFail_badAt _ _ ?_
    have hrole : (!bit (par rq 0) 30 && par rq 1 != 0) = false := by
      rcases hmasks with h | h
      · rw [h]; rfl
      · rw [h, bne_self_eq_false, Bool.and_false]
    rw [← par, ← par, ← pf, hzero, List.any_cons, List.any_cons, hrole]
    rfl
  rw [mapRegenPair, command_runs 0x5003 rq _ _ _ s hchecks hd hstates]

/-- Outside TRAFFIC no drop mask is scheduled. -/
theorem dropsScheduled_quiet {rq : Req} {s : State} (hlow : Quiet s (pairLow rq.params))
    (hhigh : Quiet s (mate (pairLow rq.params))) : dropsScheduled rq s = [] := by
  refine List.filter_eq_nil_iff.mpr fun q hq => ?_
  have hquiet : (s.ports[q].tr.state == .traffic) = false := by
    rcases List.mem_cons.mp hq with rfl | hq
    · exact beq_false_of_ne hlow
    · obtain rfl := List.mem_singleton.mp hq
      exact beq_false_of_ne hhigh
  rw [hquiet, Bool.and_false]
  exact Bool.false_ne_true

/-- With both ports in DOWN or MUTED the pair takes its role, and then each port its drop mask. -/
theorem mapRegenPair_now {rq : Req} {s : State} (hd : Claims.Awake 0x5003 rq s) (hzero : pf rq 0 29 0 = 0)
    (hmasks : bit (par rq 0) 30 = true ∨ par rq 1 = 0)
    (hlow : s.ports[pairLow rq.params].tr.state = .down ∨ s.ports[pairLow rq.params].tr.state = .muted)
    (hhigh : s.ports[mate (pairLow rq.params)].tr.state = .down ∨ s.ports[mate (pairLow rq.params)].tr.state = .muted) :
    Claims.Runs (.mapRegenPair rq) s (reply 0x5003 rq (okay [])
      (changeDrop rq (mate (pairLow rq.params)) (changeDrop rq (pairLow rq.params)
        (setRole (pairLow rq.params) (bit (par rq 0) 30) s)))) := by
  have hstill : ∀ {x : PortState}, x = .down ∨ x = .muted → (x == .down || x == .muted) = true ∧ x ≠ .traffic := by
    rintro x (rfl | rfl) <;> decide
  have hstates : firstFail (regenStates rq.params s) = none := by
    simp only [regenStates, firstFail_cons, (hstill hlow).1, (hstill hhigh).1, Bool.and_self, Bool.not_true,
      Bool.and_false, Bool.false_eq_true, if_false, firstFail_nil]
  have hruns := mapRegenPair_ready hd hzero hmasks hstates
  rw [dropsScheduled_quiet (hstill hlow).2 (hstill hhigh).2] at hruns
  exact congrArg Host.Outcome.next hruns

/-- The state checks of a MAP_REGEN_PAIR that keeps the role. -/
theorem regenStates_kept {rq : Req} {s : State} (h : regen s (pairLow rq.params) = bit (par rq 0) 30) :
    firstFail (regenStates rq.params s) = none := by
  rw [regenStates, firstFail_cons, h, par, bne_self_eq_false, Bool.false_and]
  rfl

/-- The lower port's mask alone must be scheduled. -/
theorem dropsScheduled_low {rq : Req} {s : State} (hst : s.ports[pairLow rq.params].tr.state = .traffic)
    (hnew : newDrop rq.params (pairLow rq.params) ≠ dropMask s (pairLow rq.params))
    (hsame : newDrop rq.params (mate (pairLow rq.params)) = dropMask s (mate (pairLow rq.params))) :
    dropsScheduled rq s = [pairLow rq.params] := by
  simp only [dropsScheduled, List.filter_cons, List.filter_nil, hsame, bne_self_eq_false, Bool.false_and,
    Bool.false_eq_true, if_false, bne_iff_ne.mpr hnew, hst, beq_self_eq_true, Bool.and_self, if_true]

/-- The event that a MAP_REGEN_PAIR enters for the drop mask of a port in TRAFFIC. -/
def dropEvent (rq : Req) (p : LPort) (s : State) : DialEv :=
  { implicitEvent s 0x5003 rq rq.params [] (rxRef p) with implicit := none }

/-- With room in the pool the change of the lower port's mask is entered, and nothing else changes. -/
theorem changeDrops_entered {rq : Req} {s : State} (hrole : regen s (pairLow rq.params) = bit (par rq 0) 30)
    (hst : s.ports[pairLow rq.params].tr.state = .traffic)
    (hnew : newDrop rq.params (pairLow rq.params) ≠ dropMask s (pairLow rq.params))
    (hsame : newDrop rq.params (mate (pairLow rq.params)) = dropMask s (mate (pairLow rq.params))) :
    changeDrop rq (mate (pairLow rq.params)) (changeDrop rq (pairLow rq.params)
      (setRole (pairLow rq.params) (bit (par rq 0) 30) s)) = enterEvent (dropEvent rq (pairLow rq.params) s) s := by
  have hlow : changeDrop rq (pairLow rq.params) s = enterEvent (dropEvent rq (pairLow rq.params) s) s := by
    rw [changeDrop, if_neg hnew, if_pos (beq_iff_eq.mpr hst), dropEvent]
  have hmask : dropMask (enterEvent (dropEvent rq (pairLow rq.params) s) s) (mate (pairLow rq.params)) =
      dropMask s (mate (pairLow rq.params)) :=
    dropMask_congr (by simp only [enterEvent_keeps]) (by simp only [enterEvent_keeps]) _
  rw [setRole_eq, if_pos (beq_iff_eq.mpr hrole), hlow, changeDrop, if_pos (hsame.trans hmask.symm)]

theorem mapRegens {rq : Req} {s : State} (hd : Claims.Awake 0x5003 rq s) (hzero : pf rq 0 29 0 = 0)
    (hmasks : bit (par rq 0) 30 = true ∨ par rq 1 = 0) (hrole : regen s (pairLow rq.params) = bit (par rq 0) 30)
    (hst : s.ports[pairLow rq.params].tr.state = .traffic)
    (hnew : newDrop rq.params (pairLow rq.params) ≠ dropMask s (pairLow rq.params))
    (hsame : newDrop rq.params (mate (pairLow rq.params)) = dropMask s (mate (pairLow rq.params))) :
    mapRegenPair rq s =
      if poolFull s then reply 0x5003 rq { st := .resource } s
      else reply 0x5003 rq { st := .accepted } (enterEvent (dropEvent rq (pairLow rq.params) s) s) := by
  have hruns := mapRegenPair_ready hd hzero hmasks (regenStates_kept hrole)
  rw [dropsScheduled_low hst hnew hsame, changeDrops_entered hrole hst hnew hsame] at hruns
  rw [hruns]
  exact if_congr (by simp [poolFull]) rfl rfl

theorem mapRegenCompletes : Claims.MapRegenCompletes := by
  intro rq s hd hzero hmasks p still
  obtain ⟨hevenLow, hoddHigh⟩ := pairLow_parity rq.params
  have hnewLow : newDrop rq.params p = pf rq 1 31 16 := if_pos hevenLow
  have hnewHigh : newDrop rq.params (mate p) = pf rq 1 15 0 := if_neg (by rw [hoddHigh]; decide)
  refine ⟨fun hlow hhigh => ?_, fun hrole hst hnew hsame hfull => ?_, fun hrole hst hnew hsame hroom => ?_⟩
  · have hne : ∀ {x : PortState}, x = .down ∨ x = .muted → x ≠ .traffic := by rintro x (rfl | rfl) <;> decide
    have hmate : mate (mate p) = p := by generalize p = q; revert q; decide
    have hset := setRole_set p (bit (par rq 0) 30) s
    have hquietLow := hset.quiet p (.inl rfl) (hne hlow)
    have hquietHigh := hset.quiet (mate p) (.inr rfl) (hne hhigh)
    have hfirst := changeDrop_taken (rq := rq) hquietLow
    have hsecond : MaskTaken rq.params (mate p) _ (changeDrop rq (mate p) (changeDrop rq p _)) :=
      changeDrop_taken (.of_tr (by rw [hfirst.ports]) hquietHigh)
    refine ⟨_, mapRegenPair_now hd hzero hmasks hlow hhigh, ?_, ?_, ?_, fun hwas hon hgroup heq => ?_,
      fun hwas hon q hq => ?_⟩
    · rw [regen_congr (hsecond.role.trans hfirst.role), hset.regen]
    · have hkept := hsecond.maskMate
      rw [hmate] at hkept
      rw [hkept, hfirst.mask, hnewLow]
    · rw [hsecond.mask, hnewHigh]
    · rw [hsecond.ports, hfirst.ports]
      rw [hon]
      obtain ⟨-, hleaves, -⟩ := setRole_joins hwas
      exact hleaves (by rw [oneGroup, heq, beq_self_eq_true, Bool.and_true]; exact bne_iff_ne.mpr hgroup)
    · obtain ⟨-, -, hjoins⟩ := setRole_joins hwas
      obtain ⟨hrate, hcLat, hwithin⟩ := hjoins q hq
      rw [hsecond.ports, hfirst.ports, hsecond.pool, hfirst.pool]
      rw [← hon] at hrate hcLat hwithin
      refine ⟨hrate, hcLat, ?_⟩
      have hregen := hset.regen.trans hon
      rcases hq with rfl | rfl
      · have hkept := hsecond.withinMate
        rw [hmate] at hkept
        exact hkept (hfirst.within hwithin hregen)
      · refine hsecond.within (hfirst.withinMate hwithin) ?_
        rw [regen_congr hfirst.role, regen_mate, hregen]
  · have hruns := mapRegens hd hzero hmasks hrole hst (hnewLow ▸ hnew) (hnewHigh.trans hsame)
    rw [hfull, if_pos rfl] at hruns
    exact congrArg Host.Outcome.next hruns
  · have hruns := mapRegens hd hzero hmasks hrole hst (hnewLow ▸ hnew) (hnewHigh.trans hsame)
    rw [hroom, if_neg Bool.false_ne_true] at hruns
    obtain ⟨i, u, n, hevs⟩ := enterEvent_evs (dropEvent rq p s) s
    exact ⟨_, _, congrArg Host.Outcome.next hruns, hevs, rfl, rfl, rfl, rfl,
      dropMask_congr (by simp only [enterEvent_keeps]) (by simp only [enterEvent_keeps]) _⟩

end Sys2Proof.Machine

open Sys2Proof Sys2Proof.Machine

/-- Settles O31: an add and a removal by the one client that they enter or drop and the event that they schedule, MAP_STATUS
by bit 15 of each entry, and MAP_REGEN_PAIR by its two ports, which take the pair's rate and their masks in turn, each
without touching what the other has taken. That HOST_ALIGN stands on a client that is added is the model's reading (log 97);
the smaller rate and the answers to a mask that is scheduled are its choices (logs 145 and 92). -/
theorem mapCommandsComplete : Obligations.MapCommandsComplete := ⟨mapCommands, mapRegenCompletes⟩
end

section
/-! PROOF. O11 and O12: the references of the Dial and their pairs (R291 to R293). -/

namespace Sys2Proof.Machine

/-- Every reference is the RX or the TX of its port. -/
theorem eq_rxRef_or_txRef (r : RefCode) : r = rxRef (refPort r) ∨ r = txRef (refPort r) := by revert r; decide

theorem rxRef_txRef_val (p : LPort) : (rxRef p).val = p.val ∧ (txRef p).val = 4 + p.val := by revert p; decide

theorem mate_mate (p : LPort) : mate (mate p) = p := by revert p; decide

theorem eq_mate_of_pairOf {p m : LPort} (hpair : pairOf m = pairOf p) (hne : m ≠ p) : m = mate p := by
  revert p m; decide

/-- The port whose other reference pairs with one of port `p` (R292). -/
def pairPort (s : State) (p : LPort) : LPort := if regen s p then mate p else p

theorem pairPort_pairPort (s : State) (p : LPort) : pairPort s (pairPort s p) = p := by
  unfold pairPort
  cases hrole : regen s p
  · simp [hrole]
  · simp [regen_mate, hrole, mate_mate]

theorem paired_rxRef (s : State) (p : LPort) : paired s (rxRef p) = txRef (pairPort s p) := by
  obtain ⟨hport, hrx⟩ := rxRef_port_isRx p
  simp only [paired, hport, hrx, if_true, pairPort]

theorem paired_txRef (s : State) (p : LPort) : paired s (txRef p) = rxRef (pairPort s p) := by
  obtain ⟨hport, hrx⟩ := txRef_port_isRx p
  simp only [paired, hport, hrx, Bool.false_eq_true, if_false, pairPort]

theorem paired_paired (s : State) (r : RefCode) : paired s (paired s r) = r := by
  rcases eq_rxRef_or_txRef r with h | h
  · rw [h, paired_rxRef, paired_txRef, pairPort_pairPort]
  · rw [h, paired_txRef, paired_rxRef, pairPort_pairPort]

end Sys2Proof.Machine

open Sys2Proof Sys2Proof.Machine

/-- Settles O11, by the port and the direction of each of the eight codes. -/
theorem referenceCodes : Obligations.ReferenceCodes := fun _ p =>
  ⟨(rxRef_txRef_val p).1, (rxRef_txRef_val p).2, eq_rxRef_or_txRef, rxRef_valid, txRef_valid⟩

/-- Settles O12: a reference pairs with the other direction of the port that the pair's role gives, and two ports that
exchange places do so again. -/
theorem pairedReferences : Obligations.PairedReferences := by
  intro s p m hpair hne
  obtain rfl := eq_mate_of_pairOf hpair hne
  refine ⟨fun hterminal => ?_, fun hregen => ?_, paired_paired s⟩
  · rw [paired_rxRef, paired_txRef, pairPort, hterminal]
    exact ⟨rfl, rfl⟩
  · rw [paired_rxRef, paired_txRef, pairPort, hregen]
    exact ⟨rfl, rfl⟩
end

section
/-! PROOF. The event pool of the Dial under its operations: a free entry is found while there is one (R295), and events that
complete or are cancelled leave the pool without a change to the others (R307, R311). -/

namespace Sys2Proof.Machine

theorem modDial_only (f : Dial → Dial) (s : State) : Claims.Only [.dial] s (modDial f s) := by
  intro x hx
  cases x <;> simp_all [Claims.Same]

theorem dialCount_only (i : Fin 10) (s : State) : Claims.Only [.dial] s (dialCount i s) := modDial_only _ s

theorem dialCount_evs (i : Fin 10) (s : State) : (dialCount i s).dial.evs = s.dial.evs := rfl

/-! ### Free entries -/

/-- Of more successive entries than the pool has events, one is not in use. -/
theorem exists_unused {evs : List DialEv} (h : evs.length < 65536) (k : Nat) :
    ∃ d, d < evs.length + 1 ∧ ∀ e ∈ evs, e.idx ≠ (k + d) % 65536 := by
  have hinj : Set.InjOn (fun d => (k + d) % 65536) (Finset.range (evs.length + 1)) := by
    intro a ha b hb hab
    simp only [Finset.coe_range, Set.mem_Iio] at ha hb
    simp only at hab
    omega
  have hcard : (evs.map (·.idx)).toFinset.card < ((Finset.range (evs.length + 1)).image fun d => (k + d) % 65536).card := by
    rw [Finset.card_image_of_injOn hinj, Finset.card_range, Nat.lt_add_one_iff]
    exact (List.toFinset_card_le _).trans (List.length_map _).le
  obtain ⟨i, hi, hfree⟩ := Finset.exists_mem_notMem_of_card_lt_card hcard
  obtain ⟨d, hd, rfl⟩ := Finset.mem_image.mp hi
  exact ⟨d, Finset.mem_range.mp hd, fun e he heq => hfree (List.mem_toFinset.mpr (List.mem_map.mpr ⟨e, he, heq⟩))⟩

/-- Where one of the entries tried is not in use, the search ends at such an entry. -/
theorem freeEntry_unused {evs : List DialEv} (fuel k d : Nat) (hd : d < fuel) (h : ∀ e ∈ evs, e.idx ≠ (k + d) % 65536) :
    freeEntry evs fuel k < 65536 ∧ ∀ e ∈ evs, e.idx ≠ freeEntry evs fuel k := by
  induction fuel generalizing k d with
  | zero => omega
  | succ fuel ih =>
    rw [freeEntry]
    split
    next hused =>
      obtain ⟨e, he, heq⟩ := List.any_eq_true.mp hused
      have hpos : d ≠ 0 := by
        rintro rfl
        exact h e he (beq_iff_eq.mp heq)
      have hsame : (k % 65536 + 1 + (d - 1)) % 65536 = (k + d) % 65536 := by omega
      exact ih (k % 65536 + 1) (d - 1) (by omega) (hsame ▸ h)
    next hunused =>
      refine ⟨Nat.mod_lt _ (by decide), fun e he heq => hunused ?_⟩
      exact List.any_eq_true.mpr ⟨e, he, beq_iff_eq.mpr heq⟩

/-- With room in the pool an event takes an entry that is not in use (R294, R295). -/
theorem enterEvent_unused (e : DialEv) {s : State} (hroom : poolFull s = false) :
    ∃ i u n, (enterEvent e s).dial.evs = s.dial.evs ++ [{ e with idx := i, use := u, seq := n }] ∧ i < 65536 ∧
      ∀ y ∈ s.dial.evs, y.idx ≠ i := by
  have hlen : s.dial.evs.length < 65536 := Nat.not_le.mp (of_decide_eq_false hroom)
  obtain ⟨d, hd, hfree⟩ := exists_unused hlen (Config.freeNat s.free)
  obtain ⟨hlt, hunused⟩ := freeEntry_unused _ _ d hd hfree
  exact ⟨_, _, _, rfl, hlt, hunused⟩

/-! ### Events that leave the pool -/

/-- In the Dial only events have gone: the others are in their order, and no counter has changed. -/
def Thinned (s t : State) : Prop := ∃ keep : DialEv → Bool, t.dial = { s.dial with evs := s.dial.evs.filter keep }

theorem Thinned.of_dial {s t : State} (h : t.dial = s.dial) : Thinned s t :=
  ⟨fun _ => true, by rw [h, List.filter_true]⟩

theorem Thinned.trans {s t u : State} (h : Thinned s t) (h' : Thinned t u) : Thinned s u := by
  obtain ⟨keep, h⟩ := h
  obtain ⟨keep', h'⟩ := h'
  exact ⟨fun e => keep e && keep' e, by rw [h', h, List.filter_filter]; simp only [Bool.and_comm]⟩

theorem Thinned.counters {s t : State} (h : Thinned s t) : t.dial.counters = s.dial.counters := by
  obtain ⟨_, h⟩ := h
  rw [h]

theorem Thinned.subset {s t : State} (h : Thinned s t) : t.dial.evs ⊆ s.dial.evs := by
  obtain ⟨keep, h⟩ := h
  rw [h]
  exact List.filter_subset_self _

/-- Entry `i` of the pool is free. -/
def Gone (i : Nat) (s : State) : Prop := ∀ x ∈ s.dial.evs, x.idx ≠ i

theorem Gone.thinned {i : Nat} {s t : State} (h : Gone i s) (ht : Thinned s t) : Gone i t :=
  fun x hx => h x (ht.subset hx)

theorem dropEvs_thinned (f : DialEv → Bool) (s : State) : Thinned s (dropEvs f s) := ⟨fun e => !f e, rfl⟩

theorem dropEvs_gone (i : Nat) (s : State) : Gone i (dropEvs (fun x => x.idx == i) s) := by
  intro x hx
  simpa using (List.mem_filter.mp hx).2

/-- An event that completes leaves the pool, wherever its completion goes (R295, R307). -/
theorem completeWith_dial (e : DialEv) (st : Status) (reason : Nat) (w : Word) (s : State) :
    (completeWith e st reason w s).dial = { s.dial with evs := s.dial.evs.filter fun x => x.idx != e.idx } := by
  unfold completeWith
  dsimp only
  split
  case h_4 => split <;> simp
  all_goals simp

theorem completeWith_thinned (e : DialEv) (st : Status) (reason : Nat) (w : Word) (s : State) :
    Thinned s (completeWith e st reason w s) := ⟨_, completeWith_dial e st reason w s⟩

theorem gone_of_filter {i : Nat} {s t : State} (h : t.dial = { s.dial with evs := s.dial.evs.filter fun x => x.idx != i }) :
    Gone i t := by
  intro x hx
  rw [h] at hx
  simpa using (List.mem_filter.mp hx).2

theorem completeWith_gone (e : DialEv) (st : Status) (reason : Nat) (w : Word) (s : State) :
    Gone e.idx (completeWith e st reason w s) := gone_of_filter (completeWith_dial e st reason w s)

/-- An answer takes at most the event that it completes from the pool (R25, R307). -/
theorem reply_thinned (op : Nat) (rq : Req) (a : Answer) (s : State) : Thinned s (reply op rq a s) := by
  have hun : Thinned s (unforward rq s) := .of_dial (by simp)
  unfold reply
  dsimp only
  split
  · exact hun.trans (.of_dial (by simp))
  · exact hun.trans (.of_dial (by simp))
  · split
    · exact hun.trans (completeWith_thinned ..)
    · exact hun

theorem abortEvent_removes (e : DialEv) (reason : Nat) (s : State) :
    Thinned s (abortEvent e reason s) ∧ Gone e.idx (abortEvent e reason s) := by
  unfold abortEvent
  dsimp only
  split
  · have hgone := completeWith_gone { e with atCount := refCount s e.ref, atRef := e.ref } .aborted reason 0 s
    exact ⟨completeWith_thinned .., hgone⟩
  · have hdrop : Thinned s (modDial (fun d => { d with evs := d.evs.filter fun x => x.idx != e.idx }) s) := ⟨_, rfl⟩
    exact ⟨hdrop.trans (reply_thinned ..), (gone_of_filter rfl).thinned (reply_thinned ..)⟩

/-- A switch that the Dial aborts takes at most the other candidates of its plan with it (R234, R235). -/
theorem switchAborted_thinned (k : DialKind) (s : State) : Thinned s (switchAborted k s) := by
  have hdropRx : ∀ (p : LPort) (t : State), Thinned t (dropRxPlan p t) := fun p t =>
    (dropEvs_thinned _ t).trans (.of_dial (modTr_dial ..))
  cases k with
  | stored => exact .of_dial rfl
  | fmtTx =>
    simp only [switchAborted]
    split
    · exact .of_dial (by simp)
    · exact .of_dial rfl
  | fmtRx =>
    simp only [switchAborted]
    split
    · exact .of_dial (by simp)
    · exact .of_dial rfl
  | tuneTx =>
    simp only [switchAborted]
    split
    · exact (Thinned.of_dial (by simp)).trans ((dropEvs_thinned _ _).trans (.of_dial (sendPlan_dial ..)))
    · exact .of_dial (by simp)
  | tuneRx =>
    simp only [switchAborted]
    split
    · exact (Thinned.of_dial (by simp)).trans (hdropRx _ _)
    · exact .of_dial (by simp)
  | rateTx | rateRx => exact .of_dial (by simp [switchAborted])

end Sys2Proof.Machine
end

section
/-! PROOF. O35: the Dial commands (R294, R295, R301, R303, R310 to R314). -/

namespace Sys2Proof.Machine

/-! ### DIAL_SCHEDULE (R295, R301, R303, R310) -/

theorem firstFail_append {cs ds : List (Bool × Answer)} (h : firstFail cs = none) :
    firstFail (cs ++ ds) = firstFail ds := by
  induction cs with
  | nil => rfl
  | cons c cs ih =>
    obtain ⟨b, a⟩ := c
    cases b
    · exact ih h
    · exact absurd h (Option.some_ne_none a)

/-- A reference's validity reads the ports and the power states. -/
theorem refValid_congr {s t : State} (hports : t.ports = s.ports) (hpower : t.power = s.power) (r : RefCode) :
    refValid t r = refValid s r := by
  unfold refValid isOn
  rw [hports, domSt_of_power hpower]

/-- The selection by which DIAL_SCHEDULE treats the event that it has entered as one whose reference is lost. -/
def isLast (s : State) (x : DialEv) : Bool := (lastEv s).any fun y => y.idx == x.idx

theorem isLast_iff {s : State} {l : List DialEv} {x : DialEv} (hevs : s.dial.evs = l ++ [x]) (y : DialEv) :
    isLast s y = (x.idx == y.idx) := by
  rw [isLast, lastEv, hevs, List.getLast?_concat, Option.any_some]

/-- The loss of its reference holds a pending HOLD event, and no other event where it alone is selected (R303). -/
theorem loseEvs_holds_last {s : State} {l : List DialEv} {x : DialEv} (hevs : s.dial.evs = l ++ [x])
    (hunused : ∀ y ∈ l, y.idx ≠ x.idx) (hpend : x.phase = .pending) (hstay : x.fallback = false) :
    (loseEvs (isLast s) x.ref s).dial.evs = l ++ [x.hold] := by
  have hothers : ∀ y ∈ l, isLast s y = false := fun y hy => by
    rw [isLast_iff hevs]
    exact beq_false_of_ne (hunused y hy).symm
  have hself : isLast s x = true := by rw [isLast_iff hevs, beq_self_eq_true]
  simp only [loseEvs, modDial_dial]
  rw [hevs, List.map_append, List.map_cons, List.map_nil]
  congr 1
  · exact (List.map_congr_left fun y hy => by simp [hothers y hy]).trans (List.map_id l)
  · simp [hself, hstay, hpend]

theorem loseEvs_counter0 (pick : DialEv → Bool) (r : RefCode) (s : State) :
    (loseEvs pick r s).dial.counters[(0 : Fin 10)] = s.dial.counters[(0 : Fin 10)] := by
  simp only [loseEvs, modDial_dial]
  rw [vmod_other _ _ _ _ (by decide), vmod_other _ _ _ _ (by decide)]

/-- An event with its place in the pool, in a state (R294). -/
def DialEv.placed (e : DialEv) (i : Nat) (u : BitVec 16) (n : Nat) (phase : DialPhase) : DialEv :=
  { e with idx := i, use := u, seq := n, phase := phase }

/-- An event that DIAL_SCHEDULE enters with room in the pool stands at the end of the pool, held when its reference is
invalid, and DIAL_ENTERED counts (R295, R301, R303). -/
theorem enterSched_enters {e : DialEv} {s : State} (hroom : poolFull s = false) (hpend : e.phase = .pending)
    (hwas : e.wasStaged = false) (hstay : refValid s e.ref = true ∨ e.fallback = false) :
    ∃ i u n, (enterSched e s).dial.evs = s.dial.evs ++
        [e.placed i u n (if refValid s e.ref then .pending else .held)] ∧
      i < 65536 ∧ (∀ y ∈ s.dial.evs, y.idx ≠ i) ∧
      (enterSched e s).dial.counters[(0 : Fin 10)] = s.dial.counters[(0 : Fin 10)] + 1 := by
  obtain ⟨i, u, n, hevs, hlt, hunused⟩ := enterEvent_unused e hroom
  have hvalid : refValid (dialCount 0 (enterEvent e s)) e.ref = refValid s e.ref := refValid_congr (by simp) (by simp) _
  have hcount : (dialCount 0 (enterEvent e s)).dial.counters[(0 : Fin 10)] = s.dial.counters[(0 : Fin 10)] + 1 :=
    vmod_same _ _ _
  refine ⟨i, u, n, ?_, hlt, hunused, ?_⟩
  · simp only [enterSched, hvalid]
    cases hv : refValid s e.ref
    · have hfallback : e.fallback = false := hstay.resolve_left (by rw [hv]; exact Bool.false_ne_true)
      refine (loseEvs_holds_last (s := dialCount 0 (enterEvent e s)) hevs hunused hpend hfallback).trans ?_
      simp [DialEv.hold, DialEv.placed, hpend, hwas]
    · refine hevs.trans ?_
      simp [DialEv.placed, hpend]
  · simp only [enterSched]
    split
    · exact hcount
    · exact (loseEvs_counter0 _ _ _).trans hcount

theorem enterSched_only (e : DialEv) (s : State) : Claims.Only [.dial, .free] s (enterSched e s) :=
  only_of_kept (enterSched_keeps e s)

theorem enterSched_free (e : DialEv) (s : State) : (enterSched e s).free = s.free + 1 := by
  have henter : (dialCount 0 (enterEvent e s)).free = s.free + 1 := rfl
  simp only [enterSched]
  split
  · exact henter
  · rw [← henter]
    simp only [loseEvs_keeps]

theorem poolFull_of_room {st : Stamp} {s : State} (h : poolRefuses st s = false) : poolFull s = false := by
  simp only [poolRefuses, Bool.or_eq_false_iff] at h
  obtain ⟨⟨hfull, -⟩, -⟩ := h
  exact hfull

/-- What follows the checks of DIAL_SCHEDULE: the event is refused for want of room, or entered (R310). -/
theorem dialSchedule_checked {rq : Req} {s : State} (h : firstFail (schedChecks rq s) = none)
    (hneeds : ∀ d ∈ eventNeeds s (schedEvent rq s), inDown s d = false) :
    dialSchedule rq s =
      if poolRefuses rq.stamp s then reply 0x6001 rq { st := .resource } (dialCount 7 s)
      else reply 0x6001 rq { st := .accepted, payload := [((lastEv (enterSched (schedEvent rq s) s)).map (·.id)).getD 0,
        wd (psHi (schedEvent rq s).target), wd (psLo (schedEvent rq s).target * 65536)] }
          (enterSched (schedEvent rq s) s) := by
  have hany : (eventNeeds s (schedEvent rq s)).any (inDown s) = false :=
    List.any_eq_false.mpr fun d hd => by rw [hneeds d hd]; exact Bool.false_ne_true
  have hpass : firstFail (schedChecks rq s ++ [((eventNeeds s (schedEvent rq s)).any (inDown s), busy)]) = none := by
    rw [firstFail_append h, firstFail_cons, hany, if_neg Bool.false_ne_true, firstFail_nil]
  rw [dialSchedule]
  simp only [hpass]

theorem dialScheduleCompletes : Claims.DialScheduleCompletes := by
  intro rq s h e hneeds
  have hrun := dialSchedule_checked h hneeds
  refine ⟨fun hfull => ?_, fun hroom hstay => ?_⟩
  · rw [hfull, if_pos rfl] at hrun
    exact ⟨_, congrArg Host.Outcome.next hrun, rfl, dialCount_only 7 s⟩
  · rw [hroom, if_neg Bool.false_ne_true] at hrun
    obtain ⟨i, u, n, hevs, hlt, hunused, hcount⟩ := enterSched_enters (e := e) (poolFull_of_room hroom) rfl rfl hstay
    rw [lastEv, hevs, List.getLast?_concat] at hrun
    exact ⟨enterSched e s, _, congrArg Host.Outcome.next hrun, hevs, rfl, rfl, hunused, hlt, hcount, enterSched_free e s,
      enterSched_only e s⟩

/-! ### DIAL_CANCEL (R311) -/

/-- A cancelled event leaves the pool and counts; other events at most leave it with it. -/
theorem cancelEvent_removes (e : DialEv) (s : State) :
    Thinned (dialCount 5 s) (cancelEvent e s) ∧ Gone e.idx (cancelEvent e s) := by
  simp only [cancelEvent]
  split
  · have hswitch := switchAborted_thinned e.kind (dropEvs (fun x => x.idx == e.idx) (dialCount 5 s))
    exact ⟨(dropEvs_thinned _ _).trans hswitch, (dropEvs_gone e.idx _).thinned hswitch⟩
  · exact abortEvent_removes e 1 _

theorem cancelEvents_remove (es : List DialEv) (s : State) :
    (∀ e ∈ es, Gone e.idx (eachOf es cancelEvent s)) ∧
      (eachOf es cancelEvent s).dial.counters[(5 : Fin 10)] = s.dial.counters[(5 : Fin 10)] + wd es.length := by
  induction es generalizing s with
  | nil => exact ⟨fun e he => absurd he List.not_mem_nil, (BitVec.add_zero _).symm⟩
  | cons e es ih =>
    obtain ⟨hthin, hgone⟩ := cancelEvent_removes e s
    obtain ⟨hrest, hcount⟩ := ih (cancelEvent e s)
    refine ⟨List.forall_mem_cons.mpr ⟨?_, hrest⟩, ?_⟩
    · have hstays : ∀ y ∈ es, ∀ t, Gone e.idx t → Gone e.idx (cancelEvent y t) := fun y _ t ht =>
        Gone.thinned (s := dialCount 5 t) ht (cancelEvent_removes y t).1
      exact eachOf_holds (s := cancelEvent e s) hstays hgone
    · have hone : (cancelEvent e s).dial.counters[(5 : Fin 10)] = s.dial.counters[(5 : Fin 10)] + 1 := by
        rw [hthin.counters]
        exact vmod_same _ _ _
      have hlen : wd (es.length + 1) = 1 + wd es.length := by
        rw [Nat.add_comm]
        exact BitVec.ofNat_add 1 es.length
      rw [List.length_cons, hlen, ← BitVec.add_assoc, ← hone]
      exact hcount

theorem dialCancel_runs {rq : Req} {s : State} (hmode : pf rq 0 31 30 ≠ 3) (hzero : pf rq 0 26 0 = 0)
    (hword : pf rq 0 31 30 = 0 ∨ par rq 1 = 0) (hsome : pf rq 0 31 30 = 0 → cancelSet rq s ≠ [])
    (hhost : isHost rq.stamp = true) :
    dialCancel rq s = reply 0x6002 rq (okay [wd (cancelSet rq s).length]) (eachOf (cancelSet rq s) cancelEvent s) := by
  simp only [pf] at hmode hzero hword hsome
  rw [dialCancel]
  refine command_runs _ _ _ _ _ s ?_ (fun d hd => nomatch hd) ?_
  · refine firstFail_badAt _ _ ?_
    rcases hword with h | h <;> simp [hmode, hzero, h]
  · have hknown : (fld (par rq 0) 31 30 == 0 && (cancelSet rq s).isEmpty) = false := by
      by_cases h : fld (par rq 0) 31 30 = 0
      · simpa [h] using hsome h
      · simp [h]
    simp only [firstFail_cons, firstFail_nil, hknown, hhost, Bool.not_true, Bool.and_false, Bool.false_eq_true, if_false]

/-! ### DIAL_LIST (R312) -/

theorem insertEv_eq (e : DialEv) (l : List DialEv) :
    insertEv e l = l.orderedInsert (fun a b => a.idx ≤ b.idx) e := by
  induction l with
  | nil => rfl
  | cons x l ih => rw [insertEv, List.orderedInsert_cons, ih]

theorem foldr_insertEv (l : List DialEv) : l.foldr insertEv [] = l.insertionSort fun a b => a.idx ≤ b.idx := by
  induction l with
  | nil => rfl
  | cons e l ih => rw [List.foldr_cons, ih, insertEv_eq, List.insertionSort_cons]

/-- The events that wait, in order of their pool entries. -/
theorem waiting_sorted (evs : List DialEv) :
    let l := (evs.filter (·.waits)).foldr insertEv []
    l.Pairwise (fun a b => a.idx ≤ b.idx) ∧ (∀ e ∈ l, e ∈ evs ∧ e.waits = true) ∧ l.length = evs.countP (·.waits) := by
  have htotal : Std.Total fun a b : DialEv => a.idx ≤ b.idx := ⟨fun a b => Nat.le_total _ _⟩
  have htrans : IsTrans DialEv fun a b => a.idx ≤ b.idx := ⟨fun a b c => Nat.le_trans⟩
  dsimp only
  rw [foldr_insertEv]
  refine ⟨List.pairwise_insertionSort _ _, fun e he => ?_, ?_⟩
  · exact List.mem_filter.mp ((List.mem_insertionSort _).mp he)
  · rw [List.length_insertionSort, List.countP_eq_length_filter]

theorem dialList_reports {rq : Req} (s : State) (hzero : pf rq 0 31 24 = 0) (hpos : 0 < pf rq 1 15 0)
    (hmax : pf rq 1 15 0 ≤ 4096) (hbulk : pf rq 0 23 0 + 5 * pf rq 1 15 0 ≤ bulkWords) :
    Claims.Reports (.dialList rq) .device 0x6003 rq (dialListAnswer rq s) s := by
  refine reports_of_report _ _ _ _ _ _ _ rfl (firstFail_badAt _ _ ?_) (fun d hd => nomatch hd)
  simp [hzero, bulkBad_eq_false _ _ hbulk, Nat.not_lt.mpr hmax, Nat.ne_of_gt hpos]

/-! ### DIAL_CONFIG (R313) -/

/-- The settings that DIAL_CONFIG leaves. -/
def dialSet (rq : Req) (d : Dial) : Dial :=
  { d with strideLog2 := if bit (par rq 0) 31 then pf rq 0 30 27 else d.strideLog2
           remoteMax := if bit (par rq 0) 26 then pf rq 0 25 11 else d.remoteMax }

theorem dialConfig_runs {rq : Req} {s : State} (hstride : pf rq 0 30 27 ≤ 12) (hmax : pf rq 0 25 11 ≤ 16384)
    (hzero : pf rq 0 10 0 = 0)
    (hkept : bit (par rq 0) 31 = true → pf rq 0 30 27 = s.dial.strideLog2 ∨ s.dial.evs.countP (·.waits) = 0) :
    dialConfig rq s = awaitReport .device 0x6004 rq (dialConfigAnswer rq) (modDial (dialSet rq) s) := by
  have hbusy : (bit (par rq 0) 31 && pf rq 0 30 27 != s.dial.strideLog2 && dialPending s != 0) = false := by
    cases hbit : bit (par rq 0) 31
    · rfl
    · rcases hkept hbit with h | h
      · simp [h]
      · simp [dialPending, h]
  rw [dialConfig]
  refine command_runs _ _ _ _ _ s (firstFail_badAt_one _ _ ?_) (fun d hd => nomatch hd) ?_
  · simp only [pf] at hstride hmax hzero
    simp [Nat.not_lt.mpr hstride, Nat.not_lt.mpr hmax, hzero]
  · exact (firstFail_cons _ _ _).trans (if_neg (by rw [pf] at hbusy; rw [hbusy]; exact Bool.false_ne_true))

/-! ### DIAL_TIME (R314) -/

theorem dialTime_reports {rq : Req} (s : State) (hzero : pf rq 0 29 0 = 0) :
    Claims.Reports (.dialTime rq) (.port (pport rq 0)) 0x6005 rq
      (reply 0x6005 rq (okay (dialTimeWords (pport rq 0) s)) s) s :=
  reports_of_report _ _ _ _ _ (dialTimeAnswer rq) _ rfl (firstFail_badAt_one _ _ (by simp [hzero])) (fun d hd => nomatch hd)

theorem dialTimeWords_lock (p : LPort) (s : State) : bit ((dialTimeWords p s).getD 1 0) 15 = s.ports[p].sf.lock :=
  bit_word 15 _ _ rfl (by simp)

theorem dialCommands : Claims.DialCommandsComplete := by
  intro rq s
  refine ⟨fun hmode hzero hword hsome hhost => ?_, fun hzero hpos hmax hbulk => ?_, fun hstride hmax hzero hkept => ?_,
    fun hzero => ?_⟩
  · obtain ⟨hgone, hcount⟩ := cancelEvents_remove (cancelSet rq s) s
    exact ⟨_, congrArg Host.Outcome.next (dialCancel_runs hmode hzero hword hsome hhost), hgone, hcount⟩
  · obtain ⟨hsorted, hwaits, hlen⟩ := waiting_sorted s.dial.evs
    refine ⟨(((s.dial.evs.filter (·.waits)).foldr insertEv []).drop (pf rq 1 31 16)).take (pf rq 1 15 0),
      fun e he => hwaits e (List.mem_of_mem_drop (List.mem_of_mem_take he)),
      hsorted.sublist ((List.take_sublist _ _).trans (List.drop_sublist _ _)), ?_, ?_⟩
    · rw [List.length_take, List.length_drop, hlen]
    · rw [← hlen]
      exact dialList_reports s hzero hpos hmax hbulk
  · intro d u
    have hrun := dialConfig_runs hstride hmax hzero hkept
    refine ⟨fun hoff => ?_, fun hon => ?_⟩
    · exact congrArg Host.Outcome.next (hrun.trans (awaitReport_now _ _ _ _ u hoff))
    · exact congrArg Host.Outcome.next (hrun.trans (awaitReport_waits _ _ _ _ u hon))
  · exact ⟨dialTimeWords (pport rq 0) s, rfl, rfl, dialTimeWords_lock _ s, rfl, dialTime_reports s hzero⟩

end Sys2Proof.Machine

open Sys2Proof Sys2Proof.Machine

/-- Settles O35: with room the search ends at a free entry and the event stands there, held when its reference is invalid;
the events that are cancelled leave the pool one by one; the list is an insertion sort by pool entry; and the other two wait
for their boundary with the model's own words. That an event entered against an invalid reference is treated as at the loss of
that reference, what DIAL_ENTERED and DIAL_FULL count, the rounding of DIAL_TIME, the area that DIAL_LIST checks, who may
cancel, and the first free entry from a free index on are the model's choices (logs 41, 43, 46, 47, 48 and 50). -/
theorem dialCommandsComplete : Obligations.DialCommandsComplete := ⟨dialScheduleCompletes, dialCommands⟩
end

section
/-! PROOF. O36: staging and release of Dial events (R293, R299 to R301, R307). -/

namespace Sys2Proof.Machine

/-! ### DIAL_STAGE (R299, R300) -/

theorem modEv_only (i : Nat) (f : DialEv → DialEv) (s : State) : Claims.Only [.dial] s (modEv i f s) := modDial_only _ s

/-- An EXACT event that comes within 64 superframes of its target goes to its core (R300). -/
theorem dialStage_hands {i : Nat} {done : Bool} {s : State} {e : DialEv} (hfind : s.dial.evs.find? (·.idx == i) = some e)
    (hexact : e.exact = true) (hkind : e.kind = .stored) (htakes : coreTakes e s = true) (hphase : e.phase = .pending)
    (hvalid : refValid s e.ref = true) (hnear : psfnDiff e.target (refCount s e.ref) ≤ 64) :
    dialStage i done s = stageEvent e done s := by
  simp [dialStage, hfind, hexact, hkind, htakes, hphase, hvalid, hnear]

/-- The event with the count and the reference at which its core takes it (R307). -/
def DialEv.atNow (e : DialEv) (s : State) : DialEv := { e with atCount := refCount s e.ref, atRef := e.ref }

section
variable {e : DialEv} {done : Bool} {s : State} (hperm : storedRefused e s = false) (hgate : storedGate e s = none)
include hperm hgate

/-- A stored packet that passes all its checks is staged with the bulk data that it read (R300). -/
theorem stageEvent_stages (hchecks : firstFail (stageChecks e (stageData e s) s) = none)
    (hneeds : ∀ d ∈ needsOf e.opcode.toNat e.params, isOn s d = true ∧ inDown s d = false)
    (hstates : firstFail (stageStates e (stageData e s) s) = none) :
    stageEvent e done s =
      modEv e.idx (fun x => { x with phase := .staged, stagingDone := done, data := stageData e s }) s := by
  have hperm' : storedRefused (e.atNow s) s = false := hperm
  have hgate' : storedGate (e.atNow s) s = none := hgate
  have hchecks' : firstFail (stageChecks (e.atNow s) (stageData (e.atNow s) s) s) = none := hchecks
  have hstates' : firstFail (stageStates (e.atNow s) (stageData (e.atNow s) s) s) = none := hstates
  rw [DialEv.atNow] at hperm' hgate' hchecks' hstates'
  simp only [stageEvent, hperm', hgate', hchecks', needs_on _ s hneeds, wakeNeeds_on _ s fun d hd => (hneeds d hd).1,
    hstates', Bool.false_eq_true, if_false]
  rfl

/-- A stored packet whose parameters fail completes with that answer (R300). -/
theorem stageEvent_fails {a : Answer} (hchecks : firstFail (stageChecks e (stageData e s) s) = some a) :
    stageEvent e done s = completeEvent (e.atNow s) a s := by
  have hperm' : storedRefused (e.atNow s) s = false := hperm
  have hgate' : storedGate (e.atNow s) s = none := hgate
  have hchecks' : firstFail (stageChecks (e.atNow s) (stageData (e.atNow s) s) s) = some a := hchecks
  rw [DialEv.atNow] at hperm' hgate' hchecks'
  simp only [stageEvent, hperm', hgate', hchecks', Bool.false_eq_true, if_false, DialEv.atNow]

end

theorem dialStageCompletes : Claims.DialStageCompletes := by
  intro i done s e hfind hexact hkind htakes hphase hvalid hnear hperm hgate
  have hidx : e.idx = i := by simpa using List.find?_some hfind
  have hrun : Claims.Runs (.dialStage i done) s (stageEvent e done s) :=
    congrArg Host.Outcome.next (dialStage_hands hfind hexact hkind htakes hphase hvalid hnear)
  subst hidx
  refine ⟨fun hchecks hneeds hstates => ?_, fun hchecks => ?_⟩
  · rw [stageEvent_stages hperm hgate hchecks hneeds hstates] at hrun
    exact ⟨_, hrun, rfl, modEv_only _ _ s⟩
  · obtain ⟨a, ha⟩ := Option.ne_none_iff_exists'.mp hchecks
    rw [stageEvent_fails hperm hgate ha] at hrun
    exact ⟨_, hrun, completeWith_gone (e.atNow s) _ _ _ s, by simp⟩

/-! ### The events of a boundary -/

theorem insertRelease_eq (s : State) (e : DialEv) (l : List DialEv) :
    insertRelease s e l = l.orderedInsert (fun a b => releasesFirst s a b = true) e := by
  induction l with
  | nil => rfl
  | cons x l ih => rw [insertRelease, List.orderedInsert_cons, ih]

theorem foldr_insertRelease (s : State) (l : List DialEv) :
    l.foldr (insertRelease s) [] = l.insertionSort fun a b => releasesFirst s a b = true := by
  induction l with
  | nil => rfl
  | cons e l ih => rw [List.foldr_cons, ih, insertRelease_eq, List.insertionSort_cons]

theorem mem_dueEvents {r : RefCode} {s : State} {e : DialEv} :
    e ∈ dueEvents r s ↔ e ∈ s.dial.evs ∧ e.ref = r ∧ isDue s e = true := by
  rw [dueEvents, foldr_insertRelease, List.mem_insertionSort, List.mem_filter, Bool.and_eq_true, beq_iff_eq]

theorem mem_exchanged {r : RefCode} {s : State} {e : DialEv} :
    e ∈ exchanged r s ↔ e ∈ s.dial.evs ∧ e.ref = r ∧ e.exact = true ∧ e.phase = .released := by
  rw [exchanged, List.mem_filter, Bool.and_eq_true, Bool.and_eq_true, beq_iff_eq, beq_iff_eq, and_assoc]

/-- An event that is due waits: it is not released. -/
theorem isDue_waits {s : State} {e : DialEv} (h : isDue s e = true) : e.phase ≠ .released := by
  simp only [isDue, Bool.and_eq_true] at h
  obtain ⟨⟨⟨hwaits, -⟩, -⟩, -⟩ := h
  exact bne_iff_ne.mp hwaits

/-- The one event of a pool entry is found by it. -/
theorem find_entry {l : List DialEv} {e : DialEv} (he : e ∈ l) (hone : ∀ a ∈ l, a.idx = e.idx → a = e) :
    l.find? (·.idx == e.idx) = some e := by
  cases h : l.find? (·.idx == e.idx) with
  | none => exact absurd (beq_self_eq_true e.idx) (List.find?_eq_none.mp h e he)
  | some a =>
    have hidx : a.idx = e.idx := by simpa using List.find?_some h
    rw [hone a (List.mem_of_find?_eq_some h) hidx]

/-! ### DIAL_RELEASE (R293, R299, R301) -/

/-- At the boundary of an invalid reference nothing is released but what has been exchanged (R293). -/
theorem released_invalid {r : RefCode} {s : State} (h : refValid s r = false) :
    released r s = (exchanged r s).foldr (insertRelease s) [] ∧ beyondRoom r s = [] := by
  simp [released, beyondRoom, h]

/-- An exchanged event is released where no other is due. -/
theorem released_exchanged {r : RefCode} {s : State} {e : DialEv} (hex : exchanged r s = [e])
    (hdue : refValid s r = true → dueEvents r s = []) : released r s = [e] ∧ beyondRoom r s = [] := by
  cases hvalid : refValid s r
  · obtain ⟨hrel, hbeyond⟩ := released_invalid hvalid
    exact ⟨by rw [hrel, hex]; rfl, hbeyond⟩
  · simp [released, beyondRoom, hvalid, hdue hvalid, hex, insertRelease]

/-- A PROMPT event is released where it alone is due. -/
theorem released_prompt {r : RefCode} {s : State} {e : DialEv} (hex : exchanged r s = []) (hvalid : refValid s r = true)
    (hdue : dueEvents r s = [e]) (hprompt : e.exact = false) : released r s = [e] ∧ beyondRoom r s = [] := by
  simp [released, beyondRoom, hvalid, hdue, hex, hprompt, insertRelease]

theorem dialRelease_none {r : RefCode} {s : State} (h : released r s = [] ∧ beyondRoom r s = []) : dialRelease r s = s := by
  obtain ⟨hrel, hbeyond⟩ := h
  rw [dialRelease, hrel, hbeyond]
  rfl

theorem dialRelease_one {r : RefCode} {s : State} {e : DialEv} (h : released r s = [e] ∧ beyondRoom r s = []) :
    dialRelease r s = releaseEvent e.idx (markReleased r e s) := by
  obtain ⟨hrel, hbeyond⟩ := h
  rw [dialRelease, hrel, hbeyond]
  rfl

theorem countLate_evs (c : Bool) (s : State) : (doIf c (dialCount 2) s).dial.evs = s.dial.evs := by
  cases c <;> rfl

/-- A count of DIAL_LATE leaves DIAL_RELEASED as it is. -/
theorem countLate_released (c : Bool) (s : State) :
    (doIf c (dialCount 2) s).dial.counters[(1 : Fin 10)] = s.dial.counters[(1 : Fin 10)] := by
  cases c
  · rfl
  · exact vmod_other _ _ _ _ (by decide)

/-- A release counts DIAL_RELEASED (R301). -/
theorem markReleased_counts (r : RefCode) (e : DialEv) (s : State) :
    (markReleased r e s).dial.counters[(1 : Fin 10)] = s.dial.counters[(1 : Fin 10)] + 1 := by
  have hone : (dialCount 1 s).dial.counters[(1 : Fin 10)] = s.dial.counters[(1 : Fin 10)] + 1 := vmod_same _ _ _
  simp only [markReleased]
  split
  · exact (countLate_released _ _).trans hone
  · exact (countLate_released _ _).trans hone

/-- The release of an event that its boundary has exchanged changes the counts alone; DIAL_LATE counts an event that is LATE
and has not been deferred. -/
theorem markReleased_exchanged {r : RefCode} {e : DialEv} {s : State} (h : e.phase = .released) :
    (markReleased r e s).dial.evs = s.dial.evs ∧ (markReleased r e s).dial.counters[(2 : Fin 10)] =
      s.dial.counters[(2 : Fin 10)] + if e.late = true ∧ e.deferred = false then 1 else 0 := by
  have hone : (dialCount 1 s).dial.counters[(2 : Fin 10)] = s.dial.counters[(2 : Fin 10)] :=
    vmod_other _ _ _ _ (by decide)
  have hrun : markReleased r e s = doIf (e.late && !e.deferred) (dialCount 2) (dialCount 1 s) := by
    simp [markReleased, h]
  rw [hrun, ← hone]
  cases hcount : e.late && !e.deferred
  · rw [if_neg fun hlate => by simp [hlate] at hcount]
    exact ⟨rfl, (BitVec.add_zero _).symm⟩
  · rw [if_pos (by simpa using hcount)]
    exact ⟨rfl, vmod_same _ _ _⟩

/-- A due event after its mark: released, LATE when its target is passed, at the count of the boundary. -/
def DialEv.marked (e : DialEv) (r : RefCode) (s : State) : DialEv :=
  { e with phase := .released, late := e.late || decide (psfnDiff e.target (refCount s r) < 0), atCount := refCount s r
           atRef := r }

/-- After its mark a due event is what its pool entry holds. -/
theorem markReleased_due {r : RefCode} {e : DialEv} {s : State} (he : e ∈ s.dial.evs) (hphase : e.phase ≠ .released)
    (hone : ∀ a ∈ s.dial.evs, a.idx = e.idx → a = e) :
    (markReleased r e s).dial.evs.find? (·.idx == e.idx) = some (e.marked r s) := by
  have hevs : (markReleased r e s).dial.evs =
      s.dial.evs.map fun x => if x.idx == e.idx then e.marked r s else x := by
    have hwaits : (e.phase == .released) = false := beq_false_of_ne hphase
    simp only [markReleased, hwaits, Bool.false_eq_true, if_false]
    refine (congrArg (List.map _) (countLate_evs _ _)).trans (List.map_congr_left fun x hx => ?_)
    by_cases hsame : x.idx = e.idx
    · obtain rfl := hone x hx hsame
      simp [DialEv.marked, bne, hwaits]
    · simp [hsame]
  rw [hevs]
  refine find_entry (e := e.marked r s) (List.mem_map.mpr ⟨e, he, if_pos (beq_self_eq_true _)⟩) fun a ha hidx => ?_
  obtain ⟨b, hb, rfl⟩ := List.mem_map.mp ha
  by_cases hsame : b.idx = e.idx
  · exact if_pos (beq_iff_eq.mpr hsame)
  · rw [if_neg (by simpa using hsame)] at hidx
    exact absurd hidx hsame

/-- An exchanged event without a completion channel or an implicit command leaves the pool (R301, R307). -/
theorem releaseEvent_exact {e : DialEv} {s : State} (hfind : s.dial.evs.find? (·.idx == e.idx) = some e)
    (hkind : e.kind = .stored) (hexact : e.exact = true) (himplicit : e.implicit = none) :
    ∃ st w, releaseEvent e.idx s = completeWith e st 0 w s := by
  simp only [releaseEvent, hfind, hkind, hexact, completeExact, himplicit, completeEvent]
  exact ⟨_, _, rfl⟩

/-- A PROMPT event whose sender has lost the permission leaves the pool unexecuted (R299). -/
theorem releaseEvent_refused {i : Nat} {e : DialEv} {s : State} (hfind : s.dial.evs.find? (·.idx == i) = some e)
    (hkind : e.kind = .stored) (hprompt : e.exact = false) (hrefused : storedRefused e s = true) :
    ∃ st, releaseEvent i s = completeWith e st 0 0 s := by
  obtain ⟨a, ha⟩ := Option.isSome_iff_exists.mp hrefused
  refine ⟨a.st, ?_⟩
  simp [releaseEvent, hfind, hkind, hprompt, runPrompt, hrefused, completeRefused, ha]

/-- The second permission check reads the permissions alone (R299). -/
theorem storedRefused_congr (e : DialEv) {s t : State} (h : t.sys = s.sys) : storedRefused e t = storedRefused e s := by
  unfold storedRefused permission
  rw [h]

theorem dialReleaseCompletes : Claims.DialReleaseCompletes := by
  intro r s
  refine ⟨fun hvalid hex => ?_, fun e hex hdue hone hkind himplicit hcompl => ?_,
    fun e hex hvalid hdue hone hkind hprompt hrefused => ?_⟩
  · obtain ⟨hrel, hbeyond⟩ := released_invalid hvalid
    exact congrArg Host.Outcome.next (dialRelease_none ⟨by rw [hrel, hex]; rfl, hbeyond⟩)
  · obtain ⟨he, -, hexact, hphase⟩ := mem_exchanged.mp (hex ▸ List.mem_singleton_self e)
    obtain ⟨hevs, hlate⟩ := markReleased_exchanged (r := r) (s := s) hphase
    have hfind := hevs ▸ find_entry he hone
    obtain ⟨st, w, hrun⟩ := releaseEvent_exact hfind hkind hexact himplicit
    have hcounters := (completeWith_thinned e st 0 w (markReleased r e s)).counters
    refine ⟨_, congrArg Host.Outcome.next ((dialRelease_one (released_exchanged hex hdue)).trans hrun),
      completeWith_gone e st 0 w _, by simp, ?_, ?_⟩
    · rw [hcounters]
      exact markReleased_counts r e s
    · rw [hcounters]
      exact hlate
  · obtain ⟨he, -, hisdue⟩ := mem_dueEvents.mp (hdue ▸ List.mem_singleton_self e)
    have hfind := markReleased_due (r := r) he (isDue_waits hisdue) hone
    have hrefused' : storedRefused (e.marked r s) (markReleased r e s) = true :=
      (storedRefused_congr e (by simp)).trans hrefused
    obtain ⟨st, hrun⟩ := releaseEvent_refused hfind hkind hprompt hrefused'
    refine ⟨_, congrArg Host.Outcome.next ((dialRelease_one (released_prompt hex hvalid hdue hprompt)).trans hrun),
      completeWith_gone (e.marked r s) st 0 0 _, by simp, ?_⟩
    rw [(completeWith_thinned (e.marked r s) st 0 0 (markReleased r e s)).counters]
    exact markReleased_counts r e s

end Sys2Proof.Machine

open Sys2Proof Sys2Proof.Machine

/-- Settles O36: with its checks passed or failed a staging ends in its one outcome, and a boundary that releases one event
marks it and lets it complete, so that it leaves the pool and the counts are those of the mark. That the exchange of an EXACT
event and its completion are two rows, that DIAL_RELEASED counts at the release and DIAL_LATE at the mark, and the status of a
refused event are the model's choices (logs 129, 43 and 44). -/
theorem dialEventsComplete : Obligations.DialEventsComplete := ⟨dialStageCompletes, dialReleaseCompletes⟩
end

section
/-! PROOF. What the operations around a calibration run leave of a port's Regulator: its record, the alarms of its converters
and the bells that have been rung (R58, R134, R217, R319, R381, R457). -/

namespace Sys2Proof.Machine

/-! ### Bells -/

theorem ring_sets (b : Nat) (s : State) (h : b < 32) : bit (ring b s).mbx.dbHost b = true := by
  have hbit : bit (wd (2 ^ b)) b = true := by
    rw [bit_eq_getLsbD, wd, BitVec.getLsbD_ofNat, Nat.testBit_two_pow_self, decide_eq_true h, Bool.and_self]
  exact (bit_or _ _ b).trans (by rw [hbit, Bool.or_true])

theorem modAlarm_mbx (key : AlarmKey) (f : Alarm → Alarm) (s : State) : (modAlarm key f s).mbx = s.mbx := by
  cases key <;> rfl

/-- An alarm that is raised or cleared clears no doorbell bit (R472). -/
theorem setAlarm_dbHost (key : AlarmKey) (b : Nat) (on : Bool) (n : Nat) (s : State) (h : bit s.mbx.dbHost n = true) :
    bit (setAlarm key b on s).mbx.dbHost n = true := by
  have hmod : bit (modAlarm key (Alarm.put b on) s).mbx.dbHost n = true := by rw [modAlarm_mbx, h]
  rw [setAlarm_eq]
  split_ifs
  · exact h
  · exact hmod
  · exact ringBits_dbHost _ n _ (postEvent_dbHost _ _ _ _ _ n _ hmod)

/-! ### The frame -/

/-- Between two states the Regulator of port `p` and the alarms of its converters are as they were, and no doorbell bit has
been cleared. -/
structure CalFrame (p : LPort) (s t : State) : Prop where
  cal : t.ports[p].cal = s.ports[p].cal
  alarm : ∀ b, alarmOn t (.conv p) b = alarmOn s (.conv p) b
  bells : ∀ b, bit s.mbx.dbHost b = true → bit t.mbx.dbHost b = true

theorem CalFrame.refl (p : LPort) (s : State) : CalFrame p s s := ⟨rfl, fun _ => rfl, fun _ => id⟩

theorem CalFrame.trans {p : LPort} {s t u : State} (h : CalFrame p s t) (h' : CalFrame p t u) : CalFrame p s u :=
  ⟨h'.cal.trans h.cal, fun b => (h'.alarm b).trans (h.alarm b), fun b => h'.bells b ∘ h.bells b⟩

theorem CalFrame.ite {c : Prop} [Decidable c] {p : LPort} {s t u : State} (ht : CalFrame p s t) (hu : CalFrame p s u) :
    CalFrame p s (if c then t else u) := by
  split
  · exact ht
  · exact hu

theorem CalFrame.of_keeps {p : LPort} {s t : State} (hcal : t.ports[p].cal = s.ports[p].cal) (halarms : t.alarms = s.alarms)
    (hmbx : t.mbx = s.mbx) : CalFrame p s t :=
  ⟨hcal, fun b => alarmOn_congr halarms _ b, fun _ h => hmbx ▸ h⟩

/-! ### Changes of one part -/

/-- A change of a port that keeps its Regulator keeps that of every port. -/
theorem modPort_cal (p q : LPort) (f : PortSt → PortSt) (s : State) (h : ∀ x, (f x).cal = x.cal) :
    (modPort p f s).ports[q].cal = s.ports[q].cal := by
  by_cases hq : q = p
  · subst hq
    simp only [modPort_ports, vmod_same, h]
  · simp only [modPort_ports, vmod_other _ _ _ _ hq]

theorem modPort_calFrame (p q : LPort) (f : PortSt → PortSt) (s : State) (h : ∀ x, (f x).cal = x.cal) :
    CalFrame p s (modPort q f s) :=
  .of_keeps (modPort_cal q p f s h) rfl rfl

theorem modTr_calFrame (p q : LPort) (f : Train → Train) (s : State) : CalFrame p s (modTr q f s) :=
  modPort_calFrame p q _ s fun _ => rfl

theorem modTr2_calFrame (p q : LPort) (f : Train2 → Train2) (s : State) : CalFrame p s (modTr2 q f s) :=
  modPort_calFrame p q _ s fun _ => rfl

theorem modRx_calFrame (p q : LPort) (f : Rx → Rx) (s : State) : CalFrame p s (modRx q f s) :=
  modPort_calFrame p q _ s fun _ => rfl

theorem modSf_calFrame (p q : LPort) (f : Sf → Sf) (s : State) : CalFrame p s (modSf q f s) :=
  modPort_calFrame p q _ s fun _ => rfl

theorem modFront_calFrame (p q : LPort) (f : Front → Front) (s : State) : CalFrame p s (modFront q f s) :=
  modPort_calFrame p q _ s fun _ => rfl

theorem modNlc_calFrame (p q : LPort) (f : Nlc → Nlc) (s : State) : CalFrame p s (modNlc q f s) :=
  modPort_calFrame p q _ s fun _ => rfl

theorem ring_calFrame (p : LPort) (b : Nat) (s : State) : CalFrame p s (ring b s) :=
  ⟨rfl, fun _ => rfl, fun n => ringBits_dbHost _ n s⟩

/-- Raising or clearing an alarm that is not one of the port's converters. -/
theorem setAlarm_calFrame (p : LPort) {key : AlarmKey} (b : Nat) (on : Bool) (s : State) (h : .conv p ≠ key) :
    CalFrame p s (setAlarm key b on s) :=
  ⟨by rw [setAlarm_port], fun n => alarmOn_setAlarm_other key _ b n on s h, fun n => setAlarm_dbHost key b on n s⟩

theorem refresh_calFrame (p : LPort) (s : State) : CalFrame p s (refresh s) :=
  .of_keeps (by simp only [refresh, eachPort, refreshPort_cal]) (by simp only [refresh_keeps])
    (by simp only [refresh_keeps])

/-! ### The entry of a state (R217, R224) -/

theorem dropEvs_calFrame (p : LPort) (pick : DialEv → Bool) (s : State) : CalFrame p s (dropEvs pick s) :=
  .of_keeps (by simp only [dropEvs_keeps]) (by simp only [dropEvs_keeps]) (by simp only [dropEvs_keeps])

theorem rateTaken_calFrame (p q : LPort) (k : Nat) (s : State) : CalFrame p s (rateTaken q k s) := by
  unfold rateTaken
  split
  · exact modTr2_calFrame ..
  · exact .refl p s

theorem cancelSwitches_calFrame (p q : LPort) (primed : Bool) (s : State) : CalFrame p s (cancelSwitches primed q s) := by
  simp only [cancelSwitches]
  exact (dropEvs_calFrame p _ s).trans (modTr_calFrame ..)

theorem cancelTrain_calFrame (p q : LPort) (s : State) : CalFrame p s (cancelTrain q s) := by
  have hrates : ∀ t, CalFrame p t (dropRates q t) := fun t =>
    .ite (.refl p t) ((dropEvs_calFrame p _ t).trans (rateTaken_calFrame ..))
  exact (cancelSwitches_calFrame p q false s).trans ((hrates _).trans (modTr2_calFrame ..))

theorem eachOf_calFrame {α : Type} {f : α → State → State} {p : LPort} (h : ∀ x t, CalFrame p t (f x t)) (l : List α)
    (s : State) : CalFrame p s (eachOf l f s) := by
  induction l generalizing s with
  | nil => exact .refl p s
  | cons x l ih => exact (h x s).trans (ih (f x s))

theorem modMap_calFrame (p : LPort) (f : MapSt → MapSt) (s : State) : CalFrame p s (modMap f s) := .of_keeps rfl rfl rfl

theorem setRxFail_calFrame (p : LPort) (k : HLane) (on : Bool) (s : State) : CalFrame p s (setRxFail k on s) := by
  simp only [setRxFail, raiseAlarm, modClients]
  exact (modMap_calFrame p _ s).trans (.ite (setAlarm_calFrame p 8 true _ nofun) (.refl p _))

/-- Clients that fail raise alarms of the host side alone (R270). -/
theorem failClients_calFrame (p q : LPort) (s : State) : CalFrame p s (failClients q s) := by
  rw [failClients]
  refine eachOf_calFrame ?_ _ s
  exact fun c t => setRxFail_calFrame p c.first true t

theorem setPort_calFrame (p q : LPort) (st : PortState) (s : State) : CalFrame p s (setPort q st s) := by
  simp only [setPort]
  exact (modTr_calFrame ..).trans (.ite ((modMap_calFrame p _ _).trans (failClients_calFrame p q _)) (.refl p _))

theorem acqDescs_calFrame (p q : LPort) (s : State) : CalFrame p s (acqDescs q s) := modTr_calFrame p q _ s

theorem acqFormats_calFrame (p q : LPort) (s : State) : CalFrame p s (acqFormats q s) :=
  (acqDescs_calFrame p q s).trans (modNlc_calFrame ..)

theorem poolEnter_calFrame (p q : LPort) (s : State) : CalFrame p s (poolEnter q s) :=
  .of_keeps (by simp only [poolEnter_keeps]) (by simp only [poolEnter_keeps]) (by simp only [poolEnter_keeps])

theorem poolLeave_calFrame (p q : LPort) (s : State) : CalFrame p s (poolLeave q s) := by
  refine .trans (.of_keeps ?_ ?_ ?_) (setAlarm_calFrame p 9 false _ nofun) <;>
    simp only [modPp_ports, modPp_alarms, modPp_mbx, discardOpen_keeps]

theorem startAttempt_calFrame (p q : LPort) (s : State) : CalFrame p s (startAttempt q s) :=
  .ite ((modRx_calFrame ..).trans (setAlarm_calFrame p 1 false _ nofun)) (.refl p s)

theorem maybeAcquire_calFrame (p q : LPort) (s : State) : CalFrame p s (maybeAcquire q s) :=
  .ite (.refl p s) (startAttempt_calFrame p q s)

theorem enterMuted_calFrame (p q : LPort) (s : State) : CalFrame p s (enterMuted q s) := by
  simp only [enterMuted]
  exact (cancelTrain_calFrame p q s).trans <| (setPort_calFrame p q .muted _).trans <| (modTr_calFrame ..).trans <|
    (modTr2_calFrame ..).trans <| (poolLeave_calFrame p q _).trans <|
    (CalFrame.ite (acqDescs_calFrame p q _) (acqFormats_calFrame p q _)).trans <|
    (refresh_calFrame p _).trans (maybeAcquire_calFrame p q _)

theorem enterAcquire_calFrame (p q : LPort) (s : State) : CalFrame p s (enterAcquire q s) := by
  simp only [enterAcquire]
  exact (cancelTrain_calFrame p q s).trans <| (setPort_calFrame p q .acquire _).trans <| (modTr_calFrame ..).trans <|
    (modTr2_calFrame ..).trans <| (acqFormats_calFrame p q _).trans <| (poolEnter_calFrame p q _).trans <|
    (refresh_calFrame p _).trans (maybeAcquire_calFrame p q _)

theorem enterHoldover_calFrame (p q : LPort) (primed : Bool) (s : State) : CalFrame p s (enterHoldover primed q s) := by
  simp only [enterHoldover]
  exact (cancelSwitches_calFrame p q primed s).trans <| (setPort_calFrame p q .holdover _).trans <|
    (modTr_calFrame ..).trans (modTr2_calFrame ..)

/-! ### Losses of lock (R58, R221) -/

theorem trainFail_calFrame (p q : LPort) (reason : Nat) (sendAbort counts : Bool) (s : State) :
    CalFrame p s (trainFail q reason sendAbort counts s) := by
  simp only [trainFail]
  refine (modTr2_calFrame ..).trans ((modTr_calFrame ..).trans (.ite (enterMuted_calFrame p q _) ?_))
  refine (enterAcquire_calFrame p q _).trans ((modTr_calFrame p q (fun t => { t with retryHold := true }) _).trans ?_)
  exact .ite (modTr_calFrame p q _ _) (.refl p _)

theorem dropLock_calFrame (p q : LPort) (s : State) : CalFrame p s (dropLock q s) := by
  have hlost : ∀ (r : RefCode) (t : State), CalFrame p t (refLost r t) := fun r t =>
    .of_keeps (by simp only [refLost_keeps]) (by simp only [refLost_keeps]) (by simp only [refLost_keeps])
  refine .ite (.trans (.trans (modSf_calFrame ..) (.ite ?_ (.refl p _))) (hlost _ _)) (.refl p s)
  exact (modSf_calFrame ..).trans (modFront_calFrame ..)

theorem lockLoss_calFrame (p q : LPort) (s : State) : CalFrame p s (lockLoss q s) := by
  simp only [lockLoss]
  refine .ite ((dropLock_calFrame p q s).trans ?_) (.refl p s)
  split
  · exact enterHoldover_calFrame p q false _
  · exact trainFail_calFrame p q _ true true _
  all_goals exact .refl p _

/-! ### The end of a run (R84, R319) -/

theorem endChange_calFrame (p q : LPort) (s : State) : CalFrame p s (endChange q s) :=
  .ite ((modFront_calFrame ..).trans ((refresh_calFrame p _).trans (maybeAcquire_calFrame p q _))) (.refl p s)

theorem calWaited_calFrame (p q : LPort) (s : State) : CalFrame p s (calWaited q s) :=
  (endChange_calFrame p q s).trans
    (.ite ((modTr_calFrame ..).trans (enterAcquire_calFrame p q _)) ((modTr_calFrame ..).trans (maybeAcquire_calFrame p q _)))

end Sys2Proof.Machine
end

section
/-! PROOF. O37: CAL_RUN and CAL_POLICY_SET (R317, R319, R326 to R328, R332, R333), and how a run begins. -/

namespace Sys2Proof.Machine

/-! ### Changes of one Regulator -/

theorem modCal_cal (p : LPort) (f : Cal → Cal) (s : State) : (modCal p f s).ports[p].cal = f s.ports[p].cal := by
  rw [modCal_ports, vmod_same]

theorem modCal_other {p q : LPort} (f : Cal → Cal) (s : State) (h : q ≠ p) : (modCal p f s).ports[q] = s.ports[q] := by
  rw [modCal_ports, vmod_other _ _ _ _ h]

theorem modCal_modCal (p : LPort) (f g : Cal → Cal) (s : State) : modCal p f (modCal p g s) = modCal p (f ∘ g) s := by
  simp only [modCal, modPort, vmod_vmod]
  rfl

theorem modCal_only (p : LPort) (f : Cal → Cal) (s : State) : Claims.Only [.ports] s (modCal p f s) := by
  intro x hx
  cases x <;> simp_all [Claims.Same]

/-! ### How a run begins (R319, R327) -/

/-- The Regulator as a run begins at microsecond `now`. -/
def Cal.begun (kind : CalRunKind) (items : BitVec 6) (trigger : BitVec 3) (now : Nat) (c : Cal) : Cal :=
  { c with
    run := kind, items := items, trigger := trigger, retry := none, rotated := 0, startUsec := now, runT := 0, runN := 0 }

section
variable (p : LPort) (kind : CalRunKind) (items : BitVec 6) (trigger : BitVec 3) (s : State)

theorem calBegin_eq : calBegin p kind items trigger s =
    if kind == .foreground then
      modRx p Rx.drop (unalign p (lockLoss p (modCal p (Cal.begun kind items trigger s.sys.usec) s)))
    else modCal p (Cal.begun kind items trigger s.sys.usec) s := rfl

theorem calBegin_background : calBegin p .background items trigger s =
    modCal p (Cal.begun .background items trigger s.sys.usec) s := rfl

/-- Whatever its method, a run begins with the same record. -/
theorem calBegin_cal : (calBegin p kind items trigger s).ports[p].cal =
    s.ports[p].cal.begun kind items trigger s.sys.usec := by
  have hframe : CalFrame p (modCal p (Cal.begun kind items trigger s.sys.usec) s) (calBegin p kind items trigger s) := by
    rw [calBegin_eq]
    exact .ite ((lockLoss_calFrame p p _).trans ((modSf_calFrame ..).trans (modRx_calFrame ..))) (.refl p _)
  rw [hframe.cal, modCal_cal]

/-- In a foreground run the receiver sees no signal (R319). -/
theorem calBegin_foreground :
    let x := (calBegin p .foreground items trigger s).ports[p]
    x.sf.aligned = false ∧ x.sf.lock = false ∧ x.rx.running = false ∧ x.rx.eq = .off := by
  simp only [calBegin_eq, beq_self_eq_true, if_true, modRx_sf, modRx_rx, unalign, modSf_sf_same, lockLoss_sf, dropLock_lock,
    Rx.drop, and_self]

end

/-- A trigger starts a run where none goes on or waits (R327). -/
theorem calStart_idle {p : LPort} (kind : CalRunKind) (items : BitVec 6) (trigger : BitVec 3) {s : State}
    (h : calBusy s p = false) : calStart p kind items trigger s =
      calBegin p kind items trigger (modCal p (fun c => { c with rejects := 0 }) s) := by
  rw [calStart, h, if_neg Bool.false_ne_true]

theorem calStart_only (p : LPort) (kind : CalRunKind) (items : BitVec 6) (trigger : BitVec 3) (s : State) :
    Claims.Only [.ports, .alarms, .mbx, .dial, .map, .pool, .jrx] s (calStart p kind items trigger s) := by
  intro x hx
  cases x <;> simp_all [Claims.Same]

/-! ### How a run is aborted (R328) -/

/-- The Regulator after a run is aborted at microsecond `now`. -/
def Cal.aborted (now : Nat) (c : Cal) : Cal :=
  { c with
    run := .none, retry := none, last := 3, abort := c.abort + 1, runTime := BitVec.ofNat 16 ((now - c.startUsec) / 100) }

theorem calAbort_cal {p : LPort} {s : State} (h : calBusy s p = true) :
    (calAbort p s).ports[p].cal = s.ports[p].cal.aborted s.sys.usec := by
  have hrun : calAbort p s = calWaited p (ring 29 (modCal p (Cal.aborted s.sys.usec) s)) := by
    rw [calAbort, if_pos h]
    rfl
  rw [hrun, ((ring_calFrame p 29 _).trans (calWaited_calFrame p p _)).cal, modCal_cal]

theorem calAbort_only (p : LPort) (s : State) :
    Claims.Only [.ports, .alarms, .mbx, .dial, .map, .pool, .jrx] s (calAbort p s) := by
  intro x hx
  cases x <;> simp_all [Claims.Same]

/-! ### CAL_RUN (R332) -/

section
variable {rq : Req} {s : State} (hawake : Claims.Awake 0x7001 rq s) (hzero : pf rq 0 21 0 = 0)
include hawake hzero

/-- CAL_RUN starts the run that OP names where none goes on or waits, a foreground run where the port may take one. -/
theorem calRun_starts (hop : pf rq 0 29 28 < 2) (hitems : pf rq 0 27 22 ≠ 0) (hidle : calBusy s (pport rq 0) = false)
    (hport : pf rq 0 29 28 = 1 → foregroundOk s (pport rq 0) = true) :
    Claims.Runs (.calRun rq) s (reply 0x7001 rq (okay []) (calStart (pport rq 0)
      (if pf rq 0 29 28 = 0 then .background else .foreground) (BitVec.ofNat 6 (pf rq 0 27 22)) 5 s)) := by
  have hne2 : pf rq 0 29 28 ≠ 2 := by omega
  have hne3 : pf rq 0 29 28 ≠ 3 := by omega
  refine congrArg Host.Outcome.next
    ((commandOk_runs 0x7001 rq _ _ _ s (firstFail_badAt_one _ _ ?_) hawake ?_).trans ?_)
  · simp [hzero, hitems, hne2, hne3]
  · by_cases h1 : pf rq 0 29 28 = 1 <;> simp [firstFail_cons, firstFail_nil, hidle, hne2, h1, hport]
  · rw [if_neg hne2]

/-- CAL_RUN with OP ABORT ends the run that goes on or waits. -/
theorem calRun_aborts (hop : pf rq 0 29 28 = 2) (hitems : pf rq 0 27 22 = 0) (hbusy : calBusy s (pport rq 0) = true) :
    Claims.Runs (.calRun rq) s (reply 0x7001 rq (okay []) (calAbort (pport rq 0) s)) := by
  refine congrArg Host.Outcome.next
    ((commandOk_runs 0x7001 rq _ _ _ s (firstFail_badAt_one _ _ ?_) hawake ?_).trans ?_)
  · simp [hzero, hop, hitems]
  · simp [firstFail_cons, firstFail_nil, hop, hbusy]
  · rw [if_pos hop]

end

theorem calRunCompletes : Claims.CalRunCompletes := by
  intro rq s p hp hawake hzero
  subst hp
  refine ⟨fun hop hitems hidle => ?_, fun hop hitems hidle hport => ?_, fun hop hitems hbusy => ?_⟩
  · have hrun := calRun_starts hawake hzero (by omega) hitems hidle (by omega)
    rwa [if_pos hop, calStart_idle _ _ _ hidle, calBegin_background, modCal_modCal] at hrun
  · have hrun := calRun_starts hawake hzero (by omega) hitems hidle fun _ => hport
    rw [if_neg (by omega)] at hrun
    refine ⟨_, hrun, ?_⟩
    have honly := calStart_only (pport rq 0) .foreground (BitVec.ofNat 6 (pf rq 0 27 22)) 5 s
    rw [calStart_idle _ _ _ hidle] at honly ⊢
    obtain ⟨haligned, hlock, hrunning, heq⟩ := calBegin_foreground (pport rq 0) (BitVec.ofNat 6 (pf rq 0 27 22)) 5
      (modCal (pport rq 0) (fun c => { c with rejects := 0 }) s)
    have hwidth : pf rq 0 27 22 < 2 ^ 6 := Nat.mod_lt _ (by decide)
    rw [calBegin_cal]
    exact ⟨rfl, Nat.mod_eq_of_lt hwidth, rfl, haligned, hlock, hrunning, heq, honly⟩
  · refine ⟨_, calRun_aborts hawake hzero hop hitems hbusy, ?_⟩
    rw [calAbort_cal hbusy]
    exact ⟨rfl, rfl, rfl, rfl, rfl, rfl, calAbort_only _ s⟩

/-! ### CAL_POLICY_SET (R326, R333) -/

/-- Point temperatures that rise strictly within the range pass the checks (R333). -/
theorem calPointBad_eq_false {rq : Req} (hrange : ∀ i, i < 8 → calPointArg rq i ≤ 125)
    (hrise : ∀ i, i < 7 → calPointArg rq i < calPointArg rq (i + 1)) {i : Nat} (hi : i < 8) : calPointBad rq i = false := by
  have hin := hrange i hi
  cases i with
  | zero => simp [calPointBad, hin]
  | succ i =>
    have hup := hrise i (by omega)
    simp [calPointBad, hin, hup]

/-- The temperatures that CAL_POLICY_SET names, in 0.1 °C. -/
def pointTemps (rq : Req) : Vector Int 8 := Vector.ofFn fun i => 10 * (calPointArg rq i.val : Int)

/-- The Regulator that CAL_POLICY_SET leaves. -/
def Cal.policySet (rq : Req) (c : Cal) : Cal :=
  let c := { c with auto := bit (par rq 0) 29, deltaT := BitVec.ofNat 8 (pf rq 0 27 20) }
  if bit (par rq 0) 28 then setPoints (pointTemps rq) c else c

/-- The points hold the temperatures that CAL_POLICY_SET names. -/
theorem points_have_temps (rq : Req) (c : Cal) : c.points.map (·.temp) = pointTemps rq ↔
    ∀ i : Fin 8, c.points[i].temp = 10 * (calPointArg rq i.val : Int) := by
  simp [Vector.ext_iff, pointTemps, Fin.forall_iff]

/-- New temperatures go to every point; they make every point invalid unless they are those in force (R326). -/
theorem setPoints_points (rq : Req) (c : Cal) (i : Fin 8) :
    (setPoints (pointTemps rq) c).points[i].temp = 10 * (calPointArg rq i.val : Int) ∧
      ∀ j : Fin 8, c.points[j].temp ≠ 10 * (calPointArg rq j.val : Int) →
        (setPoints (pointTemps rq) c).points[i].valid = false := by
  by_cases hsame : c.points.map (·.temp) = pointTemps rq
  · rw [setPoints, if_pos (beq_iff_eq.mpr hsame)]
    have htemps := (points_have_temps rq c).mp hsame
    exact ⟨htemps i, fun j hj => absurd (htemps j) hj⟩
  · rw [setPoints, if_neg (by simpa using hsame)]
    simp [pointTemps]

/-- New temperatures change nothing but the points, and not those when they are in force. -/
theorem setPoints_keeps (rq : Req) (c : Cal) :
    (setPoints (pointTemps rq) c).auto = c.auto ∧ (setPoints (pointTemps rq) c).deltaT = c.deltaT ∧
      (setPoints (pointTemps rq) c).resid = c.resid ∧
      ((∀ i : Fin 8, c.points[i].temp = 10 * (calPointArg rq i.val : Int)) →
        (setPoints (pointTemps rq) c).points = c.points) := by
  by_cases hsame : c.points.map (·.temp) = pointTemps rq
  · rw [setPoints, if_pos (beq_iff_eq.mpr hsame)]
    exact ⟨rfl, rfl, rfl, fun _ => rfl⟩
  · rw [setPoints, if_neg (by simpa using hsame)]
    exact ⟨rfl, rfl, rfl, fun htemps => absurd ((points_have_temps rq c).mpr htemps) hsame⟩

/-- CAL_POLICY_SET changes the Regulator of its port. -/
theorem calPolicySet_runs {rq : Req} {s : State} (hlow : 5 ≤ pf rq 0 27 20) (hhigh : pf rq 0 27 20 ≤ 100)
    (hzero : pf rq 0 19 0 = 0) (hset : bit (par rq 0) 28 = true → calBusy s (pport rq 0) = false ∧
      (∀ i, i < 8 → calPointArg rq i ≤ 125) ∧ ∀ i, i < 7 → calPointArg rq i < calPointArg rq (i + 1)) :
    Claims.Runs (.calPolicySet rq) s (reply 0x7002 rq (okay []) (modCal (pport rq 0) (Cal.policySet rq) s)) := by
  have hpoints : ∀ is : List Nat, (∀ i ∈ is, i < 8) → (bit (par rq 0) 28 && is.any (calPointBad rq)) = false := by
    intro is his
    cases h : bit (par rq 0) 28
    · rfl
    · obtain ⟨-, hrange, hrise⟩ := hset h
      exact List.any_eq_false.mpr fun i hi => by simp [calPointBad_eq_false hrange hrise (his i hi)]
  have hidle : (bit (par rq 0) 28 && calBusy s (pport rq 0)) = false := by
    cases h : bit (par rq 0) 28
    · rfl
    · exact (hset h).1
  refine congrArg Host.Outcome.next (commandOk_runs 0x7002 rq _ _ _ s (firstFail_badAt _ [] ?_) (fun d hd => nomatch hd) ?_)
  · simp only [List.any_cons, List.any_nil, hpoints _ (show ∀ i ∈ List.range 4, i < 8 by decide),
      hpoints _ (show ∀ i ∈ (List.range 4).map (· + 4), i < 8 by decide)]
    simp [hlow, hhigh, hzero]
  · simp only [hidle, firstFail_cons, firstFail_nil, Bool.false_eq_true, if_false]

theorem calPolicyCompletes : Claims.CalPolicyCompletes := by
  intro rq s p hp hlow hhigh hzero hset
  subst hp
  refine ⟨_, calPolicySet_runs hlow hhigh hzero hset, modCal_only _ _ s, fun q hq => modCal_other _ s hq, ?_⟩
  rw [modCal_cal]
  have hdelta : (BitVec.ofNat 8 (pf rq 0 27 20)).toNat = pf rq 0 27 20 := Nat.mod_eq_of_lt (by omega)
  cases h : bit (par rq 0) 28
  · rw [Cal.policySet, if_neg (by simp [h])]
    exact ⟨rfl, hdelta, rfl, fun _ => rfl, nofun⟩
  · rw [Cal.policySet, if_pos h]
    obtain ⟨hauto, hdeltaT, hresid, hpoints⟩ := setPoints_keeps rq
      { s.ports[pport rq 0].cal with auto := bit (par rq 0) 29, deltaT := BitVec.ofNat 8 (pf rq 0 27 20) }
    refine ⟨hauto, hdeltaT ▸ hdelta, hresid, fun hsame => hpoints (hsame.resolve_left nofun), fun _ => ?_⟩
    exact setPoints_points rq _

end Sys2Proof.Machine

open Sys2Proof Sys2Proof.Machine

/-- Settles O37: once its checks have passed CAL_RUN starts or aborts a run, whose record what follows at the port leaves
alone, and CAL_POLICY_SET changes the record of one Regulator. -/
theorem calSettingsComplete : Obligations.CalSettingsComplete := ⟨calRunCompletes, calPolicyCompletes⟩
end

section
/-! PROOF. O39: the end of a calibration run, its retry, and the 1 ms evaluation (R320, R321, R323 to R325, R327, R330). -/

namespace Sys2Proof.Machine

/-- What follows CAL_DONE leaves it set. -/
theorem calDone_frame {p : LPort} {s t : State} (h : CalFrame p (ring 29 s) t) :
    CalFrame p s t ∧ bit t.mbx.dbHost 29 = true :=
  ⟨(ring_calFrame p 29 s).trans h, h.bells 29 (ring_sets 29 s (by decide))⟩

/-! ### An accepted run (R320, R325, R330) -/

/-- The Regulator as an accepted run leaves it at microsecond `now`, before its targets are evaluated. -/
def Cal.runAccepted (a b : CalVals) (now : Nat) (c : Cal) : Cal :=
  { calStore c (calMap2 calValue a b) (calRunT c) with
    accepted := calMerge c.items c.accepted (calMap2 calValue a b)
    working := if c.run == .foreground then calMerge c.items c.working (calMap2 calValue a b) else c.working
    run := .none, last := 1, rejects := 0, tLast := calRunT c, refs := c.sensors, hasRef := true
    runTime := BitVec.ofNat 16 ((now - c.startUsec) / 100), everAccepted := true
    accept := c.accept + 1, range := if calClamped c.items a b then c.range + 1 else c.range }

/-- What an accepted run brings about first: the Regulator with its targets, and the two alarms. -/
def acceptedCore (p : LPort) (a b : CalVals) (s : State) : State :=
  setAlarm (.conv p) 5 (calClamped s.ports[p].cal.items a b)
    (setAlarm (.conv p) 4 false (calRetarget p (modCal p (Cal.runAccepted a b s.sys.usec) s)))

/-- The mute for a lost bank of the port's converters ends (R424). -/
def unmuteCv (p : LPort) (s : State) : State :=
  modPower (fun x => { x with muteCv := x.muteCv &&& ~~~(BitVec.ofNat 4 (2 ^ p.val)) }) s

theorem calAccepted_eq (p : LPort) (a b : CalVals) (s : State) : calAccepted p a b s =
    calWaited p (refresh (ring 29
      (if s.ports[p].cal.run == .foreground then unmuteCv p (acceptedCore p a b s) else acceptedCore p a b s))) := rfl

/-- What follows an accepted run sets CAL_DONE and leaves the Regulator and its alarms alone. -/
theorem calAccepted_frame (p : LPort) (a b : CalVals) (s : State) :
    CalFrame p (acceptedCore p a b s) (calAccepted p a b s) ∧ bit (calAccepted p a b s).mbx.dbHost 29 = true := by
  rw [calAccepted_eq]
  have hunmute : CalFrame p (acceptedCore p a b s) (unmuteCv p (acceptedCore p a b s)) := .of_keeps rfl rfl rfl
  have hmute := CalFrame.ite (c := (s.ports[p].cal.run == .foreground) = true) hunmute (.refl p _)
  have hlate : ∀ t, CalFrame p t (calWaited p (refresh (ring 29 t))) ∧
      bit (calWaited p (refresh (ring 29 t))).mbx.dbHost 29 = true := fun t =>
    calDone_frame ((refresh_calFrame p _).trans (calWaited_calFrame p p _))
  exact ⟨hmute.trans (hlate _).1, (hlate _).2⟩

theorem acceptedCore_cal (p : LPort) (a b : CalVals) (s : State) : (acceptedCore p a b s).ports[p].cal =
    (s.ports[p].cal.runAccepted a b s.sys.usec).retargeted (isOn s (.ld p)) := by
  simp only [acceptedCore, setAlarm_port, calRetarget_eq, modCal_isOn, modCal_cal]

/-- CAL_UNSTABLE clears, and CAL_RANGE follows the run (R320). -/
theorem acceptedCore_alarms (p : LPort) (a b : CalVals) (s : State) :
    alarmOn (acceptedCore p a b s) (.conv p) 4 = false ∧
      alarmOn (acceptedCore p a b s) (.conv p) 5 = calClamped s.ports[p].cal.items a b := by
  refine ⟨?_, alarmOn_setAlarm _ _ _ _ (by decide)⟩
  exact (alarmOn_setAlarm_otherBit _ 5 4 _ _ (by decide) (by decide)).trans (alarmOn_setAlarm _ _ _ _ (by decide))

/-! ### A rejected run (R320, R321) -/

/-- The Regulator as a rejected run leaves it at microsecond `now`. -/
def Cal.runRejected (bad : BitVec 6) (now : Nat) (c : Cal) : Cal :=
  { c with
    retry := if c.rejects + 1 < 3 then some c.run else none, run := .none, last := 2
    rejects := c.rejects + 1, rejectItems := bad, reject := c.reject + 1
    runTime := BitVec.ofNat 16 ((now - c.startUsec) / 100) }

/-- The Regulator after a run has been given up. -/
def Cal.givenUp (c : Cal) : Cal := { c with refs := c.sensors, hasRef := true, unstable := c.unstable + 1 }

theorem calRejected_eq (p : LPort) (bad : BitVec 6) (s : State) : calRejected p bad s =
    let t := modCal p (Cal.runRejected bad s.sys.usec) s
    if t.ports[p].cal.retry.isSome then endChange p t
    else calWaited p (ring 29 (setAlarm (.conv p) 4 true (modCal p Cal.givenUp t))) := rfl

section
variable (p : LPort) (bad : BitVec 6) {s : State}

/-- The first two rejections in a row are retried. -/
theorem calRejected_retried (h : s.ports[p].cal.rejects < 2) :
    (calRejected p bad s).ports[p].cal = s.ports[p].cal.runRejected bad s.sys.usec := by
  have hretry : (s.ports[p].cal.runRejected bad s.sys.usec).retry = some s.ports[p].cal.run := if_pos (by omega)
  simp only [calRejected_eq, modCal_cal, hretry, Option.isSome_some, if_true]
  rw [(endChange_calFrame p p _).cal, modCal_cal]

/-- The third rejection in a row gives the run up, with CAL_UNSTABLE and CAL_DONE. -/
theorem calRejected_givenUp (h : 2 ≤ s.ports[p].cal.rejects) :
    (calRejected p bad s).ports[p].cal = (s.ports[p].cal.runRejected bad s.sys.usec).givenUp ∧
      alarmOn (calRejected p bad s) (.conv p) 4 = true ∧ bit (calRejected p bad s).mbx.dbHost 29 = true := by
  have hretry : (s.ports[p].cal.runRejected bad s.sys.usec).retry = none := if_neg (by omega)
  simp only [calRejected_eq, modCal_cal, hretry, Option.isSome_none, Bool.false_eq_true, if_false]
  have hlate : ∀ t, CalFrame p t (calWaited p (ring 29 t)) ∧ bit (calWaited p (ring 29 t)).mbx.dbHost 29 = true :=
    fun t => calDone_frame (calWaited_calFrame p p _)
  refine ⟨?_, ?_, (hlate _).2⟩
  · rw [(hlate _).1.cal, setAlarm_port, modCal_cal, modCal_cal]
  · rw [(hlate _).1.alarm, alarmOn_setAlarm _ _ _ _ (by decide)]

end

/-! ### The end of a run -/

/-- CAL_RUN_END of the method of the run that goes on decides on that run. -/
theorem calRunEnd_decides {p : LPort} (a b : CalVals) {s : State} (h : s.ports[p].cal.run ≠ .none) :
    Claims.Runs (.calRunEnd p (s.ports[p].cal.run == .foreground) a b) s
      (if calRejects s.ports[p].cal.items a b = 0 then calAccepted p a b s
       else calRejected p (calRejects s.ports[p].cal.items a b) s) := by
  have hmethod : s.ports[p].cal.run =
      if s.ports[p].cal.run == .foreground then CalRunKind.foreground else .background := by
    cases hrun : s.ports[p].cal.run
    · exact absurd hrun h
    · rfl
    · rfl
  exact congrArg Host.Outcome.next (if_pos (beq_iff_eq.mpr hmethod))

theorem calRunsEnd : Claims.CalRunsEnd := by
  intro p a b s hrun
  have hdecides := calRunEnd_decides a b hrun
  refine ⟨fun hgood => ?_, fun hbad => ?_⟩
  · rw [if_pos hgood] at hdecides
    obtain ⟨hframe, hdone⟩ := calAccepted_frame p a b s
    obtain ⟨hunstable, hrange⟩ := acceptedCore_alarms p a b s
    refine ⟨_, hdecides, ?_⟩
    rw [hframe.cal, hframe.alarm, hframe.alarm, acceptedCore_cal]
    refine ⟨rfl, rfl, rfl, rfl, rfl, rfl, fun hon => ?_, hunstable, hrange, hdone⟩
    simp only [Cal.retargeted, hon, if_true, Cal.runAccepted, beq_iff_eq]
  · rw [if_neg hbad] at hdecides
    refine ⟨_, hdecides, ?_⟩
    by_cases hfew : s.ports[p].cal.rejects < 2
    · rw [calRejected_retried p _ hfew, if_pos hfew, if_pos hfew]
      exact ⟨rfl, rfl, rfl, rfl, rfl, rfl, if_pos (by omega), rfl, fun hmany => absurd hfew (by omega)⟩
    · obtain ⟨hcal, hunstable, hdone⟩ := calRejected_givenUp p (calRejects s.ports[p].cal.items a b)
        (Nat.le_of_not_lt hfew)
      rw [hcal, if_neg hfew, if_neg hfew]
      exact ⟨rfl, rfl, rfl, rfl, rfl, rfl, if_neg (by omega), rfl, fun _ => ⟨hunstable, hdone⟩⟩

/-! ### The 1 ms evaluation (R323, R324, R327) -/

/-- The Regulator after an evaluation, before its temperature trigger. -/
def Cal.evaluated (ld : Bool) (r : Vector Int 4) (c : Cal) : Cal := (calSense r c).retargeted ld

/-- The temperature trigger finds a run to start: AUTO is set, a sensor has moved, and no run goes on or waits. -/
def Cal.triggered (c : Cal) : Bool := c.auto && calMoved c && !(c.run != .none || c.retry.isSome)

/-- The Regulator after the 1 ms evaluation at microsecond `now`. -/
def Cal.updated (ld cv : Bool) (now : Nat) (r : Vector Int 4) (c : Cal) : Cal :=
  let x := c.evaluated ld r
  if x.triggered && cv then Cal.begun .background calAll 4 now { x with rejects := 0 } else x

theorem modCal_congr {p : LPort} {f g : Cal → Cal} {s : State} (h : f s.ports[p].cal = g s.ports[p].cal) :
    modCal p f s = modCal p g s := by
  simp only [modCal, modPort, vmod, h]

/-- The 1 ms evaluation changes the Regulator of its port. -/
theorem calTargetUpdate_eq (p : LPort) (r : Vector Int 4) (s : State) : calTargetUpdate p r s =
    modCal p (Cal.updated (isOn s (.ld p)) (isOn s (.cv p)) s.sys.usec r) s := by
  have hevaluated : calRetarget p (modCal p (calSense r) s) = modCal p (Cal.evaluated (isOn s (.ld p)) r) s := by
    rw [calRetarget_eq, modCal_isOn, modCal_modCal]
    rfl
  simp only [calTargetUpdate, hevaluated, calStart, calBusy, modCal_cal, modCal_isOn, calBegin_background, modCal_modCal]
  split_ifs with hdue hbusy
  · refine modCal_congr (if_neg ?_).symm
    simp only [Cal.triggered, hbusy, Bool.not_true, Bool.and_false, Bool.false_and, Bool.false_eq_true, not_false_eq_true]
  · refine modCal_congr (if_pos ?_).symm
    simp only [Bool.and_eq_true] at hdue
    obtain ⟨⟨hauto, hmoved⟩, hcv⟩ := hdue
    simp only [Cal.triggered, hauto, hmoved, hcv, eq_false_of_ne_true hbusy, Bool.not_false, Bool.and_self]
  · refine modCal_congr (if_neg fun hstart => hdue ?_).symm
    simp only [Cal.triggered, Bool.and_eq_true] at hstart ⊢
    obtain ⟨⟨⟨hauto, hmoved⟩, -⟩, hcv⟩ := hstart
    exact ⟨⟨hauto, hmoved⟩, hcv⟩

section
variable (ld cv : Bool) (now : Nat) (r : Vector Int 4) (c : Cal)

/-- The average of a sensor after one more reading. -/
def newMean (i : Fin 4) : Int := sensorMean ((r[i] :: c.readings[i]).take 16)

/-- The evaluation takes one more reading of each sensor and its average (R323). -/
theorem Cal.evaluated_sensor (i : Fin 4) : (c.evaluated ld r).readings[i] = (r[i] :: c.readings[i]).take 16 ∧
    (c.evaluated ld r).sensors[i] = newMean r c i := by
  simp [Cal.evaluated, Cal.retargeted, calSense, newReadings, newMean]

theorem Cal.evaluated_temp :
    (c.evaluated ld r).temp = newMean r c 0 + newMean r c 1 + newMean r c 2 + newMean r c 3 := by
  simp [Cal.evaluated, Cal.retargeted, calSense, newReadings, newMean]

/-- A run that goes on keeps the T of the evaluation (R325). -/
theorem Cal.evaluated_run (h : c.run ≠ .none) : (c.evaluated ld r).runT = c.runT + (c.evaluated ld r).temp ∧
    (c.evaluated ld r).runN = c.runN + 1 :=
  ⟨if_neg (by simpa using h), if_neg (by simpa using h)⟩

/-- A run that begins leaves the temperatures, the targets and the working values of the evaluation. -/
theorem Cal.updated_keeps : let x := c.evaluated ld r
    let y := c.updated ld cv now r
    y.readings = x.readings ∧ y.sensors = x.sensors ∧ y.temp = x.temp ∧ y.target = x.target ∧ y.working = x.working ∧
      calTargets y = calTargets x := by
  simp only [Cal.updated]
  split_ifs <;> exact ⟨rfl, rfl, rfl, rfl, rfl, rfl⟩

/-- The trigger's conditions (R327). -/
theorem Cal.evaluated_triggered : (c.evaluated ld r).triggered = true ↔ c.auto = true ∧
    (c.hasRef = true ∧ ∃ i : Fin 4, c.deltaT.toNat < (newMean r c i - c.refs[i]).natAbs) ∧
    (c.run != .none || c.retry.isSome) = false := by
  have hmoved : calMoved (c.evaluated ld r) = true ↔
      c.hasRef = true ∧ ∃ i : Fin 4, c.deltaT.toNat < (newMean r c i - c.refs[i]).natAbs := by
    simp only [calMoved, Bool.and_eq_true, List.any_eq_true, List.mem_finRange, true_and, decide_eq_true_eq,
      (Cal.evaluated_sensor ld r c _).2]
    rfl
  rw [Cal.triggered, Bool.and_eq_true, Bool.and_eq_true, hmoved, Bool.not_eq_true', and_assoc]
  rfl

/-- The 1 ms evaluation starts a run where its trigger finds one to start and the converters are ON. -/
theorem Cal.updated_starts (h : ((c.evaluated ld r).triggered && cv) = true) : c.updated ld cv now r =
    Cal.begun .background calAll 4 now { c.evaluated ld r with rejects := 0 } := if_pos h

theorem Cal.updated_idle (h : ¬((c.evaluated ld r).triggered && cv) = true) :
    c.updated ld cv now r = c.evaluated ld r := if_neg h

end

theorem calTimersComplete : Claims.CalTimersComplete := by
  intro p r s
  refine ⟨⟨_, congrArg Host.Outcome.next (calTargetUpdate_eq p r s), modCal_only _ _ s,
    fun q hq => modCal_other _ s hq, ?_⟩, fun k hretry hidle => ?_⟩
  · rw [modCal_cal]
    obtain ⟨hreadings, hsensors, htemp, htarget, hworking, htargets⟩ :=
      Cal.updated_keeps (isOn s (.ld p)) (isOn s (.cv p)) s.sys.usec r s.ports[p].cal
    rw [hreadings, hsensors, htemp, htarget, hworking, htargets]
    have htrigger := Cal.evaluated_triggered (isOn s (.ld p)) r s.ports[p].cal
    refine ⟨Cal.evaluated_sensor _ r _, Cal.evaluated_temp _ r _, fun hrun => ?_, rfl, fun hon => if_pos hon, fun hnow => ?_,
      fun hnot => ?_⟩
    · rw [Cal.updated_idle]
      · exact Cal.evaluated_run _ r _ hrun
      · rw [Bool.and_eq_true, htrigger]
        rintro ⟨⟨-, -, hidle⟩, -⟩
        rw [bne_iff_ne.mpr hrun] at hidle
        exact Bool.false_ne_true hidle.symm
    · obtain ⟨hauto, hmoved, hcv, hidle⟩ := hnow
      rw [Cal.updated_starts _ _ _ _ _ (Bool.and_eq_true_iff.mpr ⟨htrigger.mpr ⟨hauto, hmoved, hidle⟩, hcv⟩)]
      exact ⟨rfl, rfl, rfl⟩
    · rw [Cal.updated_idle]
      · rfl
      · rw [Bool.and_eq_true, htrigger]
        rintro ⟨⟨hauto, hmoved, hidle⟩, hcv⟩
        exact hnot ⟨hauto, hmoved, hcv, hidle⟩
  · have hrun : calRetryRun p s = calBegin p k s.ports[p].cal.items s.ports[p].cal.trigger s := by
      simp only [calRetryRun, hretry, hidle, beq_self_eq_true, if_true]
    refine ⟨_, congrArg Host.Outcome.next hrun, ?_⟩
    rw [calBegin_cal]
    exact ⟨rfl, rfl, rfl, rfl⟩

end Sys2Proof.Machine

open Sys2Proof Sys2Proof.Machine

/-- Settles O39: the end of a run and the 1 ms evaluation change the record of one Regulator, which what follows at the port
leaves alone. T_RUN and the sensors' means before the sixteenth reading are the model's choices (log 103). -/
theorem calEventsComplete : Obligations.CalEventsComplete := ⟨calRunsEnd, calTimersComplete⟩
end

section
/-! PROOF. O1, O2 and O3: what a step does with the queue of commands (R341, R346), and that every command completes. -/

namespace Sys2Proof.Machine

/-- Every command has a next state (notes/assumptions 9): no arm of `exec` stops. -/
theorem exec_next (c : Instr) (s : State) : ∃ t, exec c s = .next t := by
  cases c <;> exact ⟨_, rfl⟩

/-- No command may change the queue of waiting commands. -/
theorem pending_untouched (c : Instr) : Claims.Part.pending ∉ Claims.touches c := by
  cases c <;> simp [Claims.touches]

end Sys2Proof.Machine

open Sys2Proof Sys2Proof.Machine

/-- Settles O1, by what `step` does with a queue that is not empty. That commands wait in a queue is the model's choice
(notes/assumptions 6). -/
theorem stepRunsFront : Obligations.StepRunsFront := by
  refine fun c rest s => ⟨rfl, fun hempty => ?_⟩
  have hs : { s with pending := [] } = s := by rw [← hempty]
  exact congrArg (exec c) hs

/-- Settles O2: the idle step is `tick`, in which a blob that goes on leaves the queue alone. -/
theorem stepOnEmptyQueue : Obligations.StepOnEmptyQueue := by
  intro s hempty
  have hidle : step s = .next (tick s) := by simp only [step, hempty]
  refine ⟨fun hblob => ?_, _, hidle, ?_⟩
  · simp [hidle, tick, hblob, modSys]
  · simp [hempty]

/-- Settles O3: a command completes by its arm, and the queue is outside its frame (`commandFrames`). That nothing stops, and
that commands wait in a queue, are the model's choices (notes/assumptions 9 and 6). -/
theorem everyCommandAnswers : Obligations.EveryCommandAnswers := by
  intro c s
  obtain ⟨t, ht⟩ := exec_next c s
  exact ⟨t, ht, commandFrames c s t ht .pending (pending_untouched c)⟩
end

section
/-! PROOF. O7: every operation that stores in bulk memory, or empties a part of it, keeps its canonical form. The form is
the model's own (notes/assumptions 4), a representation of the memory of R350 and R351. -/

namespace Sys2Proof.Machine

variable {s : State}

/-! ### The shapes of operations -/

theorem safe_of_bulk {t : State} (h : Safe s) (hb : t.bulk = s.bulk) : Safe t := by
  unfold Safe
  rw [hb]
  exact h

/-- An operation that keeps bulk memory in every state, after one that keeps the form. -/
theorem keeps_safe (f : State → State) (hf : ∀ s, (f s).bulk = s.bulk) (h : Safe s) : Safe (f s) :=
  safe_of_bulk h (hf s)

theorem ite_safe {c : Prop} [Decidable c] {a b : State} (ha : Safe a) (hb : Safe b) : Safe (if c then a else b) := by
  split
  · exact ha
  · exact hb

theorem eachOf_safe {α : Type} {l : List α} {f : α → State → State} (hf : ∀ x s, Safe s → Safe (f x s)) (h : Safe s) :
    Safe (eachOf l f s) := by
  induction l generalizing s with
  | nil => exact h
  | cons x l ih => exact ih (hf x s h)

theorem putBulk_safe {off : Nat} {ws : List Word} (h : Safe s) : Safe (putBulk off ws s) := putBulk_wf off ws s h

theorem reply_safe {op : Nat} {rq : Req} {a : Answer} (h : Safe s) : Safe (reply op rq a s) :=
  safe_of_bulk h (by simp)

/-! ### Reset and lost banks -/

theorem enterReset_safe : Safe (enterReset s) := reset_bulk_wf

theorem enterResetKeepLog_safe : Safe (enterResetKeepLog s) := reset_bulk_wf

/-- A detection resets the part or leaves bulk memory alone. -/
theorem detect_safe {u : FUnit} {code : BitVec 8} {index : BitVec 7} {detail : BitVec 16} (h : Safe s) :
    Safe (detect u code index detail s) := by
  have hact : Safe (if codeActs code && !unitHeld s u then safeAction u s else s) :=
    ite_safe (safe_of_bulk h (by simp)) h
  unfold detect
  refine ite_safe enterResetKeepLog_safe ?_
  dsimp only
  split <;> exact safe_of_bulk hact (by simp)

theorem detectCore_safe {c : Core} {code : BitVec 8} (h : Safe s) : Safe (detectCore c code s) := detect_safe h

theorem lostBank_safe {k : Fin 32} (h : Safe s) : Safe (lostBank k s) := by
  have hbulk : ∀ upper, Safe (lostBulk upper s) := fun upper => lostBulk_wf upper s h
  unfold lostBank
  exact ite_safe (ite_safe h (safe_of_bulk h (by simp))) <| ite_safe (safe_of_bulk h (by simp)) <|
    ite_safe (safe_of_bulk h (by simp)) <| ite_safe (safe_of_bulk h (by simp)) <|
    ite_safe (safe_of_bulk h (by simp)) <| ite_safe (hbulk false) <| ite_safe (hbulk true) h

theorem bankReturn_safe {d : Dom} (h : Safe s) : Safe (bankReturn d s) := by
  refine keeps_safe holdLost (by simp) (eachOf_safe (fun k s hs => ?_) h)
  exact ite_safe hs (ite_safe (detect_safe (lostBank_safe hs)) (lostBank_safe hs))

/-! ### Moves of domains -/

theorem powerUp_safe {d : Dom} (h : Safe s) : Safe (powerUp d s) := by
  have hbank := bankReturn_safe (d := d) h
  unfold powerUp
  cases d with
  | fq q =>
    exact keeps_safe fenceAlarms (by simp) (eachOf_safe (fun _ _ hs => hs) hbank)
  | _ => exact hbank

theorem domUp_safe {d : Dom} {target : PState} (h : Safe s) : Safe (domUp d target s) := by
  have hup : Safe (if (domSt s d).dark && !target.dark then powerUp d s else s) := ite_safe (powerUp_safe h) h
  have hset := keeps_safe (setDom d target) (by simp) hup
  exact ite_safe h (keeps_safe (fun s => eachPort maybeAcquire (refresh s)) (by simp)
    (ite_safe (keeps_safe (goOn d) (by simp) hset) hset))

theorem domMove_safe {d : Dom} {target : PState} (h : Safe s) : Safe (domMove d target s) :=
  ite_safe (safe_of_bulk h (by simp)) (ite_safe (domUp_safe h) h)

theorem accessWake_safe {d : Dom} (h : Safe s) : Safe (accessWake d s) :=
  ite_safe h (keeps_safe (pwrEvent 2) (by simp) (domUp_safe (keeps_safe (modPower _) (fun _ => rfl) h)))

theorem wakeNeeds_safe {ds : List Dom} (h : Safe s) : Safe (wakeNeeds ds s) :=
  eachOf_safe (fun _ _ => accessWake_safe) h

theorem carryMoves_safe {t : Trans} {ms : List Move} (h : Safe s) : Safe (carryMoves t ms s) :=
  eachOf_safe (fun _ _ => domMove_safe) h

theorem powerTransitionComplete_safe (h : Safe s) : Safe (powerTransitionComplete s) := by
  unfold powerTransitionComplete
  split
  · exact h
  · rename_i t _
    refine ite_safe h (keeps_safe (fun s => startHeld (pwrEvent 0 (endTrans t s))) (by simp) (carryMoves_safe ?_))
    exact keeps_safe (answerTrans t (okay [])) (by simp) (carryMoves_safe (carryMoves_safe h))

theorem wakeDone_safe (h : Safe s) : Safe (wakeDone s) := by
  unfold wakeDone
  split
  · exact h
  · rename_i t _
    refine ite_safe (keeps_safe (fun s => startHeld (answerTrans t (okay []) (pwrEvent 0 (wakeEvent
      (ring 26 (endTrans t s)))))) (by simp) (keeps_safe (modPower _) (fun _ => rfl) ?_)) h
    exact carryMoves_safe (carryMoves_safe h)

theorem recWake_safe {u : FUnit} (h : Safe s) : Safe (recWake u s) := by
  unfold recWake
  split
  · exact h
  · rename_i d _
    have hup := keeps_safe (recEvent d) (by simp) (domUp_safe (d := d) (target := .on) h)
    refine ite_safe h (keeps_safe (unitBack u) (by simp) ?_)
    split
    · exact ite_safe (safe_of_bulk hup (by simp)) hup
    all_goals exact hup

theorem domainWakeComplete_safe {d : Dom} (h : Safe s) : Safe (domainWakeComplete d s) := by
  unfold domainWakeComplete
  refine ite_safe (recWake_safe h) ?_
  split
  · exact h
  · refine ite_safe h ?_
    split
    · exact h
    · exact domMove_safe h

theorem failBank_safe {t : Trans} {k : Fin 32} (h : Safe s) : Safe (failBank t k s) :=
  ite_safe h (ite_safe (detect_safe (lostBank_safe h)) h)

theorem bankCheckDone_safe {failed : BitVec 32} (h : Safe s) : Safe (bankCheckDone failed s) := by
  have hrec : Safe (eachOf ((List.finRange 32).filter fun k => failed.getLsbD k.val) recBankFail s) :=
    eachOf_safe (fun _ _ hs => safe_of_bulk hs (by simp)) h
  unfold bankCheckDone
  dsimp only
  split
  · exact hrec
  · rename_i t _
    have hbanks : Safe (eachOf ((wakingBanks t).filter fun k => failed.getLsbD k.val) (failBank t)
        (eachOf ((List.finRange 32).filter fun k => failed.getLsbD k.val) recBankFail s)) :=
      eachOf_safe (fun _ _ => failBank_safe) hrec
    refine ite_safe hrec ?_
    split
    · exact ite_safe (safe_of_bulk hbanks (by simp)) (domMove_safe hbanks)
    · exact hbanks

/-! ### Detections and recoveries -/

theorem recoveryActionDone_safe {u : FUnit} (h : Safe s) : Safe (recoveryActionDone u s) :=
  ite_safe (keeps_safe (fun t => finishAction u (unitSt s u).level (modUnit u (fun y => { y with recovering := 2 }) t))
    (by simp) (recWake_safe h)) h

theorem actOn_safe {r : FaultRec} (h : Safe s) : Safe (actOn r s) := by
  unfold actOn
  refine ite_safe ?_ (ite_safe ?_ (ite_safe ?_ (ite_safe enterResetKeepLog_safe (ite_safe ?_ ?_)))) <;>
    exact safe_of_bulk h (by simp)

theorem faultHandle_safe (h : Safe s) : Safe (faultHandle s) := by
  unfold faultHandle
  split
  · exact h
  · exact ite_safe (actOn_safe h) h

theorem tempCrit_safe {x : BitVec 16} (h : Safe s) : Safe (tempCrit x s) :=
  ite_safe h (keeps_safe (fun s => heldChanged (modUnit .aon (fun x => { x with held := true }) s)) (by simp)
    (detect_safe h))

theorem flowStall_safe {u : FUnit} {i : BitVec 7} (h : Safe s) : Safe (flowStall u i s) := by
  unfold flowStall
  split
  · exact ite_safe (detect_safe h) h
  · exact h

theorem crownReplyTimeout_safe {c : Chan} (h : Safe s) : Safe (crownReplyTimeout c s) := by
  unfold crownReplyTimeout
  split
  · exact h
  · exact detectCore_safe (safe_of_bulk h (by simp))

theorem readWord_safe {m : BadMem} {n : Nat} (h : Safe s) : Safe (readWord m n s) := by
  unfold readWord
  split
  case h_4 => exact ite_safe (detect_safe (safe_of_bulk h (by simp))) (safe_of_bulk h (by simp))
  all_goals exact safe_of_bulk h (by simp)

theorem bankWord_safe {k : Fin 32} {n : Nat} (h : Safe s) : Safe (bankWord k n s) :=
  ite_safe (detect_safe (safe_of_bulk h (by simp))) (safe_of_bulk h (by simp))

theorem scrubPass_safe {found : List (BadMem × Nat)} {banks : List (Fin 32 × Nat)} (h : Safe s) :
    Safe (scrubPass found banks s) := by
  have hrow : ∀ f s, Safe s → Safe (scrubRow f s) := fun _ _ hs => ite_safe (eachOf_safe (fun _ _ => readWord_safe) hs) hs
  have hbank : ∀ f s, Safe s → Safe (scrubBank f s) := fun _ _ hs => ite_safe (eachOf_safe (fun _ _ => bankWord_safe) hs) hs
  exact ite_safe h (eachOf_safe hbank (eachOf_safe hrow h))

/-! ### The command skeleton, and the reports that store -/

theorem command_safe {op : Nat} {rq : Req} {cs : List (Bool × Answer)} {sts : State → List (Bool × Answer)}
    {body : State → State} (hb : ∀ s, Safe s → Safe (body s)) (h : Safe s) : Safe (command op rq cs sts body s) := by
  unfold command
  split
  · exact reply_safe h
  · dsimp only
    split
    · exact reply_safe h
    · split
      · exact reply_safe (wakeNeeds_safe h)
      · exact hb _ (wakeNeeds_safe h)

theorem report_safe {a : ReportAt} {op : Nat} {rq : Req} {cs : List (Bool × Answer)} {answer : State → State}
    (ha : ∀ s, Safe s → Safe (answer s)) (h : Safe s) : Safe (report a op rq cs answer s) :=
  command_safe (fun s hs => ite_safe (safe_of_bulk hs (by simp)) (ha s hs)) h

theorem answerBulk_safe {op : Nat} {rq : Req} {off : Nat} {words : State → List Word} (h : Safe s) :
    Safe (answerBulk op rq off words s) :=
  reply_safe (putBulk_safe h)

theorem idAttest_safe {rq : Req} (h : Safe s) : Safe (idAttest rq s) :=
  command_safe (fun _ hs => reply_safe (putBulk_safe hs)) h

theorem linePmAnswer_safe {rq : Req} (h : Safe s) : Safe (linePmAnswer rq s) := answerBulk_safe h

theorem lineStatusAnswer_safe {rq : Req} (h : Safe s) : Safe (lineStatusAnswer rq s) := by
  unfold lineStatusAnswer
  dsimp only
  split
  case h_2 => exact answerBulk_safe h
  all_goals exact reply_safe h

theorem calReadAnswer_safe {rq : Req} (h : Safe s) : Safe (calReadAnswer rq s) := answerBulk_safe h

theorem pwrRefusalsAnswer_safe {rq : Req} (h : Safe s) : Safe (pwrRefusalsAnswer rq s) :=
  reply_safe (ite_safe (putBulk_safe h) (putBulk_safe h))

theorem hostPmAnswer_safe {rq : Req} (h : Safe s) : Safe (hostPmAnswer rq s) :=
  answerBulk_safe (safe_of_bulk h (by simp))

theorem fecPmAnswer_safe {rq : Req} (h : Safe s) : Safe (fecPmAnswer rq s) := answerBulk_safe h

theorem jrxPeersAnswer_safe {rq : Req} (h : Safe s) : Safe (jrxPeersAnswer rq s) :=
  ite_safe (reply_safe (putBulk_safe h)) (reply_safe h)

theorem dialListAnswer_safe {rq : Req} (h : Safe s) : Safe (dialListAnswer rq s) := reply_safe (putBulk_safe h)

theorem faultLogAnswer_safe {rq : Req} (h : Safe s) : Safe (faultLogAnswer rq s) := reply_safe (putBulk_safe h)

/-- A report is answered by one of those that store, or leaves bulk memory alone. -/
theorem takeReport_safe {r : ReportWait} (h : Safe s) : Safe (takeReport r s) := by
  unfold takeReport
  split
  case h_4 => exact pwrRefusalsAnswer_safe h
  case h_7 => exact lineStatusAnswer_safe h
  case h_8 => exact linePmAnswer_safe h
  case h_12 => exact hostPmAnswer_safe h
  case h_14 => exact fecPmAnswer_safe h
  case h_16 => exact dialListAnswer_safe h
  case h_19 => exact calReadAnswer_safe h
  case h_22 => exact jrxPeersAnswer_safe h
  case h_24 => exact faultLogAnswer_safe h
  all_goals exact safe_of_bulk h (by simp)

theorem takeReports_safe {r : RefCode} (h : Safe s) : Safe (takeReports r s) :=
  eachOf_safe (fun _ _ => takeReport_safe) h

/-! ### Superframe boundaries -/

theorem txSuperframeBoundary_safe {p : LPort} {o : TxObs} (h : Safe s) : Safe (txSuperframeBoundary p o s) := by
  have hheld : Safe (heldStep p s) := safe_of_bulk h (by simp)
  have hbegun : Safe (txBegin p o (txEnd p o (heldStep p s))) := safe_of_bulk hheld (by simp)
  exact ite_safe (takeReports_safe (ite_safe hbegun (safe_of_bulk hbegun (by simp))))
    (takeReports_safe (safe_of_bulk hheld (by simp)))

theorem rxSuperframeBoundary_safe {p : LPort} {o : RxObs} (h : Safe s) : Safe (rxSuperframeBoundary p o s) := by
  unfold rxSuperframeBoundary
  refine ite_safe (ite_safe (takeReports_safe (safe_of_bulk h ?_)) (safe_of_bulk h (by simp))) h
  simp only [snapshot_keeps, rxExchange_keeps, keepOffset_keeps]
  split <;> simp

/-! ### Management ports -/

/-- The flash transfer under way ends, and the bytes of a read are stored (R404, R405). -/
theorem bspiDone_ends {w : Word} (data : List Byte) (h : s.twi.bspiCmd = some (w, false)) :
    bspiDone data s = modTwi (fun t => { t with
      bspiCmd := none, bspiStatus := word [(30, 30, 1), (29, 29, b2n (bit t.bspiStatus 29))] })
      (if bit w 19 then s else { s with bulk := putBytes s.bulk (4 * fld s.twi.bspiBulk 16 0) (data.take (fld w 18 10)) }) := by
  simp only [bspiDone, h]

theorem bspiDone_idle (data : List Byte) (h : ∀ w, s.twi.bspiCmd ≠ some (w, false)) : bspiDone data s = s := by
  rw [bspiDone]
  split
  · exact absurd ‹_› (h _)
  · rfl

theorem bspiDone_safe {data : List Byte} (h : Safe s) : Safe (bspiDone data s) := by
  by_cases hrun : ∃ w, s.twi.bspiCmd = some (w, false)
  · obtain ⟨w, hw⟩ := hrun
    unfold Safe
    rw [bspiDone_ends data hw, modTwi_bulk]
    split
    · exact h
    · exact putBytes_wf _ _ _ h
  · rw [bspiDone_idle data fun w hw => hrun ⟨w, hw⟩]
    exact h

theorem regWrite_safe {who : HostPort} {addr : BitVec 16} {w : Word} (h : Safe s) : Safe (regWrite who addr w s) := by
  have hput : Safe { s with bulk := bulkPut s.bulk (bulkIndex s addr.toNat) w } := bulkPut_wf _ _ _ h
  unfold regWrite
  refine ite_safe (ite_safe hput h) (ite_safe ?_ (ite_safe (safe_of_bulk h (by simp))
    (ite_safe (safe_of_bulk h (by simp)) h)))
  split <;> exact safe_of_bulk h (by simp)

theorem registerWrite_safe {who : HostPort} {addr : BitVec 16} {w : Word} (h : Safe s) :
    Safe (registerWrite who addr w s) :=
  ite_safe (ite_safe (safe_of_bulk h (by simp)) (keeps_safe (feDone who addr 0) (by simp) (regWrite_safe h)))
    (safe_of_bulk h (by simp))

theorem unstall_safe {d : Dom} (h : Safe s) : Safe (unstall d s) := by
  unfold unstall
  split
  · exact h
  · refine ite_safe h ?_
    dsimp only
    split
    · exact safe_of_bulk h (by simp)
    · rename_i st _ _ _ _
      exact keeps_safe (feDone .twi st.addr 0) (by simp) (regWrite_safe (safe_of_bulk h (by simp)))

theorem accessWakeComplete_safe {d : Dom} (h : Safe s) : Safe (accessWakeComplete d s) := by
  have hwoken : ∀ f, Safe (unstall d (modPower f (accessWake d s))) :=
    fun f => unstall_safe (keeps_safe (modPower f) (fun _ => rfl) (accessWake_safe h))
  exact ite_safe h (ite_safe (keeps_safe bspiGo (by simp) (hwoken _)) (hwoken _))

/-! ### Stored commands and blobs -/

/-- A packet's opcode runs one of the reports that store, or leaves bulk memory alone. -/
theorem runOpcode_safe {op : Nat} {rq : Req} (h : Safe s) : Safe (runOpcode op rq s) := by
  unfold runOpcode
  split
  case h_11 => exact report_safe (fun _ => pwrRefusalsAnswer_safe) h
  case h_17 => exact report_safe (fun _ => lineStatusAnswer_safe) h
  case h_18 => exact report_safe (fun _ => linePmAnswer_safe) h
  case h_28 => exact report_safe (fun _ => hostPmAnswer_safe) h
  case h_32 => exact report_safe (fun _ => fecPmAnswer_safe) h
  case h_40 => exact report_safe (fun _ => calReadAnswer_safe) h
  case h_50 => exact report_safe (fun _ => jrxPeersAnswer_safe) h
  case h_52 => exact report_safe (fun _ => faultLogAnswer_safe) h
  all_goals exact safe_of_bulk h (by simp)

theorem stageEvent_safe {e : DialEv} {complete : Bool} (h : Safe s) : Safe (stageEvent e complete s) := by
  simp only [stageEvent]
  refine ite_safe (safe_of_bulk h (by simp)) ?_
  split
  · exact safe_of_bulk h (by simp)
  · split
    · exact safe_of_bulk h (by simp)
    · split
      · exact safe_of_bulk h (by simp)
      · have hwoken := wakeNeeds_safe (ds := needsOf e.opcode.toNat e.params) h
        split <;> exact safe_of_bulk hwoken (by simp)

theorem dialStage_safe {idx : Nat} {complete : Bool} (h : Safe s) : Safe (dialStage idx complete s) := by
  unfold dialStage
  split
  · exact h
  · exact ite_safe h (ite_safe (safe_of_bulk h (by simp)) (ite_safe (stageEvent_safe h) h))

theorem runPrompt_safe {e : DialEv} (h : Safe s) : Safe (runPrompt e s) := by
  unfold runPrompt
  refine ite_safe (safe_of_bulk h (by simp)) ?_
  split
  · exact safe_of_bulk h (by simp)
  · exact runOpcode_safe h

theorem releaseEvent_safe {idx : Nat} (h : Safe s) : Safe (releaseEvent idx s) := by
  unfold releaseEvent
  split
  · exact h
  · exact ite_safe (safe_of_bulk h (by simp)) (ite_safe (safe_of_bulk h (by simp)) (runPrompt_safe h))

theorem dialRelease_safe {r : RefCode} (h : Safe s) : Safe (dialRelease r s) :=
  eachOf_safe (fun _ _ => releaseEvent_safe) <| eachOf_safe (fun _ _ hs => safe_of_bulk hs (by simp)) <|
    eachOf_safe (fun _ _ hs => safe_of_bulk hs (by simp)) h

theorem runPacket_safe {ws : List Word} (h : Safe s) : Safe (runPacket ws s) := by
  simp only [runPacket]
  split
  · exact reply_safe h
  · exact runOpcode_safe h

theorem runBlob_safe {fuel : Nat} (h : Safe s) : Safe (runBlob fuel s) := by
  have hend : ∀ {r s}, Safe s → Safe (endBlob r s) := fun hs => safe_of_bulk hs (by simp)
  induction fuel generalizing s with
  | zero => exact h
  | succ fuel ih =>
    unfold runBlob
    split
    · exact h
    · refine ite_safe (hend h) (ite_safe h ?_)
      split
      · exact hend h
      · exact ih (runPacket_safe h)

theorem configCommit_safe {rq : Req} (h : Safe s) : Safe (configCommit rq s) := by
  refine command_safe (fun s hs => ?_) h
  split
  · exact hs
  · exact runBlob_safe hs

theorem bootBlobDone_safe {flash : List Word} (h : Safe s) : Safe (bootBlobDone flash s) := by
  unfold bootBlobDone
  refine ite_safe h ?_
  split
  · exact safe_of_bulk h (by simp)
  · exact runBlob_safe h

theorem tick_safe (h : Safe s) : Safe (tick s) := by
  unfold tick
  dsimp only
  split
  · exact h
  · exact runBlob_safe h

/-! ### Every command -/

/-- A command whose next state is canonical. -/
theorem safe_of_next {t u : State} (h : (.next u : Outcome) = .next t) (hu : Safe u) : Safe t :=
  Host.Outcome.next.inj h ▸ hu

theorem exec_safe {c : Instr} {t : State} (h : exec c s = .next t) (hs : Safe s) : Safe t := by
  by_cases hb : Claims.Part.bulk ∈ Claims.touches c
  · cases c with
    | configCommit => exact safe_of_next h (configCommit_safe hs)
    | bootBlobDone => exact safe_of_next h (bootBlobDone_safe hs)
    | dialRelease => exact safe_of_next h (dialRelease_safe hs)
    | idAttest => exact safe_of_next h (idAttest_safe hs)
    | pwrRefusalsRead => exact safe_of_next h (report_safe (fun _ => pwrRefusalsAnswer_safe) hs)
    | lineStatus => exact safe_of_next h (report_safe (fun _ => lineStatusAnswer_safe) hs)
    | linePmRead => exact safe_of_next h (report_safe (fun _ => linePmAnswer_safe) hs)
    | hostPmRead => exact safe_of_next h (report_safe (fun _ => hostPmAnswer_safe) hs)
    | fecPmRead => exact safe_of_next h (report_safe (fun _ => fecPmAnswer_safe) hs)
    | dialList => exact safe_of_next h (report_safe (fun _ => dialListAnswer_safe) hs)
    | calTableRead => exact safe_of_next h (report_safe (fun _ => calReadAnswer_safe) hs)
    | jrxPeers => exact safe_of_next h (report_safe (fun _ => jrxPeersAnswer_safe) hs)
    | faultLogRead => exact safe_of_next h (report_safe (fun _ => faultLogAnswer_safe) hs)
    | dialStage => exact safe_of_next h (dialStage_safe hs)
    | domainWakeComplete => exact safe_of_next h (domainWakeComplete_safe hs)
    | recoveryActionDone => exact safe_of_next h (recoveryActionDone_safe hs)
    | registerWrite | ptwiWrite | ptwiRead | ptwiWriteRead | ptwiRecover | bspiFlashToBulk | bspiBulkToFlash =>
      exact safe_of_next h (registerWrite_safe hs)
    | bspiDone => exact safe_of_next h (bspiDone_safe hs)
    | accessWakeComplete => exact safe_of_next h (accessWakeComplete_safe hs)
    | wakeDone => exact safe_of_next h (wakeDone_safe hs)
    | powerTransitionComplete => exact safe_of_next h (powerTransitionComplete_safe hs)
    | powerOnReset => exact safe_of_next h (ite_safe (keeps_safe (modSys _) (fun _ => rfl) (enterReset_safe (s := s))) hs)
    | resetN | sysResetDelayExpiry => exact safe_of_next h (ite_safe enterReset_safe hs)
    | crownReplyTimeout => exact safe_of_next h (crownReplyTimeout_safe hs)
    | synthFail | coreWatchdog | supply => exact safe_of_next h (ite_safe (detect_safe hs) hs)
    | flowStall => exact safe_of_next h (flowStall_safe hs)
    | tempCrit => exact safe_of_next h (tempCrit_safe hs)
    | extest | clamp | highz | extestPulse | extestTrain =>
      exact safe_of_next h (keeps_safe (modTest _) (fun _ => rfl) (enterReset_safe (s := s)))
    | txSuperframeBoundary => exact safe_of_next h (txSuperframeBoundary_safe hs)
    | rxSuperframeBoundary => exact safe_of_next h (rxSuperframeBoundary_safe hs)
    | scrubPass => exact safe_of_next h (scrubPass_safe hs)
    | bankCheckDone => exact safe_of_next h (bankCheckDone_safe hs)
    | faultHandle => exact safe_of_next h (faultHandle_safe hs)
    | _ => simp [Claims.touches] at hb
  · exact safe_of_bulk hs (commandFrames c s t h .bulk hb)

theorem step_safe {t : State} (h : step s = .next t) (hs : Safe s) : Safe t := by
  unfold step at h
  split at h
  · exact safe_of_next h (tick_safe hs)
  · exact exec_safe h hs

end Sys2Proof.Machine

open Sys2Proof Sys2Proof.Machine

/-- Settles O7: a command that stores does so through stores of bytes and words, which keep the form (Laws/Memory), and the
others leave bulk memory alone (`commandFrames`). The canonical form is the model's own (notes/assumptions 4). -/
theorem bulkMemoryKept : Obligations.BulkMemoryKept := fun _ _ => step_safe
end

section
/-! PROOF. What answering a command leaves of the system block and of the mailboxes. -/

namespace Sys2Proof.Machine

/-- A reply changes nothing of the system block but the record of a blob under way (R362). -/
theorem reply_sys (op : Nat) (rq : Req) (a : Answer) (s : State) :
    ∃ b, (reply op rq a s).sys = { s.sys with blobRun := b } ∧ (s.sys.blobRun = none → b = none) := by
  unfold reply
  dsimp only
  split
  · exact ⟨s.sys.blobRun, by simp, id⟩
  · exact ⟨_, rfl, fun h => by simp [h]⟩
  · split <;> exact ⟨s.sys.blobRun, by simp, id⟩

/-- What is read of the system block apart from that record is the same after a reply. -/
theorem reply_reads {β : Type} (g : Sys → β) (hg : ∀ y b, g { y with blobRun := b } = g y) (op : Nat) (rq : Req)
    (a : Answer) (s : State) : g (reply op rq a s).sys = g s.sys := by
  obtain ⟨b, hb, -⟩ := reply_sys op rq a s
  rw [hb, hg]

theorem moveDev_sys (new : DevState) (reason : Nat) (s : State) : (moveDev new reason s).sys = { s.sys with
    dev := new, holdReason := if new == .hold then BitVec.ofNat 4 reason else 0
    started := new == .active || new == .degraded } := by
  simp [moveDev, stateEvent]

theorem postM_coreGen (n : Fin 8) (m : OutMsg) (s : State) : (postM n m s).mbx.coreGen = s.mbx.coreGen := by
  unfold postM
  dsimp only
  split <;> rfl

theorem replyChan_coreGen (c : Chan) (op : Nat) (rq : Req) (a : Answer) (hw : Bool) (s : State) :
    (replyChan c op rq a hw s).mbx.coreGen = s.mbx.coreGen := by
  unfold replyChan
  split
  · exact postM_coreGen ..
  · simp

theorem completeWith_coreGen (e : DialEv) (st : Status) (reason : Nat) (cmd : Word) (s : State) :
    (completeWith e st reason cmd s).mbx.coreGen = s.mbx.coreGen := by
  unfold completeWith
  dsimp only
  split
  · rfl
  · exact postM_coreGen ..
  · exact postM_coreGen ..
  · split
    · simp
    · rfl
    · exact postM_coreGen ..

theorem reply_coreGen (op : Nat) (rq : Req) (a : Answer) (s : State) :
    (reply op rq a s).mbx.coreGen = s.mbx.coreGen := by
  unfold reply
  dsimp only
  split
  · exact replyChan_coreGen ..
  · rfl
  · split
    · exact completeWith_coreGen ..
    · rfl

/-! ### What the restart of a core answers (R360, R371, R377, R378) -/

/-- The generations of the cores, and the restarts under way. -/
def State.coreRecord (s : State) : Vector (BitVec 4) 7 × List (Core × Option Req) := (s.mbx.coreGen, s.sys.restarts)

theorem reply_coreRecord (op : Nat) (rq : Req) (a : Answer) (s : State) :
    (reply op rq a s).coreRecord = s.coreRecord :=
  Prod.ext (reply_coreGen op rq a s) (reply_reads Sys.restarts (fun _ _ => rfl) op rq a s)

theorem abortEvent_coreRecord (e : DialEv) (reason : Nat) (s : State) :
    (abortEvent e reason s).coreRecord = s.coreRecord := by
  unfold abortEvent
  dsimp only
  split
  · exact Prod.ext (completeWith_coreGen ..) (congrArg Sys.restarts (by simp))
  · exact reply_coreRecord ..

theorem answerAborted_coreRecord (f : Forward) (s : State) : (answerAborted f s).coreRecord = s.coreRecord := by
  have hdoor : ∀ b, (doIf b (fun s => match supIc f.core with
      | some i => setAborted .sup i true (modMbx (fun x => { x with cntAbort := x.cntAbort + 1 }) s)
      | none => modMbx (fun x => { x with cntAbort := x.cntAbort + 1 }) s) s).coreRecord = s.coreRecord := by
    intro b
    unfold doIf
    split
    · split <;> rfl
    · rfl
  rw [answerAborted, reply_coreRecord]
  dsimp only
  split <;> exact hdoor _

theorem forgetLater_coreRecord (srcs : List Src) (s : State) : (forgetLater srcs s).coreRecord = s.coreRecord := by
  simp only [forgetLater, State.coreRecord, eachPort, modTr2_mbx, modTr2_sys, modEvs_keeps]
  rfl

theorem dialRestart_coreRecord (c : Core) (s : State) : (dialRestart c s).coreRecord = s.coreRecord := by
  unfold dialRestart
  dsimp only
  rw [eachOf_keeps State.coreRecord _ _ _ fun e t => abortEvent_coreRecord e 5 t]
  exact forgetLater_coreRecord _ s

/-- A core that restarts has its next generation and its restart is under way; what is answered touches neither. -/
theorem restartCore_coreRecord (c : Core) (rq : Option Req) (s : State) : (restartCore c rq s).coreRecord =
    (vmod s.mbx.coreGen (coreIx c) (· + 1), s.sys.restarts ++ [(c, rq)]) := by
  rw [restartCore, dialRestart_coreRecord, eachOf_keeps State.coreRecord _ _ _ answerAborted_coreRecord,
    forgetLater_coreRecord]
  rfl

end Sys2Proof.Machine
end

section
/-! PROOF. O15: SYS_IDENT, SYS_STATUS, ID_ATTEST, PERM_SET and PERM_GET (R358, R359, R365, R366). -/

namespace Sys2Proof.Machine

/-- The words of ID_ATTEST before their CRC-32C, in five parts (R365). -/
def attestBody (rq : Req) (s : State) : List Word :=
  (sysId :: (List.range 4).map fun i => par rq (1 + i)) ++ ((uidWords ++ s.sys.digest.toList) ++
    ((List.range 16).map (freeWordAt s) ++ (List.range 16).map Config.publicKey))

theorem attestWords_eq (rq : Req) (s : State) : attestWords rq s = attestBody rq s ++ [crc32c (attestBody rq s)] := by
  have hbody : attestBody rq s = sysId :: (List.range 4).map (fun i => par rq (1 + i)) ++ uidWords ++
      s.sys.digest.toList ++ (List.range 16).map (freeWordAt s) ++ (List.range 16).map Config.publicKey := by
    simp [attestBody]
  rw [hbody]
  rfl

theorem attestBody_length (rq : Req) (s : State) : (attestBody rq s).length = 49 := by
  simp [attestBody, uidWords]

theorem attestWords_length (rq : Req) (s : State) : (attestWords rq s).length = 50 := by
  simp [attestWords_eq, attestBody_length]

theorem attestWords_head (rq : Req) (s : State) :
    (attestWords rq s).take 5 = [0x6400B010, par rq 1, par rq 2, par rq 3, par rq 4] := rfl

theorem attestWords_identity (rq : Req) (s : State) :
    ((attestWords rq s).drop 5).take 12 = uidWords ++ s.sys.digest.toList := by
  rw [attestWords_eq, attestBody, List.append_assoc, List.drop_left' (by simp), List.append_assoc,
    List.take_left' (by simp [uidWords])]

theorem attestWords_key (rq : Req) (s : State) :
    ((attestWords rq s).drop 33).take 16 = (List.range 16).map Config.publicKey := by
  have hsplit : attestBody rq s = (sysId :: (List.range 4).map (fun i => par rq (1 + i)) ++ (uidWords ++ s.sys.digest.toList) ++
      (List.range 16).map (freeWordAt s)) ++ (List.range 16).map Config.publicKey := by
    simp [attestBody]
  rw [attestWords_eq, hsplit, List.append_assoc, List.drop_left' (by simp [uidWords]), List.take_left' (by simp)]

theorem attestWords_crc (rq : Req) (s : State) :
    (attestWords rq s).drop 49 = [crc32c ((attestWords rq s).take 49)] := by
  rw [attestWords_eq, List.drop_left' (attestBody_length rq s), List.take_left' (attestBody_length rq s)]

theorem idAttest_runs (rq : Req) (s : State) (hzero : pf rq 0 31 24 = 0) (hroom : pf rq 0 23 0 + 50 ≤ bulkWords) :
    idAttest rq s = reply 0x0008 rq (okay [50]) (putBulk (pf rq 0 23 0) (attestWords rq s) (tookFree s)) := by
  unfold idAttest
  exact command_runs _ _ _ _ _ s (firstFail_badAt_one _ 0 (by simp [hzero, bulkBad_eq_false _ _ hroom]))
    (fun d hd => nomatch hd) rfl

theorem permGet_runs (rq : Req) (s : State) (hzero : fld (par rq 0) 24 0 = 0) (hnamed : (permNamed s (par rq 0)).isSome) :
    permGet rq s = reply 0x000A rq (okay [(permNamed s (par rq 0)).getD 0]) s := by
  unfold permGet
  exact command_runs _ _ _ _ _ s (firstFail_badAt_one _ 0 (by simpa [hzero] using hnamed)) (fun d hd => nomatch hd) rfl

theorem permSet_runs (rq : Req) (s : State) (hzero : fld (par rq 0) 24 0 = 0) (hnamed : (permNamed s (par rq 0)).isSome)
    (hmask : fld (par rq 1) 31 27 = 0) :
    permSet rq s = reply 0x0009 rq (okay []) (modSys (fun y => { y with perms := setPerm (par rq 0) (par rq 1) y.perms }) s) := by
  refine commandOk_runs _ _ _ _ _ s (firstFail_badAt _ _ ?_) (fun d hd => nomatch hd) rfl
  simpa [hzero, hmask] using hnamed

/-- The mask that PERM_SET names reads back as stored (R366). -/
theorem permNamed_setPerm (w m : Word) (s t : State) (hnamed : (permNamed s w).isSome)
    (hstored : t.sys.perms = setPerm w m s.sys.perms) : permNamed t w = some m := by
  unfold permNamed at hnamed ⊢
  rw [hstored]
  unfold setPerm
  generalize chanOf (fld w 31 28) = c at *
  generalize fld w 27 25 = k at *
  cases c with
  | none => simp at hnamed
  | some c =>
    simp only [permMask] at hnamed
    split at hnamed
    · simp_all [permMask]
    · simp_all [permMask]
    · simp_all [permMask]
    · simp_all [permMask]
    · simp at hnamed

theorem sysReportsComplete : Claims.SysReportsComplete := by
  intro rq s
  refine ⟨?_, ?_, fun m hzero hnamed => ?_, fun hzero hroom => ⟨attestWords rq s, attestWords_length rq s,
    attestWords_head rq s, attestWords_identity rq s, attestWords_key rq s, attestWords_crc rq s,
    congrArg Host.Outcome.next (idAttest_runs rq s hzero hroom)⟩⟩
  · exact reports_of_report _ _ _ _ _ (sysIdentAnswer rq) s rfl rfl (fun d hd => nomatch hd)
  · exact reports_of_report _ _ _ _ _ (sysStatusAnswer rq) s rfl rfl (fun d hd => nomatch hd)
  · have hrun := permGet_runs rq s hzero (by simp [hnamed])
    rw [hnamed] at hrun
    exact congrArg Host.Outcome.next hrun

theorem permSetCompletes : Claims.PermSetCompletes := fun rq s hzero hnamed hmask =>
  ⟨_, congrArg Host.Outcome.next (permSet_runs rq s hzero hnamed hmask), permNamed_setPerm _ _ s _ hnamed rfl, rfl⟩

end Sys2Proof.Machine

open Sys2Proof Sys2Proof.Machine

/-- Settles O15: the reports wait for their boundary, and the others pass their checks; the signature of ID_ATTEST is
free (notes/assumptions 3), as the unique ID and the key are (notes/assumptions 2). -/
theorem systemReportsComplete : Obligations.SystemReportsComplete := ⟨sysReportsComplete, permSetCompletes⟩
end

section
/-! PROOF. O16: SYS_RESET, OUTPUTS_START and OUTPUTS_STOP (R360, R363, R371, R491). -/

namespace Sys2Proof.Machine

/-- A command that needs no domain acts by its body once its checks pass. -/
theorem command_runs_free (op : Nat) (rq : Req) (cs : List (Bool × Answer)) (sts : State → List (Bool × Answer))
    (body : State → State) (s : State) (hneeds : needsOf op rq.params = []) (hc : firstFail cs = none)
    (hs : firstFail (sts s) = none) : command op rq cs sts body s = body s :=
  command_runs op rq cs sts body s hc (by simp [hneeds]) hs

/-! ### SYS_RESET -/

/-- SYS_RESET DEVICE answers and makes the reset due (R360). -/
theorem sysReset_device (rq : Req) (s : State) (hw : par rq 0 = 0x00006400) :
    sysReset rq s = modSys (fun y => { y with resetDue := true }) (reply 0x0003 rq (okay []) s) := by
  have hkind : fld (par rq 0) 31 30 = 0 := by rw [hw]; decide
  unfold sysReset
  refine (command_runs_free _ _ _ _ _ s rfl (firstFail_badAt_one _ 0 ?_) ?_).trans (if_pos hkind)
  · rw [hw]; decide
  · simp [firstFail, hkind]

/-- A field of zero adds nothing, wherever it stands. -/
theorem word_insert_zero (fs gs : List (Nat × Nat × Nat)) (hi lo : Nat) :
    word (fs ++ (hi, lo, 0) :: gs) = word (fs ++ gs) := by
  simp only [word_eq_sum, List.map_append, List.map_cons, List.sum_append, List.sum_cons, fieldValue, Nat.zero_mod,
    Nat.zero_mul, Nat.zero_add]

/-- The fields of the word of SYS_RESET CORE. -/
theorem resetWord_fields (c : Fin 6) (w : Word) (hw : w = word [(31, 30, 1), (29, 27, c.val), (15, 0, 0x6400)]) :
    fld w 31 30 = 1 ∧ fld w 29 27 = c.val ∧ fld w 26 16 = 0 ∧ fld w 15 0 = 0x6400 := by
  have hzero : w = word [(31, 30, 1), (29, 27, c.val), (26, 16, 0), (15, 0, 0x6400)] :=
    hw.trans (word_insert_zero [(31, 30, 1), (29, 27, c.val)] [(15, 0, 0x6400)] 26 16).symm
  rw [hzero]
  have hbelow : fieldsBelow 32 [(31, 30, 1), (29, 27, c.val), (26, 16, 0), (15, 0, 0x6400)] = true := rfl
  refine ⟨(fld_word 31 30 1 _ hbelow (by simp)).trans ?_, (fld_word 29 27 c.val _ hbelow (by simp)).trans ?_,
    (fld_word 26 16 0 _ hbelow (by simp)).trans ?_, (fld_word 15 0 0x6400 _ hbelow (by simp)).trans ?_⟩ <;>
    omega

/-- SYS_RESET CORE of a core in service begins its restart (R360). -/
theorem sysReset_core (rq : Req) (s : State) (c : Fin 6)
    (hw : par rq 0 = word [(31, 30, 1), (29, 27, c.val), (15, 0, 0x6400)])
    (hheld : unitHeld s (.core (resetCore c.val)) = false) (hidle : restarting s (resetCore c.val) = false)
    (hup : unitDown s (.core (resetCore c.val)) = false) :
    sysReset rq s = restartCore (resetCore c.val) (some rq) (taken rq s) := by
  obtain ⟨hkind, hcore, hzero, hkey⟩ := resetWord_fields c _ hw
  unfold sysReset
  simp only [hkind, hcore, hzero, hkey]
  refine (command_runs_free _ _ _ _ _ s rfl (firstFail_badAt_one _ 0 ?_) ?_).trans (if_neg (by decide))
  · simp only [bne_self_eq_false, Bool.or_false, Bool.or_eq_false_iff]
    exact ⟨by decide, by simpa using Nat.le_of_lt_succ c.isLt⟩
  · simp [firstFail, hheld, hidle, hup]

theorem sysResetCompletes : Claims.SysResetCompletes := by
  refine fun rq s => ⟨fun hw => congrArg Host.Outcome.next (sysReset_device rq s hw), fun c hw hheld hidle hup => ?_⟩
  have hrec := restartCore_coreRecord (resetCore c.val) (some rq) (taken rq s)
  obtain ⟨hgen, hrestarts⟩ := Prod.mk.inj hrec
  refine ⟨_, congrArg Host.Outcome.next (sysReset_core rq s c hw hheld hidle hup), ?_, ?_⟩
  · rw [hgen, vmod_same]
    rfl
  · simp [restarting, hrestarts]

/-! ### OUTPUTS_START and OUTPUTS_STOP -/

theorem reply_ports (op : Nat) (rq : Req) (a : Answer) (s : State) : (reply op rq a s).ports = s.ports := by simp

/-- Outputs that are low stay low while outputs are not started (R94, R493). -/
theorem refresh_drvLow (s : State) (hout : outputsOn s = false) (hlow : ∀ p : LPort, s.ports[p].front.drvEn = false)
    (p : LPort) : (refresh s).ports[p].front.drvEn = false := by
  have hstep : ∀ q t, outputsOn t = false ∧ t.ports[p].front.drvEn = false →
      outputsOn (refreshPort q t) = false ∧ (refreshPort q t).ports[p].front.drvEn = false := by
    intro q t ⟨ht, hp⟩
    refine ⟨by simpa [outputsOn] using ht, ?_⟩
    by_cases hq : p = q
    · subst hq
      have hcond : drvCond t p = false := by simp [drvCond, ht]
      simp only [refreshPort, hcond, Bool.false_eq_true, if_false, modFront_front]
      split <;> exact hp
    · simpa [refreshPort, hq] using hp
  exact (hstep 3 _ (hstep 2 _ (hstep 1 _ (hstep 0 s ⟨hout, hlow p⟩)))).2

theorem allDrvLow_drvEn (s : State) (p : LPort) : (allDrvLow s).ports[p].front.drvEn = false :=
  eachPort_turn (Q := fun _ => True) (P := fun t => t.ports[p].front.drvEn = false) p (fun _ _ _ _ => trivial)
    (fun t _ => by simp) (fun q hq t ht => by simpa [hq.symm] using ht) trivial

@[simp] theorem allDrvLow_sys (s : State) : (allDrvLow s).sys = s.sys := rfl

theorem outputsStart_ready (rq : Req) (s : State) (h : s.sys.dev = .ready) : outputsStart rq s =
    reply 0x0006 rq (okay []) (refresh (moveDev (if otherHeld s then .degraded else .active) 0 s)) := by
  unfold outputsStart
  refine (command_runs_free _ _ _ _ _ s rfl rfl ?_).trans (if_pos (by simp [h]))
  simp [firstFail, h]

theorem outputsStart_started (rq : Req) (s : State) (h : s.sys.dev = .active ∨ s.sys.dev = .degraded) :
    outputsStart rq s = reply 0x0006 rq (okFlags 1) s := by
  unfold outputsStart
  refine (command_runs_free _ _ _ _ _ s rfl rfl ?_).trans (if_neg ?_) <;>
    rcases h with h | h <;> simp [firstFail, h]

theorem outputsStop_started (rq : Req) (s : State) (h : s.sys.dev = .active ∨ s.sys.dev = .degraded) :
    outputsStop rq s = reply 0x0007 rq (okay []) (refresh (allDrvLow (moveDev .ready 0 s))) := by
  unfold outputsStop
  exact (command_runs_free _ _ _ _ _ s rfl rfl rfl).trans (if_pos (by simpa using h))

theorem outputsStop_stopped (rq : Req) (s : State) (hactive : s.sys.dev ≠ .active) (hdegraded : s.sys.dev ≠ .degraded) :
    outputsStop rq s = reply 0x0007 rq (okFlags 1) s := by
  unfold outputsStop
  exact (command_runs_free _ _ _ _ _ s rfl rfl rfl).trans (if_neg (by simp [hactive, hdegraded]))

theorem outputsComplete : Claims.OutputsComplete := by
  intro rq s
  refine ⟨fun hready => ⟨_, congrArg Host.Outcome.next (outputsStart_ready rq s hready), ?_, ?_⟩,
    fun hstarted => ⟨congrArg Host.Outcome.next (outputsStart_started rq s hstarted), _,
      congrArg Host.Outcome.next (outputsStop_started rq s hstarted), ?_, ?_, fun p => ?_⟩,
    fun hactive hdegraded => congrArg Host.Outcome.next (outputsStop_stopped rq s hactive hdegraded)⟩
  · rw [reply_reads Sys.dev fun _ _ => rfl]
    simp [moveDev_sys]
  · rw [reply_reads Sys.started fun _ _ => rfl]
    cases otherHeld s <;> simp [moveDev_sys]
  · rw [reply_reads Sys.dev fun _ _ => rfl]
    simp [moveDev_sys]
  · rw [reply_reads Sys.started fun _ _ => rfl]
    simp [moveDev_sys]
  · rw [reply_ports]
    exact refresh_drvLow _ (by simp [outputsOn, moveDev_sys]) (allDrvLow_drvEn _) p

end Sys2Proof.Machine

open Sys2Proof Sys2Proof.Machine

/-- Settles O16: the checks pass, so each command does what its operation does, and what a reply or the restart of a core
answers leaves the rest of the records alone. -/
theorem systemStateComplete : Obligations.SystemStateComplete := ⟨sysResetCompletes, outputsComplete⟩
end

section
/-! PROOF. O17: CONFIG_LOAD, CONFIG_COMMIT and BOOT_BLOB_DONE (R341, R361, R362, R489, R490). -/

namespace Sys2Proof.Machine

/-! ### CONFIG_LOAD -/

/-- CONFIG_LOAD in HOLD or READY, with no blob under way and its area in bulk memory. -/
theorem configLoad_runs (rq : Req) (s : State) (hzero : pf rq 0 31 24 = 0) (hdev : s.sys.dev = .hold ∨ s.sys.dev = .ready)
    (hidle : s.sys.blobRun = none)
    (hroom : (par rq 1).toNat ≠ 0 → pf rq 0 23 0 + (par rq 1).toNat ≤ bulkWords) :
    configLoad rq s =
      if (par rq 1).toNat = 0 then reply 0x0004 rq (okay []) (modSys (fun y => { y with pending := none }) s)
      else match blobCheck (bulkRead s.bulk (pf rq 0 23 0) (par rq 1).toNat) (some (par rq 1).toNat) with
        | .error r => reply 0x0004 rq { st := .badParam, detail := 0xFF0000 + loadDetail r } s
        | .ok ps => reply 0x0004 rq (okay []) (modSys (fun y => { y with
            pending := some { configId := (bulkRead s.bulk (pf rq 0 23 0) (par rq 1).toNat).getD 1 0, packets := ps
                              channel := BitVec.ofNat 4 (srcChan rq.src) } }) s) := by
  unfold configLoad
  refine (command_runs_free _ _ _ _ _ s rfl (firstFail_badAt_one _ 0 ?_) ?_).trans rfl
  · by_cases hlen : (par rq 1).toNat = 0
    · simp [hzero, hlen]
    · simp [hzero, bulkBad_eq_false _ _ (hroom hlen)]
  · rcases hdev with hdev | hdev <;> simp [firstFail, hdev, hidle]

theorem configLoadCompletes : Claims.ConfigLoadCompletes := by
  intro rq s hzero hdev hidle
  refine ⟨fun hlen => ?_, fun ws ps hlen hroom hws hok => ?_, fun ws r hlen hroom hws hbad => ?_⟩
  · refine congrArg Host.Outcome.next ((configLoad_runs rq s hzero hdev hidle fun h => absurd ?_ h).trans (if_pos ?_)) <;>
      rw [hlen] <;> rfl
  · refine congrArg Host.Outcome.next ((configLoad_runs rq s hzero hdev hidle fun _ => hroom).trans ?_)
    subst hws
    rw [if_neg hlen, hok]
  · refine congrArg Host.Outcome.next ((configLoad_runs rq s hzero hdev hidle fun _ => hroom).trans ?_)
    subst hws
    rw [if_neg hlen, hbad]

/-! ### The execution of a blob -/

/-- The PERM_SET of a blob's packet, carried out while the blob is under way (R362). -/
theorem runPacket_permSet (ws : List Word) (w m : Word) (r : BlobRun) (s : State) (hrun : s.sys.blobRun = some r)
    (hfailed : r.failed = none) (hop : pktOp ws = 0x0009) (hparams : pktParams ws = [w, m]) (hzero : fld w 24 0 = 0)
    (hnamed : (permNamed s w).isSome) (hmask : fld m 31 27 = 0) :
    (runPacket ws s).faults = s.faults ∧ (runPacket ws s).sys = { s.sys with
      perms := setPerm w m s.sys.perms, blobRun := some { r with begun := r.begun + 1, index := r.index + 1 } } := by
  obtain ⟨rq, hsrc, hw, hm, hpacket⟩ : ∃ rq : Req, rq.src = .blob ∧ par rq 0 = w ∧ par rq 1 = m ∧ runPacket ws s =
      permSet rq (modSys (fun y => { y with blobRun := y.blobRun.map fun r => { r with begun := r.begun + 1 } }) s) := by
    refine ⟨{ src := .blob, tag := BitVec.ofNat 8 (pktTag ws), stamp := coreStamp s 0, params := [w, m] }, rfl, rfl, rfl, ?_⟩
    simp only [runPacket, hop, hparams]
    rfl
  rw [hpacket, permSet_runs rq _ (hw ▸ hzero) (hw ▸ hnamed) (hm ▸ hmask), hw, hm]
  simp [reply, hsrc, blobResult, hrun, hfailed, okay]

/-- A blob with one PERM_SET: its packet is carried out, and the blob ends (R362). -/
theorem startBlob_permSet (r : BlobRun) (ws : List Word) (w m : Word) (s : State) (hbegun : r.begun = 0) (hindex : r.index = 0)
    (hfailed : r.failed = none) (hpackets : r.packets = [ws]) (hop : pktOp ws = 0x0009) (hparams : pktParams ws = [w, m])
    (hzero : fld w 24 0 = 0) (hnamed : (permNamed s w).isSome) (hmask : fld m 31 27 = 0) :
    ∃ t, startBlob r s = endBlob { r with begun := 1, index := 1 } t ∧ t.faults = s.faults ∧
      ∃ b, t.sys = { s.sys with perms := setPerm w m s.sys.perms, blobRun := b } := by
  obtain ⟨hfaults, hsys⟩ := runPacket_permSet ws w m r (modSys (fun y => { y with blobRun := some r }) s) rfl hfailed hop
    hparams hzero hnamed hmask
  refine ⟨runPacket ws (modSys (fun y => { y with blobRun := some r }) s), ?_, hfaults, _, hsys⟩
  simp [startBlob, runBlob, hpackets, hfailed, hbegun, hindex, hsys]

theorem heldChanged_stays (s : State) (hboot : s.sys.dev ≠ .boot) (haon : unitHeld s .aon = false)
    (hactive : s.sys.dev ≠ .active) (hdegraded : s.sys.dev ≠ .degraded) : heldChanged s = s := by
  simp [heldChanged, hboot, haon, hactive, hdegraded]

theorem unitHeld_congr {s t : State} (u : FUnit) (h : t.faults = s.faults) : unitHeld t u = unitHeld s u := by
  rw [unitHeld, unitSt, h]
  rfl

/-- A blob without a failed packet leads to READY with its identifier in force (R362, R490). -/
theorem endBlob_sys (r : BlobRun) (s : State) (hfailed : r.failed = none) (hdev : s.sys.dev ≠ .fault)
    (haon : r.boot = true → unitHeld s .aon = false) : (endBlob r s).sys = { s.sys with
      blobRun := none, configId := r.configId, pending := if r.boot then s.sys.pending else none
      dev := .ready, holdReason := 0, started := false } := by
  obtain ⟨u, hu, hend⟩ : ∃ u, u.sys = { s.sys with
      blobRun := none, configId := r.configId, pending := if r.boot then s.sys.pending else none
      dev := .ready, holdReason := 0, started := false } ∧
      endBlob r s = (match r.rq with | some rq => reply 0x0005 rq (okay []) u | none => u) := by
    refine ⟨moveDev .ready 0 (modSys (fun y => { y with
      blobRun := none, configId := r.configId, pending := if r.boot then y.pending else none }) s), by simp [moveDev_sys], ?_⟩
    have hheld : ∀ t : State, t.sys.dev = .ready → t.faults = s.faults → doIf r.boot heldChanged t = t := by
      intro t hready hfaults
      by_cases hboot : r.boot = true
      · rw [doIf, if_pos hboot, heldChanged_stays t (by simp [hready])
          ((unitHeld_congr _ hfaults).trans (haon hboot)) (by simp [hready]) (by simp [hready])]
      · exact if_neg hboot
    simp only [endBlob, hfailed, modSys_sys, beq_eq_false_iff_ne.mpr hdev, Bool.false_eq_true, if_false]
    rw [hheld _ (by simp [moveDev_sys]) (by simp)]
    cases r.rq <;> rfl
  rw [hend, ← hu]
  split
  · obtain ⟨b, hb, hnone⟩ := reply_sys 0x0005 _ (okay []) u
    have hidle : u.sys.blobRun = none := by rw [hu]
    rw [hb, hnone hidle, ← hidle]
  · rfl

/-! ### CONFIG_COMMIT and BOOT_BLOB_DONE -/

/-- CONFIG_COMMIT of the pending configuration that it names starts its execution (R362). -/
theorem configCommit_starts (rq : Req) (s : State) (b : Blob) (hdev : s.sys.dev = .hold ∨ s.sys.dev = .ready)
    (hpending : s.sys.pending = some b) (hid : b.configId = par rq 0) (hidle : s.sys.blobRun = none) :
    configCommit rq s = startBlob { packets := b.packets, configId := b.configId, rq := some rq } s := by
  unfold configCommit
  refine (command_runs_free _ _ _ _ _ s rfl rfl ?_).trans ?_
  · rcases hdev with hdev | hdev <;> simp [firstFail, hdev, hpending, hid, hidle]
  · simp only [hpending]

/-- BOOT_BLOB_DONE at the point of the boot at which the blob of the flash is applied (R490). -/
theorem bootBlobDone_due (flash : List Word) (s : State) (hdev : s.sys.dev = .boot) (hphase : s.sys.phase = 4)
    (hresume : s.sys.resume = none) (hslot : s.sys.slot ≠ 2) (hidle : s.sys.blobRun = none) : bootBlobDone flash s =
      match blobCheck flash none with
      | .error e => heldChanged (moveDev .hold e (modSys (fun y => { y with configId := 0 }) s))
      | .ok ps => startBlob { packets := ps, configId := flash.getD 1 0, boot := true } s := by
  have hdue : ¬ (s.sys.dev != .boot || s.sys.phase != 4 || s.sys.resume.isSome || s.sys.slot == 2 ||
      s.sys.blobRun.isSome) = true := by
    rw [hdev, hphase, hresume, hidle, beq_eq_false_iff_ne.mpr hslot]
    decide
  exact (if_neg hdue).trans rfl

theorem blobExecutionCompletes : Claims.BlobExecutionCompletes := by
  refine ⟨fun rq s b ws w m old hdev hpending hid hidle hpackets hop hparams hzero hold hmask => ?_,
    fun flash s hdev hphase hresume hslot hidle => ⟨fun r hbad haon => ?_, fun ws w m old hok hop hparams hzero hold hmask haon => ?_⟩⟩
  · have hnamed : (permNamed s w).isSome := by simp [hold]
    obtain ⟨t, hrun, -, blob, hsys⟩ := startBlob_permSet { packets := b.packets, configId := b.configId, rq := some rq } ws w m
      s rfl rfl rfl hpackets hop hparams hzero hnamed hmask
    have hend := endBlob_sys { packets := b.packets, begun := 1, index := 1, configId := b.configId, rq := some rq } t rfl
      (by rw [hsys]; rcases hdev with hdev | hdev <;> simp [hdev]) (fun h => nomatch h)
    refine ⟨_, congrArg Host.Outcome.next ((configCommit_starts rq s b hdev hpending hid hidle).trans hrun), ?_, ?_, ?_,
      permNamed_setPerm w m s _ hnamed ?_⟩ <;> rw [hend]
    · rfl
    · exact hid
    · rw [hsys]
  · have hrun := bootBlobDone_due flash s hdev hphase hresume hslot hidle
    rw [hbad] at hrun
    refine ⟨_, congrArg Host.Outcome.next (hrun.trans (heldChanged_stays _ ?_ ?_ ?_ ?_)), ?_, ?_, ?_⟩
    case refine_2 => exact (unitHeld_congr _ (by simp)).trans haon
    all_goals simp [moveDev_sys]
  · have hnamed : (permNamed s w).isSome := by simp [hold]
    obtain ⟨t, hrun, hfaults, blob, hsys⟩ := startBlob_permSet { packets := [ws], configId := flash.getD 1 0, boot := true }
      ws w m s rfl rfl rfl rfl hop hparams hzero hnamed hmask
    have hend := endBlob_sys { packets := [ws], begun := 1, index := 1, configId := flash.getD 1 0, boot := true } t rfl
      (by rw [hsys]; simp [hdev]) (fun _ => (unitHeld_congr _ hfaults).trans haon)
    have hdue := bootBlobDone_due flash s hdev hphase hresume hslot hidle
    rw [hok] at hdue
    refine ⟨_, congrArg Host.Outcome.next (hdue.trans hrun), ?_, ?_, permNamed_setPerm w m s _ hnamed ?_⟩ <;> rw [hend]
    rw [hsys]

end Sys2Proof.Machine

open Sys2Proof Sys2Proof.Machine

/-- Settles O17: a load is decided by the checks of the blob, and a blob with one PERM_SET is executed in one packet, after
which it ends in READY. -/
theorem configurationsComplete : Obligations.ConfigurationsComplete := ⟨configLoadCompletes, blobExecutionCompletes⟩
end


section
/-! PROOF. The mailboxes: posting, taking and resetting a channel, first without the port that asks and then through
its front end or the test access port. -/

namespace Sys2Proof.Machine

/-! ### Posting -/

/-- A word that enters the queue of a channel, with its sender's stamp. -/
def enteredWord (n : Fin 8) (st : Stamp) (w : Word) (s : State) : QWord :=
  { w := w, start := s.mbx.m[n].inPart.isNone, stamp := st, reqOf := none, hwAbort := false, stale := false,
    arrived := s.mbx.arrivals }

/-- The words of its message still to come after a word. -/
def wordsLeft (c : MChan) (w : Word) : Nat :=
  match c.inPart with
  | some (_, k) => k - 1
  | none => fld w 7 0 + 1

/-- No message of another class stands open in a channel. -/
def OpenFor (c : MChan) (cls : BitVec 3) : Prop := c.inPart = none ∨ ∃ k, c.inPart = some (cls, k)

/-- A channel after a word has entered its queue. -/
def chanEntered (n : Fin 8) (st : Stamp) (w : Word) (s : State) : MChan :=
  { s.mbx.m[n] with
    inQ := s.mbx.m[n].inQ ++ [enteredWord n st w s]
    inPart := if wordsLeft s.mbx.m[n] w = 0 then none else some (st.cls, wordsLeft s.mbx.m[n] w) }

/-- A word inside another class's message. -/
theorem postWord_clash (n : Fin 8) (st : Stamp) (w : Word) (s : State) (h : ¬ OpenFor s.mbx.m[n] st.cls) :
    postWord n st w s = modM n (fun c => { c with conflict := true }) s := by
  rcases hpart : s.mbx.m[n].inPart with _ | ⟨k, left⟩
  · exact absurd (.inl hpart) h
  · have hne : k ≠ st.cls := fun he => h (.inr ⟨left, he ▸ hpart⟩)
    unfold postWord
    dsimp only
    rw [hpart]
    exact if_pos (by simpa using hne)

/-- Past the clash check. -/
theorem postWord_open (n : Fin 8) (st : Stamp) (w : Word) (s : State) (h : OpenFor s.mbx.m[n] st.cls) :
    postWord n st w s = if noInbound n || 16 ≤ s.mbx.m[n].inQ.length then modM n (fun c => { c with overrun := true }) s
      else wakeCtl (modM n (fun c => { c with
        inQ := c.inQ ++ [enteredWord n st w s]
        inPart := if wordsLeft s.mbx.m[n] w = 0 then none else some (st.cls, wordsLeft s.mbx.m[n] w) })
        (modMbx (fun x => { x with arrivals := x.arrivals + 1 }) s)) := by
  unfold postWord enteredWord wordsLeft
  rcases h with h | ⟨k, h⟩ <;> dsimp only <;> rw [h] <;> exact if_neg (by simp)

theorem postWord_overruns (n : Fin 8) (st : Stamp) (w : Word) (s : State) (hopen : OpenFor s.mbx.m[n] st.cls)
    (h : noInbound n = true ∨ 16 ≤ s.mbx.m[n].inQ.length) :
    postWord n st w s = modM n (fun c => { c with overrun := true }) s := by
  rw [postWord_open n st w s hopen]
  exact if_pos (by simpa using h)

theorem postWord_enters (n : Fin 8) (st : Stamp) (w : Word) (s : State) (hopen : OpenFor s.mbx.m[n] st.cls)
    (hin : noInbound n = false) (hroom : s.mbx.m[n].inQ.length < 16) :
    (postWord n st w s).mbx.m[n] = chanEntered n st w s := by
  rw [postWord_open n st w s hopen, if_neg (by simpa [hin] using hroom), (wakeCtl_keeps _).2.1, modM_mbx]
  exact vmod_same _ _ _

theorem postWord_only (n : Fin 8) (st : Stamp) (w : Word) (s : State) : Claims.Only [.mbx, .power] s (postWord n st w s) :=
  only_of_kept (postWord_keeps n st w s)

/-! ### Taking -/

theorem modM_channel (n : Fin 8) (f : MChan → MChan) (s : State) : (modM n f s).mbx.m[n] = f s.mbx.m[n] :=
  vmod_same _ _ _

theorem modM_only (n : Fin 8) (f : MChan → MChan) (s : State) : Claims.Only [.mbx] s (modM n f s) := modMbx_only _ s

theorem takeWord_empty (who : HostPort) (n : Fin 8) (s : State) (h : s.mbx.m[n].outQ = []) :
    takeWord who n s = (0, modM n (fun c => { c with underrun := true }) s) := by
  unfold takeWord
  rw [h]

/-- The channel after its head word has been taken: a first word leaves its stamp. -/
def takenFrom (who : HostPort) (n : Fin 8) (q : QWord) (rest : List QWord) (s : State) : MChan :=
  if q.start then latchStamp who (stampWord s n q) { s.mbx.m[n] with outQ := rest } else { s.mbx.m[n] with outQ := rest }

theorem flowOn_channel (n : Fin 8) (s : State) (h : s.mbx.m[n].outWait = []) : (flowOn n s).mbx.m[n] = s.mbx.m[n] := by
  have hstays : flowOn n s = s := if_neg (by rw [h]; simp)
  rw [hstays]

theorem latchStamp_queues (who : HostPort) (w : Word) (c : MChan) :
    (latchStamp who w c).outQ = c.outQ ∧ (latchStamp who w c).inQ = c.inQ ∧ (latchStamp who w c).outWait = c.outWait ∧
      (latchStamp who w c).underrun = c.underrun ∧ (latchStamp who w c).overrun = c.overrun ∧
      regStamp (latchStamp who w c) who = w := by
  cases who <;> simp [latchStamp, regStamp]

/-- The head word is taken, and with no message waiting the queue ends there. -/
theorem takeWord_takes (who : HostPort) (n : Fin 8) (s : State) (q : QWord) (rest : List QWord)
    (hq : s.mbx.m[n].outQ = q :: rest) (hwait : s.mbx.m[n].outWait = []) :
    (takeWord who n s).1 = q.w ∧ (takeWord who n s).2.mbx.m[n] = takenFrom who n q rest s := by
  unfold takeWord takenFrom
  rw [hq]
  refine ⟨rfl, ?_⟩
  dsimp only
  split
  · have hchan : (modMbx (fun x => { x with cntStale := if outStale s q then x.cntStale + 1 else x.cntStale })
        (modM n (latchStamp who (stampWord s n q)) (modM n (fun c => { c with outQ := rest }) s))).mbx.m[n] =
        latchStamp who (stampWord s n q) { s.mbx.m[n] with outQ := rest } :=
      (modM_channel n _ _).trans (congrArg _ (modM_channel n _ s))
    exact (flowOn_channel n _ (by rw [hchan, (latchStamp_queues who _ _).2.2.1, hwait])).trans hchan
  · have hchan := modM_channel n (fun c => { c with outQ := rest }) s
    exact (flowOn_channel n _ (by rw [hchan, hwait])).trans hchan

theorem takenFrom_queues (who : HostPort) (n : Fin 8) (q : QWord) (rest : List QWord) (s : State) :
    (takenFrom who n q rest s).outQ = rest ∧ (takenFrom who n q rest s).inQ = s.mbx.m[n].inQ ∧
      (takenFrom who n q rest s).underrun = s.mbx.m[n].underrun ∧ (takenFrom who n q rest s).overrun = s.mbx.m[n].overrun ∧
      regStamp (takenFrom who n q rest s) who = (if q.start then stampWord s n q else regStamp s.mbx.m[n] who) := by
  unfold takenFrom
  split
  · obtain ⟨hout, hin, -, hunder, hover, hstamp⟩ := latchStamp_queues who (stampWord s n q) { s.mbx.m[n] with outQ := rest }
    exact ⟨hout, hin, hunder, hover, hstamp⟩
  · refine ⟨rfl, rfl, rfl, rfl, ?_⟩
    cases who <;> rfl

theorem takeWord_only (who : HostPort) (n : Fin 8) (s : State) : Claims.Only [.mbx] s (takeWord who n s).2 := by
  intro x hx
  cases x <;> simp_all [Claims.Same]

/-! ### Resetting -/

theorem bumpGen_gen (who : HostPort) (c : MChan) : hostGen (bumpGen who c) who = hostGen c who + 1 := by
  cases who <;> rfl

theorem bumpGen_queues (who : HostPort) (c : MChan) :
    (bumpGen who c).outQ = c.outQ ∧ (bumpGen who c).inQ = c.inQ ∧ (bumpGen who c).inPart = c.inPart ∧
      (bumpGen who c).underrun = c.underrun ∧ (bumpGen who c).overrun = c.overrun ∧
      (bumpGen who c).conflict = c.conflict ∧ (bumpGen who c).drop = c.drop := by
  cases who <;> simp [bumpGen]

/-- The message that stands open in a channel is of the class of a port. -/
def openOf (who : HostPort) (c : MChan) : Bool :=
  match c.inPart with
  | some (k, _) => k.toNat == classOf who
  | none => false

theorem openOf_iff (who : HostPort) (c : MChan) :
    openOf who c = true ↔ ∃ k, c.inPart = some (BitVec.ofNat 3 (classOf who), k) := by
  have hclass : classOf who < 8 := by cases who <;> decide
  unfold openOf
  rcases c.inPart with _ | ⟨k, left⟩
  · simp
  · simp only [beq_iff_eq, Option.some.injEq, Prod.mk.injEq, exists_eq_right']
    exact ⟨fun h => by rw [← h]; simp, fun h => by rw [h, BitVec.toNat_ofNat, Nat.mod_eq_of_lt hclass]⟩

/-- A channel after a class has restarted its use of it. -/
def restarted (who : HostPort) (c : MChan) : MChan :=
  let partly := c.outWait.head?.any fun m => m.posted != 0
  bumpGen who { c with
    outQ := [], outWait := if partly then c.outWait.drop 1 else c.outWait
    busy := c.busy && !(partly && c.outWait.head?.any (·.endsCmd))
    inQ := if openOf who c then beforeLast c.inQ else c.inQ
    inPart := if openOf who c then none else c.inPart }

/-- A restart, before the doorbell that tells of space and the count of a message cut short. -/
theorem resetChan_eq (who : HostPort) (n : Fin 8) (s : State) : resetChan who n s =
    let t := modM n (fun _ => restarted who s.mbx.m[n]) s
    let u := doIf (decide (8 < s.mbx.m[n].inQ.length) && decide (t.mbx.m[n].inQ.length ≤ 8)) (ring (8 + n.val)) t
    if openOf who s.mbx.m[n] then modMbx (fun x => { x with cntPartial := x.cntPartial + 1 }) u else u := rfl

theorem doIf_ring_mbx (on : Bool) (b : Nat) (s : State) :
    (doIf on (ring b) s).mbx.m = s.mbx.m ∧ (doIf on (ring b) s).mbx.cntPartial = s.mbx.cntPartial := by
  cases on <;> exact ⟨rfl, rfl⟩

theorem resetChan_channel (who : HostPort) (n : Fin 8) (s : State) :
    (resetChan who n s).mbx.m[n] = restarted who s.mbx.m[n] ∧
      (resetChan who n s).mbx.cntPartial = s.mbx.cntPartial + (if openOf who s.mbx.m[n] then 1 else 0) := by
  have hchan := modM_channel n (fun _ => restarted who s.mbx.m[n]) s
  rw [resetChan_eq]
  dsimp only
  obtain ⟨hm, hcnt⟩ := doIf_ring_mbx (decide (8 < s.mbx.m[n].inQ.length) &&
    decide ((modM n (fun _ => restarted who s.mbx.m[n]) s).mbx.m[n].inQ.length ≤ 8)) (8 + n.val)
    (modM n (fun _ => restarted who s.mbx.m[n]) s)
  have hu := (congrArg (fun v : Vector MChan 8 => v[n]) hm).trans hchan
  split
  · exact ⟨hu, congrArg (· + 1) hcnt⟩
  · exact ⟨hu, hcnt.trans (by simp)⟩

theorem resetChan_only (who : HostPort) (n : Fin 8) (s : State) : Claims.Only [.mbx] s (resetChan who n s) :=
  only_of_kept (resetChan_keeps who n s)

/-- What a restart leaves in a channel. -/
theorem restarted_fields (who : HostPort) (c : MChan) :
    (restarted who c).outQ = [] ∧ hostGen (restarted who c) who = hostGen c who + 1 ∧
      (restarted who c).inQ = (if openOf who c then beforeLast c.inQ else c.inQ) ∧
      (restarted who c).inPart = (if openOf who c then none else c.inPart) ∧
      (restarted who c).underrun = c.underrun ∧ (restarted who c).overrun = c.overrun ∧
      (restarted who c).conflict = c.conflict ∧ (restarted who c).drop = c.drop := by
  obtain ⟨hout, hin, hpart, hflags⟩ := bumpGen_queues who _
  refine ⟨hout, (bumpGen_gen who _).trans ?_, hin, hpart, hflags⟩
  cases who <;> rfl

/-- A channel after a write to MBX.CTRL_n. -/
theorem ctrlWrite_channel (who : HostPort) (n : Fin 8) (w : Word) (s : State) :
    (bit w 31 = false → (ctrlWrite who n w s).mbx.m[n] = ctrlClear w s.mbx.m[n]) ∧
    (bit w 31 = true → (ctrlWrite who n w s).mbx.m[n] = restarted who (ctrlClear w s.mbx.m[n]) ∧
      (ctrlWrite who n w s).mbx.cntPartial = s.mbx.cntPartial + (if openOf who s.mbx.m[n] then 1 else 0)) := by
  have hclear := modM_channel n (ctrlClear w) s
  refine ⟨fun h => ?_, fun h => ?_⟩ <;> rw [ctrlWrite, doIf, h]
  · exact hclear
  · obtain ⟨hm, hcnt⟩ := resetChan_channel who n (modM n (ctrlClear w) s)
    rw [hclear] at hm hcnt
    exact ⟨hm, hcnt⟩

theorem ctrlWrite_only (who : HostPort) (n : Fin 8) (w : Word) (s : State) : Claims.Only [.mbx] s (ctrlWrite who n w s) :=
  only_of_kept (ctrlWrite_keeps who n w s)

/-! ### Through a front end -/

theorem hostStamp_cls (s : State) (who : HostPort) (n : Fin 8) :
    (hostStamp s who n).cls.toNat = classOf who := by
  cases who <;> rfl

theorem feDone_mbx (who : HostPort) (addr : BitVec 16) (data : Word) (s : State) : (feDone who addr data s).mbx = s.mbx := by
  simp

theorem feDone_channel (who : HostPort) (addr : BitVec 16) (data : Word) (n : Fin 8) (s : State) :
    (feDone who addr data s).mbx.m[n] = s.mbx.m[n] := congrArg (fun x : Mbx => x.m[n]) (feDone_mbx who addr data s)

/-- An access that only reaches the mailboxes changes them and the port. -/
theorem feDone_only_mbx (who : HostPort) (addr : BitVec 16) (data : Word) {s t : State} (h : Claims.Only [.mbx] s t) :
    Claims.Only [.mbx, .twi] s (feDone who addr data t) :=
  only_mono (feDone_only_of who addr data h) (by simp)

section
variable (who : HostPort) (n : Fin 8) (w : Word) (s : State) (hserve : feServes s who = true)
include hserve

theorem mbxPost_runs : Claims.Runs (.mbxPost who n w) s
    (feDone who (BitVec.ofNat 16 (0x0100 + n.val)) 0 (postWord n (hostStamp s who n) w s)) :=
  congrArg Host.Outcome.next (access_serves who _ s hserve)

theorem mbxTake_runs : Claims.Runs (.mbxTake who n) s
    (feDone who (BitVec.ofNat 16 (0x0108 + n.val)) (takeWord who n s).1 (takeWord who n s).2) :=
  congrArg Host.Outcome.next (access_serves who _ s hserve)

theorem mbxCtrlReset_runs : Claims.Runs (.mbxCtrlReset who n w) s
    (feDone who (BitVec.ofNat 16 (0x0118 + n.val)) 0 (ctrlWrite who n w s)) :=
  congrArg Host.Outcome.next (access_serves who _ s hserve)

/-- A word that its channel takes. -/
theorem mbxPost_enters (hopen : OpenFor s.mbx.m[n] (BitVec.ofNat 3 (classOf who))) (hin : noInbound n = false)
    (hroom : s.mbx.m[n].inQ.length < 16) : ∃ t, Claims.Runs (.mbxPost who n w) s t ∧
      Claims.Only [.mbx, .twi, .power] s t ∧ (feOf t who).done = true ∧
      t.mbx.m[n] = chanEntered n (hostStamp s who n) w s := by
  refine ⟨_, mbxPost_runs who n w s hserve, only_trans (only_mono (postWord_only n (hostStamp s who n) w s) (by simp))
    (only_mono (feDone_only who _ _ _) (by simp)), ?_,
    (feDone_channel who _ _ n _).trans (postWord_enters n _ w s hopen hin hroom)⟩
  rw [feOf_feDone]

theorem mbxPost_clashes (h : ¬ OpenFor s.mbx.m[n] (BitVec.ofNat 3 (classOf who))) :
    ∃ t, Claims.Runs (.mbxPost who n w) s t ∧ Claims.Only [.mbx, .twi] s t ∧
      t.mbx.m[n] = { s.mbx.m[n] with conflict := true } := by
  refine ⟨_, mbxPost_runs who n w s hserve, ?_, (feDone_channel who _ _ n _).trans ?_⟩ <;>
    rw [postWord_clash n (hostStamp s who n) w s h]
  · exact feDone_only_mbx who _ _ (modM_only n _ s)
  · exact modM_channel n _ s

theorem mbxPost_overruns (hopen : OpenFor s.mbx.m[n] (BitVec.ofNat 3 (classOf who)))
    (h : noInbound n = true ∨ 16 ≤ s.mbx.m[n].inQ.length) : ∃ t, Claims.Runs (.mbxPost who n w) s t ∧
      Claims.Only [.mbx, .twi] s t ∧ t.mbx.m[n] = { s.mbx.m[n] with overrun := true } := by
  refine ⟨_, mbxPost_runs who n w s hserve, ?_, (feDone_channel who _ _ n _).trans ?_⟩ <;>
    rw [postWord_overruns n (hostStamp s who n) w s hopen h]
  · exact feDone_only_mbx who _ _ (modM_only n _ s)
  · exact modM_channel n _ s

end

/-! ### INT_N -/

/-- A vector differs from zero exactly where some bit of it is set. -/
theorem intLow_iff (s : State) : intLow s = true ↔
    ∃ k : Fin 32, s.mbx.dbHost.getLsbD k.val = true ∧ s.mbx.dbMask.getLsbD k.val = false := by
  rw [intLow, bne_iff_ne, ne_eq, BitVec.eq_of_getLsbD_eq_iff]
  simp only [BitVec.getLsbD_and, BitVec.getLsbD_not, not_forall, BitVec.ofNat_eq_ofNat, BitVec.getLsbD_zero, Bool.not_eq_false, Bool.and_eq_true]
  constructor
  · rintro ⟨i, hi, hhost, -, hmask⟩
    exact ⟨⟨i, hi⟩, hhost, by simpa using hmask⟩
  · rintro ⟨k, hhost, hmask⟩
    exact ⟨k, k.isLt, hhost, by simp, by simpa using hmask⟩

end Sys2Proof.Machine

open Sys2Proof Sys2Proof.Machine

/-- Settles O13: word 0 opens its message, a word of another class clashes, and the last word closes it. -/
theorem sharedChannel : Obligations.SharedChannel := by
  intro who n w s hserve c
  refine ⟨fun hnone hin hroom => ?_, fun k left hpart hne => ?_, fun left hpart hin hroom => ?_⟩
  · obtain ⟨t, hrun, -, -, ht⟩ := mbxPost_enters who n w s hserve (.inl hnone) hin hroom
    refine ⟨t, hrun, ?_⟩
    have hleft : wordsLeft s.mbx.m[n] w = fld w 7 0 + 1 := by simp only [wordsLeft, show s.mbx.m[n].inPart = none from hnone]
    rw [ht, chanEntered, hleft]
    exact ⟨by rw [if_neg (Nat.succ_ne_zero _)]; rfl, rfl⟩
  · have hclash : ¬ OpenFor s.mbx.m[n] (BitVec.ofNat 3 (classOf who)) := by
      rintro (hnone | ⟨j, hj⟩)
      · exact nomatch hpart.symm.trans hnone
      · exact hne (congrArg (Prod.fst) (Option.some.inj (hpart.symm.trans hj)))
    obtain ⟨t, hrun, -, ht⟩ := mbxPost_clashes who n w s hserve hclash
    exact ⟨t, hrun, ht⟩
  · obtain ⟨t, hrun, -, -, ht⟩ := mbxPost_enters who n w s hserve (.inr ⟨_, hpart⟩) hin hroom
    have hleft : wordsLeft s.mbx.m[n] w = left := by
      simp only [wordsLeft, show s.mbx.m[n].inPart = _ from hpart, Nat.add_sub_cancel]
    have hstart : s.mbx.m[n].inPart.isNone = false := congrArg Option.isNone hpart
    rw [chanEntered, hleft] at ht
    exact ⟨t, _, hrun, congrArg MChan.inQ ht, rfl, hstart, congrArg MChan.inPart ht⟩

/-- Settles O14: a bit of the masked doorbells is set exactly when a doorbell rings whose mask bit is clear; MBX.DB_MASK is
written alone. -/
theorem interruptPin : Obligations.InterruptPin := by
  intro s who w
  refine ⟨intLow_iff s, fun hserve => ?_⟩
  obtain ⟨-, -, -, hmask, -⟩ := registerWrite_effect who 0x0181 w s
  obtain ⟨-, ht⟩ := hmask rfl
  refine ⟨_, congrArg Host.Outcome.next (registerWrite_awake who 0x0181 w s hserve ?_), ?_, ?_⟩
  · simp [sleepsAt]
  · rw [ht]
  · rw [ht]

/-- Settles O47: what a post, a take and a reset do to a channel is said once for the channel, and the port adds its own
result. -/
theorem mailboxAccessesComplete : Obligations.MailboxAccessesComplete := by
  intro who n w s hserve c mine
  refine ⟨fun hopen hin hroom => ?_, fun hopen hfull => mbxPost_overruns who n w s hserve hopen hfull,
    fun hclash => mbxPost_clashes who n w s hserve hclash, fun q rest hq hwait => ?_, fun hempty => ?_, ?_⟩
  · obtain ⟨t, hrun, honly, hdone, ht⟩ := mbxPost_enters who n w s hserve hopen hin hroom
    exact ⟨t, _, hrun, honly, congrArg MChan.inQ ht, rfl, rfl, hostStamp_cls s who n, rfl, (congrArg MChan.outQ ht :), hdone⟩
  · obtain ⟨hword, hchan⟩ := takeWord_takes who n s q rest hq hwait
    obtain ⟨hout, hin, -, -, hstamp⟩ := takenFrom_queues who n q rest s
    have ht := (feDone_channel who (BitVec.ofNat 16 (0x0108 + n.val)) (takeWord who n s).1 n _).trans hchan
    refine ⟨_, mbxTake_runs who n s hserve, feDone_only_mbx who _ _ (takeWord_only who n s), ?_,
      (congrArg MChan.outQ ht).trans hout, (congrArg MChan.inQ ht).trans hin, (congrArg (regStamp · who) ht).trans hstamp⟩
    rw [feOf_feDone, hword]
  · have hrun := mbxTake_runs who n s hserve
    rw [takeWord_empty who n s hempty] at hrun
    refine ⟨_, hrun, feDone_only_mbx who _ _ (modM_only n _ s), ?_, (feDone_channel who _ _ n _).trans (modM_channel n _ s)⟩
    rw [feOf_feDone]
  · obtain ⟨hplain, hreset⟩ := ctrlWrite_channel who n w s
    have hchan := feDone_channel who (BitVec.ofNat 16 (0x0118 + n.val)) 0 n (ctrlWrite who n w s)
    have hcnt : (feDone who (BitVec.ofNat 16 (0x0118 + n.val)) 0 (ctrlWrite who n w s)).mbx.cntPartial =
        (ctrlWrite who n w s).mbx.cntPartial := congrArg Mbx.cntPartial (feDone_mbx ..)
    refine ⟨_, mbxCtrlReset_runs who n w s hserve, feDone_only_mbx who _ _ (ctrlWrite_only who n w s), ?_⟩
    rw [hcnt, hchan]
    cases hbit : bit w 31
    · rw [hplain hbit]
      refine ⟨rfl, rfl, rfl, rfl, fun _ => ⟨rfl, rfl, ?_⟩, fun h => nomatch h⟩
      cases who <;> rfl
    · obtain ⟨ht, hpartial⟩ := hreset hbit
      obtain ⟨hout, hgen, hin, hpart, hunder, hover, hconflict, hdrop⟩ := restarted_fields who (ctrlClear w s.mbx.m[n])
      rw [ht, hpartial]
      have hopen : openOf who (ctrlClear w s.mbx.m[n]) = openOf who s.mbx.m[n] := rfl
      refine ⟨hunder, hover, hconflict, hdrop, (fun h => nomatch h), fun _ => ⟨hout, hgen.trans ?_, fun hmine => ?_, fun hother => ?_⟩⟩
      · cases who <;> rfl
      · have h := (openOf_iff who s.mbx.m[n]).mpr hmine
        rw [hin, hpart, hopen, h]
        exact ⟨rfl, rfl, rfl⟩
      · have h : openOf who s.mbx.m[n] = false := Bool.eq_false_iff.mpr fun h => hother ((openOf_iff who _).mp h)
        rw [hin, hpart, hopen, h]
        exact ⟨rfl, rfl, by simp⟩
end


section
/-! PROOF. The test access port: the instructions that hold the part in reset, and TEST_MBX on M7. -/

namespace Sys2Proof.Machine

/-! ### Instructions -/

/-- A driving instruction, or HIGHZ, resets and holds the part, and its DRV_EN balls follow the instruction. -/
theorem testHold_holds (ir : TapIr) (s : State) :
    (testHold ir s).test.ir = ir ∧ (testHold ir s).test.held = true ∧ (testHold ir s).sys.inReset = true ∧
      (testHold ir s).sys.supRuns = false ∧
      ∀ p : LPort, drvPin (testHold ir s) p = (if ir.drives then some (s.test.drvCells.getLsbD p.val) else none) :=
  ⟨rfl, rfl, rfl, rfl, fun _ => rfl⟩

/-! ### TEST_MBX -/

/-- M7 as an operation of TEST_MBX finds it: its two flags are clear, to tell what the operation sets. -/
def flagsDown (s : State) : State := modM testChan (fun c => { c with underrun := false, overrun := false }) s

theorem flagsDown_channel (s : State) :
    (flagsDown s).mbx.m[testChan] = { s.mbx.m[testChan] with underrun := false, overrun := false } :=
  modM_channel _ _ s

/-- What an operation of TEST_MBX that left its result `r` reports. -/
def testResult (old : MChan) (r : Option Word × State) : State :=
  modTest (fun t => { t with ir := .testMbx, drWord := r.1,
                             drStat := if r.2.mbx.m[testChan].underrun || r.2.mbx.m[testChan].overrun then 1 else 0 })
    (modM testChan (fun c => { c with underrun := c.underrun || old.underrun, overrun := c.overrun || old.overrun }) r.2)

theorem testMbx_inReset (op : State → Option Word × State) (s : State) (h : s.sys.inReset = true) :
    testMbx op s = modTest (fun t => { t with ir := .testMbx, drWord := none, drStat := 2 }) s := if_pos h

theorem testMbx_running (op : State → Option Word × State) (s : State) (h : s.sys.inReset = false) :
    testMbx op s = testResult s.mbx.m[testChan] (op (flagsDown s)) := if_neg (by simp [h])

theorem testResult_channel (old : MChan) (r : Option Word × State) :
    (testResult old r).mbx.m[testChan] = { r.2.mbx.m[testChan] with
      underrun := r.2.mbx.m[testChan].underrun || old.underrun, overrun := r.2.mbx.m[testChan].overrun || old.overrun } :=
  modM_channel testChan _ r.2

theorem modTest_only (f : TestAcc → TestAcc) (s : State) : Claims.Only [.test] s (modTest f s) := by
  intro x hx
  cases x <;> simp_all [Claims.Same]

theorem testResult_only {xs : List Claims.Part} (old : MChan) (r : Option Word × State) (s : State) (hmbx : .mbx ∈ xs)
    (htest : .test ∈ xs) (h : Claims.Only xs (flagsDown s) r.2) : Claims.Only xs s (testResult old r) := by
  have hdown : Claims.Only xs s (flagsDown s) := only_mono (modM_only testChan _ s) (by simpa using hmbx)
  have hflags := only_mono (ys := xs) (modM_only testChan
    (fun c => { c with underrun := c.underrun || old.underrun, overrun := c.overrun || old.overrun }) r.2) (by simpa using hmbx)
  exact only_trans hdown (only_trans h (only_trans hflags (only_mono (modTest_only _ _) (by simpa using htest))))

/-- An operation that sets neither flag reports 0. -/
theorem testResult_clean (old : MChan) (r : Option Word × State) (hunder : r.2.mbx.m[testChan].underrun = false)
    (hover : r.2.mbx.m[testChan].overrun = false) : (testResult old r).test.drStat = 0 := by
  simp only [testResult, modTest_test, hunder, hover]
  rfl

/-- An operation that sets UNDERRUN reports 1, and the flag stays. -/
theorem testResult_underrun (old : MChan) (r : Option Word × State) (h : r.2.mbx.m[testChan].underrun = true) :
    (testResult old r).test.drStat = 1 ∧ (testResult old r).mbx.m[testChan].underrun = true := by
  refine ⟨?_, (congrArg MChan.underrun (testResult_channel old r)).trans (by rw [h]; rfl)⟩
  simp only [testResult, modTest_test, h]
  rfl

end Sys2Proof.Machine

open Sys2Proof Sys2Proof.Machine

/-- Settles O55: the instructions that hold the part share one reset; TEST_MBX does on M7 what a port does, and reports
whether a flag was set. -/
theorem testAccessCompletes : Obligations.TestAccessCompletes := by
  intro s
  refine ⟨fun c ir hc => ?_, rfl, rfl, fun d cs => rfl, rfl, fun w c hc hreset => ?_, fun hrun => ?_⟩
  · simp only [List.mem_cons, Prod.mk.injEq, List.not_mem_nil, or_false] at hc
    rcases hc with ⟨rfl, rfl⟩ | ⟨rfl, rfl⟩ | ⟨rfl, rfl⟩ | ⟨rfl, rfl⟩ | ⟨rfl, rfl⟩ <;> exact ⟨_, rfl, testHold_holds _ s⟩
  · simp only [List.mem_cons, List.not_mem_nil, or_false] at hc
    rcases hc with rfl | rfl | rfl <;> exact congrArg Host.Outcome.next (testMbx_inReset _ s hreset)
  have hflags := flagsDown_channel s
  let m := s.mbx.m[testChan]
  refine ⟨fun w hroom hpart => ?_, fun q rest hq hwait => ?_, fun hempty => ?_, ?_⟩
  · let st := hostStamp (flagsDown s) .test testChan
    have hpost := postWord_enters testChan st w (flagsDown s) (.inl ((congrArg MChan.inPart hflags).trans hpart)) rfl
      ((congrArg (fun c : MChan => c.inQ.length) hflags).trans_lt hroom)
    have hstart : (flagsDown s).mbx.m[testChan].inPart.isNone = true :=
      congrArg Option.isNone ((congrArg MChan.inPart hflags).trans hpart)
    refine ⟨testResult m (none, postWord testChan st w (flagsDown s)), _, congrArg Host.Outcome.next (testMbx_running _ s hrun),
      testResult_only _ _ s (by simp) (by simp) (only_mono (postWord_only testChan _ w _) (by simp)),
      (congrArg MChan.inQ (testResult_channel _ _)).trans ((congrArg MChan.inQ hpost).trans
        (congrArg (· ++ [enteredWord testChan st w (flagsDown s)]) (congrArg MChan.inQ hflags :))), rfl, hstart, rfl,
      testResult_clean m _ ((congrArg MChan.underrun hpost).trans (congrArg MChan.underrun hflags))
        ((congrArg MChan.overrun hpost).trans (congrArg MChan.overrun hflags))⟩
  · obtain ⟨hword, htake⟩ := takeWord_takes .test testChan (flagsDown s) q rest ((congrArg MChan.outQ hflags).trans hq)
      ((congrArg MChan.outWait hflags).trans hwait)
    obtain ⟨hout, -, hunder, hover, -⟩ := takenFrom_queues .test testChan q rest (flagsDown s)
    rw [hflags] at hunder hover
    rw [← htake] at hout hunder hover
    exact ⟨testResult m (some (takeWord .test testChan (flagsDown s)).1, (takeWord .test testChan (flagsDown s)).2),
      congrArg Host.Outcome.next (testMbx_running _ s hrun),
      testResult_only _ _ s (by simp) (by simp) (only_mono (takeWord_only .test testChan _) (by simp)),
      (congrArg MChan.outQ (testResult_channel _ _)).trans hout, congrArg some hword, testResult_clean m _ hunder hover⟩
  · have htake := takeWord_empty .test testChan (flagsDown s) ((congrArg MChan.outQ hflags).trans hempty)
    have hrun' := testMbx_running (fun s => (some (takeWord .test testChan s).1, (takeWord .test testChan s).2)) s hrun
    exact ⟨_, congrArg Host.Outcome.next hrun', testResult_underrun m _ (by
      rw [htake]; exact congrArg MChan.underrun (modM_channel testChan _ (flagsDown s)))⟩
  · obtain ⟨hchan, -⟩ := resetChan_channel .test testChan (flagsDown s)
    obtain ⟨hout, hgen, -, -, hunder, hover, -⟩ := restarted_fields .test (flagsDown s).mbx.m[testChan]
    rw [← hchan] at hout hgen hunder hover
    rw [hflags] at hgen hunder hover
    exact ⟨testResult m (none, resetChan .test testChan (flagsDown s)), congrArg Host.Outcome.next (testMbx_running _ s hrun),
      testResult_only _ _ s (by simp) (by simp) (only_mono (resetChan_only .test testChan _) (by simp)),
      (congrArg MChan.outQ (testResult_channel _ _)).trans hout,
      (congrArg MChan.genTest (testResult_channel _ _)).trans hgen, testResult_clean m _ hunder hover⟩
end


section
/-! PROOF. LOUPE_SET and LOOPBACK_SET: the loopback of a port is untouched by what the port does after. -/

namespace Sys2Proof.Machine

/-- What both branches of a choice keep. -/
theorem ite_kept {α β : Type} {c : Prop} [Decidable c] (g : α → β) {x y : α} {v : β} (hx : g x = v) (hy : g y = v) :
    g (if c then x else y) = v := by
  split
  · exact hx
  · exact hy

/-! ### The LINE_DIGITAL loopbacks outlast the states of the ports -/

@[simp] theorem setRxFail_loopDigital (k : HLane) (on : Bool) (s : State) :
    (setRxFail k on s).map.loopDigital = s.map.loopDigital := by
  simp [setRxFail, modClients]

@[simp] theorem failClients_loopDigital (p : LPort) (s : State) :
    (failClients p s).map.loopDigital = s.map.loopDigital :=
  eachOf_keeps (·.map.loopDigital) _ _ s fun _ _ => setRxFail_loopDigital ..

@[simp] theorem setPort_loopDigital (p : LPort) (st : PortState) (s : State) :
    (setPort p st s).map.loopDigital = s.map.loopDigital := by
  unfold setPort
  dsimp only
  split <;> simp

@[simp] theorem enterAcquire_loopDigital (p : LPort) (s : State) :
    (enterAcquire p s).map.loopDigital = s.map.loopDigital := by
  simp [enterAcquire]

@[simp] theorem enterMuted_loopDigital (p : LPort) (s : State) :
    (enterMuted p s).map.loopDigital = s.map.loopDigital := by
  unfold enterMuted
  dsimp only
  split <;> simp

@[simp] theorem enterHoldover_loopDigital (primed : Bool) (p : LPort) (s : State) :
    (enterHoldover primed p s).map.loopDigital = s.map.loopDigital := by
  simp [enterHoldover]

@[simp] theorem trainFail_loopDigital (p : LPort) (reason : Nat) (abort counts : Bool) (s : State) :
    (trainFail p reason abort counts s).map.loopDigital = s.map.loopDigital := by
  unfold trainFail
  exact ite_kept (fun s : State => s.map.loopDigital) (by simp) (ite_kept (fun s : State => s.map.loopDigital) (by simp) (by simp))

@[simp] theorem lockLoss_loopDigital (p : LPort) (s : State) :
    (lockLoss p s).map.loopDigital = s.map.loopDigital := by
  unfold lockLoss
  split
  · dsimp only
    split <;> simp
  · rfl

/-! ### The flags -/

theorem portBit_getLsbD (v : BitVec 4) (p q : LPort) (on : Bool) :
    (portBit v p on).getLsbD q.val = if q = p then on else v.getLsbD q.val := by
  have hbit : (BitVec.ofNat 4 (2 ^ p.val)).getLsbD q.val = decide (q = p) := by
    rw [BitVec.getLsbD_ofNat, decide_eq_true q.isLt, Nat.testBit_two_pow, Bool.true_and]
    exact decide_eq_decide.mpr ⟨fun h => Fin.ext h.symm, fun h => congrArg Fin.val h.symm⟩
  have hq : decide (q.val < 4) = true := decide_eq_true q.isLt
  unfold portBit
  cases on
  · simp only [Bool.false_eq_true, if_false, BitVec.getLsbD_and, BitVec.getLsbD_not, hbit, hq]
    by_cases h : q = p <;> simp [h]
  · simp only [if_true, BitVec.getLsbD_or, hbit]
    by_cases h : q = p <;> simp [h]

/-- LINE_DIGITAL is set or cleared on its port (R514). -/
theorem setLoop_digital (on : Bool) (p : LPort) (l : List HLane) (s : State) :
    (setLoop 1 on p l s).map.loopDigital = portBit s.map.loopDigital p on ∧ (setLoop 1 on p l s).lanes = s.lanes := by
  simp only [setLoop]
  constructor <;> (repeat' split) <;> simp

/-- LINE_PAYLOAD is set or cleared on its port (R514). -/
theorem setLoop_payload (on : Bool) (p : LPort) (l : List HLane) (s : State) :
    setLoop 2 on p l s = modMap (fun m => { m with loopPayload := portBit m.loopPayload p on }) s := rfl

/-- A change of every lane of a mask, in one of its fields. -/
theorem lanes_set {β : Type} (g : Lane → β) (f : Lane → Lane) (v : β) (hf : ∀ x, g (f x) = v) (mask : Word) (k : HLane)
    (s : State) : g (eachOf (lanesIn mask) (fun k => modLane k f) s).lanes[k] =
      if bit mask k.val = true then v else g s.lanes[k] := by
  split
  next h =>
    exact eachOf_turn (Q := fun _ => True) (P := fun t => g t.lanes[k] = v) ((mem_lanesIn mask k).mpr h) (lanesIn_nodup mask)
      (fun _ _ _ _ => trivial) (fun s _ => by rw [modLane_same, hf])
      (fun j hj s hs => by rw [modLane_other f s hj, hs]) trivial
  next h => rw [lanesIn_outside (fun j hj s => modLane_other f s hj) (Bool.eq_false_iff.mpr h)]

/-- A change of lanes keeps the fields that it keeps of one lane. -/
theorem lanes_keep {β : Type} (g : Lane → β) (f : Lane → Lane) (hf : ∀ x, g (f x) = g x) (l : List HLane) (k : HLane)
    (s : State) : g (eachOf l (fun k => modLane k f) s).lanes[k] = g s.lanes[k] := by
  refine eachOf_keeps (fun t : State => g t.lanes[k]) l _ s fun j t => ?_
  by_cases h : j = k
  · subst h
    rw [modLane_same, hf]
  · rw [modLane_other f t h]

/-! ### The commands -/

theorem loupeSet_runs (rq : Req) (s : State) (ha : bit (par rq 0) 31 = true → pf rq 0 30 25 ≤ 44)
    (hb : bit (par rq 0) 24 = true → pf rq 0 23 18 ≤ 44) (hc : bit (par rq 0) 17 = true → pf rq 0 16 9 ≤ 65)
    (hd : bit (par rq 0) 8 = true → pf rq 0 7 0 ≤ 65) :
    loupeSet rq s = reply 0xF001 rq (okay []) (modTest (fun t => { t with loupe := par rq 0 }) s) := by
  have hfits : ∀ en hi lo most, (bit (par rq 0) en = true → fld (par rq 0) hi lo ≤ most) →
      (bit (par rq 0) en && decide (most < fld (par rq 0) hi lo)) = false := fun en hi lo most h => by
    cases hbit : bit (par rq 0) en
    · rfl
    · exact decide_eq_false (Nat.not_lt.mpr (h hbit))
  unfold loupeSet
  refine command_runs_free 0xF001 rq _ _ _ s rfl (firstFail_badAt_one _ 0 ?_) rfl
  dsimp only
  rw [hfits 31 30 25 44 ha, hfits 24 23 18 44 hb, hfits 17 16 9 65 hc, hfits 8 7 0 65 hd]
  rfl

theorem loopbackSet_runs (rq : Req) (s : State) (p : LPort) (hp : p.val = pf rq 0 27 26) (hlow : 1 ≤ pf rq 0 31 29)
    (hhigh : pf rq 0 31 29 ≤ 4) (hzero : pf rq 0 25 0 = 0) (hmask : pf rq 0 31 29 < 3 → par rq 1 = 0)
    (hstate : bit (par rq 0) 28 = true → firstFail (loopbackStates (pf rq 0 31 29) p (lanesIn (par rq 1)) s) = none) :
    loopbackSet rq s = reply 0xF002 rq (okay [])
      (refresh (setLoop (pf rq 0 31 29) (bit (par rq 0) 28) p (lanesIn (par rq 1)) s)) := by
  have hport : (Fin.ofNat 4 (pf rq 0 27 26) : LPort) = p := by rw [← hp]; exact Fin.ext (Nat.mod_eq_of_lt p.isLt)
  have hword0 : (pf rq 0 31 29 == 0 || decide (4 < pf rq 0 31 29) || pf rq 0 25 0 != 0) = false := by
    simp only [hzero, Bool.or_eq_false_iff, beq_eq_false_iff_ne, decide_eq_false_iff_not]
    exact ⟨⟨by omega, by omega⟩, rfl⟩
  have hword1 : (decide (pf rq 0 31 29 < 3) && par rq 1 != 0) = false := by
    by_cases h : pf rq 0 31 29 < 3
    · simp [hmask h]
    · simp [h]
  unfold loopbackSet
  dsimp only
  rw [hport]
  refine command_runs_free 0xF002 rq _ _ _ s rfl ((firstFail_badAt _ [] ?_).trans rfl) ?_
  · simp only [List.any, hword0, hword1, Bool.or_false]
  · cases hon : bit (par rq 0) 28
    · rfl
    · exact hstate hon

/-- The flags of a loopback after it has been set or cleared, whichever of the four it is. -/
theorem setLoop_flags (kind : Nat) (on : Bool) (p : LPort) (mask : Word) (s : State) (hlow : 1 ≤ kind) (hhigh : kind ≤ 4) :
    let u := setLoop kind on p (lanesIn mask) s
    (∀ q : LPort, u.map.loopDigital.getLsbD q.val = if kind = 1 ∧ q = p then on else s.map.loopDigital.getLsbD q.val) ∧
    (∀ q : LPort, kind ≠ 1 → u.map.loopPayload.getLsbD q.val =
      if kind = 2 ∧ q = p then on else s.map.loopPayload.getLsbD q.val) ∧
    ∀ k : HLane, u.lanes[k].near = (if kind = 3 ∧ bit mask k.val = true then on else s.lanes[k].near) ∧
      u.lanes[k].far = (if kind = 4 ∧ bit mask k.val = true then on else s.lanes[k].far) := by
  have hmap : ∀ f : Lane → Lane, (eachOf (lanesIn mask) (fun k => modLane k f) s).map = s.map :=
    fun f => eachOf_keeps State.map _ _ s fun _ _ => rfl
  obtain rfl | rfl | rfl | rfl : kind = 1 ∨ kind = 2 ∨ kind = 3 ∨ kind = 4 := by omega
  · obtain ⟨hdigital, hlanes⟩ := setLoop_digital on p (lanesIn mask) s
    dsimp only
    rw [hdigital, hlanes]
    exact ⟨fun q => by rw [portBit_getLsbD]; simp, fun q h => absurd rfl h, fun k => ⟨by simp, by simp⟩⟩
  · dsimp only
    rw [setLoop_payload]
    exact ⟨fun q => by simp, fun q _ => (portBit_getLsbD ..).trans (by simp), fun k => ⟨by simp, by simp⟩⟩
  · have hnear := lanes_set Lane.near (fun x => { x with near := on }) on (fun _ => rfl) mask
    have hfar := lanes_keep Lane.far (fun x => { x with near := on }) (fun _ => rfl) (lanesIn mask)
    refine ⟨fun q => ?_, fun q _ => ?_, fun k => ⟨?_, ?_⟩⟩
    · exact (congrArg (fun m : MapSt => m.loopDigital.getLsbD q.val) (hmap _)).trans (by simp)
    · exact (congrArg (fun m : MapSt => m.loopPayload.getLsbD q.val) (hmap _)).trans (by simp)
    · exact (hnear k s).trans (by simp)
    · exact (hfar k s).trans (by simp)
  · have hnear := lanes_keep Lane.near (fun x => { x with far := on }) (fun _ => rfl) (lanesIn mask)
    have hfar := lanes_set Lane.far (fun x => { x with far := on }) on (fun _ => rfl) mask
    refine ⟨fun q => ?_, fun q _ => ?_, fun k => ⟨?_, ?_⟩⟩
    · exact (congrArg (fun m : MapSt => m.loopDigital.getLsbD q.val) (hmap _)).trans (by simp)
    · exact (congrArg (fun m : MapSt => m.loopPayload.getLsbD q.val) (hmap _)).trans (by simp)
    · exact (hnear k s).trans (by simp)
    · exact (hfar k s).trans (by simp)

end Sys2Proof.Machine

open Sys2Proof Sys2Proof.Machine

/-- Settles O56: both commands run once their operands are in range; what follows a loopback's change leaves its flag. -/
theorem testCommandsComplete : Obligations.TestCommandsComplete := by
  intro rq s
  refine ⟨fun ha hb hc hd => congrArg Host.Outcome.next (loupeSet_runs rq s ha hb hc hd),
    fun kind on p hkind hon hp hlow hhigh hzero hmask hstate => ?_⟩
  subst hkind hon
  refine ⟨_, congrArg Host.Outcome.next (loopbackSet_runs rq s p hp hlow hhigh hzero hmask hstate), ?_⟩
  have hflags := setLoop_flags _ (bit (par rq 0) 28) p (par rq 1) s hlow hhigh
  have hmap : ∀ t : State, (refresh t).map = t.map := fun t => by simp
  have hlanes : ∀ t : State, (refresh t).lanes = t.lanes := fun t => by simp
  rw [hmap, hlanes]
  exact hflags
end


section
/-! PROOF. The fault and alarm commands: the units of the handler's table, the masks of R470, and the release of a
unit that was held failed. -/

namespace Sys2Proof.Machine

/-! ### Units -/

theorem unitSt_congr {s t : State} (u : FUnit) (h : t.faults = s.faults) : unitSt t u = unitSt s u := by
  rw [unitSt, h]
  rfl

theorem unitSt_modUnit (u : FUnit) (f : UnitSt → UnitSt) (s : State) : unitSt (modUnit u f s) u = f (unitSt s u) :=
  vmod_same _ _ _

theorem unitHeld_modUnit (u : FUnit) (f : UnitSt → UnitSt) (s : State) : unitHeld (modUnit u f s) u = (f (unitSt s u)).held :=
  congrArg UnitSt.held (unitSt_modUnit u f s)

/-- A recovery that starts is the unit's own, and nothing of the table differs but its entry. -/
theorem startRecovery_faults (u : FUnit) (level : Nat) (seq : Option (BitVec 16)) (s : State) :
    (startRecovery u level seq s).faults =
      (modUnit u (fun x => { x with recovering := 1, level := level, lastSeq := seq }) s).faults := by
  simp [startRecovery]

theorem startRecovery_unit (u : FUnit) (level : Nat) (seq : Option (BitVec 16)) (s : State) :
    unitSt (startRecovery u level seq s) u = { unitSt s u with recovering := 1, level := level, lastSeq := seq } :=
  (unitSt_congr u (startRecovery_faults u level seq s)).trans (unitSt_modUnit u _ s)

/-! ### Masks of domain codes -/

theorem bit_wd_two_pow (e d : Nat) (h : d < 32) : bit (wd (2 ^ e)) d = decide (e = d) := by
  rw [bit_eq_getLsbD, wd, BitVec.getLsbD_ofNat, decide_eq_true h, Bool.true_and, Nat.testBit_two_pow]

theorem bit_codeMask_from (l : List Nat) (d : Nat) (h : d < 32) (a : Word) :
    bit (l.foldl (fun a d => a ||| wd (2 ^ d)) a) d = (bit a d || decide (d ∈ l)) := by
  induction l generalizing a with
  | nil => simp
  | cons e l ih =>
    rw [List.foldl_cons, ih, bit_or, bit_wd_two_pow e d h, Bool.or_assoc]
    simp [eq_comm]

theorem bit_codeMask (l : List Nat) (d : Nat) (h : d < 32) : bit (codeMask l) d = true ↔ d ∈ l := by
  have hzero : bit 0 d = false := by simp [bit]
  rw [codeMask, bit_codeMask_from l d h, hzero, Bool.false_or, decide_eq_true_iff]

/-! ### Reports -/

theorem faultLogRead_reports (rq : Req) (s : State) (hzero : pf rq 0 31 24 = 0) (hsome : 0 < pf rq 1 15 0)
    (hmost : pf rq 1 15 0 ≤ 256) (hbulk : pf rq 0 23 0 + 6 * pf rq 1 15 0 ≤ bulkWords) :
    Claims.Reports (.faultLogRead rq) .device 0xA001 rq (faultLogAnswer rq s) s := by
  have hcount : (pf rq 1 15 0 == 0 || decide (256 < pf rq 1 15 0)) = false := by
    simp only [Bool.or_eq_false_iff, beq_eq_false_iff_ne, decide_eq_false_iff_not]
    omega
  refine reports_of_report _ _ _ _ _ (faultLogAnswer rq) s rfl (firstFail_badAt _ [] ?_) (fun d hd => nomatch hd)
  simp [hzero, bulkBad_eq_false _ _ hbulk, hcount]

theorem alarmStatus_reports (rq : Req) (s : State) (hzero : pf rq 0 14 0 = 0)
    (hnamed : (pf rq 0 31 24 == 0xFF && pf rq 0 23 16 == 0) = true ∨ (alarmKeyOf rq).isNone = false) :
    Claims.Reports (.alarmStatus rq) (alarmAt rq) 0xA003 rq (alarmStatusAnswer rq s) s := by
  refine reports_of_report _ _ _ _ _ (alarmStatusAnswer rq) s rfl (firstFail_badAt_one _ 0 ?_) (fun d hd => nomatch hd)
  rcases hnamed with h | h <;> simp [hzero, h]

theorem alarmStatusAnswer_key (rq : Req) (s : State) (key : AlarmKey) (h : alarmKeyOf rq = some key) :
    alarmStatusAnswer rq s = reply 0xA003 rq (okay [(getAlarm s key).active, (getAlarm s key).latched, (getAlarm s key).mask])
      (if bit (par rq 0) 15 then modAlarm key (fun a => { a with latched := 0 }) s else s) := by
  rw [alarmStatusAnswer, h]
  rfl

theorem alarmStatusAnswer_all (rq : Req) (s : State) (h : alarmKeyOf rq = none) :
    alarmStatusAnswer rq s = reply 0xA003 rq (okay (alarmSummary s)) s := by
  rw [alarmStatusAnswer, h]

/-- No alarm block has domain code 255. -/
theorem alarmOf_all (i : Nat) : alarmOf 255 i = none := by simp [alarmOf]

theorem alarmMaskSet_runs (rq : Req) (s : State) (key : AlarmKey) (hkey : alarmKeyOf rq = some key)
    (hzero : pf rq 0 15 0 = 0) (hbits : par rq 1 &&& ~~~(alarmBits key) = 0) :
    alarmMaskSet rq s = reply 0xA002 rq (okay []) (modAlarm key (fun a => { a with mask := par rq 1 }) s) := by
  unfold alarmMaskSet
  rw [hkey]
  exact command_runs_free 0xA002 rq _ _ _ s rfl (firstFail_badAt _ [] (by simp [hzero, hbits])) rfl

/-! ### FAULT_CLEAR -/

/-- The log, before the unit of an entry is released. -/
def outcomeReleased (u : FUnit) (s : State) : State :=
  match s.faults.log.find? (·.unit == u) with
  | some e => setOutcome e.seq 4 s
  | none => s

/-- A unit that was held failed, released but not yet recovered. -/
def unheld (u : FUnit) (s : State) : State := modUnit u (fun x => { x with held := false, level := 0 }) (outcomeReleased u s)

theorem releaseUnit_unit (u : FUnit) (s : State) (h : u ≠ .aon) :
    releaseUnit u s = heldChanged (startRecovery u 1 none (unheld u s)) := if_neg (by simpa using h)

theorem releaseUnit_aon (s : State) : releaseUnit .aon s =
    let t := finishAction .aon 1 (unheld .aon s)
    if t.sys.dev == .fault then refresh (moveDev (if t.sys.configId != 0 then .ready else .hold) 7 t) else t := rfl

theorem outcomeReleased_sys (u : FUnit) (s : State) : (outcomeReleased u s).sys = s.sys := by
  unfold outcomeReleased
  split <;> simp

theorem unheld_held (u : FUnit) (s : State) : unitHeld (unheld u s) u = false := unitHeld_modUnit u _ _

/-- A unit other than AON starts over at level 1. -/
theorem releaseUnit_starts (u : FUnit) (s : State) (h : u ≠ .aon) : unitHeld (releaseUnit u s) u = false ∧
    (unitSt (releaseUnit u s) u).recovering = 1 ∧ (unitSt (releaseUnit u s) u).level = 1 := by
  have hunit : unitSt (releaseUnit u s) u = { unitSt (unheld u s) u with recovering := 1, level := 1, lastSeq := none } := by
    rw [releaseUnit_unit u s h]
    exact (unitSt_congr u (by simp)).trans (startRecovery_unit u 1 none _)
  rw [unitHeld, hunit]
  exact ⟨unheld_held u s, rfl, rfl⟩

/-- AON brings the device back from FAULT. -/
theorem releaseUnit_restores (s : State) : unitHeld (releaseUnit .aon s) .aon = false ∧
    (s.sys.dev = .fault → (releaseUnit .aon s).sys.dev = if s.sys.configId = 0 then .hold else .ready) := by
  have hsys : (finishAction .aon 1 (unheld .aon s)).sys = s.sys := by
    have hmutes : ∀ t : State, (finishAction .aon 1 t).sys = t.sys := fun t =>
      ((refresh_keeps _).1).trans (eachOf_keeps State.sys allPorts faultMutes t fun _ _ => rfl)
    exact (hmutes _).trans (outcomeReleased_sys .aon s)
  rw [releaseUnit_aon]
  dsimp only
  rw [hsys]
  split
  next h =>
    refine ⟨(unitHeld_congr .aon (by simp)).trans (unheld_held .aon s), fun _ => ?_⟩
    rw [(refresh_keeps _).1, moveDev_sys]
    by_cases hid : s.sys.configId = 0 <;> simp [hid]
  next h => exact ⟨(unitHeld_congr .aon (by simp)).trans (unheld_held .aon s), fun hdev => absurd hdev (by simpa using h)⟩

theorem unitOf_all (i : Nat) : unitOf 255 i = none := by
  simp [unitOf, unitOrder, unitDom]

theorem faultClear_all (rq : Req) (s : State) (hall : pf rq 0 31 24 = 255) (hzero : pf rq 0 14 0 = 0) :
    faultClear rq s = reply 0xA004 rq (okay []) (doIf (bit (par rq 0) 15) emptyLog s) := by
  unfold faultClear
  dsimp only
  rw [hall, unitOf_all]
  exact command_runs_free 0xA004 rq _ _ _ s rfl (firstFail_badAt_one _ 0 (by simp [hzero])) rfl

theorem faultClear_unit (rq : Req) (s : State) (u : FUnit) (hunit : unitOf (pf rq 0 31 24) (pf rq 0 23 16) = some u)
    (hzero : pf rq 0 14 0 = 0) (hheld : unitHeld s u = true) (hcool : u = .aon → sensorsCool s = true) :
    faultClear rq s = reply 0xA004 rq (okay []) (doIf (bit (par rq 0) 15) emptyLog (releaseUnit u s)) := by
  have hstate : (!unitHeld s u || (u == .aon && !sensorsCool s)) = false := by
    rw [hheld, Bool.not_true, Bool.false_or]
    by_cases h : u = .aon
    · simp [hcool h]
    · simp [h]
  unfold faultClear
  dsimp only
  rw [hunit]
  exact command_runs_free 0xA004 rq _ _ _ s rfl (firstFail_badAt_one _ 0 (by simp [hzero])) (by simp [firstFail, hstate])

/-- Emptying the log leaves the units and the device state. -/
theorem emptyLog_leaves (on : Bool) (u : FUnit) (s : State) : unitSt (doIf on emptyLog s) u = unitSt s u ∧
    (doIf on emptyLog s).sys = s.sys ∧ (on = true → (doIf on emptyLog s).faults.log = []) := by
  cases on
  · exact ⟨rfl, rfl, fun h => nomatch h⟩
  · exact ⟨rfl, rfl, fun _ => rfl⟩

end Sys2Proof.Machine

open Sys2Proof Sys2Proof.Machine

/-- Settles O44: each command runs once its operands are in range. That ALARM_STATUS about a port is taken at
that port's boundary is the model's choice (notes/assumptions 157). -/
theorem faultCommandsComplete : Obligations.FaultCommandsComplete := by
  intro rq s
  refine ⟨fun hzero hsome hmost hbulk => faultLogRead_reports rq s hzero hsome hmost hbulk, fun key hkey => ⟨fun hzero hbits =>
    congrArg Host.Outcome.next (alarmMaskSet_runs rq s key hkey hzero hbits), fun hzero => ?_⟩, fun hall hindex hzero => ?_,
    fun hall hzero => congrArg Host.Outcome.next (faultClear_all rq s hall hzero), fun u hunit hzero hheld hcool => ?_⟩
  · have hreport := alarmStatus_reports rq s hzero (.inr (congrArg Option.isNone (show alarmKeyOf rq = some key from hkey)))
    rw [alarmStatusAnswer_key rq s key hkey] at hreport
    exact hreport
  · have hkey : alarmKeyOf rq = none := by rw [alarmKeyOf, hall, alarmOf_all]
    have hreport := alarmStatus_reports rq s hzero (.inl (by rw [hall, hindex]; rfl))
    have hat : alarmAt rq = .device := by rw [alarmAt, hkey]
    rw [alarmStatusAnswer_all rq s hkey, hat] at hreport
    refine ⟨alarmSummary s, rfl, fun d hd => ?_, hreport⟩
    simp only [alarmSummary, List.getD_cons_succ, List.getD_cons_zero, bit_codeMask _ d hd, List.mem_map, List.mem_filter,
      and_assoc]
  · obtain ⟨hsame, hsys, hempty⟩ := emptyLog_leaves (bit (par rq 0) 15) u (releaseUnit u s)
    refine ⟨_, congrArg Host.Outcome.next (faultClear_unit rq s u hunit hzero hheld hcool), ?_, hempty, fun hu => ?_,
      fun hu hdev => ?_⟩
    · rw [unitHeld, hsame]
      by_cases hu : u = .aon
      · subst hu
        exact (releaseUnit_restores s).1
      · exact (releaseUnit_starts u s hu).1
    · rw [hsame]
      exact (releaseUnit_starts u s hu).2
    · subst hu
      rw [hsys]
      exact (releaseUnit_restores s).2 hdev
end


section
/-! PROOF. Detection of faults: what a fault leaves in the handler's slots, and the safe actions of ports, of the
crossbar and of AON. -/

namespace Sys2Proof.Machine

/-! ### Muting by a fault -/

theorem refreshPort_elsewhere {p q : LPort} (s : State) (h : p ≠ q) : (refreshPort q s).ports[p] = s.ports[p] := by
  simp [refreshPort, h]

/-- A fault's mute is a mute source (R90). -/
theorem anyMute_of_fault (s : State) (p : LPort) (h : s.ports[p].front.faultMute = true) : anyMute s p = true := by
  simp only [anyMute, muteSrc, h, List.any_cons, Bool.true_or, Bool.or_true, id]

/-- What keeps a mute source of a port active while its outputs are brought in line. -/
theorem refreshPort_sources (p q : LPort) (s : State) :
    (refreshPort q s).ports[p].front.faultMute = s.ports[p].front.faultMute ∧
      (refreshPort q s).ports[p].front.faultDrv = s.ports[p].front.faultDrv := by
  by_cases h : p = q
  · subst h
    simp only [refreshPort, modFront_front]
    split_ifs <;> exact ⟨rfl, rfl⟩
  · rw [refreshPort_elsewhere s h]
    exact ⟨rfl, rfl⟩

/-- A port that a fault mutes is muted once its outputs are brought in line. -/
theorem refreshPort_faultMute (p : LPort) (s : State) (h : s.ports[p].front.faultMute = true) :
    (refreshPort p s).ports[p].front.muted = true := by
  have hmute : ∀ f : Front → Front, (f s.ports[p].front).faultMute = true → anyMute (modFront p f s) p = true :=
    fun f hf => anyMute_of_fault _ p (by rw [modFront_front, hf])
  simp only [refreshPort, modFront_front]
  rw [hmute _ (by split_ifs <;> exact h), Bool.or_true]

theorem refresh_faultMute (p : LPort) (s : State) (h : s.ports[p].front.faultMute = true) :
    (refresh s).ports[p].front.faultMute = true ∧ (refresh s).ports[p].front.muted = true :=
  eachPort_brings (Q := fun t => t.ports[p].front.faultMute = true)
    (P := fun t => t.ports[p].front.faultMute = true ∧ t.ports[p].front.muted = true) p
    (fun q t ht => (refreshPort_sources p q t).1.trans ht)
    (fun t ht => ⟨(refreshPort_sources p p t).1.trans ht, refreshPort_faultMute p t ht⟩)
    (fun q t ht => ⟨(refreshPort_sources p q t).1.trans ht.1, refreshPort_muted q p t ht.2⟩) h

/-- The port of a faulty converter unit, or of a faulty AON: its driver is off or about to be. -/
structure DriverFaulted (p : LPort) (s : State) : Prop where
  mute : s.ports[p].front.faultMute = true
  drv : s.ports[p].front.faultDrv = true

/-- The driver of a port is off, or its fall has begun. -/
def DriverFalls (p : LPort) (s : State) : Prop := s.ports[p].front.drvEn = true → s.ports[p].front.drvFalling = true

theorem refreshPort_faulted (p q : LPort) (s : State) (h : DriverFaulted p s) : DriverFaulted p (refreshPort q s) :=
  ⟨(refreshPort_sources p q s).1.trans h.mute, (refreshPort_sources p q s).2.trans h.drv⟩

theorem refreshPort_falls (p : LPort) (s : State) (h : DriverFaulted p s) : DriverFalls p (refreshPort p s) := by
  have hcond : drvCond s p = false := by simp only [drvCond, h.drv, Bool.not_true, Bool.and_false]
  intro hen
  cases hlow : s.ports[p].front.drvEn
  · simp only [refreshPort, hcond, modFront_front, hlow, Bool.false_eq_true, if_false] at hen
  · simp only [refreshPort, hcond, modFront_front, hlow, Bool.false_eq_true, if_false, if_true]

theorem refresh_falls (p : LPort) (s : State) (h : DriverFaulted p s) :
    DriverFaulted p (refresh s) ∧ DriverFalls p (refresh s) := by
  refine eachPort_turn (Q := DriverFaulted p) (P := fun t => DriverFaulted p t ∧ DriverFalls p t) p
    (fun q _ t ht => refreshPort_faulted p q t ht) (fun t ht => ⟨refreshPort_faulted p p t ht, refreshPort_falls p t ht⟩)
    (fun q hq t ht => ⟨refreshPort_faulted p q t ht.1, ?_⟩) h
  rw [DriverFalls, refreshPort_elsewhere t hq.symm]
  exact ht.2

theorem faultMutePort_elsewhere {p q : LPort} (drv : Bool) (s : State) (h : p ≠ q) :
    (faultMutePort q drv s).ports[p] = s.ports[p] := by
  simp [faultMutePort, h]

theorem eachPort_faulted (p : LPort) (s : State) : DriverFaulted p (eachPort (fun p => faultMutePort p true) s) := by
  refine eachPort_turn (Q := fun _ => True) (P := DriverFaulted p) p (fun _ _ _ _ => trivial) (fun t _ => ⟨?_, ?_⟩)
    (fun q hq t ht => ⟨?_, ?_⟩) trivial
  · exact congrArg Front.faultMute (modFront_front p _ t)
  · exact (congrArg Front.faultDrv (modFront_front p _ t)).trans (Bool.or_true _)
  · rw [faultMutePort_elsewhere true t hq.symm]
    exact ht.mute
  · rw [faultMutePort_elsewhere true t hq.symm]
    exact ht.drv

/-! ### The handler's slots -/

/-- The state of the unit when its fault goes to the handler: a fault that acts has taken its safe action, unless the unit is
held failed (R460, R463). -/
def madeSafe (u : FUnit) (code : BitVec 8) (s : State) : State :=
  if codeActs code && !unitHeld s u then safeAction u s else s

theorem madeSafe_faults (u : FUnit) (code : BitVec 8) (s : State) : (madeSafe u code s).faults = s.faults :=
  ite_kept State.faults (by simp) rfl

/-- A fault that finds the handler free. -/
theorem detect_free (u : FUnit) (code : BitVec 8) (index : BitVec 7) (detail : BitVec 16) (s : State)
    (hsup : (codeActs code && u == .core .sup) = false) (hfree : s.faults.primary = none) :
    detect u code index detail s = modFaults (fun f => { f with primary := some (faultRec s u code index detail) })
      (madeSafe u code s) := by
  have hfree' : (madeSafe u code s).faults.primary = none := by rw [madeSafe_faults, hfree]
  refine (if_neg (by simp [hsup])).trans ?_
  show (match (madeSafe u code s).faults.primary, (madeSafe u code s).faults.second with
    | none, _ => _
    | some _, none => _
    | some _, some _ => _) = _
  rw [hfree']
  rfl

/-- The faults of cores have no safe action, and SUPPLY starts none. -/
theorem madeSafe_stays (u : FUnit) (code : BitVec 8) (s : State) (h : (∃ c, u = .core c) ∨ codeActs code = false) :
    madeSafe u code s = s := by
  rcases h with ⟨c, rfl⟩ | h
  · exact ite_self s
  · exact if_neg (by simp [h])

/-! ### The events -/

theorem coreWatchdog_watched (c : Core) (s : State) (hwatch : supWatches s = true) (hheld : unitHeld s (.core c) = false) :
    coreWatchdog c s = detectCore c 4 s := if_pos (by simp [hwatch, hheld])

theorem coreCode_lt (c : Core) : coreCode c < 7 := by
  cases c with
  | pc n => simp only [coreCode]; omega
  | sup => decide
  | hc => decide
  | jg => decide

/-- The safe action of the crossbar stops it (R460). -/
theorem safeAction_map (s : State) : (safeAction .map s).map.stopped = true :=
  eachOf_holds (P := fun t : State => t.map.stopped = true)
    (fun c _ t ht => by simpa [setRxFail, modClients] using ht) (by simp)

/-- The safe action of the line logic of a port mutes it (R460). -/
theorem safeAction_ld (p : LPort) (s : State) : (safeAction (.ld p) s).ports[p].front.faultMute = true ∧
    (safeAction (.ld p) s).ports[p].front.muted = true :=
  refresh_faultMute p _ (congrArg Front.faultMute (modFront_front p _ s))

theorem flowStall_detects (u : FUnit) (i j : BitVec 7) (d : Dom) (s : State) (hindex : stallIndex u i = some j)
    (hdom : recDom u = some d) (hon : isOn s d = true) (hrec : (unitSt s u).recovering ≠ 1) (hrun : s.sys.inReset = false) :
    flowStall u i s = detect u 6 j 0 s := by
  unfold flowStall
  rw [hindex, hdom]
  exact if_pos (by simp [hon, hrec, hrun])

/-- A device out of BOOT with AON held failed goes to FAULT (R464). -/
theorem heldChanged_aon (s : State) (hheld : unitHeld s .aon = true) (hboot : s.sys.dev ≠ .boot) :
    heldChanged s = if s.sys.dev == .fault then s else refresh (moveDev .fault 0 s) :=
  (if_neg (by simpa using hboot)).trans (if_pos hheld)

theorem heldChanged_fault (s : State) (hheld : unitHeld s .aon = true) (hboot : s.sys.dev ≠ .boot) :
    (heldChanged s).sys.dev = .fault := by
  rw [heldChanged_aon s hheld hboot]
  split
  next h => simpa using h
  next => rw [(refresh_keeps _).1, moveDev_sys]

/-- Where AON is held failed the outputs do not return with the device state. -/
theorem heldChanged_falls (p : LPort) (s : State) (hheld : unitHeld s .aon = true)
    (h : DriverFaulted p s) (hmuted : s.ports[p].front.muted = true) (hfalls : DriverFalls p s) :
    (heldChanged s).ports[p].front.muted = true ∧ DriverFalls p (heldChanged s) := by
  have hports : (moveDev .fault 0 s).ports = s.ports := by simp
  have h' : DriverFaulted p (moveDev .fault 0 s) := ⟨by rw [hports]; exact h.mute, by rw [hports]; exact h.drv⟩
  by_cases hboot : s.sys.dev = .boot
  · have hstays : heldChanged s = s := if_pos (by simp [hboot])
    rw [hstays]
    exact ⟨hmuted, hfalls⟩
  · rw [heldChanged_aon s hheld hboot]
    split
    · exact ⟨hmuted, hfalls⟩
    · exact ⟨(refresh_faultMute p _ h'.mute).2, (refresh_falls p _ h').2⟩

/-- TEMP_CRIT out of reset. -/
theorem tempCrit_detects (x : BitVec 16) (s : State) (hrun : s.sys.inReset = false) :
    tempCrit x s = heldChanged (modUnit .aon (fun x => { x with held := true }) (detect .aon 8 0 x s)) :=
  if_neg (by simp [hrun])

/-- The drivers after the safe action of AON. -/
theorem safeAction_aon (p : LPort) (s : State) : DriverFaulted p (safeAction .aon s) ∧
    (safeAction .aon s).ports[p].front.muted = true ∧ DriverFalls p (safeAction .aon s) := by
  have h := eachPort_faulted p s
  obtain ⟨hfaulted, hfalls⟩ := refresh_falls p _ h
  exact ⟨hfaulted, (refresh_faultMute p _ h.mute).2, hfalls⟩

end Sys2Proof.Machine

open Sys2Proof Sys2Proof.Machine

/-- Settles O45: a fault that finds the handler free waits there with its record, after the safe action of its unit. -/
theorem detectionsComplete : Obligations.DetectionsComplete := by
  intro s
  refine ⟨fun hwatch hheld => ?_, fun c hc hwatch hheld hfree => ?_, fun u i j d hindex hdom hon hrec hrun hfree => ?_,
    fun x hrun hfree => ?_, fun x hon hrun hlow hhigh hfree => ?_⟩
  · exact ⟨_, _, congrArg Host.Outcome.next (coreWatchdog_watched .sup s hwatch hheld), rfl, rfl, rfl, rfl⟩
  · have hrun := coreWatchdog_watched c s hwatch hheld
    rw [detectCore, detect_free _ _ _ _ s (by simpa using fun _ => hc) hfree, madeSafe_stays _ _ s (.inl ⟨c, rfl⟩)] at hrun
    refine ⟨_, congrArg Host.Outcome.next hrun, rfl, rfl, ?_, rfl⟩
    exact Nat.mod_eq_of_lt ((coreCode_lt c).trans (by decide))
  · have hne : u ≠ .core .sup := fun h => by rw [h] at hdom; exact nomatch hdom
    have hfall := flowStall_detects u i j d s hindex hdom hon hrec hrun
    rw [detect_free u 6 j 0 s (by simpa using fun _ => hne) hfree] at hfall
    refine ⟨_, faultRec s u 6 j 0, congrArg Host.Outcome.next hfall, ?_, rfl, rfl, rfl, fun hmap hheld => ?_, fun p hp hheld => ?_⟩
    · exact congrArg (fun f : Faults => { f with primary := some (faultRec s u 6 j 0) }) (madeSafe_faults u 6 s)
    · subst hmap
      have hsafe : madeSafe .map 6 s = safeAction .map s := if_pos (by rw [hheld]; rfl)
      rw [hsafe]
      exact safeAction_map s
    · subst hp
      have hsafe : madeSafe (.ld p) 6 s = safeAction (.ld p) s := if_pos (by rw [hheld]; rfl)
      rw [hsafe]
      exact safeAction_ld p s
  · have hcrit := tempCrit_detects x s hrun
    rw [detect_free .aon 8 0 x s rfl hfree] at hcrit
    let u := modUnit .aon (fun x => { x with held := true })
      (modFaults (fun f => { f with primary := some (faultRec s .aon 8 0 x) }) (madeSafe .aon 8 s))
    have hheld : unitHeld u .aon = true := unitHeld_modUnit .aon _ _
    have hfaults : (heldChanged u).faults = u.faults := by simp
    have hsys : u.sys = s.sys := ite_kept State.sys (by simp) rfl
    refine ⟨heldChanged u, faultRec s .aon 8 0 x, congrArg Host.Outcome.next hcrit, ?_, rfl, rfl, rfl,
      (unitHeld_congr .aon hfaults).trans hheld, fun hboot => heldChanged_fault u hheld (by rwa [hsys]), fun hfirst p => ?_⟩
    · rw [hfaults]
      rfl
    · have hsafe : madeSafe .aon 8 s = safeAction .aon s := if_pos (by rw [hfirst]; rfl)
      have hports : u.ports = (safeAction .aon s).ports := (congrArg State.ports hsafe :)
      obtain ⟨hfaulted, hmuted, hfalls⟩ := safeAction_aon p s
      refine heldChanged_falls p u hheld ⟨?_, ?_⟩ ?_ ?_
      · rw [hports]; exact hfaulted.mute
      · rw [hports]; exact hfaulted.drv
      · rw [hports]; exact hmuted
      · rw [DriverFalls, hports]; exact hfalls
  · have hsupply : supply x s = detect .aon 9 0 x s := if_pos (by simp [hon, hrun, hlow, hhigh])
    rw [detect_free .aon 9 0 x s rfl hfree, madeSafe_stays _ _ s (.inr rfl)] at hsupply
    exact ⟨_, congrArg Host.Outcome.next hsupply, rfl, rfl, rfl⟩
end


section
/-! PROOF. The fault handler and the recoveries of units: the log, the three ways out of the handler, and the return of a
unit's domain. -/

namespace Sys2Proof.Machine

/-! ### The log -/

/-- An entry takes its OUTCOME in place: nothing of the handler's table differs but that entry. -/
theorem setOutcome_faults (seq : BitVec 16) (outcome : Nat) (s : State) :
    ∃ l, (setOutcome seq outcome s).faults = { s.faults with log := l } ∧ l.length = s.faults.log.length ∧
      ∀ e ∈ l, e.seq = seq → e.outcome = BitVec.ofNat 3 outcome := by
  have hpost : ∀ e t, (postFault e t).faults = t.faults := fun e t => by simp
  unfold setOutcome
  split
  next h =>
    exact ⟨_, rfl, rfl, fun e he hseq => absurd (List.find?_eq_none.mp h e he) (by simpa using hseq)⟩
  next e h =>
    refine ⟨_, hpost _ _, List.length_map _, fun x hx hseq => ?_⟩
    obtain ⟨y, -, rfl⟩ := List.mem_map.mp hx
    split at hseq
    · rw [if_pos ‹_›]
    next hne => exact absurd hseq (by simpa using hne)

theorem endEntry_faults (u : FUnit) (outcome : Nat) (s : State) :
    ∃ l, (endEntry u outcome s).faults = { s.faults with log := l } ∧ l.length = s.faults.log.length ∧
      ∀ q, (unitSt s u).lastSeq = some q → ∀ e ∈ l, e.seq = q → e.outcome = BitVec.ofNat 3 outcome := by
  unfold endEntry
  split
  next h => exact ⟨_, rfl, rfl, fun q hq => nomatch h.symm.trans hq⟩
  next q h =>
    obtain ⟨l, hfaults, hlength, hout⟩ := setOutcome_faults q outcome s
    exact ⟨l, hfaults, hlength, fun q' hq' e he hseq => hout e he (hseq.trans (Option.some.inj (hq'.symm.trans h)))⟩

theorem endEntry_only (u : FUnit) (outcome : Nat) (s : State) : Claims.Only [.faults, .mbx] s (endEntry u outcome s) :=
  only_of_kept (endEntry_keeps u outcome s)

theorem endEntry_none (u : FUnit) (outcome : Nat) (s : State) (h : (unitSt s u).lastSeq = none) :
    endEntry u outcome s = s := by
  rw [endEntry, h]

theorem modFaults_only (f : Faults → Faults) (s : State) : Claims.Only [.faults] s (modFaults f s) := by
  intro x hx
  cases x <;> simp_all [Claims.Same]

/-- The entry that `writeEntry` puts at the head of the log (R466). -/
def entryOf (r : FaultRec) (x : LogFate) (s : State) : LogEntry :=
  { seq := s.faults.nextSeq, unit := r.unit, code := r.code, level := BitVec.ofNat 2 x.level
    action := BitVec.ofNat 3 x.action, outcome := BitVec.ofNat 3 x.outcome, secondary := r.secondary
    index := r.index, detail := r.detail, psfn := r.psfn, psfnRef := r.psfnRef, psfnValid := r.psfnValid
    usec := r.usec }

/-- An entry is written and posted. -/
def logged (r : FaultRec) (x : LogFate) (s : State) : State := postNewest (writeEntry r x s)

theorem logged_faults (r : FaultRec) (x : LogFate) (s : State) : (logged r x s).faults = { s.faults with
    log := (entryOf r x s :: s.faults.log).take 256, nextSeq := s.faults.nextSeq + 1, total := s.faults.total + 1 } := by
  have hpost : (postNewest (writeEntry r x s)).faults = (writeEntry r x s).faults := by simp
  exact hpost

theorem logged_only (r : FaultRec) (x : LogFate) (s : State) : Claims.Only [.faults, .mbx] s (logged r x s) :=
  only_trans (only_mono (modFaults_only _ s) (by simp))
    (only_mono (only_of_kept (xs := [.mbx]) (postNewest_keeps (writeEntry r x s))) (by simp))

/-! ### The ways out of the handler -/

/-- The handler's slots when the handling of a fault ends. -/
def freed (s : State) : State := modFaults (fun f => { f with primary := f.second, second := none }) s

theorem faultHandle_acts (r : FaultRec) (s : State) (h : s.faults.primary = some r) (hwatch : supWatches s = true) :
    faultHandle s = actOn r (freed s) := by
  unfold faultHandle
  rw [h]
  exact if_pos hwatch

/-- A fault that starts no recovery is logged. -/
theorem actOn_quiet (r : FaultRec) (s : State) (hheld : unitHeld s r.unit = false) (hacts : codeActs r.code = false) :
    actOn r s = logged r ⟨1, 0, 1⟩ s := by
  have hcode : r.code ≠ 8 := fun h => by
    rw [h] at hacts
    exact nomatch hacts
  refine (if_neg (by simp [show r.code ≠ 8#8 from hcode])).trans ((if_neg (Bool.not_eq_true _ ▸ hheld)).trans (if_pos (by simp [hacts])))

/-- The level at which a fault of a unit acts. -/
def nextLevel (s : State) (u : FUnit) : Nat := if (unitSt s u).recovering = 0 then 1 else (unitSt s u).level + 1

/-- A fault that acts on a unit other than AON and SUP starts the recovery of the next level, or holds the unit failed. -/
theorem actOn_acts (r : FaultRec) (s : State) (haon : r.unit ≠ .aon) (hsup : r.unit ≠ .core .sup)
    (hacts : codeActs r.code = true) (hheld : unitHeld s r.unit = false) :
    actOn r s = if 3 ≤ nextLevel s r.unit then
        holdUnit r.unit r.code (endEntry r.unit 2 (logged r ⟨3, 5, 3⟩ s))
      else startRecovery r.unit (nextLevel s r.unit) (some s.faults.nextSeq)
        (endEntry r.unit 2 (logged r ⟨nextLevel s r.unit, actionCode r.unit (nextLevel s r.unit), 0⟩ s)) :=
  (if_neg (by simp [haon])).trans ((if_neg (Bool.not_eq_true _ ▸ hheld)).trans ((if_neg (by simp [hacts, haon])).trans
    (if_neg (by simpa using hsup))))

theorem actionCode_lt (u : FUnit) : actionCode u 1 < 8 := by
  cases u <;> simp [actionCode]

/-- A unit that is held failed: nothing of the handler's table differs but its entry. -/
theorem holdUnit_faults (u : FUnit) (code : BitVec 8) (s : State) : (holdUnit u code s).faults =
    (modUnit u (fun x => { x with recovering := 0, level := 0, held := true, lastSeq := none }) s).faults := by
  cases u <;> simp [holdUnit]

theorem unitSt_logged (r : FaultRec) (x : LogFate) (u : FUnit) (s : State) : unitSt (logged r x s) u = unitSt s u := by
  rw [unitSt, logged_faults]
  rfl

/-! ### A unit's recovery while its domain returns -/

/-- How far the recovery of a unit is, its level, and whether the unit is held failed. -/
def recoveryOf (u : FUnit) (s : State) : Nat × Nat × Bool :=
  ((unitSt s u).recovering, (unitSt s u).level, (unitSt s u).held)

theorem recoveryOf_congr {s t : State} (u : FUnit) (h : t.faults.units = s.faults.units) : recoveryOf u t = recoveryOf u s := by
  rw [recoveryOf, unitSt, h]
  rfl

theorem vmod_at {α : Type} {n : Nat} {i j : Fin n} (v : Vector α n) (f : α → α) (h : j = i) : (vmod v i f)[j] = f v[j] := by
  subst h
  exact vmod_same v j f

/-- A change of some unit's entry that leaves its recovery as it is. -/
theorem modUnit_recovery (v u : FUnit) (f : UnitSt → UnitSt)
    (hf : ∀ x, (f x).recovering = x.recovering ∧ (f x).level = x.level ∧ (f x).held = x.held) (s : State) :
    recoveryOf u (modUnit v f s) = recoveryOf u s := by
  have hunit : unitSt (modUnit v f s) u = if unitIx u = unitIx v then f (unitSt s u) else unitSt s u := by
    split
    next h => exact vmod_at _ f h
    next h => exact vmod_other _ _ _ _ h
  rw [recoveryOf, hunit]
  split
  · obtain ⟨hrec, hlevel, hheld⟩ := hf (unitSt s u)
    rw [hrec, hlevel, hheld]
    rfl
  · rfl

/-- The fault of a lost bank starts no recovery (R462). -/
theorem bankFault_recovery (v u : FUnit) (index : BitVec 7) (detail : BitVec 16) (s : State) :
    recoveryOf u (detect v 3 index detail s) = recoveryOf u s := by
  have hquiet : ∀ b : Bool, ¬ (codeActs 3 && b) = true := fun _ => Bool.false_ne_true
  unfold detect
  dsimp only
  rw [if_neg (hquiet _), if_neg (hquiet _)]
  split
  · rfl
  · rfl
  · refine (modUnit_recovery v u _ (by intro x; exact ⟨rfl, rfl, rfl⟩) _).trans ?_
    rfl

theorem lostBank_units (k : Fin 32) (s : State) : (lostBank k s).faults.units = s.faults.units := by
  simp only [lostBank]
  split_ifs <;> simp [lostLine, lostCal, lostConfig, lostLog, reloadFirmware, lostBulk]

theorem bankReturn_recovery (d : Dom) (u : FUnit) (s : State) : recoveryOf u (bankReturn d s) = recoveryOf u s := by
  have hhold : ∀ t : State, (holdLost t).faults.units = t.faults.units := fun t => by simp
  unfold bankReturn
  refine (recoveryOf_congr u (hhold _)).trans (eachOf_keeps (recoveryOf u) _ _ _ fun k s => ?_)
  dsimp only
  split_ifs
  · rfl
  · exact (bankFault_recovery ..).trans (recoveryOf_congr u (lostBank_units k _))
  · exact recoveryOf_congr u (lostBank_units k _)

theorem powerUp_recovery (d : Dom) (u : FUnit) (s : State) : recoveryOf u (powerUp d s) = recoveryOf u s := by
  have hfence : ∀ t : State, (fenceAlarms t).faults.units = t.faults.units := fun t => by simp
  refine (recoveryOf_congr u ?_).trans (bankReturn_recovery d u s)
  cases d
  case fq q => exact (hfence _).trans (eachOf_keeps (fun t : State => t.faults.units) _ _ _ fun _ _ => rfl)
  all_goals rfl

theorem domUp_recovery (d : Dom) (x : PState) (u : FUnit) (s : State) : recoveryOf u (domUp d x s) = recoveryOf u s := by
  have hports : ∀ t : State, (eachPort maybeAcquire (refresh t)).faults.units = t.faults.units := fun t => by simp [eachPort]
  have hgo : ∀ t : State, (goOn d t).faults.units = t.faults.units := fun t => by simp
  have hset : ∀ t : State, (setDom d x t).faults.units = t.faults.units := fun t => by simp
  have hraised := ite_kept (c := ((domSt s d).dark && !x.dark) = true) (recoveryOf u) (powerUp_recovery d u s) rfl
  have hstate := (recoveryOf_congr u (hset _)).trans hraised
  unfold domUp
  exact ite_kept (recoveryOf u) rfl ((recoveryOf_congr u (hports _)).trans
    (ite_kept (recoveryOf u) ((recoveryOf_congr u (hgo _)).trans hstate) hstate))

/-- A level-2 recovery of a converter makes a foreground run, unless the loss of its bank has started one (R327). -/
def recRun (u : FUnit) (s : State) : State :=
  match u with
  | .cv n => if (unitSt s u).level == 2 && !s.power.muteCv.getLsbD n.val then calStart n .foreground calAll 2 s else s
  | .aon => s | .mon => s | .map => s | .fq _ => s | .ld _ => s | .ho _ => s | .core _ => s

theorem recRun_keeps (u : FUnit) (s : State) : (recRun u s).faults = s.faults ∧ (recRun u s).power = s.power := by
  cases u
  case cv n => exact ⟨ite_kept State.faults (by simp) rfl, ite_kept State.power (by simp) rfl⟩
  all_goals exact ⟨rfl, rfl⟩

theorem recWake_asleep (u : FUnit) (d : Dom) (s : State) (hdom : recDom u = some d) (hoff : isOn s d = false) :
    recWake u s = unitBack u (recRun u (recEvent d (domUp d .on s))) := by
  unfold recWake
  rw [hdom]
  exact if_neg (by simp [hoff])

theorem recWake_awake (u : FUnit) (s : State) (h : ∀ d, recDom u = some d → isOn s d = true) : recWake u s = s := by
  unfold recWake
  split
  · rfl
  next d hdom => exact if_pos (h d hdom)

/-- What follows the wake of a unit's domain changes neither the handler's table nor the power manager's record. -/
theorem recWake_tail (u : FUnit) (d : Dom) (s : State) : (unitBack u (recRun u (recEvent d s))).faults = s.faults ∧
    (unitBack u (recRun u (recEvent d s))).power = s.power := by
  obtain ⟨hfaults, hpower⟩ := recRun_keeps u (recEvent d s)
  have hback : ∀ t : State, (unitBack u t).faults = t.faults ∧ (unitBack u t).power = t.power := fun t => by simp
  have hevent : (recEvent d s).faults = s.faults ∧ (recEvent d s).power = s.power := by simp
  exact ⟨(hback _).1.trans (hfaults.trans hevent.1), (hback _).2.trans (hpower.trans hevent.2)⟩

/-- The return of a unit's domain leaves its recovery where it is. -/
theorem recWake_recovery (u : FUnit) (s : State) : recoveryOf u (recWake u s) = recoveryOf u s := by
  by_cases h : ∀ d, recDom u = some d → isOn s d = true
  · rw [recWake_awake u s h]
  · simp only [not_forall] at h
    obtain ⟨d, hdom, hoff⟩ := h
    rw [recWake_asleep u d s hdom (Bool.eq_false_iff.mpr hoff)]
    exact (recoveryOf_congr u (congrArg Faults.units (recWake_tail u d _).1)).trans (domUp_recovery d .on u s)

theorem recDom_unit (u : FUnit) (d : Dom) (h : recDom u = some d) : domUnit d = u ∧ d ≠ .aon := by
  cases u <;> cases h <;> exact ⟨rfl, fun h => nomatch h⟩

/-- The domain of a unit that is not held failed is ON again (R460). -/
theorem recWake_on (u : FUnit) (d : Dom) (s : State) (hdom : recDom u = some d) (hheld : unitHeld s u = false) :
    isOn (recWake u s) d = true := by
  obtain ⟨hunit, haon⟩ := recDom_unit u d hdom
  by_cases hon : isOn s d = true
  · rwa [recWake_awake u s fun e he => by rwa [← Option.some.inj (hdom.symm.trans he)]]
  · have hoff := heldOff_of_unit s d (by rwa [hunit])
    rw [recWake_asleep u d s hdom (Bool.eq_false_iff.mpr hon), isOn, domSt_of_power (recWake_tail u d _).2 d,
      domSt_of_apart (domUp_apart d .on s hoff) d, domSt_setDom d .on s haon]
    rfl

/-! ### The end of an action -/

theorem recoveryActionDone_returns (u : FUnit) (s : State) (h : (unitSt s u).recovering = 1) :
    recoveryActionDone u s =
      finishAction u (unitSt s u).level (modUnit u (fun y => { y with recovering := 2 }) (recWake u s)) := if_pos h

theorem recoveryActionDone_unit (u : FUnit) (s : State) (h : (unitSt s u).recovering = 1) :
    (unitSt (recoveryActionDone u s) u).recovering = 2 ∧
      (unitSt (recoveryActionDone u s) u).level = (unitSt s u).level := by
  have hlevel : (unitSt (recWake u s) u).level = (unitSt s u).level :=
    congrArg (fun x : Nat × Nat × Bool => x.2.1) (recWake_recovery u s)
  have hdone : ∀ t : State, unitSt (finishAction u (unitSt s u).level t) u = unitSt t u := fun t => unitSt_congr u (by simp)
  rw [recoveryActionDone_returns u s h, hdone, unitSt_modUnit]
  exact ⟨rfl, hlevel⟩

theorem recoveryActionDone_on (u : FUnit) (d : Dom) (s : State) (h : (unitSt s u).recovering = 1)
    (hdom : recDom u = some d) (hheld : unitHeld s u = false) : isOn (recoveryActionDone u s) d = true := by
  have hpower : (recoveryActionDone u s).power = (recWake u s).power := by
    rw [recoveryActionDone_returns u s h]
    simp
  rw [isOn, domSt_of_power hpower]
  exact recWake_on u d s hdom hheld

/-! ### Alarms -/

/-- An alarm that clears keeps its latched bits (R458). -/
theorem setAlarm_clear_latched (key : AlarmKey) (b : Nat) (s : State) :
    (getAlarm (setAlarm key b false s) key).latched = (getAlarm s key).latched := by
  have hevent : ∀ t : State, getAlarm (alarmEvent key b false t) key = getAlarm t key := fun t => getAlarm_congr (by simp) key
  rw [setAlarm_eq]
  split_ifs
  · rfl
  · rw [getAlarm_modAlarm_same]
    rfl
  · rw [hevent, getAlarm_modAlarm_same]
    rfl

theorem handlerCompletes : Claims.HandlerCompletes := by
  intro s
  refine ⟨fun r hprimary hwatch => ⟨fun hheld hquiet => ?_, fun haon hsup hacts hheld hrec hlast => ?_,
    fun haon hsup hacts hheld hrec hlevel => ?_⟩, fun u hprimary hsecond hwatch hfind => ?_⟩
  · have hrun := faultHandle_acts r s hprimary hwatch
    rw [actOn_quiet r (freed s) hheld hquiet] at hrun
    have hfaults := logged_faults r ⟨1, 0, 1⟩ (freed s)
    exact ⟨_, entryOf r ⟨1, 0, 1⟩ (freed s), congrArg Host.Outcome.next hrun,
      only_trans (only_mono (modFaults_only _ s) (by simp)) (logged_only _ _ _), congrArg Faults.primary hfaults,
      congrArg Faults.second hfaults, congrArg Faults.log hfaults, rfl, rfl, rfl, rfl, congrArg Faults.total hfaults⟩
  · have hrun := faultHandle_acts r s hprimary hwatch
    have hlevel : nextLevel (freed s) r.unit = 1 := if_pos hrec
    have hnone : (unitSt (logged r ⟨1, actionCode r.unit 1, 0⟩ (freed s)) r.unit).lastSeq = none :=
      (congrArg UnitSt.lastSeq (unitSt_logged ..)).trans hlast
    rw [actOn_acts r (freed s) haon hsup hacts hheld, hlevel, if_neg (by decide), endEntry_none _ 2 _ hnone] at hrun
    have hfaults := (startRecovery_faults r.unit 1 (some (freed s).faults.nextSeq)
      (logged r ⟨1, actionCode r.unit 1, 0⟩ (freed s)))
    have hlog := logged_faults r ⟨1, actionCode r.unit 1, 0⟩ (freed s)
    have hunit := startRecovery_unit r.unit 1 (some (freed s).faults.nextSeq)
      (logged r ⟨1, actionCode r.unit 1, 0⟩ (freed s))
    refine ⟨_, entryOf r ⟨1, actionCode r.unit 1, 0⟩ (freed s), congrArg Host.Outcome.next hrun, ?_, ?_, ?_, rfl, rfl, rfl, rfl,
      Nat.mod_eq_of_lt (actionCode_lt r.unit), congrArg UnitSt.recovering hunit, congrArg UnitSt.level hunit⟩
    · exact (congrArg Faults.primary hfaults).trans (congrArg Faults.primary hlog :)
    · exact (congrArg Faults.second hfaults).trans (congrArg Faults.second hlog :)
    · exact (congrArg Faults.log hfaults).trans (congrArg Faults.log hlog :)
  · have hrun := faultHandle_acts r s hprimary hwatch
    have hnext : nextLevel (freed s) r.unit = 3 := (if_neg hrec).trans (congrArg (· + 1) hlevel)
    rw [actOn_acts r (freed s) haon hsup hacts hheld, hnext, if_pos le_rfl] at hrun
    have hfaults := holdUnit_faults r.unit r.code (endEntry r.unit 2 (logged r ⟨3, 5, 3⟩ (freed s)))
    obtain ⟨l, hend, -⟩ := endEntry_faults r.unit 2 (logged r ⟨3, 5, 3⟩ (freed s))
    refine ⟨_, congrArg Host.Outcome.next hrun, (unitHeld_congr r.unit hfaults).trans (unitHeld_modUnit r.unit _ _), ?_⟩
    exact (congrArg Faults.primary hfaults).trans ((congrArg Faults.primary hend :).trans
      (congrArg Faults.primary (logged_faults r ⟨3, 5, 3⟩ (freed s)) :))
  · have hfree : (s.faults.primary.isSome || s.faults.second.isSome || !supWatches s) = false := by
      rw [hprimary, hsecond, hwatch]
      rfl
    have htake : faultOverflowTakeup s = modUnit u (fun x => { x with overflow := 0, ovDown := false })
        (modFaults (fun f => { f with primary := some (faultRec s u 0xFE (BitVec.ofNat 7 (unitIndex u))
          (BitVec.ofNat 16 (unitSt s u).overflow)) }) s) := by
      refine (if_neg (by rw [hfree]; exact Bool.false_ne_true)).trans ?_
      rw [hfind]
    exact ⟨_, _, congrArg Host.Outcome.next htake, only_trans (modFaults_only _ s) (modFaults_only _ _), rfl, rfl, rfl, rfl,
      congrArg UnitSt.overflow (unitSt_modUnit u _ _), rfl⟩

theorem recoveriesEnd : Claims.RecoveriesComplete := by
  intro s
  refine ⟨fun u hrec hheld => ?_, fun u hrec => ?_, fun key b hcond => ?_⟩
  · obtain ⟨hquiet, hlevel⟩ := recoveryActionDone_unit u s hrec
    exact ⟨_, rfl, hquiet, hlevel, fun d hdom => recoveryActionDone_on u d s hrec hdom hheld⟩
  · have hend : recoveryQuietExpiry u s =
        modUnit u (fun x => { x with recovering := 0, level := 0, lastSeq := none }) (endEntry u 1 s) := if_pos hrec
    obtain ⟨l, hfaults, hlength, hout⟩ := endEntry_faults u 1 s
    have hlog : (endEntry u 1 s).faults.log = l := congrArg Faults.log hfaults
    have hunit := unitSt_modUnit u (fun x => { x with recovering := 0, level := 0, lastSeq := none }) (endEntry u 1 s)
    refine ⟨_, congrArg Host.Outcome.next hend, only_trans (endEntry_only u 1 s) (only_mono (modFaults_only _ _) (by simp)),
      congrArg UnitSt.recovering hunit, congrArg UnitSt.level hunit, (congrArg List.length hlog).trans hlength,
      fun q hq e he hseq => hout q hq e (hlog ▸ he) hseq⟩
  · have hclear : alarmDefaultClear key b s = setAlarm key b.val false s := if_pos (by rw [hcond]; rfl)
    exact ⟨_, congrArg Host.Outcome.next hclear, setAlarm_only_alarms key b.val false s,
      alarmOn_setAlarm key b.val false s b.isLt, setAlarm_clear_latched key b.val s,
      fun c hc => alarmOn_setAlarm_otherBit key b.val c.val false s (fun h => hc (Fin.ext h)) c.isLt⟩

end Sys2Proof.Machine

open Sys2Proof Sys2Proof.Machine

/-- Settles O46: the handler logs a fault, starts a recovery or holds its unit failed, by the unit's level; a recovery ends
with its domain ON and with the OUTCOME of its entry. -/
theorem recoveriesComplete : Obligations.RecoveriesComplete := ⟨handlerCompletes, recoveriesEnd⟩
end


section
/-! PROOF. Resets and boot: the state after a reset, the release, and the two ends of the check of an image. -/

namespace Sys2Proof.Machine

/-! ### Reset -/

theorem resetPorts_off (p : LPort) : State.reset.ports[p].front.drvEn = false ∧ State.reset.ports[p].front.muted = true ∧
    State.reset.ports[p].tr.state = .down := by
  revert p
  decide

/-- A pulse on RESET_N acts from 10 µs on, not below 1 µs, and by chance between (R480). -/
theorem resetNPulse_eq (ns : Nat) (mid : Bool) (s : State) : resetNPulse ns mid s =
    if 10000 ≤ ns then enterReset s else if ns < 1000 then s else if mid then enterReset s else s := by
  unfold resetNPulse
  by_cases hlong : 10000 ≤ ns
  · simp [hlong]
  · by_cases hshort : ns < 1000
    · simp [hlong, hshort]
    · cases mid <;> simp [hlong, hshort, Nat.not_lt.mp hshort]

theorem resetRelease_samples (b : BitVec 2) (a : BitVec 3) (s : State) (hpor : s.sys.porActive = false)
    (hheld : s.test.held = false) (hphase : s.sys.phase = 0) (herr : s.sys.err = 0) :
    resetRelease b a s = modSys (fun y => { y with
      inReset := false, bootSrc := b, addr := a, phase := if b = 0 then 1 else if b = 3 then 0 else 2
      err := if b = 3 then 7 else 0 }) s :=
  if_neg (by simp [hpor, hheld, hphase, herr])

/-! ### The image -/

/-- What the boot of the firmware leaves in the record of the boot ROM. -/
def bootRecord (s : State) : BitVec 3 × Bool × Vector Word 8 × Word := (s.sys.phase, s.sys.supRuns, s.sys.digest, s.sys.fwVer)

theorem moveDev_bootRecord (new : DevState) (reason : Nat) (s : State) :
    bootRecord (moveDev new reason s) = bootRecord s := by
  rw [bootRecord, moveDev_sys]
  rfl

theorem bootRecord_congr {s t : State} (h : t.sys = s.sys) : bootRecord t = bootRecord s := by
  rw [bootRecord, h]
  rfl

theorem holdLost_bootRecord (s : State) : bootRecord (holdLost s) = bootRecord s :=
  ite_kept bootRecord (moveDev_bootRecord ..) rfl

theorem heldChanged_bootRecord (s : State) : bootRecord (heldChanged s) = bootRecord s := by
  have hmoved : ∀ new, bootRecord (refresh (moveDev new 0 s)) = bootRecord s := fun new =>
    (bootRecord_congr (refresh_keeps _).1).trans (moveDev_bootRecord ..)
  exact ite_kept bootRecord rfl (ite_kept bootRecord (ite_kept bootRecord rfl (hmoved .fault))
    (ite_kept bootRecord (moveDev_bootRecord ..) (ite_kept bootRecord (moveDev_bootRecord ..) rfl)))

/-- The firmware starts, whichever way the device goes from there. -/
theorem startFirmware_bootRecord (s : State) : bootRecord (startFirmware s) = (4, true, s.sys.digest, s.sys.fwVer) := by
  unfold startFirmware
  dsimp only
  split
  · exact ite_kept bootRecord (holdLost_bootRecord _) rfl
  · have hruns : ∀ t : State, (eachPort (fun p s => if isOn s (.cv p) then calStart p .foreground calAll 1 s else s) t).sys =
        t.sys := fun t => eachPort_sys _ t fun p s => ite_kept State.sys (by simp) rfl
    exact ite_kept bootRecord ((moveDev_bootRecord ..).trans (bootRecord_congr (hruns _))) (bootRecord_congr (hruns _))

theorem imageCheck_lt (h : List Word) (key sig : Bool) : imageCheck h key sig < 8 := by
  unfold imageCheck
  dsimp only
  split_ifs <;> decide

theorem imageVerifyDone_accepts (key sig : Bool) (d : Vector Word 8) (s : State) (hphase : s.sys.phase = 3)
    (h : imageCheck s.sys.image key sig = 0) : imageVerifyDone key sig d s =
      heldChanged (startFirmware (modSys (fun y => { y with fwVer := y.image.getD 1 0, digest := d }) s)) := by
  unfold imageVerifyDone
  rw [if_pos hphase, h]
  rfl

theorem imageVerifyDone_fails (key sig : Bool) (d : Vector Word 8) (s : State) (hphase : s.sys.phase = 3)
    (h : imageCheck s.sys.image key sig ≠ 0) :
    imageVerifyDone key sig d s = imageFailed (imageCheck s.sys.image key sig) s := by
  unfold imageVerifyDone
  rw [if_pos hphase]
  split
  next h0 => exact absurd h0 h
  next => rfl

/-- A failed image: the next source, and the error of the first check that failed (R486, R487). -/
theorem imageFailed_next (e : Nat) (s : State) (he : e < 8) : (imageFailed e s).sys.err.toNat = e ∧
    (imageFailed e s).sys.supRuns = s.sys.supRuns ∧
    (imageFailed e s).sys.phase = (if s.sys.slot = 0 then 1 else 2) ∧
    (s.sys.slot = 0 → (imageFailed e s).sys.slot = 1) ∧ (s.sys.slot = 1 → (imageFailed e s).sys.fallbackDl = true) := by
  have herr : (BitVec.ofNat 3 e).toNat = e := Nat.mod_eq_of_lt he
  rw [imageFailed, modSys_sys]
  dsimp only
  split
  next h0 => exact ⟨herr, rfl, rfl, fun _ => rfl, fun h1 => absurd (h0.symm.trans h1) (by decide)⟩
  next h0 =>
    split
    · exact ⟨herr, rfl, rfl, fun h => absurd h h0, fun _ => rfl⟩
    next h1 => exact ⟨herr, rfl, rfl, fun h => absurd h h0, fun h => absurd h h1⟩

theorem coreRestartDone_answers (c : Core) (rq : Req) (s : State) (hdown : unitDown s (.core c) = false)
    (h : s.sys.restarts = [(c, some rq)]) :
    coreRestartDone c s = reply 0x0003 rq (okay []) (modSys (fun y => { y with restarts := [] }) s) := by
  have hgo : coreRestartDone c s = coreRuns c s := if_neg (by simp [hdown])
  rw [hgo]
  simp [coreRuns, h, eachOf, modSys]

end Sys2Proof.Machine

open Sys2Proof Sys2Proof.Machine

/-- Settles O51: resets go by the pins' own rules, and an image by the first check that it fails. -/
theorem resetsComplete : Obligations.ResetsComplete := by
  intro s
  refine ⟨⟨_, rfl, rfl, rfl, rfl, rfl, rfl, resetPorts_off⟩, rfl,
    fun ns mid => congrArg Host.Outcome.next (resetNPulse_eq ns mid s), fun hdue => congrArg Host.Outcome.next (if_pos hdue),
    fun b a hpor hheld hphase herr => ?_, fun h n hphase => congrArg Host.Outcome.next (if_pos hphase),
    fun key sig d hphase => ⟨fun hok => ?_, fun hbad => ?_⟩, fun c rq hdown hrestarts =>
      congrArg Host.Outcome.next (coreRestartDone_answers c rq s hdown hrestarts)⟩
  · refine ⟨_, congrArg Host.Outcome.next (resetRelease_samples b a s hpor hheld hphase herr), modSys_only _ s, rfl, rfl, rfl,
      rfl, ?_⟩
    show (if b = 0 then (1 : BitVec 3) else if b = 3 then 0 else 2) = if b = 3 then 0 else if b = 0 then 1 else 2
    by_cases h0 : b = 0
    · subst h0
      rfl
    · rw [if_neg h0, if_neg h0]
  · have hrecord := (heldChanged_bootRecord _).trans
      (startFirmware_bootRecord (modSys (fun y => { y with fwVer := y.image.getD 1 0, digest := d }) s))
    obtain ⟨hphase', hrest⟩ := Prod.mk.inj hrecord
    obtain ⟨hsup, hrest⟩ := Prod.mk.inj hrest
    obtain ⟨hdigest, hver⟩ := Prod.mk.inj hrest
    exact ⟨_, congrArg Host.Outcome.next (imageVerifyDone_accepts key sig d s hphase hok), hphase', hsup, hdigest, hver⟩
  · obtain ⟨herr, hsup, hnext, hslot, hdl⟩ := imageFailed_next _ s (imageCheck_lt s.sys.image key sig)
    exact ⟨_, congrArg Host.Outcome.next (imageVerifyDone_fails key sig d s hphase hbad), modSys_only _ s, herr, hsup, hnext,
      hslot, hdl⟩
end


section
/-! PROOF. The peripheral TWI and the boot SPI controllers: the words that start them, and how their transfers end. -/

namespace Sys2Proof.Machine

/-! ### Fields within fields -/

/-- Words that agree on a field agree on every field within it. -/
theorem fld_within {v w : Word} {hi lo : Nat} (h : fld v hi lo = fld w hi lo) (hi' lo' : Nat) (hlo : lo ≤ lo') (hhi : hi' ≤ hi) :
    fld v hi' lo' = fld w hi' lo' := by
  refine Nat.eq_of_testBit_eq fun i => ?_
  by_cases hi0 : lo' + i ≤ hi'
  · have hbits := congrArg (·.testBit (lo' + i - lo)) h
    rw [testBit_fld v hi lo _ (by omega), testBit_fld w hi lo _ (by omega), Nat.add_sub_cancel' (by omega)] at hbits
    rw [testBit_fld v hi' lo' i hi0, testBit_fld w hi' lo' i hi0, hbits]
  · have hwide : ∀ x : Word, (fld x hi' lo').testBit i = false := fun x =>
      Nat.testBit_lt_two_pow ((Nat.mod_lt _ (by positivity)).trans_le (Nat.pow_le_pow_right (by decide) (by omega)))
    rw [hwide v, hwide w]

/-! ### The peripheral TWI controller: a command -/

/-- The word that a row of the peripheral TWI writes to PTWI.CMD. -/
def ptwiWord (op : Nat) (w : Word) : Word := word [(31, 30, op), (29, 0, w.toNat)]

theorem ptwiWord_fields (op : Nat) (w : Word) (hop : op < 4) :
    fld (ptwiWord op w) 31 30 = op ∧ fld (ptwiWord op w) 29 0 = fld w 29 0 := by
  have hbelow : fieldsBelow 32 [(31, 30, op), (29, 0, w.toNat)] = true := rfl
  refine ⟨(fld_word 31 30 op _ hbelow (by simp)).trans (Nat.mod_eq_of_lt hop),
    (fld_word 29 0 w.toNat _ hbelow (by simp)).trans ?_⟩
  rw [fld, Nat.pow_zero, Nat.div_one]

theorem regWrite_ptwi (who : HostPort) (w : Word) (s : State) : regWrite who 0x0321 w s = ptwiCommand w s := by
  simp [regWrite, writeTwi]

theorem regWrite_bspi (who : HostPort) (w : Word) (s : State) : regWrite who 0x0332 w s = bspiCommand w s := by
  simp [regWrite, writeTwi]

/-- A port's own record is not that of the controllers. -/
theorem feDone_masters (who : HostPort) (addr : BitVec 16) (data : Word) (s : State) :
    (feDone who addr data s).twi.ptwiCmd = s.twi.ptwiCmd ∧ (feDone who addr data s).twi.ptwiStatus = s.twi.ptwiStatus ∧
      (feDone who addr data s).twi.bspiCmd = s.twi.bspiCmd ∧ (feDone who addr data s).twi.bspiStatus = s.twi.bspiStatus ∧
      (feDone who addr data s).twi.bspiSent = s.twi.bspiSent := by
  cases who <;> exact ⟨rfl, rfl, rfl, rfl, rfl⟩

theorem ptwiAccess_runs (who : HostPort) (op : Nat) (w : Word) (s : State) (hserve : feServes s who = true) :
    ptwiAccess who op w s = feDone who 0x0321 0 (ptwiCommand (ptwiWord op w) s) :=
  (registerWrite_awake who 0x0321 _ s hserve rfl).trans (congrArg (feDone who 0x0321 0) (regWrite_ptwi who _ s))

theorem ptwiCommand_starts (v : Word) (s : State) (hidle : s.twi.ptwiCmd = none) (hwrite : fld v 22 17 ≤ 32)
    (hread : fld v 16 11 ≤ 32) (hon : bit s.twi.ptwiCfg 29 = true) : ptwiCommand v s =
      modTwi (fun t => { t with ptwiCmd := some v, ptwiStatus := t.ptwiStatus ||| wd (2 ^ 28) }) s :=
  (if_neg (by simp [hidle, Nat.not_lt.mpr hwrite, Nat.not_lt.mpr hread])).trans (if_neg (by simp [hon]))

theorem ptwiCommand_rejects (v : Word) (s : State) (h : s.twi.ptwiCmd ≠ none) :
    ptwiCommand v s = modTwi (fun t => { t with ptwiStatus := t.ptwiStatus ||| wd (2 ^ 26) }) s :=
  if_pos (by simp [Option.isSome_iff_ne_none.mpr h])

theorem bit_or_same (v : Word) (i : Nat) (h : i < 32) : bit (v ||| wd (2 ^ i)) i = true := by
  rw [bit_or, bit_wd_two_pow i i h, decide_eq_true rfl, Bool.or_true]

/-- A row of the peripheral TWI, whatever its operation. -/
theorem ptwiAccess_acts (who : HostPort) (op : Nat) (w : Word) (s : State) (hserve : feServes s who = true) (hop : op < 4) :
    (s.twi.ptwiCmd = none → fld w 22 17 ≤ 32 → fld w 16 11 ≤ 32 → bit s.twi.ptwiCfg 29 = true →
      ∃ t v, ptwiAccess who op w s = t ∧ Claims.Only [.twi] s t ∧ t.twi.ptwiCmd = some v ∧ fld v 31 30 = op ∧
        fld v 29 0 = fld w 29 0 ∧ bit t.twi.ptwiStatus 28 = true) ∧
    (s.twi.ptwiCmd ≠ none → ∃ t, ptwiAccess who op w s = t ∧ Claims.Only [.twi] s t ∧ t.twi.ptwiCmd = s.twi.ptwiCmd ∧
      bit t.twi.ptwiStatus 26 = true) := by
  obtain ⟨hcode, hrest⟩ := ptwiWord_fields op w hop
  refine ⟨fun hidle hwrite hread hon => ?_, fun hbusy => ?_⟩
  · have hstart := ptwiCommand_starts (ptwiWord op w) s hidle
      (by rwa [fld_within hrest 22 17 (by decide) (by decide)]) (by rwa [fld_within hrest 16 11 (by decide) (by decide)]) hon
    refine ⟨_, ptwiWord op w, (ptwiAccess_runs who op w s hserve).trans (congrArg _ hstart),
      only_trans (modTwi_only _ s) (feDone_only who _ _ _), (feDone_masters who _ _ _).1, hcode, hrest, ?_⟩
    rw [(feDone_masters who _ _ _).2.1]
    exact bit_or_same _ 28 (by decide)
  · refine ⟨_, (ptwiAccess_runs who op w s hserve).trans (congrArg _ (ptwiCommand_rejects _ s hbusy)),
      only_trans (modTwi_only _ s) (feDone_only who _ _ _), (feDone_masters who _ _ _).1, ?_⟩
    rw [(feDone_masters who _ _ _).2.1]
    exact bit_or_same _ 26 (by decide)

/-! ### The boot SPI controller: a command -/

/-- The word that a row of the boot SPI writes to BSPI.CMD. -/
def bspiWord (dir : Nat) (w : Word) : Word := word [(31, 20, w.toNat / 2 ^ 20), (19, 19, dir), (18, 0, w.toNat)]

theorem bspiWord_fields (dir : Nat) (w : Word) :
    fld (bspiWord dir w) 31 20 = fld w 31 20 ∧ fld (bspiWord dir w) 18 0 = fld w 18 0 := by
  have hbelow : fieldsBelow 32 [(31, 20, w.toNat / 2 ^ 20), (19, 19, dir), (18, 0, w.toNat)] = true := rfl
  refine ⟨fld_word 31 20 _ _ hbelow (by simp), (fld_word 18 0 w.toNat _ hbelow (by simp)).trans ?_⟩
  rw [fld, Nat.pow_zero, Nat.div_one]

theorem bspiWord_dir (dir : Nat) (w : Word) (h : dir < 2) : bit (bspiWord dir w) 19 = (dir == 1) := by
  have hdir : dir = b2n (dir == 1) := by interval_cases dir <;> rfl
  have hbelow : fieldsBelow 32 [(31, 20, w.toNat / 2 ^ 20), (19, 19, b2n (dir == 1)), (18, 0, w.toNat)] = true := rfl
  have hbit := bit_word 19 (dir == 1) _ hbelow (by simp)
  rwa [← hdir] at hbit

theorem bspiAccess_runs (who : HostPort) (dir : Nat) (w : Word) (s : State) (hserve : feServes s who = true) :
    bspiAccess who dir w s = feDone who 0x0332 0 (bspiCommand (bspiWord dir w) s) :=
  (registerWrite_awake who 0x0332 _ s hserve rfl).trans (congrArg (feDone who 0x0332 0) (regWrite_bspi who _ s))

/-- The status of the controller as a transaction begins. -/
def bspiBusy (s : State) : State := modTwi (fun t => { t with bspiStatus := t.bspiStatus ||| wd (2 ^ 31) }) s

theorem bspiCommand_starts (v : Word) (s : State) (hdev : s.sys.dev ≠ .boot) (hidle : s.twi.bspiCmd = none)
    (hlen : fld v 18 10 ≤ 256) (haddr : fld v 23 22 ≠ 3)
    (hbulk : fld s.twi.bspiBulk 16 0 + (fld v 18 10 + 3) / 4 ≤ bulkWords) (hdriven : bit s.twi.bspiCfg 31 = false)
    (hon : isOn s .ctl = true) : bspiCommand v s = bspiStart v (bspiBusy s) := by
  have hgood : (s.sys.dev == .boot || s.twi.bspiCmd.isSome || decide (256 < fld v 18 10) || fld v 23 22 == 3 ||
      bulkBad (fld s.twi.bspiBulk 16 0) ((fld v 18 10 + 3) / 4)) = false := by
    rw [bulkBad_eq_false _ _ hbulk, hidle, beq_eq_false_iff_ne.mpr hdev, beq_eq_false_iff_ne.mpr haddr,
      decide_eq_false (Nat.not_lt.mpr hlen)]
    rfl
  exact (if_neg (Bool.not_eq_true _ ▸ hgood)).trans ((if_neg (Bool.not_eq_true _ ▸ hdriven)).trans (if_pos hon))

theorem bspiCommand_rejects (v : Word) (s : State) (h : s.twi.bspiCmd ≠ none) :
    bspiCommand v s = modTwi (fun t => { t with bspiStatus := t.bspiStatus ||| wd (2 ^ 29) }) s :=
  if_pos (by simp [Option.isSome_iff_ne_none.mpr h])

theorem bspiBytes_congr (v w : Word) (s : State) (h : fld v 18 10 = fld w 18 10) : bspiBytes (bspiBusy s) v = bspiBytes s w := by
  rw [bspiBytes, h]
  rfl

/-- A row of the boot SPI, whatever its direction. -/
theorem bspiAccess_acts (who : HostPort) (dir : Nat) (w : Word) (s : State) (hserve : feServes s who = true) (hdir : dir < 2) :
    (s.sys.dev ≠ .boot → s.twi.bspiCmd = none → fld w 18 10 ≤ 256 → fld w 23 22 ≠ 3 →
      fld s.twi.bspiBulk 16 0 + (fld w 18 10 + 3) / 4 ≤ bulkWords → bit s.twi.bspiCfg 31 = false → isOn s .ctl = true →
      ∃ t v, bspiAccess who dir w s = t ∧ Claims.Only [.twi] s t ∧ t.twi.bspiCmd = some (v, false) ∧ bit v 19 = (dir == 1) ∧
        bit t.twi.bspiStatus 31 = true ∧ (dir = 1 → t.twi.bspiSent = bspiBytes s w)) ∧
    (s.twi.bspiCmd ≠ none → ∃ t, bspiAccess who dir w s = t ∧ Claims.Only [.twi] s t ∧ t.twi.bspiCmd = s.twi.bspiCmd ∧
      bit t.twi.bspiStatus 29 = true) := by
  obtain ⟨hhigh, hlow⟩ := bspiWord_fields dir w
  have hlength := fld_within hlow 18 10 (by decide) (by decide)
  have hrun := bspiAccess_runs who dir w s hserve
  obtain ⟨hcmd, hstatus, hsent⟩ := And.intro
    (fun t => (feDone_masters who 0x0332 0 t).2.2.1) (And.intro (fun t => (feDone_masters who 0x0332 0 t).2.2.2.1)
      fun t => (feDone_masters who 0x0332 0 t).2.2.2.2)
  refine ⟨fun hdev hidle hlen haddr hbulk hdriven hon => ?_, fun hbusy => ?_⟩
  · rw [bspiCommand_starts _ s hdev hidle (by rwa [hlength]) (by rwa [fld_within hhigh 23 22 (by decide) (by decide)])
      (by rwa [hlength]) hdriven hon] at hrun
    refine ⟨_, bspiWord dir w, hrun, only_trans (modTwi_only _ s) (only_trans (modTwi_only _ _) (feDone_only who _ _ _)),
      hcmd _, bspiWord_dir dir w hdir, ?_, fun h1 => ?_⟩
    · rw [hstatus]
      exact bit_or_same _ 31 (by decide)
    · have hto : bit (bspiWord dir w) 19 = true := by rw [bspiWord_dir dir w hdir, h1]; rfl
      rw [hsent, bspiStart, modTwi_twi, hto]
      exact bspiBytes_congr _ w s hlength
  · rw [bspiCommand_rejects _ s hbusy] at hrun
    refine ⟨_, hrun, only_trans (modTwi_only _ s) (feDone_only who _ _ _), hcmd _, ?_⟩
    rw [hstatus]
    exact bit_or_same _ 29 (by decide)

/-! ### The ends of transfers -/

/-- The status that the end of a transfer leaves. -/
def ptwiEndWord (result done : Nat) (old : Word) : Word :=
  word [(31, 29, result), (27, 27, 1), (26, 26, b2n (bit old 26)), (25, 20, done)]

theorem ptwiEndWord_fields (result done : Nat) (old : Word) (hresult : result < 8) (hdone : done < 64) :
    fld (ptwiEndWord result done old) 31 29 = result ∧ bit (ptwiEndWord result done old) 28 = false ∧
      bit (ptwiEndWord result done old) 27 = true ∧ fld (ptwiEndWord result done old) 25 20 = done := by
  have hzero : ptwiEndWord result done old =
      word [(31, 29, result), (28, 28, b2n false), (27, 27, b2n true), (26, 26, b2n (bit old 26)), (25, 20, done)] :=
    (word_insert_zero [(31, 29, result)] [(27, 27, 1), (26, 26, b2n (bit old 26)), (25, 20, done)] 28 28).symm
  have hbelow : fieldsBelow 32 [(31, 29, result), (28, 28, b2n false), (27, 27, b2n true), (26, 26, b2n (bit old 26)),
    (25, 20, done)] = true := rfl
  rw [hzero]
  exact ⟨(fld_word 31 29 result _ hbelow (by simp)).trans (Nat.mod_eq_of_lt hresult),
    bit_word 28 false _ hbelow (by simp), bit_word 27 true _ hbelow (by simp),
    (fld_word 25 20 done _ hbelow (by simp)).trans (Nat.mod_eq_of_lt hdone)⟩

theorem ptwiEnd_twi (result done : Nat) (s : State) : (ptwiEnd result done s).twi =
    { s.twi with ptwiCmd := none, ptwiStatus := ptwiEndWord result done s.twi.ptwiStatus } := rfl

/-- The end of a transfer, whatever its result. -/
theorem ptwiEnd_ends (result done : Nat) (s : State) (hresult : result < 8) (hdone : done < 64) :
    Claims.Only [.twi] s (ptwiEnd result done s) ∧ (ptwiEnd result done s).twi.ptwiCmd = none ∧
      fld (ptwiEnd result done s).twi.ptwiStatus 31 29 = result ∧ bit (ptwiEnd result done s).twi.ptwiStatus 28 = false ∧
      bit (ptwiEnd result done s).twi.ptwiStatus 27 = true ∧ fld (ptwiEnd result done s).twi.ptwiStatus 25 20 = done ∧
      (ptwiEnd result done s).twi.ptwiData = s.twi.ptwiData := by
  obtain ⟨hcode, hbusy, hends, hbytes⟩ := ptwiEndWord_fields result done s.twi.ptwiStatus hresult hdone
  rw [ptwiEnd_twi]
  exact ⟨modTwi_only _ s, rfl, hcode, hbusy, hends, hbytes, rfl⟩

theorem ptwiCode_lt (how : PtwiEnd) : ptwiCode how < 8 := by
  cases how <;> decide

/-- The bytes that a transfer has received, in the data registers. -/
def ptwiStore (w : Word) (data : List Byte) (s : State) : State :=
  if fld w 31 30 = 1 ∨ fld w 31 30 = 2 then
    modTwi (fun t => { t with ptwiData := storeBytes (data.take (fld w 16 11)) t.ptwiData }) s
  else s

theorem ptwiDone_ends (how : PtwiEnd) (done : BitVec 6) (data : List Byte) (w : Word) (s : State)
    (h : s.twi.ptwiCmd = some w) : ptwiDone how done data s = ptwiEnd (ptwiCode how) done.toNat (ptwiStore w data s) := by
  unfold ptwiDone ptwiStore
  rw [h]
  simp only [Bool.or_eq_true, decide_eq_true_eq]

theorem ptwiStore_data (w : Word) (data : List Byte) (s : State) : (ptwiStore w data s).twi.ptwiData =
    if fld w 31 30 = 1 ∨ fld w 31 30 = 2 then storeBytes (data.take (fld w 16 11)) s.twi.ptwiData else s.twi.ptwiData := by
  unfold ptwiStore
  split <;> rfl

theorem ptwiStore_only (w : Word) (data : List Byte) (s : State) : Claims.Only [.twi] s (ptwiStore w data s) :=
  only_ite (modTwi_only _ s) (only_refl _ s)

/-- The status that the end of a flash transfer leaves. -/
theorem bspiEndWord_bits (old : Word) : bit (word [(30, 30, 1), (29, 29, b2n (bit old 29))]) 31 = false ∧
    bit (word [(30, 30, 1), (29, 29, b2n (bit old 29))]) 30 = true := by
  have hzero : word [(30, 30, 1), (29, 29, b2n (bit old 29))] =
      word [(31, 31, b2n false), (30, 30, b2n true), (29, 29, b2n (bit old 29))] :=
    (word_insert_zero [] [(30, 30, 1), (29, 29, b2n (bit old 29))] 31 31).symm
  have hbelow : fieldsBelow 32 [(31, 31, b2n false), (30, 30, b2n true), (29, 29, b2n (bit old 29))] = true := rfl
  rw [hzero]
  exact ⟨bit_word 31 false _ hbelow (by simp), bit_word 30 true _ hbelow (by simp)⟩

theorem bspiDone_effect (data : List Byte) (w : Word) (s : State) (h : s.twi.bspiCmd = some (w, false)) :
    ∃ t, Claims.Runs (.bspiDone data) s t ∧ Claims.Only [.twi, .bulk] s t ∧ t.twi.bspiCmd = none ∧
      bit t.twi.bspiStatus 31 = false ∧ bit t.twi.bspiStatus 30 = true ∧
      t.bulk = if bit w 19 then s.bulk else putBytes s.bulk (4 * fld s.twi.bspiBulk 16 0) (data.take (fld w 18 10)) := by
  let u : State := if bit w 19 then s
    else { s with bulk := putBytes s.bulk (4 * fld s.twi.bspiBulk 16 0) (data.take (fld w 18 10)) }
  have hu : Claims.Only [.bulk] s u := only_ite (only_refl _ s) (setBulk_only _ s)
  obtain ⟨hbusy, hdone⟩ := bspiEndWord_bits u.twi.bspiStatus
  refine ⟨_, congrArg Host.Outcome.next (bspiDone_ends data h),
    only_trans (only_mono hu (by simp)) (only_mono (modTwi_only _ u) (by simp)), rfl, hbusy, hdone, ?_⟩
  rw [modTwi_bulk]
  split <;> rfl

end Sys2Proof.Machine

open Sys2Proof Sys2Proof.Machine

/-- Settles O50: a row writes its operation into the controller's command word, which an idle controller takes; the end of a
transfer sets the status word. -/
theorem peripheralMastersComplete : Obligations.PeripheralMastersComplete := by
  intro who w s
  refine ⟨fun hserve op c hc => ?_, fun hserve dir c hc => ?_, fun how done data hcmd => ?_,
    fun data hcmd => bspiDone_effect data w s hcmd⟩
  · have hop : op < 4 ∧ exec c s = .next (ptwiAccess who op w s) := by
      simp only [List.mem_cons, Prod.mk.injEq, List.not_mem_nil, or_false] at hc
      rcases hc with ⟨rfl, rfl⟩ | ⟨rfl, rfl⟩ | ⟨rfl, rfl⟩ | ⟨rfl, rfl⟩ <;> exact ⟨by decide, rfl⟩
    obtain ⟨hstart, hreject⟩ := ptwiAccess_acts who op w s hserve hop.1
    refine ⟨fun hidle hwrite hread hon => ?_, fun hbusy => ?_⟩
    · obtain ⟨t, v, hrun, hrest⟩ := hstart hidle hwrite hread hon
      exact ⟨t, v, hop.2.trans (congrArg _ hrun), hrest⟩
    · obtain ⟨t, hrun, hrest⟩ := hreject hbusy
      exact ⟨t, hop.2.trans (congrArg _ hrun), hrest⟩
  · have hdir : dir < 2 ∧ exec c s = .next (bspiAccess who dir w s) := by
      simp only [List.mem_cons, Prod.mk.injEq, List.not_mem_nil, or_false] at hc
      rcases hc with ⟨rfl, rfl⟩ | ⟨rfl, rfl⟩ <;> exact ⟨by decide, rfl⟩
    obtain ⟨hstart, hreject⟩ := bspiAccess_acts who dir w s hserve hdir.1
    refine ⟨fun hdev hidle hlen haddr hbulk hdriven hon => ?_, fun hbusy => ?_⟩
    · obtain ⟨t, v, hrun, hrest⟩ := hstart hdev hidle hlen haddr hbulk hdriven hon
      exact ⟨t, v, hdir.2.trans (congrArg _ hrun), hrest⟩
    · obtain ⟨t, hrun, hrest⟩ := hreject hbusy
      exact ⟨t, hdir.2.trans (congrArg _ hrun), hrest⟩
  · have hsome : s.twi.ptwiCmd.isSome = true := congrArg Option.isSome hcmd
    refine ⟨?_, ?_, ?_⟩
    · obtain ⟨honly, hend, hresult, hbusy, hdone, hbytes, hdata⟩ :=
        ptwiEnd_ends (ptwiCode how) done.toNat (ptwiStore w data s) (ptwiCode_lt how) done.isLt
      exact ⟨_, congrArg Host.Outcome.next (ptwiDone_ends how done data w s hcmd), only_trans (ptwiStore_only w data s) honly,
        hend, hresult, hbusy, hdone, hbytes, hdata.trans (ptwiStore_data w data s)⟩
    · obtain ⟨honly, hend, hresult, -, hdone, -⟩ := ptwiEnd_ends 6 0 s (by decide) (by decide)
      exact ⟨_, congrArg Host.Outcome.next (if_pos hsome), honly, hend, hresult, hdone⟩
    · obtain ⟨honly, hend, hresult, -, -, hbytes, -⟩ := ptwiEnd_ends 4 done.toNat s (by decide) done.isLt
      exact ⟨_, congrArg Host.Outcome.next (if_pos hsome), honly, hend, hresult, hbytes⟩
end


section
/-! PROOF. What happens on the management ports, downloads, and the end of a wake by an access. -/

namespace Sys2Proof.Machine

/-! ### A wake from DEEP -/

/-- What a wake does to the power manager's record depends on that record and on the clock. -/
theorem profileWake_power {s t : State} (code : BitVec 4) (arg : BitVec 6) (hpower : t.power = s.power) (hsys : t.sys = s.sys) :
    (profileWake code arg t).power = (profileWake code arg s).power := by
  have hdom : ∀ d, domSt t d = domSt s d := domSt_of_power hpower
  have hmoves : ∀ f, movesTo t f = movesTo s f := fun f => by simp only [movesTo, hdom]
  unfold profileWake
  rw [hpower]
  split
  · split <;> simp only [modPower_power, hpower]
  · split
    · exact hpower
    · simp only [wakeAttempts_keeps, modPower_power, hpower, hmoves, uptimeMs, hsys]

/-- A first refused access starts a wake; the others leave the power manager as it is. -/
theorem firstWake_power {s t : State} (code : BitVec 4) (window : Bool) (hpower : t.power = s.power) (hsys : t.sys = s.sys) :
    (doIf (!window) (profileWake code 0) t).power = if window then s.power else (profileWake code 0 s).power := by
  cases window
  · exact profileWake_power code 0 hpower hsys
  · exact hpower

theorem firstWake_twi (code : BitVec 4) (first : Bool) (s : State) : (doIf first (profileWake code 0) s).twi = s.twi := by
  cases first
  · rfl
  · simp [doIf]

theorem firstWake_only (code : BitVec 4) (first : Bool) (s : State) :
    Claims.Only [.twi, .power, .ports] s (doIf first (profileWake code 0) s) := by
  cases first
  · exact only_refl _ s
  · exact only_mono (only_of_kept (xs := [.power, .ports]) (profileWake_keeps code 0 s)) (by simp)

/-! ### A domain that an access has woken -/

/-- A domain that is ON, is to stay so, and has no wake by an access to come. -/
structure Woken (d : Dom) (s : State) : Prop where
  on : isOn s d = true
  stays : inDown s d = false
  none_due : s.power.accessWakes.contains d = false

theorem inDown_congr {s t : State} (h : t.power.trans = s.power.trans) (d : Dom) : inDown t d = inDown s d := by
  rw [inDown, h]
  rfl

theorem isOn_congr {s t : State} (h : t.power = s.power) (d : Dom) : isOn t d = isOn s d := by
  rw [isOn, domSt_of_power h, isOn]

theorem woken_congr {d : Dom} {s t : State} (h : t.power = s.power) (hs : Woken d s) : Woken d t :=
  ⟨(isOn_congr h d).trans hs.on, (inDown_congr (congrArg Power.trans h) d).trans hs.stays, by rw [h]; exact hs.none_due⟩

/-- A wake of CTL that begins is one of a CTL that is not ON for good. -/
theorem wakeCtl_woken {d : Dom} {s : State} (hs : Woken d s) : Woken d (wakeCtl s) := by
  unfold wakeCtl
  split
  · exact hs
  next h =>
    have hd : d ≠ .ctl := fun hd => by
      subst hd
      exact h (by simp [hs.on, hs.stays])
    refine ⟨?_, ?_, ?_⟩
    · exact (show isOn _ d = isOn s d by cases d <;> rfl).trans hs.on
    · exact (inDown_congr (s := s) rfl d).trans hs.stays
    · rw [modPower_power]
      have hdue := hs.none_due
      simp only [List.contains_append, hdue, Bool.false_or]
      simpa using hd

theorem ite_woken {d : Dom} {c : Prop} [Decidable c] {s t : State} (hs : Woken d s) (ht : Woken d t) :
    Woken d (if c then s else t) := by
  split
  · exact hs
  · exact ht

theorem postWord_woken {d : Dom} {n : Fin 8} {st : Stamp} {w : Word} {s : State} (hs : Woken d s) : Woken d (postWord n st w s) :=
  ite_woken (woken_congr (by simp) hs) (ite_woken (woken_congr (by simp) hs) (wakeCtl_woken (woken_congr (by simp) hs)))

theorem bspiCommand_woken {d : Dom} {w : Word} {s : State} (hs : Woken d s) : Woken d (bspiCommand w s) :=
  ite_woken (woken_congr (by simp) hs) (ite_woken hs (ite_woken (woken_congr (by simp) hs)
    (wakeCtl_woken (woken_congr (by simp) hs))))

theorem writeTwi_woken {d : Dom} {a : Nat} {w : Word} {s : State} (hs : Woken d s) : Woken d (writeTwi a w s) := by
  refine ite_woken (woken_congr (by simp) hs) ?_
  split
  case h_8 => exact bspiCommand_woken hs
  all_goals exact woken_congr (by simp) hs

theorem writeMbx_woken {d : Dom} {who : HostPort} {a : Nat} {w : Word} {s : State} (hs : Woken d s) :
    Woken d (writeMbx who a w s) := by
  refine ite_woken (postWord_woken hs) (ite_woken (woken_congr (by simp) hs) ?_)
  split <;> exact woken_congr (by simp) hs

theorem regWrite_woken {d : Dom} {who : HostPort} {addr : BitVec 16} {w : Word} {s : State} (hs : Woken d s) :
    Woken d (regWrite who addr w s) := by
  refine ite_woken (ite_woken (woken_congr (by simp) hs) hs) (ite_woken ?_ (ite_woken (writeMbx_woken hs)
    (ite_woken (writeTwi_woken hs) hs)))
  split <;> exact woken_congr (by simp) hs

/-- The access that waited goes on, and leaves the domain as it is. -/
theorem unstall_woken {d e : Dom} {s : State} (hs : Woken d s) : Woken d (unstall e s) := by
  unfold unstall
  split
  · exact hs
  · dsimp only
    refine ite_woken hs ?_
    split
    · exact woken_congr (by simp) hs
    · have hfe : Woken d (modFe .twi (fun f => { f with stall := none }) s) := woken_congr (by simp) hs
      have hdone : ∀ addr data t, (feDone .twi addr data t).power = t.power := fun _ _ _ => by simp
      exact woken_congr (hdone _ _ _) (regWrite_woken hfe)

/-- A digital domain whose unit is not held failed reaches ON. -/
theorem accessWake_reaches (d : Dom) (s : State) (hheld : heldOff s d = false) : isOn (accessWake d s) d = true ∧
    (accessWake d s).power.trans = s.power.trans := by
  by_cases hon : isOn s d = true
  · have hstays : accessWake d s = s := if_pos hon
    rw [hstays]
    exact ⟨hon, rfl⟩
  · have haon : d ≠ .aon := fun h => hon (by subst h; rfl)
    let u := modPower (fun p => { p with accessWakes := p.accessWakes.filter (· != d) }) s
    have hwake : accessWake d s = pwrEvent 2 (domUp d .on u) := if_neg hon
    have hheld' : heldOff u d = false := by
      cases d <;> exact hheld
    have hpower : (pwrEvent 2 (domUp d .on u)).power = (domUp d .on u).power := by simp
    have hapart := domUp_apart d .on u hheld'
    rw [hwake]
    constructor
    · rw [isOn, domSt_of_power hpower, domSt_of_apart hapart, domSt_setDom d .on u haon]
      rfl
    · exact (congrArg Power.trans hpower).trans ((trans_of_apart hapart).trans (setDom_trans d .on u))

theorem accessWakeComplete_wakes (d : Dom) (s : State) (hdue : s.power.accessWakes.contains d = true)
    (hdown : inDown s d = false) (hdigital : isAnalog d = false) (hheld : unitHeld s (domUnit d) = false ∨ d = .ctl) :
    Woken d (accessWakeComplete d s) := by
  have hgo : (!s.power.accessWakes.contains d || inDown s d || isAnalog d || (unitHeld s (domUnit d) && d != .ctl)) = false := by
    rw [hdue, hdown, hdigital]
    rcases hheld with h | h <;> simp [h]
  have hoff : heldOff s d = false := by
    rcases hheld with h | rfl
    · exact heldOff_of_unit s d h
    · rfl
  obtain ⟨hon, htrans⟩ := accessWake_reaches d s hoff
  have hwoken : Woken d (modPower (fun p => { p with accessWakes := p.accessWakes.filter (· != d) }) (accessWake d s)) :=
    ⟨(show isOn _ d = isOn (accessWake d s) d by cases d <;> rfl).trans hon, (inDown_congr htrans d).trans hdown, by simp⟩
  have hgoes : accessWakeComplete d s =
      let t := unstall d (modPower (fun p => { p with accessWakes := p.accessWakes.filter (· != d) }) (accessWake d s))
      if d == .ctl then bspiGo t else t := if_neg (Bool.not_eq_true _ ▸ hgo)
  have hbspi : ∀ t, (bspiGo t).power = t.power := fun _ => by simp
  rw [hgoes]
  exact ite_woken (woken_congr (hbspi _) (unstall_woken hwoken)) (unstall_woken hwoken)

/-! ### The events -/

theorem feRefuse_only (who : HostPort) (s : State) : Claims.Only [.twi] s (feRefuse who s) := modFe_only who _ s

theorem portEventsComplete : Claims.PortEventsComplete := by
  intro s
  refine ⟨?_, rfl, fun hstall => ?_, ?_, fun hlisten => ?_, fun hwindow => ?_, fun hlisten => ⟨?_, ?_⟩, fun hlisten => ?_,
    fun hwindow => ?_, fun d hdue hdown hdigital hheld => ?_⟩
  · exact ⟨_, rfl, only_trans (modTwi_only _ s) (feRefuse_only .twi _), rfl, rfl, rfl⟩
  · have hsome : s.twi.twi.stall.isSome = true := Option.isSome_iff_ne_none.mpr hstall
    exact ⟨_, congrArg Host.Outcome.next (if_pos hsome), only_trans (modTwi_only _ s) (modFe_only .twi _ _), rfl, rfl, rfl⟩
  · exact ⟨_, rfl, only_trans (modTwi_only _ s) (modFe_only .twi _ _), rfl, rfl, rfl⟩
  · let u := modFe .twi (fun f => { f with window := true, done := false })
      (modTwi (fun t => { t with twiEvents := t.twiEvents ||| 2, twiNack := t.twiNack + 1 }) s)
    have hu : Claims.Only [.twi] s u := only_trans (modTwi_only _ s) (modFe_only .twi _ _)
    have htwi := firstWake_twi 4 (!s.twi.twi.window) u
    have hrun : twiDeepNack s = doIf (!s.twi.twi.window) (profileWake 4 0) u := if_pos hlisten
    refine ⟨_, congrArg Host.Outcome.next hrun, only_trans (only_mono hu (by simp)) (firstWake_only 4 _ u), ?_, ?_, ?_,
      firstWake_power 4 _ rfl rfl⟩ <;> rw [htwi] <;> rfl
  · exact ⟨_, congrArg Host.Outcome.next (if_pos hwindow), modFe_only .twi _ s, rfl⟩
  · exact ⟨_, congrArg Host.Outcome.next (if_neg (by simp [hlisten])), only_trans (modTwi_only _ s) (feRefuse_only .mspi _),
      rfl, rfl, rfl⟩
  · exact ⟨_, congrArg Host.Outcome.next (if_neg (by simp [hlisten])), only_trans (modTwi_only _ s) (feRefuse_only .mspi _),
      rfl, rfl, rfl, rfl⟩
  · let u := modFe .mspi (fun f => { f with window := true, done := false })
      (modTwi (fun t => { t with mspiEvents := t.mspiEvents ||| 1 }) s)
    have hu : Claims.Only [.twi] s u := only_trans (modTwi_only _ s) (modFe_only .mspi _ _)
    have htwi := firstWake_twi 5 (!s.twi.mspi.window) u
    have hrun : mspiDeepIgnore s = doIf (!s.twi.mspi.window) (profileWake 5 0) u := if_pos hlisten
    refine ⟨_, congrArg Host.Outcome.next hrun, only_trans (only_mono hu (by simp)) (firstWake_only 5 _ u), ?_, ?_,
      firstWake_power 5 _ rfl rfl⟩ <;> rw [htwi] <;> rfl
  · exact ⟨_, congrArg Host.Outcome.next (if_pos hwindow), modFe_only .mspi _ s, rfl⟩
  · have hwoken := accessWakeComplete_wakes d s hdue hdown hdigital hheld
    exact ⟨_, rfl, hwoken.on, hwoken.none_due⟩

/-! ### Downloads -/

theorem dlWrite_only (who : HostPort) (op len : Nat) (s : State) : Claims.Only [.sys] s (dlWrite who op len s) :=
  only_of_kept (dlWrite_keeps who op len s)

/-- A command of a download changes what `dlWrite` changes, and the port. -/
theorem dlAccess_runs (who : HostPort) (op len : Nat) (s : State) (hserve : feServes s who = true) :
    dlAccess who op len s = feDone who 0x0003 0 (dlWrite who op len s) ∧
      Claims.Only [.sys, .twi] s (dlAccess who op len s) ∧ (dlAccess who op len s).sys = (dlWrite who op len s).sys := by
  have hrun : dlAccess who op len s = feDone who 0x0003 0 (dlWrite who op len s) := access_serves who _ s hserve
  rw [hrun]
  exact ⟨rfl, only_trans (only_mono (dlWrite_only who op len s) (by simp)) (only_mono (feDone_only who _ _ _) (by simp)),
    by simp⟩

theorem dlWrite_starts (who : HostPort) (s : State) (hphase : s.sys.phase = 2) (hallowed : dlAllowed s who = true) :
    dlWrite who 1 0 s =
      modSys (fun y => { y with image := [], imageLen := 0, copying := none, dlReady := true, slot := 2 }) s := by
  simp [dlWrite, hphase, hallowed]

/-- A part of an image that fits is handed to the boot ROM. -/
theorem dlWrite_part (who : HostPort) (op len : Nat) (s : State) (hop : op = 2 ∨ op = 3) (hphase : s.sys.phase = 2)
    (hallowed : dlAllowed s who = true) (hready : s.sys.dlReady = true) (hsome : 0 < len) (hmost : len ≤ 131072)
    (hfits : s.sys.imageLen + len ≤ 327744) :
    dlWrite who op len s = modSys (fun y => { y with copying := some (len, op == 3), dlReady := false }) s := by
  have hgood : (s.sys.phase != 2 || !dlAllowed s who ||
      (op != 1 && (!s.sys.dlReady || len == 0 || decide (131072 < len)))) = false := by
    rw [hphase, hallowed, hready, decide_eq_false (Nat.not_lt.mpr hmost), beq_eq_false_iff_ne.mpr (Nat.ne_of_gt hsome)]
    simp
  exact (if_neg (by omega)).trans ((if_neg (Bool.not_eq_true _ ▸ hgood)).trans ((if_neg (by omega)).trans
    (if_neg (by omega))))

theorem dlWrite_rejects (who : HostPort) (op len : Nat) (s : State) (hop : op ≠ 0) (hphase : s.sys.phase ≠ 2) :
    dlWrite who op len s = modSys (fun y => { y with dlReject := true }) s :=
  (if_neg hop).trans (if_pos (by simp [show s.sys.phase ≠ 2#3 from hphase]))

theorem downloadsComplete : Claims.DownloadsComplete := by
  intro who n s
  refine ⟨fun hserve hphase hallowed => ⟨?_, fun hready hsome hmost hfits => ⟨?_, ?_⟩⟩, fun hserve hphase c hc => ?_,
    fun len last hcopy => ?_⟩
  · obtain ⟨-, honly, hsys⟩ := dlAccess_runs who 1 0 s hserve
    exact ⟨_, rfl, honly, hsys.trans (congrArg State.sys (dlWrite_starts who s hphase hallowed))⟩
  · obtain ⟨-, honly, hsys⟩ := dlAccess_runs who 2 n.toNat s hserve
    exact ⟨_, rfl, honly, hsys.trans (congrArg State.sys
      (dlWrite_part who 2 n.toNat s (.inl rfl) hphase hallowed hready hsome hmost hfits))⟩
  · obtain ⟨-, honly, hsys⟩ := dlAccess_runs who 3 n.toNat s hserve
    exact ⟨_, rfl, honly, hsys.trans (congrArg State.sys
      (dlWrite_part who 3 n.toNat s (.inr rfl) hphase hallowed hready hsome hmost hfits))⟩
  · have hdl : ∃ op len, op ≠ 0 ∧ exec c s = .next (dlAccess who op len s) := by
      simp only [List.mem_cons, List.not_mem_nil, or_false] at hc
      rcases hc with rfl | rfl | rfl
      · exact ⟨1, 0, by decide, rfl⟩
      · exact ⟨2, n.toNat, by decide, rfl⟩
      · exact ⟨3, n.toNat, by decide, rfl⟩
    obtain ⟨op, len, hop, hexec⟩ := hdl
    obtain ⟨-, honly, hsys⟩ := dlAccess_runs who op len s hserve
    exact ⟨_, hexec, honly, hsys.trans (congrArg State.sys (dlWrite_rejects who op len s hop hphase))⟩
  · have hrun : dlPartCopied s = modSys (fun y => { y with
        image := (y.image ++ bulkRead s.bulk 0 (min len 64)).take 64, imageLen := y.imageLen + len, copying := none
        dlReady := !last, phase := if last then 3 else y.phase }) s := by
      rw [dlPartCopied, hcopy]
    exact ⟨_, congrArg Host.Outcome.next hrun, modSys_only _ s, rfl, rfl, rfl, rfl⟩

end Sys2Proof.Machine

open Sys2Proof Sys2Proof.Machine

/-- Settles O49: an event of a port changes its record; a wake by an access ends with its domain ON; a download's command is
rejected out of its phase. -/
theorem managementPortsComplete : Obligations.ManagementPortsComplete := ⟨portEventsComplete, downloadsComplete⟩
end


section
/-! PROOF. The power commands: the transitions that they begin, and their reports. -/

namespace Sys2Proof.Machine

theorem Profile.ofCode_code (p : Profile) : Profile.ofCode p.code = p := by
  cases p <;> rfl

theorem PState.ofCode_code (x : PState) : PState.ofCode x.code = x := by
  cases x <;> rfl

/-- A transition that begins is the one in force, with its moves; the profile is as it was. -/
theorem startTrans_begins (rq : Req) (ms : List Move) (profile : Option Profile) (up : Bool) (s : State) :
    ∃ x, (startTrans rq ms profile up s).power = { s.power with trans := some x } ∧ x.rq = some rq ∧ x.profile = profile ∧
      x.moves = ms := by
  refine ⟨{ rq := some rq, asking := ms.any goesDown, moves := ms, reached := [], profile := profile, isWake := up,
            checked := false, startUsec := s.sys.usec }, ?_, rfl, rfl, rfl⟩
  have hattempts : (if ms.any goesDown then s else wakeAttempts ms s).power = s.power :=
    ite_kept State.power rfl (by simp)
  have htaken : ∀ t : State, (taken rq t).power = t.power := fun t => by simp
  unfold startTrans
  dsimp only
  rw [htaken, modPower_power, hattempts]

/-- The checks of PWR_PROFILE_SET pass: nothing reserved, and a profile lower than the one to wake to. -/
theorem profileChecks (w : Word) (p : Profile) (hp : p.code = fld w 31 30) (hzero : fld w 19 0 = 0)
    (hrun : p = .run → fld w 29 28 = 0) (hlow : p ≠ .run → fld w 29 28 < p.code) :
    (fld w 19 0 != 0 || (fld w 31 30 == 0 && fld w 29 28 != 0) || (fld w 31 30 != 0 && decide (fld w 31 30 ≤ fld w 29 28))) =
      false := by
  rw [← hp, hzero]
  by_cases h : p = .run
  · rw [h, hrun h]
    rfl
  · have hcode : p.code ≠ 0 := by
      cases p with
      | run => exact absurd rfl h
      | standby | dark | deep => decide
    have hle : ¬ p.code ≤ fld w 29 28 := Nat.not_le.mpr (hlow h)
    simp [hcode, hle]

/-- PWR_PROFILE_SET with no transition running. -/
theorem pwrProfileSet_idle (rq : Req) (s : State) (p : Profile) (hp : p.code = fld (par rq 0) 31 30)
    (hzero : fld (par rq 0) 19 0 = 0) (hrun : p = .run → fld (par rq 0) 29 28 = 0)
    (hlow : p ≠ .run → fld (par rq 0) 29 28 < p.code) (hidle : s.power.trans = none) :
    pwrProfileSet rq s = if p == s.power.profile && !deviate s then reply 0x1001 rq (okFlags 1) (setWakes (par rq 0) s)
      else startTrans rq (movesTo s fun d => some (p.state d)) (some p) (decide (p.code < s.power.profile.code))
        (doIf (decide (p.code < s.power.profile.code) && !(movesTo s fun d => some (p.state d)).any goesDown)
          (upwardReport s.sys.usec) s) := by
  have hcode : Profile.ofCode (fld (par rq 0) 31 30) = p := by rw [← hp, Profile.ofCode_code]
  unfold pwrProfileSet
  dsimp only
  refine (command_runs_free 0x1001 rq _ _ _ s rfl
    (firstFail_badAt_one _ 0 (profileChecks _ p hp hzero hrun hlow)) rfl).trans ?_
  simp only [hidle, hcode, hp]

theorem pwrDomainSet_idle (rq : Req) (s : State) (st : PState) (hst : st.code = fld (par rq 0) 31 30)
    (hzero : fld (par rq 0) 29 19 = 0) (hsome : fld (par rq 0) 18 0 ≠ 0) (hctl : ¬ (st = .off ∧ bit (par rq 0) 18 = true))
    (hidle : s.power.trans = none) : pwrDomainSet rq s =
      if (movesTo s fun d => if bit (par rq 0) (domBit d) then some st else none).isEmpty then reply 0x1002 rq (okay []) s
      else startTrans rq (movesTo s fun d => if bit (par rq 0) (domBit d) then some st else none) none false s := by
  have hcode : PState.ofCode (fld (par rq 0) 31 30) = st := by rw [← hst, PState.ofCode_code]
  have hgood : (fld (par rq 0) 29 19 != 0 || fld (par rq 0) 18 0 == 0 || (st == .off && bit (par rq 0) 18)) = false := by
    rw [hzero, beq_eq_false_iff_ne.mpr hsome]
    cases hbit : bit (par rq 0) 18
    · simp
    · simpa [hbit] using hctl
  unfold pwrDomainSet
  dsimp only
  rw [hcode]
  refine (command_runs_free 0x1002 rq _ _ _ s rfl (firstFail_badAt_one _ 0 hgood) rfl).trans ?_
  simp only [hidle]

/-- The banks that the new mask gives up. -/
def banksGone (m : Word) (s : State) : List (Fin 32) :=
  movable.flatMap fun d => if domSt s d == .nap then (banksOf d).filter fun k => !bit m k.val else []

/-- The record of the power manager after some banks have been discarded. -/
def discard (gone : List (Fin 32)) (p : Power) : Power :=
  gone.foldl (fun p k => if bit p.kept k.val then
    { p with kept := putBit p.kept k.val false, cause := vset p.cause k 1 } else p) p

theorem discard_retain (gone : List (Fin 32)) (p : Power) : (discard gone p).retain = p.retain :=
  foldl_keeps Power.retain gone _ p fun _ _ => ite_kept Power.retain rfl rfl

theorem pwrRetainSet_runs (rq : Req) (s : State) : pwrRetainSet rq s = reply 0x1003 rq (okay [])
    (modPower (fun p => discard (banksGone (par rq 0) s) { p with retain := par rq 0 }) s) := by
  unfold pwrRetainSet
  exact command_runs_free 0x1003 rq _ _ _ s rfl rfl rfl

theorem modPower_only (f : Power → Power) (s : State) : Claims.Only [.power] s (modPower f s) := by
  intro x hx
  cases x <;> simp_all [Claims.Same]

/-! ### Reports -/

/-- Where no transition runs its word is zero (R431). -/
theorem powerWords_idle (s : State) (h : s.power.trans = none) : (powerWords s)[4]? = some 0 := by
  unfold powerWords
  rw [h]
  exact congrArg some (show word [(31, 16, 0)] = 0 from rfl)

/-- The three words of a place in the log of refusals, zero where it holds none (R432). -/
def refusalEntry3 : Option RefusalEntry → List Word
  | none => [0, 0, 0]
  | some e => [word [(31, 24, e.refuser.toNat), (23, 16, e.reason.toNat), (15, 15, b2n e.abort), (14, 13, e.target.toNat)],
               word [(31, 13, e.domains.toNat)], e.uptime]

theorem refusalEntry3_length (e : Option RefusalEntry) : (refusalEntry3 e).length = 3 := by
  cases e <;> rfl

theorem refusalWords_eq (p : Power) :
    refusalWords p = p.counters.toList ++ (List.range 16).flatMap fun i => refusalEntry3 p.log[i]? := rfl

theorem refusalWords_length (p : Power) : (refusalWords p).length = 58 := by
  rw [refusalWords_eq, List.length_append, List.length_flatMap]
  simp only [refusalEntry3_length]
  simp

theorem refusalWords_counters (p : Power) : (refusalWords p).take 10 = p.counters.toList := by
  refine List.take_left' ?_
  simp

/-- The state in which PWR_REFUSALS_READ answers. -/
def refusalsRead (rq : Req) (s : State) : State :=
  doIf (bit (par rq 0) 31) (modPower fun p => { p with counters := Vector.replicate 10 0, log := [] })
    (putBulk (pf rq 0 23 0) (refusalWords s.power) s)

theorem pwrRefusalsAnswer_eq (rq : Req) (s : State) :
    pwrRefusalsAnswer rq s = reply 0x1005 rq (okay [58]) (refusalsRead rq s) := by
  unfold pwrRefusalsAnswer
  dsimp only
  rw [refusalWords_length]
  rfl

theorem pwrRefusalsRead_reports (rq : Req) (s : State) (hzero : fld (par rq 0) 30 24 = 0)
    (hfits : fld (par rq 0) 23 0 + 58 ≤ bulkWords) :
    Claims.Reports (.pwrRefusalsRead rq) .device 0x1005 rq (pwrRefusalsAnswer rq s) s := by
  refine reports_of_report _ _ _ _ _ (pwrRefusalsAnswer rq) s rfl (firstFail_badAt_one _ 0 ?_) (fun d hd => nomatch hd)
  rw [show pf rq 0 30 24 = 0 from hzero, bulkBad_eq_false (pf rq 0 23 0) 58 hfits]
  rfl

end Sys2Proof.Machine

open Sys2Proof Sys2Proof.Machine

/-- Settles O18: with no transition running a command begins one or finds nothing to move; the reports answer the power
manager's record. -/
theorem powerCommandsComplete : Obligations.PowerCommandsComplete := by
  intro rq s
  refine ⟨fun p hp hzero hrun hlow hidle => ?_, fun st hst hzero hsome hctl hidle => ⟨fun hms => ?_, fun hms => ?_⟩, ?_, ?_,
    fun hzero hfits => ?_, ?_⟩
  · have hset := pwrProfileSet_idle rq s p hp hzero hrun hlow hidle
    refine ⟨fun hsame hthere => ?_, fun hmoves => ?_⟩
    · rw [if_pos (by simp [hsame, hthere])] at hset
      exact ⟨_, congrArg Host.Outcome.next hset, rfl, rfl, rfl⟩
    · have hgo : ¬ (p == s.power.profile && !deviate s) = true := by
        rcases hmoves with h | h <;> simp [h]
      rw [if_neg hgo] at hset
      obtain ⟨x, hpower, hrq, hprofile, hx⟩ := startTrans_begins rq (movesTo s fun d => some (p.state d)) (some p)
        (decide (p.code < s.power.profile.code))
        (doIf (decide (p.code < s.power.profile.code) && !(movesTo s fun d => some (p.state d)).any goesDown)
          (upwardReport s.sys.usec) s)
      refine ⟨_, x, congrArg Host.Outcome.next hset, by rw [hpower], hrq, hprofile, hx, ?_⟩
      rw [hpower]
      exact ite_kept (fun t : State => t.power.profile) rfl rfl
  · have hset := pwrDomainSet_idle rq s st hst hzero hsome hctl hidle
    rw [hms] at hset
    exact congrArg Host.Outcome.next hset
  · have hset := pwrDomainSet_idle rq s st hst hzero hsome hctl hidle
    rw [if_neg (by simpa using hms)] at hset
    obtain ⟨x, hpower, hrq, hprofile, hx⟩ := startTrans_begins rq
      (movesTo s fun d => if bit (par rq 0) (domBit d) then some st else none) none false s
    exact ⟨_, x, congrArg Host.Outcome.next hset, by rw [hpower], hrq, hprofile, hx⟩
  · exact ⟨_, congrArg Host.Outcome.next (pwrRetainSet_runs rq s), discard_retain _ _, modPower_only _ s⟩
  · exact ⟨powerWords s, reports_of_report _ _ _ _ _ (pwrStatusAnswer rq) s rfl rfl (fun d hd => nomatch hd), rfl, rfl,
      powerWords_idle s⟩
  · have hreport := pwrRefusalsRead_reports rq s hzero hfits
    rw [pwrRefusalsAnswer_eq] at hreport
    refine ⟨refusalWords s.power, refusalsRead rq s, hreport, refusalWords_length _, refusalWords_counters _, ?_,
      fun hclear => ?_, fun hkeep => ?_, ?_⟩
    · exact ite_kept State.bulk rfl rfl
    · rw [refusalsRead, hclear]
      exact ⟨rfl, rfl⟩
    · rw [refusalsRead, hkeep]
      rfl
    · exact only_trans (only_mono (setBulk_only _ s) (by simp))
        (only_ite (only_mono (modPower_only _ _) (by simp)) (only_refl _ _))
  · exact ⟨wakeWords s, reports_of_report _ _ _ _ _ (pwrWakeAnswer rq) s rfl rfl (fun d hd => nomatch hd), rfl, rfl, rfl, rfl,
      rfl⟩
end


section
/-! PROOF. The monitor commands, BIAS_LOOP_SET and the reads of the monitor converter. -/

namespace Sys2Proof.Machine

theorem modMon_only (f : Mon → Mon) (s : State) : Claims.Only [.mon] s (modMon f s) := by
  intro x hx
  cases x <;> simp_all [Claims.Same]

theorem tookFree_only (s : State) : Claims.Only [.free] s (tookFree s) := by
  intro x hx
  cases x <;> simp_all [Claims.Same]

theorem refreshPort_only (p : LPort) (s : State) : Claims.Only [.ports] s (refreshPort p s) := by
  intro x hx
  cases x <;> simp_all [Claims.Same]

theorem biasPort_only (p : LPort) (s : State) : Claims.Only [.alarms, .mbx, .ports] s (biasPort p s) := by
  have halarms : ∀ b on t, Claims.Only [.alarms, .mbx, .ports] t (setAlarm (.line p) b on t) := fun b on t =>
    only_mono (setAlarm_only_alarms _ b on t) (by simp)
  exact only_trans (halarms 18 _ s)
    (only_trans (halarms 19 _ _) (only_mono (refreshPort_only p _) (by simp)))

/-! ### MON_CONFIG and MON_COEF_LOAD -/

/-- A value that waits only where it differs from the one in force: that value is the one to come. -/
theorem getD_waiting {α : Type} [DecidableEq α] (x now : α) : (if x = now then none else some x).getD now = x := by
  split_ifs with h
  · exact h.symm
  · rfl

theorem presetNext_monApply (rq : Req) (m : Mon) : presetNext (monApply rq m) = (monWant rq m).preset :=
  getD_waiting _ _

theorem gainsNext_monApply (rq : Req) (m : Mon) : gainsNext (monApply rq m) = (monWant rq m).gains :=
  getD_waiting _ _

/-- A field that a flag selects, as a number. -/
theorem toNat_selected (rq : Req) (c : Prop) [Decidable c] (i hi lo w : Nat) (old : BitVec w) (h : hi + 1 - lo = w) :
    (if c then BitVec.ofNat w (pf rq i hi lo) else old).toNat = if c then pf rq i hi lo else old.toNat := by
  rw [apply_ite BitVec.toNat, ofNat_pf_toNat rq i hi lo w h]

theorem bulkRead_take (m : List Host.Cell) (w k n : Nat) (h : k ≤ n) :
    (bulkRead m w n).take k = bulkRead m w k := by
  rw [bulkRead, bulkRead, ← List.map_take, List.take_range, Nat.min_eq_left h]

theorem monSettingsComplete : Claims.MonSettingsComplete := by
  intro rq s
  constructor
  · intro hc hd hs
    refine ⟨modMon (monApply rq) s, congrArg Host.Outcome.next (command_runs 0x8001 rq _ _ _ s hc hd hs),
      modMon_only _ s, rfl, toNat_selected rq _ 1 23 0 24 _ rfl, toNat_selected rq _ 3 23 0 24 _ rfl, rfl, rfl, rfl,
      ?_, gainsNext_monApply rq s.mon, rfl, rfl⟩
    rw [modMon_mon, presetNext_monApply]
    exact toNat_selected rq _ 0 31 29 3 _ rfl
  · intro hc hd
    refine ⟨_, congrArg Host.Outcome.next (commandOk_runs 0x8002 rq _ _ _ s hc hd rfl), modMon_only _ s, ?_, rfl, rfl, rfl⟩
    exact congrArg (List.map fun w => sgn 24 (fld w 31 8)) (bulkRead_take s.bulk (pf rq 0 23 0) 64 65 (by decide))

/-! ### BIAS_LOOP_SET -/

/-- A change of MODE restarts the loop at CODE. -/
theorem loopApply_restarts (rq : Req) (free : Nat) (l : BiasLoop) (h : LoopMode.ofCode (pf rq 0 26 25) ≠ l.mode) :
    (loopApply rq free l).code = pf rq 1 31 16 ∧ (loopApply rq free l).drive = pf rq 1 31 16 ∧
      (loopApply rq free l).highZ = (LoopMode.ofCode (pf rq 0 26 25) == .off) ∧
      (loopApply rq free l).st = (match LoopMode.ofCode (pf rq 0 26 25) with
        | .off => .off | .fixed => .fixed | .setpoint => .settling | .dither => .settling) := by
  unfold loopApply
  dsimp only
  rw [if_pos (bne_iff_ne.mpr h)]
  exact ⟨rfl, rfl, rfl, rfl⟩

/-- With an unchanged MODE the loop takes its fields; FIXED drives CODE. -/
theorem loopApply_unchanged (rq : Req) (free : Nat) (l : BiasLoop) (h : LoopMode.ofCode (pf rq 0 26 25) = l.mode) :
    loopApply rq free l = if LoopMode.ofCode (pf rq 0 26 25) == .fixed
      then { loopFields rq l with code := pf rq 1 31 16, drive := pf rq 1 31 16 } else loopFields rq l :=
  if_neg (by simp [h])

/-- What the loop takes whatever its mode was, as a number where the model holds a bit vector. -/
structure TookFields (rq : Req) (l : BiasLoop) : Prop where
  mode : l.mode = LoopMode.ofCode (pf rq 0 26 25)
  chan : l.chan.toNat = pf rq 0 24 20
  sign : l.sign = bit (par rq 0) 19
  start : l.start = pf rq 1 31 16
  ki : l.ki = pf rq 1 15 0
  codeMin : l.codeMin = pf rq 2 31 16
  codeMax : l.codeMax = pf rq 2 15 0
  target : l.target = pf rq 3 31 8
  tol : l.tol = pf rq 4 31 16
  d : l.d = pf rq 4 15 6
  half : l.half = pf rq 4 5 2
  grace : l.grace = pf rq 5 31 20
  stepMax : l.stepMax = pf rq 5 19 8

theorem loopApply_tookFields (rq : Req) (free : Nat) (l : BiasLoop) : TookFields rq (loopApply rq free l) := by
  have hchan := ofNat_pf_toNat rq 0 24 20 5 rfl
  by_cases h : LoopMode.ofCode (pf rq 0 26 25) = l.mode
  · rw [loopApply_unchanged rq free l h]
    split <;> exact ⟨h.symm, hchan, rfl, rfl, rfl, rfl, rfl, rfl, rfl, rfl, rfl, rfl, rfl⟩
  · unfold loopApply
    dsimp only
    rw [if_pos (bne_iff_ne.mpr h)]
    exact ⟨rfl, hchan, rfl, rfl, rfl, rfl, rfl, rfl, rfl, rfl, rfl, rfl, rfl⟩

theorem loopPort_eq (k : Fin 24) (p : LPort) (h : p.val = k.val / 6) : Fin.ofNat 4 (k.val / 6) = p := by
  have hlt : k.val / 6 < 4 := by omega
  exact Fin.ext ((Nat.mod_eq_of_lt hlt).trans h.symm)

theorem biasPort_mon (p : LPort) (s : State) : (biasPort p s).mon = s.mon := by simp

/-- What BIAS_LOOP_SET does to the monitor. -/
def loopSet (rq : Req) (p : LPort) (free : Nat) (m : Mon) : Mon :=
  { m with loops := vmod m.loops (loopIx rq) (loopApply rq free), muteOnDrift := vset m.muteOnDrift p (bit (par rq 0) 18) }

theorem loopSet_loop (rq : Req) (p : LPort) (free : Nat) (m : Mon) :
    (loopSet rq p free m).loops[loopIx rq] = loopApply rq free m.loops[loopIx rq] := vmod_same _ _ _

theorem biasLoopSetCompletes : Claims.BiasLoopSetCompletes := by
  intro rq s k p hk hp hc hd hs l mode
  subst hk
  have hrun : biasLoopSet rq s = reply 0x8005 rq (okay [])
      (biasPort p (tookFree (modMon (loopSet rq p s.free) s))) := by
    rw [← loopPort_eq _ p hp]
    exact commandOk_runs 0x8005 rq _ _ _ s hc hd hs
  have honly : Claims.Only [.mon, .free, .alarms, .mbx, .ports] s (biasPort p (tookFree (modMon (loopSet rq p s.free) s))) :=
    only_trans (only_mono (modMon_only _ s) (by simp))
      (only_trans (only_mono (tookFree_only _) (by simp)) (only_mono (biasPort_only p _) (by simp)))
  obtain ⟨hmode, hchan, hsign, hstart, hki, hmin, hmax, htarget, htol, hdither, hhalf, hgrace, hstep⟩ :=
    loopApply_tookFields rq s.free l
  refine ⟨_, congrArg Host.Outcome.next hrun, honly, ?_⟩
  rw [biasPort_mon, tookFree_mon, modMon_mon, loopSet_loop]
  refine ⟨fun j hj => vmod_other _ _ _ _ hj, vset_same _ _ _, hmode, hchan, hsign, hstart, hki, hmin, hmax, htarget, htol,
    hdither, hhalf, hgrace, hstep, loopApply_restarts rq s.free l, fun hsame => ?_⟩
  rw [loopApply_unchanged rq s.free l hsame]
  by_cases hfixed : mode = .fixed
  · rw [if_pos (beq_iff_eq.mpr hfixed), if_pos hfixed]
    exact ⟨rfl, rfl⟩
  · rw [if_neg fun h => hfixed (beq_iff_eq.mp h), if_neg hfixed]
    exact ⟨rfl, rfl⟩

/-! ### MON_READ and MON_URGENT -/

/-- The result of an urgent conversion. -/
def urgentResult (code : BitVec 24) (ovr : Bool) (s : State) : MonRes :=
  { seq := BitVec.ofNat 8 (Config.freeNat s.free), refCold := s.mon.refCold, ovr := ovr, data := code }

theorem monUrgentDone_replies (code : BitVec 24) (ovr : Bool) (rq : Req) (c : BitVec 5) (s : State)
    (h : s.mon.urgent = some (rq, c)) (hrun : monRuns s = true) :
    monUrgentDone code ovr s = reply 0x8004 rq (okay [chanWord (urgentResult code ovr s)])
      (tookFree (modMon (fun m => { m with urgent := none }) s)) := by
  rw [monUrgentDone, h]
  exact if_pos hrun

/-- The word of a result, below its 32 bits. -/
theorem chanWord_below (r : MonRes) : fieldsBelow 32 [(31, 8, r.data.toNat), (7, 7, b2n r.invalid), (6, 6, b2n r.refCold),
    (5, 5, b2n r.ovr), (4, 4, b2n r.filtered), (3, 0, r.seq.toNat)] = true := rfl

theorem fld_chanWord (r : MonRes) : fld (chanWord r) 31 8 = r.data.toNat :=
  (fld_word 31 8 _ _ (chanWord_below r) (by simp)).trans (Nat.mod_eq_of_lt r.data.isLt)

theorem bit_chanWord (r : MonRes) : bit (chanWord r) 7 = r.invalid ∧ bit (chanWord r) 6 = r.refCold ∧
    bit (chanWord r) 5 = r.ovr ∧ bit (chanWord r) 4 = r.filtered :=
  ⟨bit_word 7 _ _ (chanWord_below r) (by simp), bit_word 6 _ _ (chanWord_below r) (by simp),
    bit_word 5 _ _ (chanWord_below r) (by simp), bit_word 4 _ _ (chanWord_below r) (by simp)⟩

/-- Preset TRACK leaves no idle slot. -/
theorem urgentServed_track (m : Mon) (free : Nat) (hpreset : m.preset = 3) (hscan : m.scan ≠ 0) :
    urgentServed m free = false := by
  have hidle : ¬ (decide (m.scan = 0) && decide (scanNext m = 0)) = true := by
    rw [decide_eq_false hscan]
    exact Bool.false_ne_true
  exact (if_neg hidle).trans (if_pos hpreset)

/-- MON_URGENT with the buffer on and a channel that there is. -/
theorem monUrgent_served (rq : Req) (s : State) (hd : Claims.Awake 0x8004 rq s) (hchan : pf rq 0 31 27 ≤ 23)
    (hzero : pf rq 0 26 0 = 0) (href : s.mon.refOn = true) :
    monUrgent rq s = if s.mon.urgent.isNone && urgentServed s.mon s.free then
        taken rq (tookFree (modMon (fun m => { m with urgent := some (rq, BitVec.ofNat 5 (pf rq 0 31 27)) }) s))
      else reply 0x8004 rq (busy 1) (tookFree (modMon (fun m => { m with cntUrgent := m.cntUrgent + 1 }) s)) :=
  command_runs 0x8004 rq _ _ _ s (firstFail_badAt_one _ 0 (by simp [hzero, hchan])) hd (by simp [firstFail, href])

theorem monReadsComplete : Claims.MonReadsComplete := by
  intro rq s
  refine ⟨?_, ?_, ?_⟩
  · intro hzero sel
    let fs := [(31, 16, s.mon.round.toNat), (15, 13, s.mon.preset.toNat), (12, 12, b2n s.mon.refOn),
      (11, 11, b2n s.mon.refCold)]
    have hbelow : fieldsBelow 32 fs = true := rfl
    refine ⟨word fs, fld_word 31 16 _ fs hbelow (by simp [fs]),
      (fld_word 15 13 _ fs hbelow (by simp [fs])).trans (Nat.mod_eq_of_lt s.mon.preset.isLt),
      bit_word 12 _ fs hbelow (by simp [fs]), bit_word 11 _ fs hbelow (by simp [fs]), ?_⟩
    exact reports_of_report (.monRead rq) .device 0x8003 rq _ (monReadAnswer rq) s rfl
      (firstFail_badAt_one _ 0 (by simp [hzero])) fun d hd => nomatch hd
  · intro hd hchan hzero href
    have hrun := monUrgent_served rq s hd hchan hzero href
    constructor
    · intro hnone hscan hnext
      exact congrArg Host.Outcome.next (hrun.trans (if_pos (by simp [hnone, urgentServed, hscan, hnext])))
    · intro hbusy
      refine congrArg Host.Outcome.next (hrun.trans (if_neg ?_))
      rcases hbusy with hwait | ⟨hpreset, hscan⟩
      · simp [hwait]
      · simp [urgentServed_track s.mon s.free hpreset hscan]
  · intro c code ovr hurgent hrun
    obtain ⟨hinvalid, hcold, hovr, hfiltered⟩ := bit_chanWord (urgentResult code ovr s)
    exact ⟨chanWord (urgentResult code ovr s), fld_chanWord _, hinvalid, hcold, hovr, hfiltered,
      congrArg Host.Outcome.next (monUrgentDone_replies code ovr rq c s hurgent hrun)⟩

end Sys2Proof.Machine

open Sys2Proof Sys2Proof.Machine

/-- Settles O40: each command that passes its checks is its own change of the monitor, then its reply. That the buffer and
the post-filter mask act at once is the model's choice (notes/assumptions 73 and 110). -/
theorem monCommandsComplete : Obligations.MonCommandsComplete :=
  ⟨monSettingsComplete, biasLoopSetCompletes, monReadsComplete⟩

end


section
/-! PROOF. The slots of the monitor converter, the loops that they feed, and the converter's timers. -/

namespace Sys2Proof.Machine

/-! ### A slot inside a round -/

/-- A channel of the scan has a slot. -/
theorem slotIx_of_scan (p : BitVec 3) (scan : BitVec 24) (c : Nat) (h : scan.getLsbD c = true) :
    ∃ i, slotIx p scan c = some i := by
  unfold slotIx
  by_cases hp : p = 3
  · exact ⟨_, (if_pos hp).trans (if_pos h)⟩
  · exact ⟨_, if_neg hp⟩

/-- The converter as slot `i` ends: the dither edges that are due act. -/
def slotShown (i : Nat) (m : Mon) : Mon := applyEdges { m with slot := some i } i

/-- The converter as a slot of channel `c` ends, which may begin a round. -/
def slotEntered (c : Fin 24) (m : Mon) : Mon :=
  let m := if newRound m c.val then roundStart m else m
  match slotIx m.preset m.scan c.val with
  | some i => slotShown i m
  | none => { m with slot := some (m.slot.getD 0) }

theorem slotEntered_inside (c : Fin 24) (m : Mon) (i : Nat) (hround : newRound m c.val = false)
    (hi : slotIx m.preset m.scan c.val = some i) : slotEntered c m = slotShown i m := by
  simp only [slotEntered, hround, Bool.false_eq_true, if_false, hi]

/-- The result of channel `c` is written. -/
def slotWritten (c : Fin 24) (code : BitVec 24) (ovr : Bool) (s : State) : State :=
  tookFree (modMon (writeResult c code ovr s.free) (tearShadows c s))

/-- What follows the end of a slot: the result of a scanned channel is written, and a good one reaches the loops. -/
def slotResult (c : Fin 24) (code : BitVec 24) (ovr : Bool) (s : State) : State :=
  if s.mon.scan.getLsbD c.val then
    if s.mon.invalid[c] == 0 && !s.mon.refCold then feedLoops c code (slotWritten c code ovr s)
    else slotWritten c code ovr s
  else s

theorem monSlotEnd_eq (c : Fin 24) (code : BitVec 24) (ovr : Bool) (s : State) :
    monSlotEnd c code ovr s = if monRuns s then slotResult c code ovr (modMon (slotEntered c) s) else s := rfl

/-- A slot of a scanned channel inside a round. -/
theorem monSlotEnd_scanned (c : Fin 24) (code : BitVec 24) (ovr : Bool) (s : State) (hrun : monRuns s = true)
    (hround : newRound s.mon c.val = false) (hscan : s.mon.scan.getLsbD c.val = true) :
    ∃ i, monSlotEnd c code ovr s = if s.mon.invalid[c] == 0 && !s.mon.refCold
      then feedLoops c code (slotWritten c code ovr (modMon (slotShown i) s))
      else slotWritten c code ovr (modMon (slotShown i) s) := by
  obtain ⟨i, hi⟩ := slotIx_of_scan s.mon.preset s.mon.scan c.val hscan
  have hmon : modMon (slotEntered c) s = modMon (slotShown i) s := by
    rw [modMon, slotEntered_inside c s.mon i hround hi, modMon]
  rw [monSlotEnd_eq, if_pos hrun, hmon]
  exact ⟨i, if_pos hscan⟩

/-- The monitor with a count of torn shadows. -/
def withTorn (n : Word) (m : Mon) : Mon := { m with cntTorn := n }

theorem tearShadows_mon (c : Fin 24) (s : State) : ∃ n, (tearShadows c s).mon = withTorn n s.mon := ⟨_, rfl⟩

theorem slotWritten_mon (c : Fin 24) (code : BitVec 24) (ovr : Bool) (i : Nat) (s : State) : ∃ n,
    (slotWritten c code ovr (modMon (slotShown i) s)).mon =
      writeResult c code ovr s.free (withTorn n (slotShown i s.mon)) := by
  obtain ⟨n, htorn⟩ := tearShadows_mon c (modMon (slotShown i) s)
  exact ⟨n, congrArg (writeResult c code ovr s.free) htorn⟩

theorem slotWritten_only (c : Fin 24) (code : BitVec 24) (ovr : Bool) (i : Nat) (s : State) :
    Claims.Only [.mon, .free, .twi] s (slotWritten c code ovr (modMon (slotShown i) s)) := by
  have htear : ∀ t, Claims.Only [.mon, .free, .twi] t (tearShadows c t) := fun t =>
    only_trans (only_mono (modTwi_only _ t) (by simp)) (only_mono (modMon_only _ _) (by simp))
  exact only_trans (only_mono (modMon_only _ s) (by simp)) (only_trans (htear _)
    (only_trans (only_mono (modMon_only _ _) (by simp)) (only_mono (tookFree_only _) (by simp))))

/-! ### The result -/

theorem writeResult_invalid (c : Fin 24) (code : BitVec 24) (ovr : Bool) (free : Nat) (m : Mon) (h : m.invalid[c] ≠ 0) :
    writeResult c code ovr free m = { m with
      invalid := vmod m.invalid c (· - 1), cntInvalid := m.cntInvalid + 1
      res := vset m.res c { seq := m.res[c].seq + 1, invalid := true, refCold := m.refCold, ovr := ovr, filtered := false
                            data := code } } :=
  if_pos (bne_iff_ne.mpr h)

theorem writeResult_unfiltered (c : Fin 24) (code : BitVec 24) (ovr : Bool) (free : Nat) (m : Mon) (h : m.invalid[c] = 0)
    (hpost : m.postMask.getLsbD c.val = false) :
    (writeResult c code ovr free m).res = vset m.res c { seq := m.res[c].seq + 1, invalid := false, refCold := m.refCold
                                                         ovr := ovr, filtered := false, data := code } := by
  unfold writeResult
  simp only [h, hpost, bne_self_eq_false, Bool.false_eq_true, if_false, Bool.false_and]

theorem writeResult_loops (c : Fin 24) (code : BitVec 24) (ovr : Bool) (free : Nat) (m : Mon) :
    (writeResult c code ovr free m).loops = m.loops :=
  ite_kept Mon.loops rfl rfl

/-! ### The loops -/

/-- The dither edges change neither the mode nor the channel of a loop. -/
theorem applyEdges_loop (m : Mon) (j : Nat) (k : Fin 24) :
    (applyEdges m j).loops[k].mode = m.loops[k].mode ∧ (applyEdges m j).loops[k].chan = m.loops[k].chan := by
  simp only [applyEdges, Fin.getElem_fin, Vector.getElem_map]
  split
  · split <;> exact ⟨rfl, rfl⟩
  · exact ⟨rfl, rfl⟩

/-- A loop without a dither edge is as it was. -/
theorem applyEdges_still (m : Mon) (j : Nat) (k : Fin 24) (h : m.loops[k].edge = none) :
    (applyEdges m j).loops[k] = m.loops[k] := by
  have h' : (m.loops[k.val]).edge = none := h
  simp only [applyEdges, Fin.getElem_fin, Vector.getElem_map, h']

theorem slotWritten_loops (c : Fin 24) (code : BitVec 24) (ovr : Bool) (i : Nat) (s : State) :
    (slotWritten c code ovr (modMon (slotShown i) s)).mon.loops = (slotShown i s.mon).loops :=
  writeResult_loops c code ovr _ _

/-- The loops that a result of channel `c` reaches. -/
def fedLoops (c : Fin 24) (m : Mon) : List (Fin 24) :=
  (List.finRange 24).filter fun k => m.loops[k].runs && m.loops[k].chan.toNat == c.val

/-- A loop takes the result, and its port's alarms and outputs follow. -/
def feedLoop (code : BitVec 24) (k : Fin 24) (s : State) : State :=
  biasPort (Fin.ofNat 4 (k.val / 6))
    (tookFree (modMon (fun m => { m with loops := vmod m.loops k (BiasLoop.feed code.toNat s.free) }) s))

theorem feedLoops_eq (c : Fin 24) (code : BitVec 24) (s : State) :
    feedLoops c code s = eachOf (fedLoops c s.mon) (feedLoop code) s := rfl

theorem feedLoop_fed (code : BitVec 24) (k : Fin 24) (s : State) :
    (feedLoop code k s).mon.loops[k] = BiasLoop.feed code.toNat s.free s.mon.loops[k] := by
  have hloops : (feedLoop code k s).mon.loops = vmod s.mon.loops k (BiasLoop.feed code.toNat s.free) :=
    congrArg Mon.loops (biasPort_mon _ _)
  rw [hloops, vmod_same]

theorem fedLoops_none (c : Fin 24) (m : Mon)
    (h : ∀ k : Fin 24, m.loops[k].runs = true → m.loops[k].chan.toNat ≠ c.val) : fedLoops c m = [] := by
  refine List.filter_eq_nil_iff.mpr fun k _ hk => ?_
  obtain ⟨hruns, hchan⟩ := Bool.and_eq_true_iff.mp hk
  exact h k hruns (beq_iff_eq.mp hchan)

theorem fedLoops_one (c k : Fin 24) (m : Mon) (hruns : m.loops[k].runs = true) (hchan : m.loops[k].chan.toNat = c.val)
    (h : ∀ j : Fin 24, j ≠ k → m.loops[j].runs = true → m.loops[j].chan.toNat ≠ c.val) : fedLoops c m = [k] := by
  have hiff : ∀ j ∈ List.finRange 24, (m.loops[j].runs && m.loops[j].chan.toNat == c.val) = (j == k) := by
    intro j _
    by_cases hj : j = k
    · simp only [hj, hruns, hchan, beq_self_eq_true, Bool.and_self]
    · rw [beq_eq_false_iff_ne.mpr hj, Bool.and_eq_false_imp]
      exact fun hr => beq_eq_false_iff_ne.mpr (h j hj hr)
  rw [fedLoops, List.filter_congr hiff, List.filter_beq,
    List.count_eq_one_of_mem (List.nodup_finRange 24) (List.mem_finRange k)]
  rfl

theorem judge_code (limited : Bool) (l : BiasLoop) : (l.judge limited).code = l.code := by
  unfold BiasLoop.judge
  split
  case h_5 | h_6 => rfl
  all_goals exact ite_kept BiasLoop.code rfl rfl

/-- A loop in SETPOINT takes one step, limited by STEP_MAX and by its code range (R448). -/
theorem feed_setpoint (v free : Nat) (l : BiasLoop) (h : l.mode = .setpoint) :
    (l.feed v free).drive = (l.feed v free).code ∧ (l.feed v free).code = (clampI l.codeMin l.codeMax
      (if l.sign then l.code + clampI (-(l.stepMax : Int)) l.stepMax (rdiv (((v : Int) - l.target) * l.ki) 65536)
        else l.code - clampI (-(l.stepMax : Int)) l.stepMax (rdiv (((v : Int) - l.target) * l.ki) 65536))).toNat := by
  have hfeed : l.feed v free = { l.update ((v : Int) - l.target) 1 with drive := (l.update ((v : Int) - l.target) 1).code } := by
    unfold BiasLoop.feed
    rw [h]
  rw [hfeed]
  exact ⟨rfl, judge_code _ _⟩

/-! ### The slots -/

theorem slotShown_runs (i : Nat) (m : Mon) (k : Fin 24) :
    (slotShown i m).loops[k].runs = m.loops[k].runs ∧ (slotShown i m).loops[k].chan = m.loops[k].chan := by
  obtain ⟨hmode, hchan⟩ := applyEdges_loop { m with slot := some i } i k
  exact ⟨by rw [BiasLoop.runs, slotShown, hmode, BiasLoop.runs], hchan⟩

/-- An INVALID output is counted and written, and reaches no loop. -/
theorem slotWritten_invalid (c : Fin 24) (code : BitVec 24) (ovr : Bool) (i : Nat) (s : State) (h : s.mon.invalid[c] ≠ 0) :
    let m := (slotWritten c code ovr (modMon (slotShown i) s)).mon
    m.res = vset s.mon.res c { seq := s.mon.res[c].seq + 1, invalid := true, refCold := s.mon.refCold, ovr := ovr
                               filtered := false, data := code } ∧
    m.invalid = vmod s.mon.invalid c (· - 1) ∧ m.cntInvalid = s.mon.cntInvalid + 1 := by
  obtain ⟨n, hmon⟩ := slotWritten_mon c code ovr i s
  dsimp only
  rw [hmon, writeResult_invalid c code ovr s.free (withTorn n (slotShown i s.mon)) h]
  exact ⟨rfl, rfl, rfl⟩

/-- Any other output without the post-filter is the code itself. -/
theorem slotWritten_unfiltered (c : Fin 24) (code : BitVec 24) (ovr : Bool) (i : Nat) (s : State)
    (h : s.mon.invalid[c] = 0) (hpost : s.mon.postMask.getLsbD c.val = false) :
    (slotWritten c code ovr (modMon (slotShown i) s)).mon.res = vset s.mon.res c
      { seq := s.mon.res[c].seq + 1, invalid := false, refCold := s.mon.refCold, ovr := ovr, filtered := false
        data := code } := by
  obtain ⟨n, hmon⟩ := slotWritten_mon c code ovr i s
  rw [hmon]
  exact writeResult_unfiltered c code ovr s.free (withTorn n (slotShown i s.mon)) h hpost

theorem monSlotsComplete : Claims.MonSlotsComplete := by
  intro c code ovr s
  refine ⟨fun hoff => congrArg Host.Outcome.next (if_neg (by simp [hoff])), fun hrun hround hscan => ?_⟩
  obtain ⟨i, hend⟩ := monSlotEnd_scanned c code ovr s hrun hround hscan
  have honly := slotWritten_only c code ovr i s
  have hbad : s.mon.invalid[c] ≠ 0 → (s.mon.invalid[c] == 0 && !s.mon.refCold) = false := fun h => by
    rw [beq_eq_false_iff_ne.mpr h, Bool.false_and]
  have hgood : s.mon.invalid[c] = 0 → s.mon.refCold = false → (s.mon.invalid[c] == 0 && !s.mon.refCold) = true :=
    fun h hcold => by rw [h, hcold]; rfl
  refine ⟨fun hinv => ?_, fun hinv hcold hpost hfree => ?_, fun k hinv hcold hmode hedge hchan halone => ?_⟩
  · rw [hbad hinv] at hend
    obtain ⟨hres, hleft, hcount⟩ := slotWritten_invalid c code ovr i s hinv
    refine ⟨_, congrArg Host.Outcome.next hend, honly, ?_⟩
    rw [if_neg Bool.false_ne_true, hres, hleft]
    exact ⟨vset_same _ _ _, vmod_same _ _ _, hcount, fun d hd => vset_other _ _ _ _ hd⟩
  · have hnone : fedLoops c (slotWritten c code ovr (modMon (slotShown i) s)).mon = [] := by
      refine fedLoops_none c _ fun k => ?_
      rw [slotWritten_loops, (slotShown_runs i s.mon k).1, (slotShown_runs i s.mon k).2]
      exact hfree k
    rw [if_pos (hgood hinv hcold), feedLoops_eq, hnone] at hend
    refine ⟨_, congrArg Host.Outcome.next hend, honly, ?_⟩
    have hres := slotWritten_unfiltered c code ovr i s hinv hpost
    rw [hcold] at hres
    exact ⟨(congrArg (·[c]) hres).trans (vset_same _ _ _), fun d hd => (congrArg (·[d]) hres).trans (vset_other _ _ _ _ hd)⟩
  · have hruns : s.mon.loops[k].runs = true := by
      rw [BiasLoop.runs, hmode]
      rfl
    have hone : fedLoops c (slotWritten c code ovr (modMon (slotShown i) s)).mon = [k] := by
      refine fedLoops_one c k _ ?_ ?_ fun j hj => ?_
      · rw [slotWritten_loops, (slotShown_runs i s.mon k).1, hruns]
      · rw [slotWritten_loops, (slotShown_runs i s.mon k).2, hchan]
      · rw [slotWritten_loops, (slotShown_runs i s.mon j).1, (slotShown_runs i s.mon j).2]
        exact halone j hj
    have hloop : (slotWritten c code ovr (modMon (slotShown i) s)).mon.loops[k] = s.mon.loops[k] := by
      rw [slotWritten_loops]
      exact applyEdges_still _ i k hedge
    rw [if_pos (hgood hinv hcold), feedLoops_eq, hone] at hend
    have hfed := feedLoop_fed code k (slotWritten c code ovr (modMon (slotShown i) s))
    rw [hloop] at hfed
    obtain ⟨hdrive, hcode⟩ := feed_setpoint code.toNat (slotWritten c code ovr (modMon (slotShown i) s)).free s.mon.loops[k]
      hmode
    rw [← hfed] at hdrive hcode
    exact ⟨_, congrArg Host.Outcome.next hend, hcode, hdrive.trans hcode⟩

/-! ### The timers -/

/-- The alarms of a port follow its loops (R449). -/
theorem biasPort_unsettled (p : LPort) (s : State) : alarmOn (biasPort p s) (.line p) 19 =
    (List.range 6).any fun i => (loopOf s p i).st == .unsettled := by
  have hrefresh : ∀ t, alarmOn (refreshPort p t) (.line p) 19 = alarmOn t (.line p) 19 := fun t =>
    congrArg (fun a : Alarm => bit a.active 19) (getAlarm_congr (by simp) _)
  rw [biasPort]
  dsimp only
  rw [hrefresh, alarmOn_setAlarm _ _ _ _ (by decide)]

/-- Loop `k` is one of the six of its port. -/
theorem loopOf_eq (s : State) (k : Fin 24) (p : LPort) (h : p.val = k.val / 6) : loopOf s p (k.val % 6) = s.mon.loops[k] := by
  have hk : Fin.ofNat 24 (6 * p.val + k.val % 6) = k := by
    rw [h, Nat.div_add_mod]
    exact Fin.ext (Nat.mod_eq_of_lt k.isLt)
  exact congrArg (fun j : Fin 24 => s.mon.loops[j]) hk

theorem monTimersComplete : Claims.MonTimersComplete := by
  refine fun s => ⟨rfl, fun k p hp => ⟨fun hrun hdrift => ?_, fun hst => ?_⟩⟩
  · have hexp : biasGraceExpiry k s = biasPort p (unsettle k s) := by
      rw [← loopPort_eq k p hp]
      exact if_pos (by rw [hrun, hdrift]; rfl)
    have hloop : (unsettle k s).mon.loops[k] = s.mon.loops[k].enter .unsettled := vmod_same _ _ _
    have hunsettled : (loopOf (unsettle k s) p (k.val % 6)).st = .unsettled := by
      rw [loopOf_eq _ k p hp, hloop]
      rfl
    refine ⟨_, congrArg Host.Outcome.next hexp, ?_⟩
    rw [biasPort_mon, biasPort_unsettled, hloop]
    refine ⟨rfl, rfl, rfl, List.any_eq_true.mpr ⟨k.val % 6, List.mem_range.mpr (Nat.mod_lt _ (by decide)),
      beq_iff_eq.mpr hunsettled⟩, ?_⟩
    exact only_trans (only_mono (modMon_only _ s) (by simp)) (only_mono (biasPort_only p _) (by simp))
  · refine congrArg Host.Outcome.next (if_neg ?_)
    rw [beq_eq_false_iff_ne.mpr hst, Bool.and_false]
    exact Bool.false_ne_true

end Sys2Proof.Machine

open Sys2Proof Sys2Proof.Machine

/-- Settles O41: a slot inside a round shows the dither edges, writes the result and feeds the loops on its channel, each
step with its own lemma. The rounding of a loop's step is the model's choice (notes/assumptions 109). -/
theorem monEventsComplete : Obligations.MonEventsComplete := ⟨monSlotsComplete, monTimersComplete⟩

end
